-- ==== Sys2Proof/Word.lean ====
section
/-! DEFINITION. The word types of the module and their plainest arithmetic (R8, R9). -/

namespace Sys2Proof

/-- A register or instruction word (R9). -/
abbrev Word := BitVec 32
/-- A byte of memory. -/
abbrev Byte := BitVec 8
/-- A 64-bit count: the time base (R29), the cycle counter (R32). -/
abbrev Long := BitVec 64
/-- An accumulator (R234). -/
abbrev AccWord := BitVec 72

end Sys2Proof
end

