-- ==== Sys2Proof/Syntax.lean ====
section
/-! DEFINITION. The commands of the block: one constructor of Instr per row of the opcode table, and the
types of their operands. A Nerop row is one slot of one core; an event row is that event happening. -/

namespace Sys2Proof

/-- The programmable cores (R12, R13, R19): 0 to 3 the pairs SP0 to SP3, 4 to 9 the lane cores A0, A1, B0, B1,
C0, C1, 10 the Steward. -/
abbrev CoreId := Fin 11
/-- A general register g0 to g31 (R234). -/
abbrev Reg := Fin 32
/-- A predicate p0 to p7 (R234). -/
abbrev Pred := Fin 8
/-- An accumulator a0 to a3 (R234). -/
abbrev Acc := Fin 4
/-- A domain: 0 to 3 SP0 to SP3, 4 TX0, 5 TX1 (R368, R381). -/
abbrev DomId := Fin 6
/-- A field group G0 to G5 (R334). -/
abbrev GroupId := Fin 6

/-- Another write that reaches the other port of the bank in the same clock and touches the same 8-byte word
(R323): its master index (R333), its traffic class (R24) and whether it uses port 0. -/
structure Meet where
  master : Fin 16
  cls : Fin 4
  onPort0 : Bool
  deriving DecidableEq, Repr

/-- What every Nerop command carries: the core, the guard fields PG and PN (R240), the write that collides with its store, if any, and the one that
collides with the second masked write of a BFST (R263). -/
structure Hdr where
  core : CoreId
  pg : Pred
  pn : Bool
  meet : Option Meet
  meet2 : Option Meet := none
  deriving DecidableEq, Repr

/-- The AREA and BADDR fields of the BIT format (R243, R260). -/
structure BitRef where
  area : Fin 4
  baddr : BitVec 14
  deriving DecidableEq, Repr

/-- A master of the fabric (R22, R333). -/
inductive Master where
  | sp (n : Fin 4) | lane (l : Fin 3) (k : Fin 2) | steward | ce (n : Fin 2) | lss (n : Fin 2)
  | laneUnit (l : Fin 3) | outputGuard | copier | scrubber | voter | lease | supervision | debugPort
  deriving DecidableEq, Repr

/-- Who makes a register access, and whether at privilege K (R302). -/
structure Access where
  master : Master
  atK : Bool
  deriving DecidableEq, Repr

/-- Who makes a request to the Mode Arbiter (R473). -/
inductive ReqSrc where
  | steward | debugPort | laneCore
  deriving DecidableEq, Repr

/-- A received ring frame: its addresses, EtherType and payload, and whether its FCS was good (R155). -/
structure Frame where
  dst : BitVec 48
  src : BitVec 48
  etype : BitVec 16
  payload : List Byte
  fcsGood : Bool
  deriving DecidableEq, Repr

/-- A ring port: 0 X2, 1 X3, 2 X4, 3 X5 (R153, R487). -/
abbrev Port := Fin 4

/-- The rate and duplex at which a link comes up (R154). -/
inductive LinkMode where
  | full1000 | full2500 | other
  deriving DecidableEq, Repr

/-- A freight request as submitted to the Coach Engine (R172, R176): SRC 0 Steward, 1 to 4 SP0 to SP3. -/
structure FrtReq where
  src : Fin 5
  op : Byte
  path : List (BitVec 12)
  index : Word
  data : List Byte
  deriving DecidableEq, Repr

/-- What a received sync message carries around its body: the source address, the header, and the CRC at its end (R208). -/
structure SyncHdr where
  src : BitVec 48
  ver : Byte
  unit : Bool
  role : BitVec 3
  mseq : Word
  cyc : Long
  epoch : Word
  crc : Word
  deriving DecidableEq, Repr

/-- A sync message as it comes: what stands around the body, its type, and the body's bytes (R208). -/
structure SyncRaw where
  hdr : SyncHdr
  type : Byte
  body : List Byte
  deriving DecidableEq, Repr

/-- The body of HELLO (R209): the identities of the six domains' images, of the stratum set and of the layout, and the versions that the sender
provides of the interfaces SYNC and MBX between modules (R395; log entry 10). -/
structure HelloBody where
  images : Vector Long 6
  setId : Long
  confId : Word
  syncVer : BitVec 16
  mbxVer : BitVec 16
  deriving DecidableEq, Repr

/-- The body of DELTA: area, offset, data, and the CRC of the data (R209). -/
structure DeltaBody where
  area : Byte
  offset : Word
  data : List Byte
  crc : Word
  deriving DecidableEq, Repr

/-- One 5-byte entry of DELTA_REQ (R209). -/
structure DeltaRef where
  area : Byte
  offset : Word
  deriving DecidableEq, Repr

/-- How a datagram reached the Steward (R354, R355): X6 from an address and port, as a whole or as one fragment
(identification, offset, more fragments), ring freight, or the sync link. -/
inductive Carrier where
  | x6 (ip : Word) (port : BitVec 16)
  | x6Fragment (ip : Word) (port : BitVec 16) (id : BitVec 16) (offset : BitVec 13) (more : Bool)
  | freight
  | sync
  | foreign
  deriving DecidableEq, Repr

/-- A command's slot: session 0 to 3, or 4 for the partner, and its tag (R361, R366). -/
structure CmdRef where
  sess : Fin 5
  tag : BitVec 16
  deriving DecidableEq, Repr

/-- The outcome a lower layer gives a command (R374). -/
inductive LowerOutcome where
  | success (data : List Byte) | link | medium | stationErr (code : Byte) | cancelledDisable
  deriving DecidableEq, Repr

/-- What a page write of the parameter store meets: verified and committed, a failed verify, or an interruption
before or after the commit word was complete (R443, R445). -/
inductive ProgOutcome where
  | committed | verifyFailed | cutBefore | cutAfter
  deriving DecidableEq, Repr

/-- What the boot steps find (R460, R463, R466); `true` is good. -/
structure BootFindings where
  pllRoot : Bool
  psScan : Bool
  dram : Bool
  archive : Bool
  setVerified : Bool
  firmware : Bool
  phys : Bool
  groups : BitVec 6
  lanes : BitVec 3
  lanePll : BitVec 3
  pairs : BitVec 4
  cfgSet : Bool
  capPercent : Byte
  deriving DecidableEq, Repr

/-- The transceiver found in X7 (R507). -/
inductive Sfp where
  | none | good | wrongType | overPower
  deriving DecidableEq, Repr

/-- A contact of the key switch S1 that has held for 10 ms (R475). -/
inductive KeyPos where
  | stop | run | service
  deriving DecidableEq, Repr

/-- A fuse field the debug port may blow (R502). -/
inductive FuseField where
  | khash (n : Fin 8) | ckek | dbgClose
  deriving DecidableEq, Repr

/-- What an attached lane debugger does (R116). -/
inductive LaneAct where
  | halt (k : Fin 2) | resume (k : Fin 2) | step (k : Fin 2)
  | readReg (k : Fin 2) (r : Reg) | writeReg (k : Fin 2) (r : Reg) (v : Word)
  | readPreds (k : Fin 2) | writePred (k : Fin 2) (p : Pred) (v : Bool)
  | readSr (k : Fin 2) (sr : Fin 64) | writeSr (k : Fin 2) (sr : Fin 64) (v : Word)
  | readAddr (k : Fin 2) | writeAddr (k : Fin 2) (a : Word)
  | readMem (a : BitVec 24) | writeMem (a : BitVec 24) (v : BitVec 64)
  deriving DecidableEq, Repr

/-- One constructor per row of spec/opcode_table.json, in its order. -/
inductive Instr where
  | add (h : Hdr) (rd : Reg) (rs1 : Reg) (rs2 : Reg)  -- ADD (R246)
  | sub (h : Hdr) (rd : Reg) (rs1 : Reg) (rs2 : Reg)  -- SUB (R246)
  | addS (h : Hdr) (rd : Reg) (rs1 : Reg) (rs2 : Reg)  -- ADD_S (R246)
  | subS (h : Hdr) (rd : Reg) (rs1 : Reg) (rs2 : Reg)  -- SUB_S (R246)
  | and (h : Hdr) (rd : Reg) (rs1 : Reg) (rs2 : Reg)  -- AND (R246)
  | or (h : Hdr) (rd : Reg) (rs1 : Reg) (rs2 : Reg)  -- OR (R246)
  | xor (h : Hdr) (rd : Reg) (rs1 : Reg) (rs2 : Reg)  -- XOR (R246)
  | andn (h : Hdr) (rd : Reg) (rs1 : Reg) (rs2 : Reg)  -- ANDN (R246)
  | sll (h : Hdr) (rd : Reg) (rs1 : Reg) (rs2 : Reg)  -- SLL (R246)
  | srl (h : Hdr) (rd : Reg) (rs1 : Reg) (rs2 : Reg)  -- SRL (R246)
  | sra (h : Hdr) (rd : Reg) (rs1 : Reg) (rs2 : Reg)  -- SRA (R246)
  | ror (h : Hdr) (rd : Reg) (rs1 : Reg) (rs2 : Reg)  -- ROR (R246)
  | min (h : Hdr) (rd : Reg) (rs1 : Reg) (rs2 : Reg)  -- MIN (R246)
  | max (h : Hdr) (rd : Reg) (rs1 : Reg) (rs2 : Reg)  -- MAX (R246)
  | minu (h : Hdr) (rd : Reg) (rs1 : Reg) (rs2 : Reg)  -- MINU (R246)
  | maxu (h : Hdr) (rd : Reg) (rs1 : Reg) (rs2 : Reg)  -- MAXU (R246)
  | absS (h : Hdr) (rd : Reg) (rs1 : Reg)  -- ABS_S (R246)
  | negS (h : Hdr) (rd : Reg) (rs1 : Reg)  -- NEG_S (R246)
  | add2S (h : Hdr) (rd : Reg) (rs1 : Reg) (rs2 : Reg)  -- ADD2_S (R246)
  | sub2S (h : Hdr) (rd : Reg) (rs1 : Reg) (rs2 : Reg)  -- SUB2_S (R246)
  | clz (h : Hdr) (rd : Reg) (rs1 : Reg)  -- CLZ (R246)
  | popc (h : Hdr) (rd : Reg) (rs1 : Reg)  -- POPC (R246)
  | cmpEq (h : Hdr) (pd : Pred) (rs1 : Reg) (rs2 : Reg)  -- EQ (R247)
  | cmpNe (h : Hdr) (pd : Pred) (rs1 : Reg) (rs2 : Reg)  -- NE (R247)
  | cmpLt (h : Hdr) (pd : Pred) (rs1 : Reg) (rs2 : Reg)  -- LT (R247)
  | cmpGe (h : Hdr) (pd : Pred) (rs1 : Reg) (rs2 : Reg)  -- GE (R247)
  | cmpLtu (h : Hdr) (pd : Pred) (rs1 : Reg) (rs2 : Reg)  -- LTU (R247)
  | cmpGeu (h : Hdr) (pd : Pred) (rs1 : Reg) (rs2 : Reg)  -- GEU (R247)
  | pand (h : Hdr) (pd : Pred) (pa : Pred) (pb : Pred)  -- PAND (R247)
  | por (h : Hdr) (pd : Pred) (pa : Pred) (pb : Pred)  -- POR (R247)
  | pxor (h : Hdr) (pd : Pred) (pa : Pred) (pb : Pred)  -- PXOR (R247)
  | pandn (h : Hdr) (pd : Pred) (pa : Pred) (pb : Pred)  -- PANDN (R247)
  | pnot (h : Hdr) (pd : Pred) (pa : Pred)  -- PNOT (R247)
  | mulI (h : Hdr) (ad : Acc) (rs1 : Reg) (rs2 : Reg)  -- MUL_I (R248)
  | macI (h : Hdr) (ad : Acc) (rs1 : Reg) (rs2 : Reg)  -- MAC_I (R248)
  | msuI (h : Hdr) (ad : Acc) (rs1 : Reg) (rs2 : Reg)  -- MSU_I (R248)
  | mulU (h : Hdr) (ad : Acc) (rs1 : Reg) (rs2 : Reg)  -- MUL_U (R248)
  | macU (h : Hdr) (ad : Acc) (rs1 : Reg) (rs2 : Reg)  -- MAC_U (R248)
  | mulQ31 (h : Hdr) (ad : Acc) (rs1 : Reg) (rs2 : Reg)  -- MUL_Q31 (R248)
  | macQ31 (h : Hdr) (ad : Acc) (rs1 : Reg) (rs2 : Reg)  -- MAC_Q31 (R248)
  | msuQ31 (h : Hdr) (ad : Acc) (rs1 : Reg) (rs2 : Reg)  -- MSU_Q31 (R248)
  | mulQ15 (h : Hdr) (ad : Acc) (rs1 : Reg) (rs2 : Reg)  -- MUL_Q15 (R248)
  | macQ15 (h : Hdr) (ad : Acc) (rs1 : Reg) (rs2 : Reg)  -- MAC_Q15 (R248)
  | msuQ15 (h : Hdr) (ad : Acc) (rs1 : Reg) (rs2 : Reg)  -- MSU_Q15 (R248)
  | mac2Q15 (h : Hdr) (ad : Acc) (rs1 : Reg) (rs2 : Reg)  -- MAC2_Q15 (R248)
  | extI (h : Hdr) (rd : Reg) (a : Acc) (sh : Fin 32) (rm : Fin 8) (sat : Fin 4)  -- EXT_I (R249)
  | extQ31 (h : Hdr) (rd : Reg) (a : Acc) (sh : Fin 32) (rm : Fin 8) (sat : Fin 4)  -- EXT_Q31 (R249)
  | extQ15 (h : Hdr) (rd : Reg) (a : Acc) (sh : Fin 32) (rm : Fin 8) (sat : Fin 4)  -- EXT_Q15 (R249)
  | aclr (h : Hdr) (ad : Acc)  -- ACLR (R249)
  | aset (h : Hdr) (ad : Acc) (rs1 : Reg) (sh : Fin 32)  -- ASET (R249)
  | aadd (h : Hdr) (ad : Acc) (am : Acc)  -- AADD (R249)
  | ashr (h : Hdr) (ad : Acc) (sh : Fin 32)  -- ASHR (R249)
  | addi (h : Hdr) (rd : Reg) (rs1 : Reg) (imm : BitVec 12)  -- ADDI (R245)
  | andi (h : Hdr) (rd : Reg) (rs1 : Reg) (imm : BitVec 12)  -- ANDI (R245)
  | ori (h : Hdr) (rd : Reg) (rs1 : Reg) (imm : BitVec 12)  -- ORI (R245)
  | xori (h : Hdr) (rd : Reg) (rs1 : Reg) (imm : BitVec 12)  -- XORI (R245)
  | ori12 (h : Hdr) (rd : Reg) (rs1 : Reg) (imm : BitVec 12)  -- ORI_12 (R245)
  | ori24 (h : Hdr) (rd : Reg) (rs1 : Reg) (imm : BitVec 8)  -- ORI_24 (R245)
  | slli (h : Hdr) (rd : Reg) (rs1 : Reg) (sh : Fin 32)  -- SLLI (R245)
  | srli (h : Hdr) (rd : Reg) (rs1 : Reg) (sh : Fin 32)  -- SRLI (R245)
  | srai (h : Hdr) (rd : Reg) (rs1 : Reg) (sh : Fin 32)  -- SRAI (R245)
  | cmpi (h : Hdr) (pd : Pred) (cond : Fin 4) (rs1 : Reg) (imm : BitVec 12)  -- CMPI (R245)
  | ldb (h : Hdr) (rd : Reg) (rs1 : Reg) (imm : BitVec 12)  -- LDB (R245)
  | ldbu (h : Hdr) (rd : Reg) (rs1 : Reg) (imm : BitVec 12)  -- LDBU (R245)
  | ldh (h : Hdr) (rd : Reg) (rs1 : Reg) (imm : BitVec 12)  -- LDH (R245)
  | ldhu (h : Hdr) (rd : Reg) (rs1 : Reg) (imm : BitVec 12)  -- LDHU (R245)
  | ldw (h : Hdr) (rd : Reg) (rs1 : Reg) (imm : BitVec 12)  -- LDW (R245)
  | stb (h : Hdr) (rd : Reg) (rs1 : Reg) (imm : BitVec 12)  -- STB (R245)
  | sth (h : Hdr) (rd : Reg) (rs1 : Reg) (imm : BitVec 12)  -- STH (R245)
  | stw (h : Hdr) (rd : Reg) (rs1 : Reg) (imm : BitVec 12)  -- STW (R245)
  | branch (h : Hdr) (disp : BitVec 18)  -- B (R244)
  | bl (h : Hdr) (disp : BitVec 18)  -- BL (R244)
  | jr (h : Hdr) (rs1 : Reg)  -- JR (R245)
  | jlr (h : Hdr) (rs1 : Reg)  -- JLR (R245)
  | mfsr (h : Hdr) (rd : Reg) (sr : Fin 64)  -- MFSR (R250)
  | mtsr (h : Hdr) (rs : Reg) (sr : Fin 64)  -- MTSR (R250)
  | trapSw (h : Hdr) (sx : Fin 64)  -- TRAP (R250)
  | rte (h : Hdr)  -- RTE (R300)
  | waitInt (h : Hdr)  -- WAIT (R304)
  | fence (h : Hdr)  -- FENCE (R250)
  | rmuCheck (h : Hdr) (rd : Reg) (rs : Reg)  -- RMU_CHECK (R128)
  | rmuLock (h : Hdr) (rd : Reg) (rs : Reg)  -- RMU_LOCK (R128)
  | rmuRelease (h : Hdr) (rd : Reg) (rs : Reg)  -- RMU_RELEASE (R128)
  | bld (h : Hdr) (px : Pred) (ref : BitRef)  -- BLD (R262)
  | bldn (h : Hdr) (px : Pred) (ref : BitRef)  -- BLDN (R262)
  | bset (h : Hdr) (ref : BitRef)  -- BSET (R262)
  | bclr (h : Hdr) (ref : BitRef)  -- BCLR (R262)
  | btgl (h : Hdr) (ref : BitRef)  -- BTGL (R262)
  | bst (h : Hdr) (px : Pred) (ref : BitRef)  -- BST (R262)
  | bstn (h : Hdr) (px : Pred) (ref : BitRef)  -- BSTN (R262)
  | tsb (h : Hdr) (px : Pred) (ref : BitRef)  -- TSB (R262)
  | red (h : Hdr) (px : Pred) (ref : BitRef)  -- RED (R265)
  | fed (h : Hdr) (px : Pred) (ref : BitRef)  -- FED (R265)
  | aed (h : Hdr) (px : Pred) (ref : BitRef)  -- AED (R265)
  | eupd (h : Hdr) (px : Pred) (ref : BitRef)  -- EUPD (R265)
  | bfld (h : Hdr) (rd : Reg) (rs1 : Reg) (wm1 : Fin 32) (sgn : Bool)  -- BFLD (R267)
  | bfst (h : Hdr) (rd : Reg) (rs1 : Reg) (wm1 : Fin 32)  -- BFST (R267)
  | ton (h : Hdr) (pd : Pred) (rs1 : Reg) (pin : Pred)  -- TON (R269)
  | tof (h : Hdr) (pd : Pred) (rs1 : Reg) (pin : Pred)  -- TOF (R269)
  | tp (h : Hdr) (pd : Pred) (rs1 : Reg) (pin : Pred)  -- TP (R269)
  | trst (h : Hdr) (rs1 : Reg)  -- TRST (R269)
  | tet (h : Hdr) (rd : Reg) (rs1 : Reg)  -- TET (R269)
  | ctu (h : Hdr) (pd : Pred) (rs1 : Reg) (pin : Pred)  -- CTU (R271)
  | ctd (h : Hdr) (pd : Pred) (rs1 : Reg) (pin : Pred)  -- CTD (R271)
  | crst (h : Hdr) (rs1 : Reg)  -- CRST (R271)
  | cld (h : Hdr) (rs1 : Reg)  -- CLD (R271)
  | ctv (h : Hdr) (rd : Reg) (rs1 : Reg)  -- CTV (R271)
  | vote (h : Hdr) (rd : Reg) (rs1 : Reg)  -- VOTE (R272)
  | rpti (h : Hdr) (rd : Reg) (step : BitVec 5) (cnt : BitVec 12)  -- RPTI (R273)
  | rptr (h : Hdr) (rd : Reg) (rs1 : Reg) (step : BitVec 12)  -- RPTR (R273)
  | lrW (h : Hdr) (rd : Reg) (rs1 : Reg)  -- LR_W (R279)
  | scW (h : Hdr) (rd : Reg) (rs1 : Reg) (rs2 : Reg)  -- SC_W (R279)
  | reservedEncoding (c : CoreId) (w : BitVec 32)  -- RESERVED_ENCODING (R242)
  | interruptEntry (c : CoreId)  -- INTERRUPT_ENTRY (R297)
  | cycleStart  -- CYCLE_START (R39)
  | frameReceive (p : Port) (f : Frame)  -- FRAME_RECEIVE (R162)
  | inputReady  -- INPUT_READY (R37)
  | returnLimit  -- RETURN_LIMIT (R37)
  | timeSourceChange  -- TIME_SOURCE_CHANGE (R193)
  | agreementEnd (g : Fin 2)  -- AGREEMENT_END (R94)
  | agreementLimit (g : Fin 2) (l : Fin 3)  -- AGREEMENT_LIMIT (R95)
  | taskRelease (n : Fin 4)  -- TASK_RELEASE (R39)
  | taskComplete (c : CoreId) (t : Fin 16)  -- TASK_COMPLETE (R40)
  | outputDeadline  -- OUTPUT_DEADLINE (R39)
  | overrunLimitStop (n : Fin 4)  -- OVERRUN_LIMIT_STOP (R54)
  | votePointComplete (g : Fin 2)  -- VOTE_POINT_COMPLETE (R99)
  | voteWindowClose (g : Fin 2)  -- VOTE_WINDOW_CLOSE (R98)
  | candidateCompare (g : Fin 2)  -- CANDIDATE_COMPARE (R106)
  | lsStart (c : CoreId) (i : Fin 5) (e : BitVec 4)  -- LS_START (R84)
  | lsAbort (c : CoreId) (i : Fin 5)  -- LS_ABORT (R84)
  | lsLoad (c : CoreId) (i : Fin 5)  -- LS_LOAD (R85)
  | lsUnload (c : CoreId) (i : Fin 5)  -- LS_UNLOAD (R85)
  | lsDone (i : Fin 5)  -- LS_DONE (R76)
  | lsOvertime (i : Fin 5)  -- LS_OVERTIME (R86)
  | lsWindowAccess (c : CoreId) (i : Fin 5) (wr : Bool) (off : BitVec 15) (v : Word)  -- LS_WINDOW_ACCESS (R78)
  | reint (src : ReqSrc) (lane : Fin 4)  -- REINT (R105)
  | maintOut (src : ReqSrc) (lane : Fin 4)  -- MAINT_OUT (R529)
  | abortReint (src : ReqSrc) (lane : Fin 4)  -- ABORT_REINT (R109)
  | debugAttach (src : ReqSrc) (lane : Fin 4)  -- DEBUG_ATTACH (R116)
  | debugDetach (src : ReqSrc) (lane : Fin 4)  -- DEBUG_DETACH (R117)
  | reintAutoStart  -- REINT_AUTO_START (R105)
  | reintPowerDown  -- REINT_POWER_DOWN (R106)
  | reintPowerOn  -- REINT_POWER_ON (R106)
  | reintPllLock (ok : Bool)  -- REINT_PLL_LOCK (R106)
  | reintBistDone (ok : Bool)  -- REINT_BIST_DONE (R106)
  | reintCopyDone (region : Fin 3)  -- REINT_COPY_DONE (R106)
  | reintRegionClean (g : Fin 2)  -- REINT_REGION_CLEAN (R106)
  | copyNoconv (g : Fin 2)  -- COPY_NOCONV (R107)
  | echoHalt (n : Fin 4)  -- ECHO_HALT (R113)
  | echoResume (n : Fin 4)  -- ECHO_RESUME (R113)
  | echoStep (n : Fin 4)  -- ECHO_STEP (R113)
  | echoGreg (n : Fin 4) (r : Reg) (v : Word)  -- ECHO_GREG (R113)
  | echoPred (n : Fin 4) (p : Pred) (v : Bool)  -- ECHO_PRED (R113)
  | echoAcc (n : Fin 4) (a : Acc) (v : BitVec 64)  -- ECHO_ACC (R113)
  | echoSpecial (n : Fin 4) (sr : Fin 64) (v : Word)  -- ECHO_SPECIAL (R113)
  | echoMemw (n : Fin 4) (addr : Word) (v : BitVec 64)  -- ECHO_MEMW (R113)
  | echoBrkset (n : Fin 4) (addr : Word)  -- ECHO_BRKSET (R113)
  | echoBrkclr (n : Fin 4) (addr : Word)  -- ECHO_BRKCLR (R113)
  | connectionTimeout (k : Fin 1024)  -- CONNECTION_TIMEOUT (R148)
  | pointMoveTimeout (p : Fin 2048)  -- POINT_MOVE_TIMEOUT (R134)
  | approachReleaseExpiry (r : Fin 4096)  -- APPROACH_RELEASE_EXPIRY (R141)
  | emergencyReleaseExpiry (r : Fin 4096)  -- EMERGENCY_RELEASE_EXPIRY (R142)
  | overlapReleaseExpiry (r : Fin 4096)  -- OVERLAP_RELEASE_EXPIRY (R140)
  | restartHoldExpiry  -- RESTART_HOLD_EXPIRY (R151)
  | setRoute (r : Fin 4096)  -- SET_ROUTE (R137)
  | cancelRoute (r : Fin 4096)  -- CANCEL_ROUTE (R139)
  | emergencyRelease (r : Fin 4096)  -- EMERGENCY_RELEASE (R142)
  | movePoint (p : Fin 2048) (rev : Bool)  -- MOVE_POINT (R134)
  | matrixSliceCheck  -- MATRIX_SLICE_CHECK (R129)
  | rmuArm (c : CoreId)  -- RMU_ARM (R130)
  | rmuDisarm (c : CoreId)  -- RMU_DISARM (R130)
  | ringLinkDown (p : Port)  -- RING_LINK_DOWN (R200)
  | ringLinkUp (p : Port) (mode : LinkMode)  -- RING_LINK_UP (R154)
  | ringBroken (ring : Fin 2)  -- RING_BROKEN (R200)
  | ringWhole (ring : Fin 2)  -- RING_WHOLE (R200)
  | segmentBreak  -- SEGMENT_BREAK (R202)
  | loopOpened  -- LOOP_OPENED (R204)
  | surveyStart  -- SURVEY_START (R188)
  | freightSubmit (r : FrtReq)  -- FREIGHT_SUBMIT (R177)
  | freightBudgetExpiry (slot : Fin 128)  -- FREIGHT_BUDGET_EXPIRY (R174)
  | ringEnRing (en1 : Bool) (en2 : Bool)  -- RING_EN_RING (R179)
  | ringEnFrt (on : Bool)  -- RING_EN_FRT (R178)
  | ringEnTakeEffect  -- RING_EN_TAKE_EFFECT (R178)
  | ringCfgWrite (v : Word)  -- RING_CFG_WRITE (R180)
  | syncLinkUp  -- SYNC_LINK_UP (R210)
  | syncLinkDown  -- SYNC_LINK_DOWN (R210)
  | syncMessageDiscard (m : SyncRaw)  -- SYNC_MESSAGE_DISCARD (R208)
  | hello (m : SyncHdr) (b : HelloBody)  -- HELLO (R209)
  | renew (m : SyncHdr) (w : BitVec 64)  -- RENEW (R209)
  | mismatch (m : SyncHdr) (mask : BitVec 8)  -- MISMATCH (R218)
  | consensus (m : SyncHdr) (mask : BitVec 8) (res : BitVec 8)  -- CONSENSUS (R219)
  | prepare (m : SyncHdr) (tr : BitVec 64)  -- PREPARE (R226)
  | prepared (m : SyncHdr) (tr : BitVec 64)  -- PREPARED (R226)
  | relinquish (m : SyncHdr) (tr : BitVec 64)  -- RELINQUISH (R225)
  | delta (m : SyncHdr) (b : DeltaBody)  -- DELTA (R228)
  | deltaReq (m : SyncHdr) (blocks : List DeltaRef)  -- DELTA_REQ (R228)
  | statecrc (m : SyncHdr) (crcs : List (BitVec 64))  -- STATECRC (R228)
  | mailbox (m : SyncHdr) (dg : List Byte)  -- MAILBOX (R357)
  | delays (m : SyncHdr) (d : Word)  -- DELAYS (R212)
  | listenTimeout  -- LISTEN_TIMEOUT (R215)
  | consensusDecision  -- CONSENSUS_DECISION (R220)
  | leaseLapse  -- LEASE_LAPSE (R222)
  | takeoverLease  -- TAKEOVER_LEASE (R223)
  | takeoverRelinquish  -- TAKEOVER_RELINQUISH (R225)
  | epochCommit  -- EPOCH_COMMIT (R223)
  | switchover  -- SWITCHOVER (R226)
  | prepareTimeout  -- PREPARE_TIMEOUT (R226)
  | resync  -- RESYNC (R228)
  | abortSync  -- ABORT_SYNC (R229)
  | resyncRetry  -- RESYNC_RETRY (R228)
  | resyncImageDone  -- RESYNC_IMAGE_DONE (R228)
  | resyncStateClean  -- RESYNC_STATE_CLEAN (R228)
  | resyncJoined  -- RESYNC_JOINED (R228)
  | resyncNoconv  -- RESYNC_NOCONV (R229)
  | datagramReceive (car : Carrier) (bytes : List Byte)  -- DATAGRAM_RECEIVE (R365)
  | arpRequest (ip : Word)  -- ARP_REQUEST (R355)
  | icmpEcho (ip : Word) (payload : List Byte)  -- ICMP_ECHO (R355)
  | fragmentTimeout (id : BitVec 16)  -- FRAGMENT_TIMEOUT (R355)
  | commandIncomplete (r : CmdRef)  -- COMMAND_INCOMPLETE (R363)
  | sessionOpenTimeout (n : Fin 4)  -- SESSION_OPEN_TIMEOUT (R358)
  | sessionIdleTimeout (n : Fin 4)  -- SESSION_IDLE_TIMEOUT (R359)
  | sessionStationLost  -- SESSION_STATION_LOST (R359)
  | forwardResend (r : CmdRef)  -- FORWARD_RESEND (R357)
  | commandComplete (r : CmdRef) (o : LowerOutcome)  -- COMMAND_COMPLETE (R374)
  | commandTimeout (r : CmdRef)  -- COMMAND_TIMEOUT (R374)
  | openSession (r : CmdRef)  -- OPEN (R358)
  | closeSession (r : CmdRef)  -- CLOSE (R359)
  | keepalive (r : CmdRef)  -- KEEPALIVE (R364)
  | abortCmd (r : CmdRef)  -- ABORT (R376)
  | ident (r : CmdRef)  -- IDENT (R368)
  | statusCmd (r : CmdRef)  -- STATUS (R368)
  | readReg (r : CmdRef)  -- READ_REG (R368)
  | readMem (r : CmdRef)  -- READ_MEM (R368)
  | modeReq (r : CmdRef)  -- MODE_REQ (R372)
  | voterReq (r : CmdRef)  -- VOTER_REQ (R372)
  | hsbReq (r : CmdRef)  -- HSB_REQ (R372)
  | restartCmd (r : CmdRef)  -- RESTART (R60)
  | domainRestart (d : DomId) (hostCold : Bool)  -- DOMAIN_RESTART (R61)
  | resetCmd (r : CmdRef)  -- RESET (R368)
  | cfgWrite (r : CmdRef)  -- CFG_WRITE (R368)
  | cfgRead (r : CmdRef)  -- CFG_READ (R368)
  | ringEn (r : CmdRef)  -- RING_EN (R377)
  | lsDisable (r : CmdRef)  -- LS_DISABLE (R377)
  | lsDisableTakeEffect  -- LS_DISABLE_TAKE_EFFECT (R377)
  | imagePut (r : CmdRef)  -- IMAGE_PUT (R368)
  | imageLoad (r : CmdRef)  -- IMAGE_LOAD (R381)
  | changeConfirm (r : CmdRef)  -- CHANGE_CONFIRM (R390)
  | changeRevert (r : CmdRef)  -- CHANGE_REVERT (R391)
  | stratumPut (r : CmdRef)  -- STRATUM_PUT (R396)
  | updateStart (r : CmdRef)  -- UPDATE_START (R397)
  | updateClassStep (ok : Bool)  -- UPDATE_CLASS_STEP (R398)
  | updateConfirm (r : CmdRef)  -- UPDATE_CONFIRM (R400)
  | pstoreRead (r : CmdRef)  -- PSTORE_READ (R368)
  | pstoreWrite (r : CmdRef)  -- PSTORE_WRITE (R442)
  | logRead (r : CmdRef)  -- LOG_READ (R368)
  | archiveRead (r : CmdRef)  -- ARCHIVE_READ (R368)
  | archiveAccessDone (r : CmdRef) (ok : Bool)  -- ARCHIVE_ACCESS_DONE (R369)
  | freight (r : CmdRef)  -- FREIGHT (R368)
  | survey (r : CmdRef)  -- SURVEY (R368)
  | rtcRead (r : CmdRef)  -- RTC_READ (R437)
  | rtcSet (r : CmdRef)  -- RTC_SET (R437)
  | rtcShift (r : CmdRef)  -- RTC_SHIFT (R437)
  | rtcDst (r : CmdRef)  -- RTC_DST (R437)
  | supRead (r : CmdRef)  -- SUP_READ (R368)
  | serviceClear (r : CmdRef)  -- SERVICE_CLEAR (R421)
  | migrationBulkPass (d : DomId)  -- MIGRATION_BULK_PASS (R384)
  | swap (d : DomId)  -- SWAP (R386)
  | migNoconv (d : DomId)  -- MIG_NOCONV (R385)
  | changeConfirmEffect (d : DomId)  -- CHANGE_CONFIRM_EFFECT (R390)
  | revert (d : DomId)  -- REVERT (R391)
  | confirmWindowExpiry (d : DomId)  -- CONFIRM_WINDOW_EXPIRY (R391)
  | revertNoconv (d : DomId)  -- REVERT_NOCONV (R391)
  | wdgSvc (a : Access) (u : Fin 8) (v : BitVec 16)  -- WDG_SVC (R403)
  | watchdogExpiry (u : Fin 8)  -- WATCHDOG_EXPIRY (R411)
  | wdgPer (a : Access) (u : Fin 8) (v : Word)  -- WDG_PER (R407)
  | wdgKey (a : Access) (u : Fin 8) (v : BitVec 16)  -- WDG_KEY (R408)
  | wdgLock (a : Access) (u : Fin 8)  -- WDG_LOCK (R409)
  | wdgEnable (a : Access) (u : Fin 8)  -- WDG_ENABLE (R422)
  | checkin (c : CoreId) (p : Fin 64)  -- CHECKIN (R413)
  | checkinWindowEnd (d : DomId)  -- CHECKIN_WINDOW_END (R414)
  | escalationReset  -- ESCALATION_RESET (R418)
  | rtcSecondTick  -- RTC_SECOND_TICK (R432)
  | rtcLoad (a : Access)  -- RTC_LOAD (R429)
  | rtcCtlDst (a : Access) (v : Fin 4)  -- RTC_CTL_DST (R431)
  | rtcShiftWrite (a : Access) (v : BitVec 16)  -- RTC_SHIFT_WRITE (R430)
  | rtcAlarmArm (a : Access) (n : Fin 2) (v : Word)  -- RTC_ALARM_ARM (R433)
  | rtcWakeWrite (a : Access) (v : Word)  -- RTC_WAKE_WRITE (R435)
  | rtcWakeExpiry  -- RTC_WAKE_EXPIRY (R435)
  | rtcShadowRead (a : Access) (r : Fin 6)  -- RTC_SHADOW_READ (R436)
  | rtcSnap (a : Access)  -- RTC_SNAP (R436)
  | rtcSequenceTimeout (a : Access)  -- RTC_SEQUENCE_TIMEOUT (R436)
  | cycCountLoRead (a : Access)  -- CYC_COUNT_LO_READ (R36)
  | cycTbLoRead (a : Access)  -- CYC_TB_LO_READ (R36)
  | rtmOfsLoRead (a : Access)  -- RTM_OFS_LO_READ (R206)
  | clrovr (a : Access)  -- CLROVR (R36)
  | psRead (page : BitVec 12) (off : BitVec 8) (lenm1 : BitVec 8)  -- PS_READ (R451)
  | psWrite (page : BitVec 12) (off : BitVec 8) (lenm1 : BitVec 8)  -- PS_WRITE (R451)
  | psWriteCommit (o : ProgOutcome)  -- PS_WRITE_COMMIT (R443)
  | psRefresh (page : BitVec 12)  -- PS_REFRESH (R449)
  | moduleStart (f : BootFindings)  -- MODULE_START (R460)
  | bootStepWrite (v : BitVec 4)  -- BOOT_STEP_WRITE (R461)
  | bootTimerExpiry  -- BOOT_TIMER_EXPIRY (R461)
  | rootMonitorWindow (rootXtal : Bool) (rootRc : Bool) (xtalRc : Bool)  -- ROOT_MONITOR_WINDOW (R454)
  | mainPllFail  -- MAIN_PLL_FAIL (R455)
  | lanePllFail (l : Fin 3)  -- LANE_PLL_FAIL (R455)
  | powerOnReset  -- POWER_ON_RESET (R456)
  | rstReq (v : BitVec 16) (cause : BitVec 8)  -- RST_REQ (R471)
  | orderlyReset (cause : BitVec 8)  -- ORDERLY_RESET (R457)
  | feedPresent (f : Fin 2) (v : BitVec 16)  -- FEED_PRESENT (R510)
  | feedLost (f : Fin 2) (v : BitVec 16)  -- FEED_LOST (R511)
  | feedOvervoltage (f : Fin 2) (v : BitVec 16)  -- FEED_OVERVOLTAGE (R510)
  | bothFeedsLost  -- BOTH_FEEDS_LOST (R513)
  | pfPairAbandon  -- PF_PAIR_ABANDON (R59)
  | pfWriteCutoff  -- PF_WRITE_CUTOFF (R446)
  | feedReset  -- FEED_RESET (R513)
  | holdupShort  -- HOLDUP_SHORT (R514)
  | backupSwitchover (cell : Bool)  -- BACKUP_SWITCHOVER (R513)
  | railFault  -- RAIL_FAULT (R516)
  | laneSupplyFault (l : Fin 3)  -- LANE_SUPPLY_FAULT (R516)
  | cellMeasure (present : Bool) (mv : BitVec 16)  -- CELL_MEASURE (R517)
  | tempSample (t : BitVec 16)  -- TEMP_SAMPLE (R521)
  | sfpChange (x : Sfp)  -- SFP_CHANGE (R507)
  | pwrReqSolvOn  -- PWR_REQ_SOLV_ON (R68)
  | pwrReqSolvOff  -- PWR_REQ_SOLV_OFF (R68)
  | fieldInputChange (g : GroupId) (c : Fin 8) (lvl : Bool)  -- FIELD_INPUT_CHANGE (R342)
  | debounceAccept (g : GroupId) (c : Fin 8)  -- DEBOUNCE_ACCEPT (R342)
  | scheduledEntry (g : GroupId)  -- SCHEDULED_ENTRY (R347)
  | outputOverload (g : GroupId) (c : Fin 8)  -- OUTPUT_OVERLOAD (R349)
  | groupOverload (g : GroupId)  -- GROUP_OVERLOAD (R349)
  | lpUndervoltage (g : GroupId) (low : Bool) (v : BitVec 16)  -- LP_UNDERVOLTAGE (R350)
  | permitToggle (g : GroupId)  -- PERMIT_TOGGLE (R351)
  | permitEdge (g : GroupId)  -- PERMIT_EDGE (R351)
  | permitDrop (g : GroupId)  -- PERMIT_DROP (R351)
  | fieldPowerLoss (g : GroupId)  -- FIELD_POWER_LOSS (R335)
  | fieldPowerReturn (g : GroupId)  -- FIELD_POWER_RETURN (R335)
  | fgChWrite (a : Access) (g : GroupId) (c : Fin 8) (v : Word)  -- FG_CH_WRITE (R339)
  | fgPcfgWrite (a : Access) (g : GroupId) (v : Word)  -- FG_PCFG_WRITE (R339)
  | scrubLine  -- SCRUB_LINE (R320)
  | extScrubLine  -- EXT_SCRUB_LINE (R321)
  | bankRetentionEntry (b : Fin 32)  -- BANK_RETENTION_ENTRY (R326)
  | grottoRetentionEntry  -- GROTTO_RETENTION_ENTRY (R327)
  | bankWakeDone (b : Fin 33)  -- BANK_WAKE_DONE (R325)
  | keySwitchChange  -- KEY_SWITCH_CHANGE (R475)
  | keySwitchSettle (pos : KeyPos)  -- KEY_SWITCH_SETTLE (R475)
  | reqOperRun (src : ReqSrc)  -- REQ_OPER_RUN (R478)
  | reqOperStop (src : ReqSrc)  -- REQ_OPER_STOP (R477)
  | reqOperHold (src : ReqSrc)  -- REQ_OPER_HOLD (R479)
  | reqOperService (src : ReqSrc)  -- REQ_OPER_SERVICE (R476)
  | reqRunState (src : ReqSrc) (d : DomId) (run : Bool)  -- REQ_RUN_STATE (R480)
  | reqNotRequestable (src : ReqSrc) (dim : BitVec 8) (st : BitVec 8)  -- REQ_NOT_REQUESTABLE (R484)
  | stopEffect  -- STOP_EFFECT (R477)
  | holdEffect  -- HOLD_EFFECT (R479)
  | holdReturn  -- HOLD_RETURN (R479)
  | domainStopEffect (d : DomId)  -- DOMAIN_STOP_EFFECT (R480)
  | freightStopLink  -- FREIGHT_STOP_LINK (R477)
  | idcode  -- IDCODE (R502)
  | bypass  -- BYPASS (R502)
  | samplePreload  -- SAMPLE_PRELOAD (R502)
  | extest  -- EXTEST (R502)
  | pairDbg (n : Fin 4) (attach : Bool)  -- PAIR_DBG (R502)
  | laneDbg (attach : Bool) (lane : Fin 4)  -- LANE_DBG (R502)
  | resetReq  -- RESET_REQ (R502)
  | fusePgm (f : FuseField) (data : List Word)  -- FUSE_PGM (R502)
  | fuseBlowKrevoke (a : Access) (key : BitVec 16)  -- FUSE_BLOW_KREVOKE (R504)
  | fuseBlowDbgClose (a : Access) (key : BitVec 16)  -- FUSE_BLOW_DBG_CLOSE (R504)
  | fuseWordDone (ok : Bool)  -- FUSE_WORD_DONE (R490)
  | registerWrite (a : Access) (addr : Word) (v : Word)  -- REGISTER_WRITE (R10)
  | watchdogTickEdge  -- WATCHDOG_TICK_EDGE (R403)
  | laneDebuggerAccess (l : Fin 3) (x : LaneAct)  -- LANE_DEBUGGER_ACCESS (R116)
  deriving DecidableEq, Repr

end Sys2Proof
end

