-- ==== Sys2Proof/WellFormed.lean ====
section
/-! DEFINITION. Which commands are well formed: operands whose fields the spec restricts. -/

namespace Sys2Proof

/-- The special-register numbers that R238 lists. -/
def srListed (sr : Fin 64) : Bool := sr.val ≤ 1 || (4 ≤ sr.val && sr.val ≤ 0x15) || (0x18 ≤ sr.val && sr.val ≤ 0x1F)

/-- A bit reference of the BIT format: with AREA 3, BADDR[13:5] is 0 (R243). -/
def BitRef.wf (r : BitRef) : Bool := !(r.area == 3) || decide (r.baddr.toNat < 32)

/-- RM and SAT of an extraction name a mode (R249). -/
def extWf (rm : Fin 8) (sat : Fin 4) : Bool := decide (rm.val < 5) && decide (sat.val < 3)

/-- A received frame's payload has the length of R155. -/
def Frame.wf (f : Frame) : Bool := decide (46 ≤ f.payload.length) && decide (f.payload.length ≤ 1500)

/-- A freight request as R172 lays it out: OP 1 or 2, a path of 1 to 8 entries. -/
def FrtReq.wf (r : FrtReq) : Bool := (r.op == 1 || r.op == 2) && decide (1 ≤ r.path.length) && decide (r.path.length ≤ 8)

/-- A well-formed command. Operands of other commands are unrestricted. -/
def Instr.wf : Instr → Bool
  | .add _ _ _ _ => true
  | .sub _ _ _ _ => true
  | .addS _ _ _ _ => true
  | .subS _ _ _ _ => true
  | .and _ _ _ _ => true
  | .or _ _ _ _ => true
  | .xor _ _ _ _ => true
  | .andn _ _ _ _ => true
  | .sll _ _ _ _ => true
  | .srl _ _ _ _ => true
  | .sra _ _ _ _ => true
  | .ror _ _ _ _ => true
  | .min _ _ _ _ => true
  | .max _ _ _ _ => true
  | .minu _ _ _ _ => true
  | .maxu _ _ _ _ => true
  | .absS _ _ _ => true
  | .negS _ _ _ => true
  | .add2S _ _ _ _ => true
  | .sub2S _ _ _ _ => true
  | .clz _ _ _ => true
  | .popc _ _ _ => true
  | .cmpEq _ _ _ _ => true
  | .cmpNe _ _ _ _ => true
  | .cmpLt _ _ _ _ => true
  | .cmpGe _ _ _ _ => true
  | .cmpLtu _ _ _ _ => true
  | .cmpGeu _ _ _ _ => true
  | .pand _ _ _ _ => true
  | .por _ _ _ _ => true
  | .pxor _ _ _ _ => true
  | .pandn _ _ _ _ => true
  | .pnot _ _ _ => true
  | .mulI _ _ _ _ => true
  | .macI _ _ _ _ => true
  | .msuI _ _ _ _ => true
  | .mulU _ _ _ _ => true
  | .macU _ _ _ _ => true
  | .mulQ31 _ _ _ _ => true
  | .macQ31 _ _ _ _ => true
  | .msuQ31 _ _ _ _ => true
  | .mulQ15 _ _ _ _ => true
  | .macQ15 _ _ _ _ => true
  | .msuQ15 _ _ _ _ => true
  | .mac2Q15 _ _ _ _ => true
  | .extI _ _ _ _ rm sat => extWf rm sat
  | .extQ31 _ _ _ _ rm sat => extWf rm sat
  | .extQ15 _ _ _ sh rm sat => extWf rm sat && decide (sh.val < 24)
  | .aclr _ _ => true
  | .aset _ _ _ _ => true
  | .aadd _ _ _ => true
  | .ashr _ _ _ => true
  | .addi _ _ _ _ => true
  | .andi _ _ _ _ => true
  | .ori _ _ _ _ => true
  | .xori _ _ _ _ => true
  | .ori12 _ _ _ _ => true
  | .ori24 _ _ _ _ => true
  | .slli _ _ _ _ => true
  | .srli _ _ _ _ => true
  | .srai _ _ _ _ => true
  | .cmpi _ _ _ _ _ => true
  | .ldb _ _ _ _ => true
  | .ldbu _ _ _ _ => true
  | .ldh _ _ _ _ => true
  | .ldhu _ _ _ _ => true
  | .ldw _ _ _ _ => true
  | .stb _ _ _ _ => true
  | .sth _ _ _ _ => true
  | .stw _ _ _ _ => true
  | .branch _ _ => true
  | .bl _ _ => true
  | .jr _ _ => true
  | .jlr _ _ => true
  | .mfsr _ _ sr => srListed sr
  | .mtsr _ _ sr => srListed sr
  | .trapSw _ _ => true
  | .rte _ => true
  | .waitInt _ => true
  | .fence _ => true
  | .rmuCheck _ _ _ => true
  | .rmuLock _ _ _ => true
  | .rmuRelease _ _ _ => true
  | .bld _ _ ref => ref.wf
  | .bldn _ _ ref => ref.wf
  | .bset _ ref => ref.wf
  | .bclr _ ref => ref.wf
  | .btgl _ ref => ref.wf
  | .bst _ _ ref => ref.wf
  | .bstn _ _ ref => ref.wf
  | .tsb _ _ ref => ref.wf
  | .red _ _ ref => ref.wf
  | .fed _ _ ref => ref.wf
  | .aed _ _ ref => ref.wf
  | .eupd _ _ ref => ref.wf
  | .bfld _ _ _ _ _ => true
  | .bfst _ _ _ _ => true
  | .ton _ _ _ _ => true
  | .tof _ _ _ _ => true
  | .tp _ _ _ _ => true
  | .trst _ _ => true
  | .tet _ _ _ => true
  | .ctu _ _ _ _ => true
  | .ctd _ _ _ _ => true
  | .crst _ _ => true
  | .cld _ _ => true
  | .ctv _ _ _ => true
  | .vote _ _ _ => true
  | .rpti _ rd step _ => !(rd == 0) || step == 0
  | .rptr _ rd rs1 step => !(rs1 == 0) && (!(rd == 0) || step == 0)
  | .lrW _ _ _ => true
  | .scW _ _ _ _ => true
  | .reservedEncoding _ _ => true
  | .interruptEntry _ => true
  | .cycleStart => true
  | .frameReceive _ f => f.wf
  | .inputReady => true
  | .returnLimit => true
  | .timeSourceChange => true
  | .agreementEnd _ => true
  | .agreementLimit _ _ => true
  | .taskRelease _ => true
  | .taskComplete _ _ => true
  | .outputDeadline => true
  | .overrunLimitStop _ => true
  | .votePointComplete _ => true
  | .voteWindowClose _ => true
  | .candidateCompare _ => true
  | .lsStart _ _ _ => true
  | .lsAbort _ _ => true
  | .lsLoad _ _ => true
  | .lsUnload _ _ => true
  | .lsDone _ => true
  | .lsOvertime _ => true
  | .lsWindowAccess _ _ _ _ _ => true
  | .reint _ _ => true
  | .maintOut _ _ => true
  | .abortReint _ _ => true
  | .debugAttach _ _ => true
  | .debugDetach _ _ => true
  | .reintAutoStart => true
  | .reintPowerDown => true
  | .reintPowerOn => true
  | .reintPllLock _ => true
  | .reintBistDone _ => true
  | .reintCopyDone _ => true
  | .reintRegionClean _ => true
  | .copyNoconv _ => true
  | .echoHalt _ => true
  | .echoResume _ => true
  | .echoStep _ => true
  | .echoGreg _ _ _ => true
  | .echoPred _ _ _ => true
  | .echoAcc _ _ _ => true
  | .echoSpecial _ _ _ => true
  | .echoMemw _ _ _ => true
  | .echoBrkset _ _ => true
  | .echoBrkclr _ _ => true
  | .connectionTimeout _ => true
  | .pointMoveTimeout _ => true
  | .approachReleaseExpiry _ => true
  | .emergencyReleaseExpiry _ => true
  | .overlapReleaseExpiry _ => true
  | .restartHoldExpiry => true
  | .setRoute _ => true
  | .cancelRoute _ => true
  | .emergencyRelease _ => true
  | .movePoint _ _ => true
  | .matrixSliceCheck => true
  | .rmuArm _ => true
  | .rmuDisarm _ => true
  | .ringLinkDown _ => true
  | .ringLinkUp _ _ => true
  | .ringBroken _ => true
  | .ringWhole _ => true
  | .segmentBreak => true
  | .loopOpened => true
  | .surveyStart => true
  | .freightSubmit r => r.wf
  | .freightBudgetExpiry _ => true
  | .ringEnRing _ _ => true
  | .ringEnFrt _ => true
  | .ringEnTakeEffect => true
  | .ringCfgWrite _ => true
  | .syncLinkUp => true
  | .syncLinkDown => true
  | .syncMessageDiscard _ => true
  | .hello _ _ => true
  | .renew _ _ => true
  | .mismatch _ _ => true
  | .consensus _ _ _ => true
  | .prepare _ _ => true
  | .prepared _ _ => true
  | .relinquish _ _ => true
  | .delta _ b => decide (b.data.length ≤ 4096)
  | .deltaReq _ _ => true
  | .statecrc _ _ => true
  | .mailbox _ _ => true
  | .delays _ _ => true
  | .listenTimeout => true
  | .consensusDecision => true
  | .leaseLapse => true
  | .takeoverLease => true
  | .takeoverRelinquish => true
  | .epochCommit => true
  | .switchover => true
  | .prepareTimeout => true
  | .resync => true
  | .abortSync => true
  | .resyncRetry => true
  | .resyncImageDone => true
  | .resyncStateClean => true
  | .resyncJoined => true
  | .resyncNoconv => true
  | .datagramReceive _ _ => true
  | .arpRequest _ => true
  | .icmpEcho _ _ => true
  | .fragmentTimeout _ => true
  | .commandIncomplete _ => true
  | .sessionOpenTimeout _ => true
  | .sessionIdleTimeout _ => true
  | .sessionStationLost => true
  | .forwardResend _ => true
  | .commandComplete _ _ => true
  | .commandTimeout _ => true
  | .openSession _ => true
  | .closeSession _ => true
  | .keepalive _ => true
  | .abortCmd _ => true
  | .ident _ => true
  | .statusCmd _ => true
  | .readReg _ => true
  | .readMem _ => true
  | .modeReq _ => true
  | .voterReq _ => true
  | .hsbReq _ => true
  | .restartCmd _ => true
  | .domainRestart _ _ => true
  | .resetCmd _ => true
  | .cfgWrite _ => true
  | .cfgRead _ => true
  | .ringEn _ => true
  | .lsDisable _ => true
  | .lsDisableTakeEffect => true
  | .imagePut _ => true
  | .imageLoad _ => true
  | .changeConfirm _ => true
  | .changeRevert _ => true
  | .stratumPut _ => true
  | .updateStart _ => true
  | .updateClassStep _ => true
  | .updateConfirm _ => true
  | .pstoreRead _ => true
  | .pstoreWrite _ => true
  | .logRead _ => true
  | .archiveRead _ => true
  | .archiveAccessDone _ _ => true
  | .freight _ => true
  | .survey _ => true
  | .rtcRead _ => true
  | .rtcSet _ => true
  | .rtcShift _ => true
  | .rtcDst _ => true
  | .supRead _ => true
  | .serviceClear _ => true
  | .migrationBulkPass _ => true
  | .swap _ => true
  | .migNoconv _ => true
  | .changeConfirmEffect _ => true
  | .revert _ => true
  | .confirmWindowExpiry _ => true
  | .revertNoconv _ => true
  | .wdgSvc _ _ _ => true
  | .watchdogExpiry _ => true
  | .wdgPer _ _ _ => true
  | .wdgKey _ _ _ => true
  | .wdgLock _ _ => true
  | .wdgEnable _ _ => true
  | .checkin _ _ => true
  | .checkinWindowEnd _ => true
  | .escalationReset => true
  | .rtcSecondTick => true
  | .rtcLoad _ => true
  | .rtcCtlDst _ _ => true
  | .rtcShiftWrite _ _ => true
  | .rtcAlarmArm _ _ _ => true
  | .rtcWakeWrite _ _ => true
  | .rtcWakeExpiry => true
  | .rtcShadowRead _ _ => true
  | .rtcSnap _ => true
  | .rtcSequenceTimeout _ => true
  | .cycCountLoRead _ => true
  | .cycTbLoRead _ => true
  | .rtmOfsLoRead _ => true
  | .clrovr _ => true
  | .psRead _ _ _ => true
  | .psWrite _ _ _ => true
  | .psWriteCommit _ => true
  | .psRefresh _ => true
  | .moduleStart _ => true
  | .bootStepWrite _ => true
  | .bootTimerExpiry => true
  | .rootMonitorWindow _ _ _ => true
  | .mainPllFail => true
  | .lanePllFail _ => true
  | .powerOnReset => true
  | .rstReq _ _ => true
  | .orderlyReset _ => true
  | .feedPresent _ _ => true
  | .feedLost _ _ => true
  | .feedOvervoltage _ _ => true
  | .bothFeedsLost => true
  | .pfPairAbandon => true
  | .pfWriteCutoff => true
  | .feedReset => true
  | .holdupShort => true
  | .backupSwitchover _ => true
  | .railFault => true
  | .laneSupplyFault _ => true
  | .cellMeasure _ _ => true
  | .tempSample _ => true
  | .sfpChange _ => true
  | .pwrReqSolvOn => true
  | .pwrReqSolvOff => true
  | .fieldInputChange _ _ _ => true
  | .debounceAccept _ _ => true
  | .scheduledEntry _ => true
  | .outputOverload _ _ => true
  | .groupOverload _ => true
  | .lpUndervoltage _ _ _ => true
  | .permitToggle _ => true
  | .permitEdge _ => true
  | .permitDrop _ => true
  | .fieldPowerLoss _ => true
  | .fieldPowerReturn _ => true
  | .fgChWrite _ _ _ _ => true
  | .fgPcfgWrite _ _ _ => true
  | .scrubLine => true
  | .extScrubLine => true
  | .bankRetentionEntry _ => true
  | .grottoRetentionEntry => true
  | .bankWakeDone _ => true
  | .keySwitchChange => true
  | .keySwitchSettle _ => true
  | .reqOperRun _ => true
  | .reqOperStop _ => true
  | .reqOperHold _ => true
  | .reqOperService _ => true
  | .reqRunState _ _ _ => true
  | .reqNotRequestable _ _ _ => true
  | .stopEffect => true
  | .holdEffect => true
  | .holdReturn => true
  | .domainStopEffect _ => true
  | .freightStopLink => true
  | .idcode => true
  | .bypass => true
  | .samplePreload => true
  | .extest => true
  | .pairDbg _ _ => true
  | .laneDbg _ _ => true
  | .resetReq => true
  | .fusePgm _ _ => true
  | .fuseBlowKrevoke _ _ => true
  | .fuseBlowDbgClose _ _ => true
  | .fuseWordDone _ => true
  | .registerWrite _ _ _ => true
  | .watchdogTickEdge => true
  | .laneDebuggerAccess _ _ => true

end Sys2Proof
end

