-- ==== Sys2Proof/Decode.lean ====
section
/-! DEFINITION. The Nerop instruction word: the encoder and the decoder of R240 to R250 and R258 to R279, and
`decodeTableWord`, which answers none: no row of the command table gives bits. -/

namespace Sys2Proof

/-- The guard fields PG and PN of a word (R240). -/
def Hdr.guard (h : Hdr) : Nat := h.pg * 2 ^ 29 + h.pn.toNat * 2 ^ 28

/-- The RRR format (R243). -/
def rrr (op rd rs1 rs2 fn : Nat) : Nat := op * 2 ^ 22 + rd * 2 ^ 17 + rs1 * 2 ^ 12 + rs2 * 2 ^ 7 + fn
/-- The RRI format (R243). -/
def rri (op rd rs1 imm : Nat) : Nat := op * 2 ^ 22 + rd * 2 ^ 17 + rs1 * 2 ^ 12 + imm
/-- The BIT format (R243). -/
def bit (op sub px : Nat) (ref : BitRef) : Nat := op * 2 ^ 22 + sub * 2 ^ 19 + px * 2 ^ 16 + ref.area * 2 ^ 14 + ref.baddr.toNat
/-- The SYS format (R243, R250). -/
def sys (sfn rd rs sx : Nat) : Nat := 0x38 * 2 ^ 22 + sfn * 2 ^ 16 + rd * 2 ^ 11 + rs * 2 ^ 6 + sx

/-- The instruction word of a Nerop command, as a number below 2^32; none for every other command. -/
def encodeNerop : Instr → Option Nat
  | .add h rd rs1 rs2 => some (h.guard + rrr 0 rd rs1 rs2 0)
  | .sub h rd rs1 rs2 => some (h.guard + rrr 0 rd rs1 rs2 1)
  | .addS h rd rs1 rs2 => some (h.guard + rrr 0 rd rs1 rs2 2)
  | .subS h rd rs1 rs2 => some (h.guard + rrr 0 rd rs1 rs2 3)
  | .and h rd rs1 rs2 => some (h.guard + rrr 0 rd rs1 rs2 4)
  | .or h rd rs1 rs2 => some (h.guard + rrr 0 rd rs1 rs2 5)
  | .xor h rd rs1 rs2 => some (h.guard + rrr 0 rd rs1 rs2 6)
  | .andn h rd rs1 rs2 => some (h.guard + rrr 0 rd rs1 rs2 7)
  | .sll h rd rs1 rs2 => some (h.guard + rrr 0 rd rs1 rs2 8)
  | .srl h rd rs1 rs2 => some (h.guard + rrr 0 rd rs1 rs2 9)
  | .sra h rd rs1 rs2 => some (h.guard + rrr 0 rd rs1 rs2 10)
  | .ror h rd rs1 rs2 => some (h.guard + rrr 0 rd rs1 rs2 11)
  | .min h rd rs1 rs2 => some (h.guard + rrr 0 rd rs1 rs2 12)
  | .max h rd rs1 rs2 => some (h.guard + rrr 0 rd rs1 rs2 13)
  | .minu h rd rs1 rs2 => some (h.guard + rrr 0 rd rs1 rs2 14)
  | .maxu h rd rs1 rs2 => some (h.guard + rrr 0 rd rs1 rs2 15)
  | .absS h rd rs1 => some (h.guard + rrr 0 rd rs1 0 16)
  | .negS h rd rs1 => some (h.guard + rrr 0 rd rs1 0 17)
  | .add2S h rd rs1 rs2 => some (h.guard + rrr 0 rd rs1 rs2 18)
  | .sub2S h rd rs1 rs2 => some (h.guard + rrr 0 rd rs1 rs2 19)
  | .clz h rd rs1 => some (h.guard + rrr 0 rd rs1 0 20)
  | .popc h rd rs1 => some (h.guard + rrr 0 rd rs1 0 21)
  | .cmpEq h pd rs1 rs2 => some (h.guard + rrr 1 pd rs1 rs2 0)
  | .cmpNe h pd rs1 rs2 => some (h.guard + rrr 1 pd rs1 rs2 1)
  | .cmpLt h pd rs1 rs2 => some (h.guard + rrr 1 pd rs1 rs2 2)
  | .cmpGe h pd rs1 rs2 => some (h.guard + rrr 1 pd rs1 rs2 3)
  | .cmpLtu h pd rs1 rs2 => some (h.guard + rrr 1 pd rs1 rs2 4)
  | .cmpGeu h pd rs1 rs2 => some (h.guard + rrr 1 pd rs1 rs2 5)
  | .pand h pd pa pb => some (h.guard + rrr 1 pd pa pb 16)
  | .por h pd pa pb => some (h.guard + rrr 1 pd pa pb 17)
  | .pxor h pd pa pb => some (h.guard + rrr 1 pd pa pb 18)
  | .pandn h pd pa pb => some (h.guard + rrr 1 pd pa pb 19)
  | .pnot h pd pa => some (h.guard + rrr 1 pd pa 0 20)
  | .mulI h ad rs1 rs2 => some (h.guard + rrr 2 ad rs1 rs2 0)
  | .macI h ad rs1 rs2 => some (h.guard + rrr 2 ad rs1 rs2 1)
  | .msuI h ad rs1 rs2 => some (h.guard + rrr 2 ad rs1 rs2 2)
  | .mulU h ad rs1 rs2 => some (h.guard + rrr 2 ad rs1 rs2 3)
  | .macU h ad rs1 rs2 => some (h.guard + rrr 2 ad rs1 rs2 4)
  | .mulQ31 h ad rs1 rs2 => some (h.guard + rrr 2 ad rs1 rs2 8)
  | .macQ31 h ad rs1 rs2 => some (h.guard + rrr 2 ad rs1 rs2 9)
  | .msuQ31 h ad rs1 rs2 => some (h.guard + rrr 2 ad rs1 rs2 10)
  | .mulQ15 h ad rs1 rs2 => some (h.guard + rrr 2 ad rs1 rs2 12)
  | .macQ15 h ad rs1 rs2 => some (h.guard + rrr 2 ad rs1 rs2 13)
  | .msuQ15 h ad rs1 rs2 => some (h.guard + rrr 2 ad rs1 rs2 14)
  | .mac2Q15 h ad rs1 rs2 => some (h.guard + rrr 2 ad rs1 rs2 15)
  | .extI h rd a sh rm sat => some (h.guard + rrr 3 rd a sh (0 * 32 + sat * 8 + rm))
  | .extQ31 h rd a sh rm sat => some (h.guard + rrr 3 rd a sh (1 * 32 + sat * 8 + rm))
  | .extQ15 h rd a sh rm sat => some (h.guard + rrr 3 rd a sh (2 * 32 + sat * 8 + rm))
  | .aclr h ad => some (h.guard + rrr 3 ad 0 0 96)
  | .aset h ad rs1 sh => some (h.guard + rrr 3 ad rs1 sh 97)
  | .aadd h ad am => some (h.guard + rrr 3 ad am 0 98)
  | .ashr h ad sh => some (h.guard + rrr 3 ad 0 sh 99)
  | .addi h rd rs1 imm => some (h.guard + rri 4 rd rs1 imm.toNat)
  | .andi h rd rs1 imm => some (h.guard + rri 5 rd rs1 imm.toNat)
  | .ori h rd rs1 imm => some (h.guard + rri 6 rd rs1 imm.toNat)
  | .xori h rd rs1 imm => some (h.guard + rri 7 rd rs1 imm.toNat)
  | .ori12 h rd rs1 imm => some (h.guard + rri 8 rd rs1 imm.toNat)
  | .ori24 h rd rs1 imm => some (h.guard + rri 9 rd rs1 imm.toNat)
  | .slli h rd rs1 sh => some (h.guard + rri 10 rd rs1 sh)
  | .srli h rd rs1 sh => some (h.guard + rri 11 rd rs1 sh)
  | .srai h rd rs1 sh => some (h.guard + rri 12 rd rs1 sh)
  | .cmpi h pd cond rs1 imm => some (h.guard + rri 13 (cond * 8 + pd) rs1 imm.toNat)
  | .ldb h rd rs1 imm => some (h.guard + rri 16 rd rs1 imm.toNat)
  | .ldbu h rd rs1 imm => some (h.guard + rri 17 rd rs1 imm.toNat)
  | .ldh h rd rs1 imm => some (h.guard + rri 18 rd rs1 imm.toNat)
  | .ldhu h rd rs1 imm => some (h.guard + rri 19 rd rs1 imm.toNat)
  | .ldw h rd rs1 imm => some (h.guard + rri 20 rd rs1 imm.toNat)
  | .stb h rd rs1 imm => some (h.guard + rri 22 rd rs1 imm.toNat)
  | .sth h rd rs1 imm => some (h.guard + rri 23 rd rs1 imm.toNat)
  | .stw h rd rs1 imm => some (h.guard + rri 24 rd rs1 imm.toNat)
  | .branch h disp => some (h.guard + 0x30 * 2 ^ 22 + disp.toNat)
  | .bl h disp => some (h.guard + 0x30 * 2 ^ 22 + 2 ^ 20 + disp.toNat)
  | .jr h rs1 => some (h.guard + rrr 0x31 0 rs1 0 0)
  | .jlr h rs1 => some (h.guard + rrr 0x31 0 rs1 0 1)
  | .mfsr h rd sr => some (h.guard + sys 0 rd 0 sr)
  | .mtsr h rs sr => some (h.guard + sys 1 0 rs sr)
  | .trapSw h sx => some (h.guard + sys 2 0 0 sx)
  | .rte h => some (h.guard + sys 3 0 0 0)
  | .waitInt h => some (h.guard + sys 4 0 0 0)
  | .fence h => some (h.guard + sys 5 0 0 0)
  | .rmuCheck h rd rs => some (h.guard + sys 8 rd rs 0)
  | .rmuLock h rd rs => some (h.guard + sys 9 rd rs 0)
  | .rmuRelease h rd rs => some (h.guard + sys 10 rd rs 0)
  | .bld h px ref => some (h.guard + bit 0x20 0 px ref)
  | .bldn h px ref => some (h.guard + bit 0x20 1 px ref)
  | .bst h px ref => some (h.guard + bit 0x20 5 px ref)
  | .bstn h px ref => some (h.guard + bit 0x20 6 px ref)
  | .tsb h px ref => some (h.guard + bit 0x20 7 px ref)
  | .bset h ref => some (h.guard + bit 0x20 2 0 ref)
  | .bclr h ref => some (h.guard + bit 0x20 3 0 ref)
  | .btgl h ref => some (h.guard + bit 0x20 4 0 ref)
  | .red h px ref => some (h.guard + bit 0x21 0 px ref)
  | .fed h px ref => some (h.guard + bit 0x21 1 px ref)
  | .aed h px ref => some (h.guard + bit 0x21 2 px ref)
  | .eupd h px ref => some (h.guard + bit 0x21 3 px ref)
  | .bfld h rd rs1 wm1 sgn => some (h.guard + rri 0x22 rd rs1 (sgn.toNat * 32 + wm1))
  | .bfst h rd rs1 wm1 => some (h.guard + rri 0x23 rd rs1 wm1)
  | .ton h pd rs1 pin => some (h.guard + rrr 0x24 pd rs1 pin 0)
  | .tof h pd rs1 pin => some (h.guard + rrr 0x24 pd rs1 pin 1)
  | .tp h pd rs1 pin => some (h.guard + rrr 0x24 pd rs1 pin 2)
  | .trst h rs1 => some (h.guard + rrr 0x24 0 rs1 0 3)
  | .tet h rd rs1 => some (h.guard + rrr 0x24 rd rs1 0 4)
  | .ctu h pd rs1 pin => some (h.guard + rrr 0x25 pd rs1 pin 0)
  | .ctd h pd rs1 pin => some (h.guard + rrr 0x25 pd rs1 pin 1)
  | .crst h rs1 => some (h.guard + rrr 0x25 0 rs1 0 2)
  | .cld h rs1 => some (h.guard + rrr 0x25 0 rs1 0 3)
  | .ctv h rd rs1 => some (h.guard + rrr 0x25 rd rs1 0 4)
  | .vote h rd rs1 => some (h.guard + rrr 0x26 rd rs1 0 0)
  | .lrW h rd rs1 => some (h.guard + rrr 0x27 rd rs1 0 0)
  | .scW h rd rs1 rs2 => some (h.guard + rrr 0x27 rd rs1 rs2 1)
  | .rpti h rd step cnt => some (h.guard + rri 0x28 rd step.toNat cnt.toNat)
  | .rptr h rd rs1 step => some (h.guard + rri 0x29 rd rs1 step.toNat)
  | .reservedEncoding _ w => some w.toNat
  | .interruptEntry _ => none
  | .cycleStart => none
  | .frameReceive _ _ => none
  | .inputReady => none
  | .returnLimit => none
  | .timeSourceChange => none
  | .agreementEnd _ => none
  | .agreementLimit _ _ => none
  | .taskRelease _ => none
  | .taskComplete _ _ => none
  | .outputDeadline => none
  | .overrunLimitStop _ => none
  | .votePointComplete _ => none
  | .voteWindowClose _ => none
  | .candidateCompare _ => none
  | .lsStart _ _ _ => none
  | .lsAbort _ _ => none
  | .lsLoad _ _ => none
  | .lsUnload _ _ => none
  | .lsDone _ => none
  | .lsOvertime _ => none
  | .lsWindowAccess _ _ _ _ _ => none
  | .reint _ _ => none
  | .maintOut _ _ => none
  | .abortReint _ _ => none
  | .debugAttach _ _ => none
  | .debugDetach _ _ => none
  | .reintAutoStart => none
  | .reintPowerDown => none
  | .reintPowerOn => none
  | .reintPllLock _ => none
  | .reintBistDone _ => none
  | .reintCopyDone _ => none
  | .reintRegionClean _ => none
  | .copyNoconv _ => none
  | .echoHalt _ => none
  | .echoResume _ => none
  | .echoStep _ => none
  | .echoGreg _ _ _ => none
  | .echoPred _ _ _ => none
  | .echoAcc _ _ _ => none
  | .echoSpecial _ _ _ => none
  | .echoMemw _ _ _ => none
  | .echoBrkset _ _ => none
  | .echoBrkclr _ _ => none
  | .connectionTimeout _ => none
  | .pointMoveTimeout _ => none
  | .approachReleaseExpiry _ => none
  | .emergencyReleaseExpiry _ => none
  | .overlapReleaseExpiry _ => none
  | .restartHoldExpiry => none
  | .setRoute _ => none
  | .cancelRoute _ => none
  | .emergencyRelease _ => none
  | .movePoint _ _ => none
  | .matrixSliceCheck => none
  | .rmuArm _ => none
  | .rmuDisarm _ => none
  | .ringLinkDown _ => none
  | .ringLinkUp _ _ => none
  | .ringBroken _ => none
  | .ringWhole _ => none
  | .segmentBreak => none
  | .loopOpened => none
  | .surveyStart => none
  | .freightSubmit _ => none
  | .freightBudgetExpiry _ => none
  | .ringEnRing _ _ => none
  | .ringEnFrt _ => none
  | .ringEnTakeEffect => none
  | .ringCfgWrite _ => none
  | .syncLinkUp => none
  | .syncLinkDown => none
  | .syncMessageDiscard _ => none
  | .hello _ _ => none
  | .renew _ _ => none
  | .mismatch _ _ => none
  | .consensus _ _ _ => none
  | .prepare _ _ => none
  | .prepared _ _ => none
  | .relinquish _ _ => none
  | .delta _ _ => none
  | .deltaReq _ _ => none
  | .statecrc _ _ => none
  | .mailbox _ _ => none
  | .delays _ _ => none
  | .listenTimeout => none
  | .consensusDecision => none
  | .leaseLapse => none
  | .takeoverLease => none
  | .takeoverRelinquish => none
  | .epochCommit => none
  | .switchover => none
  | .prepareTimeout => none
  | .resync => none
  | .abortSync => none
  | .resyncRetry => none
  | .resyncImageDone => none
  | .resyncStateClean => none
  | .resyncJoined => none
  | .resyncNoconv => none
  | .datagramReceive _ _ => none
  | .arpRequest _ => none
  | .icmpEcho _ _ => none
  | .fragmentTimeout _ => none
  | .commandIncomplete _ => none
  | .sessionOpenTimeout _ => none
  | .sessionIdleTimeout _ => none
  | .sessionStationLost => none
  | .forwardResend _ => none
  | .commandComplete _ _ => none
  | .commandTimeout _ => none
  | .openSession _ => none
  | .closeSession _ => none
  | .keepalive _ => none
  | .abortCmd _ => none
  | .ident _ => none
  | .statusCmd _ => none
  | .readReg _ => none
  | .readMem _ => none
  | .modeReq _ => none
  | .voterReq _ => none
  | .hsbReq _ => none
  | .restartCmd _ => none
  | .domainRestart _ _ => none
  | .resetCmd _ => none
  | .cfgWrite _ => none
  | .cfgRead _ => none
  | .ringEn _ => none
  | .lsDisable _ => none
  | .lsDisableTakeEffect => none
  | .imagePut _ => none
  | .imageLoad _ => none
  | .changeConfirm _ => none
  | .changeRevert _ => none
  | .stratumPut _ => none
  | .updateStart _ => none
  | .updateClassStep _ => none
  | .updateConfirm _ => none
  | .pstoreRead _ => none
  | .pstoreWrite _ => none
  | .logRead _ => none
  | .archiveRead _ => none
  | .archiveAccessDone _ _ => none
  | .freight _ => none
  | .survey _ => none
  | .rtcRead _ => none
  | .rtcSet _ => none
  | .rtcShift _ => none
  | .rtcDst _ => none
  | .supRead _ => none
  | .serviceClear _ => none
  | .migrationBulkPass _ => none
  | .swap _ => none
  | .migNoconv _ => none
  | .changeConfirmEffect _ => none
  | .revert _ => none
  | .confirmWindowExpiry _ => none
  | .revertNoconv _ => none
  | .wdgSvc _ _ _ => none
  | .watchdogExpiry _ => none
  | .wdgPer _ _ _ => none
  | .wdgKey _ _ _ => none
  | .wdgLock _ _ => none
  | .wdgEnable _ _ => none
  | .checkin _ _ => none
  | .checkinWindowEnd _ => none
  | .escalationReset => none
  | .rtcSecondTick => none
  | .rtcLoad _ => none
  | .rtcCtlDst _ _ => none
  | .rtcShiftWrite _ _ => none
  | .rtcAlarmArm _ _ _ => none
  | .rtcWakeWrite _ _ => none
  | .rtcWakeExpiry => none
  | .rtcShadowRead _ _ => none
  | .rtcSnap _ => none
  | .rtcSequenceTimeout _ => none
  | .cycCountLoRead _ => none
  | .cycTbLoRead _ => none
  | .rtmOfsLoRead _ => none
  | .clrovr _ => none
  | .psRead _ _ _ => none
  | .psWrite _ _ _ => none
  | .psWriteCommit _ => none
  | .psRefresh _ => none
  | .moduleStart _ => none
  | .bootStepWrite _ => none
  | .bootTimerExpiry => none
  | .rootMonitorWindow _ _ _ => none
  | .mainPllFail => none
  | .lanePllFail _ => none
  | .powerOnReset => none
  | .rstReq _ _ => none
  | .orderlyReset _ => none
  | .feedPresent _ _ => none
  | .feedLost _ _ => none
  | .feedOvervoltage _ _ => none
  | .bothFeedsLost => none
  | .pfPairAbandon => none
  | .pfWriteCutoff => none
  | .feedReset => none
  | .holdupShort => none
  | .backupSwitchover _ => none
  | .railFault => none
  | .laneSupplyFault _ => none
  | .cellMeasure _ _ => none
  | .tempSample _ => none
  | .sfpChange _ => none
  | .pwrReqSolvOn => none
  | .pwrReqSolvOff => none
  | .fieldInputChange _ _ _ => none
  | .debounceAccept _ _ => none
  | .scheduledEntry _ => none
  | .outputOverload _ _ => none
  | .groupOverload _ => none
  | .lpUndervoltage _ _ _ => none
  | .permitToggle _ => none
  | .permitEdge _ => none
  | .permitDrop _ => none
  | .fieldPowerLoss _ => none
  | .fieldPowerReturn _ => none
  | .fgChWrite _ _ _ _ => none
  | .fgPcfgWrite _ _ _ => none
  | .scrubLine => none
  | .extScrubLine => none
  | .bankRetentionEntry _ => none
  | .grottoRetentionEntry => none
  | .bankWakeDone _ => none
  | .keySwitchChange => none
  | .keySwitchSettle _ => none
  | .reqOperRun _ => none
  | .reqOperStop _ => none
  | .reqOperHold _ => none
  | .reqOperService _ => none
  | .reqRunState _ _ _ => none
  | .reqNotRequestable _ _ _ => none
  | .stopEffect => none
  | .holdEffect => none
  | .holdReturn => none
  | .domainStopEffect _ => none
  | .freightStopLink => none
  | .idcode => none
  | .bypass => none
  | .samplePreload => none
  | .extest => none
  | .pairDbg _ _ => none
  | .laneDbg _ _ => none
  | .resetReq => none
  | .fusePgm _ _ => none
  | .fuseBlowKrevoke _ _ => none
  | .fuseBlowDbgClose _ _ => none
  | .fuseWordDone _ => none
  | .registerWrite _ _ _ => none
  | .watchdogTickEdge => none
  | .laneDebuggerAccess _ _ => none

/-- A word's fields as the constructors take them. -/
def regOf (n : Nat) : Reg := Fin.ofNat 32 n
/-- A predicate number from a 3-bit field. -/
def predOf (n : Nat) : Pred := Fin.ofNat 8 n
/-- An accumulator number from a 2-bit field. -/
def accOf (n : Nat) : Acc := Fin.ofNat 4 n
/-- The bit reference of a BIT word (R243): with AREA 3, BADDR[13:5] is 0. -/
def refOf (w : Nat) : Option BitRef :=
  let r : BitRef := { area := Fin.ofNat 4 (w / 2 ^ 14), baddr := BitVec.ofNat 14 w }
  if r.area = 3 ∧ r.baddr.toNat / 32 ≠ 0 then none else some r

/-- OP 0x00 (R246). -/
def decAlu (h : Hdr) (rd rs1 rs2 fn : Nat) : Option Instr :=
  match fn with
  | 0 => some (.add h (regOf rd) (regOf rs1) (regOf rs2))
  | 1 => some (.sub h (regOf rd) (regOf rs1) (regOf rs2))
  | 2 => some (.addS h (regOf rd) (regOf rs1) (regOf rs2))
  | 3 => some (.subS h (regOf rd) (regOf rs1) (regOf rs2))
  | 4 => some (.and h (regOf rd) (regOf rs1) (regOf rs2))
  | 5 => some (.or h (regOf rd) (regOf rs1) (regOf rs2))
  | 6 => some (.xor h (regOf rd) (regOf rs1) (regOf rs2))
  | 7 => some (.andn h (regOf rd) (regOf rs1) (regOf rs2))
  | 8 => some (.sll h (regOf rd) (regOf rs1) (regOf rs2))
  | 9 => some (.srl h (regOf rd) (regOf rs1) (regOf rs2))
  | 10 => some (.sra h (regOf rd) (regOf rs1) (regOf rs2))
  | 11 => some (.ror h (regOf rd) (regOf rs1) (regOf rs2))
  | 12 => some (.min h (regOf rd) (regOf rs1) (regOf rs2))
  | 13 => some (.max h (regOf rd) (regOf rs1) (regOf rs2))
  | 14 => some (.minu h (regOf rd) (regOf rs1) (regOf rs2))
  | 15 => some (.maxu h (regOf rd) (regOf rs1) (regOf rs2))
  | 16 => if rs2 = 0 then some (.absS h (regOf rd) (regOf rs1)) else none
  | 17 => if rs2 = 0 then some (.negS h (regOf rd) (regOf rs1)) else none
  | 18 => some (.add2S h (regOf rd) (regOf rs1) (regOf rs2))
  | 19 => some (.sub2S h (regOf rd) (regOf rs1) (regOf rs2))
  | 20 => if rs2 = 0 then some (.clz h (regOf rd) (regOf rs1)) else none
  | 21 => if rs2 = 0 then some (.popc h (regOf rd) (regOf rs1)) else none
  | _ => none

/-- OP 0x01 (R247): fields that name a predicate have their upper bits 0. -/
def decCmp (h : Hdr) (rd rs1 rs2 fn : Nat) : Option Instr :=
  if 8 ≤ rd then none else
  match fn with
  | 0 => some (.cmpEq h (predOf rd) (regOf rs1) (regOf rs2))
  | 1 => some (.cmpNe h (predOf rd) (regOf rs1) (regOf rs2))
  | 2 => some (.cmpLt h (predOf rd) (regOf rs1) (regOf rs2))
  | 3 => some (.cmpGe h (predOf rd) (regOf rs1) (regOf rs2))
  | 4 => some (.cmpLtu h (predOf rd) (regOf rs1) (regOf rs2))
  | 5 => some (.cmpGeu h (predOf rd) (regOf rs1) (regOf rs2))
  | 16 => if rs1 < 8 ∧ rs2 < 8 then some (.pand h (predOf rd) (predOf rs1) (predOf rs2)) else none
  | 17 => if rs1 < 8 ∧ rs2 < 8 then some (.por h (predOf rd) (predOf rs1) (predOf rs2)) else none
  | 18 => if rs1 < 8 ∧ rs2 < 8 then some (.pxor h (predOf rd) (predOf rs1) (predOf rs2)) else none
  | 19 => if rs1 < 8 ∧ rs2 < 8 then some (.pandn h (predOf rd) (predOf rs1) (predOf rs2)) else none
  | 20 => if rs1 < 8 ∧ rs2 = 0 then some (.pnot h (predOf rd) (predOf rs1)) else none
  | _ => none

/-- OP 0x02 (R248). -/
def decMac (h : Hdr) (rd rs1 rs2 fn : Nat) : Option Instr :=
  if 4 ≤ rd then none else
  match fn with
  | 0 => some (.mulI h (accOf rd) (regOf rs1) (regOf rs2))
  | 1 => some (.macI h (accOf rd) (regOf rs1) (regOf rs2))
  | 2 => some (.msuI h (accOf rd) (regOf rs1) (regOf rs2))
  | 3 => some (.mulU h (accOf rd) (regOf rs1) (regOf rs2))
  | 4 => some (.macU h (accOf rd) (regOf rs1) (regOf rs2))
  | 8 => some (.mulQ31 h (accOf rd) (regOf rs1) (regOf rs2))
  | 9 => some (.macQ31 h (accOf rd) (regOf rs1) (regOf rs2))
  | 10 => some (.msuQ31 h (accOf rd) (regOf rs1) (regOf rs2))
  | 12 => some (.mulQ15 h (accOf rd) (regOf rs1) (regOf rs2))
  | 13 => some (.macQ15 h (accOf rd) (regOf rs1) (regOf rs2))
  | 14 => some (.msuQ15 h (accOf rd) (regOf rs1) (regOf rs2))
  | 15 => some (.mac2Q15 h (accOf rd) (regOf rs1) (regOf rs2))
  | _ => none

/-- OP 0x03 (R249). -/
def decAcc (h : Hdr) (rd rs1 rs2 fn : Nat) : Option Instr :=
  let kind := fn / 32
  let sat := fn / 8 % 4
  let rm := fn % 8
  if kind < 3 then
    if 4 ≤ rs1 ∨ sat = 3 ∨ 5 ≤ rm ∨ (kind = 2 ∧ 24 ≤ rs2) then none
    else
      let a := accOf rs1
      let sh : Fin 32 := Fin.ofNat 32 rs2
      let m : Fin 8 := Fin.ofNat 8 rm
      let t : Fin 4 := Fin.ofNat 4 sat
      some (if kind = 0 then .extI h (regOf rd) a sh m t else if kind = 1 then .extQ31 h (regOf rd) a sh m t else .extQ15 h (regOf rd) a sh m t)
  else if 4 ≤ rd then none
  else match fn with
    | 96 => if rs1 = 0 ∧ rs2 = 0 then some (.aclr h (accOf rd)) else none
    | 97 => some (.aset h (accOf rd) (regOf rs1) (Fin.ofNat 32 rs2))
    | 98 => if rs1 < 4 ∧ rs2 = 0 then some (.aadd h (accOf rd) (accOf rs1)) else none
    | 99 => if rs1 = 0 then some (.ashr h (accOf rd) (Fin.ofNat 32 rs2)) else none
    | _ => none

/-- OP 0x38 (R250); a special-register number that R238 does not list is a reserved encoding. -/
def decSys (h : Hdr) (sfn rd rs sx : Nat) : Option Instr :=
  match sfn with
  | 0 => if rs = 0 ∧ srListed (Fin.ofNat 64 sx) then some (.mfsr h (regOf rd) (Fin.ofNat 64 sx)) else none
  | 1 => if rd = 0 ∧ srListed (Fin.ofNat 64 sx) then some (.mtsr h (regOf rs) (Fin.ofNat 64 sx)) else none
  | 2 => if rd = 0 ∧ rs = 0 then some (.trapSw h (Fin.ofNat 64 sx)) else none
  | 3 => if rd = 0 ∧ rs = 0 ∧ sx = 0 then some (.rte h) else none
  | 4 => if rd = 0 ∧ rs = 0 ∧ sx = 0 then some (.waitInt h) else none
  | 5 => if rd = 0 ∧ rs = 0 ∧ sx = 0 then some (.fence h) else none
  | 8 => if sx = 0 then some (.rmuCheck h (regOf rd) (regOf rs)) else none
  | 9 => if sx = 0 then some (.rmuLock h (regOf rd) (regOf rs)) else none
  | 10 => if sx = 0 then some (.rmuRelease h (regOf rd) (regOf rs)) else none
  | _ => none

/-- OP 0x20 (R262). -/
def decBit (h : Hdr) (sub px : Nat) (ref : BitRef) : Option Instr :=
  let p := predOf px
  match sub with
  | 0 => some (.bld h p ref)
  | 1 => some (.bldn h p ref)
  | 2 => if px = 0 then some (.bset h ref) else none
  | 3 => if px = 0 then some (.bclr h ref) else none
  | 4 => if px = 0 then some (.btgl h ref) else none
  | 5 => some (.bst h p ref)
  | 6 => some (.bstn h p ref)
  | 7 => some (.tsb h p ref)
  | _ => none

/-- OP 0x21 (R265). -/
def decEdge (h : Hdr) (sub px : Nat) (ref : BitRef) : Option Instr :=
  let p := predOf px
  match sub with
  | 0 => some (.red h p ref)
  | 1 => some (.fed h p ref)
  | 2 => some (.aed h p ref)
  | 3 => some (.eupd h p ref)
  | _ => none

/-- OP 0x24 (R269). -/
def decTimer (h : Hdr) (rd rs1 rs2 fn : Nat) : Option Instr :=
  match fn with
  | 0 => if rd < 8 ∧ rs2 < 8 then some (.ton h (predOf rd) (regOf rs1) (predOf rs2)) else none
  | 1 => if rd < 8 ∧ rs2 < 8 then some (.tof h (predOf rd) (regOf rs1) (predOf rs2)) else none
  | 2 => if rd < 8 ∧ rs2 < 8 then some (.tp h (predOf rd) (regOf rs1) (predOf rs2)) else none
  | 3 => if rd = 0 ∧ rs2 = 0 then some (.trst h (regOf rs1)) else none
  | 4 => if rs2 = 0 then some (.tet h (regOf rd) (regOf rs1)) else none
  | _ => none

/-- OP 0x25 (R271). -/
def decCounter (h : Hdr) (rd rs1 rs2 fn : Nat) : Option Instr :=
  match fn with
  | 0 => if rd < 8 ∧ rs2 < 8 then some (.ctu h (predOf rd) (regOf rs1) (predOf rs2)) else none
  | 1 => if rd < 8 ∧ rs2 < 8 then some (.ctd h (predOf rd) (regOf rs1) (predOf rs2)) else none
  | 2 => if rd = 0 ∧ rs2 = 0 then some (.crst h (regOf rs1)) else none
  | 3 => if rd = 0 ∧ rs2 = 0 then some (.cld h (regOf rs1)) else none
  | 4 => if rs2 = 0 then some (.ctv h (regOf rd) (regOf rs1)) else none
  | _ => none

/-- OP 0x26, 0x27 and 0x31 (R272, R279, R245): the remaining RRR words. -/
def decRrr (h : Hdr) (op rd rs1 rs2 fn : Nat) : Option Instr :=
  match op, fn with
  | 0x26, 0 => if rs2 = 0 then some (.vote h (regOf rd) (regOf rs1)) else none
  | 0x27, 0 => if rs2 = 0 then some (.lrW h (regOf rd) (regOf rs1)) else none
  | 0x27, 1 => some (.scW h (regOf rd) (regOf rs1) (regOf rs2))
  | 0x31, 0 => if rd = 0 ∧ rs2 = 0 then some (.jr h (regOf rs1)) else none
  | 0x31, 1 => if rd = 0 ∧ rs2 = 0 then some (.jlr h (regOf rs1)) else none
  | _, _ => none

/-- The RRI opcodes (R245, R258). -/
def decRri (h : Hdr) (op rd rs1 imm : Nat) : Option Instr :=
  let d := regOf rd
  let a := regOf rs1
  let i : BitVec 12 := BitVec.ofNat 12 imm
  let sh : Fin 32 := Fin.ofNat 32 imm
  match op with
  | 0x04 => some (.addi h d a i)
  | 0x05 => some (.andi h d a i)
  | 0x06 => some (.ori h d a i)
  | 0x07 => some (.xori h d a i)
  | 0x08 => some (.ori12 h d a i)
  | 0x09 => if imm < 256 then some (.ori24 h d a (BitVec.ofNat 8 imm)) else none
  | 0x0A => if imm < 32 then some (.slli h d a sh) else none
  | 0x0B => if imm < 32 then some (.srli h d a sh) else none
  | 0x0C => if imm < 32 then some (.srai h d a sh) else none
  | 0x0D => some (.cmpi h (predOf rd) (Fin.ofNat 4 (rd / 8)) a i)
  | 0x10 => some (.ldb h d a i)
  | 0x11 => some (.ldbu h d a i)
  | 0x12 => some (.ldh h d a i)
  | 0x13 => some (.ldhu h d a i)
  | 0x14 => some (.ldw h d a i)
  | 0x16 => some (.stb h d a i)
  | 0x17 => some (.sth h d a i)
  | 0x18 => some (.stw h d a i)
  | 0x22 => if imm < 64 then some (.bfld h d a sh (imm / 32 == 1)) else none
  | 0x23 => if imm < 32 then some (.bfst h d a sh) else none
  | 0x28 => if rd = 0 ∧ rs1 ≠ 0 then none else some (.rpti h d (BitVec.ofNat 5 rs1) i)
  | 0x29 => if rs1 = 0 ∨ (rd = 0 ∧ imm ≠ 0) then none else some (.rptr h d a i)
  | _ => none

/-- The Nerop command that word `w` spells for core `c`; none is a reserved encoding (R242). -/
def decodeNerop (c : CoreId) (meet : Option Meet) (w : Nat) : Option Instr :=
  let h : Hdr := { core := c, pg := predOf (w / 2 ^ 29), pn := w / 2 ^ 28 % 2 == 1, meet := meet }
  let op := w / 2 ^ 22 % 64
  let rd := w / 2 ^ 17 % 32
  let rs1 := w / 2 ^ 12 % 32
  let rs2 := w / 2 ^ 7 % 32
  let fn := w % 128
  match op with
  | 0x00 => decAlu h rd rs1 rs2 fn
  | 0x01 => decCmp h rd rs1 rs2 fn
  | 0x02 => decMac h rd rs1 rs2 fn
  | 0x03 => decAcc h rd rs1 rs2 fn
  | 0x20 => (refOf w).bind (decBit h (w / 2 ^ 19 % 8) (w / 2 ^ 16 % 8))
  | 0x21 => (refOf w).bind (decEdge h (w / 2 ^ 19 % 8) (w / 2 ^ 16 % 8))
  | 0x24 => decTimer h rd rs1 rs2 fn
  | 0x25 => decCounter h rd rs1 rs2 fn
  | 0x30 =>
    if w / 2 ^ 18 % 4 ≠ 0 then none
    else match w / 2 ^ 20 % 4 with
      | 0 => some (.branch h (BitVec.ofNat 18 w))
      | 1 => some (.bl h (BitVec.ofNat 18 w))
      | _ => none
  | 0x38 => decSys h (w / 2 ^ 16 % 64) (w / 2 ^ 11 % 32) (w / 2 ^ 6 % 32) (w % 64)
  | 0x26 => decRrr h op rd rs1 rs2 fn
  | 0x27 => decRrr h op rd rs1 rs2 fn
  | 0x31 => decRrr h op rd rs1 rs2 fn
  | _ => decRri h op rd rs1 (w % 4096)

/-- The Nerop part of the fixed interface: the table gives no row bits, so no word spells a command. -/
def decodeTableWord (_nbits _w : Nat) : Option Instr := none

end Sys2Proof
end

