-- ==== Sys2Proof/Machine/Crypto.lean ====
section
/-! DEFINITION. The checks over bytes that the spec names: CRC-32C (R145), CRC-64 of ECMA-182 (R97), SHA-256, HMAC-SHA-256 (R360) and
ECDSA P-256 (R394, R491). SHA-256, HMAC and P-256 are those of FIPS 180-4, 198-1 and 186-4, which the spec cites by name (log entry 8). -/

namespace Sys2Proof.Machine

/-- The bytes of `n` below 256^k, least-significant byte first (R8). -/
def leBytes : Nat → Nat → List Byte
  | 0, _ => []
  | k + 1, n => BitVec.ofNat 8 n :: leBytes k (n / 256)

/-- The number that bytes spell, least-significant byte first (R8). -/
def leNat : List Byte → Nat
  | [] => 0
  | b :: bs => b.toNat + 256 * leNat bs

/-- The number that bytes spell, most-significant byte first. -/
def beNat (bs : List Byte) : Nat := bs.foldl (fun n b => n * 256 + b.toNat) 0

/-- The bytes of `n`, most-significant byte first. -/
def beBytes (k n : Nat) : List Byte := (leBytes k n).reverse

/-- `f` applied `k` times. -/
def times {α : Type} : Nat → (α → α) → α → α
  | 0, _, x => x
  | k + 1, f, x => times k f (f x)

/-! ## CRCs -/

/-- One bit of a reflected CRC-32C step (R145: polynomial 0x1EDC6F41, reflected 0x82F63B78). -/
def crc32cBit (c : Word) : Word := if c.getLsbD 0 then (c >>> 1) ^^^ 0x82F63B78 else c >>> 1

/-- CRC-32C with the parameters of R145. -/
def crc32c (bs : List Byte) : Word :=
  ~~~ bs.foldl (fun c b => times 8 crc32cBit (c ^^^ b.setWidth 32)) 0xFFFFFFFF

/-- One bit of the frame check sequence of IEEE 802.3, which R155 and R208 cite (PRESUMED; log entry 78). -/
def fcsBit (c : Word) : Word := if c.getLsbD 0 then (c >>> 1) ^^^ 0xEDB88320 else c >>> 1

/-- The frame check sequence of a frame. -/
def fcsOf (bs : List Byte) : Word := ~~~ bs.foldl (fun c b => times 8 fcsBit (c ^^^ b.setWidth 32)) 0xFFFFFFFF

/-- One bit of the CRC-64 of R97. -/
def crc64Bit (c : Long) : Long := if c.getLsbD 63 then (c <<< 1) ^^^ 0x42F0E1EBA9EA3693 else c <<< 1

/-- The CRC-64 of R97: initial value 0, no final XOR. -/
def crc64 (bs : List Byte) : Long := bs.foldl (fun c b => times 8 crc64Bit (c ^^^ (b.setWidth 64 : Long) <<< (56 : Nat))) 0

/-! ## SHA-256 and HMAC -/

/-- The greatest root below `lo + 2 ^ k` whose `d`-th power is at most `x`, found bit by bit from the top. -/
def rootBits (d x : Nat) : Nat → Nat → Nat
  | 0, lo => lo
  | k + 1, lo => rootBits d x k (if (lo + 2 ^ k) ^ d ≤ x then lo + 2 ^ k else lo)

/-- The first 32 bits of the fractional part of the `d`-th root of `p`, for roots below 32. -/
def rootFraction (d p : Nat) : Word := BitVec.ofNat 32 (rootBits d (p * 2 ^ (32 * d)) 37 0)

/-- The primes below 312, of which there are 64: a composite below 312 has a factor of at most 17. -/
def shaPrimes : List Nat := (List.range 312).filter fun n => decide (1 < n) && (List.range 18).all fun f => f < 2 || n == f || n % f != 0

/-- The 64 round constants of SHA-256: cube-root fractions of the primes (FIPS 180-4). -/
def shaK : List Word := shaPrimes.map (rootFraction 3)

/-- Four words of history, newest first. The eight working variables of SHA-256 are two such histories: those of `a` and of `e`. -/
structure Past where
  now : Word
  one : Word
  two : Word
  three : Word
  deriving DecidableEq, Repr

/-- Moves a history on by one word. -/
def Past.push (h : Past) (w : Word) : Past := { now := w, one := h.now, two := h.one, three := h.two }
/-- Word by word sum. -/
def Past.plus (h k : Past) : Past := { now := h.now + k.now, one := h.one + k.one, two := h.two + k.two, three := h.three + k.three }
/-- The words, newest first. -/
def Past.words (h : Past) : List Word := [h.now, h.one, h.two, h.three]

/-- The initial hash value: square-root fractions of four primes each. -/
def shaStart : Past × Past :=
  let r := rootFraction 2
  ({ now := r 2, one := r 3, two := r 5, three := r 7 }, { now := r 11, one := r 13, two := r 17, three := r 19 })

/-- The exclusive-or of three rotations to the right. -/
def rot3 (w : Word) (i j k : Nat) : Word := w.rotateRight i ^^^ w.rotateRight j ^^^ w.rotateRight k

/-- One round, over the sum `kw` of its constant and its schedule word. -/
def shaStep (h : Past × Past) (kw : Word) : Past × Past :=
  let (p, q) := h
  let pick := q.two ^^^ (q.now &&& (q.one ^^^ q.two))
  let major := (p.now &&& p.one) ||| (p.two &&& (p.now ||| p.one))
  let t := kw + q.three + pick + rot3 q.now 6 11 25
  (p.push (t + major + rot3 p.now 2 13 22), q.push (t + p.three))

/-- Extends the schedule by `k` words; `back` is what stands so far, newest first. -/
def shaExtend : Nat → List Word → List Word
  | 0, back => back
  | k + 1, back =>
    let old (n : Nat) : Word := back.getD (n - 1) 0
    let mix (w : Word) (i j sh : Nat) : Word := w.rotateRight i ^^^ w.rotateRight j ^^^ (w >>> sh)
    shaExtend k ((old 16 + old 7 + mix (old 15) 7 18 3 + mix (old 2) 17 19 10) :: back)

/-- Groups of `n` bytes; `fuel` bounds their number. -/
def groups (n : Nat) : Nat → List Byte → List (List Byte)
  | 0, _ => []
  | fuel + 1, bs => if bs.isEmpty then [] else bs.take n :: groups n fuel (bs.drop n)

/-- One block of 64 bytes. -/
def shaBlock (ks : List Word) (h : Past × Past) (blk : List Byte) : Past × Past :=
  let first := (groups 4 16 blk).map fun b => BitVec.ofNat 32 (beNat b)
  let z := ((ks.zip (shaExtend 48 first.reverse).reverse).map fun x => x.1 + x.2).foldl shaStep h
  (h.1.plus z.1, h.2.plus z.2)

/-- SHA-256: the message, a 1 bit, zeros to 8 bytes short of a block, and the length in bits. -/
def sha256 (bs : List Byte) : List Byte :=
  let zeros := (119 - bs.length % 64) % 64
  let m := bs ++ 0x80 :: (List.replicate zeros 0 ++ beBytes 8 (8 * bs.length))
  let z := (groups 64 (m.length / 64) m).foldl (shaBlock shaK) shaStart
  (z.1.words ++ z.2.words).flatMap fun w => beBytes 4 w.toNat

/-- HMAC-SHA-256. -/
def hmac (key msg : List Byte) : List Byte :=
  let k0 := if key.length ≤ 64 then key else sha256 key
  let k := k0 ++ List.replicate (64 - k0.length) 0
  sha256 (k.map (· ^^^ 0x5C) ++ sha256 (k.map (· ^^^ 0x36) ++ msg))

/-- XOR of two byte strings. -/
def xorBytes (a b : List Byte) : List Byte := List.zipWith (· ^^^ ·) a b

/-! ## ECDSA P-256 -/

/-- The prime of P-256. -/
def p256 : Nat := 0xffffffff00000001000000000000000000000000ffffffffffffffffffffffff
/-- The order of P-256. -/
def p256n : Nat := 0xffffffff00000000ffffffffffffffffbce6faada7179e84f3b9cac2fc632551
/-- The curve constant b. -/
def p256b : Nat := 0x5ac635d8aa3a93e7b3ebbd55769886bc651d06b0cc53b0f63bce3c3e27d2604b
/-- The base point. -/
def p256g : Nat × Nat :=
  (0x6b17d1f2e12c4247f8bce6e563a440f277037d812deb33a0f4a13945d898c296, 0x4fe342e2fe1a7f9b8ee7eb4a7c0f9e162bce33576b315ececbb6406837bf51f5)

/-- `b ^ e` modulo `m`, over the low `fuel` bits of `e`. -/
def powMod (m : Nat) : Nat → Nat → Nat → Nat
  | 0, _, _ => 1 % m
  | fuel + 1, b, e => let r := powMod m fuel (b * b % m) (e / 2); if e % 2 = 1 then r * b % m else r

/-- The inverse modulo a prime. -/
def invMod (m a : Nat) : Nat := powMod m 256 (a % m) (m - 2)

/-- Addition on the curve; none is the point at infinity. -/
def ecAdd : Option (Nat × Nat) → Option (Nat × Nat) → Option (Nat × Nat)
  | none, q => q
  | p, none => p
  | some (x1, y1), some (x2, y2) =>
    if x1 = x2 ∧ (y1 + y2) % p256 = 0 then none
    else
      let l := if x1 = x2 then (3 * x1 * x1 + (p256 - 3)) * invMod p256 (2 * y1) % p256 else (y2 + p256 - y1) * invMod p256 (x2 + p256 - x1) % p256
      let x3 := (l * l + 2 * p256 - x1 - x2) % p256
      some (x3, (l * (x1 + p256 - x3) + p256 - y1) % p256)

/-- `k` times a point, over the low `fuel` bits of `k`. -/
def ecMul : Nat → Nat → Option (Nat × Nat) → Option (Nat × Nat)
  | 0, _, _ => none
  | fuel + 1, k, p => let r := ecMul fuel (k / 2) (ecAdd p p); if k % 2 = 1 then ecAdd r p else r

/-- The point lies on the curve. -/
def onCurve (x y : Nat) : Bool := decide (x < p256 ∧ y < p256 ∧ y * y % p256 = (x * x * x + (p256 - 3) * x + p256b) % p256)

/-- Checks 4 and 5 of R491: r and s in range, and the signature over the digest of `msg` verifies under the public key of 64 bytes. -/
def ecdsaOk (key msg sig : List Byte) : Bool :=
  let x := beNat (key.take 32)
  let y := beNat (key.drop 32)
  let r := beNat (sig.take 32)
  let s := beNat (sig.drop 32)
  if r = 0 ∨ p256n ≤ r ∨ s = 0 ∨ p256n ≤ s ∨ key.length ≠ 64 ∨ sig.length ≠ 64 then false
  else if !onCurve x y then false
  else
    let w := invMod p256n s
    let z := beNat (sha256 msg)
    match ecAdd (ecMul 256 (z * w % p256n) (some p256g)) (ecMul 256 (r * w % p256n) (some (x, y))) with
    | none => false
    | some (px, _) => px % p256n == r

end Sys2Proof.Machine
end

