-- ==== Sys2Proof/Machine/Parts.lean ====
section
/-! DEFINITION. The parts of the state, first half: what images declare, cores, domains, the cycle timer, the Logic
Solvers, voting and interlocking, each as plain data. -/

namespace Sys2Proof.Machine

/-- A saturating 32-bit counter of the register maps. -/
abbrev Ctr := Word

/-! ## What images and configuration sets declare -/

/-- The type of a task (R46 to R48). `event` names a bit offset of %I and the edges it takes. -/
inductive TaskKind where
  | cyclic (n off : Nat) | event (bit : Nat) (rising falling : Bool) | background
  deriving DecidableEq, Repr, Inhabited

/-- A task declaration (R45, R50, R235, R300, R413). `entry` is the address at which the runtime enters it. `inputs` are the ranges (offset, length) of %I that the private copy of a
task with n > 1 holds, at `privBase`; `auto` are its AUTO check-in points. -/
structure TaskDecl where
  prio : Nat
  kind : TaskKind
  mode : Word
  entry : Word
  privBase : Nat
  inputs : List (Nat × Nat)
  auto : List (Fin 64)
  deriving DecidableEq, Repr, Inhabited

/-- A safety connection's entry (R143), and where its coach fields stand: `rxOff` in %I of the receiving field. -/
structure ConnDecl where
  connId : Word
  station : BitVec 12
  sends : Bool
  receives : Bool
  plenTx : Nat
  plenRx : Nat
  timeout : Nat
  gap : Nat
  auth : Bool
  key : Nat
  safePayload : List Byte
  rxOff : Nat
  deriving DecidableEq, Repr, Inhabited

/-- A field of a safety connection's payload: connection, first bit, width (R119). -/
structure FieldRef where
  conn : Nat
  bit : Nat
  width : Nat
  deriving DecidableEq, Repr, Inhabited

/-- A track section (R119): its report and the values that mean clear and occupied. -/
structure SectionDecl where
  rep : FieldRef
  clearVal : Nat
  occVal : Nat
  deriving DecidableEq, Repr, Inhabited

/-- A point (R119, R134). Times are in microseconds. -/
structure PointDecl where
  sec : Nat
  det : FieldRef
  normVal : Nat
  revVal : Nat
  cmd : FieldRef
  cmdNorm : Nat
  cmdRev : Nat
  cmdNone : Nat
  moveUs : Nat
  deriving DecidableEq, Repr, Inhabited

/-- A signal (R119): aspect command with its stop value, the two lamp proofs and the stop indication. -/
structure SignalDecl where
  cmd : FieldRef
  stopVal : Nat
  lampProceed : FieldRef
  lampStop : FieldRef
  showsStop : FieldRef
  deriving DecidableEq, Repr, Inhabited

/-- A route (R119). Points are paired with the required position, `true` for reverse. -/
structure RouteDecl where
  signal : Nat
  proceedVal : Nat
  sections : List Nat
  points : List (Nat × Bool)
  overlap : Option Nat
  flank : Option Nat
  approach : List Nat
  approachUs : Nat
  emergencyUs : Nat
  deriving DecidableEq, Repr, Inhabited

/-- An overlap (R119). -/
structure OverlapDecl where
  sections : List Nat
  points : List (Nat × Bool)
  releaseUs : Nat
  deriving DecidableEq, Repr, Inhabited

/-- A flank-protection set (R119, R136). -/
structure FlankDecl where
  points : List (Nat × Bool)
  signals : List Nat
  deriving DecidableEq, Repr, Inhabited

/-- The object tables of an interlocking image (R119, R123, R124, R151). `conflicts` lists the 1 bits (row, column) of
the conflict matrix. -/
structure IxlDecl where
  routes : List RouteDecl
  points : List PointDecl
  signals : List SignalDecl
  sections : List SectionDecl
  overlaps : List OverlapDecl
  flanks : List FlankDecl
  conflicts : List (Nat × Nat)
  lvec : Nat
  holdUs : Nat
  deriving DecidableEq, Repr, Inhabited

/-- Watchdog settings an image declares (R401, R530). -/
structure WdgDecl where
  unit : Fin 8
  period : Nat
  openAt : Nat
  wind : Bool
  priv : Bool
  core : Bool
  enable : Bool
  lock : Bool
  svcN : Nat
  deriving DecidableEq, Repr, Inhabited

/-- A check-in point an image declares (R412). -/
structure CimDecl where
  point : Fin 64
  win : BitVec 16
  mn : Byte
  mx : Byte
  deriving DecidableEq, Repr, Inhabited

/-- A Logic Solver claim (R17, R66): instance, the tasks that start runs, address of the network image in the domain's memory. -/
structure Claim where
  inst : Fin 5
  tasks : List Nat
  addr : Nat
  deriving DecidableEq, Repr, Inhabited

/-- Where a domain's areas lie, as byte offsets in its memory (R41, R264, R379): standard SRAM for a pair, lane SRAM for a group; `retainLen` is
the length of a pair's retain area in the Grotto (R58), `pimg` the process-image base (R311). -/
structure Areas where
  pimg : Nat
  iBase : Nat
  iLen : Nat
  qBase : Nat
  qLen : Nat
  mBase : Nat
  mLen : Nat
  edgeBase : Nat
  dataBase : Nat
  dataLen : Nat
  retainLen : Nat
  changeBase : Nat
  changeLen : Nat
  deriving DecidableEq, Repr, Inhabited

/-- A recipe image's data: the two copies' addresses, the pointer word's %M offset and the data (R393). -/
structure Recipe where
  copyA : Nat
  copyB : Nat
  ptrOff : Nat
  data : List Byte
  deriving DecidableEq, Repr, Inhabited

/-- A program image (R6, R41 to R48, R66, R93, R143, R264, R381, R412). `fail` gives each byte of %Q its fail value, `none`
for hold; `agree` the ranges of %I declared for agreement; `winIn` the (window offset, %I offset, length) of inputs from the standard input window (R23);
`connTable` the connections' entries of 144 bytes (R143), each with the offset in %I of the receiving coach field; `safe` the safe values of %I; `marked` the bit ranges of %Q
that carry commands; `segs` code and network images placed at load; `init` the initial values of non-retentive
variables, `retainInit` those of retentive ones (offsets in the retain area); `emul` the reserved encodings that its EMUL handler claims, each a mask and
the value of the masked bits (R301). -/
structure Image where
  id : Long
  layoutId : Long
  safety : Bool
  interlocking : Bool
  proofs : Bool
  proofPeriod : Nat
  proofMargin : Nat
  proofRetlim : Nat
  confId : Word
  rtiMin : BitVec 16
  rtiMax : BitVec 16
  areas : Areas
  tasks : List TaskDecl
  bgWritesQ : Bool
  qOwner : List (Nat × Nat × Nat)
  coachOut : List (BitVec 12 × Nat)
  coachIn : List (BitVec 12 × Nat)
  statusOff : Nat
  fgIn : List (GroupId × Nat)
  fgOut : List (GroupId × Nat)
  fail : List (Option Byte)
  marked : List (Nat × Nat)
  agree : List (Nat × Nat)
  safe : List Byte
  edges : List (Nat × Nat × Nat)
  timers : List Nat
  retainTimers : List Nat
  counters : List Nat
  init : List (Nat × Byte)
  retainInit : List (Nat × Byte)
  segs : List (Nat × List Byte)
  codeLen : Nat
  claims : List Claim
  voterCfg : Word
  chans : List (GroupId × Fin 8 × Word)
  pcfg : List (GroupId × Word)
  connTable : List (List Byte × Nat)
  winIn : List (Nat × Nat × Nat)
  ixl : Option IxlDecl
  wdg : List WdgDecl
  cim : List CimDecl
  migration : List Byte
  recipe : Option Recipe
  warmMode : Bool
  emul : List (Word × Word)
  deriving DecidableEq, Repr, Inhabited

/-- The connection that an entry of 144 bytes declares (R143). -/
def connOfEntry (e : List Byte × Nat) : ConnDecl :=
  let num (o n : Nat) : Nat := leNat ((e.1.drop o).take n)
  let plenTx := num 7 1
  { connId := BitVec.ofNat 32 (num 0 4), station := BitVec.ofNat 12 (num 4 2), sends := num 6 1 % 2 == 1, receives := num 6 1 / 2 % 2 == 1
    plenTx := plenTx, plenRx := num 8 1, timeout := num 9 1, gap := num 10 1, auth := num 11 1 % 2 == 1, key := num 12 2
    safePayload := (e.1.drop 16).take plenTx, rxOff := e.2 }

/-- The ranges that R143 gives an entry's fields. -/
def connEntryOk (e : List Byte × Nat) : Bool :=
  let num (o n : Nat) : Nat := leNat ((e.1.drop o).take n)
  let dir := num 6 1
  let plen (on : Bool) (n : Nat) : Bool := if on then 1 ≤ n && n ≤ 128 else n == 0
  e.1.length == 144 && 1 ≤ num 4 2 && num 4 2 ≤ 4095 && 1 ≤ dir && dir ≤ 3 && plen (dir % 2 == 1) (num 7 1) && plen (2 ≤ dir) (num 8 1) &&
    1 ≤ num 9 1 && 1 ≤ num 10 1 && num 10 1 ≤ 16 && num 11 1 ≤ 1 && num 12 2 ≤ 1023 && num 14 2 == 0

/-- The connections that an image declares, by number (R143). -/
def Image.conns (im : Image) : List ConnDecl := im.connTable.map connOfEntry

/-- A cyclic coach of the layout with its station's choices (R158, R166, R198). `wkcSafe` is its substitute field, `none` for last values. -/
structure CoachDecl where
  addr : BitVec 12
  cls : Fin 4
  olen : Nat
  ilen : Nat
  subst : Option (List Byte)
  deriving DecidableEq, Repr, Inhabited

/-- The ring layout (R166, R180, R183, R192, R206, R356). `sources` is the time-source table, address 0 for the own time base;
`roundTripPs` is the round trip recorded by Voxosh, in picoseconds. -/
structure Layout where
  confId : Word
  coaches : List CoachDecl
  slots : Nat
  fsize : Nat
  sources : List (BitVec 12)
  revert : Nat
  roundTripPs : Nat
  mailbox : Option (BitVec 12)
  deriving DecidableEq, Repr, Inhabited

/-- A configuration set (R368, R379, R442): the register values and the layout it carries. -/
structure CfgSet where
  period : Word
  margin : Word
  retlim : Word
  ovrlim : Word
  ringCfg : Word
  layout : Layout
  chans : List (GroupId × Fin 8 × Word)
  hsbCfg : Word
  escCfg : Word
  bp : BitVec 2
  wdg : List WdgDecl
  regions : List Nat
  ip : Word
  formatVersion : BitVec 16
  deriving DecidableEq, Repr, Inhabited

/-! ## The cores -/

/-- Where a result goes (R234, R285). -/
inductive Dest where
  | g (r : Reg) | p (r : Pred) | a (r : Acc) | accPart (r : Acc) (part : Fin 3) | ev
  deriving DecidableEq, Repr

/-- A result that has not become visible yet, and the slots left until it does (R285). -/
structure Open where
  dest : Dest
  val : AccWord
  left : Nat
  deriving DecidableEq, Repr

/-- A repetition in progress (R273): iterations still to run, step register and step; `started` once an iteration has run. -/
structure Rpt where
  left : Nat
  reg : Reg
  step : Word
  started : Bool
  zero : Bool
  deriving DecidableEq, Repr

/-- The architectural state of one core (R234, R236, R238, R304) and its pipeline (R284 to R292). -/
structure Arch where
  g : Vector Word 32
  p : BitVec 8
  a : Vector AccWord 4
  mode : Word
  ia : Word
  priv : Bool
  trappc : Word
  trapinst : Word
  trapcause : Word
  trapsave : Word
  tvec : Word
  iena : Word
  ipend : Word
  kscr : Word
  cycSh : Word
  tbSh : Word
  opens : List Open
  delay : Option (Fin 3 × Word)
  rpt : Option Rpt
  resv : Option Nat
  justRte : Bool
  retired : Long
  deriving DecidableEq, Repr

/-- A kind of memory access a command asks for. -/
inductive MemOp where
  | load (size : Nat) (signed : Bool) (rd : Reg)
  | store (size : Nat) (v : Word)
  | lr (rd : Reg)
  | sc (rd : Reg) (v : Word)
  deriving DecidableEq, Repr

/-- Why a core holds (R284): a vote point, WAIT, or a bank that wakes, with the access to perform and its place in the order of arrival (R325). An instruction on
bit memory in a sleeping bank stays in its slot and issues when the bank is awake. -/
inductive Hold where
  | none
  | vote (rd : Reg)
  | rmu (rd : Reg) (op : Fin 3) (route : Word)
  | waitInt
  | bank (op : MemOp) (addr : Word) (meet : Option Meet) (word : Word) (seq : Nat)
  | slot (b : Fin 33)
  deriving DecidableEq, Repr

/-- The protection block of a core (R309). -/
structure Prot where
  base : Vector Word 8
  lim : Vector Word 8
  attr : Word
  pimg : Word
  xwin : Word
  deriving DecidableEq, Repr

/-- The registers that the runtime saves and restores at a task switch (R235), with the instruction address and the repetition in progress (R278).
`live` says that the task's execution has not completed, `lsWait` that it waits in LS_RUN for a run of the instance (R87). -/
structure TaskCtx where
  task : Fin 16
  live : Bool
  rpt : Option Rpt
  lsWait : Option (Fin 5)
  g : Vector Word 32
  p : BitVec 8
  a : Vector AccWord 4
  mode : Word
  ia : Word
  deriving DecidableEq, Repr

/-- A programmable core. A pair and the Steward are two cores in lockstep: `chk` is the checker's own copy (R12, R234);
a lane core has none. `step` lets a core that a debugger has halted take one instruction. `task` is the task it runs, `intTarget` the target counts of sources that serve all members (R294). `resched` says that the runtime's release work waits for a
boundary at which interrupts are not deferred (R49, R292), `lsWait` that the running task waits in LS_RUN for a run of the instance (R87). -/
structure Core where
  arch : Arch
  chk : Option Arch
  prot : Prot
  hold : Hold
  stopped : Bool
  halted : Bool
  step : Bool
  task : Option (Fin 16)
  saved : List TaskCtx
  intTarget : List (Fin 7 × Long)
  resched : Bool
  lsWait : Option (Fin 5)
  deriving DecidableEq, Repr

/-! ## Domains -/

/-- What a task is doing (R45 to R51). `open_` are the lanes of a group with an execution that has not completed, bit 0 for a pair; `primed` says that the
task has been released since the restart (R266). -/
structure TaskSt where
  open_ : BitVec 3
  primed : Bool
  relCycle : Nat
  deadline : Nat
  merged : Ctr
  skipped : Ctr
  deriving DecidableEq, Repr

/-- Some lane has an execution of the task that has not completed. -/
def TaskSt.active (t : TaskSt) : Bool := t.open_ != 0

/-- The seal record beside a retain area (R58). -/
structure Seal where
  progId : Long
  layoutId : Long
  cycle : Long
  sealed : Bool
  crc : Word
  deriving DecidableEq, Repr

/-- One step of an online change (R380). -/
inductive ChgDim where
  | none | pending | swapped
  deriving DecidableEq, Repr

/-- An online change of a domain (R379 to R393): `image` as delivered, not placed in a bank. `marks` are the marked 64-byte lines of the tracked
region, those of a pair's retain area counted from 2³⁰; `swapAt` is the instant of the swap, from which the confirmation window runs. `confirmed` is the program to which a revert or a restart goes back, as placed. -/
structure Change where
  dim : ChgDim
  image : Option Image
  recipe : Bool
  windowS : Nat
  bulkDone : Bool
  cycles : Nat
  marks : List Nat
  swapAt : Long
  confirmed : Option Image
  wantConfirm : Bool
  wantRevert : Bool
  cmd : Option CmdRef
  deriving DecidableEq, Repr

/-- A domain: a pair or a triplex group (R12, R16, R40, R44, R52, R61). `image` is the program as placed in the active region, `bankB` the bank
selector, `commits` the commits of a pair that have not been published, oldest first, each with the deadline cycle of its execution and the output image
after it (R40), `relAt` the cycle of a pair's last release or skip (R39), `instKept` the retentive timer and counter instances as sealed, by offset
(R63), `prevIn` each lane's input image of the previous executed cycle (R47; a pair uses the first), `ovrTotal` what CYC_OVRCNT shows and CLROVR clears, `ovrSince` the overruns since module reset (R44), and `region` the size of its code region in units of 64 KiB (R379), `resend` the lines
(memory, line of 64 bytes) written after the active unit sent the domain's state to its partner, `none` where it has not (R228). -/
structure Dom where
  image : Option Image
  run : Bool
  held : Bool
  tasks : Vector TaskSt 16
  commit : List Byte
  commits : List (Nat × List Byte)
  voted : List Byte
  published : List Byte
  prevIn : Vector (List Byte) 3
  relAt : Option Long
  instKept : List (Nat × List Byte)
  first : Bool
  skipNext : Bool
  skippedRun : Nat
  repeated : Bool
  rptSent : Bool
  pstop : Bool
  ovrRun : Byte
  ovrTotal : Ctr
  ovrSince : Ctr
  rstKind : Byte
  rstReason : Byte
  retain : Option Seal
  bankB : Bool
  region : Nat
  stopDue : Bool
  resend : Option (List (Nat × Nat))
  change : Change
  deriving DecidableEq, Repr

/-- The cycle timer (R29 to R37). `t0` is the T_0 set at admission to RUN, `ir` the IR_k of the running cycle, `dl` says that D_k of the running cycle has passed, and `rateAcc` is the
part of a correction tick gathered so far (R30). -/
structure Cyc where
  tb : Long
  rateAcc : Int
  count : Long
  tk : Long
  running : Bool
  t0 : Option Long
  ir : Option Long
  irForced : Bool
  dl : Bool
  lastRt : Word
  period : Word
  margin : Word
  retlim : Word
  ovrlim : Word
  err : Word
  countSh : Word
  tbSh : Word
  deriving DecidableEq, Repr

/-! ## Logic Solvers -/

/-- A loaded network image's header (R69). -/
structure NetHdr where
  addr : Nat
  nodes : Nat
  bits : Nat
  descs : Nat
  entries : Nat
  maxRun : Nat
  block : Nat
  banks : Word
  deriving DecidableEq, Repr

/-- A run in flight (R76): its entry, the time-base tick at which gather began, and the bytes gathered then. -/
structure LsRun where
  entry : Nat
  start : Long
  snap : List (Nat × Byte)
  deriving DecidableEq, Repr

/-- One core's queue of a Logic Solver (R83); `unloadDue` is an UNLOAD that waits for the run to end (R85). -/
structure LsQueue where
  img : Option NetHdr
  imgAddr : Word
  run : Option LsRun
  queued : Option Nat
  entry : Nat
  done : Bool
  fault : Bool
  aborted : Bool
  fcode : Byte
  err : Word
  last : Word
  faults : Ctr
  unloadDue : Bool
  deriving DecidableEq, Repr

/-- A Logic Solver instance (R65, R74). `bits` lists the bit-file bits that are 1, ascending; `claim` is the pair that claims LSS0 or LSS1. -/
structure Solver where
  bits : List Nat
  q : Vector LsQueue 2
  claim : Option (Fin 4)
  disablePend : Option CmdRef
  deriving DecidableEq, Repr

/-! ## Voting -/

/-- The kinds of vote point (R96). -/
inductive VoteKind where
  | eoc | rmu | vote
  deriving DecidableEq, Repr

/-- A lane's contribution (R96): the compared items, as bytes, and the state-vector CRC. -/
structure Contrib where
  kind : VoteKind
  items : List Byte
  crc : Long
  deriving DecidableEq, Repr

/-- A request of an interlocking program to the runtime (R122, R131). -/
inductive IxlReq where
  | set (r : Nat) | cancel (r : Nat) | emergency (r : Nat) | move (p : Nat) (rev : Bool)
  deriving DecidableEq, Repr

/-- What the Output Guard holds of a sending connection: the sequence number and the bytes of the telegram that passed the last vote, and the safe
telegram of the first train after entry to SAFE (R99, R103). -/
structure TxTel where
  seq : Word
  telegram : List Byte
  safeTel : List Byte
  deriving DecidableEq, Repr, Inhabited

/-- The vote point a group has in progress (R98). -/
structure VotePoint where
  kind : VoteKind
  opened : Long
  got : Vector (Option Contrib) 3
  closed : Bool
  deriving DecidableEq, Repr

/-- One channel of the Triplex Voter (R92 to R101, R118). `lastEoc` says whether the group's last end-of-cycle vote point
passed, `eocSince` whether one has passed since the group's start (R64), `eocAt`, `relAt` and `builtAt` the cycles of the last such vote point, of
the last release and of the last building of telegrams (R131), `commit` each lane's output image as last committed. `voted` holds the values of completed
vote points that a candidate has still to meet, oldest first, each with the instant at which its window closes, and `candGot` the candidate's contributions
that wait for a completion (R106). `withheld` are the lanes that withhold their end-of-cycle contribution (R299), `mute` those that withhold their
contribution to the next vote point of any kind (R87). `dupAt` is DUPLEX as it stood at T_k (R101), `lost` the ranges of %I whose sample did not reach each lane in this cycle
(R91), `queue` the program's requests that wait for step 6 (R131), `tels` what the Output Guard holds of each connection. -/
structure Group where
  cfg : Word
  members : BitVec 3
  duplex : Bool
  mmkind : Byte
  laneDebug : Bool
  agr : Vector Nat 3
  sub : Ctr
  vp : Option VotePoint
  voted : List (Contrib × Long)
  candGot : List Contrib
  lastEoc : Bool
  eocSince : Bool
  eocAt : Option Long
  relAt : Option Long
  builtAt : Option Long
  commit : Vector (List Byte) 3
  cand : BitVec 3
  withheld : BitVec 3
  mute : BitVec 3
  dupAt : Bool
  lost : Vector (List (Nat × Nat)) 3
  queue : List IxlReq
  tels : List TxTel
  deriving DecidableEq, Repr

/-- A lane as the voter and the clock monitors see it (R14, R100, R118, R482). -/
structure Lane where
  pll : Bool
  bistOk : Bool
  scopeCause : Byte
  debug : Bool
  xcount : BitVec 16
  xgroup : Fin 4
  xcause : Byte
  vmin : Ctr
  vagr : Ctr
  deriving DecidableEq, Repr

/-- The running or last reintegration (R105 to R109). `regions` gives for TX0, TX1 and all other lines whether the bulk copy has
ended; `diff` counts the passes in which a line's two copies differed; `autoWant` the lanes for which an automatic start is due; `off` and `back`
say that the domain is off, and that it has been switched on again. -/
structure Reint where
  lane : Fin 4
  phase : Fin 8
  result : Byte
  starts : List Long
  auto : Bool
  autoWant : BitVec 3
  off : Bool
  back : Bool
  copied : BitVec 3
  clean : BitVec 2
  joined : BitVec 2
  since : Nat
  dirty : List Nat
  diff : List (Nat × Nat)
  deriving DecidableEq, Repr

/-- The Triplex Voter's registers and the cause of SAFE (R118). -/
structure Voter where
  grp : Vector Group 2
  lane : Vector Lane 3
  reint : Reint
  reqReason : Byte
  reqRefused : Bool
  reqBusy : Bool
  safeValid : Bool
  safeGroup : Bool
  safeCause : Byte
  deriving DecidableEq, Repr

/-- An Echo log entry (R114). -/
structure EchoEntry where
  kind : Byte
  target : Byte
  count : Word
  value : Long
  deriving DecidableEq, Repr

/-- A pair's registers and Echo log (R113, R118). -/
structure PairReg where
  fault : Bool
  kind : Fin 8
  fcount : BitVec 16
  fpc : Word
  echo : Bool
  halt : Bool
  log : List EchoEntry
  refused : Bool
  brk : List Word
  deriving DecidableEq, Repr

/-! ## Interlocking -/

/-- The registers of one lane's RMU (R130). -/
structure Rmu where
  armed : Bool
  routes : BitVec 13
  base : Word
  lvec : Word
  ops : Ctr
  conf : Ctr
  err : Word
  deriving DecidableEq, Repr

/-- Section occupancy (R132). -/
inductive Occ where
  | clear | occupied | unknown
  deriving DecidableEq, Repr

/-- Point detection (R133). -/
inductive Det where
  | normal | reverse | none
  deriving DecidableEq, Repr

/-- A point's state (R133, R134): `want` is a requested position, `moving` the position and the remaining cycles of a supervised move. -/
structure PointSt where
  det : Det
  locks : Nat
  want : Option Bool
  moving : Option (Bool × Nat)
  failed : Bool
  deriving DecidableEq, Repr

/-- Route states (R137). -/
inductive RouteMode where
  | idle | locked | set | cleared | occupied | approachLocked | emergency
  deriving DecidableEq, Repr

/-- A route's state (R137 to R142). Timers hold REMAIN, `none` when not running. `body`, `ovl` and `flk` list the points it still locks;
`passed` the indexes of passed sections; `wasOcc` those that have been occupied since entry; `cancel` says that a cancel request waits for the stop aspect
of step 8 (R139). -/
structure RouteSt where
  mode : RouteMode
  disturbed : Bool
  approach : Option Nat
  emergency : Option Nat
  overlap : Option Nat
  overlapDone : Bool
  body : List Nat
  ovl : List Nat
  flk : List Nat
  flankOk : Bool
  passed : List Nat
  wasOcc : List Nat
  cancel : Bool
  deriving DecidableEq, Repr

/-- A signal's state: the aspect commanded this cycle, as its field value, `none` for stop; and its lamp status, whether the proceed lamps and the stop
lamp prove good in a fresh input (R119, R138). -/
structure SignalSt where
  aspect : Option Nat
  proceedGood : Bool
  stopGood : Bool
  deriving DecidableEq, Repr

/-- The state of a safety connection's receiver (R147). -/
inductive ConnMode where
  | closed | opened | failed | noRx
  deriving DecidableEq, Repr, Inhabited

/-- A safety connection's state (R146 to R149). -/
structure ConnSt where
  mode : ConnMode
  last : Word
  since : Nat
  missing : BitVec 16
  badhdr : BitVec 16
  badcrc : BitVec 16
  badmac : BitVec 16
  repeats : BitVec 16
  badseq : BitVec 16
  payload : Option (List Byte)
  fresh : Bool
  seq : Word
  startLeft : Nat
  sentStart : Bool
  deriving DecidableEq, Repr, Inhabited

/-- The answer the runtime gave the program's last request (R134, R137, R139, R151). -/
inductive IxlAnswer where
  | none | granted | conflict (first : Nat) | already | badRoute | notArmed | rmuFault | notLocked
  | pointLocked | routeBusy | restartHold | failedPoint
  deriving DecidableEq, Repr, Inhabited

/-- One lane's tables of the interlocking runtime, held in the lane's state vector (R119). -/
structure Ixl where
  routes : List RouteSt
  points : List PointSt
  signals : List SignalSt
  sections : List Occ
  prevSections : List Occ
  hold : Option Nat
  holdDone : Bool
  answer : IxlAnswer
  slice : Fin 32
  deriving DecidableEq, Repr, Inhabited

end Sys2Proof.Machine
end

