-- ==== Sys2Proof/Machine/Blocks.lean ====
section
/-! DEFINITION. The parts of the state, second half: memories, ring, hot standby, field groups, mailboxes, update,
supervision, clock, parameter store, start-up, modes and fuses, each as plain data. -/

namespace Sys2Proof.Machine

/-! ## Memories -/

/-- A write that waits for a sleeping bank (R28, R325), of a master that is no core, or a debugger's through core `by_`; with its place in the order of
arrival. -/
structure HeldWrite where
  bank : Fin 33
  by_ : Option CoreId
  code : Nat
  off : Nat
  data : List Byte
  seq : Nat
  deriving DecidableEq, Repr

/-- The memory-code registers (R333). `scrub` and `xscrub` are the next line of the on-chip and the external pass, `held` the writes that wait for a bank,
`errMarks` the latest uncorrectable errors, each with its place in time and its memory (R219). -/
structure MemRegs where
  ueSeen : Bool
  crcSeen : Bool
  ceSeen : Bool
  reten : Word
  ce : Ctr
  ue : Ctr
  crcerr : Ctr
  eaddr : Word
  esrc : Word
  wlost : Ctr
  wladdr : Word
  wlsrc : Word
  passes : BitVec 16
  scrub : Nat
  xscrub : Nat
  faildev : BitVec 3
  corr : Ctr
  eras : Ctr
  af : Vector Ctr 16
  held : List HeldWrite
  errMarks : List (Long × Nat)
  wakeAt : Vector Long 33
  deriving DecidableEq, Repr

/-- What is physically wrong with stored bits (R313 to R317, R329): flipped bits of a word, the number of flipped bits of a line's
side-array entry, lines whose outer value fails, poisoned words, external lines with symbols in error, `xflag` external lines for which a device (1 to 5) flags
an uncorrectable on-die result. Keys are word
or line numbers within the memory numbered first. -/
structure MemErrs where
  flips : List (Nat × Nat × Nat)
  side : List (Nat × Nat × Nat)
  outer : List (Nat × Nat)
  poison : List (Nat × Nat)
  xsym : List (Nat × Nat × Nat)
  xflag : List (Nat × Nat)
  recent : List (Nat × Long)
  deriving DecidableEq, Repr

/-- A bank's supply (R325 to R327). -/
inductive Bank where
  | active | retention | waking
  deriving DecidableEq, Repr

/-! ## Ring -/

/-- The ring dimension (R472). -/
inductive RingDim where
  | off | nativeDual | nativeSingle | compatLoop
  deriving DecidableEq, Repr

/-- A cyclic coach of a returned copy (R162): its place in the layout, and what the copy carried. -/
structure CoachRet where
  ring : Fin 2
  idx : Nat
  wkc : Byte
  mstat : Byte
  sstat : Byte
  output : List Byte
  input : List Byte
  deriving DecidableEq, Repr

/-- The train of the running cycle (R155, R156, R183): the frames sent with the ports that sent them, copies returned, frames and valid lead coaches
returned on each ring, the instant of the first moment at which every coach had a valid copy (R37); `looped` says that it came through the reverse
path (R171), `compared` that the standby has compared it (R216). -/
structure Train where
  cyc : Long
  frames : List (List Byte)
  ports : List Port
  on : Vector Bool 2
  rets : List CoachRet
  got : Vector (List Nat) 2
  lead : Vector Bool 2
  late : Bool
  looped : Bool
  validAt : Option Long
  compared : Bool
  deriving DecidableEq, Repr

/-- What a freight request is for: a program, a host command, a survey access, the mailbox transport. -/
inductive FrtUse where
  | program | host (r : CmdRef) | survey (addr : BitVec 12) (wr : Bool) | mbxOut | mbxIn
  deriving DecidableEq, Repr

/-- A freight request in flight (R174 to R176). `sentIn` is the train that carries its
coach now, `pos` that coach's place among the freight coaches; ATTEMPT 4 means that no retry is left. -/
structure FrtItem where
  slot : Fin 128
  req : FrtReq
  use : FrtUse
  attempt : Nat
  poll : Bool
  first : Option Long
  sentIn : Option Long
  pos : Nat
  withdrawn : Bool
  deriving DecidableEq, Repr

/-- How a freight request ended (R177). -/
inductive FrtOutcome where
  | done (data : List Byte) | stationErr (code : Byte) | link | cancelled
  | full | disabled | badAddr | badLen
  deriving DecidableEq, Repr

/-- A completion or refusal, as its submitter receives it. -/
structure FrtEnd where
  slot : Option (Fin 128)
  req : FrtReq
  use : FrtUse
  out : FrtOutcome
  deriving DecidableEq, Repr

/-- A station as the module sees it (R196 to R198); `lostAt` is the instant since which it has been LOST. -/
structure Station where
  status : Byte
  sstat : Byte
  input : List Byte
  lostAt : Option Long
  deriving DecidableEq, Repr

/-- The ring block (R153 to R180). `enPend` is a recorded RING_EN change; `linkUp` are the links of the four ports, `cnt` the counters RX, FCSERR, WKCERR,
LINKERR, FOREIGN of each ring, `lastTrain` the cycle of the train before the running one, `relayed` the frames that the module has relayed since T_k,
with the port that each left (R171, R211), `sent` the output fields of the last train's coaches of classes 1 and 2, by address (R318). -/
structure Ring where
  cfg : Word
  en : BitVec 3
  enPend : Bool
  frtDisable : Bool
  dim : RingDim
  badval : Bool
  locked : Bool
  looped : Bool
  frtOn : Bool
  on : Vector Bool 2
  layout : Option Layout
  linkUp : Vector Bool 4
  cnt : Vector (Vector Ctr 5) 2
  frtDone : Ctr
  frtLink : Ctr
  frtCancel : Ctr
  stations : List Station
  train : Option Train
  lastTrain : Option Long
  relayed : List (Port × Frame)
  sent : List (BitVec 12 × List Byte)
  items : List FrtItem
  ends : List FrtEnd
  deriving DecidableEq, Repr

/-- A rank of the time-source table (R192, R193): consecutive valid and missing cycles, the offset in its last valid cycle, and this cycle's offset. -/
structure Rank where
  valid : Nat
  missing : Nat
  last : Option Long
  now : Option Long
  deriving DecidableEq, Repr

/-- Ring time (R186 to R206). `loop` is a closed loop of COMPAT_LOOP: the number of stations from X3 to the break (R202); `refOff` the offset of a relay's
ring time to the primary's, as this cycle's lead coach showed it (R195), `segIn` the delays of the segments into X2 and X4, in ps (R187). `todo` lists the stations of a survey, with `true` once DELAYS has been read; `delays` the values read (ring 1, ring 2, forward). -/
structure Rtm where
  brk : Vector Bool 2
  rtOver : Bool
  loop : Option Nat
  refOff : Option Long
  segIn : Vector Word 2
  tstate : BitVec 2
  tsrc : Fin 4
  holdover : Bool
  rtofs : Option Long
  ofsSh : Word
  diff : Word
  rate : BitVec 16
  evt : Byte
  survState : BitVec 2
  survCount : BitVec 12
  survFail : Bool
  todo : List (BitVec 12 × Bool)
  delays : List (BitVec 12 × Word × Word × Word)
  srcchg : Ctr
  lostTr : Ctr
  lostSt : Ctr
  good : Vector Nat 2
  bad : Vector Nat 2
  ranks : Vector Rank 4
  deriving DecidableEq, Repr

/-! ## Hot standby -/

/-- The pair role (R214). -/
inductive Role where
  | alone | primary | standby | syncing
  deriving DecidableEq, Repr

/-- A sync message sent (R208, R209), and the bytes of its frame. -/
structure SyncMsg where
  type : Byte
  role : Byte
  mseq : Word
  cyc : Long
  epoch : Word
  body : List Byte
  frame : List Byte
  deriving DecidableEq, Repr

/-- A consensus check (R219, R220) over cycle `cyc`: domains, own result, the partner's. -/
structure Consensus where
  cyc : Long
  mask : Byte
  mine : Byte
  sent : Bool
  theirs : Option Byte
  deriving DecidableEq, Repr

/-- Resynchronisation (R228, R229); `failedAt` is the instant of the last failed attempt, `want` the blocks that have been
asked for and have not come. -/
structure Resync where
  state : BitVec 2
  result : Byte
  progress : BitVec 16
  failedAt : Option Long
  want : List DeltaRef
  deriving DecidableEq, Repr

/-- The hot-standby block (R207 to R233). `seen` is the highest epoch seen or used, `committed` the epoch committed in advance. -/
structure Hsb where
  cfg : Word
  role : Role
  orig : Bool
  left : BitVec 5
  silent : Byte
  epoch : Word
  seen : Word
  committed : Option Word
  wantEpoch : Option Word
  lastIntact : Word
  intact : Bool
  cmpRun : BitVec 16
  lastMis : BitVec 6
  susp : BitVec 6
  reqReason : Byte
  reqRefused : Bool
  reqBusy : Bool
  evt : BitVec 12
  cnt : Vector Ctr 5
  deriving DecidableEq, Repr

/-- The rest of hot standby: the sync link and what is under way over it. `prepM` is the m of a SWITCHOVER, `accepted` says that a train or RENEW
has been accepted since T_k, `faults` are the faults of R219, each with twice its cycle, plus 1 from IR on, `listening` is the state of R215, since `listenAt`. `gotMsg` says that a valid message has arrived in this cycle, `msgRun` in how many
cycles in a row before it (R210); `pMac` is the partner's own address, and `ofs` what a module that relays adds to its cycle numbers for those of the
pair's trains (log entry 79). `sent` says that the active unit has sent its state to a SYNCING partner (R228). -/
structure SyncLink where
  up : Bool
  gotMsg : Bool
  msgRun : Nat
  pMac : Option (BitVec 48)
  ofs : Long
  sent : Bool
  pRole : BitVec 3
  pHello : Option HelloBody
  mseq : Word
  out : List SyncMsg
  cons : Option Consensus
  prepM : Option Long
  prepared : Bool
  relqGot : Option Long
  relqSent : Option Long
  listening : Bool
  listenAt : Long
  accepted : Bool
  dback : Word
  pDback : Word
  faults : List (Long × Fin 6)
  resync : Resync
  deriving DecidableEq, Repr

/-! ## Field groups -/

/-- A field channel (R337 to R350): register, configuration in effect, raw and debounced state, run in progress, stamps, output level. -/
structure FgCh where
  cfg : Word
  eff : Word
  raw : Bool
  deb : Bool
  run : Option (Bool × Long)
  tsR : Long
  tsF : Long
  ecnt : Byte
  ovl : Bool
  cmd : Bool
  lastChg : Option Long
  pin : Bool
  deriving DecidableEq, Repr

/-- A scheduled output entry (R346, R347). -/
structure Sched where
  at_ : Long
  ch : Fin 8
  level : Bool
  deriving DecidableEq, Repr

/-- A field group (R334 to R351). `permitOn` says that the Output Guard toggles its permit, last at `toggleAt`; `edgeAt` and `edges` are the last permit edge
received and the valid edges in a row. `restart` is the tick at which a restart of the group controller began. -/
structure Fg where
  ch : Vector FgCh 8
  pcfg : Word
  fpwr : Bool
  restart : Option Long
  lpuv : Bool
  lpv : BitVec 16
  govl : Bool
  schLate : Ctr
  schClose : Ctr
  schForeign : Ctr
  ovlCnt : Ctr
  permitOn : Bool
  permitLevel : Bool
  toggleAt : Option Long
  edgeAt : Option Long
  edges : Nat
  pres : Bool
  sched : List Sched
  block : List Byte
  deriving DecidableEq, Repr

/-! ## Mailboxes -/

/-- What a command in flight waits for below. -/
inductive Wait where
  | none | archive | pstore | freight | mode | voter | hsb | load | confirm | revert | update | fuses | partner
  deriving DecidableEq, Repr

/-- A command slot (R361, R363, R364): the header, the blocks received, and once received its data and instant. -/
structure Slot where
  tag : BitVec 16
  code : BitVec 16
  length : Nat
  timeout : Nat
  partner : Bool
  got : List (Nat × List Byte)
  received : Bool
  recvAt : Long
  started : Bool
  wait : Wait
  tries : Nat
  donePages : Nat
  car : Carrier
  deriving DecidableEq, Repr

/-- A reply (R362). -/
structure Reply where
  tag : BitVec 16
  code : BitVec 16
  status : BitVec 16
  detail : BitVec 16
  data : List Byte
  deriving DecidableEq, Repr

/-- A session's state (R358). -/
inductive SessSt where
  | closed | opening | opened
  deriving DecidableEq, Repr

/-- A session (R358, R359): `hi` and `seen` are the SSEQ window of accepted datagrams. The partner's set of slots has the same form. -/
structure Session where
  st : SessSt
  freight : Bool
  key : Fin 16
  useFkey : Bool
  rights : BitVec 5
  ks : List Byte
  openedAt : Long
  lastAt : Long
  hi : Nat
  seen : List Nat
  txSeq : Word
  slots : List Slot
  cache : List Reply
  deriving DecidableEq, Repr

/-- A datagram of a command that takes no slot: OPEN, CLOSE, KEEPALIVE, ABORT (R364, R366). -/
structure AtOnce where
  ref : CmdRef
  code : BitVec 16
  data : List Byte
  car : Carrier
  deriving DecidableEq, Repr

/-- A fragment held for reassembly (R355). -/
structure Frag where
  ip : Word
  port : BitVec 16
  id : BitVec 16
  offset : Nat
  more : Bool
  bytes : List Byte
  at_ : Long
  deriving DecidableEq, Repr

/-- What left a mailbox transport: a datagram, an ARP reply, an ICMP echo reply. -/
inductive Sent where
  | datagram (car : Carrier) (bytes : List Byte) | arp (ip : Word) | echo (ip : Word) (payload : List Byte)
  deriving DecidableEq, Repr

/-- The mailbox block (R354 to R378). `cnt` holds AUTHFAIL, MALFORMED, UNKNOWN, BUSY, CACHED, LATE, DROPREPLY, FOREIGN. -/
structure Mbx where
  port : BitVec 16
  frt : Bool
  eth : Bool
  ip : Word
  sess : Vector Session 4
  partner : Session
  cnt : Vector Ctr 8
  frags : List Frag
  once : List AtOnce
  out : List Sent
  deriving DecidableEq, Repr

/-! ## Update -/

/-- An interface entry (R395). -/
structure IfEntry where
  iface : BitVec 16
  prov : BitVec 16
  amin : BitVec 16
  amax : BitVec 16
  deriving DecidableEq, Repr

/-- A word of a fuse field that still has to be blown (R488, R490, R495). -/
structure FuseWord where
  field : Byte
  index : Nat
  val : Word
  deriving DecidableEq, Repr

/-- The firmware of a class: identity, interface entries, image (R394, R395). -/
structure Firmware where
  id : Long
  ifs : List IfEntry
  image : List Byte
  deriving DecidableEq, Repr

/-- Firmware classes 1 to 4 (R394 to R400): what runs, what the previous set ran, what ran when the update under way began; that update. -/
structure Update where
  running : Vector Firmware 4
  previous : Vector Firmware 4
  before : Vector Firmware 4
  target : Option Long
  step : Nat
  retried : Bool
  stopAt : Bool
  cmd : Option CmdRef
  deriving DecidableEq, Repr

/-! ## Supervision -/

/-- A watchdog unit (R401 to R410, R422). `svc` are the latched services, each with whether its code and its writer are right (R405); `due`
counts the expiries found at tick edges that have not taken effect. -/
structure Wdg where
  lock : Bool
  core : Bool
  priv : Bool
  wind : Bool
  en : Bool
  period : BitVec 22
  open_ : BitVec 22
  staged : BitVec 22
  count : BitVec 22
  svc : List Bool
  key : Option (Master × Long)
  due : Nat
  expired : Bool
  badval : Bool
  perlate : Bool
  badsvc : Bool
  keyerr : Bool
  frozen : Bool
  exp : Ctr
  svcN : Nat
  deriving DecidableEq, Repr

/-- A check-in point (R412 to R415, R423). `started` says for each lane (bit 0 for a pair) that counting has started. -/
structure CimPt where
  win : BitVec 16
  mx : Byte
  mn : Byte
  cnt : Vector Byte 3
  verdict : BitVec 6
  started : BitVec 3
  deriving DecidableEq, Repr

/-- A domain's set of check-in points (R423); `closedAt` is the cycle at whose T_k windows were last closed. -/
structure Cim where
  pts : Vector CimPt 64
  fails : Ctr
  badval : Bool
  fail : Bool
  badpt : Bool
  badLanes : BitVec 3
  closedAt : Option Long
  deriving DecidableEq, Repr

/-- A second-rung decision (R418): instant, cause and source codes of R419, steps done. -/
structure Rung2 where
  at_ : Long
  cause : Byte
  source : Byte
  copies : Nat
  sealed : Bool
  deriving DecidableEq, Repr

/-- The escalation ladder (R416 to R420, R422). `restarts` holds the restart times of the Steward and SP0 to SP3; `event` the domains
that had a ladder event since their restart: Steward, SP0 to SP3, lanes A to C. -/
structure Esc where
  dlim : BitVec 4
  n : BitVec 3
  lastSrc : Byte
  lastCause : Byte
  hold : Bool
  count24 : BitVec 3
  restarts : Vector (List Long) 5
  event : BitVec 8
  due : BitVec 8
  rung2 : Option Rung2
  deriving DecidableEq, Repr

/-! ## Clock -/

/-- A master's shadow of the clock (R436): the frozen values, when the sequence began, and the sequences seen since RTC_SNAP. -/
structure RtcShadow where
  time : Word
  date : Word
  frac : Word
  bin : BitVec 40
  stat : Word
  start : Option Long
  count : Nat
  deriving DecidableEq, Repr

/-- The real-time clock (R424 to R438). The main path is kept in BCD; `acc` is the remainder accumulator of R426, `wakeAcc` the time
since the wake interval began, in 1,024 parts of a tick (R435). -/
structure Rtc where
  time : Word
  date : Word
  frac : Word
  bin : BitVec 40
  acc : Nat
  stime : Word
  sdate : Word
  dst : Bool
  lost : Bool
  nvalid : Bool
  bvalid : Bool
  shift : Option (BitVec 16)
  step : Option Bool
  err : BitVec 6
  evt : BitVec 6
  wake : BitVec 26
  wakeAcc : Nat
  alm : Vector (BitVec 40 × Bool) 2
  shadow : Vector RtcShadow 5
  deriving DecidableEq, Repr

/-! ## Parameter store -/

/-- Who issued a page write, and so what its commit means (R439, R446). -/
inductive PsFor where
  | reg | cmd (r : CmdRef) | boot (copy : Bool) | esc (copy : Bool) | epoch (copy : Bool) (v : Word) | hours (copy : Bool) | event
  deriving DecidableEq, Repr

/-- A queued page write. -/
structure PsReq where
  use : PsFor
  page : BitVec 12
  off : Nat
  data : List Byte
  retried : Bool
  deriving DecidableEq, Repr

/-- The parameter store (R439 to R451): written pages, the write under way, the three queues (lease logic, supervision writer, Steward). `torn` says
that a copy with an incomplete commit word waits to be discarded by the next scan (R444). -/
structure PStore where
  pages : List (Nat × List Byte)
  cur : Option PsReq
  qLease : List PsReq
  qSup : List PsReq
  qStew : List PsReq
  seq : Word
  bp : BitVec 2
  scan : Bool
  fail : Bool
  done : Bool
  err : BitVec 7
  retired : BitVec 16
  free : BitVec 16
  writes : Ctr
  retry : Ctr
  refresh : Ctr
  cutoff : Bool
  torn : Bool
  buf : List Byte
  deriving DecidableEq, Repr

/-! ## Archive and log -/

/-- A file received in segments (R368, R396): identity, total size, segments by offset. -/
structure SegFile where
  id : Long
  total : Nat
  segs : List (Nat × List Byte)
  deriving DecidableEq, Repr

/-- What an entry of the event log names. -/
inductive LogKind where
  | exclusion | maint | safe | joined | reintEnd | laneDebug | ladder | lanesShort | restart | refusedLoad | updateFallback | settingsStale
  | clkFallback | substTick | clockMonitor | feedLost | feedOv | holdupWeak | cellLow | tempHi | tempLo | sfpFault | roleChange
  | swapped | changeEnd | deviceFailed | poisoned | setOverride | authFail | lowSpare | connTimeout | watchdog | degraded
  deriving DecidableEq, Repr

/-- An event of the log, with its operands and the cycle in which it was written (R332). -/
structure LogEntry where
  kind : LogKind
  a : Nat
  b : Nat
  cyc : Long
  deriving DecidableEq, Repr

/-- The Archive (R332, R491): images, strata, configuration sets (newest first), key file, data area; `progs` are the confirmed programs of the
six domains, which B13 loads, `frozen` the sets as the last UPDATE_CONFIRM froze them in the older format (R400). -/
structure Archive where
  images : List SegFile
  strata : List SegFile
  sets : List (List Byte)
  keyImages : List (Fin 2 × List Byte)
  keys : List (List Byte)
  data : List Byte
  progs : Vector (Option Image) 6
  frozen : Option (List (List Byte))
  deriving DecidableEq, Repr

/-! ## Start-up and power -/

/-- The boot record (R467). -/
structure BootRec where
  starts : Word
  flags : Byte
  lastCause : Byte
  lastStep : Byte
  failed : Byte
  fc : Vector Byte 15
  setRun : Long
  setPrev : Long
  tStart : Long
  degraded : Word
  deriving DecidableEq, Repr

/-- An orderly reset under way (R457). -/
structure Orderly where
  cause : Byte
  at_ : Long
  deriving DecidableEq, Repr

/-- Power sequencer, clocks, resets and start-up (R452 to R471). `xtalGood` counts good windows of a failed
crystal, `up` says that the module has left reset (B0), `svcOnly` that this start is service-only, whatever the record has come to say since (R469). -/
structure Boot where
  on : BitVec 12
  refused : Bool
  rcOk : Bool
  xtalOk : Bool
  rootOk : Bool
  mainLock : Bool
  laneLock : BitVec 3
  clkEvt : BitVec 3
  xtalGood : Nat
  subst : Bool
  substSeen : Bool
  cause : Byte
  step : BitVec 4
  rstCount : Ctr
  bootStep : BitVec 4
  fc1 : BitVec 2
  fc2 : BitVec 2
  tmr : Word
  tmrAt : Long
  rec_ : BootRec
  orderly : Option Orderly
  halted : Bool
  up : Bool
  svcOnly : Bool
  deriving DecidableEq, Repr

/-- A feed (R510). -/
structure Feed where
  present : Bool
  volt : BitVec 16
  deriving DecidableEq, Repr

/-- Supply (R505 to R521, R527). `tpf` is the instant at which both feeds were lost, `grLost` the retention-lost flag of R327 and `grInit` the
pairs whose retain area a cold restart has initialised since; `hourSec` are the seconds of the running operating hour (R448), `xtalBad` says that
the crystal had failed when the feeds were lost (R454), `tSeen` that a temperature has been sampled since POR. -/
structure Power where
  feed : Vector Feed 2
  full : Bool
  cap : Byte
  holdV : BitVec 16
  evt : BitVec 9
  cellPresent : Bool
  cellMv : BitVec 16
  tMax : BitVec 16
  tNow : BitVec 16
  panel : BitVec 24
  panelFl : BitVec 12
  tpf : Option Long
  backup : Bool
  grLost : Bool
  grInit : BitVec 4
  hourSec : Nat
  xtalBad : Bool
  tSeen : Bool
  sfp : Sfp
  deriving DecidableEq, Repr

/-! ## Modes, fuses, debug port -/

/-- The operating dimension (R472). -/
inductive Oper where
  | stop | run | hold | safe | service
  deriving DecidableEq, Repr

/-- An admitted request of the operating dimension that has not taken effect: its target, the deadline cycle at which STOP or HOLD takes
effect, or the earliest tick of a return from HOLD (R476, R477, R479). -/
structure OperPend where
  target : Oper
  cyc : Long
  tick : Long
  src : ReqSrc
  fault : Bool
  deriving DecidableEq, Repr

/-- The Mode Arbiter and the Output Guard's status (R472 to R486). `domStop` are the run states whose STOP is pending, from the cycles `domStopCyc` on; `lastTrain` says that
STOP has taken effect and the last train has still to leave. -/
structure Arb where
  oper : Oper
  pend : Option OperPend
  reason : Byte
  refused : Bool
  last : Word
  trans : Ctr
  key : KeyPos
  transit : Bool
  domStop : BitVec 6
  domStopCyc : Vector Long 6
  frtLinkDue : Option Long
  safeTrain : Bool
  lastTrain : Bool
  deriving DecidableEq, Repr

/-- The fuse bank and its registers (R487 to R490, R504). A 256-bit field is eight data words and the check word; `cmd` is FUSE_CMD as last taken. -/
structure Fuses where
  factoryDone : Bool
  order : Byte
  serial : Long
  mac : BitVec 48
  fkey : List Byte
  khash : Vector (Vector Word 9) 8
  revoke : Byte
  ckek : Vector Word 9
  fkeyDone : Bool
  dbgClose : BitVec 3
  keyerr : Bool
  fail : Bool
  blow : List FuseWord
  data : Vector Word 8
  cmd : Word
  deriving DecidableEq, Repr

/-- The debug port (R502). -/
structure Dbg where
  ir : Byte
  refused : Bool
  deriving DecidableEq, Repr

/-- How a register access or a memory access completed (R22, R28, R78). -/
inductive Resp where
  | ok | noPath | domOff | priv | lsBusy
  deriving DecidableEq, Repr

/-- The last access made by a command of the block's bus: the model's interface to the requester. -/
structure Bus where
  resp : Resp
  val : Word
  deriving DecidableEq, Repr

end Sys2Proof.Machine
end

