-- ==== Sys2Proof/Config.lean ====
section
/-! DEFINITION. What the spec leaves to the implementation or leaves open: opaque constants, so that nothing can be proved of
their values, and the two formats that Voxosh assigns. -/

namespace Sys2Proof.Config
open Sys2Proof.Machine

/-- The program image that a file of the IMAGES area spells: Voxosh assigns the format (log entry 5). -/
opaque readImage : List Byte → Image
/-- The configuration set that a file spells (R368; log entry 5). -/
opaque readCfgSet : List Byte → CfgSet
/-- A fresh free value of a number, by the model's counter (log entry 3). -/
opaque freeNat : Nat → Nat
/-- Which sources of a group's inputs did not reach a lane in a cycle, as bits by the place of the source (R91; log entry 71). -/
opaque sampleLost : Nat → Fin 3 → Nat
/-- A fresh free bit (log entry 3). -/
opaque freeBool : Nat → Bool
/-- A fresh Steward nonce NS of 16 bytes (R358; log entry 6). -/
opaque nonce : Nat → BitVec 128
/-- The voted status of a group that the Output Guard writes into its 16 KiB of the voted status window (R23, R311): the spec gives no
layout, so its bytes are a free function of the group, the voted image and the cycle (log entry 9). -/
opaque votedStatus : Fin 2 → List Byte → Long → List Byte
/-- The order in which a ring passes the stations of a layout: the layout's format is Voxosh's (log entry 5). -/
opaque ringOrder : Layout → List (BitVec 12)
/-- Bits 71 to 64 of an accumulator after a debugger's 64-bit write: the spec gives the entry 8 bytes (R114; log entry 3). -/
opaque accGuard : BitVec 64 → BitVec 8
/-- Where a block of DELTA stands, as memory code and offset: the spec gives the area codes no values (log entry 10). -/
opaque deltaPlace : BitVec 8 → BitVec 32 → Nat × Nat
/-- The area code and the offset of a place in a memory (log entry 10). -/
opaque deltaArea : Nat → Nat → BitVec 8 × BitVec 32
/-- The blocks in which the partner's image, configuration or layout differs: R228 compares digests, for which R209 has no message (log entry 67). -/
opaque differing : Nat → List DeltaRef
/-- The program image that the hot-standby partner runs under an identity, as the image phase fetches it (R228): the spec gives the blocks' places no
form (log entry 67). -/
opaque partnerImage : BitVec 64 → Image
/-- The partner's state of a connection (group, place), and of the interlocking tables, as the state phase brings them (R228; log entry 67). -/
opaque partnerConn : Nat → Nat → Nat → ConnSt
/-- The partner's interlocking tables (log entry 67). -/
opaque partnerIxl : Nat → Ixl
/-- The bytes of an event of the log with its sequence number, and a byte of an area of the Archive at an offset: the spec gives neither the form of
an event nor the areas' codes and formats (R332, R368; log entry 5). -/
opaque eventBytes : Nat → LogEntry → List Byte
/-- A byte of the Archive (log entry 5). -/
opaque archiveByte : BitVec 8 → Nat → Archive → List LogEntry → Byte
/-- The text that names a refusal, as its bytes on the wire: R368 says "refusal name as text" and gives no character code (log entry 7). -/
def textOf (s : String) : List Byte := s.toList.map fun c => BitVec.ofNat 8 c.toNat

end Sys2Proof.Config
end

