-- ==== Sys2Proof/Machine/State.lean ====
section
/-! DEFINITION. The state of the module, and `State.reset`, the module right after a module reset with nothing loaded. -/

namespace Sys2Proof.Machine

/-- Why the model stops with a fault. The spec gives every row of the command table an effect, so there is none. -/
inductive Fault
  deriving DecidableEq, Repr

/-- Why the model refuses a command. -/
inductive Refusal where
  /-- Raised by an arm of `exec` whose command has no meaning yet. Safe: nothing is claimed of it. -/
  | notModelled (mnemonic : String)
  deriving DecidableEq, Repr

/-- The module. `pending` is the queue of commands that wait, oldest first; `bus` holds how the last access of a bus command completed;
`freeCtr` picks the free values (opaque constants of Config) and belongs to the model, not to the spec. -/
structure State where
  pending : List Instr
  cyc : Cyc
  cores : Vector Core 11
  doms : Vector Dom 6
  pairs : Vector PairReg 4
  mem : List Host.Cell
  memRegs : MemRegs
  memErrs : MemErrs
  banks : Vector Bank 33
  voter : Voter
  solvers : Vector Solver 5
  rmus : Vector Rmu 3
  ixl : Vector Ixl 3
  conns : Vector (Vector (List ConnSt) 2) 3
  ring : Ring
  rtm : Rtm
  hsb : Hsb
  sync : SyncLink
  fg : Vector Fg 6
  fgErr : BitVec 3
  mbx : Mbx
  update : Update
  wdg : Vector Wdg 8
  cim : Vector Cim 6
  esc : Esc
  rtc : Rtc
  ps : PStore
  arch : Archive
  boot : Boot
  power : Power
  arb : Arb
  fuses : Fuses
  dbg : Dbg
  log : List LogEntry
  bus : Bus
  freeCtr : Nat
  deriving DecidableEq, Repr

/-! ## After reset

Values the spec states for reset; where it states none, zero or empty (log entry 1). -/

/-- A core after reset: MODE 0x4 (R236), everything else 0; privilege K (log entry 1). -/
def Arch.reset : Arch where
  g := .replicate 32 0
  p := 0
  a := .replicate 4 0
  mode := 4
  ia := 0
  priv := true
  trappc := 0
  trapinst := 0
  trapcause := 0
  trapsave := 0
  tvec := 0
  iena := 0
  ipend := 0
  kscr := 0
  cycSh := 0
  tbSh := 0
  opens := []
  delay := none
  rpt := none
  resv := none
  justRte := false
  retired := 0

/-- A protection block after reset (R309); `win` is 15 for a lane core. -/
def Prot.reset (win : Word) : Prot where
  base := .replicate 8 0
  lim := .replicate 8 0
  attr := 0
  pimg := 0
  xwin := win

/-- A core with (`chk`) or without a checker after reset. A lane core issues nothing before its domain is on and its group runs. -/
def Core.reset (pair : Bool) (stopped : Bool) : Core where
  arch := .reset
  chk := if pair then some .reset else none
  prot := .reset (if pair then 0 else 15)
  hold := .none
  stopped := stopped
  halted := false
  step := false
  task := none
  saved := []
  intTarget := []
  resched := false
  lsWait := none

/-- A task that has never been released. -/
def TaskSt.reset : TaskSt := { open_ := 0, primed := false, relCycle := 0, deadline := 0, merged := 0, skipped := 0 }

/-- No online change (R380). -/
def Change.reset : Change :=
  { dim := .none, image := none, recipe := false, windowS := 0, bulkDone := false, cycles := 0, marks := [], swapAt := 0, confirmed := none, wantConfirm := false
    wantRevert := false, cmd := none }

/-- An empty domain in STOP. -/
def Dom.reset : Dom where
  image := none
  run := false
  held := false
  tasks := .replicate 16 .reset
  commit := []
  commits := []
  voted := []
  published := []
  prevIn := .replicate 3 []
  relAt := none
  instKept := []
  first := false
  skipNext := false
  skippedRun := 0
  repeated := false
  rptSent := false
  pstop := false
  ovrRun := 0
  ovrTotal := 0
  ovrSince := 0
  rstKind := 0
  rstReason := 0
  retain := none
  bankB := false
  region := 0
  stopDue := false
  resend := none
  change := .reset

/-- The cycle timer after reset (R36). -/
def Cyc.reset : Cyc where
  tb := 0
  rateAcc := 0
  count := 0
  tk := 0
  running := false
  t0 := none
  ir := none
  irForced := false
  dl := false
  lastRt := 0
  period := 0x2710
  margin := 0x32
  retlim := 0x1388
  ovrlim := 0x08080808
  err := 0
  countSh := 0
  tbSh := 0

/-- The pair registers after reset (R118). -/
def PairReg.reset : PairReg :=
  { fault := false, kind := 0, fcount := 0, fpc := 0, echo := false, halt := false, log := [], refused := false, brk := [] }

/-- The memory-code registers after reset (R333). -/
def MemRegs.reset : MemRegs where
  ueSeen := false
  crcSeen := false
  ceSeen := false
  reten := 0
  ce := 0
  ue := 0
  crcerr := 0
  eaddr := 0
  esrc := 0
  wlost := 0
  wladdr := 0
  wlsrc := 0
  passes := 0
  scrub := 0
  xscrub := 0
  faildev := 0
  corr := 0
  eras := 0
  af := .replicate 16 0
  held := []
  errMarks := []
  wakeAt := .replicate 33 0

/-- No stored bit is wrong. -/
def MemErrs.reset : MemErrs := { flips := [], side := [], outer := [], poison := [], xsym := [], xflag := [], recent := [] }

/-- A voter channel after reset (R118): window 1 µs, AGRLIM 16, group OUT. -/
def Group.reset : Group where
  cfg := 0x0004E210
  members := 0
  duplex := false
  mmkind := 0
  laneDebug := false
  agr := .replicate 3 0
  sub := 0
  vp := none
  voted := []
  candGot := []
  lastEoc := false
  eocSince := false
  eocAt := none
  relAt := none
  builtAt := none
  commit := .replicate 3 []
  cand := 0
  withheld := 0
  mute := 0
  dupAt := false
  lost := .replicate 3 []
  queue := []
  tels := []

/-- A lane after reset: off (R26). -/
def Lane.reset : Lane :=
  { pll := false, bistOk := false, scopeCause := 0, debug := false, xcount := 0, xgroup := 0, xcause := 0, vmin := 0, vagr := 0 }

/-- No reintegration has run (R118). -/
def Reint.reset : Reint :=
  { lane := 0, phase := 0, result := 0, starts := [], auto := false, autoWant := 0, off := false, back := false, copied := 0, clean := 0, joined := 0
    since := 0, dirty := [], diff := [] }

/-- The Triplex Voter after reset (R118). -/
def Voter.reset : Voter :=
  { grp := .replicate 2 .reset, lane := .replicate 3 .reset, reint := .reset, reqReason := 0, reqRefused := false, reqBusy := false
    safeValid := false, safeGroup := false, safeCause := 0 }

/-- A Logic Solver queue after reset (R83). -/
def LsQueue.reset : LsQueue :=
  { img := none, imgAddr := 0, run := none, queued := none, entry := 0, done := false, fault := false, aborted := false, fcode := 0, err := 0
    last := 0, faults := 0, unloadDue := false }

/-- A Logic Solver after reset; its bit file is 0 (log entry 1). -/
def Solver.reset : Solver := { bits := [], q := .replicate 2 .reset, claim := none, disablePend := none }

/-- An RMU after reset (R130). -/
def Rmu.reset : Rmu := { armed := false, routes := 0, base := 0, lvec := 0, ops := 0, conf := 0, err := 0 }

/-- No interlocking is loaded. -/
def Ixl.reset : Ixl :=
  { routes := [], points := [], signals := [], sections := [], prevSections := [], hold := none, holdDone := false, answer := .none
    slice := 0 }

/-- The ring block after reset (R180). -/
def Ring.reset : Ring where
  cfg := 0x88B50000
  en := 0
  enPend := false
  frtDisable := false
  dim := .off
  badval := false
  locked := false
  looped := false
  frtOn := false
  on := .replicate 2 false
  layout := none
  linkUp := .replicate 4 false
  cnt := .replicate 2 (.replicate 5 0)
  frtDone := 0
  frtLink := 0
  frtCancel := 0
  stations := []
  train := none
  lastTrain := none
  relayed := []
  sent := []
  items := []
  ends := []

/-- A rank without history. -/
def Rank.reset : Rank := { valid := 0, missing := 0, last := none, now := none }

/-- Ring time after reset (R206): FREE, rank 0. -/
def Rtm.reset : Rtm where
  brk := .replicate 2 false
  rtOver := false
  loop := none
  refOff := none
  segIn := .replicate 2 0
  tstate := 3
  tsrc := 0
  holdover := false
  rtofs := none
  ofsSh := 0
  diff := 0
  rate := 0
  evt := 0
  survState := 0
  survCount := 0
  survFail := false
  todo := []
  delays := []
  srcchg := 0
  lostTr := 0
  lostSt := 0
  good := .replicate 2 0
  bad := .replicate 2 0
  ranks := .replicate 4 .reset

/-- The hot-standby block after reset (R233). -/
def Hsb.reset : Hsb where
  cfg := 0x88B6FC03
  role := .alone
  orig := false
  left := 0
  silent := 0
  epoch := 0
  seen := 0
  committed := none
  wantEpoch := none
  lastIntact := 0
  intact := false
  cmpRun := 0
  lastMis := 0
  susp := 0
  reqReason := 0
  reqRefused := false
  reqBusy := false
  evt := 0
  cnt := .replicate 5 0

/-- No resynchronisation has run. -/
def Resync.reset : Resync := { state := 0, result := 0, progress := 0, failedAt := none, want := [] }

/-- The sync link after reset. -/
def SyncLink.reset : SyncLink where
  up := false
  gotMsg := false
  msgRun := 0
  pMac := none
  ofs := 0
  sent := false
  pRole := 0
  pHello := none
  mseq := 0
  out := []
  cons := none
  prepM := none
  prepared := false
  relqGot := none
  relqSent := none
  listening := false
  listenAt := 0
  accepted := false
  dback := 0
  pDback := 0
  faults := []
  resync := .reset

/-- A channel after reset: a general input without owner, driver off (R341). -/
def FgCh.reset : FgCh :=
  { cfg := 0, eff := 0, raw := false, deb := false, run := none, tsR := 0, tsF := 0, ecnt := 0, ovl := false, cmd := false, lastChg := none
    pin := false }

/-- A field group after reset: no field-side power (R335). -/
def Fg.reset : Fg where
  ch := .replicate 8 .reset
  pcfg := 0
  fpwr := false
  restart := none
  lpuv := false
  lpv := 0
  govl := false
  schLate := 0
  schClose := 0
  schForeign := 0
  ovlCnt := 0
  permitOn := false
  permitLevel := false
  toggleAt := none
  edgeAt := none
  edges := 0
  pres := false
  sched := []
  block := []

/-- A closed session (R358). -/
def Session.reset : Session :=
  { st := .closed, freight := false, key := 0, useFkey := false, rights := 0, ks := [], openedAt := 0, lastAt := 0, hi := 0, seen := []
    txSeq := 0, slots := [], cache := [] }

/-- The mailbox block after reset (R378). -/
def Mbx.reset : Mbx :=
  { port := 0x8836, frt := false, eth := true, ip := 0, sess := .replicate 4 .reset, partner := .reset, cnt := .replicate 8 0, frags := []
    once := [], out := [] }

/-- A class without firmware. -/
def Firmware.reset : Firmware := { id := 0, ifs := [], image := [] }

/-- No update runs. -/
def Update.reset : Update :=
  { running := .replicate 4 .reset, previous := .replicate 4 .reset, before := .replicate 4 .reset, target := none, step := 0, retried := false, stopAt := false, cmd := none }

/-- A watchdog unit after reset (R401, R422). -/
def Wdg.reset (steward : Bool) : Wdg where
  lock := false
  core := false
  priv := false
  wind := false
  en := steward
  period := if steward then 0x10000 else 0x21
  open_ := 0
  staged := 0
  count := 0
  svc := []
  key := none
  due := 0
  expired := false
  badval := false
  perlate := false
  badsvc := false
  keyerr := false
  frozen := false
  exp := 0
  svcN := 1

/-- A check-in point after reset: not registered, not evaluated (R423). -/
def CimPt.reset : CimPt := { win := 0, mx := 0, mn := 0, cnt := .replicate 3 0, verdict := 0x3F, started := 0 }

/-- A set of check-in points after reset. -/
def Cim.reset : Cim := { pts := .replicate 64 .reset, fails := 0, badval := false, fail := false, badpt := false, badLanes := 0, closedAt := none }

/-- The ladder after reset (R422). -/
def Esc.reset : Esc :=
  { dlim := 3, n := 3, lastSrc := 0, lastCause := 0, hold := false, count24 := 0, restarts := .replicate 5 [], event := 0, due := 0, rung2 := none }

/-- A shadow outside any sequence (R436). -/
def RtcShadow.reset : RtcShadow := { time := 0, date := 0, frac := 0, bin := 0, stat := 0, start := none, count := 0 }

/-- The clock after PD_AON lost its supply (R427, R438): 2000-01-01 00:00:00. -/
def Rtc.reset : Rtc where
  time := 0
  date := 0x20000101
  frac := 0
  bin := 0
  acc := 0
  stime := 0
  sdate := 0
  dst := false
  lost := true
  nvalid := false
  bvalid := false
  shift := none
  step := none
  err := 0
  evt := 0
  wake := 0
  wakeAcc := 0
  alm := .replicate 2 (0, false)
  shadow := .replicate 5 .reset

/-- The parameter store after reset: nothing written, the scan running (R451). -/
def PStore.reset : PStore where
  pages := []
  cur := none
  qLease := []
  qSup := []
  qStew := []
  seq := 0
  bp := 0
  scan := true
  fail := false
  done := false
  err := 0
  retired := 0
  free := 0
  writes := 0
  retry := 0
  refresh := 0
  cutoff := false
  torn := false
  buf := .replicate 256 0

/-- A boot record that has never been written (R467). -/
def BootRec.reset : BootRec :=
  { starts := 0, flags := 0, lastCause := 0, lastStep := 0, failed := 0xFF, fc := .replicate 15 0, setRun := 0, setPrev := 0, tStart := 0
    degraded := 0 }

/-- Sequencer, clocks and resets after reset (R471). -/
def Boot.reset : Boot where
  on := 0
  refused := false
  rcOk := true
  xtalOk := false
  rootOk := false
  mainLock := false
  laneLock := 0
  clkEvt := 0
  xtalGood := 0
  subst := false
  substSeen := false
  cause := 1
  step := 0
  rstCount := 0
  bootStep := 0
  fc1 := 0
  fc2 := 0
  tmr := 0
  tmrAt := 0
  rec_ := .reset
  orderly := none
  halted := false
  up := false
  svcOnly := false

/-- Supply after reset (R527). -/
def Power.reset : Power where
  feed := .replicate 2 { present := false, volt := 0 }
  full := false
  cap := 0
  holdV := 0
  evt := 0
  cellPresent := false
  cellMv := 0
  tMax := 0
  tNow := 0
  panel := 0
  panelFl := 0
  tpf := none
  backup := false
  grLost := false
  grInit := 0
  hourSec := 0
  xtalBad := false
  tSeen := false
  sfp := .none

/-- The Mode Arbiter after reset (R486): operating STOP, key STOP. -/
def Arb.reset : Arb where
  oper := .stop
  pend := none
  reason := 0
  refused := false
  last := 0
  trans := 0
  key := .stop
  transit := false
  domStop := 0
  domStopCyc := .replicate 6 0
  frtLinkDue := none
  safeTrain := false
  lastTrain := false

/-- An unblown fuse bank (R487; log entry 1). -/
def Fuses.reset : Fuses where
  factoryDone := false
  order := 0
  serial := 0
  mac := 0
  fkey := .replicate 32 0
  khash := .replicate 8 (.replicate 9 0)
  revoke := 0
  ckek := .replicate 9 0
  fkeyDone := false
  dbgClose := 0
  keyerr := false
  fail := false
  blow := []
  data := .replicate 8 0
  cmd := 0

/-- The module right after a module reset (R458), before any start-up step, with nothing loaded and nothing written. -/
def State.reset : State where
  pending := []
  cyc := .reset
  cores := #v[.reset true true, .reset true true, .reset true true, .reset true true, .reset false true, .reset false true, .reset false true,
    .reset false true, .reset false true, .reset false true, .reset true true]
  doms := .replicate 6 .reset
  pairs := .replicate 4 .reset
  mem := []
  memRegs := .reset
  memErrs := .reset
  banks := .replicate 33 .active
  voter := .reset
  solvers := .replicate 5 .reset
  rmus := .replicate 3 .reset
  ixl := .replicate 3 .reset
  conns := .replicate 3 (.replicate 2 [])
  ring := .reset
  rtm := .reset
  hsb := .reset
  sync := .reset
  fg := .replicate 6 .reset
  fgErr := 0
  mbx := .reset
  update := .reset
  wdg := #v[.reset true, .reset false, .reset false, .reset false, .reset false, .reset false, .reset false, .reset false]
  cim := .replicate 6 .reset
  esc := .reset
  rtc := .reset
  ps := .reset
  arch := { images := [], strata := [], sets := [], keyImages := [], keys := [], data := [], progs := .replicate 6 none, frozen := none }
  boot := .reset
  power := .reset
  arb := .reset
  fuses := .reset
  dbg := { ir := 0xFF, refused := false }
  log := []
  bus := { resp := .ok, val := 0 }
  freeCtr := 0

end Sys2Proof.Machine
end

