-- ==== Sys2Proof/Machine/Ops.lean ====
section
/-! DEFINITION. The named operations every family uses: updates of one part of the state, saturating counters, power domains, memory by
bytes, time, the event log, interrupt sources and mode transitions. -/

namespace Sys2Proof.Machine

/-- A meaning of a command. -/
abbrev Meaning := Host.Outcome State Fault Refusal

/-! ## Updates of one part -/

/-- Updates core `c`. -/
def modCore (c : CoreId) (f : Core → Core) (s : State) : State := { s with cores := s.cores.set c (f s.cores[c]) }
/-- Updates domain `d`. -/
def modDom (d : DomId) (f : Dom → Dom) (s : State) : State := { s with doms := s.doms.set d (f s.doms[d]) }
/-- Updates pair `n`'s registers. -/
def modPair (n : Fin 4) (f : PairReg → PairReg) (s : State) : State := { s with pairs := s.pairs.set n (f s.pairs[n]) }
/-- Updates a voter channel. -/
def modGroup (g : Fin 2) (f : Group → Group) (s : State) : State :=
  { s with voter := { s.voter with grp := s.voter.grp.set g (f s.voter.grp[g]) } }
/-- Updates a lane. -/
def modLane (l : Fin 3) (f : Lane → Lane) (s : State) : State :=
  { s with voter := { s.voter with lane := s.voter.lane.set l (f s.voter.lane[l]) } }
/-- Updates the reintegration. -/
def modReint (f : Reint → Reint) (s : State) : State := { s with voter := { s.voter with reint := f s.voter.reint } }
/-- Updates a Logic Solver. -/
def modSolver (i : Fin 5) (f : Solver → Solver) (s : State) : State := { s with solvers := s.solvers.set i (f s.solvers[i]) }
/-- Updates the queue of core `k` of a Logic Solver. -/
def modQueue (i : Fin 5) (k : Fin 2) (f : LsQueue → LsQueue) (s : State) : State :=
  modSolver i (fun v => { v with q := v.q.set k (f v.q[k]) }) s
/-- Updates a field group. -/
def modFg (g : GroupId) (f : Fg → Fg) (s : State) : State := { s with fg := s.fg.set g (f s.fg[g]) }
/-- Updates a field channel. -/
def modCh (g : GroupId) (c : Fin 8) (f : FgCh → FgCh) (s : State) : State := modFg g (fun x => { x with ch := x.ch.set c (f x.ch[c]) }) s
/-- Updates a watchdog unit. -/
def modWdg (u : Fin 8) (f : Wdg → Wdg) (s : State) : State := { s with wdg := s.wdg.set u (f s.wdg[u]) }
/-- Updates a domain's check-in points. -/
def modCim (d : DomId) (f : Cim → Cim) (s : State) : State := { s with cim := s.cim.set d (f s.cim[d]) }
/-- Updates both copies of a core's architectural state. -/
def modArch (c : CoreId) (f : Arch → Arch) (s : State) : State := modCore c (fun k => { k with arch := f k.arch, chk := k.chk.map f }) s

/-! ## Counters and numbers -/

/-- A 32-bit count that saturates. -/
def inc (c : Ctr) : Ctr := if c == 0xFFFFFFFF then c else c + 1
/-- A 32-bit count increased by `n`, saturating. -/
def incBy (c : Ctr) (n : Nat) : Ctr := BitVec.ofNat 32 (min (c.toNat + n) 0xFFFFFFFF)
/-- A 16-bit count that saturates. -/
def inc16 (c : BitVec 16) : BitVec 16 := if c == 0xFFFF then c else c + 1
/-- An 8-bit count that saturates. -/
def inc8 (c : Byte) : Byte := if c == 0xFF then c else c + 1
/-- A Boolean as a bit. -/
def bitOf (b : Bool) : Nat := if b then 1 else 0
/-- Bits [hi:lo] of a word. -/
def field (w : Word) (lo width : Nat) : Nat := w.toNat / 2 ^ lo % 2 ^ width
/-- Sets or clears bit `i`. -/
def setBit {n : Nat} (w : BitVec n) (i : Nat) (b : Bool) : BitVec n :=
  if b then w ||| (1#n <<< i) else w &&& ~~~(1#n <<< i)
/-- A word spelled by fields (value, lowest bit). -/
def pack (fs : List (Nat × Nat)) : Word := BitVec.ofNat 32 (fs.foldl (fun n f => n + f.1 * 2 ^ f.2) 0)
/-- The number of 1 bits among the low `n`. -/
def popc (n x : Nat) : Nat := ((List.range n).filter fun i => x.testBit i).length
/-- The elements of a list, by ordinal. -/
def enum {α : Type} (xs : List α) : List (Nat × α) := (List.range xs.length).zip xs
/-- Replaces element `i`. -/
def setAt {α : Type} (xs : List α) (i : Nat) (f : α → α) : List α := xs.modify i f

/-- The next free value of the model (log entry 3): its ordinal, and the state with the counter advanced. -/
def nextFree (s : State) : Nat × State := (s.freeCtr, { s with freeCtr := s.freeCtr + 1 })

/-! ## Cores and domains -/

/-- The pair whose core this is (R12). -/
def pairOf (c : CoreId) : Option (Fin 4) := if h : c.val < 4 then some ⟨c.val, h⟩ else none
/-- The lane and the core number of a lane core (R13). -/
def laneOf (c : CoreId) : Option (Fin 3 × Fin 2) :=
  if 4 ≤ c.val ∧ c.val < 10 then some (Fin.ofNat 3 ((c.val - 4) / 2), Fin.ofNat 2 (c.val - 4)) else none
/-- The core `k` of lane `l`. -/
def laneCore (l : Fin 3) (k : Fin 2) : CoreId := Fin.ofNat 11 (4 + 2 * l.val + k.val)
/-- A pair's core. -/
def pairCore (n : Fin 4) : CoreId := Fin.ofNat 11 n.val
/-- The Steward's core. -/
def stewCore : CoreId := 10
/-- The domain a core runs (R16, R368): none for the Steward. -/
def domOf (c : CoreId) : Option DomId :=
  if c.val < 4 then some (Fin.ofNat 6 c.val) else if c.val < 10 then some (Fin.ofNat 6 (4 + (c.val - 4) % 2)) else none
/-- The pair a domain is. -/
def domPair (d : DomId) : Option (Fin 4) := if h : d.val < 4 then some ⟨d.val, h⟩ else none
/-- The group a domain is. -/
def domGroup (d : DomId) : Option (Fin 2) := if d.val < 4 then none else some (Fin.ofNat 2 (d.val - 4))
/-- A pair's domain. -/
def pairDom (n : Fin 4) : DomId := Fin.ofNat 6 n.val
/-- A group's domain. -/
def groupDom (g : Fin 2) : DomId := Fin.ofNat 6 (4 + g.val)
/-- The pairs, lanes, groups and domains. -/
def allPairs : List (Fin 4) := [0, 1, 2, 3]
/-- The three lanes. -/
def allLanes : List (Fin 3) := [0, 1, 2]
/-- The two groups. -/
def allGroups : List (Fin 2) := [0, 1]
/-- The six domains. -/
def allDoms : List DomId := [0, 1, 2, 3, 4, 5]
/-- The six field groups. -/
def allFg : List GroupId := [0, 1, 2, 3, 4, 5]
/-- The eight channels. -/
def allCh : List (Fin 8) := [0, 1, 2, 3, 4, 5, 6, 7]
/-- The member lanes of a group. -/
def memberLanes (g : Fin 2) (s : State) : List (Fin 3) := allLanes.filter fun l => s.voter.grp[g].members.getLsbD l.val
/-- The memory code of R333 of a domain's memory: 0 standard SRAM for a pair, the lane's for a group. -/
def laneMem (l : Fin 3) : Nat := 1 + l.val
/-- The member index of R333 of a core. -/
def coreIdx (c : CoreId) : Nat := c.val
/-- A group has a loaded image. -/
def loadedGroups (s : State) : List (Fin 2) := allGroups.filter fun g => s.doms[groupDom g].image.isSome

/-! ## Power domains -/

/-- The power domains in the order of PWR_STAT.ON (R471). -/
inductive Pd where
  | aon | grotto | stew | la | lb | lc | std | solv | ring | mem | iox | vote
  deriving DecidableEq, Repr

/-- A power domain's bit in PWR_STAT.ON. -/
def Pd.idx : Pd → Nat
  | .aon => 0 | .grotto => 1 | .stew => 2 | .la => 3 | .lb => 4 | .lc => 5 | .std => 6 | .solv => 7 | .ring => 8 | .mem => 9 | .iox => 10 | .vote => 11

/-- The domain of a lane. -/
def lanePd (l : Fin 3) : Pd := if l = 0 then .la else if l = 1 then .lb else .lc
/-- A power domain is on. -/
def pdOn (p : Pd) (s : State) : Bool := s.boot.on.getLsbD p.idx
/-- Switches a power domain. -/
def setPd (p : Pd) (b : Bool) (s : State) : State := { s with boot := { s.boot with on := setBit s.boot.on p.idx b } }
/-- The power domain of a core. -/
def corePd (c : CoreId) : Pd := if c.val < 4 then .std else match laneOf c with | some (l, _) => lanePd l | none => .stew

/-! ## Time -/

/-- Ticks of 0.8 ns in 100 ns (R29). -/
def tick100 : Nat := 125
/-- Ticks in a microsecond. -/
def tickUs : Nat := 1250
/-- Ticks in a millisecond. -/
def tickMs : Nat := 1250000
/-- Ticks in a second. -/
def tickS : Nat := 1250000000
/-- Ticks from `t` to now. -/
def since (t : Long) (s : State) : Nat := (s.cyc.tb - t).toNat
/-- The period in ticks (R31). -/
def periodTicks (s : State) : Nat := s.cyc.period.toNat * tick100
/-- D_k − T_k in ticks (R33). -/
def deadlineTicks (s : State) : Nat := (s.cyc.period.toNat - s.cyc.margin.toNat) * tick100
/-- The cycle whose deadline governs a change admitted now: D_k if it lies at least 1 µs ahead, otherwise D_{k+1} (R477). -/
def deadlineCycle (s : State) : Long :=
  if since s.cyc.tk s + tickUs ≤ deadlineTicks s then s.cyc.count else s.cyc.count + 1
/-- `ms` milliseconds have passed since `t`. -/
def elapsed (ms : Nat) (t : Long) (s : State) : Bool := ms * tickMs ≤ since t s
/-- The output deadline of the running cycle has come (R33). -/
def deadlineCome (s : State) : Bool := s.cyc.tk.toNat + deadlineTicks s ≤ s.cyc.tb.toNat
/-- The output deadline of cycle `c` has come. -/
def pastDeadline (c : Long) (s : State) : Bool := c.toNat < s.cyc.count.toNat || (c == s.cyc.count && deadlineCome s)
/-- The next departure instant (R31): T_0 as set at the entry to RUN, afterwards one period after the last, which in a module that follows a primary is the
instant at which the primary's train has put it (R213). -/
def nextTk (s : State) : Long := match s.cyc.t0 with
  | some t => t
  | none => s.cyc.tk + BitVec.ofNat 64 (periodTicks s)
/-- T_k has come, and the deadline of the cycle before it has passed (R31, R39). -/
def tkDue (s : State) : Bool := s.cyc.running && (nextTk s).toNat ≤ s.cyc.tb.toNat && (s.cyc.t0.isSome || s.cyc.dl)
/-- Seconds of ring time (R189, R440). -/
def ringTime (s : State) : Long := s.cyc.tb + s.rtm.rtofs.getD 0
/-- The period in milliseconds, rounded up for a multiple `k` of it (R369). -/
def ceilMs (k : Nat) (s : State) : Nat := (k * s.cyc.period.toNat + 9999) / 10000

/-! ## Memory by bytes -/

/-- The key of a byte: its memory code (R333) and its offset in that memory. -/
def memKey (code off : Nat) : Nat := code * 2 ^ 36 + off

/-- The stored form of a byte: lane B's SRAM, memory code 2, holds every data bit inverted (R14, R15); the same function reads it back. -/
def polarity (code : Nat) (b : Byte) : Byte := if code = 2 then ~~~b else b

/-- What an unlisted key stores: the stored form of 0 (log entry 2). -/
def memFill (a : Nat) : Byte := polarity (a / 2 ^ 36) 0

/-- The byte stored at a key. -/
def memFind : List Host.Cell → Nat → Byte
  | [], a => memFill a
  | (k, b) :: m, a => if k = a then b else memFind m a

/-- Stores one byte, keeping the canonical form. -/
def memPut : List Host.Cell → Nat → Byte → List Host.Cell
  | [], a, v => if v = memFill a then [] else [(a, v)]
  | (k, b) :: m, a, v =>
    if a < k then (if v = memFill a then (k, b) :: m else (a, v) :: (k, b) :: m)
    else if a = k then (if v = memFill a then m else (a, v) :: m)
    else (k, b) :: memPut m a v

/-- The canonical form: keys strictly rising, no entry equal to what an unlisted byte stores. -/
abbrev memWf (m : List Host.Cell) : Prop := (m.map Prod.fst).Pairwise (· < ·) ∧ ∀ c ∈ m, c.2 ≠ memFill c.1

/-- The byte at `off` of memory `code`, in true polarity (R15). -/
def readByte (code off : Nat) (s : State) : Byte := polarity code (memFind s.mem (memKey code off))
/-- Writes a byte given in true polarity (R15). -/
def writeByte (code off : Nat) (v : Byte) (s : State) : State := { s with mem := memPut s.mem (memKey code off) (polarity code v) }
/-- `n` bytes from `off` upward. -/
def readBytes (code off n : Nat) (s : State) : List Byte := (List.range n).map fun i => readByte code (off + i) s
/-- Writes bytes from `off` upward. -/
def writeBytes (code : Nat) : Nat → List Byte → State → State
  | _, [], s => s
  | off, b :: bs, s => writeBytes code (off + 1) bs (writeByte code off b s)
/-- The number of the bytes from `off` upward. -/
def readNat (code off n : Nat) (s : State) : Nat := leNat (readBytes code off n s)
/-- Writes a number of `n` bytes. -/
def writeNat (code off n v : Nat) (s : State) : State := writeBytes code off (leBytes n v) s
/-- Removes every byte of a memory. -/
def clearMem (code : Nat) (s : State) : State :=
  { s with mem := s.mem.filter fun c => c.1 < memKey code 0 || memKey (code + 1) 0 ≤ c.1 }

/-- Adds lines to a list of lines. -/
def addLines (ls old : List Nat) : List Nat := ls.filter (fun l => !old.contains l) ++ old

/-- A domain's part in a write of lines `ls` of memory `code` (R384, R389, R58): the change tracker marks them, as does the active unit's (R228), and a
write by the pair opens its retain area. `by_` is the writing core. -/
def domTouch (by_ : Option CoreId) (code : Nat) (ls : List Nat) (i : Nat) (d : Dom) : Dom := match d.image with
  | none => d
  | some im =>
    let own := if i < 4 then code == 0 else 1 ≤ code && code ≤ 3
    let base := im.areas.dataBase
    let data := if own then ls.filter fun l => base / 64 ≤ l && 64 * l < base + im.areas.dataLen else []
    let kept := if code == 5 && i < 4 then ls.filter fun l => i * 458752 ≤ 64 * l && 64 * l < i * 458752 + im.areas.retainLen else []
    let d := { d with resend := d.resend.map fun (r : List (Nat × Nat)) => ((data.map fun l => (if i < 4 then 0 else 1, l)) ++ kept.map fun l => (5, l)).filter (fun x => !r.contains x) ++ r }
    let d := if d.change.bulkDone then { d with change := { d.change with marks := addLines (data ++ kept.map (2 ^ 30 + ·)) d.change.marks } } else d
    if !kept.isEmpty && by_.any (fun c => c.val == i) then { d with retain := d.retain.map fun r => { r with sealed := false } } else d

/-- What a performed write touches besides the bytes: reservations of other cores on the granule (R280), the voter's dirty map (R106), the
change tracker of a domain (R384) and the seal state of a pair's retain area (R58). `by_` is the writing core. -/
def noteWrite (by_ : Option CoreId) (code off len : Nat) (s : State) : State :=
  let g0 := off / 64
  let g1 := (off + len - 1) / 64
  let ls := (List.range (g1 + 1 - g0)).map (g0 + ·)
  let hit (r : Option Nat) : Option Nat := r.filter fun k => !(memKey code g0 ≤ k && k ≤ memKey code g1)
  let cores := s.cores.mapIdx fun i k =>
    if by_.any (fun c => c.val == i) then k else { k with arch := { k.arch with resv := hit k.arch.resv }, chk := k.chk.map fun a => { a with resv := hit a.resv } }
  let s : State := { s with cores := cores }
  let s : State :=
    if 1 ≤ code ∧ code ≤ 3 ∧ s.voter.reint.phase ≠ 0 then modReint (fun r => { r with dirty := addLines ls r.dirty }) s else s
  { s with doms := s.doms.mapIdx (domTouch by_ code ls) }

/-! ## Event log and interrupt sources -/

/-- Appends an event to the log (R332). -/
def addLog (k : LogKind) (a b : Nat) (s : State) : State := { s with log := s.log ++ [{ kind := k, a := a, b := b, cyc := s.cyc.count }] }

/-- Sets the IPEND bit of a source in one core (R296). -/
def raiseIrq (c : CoreId) (bit : Fin 7) (s : State) : State := modArch c (fun a => { a with ipend := setBit a.ipend bit.val true }) s

/-- Raises a source that serves all members of a group, with the common target count of R294. -/
def raiseGroup (g : Fin 2) (bit : Fin 7) (s : State) : State :=
  let ls := allLanes.filter fun l => s.voter.grp[g].members.getLsbD l.val || s.voter.grp[g].cand.getLsbD l.val
  let top := ((memberLanes g s).map fun l => s.cores[laneCore l g].arch.retired.toNat).foldl max 0
  ls.foldl (fun s l =>
    modCore (laneCore l g) (fun k => { k with intTarget := k.intTarget.filter (fun x => x.1 != bit) ++ [(bit, BitVec.ofNat 64 (top + 64))] })
      (raiseIrq (laneCore l g) bit s)) s

/-! ## Mode transitions -/

/-- The code of an operating state (R472). -/
def Oper.code : Oper → Nat
  | .stop => 0 | .run => 1 | .hold => 2 | .safe => 3 | .service => 4
/-- The code of a role (R472). -/
def Role.code : Role → Nat
  | .alone => 0 | .primary => 1 | .standby => 2 | .syncing => 3
/-- The code of a ring dimension (R472). -/
def RingDim.code : RingDim → Nat
  | .off => 0 | .nativeDual => 1 | .nativeSingle => 2 | .compatLoop => 3
/-- The code of an online-change state (R472). -/
def ChgDim.code : ChgDim → Nat
  | .none => 0 | .pending => 1 | .swapped => 2
/-- The code of a key position (R472). -/
def keyCode : KeyPos → Nat
  | .stop => 0 | .run => 1 | .service => 2
/-- A request source's code in MA_LAST (R486). -/
def srcCode : ReqSrc → Nat
  | .steward => 0 | .debugPort => 3 | .laneCore => 4

/-- Records a transition in MA_LAST and MA_TRANS (R486); a transition to the same state is none. -/
def transition (src inst dim frm to_ : Nat) (s : State) : State :=
  if frm = to_ then s
  else { s with arb := { s.arb with last := pack [(to_, 0), (frm, 8), (dim, 16), (inst, 24), (src, 28)], trans := inc s.arb.trans } }

/-- A group's mode as VOT_GSTAT and R472 code it: 0 OUT, 1 DUPLEX, 2 TRIPLEX. -/
def groupMode (g : Group) : Nat :=
  let n := popc 3 g.members.toNat
  if n ≤ 1 then 0 else if n = 2 then 1 else 2

/-- Sets the operating dimension. -/
def setOper (src : Nat) (o : Oper) (s : State) : State :=
  let s := transition src 0 0 s.arb.oper.code o.code s
  { s with arb := { s.arb with oper := o } }

/-- Sets a domain's run state (dimension 0x10 + d). -/
def setRun (src : Nat) (d : DomId) (r : Bool) (s : State) : State :=
  let s := transition src 0 (0x10 + d.val) (bitOf s.doms[d].run) (bitOf r) s
  modDom d (fun x => { x with run := r }) s

/-- Sets the role, and logs the change (R214). -/
def setRole (r : Role) (s : State) : State :=
  if s.hsb.role = r then s
  else addLog .roleChange s.hsb.role.code r.code { transition 2 0 2 s.hsb.role.code r.code s with hsb := { s.hsb with role := r } }

/-- Sets the ring dimension. -/
def setDim (src : Nat) (d : RingDim) (s : State) : State :=
  let s := transition src 0 3 s.ring.dim.code d.code s
  { s with ring := { s.ring with dim := d } }

/-- Sets a domain's online-change dimension. -/
def setChg (d : DomId) (c : ChgDim) (s : State) : State :=
  let s := transition 2 d.val 6 s.doms[d].change.dim.code c.code s
  modDom d (fun x => { x with change := { x.change with dim := c } }) s

/-- Sets a group's members; the mode follows. -/
def setMembers (src : Nat) (g : Fin 2) (m : BitVec 3) (s : State) : State :=
  let old := s.voter.grp[g]
  let new := { old with members := m, duplex := popc 3 m.toNat == 2 }
  modGroup g (fun _ => new) (transition src g.val 1 (groupMode old) (groupMode new) s)

/-- The debug fuse reads CLOSED (R489). -/
def dbgClosed (s : State) : Bool := s.fuses.dbgClose != 0
/-- The module is in SAFE. -/
def inSafe (s : State) : Bool := s.arb.oper == .safe
/-- CYC_CTL.CFGLOCK (R36, R477): 1 while the operating mode is neither STOP nor SERVICE, and until the last train has left. -/
def cfgLocked (s : State) : Bool := (s.arb.oper != .stop && s.arb.oper != .service) || s.arb.lastTrain
/-- The Output Guard sends no further safety coach and stops the permits (R457, R513). -/
def quiet (s : State) : Bool := s.power.tpf.isSome || s.boot.orderly.isSome
/-- No domain releases a new cycle (R418, R457, R513). -/
def noRelease (s : State) : Bool := quiet s || s.esc.rung2.isSome
/-- The start is service-only (R467 to R469). -/
def serviceOnly (s : State) : Bool := s.boot.svcOnly || s.boot.rec_.flags.getLsbD 5
/-- The module is one of a pair (R207). -/
def paired (s : State) : Bool := s.hsb.cfg.getLsbD 5
/-- HSB_CFG.LEN. -/
def leaseLen (s : State) : Nat := field s.hsb.cfg 0 5
/-- HSB_CFG.UNIT. -/
def unit (s : State) : Bool := s.hsb.cfg.getLsbD 6
/-- The module originates trains in its role (R160, R214). -/
def originates (s : State) : Bool := s.hsb.orig
/-- The module follows the trains of another (R195, R213). -/
def followsPrimary (s : State) : Bool := paired s && !s.hsb.orig
/-- A cycle's number as the pair's trains and messages count it (R163, R208; log entry 79). -/
def pairNo (k : Long) (s : State) : Long := if s.hsb.orig then k else k + s.sync.ofs
/-- Some domain's online-change dimension is not NONE. -/
def anyChange (s : State) : Bool := allDoms.any fun d => s.doms[d].change.dim != .none

/-- Records the bus's answer to an access. -/
def answer (r : Resp) (v : Word) (s : State) : State := { s with bus := { resp := r, val := v } }

/-- One unit of 2⁻³² s is 1,250,000,000 parts of the remainder accumulator, and a tick of 0.8 ns adds 2³² of them (R426). -/
def rtcParts : Nat := 1250000000

/-- What a rate of 0.01 ppm adds to the time base up in this many ticks (R30, R206). -/
def ratePart : Int := 100000000

/-- The time base after one tick, and the part of a correction tick gathered then (R29, R30): a correction adds or removes one tick, at most one in
every 20,000. -/
def tbNext (s : State) : Long × Int :=
  let a := s.cyc.rateAcc + s.rtm.rate.toInt
  if ratePart ≤ a then (s.cyc.tb + 2, a - ratePart) else if a ≤ -ratePart then (s.cyc.tb, a + ratePart) else (s.cyc.tb + 1, a)

/-- One tick of the time base (R29), with the rate correction, of the clock's fraction and of the wake interval (R426, R435). The fraction waits at its
highest value, with the rest kept in the accumulator, until the second tick that wraps it is taken (RTC_SECOND_TICK). -/
def tick (s : State) : State :=
  let z := tbNext s
  let n := (z.1 - s.cyc.tb).toNat
  let a := s.rtc.acc + n * 2 ^ 32
  let f := min (s.rtc.frac.toNat + a / rtcParts) (2 ^ 32 - 1)
  { s with cyc := { s.cyc with tb := z.1, rateAcc := z.2 }
           rtc := { s.rtc with frac := BitVec.ofNat 32 f, acc := a - (f - s.rtc.frac.toNat) * rtcParts
                               wakeAcc := if s.rtc.wake = 0 then s.rtc.wakeAcc else s.rtc.wakeAcc + 1024 * n } }

end Sys2Proof.Machine
end

