-- ==== Sys2Proof/Machine/Reply.lean ====
section
/-! DEFINITION. Replies of the mailboxes: datagrams, sessions' counters, and the one end of a command (R357 to R364, R370, R374). -/

namespace Sys2Proof.Machine

/-- Status codes (R370). -/
inductive Status where
  | ok | pending | malformed | unknownCode | busy | denied | badParam | incomplete | timeoutTooShort | refused | cfgLocked | noPath | protected_
  | timeout | link | medium | aborted | notPending | cancelledDisable | stationErr | incompatible | disabled
  deriving DecidableEq, Repr

/-- A status's number. -/
def Status.code : Status → BitVec 16
  | .ok => 0 | .pending => 1 | .malformed => 0x10 | .unknownCode => 0x11 | .busy => 0x12 | .denied => 0x13 | .badParam => 0x14
  | .incomplete => 0x15 | .timeoutTooShort => 0x16 | .refused => 0x17 | .cfgLocked => 0x18 | .noPath => 0x19 | .protected_ => 0x1A
  | .timeout => 0x20 | .link => 0x21 | .medium => 0x22 | .aborted => 0x23 | .notPending => 0x24 | .cancelledDisable => 0x25
  | .stationErr => 0x26 | .incompatible => 0x27 | .disabled => 0x28

/-- The counters of R378 in the order of their offsets. -/
inductive MbxCnt where
  | authfail | malformed | unknown | busy | cached | late | dropreply | foreign
  deriving DecidableEq, Repr

/-- A counter's place. -/
def MbxCnt.idx : MbxCnt → Fin 8
  | .authfail => 0 | .malformed => 1 | .unknown => 2 | .busy => 3 | .cached => 4 | .late => 5 | .dropreply => 6 | .foreign => 7

/-- Counts. -/
def countMbx (k : MbxCnt) (s : State) : State := { s with mbx := { s.mbx with cnt := s.mbx.cnt.set k.idx (inc s.mbx.cnt[k.idx]) } }

/-- The session or partner set that a command belongs to. -/
def sessOf (r : CmdRef) (s : State) : Session := if h : r.sess.val < 4 then s.mbx.sess[r.sess.val] else s.mbx.partner
/-- Updates it. -/
def modSess (i : Fin 5) (f : Session → Session) (s : State) : State :=
  if h : i.val < 4 then { s with mbx := { s.mbx with sess := s.mbx.sess.set i.val (f s.mbx.sess[i.val]) } }
  else { s with mbx := { s.mbx with partner := f s.mbx.partner } }

/-- The slot of a command in flight. -/
def slotOf (r : CmdRef) (s : State) : Option Slot := (sessOf r s).slots.find? fun x => x.tag == r.tag
/-- Updates the slot of a command in flight. -/
def modSlot (r : CmdRef) (f : Slot → Slot) (s : State) : State :=
  modSess r.sess (fun x => { x with slots := x.slots.map fun y => if y.tag == r.tag then f y else y }) s

/-- The bytes of a received command's data, in order of their offsets. -/
def slotData (x : Slot) : List Byte :=
  (List.range x.length).map fun i => ((x.got.find? fun b => b.1 ≤ i && i < b.1 + b.2.length).map fun b => b.2.getD (i - b.1) 0).getD 0

/-- The largest power of two not above `n`. -/
def pow2Below (n : Nat) : Nat := if n = 0 then 0 else 2 ^ n.log2

/-- The freight area of the loaded layout, in bytes (R180). -/
def fsizeBytes (s : State) : Nat := (s.ring.layout.map fun l => 8 * l.fsize).getD 0

/-- The block size BS of a transport (R354). -/
def blockSize (car : Carrier) (s : State) : Nat := match car with
  | .freight => pow2Below (fsizeBytes s - 72)
  | _ => 4096

/-- A reply header (R362). -/
def replyHeader (r : Reply) (final : Bool) : List Byte :=
  leBytes 2 ((r.code ||| 0x8000).toNat) ++ leBytes 2 r.tag.toNat ++ leBytes 4 r.data.length ++ leBytes 2 r.status.toNat ++ leBytes 2 r.detail.toNat ++
    leBytes 2 (bitOf final) ++ leBytes 2 0

/-- A datagram before its MAC (R360). -/
def datagramBody (session : Nat) (sseq : Word) (header : List Byte) (offset : Nat) (blk : List Byte) : List Byte :=
  leBytes 2 0x4D53 ++ leBytes 1 1 ++ leBytes 1 session ++ leBytes 4 sseq.toNat ++ header ++ leBytes 4 offset ++ leBytes 2 blk.length ++ leBytes 2 0 ++ blk

/-- An address as it stands in a frame. -/
def macBytes (a : BitVec 48) : List Byte := beBytes 6 a.toNat

/-- An IEEE 802.3 frame without a VLAN tag: addresses, EtherType, payload with its padding, FCS (R155, R208). -/
def ethFrame (dst src : BitVec 48) (etype : BitVec 16) (payload : List Byte) : List Byte :=
  let p := macBytes dst ++ macBytes src ++ beBytes 2 etype.toNat ++ payload ++ List.replicate (46 - payload.length) 0
  p ++ leBytes 4 (fcsOf p).toNat

/-- The address of every receiver. -/
def toAll : BitVec 48 := 0xFFFFFFFFFFFF

/-- A sync message before its CRC (R208). -/
def syncBytes (ver type role : Byte) (mseq : Word) (cyc : Long) (epoch : Word) (body : List Byte) : List Byte :=
  [ver, type, role, 0] ++ leBytes 4 mseq.toNat ++ leBytes 8 cyc.toNat ++ leBytes 4 epoch.toNat ++ leBytes 2 body.length ++ leBytes 2 0 ++ body

/-- Appends a sync message (R208). -/
def sendSync (type : Byte) (cyc : Long) (body : List Byte) (s : State) : State :=
  let role : Byte := BitVec.ofNat 8 (bitOf (unit s) + 2 * s.hsb.role.code)
  let p := syncBytes 1 type role (s.sync.mseq + 1) cyc s.hsb.epoch body
  let m : SyncMsg := { type := type, role := role, mseq := s.sync.mseq + 1, cyc := cyc, epoch := s.hsb.epoch, body := body
                       frame := ethFrame toAll (s.fuses.mac + 5) (s.hsb.cfg.extractLsb' 16 16) (p ++ leBytes 4 (crc32c p).toNat) }
  { s with sync := { s.sync with mseq := s.sync.mseq + 1, out := s.sync.out ++ [m] } }

/-- Sends one datagram of session `i` (R357, R359, R360): on the sync link without a MAC. -/
def sendDatagram (i : Fin 5) (car : Carrier) (header : List Byte) (off : Nat) (blk : List Byte) (s : State) : State :=
  match car with
  | .foreign => s
  | .sync => sendSync 0x0B s.cyc.count (datagramBody 0 0 header off blk) s
  | _ =>
    let x := sessOf { sess := i, tag := 0 } s
    let q := x.txSeq + 1
    let body := datagramBody i.val q header off blk
    let s := modSess i (fun y => { y with txSeq := q }) s
    { s with mbx := { s.mbx with out := s.mbx.out ++ [.datagram car (body ++ (hmac x.ks body).take 16)] } }

/-- The blocks of `data`, with their offsets. -/
def blocksOf (bs : Nat) (data : List Byte) : List (Nat × List Byte) :=
  if data.isEmpty || bs = 0 then [(0, data)] else (enum (groups bs (data.length / bs + 1) data)).map fun x => (x.1 * bs, x.2)

/-- Sends a reply in blocks (R362, R363). -/
def sendReply (i : Fin 5) (car : Carrier) (r : Reply) (final : Bool) (s : State) : State :=
  (blocksOf (blockSize car s) r.data).foldl (fun s b => sendDatagram i car (replyHeader r final) b.1 b.2 s) s

/-- A command's one end (R364, R374), with a status code: the reply is sent and cached and the slot freed. An end for a command that has ended is
dropped and counted in MBX_LATE; the reply of a command whose session has closed is dropped and counted in MBX_DROPREPLY. -/
def finishCode (r : CmdRef) (st : BitVec 16) (detail : Nat) (data : List Byte) (s : State) : State :=
  match slotOf r s with
  | none => countMbx .late s
  | some x =>
    let rep : Reply := { tag := r.tag, code := x.code, status := st, detail := BitVec.ofNat 16 detail, data := data }
    let dead := x.car == .foreign
    let s := modSess r.sess (fun y => { y with slots := y.slots.filter fun z => z.tag != r.tag, cache := if dead then y.cache else (rep :: y.cache).take 64 }) s
    if dead then countMbx .dropreply s else sendReply r.sess x.car rep true s

/-- A command's end with a named status. -/
def finish (r : CmdRef) (st : Status) (detail : Nat) (data : List Byte) (s : State) : State := finishCode r st.code detail data s

/-- A command refused by the Mode Arbiter or a block (R370): the name as text, and the block's number for it. -/
def finishRefused (r : CmdRef) (detail : Nat) (name : String) (s : State) : State := finish r .refused detail (Config.textOf name) s

/-- Ends an optional command. -/
def finishOpt (r : Option CmdRef) (st : Status) (s : State) : State := match r with | none => s | some c => finish c st 0 [] s
/-- Ends an optional command with a refusal. -/
def finishRefusedOpt (r : Option CmdRef) (name : String) (s : State) : State := match r with | none => s | some c => finishRefused c 0 name s

/-- The commands in flight that wait for `w`. -/
def waiting (w : Wait) (s : State) : List CmdRef :=
  ([0, 1, 2, 3, 4] : List (Fin 5)).flatMap fun i =>
    ((sessOf { sess := i, tag := 0 } s).slots.filter fun x => x.wait == w).map fun x => { sess := i, tag := x.tag }

end Sys2Proof.Machine
end

