-- ==== Sys2Proof/Machine/Pages.lean ====
section
/-! DEFINITION. The parameter store below its registers: pages, queued writes, two-copy records, the safety event ring (R439 to R448). -/

namespace Sys2Proof.Machine

/-- The bytes of a logical page; one never written reads 0 (R439). -/
def page (n : Nat) (s : State) : List Byte := ((s.ps.pages.find? fun p => p.1 == n).map Prod.snd).getD (List.replicate 256 0)

/-- Sets a page. -/
def setPage (n : Nat) (d : List Byte) (s : State) : State :=
  { s with ps := { s.ps with pages := (n, d) :: s.ps.pages.filter fun p => p.1 != n } }

/-- Merges `data` into a page at `off`, cut at byte 255 (R441). -/
def mergePage (old : List Byte) (off : Nat) (data : List Byte) : List Byte :=
  (old.take off ++ data.take (256 - off) ++ old.drop (off + data.length)).take 256

/-- The number of the bytes `off` to `off + n − 1` of a list. -/
def sliceNat (off n : Nat) (bs : List Byte) : Nat := leNat ((bs.drop off).take n)

/-- A copy of the record `rec_` is valid (R447). -/
def copyValid (rec_ : Nat) (p : List Byte) : Bool :=
  sliceNat 0 2 p == rec_ && sliceNat 2 2 p ≤ 244 && sliceNat 252 4 p == (crc32c (p.take 252)).toNat

/-- A copy is blank (R447). -/
def copyBlank (p : List Byte) : Bool := p.all (· == 0)

/-- What reading a two-copy record finds: never written, invalid, or its SEQ and payload (R447). -/
inductive RecRead where
  | blank | invalid | valid (seq : Nat) (payload : List Byte)
  deriving DecidableEq, Repr

/-- The payload of a copy. -/
def copyPayload (p : List Byte) : List Byte := (p.drop 8).take (sliceNat 2 2 p)

/-- Reads the two-copy record `rec_` in pages `pg` and `pg + 1` (R447). -/
def readRecord (rec_ pg : Nat) (s : State) : RecRead :=
  let a := page pg s
  let b := page (pg + 1) s
  match copyValid rec_ a, copyValid rec_ b with
  | true, true => if sliceNat 4 4 b > sliceNat 4 4 a then .valid (sliceNat 4 4 b) (copyPayload b) else .valid (sliceNat 4 4 a) (copyPayload a)
  | true, false => .valid (sliceNat 4 4 a) (copyPayload a)
  | false, true => .valid (sliceNat 4 4 b) (copyPayload b)
  | false, false => if copyBlank a && copyBlank b then .blank else .invalid

/-- A copy's 256 bytes (R447). -/
def recordCopy (rec_ seq : Nat) (payload : List Byte) : List Byte :=
  let body := leBytes 2 rec_ ++ leBytes 2 payload.length ++ leBytes 4 seq ++ payload ++ List.replicate (244 - payload.length) 0
  body ++ leBytes 4 (crc32c body).toNat

/-- The SEQ of the valid copies, the higher one, or 0. -/
def recordSeq (rec_ pg : Nat) (s : State) : Nat := match readRecord rec_ pg s with | .valid q _ => q | _ => 0

/-- Which record a write belongs to: its REC and first page. -/
def PsFor.rec_ : PsFor → Option (Nat × Nat × Bool)
  | .boot b => some (1, 0, b) | .esc b => some (2, 2, b) | .epoch b _ => some (3, 4, b) | .hours b => some (4, 6, b)
  | .reg => none | .cmd _ => none | .event => none

/-- Entry `i` of the safety event ring (R440). -/
def ringEntry (i : Nat) (s : State) : List Byte := ((page (8 + i / 16) s).drop (16 * (i % 16))).take 16

/-- The ESEQ of an entry. -/
def eseq (e : List Byte) : Nat := sliceNat 14 2 e
/-- The ESEQ that follows (R440). -/
def nextEseq (n : Nat) : Nat := if n ≥ 65535 then 1 else n + 1

/-- Where the next entry goes and the ESEQ it carries (R440). -/
def ringNext (s : State) : Nat × Nat :=
  match (List.range 896).find? fun i =>
      let e := ringEntry i s
      let f := ringEntry ((i + 1) % 896) s
      !copyBlank e && (copyBlank f || eseq f != nextEseq (eseq e)) with
  | none => (0, 1)
  | some i => ((i + 1) % 896, nextEseq (eseq (ringEntry i s)))

/-- The write as it is programmed: a record's copy gets its SEQ and CRC, a ring entry its position and ESEQ (R440, R447). Copy 1 takes the next
SEQ, copy 2 that of copy 1. -/
def prepareWrite (r : PsReq) (s : State) : PsReq :=
  match r.use.rec_ with
  | some (rec_, pg, second) =>
    let q := recordSeq rec_ pg s
    { r with page := BitVec.ofNat 12 (pg + bitOf second), off := 0, data := recordCopy rec_ (if second then q else q + 1) r.data }
  | none => match r.use with
    | .event =>
      let n := ringNext s
      { r with page := BitVec.ofNat 12 (8 + n.1 / 16), off := 16 * (n.1 % 16), data := r.data ++ leBytes 2 n.2 }
    | _ => r

/-- Begins the next write: the lease logic's first, then the supervision writer's, then the Steward's; none after t_pf + 12 ms (R446) or 12 ms into an orderly reset (R457). -/
def psNext (s : State) : State :=
  if s.ps.cur.isSome || s.ps.cutoff || s.ps.scan || s.boot.orderly.any (fun o => 12 * tickMs < since o.at_ s) then s
  else match s.ps.qLease, s.ps.qSup, s.ps.qStew with
    | r :: q, _, _ => { s with ps := { s.ps with qLease := q, cur := some (prepareWrite r s) } }
    | [], r :: q, _ => { s with ps := { s.ps with qSup := q, cur := some (prepareWrite r s) } }
    | [], [], r :: q => { s with ps := { s.ps with qStew := q, cur := some (prepareWrite r s) } }
    | [], [], [] => s

/-- Queues a write of the lease logic, the supervision writer or the Steward (R446). -/
def psQueue (r : PsReq) (s : State) : State :=
  psNext (match r.use with
    | .epoch _ _ => { s with ps := { s.ps with qLease := s.ps.qLease ++ [r] } }
    | .esc _ => { s with ps := { s.ps with qSup := s.ps.qSup ++ [r] } }
    | .event => { s with ps := { s.ps with qSup := s.ps.qSup ++ [r] } }
    | .reg => { s with ps := { s.ps with qStew := s.ps.qStew ++ [r] } }
    | .cmd _ => { s with ps := { s.ps with qStew := s.ps.qStew ++ [r] } }
    | .boot _ => { s with ps := { s.ps with qStew := s.ps.qStew ++ [r] } }
    | .hours _ => { s with ps := { s.ps with qStew := s.ps.qStew ++ [r] } })

/-- Queues both copies of a record with the given payload (R447); an update that would give SEQ 0 is not performed and sets PS_ERR.MEDIUM. -/
def psRecord (use : Bool → PsFor) (payload : List Byte) (s : State) : State :=
  let full : Bool := match (use false).rec_ with | some (rec_, pg, _) => decide (recordSeq rec_ pg s ≥ 2 ^ 32 - 1) | none => false
  if full then { s with ps := { s.ps with err := setBit s.ps.err 5 true } }
  else psQueue { use := use true, page := 0, off := 0, data := payload, retried := false }
    (psQueue { use := use false, page := 0, off := 0, data := payload, retried := false } s)

/-- Ring-time seconds of an entry of the safety event ring (R440). -/
def ringSeconds (s : State) : Nat := (ringTime s).toNat / tickS % 2 ^ 32

/-- Appends an entry to the safety event ring: kind 1 SAFE or 2 LANE_DEBUG, and its cause code (R440). -/
def ringEvent (kind cause : Nat) (s : State) : State :=
  psQueue { use := .event, page := 0, off := 0, retried := false
            data := leBytes 8 s.cyc.count.toNat ++ leBytes 4 (ringSeconds s) ++ leBytes 1 kind ++ leBytes 1 cause } s

end Sys2Proof.Machine
end

