-- ==== Sys2Proof/Machine/Solver.lean ====
section
/-! DEFINITION. The Logic Solver's operations: who reaches which queue, network images, descriptors, the bit file, evaluation and the timing
of a run (R65 to R86). Instances 0 to 2 are LSA, LSB and LSC, 3 and 4 are LSS0 and LSS1; a lane instance has one queue per core, the
others use queue 0. -/

namespace Sys2Proof.Machine

/-- The lane of a lane instance. -/
def lsLane (i : Fin 5) : Option (Fin 3) := if h : i.val < 3 then some ⟨i.val, h⟩ else none
/-- The power domain of an instance. -/
def lsPd (i : Fin 5) : Pd := match lsLane i with | some l => lanePd l | none => .solv
/-- The memory code an instance works on. -/
def lsMem (i : Fin 5) : Nat := match lsLane i with | some l => laneMem l | none => 0
/-- The queue a core has in an instance (R65, R87): none without a path. -/
def lsQueueOf (c : CoreId) (i : Fin 5) (s : State) : Option (Fin 2) :=
  match lsLane i, laneOf c, pairOf c with
  | some l, some (m, k), _ => if l = m then some k else none
  | none, _, some n => if s.solvers[i].claim == some n then some 0 else none
  | _, _, _ => none
/-- The core a queue belongs to. -/
def lsCore (i : Fin 5) (k : Fin 2) (s : State) : Option CoreId := match lsLane i with
  | some l => some (laneCore l k)
  | none => s.solvers[i].claim.map pairCore
/-- The offset in its memory of an address as the owner of a queue sees it (R305). -/
def lsOff (i : Fin 5) (a : Nat) : Nat := match lsLane i with | some _ => a % 2 ^ 24 | none => a

/-- A number rounded up to a multiple of 64. -/
def up64 (n : Nat) : Nat := (n + 63) / 64 * 64

/-- A descriptor (R71). -/
structure Desc where
  boff : Nat
  addr : Nat
  len : Nat
  reserved : Nat
  deriving DecidableEq, Repr

/-- Reads descriptor `n` of the image whose header is `h`. -/
def descAt (code : Nat) (h : NetHdr) (n : Nat) (s : State) : Desc :=
  let v := readNat code (h.addr + 64 + 16 * h.entries + 8 * n) 8 s
  { boff := v / 2 ^ 32 % 2 ^ 15, addr := v % 2 ^ 25, len := v / 2 ^ 48 % 2 ^ 12 + 1, reserved := v / 2 ^ 60 + v / 2 ^ 47 % 2 + v / 2 ^ 25 % 2 ^ 7 }

/-- An entry (R70). -/
structure NetEntry where
  first : Nat
  count : Nat
  inFirst : Nat
  inCount : Nat
  outFirst : Nat
  outCount : Nat
  deriving DecidableEq, Repr

/-- Reads entry `e`. -/
def entryAt (code : Nat) (h : NetHdr) (e : Nat) (s : State) : NetEntry :=
  let a := h.addr + 64 + 16 * e
  { first := readNat code a 4 s, count := readNat code (a + 4) 4 s, inFirst := readNat code (a + 8) 2 s, inCount := readNat code (a + 10) 2 s
    outFirst := readNat code (a + 12) 2 s, outCount := readNat code (a + 14) 2 s }

/-- The gather and the scatter descriptors of an entry. -/
def gatherDescs (code : Nat) (h : NetHdr) (e : NetEntry) (s : State) : List Desc :=
  (List.range e.inCount).map fun n => descAt code h (e.inFirst + n) s
/-- The scatter descriptors of an entry. -/
def scatterDescs (code : Nat) (h : NetHdr) (e : NetEntry) (s : State) : List Desc :=
  (List.range e.outCount).map fun n => descAt code h (e.outFirst + n) s

/-- t_d of R76, in clocks. -/
def descClocks (d : Desc) : Nat := 2 + (d.addr % 32 + d.len + 31) / 32
/-- The clocks of a list of descriptors. -/
def descsClocks (ds : List Desc) : Nat := (ds.map descClocks).sum
/-- t_run of R76. -/
def runClocks (code : Nat) (h : NetHdr) (e : NetEntry) (s : State) : Nat :=
  descsClocks (gatherDescs code h e s) + e.count / 4 + descsClocks (scatterDescs code h e s)

/-- Where the nodes begin (R69). -/
def nodesAt (h : NetHdr) : Nat := up64 (h.addr + 64 + 16 * h.entries + 8 * h.descs)
/-- The length of an image in bytes. -/
def netLen (h : NetHdr) : Nat := nodesAt h - h.addr + 8 * h.nodes

/-- Reads the header at `a` (R69). -/
def readHdr (code a : Nat) (s : State) : NetHdr :=
  { addr := a, nodes := readNat code (a + 16) 4 s, bits := readNat code (a + 20) 4 s, descs := readNat code (a + 24) 2 s
    entries := readNat code (a + 26) 1 s, maxRun := readNat code (a + 28) 4 s, block := readNat code (a + 32) 4 s
    banks := BitVec.ofNat 32 (readNat code (a + 36) 4 s) }

/-! ## The bit file -/

/-- The first bit-file bit of a queue's partition (R74). -/
def partBase (i : Fin 5) (k : Fin 2) (bits : Nat) : Nat := if (lsLane i).isSome && k == 1 then 262144 - bits else 0

/-- Sets or clears a bit in the ascending list of 1 bits. -/
def bitPut (v : Bool) (a : Nat) : List Nat → List Nat
  | [] => if v then [a] else []
  | b :: bs => if a < b then (if v then a :: b :: bs else b :: bs) else if a = b then (if v then b :: bs else bs) else b :: bitPut v a bs

/-- Reads partition address `a`; address 0 reads 0 (R73). -/
def partBit (base : Nat) (bits : List Nat) (a : Nat) : Bool := a != 0 && bits.contains (base + a)
/-- Writes partition address `a`; a write to address 0 is discarded. -/
def partPut (base a : Nat) (v : Bool) (bits : List Nat) : List Nat := if a = 0 then bits else bitPut v (base + a) bits

/-- The byte at partition byte `o`. -/
def partByte (base : Nat) (bits : List Nat) (o : Nat) : Byte :=
  BitVec.ofNat 8 (((List.range 8).map fun j => bitOf (partBit base bits (8 * o + j)) * 2 ^ j).sum)
/-- Writes the byte at partition byte `o`. -/
def partSetByte (base o : Nat) (v : Byte) (bits : List Nat) : List Nat :=
  (List.range 8).foldl (fun bs j => partPut base (8 * o + j) (v.getLsbD j) bs) bits

/-- Clears a partition (R77). -/
def partClear (base n : Nat) (bits : List Nat) : List Nat := bits.filter fun b => b < base || base + n ≤ b

/-! ## Evaluation -/

/-- A node (R72). -/
structure Node where
  op : Nat
  ia : Bool
  ib : Bool
  ir : Bool
  a : Nat
  b : Nat
  d : Nat
  deriving DecidableEq, Repr

/-- Reads node slot `n`. -/
def nodeAt (code : Nat) (h : NetHdr) (n : Nat) (s : State) : Node :=
  let v := readNat code (nodesAt h + 8 * n) 8 s
  { op := v / 2 ^ 58, ia := v.testBit 57, ib := v.testBit 56, ir := v.testBit 55, a := v / 2 ^ 36 % 2 ^ 18, b := v / 2 ^ 18 % 2 ^ 18, d := v % 2 ^ 18 }

/-- The fault a node ends the run with: 1 BADOP, 2 ADDR over the fields its type uses (R86). -/
def nodeFault (bits : Nat) (n : Node) : Option Nat :=
  if n.op ≥ 10 then some 1
  else if n.op = 0 then none
  else if n.a ≥ bits || n.d ≥ bits then some 2
  else if n.op = 4 || n.op = 5 || n.op = 6 then none
  else if n.b ≥ bits then some 2 else none

/-- The writes of a node in order (R73, R75): address and value. -/
def nodeWrites (base : Nat) (f : List Nat) (n : Node) : List (Nat × Bool) :=
  let a := partBit base f n.a != n.ia
  let b := partBit base f n.b != n.ib
  let d := partBit base f n.d
  match n.op with
  | 0x01 => [(n.d, (a && b) != n.ir)]
  | 0x02 => [(n.d, (a || b) != n.ir)]
  | 0x03 => [(n.d, (a != b) != n.ir)]
  | 0x04 => [(n.d, a != n.ir)]
  | 0x05 => [(n.d, d || a)]
  | 0x06 => [(n.d, d && !a)]
  | 0x07 => [(n.d, a || (d && !b))]
  | 0x08 => [(n.d, !b && (a || d))]
  | 0x09 => [(n.b, a), (n.d, a && !partBit base f n.b)]
  | _ => []

/-- Evaluates one bundle: all reads see the bit file before it, the higher slot's write wins (R75). -/
def evalBundle (base : Nat) (ns : List Node) (f : List Nat) : List Nat :=
  (ns.flatMap (nodeWrites base f)).foldl (fun g w => partPut base w.1 w.2 g) f

/-- Evaluates `m` bundles from slot `n`; a bundle with a faulting node ends the run with no further writes (R86). -/
def evalBundles (code : Nat) (h : NetHdr) (base : Nat) (s : State) : Nat → Nat → List Nat → List Nat × Option Nat
  | _, 0, f => (f, none)
  | n, m + 1, f =>
    let ns := [0, 1, 2, 3].map fun j => nodeAt code h (n + j) s
    match ns.findSome? (nodeFault h.bits) with
    | some e => (f, some e)
    | none => evalBundles code h base s (n + 4) m (evalBundle base ns f)

/-! ## Gather and scatter -/

/-- Where a queue's process image is based (R309), as an offset in its memory. -/
def lsPimg (i : Fin 5) (k : Fin 2) (s : State) : Nat := match lsCore i k s with | some c => lsOff i s.cores[c].prot.pimg.toNat | none => 0

/-- Whether the bytes of a descriptor lie where the instance may go (R22, R67, R86): a lane's solver its own lane SRAM, LSS0 and LSS1 the
process image of the claiming pair and the network image after its %M. -/
def descAllowed (i : Fin 5) (k : Fin 2) (h : NetHdr) (d : Desc) (s : State) : Bool :=
  let a := lsPimg i k s + d.addr
  match lsLane i with
  | some _ => a + d.len ≤ 2 ^ 24
  | none => match s.solvers[i].claim with
    | none => false
    | some n => match s.doms[pairDom n].image with
      | none => false
      | some im =>
        let r := im.areas
        (List.range d.len).all fun j => let x := a + j
          (r.iBase ≤ x && x < r.iBase + r.iLen) || (r.qBase ≤ x && x < r.qBase + r.qLen) || (r.mBase ≤ x && x < r.mBase + r.mLen) ||
            (h.addr ≤ x && x < h.addr + netLen h)

/-- The bytes that a gather moves, in order: memory offset and partition byte. -/
def moves (i : Fin 5) (k : Fin 2) (ds : List Desc) (s : State) : List (Nat × Nat) :=
  ds.flatMap fun d => (List.range d.len).map fun j => (lsPimg i k s + d.addr + j, d.boff + j)

/-- A run that begins now: gather reads the process image as it stands (R82). -/
def beginRun (i : Fin 5) (k : Fin 2) (h : NetHdr) (e : Nat) (s : State) : LsRun :=
  let ds := gatherDescs (lsMem i) h (entryAt (lsMem i) h e s) s
  { entry := e, start := s.cyc.tb + 1, snap := (moves i k ds s).map fun m => (m.1, readByte (lsMem i) m.1 s) }

/-- The other queue. -/
def otherQ (k : Fin 2) : Fin 2 := if k = 0 then 1 else 0

/-- The run that waits behind a run that has just ended begins (R79). -/
def startQueued (i : Fin 5) (k : Fin 2) (s : State) : State :=
  match s.solvers[i].q[k].queued, s.solvers[i].q[k].img with
  | some e, some h => modQueue i k (fun q => { q with queued := none, run := some (beginRun i k h e s), entry := e }) s
  | some _, none => modQueue i k (fun q => { q with queued := none }) s
  | none, _ => s

/-- A task that waits in LS_RUN for a run of this queue goes on (R87), now or when its core comes back to it. -/
def lsRelease (i : Fin 5) (k : Fin 2) (s : State) : State := match lsCore i k s with
  | none => s
  | some c =>
    let free (w : Option (Fin 5)) : Option (Fin 5) := if w = some i then none else w
    modCore c (fun x => { x with lsWait := free x.lsWait, saved := x.saved.map fun t => { t with lsWait := free t.lsWait } }) s

/-- After a run of a queue has ended: the task that waits goes on, an UNLOAD that waited takes effect (R85), and the other queue's run begins. -/
def lsEnded (i : Fin 5) (k : Fin 2) (s : State) : State :=
  let s := modQueue i k (fun q => if q.unloadDue && q.run.isNone && q.queued.isNone then { q with img := none, unloadDue := false } else q) s
  startQueued i (otherQ k) (lsRelease i k s)

/-- The bit file of a run that ABORT ends after `t` clocks: the descriptor in progress is completed, and the bundles so far are evaluated
(R76, R84). -/
def abortBits (i : Fin 5) (k : Fin 2) (h : NetHdr) (r : LsRun) (t : Nat) (s : State) : List Nat :=
  let code := lsMem i
  let base := partBase i k h.bits
  let e := entryAt code h r.entry s
  let gs := gatherDescs code h e s
  let z := gs.foldl (fun (acc : Nat × List (Nat × Byte) × List Nat) d =>
    if acc.1 < t then
      (acc.1 + descClocks d, acc.2.1.drop d.len,
        (acc.2.1.take d.len).zipIdx.foldl (fun f x => partSetByte base (d.boff + x.2) x.1.2 f) acc.2.2)
    else acc) (0, r.snap, s.solvers[i].bits)
  (evalBundles code h base s e.first (min (t - descsClocks gs) (e.count / 4)) z.2.2).1

/-- ABORT of a queue (R84): a run in gather or evaluation, or one that waits, ends with ABORTED; in scatter, or with no run pending,
ABORT_LATE is set. -/
def lsAbortQueue (i : Fin 5) (k : Fin 2) (s : State) : State :=
  let q := s.solvers[i].q[k]
  let late := fun s => modQueue i k (fun q => { q with err := setBit q.err 3 true }) s
  match q.run, q.queued, q.img with
  | some r, _, some h =>
    let e := entryAt (lsMem i) h r.entry s
    if since r.start s < descsClocks (gatherDescs (lsMem i) h e s) + e.count / 4 || s.cyc.tb.toNat < r.start.toNat then
      let bits := if s.cyc.tb.toNat < r.start.toNat then s.solvers[i].bits else abortBits i k h r (since r.start s) s
      lsEnded i k (modQueue i k (fun q => { q with run := none, aborted := true, fault := false, done := false }) (modSolver i (fun v => { v with bits := bits }) s))
    else late s
  | some _, _, none => late s
  | none, some _, _ =>
    lsRelease i k (modQueue i k (fun q => { q with queued := none, aborted := true, fault := false, done := false, unloadDue := false, img := if q.unloadDue then Option.none else q.img }) s)
  | none, none, _ => late s

/-- A write to a byte that a run is gathering: the run keeps an unspecified choice of the old and the new value (R82). -/
def gatherTouch (code off : Nat) (bs : List Byte) (s : State) : State :=
  ([0, 1, 2, 3, 4] : List (Fin 5)).foldl (fun s i => ([0, 1] : List (Fin 2)).foldl (fun s k =>
    match s.solvers[i].q[k].run, s.solvers[i].q[k].img with
    | some r, some h =>
      let e := entryAt (lsMem i) h r.entry s
      if lsMem i = code && (s.cyc.tb.toNat < r.start.toNat || since r.start s < descsClocks (gatherDescs (lsMem i) h e s)) then
        let z := r.snap.foldl (fun (acc : List (Nat × Byte) × State) x =>
          if off ≤ x.1 && x.1 < off + bs.length then
            let f := nextFree acc.2
            (acc.1 ++ [(x.1, if Config.freeBool f.1 then bs.getD (x.1 - off) 0 else x.2)], f.2)
          else (acc.1 ++ [x], acc.2)) ([], s)
        modQueue i k (fun q => { q with run := some { r with snap := z.1 } }) z.2
      else s
    | _, _ => s) s) s

/-- Writes bytes and notes the write. -/
def store (by_ : Option CoreId) (code off : Nat) (bs : List Byte) (s : State) : State :=
  if bs.isEmpty then s else gatherTouch code off bs (noteWrite by_ code off bs.length (writeBytes code off bs s))

end Sys2Proof.Machine
end

