-- ==== Sys2Proof/Machine/Effects.lean ====
section
/-! DEFINITION. The effects that several families share: the end of an online change or a reintegration, the stop of a pair, entry to SAFE,
the exclusion of a lane, the escalation ladder, seals. -/

namespace Sys2Proof.Machine

/-! ## Fail values and executions -/

/-- The fail value of each byte of a domain's output image (R54, R90): predefined, or hold; NSCH of a field group's block is 0 (R348). -/
def failImage (d : DomId) (s : State) : List Byte := match s.doms[d].image with
  | none => []
  | some im => (List.range im.areas.qLen).map fun i => if im.fgOut.any fun x => x.2 + 1 == i then 0 else match im.fail.getD i (some 0) with
    | some b => b
    | none => s.doms[d].published.getD i 0

/-- Abandons every execution of a domain. -/
def abandonTasks (d : DomId) (s : State) : State := modDom d (fun x => { x with tasks := x.tasks.map fun t => { t with open_ := 0 } }) s

/-- The instances and queues that a domain's cores use. -/
def domQueues (d : DomId) (s : State) : List (Fin 5 × Fin 2) := match domPair d with
  | some n => ([3, 4] : List (Fin 5)).filterMap fun i => if s.solvers[i].claim == some n then some (i, 0) else none
  | none => allLanes.map fun l => (Fin.ofNat 5 l.val, Fin.ofNat 2 (d.val - 4))

/-- The runtime issues ABORT to a domain's claimed solvers (R88). -/
def abortSolvers (d : DomId) (s : State) : State := (domQueues d s).foldl (fun s x => lsAbortQueue x.1 x.2 s) s

/-- The cores a domain runs on: a pair's one, or a group's three. -/
def domCores (d : DomId) : List CoreId := match domPair d with
  | some n => [pairCore n]
  | none => allLanes.map fun l => laneCore l (Fin.ofNat 2 (d.val - 4))

/-- A core stops retiring instructions. -/
def stopCore (c : CoreId) (s : State) : State := modCore c (fun k => { k with stopped := true, hold := .none, task := none }) s

/-- A lane's executions in a group end unfinished: its core stops, and its part in the tasks' records is over (R101, R108). -/
def dropLane (l : Fin 3) (g : Fin 2) (s : State) : State :=
  modDom (groupDom g) (fun x => { x with tasks := x.tasks.map fun t => { t with open_ := setBit t.open_ l.val false } }) (stopCore (laneCore l g) s)

/-! ## The sync link -/

/-- When a fault of R219 falls: twice the cycle number, plus 1 from IR on, so that IR_k closes the range of a check. -/
def faultMark (s : State) : Long := BitVec.ofNat 64 (2 * (pairNo s.cyc.count s).toNat + bitOf s.cyc.ir.isSome)

/-- A fault that R219 counts for a domain. -/
def hsbFault (d : DomId) (s : State) : State := { s with sync := { s.sync with faults := s.sync.faults ++ [(faultMark s, d)] } }

/-- Sends RELINQUISH with train number `m` and binds the primary to it (R225); an earlier one goes on binding where it names an earlier train. -/
def sendRelinquish (m : Long) (s : State) : State :=
  let s := sendSync 0x07 s.cyc.count (leBytes 8 m.toNat) s
  let last := match s.sync.relqSent with | some n => if n.toNat < m.toNat then n else m | none => m
  { s with sync := { s.sync with relqSent := some last, prepared := false } }

/-! ## Online changes and reintegrations -/

/-- An online change ends because its domain leaves RUN, a lane is excluded in PENDING or the module enters SAFE (R392): PENDING is
abandoned; SWAPPED_UNCONFIRMED leaves the last confirmed program for a cold start. -/
def changeStop (name : String) (d : DomId) (s : State) : State :=
  let c := s.doms[d].change
  match c.dim with
  | .none => s
  | .pending =>
    setChg d .none (finishRefusedOpt c.cmd name (modDom d (fun x => { x with change := { Change.reset with confirmed := x.change.confirmed } }) s))
  | .swapped =>
    setChg d .none (finishRefusedOpt c.cmd "NOT_UNCONFIRMED"
      (modDom d (fun x => { x with change := { Change.reset with dim := .swapped, confirmed := x.change.confirmed } }) s))

/-- The domain leaves RUN (R392). -/
def changeLeave (d : DomId) (s : State) : State := changeStop "CHANGE_STOPPED" d s

/-- The running reintegration ends with a result (R108, R109): in the groups that the lane has not joined its core is halted and out. Before the
power-down of phase 1 the lane is still a member of its groups and stays one (DEDUCED; log entry 74). An attempt that ends while the domain is off
completes the switch-on. VOT_REINT.LANE reads 0 once the attempt has ended (DESIGN CHOICE; log entry 69). -/
def reintEnd (result : Byte) (s : State) : State :=
  let r := s.voter.reint
  if r.phase = 0 then s
  else
    let l : Fin 3 := Fin.ofNat 3 (r.lane.val - 1)
    let s := allGroups.foldl (fun s g =>
      if s.voter.grp[g].members.getLsbD l.val then s
      else dropLane l g (modGroup g (fun x => { x with cand := setBit x.cand l.val false, candGot := [], voted := [] }) s)) s
    let s := if r.off then setPd (lanePd l) true s else s
    let s := addLog .reintEnd l.val result.toNat s
    modReint (fun x => { x with phase := 0, lane := 0, result := result, off := false, back := false, copied := 0, clean := 0, joined := 0, since := 0, dirty := [], diff := [] }) s

/-! ## Entry to SAFE -/

/-- Stops the permits of all six field groups. -/
def permitsOff (s : State) : State := { s with fg := s.fg.map fun g => { g with permitOn := false } }

/-- A group's safety outputs are de-energised. -/
def safetyOff (g : Fin 2) (s : State) : State :=
  modDom (groupDom g) (fun d => { d with commit := d.commit.map fun _ => 0, voted := d.voted.map fun _ => 0, published := d.published.map fun _ => 0 }) s

/-- An admitted request that has not taken effect is evaluated again and refused with a reason (R474). -/
def refusePending (code : Byte) (name : String) (s : State) : State :=
  if s.arb.pend.isNone && s.arb.domStop == 0 then s
  else
    let s : State := { s with arb := { s.arb with pend := none, domStop := 0, reason := code, refused := true } }
    (waiting .mode s).foldl (fun s c => finishRefused c code.toNat name s) s

/-- Entry to SAFE (R103), with the cause of VOT_SAFE and the group that caused it. -/
def enterSafe (cause : Nat) (grp : Option (Fin 2)) (s : State) : State :=
  if inSafe s then s
  else
    let s := refusePending 0x05 "IN_SAFE" (setOper 2 .safe s)
    let s := allGroups.foldl (fun s g =>
      let s := setMembers 2 g 0 (safetyOff g s)
      let s := modGroup g (fun x => { x with cand := 0, candGot := [], voted := [], vp := none, withheld := 0, mute := 0, queue := [] }) s
      changeLeave (groupDom g) (abandonTasks (groupDom g) s)) (reintEnd 0x08 s)
    let s := allLanes.foldl (fun s l => stopCore (laneCore l 0) (stopCore (laneCore l 1) s)) s
    let s := permitsOff s
    let s : State := { s with voter := { s.voter with safeValid := true, safeGroup := grp == some 1, safeCause := BitVec.ofNat 8 cause }
                              arb := { s.arb with safeTrain := originates s } }
    let s := match s.hsb.role with
      | .primary => sendRelinquish (s.cyc.count + 1) s
      | .standby => setRole .syncing s
      | _ => s
    addLog .safe cause ((grp.map fun g => g.val + 1).getD 0) (ringEvent 1 cause s)

/-! ## Exclusion of a lane -/

/-- Whether an exclusion's cause has lane scope (R100). -/
def laneScope (cause : Nat) : Bool := 5 ≤ cause

/-- Removes a lane from group `g` (R101, R102). -/
def excludeFrom (l : Fin 3) (g : Fin 2) (s : State) : State :=
  let x := s.voter.grp[g]
  if !x.members.getLsbD l.val then s
  else
    let m := setBit x.members l.val false
    let s := dropLane l g s
    let s := if s.doms[groupDom g].change.dim == .pending then changeStop "GROUP_NOT_TRIPLEX" (groupDom g) s else s
    let s := hsbFault (groupDom g) s
    if popc 3 m.toNat < 2 then enterSafe 0x05 (some g) s
    else modGroup g (fun y => { y with agr := .replicate 3 0 }) (setMembers 2 g m s)

/-- The exclusion of a lane with a cause of R100, in group `g` or, for a cause of lane scope, in every group (R101, R116, R529). A lane that is a
member of none of them is not excluded and nothing is counted (log entry 66); a cause of lane scope then still keeps it from qualifying (R482). -/
def excludeLane (l : Fin 3) (cause : Nat) (g : Option (Fin 2)) (s : State) : State :=
  let ins := match g with
    | some g => allGroups.filter fun h => h == g && s.voter.grp[h].members.getLsbD l.val
    | none => allGroups.filter fun h => s.voter.grp[h].members.getLsbD l.val
  let grpCode : Fin 4 := if ins == [0, 1] then 2 else if ins == [1] then 1 else if ins == [0] then 0 else s.voter.lane[l].xgroup
  let held (c : Byte) : Bool := c == 8 || c == 9
  let s := modLane l (fun x => { x with scopeCause := if laneScope cause && (cause = 8 || cause = 9 || !held x.scopeCause) then BitVec.ofNat 8 cause else x.scopeCause }) s
  let s := if ins.isEmpty && cause ≠ 8 then s
    else addLog .exclusion l.val cause (modLane l (fun x => { x with xcount := if ins.isEmpty then x.xcount else inc16 x.xcount, xgroup := grpCode
                                                                     xcause := BitVec.ofNat 8 cause }) s)
  let s := modReint (fun r => { r with autoWant := setBit r.autoWant l.val (cause ≠ 8 && cause ≠ 9 && (!ins.isEmpty || r.autoWant.getLsbD l.val)) }) s
  ins.foldl (fun s h => excludeFrom l h s) s

/-- A lane-scope cause raised by the hardware: without further effect while the lane's domain is powered down (R101). -/
def laneCause (l : Fin 3) (cause : Nat) (s : State) : State :=
  if !pdOn (lanePd l) s then s else excludeLane l cause none s

/-! ## The stop of a pair -/

/-- The effects of R90: both cores stop, a claimed solver is aborted, the pair enters STOP, and its fail values replace its output image at
the next deadline. `kind` is the KIND of PAIR_STAT with the address for PAIR_FPC, none for a stop that leaves them unchanged. -/
def pairStop (n : Fin 4) (kind : Option (Fin 8 × Word)) (s : State) : State :=
  let d := pairDom n
  let s := stopCore (pairCore n) s
  let s := match kind with
    | none => s
    | some (k, a) => modPair n (fun p => { p with fault := true, kind := k, fcount := inc16 p.fcount, fpc := a }) s
  let s := changeLeave d (abandonTasks d (abortSolvers d s))
  let s := modDom d (fun x => { x with commit := failImage d s, commits := [], stopDue := true }) s
  hsbFault d (setRun 2 d false s)

/-! ## The escalation ladder -/

/-- The escalation record's entries as stored: COUNT, HOLD and the entries (R419). A record never written is empty, one without a valid copy
reads as none. -/
def escEntries (s : State) : Option (Nat × Nat × List (List Byte)) := match readRecord 2 2 s with
  | .blank => some (0, 0, [])
  | .invalid => none
  | .valid _ p => some (sliceNat 0 1 p, sliceNat 1 1 p, (List.range (min 7 (sliceNat 0 1 p))).map fun i => (p.drop (4 + 8 * i)).take 8)

/-- The record's payload. -/
def escPayload (hold : Nat) (es : List (List Byte)) : List Byte :=
  leBytes 1 es.length ++ leBytes 1 hold ++ leBytes 2 0 ++ es.flatten ++ List.replicate (56 - 8 * es.length) 0

/-- A new entry (R419): seconds of the binary clock, cause and source. -/
def escEntry (cause src : Nat) (s : State) : List Byte := leBytes 5 s.rtc.bin.toNat ++ leBytes 1 cause ++ leBytes 1 src ++ leBytes 1 0

/-- The second rung (R418): SAFE with cause ESCALATION unless the module is there already, and both copies of the record with the new
entry, the oldest dropped beyond 7. -/
def secondRung (cause src : Nat) (s : State) : State :=
  if s.esc.rung2.isSome then s
  else
    let old := (escEntries s).getD (0, 0, [])
    let es := (old.2.2 ++ [escEntry cause src s])
    let s : State := { s with esc := { s.esc with rung2 := some { at_ := s.cyc.tb, cause := BitVec.ofNat 8 cause, source := BitVec.ofNat 8 src, copies := 0, sealed := false } } }
    psRecord .esc (escPayload old.2.1 (es.drop (es.length - 7))) (enterSafe 0x06 none s)

/-- First-rung restarts of a domain (0 the Steward, 1 to 4 the pairs) in the preceding 60 min (R417). -/
def recentRestarts (i : Fin 5) (s : State) : List Long := s.esc.restarts[i].filter fun t => since t s < 3600 * tickS

/-- A ladder event (R416, R417) with the cause and source codes of R419: further events of one domain are only logged until it has
restarted; one that finds DLIM restarts recorded goes to the second rung. -/
def ladder (cause src : Nat) (s : State) : State :=
  let s := addLog .ladder cause src s
  if s.esc.rung2.isSome then s
  else
    let s : State := { s with esc := { s.esc with lastSrc := BitVec.ofNat 8 src, lastCause := BitVec.ofNat 8 cause } }
    if s.esc.event.getLsbD src then s
    else
      let s : State := { s with esc := { s.esc with event := setBit s.esc.event src true } }
      if src < 5 then
        if s.esc.dlim.toNat ≤ (recentRestarts (Fin.ofNat 5 src) s).length then secondRung cause src s
        else { s with esc := { s.esc with due := setBit s.esc.due src true } }
      else s

/-- Records a first-rung restart and forgets the domain's event (R416, R417). -/
def ladderRestart (i : Fin 5) (s : State) : State :=
  { s with esc := { s.esc with event := setBit s.esc.event i.val false, due := setBit s.esc.due i.val false
                               restarts := s.esc.restarts.set i (recentRestarts i s ++ [s.cyc.tb]) } }

/-- A pair stops for a fault and reports it to the ladder. -/
def pairFault (n : Fin 4) (kind : Option (Fin 8 × Word)) (cause : Nat) (s : State) : State := ladder cause (n.val + 1) (pairStop n kind s)

/-- A comparison failure (R90). -/
def pairFaultKind (n : Fin 4) (kind : Fin 8) (a : Word) (s : State) : State := pairFault n (some (kind, a)) 3 s

/-- The Steward's cores restart (R411): sessions, slots and the reply cache are discarded, commands in flight are cancelled below without a
reply. -/
def stewardRestart (s : State) : State :=
  let s := modCore stewCore (fun _ => Core.reset true false) s
  let gone := fun (x : Session) => { Session.reset with txSeq := x.txSeq }
  { s with mbx := { s.mbx with sess := s.mbx.sess.map gone, partner := gone s.mbx.partner, frags := [], once := [] }
           ps := { s.ps with qStew := s.ps.qStew.filter fun r => match r.use with | .cmd _ => false | _ => true }
           ring := { s.ring with items := s.ring.items.map fun i => match i.use with
             | .program => i
             | _ => { i with withdrawn := true } }
           update := { s.update with cmd := none }
           doms := s.doms.map fun d => { d with change := { d.change with cmd := none } } }

/-- A lane's cores stop and its contributions become late (R411): both cores, or the one of group `g` (R415). A halt that leaves a loaded
group in RUN with fewer than two members goes to the second rung (R417). -/
def laneHalt (l : Fin 3) (gs : List (Fin 2)) (cause : Nat) (s : State) : State :=
  let s := gs.foldl (fun s g => modGroup g (fun x => { x with withheld := setBit x.withheld l.val true }) (stopCore (laneCore l g) s)) s
  let s := ladder cause (5 + l.val) s
  let short := (gs.filter fun g => s.doms[groupDom g].run && s.voter.grp[g].members.getLsbD l.val &&
    popc 3 (s.voter.grp[g].members &&& ~~~s.voter.grp[g].withheld).toNat < 2).head?
  match short with
  | none => s
  | some g => secondRung cause (5 + l.val) (enterSafe 0x05 (some g) s)

/-! ## Seals -/

/-- The retain area of a pair: its offset in the Grotto and its length. -/
def retainAt (n : Fin 4) : Nat := n.val * 458752
/-- The bytes of a pair's retain area. -/
def retainBytes (n : Fin 4) (s : State) : List Byte := match s.doms[pairDom n].image with
  | some im => readBytes 5 (retainAt n) im.areas.retainLen s
  | none => []

/-- The retentive timer and counter instances of a pair, as they stand in standard SRAM (R63). -/
def instBytes (im : Image) (s : State) : List (Nat × List Byte) :=
  im.retainTimers.map fun o => (o, readBytes 0 o (if im.counters.contains o then 16 else 32) s)

/-- Seals a pair's retain area (R58): only where the state is OPEN and the online-change dimension is NONE. At every such point the retentive instances
are kept as they stand (R63; log entry 75). -/
def sealArea (n : Fin 4) (s : State) : State :=
  let d := s.doms[pairDom n]
  match d.image with
  | none => s
  | some im =>
    if d.change.dim != .none then s
    else modDom (pairDom n) (fun x => { x with
      retain := if d.retain.any (·.sealed) then d.retain
                else some { progId := im.id, layoutId := im.layoutId, cycle := s.cyc.count, sealed := true, crc := crc32c (retainBytes n s) }
      instKept := instBytes im s }) s

end Sys2Proof.Machine
end

