-- ==== Sys2Proof/Machine/Fabric.lean ====
section
/-! DEFINITION. The fabric and the on-chip memories as a master meets them: the address map, paths, power domains, both memory codes,
write collisions and retention (R22 to R28, R305 to R327). -/

namespace Sys2Proof.Machine

/-! ## Masters -/

/-- The master a core is. -/
def coreMaster (c : CoreId) : Master := match pairOf c, laneOf c with
  | some n, _ => .sp n
  | none, some (l, k) => .lane l k
  | none, none => .steward
/-- The core a master is. -/
def masterCore : Master → Option CoreId
  | .sp n => some (pairCore n) | .lane l k => some (laneCore l k) | .steward => some stewCore
  | .ce _ => none | .lss _ => none | .laneUnit _ => none | .outputGuard => none | .copier => none | .scrubber => none | .voter => none
  | .lease => none | .supervision => none | .debugPort => none
/-- The master index of R333; masters without an index have none. -/
def masterIdx : Master → Option Nat
  | .sp n => some n.val | .lane l k => some (4 + 2 * l.val + k.val) | .steward => some 10 | .ce n => some (11 + n.val) | .lss n => some (13 + n.val)
  | .laneUnit _ => some 15 | .outputGuard => some 15 | .copier => some 15
  | .scrubber => none | .voter => none | .lease => none | .supervision => none | .debugPort => none

/-- Counts an access that completed with NO_PATH or DOM_OFF (R22, R28). -/
def countAf (m : Master) (s : State) : State := match masterIdx m with
  | none => s
  | some i => { s with memRegs := { s.memRegs with af := s.memRegs.af.mapIdx fun j x => if j = i then inc x else x } }

/-! ## The address map -/

/-- What an address names (R305). -/
inductive Where where
  | sram (code off : Nat) | ext (off : Nat) | reg (block off : Nat) | win (i : Fin 5) (off : Nat) | nowhere
  deriving DecidableEq, Repr

/-- XWIN.WIN of a master (R308, R309). -/
def xwin (m : Master) (s : State) : Nat := match m with
  | .lane _ _ => 15
  | _ => match masterCore m with | some c => field s.cores[c].prot.xwin 0 4 | none => 0

/-- Resolves an address for a master (R305, R306, R308). -/
def locate (m : Master) (a : Nat) (s : State) : Where :=
  if a < 0x02000000 then .sram 0 a
  else if a < 0x03000000 then match m with | .lane l _ => .sram (laneMem l) (a - 0x02000000) | _ => .nowhere
  else if a < 0x03200000 then .sram 4 (a - 0x03000000)
  else if 0x03800000 ≤ a && a < 0x03C00000 then .sram 5 (a - 0x03800000)
  else if 0x04000000 ≤ a && a < 0x07000000 then
    match m with | .lane _ _ => .nowhere | _ => .sram (1 + (a - 0x04000000) / 2 ^ 24) (a % 2 ^ 24)
  else if 0x08000000 ≤ a && a < 0x08014000 then .reg ((a - 0x08000000) / 4096) (a % 4096)
  else if 0x09000000 ≤ a && a < 0x09010000 then .win (if a < 0x09008000 then 3 else 4) (a % 32768)
  else if 0x09010000 ≤ a && a < 0x09018000 then match m with | .lane l _ => .win (Fin.ofNat 5 l.val) (a % 32768) | _ => .nowhere
  else if 0xC0000000 ≤ a then match m with
    | .lane _ _ => if 0xF0000000 ≤ a then .ext (15 * 2 ^ 30 + (a - 0xC0000000)) else .nowhere
    | _ => .ext (xwin m s * 2 ^ 30 + (a - 0xC0000000))
  else .nowhere

/-- An offset of lane SRAM lies in the key area (R312). -/
def inKeyArea (off : Nat) : Bool := 0xFFC000 ≤ off || (0xF70000 ≤ off && off < 0xF74000)
/-- An external offset lies in the staging region (R308). -/
def inStaging (off : Nat) : Bool := 0x3F0000000 ≤ off && off < 0x400000000
/-- An offset of standard SRAM lies in the voted status window (R311). -/
def inVoted (off : Nat) : Bool := 0x1FF0000 ≤ off && off < 0x1FF8000

/-- A master has a path to a memory (R22, R23, R308, R312). -/
def pathOk (m : Master) (w : Where) (wr : Bool) : Bool := match m, w with
  | .sp _, .sram 0 off => !(wr && inVoted off)
  | .sp _, .sram 5 _ => true
  | .sp _, .ext off => !(wr && inStaging off)
  | .lane _ _, .sram 0 off => !wr && 0x1FF0000 ≤ off
  | .lane l _, .sram (c + 1) _ => c == l.val
  | .lane _ _, .ext off => !wr && inStaging off
  | .steward, .sram 0 off => !(wr && inVoted off)
  | .steward, .sram 4 _ => true
  | .steward, .sram 5 _ => true
  | .steward, .sram _ off => !wr && !inKeyArea off
  | .steward, .ext _ => true
  | _, _ => false

/-- The power domain of a place. -/
def wherePd : Where → Pd
  | .sram 0 _ => .std | .sram 1 _ => .la | .sram 2 _ => .lb | .sram 3 _ => .lc | .sram 4 _ => .stew | .sram _ _ => .grotto
  | .ext _ => .mem | .reg _ _ => .vote | .win i _ => lsPd i | .nowhere => .vote

/-- The bank of R326 and R327 that a place lies in: SB0 to SB31, or 32 for the Grotto. -/
def bankOf : Where → Option (Fin 33)
  | .sram 0 off => some (Fin.ofNat 33 (off / 2 ^ 20 % 32))
  | .sram 5 _ => some 32
  | _ => none

/-! ## The memory codes -/

/-- The kinds of MEM_ESRC. -/
inductive ErrKind where
  | ue | crc | side | poison | rs
  deriving DecidableEq, Repr
/-- Their numbers (R333). -/
def ErrKind.code : ErrKind → Nat
  | .ue => 1 | .crc => 2 | .side => 3 | .poison => 4 | .rs => 5

/-- Flipped bits of a word. -/
def wordFlips (code w : Nat) (s : State) : Nat := ((s.memErrs.flips.find? fun f => f.1 == code && f.2.1 == w).map fun f => f.2.2).getD 0
/-- Flipped bits of a line's side-array entry. -/
def sideFlips (code l : Nat) (s : State) : Nat := ((s.memErrs.side.find? fun f => f.1 == code && f.2.1 == l).map fun f => f.2.2).getD 0
/-- A word is poisoned (R317). -/
def poisoned (code w : Nat) (s : State) : Bool := s.memErrs.poison.contains (code, w)

/-- Corrects the single flipped bit of a word (R313). -/
def correctWord (code w : Nat) (s : State) : State :=
  { s with memErrs := { s.memErrs with flips := s.memErrs.flips.filter fun f => !(f.1 == code && f.2.1 == w) }
           memRegs := { s.memRegs with ce := inc s.memRegs.ce, ceSeen := true } }

/-- Marks words poisoned. -/
def poisonWords (code : Nat) (ws : List Nat) (s : State) : State :=
  { s with memErrs := { s.memErrs with poison := s.memErrs.poison ++ (ws.map fun w => (code, w)).filter fun x => !s.memErrs.poison.contains x } }

/-- The words of a line. -/
def lineWords (l : Nat) : List Nat := (List.range 8).map fun j => 8 * l + j

/-- Records an error response of a read (R219, R317, R318, R333): `who` is the master index. -/
def recordErr (code line who : Nat) (k : ErrKind) (s : State) : State :=
  let r := s.memRegs
  let isCrc := k == .crc || k == .side
  { s with memRegs := { r with ueSeen := r.ueSeen || !isCrc, crcSeen := r.crcSeen || isCrc, ue := if isCrc then r.ue else inc r.ue
                               crcerr := if isCrc then inc r.crcerr else r.crcerr, eaddr := BitVec.ofNat 32 line
                               esrc := pack [(k.code, 0), (who, 8), (code, 16)]
                               errMarks := (r.errMarks.filter fun m => (faultMark s).toNat ≤ m.1.toNat + 16) ++ [(faultMark s, code)] } }

/-- A lane's SRAM gave an uncorrectable error: the lane is excluded with cause MEMORY (R318). -/
def laneMemErr (code : Nat) (s : State) : State := if 1 ≤ code && code ≤ 3 then laneCause (Fin.ofNat 3 (code - 1)) 0x07 s else s

/-- Decodes one word for a read (R313, R317): none for UE. -/
def checkWord (who code w : Nat) (s : State) : Option ErrKind × Bool × State :=
  if poisoned code w s then (some .poison, false, recordErr code (w / 8) who .poison s)
  else match wordFlips code w s with
    | 0 => (none, false, s)
    | 1 => (none, true, correctWord code w s)
    | _ => (some .ue, false, poisonWords code [w] (recordErr code (w / 8) who .ue s))

/-- A full-line read (R315, R317): every word by the inner code, then the outer value and its side-array entry. -/
def checkLine (who code l : Nat) (s : State) : Option ErrKind × Bool × State :=
  let z := (lineWords l).foldl (fun (acc : Option ErrKind × Bool × State) w =>
    match acc.1 with
    | some _ => acc
    | none => let r := checkWord who code w acc.2.2; (r.1, acc.2.1 || r.2.1, r.2.2)) (none, false, s)
  match z.1 with
  | some _ => z
  | none =>
    if sideFlips code l s ≥ 2 then (some .side, z.2.1, poisonWords code (lineWords l) (recordErr code l who .side z.2.2))
    else
      let t := z.2.2
      let t : State := { t with memErrs := { t.memErrs with side := t.memErrs.side.filter fun f => !(f.1 == code && f.2.1 == l) } }
      if s.memErrs.outer.contains (code, l) then (some .crc, z.2.1, poisonWords code (lineWords l) (recordErr code l who .crc t))
      else (none, z.2.1, t)

/-- The source CORRECTED reaches the core that read, or all members of both groups of a member lane (R319). -/
def raiseCorrected (c : CoreId) (s : State) : State := match laneOf c with
  | none => raiseIrq c 5 s
  | some (l, _) =>
    if allGroups.any fun g => s.voter.grp[g].members.getLsbD l.val then allGroups.foldl (fun s g => raiseGroup g 5 s) s else raiseIrq c 5 s

/-- A correction in a read by a lane's solver or RMU. -/
def raiseCorrectedLane (l : Fin 3) (s : State) : State := raiseCorrected (laneCore l 0) s

/-- Symbols in error of an external line, and the device they lie in if it is one only: (line, device 1 to 5 or 0, symbols). -/
def extErr (line : Nat) (s : State) : Nat × Nat := ((s.memErrs.xsym.find? fun f => f.1 == line).map fun f => f.2).getD (0, 0)

/-- The devices erased for an external line (R329): one marked failed, and those that flag an uncorrectable on-die result. -/
def extErased (line : Nat) (s : State) : List Nat :=
  ([1, 2, 3, 4, 5] : List Nat).filter fun d => s.memRegs.faildev.toNat == d || s.memErrs.xflag.contains (line, d)

/-- Decodes an external line of 128 bytes (R329, R330): 2e + f ≤ 32, with the 32 symbols of every erased device erased. Eight corrected lines
within 1 s with errors in one device only mark it failed. `false` is UE. -/
def extDecode (who line : Nat) (s : State) : Bool × State :=
  let x := extErr line s
  let r := s.memRegs
  let erased := extErased line s
  let e := if erased.contains x.1 then 0 else x.2
  if 2 * e + 32 * erased.length > 32 then (false, recordErr 6 (2 * line) who .rs s)
  else
    let s : State := { s with memRegs := { r with corr := if x.2 = 0 then r.corr else inc r.corr, eras := if erased.isEmpty then r.eras else inc r.eras } }
    if x.2 = 0 || x.1 = 0 || r.faildev != 0 then (true, s)
    else
      let now := (s.memErrs.recent.filter fun p => since p.2 s < tickS) ++ [(x.1, s.cyc.tb)]
      let s : State := { s with memErrs := { s.memErrs with recent := now } }
      if (now.filter fun p => p.1 == x.1).length ≥ 8 then
        (true, addLog .deviceFailed x.1 0 { s with memRegs := { s.memRegs with faildev := BitVec.ofNat 3 x.1 } })
      else (true, s)

/-- A line of the external store is written whole: nothing is wrong with it any more (R321, R331). -/
def extClear (line : Nat) (s : State) : State :=
  { s with memErrs := { s.memErrs with xsym := s.memErrs.xsym.filter fun f => f.1 != line
                                       xflag := s.memErrs.xflag.filter fun f => f.1 != line } }

/-! ## Reads and writes of bytes -/

/-- The bytes that an access of `n` bytes at `off` touches, in the order of the value's bytes: unaligned accesses rotate within their 8-byte
word (R322). -/
def lanesOf (off n : Nat) : List Nat := (List.range n).map fun i => off / 8 * 8 + (off % 8 + i) % 8

/-- The value of an access. -/
def readRot (code off n : Nat) (s : State) : Nat := leNat ((lanesOf off n).map fun o => readByte code o s)

/-- Writes the bytes of a value; every byte through `store`, so that every note of a write is taken (R280, R82, R106, R384, R58). -/
def storeRot (c : Option CoreId) (code off n : Nat) (v : Nat) (s : State) : State :=
  ((lanesOf off n).zip (leBytes n v)).foldl (fun s x => store c code x.1 [x.2] s) s

/-- The traffic classes that a master issues (R24), by its master index (R333): 15 stands for a lane's solver and RMU, the Output Guard and the copier. -/
def trafficClasses (who : Nat) : List Nat :=
  if who < 4 then [1, 2] else if who < 10 then [0, 2] else if who = 10 then [3] else if who < 13 then [0, 1, 3] else if who < 15 then [1] else [0, 1, 2]

/-- The class of a colliding write: the one it carries where its master issues that class, otherwise the lowest that the master issues (R24). -/
def meetRank (x : Meet) : Nat :=
  let cs := trafficClasses x.master.val
  if cs.contains x.cls.val then x.cls.val else cs.getLastD 3

/-- A colliding write (R323): whether the write of master index `who` with class `cls` in memory `code` is performed. -/
def collide (who cls code w : Nat) (meet : Option Meet) (s : State) : Bool × State := match meet with
  | none => (true, s)
  | some x =>
    if code = 6 then (true, s)
    else
      let lose := meetRank x < cls || (meetRank x == cls && x.onPort0)
      let (l, win) := if lose then (who, x.master.val) else (x.master.val, who)
      let r := s.memRegs
      (!lose, { s with memRegs := { r with wlost := inc r.wlost, wladdr := BitVec.ofNat 32 w, wlsrc := pack [(win, 0), (l, 8), (code, 16)] } })

/-- The traffic class of a core's stores (R24, R81). -/
def storeClass (c : CoreId) : Nat := if c = stewCore then 3 else 2

/-- A write of `bytes` of a word that covers it whole clears its errors (R317); a partial write leaves them. -/
def clearWord (code w : Nat) (s : State) : State :=
  { s with memErrs := { s.memErrs with flips := s.memErrs.flips.filter fun f => !(f.1 == code && f.2.1 == w)
                                       poison := s.memErrs.poison.filter fun f => f != (code, w) } }

/-- A full-line write clears every error of the line (R315, R317). -/
def clearLine (code l : Nat) (s : State) : State :=
  let s := (lineWords l).foldl (fun s w => clearWord code w s) s
  { s with memErrs := { s.memErrs with side := s.memErrs.side.filter fun f => !(f.1 == code && f.2.1 == l)
                                       outer := s.memErrs.outer.filter fun f => f != (code, l) } }

/-- Starts the wake of a bank in retention (R325). -/
def wakeBank (b : Fin 33) (s : State) : State := 
  if s.banks[b] == .retention then { s with banks := s.banks.set b .waking, memRegs := { s.memRegs with wakeAt := s.memRegs.wakeAt.set b s.cyc.tb } } else s

/-- A bank serves accesses. -/
def bankReady (w : Where) (s : State) : Bool := match bankOf w with | none => true | some b => s.banks[b] == .active

/-- The order of arrival of the next held access. -/
def nextSeq (s : State) : Nat :=
  s.cores.toList.foldl (fun n k => match k.hold with | .bank _ _ _ _ q => max n (q + 1) | _ => n) ((s.memRegs.held.map fun h => h.seq + 1).foldl max 0)

/-- A write that is held while its bank sleeps, which it wakes (R28, R325). -/
def storeHeld (by_ : Option CoreId) (code off : Nat) (bs : List Byte) (s : State) : State := match bankOf (.sram code off) with
  | none => store by_ code off bs s
  | some b =>
    if s.banks[b] == .active then store by_ code off bs s
    else
      let s := wakeBank b s
      { s with memRegs := { s.memRegs with held := s.memRegs.held ++ [{ bank := b, by_ := by_, code := code, off := off, data := bs, seq := nextSeq s }] } }

/-! ## Register accesses -/

/-- An access to a register of a block in power domain `p` (R28): performed, or completed with DOM_OFF and counted. -/
def regAt (p : Pd) (m : Master) (f : State → State) (s : State) : State :=
  if pdOn p s then f (answer .ok 0 s) else answer .domOff 0 (countAf m s)

end Sys2Proof.Machine
end

