-- ==== Sys2Proof/Machine/Field.lean ====
section
/-! DEFINITION. The on-module field channels: inputs, debounce and timestamps, input blocks, output blocks and scheduled entries, overload,
the permit, field-side power, the channel configuration (R334 to R351, R353). -/

namespace Sys2Proof.Machine

/-! ## Channel configuration -/

/-- CLASS is safety. -/
def cfgSafety (w : Word) : Bool := w.getLsbD 31
/-- DIR is output. -/
def cfgOut (w : Word) : Bool := w.getLsbD 30
/-- OWNER: 0 none, 1 to 6 the domains (R353). -/
def cfgOwner (w : Word) : Nat := field w 26 3
/-- DEB, in µs. -/
def cfgDeb (w : Word) : Nat := field w 0 16
/-- The permit group that FG_PCFG names, if EN is 1 (R353). -/
def permitGroup (w : Word) : Option (Fin 2) := if w.getLsbD 0 then some (if w.getLsbD 1 then 1 else 0) else none

/-! ## Edges -/

/-- The accepted edge of a run that began at ring time `ts` (R342, R343). -/
def acceptEdge (lvl : Bool) (ts : Long) (c : FgCh) : FgCh :=
  { c with deb := lvl, run := none, ecnt := c.ecnt + 1, tsR := if lvl then ts else c.tsR, tsF := if lvl then c.tsF else ts }

/-- The raw state takes level `lvl` at ring time `ts` (R342): an edge at once with debounce off, otherwise a run begins, or ends without an
edge on a return to the old level. -/
def rawChange (lvl : Bool) (ts : Long) (c : FgCh) : FgCh :=
  if c.raw = lvl then c
  else
    let c := { c with raw := lvl }
    if cfgDeb c.eff = 0 then acceptEdge lvl ts c
    else { c with run := if lvl = c.deb then none else some (lvl, ts) }

/-- The group controller runs. -/
def fgRuns (g : GroupId) (s : State) : Bool := s.fg[g].fpwr && s.fg[g].restart.isNone

/-- FIELD_INPUT_CHANGE (R342): the comparator of an input finds a new level; the fixed input delay is taken into account (R352). -/
def execFieldInputChange (g : GroupId) (c : Fin 8) (lvl : Bool) (s : State) : Meaning := .next <|
  if fgRuns g s && !cfgOut s.fg[g].ch[c].eff then modCh g c (rawChange lvl (ringTime s)) s else s

/-- DEBOUNCE_ACCEPT (R342, R343): the level has held for the debounce time; the stamp is that of the transition that began the run. -/
def execDebounceAccept (g : GroupId) (c : Fin 8) (s : State) : Meaning := .next <|
  if !fgRuns g s then s
  else modCh g c (fun x => match x.run with
    | some (lvl, ts) => if cfgDeb x.eff * tickUs ≤ (ringTime s - ts).toNat then acceptEdge lvl ts x else x
    | none => x) s

/-! ## Output pins -/

/-- The level an output drives (R337, R349 to R351): nothing without field-side power or L+, when switched off, or as a safety output
without the permit. -/
def drives (x : Fg) (c : FgCh) : Bool := x.fpwr && !x.lpuv && cfgOut c.eff && c.cmd && !c.ovl && (!cfgSafety c.eff || x.pres)

/-- Every pin takes the level it is driven to at ring time `ts`; an output's read-back level is its raw state (R345). -/
def setPins (ts : Long) (x : Fg) : Fg :=
  { x with ch := x.ch.map fun c => if cfgOut c.eff then rawChange (drives x c) ts { c with pin := drives x c } else { c with pin := false } }

/-- The pins of a group now. -/
def drivePins (g : GroupId) (s : State) : State := modFg g (setPins (ringTime s)) s

/-- Ticks in 2.5 µs. -/
def schGap : Nat := 3125

/-- Executes a scheduled entry at its time (R347): dropped if it would change the level less than 2.5 µs after the previous change; a change
to 1 of a safety output without the permit has no effect (R351). -/
def schedExec (e : Sched) (ofs : Long) (x : Fg) : Fg :=
  let c := x.ch[e.ch]
  if !cfgOut c.eff || c.cmd = e.level || (e.level && cfgSafety c.eff && !x.pres) then x
  else if c.lastChg.any fun t => (e.at_ - t).toNat < schGap then { x with schClose := inc x.schClose }
  else setPins (e.at_ + ofs) { x with ch := x.ch.set e.ch { c with cmd := e.level, lastChg := some e.at_ } }

/-- Ring time minus time base. -/
def ringOfs (s : State) : Long := s.rtm.rtofs.getD 0

/-- SCHEDULED_ENTRY (R347): the group's next entry is executed, once its instant has come. -/
def execScheduledEntry (g : GroupId) (s : State) : Meaning := .next <|
  match s.fg[g].sched with
  | [] => s
  | e :: es => if s.cyc.tb.toNat < e.at_.toNat then s else modFg g (fun x => schedExec e (ringOfs s) { x with sched := es }) s

/-! ## The input block -/

/-- Eight Booleans as a byte, bit c for channel c. -/
def chByte (f : FgCh → Bool) (x : Fg) : Nat := (allCh.map fun c => bitOf (f x.ch[c]) * 2 ^ c.val).sum

/-- FB differs from the commanded level on an output (R344). -/
def fbDiffers (x : Fg) : Bool := allCh.any fun c => let y := x.ch[c]; cfgOut y.eff && y.pin != y.cmd

/-- The block of a running controller with field-side power (R344). -/
def liveBlock (x : Fg) : List Byte :=
  let fb := chByte (fun c => if cfgOut c.eff then c.pin else c.raw) x
  let diag := 1 + 2 * bitOf x.lpuv + 4 * bitOf x.govl + 8 * bitOf x.pres + 16 * bitOf (fbDiffers x)
  leBytes 1 (chByte (·.deb) x) ++ leBytes 1 (chByte (·.raw) x) ++ leBytes 1 fb ++ leBytes 1 (chByte (·.ovl) x) ++ leBytes 1 diag ++ [0] ++
    leBytes 2 x.lpv.toNat ++ x.ch.toList.map (·.ecnt) ++ x.ch.toList.flatMap fun c => leBytes 8 c.tsR.toNat ++ leBytes 8 c.tsF.toNat

/-- The block of a group at T_k (R344, R398): 144 bytes. -/
def blockAt (x : Fg) : List Byte :=
  let old := if x.block.length = 144 then x.block else List.replicate 144 0
  if !x.fpwr then List.replicate 8 0 ++ old.drop 8
  else if x.restart.isSome then old.set 4 (old.getD 4 0 &&& 0xFE)
  else liveBlock x

/-- The configuration of the registers takes effect at a T_k (R335, R341); a channel whose configuration changes has no edge since. -/
def takeConfig (fresh : Bool) (x : Fg) : Fg :=
  { x with ch := x.ch.map fun c =>
      if c.cfg = c.eff && !fresh then c
      else { c with eff := c.cfg, raw := if cfgOut c.cfg == cfgOut c.eff then c.raw else false, deb := c.raw, run := none, tsR := 0, tsF := 0
                    cmd := if cfgOut c.cfg == cfgOut c.eff then c.cmd else false } }

/-! ## Output blocks -/

/-- Where a domain's output block for group `g` lies in its %Q. -/
def outBlockAt (d : DomId) (g : GroupId) (s : State) : Option Nat := (s.doms[d].image.bind fun im => im.fgOut.find? fun x => x.1 == g).map Prod.snd

/-- A domain's published block for a group (R346). -/
def outBlock (d : DomId) (g : GroupId) (s : State) : Option (List Byte) :=
  (outBlockAt d g s).bind fun o => let b := (s.doms[d].published.drop o).take 264; if b.isEmpty then none else some b

/-- A channel's owner as a domain. -/
def ownerDom (w : Word) : Option DomId := if 1 ≤ cfgOwner w ∧ cfgOwner w ≤ 6 then some (Fin.ofNat 6 (cfgOwner w - 1)) else none

/-- A group domain is OUT or stopped (R337). -/
def domOut (d : DomId) (s : State) : Bool := match domGroup d with | some g => groupMode s.voter.grp[g] == 0 || !s.doms[d].run | none => false

/-- Whether a domain repeats its outputs in the period that begins (R348). -/
def domRepeats (d : DomId) (s : State) : Bool := s.doms[d].rptSent

/-- Step 1 of R347 for one channel at T_{k+1}, `tk`: the owner's OUT bit; low without an owner or block; a repeating pair keeps the level
(R348). At a commanded 0 the channel's overload clears (R349). -/
def setOut (g : GroupId) (tk : Long) (s : State) (c : Fin 8) (y : FgCh) : FgCh :=
  if !cfgOut y.eff then { y with cmd := false, ovl := false }
  else
    let lvl : Bool := match ownerDom y.eff with
      | none => false
      | some d =>
        if domOut d s then false
        else if domRepeats d s then y.cmd
        else match outBlock d g s with | none => false | some b => (b.getD 0 0).getLsbD c.val
    { y with cmd := lvl, ovl := y.ovl && lvl, lastChg := if lvl = y.cmd then y.lastChg else some tk }

/-- The entries of one domain's block with their channel and place: kept entries, and the foreign and late ones (R347). -/
structure SchedRes where
  keep : List Sched
  foreign : Nat
  late : Nat
  deriving DecidableEq, Repr

/-- Judges the entries of a block: NSCH above 32 counts as late, slots at or above NSCH hold no entry. -/
def schedJudge (d : DomId) (x : Fg) (tk : Long) (period : Nat) (b : List Byte) : SchedRes :=
  let n := (b.getD 1 0).toNat
  (List.range (min n 32)).foldl (fun r i =>
    let v := leNat ((b.drop (8 + 8 * i)).take 8)
    let c := Fin.ofNat 8 (v / 2 ^ 40)
    let off := v % 2 ^ 40
    if !cfgOut x.ch[c].eff || ownerDom x.ch[c].eff != some d then { r with foreign := r.foreign + 1 }
    else if period ≤ off then { r with late := r.late + 1 }
    else { r with keep := (r.keep.filter fun e => !(e.ch == c && e.at_ == tk + BitVec.ofNat 64 off)) ++ [{ at_ := tk + BitVec.ofNat 64 off, ch := c, level := v.testBit 43 }] })
    { keep := [], foreign := 0, late := n - 32 }

/-- Inserts an entry in ascending time. -/
def schedInsert (e : Sched) : List Sched → List Sched
  | [] => [e]
  | f :: fs => if e.at_.toNat < f.at_.toNat then e :: f :: fs else f :: schedInsert e fs

/-- The entries of all owners of a group for the period from `tk`. -/
def schedAll (g : GroupId) (tk : Long) (s : State) : SchedRes :=
  allDoms.foldl (fun r d =>
    if domOut d s || domRepeats d s then r
    else match outBlock d g s with
      | none => r
      | some b =>
        let z := schedJudge d s.fg[g] tk (periodTicks s) b
        { keep := z.keep.foldl (fun es e => schedInsert e es) r.keep, foreign := r.foreign + z.foreign, late := r.late + z.late })
    { keep := [], foreign := 0, late := 0 }

/-- OUTPUT_BLOCK_APPLY at T_{k+1} = `tk` (R347 to R349). Entries of the ended period that have not been executed are executed first, at their
own times. -/
def applyOutputs (g : GroupId) (tk : Long) (s : State) : State :=
  if !fgRuns g s then modFg g (fun x => { x with sched := [] }) s
  else
    let s := s.fg[g].sched.foldl (fun s e => modFg g (schedExec e (ringOfs s)) s) s
    let x := s.fg[g]
    let ch := x.ch.mapIdx fun i y => setOut g tk s (Fin.ofNat 8 i) y
    let z := schedAll g tk s
    modFg g (fun _ => setPins (tk + ringOfs s) { x with
      ch := ch
      govl := x.govl && allCh.any fun c => ch[c].ovl
      sched := z.keep
      schForeign := incBy x.schForeign z.foreign
      schLate := incBy x.schLate z.late }) s

/-- What happens to a group at T_k: its block is taken (R344), a restart of its controller that has lasted 40 µs ends (R398), the
configuration takes effect, and its outputs are set. -/
def fieldAtTk (g : GroupId) (tk : Long) (s : State) : State :=
  let done := s.fg[g].restart.any fun t => 40 * tickUs ≤ (tk - t).toNat
  let s := if done then modFg g (fun x => { x with restart := none }) s else s
  let s := modFg g (fun x => { x with block := blockAt x }) s
  let s := if fgRuns g s then modFg g (takeConfig done) s else s
  applyOutputs g tk s

/-- A restart of the group controller (R398): outputs hold their levels, scheduled entries are lost, the permit must qualify again. -/
def fgRestart (g : GroupId) (s : State) : State :=
  modFg g (fun x => setPins (ringTime s) { x with restart := some s.cyc.tb, sched := [], pres := false, edges := 0, edgeAt := none }) s

/-! ## Overload, undervoltage -/

/-- OUTPUT_OVERLOAD (R349). -/
def execOutputOverload (g : GroupId) (c : Fin 8) (s : State) : Meaning := .next <|
  let y := s.fg[g].ch[c]
  if s.fg[g].fpwr && cfgOut y.eff && !y.ovl then
    drivePins g (modFg g (fun x => { x with ovlCnt := inc x.ovlCnt }) (modCh g c (fun y => { y with ovl := true }) s))
  else s

/-- GROUP_OVERLOAD (R349): every output that drives high is switched off. -/
def execGroupOverload (g : GroupId) (s : State) : Meaning := .next <|
  let hi := allCh.filter fun c => cfgOut s.fg[g].ch[c].eff && s.fg[g].ch[c].pin
  if hi.isEmpty then s
  else drivePins g (modFg g (fun x => { x with govl := true, ovlCnt := incBy x.ovlCnt hi.length
                                               ch := x.ch.map fun y => if cfgOut y.eff && y.pin then { y with ovl := true } else y }) s)

/-- LP_UNDERVOLTAGE (R350): L+ falls below its threshold, or is back; `v` is its voltage. -/
def execLpUndervoltage (g : GroupId) (low : Bool) (v : BitVec 16) (s : State) : Meaning := .next <|
  if s.fg[g].fpwr then drivePins g (modFg g (fun x => { x with lpuv := low, lpv := v }) s) else s

/-! ## The permit -/

/-- The conditions under which the Output Guard toggles a group's permit (R351, R64). -/
def permitWanted (g : GroupId) (s : State) : Bool := match permitGroup s.fg[g].pcfg with
  | none => false
  | some p =>
    let v := s.voter.grp[p]
    let pen : Bool := match outBlockAt (groupDom p) g s with
      | none => false
      | some o => (s.doms[groupDom p].voted.getD (o + 2) 0).getLsbD 0
    !inSafe s && !quiet s && s.doms[groupDom p].run && groupMode v != 0 && v.lastEoc && v.eocSince && pen

/-- Half a period of the permit's 1 kHz has passed since its last edge (R351). -/
def toggleDue (g : GroupId) (s : State) : Bool := s.fg[g].toggleAt.all fun t => 500 * tickUs ≤ since t s

/-- PERMIT_TOGGLE (R351): half a period of the square wave; where a condition fails the permit is not toggled. -/
def execPermitToggle (g : GroupId) (s : State) : Meaning := .next <|
  if !permitWanted g s then modFg g (fun x => { x with permitOn := false }) s
  else if toggleDue g s then modFg g (fun x => { x with permitOn := true, permitLevel := !x.permitLevel, toggleAt := some s.cyc.tb }) s
  else s

/-- The permit drops: safety outputs go low (R351). -/
def permitLost (g : GroupId) (s : State) : State := drivePins g (modFg g (fun x => { x with pres := false, edges := 0 }) s)

/-- PERMIT_EDGE (R351): valid at 0.45 to 0.55 ms after the previous edge; after a drop the permit is present again with the fourth valid
edge in a row. -/
def execPermitEdge (g : GroupId) (s : State) : Meaning := .next <|
  if !fgRuns g s then s
  else
    let x := s.fg[g]
    let ok : Bool := x.edgeAt.any fun t => 562500 ≤ since t s && since t s ≤ 687500
    let s := modFg g (fun x => { x with edgeAt := some s.cyc.tb }) s
    if ok then drivePins g (modFg g (fun y => { y with edges := min 4 (x.edges + 1), pres := x.pres || x.edges ≥ 3 }) s)
    else permitLost g s

/-- PERMIT_DROP (R351): no edge for 1.2 ms. -/
def execPermitDrop (g : GroupId) (s : State) : Meaning := .next <|
  if s.fg[g].edgeAt.all fun t => 1200 * tickUs ≤ since t s then modFg g (fun x => { x with edgeAt := none }) (permitLost g s) else s

/-! ## Field-side power -/

/-- A group loses field-side power (R335): the controller stops, every driver is off; the registers keep their contents. -/
def fgPowerLoss (g : GroupId) (s : State) : State :=
  modFg g (fun x => { x with fpwr := false, restart := none, lpuv := false, lpv := 0, govl := false, pres := false, edges := 0, edgeAt := none, sched := []
                             ch := x.ch.map fun c => { c with eff := 0, raw := false, deb := false, run := none, tsR := 0, tsF := 0, ovl := false, cmd := false
                                                              lastChg := none, pin := false } }) s

/-- FIELD_POWER_LOSS. -/
def execFieldPowerLoss (g : GroupId) (s : State) : Meaning := .next (fgPowerLoss g s)

/-- FIELD_POWER_RETURN (R335, R341): the controller starts in its reset configuration; the registers' configuration takes effect at the next T_k. -/
def execFieldPowerReturn (g : GroupId) (s : State) : Meaning := .next <|
  if pdOn .iox s && !s.fg[g].fpwr then modFg g (fun x => { x with fpwr := true }) s else s

/-! ## Configuration writes -/

/-- Sets a bit of FG_ERR: 0 BADVAL, 1 LOCKED, 2 GUARDED. -/
def fgErrSet (b : Nat) (s : State) : State := { s with fgErr := setBit s.fgErr b true }

/-- The rules of R338, with an owner in range. -/
def chCfgBad (pcfg v : Word) : Bool :=
  if !cfgOut v then cfgOwner v != 0
  else if cfgSafety v then match permitGroup pcfg with
    | none => true
    | some p => cfgOwner v != 5 + p.val
  else cfgOwner v == 0 || cfgOwner v == 7

/-- A write of FG_CH (R338, R339). -/
def fgChWriteOp (m : Master) (g : GroupId) (c : Fin 8) (v : Word) (s : State) : State :=
  let x := s.fg[g]
  if m != .outputGuard && (cfgSafety x.ch[c].cfg || cfgSafety v) then fgErrSet 2 s
  else if cfgLocked s then fgErrSet 1 s
  else if chCfgBad x.pcfg v then fgErrSet 0 s
  else modCh g c (fun y => { y with cfg := v &&& 0xFC00FFFF }) s

/-- A write of FG_PCFG (R339). -/
def fgPcfgWriteOp (m : Master) (g : GroupId) (v : Word) (s : State) : State :=
  if m != .outputGuard then fgErrSet 2 s
  else if cfgLocked s then fgErrSet 1 s
  else modFg g (fun x => { x with pcfg := v &&& 3 }) s

/-- FG_CH_WRITE. -/
def execFgChWrite (a : Access) (g : GroupId) (c : Fin 8) (v : Word) (s : State) : Meaning := .next (regAt .iox a.master (fgChWriteOp a.master g c v) s)
/-- FG_PCFG_WRITE. -/
def execFgPcfgWrite (a : Access) (g : GroupId) (v : Word) (s : State) : Meaning := .next (regAt .iox a.master (fgPcfgWriteOp a.master g v) s)

end Sys2Proof.Machine
end

