-- ==== Sys2Proof/Machine/Operands.lean ====
section
/-! DEFINITION. Operand forms of the Nerop instructions: registers, predicates, guards, immediates, special registers, results under way, bit
references and instance addresses (R234 to R244, R260 to R271, R285, R286). -/

namespace Sys2Proof.Machine

/-! ## Registers -/

/-- Reads g0 to g31; g0 reads 0 (R234). -/
def Arch.reg (a : Arch) (r : Reg) : Word := if r = 0 then 0 else a.g[r]
/-- Reads p0 to p7; p0 reads 1 (R234). -/
def Arch.pred (a : Arch) (p : Pred) : Bool := p = 0 || a.p.getLsbD p.val
/-- The guard of an instruction (R241). -/
def guardOn (a : Arch) (h : Hdr) : Bool := a.pred h.pg != h.pn
/-- A sign-extended immediate (R244). -/
def simm (i : BitVec 12) : Word := i.signExtend 32
/-- A zero-extended immediate (R245). -/
def zimm (i : BitVec 12) : Word := i.setWidth 32

/-- Where an accumulator's part lies: its lowest bit and width. -/
def accPartAt : Fin 3 → Nat × Nat
  | 0 => (0, 32) | 1 => (32, 32) | 2 => (64, 8)

/-- Writes a result that has become visible; writes to g0 and p0 are discarded (R234, R286). -/
def Arch.put (a : Arch) (d : Dest) (v : AccWord) : Arch := match d with
  | .g r => if r = 0 then a else { a with g := a.g.set r (v.setWidth 32) }
  | .p p => if p = 0 then a else { a with p := setBit a.p p.val (v.getLsbD 0) }
  | .a n => { a with a := a.a.set n v }
  | .accPart n k =>
    let x := accPartAt k
    let mask : AccWord := BitVec.ofNat 72 ((2 ^ x.2 - 1) * 2 ^ x.1)
    { a with a := a.a.set n ((a.a[n] &&& ~~~mask) ||| ((v <<< x.1) &&& mask)) }
  | .ev => a

/-- One slot passes: the results that become visible are written in program order (R286). -/
def Arch.settle (a : Arch) : Arch :=
  let os := a.opens.map fun o => { o with left := o.left - 1 }
  (os.filter fun o => o.left = 0).foldl (fun x o => x.put o.dest o.val) { a with opens := os.filter fun o => o.left ≠ 0 }

/-- Every result under way completes (R293, R297, R300). -/
def Arch.settleAll (a : Arch) : Arch := a.settle.settle.settle

/-! ## Special registers -/

/-- The writable bits of MODE (R236). -/
def modeMask : Word := 0x307
/-- TRAPSAVE's writable bits (R304). -/
def saveMask : Word := 0x3FFFF
/-- IENA's writable bits (R304). -/
def ienaMask : Word := 0x8000007F

/-- The accumulator and part a special register number names (R238): 0x04 + 3n, 0x05 + 3n, 0x06 + 3n. -/
def accSr (n : Nat) : Option (Acc × Fin 3) := if 4 ≤ n ∧ n < 16 then some (Fin.ofNat 4 ((n - 4) / 3), Fin.ofNat 3 (n - 4)) else none

/-- CORE of R238: the same in both cores of a pair and in all three lanes of a group (R239). -/
def coreWord (c : CoreId) : Word := match pairOf c, laneOf c with
  | some n, _ => pack [(0, 0), (n.val, 4)]
  | none, some (_, k) => pack [(1, 0), (k.val, 4)]
  | none, none => pack [(2, 0)]

/-- The delay of lane C's copies of the counters, in ticks (R239). -/
def laneLag (c : CoreId) : Nat := match laneOf c with | some (l, _) => if l = 2 then 40 else 0 | none => 0

/-- The time base as a core reads it (R239). -/
def tbSeen (c : CoreId) (s : State) : Long := s.cyc.tb - BitVec.ofNat 64 (laneLag c)
/-- CYC_COUNT as a core reads it (R239): lane C sees a new count 40 clocks after T_k. -/
def countSeen (c : CoreId) (s : State) : Long := if since s.cyc.tk s < laneLag c && s.cyc.count ≠ 0 then s.cyc.count - 1 else s.cyc.count

/-- The value MFSR reads (R238, R304). -/
def Arch.sr (a : Arch) (c : CoreId) (n : Nat) (s : State) : Word := match n with
  | 0x00 => a.mode
  | 0x01 => (setBit a.p 0 true).setWidth 32
  | 0x10 => (countSeen c s).setWidth 32
  | 0x11 => a.cycSh
  | 0x12 => (tbSeen c s).setWidth 32
  | 0x13 => a.tbSh
  | 0x14 => coreWord c
  | 0x15 => if a.priv then 1 else 0
  | 0x18 => a.trappc
  | 0x19 => a.trapinst
  | 0x1A => a.trapcause
  | 0x1B => a.trapsave
  | 0x1C => a.tvec
  | 0x1D => a.iena
  | 0x1E => a.ipend
  | 0x1F => a.kscr
  | _ => match accSr n with
    | some (r, 0) => (a.a[r]).setWidth 32
    | some (r, 1) => (a.a[r] >>> 32).setWidth 32
    | some (r, 2) => ((a.a[r] >>> 64).setWidth 8 : BitVec 8).signExtend 32
    | none => 0

/-- A write of a special register at the current privilege (R237, R238, R304). AnL, AnH and AnG go by their distance instead; a register that is
read-only, here or in some field, keeps what it holds. -/
def Arch.setSr (a : Arch) (n : Nat) (v : Word) : Arch := match n with
  | 0x00 => { a with mode := v &&& modeMask }
  | 0x01 => { a with p := setBit (v.setWidth 8) 0 (a.p.getLsbD 0) }
  | 0x18 => { a with trappc := v &&& 0xFFFFFFFC }
  | 0x1B => { a with trapsave := v &&& saveMask }
  | 0x1C => { a with tvec := v &&& 0xFFFFFE00 }
  | 0x1D => { a with iena := v &&& ienaMask }
  | 0x1E => { a with ipend := a.ipend &&& ~~~v }
  | 0x1F => { a with kscr := v }
  | _ => a

/-- A special register that U may not reach (R238). -/
def srK (n : Nat) : Bool := 0x18 ≤ n

/-! ## The executing domain's memory -/

/-- The memory code of a core's domain: standard SRAM for a pair, its own lane's for a lane core; the Steward has no domain. -/
def domMem (c : CoreId) : Option Nat := match pairOf c, laneOf c with
  | some _, _ => some 0
  | none, some (l, _) => some (laneMem l)
  | none, none => none

/-- The image a core runs. -/
def coreImage (c : CoreId) (s : State) : Option Image := (domOf c).bind fun d => s.doms[d].image

/-- The base of a domain's live data region (R379): the image in State is the one as placed. -/
def dataAt (im : Image) : Nat := im.areas.dataBase

/-- The task a core runs, as declared. -/
def runningTask (c : CoreId) (s : State) : Option TaskDecl := match s.cores[c].task, coreImage c s with
  | some t, some im => im.tasks[t.val]?
  | _, _ => none

/-- The byte offset of byte `o` of %I for the task that runs (R50, R261): the private copy of a declared field in a task with n > 1, the
current image otherwise. -/
def inputByte (c : CoreId) (im : Image) (o : Nat) (s : State) : Nat := match runningTask c s with
  | some t => match t.kind with
    | .cyclic n _ => if n > 1 && t.inputs.any (fun r => r.1 ≤ o && o < r.1 + r.2) then t.privBase + o else im.areas.iBase + o
    | _ => im.areas.iBase + o
  | none => im.areas.iBase + o

/-- The byte that holds bit `o` of an area; none at or beyond the area's end (R260, R261). -/
def bitByte (c : CoreId) (area o : Nat) (s : State) : Option Nat := match coreImage c s with
  | none => none
  | some im =>
    let r := im.areas
    if area = 0 then if o / 8 < r.iLen then some (inputByte c im (o / 8) s) else none
    else if area = 1 then if o / 8 < r.qLen then some (r.qBase + o / 8) else none
    else if area = 2 then if o / 8 < r.mLen then some (r.mBase + o / 8) else none
    else none

/-- The byte of the edge memory that holds the companion of bit `o` of an area (R264). -/
def edgeByte (c : CoreId) (area o : Nat) (s : State) : Option Nat := match coreImage c s with
  | none => none
  | some im =>
    let r := im.areas
    (bitByte c area o s).map fun _ => r.edgeBase + (if area = 0 then 0 else if area = 1 then r.iLen else r.iLen + r.qLen) + o / 8

/-- The area and offset a bit reference names (R260). -/
def bitRef (a : Arch) (r : BitRef) : Nat × Nat :=
  if r.area = 3 then
    let v := a.reg (Fin.ofNat 32 r.baddr.toNat)
    (v.toNat / 2 ^ 30, v.toNat % 2 ^ 30)
  else (r.area.val, r.baddr.toNat)

/-- A bit of %Q that carries a command of a point or a signal (R122). -/
def bitMarked (c : CoreId) (o : Nat) (s : State) : Bool := match coreImage c s with
  | some im => im.marked.any fun m => m.1 ≤ o && o < m.1 + m.2
  | none => false

/-- The byte offset of an instance at address `x`: in the domain's %M or data region, of `n` bytes, aligned to `al` (R268, R271). -/
def instAt (c : CoreId) (x : Word) (n al : Nat) (s : State) : Option Nat := match coreImage c s, domMem c, locate (coreMaster c) x.toNat s with
  | some im, some code, .sram k off =>
    let r := im.areas
    let inside (b l : Nat) : Bool := b ≤ off && off + n ≤ b + l
    if k = code && x.toNat % al = 0 && (inside r.mBase r.mLen || inside (dataAt im) r.dataLen) then some off else none
  | _, _, _ => none

end Sys2Proof.Machine
end

