-- ==== Sys2Proof/Machine/Flags.lean ====
section
/-! DEFINITION. Saturation, accumulator overflow, rounding and the sticky flags (R236, R246, R252 to R257). -/

namespace Sys2Proof.Machine

/-- Clamps a signed value to `w` bits: the value and whether it was clamped (R246, R256). -/
def clampS (w : Nat) (x : Int) : Int × Bool :=
  if x < -(2 ^ (w - 1) : Int) then (-(2 ^ (w - 1) : Int), true)
  else if x > (2 ^ (w - 1) : Int) - 1 then ((2 ^ (w - 1) : Int) - 1, true)
  else (x, false)

/-- A saturating 32-bit result and whether it set SATF (R246). -/
def sat32 (x : Int) : Word × Bool := let r := clampS 32 x; (BitVec.ofInt 32 r.1, r.2)

/-- Two 16-bit lanes combined by `f`, each clamped (R246). -/
def lanes16 (f : Int → Int → Int) (x y : Word) : Word × Bool :=
  let lo := clampS 16 (f (x.setWidth 16 : BitVec 16).toInt (y.setWidth 16 : BitVec 16).toInt)
  let hi := clampS 16 (f ((x >>> 16).setWidth 16 : BitVec 16).toInt ((y >>> 16).setWidth 16 : BitVec 16).toInt)
  ((BitVec.ofInt 16 hi.1 ++ BitVec.ofInt 16 lo.1 : BitVec 32), lo.2 || hi.2)

/-- An accumulator's exact result, kept to 72 bits, and whether it sets AOVF (R254). -/
def accFit (x : Int) : AccWord × Bool := (BitVec.ofInt 72 x, decide (x < -(2 ^ 71 : Int)) || decide (x > (2 ^ 71 : Int) - 1))

/-- The rounding modes (R255). -/
inductive Round where
  | rne | rna | rtz | rdn
  deriving DecidableEq, Repr

/-- MODE.RM, or the RM field of an extraction (R236, R249). -/
def roundOf (mode : Word) (rm : Fin 8) : Round :=
  let n := if rm.val = 0 then mode.toNat % 4 else rm.val - 1
  if n = 0 then .rne else if n = 1 then .rna else if n = 2 then .rtz else .rdn

/-- MODE.SAT, or the SAT field of an extraction (R236, R249). -/
def satOf (mode : Word) (sat : Fin 4) : Bool := if sat.val = 0 then mode.getLsbD 2 else sat.val == 1

/-- The rounded value of A with d bits discarded (R255). -/
def roundTo (m : Round) (x : Int) (d : Nat) : Int :=
  if d = 0 then x
  else
    let q := x / 2 ^ d
    let r := x % 2 ^ d
    let h : Int := 2 ^ (d - 1)
    match m with
    | .rne => if r < h then q else if r > h then q + 1 else if q % 2 = 0 then q else q + 1
    | .rna => if r < h then q else if r > h then q + 1 else if x ≥ 0 then q + 1 else q
    | .rtz => if x ≥ 0 || r = 0 then q else q + 1
    | .rdn => q

/-- An extraction (R249, R255, R256): `w` bits of result, `d` bits discarded. Result and whether it sets SATF. -/
def extract (mode : Word) (rm : Fin 8) (sat : Fin 4) (w d : Nat) (a : AccWord) : Word × Bool :=
  let q := roundTo (roundOf mode rm) a.toInt d
  if satOf mode sat then let r := clampS w q; (BitVec.ofInt 32 r.1, r.2)
  else ((BitVec.ofInt w q).signExtend 32, false)

/-- Sets the sticky flags; nothing here clears them (R257). -/
def Arch.flags (a : Arch) (satf aovf : Bool) : Arch :=
  let m := if satf then setBit a.mode 8 true else a.mode
  { a with mode := if aovf then setBit m 9 true else m }

end Sys2Proof.Machine
end

