-- ==== Sys2Proof/Machine/Nerop.lean ====
section
/-! DEFINITION. What an instruction of a Nerop core asks for and what becomes of it: its traps and their entry, interrupts, delay slots, repetition,
retirement, vote points and the state vector (R89, R241, R273 to R278, R284 to R301). -/

namespace Sys2Proof.Machine

/-! ## What an instruction asks for -/

/-- A synchronous trap with the SUB of R304. -/
inductive Trap where
  | emul | priv (sub : Nat) | access (sub : Nat) | illop | illseq (sub : Nat) | memerr (sub : Nat) | swtrap (n : Nat)
  deriving DecidableEq, Repr

/-- Its vector (R295). -/
def Trap.vec : Trap → Nat
  | .emul => 0 | .priv _ => 1 | .access _ => 2 | .illop => 3 | .illseq _ => 4 | .memerr _ => 5 | .swtrap _ => 6
/-- Its SUB (R304). -/
def Trap.sub : Trap → Nat
  | .emul => 0 | .priv n => n | .access n => n | .illop => 0 | .illseq n => n | .memerr n => n | .swtrap n => n

/-- The register effects of an instruction: results with their distances, sticky flags, special registers, and reservation. -/
structure Eff where
  outs : List (Dest × AccWord × Nat) := []
  satf : Bool := false
  aovf : Bool := false
  sr : List (Nat × Word) := []
  cycSh : Option Word := none
  tbSh : Option Word := none
  resv : Option (Option Nat) := none
  deriving DecidableEq, Repr

/-- A masked write within one 8-byte word: byte offset, mask, value (R263). -/
abbrev WordWrite := List (Nat × Byte × Byte)

/-- What an instruction asks for, as each core of a pair computes it (R89). `bits` reads the words `rds`, performs the masked writes in order
and gives `e`, or `lost` where the first write receives WLOST. -/
inductive Act where
  | done (e : Eff)
  | trap (t : Trap)
  | jump (target : Word) (link : Bool)
  | rep (r : Rpt)
  | rte
  | wait
  | mem (op : MemOp) (addr : Word)
  | bits (e : Eff) (code : Nat) (rds : List Nat) (ws : List WordWrite) (lost : Eff)
  | vote (rd : Reg) (v : Word)
  | rmu (op : Fin 3) (rd : Reg) (v : Word)
  deriving DecidableEq, Repr

/-- A result for a g register. -/
def outG (r : Reg) (v : Word) (d : Nat) : Eff := { outs := [(.g r, v.setWidth 72, d)] }
/-- A result for a predicate. -/
def outP (p : Pred) (v : Bool) (d : Nat) : Eff := { outs := [(.p p, BitVec.ofNat 72 (bitOf v), d)] }
/-- A result for an accumulator. -/
def outA (n : Acc) (v : AccWord) : Eff := { outs := [(.a n, v, 2)] }

/-- The KIND of PAIR_STAT for a comparison that fails (R118): 1 REG, 2 ADDR, 3 DATA, 4 PRED, 5 CTRL. -/
def diffKind : Act → Act → Fin 8
  | .done e, .done f => if e.outs.any (fun o => match o.1 with | .p _ => true | _ => false) || f.outs.any (fun o => match o.1 with | .p _ => true | _ => false) then 4 else 1
  | .mem o a, .mem p b => if a ≠ b then 2 else match o, p with | .store _ _, .store _ _ => 3 | .sc _ _, .sc _ _ => 3 | _, _ => 1
  | .bits _ _ r w _, .bits _ _ q v _ => if r ≠ q || w.map (·.map Prod.fst) ≠ v.map (·.map Prod.fst) then 2 else if w ≠ v then 3 else 4
  | .vote _ _, .vote _ _ => 1
  | .rmu _ _ _, .rmu _ _ _ => 1
  | _, _ => 5

/-! ## The end of a slot -/

/-- The register effects of a retired instruction at the end of its slot (R285, R286). -/
def slotEnd (e : Eff) (a : Arch) : Arch :=
  let a : Arch := { a with opens := a.opens ++ e.outs.map fun o => ({ dest := o.1, val := o.2.1, left := o.2.2 } : Open) }
  let a := (a.settle).flags e.satf e.aovf
  let a := e.sr.foldl (fun x w => x.setSr w.1 w.2) a
  { a with retired := a.retired + 1, justRte := false, cycSh := e.cycSh.getD a.cycSh, tbSh := e.tbSh.getD a.tbSh, resv := e.resv.getD a.resv }

/-- The next instruction address: through a repetition, through delay slots, or in address order (R275, R290). -/
def advance (a : Arch) : Arch := match a.rpt with
  | some r =>
    let a := if r.zero then a else { a with g := if r.reg = 0 then a.g else a.g.set r.reg (a.g[r.reg] + r.step) }
    if r.left ≤ 1 then { a with rpt := none, ia := a.ia + 4 } else { a with rpt := some { r with left := r.left - 1, started := true } }
  | none => match a.delay with
    | some (n, t) => if n.val ≤ 1 then { a with delay := none, ia := t } else { a with delay := some (1, t), ia := a.ia + 4 }
    | none => { a with ia := a.ia + 4 }

/-- Retirement of an instruction without a control effect. -/
def retire (c : CoreId) (e : Eff) (s : State) : State := modArch c (fun a => advance (slotEnd e a)) s

/-- A taken branch: two delay slots follow (R290); the link is visible in the next slot. -/
def jumpTo (target : Word) (link : Bool) (a : Arch) : Arch :=
  let e : Eff := if link then outG 31 (a.ia + 12) 1 else {}
  let b := slotEnd e a
  { b with delay := some (2, target), ia := a.ia + 4 }

/-! ## Trap and interrupt entry -/

/-- The trap state as entry writes it (R297). -/
def Arch.enter (a : Arch) (cause : Word) (vec : Nat) (word : Word) : Arch :=
  let ds := a.delay.isSome
  let (rpt, rrem) := match a.rpt with | some r => (true, if r.zero then 0 else r.left) | none => (false, 0)
  let save := pack [(bitOf a.priv, 0), (bitOf (a.iena.getLsbD 31), 1), (1, 2), (bitOf ds, 3), (bitOf rpt, 4), (rrem, 5)]
  let b := a.settleAll
  { b with trappc := a.ia, trapinst := word, trapcause := cause, trapsave := save, priv := true, iena := setBit b.iena 31 false
           resv := none, delay := none, rpt := none, ia := (b.tvec &&& 0xFFFFFE00) + BitVec.ofNat 32 (64 * vec) }

/-- A double trap is not vectored: the core stops (R298). -/
def doubleTrap (c : CoreId) (s : State) : State :=
  let pc := s.cores[c].arch.ia
  match pairOf c, laneOf c with
  | some n, _ => pairFault n (some (6, pc)) 5 s
  | none, some (l, k) => excludeLane l 0x04 (some k) (stopCore c s)
  | none, none => stopCore c s

/-- The lane's bit in a task's record; a pair's core uses bit 0. -/
def laneBit (c : CoreId) : Nat := match laneOf c with | some (l, _) => l.val | none => 0

/-- The task that a core runs ends without completing: its execution in this core is over, and the runtime turns to the next. -/
def endTask (c : CoreId) (s : State) : State :=
  let s := match s.cores[c].task, domOf c with
    | some t, some d => modDom d (fun x => { x with tasks := x.tasks.set t { x.tasks[t] with open_ := setBit x.tasks[t].open_ (laneBit c) false } }) s
    | _, _ => s
  modCore c (fun x => { x with task := none, lsWait := none, resched := true }) s

/-- The handler of a domain's image claims a word that is a reserved encoding (R301). -/
def emulClaimed (c : CoreId) (word : Word) (s : State) : Bool := (coreImage c s).any fun im => im.emul.any fun m => word &&& m.1 == m.2

/-- A trap that no handler serves (R299): unrecoverable at K or in a delay slot, and otherwise the end of the trapping task. After a fetch error in Steward
SRAM, the firmware reloads the line from the Archive (R318). -/
def trapFault (c : CoreId) (t : Trap) (before : Arch) (s : State) : State :=
  let fatal := before.priv || before.delay.isSome
  match pairOf c, laneOf c with
  | some n, _ => pairFault n (some (6, before.ia)) (if fatal then 7 else 4) s
  | none, some (l, k) =>
    if fatal then excludeLane l 0x04 (some k) s
    else modGroup k (fun x => { x with withheld := setBit x.withheld l.val true }) (endTask c s)
  | none, none => match t, locate .steward before.ia.toNat s with
    | .memerr 1, .sram 4 off => clearLine 4 (off / 64) s
    | _, _ => s

/-- What the runtime does with a trap (R299). Software traps are served by their handler, and EMUL by the one that claims the encoding; one that none
claims is treated as ILLOP (R301; log entry 76). -/
def trapHandled (c : CoreId) (t : Trap) (word : Word) (before : Arch) (s : State) : State :=
  match t with
  | .swtrap _ => s
  | .emul => if emulClaimed c word s then s else trapFault c .illop before s
  | t => trapFault c t before s

/-- A synchronous trap (R293, R297 to R299). -/
def takeTrap (c : CoreId) (t : Trap) (word : Word) (s : State) : State :=
  let a := s.cores[c].arch
  if a.trapsave.getLsbD 2 then doubleTrap c s
  else trapHandled c t word a (modArch c (fun x => x.enter (pack [(t.vec, 0), (t.sub, 8)]) t.vec word) s)

/-- The lowest-numbered source that may be taken at the boundary where the core stands (R292, R294, R296). -/
def irqReady (c : CoreId) (s : State) : Option (Fin 7) :=
  let k := s.cores[c]
  let a := k.arch
  let closed := a.opens.isEmpty && a.delay.isNone && a.rpt.all (·.started) && !a.justRte
  if !(a.iena.getLsbD 31) || a.trapsave.getLsbD 2 || !closed then none
  else ([0, 1, 2, 3, 4, 5, 6] : List (Fin 7)).find? fun b =>
    a.iena.getLsbD b.val && a.ipend.getLsbD b.val && k.intTarget.all fun t => t.1 ≠ b || t.2 ≤ a.retired

/-- Some source is pending with its enable bit set (R304). -/
def wakesWait (a : Arch) : Bool := ([0, 1, 2, 3, 4, 5, 6] : List Nat).any fun b => a.iena.getLsbD b && a.ipend.getLsbD b

/-- WAIT ends as soon as some source is pending with its enable bit set (R304). -/
def leaveWait (c : CoreId) (s : State) : State :=
  if s.cores[c].hold == .waitInt && wakesWait s.cores[c].arch then retire c {} (modCore c (fun k => { k with hold := .none }) s) else s

/-- Interrupts are not deferred at the boundary where a core stands, and its target count is reached (R49, R292, R294). A core without a task is in the
runtime itself. -/
def switchReady (c : CoreId) (s : State) : Bool :=
  let k := s.cores[c]
  let a := k.arch
  k.task.isNone || (a.opens.isEmpty && a.delay.isNone && a.rpt.all (·.started) && !a.justRte && a.iena.getLsbD 31 && !a.trapsave.getLsbD 2 &&
    k.hold == .none && k.intTarget.all fun t => t.1 ≠ 0 || t.2 ≤ a.retired)

/-- The core is on, not stopped, and not halted by a debugger, but for a single step (R113, R284). -/
def coreUp (c : CoreId) (s : State) : Bool :=
  let k := s.cores[c]
  pdOn (corePd c) s && !k.stopped && (!k.halted || k.step)

/-- The runtime's release work takes the boundary where the core stands (R39, R49). -/
def switchDue (c : CoreId) (s : State) : Bool := coreUp c s && s.cores[c].resched && switchReady c s

/-- The core issues in its slot: it is up, neither holds (R284) nor waits in LS_RUN (R87), and the runtime does not take the boundary. -/
def coreRuns (c : CoreId) (s : State) : Bool :=
  coreUp c s && s.cores[c].hold == .none && s.cores[c].lsWait.isNone && !switchDue c s

/-! ## The Echo log's replay -/

/-- An Echo entry applied to a core's own registers (R113, R114); HALT, RESUME, STEP, MEMW and breakpoints change none. -/
def echoApply (e : EchoEntry) (a : Arch) : Arch := match e.kind.toNat with
  | 4 => a.put (.g (Fin.ofNat 32 e.target.toNat)) (e.value.setWidth 72)
  | 5 => a.put (.p (Fin.ofNat 8 e.target.toNat)) (e.value.setWidth 72)
  | 6 => { a with a := a.a.set (Fin.ofNat 4 e.target.toNat) (Config.accGuard e.value ++ e.value) }
  | 7 => match accSr e.target.toNat with
    | some (r, k) => a.put (.accPart r k) (e.value.setWidth 72)
    | none => a.setSr e.target.toNat (e.value.setWidth 32)
  | _ => a

/-- The checker replays the entries recorded at its retired count (R113): `false` where it finds itself past an entry. -/
def replay (log : List EchoEntry) (a : Arch) : List EchoEntry × Arch × Bool := match log with
  | [] => ([], a, true)
  | e :: es =>
    let d := (e.count - a.retired.setWidth 32 : Word)
    if d = 0 then replay es (echoApply e a)
    else if d.toNat < 2 ^ 31 then (e :: es, a, true)
    else (e :: es, a, false)

/-- A pair halts by its debugger (R113): HALT is recorded at the count reached; a full log refuses it. -/
def echoHaltAt (n : Fin 4) (s : State) : State :=
  let p := s.pairs[n]
  if 256 ≤ p.log.length then modPair n (fun p => { p with refused := true }) s
  else
    let e : EchoEntry := { kind := 1, target := 0, count := s.cores[pairCore n].arch.retired.setWidth 32, value := 0 }
    modCore (pairCore n) (fun k => { k with halted := true }) (modPair n (fun p => { p with halt := true, log := p.log ++ [e] }) s)

/-- A breakpoint at the instruction that a running pair has reached halts it (R113). -/
def brkCheck (n : Fin 4) (s : State) : State :=
  if s.pairs[n].echo && !s.pairs[n].halt && s.pairs[n].brk.contains s.cores[pairCore n].arch.ia then echoHaltAt n s else s

/-! ## Issue -/

/-- Whether an instruction may not stand in a delay slot or be repeated (R276, R291): branches, RTE, prefixes; and WAIT and TRAP in a delay slot. -/
def isBranch : Instr → Bool
  | .branch _ _ => true | .bl _ _ => true | .jr _ _ => true | .jlr _ _ => true | _ => false
/-- RPTI or RPTR. -/
def isPrefix : Instr → Bool
  | .rpti _ _ _ _ => true | .rptr _ _ _ _ => true | _ => false
/-- RTE. -/
def isRte : Instr → Bool
  | .rte _ => true | _ => false
/-- WAIT or TRAP. -/
def isWaitTrap : Instr → Bool
  | .waitInt _ => true | .trapSw _ _ => true | _ => false
/-- A reserved encoding: the event row, or operands outside their range (R242). -/
def isReserved : Instr → Bool
  | .reservedEncoding _ _ => true | i => !i.wf

/-- The illegal-sequence trap of an instruction (R276, R291), given the guard. -/
def seqTrap (a : Arch) (g : Bool) (i : Instr) : Option Trap :=
  if a.rpt.any (fun r => !r.started) && (isBranch i || isRte i || isPrefix i) then some (.illseq 2)
  else if g && a.delay.isSome then
    if isPrefix i then some (.illseq 2)
    else if isBranch i || isRte i || isWaitTrap i || isReserved i then some (.illseq 1) else none
  else none

/-- What an instruction asks of one core: nothing with guard 0 or a zero count, its illegal-sequence or reserved-encoding trap, or its own
effect (R241, R242, R273, R295). -/
def slotAct (i : Instr) (g : Arch → Bool) (body : Arch → State → Act) (a : Arch) (s : State) : Act :=
  match seqTrap a (g a) i with
  | some t => .trap t
  | none =>
    if !g a || a.rpt.any (fun r => r.zero) then .done {}
    else if isReserved i then .trap .emul else body a s

/-- The same with a trap of the fetch at its place in the order of R295. -/
def slotPick (ft : Option Trap) (i : Instr) (g : Arch → Bool) (body : Arch → State → Act) (a : Arch) (s : State) : Act :=
  match ft with
  | none => slotAct i g body a s
  | some t => match slotAct i g body a s with
    | .trap (.illseq n) => .trap (.illseq n)
    | .trap .emul => .trap .emul
    | .trap (.swtrap n) => .trap (.swtrap n)
    | _ => .trap t

/-- The enabled region of the protection block that an address falls in (R309): its ATTR. -/
def region (p : Prot) (x : Word) : Option Nat :=
  ((List.range 8).find? fun n =>
    p.attr.getLsbD (4 * n) && (p.base.toList.getD n 0).toNat / 64 ≤ x.toNat / 64 && x.toNat / 64 ≤ (p.lim.toList.getD n 0).toNat / 64).map fun n =>
      field p.attr (4 * n) 4

/-- The fetch of an instruction: MEMERR on an uncorrectable line (order 1), PRIV at U outside a code bank (R295, R302, R315). -/
def fetchTrap (c : CoreId) (s : State) : Option (Trap × Bool) × State :=
  let k := s.cores[c]
  let z : Option ErrKind × Bool × State := match locate (coreMaster c) k.arch.ia.toNat s with
    | .sram code off => checkLine c.val code (off / 64) s
    | _ => (none, false, s)
  let t := if z.2.1 then raiseCorrected c z.2.2 else z.2.2
  match z.1 with
  | some _ => (some (.memerr 1, true), t)
  | none =>
    if !k.arch.priv && !((region k.prot k.arch.ia).any fun x => x.testBit 2) then (some (.priv 6, false), t) else (none, t)

/-- Applies a masked write (R263). -/
def maskWrite (c : CoreId) (code : Nat) (w : WordWrite) (s : State) : State :=
  w.foldl (fun s x => store (some c) code x.1 [(readByte code x.1 s &&& ~~~x.2.1) ||| (x.2.2 &&& x.2.1)] s) s

/-- One masked write that may collide (R263, R323): whether it was performed. -/
def maskCollide (c : CoreId) (code : Nat) (w : WordWrite) (meet : Option Meet) (s : State) : Bool × State :=
  let r := collide c.val (storeClass c) code ((w.head?.map fun x => x.1 / 8).getD 0) meet s
  (r.1, if r.1 then maskWrite c code w r.2 else r.2)

/-- Reads words for an instruction: whether one is uncorrectable. -/
def readWords (c : CoreId) (code : Nat) (ws : List Nat) (s : State) : Bool × State :=
  ws.foldl (fun acc w =>
    let r := checkWord c.val code w acc.2
    (acc.1 || r.1.isSome, if r.2.1 then raiseCorrected c r.2.2 else r.2.2)) (false, s)

/-! ## The state vector -/

/-- A list of numbers as bytes of the state vector. -/
def vecNats (ns : List Nat) : List Byte := leBytes 4 ns.length ++ ns.flatMap (leBytes 4)
/-- A value that may be absent. -/
def vecOpt (x : Option Nat) : List Byte := vecNats x.toList
/-- A connection in the state vector. -/
def vecConn (c : ConnSt) : List Byte :=
  vecNats [(match c.mode with | .closed => 0 | .opened => 1 | .failed => 2 | .noRx => 3), c.last.toNat, c.since, c.missing.toNat, c.badhdr.toNat, c.badcrc.toNat,
    c.badmac.toNat, c.repeats.toNat, c.badseq.toNat, bitOf c.fresh, c.seq.toNat, c.startLeft, bitOf c.sentStart, bitOf c.payload.isSome] ++ c.payload.getD []
/-- A route in the state vector. -/
def vecRoute (r : RouteSt) : List Byte :=
  vecNats [(match r.mode with | .idle => 0 | .locked => 1 | .set => 2 | .cleared => 3 | .occupied => 4 | .approachLocked => 5 | .emergency => 6),
    bitOf r.disturbed, bitOf r.overlapDone, bitOf r.flankOk, bitOf r.cancel] ++
    vecOpt r.approach ++ vecOpt r.emergency ++ vecOpt r.overlap ++ vecNats r.body ++ vecNats r.ovl ++ vecNats r.flk ++ vecNats r.passed ++ vecNats r.wasOcc
/-- A point in the state vector. -/
def vecPoint (p : PointSt) : List Byte :=
  vecNats [(match p.det with | .normal => 0 | .reverse => 1 | .none => 2), p.locks, bitOf p.failed] ++ vecOpt (p.want.map bitOf) ++
    vecNats ((p.moving.map fun m => [bitOf m.1, m.2]).getD [])
/-- The interlocking tables in the state vector. -/
def vecIxl (x : Ixl) : List Byte :=
  let occ (o : Occ) : Nat := match o with | .clear => 0 | .occupied => 1 | .unknown => 2
  let ans (a : IxlAnswer) : List Nat := match a with
    | .none => [0] | .granted => [1] | .conflict f => [2, f] | .already => [3] | .badRoute => [4] | .notArmed => [5] | .rmuFault => [6] | .notLocked => [7]
    | .pointLocked => [8] | .routeBusy => [9] | .restartHold => [10] | .failedPoint => [11]
  x.routes.flatMap vecRoute ++ x.points.flatMap vecPoint ++
    x.signals.flatMap (fun z => vecOpt z.aspect ++ vecNats [bitOf z.proceedGood, bitOf z.stopGood]) ++
    vecNats (x.sections.map occ) ++ vecNats (x.prevSections.map occ) ++ vecOpt x.hold ++ vecNats [bitOf x.holdDone, x.slice.val] ++ vecNats (ans x.answer)

/-- What a group's state vector holds in a lane beside the bytes of the data region (R97, R119): the safety connections, and the tables of the
interlocking runtime where the image declares any. R97 and R119 give them no layout; this one is the model's (DESIGN CHOICE; log entry 77). -/
def vecObjects (l : Fin 3) (g : Fin 2) (im : Image) (s : State) : List Byte :=
  s.conns[l][g].flatMap vecConn ++ if im.ixl.isSome then vecIxl s.ixl[l] else []

/-- A group's state-vector CRC-64 in a lane (R97). -/
def stateCrc (l : Fin 3) (g : Fin 2) (s : State) : Long := match s.doms[groupDom g].image with
  | none => 0
  | some im => crc64 (readBytes (laneMem l) (dataAt im) im.areas.dataLen s ++ vecObjects l g im s)

/-- A lane's contribution to a vote point (R96, R98): a member's opens the vote point or joins it, once, and a candidate's waits for its comparison. After a
fault of its solver the runtime withholds the lane's contribution to the next vote point (R87). -/
def contribute (l : Fin 3) (g : Fin 2) (x : Contrib) (s : State) : State :=
  modGroup g (fun v =>
    if v.mute.getLsbD l.val then v
    else if v.members.getLsbD l.val then
      match v.vp with
      | some p => if p.got[l].isSome then v else { v with vp := some { p with got := p.got.set l (some x) } }
      | none => { v with vp := some { kind := x.kind, opened := s.cyc.tb, got := (Vector.replicate 3 none).set l (some x), closed := false } }
    else if v.cand.getLsbD l.val then { v with candGot := v.candGot ++ [x] }
    else v) s

/-- The route conflicts of an RMU operation and its result (R125, R126), with the lane's own lock vector written at once. Which words an operation meets is the
model's choice (DESIGN CHOICE; log entry 69): every operation reads the whole lock vector, CHECK and LOCK the route's whole row too, also of a route that is
already locked, and an error in any of them gives FAULT. -/
def rmuOp (l : Fin 3) (op : Fin 3) (v : Word) (s : State) : Word × State :=
  let r := s.rmus[l]
  let code := laneMem l
  let upd (f : Rmu → Rmu) (s : State) : State := { s with rmus := s.rmus.set l (f s.rmus[l]) }
  let s := upd (fun x => { x with ops := inc x.ops }) s
  let res (o : Nat) (first : Nat) : Word := pack [(v.toNat % 4096, 0), (first, 16), (o, 28)]
  if !r.armed then (res 7 0, upd (fun x => { x with err := setBit x.err 2 true }) s)
  else if v.toNat ≥ r.routes.toNat then (res 6 0, s)
  else
    let n := v.toNat
    let lv := r.lvec.toNat % 2 ^ 24
    let row := r.base.toNat % 2 ^ 24 + 512 * n
    let words := (List.range 64).map fun i => lv / 8 + i
    let z := readWords (laneCore l 0) code (words ++ if op = 2 then [] else (List.range 64).map fun i => row / 8 + i) s
    if z.1 then (res 15 0, laneMemErr code (upd (fun x => { x with err := setBit x.err 0 true }) z.2))
    else
      let s := z.2
      let bit (base i : Nat) : Bool := (readByte code (base + i / 8) s).getLsbD (i % 8)
      let locked := bit lv n
      let setLock (b : Bool) (s : State) : State :=
        store none code (lv + n / 8) [setBit (readByte code (lv + n / 8) s) (n % 8) b] s
      if op = 2 then if locked then (res 4 0, setLock false s) else (res 5 0, s)
      else if locked then (res 3 0, s)
      else match (List.range 4096).find? fun i => i ≠ n && bit row i && bit lv i with
        | some f => (res 2 f, upd (fun x => { x with conf := inc x.conf }) s)
        | none => if op = 1 then (res 1 0, setLock true s) else (res 0 0, s)

/-- What became of a memory access of a core. -/
inductive MemRes where
  | trap (t : Trap) (s : State)
  | held (s : State)
  | ok (e : Eff) (s : State)

/-- Performs what both cores of a pair, or the one core, agreed on. `access` performs loads and stores through the fabric. An access to bit memory
in a bank that sleeps starts the wake (R28), and the instruction stays in its slot. -/
def perform (access : CoreId → MemOp → Word → Option Meet → Word → State → MemRes) (h : Hdr) (word : Word) (x : Act) (s : State) : State :=
  let c := h.core
  match x with
  | .done e => retire c e s
  | .trap t => takeTrap c t word s
  | .jump t link => modArch c (jumpTo t link) s
  | .rep r => modArch c (fun a => { advance (slotEnd {} a) with rpt := some r }) s
  | .rte => modArch c (fun a =>
      let b := slotEnd {} a.settleAll
      let p := a.settleAll
      let pfx : Option Instr := match locate (coreMaster c) (p.trappc - 4).toNat s with
        | .sram code off => decodeNerop c none (readNat code off 4 s)
        | .ext off => decodeNerop c none (readNat 6 off 4 s)
        | _ => none
      let rs : Reg × Word := match pfx with
        | some (.rpti _ rd st _) => (rd, st.signExtend 32)
        | some (.rptr _ rd _ st) => (rd, simm st)
        | _ => (0, 0)
      let left := field p.trapsave 5 13
      { b with priv := p.trapsave.getLsbD 0, iena := setBit p.iena 31 (p.trapsave.getLsbD 1), trapsave := setBit p.trapsave 2 false, ia := p.trappc
               justRte := true, delay := none
               rpt := if p.trapsave.getLsbD 4 && left ≠ 0 then some { left := left, reg := rs.1, step := rs.2, started := true, zero := false } else none }) s
  | .wait => if wakesWait s.cores[c].arch then retire c {} s else modCore c (fun k => { k with hold := .waitInt }) s
  | .mem op addr => match access c op addr h.meet word s with
    | .trap t s => takeTrap c t word s
    | .held s => s
    | .ok e s => retire c e s
  | .bits e code rds ws lost =>
    let z := readWords c code rds s
    match (rds.filterMap fun w => bankOf (.sram code (8 * w))).find? fun b => s.banks[b] != .active with
    | some b => modCore c (fun k => { k with hold := .slot b }) (wakeBank b s)
    | none => if z.1 then
      (match laneOf c with | some _ => laneMemErr code z.2 | none => takeTrap c (.memerr 2) word z.2)
    else
      let s := z.2
      match ws with
      | [] => retire c e s
      | w :: more =>
        let r := maskCollide c code w h.meet s
        let s := match more with
          | [] => r.2
          | w2 :: rest => rest.foldl (fun s w => maskWrite c code w s) (maskCollide c code w2 h.meet2 r.2).2
        retire c (if r.1 then e else lost) s
  | .vote rd v => match laneOf c with
    | none => s
    | some (l, g) =>
      contribute l g { kind := .vote, items := leBytes 4 v.toNat, crc := stateCrc l g s } (modCore c (fun k => { k with hold := .vote rd }) s)
  | .rmu op rd v => match laneOf c with
    | none => s
    | some (l, g) =>
      let z := rmuOp l op v s
      contribute l g { kind := .rmu, items := leBytes 4 z.1.toNat, crc := stateCrc l g z.2 } (modCore c (fun k => { k with hold := .rmu rd op v }) z.2)

end Sys2Proof.Machine
end

