-- ==== Sys2Proof/Machine/Tasks.lean ====
section
/-! DEFINITION. The runtime's work with tasks: input images, status block, releases, private copies, task switches, commits, restarts'
data (R39 to R58, R63, R235, R264, R266, R270). -/

namespace Sys2Proof.Machine

/-! ## Images -/

/-- The memories that hold a domain's data: standard SRAM, or the SRAM of the member and candidate lanes. -/
def domCodes (d : DomId) (s : State) : List Nat := match domGroup d with
  | none => [0]
  | some g => (allLanes.filter fun l => (s.voter.grp[g].members ||| s.voter.grp[g].cand).getLsbD l.val).map laneMem

/-- The memory that stands for the domain: standard SRAM, or the first member lane's. -/
def domCode (d : DomId) (s : State) : Nat := (domCodes d s).headD (if d.val < 4 then 0 else 1)

/-- Writes the same bytes in every memory of a domain. -/
def domWrite (d : DomId) (off : Nat) (bs : List Byte) (s : State) : State := (domCodes d s).foldl (fun s c => store none c off bs s) s

/-- A domain's %I, %Q or %M as it stands. -/
def domRead (d : DomId) (off n : Nat) (s : State) : List Byte := readBytes (domCode d s) off n s

/-- RT of the running cycle (R36, R44): IR_k − T_k, saturated; 0 while the ring is OFF. -/
def returnTime (s : State) : Word :=
  if s.ring.dim == .off then 0
  else match s.cyc.ir with
    | some t => BitVec.ofNat 32 (min (t - s.cyc.tk).toNat 0xFFFFFFFF)
    | none => s.cyc.lastRt

/-- The cycle status block (R44). -/
def statusBlock (d : DomId) (s : State) : List Byte :=
  let x := s.doms[d]
  let dup := match domGroup d with | some g => s.voter.grp[g].dupAt | none => false
  let flags := bitOf x.first + 2 * bitOf s.cyc.irForced + 4 * bitOf (s.ring.dim == .off) + 8 * bitOf x.repeated + 16 * bitOf dup
  leBytes 8 s.cyc.count.toNat ++ leBytes 8 s.cyc.tk.toNat ++ leBytes 4 (returnTime s).toNat ++ leBytes 2 x.skippedRun ++ leBytes 1 flags ++
    leBytes 1 x.ovrRun.toNat ++ leBytes 4 x.ovrSince.toNat ++ leBytes 1 x.rstKind.toNat ++ leBytes 1 x.rstReason.toNat ++ leBytes 2 0

/-- The sources of a domain's input image in one memory, each with its offset in %I, its bytes and whether it can miss a lane (R41, R91): station
status area, field-group blocks, coach input fields and, for a group, the inputs from the standard input window (R23). -/
def inputSources (im : Image) (group : Bool) (s : State) : List (Nat × List Byte) :=
  let coaches := (s.ring.layout.map (·.coaches)).getD []
  (im.statusOff, s.ring.stations.map (·.status)) :: (im.fgIn.map fun x => (x.2, s.fg[x.1].block)) ++
    (im.coachIn.filterMap fun x => ((coaches.zip s.ring.stations).find? fun c => c.1.addr == x.1).map fun c => (x.2, c.2.input)) ++
    (if group then im.winIn.map fun x => (x.2.1, readBytes 0 (0x1FF8000 + x.1) x.2.2 s) else [])

/-- Writes the input image of a domain, from the same sources, in every memory of the domain (R41, R42). -/
def latchInputs (d : DomId) (s : State) : State := match s.doms[d].image with
  | none => s
  | some im => (inputSources im (domGroup d).isSome s).foldl (fun s x => domWrite d (im.areas.iBase + x.1) x.2 s) s

/-- The samples of a group's lanes at IR_k (R91): each lane forms its own from its own paths. Which samples did not reach a lane is free (log entry
71); the spec gives a fault of a lane's path no event of its own. -/
def latchLanes (g : Fin 2) (s : State) : State := match s.doms[groupDom g].image with
  | none => s
  | some im =>
    let n := s.freeCtr
    let lost (l : Nat) : List (Nat × Nat) :=
      ((enum (inputSources im true s)).filter fun x => (Config.sampleLost n (Fin.ofNat 3 l)).testBit x.1).map fun x => (x.2.1, x.2.2.length)
    modGroup g (fun v => { v with lost := #v[lost 0, lost 1, lost 2] }) { latchInputs (groupDom g) s with freeCtr := n + 1 }

/-! ## Task switches -/

/-- Core `c` has an execution of a task that has not completed. -/
def execOpen (c : CoreId) (i : Nat) (s : State) : Bool := match domOf c with
  | some d => (s.doms[d].tasks.toList[i]?).any fun t => t.open_.getLsbD (laneBit c)
  | none => false

/-- An online-change migration step of the domain waits for idle time (R49, R385). -/
def stepWaiting (d : DomId) (s : State) : Bool :=
  let x := s.doms[d].change
  (x.dim == .pending && !x.bulkDone) || (x.dim != .none && !x.recipe && !x.marks.isEmpty)

/-- The task with the best right to core `c` among those with an execution to run (R45, R49); background tasks come last, and not while a migration step
waits. -/
def bestTask (c : CoreId) (s : State) : Option (Fin 16) := match domOf c, coreImage c s with
  | some d, some im =>
    let isBg (x : TaskDecl) : Bool := match x.kind with | .background => true | _ => false
    let ready := (enum im.tasks).filter fun x => execOpen c x.1 s && !(isBg x.2 && stepWaiting d s)
    let key (x : Nat × TaskDecl) : Nat := (if isBg x.2 then 16 else 0) + x.2.prio
    (ready.foldl (fun (b : Option (Nat × TaskDecl)) x => match b with
      | none => some x
      | some y => if key x < key y then some x else some y) none).map fun x => Fin.ofNat 16 x.1
  | _, _ => none

/-- The runtime enters a task at U: it writes TRAPPC and TRAPSAVE and executes RTE (R300). An execution that was preempted resumes with its registers
and its repetition (R235, R278); a fresh one has the registers of the task's last execution, its declared MODE and its entry address. Interrupts are
enabled in a task (DESIGN CHOICE; log entry 72). -/
def enterTask (ctx : Option TaskCtx) (t : TaskDecl) (a : Arch) : Arch :=
  let live := ctx.any (·.live)
  let a := match ctx with
    | some x => { a with g := x.g, p := x.p, a := x.a }
    | none => { a with g := Arch.reset.g, p := Arch.reset.p, a := Arch.reset.a }
  let pc := if live then (ctx.map (·.ia)).getD t.entry else t.entry
  let rpt := if live then ctx.bind (·.rpt) else none
  let left := ((rpt.map (·.left)).getD 0)
  { a with mode := (if live then (ctx.map (·.mode)).getD t.mode else t.mode) &&& modeMask
           priv := false
           iena := setBit a.iena 31 true
           trappc := pc &&& 0xFFFFFFFC
           trapsave := pack [(1, 1), (bitOf rpt.isSome, 4), (left, 5)]
           ia := pc &&& 0xFFFFFFFC
           rpt := rpt
           delay := none
           resv := none
           justRte := true }

/-- A core's registers as the task that ran on it leaves them; the runtime goes on at K, and the reservation is lost (R280, R297). -/
def leaveTask (a : Arch) : Arch := { a with priv := true, rpt := none, resv := none }

/-- The runtime switches core `c` to the task that should run: registers saved and restored (R235, R278, R280, R300). -/
def schedule (c : CoreId) (s : State) : State :=
  let k := s.cores[c]
  let want := bestTask c s
  if want = k.task then s
  else
    let saved := match k.task with
      | some t => { task := t, live := execOpen c t.val s, rpt := k.arch.rpt, lsWait := k.lsWait, g := k.arch.g, p := k.arch.p, a := k.arch.a
                    mode := k.arch.mode, ia := k.arch.ia } :: k.saved.filter fun x => x.task != t
      | none => k.saved
    match want with
    | none => modArch c leaveTask (modCore c (fun x => { x with task := none, saved := saved, lsWait := none }) s)
    | some t =>
      let ctx := saved.find? fun x => x.task == t
      match (coreImage c s).bind fun im => im.tasks[t.val]? with
      | none => s
      | some decl => modArch c (enterTask ctx decl)
          (modCore c (fun x => { x with task := some t, saved := saved.filter fun y => y.task != t, lsWait := ctx.bind fun y => if y.live then y.lsWait else none }) s)

/-! ## Releases -/

/-- Bit `i` of a list of bytes. -/
def bitIn (bs : List Byte) (i : Nat) : Bool := (bs.getD (i / 8) 0).getLsbD (i % 8)

/-- The lanes whose core runs a domain, as a task's record counts them: the member and candidate lanes of a group, bit 0 for a pair. -/
def domLanes (d : DomId) (s : State) : BitVec 3 := match domGroup d with
  | some g => s.voter.grp[g].members ||| s.voter.grp[g].cand
  | none => 1

/-- The memory of a domain's lane. -/
def domLaneMem (d : DomId) (l : Fin 3) : Nat := if d.val < 4 then 0 else laneMem l

/-- The lanes in which a task is due in the running cycle (R46 to R48); `cur` is each lane's image of this cycle. -/
def taskDue (x : Dom) (t : TaskDecl) (ls : BitVec 3) (cur : Fin 3 → List Byte) (count : Nat) : BitVec 3 := match t.kind with
  | .cyclic n off => if count % n == off then ls else 0
  | .event b r f =>
    if x.first then 0
    else ls &&& allLanes.foldl (fun (m : BitVec 3) l =>
      let old := bitIn x.prevIn[l] b
      let new := bitIn (cur l) b
      setBit m l.val ((r && !old && new) || (f && old && !new))) 0
  | .background => ls

/-- The cycle in which a release has its deadline; a background task has none. -/
def taskDeadline (t : TaskDecl) (count : Nat) : Nat := match t.kind with
  | .cyclic n _ => count + n - 1
  | .event _ _ _ => count
  | .background => 2 ^ 64

/-- Whether a task is a background task. -/
def TaskDecl.isBg (t : TaskDecl) : Bool := match t.kind with | .background => true | _ => false
/-- Whether a task is an event task. -/
def TaskDecl.isEvent (t : TaskDecl) : Bool := match t.kind with | .event _ _ _ => true | _ => false

/-- Releases one task in the lanes where it is due: an edge that meets an unfinished release of an event task is merged into it (R47). -/
def releaseTask (t : TaskDecl) (count : Nat) (due : BitVec 3) (x : TaskSt) : TaskSt :=
  let x := if t.isEvent && (x.open_ &&& due) != 0 then { x with merged := inc x.merged } else x
  if due &&& ~~~x.open_ = 0 then x
  else { x with open_ := x.open_ ||| due, primed := true, relCycle := count, deadline := taskDeadline t count }

/-- The lanes of a mask. -/
def lanesIn (m : BitVec 3) : List (Fin 3) := allLanes.filter fun l => m.getLsbD l.val

/-- The private copy of a task with n > 1, made at release in the memories of lanes `ls` (R50). -/
def privateCopy (d : DomId) (im : Image) (t : TaskDecl) (ls : BitVec 3) (s : State) : State := match t.kind with
  | .cyclic n _ =>
    if n > 1 then ((lanesIn ls).map (domLaneMem d)).foldl (fun s c => t.inputs.foldl (fun s r =>
      store none c (t.privBase + r.1) (readBytes c (im.areas.iBase + r.1) r.2 s) s) s) s
    else s
  | _ => s

/-- The solver clears the partition of a domain's solver task at its release, in lanes `ls` (R77). -/
def clearPartition (d : DomId) (im : Image) (task : Nat) (ls : BitVec 3) (s : State) : State :=
  (im.claims.filter fun c => c.tasks.contains task).foldl (fun s c =>
    ((domQueues d s).filter fun x => match domPair d with | some _ => x.1 == c.inst | none => ls.getLsbD x.1.val).foldl (fun s x =>
      match s.solvers[x.1].q[x.2].img with
      | some h => modSolver x.1 (fun v => { v with bits := partClear (partBase x.1 x.2 h.bits) h.bits v.bits }) s
      | none => s) s) s

/-- The companions of %I that a task with n > 1 uses take their values from its release image at its first release (R266). -/
def primeTask (d : DomId) (im : Image) (i : Nat) (t : TaskDecl) (ls : BitVec 3) (s : State) : State := match t.kind with
  | .cyclic n _ =>
    if n ≤ 1 || (s.doms[d].tasks.toList[i]?).any (·.primed) then s
    else ((lanesIn ls).map (domLaneMem d)).foldl (fun s c => (im.edges.filter fun e => e.1 == i && e.2.1 == 0).foldl (fun s e =>
      let o := im.areas.edgeBase + e.2.2 / 8
      let b := (readByte c (im.areas.iBase + e.2.2 / 8) s).getLsbD (e.2.2 % 8)
      store none c o [setBit (readByte c o s) (e.2.2 % 8) b] s) s) s
  | _ => s

/-- Edge memory takes the values of %I, %Q and %M in the first executed cycle (R266). -/
def primeEdges (d : DomId) (im : Image) (s : State) : State :=
  let r := im.areas
  (domCodes d s).foldl (fun s c =>
    store none c r.edgeBase (readBytes c r.iBase r.iLen s ++ readBytes c r.qBase r.qLen s ++ readBytes c r.mBase r.mLen s) s) s

/-- LAST of every listed timer instance takes the current cycle count before the first release after entry to RUN (R270). -/
def primeTimers (d : DomId) (im : Image) (s : State) : State :=
  im.timers.foldl (fun s o => domWrite d o (leBytes 8 s.cyc.count.toNat) s) s

/-- The release of a domain's tasks in the running cycle, at IR_k + 0.1 µs or A_k (R39, R44 to R50, R266): status block, first-cycle work,
due tasks, private copies, cleared partitions; and the RELEASE source (R296). The switches follow with `scheduleSoon`. -/
def releaseDomain (d : DomId) (s : State) : State := match s.doms[d].image with
  | none => s
  | some im =>
    let count := s.cyc.count.toNat
    let s := domWrite d im.areas.iBase (statusBlock d s) s
    let cur (l : Fin 3) : List Byte := readBytes (domLaneMem d l) im.areas.iBase im.areas.iLen s
    let ls := domLanes d s
    let s0 := s
    let s := if s.doms[d].first then primeTimers d im (primeEdges d im s) else s
    let due := (enum im.tasks).map fun x => (x.1, x.2, taskDue s0.doms[d] x.2 ls cur count)
    let s := due.foldl (fun s x =>
      let old := ((s.doms[d].tasks.toList[x.1]?).map (·.open_)).getD 0
      let fresh := x.2.2 &&& ~~~old
      let s := primeTask d im x.1 x.2.1 fresh (privateCopy d im x.2.1 fresh (clearPartition d im x.1 fresh s))
      modDom d (fun y => { y with tasks := y.tasks.mapIdx fun i t => if i = x.1 then releaseTask x.2.1 count x.2.2 t else t }) s) s
    let s := modDom d (fun y => { y with first := false, prevIn := if d.val < 4 then #v[cur 0, [], []] else #v[cur 0, cur 1, cur 2], skippedRun := 0, repeated := false, relAt := some s.cyc.count }) s
    match domGroup d with
      | some g => raiseGroup g 0 (modGroup g (fun v => { v with relAt := some s.cyc.count }) s)
      | none => (domCores d).foldl (fun s c => raiseIrq c 0 s) s

/-- A cycle that a pair skips (R51, R52): the releases that fall in it are lost. -/
def skipCycle (d : DomId) (s : State) : State := match s.doms[d].image with
  | none => s
  | some im =>
    let count := s.cyc.count.toNat
    let s := modDom d (fun y => { y with skipNext := false, skippedRun := y.skippedRun + 1, relAt := some s.cyc.count, tasks := y.tasks.mapIdx fun i t =>
      match im.tasks[i]? with
      | some decl => if !decl.isBg && !decl.isEvent && taskDue y decl 1 (fun _ => []) count != 0 then { t with skipped := inc t.skipped } else t
      | none => t }) s
    (domCores d).foldl (fun s c => raiseIrq c 0 s) s

/-! ## Commits -/

/-- Replaces the bytes that task `t` owns by the memory's %Q (R40, R43). -/
def commitBytes (im : Image) (code t : Nat) (old : List Byte) (s : State) : List Byte :=
  (List.range im.areas.qLen).map fun i =>
    if im.qOwner.any fun o => o.1 == t && o.2.1 ≤ i && i < o.2.1 + o.2.2 then readByte code (im.areas.qBase + i) s else old.getD i 0

/-- A task of a group whose deadline is the running cycle's and that a lane has not completed (R57). -/
def laneDue (d : DomId) (l : Fin 3) (s : State) : Bool :=
  s.doms[d].tasks.toList.any fun t => t.open_.getLsbD l.val && t.deadline ≤ s.cyc.count.toNat

/-! ## A domain's data at a restart -/

/-- Writes the initial values of a domain's variables (R63): (offset, byte) pairs of its memory. -/
def initVars (d : DomId) (im : Image) (s : State) : State := im.init.foldl (fun s x => domWrite d x.1 [x.2] s) s
/-- The Grotto's retention-lost flag clears once a cold restart has initialised the retain area of every pair that holds an image; the record of
a pair without one then matches no program (R327). -/
def grottoSettle (n : Fin 4) (s : State) : State :=
  let s : State := { s with power := { s.power with grInit := setBit s.power.grInit n.val true } }
  if s.power.grLost && allPairs.all fun m => s.doms[pairDom m].image.isNone || s.power.grInit.getLsbD m.val then
    (allPairs.filter fun m => s.doms[pairDom m].image.isNone).foldl (fun s m => modDom (pairDom m) (fun d => { d with retain := none }) s)
      { s with power := { s.power with grLost := false } }
  else s

/-- Initialises a pair's retain area and leaves its record OPEN (R58, R63). -/
def initRetain (n : Fin 4) (im : Image) (s : State) : State :=
  let s := grottoSettle n s
  let s := im.retainInit.foldl (fun s x => store none 5 (retainAt n + x.1) [x.2] s) s
  modDom (pairDom n) (fun x => { x with retain := some { progId := im.id, layoutId := im.layoutId, cycle := s.cyc.count, sealed := false, crc := 0 } }) s

/-- The reason of R61 that governs a pair's restart. -/
def restartReason (n : Fin 4) (host : Bool) (s : State) : Nat :=
  let d := s.doms[pairDom n]
  match d.image with
  | none => 4
  | some im =>
    if !im.warmMode then 1 else if host then 2
    else match d.retain with
      | none => 4
      | some r =>
        if d.change.confirmed.isSome then 5
        else if s.power.grLost then 6
        else if r.progId != im.id || r.layoutId != im.layoutId then 7
        else if !r.sealed then 8
        else
          let lines := (List.range ((im.areas.retainLen + 63) / 64)).map fun i => retainAt n / 64 + i
          if r.crc != crc32c (retainBytes n s) || lines.any fun l => (checkLine 16 5 l s).1.isSome then 9 else 0

end Sys2Proof.Machine
end

