-- ==== Sys2Proof/Machine/Telegram.lean ====
section
/-! DEFINITION. Outgoing safety telegrams and the end-of-cycle contribution: access to the interlocking tables, keys, the gates' fields, what a lane
contributes (R57, R131, R134, R138, R144 to R146, R149). -/

namespace Sys2Proof.Machine

/-! ## Access to declarations and objects -/

/-- The group that carries interlocking work, its image and its declarations (R121): the one whose loaded image declares any. -/
def ixlOf (s : State) : Option (Fin 2 × Image × IxlDecl) :=
  allGroups.findSome? fun g => (s.doms[groupDom g].image).bind fun im => im.ixl.map fun x => (g, im, x)

/-- Updates lane `l`'s interlocking tables. -/
def modIxl (l : Fin 3) (f : Ixl → Ixl) (s : State) : State := { s with ixl := s.ixl.set l (f s.ixl[l]) }
/-- Updates route `r` in lane `l`. -/
def modRoute (l : Fin 3) (r : Nat) (f : RouteSt → RouteSt) (s : State) : State := modIxl l (fun x => { x with routes := setAt x.routes r f }) s
/-- Updates point `p` in lane `l`. -/
def modPoint (l : Fin 3) (p : Nat) (f : PointSt → PointSt) (s : State) : State := modIxl l (fun x => { x with points := setAt x.points p f }) s
/-- Updates connection `k` of a group in lane `l`. -/
def modConn (l : Fin 3) (g : Fin 2) (k : Nat) (f : ConnSt → ConnSt) (s : State) : State :=
  { s with conns := s.conns.set l (s.conns[l].set g (setAt s.conns[l][g] k f)) }

/-- The state of section `i` in lane `l`. -/
def sec (l : Fin 3) (i : Nat) (s : State) : Occ := s.ixl[l].sections.getD i .unknown
/-- A section is proven clear (R132). -/
def provenClear (l : Fin 3) (i : Nat) (s : State) : Bool := sec l i s == .clear

/-- The offset of a connection's key in a lane's SRAM (R145, R312). -/
def keyAt (k : Nat) : Nat := if k < 512 then 0xFFC000 + 32 * k else 0xF70000 + 32 * (k - 512)
/-- A connection's key, in lane `l`'s SRAM. -/
def connKey (l : Fin 3) (k : Nat) (s : State) : List Byte := readBytes (laneMem l) (keyAt k) 32 s

/-- The CRC of a safety telegram over CONN_ID and all bytes before it (R145). -/
def telCrc (id : Word) (body : List Byte) : Word := crc32c (leBytes 4 id.toNat ++ body)
/-- The MAC of a safety telegram. -/
def telMac (key : List Byte) (id : Word) (body : List Byte) : List Byte := (hmac key (leBytes 4 id.toNat ++ body)).take 8

/-- The code of a connection's state in its status entry (R149). -/
def ConnMode.code : ConnMode → Nat
  | .closed => 0 | .opened => 1 | .failed => 2 | .noRx => 3

/-- The 16-byte status entry (R149). -/
def connEntry (d : ConnDecl) (c : ConnSt) : List Byte :=
  let rx := d.receives
  let z (n v : Nat) : List Byte := leBytes n (if rx then v else 0)
  leBytes 1 c.mode.code ++ z 1 (min c.since 255) ++ z 2 c.missing.toNat ++ z 2 c.badhdr.toNat ++ z 2 c.badcrc.toNat ++ z 2 c.badmac.toNat ++
    z 2 c.repeats.toNat ++ z 2 c.badseq.toNat ++ leBytes 1 (bitOf d.sends + 2 * bitOf c.sentStart) ++ [0]

/-- Writes a connection's status entry in lane `l` (R149). R149 gives one entry for each connection and no place for it; both groups' connections of
one number share a place here, and the last writer wins (DESIGN CHOICE; log entry 69). -/
def writeEntry (l : Fin 3) (g : Fin 2) (k : Nat) (d : ConnDecl) (s : State) : State := match s.conns[l][g][k]? with
  | some c => store none (laneMem l) (0xFF8000 + 16 * k) (connEntry d c) s
  | none => s

/-- A telegram (R144 to R146). -/
def telegramOf (d : ConnDecl) (key : List Byte) (start safeTel : Bool) (seq : Word) (p : List Byte) : List Byte :=
  let head := leBytes 1 (1 + 16 * bitOf d.auth + 32 * bitOf start + 64 * bitOf safeTel) ++ leBytes 1 d.plenTx ++ leBytes 2 0 ++ leBytes 4 seq.toNat ++
    (p ++ List.replicate (d.plenTx - p.length) 0).take d.plenTx
  let body := head ++ (if d.auth then telMac key d.connId head else [])
  body ++ leBytes 4 (telCrc d.connId body).toNat

/-- The offset in %Q of a sending connection's payload: 8 bytes into its station's output field. -/
def txOff (im : Image) (d : ConnDecl) : Option Nat := (im.coachOut.find? fun x => x.1 == d.station).map fun x => x.2 + 8

/-- Puts a field into a payload. -/
def putField (f : FieldRef) (v : Nat) (bs : List Byte) : List Byte :=
  let n := leNat bs
  let old := n / 2 ^ f.bit % 2 ^ f.width
  leBytes bs.length (n - old * 2 ^ f.bit + v % 2 ^ f.width * 2 ^ f.bit)

/-- The move gate's conditions hold for a point in lane `l`, so that its field may carry a move in this cycle (R134). -/
def gateOpen (l : Fin 3) (x : IxlDecl) (p : Nat) (s : State) : Bool := match s.ixl[l].points[p]?, x.points[p]? with
  | some q, some d => q.locks = 0 && provenClear l d.sec s && !q.failed && !inSafe s
  | _, _ => false

/-- The payload of connection `k` with the command fields that lane `l`'s gates write (R122, R134, R138). -/
def gateFields (l : Fin 3) (k : Nat) (x : IxlDecl) (s : State) (bs : List Byte) : List Byte :=
  let bs := (enum x.points).foldl (fun bs y =>
    if y.2.cmd.conn ≠ k then bs
    else match (s.ixl[l].points[y.1]?).bind (·.moving) with
      | some (rev, _) => putField y.2.cmd (if !gateOpen l x y.1 s then y.2.cmdNone else if rev then y.2.cmdRev else y.2.cmdNorm) bs
      | none => putField y.2.cmd y.2.cmdNone bs) bs
  (enum x.signals).foldl (fun bs y =>
    if y.2.cmd.conn ≠ k then bs else putField y.2.cmd (((s.ixl[l].signals[y.1]?).bind (·.aspect)).getD y.2.stopVal) bs) bs

/-- Replaces the bytes from `o` upward. -/
def splice (o : Nat) (bs img : List Byte) : List Byte := img.take o ++ (bs.take (img.length - o)) ++ img.drop (o + bs.length)

/-- Step 8's writes in lane `l` (R122): the gates put the command fields of connection `k` into the lane's output image, as it stands and as the lane
has committed it. -/
def gateWrite (l : Fin 3) (g : Fin 2) (im : Image) (x : IxlDecl) (k : Nat) (d : ConnDecl) (s : State) : State := match txOff im d with
  | none => s
  | some o =>
    if !d.sends then s
    else
      let fld := gateFields l k x s
      let s := store none (laneMem l) (im.areas.qBase + o) (fld (readBytes (laneMem l) (im.areas.qBase + o) d.plenTx s)) s
      modGroup g (fun v => { v with commit := v.commit.set l (splice o (fld ((v.commit[l].drop o).take d.plenTx)) v.commit[l]) }) s

/-- The payload that a sending connection carries: its bytes of an output image, in which the gates' fields stand. -/
def txPayloadOf (im : Image) (d : ConnDecl) (img : List Byte) : List Byte :=
  let own := match txOff im d with | some o => (img.drop o).take d.plenTx | none => []
  own ++ List.replicate (d.plenTx - own.length) 0

/-- Step 9 for one sending connection in lane `l` (R146): its next sequence number and START. -/
def telegramNext (l : Fin 3) (g : Fin 2) (k : Nat) (d : ConnDecl) (s : State) : State :=
  if !d.sends then s
  else writeEntry l g k d (modConn l g k (fun c => { c with seq := c.seq + 1, startLeft := c.startLeft - 1, sentStart := decide (c.startLeft > 0) }) s)

/-- The telegram that lane `l` builds from an output image, with the lane's own key. -/
def telegramAt (g : Fin 2) (l : Fin 3) (im : Image) (k : Nat) (d : ConnDecl) (img : List Byte) (s : State) : List Byte := match s.conns[l][g][k]? with
  | some c => if d.sends then telegramOf d (connKey l d.key s) c.sentStart false c.seq (txPayloadOf im d img) else []
  | none => []

/-- The lease-renewal word (R209): EPOCH and the low 32 bits of CYC_NO. -/
def leaseWord (s : State) : List Byte := leBytes 4 (s.cyc.count.toNat % 2 ^ 32) ++ leBytes 4 s.hsb.epoch.toNat

/-- A lane's end-of-cycle contribution (R57): output image, safety-coach contents, lease-renewal word and state CRC. -/
def eocContrib (l : Fin 3) (g : Fin 2) (s : State) : Contrib :=
  let img := s.voter.grp[g].commit[l]
  let tels := match s.doms[groupDom g].image with
    | some im => (enum im.conns).flatMap fun k => telegramAt g l im k.1 k.2 img s
    | none => []
  { kind := .eoc, items := img ++ tels ++ leaseWord s, crc := stateCrc l g s }

/-- A lane gives its end-of-cycle contribution, unless it withholds it (R57, R87, R299, R411). -/
def eocGive (l : Fin 3) (g : Fin 2) (s : State) : State :=
  let v := s.voter.grp[g]
  if v.relAt ≠ some s.cyc.count || v.builtAt ≠ some s.cyc.count || v.eocAt = some s.cyc.count || v.withheld.getLsbD l.val || s.cores[laneCore l g].stopped then s
  else contribute l g (eocContrib l g s) s

/-- The telegrams that a passed vote lets leave (R99, R146), built by lane `l` from the voted image. -/
def settleTelegrams (g : Fin 2) (l : Fin 3) (img : List Byte) (s : State) : State := match s.doms[groupDom g].image with
  | none => s
  | some im => modGroup g (fun v => { v with tels := (enum im.conns).map fun k =>
      { seq := ((s.conns[l][g][k.1]?).map (·.seq)).getD 0, telegram := telegramAt g l im k.1 k.2 img s
        safeTel := ((v.tels[k.1]?).map (·.safeTel)).getD [] } }) s

/-- The safe telegrams that stand ready (R103), by the keys and payloads voted when the group started, with the number after that of the telegram last
sent, or for a connection that has sent none the first of R146 (log entry 70). -/
def readySafe (g : Fin 2) (l : Fin 3) (seqOf : Nat → Word) (s : State) : State := match s.doms[groupDom g].image with
  | none => s
  | some im => modGroup g (fun v => { v with tels := (enum im.conns).map fun k =>
      let old := v.tels.getD k.1 { seq := 0, telegram := [], safeTel := [] }
      { old with safeTel := if k.2.sends then telegramOf k.2 (connKey l k.2.key s) false true (seqOf k.1 + 1) k.2.safePayload else [] } }) s

end Sys2Proof.Machine
end

