-- ==== Sys2Proof/Machine/Voter.lean ====
section
/-! DEFINITION. Vote points: their outcome, the candidate's comparison, joins, agreement's limit (R55, R92 to R101, R106, R108). -/

namespace Sys2Proof.Machine

/-- MMKIND of a vote point's kind (R118). -/
def VoteKind.mm : VoteKind → Byte
  | .eoc => 1 | .rmu => 2 | .vote => 3

/-- The VOT_SAFE cause of an outcome of R99. -/
inductive VoteEnd where
  | pass (x : Contrib) (minority late : List (Fin 3))
  | safe (cause : Nat)
  deriving DecidableEq, Repr

/-- The outcome of a vote point (R99), by the contributions of the member lanes. -/
def voteEnd (ms : List (Fin 3)) (p : VotePoint) : VoteEnd :=
  let got := ms.filterMap fun l => p.got[l].map fun x => (l, x)
  let late := ms.filter fun l => p.got[l].isNone
  if ms.length ≥ 3 then
    if got.length < 2 then .safe 0x02
    else match got.find? fun y => (got.filter fun z => z.2 == y.2).length ≥ 2 with
      | some y => .pass y.2 ((got.filter fun z => z.2 != y.2).map Prod.fst) late
      | none => .safe 0x01
  else match got with
    | [(_, x), (_, y)] => if x == y then .pass x [] late else .safe 0x03
    | _ => .safe 0x04

/-- A core that holds at a vote point goes on with the voted operand (R272) or the voted RMU result (R128) in its register. -/
def resume (c : CoreId) (x : Contrib) (s : State) : State := match s.cores[c].hold, x.kind with
  | .vote rd, .vote => retire c (outG rd (BitVec.ofNat 32 (leNat x.items)) 1) (modCore c (fun k => { k with hold := .none }) s)
  | .rmu rd _ _, .rmu => retire c (outG rd (BitVec.ofNat 32 (leNat x.items)) 1) (modCore c (fun k => { k with hold := .none }) s)
  | _, _ => s

/-- A lane becomes a member of a group (R108): the mode follows, its ladder event is over, its check-ins start anew, and the attempt ends with
JOINED once it is a member of every loaded group, with LANE_DEBUG cleared (R117). -/
def join (l : Fin 3) (g : Fin 2) (s : State) : State :=
  let s := setMembers 2 g (setBit s.voter.grp[g].members l.val true) s
  let s := modGroup g (fun v => { v with cand := setBit v.cand l.val false, withheld := setBit v.withheld l.val false, mute := setBit v.mute l.val false, candGot := [], voted := [] }) s
  let s := modCim (groupDom g) (fun x => { x with pts := x.pts.map fun p => { p with started := setBit p.started l.val false, cnt := p.cnt.set l 0 } }) s
  let s : State := { s with esc := { s.esc with event := setBit s.esc.event (5 + l.val) false } }
  let s := addLog .joined l.val g.val (modReint (fun r => { r with joined := setBit r.joined g.val true }) s)
  if (loadedGroups s).all fun h => s.voter.grp[h].members.getLsbD l.val then
    allGroups.foldl (fun s h => modGroup h (fun v => { v with laneDebug := false }) s) (reintEnd 0x01 s)
  else s

/-- The candidate lanes of a group. -/
def candLanes (g : Fin 2) (s : State) : List (Fin 3) := allLanes.filter fun l => s.voter.grp[g].cand.getLsbD l.val

/-- A candidate's oldest contribution meets the value of the vote point it belongs to (R106, R108): equal, it joins and goes on; different, the attempt
ends with SHADOW_MISMATCH. -/
def candMeets (g : Fin 2) (s : State) : State :=
  let v := s.voter.grp[g]
  match candLanes g s, v.voted, v.candGot with
  | l :: _, (x, _) :: _, y :: _ =>
    if x == y then resume (laneCore l g) x (join l g s)
    else reintEnd 0x06 (modGroup g (fun w => { w with voted := [], candGot := [] }) s)
  | _, _, _ => s

/-- The output image of an end-of-cycle contribution: its items' first bytes (R57). -/
def votedImage (g : Fin 2) (x : Contrib) (s : State) : List Byte :=
  x.items.take ((s.doms[groupDom g].image.map fun im => im.areas.qLen).getD 0)

/-- A duration in executed cycles: ceil(duration ÷ period), at least 1 (R141). -/
def timerCycles (us : Nat) (s : State) : Nat := max 1 ((us * 10 + s.cyc.period.toNat - 1) / max 1 s.cyc.period.toNat)

/-- What a passing end-of-cycle vote point leaves: the voted image, and the voted status window (R23, R39, R311), and after the first
one the restart hold of an interlocking (R141, R151). -/
def eocPassed (g : Fin 2) (x : Contrib) (s : State) : State :=
  let img := votedImage g x s
  let s := settleTelegrams g ((memberLanes g s).headD 0) img s
  let s := modDom (groupDom g) (fun d => { d with voted := img }) s
  let s := match s.doms[groupDom g].image.bind (·.ixl) with
    | some x => if s.voter.grp[g].eocSince then s
                else (memberLanes g s ++ candLanes g s).foldl (fun s l => modIxl l (fun y => { y with hold := some (timerCycles x.holdUs s) }) s) s
    | none => s
  let s := modGroup g (fun v => { v with lastEoc := true, eocSince := true, eocAt := some s.cyc.count }) s
  storeHeld none 0 (0x1FF0000 + 0x4000 * g.val) ((Config.votedStatus g img s.cyc.count).take 0x4000) s

/-- VOT_CFGn.WIN in ticks: the clocks of CLK_CORE from the first contribution to the close of an RMU or VOTE vote point's window (R98, R118). -/
def winTicks (g : Fin 2) (s : State) : Nat := field s.voter.grp[g].cfg 8 16

/-- The vote point of a group completes with what has arrived (R98, R99). `closed` says that the window has closed, so that a candidate whose
contribution is missing counts as differing (R108). -/
def voteResolve (g : Fin 2) (closed : Bool) (s : State) : State := match s.voter.grp[g].vp with
  | none => s
  | some p =>
    let ms := memberLanes g s
    let s := if p.kind == .eoc && ms.any (fun l => p.got[l].isNone) then { s with cyc := { s.cyc with err := setBit s.cyc.err 3 true } } else s
    let s := modGroup g (fun v => { v with vp := none }) s
    match voteEnd ms p with
    | .safe cause => enterSafe cause (some g) (modGroup g (fun v => { v with lastEoc := if p.kind == .eoc then false else v.lastEoc })
        ((ms.filter fun l => p.got[l].isNone).foldl (fun s _ => hsbFault (groupDom g) s) s))
    | .pass x minority late =>
      let s := minority.foldl (fun s l => excludeLane l 0x01 (some g) (modGroup g (fun v => { v with mmkind := p.kind.mm }) (modLane l (fun y => { y with vmin := inc y.vmin }) s))) s
      let s := late.foldl (fun s l => excludeLane l 0x02 (some g) s) s
      let s := if p.kind == .eoc then eocPassed g x s else s
      let s := (memberLanes g s).foldl (fun s l => resume (laneCore l g) x s) s
      if (candLanes g s).isEmpty then s
      else
        let s := modGroup g (fun v => { v with voted := v.voted ++ [(x, p.opened + BitVec.ofNat 64 (winTicks g s))] }) s
        if s.voter.grp[g].candGot.isEmpty then (if closed then reintEnd 0x06 s else s) else candMeets g s

/-- VOTE_POINT_COMPLETE (R98, R99): every member's contribution has arrived. -/
def execVotePointComplete (g : Fin 2) (s : State) : Meaning := .next <|
  match s.voter.grp[g].vp with
  | none => s
  | some p => if (memberLanes g s).all fun l => p.got[l].isSome then voteResolve g false s else s

/-- The window of a completed RMU or VOTE vote point has closed without the candidate's contribution, which then counts as differing (R106, R108). -/
def candLate (g : Fin 2) (s : State) : Bool := match s.voter.grp[g].voted, s.voter.grp[g].candGot with
  | (x, t) :: _, [] => x.kind != .eoc && t.toNat ≤ s.cyc.tb.toNat && s.voter.grp[g].cand != 0
  | _, _ => false

/-- VOTE_WINDOW_CLOSE (R98): VOT_CFGn.WIN clocks after the first contribution of an RMU or VOTE vote point, missing members are late and a missing
candidate counts as differing (R108). -/
def execVoteWindowClose (g : Fin 2) (s : State) : Meaning := .next <|
  let s := if candLate g s then reintEnd 0x06 (modGroup g (fun w => { w with voted := [] }) s) else s
  match s.voter.grp[g].vp with
  | some p => if p.kind == .eoc || s.cyc.tb.toNat < p.opened.toNat + winTicks g s then s else voteResolve g true s
  | none => s

/-- An end-of-cycle vote point without a contribution yet. -/
def emptyEoc (g : Fin 2) (s : State) : State :=
  modGroup g (fun w => { w with vp := some { kind := .eoc, opened := s.cyc.tb, got := .replicate 3 none, closed := true } }) s

/-- The end-of-cycle vote point at the output deadline (R55, R98, R99): it completes with what has arrived, and with nothing it is late. -/
def eocDeadline (g : Fin 2) (s : State) : State :=
  let v := s.voter.grp[g]
  if !s.doms[groupDom g].run || popc 3 v.members.toNat < 2 then s
  else if v.eocAt = some s.cyc.count then
    (if (v.voted.any fun x => x.1.kind == .eoc) && v.cand ≠ 0 then reintEnd 0x06 (modGroup g (fun w => { w with voted := [] }) s) else s)
  else if v.relAt ≠ some s.cyc.count then s
  else match v.vp with
    | some p => if p.kind == .eoc then voteResolve g true s else voteResolve g true (emptyEoc g (voteResolve g true s))
    | none => voteResolve g true (emptyEoc g s)

/-- CANDIDATE_COMPARE (R106): a candidate's contribution that arrived after the vote point completed meets the voted result. -/
def execCandidateCompare (g : Fin 2) (s : State) : Meaning := .next (candMeets g s)

/-- AGREEMENT_LIMIT (R95): the lane has been in the minority in AGRLIM executed cycles in a row; not while the group is DUPLEX. -/
def execAgreementLimit (g : Fin 2) (l : Fin 3) (s : State) : Meaning := .next <|
  let v := s.voter.grp[g]
  if groupMode v = 2 && v.members.getLsbD l.val && field v.cfg 0 8 ≤ v.agr[l] && field v.cfg 0 8 ≠ 0 then
    excludeLane l 0x03 (some g) (modGroup g (fun w => { w with mmkind := 4 }) s)
  else s

end Sys2Proof.Machine
end

