-- ==== Sys2Proof/Machine/Reint.lean ====
section
/-! DEFINITION. Requests to VOT_REQ, the phases of a reintegration, which lanes qualify for a start (R105 to R117, R482, R529). -/

namespace Sys2Proof.Machine

/-! ## Lanes that qualify -/

/-- A lane qualifies for a start (R482). -/
def qualifies (l : Fin 3) (s : State) : Bool :=
  let v := s.voter.lane[l]
  pdOn (lanePd l) s && v.pll && v.bistOk && !v.debug && v.scopeCause == 0

/-- The members with which a group would start: none where fewer than two lanes qualify. -/
def startMembers (s : State) : BitVec 3 :=
  let ls := allLanes.filter fun l => qualifies l s
  if ls.length < 2 then 0 else ls.foldl (fun b l => setBit b l.val true) 0

/-- While the operating dimension is STOP or SERVICE, each loaded group shows the lanes with which it would start (R482). -/
def showGroups (s : State) : State :=
  if s.arb.oper == .stop || s.arb.oper == .service then
    allGroups.foldl (fun s g =>
      let m := if s.doms[groupDom g].image.isSome then startMembers s else 0
      if s.voter.grp[g].members = m then s else setMembers 2 g m s) s
  else s

/-! ## Requests -/

/-- Attempts started in the preceding 60 min (R105, R118). -/
def reintAttempts (s : State) : List Long := s.voter.reint.starts.filter fun t => since t s < 3600 * tickS

/-- Powering down lane `l` would leave some loaded group with fewer than two members (R105). -/
def wouldStrand (l : Fin 3) (s : State) : Bool :=
  (loadedGroups s).any fun g => popc 3 (setBit s.voter.grp[g].members l.val false).toNat < 2

/-- Why a start is refused (R105), the first reason of its table. -/
def reintRefusal (l : Fin 3) (s : State) : Option (Nat × String) :=
  if (reintAttempts s).length ≥ 3 then some (0x02, "REINT_LIMIT")
  else if wouldStrand l s then some (0x03, "REINT_BLOCKED")
  else if (loadedGroups s).any fun g => s.doms[groupDom g].change.dim != .none then some (0x04, "REINT_CHANGE")
  else if s.voter.reint.phase ≠ 0 then some (0x05, "REINT_BUSY")
  else if (loadedGroups s).all fun g => s.voter.grp[g].members.getLsbD l.val then some (0x06, "LANE_NOT_OUT")
  else if s.voter.lane[l].debug then some (0x0A, "DEBUG_ATTACHED")
  else if inSafe s then some (0x0B, "IN_SAFE") else none

/-- Why an attachment is refused (R115). -/
def attachRefusal (l : Fin 3) (s : State) : Option (Nat × String) :=
  if s.arb.key != .service then some (0x08, "DEBUG_KEY")
  else if dbgClosed s then some (0x09, "DEBUG_FUSE")
  else if s.voter.reint.phase ≠ 0 then some (0x05, "REINT_BUSY")
  else if !(loadedGroups s).all fun g => groupMode s.voter.grp[g] = 2 && s.voter.grp[g].members.getLsbD l.val then some (0x07, "WOULD_SAFE")
  else if inSafe s then some (0x0B, "IN_SAFE") else none

/-- Why MAINT_OUT is refused (R529). -/
def maintRefusal (l : Fin 3) (s : State) : Option (Nat × String) :=
  if inSafe s then some (0x0B, "IN_SAFE")
  else if s.voter.reint.phase ≠ 0 then some (0x05, "REINT_BUSY")
  else if wouldStrand l s then some (0x07, "WOULD_SAFE") else none

/-- Admits a start: it begins at the next cycle boundary (R106). -/
def reintAdmit (l : Fin 3) (auto : Bool) (s : State) : State :=
  modReint (fun r => { r with lane := Fin.ofNat 4 (l.val + 1), phase := 1, auto := auto, autoWant := setBit r.autoWant l.val false, off := false
                              back := false, copied := 0, clean := 0, joined := 0, since := 0, dirty := [], diff := [] }) s

/-- A lane is a member of no group. -/
def laneOut (l : Fin 3) (s : State) : Bool := allGroups.all fun g => !s.voter.grp[g].members.getLsbD l.val

/-- The effect of MAINT_OUT (R529). -/
def maintEffect (l : Fin 3) (s : State) : State :=
  if laneOut l s then
    addLog .maint l.val 9 (modReint (fun r => { r with autoWant := setBit r.autoWant l.val false })
      (modLane l (fun x => { x with xcause := 9, scopeCause := 9 }) s))
  else excludeLane l 0x09 none s

/-- The effect of DEBUG_ATTACH (R116). -/
def attachEffect (l : Fin 3) (s : State) : State :=
  let s := excludeLane l 0x08 none (modLane l (fun x => { x with debug := true }) s)
  let s := (loadedGroups s).foldl (fun s g => modGroup g (fun v => { v with laneDebug := true }) s) s
  showGroups (addLog .laneDebug l.val 0 (ringEvent 2 (l.val + 1) s))

/-- The effect of DEBUG_DETACH (R117): the lane stays out. -/
def detachEffect (l : Fin 3) (s : State) : State :=
  if s.voter.lane[l].debug then
    [0, 1].foldl (fun s (k : Fin 2) => modCore (laneCore l k) (fun c => { c with halted := false, stopped := true }) s) (modLane l (fun x => { x with debug := false }) s)
  else s

/-- Ends every attachment: S1 leaves SERVICE, or the debug fuse closes (R117, R503). -/
def detachAll (s : State) : State := allLanes.foldl (fun s l => detachEffect l s) s

/-- What a request asks for: OP of VOT_REQ with the refusal check and the effect. -/
inductive VotOp where
  | reint | maintOut | abort | attach | detach
  deriving DecidableEq, Repr

/-- Evaluates a request (R529): what refuses it, or the state after it is admitted. -/
def voterCheck (op : VotOp) (lane : Fin 4) (s : State) : Option (Nat × String) :=
  match op with
  | .abort => none
  | _ => if lane = 0 then some (0x01, "BADOP")
         else
           let l : Fin 3 := Fin.ofNat 3 (lane.val - 1)
           match op with
           | .reint => reintRefusal l s
           | .maintOut => maintRefusal l s
           | .attach => attachRefusal l s
           | .abort => none
           | .detach => none

/-- The effect of an admitted request. -/
def voterEffect (op : VotOp) (lane : Fin 4) (s : State) : State :=
  let l : Fin 3 := Fin.ofNat 3 (lane.val - 1)
  match op with
  | .reint => reintAdmit l false s
  | .maintOut => maintEffect l s
  | .abort => reintEnd 0x07 s
  | .attach => attachEffect l s
  | .detach => detachEffect l s

/-- Records a refusal of a request in VOT_REQSTAT, or that it was admitted. -/
def voterStat (code : Nat) (s : State) : State :=
  { s with voter := { s.voter with reqReason := BitVec.ofNat 8 code, reqRefused := code ≠ 0 } }

/-- A request through VOT_REQ (R118, R529), ignored while BUSY is 1. -/
def voterRequest (op : VotOp) (lane : Fin 4) (s : State) : Option (Nat × String) × State :=
  if s.voter.reqBusy then (none, s)
  else match voterCheck op lane s with
    | some e => (some e, voterStat e.1 s)
    | none => (none, voterEffect op lane (voterStat 0 s))

/-- REINT (R105). -/
def execReint (_ : ReqSrc) (lane : Fin 4) (s : State) : Meaning := .next (voterRequest .reint lane s).2
/-- MAINT_OUT (R529). -/
def execMaintOut (_ : ReqSrc) (lane : Fin 4) (s : State) : Meaning := .next (voterRequest .maintOut lane s).2
/-- ABORT_REINT (R109). -/
def execAbortReint (_ : ReqSrc) (lane : Fin 4) (s : State) : Meaning := .next (voterRequest .abort lane s).2
/-- DEBUG_ATTACH (R116). -/
def execDebugAttach (_ : ReqSrc) (lane : Fin 4) (s : State) : Meaning := .next (voterRequest .attach lane s).2
/-- DEBUG_DETACH (R117). -/
def execDebugDetach (_ : ReqSrc) (lane : Fin 4) (s : State) : Meaning := .next (voterRequest .detach lane s).2

/-! ## The phases -/

/-- The lane under reintegration. -/
def reintLane (s : State) : Fin 3 := Fin.ofNat 3 (s.voter.reint.lane.val - 1)

/-- REINT_AUTO_START (R105): at a cycle boundary after an exclusion, with AUTOREINT in every loaded group and a cause other than DEBUG and MAINT. -/
def execReintAutoStart (s : State) : Meaning := .next <|
  let ready := allLanes.filter fun l => s.voter.reint.autoWant.getLsbD l.val && s.voter.lane[l].xcause != 8 && s.voter.lane[l].xcause != 9 &&
    s.voter.lane[l].scopeCause != 8 && s.voter.lane[l].scopeCause != 9
  if !((loadedGroups s).all fun g => s.voter.grp[g].cfg.getLsbD 31) then s
  else match ready with
    | [] => s
    | l :: _ => match reintRefusal l s with
      | some e => voterStat e.1 s
      | none => reintAdmit l true (voterStat 0 s)

/-- Switching a lane's domain off: its memory, cores, solver and RMU lose their contents (R27, R88). -/
def laneOff (l : Fin 3) (s : State) : State :=
  let s := clearMem (laneMem l) (setPd (lanePd l) false s)
  let s := modLane l (fun x => { x with pll := false, bistOk := false, debug := false }) s
  let s := [0, 1].foldl (fun s (k : Fin 2) => modCore (laneCore l k) (fun _ => Core.reset false true) s) s
  let drop := fun (k : Nat) => k != laneMem l
  { s with solvers := s.solvers.set l.val .reset, rmus := s.rmus.set l .reset
           boot := { s.boot with laneLock := setBit s.boot.laneLock l.val false }
           memErrs := { s.memErrs with flips := s.memErrs.flips.filter fun f => drop f.1, side := s.memErrs.side.filter fun f => drop f.1
                                       outer := s.memErrs.outer.filter fun f => drop f.1, poison := s.memErrs.poison.filter fun f => drop f.1 } }

/-- REINT_POWER_DOWN (R106): the check of REINT_BLOCKED again, then the lane leaves its groups and its domain is off for 1 ms. -/
def execReintPowerDown (s : State) : Meaning := .next <|
  let r := s.voter.reint
  let l := reintLane s
  if r.phase ≠ 1 || r.off || r.back then s
  else if wouldStrand l s then modReint (fun x => { x with autoWant := setBit x.autoWant l.val r.auto }) (reintEnd 0x09 s)
  else
    let s := allGroups.foldl (fun s g =>
      if s.voter.grp[g].members.getLsbD l.val then
        dropLane l g (modGroup g (fun v => { v with agr := .replicate 3 0 }) (setMembers 2 g (setBit s.voter.grp[g].members l.val false) s))
      else s) s
    modReint (fun x => { x with off := true, starts := reintAttempts s ++ [s.cyc.tb] }) (laneOff l s)

/-- REINT_POWER_ON (R106): after 1 ms. -/
def execReintPowerOn (s : State) : Meaning := .next <|
  let r := s.voter.reint
  let l := reintLane s
  if r.phase ≠ 1 || !r.off then s
  else modReint (fun x => { x with off := false, back := true }) (setPd (lanePd l) true s)

/-- REINT_PLL_LOCK (R106): the lane's PLL locks and its clock monitor passes within 200 µs, or CLOCK_FAIL. -/
def execReintPllLock (ok : Bool) (s : State) : Meaning := .next <|
  let r := s.voter.reint
  let l := reintLane s
  if r.phase ≠ 1 || !r.back then s
  else if !ok then reintEnd 0x03 s
  else modReint (fun x => { x with phase := 2 }) (modLane l (fun x => { x with pll := true })
    { s with boot := { s.boot with laneLock := setBit s.boot.laneLock l.val true } })

/-- REINT_BIST_DONE (R106): BIST passes and the bulk copy begins, or BIST_FAIL. -/
def execReintBistDone (ok : Bool) (s : State) : Meaning := .next <|
  let l := reintLane s
  if s.voter.reint.phase ≠ 2 then s
  else if !ok then reintEnd 0x02 s
  else modReint (fun x => { x with phase := 3, copied := 0, dirty := [], diff := [] }) (modLane l (fun x => { x with bistOk := true, scopeCause := 0 }) s)

/-- The lines of a group's data region, as the first and the one after the last. -/
def regionLines (g : Fin 2) (s : State) : Nat × Nat := match s.doms[groupDom g].image with
  | none => (0, 0)
  | some im => (dataAt im / 64, (dataAt im + im.areas.dataLen + 63) / 64)

/-- The copy region a line lies in: 0 TX0's data region, 1 TX1's, 2 everything else. -/
def regionOf (line : Nat) (s : State) : Fin 3 :=
  let a := regionLines 0 s
  let b := regionLines 1 s
  if a.1 ≤ line && line < a.2 then 0 else if b.1 ≤ line && line < b.2 then 1 else 2

/-- The bytes of a line. -/
def lineBytes (code line : Nat) (s : State) : List Byte := readBytes code (line * 64) 64 s

/-- The lines of a memory that hold a byte other than 0. -/
def usedLines (code : Nat) (s : State) : List Nat :=
  ((s.mem.filter fun c => memKey code 0 ≤ c.1 && c.1 < memKey (code + 1) 0).map fun c => (c.1 - memKey code 0) / 64).dedup

/-- The copier reads each line from both running lanes and writes it only where the two copies agree (R107): the state after, and the lines
that differ. -/
def copyLines (l : Fin 3) (lines : List Nat) (s : State) : State × List Nat := match allLanes.filter (· ≠ l) with
  | a :: b :: _ => lines.foldl (fun acc n =>
      let x := lineBytes (laneMem a) n acc.1
      if x = lineBytes (laneMem b) n acc.1 then (clearLine (laneMem l) n (writeBytes (laneMem l) (n * 64) x acc.1), acc.2) else (acc.1, acc.2 ++ [n])) (s, [])
  | _ => (s, lines)

/-- After a pass over some lines: those that differ stay dirty and are counted, and a line that differs in 3 passes in a row ends the attempt
with SOURCE_DIFF. -/
def afterPass (done differ : List Nat) (s : State) : State :=
  let r := s.voter.reint
  let count (n : Nat) : Nat := ((r.diff.find? fun d => d.1 == n).map Prod.snd).getD 0
  let diff := (r.diff.filter fun d => !done.contains d.1) ++ differ.map fun n => (n, count n + 1)
  let s := modReint (fun x => { x with diff := diff, dirty := (x.dirty.filter fun n => !done.contains n) ++ differ }) s
  if diff.any fun d => d.2 ≥ 3 then reintEnd 0x05 s else s

/-- REINT_COPY_DONE (R106, R107): the bulk copy of a region ends (0 and 1 the groups' data regions, 2 all other lines). -/
def execReintCopyDone (region : Fin 3) (s : State) : Meaning := .next <|
  let r := s.voter.reint
  let l := reintLane s
  if r.phase ≠ 3 || r.copied.getLsbD region.val then s
  else
    let all := (allLanes.flatMap fun k => usedLines (laneMem k) s).dedup
    let lines := all.filter fun n => regionOf n s == region
    let z := copyLines l lines s
    let s := modReint (fun x => { x with copied := setBit x.copied region.val true, dirty := x.dirty.filter fun n => regionOf n s != region }) z.1
    let s := afterPass lines z.2 s
    let want := (2 : Nat) :: (loadedGroups s).map fun g => g.val
    if s.voter.reint.phase = 3 && want.all fun n => s.voter.reint.copied.getLsbD n then modReint (fun x => { x with phase := 4, since := 0 }) s else s

/-- REINT_REGION_CLEAN (R106): at the end of a group's idle time the dirty lines of its region and all others outside every region have been
copied again, and none is left. A region can become clean only after the bulk copy of the whole lane, not after its own region's alone (DESIGN CHOICE;
log entry 69). -/
def execReintRegionClean (g : Fin 2) (s : State) : Meaning := .next <|
  let r := s.voter.reint
  let l := reintLane s
  if !(r.phase = 4 || r.phase = 5) || s.doms[groupDom g].image.isNone || r.clean.getLsbD g.val then s
  else
    let lines := r.dirty.filter fun n => let k := regionOf n s; k.val == g.val || k == 2
    let z := copyLines l lines s
    let s := afterPass lines z.2 z.1
    if s.voter.reint.phase ≠ 0 && z.2.isEmpty then modReint (fun x => { x with clean := setBit x.clean g.val true }) s else s

/-- COPY_NOCONV (R107): a region is not clean within 64 cycles after the bulk copy. -/
def execCopyNoconv (g : Fin 2) (s : State) : Meaning := .next <|
  let r := s.voter.reint
  if (r.phase = 4 || r.phase = 5) && s.doms[groupDom g].image.isSome && !r.clean.getLsbD g.val && r.since ≥ 64 then reintEnd 0x04 s else s

/-- The dirty lines that keep a region from counting as clean (R106): its own, but for those of the input image, which the candidate receives anew, and every
line outside the regions. -/
def uncleanLines (g : Fin 2) (s : State) : List Nat :=
  let inputs (n : Nat) : Bool := (s.doms[groupDom g].image).any fun im => im.areas.iBase / 64 ≤ n && 64 * n < im.areas.iBase + im.areas.iLen
  s.voter.reint.dirty.filter fun n => let k := regionOf n s; k == 2 || (k.val == g.val && !inputs n)

/-- What of a lane's work in a group stands beside its memory, as lane `l` takes it over from member `m`: the core, the solver queue, the input image, and
the objects of the state vector, with the RMU's registers in the group that carries interlocking work. -/
def takeOver (g : Fin 2) (m l : Fin 3) (s : State) : State :=
  let s := modCore (laneCore l g) (fun _ => s.cores[laneCore m g]) s
  let q := s.solvers[(⟨m.val, by omega⟩ : Fin 5)].q[g]
  let s := modQueue ⟨l.val, by omega⟩ g (fun _ => { q with run := none, queued := none }) s
  let s := match s.doms[groupDom g].image with
    | some im => store none (laneMem l) im.areas.iBase (readBytes (laneMem m) im.areas.iBase im.areas.iLen s) s
    | none => s
  let own := (ixlOf s).any fun x => x.1 == g
  { s with rmus := if own then s.rmus.set l s.rmus[m] else s.rmus
           ixl := if own then s.ixl.set l s.ixl[m] else s.ixl
           conns := s.conns.set l (s.conns[l].set g s.conns[m][g]) }

/-- From the next release A_k after its region is clean, the lane's core runs as a candidate (R106). It starts from the state that the members
share (log entry 74). Where a line has become dirty since, the region is no longer clean. -/
def startCandidate (g : Fin 2) (s : State) : State :=
  let r := s.voter.reint
  let l := reintLane s
  if !(r.phase = 4 || r.phase = 5) || !r.clean.getLsbD g.val || r.joined.getLsbD g.val || s.voter.grp[g].cand.getLsbD l.val then s
  else match memberLanes g s with
    | [] => s
    | m :: _ =>
      if !(uncleanLines g s).isEmpty then modReint (fun x => { x with clean := setBit x.clean g.val false }) s
      else
        let opened (t : TaskSt) : TaskSt := { t with open_ := setBit t.open_ l.val (t.open_.getLsbD m.val) }
        let s := modDom (groupDom g) (fun d => { d with tasks := d.tasks.map opened, prevIn := d.prevIn.set l d.prevIn[m] }) (takeOver g m l s)
        let s := modGroup g (fun v => { v with cand := setBit v.cand l.val true, candGot := [], voted := [], withheld := setBit v.withheld l.val false
                                               mute := setBit v.mute l.val false, commit := v.commit.set l v.commit[m] }) s
        modReint (fun x => { x with phase := 5 }) s

end Sys2Proof.Machine
end

