-- ==== Sys2Proof/Machine/SolverCmds.lean ====
section
/-! DEFINITION. The Logic Solver's commands: START, ABORT, LOAD, UNLOAD, the end of a run, the bit-file window (R65 to R88). -/

namespace Sys2Proof.Machine

/-- The master index a solver reads with (R333). -/
def lsWho (i : Fin 5) : Nat := match lsLane i with | some _ => 15 | none => 10 + i.val

/-- Checks a core's access to an instance: its queue, or the answer the access completes with (R28, R65, R68, R87). -/
def lsReach (c : CoreId) (i : Fin 5) (s : State) : Except Resp (Fin 2) :=
  match lsLane i, laneOf c with
  | some l, some (m, k) => if l = m then (if pdOn (lsPd i) s then .ok k else .error .domOff) else .error .noPath
  | none, _ => if !pdOn (lsPd i) s then .error .domOff else match lsQueueOf c i s with | some k => .ok k | none => .error .noPath
  | _, _ => .error .noPath

/-- Makes a core's access to an instance, or answers why it has none. -/
def lsBy (c : CoreId) (i : Fin 5) (f : Fin 2 → State → State) (s : State) : State := match lsReach c i s with
  | .ok k => answer .ok 0 (f k s)
  | .error r => answer r 0 (countAf (coreMaster c) s)

/-- The runtime's treatment of a solver fault, or of a START refused (R87): PAIR_FAULT with KIND SOLVER and address 0 (R90), or the lane's contribution
withheld. -/
def lsFaultHandled (i : Fin 5) (k : Fin 2) (s : State) : State := match lsLane i with
  | some l => modGroup k (fun v => { v with withheld := setBit v.withheld l.val true, mute := setBit v.mute l.val true }) s
  | none => match s.solvers[i].claim with
    | some n => pairFaultKind n 7 0 s
    | none => s

/-- A run ends with a fault (R86). -/
def lsFault (i : Fin 5) (k : Fin 2) (code : Nat) (s : State) : State :=
  let s := modQueue i k (fun q => { q with run := none, fault := true, done := false, aborted := false, fcode := BitVec.ofNat 8 code, faults := inc q.faults }) s
  let s := match lsCore i k s with | some c => raiseIrq c 3 s | none => s
  lsFaultHandled i k (lsEnded i k s)

/-! ## START and ABORT -/

/-- The task that has started a run waits for its end in LS_RUN (R87). -/
def lsAwait (i : Fin 5) (k : Fin 2) (s : State) : State := match lsCore i k s with
  | none => s
  | some c => modCore c (fun x => { x with lsWait := if x.task.isSome then some i else x.lsWait }) s

/-- An accepted START (R79): the run begins, or waits behind the other core's; of two in one clock core 0's runs first. -/
def lsBegin (i : Fin 5) (k : Fin 2) (h : NetHdr) (e : Nat) (s : State) : State :=
  let run (s : State) : State := modQueue i k (fun q => { q with run := some (beginRun i k h e s), entry := e, done := false }) s
  match if (lsLane i).isSome then s.solvers[i].q[otherQ k].run else none with
  | none => run s
  | some r =>
    if k = 0 && r.start == s.cyc.tb + 1 then run (modQueue i 1 (fun q => { q with run := none, queued := some r.entry }) s)
    else modQueue i k (fun q => { q with queued := some e, done := false }) s

/-- START (R79, R84, R87). -/
def lsStartOp (i : Fin 5) (k : Fin 2) (e : Nat) (s : State) : State :=
  let q := s.solvers[i].q[k]
  let refuse (b : Nat) : State := lsFaultHandled i k (modQueue i k (fun q => { q with err := setBit q.err b true }) s)
  match q.img with
  | none => refuse 5
  | some h =>
    if e ≥ h.entries then refuse 4
    else if q.run.isSome || q.queued.isSome then refuse 2
    else lsAwait i k (lsBegin i k h e s)

/-- LS_START. -/
def execLsStart (c : CoreId) (i : Fin 5) (e : BitVec 4) (s : State) : Meaning := .next (lsBy c i (fun k => lsStartOp i k e.toNat) s)
/-- LS_ABORT (R84). -/
def execLsAbort (c : CoreId) (i : Fin 5) (s : State) : Meaning := .next (lsBy c i (fun k => lsAbortQueue i k) s)

/-! ## LOAD and UNLOAD -/

/-- The header's own ranges (R69). -/
def hdrOk (lane : Bool) (code a : Nat) (h : NetHdr) (s : State) : Bool :=
  readNat code a 4 s == 0x314E534C && readNat code (a + 4) 2 s == 1 && readNat code (a + 6) 2 s == bitOf lane &&
  h.nodes % 4 == 0 && 4 ≤ h.nodes && h.nodes ≤ 262144 && h.bits % 512 == 0 && 512 ≤ h.bits && h.bits ≤ 262144 && h.descs ≤ 1024 &&
  1 ≤ h.entries && h.entries ≤ 16 && readNat code (a + 27) 1 s == 0 && readNat code (a + 40) 20 s == 0 && (if lane then h.banks == 0 else h.block == 0)

/-- An entry's ranges (R70). -/
def entryOk (h : NetHdr) (e : NetEntry) : Bool :=
  e.first % 4 == 0 && e.count % 4 == 0 && 4 ≤ e.count && e.first + e.count ≤ h.nodes && e.inFirst + e.inCount ≤ h.descs && e.outFirst + e.outCount ≤ h.descs

/-- A descriptor's ranges (R71). -/
def descOk (h : NetHdr) (d : Desc) : Bool := d.reserved == 0 && d.boff + d.len ≤ h.bits / 8

/-- The banks of 1 MiB of lane SRAM that the RMU uses (R312): the matrix and the lock vectors of loaded images. -/
def rmuBanks (s : State) : List Nat :=
  6 :: 7 :: allGroups.filterMap fun g => (s.doms[groupDom g].image.bind (·.ixl)).map fun x => x.lvec % 2 ^ 24 / 2 ^ 20

/-- A byte range lies in part in an RMU bank. -/
def inRmuBank (a n : Nat) (s : State) : Bool := (rmuBanks s).any fun b => a < (b + 1) * 2 ^ 20 && b * 2 ^ 20 < a + n

/-- The network image lies where R67 places it and R22 lets the solver read: after the claiming pair's %M in standard SRAM (R311), or in a code bank of
lane SRAM (R312). -/
def netPlaced (i : Fin 5) (a n : Nat) (r : Option Areas) : Bool := match lsLane i with
  | some _ => (decide (a + n ≤ 3 * 2 ^ 20) || (decide (3 * 2 ^ 20 ≤ a) && decide (a + n ≤ 6 * 2 ^ 20)))
  | none => r.any fun x => decide (x.mBase + x.mLen ≤ a) && decide (a + n ≤ 0x1FF0000)

/-- Why a network image does not load, in the order of R528 (R71, R74, R80, R85, R312). `base` is the process image's offset and `r` the domain's
areas. What is not a network image at all is LS_BAD_IMAGE before anything can be read from it. -/
def lsLoadRefusal (i : Fin 5) (k : Fin 2) (a base : Nat) (r : Option Areas) (s : State) : Option String :=
  let code := lsMem i
  let lane := (lsLane i).isSome
  let h := readHdr code a s
  let es := (List.range h.entries).map fun e => entryAt code h e s
  let ds := (List.range h.descs).map fun n => descAt code h n s
  let img := readBytes code a (netLen h) s
  if !(hdrOk lane code a h s && a % 64 == 0 && netPlaced i a (netLen h) r) then some "LS_BAD_IMAGE"
  else
    let touchesI (d : Desc) : Bool := r.any fun x => base + d.addr < x.iBase + x.iLen && x.iBase < base + d.addr + d.len
    let other := if lane then s.solvers[i].q[otherQ k].img else none
    if (es.flatMap fun e => scatterDescs code h e s).any touchesI then some "LS_SCATTER_I"
    else if lane && (inRmuBank a (netLen h) s || ds.any fun d => inRmuBank (base + d.addr) d.len s) then some "LS_RMU_BANK"
    else if other.any fun o => h.bits + o.bits > 262144 then some "LS_NO_ROOM"
    else if other.any fun o => h.block < o.maxRun || o.block < h.maxRun then some "LS_BLOCK_EXCEEDED"
    else if !(es.all (entryOk h) && ds.all (descOk h)) then some "LS_BAD_IMAGE"
    else if readNat code (a + 60) 4 s ≠ (crc32c (img.take 60 ++ [0, 0, 0, 0] ++ img.drop 64)).toNat then some "LS_BAD_IMAGE"
    else if ((List.range ((netLen h + 63) / 64)).any fun n => (checkLine (lsWho i) code (a / 64 + n) s).1.isSome) then some "LS_BAD_IMAGE" else none

/-- What reading the whole image does to the memory's registers (R85): every line of it, where the header is one. -/
def lsReadImage (i : Fin 5) (a : Nat) (r : Option Areas) (s : State) : State :=
  let h := readHdr (lsMem i) a s
  if hdrOk (lsLane i).isSome (lsMem i) a h s && a % 64 == 0 && netPlaced i a (netLen h) r then
    (List.range ((netLen h + 63) / 64)).foldl (fun s n => (checkLine (lsWho i) (lsMem i) (a / 64 + n) s).2.2) s
  else s

/-- Loads the image at a queue's LS_IMG address (R84, R85). -/
def lsLoadOp (i : Fin 5) (k : Fin 2) (s : State) : State :=
  let q := s.solvers[i].q[k]
  let a := lsOff i q.imgAddr.toNat
  let d := (lsCore i k s).bind domOf
  let r := d.bind fun d => s.doms[d].image.map fun im => im.areas
  if q.img.isSome then modQueue i k (fun q => { q with err := setBit q.err 7 true }) s
  else match lsLoadRefusal i k a (lsPimg i k s) r s with
    | some _ => lsReadImage i a r s
    | none => modQueue i k (fun q => { q with img := some (readHdr (lsMem i) a s) }) (lsReadImage i a r s)

/-- UNLOAD waits for any run of the queue to end (R85). -/
def lsUnloadOp (i : Fin 5) (k : Fin 2) (s : State) : State :=
  let q := s.solvers[i].q[k]
  if q.run.isSome || q.queued.isSome then modQueue i k (fun q => { q with unloadDue := true }) s else modQueue i k (fun q => { q with img := none }) s

/-- LOAD and UNLOAD at U are ignored and set K_ONLY (R83). -/
def lsAtK (c : CoreId) (i : Fin 5) (k : Fin 2) (f : State → State) (s : State) : State :=
  if s.cores[c].arch.priv then f s else modQueue i k (fun q => { q with err := setBit q.err 6 true }) s

/-- LS_LOAD. -/
def execLsLoad (c : CoreId) (i : Fin 5) (s : State) : Meaning := .next (lsBy c i (fun k => lsAtK c i k (lsLoadOp i k)) s)
/-- LS_UNLOAD. -/
def execLsUnload (c : CoreId) (i : Fin 5) (s : State) : Meaning := .next (lsBy c i (fun k => lsAtK c i k (lsUnloadOp i k)) s)

/-! ## The end of a run -/

/-- What a run did within a number of clocks: its fault, if any, and the state. -/
abbrev RunRes := Option Nat × State

/-- Words a descriptor's bytes lie in. -/
def descWords (i : Fin 5) (k : Fin 2) (d : Desc) (s : State) : List Nat :=
  let a := lsPimg i k s + d.addr
  (List.range ((a + d.len - 1) / 8 - a / 8 + 1)).map fun j => a / 8 + j

/-- Reads words for a solver; `false` where one is uncorrectable. A correction reaches the queue's core (R319). -/
def lsWords (i : Fin 5) (k : Fin 2) (ws : List Nat) (s : State) : Bool × State :=
  ws.foldl (fun acc w =>
    let z := checkWord (lsWho i) (lsMem i) w acc.2
    (acc.1 && z.1.isNone, match z.2.1, lsCore i k s with | true, some c => raiseCorrected c z.2.2 | _, _ => z.2.2)) (true, s)

/-- Fetches a line of the image for a run (R81); `false` where it is uncorrectable. -/
def fetchLine (i : Fin 5) (l : Nat) (s : State) : Bool × State := let z := checkLine (lsWho i) (lsMem i) l s; (z.1.isNone, z.2.2)

/-- The line of descriptor `n` of an image. -/
def descLine (h : NetHdr) (n : Nat) : Nat := (h.addr + 64 + 16 * h.entries + 8 * n) / 64

/-- The gather phase: descriptors in table order, from number `n` on, while the clocks last, each with the bytes gathered for it (R76, R82, R86). -/
def gatherRun (i : Fin 5) (k : Fin 2) (h : NetHdr) (base : Nat) : Nat → Nat → List Desc → List (Nat × Byte) → State → RunRes
  | _, _, [], _, s => (none, s)
  | n, t, d :: ds, snap, s =>
    if t < descClocks d then (none, s)
    else
      let f := fetchLine i (descLine h n) s
      if !f.1 then (some 4, f.2)
      else if !descAllowed i k h d f.2 then (some 3, f.2)
      else
        let z := lsWords i k (descWords i k d f.2) f.2
        if !z.1 then (some 4, z.2)
        else
          let bits := (enum (snap.take d.len)).foldl (fun f x => partSetByte base (d.boff + x.1) x.2.2 f) z.2.solvers[i].bits
          gatherRun i k h base (n + 1) (t - descClocks d) ds (snap.drop d.len) (modSolver i (fun v => { v with bits := bits }) z.2)

/-- Evaluates `m` bundles from slot `n`, fetching a line where one begins (R75, R81): a bundle whose line is uncorrectable or that holds a faulting node ends
the run with no further writes (R86). -/
def bundlesRun (i : Fin 5) (h : NetHdr) (base : Nat) : Nat → Nat → Nat → State → RunRes
  | _, _, 0, s => (none, s)
  | first, n, m + 1, s =>
    let at_ := nodesAt h + 8 * n
    let f := if n = first || at_ % 64 = 0 then fetchLine i (at_ / 64) s else (true, s)
    if !f.1 then (some 4, f.2)
    else
      let ns := [0, 1, 2, 3].map fun j => nodeAt (lsMem i) h (n + j) f.2
      match ns.findSome? (nodeFault h.bits) with
      | some e => (some e, f.2)
      | none => bundlesRun i h base first (n + 4) m (modSolver i (fun v => { v with bits := evalBundle base ns v.bits }) f.2)

/-- The words that a range of bytes covers whole. -/
def wholeWords (off n : Nat) : List Nat := (List.range ((off + n) / 8 - (off + 7) / 8)).map fun j => (off + 7) / 8 + j

/-- The scatter phase (R76, R81, R86): words written whole lose their errors (R317). -/
def scatterRun (i : Fin 5) (k : Fin 2) (h : NetHdr) (base : Nat) : Nat → Nat → List Desc → State → RunRes
  | _, _, [], s => (none, s)
  | n, t, d :: ds, s =>
    if t < descClocks d then (none, s)
    else
      let f := fetchLine i (descLine h n) s
      if !f.1 then (some 4, f.2)
      else if !descAllowed i k h d f.2 then (some 3, f.2)
      else
        let at_ := lsPimg i k f.2 + d.addr
        let bs := (List.range d.len).map fun j => partByte base f.2.solvers[i].bits (d.boff + j)
        let s := (wholeWords at_ d.len).foldl (fun s w => clearWord (lsMem i) w s) (store none (lsMem i) at_ bs f.2)
        scatterRun i k h base (n + 1) (t - descClocks d) ds s

/-- A run's effect within `t` clocks (R75, R76, R86), from the fetch of its entry on. -/
def runBody (i : Fin 5) (k : Fin 2) (h : NetHdr) (r : LsRun) (t : Nat) (s : State) : RunRes :=
  let code := lsMem i
  let base := partBase i k h.bits
  let f := fetchLine i ((h.addr + 64 + 16 * r.entry) / 64) s
  if !f.1 then (some 4, f.2)
  else
    let e := entryAt code h r.entry f.2
    let gs := gatherDescs code h e f.2
    let g := gatherRun i k h base e.inFirst t gs r.snap f.2
    match g.1 with
    | some x => (some x, g.2)
    | none =>
      let t1 := t - descsClocks gs
      let z := bundlesRun i h base e.first e.first (min t1 (e.count / 4)) g.2
      match z.1 with
      | some x => (some x, z.2)
      | none => scatterRun i k h base e.outFirst (t1 - e.count / 4) (scatterDescs code h e z.2) z.2

/-- The queue whose run is BUSY in an instance. -/
def lsBusy (i : Fin 5) (s : State) : Option (Fin 2 × LsRun × NetHdr) :=
  ([0, 1] : List (Fin 2)).findSome? fun k => match s.solvers[i].q[k].run, s.solvers[i].q[k].img with
    | some r, some h => some (k, r, h)
    | _, _ => none

/-- The run of an instance ends: DONE, a fault of its nodes, descriptors or memory, or OVERTIME where it would exceed MAX_RUN. -/
def lsFinishRun (i : Fin 5) (s : State) : State := match lsBusy i s with
  | none => s
  | some (k, r, h) =>
    let total := runClocks (lsMem i) h (entryAt (lsMem i) h r.entry s) s
    let z := runBody i k h r (min total h.maxRun) s
    match z.1 with
    | some f => lsFault i k f z.2
    | none =>
      if total > h.maxRun then lsFault i k 5 z.2
      else
        let s := modQueue i k (fun q => { q with run := none, done := true, fault := false, aborted := false, last := BitVec.ofNat 32 total }) z.2
        let s := match lsCore i k s with | some c => raiseIrq c 2 s | none => s
        lsEnded i k s

/-- LS_DONE (R76). -/
def execLsDone (i : Fin 5) (s : State) : Meaning := .next (lsFinishRun i s)
/-- LS_OVERTIME (R86): the run's measured clocks exceed MAX_RUN. -/
def execLsOvertime (i : Fin 5) (s : State) : Meaning := .next <|
  match lsBusy i s with
  | none => s
  | some (_, r, h) => if runClocks (lsMem i) h (entryAt (lsMem i) h r.entry s) s > h.maxRun then lsFinishRun i s else s

/-! ## The bit-file window -/

/-- An access of `n` bytes at a window offset (R78): the answer and the value; bytes rotate within their 8-byte word as in memory (R322). -/
def windowAccess (i : Fin 5) (k : Fin 2) (wr : Bool) (off n v : Nat) (s : State) : Resp × Nat × State :=
  let q := s.solvers[i].q[k]
  match q.img with
  | none => (.noPath, 0, s)
  | some h =>
    let at_ := lanesOf off n
    if at_.any fun o => o ≥ h.bits / 8 then (.noPath, 0, s)
    else if q.run.isSome || q.queued.isSome then (.lsBusy, 0, modQueue i k (fun q => { q with err := setBit q.err 0 true }) s)
    else
      let base := partBase i k h.bits
      if wr then
        let bits := (at_.zip (leBytes n v)).foldl (fun f x => partSetByte base x.1 x.2 f) s.solvers[i].bits
        (.ok, 0, modSolver i (fun u => { u with bits := bits }) s)
      else (.ok, leNat (at_.map fun o => partByte base s.solvers[i].bits o), s)

/-- LS_WINDOW_ACCESS: a word (R78). -/
def execLsWindowAccess (c : CoreId) (i : Fin 5) (wr : Bool) (off : BitVec 15) (v : Word) (s : State) : Meaning := .next <|
  match lsReach c i s with
  | .error r => answer r 0 (countAf (coreMaster c) s)
  | .ok k =>
    let z := windowAccess i k wr off.toNat 4 v.toNat s
    answer z.1 (BitVec.ofNat 32 z.2.1) (if z.1 = .noPath then countAf (coreMaster c) z.2.2 else z.2.2)

/-! ## PD_SOLV -/

/-- PWR_REQ.SOLV asks for PD_SOLV on (R26, R68). -/
def solvOn (s : State) : State := { s with boot := { s.boot with on := setBit s.boot.on Pd.solv.idx true, refused := false } }

/-- PD_SOLV goes off: the instances lose what they hold. -/
def solvDown (s : State) : State := { setPd .solv false s with solvers := (s.solvers.set 3 .reset).set 4 .reset }

/-- PWR_REQ.SOLV asks for PD_SOLV off (R26, R68): refused while a loaded image claims LSS0 or LSS1. -/
def solvOff (s : State) : State :=
  if s.solvers[3].claim.isSome || s.solvers[4].claim.isSome then { s with boot := { s.boot with refused := true } }
  else solvDown { s with boot := { s.boot with refused := false } }

/-- PWR_REQ.SOLV on. -/
def execPwrReqSolvOn (s : State) : Meaning := .next (solvOn s)
/-- PWR_REQ.SOLV off. -/
def execPwrReqSolvOff (s : State) : Meaning := .next (solvOff s)

/-- A disable takes effect: a run in flight ends as by ABORT, the claim is unloaded, and the command ends with the runs cancelled. PD_SOLV goes off
with the last claim. -/
def lsDisableEffect (i : Fin 5) (r : CmdRef) (s : State) : State :=
  let was := s.solvers[i].q[(0 : Fin 2)].run.isSome || s.solvers[i].q[(0 : Fin 2)].queued.isSome
  let t := if was then lsAbortQueue i 0 s else s
  let n := bitOf (was && t.solvers[i].q[(0 : Fin 2)].run.isNone && t.solvers[i].q[(0 : Fin 2)].queued.isNone && t.solvers[i].q[(0 : Fin 2)].aborted)
  let t := modSolver i (fun v => { v with claim := none, disablePend := none }) (lsUnloadOp i 0 t)
  let t := if t.solvers[(3 : Fin 5)].claim.isNone && t.solvers[(4 : Fin 5)].claim.isNone then solvOff t else t
  finish r .ok 0 (leBytes 1 n) t

/-- A recorded disable of an instance takes effect at T_j. -/
def lsDisableTake (i : Fin 5) (s : State) : State := match s.solvers[i].disablePend with
  | none => s
  | some r => lsDisableEffect i r s

end Sys2Proof.Machine
end

