-- ==== Sys2Proof/Machine/Ixl.lean ====
section
/-! DEFINITION. Interlocking: safety connections, sections, points, routes, gates, timers, the runtime's order of work, and requests
(R119 to R152). -/

namespace Sys2Proof.Machine

/-- A field of a payload. -/
def payloadField (bs : List Byte) (f : FieldRef) : Nat := leNat bs / 2 ^ f.bit % 2 ^ f.width

/-- A field of a connection's payload as lane `l` holds it, only while fresh (R132 to R138). -/
def freshField (l : Fin 3) (g : Fin 2) (f : FieldRef) (s : State) : Option Nat := match s.conns[l][g][f.conn]? with
  | some c => if c.fresh then c.payload.map fun bs => payloadField bs f else none
  | none => none

/-- The lanes whose core runs a group's runtime: the members and the candidates (R106). -/
def runLanes (g : Fin 2) (s : State) : List (Fin 3) := memberLanes g s ++ candLanes g s

/-- The work of the runtime in each lane that runs it. -/
def eachLane (g : Fin 2) (f : Fin 3 → State → State) (s : State) : State := (runLanes g s).foldl (fun s l => f l s) s

/-- The state a section had in the cycle before. -/
def prevSec (l : Fin 3) (i : Nat) (s : State) : Occ := s.ixl[l].prevSections.getD i .unknown
/-- A section becomes occupied; UNKNOWN counts as OCCUPIED (R132). -/
def becomesOcc (l : Fin 3) (i : Nat) (s : State) : Bool := prevSec l i s == .clear && sec l i s != .clear

/-- A detection that shows a required position. -/
def detIs (d : Det) (rev : Bool) : Bool := d == if rev then .reverse else .normal

/-- The points of a route's body, overlap and flank set. -/
def routePoints (x : IxlDecl) (r : RouteDecl) : List (Nat × Bool) :=
  r.points ++ ((r.overlap.bind fun o => x.overlaps[o]?).map (·.points)).getD []
/-- The points of a route's flank set. -/
def flankPoints (x : IxlDecl) (r : RouteDecl) : List (Nat × Bool) := ((r.flank.bind fun f => x.flanks[f]?).map (·.points)).getD []
/-- The sections of a route and its overlap. -/
def routeSections (x : IxlDecl) (r : RouteDecl) : List Nat :=
  r.sections ++ ((r.overlap.bind fun o => x.overlaps[o]?).map (·.sections)).getD []

/-! ## Safety connections -/

/-- The outcomes of R147. -/
inductive TelOut where
  | missing | badhdr | badcrc | badmac | unexpectedStart | sync (q : Word) | notSynced | repeat_ | badseq | accepted (q : Word) (p : List Byte)
  deriving DecidableEq, Repr

/-- Checks the agreed bytes of a connection's coach (R147). -/
def telCheck (d : ConnDecl) (c : ConnSt) (key : List Byte) (present : Bool) (t : List Byte) : TelOut :=
  let hdr := t.getD 0 0
  let auth := hdr.getLsbD 4
  let n := 8 + d.plenRx
  let seq : Word := BitVec.ofNat 32 (sliceNat 4 4 t)
  let len := n + (if d.auth then 12 else 4)
  let start := hdr.getLsbD 5
  let dist := (seq - c.last).toNat
  if !present then .missing
  else if hdr.toNat % 16 ≠ 1 || hdr.getLsbD 7 || sliceNat 1 1 t ≠ d.plenRx || sliceNat 2 2 t ≠ 0 || auth ≠ d.auth then .badhdr
  else if sliceNat (len - 4) 4 t ≠ (telCrc d.connId (t.take (len - 4))).toNat then .badcrc
  else if d.auth && (t.drop n).take 8 ≠ telMac key d.connId (t.take n) then .badmac
  else if start then (if c.mode == .opened then .unexpectedStart else .sync seq)
  else if c.mode != .opened then .notSynced
  else if dist = 0 then .repeat_
  else if dist > d.gap then .badseq
  else .accepted seq ((t.drop 8).take d.plenRx)

/-- A connection after its check (R147, R148). -/
def connAfter (o : TelOut) (c : ConnSt) : ConnSt :=
  let c := { c with since := c.since + 1, fresh := false }
  match o with
  | .missing => { c with missing := inc16 c.missing }
  | .badhdr => { c with badhdr := inc16 c.badhdr }
  | .badcrc => { c with badcrc := inc16 c.badcrc }
  | .badmac => { c with badmac := inc16 c.badmac }
  | .unexpectedStart => { c with badhdr := inc16 c.badhdr }
  | .notSynced => { c with badhdr := inc16 c.badhdr }
  | .repeat_ => { c with repeats := inc16 c.repeats }
  | .badseq => { c with badseq := inc16 c.badseq }
  | .sync q => { c with mode := .opened, last := q, since := 0, payload := none }
  | .accepted q p => { c with last := q, since := 0, payload := some p, fresh := true }

/-- The payload a connection presents (R148): the last accepted one while OPEN, else the safe values. -/
def presented (im : Image) (d : ConnDecl) (c : ConnSt) : List Byte := match c.mode, c.payload with
  | .opened, some p => p
  | _, _ => (List.range d.plenRx).map fun i => im.safe.getD (d.rxOff + 8 + i) 0

/-- The place of a station in the layout. -/
def stationIdx (a : BitVec 12) (s : State) : Option Nat := ((s.ring.layout.map (·.coaches)).getD []).findIdx? fun c => c.addr == a

/-- A connection's payload in lane `l`'s input image, and its status entry (R148, R149). -/
def connShow (l : Fin 3) (g : Fin 2) (im : Image) (k : Nat) (d : ConnDecl) (s : State) : State := match s.conns[l][g][k]? with
  | none => s
  | some c => writeEntry l g k d (if d.receives then store none (laneMem l) (im.areas.iBase + d.rxOff + 8) (presented im d c) s else s)

/-- CONNECTION_TIMEOUT of one connection in lane `l` (R148): OPEN with a count above TIMEOUT, it becomes FAILED; the event is logged once, for the
group's first lane. -/
def connExpire (l : Fin 3) (g : Fin 2) (im : Image) (k : Nat) (d : ConnDecl) (s : State) : State := match s.conns[l][g][k]? with
  | none => s
  | some c =>
    if d.receives && c.mode == .opened && c.since > d.timeout then
      let s := connShow l g im k d (modConn l g k (fun c => { c with mode := .failed, fresh := false, payload := none }) s)
      if (runLanes g s).head? = some l then addLog .connTimeout g.val k s else s
    else s

/-- Step 1 for one connection in lane `l`: the check of the agreed bytes and the timeout (R131, R147, R148). -/
def connReceive (l : Fin 3) (g : Fin 2) (im : Image) (k : Nat) (d : ConnDecl) (s : State) : State := match s.conns[l][g][k]? with
  | none => s
  | some c =>
    if !d.receives then writeEntry l g k d s
    else
      let code := laneMem l
      let i0 := im.areas.iBase
      let present := match stationIdx d.station s with
        | some i => (readByte code (i0 + im.statusOff + i) s).getLsbD 0 && !(readByte code (i0 + im.statusOff + i) s).getLsbD 1
        | none => false
      let t := readBytes code (i0 + d.rxOff) (12 + d.plenRx + (if d.auth then 8 else 0)) s
      let c := connAfter (telCheck d c (connKey l d.key s) present t) c
      connExpire l g im k d (connShow l g im k d (modConn l g k (fun _ => c) s))

/-- Step 1 in lane `l`: every connection of a group in ascending number. -/
def connsReceive (g : Fin 2) (im : Image) (l : Fin 3) (s : State) : State := (enum im.conns).foldl (fun s x => connReceive l g im x.1 x.2 s) s

/-- CONNECTION_TIMEOUT (R148): what step 1 does of itself, of a connection for which it is due. -/
def execConnectionTimeout (k : Fin 1024) (s : State) : Meaning := .next <|
  allGroups.foldl (fun s g => match (s.doms[groupDom g].image) with
    | some im => match im.conns[k.val]? with
      | some d => eachLane g (fun l s => connExpire l g im k.val d s) s
      | none => s
    | none => s) s

/-- A connection at a cold restart (R146, R150). -/
def connReset (b : Nat) (d : ConnDecl) : ConnSt :=
  { mode := if d.receives then .closed else .noRx, last := 0, since := 0, missing := 0, badhdr := 0, badcrc := 0, badmac := 0, repeats := 0, badseq := 0
    payload := none, fresh := false, seq := BitVec.ofNat 32 (b % 4096 * 2 ^ 20), startLeft := d.timeout + 2, sentStart := false }

/-! ## Steps 2 to 4 -/

/-- Step 2 in lane `l`: section occupancy (R132), and the lamp status of every signal (R119). A lamp field of value 1 means proving good (DESIGN CHOICE; log
entry 69). -/
def stepSections (g : Fin 2) (x : IxlDecl) (l : Fin 3) (s : State) : State :=
  modIxl l (fun y => { y with
    prevSections := y.sections
    sections := x.sections.map fun d => match freshField l g d.rep s with
      | some v => if v = d.clearVal then .clear else if v = d.occVal then .occupied else .unknown
      | none => .unknown
    signals := (x.signals.zip y.signals).map fun z =>
      { z.2 with proceedGood := freshField l g z.1.lampProceed s == some 1, stopGood := freshField l g z.1.lampStop s == some 1 } }) s

/-- The positions in which the users of point `p` require it (R133, R135): by routes whose body, overlap or flank set has locked it. -/
def required (x : IxlDecl) (y : Ixl) (p : Nat) : List Bool :=
  (x.routes.zip y.routes).flatMap fun z =>
    ((routePoints x z.1).filter fun q => q.1 == p && (z.2.body.contains p || z.2.ovl.contains p)).map Prod.snd ++
      ((flankPoints x z.1).filter fun q => q.1 == p && z.2.flk.contains p).map Prod.snd

/-- Step 3 in lane `l`: detection, the end of a move that has been detected, FAILED, disturbance (R133 to R135). -/
def stepPoints (g : Fin 2) (x : IxlDecl) (l : Fin 3) (s : State) : State :=
  let det (d : PointDecl) : Det := match freshField l g d.det s with
    | some v => if v = d.normVal then .normal else if v = d.revVal then .reverse else .none
    | none => .none
  let old := s.ixl[l]
  let s := modIxl l (fun y => { y with points := (x.points.zip y.points).map fun z =>
    let n := det z.1
    { z.2 with det := n, failed := z.2.failed && n == .none, moving := z.2.moving.filter fun m => !detIs n m.1 } }) s
  let lost (p : Nat) : Bool := match old.points[p]?, s.ixl[l].points[p]? with
    | some a, some b => a.det != b.det && (b.det == .none || (required x old p).any fun rev => detIs a.det rev)
    | _, _ => false
  modIxl l (fun y => { y with routes := (x.routes.zip y.routes).map fun z =>
    if (z.2.mode == .set || z.2.mode == .cleared) && (routePoints x z.1 ++ flankPoints x z.1).any fun q => lost q.1
    then { z.2 with disturbed := true } else z.2 }) s

/-- Step 4 in lane `l`: safety timers (R141, R142): REMAIN goes down by 1; an emergency timer starts again when a section of the route or overlap becomes
OCCUPIED or UNKNOWN. -/
def stepTimers (x : IxlDecl) (l : Fin 3) (s : State) : State :=
  let dec (t : Option Nat) : Option Nat := t.map fun n => n - 1
  let hit (i : Nat) : Bool := sec l i s != prevSec l i s && sec l i s != .clear
  modIxl l (fun y => { y with hold := dec y.hold, points := y.points.map fun p => { p with moving := p.moving.map fun m => (m.1, m.2 - 1) }
                              routes := (x.routes.zip y.routes).map fun z => { z.2 with
    approach := dec z.2.approach, overlap := dec z.2.overlap
    emergency := if z.2.mode == .emergency && (routeSections x z.1).any hit then some (timerCycles z.1.emergencyUs s) else dec z.2.emergency } }) s

/-! ## The RMU under vote, and the release of a route -/

/-- Unlocks points for a user in lane `l`: each lock count goes down by 1. -/
def unlockPoints (l : Fin 3) (ps : List Nat) (s : State) : State := ps.foldl (fun s p => modPoint l p (fun q => { q with locks := q.locks - 1 }) s) s

/-- An RMU operation of the runtime, an RMU vote point (R96, R128): lanes `ls` perform it, and a member that does not is late. Its voted result word;
none where a vote point is in progress, at which the cores hold, or where the vote does not pass. -/
def rmuVote (op : Fin 3) (r : Nat) (g : Fin 2) (ls : List (Fin 3)) (s : State) : Option Nat × State :=
  if s.voter.grp[g].vp.isSome || ls.isEmpty then (none, s)
  else
    let s := ls.foldl (fun s l =>
      let z := rmuOp l op (BitVec.ofNat 32 r) s
      contribute l g { kind := .rmu, items := leBytes 4 z.1.toNat, crc := stateCrc l g z.2 } z.2) s
    match s.voter.grp[g].vp with
    | none => (none, s)
    | some p =>
      let late := (memberLanes g s).any fun l => p.got[l].isNone
      match voteEnd (memberLanes g s) p with
      | .pass y _ _ => (some (leNat y.items), voteResolve g late s)
      | .safe _ => (none, voteResolve g late s)

/-- Releases route `r` in lanes `ls` (R139): points, timers, RMU.RELEASE, IDLE. Where the vote point cannot be taken now, the release stays due. -/
def releaseRoute (g : Fin 2) (r : Nat) (ls : List (Fin 3)) (s : State) : State :=
  if s.voter.grp[g].vp.isSome || ls.isEmpty then s
  else
    let s := ls.foldl (fun s l => match s.ixl[l].routes[r]? with
      | none => s
      | some x => modRoute l r (fun y => { y with body := [], ovl := [], flk := [], flankOk := false, approach := none, emergency := none, overlap := none
                                                  overlapDone := false }) (unlockPoints l (x.body ++ x.ovl ++ x.flk) s)) s
    let s := (rmuVote 2 r g ls s).2
    ls.foldl (fun s l => modRoute l r (fun y => { y with mode := .idle, disturbed := false, passed := [], wasOcc := [], cancel := false }) s) s

/-- The lanes in which route `r` meets a condition. -/
def lanesWhere (g : Fin 2) (r : Nat) (p : Fin 3 → RouteSt → Bool) (s : State) : List (Fin 3) :=
  (runLanes g s).filter fun l => (s.ixl[l].routes[r]?).any fun y => p l y

/-- Every section before the last has passed, and the overlap timer has expired, where there is an overlap (R140). -/
def passedAll (d : RouteDecl) (x : RouteSt) : Bool :=
  ((List.range (d.sections.length - 1)).all fun i => x.passed.contains i) && (d.overlap.isNone || x.overlapDone) &&
    (d.sections.length > 1 || x.wasOcc.contains 0)

/-- POINT_MOVE_TIMEOUT in lane `l` (R134): the command is withdrawn and the point becomes FAILED. -/
def moveExpire (l : Fin 3) (p : Nat) (s : State) : State := match (s.ixl[l].points[p]?).bind (·.moving) with
  | some (_, 0) => modPoint l p (fun q => { q with moving := none, failed := true }) s
  | _ => s
/-- APPROACH_RELEASE_EXPIRY (R137, R141). -/
def approachExpire (g : Fin 2) (r : Nat) (s : State) : State :=
  releaseRoute g r (lanesWhere g r (fun _ y => y.mode == .approachLocked && y.approach == some 0) s) s
/-- EMERGENCY_RELEASE_EXPIRY (R142): the route is released whatever sections remain unpassed. -/
def emergencyExpire (g : Fin 2) (r : Nat) (s : State) : State :=
  releaseRoute g r (lanesWhere g r (fun _ y => y.mode == .emergency && y.emergency == some 0) s) s
/-- OVERLAP_RELEASE_EXPIRY (R140): the timer has expired, and a route whose sections have passed is released. -/
def overlapExpire (g : Fin 2) (r : Nat) (d : RouteDecl) (s : State) : State :=
  let s := eachLane g (fun l s => modRoute l r (fun y =>
    if y.mode == .occupied && y.overlap == some 0 then { y with overlap := none, overlapDone := true } else y) s) s
  releaseRoute g r (lanesWhere g r (fun _ y => y.mode == .occupied && passedAll d y) s) s
/-- RESTART_HOLD_EXPIRY in lane `l` (R151). -/
def holdExpire (l : Fin 3) (s : State) : State :=
  if s.ixl[l].hold == some 0 then modIxl l (fun y => { y with hold := none, holdDone := true }) s else s

/-- Step 4's expiries, in ascending number. -/
def stepExpiries (g : Fin 2) (x : IxlDecl) (s : State) : State :=
  let s := eachLane g (fun l s => holdExpire l ((List.range x.points.length).foldl (fun s p => moveExpire l p s) s)) s
  (List.range x.routes.length).foldl (fun s r => emergencyExpire g r (approachExpire g r s)) s

/-! ## Step 5 -/

/-- The overlap timer starts when the last route section is occupied (R140, R141). -/
def startOverlap (x : IxlDecl) (d : RouteDecl) (s : State) (z : RouteSt) : RouteSt :=
  let n := d.sections.length
  if n > 0 && z.wasOcc.contains (n - 1) && z.overlap.isNone && !z.overlapDone && d.overlap.isSome then
    { z with overlap := some (timerCycles (((d.overlap.bind fun o => x.overlaps[o]?).map (·.releaseUs)).getD 0) s) }
  else z

/-- The sections of a route that are not clear in lane `l`, by their place. -/
def occNow (l : Fin 3) (d : RouteDecl) (s : State) : List Nat :=
  (enum d.sections).filterMap fun z => if sec l z.2 s != .clear then some z.1 else none

/-- Step 5 for one route in lane `l`: passed sections, their points, the overlap timer (R140). -/
def stepPassage (x : IxlDecl) (r : Nat) (d : RouteDecl) (l : Fin 3) (s : State) : State := match s.ixl[l].routes[r]? with
  | none => s
  | some y =>
    if y.mode != .occupied then s
    else
      let n := d.sections.length
      let at_ (i : Nat) : Nat := d.sections.getD i 0
      let was := y.wasOcc ++ (occNow l d s).filter fun i => !y.wasOcc.contains i
      let now := (List.range (n - 1)).filter fun i =>
        !y.passed.contains i && sec l (at_ i) s == .clear && match prevSec l (at_ i) s with
          | .clear => false
          | .occupied => was.contains (i + 1)
          | .unknown => sec l (at_ (i + 1)) s != .clear
      let inSec := fun (p : Nat) => now.any fun i => (x.points[p]?).any fun q => q.sec == at_ i
      let s := unlockPoints l (y.body.filter inSec) s
      modRoute l r (fun z => startOverlap x d s { z with wasOcc := was, passed := z.passed ++ now, body := z.body.filter (fun p => !inSec p) }) s

/-- Step 5 for one route: release by passage (R140), with an overlap timer that has expired (R141). -/
def stepRelease (g : Fin 2) (x : IxlDecl) (r : Nat) (d : RouteDecl) (s : State) : State :=
  overlapExpire g r d (eachLane g (stepPassage x r d) s)

/-! ## Step 7 -/

/-- Locks points already detected in position for a user in lane `l`, and requests a move for the others that are not locked: the new list of points held.
The user is a route's body, overlap or flank set: a flank set or an overlap that two routes name counts once for each route (DESIGN CHOICE; log entry 69). -/
def lockAvailable (l : Fin 3) (ps : List (Nat × Bool)) (held : List Nat) (s : State) : List Nat × State :=
  ps.foldl (fun acc p =>
    if acc.1.contains p.1 then acc
    else match acc.2.ixl[l].points[p.1]? with
      | none => acc
      | some q =>
        if detIs q.det p.2 then (if q.locks < 255 then (acc.1 ++ [p.1], modPoint l p.1 (fun q => { q with locks := q.locks + 1 }) acc.2) else acc)
        else if q.locks = 0 && q.moving.isNone then (acc.1, modPoint l p.1 (fun q => { q with want := some p.2 }) acc.2)
        else acc) (held, s)

/-- A flank set is established in lane `l` (R136). A signal shows stop where its field reads 1 (DESIGN CHOICE; log entry 69). -/
def flankReady (l : Fin 3) (g : Fin 2) (x : IxlDecl) (d : RouteDecl) (y : RouteSt) (s : State) : Bool := match d.flank.bind fun f => x.flanks[f]? with
  | none => true
  | some f => (f.points.all fun p => y.flk.contains p.1 && (s.ixl[l].points[p.1]?).any fun q => detIs q.det p.2) &&
      f.signals.all fun i => match x.signals[i]? with
        | some sg => freshField l g sg.showsStop s == some 1
        | none => false

/-- Every route and overlap point is detected in position and locked for the route. -/
def pointsReady (l : Fin 3) (x : IxlDecl) (d : RouteDecl) (y : RouteSt) (s : State) : Bool :=
  (routePoints x d).all fun p => (y.body.contains p.1 || y.ovl.contains p.1) && (s.ixl[l].points[p.1]?).any fun q => detIs q.det p.2

/-- Step 7 for one route in lane `l` (R136, R137). A train that enters finds the sections that are occupied in that cycle (R140). -/
def stepRoute (g : Fin 2) (x : IxlDecl) (r : Nat) (d : RouteDecl) (l : Fin 3) (s : State) : State := match s.ixl[l].routes[r]? with
  | none => s
  | some y =>
    let occ := (d.sections.head?).any fun i => becomesOcc l i s
    let enter := modRoute l r (fun z => startOverlap x d s { z with mode := .occupied, approach := none, cancel := false, wasOcc := occNow l d s, passed := [] })
    match y.mode with
    | .locked =>
      let a := lockAvailable l d.points y.body s
      let b := lockAvailable l (((d.overlap.bind fun o => x.overlaps[o]?).map (·.points)).getD []) y.ovl a.2
      let c := lockAvailable l (flankPoints x d) y.flk b.2
      let s := modRoute l r (fun z => { z with body := a.1, ovl := b.1, flk := c.1 }) c.2
      let y2 := { y with body := a.1, ovl := b.1, flk := c.1 }
      let ok := flankReady l g x d y2 s
      modRoute l r (fun z => { z with flankOk := ok
                                      mode := if ok && pointsReady l x d y2 s && (routeSections x d).all fun i => provenClear l i s then .set else z.mode }) s
    | .cleared => if occ then enter s else modRoute l r (fun z => { z with flankOk := flankReady l g x d y s }) s
    | .set => modRoute l r (fun z => { z with flankOk := flankReady l g x d y s }) s
    | .approachLocked => if occ then enter s else s
    | .idle => s
    | .occupied => s
    | .emergency => s

/-! ## Step 8 -/

/-- Step 8, the move gate in lane `l` (R134). A request to the position already detected drives no move: the supervision could not end otherwise than at
once (DESIGN CHOICE; log entry 69). -/
def moveGate (x : IxlDecl) (p : Nat) (d : PointDecl) (l : Fin 3) (s : State) : State := match s.ixl[l].points[p]? with
  | none => s
  | some q =>
    match q.want with
    | some rev =>
      if gateOpen l x p s then modPoint l p (fun q => { q with want := none, moving := if detIs q.det rev then none else some (rev, timerCycles d.moveUs s) }) s
      else s
    | none => s

/-- The lock-vector bit of a route in lane `l`. -/
def lockBit (r : Nat) (l : Fin 3) (s : State) : Bool := (readByte (laneMem l) (s.rmus[l].lvec.toNat % 2 ^ 24 + r / 8) s).getLsbD (r % 8)

/-- Step 8, the aspect gate for one route in lane `l` (R138). -/
def aspectOk (l : Fin 3) (g : Fin 2) (x : IxlDecl) (r : Nat) (d : RouteDecl) (y : RouteSt) (s : State) : Bool :=
  let lamps := (s.ixl[l].signals[d.signal]?).any fun z => z.proceedGood && z.stopGood
  !y.disturbed && !y.cancel && lockBit r l s && ((routeSections x d).all fun i => provenClear l i s) && pointsReady l x d y s && flankReady l g x d y s &&
    lamps && !inSafe s

/-- Step 8 in lane `l`: the move gate for every point, then the aspect gate for every signal. A route whose cancel waits carries stop and is not disturbed
by that. -/
def stepGates (g : Fin 2) (x : IxlDecl) (l : Fin 3) (s : State) : State :=
  let s := (enum x.points).foldl (fun s p => moveGate x p.1 p.2 l s) s
  let asked := (x.routes.zip s.ixl[l].routes).zip (List.range x.routes.length)
  let verdicts := asked.map fun z => (z.1.1, z.1.2, (z.1.2.mode == .set || z.1.2.mode == .cleared) && aspectOk l g x z.2 z.1.1 z.1.2 s)
  modIxl l (fun y => { y with
    routes := verdicts.map fun v =>
      if (v.2.1.mode == .set || v.2.1.mode == .cleared) && !v.2.1.cancel then
        (if v.2.2 then { v.2.1 with mode := .cleared } else { v.2.1 with disturbed := true }) else v.2.1
    signals := (enum y.signals).map fun z => { z.2 with aspect := (verdicts.find? fun v => v.2.2 && v.1.signal == z.1).map fun v => v.1.proceedVal } }) s

/-- The end of step 8 for a cancelled route (R139): with stop commanded it is released at once if every approach section is proven clear, and enters
APPROACH_LOCKED otherwise. A route that a train has entered in this cycle is OCCUPIED and keeps that (DESIGN CHOICE; log entry 73). -/
def cancelEnd (g : Fin 2) (r : Nat) (d : RouteDecl) (s : State) : State :=
  let waits (y : RouteSt) : Bool := y.cancel && (y.mode == .set || y.mode == .cleared)
  let clear (l : Fin 3) : Bool := d.approach.all fun i => provenClear l i s
  let s := (lanesWhere g r (fun l y => waits y && !clear l) s).foldl (fun s l =>
    modRoute l r (fun z => { z with mode := .approachLocked, cancel := false, approach := some (timerCycles d.approachUs s) }) s) s
  releaseRoute g r (lanesWhere g r (fun l y => waits y && clear l) s) s

/-! ## Requests (step 6) -/

/-- Gives the program its answer in lane `l`. -/
def answerIxl (l : Fin 3) (a : IxlAnswer) (s : State) : State := modIxl l (fun y => { y with answer := a }) s

/-- The program's answer to an RMU outcome (R126, R137). -/
def outcomeAnswer (w : Nat) : IxlAnswer := match w / 2 ^ 28 with
  | 1 => .granted | 2 => .conflict (w / 2 ^ 16 % 4096) | 3 => .already | 5 => .notLocked | 6 => .badRoute | 7 => .notArmed | _ => .rmuFault

/-- Set route (R137, R151): refused during the restart hold; otherwise RMU.LOCK under vote decides. -/
def setRoute (g : Fin 2) (r : Nat) (s : State) : State :=
  let ls := (runLanes g s).filter fun l => s.ixl[l].holdDone
  let s := (runLanes g s).foldl (fun s l => if s.ixl[l].holdDone then s else answerIxl l .restartHold s) s
  match rmuVote 1 r g ls s with
  | (none, s) => s
  | (some w, s) => ls.foldl (fun s l =>
      let s := answerIxl l (outcomeAnswer w) s
      if w / 2 ^ 28 = 1 then modRoute l r (fun y => { y with mode := .locked, disturbed := false, passed := [], wasOcc := [], cancel := false }) s else s) s

/-- Cancel route (R139). A route in IDLE has nothing to cancel and answers NOT_LOCKED, an unknown route BADROUTE (DESIGN CHOICE; log entry 69). -/
def cancelRoute (g : Fin 2) (r : Nat) (s : State) : State :=
  let free := lanesWhere g r (fun _ y => y.mode == .locked) s
  let s := eachLane g (fun l s => match s.ixl[l].routes[r]? with
    | none => answerIxl l .badRoute s
    | some y => match y.mode with
      | .idle => answerIxl l .notLocked s
      | .locked => answerIxl l .granted s
      | .set => answerIxl l .granted (modRoute l r (fun z => { z with cancel := true }) s)
      | .cleared => answerIxl l .granted (modRoute l r (fun z => { z with cancel := true }) s)
      | .occupied => answerIxl l .routeBusy s
      | .approachLocked => answerIxl l .routeBusy s
      | .emergency => answerIxl l .routeBusy s) s
  releaseRoute g r free s

/-- Emergency release (R142). A route in IDLE answers NOT_LOCKED, an unknown route BADROUTE (DESIGN CHOICE; log entry 69). -/
def emergencyRoute (g : Fin 2) (x : IxlDecl) (r : Nat) (s : State) : State := eachLane g (fun l s => match s.ixl[l].routes[r]?, x.routes[r]? with
  | some y, some d =>
    if y.mode == .idle then answerIxl l .notLocked s
    else if y.mode == .emergency then answerIxl l .routeBusy s
    else
      let s := modRoute l r (fun z => { z with mode := .emergency, cancel := false, approach := none, overlap := none, emergency := some (timerCycles d.emergencyUs s) }) s
      answerIxl l .granted (modIxl l (fun z => { z with signals := setAt z.signals d.signal fun y => { y with aspect := none } }) s)
  | _, _ => answerIxl l .badRoute s) s

/-- Move point (R134): refused with POINT_LOCKED while the point is locked; an unknown point answers BADROUTE (DESIGN CHOICE; log entry 69). -/
def movePoint (g : Fin 2) (p : Nat) (rev : Bool) (s : State) : State := eachLane g (fun l s => match s.ixl[l].points[p]? with
  | some q => if q.locks > 0 then answerIxl l .pointLocked s else answerIxl l .granted (modPoint l p (fun q => { q with want := some rev }) s)
  | none => answerIxl l .badRoute s) s

/-- Step 6 for one request. -/
def ixlRequest (g : Fin 2) (x : IxlDecl) (q : IxlReq) (s : State) : State := match q with
  | .set r => setRoute g r s
  | .cancel r => cancelRoute g r s
  | .emergency r => emergencyRoute g x r s
  | .move p rev => movePoint g p rev s

/-- The runtime stands between steps 5 and 7 of the running cycle (R131), and no vote point holds its cores. -/
def inStep6 (g : Fin 2) (s : State) : Bool :=
  s.voter.grp[g].relAt == some s.cyc.count && s.voter.grp[g].builtAt != some s.cyc.count && s.voter.grp[g].vp.isNone

/-- A program's request: the runtime serves it at step 6, at once where it stands there, and otherwise in the order of the queue (R131). -/
def ixlAsk (q : IxlReq) (s : State) : State := match ixlOf s with
  | none => s
  | some (g, _, x) =>
    if !s.doms[groupDom g].run then s
    else if inStep6 g s && s.voter.grp[g].queue.isEmpty then ixlRequest g x q s
    else modGroup g (fun v => { v with queue := v.queue ++ [q] }) s

/-- Step 6: the requests that wait, in order. -/
def stepRequests (g : Fin 2) (x : IxlDecl) (s : State) : State :=
  s.voter.grp[g].queue.foldl (fun s q => ixlRequest g x q s) (modGroup g (fun v => { v with queue := [] }) s)

/-- SET_ROUTE (R137). -/
def execSetRoute (r : Fin 4096) (s : State) : Meaning := .next (ixlAsk (.set r.val) s)
/-- CANCEL_ROUTE (R139). -/
def execCancelRoute (r : Fin 4096) (s : State) : Meaning := .next (ixlAsk (.cancel r.val) s)
/-- EMERGENCY_RELEASE (R142). -/
def execEmergencyRelease (r : Fin 4096) (s : State) : Meaning := .next (ixlAsk (.emergency r.val) s)
/-- MOVE_POINT (R134). -/
def execMovePoint (p : Fin 2048) (rev : Bool) (s : State) : Meaning := .next (ixlAsk (.move p.val rev) s)

/-! ## The order of work in a cycle (R131) -/

/-- Steps 1 to 5 from A_k. -/
def ixlReceive (g : Fin 2) (s : State) : State := match s.doms[groupDom g].image with
  | none => s
  | some im =>
    let s := eachLane g (connsReceive g im) s
    match im.ixl with
    | some x =>
      let s := eachLane g (fun l s => stepTimers x l (stepPoints g x l (stepSections g x l s))) s
      (enum x.routes).foldl (fun s r => stepRelease g x r.1 r.2 s) (stepExpiries g x s)
    | none => s

/-- Steps 6 to 9, once per cycle, before the group's first end-of-cycle contribution: requests that still wait, progression, gates, the releases of
cancelled routes, the gates' writes, and telegrams. -/
def ixlFinish (g : Fin 2) (s : State) : State := match s.doms[groupDom g].image with
  | none => s
  | some im =>
    if s.voter.grp[g].builtAt = some s.cyc.count then s
    else
      let s := match im.ixl with
        | some x =>
          let s := stepRequests g x s
          let s := (enum x.routes).foldl (fun s r => eachLane g (stepRoute g x r.1 r.2) s) s
          let s := eachLane g (stepGates g x) s
          let s := (enum x.routes).foldl (fun s r => cancelEnd g r.1 r.2 s) s
          eachLane g (fun l s => (enum im.conns).foldl (fun s k => gateWrite l g im x k.1 k.2 s) s) s
        | none => s
      let s := modGroup g (fun v => { v with builtAt := some s.cyc.count }) s
      eachLane g (fun l s => (enum im.conns).foldl (fun s k => telegramNext l g k.1 k.2 s) s) s

/-! ## Expiries, as events -/

/-- POINT_MOVE_TIMEOUT (R134): what step 4 does of itself, of a point for which it is due. -/
def execPointMoveTimeout (p : Fin 2048) (s : State) : Meaning := .next <| match ixlOf s with
  | some (g, _, _) => eachLane g (fun l s => moveExpire l p.val s) s
  | none => s
/-- APPROACH_RELEASE_EXPIRY (R137, R141). -/
def execApproachReleaseExpiry (r : Fin 4096) (s : State) : Meaning := .next <| match ixlOf s with
  | some (g, _, _) => approachExpire g r.val s
  | none => s
/-- EMERGENCY_RELEASE_EXPIRY (R142). -/
def execEmergencyReleaseExpiry (r : Fin 4096) (s : State) : Meaning := .next <| match ixlOf s with
  | some (g, _, _) => emergencyExpire g r.val s
  | none => s
/-- OVERLAP_RELEASE_EXPIRY (R140). -/
def execOverlapReleaseExpiry (r : Fin 4096) (s : State) : Meaning := .next <| match ixlOf s with
  | some (g, _, x) => match x.routes[r.val]? with
    | some d => overlapExpire g r.val d s
    | none => s
  | none => s
/-- RESTART_HOLD_EXPIRY (R151). -/
def execRestartHoldExpiry (s : State) : Meaning := .next <| match ixlOf s with
  | some (g, _, _) => eachLane g holdExpire s
  | none => s

/-! ## The matrix and the RMU's registers -/

/-- MATRIX_SLICE_CHECK (R129): the CRC of the next 64 KiB slice of the matrix, in true polarity, compared through a vote. -/
def execMatrixSliceCheck (s : State) : Meaning := .next <|
  match ixlOf s with
  | none => s
  | some (g, _, _) =>
    if !s.doms[groupDom g].run || s.voter.grp[g].vp.isSome then s
    else
      let s := eachLane g (fun l s =>
        let crc := crc32c (readBytes (laneMem l) (s.rmus[l].base.toNat % 2 ^ 24 + 65536 * s.ixl[l].slice.val) 65536 s)
        let s := contribute l g { kind := .vote, items := leBytes 4 crc.toNat, crc := stateCrc l g s } s
        modIxl l (fun y => { y with slice := y.slice + 1 }) s) s
      voteResolve g false s

/-- A lane core's access to its RMU's registers: power, path, privilege K (R130). -/
def rmuBy (c : CoreId) (f : Fin 3 → State → State) (s : State) : State := match laneOf c with
  | none => answer .noPath 0 (countAf (coreMaster c) s)
  | some (l, _) =>
    if !pdOn (lanePd l) s then answer .domOff 0 (countAf (coreMaster c) s)
    else if !s.cores[c].arch.priv then answer .priv 0 s
    else answer .ok 0 (f l s)

/-- Updates a lane's RMU. -/
def modRmu (l : Fin 3) (f : Rmu → Rmu) (s : State) : State := { s with rmus := s.rmus.set l (f s.rmus[l]) }

/-- The lock-vector bits at 1 in a lane: RMU_NLOCK (R130). -/
def lockCount (l : Fin 3) (s : State) : Nat :=
  ((readBytes (laneMem l) (s.rmus[l].lvec.toNat % 2 ^ 24) 512 s).map fun b => popc 8 b.toNat).sum

/-- ARM: if ROUTES is valid, else BADCFG (R130). -/
def rmuArmOp (l : Fin 3) (s : State) : State :=
  let n := s.rmus[l].routes.toNat
  modRmu l (fun r => if 1 ≤ n ∧ n ≤ 4096 then { r with armed := true } else { r with err := setBit r.err 1 true }) s
/-- DISARM: refused with BADCFG while any lock-vector bit is 1 (R130). -/
def rmuDisarmOp (l : Fin 3) (s : State) : State :=
  let n := lockCount l s
  modRmu l (fun r => if n = 0 then { r with armed := false } else { r with err := setBit r.err 1 true }) s

/-- RMU_ARM. -/
def execRmuArm (c : CoreId) (s : State) : Meaning := .next (rmuBy c rmuArmOp s)
/-- RMU_DISARM. -/
def execRmuDisarm (c : CoreId) (s : State) : Meaning := .next (rmuBy c rmuDisarmOp s)

/-! ## Restart -/

/-- A route, a point and a signal at the restart of an interlocking (R150). -/
def routeFresh : RouteSt :=
  { mode := .idle, disturbed := false, approach := none, emergency := none, overlap := none, overlapDone := false, body := [], ovl := [], flk := []
    flankOk := false, passed := [], wasOcc := [], cancel := false }
/-- A point at the restart. -/
def pointFresh : PointSt := { det := .none, locks := 0, want := none, moving := none, failed := false }
/-- A signal at the restart: stop. -/
def signalFresh : SignalSt := { aspect := none, proceedGood := false, stopGood := false }

/-- The interlocking tables at the restart. -/
def ixlFresh (x : IxlDecl) : Ixl where
  routes := List.replicate x.routes.length routeFresh
  points := List.replicate x.points.length pointFresh
  signals := List.replicate x.signals.length signalFresh
  sections := List.replicate x.sections.length .unknown
  prevSections := List.replicate x.sections.length .unknown
  hold := none
  holdDone := false
  answer := .none
  slice := 0

/-- Connections and interlocking objects at the cold restart of a group (R150, R151), in each of its lanes; the safe telegrams stand ready (R103). -/
def ixlRestart (g : Fin 2) (im : Image) (s : State) : State :=
  let s := eachLane g (fun l s =>
    let s : State := { s with conns := s.conns.set l (s.conns[l].set g (im.conns.map (connReset s.boot.rec_.starts.toNat))) }
    let s := (enum im.conns).foldl (fun s k => writeEntry l g k.1 k.2 s) s
    match im.ixl with
    | none => s
    | some x =>
      let s := store none (laneMem l) (x.lvec % 2 ^ 24) (List.replicate 512 0) s
      let s := modRmu l (fun r => { r with armed := true, routes := BitVec.ofNat 13 x.routes.length, base := 0x600000, lvec := BitVec.ofNat 32 x.lvec }) s
      modIxl l (fun _ => ixlFresh x) s) s
  let l := (memberLanes g s).headD 0
  readySafe g l (fun k => ((s.conns[l][g][k]?).map (·.seq)).getD 0) (modGroup g (fun v => { v with queue := [], tels := [] }) s)

end Sys2Proof.Machine
end

