-- ==== Sys2Proof/Machine/Ring.lean ====
section
/-! DEFINITION. The ring: layouts, trains as they are sent, freight, returned copies, ring time, breaks and surveys (R153 to R206). -/

namespace Sys2Proof.Machine

/-- Updates the ring block. -/
def modRing (f : Ring → Ring) (s : State) : State := { s with ring := f s.ring }
/-- Updates ring time. -/
def modRtm (f : Rtm → Rtm) (s : State) : State := { s with rtm := f s.rtm }

/-! ## Layouts (R156, R166, R167) -/

/-- The coaches of a layout. -/
def coachesOf (s : State) : List CoachDecl := (s.ring.layout.map (·.coaches)).getD []

/-- The lengths of a layout's coaches in order: lead, cyclic, freight. -/
def coachLens (l : Layout) : List Nat := 42 :: (l.coaches.map fun c => 10 + c.olen + c.ilen) ++ List.replicate l.slots (10 + 8 * l.fsize)

/-- Packs coaches into frames with 1,492 bytes of room each: the coach ordinals of each frame. -/
def packFrames (lens : List Nat) : List (List Nat) :=
  let z := (enum lens).foldl (fun (acc : List (List Nat) × List Nat × Nat) x =>
    if acc.2.2 + x.2 ≤ 1492 then (acc.1, acc.2.1 ++ [x.1], acc.2.2 + x.2) else (acc.1 ++ [acc.2.1], [x.1], x.2)) ([], [], 0)
  z.1 ++ [z.2.1]

/-- The frames of a layout. -/
def layoutFrames (l : Layout) : List (List Nat) := packFrames (coachLens l)

/-- B of a layout, in bytes on the wire (R156). -/
def layoutBytes (l : Layout) : Nat :=
  ((layoutFrames l).map fun f => 14 + max 46 (8 + (f.map fun i => (coachLens l).getD i 0).sum) + 4 + 20).sum

/-- L of a connection's telegram in one direction (R144), 0 where it has none. -/
def telLen (present : Bool) (plen : Nat) (auth : Bool) : Nat := if present then 12 + plen + (if auth then 8 else 0) else 0

/-- A layout is refused with RING_LAYOUT_BAD (R167); `conns` are the connections of the images bound to it. -/
def layoutBad (l : Layout) (conns : List ConnDecl) : Bool :=
  let key (c : CoachDecl) : Nat := c.cls.val * 4096 + c.addr.toNat
  let rising := ((l.coaches.zip (l.coaches.drop 1)).all fun p => key p.1 < key p.2)
  !rising || !(l.coaches.map (·.addr)).Nodup || (l.coaches.any fun c => c.addr == 0 || c.cls == 3) || ((coachLens l).any fun n => n > 1492) ||
    (layoutFrames l).length > 256 || l.fsize > 128 || l.slots > 16 ||
    conns.any fun d => (l.coaches.find? fun c => c.addr == d.station).any fun c =>
      c.cls == 0 && (c.olen ≠ telLen d.sends d.plenTx d.auth || c.ilen ≠ telLen d.receives d.plenRx d.auth)

/-- The connections of the loaded images. -/
def loadedConns (s : State) : List ConnDecl := allGroups.flatMap fun g => ((s.doms[groupDom g].image).map (·.conns)).getD []

/-! ## Ports (R153, R154) -/

/-- The ring of a port: X2 and X3 are ring 1, X4 and X5 ring 2. -/
def portRing (p : Port) : Fin 2 := Fin.ofNat 2 (p.val / 2)

/-- The rings that a mode uses. -/
def modeRings (cfg : Word) : Bool × Bool := match field cfg 0 3 with
  | 1 => (true, true) | 2 => (true, false) | 3 => (false, true) | 4 => (true, false) | _ => (false, false)

/-- A native dimension. -/
def native (s : State) : Bool := s.ring.dim == .nativeDual || s.ring.dim == .nativeSingle

/-- A port is active in the ring dimension; the PHY of an idle port is powered down (R153), as both are with PD_RING off. -/
def portActive (p : Port) (s : State) : Bool := pdOn .ring s && match s.ring.dim with
  | .off => false
  | .nativeDual => true
  | .nativeSingle =>
    let m := modeRings s.ring.cfg
    if portRing p = 0 then s.ring.en.getLsbD 0 && m.1 else s.ring.en.getLsbD 1 && m.2
  | .compatLoop => portRing p = 0

/-- The mode at which a port's link must come up: an active port advertises only its dimension's rate, at full duplex (R154). -/
def portMode (s : State) : LinkMode := if native s then .full2500 else .full1000

/-- The ports at which a ring's frames arrive: X2 and X4, and X3 on the reverse direction of COMPAT_LOOP. -/
def portReceives (p : Port) (s : State) : Bool := portActive p s && (p.val % 2 == 0 || (s.ring.dim == .compatLoop && p = 1))

/-- The ports from which the train leaves (R153, R202): X3 and X5 of the rings in effect; with the loop closed at X3 itself, X2 on the reverse
direction. -/
def launchPorts (s : State) : List Port :=
  let out1 : Port := if s.rtm.loop = some 0 then 0 else 1
  (if s.ring.on[(0 : Fin 2)] then [out1] else []) ++ if s.ring.on[(1 : Fin 2)] then [3] else []

/-- The links of ports that are idle are down. -/
def idleLinks (s : State) : State := modRing (fun r => { r with linkUp := r.linkUp.mapIdx fun i b => b && portActive (Fin.ofNat 4 i) s }) s

/-- The ring dimension moves: PD_RING is off while it is OFF (R26) and in a start that has skipped the ring (R466), idle ports power down, and no loop
is left outside COMPAT_LOOP (R153, R180). -/
def moveDim (src : Nat) (d : RingDim) (s : State) : State :=
  let s := setPd .ring (d != .off && !s.boot.rec_.flags.getLsbD 2) (setDim src d s)
  let s := if d == .compatLoop then s else modRtm (fun m => { m with loop := none }) (modRing (fun r => { r with looped := false }) s)
  idleLinks s

/-! ## Delays (R186, R188) -/

/-- The delays of a segment, a forward delay: what a survey read of a station on a ring, in ps. -/
def stationDelay (ring : Fin 2) (a : BitVec 12) (s : State) : Nat × Nat := match s.rtm.delays.find? fun d => d.1 == a with
  | some d => (if ring = 0 then d.2.1.toNat else d.2.2.1.toNat, d.2.2.2.toNat)
  | none => (0, 0)

/-- The upstream segments of stations and the forward delays of stations, summed, in ps. -/
def delaySum (ring : Fin 2) (segs fwd : List (BitVec 12)) (s : State) : Nat :=
  (segs.map fun a => (stationDelay ring a s).1).sum + (fwd.map fun a => (stationDelay ring a s).2).sum

/-- D_x of the station at place `i` of a ring, or with `i` past the last of the module's own receive port, in ps (R186). With a loop closed behind station
`m` (R171), the train turns there, passes back to X3, is relayed within 120 ns, or starts at X2 where the break is at X3, and reaches the stations beyond the break
in reverse; the station after the break turns it forward. A station's turn counts as one forward delay (DEDUCED; log entry 80). -/
def delayAt (ring : Fin 2) (order : List (BitVec 12)) (i : Nat) (s : State) : Nat :=
  let last := s.rtm.segIn[ring].toNat
  let ahead := delaySum ring (order.take (i + 1)) (order.take i) s + (if order.length ≤ i then last else 0)
  match s.rtm.loop with
  | none => ahead
  | some m =>
    if i < m || order.length ≤ m then ahead
    else
      let near := order.take m
      let back := if m = 0 then 0 else delaySum ring near near s + delaySum ring near near.dropLast s + 120000
      let beyond := order.drop m
      let turn := back + last + delaySum ring (beyond.drop 1) (beyond.drop 1) s
      let passed := beyond.take (i - m)
      turn + delaySum ring (beyond.take (i - m + 1) |>.drop 1) passed s + (if order.length ≤ i then last else 0)

/-- D_x of a station, or of the module's own receive port. -/
def delayTo (ring : Fin 2) (addr : Option (BitVec 12)) (s : State) : Nat :=
  let order := (s.ring.layout.map Config.ringOrder).getD []
  delayAt ring order (match addr with | some a => order.findIdx (· == a) | none => order.length) s

/-- ps in ticks of 0.8 ns. -/
def psTicks (n : Nat) : Nat := n / 800

/-! ## The train as it is sent -/

/-- TQUAL (R191). -/
def tqual (s : State) : Nat := s.rtm.tstate.toNat + 4 * bitOf (!s.rtm.todo.isEmpty)

/-- The lead coach (R163). -/
def leadCoach (s : State) : List Byte :=
  let rmode := match s.ring.dim with | .nativeDual => 0 | .off => 0 | .nativeSingle => 1 | .compatLoop => 2
  let body := leBytes 2 0 ++ leBytes 1 8 ++ leBytes 1 0 ++ leBytes 2 32 ++ leBytes 2 0 ++ leBytes 1 0 ++ leBytes 1 0 ++
    leBytes 4 (s.cyc.count.toNat % 2 ^ 32) ++ leBytes 8 (ringTime s).toNat ++ leBytes 4 s.hsb.epoch.toNat ++ leBytes 4 s.cyc.period.toNat ++
    leBytes 4 ((s.ring.layout.map fun l => l.confId.toNat).getD 0) ++ leBytes 1 rmode ++ leBytes 1 s.rtm.tsrc.val ++ leBytes 1 (tqual s) ++ leBytes 1 0
  body ++ leBytes 4 (crc32c body).toNat

/-- A lane is out after a debug attachment, or one is attached (R116, R159). -/
def laneDebugFlag (s : State) : Bool := (allGroups.any fun g => s.voter.grp[g].laneDebug) || allLanes.any fun l => s.voter.lane[l].debug

/-- MSTAT of class-0 coaches (R159). -/
def mstat0 (s : State) : Nat :=
  4 * bitOf s.voter.grp[(0 : Fin 2)].duplex + 8 * bitOf s.voter.grp[(1 : Fin 2)].duplex + 16 * bitOf (laneDebugFlag s) + 32 * bitOf (inSafe s)

/-- The safety connection that sends in a station's coach, with its group. -/
def sendConn (a : BitVec 12) (s : State) : Option (Fin 2 × Nat × ConnDecl) :=
  allGroups.findSome? fun g => (s.doms[groupDom g].image).bind fun im =>
    ((enum im.conns).find? fun k => k.2.sends && k.2.station == a).map fun k => (g, k.1, k.2)

/-- Fits bytes to a length. -/
def fit (n : Nat) (bs : List Byte) : List Byte := (bs ++ List.replicate (n - bs.length) 0).take n

/-- The output field of a class-0 coach in the train of the running cycle (R103, R158, R160): the telegram of a vote that passed in the cycle
before, the safe telegram in the first train after entry to SAFE, otherwise all 0. -/
def outField0 (c : CoachDecl) (s : State) : List Byte := match sendConn c.addr s with
  | none => fit c.olen []
  | some (g, k, _) => match s.voter.grp[g].tels[k]? with
    | none => fit c.olen []
    | some x =>
      if inSafe s then fit c.olen (if s.arb.safeTrain then x.safeTel else [])
      else if !quiet s && s.doms[groupDom g].run && s.voter.grp[g].lastEoc && s.voter.grp[g].eocAt == some (s.cyc.count - 1) then fit c.olen x.telegram
      else fit c.olen []

/-- The pair that owns a coach's output field, and the field's offset in its output image (R158). -/
def coachOwner (a : BitVec 12) (s : State) : Option (Fin 4 × Nat) :=
  allPairs.findSome? fun n => (s.doms[pairDom n].image).bind fun im => (im.coachOut.find? fun x => x.1 == a).map fun x => (n, x.2)

/-- A coach's bytes: header, output field, and an input field of 0 (R157). -/
def coachBytes (addr : BitVec 12) (kind mstat : Nat) (out : List Byte) (ilen : Nat) : List Byte :=
  leBytes 2 addr.toNat ++ leBytes 1 kind ++ leBytes 1 mstat ++ leBytes 2 out.length ++ leBytes 2 ilen ++ leBytes 1 0 ++ leBytes 1 0 ++ out ++ List.replicate ilen 0

/-- The output field of a class 1 or 2 coach: its pair's published image, or the field sent last where that could not be read (`bad`; R318). -/
def outField (c : CoachDecl) (n : Fin 4) (o : Nat) (bad : Bool) (s : State) : List Byte :=
  if bad then fit c.olen (((s.ring.sent.find? fun x => x.1 == c.addr).map Prod.snd).getD []) else fit c.olen (s.doms[pairDom n].published.drop o)

/-- A Coach Engine reads the published images for train k, as they lie in %Q (log entry 84): the addresses of the coaches whose field is uncorrectable, and
what the reads did (R315, R318). -/
def engineReads (l : Layout) (s : State) : List (BitVec 12) × State :=
  l.coaches.foldl (fun (acc : List (BitVec 12) × State) c =>
    match if c.cls = 0 || c.olen = 0 then none else coachOwner c.addr acc.2 with
    | none => acc
    | some (n, o) =>
      let q := ((acc.2.doms[pairDom n].image.map (·.areas.qBase)).getD 0) + o
      let z := (List.range ((q + c.olen - 1) / 8 - q / 8 + 1)).foldl (fun (a : Bool × State) j =>
        let r := checkWord 11 0 (q / 8 + j) a.2
        (a.1 || r.1.isSome, r.2.2)) (false, acc.2)
      (if z.1 then acc.1 ++ [c.addr] else acc.1, z.2)) ([], s)

/-- A cyclic coach as sent; `bad` are the addresses whose image could not be read, which go with REPEAT (R318). -/
def cyclicCoach (bad : List (BitVec 12)) (c : CoachDecl) (s : State) : List Byte :=
  if c.cls = 0 then coachBytes c.addr 0 (mstat0 s) (outField0 c s) c.ilen
  else match coachOwner c.addr s with
    | none => coachBytes c.addr c.cls.val 0 (fit c.olen []) c.ilen
    | some (n, o) =>
      let d := s.doms[pairDom n]
      let bad := bad.contains c.addr
      coachBytes c.addr c.cls.val (bitOf (d.rptSent || bad) + 2 * bitOf d.pstop) (outField c n o bad s) c.ilen

/-! ## Freight: submission and placement (R172 to R177) -/

/-- The TAG of a request's attempt (R172). -/
def frtTag (i : FrtItem) : Nat := i.slot.val + i.attempt * 128 + i.req.src.val * 512

/-- The buffers of a queue place in the top 256 KiB of ST1, 1 KiB each (R312): the request's data, and `back` the answer's freight area (log entry 83). -/
def frtBuf (back : Bool) (slot : Fin 128) : Nat := 0x1C0000 + 0x400 * slot.val + (if back then 0x20000 else 0)
/-- The data of a request as its buffer holds it (R22). -/
def frtData (i : FrtItem) (s : State) : List Byte := readBytes 4 (frtBuf false i.slot) i.req.data.length s

/-- The freight area of an item's coach, with the data as its buffer holds it. -/
def frtArea (fsize : Nat) (i : FrtItem) (data : List Byte) : List Byte :=
  let path := ((enum i.req.path).map fun x => x.2.toNat * 2 ^ (12 * x.1)).sum
  let op := if i.poll then 3 else i.req.op.toNat
  let isW := i.req.op.toNat = 2
  fit (8 * fsize) (leBytes 2 (frtTag i) ++ leBytes 1 op ++ leBytes 1 0 ++ leBytes 1 i.req.path.length ++ leBytes 1 0 ++ leBytes 12 path ++
    leBytes 4 i.req.index.toNat ++ leBytes 2 i.req.data.length ++ (if isW && !i.poll then data else []))

/-- The items that may be placed, in order: retries and polls first, then new requests. -/
def frtOrder (items : List FrtItem) : List FrtItem :=
  let may := items.filter fun i => !i.withdrawn && i.attempt < 4
  (may.filter fun i => i.poll || i.attempt > 0) ++ may.filter fun i => !(i.poll || i.attempt > 0)

/-- No request is placed whose top-level address has an earlier request unfinished. -/
def frtFirst (items : List FrtItem) (i : FrtItem) : Bool :=
  (items.takeWhile fun j => j.slot != i.slot).all fun j => j.req.path.head? != i.req.path.head?

/-- Chooses the requests of train j (R176). -/
def frtChoose (slots : Nat) (items : List FrtItem) : List FrtItem :=
  (frtOrder items).foldl (fun acc i =>
    if acc.length < slots && frtFirst items i && !(i.req.src = 0 && acc.any fun j => j.req.src = 0) then acc ++ [i] else acc) []

/-- Places freight into the train of the running cycle. -/
def frtPlace (s : State) : State :=
  let slots := (s.ring.layout.map (·.slots)).getD 0
  let chosen := if s.ring.frtOn then frtChoose slots s.ring.items else []
  modRing (fun r => { r with items := r.items.map fun i =>
    match (enum chosen).find? fun c => c.2.slot == i.slot with
    | some c => { i with sentIn := some s.cyc.count, pos := c.1, first := some (i.first.getD s.cyc.count) }
    | none => { i with sentIn := none } }) s

/-- The freight coach at place `j` of this cycle's train. -/
def freightCoach (fsize j : Nat) (s : State) : List Byte :=
  match s.ring.items.find? fun i => i.sentIn == some s.cyc.count && i.pos == j with
  | some i => coachBytes (i.req.path.headD 0) 7 0 (frtArea fsize i (frtData i s)) 0
  | none => coachBytes 0 7 0 (fit (8 * fsize) []) 0

/-- The frames of the train, as they leave (R155): to every station, from the module's ring address. -/
def trainFrames (l : Layout) (bad : List (BitVec 12)) (s : State) : List (List Byte) :=
  let coach (i : Nat) : List Byte :=
    if i = 0 then leadCoach s
    else match l.coaches[i - 1]? with
      | some c => cyclicCoach bad c s
      | none => freightCoach l.fsize (i - 1 - l.coaches.length) s
  let fs := layoutFrames l
  (enum fs).map fun f =>
    let body := leBytes 1 1 ++ leBytes 1 f.1 ++ leBytes 1 (fs.length - 1) ++ leBytes 1 f.2.length ++ leBytes 4 (s.cyc.count.toNat % 2 ^ 32) ++ f.2.flatMap coach
    ethFrame toAll (s.fuses.mac + 1) (s.ring.cfg.extractLsb' 16 16) body

/-- A train of which nothing has been sent or has returned. -/
def Train.empty (cyc : Long) (on : Vector Bool 2) : Train :=
  { cyc := cyc, frames := [], ports := [], on := on, rets := [], got := .replicate 2 [], lead := .replicate 2 false, late := false, looped := false
    validAt := none, compared := false }

/-- Why a submission is refused (R177). -/
def frtRefusal (q : FrtReq) (s : State) : Option FrtOutcome :=
  let l := s.ring.layout
  let fsize := (l.map (·.fsize)).getD 0
  if !s.ring.frtOn || s.ring.frtDisable then some .disabled
  else if q.path.isEmpty || q.path.length > 8 || q.path.any (· == 0) || !((coachesOf s).any fun c => some c.addr == q.path.head?) then some .badAddr
  else if q.data.length > 8 * fsize - 24 || (l.map (·.slots)).getD 0 = 0 then some .badLen
  else if s.ring.items.length ≥ 128 then some .full else none

/-- The lowest free place of the queue. -/
def freeSlot (s : State) : Fin 128 :=
  Fin.ofNat 128 (((List.range 128).find? fun n => s.ring.items.all fun i => i.slot.val ≠ n).getD 0)

/-- A new request in the lowest free place. -/
def frtNew (use : FrtUse) (q : FrtReq) (s : State) : FrtItem :=
  { slot := freeSlot s, req := q, use := use, attempt := 0, poll := false, first := none, sentIn := none, pos := 0, withdrawn := false }

/-- The order of the Steward's freight (R356): writes to the mailbox station, reads of it, the rest. -/
def stewRank : FrtUse → Nat
  | .mbxIn => 0 | .mbxOut => 1 | _ => 2

/-- A request of the Steward joins the queue before its requests of a lower order that no train has carried. -/
def frtInsert (x : FrtItem) : List FrtItem → List FrtItem
  | [] => [x]
  | y :: ys => if y.req.src = 0 && y.first.isNone && stewRank x.use < stewRank y.use then x :: y :: ys else y :: frtInsert x ys

/-- Submits an access to the mailbox station; a refused one is left for a later train. -/
def mbxSubmit (use : FrtUse) (q : FrtReq) (s : State) : State :=
  if (frtRefusal q s).isSome || s.ring.items.any (fun i => i.use == use) then s
  else writeBytes 4 (frtBuf false (freeSlot s)) q.data (modRing (fun r => { r with items := frtInsert (frtNew use q s) r.items }) s)

/-- The first reply that waits for the freight transport, submitted as a WRITE of MBX_IN. -/
def mbxReply (a : BitVec 12) (s : State) : State := match s.mbx.out.findSome? (fun o => match o with | .datagram .freight b => some b | _ => none) with
  | none => s
  | some b =>
    let t := mbxSubmit .mbxIn { src := 0, op := 2, path := [a], index := 0xFFFFFF11, data := b } s
    if t.ring.items.length = s.ring.items.length then s else { t with mbx := { t.mbx with out := t.mbx.out.erase (.datagram .freight b) } }

/-- The Steward's accesses to the mailbox station for train k (R356): a reply, and in every eighth train a READ of MBX_OUT (log entry 85). -/
def mbxFreight (l : Layout) (s : State) : State := match l.mailbox with
  | none => s
  | some a =>
    if !(s.mbx.frt && pdOn .stew s) then s
    else
      let s := mbxReply a s
      if s.cyc.count.toNat % 8 = 0 then mbxSubmit .mbxOut { src := 0, op := 1, path := [a], index := 0xFFFFFF10, data := List.replicate (8 * l.fsize - 24) 0 } s else s

/-- A train begins: what both engines launch at T_k (R156, R171); a pair whose coaches carry REPEAT in it is marked (R44). -/
def launchTrain (s : State) : State := match s.ring.layout with
  | none => modRing (fun r => { r with train := none }) s
  | some l =>
    let z := engineReads l (frtPlace (mbxFreight l s))
    let s := z.2
    let s := allPairs.foldl (fun s n => modDom (pairDom n) (fun x => { x with repeated := x.repeated || (x.rptSent && x.image.any fun im => !im.coachOut.isEmpty) }) s) s
    let sent := l.coaches.filterMap fun c => if c.cls = 0 then none else (coachOwner c.addr s).map fun x => (c.addr, outField c x.1 x.2 (z.1.contains c.addr) s)
    modRing (fun r => { r with train := some { Train.empty s.cyc.count r.on with frames := trainFrames l z.1 s, ports := launchPorts s }, sent := sent }) s

/-! ## Freight: ends -/

/-- Where a request's end goes: the list of ends, and the command that waits for it (R370, R374). -/
def frtDeliver (e : FrtEnd) (s : State) : State :=
  let s := modRing (fun r => { r with ends := r.ends ++ [e] }) s
  match e.use with
  | .host c => match e.out with
    | .done d => finish c .ok 0 (1 :: d) s
    | .stationErr k => finish c .stationErr k.toNat [k] s
    | .link => finish c .link 0 [] s
    | .cancelled => finish c .cancelledDisable 0 [] s
    | .full => finishRefused c 0 "FREIGHT_FULL" s
    | .disabled => finish c .disabled 0 [] s
    | .badAddr => finishRefused c 0 "BAD_ADDR" s
    | .badLen => finishRefused c 0 "FREIGHT_LEN" s
  | _ => s

/-- The counters of FRT_DONE, FRT_LINK, FRT_CANCEL. -/
def frtCount (o : FrtOutcome) (r : Ring) : Ring := match o with
  | .done _ => { r with frtDone := inc r.frtDone }
  | .stationErr _ => { r with frtDone := inc r.frtDone }
  | .link => { r with frtLink := inc r.frtLink }
  | .cancelled => { r with frtCancel := inc r.frtCancel }
  | _ => r

/-- Submits a request to the Coach Engine (R22, R177): its data go to the buffer of its place. -/
def frtSubmit (use : FrtUse) (q : FrtReq) (s : State) : State := match frtRefusal q s with
  | some o => frtDeliver { slot := none, req := q, use := use, out := o } s
  | none => writeBytes 4 (frtBuf false (freeSlot s)) q.data
      (modRing (fun r => { r with items := r.items ++ [frtNew use q s] }) s)

/-! ## Surveys (R188) -/

/-- The OFFSETS entry of a station (R188, R212): this module's, and the partner's with d_back of the originating module. The partner's ring address is
four below the address of its X7, from which its sync messages come (R208, R487). -/
def offsetsData (a : BitVec 12) (s : State) : List Byte :=
  let d1 := delayTo 0 (some a) s
  let d2 := delayTo 1 (some a) s
  let entry (mac : BitVec 48) (back : Nat) : List Byte := macBytes mac ++ leBytes 4 (d1 + back) ++ leBytes 4 (d2 + back)
  entry (s.fuses.mac + 1) 0 ++ match if paired s then s.sync.pMac else none with
    | some mac => entry (mac - 4) s.sync.dback.toNat
    | none => List.replicate 14 0

/-- RTM_SURV (R206). -/
def rtmSurv (s : State) : Word := pack [(s.rtm.survCount.toNat, 0), (s.rtm.survState.toNat, 30)]

/-- A survey ends; a SURVEY command that waits for it is answered with RTM_SURV (R368). -/
def surveyDone (s : State) : State :=
  let s := modRtm (fun m => { m with survState := if m.survFail then 3 else 2 }) s
  (waiting .freight s).foldl (fun s c => finish c .ok 0 (leBytes 4 (rtmSurv s).toNat) s) s

/-- Submits a survey's access; where the Coach Engine refuses it, no station left gives a DONE (R188). -/
def surveySubmit (use : FrtUse) (q : FrtReq) (s : State) : State := match frtRefusal q s with
  | none => frtSubmit use q s
  | some _ => surveyDone (modRtm (fun m => { m with todo := [], survFail := true, evt := setBit m.evt 7 true }) s)

/-- Submits the next access of a running survey, or ends the survey. -/
def surveyNext (s : State) : State :=
  let m := s.rtm
  if m.survState ≠ 1 || s.ring.items.any fun i => match i.use with | .survey _ _ => true | _ => false then s
  else match m.todo.find? fun t => !t.2 with
    | some (a, _) => surveySubmit (.survey a false) { src := 0, op := 1, path := [a], index := 0xFFFFFF00, data := List.replicate 12 0 } s
    | none => match m.todo with
      | (a, _) :: _ => surveySubmit (.survey a true) { src := 0, op := 2, path := [a], index := 0xFFFFFF01, data := offsetsData a s } s
      | [] => surveyDone s

/-- A survey access has ended: the station keeps its previous offsets where no DONE came (R188). -/
def surveyEnd (a : BitVec 12) (wr : Bool) (o : FrtOutcome) (s : State) : State :=
  let s := modRtm (fun m => match o, wr with
    | .done d, false => { m with todo := m.todo.map fun t => if t.1 == a then (a, true) else t
                                 delays := (m.delays.filter fun x => x.1 != a) ++ [(a, BitVec.ofNat 32 (sliceNat 0 4 d), BitVec.ofNat 32 (sliceNat 4 4 d), BitVec.ofNat 32 (sliceNat 8 4 d))] }
    | .done _, true => { m with todo := m.todo.filter fun t => t.1 != a, survCount := m.survCount + 1 }
    | _, _ => { m with todo := m.todo.filter fun t => t.1 != a, survFail := true, evt := setBit m.evt 7 true }) s
  surveyNext s

/-- Ends a request in flight. -/
def frtFinish (i : FrtItem) (o : FrtOutcome) (s : State) : State :=
  let s := modRing (fun r => frtCount o { r with items := r.items.filter fun j => j.slot != i.slot }) s
  let s := frtDeliver { slot := some i.slot, req := i.req, use := i.use, out := o } s
  match i.use with
  | .survey a wr => surveyEnd a wr o s
  | _ => s

/-- Stations that need a survey join the list (R188). -/
def surveyWant (as_ : List (BitVec 12)) (s : State) : State :=
  modRtm (fun m => { m with todo := m.todo ++ (as_.filter fun a => !m.todo.any fun t => t.1 == a).map fun a => (a, false) }) s

/-- Every station needs a survey, also one that a survey under way has already read. -/
def surveyAll (s : State) : State := modRtm (fun m => { m with todo := (coachesOf s).map fun c => (c.addr, false) }) s

/-- The module measures the segments into X2 and X4 itself (R187), whose values the spec leaves to the cables (log entry 3). -/
def measureSegs (s : State) : State :=
  let f := nextFree s
  let g := nextFree f.2
  modRtm (fun m => { m with segIn := #v[BitVec.ofNat 32 (Config.freeNat f.1), BitVec.ofNat 32 (Config.freeNat g.1)] }) g.2

/-- SURVEY_START (R188): a survey that is pending begins. -/
def surveyBegin (s : State) : State :=
  if s.rtm.todo.isEmpty || s.rtm.survState = 1 then s
  else
    let s := measureSegs s
    surveyNext (modRtm (fun m => { m with survState := 1, survCount := 0, survFail := false, todo := m.todo.map fun t => (t.1, false) }) s)

/-! ## The returned train -/

/-- The RT field and the state of a coach's returned copies, in order of return. -/
def copiesOf (t : Train) (i : Nat) : List CoachRet := t.rets.filter fun r => r.idx == i
/-- A copy has valid inputs (R162). -/
def CoachRet.valid (r : CoachRet) : Bool := r.wkc == 2 || r.wkc == 3
/-- A copy shows delivery (R162). -/
def CoachRet.delivered (r : CoachRet) : Bool := r.wkc == 1 || r.wkc == 3

/-- Parses the coaches of a frame: for each ordinal of the layout in the frame, its fields as the copy carried them. -/
def parseCoaches (l : Layout) (ring : Fin 2) (payload : List Byte) : Nat → List Nat → List CoachRet
  | _, [] => []
  | o, 0 :: is => parseCoaches l ring payload (o + 42) is
  | o, (i + 1) :: is =>
    let (ol, il) := match l.coaches[i]? with | some c => (c.olen, c.ilen) | none => (8 * l.fsize, 0)
    { ring := ring, idx := i, wkc := payload.getD (o + 8) 0, mstat := payload.getD (o + 3) 0, sstat := payload.getD (o + 9) 0
      output := (payload.drop (o + 10)).take ol, input := (payload.drop (o + 10 + ol)).take il } :: parseCoaches l ring payload (o + 10 + ol + il) is

/-- The lead coach of frame 0's payload is correct (R164). -/
def leadGood (payload : List Byte) : Bool :=
  let b := payload.drop 8
  sliceNat 0 2 b == 0 && sliceNat 2 1 b == 8 && sliceNat 38 4 b == (crc32c (b.take 38)).toNat

/-- Counts in a ring's counters RX, FCSERR, WKCERR, LINKERR, FOREIGN (R180). -/
def ringCount (ring : Fin 2) (k : Fin 5) (s : State) : State :=
  modRing (fun r => { r with cnt := r.cnt.set ring (r.cnt[ring].set k (inc r.cnt[ring][k])) }) s

/-- Every cyclic coach has a valid copy on some running ring (R37). -/
def coachesValid (l : Layout) (t : Train) : Bool := (List.range l.coaches.length).all fun i => (copiesOf t i).any (·.valid)

/-- The lead coach of a copy is valid for train `k` (R200, R221): CRC, TRAIN, and the epoch that the module follows or uses. -/
def leadValid (p : List Byte) (k : Nat) (s : State) : Bool :=
  leadGood p && sliceNat 18 4 p == k && (sliceNat 30 4 p == s.hsb.epoch.toNat)

/-- A frame of the running cycle's train, returned or passing (R162, R183), at its end: its coaches are recorded once for each ring while IR_k has not
fallen; late returns latch RT_OVER_SEEN. -/
def recordFrame (ring : Fin 2) (f : Frame) (s : State) : State := match s.ring.train, s.ring.layout with
  | some t, some l =>
    let p := f.payload
    let fno := sliceNat 1 1 p
    let k := (pairNo t.cyc s).toNat % 2 ^ 32
    let late := since s.cyc.tk s * 800 > l.roundTripPs
    if sliceNat 0 1 p ≠ 1 || sliceNat 4 4 p ≠ k || t.got[ring].contains fno then s
    else match (layoutFrames l)[fno]? with
      | none => s
      | some is =>
        let rets := parseCoaches l ring p 8 is
        let bad := rets.filter fun r => r.wkc == 1 || r.wkc.toNat ≥ 4
        let s := bad.foldl (fun s r => if r.idx < l.coaches.length then ringCount ring 2 s else s) s
        let s := if late then modRtm (fun m => { m with evt := setBit m.evt 6 true }) s else s
        let t := { t with got := t.got.set ring (fno :: t.got[ring]), late := t.late || late
                          lead := if fno = 0 && leadValid p k s then t.lead.set ring true else t.lead
                          rets := if s.cyc.ir.isNone then t.rets ++ rets else t.rets }
        modRing (fun r => { r with train := some { t with validAt := t.validAt.or (if coachesValid l t then some s.cyc.tb else none) } }) s
  | _, _ => s

/-- A frame of the train before the running one, which has returned later than every round trip allows (R183). -/
def lateFrame (f : Frame) (s : State) : State :=
  if s.ring.lastTrain.any fun k => sliceNat 0 1 f.payload = 1 && sliceNat 4 4 f.payload = k.toNat % 2 ^ 32 then
    modRtm (fun m => { m with evt := setBit m.evt 6 true, rtOver := true }) s
  else s

/-- NODE_STATUS of a station (R197), and whether it came into LOST. -/
def nodeStatus (dual : Bool) (off : Bool) (cs : List CoachRet) (old : Byte) : Byte :=
  match cs.find? (·.valid) with
  | none => BitVec.ofNat 8 (2 + 4 * bitOf (off || !cs.any (·.delivered)))
  | some c =>
    let one := dual && !((cs.any fun x => x.valid && x.ring = 0) && cs.any fun x => x.valid && x.ring = 1)
    BitVec.ofNat 8 (1 + 4 * bitOf (!cs.any (·.delivered)) + 8 * bitOf (old.getLsbD 1) + 16 * bitOf (c.sstat.getLsbD 0) + 32 * bitOf (c.sstat.getLsbD 1) +
      64 * bitOf (c.sstat.getLsbD 4) + 128 * bitOf one)

/-- The stations at IR_k (R162, R197, R198): status bytes, input fields, losses, stations to survey. -/
def evalStations (s : State) : State :=
  let off := s.ring.dim == .off
  let dual := s.ring.dim == .nativeDual
  let cs := coachesOf s
  let copies (i : Nat) : List CoachRet := if off then [] else match s.ring.train with | some t => copiesOf t i | none => []
  let old (i : Nat) : Station := s.ring.stations.getD i { status := 6, sstat := 0, input := [], lostAt := none }
  let new := (enum cs).map fun c =>
    let o := old c.1
    let st := nodeStatus dual off (copies c.1) o.status
    match (copies c.1).find? (·.valid) with
    | some r => ({ status := st, sstat := r.sstat, input := r.input, lostAt := none } : Station)
    | none => { status := st, sstat := o.sstat, input := if c.2.cls = 0 then o.input else c.2.subst.getD o.input, lostAt := o.lostAt.or (some s.cyc.tb) }
  let lost := ((enum new).filter fun x => x.2.status.getLsbD 1 && !(old x.1).status.getLsbD 1).length
  let s := if off then s else modRtm (fun m => { m with lostSt := incBy m.lostSt lost }) s
  let want := (cs.zip new).filterMap fun x => if x.2.status.getLsbD 0 && (x.2.status.getLsbD 3 || x.2.sstat.getLsbD 3) then some x.1.addr else none
  surveyWant (if off then [] else want) (modRing (fun r => { r with stations := new }) s)

/-- A ring has returned the train of `n` frames: its last frame has returned (R181). -/
def ringReturned (t : Train) (n : Nat) (r : Fin 2) : Bool := t.got[r].contains (n - 1)

/-- The rings at the end of a cycle (R200, R201): runs of valid and missing lead coaches, and trains that returned on no ring. -/
def evalRings (s : State) : State := match s.ring.train, s.ring.layout with
  | some t, some l =>
    if s.ring.dim == .off then s
    else
      let n := (layoutFrames l).length
      let none_ := !(ringReturned t n 0 || ringReturned t n 1)
      let s := modRtm (fun m => { m with lostTr := if none_ then inc m.lostTr else m.lostTr
                                         good := m.good.mapIdx fun i x => if t.lead.toList.getD i false then x + 1 else 0
                                         bad := m.bad.mapIdx fun i x => if t.lead.toList.getD i false || !(t.on.toList.getD i false) then 0 else x + 1 }) s
      modRing (fun r => { r with looped := r.dim == .compatLoop && (t.looped || s.rtm.loop.isSome) }) s
  | _, _ => s

/-- The judgement of a freight attempt (R173): final, to be polled, or failed. -/
inductive FrtJudge where
  | final (o : FrtOutcome) | forwarded | failed
  deriving DecidableEq, Repr

/-- Judges an item's coach. -/
def frtJudge (i : FrtItem) (cs : List CoachRet) : FrtJudge := match cs.find? fun c => c.wkc == 3 with
  | none => .failed
  | some c =>
    let a := c.output
    let st := sliceNat 3 1 a
    let lvl := sliceNat 5 1 a
    let depth := i.req.path.length
    if sliceNat 0 2 a ≠ frtTag i then .failed
    else if st = 3 then (if 1 ≤ lvl && lvl < depth then .forwarded else .failed)
    else if lvl ≠ depth then .failed
    else if st = 1 then .final (.done (if i.req.op.toNat = 1 then (a.drop 24).take (sliceNat 22 2 a) else []))
    else if 0x10 ≤ st && st ≤ 0x7F then .final (.stationErr (BitVec.ofNat 8 st)) else .failed

/-- An answer that counts goes to the buffer of its place (R22): the freight area as it came back. -/
def frtAnswer (i : FrtItem) (cs : List CoachRet) (s : State) : State :=
  writeBytes 4 (frtBuf true i.slot) (((cs.find? fun c => c.wkc == 3).map (·.output)).getD []) s

/-- The answers of the freight coaches at IR_k (R173, R174). -/
def evalFreight (s : State) : State := match s.ring.train, s.ring.layout with
  | some t, some l =>
    (s.ring.items.filter fun i => i.sentIn == some t.cyc).foldl (fun s i =>
      let cs := copiesOf t (l.coaches.length + i.pos)
      match frtJudge i cs with
      | .final o => frtFinish i o (frtAnswer i cs s)
      | .forwarded => modRing (fun r => { r with items := r.items.map fun j => if j.slot == i.slot then { j with poll := true, sentIn := none } else j }) s
      | .failed => modRing (fun r => { r with items := r.items.map fun j =>
          if j.slot == i.slot then { j with poll := false, sentIn := none, attempt := j.attempt + 1 } else j }) s) s
  | _, _ => s

/-! ## Time sources (R192 to R195) -/

/-- The offset of a rank's source in this cycle, if its reference is valid (R193). An address-0 entry is always valid. -/
def rankOffset (i : Nat) (a : BitVec 12) (s : State) : Option Long :=
  if a = 0 then some 0
  else match (enum (coachesOf s)).find? fun c => c.2.addr == a, s.ring.train with
    | some c, some t => match (copiesOf t c.1).find? (·.valid) with
      | none => none
      | some r =>
        let ring := sliceNat 9 1 r.input
        let tref : Long := s.cyc.tk + s.rtm.rtofs.getD 0
        let off : Long := BitVec.ofNat 64 (sliceNat 0 8 r.input) - (tref + BitVec.ofNat 64 (psTicks (delayTo (Fin.ofNat 2 (ring - 1)) (some a) s)))
        let near := match (s.rtm.ranks.toList.getD i .reset).last with
          | none => true
          | some o => (off - o).toInt.natAbs ≤ tickUs
        if sliceNat 8 1 r.input ≤ 1 && sliceNat 12 4 r.input = (crc32c (r.input.take 12)).toNat && near then some off else none
    | _, _ => none

/-- The time-source table. -/
def sourcesOf (s : State) : List (BitVec 12) := (s.ring.layout.map (·.sources)).getD []

/-- The references of all ranks at IR_k. -/
def evalRanks (s : State) : State :=
  let src := sourcesOf s
  modRtm (fun m => { m with ranks := m.ranks.mapIdx fun i r => match src[i]? with
    | none => r
    | some a => match rankOffset i a s with
      | some o => { valid := r.valid + 1, missing := 0, last := some o, now := some o }
      | none => { r with valid := 0, missing := r.missing + 1, now := none } }) s

/-- Steering (R191, R193, R195): from the selected station source, or in a module that follows a primary from the primary's reference. RTM_DIFF is in 0.1 ns,
LOCKED means within 20 ns, and the rate correction within ±50 ppm has a value that the spec leaves to the module (log entry 3). -/
def steer (s : State) : State :=
  let m := s.rtm
  let a := (sourcesOf s).getD m.tsrc.val 0
  let follow (o : Long) : State :=
    let f := nextFree s
    let rate := (Config.freeNat f.1 % 10001 : Int) - 5000
    let d := max (-(2 ^ 31 : Int)) (min (2 ^ 31 - 1) (o.toInt * 8))
    modRtm (fun m => { m with tstate := if d.natAbs ≤ 200 then 0 else 1, diff := BitVec.ofInt 32 d, rate := BitVec.ofInt 16 rate }) f.2
  if followsPrimary s then (match m.refOff with | some o => follow o | none => s)
  else if m.holdover then modRtm (fun m => { m with tstate := 2, diff := 0 }) s
  else if a = 0 then modRtm (fun m => { m with tstate := 3, diff := 0, rate := 0 }) s
  else match m.ranks.toList.getD m.tsrc.val .reset |>.now with
    | none => s
    | some o => follow o

/-- The selection rules of R193 in order: the rank to select, or holdover, where it changes. -/
def sourceChoice (s : State) : Option (Option (Fin 4)) :=
  let m := s.rtm
  let ranks := ((List.range 4).filter fun i => i < (sourcesOf s).length).map fun i => (i, m.ranks.toList.getD i .reset)
  let cur := m.ranks.toList.getD m.tsrc.val .reset
  let revert := (s.ring.layout.map (·.revert)).getD 256
  if m.holdover then match ranks.find? fun r => r.2.valid ≥ 3 with
    | some r => some (some (Fin.ofNat 4 r.1))
    | none => none
  else if cur.missing ≥ 3 then match ranks.find? fun r => r.2.now.isSome with
    | some r => if r.1 = m.tsrc.val then none else some (some (Fin.ofNat 4 r.1))
    | none => some none
  else match ranks.find? fun r => r.1 < m.tsrc.val && r.2.valid ≥ revert with
    | some r => some (some (Fin.ofNat 4 r.1))
    | none => none

/-- TIME_SOURCE_CHANGE (R193, R194); a module that follows a primary selects no source of its own (R195). -/
def execTimeSourceChange (s : State) : Meaning := .next <|
  match if followsPrimary s then none else sourceChoice s with
  | none => s
  | some none => modRtm (fun m => { m with holdover := true, tstate := 2, diff := 0, evt := setBit m.evt 3 true }) s
  | some (some r) =>
    modRtm (fun m => { m with holdover := false, tsrc := r, evt := setBit m.evt 2 (r != m.tsrc || m.evt.getLsbD 2)
                              srcchg := if r = m.tsrc then m.srcchg else inc m.srcchg
                              tstate := if (sourcesOf s).getD r.val 0 = 0 then 3 else 1, diff := 0
                              rate := if (sourcesOf s).getD r.val 0 = 0 then 0 else m.rate }) s

/-! ## Links and breaks (R154, R200 to R204) -/

/-- Marks a ring broken, once. -/
def markBroken (ring : Fin 2) (s : State) : State :=
  if s.rtm.brk[ring] then s else modRtm (fun m => { m with brk := m.brk.set ring true, evt := setBit m.evt ring.val true, good := m.good.set ring 0 }) s

/-- A link goes down: in a native dimension its ring is broken (R200). -/
def linkDown (p : Port) (s : State) : State :=
  let s := modRing (fun r => { r with linkUp := r.linkUp.set p false }) s
  if native s && s.ring.on[portRing p] then markBroken (portRing p) s else s

/-- RING_LINK_DOWN (R200). -/
def execRingLinkDown (p : Port) (s : State) : Meaning := .next (linkDown p s)

/-- RING_LINK_UP (R154): at an active port; a link at another rate or at half duplex is treated as down and counted in LINKERR. -/
def execRingLinkUp (p : Port) (mode : LinkMode) (s : State) : Meaning := .next <|
  if !portActive p s then s
  else if mode = portMode s then modRing (fun r => { r with linkUp := r.linkUp.set p true }) s
  else ringCount (portRing p) 3 (linkDown p s)

/-- Both links of a ring are up. -/
def ringLinked (ring : Fin 2) (s : State) : Bool := if ring = 0 then s.ring.linkUp[(0 : Fin 4)] && s.ring.linkUp[(1 : Fin 4)] else s.ring.linkUp[(2 : Fin 4)] && s.ring.linkUp[(3 : Fin 4)]

/-- RING_BROKEN (R200): a link is down, or 3 trains in a row returned no valid lead coach. -/
def execRingBroken (ring : Fin 2) (s : State) : Meaning := .next <|
  if native s && s.ring.on[ring] && (!ringLinked ring s || s.rtm.bad[ring] ≥ 3) then markBroken ring s else s

/-- RING_WHOLE (R200): 3 valid returns in a row. -/
def execRingWhole (ring : Fin 2) (s : State) : Meaning := .next <|
  if s.rtm.brk[ring] && s.rtm.good[ring] ≥ 3 then modRtm (fun m => { m with brk := m.brk.set ring false }) s else s

/-- The number of stations before the break (R202): none where X3 has no link, all where X2 has none. A break between stations has a place that the module is not
told, a free value (log entry 3). -/
def breakPlace (s : State) : Nat × State :=
  let n := (coachesOf s).length
  if !s.ring.linkUp[(1 : Fin 4)] then (0, s)
  else if !s.ring.linkUp[(0 : Fin 4)] then (n, s)
  else
    let f := nextFree s
    (Config.freeNat f.1 % (n + 1), f.2)

/-- SEGMENT_BREAK (R202): the loop is closed, by the module itself at either of its ports, and a survey follows. -/
def execSegmentBreak (s : State) : Meaning := .next <|
  if s.ring.dim != .compatLoop then s
  else
    let z := breakPlace s
    surveyAll (modRing (fun r => { r with looped := true }) (modRtm (fun x => { x with loop := some z.1, evt := setBit x.evt 4 true }) z.2))

/-- LOOP_OPENED (R204). -/
def execLoopOpened (s : State) : Meaning := .next <|
  if s.ring.dim != .compatLoop || s.rtm.loop.isNone then s
  else surveyAll (modRing (fun r => { r with looped := false }) (modRtm (fun m => { m with loop := none, evt := setBit m.evt 5 true }) s))

/-- SURVEY_START. -/
def execSurveyStart (s : State) : Meaning := .next (surveyBegin s)

/-! ## Freight rows -/

/-- FREIGHT_SUBMIT (R177). -/
def execFreightSubmit (r : FrtReq) (s : State) : Meaning := .next (frtSubmit .program r s)

/-- FREIGHT_BUDGET_EXPIRY (R174): train t0 + 3 + 2 × (d − 1) has returned and no final answer has come: LINK. -/
def execFreightBudgetExpiry (slot : Fin 128) (s : State) : Meaning := .next <|
  match s.ring.items.find? fun i => i.slot == slot with
  | none => s
  | some i => match i.first with
    | none => s
    | some t0 =>
      let lastTrain := t0.toNat + 3 + 2 * (i.req.path.length - 1)
      if s.cyc.count.toNat > lastTrain || (s.cyc.count.toNat = lastTrain && s.cyc.ir.isSome) then frtFinish i .link s else s

/-- Every unfinished request ends (R177, R178): LINK for one already withdrawn. -/
def frtEndAll (o : FrtOutcome) (s : State) : State := s.ring.items.foldl (fun s i => frtFinish i (if i.withdrawn then .link else o) s) s

/-- Withdrawn requests end with LINK at the first train boundary after the withdrawal (R375). -/
def frtWithdrawnEnd (s : State) : State := (s.ring.items.filter (·.withdrawn)).foldl (fun s i => frtFinish i .link s) s

/-! ## RING_EN and RING_CFG (R178 to R180) -/

/-- The dimension that RING_EN asks for under the configured mode. -/
def wantedDim (en1 en2 : Bool) (cfg : Word) : RingDim :=
  let m := modeRings cfg
  let a := en1 && m.1
  let b := en2 && m.2
  if field cfg 0 3 = 4 then (if a then .compatLoop else .off)
  else if a && b then .nativeDual else if a || b then .nativeSingle else .off

/-- What stands against a ring dimension of OFF (R484): in SAFE, in a service-only start, in a paired module. -/
def ringOffRefusal (s : State) : Option (Nat × String) :=
  if inSafe s then some (0x05, "IN_SAFE")
  else if serviceOnly s then some (0x0C, "SERVICE_ONLY")
  else if paired s then some (0x0A, "PAIR_NO_RING") else none

/-- A change of RING_EN waits for the next train boundary; the value it has already is no change. -/
def recordEn (en : BitVec 3) (s : State) : State :=
  modRing (fun r => { r with en := en, enPend := r.enPend || en != r.en, frtDisable := r.frtOn && !en.getLsbD 2 }) s

/-- The change of RING_EN's ring bits, refused where it would switch the ring dimension to OFF and the Mode Arbiter refuses that. -/
def ringEnRings (en1 en2 : Bool) (s : State) : Option (Nat × String) × State :=
  let offNow := s.ring.dim != .off && wantedDim en1 en2 s.ring.cfg == .off
  match if offNow then ringOffRefusal s else none with
  | some e => (some e, { s with arb := { s.arb with reason := BitVec.ofNat 8 e.1, refused := true } })
  | none => (none, recordEn (setBit (setBit s.ring.en 0 en1) 1 en2) s)

/-- RING_EN_RING (R179). -/
def execRingEnRing (en1 en2 : Bool) (s : State) : Meaning := .next (ringEnRings en1 en2 s).2
/-- RING_EN_FRT (R178). -/
def execRingEnFrt (on : Bool) (s : State) : Meaning := .next (recordEn (setBit s.ring.en 2 on) s)

/-- The rings of RING_EN in effect before a change, as RING_EN bits. -/
def ringsOn (s : State) : BitVec 3 := setBit (setBit s.ring.en 0 s.ring.on[(0 : Fin 2)]) 1 s.ring.on[(1 : Fin 2)]

/-- The recorded change takes effect at T_j (R178, R179): a change to OFF is judged once more there, and where it fails the rings stay on (R474). -/
def ringEnEffect (s : State) : State :=
  let r := s.ring
  let m := modeRings r.cfg
  let asked := wantedDim (r.en.getLsbD 0) (r.en.getLsbD 1) r.cfg
  let kept := if r.dim != .off && asked == .off then ringOffRefusal s else none
  let s := match kept with
    | some e => { s with arb := { s.arb with reason := BitVec.ofNat 8 e.1, refused := true }, ring := { s.ring with en := ringsOn s } }
    | none => s
  let r := s.ring
  let dim := if kept.isSome then r.dim else asked
  let leaves := r.dim == .off && dim != .off
  let s := if dim == .off || (r.frtOn && !r.en.getLsbD 2) then frtEndAll .cancelled s else s
  let s := moveDim 0 dim s
  let s := modRing (fun r => { r with on := #v[r.en.getLsbD 0 && m.1, r.en.getLsbD 1 && m.2], enPend := false, frtDisable := false
                                      frtOn := r.en.getLsbD 2 && dim != .off }) s
  let s := idleLinks s
  if leaves then surveyAll s else s

/-- RING_EN_TAKE_EFFECT: at the train boundary, where CYCLE_START does it of itself; at once where no train runs. -/
def execRingEnTakeEffect (s : State) : Meaning := .next (if s.ring.enPend && (!s.cyc.running || tkDue s) then ringEnEffect s else s)

/-- RING_CFG is out of range (R180). -/
def ringCfgBad (v : Word) : Bool :=
  let e := field v 16 16
  field v 0 3 ≥ 5 || e < 0x600 || e == 0x800 || e == 0x806 || e == 0x86DD || e == 0x8100 || e == 0x88A8

/-- Loads a value into RING_CFG (R180, R472): RING_EN requests every ring the mode uses, FRT where there are slots, and the ring dimension
follows the mode. -/
def ringCfgLoad (v : Word) (s : State) : State :=
  let m := modeRings v
  let en : BitVec 3 := BitVec.ofNat 3 (bitOf m.1 + 2 * bitOf m.2 + 4 * bitOf ((s.ring.layout.map (·.slots)).getD 0 > 0))
  let dim := wantedDim m.1 m.2 v
  let s' := moveDim 0 dim (modRing (fun r => { r with cfg := v &&& 0xFFFF0007, en := en, enPend := r.enPend || en != r.en || ringsOn s != en }) s)
  if s.ring.dim == .off && dim != .off then surveyAll s' else s'

/-- A write of RING_CFG (R180). -/
def ringCfgWriteOp (v : Word) (s : State) : State :=
  if cfgLocked s then modRing (fun r => { r with locked := true }) s
  else if ringCfgBad v then modRing (fun r => { r with badval := true }) s
  else ringCfgLoad v s

/-- RING_CFG_WRITE. -/
def execRingCfgWrite (v : Word) (s : State) : Meaning := .next (ringCfgWriteOp v s)

end Sys2Proof.Machine
end

