-- ==== Sys2Proof/Machine/Standby.lean ====
section
/-! DEFINITION. The hot-standby pair: sync messages, lease, epochs, comparison, consensus, switchover, resynchronisation, and ring frames as they
arrive (R207 to R233). -/

namespace Sys2Proof.Machine

/-- Updates the hot-standby block. -/
def modHsb (f : Hsb → Hsb) (s : State) : State := { s with hsb := f s.hsb }
/-- Updates the sync link. -/
def modSync (f : SyncLink → SyncLink) (s : State) : State := { s with sync := f s.sync }
/-- Latches a bit of HSB_EVT. -/
def hsbEvt (b : Nat) (s : State) : State := modHsb (fun h => { h with evt := setBit h.evt b true }) s

/-! ## Epochs (R223) -/

/-- The least value above `seen` whose bit 0 is UNIT. -/
def nextEpoch (unit : Bool) (seen : Nat) : Nat := if (seen + 1) % 2 = bitOf unit then seen + 1 else seen + 2

/-- The epoch that the module would use next. -/
def ownNext (s : State) : Nat := nextEpoch (unit s) s.hsb.seen.toNat

/-- Commits the next epoch in advance. -/
def epochAdvance (s : State) : State :=
  let n := ownNext s
  if n ≥ 2 ^ 32 || s.hsb.committed == some (BitVec.ofNat 32 n) || s.hsb.wantEpoch == some (BitVec.ofNat 32 n) then s
  else
    let v : Word := BitVec.ofNat 32 n
    psRecord (fun b => .epoch b v) (leBytes 4 n) (modHsb (fun h => { h with wantEpoch := some v }) s)

/-- An epoch has been seen in a train or message. -/
def noteEpoch (e : Word) (s : State) : State :=
  if e.toNat ≤ s.hsb.seen.toNat then s else epochAdvance (modHsb (fun h => { h with seen := e }) s)

/-- EPOCH_COMMIT (R223): both copies of the lease-epoch record hold the wanted epoch. -/
def execEpochCommit (s : State) : Meaning := .next <|
  match s.hsb.wantEpoch with
  | none => s
  | some v =>
    let holds (p : List Byte) : Bool := copyValid 3 p && sliceNat 0 4 (copyPayload p) == v.toNat
    if holds (page 4 s) && holds (page 5 s) then modHsb (fun h => { h with committed := some v, wantEpoch := none }) s else s

/-- SUSP without the groups that only R231 step 2 suspends: those whose online-change dimension is NONE here. -/
def ownSusp (s : State) : BitVec 6 :=
  allDoms.foldl (fun b d => if s.doms[d].change.dim == .none then setBit b d.val false else b) s.hsb.susp

/-- Begins to originate with a new epoch that is committed (R223); otherwise the origination waits, or never comes at the end of the epochs. -/
def originate (ev : Option Nat) (s : State) : State :=
  let n := ownNext s
  if n ≥ 2 ^ 32 then hsbEvt 8 s
  else if s.hsb.committed ≠ some (BitVec.ofNat 32 n) then hsbEvt 11 (epochAdvance s)
  else
    let e : Word := BitVec.ofNat 32 n
    let s := setRole .primary s
    let s := modHsb (fun h => { h with orig := true, epoch := e, seen := e, left := BitVec.ofNat 5 (field h.cfg 0 5), silent := 0, susp := ownSusp s
                                       cnt := if ev.isSome then h.cnt.set 3 (inc h.cnt[(3 : Fin 5)]) else h.cnt }) s
    let s := match ev with | some b => hsbEvt b s | none => s
    epochAdvance (modSync (fun l => { l with listening := false, relqGot := none, relqSent := none, ofs := 0 }) s)

/-- Every sending connection reopens: START in its next TIMEOUT + 2 telegrams while SEQ continues (R227). -/
def reopenConns (s : State) : State :=
  allGroups.foldl (fun s g => match s.doms[groupDom g].image with
    | some im => { s with conns := s.conns.map fun lane => lane.set g ((im.conns.zip lane[g]).map fun z => { z.2 with startLeft := z.1.timeout + 2 }) }
    | none => s) s

/-- A module stops originating and relays as SYNCING. -/
def stepDown (s : State) : State := modSync (fun l => { l with ofs := 0 }) (modHsb (fun h => { h with orig := false, left := 0 }) (setRole .syncing s))

/-! ## Resynchronisation (R228, R229) -/

/-- Ends an attempt. -/
def resyncEnd (result : Byte) (s : State) : State :=
  if s.sync.resync.state = 0 then s
  else hsbEvt 6 (modSync (fun l => { l with resync := { l.resync with state := 0, result := result, failedAt := some s.cyc.tb } }) s)

/-- The version of an interface that this module provides, 0 where none does (R395). -/
def provides (iface : BitVec 16) (s : State) : BitVec 16 :=
  (((s.update.running.toList.flatMap (·.ifs)).find? fun x => x.iface == iface && x.prov != 0).map (·.prov)).getD 0

/-- This module supports the version of an interface that another provides: every image that uses the interface accepts it (R229, R395). -/
def supports (iface v : BitVec 16) (s : State) : Bool :=
  (s.update.running.toList.flatMap (·.ifs)).all fun x => x.iface != iface || x.amax == 0 || (x.amin.toNat ≤ v.toNat && v.toNat ≤ x.amax.toNat)

/-- The partner's interface versions lie in the ranges that this module accepts. -/
def versionsOk (s : State) : Bool := match s.sync.pHello with
  | none => true
  | some h => supports 5 h.syncVer s && supports 3 h.mbxVer s

/-- Begins an attempt: in SYNCING, with the link up, an active partner, outside SAFE (R228, R481). The blocks that differ are asked for at once. -/
def resyncBegin (s : State) : State :=
  if s.hsb.role != .syncing || !s.sync.up || !(s.sync.pRole = 1 || s.sync.pRole = 4) || inSafe s || s.sync.resync.state ≠ 0 then s
  else
    let f := nextFree s
    let want := Config.differing f.1
    let s := modSync (fun l => { l with resync := { l.resync with state := 1, progress := 0, failedAt := none, want := want } })
      (modHsb (fun h => { h with susp := ownSusp s }) f.2)
    if !versionsOk s then resyncEnd 0x06 s
    else if want.isEmpty then s
    else sendSync 0x09 (pairNo s.cyc.count s) (want.flatMap fun b => b.area :: leBytes 4 b.offset.toNat) s

/-- An attempt is due without a request: at once, or 60 s after the last failed one (R228). -/
def resyncDue (s : State) : Bool := match s.sync.resync.failedAt with
  | none => true
  | some t => since t s ≥ 60 * tickS

/-- RESYNC_RETRY (R228): 60 s after a failed attempt. -/
def execResyncRetry (s : State) : Meaning := .next (if s.sync.resync.failedAt.isSome && resyncDue s then resyncBegin s else s)

/-- Connections and interlocking tables after the state phase: the partner's, which the spec sends in no form that the module could read back (R228;
log entry 67); each is a free value. A connection that only sends stays one. -/
def partnerState (s : State) : State :=
  let f := nextFree s
  let n := f.1
  let s := f.2
  { s with conns := s.conns.map fun lane => lane.mapIdx fun g cs => cs.mapIdx fun i c =>
             let p := Config.partnerConn n g i
             { p with mode := if c.mode == .noRx || p.mode == .noRx then c.mode else p.mode }
           ixl := s.ixl.map fun x => if x.routes.isEmpty then x else Config.partnerIxl n }

/-- RESYNC_STATE_CLEAN. -/
def execResyncStateClean (s : State) : Meaning := .next <|
  if s.sync.resync.state = 2 then partnerState (modSync (fun l => { l with resync := { l.resync with state := 3, progress := 0 } }) s) else s
/-- RESYNC_JOINED (R228, R230): after 16 matching cycles in shadow. -/
def execResyncJoined (s : State) : Meaning := .next <|
  if s.sync.resync.state = 3 && s.sync.resync.progress.toNat ≥ 16 then
    setRole .standby (modSync (fun l => { l with resync := { l.resync with state := 0, result := 1 } }) s)
  else s
/-- RESYNC_NOCONV (R229): the state is not clean within 1,024 cycles. -/
def execResyncNoconv (s : State) : Meaning := .next <|
  if s.sync.resync.state = 2 && s.sync.resync.progress.toNat ≥ 1024 then resyncEnd 0x02 s else s

/-! ## The link -/

/-- SYNC_LINK_UP (R210): the PHY is up, and a valid message has arrived in each of the last 3 cycles. The module measures d_back (R212), whose value the
spec leaves to the cable (log entry 3), and sends it; a SYNCING module resynchronises at once. Without a transceiver of the right type the link stays down
(R507). -/
def execSyncLinkUp (s : State) : Meaning := .next <|
  if !paired s || s.sync.up || s.power.sfp != .good || s.sync.msgRun < 3 then s
  else
    let f := nextFree s
    let d : Word := BitVec.ofNat 32 (Config.freeNat f.1)
    let s := sendSync 0x0C (pairNo s.cyc.count s) (leBytes 4 d.toNat) (modSync (fun l => { l with up := true, dback := d }) f.2)
    if resyncDue s then resyncBegin s else s

/-- The sync link is lost (R210, R229). -/
def syncDown (s : State) : State := if !s.sync.up then s else resyncEnd 0x03 (hsbEvt 0 (modSync (fun l => { l with up := false }) s))

/-- SYNC_LINK_DOWN: the PHY link is lost; the messages count anew. -/
def execSyncLinkDown (s : State) : Meaning := .next (modSync (fun l => { l with msgRun := 0, gotMsg := false }) (syncDown s))

/-- A cycle ends: whether a valid message has arrived in it (R210). -/
def linkTurn (s : State) : State :=
  let s := modSync (fun l => { l with msgRun := if l.gotMsg then l.msgRun + 1 else 0, gotMsg := false }) s
  if s.sync.msgRun = 0 then syncDown s else s

/-! ## Messages (R208, R209) -/

/-- A message is valid (R208): VER, the CRC over the header and the body, and another unit's number. -/
def syncValid (m : SyncHdr) (type : Byte) (body : List Byte) (s : State) : Bool :=
  m.ver == 1 && m.unit != unit s &&
    m.crc == crc32c (syncBytes m.ver type (BitVec.ofNat 8 (bitOf m.unit + 2 * m.role.toNat)) m.mseq m.cyc m.epoch body)

/-- Counts a discarded message. -/
def syncDiscard (s : State) : State := modHsb (fun h => { h with cnt := h.cnt.set 4 (inc h.cnt[(4 : Fin 5)]) }) s

/-- P_ROLE of a role on the wire (R233). -/
def pRoleOf (r : BitVec 3) : BitVec 3 := if r = 0 then 4 else if r.toNat ≤ 3 then r else 0

/-- What every valid message tells: the partner's role and address, and the epoch. A SYNCING module whose partner has become active resynchronises at
once (R228). -/
def syncHeard (m : SyncHdr) (s : State) : State :=
  let s := noteEpoch m.epoch (modSync (fun l => { l with pRole := pRoleOf m.role, pMac := some m.src, gotMsg := true }) s)
  if s.sync.resync.failedAt.isNone then resyncBegin s else s

/-- Takes a valid message; an unpaired module ignores X7 (R207). -/
def syncGet (m : SyncHdr) (type : Byte) (body : List Byte) (f : State → State) (s : State) : State :=
  if !paired s then s
  else if !syncValid m type body s then syncDiscard s
  else f (syncHeard m s)

/-- SYNC_MESSAGE_DISCARD (R208). -/
def execSyncMessageDiscard (m : SyncRaw) (s : State) : Meaning :=
  .next (if paired s && !syncValid m.hdr m.type m.body s then syncDiscard s else s)

/-- The body of HELLO: 64 bytes, in the order of R209's list (log entry 10). -/
def helloBytes (b : HelloBody) : List Byte :=
  (b.images.toList.flatMap fun x => leBytes 8 x.toNat) ++ leBytes 8 b.setId.toNat ++ leBytes 4 b.confId.toNat ++ leBytes 2 b.syncVer.toNat ++
    leBytes 2 b.mbxVer.toNat

/-- The two modules form a pair (R207): the same layout is loaded in both, as far as the partner has said. -/
def pairFormed (s : State) : Bool := match s.sync.pHello with
  | none => true
  | some h => h.confId == (s.ring.layout.map (·.confId)).getD 0

/-- What ends the listening of R215. -/
def heard (s : State) : State :=
  if s.sync.listening then resyncBegin (setRole .syncing (modSync (fun l => { l with listening := false }) s)) else s

/-- HELLO (R209, R215). -/
def execHello (m : SyncHdr) (b : HelloBody) (s : State) : Meaning := .next <|
  syncGet m 0x01 (helloBytes b) (fun s =>
    let s := modSync (fun l => { l with pHello := some b }) s
    if m.role = 1 && pairFormed s then heard s else s) s

/-- RENEW (R209, R223): valid where it carries the current epoch. -/
def execRenew (m : SyncHdr) (w : BitVec 64) (s : State) : Meaning := .next <|
  syncGet m 0x02 (leBytes 8 w.toNat) (fun s => if (w >>> 32).setWidth 32 == s.hsb.epoch then modSync (fun l => { l with accepted := true }) s else s) s

/-- A loaded domain uses a memory (R22, R219): a pair standard SRAM, the Grotto and the external store, a group the SRAM of its member lanes. -/
def usesMem (d : DomId) (code : Nat) (s : State) : Bool :=
  s.doms[d].image.isSome && match domGroup d with
    | none => code == 0 || code == 5 || code == 6
    | some g => (memberLanes g s).any fun l => laneMem l == code

/-- The faults of R219 on record: those of the domains, and the uncorrectable errors of the memories that they use. -/
def faultsSeen (s : State) : List (Long × DomId) :=
  s.sync.faults ++ s.memRegs.errMarks.flatMap fun m => (allDoms.filter fun d => usesMem d m.2 s).map fun d => (m.1, d)

/-- This module's result of a consensus check over cycle `k` (R219). -/
def consensusOf (mask : Byte) (k : Long) (s : State) : Byte :=
  (faultsSeen s).foldl (fun b f => if mask.getLsbD f.2.val && 2 * k.toNat ≤ f.1.toNat + 2 && f.1.toNat ≤ 2 * k.toNat + 4 then setBit b f.2.val true else b) 0

/-- Starts a consensus check. -/
def consensusBegin (k : Long) (mask : Byte) (s : State) : State :=
  if s.sync.cons.isSome then s else modSync (fun l => { l with cons := some { cyc := k, mask := mask, mine := 0, sent := false, theirs := none } }) s

/-- MISMATCH (R218, R219). -/
def execMismatch (m : SyncHdr) (mask : BitVec 8) (s : State) : Meaning := .next <|
  syncGet m 0x03 [mask] (fun s => consensusBegin m.cyc mask (modHsb (fun h => { h with cmpRun := 0, lastMis := mask.setWidth 6 }) s)) s

/-- CONSENSUS (R219). -/
def execConsensus (m : SyncHdr) (mask : BitVec 8) (res : BitVec 8) (s : State) : Meaning := .next <|
  syncGet m 0x04 [mask, res] (fun s => modSync (fun l => { l with cons := l.cons.map fun c => { c with theirs := some res } }) s) s

/-- Sends CONSENSUS by D_{k+2} (R219). -/
def consensusSend (s : State) : State := match s.sync.cons with
  | some c =>
    if c.sent || (pairNo s.cyc.count s).toNat < c.cyc.toNat + 2 then s
    else
      let r := consensusOf c.mask c.cyc s
      let s := if s.sync.up then sendSync 0x04 c.cyc [c.mask, r] s else s
      modSync (fun l => { l with cons := some { c with mine := r, sent := true } }) s
  | none => s

/-- CONSENSUS_DECISION (R219, R220), at T_{k+3}: a result that has not arrived counts as CLEAN for the primary and as FAULT for the standby. -/
def execConsensusDecision (s : State) : Meaning := .next <|
  match s.sync.cons.filter fun c => c.cyc.toNat + 3 ≤ (pairNo s.cyc.count s).toNat with
  | none => s
  | some c =>
    let mine := (if c.sent then c.mine else consensusOf c.mask c.cyc s) &&& c.mask != 0
    let theirs := match c.theirs with | some r => r &&& c.mask != 0 | none => s.hsb.role == .primary
    let s := modSync (fun l => { l with cons := none }) s
    match s.hsb.role with
    | .primary =>
      if mine && !theirs then sendRelinquish (c.cyc + 3) s
      else if !mine && !theirs then hsbEvt 7 s else s
    | .standby =>
      if theirs && !mine then s
      else
        let s := setRole .syncing s
        resyncBegin (if !mine && !theirs then hsbEvt 7 s else s)
    | _ => s

/-- PREPARE (R226): answered if STANDBY, not in SAFE, in RUN. -/
def execPrepare (m : SyncHdr) (tr : BitVec 64) (s : State) : Meaning := .next <|
  syncGet m 0x05 (leBytes 8 tr.toNat) (fun s =>
    if s.hsb.role == .standby && s.arb.oper == .run then sendSync 0x06 (pairNo s.cyc.count s) (leBytes 8 tr.toNat) s else s) s

/-- PREPARED (R226): by D_{k+1}. -/
def execPrepared (m : SyncHdr) (tr : BitVec 64) (s : State) : Meaning := .next <|
  syncGet m 0x06 (leBytes 8 tr.toNat) (fun s =>
    if s.sync.prepM == some tr && s.hsb.role == .primary && (s.cyc.count + 1 == tr && since s.cyc.tk s ≤ deadlineTicks s) then
      modSync (fun l => { l with prepared := true }) s else s) s

/-- RELINQUISH (R225): in time before T_{m+1} − CYC_MARGIN. -/
def execRelinquish (m : SyncHdr) (tr : BitVec 64) (s : State) : Meaning := .next <|
  syncGet m 0x07 (leBytes 8 tr.toNat) (fun s =>
    let k := pairNo s.cyc.count s
    let inTime := k.toNat < tr.toNat || (k == tr && since s.cyc.tk s < deadlineTicks s)
    if s.hsb.role == .standby && inTime then modSync (fun l => { l with relqGot := some tr }) s else s) s

/-- DELTA (R228): a block of the syncing unit, in the image phase one that it has asked for. -/
def execDelta (m : SyncHdr) (b : DeltaBody) (s : State) : Meaning := .next <|
  syncGet m 0x08 (b.area :: leBytes 4 b.offset.toNat ++ b.data ++ leBytes 4 b.crc.toNat) (fun s =>
    if b.crc != crc32c b.data || !(s.sync.resync.state = 1 || s.sync.resync.state = 2) then s
    else
      let p := Config.deltaPlace b.area b.offset
      let s := store none p.1 p.2 b.data s
      if s.sync.resync.state = 1 then
        modSync (fun l => { l with resync := { l.resync with progress := inc16 l.resync.progress, want := l.resync.want.filter fun w => w != ⟨b.area, b.offset⟩ } }) s
      else s) s

/-- Sends a block of state or of an image (R209). -/
def sendDelta (area : Byte) (offset : Word) (d : List Byte) (s : State) : State :=
  sendSync 0x08 (pairNo s.cyc.count s) (area :: leBytes 4 offset.toNat ++ d ++ leBytes 4 (crc32c d).toNat) s

/-- DELTA_REQ (R228): the active unit sends each wanted block of 4 KiB. -/
def execDeltaReq (m : SyncHdr) (blocks : List DeltaRef) (s : State) : Meaning := .next <|
  syncGet m 0x09 (blocks.flatMap fun b => b.area :: leBytes 4 b.offset.toNat) (fun s =>
    if s.hsb.role == .primary || s.hsb.role == .alone then
      blocks.foldl (fun s b => let p := Config.deltaPlace b.area b.offset; sendDelta b.area b.offset (readBytes p.1 p.2 4096 s) s) s
    else s) s

/-- Where a domain's state stands (R228): memory, offset and length of its data region, and of a pair's retain area. A group's is read in its first
member lane. -/
def stateAreas (d : DomId) (s : State) : List (Nat × Nat × Nat) := match s.doms[d].image with
  | none => []
  | some im => match domPair d with
    | some n => [(0, im.areas.dataBase, im.areas.dataLen), (5, n.val * 458752, im.areas.retainLen)]
    | none => [(laneMem ((memberLanes (Fin.ofNat 2 (d.val - 4)) s).headD 0), im.areas.dataBase, im.areas.dataLen)]

/-- Sends the bytes of a place of memory. -/
def sendPlace (code off n : Nat) (s : State) : State :=
  let a := Config.deltaArea code off
  sendDelta a.1 a.2 (readBytes code off n s) s

/-- The active unit's part of the state phase (R228): the state of every domain once, in blocks of 4 KiB, and at each later T_k the lines written since. -/
def sendState (s : State) : State :=
  if !(s.sync.up && s.sync.pRole = 3 && s.hsb.orig) then
    (if s.sync.sent then { modSync (fun l => { l with sent := false }) s with doms := s.doms.map fun x => { x with resend := none } } else s)
  else if !s.sync.sent then
    let s := modSync (fun l => { l with sent := true }) s
    let s := allDoms.foldl (fun s d => (stateAreas d s).foldl (fun s a =>
      (List.range ((a.2.2 + 4095) / 4096)).foldl (fun s i => sendPlace a.1 (a.2.1 + 4096 * i) (min 4096 (a.2.2 - 4096 * i)) s) s) s) s
    { s with doms := s.doms.map fun x => { x with resend := some [] } }
  else
    let s := allDoms.foldl (fun s d =>
      let lane := laneMem ((memberLanes (Fin.ofNat 2 (d.val - 4)) s).headD 0)
      ((s.doms[d].resend).getD []).foldl (fun s l => sendPlace (if l.1 = 1 then lane else l.1) (64 * l.2) 64 s) s) s
    { s with doms := s.doms.map fun x => { x with resend := x.resend.map fun _ => [] } }

/-- The state CRCs of the loaded groups. -/
def groupCrcs (s : State) : List Long := (loadedGroups s).map fun g => stateCrc ((memberLanes g s).headD 0) g s

/-- STATECRC (R228): in shadow a state CRC that differs ends the attempt. -/
def execStatecrc (m : SyncHdr) (crcs : List (BitVec 64)) (s : State) : Meaning := .next <|
  syncGet m 0x0A (crcs.flatMap fun c => leBytes 8 c.toNat) (fun s => if s.sync.resync.state = 3 && crcs ≠ groupCrcs s then resyncEnd 0x05 s else s) s

/-- DELAYS (R212). -/
def execDelays (m : SyncHdr) (d : Word) (s : State) : Meaning := .next (syncGet m 0x0C (leBytes 4 d.toNat) (fun s => modSync (fun l => { l with pDback := d }) s) s)

/-! ## Lease and takeovers (R215, R222 to R227) -/

/-- The listening time in ticks (R215). -/
def listenTicks (s : State) : Nat := (leaseLen s + 1) * periodTicks s + (if s.hsb.cfg.getLsbD 7 then 0 else tickS)

/-- LISTEN_TIMEOUT (R215): nothing was heard for the listening time. -/
def execListenTimeout (s : State) : Meaning := .next (if s.sync.listening && since s.sync.listenAt s ≥ listenTicks s then originate none s else s)

/-- LEASE_LAPSE (R222). -/
def execLeaseLapse (s : State) : Meaning := .next <|
  if s.hsb.role == .primary && s.hsb.orig && s.hsb.left = 0 then hsbEvt 4 (stepDown s) else s

/-- A takeover at T_m: the standby originates, and its first train is train m (R223 to R225). -/
def takeOverTrain (ev : Nat) (reopen : Bool) (s : State) : State :=
  let t := originate (some ev) s
  if !t.hsb.orig then t
  else
    let t := if reopen then reopenConns t else t
    if t.ring.dim != .off && pdOn .ring t then launchTrain t else t

/-- It is a T_m of this module. -/
def atTk (s : State) : Bool := s.cyc.running && s.cyc.tb == s.cyc.tk

/-- TAKEOVER_LEASE (R223, R224, R227): at the first T_m before which the module has heard nothing for LEN + 1 periods. -/
def execTakeoverLease (s : State) : Meaning := .next <|
  if s.hsb.role == .standby && atTk s && s.hsb.silent.toNat ≥ leaseLen s + 1 then takeOverTrain 2 true s else s

/-- TAKEOVER_RELINQUISH (R225, R227): from T_{m+1}. -/
def execTakeoverRelinquish (s : State) : Meaning := .next <|
  match s.sync.relqGot with
  | some m => if s.hsb.role == .standby && atTk s && m.toNat < (pairNo s.cyc.count s).toNat then takeOverTrain 3 false s else s
  | none => s

/-! ## Requests (R226, R228, R229, R233) -/

/-- What HSB_REQ asks for. -/
inductive HsbOp where
  | switchover | resync | abortSync
  deriving DecidableEq, Repr

/-- Why a request is refused. -/
def hsbRefusal (op : HsbOp) (s : State) : Option (Nat × String) := match op with
  | .switchover =>
    if s.hsb.role != .primary then some (0x02, "NOT_PRIMARY")
    else if s.sync.pRole ≠ 2 then some (0x03, "PARTNER_NOT_STANDBY")
    else if !s.sync.up then some (0x04, "SYNC_DOWN")
    else if s.hsb.cmpRun.toNat < 16 then some (0x05, "CMP_UNPROVEN")
    else if inSafe s then some (0x06, "IN_SAFE")
    else if s.sync.prepM.isSome || s.sync.relqSent.isSome then some (0x07, "SWITCH_BUSY")
    else if !paired s then some (0x08, "NOT_PAIRED") else none
  | .resync =>
    if !s.sync.up && paired s then some (0x04, "SYNC_DOWN")
    else if inSafe s then some (0x06, "IN_SAFE")
    else if !paired s then some (0x08, "NOT_PAIRED")
    else if s.hsb.role != .syncing then some (0x09, "NOT_SYNCING") else none
  | .abortSync =>
    if !paired s then some (0x08, "NOT_PAIRED") else if s.hsb.role != .syncing then some (0x09, "NOT_SYNCING") else none

/-- A request through HSB_REQ: ignored while BUSY is 1. -/
def hsbRequest (op : HsbOp) (s : State) : Option (Nat × String) × State :=
  if s.hsb.reqBusy then (some (0x07, "SWITCH_BUSY"), s)
  else match hsbRefusal op s with
    | some e => (some e, modHsb (fun h => { h with reqReason := BitVec.ofNat 8 e.1, reqRefused := true }) s)
    | none =>
      let s := modHsb (fun h => { h with reqReason := 0, reqRefused := false }) s
      (none, match op with
        | .switchover => modHsb (fun h => { h with reqBusy := true }) (modSync (fun l => { l with prepM := some (s.cyc.count + 2), prepared := false }) s)
        | .resync => resyncBegin s
        | .abortSync => resyncEnd 0x04 s)

/-- SWITCHOVER. -/
def execSwitchover (s : State) : Meaning := .next (hsbRequest .switchover s).2
/-- RESYNC. -/
def execResync (s : State) : Meaning := .next (hsbRequest .resync s).2
/-- ABORT_SYNC. -/
def execAbortSync (s : State) : Meaning := .next (hsbRequest .abortSync s).2

/-- PREPARE_TIMEOUT (R226): no PREPARED by D_{k+1}. -/
def execPrepareTimeout (s : State) : Meaning := .next <|
  match s.sync.prepM with
  | some m =>
    if s.sync.prepared || !pastDeadline (m - 1) s then s
    else
      let s := modHsb (fun h => { h with reqBusy := false, reqReason := 0x0A, reqRefused := true }) (modSync (fun l => { l with prepM := none }) s)
      (waiting .hsb s).foldl (fun s c => finishRefused c 0x0A "PREPARE_TIMEOUT" s) s
  | none => s

/-! ## Work at T_k and D_k -/

/-- HSB_REQSTAT (R233). -/
def hsbReqstat (s : State) : Word := pack [(bitOf s.hsb.reqBusy, 0), (bitOf s.hsb.reqRefused, 1), (s.hsb.reqReason.toNat, 8)]

/-- HELLO's body (R209). -/
def helloBody (s : State) : HelloBody :=
  { images := s.doms.map fun d => (d.image.map (·.id)).getD 0, setId := s.boot.rec_.setRun, confId := (s.ring.layout.map (·.confId)).getD 0
    syncVer := provides 5 s, mbxVer := provides 3 s }

/-- The groups whose program the partner has changed while this module runs the old one (R231): their identities differ. -/
def partnerChanged (s : State) : BitVec 6 := match s.sync.pHello with
  | none => 0
  | some h => allDoms.foldl (fun b d =>
      if 4 ≤ d.val && s.doms[d].change.dim == .none && s.doms[d].image.any (fun im => h.images[d] != 0 && h.images[d] != im.id) then setBit b d.val true
      else b) 0

/-- The hot-standby block's work at T_k, after the cycle counter has advanced (R209, R222 to R226, R228): whether this module originates train k. A
module that hands over by SWITCHOVER to a partner with a changed group becomes STANDBY with the group suspended (R231). -/
def hsbCycle (s : State) : Bool × State :=
  if !paired s then (s.hsb.orig, s)
  else
    let s := linkTurn s
    let k := pairNo s.cyc.count s
    let s := modSync (fun l => { l with faults := l.faults.filter fun f => 2 * k.toNat ≤ f.1.toNat + 16
                                        resync := if l.resync.state = 2 then { l.resync with progress := inc16 l.resync.progress } else l.resync }) s
    let s := if s.hsb.orig then s else modHsb (fun h => { h with silent := if s.sync.accepted then 0 else inc8 h.silent }) s
    let s := sendState (sendSync 0x01 k (helloBytes (helloBody s)) (modSync (fun l => { l with accepted := false }) s))
    let s := match s.sync.prepM with
      | some m =>
        if k + 1 == m then sendSync 0x05 k (leBytes 8 m.toNat) s
        else if k == m && s.sync.prepared then
          let s := modHsb (fun h => { h with reqBusy := false }) (modSync (fun l => { l with prepM := none, prepared := true }) (sendRelinquish m s))
          (waiting .hsb s).foldl (fun s c => finish c .ok 0 (leBytes 4 (hsbReqstat s).toNat) s) s
        else s
      | none => s
    let s := match s.sync.relqSent with
      | some m =>
        if !(m.toNat < k.toNat) then s
        else
          let s' := modSync (fun l => { l with relqSent := none, prepared := false }) s
          let gs := partnerChanged s
          if s.sync.prepared && gs ≠ 0 && !inSafe s then
            setRole .standby (modHsb (fun h => { h with orig := false, left := 0, susp := h.susp ||| gs }) s')
          else resyncBegin (stepDown (modSync (fun l => { l with resync := { l.resync with failedAt := none } }) s'))
      | none => s
    if s.hsb.orig then
      if s.hsb.role == .alone then (true, s)
      else if s.hsb.left = 0 then (false, s) else (true, modHsb (fun h => { h with left := h.left - 1 }) s)
    else (false, s)

/-- A domain's comparison is suspended (R217, R232): its change is not NONE here, its image differs from the partner's, or R231 suspends it. -/
def suspended (d : DomId) (s : State) : Bool :=
  s.hsb.susp.getLsbD d.val || s.doms[d].change.dim != .none ||
    match s.sync.pHello, s.doms[d].image with
    | some h, some im => h.images[d] != im.id
    | _, _ => false

/-- The suspended domains, as HSB_CMP.SUSP shows them (R232, R233). -/
def suspMask (s : State) : BitVec 6 := allDoms.foldl (fun b d => if suspended d s then setBit b d.val true else b) 0

/-- The lease at D_k (R221, R226, R228): RENEW for an intact train with passed votes; STATECRC; CONSENSUS; the primary's run of cycles without
a mismatch. -/
def hsbDeadline (s : State) : State :=
  if !paired s then s
  else
    let s := consensusSend s
    if s.hsb.role != .primary then s
    else
      let passed := (loadedGroups s).all fun g => !s.doms[groupDom g].run || (s.voter.grp[g].lastEoc && s.voter.grp[g].eocAt == some s.cyc.count)
      let s := if s.hsb.intact && !inSafe s && passed && s.hsb.orig then
          sendSync 0x02 s.cyc.count (leaseWord s) (modHsb (fun h => { h with left := BitVec.ofNat 5 (field h.cfg 0 5) }) s) else s
      let s := if s.sync.up then sendSync 0x0A s.cyc.count ((groupCrcs s).flatMap fun c => leBytes 8 c.toNat) s else s
      modHsb (fun h => { h with cmpRun := if s.sync.up && s.sync.pRole = 2 then inc16 h.cmpRun else 0 }) s

/-- At IR_k the primary knows whether its train was intact (R221). -/
def hsbIntact (s : State) : State := match s.ring.train with
  | some t =>
    let ok := s.hsb.orig && t.cyc == s.cyc.count && t.lead.toList.any id
    modHsb (fun h => { h with intact := ok, lastIntact := if ok then s.cyc.count.setWidth 32 else h.lastIntact }) s
  | none => modHsb (fun h => { h with intact := false }) s

/-! ## Comparison of outputs (R216 to R218) -/

/-- The coaches a domain owns, by place in the layout, each with the output field that this module would send. -/
def ownedFields (d : DomId) (s : State) : List (Nat × List Byte) :=
  (enum (coachesOf s)).filterMap fun c => match domPair d with
    | some n => match coachOwner c.2.addr s with
      | some (m, o) => if m = n && c.2.cls ≠ 0 then some (c.1, fit c.2.olen (s.doms[d].published.drop o)) else none
      | none => none
    | none => match sendConn c.2.addr s with
      | some (g, k, _) => if groupDom g = d && c.2.cls = 0 then some (c.1, fit c.2.olen (((s.voter.grp[g].tels[k]?).map (·.telegram)).getD [])) else none
      | none => none

/-- What a comparison finds. -/
inductive Cmp where
  | match_ | mismatch | skip
  deriving DecidableEq, Repr

/-- One domain's comparison (R217). -/
def compareDom (d : DomId) (t : Train) (s : State) : Cmp :=
  let own := ownedFields d s
  let seen := own.map fun o => (copiesOf t o.1).find? (·.valid)
  let flags := seen.any fun c => match c with | some r => r.mstat &&& 0x23 != 0 | none => true
  if suspended d s || flags || s.doms[d].rptSent || s.doms[d].pstop || s.sync.relqGot.isSome || (d.val < 4 && s.arb.oper == .hold) then .skip
  else if crc64 (own.flatMap (·.2)) = crc64 (seen.flatMap fun c => (c.map (·.output)).getD []) then .match_ else .mismatch

/-- The comparison when a train has passed (R216 to R218): counters, run, MISMATCH, the shadow's count. -/
def compareAll (t : Train) (s : State) : State :=
  if t.compared || !(s.hsb.role == .standby || s.sync.resync.state = 3) then s
  else
    let ds := allDoms.filter fun d => s.hsb.cfg.getLsbD (10 + d.val) && s.doms[d].image.isSome
    let rs := ds.map fun d => (d, compareDom d t s)
    let num (c : Cmp) : Nat := (rs.filter fun r => r.2 == c).length
    let mask : BitVec 6 := (rs.filter fun r => r.2 == .mismatch).foldl (fun b r => setBit b r.1.val true) 0
    let k := pairNo (t.cyc - 1) s
    let s := modRing (fun r => { r with train := r.train.map fun x => { x with compared := true } }) s
    let s := modHsb (fun h => { h with cnt := ((h.cnt.set 0 (incBy h.cnt[(0 : Fin 5)] (num .match_))).set 1 (incBy h.cnt[(1 : Fin 5)] (num .mismatch))).set 2 (incBy h.cnt[(2 : Fin 5)] (num .skip))
                                       cmpRun := if mask = 0 && num .match_ > 0 then inc16 h.cmpRun else 0 }) s
    if mask ≠ 0 then
      let s := hsbEvt 1 (modHsb (fun h => { h with lastMis := mask }) s)
      if s.sync.resync.state = 3 then resyncEnd 0x05 s
      else if s.sync.up then consensusBegin k (mask.setWidth 8) (sendSync 0x03 k [mask.setWidth 8] s) else s
    else if s.sync.resync.state = 3 then
      modSync (fun l => { l with resync := { l.resync with progress := if num .match_ > 0 then inc16 l.resync.progress else 0 } }) s
    else s

/-! ## Ring frames (R154, R162, R164, R211) -/

/-- Ticks that a frame of this many payload bytes takes from the first bit of its preamble to the last of its FCS (R156): 3.2 ns a byte at 2.5 Gb/s, 8 ns at
1 Gb/s. -/
def frameTicks (payload : Nat) (s : State) : Nat := (8 + 14 + max 46 payload + 4) * if native s then 4 else 10

/-- The lead coach of another module's train is accepted (R164). -/
def leadAccepted (payload : List Byte) (s : State) : Bool :=
  leadGood payload && s.ring.layout.any (fun l => l.confId.toNat == sliceNat 38 4 payload) && sliceNat 30 4 payload ≥ s.hsb.epoch.toNat

/-- The module accepts a lead coach of another module's train, at the end of its frame (R164, R195, R211, R213, R215): its epoch; T_k, which lies D before the
frame's first bit; how the trains are numbered (log entry 79); ring time, which the first such lead coach fixes and later ones steer. -/
def acceptLead (ring : Fin 2) (payload : List Byte) (s : State) : State :=
  let b := payload.drop 18
  let train : Word := BitVec.ofNat 32 (sliceNat 0 4 b)
  let tref : Long := BitVec.ofNat 64 (sliceNat 4 8 b)
  let epoch : Word := BitVec.ofNat 32 (sliceNat 12 4 b)
  let first : Long := s.cyc.tb - BitVec.ofNat 64 (frameTicks payload.length s)
  let d : Long := BitVec.ofNat 64 (psTicks (delayTo ring none s))
  let s := if epoch.toNat > s.hsb.epoch.toNat then hsbEvt 5 s else s
  let s := noteEpoch epoch (modHsb (fun h => { h with epoch := epoch, silent := 0 }) s)
  let s := modSync (fun l => { l with accepted := true, ofs := (train - s.cyc.count.setWidth 32).signExtend 64 }) s
  let s := modRtm (fun m => { m with tsrc := Fin.ofNat 4 (sliceNat 25 1 b), rtofs := some (m.rtofs.getD (tref + d - first))
                                     refOff := some (tref + d - (first + m.rtofs.getD (tref + d - first))) }) s
  heard { s with cyc := { s.cyc with tk := first - d } }

/-- A frame that arrives at a module that relays (R211): its lead coach is judged, and the coaches of an accepted copy are recorded. The train is
compared once a copy has passed whole. -/
def relayFrame (ring : Fin 2) (f : Frame) (s : State) : State :=
  let lead := sliceNat 1 1 f.payload = 0 && leadAccepted f.payload s
  let s := if lead then acceptLead ring f.payload s else s
  if !(lead || s.ring.train.any fun t => t.lead[ring] && sliceNat 1 1 f.payload ≠ 0) then s
  else
    let s := recordFrame ring f s
    let n := (s.ring.layout.map fun l => (layoutFrames l).length).getD 0
    match s.ring.train with
    | some t => if ringReturned t n 0 || ringReturned t n 1 then compareAll t s else s
    | none => s

/-- Relays a frame out of a port, unchanged (R171, R211). -/
def relayOut (p : Port) (f : Frame) (s : State) : State := modRing (fun r => { r with relayed := r.relayed ++ [(p, f)] }) s

/-- A train that comes back to X3 on the reverse direction of COMPAT_LOOP (R171, R202): the returned train where the break is at X2 itself, otherwise relayed out of
X2 in reverse. -/
def reverseFrame (f : Frame) (s : State) : State :=
  let s := modRing (fun r => { r with train := r.train.map fun t => { t with looped := true } }) s
  let stations := (s.ring.layout.map fun l => l.coaches.length).getD 0
  if s.rtm.loop.any fun m => stations ≤ m then
    (if f.fcsGood && f.src == s.fuses.mac + 1 then recordFrame 0 f (lateFrame f s) else s)
  else relayOut 0 f s

/-- FRAME_RECEIVE (R154, R162, R171, R211) at the end of a frame: an idle port receives nothing, foreign frames are discarded and counted, a frame with a
failed FCS carries nothing. A relay passes frames on and records those of accepted copies. -/
def execFrameReceive (p : Port) (f : Frame) (s : State) : Meaning := .next <|
  let ring := portRing p
  if !portActive p s then s
  else if f.etype.toNat ≠ field s.ring.cfg 16 16 then ringCount ring 4 s
  else
    let s := ringCount ring 0 s
    let s := if f.fcsGood then s else ringCount ring 1 s
    if !portReceives p s || !s.ring.on[ring] then s
    else if s.hsb.orig then
      (if p = 1 then reverseFrame f s
       else if f.fcsGood && f.src == s.fuses.mac + 1 then recordFrame ring f (lateFrame f s) else s)
    else if !paired s then s
    else
      let s := relayOut (if p = 1 then 0 else p + 1) f s
      if f.fcsGood then relayFrame ring f s else s

end Sys2Proof.Machine
end

