-- ==== Sys2Proof/Machine/Supervision.lean ====
section
/-! DEFINITION. Watchdog units and the Check-in Monitor (R401 to R415, R422, R423, R530). -/

namespace Sys2Proof.Machine

/-! ## Watchdog units -/

/-- A core is one of those a unit supervises (R401). -/
def wdgSupervised (u : Fin 8) (c : CoreId) : Bool :=
  if u.val = 0 then c == stewCore
  else if u.val ≤ 4 then (pairOf c).any fun n => n.val + 1 == u.val
  else (laneOf c).any fun x => x.1.val + 5 == u.val

/-- A lane is where a unit would count: a member, or a candidate in the shadow phase, of a loaded group in RUN. -/
def laneCounts (l : Fin 3) (s : State) : Bool :=
  allGroups.any fun g => s.doms[groupDom g].image.isSome && s.doms[groupDom g].run && (s.voter.grp[g].members ||| s.voter.grp[g].cand).getLsbD l.val

/-- A unit's supervised cores cannot run through no fault of their own (R410). -/
def wdgFrozenNow (u : Fin 8) (s : State) : Bool :=
  if u.val = 0 then false
  else if u.val ≤ 4 then
    let n : Fin 4 := Fin.ofNat 4 (u.val - 1)
    s.pairs[n].halt || !s.doms[pairDom n].run || s.arb.oper == .hold
  else
    let l : Fin 3 := Fin.ofNat 3 (u.val - 5)
    let r := s.voter.reint
    s.voter.lane[l].debug || !pdOn (lanePd l) s || (r.lane.val = l.val + 1 && r.phase ≠ 0 && r.phase.val < 5) || !laneCounts l s

/-- One latched service at a tick edge (R403 step 3, R404): accepted in the open window, otherwise an expiry; C is 0 after either. -/
def wdgService (w : Wdg) (ok : Bool) : Wdg :=
  if ok && (!w.wind || w.open_.toNat ≤ w.count.toNat) then { w with count := 0 } else { w with count := 0, due := w.due + 1 }

/-- A tick edge of a unit (R403). -/
def wdgTick (frozen : Bool) (w : Wdg) : Wdg :=
  let w := if w.frozen && !frozen then { w with count := 0 } else w
  let w := { w with frozen := frozen }
  if !w.en then w
  else if frozen then { w with svc := [] }
  else
    let c := w.count + 1
    let l := w.svc
    let w := { w with count := c, svc := [] }
    if w.period.toNat ≤ c.toNat then { w with count := 0, due := w.due + 1 } else l.foldl wdgService w

/-- WATCHDOG_TICK_EDGE (R403): an expiry that an edge finds takes effect in WATCHDOG_EXPIRY. -/
def execWatchdogTickEdge (s : State) : Meaning := .next { s with wdg := s.wdg.mapIdx fun i w => wdgTick (wdgFrozenNow (Fin.ofNat 8 i) s) w }

/-- WATCHDOG_EXPIRY (R411). -/
def execWatchdogExpiry (u : Fin 8) (s : State) : Meaning := .next <|
  if s.wdg[u].due = 0 then s
  else
    let s := addLog .watchdog u.val 0 (modWdg u (fun w => { w with due := w.due - 1, expired := true, exp := inc w.exp }) s)
    if u.val = 0 then ladder 1 0 (stewardRestart s)
    else if u.val ≤ 4 then pairFault (Fin.ofNat 4 (u.val - 1)) none 1 s
    else laneHalt (Fin.ofNat 3 (u.val - 5)) [0, 1] 1 s

/-- Whether a master may write a unit's registers (R406, R302): its supervised cores, at K, and the Steward while LOCK is 0. -/
def wdgAccess (a : Access) (u : Fin 8) (s : State) : Resp := match masterCore a.master with
  | none => .noPath
  | some c =>
    if !a.atK then .priv
    else if wdgSupervised u c || (c == stewCore && !s.wdg[u].lock) then .ok else .noPath

/-- A write of a unit's register by a master that may make it; another one is answered and counted. -/
def wdgWrite (a : Access) (u : Fin 8) (f : State → State) (s : State) : State := match wdgAccess a u s with
  | .ok => f (answer .ok 0 s)
  | .noPath => answer .noPath 0 (countAf a.master s)
  | r => answer r 0 s

/-- The designated core of a unit (R405). -/
def wdgDesignated (u : Fin 8) (w : Wdg) : CoreId :=
  if u.val = 0 then stewCore else if u.val ≤ 4 then Fin.ofNat 11 (u.val - 1)
  else laneCore (Fin.ofNat 3 (u.val - 5)) (if w.core then 1 else 0)

/-- A write of WDG_SVC (R403, R405): latched; an invalid or refused one sets BADSVC. -/
def wdgSvcOp (m : Master) (u : Fin 8) (v : BitVec 16) (s : State) : State :=
  let w := s.wdg[u]
  let ok := v == 0xC3A5 && (!w.priv || masterCore m == some (wdgDesignated u w))
  modWdg u (fun w => { w with svc := w.svc ++ [ok], badsvc := w.badsvc || !ok }) s

/-- The window is open (R404). -/
def wdgOpen (w : Wdg) : Bool := !w.wind || w.open_.toNat ≤ w.count.toNat

/-- A period and window in range (R407). -/
def wdgValid (wind : Bool) (period open_ : Nat) : Bool := 33 ≤ period && period ≤ 2129920 && (!wind || (1 ≤ open_ && open_ < period))

/-- A write of WDG_PER (R407). -/
def wdgPerOp (u : Fin 8) (v : Word) (s : State) : State := modWdg u (fun w =>
  if w.lock then w
  else if !wdgOpen w then { w with perlate := true }
  else if !wdgValid w.wind (field v 0 22) w.staged.toNat then { w with badval := true }
  else { w with period := v.setWidth 22, open_ := w.staged, count := 0 }) s

/-- A write of WDG_WIN stages a new OPEN (R407). -/
def wdgWinOp (u : Fin 8) (v : Word) (s : State) : State := modWdg u (fun w => if w.lock then w else { w with staged := v.setWidth 22 }) s

/-- A write of WDG_KEY (R408). -/
def wdgKeyOp (m : Master) (u : Fin 8) (v : BitVec 16) (s : State) : State := modWdg u (fun w =>
  if w.lock then { w with keyerr := true }
  else match w.key with
    | none => if v == 0x6D2B then { w with key := some (m, s.cyc.tb) } else { w with keyerr := true }
    | some (m', t) =>
      if m == m' && v == 0x92D4 && since t s ≤ 10 * tickUs then { w with key := none, en := false } else { w with key := none, keyerr := true }) s

/-- A write of WDG_CTL (R409, R422). -/
def wdgCtlOp (u : Fin 8) (v : Word) (s : State) : State := modWdg u (fun w =>
  if w.lock then w
  else { w with core := v.getLsbD 3 && u.val ≥ 5, priv := v.getLsbD 2, wind := v.getLsbD 1, en := w.en || v.getLsbD 0, lock := v.getLsbD 7 }) s

/-- WDG_SVC. -/
def execWdgSvc (a : Access) (u : Fin 8) (v : BitVec 16) (s : State) : Meaning := .next (wdgWrite a u (wdgSvcOp a.master u v) s)
/-- WDG_PER. -/
def execWdgPer (a : Access) (u : Fin 8) (v : Word) (s : State) : Meaning := .next (wdgWrite a u (wdgPerOp u v) s)
/-- WDG_KEY. -/
def execWdgKey (a : Access) (u : Fin 8) (v : BitVec 16) (s : State) : Meaning := .next (wdgWrite a u (wdgKeyOp a.master u v) s)
/-- WDG_LOCK (R409): LOCK stays until module reset. -/
def execWdgLock (a : Access) (u : Fin 8) (s : State) : Meaning := .next (wdgWrite a u (modWdg u (fun w => { w with lock := true })) s)
/-- WDG_ENABLE (R422): a locked unit ignores it. -/
def execWdgEnable (a : Access) (u : Fin 8) (s : State) : Meaning := .next (wdgWrite a u (modWdg u (fun w => { w with en := w.en || !w.lock })) s)

/-- The units that the runtime of a core's domain services in its handler of RELEASE (R530): a pair's own, or those of the lanes whose designated
core runs the group. -/
def runtimeService (d : DomId) (s : State) : State :=
  let us : List (Fin 8) := match domPair d with
    | some n => [Fin.ofNat 8 (n.val + 1)]
    | none => (allLanes.filter fun l => (s.voter.grp[Fin.ofNat 2 (d.val - 4)].members ||| s.voter.grp[Fin.ofNat 2 (d.val - 4)].cand).getLsbD l.val &&
        wdgDesignated (Fin.ofNat 8 (5 + l.val)) s.wdg[Fin.ofNat 8 (5 + l.val)] == laneCore l (Fin.ofNat 2 (d.val - 4)) &&
        !s.cores[laneCore l (Fin.ofNat 2 (d.val - 4))].stopped).map fun l => Fin.ofNat 8 (5 + l.val)
  us.foldl (fun s u =>
    if s.wdg[u].en && s.cyc.count.toNat % max 1 s.wdg[u].svcN = 0 then wdgSvcOp (coreMaster (wdgDesignated u s.wdg[u])) u 0xC3A5 s else s) s

/-- The settings that an image declares for a unit (R401). -/
def wdgLoad (x : WdgDecl) (s : State) : State := modWdg x.unit (fun w =>
  if w.lock then w
  else { w with period := BitVec.ofNat 22 x.period, open_ := BitVec.ofNat 22 x.openAt, staged := BitVec.ofNat 22 x.openAt, wind := x.wind, priv := x.priv
                core := x.core && x.unit.val ≥ 5, en := w.en || x.enable || x.unit.val ≥ 5, lock := x.lock || x.unit.val ≥ 5, svcN := x.svcN, count := 0 }) s

/-- A declaration differs from a locked unit (R409). -/
def wdgDiffers (x : WdgDecl) (s : State) : Bool :=
  let w := s.wdg[x.unit]
  w.lock && (w.period.toNat != x.period || w.open_.toNat != x.openAt || w.wind != x.wind || w.priv != x.priv || w.core != (x.core && x.unit.val ≥ 5) ||
    w.en != (x.enable || x.unit.val ≥ 5) || (x.lock || x.unit.val ≥ 5) != w.lock || w.svcN != x.svcN)

/-! ## Check-in Monitor -/

/-- The place of a core among a domain's counts: 0 for a pair, the lane for a lane core. -/
def cimLane (c : CoreId) : Fin 3 := match laneOf c with | some (l, _) => l | none => 0

/-- A check-in of core `c` (R413): counted from the first window end (R415), saturating; an unregistered point sets BADPT and fails later. -/
def checkinOp (c : CoreId) (p : Fin 64) (s : State) : State := match domOf c with
  | none => s
  | some d =>
    let l := cimLane c
    modCim d (fun x =>
      let y := x.pts[p]
      if y.win = 0 then { x with badpt := true, badLanes := setBit x.badLanes l.val true }
      else if y.started.getLsbD l.val then { x with pts := x.pts.set p { y with cnt := y.cnt.set l (inc8 y.cnt[l]) } } else x) s

/-- CHECKIN. -/
def execCheckin (c : CoreId) (p : Fin 64) (s : State) : Meaning := .next (checkinOp c p s)

/-- The lanes for which a set is evaluated (R415): lane 0 stands for a pair. -/
def cimActive (d : DomId) (s : State) : List (Fin 3) :=
  if !s.doms[d].run then []
  else match domGroup d with
    | none => if s.arb.oper == .hold then [] else [0]
    | some g => memberLanes g s

/-- A lane's verdict (R414): 0 OK, 1 MISSING, 2 EXCESS. -/
def cimVerdict (p : CimPt) (l : Fin 3) : Nat := if p.cnt[l].toNat < p.mn.toNat then 1 else if p.mx.toNat < p.cnt[l].toNat then 2 else 0

/-- One point at its window's end for the lanes evaluated: verdicts where counting had started, counts back to 0. -/
def cimClose (ls : List (Fin 3)) (p : CimPt) : CimPt := ls.foldl (fun p l =>
  let v := if p.started.getLsbD l.val then cimVerdict p l else 3
  { p with verdict := (p.verdict &&& ~~~(3#6 <<< (2 * l.val))) ||| (BitVec.ofNat 6 v <<< (2 * l.val)), cnt := p.cnt.set l 0, started := setBit p.started l.val true }) p

/-- A point's window ends in the running cycle (R414). -/
def cimEnds (p : CimPt) (s : State) : Bool := p.win ≠ 0 && s.cyc.count.toNat % p.win.toNat = 0

/-- The supervision failure of a domain (R415). -/
def supervisionFailure (d : DomId) (bad : List (Fin 3)) (s : State) : State :=
  let s := modCim d (fun x => { x with fails := inc x.fails, fail := true }) s
  match domPair d with
  | some n => pairFault n none 2 s
  | none => bad.foldl (fun s l => laneHalt l [Fin.ofNat 2 (d.val - 4)] 2 s) s

/-- CHECKIN_WINDOW_END (R414): at a T_k at which some window of the set ends. -/
def execCheckinWindowEnd (d : DomId) (s : State) : Meaning := .next <|
  let ls := cimActive d s
  if ls.isEmpty || s.cim[d].closedAt == some s.cyc.count || !(s.cim[d].pts.toList.any fun p => cimEnds p s) then s
  else
    let old := s.cim[d]
    let bad := ls.filter fun l => old.badLanes.getLsbD l.val ||
      old.pts.toList.any fun p => cimEnds p s && p.started.getLsbD l.val && cimVerdict p l ≠ 0
    let s := modCim d (fun x => { x with badLanes := 0, closedAt := some s.cyc.count, pts := x.pts.map fun p => if cimEnds p s then cimClose ls p else p }) s
    if bad.isEmpty then s else supervisionFailure d bad s

/-- Counting starts anew (R415). -/
def cimRestart (d : DomId) (s : State) : State :=
  modCim d (fun x => { x with badLanes := 0, pts := x.pts.map fun p => { p with started := 0, cnt := .replicate 3 0 } }) s

/-- The points that an image declares (R412). -/
def cimLoad (d : DomId) (im : Image) (s : State) : State :=
  modCim d (fun x => { x with pts := im.cim.foldl (fun ps c => ps.set c.point { CimPt.reset with win := c.win, mx := c.mx, mn := c.mn }) (.replicate 64 .reset) }) s

/-- A write of CIM_PT (R423): locked while the domain is in RUN; MIN above MAX is refused. -/
def cimPtOp (d : DomId) (p : Fin 64) (v : Word) (s : State) : State :=
  if s.doms[d].run then s
  else if field v 8 8 < field v 0 8 then modCim d (fun x => { x with badval := true }) s
  else modCim d (fun x => { x with pts := x.pts.set p { CimPt.reset with win := v.extractLsb' 16 16, mx := v.extractLsb' 8 8, mn := v.setWidth 8 } }) s

end Sys2Proof.Machine
end

