-- ==== Sys2Proof/Machine/Modes.lean ====
section
/-! DEFINITION. The Mode Arbiter: requests and their refusals, S1, entry to RUN, STOP and HOLD, run states, and the restart of a domain
(R60 to R64, R472 to R485). -/

namespace Sys2Proof.Machine

/-! ## The restart of a domain (R60 to R64) -/

/-- Timer instances take the state of TRST and counters of CRST where the restart does not keep them (R63). -/
def resetInstances (d : DomId) (im : Image) (warm : Bool) (s : State) : State :=
  let kept (o : Nat) : Bool := warm && im.retainTimers.contains o
  let s := (im.timers.filter fun o => !kept o).foldl (fun s o => domWrite d (o + 16) [0] (domWrite d (o + 8) (leBytes 4 0) s)) s
  (im.counters.filter fun o => !kept o).foldl (fun s o => domWrite d (o + 8) [0] (domWrite d o (leBytes 4 0) s)) s

/-- A warm restart finds the retentive instances as they were kept (R63; log entry 75). -/
def restoreInstances (d : DomId) (im : Image) (s : State) : State :=
  (s.doms[d].instKept.filter fun x => im.retainTimers.contains x.1).foldl (fun s x => domWrite d x.1 x.2 s) s

/-- The declared initial values, without those inside a retentive instance that a warm restart keeps. -/
def initKept (d : DomId) (im : Image) (warm : Bool) (s : State) : State :=
  if !warm then initVars d im s
  else
    let inst (o : Nat) : Nat := if im.counters.contains o then 16 else 32
    initVars d { im with init := im.init.filter fun x => !im.retainTimers.any fun o => o ≤ x.1 && x.1 < o + inst o } s

/-- A domain's own state as a restart leaves it: no execution, fail values until the first publication, the reason recorded (R61, R63). -/
def domFresh (im : Image) (fail : List Byte) (warm : Bool) (reason : Nat) (x : Dom) : Dom :=
  { x with image := some im
           tasks := x.tasks.map fun t => { t with open_ := 0, primed := false }
           commit := fail
           voted := []
           published := fail
           commits := []
           prevIn := .replicate 3 []
           relAt := none
           first := true
           skipNext := false
           skippedRun := 0
           repeated := false
           rptSent := false
           pstop := false
           ovrRun := 0
           rstKind := if warm then 1 else 2
           rstReason := BitVec.ofNat 8 reason
           stopDue := false
           bankB := if x.image.any fun old => old.areas.dataBase != im.areas.dataBase then !x.bankB else x.bankB
           change := .reset }

/-- A core that begins anew: registers and pipeline as after reset; its protection block stays as its runtime has set it. -/
def coreFresh (k : Core) : Core :=
  { k with arch := .reset, chk := k.chk.map fun _ => .reset, hold := .none, stopped := false, halted := false, step := false, task := none, saved := [], intTarget := []
           resched := false, lsWait := none }

/-- What the ladder notes of a restart: the domain's event is over, and a first-rung restart that was due is recorded (R416, R417). -/
def noteRestart (n : Fin 4) (s : State) : State :=
  if s.esc.due.getLsbD (n.val + 1) then ladderRestart (Fin.ofNat 5 (n.val + 1)) s
  else { s with esc := { s.esc with event := setBit s.esc.event (n.val + 1) false } }

/-- The program with which a domain starts next: the last confirmed one after an unconfirmed change (R62). -/
def nextImage (d : DomId) (s : State) : Option Image := match s.doms[d].change.confirmed with | some c => some c | none => s.doms[d].image

/-- The restart of a pair (R60 to R63); `host` requests it cold. -/
def pairRestart (n : Fin 4) (host : Bool) (src : Nat) (s : State) : State :=
  let d := pairDom n
  match nextImage d s with
  | none => s
  | some im =>
    let reason := restartReason n host s
    let warm := reason == 0
    let s := modDom d (domFresh im (failImage d s) warm reason) (abortSolvers d s)
    let s := modDom d (fun x => { x with commit := failImage d s, published := failImage d s }) s
    let s := initKept d im warm (resetInstances d im warm s)
    let s := if warm then restoreInstances d im s else initRetain n im s
    let s := modPair n (fun p => { p with fault := false, halt := false, log := [] }) (modCore (pairCore n) coreFresh s)
    addLog .restart d.val reason (setRun src d true (noteRestart n (cimRestart d s)))

/-- The start of a triplex group, always cold (R64), with the membership of R482: with fewer than two lanes it stays OUT and in STOP. -/
def groupStart (g : Fin 2) (src : Nat) (s : State) : State :=
  let d := groupDom g
  match nextImage d s with
  | none => s
  | some im =>
    let m := startMembers s
    if m = 0 then addLog .lanesShort g.val 0 (setMembers 2 g 0 s)
    else
      let low := List.replicate im.areas.qLen (0 : Byte)
      let s := setMembers 2 g m (modDom d (domFresh im low false 3) (abortSolvers d s))
      let s := modGroup g (fun v => { v with agr := .replicate 3 0, vp := none, voted := [], candGot := [], lastEoc := false, eocSince := false, eocAt := none
                                             relAt := none, builtAt := none, commit := .replicate 3 low, cand := 0, withheld := 0, mute := 0 }) s
      let s := (memberLanes g s).foldl (fun s l => modCore (laneCore l g) coreFresh
        { s with esc := { s.esc with event := setBit s.esc.event (5 + l.val) false } }) s
      let s := ixlRestart g im (initKept d im false (resetInstances d im false s))
      addLog .restart d.val 3 (setRun src d true (cimRestart d s))

/-- The restart of a domain that is loaded and not held (R466). A domain that runs leaves RUN first, and its online change ends (R392). -/
def domRestart (d : DomId) (host : Bool) (src : Nat) (s : State) : State :=
  if s.doms[d].held then s
  else
    let s := if s.doms[d].run then changeLeave d s else s
    match domPair d with
      | some n => pairRestart n host src s
      | none => groupStart (Fin.ofNat 2 (d.val - 4)) src s

/-- DOMAIN_RESTART (R60, R61): by the escalation ladder or a host command, while the domain may run. -/
def execDomainRestart (d : DomId) (hostCold : Bool) (s : State) : Meaning := .next <|
  if s.arb.oper == .run || ((s.arb.oper == .hold || inSafe s) && (domPair d).isSome) then domRestart d hostCold 2 s else s

/-! ## Feasibility (R35, R401) -/

/-- CYCLE_INFEASIBLE: t_asm, half the period, the return limit and the round trip (R35). -/
def infeasible (s : State) : Bool :=
  let p := s.cyc.period.toNat
  let m := s.cyc.margin.toNat
  let r := s.cyc.retlim.toNat
  let bytes := (s.ring.layout.map layoutBytes).getD 0
  m * tick100 < tickUs + bytes || p < 2 * m || p ≤ r + m || r * 100000 < ((s.ring.layout.map (·.roundTripPs)).getD 0)

/-- A timing proof that was made for another cycle than the configured one (R6, R35). -/
def proofStale (im : Image) (s : State) : Bool :=
  im.proofs && (im.proofPeriod ≠ s.cyc.period.toNat || im.proofMargin ≠ s.cyc.margin.toNat || im.proofRetlim ≠ s.cyc.retlim.toNat)

/-- TIMING_UNPROVEN: a loaded triplex image carries such a proof (R35). -/
def unproven (s : State) : Bool := (loadedGroups s).any fun g => s.doms[groupDom g].image.any fun im => proofStale im s

/-- WDG_UNLOCKED: a lane unit of a member lane is not enabled or not locked (R401). -/
def wdgUnlocked (s : State) : Bool := !(loadedGroups s).isEmpty &&
  allLanes.any fun l => (startMembers s).getLsbD l.val && !(s.wdg[Fin.ofNat 8 (5 + l.val)].en && s.wdg[Fin.ofNat 8 (5 + l.val)].lock)

/-- The conditions of R478 from CYCLE_INFEASIBLE on. -/
def runRefusal (s : State) : Option (Nat × String) :=
  if infeasible s then some (0x06, "CYCLE_INFEASIBLE")
  else if unproven s then some (0x07, "TIMING_UNPROVEN")
  else if wdgUnlocked s then some (0x08, "WDG_UNLOCKED")
  else if s.boot.rec_.flags.getLsbD 2 then some (0x09, "RING_SKIP")
  else if paired s && s.ring.dim == .off then some (0x0A, "PAIR_NO_RING") else none

/-! ## Requests (R472 to R484) -/

/-- The states of each dimension (R472): none for an undefined dimension. -/
def dimStates (dim : Nat) : Nat := match dim with
  | 0x00 => 5 | 0x01 => 3 | 0x02 => 4 | 0x03 => 4 | 0x04 => 3 | 0x05 => 2 | 0x06 => 3
  | _ => if 0x10 ≤ dim ∧ dim ≤ 0x15 then 2 else 0

/-- A change that is not NONE in a pair (R476). -/
def pairChange (s : State) : Bool := allPairs.any fun n => s.doms[pairDom n].change.dim != .none

/-- Refusals of a request on the operating dimension, after BADOP, NOT_REQUESTABLE, IN_SAFE and the same state. -/
def operRefusal (to_ : Oper) (s : State) : Option (Nat × String) :=
  let frm := s.arb.oper
  let listed : Bool := match frm, to_ with
    | .stop, .run => true | .stop, .service => true | .service, .stop => true | .run, .hold => true | .hold, .run => true | .run, .stop => true
    | .hold, .stop => true | _, _ => false
  if to_ == .run && serviceOnly s then some (0x0C, "SERVICE_ONLY")
  else if !listed then some (0x0E, "FROM_STATE")
  else if (to_ == .run || to_ == .hold) && s.arb.key == .stop then some (0x03, "KEY_STOP")
  else if to_ == .service && s.arb.key != .service then some (0x04, "NOT_SERVICE")
  else if to_ == .hold && pairChange s then some (0x0B, "CHANGE_ACTIVE")
  else if frm == .stop && to_ == .run then runRefusal s else none

/-- Refusals of a request on a run state (R480), after BADOP and the same state. -/
def runStateRefusal (d : DomId) (run : Bool) (s : State) : Option (Nat × String) :=
  let pair := (domPair d).isSome
  if inSafe s && !pair then some (0x05, "IN_SAFE")
  else if run && serviceOnly s then some (0x0C, "SERVICE_ONLY")
  else if s.arb.oper != .run && !(inSafe s && pair) then some (0x0E, "FROM_STATE")
  else if run && inSafe s && s.arb.key == .stop then some (0x03, "KEY_STOP")
  else if s.doms[d].image.isNone then some (0x0D, "NO_IMAGE")
  else if run && s.doms[d].held then some (0x10, "DOMAIN_HELD")
  else if !run && !pair && paired s then some (0x0F, "PAIRED_GROUP") else none

/-- An operating state by its code. -/
def operOf (n : Nat) : Oper := match n with
  | 0 => .stop | 1 => .run | 2 => .hold | 3 => .safe | _ => .service

/-- The dimension already holds the requested state (R473). -/
def sameState (dim st : Nat) (s : State) : Bool :=
  if dim = 0 then s.arb.oper.code == st else if 0x10 ≤ dim then bitOf s.doms[(Fin.ofNat 6 (dim - 0x10) : DomId)].run == st else false

/-- The first reason that refuses a request (R484). -/
def modeRefusal (dim st : Nat) (s : State) : Option (Nat × String) :=
  if dimStates dim ≤ st then some (0x01, "BADOP")
  else if (1 ≤ dim && dim ≤ 6) || (dim = 0 && st = 3) then some (0x02, "NOT_REQUESTABLE")
  else if inSafe s && dim = 0 then some (0x05, "IN_SAFE")
  else if sameState dim st s then none
  else if dim = 0 then operRefusal (operOf st) s
  else runStateRefusal (Fin.ofNat 6 (dim - 0x10)) (st == 1) s

/-- MA_REQSTAT.BUSY. -/
def maBusy (s : State) : Bool := s.arb.pend.isSome || s.arb.domStop != 0

/-- The lanes that do not qualify at a start and are held out by neither DEBUG nor MAINT are reintegrated at the next cycle boundary (R482). -/
def wantLanes (s : State) : State :=
  allLanes.foldl (fun s l =>
    let v := s.voter.lane[l]
    if qualifies l s || v.debug || v.scopeCause == 8 || v.scopeCause == 9 then s
    else modReint (fun r => { r with autoWant := setBit r.autoWant l.val true }) s) s

/-- The highest epoch that the lease-epoch record holds. -/
def recordEpoch (s : State) : Nat := match readRecord 3 4 s with | .valid _ p => sliceNat 0 4 p | _ => 0

/-- The lease logic at entry to RUN (R214, R215, R223): a paired module listens, an unpaired one originates. -/
def hsbRun (s : State) : State :=
  if paired s then
    let seen := max s.hsb.seen.toNat (recordEpoch s)
    epochAdvance (modSync (fun l => { l with listening := true, listenAt := s.cyc.tb, ofs := 0, accepted := false, relqGot := none, relqSent := none, prepM := none })
      (modHsb (fun h => { h with orig := false, silent := 0, seen := BitVec.ofNat 32 seen }) s))
  else modHsb (fun h => { h with orig := true }) s

/-- T_0: the first whole 100 ns of the time base at least 200 µs after admission (R478). -/
def firstDeparture (s : State) : Long := BitVec.ofNat 64 ((s.cyc.tb.toNat + 250000 + 124) / 125 * 125)

/-- Entry to RUN (R478). -/
def enterRun (src : Nat) (s : State) : State :=
  let s := if s.arb.frtLinkDue.isSome then frtEndAll .link s else s
  let s := setOper src .run { s with arb := { s.arb with frtLinkDue := none, lastTrain := false }
                                     cyc := { s.cyc with running := true, t0 := some (firstDeparture s), ir := none, irForced := false } }
  let s := (allDoms.filter fun d => s.doms[d].image.isSome && !s.doms[d].held).foldl (fun s d => domRestart d false src s) s
  hsbRun (wantLanes s)

/-- The cycle at whose deadline or vote point a run state's STOP admitted now takes effect (R477, R480). -/
def stopCycle (d : DomId) (s : State) : Long := match domGroup d with
  | none => deadlineCycle s
  | some g => if s.voter.grp[g].eocAt == some s.cyc.count then s.cyc.count + 1 else s.cyc.count

/-- That deadline or vote point has come. -/
def stopDueNow (d : DomId) (s : State) : Bool := match domGroup d with
  | none => pastDeadline s.arb.domStopCyc[d] s
  | some g => s.arb.domStopCyc[d].toNat < s.cyc.count.toNat || s.voter.grp[g].eocAt == some s.arb.domStopCyc[d]

/-- What becomes of an admitted request: it takes effect at once, or it waits. -/
def modeAdmit (dim st : Nat) (src : ReqSrc) (s : State) : State :=
  if sameState dim st s then s
  else if dim = 0 then
    let pend (to_ : Oper) : State := { s with arb := { s.arb with pend := some { target := to_, cyc := deadlineCycle s, tick := s.cyc.tb + 1250, src := src, fault := false } } }
    match s.arb.oper, operOf st with
    | .stop, .run => enterRun (srcCode src) s
    | .stop, .service => showGroups (setOper (srcCode src) .service s)
    | .service, .stop => showGroups (setOper (srcCode src) .stop s)
    | _, to_ => pend to_
  else
    let d : DomId := Fin.ofNat 6 (dim - 0x10)
    if st = 1 then domRestart d false (srcCode src) s
    else { s with arb := { s.arb with domStop := setBit s.arb.domStop d.val true, domStopCyc := s.arb.domStopCyc.set d (stopCycle d s) } }

/-- A request to MA_REQ (R473): ignored while BUSY. The refusal, if any, and the state after. -/
def modeRequest (dim st : Nat) (src : ReqSrc) (s : State) : Option (Nat × String) × State :=
  if maBusy s then (none, s)
  else match modeRefusal dim st s with
    | some e => (some e, { s with arb := { s.arb with reason := BitVec.ofNat 8 e.1, refused := true } })
    | none => (none, modeAdmit dim st src { s with arb := { s.arb with reason := 0, refused := false } })

/-- Only the Steward writes MA_REQ (R486). -/
def maRequest (src : ReqSrc) (dim st : Nat) (s : State) : State := if src = .steward then (modeRequest dim st src s).2 else s

/-- REQ_OPER_RUN. -/
def execReqOperRun (src : ReqSrc) (s : State) : Meaning := .next (maRequest src 0 1 s)
/-- REQ_OPER_STOP. -/
def execReqOperStop (src : ReqSrc) (s : State) : Meaning := .next (maRequest src 0 0 s)
/-- REQ_OPER_HOLD. -/
def execReqOperHold (src : ReqSrc) (s : State) : Meaning := .next (maRequest src 0 2 s)
/-- REQ_OPER_SERVICE. -/
def execReqOperService (src : ReqSrc) (s : State) : Meaning := .next (maRequest src 0 4 s)
/-- REQ_RUN_STATE. -/
def execReqRunState (src : ReqSrc) (d : DomId) (run : Bool) (s : State) : Meaning := .next (maRequest src (0x10 + d.val) (bitOf run) s)
/-- REQ_NOT_REQUESTABLE (R484): a dimension or state that no request may name. -/
def execReqNotRequestable (src : ReqSrc) (dim st : BitVec 8) (s : State) : Meaning := .next (maRequest src dim.toNat st.toNat s)

/-! ## STOP and HOLD at D_j (R477, R479, R480) -/

/-- The commands that waited for the request's effect end OK. -/
def modeDone (s : State) : State := (waiting .mode s).foldl (fun s c => finish c .ok 0 [] s) s

/-- A pair leaves RUN by command: solvers aborted, area sealed, fail values published with PSTOP, the change ended (R477). -/
def pairCommandStop (n : Fin 4) (src : Nat) (s : State) : State :=
  let d := pairDom n
  if !s.doms[d].run then s
  else
    let s := changeLeave d (sealArea n (abandonTasks d (abortSolvers d s)))
    let s := modDom d (fun x => { x with commit := failImage d s, published := failImage d s, pstop := true, rptSent := false, ovrRun := 0, stopDue := false }) s
    setRun src d false (stopCore (pairCore n) s)

/-- A group leaves RUN: no vote, outputs de-energised, no telegrams. -/
def groupHalt (g : Fin 2) (src : Nat) (s : State) : State :=
  let d := groupDom g
  if !s.doms[d].run then s
  else
    let s := changeLeave d (safetyOff g (abandonTasks d (abortSolvers d s)))
    let s := allLanes.foldl (fun s l => stopCore (laneCore l g) s) s
    let s := modGroup g (fun v => { v with
      vp := none, voted := [], candGot := [], cand := 0, withheld := 0, mute := 0, lastEoc := false, queue := []
      tels := v.tels.map fun t => { t with telegram := [] } }) s
    setRun src d false s

/-- Entry to STOP at D_j (R477). -/
def enterStop (src : Nat) (s : State) : State :=
  let s := allPairs.foldl (fun s n => pairCommandStop n src s) s
  let s := allGroups.foldl (fun s g => groupHalt g src s) s
  let s := reintEnd 0x07 (permitsOff (safetyOff 0 (safetyOff 1 s)))
  let s := if s.hsb.role == .primary then sendRelinquish (s.cyc.count + 1) s else s
  let s := modSync (fun l => { l with listening := false, resync := { l.resync with state := 0, failedAt := none } }) (setRole .alone s)
  showGroups { setOper src .stop s with arb := { (setOper src .stop s).arb with lastTrain := true } }

/-- STOP_EFFECT: an admitted STOP takes effect at D_j. A run state's STOP that is still pending is then refused (R474). -/
def execStopEffect (s : State) : Meaning := .next <| match s.arb.pend with
  | some p =>
    if p.target != .stop || !pastDeadline p.cyc s then s
    else
      let s := enterStop (if p.fault then 1 else srcCode p.src) { s with arb := { s.arb with pend := none } }
      if s.arb.domStop = 0 then modeDone s else refusePending 0x0E "FROM_STATE" s
  | none => s

/-- A core's pipeline with nothing in flight. -/
def pipeClear (a : Arch) : Arch := { a with opens := [], delay := none, rpt := none }

/-- A pair rests in HOLD (R479). -/
def pairHold (n : Fin 4) (s : State) : State :=
  let d := pairDom n
  if !s.doms[d].run then s
  else
    let busy := s.doms[d].tasks.toList.any (·.active)
    let s := abandonTasks d (abortSolvers d (modDom d (fun x => { x with published := failImage d s, pstop := true, rptSent := false }) s))
    let s := modArch (pairCore n) pipeClear (modCore (pairCore n) (fun k => { k with task := none, saved := [], hold := .none }) s)
    if busy then s else sealArea n s

/-- HOLD_EFFECT (R479): an admitted HOLD takes effect at D_j, if no pair's change has begun meanwhile (R474). -/
def execHoldEffect (s : State) : Meaning := .next <| match s.arb.pend with
  | some p =>
    if p.target != .hold || !pastDeadline p.cyc s then s
    else if pairChange s then refusePending 0x0B "CHANGE_ACTIVE" s
    else
      let s := allPairs.foldl (fun s n => pairHold n s) { s with arb := { s.arb with pend := none } }
      modeDone (setOper (srcCode p.src) .hold s)
  | none => s

/-- HOLD_RETURN (R479): at the first release instant at least 1 µs after admission; each pair is released in that cycle without a restart. The
time spent in HOLD is excluded from its timers (R270). -/
def execHoldReturn (s : State) : Meaning := .next <| match s.arb.pend with
  | some p =>
    if p.target != .run || s.cyc.tb.toNat < p.tick.toNat then s
    else
      let s := setOper (srcCode p.src) .run { s with arb := { s.arb with pend := none } }
      modeDone (allPairs.foldl (fun s n => match s.doms[pairDom n].image with
        | some im => if s.doms[pairDom n].run then primeTimers (pairDom n) im (cimRestart (pairDom n) s) else s
        | none => s) s)
  | none => s

/-- DOMAIN_STOP_EFFECT (R480): a pair's STOP at its next deadline, a group's at its next end-of-cycle vote point; evaluated again (R474). -/
def execDomainStopEffect (d : DomId) (s : State) : Meaning := .next <|
  if !s.arb.domStop.getLsbD d.val || !stopDueNow d s then s
  else if s.arb.oper != .run && !(inSafe s && (domPair d).isSome) then refusePending 0x0E "FROM_STATE" s
  else
    let s : State := { s with arb := { s.arb with domStop := setBit s.arb.domStop d.val false } }
    let s := match domPair d with
      | some n => pairCommandStop n 0 s
      | none => setMembers 0 (Fin.ofNat 2 (d.val - 4)) 0 (groupHalt (Fin.ofNat 2 (d.val - 4)) 0 s)
    if s.arb.domStop = 0 then modeDone s else s

/-- FREIGHT_STOP_LINK (R477): at T_{j+1} + PERIOD every unfinished freight request ends LINK. -/
def execFreightStopLink (s : State) : Meaning := .next <|
  if s.arb.frtLinkDue.any fun t => t.toNat ≤ s.cyc.tb.toNat then frtEndAll .link { s with arb := { s.arb with frtLinkDue := none } } else s

/-! ## S1 (R475) -/

/-- What S1 at STOP does. A pending HOLD or RUN is refused with KEY_STOP; in SAFE the pairs stop. -/
def keyStop (s : State) : State :=
  if s.arb.oper == .run || s.arb.oper == .hold then
    if s.arb.pend.any fun p => p.target == .stop then s
    else
      let s := if s.arb.pend.isSome then refusePending 0x03 "KEY_STOP" s else s
      { s with arb := { s.arb with pend := some { target := .stop, cyc := deadlineCycle s, tick := s.cyc.tb, src := .steward, fault := true } } }
  else if inSafe s then allPairs.foldl (fun s n => pairCommandStop n 1 s) s
  else s

/-- S1 takes a position in effect. -/
def keySet (new : KeyPos) (s : State) : State :=
  let old := s.arb.key
  let s := transition 1 0 4 (keyCode old) (keyCode new) s
  let s : State := { s with arb := { s.arb with key := new } }
  let s := if old == .service && new != .service then detachAll s else s
  let s := if s.arb.oper == .service && new != .service then showGroups (setOper 1 .stop s) else s
  if new == .stop then keyStop s else s

/-- KEY_SWITCH_CHANGE: S1 leaves a contact and counts as STOP at once. -/
def execKeySwitchChange (s : State) : Meaning := .next (keySet .stop { s with arb := { s.arb with transit := true } })

/-- KEY_SWITCH_SETTLE: a contact has held for 10 ms. -/
def execKeySwitchSettle (pos : KeyPos) (s : State) : Meaning := .next (keySet pos { s with arb := { s.arb with transit := false } })

end Sys2Proof.Machine
end

