-- ==== Sys2Proof/Machine/Steward.lean ====
section
/-! DEFINITION. The Steward's mailboxes: transports, datagrams and their checks, sessions and keys, slots, forwarding, aborts and timeouts
(R354 to R378, R497 to R499). -/

namespace Sys2Proof.Machine

/-! ## Codes (R368, R369) -/

/-- Rights R, O, C, U, S as bits 0 to 4 (R358, R497). -/
structure CodeInfo where
  rights : BitVec 5
  partner : Bool
  deriving DecidableEq, Repr

/-- The assigned codes with the rights that every use of them needs, and whether the partner may send them. -/
def codeInfo (code : Nat) : Option CodeInfo := match code with
  | 0x0001 => some { rights := 0, partner := false } | 0x0002 => some { rights := 0, partner := false } | 0x0003 => some { rights := 0, partner := false }
  | 0x0004 => some { rights := 0, partner := false }
  | 0x0101 => some { rights := 1, partner := true } | 0x0102 => some { rights := 1, partner := true } | 0x0103 => some { rights := 1, partner := false }
  | 0x0104 => some { rights := 1, partner := false }
  | 0x0201 => some { rights := 2, partner := false } | 0x0202 => some { rights := 2, partner := false } | 0x0203 => some { rights := 2, partner := false }
  | 0x0204 => some { rights := 2, partner := false } | 0x0205 => some { rights := 0x12, partner := false }
  | 0x0301 => some { rights := 4, partner := false } | 0x0302 => some { rights := 4, partner := false } | 0x0303 => some { rights := 4, partner := false }
  | 0x0304 => some { rights := 4, partner := false }
  | 0x0401 => some { rights := 8, partner := false } | 0x0402 => some { rights := 8, partner := false } | 0x0403 => some { rights := 8, partner := false }
  | 0x0404 => some { rights := 8, partner := false }
  | 0x0501 => some { rights := 8, partner := true } | 0x0502 => some { rights := 8, partner := true } | 0x0503 => some { rights := 8, partner := true }
  | 0x0601 => some { rights := 1, partner := true } | 0x0602 => some { rights := 4, partner := false } | 0x0603 => some { rights := 1, partner := false }
  | 0x0604 => some { rights := 1, partner := false }
  | 0x0701 => some { rights := 0, partner := false } | 0x0702 => some { rights := 2, partner := false }
  | 0x0801 => some { rights := 1, partner := false } | 0x0802 => some { rights := 4, partner := false } | 0x0803 => some { rights := 4, partner := false }
  | 0x0804 => some { rights := 4, partner := false }
  | 0x0901 => some { rights := 1, partner := true } | 0x0902 => some { rights := 0x10, partner := false }
  | _ => none

/-- The minimum TIMEOUT of a code in ms (R369), by its data. -/
def minTimeout (code : Nat) (data : List Byte) (s : State) : Nat :=
  if code / 256 = 1 then 1
  else if code = 0x0203 then ceilMs 3 s + 10
  else if code / 256 = 2 then 1
  else if code = 0x0303 || code = 0x0304 then ceilMs 2 s + 10
  else if code / 256 = 3 then 1
  else if code / 256 = 4 || code / 256 = 5 then 760
  else if code = 0x0602 then 30 * sliceNat 2 2 data
  else if code = 0x0603 || code = 0x0604 then 760
  else if code = 0x0701 then ceilMs (5 + 2 * (sliceNat 1 1 data - 1)) s + 10
  else if code = 0x0702 then ceilMs 5 s + 10
  else if code / 256 = 8 then 1
  else if code / 256 = 9 then 30 else 0

/-- The codes that a service-only start accepts (R469). -/
def serviceAllowed (code : Nat) : Bool :=
  code / 256 = 0 || code / 256 = 1 || code = 0x0205 || code / 256 = 5 || code = 0x0601 || code = 0x0603 || code = 0x0604 || code / 256 = 9

/-! ## Session keys (R497 to R499) -/

/-- Entry `i` of the key table. -/
def keyEntry (i : Nat) (s : State) : List Byte := ((page (128 + i / 4) s).drop (64 * (i % 4))).take 64
/-- An entry is in use. -/
def entryInUse (e : List Byte) : Bool := e.getD 33 0 == 1
/-- The mask of a slot's key. -/
def keyMask (i : Nat) (s : State) : List Byte := hmac s.fuses.fkey [0x53, 0x4B, BitVec.ofNat 8 i]
/-- Key and rights with which KEYIDX opens a session, if it does. -/
def openKey (i : Nat) (s : State) : Option (List Byte × BitVec 5) :=
  let e := keyEntry i s
  if entryInUse e then some (xorBytes (e.take 32) (keyMask i s), (e.getD 32 0).setWidth 5)
  else if i = 0 && !s.fuses.fkeyDone && (List.range 16).all (fun j => !entryInUse (keyEntry j s)) then some (s.fuses.fkey, 0b10101)
  else none

/-! ## Reading datagrams (R360, R361) -/

/-- The fields of a datagram. -/
structure Dg where
  session : Nat
  sseq : Nat
  code : Nat
  tag : BitVec 16
  length : Nat
  timeout : Nat
  flags : Nat
  offset : Nat
  blen : Nat
  data : List Byte
  deriving DecidableEq, Repr

/-- Parses a datagram's fields. -/
def parseDg (b : List Byte) : Dg :=
  { session := sliceNat 3 1 b, sseq := sliceNat 4 4 b, code := sliceNat 8 2 b, tag := BitVec.ofNat 16 (sliceNat 10 2 b), length := sliceNat 12 4 b
    timeout := sliceNat 16 4 b, flags := sliceNat 20 2 b, offset := sliceNat 24 4 b, blen := sliceNat 28 2 b, data := (b.drop 32).take (sliceNat 28 2 b) }

/-- Check 3 (R365): the offset of the first offending field; `mac` bytes follow the data. -/
def check3 (b : List Byte) (mac : Nat) : Option Nat :=
  if sliceNat 0 2 b ≠ 0x4D53 then some 0
  else if sliceNat 2 1 b ≠ 1 then some 2
  else if sliceNat 20 2 b ≥ 2 then some 20
  else if sliceNat 22 2 b ≠ 0 then some 22
  else if 32 + sliceNat 28 2 b + mac ≠ b.length then some 28
  else if sliceNat 30 2 b ≠ 0 then some 30 else none

/-- Check 4 (R365): LENGTH, TIMEOUT, OFFSET and BLEN within R361 and R363, and the header of earlier blocks of the tag. -/
def check4 (d : Dg) (bs : Nat) (old : Option Slot) : Option Nat :=
  let differs : Bool := old.any fun x => x.code.toNat ≠ d.code
  if differs then some 8
  else if 65536 < d.length || old.any (fun x => x.length ≠ d.length) then some 12
  else if 3600000 < d.timeout || old.any (fun x => x.timeout ≠ d.timeout) then some 16
  else if old.any fun x => x.partner ≠ (d.flags % 2 = 1) then some 20
  else if bs = 0 || d.offset % bs ≠ 0 || (d.length ≤ d.offset && d.offset ≠ 0) then some 24
  else if d.blen ≠ min bs (d.length - d.offset) then some 28 else none

/-! ## Answers -/

/-- An answer to a datagram of session `i` that ends nothing in a slot. -/
def answerDg (i : Fin 5) (car : Carrier) (d : Dg) (st : Status) (detail : Nat) (s : State) : State :=
  sendReply i car { tag := d.tag, code := BitVec.ofNat 16 d.code, status := st.code, detail := BitVec.ofNat 16 detail, data := [] } (st != .pending) s

/-- The answers that R365 counts. -/
def answerCounted (i : Fin 5) (car : Carrier) (d : Dg) (st : Status) (detail : Nat) (s : State) : State :=
  let s := match st with
    | .malformed => countMbx .malformed s
    | .unknownCode => countMbx .unknown s
    | .busy => countMbx .busy s
    | _ => s
  answerDg i car d st detail s

/-- A reply in the OPEN exchange, without a MAC (R358). -/
def sendOpen (car : Carrier) (tag : BitVec 16) (st : Status) (detail : Nat) (data : List Byte) (s : State) : State :=
  let rep : Reply := { tag := tag, code := 1, status := st.code, detail := BitVec.ofNat 16 detail, data := data }
  { s with mbx := { s.mbx with out := s.mbx.out ++ [.datagram car (datagramBody 0xFF 0 (replyHeader rep true) 0 data)] } }

/-- A datagram that fails authentication: never answered, counted and logged (R365). -/
def authFail (s : State) : State := addLog .authFail 0 0 (countMbx .authfail s)

/-! ## Slots (R363, R364) -/

/-- Every byte of the command has arrived. -/
def slotWhole (x : Slot) : Bool := (x.got.map fun b => b.2.length).sum ≥ x.length

/-- Forwards a command to the partner (R357). -/
def forwardSend (r : CmdRef) (s : State) : State := match slotOf r s with
  | none => s
  | some x =>
    let hdr := leBytes 2 x.code.toNat ++ leBytes 2 x.tag.toNat ++ leBytes 4 x.length ++ leBytes 4 x.timeout ++ leBytes 2 1 ++ leBytes 2 0
    (blocksOf 4096 (slotData x)).foldl (fun s b => sendDatagram 4 .sync hdr b.1 b.2 s) s

/-- The data of a command asks a right that the key lacks (R369): RESTART of a group S, FREIGHT READ R and WRITE C. A forwarded command
is judged here, since the partner knows no key of it. -/
def dataDenied (x : Slot) (rights : BitVec 5) : Bool :=
  let first := sliceNat 0 1 (slotData x)
  (x.code == 0x0204 && (first == 4 || first == 5) && !rights.getLsbD 4) ||
    (x.code == 0x0701 && ((first == 1 && !rights.getLsbD 0) || (first == 2 && !rights.getLsbD 2)))

/-- A command whose last byte has arrived (R296, R357, R363, R369, R373): the Steward's core takes MAILBOX, its TIMEOUT runs, too short a one ends it, a PARTNER command is forwarded. -/
def slotReceived (r : CmdRef) (s : State) : State := match slotOf r s with
  | none => s
  | some x =>
    let min := minTimeout x.code.toNat (slotData x) s + (if x.partner then 50 else 0)
    let s := raiseIrq stewCore 4 (modSlot r (fun y => { y with received := true, recvAt := s.cyc.tb }) s)
    if x.timeout ≠ 0 && x.timeout < min then finish r .timeoutTooShort 0 (leBytes 4 min) s
    else if x.partner && r.sess ≠ 4 then
      if dataDenied x (sessOf r s).rights then finish r .denied 0 [] s
      else forwardSend r (modSlot r (fun y => { y with started := true, wait := .partner }) s)
    else s

/-- A block of a command (R363, R364): into its slot, or into a free one; one that adds nothing is answered PENDING. -/
def takeBlock (i : Fin 5) (car : Carrier) (d : Dg) (s : State) : State :=
  let r : CmdRef := { sess := i, tag := d.tag }
  match slotOf r s with
  | some x =>
    if x.received || x.got.any (fun b => b.1 == d.offset) then answerDg i car d .pending 0 (modSlot r (fun y => { y with car := car }) s)
    else
      let s := modSlot r (fun y => { y with got := y.got ++ [(d.offset, d.data)], car := car, recvAt := s.cyc.tb }) s
      if (slotOf r s).any slotWhole then slotReceived r s else s
  | none =>
    if (sessOf r s).slots.length ≥ 32 then answerCounted i car d .busy 0 s
    else
      let x : Slot := { tag := d.tag, code := BitVec.ofNat 16 d.code, length := d.length, timeout := d.timeout, partner := d.flags % 2 = 1, got := [(d.offset, d.data)]
                        received := false, recvAt := s.cyc.tb, started := false, wait := .none, tries := 0, donePages := 0, car := car }
      let s := modSess i (fun y => { y with slots := y.slots ++ [x] }) s
      if slotWhole x then slotReceived r s else s

/-- Checks 3 to 7 and what follows (R364, R365). `allowed` is check 6. -/
def takeDg (i : Fin 5) (car : Carrier) (b : List Byte) (mac : Nat) (allowed : CodeInfo → Bool) (s : State) : State :=
  let d := parseDg b
  let r : CmdRef := { sess := i, tag := d.tag }
  match check3 b mac with
  | some o => answerCounted i car d .malformed o s
  | none =>
    match check4 d (blockSize car s) (slotOf r s) with
    | some o => answerCounted i car d .malformed o s
    | none =>
      match (sessOf r s).cache.find? fun y => y.tag == d.tag with
      | some y => sendReply i car y true (countMbx .cached s)
      | none => match codeInfo d.code with
        | none => answerCounted i car d .unknownCode 0 s
        | some c =>
          if !allowed c || d.code = 1 then answerCounted i car d .denied 0 s
          else if d.code / 256 = 0 then
            { s with mbx := { s.mbx with once := s.mbx.once ++ [{ ref := r, code := BitVec.ofNat 16 d.code, data := d.data, car := car }] } }
          else takeBlock i car d s

/-! ## Transports (R354 to R357) -/

/-- The MAC of a session datagram verifies (R360). -/
def macOk (ks b : List Byte) : Bool := (hmac ks (b.take (b.length - 16))).take 16 == b.drop (b.length - 16)

/-- SSEQ is accepted (R359). -/
def sseqOk (x : Session) (q : Nat) : Bool := x.hi < q + 64 && !x.seen.contains q && q ≠ 0

/-- An accepted datagram: the window of SSEQ, the idle time, and OPENING becomes OPEN. -/
def sessAccept (q : Nat) (now : Long) (x : Session) : Session :=
  let hi := max x.hi q
  { x with st := .opened, hi := hi, seen := q :: x.seen.filter fun y => hi < y + 64, lastAt := now }

/-- The OPEN request's checks (R366). -/
def openForm (b : List Byte) : Bool := sliceNat 8 2 b = 1 && sliceNat 4 4 b = 0 && sliceNat 28 2 b = 20 && b.length = 52

/-- A whole datagram from a host transport (R365, R366). -/
def hostDatagram (car : Carrier) (b : List Byte) (s : State) : State :=
  let n := sliceNat 3 1 b
  if n = 0xFF then
    if !openForm b then authFail s
    else
      let d := parseDg b
      match check3 b 0, check4 d (blockSize car s) none with
      | some o, _ => sendOpen car d.tag .malformed o [] (countMbx .malformed s)
      | none, some o => sendOpen car d.tag .malformed o [] (countMbx .malformed s)
      | none, none => { s with mbx := { s.mbx with once := s.mbx.once ++ [{ ref := { sess := 0, tag := d.tag }, code := 1, data := d.data, car := car }] } }
  else if h : n < 4 then
    let x := s.mbx.sess[n]
    if x.st == .closed || b.length < 48 || !macOk x.ks b || !sseqOk x (sliceNat 4 4 b) then authFail s
    else
      let i : Fin 5 := Fin.ofNat 5 n
      takeDg i car b 16 (fun c => c.rights &&& x.rights == c.rights) (modSess i (sessAccept (sliceNat 4 4 b) s.cyc.tb) s)
  else authFail s

/-- Takes a fragment, and the whole datagram once its fragments leave no gap (R355). -/
def takeFragment (ip : Word) (port id : BitVec 16) (off : Nat) (more : Bool) (b : List Byte) (s : State) : State :=
  let f : Frag := { ip := ip, port := port, id := id, offset := 8 * off, more := more, bytes := b, at_ := s.cyc.tb }
  let same (x : Frag) : Bool := x.ip == ip && x.port == port && x.id == id
  let fs := f :: s.mbx.frags.filter fun x => !(same x && x.offset == f.offset)
  let mine := fs.filter same
  let rest := fs.filter fun x => !same x
  match mine.find? fun x => !x.more with
  | none => { s with mbx := { s.mbx with frags := fs } }
  | some l =>
    let total := l.offset + l.bytes.length
    if 4144 < total then countMbx .foreign { s with mbx := { s.mbx with frags := rest } }
    else if (mine.map fun x => x.bytes.length).sum < total then { s with mbx := { s.mbx with frags := fs } }
    else
      let whole := (List.range total).map fun j => ((mine.find? fun x => x.offset ≤ j && j < x.offset + x.bytes.length).map fun x => x.bytes.getD (j - x.offset) 0).getD 0
      hostDatagram (.x6 ip port) whole { s with mbx := { s.mbx with frags := rest } }

/-- The Steward and the transport's block are supplied. -/
def x6On (s : State) : Bool := s.mbx.eth && pdOn .stew s && pdOn .iox s

/-- DATAGRAM_RECEIVE (R354, R355, R365). Datagrams of the sync link come as MAILBOX. -/
def execDatagramReceive (car : Carrier) (b : List Byte) (s : State) : Meaning := .next <| match car with
  | .x6 _ _ => if !x6On s then s else if 4144 < b.length then countMbx .foreign s else hostDatagram car b s
  | .x6Fragment ip port id off more => if x6On s then takeFragment ip port id off.toNat more b s else s
  | .freight => if s.mbx.frt && pdOn .stew s then hostDatagram car b s else s
  | .sync => s
  | .foreign => if pdOn .stew s then countMbx .foreign s else s

/-- ARP_REQUEST (R355): answered for the module's own address, otherwise discarded and counted. -/
def execArpRequest (ip : Word) (s : State) : Meaning := .next <|
  if !x6On s then s
  else if ip == s.mbx.ip then { s with mbx := { s.mbx with out := s.mbx.out ++ [.arp ip] } } else countMbx .foreign s

/-- ICMP_ECHO (R355): answered to its source. -/
def execIcmpEcho (ip : Word) (payload : List Byte) (s : State) : Meaning := .next <|
  if x6On s then { s with mbx := { s.mbx with out := s.mbx.out ++ [.echo ip payload] } } else s

/-- FRAGMENT_TIMEOUT (R355): fragments of a datagram that stayed incomplete for 100 ms are discarded and counted. -/
def execFragmentTimeout (id : BitVec 16) (s : State) : Meaning := .next <|
  if s.mbx.frags.any fun f => f.id == id && elapsed 100 f.at_ s then
    countMbx .foreign { s with mbx := { s.mbx with frags := s.mbx.frags.filter fun f => f.id != id } }
  else s

/-! ## The sync link (R357, R366) -/

/-- A reply of the partner to a forwarded command: PENDING stops the resends; a final reply ends the command once its data is whole. -/
def partnerReply (b : List Byte) (s : State) : State :=
  let d := parseDg b
  match (waiting .partner s).find? fun r => r.tag == d.tag with
  | none => countMbx .late s
  | some r =>
    if sliceNat 20 2 b % 2 = 0 then modSlot r (fun x => { x with tries := 4 }) s
    else
      let s := modSlot r (fun x =>
        let got := if x.donePages = 0 then [] else x.got
        { x with tries := 4, donePages := 1, length := d.length, got := if got.any (fun g => g.1 == d.offset) then got else got ++ [(d.offset, d.data)] }) s
      match slotOf r s with
      | some x => if slotWhole x then finishCode r (BitVec.ofNat 16 (sliceNat 16 2 b)) (sliceNat 18 2 b) (slotData x) s else s
      | none => s

/-- A datagram in a MAILBOX message. Its commands use the partner's own slots; forwarded ones carry FLAGS.PARTNER. -/
def partnerDatagram (b : List Byte) (s : State) : State :=
  if b.length < 32 then s
  else if sliceNat 9 1 b ≥ 128 then partnerReply b s
  else takeDg 4 .sync b 0 (fun c => c.partner || sliceNat 20 2 b % 2 = 1) s

/-- MAILBOX (R357). -/
def execMailbox (m : SyncHdr) (dg : List Byte) (s : State) : Meaning := .next (syncGet m 0x0B dg (fun s => if pdOn .stew s then partnerDatagram dg s else s) s)

/-- FORWARD_RESEND (R357): every 10 ms, up to 3 times; a command still without a reply after the third resend ends with LINK. -/
def execForwardResend (r : CmdRef) (s : State) : Meaning := .next <| match slotOf r s with
  | none => s
  | some x =>
    if x.wait != .partner || 4 ≤ x.tries || !elapsed (10 * (x.tries + 1)) x.recvAt s then s
    else if x.tries = 3 then finish r .link 0 [] s
    else forwardSend r (modSlot r (fun y => { y with tries := y.tries + 1 }) s)

/-! ## Sessions (R358, R359) -/

/-- Takes the datagram of a command that holds no slot. -/
def takeOnce (r : CmdRef) (code : Nat) (s : State) : Option (AtOnce × State) :=
  (s.mbx.once.find? fun x => x.ref == r && x.code.toNat == code).map fun x => (x, { s with mbx := { s.mbx with once := s.mbx.once.filter fun y => y != x } })

/-- Closes a session: pending commands run on to their ends, and their replies are dropped. -/
def closeSess (i : Fin 5) (s : State) : State :=
  let s := modSess i (fun x => { Session.reset with slots := x.slots.map fun y => { y with car := .foreign } }) s
  { s with mbx := { s.mbx with once := s.mbx.once.filter fun x => x.ref.sess != i || x.code = 1 } }

/-- The place for a new session: a closed one, better one without commands left. -/
def freeSess (s : State) : Option (Fin 5) :=
  let closed := ([0, 1, 2, 3] : List (Fin 5)).filter fun i => (sessOf { sess := i, tag := 0 } s).st == .closed
  (closed.find? fun i => (sessOf { sess := i, tag := 0 } s).slots.isEmpty).or closed.head?

/-- A carrier is ring freight. -/
def onFreight : Carrier → Bool
  | .freight => true | _ => false

/-- OPEN (R358, R366, R499). -/
def execOpenSession (r : CmdRef) (s : State) : Meaning := .next <| match takeOnce r 1 s with
  | none => s
  | some (x, s) =>
    let idx := (x.data.getD 0 0).toNat
    let nh := (x.data.drop 4).take 16
    if 16 ≤ idx then sendOpen x.car r.tag .badParam 0 [] s
    else if sliceNat 1 3 x.data ≠ 0 then sendOpen x.car r.tag .badParam 1 [] s
    else match openKey idx s, freeSess s with
      | none, _ => sendOpen x.car r.tag .denied 0 [] s
      | some _, none => sendOpen x.car r.tag .busy 0 [] (countMbx .busy s)
      | some (k, rights), some i =>
        let f := nextFree s
        let ns := leBytes 16 (Config.nonce f.1).toNat
        let n : List Byte := [BitVec.ofNat 8 i.val]
        let s := modSess i (fun y => { Session.reset with st := .opening, freight := onFreight x.car, key := Fin.ofNat 16 idx, useFkey := !entryInUse (keyEntry idx s)
                                                          rights := rights, ks := hmac k (nh ++ ns ++ n), openedAt := s.cyc.tb, lastAt := s.cyc.tb, slots := y.slots }) f.2
        sendOpen x.car r.tag .ok 0 (n ++ [0, 0, 0] ++ ns ++ (hmac k (ns ++ nh)).take 16) s

/-- CLOSE. -/
def execCloseSession (r : CmdRef) (s : State) : Meaning := .next <| match takeOnce r 2 s with
  | none => s
  | some (x, s) =>
    let d : Dg := { session := 0, sseq := 0, code := 2, tag := r.tag, length := 0, timeout := 0, flags := 0, offset := 0, blen := 0, data := [] }
    if !x.data.isEmpty then answerDg r.sess x.car d .badParam 0 s else closeSess r.sess (answerDg r.sess x.car d .ok 0 s)

/-- KEEPALIVE. -/
def execKeepalive (r : CmdRef) (s : State) : Meaning := .next <| match takeOnce r 3 s with
  | none => s
  | some (x, s) =>
    let d : Dg := { session := 0, sseq := 0, code := 3, tag := r.tag, length := 0, timeout := 0, flags := 0, offset := 0, blen := 0, data := [] }
    answerDg r.sess x.car d (if x.data.isEmpty then .ok else .badParam) 0 s

/-- SESSION_OPEN_TIMEOUT: still OPENING after 5 s. -/
def execSessionOpenTimeout (n : Fin 4) (s : State) : Meaning := .next (if s.mbx.sess[n].st == .opening && elapsed 5000 s.mbx.sess[n].openedAt s then closeSess (Fin.ofNat 5 n.val) s else s)
/-- SESSION_IDLE_TIMEOUT: 60 s without an accepted datagram. -/
def execSessionIdleTimeout (n : Fin 4) (s : State) : Meaning := .next (if s.mbx.sess[n].st == .opened && elapsed 60000 s.mbx.sess[n].lastAt s then closeSess (Fin.ofNat 5 n.val) s else s)
/-- The mailbox station of the layout has been LOST for 8 s. -/
def mailboxLost (s : State) : Bool := ((coachesOf s).zip s.ring.stations).any fun c =>
  (s.ring.layout.bind (·.mailbox)) == some c.1.addr && c.2.lostAt.any fun t => elapsed 8000 t s

/-- SESSION_STATION_LOST: the mailbox station has been LOST for 8 s. -/
def execSessionStationLost (s : State) : Meaning := .next <|
  if !mailboxLost s then s else ([0, 1, 2, 3] : List (Fin 5)).foldl (fun s i => let x := sessOf { sess := i, tag := 0 } s; if x.freight && x.st != .closed then closeSess i s else s) s

/-! ## Ends (R363, R374 to R376) -/

/-- COMMAND_INCOMPLETE (R363): 2 s after its last arriving block. -/
def execCommandIncomplete (r : CmdRef) (s : State) : Meaning := .next <| match slotOf r s with
  | some x => if x.received || !elapsed 2000 x.recvAt s then s else finish r .incomplete 0 [] s
  | none => s

/-- A partial image or stratum of an aborted transfer is discarded (R369). -/
def dropPartial (x : Slot) (s : State) : State :=
  let id : Long := BitVec.ofNat 64 (sliceNat 0 8 (slotData x))
  let keep (f : SegFile) : Bool := !(f.id == id && (f.segs.map fun g => g.2.length).sum < f.total)
  if x.code = 0x0401 then { s with arch := { s.arch with images := s.arch.images.filter keep } }
  else if x.code = 0x0501 then { s with arch := { s.arch with strata := s.arch.strata.filter keep } } else s

/-- Cancels a command's lower layer and rolls its side effects back (R369, R375). -/
def cancelLower (r : CmdRef) (x : Slot) (s : State) : State :=
  let s : State := { s with ps := { s.ps with qStew := s.ps.qStew.filter fun q => match q.use with | .cmd c => c != r | _ => true } }
  let s := modRing (fun g => { g with items := g.items.map fun i => if i.use = .host r then { i with withdrawn := true } else i }) s
  let s := if x.code.toNat = 0x0401 || x.code.toNat = 0x0501 then dropPartial x s else s
  let s : State := { s with solvers := s.solvers.map fun v => if v.disablePend = some r then { v with disablePend := none } else v }
  let s := if s.update.cmd = some r then { s with update := { s.update with stopAt := true, cmd := none } } else s
  allDoms.foldl (fun (s : State) (d : DomId) =>
    let c : Change := s.doms[d].change
    if c.cmd ≠ some r then s
    else match c.dim with
      | .pending => setChg d .none (modDom d (fun y => { y with change := { Change.reset with confirmed := y.change.confirmed } }) s)
      | _ => modDom d (fun y => { y with change := { y.change with cmd := none, wantConfirm := false, wantRevert := false } }) s) s

/-- A request that has been passed to the Mode Arbiter is the command's completion (R369). -/
def passed (x : Slot) : Bool := x.started && (x.wait == .mode || x.wait == .voter || x.wait == .hsb)

/-- ABORT (R376). -/
def execAbortCmd (r : CmdRef) (s : State) : Meaning := .next <| match takeOnce r 4 s with
  | none => s
  | some (x, s) =>
    let d : Dg := { session := 0, sseq := 0, code := 4, tag := r.tag, length := 4, timeout := 0, flags := 0, offset := 0, blen := 4, data := x.data }
    if x.data.length ≠ 4 then answerDg r.sess x.car d .badParam 0 s
    else if sliceNat 2 2 x.data ≠ 0 then answerDg r.sess x.car d .badParam 2 s
    else
      let t : CmdRef := { sess := r.sess, tag := BitVec.ofNat 16 (sliceNat 0 2 x.data) }
      match slotOf t s with
      | some y => if passed y then answerDg r.sess x.car d .notPending 0 s else answerDg r.sess x.car d .ok 0 (finish t .aborted 0 [] (cancelLower t y s))
      | none => answerDg r.sess x.car d .notPending 0 s

/-- COMMAND_TIMEOUT (R374, R375). -/
def execCommandTimeout (r : CmdRef) (s : State) : Meaning := .next <| match slotOf r s with
  | some x => if x.received && x.timeout ≠ 0 && elapsed x.timeout x.recvAt s then finish r .timeout 0 [] (cancelLower r x s) else s
  | none => s

/-- COMMAND_COMPLETE (R374): an outcome from below; one for a command that has ended is dropped and counted. -/
def execCommandComplete (r : CmdRef) (o : LowerOutcome) (s : State) : Meaning := .next <| match slotOf r s with
  | none => countMbx .late s
  | some x =>
    if !x.started then s
    else match o with
      | .success d => finish r .ok 0 d s
      | .link => finish r .link 0 [] s
      | .medium => finish r .medium 0 [] s
      | .stationErr c => finish r .stationErr c.toNat [] s
      | .cancelledDisable => finish r .cancelledDisable 0 [] s

/-! ## Running a command -/

/-- Runs a received command once: the code's own work gets its data. A service-only start refuses most codes (R469). -/
def runCmd (r : CmdRef) (code : Nat) (f : List Byte → State → State) (s : State) : State := match slotOf r s with
  | none => s
  | some x =>
    if !x.received || x.started || x.code.toNat ≠ code then s
    else if serviceOnly s && !serviceAllowed code then finishRefused r 0 "SERVICE_ONLY" s
    else f (slotData x) (modSlot r (fun y => { y with started := true }) s)

/-- A command goes on waiting below. -/
def waitFor (r : CmdRef) (w : Wait) (s : State) : State := modSlot r (fun y => { y with wait := w }) s

/-- A command that found a register BUSY has not started (R372). -/
def notStarted (r : CmdRef) (s : State) : State := modSlot r (fun y => { y with started := false, wait := .none }) s

/-- The rights of a command's session; a forwarded one has been checked (R366). -/
def rightsOf (r : CmdRef) (s : State) : BitVec 5 := if r.sess = 4 then 0x1F else (sessOf r s).rights

/-- The data breaks the code's format (R365). -/
def badParam (r : CmdRef) (off : Nat) (s : State) : State := finish r .badParam off [] s

end Sys2Proof.Machine
end

