-- ==== Sys2Proof/Machine/Change.lean ====
section
/-! DEFINITION. Images: placing and loading them, the load checks, key images, and online change with migration, swap, confirm and revert
(R45, R66, R379 to R393, R500, R501, R528). -/

namespace Sys2Proof.Machine

/-! ## Placing an image in a bank (R311, R312, R379) -/

/-- The length of a code bank. -/
def bankLen (d : DomId) : Nat := if d.val < 4 then 8 * 2 ^ 20 else 3 * 2 ^ 20

/-- The image as it stands with bank A or, for `b`, bank B active: code moves by the bank's length, and data region and change area exchange
their places (log entry 40). The lock vector keeps its address (R388). -/
def placeImage (d : DomId) (b : Bool) (im : Image) : Image :=
  if !b then im
  else
    let r := im.areas
    let mv (o : Nat) : Nat := if r.dataBase ≤ o && o < r.dataBase + r.dataLen then o - r.dataBase + r.changeBase else o
    let cv (o : Nat) : Nat := if o < bankLen d then o + bankLen d else mv o
    { im with areas := { r with pimg := mv r.pimg, iBase := mv r.iBase, qBase := mv r.qBase, mBase := mv r.mBase, edgeBase := mv r.edgeBase
                                dataBase := r.changeBase, changeBase := r.dataBase }
              tasks := im.tasks.map fun t => { t with privBase := mv t.privBase }
              timers := im.timers.map mv
              retainTimers := im.retainTimers.map mv
              counters := im.counters.map mv
              init := im.init.map fun x => (mv x.1, x.2)
              segs := im.segs.map fun x => (cv x.1, x.2)
              claims := im.claims.map fun c => { c with addr := cv c.addr }
              recipe := im.recipe.map fun p => { p with copyA := mv p.copyA, copyB := mv p.copyB } }

/-- The memories into which a domain's images go: standard SRAM, or the SRAM of every lane that is supplied. -/
def loadCodes (d : DomId) (s : State) : List Nat :=
  if d.val < 4 then [0] else (allLanes.filter fun l => pdOn (lanePd l) s).map laneMem

/-- The first byte of a domain's code region in its bank (R379). -/
def regionAt (d : DomId) (s : State) : Nat :=
  let before := allDoms.filter fun e => decide (e.val < d.val) && (decide (e.val < 4) == decide (d.val < 4))
  (before.map fun e => s.doms[e].region * 65536).sum

/-- A protection region from `a`, `n` bytes long, with its attributes. -/
def regionSet (i : Fin 8) (a n attr : Nat) (p : Prot) : Prot :=
  let attr := if n = 0 then 0 else attr
  { p with base := p.base.set i (BitVec.ofNat 32 (a / 64 * 64)), lim := p.lim.set i (BitVec.ofNat 32 ((a + n - 1) / 64 * 64))
           attr := (p.attr &&& ~~~(15#32 <<< (4 * i.val))) ||| (BitVec.ofNat 32 attr <<< (4 * i.val)) }

/-- The runtime maps the domain's regions and its process image (R85, R309, R311, R379, R393): 0 the active code region as CODE, 1 the inactive region
as K, 2 the edge memory as EDGE, 3 and 4 the recipe copies as CODE, 5 and 6 a pair's network images as CODE, which U cannot write (log entry 41). -/
def mapRegions (d : DomId) (im : Image) (s : State) : State :=
  let top := if d.val < 4 then 0 else 0x02000000
  let n := s.doms[d].region * 65536
  let at_ (b : Bool) : Nat := top + regionAt d s + (if b then bankLen d else 0)
  let b := s.doms[d].bankB
  let r := im.areas
  let rec_ := im.recipe.map fun x => (top + x.copyA, top + x.copyB, x.data.length)
  let net (j : Nat) : Nat × Nat := ((if d.val < 4 then im.claims[j]? else none).map fun c => (c.addr, netLen (readHdr 0 c.addr s))).getD (0, 0)
  (domCores d).foldl (fun s c => modCore c (fun k => { k with prot :=
    let p := regionSet 2 (top + r.edgeBase) (r.iLen + r.qLen + r.mLen) 9 (regionSet 1 (at_ !b) n 3 (regionSet 0 (at_ b) n 5 k.prot))
    let p := match rec_ with | some x => regionSet 4 x.2.1 x.2.2 5 (regionSet 3 x.1 x.2.2 5 p) | none => p
    let p := regionSet 6 (net 1).1 (net 1).2 5 (regionSet 5 (net 0).1 (net 0).2 5 p)
    { p with pimg := BitVec.ofNat 32 ((top + r.pimg) / 64 * 64) } }) s) s

/-- Row `r` of the conflict matrix as bytes (R123). -/
def matrixRow (x : IxlDecl) (r : Nat) : List Byte :=
  let cols := (x.conflicts.filter fun c => c.1 == r).map Prod.snd
  (List.range 512).map fun j => BitVec.ofNat 8 (((List.range 8).map fun b => bitOf (cols.contains (8 * j + b)) * 2 ^ b).sum)

/-- The staging region of the external store (R308): where the Steward places byte `o` of a lane image (log entry 82). -/
def stagingAt (o : Nat) : Nat := 0x3F0000000 + o

/-- A group's image goes to the staging region first, and the runtime on each lane copies it from there (R23). -/
def stageImage (im : Image) (s : State) : State := im.segs.foldl (fun s g => store none 6 (stagingAt (g.1 % 2 ^ 25)) g.2 s) s

/-- Writes an image's code and network images into the memories of its domain: a lane's from the staging region (R23). -/
def writeCode (d : DomId) (im : Image) (s : State) : State :=
  if d.val < 4 then im.segs.foldl (fun s g => store none 0 (g.1 % 2 ^ 25) g.2 s) s
  else (loadCodes d s).foldl (fun s c => im.segs.foldl (fun s g =>
    store none c (g.1 % 2 ^ 25) (readBytes 6 (stagingAt (g.1 % 2 ^ 25)) g.2.length s) s) s) (stageImage im s)

/-- The CRC-32C of an image as one lane reads it back. -/
def laneImageCrc (im : Image) (c : Nat) (s : State) : Word := crc32c (im.segs.flatMap fun g => readBytes c (g.1 % 2 ^ 25) g.2.length s)

/-- The lanes' image CRCs pass their vote (R23): those of all supplied lanes agree. -/
def imageVote (d : DomId) (im : Image) (s : State) : Bool :=
  let crcs := (loadCodes d s).map fun c => laneImageCrc im c s
  crcs.all fun c => some c == crcs.head?

/-- VOT_CFGn from the voter block of the group's image, once the CRCs have passed their vote; its reserved bits stay 0 (R118). -/
def voterLoad (d : DomId) (im : Image) (s : State) : State := match domGroup d with
  | none => s
  | some g => if imageVote d im s then modGroup g (fun v => { v with cfg := im.voterCfg &&& 0x80FFFFFF }) s else s

/-- Writes the conflict matrix of an interlocking image (R312). -/
def writeMatrix (d : DomId) (im : Image) (s : State) : State := match im.ixl with
  | none => s
  | some x => (loadCodes d s).foldl (fun s c => (List.range x.routes.length).foldl (fun s r => store none c (0x600000 + 512 * r) (matrixRow x r) s) s) s

/-! ## Logic Solver queues of an image (R17, R68, R74, R85) -/

/-- The queues that an image of the domain loads, each with its claim. -/
def claimQueues (d : DomId) (im : Image) : List (Fin 5 × Fin 2 × Claim) := im.claims.flatMap fun c => match domGroup d with
  | some g => allLanes.map fun l => (Fin.ofNat 5 l.val, g, c)
  | none => [(c.inst, 0, c)]

/-- Every queue that the domain holds is unloaded and its claims are given up. -/
def unloadQueues (d : DomId) (s : State) : State := (domQueues d s).foldl (fun s x =>
  modSolver x.1 (fun v => { v with claim := if d.val < 4 then none else v.claim
                                   q := v.q.set x.2 { v.q[x.2] with img := none, run := none, queued := none, unloadDue := false } }) s) s

/-- One LOAD; an instance without power answers DOM_OFF, and a lane that is off has no solver to load. -/
def loadQueue (d : DomId) (x : Fin 5 × Fin 2 × Claim) (s : State) : Option String × State :=
  if (lsLane x.1).isSome && !pdOn (lsPd x.1) s then (none, s)
  else if !pdOn (lsPd x.1) s then (some "LS_BAD_IMAGE", s)
  else
    let s := modSolver x.1 (fun v => { v with claim := (domPair d).or v.claim
                                              q := v.q.set x.2.1 { v.q[x.2.1] with imgAddr := BitVec.ofNat 32 x.2.2.addr } }) s
    match lsLoadRefusal x.1 x.2.1 x.2.2.addr (lsPimg x.1 x.2.1 s) (s.doms[d].image.map (·.areas)) s with
    | some e => (some e, lsReadImage x.1 x.2.2.addr (s.doms[d].image.map (·.areas)) s)
    | none => (none, modQueue x.1 x.2.1 (fun q => { q with img := some (readHdr (lsMem x.1) x.2.2.addr s) }) (lsReadImage x.1 x.2.2.addr (s.doms[d].image.map (·.areas)) s))

/-- Every LOAD of an image, and the refusal of R528 that comes first, if any. -/
def loadQueues (d : DomId) (im : Image) (s : State) : Option String × State :=
  (claimQueues d im).foldl (fun acc x => match acc.1 with | some _ => acc | none => loadQueue d x acc.2) (none, s)

/-! ## Load checks (R528) -/

/-- Two ranges (offset, length) meet. -/
def rangesMeet (a b : Nat × Nat) : Bool := a.1 < b.1 + b.2 && b.1 < a.1 + a.2

/-- Some two elements of a list at different places stand in relation `f`. -/
def anyTwo {α : Type} (f : α → α → Bool) : List α → Bool
  | [] => false
  | x :: xs => xs.any (f x) || anyTwo f xs

/-- TIMER_RANGE (R141): a duration outside its range; times in microseconds. -/
def timerRange (x : IxlDecl) : Bool :=
  let s := 1000000
  let out (lo hi t : Nat) : Bool := t < lo * s || hi * s < t
  (x.routes.any fun r => out 10 600 r.approachUs || out 30 600 r.emergencyUs) || (x.overlaps.any fun o => out 10 600 o.releaseUs) ||
    (x.points.any fun p => out 1 60 p.moveUs) || 600 * s < x.holdUs

/-- IXL_CAPACITY (R120). -/
def ixlOver (x : IxlDecl) (conns : Nat) : Bool :=
  4096 < x.routes.length || 2048 < x.points.length || 4096 < x.signals.length || 8192 < x.sections.length || 1024 < x.overlaps.length ||
    4096 < x.flanks.length || 1024 < conns ||
    x.routes.any fun r =>
      let o := r.overlap.bind fun i => x.overlaps[i]?
      let f := r.flank.bind fun i => x.flanks[i]?
      64 < r.sections.length + ((o.map fun y => y.sections.length).getD 0) ||
        64 < r.points.length + ((o.map fun y => y.points.length).getD 0) + ((f.map fun y => y.points.length).getD 0)

/-- RMU_ASYM (R123): a conflict without its mirror image; the diagonal is ignored. -/
def asymmetric (x : IxlDecl) : Bool := x.conflicts.any fun c => c.1 != c.2 && !x.conflicts.contains (c.2, c.1)

/-- IXL_LVEC_BAD (R124): alignment, the image's state vector (its data region, R97), LB8 to LB15. -/
def lvecBad (x : IxlDecl) (r : Areas) : Bool :=
  let a := x.lvec % 2 ^ 24
  a % 512 != 0 || a < r.dataBase || r.dataBase + r.dataLen < a + 512 || a < 8 * 2 ^ 20

/-- A key of the key area has been loaded (R501): some byte of it is not 0 (log entry 42). -/
def keyLoaded (k : Nat) (s : State) : Bool := match loadCodes 4 s with
  | [] => false
  | c :: _ => (readBytes c (keyAt k) 32 s).any (· != 0)

/-- Another pair's loaded image holds instance `i` (R17): its claim, that of the image with which its change waits for the swap, or that of the program
to which it may still revert. -/
def claimedElse (d : DomId) (i : Fin 5) (s : State) : Bool :=
  s.solvers[i].claim.any (fun n => some n != domPair d) ||
    allPairs.any fun n => pairDom n != d &&
      ([s.doms[pairDom n].change.image, s.doms[pairDom n].change.confirmed].any fun im => im.any fun x => x.claims.any fun c => c.inst == i)

/-- Other loaded images that a check of domain `d` looks at. -/
def otherImages (d : DomId) (s : State) : List (DomId × Image) :=
  allDoms.filterMap fun e => if e = d then none else s.doms[e].image.map fun im => (e, im)

/-- Checks 1 to 19 of R528, those that need no Logic Solver, for an image as delivered. An entry outside the ranges of R143 is refused with that rule's
name (DESIGN CHOICE; log entry 82). -/
def loadRefusal (d : DomId) (im : Image) (s : State) : Option String :=
  let group := decide (4 ≤ d.val)
  let ts := im.tasks
  let others := otherImages d s
  if group && im.safety && !im.proofs then some "NO_PROOF"
  else if 16 < ts.length then some "TASK_LIMIT"
  else if ts.any fun t => 15 < t.prio then some "TASK_PRIO_RANGE"
  else if anyTwo (fun a b => a.prio == b.prio) ts then some "TASK_PRIO_DUP"
  else if group && ts.any (·.isBg) then some "BG_IN_TRIPLEX"
  else if im.bgWritesQ then some "BG_WRITES_Q"
  else if anyTwo (fun a b => a.1 != b.1 && rangesMeet a.2 b.2) im.qOwner then some "Q_OWNER_DUP"
  else if !group && others.any fun o => decide (o.1.val < 4) && o.2.coachOut.any fun x => im.coachOut.any fun y => x.1 == y.1 then some "COACH_OWNER_DUP"
  else if anyTwo (fun a b => a.1 != b.1 && a.2 == b.2) im.edges then some "EDGE_SHARED"
  else if im.ixl.any timerRange then some "TIMER_RANGE"
  else if im.ixl.any fun x => ixlOver x im.conns.length then some "IXL_CAPACITY"
  else if im.interlocking && others.any fun o => o.2.interlocking then some "RMU_CLAIMED"
  else if im.ixl.any asymmetric then some "RMU_ASYM"
  else if im.ixl.any fun x => lvecBad x im.areas then some "IXL_LVEC_BAD"
  else if !im.connTable.all connEntryOk || anyTwo (fun (a b : ConnDecl) => a.connId == b.connId) im.conns then some "CONN_DUP"
  else if group && im.conns.any fun c => c.auth && !keyLoaded c.key s then some "NO_KEYS"
  else if im.wdg.any fun w => wdgDiffers w s then some "WDG_LOCKED"
  else if (im.claims.any fun c => 1 < c.tasks.length) || anyTwo (fun (a b : Claim) => group || a.inst == b.inst) im.claims then some "LS_TASK_DUP"
  else if !group && im.claims.any fun c => claimedElse d c.inst s then some "LS_CLAIMED"
  else none

/-- A load of image `raw`, placed as `im`, up to its LOADs, and the first refusal of R528. -/
def loadTrial (d : DomId) (raw im : Image) (s : State) : Option String × State := match loadRefusal d raw s with
  | some e => (some e, s)
  | none =>
    let s := writeCode d im (modDom d (fun x => { x with image := some im }) (unloadQueues d s))
    loadQueues d im (mapRegions d im s)

/-- What a trial leaves behind when the image does not take effect (R528): queues and claims, regions and program as in `s`; what its reads and writes
did to the memories and their error registers stays. -/
def loadUndone (d : DomId) (s t : State) : State :=
  (domCores d).foldl (fun t c => modCore c (fun k => { k with prot := s.cores[c].prot }) t)
    (modDom d (fun x => { x with image := s.doms[d].image, bankB := s.doms[d].bankB }) { t with solvers := s.solvers })

/-- The number under which the log keeps a refusal's name: its text as bytes. -/
def nameCode (e : String) : Nat := leNat (Config.textOf e)

/-! ## A plain load (R338 to R341, R380, R401, R412) -/

/-- The channel configuration of an image (R338 to R340): a group's through the Output Guard, which first clears the old image's safety
classes, a pair's by its runtime. -/
def loadChannels (d : DomId) (old : Option Image) (im : Image) (s : State) : State :=
  let m : Master := match domPair d with | some n => .sp n | none => .outputGuard
  let drop := if cfgLocked s then [] else match domGroup d, old with | some _, some o => o.chans | _, _ => []
  let s := drop.foldl (fun s c => if cfgSafety c.2.2 then modCh c.1 c.2.1 (fun y => { y with cfg := 0 }) s else s) s
  let s := im.pcfg.foldl (fun s p => if s.fg[p.1].pcfg == p.2 then s else fgPcfgWriteOp m p.1 p.2 s) s
  im.chans.foldl (fun s c => if s.fg[c.1].ch[c.2.1].cfg == c.2.2 then s else fgChWriteOp m c.1 c.2.1 c.2.2 s) s

/-- PD_SOLV goes on before an image that claims LSS0 or LSS1 is loaded (R68). -/
def solvReady (d : DomId) (im : Image) (s : State) : State := if d.val < 4 && !im.claims.isEmpty then setPd .solv true s else s
/-- PD_SOLV goes off once the last claim has been unloaded (R68). -/
def solvPower (s : State) : State := if s.solvers[3].claim.isSome || s.solvers[4].claim.isSome then s else solvDown s

/-- What a load leaves besides memory, image and queues. -/
def loadSettings (d : DomId) (old : Option Image) (im : Image) (s : State) : State :=
  let s := cimLoad d im (im.wdg.foldl (fun s w => wdgLoad w s) (loadChannels d old im s))
  if d.val < 4 then s
  else
    let s := voterLoad d im (writeMatrix d im s)
    if im.interlocking || old.any (·.interlocking) then { s with ixl := .replicate 3 .reset } else s

/-- In RUN a pair that is loaded while its run state is STOP sends the fail values of its image, with PSTOP (R159). -/
def stopOutputs (d : DomId) (im : Image) (s : State) : State :=
  if d.val < 4 && !s.doms[d].run then
    modDom d (fun x => { x with published := im.fail.map fun v => v.getD 0, commit := im.fail.map fun v => v.getD 0, pstop := true }) s
  else s

/-- A plain load of an image as delivered (R380): the refusal, or the state with the image in the inactive region and the selector changed. -/
def plainLoad (d : DomId) (raw : Image) (s : State) : Option String × State :=
  let old := s.doms[d].image
  let b := !s.doms[d].bankB
  let im := placeImage d b raw
  let z := loadTrial d raw im (modDom d (fun x => { x with bankB := b }) (solvReady d im s))
  match z.1 with
  | some e => (some e, addLog .refusedLoad d.val (nameCode e) (solvPower (loadUndone d s z.2)))
  | none =>
    let s := modDom d (fun x => { x with image := some im, change := .reset }) z.2
    let s := if s.arb.oper == .run || inSafe s then stopOutputs d im s else s
    let s := solvPower (loadSettings d old im s)
    (none, { s with arch := { s.arch with progs := s.arch.progs.set d (some raw) } })

/-! ## Migration tables (R382, R383) -/

/-- An entry of a migration table. -/
structure MigEntry where
  src : Nat
  dst : Nat
  count : Nat
  kind : Nat
  sw : Nat
  dw : Nat
  flags : Nat
  deriving DecidableEq, Repr

/-- The entries of a table. -/
def migEntries (t : List Byte) : List MigEntry := (List.range (sliceNat 6 2 t)).map fun i =>
  let o := 32 + 16 * i
  { src := sliceNat o 4 t, dst := sliceNat (o + 4) 4 t, count := sliceNat (o + 8) 4 t, kind := sliceNat (o + 12) 1 t, sw := sliceNat (o + 13) 1 t
    dw := sliceNat (o + 14) 1 t, flags := sliceNat (o + 15) 1 t }

/-- An element size. -/
def migSize (n : Nat) : Bool := n == 1 || n == 2 || n == 4 || n == 8
/-- A kind with a source. -/
def MigEntry.hasSrc (e : MigEntry) : Bool := e.kind != 1 && e.kind != 8
/-- The sizes that a kind allows (R383). -/
def MigEntry.sizesOk (e : MigEntry) : Bool := migSize e.sw && migSize e.dw && match e.kind with
  | 0 => e.sw == e.dw | 1 => true | 2 => e.sw < e.dw | 3 => e.sw < e.dw | 4 => e.dw < e.sw | 5 => e.dw < e.sw
  | 6 => e.sw == 2 && e.dw == 4 | 7 => e.sw == 4 && e.dw == 2 | 8 => true | _ => false

/-- The length of the region that sources lie in: the data region and, for a pair, its retain area (R382). -/
def oldSpan (d : DomId) (im : Image) : Nat := im.areas.dataLen + (if d.val < 4 then im.areas.retainLen else 0)

/-- A table that R382 and R383 allow. -/
def migOk (d : DomId) (old new : Image) (t : List Byte) : Bool :=
  let es := migEntries t
  sliceNat 0 4 t == 0x4754494D && sliceNat 4 2 t == 1 && 1 ≤ es.length && t.length == 32 + 16 * es.length && sliceNat 28 4 t == 0 &&
    sliceNat 16 8 t == new.layoutId.toNat && sliceNat 24 4 t == (crc32c (t.take 24 ++ [0, 0, 0, 0] ++ t.drop 28)).toNat &&
    es.all (fun e => e.kind ≤ 8 && e.sizesOk && e.flags < 4 && (e.hasSrc || e.src == 0) && (!e.hasSrc || e.src + e.count * e.sw ≤ oldSpan d old) &&
      e.dst + e.count * e.dw ≤ old.areas.changeLen) &&
    !anyTwo (fun a b => rangesMeet (a.dst, a.count * a.dw) (b.dst, b.count * b.dw)) es

/-- The image carries a table from the running layout. -/
def migCarried (old new : Image) : Bool := 32 ≤ new.migration.length && sliceNat 8 8 new.migration == old.layoutId.toNat

/-- The table in force: the image's, or one COPY of the whole data region where the layouts are the same (log entry 43). -/
def migTable (old new : Image) : List MigEntry :=
  if migCarried old new then migEntries new.migration
  else [{ src := 0, dst := 0, count := new.areas.dataLen, kind := 0, sw := 1, dw := 1, flags := 0 }]

/-- A number of `w` bytes as signed. -/
def signedOf (w v : Nat) : Int := if v < 2 ^ (8 * w - 1) then v else (v : Int) - 2 ^ (8 * w)
/-- A signed number in `w` bytes. -/
def ofSigned (w : Nat) (i : Int) : Nat := (i % 2 ^ (8 * w)).toNat
/-- A number clamped to a range. -/
def clampInt (lo hi i : Int) : Int := if i < lo then lo else if hi < i then hi else i

/-- Q31 to Q15 with RNE rounding and saturation (R255, R256, R383). -/
def q31ToQ15 (v : Nat) : Nat :=
  let i := signedOf 4 v
  let q := i / 65536
  let r := i % 65536
  ofSigned 2 (clampInt (-32768) 32767 (if r > 32768 || (r = 32768 && q % 2 = 1) then q + 1 else q))

/-- One element through a kind (R383). -/
def migConv (kind sw dw v : Nat) : Nat := match kind with
  | 2 => ofSigned dw (signedOf sw v)
  | 4 => ofSigned dw (clampInt (-(2 : Int) ^ (8 * dw - 1)) ((2 : Int) ^ (8 * dw - 1) - 1) (signedOf sw v))
  | 5 => min v (2 ^ (8 * dw) - 1)
  | 6 => v * 65536
  | 7 => q31ToQ15 v
  | _ => v

/-- The kind that undoes a kind (R383). -/
def migReverse (kind : Nat) : Option Nat := match kind with
  | 0 => some 0 | 2 => some 4 | 3 => some 5 | 4 => some 2 | 5 => some 3 | 6 => some 7 | 7 => some 6 | _ => none

/-- Where offset `o` of the old region stands: the data region, or the retain area behind it. -/
def oldPlace (d : DomId) (code : Nat) (old : Image) (o : Nat) : Nat × Nat :=
  if o < old.areas.dataLen || 4 ≤ d.val then (code, old.areas.dataBase + o)
  else (5, retainAt (Fin.ofNat 4 d.val) + (o - old.areas.dataLen))

/-- The companion of an edge-memory byte: the byte of %I, %Q or %M that it belongs to (R264). -/
def companionOf (r : Areas) (o : Nat) : Option Nat :=
  if o < r.edgeBase then none
  else
    let j := o - r.edgeBase
    if j < r.iLen then some (r.iBase + j) else if j < r.iLen + r.qLen then some (r.qBase + (j - r.iLen))
    else if j < r.iLen + r.qLen + r.mLen then some (r.mBase + (j - r.iLen - r.qLen)) else none

/-- Applies an entry forward in one memory. -/
def migForward (d : DomId) (old new : Image) (code : Nat) (e : MigEntry) (s : State) : State :=
  let base := new.areas.dataBase + e.dst
  match e.kind with
  | 1 => (List.range (e.count * e.dw)).foldl (fun s i => store none code (base + i) [((new.init.find? fun x => x.1 == base + i).map Prod.snd).getD 0] s) s
  | 8 => (List.range (e.count * e.dw)).foldl (fun s i => match companionOf new.areas (base + i) with
      | some o => store none code (base + i) [readByte code o s] s
      | none => s) s
  | k => (List.range e.count).foldl (fun s i =>
      let v := leNat ((List.range e.sw).map fun j => let p := oldPlace d code old (e.src + i * e.sw + j); readByte p.1 p.2 s)
      store none code (base + i * e.dw) (leBytes e.dw (migConv k e.sw e.dw v)) s) s

/-- Applies an entry in reverse in one memory. -/
def migBack (d : DomId) (old new : Image) (code : Nat) (e : MigEntry) (s : State) : State :=
  match if e.flags.testBit 1 then none else migReverse e.kind with
  | none => s
  | some k => (List.range e.count).foldl (fun s i =>
      let v := readNat code (new.areas.dataBase + e.dst + i * e.dw) e.dw s
      (enum (leBytes e.sw (migConv k e.dw e.sw v))).foldl (fun s b =>
        let p := oldPlace d code old (e.src + i * e.sw + b.1)
        store none p.1 p.2 [b.2] s) s) s

/-- An entry's source covers a marked line (R384). EDGE_INIT counts as always marked, so that no edge appears (log entry 44). -/
def markedForward (d : DomId) (old : Image) (marks : List Nat) (e : MigEntry) : Bool :=
  if e.kind = 8 then true
  else if !e.hasSrc || e.count = 0 then false
  else
    let n := e.count * e.sw
    let r := old.areas
    let at_ := retainAt (Fin.ofNat 4 d.val)
    marks.any fun m =>
      if m < 2 ^ 30 then rangesMeet (64 * m, 64) (r.dataBase + e.src, min n (r.dataLen - e.src))
      else decide (r.dataLen < e.src + n) && rangesMeet (64 * (m - 2 ^ 30), 64) (at_ + (e.src - r.dataLen), e.src + n - max e.src r.dataLen)

/-- An entry's destination, the source of its reverse, covers a marked line of the live region (R389). -/
def markedBack (new : Image) (marks : List Nat) (e : MigEntry) : Bool :=
  !e.flags.testBit 1 && (migReverse e.kind).isSome && marks.any fun m => m < 2 ^ 30 && rangesMeet (64 * m, 64) (new.areas.dataBase + e.dst, e.count * e.dw)

/-- What entries cost, in clocks (R383). -/
def migCost (es : List MigEntry) : Nat := (es.map fun e => 4 + (if e.kind = 0 then (e.count * e.sw + 15) / 16 else e.count)).sum

/-- Applies entries in every memory of the domain. -/
def migRun (f : Nat → MigEntry → State → State) (d : DomId) (es : List MigEntry) (s : State) : State :=
  (domCodes d s).foldl (fun s c => es.foldl (fun s e => f c e s) s) s

/-! ## Recipes (R393) -/

/-- A pointer word names the copy that the program reads; the address of a copy as the program sees it. -/
def copyAddr (d : DomId) (o : Nat) : Nat := if d.val < 4 then o else 0x02000000 + o

/-- A recipe for the running program: the data of the recipe image in the copies that the program declares. -/
def recipeFor (old raw : Image) : Option Recipe := match old.recipe, raw.recipe with
  | some a, some b => some { a with data := b.data }
  | none, r => r
  | some _, none => none

/-- The inactive copy of a recipe area, and the active one. -/
def recipeCopies (d : DomId) (im : Image) (p : Recipe) (s : State) : Nat × Nat :=
  if leNat (domRead d (im.areas.mBase + p.ptrOff) 4 s) = copyAddr d p.copyA then (p.copyB, p.copyA) else (p.copyA, p.copyB)

/-- Writes recipe data into the inactive copy. -/
def recipeWrite (d : DomId) (im : Image) (p : Recipe) (s : State) : State := domWrite d (recipeCopies d im p s).1 p.data s

/-- Rewrites the pointer word: to the other copy. -/
def recipeTurn (d : DomId) (im : Image) (p : Recipe) (s : State) : State :=
  domWrite d (im.areas.mBase + p.ptrOff) (leBytes 4 (copyAddr d (recipeCopies d im p s).1)) s

/-! ## Admission (R381) -/

/-- The data layout differs. -/
def layoutDiffers (old new : Image) : Bool := old.layoutId != new.layoutId

/-- The rows of R381 after UPDATE_ACTIVE for a domain in RUN. -/
def changeRefusal (d : DomId) (old new : Image) (recipe : Bool) (s : State) : Option String :=
  let g := domGroup d
  if g.isSome && s.hsb.role != .standby then some "TRIPLEX_NOT_STANDBY"
  else if g.any fun g => groupMode s.voter.grp[g] != 2 then some "GROUP_NOT_TRIPLEX"
  else if g.isSome && s.voter.reint.phase != 0 then some "SWAP_REINT"
  else if proofStale new s then some "TIMING_UNPROVEN"
  else if s.ring.layout.any fun l => l.confId != new.confId then some "LAYOUT_CHANGE"
  else if recipe then none
  else if old.chans != new.chans || old.pcfg != new.pcfg then some "FIO_CFG_CHANGE"
  else if new.interlocking && ((old.ixl.map fun x => (x.routes.length, x.conflicts)) != (new.ixl.map fun x => (x.routes.length, x.conflicts))) then some "RMU_CHANGE"
  else if s.doms[d].region * 65536 < new.codeLen || old.areas.changeLen < new.areas.dataLen then some "REGION_SIZE"
  else if layoutDiffers old new && !migCarried old new then some "MIG_MISSING"
  else if migCarried old new && !migOk d old new new.migration then some "MIG_BAD"
  else none

/-- The rows of R381 that a plain load meets after UPDATE_ACTIVE (R6, R380): the timing proof, the ring layout and the code region. -/
def plainRefusal (d : DomId) (new : Image) (s : State) : Option String :=
  if proofStale new s then some "TIMING_UNPROVEN"
  else if s.ring.layout.any fun l => l.confId != new.confId then some "LAYOUT_CHANGE"
  else if s.doms[d].region * 65536 < new.codeLen then some "REGION_SIZE"
  else none

/-- A file is complete. -/
def fileWhole (f : SegFile) : Bool := (f.segs.map fun g => g.2.length).sum ≥ f.total
/-- Its bytes. -/
def fileBytes (f : SegFile) : List Byte :=
  (List.range f.total).map fun i => ((f.segs.find? fun g => g.1 ≤ i && i < g.1 + g.2.length).map fun g => g.2.getD (i - g.1) 0).getD 0
/-- A complete file by its identity. -/
def fileOf (id : Long) (fs : List SegFile) : Option (List Byte) := (fs.find? fun f => f.id == id && fileWhole f).map fileBytes

/-- The first rows of R381 for a known image. -/
def admission (d : DomId) (s : State) : Option String :=
  if s.doms[d].change.dim != .none then some "CHANGE_BUSY"
  else if inSafe s then some "IN_SAFE"
  else if s.update.target.isSome then some "UPDATE_ACTIVE" else none

/-- An image load ends refused; the log records the name (R528). -/
def loadRefused (r : CmdRef) (d : DomId) (e : String) (s : State) : State := finishRefused r 0 e (addLog .refusedLoad d.val (nameCode e) s)

/-- An online change is admitted (R380, R384): the code goes to the inactive region and is checked as LOAD would. -/
def changeBegin (r : CmdRef) (d : DomId) (old raw : Image) (recipe : Bool) (window : Nat) (s : State) : State :=
  let new := placeImage d (!s.doms[d].bankB) raw
  match changeRefusal d old new recipe s with
  | some e => loadRefused r d e s
  | none =>
    let z := if recipe then (none, s) else loadTrial d raw new (modDom d (fun x => { x with bankB := !x.bankB }) (solvReady d new s))
    match z.1 with
    | some e => loadRefused r d e (solvPower (loadUndone d s z.2))
    | none =>
      let s := if recipe then s else loadUndone d s z.2
      let s := modDom d (fun x => { x with change := { Change.reset with image := some raw, recipe := recipe, windowS := if window = 0 then 600 else window, cmd := some r } }) s
      waitFor r .load (setChg d .pending s)

/-! ## Key images (R500, R501) -/

/-- A file is a key image. -/
def isKeyImage (b : List Byte) : Bool := sliceNat 0 4 b == 0x5359454B
/-- CKEK as bytes, if it is usable: blown, and its check word right. -/
def ckekKey (s : State) : Option (List Byte) :=
  let ws := s.fuses.ckek.toList
  let body := (ws.take 8).flatMap fun w => leBytes 4 w.toNat
  if body.all (· == 0) || crc32c body != ws.getD 8 0 then none else some body

/-- The unmasked keys of a key image that R500 allows, with the index of the first. -/
def keysOf (ckek b : List Byte) : Option (Nat × List (List Byte)) :=
  let n := sliceNat 6 2 b
  let first := sliceNat 8 2 b
  let nonce := (b.drop 16).take 16
  if sliceNat 4 2 b ≠ 1 || n < 1 || 1024 < n || sliceNat 10 6 b ≠ 0 || b.length ≠ 64 + 32 * n || 1024 < first + n then none
  else if hmac ckek (b.take (32 + 32 * n)) != b.drop (32 + 32 * n) then none
  else some (first, (List.range n).map fun i => xorBytes ((b.drop (32 + 32 * i)).take 32) (hmac ckek (nonce ++ leBytes 2 (first + i))))

/-- Writes keys into the key area of every supplied lane. -/
def writeKeys (first : Nat) (ks : List (List Byte)) (s : State) : State :=
  (loadCodes 4 s).foldl (fun s c => (enum ks).foldl (fun s k => store none c (keyAt (first + k.1)) k.2 s) s) s

/-- The lanes' key areas agree: what the vote over their CRC-32C finds. -/
def keyVote (s : State) : Bool :=
  let crcs := (loadCodes 4 s).map fun c => crc32c (readBytes c 0xFFC000 0x4000 s ++ readBytes c 0xF70000 0x4000 s)
  crcs.all fun c => some c == crcs.head?

/-- Loads a key image for group `d`: the refusal, or the state with the keys loaded (R501). -/
def keyLoad (d : DomId) (b : List Byte) (s : State) : Option String × State := match ckekKey s with
  | none => (some "NO_CKEK", s)
  | some ck =>
    if s.doms[d].run then (some "KEYS_IN_RUN", s)
    else match keysOf ck b with
      | none => (some "KEY_IMAGE_BAD", s)
      | some x =>
        let t := writeKeys x.1 x.2 s
        if keyVote t then
          (none, { t with arch := { t.arch with keyImages := (t.arch.keyImages.filter fun k => k.1.val + 4 != d.val) ++ [(Fin.ofNat 2 (d.val - 4), b)] } })
        else (some "KEY_IMAGE_BAD", s)

/-! ## IMAGE_LOAD (R368, R380, R381) -/

/-- A recipe on a domain outside RUN: written and turned at once (R380, R393). -/
def recipeLoad (d : DomId) (im raw : Image) (s : State) : State := match recipeFor im raw with
  | none => s
  | some p => recipeTurn d im p (recipeWrite d im p s)

/-- What IMAGE_LOAD does with well-formed data; a key image is checked by R501 alone (R528). -/
def imageLoadOp (r : CmdRef) (id : Long) (d : DomId) (recipe : Bool) (window : Nat) (s : State) : State := match fileOf id s.arch.images with
  | none => loadRefused r d "IMAGE_UNKNOWN" s
  | some b =>
    if isKeyImage b then
      let z := if d.val < 4 then (some "KEY_IMAGE_BAD", s) else keyLoad d b s
      match z.1 with | some e => loadRefused r d e z.2 | none => finish r .ok 0 [] z.2
    else match admission d s with
      | some e => loadRefused r d e s
      | none =>
        let raw := Config.readImage b
        match s.doms[d].run, s.doms[d].image with
        | true, some old => changeBegin r d old raw recipe window s
        | _, old => match plainRefusal d raw s with
          | some e => loadRefused r d e s
          | none => match recipe, old with
            | true, some im => finish r .ok 0 [] (recipeLoad d im raw s)
            | true, none => loadRefused r d "IMAGE_UNKNOWN" s
            | false, _ =>
              let z := plainLoad d raw s
              match z.1 with | some e => finishRefused r 0 e z.2 | none => finish r .ok 0 [] z.2

/-- IMAGE_LOAD. -/
def execImageLoad (r : CmdRef) (s : State) : Meaning := .next <| runCmd r 0x0402 (fun x s =>
  if x.length ≠ 16 then badParam r 0 s
  else if 5 < sliceNat 8 1 x then badParam r 8 s
  else if 1 < sliceNat 9 1 x then badParam r 9 s
  else if sliceNat 10 2 x ≠ 0 then badParam r 10 s
  else if 86400 < sliceNat 12 4 x then badParam r 12 s
  else imageLoadOp r (BitVec.ofNat 64 (sliceNat 0 8 x)) (Fin.ofNat 6 (sliceNat 8 1 x)) (sliceNat 9 1 x == 1) (sliceNat 12 4 x) s) s

/-! ## Migration in idle time (R384, R389) -/

/-- The program of a pending change as it will stand, and the running one. -/
def changeImages (d : DomId) (s : State) : Option (Image × Image) := match s.doms[d].image, s.doms[d].change.image with
  | some old, some raw => some (old, placeImage d (!s.doms[d].bankB) raw)
  | _, _ => none

/-- Marks that have been dealt with. -/
def clearMarks (d : DomId) (s : State) : State := modDom d (fun x => { x with change := { x.change with marks := [] } }) s

/-- A migration step in idle time: the bulk pass, afterwards the entries whose lines are marked; after the swap their reverse. -/
def migrateStep (d : DomId) (s : State) : State :=
  let c := s.doms[d].change
  match c.dim with
  | .none => s
  | .pending => match changeImages d s with
    | none => s
    | some (old, new) =>
      if c.bulkDone then
        if c.recipe then s
        else clearMarks d (migRun (migForward d old new) d ((migTable old new).filter (markedForward d old c.marks)) s)
      else
        let s := modDom d (fun x => { x with change := { x.change with bulkDone := true, cycles := 0, marks := [] } }) s
        match c.recipe, recipeFor old new with
        | true, some p => recipeWrite d old p s
        | _, _ => migRun (migForward d old new) d (migTable old new) s
  | .swapped => match c.confirmed, s.doms[d].image with
    | some old, some new =>
      if c.recipe then s
      else clearMarks d (migRun (migBack d old new) d ((migTable old new).filter (markedBack new c.marks)) s)
    | _, _ => s

/-- MIGRATION_BULK_PASS: a step, after which an idle pair goes on with its background tasks (R49). -/
def execMigrationBulkPass (d : DomId) (s : State) : Meaning := .next <|
  let s := migrateStep d s
  match domPair d with
  | some n => if s.cores[pairCore n].task.isNone then schedule (pairCore n) s else s
  | none => s

/-! ## Swap, confirm, revert (R385 to R391) -/

/-- A task other than a background task is released and unfinished. -/
def anyUnfinished (d : DomId) (s : State) : Bool := match s.doms[d].image with
  | none => false
  | some im => (enum im.tasks).any fun x => !x.2.isBg && (s.doms[d].tasks.toList[x.1]?).any (·.active)

/-- A solver run of the domain is in flight: UNLOAD would wait for it (R85). -/
def solverBusy (d : DomId) (s : State) : Bool := (domQueues d s).any fun x => s.solvers[x.1].q[x.2].run.isSome || s.solvers[x.1].q[x.2].queued.isSome

/-- t_ls of R385 for an image's claims, in clocks. -/
def loadClocks (d : DomId) (im : Image) (s : State) : Nat :=
  ((claimQueues d im).map fun x => (netLen (readHdr (lsMem x.1) x.2.2.addr s) + 31) / 32).sum

/-- The boundary's instant: D_k for a pair, now for a group (R385). -/
def boundaryAt (d : DomId) (s : State) : Nat := if d.val < 4 then s.cyc.tk.toNat + deadlineTicks s else s.cyc.tb.toNat

/-- A change of `clocks` beyond the fixed 1 µs fits before T_{k+1} + 2.1 µs. -/
def changeFits (d : DomId) (clocks : Nat) (s : State) : Bool := boundaryAt d s + tickUs + clocks ≤ s.cyc.tk.toNat + periodTicks s + 2625

/-- A domain's cycle boundary (R385): a pair has published at D_k, a group's end-of-cycle vote point has passed. -/
def atBoundary (d : DomId) (s : State) : Bool := match domGroup d with
  | none => s.cyc.dl
  | some g => s.voter.grp[g].eocAt == some s.cyc.count

/-- The boundary's conditions that do not depend on the cost (R385). -/
def boundaryFree (d : DomId) (s : State) : Bool := s.doms[d].run && !anyUnfinished d s && !s.doms[d].rptSent && !solverBusy d s && atBoundary d s

/-- Connections after a change of image: those of the same CONN_ID keep their state (R388). -/
def connsCarry (g : Fin 2) (old new : Image) (s : State) : State :=
  { s with conns := s.conns.map fun v => v.set g (new.conns.map fun d =>
      ((old.conns.findIdx? fun o => o.connId == d.connId).bind fun i => v[g][i]?).getD (connReset s.boot.rec_.starts.toNat d)) }

/-- Interlocking tables after a change of image: objects by their numbers (R387, R388). -/
def ixlCarry (x : IxlDecl) (s : State) : State :=
  let fit {α : Type} (n : Nat) (a : α) (xs : List α) : List α := xs.take n ++ List.replicate (n - xs.length) a
  { s with ixl := s.ixl.map fun y => { y with
      points := fit x.points.length pointFresh y.points
      signals := fit x.signals.length signalFresh y.signals
      sections := fit x.sections.length .unknown y.sections
      prevSections := fit x.sections.length .unknown y.prevSections } }

/-- The runtime turns a domain to another program at a boundary (R68, R118, R386, R387): queues, selector, protection regions, image, voter block;
background tasks of the old image end, and no edge operand is taken anew. -/
def turnTo (d : DomId) (old new : Image) (s : State) : State :=
  let s := solvReady d new (unloadQueues d s)
  let s := modDom d (fun x => { x with image := some new, bankB := !x.bankB, tasks := x.tasks.map fun t => { t with open_ := 0, primed := true } }) s
  let s := solvPower (loadQueues d new (mapRegions d new s)).2
  let s := (domCores d).foldl (fun s c => modCore c (fun k => { k with task := none, saved := [], lsWait := none }) s) s
  let s := match domGroup d with
    | none => s
    | some g =>
      let s := voterLoad d new (connsCarry g old new s)
      match new.ixl with | some x => ixlCarry x s | none => s
  cimRestart d s

/-- HSB_CMP.SUSP of a group in a paired module (R231). -/
def suspend (d : DomId) (b : Bool) (s : State) : State := if 4 ≤ d.val && paired s then modHsb (fun h => { h with susp := setBit h.susp d.val b }) s else s

/-- The entries still marked at the swap. -/
def swapEntries (d : DomId) (old new : Image) (s : State) : List MigEntry := (migTable old new).filter (markedForward d old s.doms[d].change.marks)

/-- The swap's clocks beyond 1 µs. -/
def swapClocks (d : DomId) (old new : Image) (s : State) : Nat :=
  if s.doms[d].change.recipe then 0 else migCost (swapEntries d old new s) + loadClocks d new s

/-- The dimension becomes SWAPPED_UNCONFIRMED (R386 step 5); the record of a pair's retain area stays OPEN (R389). -/
def swapped (d : DomId) (confirmed : Image) (s : State) : State :=
  let cmd := s.doms[d].change.cmd
  let s := modDom d (fun x => { x with retain := x.retain.map fun r => { r with sealed := false }
                                       change := { x.change with confirmed := some confirmed, marks := [], cycles := 0, swapAt := s.cyc.tb, cmd := none, wantConfirm := false, wantRevert := false } }) s
  let s := addLog .swapped d.val 0 (suspend d true (setChg d .swapped s))
  match cmd with | some r => finish r .ok 0 [] s | none => s

/-- SWAP. -/
def execSwap (d : DomId) (s : State) : Meaning := .next <|
  let c := s.doms[d].change
  match changeImages d s with
  | none => s
  | some (old, new) =>
    if c.dim != .pending || !c.bulkDone || !boundaryFree d s || !changeFits d (swapClocks d old new s) s then s
    else if c.recipe then match recipeFor old new with
      | some p => swapped d old (recipeTurn d old p s)
      | none => s
    else swapped d old (turnTo d old new (migRun (migForward d old new) d (swapEntries d old new s) s))

/-- MIG_NOCONV (R385): no boundary has qualified within 1,024 cycles after the bulk pass. -/
def execMigNoconv (d : DomId) (s : State) : Meaning := .next <|
  let c := s.doms[d].change
  if c.dim != .pending || !c.bulkDone || c.cycles < 1024 then s
  else setChg d .none (finishRefusedOpt c.cmd "MIG_NOCONV" (modDom d (fun x => { x with change := .reset }) s))

/-- A command on an unconfirmed change: the first of CHANGE_CONFIRM, CHANGE_REVERT and the window's end takes effect (R392). -/
def changeCmd (r : CmdRef) (w : Wait) (f : Change → Change) (x : List Byte) (s : State) : State :=
  if x.length ≠ 1 then badParam r 0 s
  else if 5 < sliceNat 0 1 x then badParam r 0 s
  else
    let d : DomId := Fin.ofNat 6 (sliceNat 0 1 x)
    let c := s.doms[d].change
    if c.dim != .swapped || c.wantConfirm || c.wantRevert then finishRefused r 0 "NOT_UNCONFIRMED" s
    else waitFor r w (modDom d (fun y => { y with change := { f y.change with cmd := some r } }) s)

/-- CHANGE_CONFIRM. -/
def execChangeConfirm (r : CmdRef) (s : State) : Meaning := .next <| runCmd r 0x0403 (changeCmd r .confirm fun c => { c with wantConfirm := true }) s
/-- CHANGE_REVERT. -/
def execChangeRevert (r : CmdRef) (s : State) : Meaning := .next <|
  runCmd r 0x0404 (changeCmd r .revert fun c => { c with wantRevert := true, cycles := 0 }) s

/-- A pair's RETAIN destinations go to its retain area, in table order from its start (R390; log entry 45). -/
def retainCopy (d : DomId) (old new : Image) (s : State) : State := match domPair d with
  | none => s
  | some n =>
    let es := if layoutDiffers old new then (migTable old new).filter fun e => e.flags.testBit 0 else []
    (es.foldl (fun (acc : Nat × State) e =>
      let len := e.count * e.dw
      (acc.1 + len, store none 5 (retainAt n + acc.1) (readBytes 0 (new.areas.dataBase + e.dst) len acc.2) acc.2)) (0, s)).2

/-- CHANGE_CONFIRM_EFFECT (R390): at the domain's next cycle boundary. In the STANDBY that R231 step 2 left with its old program it is the confirmation
in the partner: the unit becomes SYNCING and resynchronises (R231; log entry 67). -/
def execChangeConfirmEffect (d : DomId) (s : State) : Meaning := .next <|
  let c := s.doms[d].change
  if c.dim == .none && 4 ≤ d.val && s.hsb.role == .standby && s.hsb.susp.getLsbD d.val then resyncBegin (setRole .syncing (suspend d false s))
  else match c.confirmed, s.doms[d].image with
  | some old, some new =>
    if c.dim != .swapped || !c.wantConfirm || !atBoundary d s then s
    else
      let recipe := c.recipe
      let s := if recipe then s else retainCopy d old new s
      let s : State := if recipe then s else { s with arch := { s.arch with progs := s.arch.progs.set d c.image } }
      let s := modDom d (fun x => { x with retain := x.retain.map fun r => { r with progId := new.id, layoutId := new.layoutId, sealed := false }, change := .reset }) s
      let s := addLog .changeEnd d.val 0 (suspend d false (setChg d .none s))
      finishOpt c.cmd .ok s
  | _, _ => s

/-- CONFIRM_WINDOW_EXPIRY (R231, R386, R391, R392): WINDOW seconds after the swap; ignored after a recorded command. The primary that holds an unconfirmed triplex change sends
RELINQUISH. -/
def execConfirmWindowExpiry (d : DomId) (s : State) : Meaning := .next <|
  let c := s.doms[d].change
  if c.dim != .swapped || c.wantConfirm || c.wantRevert || !elapsed (1000 * c.windowS) c.swapAt s then s
  else
    let s := modDom d (fun x => { x with change := { x.change with wantRevert := true, cycles := 0 } }) s
    if 4 ≤ d.val && s.hsb.role == .primary then sendRelinquish (s.cyc.count + 1) s else s

/-- The reverse entries still marked. -/
def revertEntries (d : DomId) (old new : Image) (s : State) : List MigEntry := (migTable old new).filter (markedBack new s.doms[d].change.marks)

/-- REVERT (R391): at the first boundary that qualifies. -/
def execRevert (d : DomId) (s : State) : Meaning := .next <|
  let c := s.doms[d].change
  match c.confirmed, s.doms[d].image with
  | some old, some new =>
    let recipe := c.recipe
    let clocks := if recipe then 0 else migCost (revertEntries d old new s) + loadClocks d old s
    if c.dim != .swapped || !c.wantRevert || !boundaryFree d s || !changeFits d clocks s then s
    else
      let s := match recipe, c.image.bind (recipeFor new) with
        | true, some p => recipeTurn d new p s
        | _, _ => turnTo d new old (migRun (migBack d old new) d (revertEntries d old new s) s)
      let s := modDom d (fun x => { x with change := .reset }) s
      finishOpt c.cmd .ok (addLog .changeEnd d.val 1 (suspend d false (setChg d .none s)))
  | _, _ => s

/-- REVERT_NOCONV (R391): no boundary within 1,024 cycles; the domain goes to STOP, and its next start is cold with the old program (R62). -/
def execRevertNoconv (d : DomId) (s : State) : Meaning := .next <|
  let c := s.doms[d].change
  if c.dim != .swapped || !c.wantRevert || c.cycles < 1024 then s
  else match domPair d with
    | some n => pairCommandStop n 2 s
    | none => setMembers 2 (Fin.ofNat 2 (d.val - 4)) 0 (groupHalt (Fin.ofNat 2 (d.val - 4)) 2 s)

/-! ## The image phase of a resynchronisation (R228) -/

/-- After the image phase a domain runs the program that the partner runs: where the identities differ, the partner's image takes the place of the
own one, at once in a domain that does not run and otherwise as a change of program does (log entry 67). -/
def adoptImage (d : DomId) (s : State) : State := match s.sync.pHello.map fun h => h.images[d] with
  | none => s
  | some id =>
    if id == 0 || s.doms[d].image.any (fun im => im.id == id) then s
    else
      let raw : Image := { Config.partnerImage id with id := id }
      match s.doms[d].run, s.doms[d].image with
      | true, some old =>
        let new := placeImage d (!s.doms[d].bankB) raw
        let s := turnTo d old new (writeCode d new s)
        { s with arch := { s.arch with progs := s.arch.progs.set d (some raw) } }
      | _, _ => (plainLoad d raw s).2

/-- RESYNC_IMAGE_DONE. -/
def execResyncImageDone (s : State) : Meaning := .next <|
  if s.sync.resync.state = 1 && s.sync.resync.want.isEmpty then
    allDoms.foldl (fun s d => adoptImage d s) (modSync (fun l => { l with resync := { l.resync with state := 2, progress := 0 } }) s)
  else s

end Sys2Proof.Machine
end

