-- ==== Sys2Proof/Machine/Pstore.lean ====
section
/-! DEFINITION. The parameter store: PS_CMD, page writes and their ends, refresh, the host's page commands and key writes (R439 to R451, R497 to
R499). -/

namespace Sys2Proof.Machine

/-- Updates the parameter store. -/
def modPs (f : PStore → PStore) (s : State) : State := { s with ps := f s.ps }
/-- Sets a bit of PS_ERR: 0 TRUNC, 1 PROT, 2 SYSPAGE, 3 BUSYCMD, 4 BADCMD, 5 MEDIUM, 6 DISCARD. -/
def psErr (b : Nat) (s : State) : State := modPs (fun p => { p with err := setBit p.err b true }) s

/-- Pages that only others than the Steward write, or nobody (R439). -/
def psForeign (page : Nat) : Bool := (2 ≤ page && page < 6) || (8 ≤ page && page < 128)
/-- Pages that BP protects (R442). -/
def psProtected (page : Nat) (s : State) : Bool := match s.ps.bp.toNat with
  | 0 => false | 1 => 3072 ≤ page | 2 => 2048 ≤ page | _ => 128 ≤ page

/-- PS_STAT.BUSY: a request of PS_CMD is queued or under way. -/
def psBusy (s : State) : Bool := (s.ps.cur.any fun r => r.use = .reg) || s.ps.qStew.any fun r => r.use = .reg

/-! ## PS_CMD (R441, R442, R451) -/

/-- A request of PS_CMD begins: DONE is cleared. -/
def psAccept (s : State) : State := modPs (fun p => { p with done := false }) s

/-- READ: the bytes of the range go to PS_BUF. -/
def psReadOp (pg off len : Nat) (s : State) : State :=
  let s := if 256 < off + len then psErr 0 s else s
  modPs (fun p => { p with done := true, fail := false, buf := mergePage p.buf 0 (((page pg s).drop off).take len) }) s

/-- WRITE: refused for a page of another writer or under protection, otherwise queued. -/
def psWriteOp (pg : BitVec 12) (off len : Nat) (s : State) : State :=
  if psForeign pg.toNat then answer .noPath 0 (countAf .steward (modPs (fun p => { p with done := true }) (psErr 2 s)))
  else if psProtected pg.toNat s then modPs (fun p => { p with done := true }) (psErr 1 s)
  else
    let s := if 256 < off + len then psErr 0 s else s
    psQueue { use := .reg, page := pg, off := off, data := s.ps.buf.take len, retried := false } s

/-- A write of PS_CMD: OP, PAGE, OFFSET, length. -/
def psCmdOp (op : Nat) (pg : BitVec 12) (off len : Nat) (s : State) : State :=
  if psBusy s then psErr 3 s
  else if op = 1 then psReadOp pg.toNat off len (psAccept s)
  else if op = 2 then psWriteOp pg off len (psAccept s)
  else psErr 4 s

/-- A request of the Steward's: its registers need PD_STEW and the scan's end (R444). -/
def psBy (f : State → State) (s : State) : State := if pdOn .stew s && !s.ps.scan then f (answer .ok 0 s) else s

/-- PS_READ. -/
def execPsRead (pg : BitVec 12) (off : BitVec 8) (lenm1 : BitVec 8) (s : State) : Meaning := .next (psBy (psCmdOp 1 pg off.toNat (lenm1.toNat + 1)) s)
/-- PS_WRITE. -/
def execPsWrite (pg : BitVec 12) (off : BitVec 8) (lenm1 : BitVec 8) (s : State) : Meaning := .next (psBy (psCmdOp 2 pg off.toNat (lenm1.toNat + 1)) s)

/-! ## The end of a page write (R443 to R446, R450) -/

/-- The key slots whose entries two contents of a key page do not share. -/
def changedSlots (pg : Nat) (old new : List Byte) : List Nat :=
  if pg < 128 || 131 < pg then []
  else ((List.range 4).filter fun j => (old.drop (64 * j)).take 64 != (new.drop (64 * j)).take 64).map (4 * (pg - 128) + ·)

/-- Every session bound to a changed slot closes (R498). -/
def closeSlots (slots : List Nat) (s : State) : State :=
  ([0, 1, 2, 3] : List (Fin 5)).foldl (fun s i =>
    let x := sessOf { sess := i, tag := 0 } s
    if x.st != .closed && slots.contains x.key.val then closeSess i s else s) s

/-- FKEY_DONE is blown when the first key write commits (R499). -/
def fkeyRetire (s : State) : State :=
  if s.fuses.fkeyDone || s.fuses.blow.any fun w => w.field == 3 then s
  else { s with fuses := { s.fuses with blow := s.fuses.blow ++ [{ field := 3, index := 0, val := 1 }] } }

/-- Writes of a command that have not begun are dropped. -/
def psDrop (r : CmdRef) (s : State) : State := modPs (fun p => { p with qStew := p.qStew.filter fun q => q.use ≠ .cmd r }) s

/-- The commands that wait for the escalation record end (R421). -/
def clearDone (st : Status) (s : State) : State :=
  ((waiting .pstore s).filter fun r => (slotOf r s).any fun x => x.code.toNat == 0x0902).foldl (fun s r => finish r st 0 [] s) s

/-- What the end of a write means to whoever issued it. -/
def psEnded (q : PsReq) (ok : Bool) (old new : List Byte) (s : State) : State := match q.use with
  | .reg => modPs (fun p => { p with done := true, fail := !ok }) s
  | .cmd r => match slotOf r s with
    | none => s
    | some x =>
      if !ok then finish r .medium 0 (leBytes 2 x.donePages) (psDrop r s)
      else
        let n := x.donePages + 1
        let s := modSlot r (fun y => { y with donePages := n }) s
        let keys := changedSlots q.page.toNat old new
        let s := if 128 ≤ q.page.toNat && q.page.toNat ≤ 131 then fkeyRetire s else s
        closeSlots keys (if n ≥ sliceNat 2 2 (slotData x) then finish r .ok 0 (leBytes 2 n) s else s)
  | .esc second =>
    let s : State := { s with esc := { s.esc with rung2 := s.esc.rung2.map fun r => if ok then { r with copies := r.copies + 1 } else r } }
    if second then clearDone (if ok then .ok else .medium) s else s
  | .boot second => if second then (waiting .update s).foldl (fun s r => finish r (if ok then .ok else .medium) 0 [] s) s else s
  | _ => s

/-- The second copy that belongs to a first one. -/
def secondCopy : PsFor → Option PsFor
  | .boot false => some (.boot true) | .esc false => some (.esc true) | .epoch false v => some (.epoch true v) | .hours false => some (.hours true) | _ => none

/-- A first copy that has not committed has no second one (R447): its queued write is dropped, and the update is over. -/
def dropSecond (q : PsReq) (s : State) : State := match secondCopy q.use with
  | none => psEnded q false [] [] s
  | some u =>
    let cut (l : List PsReq) : List PsReq := l.eraseP fun r => r.use = u
    psEnded { q with use := u } false [] [] (modPs (fun p => { p with qLease := cut p.qLease, qSup := cut p.qSup, qStew := cut p.qStew }) s)

/-- The write under way ends without a commit: MEDIUM. -/
def psMedium (q : PsReq) (s : State) : State := psNext (dropSecond q (psErr 5 (modPs (fun p => { p with cur := none }) s)))

/-- No retry begins after t_pf + 12 ms, nor 12 ms into an orderly reset (R446, R457). -/
def psLate (s : State) : Bool := s.ps.cutoff || s.boot.orderly.any fun o => 12 * tickMs < since o.at_ s

/-- A physical page is retired (R443, R450). -/
def psRetire (s : State) : State :=
  let s := modPs (fun p => { p with retired := inc16 p.retired, free := p.free - 1 }) s
  if s.ps.free.toNat = 63 then addLog .lowSpare 63 0 s else s

/-- The commit of the write under way: the page is merged and mapped. -/
def psCommit (q : PsReq) (s : State) : State :=
  let old := page q.page.toNat s
  let new := mergePage old q.off q.data
  let s := modPs (fun p => { p with cur := none, seq := p.seq + 1, writes := inc p.writes }) (setPage q.page.toNat new s)
  psEnded q true old new s

/-- PS_WRITE_COMMIT (R443, R445). An interrupted write is over; its requester hears nothing. -/
def execPsWriteCommit (o : ProgOutcome) (s : State) : Meaning := .next <| match s.ps.cur with
  | none => s
  | some q =>
    if s.ps.free = 0 then psMedium q s
    else match o with
      | .committed => psNext (psCommit q s)
      | .verifyFailed =>
        let s := psRetire s
        if q.retried || psLate s || s.ps.free = 0 then psMedium q s
        else modPs (fun p => { p with cur := some { q with retried := true }, retry := inc p.retry }) s
      | .cutBefore => modPs (fun p => { p with cur := none, torn := true }) s
      | .cutAfter => modPs (fun p => { p with cur := none, seq := p.seq + 1 }) (setPage q.page.toNat (mergePage (page q.page.toNat s) q.off q.data) s)

/-- The scan of R444 ends: mapped pages stand, an incomplete copy is discarded, requests that waited begin. -/
def psScanned (s : State) : State :=
  let s := modPs (fun p => { p with scan := false, torn := false, free := 512 - p.retired }) (if s.ps.torn then psErr 6 s else s)
  psNext s

/-- PS_REFRESH (R449): a weak page is rewritten with the same content while no request waits. -/
def execPsRefresh (pg : BitVec 12) (s : State) : Meaning := .next <|
  let idle := s.ps.cur.isNone && s.ps.qLease.isEmpty && s.ps.qSup.isEmpty && s.ps.qStew.isEmpty
  if !idle || s.ps.scan || s.ps.cutoff || s.ps.free = 0 || !(s.ps.pages.any fun p => p.1 == pg.toNat) then s
  else modPs (fun p => { p with seq := p.seq + 1, writes := inc p.writes, refresh := inc p.refresh }) s

/-! ## PSTORE_READ and PSTORE_WRITE (R368, R442, R498) -/

/-- A page as PSTORE_READ gives it: KEY fields read 0. -/
def pageShown (n : Nat) (s : State) : List Byte :=
  if 128 ≤ n && n ≤ 131 then (List.range 256).map fun i => if i % 64 < 32 then 0 else (page n s).getD i 0 else page n s

/-- PSTORE_READ. -/
def execPstoreRead (r : CmdRef) (s : State) : Meaning := .next <| runCmd r 0x0601 (fun x s =>
  let first := sliceNat 0 2 x
  let n := sliceNat 2 2 x
  if x.length ≠ 4 || 4095 < first then badParam r 0 s
  else if n < 1 || 256 < n || 4096 < first + n then badParam r 2 s
  else finish r .ok 0 ((List.range n).flatMap fun i => pageShown (first + i) s) s) s

/-- A key write's format and rule (R497, R498): the offset of the offending byte in the command data. `es` are the entries with their slots. -/
def keyWriteBad (es : List (Nat × List Byte)) (first : Nat) (s : State) : Option Nat :=
  let at_ (i : Nat) : Nat := 4 + 64 * (i - 4 * (first - 128))
  let bad (e : Nat × List Byte) : Option Nat :=
    if 0x20 ≤ e.2.getD 32 0 then some (at_ e.1 + 32) else if 1 < e.2.getD 33 0 then some (at_ e.1 + 33) else if sliceNat 34 2 e.2 ≠ 0 then some (at_ e.1 + 34)
    else if sliceNat 56 8 e.2 ≠ 0 then some (at_ e.1 + 56) else none
  let strong (e : List Byte) : Bool := entryInUse e && (e.getD 32 0).getLsbD 4
  let after (i : Nat) : List Byte := ((es.find? fun e => e.1 == i).map Prod.snd).getD (keyEntry i s)
  match es.findSome? bad with
  | some o => some o
  | none =>
    if (List.range 16).any fun i => strong (after i) then none
    else some (((es.find? fun e => strong (keyEntry e.1 s) && !strong e.2).map fun e => at_ e.1).getD 4)

/-- An entry as stored: the command's mask removed, the table's applied (R497, R498). -/
def keyStored (r : CmdRef) (i : Nat) (e : List Byte) (s : State) : List Byte :=
  let key := xorBytes (e.take 32) (hmac (sessOf r s).ks (leBytes 2 r.tag.toNat ++ [BitVec.ofNat 8 i]))
  xorBytes key (keyMask i s) ++ e.drop 32

/-- A key write (R498). -/
def keyWrite (r : CmdRef) (first : Nat) (pages : List (List Byte)) (s : State) : State :=
  let n := pages.length
  let es := (enum pages).flatMap fun p => (List.range 4).map fun j => (4 * (first - 128 + p.1) + j, (p.2.drop (64 * j)).take 64)
  if first < 128 || 132 < first + n then badParam r 0 s
  else if !(rightsOf r s).getLsbD 4 || r.sess = 4 then finish r .denied 0 [] s
  else if s.arb.key != .service then finishRefused r 0 "NOT_SERVICE" s
  else match (List.range n).find? fun i => psProtected (first + i) s with
    | some i => finish r .protected_ (first + i) (leBytes 2 0) s
    | none => match keyWriteBad es first s with
      | some o => badParam r o s
      | none => (enum pages).foldl (fun s p =>
          let data := ((List.range 4).flatMap fun j => keyStored r (4 * (first - 128 + p.1) + j) ((p.2.drop (64 * j)).take 64) s)
          psQueue { use := .cmd r, page := BitVec.ofNat 12 (first + p.1), off := 0, data := data, retried := false } s) (waitFor r .pstore s)

/-- PSTORE_WRITE (R442): every page is checked before any is written. -/
def execPstoreWrite (r : CmdRef) (s : State) : Meaning := .next <| runCmd r 0x0602 (fun x s =>
  let first := sliceNat 0 2 x
  let n := sliceNat 2 2 x
  let pages := (List.range n).map fun i => (x.drop (4 + 256 * i)).take 256
  if 4095 < first then badParam r 0 s
  else if n < 1 || 256 < n || 4096 < first + n || x.length ≠ 4 + 256 * n then badParam r 2 s
  else if first ≤ 131 && 128 < first + n then keyWrite r first pages s
  else match (List.range n).find? fun i => first + i < 128 || psProtected (first + i) s with
    | some i => if first + i < 128 then finish r .noPath 0 (leBytes 2 0) s else finish r .protected_ (first + i) (leBytes 2 0) s
    | none => (enum pages).foldl (fun s p =>
        psQueue { use := .cmd r, page := BitVec.ofNat 12 (first + p.1), off := 0, data := p.2, retried := false } s) (waitFor r .pstore s)) s

end Sys2Proof.Machine
end

