-- ==== Sys2Proof/Machine/Settings.lean ====
section
/-! DEFINITION. Configuration sets (R34, R167, R180, R233, R368, R422, R460): the registers that a set loads, CFG_WRITE and CFG_READ. -/

namespace Sys2Proof.Machine

/-- The cycle registers' ranges (R36). -/
def periodOk (v : Word) : Bool := 250 ≤ v.toNat && v.toNat ≤ 100000000
/-- CYC_MARGIN. -/
def marginOk (v : Word) : Bool := 10 ≤ v.toNat && v.toNat ≤ 10000
/-- CYC_RETLIM. -/
def retlimOk (v : Word) : Bool := 1 ≤ v.toNat && v.toNat ≤ 99999999
/-- CYC_OVRLIM. -/
def ovrlimOk (v : Word) : Bool := allPairs.all fun n => field v (8 * n.val) 8 ≠ 0

/-- HSB_CFG is out of range (R233). -/
def hsbCfgBad (v : Word) (s : State) : Bool :=
  let e := field v 16 16
  ringCfgBad (BitVec.ofNat 32 (e * 65536)) || e = field s.ring.cfg 16 16 || field v 0 5 < 2 || 16 < field v 0 5

/-- ESC_CFG is out of range (R422). -/
def escCfgBad (v : Word) : Bool := field v 4 4 = 0 || field v 0 3 = 0

/-- A write of a cycle register (R34): locked, out of range, or performed. -/
def cycWrite (ok : Bool) (f : Cyc → Cyc) (s : State) : State :=
  if cfgLocked s then { s with cyc := { s.cyc with err := setBit s.cyc.err 1 true } }
  else if !ok then { s with cyc := { s.cyc with err := setBit s.cyc.err 0 true } }
  else { s with cyc := f s.cyc }

/-- A write of HSB_CFG (R233). -/
def hsbCfgWriteOp (v : Word) (s : State) : State :=
  if cfgLocked s then modHsb (fun h => { h with evt := setBit h.evt 9 true }) s
  else if hsbCfgBad v s then modHsb (fun h => { h with evt := setBit h.evt 10 true }) s
  else modHsb (fun h => { h with cfg := v &&& 0xFFFFFCFF }) s

/-- A write of ESC_CFG (R422). -/
def escCfgWriteOp (v : Word) (s : State) : State :=
  if cfgLocked s || escCfgBad v then s
  else { s with esc := { s.esc with dlim := BitVec.ofNat 4 (field v 4 4), n := BitVec.ofNat 3 (field v 0 3) } }

/-- A layout is refused at load (R167, R356). -/
def layoutRefused (l : Layout) (s : State) : Bool := layoutBad l (loadedConns s) || (l.mailbox.isSome && 8 * l.fsize < 256)

/-- A layout takes the place of the loaded one. -/
def layoutLoad (l : Layout) (s : State) : State := modRtm (fun t => { t with ranks := .replicate 4 .reset }) (modRing (fun r => { r with layout := some l, stations := [] }) s)

/-- A configuration set is refused whole: a value out of range, or its layout. -/
def setBad (c : CfgSet) (s : State) : Bool :=
  !(periodOk c.period && marginOk c.margin && retlimOk c.retlim && ovrlimOk c.ovrlim) || ringCfgBad c.ringCfg || layoutRefused c.layout s ||
    hsbCfgBad c.hsbCfg { s with ring := { s.ring with cfg := c.ringCfg } } || escCfgBad c.escCfg

/-- Applies a set whole: cycle, layout, ring, hot standby, ESC_CFG, protection of the store, watchdogs, channels, code regions, address of X6. -/
def cfgApply (c : CfgSet) (s : State) : State :=
  let s : State := { s with cyc := { s.cyc with period := c.period, margin := c.margin, retlim := c.retlim, ovrlim := c.ovrlim } }
  let s := ringCfgLoad c.ringCfg (layoutLoad c.layout s)
  let s := escCfgWriteOp c.escCfg (modHsb (fun h => { h with cfg := c.hsbCfg &&& 0xFFFFFCFF }) s)
  let s := c.wdg.foldl (fun s w => wdgLoad w s) (modPs (fun p => { p with bp := c.bp }) s)
  let s := c.chans.foldl (fun s x => if s.fg[x.1].ch[x.2.1].cfg == x.2.2 then s else fgChWriteOp .steward x.1 x.2.1 x.2.2 s) s
  let s : State := { s with doms := s.doms.mapIdx fun i d => { d with region := c.regions.getD i d.region } }
  { s with mbx := { s.mbx with ip := c.ip } }

/-- CFG_WRITE (R34, R368): the set is kept in the Archive, with the one before it, and applied whole. -/
def execCfgWrite (r : CmdRef) (s : State) : Meaning := .next <| runCmd r 0x0301 (fun x s =>
  if x.isEmpty then badParam r 0 s
  else if cfgLocked s then finish r .cfgLocked 0 [] s
  else
    let c := Config.readCfgSet x
    if layoutRefused c.layout s then finishRefused r 0 "RING_LAYOUT_BAD" s
    else if setBad c s then badParam r 0 s
    else finish r .ok 0 [] (cfgApply c { s with arch := { s.arch with sets := x :: s.arch.sets.take 1 } })) s

/-- CFG_READ: the selector's first byte is 0 for the set in effect, 1 for the one before it. -/
def execCfgRead (r : CmdRef) (s : State) : Meaning := .next <| runCmd r 0x0302 (fun x s =>
  if x.length ≠ 4 then badParam r 0 s
  else if 1 < sliceNat 0 1 x then badParam r 0 s
  else if sliceNat 1 3 x ≠ 0 then badParam r 1 s
  else match s.arch.sets[sliceNat 0 1 x]? with
    | some b => finish r .ok 0 b s
    | none => finish r .ok 0 [] s) s

end Sys2Proof.Machine
end

