-- ==== Sys2Proof/Machine/Resets.lean ====
section
/-! DEFINITION. Module resets: what survives, the orderly reset, the second rung's reset, and how pairs finish their cycle in such a sequence
(R59, R418, R456 to R458, R471). -/

namespace Sys2Proof.Machine

/-! ## Pairs in a shutdown sequence (R59) -/

/-- A pair that executes. -/
def pairBusy (n : Fin 4) (s : State) : Bool := s.doms[pairDom n].run && s.doms[pairDom n].tasks.toList.any (·.active)

/-- The instant at which the running shutdown sequence began: t_pf, or the decision of a reset (R59, R418, R457). -/
def shutdownAt (s : State) : Option Long := (s.power.tpf.or (s.boot.orderly.map (·.at_))).or (s.esc.rung2.map (·.at_))

/-- 10 ms of the shutdown sequence have passed: no completion counts any more (R59). -/
def shutdownLate (s : State) : Bool := (shutdownAt s).any fun t => 10 * tickMs < since t s

/-- A pair that has completed within 10 ms publishes, and its area is sealed. -/
def pairFinish (n : Fin 4) (s : State) : State :=
  if s.doms[pairDom n].run && !pairBusy n s && !s.cores[pairCore n].stopped then
    sealArea n (modDom (pairDom n) (fun d => { d with published := if d.pstop then d.published else d.commit, commits := [], rptSent := false }) s)
  else s

/-- A pair still executing is abandoned; its record keeps its state. -/
def pairAbandon (n : Fin 4) (s : State) : State := if pairBusy n s then stopCore (pairCore n) (abandonTasks (pairDom n) s) else s

/-- Every pair that has completed publishes and seals; after 10 ms (`late`) the others are abandoned. -/
def pairsFinish (late : Bool) (s : State) : State :=
  allPairs.foldl (fun s n => if late then pairAbandon n (pairFinish n s) else pairFinish n s) s

/-- Some pair executes. -/
def pairsBusy (s : State) : Bool := allPairs.any fun n => pairBusy n s

/-! ## Module reset (R456 to R458) -/

/-- A 2-bit count that saturates. -/
def inc2 (c : BitVec 2) : BitVec 2 := if c = 3 then c else c + 1

/-- The cells of the Grotto. -/
def grottoCells (m : List Host.Cell) : List Host.Cell := m.filter fun c => memKey 5 0 ≤ c.1 && c.1 < memKey 6 0

/-- What remains of a domain through a module reset: its seal record in the Grotto (R58) with the retentive instances (R63; log entry 75), and whether a change was unconfirmed (R62). -/
def domSurvives (d : Dom) : Dom := { Dom.reset with retain := d.retain, instKept := d.instKept, change := { Change.reset with confirmed := d.change.confirmed } }

/-- The power domains that a module in reset keeps on: PD_AON and PD_GROTTO, and PD_VOTE while a feed is present (R26, R27). -/
def resetOn (s : State) : BitVec 12 := if s.power.feed[0].present || s.power.feed[1].present then 0x803 else 3

/-- A module reset with a cause of R456: all logic returns to its reset state but for what R458 names. -/
def moduleReset (cause : Nat) (s : State) : State :=
  let early := cause = 6 || cause = 7
  { State.reset with
    pending := s.pending
    mem := grottoCells s.mem
    memErrs := { MemErrs.reset with flips := s.memErrs.flips.filter fun f => f.1 == 5, side := s.memErrs.side.filter fun f => f.1 == 5
                                    outer := s.memErrs.outer.filter fun f => f.1 == 5, poison := s.memErrs.poison.filter fun f => f.1 == 5 }
    doms := s.doms.map domSurvives
    rtc := { s.rtc with err := 0, evt := 0 }
    ps := { PStore.reset with pages := s.ps.pages, seq := s.ps.seq, retired := s.ps.retired, torn := s.ps.torn }
    arch := s.arch
    fuses := { s.fuses with keyerr := false, fail := false, blow := [], data := .replicate 8 0, cmd := 0 }
    update := { Update.reset with running := s.update.running, previous := s.update.previous }
    boot := { Boot.reset with on := resetOn s, rcOk := s.boot.rcOk, cause := BitVec.ofNat 8 cause, step := s.boot.bootStep, rstCount := inc s.boot.rstCount
                              bootStep := s.boot.bootStep
                              fc1 := if early && s.boot.bootStep = 1 then inc2 s.boot.fc1 else s.boot.fc1
                              fc2 := if early && s.boot.bootStep = 2 then inc2 s.boot.fc2 else s.boot.fc2 }
    power := { s.power with panel := 0, panelFl := 0, tpf := none }
    arb := { Arb.reset with key := s.arb.key, transit := s.arb.transit }
    mbx := { Mbx.reset with out := s.mbx.out }
    log := s.log
    bus := s.bus
    freeCtr := s.freeCtr }

/-! ## Orderly reset (R457) -/

/-- Steps 1 of an orderly reset: safety outputs, permits, safety coaches; a PRIMARY names its last train. -/
def outputsDown (s : State) : State := permitsOff (safetyOff 0 (safetyOff 1 s))

/-- The sequence ends when the pairs have completed or 10 ms have passed, and the write in progress of the parameter store has ended; at 20 ms
in every case. -/
def orderlyTry (s : State) : State := match s.boot.orderly with
  | none => s
  | some o =>
    let t := since o.at_ s
    let s := pairsFinish (10 * tickMs ≤ t) s
    if 20 * tickMs ≤ t || (!pairsBusy s && s.ps.cur.isNone) then moduleReset o.cause.toNat s else s

/-- An orderly reset is decided. -/
def orderlyBegin (cause : Nat) (s : State) : State :=
  if s.boot.orderly.isSome then s
  else
    let s := if s.hsb.role == .primary then sendRelinquish (s.cyc.count + 1) s else s
    outputsDown { s with boot := { s.boot with orderly := some { cause := BitVec.ofNat 8 cause, at_ := s.cyc.tb } } }

/-- Causes that are orderly (R456); DEBUG only with S1 at SERVICE and debug open. -/
def orderlyCause (cause : Nat) (s : State) : Bool :=
  cause = 3 || cause = 5 || cause = 9 || (cause = 0x0A && s.arb.key == .service && !dbgClosed s)

/-- ORDERLY_RESET: decides one that is not under way, and completes it once its steps are done. -/
def execOrderlyReset (cause : BitVec 8) (s : State) : Meaning := .next <|
  if s.boot.orderly.isSome then orderlyTry s
  else if orderlyCause cause.toNat s then orderlyTry (orderlyBegin cause.toNat s) else s

/-- RST_REQ (R471): the code requests an orderly reset with cause HOST, STEWARD or UPDATE; any other value is ignored. -/
def rstReqOp (v : BitVec 16) (cause : Nat) (s : State) : State :=
  if v = 0x5A3C && (cause = 3 || cause = 5 || cause = 9) then orderlyBegin cause s else s

/-- RST_REQ. -/
def execRstReq (v : BitVec 16) (cause : BitVec 8) (s : State) : Meaning := .next (rstReqOp v cause.toNat s)

/-- ESCALATION_RESET (R418 step 5): copy 2 of the record is committed and the pairs have completed or 10 ms have passed; at 40 ms in every case. -/
def execEscalationReset (s : State) : Meaning := .next <|
  match s.esc.rung2 with
  | none => s
  | some r =>
    let t := since r.at_ s
    let s := pairsFinish (10 * tickMs ≤ t) s
    if !pairsBusy s && (r.copies ≥ 2 || 40 * tickMs ≤ t) then moduleReset 4 s else s

end Sys2Proof.Machine
end

