-- ==== Sys2Proof/Machine/Debug.lean ====
section
/-! DEFINITION. The debug port X13, pair debug through the Echo log, lane debug, and the fuse bank (R112 to R117, R487 to R490, R495, R502 to
R504). -/

namespace Sys2Proof.Machine

/-! ## Pair debug (R112 to R114) -/

/-- A debugger action on a pair's main core: refused while the Echo log is full, otherwise recorded at the main core's count and performed. -/
def echoAct (n : Fin 4) (kind : Byte) (target : Nat) (v : BitVec 64) (f : State → State) (s : State) : State :=
  let p := s.pairs[n]
  if !p.echo then s
  else if 256 ≤ p.log.length then modPair n (fun p => { p with refused := true }) s
  else
    let e : EchoEntry := { kind := kind, target := BitVec.ofNat 8 target, count := s.cores[pairCore n].arch.retired.setWidth 32, value := v }
    f (modPair n (fun p => { p with log := p.log ++ [e] }) s)

/-- An action that writes a register: applied to the main core at once, to the checker at its replay. -/
def echoWrite (n : Fin 4) (kind : Byte) (target : Nat) (v : BitVec 64) (s : State) : State :=
  echoAct n kind target v (modCore (pairCore n) (fun k =>
    { k with arch := echoApply { kind := kind, target := BitVec.ofNat 8 target, count := 0, value := v } k.arch })) s

/-- ECHO_HALT. A HALT on a pair that is already halted is ignored and not appended to the log: R113 says only what a halt does to a running core
(DESIGN CHOICE; log entry 69). -/
def execEchoHalt (n : Fin 4) (s : State) : Meaning := .next (if s.pairs[n].echo && !s.pairs[n].halt then echoHaltAt n s else s)
/-- ECHO_RESUME. -/
def execEchoResume (n : Fin 4) (s : State) : Meaning := .next <|
  if !s.pairs[n].halt then s
  else echoAct n 2 0 0 (fun s => modCore (pairCore n) (fun k => { k with halted := false, step := false }) (modPair n (fun p => { p with halt := false }) s)) s
/-- ECHO_STEP: the halted pair takes one instruction. -/
def execEchoStep (n : Fin 4) (s : State) : Meaning := .next <|
  if !s.pairs[n].halt then s else echoAct n 3 0 0 (modCore (pairCore n) (fun k => { k with step := true })) s
/-- ECHO_GREG. -/
def execEchoGreg (n : Fin 4) (r : Reg) (v : Word) (s : State) : Meaning := .next (echoWrite n 4 r.val (v.setWidth 64) s)
/-- ECHO_PRED. -/
def execEchoPred (n : Fin 4) (p : Pred) (v : Bool) (s : State) : Meaning := .next (echoWrite n 5 p.val (BitVec.ofNat 64 (bitOf v)) s)
/-- ECHO_ACC. -/
def execEchoAcc (n : Fin 4) (a : Acc) (v : BitVec 64) (s : State) : Meaning := .next (echoWrite n 6 a.val v s)
/-- ECHO_SPECIAL. -/
def execEchoSpecial (n : Fin 4) (sr : Fin 64) (v : Word) (s : State) : Meaning := .next (echoWrite n 7 sr.val (v.setWidth 64) s)

/-- A debugger's write of an 8-byte word: once, in the memory that the pair reaches at the address (R22, R113). -/
def debugStore (n : Fin 4) (addr : Word) (v : BitVec 64) (s : State) : State :=
  let w := locate (.sp n) (addr.toNat / 8 * 8) s
  if !pathOk (.sp n) w true then answer .noPath 0 s
  else if !pdOn (wherePd w) s then answer .domOff 0 s
  else
    match w with
    | .sram code off => clearWord code (off / 8) (storeHeld (some (pairCore n)) code off (leBytes 8 v.toNat) (answer .ok 0 s))
    | .ext off => store (some (pairCore n)) 6 off (leBytes 8 v.toNat) (answer .ok 0 s)
    | _ => s

/-- ECHO_MEMW: its entry's VALUE is the address of the 8-byte word (R114). -/
def execEchoMemw (n : Fin 4) (addr : Word) (v : BitVec 64) (s : State) : Meaning := .next (echoAct n 8 0 ((addr &&& 0xFFFFFFF8).setWidth 64) (debugStore n addr v) s)
/-- ECHO_BRKSET. -/
def execEchoBrkset (n : Fin 4) (addr : Word) (s : State) : Meaning := .next <|
  echoAct n 9 0 (addr.setWidth 64) (modPair n (fun p => { p with brk := addr :: p.brk.filter (· ≠ addr) })) s
/-- ECHO_BRKCLR. -/
def execEchoBrkclr (n : Fin 4) (addr : Word) (s : State) : Meaning := .next <|
  echoAct n 10 0 (addr.setWidth 64) (modPair n (fun p => { p with brk := p.brk.filter (· ≠ addr) })) s

/-- A pair debugger is detached (R503): breakpoints cleared, the outstanding entries replayed, a halted pair resumes. -/
def pairDetach (n : Fin 4) (s : State) : State :=
  if !s.pairs[n].echo then s
  else
    let log := s.pairs[n].log
    let s := modCore (pairCore n) (fun k => { k with chk := k.chk.map fun b => log.foldl (fun b e => echoApply e b) b, halted := false, step := false }) s
    modPair n (fun p => { p with echo := false, halt := false, log := [], brk := [] }) s

/-! ## The test access port (R502) -/

/-- An instruction of X13: in effect where its condition holds; otherwise BYPASS, with REFUSED. -/
def x13 (code : Byte) (ok : Bool) (f : State → State) (s : State) : State :=
  if ok then f { s with dbg := { s.dbg with ir := code } } else { s with dbg := { ir := 0xFF, refused := true } }

/-- S1 at SERVICE, debug open. -/
def serviceOpen (s : State) : Bool := !dbgClosed s && s.arb.key == .service
/-- The same, with the operating dimension STOP or SERVICE. -/
def serviceStill (s : State) : Bool := serviceOpen s && (s.arb.oper == .stop || s.arb.oper == .service)

/-- IDCODE: 0x2487005F. -/
def execIdcode (s : State) : Meaning := .next (x13 0x01 true (answer .ok 0x2487005F) s)
/-- BYPASS. -/
def execBypass (s : State) : Meaning := .next (x13 0xFF true id s)
/-- SAMPLE/PRELOAD. -/
def execSamplePreload (s : State) : Meaning := .next (x13 0x02 (!dbgClosed s) id s)
/-- EXTEST. -/
def execExtest (s : State) : Meaning := .next (x13 0x00 (serviceStill s) id s)
/-- PAIR_DBG: a debugger is attached to a pair or leaves it. -/
def execPairDbg (n : Fin 4) (attach : Bool) (s : State) : Meaning := .next <|
  x13 0x10 (!dbgClosed s) (fun s => if attach then modPair n (fun p => { p with echo := true }) s else pairDetach n s) s
/-- LANE_DBG: DEBUG_ATTACH or DEBUG_DETACH through VOT_REQ. -/
def execLaneDbg (attach : Bool) (lane : Fin 4) (s : State) : Meaning := .next <|
  x13 0x11 (!dbgClosed s) (fun s => (voterRequest (if attach then .attach else .detach) lane s).2) s
/-- RESET_REQ: an orderly reset with cause DEBUG (R456). -/
def execResetReq (s : State) : Meaning := .next (x13 0x12 (serviceOpen s) (fun s => orderlyBegin 0x0A s) s)

/-! ## The fuse bank (R487 to R490) -/

/-- The bytes of a field's data words. -/
def fieldBytes (ws : List Word) : List Byte := (ws.take 8).flatMap fun w => leBytes 4 w.toNat
/-- The check word of a 256-bit field (R488). -/
def checkOf (ws : List Word) : Word := crc32c (fieldBytes ws)
/-- A field is blank. -/
def fieldBlank (ws : Vector Word 9) : Bool := ws.toList.all (· == 0)
/-- A field is usable: not all 0 and its check word matches. -/
def fieldUsable (ws : Vector Word 9) : Bool := !fieldBlank ws && checkOf ws.toList == ws[8]
/-- A field is unusable: not all 0, and the check word does not match. -/
def fieldBad (ws : Vector Word 9) : Bool := !fieldBlank ws && checkOf ws.toList != ws[8]

/-- Updates the fuses. -/
def modFuses (f : Fuses → Fuses) (s : State) : State := { s with fuses := f s.fuses }
/-- FUSE_STAT.FAIL: a blow was refused or failed verification. -/
def fuseFail (s : State) : State := modFuses (fun f => { f with fail := true }) s

/-- The nine words of a 256-bit field as they are blown, ascending. -/
def fieldWords (code : Byte) (data : List Word) : List FuseWord :=
  let d := (List.range 8).map fun i => data.getD i 0
  (enum (d ++ [checkOf d])).map fun x => { field := code, index := x.1, val := x.2 }

/-- Begins a blow: one that arrives while another runs is refused with FUSE_BUSY, one to a field that is not blank with FIELD_SET. -/
def blowBegin (blank : Bool) (ws : List FuseWord) (s : State) : State :=
  if !s.fuses.blow.isEmpty || !blank then fuseFail s
  else if s.ps.cutoff then s else modFuses (fun f => { f with blow := ws, fail := false }) s

/-- The word that DBG_CLOSE stands in: its three bits are blown together (R489). -/
def closeWord : FuseWord := { field := 2, index := 0, val := 7 }

/-- FUSE_PGM (R502): KHASH1 to KHASH7, CKEK, DBG_CLOSE. KHASH0 belongs to manufacture and ignores it. -/
def execFusePgm (f : FuseField) (data : List Word) (s : State) : Meaning := .next <|
  x13 0x13 (serviceStill s) (fun s => match f with
    | .khash n => if n = 0 then s else blowBegin (fieldBlank s.fuses.khash[n]) (fieldWords (BitVec.ofNat 8 (0x10 + n.val)) data) s
    | .ckek => blowBegin (fieldBlank s.fuses.ckek) (fieldWords 4 data) s
    | .dbgClose => blowBegin true [closeWord] s) s

/-- The words of a revocation (R496). -/
def revokeWord (mask : Nat) : FuseWord := { field := 1, index := 0, val := BitVec.ofNat 32 (mask % 256) }

/-- A write of FUSE_CMD (R10, R504): only the Steward's, with the key. One that is taken stands in the register; another FIELD is ignored and sets FAIL. -/
def fuseCmd (a : Access) (key : BitVec 16) (field : Byte) (s : State) : State :=
  let taken (ws : List FuseWord) (s : State) : State := blowBegin true ws (modFuses (fun f => { f with cmd := pack [(field.toNat, 8), (key.toNat, 16)] }) s)
  if a.master != .steward then answer .noPath 0 (countAf a.master s)
  else if key != 0xF05A then modFuses (fun f => { f with keyerr := true }) (answer .ok 0 s)
  else if field = 1 then taken [revokeWord s.fuses.data[0].toNat] (answer .ok 0 s)
  else if field = 2 then taken [closeWord] (answer .ok 0 s)
  else fuseFail (answer .ok 0 s)

/-- FUSE_CMD with FIELD 1: the mask stands in FUSE_DATA word 0. -/
def execFuseBlowKrevoke (a : Access) (key : BitVec 16) (s : State) : Meaning := .next <|
  fuseCmd a key 1 s
/-- FUSE_CMD with FIELD 2. -/
def execFuseBlowDbgClose (a : Access) (key : BitVec 16) (s : State) : Meaning := .next (fuseCmd a key 2 s)

/-- Debug closes (R489, R503): attachments end, pair debuggers are detached, X13 acts as BYPASS. -/
def debugClose (s : State) : State :=
  let s := transition 2 0 5 0 1 s
  let s := allPairs.foldl (fun s n => pairDetach n s) (detachAll s)
  { s with dbg := { s.dbg with ir := if s.dbg.ir = 0x01 then 0x01 else 0xFF } }

/-- Fuse bits can only change to 1. -/
def blowBits (w : FuseWord) (v : Word) (s : State) : State :=
  let was := dbgClosed s
  let s := modFuses (fun f => match w.field.toNat with
    | 1 => { f with revoke := f.revoke ||| v.setWidth 8 }
    | 2 => { f with dbgClose := f.dbgClose ||| v.setWidth 3 }
    | 3 => { f with fkeyDone := f.fkeyDone || v.getLsbD 0 }
    | 4 => { f with ckek := f.ckek.mapIdx fun i x => if i = w.index then x ||| v else x }
    | n => { f with khash := f.khash.mapIdx fun i y => if i + 0x10 = n && i ≠ 0 then y.mapIdx fun j x => if j = w.index then x ||| v else x else y }) s
  if !was && dbgClosed s then debugClose s else s

/-- The words of one blow: those of a fuse order belong together. -/
def sameBlow (w x : FuseWord) : Bool := w.field == x.field || (w.field.toNat ≤ 2 && x.field.toNat ≤ 2)

/-- FUSE_WORD_DONE (R490, R495): the word's bits are blown and sensed. A word that fails verification has blown free ones of its bits; the rest of
its field is dropped. No word begins after t_pf + 12 ms. A command that waits for the fuses ends when the last word is done. -/
def execFuseWordDone (ok : Bool) (s : State) : Meaning := .next <| match s.fuses.blow with
  | [] => s
  | w :: rest =>
    if ok then
      let s := blowBits w w.val (modFuses (fun f => { f with blow := if s.ps.cutoff then [] else rest }) s)
      if s.fuses.blow.isEmpty && !(rest.any fun x => x.field.toNat ≤ 2) && w.field.toNat ≤ 2 then (waiting .fuses s).foldl (fun s r => finish r .ok 0 [] s) s else s
    else
      let f := nextFree s
      let s := blowBits w (w.val &&& BitVec.ofNat 32 (Config.freeNat f.1)) (fuseFail (modFuses (fun g => { g with blow := if s.ps.cutoff then [] else rest.filter fun x => !sameBlow w x }) f.2))
      if w.field.toNat ≤ 2 then (waiting .fuses s).foldl (fun s r => finish r .medium 0 [] s) s else s

/-! ## Lane debug (R116) -/

/-- LANE_DEBUGGER_ACCESS: what an attached debugger does with the lane's two cores and its SRAM. -/
def execLaneDebuggerAccess (l : Fin 3) (x : LaneAct) (s : State) : Meaning := .next <|
  if !s.voter.lane[l].debug || !pdOn (lanePd l) s then s
  else match x with
    | .halt k => modCore (laneCore l k) (fun c => { c with halted := true, step := false }) s
    | .resume k => modCore (laneCore l k) (fun c => { c with halted := false, stopped := false, step := false }) s
    | .step k => modCore (laneCore l k) (fun c => { c with halted := true, stopped := false, step := true }) s
    | .readReg k r => answer .ok (s.cores[laneCore l k].arch.reg r) s
    | .writeReg k r v => modCore (laneCore l k) (fun c => { c with arch := c.arch.put (.g r) (v.setWidth 72) }) s
    | .readPreds k => answer .ok ((setBit s.cores[laneCore l k].arch.p 0 true).setWidth 32) s
    | .writePred k p v => modCore (laneCore l k) (fun c => { c with arch := c.arch.put (.p p) (BitVec.ofNat 72 (bitOf v)) }) s
    | .readSr k sr => answer .ok (s.cores[laneCore l k].arch.sr (laneCore l k) sr.val s) s
    | .writeSr k sr v => modCore (laneCore l k) (fun c => { c with arch := match accSr sr.val with
        | some (r, part) => c.arch.put (.accPart r part) (v.setWidth 72)
        | none => c.arch.setSr sr.val v }) s
    | .readAddr k => answer .ok s.cores[laneCore l k].arch.ia s
    | .writeAddr k a => modCore (laneCore l k) (fun c => { c with arch := { c.arch with ia := a &&& 0xFFFFFFFC, delay := none, rpt := none } }) s
    | .readMem a =>
      let z := checkWord (coreIdx (laneCore l 0)) (laneMem l) (a.toNat / 8) s
      if z.1.isSome then (let f := nextFree (laneMemErr (laneMem l) z.2.2); answer .ok (BitVec.ofNat 32 (Config.freeNat f.1)) f.2) else answer .ok (BitVec.ofNat 32 (readNat (laneMem l) (a.toNat / 4 * 4) 4 z.2.2)) z.2.2
    | .writeMem a v => clearWord (laneMem l) (a.toNat / 8) (store (some (laneCore l 0)) (laneMem l) (a.toNat / 8 * 8) (leBytes 8 v.toNat) s)

end Sys2Proof.Machine
end

