-- ==== Sys2Proof/Machine/Update.lean ====
section
/-! DEFINITION. Strata, their verification and the update order (R394 to R400, R491 to R496). -/

namespace Sys2Proof.Machine

/-! ## A stratum's fields (R394, R395) -/

/-- CLASS. -/
def strClass (b : List Byte) : Nat := sliceNat 6 1 b
/-- STRATUM_ID. -/
def strId (b : List Byte) : Long := BitVec.ofNat 64 (sliceNat 8 8 b)
/-- BASE_ID. -/
def strBase (b : List Byte) : Long := BitVec.ofNat 64 (sliceNat 16 8 b)
/-- RESULT_ID. -/
def strResult (b : List Byte) : Long := BitVec.ofNat 64 (sliceNat 24 8 b)
/-- NIF. -/
def strNif (b : List Byte) : Nat := sliceNat 44 2 b
/-- KEYSEL. -/
def strKey (b : List Byte) : Nat := sliceNat 46 2 b
/-- The interface entries. -/
def strIfs (b : List Byte) : List IfEntry := (List.range (strNif b)).map fun i =>
  let e := b.drop (64 + 8 * i)
  { iface := BitVec.ofNat 16 (sliceNat 0 2 e), prov := BitVec.ofNat 16 (sliceNat 2 2 e), amin := BitVec.ofNat 16 (sliceNat 4 2 e), amax := BitVec.ofNat 16 (sliceNat 6 2 e) }
/-- The body. -/
def strBody (b : List Byte) : List Byte := (b.drop (64 + 8 * strNif b)).take (sliceNat 40 4 b)

/-- The header keeps the form of R394: reserved bytes 0, and the parts add up to the stratum's length. -/
def strForm (b : List Byte) : Bool :=
  sliceNat 0 4 b = 0x41545253 && sliceNat 4 2 b = 1 && strClass b ≤ 4 && sliceNat 7 1 b = 0 && strNif b ≤ 16 && sliceNat 48 16 b = 0 &&
    b.length = 64 + 8 * strNif b + sliceNat 40 4 b + 64

/-- Applies the records of a body in order (R395): none where a record is cut off, unknown, or copies beyond the base image. -/
def applyRecords (base : List Byte) : Nat → List Byte → List Byte → Option (List Byte)
  | 0, _, _ => none
  | n + 1, body, out =>
    if body.length < 8 then none
    else
      let len := sliceNat 4 4 body
      let rest := body.drop 8
      match sliceNat 0 1 body with
      | 0 => some out
      | 1 =>
        let src := sliceNat 0 4 rest
        if rest.length < 4 || base.length < src + len then none else applyRecords base n (rest.drop 4) (out ++ (base.drop src).take len)
      | 2 => if rest.length < (len + 3) / 4 * 4 then none else applyRecords base n (rest.drop ((len + 3) / 4 * 4)) (out ++ rest.take len)
      | _ => none

/-- The image that a stratum produces from a base: its length and CRC must be those of the header. -/
def produce (base b : List Byte) : Option (List Byte) :=
  (applyRecords base (b.length + 1) (strBody b) []).filter fun x => x.length = sliceNat 36 4 b && (crc32c x).toNat = sliceNat 32 4 b

/-! ## Verification (R491) -/

/-- A slot of the fuse bank may be used. -/
def slotUsable (n : Nat) (s : State) : Bool := match s.fuses.khash.toList[n]? with
  | some ws => fieldUsable ws && !s.fuses.revoke.getLsbD n
  | none => false

/-- The public key of the key file that matches a slot's hash. -/
def slotKey (n : Nat) (s : State) : Option (List Byte) := match s.fuses.khash.toList[n]? with
  | some ws => s.arch.keys.find? fun k => sha256 k == fieldBytes ws.toList
  | none => none

/-- A stratum verifies. -/
def strVerified (b : List Byte) (s : State) : Bool :=
  strForm b && slotUsable (strKey b) s && (strClass b = 0 || strKey b = 0) &&
    match slotKey (strKey b) s with
    | some k => ecdsaOk k (b.take (b.length - 64)) (b.drop (b.length - 64))
    | none => false

/-! ## Segments (R368, R396) -/

/-- The data of IMAGE_PUT and STRATUM_PUT breaks its form: the offending offset. -/
def segBad (x : List Byte) : Option Nat :=
  if x.length < 16 then some 0
  else if sliceNat 12 4 x < sliceNat 8 4 x + (x.length - 16) then some 12 else none

/-- The files with a segment stored: one at the same offset is replaced; another total size begins the file anew. -/
def putSegment (x : List Byte) (fs : List SegFile) : List SegFile :=
  let id : Long := BitVec.ofNat 64 (sliceNat 0 8 x)
  let seg := (sliceNat 8 4 x, x.drop 16)
  let old := ((fs.find? fun f => f.id == id && f.total == sliceNat 12 4 x).map (·.segs)).getD []
  fs.filter (fun f => f.id != id) ++ [{ id := id, total := sliceNat 12 4 x, segs := old.filter (fun g => g.1 != seg.1) ++ [seg] }]

/-- STRATUM_PUT's end: a stratum whose last byte has arrived is verified; one that fails is discarded. -/
def stratumStored (r : CmdRef) (x : List Byte) (s : State) : State :=
  let id : Long := BitVec.ofNat 64 (sliceNat 0 8 x)
  let s : State := { s with arch := { s.arch with strata := putSegment x s.arch.strata } }
  match fileOf id s.arch.strata with
  | some b =>
    if strVerified b s then finish r .ok 0 [] s
    else finishRefused r 0 "SIGNATURE" { s with arch := { s.arch with strata := s.arch.strata.filter fun f => f.id != id } }
  | none => finish r .ok 0 [] s

/-- STRATUM_PUT (R396): the segment goes to the Archive. -/
def execStratumPut (r : CmdRef) (s : State) : Meaning := .next <| runCmd r 0x0501 (fun x s =>
  match segBad x with | some o => badParam r o s | none => waitFor r .archive s) s

/-! ## Sets (R396, R493) -/

/-- The produced image of a manifest. -/
def manifestOf (id : Long) (s : State) : Option (List Byte × List Byte) := match fileOf id s.arch.strata with
  | some b => if strForm b && strClass b = 0 && strBase b = 0 then some (b, (produce [] b).getD []) else none
  | none => none

/-- The stratum that a manifest names for a class, 1 to 4: identity 0 for a class left unchanged. -/
def classId (m : List Byte) (c : Nat) : Long := BitVec.ofNat 64 (sliceNat (8 * c) 8 m)

/-- The firmware that class `c` will run with a set, and whether its stratum is usable: present, right in class and base, producing its image. -/
def classFw (m : List Byte) (c : Fin 4) (from_ : Firmware) (s : State) : Option Firmware :=
  if classId m (c.val + 1) = 0 then some from_
  else match fileOf (classId m (c.val + 1)) s.arch.strata with
    | none => none
    | some b => (produce (if strBase b = 0 then [] else from_.image) b).map fun x => { id := strResult b, ifs := strIfs b, image := x }

/-- The four classes. -/
def classes : List (Fin 4) := [0, 1, 2, 3]

/-- A set's strata are all there. -/
def setWhole (m : List Byte) (s : State) : Bool := classes.all fun c => classId m (c.val + 1) = 0 || (fileOf (classId m (c.val + 1)) s.arch.strata).isSome

/-- Some stratum's BASE_ID is neither 0 nor the identity running in its class. -/
def baseMismatch (m : List Byte) (s : State) : Bool := classes.any fun c => match fileOf (classId m (c.val + 1)) s.arch.strata with
  | some b => strBase b != 0 && strBase b != s.update.running[c].id
  | none => false

/-- The fuse order of a manifest's image: CLOSE, REVOKE, SERIAL; none where there is none. -/
def fuseOrder (m : List Byte) : Option (Nat × Nat × Nat) := if m.length = 56 then some (sliceNat 40 1 m, sliceNat 41 1 m, sliceNat 48 8 m) else none

/-- A manifest's image has another length or value than R396 and R493 allow. -/
def orderBad (m : List Byte) : Bool := !(m.length = 40 || m.length = 56) || (m.length = 56 && (1 < sliceNat 40 1 m || sliceNat 42 6 m ≠ 0))

/-- Bytes of a set's strata in total. -/
def setBytes (id : Long) (m : List Byte) (s : State) : Nat :=
  let len (i : Long) : Nat := ((fileOf i s.arch.strata).map List.length).getD 0
  len id + (classes.map fun c => if classId m (c.val + 1) = 0 then 0 else len (classId m (c.val + 1))).sum

/-- STRATUM_BAD: a stratum of the wrong class or image, a bad order, more than 1 GiB (R395, R492, R493). -/
def stratumBad (id : Long) (m : List Byte) (s : State) : Bool :=
  orderBad m || 2 ^ 30 < setBytes id m s || classes.any fun c =>
    (classFw m c s.update.running[c] s).isNone || (fileOf (classId m (c.val + 1)) s.arch.strata).any fun b => classId m (c.val + 1) ≠ 0 && strClass b ≠ c.val + 1

/-! ## Compatibility (R399) -/

/-- The interfaces by number. SYNC versions are compared at resynchronisation. -/
def ifName (n : Nat) : String := match n with | 1 => "GCI" | 2 => "CEI" | 3 => "MBX" | 4 => "RTI" | 5 => "SYNC" | 6 => "CFG" | _ => "IF"

/-- An interface of a state whose provided version some image that uses it, or a loaded program, does not accept. -/
def clash (fw : List Firmware) (s : State) : Option Nat :=
  let es := fw.flatMap (·.ifs)
  let prov := es.filter fun e => e.prov != 0 && e.iface != 5
  let bad (p : IfEntry) : Bool := es.any (fun e => e.iface == p.iface && (e.amin != 0 || e.amax != 0) && (p.prov < e.amin || e.amax < p.prov)) ||
    (p.iface == 4 && s.doms.toList.any fun d => d.image.any fun im => p.prov < im.rtiMin || im.rtiMax < p.prov)
  (prov.find? bad).map fun p => p.iface.toNat

/-- The state after `k` steps forward and `j` of them taken back. -/
def mixed (old new : List Firmware) (k j : Nat) : List Firmware := (enum (old.zip new)).map fun x => if j ≤ x.1 && x.1 < k then x.2.2 else x.2.1

/-- The first step and interface that do not fit, over every state of the order and of the way back. -/
def incompatible (old new : List Firmware) (s : State) : Option (Nat × Nat) :=
  ((List.range 5).flatMap fun k => (List.range (k + 1)).map fun j => (k, j)).findSome? fun x => (clash (mixed old new x.1 x.2) s).map fun n => (x.1, n)

/-! ## UPDATE_START (R397, R494) -/

/-- SET_UNCONF of the boot record. -/
def setUnconf (s : State) : Bool := s.boot.rec_.flags.getLsbD 4

/-- A digit. -/
def digit (n : Nat) : String := match n with | 0 => "0" | 1 => "1" | 2 => "2" | 3 => "3" | _ => "4"

/-- The firmware of the four classes with a set. -/
def newFw (m : List Byte) (s : State) : List Firmware := classes.map fun c => (classFw m c s.update.running[c] s).getD s.update.running[c]

/-- Why UPDATE_START is refused. -/
def updateRefusal (id : Long) (s : State) : Option String := match manifestOf id s with
  | none => some "SET_UNKNOWN"
  | some (b, m) =>
    if !setWhole m s then some "SET_UNKNOWN"
    else if s.update.target.isSome then some "UPDATE_BUSY"
    else if setUnconf s && id != s.boot.rec_.setPrev then some "UPDATE_UNCONFIRMED"
    else if anyChange s then some "CHANGE_ACTIVE"
    else if baseMismatch m s then some "BASE_MISMATCH"
    else if stratumBad id m s then some "STRATUM_BAD"
    else match incompatible s.update.running.toList (newFw m s) s with
      | some (k, n) => some ("INCOMPATIBLE " ++ ifName n ++ " " ++ digit k)
      | none => match fuseOrder m with
        | none => none
        | some (_, rev, ser) =>
          if ser ≠ 0 && ser ≠ s.fuses.serial.toNat then some "WRONG_MODULE"
          else if rev.testBit 0 || rev.testBit (strKey b) then some "REVOKE_SELF" else none

/-- Updates the update under way. -/
def modUpdate (f : Update → Update) (s : State) : State := { s with update := f s.update }

/-- The next class at or after `n` that a set changes. -/
def nextClass (m : List Byte) (n : Nat) : Nat := ((List.range 5).find? fun c => n ≤ c && 1 ≤ c && classId m c ≠ 0).getD 5

/-- The boot record's 64 bytes (R467). -/
def bootPayload (b : BootRec) : List Byte :=
  leBytes 4 b.starts.toNat ++ [b.flags, b.lastCause, b.lastStep, b.failed] ++ b.fc.toList ++ [0] ++ leBytes 8 b.setRun.toNat ++ leBytes 8 b.setPrev.toNat ++
    leBytes 8 b.tStart.toNat ++ leBytes 4 b.degraded.toNat ++ List.replicate 12 0

/-- Changes the boot record and writes it. -/
def writeBoot (f : BootRec → BootRec) (s : State) : State :=
  let s : State := { s with boot := { s.boot with rec_ := f s.boot.rec_ } }
  psRecord .boot (bootPayload s.boot.rec_) s

/-- The CFG format version that a set of firmware provides (R395, R400). -/
def cfgFormat (fw : Vector Firmware 4) : Nat := ((fw.toList.flatMap (·.ifs)).filter fun e => e.iface == 6).foldl (fun a e => max a e.prov.toNat) 0

/-- The files of a set: its manifest and the strata that it names. -/
def setFiles (id : Long) (s : State) : List Long := match manifestOf id s with
  | none => [id]
  | some (_, m) => id :: classes.map fun c => classId m (c.val + 1)

/-- The STRATA area keeps the running set, the previous set and what has been received (R396): the strata of the set before these go. -/
def dropOldSet (id : Long) (s : State) : State :=
  let keep := setFiles id s ++ setFiles s.boot.rec_.setRun s
  let old := (setFiles s.boot.rec_.setPrev s).filter fun f => !keep.contains f
  { s with arch := { s.arch with strata := s.arch.strata.filter fun f => !old.contains f.id } }

/-- The settings at a change of set (R400): a fall-back after confirmation finds those frozen at the confirmation; any other set replaces them. -/
def settingsTurn (back : Bool) (s : State) : State :=
  if back && !setUnconf s then addLog .settingsStale 0 0 { s with arch := { s.arch with sets := s.arch.frozen.getD s.arch.sets, frozen := none } }
  else { s with arch := { s.arch with frozen := none } }

/-- UPDATE_CONFIRM freezes the old-format settings where the sets' formats differ (R400; log entry 86). -/
def settingsFreeze (s : State) : State :=
  if cfgFormat s.update.running = cfgFormat s.update.previous then s else { s with arch := { s.arch with frozen := some s.arch.sets } }

/-- A set has become the running one (R396, R397, R400): unconfirmed, unless the previous set came back. -/
def setRunning (id : Long) (s : State) : State :=
  let back := id == s.boot.rec_.setPrev
  let s := settingsTurn back (dropOldSet id s)
  let s := modUpdate (fun u => { u with previous := u.before, target := none, step := 0, retried := false, stopAt := false, cmd := none }) s
  writeBoot (fun b => { b with setPrev := b.setRun, setRun := id, flags := setBit b.flags 4 (!back) }) s

/-- The order goes on with class `c`, 5 at its end (R398): the command ends before step 4, whose firmware runs from the next start. -/
def updateGo (id : Long) (_m : List Byte) (c : Nat) (s : State) : State :=
  if c < 4 then modUpdate (fun u => { u with step := c, retried := false }) s
  else
    let s := finishOpt s.update.cmd .ok s
    if c = 4 then modUpdate (fun u => { u with step := 4, retried := false, cmd := none }) s else setRunning id s

/-- UPDATE_START. -/
def execUpdateStart (r : CmdRef) (s : State) : Meaning := .next <| runCmd r 0x0502 (fun x s =>
  if x.length ≠ 8 then badParam r 0 s
  else
    let id : Long := BitVec.ofNat 64 (sliceNat 0 8 x)
    match updateRefusal id s, manifestOf id s with
    | some e, _ => finishRefused r 0 e s
    | none, none => finishRefused r 0 "SET_UNKNOWN" s
    | none, some (_, m) =>
      updateGo id m (nextClass m 1) (modUpdate (fun u => { u with target := some id, cmd := some r, before := u.running, stopAt := false }) s)) s

/-- The order stops at this boundary; classes already updated stay updated. -/
def updateStop (s : State) : State := modUpdate (fun u => { u with target := none, step := 0, retried := false, stopAt := false, cmd := none }) s

/-- What the switch of a class does to running work (R398): the group controllers restart, or the Steward's cores. -/
def classSwitch (c : Nat) (s : State) : State := match c with
  | 1 => allFg.foldl (fun s g => if s.fg[g].fpwr then fgRestart g s else s) s
  | 3 => modCore stewCore (fun _ => Core.reset true false) s
  | _ => s

/-- UPDATE_CLASS_STEP (R398): the class under way runs its new identity, or its step has failed: retried once, then the order stops. -/
def execUpdateClassStep (ok : Bool) (s : State) : Meaning := .next <|
  let u := s.update
  match u.target with
  | none => s
  | some id => match manifestOf id s with
    | none => s
    | some (_, m) =>
      let c := u.step
      if c = 0 then s
      else if !ok then
        if !u.retried then modUpdate (fun v => { v with retried := true }) s
        else updateStop (finishOpt u.cmd .medium s)
      else
        let k : Fin 4 := Fin.ofNat 4 (c - 1)
        let fw := (classFw m k u.running[k] s).getD u.running[k]
        let s := classSwitch c (modUpdate (fun v => { v with running := v.running.set k fw }) s)
        if c = 4 then orderlyBegin 5 (setRunning id s)
        else if u.stopAt then updateStop s else updateGo id m (nextClass m (c + 1)) s

/-- UPDATE_CONFIRM (R400, R495): the boot record marks the set confirmed; then its fuse order is carried out, revocations first. -/
def execUpdateConfirm (r : CmdRef) (s : State) : Meaning := .next <| runCmd r 0x0503 (fun x s =>
  if x.length ≠ 8 then badParam r 0 s
  else
    let id : Long := BitVec.ofNat 64 (sliceNat 0 8 x)
    if id != s.boot.rec_.setRun || s.update.target.isSome then finishRefused r 0 "SET_UNKNOWN" s
    else
      let ws := match (manifestOf id s).bind fun x => fuseOrder x.2 with
        | none => []
        | some (close, rev, _) => (if rev = 0 then [] else [revokeWord rev]) ++ if close = 1 then [closeWord] else []
      let t := writeBoot (fun b => { b with flags := setBit b.flags 4 false }) (if setUnconf s then settingsFreeze s else s)
      if ws.isEmpty then waitFor r .update t
      else if !s.fuses.blow.isEmpty then finishRefused r 0 "FUSE_BUSY" (fuseFail s)
      else blowBegin true ws (waitFor r .fuses t)) s

end Sys2Proof.Machine
end

