-- ==== Sys2Proof/Machine/Boot.lean ====
section
/-! DEFINITION. A start: boot steps B0 to B14, their failure counts and the boot record, the entry mode (R452 to R471); the status panel (R519). -/

namespace Sys2Proof.Machine

/-! ## The status panel (R519, R520) -/

/-- Updates the supply. -/
def modPower (f : Power → Power) (s : State) : State := { s with power := f s.power }
/-- Updates the start. -/
def modBoot (f : Boot → Boot) (s : State) : State := { s with boot := f s.boot }

/-- Lamp 1: both feeds, one feed lost, hold-up weak or cell low. -/
def lampPwr (s : State) : Nat × Bool :=
  let a := s.power.feed[0].present
  let b := s.power.feed[1].present
  (if s.power.evt.getLsbD 4 || s.power.evt.getLsbD 6 then 2 else if a && b then 1 else if a || b then 3 else 0, false)

/-- The colour and flashing of lamps 1 to 12: 0 off, 1 green, 2 red, 3 yellow. -/
def lamps (s : State) : List (Nat × Bool) :=
  let run : Nat × Bool := match s.arb.oper with | .run => (1, false) | .hold => (1, true) | .stop => (3, false) | .service => (3, false) | .safe => (0, false)
  let lane (l : Fin 3) : Nat × Bool :=
    if s.voter.lane[l].debug then (3, true)
    else if s.voter.reint.phase ≠ 0 && s.voter.reint.lane.val = l.val + 1 then (3, false)
    else if pdOn (lanePd l) s && (loadedGroups s).all fun g => s.voter.grp[g].members.getLsbD l.val then (1, false) else (2, false)
  let ring (r : Fin 2) : Nat × Bool :=
    if s.rtm.brk[r] then (2, false) else if s.ring.dim == .compatLoop && s.rtm.loop.isSome && r = 0 then (3, true) else if s.ring.on[r] then (1, false) else (0, false)
  let hsb : Nat × Bool := if paired s && !s.sync.up then (2, false) else match s.hsb.role with
    | .primary => (1, false) | .alone => (1, false) | .standby => (3, false) | .syncing => (3, true)
  let fld : Nat × Bool :=
    if s.fg.toList.any fun g => !g.fpwr then (2, false)
    else if s.fg.toList.any fun g => g.lpuv || g.govl || g.ch.toList.any (·.ovl) then (3, false) else (1, false)
  let key : Nat × Bool := if s.arb.key == .service then (3, !dbgClosed s) else (0, false)
  let maint : Nat × Bool :=
    if s.power.evt.getLsbD 6 || s.memRegs.faildev != 0 || s.ps.free.toNat < 64 then (2, false)
    else if s.boot.rec_.degraded != 0 || s.power.evt.getLsbD 4 || s.power.evt.getLsbD 7 || s.power.evt.getLsbD 8 then (3, false) else (0, false)
  [lampPwr s, run, (if inSafe s then 2 else 0, inSafe s && s.esc.hold), lane 0, lane 1, lane 2, ring 0, ring 1, hsb, fld, key, maint]

/-- Shows lamps in PANEL and PANEL_FL. -/
def panelShow (ls : List (Nat × Bool)) (s : State) : State :=
  modPower (fun p => { p with panel := BitVec.ofNat 24 ((enum ls).map fun x => x.2.1 * 4 ^ x.1).sum
                              panelFl := BitVec.ofNat 12 ((enum ls).map fun x => bitOf x.2.2 * 2 ^ x.1).sum }) s

/-- The panel as its driver shows it: the power sequencer until B6, the Steward from then on. -/
def panelDrive (s : State) : State :=
  if s.cores[stewCore].stopped then panelShow (lampPwr s :: List.replicate 11 (0, false)) s else panelShow (lamps s) s

/-! ## The boot record (R462 to R467) -/

/-- Reads a record's payload. -/
def bootParse (p : List Byte) : BootRec where
  starts := BitVec.ofNat 32 (sliceNat 0 4 p)
  flags := p.getD 4 0
  lastCause := p.getD 5 0
  lastStep := p.getD 6 0
  failed := p.getD 7 0
  fc := Vector.ofFn fun i => p.getD (8 + i.val) 0
  setRun := BitVec.ofNat 64 (sliceNat 24 8 p)
  setPrev := BitVec.ofNat 64 (sliceNat 32 8 p)
  tStart := BitVec.ofNat 64 (sliceNat 40 8 p)
  degraded := BitVec.ofNat 32 (sliceNat 48 4 p)

/-- The newest whole manifest in the STRATA area, or 0. -/
def newestSet (s : State) : Long := ((s.arch.strata.reverse.find? fun f => fileWhole f && strClass (fileBytes f) = 0 && strForm (fileBytes f)).map (·.id)).getD 0

/-- Updates the boot record. -/
def modRec (f : BootRec → BootRec) (s : State) : State := modBoot (fun b => { b with rec_ := f b.rec_ }) s

/-- FCn. -/
def fcOf (n : Nat) (s : State) : Nat := (s.boot.rec_.fc.toList.getD n 0).toNat
/-- Sets FCn. -/
def setFc (n : Nat) (v : Byte) (b : BootRec) : BootRec := { b with fc := b.fc.mapIdx fun i x => if i = n then v else x }
/-- Sets a flag of FLAGS. -/
def setFlag (n : Nat) (v : Bool) (s : State) : State := modRec (fun b => { b with flags := setBit b.flags n v }) s
/-- A step's finding is a degradation (R466). -/
def degrade (n : Nat) (s : State) : State := addLog .degraded n 0 (modRec (fun b => { b with degraded := setBit b.degraded n true }) s)

/-- Writes both copies of the record as a start does, before it goes on (R462, R470). -/
def bootStore (s : State) : State :=
  let q := recordSeq 1 0 s
  if 2 ^ 32 - 1 ≤ q then psErr 5 s
  else
    let c := recordCopy 1 (q + 1) (bootPayload s.boot.rec_)
    modPs (fun p => { p with seq := p.seq + 2, writes := incBy p.writes 2 }) (setPage 1 c (setPage 0 c s))

/-- A count that stops at 3. -/
def inc3 (b : Byte) : Byte := if 3 ≤ b.toNat then 3 else b + 1

/-- The record as B2 finds or creates it, with the failed step counted (R462, R467). With FC2 at least 1 it is treated as invalid (R463). -/
def bootCount (s : State) : State :=
  let b := s.boot
  let old : Option BootRec := if b.fc2 ≠ 0 then none else match readRecord 1 0 s with
    | .valid _ p => some (bootParse p)
    | _ => none
  let rec_ : BootRec := match old with
    | some r => { r with starts := r.starts + 1 }
    | none => { BootRec.reset with starts := 1, setRun := newestSet s }
  let st := b.step.toNat
  let cz := b.cause.toNat
  let failed := 2 ≤ st && st ≤ 14 && (6 ≤ cz && cz ≤ 9)
  let rec_ := if failed then { setFc st (inc3 (rec_.fc.toList.getD st 0)) rec_ with failed := BitVec.ofNat 8 st } else { rec_ with failed := 0xFF }
  let rec_ := setFc 1 (b.fc1.setWidth 8) (setFc 2 (b.fc2.setWidth 8) rec_)
  let rec_ := { rec_ with lastCause := b.cause, lastStep := b.step.setWidth 8, degraded := 0, tStart := 0
                          flags := setBit rec_.flags 5 (rec_.fc.toList.any fun x => 3 ≤ x.toNat) }
  modBoot (fun b => { b with rec_ := rec_ }) s

/-- While the running set is unconfirmed, a failure of B5, B6, B9 or B12 makes this start run the previous set (R465). -/
def bootFallback (s : State) : State :=
  let r := s.boot.rec_
  let f := r.failed.toNat
  if r.flags.getLsbD 4 && r.setPrev ≠ 0 && (f = 5 || f = 6 || f = 9 || f = 12) then
    let s := addLog .updateFallback f 0 (modUpdate (fun u => { u with running := u.previous }) s)
    setFlag 4 false (modRec (fun b => setFc f 0 { b with setRun := b.setPrev, setPrev := 0 }) s)
  else s

/-! ## The steps (R460, R463, R466) -/

/-- A step: none where it fails. -/
abbrev Step := BootFindings → State → Option State

/-- B2: the parameter store's scan, the record read, counted and written. -/
def bootB2 : Step := fun f s =>
  if f.psScan then
    let s := bootFallback (bootCount (psScanned s))
    some (bootStore (setFlag 5 (s.boot.rec_.fc.toList.any fun x => 3 ≤ x.toNat) s))
  else none

/-- B3: conservative timings while FC3 is at least 1. -/
def bootB3 : Step := fun f s => if f.dram then some (if fcOf 3 s ≠ 0 then setFlag 0 true s else s) else none
/-- B4: the slow initialisation while FC4 is at least 1. -/
def bootB4 : Step := fun f s => if f.archive then some (if fcOf 4 s ≠ 0 then setFlag 1 true s else s) else none

/-- The set that B5 verifies and B6 starts: the previous one while FC5 or FC6 is at least 1, if there is one. -/
def bootSet (s : State) : Long := if (fcOf 5 s ≠ 0 || fcOf 6 s ≠ 0) && s.boot.rec_.setPrev ≠ 0 then s.boot.rec_.setPrev else s.boot.rec_.setRun

/-- Every stratum of a set in the STRATA area verifies (R491). -/
def setVerified (id : Long) (s : State) : Bool := match fileOf id s.arch.strata with
  | none => true
  | some b => strVerified b s && match manifestOf id s with
    | none => false
    | some (_, m) => classes.all fun c => classId m (c.val + 1) = 0 || (fileOf (classId m (c.val + 1)) s.arch.strata).any fun x => strVerified x s

/-- B5. -/
def bootB5 : Step := fun f s => if f.setVerified && setVerified (bootSet s) s then some s else none

/-- B6: the Steward's firmware starts. A fall-back to the previous set that passes makes it the running one (R464). -/
def bootB6 : Step := fun f s =>
  if !f.firmware then none
  else
    let s := if bootSet s = s.boot.rec_.setRun then s
      else modRec (fun b => setFc 5 0 (setFc 6 0 { b with setRun := b.setPrev, setPrev := 0 })) (modUpdate (fun u => { u with running := u.previous }) s)
    some (modCore stewCore (fun _ => Core.reset true false) s)

/-- B7 (R466): both clock paths. -/
def bootB7 : Step := fun _ s =>
  let s := modRec (fun b => { b with tStart := if s.rtc.nvalid then s.rtc.bin.setWidth 64 else 0 }) s
  some (if s.rtc.bvalid then s else if s.rtc.nvalid then addLog .clkFallback 0 0 (degrade 7 s) else degrade 7 s)

/-- Entries of the escalation record that count (R420). -/
def counting (es : List (List Byte)) (s : State) : Nat :=
  if s.rtc.nvalid then (es.filter fun e => s.rtc.bin.toNat - sliceNat 0 5 e < 86400).length else es.length

/-- B8 (R420, R466): the escalation record; the hold turns the start into a service-only one. -/
def bootB8 : Step := fun _ s =>
  let r := escEntries s
  let n := match r with | none => s.esc.n.toNat | some x => counting x.2.2 s
  let hold := match r with | none => true | some x => x.2.1 = 1 || s.esc.n.toNat ≤ n
  let s : State := { s with esc := { s.esc with count24 := BitVec.ofNat 3 (min 7 n), hold := hold } }
  some (if hold then psRecord .esc (escPayload 1 ((r.map fun x => x.2.2).getD [])) (degrade 8 s) else s)

/-- B9: the ring's PHYs and engines; skipped while FC9 is at least 1. The transceiver of X7 is read. -/
def bootB9 : Step := fun f s =>
  if fcOf 9 s ≠ 0 then some (setFlag 2 true s) else if f.phys then some (setPd .ring true s) else none

/-- B10: field-side power of the groups. -/
def bootB10 : Step := fun f s =>
  let s : State := { s with fg := s.fg.mapIdx fun i g => { g with fpwr := f.groups.getLsbD i } }
  some (if allFg.all fun g => f.groups.getLsbD g.val then s else degrade 10 s)

/-- A lane passes B11. -/
def laneGood (f : BootFindings) (l : Fin 3) : Bool := f.lanes.getLsbD l.val && f.lanePll.getLsbD l.val

/-- B11: the lane domains on, their PLLs and BIST; the pairs' self-test. One lane that fails is held out, two lead to SAFE. -/
def bootB11 : Step := fun f s =>
  let s := allLanes.foldl (fun s l =>
    let s := modLane l (fun x => { x with pll := f.lanePll.getLsbD l.val, bistOk := f.lanes.getLsbD l.val }) (setPd (lanePd l) true s)
    let s := modBoot (fun b => { b with laneLock := setBit b.laneLock l.val (f.lanePll.getLsbD l.val) }) s
    if laneGood f l then s else modReint (fun r => { r with result := if f.lanePll.getLsbD l.val then 2 else 3 }) s) s
  let s := allPairs.foldl (fun s n => if f.pairs.getLsbD n.val then s else modDom (pairDom n) (fun d => { d with held := true }) s) s
  some (if allLanes.all (laneGood f) && allPairs.all (fun n => f.pairs.getLsbD n.val) then s else degrade 11 s)

/-- B12: the configuration set, the previous one while FC12 is at least 1. -/
def bootB12 : Step := fun f s =>
  let alt := fcOf 12 s ≠ 0
  if !f.cfgSet then none
  else match s.arch.sets[bitOf alt]?.or s.arch.sets.head? with
    | none => some s
    | some b =>
      let c := Config.readCfgSet b
      if setBad c s then none else some (if alt then setFlag 3 true (cfgApply c s) else cfgApply c s)

/-- Loads a domain's confirmed program; a refusal leaves the domain unloaded. An unconfirmed change before the reset stays known to the restart. -/
def bootProgram (s : State) (d : DomId) : State := match s.arch.progs[d] with
  | none => s
  | some raw =>
    if s.doms[d].held then s
    else
      let was := s.doms[d].change.confirmed.isSome
      let z := if proofStale raw s then (some "TIMING_UNPROVEN", addLog .refusedLoad d.val (nameCode "TIMING_UNPROVEN") s)
        else plainLoad d raw (modDom d (fun x => { x with bankB := true }) s)
      match z.1 with
      | some _ => degrade 13 z.2
      | none => modDom d (fun x => { x with change := { x.change with confirmed := if was then x.image else none } }) z.2

/-- B13: key images and programs. -/
def bootB13 : Step := fun _ s =>
  let s := s.arch.keyImages.foldl (fun (s : State) k =>
    let z := keyLoad (groupDom k.1) k.2 s
    match z.1 with
    | some e => degrade 13 (addLog .refusedLoad (groupDom k.1).val (nameCode e) s)
    | none => z.2) s
  some (allDoms.foldl bootProgram s)

/-- Runs steps in order until one fails; in a service-only start, also until one whose count has reached 3 (R468). -/
def bootRun (f : BootFindings) : List (Nat × Step) → State → State × Option Nat
  | [], s => (s, none)
  | (n, g) :: rest, s =>
    if serviceOnly s && fcOf n s ≥ 3 then (s, some n)
    else match g f s with
      | some t => bootRun f rest t
      | none => (s, some n)

/-- The steps up to B8, and from B9 to B13. -/
def stepsLow : List (Nat × Step) := [(3, bootB3), (4, bootB4), (5, bootB5), (6, bootB6), (7, bootB7), (8, bootB8)]
/-- The steps that a service-only start skips. -/
def stepsHigh : List (Nat × Step) := [(9, bootB9), (10, bootB10), (11, bootB11), (12, bootB12), (13, bootB13)]

/-- A step fails: the module resets with cause BOOT at that step (R463). -/
def bootFails (n : Nat) (s : State) : State := moduleReset 6 (modBoot (fun b => { b with bootStep := BitVec.ofNat 4 n }) s)

/-- A power-up is counted in the operating hours (R448). -/
def countPowerUp (s : State) : State :=
  if s.boot.cause = 1 || s.boot.cause = 2 then
    let p := match readRecord 4 6 s with | .valid _ p => p | _ => List.replicate 16 0
    psRecord .hours (p.take 12 ++ leBytes 4 (sliceNat 12 4 p + 1)) s
  else s

/-- B14: the record, BOOT_STEP 15, the entry mode (R470). -/
def bootB14 (f : BootFindings) (s : State) : State :=
  let s := countPowerUp (bootStore (modBoot (fun b => { b with bootStep := 15, tmr := 0, svcOnly := serviceOnly s }) s))
  let few := (allLanes.filter fun l => !laneGood f l).length ≥ 2
  let s :=
    if s.esc.hold then enterSafe 0x06 none s
    else if serviceOnly s then enterSafe 0x07 none s
    else if few then
      let t := enterSafe 0x07 none s
      if t.arb.key == .stop then t else allPairs.foldl (fun s n => domRestart (pairDom n) false 2 s) t
    else showGroups s
  panelDrive s

/-- The steps after B2. -/
def bootOn (f : BootFindings) (s : State) : State :=
  let z := bootRun f stepsLow s
  match z.2 with
  | some n => if serviceOnly z.1 then bootB14 f z.1 else bootFails n z.1
  | none =>
    let s := z.1
    if serviceOnly s || s.esc.hold then bootB14 f (setFlag 5 true s)
    else
      let y := bootRun f stepsHigh s
      match y.2 with
      | some n => bootFails n y.1
      | none => bootB14 f y.1

/-- B0: what the power sequencer brings up, the capacitance of the hold-up bank (R512). -/
def bootB0 (f : BootFindings) (s : State) : State :=
  let s := modBoot (fun b => { b with up := true }) (setPd .vote true (setPd .grotto true (setPd .aon true s)))
  let s := modPower (fun p => { p with cap := f.capPercent, full := true, holdV := 4500 }) s
  if f.capPercent.toNat < 70 then addLog .holdupWeak f.capPercent.toNat 0 (modPower (fun p => { p with evt := setBit p.evt 4 true }) s) else s

/-- B1: the main PLL and the root; the domains that are off only during a module reset come up. -/
def bootB1 (s : State) : State :=
  let s := setPd .stew true (setPd .std true (setPd .mem true (setPd .iox true s)))
  modBoot (fun b => { b with rootOk := true, mainLock := true, xtalOk := !b.subst }) s

/-- A start has ended and no module reset has followed. -/
def started (s : State) : Bool := s.boot.up && s.boot.bootStep = 15

/-- MODULE_START (R460 to R470): needs a feed and a module that has been reset and not held there. -/
def execModuleStart (f : BootFindings) (s : State) : Meaning := .next <|
  if s.boot.up || s.boot.halted || !s.power.feed.toList.any (·.present) then s
  else
    let s := bootB0 f s
    if s.boot.fc1 = 3 then panelShow ((2, false) :: List.replicate 11 (2, true)) (modBoot (fun b => { b with halted := true, up := false, on := resetOn s }) s)
    else if !f.pllRoot then bootFails 1 s
    else
      let s := bootB1 s
      if s.boot.fc2 = 3 then bootB14 f (modRec (fun b => setFc 2 3 (setFc 1 (s.boot.fc1.setWidth 8) { b with flags := setBit b.flags 5 true })) s)
      else match bootB2 f s with
        | none => bootFails 2 s
        | some t => bootOn f t

/-! ## The boot timer (R461, R471) -/

/-- The limit of a step in ms (R460); B0 has 1.5 s after POR. -/
def stepLimit (n : Nat) (s : State) : Nat :=
  if n = 0 then (if s.boot.cause = 1 then 1500 else 300) else ([0, 5, 60, 200, 500, 3000, 400, 1, 50, 300, 200, 1500, 500, 5000, 50] : List Nat).getD n 0

/-- A write of BOOT_STEP reloads the boot timer; ignored after 15 until a module reset (R461). -/
def bootStepOp (v : BitVec 4) (s : State) : State :=
  if started s then s else modBoot (fun b => { b with bootStep := v, tmr := BitVec.ofNat 32 (stepLimit v.toNat s), tmrAt := s.cyc.tb }) s

/-- BOOT_STEP_WRITE. -/
def execBootStepWrite (v : BitVec 4) (s : State) : Meaning := .next (bootStepOp v s)

/-- BOOT_TMR: the time left of the running step's limit in ms. -/
def bootTmr (s : State) : Nat := s.boot.tmr.toNat - since s.boot.tmrAt s / tickMs

/-- BOOT_TIMER_EXPIRY: the limit of a step that runs has passed. -/
def execBootTimerExpiry (s : State) : Meaning := .next (if started s || s.boot.tmr = 0 || bootTmr s ≠ 0 then s else moduleReset 6 s)

end Sys2Proof.Machine
end

