-- ==== Sys2Proof/Machine/Clock.lean ====
section
/-! DEFINITION. The real-time clock: the calendar, the second tick, loading, shifts, summer time, alarms, the wake and coherent reads
(R424 to R438). -/

namespace Sys2Proof.Machine

/-! ## The calendar -/

/-- A date and time of the main path as numbers. -/
structure Cal where
  y : Nat
  mo : Nat
  d : Nat
  h : Nat
  mi : Nat
  sec : Nat
  deriving DecidableEq, Repr

/-- A leap year (R425). -/
def leapYear (y : Nat) : Bool := y % 4 == 0 && (y % 100 != 0 || y % 400 == 0)
/-- The days of a month. -/
def monthDays (y m : Nat) : Nat := if m = 2 then (if leapYear y then 29 else 28) else if m = 4 || m = 6 || m = 9 || m = 11 then 30 else 31

/-- The number spelled by `n` BCD digits from bit `lo` upward. -/
def bcdAt (w : Word) (lo n : Nat) : Nat := (List.range n).foldl (fun a i => a + field w (lo + 4 * i) 4 * 10 ^ i) 0
/-- A BCD digit from bit `lo` upward is above 9. -/
def bcdBad (w : Word) (lo n : Nat) : Bool := (List.range n).any fun i => 9 < field w (lo + 4 * i) 4
/-- The BCD form of a number. -/
def bcdOf (n v : Nat) : Nat := (List.range n).foldl (fun a i => a + v / 10 ^ i % 10 * 16 ^ i) 0

/-- The main path's date and time (R438). -/
def calOf (time date : Word) : Cal :=
  { y := bcdAt date 16 4, mo := bcdAt (date &&& 0x1FFF) 8 2, d := bcdAt (date &&& 0x3F) 0 2
    h := bcdAt (time &&& 0x3FFFFF) 16 2, mi := bcdAt (time &&& 0x7FFF) 8 2, sec := bcdAt (time &&& 0x7F) 0 2 }
/-- RTC_TIME without WDAY. -/
def calTime (c : Cal) : Word := pack [(bcdOf 2 c.h, 16), (bcdOf 2 c.mi, 8), (bcdOf 2 c.sec, 0)]
/-- RTC_DATE. -/
def calDate (c : Cal) : Word := pack [(bcdOf 4 c.y, 16), (bcdOf 2 c.mo, 8), (bcdOf 2 c.d, 0)]

/-- A staged time and date is impossible (R429). -/
def calImpossible (time date : Word) : Bool :=
  let c := calOf time date
  bcdBad (time &&& 0x3F7F7F) 0 6 || bcdBad (date &&& 0xFFFF1F3F) 0 8 || c.y < 2000 || 2199 < c.y || c.mo = 0 || 12 < c.mo || c.d = 0 ||
    monthDays c.y c.mo < c.d || 23 < c.h || 59 < c.mi || 59 < c.sec

/-- Days from 2000-01-01 to a date. -/
def calDays (c : Cal) : Nat :=
  let leaps := (c.y - 1) / 4 - (c.y - 1) / 100 + (c.y - 1) / 400 - 484
  365 * (c.y - 2000) + leaps + ((List.range (c.mo - 1)).map fun i => monthDays c.y (i + 1)).sum + (c.d - 1)
/-- Seconds since 2000-01-01 (R427). -/
def calSeconds (c : Cal) : Nat := calDays c * 86400 + c.h * 3600 + c.mi * 60 + c.sec
/-- The day of the week: 1 is Monday, and 2000-01-01 is day 6 (R424). -/
def calWday (c : Cal) : Nat := (calDays c + 5) % 7 + 1

/-- The next day. -/
def calNextDay (c : Cal) : Cal :=
  if c.d < monthDays c.y c.mo then { c with d := c.d + 1 }
  else if c.mo < 12 then { c with mo := c.mo + 1, d := 1 } else { c with y := c.y + 1, mo := 1, d := 1 }
/-- The day before. -/
def calPrevDay (c : Cal) : Cal :=
  if 1 < c.d then { c with d := c.d - 1 }
  else if 1 < c.mo then { c with mo := c.mo - 1, d := monthDays c.y (c.mo - 1) } else { c with y := c.y - 1, mo := 12, d := 31 }
/-- One hour forward, with every rollover. -/
def calHourOn (c : Cal) : Cal := if c.h < 23 then { c with h := c.h + 1 } else calNextDay { c with h := 0 }
/-- One hour back. -/
def calHourBack (c : Cal) : Cal := if 0 < c.h then { c with h := c.h - 1 } else calPrevDay { c with h := 23 }
/-- One second forward. -/
def calNext (c : Cal) : Cal :=
  if c.sec < 59 then { c with sec := c.sec + 1 } else if c.mi < 59 then { c with mi := c.mi + 1, sec := 0 } else calHourOn { c with mi := 0, sec := 0 }
/-- The end of the range (R427). -/
def calLast (c : Cal) : Bool := c == { y := 2199, mo := 12, d := 31, h := 23, mi := 59, sec := 59 }

/-! ## Alarms -/

/-- The bits of RTC_EVT (R438) of alarm `n`: fired, skipped. -/
def almBit (n : Nat) : Nat := 1 + 2 * n

/-- CLOCK reaches the Steward while it is supplied (R433). -/
def raiseClock (s : State) : State := if pdOn .stew s then raiseIrq stewCore 6 s else s

/-- Alarm `n` fires (R433, R434). -/
def almFire (n : Fin 2) (skipped : Bool) (s : State) : State :=
  let e := setBit s.rtc.evt (almBit n.val) true
  raiseClock { s with rtc := { s.rtc with evt := if skipped then setBit e (almBit n.val + 1) true else e, alm := s.rtc.alm.set n (s.rtc.alm[n].1, false) } }

/-- The comparison of the alarms with the binary count (R433); `old` is the count before an adjustment (R434). -/
def almCompare (old : Option (BitVec 40)) (s : State) : State := ([0, 1] : List (Fin 2)).foldl (fun s n =>
  let a := s.rtc.alm[n]
  if a.2 && a.1.toNat ≤ s.rtc.bin.toNat then almFire n (old.any fun o => o.toNat < a.1.toNat) s else s) s

/-! ## The second tick (R432) -/

/-- Step 1: the seconds of both paths, unless a negative shift holds them; the main path stops at the end of its range (R427). -/
def secondsAdvance (r : Rtc) : Rtc :=
  if r.shift.any (fun x => x.msb) then r
  else
    let c := calOf r.time r.date
    let n := if calLast c then c else calNext c
    let r := { r with time := calTime n, date := calDate n, bin := r.bin + 1 }
    if calLast n && (r.bvalid || !calLast c) then { r with bvalid := false, err := setBit r.err 3 true } else r

/-- Step 2: a pending shift sets the fraction (R430). -/
def shiftApply (r : Rtc) : Rtc := match r.shift with
  | none => r
  | some x =>
    let f : Nat := if x.msb then 2 ^ 32 - (-x).toNat * 2 ^ 17 else x.toNat * 2 ^ 17
    { r with shift := none, frac := BitVec.ofNat 32 f, evt := setBit r.evt 0 true }

/-- Step 3: a pending summer-time step (R431). -/
def stepApply (r : Rtc) : Rtc := match r.step with
  | none => r
  | some fwd =>
    let c := calOf r.time r.date
    let n := if fwd then calHourOn c else calHourBack c
    { r with step := none, time := calTime n, date := calDate n, bin := if fwd then r.bin + 3600 else r.bin - 3600, dst := fwd, evt := setBit r.evt 0 true }

/-- Step 4: the path comparison (R427). -/
def pathCompare (r : Rtc) : Rtc :=
  if calSeconds (calOf r.time r.date) ≠ r.bin.toNat then { r with bvalid := false, err := setBit r.err 2 true } else r

/-- What the fraction has gathered beyond the wrap: the new fraction and the accumulator. -/
def fracWrap (r : Rtc) : Rtc :=
  let f := r.frac.toNat + r.acc / rtcParts
  { r with frac := BitVec.ofNat 32 (f - 2 ^ 32), acc := r.acc % rtcParts }

/-- A second of operation with a feed present; the Steward updates the record of operating hours at each full hour (R448). An hour counts for
each feed that is present at its end. -/
def operatingSecond (s : State) : State :=
  let f := s.power.feed
  if !(f[(0 : Fin 2)].present || f[(1 : Fin 2)].present) then s
  else if s.power.hourSec + 1 < 3600 then { s with power := { s.power with hourSec := s.power.hourSec + 1 } }
  else
    let s : State := { s with power := { s.power with hourSec := 0 } }
    if !pdOn .stew s then s
    else
      let p := match readRecord 4 6 s with | .valid _ p => p | _ => List.replicate 16 0
      psRecord .hours (leBytes 4 (sliceNat 0 4 p + 1) ++ leBytes 4 (sliceNat 4 4 p + bitOf f[(0 : Fin 2)].present) ++
        leBytes 4 (sliceNat 8 4 p + bitOf f[(1 : Fin 2)].present) ++ p.drop 12) s

/-- The fraction wraps (R424). -/
def secondDue (s : State) : Bool := s.rtc.frac == 0xFFFFFFFF && rtcParts ≤ s.rtc.acc

/-- RTC_SECOND_TICK (R424, R432, R448). -/
def execRtcSecondTick (s : State) : Meaning := .next <|
  if !secondDue s then s else
  let r := shiftApply (secondsAdvance (fracWrap s.rtc))
  almCompare (if r.step.isSome then some r.bin else none) (operatingSecond { s with rtc := pathCompare (stepApply r) })

/-! ## Writes (R428 to R435) -/

/-- Who reaches the block: the Steward reads and writes, pair cores read, all others have no path. -/
def rtcShadowOf (m : Master) : Option (Fin 5) := match m with
  | .steward => some 0
  | .sp n => some (Fin.ofNat 5 (n.val + 1))
  | _ => none

/-- A write of the block by the Steward; of another master it completes with NO_PATH. -/
def rtcWrite (m : Master) (f : State → State) (s : State) : State :=
  if m = .steward then regAt .aon m f s else answer .noPath 0 (countAf m s)

/-- Sets a bit of RTC_ERR. -/
def rtcErr (b : Nat) (s : State) : State := { s with rtc := { s.rtc with err := setBit s.rtc.err b true } }

/-- LOAD (R429). -/
def rtcLoadOp (s : State) : State :=
  let r := s.rtc
  if calImpossible r.stime r.sdate then rtcErr 0 s
  else
    let c := calOf r.stime r.sdate
    almCompare (some r.bin) { s with rtc := { r with time := calTime c, date := calDate c, bin := BitVec.ofNat 40 (calSeconds c), frac := 0, acc := 0
                                                     bvalid := true, nvalid := true, lost := false, shift := none, step := none, dst := r.sdate.getLsbD 13 } }

/-- The refusal of a summer-time step (R431), as the bit of RTC_ERR: BADVAL, DSTSTATE or RANGE. -/
def dstRefusal (fwd : Bool) (s : State) : Option Nat :=
  let r := s.rtc
  let c := if fwd then calHourOn (calOf r.time r.date) else calHourBack (calOf r.time r.date)
  if r.step.isSome || !r.bvalid then some 1 else if r.dst == fwd then some 5 else if c.y < 2000 || 2199 < c.y then some 3 else none

/-- RTC_CTL.DST (R431, R438). -/
def rtcDstOp (v : Nat) (s : State) : State :=
  if v = 0 then s
  else if v = 3 then rtcErr 1 s
  else match dstRefusal (v == 1) s with
    | some b => rtcErr b s
    | none => { s with rtc := { s.rtc with step := some (v == 1) } }

/-- RTC_SHIFT (R430). -/
def rtcShiftOp (v : BitVec 16) (s : State) : State :=
  if v = 0 || v = 0x8000 then rtcErr 1 s
  else if s.rtc.shift.isSome then rtcErr 4 s
  else { s with rtc := { s.rtc with shift := some v } }

/-- RTC_ALMn_HI (R433): a write with ARM = 1 arms the alarm with the full target, and fires it at once if the target has been reached. -/
def rtcAlmHiOp (n : Fin 2) (v : Word) (s : State) : State :=
  let t : BitVec 40 := (v.setWidth 8).append (s.rtc.alm[n].1.setWidth 32)
  almCompare none { s with rtc := { s.rtc with alm := s.rtc.alm.set n (t, v.getLsbD 31) } }

/-- RTC_ALMn_LO. -/
def rtcAlmLoOp (n : Fin 2) (v : Word) (s : State) : State :=
  let t : BitVec 40 := (s.rtc.alm[n].1.extractLsb' 32 8).append v
  { s with rtc := { s.rtc with alm := s.rtc.alm.set n (t, s.rtc.alm[n].2) } }

/-- RTC_WAKE (R435, R438). -/
def rtcWakeOp (v : Word) (s : State) : State :=
  if 67107840 < field v 0 26 then rtcErr 1 s else { s with rtc := { s.rtc with wake := v.setWidth 26, wakeAcc := 0 } }

/-- RTC_LOAD. -/
def execRtcLoad (a : Access) (s : State) : Meaning := .next (rtcWrite a.master rtcLoadOp s)
/-- RTC_CTL_DST. -/
def execRtcCtlDst (a : Access) (v : Fin 4) (s : State) : Meaning := .next (rtcWrite a.master (rtcDstOp v.val) s)
/-- RTC_SHIFT_WRITE. -/
def execRtcShiftWrite (a : Access) (v : BitVec 16) (s : State) : Meaning := .next (rtcWrite a.master (rtcShiftOp v) s)
/-- RTC_ALARM_ARM. -/
def execRtcAlarmArm (a : Access) (n : Fin 2) (v : Word) (s : State) : Meaning := .next (rtcWrite a.master (rtcAlmHiOp n v) s)
/-- RTC_WAKE_WRITE. -/
def execRtcWakeWrite (a : Access) (v : Word) (s : State) : Meaning := .next (rtcWrite a.master (rtcWakeOp v) s)

/-- RTC_WAKE_EXPIRY (R435): the interval has passed. -/
def execRtcWakeExpiry (s : State) : Meaning := .next <|
  if s.rtc.wake = 0 || s.rtc.wakeAcc < s.rtc.wake.toNat * tickS then s
  else raiseClock { s with rtc := { s.rtc with evt := setBit s.rtc.evt 5 true, wakeAcc := s.rtc.wakeAcc - s.rtc.wake.toNat * tickS } }

/-! ## Coherent reads (R436) -/

/-- RTC_TIME with WDAY. -/
def rtcTimeWord (r : Rtc) : Word := r.time + pack [(calWday (calOf r.time r.date), 24)]
/-- RTC_STAT. -/
def rtcStat (r : Rtc) : Word :=
  pack [(bitOf r.bvalid, 0), (bitOf r.nvalid, 1), (bitOf r.lost, 2), (bitOf r.dst, 3), (bitOf r.shift.isSome, 4), (bitOf r.step.isSome, 5)]

/-- A read of a shadowed register begins a sequence where none is open. -/
def rtcBegin (i : Fin 5) (s : State) : State :=
  let x := s.rtc.shadow[i]
  if x.start.any fun t => since t s < tickMs then s
  else
    let r := s.rtc
    { s with rtc := { r with shadow := r.shadow.set i { time := rtcTimeWord r, date := r.date, frac := r.frac, bin := r.bin, stat := rtcStat r
                                                        start := some s.cyc.tb, count := x.count + 1 } } }

/-- The value of a shadowed register: TIME, DATE, FRAC, BIN_LO, BIN_HI, STAT. -/
def rtcShadowVal (r : Fin 6) (x : RtcShadow) : Word := match r with
  | 0 => x.time | 1 => x.date | 2 => x.frac | 3 => x.bin.setWidth 32 | 4 => x.bin.extractLsb' 32 8 |>.setWidth 32 | 5 => x.stat

/-- A read of a shadowed register. -/
def rtcShadowOp (m : Master) (r : Fin 6) (s : State) : State := match rtcShadowOf m with
  | none => answer .noPath 0 (countAf m s)
  | some i => regAt .aon m (fun s => let s := rtcBegin i s; answer .ok (rtcShadowVal r s.rtc.shadow[i]) s) s

/-- A read of RTC_SNAP: COHERENT, and the end of the sequence. -/
def rtcSnapOp (m : Master) (s : State) : State := match rtcShadowOf m with
  | none => answer .noPath 0 (countAf m s)
  | some i => regAt .aon m (fun s =>
      answer .ok (BitVec.ofNat 32 (bitOf (s.rtc.shadow[i].count ≤ 1)))
        { s with rtc := { s.rtc with shadow := s.rtc.shadow.set i { s.rtc.shadow[i] with start := none, count := 0 } } }) s

/-- RTC_SHADOW_READ. -/
def execRtcShadowRead (a : Access) (r : Fin 6) (s : State) : Meaning := .next (rtcShadowOp a.master r s)
/-- RTC_SNAP. -/
def execRtcSnap (a : Access) (s : State) : Meaning := .next (rtcSnapOp a.master s)
/-- RTC_SEQUENCE_TIMEOUT: 1 ms after the first read of a sequence. -/
def execRtcSequenceTimeout (a : Access) (s : State) : Meaning := .next <| match rtcShadowOf a.master with
  | none => s
  | some i =>
    if s.rtc.shadow[i].start.any fun t => elapsed 1 t s then { s with rtc := { s.rtc with shadow := s.rtc.shadow.set i { s.rtc.shadow[i] with start := none } } } else s

end Sys2Proof.Machine
end

