-- ==== Sys2Proof/Machine/Issue.lean ====
section
/-! DEFINITION. One slot of a Nerop core: the runtime's turn at a boundary, the fetch, the checker's comparison and the effect (R49, R57, R89, R90,
R284 to R293). -/

namespace Sys2Proof.Machine

/-- The runtime's release work at the boundary where core `c` stands (R49): the task switch, and in a lane with no execution due at this deadline its
end-of-cycle contribution, after the same instruction in every lane (R57, R294). -/
def runtimeTurn (c : CoreId) (s : State) : State :=
  let s := schedule c (modCore c (fun k => { k with resched := false }) s)
  match laneOf c with
  | some (l, g) => if laneDue (groupDom g) l s then s else eocGive l g s
  | none => s

/-- The runtime's release work on core `c`: at once, or at the first boundary that permits it. -/
def scheduleSoon (c : CoreId) (s : State) : State :=
  let s := modCore c (fun k => { k with resched := true }) s
  if switchDue c s then runtimeTurn c s else s

/-! ## Bits and bytes that a program may not write -/

/-- Byte `o` of a domain's memory holds, under a mask, a bit of %Q that carries a command (R122). -/
def markedByte (c : CoreId) (o : Nat) (mask : Byte) (s : State) : Bool := (coreImage c s).any fun im =>
  im.areas.qBase ≤ o && o < im.areas.qBase + im.areas.qLen &&
    (List.range 8).any fun b => mask.getLsbD b && bitMarked c (8 * (o - im.areas.qBase) + b) s

/-- Byte `o` of a lane's SRAM lies in the matrix region, or in the lock vector once the runtime has placed it (R124, R312). -/
def rmuByte (c : CoreId) (o : Nat) (s : State) : Bool := match laneOf c with
  | some (l, _) => (0x600000 ≤ o && o < 0x800000) || (s.rmus[l].lvec != 0 && s.rmus[l].lvec.toNat % 2 ^ 24 ≤ o && o < s.rmus[l].lvec.toNat % 2 ^ 24 + 512)
  | none => false

/-- An instruction on the words `rds` of its domain's memory with the masked writes `ws`: at U a write of a marked bit is the privilege trap (R122), and one
of the RMU's memory the access-fault trap (R124), in the order of R295. -/
def bitsAct (c : CoreId) (a : Arch) (e : Eff) (rds : List Nat) (ws : List WordWrite) (lost : Eff) (s : State) : Act :=
  if !a.priv && ws.any (fun w => w.any fun x => markedByte c x.1 x.2.1 s) then .trap (.priv 4)
  else if ws.any (fun w => w.any fun x => rmuByte c x.1 s) then .trap (.access 6)
  else .bits e ((domMem c).getD 0) rds ws lost

/-- No access: for instructions that make none. -/
def noAccess (_ : CoreId) (_ : MemOp) (_ : Word) (_ : Option Meet) (_ : Word) (s : State) : MemRes := .ok {} s

/-- The firmware reloads the line of its code in Steward SRAM that could not be fetched (R318). -/
def firmwareReload (c : CoreId) (s : State) : State := match locate (coreMaster c) s.cores[c].arch.ia.toNat s with
  | .sram 4 off => clearLine 4 (off / 64) s
  | _ => s

/-- One slot (R284 to R293): the runtime's release work where it takes the boundary; nothing while the core does not run or an interrupt is due; the fetch; in a pair the replay of
the Echo log and the comparison of what both cores ask for (R89, R90); then the effect. -/
def issueBy (access : CoreId → MemOp → Word → Option Meet → Word → State → MemRes) (i : Instr) (h : Hdr) (g : Arch → Bool)
    (body : Arch → State → Act) (s0 : State) : State :=
  let c := h.core
  let s := leaveWait c s0
  if switchDue c s then runtimeTurn c s
  else if !coreRuns c s || (irqReady c s).isSome then s
  else
    let s := modCore c (fun k => { k with step := false }) s
    let word := BitVec.ofNat 32 ((encodeNerop i).getD 0)
    let z := fetchTrap c s
    let s := z.2
    match z.1 with
    | some (t, true) => (match laneOf c with | some (l, _) => laneMemErr (laneMem l) s | none => takeTrap c t 0 (firmwareReload c s))
    | ft =>
      let pick := fun (a : Arch) => slotPick (ft.map Prod.fst) i g body a s
      let k := s.cores[c]
      match k.chk, pairOf c with
      | some b, some n =>
        let r := replay s.pairs[n].log b
        let s := modPair n (fun p => { p with log := r.1 }) (modCore c (fun k => { k with chk := some r.2.1 }) s)
        if !r.2.2 then pairFaultKind n 5 k.arch.ia s
        else
          let x : Act := pick k.arch
          let y : Act := pick r.2.1
          if x = y then brkCheck n (perform access h word x s) else pairFaultKind n (diffKind x y) k.arch.ia s
      | some b, none => if pick k.arch = pick b then perform access h word (pick k.arch) s else stopCore c s
      | none, _ => perform access h word (pick k.arch) s

/-- One slot of an instruction that makes no access through the fabric. -/
def issue (i : Instr) (h : Hdr) (body : Arch → State → Act) (s : State) : Meaning :=
  .next (issueBy noAccess i h (fun a => guardOn a h) body s)

/-- An instruction that only computes. -/
def compute (i : Instr) (h : Hdr) (f : Arch → Eff) (s : State) : Meaning := issue i h (fun a _ => .done (f a)) s

end Sys2Proof.Machine
end

