-- ==== Sys2Proof/Machine/Cycle.lean ====
section
/-! DEFINITION. The control cycle: T_k, input ready, agreement, releases, completions, the output deadline, and the cycle timer's shadow reads
(R29 to R57, R91 to R95, R206). -/

namespace Sys2Proof.Machine

/-! ## T_k -/

/-- The cycle counter and its instants at T_k (R31, R32); RT_OVER shows the cycle that has ended (R183), whose rings are judged (R200). -/
def cycleTurn (s : State) : State :=
  let late := s.ring.train.any fun t => t.late
  let s := modRing (fun r => { r with lastTrain := r.train.map (·.cyc), relayed := [] }) (evalRings s)
  modRtm (fun m => { m with rtOver := late && s.ring.dim != .off, refOff := none })
    { s with cyc := { s.cyc with lastRt := returnTime s, count := s.cyc.count + 1, tk := nextTk s, ir := none, irForced := false, dl := false, t0 := none } }

/-- RTOFS is fixed at the first T_0 (R189): the time of a valid source, otherwise the time base itself; in a module that follows a primary, its first accepted
lead coach fixes it (R195). -/
def ringTimeFix (s : State) : State :=
  if followsPrimary s then s else
  modRtm (fun m => { m with rtofs := some (m.rtofs.getD (((m.ranks.toList.filterMap (·.now)).head?).getD 0)) }) s

/-- The train of cycle k: launched by an originator, awaited by a relay (R156, R160, R211); without one the freight ends (R175, R177). -/
def trainAt (orig : Bool) (s : State) : State :=
  if orig && s.ring.dim != .off && pdOn .ring s then launchTrain (frtWithdrawnEnd s)
  else
    let s := frtEndAll .link s
    modRing (fun r => { r with train := if paired s && s.ring.dim != .off then some (.empty s.cyc.count r.on) else none }) s

/-- After the last train of an entry to STOP: the cycle ends, CFGLOCK is 0, and the freight has one period left (R477). -/
def lastTrainLeft (s : State) : State :=
  if s.arb.lastTrain then
    modHsb (fun h => { h with orig := false })
      { s with arb := { s.arb with lastTrain := false, frtLinkDue := some (s.cyc.tb + BitVec.ofNat 64 (periodTicks s)) }, cyc := { s.cyc with running := false } }
  else s

/-- A reintegration counts the cycles since its bulk copy (R106, R107). -/
def reintCount (s : State) : State := modReint (fun r => { r with since := if r.phase = 4 || r.phase = 5 then r.since + 1 else r.since }) s

/-- A change counts the cycles since its bulk pass or since its revert was recorded (R385, R391). -/
def changeCount (s : State) : State := { s with doms := s.doms.map fun x =>
  if x.change.bulkDone || x.change.wantRevert then { x with change := { x.change with cycles := x.change.cycles + 1 } } else x }

/-- At T_k a group's DUPLEX flag for this cycle is taken (R101), and its safe telegrams stand ready with the numbers after those that leave now (R103;
log entry 70). -/
def groupAtTk (g : Fin 2) (s : State) : State :=
  let s := modGroup g (fun v => { v with dupAt := v.duplex }) s
  if inSafe s || !s.doms[groupDom g].run then s
  else readySafe g ((memberLanes g s).headD 0) (fun k => ((s.voter.grp[g].tels[k]?).map (·.seq)).getD 0) s

/-- What takes effect at a train boundary before its train: the recorded change of RING_EN and the recorded disables of Logic Solvers (R178, R377). -/
def atBoundaryEffects (s : State) : State :=
  let s := if s.ring.enPend then ringEnEffect s else s
  ([3, 4] : List (Fin 5)).foldl (fun s i => lsDisableTake i s) s

/-- CYCLE_START (R39). -/
def execCycleStart (s : State) : Meaning := .next <|
  if !tkDue s then s
  else
    let s := atBoundaryEffects s
    let s := changeCount (reintCount (ringTimeFix (cycleTurn s)))
    let z := hsbCycle s
    let s := trainAt z.1 z.2
    let s := allGroups.foldl (fun s g => groupAtTk g s) s
    let s : State := { s with arb := { s.arb with safeTrain := false } }
    lastTrainLeft (allFg.foldl (fun s g => fieldAtTk g s.cyc.tk s) s)

/-! ## IR_k -/

/-- IR_k falls at `t` (R37): stations, rings, freight, ranks and rate are judged, and each group in RUN receives its lanes' samples (R91). -/
def inputsReady (t : Long) (forced : Bool) (s : State) : State :=
  let s : State := { s with cyc := { s.cyc with ir := some t, irForced := forced, err := if forced then setBit s.cyc.err 2 true else s.cyc.err } }
  let s := hsbIntact (steer (evalRanks (evalFreight (evalStations s))))
  let s := if s.cyc.running then s else evalRings s
  let s := match s.ring.train with | some t => compareAll t s | none => s
  allGroups.foldl (fun s g => if s.doms[groupDom g].run then latchLanes g s else s) s

/-- A cycle waits for its input ready. -/
def irAwaited (s : State) : Bool := s.cyc.ir.isNone && (s.cyc.running || s.ring.train.isSome)

/-- No coach is awaited: the ring is OFF, or no train is in flight. -/
def nothingAwaited (s : State) : Bool := s.ring.dim == .off || s.ring.train.isNone

/-- The return limit of the running cycle (R33). -/
def returnLimit (s : State) : Long := s.cyc.tk + BitVec.ofNat 64 (s.cyc.retlim.toNat * tick100)

/-- IR_k where the return limit does not come first (R37): 2 µs after T_k, or later when the last coach had a valid copy. -/
def readyAt (s : State) : Option Long :=
  let floor := s.cyc.tk + 2500
  if nothingAwaited s then some floor
  else ((s.ring.train.bind (·.validAt)).map fun t => if t.toNat < floor.toNat then floor else t).filter fun t => t.toNat ≤ (returnLimit s).toNat

/-- INPUT_READY (R37): every coach has a valid copy, never earlier than T_k + 2 µs. -/
def execInputReady (s : State) : Meaning := .next <|
  match readyAt s with
  | some t => if irAwaited s && t.toNat ≤ s.cyc.tb.toNat then inputsReady t false s else s
  | none => s

/-- RETURN_LIMIT (R37): the return limit comes first. -/
def execReturnLimit (s : State) : Meaning := .next <|
  if irAwaited s && (readyAt s).isNone && (returnLimit s).toNat ≤ s.cyc.tb.toNat then inputsReady (returnLimit s) true s else s

/-! ## Releases -/

/-- `n` ticks have passed since IR_k, and D_k has not come. -/
def afterReady (n : Nat) (s : State) : Bool := match s.cyc.ir with
  | some t => t.toNat + n ≤ s.cyc.tb.toNat && !s.cyc.dl
  | none => false

/-- The release instant of a pair has come, and the cycle has been neither released nor skipped (R39). -/
def pairReleaseDue (n : Fin 4) (s : State) : Bool :=
  s.doms[pairDom n].run && s.arb.oper != .hold && afterReady tick100 s && !noRelease s && s.doms[pairDom n].relAt != some s.cyc.count

/-- TASK_RELEASE (R39, R44 to R51): at IR_k + 0.1 µs a pair latches its image and its due tasks are released, or the cycle is skipped. -/
def execTaskRelease (n : Fin 4) (s : State) : Meaning := .next <|
  let d := pairDom n
  if !pairReleaseDue n s then s
  else scheduleSoon (pairCore n) (runtimeService d (if s.doms[d].skipNext then skipCycle d s else releaseDomain d (latchInputs d s)))

/-- The input bytes of class-0 coaches whose station is LOST: their samples are missing (R91). -/
def missingAt (im : Image) (s : State) (i : Nat) : Bool := im.coachIn.any fun x =>
  ((coachesOf s).zip s.ring.stations).any fun c => c.1.addr == x.1 && c.1.cls = 0 && c.2.status.getLsbD 1 && x.2 ≤ i && i < x.2 + c.1.ilen

/-- One agreed byte (R92, R93), from the samples of the member lanes `ms`, of which those of `ps` are present: its value, the lanes in the minority, and the
number of bits given their safe value. -/
def agreeByte (ms ps : List (Fin 3)) (safe : Byte) (v : Fin 3 → Byte) : Byte × List (Fin 3) × Nat :=
  let bit (j : Nat) : Bool × Bool :=
    let ones := (ps.filter fun l => (v l).getLsbD j).length
    if 3 ≤ ps.length then (decide (ones ≥ 2), false)
    else if ps.length = 2 && (ones = 0 || ones = 2) then (ones == 2, false)
    else (safe.getLsbD j, true)
  let b : Byte := (List.range 8).foldl (fun b j => setBit b j (bit j).1) 0
  (b, ms.filter fun l => !ps.contains l || v l != b, ((List.range 8).filter fun j => (bit j).2).length)

/-- The member lanes whose sample of byte `i` of %I is present (R91). -/
def sampled (g : Fin 2) (im : Image) (i : Nat) (s : State) : List (Fin 3) :=
  if missingAt im s i then []
  else (memberLanes g s).filter fun l => !(s.voter.grp[g].lost[l].any fun r => r.1 ≤ i && i < r.1 + r.2)

/-- The bytes of %I that an image declares for agreement. -/
def agreeBytes (im : Image) : List Nat := im.agree.flatMap fun r => (List.range r.2).map fun i => r.1 + i

/-- Input agreement of a group (R92 to R95): the agreed image is written to every member and candidate lane. In DUPLEX no lane is in the minority
(R95). -/
def agree (g : Fin 2) (s : State) : State := match s.doms[groupDom g].image with
  | none => s
  | some im =>
    let ms := memberLanes g s
    let triplex := groupMode s.voter.grp[g] == 2
    let base := im.areas.iBase
    let res := (agreeBytes im).map fun i => (i, agreeByte ms (sampled g im i s) (im.safe.getD i 0) fun l => readByte (laneMem l) (base + i) s)
    let minor := if triplex then allLanes.filter fun l => res.any fun r => r.2.2.1.contains l else []
    let subs := (res.map fun r => r.2.2.2).sum
    let s := res.foldl (fun s r => domWrite (groupDom g) (base + r.1) [r.2.1] s) s
    let s := modGroup g (fun v => { v with mmkind := if minor.isEmpty then v.mmkind else 4
                                           sub := incBy v.sub subs
                                           agr := if triplex then v.agr.mapIdx fun i x => if minor.contains (Fin.ofNat 3 i) then x + 1 else 0 else .replicate 3 0 }) s
    minor.foldl (fun s l => modLane l (fun x => { x with vagr := inc x.vagr }) s) s

/-- A lane with no execution due at this deadline gives its end-of-cycle contribution (R57). -/
def laneEoc (g : Fin 2) (l : Fin 3) (s : State) : State := if laneDue (groupDom g) l s then s else eocGive l g (ixlFinish g s)

/-- A_k − IR_k in ticks (R94). -/
def agreeTicks (g : Fin 2) (s : State) : Nat := match s.doms[groupDom g].image with
  | some im => 1250 + (agreeBytes im).length
  | none => 0

/-- A_k of a group has come, and it has not been taken (R39). -/
def agreementDue (g : Fin 2) (s : State) : Bool :=
  s.doms[groupDom g].run && afterReady (agreeTicks g s) s && !noRelease s && s.voter.grp[g].relAt != some s.cyc.count && 2 ≤ (memberLanes g s).length

/-- AGREEMENT_END (R39, R94): at A_k a clean lane becomes a candidate, the agreed image is written, the interlocking runtime takes steps 1 to 5, due
tasks are released. In a lane with none due the runtime takes the vote point in the handler of RELEASE, at the boundary where it switches (R57). -/
def execAgreementEnd (g : Fin 2) (s : State) : Meaning := .next <|
  let d := groupDom g
  if !agreementDue g s then s
  else
    let s := runtimeService d (releaseDomain d (ixlReceive g (agree g (startCandidate g s))))
    let s := if (runLanes g s).any fun l => !laneDue d l s then ixlFinish g s else s
    (runLanes g s).foldl (fun s l => scheduleSoon (laneCore l g) s) s

/-! ## Completions -/

/-- The AUTO check-ins of a task at its completion (R413). -/
def autoCheckins (c : CoreId) (t : TaskDecl) (s : State) : State := t.auto.foldl (fun s p => checkinOp c p s) s

/-- The core's part of a completion: the execution is over, and the runtime switches. -/
def coreComplete (c : CoreId) (t : Fin 16) (s : State) : State :=
  schedule c (modCore c (fun k => { k with task := none, lsWait := none, saved := k.saved.filter fun y => y.task != t }) s)

/-- A pair's task completes and commits (R39, R40). -/
def pairComplete (n : Fin 4) (im : Image) (t : Fin 16) (s : State) : State :=
  let d := pairDom n
  let img := commitBytes im 0 t.val s.doms[d].commit s
  let s := modDom d (fun x => { x with commit := img, commits := x.commits ++ [(x.tasks[t].deadline, img)], tasks := x.tasks.set t { x.tasks[t] with open_ := 0 } }) s
  let s := coreComplete (pairCore n) t s
  if noRelease s then pairFinish n s else s

/-- A lane completes its execution of a group's task: it commits, and at its last due completion it contributes (R57). -/
def laneComplete (l : Fin 3) (g : Fin 2) (im : Image) (t : Fin 16) (s : State) : State :=
  let d := groupDom g
  let s := modGroup g (fun v => { v with commit := v.commit.set l (commitBytes im (laneMem l) t.val v.commit[l] s) }) s
  let due := s.doms[d].tasks[t].deadline ≤ s.cyc.count.toNat
  let s := modDom d (fun x => { x with tasks := x.tasks.set t { x.tasks[t] with open_ := setBit x.tasks[t].open_ l.val false } }) s
  let s := coreComplete (laneCore l g) t s
  if due then laneEoc g l s else s

/-- TASK_COMPLETE: the task that core `c` runs completes; a pair's later than 10 ms into a shutdown sequence is abandoned (R59). -/
def execTaskComplete (c : CoreId) (t : Fin 16) (s : State) : Meaning := .next <|
  match domOf c with
  | none => s
  | some d =>
    let k := s.cores[c]
    match s.doms[d].image with
    | none => s
    | some im =>
      if k.task ≠ some t || k.stopped || !execOpen c t.val s then s
      else
        let s := match im.tasks[t.val]? with | some x => autoCheckins c x s | none => s
        match pairOf c, laneOf c with
        | some n, _ => if shutdownLate s then pairAbandon n s else pairComplete n im t s
        | none, some (l, g) => laneComplete l g im t s
        | none, none => s

/-! ## D_k -/

/-- A pair is overrunning (R52). -/
def overrunning (d : DomId) (s : State) : Bool := s.doms[d].tasks.toList.any fun t => t.active && t.deadline ≤ s.cyc.count.toNat

/-- The output image as it stood when the last task due by D_k completed (R40): what a pair publishes, and the commits that stay for later deadlines. -/
def publishCommit (count : Nat) (x : Dom) : Dom :=
  let due := x.commits.filter fun c => c.1 ≤ count
  { x with published := (due.getLast?.map Prod.snd).getD x.published, commits := (x.commits.reverse.takeWhile fun c => !(c.1 ≤ count)).reverse }

/-- A pair at its output deadline (R40, R52, R53, R58, R90). -/
def pairDeadline (n : Fin 4) (s : State) : State :=
  let d := pairDom n
  let x := s.doms[d]
  if x.stopDue then modDom d (fun x => { x with published := x.commit, commits := [], stopDue := false, pstop := true, rptSent := false }) s
  else if !x.run then s
  else if s.arb.oper == .hold then modDom d (fun x => { x with ovrRun := 0, skipNext := false }) s
  else if overrunning d s then
    hsbFault d (modDom d (fun x => { x with ovrRun := inc8 x.ovrRun, ovrTotal := inc x.ovrTotal, ovrSince := inc x.ovrSince, rptSent := true, skipNext := true }) s)
  else sealArea n (modDom d (fun x => { publishCommit s.cyc.count.toNat x with ovrRun := 0, rptSent := false, pstop := false }) s)

/-- The DEADLINE source (R296) of every domain in RUN. -/
def raiseDeadline (s : State) : State :=
  let s := allPairs.foldl (fun s n => if s.doms[pairDom n].run then raiseIrq (pairCore n) 1 s else s) s
  allGroups.foldl (fun s g => if s.doms[groupDom g].run then raiseGroup g 1 s else s) s

/-- A group's voted image goes to train k+1 (R39). -/
def groupPublish (g : Fin 2) (s : State) : State :=
  if s.doms[groupDom g].run && s.voter.grp[g].lastEoc && !inSafe s then modDom (groupDom g) (fun x => { x with published := x.voted }) s else s

/-- A domain has still to be released in this cycle, so that its D_k follows (R39); one that restarted within the cycle need not be. -/
def releaseAwaited (d : DomId) (s : State) : Bool := match domPair d with
  | some n => pairReleaseDue n s && s.doms[d].relAt.isSome
  | none => agreementDue (Fin.ofNat 2 (d.val - 4)) s && s.voter.grp[(Fin.ofNat 2 (d.val - 4) : Fin 2)].relAt.isSome

/-- D_k has come (R33): every domain has been released, and the deadline has not been taken. -/
def deadlineDue (s : State) : Bool :=
  s.cyc.running && !s.cyc.dl && deadlineCome s && !allDoms.any fun d => releaseAwaited d s

/-- OUTPUT_DEADLINE (R39): pairs publish or overrun, groups' vote points complete with what has arrived, the lease is renewed. -/
def execOutputDeadline (s : State) : Meaning := .next <|
  if !deadlineDue s then s
  else
    let s : State := { s with cyc := { s.cyc with dl := true } }
    if quiet s then s
    else
      let s := allPairs.foldl (fun s n => pairDeadline n s) s
      let s := allGroups.foldl (fun s g => groupPublish g (eocDeadline g s)) s
      hsbDeadline (raiseDeadline s)

/-- LIMn of CYC_OVRLIM. -/
def ovrLimit (n : Fin 4) (s : State) : Nat := field s.cyc.ovrlim (8 * n.val) 8

/-- OVERRUN_LIMIT_STOP (R54): RUNn has reached LIMn at the deadline; the pair stops and its fail values are published at the same deadline without
REPEAT. -/
def execOverrunLimitStop (n : Fin 4) (s : State) : Meaning := .next <|
  let d := pairDom n
  if !s.doms[d].run || !s.cyc.dl || s.doms[d].ovrRun.toNat < ovrLimit n s then s
  else modDom d (fun x => { x with published := x.commit, stopDue := false, pstop := true, rptSent := false }) (pairStop n none s)

/-! ## Shadow reads and CLROVR (R36, R206) -/

/-- A read of CYC_COUNT_LO copies the high half into the shadow. -/
def cycCountLo (m : Master) (s : State) : State :=
  regAt .vote m (fun s => answer .ok (s.cyc.count.setWidth 32) { s with cyc := { s.cyc with countSh := s.cyc.count.extractLsb' 32 32 } }) s
/-- A read of CYC_TB_LO. -/
def cycTbLo (m : Master) (s : State) : State :=
  regAt .vote m (fun s => answer .ok (s.cyc.tb.setWidth 32) { s with cyc := { s.cyc with tbSh := s.cyc.tb.extractLsb' 32 32 } }) s
/-- A read of RTM_OFS_LO. -/
def rtmOfsLo (m : Master) (s : State) : State :=
  regAt .vote m (fun s => let o := s.rtm.rtofs.getD 0; answer .ok (o.setWidth 32) { s with rtm := { s.rtm with ofsSh := o.extractLsb' 32 32 } }) s
/-- CYC_CTL.CLROVR clears the overrun totals of the pairs. -/
def clrovrOp (s : State) : State := allPairs.foldl (fun s n => modDom (pairDom n) (fun x => { x with ovrTotal := 0 }) s) s

/-- CYC_COUNT_LO_READ. -/
def execCycCountLoRead (a : Access) (s : State) : Meaning := .next (cycCountLo a.master s)
/-- CYC_TB_LO_READ. -/
def execCycTbLoRead (a : Access) (s : State) : Meaning := .next (cycTbLo a.master s)
/-- RTM_OFS_LO_READ. -/
def execRtmOfsLoRead (a : Access) (s : State) : Meaning := .next (rtmOfsLo a.master s)
/-- CLROVR, written by the Steward. -/
def execClrovr (a : Access) (s : State) : Meaning := .next <|
  if a.master = .steward then regAt .vote a.master clrovrOp s else answer .noPath 0 (countAf a.master s)

end Sys2Proof.Machine
end

