-- ==== Sys2Proof/Machine/Memcodes.lean ====
section
/-! DEFINITION. The scrubber and the entry of banks to retention (R320, R321, R325 to R327). -/

namespace Sys2Proof.Machine

/-! ## The scrubber -/

/-- The on-chip memories in the order of the pass (R320): memory code and number of 64-byte lines (R305). -/
def scrubMems : List (Nat × Nat) := [(0, 524288), (1, 262144), (2, 262144), (3, 262144), (4, 32768), (5, 65536)]

/-- The lines of one pass. -/
def scrubTotal : Nat := 1409024

/-- The line at a position of the pass: memory code and line. -/
def scrubAt : List (Nat × Nat) → Nat → Nat × Nat
  | [], n => (0, n)
  | (code, len) :: ms, n => if n < len then (code, n) else scrubAt ms (n - len)

/-- The scrubber skips a memory whose domain is off and a lane under reintegration before its join (R320). -/
def scrubSkips (code : Nat) (s : State) : Bool :=
  let r := s.voter.reint
  if code = 0 then !pdOn .std s
  else if code = 4 then !pdOn .stew s
  else if code = 5 then !pdOn .grotto s
  else !pdOn (lanePd (Fin.ofNat 3 (code - 1))) s || (r.phase ≠ 0 && r.lane.val == code && r.joined == 0)

/-- The scrubber's read of a line: both codes, corrections written back and counted only; an error in a lane excludes it, elsewhere the line is
poisoned and logged (R318 to R320). -/
def scrubRead (code line : Nat) (s : State) : State :=
  let z := checkLine 0xFF code line s
  match z.1 with
  | none => z.2.2
  | some _ => if 1 ≤ code ∧ code ≤ 3 then laneMemErr code z.2.2 else addLog .poisoned code line z.2.2

/-- SCRUB_LINE (R320): the line at the pass's position; the pass that ends is counted. A bank in retention is woken, and the line is read once it is awake
(R28). -/
def execScrubLine (s : State) : Meaning := .next <|
  let at_ := scrubAt scrubMems s.memRegs.scrub
  match (bankOf (.sram at_.1 (64 * at_.2))).filter fun b => !scrubSkips at_.1 s && s.banks[b] != .active with
  | some b => wakeBank b s
  | none =>
  let s := if scrubSkips at_.1 s then s else scrubRead at_.1 at_.2 s
  let r := s.memRegs
  if r.scrub + 1 < scrubTotal then { s with memRegs := { r with scrub := r.scrub + 1 } }
  else { s with memRegs := { r with scrub := 0, passes := inc16 r.passes } }

/-- Lines of 128 bytes of the external store (R328). -/
def extLines : Nat := 2 ^ 27

/-- EXT_SCRUB_LINE (R321): a line that the code corrects is written back corrected. -/
def execExtScrubLine (s : State) : Meaning := .next <|
  if !pdOn .mem s then s
  else
    let line := s.memRegs.xscrub
    let z := extDecode 0xFF line s
    let s := if z.1 then extClear line z.2 else addLog .poisoned 6 line z.2
    { s with memRegs := { s.memRegs with xscrub := (line + 1) % extLines } }

/-! ## Retention -/

/-- A core's access to a bank is held. -/
def holdsBank (b : Fin 33) (k : Core) : Bool := match k.hold with
  | .slot k => k == b
  | .bank _ a _ _ _ => if b.val = 32 then decide (0x03800000 ≤ a.toNat) && decide (a.toNat < 0x03C00000) else a.toNat / 2 ^ 20 == b.val
  | _ => false

/-- Some core's access to a bank is held. -/
def bankWanted (b : Fin 33) (s : State) : Bool := s.cores.toList.any (holdsBank b) || s.memRegs.held.any fun h => h.bank == b

/-- A bank is named in the BANKS of a loaded claim (R81). -/
def bankClaimed (b : Fin 32) (s : State) : Bool :=
  ([3, 4] : List (Fin 5)).any fun i => s.solvers[i].q[0].img.any fun h => h.banks.getLsbD b.val

/-- A range of bytes of standard SRAM touches a bank. -/
def touchesBank (b : Fin 32) (a n : Nat) : Bool := n ≠ 0 && decide (a / 2 ^ 20 ≤ b.val) && decide (b.val ≤ (a + n - 1) / 2 ^ 20)

/-- A bank lies in a running pair's active code region or process image (R326). -/
def bankInUse (b : Fin 32) (s : State) : Bool := allPairs.any fun n =>
  let d := s.doms[pairDom n]
  match d.image with
  | none => false
  | some im =>
    let p := im.areas
    d.run && (touchesBank b ((if d.bankB then 0x800000 else 0) + regionAt (pairDom n) s) (d.region * 65536) ||
      touchesBank b p.iBase p.iLen || touchesBank b p.qBase p.qLen || touchesBank b p.mBase p.mLen)

/-- BANK_RETENTION_ENTRY (R325, R326): the bank has been without an access for 100 µs. -/
def execBankRetentionEntry (b : Fin 32) (s : State) : Meaning := .next <|
  let k : Fin 33 := Fin.ofNat 33 b.val
  if pdOn .std s && s.memRegs.reten.getLsbD b.val && s.banks[k] == .active && !bankClaimed b s && !bankInUse b s && !bankWanted k s then
    { s with banks := s.banks.set k .retention }
  else s

/-- GROTTO_RETENTION_ENTRY (R325, R327): the Grotto has been without an access for 1 ms. -/
def execGrottoRetentionEntry (s : State) : Meaning := .next <|
  if pdOn .grotto s && s.banks[(32 : Fin 33)] == .active && !bankWanted 32 s then { s with banks := s.banks.set 32 .retention } else s

end Sys2Proof.Machine
end

