-- ==== Sys2Proof/Machine/NeropAlu.lean ====
section
/-! DEFINITION. Arithmetic, compares, multiply-accumulate, extraction and immediates (R245 to R249, R251 to R257). -/

namespace Sys2Proof.Machine

/-! ## ALU group (R246) -/

/-- ADD (R246): the sum modulo 2³². -/
def execAdd (h : Hdr) (rd : Reg) (rs1 : Reg) (rs2 : Reg) (s : State) : Meaning :=
  compute (.add h rd rs1 rs2) h (fun a => outG rd (a.reg rs1 + a.reg rs2) 1) s

/-- SUB (R246). -/
def execSub (h : Hdr) (rd : Reg) (rs1 : Reg) (rs2 : Reg) (s : State) : Meaning :=
  compute (.sub h rd rs1 rs2) h (fun a => outG rd (a.reg rs1 - a.reg rs2) 1) s

/-- ADD.S (R246): the signed sum, clamped; SATF when it clamps. -/
def execAddS (h : Hdr) (rd : Reg) (rs1 : Reg) (rs2 : Reg) (s : State) : Meaning :=
  compute (.addS h rd rs1 rs2) h (fun a => let r := sat32 ((a.reg rs1).toInt + (a.reg rs2).toInt); { outG rd r.1 1 with satf := r.2 }) s

/-- SUB.S (R246). -/
def execSubS (h : Hdr) (rd : Reg) (rs1 : Reg) (rs2 : Reg) (s : State) : Meaning :=
  compute (.subS h rd rs1 rs2) h (fun a => let r := sat32 ((a.reg rs1).toInt - (a.reg rs2).toInt); { outG rd r.1 1 with satf := r.2 }) s

/-- AND (R246). -/
def execAnd (h : Hdr) (rd : Reg) (rs1 : Reg) (rs2 : Reg) (s : State) : Meaning :=
  compute (.and h rd rs1 rs2) h (fun a => outG rd (a.reg rs1 &&& a.reg rs2) 1) s

/-- OR (R246). -/
def execOr (h : Hdr) (rd : Reg) (rs1 : Reg) (rs2 : Reg) (s : State) : Meaning :=
  compute (.or h rd rs1 rs2) h (fun a => outG rd (a.reg rs1 ||| a.reg rs2) 1) s

/-- XOR (R246). -/
def execXor (h : Hdr) (rd : Reg) (rs1 : Reg) (rs2 : Reg) (s : State) : Meaning :=
  compute (.xor h rd rs1 rs2) h (fun a => outG rd (a.reg rs1 ^^^ a.reg rs2) 1) s

/-- ANDN (R246). -/
def execAndn (h : Hdr) (rd : Reg) (rs1 : Reg) (rs2 : Reg) (s : State) : Meaning :=
  compute (.andn h rd rs1 rs2) h (fun a => outG rd (a.reg rs1 &&& ~~~(a.reg rs2)) 1) s

/-- SLL by g[RS2][4:0] (R246). -/
def execSll (h : Hdr) (rd : Reg) (rs1 : Reg) (rs2 : Reg) (s : State) : Meaning :=
  compute (.sll h rd rs1 rs2) h (fun a => outG rd ((a.reg rs1) <<< ((a.reg rs2).toNat % 32)) 1) s

/-- SRL (R246). -/
def execSrl (h : Hdr) (rd : Reg) (rs1 : Reg) (rs2 : Reg) (s : State) : Meaning :=
  compute (.srl h rd rs1 rs2) h (fun a => outG rd ((a.reg rs1) >>> ((a.reg rs2).toNat % 32)) 1) s

/-- SRA (R246). -/
def execSra (h : Hdr) (rd : Reg) (rs1 : Reg) (rs2 : Reg) (s : State) : Meaning :=
  compute (.sra h rd rs1 rs2) h (fun a => outG rd ((a.reg rs1).sshiftRight ((a.reg rs2).toNat % 32)) 1) s

/-- ROR (R246). -/
def execRor (h : Hdr) (rd : Reg) (rs1 : Reg) (rs2 : Reg) (s : State) : Meaning :=
  compute (.ror h rd rs1 rs2) h (fun a => outG rd ((a.reg rs1).rotateRight ((a.reg rs2).toNat % 32)) 1) s

/-- MIN, signed (R246). -/
def execMin (h : Hdr) (rd : Reg) (rs1 : Reg) (rs2 : Reg) (s : State) : Meaning :=
  compute (.min h rd rs1 rs2) h (fun a => outG rd (if (a.reg rs1).toInt ≤ (a.reg rs2).toInt then a.reg rs1 else a.reg rs2) 1) s

/-- MAX, signed (R246). -/
def execMax (h : Hdr) (rd : Reg) (rs1 : Reg) (rs2 : Reg) (s : State) : Meaning :=
  compute (.max h rd rs1 rs2) h (fun a => outG rd (if (a.reg rs1).toInt ≤ (a.reg rs2).toInt then a.reg rs2 else a.reg rs1) 1) s

/-- MINU (R246). -/
def execMinu (h : Hdr) (rd : Reg) (rs1 : Reg) (rs2 : Reg) (s : State) : Meaning :=
  compute (.minu h rd rs1 rs2) h (fun a => outG rd (if (a.reg rs1).toNat ≤ (a.reg rs2).toNat then a.reg rs1 else a.reg rs2) 1) s

/-- MAXU (R246). -/
def execMaxu (h : Hdr) (rd : Reg) (rs1 : Reg) (rs2 : Reg) (s : State) : Meaning :=
  compute (.maxu h rd rs1 rs2) h (fun a => outG rd (if (a.reg rs1).toNat ≤ (a.reg rs2).toNat then a.reg rs2 else a.reg rs1) 1) s

/-- ABS.S (R246): −2³¹ gives 0x7FFF_FFFF and sets SATF. -/
def execAbsS (h : Hdr) (rd : Reg) (rs1 : Reg) (s : State) : Meaning :=
  compute (.absS h rd rs1) h (fun a => let r := sat32 ((a.reg rs1).toInt.natAbs : Int); { outG rd r.1 1 with satf := r.2 }) s

/-- NEG.S (R246). -/
def execNegS (h : Hdr) (rd : Reg) (rs1 : Reg) (s : State) : Meaning :=
  compute (.negS h rd rs1) h (fun a => let r := sat32 (-(a.reg rs1).toInt); { outG rd r.1 1 with satf := r.2 }) s

/-- ADD2.S (R246): two 16-bit lanes, each clamped. -/
def execAdd2S (h : Hdr) (rd : Reg) (rs1 : Reg) (rs2 : Reg) (s : State) : Meaning :=
  compute (.add2S h rd rs1 rs2) h (fun a => let r := lanes16 (· + ·) (a.reg rs1) (a.reg rs2); { outG rd r.1 1 with satf := r.2 }) s

/-- SUB2.S (R246). -/
def execSub2S (h : Hdr) (rd : Reg) (rs1 : Reg) (rs2 : Reg) (s : State) : Meaning :=
  compute (.sub2S h rd rs1 rs2) h (fun a => let r := lanes16 (· - ·) (a.reg rs1) (a.reg rs2); { outG rd r.1 1 with satf := r.2 }) s

/-- CLZ (R246): leading zero bits, 0 to 32. -/
def execClz (h : Hdr) (rd : Reg) (rs1 : Reg) (s : State) : Meaning :=
  compute (.clz h rd rs1) h (fun a => outG rd (if a.reg rs1 = 0 then 32 else BitVec.ofNat 32 (31 - (a.reg rs1).toNat.log2)) 1) s

/-- POPC (R246): set bits. -/
def execPopc (h : Hdr) (rd : Reg) (rs1 : Reg) (s : State) : Meaning :=
  compute (.popc h rd rs1) h (fun a => outG rd (BitVec.ofNat 32 (Sys2Proof.Machine.popc 32 (a.reg rs1).toNat)) 1) s

/-! ## Compares and predicate logic (R247) -/

/-- EQ. -/
def execCmpEq (h : Hdr) (pd : Pred) (rs1 : Reg) (rs2 : Reg) (s : State) : Meaning :=
  compute (.cmpEq h pd rs1 rs2) h (fun a => outP pd (decide (a.reg rs1 = a.reg rs2)) 2) s

/-- NE. -/
def execCmpNe (h : Hdr) (pd : Pred) (rs1 : Reg) (rs2 : Reg) (s : State) : Meaning :=
  compute (.cmpNe h pd rs1 rs2) h (fun a => outP pd (decide (a.reg rs1 ≠ a.reg rs2)) 2) s

/-- LT, signed. -/
def execCmpLt (h : Hdr) (pd : Pred) (rs1 : Reg) (rs2 : Reg) (s : State) : Meaning :=
  compute (.cmpLt h pd rs1 rs2) h (fun a => outP pd (decide ((a.reg rs1).toInt < (a.reg rs2).toInt)) 2) s

/-- GE, signed. -/
def execCmpGe (h : Hdr) (pd : Pred) (rs1 : Reg) (rs2 : Reg) (s : State) : Meaning :=
  compute (.cmpGe h pd rs1 rs2) h (fun a => outP pd (decide ((a.reg rs1).toInt ≥ (a.reg rs2).toInt)) 2) s

/-- LTU. -/
def execCmpLtu (h : Hdr) (pd : Pred) (rs1 : Reg) (rs2 : Reg) (s : State) : Meaning :=
  compute (.cmpLtu h pd rs1 rs2) h (fun a => outP pd (decide ((a.reg rs1).toNat < (a.reg rs2).toNat)) 2) s

/-- GEU. -/
def execCmpGeu (h : Hdr) (pd : Pred) (rs1 : Reg) (rs2 : Reg) (s : State) : Meaning :=
  compute (.cmpGeu h pd rs1 rs2) h (fun a => outP pd (decide ((a.reg rs1).toNat ≥ (a.reg rs2).toNat)) 2) s

/-- PAND. -/
def execPand (h : Hdr) (pd : Pred) (pa : Pred) (pb : Pred) (s : State) : Meaning :=
  compute (.pand h pd pa pb) h (fun a => outP pd (a.pred pa && a.pred pb) 2) s

/-- POR. -/
def execPor (h : Hdr) (pd : Pred) (pa : Pred) (pb : Pred) (s : State) : Meaning :=
  compute (.por h pd pa pb) h (fun a => outP pd (a.pred pa || a.pred pb) 2) s

/-- PXOR. -/
def execPxor (h : Hdr) (pd : Pred) (pa : Pred) (pb : Pred) (s : State) : Meaning :=
  compute (.pxor h pd pa pb) h (fun a => outP pd (a.pred pa != a.pred pb) 2) s

/-- PANDN. -/
def execPandn (h : Hdr) (pd : Pred) (pa : Pred) (pb : Pred) (s : State) : Meaning :=
  compute (.pandn h pd pa pb) h (fun a => outP pd (a.pred pa && !a.pred pb) 2) s

/-- PNOT. -/
def execPnot (h : Hdr) (pd : Pred) (pa : Pred) (s : State) : Meaning :=
  compute (.pnot h pd pa) h (fun a => outP pd (!a.pred pa) 2) s

/-! ## Multiply and accumulate (R248, R253, R254) -/

/-- The signed integer product. -/
def prodI (x y : Word) : Int := x.toInt * y.toInt
/-- The unsigned integer product. -/
def prodU (x y : Word) : Int := (x.toNat : Int) * y.toNat
/-- The Q1.31 product, shifted left by 1 (R253). -/
def prodQ31 (x y : Word) : Int := x.toInt * y.toInt * 2
/-- The Q1.15 product of bits [15:0], shifted left by 33 (R253). -/
def prodQ15 (x y : Word) : Int := (x.setWidth 16 : BitVec 16).toInt * (y.setWidth 16 : BitVec 16).toInt * 2 ^ 33
/-- The Q1.15 product of bits [31:16]. -/
def prodQ15hi (x y : Word) : Int := prodQ15 (x >>> 16) (y >>> 16)
/-- An accumulator result kept to 72 bits; AOVF where it does not fit (R254). -/
def accOut (n : Acc) (x : Int) : Eff := let r := accFit x; { outA n r.1 with aovf := r.2 }

/-- MUL.I. -/
def execMulI (h : Hdr) (ad : Acc) (rs1 : Reg) (rs2 : Reg) (s : State) : Meaning :=
  compute (.mulI h ad rs1 rs2) h (fun a => accOut ad (prodI (a.reg rs1) (a.reg rs2))) s

/-- MAC.I. -/
def execMacI (h : Hdr) (ad : Acc) (rs1 : Reg) (rs2 : Reg) (s : State) : Meaning :=
  compute (.macI h ad rs1 rs2) h (fun a => accOut ad ((a.a[ad]).toInt + prodI (a.reg rs1) (a.reg rs2))) s

/-- MSU.I. -/
def execMsuI (h : Hdr) (ad : Acc) (rs1 : Reg) (rs2 : Reg) (s : State) : Meaning :=
  compute (.msuI h ad rs1 rs2) h (fun a => accOut ad ((a.a[ad]).toInt - prodI (a.reg rs1) (a.reg rs2))) s

/-- MUL.U. -/
def execMulU (h : Hdr) (ad : Acc) (rs1 : Reg) (rs2 : Reg) (s : State) : Meaning :=
  compute (.mulU h ad rs1 rs2) h (fun a => accOut ad (prodU (a.reg rs1) (a.reg rs2))) s

/-- MAC.U. -/
def execMacU (h : Hdr) (ad : Acc) (rs1 : Reg) (rs2 : Reg) (s : State) : Meaning :=
  compute (.macU h ad rs1 rs2) h (fun a => accOut ad ((a.a[ad]).toInt + prodU (a.reg rs1) (a.reg rs2))) s

/-- MUL.Q31. -/
def execMulQ31 (h : Hdr) (ad : Acc) (rs1 : Reg) (rs2 : Reg) (s : State) : Meaning :=
  compute (.mulQ31 h ad rs1 rs2) h (fun a => accOut ad (prodQ31 (a.reg rs1) (a.reg rs2))) s

/-- MAC.Q31. -/
def execMacQ31 (h : Hdr) (ad : Acc) (rs1 : Reg) (rs2 : Reg) (s : State) : Meaning :=
  compute (.macQ31 h ad rs1 rs2) h (fun a => accOut ad ((a.a[ad]).toInt + prodQ31 (a.reg rs1) (a.reg rs2))) s

/-- MSU.Q31. -/
def execMsuQ31 (h : Hdr) (ad : Acc) (rs1 : Reg) (rs2 : Reg) (s : State) : Meaning :=
  compute (.msuQ31 h ad rs1 rs2) h (fun a => accOut ad ((a.a[ad]).toInt - prodQ31 (a.reg rs1) (a.reg rs2))) s

/-- MUL.Q15. -/
def execMulQ15 (h : Hdr) (ad : Acc) (rs1 : Reg) (rs2 : Reg) (s : State) : Meaning :=
  compute (.mulQ15 h ad rs1 rs2) h (fun a => accOut ad (prodQ15 (a.reg rs1) (a.reg rs2))) s

/-- MAC.Q15. -/
def execMacQ15 (h : Hdr) (ad : Acc) (rs1 : Reg) (rs2 : Reg) (s : State) : Meaning :=
  compute (.macQ15 h ad rs1 rs2) h (fun a => accOut ad ((a.a[ad]).toInt + prodQ15 (a.reg rs1) (a.reg rs2))) s

/-- MSU.Q15. -/
def execMsuQ15 (h : Hdr) (ad : Acc) (rs1 : Reg) (rs2 : Reg) (s : State) : Meaning :=
  compute (.msuQ15 h ad rs1 rs2) h (fun a => accOut ad ((a.a[ad]).toInt - prodQ15 (a.reg rs1) (a.reg rs2))) s

/-- MAC2.Q15: both products are added. -/
def execMac2Q15 (h : Hdr) (ad : Acc) (rs1 : Reg) (rs2 : Reg) (s : State) : Meaning :=
  compute (.mac2Q15 h ad rs1 rs2) h (fun a => accOut ad ((a.a[ad]).toInt + prodQ15hi (a.reg rs1) (a.reg rs2) + prodQ15 (a.reg rs1) (a.reg rs2))) s

/-! ## Extraction and accumulator housekeeping (R249, R255, R256) -/

/-- EXT.I: S low bits are discarded. -/
def execExtI (h : Hdr) (rd : Reg) (n : Acc) (sh : Fin 32) (rm : Fin 8) (sat : Fin 4) (s : State) : Meaning :=
  compute (.extI h rd n sh rm sat) h (fun a => let r := extract a.mode rm sat 32 (sh.val) (a.a[n]); { outG rd r.1 1 with satf := r.2 }) s

/-- EXT.Q31: 32 + S low bits are discarded. -/
def execExtQ31 (h : Hdr) (rd : Reg) (n : Acc) (sh : Fin 32) (rm : Fin 8) (sat : Fin 4) (s : State) : Meaning :=
  compute (.extQ31 h rd n sh rm sat) h (fun a => let r := extract a.mode rm sat 32 (32 + sh.val) (a.a[n]); { outG rd r.1 1 with satf := r.2 }) s

/-- EXT.Q15: 48 + S low bits are discarded; 16 bits, sign-extended. -/
def execExtQ15 (h : Hdr) (rd : Reg) (n : Acc) (sh : Fin 32) (rm : Fin 8) (sat : Fin 4) (s : State) : Meaning :=
  compute (.extQ15 h rd n sh rm sat) h (fun a => let r := extract a.mode rm sat 16 (48 + sh.val) (a.a[n]); { outG rd r.1 1 with satf := r.2 }) s

/-- ACLR. -/
def execAclr (h : Hdr) (ad : Acc) (s : State) : Meaning :=
  compute (.aclr h ad) h (fun _ => outA ad 0) s

/-- ASET: sign-extended to 72 bits, shifted left. -/
def execAset (h : Hdr) (ad : Acc) (rs1 : Reg) (sh : Fin 32) (s : State) : Meaning :=
  compute (.aset h ad rs1 sh) h (fun a => outA ad (((a.reg rs1).signExtend 72) <<< sh.val)) s

/-- AADD; AOVF under R254. -/
def execAadd (h : Hdr) (ad : Acc) (am : Acc) (s : State) : Meaning :=
  compute (.aadd h ad am) h (fun a => accOut ad ((a.a[ad]).toInt + (a.a[am]).toInt)) s

/-- ASHR: arithmetic, the discarded bits dropped. -/
def execAshr (h : Hdr) (ad : Acc) (sh : Fin 32) (s : State) : Meaning :=
  compute (.ashr h ad sh) h (fun a => outA ad ((a.a[ad]).sshiftRight sh.val)) s

/-! ## Immediates (R245) -/

/-- ADDI. -/
def execAddi (h : Hdr) (rd : Reg) (rs1 : Reg) (imm : BitVec 12) (s : State) : Meaning :=
  compute (.addi h rd rs1 imm) h (fun a => outG rd (a.reg rs1 + simm imm) 1) s

/-- ANDI. -/
def execAndi (h : Hdr) (rd : Reg) (rs1 : Reg) (imm : BitVec 12) (s : State) : Meaning :=
  compute (.andi h rd rs1 imm) h (fun a => outG rd (a.reg rs1 &&& zimm imm) 1) s

/-- ORI. -/
def execOri (h : Hdr) (rd : Reg) (rs1 : Reg) (imm : BitVec 12) (s : State) : Meaning :=
  compute (.ori h rd rs1 imm) h (fun a => outG rd (a.reg rs1 ||| zimm imm) 1) s

/-- XORI. -/
def execXori (h : Hdr) (rd : Reg) (rs1 : Reg) (imm : BitVec 12) (s : State) : Meaning :=
  compute (.xori h rd rs1 imm) h (fun a => outG rd (a.reg rs1 ^^^ zimm imm) 1) s

/-- ORI.12: bits [23:12]. -/
def execOri12 (h : Hdr) (rd : Reg) (rs1 : Reg) (imm : BitVec 12) (s : State) : Meaning :=
  compute (.ori12 h rd rs1 imm) h (fun a => outG rd (a.reg rs1 ||| (zimm imm <<< 12)) 1) s

/-- ORI.24: bits [31:24]. -/
def execOri24 (h : Hdr) (rd : Reg) (rs1 : Reg) (imm : BitVec 8) (s : State) : Meaning :=
  compute (.ori24 h rd rs1 imm) h (fun a => outG rd (a.reg rs1 ||| ((imm.setWidth 32 : Word) <<< 24)) 1) s

/-- SLLI. -/
def execSlli (h : Hdr) (rd : Reg) (rs1 : Reg) (sh : Fin 32) (s : State) : Meaning :=
  compute (.slli h rd rs1 sh) h (fun a => outG rd ((a.reg rs1) <<< sh.val) 1) s

/-- SRLI. -/
def execSrli (h : Hdr) (rd : Reg) (rs1 : Reg) (sh : Fin 32) (s : State) : Meaning :=
  compute (.srli h rd rs1 sh) h (fun a => outG rd ((a.reg rs1) >>> sh.val) 1) s

/-- SRAI. -/
def execSrai (h : Hdr) (rd : Reg) (rs1 : Reg) (sh : Fin 32) (s : State) : Meaning :=
  compute (.srai h rd rs1 sh) h (fun a => outG rd ((a.reg rs1).sshiftRight sh.val) 1) s

/-- The conditions of CMPI: 0 EQ, 1 NE, 2 LT, 3 LTU (R245). -/
def cmpiHolds (cond : Fin 4) (x y : Word) : Bool := match cond with
  | 0 => x == y | 1 => x != y | 2 => decide (x.toInt < y.toInt) | 3 => decide (x.toNat < y.toNat)

/-- CMPI; the immediate is sign-extended (R244). -/
def execCmpi (h : Hdr) (pd : Pred) (cond : Fin 4) (rs1 : Reg) (imm : BitVec 12) (s : State) : Meaning :=
  compute (.cmpi h pd cond rs1 imm) h (fun a => outP pd (cmpiHolds cond (a.reg rs1) (simm imm)) 2) s

end Sys2Proof.Machine
end

