-- ==== Sys2Proof/Machine/NeropBit.lean ====
section
/-! DEFINITION. Bit, edge, bit-field, timer and counter instructions, VOTE and the repeat prefix (R258 to R278). -/

namespace Sys2Proof.Machine

/-! ## Bit group (R262, R263) -/

/-- A byte with one bit set. -/
def bitMask (o : Nat) : Byte := 1#8 <<< (o % 8)

/-- Reads the bit a reference names, and goes on with its byte and value; a reference beyond its area is an access fault (R261). -/
def withBit (c : CoreId) (r : BitRef) (a : Arch) (s : State) (f : Nat → Nat → Nat → Bool → Act) : Act :=
  let x := bitRef a r
  match bitByte c x.1 x.2 s with
  | none => .trap (.access 1)
  | some off => f x.1 x.2 off ((readByte ((domMem c).getD 0) off s).getLsbD (x.2 % 8))

/-- A bit read into a predicate. -/
def bitLoad (c : CoreId) (p : Pred) (r : BitRef) (inv : Bool) (a : Arch) (s : State) : Act :=
  withBit c r a s fun _ _ off b => bitsAct c a (outP p (b != inv) 3) [off / 8] [] {} s

/-- A bit write of `v b`, with the predicate results of success and of WLOST (R261, R263). -/
def bitWrite (c : CoreId) (r : BitRef) (v : Bool → Bool) (e lost : Bool → Eff) (a : Arch) (s : State) : Act :=
  withBit c r a s fun area o off b =>
    if area = 0 then .trap (.access 2) else bitsAct c a (e b) [off / 8] [[(off, bitMask o, if v b then bitMask o else 0)]] (lost b) s

/-- BLD. -/
def execBld (h : Hdr) (px : Pred) (ref : BitRef) (s : State) : Meaning := issue (.bld h px ref) h (bitLoad h.core px ref false) s
/-- BLDN. -/
def execBldn (h : Hdr) (px : Pred) (ref : BitRef) (s : State) : Meaning := issue (.bldn h px ref) h (bitLoad h.core px ref true) s
/-- BSET. -/
def execBset (h : Hdr) (ref : BitRef) (s : State) : Meaning :=
  issue (.bset h ref) h (bitWrite h.core ref (fun _ => true) (fun _ => {}) (fun _ => {})) s
/-- BCLR. -/
def execBclr (h : Hdr) (ref : BitRef) (s : State) : Meaning :=
  issue (.bclr h ref) h (bitWrite h.core ref (fun _ => false) (fun _ => {}) (fun _ => {})) s
/-- BTGL. -/
def execBtgl (h : Hdr) (ref : BitRef) (s : State) : Meaning :=
  issue (.btgl h ref) h (bitWrite h.core ref (fun b => !b) (fun _ => {}) (fun _ => {})) s
/-- BST. -/
def execBst (h : Hdr) (px : Pred) (ref : BitRef) (s : State) : Meaning :=
  issue (.bst h px ref) h (fun a => bitWrite h.core ref (fun _ => a.pred px) (fun _ => {}) (fun _ => {}) a) s
/-- BSTN. -/
def execBstn (h : Hdr) (px : Pred) (ref : BitRef) (s : State) : Meaning :=
  issue (.bstn h px ref) h (fun a => bitWrite h.core ref (fun _ => !a.pred px) (fun _ => {}) (fun _ => {}) a) s
/-- TSB: a lost write reports the bit as taken (R263). -/
def execTsb (h : Hdr) (px : Pred) (ref : BitRef) (s : State) : Meaning :=
  issue (.tsb h px ref) h (bitWrite h.core ref (fun _ => true) (fun b => outP px b 3) (fun _ => outP px true 3)) s

/-! ## Edge group (R264, R265) -/

/-- An edge instruction: `f b c` of the bit and its companion goes to the predicate, and the bit into the companion. -/
def edge (c : CoreId) (p : Pred) (r : BitRef) (f : Bool → Bool → Bool) (a : Arch) (s : State) : Act :=
  withBit c r a s fun area o off b =>
    let code := (domMem c).getD 0
    match edgeByte c area o s with
    | none => .trap (.access 1)
    | some eo =>
      let e := outP p (f b ((readByte code eo s).getLsbD (o % 8))) 3
      bitsAct c a e [off / 8, eo / 8] [[(eo, bitMask o, if b then bitMask o else 0)]] e s

/-- RED. -/
def execRed (h : Hdr) (px : Pred) (ref : BitRef) (s : State) : Meaning := issue (.red h px ref) h (edge h.core px ref fun b c => b && !c) s
/-- FED. -/
def execFed (h : Hdr) (px : Pred) (ref : BitRef) (s : State) : Meaning := issue (.fed h px ref) h (edge h.core px ref fun b c => c && !b) s
/-- AED. -/
def execAed (h : Hdr) (px : Pred) (ref : BitRef) (s : State) : Meaning := issue (.aed h px ref) h (edge h.core px ref fun b c => b != c) s
/-- EUPD: writes 0 to the predicate. -/
def execEupd (h : Hdr) (px : Pred) (ref : BitRef) (s : State) : Meaning := issue (.eupd h px ref) h (edge h.core px ref fun _ _ => false) s

/-! ## Bit fields (R267) -/

/-- The bytes that hold bits `o` to `o + w − 1` of an area, one per bit, if the last bit lies in the area. -/
def bitFieldBytes (c : CoreId) (area o w : Nat) (s : State) : Option (List Nat) :=
  (bitByte c area (o + w - 1) s).map fun _ => (List.range w).map fun i => (bitByte c area (o + i) s).getD 0

/-- BFLD. -/
def execBfld (h : Hdr) (rd : Reg) (rs1 : Reg) (wm1 : Fin 32) (sgn : Bool) (s : State) : Meaning :=
  issue (.bfld h rd rs1 wm1 sgn) h (fun a s =>
    let v := (a.reg rs1).toNat
    let o := v % 2 ^ 30
    let w := wm1.val + 1
    let code := (domMem h.core).getD 0
    match bitFieldBytes h.core (v / 2 ^ 30) o w s with
    | none => .trap (.access 1)
    | some bs =>
      let n := ((enum bs).map fun x => bitOf ((readByte code x.2 s).getLsbD ((o + x.1) % 8)) * 2 ^ x.1).sum
      let r : Word := BitVec.ofNat 32 (if sgn && n.testBit wm1.val then n + (2 ^ 32 - 2 ^ w) else n)
      bitsAct h.core a (outG rd r 3) ((bs.map (· / 8)).eraseDups) [] {} s) s

/-- BFST: two masked writes where the field crosses an 8-byte word, the lower word first. A marked bit among the field's is a privilege trap before the
access fault of a field that leaves its area (R295). -/
def execBfst (h : Hdr) (rd : Reg) (rs1 : Reg) (wm1 : Fin 32) (s : State) : Meaning :=
  issue (.bfst h rd rs1 wm1) h (fun a s =>
    let v := (a.reg rs1).toNat
    let area := v / 2 ^ 30
    let o := v % 2 ^ 30
    let w := wm1.val + 1
    if area = 1 && !a.priv && (List.range w).any (fun i => bitMarked h.core (o + i) s) then .trap (.priv 4)
    else match bitFieldBytes h.core area o w s with
    | none => .trap (.access 1)
    | some bs =>
      if area = 0 then .trap (.access 2)
      else
        let bytes : WordWrite := (bs.eraseDups).map fun b =>
          (enum bs).foldl (fun (m : Nat × Byte × Byte) x =>
            if x.2 = b then (b, m.2.1 ||| bitMask (o + x.1), if (a.reg rd).getLsbD x.1 then m.2.2 ||| bitMask (o + x.1) else m.2.2) else m) (b, 0, 0)
        let words := (bs.map (· / 8)).eraseDups
        bitsAct h.core a {} words (words.map fun k => bytes.filter fun x => x.1 / 8 = k) {} s) s

/-! ## Timers (R268, R269) -/

/-- A timer instance's fields. -/
structure TimerVal where
  et : Nat
  run : Bool
  q : Bool
  deriving DecidableEq, Repr

/-- The rules of TON, applied in order: `inl` is the input at the last execution. -/
def tonRule (x : TimerVal) (i _inl : Bool) (dt pt : Nat) : TimerVal :=
  let y : TimerVal := if !i then { et := 0, run := false, q := false } else if !x.run then { x with run := true, et := 0 } else { x with et := min (x.et + dt) pt }
  { y with q := y.run && decide (y.et ≥ pt) }
/-- The rules of TOF. -/
def tofRule (x : TimerVal) (i inl : Bool) (dt pt : Nat) : TimerVal :=
  let y : TimerVal := if i then { et := 0, run := false, q := true } else if inl then { et := 0, run := true, q := true }
    else if x.run then { x with et := min (x.et + dt) pt } else x
  if y.run && y.et ≥ pt then { y with run := false, q := false } else y
/-- The rules of TP. -/
def tpRule (x : TimerVal) (i inl : Bool) (dt pt : Nat) : TimerVal :=
  let y : TimerVal := if x.run then { x with et := min (x.et + dt) pt } else if i && !inl then { et := 0, run := true, q := true }
    else if !i then { x with et := 0 } else x
  if y.run && y.et ≥ pt then { y with run := false, q := false } else y

/-- The bytes of a number as a write of whole bytes from `off`. -/
def wholeWrite (off n v : Nat) : WordWrite := (enum (leBytes n v)).map fun x => (off + x.1, 0xFF, x.2)

/-- A timer function on the instance at g[RS1] (R269). -/
def timerAct (c : CoreId) (pd : Pred) (rs1 : Reg) (pin : Pred) (rule : TimerVal → Bool → Bool → Nat → Nat → TimerVal) (a : Arch) (s : State) : Act :=
  match instAt c (a.reg rs1) 32 32 s with
  | none => .trap (.access 3)
  | some off =>
    let code := (domMem c).getD 0
    let now := (countSeen c s).toNat
    let dt := (countSeen c s - BitVec.ofNat 64 (readNat code off 8 s)).toNat
    let f := readByte code (off + 16) s
    let i := a.pred pin
    let y := rule { et := readNat code (off + 8) 4 s, run := f.getLsbD 0, q := f.getLsbD 1 } i (f.getLsbD 2) dt (readNat code (off + 12) 4 s)
    let e := outP pd y.q 3
    bitsAct c a e [off / 8, off / 8 + 1, off / 8 + 2]
      [wholeWrite off 8 now ++ wholeWrite (off + 8) 4 y.et ++ wholeWrite (off + 16) 1 (bitOf y.run + 2 * bitOf y.q + 4 * bitOf i)] e s

/-- TON. -/
def execTon (h : Hdr) (pd : Pred) (rs1 : Reg) (pin : Pred) (s : State) : Meaning := issue (.ton h pd rs1 pin) h (timerAct h.core pd rs1 pin tonRule) s
/-- TOF. -/
def execTof (h : Hdr) (pd : Pred) (rs1 : Reg) (pin : Pred) (s : State) : Meaning := issue (.tof h pd rs1 pin) h (timerAct h.core pd rs1 pin tofRule) s
/-- TP. -/
def execTp (h : Hdr) (pd : Pred) (rs1 : Reg) (pin : Pred) (s : State) : Meaning := issue (.tp h pd rs1 pin) h (timerAct h.core pd rs1 pin tpRule) s
/-- TRST. -/
def execTrst (h : Hdr) (rs1 : Reg) (s : State) : Meaning :=
  issue (.trst h rs1) h (fun a s => match instAt h.core (a.reg rs1) 32 32 s with
    | none => .trap (.access 3)
    | some off => bitsAct h.core a {} [off / 8, off / 8 + 1, off / 8 + 2]
        [wholeWrite off 8 (countSeen h.core s).toNat ++ wholeWrite (off + 8) 4 0 ++ wholeWrite (off + 16) 1 0] {} s) s
/-- TET: the instance is only read. -/
def execTet (h : Hdr) (rd : Reg) (rs1 : Reg) (s : State) : Meaning :=
  issue (.tet h rd rs1) h (fun a s => match instAt h.core (a.reg rs1) 32 32 s with
    | none => .trap (.access 3)
    | some off => bitsAct h.core a (outG rd (BitVec.ofNat 32 (readNat ((domMem h.core).getD 0) (off + 8) 4 s)) 3) [off / 8 + 1] [] {} s) s

/-! ## Counters (R271) -/

/-- CTU or CTD on the instance at g[RS1]: `up` selects. -/
def countAct (c : CoreId) (pd : Pred) (rs1 : Reg) (pin : Pred) (up : Bool) (a : Arch) (s : State) : Act :=
  match instAt c (a.reg rs1) 16 8 s with
  | none => .trap (.access 3)
  | some off =>
    let code := (domMem c).getD 0
    let cv : Word := BitVec.ofNat 32 (readNat code off 4 s)
    let pv : Word := BitVec.ofNat 32 (readNat code (off + 4) 4 s)
    let f := readByte code (off + 8) s
    let i := a.pred pin
    let go := i && !f.getLsbD (if up then 0 else 1)
    let x : Word := if go then (sat32 (if up then cv.toInt + 1 else cv.toInt - 1)).1 else cv
    let e := outP pd (if up then decide (x.toInt ≥ pv.toInt) else decide (x.toInt ≤ 0)) 3
    bitsAct c a e [off / 8, off / 8 + 1] [wholeWrite off 4 x.toNat ++ [(off + 8, if up then 1 else 2, if i then (if up then 1 else 2) else 0)]] e s

/-- CTU. -/
def execCtu (h : Hdr) (pd : Pred) (rs1 : Reg) (pin : Pred) (s : State) : Meaning := issue (.ctu h pd rs1 pin) h (countAct h.core pd rs1 pin true) s
/-- CTD. -/
def execCtd (h : Hdr) (pd : Pred) (rs1 : Reg) (pin : Pred) (s : State) : Meaning := issue (.ctd h pd rs1 pin) h (countAct h.core pd rs1 pin false) s
/-- CRST. -/
def execCrst (h : Hdr) (rs1 : Reg) (s : State) : Meaning :=
  issue (.crst h rs1) h (fun a s => match instAt h.core (a.reg rs1) 16 8 s with
    | none => .trap (.access 3)
    | some off => bitsAct h.core a {} [off / 8] [wholeWrite off 4 0] {} s) s
/-- CLD. -/
def execCld (h : Hdr) (rs1 : Reg) (s : State) : Meaning :=
  issue (.cld h rs1) h (fun a s => match instAt h.core (a.reg rs1) 16 8 s with
    | none => .trap (.access 3)
    | some off => bitsAct h.core a {} [off / 8] [wholeWrite off 4 (readNat ((domMem h.core).getD 0) (off + 4) 4 s)] {} s) s
/-- CTV. -/
def execCtv (h : Hdr) (rd : Reg) (rs1 : Reg) (s : State) : Meaning :=
  issue (.ctv h rd rs1) h (fun a s => match instAt h.core (a.reg rs1) 16 8 s with
    | none => .trap (.access 3)
    | some off => bitsAct h.core a (outG rd (BitVec.ofNat 32 (readNat ((domMem h.core).getD 0) off 4 s)) 3) [off / 8] [] {} s) s

/-! ## VOTE and the repeat prefix -/

/-- VOTE (R272): a vote point on a lane core, the illegal-operation trap elsewhere. -/
def execVote (h : Hdr) (rd : Reg) (rs1 : Reg) (s : State) : Meaning :=
  issue (.vote h rd rs1) h (fun a _ => if (laneOf h.core).isSome then .vote rd (a.reg rs1) else .trap .illop) s

/-- RPTI (R273): the count is IMM[11:0] + 1. -/
def execRpti (h : Hdr) (rd : Reg) (step : BitVec 5) (cnt : BitVec 12) (s : State) : Meaning :=
  issue (.rpti h rd step cnt) h (fun _ _ => .rep { left := cnt.toNat + 1, reg := rd, step := step.signExtend 32, started := false, zero := false }) s

/-- RPTR (R273): a count of 0 makes the target retire once without effect, one above 4,096 is an illegal sequence. -/
def execRptr (h : Hdr) (rd : Reg) (rs1 : Reg) (step : BitVec 12) (s : State) : Meaning :=
  issue (.rptr h rd rs1 step) h (fun a _ =>
    let n := (a.reg rs1).toNat
    if n > 4096 then .trap (.illseq 3) else .rep { left := max n 1, reg := rd, step := simm step, started := false, zero := n = 0 }) s

end Sys2Proof.Machine
end

