-- ==== Sys2Proof/Machine/Power.lean ====
section
/-! DEFINITION. Feeds, hold-up, the backup cell, rails, clock monitors, temperature and the transceiver (R452 to R458, R507 to R521). -/

namespace Sys2Proof.Machine

/-! ## Feeds (R510, R511) -/

/-- The other feed. -/
def otherFeed (f : Fin 2) : Fin 2 := if f = 0 then 1 else 0
/-- Some feed is present. -/
def anyFeed (s : State) : Bool := s.power.feed[0].present || s.power.feed[1].present
/-- Sets a feed's judgement and voltage. -/
def setFeed (f : Fin 2) (here : Bool) (v : BitVec 16) (s : State) : State :=
  modPower (fun p => { p with feed := p.feed.set f { present := here, volt := v } }) s

/-- A feed counts as lost: latched and logged while the other is present. -/
def feedLost (f : Fin 2) (v : BitVec 16) (s : State) : State :=
  let was := s.power.feed[f].present
  let s := setFeed f false v s
  if was && s.power.feed[otherFeed f].present then addLog .feedLost f.val 0 (modPower (fun p => { p with evt := setBit p.evt f.val true }) s) else s

/-- FEED_PRESENT: at or above 18.5 V for 10 ms. The backup cell no longer supplies (R517). A crystal that had failed when the feeds were lost leaves
the clock invalid (R454). PD_VOTE is on while a feed is present (R27). -/
def execFeedPresent (f : Fin 2) (v : BitVec 16) (s : State) : Meaning := .next <|
  let s := setPd .vote true (modPower (fun p => { p with backup := false }) (setFeed f true v s))
  if s.power.xtalBad then
    modPower (fun p => { p with xtalBad := false }) { s with rtc := { s.rtc with nvalid := false, bvalid := false } }
  else s
/-- FEED_LOST: below 17.0 V for 500 µs. -/
def execFeedLost (f : Fin 2) (v : BitVec 16) (s : State) : Meaning := .next (feedLost f v s)
/-- FEED_OVERVOLTAGE: above 33.0 V for 1 ms; the stage disconnects the feed. -/
def execFeedOvervoltage (f : Fin 2) (v : BitVec 16) (s : State) : Meaning := .next <|
  addLog .feedOv f.val 0 (modPower (fun p => { p with evt := setBit p.evt (2 + f.val) true }) (feedLost f v s))

/-! ## Loss of both feeds (R59, R513, R514) -/

/-- BOTH_FEEDS_LOST: t_pf. The part of an operating hour that is running is not counted (R448). -/
def execBothFeedsLost (s : State) : Meaning := .next <|
  if anyFeed s || s.power.tpf.isSome || !s.boot.up then s
  else pairsFinish false (outputsDown (modPower (fun p => { p with tpf := some s.cyc.tb, hourSec := 0 }) s))

/-- `n` ms have passed since t_pf. -/
def pfPast (n : Nat) (s : State) : Bool := s.power.tpf.any fun t => n * tickMs ≤ since t s

/-- PF_PAIR_ABANDON: t_pf + 10 ms. -/
def execPfPairAbandon (s : State) : Meaning := .next (if pfPast 10 s then pairsFinish true s else s)

/-- PF_WRITE_CUTOFF: t_pf + 12 ms. A page write and a fuse word that have begun complete. -/
def execPfWriteCutoff (s : State) : Meaning := .next <|
  if pfPast 12 s then modFuses (fun f => { f with blow := f.blow.take 1 }) (modPs (fun p => { p with cutoff := true }) s) else s

/-- The reset that ends a loss of both feeds: the Grotto in retention, every other domain off. -/
def feedReset (s : State) : State :=
  let s := modPower (fun p => { p with xtalBad := s.boot.subst }) s
  let t := moduleReset 2 s
  { t with banks := t.banks.set 32 .retention }

/-- FEED_RESET: t_pf + 20 ms. -/
def execFeedReset (s : State) : Meaning := .next (if pfPast 20 s then feedReset s else s)

/-- HOLDUP_SHORT: the bank falls below 12 V before step 4. -/
def execHoldupShort (s : State) : Meaning := .next <|
  if s.power.tpf.isSome then feedReset (modPower (fun p => { p with evt := setBit p.evt 5 true }) s) else s

/-- The supply of PD_AON and the Grotto is lost (R327, R427): the retention-lost flag, the clock at its reset values, the registers of PD_AON
cleared. -/
def aonLost (s : State) : State :=
  let e := s.memErrs
  { s with mem := s.mem.filter fun c => c.1 < memKey 5 0 || memKey 6 0 ≤ c.1
           memErrs := { e with flips := e.flips.filter fun f => f.1 != 5, side := e.side.filter fun f => f.1 != 5
                               outer := e.outer.filter fun f => f.1 != 5, poison := e.poison.filter fun f => f.1 != 5 }
           rtc := .reset
           boot := { Boot.reset with on := 0 }
           power := { Power.reset with feed := s.power.feed, grLost := true, sfp := s.power.sfp } }

/-- BACKUP_SWITCHOVER: the bank falls below 5 V; without a cell the supply is lost. -/
def execBackupSwitchover (cell : Bool) (s : State) : Meaning := .next <|
  if anyFeed s || s.boot.up || !pdOn .aon s then s
  else if cell then modPower (fun p => { p with backup := true }) (setPd .vote false s) else aonLost s

/-- POWER_ON_RESET: PD_AON's supply begins, from no feed and no cell. -/
def execPowerOnReset (s : State) : Meaning := .next <|
  if pdOn .aon s then s
  else
    let t := aonLost (moduleReset 1 s)
    { t with boot := { t.boot with on := resetOn t, cause := 1 } }

/-! ## Rails, cell, temperature, transceiver (R516, R517, R521, R507) -/

/-- RAIL_FAULT. -/
def execRailFault (s : State) : Meaning := .next (if s.boot.up then moduleReset 8 s else s)
/-- LANE_SUPPLY_FAULT: the lane is excluded with cause POWER. -/
def execLaneSupplyFault (l : Fin 3) (s : State) : Meaning := .next (laneCause l 0x06 s)

/-- CELL_MEASURE: below 2.70 V, or no cell. -/
def execCellMeasure (present : Bool) (mv : BitVec 16) (s : State) : Meaning := .next <|
  let s := modPower (fun p => { p with cellPresent := present, cellMv := mv }) s
  if !present || mv.toNat < 2700 then addLog .cellLow mv.toNat 0 (modPower (fun p => { p with evt := setBit p.evt 6 true }) s) else s

/-- The temperature limits of the ordering code, in 0.1 °C (R2, R521). -/
def tempLimits (s : State) : Int × Int := if s.fuses.order = 1 then (-400, 950) else (-250, 950)

/-- Latches a temperature event, logged when it is new. -/
def tempEvt (b : Nat) (k : LogKind) (t : BitVec 16) (s : State) : State :=
  if s.power.evt.getLsbD b then s else addLog k t.toNat 0 (modPower (fun p => { p with evt := setBit p.evt b true }) s)

/-- TEMP_SAMPLE: every 100 ms. The panel follows. -/
def execTempSample (t : BitVec 16) (s : State) : Meaning := .next <|
  let s := modPower (fun p => { p with tNow := t, tMax := if !p.tSeen || p.tMax.toInt < t.toInt then t else p.tMax, tSeen := true }) s
  let s := if (tempLimits s).2 < t.toInt then tempEvt 7 .tempHi t s else s
  let s := if t.toInt < (tempLimits s).1 then tempEvt 8 .tempLo t s else s
  if s.boot.up then panelDrive s else s

/-- SFP_CHANGE: inserted or removed while the module runs; removal, or a transceiver that is not powered, is a loss of the sync link. -/
def execSfpChange (x : Sfp) (s : State) : Meaning := .next <|
  let s := modPower (fun p => { p with sfp := x }) s
  match x with
  | .good => s
  | .none => syncDown s
  | .wrongType => addLog .sfpFault 1 0 (syncDown s)
  | .overPower => addLog .sfpFault 2 0 (syncDown s)

/-! ## Clock monitors (R454, R455) -/

/-- The crystal is judged failed: the watchdogs count the substitute tick. -/
def xtalFail (s : State) : State :=
  let new := !s.boot.subst
  let s := modBoot (fun b => { b with subst := true, substSeen := true, xtalOk := false, xtalGood := 0, clkEvt := setBit b.clkEvt 0 true }) s
  if new then addLog .substTick 0 0 (addLog .clockMonitor 0 0 s) else s

/-- ROOT_MONITOR_WINDOW: the three comparisons of a window, `true` within tolerance. -/
def execRootMonitorWindow (rootXtal rootRc xtalRc : Bool) (s : State) : Meaning := .next <|
  if !s.boot.up then s
  else if rootXtal then
    if s.boot.subst then
      if 64 ≤ s.boot.xtalGood + 1 then modBoot (fun b => { b with subst := false, xtalOk := true, xtalGood := 0, rootOk := true }) s
      else modBoot (fun b => { b with xtalGood := b.xtalGood + 1, rootOk := true }) s
    else modBoot (fun b => { b with xtalOk := true, rootOk := true }) s
  else if rootRc && !xtalRc then xtalFail s
  else if !rootRc && xtalRc then moduleReset 7 (addLog .clockMonitor 1 0 s)
  else
    let t := moduleReset 7 (addLog .clockMonitor 2 0 s)
    modBoot (fun b => { b with clkEvt := setBit b.clkEvt 1 true }) t

/-- MAIN_PLL_FAIL. -/
def execMainPllFail (s : State) : Meaning := .next (if s.boot.up then moduleReset 7 (addLog .clockMonitor 3 0 s) else s)

/-- LANE_PLL_FAIL: the lane is excluded with cause CLOCK. -/
def execLanePllFail (l : Fin 3) (s : State) : Meaning := .next <|
  if !pdOn (lanePd l) s then s
  else laneCause l 0x05 (modLane l (fun x => { x with pll := false })
    (modBoot (fun b => { b with laneLock := setBit b.laneLock l.val false, clkEvt := setBit b.clkEvt 2 true }) s))

end Sys2Proof.Machine
end

