-- ==== Sys2Proof/Machine/Registers.lean ====
section
/-! DEFINITION. The register blocks of the address map (R10, R307): what each register reads, and what a write does, for every master. -/

namespace Sys2Proof.Machine

/-! ## Reads, block by block

Each function gives the value at an offset of its block; an offset without a register reads 0. -/

/-- The cycle timer (R36) but for its shadowing reads. -/
def cycReg (off : Nat) (s : State) : Word := match off with
  | 0x000 => pack [(bitOf (cfgLocked s), 0)]
  | 0x004 => s.cyc.period
  | 0x008 => s.cyc.margin
  | 0x00C => s.cyc.retlim
  | 0x010 => s.cyc.ovrlim
  | 0x014 => s.cyc.err
  | 0x01C => s.cyc.countSh
  | 0x024 => s.cyc.tbSh
  | 0x028 => if s.ring.dim == .off then 0 else s.cyc.lastRt
  | 0x02C => pack (allPairs.map fun n => (s.doms[pairDom n].ovrRun.toNat, 8 * n.val))
  | 0x030 => s.doms[(0 : DomId)].ovrTotal
  | 0x034 => s.doms[(1 : DomId)].ovrTotal
  | 0x038 => s.doms[(2 : DomId)].ovrTotal
  | 0x03C => s.doms[(3 : DomId)].ovrTotal
  | _ => 0

/-- VOT_GSTAT of a group (R118). -/
def gstat (g : Group) : Word :=
  pack [(g.members.toNat, 0), (groupMode g, 3), (bitOf g.laneDebug, 5), (bitOf (g.cand != 0), 6), (g.mmkind.toNat, 8)]

/-- A lane's byte of VOT_LSTAT (R118). -/
def lstat (l : Fin 3) (s : State) : Nat :=
  let r := s.voter.reint
  let at_ (p : Nat) : Bool := r.lane.val == l.val + 1 && r.phase.val == p
  bitOf (pdOn (lanePd l) s) + 2 * bitOf (s.voter.grp[(0 : Fin 2)].members.getLsbD l.val) + 4 * bitOf (s.voter.grp[(1 : Fin 2)].members.getLsbD l.val) +
    8 * bitOf (at_ 2) + 16 * bitOf (at_ 3 || at_ 4) + 32 * bitOf (at_ 5) + 64 * bitOf s.voter.lane[l].debug

/-- VOT_XCAUSE of a lane (R118). -/
def xcauseReg (v : Lane) : Word := pack [(v.xcause.toNat, 0), (v.xgroup.val, 8), (v.xcount.toNat, 16)]

/-- VOT_REQSTAT. -/
def votReqstat (s : State) : Word := pack [(bitOf s.voter.reqBusy, 0), (bitOf s.voter.reqRefused, 1), (s.voter.reqReason.toNat, 8)]

/-- The Triplex Voter (R118). -/
def votReg (off : Nat) (s : State) : Word := match off with
  | 0x000 => s.voter.grp[(0 : Fin 2)].cfg
  | 0x004 => s.voter.grp[(1 : Fin 2)].cfg
  | 0x008 => gstat s.voter.grp[(0 : Fin 2)]
  | 0x00C => gstat s.voter.grp[(1 : Fin 2)]
  | 0x010 => pack (allLanes.map fun l => (lstat l s, 8 * l.val))
  | 0x014 => xcauseReg s.voter.lane[(0 : Fin 3)]
  | 0x018 => xcauseReg s.voter.lane[(1 : Fin 3)]
  | 0x01C => xcauseReg s.voter.lane[(2 : Fin 3)]
  | 0x020 => s.voter.lane[(0 : Fin 3)].vmin
  | 0x024 => s.voter.lane[(1 : Fin 3)].vmin
  | 0x028 => s.voter.lane[(2 : Fin 3)].vmin
  | 0x02C => s.voter.lane[(0 : Fin 3)].vagr
  | 0x030 => s.voter.lane[(1 : Fin 3)].vagr
  | 0x034 => s.voter.lane[(2 : Fin 3)].vagr
  | 0x038 => s.voter.grp[(0 : Fin 2)].sub
  | 0x03C => s.voter.grp[(1 : Fin 2)].sub
  | 0x040 => pack [(s.voter.reint.lane.val, 0), (s.voter.reint.phase.val, 2), (min 3 (reintAttempts s).length, 5), (s.voter.reint.result.toNat, 8)]
  | 0x048 => votReqstat s
  | 0x04C => pack [(s.voter.safeCause.toNat, 0), (bitOf s.voter.safeGroup, 8), (bitOf s.voter.safeValid, 9)]
  | _ => 0

/-- PAIR_STAT of a pair (R118). -/
def pairStat (p : PairReg) : Word := pack [(bitOf p.fault, 0), (p.kind.val, 1), (bitOf p.halt, 4), (bitOf p.echo, 5), (p.fcount.toNat, 16)]
/-- ECHO_STAT of a pair (R118). -/
def echoStat (p : PairReg) : Word := pack [(p.log.length, 0), (bitOf (256 ≤ p.log.length), 9), (bitOf p.refused, 10)]

/-- The pair registers (R118). -/
def pairReg (off : Nat) (s : State) : Word :=
  let p := s.pairs[Fin.ofNat 4 (off / 4)]
  if off % 4 ≠ 0 then 0
  else match off / 16 with
    | 0 => pairStat p
    | 1 => p.fpc
    | 2 => echoStat p
    | _ => 0

/-- RING_STAT (R180). -/
def ringStat (s : State) : Word :=
  let r := s.ring
  pack [(bitOf r.enPend, 0), (bitOf r.on[(0 : Fin 2)], 1), (bitOf r.on[(1 : Fin 2)], 2), (bitOf r.frtOn, 3), (bitOf r.looped, 4), (bitOf r.locked, 6),
    (bitOf r.badval, 7), (r.dim.code, 8)]

/-- RTM_STAT (R206). -/
def rtmStat (s : State) : Word :=
  let t := s.rtm
  pack [(t.tsrc.val, 0), (tqual s, 8), (bitOf t.loop.isSome, 28), (bitOf (t.rtOver && s.ring.dim != .off), 29), (bitOf t.brk[(0 : Fin 2)], 30), (bitOf t.brk[(1 : Fin 2)], 31)]

/-- The ring block and ring time (R180, R206) but for RTM_OFS_LO. -/
def ringReg (off : Nat) (s : State) : Word :=
  let r := s.ring
  let t := s.rtm
  let inflight (k : Fin 2) : Nat := if r.on[k] then r.items.length else 0
  if 0x20 ≤ off && off ≤ 0x30 && off % 4 = 0 then r.cnt[(0 : Fin 2)][Fin.ofNat 5 ((off - 0x20) / 4)]
  else if 0x40 ≤ off && off ≤ 0x50 && off % 4 = 0 then r.cnt[(1 : Fin 2)][Fin.ofNat 5 ((off - 0x40) / 4)]
  else match off with
    | 0x000 => r.cfg
    | 0x004 => r.en.setWidth 32
    | 0x008 => ringStat s
    | 0x00C => match r.layout with | none => 0 | some l => pack [(1 + l.coaches.length + l.slots, 0), ((layoutFrames l).length, 16)]
    | 0x010 => match r.layout with | none => 0 | some l => BitVec.ofNat 32 (layoutBytes l)
    | 0x014 => match r.layout with | none => 0 | some l => pack [(l.slots, 0), (l.fsize, 8)]
    | 0x018 => pack [(inflight 0, 0), (inflight 1, 16)]
    | 0x060 => r.frtDone
    | 0x064 => r.frtLink
    | 0x068 => r.frtCancel
    | 0x080 => pack [((r.layout.map fun l => l.revert).getD 0x100, 16)]
    | 0x084 => rtmStat s
    | 0x08C => t.ofsSh
    | 0x090 => if t.tstate.toNat ≥ 2 then 0 else t.diff
    | 0x094 => t.rate.setWidth 32
    | 0x098 => t.evt.setWidth 32
    | 0x09C => rtmSurv s
    | 0x0A0 => t.srcchg
    | 0x0A4 => t.lostTr
    | 0x0A8 => t.lostSt
    | _ => 0

/-- HSB_STAT (R233). -/
def hsbStat (s : State) : Word :=
  pack [(s.hsb.role.code, 0), (bitOf s.hsb.orig, 8), (bitOf s.sync.up, 9), (s.sync.pRole.toNat, 10), (s.hsb.left.toNat, 19), (s.hsb.silent.toNat, 24)]

/-- The hot-standby block (R233). -/
def hsbReg (off : Nat) (s : State) : Word :=
  let h := s.hsb
  let y := s.sync.resync
  match off with
  | 0x00 => h.cfg
  | 0x04 => hsbStat s
  | 0x08 => h.epoch
  | 0x0C => h.lastIntact
  | 0x10 => pack [(h.cmpRun.toNat, 0), (h.lastMis.toNat, 16), ((suspMask s).toNat, 24)]
  | 0x18 => hsbReqstat s
  | 0x1C => h.evt.setWidth 32
  | 0x20 => pack [(y.progress.toNat, 0), (y.result.toNat, 16), (y.state.toNat, 30)]
  | 0x24 => h.cnt[(0 : Fin 5)]
  | 0x28 => h.cnt[(1 : Fin 5)]
  | 0x2C => h.cnt[(2 : Fin 5)]
  | 0x30 => h.cnt[(3 : Fin 5)]
  | 0x34 => h.cnt[(4 : Fin 5)]
  | _ => 0

/-- The memory codes (R333). -/
def memReg (off : Nat) (s : State) : Word :=
  let r := s.memRegs
  if 0x40 ≤ off && off ≤ 0x7C && off % 4 = 0 then r.af[Fin.ofNat 16 ((off - 0x40) / 4)]
  else match off with
    | 0x00 => pack [(bitOf r.ceSeen, 0), (bitOf r.crcSeen, 1), (bitOf r.ueSeen, 2), (bitOf (s.banks[(32 : Fin 33)] == .waking), 3),
        (bitOf (s.banks[(32 : Fin 33)] == .retention), 4), (bitOf (!s.memErrs.poison.isEmpty), 5)]
    | 0x04 => r.reten
    | 0x08 => pack ((List.range 32).map fun n => (bitOf (s.banks.toList[n]? == some .retention), n))
    | 0x0C => r.ce
    | 0x10 => r.ue
    | 0x14 => r.crcerr
    | 0x18 => r.eaddr
    | 0x1C => r.esrc
    | 0x20 => r.wlost
    | 0x24 => r.wladdr
    | 0x28 => r.wlsrc
    | 0x2C => pack [(r.scrub * 100 / scrubTotal, 0), (r.passes.toNat, 16)]
    | 0x30 => pack [(r.faildev.toNat, 0), (bitOf (r.faildev != 0), 7), (r.xscrub * 100 / extLines, 8)]
    | 0x34 => r.corr
    | 0x38 => r.eras
    | _ => 0

/-- A lane's RMU (R130). -/
def rmuReg (l : Fin 3) (off : Nat) (s : State) : Word :=
  let r := s.rmus[l]
  match off with
  | 0x00 => pack [(r.routes.toNat, 0), (bitOf r.armed, 31)]
  | 0x04 => r.base
  | 0x08 => r.lvec
  | 0x10 => BitVec.ofNat 32 (lockCount l s)
  | 0x14 => r.ops
  | 0x18 => r.conf
  | 0x1C => r.err
  | _ => 0

/-- A Logic Solver queue (R83). -/
def lsReg (off : Nat) (q : LsQueue) : Word := match off with
  | 0x04 => pack [(bitOf q.run.isSome, 0), (bitOf q.queued.isSome, 1), (bitOf q.done, 2), (bitOf q.fault, 3), (bitOf q.aborted, 4), (bitOf q.img.isSome, 5),
      (q.entry, 16), (q.fcode.toNat, 24)]
  | 0x08 => q.err
  | 0x0C => q.imgAddr
  | 0x10 => q.last
  | 0x14 => q.faults
  | _ => 0

/-- A core's protection block (R309). -/
def protReg (off : Nat) (p : Prot) : Word :=
  if off < 0x40 then
    if off % 8 = 0 then p.base[Fin.ofNat 8 (off / 8)] else if off % 8 = 4 then p.lim[Fin.ofNat 8 (off / 8)] else 0
  else match off with
    | 0x40 => p.attr
    | 0x44 => p.pimg
    | 0x48 => p.xwin
    | _ => 0

/-- A watchdog unit (R422). -/
def wdgUnitReg (off : Nat) (w : Wdg) : Word := match off with
  | 0x00 => pack [(bitOf w.en, 0), (bitOf w.wind, 1), (bitOf w.priv, 2), (bitOf w.core, 3), (bitOf w.lock, 7)]
  | 0x04 => w.period.setWidth 32
  | 0x08 => w.open_.setWidth 32
  | 0x14 => pack [(w.count.toNat, 0), (bitOf w.frozen, 22), (bitOf w.keyerr, 23), (bitOf w.badsvc, 24), (bitOf w.perlate, 25), (bitOf w.badval, 26),
      (bitOf w.expired, 27)]
  | 0x18 => w.exp
  | _ => 0

/-- The watchdog block (R422). -/
def wdgReg (off : Nat) (s : State) : Word :=
  if off < 0x100 then wdgUnitReg (off % 0x20) s.wdg[Fin.ofNat 8 (off / 0x20)]
  else match off with
    | 0x100 => pack [(bitOf s.boot.subst, 0), (bitOf s.boot.substSeen, 1)]
    | 0x104 => pack [(s.esc.n.toNat, 0), (s.esc.dlim.toNat, 4)]
    | 0x108 => pack [(s.esc.count24.toNat, 0), (bitOf s.esc.hold, 3), (s.esc.lastCause.toNat, 8), (s.esc.lastSrc.toNat, 16)]
    | 0x10C => pack (([0, 1, 2, 3, 4] : List (Fin 5)).map fun i => (min 15 (recentRestarts i s).length, 4 * i.val))
    | _ => 0

/-- The domain and the place in its set or its control registers that an offset of the Check-in Monitor names (R423). -/
inductive CimAt where
  | pt (d : DomId) (p : Fin 64) | cnt (d : DomId) (p : Fin 64) | chk (d : DomId) | fail (d : DomId) | evt (d : DomId) | none
  deriving DecidableEq, Repr

/-- Resolves an offset. -/
def cimAt (off : Nat) : CimAt :=
  if off % 4 ≠ 0 then .none
  else if off < 0xC00 then
    let d : DomId := Fin.ofNat 6 (off / 0x200)
    let p : Fin 64 := Fin.ofNat 64 (off % 0x100 / 4)
    if off % 0x200 < 0x100 then .pt d p else .cnt d p
  else if off < 0xC60 then
    let d : DomId := Fin.ofNat 6 ((off - 0xC00) / 16)
    match off % 16 with | 0 => .chk d | 4 => .fail d | 8 => .evt d | _ => .none
  else .none

/-- The Check-in Monitor (R423). -/
def cimReg (off : Nat) (s : State) : Word := match cimAt off with
  | .pt d p => let x := s.cim[d].pts[p]; pack [(x.mn.toNat, 0), (x.mx.toNat, 8), (x.win.toNat, 16)]
  | .cnt d p => let x := s.cim[d].pts[p]
                pack [(x.cnt[(0 : Fin 3)].toNat, 0), (x.cnt[(1 : Fin 3)].toNat, 8), (x.cnt[(2 : Fin 3)].toNat, 16), (x.verdict.toNat, 24)]
  | .fail d => s.cim[d].fails
  | .evt d => pack [(bitOf s.cim[d].badpt, 0), (bitOf s.cim[d].fail, 1), (bitOf s.cim[d].badval, 2)]
  | .chk _ => 0
  | .none => 0

/-- The clock's unshadowed registers (R438). -/
def rtcReg (off : Nat) (r : Rtc) : Word := match off with
  | 0x18 => r.stime
  | 0x1C => r.sdate
  | 0x2C => r.err.setWidth 32
  | 0x30 => r.wake.setWidth 32
  | 0x34 => r.alm[(0 : Fin 2)].1.setWidth 32
  | 0x38 => pack [((r.alm[(0 : Fin 2)].1.toNat / 2 ^ 32), 0), (bitOf r.alm[(0 : Fin 2)].2, 31)]
  | 0x3C => r.alm[(1 : Fin 2)].1.setWidth 32
  | 0x40 => pack [((r.alm[(1 : Fin 2)].1.toNat / 2 ^ 32), 0), (bitOf r.alm[(1 : Fin 2)].2, 31)]
  | 0x44 => r.evt.setWidth 32
  | _ => 0

/-- The shadowed register at an offset of the clock block (R436, R438). -/
def rtcShadowAt (off : Nat) : Option (Fin 6) := match off with
  | 0x00 => some 0 | 0x04 => some 1 | 0x08 => some 2 | 0x0C => some 3 | 0x10 => some 4 | 0x28 => some 5 | _ => none

/-- MA_STAT (R486). -/
def maStat (s : State) : Word :=
  pack ([(s.arb.oper.code, 0), (groupMode s.voter.grp[(0 : Fin 2)], 3), (groupMode s.voter.grp[(1 : Fin 2)], 5), (s.hsb.role.code, 7), (s.ring.dim.code, 10),
    (keyCode s.arb.key, 13), (bitOf (dbgClosed s), 15)] ++ allDoms.map fun d => (s.doms[d].change.dim.code, 16 + 2 * d.val))

/-- MA_REQSTAT (R486). -/
def maReqstat (s : State) : Word := pack [(bitOf (maBusy s), 0), (bitOf s.arb.refused, 1), (s.arb.reason.toNat, 8)]

/-- The Mode Arbiter and Output Guard status (R486). -/
def maReg (off : Nat) (s : State) : Word := match off with
  | 0x00 => maStat s
  | 0x04 => pack ((allDoms.map fun d => (bitOf s.doms[d].run, d.val)) ++ allDoms.map fun d => (bitOf s.doms[d].held, 8 + d.val))
  | 0x0C => maReqstat s
  | 0x10 => s.arb.last
  | 0x14 => s.arb.trans
  | 0x18 => pack ((allFg.map fun g => (bitOf s.fg[g].permitOn, g.val)) ++ [(bitOf (inSafe s), 6), (bitOf (originates s && !inSafe s && !quiet s), 7),
      (bitOf s.voter.grp[(0 : Fin 2)].dupAt, 8), (bitOf s.voter.grp[(1 : Fin 2)].dupAt, 9), (bitOf (laneDebugFlag s), 10)])
  | 0x1C => pack [(keyCode s.arb.key, 0), (bitOf s.arb.transit, 2)]
  | _ => 0

/-- The field groups (R353). -/
def fgReg (off : Nat) (s : State) : Word :=
  if off < 0x600 then
    let x := s.fg[Fin.ofNat 6 (off / 0x100)]
    let o := off % 0x100
    if o < 0x20 then if o % 4 = 0 then x.ch[Fin.ofNat 8 (o / 4)].cfg else 0
    else match o with
      | 0x20 => x.pcfg
      | 0x24 => (x.block.getD 4 0).setWidth 32
      | 0x28 => x.lpv.setWidth 32
      | 0x2C => x.schLate
      | 0x30 => x.schClose
      | 0x34 => x.schForeign
      | 0x38 => x.ovlCnt
      | _ => 0
  else if off = 0x600 then pack (allFg.map fun g => (bitOf s.fg[g].pres, g.val))
  else if off = 0x604 then s.fgErr.setWidth 32 else 0

/-- PS_STAT (R451). -/
def psStat (s : State) : Word :=
  pack [(bitOf (psBusy s), 0), (bitOf s.ps.done, 1), (bitOf s.ps.fail, 2), (bitOf s.ps.scan, 3), (bitOf (!s.ps.scan && decide (s.ps.free.toNat < 64)), 4)]

/-- The parameter store interface (R451). -/
def psReg (off : Nat) (s : State) : Word :=
  if 0x100 ≤ off && off < 0x200 then if off % 4 = 0 then BitVec.ofNat 32 (sliceNat (off - 0x100) 4 s.ps.buf) else 0
  else match off with
    | 0x00 => s.ps.bp.setWidth 32
    | 0x08 => psStat s
    | 0x0C => s.ps.err.setWidth 32
    | 0x10 => pack [(s.ps.free.toNat, 0), (s.ps.retired.toNat, 16)]
    | 0x14 => s.ps.writes
    | 0x18 => s.ps.retry
    | 0x1C => s.ps.refresh
    | _ => 0

/-- FUSE_STAT (R504): a slot is usable when its field is usable and not revoked (R488). -/
def fuseStat (f : Fuses) : Word :=
  pack ([(bitOf (f.dbgClose != 0), 0), (bitOf f.factoryDone, 2), (bitOf f.fkeyDone, 3), (bitOf (fieldUsable f.ckek), 4), (bitOf (!f.blow.isEmpty), 5),
    (bitOf f.fail, 6), (bitOf f.keyerr, 7), (f.revoke.toNat, 16)] ++
    (List.range 8).flatMap fun n =>
      let k := f.khash[Fin.ofNat 8 n]
      [(bitOf (fieldUsable k && !f.revoke.getLsbD n), 8 + n), (bitOf (fieldBad k), 24 + n)])

/-- Power sequencer, clocks, resets and supply (R471, R527), fuse sense without CKEK, and the debug port's status (R504). -/
def pwrReg (off : Nat) (s : State) : Word :=
  let b := s.boot
  let p := s.power
  let f := s.fuses
  if 0x200 ≤ off && off < 0x300 then if off % 4 = 0 then (f.khash[Fin.ofNat 8 ((off - 0x200) / 0x20)])[Fin.ofNat 9 (off % 0x20 / 4)] else 0
  else if 0x340 ≤ off && off < 0x360 then if off % 4 = 0 then f.data[Fin.ofNat 8 ((off - 0x340) / 4)] else 0
  else match off with
    | 0x00 => pack [(b.on.toNat, 0), (bitOf p.feed[(0 : Fin 2)].present, 12), (bitOf p.feed[(1 : Fin 2)].present, 13), (bitOf b.refused, 14)]
    | 0x08 => pack [(b.laneLock.toNat, 0), (bitOf b.mainLock, 3), (bitOf b.rootOk, 4), (bitOf b.xtalOk, 5), (bitOf b.rcOk, 6)]
    | 0x0C => b.clkEvt.setWidth 32
    | 0x10 => pack [(b.cause.toNat, 0), (b.step.toNat, 8)]
    | 0x18 => b.bootStep.setWidth 32
    | 0x1C => pack [(b.fc1.toNat, 0), (b.fc2.toNat, 2)]
    | 0x20 => BitVec.ofNat 32 (bootTmr s)
    | 0x24 => b.rstCount
    | 0x28 => pack [(p.feed[(0 : Fin 2)].volt.toNat, 0), (p.feed[(1 : Fin 2)].volt.toNat, 16)]
    | 0x2C => pack [(p.holdV.toNat, 0), (p.cap.toNat, 16), (bitOf p.full, 31)]
    | 0x30 => p.evt.setWidth 32
    | 0x34 => pack [(p.cellMv.toNat, 0), (bitOf p.cellPresent, 16)]
    | 0x38 => pack [(p.tNow.toNat, 0), (p.tMax.toNat, 16)]
    | 0x3C => p.panel.setWidth 32
    | 0x40 => p.panelFl.setWidth 32
    | 0x100 => fuseStat f
    | 0x104 => f.order.setWidth 32
    | 0x108 => f.serial.setWidth 32
    | 0x10C => f.serial.extractLsb' 32 32
    | 0x110 => f.mac.setWidth 32
    | 0x114 => (f.mac.extractLsb' 32 16).setWidth 32
    | 0x320 => f.cmd
    | 0x360 => pack [(s.dbg.ir.toNat, 0), (bitOf s.dbg.refused, 8)]
    | _ => 0

/-- A session's state code (R378). -/
def SessSt.code : SessSt → Nat
  | .closed => 0 | .opening => 1 | .opened => 2

/-- The mailbox block (R378). -/
def mbxReg (off : Nat) (s : State) : Word :=
  let m := s.mbx
  if 0x20 ≤ off && off ≤ 0x3C && off % 4 = 0 then m.cnt[Fin.ofNat 8 ((off - 0x20) / 4)]
  else if 0x08 ≤ off && off ≤ 0x14 && off % 4 = 0 then
    let x := m.sess[Fin.ofNat 4 ((off - 8) / 4)]
    pack [(x.st.code, 0), (x.slots.length, 8), (x.key.val, 16), (bitOf x.freight, 22)]
  else match off with
    | 0x00 => pack [(bitOf m.eth, 0), (bitOf m.frt, 1), (m.port.toNat, 16)]
    | 0x04 => pack ((([0, 1, 2, 3] : List (Fin 4)).map fun i => (bitOf (m.sess[i].st == .opened), i.val)) ++
        [((m.sess.toList.map fun x => x.slots.length).sum, 8)])
    | _ => 0

/-! ## Paths -/

/-- An access without a path (R22). -/
def noPathAt (m : Master) (s : State) : State := answer .noPath 0 (countAf m s)

/-- A read of a block in power domain `p`. -/
def readAt (p : Pd) (m : Master) (f : State → Word) (s : State) : State := regAt p m (fun s => answer .ok (f s) s) s

/-- An access by the Steward; of any other master it has no path. -/
def stewAt (p : Pd) (m : Master) (f : State → State) (s : State) : State := if m = .steward then regAt p m f s else noPathAt m s

/-- The lane and core number of a lane core. -/
def laneMaster : Master → Option (Fin 3 × Fin 2)
  | .lane l k => some (l, k) | _ => none

/-- The instance that an offset of the Logic Solver block names for a master (R306, R307). -/
def lsAtOff (m : Master) (off : Nat) : Option (Fin 5) :=
  if off < 0x100 then some 3
  else if off < 0x200 then some 4
  else if off < 0x300 then (laneMaster m).map fun x => Fin.ofNat 5 x.1.val
  else none

/-- An access to a Logic Solver queue's registers, with the core, the instance, the queue and the offset in it. -/
def lsQueueAt (m : Master) (off : Nat) (f : CoreId → Fin 5 → Fin 2 → State → State) (s : State) : State :=
  match masterCore m, lsAtOff m off with
  | some c, some i => (match lsReach c i s with
    | .ok k => f c i k s
    | .error r => answer r 0 (countAf m s))
  | _, _ => noPathAt m s

/-- A lane view (R306): RMU registers, queue of core 0, queue of core 1. -/
def laneViewReg (l : Fin 3) (off : Nat) (s : State) : Word :=
  let i : Fin 5 := Fin.ofNat 5 l.val
  if off < 0x100 then rmuReg l off s
  else if 0x200 ≤ off && off < 0x300 then lsReg (off - 0x200) s.solvers[i].q[(0 : Fin 2)]
  else if 0x300 ≤ off && off < 0x400 then lsReg (off - 0x300) s.solvers[i].q[(1 : Fin 2)]
  else 0

/-- A read of CKEK: only by a lane core at K (R487, R504). -/
def ckekRead (m : Master) (atK : Bool) (off : Nat) (s : State) : State := match laneMaster m with
  | some _ => if atK then readAt .aon m (fun s => if off % 4 = 0 then s.fuses.ckek[Fin.ofNat 9 ((off - 0x300) / 4)] else 0) s else noPathAt m s
  | none => noPathAt m s

/-! ## Reads -/

/-- A read of the register at `off` of block `blk` by a master at a privilege: the answer stands in `bus`. -/
def regRead (m : Master) (atK : Bool) (blk off : Nat) (s : State) : State := match masterCore m with
  | none => noPathAt m s
  | some c => match blk with
    | 0x0 => if off = 0x018 then cycCountLo m s else if off = 0x020 then cycTbLo m s else readAt .vote m (cycReg off) s
    | 0x1 => readAt .vote m (votReg off) s
    | 0x2 => readAt .vote m (pairReg off) s
    | 0x3 => if off = 0x088 then rtmOfsLo m s else readAt .vote m (ringReg off) s
    | 0x4 => readAt .vote m (hsbReg off) s
    | 0x5 => readAt .vote m (memReg off) s
    | 0x6 => (match laneMaster m with
      | some x => readAt (lanePd x.1) m (fun s => rmuReg x.1 off s) s
      | none => noPathAt m s)
    | 0x7 => lsQueueAt m off (fun _ i k s => answer .ok (lsReg (off % 0x100) s.solvers[i].q[k]) s) s
    | 0x8 => if atK then answer .ok (protReg off s.cores[c].prot) s else answer .priv 0 s
    | 0x9 => readAt .aon m (wdgReg off) s
    | 0xA => readAt .vote m (cimReg off) s
    | 0xB =>
      (match rtcShadowOf m, rtcShadowAt off with
      | none, _ => noPathAt m s
      | some _, some r => rtcShadowOp m r s
      | some _, none => if off = 0x14 then rtcSnapOp m s else readAt .aon m (fun s => rtcReg off s.rtc) s)
    | 0xC => readAt .vote m (maReg off) s
    | 0xD => readAt .iox m (fgReg off) s
    | 0xE => stewAt .stew m (fun s => answer .ok (psReg off s) s) s
    | 0xF => if 0x300 ≤ off && off < 0x320 then ckekRead m atK off s else readAt .aon m (pwrReg off) s
    | 0x10 => readAt .stew m (mbxReg off) s
    | 0x11 => if m = .steward then readAt .la m (laneViewReg 0 off) s else noPathAt m s
    | 0x12 => if m = .steward then readAt .lb m (laneViewReg 1 off) s else noPathAt m s
    | 0x13 => if m = .steward then readAt .lc m (laneViewReg 2 off) s else noPathAt m s
    | _ => noPathAt m s

/-! ## Writes, block by block -/

/-- W1C: the bits written 1 are cleared. -/
def w1c {n : Nat} (old : BitVec n) (v : Word) : BitVec n := old &&& ~~~(v.setWidth n)
/-- W1C of a single flag at bit `i`. -/
def keepBit (old : Bool) (v : Word) (i : Nat) : Bool := old && !v.getLsbD i

/-- The cycle timer (R34, R36). -/
def cycWr (off : Nat) (v : Word) (s : State) : State := match off with
  | 0x000 => if v.getLsbD 1 then clrovrOp s else s
  | 0x004 => cycWrite (periodOk (v &&& 0x07FFFFFF)) (fun c => { c with period := v &&& 0x07FFFFFF }) s
  | 0x008 => cycWrite (marginOk (v &&& 0x3FFF)) (fun c => { c with margin := v &&& 0x3FFF }) s
  | 0x00C => cycWrite (retlimOk (v &&& 0x07FFFFFF)) (fun c => { c with retlim := v &&& 0x07FFFFFF }) s
  | 0x010 => cycWrite (ovrlimOk v) (fun c => { c with ovrlim := v }) s
  | 0x014 => { s with cyc := { s.cyc with err := w1c s.cyc.err v } }
  | _ => s

/-- What VOT_REQ asks for (R118): its operation and lane. -/
def votOpOf (n : Nat) : Option VotOp := match n with
  | 1 => some .reint | 2 => some .maintOut | 3 => some .abort | 4 => some .attach | 5 => some .detach | _ => none

/-- A write of VOT_REQ (R118, R529): an operation that it does not know is refused with BADOP, unless the write is ignored. -/
def votReqOp (v : Word) (s : State) : Option (Nat × String) × State := match votOpOf (field v 0 3) with
  | some op => voterRequest op (Fin.ofNat 4 (field v 6 2)) s
  | none => if s.voter.reqBusy then (none, s) else (some (0x01, "BADOP"), voterStat 0x01 s)

/-- VOT_REQ by a master (R118, R302): the Steward, the debug port, lane cores at K. -/
def votReqWr (m : Master) (atK : Bool) (v : Word) (s : State) : State :=
  let go (s : State) : State := regAt .vote m (fun s => (votReqOp v s).2) s
  match m with
  | .steward => go s
  | .debugPort => go s
  | .lane _ _ => if atK then go s else answer .priv 0 s
  | _ => noPathAt m s

/-- ECHO_STAT (R118). -/
def pairWr (off : Nat) (v : Word) (s : State) : State :=
  if 0x20 ≤ off && off < 0x30 && off % 4 = 0 then modPair (Fin.ofNat 4 (off / 4)) (fun p => { p with refused := keepBit p.refused v 10 }) s else s

/-- RING_EN (R178 to R180). -/
def ringEnWr (v : Word) (s : State) : State :=
  let z := ringEnRings (v.getLsbD 0) (v.getLsbD 1) s
  match z.1 with
  | some _ => z.2
  | none => recordEn (v.setWidth 3) z.2

/-- The ring block and ring time (R180, R206). -/
def ringWr (off : Nat) (v : Word) (s : State) : State := match off with
  | 0x000 => ringCfgWriteOp v s
  | 0x004 => ringEnWr v s
  | 0x008 => modRing (fun r => { r with locked := keepBit r.locked v 6, badval := keepBit r.badval v 7 }) s
  | 0x098 => modRtm (fun t => { t with evt := w1c t.evt v }) s
  | _ => s

/-- What HSB_REQ asks for (R233). -/
def hsbOpOf (n : Nat) : Option HsbOp := match n with
  | 1 => some .switchover | 2 => some .resync | 3 => some .abortSync | _ => none

/-- A write of HSB_REQ (R233): ignored while BUSY is 1. -/
def hsbReqOp (v : Word) (s : State) : Option (Nat × String) × State := match hsbOpOf (field v 0 3) with
  | some op => hsbRequest op s
  | none => if s.hsb.reqBusy then (none, s) else (some (0x01, "BADOP"), modHsb (fun h => { h with reqReason := 1, reqRefused := true }) s)

/-- The hot-standby block (R233). -/
def hsbWr (off : Nat) (v : Word) (s : State) : State := match off with
  | 0x00 => hsbCfgWriteOp v s
  | 0x14 => (hsbReqOp v s).2
  | 0x1C => modHsb (fun h => { h with evt := w1c h.evt v }) s
  | _ => s

/-- The memory codes (R333). -/
def memWr (off : Nat) (v : Word) (s : State) : State :=
  let r := s.memRegs
  match off with
  | 0x00 => { s with memRegs := { r with ceSeen := keepBit r.ceSeen v 0, crcSeen := keepBit r.crcSeen v 1, ueSeen := keepBit r.ueSeen v 2 } }
  | 0x04 => { s with memRegs := { r with reten := v } }
  | _ => s

/-- A configuration register of an RMU: ignored while ARMED is 1, with BADCFG (R130). -/
def rmuCfg (ok : Bool) (f : Rmu → Rmu) (r : Rmu) : Rmu := if r.armed || !ok then { r with err := setBit r.err 1 true } else f r

/-- A lane's RMU (R130). -/
def rmuWr (l : Fin 3) (off : Nat) (v : Word) (s : State) : State := match off with
  | 0x00 => modRmu l (rmuCfg (1 ≤ field v 0 13 && field v 0 13 ≤ 4096) fun r => { r with routes := v.setWidth 13 }) s
  | 0x04 => modRmu l (rmuCfg true fun r => { r with base := v &&& 0xFFE00000 }) s
  | 0x08 => modRmu l (rmuCfg true fun r => { r with lvec := v &&& 0xFFFFFE00 }) s
  | 0x0C =>
    let s := if v.getLsbD 0 then rmuArmOp l s else s
    if v.getLsbD 1 then rmuDisarmOp l s else s
  | 0x1C => modRmu l (fun r => { r with err := w1c r.err v }) s
  | _ => s

/-- LS_CMD (R83, R84). -/
def lsCmdWr (atK : Bool) (i : Fin 5) (k : Fin 2) (v : Word) (s : State) : State :=
  let atKOnly (f : State → State) : State := if atK then f s else modQueue i k (fun q => { q with err := setBit q.err 6 true }) s
  match field v 28 4 with
  | 1 => lsStartOp i k (field v 0 4) s
  | 2 => lsAbortQueue i k s
  | 8 => atKOnly (lsLoadOp i k)
  | 9 => atKOnly (lsUnloadOp i k)
  | _ => modQueue i k (fun q => { q with err := setBit q.err 1 true }) s

/-- A Logic Solver queue (R83): LS_IMG is locked while LOADED is 1. -/
def lsWr (atK : Bool) (i : Fin 5) (k : Fin 2) (off : Nat) (v : Word) (s : State) : State := match off with
  | 0x00 => lsCmdWr atK i k v s
  | 0x08 => modQueue i k (fun q => { q with err := w1c q.err (v &&& 0xFF) }) s
  | 0x0C => modQueue i k (fun q => if q.img.isSome then q else { q with imgAddr := v &&& 0xFFFFFFC0 }) s
  | _ => s

/-- The protection block (R309): a lane core's XWIN is fixed. -/
def protWr (c : CoreId) (off : Nat) (v : Word) (p : Prot) : Prot :=
  if off < 0x40 then
    if off % 8 = 0 then { p with base := p.base.set (Fin.ofNat 8 (off / 8)) (v &&& 0xFFFFFFC0) }
    else if off % 8 = 4 then { p with lim := p.lim.set (Fin.ofNat 8 (off / 8)) (v &&& 0xFFFFFFC0) } else p
  else match off with
    | 0x40 => { p with attr := v }
    | 0x44 => { p with pimg := v &&& 0xFFFFFFC0 }
    | 0x48 => if (laneOf c).isSome then p else { p with xwin := v &&& 0xF }
    | _ => p

/-- A watchdog unit's registers (R403 to R409, R422). -/
def wdgUnitWr (m : Master) (u : Fin 8) (off : Nat) (v : Word) (s : State) : State := match off with
  | 0x00 => wdgCtlOp u v s
  | 0x04 => wdgPerOp u v s
  | 0x08 => wdgWinOp u v s
  | 0x0C => wdgSvcOp m u (v.setWidth 16) s
  | 0x10 => wdgKeyOp m u (v.setWidth 16) s
  | 0x14 => modWdg u (fun w => { w with expired := keepBit w.expired v 27, badval := keepBit w.badval v 26, perlate := keepBit w.perlate v 25
                                        badsvc := keepBit w.badsvc v 24, keyerr := keepBit w.keyerr v 23 }) s
  | _ => s

/-- The watchdog block (R406, R422): the units by those who may write them, the rest by the Steward. -/
def wdgWr (a : Access) (off : Nat) (v : Word) (s : State) : State :=
  if off < 0x100 then wdgWrite a (Fin.ofNat 8 (off / 0x20)) (wdgUnitWr a.master (Fin.ofNat 8 (off / 0x20)) (off % 0x20) v) s
  else stewAt .aon a.master (fun s => match off with
    | 0x100 => { s with boot := { s.boot with substSeen := keepBit s.boot.substSeen v 1 } }
    | 0x104 => escCfgWriteOp v s
    | _ => s) s

/-- A core of a domain, at K, as the runtime writes the Check-in Monitor (R412, R423). -/
def cimBy (m : Master) (atK : Bool) (d : DomId) (f : CoreId → State → State) (s : State) : State := match masterCore m with
  | some c => if atK && domOf c == some d then regAt .vote m (f c) s else noPathAt m s
  | none => noPathAt m s

/-- The Check-in Monitor (R412, R413, R423); the Steward also clears CIM_EVT. -/
def cimWr (m : Master) (atK : Bool) (off : Nat) (v : Word) (s : State) : State :=
  let clear (d : DomId) (s : State) : State :=
    modCim d (fun x => { x with badpt := keepBit x.badpt v 0, fail := keepBit x.fail v 1, badval := keepBit x.badval v 2 }) s
  match cimAt off with
  | .pt d p => cimBy m atK d (fun _ s => cimPtOp d p v s) s
  | .chk d => cimBy m atK d (fun c s => checkinOp c (Fin.ofNat 64 (field v 0 6)) s) s
  | .evt d => if m = .steward then regAt .vote m (clear d) s else cimBy m atK d (fun _ s => clear d s) s
  | .cnt d _ => cimBy m atK d (fun _ s => s) s
  | .fail d => cimBy m atK d (fun _ s => s) s
  | .none => regAt .vote m id s

/-- The clock block (R428 to R438). LOAD is taken before a summer-time step. -/
def rtcWr (off : Nat) (v : Word) (s : State) : State := match off with
  | 0x18 => { s with rtc := { s.rtc with stime := v &&& 0x003F7F7F } }
  | 0x1C => { s with rtc := { s.rtc with sdate := v &&& 0xFFFF3F3F } }
  | 0x20 =>
    let s := if v.getLsbD 0 then rtcLoadOp s else s
    rtcDstOp (field v 1 2) s
  | 0x24 => rtcShiftOp (v.setWidth 16) s
  | 0x2C => { s with rtc := { s.rtc with err := w1c s.rtc.err v } }
  | 0x30 => rtcWakeOp v s
  | 0x34 => rtcAlmLoOp 0 v s
  | 0x38 => rtcAlmHiOp 0 v s
  | 0x3C => rtcAlmLoOp 1 v s
  | 0x40 => rtcAlmHiOp 1 v s
  | 0x44 => { s with rtc := { s.rtc with evt := w1c s.rtc.evt v } }
  | _ => s

/-- MA_REQ (R473, R486). -/
def maWr (off : Nat) (v : Word) (s : State) : State :=
  if off = 0x08 then maRequest .steward (field v 8 8) (field v 0 8) s else s

/-- The field groups (R338, R339, R353); FG_ERR by the Steward. -/
def fgWr (m : Master) (off : Nat) (v : Word) (s : State) : State :=
  if off < 0x600 then
    let g : GroupId := Fin.ofNat 6 (off / 0x100)
    let o := off % 0x100
    if o < 0x20 then if o % 4 = 0 then fgChWriteOp m g (Fin.ofNat 8 (o / 4)) v s else s
    else if o = 0x20 then fgPcfgWriteOp m g v s else s
  else if off = 0x604 then { s with fgErr := w1c s.fgErr v } else s

/-- The parameter store interface (R442, R451). -/
def psWr (off : Nat) (v : Word) (s : State) : State :=
  if 0x100 ≤ off && off < 0x200 then
    if off % 4 = 0 then modPs (fun p => { p with buf := mergePage p.buf (off - 0x100) (leBytes 4 v.toNat) }) s else s
  else match off with
    | 0x00 => if cfgLocked s then s else modPs (fun p => { p with bp := v.setWidth 2 }) s
    | 0x04 => psBy (psCmdOp (field v 28 4) (BitVec.ofNat 12 (field v 16 12)) (field v 8 8) (field v 0 8 + 1)) s
    | 0x0C => modPs (fun p => { p with err := w1c p.err v }) s
    | _ => s

/-- Power sequencer, clocks, resets, supply, fuses and debug status (R471, R504, R527). -/
def pwrWr (a : Access) (off : Nat) (v : Word) (s : State) : State :=
  if 0x340 ≤ off && off < 0x360 then
    if off % 4 = 0 then modFuses (fun f => { f with data := f.data.set (Fin.ofNat 8 ((off - 0x340) / 4)) v }) s else s
  else match off with
    | 0x00 => { s with boot := { s.boot with refused := keepBit s.boot.refused v 14 } }
    | 0x04 => if field v 0 2 = 1 then solvOn s else if field v 0 2 = 2 then solvOff s else s
    | 0x0C => { s with boot := { s.boot with clkEvt := w1c s.boot.clkEvt v } }
    | 0x14 => rstReqOp (v.setWidth 16) 9 s
    | 0x18 => bootStepOp (v.setWidth 4) s
    | 0x1C => { s with boot := { s.boot with fc1 := v.setWidth 2, fc2 := v.extractLsb' 2 2 } }
    | 0x30 => { s with power := { s.power with evt := w1c s.power.evt v } }
    | 0x3C => { s with power := { s.power with panel := v.setWidth 24 } }
    | 0x40 => { s with power := { s.power with panelFl := v.setWidth 12 } }
    | 0x100 => modFuses (fun f => { f with keyerr := keepBit f.keyerr v 7, fail := keepBit f.fail v 6 }) s
    | 0x320 => fuseCmd a (v.extractLsb' 16 16) (v.extractLsb' 8 8) s
    | 0x360 => { s with dbg := { s.dbg with refused := keepBit s.dbg.refused v 8 } }
    | _ => s

/-- The mailbox block (R378): port 0 is out of range. -/
def mbxWr (off : Nat) (v : Word) (s : State) : State :=
  if off = 0x00 && field v 16 16 ≠ 0 then { s with mbx := { s.mbx with port := v.extractLsb' 16 16, frt := v.getLsbD 1, eth := v.getLsbD 0 } } else s

/-! ## Writes -/

/-- A write of `v` to the register at `off` of block `blk` (R10, R22, R307): the answer stands in `bus`. -/
def regWrite (m : Master) (atK : Bool) (blk off : Nat) (v : Word) (s : State) : State :=
  let a : Access := { master := m, atK := atK }
  match blk with
  | 0x0 => stewAt .vote m (cycWr off v) s
  | 0x1 => if off = 0x044 then votReqWr m atK v s else stewAt .vote m id s
  | 0x2 => stewAt .vote m (pairWr off v) s
  | 0x3 => stewAt .vote m (ringWr off v) s
  | 0x4 => stewAt .vote m (hsbWr off v) s
  | 0x5 => stewAt .vote m (memWr off v) s
  | 0x6 => (match laneMaster m with
    | none => noPathAt m s
    | some x => if !pdOn (lanePd x.1) s then regAt (lanePd x.1) m id s else if atK then regAt (lanePd x.1) m (rmuWr x.1 off v) s else answer .priv 0 s)
  | 0x7 => lsQueueAt m off (fun _ i k s => lsWr atK i k (off % 0x100) v (answer .ok 0 s)) s
  | 0x8 => (match masterCore m with
    | none => noPathAt m s
    | some c => if atK then answer .ok 0 (modCore c (fun k => { k with prot := protWr c off v k.prot }) s) else answer .priv 0 s)
  | 0x9 => wdgWr a off v s
  | 0xA => cimWr m atK off v s
  | 0xB => rtcWrite m (rtcWr off v) s
  | 0xC => stewAt .vote m (maWr off v) s
  | 0xD => if m = .outputGuard || (masterCore m).isSome then regAt .iox m (fgWr m off v) s else noPathAt m s
  | 0xE => stewAt .stew m (psWr off v) s
  | 0xF => stewAt .aon m (pwrWr a off v) s
  | 0x10 => stewAt .stew m (mbxWr off v) s
  | _ => noPathAt m s

/-- REGISTER_WRITE (R10): a 32-bit store to a register block. An address outside the blocks is no register's. -/
def execRegisterWrite (a : Access) (addr : Word) (v : Word) (s : State) : Meaning := .next <|
  match locate a.master addr.toNat s with
  | .reg blk off => if off % 4 = 0 then regWrite a.master a.atK blk off v s else noPathAt a.master s
  | .nowhere => noPathAt a.master s
  | _ => s

end Sys2Proof.Machine
end

