-- ==== Sys2Proof/Machine/NeropMem.lean ====
section
/-! DEFINITION. Loads, stores, LR.W and SC.W, and the end of a bank's wake (R22, R28, R122, R124, R245, R279 to R282, R302, R309, R317, R318,
R322 to R325, R331). -/

namespace Sys2Proof.Machine

/-! ## Rights and places -/

/-- The bytes an operation moves. -/
def MemOp.size : MemOp → Nat
  | .load n _ _ => n | .store n _ => n | .lr _ => 4 | .sc _ _ => 4
/-- A write. -/
def MemOp.writes : MemOp → Bool
  | .load _ _ _ => false | .store _ _ => true | .lr _ => false | .sc _ _ => true
/-- LR.W or SC.W. -/
def MemOp.atomic : MemOp → Bool
  | .load _ _ _ => false | .store _ _ => false | .lr _ => true | .sc _ _ => true

/-- A value to write. -/
def MemOp.val : MemOp → Nat
  | .load _ _ _ => 0 | .store _ v => v.toNat | .lr _ => 0 | .sc _ v => v.toNat

/-- The privilege trap by the core's protection regions (R302, R309): at U, any access to a K region, and a store to a code bank or to edge
memory. -/
def regionDenied (a : Arch) (p : Prot) (op : MemOp) (addr : Word) : Bool :=
  !a.priv && (region p addr).any fun x => x.testBit 1 || (op.writes && (x.testBit 2 || x.testBit 3))

/-- A store touches a byte of %Q with a marked payload bit (R122). -/
def touchesMarked (c : CoreId) (n : Nat) (addr : Word) (s : State) : Bool := match locate (coreMaster c) addr.toNat s with
  | .sram k off => domMem c == some k && (lanesOf off n).any fun o => markedByte c o 0xFF s
  | _ => false

/-- A store by a lane core touches the matrix region or the lane's lock vector (R124). -/
def touchesRmu (c : CoreId) (n : Nat) (addr : Word) (s : State) : Bool := match locate (coreMaster c) addr.toNat s with
  | .sram k off => domMem c == some k && (lanesOf off n).any fun o => rmuByte c o s
  | _ => false

/-- Where a core may use LR.W and SC.W (R281). -/
def atomicPlace (c : CoreId) (w : Where) : Bool := match pairOf c, laneOf c, w with
  | some _, _, .sram 0 off => !inVoted off
  | some _, _, .sram 5 _ => true
  | none, some (l, _), .sram k _ => k == laneMem l
  | none, none, .sram 4 _ => true
  | _, _, _ => false

/-- The privilege trap of a register that the core may not reach at its level (R302, R309), of whatever kind the access is. -/
def regDenied (c : CoreId) (op : MemOp) (addr : Word) (s : State) : Option Trap := match locate (coreMaster c) addr.toNat s with
  | .reg blk off =>
    let k := s.cores[c].arch.priv
    let t := if op.writes then regWrite (coreMaster c) k blk off (BitVec.ofNat 32 op.val) s else regRead (coreMaster c) k blk off s
    if op.size = 4 && off % 4 = 0 && t.bus.resp == .priv then some (.priv (if blk = 1 then 5 else 6)) else none
  | _ => none

/-- The trap of an access before it is made, in the order of R295: privilege, then access fault. -/
def accessTrap (c : CoreId) (op : MemOp) (addr : Word) (s : State) : Option Trap :=
  let k := s.cores[c]
  if regionDenied k.arch k.prot op addr then some (.priv 6)
  else if op.writes && !k.arch.priv && touchesMarked c op.size addr s then some (.priv 4)
  else if (regDenied c op addr s).isSome then regDenied c op addr s
  else if op.atomic && addr.toNat % 4 ≠ 0 then some (.access 5)
  else if op.atomic && !atomicPlace c (locate (coreMaster c) addr.toNat s) then some (.access 4)
  else if op.writes && touchesRmu c op.size addr s then some (.access 6)
  else none

/-! ## Results -/

/-- A loaded value, sign- or zero-extended (R245). -/
def extendLoad (n : Nat) (signed : Bool) (v : Nat) : Word :=
  if n = 1 then (if signed then (BitVec.ofNat 8 v).signExtend 32 else (BitVec.ofNat 8 v).setWidth 32)
  else if n = 2 then (if signed then (BitVec.ofNat 16 v).signExtend 32 else (BitVec.ofNat 16 v).setWidth 32)
  else BitVec.ofNat 32 v

/-- What an operation that read `v` gives; `key` is the granule that LR.W reserves (R279). -/
def readEff (op : MemOp) (v key : Nat) : Eff := match op with
  | .load n sg rd => outG rd (extendLoad n sg v) 3
  | .lr rd => { outG rd (BitVec.ofNat 32 v) 3 with resv := some (some key) }
  | .store _ _ => {}
  | .sc _ _ => {}

/-- What a write gives: an SC.W reports whether it was performed and clears the reservation (R279, R282). -/
def writeEff (op : MemOp) (done : Bool) : Eff := match op with
  | .sc rd _ => { outG rd (if done then 0 else 1) 3 with resv := some none }
  | .store _ _ => {}
  | .load _ _ _ => {}
  | .lr _ => {}

/-- What an access that completes without being performed gives: a read returns 0, a write is dropped (R22, R28). -/
def droppedEff (op : MemOp) : Eff := match op with
  | .load _ _ rd => outG rd 0 3
  | .lr rd => outG rd 0 3
  | .store _ _ => {}
  | .sc _ _ => writeEff op false

/-- The effect of a response UE on a core (R318): a lane's memory excludes the lane, and its own core does not go on; elsewhere MEMERR; an error
in Steward SRAM makes the firmware ask for a module reset (cause STEWARD, R456). -/
def ueResponse (c : CoreId) (code : Nat) (s : State) : MemRes :=
  if 1 ≤ code ∧ code ≤ 3 then
    match laneOf c with
    | some _ => .held (laneMemErr code s)
    | none => .trap (.memerr 2) (laneMemErr code s)
  else if code = 4 then .trap (.memerr 2) (orderlyBegin 9 s)
  else .trap (.memerr 2) s

/-! ## The memories -/

/-- An on-chip read of `op.size` bytes (R313, R317, R319, R322). -/
def readSram (c : CoreId) (op : MemOp) (code off : Nat) (s : State) : MemRes :=
  let z := checkWord c.val code (off / 8) s
  match z.1 with
  | some _ => ueResponse c code z.2.2
  | none => .ok (readEff op (readRot code off op.size s) (memKey code (off / 64))) (if z.2.1 then raiseCorrected c z.2.2 else z.2.2)

/-- An on-chip write (R317, R322 to R324): not performed on a poisoned word, nor where it loses a collision. -/
def writeSram (c : CoreId) (op : MemOp) (code off : Nat) (meet : Option Meet) (s : State) : MemRes :=
  if poisoned code (off / 8) s then ueResponse c code (recordErr code (off / 64) c.val .poison s)
  else
    let r := collide c.val (storeClass c) code (off / 8) meet s
    .ok (writeEff op r.1) (if r.1 then storeRot (some c) code off op.size op.val r.2 else r.2)

/-- An SC.W without a valid reservation on its granule (R279). -/
def scFails (a : Arch) (op : MemOp) (key : Nat) : Bool := match op with
  | .sc _ _ => a.resv != some key
  | .load _ _ _ => false | .store _ _ => false | .lr _ => false

/-- An access to on-chip memory. -/
def accessSram (c : CoreId) (op : MemOp) (code off : Nat) (meet : Option Meet) (s : State) : MemRes :=
  if scFails s.cores[c].arch op (memKey code (off / 64)) then .ok (writeEff op false) s
  else if op.writes then writeSram c op code off meet s
  else readSram c op code off s

/-- An access through the external window: a write is a read, a merge and a write of its line (R329, R331). -/
def accessExt (c : CoreId) (op : MemOp) (off : Nat) (s : State) : MemRes :=
  let z := extDecode c.val (off / 128) s
  if !z.1 then ueResponse c 6 z.2
  else if op.writes then
    .ok (writeEff op true) (storeRot (some c) 6 off op.size op.val
      (extClear (off / 128) z.2))
  else .ok (readEff op (readRot 6 off op.size s) (memKey 6 (off / 64))) z.2

/-- An access to a register block (R307): an aligned word, or NO_PATH. -/
def accessReg (c : CoreId) (op : MemOp) (blk off : Nat) (s : State) : MemRes :=
  let m := coreMaster c
  let k := s.cores[c].arch.priv
  let t := if op.size ≠ 4 || off % 4 ≠ 0 then noPathAt m s else if op.writes then regWrite m k blk off (BitVec.ofNat 32 op.val) s else regRead m k blk off s
  match t.bus.resp with
  | .ok => .ok (readEff op t.bus.val.toNat 0) t
  | _ => .ok (droppedEff op) t

/-- An access to a bit-file window (R78, R306). -/
def accessWin (c : CoreId) (op : MemOp) (i : Fin 5) (off : Nat) (s : State) : MemRes := match lsReach c i s with
  | .error r => .ok (droppedEff op) (answer r 0 (countAf (coreMaster c) s))
  | .ok k =>
    let z := windowAccess i k op.writes off op.size op.val s
    if z.1 = .ok then .ok (readEff op z.2.1 0) z.2.2
    else .ok (droppedEff op) (answer z.1 0 (if z.1 = .noPath then countAf (coreMaster c) z.2.2 else z.2.2))

/-- Starts the wake of a bank in retention and holds the access (R28, R325). -/
def holdAccess (c : CoreId) (op : MemOp) (addr : Word) (meet : Option Meet) (word : Word) (w : Where) (s : State) : State :=
  let s := match bankOf w with | some b => wakeBank b s | none => s
  modCore c (fun k => { k with hold := .bank op addr meet word (nextSeq s) }) s

/-- An access to a memory with a path: its domain, its bank, its bytes. -/
def accessMem (c : CoreId) (op : MemOp) (addr : Word) (meet : Option Meet) (word : Word) (w : Where) (s : State) : MemRes :=
  let m := coreMaster c
  if !pathOk m w op.writes then .ok (droppedEff op) (noPathAt m s)
  else if !pdOn (wherePd w) s then .ok (droppedEff op) (answer .domOff 0 (countAf m s))
  else if !bankReady w s then .held (holdAccess c op addr meet word w s)
  else match w with
    | .sram code off => accessSram c op code off meet s
    | .ext off => accessExt c op off s
    | .reg _ _ => .ok (droppedEff op) (noPathAt m s)
    | .win _ _ => .ok (droppedEff op) (noPathAt m s)
    | .nowhere => .ok (droppedEff op) (noPathAt m s)

/-- A core's access through the fabric. -/
def access (c : CoreId) (op : MemOp) (addr : Word) (meet : Option Meet) (word : Word) (s : State) : MemRes :=
  match accessTrap c op addr s with
  | some t => .trap t s
  | none => match locate (coreMaster c) addr.toNat s with
    | .reg blk off => accessReg c op blk off s
    | .win i off => accessWin c op i off s
    | w => accessMem c op addr meet word w s

/-! ## The instructions -/

/-- One slot of a load, a store or an atomic instruction. -/
def memInstr (i : Instr) (h : Hdr) (op : Arch → MemOp) (addr : Arch → Word) (s : State) : Meaning :=
  .next (issueBy access i h (fun a => guardOn a h) (fun a _ => .mem (op a) (addr a)) s)

/-- The address of a load or store: base plus signed displacement (R244, R245). -/
def dispAddr (rs1 : Reg) (imm : BitVec 12) (a : Arch) : Word := a.reg rs1 + simm imm

/-- LDB. -/
def execLdb (h : Hdr) (rd : Reg) (rs1 : Reg) (imm : BitVec 12) (s : State) : Meaning :=
  memInstr (.ldb h rd rs1 imm) h (fun _ => .load 1 true rd) (dispAddr rs1 imm) s
/-- LDBU. -/
def execLdbu (h : Hdr) (rd : Reg) (rs1 : Reg) (imm : BitVec 12) (s : State) : Meaning :=
  memInstr (.ldbu h rd rs1 imm) h (fun _ => .load 1 false rd) (dispAddr rs1 imm) s
/-- LDH. -/
def execLdh (h : Hdr) (rd : Reg) (rs1 : Reg) (imm : BitVec 12) (s : State) : Meaning :=
  memInstr (.ldh h rd rs1 imm) h (fun _ => .load 2 true rd) (dispAddr rs1 imm) s
/-- LDHU. -/
def execLdhu (h : Hdr) (rd : Reg) (rs1 : Reg) (imm : BitVec 12) (s : State) : Meaning :=
  memInstr (.ldhu h rd rs1 imm) h (fun _ => .load 2 false rd) (dispAddr rs1 imm) s
/-- LDW. -/
def execLdw (h : Hdr) (rd : Reg) (rs1 : Reg) (imm : BitVec 12) (s : State) : Meaning :=
  memInstr (.ldw h rd rs1 imm) h (fun _ => .load 4 false rd) (dispAddr rs1 imm) s
/-- STB. -/
def execStb (h : Hdr) (rd : Reg) (rs1 : Reg) (imm : BitVec 12) (s : State) : Meaning :=
  memInstr (.stb h rd rs1 imm) h (fun a => .store 1 (a.reg rd)) (dispAddr rs1 imm) s
/-- STH. -/
def execSth (h : Hdr) (rd : Reg) (rs1 : Reg) (imm : BitVec 12) (s : State) : Meaning :=
  memInstr (.sth h rd rs1 imm) h (fun a => .store 2 (a.reg rd)) (dispAddr rs1 imm) s
/-- STW. -/
def execStw (h : Hdr) (rd : Reg) (rs1 : Reg) (imm : BitVec 12) (s : State) : Meaning :=
  memInstr (.stw h rd rs1 imm) h (fun a => .store 4 (a.reg rd)) (dispAddr rs1 imm) s
/-- LR.W. -/
def execLrW (h : Hdr) (rd : Reg) (rs1 : Reg) (s : State) : Meaning := memInstr (.lrW h rd rs1) h (fun _ => .lr rd) (fun a => a.reg rs1) s
/-- SC.W. -/
def execScW (h : Hdr) (rd : Reg) (rs1 : Reg) (rs2 : Reg) (s : State) : Meaning :=
  memInstr (.scW h rd rs1 rs2) h (fun a => .sc rd (a.reg rs2)) (fun a => a.reg rs1) s

/-! ## The end of a wake -/

/-- Performs a core's held access, and the instruction ends as it would have. -/
def resumeAccess (c : CoreId) (s : State) : State := match s.cores[c].hold with
  | .bank op addr meet word _ =>
    let s := modCore c (fun k => { k with hold := .none }) s
    (match access c op addr meet word s with
    | .trap t s => takeTrap c t word s
    | .held s => s
    | .ok e s => retire c e s)
  | _ => s

/-- The place of a core's held access in the order of arrival, for an access to bank `b`. -/
def heldSeq (b : Fin 33) (k : Core) : Option Nat := match k.hold with
  | .bank _ _ _ _ q => if holdsBank b k then some q else none
  | _ => none

/-- The core whose access to bank `b` arrived first. -/
def firstHeld (b : Fin 33) (s : State) : Option CoreId :=
  (([0, 1, 2, 3, 4, 5, 6, 7, 8, 9, 10] : List CoreId).foldl (fun (best : Option (CoreId × Nat)) c =>
    match heldSeq b s.cores[c], best with
    | none, _ => best
    | some q, none => some (c, q)
    | some q, some x => if q < x.2 then some (c, q) else best) none).map Prod.fst

/-- Performs the held access to bank `b` that arrived first: a core's, or a write of another master. -/
def servedNext (b : Fin 33) (s : State) : State :=
  let w := s.memRegs.held.find? fun h => h.bank == b
  let c := firstHeld b s
  let mine := match c, w with
    | some c, some w => decide ((heldSeq b s.cores[c]).getD 0 < w.seq)
    | some _, none => true
    | none, _ => false
  if mine then (match c with | some c => resumeAccess c s | none => s)
  else match w with
    | some w => store w.by_ w.code w.off w.data { s with memRegs := { s.memRegs with held := s.memRegs.held.filter (· != w) } }
    | none => s

/-- The wake delay (R28): 12 µs for a standard bank, 40 µs for the Grotto. -/
def wakeTicks (b : Fin 33) : Nat := (if b.val = 32 then 40 else 12) * tickUs

/-- BANK_WAKE_DONE (R28, R325): the wake of a bank ends, and the accesses held for it are performed in the order of arrival; an instruction
on bit memory that it held issues in its core's next slot. -/
def execBankWakeDone (b : Fin 33) (s : State) : Meaning := .next <|
  if s.banks[b] == .waking && wakeTicks b ≤ since s.memRegs.wakeAt[b] s then
    let s : State := { s with banks := s.banks.set b .active, cores := s.cores.map fun k => if k.hold == .slot b then { k with hold := .none } else k }
    (List.range (11 + s.memRegs.held.length)).foldl (fun s _ => servedNext b s) s
  else s

end Sys2Proof.Machine
end

