-- ==== Sys2Proof/Machine/NeropSys.lean ====
section
/-! DEFINITION. Branches, special registers, software traps, RTE, WAIT, FENCE, the RMU instructions, reserved encodings and interrupt
entry (R128, R238, R244, R250, R290, R297 to R304). -/

namespace Sys2Proof.Machine

/-- A branch's target: its own address + 4 × DISP (R244). -/
def branchTo (a : Arch) (d : BitVec 18) : Word := a.ia + (d.signExtend 32 <<< 2)

/-- B. -/
def execBranch (h : Hdr) (disp : BitVec 18) (s : State) : Meaning := issue (.branch h disp) h (fun a _ => .jump (branchTo a disp) false) s
/-- BL. -/
def execBl (h : Hdr) (disp : BitVec 18) (s : State) : Meaning := issue (.bl h disp) h (fun a _ => .jump (branchTo a disp) true) s
/-- JR: the target's bits [1:0] are ignored (R245). -/
def execJr (h : Hdr) (rs1 : Reg) (s : State) : Meaning := issue (.jr h rs1) h (fun a _ => .jump (a.reg rs1 &&& 0xFFFFFFFC) false) s
/-- JLR. -/
def execJlr (h : Hdr) (rs1 : Reg) (s : State) : Meaning := issue (.jlr h rs1) h (fun a _ => .jump (a.reg rs1 &&& 0xFFFFFFFC) true) s

/-- MFSR (R238): reads of CYCL and TBL copy the high half into the core's shadow. -/
def execMfsr (h : Hdr) (rd : Reg) (sr : Fin 64) (s : State) : Meaning :=
  issue (.mfsr h rd sr) h (fun a s =>
    if !a.priv && srK sr.val then .trap (.priv 1)
    else .done { outG rd (a.sr h.core sr.val s) 1 with
      cycSh := if sr.val = 0x10 then some ((countSeen h.core s >>> 32).setWidth 32) else none
      tbSh := if sr.val = 0x12 then some ((tbSeen h.core s >>> 32).setWidth 32) else none }) s

/-- MTSR (R237, R238): AnL, AnH and AnG by the distance of MUL or MAC, all others from the next slot. -/
def execMtsr (h : Hdr) (rs : Reg) (sr : Fin 64) (s : State) : Meaning :=
  issue (.mtsr h rs sr) h (fun a _ =>
    if !a.priv && srK sr.val then .trap (.priv 1)
    else match accSr sr.val with
      | some (r, k) => .done { outs := [(.accPart r k, (a.reg rs).setWidth 72, 2)] }
      | none => .done { sr := [(sr.val, a.reg rs)] }) s

/-- TRAP: software trap SX (R250). -/
def execTrapSw (h : Hdr) (sx : Fin 64) (s : State) : Meaning := issue (.trapSw h sx) h (fun _ _ => .trap (.swtrap sx.val)) s
/-- RTE (R300): at K only. -/
def execRte (h : Hdr) (s : State) : Meaning := issue (.rte h) h (fun a _ => if a.priv then .rte else .trap (.priv 2)) s
/-- WAIT (R304): at K only. -/
def execWaitInt (h : Hdr) (s : State) : Meaning := issue (.waitInt h) h (fun a _ => if a.priv then .wait else .trap (.priv 2)) s
/-- FENCE: each access of the model is complete when it is made (R250). -/
def execFence (h : Hdr) (s : State) : Meaning := issue (.fence h) h (fun _ _ => .done {}) s

/-- An RMU instruction: at K only, on the lane core of the group that carries interlocking work (R18, R128). -/
def rmuAct (c : CoreId) (op : Fin 3) (rd rs : Reg) (a : Arch) (s : State) : Act :=
  if !a.priv then .trap (.priv 3)
  else match laneOf c with
    | some (_, k) => if (ixlOf s).any (fun x => x.1 == k) then .rmu op rd (a.reg rs) else .trap .illop
    | none => .trap .illop

/-- RMU.CHECK. -/
def execRmuCheck (h : Hdr) (rd : Reg) (rs : Reg) (s : State) : Meaning := issue (.rmuCheck h rd rs) h (rmuAct h.core 0 rd rs) s
/-- RMU.LOCK. -/
def execRmuLock (h : Hdr) (rd : Reg) (rs : Reg) (s : State) : Meaning := issue (.rmuLock h rd rs) h (rmuAct h.core 1 rd rs) s
/-- RMU.RELEASE. -/
def execRmuRelease (h : Hdr) (rd : Reg) (rs : Reg) (s : State) : Meaning := issue (.rmuRelease h rd rs) h (rmuAct h.core 2 rd rs) s

/-- The header of a word: its guard (R240). -/
def wordHdr (c : CoreId) (w : BitVec 32) : Hdr := { core := c, pg := Fin.ofNat 8 (w.toNat / 2 ^ 29), pn := w.getLsbD 28, meet := none }

/-- A word that is a reserved encoding (R242): the EMUL trap, or the illegal-sequence trap in a delay slot. A word that decodes is not this
event and changes nothing. -/
def execReservedEncoding (c : CoreId) (w : BitVec 32) (s : State) : Meaning :=
  if (decodeNerop c none w.toNat).any fun i => i.wf && !isReserved i then .next s
  else issue (.reservedEncoding c w) (wordHdr c w) (fun _ _ => .trap .emul) s

/-- An interrupt is taken at the boundary before the next instruction (R292, R294, R297). -/
def execInterruptEntry (c : CoreId) (s : State) : Meaning :=
  let s := leaveWait c s
  if !coreRuns c s then .next s
  else match irqReady c s with
    | none => .next s
    | some b =>
      let s := modArch c (fun a => a.enter (pack [(7, 0), (b.val, 8), (1, 31)]) 7 0) s
      .next (match pairOf c with | some n => brkCheck n s | none => s)

end Sys2Proof.Machine
end

