-- ==== Sys2Proof/Machine/StewardCmds.lean ====
section
/-! DEFINITION. The commands of the Steward's mailboxes that read the module, operate it, or end below in the Archive, the ring or the clock (R368 to
R377, R421, R437). The orders of fields that the spec does not give are those of log entry 10. -/

namespace Sys2Proof.Machine

/-- A word of a reply. -/
def wordBytes (w : Word) : List Byte := leBytes 4 w.toNat

/-- Runs a command whose data has exactly `n` bytes. -/
def runSized (r : CmdRef) (code n : Nat) (f : List Byte → State → State) (s : State) : State :=
  runCmd r code (fun x s => if x.length ≠ n then badParam r 0 s else f x s) s

/-! ## Reads -/

/-- IDENT: ordering code, serial number, stratum set, interface versions of the running classes. -/
def identData (s : State) : List Byte :=
  leBytes 1 s.fuses.order.toNat ++ leBytes 8 s.fuses.serial.toNat ++ leBytes 8 s.boot.rec_.setRun.toNat ++
    s.update.running.toList.flatMap fun f => f.ifs.flatMap fun e => leBytes 2 e.iface.toNat ++ leBytes 2 e.prov.toNat
/-- IDENT. -/
def execIdent (r : CmdRef) (s : State) : Meaning := .next (runSized r 0x0101 0 (fun _ s => finish r .ok 0 (identData s) s) s)

/-- STATUS: the seven dimensions as MA_STAT codes them, VOT_GSTAT0 and 1, HSB_STAT, the escalation count. -/
def statusData (s : State) : List Byte :=
  wordBytes (maStat s) ++ wordBytes (gstat s.voter.grp[(0 : Fin 2)]) ++ wordBytes (gstat s.voter.grp[(1 : Fin 2)]) ++ wordBytes (hsbStat s) ++
    leBytes 1 s.esc.count24.toNat
/-- STATUS. -/
def execStatusCmd (r : CmdRef) (s : State) : Meaning := .next (runSized r 0x0102 0 (fun _ s => finish r .ok 0 (statusData s) s) s)

/-- A register read by the Steward at K; an address outside the blocks has no path. -/
def stewRead (a : Nat) (s : State) : State := match locate .steward a s with
  | .reg blk off => regRead .steward true blk off s
  | _ => noPathAt .steward s

/-- Reads `n` registers from `a` upward: none where one has no path. -/
def readRegs : Nat → Nat → State → Option (List Byte) × State
  | 0, _, s => (some [], s)
  | n + 1, a, s =>
    let s := stewRead a s
    if s.bus.resp = .noPath then (none, s)
    else
      let z := readRegs n (a + 4) s
      (z.1.map fun bs => wordBytes s.bus.val ++ bs, z.2)

/-- READ_REG. -/
def execReadReg (r : CmdRef) (s : State) : Meaning := .next <| runSized r 0x0103 8 (fun x s =>
  let a := sliceNat 0 4 x
  let n := sliceNat 4 2 x
  if a % 4 ≠ 0 then badParam r 0 s
  else if n = 0 || 256 < n then badParam r 4 s
  else if sliceNat 6 2 x ≠ 0 then badParam r 6 s
  else
    let z := readRegs n a s
    match z.1 with
    | none => finish r .noPath 0 [] z.2
    | some bs => finish r .ok 0 bs z.2) s

/-- The bytes of a memory, by the memory code of R333. -/
def memSize (code : Nat) : Nat := match code with
  | 0 => 2 ^ 25 | 4 => 2 ^ 21 | 5 => 2 ^ 22 | 6 => 2 ^ 34 | _ => 2 ^ 24

/-- A place of a memory by its code. -/
def memPlace (code off : Nat) : Where := if code = 6 then .ext off else .sram code off

/-- Eight bytes of an on-chip word, or the bytes of an external line, as the Steward reads them: free where the codes find no correct value. -/
def stewWord (code off n : Nat) (s : State) : List Byte × State :=
  let ok : Bool × State :=
    if code = 6 then extDecode 10 (off / 128) s
    else
      let z := checkWord 10 code (off / 8) s
      (z.1.isNone, if z.1.isSome then laneMemErr code z.2.2 else if z.2.1 then raiseCorrected stewCore z.2.2 else z.2.2)
  if ok.1 then (readBytes code off n ok.2, ok.2) else let f := nextFree ok.2; (leBytes n (Config.freeNat f.1), f.2)

/-- Reads bytes word by word; `fuel` bounds the words. -/
def stewBytes (code : Nat) : Nat → Nat → Nat → State → List Byte × State
  | 0, _, _, s => ([], s)
  | fuel + 1, off, n, s =>
    if n = 0 then ([], s)
    else
      let step := if code = 6 then 128 else 8
      let k := min n (step - off % step)
      let z := stewWord code off k s
      let t := stewBytes code fuel (off + k) (n - k) z.2
      (z.1 ++ t.1, t.2)

/-- The banks that a range of bytes lies in. -/
def rangeBanks (code off n : Nat) : List (Fin 33) :=
  if code = 0 then ((List.range 32).filter fun i => off / 2 ^ 20 ≤ i && i ≤ (off + n - 1) / 2 ^ 20).map (Fin.ofNat 33) else if code = 5 then [32] else []

/-- READ_MEM over the Steward's paths (R22, R312): the key area and bytes beyond a memory have no path; a memory that is off reads 0. A command
whose bank sleeps wakes it and is held until it is awake (R28). -/
def readMem (r : CmdRef) (code off n : Nat) (s : State) : State :=
  let key : Bool := 1 ≤ code && code ≤ 3 && ((off < 0x1000000 && 0xFFC000 < off + n) || (off < 0xF74000 && 0xF70000 < off + n))
  if key || memSize code < off + n then finish r .noPath 0 [] (countAf .steward s)
  else if n = 0 then finish r .ok 0 [] s
  else if !pdOn (wherePd (memPlace code off)) s then finish r .ok 0 (List.replicate n 0) (countAf .steward s)
  else if (rangeBanks code off n).any fun b => s.banks[b] != .active then notStarted r ((rangeBanks code off n).foldl (fun s b => wakeBank b s) s)
  else
    let z := stewBytes code (n / 8 + 2) off n s
    finish r .ok 0 z.1 z.2
/-- READ_MEM. -/
def execReadMem (r : CmdRef) (s : State) : Meaning := .next <| runSized r 0x0104 16 (fun x s =>
  if 6 < sliceNat 0 1 x then badParam r 0 s
  else if sliceNat 1 3 x ≠ 0 then badParam r 1 s
  else if 65536 < sliceNat 12 4 x then badParam r 12 s
  else readMem r (sliceNat 0 1 x) (sliceNat 4 8 x) (sliceNat 12 4 x) s) s

/-- SUP_READ: the watchdog units, the Check-in Monitor's sets, the ladder. -/
def supData (s : State) : List Byte :=
  let u := s.wdg.toList.flatMap fun w => [wdgUnitReg 0 w, wdgUnitReg 4 w, wdgUnitReg 8 w, wdgUnitReg 0x14 w, wdgUnitReg 0x18 w]
  let c := allDoms.flatMap fun d => [cimReg (0xC04 + 16 * d.val) s, cimReg (0xC08 + 16 * d.val) s]
  (u ++ c ++ [wdgReg 0x104 s, wdgReg 0x108 s, wdgReg 0x10C s]).flatMap wordBytes
/-- SUP_READ. -/
def execSupRead (r : CmdRef) (s : State) : Meaning := .next (runSized r 0x0901 0 (fun _ s => finish r .ok 0 (supData s) s) s)

/-! ## Operate (R372) -/

/-- MODE_REQ: written when MA_REQSTAT.BUSY is 0; it ends with the effect. -/
def execModeReq (r : CmdRef) (s : State) : Meaning := .next <| runSized r 0x0201 4 (fun x s =>
  if sliceNat 2 2 x ≠ 0 then badParam r 2 s
  else if maBusy s then notStarted r s
  else
    let z := modeRequest (sliceNat 0 1 x) (sliceNat 1 1 x) .steward (waitFor r .mode s)
    match z.1 with
    | some e => finishRefused r e.1 e.2 z.2
    | none => if (slotOf r z.2).isSome && !maBusy z.2 then finish r .ok 0 [] z.2 else z.2) s

/-- VOTER_REQ: a VOT_REQ word; the reply holds VOT_REQSTAT. -/
def execVoterReq (r : CmdRef) (s : State) : Meaning := .next <| runSized r 0x0202 4 (fun x s =>
  if s.voter.reqBusy then notStarted r s
  else
    let z := votReqOp (BitVec.ofNat 32 (leNat x)) s
    match z.1 with
    | some e => finishRefused r e.1 e.2 z.2
    | none => finish r .ok 0 (wordBytes (votReqstat z.2)) z.2) s

/-- HSB_REQ: an HSB_REQ word; a switchover ends when it has been announced or has timed out; the reply holds HSB_REQSTAT. -/
def execHsbReq (r : CmdRef) (s : State) : Meaning := .next <| runSized r 0x0203 4 (fun x s =>
  if s.hsb.reqBusy then notStarted r s
  else
    let z := hsbReqOp (BitVec.ofNat 32 (leNat x)) s
    match z.1 with
    | some e => finishRefused r e.1 e.2 z.2
    | none => if z.2.hsb.reqBusy then waitFor r .hsb z.2 else finish r .ok 0 (wordBytes (hsbReqstat z.2)) z.2) s

/-- RESTART (R60, R372, R480): of a group only with S rights. -/
def execRestartCmd (r : CmdRef) (s : State) : Meaning := .next <| runSized r 0x0204 4 (fun x s =>
  let d : DomId := Fin.ofNat 6 (sliceNat 0 1 x)
  if 5 < sliceNat 0 1 x then badParam r 0 s
  else if 1 < sliceNat 1 1 x then badParam r 1 s
  else if sliceNat 2 2 x ≠ 0 then badParam r 2 s
  else if (domGroup d).isSome && !(rightsOf r s).getLsbD 4 then finish r .denied 0 [] s
  else if maBusy s then notStarted r s
  else match runStateRefusal d true s with
    | some e => finishRefused r e.1 e.2 s
    | none => finish r .ok 0 [] (domRestart d (sliceNat 1 1 x == 1) 0 s)) s

/-- RESET: the reply leaves before the reset (R368, R457). -/
def execResetCmd (r : CmdRef) (s : State) : Meaning := .next (runSized r 0x0205 0 (fun _ s => orderlyBegin 3 (finish r .ok 0 [] s)) s)

/-! ## Configure (R377) -/

/-- RING_EN: ends when the change is recorded. In a start with RING_SKIP it initialises the ring PHYs, whose self-test is free; success clears FC9 and
RING_SKIP (R464). -/
def execRingEn (r : CmdRef) (s : State) : Meaning := .next <| runSized r 0x0303 4 (fun x s =>
  let v : Word := BitVec.ofNat 32 (leNat x)
  let skip : Bool := s.boot.rec_.flags.getLsbD 2 && v.toNat % 4 ≠ 0
  let f := nextFree s
  let s := if skip then f.2 else s
  if skip && !Config.freeBool f.1 then finishRefused r 0x09 "RING_SKIP" s
  else
    let s := if skip then writeBoot (fun b => setFc 9 0 { b with flags := setBit b.flags 2 false }) s else s
    let z := ringEnRings (v.getLsbD 0) (v.getLsbD 1) s
    match z.1 with
    | some e => finishRefused r e.1 e.2 z.2
    | none => let s := recordEn (v.setWidth 3) z.2; finish r .ok 0 (wordBytes (ringStat s)) s) s

/-- The instance that LS_DISABLE numbers. -/
def lssOf (n : Nat) : Fin 5 := if n = 0 then 3 else 4

/-- LS_DISABLE: recorded; DISABLED where the instance has no claim, or a disable of it waits. -/
def execLsDisable (r : CmdRef) (s : State) : Meaning := .next <| runSized r 0x0304 4 (fun x s =>
  let i := lssOf (sliceNat 0 1 x)
  if 1 < sliceNat 0 1 x then badParam r 0 s
  else if sliceNat 1 3 x ≠ 0 then badParam r 1 s
  else if s.solvers[i].claim.isNone || s.solvers[i].disablePend.isSome then finish r .disabled 0 [] s
  else modSolver i (fun v => { v with disablePend := some r }) s) s

/-- LS_DISABLE_TAKE_EFFECT, at T_j, where CYCLE_START does it of itself; at once where no train runs. -/
def execLsDisableTakeEffect (s : State) : Meaning := .next <|
  if s.cyc.running && !tkDue s then s else ([3, 4] : List (Fin 5)).foldl (fun s i => lsDisableTake i s) s

/-! ## The Archive (R332, R369) -/

/-- IMAGE_PUT: the segment goes to the Archive. -/
def execImagePut (r : CmdRef) (s : State) : Meaning := .next <| runCmd r 0x0401 (fun x s =>
  match segBad x with | some o => badParam r o s | none => waitFor r .archive s) s

/-- LOG_READ: first sequence number and greatest length. -/
def execLogRead (r : CmdRef) (s : State) : Meaning := .next (runSized r 0x0603 12 (fun _ s => waitFor r .archive s) s)
/-- ARCHIVE_READ: area, offset, length. -/
def execArchiveRead (r : CmdRef) (s : State) : Meaning := .next (runSized r 0x0604 13 (fun _ s => waitFor r .archive s) s)

/-- The events from a sequence number on that fit a length. -/
def eventsFrom (log : List (Nat × LogEntry)) (max : Nat) : List Byte := match log with
  | [] => []
  | e :: es =>
    let b := Config.eventBytes e.1 e.2
    if max < b.length then [] else b ++ eventsFrom es (max - b.length)

/-- An access has succeeded. -/
def archiveDone (r : CmdRef) (x : Slot) (s : State) : State :=
  let d := slotData x
  match x.code.toNat with
  | 0x0401 => finish r .ok 0 [] { s with arch := { s.arch with images := putSegment d s.arch.images } }
  | 0x0501 => stratumStored r d s
  | 0x0603 => finish r .ok 0 (eventsFrom ((enum s.log).filter fun e => sliceNat 0 8 d ≤ e.1) (sliceNat 8 4 d)) s
  | 0x0604 =>
    let area : BitVec 8 := BitVec.ofNat 8 (sliceNat 0 1 d)
    finish r .ok 0 ((List.range (sliceNat 9 4 d)).map fun i => Config.archiveByte area (sliceNat 1 8 d + i) s.arch s.log) s
  | _ => s

/-- ARCHIVE_ACCESS_DONE: a failed access is retried twice, then the command ends with MEDIUM. -/
def execArchiveAccessDone (r : CmdRef) (ok : Bool) (s : State) : Meaning := .next <| match slotOf r s with
  | none => countMbx .late s
  | some x =>
    if x.wait != .archive then s
    else if ok then archiveDone r x s
    else if x.tries < 2 then modSlot r (fun y => { y with tries := y.tries + 1 }) s
    else finish r .medium 0 [] s

/-! ## Freight (R172, R188, R369) -/

/-- Entry `i` of a PATH field of 12 bytes. -/
def pathEntry (p : Nat) (i : Nat) : BitVec 12 := BitVec.ofNat 12 (p / 2 ^ (12 * i))

/-- FREIGHT: OP, DEPTH, PATH, INDEX, LEN and DATA, in this order; READ needs R, WRITE C. -/
def execFreight (r : CmdRef) (s : State) : Meaning := .next <| runCmd r 0x0701 (fun x s =>
  let op := sliceNat 0 1 x
  let depth := sliceNat 1 1 x
  let path := sliceNat 2 12 x
  let len := sliceNat 18 2 x
  if x.length < 20 then badParam r 0 s
  else if op ≠ 1 && op ≠ 2 then badParam r 0 s
  else if depth = 0 || 8 < depth then badParam r 1 s
  else if path ≥ 2 ^ (12 * depth) then badParam r 2 s
  else if x.length ≠ 20 + (if op = 2 then len else 0) then badParam r 18 s
  else if !(rightsOf r s).getLsbD (if op = 1 then 0 else 2) then finish r .denied 0 [] s
  else frtSubmit (.host r) { src := 0, op := BitVec.ofNat 8 op, path := (List.range depth).map (pathEntry path), index := BitVec.ofNat 32 (sliceNat 14 4 x)
                             data := if op = 2 then x.drop 20 else List.replicate len 0 } s) s

/-- SURVEY: every station is surveyed; the reply holds RTM_SURV. -/
def execSurvey (r : CmdRef) (s : State) : Meaning := .next <| runSized r 0x0702 0 (fun _ s =>
  if !s.ring.frtOn || s.ring.frtDisable then finish r .disabled 0 [] s
  else
    let s := surveyAll s
    if s.rtm.todo.isEmpty then finish r .ok 0 (wordBytes (rtmSurv s)) s else surveyBegin (waitFor r .freight s)) s

/-! ## The clock (R437) -/

/-- RTC_READ: one coherent sequence of the Steward's. -/
def execRtcRead (r : CmdRef) (s : State) : Meaning := .next <| runSized r 0x0801 0 (fun _ s =>
  let s := rtcSnapOp .steward (rtcShadowOp .steward 0 (rtcSnapOp .steward s))
  let x := s.rtc.shadow[(0 : Fin 5)]
  finish r .ok 0 (wordBytes x.time ++ wordBytes x.date ++ wordBytes x.frac ++ leBytes 8 x.bin.toNat ++ wordBytes x.stat) s) s

/-- RTC_SET: the staged registers are written and loaded; a shift or step that this cancels is logged. -/
def execRtcSet (r : CmdRef) (s : State) : Meaning := .next <| runSized r 0x0802 8 (fun x s =>
  let s := rtcWr 0x1C (BitVec.ofNat 32 (sliceNat 4 4 x)) (rtcWr 0x18 (BitVec.ofNat 32 (sliceNat 0 4 x)) s)
  if calImpossible s.rtc.stime s.rtc.sdate then finishRefused r 0 "BADDATE" (rtcLoadOp s)
  else
    let s := if s.rtc.shift.isSome || s.rtc.step.isSome then addLog .setOverride (bitOf s.rtc.shift.isSome) (bitOf s.rtc.step.isSome) s else s
    finish r .ok 0 [] (rtcLoadOp s)) s

/-- RTC_SHIFT. -/
def execRtcShift (r : CmdRef) (s : State) : Meaning := .next <| runSized r 0x0803 4 (fun x s =>
  let v : BitVec 16 := BitVec.ofNat 16 (sliceNat 0 2 x)
  if v = 0 || v = 0x8000 then badParam r 0 s
  else if sliceNat 2 2 x ≠ 0 then badParam r 2 s
  else if s.rtc.shift.isSome then finishRefused r 0 "SHIFT_PENDING" s
  else if !s.rtc.nvalid then finishRefused r 0 "CLOCK_INVALID" s
  else finish r .ok 0 [] (rtcShiftOp v s)) s

/-- RTC_DST. -/
def execRtcDst (r : CmdRef) (s : State) : Meaning := .next <| runSized r 0x0804 4 (fun x s =>
  let v := sliceNat 0 1 x
  if v ≠ 1 && v ≠ 2 then badParam r 0 s
  else if sliceNat 1 3 x ≠ 0 then badParam r 1 s
  else if s.rtc.step.isSome then finishRefused r 0 "DST_PENDING" s
  else if !s.rtc.bvalid then
    finishRefused r 0 (if s.rtc.dst == (v == 1) then "DST_STATE" else "CLOCK_INVALID") s
  else match dstRefusal (v == 1) s with
    | some 5 => finishRefused r 0 "DST_STATE" s
    | some 3 => finishRefused r 0 "RANGE" s
    | _ => finish r .ok 0 [] (rtcDstOp v s)) s

/-! ## Supervision (R421, R469) -/

/-- SERVICE_CLEAR: only with S1 at SERVICE. The escalation record is written empty; every failure count, both early counts and the flags DRAM_CONS,
B4_SLOW, RING_SKIP, CFG_PREV and SERVICE_ONLY are cleared. -/
def execServiceClear (r : CmdRef) (s : State) : Meaning := .next <| runSized r 0x0902 0 (fun _ s =>
  if s.arb.key != .service then finishRefused r 0 "NOT_SERVICE" s
  else if recordSeq 2 2 s ≥ 2 ^ 32 - 1 then finish r .medium 0 [] (psErr 5 s)
  else
    let s : State := { s with boot := { s.boot with fc1 := 0, fc2 := 0 } }
    let s := writeBoot (fun b => { b with fc := .replicate 15 0, flags := b.flags &&& 0xD0 }) s
    psRecord .esc (escPayload 0 []) (waitFor r .pstore s)) s

end Sys2Proof.Machine
end

