-- ==== Sys2Proof/Machine/Dispatch.lean ====
section
/-! DEFINITION. The meaning of each command, one arm per constructor of Instr. -/

namespace Sys2Proof.Machine

/-- The effect of a command on everything but the queue. -/
def exec (i : Instr) (s : State) : Host.Outcome State Fault Refusal :=
  match i with
  | .add h rd rs1 rs2 => Sys2Proof.Machine.execAdd h rd rs1 rs2 s
  | .sub h rd rs1 rs2 => Sys2Proof.Machine.execSub h rd rs1 rs2 s
  | .addS h rd rs1 rs2 => Sys2Proof.Machine.execAddS h rd rs1 rs2 s
  | .subS h rd rs1 rs2 => Sys2Proof.Machine.execSubS h rd rs1 rs2 s
  | .and h rd rs1 rs2 => Sys2Proof.Machine.execAnd h rd rs1 rs2 s
  | .or h rd rs1 rs2 => Sys2Proof.Machine.execOr h rd rs1 rs2 s
  | .xor h rd rs1 rs2 => Sys2Proof.Machine.execXor h rd rs1 rs2 s
  | .andn h rd rs1 rs2 => Sys2Proof.Machine.execAndn h rd rs1 rs2 s
  | .sll h rd rs1 rs2 => Sys2Proof.Machine.execSll h rd rs1 rs2 s
  | .srl h rd rs1 rs2 => Sys2Proof.Machine.execSrl h rd rs1 rs2 s
  | .sra h rd rs1 rs2 => Sys2Proof.Machine.execSra h rd rs1 rs2 s
  | .ror h rd rs1 rs2 => Sys2Proof.Machine.execRor h rd rs1 rs2 s
  | .min h rd rs1 rs2 => Sys2Proof.Machine.execMin h rd rs1 rs2 s
  | .max h rd rs1 rs2 => Sys2Proof.Machine.execMax h rd rs1 rs2 s
  | .minu h rd rs1 rs2 => Sys2Proof.Machine.execMinu h rd rs1 rs2 s
  | .maxu h rd rs1 rs2 => Sys2Proof.Machine.execMaxu h rd rs1 rs2 s
  | .absS h rd rs1 => Sys2Proof.Machine.execAbsS h rd rs1 s
  | .negS h rd rs1 => Sys2Proof.Machine.execNegS h rd rs1 s
  | .add2S h rd rs1 rs2 => Sys2Proof.Machine.execAdd2S h rd rs1 rs2 s
  | .sub2S h rd rs1 rs2 => Sys2Proof.Machine.execSub2S h rd rs1 rs2 s
  | .clz h rd rs1 => Sys2Proof.Machine.execClz h rd rs1 s
  | .popc h rd rs1 => Sys2Proof.Machine.execPopc h rd rs1 s
  | .cmpEq h pd rs1 rs2 => Sys2Proof.Machine.execCmpEq h pd rs1 rs2 s
  | .cmpNe h pd rs1 rs2 => Sys2Proof.Machine.execCmpNe h pd rs1 rs2 s
  | .cmpLt h pd rs1 rs2 => Sys2Proof.Machine.execCmpLt h pd rs1 rs2 s
  | .cmpGe h pd rs1 rs2 => Sys2Proof.Machine.execCmpGe h pd rs1 rs2 s
  | .cmpLtu h pd rs1 rs2 => Sys2Proof.Machine.execCmpLtu h pd rs1 rs2 s
  | .cmpGeu h pd rs1 rs2 => Sys2Proof.Machine.execCmpGeu h pd rs1 rs2 s
  | .pand h pd pa pb => Sys2Proof.Machine.execPand h pd pa pb s
  | .por h pd pa pb => Sys2Proof.Machine.execPor h pd pa pb s
  | .pxor h pd pa pb => Sys2Proof.Machine.execPxor h pd pa pb s
  | .pandn h pd pa pb => Sys2Proof.Machine.execPandn h pd pa pb s
  | .pnot h pd pa => Sys2Proof.Machine.execPnot h pd pa s
  | .mulI h ad rs1 rs2 => Sys2Proof.Machine.execMulI h ad rs1 rs2 s
  | .macI h ad rs1 rs2 => Sys2Proof.Machine.execMacI h ad rs1 rs2 s
  | .msuI h ad rs1 rs2 => Sys2Proof.Machine.execMsuI h ad rs1 rs2 s
  | .mulU h ad rs1 rs2 => Sys2Proof.Machine.execMulU h ad rs1 rs2 s
  | .macU h ad rs1 rs2 => Sys2Proof.Machine.execMacU h ad rs1 rs2 s
  | .mulQ31 h ad rs1 rs2 => Sys2Proof.Machine.execMulQ31 h ad rs1 rs2 s
  | .macQ31 h ad rs1 rs2 => Sys2Proof.Machine.execMacQ31 h ad rs1 rs2 s
  | .msuQ31 h ad rs1 rs2 => Sys2Proof.Machine.execMsuQ31 h ad rs1 rs2 s
  | .mulQ15 h ad rs1 rs2 => Sys2Proof.Machine.execMulQ15 h ad rs1 rs2 s
  | .macQ15 h ad rs1 rs2 => Sys2Proof.Machine.execMacQ15 h ad rs1 rs2 s
  | .msuQ15 h ad rs1 rs2 => Sys2Proof.Machine.execMsuQ15 h ad rs1 rs2 s
  | .mac2Q15 h ad rs1 rs2 => Sys2Proof.Machine.execMac2Q15 h ad rs1 rs2 s
  | .extI h rd a sh rm sat => Sys2Proof.Machine.execExtI h rd a sh rm sat s
  | .extQ31 h rd a sh rm sat => Sys2Proof.Machine.execExtQ31 h rd a sh rm sat s
  | .extQ15 h rd a sh rm sat => Sys2Proof.Machine.execExtQ15 h rd a sh rm sat s
  | .aclr h ad => Sys2Proof.Machine.execAclr h ad s
  | .aset h ad rs1 sh => Sys2Proof.Machine.execAset h ad rs1 sh s
  | .aadd h ad am => Sys2Proof.Machine.execAadd h ad am s
  | .ashr h ad sh => Sys2Proof.Machine.execAshr h ad sh s
  | .addi h rd rs1 imm => Sys2Proof.Machine.execAddi h rd rs1 imm s
  | .andi h rd rs1 imm => Sys2Proof.Machine.execAndi h rd rs1 imm s
  | .ori h rd rs1 imm => Sys2Proof.Machine.execOri h rd rs1 imm s
  | .xori h rd rs1 imm => Sys2Proof.Machine.execXori h rd rs1 imm s
  | .ori12 h rd rs1 imm => Sys2Proof.Machine.execOri12 h rd rs1 imm s
  | .ori24 h rd rs1 imm => Sys2Proof.Machine.execOri24 h rd rs1 imm s
  | .slli h rd rs1 sh => Sys2Proof.Machine.execSlli h rd rs1 sh s
  | .srli h rd rs1 sh => Sys2Proof.Machine.execSrli h rd rs1 sh s
  | .srai h rd rs1 sh => Sys2Proof.Machine.execSrai h rd rs1 sh s
  | .cmpi h pd cond rs1 imm => Sys2Proof.Machine.execCmpi h pd cond rs1 imm s
  | .ldb h rd rs1 imm => Sys2Proof.Machine.execLdb h rd rs1 imm s
  | .ldbu h rd rs1 imm => Sys2Proof.Machine.execLdbu h rd rs1 imm s
  | .ldh h rd rs1 imm => Sys2Proof.Machine.execLdh h rd rs1 imm s
  | .ldhu h rd rs1 imm => Sys2Proof.Machine.execLdhu h rd rs1 imm s
  | .ldw h rd rs1 imm => Sys2Proof.Machine.execLdw h rd rs1 imm s
  | .stb h rd rs1 imm => Sys2Proof.Machine.execStb h rd rs1 imm s
  | .sth h rd rs1 imm => Sys2Proof.Machine.execSth h rd rs1 imm s
  | .stw h rd rs1 imm => Sys2Proof.Machine.execStw h rd rs1 imm s
  | .branch h disp => Sys2Proof.Machine.execBranch h disp s
  | .bl h disp => Sys2Proof.Machine.execBl h disp s
  | .jr h rs1 => Sys2Proof.Machine.execJr h rs1 s
  | .jlr h rs1 => Sys2Proof.Machine.execJlr h rs1 s
  | .mfsr h rd sr => Sys2Proof.Machine.execMfsr h rd sr s
  | .mtsr h rs sr => Sys2Proof.Machine.execMtsr h rs sr s
  | .trapSw h sx => Sys2Proof.Machine.execTrapSw h sx s
  | .rte h => Sys2Proof.Machine.execRte h s
  | .waitInt h => Sys2Proof.Machine.execWaitInt h s
  | .fence h => Sys2Proof.Machine.execFence h s
  | .rmuCheck h rd rs => Sys2Proof.Machine.execRmuCheck h rd rs s
  | .rmuLock h rd rs => Sys2Proof.Machine.execRmuLock h rd rs s
  | .rmuRelease h rd rs => Sys2Proof.Machine.execRmuRelease h rd rs s
  | .bld h px ref => Sys2Proof.Machine.execBld h px ref s
  | .bldn h px ref => Sys2Proof.Machine.execBldn h px ref s
  | .bset h ref => Sys2Proof.Machine.execBset h ref s
  | .bclr h ref => Sys2Proof.Machine.execBclr h ref s
  | .btgl h ref => Sys2Proof.Machine.execBtgl h ref s
  | .bst h px ref => Sys2Proof.Machine.execBst h px ref s
  | .bstn h px ref => Sys2Proof.Machine.execBstn h px ref s
  | .tsb h px ref => Sys2Proof.Machine.execTsb h px ref s
  | .red h px ref => Sys2Proof.Machine.execRed h px ref s
  | .fed h px ref => Sys2Proof.Machine.execFed h px ref s
  | .aed h px ref => Sys2Proof.Machine.execAed h px ref s
  | .eupd h px ref => Sys2Proof.Machine.execEupd h px ref s
  | .bfld h rd rs1 wm1 sgn => Sys2Proof.Machine.execBfld h rd rs1 wm1 sgn s
  | .bfst h rd rs1 wm1 => Sys2Proof.Machine.execBfst h rd rs1 wm1 s
  | .ton h pd rs1 pin => Sys2Proof.Machine.execTon h pd rs1 pin s
  | .tof h pd rs1 pin => Sys2Proof.Machine.execTof h pd rs1 pin s
  | .tp h pd rs1 pin => Sys2Proof.Machine.execTp h pd rs1 pin s
  | .trst h rs1 => Sys2Proof.Machine.execTrst h rs1 s
  | .tet h rd rs1 => Sys2Proof.Machine.execTet h rd rs1 s
  | .ctu h pd rs1 pin => Sys2Proof.Machine.execCtu h pd rs1 pin s
  | .ctd h pd rs1 pin => Sys2Proof.Machine.execCtd h pd rs1 pin s
  | .crst h rs1 => Sys2Proof.Machine.execCrst h rs1 s
  | .cld h rs1 => Sys2Proof.Machine.execCld h rs1 s
  | .ctv h rd rs1 => Sys2Proof.Machine.execCtv h rd rs1 s
  | .vote h rd rs1 => Sys2Proof.Machine.execVote h rd rs1 s
  | .rpti h rd step cnt => Sys2Proof.Machine.execRpti h rd step cnt s
  | .rptr h rd rs1 step => Sys2Proof.Machine.execRptr h rd rs1 step s
  | .lrW h rd rs1 => Sys2Proof.Machine.execLrW h rd rs1 s
  | .scW h rd rs1 rs2 => Sys2Proof.Machine.execScW h rd rs1 rs2 s
  | .reservedEncoding c w => Sys2Proof.Machine.execReservedEncoding c w s
  | .interruptEntry c => Sys2Proof.Machine.execInterruptEntry c s
  | .cycleStart => Sys2Proof.Machine.execCycleStart s
  | .frameReceive p f => Sys2Proof.Machine.execFrameReceive p f s
  | .inputReady => Sys2Proof.Machine.execInputReady s
  | .returnLimit => Sys2Proof.Machine.execReturnLimit s
  | .timeSourceChange => Sys2Proof.Machine.execTimeSourceChange s
  | .agreementEnd g => Sys2Proof.Machine.execAgreementEnd g s
  | .agreementLimit g l => Sys2Proof.Machine.execAgreementLimit g l s
  | .taskRelease n => Sys2Proof.Machine.execTaskRelease n s
  | .taskComplete c t => Sys2Proof.Machine.execTaskComplete c t s
  | .outputDeadline => Sys2Proof.Machine.execOutputDeadline s
  | .overrunLimitStop n => Sys2Proof.Machine.execOverrunLimitStop n s
  | .votePointComplete g => Sys2Proof.Machine.execVotePointComplete g s
  | .voteWindowClose g => Sys2Proof.Machine.execVoteWindowClose g s
  | .candidateCompare g => Sys2Proof.Machine.execCandidateCompare g s
  | .lsStart c inst e => Sys2Proof.Machine.execLsStart c inst e s
  | .lsAbort c inst => Sys2Proof.Machine.execLsAbort c inst s
  | .lsLoad c inst => Sys2Proof.Machine.execLsLoad c inst s
  | .lsUnload c inst => Sys2Proof.Machine.execLsUnload c inst s
  | .lsDone inst => Sys2Proof.Machine.execLsDone inst s
  | .lsOvertime inst => Sys2Proof.Machine.execLsOvertime inst s
  | .lsWindowAccess c inst wr off v => Sys2Proof.Machine.execLsWindowAccess c inst wr off v s
  | .reint src lane => Sys2Proof.Machine.execReint src lane s
  | .maintOut src lane => Sys2Proof.Machine.execMaintOut src lane s
  | .abortReint src lane => Sys2Proof.Machine.execAbortReint src lane s
  | .debugAttach src lane => Sys2Proof.Machine.execDebugAttach src lane s
  | .debugDetach src lane => Sys2Proof.Machine.execDebugDetach src lane s
  | .reintAutoStart => Sys2Proof.Machine.execReintAutoStart s
  | .reintPowerDown => Sys2Proof.Machine.execReintPowerDown s
  | .reintPowerOn => Sys2Proof.Machine.execReintPowerOn s
  | .reintPllLock ok => Sys2Proof.Machine.execReintPllLock ok s
  | .reintBistDone ok => Sys2Proof.Machine.execReintBistDone ok s
  | .reintCopyDone region => Sys2Proof.Machine.execReintCopyDone region s
  | .reintRegionClean g => Sys2Proof.Machine.execReintRegionClean g s
  | .copyNoconv g => Sys2Proof.Machine.execCopyNoconv g s
  | .echoHalt n => Sys2Proof.Machine.execEchoHalt n s
  | .echoResume n => Sys2Proof.Machine.execEchoResume n s
  | .echoStep n => Sys2Proof.Machine.execEchoStep n s
  | .echoGreg n r v => Sys2Proof.Machine.execEchoGreg n r v s
  | .echoPred n p v => Sys2Proof.Machine.execEchoPred n p v s
  | .echoAcc n a v => Sys2Proof.Machine.execEchoAcc n a v s
  | .echoSpecial n sr v => Sys2Proof.Machine.execEchoSpecial n sr v s
  | .echoMemw n addr v => Sys2Proof.Machine.execEchoMemw n addr v s
  | .echoBrkset n addr => Sys2Proof.Machine.execEchoBrkset n addr s
  | .echoBrkclr n addr => Sys2Proof.Machine.execEchoBrkclr n addr s
  | .connectionTimeout k => Sys2Proof.Machine.execConnectionTimeout k s
  | .pointMoveTimeout p => Sys2Proof.Machine.execPointMoveTimeout p s
  | .approachReleaseExpiry r => Sys2Proof.Machine.execApproachReleaseExpiry r s
  | .emergencyReleaseExpiry r => Sys2Proof.Machine.execEmergencyReleaseExpiry r s
  | .overlapReleaseExpiry r => Sys2Proof.Machine.execOverlapReleaseExpiry r s
  | .restartHoldExpiry => Sys2Proof.Machine.execRestartHoldExpiry s
  | .setRoute r => Sys2Proof.Machine.execSetRoute r s
  | .cancelRoute r => Sys2Proof.Machine.execCancelRoute r s
  | .emergencyRelease r => Sys2Proof.Machine.execEmergencyRelease r s
  | .movePoint p rev => Sys2Proof.Machine.execMovePoint p rev s
  | .matrixSliceCheck => Sys2Proof.Machine.execMatrixSliceCheck s
  | .rmuArm c => Sys2Proof.Machine.execRmuArm c s
  | .rmuDisarm c => Sys2Proof.Machine.execRmuDisarm c s
  | .ringLinkDown p => Sys2Proof.Machine.execRingLinkDown p s
  | .ringLinkUp p mode => Sys2Proof.Machine.execRingLinkUp p mode s
  | .ringBroken ring => Sys2Proof.Machine.execRingBroken ring s
  | .ringWhole ring => Sys2Proof.Machine.execRingWhole ring s
  | .segmentBreak => Sys2Proof.Machine.execSegmentBreak s
  | .loopOpened => Sys2Proof.Machine.execLoopOpened s
  | .surveyStart => Sys2Proof.Machine.execSurveyStart s
  | .freightSubmit r => Sys2Proof.Machine.execFreightSubmit r s
  | .freightBudgetExpiry slot => Sys2Proof.Machine.execFreightBudgetExpiry slot s
  | .ringEnRing en1 en2 => Sys2Proof.Machine.execRingEnRing en1 en2 s
  | .ringEnFrt on => Sys2Proof.Machine.execRingEnFrt on s
  | .ringEnTakeEffect => Sys2Proof.Machine.execRingEnTakeEffect s
  | .ringCfgWrite v => Sys2Proof.Machine.execRingCfgWrite v s
  | .syncLinkUp => Sys2Proof.Machine.execSyncLinkUp s
  | .syncLinkDown => Sys2Proof.Machine.execSyncLinkDown s
  | .syncMessageDiscard m => Sys2Proof.Machine.execSyncMessageDiscard m s
  | .hello m b => Sys2Proof.Machine.execHello m b s
  | .renew m w => Sys2Proof.Machine.execRenew m w s
  | .mismatch m mask => Sys2Proof.Machine.execMismatch m mask s
  | .consensus m mask res => Sys2Proof.Machine.execConsensus m mask res s
  | .prepare m tr => Sys2Proof.Machine.execPrepare m tr s
  | .prepared m tr => Sys2Proof.Machine.execPrepared m tr s
  | .relinquish m tr => Sys2Proof.Machine.execRelinquish m tr s
  | .delta m b => Sys2Proof.Machine.execDelta m b s
  | .deltaReq m blocks => Sys2Proof.Machine.execDeltaReq m blocks s
  | .statecrc m crcs => Sys2Proof.Machine.execStatecrc m crcs s
  | .mailbox m dg => Sys2Proof.Machine.execMailbox m dg s
  | .delays m d => Sys2Proof.Machine.execDelays m d s
  | .listenTimeout => Sys2Proof.Machine.execListenTimeout s
  | .consensusDecision => Sys2Proof.Machine.execConsensusDecision s
  | .leaseLapse => Sys2Proof.Machine.execLeaseLapse s
  | .takeoverLease => Sys2Proof.Machine.execTakeoverLease s
  | .takeoverRelinquish => Sys2Proof.Machine.execTakeoverRelinquish s
  | .epochCommit => Sys2Proof.Machine.execEpochCommit s
  | .switchover => Sys2Proof.Machine.execSwitchover s
  | .prepareTimeout => Sys2Proof.Machine.execPrepareTimeout s
  | .resync => Sys2Proof.Machine.execResync s
  | .abortSync => Sys2Proof.Machine.execAbortSync s
  | .resyncRetry => Sys2Proof.Machine.execResyncRetry s
  | .resyncImageDone => Sys2Proof.Machine.execResyncImageDone s
  | .resyncStateClean => Sys2Proof.Machine.execResyncStateClean s
  | .resyncJoined => Sys2Proof.Machine.execResyncJoined s
  | .resyncNoconv => Sys2Proof.Machine.execResyncNoconv s
  | .datagramReceive car bytes => Sys2Proof.Machine.execDatagramReceive car bytes s
  | .arpRequest ip => Sys2Proof.Machine.execArpRequest ip s
  | .icmpEcho ip payload => Sys2Proof.Machine.execIcmpEcho ip payload s
  | .fragmentTimeout id => Sys2Proof.Machine.execFragmentTimeout id s
  | .commandIncomplete r => Sys2Proof.Machine.execCommandIncomplete r s
  | .sessionOpenTimeout n => Sys2Proof.Machine.execSessionOpenTimeout n s
  | .sessionIdleTimeout n => Sys2Proof.Machine.execSessionIdleTimeout n s
  | .sessionStationLost => Sys2Proof.Machine.execSessionStationLost s
  | .forwardResend r => Sys2Proof.Machine.execForwardResend r s
  | .commandComplete r o => Sys2Proof.Machine.execCommandComplete r o s
  | .commandTimeout r => Sys2Proof.Machine.execCommandTimeout r s
  | .openSession r => Sys2Proof.Machine.execOpenSession r s
  | .closeSession r => Sys2Proof.Machine.execCloseSession r s
  | .keepalive r => Sys2Proof.Machine.execKeepalive r s
  | .abortCmd r => Sys2Proof.Machine.execAbortCmd r s
  | .ident r => Sys2Proof.Machine.execIdent r s
  | .statusCmd r => Sys2Proof.Machine.execStatusCmd r s
  | .readReg r => Sys2Proof.Machine.execReadReg r s
  | .readMem r => Sys2Proof.Machine.execReadMem r s
  | .modeReq r => Sys2Proof.Machine.execModeReq r s
  | .voterReq r => Sys2Proof.Machine.execVoterReq r s
  | .hsbReq r => Sys2Proof.Machine.execHsbReq r s
  | .restartCmd r => Sys2Proof.Machine.execRestartCmd r s
  | .domainRestart d hostCold => Sys2Proof.Machine.execDomainRestart d hostCold s
  | .resetCmd r => Sys2Proof.Machine.execResetCmd r s
  | .cfgWrite r => Sys2Proof.Machine.execCfgWrite r s
  | .cfgRead r => Sys2Proof.Machine.execCfgRead r s
  | .ringEn r => Sys2Proof.Machine.execRingEn r s
  | .lsDisable r => Sys2Proof.Machine.execLsDisable r s
  | .lsDisableTakeEffect => Sys2Proof.Machine.execLsDisableTakeEffect s
  | .imagePut r => Sys2Proof.Machine.execImagePut r s
  | .imageLoad r => Sys2Proof.Machine.execImageLoad r s
  | .changeConfirm r => Sys2Proof.Machine.execChangeConfirm r s
  | .changeRevert r => Sys2Proof.Machine.execChangeRevert r s
  | .stratumPut r => Sys2Proof.Machine.execStratumPut r s
  | .updateStart r => Sys2Proof.Machine.execUpdateStart r s
  | .updateClassStep ok => Sys2Proof.Machine.execUpdateClassStep ok s
  | .updateConfirm r => Sys2Proof.Machine.execUpdateConfirm r s
  | .pstoreRead r => Sys2Proof.Machine.execPstoreRead r s
  | .pstoreWrite r => Sys2Proof.Machine.execPstoreWrite r s
  | .logRead r => Sys2Proof.Machine.execLogRead r s
  | .archiveRead r => Sys2Proof.Machine.execArchiveRead r s
  | .archiveAccessDone r ok => Sys2Proof.Machine.execArchiveAccessDone r ok s
  | .freight r => Sys2Proof.Machine.execFreight r s
  | .survey r => Sys2Proof.Machine.execSurvey r s
  | .rtcRead r => Sys2Proof.Machine.execRtcRead r s
  | .rtcSet r => Sys2Proof.Machine.execRtcSet r s
  | .rtcShift r => Sys2Proof.Machine.execRtcShift r s
  | .rtcDst r => Sys2Proof.Machine.execRtcDst r s
  | .supRead r => Sys2Proof.Machine.execSupRead r s
  | .serviceClear r => Sys2Proof.Machine.execServiceClear r s
  | .migrationBulkPass d => Sys2Proof.Machine.execMigrationBulkPass d s
  | .swap d => Sys2Proof.Machine.execSwap d s
  | .migNoconv d => Sys2Proof.Machine.execMigNoconv d s
  | .changeConfirmEffect d => Sys2Proof.Machine.execChangeConfirmEffect d s
  | .revert d => Sys2Proof.Machine.execRevert d s
  | .confirmWindowExpiry d => Sys2Proof.Machine.execConfirmWindowExpiry d s
  | .revertNoconv d => Sys2Proof.Machine.execRevertNoconv d s
  | .wdgSvc a u v => Sys2Proof.Machine.execWdgSvc a u v s
  | .watchdogExpiry u => Sys2Proof.Machine.execWatchdogExpiry u s
  | .wdgPer a u v => Sys2Proof.Machine.execWdgPer a u v s
  | .wdgKey a u v => Sys2Proof.Machine.execWdgKey a u v s
  | .wdgLock a u => Sys2Proof.Machine.execWdgLock a u s
  | .wdgEnable a u => Sys2Proof.Machine.execWdgEnable a u s
  | .checkin c p => Sys2Proof.Machine.execCheckin c p s
  | .checkinWindowEnd d => Sys2Proof.Machine.execCheckinWindowEnd d s
  | .escalationReset => Sys2Proof.Machine.execEscalationReset s
  | .rtcSecondTick => Sys2Proof.Machine.execRtcSecondTick s
  | .rtcLoad a => Sys2Proof.Machine.execRtcLoad a s
  | .rtcCtlDst a v => Sys2Proof.Machine.execRtcCtlDst a v s
  | .rtcShiftWrite a v => Sys2Proof.Machine.execRtcShiftWrite a v s
  | .rtcAlarmArm a n v => Sys2Proof.Machine.execRtcAlarmArm a n v s
  | .rtcWakeWrite a v => Sys2Proof.Machine.execRtcWakeWrite a v s
  | .rtcWakeExpiry => Sys2Proof.Machine.execRtcWakeExpiry s
  | .rtcShadowRead a r => Sys2Proof.Machine.execRtcShadowRead a r s
  | .rtcSnap a => Sys2Proof.Machine.execRtcSnap a s
  | .rtcSequenceTimeout a => Sys2Proof.Machine.execRtcSequenceTimeout a s
  | .cycCountLoRead a => Sys2Proof.Machine.execCycCountLoRead a s
  | .cycTbLoRead a => Sys2Proof.Machine.execCycTbLoRead a s
  | .rtmOfsLoRead a => Sys2Proof.Machine.execRtmOfsLoRead a s
  | .clrovr a => Sys2Proof.Machine.execClrovr a s
  | .psRead page off lenm1 => Sys2Proof.Machine.execPsRead page off lenm1 s
  | .psWrite page off lenm1 => Sys2Proof.Machine.execPsWrite page off lenm1 s
  | .psWriteCommit o => Sys2Proof.Machine.execPsWriteCommit o s
  | .psRefresh page => Sys2Proof.Machine.execPsRefresh page s
  | .moduleStart f => Sys2Proof.Machine.execModuleStart f s
  | .bootStepWrite v => Sys2Proof.Machine.execBootStepWrite v s
  | .bootTimerExpiry => Sys2Proof.Machine.execBootTimerExpiry s
  | .rootMonitorWindow rootXtal rootRc xtalRc => Sys2Proof.Machine.execRootMonitorWindow rootXtal rootRc xtalRc s
  | .mainPllFail => Sys2Proof.Machine.execMainPllFail s
  | .lanePllFail l => Sys2Proof.Machine.execLanePllFail l s
  | .powerOnReset => Sys2Proof.Machine.execPowerOnReset s
  | .rstReq v cause => Sys2Proof.Machine.execRstReq v cause s
  | .orderlyReset cause => Sys2Proof.Machine.execOrderlyReset cause s
  | .feedPresent f v => Sys2Proof.Machine.execFeedPresent f v s
  | .feedLost f v => Sys2Proof.Machine.execFeedLost f v s
  | .feedOvervoltage f v => Sys2Proof.Machine.execFeedOvervoltage f v s
  | .bothFeedsLost => Sys2Proof.Machine.execBothFeedsLost s
  | .pfPairAbandon => Sys2Proof.Machine.execPfPairAbandon s
  | .pfWriteCutoff => Sys2Proof.Machine.execPfWriteCutoff s
  | .feedReset => Sys2Proof.Machine.execFeedReset s
  | .holdupShort => Sys2Proof.Machine.execHoldupShort s
  | .backupSwitchover cell => Sys2Proof.Machine.execBackupSwitchover cell s
  | .railFault => Sys2Proof.Machine.execRailFault s
  | .laneSupplyFault l => Sys2Proof.Machine.execLaneSupplyFault l s
  | .cellMeasure present mv => Sys2Proof.Machine.execCellMeasure present mv s
  | .tempSample t => Sys2Proof.Machine.execTempSample t s
  | .sfpChange x => Sys2Proof.Machine.execSfpChange x s
  | .pwrReqSolvOn => Sys2Proof.Machine.execPwrReqSolvOn s
  | .pwrReqSolvOff => Sys2Proof.Machine.execPwrReqSolvOff s
  | .fieldInputChange g c lvl => Sys2Proof.Machine.execFieldInputChange g c lvl s
  | .debounceAccept g c => Sys2Proof.Machine.execDebounceAccept g c s
  | .scheduledEntry g => Sys2Proof.Machine.execScheduledEntry g s
  | .outputOverload g c => Sys2Proof.Machine.execOutputOverload g c s
  | .groupOverload g => Sys2Proof.Machine.execGroupOverload g s
  | .lpUndervoltage g low v => Sys2Proof.Machine.execLpUndervoltage g low v s
  | .permitToggle g => Sys2Proof.Machine.execPermitToggle g s
  | .permitEdge g => Sys2Proof.Machine.execPermitEdge g s
  | .permitDrop g => Sys2Proof.Machine.execPermitDrop g s
  | .fieldPowerLoss g => Sys2Proof.Machine.execFieldPowerLoss g s
  | .fieldPowerReturn g => Sys2Proof.Machine.execFieldPowerReturn g s
  | .fgChWrite a g c v => Sys2Proof.Machine.execFgChWrite a g c v s
  | .fgPcfgWrite a g v => Sys2Proof.Machine.execFgPcfgWrite a g v s
  | .scrubLine => Sys2Proof.Machine.execScrubLine s
  | .extScrubLine => Sys2Proof.Machine.execExtScrubLine s
  | .bankRetentionEntry b => Sys2Proof.Machine.execBankRetentionEntry b s
  | .grottoRetentionEntry => Sys2Proof.Machine.execGrottoRetentionEntry s
  | .bankWakeDone b => Sys2Proof.Machine.execBankWakeDone b s
  | .keySwitchChange => Sys2Proof.Machine.execKeySwitchChange s
  | .keySwitchSettle pos => Sys2Proof.Machine.execKeySwitchSettle pos s
  | .reqOperRun src => Sys2Proof.Machine.execReqOperRun src s
  | .reqOperStop src => Sys2Proof.Machine.execReqOperStop src s
  | .reqOperHold src => Sys2Proof.Machine.execReqOperHold src s
  | .reqOperService src => Sys2Proof.Machine.execReqOperService src s
  | .reqRunState src d run => Sys2Proof.Machine.execReqRunState src d run s
  | .reqNotRequestable src dim st => Sys2Proof.Machine.execReqNotRequestable src dim st s
  | .stopEffect => Sys2Proof.Machine.execStopEffect s
  | .holdEffect => Sys2Proof.Machine.execHoldEffect s
  | .holdReturn => Sys2Proof.Machine.execHoldReturn s
  | .domainStopEffect d => Sys2Proof.Machine.execDomainStopEffect d s
  | .freightStopLink => Sys2Proof.Machine.execFreightStopLink s
  | .idcode => Sys2Proof.Machine.execIdcode s
  | .bypass => Sys2Proof.Machine.execBypass s
  | .samplePreload => Sys2Proof.Machine.execSamplePreload s
  | .extest => Sys2Proof.Machine.execExtest s
  | .pairDbg n attach => Sys2Proof.Machine.execPairDbg n attach s
  | .laneDbg attach lane => Sys2Proof.Machine.execLaneDbg attach lane s
  | .resetReq => Sys2Proof.Machine.execResetReq s
  | .fusePgm f data => Sys2Proof.Machine.execFusePgm f data s
  | .fuseBlowKrevoke a key => Sys2Proof.Machine.execFuseBlowKrevoke a key s
  | .fuseBlowDbgClose a key => Sys2Proof.Machine.execFuseBlowDbgClose a key s
  | .fuseWordDone ok => Sys2Proof.Machine.execFuseWordDone ok s
  | .registerWrite a addr v => Sys2Proof.Machine.execRegisterWrite a addr v s
  | .watchdogTickEdge => Sys2Proof.Machine.execWatchdogTickEdge s
  | .laneDebuggerAccess l x => Sys2Proof.Machine.execLaneDebuggerAccess l x s

end Sys2Proof.Machine
end

