-- ==== Sys2Proof/Safety.lean ====
section
/-! DEFINITION. What every run of the block keeps, and the conditions and updates in whose terms the statements speak. -/

namespace Sys2Proof.Safety
open Sys2Proof.Machine

/-- The invariant of every state: memory in canonical form. -/
def Inv (s : State) : Prop := memWf s.mem

/-! ## Frames -/

/-- The parts of the state, by the names of its fields. -/
inductive Part where
  | pending | cyc | cores | doms | pairs | mem | memRegs | memErrs | banks | voter | solvers | rmus | ixl | conns | ring | rtm | hsb | sync | fg | fgErr | mbx | update | wdg | cim | esc | rtc | ps | arch | boot | power | arb | fuses | dbg | log | bus | freeCtr
  deriving DecidableEq, Repr

/-- Part `p` is the same in both states. -/
def keeps (p : Part) (s t : State) : Prop := match p with
  | .pending => t.pending = s.pending
  | .cyc => t.cyc = s.cyc
  | .cores => t.cores = s.cores
  | .doms => t.doms = s.doms
  | .pairs => t.pairs = s.pairs
  | .mem => t.mem = s.mem
  | .memRegs => t.memRegs = s.memRegs
  | .memErrs => t.memErrs = s.memErrs
  | .banks => t.banks = s.banks
  | .voter => t.voter = s.voter
  | .solvers => t.solvers = s.solvers
  | .rmus => t.rmus = s.rmus
  | .ixl => t.ixl = s.ixl
  | .conns => t.conns = s.conns
  | .ring => t.ring = s.ring
  | .rtm => t.rtm = s.rtm
  | .hsb => t.hsb = s.hsb
  | .sync => t.sync = s.sync
  | .fg => t.fg = s.fg
  | .fgErr => t.fgErr = s.fgErr
  | .mbx => t.mbx = s.mbx
  | .update => t.update = s.update
  | .wdg => t.wdg = s.wdg
  | .cim => t.cim = s.cim
  | .esc => t.esc = s.esc
  | .rtc => t.rtc = s.rtc
  | .ps => t.ps = s.ps
  | .arch => t.arch = s.arch
  | .boot => t.boot = s.boot
  | .power => t.power = s.power
  | .arb => t.arb = s.arb
  | .fuses => t.fuses = s.fuses
  | .dbg => t.dbg = s.dbg
  | .log => t.log = s.log
  | .bus => t.bus = s.bus
  | .freeCtr => t.freeCtr = s.freeCtr

/-- From `s` to `t` no part of the state changes but the listed ones. -/
def Only (ps : List Part) (s t : State) : Prop := ∀ p, p ∉ ps → keeps p s t

/-- The command completes: `exec` answers a next state, in which `q` holds and no part but the listed ones differs from `s`. -/
def Gives (i : Instr) (s : State) (ps : List Part) (q : State → Prop) : Prop := ∃ t, exec i s = .next t ∧ Only ps s t ∧ q t

/-! ## One slot of a Nerop core -/

/-- The core of `h` issues an instruction in its slot whose guard is 1 (R241, R284): the core runs, no interrupt is taken first, the fetch meets neither
an error nor a privilege trap, a checker stands where its core stands, no Echo entry waits and no breakpoint can hit. -/
structure Issues (h : Hdr) (s : State) : Prop where
  runs : coreRuns h.core s = true
  noStep : s.cores[h.core].step = false
  noIrq : irqReady h.core s = none
  fetch : fetchTrap h.core s = (none, s)
  alike : s.cores[h.core].chk = none ∨ s.cores[h.core].chk = some s.cores[h.core].arch
  noEcho : ∀ n, pairOf h.core = some n → s.pairs[n].log = [] ∧ s.pairs[n].echo = false
  guard : guardOn s.cores[h.core].arch h = true

/-- And its slot is an ordinary one: neither a delay slot nor under a repeat prefix, with no result under way. -/
structure Ready (h : Hdr) (s : State) : Prop extends Issues h s where
  noRpt : s.cores[h.core].arch.rpt = none
  noDelay : s.cores[h.core].arch.delay = none
  noOpens : s.cores[h.core].arch.opens = []

/-- The core's state once its instruction has retired and the next one stands 4 bytes on (R285, R290). -/
def ended (a : Arch) : Arch := { a with ia := a.ia + 4, retired := a.retired + 1, justRte := false }
/-- `a` with `v` in g register `r`; g0 stays as it is (R234). -/
def setG (r : Reg) (v : Word) (a : Arch) : Arch := if r = 0 then a else { a with g := a.g.set r v }
/-- `a` with a result under way that becomes visible after `n` more slots (R285). -/
def later (d : Dest) (v : AccWord) (n : Nat) (a : Arch) : Arch := { a with opens := [{ dest := d, val := v, left := n }] }
/-- A result that becomes visible at the end of the next slot: distance 2. -/
def soon (d : Dest) (v : AccWord) (a : Arch) : Arch := later d v 1 a
/-- `a` with SATF set where `b` holds (R236, R257). -/
def satf (b : Bool) (a : Arch) : Arch := if b then { a with mode := a.mode ||| 0x100 } else a
/-- `a` with AOVF set where `b` holds (R236, R257). -/
def aovf (b : Bool) (a : Arch) : Arch := if b then { a with mode := a.mode ||| 0x200 } else a
/-- A predicate's value as a result. -/
def one (b : Bool) : AccWord := if b then 1 else 0
/-- `x` does not fit `w` signed bits. -/
def outside (w : Nat) (x : Int) : Bool := decide (x < -(2 ^ (w - 1) : Int)) || decide ((2 ^ (w - 1) : Int) ≤ x)
/-- `x` clamped to the range of `w` signed bits. -/
def clamped (w : Nat) (x : Int) : Int := max (-(2 ^ (w - 1) : Int)) (min x ((2 ^ (w - 1) : Int) - 1))
/-- The signed halves of a word. -/
def lo16 (x : Word) : Int := (x.extractLsb' 0 16).toInt
/-- The signed upper half of a word. -/
def hi16 (x : Word) : Int := (x.extractLsb' 16 16).toInt

/-- The command completes from every state that is ready for it, and changes exactly its core's registers, by `f`. -/
def Yields (i : Instr) (h : Hdr) (f : Arch → Arch) : Prop :=
  ∀ s, Ready h s → exec i s = .next (modArch h.core (fun a => ended (f a)) s)

/-! ## Memory -/

/-- Byte `i` of an access at `off`: within its 8-byte word, the place wraps (R322). -/
def rot (off i : Nat) : Nat := off / 8 * 8 + (off % 8 + i) % 8

/-- No stored bit of the 8-byte words `ws` of memory `code` is wrong, and none is poisoned. -/
def Clean (code : Nat) (ws : List Nat) (s : State) : Prop := ∀ w ∈ ws, poisoned code w s = false ∧ wordFlips code w s = 0

/-- An access of core `c` reaches its on-chip memory and meets no trap and no error there (R22 to R28, R295, R313). -/
structure OnChip (c : CoreId) (op : MemOp) (addr : Word) (code off : Nat) (s : State) : Prop where
  noTrap : accessTrap c op addr s = none
  place : locate (coreMaster c) addr.toNat s = .sram code off
  path : pathOk (coreMaster c) (.sram code off) op.writes = true
  powered : pdOn (wherePd (.sram code off)) s = true
  awake : bankReady (.sram code off) s = true
  clean : Clean code [off / 8] s

/-- From `s` to `t`, memory changed exactly at the listed offsets of memory `code`. -/
def Wrote (code : Nat) (w : List (Nat × Byte)) (s t : State) : Prop :=
  ∀ k o, o < 2 ^ 36 → readByte k o t = if k = code then (w.lookup o).getD (readByte k o s) else readByte k o s

/-- From `s` to `t` core `c` retired its instruction with `f` on its registers, and a store of core `c` was noted: other cores may lose their reservation
on granule `g` of memory `code` (R280), a reintegration and online changes may mark lines (R106, R384), an open retain area may lose its seal (R58). Nothing else
but memory changed. -/
structure StoredBy (c : CoreId) (f : Arch → Arch) (code g : Nat) (s t : State) : Prop where
  own : t.cores[c] = (modArch c (fun a => ended (f a)) s).cores[c]
  others : ∀ j : CoreId, j ≠ c →
    let lose (a : Arch) : Arch := { a with resv := if a.resv = some (memKey code g) then none else a.resv }
    t.cores[j] = { s.cores[j] with arch := lose s.cores[j].arch, chk := s.cores[j].chk.map lose }
  voter : t.voter = { s.voter with reint := { s.voter.reint with dirty := t.voter.reint.dirty } }
  doms : ∀ d : DomId, t.doms[d] = { s.doms[d] with change := { s.doms[d].change with marks := t.doms[d].change.marks }, retain := t.doms[d].retain }
  rest : t = { s with mem := t.mem, cores := t.cores, voter := t.voter, doms := t.doms }

/-- A lane other than `l`. -/
def otherLane (l : Fin 3) : Fin 3 := if l = 0 then 1 else 0

/-- No Logic Solver run is under way. -/
def NoRuns (s : State) : Prop := ∀ (i : Fin 5) (k : Fin 2), s.solvers[i].q[k].run = none

/-- The bit that a reference names in the domain's memory (R260, R261, R263): bit `o % 8` of the byte at `off`, readable and writable without error. -/
structure BitAt (c : CoreId) (r : BitRef) (area o code off : Nat) (s : State) : Prop where
  names : bitRef s.cores[c].arch r = (area, o)
  place : bitByte c area o s = some off
  small : off < 2 ^ 36
  memory : domMem c = some code
  clean : Clean code [off / 8] s
  awake : bankReady (.sram code (off / 8 * 8)) s = true

/-- The bits of a field of `w` bits from bit `o` of an area lie in readable memory of the domain (R260, R267). -/
structure FieldAt (c : CoreId) (area o w code : Nat) (at_ : Nat → Nat) (s : State) : Prop where
  small : area < 4 ∧ o < 2 ^ 30
  place : ∀ i, i < w → bitByte c area (o + i) s = some (at_ i)
  memory : domMem c = some code
  clean : ∀ i, i < w → Clean code [at_ i / 8] s
  awake : ∀ i, i < w → bankReady (.sram code (at_ i / 8 * 8)) s = true

/-- Core `c` may write the bits of a mask in byte `o` of its domain's memory: it lies outside the RMU's memory (R124), and at U none of the bits carries a
command (R122). -/
def MayWrite (c : CoreId) (o : Nat) (mask : Byte) (s : State) : Prop :=
  rmuByte c o s = false ∧ (s.cores[c].arch.priv = true ∨ markedByte c o mask s = false)

/-- A timer or counter instance that the core may use, in `words` readable words of memory (R268, R271). -/
structure InstAt (c : CoreId) (x : Word) (n al words code off : Nat) (s : State) : Prop where
  place : instAt c x n al s = some off
  memory : domMem c = some code
  clean : ∀ i, i < words → Clean code [off / 8 + i] s
  awake : ∀ i, i < words → bankReady (.sram code (8 * (off / 8 + i))) s = true

/-- Lane `l`'s unit is armed and `n` is a route of its tables, whose matrix row and lock vector are readable (R123, R124, R130). -/
structure InTable (l : Fin 3) (n : Nat) (s : State) : Prop where
  armed : s.rmus[l].armed = true
  route : n < s.rmus[l].routes.toNat
  clean : Clean (1 + l.val) ((List.range 64).map (fun i => s.rmus[l].lvec.toNat % 2 ^ 24 / 8 + i) ++
    (List.range 64).map fun i => (s.rmus[l].base.toNat % 2 ^ 24 + 512 * n) / 8 + i) s
/-- The lock bit of route `i` in lane `l` (R124). -/
def laneLockBit (l : Fin 3) (i : Nat) (s : State) : Bool := (readByte (1 + l.val) (s.rmus[l].lvec.toNat % 2 ^ 24 + i / 8) s).getLsbD (i % 8)
/-- Bit `i` of the matrix row of route `n` in lane `l` (R123). -/
def rowBit (l : Fin 3) (n i : Nat) (s : State) : Bool :=
  (readByte (1 + l.val) (s.rmus[l].base.toNat % 2 ^ 24 + 512 * n + i / 8) s).getLsbD (i % 8)
/-- Lane `l` is a member of group `g` whose contribution to the current vote point is still to come and is not withheld (R87, R96). -/
def MayVote (l : Fin 3) (g : Fin 2) (s : State) : Prop :=
  s.voter.grp[g].members.getLsbD l.val = true ∧ s.voter.grp[g].mute.getLsbD l.val = false ∧ ∀ p, s.voter.grp[g].vp = some p → p.got[l] = none
/-- Lane `l` hands in `items` to group `g`'s vote point (R96, R98), and the voter changes in nothing else, a reintegration's marked lines apart. -/
def Offers (l : Fin 3) (g : Fin 2) (kind : VoteKind) (items : List Byte) (crc : Long) (s t : State) : Prop :=
  ∃ p, t.voter.grp[g].vp = some p ∧ p.got[l] = some { kind := kind, items := items, crc := crc } ∧
    t.voter = { s.voter with grp := s.voter.grp.set g { s.voter.grp[g] with vp := some p }
                             reint := { s.voter.reint with dirty := t.voter.reint.dirty } }

/-- A route at rest (R139): IDLE, not disturbed, no timer running, holding nothing. -/
def routeIdle : RouteSt where
  mode := .idle
  disturbed := false
  approach := none
  emergency := none
  overlap := none
  overlapDone := false
  body := []
  ovl := []
  flk := []
  flankOk := false
  passed := []
  wasOcc := []
  cancel := false

/-- From `s` to `t` route `r`, which stood as `y` in lane `l`, is released there (R139), and each point it held is locked once less. -/
def RouteFreed (l : Fin 3) (r : Nat) (y : RouteSt) (s t : State) : Prop :=
  t.ixl[l].routes = setAt s.ixl[l].routes r (fun _ => routeIdle) ∧
  ∀ p : Nat, t.ixl[l].points[p]? = (s.ixl[l].points[p]?).map fun (q : PointSt) => { q with locks := q.locks - (y.body ++ y.ovl ++ y.flk).count p }

/-! ## Mailboxes -/

/-- In `t` command `r`, which stood in slot `x`, has ended with a status (R362, R364, R374): its slot is free, and if its carrier still answers, its reply is the
newest of the session's cache. -/
def Ended (r : CmdRef) (x : Slot) (st : Status) (detail : Nat) (data : List Byte) (t : State) : Prop :=
  slotOf r t = none ∧ (x.car ≠ .foreign →
    (sessOf r t).cache.head? = some { tag := r.tag, code := x.code, status := st.code, detail := BitVec.ofNat 16 detail, data := data })

/-- A received command with code `code` stands in a slot, not yet started, and this start admits it (R363, R469). -/
structure Waits (r : CmdRef) (code : Nat) (x : Slot) (s : State) : Prop where
  slot : slotOf r s = some x
  received : x.received = true
  fresh : x.started = false ∧ x.wait = .none
  codeIs : x.code.toNat = code
  admitted : serviceOnly s = true → serviceAllowed code = true

/-- The command goes on, waiting for `w` (R374). -/
def GoesOn (r : CmdRef) (x : Slot) (w : Wait) (t : State) : Prop := slotOf r t = some { x with started := true, wait := w }

/-- Replies in one block without data, for a command that takes no slot (R364, R366). -/
def bare (tag : BitVec 16) (code : Nat) (st : Status) (detail : Nat) : Reply :=
  { tag := tag, code := BitVec.ofNat 16 code, status := st.code, detail := BitVec.ofNat 16 detail, data := [] }

end Sys2Proof.Safety
end

