-- ==== Sys2Proof/Certificates/Slice0/Obligations.lean ====
section
/-! DEFINITION. The statements for the provers. A statement about a command says for which states it completes, what it changes, and, by the form of the
next state, that nothing else changes.
A slot of a Nerop core is taken as log entry 18 says, and an event row as log entries 11 and 12 say. -/

open Sys2Proof Sys2Proof.Machine Sys2Proof.Safety

/-- ALU group (R246): the result that each instruction gives its destination, and SATF (R236, R257). -/
def Obligations.AluInstructionsGiveTheirResults : Prop :=
  (∀ h rd rs1 rs2, Yields (.add h rd rs1 rs2) h fun a => setG rd (a.reg rs1 + a.reg rs2) a) ∧
  (∀ h rd rs1 rs2, Yields (.sub h rd rs1 rs2) h fun a => setG rd (a.reg rs1 - a.reg rs2) a) ∧
  (∀ h rd rs1 rs2, Yields (.addS h rd rs1 rs2) h fun a =>
    satf (outside 32 ((a.reg rs1).toInt + (a.reg rs2).toInt)) (setG rd (BitVec.ofInt 32 (clamped 32 ((a.reg rs1).toInt + (a.reg rs2).toInt))) a)) ∧
  (∀ h rd rs1 rs2, Yields (.subS h rd rs1 rs2) h fun a =>
    satf (outside 32 ((a.reg rs1).toInt - (a.reg rs2).toInt)) (setG rd (BitVec.ofInt 32 (clamped 32 ((a.reg rs1).toInt - (a.reg rs2).toInt))) a)) ∧
  (∀ h rd rs1 rs2, Yields (.and h rd rs1 rs2) h fun a => setG rd (a.reg rs1 &&& a.reg rs2) a) ∧
  (∀ h rd rs1 rs2, Yields (.or h rd rs1 rs2) h fun a => setG rd (a.reg rs1 ||| a.reg rs2) a) ∧
  (∀ h rd rs1 rs2, Yields (.xor h rd rs1 rs2) h fun a => setG rd (a.reg rs1 ^^^ a.reg rs2) a) ∧
  (∀ h rd rs1 rs2, Yields (.andn h rd rs1 rs2) h fun a => setG rd (a.reg rs1 &&& ~~~(a.reg rs2)) a) ∧
  (∀ h rd rs1 rs2, Yields (.sll h rd rs1 rs2) h fun a => setG rd (a.reg rs1 <<< (a.reg rs2 &&& 31)) a) ∧
  (∀ h rd rs1 rs2, Yields (.srl h rd rs1 rs2) h fun a => setG rd (a.reg rs1 >>> (a.reg rs2 &&& 31)) a) ∧
  (∀ h rd rs1 rs2, Yields (.sra h rd rs1 rs2) h fun a => setG rd (BitVec.ofInt 32 ((a.reg rs1).toInt / 2 ^ ((a.reg rs2).toNat % 32))) a) ∧
  (∀ h rd rs1 rs2, Yields (.ror h rd rs1 rs2) h fun a => setG rd ((a.reg rs1).rotateRight ((a.reg rs2).toNat % 32)) a) ∧
  (∀ h rd rs1 rs2, Yields (.min h rd rs1 rs2) h fun a => setG rd (BitVec.ofInt 32 (min (a.reg rs1).toInt (a.reg rs2).toInt)) a) ∧
  (∀ h rd rs1 rs2, Yields (.max h rd rs1 rs2) h fun a => setG rd (BitVec.ofInt 32 (max (a.reg rs1).toInt (a.reg rs2).toInt)) a) ∧
  (∀ h rd rs1 rs2, Yields (.minu h rd rs1 rs2) h fun a => setG rd (BitVec.ofNat 32 (min (a.reg rs1).toNat (a.reg rs2).toNat)) a) ∧
  (∀ h rd rs1 rs2, Yields (.maxu h rd rs1 rs2) h fun a => setG rd (BitVec.ofNat 32 (max (a.reg rs1).toNat (a.reg rs2).toNat)) a) ∧
  (∀ h rd rs1, Yields (.absS h rd rs1) h fun a =>
    satf (a.reg rs1 == 0x80000000) (setG rd (if a.reg rs1 = 0x80000000 then 0x7FFFFFFF else BitVec.ofNat 32 (a.reg rs1).toInt.natAbs) a)) ∧
  (∀ h rd rs1, Yields (.negS h rd rs1) h fun a =>
    satf (a.reg rs1 == 0x80000000) (setG rd (if a.reg rs1 = 0x80000000 then 0x7FFFFFFF else -(a.reg rs1)) a)) ∧
  (∀ h rd rs1 rs2, Yields (.add2S h rd rs1 rs2) h fun a =>
    satf (outside 16 (lo16 (a.reg rs1) + lo16 (a.reg rs2)) || outside 16 (hi16 (a.reg rs1) + hi16 (a.reg rs2)))
      (setG rd (BitVec.ofInt 16 (clamped 16 (hi16 (a.reg rs1) + hi16 (a.reg rs2))) ++ BitVec.ofInt 16 (clamped 16 (lo16 (a.reg rs1) + lo16 (a.reg rs2)))) a)) ∧
  (∀ h rd rs1 rs2, Yields (.sub2S h rd rs1 rs2) h fun a =>
    satf (outside 16 (lo16 (a.reg rs1) - lo16 (a.reg rs2)) || outside 16 (hi16 (a.reg rs1) - hi16 (a.reg rs2)))
      (setG rd (BitVec.ofInt 16 (clamped 16 (hi16 (a.reg rs1) - hi16 (a.reg rs2))) ++ BitVec.ofInt 16 (clamped 16 (lo16 (a.reg rs1) - lo16 (a.reg rs2)))) a)) ∧
  (∀ h rd rs1, Yields (.clz h rd rs1) h fun a => setG rd (BitVec.ofNat 32 (((List.range 32).takeWhile fun i => !(a.reg rs1).getMsbD i).length)) a) ∧
  (∀ h rd rs1, Yields (.popc h rd rs1) h fun a => setG rd (BitVec.ofNat 32 (((List.range 32).filter fun i => (a.reg rs1).getLsbD i).length)) a)

/-- Compares and predicate logic (R247): the predicate that each writes becomes visible at the end of the next slot (R285). CMPI's conditions are those of R245. -/
def Obligations.ComparesAndPredicateLogicWriteTheirPredicate : Prop :=
  (∀ h pd rs1 rs2, Yields (.cmpEq h pd rs1 rs2) h fun a => soon (.p pd) (one (a.reg rs1 = a.reg rs2)) a) ∧
  (∀ h pd rs1 rs2, Yields (.cmpNe h pd rs1 rs2) h fun a => soon (.p pd) (one (a.reg rs1 ≠ a.reg rs2)) a) ∧
  (∀ h pd rs1 rs2, Yields (.cmpLt h pd rs1 rs2) h fun a => soon (.p pd) (one ((a.reg rs1).toInt < (a.reg rs2).toInt)) a) ∧
  (∀ h pd rs1 rs2, Yields (.cmpGe h pd rs1 rs2) h fun a => soon (.p pd) (one ((a.reg rs2).toInt ≤ (a.reg rs1).toInt)) a) ∧
  (∀ h pd rs1 rs2, Yields (.cmpLtu h pd rs1 rs2) h fun a => soon (.p pd) (one ((a.reg rs1).toNat < (a.reg rs2).toNat)) a) ∧
  (∀ h pd rs1 rs2, Yields (.cmpGeu h pd rs1 rs2) h fun a => soon (.p pd) (one ((a.reg rs2).toNat ≤ (a.reg rs1).toNat)) a) ∧
  (∀ h pd pa pb, Yields (.pand h pd pa pb) h fun a => soon (.p pd) (one (a.pred pa && a.pred pb)) a) ∧
  (∀ h pd pa pb, Yields (.por h pd pa pb) h fun a => soon (.p pd) (one (a.pred pa || a.pred pb)) a) ∧
  (∀ h pd pa pb, Yields (.pxor h pd pa pb) h fun a => soon (.p pd) (one (xor (a.pred pa) (a.pred pb))) a) ∧
  (∀ h pd pa pb, Yields (.pandn h pd pa pb) h fun a => soon (.p pd) (one (a.pred pa && !a.pred pb)) a) ∧
  (∀ h pd pa, Yields (.pnot h pd pa) h fun a => soon (.p pd) (one (!a.pred pa)) a) ∧
  (∀ h pd rs1 imm, Yields (.cmpi h pd 0 rs1 imm) h fun a => soon (.p pd) (one ((a.reg rs1).toInt = imm.toInt)) a) ∧
  (∀ h pd rs1 imm, Yields (.cmpi h pd 1 rs1 imm) h fun a => soon (.p pd) (one ((a.reg rs1).toInt ≠ imm.toInt)) a) ∧
  (∀ h pd rs1 imm, Yields (.cmpi h pd 2 rs1 imm) h fun a => soon (.p pd) (one ((a.reg rs1).toInt < imm.toInt)) a) ∧
  (∀ h pd rs1 imm, Yields (.cmpi h pd 3 rs1 imm) h fun a => soon (.p pd) (one ((a.reg rs1).toNat < (imm.signExtend 32).toNat)) a)

/-- MAC group and AADD (R248, R253, R254): the exact result's bits [71:0] become visible at the end of the next slot, and AOVF is set where it does not
fit. From 0, sums of as many products as R254 names always fit. -/
def Obligations.MacInstructionsKeepTheExactResult : Prop :=
  let acc (ad : Acc) (x : Int) (a : Arch) : Arch := aovf (outside 72 x) (soon (.a ad) (BitVec.ofInt 72 x) a)
  let pI (a : Arch) (r1 r2 : Reg) : Int := (a.reg r1).toInt * (a.reg r2).toInt
  let pU (a : Arch) (r1 r2 : Reg) : Int := (a.reg r1).toNat * (a.reg r2).toNat
  let lo (a : Arch) (r1 r2 : Reg) : Int := lo16 (a.reg r1) * lo16 (a.reg r2) * 2 ^ 33
  let hi (a : Arch) (r1 r2 : Reg) : Int := hi16 (a.reg r1) * hi16 (a.reg r2) * 2 ^ 33
  (∀ h ad r1 r2, Yields (.mulI h ad r1 r2) h fun a => acc ad (pI a r1 r2) a) ∧
  (∀ h ad r1 r2, Yields (.macI h ad r1 r2) h fun a => acc ad ((a.a[ad]).toInt + pI a r1 r2) a) ∧
  (∀ h ad r1 r2, Yields (.msuI h ad r1 r2) h fun a => acc ad ((a.a[ad]).toInt - pI a r1 r2) a) ∧
  (∀ h ad r1 r2, Yields (.mulU h ad r1 r2) h fun a => acc ad (pU a r1 r2) a) ∧
  (∀ h ad r1 r2, Yields (.macU h ad r1 r2) h fun a => acc ad ((a.a[ad]).toInt + pU a r1 r2) a) ∧
  (∀ h ad r1 r2, Yields (.mulQ31 h ad r1 r2) h fun a => acc ad (2 * pI a r1 r2) a) ∧
  (∀ h ad r1 r2, Yields (.macQ31 h ad r1 r2) h fun a => acc ad ((a.a[ad]).toInt + 2 * pI a r1 r2) a) ∧
  (∀ h ad r1 r2, Yields (.msuQ31 h ad r1 r2) h fun a => acc ad ((a.a[ad]).toInt - 2 * pI a r1 r2) a) ∧
  (∀ h ad r1 r2, Yields (.mulQ15 h ad r1 r2) h fun a => acc ad (lo a r1 r2) a) ∧
  (∀ h ad r1 r2, Yields (.macQ15 h ad r1 r2) h fun a => acc ad ((a.a[ad]).toInt + lo a r1 r2) a) ∧
  (∀ h ad r1 r2, Yields (.msuQ15 h ad r1 r2) h fun a => acc ad ((a.a[ad]).toInt - lo a r1 r2) a) ∧
  (∀ h ad r1 r2, Yields (.mac2Q15 h ad r1 r2) h fun a => acc ad ((a.a[ad]).toInt + hi a r1 r2 + lo a r1 r2) a) ∧
  (∀ h ad am, Yields (.aadd h ad am) h fun a => acc ad ((a.a[ad]).toInt + (a.a[am]).toInt) a) ∧
  (∀ ps : List (Bool × Word × Word), ps.length ≤ 255 →
    outside 72 (ps.map fun (q, x, y) => if q then 2 * (x.toInt * y.toInt) else lo16 x * lo16 y * 2 ^ 33).sum = false) ∧
  ∀ ps : List (Word × Word),
    (ps.length ≤ 127 → outside 72 (ps.map fun (x, y) => (hi16 x * hi16 y + lo16 x * lo16 y) * 2 ^ 33).sum = false ∧
      outside 72 (ps.map fun (x, y) => (x.toNat : Int) * y.toNat).sum = false) ∧
    (ps.length ≤ 511 → outside 72 (ps.map fun (x, y) => x.toInt * y.toInt).sum = false)

/-- Extraction, ACLR, ASET and ASHR (R249, R256): the accumulator's value with the mode's rounding, clamped with SATF or wrapped; the accumulator stays as it is.
The rounding itself is the subject of the next statement. -/
def Obligations.ExtractionsRoundThenFitTheirRange : Prop :=
  let ext (i : Fin 8 → Fin 4 → Instr) (h : Hdr) (rd : Reg) (n : Acc) (w d : Nat) : Prop := ∀ (rm : Fin 8) (sat : Fin 4), rm.val < 5 → sat.val < 3 →
    Yields (i rm sat) h fun a =>
      let q := roundTo (roundOf a.mode rm) (a.a[n]).toInt d
      if sat = 1 ∨ sat = 0 ∧ a.mode.getLsbD 2 then satf (outside w q) (setG rd (BitVec.ofInt 32 (clamped w q)) a)
      else setG rd ((BitVec.ofInt w q).signExtend 32) a
  (∀ h rd n sh, ext (fun rm sat => .extI h rd n sh rm sat) h rd n 32 sh.val) ∧
  (∀ h rd n sh, ext (fun rm sat => .extQ31 h rd n sh rm sat) h rd n 32 (32 + sh.val)) ∧
  (∀ h rd n, ∀ sh : Fin 32, sh.val < 24 → ext (fun rm sat => .extQ15 h rd n sh rm sat) h rd n 16 (48 + sh.val)) ∧
  (∀ h ad, Yields (.aclr h ad) h fun a => soon (.a ad) 0 a) ∧
  (∀ h ad rs1 sh, Yields (.aset h ad rs1 sh) h fun a => soon (.a ad) (BitVec.ofInt 72 ((a.reg rs1).toInt * 2 ^ sh.val)) a) ∧
  (∀ h ad sh, Yields (.ashr h ad sh) h fun a => soon (.a ad) (BitVec.ofInt 72 ((a.a[ad]).toInt / 2 ^ sh.val)) a)

/-- What the four rounding modes mean (R255), for every value and every number of discarded bits, and which mode an extraction takes (R236, R249). -/
def Obligations.RoundingModesGiveTheirQuotient : Prop :=
  (∀ mode : Word, (∀ m, roundOf mode 0 = m ↔ (mode.extractLsb' 0 2 = 0 ∧ m = .rne ∨ mode.extractLsb' 0 2 = 1 ∧ m = .rna ∨
    mode.extractLsb' 0 2 = 2 ∧ m = .rtz ∨ mode.extractLsb' 0 2 = 3 ∧ m = .rdn)) ∧
    roundOf mode 1 = .rne ∧ roundOf mode 2 = .rna ∧ roundOf mode 3 = .rtz ∧ roundOf mode 4 = .rdn) ∧
  ∀ (x : Int) (d : Nat),
    roundTo .rdn x d = Int.fdiv x (2 ^ d) ∧ roundTo .rtz x d = Int.tdiv x (2 ^ d) ∧
    (∀ m, m = .rne ∨ m = .rna → 2 * (roundTo m x d * 2 ^ d - x).natAbs ≤ 2 ^ d) ∧
    (∀ m, 2 * (roundTo m x d * 2 ^ d - x).natAbs = 2 ^ d →
      (m = .rne → roundTo m x d % 2 = 0) ∧ (m = .rna → (roundTo m x d * 2 ^ d).natAbs ≥ x.natAbs))

/-- Instructions with an immediate (R244, R245): sign-extended for ADDI, zero-extended for the others. -/
def Obligations.ImmediateInstructionsGiveTheirResults : Prop :=
  (∀ h rd rs1 imm, Yields (.addi h rd rs1 imm) h fun a => setG rd (BitVec.ofInt 32 ((a.reg rs1).toInt + imm.toInt)) a) ∧
  (∀ h rd rs1 imm, Yields (.andi h rd rs1 imm) h fun a => setG rd (a.reg rs1 &&& BitVec.ofNat 32 imm.toNat) a) ∧
  (∀ h rd rs1 imm, Yields (.ori h rd rs1 imm) h fun a => setG rd (a.reg rs1 ||| BitVec.ofNat 32 imm.toNat) a) ∧
  (∀ h rd rs1 imm, Yields (.xori h rd rs1 imm) h fun a => setG rd (a.reg rs1 ^^^ BitVec.ofNat 32 imm.toNat) a) ∧
  (∀ h rd rs1 imm, Yields (.ori12 h rd rs1 imm) h fun a => setG rd (a.reg rs1 ||| BitVec.ofNat 32 (imm.toNat * 2 ^ 12)) a) ∧
  (∀ h rd rs1 imm, Yields (.ori24 h rd rs1 imm) h fun a => setG rd (a.reg rs1 ||| BitVec.ofNat 32 (imm.toNat * 2 ^ 24)) a) ∧
  (∀ h rd rs1 sh, Yields (.slli h rd rs1 sh) h fun a => setG rd (BitVec.ofNat 32 ((a.reg rs1).toNat * 2 ^ sh.val)) a) ∧
  (∀ h rd rs1 sh, Yields (.srli h rd rs1 sh) h fun a => setG rd (BitVec.ofNat 32 ((a.reg rs1).toNat / 2 ^ sh.val)) a) ∧
  (∀ h rd rs1 sh, Yields (.srai h rd rs1 sh) h fun a => setG rd (BitVec.ofInt 32 ((a.reg rs1).toInt / 2 ^ sh.val)) a)

/-- LDB to LDW and LR.W on on-chip memory (R245, R279, R322): the value read, byte by byte with the rotation within the 8-byte word, extended, goes to g[RD]
and becomes visible after two more slots (distance 3, R285); LR.W reserves the 64-byte granule. Nothing else changes. -/
def Obligations.LoadsGiveTheBytesOfTheirWord : Prop :=
  let at_ (a : Arch) (rs1 : Reg) (imm : BitVec 12) : Word := a.reg rs1 + imm.signExtend 32
  let put (h : Hdr) (rd : Reg) (v : Word) (s : State) : State := modArch h.core (fun a => ended (later (.g rd) (v.setWidth 72) 2 a)) s
  let byte (code off i : Nat) (s : State) : Byte := readByte code (rot off i) s
  ∀ (h : Hdr) (rd rs1 : Reg) (imm : BitVec 12) (code off : Nat) (s : State), Ready h s →
    let a := s.cores[h.core].arch
    (OnChip h.core (.load 1 true rd) (at_ a rs1 imm) code off s →
      exec (.ldb h rd rs1 imm) s = .next (put h rd ((byte code off 0 s).signExtend 32) s)) ∧
    (OnChip h.core (.load 1 false rd) (at_ a rs1 imm) code off s →
      exec (.ldbu h rd rs1 imm) s = .next (put h rd ((byte code off 0 s).setWidth 32) s)) ∧
    (OnChip h.core (.load 2 true rd) (at_ a rs1 imm) code off s →
      exec (.ldh h rd rs1 imm) s = .next (put h rd ((byte code off 1 s ++ byte code off 0 s : BitVec 16).signExtend 32) s)) ∧
    (OnChip h.core (.load 2 false rd) (at_ a rs1 imm) code off s →
      exec (.ldhu h rd rs1 imm) s = .next (put h rd ((byte code off 1 s ++ byte code off 0 s : BitVec 16).setWidth 32) s)) ∧
    (OnChip h.core (.load 4 false rd) (at_ a rs1 imm) code off s →
      exec (.ldw h rd rs1 imm) s = .next (put h rd (byte code off 3 s ++ byte code off 2 s ++ byte code off 1 s ++ byte code off 0 s) s)) ∧
    (OnChip h.core (.lr rd) (a.reg rs1) code off s →
      exec (.lrW h rd rs1) s = .next (modArch h.core (fun a => ended { later (.g rd)
        ((byte code off 3 s ++ byte code off 2 s ++ byte code off 1 s ++ byte code off 0 s : Word).setWidth 72) 2 a with
          resv := some (memKey code (off / 64)) }) s))

/-- STB to STW and SC.W on on-chip memory (R245, R279, R322, R323): the bytes of g[RD], or of g[RS2] for SC.W, go to the computed address, with the rotation
within the 8-byte word, and to no other; a colliding STW that loses changes no memory and is recorded. SC.W writes only under its reservation, gives 0 or 1,
and clears it. -/
def Obligations.StoresWriteExactlyTheirBytes : Prop :=
  let at_ (a : Arch) (rs1 : Reg) (imm : BitVec 12) : Word := a.reg rs1 + imm.signExtend 32
  let b (v : Word) (i : Nat) : Byte := v.extractLsb' (8 * i) 8
  ∀ (h : Hdr) (rd rs1 rs2 : Reg) (imm : BitVec 12) (code off : Nat) (s : State), Ready h s → Inv s → NoRuns s →
    let a := s.cores[h.core].arch
    (h.meet = none → OnChip h.core (.store 1 (a.reg rd)) (at_ a rs1 imm) code off s →
      ∃ t, exec (.stb h rd rs1 imm) s = .next t ∧ Wrote code [(rot off 0, b (a.reg rd) 0)] s t ∧ StoredBy h.core id code (off / 64) s t) ∧
    (h.meet = none → OnChip h.core (.store 2 (a.reg rd)) (at_ a rs1 imm) code off s →
      ∃ t, exec (.sth h rd rs1 imm) s = .next t ∧ Wrote code [(rot off 0, b (a.reg rd) 0), (rot off 1, b (a.reg rd) 1)] s t ∧
        StoredBy h.core id code (off / 64) s t) ∧
    (h.meet = none → OnChip h.core (.store 4 (a.reg rd)) (at_ a rs1 imm) code off s →
      ∃ t, exec (.stw h rd rs1 imm) s = .next t ∧
        Wrote code [(rot off 0, b (a.reg rd) 0), (rot off 1, b (a.reg rd) 1), (rot off 2, b (a.reg rd) 2), (rot off 3, b (a.reg rd) 3)] s t ∧
        StoredBy h.core id code (off / 64) s t) ∧
    (∀ m, h.meet = some m → meetRank m < (if h.core = stewCore then 3 else 2) → code ≠ 6 →
      OnChip h.core (.store 4 (a.reg rd)) (at_ a rs1 imm) code off s →
      ∃ t, exec (.stw h rd rs1 imm) s = .next t ∧
        t = { modArch h.core ended s with memRegs := t.memRegs } ∧ t.memRegs.wlost = inc s.memRegs.wlost ∧
        t.memRegs.wladdr = BitVec.ofNat 32 (off / 8) ∧ t.memRegs.wlsrc = pack [(m.master.val, 0), (h.core.val, 8), (code, 16)]) ∧
    (h.meet = none → OnChip h.core (.sc rd (a.reg rs2)) (a.reg rs1) code off s → a.resv = some (memKey code (off / 64)) →
      ∃ t, exec (.scW h rd rs1 rs2) s = .next t ∧
        Wrote code [(off, b (a.reg rs2) 0), (off + 1, b (a.reg rs2) 1), (off + 2, b (a.reg rs2) 2), (off + 3, b (a.reg rs2) 3)] s t ∧
        StoredBy h.core (fun a => { later (.g rd) 0 2 a with resv := none }) code (off / 64) s t) ∧
    (OnChip h.core (.sc rd (a.reg rs2)) (a.reg rs1) code off s → a.resv ≠ some (memKey code (off / 64)) →
      exec (.scW h rd rs1 rs2) s = .next (modArch h.core (fun a => ended { later (.g rd) 1 2 a with resv := none }) s))

/-- Taken branches (R244, R245, R290): the target issues after two delay slots, and BL and JLR put their own address + 12 into g31. FENCE only retires (R250). -/
def Obligations.BranchesTakeTheirTargetAfterTwoDelaySlots : Prop :=
  let to_ (t : Word) (a : Arch) : Arch := { a with delay := some (2, t) }
  (∀ h disp, Yields (.branch h disp) h fun a => to_ (a.ia + BitVec.ofInt 32 (4 * disp.toInt)) a) ∧
  (∀ h disp, Yields (.bl h disp) h fun a => setG 31 (a.ia + 12) (to_ (a.ia + BitVec.ofInt 32 (4 * disp.toInt)) a)) ∧
  (∀ h rs1, Yields (.jr h rs1) h fun a => to_ (a.reg rs1 &&& ~~~3) a) ∧
  (∀ h rs1, Yields (.jlr h rs1) h fun a => setG 31 (a.ia + 12) (to_ (a.reg rs1 &&& ~~~3) a)) ∧
  (∀ h, Yields (.fence h) h id)

/-- What a slot does with what is under way (R275, R285, R286, R290), seen through FENCE, which does nothing else: results become visible when their distance has
passed, the later one in program order last; the first delay slot goes on in address order and the second one to the target; an iteration of a repetition stays at its
address and steps its register, and the last one goes on. -/
def Obligations.SlotsCarryResultsDelaysAndRepetitions : Prop :=
  ∀ (h : Hdr) (s : State), Issues h s →
    let a := s.cores[h.core].arch
    let put (g : Arch → Arch) : State := modArch h.core (fun a => { g a with retired := a.retired + 1, justRte := false }) s
    (a.rpt = none → a.delay = none → ∀ d v n d' v' n', a.opens = [⟨d, v, n + 2⟩, ⟨d', v', n' + 2⟩] →
      exec (.fence h) s = .next (put fun a => { a with opens := [⟨d, v, n + 1⟩, ⟨d', v', n' + 1⟩], ia := a.ia + 4 })) ∧
    (a.rpt = none → a.delay = none → ∀ r v r' v' n, a.opens = [⟨.g r, v, 1⟩, ⟨.g r', v', 1⟩, ⟨.g r, v, n + 2⟩] →
      exec (.fence h) s = .next (put fun a =>
        { setG r' (v'.setWidth 32) (setG r (v.setWidth 32) a) with opens := [⟨.g r, v, n + 1⟩], ia := a.ia + 4 })) ∧
    (a.rpt = none → a.delay = none → ∀ n v p b, a.opens = [⟨.a n, v, 1⟩, ⟨.p p, one b, 1⟩] →
      exec (.fence h) s = .next (put fun a =>
        { a with a := a.a.set n v, p := if p = 0 then a.p else Sys2Proof.Machine.setBit a.p p.val b, opens := [], ia := a.ia + 4 })) ∧
    (a.rpt = none → a.opens = [] → ∀ t, a.delay = some (2, t) → exec (.fence h) s = .next (put fun a => { a with delay := some (1, t), ia := a.ia + 4 })) ∧
    (a.rpt = none → a.opens = [] → ∀ t, a.delay = some (1, t) → exec (.fence h) s = .next (put fun a => { a with delay := none, ia := t })) ∧
    (a.opens = [] → ∀ r, a.rpt = some r → r.zero = false → 1 < r.left →
      exec (.fence h) s = .next (put fun a => { setG r.reg (a.reg r.reg + r.step) a with rpt := some { r with left := r.left - 1, started := true } })) ∧
    (a.opens = [] → ∀ r, a.rpt = some r → r.zero = false → r.left = 1 →
      exec (.fence h) s = .next (put fun a => { setG r.reg (a.reg r.reg + r.step) a with rpt := none, ia := a.ia + 4 })) ∧
    (a.opens = [] → ∀ r, a.rpt = some r → r.zero = true → r.left = 1 → ∀ rd rs1 rs2,
      exec (.add h rd rs1 rs2) s = .next (put fun a => { a with rpt := none, ia := a.ia + 4 }))

/-- MFSR and MTSR at K (R236 to R239, R285, R304): each special register's content, the shadows of CYCL and TBL, and which bits a write changes; registers that are
read-only stay. -/
def Obligations.SpecialRegistersReadAndWriteTheirFields : Prop :=
  let rd (n : Fin 64) (f : CoreId → State → Arch → Word) : Prop := ∀ h r s, Ready h s → s.cores[h.core].arch.priv = true → n.val ≠ 0x10 → n.val ≠ 0x12 →
    exec (.mfsr h r n) s = .next (modArch h.core (fun a => ended (setG r (f h.core s a) a)) s)
  let wr (n : Fin 64) (f : Word → Arch → Arch) : Prop := ∀ h r s, Ready h s → s.cores[h.core].arch.priv = true →
    exec (.mtsr h r n) s = .next (modArch h.core (fun a => ended (f (a.reg r) a)) s)
  let sr (k : Nat) : Fin 64 := Fin.ofNat 64 k
  rd 0x00 (fun _ _ a => a.mode) ∧ rd 0x01 (fun _ _ a => (a.p ||| 1).setWidth 32) ∧
  (∀ n : Fin 4, rd (sr (4 + 3 * n.val)) (fun _ _ a => (a.a[n]).extractLsb' 0 32) ∧ rd (sr (5 + 3 * n.val)) (fun _ _ a => (a.a[n]).extractLsb' 32 32) ∧
    rd (sr (6 + 3 * n.val)) (fun _ _ a => ((a.a[n]).extractLsb' 64 8).signExtend 32)) ∧
  rd 0x11 (fun _ _ a => a.cycSh) ∧ rd 0x13 (fun _ _ a => a.tbSh) ∧ rd 0x15 (fun _ _ a => if a.priv then 1 else 0) ∧
  rd 0x14 (fun c _ _ => if c.val < 4 then BitVec.ofNat 32 (16 * c.val) else if c.val < 10 then BitVec.ofNat 32 (1 + 16 * ((c.val - 4) % 2)) else 2) ∧
  rd 0x18 (fun _ _ a => a.trappc) ∧ rd 0x19 (fun _ _ a => a.trapinst) ∧ rd 0x1A (fun _ _ a => a.trapcause) ∧ rd 0x1B (fun _ _ a => a.trapsave) ∧
  rd 0x1C (fun _ _ a => a.tvec) ∧ rd 0x1D (fun _ _ a => a.iena) ∧ rd 0x1E (fun _ _ a => a.ipend) ∧ rd 0x1F (fun _ _ a => a.kscr) ∧
  (∀ h r s, Ready h s → exec (.mfsr h r 0x10) s = .next (modArch h.core (fun a =>
    ended { setG r ((countSeen h.core s).extractLsb' 0 32) a with cycSh := (countSeen h.core s).extractLsb' 32 32 }) s)) ∧
  (∀ h r s, Ready h s → exec (.mfsr h r 0x12) s = .next (modArch h.core (fun a =>
    ended { setG r ((tbSeen h.core s).extractLsb' 0 32) a with tbSh := (tbSeen h.core s).extractLsb' 32 32 }) s)) ∧
  wr 0x00 (fun v a => { a with mode := v &&& 0x307 }) ∧
  wr 0x01 (fun v a => { a with p := (v.setWidth 8 &&& 0xFE) ||| (a.p &&& 1) }) ∧
  (∀ n : Fin 4, ∀ k : Fin 3, wr (sr (4 + 3 * n.val + k.val)) (fun v a => soon (.accPart n k) (v.setWidth 72) a)) ∧
  wr 0x10 (fun _ a => a) ∧ wr 0x11 (fun _ a => a) ∧ wr 0x12 (fun _ a => a) ∧ wr 0x13 (fun _ a => a) ∧ wr 0x14 (fun _ a => a) ∧ wr 0x15 (fun _ a => a) ∧
  wr 0x18 (fun v a => { a with trappc := v &&& ~~~3 }) ∧ wr 0x19 (fun _ a => a) ∧ wr 0x1A (fun _ a => a) ∧
  wr 0x1B (fun v a => { a with trapsave := v &&& 0x3FFFF }) ∧ wr 0x1C (fun v a => { a with tvec := v &&& ~~~0x1FF }) ∧
  wr 0x1D (fun v a => { a with iena := v &&& 0x8000007F }) ∧ wr 0x1E (fun v a => { a with ipend := a.ipend &&& ~~~v }) ∧
  wr 0x1F (fun v a => { a with kscr := v })

/-- What taking a trap or an interrupt does to the core's registers (R297, R304), and what RTE restores (R300); WAIT goes on only with a source pending (R304). A software
trap is served by its handler, a reserved encoding by emulation; an interrupt goes to the lowest source that is ready. A trap's TRAPSAVE shows no
delay slot and no repetition here, since the slot is an ordinary one.
What in it rests on log entry 76 is the model's choice. -/
def Obligations.TrapEntryAndReturnSaveAndRestore : Prop :=
  let enter (cause : Word) (vec : Nat) (word : Word) (a : Arch) : Arch :=
    { a with trappc := a.ia, trapinst := word, trapcause := cause
             trapsave := (if a.priv then 1 else 0) ||| (if a.iena.getLsbD 31 then 2 else 0) ||| 4
             priv := true, iena := a.iena &&& 0x7FFFFFFF, resv := none, ia := (a.tvec &&& ~~~0x1FF) + BitVec.ofNat 32 (64 * vec) }
  let free (h : Hdr) (s : State) : Prop := s.cores[h.core].arch.trapsave.getLsbD 2 = false
  (∀ h sx s, Ready h s → free h s → ∀ w, encodeNerop (.trapSw h sx) = some w →
    exec (.trapSw h sx) s = .next (modArch h.core (enter (BitVec.ofNat 32 (6 + 256 * sx.val)) 6 (BitVec.ofNat 32 w)) s)) ∧
  (∀ c w s, decodeNerop c none (BitVec.toNat w) = none → emulClaimed c w s = true →
    Ready { core := c, pg := Fin.ofNat 8 (w.toNat / 2 ^ 29), pn := w.getLsbD 28, meet := none } s → s.cores[c].arch.trapsave.getLsbD 2 = false →
    exec (.reservedEncoding c w) s = .next (modArch c (enter 0 0 w) s)) ∧
  (∀ c b s, coreRuns c s = true → irqReady c s = some b → (∀ n, pairOf c = some n → s.pairs[n].echo = false) → s.cores[c].arch.rpt = none →
    exec (.interruptEntry c) s = .next (modArch c (enter (BitVec.ofNat 32 (0x80000007 + 256 * b.val)) 7 0) s)) ∧
  (∀ h s, Ready h s → s.cores[h.core].arch.priv = true → s.cores[h.core].arch.trapsave.getLsbD 4 = false →
    exec (.rte h) s = .next (modArch h.core (fun a =>
      { a with priv := a.trapsave.getLsbD 0, iena := (a.iena &&& 0x7FFFFFFF) ||| (if a.trapsave.getLsbD 1 then 0x80000000 else 0)
               trapsave := a.trapsave &&& ~~~4, ia := a.trappc, retired := a.retired + 1, justRte := true }) s)) ∧
  (∀ h s, Ready h s → s.cores[h.core].arch.priv = true → s.cores[h.core].arch.ipend &&& s.cores[h.core].arch.iena &&& 0x7F ≠ 0 →
    exec (.waitInt h) s = .next (modArch h.core ended s)) ∧
  (∀ h s, Ready h s → s.cores[h.core].arch.priv = true → s.cores[h.core].arch.ipend &&& s.cores[h.core].arch.iena &&& 0x7F = 0 →
    exec (.waitInt h) s = .next (modCore h.core (fun k => { k with hold := .waitInt }) s))

/-- Bit instructions (R262, R263, R285): loads give their bit after the load distance, writes change exactly their bit, and TSB gives the old bit. A write
at U of a bit that carries a command, and one into the RMU's memory, would trap (R122, R124). -/
def Obligations.BitInstructionsReadAndWriteTheirBit : Prop :=
  let b (area o code off : Nat) (s : State) : Bool := (readByte code off s).getLsbD (o % 8)
  let put (o code off : Nat) (v : Bool) (s : State) : Byte := if v then readByte code off s ||| (1#8 <<< (o % 8)) else readByte code off s &&& ~~~(1#8 <<< (o % 8))
  ∀ (h : Hdr) (px : Pred) (ref : BitRef) (area o code off : Nat) (s : State), Ready h s → ref.wf = true → BitAt h.core ref area o code off s →
    let pred (v : Bool) : Host.Outcome State Fault Refusal := .next (modArch h.core (fun a => ended (later (.p px) (one v) 2 a)) s)
    let sets (c : Instr) (f : Arch → Arch) (v : Bool) : Prop := h.meet = none → area ≠ 0 → MayWrite h.core off (1#8 <<< (o % 8)) s → Inv s → NoRuns s →
      ∃ t, exec c s = .next t ∧ Wrote code [(off, put o code off v s)] s t ∧ StoredBy h.core f code (off / 64) s t
    exec (.bld h px ref) s = pred (b area o code off s) ∧ exec (.bldn h px ref) s = pred (!b area o code off s) ∧
    sets (.bset h ref) id true ∧ sets (.bclr h ref) id false ∧ sets (.btgl h ref) id (!b area o code off s) ∧
    sets (.bst h px ref) id (s.cores[h.core].arch.pred px) ∧ sets (.bstn h px ref) id (!s.cores[h.core].arch.pred px) ∧
    sets (.tsb h px ref) (later (.p px) (one (b area o code off s)) 2) true

/-- Edge instructions (R264, R265): the edge of the bit against its companion goes to the predicate, and the bit into the companion, in inputs too. -/
def Obligations.EdgeInstructionsCompareAndUpdateTheCompanion : Prop :=
  ∀ (h : Hdr) (px : Pred) (ref : BitRef) (area o code off eo : Nat) (s : State), Ready h s → ref.wf = true → BitAt h.core ref area o code off s →
    edgeByte h.core area o s = some eo → Clean code [eo / 8] s → bankReady (.sram code (eo / 8 * 8)) s = true → eo < 2 ^ 36 → h.meet = none →
    MayWrite h.core eo (1#8 <<< (o % 8)) s → Inv s → NoRuns s →
    let b := (readByte code off s).getLsbD (o % 8)
    let c := (readByte code eo s).getLsbD (o % 8)
    let gives (i : Instr) (v : Bool) : Prop := ∃ t, exec i s = .next t ∧
      Wrote code [(eo, if b then readByte code eo s ||| (1#8 <<< (o % 8)) else readByte code eo s &&& ~~~(1#8 <<< (o % 8)))] s t ∧
      StoredBy h.core (later (.p px) (one v) 2) code (eo / 64) s t
    gives (.red h px ref) (b && !c) ∧ gives (.fed h px ref) (c && !b) ∧ gives (.aed h px ref) (b != c) ∧ gives (.eupd h px ref) false

/-- BFLD and BFST (R267): field bit i is bit i of the register; BFLD extends by sign or zero, BFST changes no bit outside the field. The reference stands in g[RS1]. -/
def Obligations.BitFieldsMoveBetweenMemoryAndRegister : Prop :=
  ∀ (h : Hdr) (rd rs1 : Reg) (wm1 : Fin 32) (sgn : Bool) (area o code : Nat) (at_ : Nat → Nat) (s : State), Ready h s →
    s.cores[h.core].arch.reg rs1 = BitVec.ofNat 32 (area * 2 ^ 30 + o) → FieldAt h.core area o (wm1.val + 1) code at_ s →
    let bit (i : Nat) (s : State) : Bool := (readByte code (at_ i) s).getLsbD ((o + i) % 8)
    (∃ t v, exec (.bfld h rd rs1 wm1 sgn) s = .next t ∧ t = modArch h.core (fun a => ended (later (.g rd) (BitVec.setWidth 72 (v : Word)) 2 a)) s ∧
      ∀ i, i < 32 → v.getLsbD i = if i ≤ wm1.val then bit i s else sgn && bit wm1.val s) ∧
    (h.meet = none → h.meet2 = none → area ≠ 0 → (∀ i, i ≤ wm1.val → MayWrite h.core (at_ i) (1#8 <<< ((o + i) % 8)) s) → Inv s → NoRuns s → (∀ i, at_ i < 2 ^ 36) →
      ∃ t, exec (.bfst h rd rs1 wm1) s = .next t ∧ t.cores[h.core] = (modArch h.core ended s).cores[h.core] ∧
        (∀ k off j, off < 2 ^ 36 → j < 8 →
          (readByte k off t).getLsbD j = if k = code ∧ ∃ i, i ≤ wm1.val ∧ at_ i = off ∧ (o + i) % 8 = j
            then decide (∃ i, i ≤ wm1.val ∧ at_ i = off ∧ (o + i) % 8 = j ∧ (s.cores[h.core].arch.reg rd).getLsbD i = true)
            else (readByte k off s).getLsbD j) ∧
        t = { s with mem := t.mem, cores := t.cores, voter := t.voter, doms := t.doms })

/-- Timers (R268, R269): LAST becomes the cycle count, ET, RUN and Q follow the function's rules, INL becomes the input and Q goes to the predicate; TRST clears the
instance and TET reads it; PT and the reserved bytes stay. -/
def Obligations.TimersFollowTheirRules : Prop :=
  ∀ (h : Hdr) (pd pin : Pred) (rd rs1 : Reg) (code off : Nat) (s : State), Ready h s → InstAt h.core (s.cores[h.core].arch.reg rs1) 32 32 3 code off s →
    let a := s.cores[h.core].arch
    let inp := a.pred pin
    let et := readNat code (off + 8) 4 s
    let pt := readNat code (off + 12) 4 s
    let dt := (countSeen h.core s - BitVec.ofNat 64 (readNat code off 8 s)).toNat
    let f := readByte code (off + 16) s
    let run := f.getLsbD 0
    let q := f.getLsbD 1
    let inl := f.getLsbD 2
    let et1 := min (et + dt) pt
    let after (i : Instr) (g : Arch → Arch) (et' : Nat) (run' q' inl' : Bool) : Prop := ∃ t, exec i s = .next t ∧
      readNat code off 8 t = (countSeen h.core s).toNat ∧ readNat code (off + 8) 4 t = et' ∧
      readByte code (off + 16) t = BitVec.ofNat 8 (bitOf run' + 2 * bitOf q' + 4 * bitOf inl') ∧
      (∀ k o, o < 2 ^ 36 → ¬(k = code ∧ (off ≤ o ∧ o < off + 12 ∨ o = off + 16)) → readByte k o t = readByte k o s) ∧ StoredBy h.core g code (off / 64) s t
    let timer (i : Instr) (et' : Nat) (run' q' : Bool) : Prop := after i (later (.p pd) (one q') 2) et' run' q' inp
    exec (.tet h rd rs1) s = .next (modArch h.core (fun a => ended (later (.g rd) (BitVec.ofNat 72 et) 2 a)) s) ∧
    (h.meet = none → (∀ i, i < 32 → MayWrite h.core (off + i) 0xFF s) → Inv s → NoRuns s →
      (inp = false → timer (.ton h pd rs1 pin) 0 false false) ∧
      (inp = true → run = false → timer (.ton h pd rs1 pin) 0 true (pt == 0)) ∧
      (inp = true → run = true → timer (.ton h pd rs1 pin) et1 true (decide (pt ≤ et1))) ∧
      (inp = true → timer (.tof h pd rs1 pin) 0 false true) ∧
      (inp = false → inl = true → timer (.tof h pd rs1 pin) 0 (pt != 0) (pt != 0)) ∧
      (inp = false → inl = false → run = true → timer (.tof h pd rs1 pin) et1 (decide (et1 < pt)) (decide (et1 < pt) && q)) ∧
      (inp = false → inl = false → run = false → timer (.tof h pd rs1 pin) et false q) ∧
      (run = true → timer (.tp h pd rs1 pin) et1 (decide (et1 < pt)) (decide (et1 < pt) && q)) ∧
      (run = false → inp = true → inl = false → timer (.tp h pd rs1 pin) 0 (pt != 0) (pt != 0)) ∧
      (run = false → inp = true → inl = true → timer (.tp h pd rs1 pin) et false q) ∧
      (run = false → inp = false → timer (.tp h pd rs1 pin) 0 false q) ∧
      after (.trst h rs1) id 0 false false false)

/-- Counters (R271): CTU and CTD count a rising input once and hold at their limits, CRST clears CV, CLD loads PV, CTV reads; nothing else of the instance changes. -/
def Obligations.CountersCountRisingInputs : Prop :=
  ∀ (h : Hdr) (pd pin : Pred) (rd rs1 : Reg) (code off : Nat) (s : State), Ready h s → InstAt h.core (s.cores[h.core].arch.reg rs1) 16 8 2 code off s →
    let a := s.cores[h.core].arch
    let inp := a.pred pin
    let cv : Word := BitVec.ofNat 32 (readNat code off 4 s)
    let pv : Word := BitVec.ofNat 32 (readNat code (off + 4) 4 s)
    let f := readByte code (off + 8) s
    let after (i : Instr) (g : Arch → Arch) (cv' : Int) (f' : Byte) : Prop := ∃ t, exec i s = .next t ∧
      readNat code off 4 t = (BitVec.ofInt 32 cv').toNat ∧ readByte code (off + 8) t = f' ∧
      (∀ k o, o < 2 ^ 36 → ¬(k = code ∧ (off ≤ o ∧ o < off + 4 ∨ o = off + 8)) → readByte k o t = readByte k o s) ∧
      t.cores[h.core] = (modArch h.core (fun a => ended (g a)) s).cores[h.core] ∧
      t = { s with mem := t.mem, cores := t.cores, voter := t.voter, doms := t.doms }
    let up : Int := if inp && !f.getLsbD 0 then clamped 32 (cv.toInt + 1) else cv.toInt
    let down : Int := if inp && !f.getLsbD 1 then clamped 32 (cv.toInt - 1) else cv.toInt
    exec (.ctv h rd rs1) s = .next (modArch h.core (fun a => ended (later (.g rd) (cv.setWidth 72) 2 a)) s) ∧
    (h.meet = none → (∀ i, i < 16 → MayWrite h.core (off + i) 0xFF s) → Inv s → NoRuns s →
      after (.ctu h pd rs1 pin) (later (.p pd) (one (decide (pv.toInt ≤ up))) 2) up (Sys2Proof.Machine.setBit f 0 inp) ∧
      after (.ctd h pd rs1 pin) (later (.p pd) (one (decide (down ≤ 0))) 2) down (Sys2Proof.Machine.setBit f 1 inp) ∧
      after (.crst h rs1) id 0 f ∧ after (.cld h rs1) id pv.toInt f)

/-- Repeat prefixes and VOTE (R272, R273): a prefix starts its count with its step, a count of 0 makes the target retire once without effect; VOTE holds its
core and hands in the lane's contribution to a vote point.
What in it rests on log entry 77 is the model's choice. -/
def Obligations.PrefixesStartRepetitionsAndVotesContribute : Prop :=
  (∀ h rd step cnt, (rd ≠ 0 ∨ step = 0) → Yields (.rpti h rd step cnt) h fun a =>
    { a with rpt := some { left := cnt.toNat + 1, reg := rd, step := step.signExtend 32, started := false, zero := false } }) ∧
  (∀ h rd rs1 step s, rs1 ≠ 0 → (rd ≠ 0 ∨ step = 0) → Ready h s → (s.cores[h.core].arch.reg rs1).toNat ≤ 4096 →
    let n := s.cores[h.core].arch.reg rs1
    let r : Rpt := { left := if n = 0 then 1 else n.toNat, reg := rd, step := step.signExtend 32, started := false, zero := n = 0 }
    exec (.rptr h rd rs1 step) s = .next (modArch h.core (fun a => ended { a with rpt := some r }) s)) ∧
  (∀ (h : Hdr) (rd rs1 : Reg) (s : State) (l : Fin 3) (g : Fin 2), Ready h s → laneOf h.core = some (l, g) → MayVote l g s →
    ∃ t, exec (.vote h rd rs1) s = .next t ∧ Offers l g .vote (leBytes 4 (s.cores[h.core].arch.reg rs1).toNat) (stateCrc l g s) s t ∧
      t.cores[h.core] = { s.cores[h.core] with hold := .vote rd } ∧ t = { s with cores := s.cores.set h.core t.cores[h.core], voter := t.voter })

/-- RMU.CHECK, RMU.LOCK and RMU.RELEASE of a route (R125, R126, R128, R130): a free route without conflict is locked in the lane's own lock vector by LOCK alone, a locked one
is released, and the lane's result goes to a vote point; the first conflicting route is named. Without an armed unit the result is 7, with a route beyond the table 6.
What in it rests on log entries 69 and 77 is the model's choice. -/
def Obligations.RmuInstructionsLockAndReleaseRoutes : Prop :=
  ∀ (h : Hdr) (rd rs : Reg) (s : State) (l : Fin 3) (g : Fin 2), Ready h s → laneOf h.core = some (l, g) → (ixlOf s).map (·.1) = some g →
    s.cores[h.core].arch.priv = true → MayVote l g s → Inv s → NoRuns s →
    let route := s.cores[h.core].arch.reg rs
    let n := route.toNat
    let at_ := s.rmus[l].lvec.toNat % 2 ^ 24 + n / 8
    let bit := 1#8 <<< (n % 8)
    let gives (i : Instr) (op : Fin 3) (result first : Nat) (w : List (Nat × Byte)) (u : Rmu) : Prop :=
      ∃ t, exec i s = .next t ∧ Offers l g .rmu (leBytes 4 (n % 4096 + first * 2 ^ 16 + result * 2 ^ 28)) (stateCrc l g t) s t ∧
        Wrote (1 + l.val) w s t ∧ t.rmus = s.rmus.set l { u with ops := inc s.rmus[l].ops } ∧
        t.cores[h.core].hold = .rmu rd op route ∧ t.cores[h.core].arch.g = s.cores[h.core].arch.g ∧ t.cores[h.core].arch.ia = s.cores[h.core].arch.ia ∧
        t = { s with mem := t.mem, cores := t.cores, voter := t.voter, doms := t.doms, rmus := t.rmus }
    let free := laneLockBit l n s = false ∧ ∀ i, i < 4096 → i ≠ n → rowBit l n i s = true → laneLockBit l i s = false
    (InTable l n s → free → gives (.rmuCheck h rd rs) 0 0 0 [] s.rmus[l]) ∧
    (InTable l n s → free →
      gives (.rmuLock h rd rs) 1 1 0 [(at_, readByte (1 + l.val) at_ s ||| bit)] s.rmus[l]) ∧
    (InTable l n s → laneLockBit l n s = true →
      gives (.rmuRelease h rd rs) 2 4 0 [(at_, readByte (1 + l.val) at_ s &&& ~~~bit)] s.rmus[l]) ∧
    (InTable l n s → laneLockBit l n s = false → ∀ i, i < 4096 → i ≠ n → rowBit l n i s = true → laneLockBit l i s = true →
      (∀ j, j < i → j ≠ n → rowBit l n j s = true → laneLockBit l j s = false) →
      gives (.rmuLock h rd rs) 1 2 i [] { s.rmus[l] with conf := inc s.rmus[l].conf } ∧
      gives (.rmuCheck h rd rs) 0 2 i [] { s.rmus[l] with conf := inc s.rmus[l].conf }) ∧
    (InTable l n s → laneLockBit l n s = true → gives (.rmuLock h rd rs) 1 3 0 [] s.rmus[l]) ∧
    (InTable l n s → laneLockBit l n s = false → gives (.rmuRelease h rd rs) 2 5 0 [] s.rmus[l]) ∧
    (s.rmus[l].armed = false → gives (.rmuLock h rd rs) 1 7 0 [] { s.rmus[l] with err := s.rmus[l].err ||| 4 }) ∧
    (s.rmus[l].armed = true → s.rmus[l].routes.toNat ≤ n → gives (.rmuLock h rd rs) 1 6 0 [] s.rmus[l])

/-- The control cycle (R31, R37, R39, R47 to R54, R57): T_k counts the cycle and takes its time; input ready falls when the coaches are in, not before 2 µs, or at
the return limit; releases, completions and the output deadline move a pair's tasks and images, once in a cycle and at their instants; the overrun limit stops it.
What in it rests on log entries 13, 19 and 21 is the model's choice. -/
def Obligations.CycleEventsAdvanceTheControlCycle : Prop :=
  (∀ s, tkDue s = true → Gives .cycleStart s [.cyc, .cores, .doms, .mem, .memRegs, .memErrs, .voter, .solvers, .ring, .rtm, .hsb, .sync, .fg, .mbx, .boot, .arb, .log, .freeCtr] fun t =>
    t.cyc.count = s.cyc.count + 1 ∧ t.cyc.tk = nextTk s ∧ t.cyc.ir = none ∧ t.cyc.irForced = false ∧ t.cyc.dl = false ∧ t.cyc.running = !s.arb.lastTrain) ∧
  (∀ s, irAwaited s = true → nothingAwaited s = true → (s.cyc.tk + 2500).toNat ≤ s.cyc.tb.toNat → Gives .inputReady s [.cyc, .cores, .doms, .mem, .voter, .solvers, .ring, .rtm, .hsb, .sync, .mbx, .freeCtr] fun t =>
    t.cyc = { s.cyc with ir := some (s.cyc.tk + 2500), irForced := false }) ∧
  (∀ (s : State) (x : Train) (v : Long), irAwaited s = true → s.ring.dim ≠ .off → s.ring.train = some x → x.validAt = some v →
    let ir := if v.toNat < (s.cyc.tk + 2500).toNat then s.cyc.tk + 2500 else v
    ir.toNat ≤ (s.cyc.tk + BitVec.ofNat 64 (s.cyc.retlim.toNat * 125)).toNat → ir.toNat ≤ s.cyc.tb.toNat →
    Gives .inputReady s [.cyc, .cores, .doms, .mem, .voter, .solvers, .ring, .rtm, .hsb, .sync, .mbx, .freeCtr] fun t => t.cyc = { s.cyc with ir := some ir, irForced := false }) ∧
  (∀ s, irAwaited s = true → readyAt s = none → (s.cyc.tk + BitVec.ofNat 64 (s.cyc.retlim.toNat * 125)).toNat ≤ s.cyc.tb.toNat →
    Gives .returnLimit s [.cyc, .cores, .doms, .mem, .voter, .solvers, .ring, .rtm, .hsb, .sync, .mbx, .freeCtr] fun t =>
    t.cyc = { s.cyc with ir := some (s.cyc.tk + BitVec.ofNat 64 (s.cyc.retlim.toNat * 125)), irForced := true, err := Sys2Proof.Machine.setBit s.cyc.err 2 true }) ∧
  (∀ (n : Fin 4) (s : State) (im : Image), s.doms[pairDom n].image = some im → pairReleaseDue n s = true →
    Gives (.taskRelease n) s [.cores, .doms, .mem, .voter, .solvers, .wdg, .freeCtr] fun t =>
      t.cores[pairCore n].arch.ipend.getLsbD 0 = true ∧ t.doms[pairDom n].skipNext = false ∧
      (s.doms[pairDom n].skipNext = true → t.doms[pairDom n].skippedRun = s.doms[pairDom n].skippedRun + 1) ∧
      (s.doms[pairDom n].skipNext = false → t.doms[pairDom n].skippedRun = 0 ∧ t.doms[pairDom n].first = false ∧
        ∀ (i : Fin 16) (x : TaskDecl) (m off : Nat), im.tasks[i.val]? = some x → x.kind = .cyclic m off → s.cyc.count.toNat % m = off →
          s.doms[pairDom n].tasks[i].active = false →
          t.doms[pairDom n].tasks[i].active = true ∧ t.doms[pairDom n].tasks[i].deadline = s.cyc.count.toNat + m - 1)) ∧
  (∀ (g : Fin 2) (s : State), s.doms[groupDom g].image ≠ none → agreementDue g s = true → Gives (.agreementEnd g) s [.cyc, .cores, .doms, .mem, .memRegs, .memErrs, .banks, .bus, .voter, .solvers, .rmus, .ixl, .conns, .hsb, .sync, .fg, .mbx, .wdg, .cim, .esc, .ps, .boot, .arb, .log, .freeCtr] fun t =>
      t.voter.grp[g].relAt = some s.cyc.count) ∧
  (∀ (n : Fin 4) (i : Fin 16) (s : State) (im : Image), s.doms[pairDom n].image = some im → s.cores[pairCore n].task = some i → s.cores[pairCore n].stopped = false →
    s.doms[pairDom n].tasks[i].open_.getLsbD 0 = true → noRelease s = false → Gives (.taskComplete (pairCore n) i) s [.cores, .doms, .cim] fun t =>
      t.doms[pairDom n].tasks[i].open_ = 0 ∧ t.doms[pairDom n].tasks[i].active = false ∧ t.doms[pairDom n].published = s.doms[pairDom n].published ∧
      ∀ b, b < im.areas.qLen → t.doms[pairDom n].commit[b]? =
        some (if im.qOwner.any fun o => o.1 == i.val && o.2.1 ≤ b && b < o.2.1 + o.2.2 then readByte 0 (im.areas.qBase + b) s else s.doms[pairDom n].commit.getD b 0)) ∧
  (∀ s, deadlineDue s = true → quiet s = false →
    (∀ g : Fin 2, s.doms[groupDom g].run = true → s.voter.grp[g].eocAt = some s.cyc.count ∧ s.voter.grp[g].voted = []) →
    Gives .outputDeadline s [.cyc, .cores, .doms, .mem, .memRegs, .banks, .voter, .solvers, .ixl, .hsb, .sync, .fg, .mbx, .cim, .esc, .ps, .boot, .arb, .log, .freeCtr] fun t => t.cyc.dl = true ∧
      (∀ g : Fin 2, s.doms[groupDom g].run = true → s.voter.grp[g].lastEoc = true → inSafe s = false → t.doms[groupDom g].published = s.doms[groupDom g].voted) ∧
      ∀ n : Fin 4, s.doms[pairDom n].run = true → s.doms[pairDom n].stopDue = false → s.arb.oper ≠ .hold →
        t.cores[pairCore n].arch.ipend.getLsbD 1 = true ∧
        (overrunning (pairDom n) s = false → t.doms[pairDom n].published =
            (((s.doms[pairDom n].commits.filter fun c => c.1 ≤ s.cyc.count.toNat).getLast?.map Prod.snd).getD s.doms[pairDom n].published) ∧ t.doms[pairDom n].ovrRun = 0 ∧ t.doms[pairDom n].rptSent = false) ∧
        (overrunning (pairDom n) s = true → t.doms[pairDom n].published = s.doms[pairDom n].published ∧ t.doms[pairDom n].ovrRun = inc8 s.doms[pairDom n].ovrRun ∧
          t.doms[pairDom n].ovrTotal = inc s.doms[pairDom n].ovrTotal ∧ t.doms[pairDom n].ovrSince = inc s.doms[pairDom n].ovrSince ∧ t.doms[pairDom n].rptSent = true ∧ t.doms[pairDom n].skipNext = true)) ∧
  (∀ (n : Fin 4) (s : State), s.doms[pairDom n].run = true → s.cyc.dl = true → ovrLimit n s ≤ s.doms[pairDom n].ovrRun.toNat → Gives (.overrunLimitStop n) s [.cores, .doms, .pairs, .solvers, .hsb, .sync, .mbx, .arb, .log] fun t =>
    t.doms[pairDom n].run = false ∧ t.doms[pairDom n].published = failImage (pairDom n) s ∧ t.doms[pairDom n].pstop = true ∧ t.doms[pairDom n].rptSent = false ∧
      t.cores[pairCore n].stopped = true)

/-- Shadow reads (R36, R206, R436): reading a low half gives it and keeps the high half; a read of the clock's shadowed registers opens a sequence whose values are of one
instant, RTC_SNAP closes it and says whether it was one sequence; CLROVR clears the pairs' overrun totals. -/
def Obligations.ShadowReadsKeepOneInstant : Prop :=
  (∀ (a : Access) (s : State), pdOn .vote s = true →
    exec (.cycCountLoRead a) s = .next { s with cyc := { s.cyc with countSh := s.cyc.count.extractLsb' 32 32 }, bus := { resp := .ok, val := s.cyc.count.setWidth 32 } } ∧
    exec (.cycTbLoRead a) s = .next { s with cyc := { s.cyc with tbSh := s.cyc.tb.extractLsb' 32 32 }, bus := { resp := .ok, val := s.cyc.tb.setWidth 32 } } ∧
    exec (.rtmOfsLoRead a) s = .next { s with rtm := { s.rtm with ofsSh := (s.rtm.rtofs.getD 0).extractLsb' 32 32 }, bus := { resp := .ok, val := (s.rtm.rtofs.getD 0).setWidth 32 } } ∧
    (a.master = .steward → Gives (.clrovr a) s [.doms, .bus] fun t => t.bus = { resp := .ok, val := 0 } ∧
      (∀ n : Fin 4, t.doms[pairDom n] = { s.doms[pairDom n] with ovrTotal := 0 }) ∧ ∀ g : Fin 2, t.doms[groupDom g] = s.doms[groupDom g])) ∧
  ∀ (a : Access) (i : Fin 5) (s : State), rtcShadowOf a.master = some i → pdOn .aon s = true →
    let x := s.rtc.shadow[i]
    let put (y : RtcShadow) : Rtc := { s.rtc with shadow := s.rtc.shadow.set i y }
    (∀ r : Fin 6, (∃ t0, x.start = some t0 ∧ (s.cyc.tb - t0).toNat < 1250000) →
      exec (.rtcShadowRead a r) s = .next { s with bus := { resp := .ok, val := rtcShadowVal r x } }) ∧
    (∀ r : Fin 6, (∀ t0, x.start = some t0 → 1250000 ≤ (s.cyc.tb - t0).toNat) →
      let y : RtcShadow := { time := rtcTimeWord s.rtc, date := s.rtc.date, frac := s.rtc.frac, bin := s.rtc.bin, stat := rtcStat s.rtc, start := some s.cyc.tb, count := x.count + 1 }
      exec (.rtcShadowRead a r) s = .next { s with rtc := put y, bus := { resp := .ok, val := rtcShadowVal r y } }) ∧
    exec (.rtcSnap a) s = .next { s with rtc := put { x with start := none, count := 0 }, bus := { resp := .ok, val := if x.count ≤ 1 then 1 else 0 } } ∧
    (∀ t0, x.start = some t0 → 1250000 ≤ (s.cyc.tb - t0).toNat → exec (.rtcSequenceTimeout a) s = .next { s with rtc := put { x with start := none } })

/-- The clock (R426 to R435): the second tick, LOAD, shifts, summer-time steps, alarms and the wake interval; the Steward alone writes.
What in it rests on log entry 23 is the model's choice. -/
def Obligations.ClockCommandsSetAndAdvanceTheTime : Prop :=
  (∀ s, secondDue s = true → s.rtc.step = none → (∀ x, s.rtc.shift = some x → x.msb = false) → Gives .rtcSecondTick s [.cores, .rtc, .ps, .power] fun t =>
    t.rtc.bin = s.rtc.bin + 1 ∧ t.rtc.shift = none ∧
    (calLast (calOf s.rtc.time s.rtc.date) = false →
      t.rtc.time = calTime (calNext (calOf s.rtc.time s.rtc.date)) ∧ t.rtc.date = calDate (calNext (calOf s.rtc.time s.rtc.date))) ∧
    (∀ x, s.rtc.shift = some x → t.rtc.frac = BitVec.ofNat 32 (x.toNat * 2 ^ 17) ∧ t.rtc.evt.getLsbD 0 = true)) ∧
  (∀ (s : State) (x : BitVec 16), secondDue s = true → s.rtc.step = none → s.rtc.shift = some x → x.msb = true → Gives .rtcSecondTick s [.cores, .rtc, .ps, .power] fun t =>
    t.rtc.bin = s.rtc.bin ∧ t.rtc.shift = none ∧ t.rtc.frac = BitVec.ofNat 32 (2 ^ 32 - (-x).toNat * 2 ^ 17) ∧ t.rtc.evt.getLsbD 0 = true) ∧
  (∀ (a : Access) (s : State), a.master = .steward → pdOn .aon s = true →
    let c := calOf s.rtc.stime s.rtc.sdate
    let fails (b : Nat) : State := { s with rtc := { s.rtc with err := Sys2Proof.Machine.setBit s.rtc.err b true }, bus := { resp := .ok, val := 0 } }
    (calImpossible s.rtc.stime s.rtc.sdate = true → exec (.rtcLoad a) s = .next (fails 0)) ∧
    (calImpossible s.rtc.stime s.rtc.sdate = false → Gives (.rtcLoad a) s [.cores, .memRegs, .rtc, .bus] fun t =>
      t.rtc.time = calTime c ∧ t.rtc.date = calDate c ∧ t.rtc.bin = BitVec.ofNat 40 (calSeconds c) ∧ t.rtc.frac = 0 ∧ t.rtc.bvalid = true ∧ t.rtc.nvalid = true ∧
      t.rtc.lost = false ∧ t.rtc.shift = none ∧ t.rtc.step = none ∧ t.rtc.dst = s.rtc.sdate.getLsbD 13) ∧
    (∀ v : Fin 4, v = 1 ∨ v = 2 → dstRefusal (v == 1) s = none →
      exec (.rtcCtlDst a v) s = .next { s with rtc := { s.rtc with step := some (v == 1) }, bus := { resp := .ok, val := 0 } }) ∧
    (∀ (v : Fin 4) (b : Nat), v = 1 ∨ v = 2 → dstRefusal (v == 1) s = some b → exec (.rtcCtlDst a v) s = .next (fails b)) ∧
    (∀ v : BitVec 16, v ≠ 0 → v ≠ 0x8000 → s.rtc.shift = none →
      exec (.rtcShiftWrite a v) s = .next { s with rtc := { s.rtc with shift := some v }, bus := { resp := .ok, val := 0 } }) ∧
    (∀ v : BitVec 16, v = 0 ∨ v = 0x8000 → exec (.rtcShiftWrite a v) s = .next (fails 1)) ∧
    (∀ (n : Fin 2) (v : Word), Gives (.rtcAlarmArm a n v) s [.cores, .memRegs, .rtc, .bus] fun t =>
      let target : BitVec 40 := (v.setWidth 8).append (s.rtc.alm[n].1.setWidth 32)
      t.rtc.alm[n] = (target, v.getLsbD 31 && decide (s.rtc.bin.toNat < target.toNat)) ∧ t.rtc.bin = s.rtc.bin ∧
      (v.getLsbD 31 = true → target.toNat ≤ s.rtc.bin.toNat → t.rtc.evt.getLsbD (1 + 2 * n.val) = true)) ∧
    (∀ v : Word, (v.setWidth 26 : BitVec 26).toNat ≤ 67107840 →
      exec (.rtcWakeWrite a v) s = .next { s with rtc := { s.rtc with wake := v.setWidth 26, wakeAcc := 0 }, bus := { resp := .ok, val := 0 } })) ∧
  (∀ s, s.rtc.wake ≠ 0 → s.rtc.wake.toNat * 1250000000 ≤ s.rtc.wakeAcc → Gives .rtcWakeExpiry s [.cores, .rtc] fun t =>
    t.rtc = { s.rtc with evt := Sys2Proof.Machine.setBit s.rtc.evt 5 true, wakeAcc := s.rtc.wakeAcc - s.rtc.wake.toNat * 1250000000 } ∧ (pdOn .stew s = true → t.cores[stewCore].arch.ipend.getLsbD 6 = true) ∧
    ∀ c : CoreId, c ≠ stewCore → t.cores[c] = s.cores[c])

/-- Sync messages and the sync link (R207 to R212, R218, R219, R223 to R226, R228): an invalid message is only counted; a valid one has its effect, after its role and
epoch are noted.
What in it rests on log entries 10 and 79 is the model's choice. -/
def Obligations.SyncMessagesHaveTheirEffects : Prop :=
  ∀ (m : SyncHdr) (s : State), paired s = true →
    let out (type : Byte) (body : List Byte) (t : State) : Prop := ∃ x, t.sync.out = s.sync.out ++ [x] ∧ x.type = type ∧ x.body = body
    let ok (type : Byte) (body : List Byte) : Prop := syncValid m type body s = true
    let refs (bl : List DeltaRef) : List Byte := bl.flatMap fun b => b.area :: leBytes 4 b.offset.toNat
    let delta (b : DeltaBody) : List Byte := b.area :: leBytes 4 b.offset.toNat ++ b.data ++ leBytes 4 b.crc.toNat
    (∀ (b : HelloBody) (w tr : BitVec 64) (mask res type : BitVec 8) (body : List Byte) (db : DeltaBody) (bl : List DeltaRef) (cs : List (BitVec 64)) (d : Word),
      ∀ z ∈ ([(.syncMessageDiscard { hdr := m, type := type, body := body }, type, body), (.hello m b, 0x01, helloBytes b), (.renew m w, 0x02, leBytes 8 w.toNat), (.mismatch m mask, 0x03, [mask]),
          (.consensus m mask res, 0x04, [mask, res]), (.prepare m tr, 0x05, leBytes 8 tr.toNat), (.prepared m tr, 0x06, leBytes 8 tr.toNat),
          (.relinquish m tr, 0x07, leBytes 8 tr.toNat), (.delta m db, 0x08, delta db), (.deltaReq m bl, 0x09, refs bl),
          (.statecrc m cs, 0x0A, cs.flatMap fun c => leBytes 8 c.toNat), (.delays m d, 0x0C, leBytes 4 d.toNat)] : List (Instr × Byte × List Byte)),
        syncValid m z.2.1 z.2.2 s = false → exec z.1 s = .next { s with hsb := { s.hsb with cnt := s.hsb.cnt.set 4 (inc s.hsb.cnt[(4 : Fin 5)]) } }) ∧
      (∀ b, ok 0x01 (helloBytes b) → Gives (.hello m b) s [.hsb, .sync, .ps, .arb, .log, .freeCtr] fun t => t.sync.pHello = some b ∧
        t.sync.pRole = (if m.role = 0 then 4 else if m.role.toNat ≤ 3 then m.role else 0) ∧
        (m.role = 1 → b.confId = (s.ring.layout.map (·.confId)).getD 0 → s.sync.listening = true → t.sync.listening = false ∧ t.hsb.role = .syncing)) ∧
      (∀ w : BitVec 64, ok 0x02 (leBytes 8 w.toNat) → (w >>> 32).setWidth 32 = s.hsb.epoch → Gives (.renew m w) s [.hsb, .sync, .ps, .freeCtr] fun t => t.sync.accepted = true) ∧
      (∀ mask, ok 0x03 [mask] → Gives (.mismatch m mask) s [.hsb, .sync, .ps, .freeCtr] fun t => t.hsb.cmpRun = 0 ∧ t.hsb.lastMis = mask.setWidth 6 ∧
        (s.sync.cons = none → t.sync.cons = some { cyc := m.cyc, mask := mask, mine := 0, sent := false, theirs := none }) ∧ (s.sync.cons ≠ none → t.sync.cons = s.sync.cons)) ∧
      (∀ mask res c, ok 0x04 [mask, res] → s.sync.cons = some c → Gives (.consensus m mask res) s [.hsb, .sync, .ps, .freeCtr] fun t => t.sync.cons = some { c with theirs := some res }) ∧
      (∀ tr : BitVec 64, ok 0x05 (leBytes 8 tr.toNat) → s.hsb.role = .standby → s.arb.oper = .run → Gives (.prepare m tr) s [.hsb, .sync, .ps] (out 0x06 (leBytes 8 tr.toNat))) ∧
      (∀ tr, ok 0x06 (leBytes 8 tr.toNat) → s.sync.prepM = some tr → s.hsb.role = .primary → s.cyc.count + 1 = tr → since s.cyc.tk s ≤ deadlineTicks s →
        Gives (.prepared m tr) s [.hsb, .sync, .ps] fun t => t.sync.prepared = true) ∧
      (∀ tr : BitVec 64, ok 0x07 (leBytes 8 tr.toNat) → s.hsb.role = .standby →
        (pairNo s.cyc.count s).toNat < tr.toNat ∨ (pairNo s.cyc.count s = tr ∧ since s.cyc.tk s < deadlineTicks s) →
        Gives (.relinquish m tr) s [.hsb, .sync, .ps] fun t => t.sync.relqGot = some tr) ∧
      (∀ b : DeltaBody, ok 0x08 (delta b) → b.crc = crc32c b.data → s.sync.resync.state = 1 ∨ s.sync.resync.state = 2 → Inv s → Gives (.delta m b) s [.cores, .doms, .mem, .voter, .solvers, .hsb, .sync, .ps, .freeCtr] fun t =>
        (∀ i, i < b.data.length → readByte (Config.deltaPlace b.area b.offset).1 ((Config.deltaPlace b.area b.offset).2 + i) t = b.data.getD i 0) ∧
        t.sync.resync.progress = if s.sync.resync.state = 1 then inc16 s.sync.resync.progress else s.sync.resync.progress) ∧
      (∀ bl : List DeltaRef, ok 0x09 (refs bl) → s.hsb.role = .primary ∨ s.hsb.role = .alone → Gives (.deltaReq m bl) s [.hsb, .sync, .ps] fun t =>
        ∃ ms, t.sync.out = s.sync.out ++ ms ∧ ms.map (·.type) = List.replicate bl.length 0x08) ∧
      (∀ cs, ok 0x0A (cs.flatMap fun c => leBytes 8 c.toNat) → s.sync.resync.state = 3 → cs ≠ groupCrcs s → Gives (.statecrc m cs) s [.hsb, .sync, .ps] fun t =>
        t.sync.resync.state = 0 ∧ t.sync.resync.result = 0x05 ∧ t.hsb.evt.getLsbD 6 = true) ∧
      (∀ d : Word, ok 0x0C (leBytes 4 d.toNat) → Gives (.delays m d) s [.hsb, .sync, .ps, .freeCtr] fun t => t.sync.pDback = d) ∧
    (s.sync.up = false → s.power.sfp = .good → 3 ≤ s.sync.msgRun → Gives .syncLinkUp s [.hsb, .sync, .freeCtr] fun t => t.sync.up = true ∧
      ∃ x xs, t.sync.out = s.sync.out ++ x :: xs ∧ x.type = 0x0C ∧ x.body = leBytes 4 t.sync.dback.toNat) ∧
    (s.sync.up = true → Gives .syncLinkDown s [.hsb, .sync] fun t => t.sync.up = false ∧ t.sync.msgRun = 0 ∧ t.hsb.evt.getLsbD 0 = true ∧
      (s.sync.resync.state ≠ 0 → t.sync.resync.state = 0 ∧ t.sync.resync.result = 0x03))

/-- Lease, takeovers, switchover and resynchronisation (R215, R219, R220, R222 to R229, R231): who originates, with which epoch, and how an attempt goes on and ends.
What in it rests on log entries 3, 58, 67 and 79 (what comes from the partner is free) is the model's choice. -/
def Obligations.LeaseAndResynchronisationMoveTheRole : Prop :=
  ∀ s : State,
    let n := nextEpoch (unit s) s.hsb.seen.toNat
    let leads (ev : Option Nat) (t : State) : Prop := t.hsb.role = .primary ∧ t.hsb.orig = true ∧ t.hsb.epoch.toNat = n ∧ t.hsb.left = BitVec.ofNat 5 (leaseLen s) ∧
      t.hsb.silent = 0 ∧ t.sync.listening = false ∧ ∀ b, ev = some b → t.hsb.evt.getLsbD b = true ∧ t.hsb.cnt[(3 : Fin 5)] = inc s.hsb.cnt[(3 : Fin 5)]
    let begins (i : Instr) : Prop := s.hsb.role = .syncing → s.sync.up = true → s.sync.pRole = 1 ∨ s.sync.pRole = 4 → inSafe s = false → s.sync.resync.state = 0 → versionsOk s = true →
      Gives i s [.hsb, .sync, .freeCtr] fun t => t.sync.resync.state = 1 ∧ t.sync.resync.progress = 0
    let fails (i : Instr) (r : Byte) : Prop := Gives i s [.hsb, .sync] fun t => t.sync.resync.state = 0 ∧ t.sync.resync.result = r ∧ t.hsb.evt.getLsbD 6 = true
    (n < 2 ^ 32 → s.hsb.committed = some (BitVec.ofNat 32 n) →
      (s.sync.listening = true → listenTicks s ≤ since s.sync.listenAt s → Gives .listenTimeout s [.hsb, .sync, .ps, .arb, .log] (leads none)) ∧
      (s.hsb.role = .standby → atTk s = true → leaseLen s + 1 ≤ s.hsb.silent.toNat →
        Gives .takeoverLease s [.conns, .doms, .mem, .memRegs, .memErrs, .mbx, .ring, .hsb, .sync, .ps, .arb, .log] fun t => leads (some 2) t ∧
        ∀ (l : Fin 3) (g : Fin 2) (im : Image), s.doms[groupDom g].image = some im →
          t.conns[l][g] = (im.conns.zip s.conns[l][g]).map fun z => { z.2 with startLeft := z.1.timeout + 2 }) ∧
      (∀ k, s.sync.relqGot = some k → s.hsb.role = .standby → atTk s = true → k.toNat < (pairNo s.cyc.count s).toNat →
        Gives .takeoverRelinquish s [.doms, .mem, .memRegs, .memErrs, .mbx, .ring, .hsb, .sync, .ps, .arb, .log] (leads (some 3)))) ∧
    (n < 2 ^ 32 → s.hsb.committed ≠ some (BitVec.ofNat 32 n) → s.sync.listening = true → listenTicks s ≤ since s.sync.listenAt s → Gives .listenTimeout s [.hsb, .ps] fun t =>
      t.hsb.role = s.hsb.role ∧ t.hsb.orig = s.hsb.orig ∧ t.hsb.evt.getLsbD 11 = true) ∧
    (s.hsb.role = .primary → s.hsb.orig = true → s.hsb.left = 0 → Gives .leaseLapse s [.hsb, .sync, .arb, .log] fun t =>
      t.hsb.role = .syncing ∧ t.hsb.orig = false ∧ t.hsb.evt.getLsbD 4 = true) ∧
    (∀ c, s.sync.cons = some c → c.cyc.toNat + 3 ≤ (pairNo s.cyc.count s).toNat →
      let mine := (if c.sent then c.mine else consensusOf c.mask c.cyc s) &&& c.mask != 0
      let theirs := match c.theirs with | some r => r &&& c.mask != 0 | none => s.hsb.role == .primary
      Gives .consensusDecision s [.hsb, .sync, .arb, .log, .freeCtr] fun t => t.sync.cons = none ∧
        (s.hsb.role = .primary → t.hsb.role = .primary ∧ (mine = true → theirs = false →
            t.sync.relqSent = match s.sync.relqSent with | some k => some (if k.toNat < (c.cyc + 3).toNat then k else c.cyc + 3) | none => some (c.cyc + 3)) ∧
          (mine = true ∧ theirs = false ∨ t.sync.relqSent = s.sync.relqSent)) ∧
        (s.hsb.role = .standby → t.hsb.role = if theirs && !mine then .standby else .syncing) ∧
        (mine = false → theirs = false → s.hsb.role = .primary ∨ s.hsb.role = .standby → t.hsb.evt.getLsbD 7 = true)) ∧
    (∀ v, s.hsb.wantEpoch = some v → (∀ p ∈ [page 4 s, page 5 s], copyValid 3 p = true ∧ sliceNat 0 4 (copyPayload p) = v.toNat) →
      exec .epochCommit s = .next { s with hsb := { s.hsb with committed := some v, wantEpoch := none } }) ∧
    (s.hsb.reqBusy = false → s.hsb.role = .primary → s.sync.pRole = 2 → s.sync.up = true → 16 ≤ s.hsb.cmpRun.toNat → inSafe s = false → s.sync.prepM = none → s.sync.relqSent = none →
      paired s = true → exec .switchover s = .next { s with hsb := { s.hsb with reqReason := 0, reqRefused := false, reqBusy := true }
                                                            sync := { s.sync with prepM := some (s.cyc.count + 2), prepared := false } }) ∧
    (∀ k, s.sync.prepM = some k → s.sync.prepared = false → pastDeadline (k - 1) s = true → Gives .prepareTimeout s [.hsb, .sync, .mbx] fun t =>
      t.sync.prepM = none ∧ t.hsb = { s.hsb with reqBusy := false, reqReason := 0x0A, reqRefused := true }) ∧
    (s.hsb.reqBusy = false → paired s = true → begins .resync) ∧
    (∀ t0, s.sync.resync.failedAt = some t0 → 75000000000 ≤ since t0 s → begins .resyncRetry) ∧
    (s.hsb.reqBusy = false → paired s = true → s.hsb.role = .syncing → s.sync.resync.state ≠ 0 → fails .abortSync 0x04) ∧
    (s.sync.resync.state = 1 → s.sync.resync.want = [] →
      (Gives .resyncImageDone s [.cores, .doms, .mem, .memRegs, .memErrs, .voter, .solvers, .ixl, .conns, .sync, .fg, .fgErr, .wdg, .cim, .arch, .boot, .log, .freeCtr] fun t => t.sync = { s.sync with resync := { s.sync.resync with state := 2, progress := 0 } }) ∧
      ((∀ h ∈ s.sync.pHello, ∀ d : DomId, ∀ x ∈ h.images[d.val]?, x = 0 ∨ ∃ im ∈ s.doms[d].image, im.id = x) →
        exec .resyncImageDone s = .next { s with sync := { s.sync with resync := { s.sync.resync with state := 2, progress := 0 } } })) ∧
    (s.sync.resync.state = 2 → Gives .resyncStateClean s [.sync, .conns, .ixl, .freeCtr] fun t =>
      t.sync = { s.sync with resync := { s.sync.resync with state := 3, progress := 0 } } ∧
      ∀ (l : Fin 3) (g : Fin 2), t.conns[l][g].length = s.conns[l][g].length) ∧
    (s.sync.resync.state = 3 → 16 ≤ s.sync.resync.progress.toNat → Gives .resyncJoined s [.hsb, .sync, .arb, .log] fun t =>
      t.hsb.role = .standby ∧ t.sync = { s.sync with resync := { s.sync.resync with state := 0, result := 1 } }) ∧
    (∀ d : DomId, 4 ≤ d.val → s.doms[d].change.dim = .none → s.hsb.role = .standby → s.hsb.susp.getLsbD d.val = true →
      Gives (.changeConfirmEffect d) s [.hsb, .sync, .arb, .log, .freeCtr] fun t => t.hsb.role = .syncing) ∧
    (s.sync.resync.state = 2 → 1024 ≤ s.sync.resync.progress.toNat → fails .resyncNoconv 0x02)

/-- Ring frames, time sources, links and breaks (R154, R162, R183, R188, R193, R194, R200 to R204): frames are counted and recorded, the selected source moves, rings
are marked broken and whole once, a closed loop surveys every station.
What in it rests on log entries 3, 79 and 80 is the model's choice. -/
def Obligations.RingFramesLinksAndBreaksAreRecorded : Prop :=
  ∀ (s : State) (p : Port),
    let ring := portRing p
    let out : Port := if p = 1 then 0 else p + 1
    let count (k : Fin 5) (r : Ring) : Ring := { r with cnt := r.cnt.set ring (r.cnt[ring].set k (inc r.cnt[ring][k])) }
    let bit := Sys2Proof.Machine.setBit
    (∀ f : Frame, portActive p s = true →
      (f.etype.toNat ≠ field s.ring.cfg 16 16 → exec (.frameReceive p f) s = .next { s with ring := count 4 s.ring }) ∧
      (f.etype.toNat = field s.ring.cfg 16 16 →
        let counted := if f.fcsGood then count 0 s.ring else count 1 (count 0 s.ring)
        (portReceives p s = false ∨ s.ring.on[ring] = false ∨ (s.hsb.orig = false ∧ paired s = false) ∨ (s.hsb.orig = true ∧ f.fcsGood = false ∧ p ≠ 1) →
          exec (.frameReceive p f) s = .next { s with ring := counted }) ∧
        (portReceives p s = true → s.ring.on[ring] = true →
          (s.hsb.orig = false → paired s = true → f.fcsGood = false →
            exec (.frameReceive p f) s = .next { s with ring := { counted with relayed := s.ring.relayed ++ [(out, f)] } }) ∧
          (s.hsb.orig = false → paired s = true → f.fcsGood = true → sliceNat 1 1 f.payload = 0 → leadAccepted f.payload s = true →
            Gives (.frameReceive p f) s [.cyc, .ring, .rtm, .hsb, .sync, .ps, .arb, .log, .freeCtr] fun t => t.ring.relayed = s.ring.relayed ++ [(out, f)] ∧
              t.hsb.epoch.toNat = sliceNat 30 4 f.payload ∧ t.hsb.silent = 0 ∧ t.sync.accepted = true ∧
              t.cyc.tk = s.cyc.tb - BitVec.ofNat 64 (frameTicks f.payload.length s) - BitVec.ofNat 64 (delayTo ring none s / 800)) ∧
          (s.hsb.orig = true → p = 1 → (∀ m, s.rtm.loop = some m → m < (coachesOf s).length) →
            exec (.frameReceive p f) s = .next { s with ring := { counted with train := s.ring.train.map fun x => { x with looped := true }
                                                                               relayed := s.ring.relayed ++ [(0, f)] } }) ∧
          (s.hsb.orig = true → p ≠ 1 → f.fcsGood = true → f.src = s.fuses.mac + 1 →
            ∀ (x : Train) (l : Layout) (is : List Nat), s.ring.train = some x → s.ring.layout = some l → sliceNat 0 1 f.payload = 1 →
              sliceNat 4 4 f.payload = x.cyc.toNat % 2 ^ 32 → x.got[ring].contains (sliceNat 1 1 f.payload) = false → (layoutFrames l)[sliceNat 1 1 f.payload]? = some is →
              Gives (.frameReceive p f) s [.ring, .rtm] fun t => ∃ y, t.ring.train = some y ∧ y.got[ring] = sliceNat 1 1 f.payload :: x.got[ring] ∧
                y.rets = (if s.cyc.ir = none then x.rets ++ parseCoaches l ring f.payload 8 is else x.rets) ∧
                y.validAt = x.validAt.or (if coachesValid l y then some s.cyc.tb else none))))) ∧
    (∀ r : Fin 4, followsPrimary s = false → sourceChoice s = some (some r) → Gives .timeSourceChange s [.rtm] fun t => t.rtm.tsrc = r ∧ t.rtm.holdover = false ∧
      (r ≠ s.rtm.tsrc → t.rtm.evt.getLsbD 2 = true ∧ t.rtm.srcchg = inc s.rtm.srcchg)) ∧
    (followsPrimary s = false → sourceChoice s = some none → exec .timeSourceChange s = .next { s with rtm := { s.rtm with holdover := true, tstate := 2, diff := 0, evt := bit s.rtm.evt 3 true } }) ∧
    (∀ mode : LinkMode, portActive p s = true →
      (mode = portMode s → exec (.ringLinkUp p mode) s = .next { s with ring := { s.ring with linkUp := s.ring.linkUp.set p true } }) ∧
      (mode ≠ portMode s → Gives (.ringLinkUp p mode) s [.ring, .rtm] fun t => t.ring = count 3 { s.ring with linkUp := s.ring.linkUp.set p false })) ∧
    (let broken : State := { s with rtm := { s.rtm with brk := s.rtm.brk.set ring true, evt := bit s.rtm.evt ring.val true, good := s.rtm.good.set ring 0 } }
     s.ring.dim = .nativeDual ∨ s.ring.dim = .nativeSingle → s.ring.on[ring] = true →
      (s.rtm.brk[ring] = false → exec (.ringLinkDown p) s = .next { broken with ring := { s.ring with linkUp := s.ring.linkUp.set p false } }) ∧
      (s.rtm.brk[ring] = false → ringLinked ring s = false ∨ 3 ≤ s.rtm.bad[ring] → exec (.ringBroken ring) s = .next broken) ∧
      (s.rtm.brk[ring] = true → exec (.ringLinkDown p) s = .next { s with ring := { s.ring with linkUp := s.ring.linkUp.set p false } } ∧ exec (.ringBroken ring) s = .next s)) ∧
    (s.rtm.brk[ring] = true → 3 ≤ s.rtm.good[ring] → exec (.ringWhole ring) s = .next { s with rtm := { s.rtm with brk := s.rtm.brk.set ring false } }) ∧
    (s.ring.dim = .compatLoop → Gives .segmentBreak s [.ring, .rtm, .freeCtr] fun t =>
      (∃ m, t.rtm.loop = some m ∧ m ≤ (coachesOf s).length ∧ (s.ring.linkUp[(1 : Fin 4)] = false → m = 0) ∧
        (s.ring.linkUp[(1 : Fin 4)] = true → s.ring.linkUp[(0 : Fin 4)] = false → m = (coachesOf s).length)) ∧
      t.ring.looped = true ∧ t.rtm.evt.getLsbD 4 = true ∧ ∀ c ∈ coachesOf s, ∃ b, (c.addr, b) ∈ t.rtm.todo) ∧
    (s.ring.dim = .compatLoop → s.rtm.loop ≠ none → Gives .loopOpened s [.ring, .rtm] fun t => t.rtm.loop = none ∧ t.ring.looped = false ∧ t.rtm.evt.getLsbD 5 = true ∧
      ∀ c ∈ coachesOf s, ∃ b, (c.addr, b) ∈ t.rtm.todo)

/-- Freight, surveys, RING_EN and RING_CFG (R174, R177 to R180, R188): a request takes the lowest free place or ends with its refusal; one past its budget ends LINK; a
survey reads its first station; changes of the rings are recorded and take effect together.
What in it rests on log entries 47 and 83 is the model's choice. -/
def Obligations.FreightAndRingSettingsAreKept : Prop :=
  ∀ s : State,
    let m (v : Word) : Bool × Bool := match field v 0 3 with | 1 => (true, true) | 2 => (true, false) | 3 => (false, true) | 4 => (true, false) | _ => (false, false)
    let wanted (a b : Bool) (v : Word) : RingDim :=
      if field v 0 3 = 4 then (if a && (m v).1 then .compatLoop else .off)
      else if (a && (m v).1) && (b && (m v).2) then .nativeDual else if (a && (m v).1) || (b && (m v).2) then .nativeSingle else .off
    let recorded (en : BitVec 3) : State := { s with ring := { s.ring with en := en, enPend := s.ring.enPend || en != s.ring.en, frtDisable := s.ring.frtOn && !en.getLsbD 2 } }
    (∀ q : FrtReq, (frtRefusal q s = none → Gives (.freightSubmit q) s [.ring, .mem] fun t => ∃ x : FrtItem, t.ring = { s.ring with items := s.ring.items ++ [x] } ∧
        (Inv s → q.data.length ≤ 1024 → Wrote 4 ((enum q.data).map fun y => (0x1C0000 + 0x400 * x.slot.val + y.1, y.2)) s t) ∧ x.req = q ∧ x.use = .program ∧ x.attempt = 0 ∧ x.sentIn = none ∧ x.withdrawn = false ∧
        (s.ring.items.length < 128 → (∀ y ∈ s.ring.items, y.slot ≠ x.slot) ∧ ∀ n : Fin 128, n < x.slot → ∃ y ∈ s.ring.items, y.slot = n)) ∧
      ∀ o, frtRefusal q s = some o →
        exec (.freightSubmit q) s = .next { s with ring := { s.ring with ends := s.ring.ends ++ [{ slot := none, req := q, use := .program, out := o }] } }) ∧
    (∀ (slot : Fin 128) (i : FrtItem) (t0 : Long), (s.ring.items.find? fun i => i.slot == slot) = some i → i.first = some t0 →
      t0.toNat + 3 + 2 * (i.req.path.length - 1) < s.cyc.count.toNat ∨ (s.cyc.count.toNat = t0.toNat + 3 + 2 * (i.req.path.length - 1) ∧ s.cyc.ir ≠ none) →
      Gives (.freightBudgetExpiry slot) s [.mem, .ring, .rtm, .sync, .mbx] fun t =>
        { slot := some slot, req := i.req, use := i.use, out := .link : FrtEnd } ∈ t.ring.ends ∧ t.ring.frtLink = inc s.ring.frtLink ∧
        (i.use = .program → t.ring.items = s.ring.items.filter fun j => j.slot != slot)) ∧
    (∀ (a : BitVec 12) (b : Bool) (rest : List (BitVec 12 × Bool)), s.rtm.todo = (a, b) :: rest → s.rtm.survState ≠ 1 →
      (∀ i ∈ s.ring.items, ∀ x w, i.use ≠ .survey x w) →
      let q : FrtReq := { src := 0, op := 1, path := [a], index := 0xFFFFFF00, data := List.replicate 12 0 }
      frtRefusal q s = none → Gives .surveyStart s [.mem, .ring, .rtm, .freeCtr] fun t => t.rtm.survState = 1 ∧ t.rtm.survCount = 0 ∧
        ∃ x : FrtItem, t.ring.items = s.ring.items ++ [x] ∧ x.req = q ∧ x.use = .survey a false) ∧
    (∀ e1 e2 : Bool,
      let off := decide (s.ring.dim ≠ .off) && wanted e1 e2 s.ring.cfg == .off
      (off = false ∨ ringOffRefusal s = none → exec (.ringEnRing e1 e2) s = .next (recorded (Sys2Proof.Machine.setBit (Sys2Proof.Machine.setBit s.ring.en 0 e1) 1 e2))) ∧
      (∀ e, off = true → ringOffRefusal s = some e →
        exec (.ringEnRing e1 e2) s = .next { s with arb := { s.arb with reason := BitVec.ofNat 8 e.1, refused := true } })) ∧
    (∀ on : Bool, exec (.ringEnFrt on) s = .next (recorded (Sys2Proof.Machine.setBit s.ring.en 2 on))) ∧
    (s.ring.enPend = true → s.cyc.running = false ∨ tkDue s = true →
      let a := s.ring.en.getLsbD 0
      let b := s.ring.en.getLsbD 1
      let off := decide (s.ring.dim ≠ .off) && wanted a b s.ring.cfg == .off
      (∀ e, off = true → ringOffRefusal s = some e → Gives .ringEnTakeEffect s [.mem, .ring, .rtm, .sync, .mbx, .boot, .arb] fun t =>
        t.ring.dim = s.ring.dim ∧ t.arb = { s.arb with reason := BitVec.ofNat 8 e.1, refused := true } ∧ t.ring.enPend = false) ∧
      (off = false ∨ ringOffRefusal s = none → Gives .ringEnTakeEffect s [.mem, .ring, .rtm, .sync, .mbx, .boot, .arb] fun t =>
      t.ring.dim = wanted a b s.ring.cfg ∧ t.ring.on = #v[a && (m s.ring.cfg).1, b && (m s.ring.cfg).2] ∧ t.ring.enPend = false ∧ t.ring.frtDisable = false ∧
      t.ring.frtOn = (s.ring.en.getLsbD 2 && decide (wanted a b s.ring.cfg ≠ .off)) ∧
      (s.ring.dim = .off → wanted a b s.ring.cfg ≠ .off → ∀ c ∈ coachesOf s, ∃ f, (c.addr, f) ∈ t.rtm.todo))) ∧
    (∀ v : Word, (cfgLocked s = true → exec (.ringCfgWrite v) s = .next { s with ring := { s.ring with locked := true } }) ∧
      (cfgLocked s = false → ringCfgBad v = true → exec (.ringCfgWrite v) s = .next { s with ring := { s.ring with badval := true } }) ∧
      (cfgLocked s = false → ringCfgBad v = false → Gives (.ringCfgWrite v) s [.ring, .rtm, .boot, .arb] fun t =>
        let en : BitVec 3 := BitVec.ofNat 3 (bitOf (m v).1 + 2 * bitOf (m v).2 + 4 * bitOf (decide (0 < (s.ring.layout.map (·.slots)).getD 0)))
        t.ring.cfg = v &&& 0xFFFF0007 ∧ t.ring.dim = wanted (m v).1 (m v).2 v ∧ t.ring.en = en ∧ (en ≠ s.ring.en → t.ring.enPend = true)))

/-- Vote points and the agreement limit (R95, R98, R99, R106, R108): what a completed vote point leaves, when it leads to SAFE, which lanes it excludes, and how a
candidate meets the voted value.
What in it rests on log entry 57 is the model's choice. -/
def Obligations.VotePointsDecideMembersAndImages : Prop :=
  ∀ (g : Fin 2) (s : State),
    let v := s.voter.grp[g]
    let resolved (p : VotePoint) (late : Bool) (t : State) : Prop := t.voter.grp[g].vp = none ∧
      (∀ cause, voteEnd (memberLanes g s) p = .safe cause → inSafe s = false → t.arb.oper = .safe ∧ t.voter.safeCause = BitVec.ofNat 8 cause ∧ t.voter.safeValid = true) ∧
      ∀ x mi la, voteEnd (memberLanes g s) p = .pass x mi la →
        (p.kind = .eoc → t.voter.grp[g].lastEoc = true ∧ t.voter.grp[g].eocAt = some s.cyc.count ∧ t.doms[groupDom g].voted = votedImage g x s) ∧
        (v.cand = 0 → inSafe s = false → (∀ l ∈ mi, t.voter.grp[g].members.getLsbD l.val = false) ∧ (late = true → ∀ l ∈ la, t.voter.grp[g].members.getLsbD l.val = false)) ∧
        (v.cand = 0 → mi = [] → la = [] → t.voter.grp[g].members = v.members ∧
          ∀ l ∈ memberLanes g s, ∀ rd, s.cores[laneCore l g].hold = .vote rd → x.kind = .vote → t.cores[laneCore l g].hold = .none)
    (∀ p, v.vp = some p → (∀ l ∈ memberLanes g s, p.got[l] ≠ none) → Gives (.votePointComplete g) s [.cyc, .cores, .doms, .mem, .memRegs, .banks, .voter, .solvers, .ixl, .hsb, .sync, .fg, .mbx, .cim, .esc, .ps, .boot, .arb, .log, .freeCtr] (resolved p false)) ∧
    (∀ p, v.vp = some p → p.kind ≠ .eoc → p.opened.toNat + field v.cfg 8 16 ≤ s.cyc.tb.toNat →
      Gives (.voteWindowClose g) s [.cyc, .cores, .doms, .mem, .memRegs, .banks, .voter, .solvers, .ixl, .hsb, .sync, .fg, .mbx, .cim, .esc, .ps, .boot, .arb, .log, .freeCtr] (resolved p true)) ∧
    (∀ (x : Contrib) (w : Long) (rest : List (Contrib × Long)), v.voted = (x, w) :: rest → x.kind ≠ .eoc → v.candGot = [] → v.cand ≠ 0 → v.vp = none → w.toNat ≤ s.cyc.tb.toNat →
      s.voter.reint.phase ≠ 0 → Gives (.voteWindowClose g) s [.cores, .doms, .voter, .boot, .log] fun t =>
        t.voter.grp[g].voted = [] ∧ t.voter.reint.phase = 0 ∧ t.voter.reint.result = 0x06) ∧
    (∀ (x y : Contrib) (w : Long) (l : Fin 3) (ls : List (Fin 3)) (vs : List (Contrib × Long)) (cs : List Contrib), v.voted = (x, w) :: vs → v.candGot = y :: cs →
      candLanes g s = l :: ls → s.voter.reint.phase ≠ 0 →
      Gives (.candidateCompare g) s [.cores, .doms, .voter, .cim, .esc, .boot, .arb, .log] fun t => t.voter.grp[g].voted = [] ∧
        (x = y → t.voter.grp[g].members.getLsbD l.val = true) ∧ (x ≠ y → t.voter.reint.phase = 0 ∧ t.voter.reint.result = 0x06)) ∧
    ∀ l : Fin 3, groupMode v = 2 → v.members.getLsbD l.val = true → field v.cfg 0 8 ≤ v.agr[l] → field v.cfg 0 8 ≠ 0 →
      Gives (.agreementLimit g l) s [.cores, .doms, .voter, .hsb, .sync, .fg, .mbx, .ps, .boot, .arb, .log] fun t => t.voter.grp[g].members = Sys2Proof.Machine.setBit v.members l.val false ∧ t.voter.grp[g].duplex = true ∧
        t.voter.grp[g].mmkind = 4 ∧ t.voter.lane[l].xcause = 3 ∧ t.voter.lane[l].xcount = inc16 s.voter.lane[l].xcount ∧ t.cores[laneCore l g].stopped = true

/-- The Logic Solvers (R26, R68, R76, R78, R79, R83 to R86): START, ABORT, LOAD, UNLOAD, the end of a run, the window, and the request for their supply.
What in it rests on log entries 55 and 56 is the model's choice. -/
def Obligations.SolverCommandsRunNetworks : Prop :=
  (∀ (c : CoreId) (i : Fin 5) (k : Fin 2) (s : State), lsReach c i s = .ok k →
    let q := s.solvers[i].q[k]
    let at_ (f : LsQueue → LsQueue) (r : Resp) (v : Word) : State := { modQueue i k f s with bus := { resp := r, val := v } }
    let err (b : Nat) (q : LsQueue) : LsQueue := { q with err := Sys2Proof.Machine.setBit q.err b true }
    (∀ (e : BitVec 4) (h : NetHdr), q.img = some h → e.toNat < h.entries → q.run = none → q.queued = none →
      let started (t : State) : State :=
        let t : State := match lsCore i k s with
          | none => t
          | some x => { t with cores := t.cores.set x { t.cores[x] with lsWait := if t.cores[x].task.isSome then some i else t.cores[x].lsWait } }
        { t with bus := { resp := .ok, val := 0 } }
      let run (t : State) : State := modQueue i k (fun q => { q with run := some (beginRun i k h e.toNat t), entry := e.toNat, done := false }) t
      (lsLane i = none ∨ s.solvers[i].q[otherQ k].run = none → exec (.lsStart c i e) s = .next (started (run s))) ∧
      (∀ r, lsLane i ≠ none → s.solvers[i].q[otherQ k].run = some r →
        (k = 0 → r.start = s.cyc.tb + 1 → exec (.lsStart c i e) s = .next (started (run (modQueue i 1 (fun q => { q with run := none, queued := some r.entry }) s)))) ∧
        (¬(k = 0 ∧ r.start = s.cyc.tb + 1) → exec (.lsStart c i e) s = .next (started (modQueue i k (fun q => { q with queued := some e.toNat, done := false }) s))))) ∧
    (∀ (e : BitVec 4) (b : Nat), (b = 5 ∧ q.img = none ∨ ∃ h, q.img = some h ∧ (b = 4 ∧ h.entries ≤ e.toNat ∨ b = 2 ∧ e.toNat < h.entries ∧ (q.run ≠ none ∨ q.queued ≠ none))) →
      Gives (.lsStart c i e) s [.cores, .doms, .pairs, .memRegs, .voter, .solvers, .hsb, .sync, .fg, .mbx, .esc, .ps, .boot, .arb, .log, .bus] fun t => t.bus = { resp := .ok, val := 0 } ∧ (lsLane i ≠ none → t.solvers = (modQueue i k (err b) s).solvers)) ∧
    (∀ (r : LsRun) (h : NetHdr), q.run = some r → q.img = some h → s.cyc.tb.toNat < r.start.toNat → Gives (.lsAbort c i) s [.cores, .solvers, .bus] fun t =>
      t.solvers[i].q[k].run = none ∧ t.solvers[i].q[k].aborted = true ∧ t.solvers[i].bits = s.solvers[i].bits) ∧
    (q.run = none → q.queued = none → exec (.lsAbort c i) s = .next (at_ (err 3) .ok 0)) ∧
    (s.cores[c].arch.priv = false → exec (.lsLoad c i) s = .next (at_ (err 6) .ok 0) ∧ exec (.lsUnload c i) s = .next (at_ (err 6) .ok 0)) ∧
    (s.cores[c].arch.priv = true →
      let a := lsOff i q.imgAddr.toNat
      let areas := ((lsCore i k s).bind domOf).bind fun d => s.doms[d].image.map fun im => im.areas
      (q.img = none → lsLoadRefusal i k a (lsPimg i k s) areas s = none → Gives (.lsLoad c i) s [.memRegs, .memErrs, .solvers, .bus] fun t =>
        t.solvers = (modQueue i k (fun q => { q with img := some (readHdr (lsMem i) a s) }) s).solvers ∧ t.bus = { resp := .ok, val := 0 }) ∧
      (∀ why, q.img = none → lsLoadRefusal i k a (lsPimg i k s) areas s = some why → Gives (.lsLoad c i) s [.memRegs, .memErrs, .bus] fun t => t.bus = { resp := .ok, val := 0 }) ∧
      (q.img ≠ none → exec (.lsLoad c i) s = .next (at_ (err 7) .ok 0)) ∧
      (q.run = none → q.queued = none → exec (.lsUnload c i) s = .next (at_ (fun q => { q with img := none }) .ok 0)) ∧
      (q.run ≠ none ∨ q.queued ≠ none → exec (.lsUnload c i) s = .next (at_ (fun q => { q with unloadDue := true }) .ok 0))) ∧
    (∀ (off : BitVec 15) (v : Word) (h : NetHdr), q.img = some h → (∀ o ∈ lanesOf off.toNat 4, o < h.bits / 8) →
      let base := partBase i k h.bits
      (q.run ≠ none ∨ q.queued ≠ none → ∀ wr, exec (.lsWindowAccess c i wr off v) s = .next (at_ (err 0) .lsBusy 0)) ∧
      (q.run = none → q.queued = none →
        exec (.lsWindowAccess c i false off v) s =
          .next { s with bus := { resp := .ok, val := BitVec.ofNat 32 (leNat ((lanesOf off.toNat 4).map fun o => partByte base s.solvers[i].bits o)) } } ∧
        exec (.lsWindowAccess c i true off v) s = .next { modSolver i (fun u => { u with
          bits := ((lanesOf off.toNat 4).zip (leBytes 4 v.toNat)).foldl (fun f x => partSetByte base x.1 x.2 f) u.bits }) s with bus := { resp := .ok, val := 0 } }))) ∧
  (∀ (i : Fin 5) (k : Fin 2) (r : LsRun) (h : NetHdr) (s : State), lsBusy i s = some (k, r, h) →
    let total := runClocks (lsMem i) h (entryAt (lsMem i) h r.entry s) s
    (runBody i k h r (min total h.maxRun) s).1 = none →
    (total ≤ h.maxRun → Gives (.lsDone i) s [.cores, .doms, .pairs, .mem, .memRegs, .memErrs, .voter, .solvers, .hsb, .sync, .fg, .mbx, .esc, .ps, .boot, .arb, .log, .freeCtr] fun t => t.solvers[i].q[k].run = none ∧ t.solvers[i].q[k].done = true ∧ t.solvers[i].q[k].fault = false ∧
      t.solvers[i].q[k].last = BitVec.ofNat 32 total) ∧
    (h.maxRun < total → lsLane i ≠ none → Gives (.lsOvertime i) s [.cores, .doms, .pairs, .mem, .memRegs, .memErrs, .voter, .solvers, .hsb, .sync, .fg, .mbx, .esc, .ps, .boot, .arb, .log, .freeCtr] fun t => t.solvers[i].q[k].run = none ∧ t.solvers[i].q[k].done = false ∧
      t.solvers[i].q[k].fault = true ∧ t.solvers[i].q[k].fcode = 5)) ∧
  (∀ s, exec .pwrReqSolvOn s = .next { s with boot := { s.boot with on := Sys2Proof.Machine.setBit s.boot.on Pd.solv.idx true, refused := false } } ∧
    (s.solvers[(3 : Fin 5)].claim = none → s.solvers[(4 : Fin 5)].claim = none → exec .pwrReqSolvOff s = .next { s with
      boot := { s.boot with on := Sys2Proof.Machine.setBit s.boot.on Pd.solv.idx false, refused := false }, solvers := (s.solvers.set 3 .reset).set 4 .reset }) ∧
    (s.solvers[(3 : Fin 5)].claim ≠ none ∨ s.solvers[(4 : Fin 5)].claim ≠ none → exec .pwrReqSolvOff s = .next { s with boot := { s.boot with refused := true } }))

/-- Requests to the voter (R105, R109, R115 to R117, R529): a refusal leaves its reason and nothing else; an admitted one starts or ends an attempt, takes a lane out, or
attaches or detaches a debugger. -/
def Obligations.VoterRequestsAreRefusedOrTakeEffect : Prop :=
  ∀ (src : ReqSrc) (lane : Fin 4) (s : State), s.voter.reqBusy = false →
    let l : Fin 3 := Fin.ofNat 3 (lane.val - 1)
    let refused (code : Nat) : State := { s with voter := { s.voter with reqReason := BitVec.ofNat 8 code, reqRefused := true } }
    (lane = 0 → ∀ i ∈ [Instr.reint src lane, .maintOut src lane, .debugAttach src lane, .debugDetach src lane], exec i s = .next (refused 1)) ∧
    (lane ≠ 0 →
      (∀ e, reintRefusal l s = some e → exec (.reint src lane) s = .next (refused e.1)) ∧
      (∀ e, maintRefusal l s = some e → exec (.maintOut src lane) s = .next (refused e.1)) ∧
      (∀ e, attachRefusal l s = some e → exec (.debugAttach src lane) s = .next (refused e.1)) ∧
      (reintRefusal l s = none → Gives (.reint src lane) s [.voter] fun t => t.voter.reint.phase = 1 ∧ t.voter.reint.lane = lane ∧ t.voter.reint.auto = false ∧
        t.voter.reqReason = 0 ∧ t.voter.reqRefused = false ∧ t.voter.grp = s.voter.grp ∧ t.voter.lane = s.voter.lane) ∧
      (maintRefusal l s = none → Gives (.maintOut src lane) s [.cores, .doms, .voter, .hsb, .sync, .fg, .mbx, .ps, .boot, .arb, .log] fun t => t.voter.lane[l].xcause = 9 ∧ t.voter.lane[l].scopeCause = 9 ∧
        ∀ g : Fin 2, inSafe s = false ∨ s.voter.grp[g].members = 0 → t.voter.grp[g].members.getLsbD l.val = false) ∧
      (attachRefusal l s = none → Gives (.debugAttach src lane) s [.cores, .doms, .voter, .hsb, .sync, .fg, .mbx, .ps, .boot, .arb, .log] fun t => t.voter.lane[l].debug = true ∧ t.voter.lane[l].xcause = 8 ∧
        ∀ g ∈ loadedGroups s, t.voter.grp[g].laneDebug = true) ∧
      (s.voter.lane[l].debug = true → Gives (.debugDetach src lane) s [.cores, .voter] fun t => t.voter.lane[l].debug = false ∧
        ∀ k : Fin 2, t.cores[laneCore l k] = { s.cores[laneCore l k] with halted := false, stopped := true })) ∧
    (s.voter.reint.phase ≠ 0 → Gives (.abortReint src lane) s [.cores, .doms, .voter, .hsb, .sync, .fg, .mbx, .ps, .boot, .arb, .log] fun t => t.voter.reint.phase = 0 ∧ t.voter.reint.result = 0x07)

/-- The phases of a reintegration (R105 to R107): an automatic start, the lane's domain off and on again, PLL, self-test, the bulk copy that makes the lane's memory equal to
the running lanes', a clean region, and the failures that end the attempt.
What in it rests on log entries 69 and 74 is the model's choice. -/
def Obligations.ReintegrationPassesItsPhases : Prop :=
  ∀ s : State,
    let r := s.voter.reint
    let l := reintLane s
    let ends (i : Instr) (res : Byte) : Prop := Gives i s [.cores, .doms, .voter, .boot, .log] fun t => t.voter.reint.phase = 0 ∧ t.voter.reint.result = res
    let ready (k : Fin 3) : Bool := r.autoWant.getLsbD k.val && s.voter.lane[k].xcause != 8 && s.voter.lane[k].xcause != 9 && s.voter.lane[k].scopeCause != 8 &&
      s.voter.lane[k].scopeCause != 9
    (∀ k : Fin 3, (∀ g ∈ loadedGroups s, s.voter.grp[g].cfg.getLsbD 31 = true) → ready k = true → (∀ j, j < k → ready j = false) → reintRefusal k s = none →
      Gives .reintAutoStart s [.voter] fun t => t.voter.reint.phase = 1 ∧ t.voter.reint.lane.val = k.val + 1 ∧ t.voter.reint.auto = true) ∧
    (r.phase = 1 → r.off = false → r.back = false →
      (wouldStrand l s = true → ends .reintPowerDown 0x09) ∧
      (wouldStrand l s = false → Gives .reintPowerDown s [.cores, .doms, .mem, .memErrs, .voter, .solvers, .rmus, .boot, .arb, .log] fun t => t.voter.reint.off = true ∧ pdOn (lanePd l) t = false ∧ t.voter.lane[l].pll = false ∧
        (∀ g : Fin 2, inSafe s = false ∨ s.voter.grp[g].members = 0 → t.voter.grp[g].members.getLsbD l.val = false) ∧
        ∀ k o, o < 2 ^ 36 → readByte k o t = if k = laneMem l then 0 else readByte k o s)) ∧
    (r.phase = 1 → r.off = true → Gives .reintPowerOn s [.voter, .boot] fun t => t.voter.reint.off = false ∧ t.voter.reint.back = true ∧
      pdOn (lanePd l) t = true) ∧
    (r.phase = 1 → r.back = true → Gives (.reintPllLock true) s [.voter, .boot] (fun t => t.voter.reint.phase = 2 ∧ t.voter.lane[l].pll = true) ∧ ends (.reintPllLock false) 0x03) ∧
    (r.phase = 2 → Gives (.reintBistDone true) s [.voter] (fun t => t.voter.reint.phase = 3 ∧ t.voter.lane[l].bistOk = true ∧ t.voter.lane[l].scopeCause = 0) ∧
      ends (.reintBistDone false) 0x02) ∧
    (∀ region : Fin 3, r.phase = 3 → r.copied.getLsbD region.val = false → r.diff = [] → Inv s →
      (∀ j k : Fin 3, j ≠ l → k ≠ l → ∀ o, o < 2 ^ 36 → readByte (laneMem j) o s = readByte (laneMem k) o s) →
      Gives (.reintCopyDone region) s [.cores, .doms, .mem, .memErrs, .voter, .boot, .log] fun t => t.voter.reint.copied.getLsbD region.val = true ∧
        (∀ o, o < 2 ^ 36 → regionOf (o / 64) s = region → ∀ j : Fin 3, readByte (laneMem j) o t = readByte (laneMem (if j = l then otherLane l else j)) o s) ∧
        ∀ k o, o < 2 ^ 36 → k ≠ laneMem l → readByte k o t = readByte k o s) ∧
    (∀ g : Fin 2, r.phase = 4 ∨ r.phase = 5 → s.doms[groupDom g].image ≠ none → r.clean.getLsbD g.val = false →
      (r.diff = [] → (∀ n ∈ r.dirty, n < 2 ^ 30) → (∀ j k : Fin 3, j ≠ l → k ≠ l → ∀ o, o < 2 ^ 36 → readByte (laneMem j) o s = readByte (laneMem k) o s) →
        Gives (.reintRegionClean g) s [.cores, .doms, .mem, .memErrs, .voter, .boot, .log] fun t => t.voter.reint.clean.getLsbD g.val = true ∧ t.voter.reint.phase = r.phase ∧
          ∀ n ∈ t.voter.reint.dirty, n ∈ r.dirty ∧ regionOf n s ≠ 2 ∧ (regionOf n s).val ≠ g.val) ∧
      (64 ≤ r.since → ends (.copyNoconv g) 0x04))

/-- Pair debug (R113, R114): while a debugger is attached and the Echo log has room, every action is recorded with the main core's count and performed on it at once; a full
log refuses it.
What in it rests on log entry 32 is the model's choice. -/
def Obligations.EchoActionsAreRecordedAndPerformed : Prop :=
  ∀ (n : Fin 4) (s : State), s.pairs[n].echo = true →
    let c := pairCore n
    let noted (kind : Byte) (target : Nat) (v : BitVec 64) : State :=
      modPair n (fun p => { p with log := p.log ++ [{ kind := kind, target := BitVec.ofNat 8 target, count := s.cores[c].arch.retired.setWidth 32, value := v }] }) s
    let main (f : Arch → Arch) (t : State) : State := modCore c (fun k => { k with arch := f k.arch }) t
    (∀ (r : Reg) (p : Pred) (b : Bool) (a : Acc) (w : BitVec 64) (sr : Fin 64) (v addr : Word), 256 ≤ s.pairs[n].log.length → s.pairs[n].halt = true →
      ∀ i ∈ [Instr.echoResume n, .echoStep n, .echoGreg n r v, .echoPred n p b, .echoAcc n a w, .echoSpecial n sr v, .echoMemw n addr w, .echoBrkset n addr,
        .echoBrkclr n addr], exec i s = .next (modPair n (fun p => { p with refused := true }) s)) ∧
    (256 ≤ s.pairs[n].log.length → s.pairs[n].halt = false → exec (.echoHalt n) s = .next (modPair n (fun p => { p with refused := true }) s)) ∧
    (s.pairs[n].log.length < 256 →
      (s.pairs[n].halt = false → exec (.echoHalt n) s = .next (modCore c (fun k => { k with halted := true }) (modPair n (fun p => { p with halt := true }) (noted 1 0 0)))) ∧
      (s.pairs[n].halt = true →
        exec (.echoResume n) s = .next (modCore c (fun k => { k with halted := false, step := false }) (modPair n (fun p => { p with halt := false }) (noted 2 0 0))) ∧
        exec (.echoStep n) s = .next (modCore c (fun k => { k with step := true }) (noted 3 0 0))) ∧
      (∀ (r : Reg) (v : Word), exec (.echoGreg n r v) s = .next (main (setG r v) (noted 4 r.val (v.setWidth 64)))) ∧
      (∀ (p : Pred) (b : Bool), exec (.echoPred n p b) s =
        .next (main (fun a => if p = 0 then a else { a with p := Sys2Proof.Machine.setBit a.p p.val b }) (noted 5 p.val (if b then 1 else 0)))) ∧
      (∀ (a : Acc) (w : BitVec 64), exec (.echoAcc n a w) s = .next (main (fun x => { x with a := x.a.set a (Config.accGuard w ++ w) }) (noted 6 a.val w))) ∧
      (∀ (sr : Fin 64) (v : Word), exec (.echoSpecial n sr v) s = .next (main (fun a => match accSr sr.val with
        | some (r, k) => a.put (.accPart r k) (v.setWidth 72)
        | none => a.setSr sr.val v) (noted 7 sr.val (v.setWidth 64)))) ∧
      (∀ (addr : Word) (w : BitVec 64) (code off : Nat), locate (.sp n) (addr.toNat / 8 * 8) s = .sram code off → off < 2 ^ 36 - 8 → pathOk (.sp n) (.sram code off) true = true →
        pdOn (wherePd (.sram code off)) s = true → Inv s → Gives (.echoMemw n addr w) s [.cores, .doms, .pairs, .mem, .memRegs, .memErrs, .banks, .voter, .solvers, .bus, .freeCtr] fun t => t.pairs = (noted 8 0 ((addr &&& 0xFFFFFFF8).setWidth 64)).pairs ∧
          ∀ k o, o < 2 ^ 36 → readByte k o t = if k = code ∧ off ≤ o ∧ o < off + 8 then BitVec.ofNat 8 (w.toNat / 256 ^ (o - off)) else readByte k o s) ∧
      (∀ addr : Word,
        exec (.echoBrkset n addr) s = .next (modPair n (fun p => { p with brk := addr :: p.brk.filter (· ≠ addr) }) (noted 9 0 (addr.setWidth 64))) ∧
        exec (.echoBrkclr n addr) s = .next (modPair n (fun p => { p with brk := p.brk.filter (· ≠ addr) }) (noted 10 0 (addr.setWidth 64)))))

/-- Every debugger action on a pair completes (R113, R114): with a debugger attached and room in the Echo log, each of the ten actions leaves exactly one new entry, of its
KIND and at the main core's retired count; HALT needs a pair that runs, RESUME and STEP one that is halted.
What in it rests on log entries 32 and 69 is the model's choice. -/
def Obligations.EchoActionsCompleteWithOneEntry : Prop :=
  ∀ (n : Fin 4) (s : State), s.pairs[n].echo = true → s.pairs[n].log.length < 256 →
    let logs (i : Instr) (kind : Byte) : Prop := ∃ (t : State) (e : EchoEntry), exec i s = .next t ∧ t.pairs[n].log = s.pairs[n].log ++ [e] ∧ e.kind = kind ∧
      e.count = s.cores[pairCore n].arch.retired.setWidth 32 ∧ ∀ m : Fin 4, m ≠ n → t.pairs[m] = s.pairs[m]
    (s.pairs[n].halt = false → logs (.echoHalt n) 1) ∧
    (s.pairs[n].halt = true → logs (.echoResume n) 2 ∧ logs (.echoStep n) 3) ∧
    (∀ (r : Reg) (v : Word), logs (.echoGreg n r v) 4) ∧ (∀ (p : Pred) (b : Bool), logs (.echoPred n p b) 5) ∧
    (∀ (a : Acc) (w : BitVec 64), logs (.echoAcc n a w) 6) ∧ (∀ (sr : Fin 64) (v : Word), logs (.echoSpecial n sr v) 7) ∧
    (∀ (addr : Word) (w : BitVec 64), logs (.echoMemw n addr w) 8) ∧ ∀ addr : Word, logs (.echoBrkset n addr) 9 ∧ logs (.echoBrkclr n addr) 10

/-- The debug port and the fuse bank (R116, R456, R487 to R490, R495, R502 to R504): which instruction the port accepts, and what becomes of the others; how a blow begins
and how its words set bits.
What in it rests on log entries 32, 33 and 87 is the model's choice. -/
def Obligations.DebugPortAndFusesFollowTheirConditions : Prop :=
  ∀ s : State,
    let ir (code : Byte) (t : State) : State := { t with dbg := { t.dbg with ir := code } }
    let bypassed : State := { s with dbg := { ir := 0xFF, refused := true } }
    let begun (ws : List FuseWord) (t : State) : State := { t with fuses := { t.fuses with blow := ws, fail := false } }
    let failed (t : State) : State := { t with fuses := { t.fuses with fail := true } }
    exec .idcode s = .next (answer .ok 0x2487005F (ir 0x01 s)) ∧ exec .bypass s = .next (ir 0xFF s) ∧
    (∀ (n : Fin 4) (b : Bool) (lane : Fin 4) (f : FuseField) (ws : List Word),
      (dbgClosed s = true → ∀ i ∈ [Instr.samplePreload, .pairDbg n b, .laneDbg b lane], exec i s = .next bypassed) ∧
      (serviceOpen s = false → exec .resetReq s = .next bypassed) ∧ (serviceStill s = false → exec .extest s = .next bypassed ∧ exec (.fusePgm f ws) s = .next bypassed) ∧
      (serviceStill s = true → exec .extest s = .next (ir 0x00 s)) ∧
      (serviceOpen s = true → s.boot.orderly = none → Gives .resetReq s [.doms, .sync, .fg, .boot, .dbg] fun t => t.boot.orderly = some { cause := 0x0A, at_ := s.cyc.tb } ∧ t.dbg.ir = 0x12 ∧
        ∀ g : GroupId, t.fg[g].permitOn = false) ∧
      (dbgClosed s = false → exec .samplePreload s = .next (ir 0x02 s) ∧
        exec (.pairDbg n true) s = .next (modPair n (fun p => { p with echo := true }) (ir 0x10 s)) ∧
        Gives (.pairDbg n false) s [.cores, .pairs, .dbg] (fun t => t.dbg = { s.dbg with ir := 0x10 } ∧
          (s.pairs[n].echo = true → t.pairs[n] = { s.pairs[n] with echo := false, halt := false, log := [], brk := [] } ∧ t.cores[pairCore n].halted = false)) ∧
        (∀ l : Fin 3, lane.val = l.val + 1 → s.voter.reqBusy = false →
          (attachRefusal l s = none → Gives (.laneDbg true lane) s [.cores, .doms, .voter, .hsb, .sync, .fg, .mbx, .ps, .boot, .arb, .dbg, .log] fun t => t.voter.lane[l].debug = true ∧ t.dbg.ir = 0x11) ∧
          (s.voter.lane[l].debug = true → Gives (.laneDbg false lane) s [.cores, .voter, .dbg] fun t => t.voter.lane[l].debug = false ∧ t.dbg.ir = 0x11)))) ∧
    (serviceStill s = true → ∀ ws : List Word,
      exec (.fusePgm (.khash 0) ws) s = .next (ir 0x13 s) ∧
      (s.fuses.blow = [] → s.ps.cutoff = false →
        (∀ n : Fin 8, n ≠ 0 → fieldBlank s.fuses.khash[n] = true → exec (.fusePgm (.khash n) ws) s = .next (begun (fieldWords (BitVec.ofNat 8 (0x10 + n.val)) ws) (ir 0x13 s))) ∧
        (fieldBlank s.fuses.ckek = true → exec (.fusePgm .ckek ws) s = .next (begun (fieldWords 4 ws) (ir 0x13 s))) ∧
        exec (.fusePgm .dbgClose ws) s = .next (begun [{ field := 2, index := 0, val := 7 }] (ir 0x13 s))) ∧
      (s.fuses.blow ≠ [] ∨ fieldBlank s.fuses.ckek = false → exec (.fusePgm .ckek ws) s = .next (failed (ir 0x13 s)))) ∧
    (∀ (a : Access) (key : BitVec 16), a.master = .steward →
      (key ≠ 0xF05A → ∀ i ∈ [Instr.fuseBlowKrevoke a key, .fuseBlowDbgClose a key], exec i s = .next { answer .ok 0 s with fuses := { s.fuses with keyerr := true } }) ∧
      (key = 0xF05A → s.fuses.blow = [] → s.ps.cutoff = false →
        let taken (cmd : Word) (ws : List FuseWord) : State := { answer .ok 0 s with fuses := { s.fuses with cmd := cmd, blow := ws, fail := false } }
        exec (.fuseBlowKrevoke a key) s = .next (taken 0xF05A0100 [{ field := 1, index := 0, val := BitVec.ofNat 32 (s.fuses.data[(0 : Fin 8)].toNat % 256) }]) ∧
        exec (.fuseBlowDbgClose a key) s = .next (taken 0xF05A0200 [{ field := 2, index := 0, val := 7 }]))) ∧
    (∀ (w : FuseWord) (rest : List FuseWord) (ok : Bool), s.fuses.blow = w :: rest → s.ps.cutoff = false → Gives (.fuseWordDone ok) s [.cores, .pairs, .voter, .sync, .mbx, .arb, .fuses, .dbg, .freeCtr] fun t =>
      ∃ v : Word, (ok = true → v = w.val) ∧ v &&& w.val = v ∧ (ok = false → t.fuses.fail = true) ∧
        t.fuses.blow = (if ok then rest else rest.filter fun x => !(w.field == x.field || (w.field.toNat ≤ 2 && x.field.toNat ≤ 2))) ∧
        t.fuses.revoke = (if w.field = 1 then s.fuses.revoke ||| v.setWidth 8 else s.fuses.revoke) ∧
        t.fuses.dbgClose = (if w.field = 2 then s.fuses.dbgClose ||| v.setWidth 3 else s.fuses.dbgClose) ∧
        ∀ i : Fin 9, t.fuses.ckek[i] = if w.field = 4 ∧ i.val = w.index then s.fuses.ckek[i] ||| v else s.fuses.ckek[i])

/-- Lane debug (R116): an attached debugger halts, resumes and steps the lane's cores, reads and writes their registers, predicates, special registers and address and
the lane's SRAM, and nothing else.
What in it rests on log entry 34 is the model's choice. -/
def Obligations.LaneDebuggerReachesItsLaneOnly : Prop :=
  ∀ (l : Fin 3) (k : Fin 2) (s : State), s.voter.lane[l].debug = true → pdOn (lanePd l) s = true →
    let c := laneCore l k
    exec (.laneDebuggerAccess l (.halt k)) s = .next (modCore c (fun x => { x with halted := true, step := false }) s) ∧
    exec (.laneDebuggerAccess l (.resume k)) s = .next (modCore c (fun x => { x with halted := false, stopped := false, step := false }) s) ∧
    exec (.laneDebuggerAccess l (.step k)) s = .next (modCore c (fun x => { x with halted := true, stopped := false, step := true }) s) ∧
    (∀ (r : Reg) (v : Word),
      exec (.laneDebuggerAccess l (.readReg k r)) s = .next (answer .ok (if r = 0 then 0 else s.cores[c].arch.g[r]) s) ∧
      exec (.laneDebuggerAccess l (.writeReg k r v)) s = .next (modCore c (fun x => { x with arch := setG r v x.arch }) s)) ∧
    exec (.laneDebuggerAccess l (.readPreds k)) s = .next (answer .ok ((Sys2Proof.Machine.setBit s.cores[c].arch.p 0 true).setWidth 32) s) ∧
    (∀ (p : Pred) (b : Bool), exec (.laneDebuggerAccess l (.writePred k p b)) s =
      .next (modCore c (fun x => { x with arch := if p = 0 then x.arch else { x.arch with p := Sys2Proof.Machine.setBit x.arch.p p.val b } }) s)) ∧
    (∀ (sr : Fin 64) (v : Word),
      exec (.laneDebuggerAccess l (.readSr k sr)) s = .next (answer .ok (s.cores[c].arch.sr c sr.val s) s) ∧
      exec (.laneDebuggerAccess l (.writeSr k sr v)) s = .next (modCore c (fun x => { x with arch := match accSr sr.val with
        | some (r, n) => x.arch.put (.accPart r n) (v.setWidth 72)
        | none => x.arch.setSr sr.val v }) s)) ∧
    exec (.laneDebuggerAccess l (.readAddr k)) s = .next (answer .ok s.cores[c].arch.ia s) ∧
    (∀ a : Word, exec (.laneDebuggerAccess l (.writeAddr k a)) s =
      .next (modCore c (fun x => { x with arch := { x.arch with ia := a &&& 0xFFFFFFFC, delay := none, rpt := none } }) s)) ∧
    ∀ a : BitVec 24,
      (Clean (laneMem l) [a.toNat / 8] s →
        exec (.laneDebuggerAccess l (.readMem a)) s = .next (answer .ok (BitVec.ofNat 32 (readNat (laneMem l) (a.toNat / 4 * 4) 4 s)) s)) ∧
      ∀ v : BitVec 64, Inv s → Gives (.laneDebuggerAccess l (.writeMem a v)) s [.cores, .doms, .mem, .memErrs, .voter, .solvers, .freeCtr] fun t =>
        ∀ j o, o < 2 ^ 36 → readByte j o t =
          if j = laneMem l ∧ a.toNat / 8 * 8 ≤ o ∧ o < a.toNat / 8 * 8 + 8 then BitVec.ofNat 8 (v.toNat / 256 ^ (o - a.toNat / 8 * 8)) else readByte j o s

/-- The program's requests to the interlocking (R131, R134, R137, R139, R142, R151): between steps 5 and 7 they are served at once in every lane that runs the
group, otherwise they wait in their order; a refused one answers and changes nothing else, a granted one acts on its route or point.
What in it rests on log entries 59 and 69 is the model's choice. -/
def Obligations.InterlockingRequestsAreAnswered : Prop :=
  ∀ (g : Fin 2) (im : Image) (x : IxlDecl) (s : State), ixlOf s = some (g, im, x) →
    let asks (i : Instr) (q : IxlReq) : Prop :=
      (s.doms[groupDom g].run = false → exec i s = .next s) ∧
      (s.doms[groupDom g].run = true → inStep6 g s = false ∨ s.voter.grp[g].queue ≠ [] →
        exec i s = .next (modGroup g (fun v => { v with queue := v.queue ++ [q] }) s))
    let lanes (i : Instr) (f : Fin 3 → Ixl → Ixl) : Prop :=
      Gives i s [.ixl] fun t => ∀ l : Fin 3, ((runLanes g s).count l = 1 → t.ixl[l] = f l s.ixl[l]) ∧ (l ∉ runLanes g s → t.ixl[l] = s.ixl[l])
    let tells (a : IxlAnswer) (y : Ixl) : Ixl := { y with answer := a }
    (∀ (r : Fin 4096) (p : Fin 2048) (rev : Bool), asks (.setRoute r) (.set r.val) ∧ asks (.cancelRoute r) (.cancel r.val) ∧
      asks (.emergencyRelease r) (.emergency r.val) ∧ asks (.movePoint p rev) (.move p.val rev)) ∧
    (s.doms[groupDom g].run = true → inStep6 g s = true → s.voter.grp[g].queue = [] →
      (∀ r : Fin 4096,
        ((∀ l ∈ runLanes g s, s.ixl[l].holdDone = false) → lanes (.setRoute r) fun _ => tells .restartHold) ∧
        (∀ w, (∀ l ∈ runLanes g s, s.ixl[l].holdDone = true) → (rmuVote 1 r.val g (runLanes g s) s).1 = some w → Gives (.setRoute r) s [.cyc, .cores, .doms, .mem, .memRegs, .memErrs, .banks, .voter, .solvers, .rmus, .ixl, .hsb, .sync, .fg, .mbx, .cim, .esc, .ps, .boot, .arb, .log, .freeCtr] fun t =>
          ∀ l ∈ runLanes g s, t.ixl[l].answer = outcomeAnswer w ∧ t.ixl[l].routes = (if w / 2 ^ 28 = 1 then
            setAt s.ixl[l].routes r.val (fun y => { y with mode := .locked, disturbed := false, passed := [], wasOcc := [], cancel := false }) else s.ixl[l].routes)) ∧
        ((∀ l ∈ runLanes g s, ∀ y, s.ixl[l].routes[r.val]? = some y → y.mode ≠ .locked) → lanes (.cancelRoute r) fun _ z => match z.routes[r.val]? with
          | none => tells .badRoute z
          | some y =>
            if y.mode = .idle then tells .notLocked z
            else if y.mode = .set ∨ y.mode = .cleared then tells .granted { z with routes := setAt z.routes r.val fun y => { y with cancel := true } }
            else tells .routeBusy z) ∧
        ((∀ l ∈ runLanes g s, ∃ y, s.ixl[l].routes[r.val]? = some y ∧ y.mode = .locked) → Gives (.cancelRoute r) s [.cyc, .cores, .doms, .mem, .memRegs, .memErrs, .banks, .voter, .solvers, .rmus, .ixl, .hsb, .sync, .fg, .mbx, .cim, .esc, .ps, .boot, .arb, .log, .freeCtr] fun t =>
          ∀ l ∈ runLanes g s, ∀ y, s.ixl[l].routes[r.val]? = some y → t.ixl[l].answer = .granted ∧ RouteFreed l r.val y s t) ∧
        lanes (.emergencyRelease r) fun _ z => match z.routes[r.val]?, x.routes[r.val]? with
          | some y, some d =>
            if y.mode = .idle then tells .notLocked z
            else if y.mode = .emergency then tells .routeBusy z
            else tells .granted { z with
              signals := setAt z.signals d.signal fun u => { u with aspect := none }
              routes := setAt z.routes r.val fun u => { u with mode := .emergency, cancel := false, approach := none, overlap := none, emergency := some (timerCycles d.emergencyUs s) } }
          | _, _ => tells .badRoute z) ∧
      ∀ (p : Fin 2048) (rev : Bool), lanes (.movePoint p rev) fun _ z => match z.points[p.val]? with
        | none => tells .badRoute z
        | some q => if 0 < q.locks then tells .pointLocked z else tells .granted { z with points := setAt z.points p.val fun q => { q with want := some rev } }) ∧
    (s.doms[groupDom g].run = true → s.voter.grp[g].vp = none → Gives .matrixSliceCheck s [.cyc, .cores, .doms, .mem, .memRegs, .banks, .voter, .solvers, .ixl, .hsb, .sync, .fg, .mbx, .cim, .esc, .ps, .boot, .arb, .log, .freeCtr] fun t =>
      t.voter.grp[g].vp = none ∧ ∀ l : Fin 3, ((runLanes g s).count l = 1 → t.ixl[l] = { s.ixl[l] with slice := s.ixl[l].slice + 1 }) ∧
        (l ∉ runLanes g s → t.ixl[l] = s.ixl[l]))

/-- The interlocking's timers and the connections' (R134, R137, R140 to R142, R148, R151) when they have run out, in every lane that runs the group, and a lane core's
ARM and DISARM of its RMU (R130).
What in it rests on log entry 13 is the model's choice. -/
def Obligations.InterlockingTimersAndArming : Prop :=
  (∀ (g : Fin 2) (im : Image) (x : IxlDecl) (s : State), ixlOf s = some (g, im, x) →
    let every (i : Instr) (ps : List Part) (q : Fin 3 → Ixl → State → Prop) : Prop := Gives i s ps fun t => ∀ l ∈ runLanes g s, q l s.ixl[l] t
    (∀ (r : Fin 4096) (d : RouteDecl), x.routes[r.val]? = some d → s.voter.grp[g].vp = none →
      every (.approachReleaseExpiry r) [.cyc, .cores, .doms, .mem, .memRegs, .memErrs, .banks, .voter, .solvers, .rmus, .ixl, .hsb, .sync, .fg, .mbx, .cim, .esc, .ps, .boot, .arb, .log, .freeCtr] (fun l z t => ∀ y, z.routes[r.val]? = some y → y.mode = .approachLocked → y.approach = some 0 → RouteFreed l r.val y s t) ∧
      every (.emergencyReleaseExpiry r) [.cyc, .cores, .doms, .mem, .memRegs, .memErrs, .banks, .voter, .solvers, .rmus, .ixl, .hsb, .sync, .fg, .mbx, .cim, .esc, .ps, .boot, .arb, .log, .freeCtr] (fun l z t => ∀ y, z.routes[r.val]? = some y → y.mode = .emergency → y.emergency = some 0 → RouteFreed l r.val y s t) ∧
      every (.overlapReleaseExpiry r) [.cyc, .cores, .doms, .mem, .memRegs, .memErrs, .banks, .voter, .solvers, .rmus, .ixl, .hsb, .sync, .fg, .mbx, .cim, .esc, .ps, .boot, .arb, .log, .freeCtr] fun l z t => ∀ y, z.routes[r.val]? = some y → y.mode = .occupied → y.overlap = some 0 →
        let u : RouteSt := { y with overlap := none, overlapDone := true }
        (passedAll d u = true → RouteFreed l r.val y s t) ∧ (passedAll d u = false → t.ixl[l] = { z with routes := setAt z.routes r.val fun _ => u })) ∧
    (∀ p : Fin 2048, every (.pointMoveTimeout p) [.ixl] fun l z t => ∀ (q : PointSt) (rev : Bool), z.points[p.val]? = some q → q.moving = some (rev, 0) →
      t.ixl[l] = { z with points := setAt z.points p.val fun q => { q with moving := none, failed := true } }) ∧
    every .restartHoldExpiry [.ixl] fun l z t => z.hold = some 0 → t.ixl[l] = { z with hold := none, holdDone := true }) ∧
  (∀ (k : Fin 1024) (s : State),
    let due (l : Fin 3) (h : Fin 2) : Bool := (s.doms[groupDom h].image.bind fun im => im.conns[k.val]?).any fun d =>
      d.receives && s.conns[l][h][k.val]?.any fun c => c.mode == .opened && d.timeout < c.since
    Gives (.connectionTimeout k) s [.cores, .doms, .mem, .voter, .solvers, .conns, .log, .freeCtr] fun t =>
      t.log = s.log ++ (allGroups.filter fun h => (runLanes h s).head?.any fun l => due l h).map (fun h => { kind := .connTimeout, a := h.val, b := k.val, cyc := s.cyc.count }) ∧
      ∀ (l : Fin 3) (h : Fin 2), t.conns[l][h] = if l ∈ runLanes h s ∧ due l h then
        setAt s.conns[l][h] k.val (fun c => { c with mode := .failed, fresh := false, payload := none }) else s.conns[l][h]) ∧
  ∀ (l : Fin 3) (k : Fin 2) (s : State),
    let c := laneCore l k
    let set (u : Rmu) : State := { s with rmus := s.rmus.set l u, bus := { resp := .ok, val := 0 } }
    let bad : Rmu := { s.rmus[l] with err := Sys2Proof.Machine.setBit s.rmus[l].err 1 true }
    pdOn (lanePd l) s = true →
    (s.cores[c].arch.priv = false → exec (.rmuArm c) s = .next { s with bus := { resp := .priv, val := 0 } } ∧ exec (.rmuDisarm c) s = .next { s with bus := { resp := .priv, val := 0 } }) ∧
    (s.cores[c].arch.priv = true →
      exec (.rmuArm c) s = .next (set (if 1 ≤ s.rmus[l].routes.toNat ∧ s.rmus[l].routes.toNat ≤ 4096 then { s.rmus[l] with armed := true } else bad)) ∧
      exec (.rmuDisarm c) s = .next (set (if lockCount l s = 0 then { s.rmus[l] with armed := false } else bad)))

/-- How a command ends (R357, R363, R374 to R376): incomplete, at its TIMEOUT, with the outcome of a lower layer, aborted, or without a reply of the partner.
What in it rests on log entry 17 is the model's choice. -/
def Obligations.CommandsEndOnce : Prop :=
  ∀ (r : CmdRef) (s : State),
    (slotOf r s = none → ∀ o, exec (.commandComplete r o) s = .next { s with mbx := { s.mbx with cnt := s.mbx.cnt.set 5 (inc s.mbx.cnt[(5 : Fin 8)]) } }) ∧
    (∀ x, slotOf r s = some x →
      (x.received = false → elapsed 2000 x.recvAt s = true → Gives (.commandIncomplete r) s [.sync, .mbx] (Ended r x .incomplete 0 [])) ∧
      (x.received = true → x.timeout ≠ 0 → elapsed x.timeout x.recvAt s = true → Gives (.commandTimeout r) s [.doms, .solvers, .ring, .sync, .mbx, .update, .ps, .arch, .arb] (Ended r x .timeout 0 [])) ∧
      (x.started = true → ∀ (o : LowerOutcome), Gives (.commandComplete r o) s [.sync, .mbx] (match o with
        | .success d => Ended r x .ok 0 d | .link => Ended r x .link 0 [] | .medium => Ended r x .medium 0 []
        | .stationErr c => Ended r x .stationErr c.toNat [] | .cancelledDisable => Ended r x .cancelledDisable 0 [])) ∧
      (x.wait = .partner → x.tries = 3 → elapsed 40 x.recvAt s = true → Gives (.forwardResend r) s [.sync, .mbx] (Ended r x .link 0 [])) ∧
      (x.wait = .partner → x.tries < 3 → elapsed (10 * (x.tries + 1)) x.recvAt s = true → Gives (.forwardResend r) s [.mbx, .sync] fun t => slotOf r t = some { x with tries := x.tries + 1 } ∧
        t.mbx.out = s.mbx.out ∧ ∃ ms, t.sync.out = s.sync.out ++ ms ∧ ms.map (·.type) = (blocksOf 4096 (slotData x)).map fun _ => 0x0B)) ∧
    ∀ (y : AtOnce) (u : State), takeOnce r 4 s = some (y, u) → y.data.length = 4 → sliceNat 2 2 y.data = 0 →
      let target : CmdRef := { sess := r.sess, tag := BitVec.ofNat 16 (sliceNat 0 2 y.data) }
      let turned := exec (.abortCmd r) s = .next (sendReply r.sess y.car (bare r.tag 4 .notPending 0) true u)
      (slotOf target s = none → turned) ∧
      ∀ x, slotOf target s = some x →
        (Sys2Proof.Machine.passed x = true → turned) ∧ (Sys2Proof.Machine.passed x = false → Gives (.abortCmd r) s [.doms, .solvers, .ring, .sync, .mbx, .update, .ps, .arch, .arb] (Ended target x .aborted 0 []))

/-- Sessions (R358, R359, R366, R499): OPEN checks its key and derives the session's, KEEPALIVE answers, CLOSE and the timeouts close, with the commands received
running on unanswered.
What in it rests on log entries 6 and 15 is the model's choice. -/
def Obligations.SessionsOpenAndClose : Prop :=
  ∀ (r : CmdRef) (s : State),
    let shut (x : Session) : Session := { Session.reset with slots := x.slots.map fun y => { y with car := .foreign } }
    (∀ (y : AtOnce) (u : State), takeOnce r 1 s = some (y, u) →
      let idx := (y.data.getD 0 0).toNat
      let no (st : Status) (detail : Nat) : State := sendOpen y.car r.tag st detail [] u
      (16 ≤ idx → exec (.openSession r) s = .next (no .badParam 0)) ∧
      (idx < 16 → sliceNat 1 3 y.data = 0 → openKey idx s = none → exec (.openSession r) s = .next (no .denied 0)) ∧
      ∀ (k : List Byte) (rights : BitVec 5) (i : Fin 4), idx < 16 → sliceNat 1 3 y.data = 0 → openKey idx s = some (k, rights) → freeSess s = some (Fin.ofNat 5 i.val) →
        Gives (.openSession r) s [.sync, .mbx, .freeCtr] fun t =>
          let ns := leBytes 16 (Config.nonce s.freeCtr).toNat
          let nh := (y.data.drop 4).take 16
          let z := t.mbx.sess[i]
          z.st = .opening ∧ z.rights = rights ∧ z.key.val = idx ∧ z.ks = hmac k (nh ++ ns ++ [BitVec.ofNat 8 i.val]) ∧ z.openedAt = s.cyc.tb ∧ z.cache = [] ∧ z.hi = 0 ∧
          (∀ j, j ≠ i → t.mbx.sess[j] = s.mbx.sess[j]) ∧ t.mbx.out = (sendOpen y.car r.tag .ok 0 ([BitVec.ofNat 8 i.val, 0, 0, 0] ++ ns ++ (hmac k (ns ++ nh)).take 16) s).mbx.out) ∧
    (∀ (y : AtOnce) (u : State), takeOnce r 3 s = some (y, u) →
      exec (.keepalive r) s = .next (sendReply r.sess y.car (bare r.tag 3 (if y.data.isEmpty then .ok else .badParam) 0) true u)) ∧
    (∀ (y : AtOnce) (u : State), takeOnce r 2 s = some (y, u) → y.data = [] → Gives (.closeSession r) s [.sync, .mbx] fun t =>
      sessOf r t = shut (sessOf r s) ∧ t.mbx.out = (sendReply r.sess y.car (bare r.tag 2 .ok 0) true s).mbx.out) ∧
    (∀ n : Fin 4, s.mbx.sess[n].st = .opening → elapsed 5000 s.mbx.sess[n].openedAt s = true → Gives (.sessionOpenTimeout n) s [.mbx] fun t => t.mbx.sess = s.mbx.sess.set n (shut s.mbx.sess[n]) ∧ t.mbx.out = s.mbx.out) ∧
    (∀ n : Fin 4, s.mbx.sess[n].st = .opened → elapsed 60000 s.mbx.sess[n].lastAt s = true → Gives (.sessionIdleTimeout n) s [.mbx] fun t => t.mbx.sess = s.mbx.sess.set n (shut s.mbx.sess[n]) ∧ t.mbx.out = s.mbx.out) ∧
    (mailboxLost s = true → Gives .sessionStationLost s [.mbx] fun t => ∀ n : Fin 4, t.mbx.sess[n] =
      if s.mbx.sess[n].freight = true ∧ s.mbx.sess[n].st ≠ .closed then shut s.mbx.sess[n] else s.mbx.sess[n])

/-- What a transport takes in (R354 to R365): ARP and ICMP answers, fragments, foreign and unauthentic datagrams, and the command whose first block opens a slot.
What in it rests on log entry 15 is the model's choice. -/
def Obligations.DatagramsAreCheckedAndTaken : Prop :=
  ∀ s : State,
    let count (k : Fin 8) : State := { s with mbx := { s.mbx with cnt := s.mbx.cnt.set k (inc s.mbx.cnt[k]) } }
    let sends (x : Sent) : State := { s with mbx := { s.mbx with out := s.mbx.out ++ [x] } }
    let unauthentic : State := { count 0 with log := s.log ++ [{ kind := .authFail, a := 0, b := 0, cyc := s.cyc.count }] }
    (x6On s = true → ∀ (ip : Word) (p : List Byte), exec (.arpRequest ip) s = .next (if ip = s.mbx.ip then sends (.arp ip) else count 7) ∧
      exec (.icmpEcho ip p) s = .next (sends (.echo ip p))) ∧
    (∀ id, (∃ f ∈ s.mbx.frags, f.id = id ∧ elapsed 100 f.at_ s = true) → exec (.fragmentTimeout id) s = .next { s with mbx := { s.mbx with
      frags := s.mbx.frags.filter (fun f => f.id != id), cnt := s.mbx.cnt.set 7 (inc s.mbx.cnt[(7 : Fin 8)]) } }) ∧
    (x6On s = true → ∀ (ip : Word) (port : BitVec 16) (b : List Byte), 4144 < b.length → exec (.datagramReceive (.x6 ip port) b) s = .next (count 7)) ∧
    (pdOn .stew s = true → ∀ b, exec (.datagramReceive .foreign b) s = .next (count 7)) ∧
    (∀ (car : Carrier) (b : List Byte) (n : Fin 4), (∃ ip port, car = .x6 ip port) ∧ x6On s = true ∧ b.length ≤ 4144 ∨ car = .freight ∧ s.mbx.frt = true ∧ pdOn .stew s = true →
      sliceNat 3 1 b = n.val →
      let x := s.mbx.sess[n]
      (x.st = .closed ∨ b.length < 48 ∨ macOk x.ks b = false ∨ sseqOk x (sliceNat 4 4 b) = false → exec (.datagramReceive car b) s = .next unauthentic) ∧
      (x.st ≠ .closed → 48 ≤ b.length → macOk x.ks b = true → sseqOk x (sliceNat 4 4 b) = true →
        let d := parseDg b
        let r : CmdRef := { sess := Fin.ofNat 5 n.val, tag := d.tag }
        ∀ c, check3 b 16 = none → check4 d (blockSize car s) none = none → codeInfo d.code = some c → c.rights &&& x.rights = c.rights → d.code / 256 ≠ 0 →
          x.cache.find? (fun y => y.tag == d.tag) = none → slotOf r s = none → x.slots.length < 32 → d.flags % 2 = 0 →
          (d.blen < d.length ∨ d.timeout = 0) →
          Gives (.datagramReceive car b) s [.cores, .sync, .mbx, .log] fun t => t.mbx.sess[n].st = .opened ∧ t.mbx.sess[n].lastAt = s.cyc.tb ∧ t.mbx.out = s.mbx.out ∧
            slotOf r t = some { tag := d.tag, code := BitVec.ofNat 16 d.code, length := d.length, timeout := d.timeout, partner := false, got := [(d.offset, d.data)],
                                received := decide (d.length ≤ d.blen), recvAt := s.cyc.tb, started := false, wait := .none, tries := 0, donePages := 0, car := car })) ∧
    ∀ (m : SyncHdr) (b : List Byte) (r : CmdRef) (x : Slot), paired s = true → syncValid m 0x0B b s = true → pdOn .stew s = true → 32 ≤ b.length → 128 ≤ sliceNat 9 1 b →
      (waiting .partner s).find? (fun q => q.tag == (parseDg b).tag) = some r → slotOf r s = some x →
      (sliceNat 20 2 b % 2 = 0 → Gives (.mailbox m b) s [.hsb, .sync, .mbx, .ps, .freeCtr] fun t => slotOf r t = some { x with tries := 4 }) ∧
      (sliceNat 20 2 b % 2 = 1 → x.donePages = 0 → (parseDg b).length ≤ (parseDg b).data.length → Gives (.mailbox m b) s [.hsb, .sync, .mbx, .ps, .freeCtr] fun t => slotOf r t = none)

/-- Commands that read the module (R332, R368, R369, R421, R437): identity, status, supervision, registers, memories, the clock, configuration sets, the log and the
Archive, each with the reply that ends it.
What in it rests on log entries 5, 7, 10 and 48 is the model's choice. -/
def Obligations.CommandsReadTheModule : Prop :=
  ∀ (r : CmdRef) (x : Slot) (s : State),
    let d := slotData x
    let u : State := modSlot r (fun y => { y with started := true }) s
    (Waits r 0x0101 x s → d = [] → Gives (.ident r) s [.sync, .mbx] (Ended r x .ok 0 (identData s))) ∧
    (Waits r 0x0102 x s → d = [] → Gives (.statusCmd r) s [.sync, .mbx] (Ended r x .ok 0 (statusData s))) ∧
    (Waits r 0x0901 x s → d = [] → Gives (.supRead r) s [.sync, .mbx] (Ended r x .ok 0 (supData s))) ∧
    (Waits r 0x0103 x s → d.length = 8 → sliceNat 0 4 d % 4 = 0 → sliceNat 4 2 d = 1 → sliceNat 6 2 d = 0 →
      let v := stewRead (sliceNat 0 4 d) u
      (v.bus.resp = .noPath → Gives (.readReg r) s [.cyc, .memRegs, .rtm, .sync, .mbx, .rtc, .dbg, .bus] (Ended r x .noPath 0 [])) ∧
      (v.bus.resp ≠ .noPath → Gives (.readReg r) s [.cyc, .memRegs, .rtm, .sync, .mbx, .rtc, .dbg, .bus] (Ended r x .ok 0 (leBytes 4 v.bus.val.toNat)))) ∧
    (Waits r 0x0104 x s → d.length = 16 → sliceNat 0 1 d ≤ 6 → sliceNat 1 3 d = 0 → sliceNat 12 4 d ≤ 65536 →
      let code := sliceNat 0 1 d
      let off := sliceNat 4 8 d
      let n := sliceNat 12 4 d
      let key := (1 ≤ code ∧ code ≤ 3) ∧ ((off < 0x1000000 ∧ 0xFFC000 < off + n) ∨ (off < 0xF74000 ∧ 0xF70000 < off + n))
      (key ∨ memSize code < off + n → Gives (.readMem r) s [.cores, .doms, .memRegs, .memErrs, .banks, .voter, .hsb, .sync, .fg, .mbx, .ps, .boot, .arb, .log, .freeCtr] (Ended r x .noPath 0 [])) ∧
      (¬key → off + n ≤ memSize code → 0 < n → pdOn (wherePd (memPlace code off)) s = false → Gives (.readMem r) s [.cores, .doms, .memRegs, .memErrs, .banks, .voter, .hsb, .sync, .fg, .mbx, .ps, .boot, .arb, .log, .freeCtr] (Ended r x .ok 0 (List.replicate n 0))) ∧
      (¬key → off + n ≤ memSize code → 0 < n → pdOn (wherePd (memPlace code off)) s = true → (∃ b ∈ rangeBanks code off n, s.banks[b] ≠ .active) →
        Gives (.readMem r) s [.mbx, .memRegs, .banks] fun t => slotOf r t = some x) ∧
      (¬key → off + n ≤ memSize code → 0 < n → pdOn (wherePd (memPlace code off)) s = true → (∀ b ∈ rangeBanks code off n, s.banks[b] = .active) → s.memErrs = .reset →
        Gives (.readMem r) s [.cores, .doms, .memRegs, .memErrs, .banks, .voter, .hsb, .sync, .fg, .mbx, .ps, .boot, .arb, .log, .freeCtr] (Ended r x .ok 0 (readBytes code off n s)))) ∧
    (Waits r 0x0801 x s → d = [] → pdOn .aon s = true → Gives (.rtcRead r) s [.memRegs, .sync, .mbx, .rtc, .bus] fun t => ∃ v, Ended r x .ok 0 v t ∧
      v.take 8 = leBytes 4 (rtcTimeWord s.rtc).toNat ++ leBytes 4 s.rtc.date.toNat ∧ t.rtc.time = s.rtc.time ∧ t.rtc.date = s.rtc.date ∧ t.rtc.bin = s.rtc.bin) ∧
    (Waits r 0x0302 x s → d.length = 4 → sliceNat 0 1 d ≤ 1 → sliceNat 1 3 d = 0 → Gives (.cfgRead r) s [.sync, .mbx] (Ended r x .ok 0 (s.arch.sets.getD (sliceNat 0 1 d) []))) ∧
    (Waits r 0x0603 x s → d.length = 12 → Gives (.logRead r) s [.mbx] (GoesOn r x .archive)) ∧
    (Waits r 0x0604 x s → d.length = 13 → Gives (.archiveRead r) s [.mbx] (GoesOn r x .archive)) ∧
    (Waits r 0x0401 x s → segBad d = none → Gives (.imagePut r) s [.mbx] (GoesOn r x .archive)) ∧
    (∀ o, Waits r 0x0401 x s → segBad d = some o → Gives (.imagePut r) s [.sync, .mbx] (Ended r x .badParam o [])) ∧
    (slotOf r s = some x → x.wait = .archive →
      (x.tries < 2 → Gives (.archiveAccessDone r false) s [.mbx] fun t => slotOf r t = some { x with tries := x.tries + 1 }) ∧
      (2 ≤ x.tries → Gives (.archiveAccessDone r false) s [.sync, .mbx, .arch] (Ended r x .medium 0 [])) ∧
      (x.code.toNat = 0x0603 → Gives (.archiveAccessDone r true) s [.sync, .mbx, .arch]
        (Ended r x .ok 0 (eventsFrom ((enum s.log).filter fun e => sliceNat 0 8 d ≤ e.1) (sliceNat 8 4 d)))) ∧
      (x.code.toNat = 0x0401 → Gives (.archiveAccessDone r true) s [.sync, .mbx, .arch] fun t => Ended r x .ok 0 [] t ∧
        t.arch = { s.arch with images := putSegment d s.arch.images }))

/-- Commands that operate the module (R60, R368, R372, R457, R480): a request that finds its register busy has not started; a refused one ends with the reason, an
admitted one with its effect.
What in it rests on log entries 17 and 48 is the model's choice. -/
def Obligations.CommandsOperateTheModule : Prop :=
  ∀ (r : CmdRef) (x : Slot) (s : State),
    let d := slotData x
    let u : State := modSlot r (fun y => { y with started := true }) s
    let again (t : State) : Prop := slotOf r t = some x
    let refused (e : Nat × String) : State → Prop := Ended r x .refused e.1 (Config.textOf e.2)
    (Waits r 0x0201 x s → d.length = 4 → sliceNat 2 2 d = 0 →
      let dim := sliceNat 0 1 d
      let st := sliceNat 1 1 d
      (maBusy s = true → Gives (.modeReq r) s [.mbx] again) ∧
      (∀ e, maBusy s = false → modeRefusal dim st s = some e → Gives (.modeReq r) s [.cyc, .cores, .doms, .pairs, .mem, .voter, .solvers, .rmus, .ixl, .conns, .ring, .rtm, .hsb, .sync, .mbx, .cim, .esc, .rtc, .ps, .power, .arb, .log, .freeCtr] fun t => refused e t ∧ t.arb.reason = BitVec.ofNat 8 e.1 ∧ t.arb.refused = true) ∧
      (maBusy s = false → modeRefusal dim st s = none → sameState dim st s = true → Gives (.modeReq r) s [.cyc, .cores, .doms, .pairs, .mem, .voter, .solvers, .rmus, .ixl, .conns, .ring, .rtm, .hsb, .sync, .mbx, .cim, .esc, .rtc, .ps, .power, .arb, .log, .freeCtr] fun t => Ended r x .ok 0 [] t ∧ t.arb.refused = false) ∧
      (maBusy s = false → modeRefusal dim st s = none → sameState dim st s = false → dim = 0 → s.arb.oper = .run ∨ s.arb.oper = .hold →
        Gives (.modeReq r) s [.cyc, .cores, .doms, .pairs, .mem, .voter, .solvers, .rmus, .ixl, .conns, .ring, .rtm, .hsb, .sync, .mbx, .cim, .esc, .rtc, .ps, .power, .arb, .log, .freeCtr] fun t => GoesOn r x .mode t ∧ t.arb.pend = some { target := operOf st, cyc := deadlineCycle s, tick := s.cyc.tb + 1250, src := .steward, fault := false })) ∧
    (Waits r 0x0202 x s → d.length = 4 →
      let z := votReqOp (BitVec.ofNat 32 (leNat d)) u
      (s.voter.reqBusy = true → Gives (.voterReq r) s [.mbx] again) ∧
      (∀ e, s.voter.reqBusy = false → z.1 = some e → Gives (.voterReq r) s [.cores, .doms, .voter, .hsb, .sync, .fg, .mbx, .ps, .boot, .arb, .log] (refused e)) ∧
      (s.voter.reqBusy = false → z.1 = none → Gives (.voterReq r) s [.cores, .doms, .voter, .hsb, .sync, .fg, .mbx, .ps, .boot, .arb, .log] (Ended r x .ok 0 (leBytes 4 (votReqstat z.2).toNat)))) ∧
    (Waits r 0x0203 x s → d.length = 4 →
      let z := hsbReqOp (BitVec.ofNat 32 (leNat d)) u
      (s.hsb.reqBusy = true → Gives (.hsbReq r) s [.mbx] again) ∧
      (∀ e, s.hsb.reqBusy = false → z.1 = some e → Gives (.hsbReq r) s [.hsb, .sync, .mbx, .freeCtr] (refused e)) ∧
      (s.hsb.reqBusy = false → z.1 = none → z.2.hsb.reqBusy = true → Gives (.hsbReq r) s [.hsb, .sync, .mbx, .freeCtr] (GoesOn r x .hsb)) ∧
      (s.hsb.reqBusy = false → z.1 = none → z.2.hsb.reqBusy = false → Gives (.hsbReq r) s [.hsb, .sync, .mbx, .freeCtr] (Ended r x .ok 0 (leBytes 4 (hsbReqstat z.2).toNat)))) ∧
    (∀ w : DomId, Waits r 0x0204 x s → d.length = 4 → sliceNat 0 1 d = w.val → sliceNat 1 1 d ≤ 1 → sliceNat 2 2 d = 0 →
      (w.val ≥ 4 → (rightsOf r s).getLsbD 4 = false → Gives (.restartCmd r) s [.cores, .doms, .pairs, .mem, .voter, .solvers, .rmus, .ixl, .conns, .hsb, .sync, .mbx, .cim, .esc, .power, .arb, .log, .freeCtr] (Ended r x .denied 0 [])) ∧
      (w.val < 4 ∨ (rightsOf r s).getLsbD 4 = true →
        (maBusy s = true → Gives (.restartCmd r) s [.mbx] again) ∧
        (∀ e, maBusy s = false → runStateRefusal w true s = some e → Gives (.restartCmd r) s [.cores, .doms, .pairs, .mem, .voter, .solvers, .rmus, .ixl, .conns, .hsb, .sync, .mbx, .cim, .esc, .power, .arb, .log, .freeCtr] (refused e)) ∧
        (maBusy s = false → runStateRefusal w true s = none → w.val < 4 → Gives (.restartCmd r) s [.cores, .doms, .pairs, .mem, .voter, .solvers, .rmus, .ixl, .conns, .hsb, .sync, .mbx, .cim, .esc, .power, .arb, .log, .freeCtr] fun t => Ended r x .ok 0 [] t ∧ t.doms[w].run = true ∧
          t.doms[w].rstReason = BitVec.ofNat 8 (restartReason (Fin.ofNat 4 w.val) (sliceNat 1 1 d == 1) s)))) ∧
    (Waits r 0x0205 x s → d = [] → s.boot.orderly = none → Gives (.resetCmd r) s [.doms, .sync, .fg, .mbx, .boot] fun t => Ended r x .ok 0 [] t ∧
      t.boot.orderly = some { cause := 3, at_ := s.cyc.tb })

/-- Commands that configure the ring, the solvers and the supervision (R34, R368, R369, R377, R421, R464, R469): what is recorded, what ends with it, and what waits.
What in it rests on log entries 49 and 50 is the model's choice. -/
def Obligations.CommandsConfigureTheModule : Prop :=
  (∀ (r : CmdRef) (x : Slot) (s : State),
    let d := slotData x
    let refused (e : Nat × String) : State → Prop := Ended r x .refused e.1 (Config.textOf e.2)
    (Waits r 0x0301 x s → d ≠ [] →
      let c := Config.readCfgSet d
      (cfgLocked s = true → Gives (.cfgWrite r) s [.cyc, .doms, .ring, .rtm, .hsb, .sync, .fg, .fgErr, .mbx, .wdg, .esc, .ps, .arch, .boot, .arb] (Ended r x .cfgLocked 0 [])) ∧
      (cfgLocked s = false → layoutRefused c.layout s = true → Gives (.cfgWrite r) s [.cyc, .doms, .ring, .rtm, .hsb, .sync, .fg, .fgErr, .mbx, .wdg, .esc, .ps, .arch, .boot, .arb] (refused (0, "RING_LAYOUT_BAD"))) ∧
      (cfgLocked s = false → layoutRefused c.layout s = false → setBad c s = true → Gives (.cfgWrite r) s [.cyc, .doms, .ring, .rtm, .hsb, .sync, .fg, .fgErr, .mbx, .wdg, .esc, .ps, .arch, .boot, .arb] (Ended r x .badParam 0 [])) ∧
      (cfgLocked s = false → setBad c s = false → Gives (.cfgWrite r) s [.cyc, .doms, .ring, .rtm, .hsb, .sync, .fg, .fgErr, .mbx, .wdg, .esc, .ps, .arch, .boot, .arb] fun t => Ended r x .ok 0 [] t ∧
        t.cyc = { s.cyc with period := c.period, margin := c.margin, retlim := c.retlim, ovrlim := c.ovrlim } ∧ t.arch = { s.arch with sets := d :: s.arch.sets.take 1 } ∧
        t.hsb.cfg = c.hsbCfg &&& 0xFFFFFCFF ∧ t.ring.layout = some c.layout ∧ t.ring.cfg = c.ringCfg &&& 0xFFFF0007 ∧ t.mbx.ip = c.ip ∧ t.ps.bp = c.bp)) ∧
    (Waits r 0x0303 x s → d.length = 4 → s.boot.rec_.flags.getLsbD 2 = false ∨ leNat d % 4 = 0 →
      let w : Word := BitVec.ofNat 32 (leNat d)
      let off := decide (s.ring.dim ≠ .off) && wantedDim (w.getLsbD 0) (w.getLsbD 1) s.ring.cfg == .off
      (∀ e, off = true → ringOffRefusal s = some e → Gives (.ringEn r) s [.ring, .sync, .mbx, .ps, .boot, .arb, .freeCtr] fun t => refused e t ∧ t.arb.reason = BitVec.ofNat 8 e.1 ∧ t.ring = s.ring) ∧
      (off = false ∨ ringOffRefusal s = none → Gives (.ringEn r) s [.ring, .sync, .mbx, .ps, .boot, .arb, .freeCtr] fun t =>
        t.ring = { s.ring with en := w.setWidth 3, enPend := s.ring.enPend || w.setWidth 3 != s.ring.en, frtDisable := s.ring.frtOn && !w.getLsbD 2 } ∧ Ended r x .ok 0 (leBytes 4 (ringStat t).toNat) t)) ∧
    (∀ i : Fin 2, Waits r 0x0304 x s → d.length = 4 → sliceNat 0 1 d = i.val → sliceNat 1 3 d = 0 →
      let v := s.solvers[lssOf i.val]
      (v.claim = none ∨ v.disablePend ≠ none → Gives (.lsDisable r) s [.solvers, .sync, .mbx] (Ended r x .disabled 0 [])) ∧
      (v.claim ≠ none → v.disablePend = none → Gives (.lsDisable r) s [.solvers, .mbx] fun t => slotOf r t = some { x with started := true } ∧
        t.solvers = s.solvers.set (lssOf i.val) { v with disablePend := some r })) ∧
    (Waits r 0x0902 x s → d = [] →
      (s.arb.key ≠ .service → Gives (.serviceClear r) s [.sync, .mbx, .ps, .boot] (refused (0, "NOT_SERVICE"))) ∧
      (s.arb.key = .service → recordSeq 2 2 s < 2 ^ 32 - 1 → Gives (.serviceClear r) s [.sync, .mbx, .ps, .boot] fun t => GoesOn r x .pstore t ∧ t.boot.fc1 = 0 ∧ t.boot.fc2 = 0 ∧
        t.boot.rec_ = { s.boot.rec_ with fc := .replicate 15 0, flags := s.boot.rec_.flags &&& 0xD0 })) ∧
    (Waits r 0x0702 x s → d = [] → s.ring.frtOn = false ∨ s.ring.frtDisable = true → Gives (.survey r) s [.mem, .ring, .rtm, .sync, .mbx, .freeCtr] (Ended r x .disabled 0 [])) ∧
    (Waits r 0x0702 x s → d = [] → s.ring.frtOn = true → s.ring.frtDisable = false → coachesOf s = [] →
      Gives (.survey r) s [.mem, .ring, .rtm, .sync, .mbx, .freeCtr] (Ended r x .ok 0 (leBytes 4 (rtmSurv s).toNat))) ∧
    (Waits r 0x0702 x s → d = [] → s.ring.frtOn = true → s.ring.frtDisable = false → coachesOf s ≠ [] → s.rtm.survState = 1 →
      Gives (.survey r) s [.mem, .ring, .rtm, .sync, .mbx, .freeCtr] fun t => GoesOn r x .freight t ∧ ∀ c ∈ coachesOf s, ∃ f, (c.addr, f) ∈ t.rtm.todo)) ∧
  (∀ s : State, s.cyc.running = false ∨ tkDue s = true → (∀ i : Fin 5, s.solvers[i].disablePend ≠ none → s.solvers[i].claim ≠ none) → Gives .lsDisableTakeEffect s [.cores, .solvers, .sync, .mbx, .boot] fun t =>
    ∀ i : Fin 5, 3 ≤ i.val → ∀ r, s.solvers[i].disablePend = some r → t.solvers[i].claim = none ∧ t.solvers[i].disablePend = none ∧ slotOf r t = none) ∧
  ∀ (r : CmdRef) (x : Slot) (s : State), Waits r 0x0701 x s →
    let d := slotData x
    let op := sliceNat 0 1 d
    let depth := sliceNat 1 1 d
    let len := sliceNat 18 2 d
    let q : FrtReq := { src := 0, op := BitVec.ofNat 8 op, path := (List.range depth).map (pathEntry (sliceNat 2 12 d)), index := BitVec.ofNat 32 (sliceNat 14 4 d)
                        data := if op = 2 then d.drop 20 else List.replicate len 0 }
    (op = 1 ∧ d.length = 20 ∨ op = 2 ∧ d.length = 20 + len) → 1 ≤ depth → depth ≤ 8 → sliceNat 2 12 d < 2 ^ (12 * depth) →
      ((rightsOf r s).getLsbD (if op = 1 then 0 else 2) = false → Gives (.freight r) s [.mem, .ring, .sync, .mbx] (Ended r x .denied 0 [])) ∧
      ((rightsOf r s).getLsbD (if op = 1 then 0 else 2) = true → frtRefusal q s = none → Gives (.freight r) s [.mem, .ring, .sync, .mbx] fun t => slotOf r t = some { x with started := true } ∧
        ∃ i : FrtItem, t.ring = { s.ring with items := s.ring.items ++ [i] } ∧ i.req = q ∧ i.use = .host r ∧ i.attempt = 0 ∧
          (Inv s → ∀ k, k < q.data.length → readByte 4 (frtBuf false i.slot + k) t = q.data.getD k 0))

/-- The clock commands (R437): RTC_SET, RTC_SHIFT and RTC_DST act on the clock, or are refused by name and leave it as it was.
What in it rests on log entry 23 is the model's choice. -/
def Obligations.ClockCommandsAreCheckedFirst : Prop :=
  ∀ (r : CmdRef) (x : Slot) (s : State),
    let d := slotData x
    let refused (name : String) (t : State) : Prop := Ended r x .refused 0 (Config.textOf name) t ∧ t.rtc = s.rtc
    let time : Word := BitVec.ofNat 32 (sliceNat 0 4 d) &&& 0x003F7F7F
    let date : Word := BitVec.ofNat 32 (sliceNat 4 4 d) &&& 0xFFFF3F3F
    let v : BitVec 16 := BitVec.ofNat 16 (sliceNat 0 2 d)
    let w := sliceNat 0 1 d
    (Waits r 0x0802 x s → d.length = 8 →
      (calImpossible time date = true → Gives (.rtcSet r) s [.cores, .sync, .mbx, .rtc, .log] fun t => Ended r x .refused 0 (Config.textOf "BADDATE") t ∧
        t.rtc = { s.rtc with stime := time, sdate := date, err := Sys2Proof.Machine.setBit s.rtc.err 0 true }) ∧
      (calImpossible time date = false → Gives (.rtcSet r) s [.cores, .sync, .mbx, .rtc, .log] fun t => Ended r x .ok 0 [] t ∧ t.rtc.time = calTime (calOf time date) ∧
        t.rtc.date = calDate (calOf time date) ∧ t.rtc.bin = BitVec.ofNat 40 (calSeconds (calOf time date)) ∧ t.rtc.shift = none ∧ t.rtc.step = none ∧
        ((s.rtc.shift ≠ none ∨ s.rtc.step ≠ none) → ∃ e ∈ t.log, e.kind = .setOverride))) ∧
    (Waits r 0x0803 x s → d.length = 4 → v ≠ 0 → v ≠ 0x8000 → sliceNat 2 2 d = 0 →
      (s.rtc.shift ≠ none → Gives (.rtcShift r) s [.sync, .mbx, .rtc] (refused "SHIFT_PENDING")) ∧
      (s.rtc.shift = none → s.rtc.nvalid = false → Gives (.rtcShift r) s [.sync, .mbx, .rtc] (refused "CLOCK_INVALID")) ∧
      (s.rtc.shift = none → s.rtc.nvalid = true → Gives (.rtcShift r) s [.sync, .mbx, .rtc] fun t => Ended r x .ok 0 [] t ∧ t.rtc = { s.rtc with shift := some v })) ∧
    (Waits r 0x0804 x s → d.length = 4 → w = 1 ∨ w = 2 → sliceNat 1 3 d = 0 →
      (s.rtc.step ≠ none → Gives (.rtcDst r) s [.sync, .mbx, .rtc] (refused "DST_PENDING")) ∧
      (s.rtc.step = none → s.rtc.bvalid = true → s.rtc.dst = (w == 1) → Gives (.rtcDst r) s [.sync, .mbx, .rtc] (refused "DST_STATE")) ∧
      (s.rtc.bvalid = true → dstRefusal (w == 1) s = none → Gives (.rtcDst r) s [.sync, .mbx, .rtc] fun t => Ended r x .ok 0 [] t ∧ t.rtc = { s.rtc with step := some (w == 1) }))

/-- IMAGE_LOAD (R368, R380, R381, R500, R501, R528): an unknown image, a refusal of the tables, a plain load of a stopped domain, an online change of a running one.
What in it rests on log entries 5, 40, 41, 42 and 82 is the model's choice. -/
def Obligations.ImagesLoadOrBeginAChange : Prop :=
  ∀ (r : CmdRef) (x : Slot) (w : DomId) (s : State),
    let d := slotData x
    let u : State := modSlot r (fun y => { y with started := true }) s
    let id : Long := BitVec.ofNat 64 (sliceNat 0 8 d)
    let window := sliceNat 12 4 d
    let refused (e : String) : Prop := Gives (.imageLoad r) s [.cores, .doms, .mem, .memRegs, .memErrs, .voter, .solvers, .ixl, .sync, .fg, .fgErr, .mbx, .wdg, .cim, .arch, .boot, .arb, .log, .freeCtr] (Ended r x .refused 0 (Config.textOf e))
    Waits r 0x0402 x s → d.length = 16 → sliceNat 8 1 d = w.val → sliceNat 9 1 d = 0 → sliceNat 10 2 d = 0 → window ≤ 86400 →
      (fileOf id s.arch.images = none → refused "IMAGE_UNKNOWN") ∧
      ∀ b, fileOf id s.arch.images = some b →
        let raw := Config.readImage b
        let new := placeImage w (!s.doms[w].bankB) raw
        (isKeyImage b = true →
          (w.val < 4 → refused "KEY_IMAGE_BAD") ∧ ∀ e, 4 ≤ w.val → (keyLoad w b u).1 = some e → refused e) ∧
        (isKeyImage b = true → 4 ≤ w.val → (keyLoad w b u).1 = none → Gives (.imageLoad r) s [.cores, .doms, .mem, .memRegs, .memErrs, .voter, .solvers, .ixl, .sync, .fg, .fgErr, .mbx, .wdg, .cim, .arch, .boot, .arb, .log, .freeCtr] fun t => Ended r x .ok 0 [] t ∧
          ∃ k ∈ t.arch.keyImages, k.2 = b ∧ k.1.val + 4 = w.val) ∧
        (isKeyImage b = false →
          (∀ e, admission w s = some e → refused e) ∧
          (admission w s = none → s.doms[w].run = false →
            (∀ e, plainRefusal w raw s = some e → refused e) ∧
            (∀ e, plainRefusal w raw s = none → (plainLoad w raw u).1 = some e → refused e) ∧
            (plainRefusal w raw s = none → (plainLoad w raw u).1 = none → Gives (.imageLoad r) s [.cores, .doms, .mem, .memRegs, .memErrs, .voter, .solvers, .ixl, .sync, .fg, .fgErr, .mbx, .wdg, .cim, .arch, .boot, .arb, .log, .freeCtr] fun t => Ended r x .ok 0 [] t ∧
              t.doms[w].image = some new ∧ t.doms[w].bankB = !s.doms[w].bankB ∧ t.doms[w].change = .reset ∧ t.arch.progs[w] = some raw)) ∧
          ∀ old, admission w s = none → s.doms[w].run = true → s.doms[w].image = some old →
            let trial := (loadTrial w raw new (modDom w (fun y => { y with bankB := !y.bankB }) (solvReady w new u))).1
            (∀ e, changeRefusal w old new false s = some e → refused e) ∧
            (∀ e, changeRefusal w old new false s = none → trial = some e → refused e) ∧
            (changeRefusal w old new false s = none → trial = none → Gives (.imageLoad r) s [.cores, .doms, .mem, .memRegs, .memErrs, .voter, .solvers, .ixl, .sync, .fg, .fgErr, .mbx, .wdg, .cim, .arch, .boot, .arb, .log, .freeCtr] fun t => GoesOn r x .load t ∧
              t.doms[w].change = { Change.reset with dim := .pending, image := some raw, windowS := if window = 0 then 600 else window, cmd := some r } ∧
              t.doms[w].image = some old ∧ t.doms[w].run = true))

/-- Online change (R383 to R392): the bulk pass copies, the swap turns the domain to the new program at its boundary, confirm and revert end the change, and what does not
converge is given up.
What in it rests on log entries 40, 43, 44 and 45 is the model's choice. -/
def Obligations.OnlineChangesSwapConfirmAndRevert : Prop :=
  ∀ (d : DomId) (s : State),
    let c := s.doms[d].change
    let ends (t : State) : Prop := ∀ r, c.cmd = some r → slotOf r t = none
    (∀ old new, changeImages d s = some (old, new) → c.dim = .pending → c.recipe = false → c.bulkDone = false →
      Gives (.migrationBulkPass d) s [.cores, .doms, .mem, .voter, .solvers, .hsb, .sync, .mbx, .arb, .log, .freeCtr] fun t => t.doms[d].change.bulkDone = true ∧ t.doms[d].change.cycles = 0 ∧ t.doms[d].change.dim = .pending ∧
        (d.val < 4 → migCarried old new = false → new.areas.dataLen ≤ old.areas.dataLen → old.areas.dataBase + old.areas.dataLen ≤ 2 ^ 25 →
          new.areas.dataBase + new.areas.dataLen ≤ 2 ^ 25 →
          (old.areas.dataBase + old.areas.dataLen ≤ new.areas.dataBase ∨ new.areas.dataBase + new.areas.dataLen ≤ old.areas.dataBase) → Inv s →
          ∀ i, i < new.areas.dataLen → readByte 0 (new.areas.dataBase + i) t = readByte 0 (old.areas.dataBase + i) s)) ∧
    (∀ old new, changeImages d s = some (old, new) → c.dim = .pending → c.recipe = false → c.bulkDone = true → boundaryFree d s = true →
      changeFits d (swapClocks d old new s) s = true → Gives (.swap d) s [.cores, .doms, .mem, .memRegs, .memErrs, .voter, .solvers, .ixl, .conns, .hsb, .sync, .mbx, .cim, .boot, .arb, .log, .freeCtr] fun t => t.doms[d].image = some new ∧ t.doms[d].bankB = !s.doms[d].bankB ∧
        t.doms[d].change.dim = .swapped ∧ t.doms[d].change.confirmed = some old ∧ t.doms[d].run = true ∧ ends t) ∧
    (c.dim = .pending → c.bulkDone = true → 1024 ≤ c.cycles → Gives (.migNoconv d) s [.doms, .sync, .mbx, .arb] fun t => t.doms[d].change = .reset ∧ t.doms[d].image = s.doms[d].image ∧ ends t) ∧
    (∀ (r : CmdRef) (x : Slot), sliceNat 0 1 (slotData x) = d.val → (slotData x).length = 1 →
      let refused : State → Prop := Ended r x .refused 0 (Config.textOf "NOT_UNCONFIRMED")
      (Waits r 0x0403 x s →
        (c.dim ≠ .swapped ∨ c.wantConfirm = true ∨ c.wantRevert = true → Gives (.changeConfirm r) s [.doms, .hsb, .sync, .mbx, .arb, .log] refused) ∧
        (c.dim = .swapped → c.wantConfirm = false → c.wantRevert = false → Gives (.changeConfirm r) s [.doms, .mbx] fun t => GoesOn r x .confirm t ∧
          t.doms = s.doms.set d { s.doms[d] with change := { c with wantConfirm := true, cmd := some r } })) ∧
      (Waits r 0x0404 x s →
        (c.dim ≠ .swapped ∨ c.wantConfirm = true ∨ c.wantRevert = true → Gives (.changeRevert r) s [.doms, .hsb, .sync, .mbx, .arb, .log] refused) ∧
        (c.dim = .swapped → c.wantConfirm = false → c.wantRevert = false → Gives (.changeRevert r) s [.doms, .mbx] fun t => GoesOn r x .revert t ∧
          t.doms = s.doms.set d { s.doms[d] with change := { c with wantRevert := true, cycles := 0, cmd := some r } }))) ∧
    (∀ old new, c.confirmed = some old → s.doms[d].image = some new → c.dim = .swapped →
      (c.wantConfirm = true → c.recipe = false → atBoundary d s = true → Gives (.changeConfirmEffect d) s [.cores, .doms, .mem, .voter, .solvers, .hsb, .sync, .mbx, .arch, .arb, .log, .freeCtr] fun t => t.doms[d].change = .reset ∧ t.doms[d].image = some new ∧
        t.arch = { s.arch with progs := s.arch.progs.set d c.image } ∧ ends t ∧ ∀ m, s.doms[d].retain = some m →
          t.doms[d].retain = some { m with progId := new.id, layoutId := new.layoutId, sealed := false }) ∧
      (c.wantRevert = true → c.recipe = false → boundaryFree d s = true → changeFits d (migCost (revertEntries d old new s) + loadClocks d old s) s = true →
        Gives (.revert d) s [.cores, .doms, .mem, .memRegs, .memErrs, .voter, .solvers, .ixl, .conns, .hsb, .sync, .mbx, .cim, .boot, .arb, .log, .freeCtr] fun t => t.doms[d].change = .reset ∧ t.doms[d].image = some old ∧ t.doms[d].bankB = !s.doms[d].bankB ∧ ends t) ∧
      (c.wantConfirm = false → c.wantRevert = false → elapsed (1000 * c.windowS) c.swapAt s = true → Gives (.confirmWindowExpiry d) s [.doms, .sync] fun t =>
        t.doms = s.doms.set d { s.doms[d] with change := { c with wantRevert := true, cycles := 0 } } ∧ (d.val < 4 ∨ s.hsb.role ≠ .primary → t.sync = s.sync)) ∧
      (c.wantRevert = true → 1024 ≤ c.cycles → s.doms[d].run = true → Gives (.revertNoconv d) s [.cores, .doms, .voter, .solvers, .hsb, .sync, .mbx, .arb, .log] fun t => t.doms[d].run = false ∧
        t.doms[d].change.dim = .none ∧ t.doms[d].change.confirmed = some old))

/-- Firmware updates (R395 to R400): a stored stratum, the start and its refusals, each class step, and the confirmation.
What in it rests on log entries 35, 36 and 86 is the model's choice. -/
def Obligations.UpdatesFollowTheirOrder : Prop :=
  ∀ (r : CmdRef) (x : Slot) (s : State),
    let d := slotData x
    let id : Long := BitVec.ofNat 64 (sliceNat 0 8 d)
    (Waits r 0x0501 x s →
      (segBad d = none → Gives (.stratumPut r) s [.mbx] (GoesOn r x .archive)) ∧
      ∀ o, segBad d = some o → Gives (.stratumPut r) s [.sync, .mbx] (Ended r x .badParam o [])) ∧
    (Waits r 0x0502 x s → d.length = 8 →
      (∀ e, updateRefusal id s = some e → Gives (.updateStart r) s [.doms, .sync, .mbx, .update, .ps, .arch, .boot, .arb, .log] fun t => Ended r x .refused 0 (Config.textOf e) t ∧ t.update = s.update) ∧
      ∀ b m, updateRefusal id s = none → manifestOf id s = some (b, m) → Gives (.updateStart r) s [.doms, .sync, .mbx, .update, .ps, .arch, .boot, .arb, .log] fun t => t.update.before = s.update.running ∧
        t.update.running = s.update.running ∧
        (nextClass m 1 < 4 → t.update.step = nextClass m 1 ∧ t.update.target = some id ∧ t.update.cmd = some r ∧ slotOf r t = some { x with started := true }) ∧
        (nextClass m 1 = 4 → t.update.step = 4 ∧ t.update.target = some id ∧ Ended r x .ok 0 [] t) ∧
        (nextClass m 1 = 5 → t.update.target = none ∧ t.boot.rec_.setRun = id ∧ t.boot.rec_.setPrev = s.boot.rec_.setRun)) ∧
    (∀ i b m, s.update.target = some i → manifestOf i s = some (b, m) → s.update.step ≠ 0 →
      let k : Fin 4 := Fin.ofNat 4 (s.update.step - 1)
      (s.update.retried = false → exec (.updateClassStep false) s = .next { s with update := { s.update with retried := true } }) ∧
      (s.update.retried = true → Gives (.updateClassStep false) s [.cores, .doms, .sync, .fg, .mbx, .update, .ps, .arch, .boot, .arb, .log] fun t => t.update.target = none ∧ t.update.step = 0 ∧ t.update.running = s.update.running ∧
        ∀ q y, s.update.cmd = some q → slotOf q s = some y → Ended q y .medium 0 [] t) ∧
      (s.update.step < 4 → Gives (.updateClassStep true) s [.cores, .doms, .sync, .fg, .mbx, .update, .ps, .arch, .boot, .arb, .log] fun t =>
        t.update.running = s.update.running.set k ((classFw m k s.update.running[k] s).getD s.update.running[k]) ∧
        (s.update.stopAt = true → t.update.target = none) ∧
        (s.update.stopAt = false → nextClass m (s.update.step + 1) < 4 → t.update.step = nextClass m (s.update.step + 1) ∧ t.update.target = some i))) ∧
    (Waits r 0x0503 x s → d.length = 8 →
      (id ≠ s.boot.rec_.setRun ∨ s.update.target ≠ none → Gives (.updateConfirm r) s [.sync, .mbx, .ps, .arch, .boot, .fuses] (Ended r x .refused 0 (Config.textOf "SET_UNKNOWN"))) ∧
      (id = s.boot.rec_.setRun → s.update.target = none → manifestOf id s = none → Gives (.updateConfirm r) s [.sync, .mbx, .ps, .arch, .boot, .fuses] fun t => GoesOn r x .update t ∧
        t.boot.rec_ = { s.boot.rec_ with flags := Sys2Proof.Machine.setBit s.boot.rec_.flags 4 false } ∧ t.arch = (if setUnconf s then settingsFreeze s else s).arch))

/-- The parameter store (R439 to R449, R498): page reads and writes of a host and of PS_CMD, the commit of a write, its retry, and the refresh of a weak page.
What in it rests on log entries 24 and 64 is the model's choice. -/
def Obligations.PagesAreReadWrittenAndCommitted : Prop :=
  (∀ (r : CmdRef) (x : Slot) (s : State),
    let d := slotData x
    let first := sliceNat 0 2 d
    let n := sliceNat 2 2 d
    1 ≤ n → n ≤ 256 → first + n ≤ 4096 →
    (Waits r 0x0601 x s → d.length = 4 → Gives (.pstoreRead r) s [.sync, .mbx] (Ended r x .ok 0 ((List.range n).flatMap fun i => pageShown (first + i) s))) ∧
    (Waits r 0x0602 x s → d.length = 4 + 256 * n →
      (first < 128 → first + n ≤ 128 → Gives (.pstoreWrite r) s [.sync, .mbx, .ps] (Ended r x .noPath 0 [0, 0])) ∧
      (132 ≤ first → (∀ i, i < n → psProtected (first + i) s = false) → Gives (.pstoreWrite r) s [.sync, .mbx, .ps] fun t => GoesOn r x .pstore t ∧
        ∀ i, i < n → ∃ q, (q ∈ t.ps.qStew ∨ t.ps.cur = some q) ∧ q.use = .cmd r ∧ q.page.toNat = first + i ∧ q.off = 0 ∧ q.data = (d.drop (4 + 256 * i)).take 256) ∧
      (∀ i, 132 ≤ first → i < n → psProtected (first + i) s = true → (∀ j, j < i → psProtected (first + j) s = false) →
        Gives (.pstoreWrite r) s [.sync, .mbx, .ps] (Ended r x .protected_ (first + i) [0, 0])))) ∧
  (∀ (pg : BitVec 12) (off lenm1 : BitVec 8) (s : State), pdOn .stew s = true → s.ps.scan = false →
    let len := lenm1.toNat + 1
    let trunc (e : BitVec 7) : BitVec 7 := if 256 < off.toNat + len then Sys2Proof.Machine.setBit e 0 true else e
    let ps (p : PStore) : State := { s with ps := p, bus := { resp := .ok, val := 0 } }
    (psBusy s = true → ∀ i ∈ [Instr.psRead pg off lenm1, .psWrite pg off lenm1], exec i s = .next (ps { s.ps with err := Sys2Proof.Machine.setBit s.ps.err 3 true })) ∧
    (psBusy s = false →
      exec (.psRead pg off lenm1) s = .next (ps { s.ps with done := true, fail := false, err := trunc s.ps.err, buf := mergePage s.ps.buf 0 (((page pg.toNat s).drop off.toNat).take len) }) ∧
      (psForeign pg.toNat = false → psProtected pg.toNat s = true →
        exec (.psWrite pg off lenm1) s = .next (ps { s.ps with done := true, err := Sys2Proof.Machine.setBit s.ps.err 1 true })) ∧
      (psForeign pg.toNat = true → Gives (.psWrite pg off lenm1) s [.memRegs, .ps, .bus] fun t => t.ps = { s.ps with done := true, err := Sys2Proof.Machine.setBit s.ps.err 2 true } ∧
        t.bus = { resp := .noPath, val := 0 }) ∧
      (psForeign pg.toNat = false → psProtected pg.toNat s = false → Gives (.psWrite pg off lenm1) s [.ps, .bus] fun t => t.ps.done = false ∧ t.ps.err = trunc s.ps.err ∧
        let q : PsReq := { use := .reg, page := pg, off := off.toNat, data := s.ps.buf.take len, retried := false }
        t.ps.cur = some q ∨ q ∈ t.ps.qStew))) ∧
  (∀ (q : PsReq) (s : State), s.ps.cur = some q → s.ps.free ≠ 0 →
    Gives (.psWriteCommit .committed) s [.sync, .mbx, .esc, .ps, .fuses, .log] (fun t => (∀ n, page n t = if n = q.page.toNat then mergePage (page n s) q.off q.data else page n s) ∧
      t.ps.writes = inc s.ps.writes ∧ t.ps.seq = s.ps.seq + 1 ∧ (q.use = .reg → t.ps.done = true ∧ t.ps.fail = false)) ∧
    (q.retried = false → psLate s = false → s.ps.free ≠ 1 → Gives (.psWriteCommit .verifyFailed) s [.ps, .log] fun t => t.ps = { s.ps with
      cur := some { q with retried := true }, retry := inc s.ps.retry, retired := inc16 s.ps.retired, free := s.ps.free - 1 }) ∧
    (q.retried = true → q.use = .reg → Gives (.psWriteCommit .verifyFailed) s [.sync, .mbx, .esc, .ps, .fuses, .log] fun t => t.ps.err.getLsbD 5 = true ∧ t.ps.done = true ∧ t.ps.fail = true ∧
      t.ps.retired = inc16 s.ps.retired ∧ ∀ n, page n t = page n s) ∧
    exec (.psWriteCommit .cutBefore) s = .next { s with ps := { s.ps with cur := none, torn := true } }) ∧
  ∀ (pg : BitVec 12) (s : State), s.ps.cur = none → s.ps.qLease = [] → s.ps.qSup = [] → s.ps.qStew = [] → s.ps.scan = false → s.ps.cutoff = false → s.ps.free ≠ 0 →
    (∃ p ∈ s.ps.pages, p.1 = pg.toNat) →
    exec (.psRefresh pg) s = .next { s with ps := { s.ps with seq := s.ps.seq + 1, writes := inc s.ps.writes, refresh := inc s.ps.refresh } }

/-- Requests to the Mode Arbiter (R472 to R484): another sender than the Steward and a busy arbiter are ignored, the first reason that applies refuses, and an admitted
request takes effect at once or waits.
What in it rests on log entry 20 is the model's choice. -/
def Obligations.ModeRequestsAreRefusedOrAdmitted : Prop :=
  ∀ (s : State) (i : Instr) (src : ReqSrc) (dim st : Nat),
    (i = .reqOperRun src ∧ dim = 0 ∧ st = 1) ∨ (i = .reqOperStop src ∧ dim = 0 ∧ st = 0) ∨ (i = .reqOperHold src ∧ dim = 0 ∧ st = 2) ∨
      (i = .reqOperService src ∧ dim = 0 ∧ st = 4) ∨ (∃ d run, i = .reqRunState src d run ∧ dim = 0x10 + d.val ∧ st = bitOf run) ∨
      (∃ d v : BitVec 8, i = .reqNotRequestable src d v ∧ dim = d.toNat ∧ st = v.toNat) →
    (src ≠ .steward ∨ maBusy s = true → exec i s = .next s) ∧
    (src = .steward → maBusy s = false →
      let admitted : State := { s with arb := { s.arb with reason := 0, refused := false } }
      (∀ e, modeRefusal dim st s = some e → exec i s = .next { s with arb := { s.arb with reason := BitVec.ofNat 8 e.1, refused := true } }) ∧
      (modeRefusal dim st s = none →
        (sameState dim st s = true → exec i s = .next admitted) ∧
        (sameState dim st s = false → dim = 0 → s.arb.oper = .run ∨ s.arb.oper = .hold → exec i s = .next { s with arb := { s.arb with reason := 0, refused := false, pend := some { target := operOf st, cyc := deadlineCycle s, tick := s.cyc.tb + 1250, src := .steward, fault := false } } }) ∧
        (s.arb.oper = .stop → dim = 0 → st = 4 → Gives i s [.cyc, .cores, .doms, .pairs, .mem, .voter, .solvers, .rmus, .ixl, .conns, .ring, .rtm, .hsb, .sync, .mbx, .cim, .esc, .rtc, .ps, .power, .arb, .log, .freeCtr] fun t => t.arb.oper = .service ∧ t.arb.refused = false) ∧
        (s.arb.oper = .service → dim = 0 → st = 0 → Gives i s [.cyc, .cores, .doms, .pairs, .mem, .voter, .solvers, .rmus, .ixl, .conns, .ring, .rtm, .hsb, .sync, .mbx, .cim, .esc, .rtc, .ps, .power, .arb, .log, .freeCtr] fun t => t.arb.oper = .stop ∧ t.arb.refused = false) ∧
        (s.arb.oper = .stop → dim = 0 → st = 1 → Gives i s [.cyc, .cores, .doms, .pairs, .mem, .voter, .solvers, .rmus, .ixl, .conns, .ring, .rtm, .hsb, .sync, .mbx, .cim, .esc, .rtc, .ps, .power, .arb, .log, .freeCtr] fun t => t.arb.oper = .run ∧ t.cyc.running = true ∧ t.cyc.t0 = some (firstDeparture s) ∧
          (∀ n : Fin 4, s.doms[pairDom n].image ≠ none → s.doms[pairDom n].held = false → t.doms[pairDom n].run = true) ∧
          (paired s = true → t.hsb.orig = false ∧ t.sync.listening = true) ∧ (paired s = false → t.hsb.orig = true)) ∧
        (∀ d : DomId, dim = 0x10 + d.val → sameState dim st s = false → st = 0 →
          exec i s = .next { admitted with arb := { admitted.arb with domStop := Sys2Proof.Machine.setBit s.arb.domStop d.val true, domStopCyc := s.arb.domStopCyc.set d (stopCycle d s) } }) ∧
        ∀ n : Fin 4, dim = 0x10 + n.val → sameState dim st s = false → st = 1 → Gives i s [.cyc, .cores, .doms, .pairs, .mem, .voter, .solvers, .rmus, .ixl, .conns, .ring, .rtm, .hsb, .sync, .mbx, .cim, .esc, .rtc, .ps, .power, .arb, .log, .freeCtr] fun t => t.doms[pairDom n].run = true ∧
          t.doms[pairDom n].rstReason = BitVec.ofNat 8 (restartReason n false s)))

/-- How admitted requests take effect (R60, R62, R474 to R480): STOP and HOLD at D_j, the return from HOLD, a domain's STOP, freight after STOP, S1, and the restart of a pair.
What in it rests on log entry 26 is the model's choice. -/
def Obligations.ModesTakeEffect : Prop :=
  ∀ s : State,
    (∀ p, s.arb.pend = some p →
      (p.target = .stop → pastDeadline p.cyc s = true → Gives .stopEffect s [.cores, .doms, .voter, .solvers, .hsb, .sync, .fg, .mbx, .boot, .arb, .log] fun t => t.arb.oper = .stop ∧ t.arb.pend = none ∧ t.arb.domStop = 0 ∧
        (∀ d : DomId, t.doms[d].run = false) ∧ t.hsb.role = .alone ∧ t.sync.listening = false ∧ t.arb.lastTrain = true ∧ (∀ g : GroupId, t.fg[g].permitOn = false) ∧
        ∀ n : Fin 4, s.doms[pairDom n].run = true → t.doms[pairDom n].pstop = true) ∧
      (p.target = .hold → pastDeadline p.cyc s = true →
        (pairChange s = true → Gives .holdEffect s [.cores, .doms, .solvers, .sync, .mbx, .arb] fun t => t.arb.oper = s.arb.oper ∧ t.arb.pend = none ∧ t.arb.reason = 0x0B ∧ t.arb.refused = true ∧
          t.doms = s.doms) ∧
        (pairChange s = false → Gives .holdEffect s [.cores, .doms, .solvers, .sync, .mbx, .arb] fun t => t.arb.oper = .hold ∧ t.arb.pend = none ∧
          ∀ n : Fin 4, s.doms[pairDom n].run = true → t.doms[pairDom n].run = true ∧ t.doms[pairDom n].pstop = true ∧
            t.cores[pairCore n].task = none ∧ t.cores[pairCore n].hold = .none)) ∧
      (p.target = .run → p.tick.toNat ≤ s.cyc.tb.toNat → Gives .holdReturn s [.cores, .doms, .mem, .voter, .solvers, .sync, .mbx, .cim, .arb, .freeCtr] fun t => t.arb.oper = .run ∧ t.arb.pend = none ∧ t.doms.map (·.run) = s.doms.map (·.run))) ∧
    (∀ d : DomId, s.arb.domStop.getLsbD d.val = true → stopDueNow d s = true → s.arb.oper = .run → Gives (.domainStopEffect d) s [.cores, .doms, .voter, .solvers, .hsb, .sync, .mbx, .arb, .log] fun t =>
      t.doms[d].run = false ∧ t.arb.domStop = Sys2Proof.Machine.setBit s.arb.domStop d.val false ∧ t.arb.oper = .run ∧ ∀ e : DomId, e ≠ d → t.doms[e].run = s.doms[e].run) ∧
    (∀ t0, s.arb.frtLinkDue = some t0 → t0.toNat ≤ s.cyc.tb.toNat → Gives .freightStopLink s [.mem, .ring, .rtm, .sync, .mbx, .arb] fun t => t.arb.frtLinkDue = none ∧
      ∀ i ∈ s.ring.items, ∃ e ∈ t.ring.ends, e.slot = some i.slot ∧ e.req = i.req ∧ e.out = .link) ∧
    (Gives .keySwitchChange s [.cyc, .cores, .doms, .voter, .solvers, .hsb, .sync, .mbx, .rtc, .arb, .log] fun t => t.arb.key = .stop ∧ t.arb.transit = true ∧
      (s.arb.oper = .run → s.arb.pend = none → t.arb.oper = .run ∧
        t.arb.pend = some { target := .stop, cyc := deadlineCycle s, tick := s.cyc.tb, src := .steward, fault := true }) ∧
      (s.arb.oper = .service → t.arb.oper = .stop)) ∧
    (∀ pos, Gives (.keySwitchSettle pos) s [.cyc, .cores, .doms, .voter, .solvers, .hsb, .sync, .mbx, .rtc, .arb, .log] fun t => t.arb.key = pos ∧ t.arb.transit = false ∧
      (s.arb.oper = .run → pos ≠ .stop → t.arb.oper = .run ∧ t.arb.pend = s.arb.pend) ∧ (s.arb.oper = .service → pos ≠ .service → t.arb.oper = .stop)) ∧
    ∀ (n : Fin 4) (host : Bool), s.arb.oper = .run ∨ s.arb.oper = .hold ∨ s.arb.oper = .safe → s.doms[pairDom n].held = false → s.doms[pairDom n].image ≠ none →
      Gives (.domainRestart (pairDom n) host) s [.cores, .doms, .pairs, .mem, .voter, .solvers, .rmus, .ixl, .conns, .hsb, .sync, .mbx, .cim, .esc, .power, .arb, .log, .freeCtr] fun t => t.doms[pairDom n].run = true ∧ t.doms[pairDom n].first = true ∧
        t.doms[pairDom n].rstKind = (if restartReason n host s = 0 then 1 else 2) ∧ t.doms[pairDom n].rstReason = BitVec.ofNat 8 (restartReason n host s) ∧
        (∀ im, nextImage (pairDom n) s = some im → t.doms[pairDom n].image = some im)

/-- Watchdog units and check-ins (R403 to R415): what a tick edge finds, what an expiry stops, the writes of a unit's registers, and the end of a check-in window.
What in it rests on log entry 13 is the model's choice. -/
def Obligations.WatchdogsAndCheckinsSupervise : Prop :=
  ∀ s : State,
    (Gives .watchdogTickEdge s [.wdg] fun t => ∀ u : Fin 8,
      let w := s.wdg[u]
      let c := w.count + 1
      (wdgFrozenNow u s = true → t.wdg[u] = { w with frozen := true, svc := if w.en then [] else w.svc }) ∧
      (wdgFrozenNow u s = false → w.en = true → w.frozen = false →
        (w.period.toNat ≤ c.toNat → t.wdg[u] = { w with count := 0, due := w.due + 1, svc := [] }) ∧
        (c.toNat < w.period.toNat →
          (w.svc = [] → t.wdg[u] = { w with count := c }) ∧
          (w.svc = [false] → t.wdg[u] = { w with count := 0, due := w.due + 1, svc := [] }) ∧
          (w.svc = [true] → w.wind = false ∨ w.open_.toNat ≤ c.toNat → t.wdg[u] = { w with count := 0, svc := [] }) ∧
          (w.svc = [true] → w.wind = true → c.toNat < w.open_.toNat → t.wdg[u] = { w with count := 0, due := w.due + 1, svc := [] })))) ∧
    (∀ u : Fin 8, s.wdg[u].due ≠ 0 → Gives (.watchdogExpiry u) s [.cores, .doms, .pairs, .voter, .solvers, .ring, .hsb, .sync, .fg, .mbx, .update, .wdg, .esc, .ps, .boot, .arb, .log] fun t =>
      t.wdg[u] = { s.wdg[u] with due := s.wdg[u].due - 1, expired := true, exp := inc s.wdg[u].exp } ∧
      (u = 0 → ∀ n : Fin 4, t.mbx.sess[n].st = .closed) ∧
      (∀ n : Fin 4, u.val = n.val + 1 → t.doms[pairDom n].run = false ∧ t.cores[pairCore n].stopped = true ∧ t.pairs[n].fault = s.pairs[n].fault) ∧
      ∀ (l : Fin 3) (k : Fin 2), u.val = l.val + 5 → t.cores[laneCore l k].stopped = true) ∧
    (∀ (a : Access) (u : Fin 8),
      let w := s.wdg[u]
      let now (x : Wdg) : State := { s with wdg := s.wdg.set u x, bus := { resp := .ok, val := 0 } }
      (wdgAccess a u s = .priv → ∀ (v : BitVec 16) (p : Word), ∀ i ∈ [Instr.wdgSvc a u v, .wdgPer a u p, .wdgKey a u v, .wdgLock a u, .wdgEnable a u],
        exec i s = .next { s with bus := { resp := .priv, val := 0 } }) ∧
      (wdgAccess a u s = .ok →
        (∀ v : BitVec 16, exec (.wdgSvc a u v) s = .next (now (let ok := v == 0xC3A5 && (!w.priv || masterCore a.master == some (wdgDesignated u w))
          { w with svc := w.svc ++ [ok], badsvc := w.badsvc || !ok }))) ∧
        (∀ v : Word, w.lock = false → exec (.wdgPer a u v) s = .next (now (if wdgOpen w = false then { w with perlate := true }
          else if wdgValid w.wind (field v 0 22) w.staged.toNat then { w with period := v.setWidth 22, open_ := w.staged, count := 0 } else { w with badval := true }))) ∧
        (∀ v : Word, w.lock = true → exec (.wdgPer a u v) s = .next (now w) ∧ exec (.wdgEnable a u) s = .next (now w)) ∧
        (w.lock = false →
          (∀ m t0, w.key = some (m, t0) → a.master = m → since t0 s ≤ 12500 → exec (.wdgKey a u 0x92D4) s = .next (now { w with key := none, en := false })) ∧
          (w.key = none → exec (.wdgKey a u 0x6D2B) s = .next (now { w with key := some (a.master, s.cyc.tb) }) ∧
            ∀ v : BitVec 16, v ≠ 0x6D2B → exec (.wdgKey a u v) s = .next (now { w with keyerr := true })) ∧
          exec (.wdgEnable a u) s = .next (now { w with en := true })) ∧
        (w.lock = true → ∀ v, exec (.wdgKey a u v) s = .next (now { w with keyerr := true })) ∧
        exec (.wdgLock a u) s = .next (now { w with lock := true }))) ∧
    (∀ (c : CoreId) (d : DomId) (p : Fin 64), domOf c = some d →
      let x := s.cim[d]
      let y := x.pts[p]
      let l := cimLane c
      exec (.checkin c p) s = .next { s with cim := s.cim.set d (
        if y.win = 0 then { x with badpt := true, badLanes := Sys2Proof.Machine.setBit x.badLanes l.val true }
        else if y.started.getLsbD l.val then { x with pts := x.pts.set p { y with cnt := y.cnt.set l (inc8 y.cnt[l]) } } else x) }) ∧
    ∀ n : Fin 4, s.doms[pairDom n].run = true → s.arb.oper ≠ .hold → s.cim[pairDom n].closedAt ≠ some s.cyc.count → (∃ p : Fin 64, cimEnds s.cim[pairDom n].pts[p] s = true) →
      let x := s.cim[pairDom n]
      let bad := x.badLanes.getLsbD 0 || x.pts.toList.any fun p => cimEnds p s && p.started.getLsbD 0 && cimVerdict p 0 ≠ 0
      Gives (.checkinWindowEnd (pairDom n)) s [.cores, .doms, .pairs, .voter, .solvers, .hsb, .sync, .fg, .mbx, .cim, .esc, .ps, .boot, .arb, .log] fun t => t.cim[pairDom n].badLanes = 0 ∧
        (bad = true → t.cim[pairDom n].fails = inc x.fails ∧ t.cim[pairDom n].fail = true ∧ t.doms[pairDom n].run = false ∧ t.cores[pairCore n].stopped = true) ∧
        (bad = false → t.doms = s.doms ∧ t.cores = s.cores ∧ t.cim[pairDom n].fails = x.fails) ∧
        ∀ p : Fin 64, t.cim[pairDom n].pts[p] = if cimEnds x.pts[p] s then cimClose [0] x.pts[p] else x.pts[p]

/-- The field groups (R334 to R351): inputs and their debounce, scheduled entries, overloads, undervoltage, the permit, field-side power, and the configuration registers.
What in it rests on log entry 39 is the model's choice. -/
def Obligations.FieldGroupsFollowTheirEvents : Prop :=
  ∀ (g : GroupId) (s : State),
    let x := s.fg[g]
    let as_ (y : Fg) : State := { s with fg := s.fg.set g y }
    let pins (y : Fg) : State := as_ (setPins (ringTime s) y)
    (∀ (c : Fin 8) (lvl : Bool), fgRuns g s = true → cfgOut x.ch[c].eff = false → x.ch[c].raw = !lvl →
      let y := x.ch[c]
      exec (.fieldInputChange g c lvl) s = .next (as_ { x with ch := x.ch.set c (
        if cfgDeb y.eff = 0 then { y with raw := lvl, deb := lvl, run := none, ecnt := y.ecnt + 1, tsR := if lvl then ringTime s else y.tsR, tsF := if lvl then y.tsF else ringTime s }
        else { y with raw := lvl, run := if lvl = y.deb then none else some (lvl, ringTime s) }) })) ∧
    (∀ (c : Fin 8) (lvl : Bool) (ts : Long), fgRuns g s = true → x.ch[c].run = some (lvl, ts) → cfgDeb x.ch[c].eff * 1250 ≤ (ringTime s - ts).toNat →
      let y := x.ch[c]
      exec (.debounceAccept g c) s = .next (as_ { x with ch := x.ch.set c (
        { y with deb := lvl, run := none, ecnt := y.ecnt + 1, tsR := if lvl then ts else y.tsR, tsF := if lvl then y.tsF else ts }) })) ∧
    (∀ (e : Sched) (es : List Sched), x.sched = e :: es → e.at_.toNat ≤ s.cyc.tb.toNat → Gives (.scheduledEntry g) s [.fg] fun t => (∀ h : GroupId, h ≠ g → t.fg[h] = s.fg[h]) ∧ t.fg[g].sched = es ∧
      let y := x.ch[e.ch]
      (cfgOut y.eff = true → y.cmd = !e.level → (e.level = false ∨ cfgSafety y.eff = false ∨ x.pres = true) →
        (y.lastChg.all (fun t0 => 3125 ≤ (e.at_ - t0).toNat) = true → t.fg[g].ch[e.ch].cmd = e.level ∧ t.fg[g].ch[e.ch].lastChg = some e.at_ ∧ t.fg[g].schClose = x.schClose) ∧
        (y.lastChg.any (fun t0 => decide ((e.at_ - t0).toNat < 3125)) = true → t.fg[g].ch = x.ch ∧ t.fg[g].schClose = inc x.schClose)) ∧
      (cfgOut y.eff = true → y.cmd = false → e.level = true → cfgSafety y.eff = true → x.pres = false → t.fg[g].ch = x.ch)) ∧
    (∀ c : Fin 8, x.fpwr = true → cfgOut x.ch[c].eff = true → x.ch[c].ovl = false →
      exec (.outputOverload g c) s = .next (pins { x with ovlCnt := inc x.ovlCnt, ch := x.ch.set c { x.ch[c] with ovl := true } }) ∧
      (setPins (ringTime s) { x with ovlCnt := inc x.ovlCnt, ch := x.ch.set c { x.ch[c] with ovl := true } }).ch[c].pin = false) ∧
    ((∃ c : Fin 8, cfgOut x.ch[c].eff = true ∧ x.ch[c].pin = true) → Gives (.groupOverload g) s [.fg] fun t => t.fg[g].govl = true ∧ (∀ h : GroupId, h ≠ g → t.fg[h] = s.fg[h]) ∧
      ∀ c : Fin 8, cfgOut x.ch[c].eff = true → x.ch[c].pin = true → t.fg[g].ch[c].ovl = true ∧ t.fg[g].ch[c].pin = false) ∧
    (∀ (low : Bool) (v : BitVec 16), x.fpwr = true → exec (.lpUndervoltage g low v) s = .next (pins { x with lpuv := low, lpv := v })) ∧
    (permitWanted g s = false → exec (.permitToggle g) s = .next (as_ { x with permitOn := false })) ∧
    (permitWanted g s = true → x.toggleAt.all (fun t0 => 625000 ≤ since t0 s) = true →
      exec (.permitToggle g) s = .next (as_ { x with permitOn := true, permitLevel := !x.permitLevel, toggleAt := some s.cyc.tb })) ∧
    (fgRuns g s = true →
      let ok := x.edgeAt.any fun t0 => 562500 ≤ since t0 s && since t0 s ≤ 687500
      exec (.permitEdge g) s = .next (pins (if ok then { x with edgeAt := some s.cyc.tb, edges := min 4 (x.edges + 1), pres := x.pres || decide (3 ≤ x.edges) }
        else { x with edgeAt := some s.cyc.tb, pres := false, edges := 0 }))) ∧
    (x.edgeAt.all (fun t0 => 1500000 ≤ since t0 s) = true → Gives (.permitDrop g) s [.fg] fun t => t.fg[g].pres = false ∧ t.fg[g].edges = 0 ∧ t.fg[g].edgeAt = none ∧ (∀ h : GroupId, h ≠ g → t.fg[h] = s.fg[h]) ∧
      ∀ c : Fin 8, cfgSafety x.ch[c].eff = true → t.fg[g].ch[c].pin = false) ∧
    (Gives (.fieldPowerLoss g) s [.fg] fun t => t.fg[g].fpwr = false ∧ t.fg[g].pres = false ∧ t.fg[g].sched = [] ∧ t.fg[g].pcfg = x.pcfg ∧ (∀ h : GroupId, h ≠ g → t.fg[h] = s.fg[h]) ∧
      ∀ c : Fin 8, t.fg[g].ch[c].pin = false ∧ t.fg[g].ch[c].eff = 0 ∧ t.fg[g].ch[c].cfg = x.ch[c].cfg ∧ t.fg[g].ch[c].ecnt = x.ch[c].ecnt) ∧
    (pdOn .iox s = true → x.fpwr = false → exec (.fieldPowerReturn g) s = .next (as_ { x with fpwr := true })) ∧
    (∀ (a : Access) (c : Fin 8) (v : Word), pdOn .iox s = true →
      let ok (t : State) : State := { t with bus := { resp := .ok, val := 0 } }
      let err (b : Nat) : State := ok { s with fgErr := Sys2Proof.Machine.setBit s.fgErr b true }
      (a.master ≠ .outputGuard → cfgSafety x.ch[c].cfg = true ∨ cfgSafety v = true → exec (.fgChWrite a g c v) s = .next (err 2)) ∧
      (a.master = .outputGuard ∨ (cfgSafety x.ch[c].cfg = false ∧ cfgSafety v = false) →
        exec (.fgChWrite a g c v) s = .next (if cfgLocked s then err 1 else if chCfgBad x.pcfg v then err 0
          else ok (as_ { x with ch := x.ch.set c { x.ch[c] with cfg := v &&& 0xFC00FFFF } }))) ∧
      (a.master ≠ .outputGuard → exec (.fgPcfgWrite a g v) s = .next (err 2)) ∧
      (a.master = .outputGuard → exec (.fgPcfgWrite a g v) s = .next (if cfgLocked s then err 1 else ok (as_ { x with pcfg := v &&& 3 }))))

/-- Scrubbing, retention and waking banks (R320, R321, R325 to R327), and a store to a register block (R10, R34, R36, R309).
What in it rests on log entries 27 and 46 is the model's choice. -/
def Obligations.MemoriesAreScrubbedAndRegistersWritten : Prop :=
  ∀ s : State,
    let r := s.memRegs
    let line := scrubAt scrubMems r.scrub
    (∀ b, bankOf (.sram line.1 (64 * line.2)) = some b → scrubSkips line.1 s = false → s.banks[b] ≠ .active → exec .scrubLine s = .next (wakeBank b s)) ∧
    (s.memErrs = .reset → (∀ b, bankOf (.sram line.1 (64 * line.2)) = some b → s.banks[b] = .active) → exec .scrubLine s = .next { s with memRegs := if r.scrub + 1 < 1409024 then { r with scrub := r.scrub + 1 } else { r with scrub := 0, passes := inc16 r.passes } }) ∧
    (s.memErrs = .reset → pdOn .mem s = true → exec .extScrubLine s = .next { s with memRegs := { r with xscrub := (r.xscrub + 1) % 2 ^ 27, eras := if r.faildev = 0 then r.eras else inc r.eras } }) ∧
    (∀ b : Fin 32, pdOn .std s = true → r.reten.getLsbD b.val = true → s.banks[b.val] = .active → bankClaimed b s = false → bankInUse b s = false →
      bankWanted (Fin.ofNat 33 b.val) s = false → exec (.bankRetentionEntry b) s = .next { s with banks := s.banks.set b.val .retention }) ∧
    (pdOn .grotto s = true → s.banks[32] = .active → bankWanted 32 s = false → exec .grottoRetentionEntry s = .next { s with banks := s.banks.set 32 .retention }) ∧
    (∀ b : Fin 33, s.banks[b] = .waking → wakeTicks b ≤ since s.memRegs.wakeAt[b] s → bankWanted b s = false → exec (.bankWakeDone b) s = .next { s with banks := s.banks.set b .active }) ∧
    (∀ (atK : Bool) (v : Word), pdOn .vote s = true →
      let a : Access := { master := .steward, atK := atK }
      let ok (c : Cyc) : State := { s with cyc := c, bus := { resp := .ok, val := 0 } }
      let err (b : Nat) : State := ok { s.cyc with err := Sys2Proof.Machine.setBit s.cyc.err b true }
      exec (.registerWrite a 0x08000004 v) s = .next (if cfgLocked s then err 1 else if 250 ≤ (v &&& 0x07FFFFFF).toNat ∧ (v &&& 0x07FFFFFF).toNat ≤ 100000000 then
        ok { s.cyc with period := v &&& 0x07FFFFFF } else err 0) ∧
      exec (.registerWrite a 0x08000008 v) s = .next (if cfgLocked s then err 1 else if 10 ≤ (v &&& 0x3FFF).toNat ∧ (v &&& 0x3FFF).toNat ≤ 10000 then
        ok { s.cyc with margin := v &&& 0x3FFF } else err 0) ∧
      exec (.registerWrite a 0x0800000C v) s = .next (if cfgLocked s then err 1 else if 1 ≤ (v &&& 0x07FFFFFF).toNat ∧ (v &&& 0x07FFFFFF).toNat ≤ 99999999 then
        ok { s.cyc with retlim := v &&& 0x07FFFFFF } else err 0) ∧
      exec (.registerWrite a 0x08000010 v) s = .next (if cfgLocked s then err 1 else if ∀ n : Fin 4, v.extractLsb' (8 * n.val) 8 ≠ 0 then ok { s.cyc with ovrlim := v } else err 0)) ∧
    (∀ (n : Fin 4) (i : Fin 8) (v : Word),
      let c := pairCore n
      let a : Access := { master := .sp n, atK := true }
      let p := s.cores[c].prot
      let ok (q : Prot) : State := { s with cores := s.cores.set c { s.cores[c] with prot := q }, bus := { resp := .ok, val := 0 } }
      exec (.registerWrite a (BitVec.ofNat 32 (0x08008000 + 8 * i.val)) v) s = .next (ok { p with base := p.base.set i (v &&& 0xFFFFFFC0) }) ∧
      exec (.registerWrite a (BitVec.ofNat 32 (0x08008004 + 8 * i.val)) v) s = .next (ok { p with lim := p.lim.set i (v &&& 0xFFFFFFC0) }) ∧
      exec (.registerWrite a 0x08008040 v) s = .next (ok { p with attr := v }) ∧
      exec (.registerWrite a 0x08008044 v) s = .next (ok { p with pimg := v &&& 0xFFFFFFC0 }) ∧
      exec (.registerWrite a 0x08008048 v) s = .next (ok { p with xwin := v &&& 0xF }) ∧
      exec (.registerWrite { a with atK := false } 0x08008044 v) s = .next { s with bus := { resp := .priv, val := 0 } }) ∧
    ∀ (a : Access) (addr v : Word), 0x08014000 ≤ addr.toNat → addr.toNat < 0x09000000 → Gives (.registerWrite a addr v) s [.memRegs, .memErrs, .bus] fun t =>
      t.bus = { resp := .noPath, val := 0 } ∧ t.memRegs = { s.memRegs with af := t.memRegs.af }

/-- The supply (R448, R452 to R455, R510 to R521): feeds, the hold-up sequence, the cell, temperature, the transceiver and the clock monitors.
What in it rests on log entry 38 is the model's choice. -/
def Obligations.SupplyEventsAreJudged : Prop :=
  ∀ s : State,
    let p := s.power
    (∀ (f : Fin 2) (v : BitVec 16),
      (p.xtalBad = false → exec (.feedPresent f v) s = .next { s with power := { p with feed := p.feed.set f { present := true, volt := v }, backup := false }, boot := (setPd .vote true s).boot }) ∧
      (p.xtalBad = true → exec (.feedPresent f v) s = .next { s with power := { p with feed := p.feed.set f { present := true, volt := v }, backup := false, xtalBad := false }, boot := (setPd .vote true s).boot,
                                                                      rtc := { s.rtc with nvalid := false, bvalid := false } }) ∧
      (Gives (.feedLost f v) s [.power, .log] fun t => t.power.feed = p.feed.set f { present := false, volt := v } ∧
        (p.feed[f].present = true → p.feed[if f = 0 then (1 : Fin 2) else 0].present = true → t.power.evt = Sys2Proof.Machine.setBit p.evt f.val true ∧
          t.log = s.log ++ [{ kind := .feedLost, a := f.val, b := 0, cyc := s.cyc.count }]) ∧
        (p.feed[f].present = false → t.power.evt = p.evt ∧ t.log = s.log)) ∧
      (Gives (.feedOvervoltage f v) s [.power, .log] fun t => t.power.feed = p.feed.set f { present := false, volt := v } ∧ t.power.evt.getLsbD (2 + f.val) = true ∧
        ∃ e ∈ t.log, e.kind = .feedOv ∧ e.a = f.val)) ∧
    (anyFeed s = false → p.tpf = none → s.boot.up = true → Gives .bothFeedsLost s [.cores, .doms, .fg, .power] fun t => t.power.tpf = some s.cyc.tb ∧ t.power.hourSec = 0 ∧
      (∀ g : GroupId, t.fg[g].permitOn = false) ∧ ∀ g : Fin 2, ∀ b ∈ t.doms[groupDom g].published, b = 0) ∧
    (p.tpf ≠ none →
      (pfPast 10 s = true → Gives .pfPairAbandon s [.cores, .doms] fun t => ∀ n : Fin 4, s.doms[pairDom n].run = true →
        (pairBusy n s = true → t.cores[pairCore n].stopped = true) ∧
        (pairBusy n s = false → s.cores[pairCore n].stopped = false → s.doms[pairDom n].pstop = false → t.doms[pairDom n].published = s.doms[pairDom n].commit)) ∧
      (pfPast 12 s = true → exec .pfWriteCutoff s = .next { s with ps := { s.ps with cutoff := true }, fuses := { s.fuses with blow := s.fuses.blow.take 1 } }) ∧
      (pfPast 20 s = true → Gives .feedReset s [.cyc, .cores, .doms, .pairs, .mem, .memRegs, .memErrs, .banks, .voter, .solvers, .rmus, .ixl, .conns, .ring, .rtm, .hsb, .sync, .fg, .fgErr, .mbx, .update, .wdg, .cim, .esc, .rtc, .ps, .boot, .power, .arb, .fuses, .dbg] fun t => t.boot.cause = 2 ∧ t.banks[32] = .retention ∧ t.boot.on = resetOn s ∧ t.power.tpf = none ∧ t.power.xtalBad = s.boot.subst) ∧
      Gives .holdupShort s [.cyc, .cores, .doms, .pairs, .mem, .memRegs, .memErrs, .banks, .voter, .solvers, .rmus, .ixl, .conns, .ring, .rtm, .hsb, .sync, .fg, .fgErr, .mbx, .update, .wdg, .cim, .esc, .rtc, .ps, .boot, .power, .arb, .fuses, .dbg] fun t => t.boot.cause = 2 ∧ t.power.evt.getLsbD 5 = true ∧ t.banks[32] = .retention) ∧
    (anyFeed s = false → s.boot.up = false → pdOn .aon s = true →
      exec (.backupSwitchover true) s = .next { s with power := { p with backup := true }, boot := (setPd .vote false s).boot } ∧
      Gives (.backupSwitchover false) s [.mem, .memErrs, .rtc, .boot, .power] fun t => t.power.grLost = true ∧ t.rtc = .reset ∧ t.boot.on = 0 ∧ ∀ o, o < 2 ^ 36 → readByte 5 o t = 0) ∧
    (∀ (here : Bool) (mv : BitVec 16), Gives (.cellMeasure here mv) s [.power, .log] fun t => t.power.cellPresent = here ∧ t.power.cellMv = mv ∧
      (here = false ∨ mv.toNat < 2700 → t.power.evt = Sys2Proof.Machine.setBit p.evt 6 true) ∧ (here = true → 2700 ≤ mv.toNat → t.power.evt = p.evt ∧ t.log = s.log)) ∧
    (∀ v : BitVec 16, Gives (.tempSample v) s [.power, .log] fun t => t.power.tNow = v ∧
      (p.tSeen = true → t.power.tMax.toInt = max p.tMax.toInt v.toInt) ∧ (950 < v.toInt → t.power.evt.getLsbD 7 = true) ∧
      (v.toInt < (if s.fuses.order = 1 then -400 else -250) → t.power.evt.getLsbD 8 = true) ∧ (-250 ≤ v.toInt → v.toInt ≤ 950 → t.power.evt = p.evt ∧ t.log = s.log)) ∧
    (exec (.sfpChange .good) s = .next { s with power := { p with sfp := .good } } ∧
      ∀ x, x ≠ .good → Gives (.sfpChange x) s [.hsb, .sync, .power, .log] fun t => t.power.sfp = x ∧ t.sync.up = false) ∧
    (s.boot.up = true →
      let evt (b : Nat) (t : State) : Prop := t.boot.clkEvt.getLsbD b = true
      (s.boot.subst = true → s.boot.xtalGood = 63 → ∀ b c, exec (.rootMonitorWindow true b c) s = .next { s with boot := { s.boot with subst := false, xtalOk := true, xtalGood := 0, rootOk := true } }) ∧
      (s.boot.subst = true → s.boot.xtalGood < 63 → ∀ b c, exec (.rootMonitorWindow true b c) s = .next { s with boot := { s.boot with xtalGood := s.boot.xtalGood + 1, rootOk := true } }) ∧
      (Gives (.rootMonitorWindow false true false) s [.boot, .log] fun t => t.boot.subst = true ∧ t.boot.xtalOk = false ∧ evt 0 t) ∧
      (Gives (.rootMonitorWindow false false true) s [.cyc, .cores, .doms, .pairs, .mem, .memRegs, .memErrs, .banks, .voter, .solvers, .rmus, .ixl, .conns, .ring, .rtm, .hsb, .sync, .fg, .fgErr, .mbx, .update, .wdg, .cim, .esc, .rtc, .ps, .boot, .power, .arb, .fuses, .dbg, .log] fun t => t.boot.cause = 7) ∧
      (Gives (.rootMonitorWindow false false false) s [.cyc, .cores, .doms, .pairs, .mem, .memRegs, .memErrs, .banks, .voter, .solvers, .rmus, .ixl, .conns, .ring, .rtm, .hsb, .sync, .fg, .fgErr, .mbx, .update, .wdg, .cim, .esc, .rtc, .ps, .boot, .power, .arb, .fuses, .dbg, .log] fun t => t.boot.cause = 7 ∧ evt 1 t) ∧
      Gives .mainPllFail s [.cyc, .cores, .doms, .pairs, .mem, .memRegs, .memErrs, .banks, .voter, .solvers, .rmus, .ixl, .conns, .ring, .rtm, .hsb, .sync, .fg, .fgErr, .mbx, .update, .wdg, .cim, .esc, .rtc, .ps, .boot, .power, .arb, .fuses, .dbg, .log] fun t => t.boot.cause = 7) ∧
    ∀ l : Fin 3, pdOn (lanePd l) s = true → s.voter.reint.phase = 0 →
      let caused (c : Byte) (t : State) : Prop := qualifies l t = false ∧ t.voter.lane[l].xcause = if laneOut l s then s.voter.lane[l].xcause else c
      let out (t : State) : Prop := ∀ g : Fin 2, inSafe s = false ∨ s.voter.grp[g].members = 0 → t.voter.grp[g].members.getLsbD l.val = false
      (Gives (.lanePllFail l) s [.cores, .doms, .voter, .hsb, .sync, .fg, .mbx, .ps, .boot, .arb, .log] fun t => caused 5 t ∧ t.voter.lane[l].pll = false ∧ t.boot.clkEvt.getLsbD 2 = true ∧ out t) ∧
      Gives (.laneSupplyFault l) s [.cores, .doms, .voter, .hsb, .sync, .fg, .mbx, .ps, .boot, .arb, .log] fun t => caused 6 t ∧ out t

/-- Module resets (R58, R62, R327, R418, R427, R456 to R458): what survives one, what a reset clears, when an orderly and an escalation reset end, and the start's first steps.
What in it rests on log entries 1, 38 and 75 is the model's choice. -/
def Obligations.ResetsKeepWhatSurvives : Prop :=
  ∀ s : State,
    let reset (cause : Byte) (t : State) : Prop := t.boot.cause = cause ∧ t.boot.on = resetOn s ∧ t.boot.step = s.boot.bootStep ∧ t.boot.rstCount = inc s.boot.rstCount ∧
      t.pending = s.pending ∧ t.cores = State.reset.cores ∧ t.voter = .reset ∧ t.ring = .reset ∧ t.hsb = .reset ∧ t.fg = State.reset.fg ∧ t.wdg = State.reset.wdg ∧ t.cyc = .reset ∧
      t.arb.oper = .stop ∧ t.arb.key = s.arb.key ∧ t.ps.pages = s.ps.pages ∧ t.arch = s.arch ∧ t.update.running = s.update.running ∧
      (∀ d : DomId, t.doms[d].run = false ∧ t.doms[d].image = none)
    let keepsGrotto (t : State) : Prop := t.rtc = { s.rtc with err := 0, evt := 0 } ∧ (∀ d : DomId, t.doms[d].retain = s.doms[d].retain) ∧
      ∀ k o, k ≤ 7 → o < 2 ^ 36 → readByte k o t = if k = 5 then readByte k o s else 0
    (s.boot.up = true → Gives .railFault s [.cyc, .cores, .doms, .pairs, .mem, .memRegs, .memErrs, .banks, .voter, .solvers, .rmus, .ixl, .conns, .ring, .rtm, .hsb, .sync, .fg, .fgErr, .mbx, .update, .wdg, .cim, .esc, .rtc, .ps, .boot, .power, .arb, .fuses, .dbg] fun t => reset 8 t ∧ keepsGrotto t) ∧
    (pdOn .aon s = false → Gives .powerOnReset s [.cyc, .cores, .doms, .pairs, .mem, .memRegs, .memErrs, .banks, .voter, .solvers, .rmus, .ixl, .conns, .ring, .rtm, .hsb, .sync, .fg, .fgErr, .mbx, .update, .wdg, .cim, .esc, .rtc, .ps, .boot, .power, .arb, .fuses, .dbg] fun t => t.boot.cause = 1 ∧ t.boot.on = resetOn s ∧ t.rtc = .reset ∧ t.power.grLost = true ∧
      t.boot.rstCount = 0 ∧ t.boot.rec_ = .reset ∧ t.cores = State.reset.cores ∧ t.arb.oper = .stop ∧ ∀ k o, k ≤ 7 → o < 2 ^ 36 → readByte k o t = 0) ∧
    (∀ cause : Byte, s.boot.orderly = none →
      (orderlyCause cause.toNat s = true → pairsBusy s = true → Gives (.orderlyReset cause) s [.cyc, .cores, .doms, .pairs, .mem, .memRegs, .memErrs, .banks, .voter, .solvers, .rmus, .ixl, .conns, .ring, .rtm, .hsb, .sync, .fg, .fgErr, .mbx, .update, .wdg, .cim, .esc, .rtc, .ps, .boot, .power, .arb, .fuses, .dbg] fun t =>
        t.boot.orderly = some { cause := cause, at_ := s.cyc.tb } ∧ (∀ g : GroupId, t.fg[g].permitOn = false) ∧ t.power = s.power) ∧
      (orderlyCause cause.toNat s = true → pairsBusy s = false → s.ps.cur = none → Gives (.orderlyReset cause) s [.cyc, .cores, .doms, .pairs, .mem, .memRegs, .memErrs, .banks, .voter, .solvers, .rmus, .ixl, .conns, .ring, .rtm, .hsb, .sync, .fg, .fgErr, .mbx, .update, .wdg, .cim, .esc, .rtc, .ps, .boot, .power, .arb, .fuses, .dbg] (reset cause)) ∧
      (cause = 3 ∨ cause = 5 ∨ cause = 9 → Gives (.rstReq 0x5A3C cause) s [.doms, .sync, .fg, .boot] fun t => t.boot.orderly = some { cause := cause, at_ := s.cyc.tb } ∧
        ∀ g : GroupId, t.fg[g].permitOn = false) ∧
      ∀ v, v ≠ 0x5A3C → exec (.rstReq v cause) s = .next s) ∧
    (∀ r, s.esc.rung2 = some r → pairsBusy s = false → 2 ≤ r.copies ∨ 50000000 ≤ since r.at_ s → Gives .escalationReset s [.cyc, .cores, .doms, .pairs, .mem, .memRegs, .memErrs, .banks, .voter, .solvers, .rmus, .ixl, .conns, .ring, .rtm, .hsb, .sync, .fg, .fgErr, .mbx, .update, .wdg, .cim, .esc, .rtc, .ps, .boot, .power, .arb, .fuses, .dbg] (reset 4)) ∧
    (∀ r, s.esc.rung2 = some r → since r.at_ s < 12500000 → pairsBusy s = true → Gives .escalationReset s [.cyc, .cores, .doms, .pairs, .mem, .memRegs, .memErrs, .banks, .voter, .solvers, .rmus, .ixl, .conns, .ring, .rtm, .hsb, .sync, .fg, .fgErr, .mbx, .update, .wdg, .cim, .esc, .rtc, .ps, .boot, .power, .arb, .fuses, .dbg] fun t => t.boot = s.boot ∧ t.esc = s.esc) ∧
    (started s = false →
      (∀ v : BitVec 4, Gives (.bootStepWrite v) s [.boot] fun t => t.boot.bootStep = v ∧ t.boot.tmrAt = s.cyc.tb ∧ (v = 6 → t.boot.tmr = 400) ∧ (v = 13 → t.boot.tmr = 5000)) ∧
      (s.boot.tmr ≠ 0 → bootTmr s = 0 → Gives .bootTimerExpiry s [.cyc, .cores, .doms, .pairs, .mem, .memRegs, .memErrs, .banks, .voter, .solvers, .rmus, .ixl, .conns, .ring, .rtm, .hsb, .sync, .fg, .fgErr, .mbx, .update, .wdg, .cim, .esc, .rtc, .ps, .boot, .power, .arb, .fuses, .dbg] (reset 6))) ∧
    (started s = true → exec .bootTimerExpiry s = .next s ∧ ∀ v, exec (.bootStepWrite v) s = .next s) ∧
    ∀ f : BootFindings, s.boot.up = false → s.boot.halted = false → anyFeed s = true →
      (s.boot.fc1 = 3 → Gives (.moduleStart f) s [.cyc, .cores, .doms, .pairs, .mem, .memRegs, .memErrs, .banks, .voter, .solvers, .rmus, .ixl, .conns, .ring, .rtm, .hsb, .sync, .fg, .fgErr, .mbx, .update, .wdg, .cim, .esc, .rtc, .ps, .boot, .power, .arb, .fuses, .dbg, .log, .freeCtr] fun t => t.boot.halted = true ∧ t.boot.on = 0x803 ∧ t.power.cap = f.capPercent) ∧
      (s.boot.fc1 ≠ 3 → f.pllRoot = false → Gives (.moduleStart f) s [.cyc, .cores, .doms, .pairs, .mem, .memRegs, .memErrs, .banks, .voter, .solvers, .rmus, .ixl, .conns, .ring, .rtm, .hsb, .sync, .fg, .fgErr, .mbx, .update, .wdg, .cim, .esc, .rtc, .ps, .boot, .power, .arb, .fuses, .dbg, .log, .freeCtr] fun t => t.boot.cause = 6 ∧ t.boot.step = 1) ∧
      (s.boot.fc1 ≠ 3 → f.pllRoot = true → s.boot.fc2 ≠ 3 → f.psScan = false → Gives (.moduleStart f) s [.cyc, .cores, .doms, .pairs, .mem, .memRegs, .memErrs, .banks, .voter, .solvers, .rmus, .ixl, .conns, .ring, .rtm, .hsb, .sync, .fg, .fgErr, .mbx, .update, .wdg, .cim, .esc, .rtc, .ps, .boot, .power, .arb, .fuses, .dbg, .log, .freeCtr] fun t => t.boot.cause = 6 ∧ t.boot.step = 2) ∧
      (s.boot.fc1 ≠ 3 → f.pllRoot = true → s.boot.fc2 = 3 → s.arb.oper = .stop → Gives (.moduleStart f) s [.cyc, .cores, .doms, .pairs, .mem, .memRegs, .memErrs, .banks, .voter, .solvers, .rmus, .ixl, .conns, .ring, .rtm, .hsb, .sync, .fg, .fgErr, .mbx, .update, .wdg, .cim, .esc, .rtc, .ps, .boot, .power, .arb, .fuses, .dbg, .log, .freeCtr] fun t => t.boot.bootStep = 15 ∧ t.boot.svcOnly = true ∧
        t.arb.oper = .safe ∧ t.voter.safeCause = (if s.esc.hold then 6 else 7) ∧ pdOn .stew t = true ∧ pdOn .vote t = true)

/-- The start of a new module (R460 to R470): with nothing written in its stores and every step's finding good, a start leaves STOP at BOOT_STEP 15 with every power domain on but
PD_SOLV, and the boot record's first start counted in both copies.
What in it rests on log entries 1, 25 and 37 is the model's choice. -/
def Obligations.AFirstStartReachesStop : Prop :=
  ∀ (f : BootFindings) (s : State), f.pllRoot = true → f.psScan = true → f.dram = true → f.archive = true → f.setVerified = true → f.firmware = true → f.phys = true →
    f.lanes = 7 → f.lanePll = 7 → f.groups = 63 → f.pairs = 15 → f.cfgSet = true →
    s.arch = State.reset.arch → s.ps = .reset → s.boot = { Boot.reset with on := 0x803, rcOk := s.boot.rcOk } → anyFeed s = true → s.esc = .reset → s.arb = { Arb.reset with key := s.arb.key } →
    s.doms = State.reset.doms → s.voter = .reset →
    Gives (.moduleStart f) s [.cyc, .cores, .doms, .pairs, .mem, .memRegs, .memErrs, .banks, .voter, .solvers, .rmus, .ixl, .conns, .ring, .rtm, .hsb, .sync, .fg, .fgErr, .mbx, .update, .wdg, .cim, .esc, .rtc, .ps, .boot, .power, .arb, .fuses, .dbg, .log, .freeCtr] fun t => t.boot.bootStep = 15 ∧ t.boot.on = 0xF7F ∧ t.arb.oper = .stop ∧ t.boot.svcOnly = false ∧
      t.boot.rec_.starts = 1 ∧ t.boot.rec_.failed = 0xFF ∧ t.cores[stewCore] = .reset true false ∧ (∀ g : GroupId, t.fg[g].fpwr = true) ∧
      (∀ l : Fin 3, pdOn (lanePd l) t = true ∧ t.voter.lane[l].pll = true ∧ t.voter.lane[l].bistOk = true) ∧
      (∀ d : DomId, t.doms[d].image = none ∧ t.doms[d].run = false) ∧ readRecord 1 0 t = .valid 2 (bootPayload t.boot.rec_)

/-- One step (log entry 4): the command at the front of the queue runs on the state with the queue's rest. On an empty queue the block idles for one tick, after
which the time base has advanced by one, or by none or two where the rate of R30 has gathered a correction; that is the model's choice. -/
def Obligations.StepRunsTheFrontCommand : Prop :=
  ∀ s : State,
    (∀ (c : Instr) (rest : List Instr), step { s with pending := c :: rest } = exec c { s with pending := rest }) ∧
    (s.pending = [] → ∃ t, step s = .next t ∧ Only [.cyc, .rtc] s t ∧ t.cyc = { s.cyc with tb := t.cyc.tb, rateAcc := t.cyc.rateAcc } ∧
      let a := s.cyc.rateAcc + s.rtm.rate.toInt
      (a.natAbs < 100000000 → t.cyc.tb = s.cyc.tb + 1 ∧ t.cyc.rateAcc = a) ∧
      (100000000 ≤ a → t.cyc.tb = s.cyc.tb + 2 ∧ t.cyc.rateAcc = a - 100000000) ∧
      (a ≤ -100000000 → t.cyc.tb = s.cyc.tb ∧ t.cyc.rateAcc = a + 100000000))

/-- What a reset leaves, where the spec gives a value other than 0 (R36, R118, R180, R206, R233, R236, R378, R401, R422, R423, R427, R451, R458, R504): each register as it
reads, by its offset. That memory lists nothing and no command waits is the model's choice (log entries 2 and 4). -/
def Obligations.ResetHoldsTheSpecsValues : Prop :=
  let s := State.reset
  let reads (f : Nat → State → Word) (vs : List (Nat × Word)) : Prop := ∀ off, f off s = (vs.lookup off).getD 0
  Inv s ∧ s.pending = [] ∧ s.mem = [] ∧
  reads cycReg [(0x04, 0x2710), (0x08, 0x32), (0x0C, 0x1388), (0x10, 0x08080808)] ∧
  reads votReg [(0x00, 0x0004E210), (0x04, 0x0004E210)] ∧ reads pairReg [] ∧
  reads ringReg [(0x00, 0x88B50000), (0x80, 0x01000000), (0x84, 0x00000300)] ∧
  reads hsbReg [(0x00, 0x88B6FC03)] ∧ reads mbxReg [(0x00, 0x88360001)] ∧ reads maReg [] ∧ reads psReg [(0x08, 8)] ∧
  wdgReg 0x104 s = 0x33 ∧
  (∀ (u : Fin 8) (off : Nat), wdgUnitReg off s.wdg[u] = if off = 0 ∧ u = 0 then 1 else if off = 4 then (if u = 0 then 0x10000 else 0x21) else 0) ∧
  (∀ (d : DomId) (p : Fin 64), s.cim[d].pts[p].verdict = 0x3F ∧ s.cim[d].pts[p].win = 0) ∧
  (∀ c : CoreId, let a := s.cores[c].arch
    a.mode = 4 ∧ a.trappc = 0 ∧ a.trapinst = 0 ∧ a.trapcause = 0 ∧ a.trapsave = 0 ∧ a.tvec = 0 ∧ a.iena = 0 ∧ a.ipend = 0 ∧ a.kscr = 0) ∧
  s.rtc.date = 0x20000101 ∧ s.rtc.time = 0 ∧ s.rtc.lost = true ∧
  pwrReg 0x08 s = 0x40 ∧ pwrReg 0x10 s = 1 ∧ pwrReg 0x360 s = 0xFF ∧
  (∀ g : GroupId, s.fg[g].pcfg = 0 ∧ ∀ i : Fin 8, s.fg[g].ch[i].cfg = 0 ∧ s.fg[g].ch[i].cmd = false)

/-- Nerop instruction words (R240, R242, R243): every well-formed instruction but a reserved encoding has a word, from which it is decoded with every operand, and a
word that decodes to an instruction is that instruction's only word. -/
def Obligations.InstructionsAndTheirWordsCorrespond : Prop :=
  (∀ (i : Instr) (w : Nat), i.wf = true → (∀ c v, i ≠ .reservedEncoding c v) → encodeNerop i = some w →
    w < 2 ^ 32 ∧ ∃ (c : CoreId) (m : Option Meet), decodeNerop c m w = some i) ∧
  (∀ (c : CoreId) (m : Option Meet) (w : Nat) (i : Instr), w < 2 ^ 32 → decodeNerop c m w = some i →
    i.wf = true ∧ encodeNerop i = some w ∧ ∀ d v, i ≠ .reservedEncoding d v)

/-- Every step keeps memory in its one canonical form, whatever the state and the command.
What in it rests on log entry 2 is the model's choice. -/
def Obligations.EveryStepKeepsMemoryCanonical : Prop :=
  ∀ s t : State, Inv s → step s = .next t → Inv t

/-- The module leaves SAFE only through a module reset (R104): with no mode request under way, which entry to SAFE brings about (R103, R474), every step from SAFE ends in SAFE
with none under way, or in a module reset, which leaves all cores and the cycle timer in their reset state. -/
def Obligations.SafeIsLeftOnlyThroughAModuleReset : Prop :=
  (∀ s t : State, inSafe s = true → s.arb.pend = none → step s = .next t →
    inSafe t = true ∧ t.arb.pend = none ∨ t.cores = State.reset.cores ∧ t.cyc = State.reset.cyc) ∧
  ∀ s t : State, inSafe s = false → step s = .next t → inSafe t = true → t.arb.pend = none
end

