-- ==== Sys2Proof/Laws/Memory.lean ====
section
/-! SUPPORT. What reading and writing bytes of memory do, and that every write keeps the list canonical. -/

namespace Sys2Proof.Laws
open Sys2Proof.Machine

/-- The keys of a list after a write. -/
theorem memPut_mem {m : List Host.Cell} {a : Nat} {v : Byte} {c : Host.Cell} (h : c ∈ memPut m a v) : c = (a, v) ∧ v ≠ memFill a ∨ c ∈ m := by
  induction m with
  | nil => unfold memPut at h; split at h <;> simp_all
  | cons x m ih =>
    unfold memPut at h
    split at h
    · split at h <;> simp_all
    · split at h
      · split at h <;> simp_all; tauto
      · rcases List.mem_cons.1 h with e | e
        · simp [e]
        · rcases ih e with e | e
          · exact .inl e
          · exact .inr (List.mem_cons_of_mem _ e)

/-- A write keeps the canonical form. -/
theorem memWf_memPut {m : List Host.Cell} (h : memWf m) (a : Nat) (v : Byte) : memWf (memPut m a v) := by
  induction m with
  | nil => unfold memPut; split <;> simp_all [memWf]
  | cons x m ih =>
    obtain ⟨p, z⟩ := h
    simp only [List.map_cons, List.pairwise_cons, List.mem_map, forall_exists_index, and_imp, forall_apply_eq_imp_iff₂] at p
    have z0 : x.2 ≠ memFill x.1 := z x (by simp)
    have zm : ∀ c ∈ m, c.2 ≠ memFill c.1 := fun c hc => z c (List.mem_cons_of_mem _ hc)
    unfold memPut
    split
    · split
      · exact ⟨by simpa using p, z⟩
      · refine ⟨?_, ?_⟩
        · simp only [List.map_cons, List.pairwise_cons, List.mem_cons, List.mem_map, forall_eq_or_imp, forall_exists_index, and_imp,
            forall_apply_eq_imp_iff₂]
          exact ⟨⟨by assumption, fun c hc => lt_trans (by assumption) (p.1 c hc)⟩, p⟩
        · intro c hc
          rcases List.mem_cons.1 hc with e | e
          · simpa [e]
          · exact z c e
    · split
      · split
        · exact ⟨p.2, zm⟩
        · rename_i e _
          refine ⟨?_, ?_⟩
          · simp only [List.map_cons, List.pairwise_cons, List.mem_map, forall_exists_index, and_imp, forall_apply_eq_imp_iff₂]
            exact ⟨fun c hc => e ▸ p.1 c hc, p.2⟩
          · intro c hc
            rcases List.mem_cons.1 hc with e | e
            · simpa [e]
            · exact zm c e
      · have k := ih ⟨p.2, zm⟩
        refine ⟨?_, ?_⟩
        · simp only [List.map_cons, List.pairwise_cons, List.mem_map, forall_exists_index, and_imp, forall_apply_eq_imp_iff₂]
          refine ⟨fun c hc => ?_, k.1⟩
          rcases memPut_mem hc with ⟨e, _⟩ | e
          · rw [e]; simp only; omega
          · exact p.1 c e
        · intro c hc
          rcases List.mem_cons.1 hc with e | e
          · simpa [e]
          · exact k.2 c e

/-- Leaving entries out keeps the canonical form. -/
theorem memWf_filter {m : List Host.Cell} (h : memWf m) (p : Host.Cell → Bool) : memWf (m.filter p) :=
  ⟨h.1.sublist (List.filter_sublist.map _), fun c hc => h.2 c (List.mem_filter.1 hc).1⟩

/-- A write leaves every other key alone. -/
theorem memFind_memPut_other {a b : Nat} (h : b ≠ a) (m : List Host.Cell) (v : Byte) : memFind (memPut m a v) b = memFind m b := by
  induction m with
  | nil => unfold memPut; split <;> simp [memFind, h.symm]
  | cons x m ih =>
    unfold memPut
    repeat' split
    all_goals simp only [memFind, ih] <;> (repeat' split) <;> (first | rfl | omega)

/-- A key below every listed one is unlisted. -/
theorem memFind_below {m : List Host.Cell} {a : Nat} (h : ∀ c ∈ m, a < c.1) : memFind m a = memFill a := by
  induction m with
  | nil => rfl
  | cons x m ih =>
    have := h x (by simp)
    simp only [memFind, if_neg (show ¬x.1 = a by omega)]
    exact ih fun c hc => h c (List.mem_cons_of_mem _ hc)

/-- A read after a write to the same key gives the value written. -/
theorem memFind_memPut_same {m : List Host.Cell} (h : memWf m) (a : Nat) (v : Byte) : memFind (memPut m a v) a = v := by
  induction m with
  | nil => unfold memPut; split <;> simp_all [memFind]
  | cons x m ih =>
    obtain ⟨p, z⟩ := h
    simp only [List.map_cons, List.pairwise_cons, List.mem_map, forall_exists_index, and_imp, forall_apply_eq_imp_iff₂] at p
    unfold memPut
    split
    · split
      · rename_i l e
        rw [e]
        refine memFind_below fun c hc => ?_
        rcases List.mem_cons.1 hc with e | e
        · rw [e]; exact l
        · exact lt_trans l (p.1 c e)
      · simp [memFind]
    · split
      · split
        · rename_i e0 e
          rw [e, e0]
          exact memFind_below p.1
        · simp [memFind]
      · rename_i l e
        simp only [memFind, if_neg (show ¬x.1 = a from fun q => e q.symm)]
        exact ih ⟨p.2, fun c hc => z c (List.mem_cons_of_mem _ hc)⟩

/-- Inverting twice gives the byte back. -/
theorem polarity_polarity (c : Nat) (v : Byte) : polarity c (polarity c v) = v := by
  unfold polarity; split <;> simp

/-- Keys of different bytes differ. -/
theorem memKey_inj {c d i j : Nat} (hi : i < 2 ^ 36) (hj : j < 2 ^ 36) (h : memKey c i = memKey d j) : c = d ∧ i = j := by
  unfold memKey at h; omega

/-- Reading after writing one byte. -/
theorem readByte_writeByte_same {s : State} (h : memWf s.mem) (c i : Nat) (v : Byte) : readByte c i (writeByte c i v s) = v := by
  simp only [readByte, writeByte, memFind_memPut_same h, polarity_polarity]
/-- Reading another byte after writing one. -/
theorem readByte_writeByte_other {c d i j : Nat} (h : memKey d j ≠ memKey c i) (v : Byte) (s : State) :
    readByte d j (writeByte c i v s) = readByte d j s := by
  simp only [readByte, writeByte, memFind_memPut_other h]
/-- Writing a byte keeps the canonical form. -/
theorem writeByte_wf (c i : Nat) (v : Byte) (s : State) (h : memWf s.mem) : memWf (writeByte c i v s).mem := memWf_memPut h _ _
/-- Writing bytes keeps the canonical form. -/
theorem writeBytes_wf (c i : Nat) (bs : List Byte) (s : State) (h : memWf s.mem) : memWf (writeBytes c i bs s).mem := by
  induction bs generalizing i s with
  | nil => exact h
  | cons b bs ih => exact ih _ _ (writeByte_wf c i b s h)
/-- Emptying a memory keeps the canonical form. -/
theorem clearMem_wf (c : Nat) (s : State) (h : memWf s.mem) : memWf (clearMem c s).mem := memWf_filter h _
/-- The loss of the always-on supply keeps the canonical form. -/
theorem aonLost_wf (s : State) (h : memWf s.mem) : memWf (aonLost s).mem := memWf_filter h _
/-- The reading of a byte sees only memory. -/
theorem readByte_congr {s t : State} (h : t.mem = s.mem) (c i : Nat) : readByte c i t = readByte c i s := by unfold readByte; rw [h]

/-- Bytes written from `i` upward leave every byte outside them alone. -/
theorem readByte_writeBytes_other (c d i j : Nat) (bs : List Byte) (s : State) (h : ∀ k < bs.length, memKey d j ≠ memKey c (i + k)) :
    readByte d j (writeBytes c i bs s) = readByte d j s := by
  induction bs generalizing i s with
  | nil => rfl
  | cons b bs ih =>
    refine (ih (i + 1) _ fun k hk => ?_).trans (readByte_writeByte_other (h 0 (by simp)) b s)
    rw [Nat.add_assoc, Nat.add_comm 1 k]
    exact h (k + 1) (by simp only [List.length_cons]; omega)

/-- Reading bytes just written. -/
theorem readByte_writeBytes_same (c i : Nat) (bs : List Byte) (s : State) (h : memWf s.mem) (k : Nat) (hk : k < bs.length) :
    readByte c (i + k) (writeBytes c i bs s) = bs[k] := by
  induction bs generalizing i s k with
  | nil => simp at hk
  | cons b bs ih =>
    cases k with
    | zero =>
      refine (readByte_writeBytes_other c c (i + 1) (i + 0) bs _ fun k _ => ?_).trans (readByte_writeByte_same h c i b)
      unfold memKey; omega
    | succ k =>
      have := ih (i + 1) _ (writeByte_wf c i b s h) k (by simpa using hk)
      rw [Nat.add_assoc, Nat.add_comm 1 k] at this
      exact this

end Sys2Proof.Laws
end

