-- ==== Sys2Proof/Laws/Kept.lean ====
section
/-! SUPPORT. What a change of the state may touch. A lemma kept_f says that f changes at most the listed parts and keeps memory's canonical form, in
a form that composes: from Kept ps s t follows Kept ps s (f t). -/

namespace Sys2Proof.Laws
open Sys2Proof.Machine Sys2Proof.Safety

/-- Nothing but the listed parts changed, and memory kept its canonical form. -/
def Kept (ps : List Part) (s t : State) : Prop := Only ps s t ∧ (memWf s.mem → memWf t.mem)

/-- What is not listed is as before. -/
theorem Kept.only {ps : List Part} {s t : State} (h : Kept ps s t) : Only ps s t := h.1
/-- Memory kept its form. -/
theorem Kept.wf {ps : List Part} {s t : State} (h : Kept ps s t) : memWf s.mem → memWf t.mem := h.2
/-- Nothing changed. -/
theorem only_refl {ps : List Part} {s : State} : Only ps s s := fun p _ => by cases p <;> rfl
/-- One change after another. -/
theorem only_trans {ps : List Part} {s t u : State} (h : Only ps s t) (k : Only ps t u) : Only ps s u := fun p hp => by
  have a := h p hp; have b := k p hp; cases p <;> exact b.trans a
/-- More parts may be named. -/
theorem only_mono {ps qs : List Part} {s t : State} (h : Only ps s t) (k : ps ⊆ qs) : Only qs s t := fun p hp => h p (fun m => hp (k m))
/-- Nothing changed. -/
theorem kept_refl {ps : List Part} {s : State} : Kept ps s s := ⟨only_refl, id⟩
/-- One change after another. -/
theorem kept_trans {ps : List Part} {s t u : State} (h : Kept ps s t) (k : Kept ps t u) : Kept ps s u := ⟨only_trans h.1 k.1, k.2 ∘ h.2⟩
/-- More parts may be named. -/
theorem kept_mono {ps qs : List Part} {s t : State} (h : Kept ps s t) (k : ps ⊆ qs) : Kept qs s t := ⟨only_mono h.1 k, h.2⟩
/-- A fold of steps that each leave the same parts alone. -/
theorem kept_foldl {α : Type} {ps : List Part} {s t : State} {f : State → α → State} {xs : List α} (g : Kept ps s t)
    (h : ∀ a x, Kept ps s a → Kept ps s (f a x)) : Kept ps s (xs.foldl f t) := by
  induction xs generalizing t with
  | nil => exact g
  | cons x xs ih => exact ih (h t x g)
/-- The same for a fold that carries a state beside another value. -/
theorem kept_foldl2 {α β : Type} {ps : List Part} {s : State} {f : β × State → α → β × State} {xs : List α} {t : β × State} (g : Kept ps s t.2)
    (h : ∀ a x, Kept ps s a.2 → Kept ps s (f a x).2) : Kept ps s (xs.foldl f t).2 := by
  induction xs generalizing t with
  | nil => exact g
  | cons x xs ih => exact ih (h t x g)
/-- And beside two other values. -/
theorem kept_foldl3 {α β γ : Type} {ps : List Part} {s : State} {f : β × γ × State → α → β × γ × State} {xs : List α} {t : β × γ × State}
    (g : Kept ps s t.2.2) (h : ∀ a x, Kept ps s a.2.2 → Kept ps s (f a x).2.2) : Kept ps s (xs.foldl f t).2.2 := by
  induction xs generalizing t with
  | nil => exact g
  | cons x xs ih => exact ih (h t x g)
/-- Writing a byte. -/
theorem kept_writeByte {ps : List Part} {r : State} (c i : Nat) (v : Byte) (s : State) (g : Kept ps r s) (k : [.mem] ⊆ ps) : Kept ps r (writeByte c i v s) :=
  ⟨fun p hp => by
    have h := g.1 p hp
    cases p <;> first | exact h | exact absurd (k (by decide)) hp, fun h => writeByte_wf c i v s (g.2 h)⟩
/-- Emptying a memory. -/
theorem kept_clearMem {ps : List Part} {r : State} (c : Nat) (s : State) (g : Kept ps r s) (k : [.mem] ⊆ ps) : Kept ps r (clearMem c s) :=
  ⟨fun p hp => by
    have h := g.1 p hp
    cases p <;> first | exact h | exact absurd (k (by decide)) hp, fun h => clearMem_wf c s (g.2 h)⟩
/-- The reset of the module. -/
theorem kept_moduleReset {ps : List Part} {r : State} (cause : Nat) (s : State) (g : Kept ps r s)
    (k : [.cyc, .cores, .doms, .pairs, .mem, .memRegs, .memErrs, .banks, .voter, .solvers, .rmus, .ixl, .conns, .ring, .rtm, .hsb, .sync, .fg, .fgErr,
      .mbx, .update, .wdg, .cim, .esc, .rtc, .ps, .boot, .power, .arb, .fuses, .dbg] ⊆ ps) : Kept ps r (moduleReset cause s) :=
  ⟨fun p hp => by
    have h := g.1 p hp
    cases p <;> first | exact h | exact absurd (k (by decide)) hp, fun h => memWf_filter (g.2 h) _⟩
/-- The loss of the always-on supply. -/
theorem kept_aonLost {ps : List Part} {r : State} (s : State) (g : Kept ps r s) (k : [.mem, .memErrs, .rtc, .boot, .power] ⊆ ps) :
    Kept ps r (aonLost s) :=
  ⟨fun p hp => by
    have h := g.1 p hp
    cases p <;> first | exact h | exact absurd (k (by decide)) hp, fun h => aonLost_wf s (g.2 h)⟩

theorem kept_upd_conns {ps : List Part} {s t : State} {v0 : Vector (Vector (List ConnSt) 2) 3} (g : Kept ps s t) (k : [.conns] ⊆ ps) : Kept ps s { t with conns := v0 } :=
  ⟨fun p hp => by have h := g.1 p hp; cases p <;> first | exact h | exact absurd (k (by decide)) hp, g.2⟩

theorem kept_upd_wdg {ps : List Part} {s t : State} {v0 : Vector Wdg 8} (g : Kept ps s t) (k : [.wdg] ⊆ ps) : Kept ps s { t with wdg := v0 } :=
  ⟨fun p hp => by have h := g.1 p hp; cases p <;> first | exact h | exact absurd (k (by decide)) hp, g.2⟩

theorem kept_upd_rtc {ps : List Part} {s t : State} {v0 : Rtc} (g : Kept ps s t) (k : [.rtc] ⊆ ps) : Kept ps s { t with rtc := v0 } :=
  ⟨fun p hp => by have h := g.1 p hp; cases p <;> first | exact h | exact absurd (k (by decide)) hp, g.2⟩

theorem kept_upd_power {ps : List Part} {s t : State} {v0 : Power} (g : Kept ps s t) (k : [.power] ⊆ ps) : Kept ps s { t with power := v0 } :=
  ⟨fun p hp => by have h := g.1 p hp; cases p <;> first | exact h | exact absurd (k (by decide)) hp, g.2⟩

theorem kept_upd_cyc {ps : List Part} {s t : State} {v0 : Cyc} (g : Kept ps s t) (k : [.cyc] ⊆ ps) : Kept ps s { t with cyc := v0 } :=
  ⟨fun p hp => by have h := g.1 p hp; cases p <;> first | exact h | exact absurd (k (by decide)) hp, g.2⟩

theorem kept_upd_fuses {ps : List Part} {s t : State} {v0 : Fuses} (g : Kept ps s t) (k : [.fuses] ⊆ ps) : Kept ps s { t with fuses := v0 } :=
  ⟨fun p hp => by have h := g.1 p hp; cases p <;> first | exact h | exact absurd (k (by decide)) hp, g.2⟩

theorem kept_upd_cim {ps : List Part} {s t : State} {v0 : Vector Cim 6} (g : Kept ps s t) (k : [.cim] ⊆ ps) : Kept ps s { t with cim := v0 } :=
  ⟨fun p hp => by have h := g.1 p hp; cases p <;> first | exact h | exact absurd (k (by decide)) hp, g.2⟩

theorem kept_upd_solvers {ps : List Part} {s t : State} {v0 : Vector Solver 5} (g : Kept ps s t) (k : [.solvers] ⊆ ps) : Kept ps s { t with solvers := v0 } :=
  ⟨fun p hp => by have h := g.1 p hp; cases p <;> first | exact h | exact absurd (k (by decide)) hp, g.2⟩

theorem kept_upd_arch {ps : List Part} {s t : State} {v0 : Archive} (g : Kept ps s t) (k : [.arch] ⊆ ps) : Kept ps s { t with arch := v0 } :=
  ⟨fun p hp => by have h := g.1 p hp; cases p <;> first | exact h | exact absurd (k (by decide)) hp, g.2⟩

theorem kept_upd_ps {ps : List Part} {s t : State} {v0 : PStore} (g : Kept ps s t) (k : [.ps] ⊆ ps) : Kept ps s { t with ps := v0 } :=
  ⟨fun p hp => by have h := g.1 p hp; cases p <;> first | exact h | exact absurd (k (by decide)) hp, g.2⟩

theorem kept_upd_bus {ps : List Part} {s t : State} {v0 : Bus} (g : Kept ps s t) (k : [.bus] ⊆ ps) : Kept ps s { t with bus := v0 } :=
  ⟨fun p hp => by have h := g.1 p hp; cases p <;> first | exact h | exact absurd (k (by decide)) hp, g.2⟩

theorem kept_upd_fgErr {ps : List Part} {s t : State} {v0 : BitVec 3} (g : Kept ps s t) (k : [.fgErr] ⊆ ps) : Kept ps s { t with fgErr := v0 } :=
  ⟨fun p hp => by have h := g.1 p hp; cases p <;> first | exact h | exact absurd (k (by decide)) hp, g.2⟩

theorem kept_upd_hsb {ps : List Part} {s t : State} {v0 : Hsb} (g : Kept ps s t) (k : [.hsb] ⊆ ps) : Kept ps s { t with hsb := v0 } :=
  ⟨fun p hp => by have h := g.1 p hp; cases p <;> first | exact h | exact absurd (k (by decide)) hp, g.2⟩

theorem kept_upd_sync {ps : List Part} {s t : State} {v0 : SyncLink} (g : Kept ps s t) (k : [.sync] ⊆ ps) : Kept ps s { t with sync := v0 } :=
  ⟨fun p hp => by have h := g.1 p hp; cases p <;> first | exact h | exact absurd (k (by decide)) hp, g.2⟩

theorem kept_upd_cores {ps : List Part} {s t : State} {v0 : Vector Core 11} (g : Kept ps s t) (k : [.cores] ⊆ ps) : Kept ps s { t with cores := v0 } :=
  ⟨fun p hp => by have h := g.1 p hp; cases p <;> first | exact h | exact absurd (k (by decide)) hp, g.2⟩

theorem kept_upd_ixl {ps : List Part} {s t : State} {v0 : Vector Ixl 3} (g : Kept ps s t) (k : [.ixl] ⊆ ps) : Kept ps s { t with ixl := v0 } :=
  ⟨fun p hp => by have h := g.1 p hp; cases p <;> first | exact h | exact absurd (k (by decide)) hp, g.2⟩

theorem kept_upd_boot {ps : List Part} {s t : State} {v0 : Boot} (g : Kept ps s t) (k : [.boot] ⊆ ps) : Kept ps s { t with boot := v0 } :=
  ⟨fun p hp => by have h := g.1 p hp; cases p <;> first | exact h | exact absurd (k (by decide)) hp, g.2⟩

theorem kept_upd_esc {ps : List Part} {s t : State} {v0 : Esc} (g : Kept ps s t) (k : [.esc] ⊆ ps) : Kept ps s { t with esc := v0 } :=
  ⟨fun p hp => by have h := g.1 p hp; cases p <;> first | exact h | exact absurd (k (by decide)) hp, g.2⟩

theorem kept_upd_dbg {ps : List Part} {s t : State} {v0 : Dbg} (g : Kept ps s t) (k : [.dbg] ⊆ ps) : Kept ps s { t with dbg := v0 } :=
  ⟨fun p hp => by have h := g.1 p hp; cases p <;> first | exact h | exact absurd (k (by decide)) hp, g.2⟩

theorem kept_upd_rtm {ps : List Part} {s t : State} {v0 : Rtm} (g : Kept ps s t) (k : [.rtm] ⊆ ps) : Kept ps s { t with rtm := v0 } :=
  ⟨fun p hp => by have h := g.1 p hp; cases p <;> first | exact h | exact absurd (k (by decide)) hp, g.2⟩

theorem kept_upd_mbx {ps : List Part} {s t : State} {v0 : Mbx} (g : Kept ps s t) (k : [.mbx] ⊆ ps) : Kept ps s { t with mbx := v0 } :=
  ⟨fun p hp => by have h := g.1 p hp; cases p <;> first | exact h | exact absurd (k (by decide)) hp, g.2⟩

theorem kept_upd_log {ps : List Part} {s t : State} {v0 : List LogEntry} (g : Kept ps s t) (k : [.log] ⊆ ps) : Kept ps s { t with log := v0 } :=
  ⟨fun p hp => by have h := g.1 p hp; cases p <;> first | exact h | exact absurd (k (by decide)) hp, g.2⟩

theorem kept_upd_memRegs {ps : List Part} {s t : State} {v0 : MemRegs} (g : Kept ps s t) (k : [.memRegs] ⊆ ps) : Kept ps s { t with memRegs := v0 } :=
  ⟨fun p hp => by have h := g.1 p hp; cases p <;> first | exact h | exact absurd (k (by decide)) hp, g.2⟩

theorem kept_upd_ring {ps : List Part} {s t : State} {v0 : Ring} (g : Kept ps s t) (k : [.ring] ⊆ ps) : Kept ps s { t with ring := v0 } :=
  ⟨fun p hp => by have h := g.1 p hp; cases p <;> first | exact h | exact absurd (k (by decide)) hp, g.2⟩

theorem kept_upd_memErrs {ps : List Part} {s t : State} {v0 : MemErrs} (g : Kept ps s t) (k : [.memErrs] ⊆ ps) : Kept ps s { t with memErrs := v0 } :=
  ⟨fun p hp => by have h := g.1 p hp; cases p <;> first | exact h | exact absurd (k (by decide)) hp, g.2⟩

theorem kept_upd_arb {ps : List Part} {s t : State} {v0 : Arb} (g : Kept ps s t) (k : [.arb] ⊆ ps) : Kept ps s { t with arb := v0 } :=
  ⟨fun p hp => by have h := g.1 p hp; cases p <;> first | exact h | exact absurd (k (by decide)) hp, g.2⟩

theorem kept_upd_rmus {ps : List Part} {s t : State} {v0 : Vector Rmu 3} (g : Kept ps s t) (k : [.rmus] ⊆ ps) : Kept ps s { t with rmus := v0 } :=
  ⟨fun p hp => by have h := g.1 p hp; cases p <;> first | exact h | exact absurd (k (by decide)) hp, g.2⟩

theorem kept_upd_pairs {ps : List Part} {s t : State} {v0 : Vector PairReg 4} (g : Kept ps s t) (k : [.pairs] ⊆ ps) : Kept ps s { t with pairs := v0 } :=
  ⟨fun p hp => by have h := g.1 p hp; cases p <;> first | exact h | exact absurd (k (by decide)) hp, g.2⟩

theorem kept_upd_voter {ps : List Part} {s t : State} {v0 : Voter} (g : Kept ps s t) (k : [.voter] ⊆ ps) : Kept ps s { t with voter := v0 } :=
  ⟨fun p hp => by have h := g.1 p hp; cases p <;> first | exact h | exact absurd (k (by decide)) hp, g.2⟩

theorem kept_upd_update {ps : List Part} {s t : State} {v0 : Update} (g : Kept ps s t) (k : [.update] ⊆ ps) : Kept ps s { t with update := v0 } :=
  ⟨fun p hp => by have h := g.1 p hp; cases p <;> first | exact h | exact absurd (k (by decide)) hp, g.2⟩

theorem kept_upd_doms {ps : List Part} {s t : State} {v0 : Vector Dom 6} (g : Kept ps s t) (k : [.doms] ⊆ ps) : Kept ps s { t with doms := v0 } :=
  ⟨fun p hp => by have h := g.1 p hp; cases p <;> first | exact h | exact absurd (k (by decide)) hp, g.2⟩

theorem kept_upd_fg {ps : List Part} {s t : State} {v0 : Vector Fg 6} (g : Kept ps s t) (k : [.fg] ⊆ ps) : Kept ps s { t with fg := v0 } :=
  ⟨fun p hp => by have h := g.1 p hp; cases p <;> first | exact h | exact absurd (k (by decide)) hp, g.2⟩

theorem kept_upd_banks {ps : List Part} {s t : State} {v0 : Vector Bank 33} (g : Kept ps s t) (k : [.banks] ⊆ ps) : Kept ps s { t with banks := v0 } :=
  ⟨fun p hp => by have h := g.1 p hp; cases p <;> first | exact h | exact absurd (k (by decide)) hp, g.2⟩

theorem kept_upd_freeCtr {ps : List Part} {s t : State} {v0 : Nat} (g : Kept ps s t) (k : [.freeCtr] ⊆ ps) : Kept ps s { t with freeCtr := v0 } :=
  ⟨fun p hp => by have h := g.1 p hp; cases p <;> first | exact h | exact absurd (k (by decide)) hp, g.2⟩

theorem kept_upd_voter_arb {ps : List Part} {s t : State} {v0 : Voter} {v1 : Arb} (g : Kept ps s t) (k : [.voter, .arb] ⊆ ps) : Kept ps s { t with voter := v0, arb := v1 } :=
  ⟨fun p hp => by have h := g.1 p hp; cases p <;> first | exact h | exact absurd (k (by decide)) hp, g.2⟩

theorem kept_upd_ring_arb {ps : List Part} {s t : State} {v0 : Ring} {v1 : Arb} (g : Kept ps s t) (k : [.ring, .arb] ⊆ ps) : Kept ps s { t with ring := v0, arb := v1 } :=
  ⟨fun p hp => by have h := g.1 p hp; cases p <;> first | exact h | exact absurd (k (by decide)) hp, g.2⟩

theorem kept_upd_cyc_rtc {ps : List Part} {s t : State} {v0 : Cyc} {v1 : Rtc} (g : Kept ps s t) (k : [.cyc, .rtc] ⊆ ps) : Kept ps s { t with cyc := v0, rtc := v1 } :=
  ⟨fun p hp => by have h := g.1 p hp; cases p <;> first | exact h | exact absurd (k (by decide)) hp, g.2⟩

theorem kept_upd_memRegs_memErrs {ps : List Part} {s t : State} {v0 : MemRegs} {v1 : MemErrs} (g : Kept ps s t) (k : [.memRegs, .memErrs] ⊆ ps) : Kept ps s { t with memRegs := v0, memErrs := v1 } :=
  ⟨fun p hp => by have h := g.1 p hp; cases p <;> first | exact h | exact absurd (k (by decide)) hp, g.2⟩

theorem kept_upd_memRegs_banks {ps : List Part} {s t : State} {v0 : MemRegs} {v1 : Vector Bank 33} (g : Kept ps s t) (k : [.memRegs, .banks] ⊆ ps) : Kept ps s { t with memRegs := v0, banks := v1 } :=
  ⟨fun p hp => by have h := g.1 p hp; cases p <;> first | exact h | exact absurd (k (by decide)) hp, g.2⟩

theorem kept_upd_cores_banks {ps : List Part} {s t : State} {v0 : Vector Core 11} {v1 : Vector Bank 33} (g : Kept ps s t) (k : [.cores, .banks] ⊆ ps) : Kept ps s { t with cores := v0, banks := v1 } :=
  ⟨fun p hp => by have h := g.1 p hp; cases p <;> first | exact h | exact absurd (k (by decide)) hp, g.2⟩

theorem kept_upd_cyc_arb {ps : List Part} {s t : State} {v0 : Cyc} {v1 : Arb} (g : Kept ps s t) (k : [.cyc, .arb] ⊆ ps) : Kept ps s { t with cyc := v0, arb := v1 } :=
  ⟨fun p hp => by have h := g.1 p hp; cases p <;> first | exact h | exact absurd (k (by decide)) hp, g.2⟩

theorem kept_upd_rmus_ixl_conns {ps : List Part} {s t : State} {v0 : Vector Rmu 3} {v1 : Vector Ixl 3} {v2 : Vector (Vector (List ConnSt) 2) 3} (g : Kept ps s t) (k : [.rmus, .ixl, .conns] ⊆ ps) : Kept ps s { t with rmus := v0, ixl := v1, conns := v2 } :=
  ⟨fun p hp => by have h := g.1 p hp; cases p <;> first | exact h | exact absurd (k (by decide)) hp, g.2⟩

theorem kept_upd_memErrs_solvers_rmus_boot {ps : List Part} {s t : State} {v0 : MemErrs} {v1 : Vector Solver 5} {v2 : Vector Rmu 3} {v3 : Boot} (g : Kept ps s t) (k : [.memErrs, .solvers, .rmus, .boot] ⊆ ps) : Kept ps s { t with memErrs := v0, solvers := v1, rmus := v2, boot := v3 } :=
  ⟨fun p hp => by have h := g.1 p hp; cases p <;> first | exact h | exact absurd (k (by decide)) hp, g.2⟩

theorem kept_upd_doms_ring_mbx_update_ps {ps : List Part} {s t : State} {v0 : Vector Dom 6} {v1 : Ring} {v2 : Mbx} {v3 : Update} {v4 : PStore} (g : Kept ps s t) (k : [.doms, .ring, .mbx, .update, .ps] ⊆ ps) : Kept ps s { t with doms := v0, ring := v1, mbx := v2, update := v3, ps := v4 } :=
  ⟨fun p hp => by have h := g.1 p hp; cases p <;> first | exact h | exact absurd (k (by decide)) hp, g.2⟩

end Sys2Proof.Laws
end

