-- ==== Sys2Proof/Laws/KeptOps.lean ====
section
/-! SUPPORT. What each function changes at most: the shared operations and the Nerop cores. -/

namespace Sys2Proof.Laws
open Sys2Proof Sys2Proof.Machine Sys2Proof.Safety

theorem kept_modCore {ps0 : List Part} {r0 : State} (c : CoreId) (f : Core → Core) (s : State) (hg0 : Kept ps0 r0 s) (hk0 : [.cores] ⊆ ps0) : Kept ps0 r0 (modCore c f s) := by
  unfold modCore
  repeat (any_goals first | with_reducible assumption | split | with_reducible apply kept_upd_cores | with_reducible intro _ | exact List.Subset.trans (by decide) hk0)

theorem kept_modDom {ps0 : List Part} {r0 : State} (d : DomId) (f : Dom → Dom) (s : State) (hg0 : Kept ps0 r0 s) (hk0 : [.doms] ⊆ ps0) : Kept ps0 r0 (modDom d f s) := by
  unfold modDom
  repeat (any_goals first | with_reducible assumption | split | with_reducible apply kept_upd_doms | with_reducible intro _ | exact List.Subset.trans (by decide) hk0)

theorem kept_modPair {ps0 : List Part} {r0 : State} (n : Fin 4) (f : PairReg → PairReg) (s : State) (hg0 : Kept ps0 r0 s) (hk0 : [.pairs] ⊆ ps0) : Kept ps0 r0 (modPair n f s) := by
  unfold modPair
  repeat (any_goals first | with_reducible assumption | split | with_reducible apply kept_upd_pairs | with_reducible intro _ | exact List.Subset.trans (by decide) hk0)

theorem kept_modGroup {ps0 : List Part} {r0 : State} (g : Fin 2) (f : Group → Group) (s : State) (hg0 : Kept ps0 r0 s) (hk0 : [.voter] ⊆ ps0) : Kept ps0 r0 (modGroup g f s) := by
  unfold modGroup
  repeat (any_goals first | with_reducible assumption | split | with_reducible apply kept_upd_voter | with_reducible intro _ | exact List.Subset.trans (by decide) hk0)

theorem kept_modLane {ps0 : List Part} {r0 : State} (l : Fin 3) (f : Lane → Lane) (s : State) (hg0 : Kept ps0 r0 s) (hk0 : [.voter] ⊆ ps0) : Kept ps0 r0 (modLane l f s) := by
  unfold modLane
  repeat (any_goals first | with_reducible assumption | split | with_reducible apply kept_upd_voter | with_reducible intro _ | exact List.Subset.trans (by decide) hk0)

theorem kept_modReint {ps0 : List Part} {r0 : State} (f : Reint → Reint) (s : State) (hg0 : Kept ps0 r0 s) (hk0 : [.voter] ⊆ ps0) : Kept ps0 r0 (modReint f s) := by
  unfold modReint
  repeat (any_goals first | with_reducible assumption | split | with_reducible apply kept_upd_voter | with_reducible intro _ | exact List.Subset.trans (by decide) hk0)

theorem kept_modSolver {ps0 : List Part} {r0 : State} (i : Fin 5) (f : Solver → Solver) (s : State) (hg0 : Kept ps0 r0 s) (hk0 : [.solvers] ⊆ ps0) : Kept ps0 r0 (modSolver i f s) := by
  unfold modSolver
  repeat (any_goals first | with_reducible assumption | split | with_reducible apply kept_upd_solvers | with_reducible intro _ | exact List.Subset.trans (by decide) hk0)

theorem kept_modQueue {ps0 : List Part} {r0 : State} (i : Fin 5) (k : Fin 2) (f : LsQueue → LsQueue) (s : State) (hg0 : Kept ps0 r0 s) (hk0 : [.solvers] ⊆ ps0) : Kept ps0 r0 (modQueue i k f s) := by
  unfold modQueue
  repeat (any_goals first | with_reducible assumption | with_reducible apply kept_modSolver | split | with_reducible intro _ | exact List.Subset.trans (by decide) hk0)

theorem kept_modFg {ps0 : List Part} {r0 : State} (g : GroupId) (f : Fg → Fg) (s : State) (hg0 : Kept ps0 r0 s) (hk0 : [.fg] ⊆ ps0) : Kept ps0 r0 (modFg g f s) := by
  unfold modFg
  repeat (any_goals first | with_reducible assumption | split | with_reducible apply kept_upd_fg | with_reducible intro _ | exact List.Subset.trans (by decide) hk0)

theorem kept_modCh {ps0 : List Part} {r0 : State} (g : GroupId) (c : Fin 8) (f : FgCh → FgCh) (s : State) (hg0 : Kept ps0 r0 s) (hk0 : [.fg] ⊆ ps0) : Kept ps0 r0 (modCh g c f s) := by
  unfold modCh
  repeat (any_goals first | with_reducible assumption | with_reducible apply kept_modFg | split | with_reducible intro _ | exact List.Subset.trans (by decide) hk0)

theorem kept_modWdg {ps0 : List Part} {r0 : State} (u : Fin 8) (f : Wdg → Wdg) (s : State) (hg0 : Kept ps0 r0 s) (hk0 : [.wdg] ⊆ ps0) : Kept ps0 r0 (modWdg u f s) := by
  unfold modWdg
  repeat (any_goals first | with_reducible assumption | split | with_reducible apply kept_upd_wdg | with_reducible intro _ | exact List.Subset.trans (by decide) hk0)

theorem kept_modCim {ps0 : List Part} {r0 : State} (d : DomId) (f : Cim → Cim) (s : State) (hg0 : Kept ps0 r0 s) (hk0 : [.cim] ⊆ ps0) : Kept ps0 r0 (modCim d f s) := by
  unfold modCim
  repeat (any_goals first | with_reducible assumption | split | with_reducible apply kept_upd_cim | with_reducible intro _ | exact List.Subset.trans (by decide) hk0)

theorem kept_modArch {ps0 : List Part} {r0 : State} (c : CoreId) (f : Arch → Arch) (s : State) (hg0 : Kept ps0 r0 s) (hk0 : [.cores] ⊆ ps0) : Kept ps0 r0 (modArch c f s) := by
  unfold modArch
  repeat (any_goals first | with_reducible assumption | with_reducible apply kept_modCore | split | with_reducible intro _ | exact List.Subset.trans (by decide) hk0)

theorem kept_nextFree {ps0 : List Part} {r0 : State} (s : State) (hg0 : Kept ps0 r0 s) (hk0 : [.freeCtr] ⊆ ps0) : Kept ps0 r0 (nextFree s).2 := by
  unfold nextFree
  repeat (any_goals first | with_reducible assumption | split | with_reducible apply kept_upd_freeCtr | with_reducible intro _ | exact List.Subset.trans (by decide) hk0)

theorem kept_setPd {ps0 : List Part} {r0 : State} (p : Pd) (b : Bool) (s : State) (hg0 : Kept ps0 r0 s) (hk0 : [.boot] ⊆ ps0) : Kept ps0 r0 (setPd p b s) := by
  unfold setPd
  repeat (any_goals first | with_reducible assumption | split | with_reducible apply kept_upd_boot | with_reducible intro _ | exact List.Subset.trans (by decide) hk0)

theorem kept_writeBytes {ps0 : List Part} {r0 : State} (code off : Nat) (bs : List Byte) (s : State) (hg0 : Kept ps0 r0 s) (hk0 : [.mem] ⊆ ps0) : Kept ps0 r0 (writeBytes code off bs s) := by
  induction bs generalizing off s with
  | nil => exact hg0
  | cons b bs ih => exact ih _ _ (kept_writeByte _ _ _ _ hg0 hk0)

theorem kept_writeNat {ps0 : List Part} {r0 : State} (code off n v : Nat) (s : State) (hg0 : Kept ps0 r0 s) (hk0 : [.mem] ⊆ ps0) : Kept ps0 r0 (writeNat code off n v s) := by
  unfold writeNat
  repeat (any_goals first | with_reducible assumption | with_reducible apply kept_writeBytes | split | with_reducible intro _ | exact List.Subset.trans (by decide) hk0)

theorem kept_noteWrite {ps0 : List Part} {r0 : State} (by_ : Option CoreId) (code off len : Nat) (s : State) (hg0 : Kept ps0 r0 s) (hk0 : [.cores, .doms, .voter] ⊆ ps0) : Kept ps0 r0 (noteWrite by_ code off len s) := by
  unfold noteWrite
  repeat (any_goals first | with_reducible assumption | with_reducible apply kept_modReint | split | with_reducible apply kept_upd_cores | with_reducible apply kept_upd_doms | with_reducible intro _ | exact List.Subset.trans (by decide) hk0)

theorem kept_addLog {ps0 : List Part} {r0 : State} (k : LogKind) (a b : Nat) (s : State) (hg0 : Kept ps0 r0 s) (hk0 : [.log] ⊆ ps0) : Kept ps0 r0 (addLog k a b s) := by
  unfold addLog
  repeat (any_goals first | with_reducible assumption | split | with_reducible apply kept_upd_log | with_reducible intro _ | exact List.Subset.trans (by decide) hk0)

theorem kept_raiseIrq {ps0 : List Part} {r0 : State} (c : CoreId) (bit : Fin 7) (s : State) (hg0 : Kept ps0 r0 s) (hk0 : [.cores] ⊆ ps0) : Kept ps0 r0 (raiseIrq c bit s) := by
  unfold raiseIrq
  repeat (any_goals first | with_reducible assumption | with_reducible apply kept_modArch | split | with_reducible intro _ | exact List.Subset.trans (by decide) hk0)

theorem kept_raiseGroup {ps0 : List Part} {r0 : State} (g : Fin 2) (bit : Fin 7) (s : State) (hg0 : Kept ps0 r0 s) (hk0 : [.cores] ⊆ ps0) : Kept ps0 r0 (raiseGroup g bit s) := by
  unfold raiseGroup
  repeat (any_goals first | with_reducible assumption | with_reducible apply kept_raiseIrq | with_reducible apply kept_modCore | (with_reducible apply kept_foldl; rotate_left; intro _ _ _) | (with_reducible apply kept_foldl2; rotate_left; intro _ _ _) | split | with_reducible intro _ | exact List.Subset.trans (by decide) hk0)

theorem kept_transition {ps0 : List Part} {r0 : State} (src inst dim frm to_ : Nat) (s : State) (hg0 : Kept ps0 r0 s) (hk0 : [.arb] ⊆ ps0) : Kept ps0 r0 (transition src inst dim frm to_ s) := by
  unfold transition
  repeat (any_goals first | with_reducible assumption | split | with_reducible apply kept_upd_arb | with_reducible intro _ | exact List.Subset.trans (by decide) hk0)

theorem kept_setOper {ps0 : List Part} {r0 : State} (src : Nat) (o : Oper) (s : State) (hg0 : Kept ps0 r0 s) (hk0 : [.arb] ⊆ ps0) : Kept ps0 r0 (setOper src o s) := by
  unfold setOper
  repeat (any_goals first | with_reducible assumption | with_reducible apply kept_transition | split | with_reducible apply kept_upd_arb | with_reducible intro _ | exact List.Subset.trans (by decide) hk0)

theorem kept_setRun {ps0 : List Part} {r0 : State} (src : Nat) (d : DomId) (r : Bool) (s : State) (hg0 : Kept ps0 r0 s) (hk0 : [.doms, .arb] ⊆ ps0) : Kept ps0 r0 (setRun src d r s) := by
  unfold setRun
  repeat (any_goals first | with_reducible assumption | with_reducible apply kept_modDom | with_reducible apply kept_transition | split | with_reducible intro _ | exact List.Subset.trans (by decide) hk0)

theorem kept_setRole {ps0 : List Part} {r0 : State} (r : Role) (s : State) (hg0 : Kept ps0 r0 s) (hk0 : [.hsb, .arb, .log] ⊆ ps0) : Kept ps0 r0 (setRole r s) := by
  unfold setRole
  repeat (any_goals first | with_reducible assumption | with_reducible apply kept_transition | with_reducible apply kept_addLog | split | with_reducible apply kept_upd_hsb | with_reducible intro _ | exact List.Subset.trans (by decide) hk0)

theorem kept_setDim {ps0 : List Part} {r0 : State} (src : Nat) (d : RingDim) (s : State) (hg0 : Kept ps0 r0 s) (hk0 : [.ring, .arb] ⊆ ps0) : Kept ps0 r0 (setDim src d s) := by
  unfold setDim
  repeat (any_goals first | with_reducible assumption | with_reducible apply kept_transition | split | with_reducible apply kept_upd_ring | with_reducible intro _ | exact List.Subset.trans (by decide) hk0)

theorem kept_setChg {ps0 : List Part} {r0 : State} (d : DomId) (c : ChgDim) (s : State) (hg0 : Kept ps0 r0 s) (hk0 : [.doms, .arb] ⊆ ps0) : Kept ps0 r0 (setChg d c s) := by
  unfold setChg
  repeat (any_goals first | with_reducible assumption | with_reducible apply kept_modDom | with_reducible apply kept_transition | split | with_reducible intro _ | exact List.Subset.trans (by decide) hk0)

theorem kept_setMembers {ps0 : List Part} {r0 : State} (src : Nat) (g : Fin 2) (m : BitVec 3) (s : State) (hg0 : Kept ps0 r0 s) (hk0 : [.voter, .arb] ⊆ ps0) : Kept ps0 r0 (setMembers src g m s) := by
  unfold setMembers
  repeat (any_goals first | with_reducible assumption | with_reducible apply kept_transition | with_reducible apply kept_modGroup | split | with_reducible intro _ | exact List.Subset.trans (by decide) hk0)

theorem kept_answer {ps0 : List Part} {r0 : State} (r : Resp) (v : Word) (s : State) (hg0 : Kept ps0 r0 s) (hk0 : [.bus] ⊆ ps0) : Kept ps0 r0 (answer r v s) := by
  unfold answer
  repeat (any_goals first | with_reducible assumption | split | with_reducible apply kept_upd_bus | with_reducible intro _ | exact List.Subset.trans (by decide) hk0)

theorem kept_countMbx {ps0 : List Part} {r0 : State} (k : MbxCnt) (s : State) (hg0 : Kept ps0 r0 s) (hk0 : [.mbx] ⊆ ps0) : Kept ps0 r0 (countMbx k s) := by
  unfold countMbx
  repeat (any_goals first | with_reducible assumption | split | with_reducible apply kept_upd_mbx | with_reducible intro _ | exact List.Subset.trans (by decide) hk0)

theorem kept_modSess {ps0 : List Part} {r0 : State} (i : Fin 5) (f : Session → Session) (s : State) (hg0 : Kept ps0 r0 s) (hk0 : [.mbx] ⊆ ps0) : Kept ps0 r0 (modSess i f s) := by
  unfold modSess
  repeat (any_goals first | with_reducible assumption | split | with_reducible apply kept_upd_mbx | with_reducible intro _ | exact List.Subset.trans (by decide) hk0)

theorem kept_modSlot {ps0 : List Part} {r0 : State} (r : CmdRef) (f : Slot → Slot) (s : State) (hg0 : Kept ps0 r0 s) (hk0 : [.mbx] ⊆ ps0) : Kept ps0 r0 (modSlot r f s) := by
  unfold modSlot
  repeat (any_goals first | with_reducible assumption | with_reducible apply kept_modSess | split | with_reducible intro _ | exact List.Subset.trans (by decide) hk0)

theorem kept_sendSync {ps0 : List Part} {r0 : State} (type : Byte) (cyc : Long) (body : List Byte) (s : State) (hg0 : Kept ps0 r0 s) (hk0 : [.sync] ⊆ ps0) : Kept ps0 r0 (sendSync type cyc body s) := by
  unfold sendSync
  repeat (any_goals first | with_reducible assumption | split | with_reducible apply kept_upd_sync | with_reducible intro _ | exact List.Subset.trans (by decide) hk0)

theorem kept_sendDatagram {ps0 : List Part} {r0 : State} (i : Fin 5) (car : Carrier) (header : List Byte) (off : Nat) (blk : List Byte) (s : State) (hg0 : Kept ps0 r0 s) (hk0 : [.sync, .mbx] ⊆ ps0) : Kept ps0 r0 (sendDatagram i car header off blk s) := by
  unfold sendDatagram
  repeat (any_goals first | with_reducible assumption | with_reducible apply kept_modSess | with_reducible apply kept_sendSync | split | with_reducible apply kept_upd_mbx | with_reducible intro _ | exact List.Subset.trans (by decide) hk0)

theorem kept_sendReply {ps0 : List Part} {r0 : State} (i : Fin 5) (car : Carrier) (r : Reply) (final : Bool) (s : State) (hg0 : Kept ps0 r0 s) (hk0 : [.sync, .mbx] ⊆ ps0) : Kept ps0 r0 (sendReply i car r final s) := by
  unfold sendReply
  repeat (any_goals first | with_reducible assumption | with_reducible apply kept_sendDatagram | (with_reducible apply kept_foldl; rotate_left; intro _ _ _) | (with_reducible apply kept_foldl2; rotate_left; intro _ _ _) | split | with_reducible intro _ | exact List.Subset.trans (by decide) hk0)

theorem kept_finishCode {ps0 : List Part} {r0 : State} (r : CmdRef) (st : BitVec 16) (detail : Nat) (data : List Byte) (s : State) (hg0 : Kept ps0 r0 s) (hk0 : [.sync, .mbx] ⊆ ps0) : Kept ps0 r0 (finishCode r st detail data s) := by
  unfold finishCode
  try dsimp only
  repeat (any_goals first | with_reducible assumption | with_reducible apply kept_sendReply | with_reducible apply kept_modSess | with_reducible apply kept_countMbx | split | with_reducible apply kept_upd_sync | with_reducible apply kept_upd_mbx | with_reducible intro _ | exact List.Subset.trans (by decide) hk0)

theorem kept_finish {ps0 : List Part} {r0 : State} (r : CmdRef) (st : Status) (detail : Nat) (data : List Byte) (s : State) (hg0 : Kept ps0 r0 s) (hk0 : [.sync, .mbx] ⊆ ps0) : Kept ps0 r0 (finish r st detail data s) := by
  unfold finish
  repeat (any_goals first | with_reducible assumption | with_reducible apply kept_finishCode | split | with_reducible intro _ | exact List.Subset.trans (by decide) hk0)

theorem kept_finishRefused {ps0 : List Part} {r0 : State} (r : CmdRef) (detail : Nat) (name : String) (s : State) (hg0 : Kept ps0 r0 s) (hk0 : [.sync, .mbx] ⊆ ps0) : Kept ps0 r0 (finishRefused r detail name s) := by
  unfold finishRefused
  repeat (any_goals first | with_reducible assumption | with_reducible apply kept_finish | split | with_reducible intro _ | exact List.Subset.trans (by decide) hk0)

theorem kept_finishOpt {ps0 : List Part} {r0 : State} (r : Option CmdRef) (st : Status) (s : State) (hg0 : Kept ps0 r0 s) (hk0 : [.sync, .mbx] ⊆ ps0) : Kept ps0 r0 (finishOpt r st s) := by
  unfold finishOpt
  repeat (any_goals first | with_reducible assumption | with_reducible apply kept_finish | split | with_reducible intro _ | exact List.Subset.trans (by decide) hk0)

theorem kept_finishRefusedOpt {ps0 : List Part} {r0 : State} (r : Option CmdRef) (name : String) (s : State) (hg0 : Kept ps0 r0 s) (hk0 : [.sync, .mbx] ⊆ ps0) : Kept ps0 r0 (finishRefusedOpt r name s) := by
  unfold finishRefusedOpt
  repeat (any_goals first | with_reducible assumption | with_reducible apply kept_finishRefused | split | with_reducible intro _ | exact List.Subset.trans (by decide) hk0)

theorem kept_setPage {ps0 : List Part} {r0 : State} (n : Nat) (d : List Byte) (s : State) (hg0 : Kept ps0 r0 s) (hk0 : [.ps] ⊆ ps0) : Kept ps0 r0 (setPage n d s) := by
  unfold setPage
  repeat (any_goals first | with_reducible assumption | split | with_reducible apply kept_upd_ps | with_reducible intro _ | exact List.Subset.trans (by decide) hk0)

theorem kept_psNext {ps0 : List Part} {r0 : State} (s : State) (hg0 : Kept ps0 r0 s) (hk0 : [.ps] ⊆ ps0) : Kept ps0 r0 (psNext s) := by
  unfold psNext
  repeat (any_goals first | with_reducible assumption | split | with_reducible apply kept_upd_ps | with_reducible intro _ | exact List.Subset.trans (by decide) hk0)

theorem kept_psQueue {ps0 : List Part} {r0 : State} (r : PsReq) (s : State) (hg0 : Kept ps0 r0 s) (hk0 : [.ps] ⊆ ps0) : Kept ps0 r0 (psQueue r s) := by
  unfold psQueue
  repeat (any_goals first | with_reducible assumption | with_reducible apply kept_psNext | split | with_reducible apply kept_upd_ps | with_reducible intro _ | exact List.Subset.trans (by decide) hk0)

theorem kept_psRecord {ps0 : List Part} {r0 : State} (use : Bool → PsFor) (payload : List Byte) (s : State) (hg0 : Kept ps0 r0 s) (hk0 : [.ps] ⊆ ps0) : Kept ps0 r0 (psRecord use payload s) := by
  unfold psRecord
  repeat (any_goals first | with_reducible assumption | with_reducible apply kept_psQueue | split | with_reducible apply kept_upd_ps | with_reducible intro _ | exact List.Subset.trans (by decide) hk0)

theorem kept_ringEvent {ps0 : List Part} {r0 : State} (kind cause : Nat) (s : State) (hg0 : Kept ps0 r0 s) (hk0 : [.ps] ⊆ ps0) : Kept ps0 r0 (ringEvent kind cause s) := by
  unfold ringEvent
  repeat (any_goals first | with_reducible assumption | with_reducible apply kept_psQueue | split | with_reducible intro _ | exact List.Subset.trans (by decide) hk0)

theorem kept_startQueued {ps0 : List Part} {r0 : State} (i : Fin 5) (k : Fin 2) (s : State) (hg0 : Kept ps0 r0 s) (hk0 : [.solvers] ⊆ ps0) : Kept ps0 r0 (startQueued i k s) := by
  unfold startQueued
  repeat (any_goals first | with_reducible assumption | with_reducible apply kept_modQueue | split | with_reducible intro _ | exact List.Subset.trans (by decide) hk0)

theorem kept_lsRelease {ps0 : List Part} {r0 : State} (i : Fin 5) (k : Fin 2) (s : State) (hg0 : Kept ps0 r0 s) (hk0 : [.cores] ⊆ ps0) : Kept ps0 r0 (lsRelease i k s) := by
  unfold lsRelease
  repeat (any_goals first | with_reducible assumption | with_reducible apply kept_modCore | split | with_reducible intro _ | exact List.Subset.trans (by decide) hk0)

theorem kept_lsEnded {ps0 : List Part} {r0 : State} (i : Fin 5) (k : Fin 2) (s : State) (hg0 : Kept ps0 r0 s) (hk0 : [.cores, .solvers] ⊆ ps0) : Kept ps0 r0 (lsEnded i k s) := by
  unfold lsEnded
  repeat (any_goals first | with_reducible assumption | with_reducible apply kept_lsRelease | with_reducible apply kept_startQueued | with_reducible apply kept_modQueue | split | with_reducible intro _ | exact List.Subset.trans (by decide) hk0)

theorem kept_lsAbortQueue {ps0 : List Part} {r0 : State} (i : Fin 5) (k : Fin 2) (s : State) (hg0 : Kept ps0 r0 s) (hk0 : [.cores, .solvers] ⊆ ps0) : Kept ps0 r0 (lsAbortQueue i k s) := by
  unfold lsAbortQueue
  try dsimp only
  repeat (any_goals first | with_reducible assumption | with_reducible apply kept_lsRelease | with_reducible apply kept_modSolver | with_reducible apply kept_lsEnded | with_reducible apply kept_modQueue | split | with_reducible apply kept_upd_cores | with_reducible apply kept_upd_solvers | with_reducible intro _ | exact List.Subset.trans (by decide) hk0)

theorem kept_gatherTouch {ps0 : List Part} {r0 : State} (code off : Nat) (bs : List Byte) (s : State) (hg0 : Kept ps0 r0 s) (hk0 : [.solvers, .freeCtr] ⊆ ps0) : Kept ps0 r0 (gatherTouch code off bs s) := by
  unfold gatherTouch
  try dsimp only
  repeat (any_goals first | with_reducible assumption | with_reducible apply kept_modQueue | with_reducible apply kept_nextFree | (with_reducible apply kept_foldl; rotate_left; intro _ _ _) | (with_reducible apply kept_foldl2; rotate_left; intro _ _ _) | split | with_reducible apply kept_upd_solvers | with_reducible apply kept_upd_freeCtr | with_reducible intro _ | exact List.Subset.trans (by decide) hk0)

theorem kept_store {ps0 : List Part} {r0 : State} (by_ : Option CoreId) (code off : Nat) (bs : List Byte) (s : State) (hg0 : Kept ps0 r0 s) (hk0 : [.cores, .doms, .mem, .voter, .solvers, .freeCtr] ⊆ ps0) : Kept ps0 r0 (store by_ code off bs s) := by
  unfold store
  repeat (any_goals first | with_reducible assumption | with_reducible apply kept_writeBytes | with_reducible apply kept_noteWrite | with_reducible apply kept_gatherTouch | split | with_reducible intro _ | exact List.Subset.trans (by decide) hk0)

theorem kept_abandonTasks {ps0 : List Part} {r0 : State} (d : DomId) (s : State) (hg0 : Kept ps0 r0 s) (hk0 : [.doms] ⊆ ps0) : Kept ps0 r0 (abandonTasks d s) := by
  unfold abandonTasks
  repeat (any_goals first | with_reducible assumption | with_reducible apply kept_modDom | split | with_reducible intro _ | exact List.Subset.trans (by decide) hk0)

theorem kept_abortSolvers {ps0 : List Part} {r0 : State} (d : DomId) (s : State) (hg0 : Kept ps0 r0 s) (hk0 : [.cores, .solvers] ⊆ ps0) : Kept ps0 r0 (abortSolvers d s) := by
  unfold abortSolvers
  repeat (any_goals first | with_reducible assumption | with_reducible apply kept_lsAbortQueue | (with_reducible apply kept_foldl; rotate_left; intro _ _ _) | (with_reducible apply kept_foldl2; rotate_left; intro _ _ _) | split | with_reducible intro _ | exact List.Subset.trans (by decide) hk0)

theorem kept_stopCore {ps0 : List Part} {r0 : State} (c : CoreId) (s : State) (hg0 : Kept ps0 r0 s) (hk0 : [.cores] ⊆ ps0) : Kept ps0 r0 (stopCore c s) := by
  unfold stopCore
  repeat (any_goals first | with_reducible assumption | with_reducible apply kept_modCore | split | with_reducible intro _ | exact List.Subset.trans (by decide) hk0)

theorem kept_dropLane {ps0 : List Part} {r0 : State} (l : Fin 3) (g : Fin 2) (s : State) (hg0 : Kept ps0 r0 s) (hk0 : [.cores, .doms] ⊆ ps0) : Kept ps0 r0 (dropLane l g s) := by
  unfold dropLane
  repeat (any_goals first | with_reducible assumption | with_reducible apply kept_stopCore | with_reducible apply kept_modDom | split | with_reducible intro _ | exact List.Subset.trans (by decide) hk0)

theorem kept_hsbFault {ps0 : List Part} {r0 : State} (d : DomId) (s : State) (hg0 : Kept ps0 r0 s) (hk0 : [.sync] ⊆ ps0) : Kept ps0 r0 (hsbFault d s) := by
  unfold hsbFault
  repeat (any_goals first | with_reducible assumption | split | with_reducible apply kept_upd_sync | with_reducible intro _ | exact List.Subset.trans (by decide) hk0)

theorem kept_sendRelinquish {ps0 : List Part} {r0 : State} (m : Long) (s : State) (hg0 : Kept ps0 r0 s) (hk0 : [.sync] ⊆ ps0) : Kept ps0 r0 (sendRelinquish m s) := by
  unfold sendRelinquish
  repeat (any_goals first | with_reducible assumption | with_reducible apply kept_sendSync | split | with_reducible apply kept_upd_sync | with_reducible intro _ | exact List.Subset.trans (by decide) hk0)

theorem kept_changeStop {ps0 : List Part} {r0 : State} (name : String) (d : DomId) (s : State) (hg0 : Kept ps0 r0 s) (hk0 : [.doms, .hsb, .sync, .mbx, .arb, .log] ⊆ ps0) : Kept ps0 r0 (changeStop name d s) := by
  unfold changeStop
  try dsimp only
  repeat (any_goals first | with_reducible assumption | with_reducible apply kept_swapped | with_reducible apply kept_modDom | with_reducible apply kept_finishRefusedOpt | with_reducible apply kept_setChg | split | with_reducible apply kept_upd_doms | with_reducible apply kept_upd_log | with_reducible apply kept_upd_hsb | with_reducible apply kept_upd_arb | with_reducible apply kept_upd_sync | with_reducible apply kept_upd_mbx | with_reducible intro _ | exact List.Subset.trans (by decide) hk0)

theorem kept_changeLeave {ps0 : List Part} {r0 : State} (d : DomId) (s : State) (hg0 : Kept ps0 r0 s) (hk0 : [.doms, .hsb, .sync, .mbx, .arb, .log] ⊆ ps0) : Kept ps0 r0 (changeLeave d s) := by
  unfold changeLeave
  repeat (any_goals first | with_reducible assumption | with_reducible apply kept_changeStop | split | with_reducible intro _ | exact List.Subset.trans (by decide) hk0)

theorem kept_reintEnd {ps0 : List Part} {r0 : State} (result : Byte) (s : State) (hg0 : Kept ps0 r0 s) (hk0 : [.cores, .doms, .voter, .boot, .log] ⊆ ps0) : Kept ps0 r0 (reintEnd result s) := by
  unfold reintEnd
  try dsimp only
  repeat (any_goals first | with_reducible assumption | with_reducible apply kept_modReint | with_reducible apply kept_addLog | with_reducible apply kept_setPd | with_reducible apply kept_modGroup | with_reducible apply kept_dropLane | (with_reducible apply kept_foldl; rotate_left; intro _ _ _) | (with_reducible apply kept_foldl2; rotate_left; intro _ _ _) | split | with_reducible apply kept_upd_cores | with_reducible apply kept_upd_voter | with_reducible apply kept_upd_doms | with_reducible apply kept_upd_log | with_reducible apply kept_upd_boot | with_reducible intro _ | exact List.Subset.trans (by decide) hk0)

theorem kept_permitsOff {ps0 : List Part} {r0 : State} (s : State) (hg0 : Kept ps0 r0 s) (hk0 : [.fg] ⊆ ps0) : Kept ps0 r0 (permitsOff s) := by
  unfold permitsOff
  repeat (any_goals first | with_reducible assumption | split | with_reducible apply kept_upd_fg | with_reducible intro _ | exact List.Subset.trans (by decide) hk0)

theorem kept_safetyOff {ps0 : List Part} {r0 : State} (g : Fin 2) (s : State) (hg0 : Kept ps0 r0 s) (hk0 : [.doms] ⊆ ps0) : Kept ps0 r0 (safetyOff g s) := by
  unfold safetyOff
  repeat (any_goals first | with_reducible assumption | with_reducible apply kept_modDom | split | with_reducible intro _ | exact List.Subset.trans (by decide) hk0)

theorem kept_refusePending {ps0 : List Part} {r0 : State} (code : Byte) (name : String) (s : State) (hg0 : Kept ps0 r0 s) (hk0 : [.sync, .mbx, .arb] ⊆ ps0) : Kept ps0 r0 (refusePending code name s) := by
  unfold refusePending
  repeat (any_goals first | with_reducible assumption | with_reducible apply kept_finishRefused | (with_reducible apply kept_foldl; rotate_left; intro _ _ _) | (with_reducible apply kept_foldl2; rotate_left; intro _ _ _) | split | with_reducible apply kept_upd_arb | with_reducible intro _ | exact List.Subset.trans (by decide) hk0)

theorem kept_enterSafe {ps0 : List Part} {r0 : State} (cause : Nat) (grp : Option (Fin 2)) (s : State) (hg0 : Kept ps0 r0 s) (hk0 : [.cores, .doms, .voter, .hsb, .sync, .fg, .mbx, .ps, .boot, .arb, .log] ⊆ ps0) : Kept ps0 r0 (enterSafe cause grp s) := by
  unfold enterSafe
  repeat (any_goals first | with_reducible assumption | with_reducible apply kept_ringEvent | with_reducible apply kept_addLog | with_reducible apply kept_setRole | with_reducible apply kept_sendRelinquish | with_reducible apply kept_permitsOff | with_reducible apply kept_stopCore | with_reducible apply kept_reintEnd | with_reducible apply kept_abandonTasks | with_reducible apply kept_changeLeave | with_reducible apply kept_modGroup | with_reducible apply kept_safetyOff | with_reducible apply kept_setMembers | with_reducible apply kept_setOper | with_reducible apply kept_refusePending | (with_reducible apply kept_foldl; rotate_left; intro _ _ _) | (with_reducible apply kept_foldl2; rotate_left; intro _ _ _) | split | with_reducible apply kept_upd_voter_arb | with_reducible intro _ | exact List.Subset.trans (by decide) hk0)

theorem kept_excludeFrom {ps0 : List Part} {r0 : State} (l : Fin 3) (g : Fin 2) (s : State) (hg0 : Kept ps0 r0 s) (hk0 : [.cores, .doms, .voter, .hsb, .sync, .fg, .mbx, .ps, .boot, .arb, .log] ⊆ ps0) : Kept ps0 r0 (excludeFrom l g s) := by
  unfold excludeFrom
  try dsimp only
  repeat (any_goals first | with_reducible assumption | with_reducible apply kept_setMembers | with_reducible apply kept_modGroup | with_reducible apply kept_enterSafe | with_reducible apply kept_hsbFault | with_reducible apply kept_changeStop | with_reducible apply kept_dropLane | split | with_reducible apply kept_upd_voter_arb | with_reducible apply kept_upd_cores | with_reducible apply kept_upd_voter | with_reducible apply kept_upd_doms | with_reducible apply kept_upd_log | with_reducible apply kept_upd_hsb | with_reducible apply kept_upd_arb | with_reducible apply kept_upd_boot | with_reducible apply kept_upd_sync | with_reducible apply kept_upd_fg | with_reducible apply kept_upd_mbx | with_reducible apply kept_upd_ps | with_reducible intro _ | exact List.Subset.trans (by decide) hk0)

theorem kept_excludeLane {ps0 : List Part} {r0 : State} (l : Fin 3) (cause : Nat) (g : Option (Fin 2)) (s : State) (hg0 : Kept ps0 r0 s) (hk0 : [.cores, .doms, .voter, .hsb, .sync, .fg, .mbx, .ps, .boot, .arb, .log] ⊆ ps0) : Kept ps0 r0 (excludeLane l cause g s) := by
  unfold excludeLane
  repeat (any_goals first | with_reducible assumption | with_reducible apply kept_excludeFrom | with_reducible apply kept_modReint | with_reducible apply kept_addLog | with_reducible apply kept_modLane | (with_reducible apply kept_foldl; rotate_left; intro _ _ _) | (with_reducible apply kept_foldl2; rotate_left; intro _ _ _) | split | with_reducible intro _ | exact List.Subset.trans (by decide) hk0)

theorem kept_laneCause {ps0 : List Part} {r0 : State} (l : Fin 3) (cause : Nat) (s : State) (hg0 : Kept ps0 r0 s) (hk0 : [.cores, .doms, .voter, .hsb, .sync, .fg, .mbx, .ps, .boot, .arb, .log] ⊆ ps0) : Kept ps0 r0 (laneCause l cause s) := by
  unfold laneCause
  repeat (any_goals first | with_reducible assumption | with_reducible apply kept_excludeLane | split | with_reducible intro _ | exact List.Subset.trans (by decide) hk0)

theorem kept_pairStop {ps0 : List Part} {r0 : State} (n : Fin 4) (kind : Option (Fin 8 × Word)) (s : State) (hg0 : Kept ps0 r0 s) (hk0 : [.cores, .doms, .pairs, .solvers, .hsb, .sync, .mbx, .arb, .log] ⊆ ps0) : Kept ps0 r0 (pairStop n kind s) := by
  unfold pairStop
  repeat (any_goals first | with_reducible assumption | with_reducible apply kept_setRun | with_reducible apply kept_hsbFault | with_reducible apply kept_modDom | with_reducible apply kept_abortSolvers | with_reducible apply kept_abandonTasks | with_reducible apply kept_changeLeave | with_reducible apply kept_modPair | with_reducible apply kept_stopCore | split | with_reducible intro _ | exact List.Subset.trans (by decide) hk0)

theorem kept_secondRung {ps0 : List Part} {r0 : State} (cause src : Nat) (s : State) (hg0 : Kept ps0 r0 s) (hk0 : [.cores, .doms, .voter, .hsb, .sync, .fg, .mbx, .esc, .ps, .boot, .arb, .log] ⊆ ps0) : Kept ps0 r0 (secondRung cause src s) := by
  unfold secondRung
  repeat (any_goals first | with_reducible assumption | with_reducible apply kept_enterSafe | with_reducible apply kept_psRecord | split | with_reducible apply kept_upd_esc | with_reducible intro _ | exact List.Subset.trans (by decide) hk0)

theorem kept_ladder {ps0 : List Part} {r0 : State} (cause src : Nat) (s : State) (hg0 : Kept ps0 r0 s) (hk0 : [.cores, .doms, .voter, .hsb, .sync, .fg, .mbx, .esc, .ps, .boot, .arb, .log] ⊆ ps0) : Kept ps0 r0 (ladder cause src s) := by
  unfold ladder
  repeat (any_goals first | with_reducible assumption | with_reducible apply kept_secondRung | with_reducible apply kept_addLog | split | with_reducible apply kept_upd_esc | with_reducible intro _ | exact List.Subset.trans (by decide) hk0)

theorem kept_ladderRestart {ps0 : List Part} {r0 : State} (i : Fin 5) (s : State) (hg0 : Kept ps0 r0 s) (hk0 : [.esc] ⊆ ps0) : Kept ps0 r0 (ladderRestart i s) := by
  unfold ladderRestart
  repeat (any_goals first | with_reducible assumption | split | with_reducible apply kept_upd_esc | with_reducible intro _ | exact List.Subset.trans (by decide) hk0)

theorem kept_pairFault {ps0 : List Part} {r0 : State} (n : Fin 4) (kind : Option (Fin 8 × Word)) (cause : Nat) (s : State) (hg0 : Kept ps0 r0 s) (hk0 : [.cores, .doms, .pairs, .voter, .solvers, .hsb, .sync, .fg, .mbx, .esc, .ps, .boot, .arb, .log] ⊆ ps0) : Kept ps0 r0 (pairFault n kind cause s) := by
  unfold pairFault
  repeat (any_goals first | with_reducible assumption | with_reducible apply kept_pairStop | with_reducible apply kept_ladder | split | with_reducible intro _ | exact List.Subset.trans (by decide) hk0)

theorem kept_pairFaultKind {ps0 : List Part} {r0 : State} (n : Fin 4) (kind : Fin 8) (a : Word) (s : State) (hg0 : Kept ps0 r0 s) (hk0 : [.cores, .doms, .pairs, .voter, .solvers, .hsb, .sync, .fg, .mbx, .esc, .ps, .boot, .arb, .log] ⊆ ps0) : Kept ps0 r0 (pairFaultKind n kind a s) := by
  unfold pairFaultKind
  repeat (any_goals first | with_reducible assumption | with_reducible apply kept_pairFault | split | with_reducible intro _ | exact List.Subset.trans (by decide) hk0)

theorem kept_stewardRestart {ps0 : List Part} {r0 : State} (s : State) (hg0 : Kept ps0 r0 s) (hk0 : [.cores, .doms, .ring, .mbx, .update, .ps] ⊆ ps0) : Kept ps0 r0 (stewardRestart s) := by
  unfold stewardRestart
  repeat (any_goals first | with_reducible assumption | with_reducible apply kept_modCore | split | with_reducible apply kept_upd_doms_ring_mbx_update_ps | with_reducible intro _ | exact List.Subset.trans (by decide) hk0)

theorem kept_laneHalt {ps0 : List Part} {r0 : State} (l : Fin 3) (gs : List (Fin 2)) (cause : Nat) (s : State) (hg0 : Kept ps0 r0 s) (hk0 : [.cores, .doms, .voter, .hsb, .sync, .fg, .mbx, .esc, .ps, .boot, .arb, .log] ⊆ ps0) : Kept ps0 r0 (laneHalt l gs cause s) := by
  unfold laneHalt
  try dsimp only
  repeat (any_goals first | with_reducible assumption | with_reducible apply kept_enterSafe | with_reducible apply kept_secondRung | with_reducible apply kept_ladder | with_reducible apply kept_stopCore | with_reducible apply kept_modGroup | (with_reducible apply kept_foldl; rotate_left; intro _ _ _) | (with_reducible apply kept_foldl2; rotate_left; intro _ _ _) | split | with_reducible apply kept_upd_voter_arb | with_reducible apply kept_upd_cores | with_reducible apply kept_upd_voter | with_reducible apply kept_upd_doms | with_reducible apply kept_upd_esc | with_reducible apply kept_upd_log | with_reducible apply kept_upd_hsb | with_reducible apply kept_upd_arb | with_reducible apply kept_upd_boot | with_reducible apply kept_upd_sync | with_reducible apply kept_upd_fg | with_reducible apply kept_upd_mbx | with_reducible apply kept_upd_ps | with_reducible intro _ | exact List.Subset.trans (by decide) hk0)

theorem kept_sealArea {ps0 : List Part} {r0 : State} (n : Fin 4) (s : State) (hg0 : Kept ps0 r0 s) (hk0 : [.doms] ⊆ ps0) : Kept ps0 r0 (sealArea n s) := by
  unfold sealArea
  try dsimp only
  repeat (any_goals first | with_reducible assumption | with_reducible apply kept_modDom | split | with_reducible apply kept_upd_doms | with_reducible intro _ | exact List.Subset.trans (by decide) hk0)

theorem kept_countAf {ps0 : List Part} {r0 : State} (m : Master) (s : State) (hg0 : Kept ps0 r0 s) (hk0 : [.memRegs] ⊆ ps0) : Kept ps0 r0 (countAf m s) := by
  unfold countAf
  repeat (any_goals first | with_reducible assumption | split | with_reducible apply kept_upd_memRegs | with_reducible intro _ | exact List.Subset.trans (by decide) hk0)

theorem kept_correctWord {ps0 : List Part} {r0 : State} (code w : Nat) (s : State) (hg0 : Kept ps0 r0 s) (hk0 : [.memRegs, .memErrs] ⊆ ps0) : Kept ps0 r0 (correctWord code w s) := by
  unfold correctWord
  repeat (any_goals first | with_reducible assumption | split | with_reducible apply kept_upd_memRegs_memErrs | with_reducible intro _ | exact List.Subset.trans (by decide) hk0)

theorem kept_poisonWords {ps0 : List Part} {r0 : State} (code : Nat) (ws : List Nat) (s : State) (hg0 : Kept ps0 r0 s) (hk0 : [.memErrs] ⊆ ps0) : Kept ps0 r0 (poisonWords code ws s) := by
  unfold poisonWords
  repeat (any_goals first | with_reducible assumption | split | with_reducible apply kept_upd_memErrs | with_reducible intro _ | exact List.Subset.trans (by decide) hk0)

theorem kept_recordErr {ps0 : List Part} {r0 : State} (code line who : Nat) (k : ErrKind) (s : State) (hg0 : Kept ps0 r0 s) (hk0 : [.memRegs] ⊆ ps0) : Kept ps0 r0 (recordErr code line who k s) := by
  unfold recordErr
  repeat (any_goals first | with_reducible assumption | split | with_reducible apply kept_upd_memRegs | with_reducible intro _ | exact List.Subset.trans (by decide) hk0)

theorem kept_laneMemErr {ps0 : List Part} {r0 : State} (code : Nat) (s : State) (hg0 : Kept ps0 r0 s) (hk0 : [.cores, .doms, .voter, .hsb, .sync, .fg, .mbx, .ps, .boot, .arb, .log] ⊆ ps0) : Kept ps0 r0 (laneMemErr code s) := by
  unfold laneMemErr
  repeat (any_goals first | with_reducible assumption | with_reducible apply kept_laneCause | split | with_reducible intro _ | exact List.Subset.trans (by decide) hk0)

theorem kept_checkWord {ps0 : List Part} {r0 : State} (who code w : Nat) (s : State) (hg0 : Kept ps0 r0 s) (hk0 : [.memRegs, .memErrs] ⊆ ps0) : Kept ps0 r0 (checkWord who code w s).2.2 := by
  unfold checkWord
  repeat (any_goals first | with_reducible assumption | with_reducible apply kept_poisonWords | with_reducible apply kept_correctWord | with_reducible apply kept_recordErr | split | with_reducible intro _ | exact List.Subset.trans (by decide) hk0)

theorem kept_checkLine {ps0 : List Part} {r0 : State} (who code l : Nat) (s : State) (hg0 : Kept ps0 r0 s) (hk0 : [.memRegs, .memErrs] ⊆ ps0) : Kept ps0 r0 (checkLine who code l s).2.2 := by
  unfold checkLine
  dsimp only
  generalize hz : List.foldl _ _ _ = z
  have h : Kept ps0 r0 z.2.2 := by
    rw [← hz]
    apply kept_foldl3 hg0
    intro a x h
    split
    · exact h
    · exact kept_checkWord _ _ _ _ h (List.Subset.trans (by decide) hk0)
  have w : ∀ x k t, Kept ps0 r0 t → Kept ps0 r0 (poisonWords code x (recordErr code l who k t)) := fun x k t ht =>
    kept_poisonWords _ _ _ (kept_recordErr _ _ _ _ _ ht (List.Subset.trans (by decide) hk0)) (List.Subset.trans (by decide) hk0)
  have e : ∀ t v, Kept ps0 r0 t → Kept ps0 r0 (State.mk t.pending t.cyc t.cores t.doms t.pairs t.mem t.memRegs v t.banks t.voter t.solvers t.rmus t.ixl t.conns t.ring t.rtm t.hsb t.sync t.fg t.fgErr t.mbx t.update t.wdg t.cim t.esc t.rtc t.ps t.arch t.boot t.power t.arb t.fuses t.dbg t.log t.bus t.freeCtr) := fun t v ht =>
    kept_upd_memErrs ht (List.Subset.trans (by decide) hk0)
  split
  · exact h
  · split
    · exact w _ _ _ h
    · split
      · exact w _ _ _ (e _ _ h)
      · exact e _ _ h

theorem kept_raiseCorrected {ps0 : List Part} {r0 : State} (c : CoreId) (s : State) (hg0 : Kept ps0 r0 s) (hk0 : [.cores] ⊆ ps0) : Kept ps0 r0 (raiseCorrected c s) := by
  unfold raiseCorrected
  repeat (any_goals first | with_reducible assumption | with_reducible apply kept_raiseGroup | with_reducible apply kept_raiseIrq | (with_reducible apply kept_foldl; rotate_left; intro _ _ _) | (with_reducible apply kept_foldl2; rotate_left; intro _ _ _) | split | with_reducible intro _ | exact List.Subset.trans (by decide) hk0)

theorem kept_raiseCorrectedLane {ps0 : List Part} {r0 : State} (l : Fin 3) (s : State) (hg0 : Kept ps0 r0 s) (hk0 : [.cores] ⊆ ps0) : Kept ps0 r0 (raiseCorrectedLane l s) := by
  unfold raiseCorrectedLane
  repeat (any_goals first | with_reducible assumption | with_reducible apply kept_raiseCorrected | split | with_reducible intro _ | exact List.Subset.trans (by decide) hk0)

theorem kept_extDecode {ps0 : List Part} {r0 : State} (who line : Nat) (s : State) (hg0 : Kept ps0 r0 s) (hk0 : [.memRegs, .memErrs, .log] ⊆ ps0) : Kept ps0 r0 (extDecode who line s).2 := by
  unfold extDecode
  try dsimp only
  repeat (any_goals first | with_reducible assumption | with_reducible apply kept_addLog | with_reducible apply kept_recordErr | split | with_reducible apply kept_upd_memRegs_memErrs | with_reducible apply kept_upd_log | with_reducible apply kept_upd_memErrs | with_reducible apply kept_upd_memRegs | with_reducible intro _ | exact List.Subset.trans (by decide) hk0)

theorem kept_extClear {ps0 : List Part} {r0 : State} (line : Nat) (s : State) (hg0 : Kept ps0 r0 s) (hk0 : [.memErrs] ⊆ ps0) : Kept ps0 r0 (extClear line s) := by
  unfold extClear
  repeat (any_goals first | with_reducible assumption | split | with_reducible apply kept_upd_memErrs | with_reducible intro _ | exact List.Subset.trans (by decide) hk0)

theorem kept_storeRot {ps0 : List Part} {r0 : State} (c : Option CoreId) (code off n : Nat) (v : Nat) (s : State) (hg0 : Kept ps0 r0 s) (hk0 : [.cores, .doms, .mem, .voter, .solvers, .freeCtr] ⊆ ps0) : Kept ps0 r0 (storeRot c code off n v s) := by
  unfold storeRot
  repeat (any_goals first | with_reducible assumption | with_reducible apply kept_store | (with_reducible apply kept_foldl; rotate_left; intro _ _ _) | (with_reducible apply kept_foldl2; rotate_left; intro _ _ _) | split | with_reducible intro _ | exact List.Subset.trans (by decide) hk0)

theorem kept_collide {ps0 : List Part} {r0 : State} (who cls code w : Nat) (meet : Option Meet) (s : State) (hg0 : Kept ps0 r0 s) (hk0 : [.memRegs] ⊆ ps0) : Kept ps0 r0 (collide who cls code w meet s).2 := by
  unfold collide
  repeat (any_goals first | with_reducible assumption | split | with_reducible apply kept_upd_memRegs | with_reducible intro _ | exact List.Subset.trans (by decide) hk0)

theorem kept_clearWord {ps0 : List Part} {r0 : State} (code w : Nat) (s : State) (hg0 : Kept ps0 r0 s) (hk0 : [.memErrs] ⊆ ps0) : Kept ps0 r0 (clearWord code w s) := by
  unfold clearWord
  repeat (any_goals first | with_reducible assumption | split | with_reducible apply kept_upd_memErrs | with_reducible intro _ | exact List.Subset.trans (by decide) hk0)

theorem kept_clearLine {ps0 : List Part} {r0 : State} (code l : Nat) (s : State) (hg0 : Kept ps0 r0 s) (hk0 : [.memErrs] ⊆ ps0) : Kept ps0 r0 (clearLine code l s) := by
  unfold clearLine
  repeat (any_goals first | with_reducible assumption | with_reducible apply kept_clearWord | (with_reducible apply kept_foldl; rotate_left; intro _ _ _) | (with_reducible apply kept_foldl2; rotate_left; intro _ _ _) | split | with_reducible apply kept_upd_memErrs | with_reducible intro _ | exact List.Subset.trans (by decide) hk0)

theorem kept_wakeBank {ps0 : List Part} {r0 : State} (b : Fin 33) (s : State) (hg0 : Kept ps0 r0 s) (hk0 : [.memRegs, .banks] ⊆ ps0) : Kept ps0 r0 (wakeBank b s) := by
  unfold wakeBank
  repeat (any_goals first | with_reducible assumption | split | with_reducible apply kept_upd_memRegs_banks | with_reducible intro _ | exact List.Subset.trans (by decide) hk0)

theorem kept_storeHeld {ps0 : List Part} {r0 : State} (by_ : Option CoreId) (code off : Nat) (bs : List Byte) (s : State) (hg0 : Kept ps0 r0 s) (hk0 : [.cores, .doms, .mem, .memRegs, .banks, .voter, .solvers, .freeCtr] ⊆ ps0) : Kept ps0 r0 (storeHeld by_ code off bs s) := by
  unfold storeHeld
  repeat (any_goals first | with_reducible assumption | with_reducible apply kept_wakeBank | with_reducible apply kept_store | split | with_reducible apply kept_upd_memRegs | with_reducible intro _ | exact List.Subset.trans (by decide) hk0)

theorem kept_regAt {ps0 : List Part} {r0 : State} (p : Pd) (m : Master) (f : State → State) (s : State) (hf : ∀ t, Kept ps0 r0 t → Kept ps0 r0 (f t)) (hg0 : Kept ps0 r0 s) (hk0 : [.memRegs, .bus] ⊆ ps0) : Kept ps0 r0 (regAt p m f s) := by
  unfold regAt answer countAf
  repeat (any_goals first | with_reducible assumption | with_reducible apply hf | split | with_reducible apply kept_upd_bus | with_reducible apply kept_upd_memRegs | with_reducible apply kept_upd_solvers | exact List.Subset.trans (by decide) hk0)

theorem kept_retire {ps0 : List Part} {r0 : State} (c : CoreId) (e : Eff) (s : State) (hg0 : Kept ps0 r0 s) (hk0 : [.cores] ⊆ ps0) : Kept ps0 r0 (retire c e s) := by
  unfold retire
  repeat (any_goals first | with_reducible assumption | with_reducible apply kept_modArch | split | with_reducible intro _ | exact List.Subset.trans (by decide) hk0)

theorem kept_doubleTrap {ps0 : List Part} {r0 : State} (c : CoreId) (s : State) (hg0 : Kept ps0 r0 s) (hk0 : [.cores, .doms, .pairs, .voter, .solvers, .hsb, .sync, .fg, .mbx, .esc, .ps, .boot, .arb, .log] ⊆ ps0) : Kept ps0 r0 (doubleTrap c s) := by
  unfold doubleTrap
  repeat (any_goals first | with_reducible assumption | with_reducible apply kept_stopCore | with_reducible apply kept_excludeLane | with_reducible apply kept_pairFault | split | with_reducible intro _ | exact List.Subset.trans (by decide) hk0)

theorem kept_endTask {ps0 : List Part} {r0 : State} (c : CoreId) (s : State) (hg0 : Kept ps0 r0 s) (hk0 : [.cores, .doms] ⊆ ps0) : Kept ps0 r0 (endTask c s) := by
  unfold endTask
  repeat (any_goals first | with_reducible assumption | with_reducible apply kept_modCore | with_reducible apply kept_modDom | split | with_reducible intro _ | exact List.Subset.trans (by decide) hk0)

theorem kept_trapFault {ps0 : List Part} {r0 : State} (c : CoreId) (t : Trap) (before : Arch) (s : State) (hg0 : Kept ps0 r0 s) (hk0 : [.cores, .doms, .pairs, .memErrs, .voter, .solvers, .hsb, .sync, .fg, .mbx, .esc, .ps, .boot, .arb, .log] ⊆ ps0) : Kept ps0 r0 (trapFault c t before s) := by
  unfold trapFault
  try dsimp only
  repeat (any_goals first | with_reducible assumption | with_reducible apply kept_clearLine | with_reducible apply kept_endTask | with_reducible apply kept_modGroup | with_reducible apply kept_excludeLane | with_reducible apply kept_pairFault | split | with_reducible apply kept_upd_voter_arb | with_reducible apply kept_upd_cores | with_reducible apply kept_upd_voter | with_reducible apply kept_upd_doms | with_reducible apply kept_upd_esc | with_reducible apply kept_upd_log | with_reducible apply kept_upd_hsb | with_reducible apply kept_upd_arb | with_reducible apply kept_upd_boot | with_reducible apply kept_upd_sync | with_reducible apply kept_upd_memErrs | with_reducible apply kept_upd_solvers | with_reducible apply kept_upd_fg | with_reducible apply kept_upd_mbx | with_reducible apply kept_upd_pairs | with_reducible apply kept_upd_ps | with_reducible intro _ | exact List.Subset.trans (by decide) hk0)

theorem kept_trapHandled {ps0 : List Part} {r0 : State} (c : CoreId) (t : Trap) (word : Word) (before : Arch) (s : State) (hg0 : Kept ps0 r0 s) (hk0 : [.cores, .doms, .pairs, .memErrs, .voter, .solvers, .hsb, .sync, .fg, .mbx, .esc, .ps, .boot, .arb, .log] ⊆ ps0) : Kept ps0 r0 (trapHandled c t word before s) := by
  unfold trapHandled
  try dsimp only
  repeat (any_goals first | with_reducible assumption | with_reducible apply kept_trapFault | split | with_reducible apply kept_upd_voter_arb | with_reducible apply kept_upd_cores | with_reducible apply kept_upd_voter | with_reducible apply kept_upd_doms | with_reducible apply kept_upd_esc | with_reducible apply kept_upd_log | with_reducible apply kept_upd_hsb | with_reducible apply kept_upd_arb | with_reducible apply kept_upd_boot | with_reducible apply kept_upd_sync | with_reducible apply kept_upd_memErrs | with_reducible apply kept_upd_solvers | with_reducible apply kept_upd_fg | with_reducible apply kept_upd_mbx | with_reducible apply kept_upd_pairs | with_reducible apply kept_upd_ps | with_reducible intro _ | exact List.Subset.trans (by decide) hk0)

theorem kept_takeTrap {ps0 : List Part} {r0 : State} (c : CoreId) (t : Trap) (word : Word) (s : State) (hg0 : Kept ps0 r0 s) (hk0 : [.cores, .doms, .pairs, .memErrs, .voter, .solvers, .hsb, .sync, .fg, .mbx, .esc, .ps, .boot, .arb, .log] ⊆ ps0) : Kept ps0 r0 (takeTrap c t word s) := by
  unfold takeTrap
  try dsimp only
  repeat (any_goals first | with_reducible assumption | with_reducible apply kept_modArch | with_reducible apply kept_trapHandled | with_reducible apply kept_doubleTrap | split | with_reducible apply kept_upd_voter_arb | with_reducible apply kept_upd_cores | with_reducible apply kept_upd_voter | with_reducible apply kept_upd_doms | with_reducible apply kept_upd_esc | with_reducible apply kept_upd_log | with_reducible apply kept_upd_hsb | with_reducible apply kept_upd_arb | with_reducible apply kept_upd_boot | with_reducible apply kept_upd_sync | with_reducible apply kept_upd_memErrs | with_reducible apply kept_upd_solvers | with_reducible apply kept_upd_fg | with_reducible apply kept_upd_mbx | with_reducible apply kept_upd_pairs | with_reducible apply kept_upd_ps | with_reducible intro _ | exact List.Subset.trans (by decide) hk0)

theorem kept_leaveWait {ps0 : List Part} {r0 : State} (c : CoreId) (s : State) (hg0 : Kept ps0 r0 s) (hk0 : [.cores] ⊆ ps0) : Kept ps0 r0 (leaveWait c s) := by
  unfold leaveWait
  repeat (any_goals first | with_reducible assumption | with_reducible apply kept_modCore | with_reducible apply kept_retire | split | with_reducible intro _ | exact List.Subset.trans (by decide) hk0)

theorem kept_echoHaltAt {ps0 : List Part} {r0 : State} (n : Fin 4) (s : State) (hg0 : Kept ps0 r0 s) (hk0 : [.cores, .pairs] ⊆ ps0) : Kept ps0 r0 (echoHaltAt n s) := by
  unfold echoHaltAt
  try dsimp only
  repeat (any_goals first | with_reducible assumption | with_reducible apply kept_modCore | with_reducible apply kept_modPair | split | with_reducible apply kept_upd_cores | with_reducible apply kept_upd_pairs | with_reducible intro _ | exact List.Subset.trans (by decide) hk0)

theorem kept_brkCheck {ps0 : List Part} {r0 : State} (n : Fin 4) (s : State) (hg0 : Kept ps0 r0 s) (hk0 : [.cores, .pairs] ⊆ ps0) : Kept ps0 r0 (brkCheck n s) := by
  unfold brkCheck
  repeat (any_goals first | with_reducible assumption | with_reducible apply kept_echoHaltAt | split | with_reducible intro _ | exact List.Subset.trans (by decide) hk0)

theorem kept_fetchTrap {ps0 : List Part} {r0 : State} (c : CoreId) (s : State) (hg0 : Kept ps0 r0 s) (hk0 : [.cores, .memRegs, .memErrs] ⊆ ps0) : Kept ps0 r0 (fetchTrap c s).2 := by
  unfold fetchTrap
  dsimp only
  repeat (any_goals first | with_reducible assumption | with_reducible apply kept_raiseCorrected | with_reducible apply kept_checkLine | split | with_reducible intro _ | exact List.Subset.trans (by decide) hk0)

theorem kept_maskWrite {ps0 : List Part} {r0 : State} (c : CoreId) (code : Nat) (w : WordWrite) (s : State) (hg0 : Kept ps0 r0 s) (hk0 : [.cores, .doms, .mem, .voter, .solvers, .freeCtr] ⊆ ps0) : Kept ps0 r0 (maskWrite c code w s) := by
  unfold maskWrite
  repeat (any_goals first | with_reducible assumption | with_reducible apply kept_store | (with_reducible apply kept_foldl; rotate_left; intro _ _ _) | (with_reducible apply kept_foldl2; rotate_left; intro _ _ _) | split | with_reducible intro _ | exact List.Subset.trans (by decide) hk0)

theorem kept_maskCollide {ps0 : List Part} {r0 : State} (c : CoreId) (code : Nat) (w : WordWrite) (meet : Option Meet) (s : State) (hg0 : Kept ps0 r0 s) (hk0 : [.cores, .doms, .mem, .memRegs, .voter, .solvers, .freeCtr] ⊆ ps0) : Kept ps0 r0 (maskCollide c code w meet s).2 := by
  unfold maskCollide
  try dsimp only
  repeat (any_goals first | with_reducible assumption | with_reducible apply kept_maskWrite | with_reducible apply kept_collide | split | with_reducible apply kept_upd_cores | with_reducible apply kept_upd_voter | with_reducible apply kept_upd_doms | with_reducible apply kept_upd_mem | with_reducible apply kept_upd_solvers | with_reducible apply kept_upd_memRegs | with_reducible apply kept_upd_freeCtr | with_reducible intro _ | exact List.Subset.trans (by decide) hk0)

theorem kept_readWords {ps0 : List Part} {r0 : State} (c : CoreId) (code : Nat) (ws : List Nat) (s : State) (hg0 : Kept ps0 r0 s) (hk0 : [.cores, .memRegs, .memErrs] ⊆ ps0) : Kept ps0 r0 (readWords c code ws s).2 := by
  unfold readWords
  try dsimp only
  repeat (any_goals first | with_reducible assumption | with_reducible apply kept_raiseCorrected | with_reducible apply kept_checkWord | (with_reducible apply kept_foldl; rotate_left; intro _ _ _) | (with_reducible apply kept_foldl2; rotate_left; intro _ _ _) | split | with_reducible apply kept_upd_memRegs_memErrs | with_reducible apply kept_upd_cores | with_reducible apply kept_upd_memErrs | with_reducible apply kept_upd_memRegs | with_reducible intro _ | exact List.Subset.trans (by decide) hk0)

theorem kept_contribute {ps0 : List Part} {r0 : State} (l : Fin 3) (g : Fin 2) (x : Contrib) (s : State) (hg0 : Kept ps0 r0 s) (hk0 : [.voter] ⊆ ps0) : Kept ps0 r0 (contribute l g x s) := by
  unfold contribute
  repeat (any_goals first | with_reducible assumption | with_reducible apply kept_modGroup | split | with_reducible intro _ | exact List.Subset.trans (by decide) hk0)

theorem kept_rmuOp {ps0 : List Part} {r0 : State} (l : Fin 3) (op : Fin 3) (v : Word) (s : State) (hg0 : Kept ps0 r0 s) (hk0 : [.cores, .doms, .mem, .memRegs, .memErrs, .voter, .solvers, .rmus, .hsb, .sync, .fg, .mbx, .ps, .boot, .arb, .log, .freeCtr] ⊆ ps0) : Kept ps0 r0 (rmuOp l op v s).2 := by
  unfold rmuOp
  extract_lets r code upd s1 res n lv row words z s2 bit locked setLock
  have u : ∀ (f : Rmu → Rmu) (t : State), Kept ps0 r0 t → Kept ps0 r0 (upd f t) := fun f t ht => kept_upd_rmus ht (List.Subset.trans (by decide) hk0)
  clear_value upd
  have h1 : Kept ps0 r0 s1 := u _ _ hg0
  clear_value s1
  split
  · exact u _ _ h1
  · split
    · exact h1
    · have hz : Kept ps0 r0 z.2 := kept_readWords _ _ _ _ h1 (List.Subset.trans (by decide) hk0)
      clear_value z
      split
      · exact kept_laneMemErr _ _ (u _ _ hz) (List.Subset.trans (by decide) hk0)
      · have hs : ∀ b t, Kept ps0 r0 t → Kept ps0 r0 (setLock b t) := fun b t ht => kept_store _ _ _ _ _ ht (List.Subset.trans (by decide) hk0)
        clear_value setLock locked bit
        generalize List.find? _ _ = o
        repeat (any_goals first | exact hz | exact hs _ _ hz | exact u _ _ hz | split)

end Sys2Proof.Laws
end

