-- ==== Sys2Proof/Laws/KeptVoter.lean ====
section
/-! SUPPORT. What each function changes at most: tasks, Safe Telegram, the voter, reintegration, the solvers and the interlocking. -/

namespace Sys2Proof.Laws
open Sys2Proof Sys2Proof.Machine Sys2Proof.Safety

theorem kept_domWrite {ps0 : List Part} {r0 : State} (d : DomId) (off : Nat) (bs : List Byte) (s : State) (hg0 : Kept ps0 r0 s) (hk0 : [.cores, .doms, .mem, .voter, .solvers, .freeCtr] ⊆ ps0) : Kept ps0 r0 (domWrite d off bs s) := by
  unfold domWrite
  repeat (any_goals first | with_reducible assumption | with_reducible apply kept_store | (with_reducible apply kept_foldl; rotate_left; intro _ _ _) | (with_reducible apply kept_foldl2; rotate_left; intro _ _ _) | split | with_reducible intro _ | exact List.Subset.trans (by decide) hk0)

theorem kept_latchInputs {ps0 : List Part} {r0 : State} (d : DomId) (s : State) (hg0 : Kept ps0 r0 s) (hk0 : [.cores, .doms, .mem, .voter, .solvers, .freeCtr] ⊆ ps0) : Kept ps0 r0 (latchInputs d s) := by
  unfold latchInputs
  repeat (any_goals first | with_reducible assumption | with_reducible apply kept_domWrite | (with_reducible apply kept_foldl; rotate_left; intro _ _ _) | (with_reducible apply kept_foldl2; rotate_left; intro _ _ _) | split | with_reducible intro _ | exact List.Subset.trans (by decide) hk0)

theorem kept_latchLanes {ps0 : List Part} {r0 : State} (g : Fin 2) (s : State) (hg0 : Kept ps0 r0 s) (hk0 : [.cores, .doms, .mem, .voter, .solvers, .freeCtr] ⊆ ps0) : Kept ps0 r0 (latchLanes g s) := by
  unfold latchLanes
  repeat (any_goals first | with_reducible assumption | with_reducible apply kept_latchInputs | with_reducible apply kept_modGroup | split | with_reducible apply kept_upd_freeCtr | with_reducible intro _ | exact List.Subset.trans (by decide) hk0)

theorem kept_schedule {ps0 : List Part} {r0 : State} (c : CoreId) (s : State) (hg0 : Kept ps0 r0 s) (hk0 : [.cores] ⊆ ps0) : Kept ps0 r0 (schedule c s) := by
  unfold schedule
  try dsimp only
  repeat (any_goals first | with_reducible assumption | with_reducible apply kept_modCore | with_reducible apply kept_modArch | split | with_reducible apply kept_upd_cores | with_reducible intro _ | exact List.Subset.trans (by decide) hk0)

theorem kept_privateCopy {ps0 : List Part} {r0 : State} (d : DomId) (im : Image) (t : TaskDecl) (ls : BitVec 3) (s : State) (hg0 : Kept ps0 r0 s) (hk0 : [.cores, .doms, .mem, .voter, .solvers, .freeCtr] ⊆ ps0) : Kept ps0 r0 (privateCopy d im t ls s) := by
  unfold privateCopy
  repeat (any_goals first | with_reducible assumption | with_reducible apply kept_store | (with_reducible apply kept_foldl; rotate_left; intro _ _ _) | (with_reducible apply kept_foldl2; rotate_left; intro _ _ _) | split | with_reducible intro _ | exact List.Subset.trans (by decide) hk0)

theorem kept_clearPartition {ps0 : List Part} {r0 : State} (d : DomId) (im : Image) (task : Nat) (ls : BitVec 3) (s : State) (hg0 : Kept ps0 r0 s) (hk0 : [.solvers] ⊆ ps0) : Kept ps0 r0 (clearPartition d im task ls s) := by
  unfold clearPartition
  repeat (any_goals first | with_reducible assumption | with_reducible apply kept_modSolver | (with_reducible apply kept_foldl; rotate_left; intro _ _ _) | (with_reducible apply kept_foldl2; rotate_left; intro _ _ _) | split | with_reducible intro _ | exact List.Subset.trans (by decide) hk0)

theorem kept_primeTask {ps0 : List Part} {r0 : State} (d : DomId) (im : Image) (i : Nat) (t : TaskDecl) (ls : BitVec 3) (s : State) (hg0 : Kept ps0 r0 s) (hk0 : [.cores, .doms, .mem, .voter, .solvers, .freeCtr] ⊆ ps0) : Kept ps0 r0 (primeTask d im i t ls s) := by
  unfold primeTask
  repeat (any_goals first | with_reducible assumption | with_reducible apply kept_store | (with_reducible apply kept_foldl; rotate_left; intro _ _ _) | (with_reducible apply kept_foldl2; rotate_left; intro _ _ _) | split | with_reducible intro _ | exact List.Subset.trans (by decide) hk0)

theorem kept_primeEdges {ps0 : List Part} {r0 : State} (d : DomId) (im : Image) (s : State) (hg0 : Kept ps0 r0 s) (hk0 : [.cores, .doms, .mem, .voter, .solvers, .freeCtr] ⊆ ps0) : Kept ps0 r0 (primeEdges d im s) := by
  unfold primeEdges
  repeat (any_goals first | with_reducible assumption | with_reducible apply kept_store | (with_reducible apply kept_foldl; rotate_left; intro _ _ _) | (with_reducible apply kept_foldl2; rotate_left; intro _ _ _) | split | with_reducible intro _ | exact List.Subset.trans (by decide) hk0)

theorem kept_primeTimers {ps0 : List Part} {r0 : State} (d : DomId) (im : Image) (s : State) (hg0 : Kept ps0 r0 s) (hk0 : [.cores, .doms, .mem, .voter, .solvers, .freeCtr] ⊆ ps0) : Kept ps0 r0 (primeTimers d im s) := by
  unfold primeTimers
  repeat (any_goals first | with_reducible assumption | with_reducible apply kept_domWrite | (with_reducible apply kept_foldl; rotate_left; intro _ _ _) | (with_reducible apply kept_foldl2; rotate_left; intro _ _ _) | split | with_reducible intro _ | exact List.Subset.trans (by decide) hk0)

theorem kept_releaseDomain {ps0 : List Part} {r0 : State} (d : DomId) (s : State) (hg0 : Kept ps0 r0 s) (hk0 : [.cores, .doms, .mem, .voter, .solvers, .freeCtr] ⊆ ps0) : Kept ps0 r0 (releaseDomain d s) := by
  unfold releaseDomain
  try dsimp only
  repeat (any_goals first | with_reducible assumption | with_reducible apply kept_raiseIrq | with_reducible apply kept_modGroup | with_reducible apply kept_raiseGroup | with_reducible apply kept_modDom | with_reducible apply kept_clearPartition | with_reducible apply kept_privateCopy | with_reducible apply kept_primeTask | with_reducible apply kept_primeEdges | with_reducible apply kept_primeTimers | with_reducible apply kept_domWrite | (with_reducible apply kept_foldl; rotate_left; intro _ _ _) | (with_reducible apply kept_foldl2; rotate_left; intro _ _ _) | split | with_reducible apply kept_upd_voter | with_reducible apply kept_upd_doms | with_reducible apply kept_upd_cores | with_reducible apply kept_upd_solvers | with_reducible apply kept_upd_freeCtr | with_reducible apply kept_upd_mem | with_reducible intro _ | exact List.Subset.trans (by decide) hk0)

theorem kept_skipCycle {ps0 : List Part} {r0 : State} (d : DomId) (s : State) (hg0 : Kept ps0 r0 s) (hk0 : [.cores, .doms] ⊆ ps0) : Kept ps0 r0 (skipCycle d s) := by
  unfold skipCycle
  repeat (any_goals first | with_reducible assumption | with_reducible apply kept_raiseIrq | with_reducible apply kept_modDom | (with_reducible apply kept_foldl; rotate_left; intro _ _ _) | (with_reducible apply kept_foldl2; rotate_left; intro _ _ _) | split | with_reducible intro _ | exact List.Subset.trans (by decide) hk0)

theorem kept_initVars {ps0 : List Part} {r0 : State} (d : DomId) (im : Image) (s : State) (hg0 : Kept ps0 r0 s) (hk0 : [.cores, .doms, .mem, .voter, .solvers, .freeCtr] ⊆ ps0) : Kept ps0 r0 (initVars d im s) := by
  unfold initVars
  repeat (any_goals first | with_reducible assumption | with_reducible apply kept_domWrite | (with_reducible apply kept_foldl; rotate_left; intro _ _ _) | (with_reducible apply kept_foldl2; rotate_left; intro _ _ _) | split | with_reducible intro _ | exact List.Subset.trans (by decide) hk0)

theorem kept_grottoSettle {ps0 : List Part} {r0 : State} (n : Fin 4) (s : State) (hg0 : Kept ps0 r0 s) (hk0 : [.doms, .power] ⊆ ps0) : Kept ps0 r0 (grottoSettle n s) := by
  unfold grottoSettle
  repeat (any_goals first | with_reducible assumption | with_reducible apply kept_modDom | (with_reducible apply kept_foldl; rotate_left; intro _ _ _) | (with_reducible apply kept_foldl2; rotate_left; intro _ _ _) | split | with_reducible apply kept_upd_power | with_reducible intro _ | exact List.Subset.trans (by decide) hk0)

theorem kept_initRetain {ps0 : List Part} {r0 : State} (n : Fin 4) (im : Image) (s : State) (hg0 : Kept ps0 r0 s) (hk0 : [.cores, .doms, .mem, .voter, .solvers, .power, .freeCtr] ⊆ ps0) : Kept ps0 r0 (initRetain n im s) := by
  unfold initRetain
  repeat (any_goals first | with_reducible assumption | with_reducible apply kept_modDom | with_reducible apply kept_store | with_reducible apply kept_grottoSettle | (with_reducible apply kept_foldl; rotate_left; intro _ _ _) | (with_reducible apply kept_foldl2; rotate_left; intro _ _ _) | split | with_reducible intro _ | exact List.Subset.trans (by decide) hk0)

theorem kept_modIxl {ps0 : List Part} {r0 : State} (l : Fin 3) (f : Ixl → Ixl) (s : State) (hg0 : Kept ps0 r0 s) (hk0 : [.ixl] ⊆ ps0) : Kept ps0 r0 (modIxl l f s) := by
  unfold modIxl
  repeat (any_goals first | with_reducible assumption | split | with_reducible apply kept_upd_ixl | with_reducible intro _ | exact List.Subset.trans (by decide) hk0)

theorem kept_modRoute {ps0 : List Part} {r0 : State} (l : Fin 3) (r : Nat) (f : RouteSt → RouteSt) (s : State) (hg0 : Kept ps0 r0 s) (hk0 : [.ixl] ⊆ ps0) : Kept ps0 r0 (modRoute l r f s) := by
  unfold modRoute
  repeat (any_goals first | with_reducible assumption | with_reducible apply kept_modIxl | split | with_reducible intro _ | exact List.Subset.trans (by decide) hk0)

theorem kept_modPoint {ps0 : List Part} {r0 : State} (l : Fin 3) (p : Nat) (f : PointSt → PointSt) (s : State) (hg0 : Kept ps0 r0 s) (hk0 : [.ixl] ⊆ ps0) : Kept ps0 r0 (modPoint l p f s) := by
  unfold modPoint
  repeat (any_goals first | with_reducible assumption | with_reducible apply kept_modIxl | split | with_reducible intro _ | exact List.Subset.trans (by decide) hk0)

theorem kept_modConn {ps0 : List Part} {r0 : State} (l : Fin 3) (g : Fin 2) (k : Nat) (f : ConnSt → ConnSt) (s : State) (hg0 : Kept ps0 r0 s) (hk0 : [.conns] ⊆ ps0) : Kept ps0 r0 (modConn l g k f s) := by
  unfold modConn
  repeat (any_goals first | with_reducible assumption | split | with_reducible apply kept_upd_conns | with_reducible intro _ | exact List.Subset.trans (by decide) hk0)

theorem kept_writeEntry {ps0 : List Part} {r0 : State} (l : Fin 3) (g : Fin 2) (k : Nat) (d : ConnDecl) (s : State) (hg0 : Kept ps0 r0 s) (hk0 : [.cores, .doms, .mem, .voter, .solvers, .freeCtr] ⊆ ps0) : Kept ps0 r0 (writeEntry l g k d s) := by
  unfold writeEntry
  repeat (any_goals first | with_reducible assumption | with_reducible apply kept_store | split | with_reducible intro _ | exact List.Subset.trans (by decide) hk0)

theorem kept_gateWrite {ps0 : List Part} {r0 : State} (l : Fin 3) (g : Fin 2) (im : Image) (x : IxlDecl) (k : Nat) (d : ConnDecl) (s : State) (hg0 : Kept ps0 r0 s) (hk0 : [.cores, .doms, .mem, .voter, .solvers, .freeCtr] ⊆ ps0) : Kept ps0 r0 (gateWrite l g im x k d s) := by
  unfold gateWrite
  repeat (any_goals first | with_reducible assumption | with_reducible apply kept_modGroup | with_reducible apply kept_store | split | with_reducible intro _ | exact List.Subset.trans (by decide) hk0)

theorem kept_telegramNext {ps0 : List Part} {r0 : State} (l : Fin 3) (g : Fin 2) (k : Nat) (d : ConnDecl) (s : State) (hg0 : Kept ps0 r0 s) (hk0 : [.cores, .doms, .mem, .voter, .solvers, .conns, .freeCtr] ⊆ ps0) : Kept ps0 r0 (telegramNext l g k d s) := by
  unfold telegramNext
  repeat (any_goals first | with_reducible assumption | with_reducible apply kept_modConn | with_reducible apply kept_writeEntry | split | with_reducible intro _ | exact List.Subset.trans (by decide) hk0)

theorem kept_eocGive {ps0 : List Part} {r0 : State} (l : Fin 3) (g : Fin 2) (s : State) (hg0 : Kept ps0 r0 s) (hk0 : [.voter] ⊆ ps0) : Kept ps0 r0 (eocGive l g s) := by
  unfold eocGive
  try dsimp only
  repeat (any_goals first | with_reducible assumption | with_reducible apply kept_contribute | split | with_reducible apply kept_upd_voter | with_reducible intro _ | exact List.Subset.trans (by decide) hk0)

theorem kept_settleTelegrams {ps0 : List Part} {r0 : State} (g : Fin 2) (l : Fin 3) (img : List Byte) (s : State) (hg0 : Kept ps0 r0 s) (hk0 : [.voter] ⊆ ps0) : Kept ps0 r0 (settleTelegrams g l img s) := by
  unfold settleTelegrams
  repeat (any_goals first | with_reducible assumption | with_reducible apply kept_modGroup | split | with_reducible intro _ | exact List.Subset.trans (by decide) hk0)

theorem kept_readySafe {ps0 : List Part} {r0 : State} (g : Fin 2) (l : Fin 3) (seqOf : Nat → Word) (s : State) (hg0 : Kept ps0 r0 s) (hk0 : [.voter] ⊆ ps0) : Kept ps0 r0 (readySafe g l seqOf s) := by
  unfold readySafe
  repeat (any_goals first | with_reducible assumption | with_reducible apply kept_modGroup | split | with_reducible intro _ | exact List.Subset.trans (by decide) hk0)

theorem kept_runtimeTurn {ps0 : List Part} {r0 : State} (c : CoreId) (s : State) (hg0 : Kept ps0 r0 s) (hk0 : [.cores, .voter] ⊆ ps0) : Kept ps0 r0 (runtimeTurn c s) := by
  unfold runtimeTurn
  try dsimp only
  repeat (any_goals first | with_reducible assumption | with_reducible apply kept_eocGive | with_reducible apply kept_modCore | with_reducible apply kept_schedule | split | with_reducible apply kept_upd_voter | with_reducible apply kept_upd_cores | with_reducible intro _ | exact List.Subset.trans (by decide) hk0)

theorem kept_scheduleSoon {ps0 : List Part} {r0 : State} (c : CoreId) (s : State) (hg0 : Kept ps0 r0 s) (hk0 : [.cores, .voter] ⊆ ps0) : Kept ps0 r0 (scheduleSoon c s) := by
  unfold scheduleSoon
  try dsimp only
  repeat (any_goals first | with_reducible assumption | with_reducible apply kept_runtimeTurn | with_reducible apply kept_modCore | split | with_reducible apply kept_upd_voter | with_reducible apply kept_upd_cores | with_reducible intro _ | exact List.Subset.trans (by decide) hk0)

theorem kept_firmwareReload {ps0 : List Part} {r0 : State} (c : CoreId) (s : State) (hg0 : Kept ps0 r0 s) (hk0 : [.memErrs] ⊆ ps0) : Kept ps0 r0 (firmwareReload c s) := by
  unfold firmwareReload
  repeat (any_goals first | with_reducible assumption | with_reducible apply kept_clearLine | split | with_reducible intro _ | exact List.Subset.trans (by decide) hk0)

theorem kept_resume {ps0 : List Part} {r0 : State} (c : CoreId) (x : Contrib) (s : State) (hg0 : Kept ps0 r0 s) (hk0 : [.cores] ⊆ ps0) : Kept ps0 r0 (resume c x s) := by
  unfold resume
  repeat (any_goals first | with_reducible assumption | with_reducible apply kept_modCore | with_reducible apply kept_retire | split | with_reducible intro _ | exact List.Subset.trans (by decide) hk0)

theorem kept_join {ps0 : List Part} {r0 : State} (l : Fin 3) (g : Fin 2) (s : State) (hg0 : Kept ps0 r0 s) (hk0 : [.cores, .doms, .voter, .cim, .esc, .boot, .arb, .log] ⊆ ps0) : Kept ps0 r0 (join l g s) := by
  unfold join
  repeat (any_goals first | with_reducible assumption | with_reducible apply kept_reintEnd | with_reducible apply kept_modReint | with_reducible apply kept_addLog | with_reducible apply kept_modCim | with_reducible apply kept_modGroup | with_reducible apply kept_setMembers | (with_reducible apply kept_foldl; rotate_left; intro _ _ _) | (with_reducible apply kept_foldl2; rotate_left; intro _ _ _) | split | with_reducible apply kept_upd_esc | with_reducible intro _ | exact List.Subset.trans (by decide) hk0)

theorem kept_candMeets {ps0 : List Part} {r0 : State} (g : Fin 2) (s : State) (hg0 : Kept ps0 r0 s) (hk0 : [.cores, .doms, .voter, .cim, .esc, .boot, .arb, .log] ⊆ ps0) : Kept ps0 r0 (candMeets g s) := by
  unfold candMeets
  try dsimp only
  repeat (any_goals first | with_reducible assumption | with_reducible apply kept_modGroup | with_reducible apply kept_reintEnd | with_reducible apply kept_join | with_reducible apply kept_resume | split | with_reducible apply kept_upd_voter_arb | with_reducible apply kept_upd_boot | with_reducible apply kept_upd_voter | with_reducible apply kept_upd_doms | with_reducible apply kept_upd_cores | with_reducible apply kept_upd_cim | with_reducible apply kept_upd_arb | with_reducible apply kept_upd_log | with_reducible apply kept_upd_esc | with_reducible intro _ | exact List.Subset.trans (by decide) hk0)

theorem kept_eocPassed {ps0 : List Part} {r0 : State} (g : Fin 2) (x : Contrib) (s : State) (hg0 : Kept ps0 r0 s) (hk0 : [.cores, .doms, .mem, .memRegs, .banks, .voter, .solvers, .ixl, .freeCtr] ⊆ ps0) : Kept ps0 r0 (eocPassed g x s) := by
  unfold eocPassed
  repeat (any_goals first | with_reducible assumption | with_reducible apply kept_storeHeld | with_reducible apply kept_modGroup | with_reducible apply kept_modIxl | with_reducible apply kept_modDom | with_reducible apply kept_settleTelegrams | (with_reducible apply kept_foldl; rotate_left; intro _ _ _) | (with_reducible apply kept_foldl2; rotate_left; intro _ _ _) | split | with_reducible intro _ | exact List.Subset.trans (by decide) hk0)

theorem kept_voteResolve {ps0 : List Part} {r0 : State} (g : Fin 2) (closed : Bool) (s : State) (hg0 : Kept ps0 r0 s) (hk0 : [.cyc, .cores, .doms, .mem, .memRegs, .banks, .voter, .solvers, .ixl, .hsb, .sync, .fg, .mbx, .cim, .esc, .ps, .boot, .arb, .log, .freeCtr] ⊆ ps0) : Kept ps0 r0 (voteResolve g closed s) := by
  unfold voteResolve
  repeat (any_goals first | with_reducible assumption | with_reducible apply kept_candMeets | with_reducible apply kept_reintEnd | with_reducible apply kept_resume | with_reducible apply kept_eocPassed | with_reducible apply kept_modLane | with_reducible apply kept_excludeLane | with_reducible apply kept_hsbFault | with_reducible apply kept_enterSafe | with_reducible apply kept_modGroup | (with_reducible apply kept_foldl; rotate_left; intro _ _ _) | (with_reducible apply kept_foldl2; rotate_left; intro _ _ _) | split | with_reducible apply kept_upd_cyc | with_reducible intro _ | exact List.Subset.trans (by decide) hk0)

theorem kept_emptyEoc {ps0 : List Part} {r0 : State} (g : Fin 2) (s : State) (hg0 : Kept ps0 r0 s) (hk0 : [.voter] ⊆ ps0) : Kept ps0 r0 (emptyEoc g s) := by
  unfold emptyEoc
  repeat (any_goals first | with_reducible assumption | with_reducible apply kept_modGroup | split | with_reducible intro _ | exact List.Subset.trans (by decide) hk0)

theorem kept_eocDeadline {ps0 : List Part} {r0 : State} (g : Fin 2) (s : State) (hg0 : Kept ps0 r0 s) (hk0 : [.cyc, .cores, .doms, .mem, .memRegs, .banks, .voter, .solvers, .ixl, .hsb, .sync, .fg, .mbx, .cim, .esc, .ps, .boot, .arb, .log, .freeCtr] ⊆ ps0) : Kept ps0 r0 (eocDeadline g s) := by
  unfold eocDeadline
  try dsimp only
  repeat (any_goals first | with_reducible assumption | with_reducible apply kept_emptyEoc | with_reducible apply kept_voteResolve | with_reducible apply kept_modGroup | with_reducible apply kept_reintEnd | split | with_reducible apply kept_upd_memRegs_banks | with_reducible apply kept_upd_cores_banks | with_reducible apply kept_upd_voter_arb | with_reducible apply kept_upd_cyc_arb | with_reducible apply kept_upd_boot | with_reducible apply kept_upd_voter | with_reducible apply kept_upd_doms | with_reducible apply kept_upd_cores | with_reducible apply kept_upd_cim | with_reducible apply kept_upd_mbx | with_reducible apply kept_upd_cyc | with_reducible apply kept_upd_arb | with_reducible apply kept_upd_ixl | with_reducible apply kept_upd_fg | with_reducible apply kept_upd_ps | with_reducible apply kept_upd_log | with_reducible apply kept_upd_solvers | with_reducible apply kept_upd_esc | with_reducible apply kept_upd_memRegs | with_reducible apply kept_upd_sync | with_reducible apply kept_upd_banks | with_reducible apply kept_upd_hsb | with_reducible apply kept_upd_freeCtr | with_reducible apply kept_upd_mem | with_reducible intro _ | exact List.Subset.trans (by decide) hk0)

theorem kept_showGroups {ps0 : List Part} {r0 : State} (s : State) (hg0 : Kept ps0 r0 s) (hk0 : [.voter, .arb] ⊆ ps0) : Kept ps0 r0 (showGroups s) := by
  unfold showGroups
  try dsimp only
  repeat (any_goals first | with_reducible assumption | with_reducible apply kept_setMembers | (with_reducible apply kept_foldl; rotate_left; intro _ _ _) | (with_reducible apply kept_foldl2; rotate_left; intro _ _ _) | split | with_reducible apply kept_upd_voter_arb | with_reducible apply kept_upd_voter | with_reducible apply kept_upd_arb | with_reducible intro _ | exact List.Subset.trans (by decide) hk0)

theorem kept_reintAdmit {ps0 : List Part} {r0 : State} (l : Fin 3) (auto : Bool) (s : State) (hg0 : Kept ps0 r0 s) (hk0 : [.voter] ⊆ ps0) : Kept ps0 r0 (reintAdmit l auto s) := by
  unfold reintAdmit
  repeat (any_goals first | with_reducible assumption | with_reducible apply kept_modReint | split | with_reducible intro _ | exact List.Subset.trans (by decide) hk0)

theorem kept_maintEffect {ps0 : List Part} {r0 : State} (l : Fin 3) (s : State) (hg0 : Kept ps0 r0 s) (hk0 : [.cores, .doms, .voter, .hsb, .sync, .fg, .mbx, .ps, .boot, .arb, .log] ⊆ ps0) : Kept ps0 r0 (maintEffect l s) := by
  unfold maintEffect
  repeat (any_goals first | with_reducible assumption | with_reducible apply kept_excludeLane | with_reducible apply kept_modLane | with_reducible apply kept_modReint | with_reducible apply kept_addLog | split | with_reducible intro _ | exact List.Subset.trans (by decide) hk0)

theorem kept_attachEffect {ps0 : List Part} {r0 : State} (l : Fin 3) (s : State) (hg0 : Kept ps0 r0 s) (hk0 : [.cores, .doms, .voter, .hsb, .sync, .fg, .mbx, .ps, .boot, .arb, .log] ⊆ ps0) : Kept ps0 r0 (attachEffect l s) := by
  unfold attachEffect
  repeat (any_goals first | with_reducible assumption | with_reducible apply kept_ringEvent | with_reducible apply kept_addLog | with_reducible apply kept_showGroups | with_reducible apply kept_modGroup | with_reducible apply kept_modLane | with_reducible apply kept_excludeLane | (with_reducible apply kept_foldl; rotate_left; intro _ _ _) | (with_reducible apply kept_foldl2; rotate_left; intro _ _ _) | split | with_reducible intro _ | exact List.Subset.trans (by decide) hk0)

theorem kept_detachEffect {ps0 : List Part} {r0 : State} (l : Fin 3) (s : State) (hg0 : Kept ps0 r0 s) (hk0 : [.cores, .voter] ⊆ ps0) : Kept ps0 r0 (detachEffect l s) := by
  unfold detachEffect
  repeat (any_goals first | with_reducible assumption | with_reducible apply kept_modLane | with_reducible apply kept_modCore | (with_reducible apply kept_foldl; rotate_left; intro _ _ _) | (with_reducible apply kept_foldl2; rotate_left; intro _ _ _) | split | with_reducible intro _ | exact List.Subset.trans (by decide) hk0)

theorem kept_detachAll {ps0 : List Part} {r0 : State} (s : State) (hg0 : Kept ps0 r0 s) (hk0 : [.cores, .voter] ⊆ ps0) : Kept ps0 r0 (detachAll s) := by
  unfold detachAll
  repeat (any_goals first | with_reducible assumption | with_reducible apply kept_detachEffect | (with_reducible apply kept_foldl; rotate_left; intro _ _ _) | (with_reducible apply kept_foldl2; rotate_left; intro _ _ _) | split | with_reducible intro _ | exact List.Subset.trans (by decide) hk0)

theorem kept_voterEffect {ps0 : List Part} {r0 : State} (op : VotOp) (lane : Fin 4) (s : State) (hg0 : Kept ps0 r0 s) (hk0 : [.cores, .doms, .voter, .hsb, .sync, .fg, .mbx, .ps, .boot, .arb, .log] ⊆ ps0) : Kept ps0 r0 (voterEffect op lane s) := by
  unfold voterEffect
  repeat (any_goals first | with_reducible assumption | with_reducible apply kept_detachEffect | with_reducible apply kept_attachEffect | with_reducible apply kept_reintEnd | with_reducible apply kept_maintEffect | with_reducible apply kept_reintAdmit | split | with_reducible intro _ | exact List.Subset.trans (by decide) hk0)

theorem kept_voterStat {ps0 : List Part} {r0 : State} (code : Nat) (s : State) (hg0 : Kept ps0 r0 s) (hk0 : [.voter] ⊆ ps0) : Kept ps0 r0 (voterStat code s) := by
  unfold voterStat
  repeat (any_goals first | with_reducible assumption | split | with_reducible apply kept_upd_voter | with_reducible intro _ | exact List.Subset.trans (by decide) hk0)

theorem kept_voterRequest {ps0 : List Part} {r0 : State} (op : VotOp) (lane : Fin 4) (s : State) (hg0 : Kept ps0 r0 s) (hk0 : [.cores, .doms, .voter, .hsb, .sync, .fg, .mbx, .ps, .boot, .arb, .log] ⊆ ps0) : Kept ps0 r0 (voterRequest op lane s).2 := by
  unfold voterRequest
  repeat (any_goals first | with_reducible assumption | with_reducible apply kept_voterEffect | with_reducible apply kept_voterStat | split | with_reducible intro _ | exact List.Subset.trans (by decide) hk0)

theorem kept_laneOff {ps0 : List Part} {r0 : State} (l : Fin 3) (s : State) (hg0 : Kept ps0 r0 s) (hk0 : [.cores, .mem, .memErrs, .voter, .solvers, .rmus, .boot] ⊆ ps0) : Kept ps0 r0 (laneOff l s) := by
  unfold laneOff
  repeat (any_goals first | with_reducible assumption | with_reducible apply kept_modCore | with_reducible apply kept_modLane | with_reducible apply kept_setPd | with_reducible apply kept_clearMem | (with_reducible apply kept_foldl; rotate_left; intro _ _ _) | (with_reducible apply kept_foldl2; rotate_left; intro _ _ _) | split | with_reducible apply kept_upd_memErrs_solvers_rmus_boot | with_reducible intro _ | exact List.Subset.trans (by decide) hk0)

theorem kept_copyLines {ps0 : List Part} {r0 : State} (l : Fin 3) (lines : List Nat) (s : State) (hg0 : Kept ps0 r0 s) (hk0 : [.mem, .memErrs] ⊆ ps0) : Kept ps0 r0 (copyLines l lines s).1 := by
  unfold copyLines
  split
  · rename_i a b _ _
    have h : ∀ (ls : List Nat) (acc : State × List Nat), Kept ps0 r0 acc.1 → Kept ps0 r0 (ls.foldl (fun acc n =>
      let x := lineBytes (laneMem a) n acc.1
      if x = lineBytes (laneMem b) n acc.1 then (clearLine (laneMem l) n (writeBytes (laneMem l) (n * 64) x acc.1), acc.2) else (acc.1, acc.2 ++ [n])) acc).1 := by
      intro ls
      induction ls with
      | nil => exact fun _ h => h
      | cons n ls ih =>
        intro acc h
        refine ih _ ?_
        dsimp only
        split
        · exact kept_clearLine _ _ _ (kept_writeBytes _ _ _ _ h (List.Subset.trans (by decide) hk0)) (List.Subset.trans (by decide) hk0)
        · exact h
    exact h lines (s, []) hg0
  · exact hg0

theorem kept_afterPass {ps0 : List Part} {r0 : State} (done differ : List Nat) (s : State) (hg0 : Kept ps0 r0 s) (hk0 : [.cores, .doms, .voter, .boot, .log] ⊆ ps0) : Kept ps0 r0 (afterPass done differ s) := by
  unfold afterPass
  try dsimp only
  repeat (any_goals first | with_reducible assumption | with_reducible apply kept_reintEnd | with_reducible apply kept_modReint | split | with_reducible apply kept_upd_boot | with_reducible apply kept_upd_voter | with_reducible apply kept_upd_doms | with_reducible apply kept_upd_cores | with_reducible apply kept_upd_log | with_reducible intro _ | exact List.Subset.trans (by decide) hk0)

theorem kept_takeOver {ps0 : List Part} {r0 : State} (g : Fin 2) (m l : Fin 3) (s : State) (hg0 : Kept ps0 r0 s) (hk0 : [.cores, .doms, .mem, .voter, .solvers, .rmus, .ixl, .conns, .freeCtr] ⊆ ps0) : Kept ps0 r0 (takeOver g m l s) := by
  unfold takeOver
  repeat (any_goals first | with_reducible assumption | with_reducible apply kept_store | with_reducible apply kept_modQueue | with_reducible apply kept_modCore | split | with_reducible apply kept_upd_rmus_ixl_conns | with_reducible intro _ | exact List.Subset.trans (by decide) hk0)

theorem kept_startCandidate {ps0 : List Part} {r0 : State} (g : Fin 2) (s : State) (hg0 : Kept ps0 r0 s) (hk0 : [.cores, .doms, .mem, .voter, .solvers, .rmus, .ixl, .conns, .freeCtr] ⊆ ps0) : Kept ps0 r0 (startCandidate g s) := by
  unfold startCandidate
  try dsimp only
  repeat (any_goals first | with_reducible assumption | with_reducible apply kept_modGroup | with_reducible apply kept_takeOver | with_reducible apply kept_modDom | with_reducible apply kept_modReint | split | with_reducible apply kept_upd_rmus_ixl_conns | with_reducible apply kept_upd_voter | with_reducible apply kept_upd_doms | with_reducible apply kept_upd_cores | with_reducible apply kept_upd_conns | with_reducible apply kept_upd_ixl | with_reducible apply kept_upd_solvers | with_reducible apply kept_upd_rmus | with_reducible apply kept_upd_freeCtr | with_reducible apply kept_upd_mem | with_reducible intro _ | exact List.Subset.trans (by decide) hk0)

theorem kept_lsBy {ps0 : List Part} {r0 : State} (c : CoreId) (i : Fin 5) (f : Fin 2 → State → State) (s : State) (hf : ∀ k t, Kept ps0 r0 t → Kept ps0 r0 (f k t)) (hg0 : Kept ps0 r0 s) (hk0 : [.memRegs, .bus] ⊆ ps0) : Kept ps0 r0 (lsBy c i f s) := by
  unfold lsBy answer countAf
  repeat (any_goals first | with_reducible assumption | with_reducible apply hf | split | with_reducible apply kept_upd_bus | with_reducible apply kept_upd_memRegs | with_reducible apply kept_upd_solvers | exact List.Subset.trans (by decide) hk0)

theorem kept_lsFaultHandled {ps0 : List Part} {r0 : State} (i : Fin 5) (k : Fin 2) (s : State) (hg0 : Kept ps0 r0 s) (hk0 : [.cores, .doms, .pairs, .voter, .solvers, .hsb, .sync, .fg, .mbx, .esc, .ps, .boot, .arb, .log] ⊆ ps0) : Kept ps0 r0 (lsFaultHandled i k s) := by
  unfold lsFaultHandled
  repeat (any_goals first | with_reducible assumption | with_reducible apply kept_pairFaultKind | with_reducible apply kept_modGroup | split | with_reducible intro _ | exact List.Subset.trans (by decide) hk0)

theorem kept_lsFault {ps0 : List Part} {r0 : State} (i : Fin 5) (k : Fin 2) (code : Nat) (s : State) (hg0 : Kept ps0 r0 s) (hk0 : [.cores, .doms, .pairs, .voter, .solvers, .hsb, .sync, .fg, .mbx, .esc, .ps, .boot, .arb, .log] ⊆ ps0) : Kept ps0 r0 (lsFault i k code s) := by
  unfold lsFault
  repeat (any_goals first | with_reducible assumption | with_reducible apply kept_lsEnded | with_reducible apply kept_lsFaultHandled | with_reducible apply kept_raiseIrq | with_reducible apply kept_modQueue | split | with_reducible intro _ | exact List.Subset.trans (by decide) hk0)

theorem kept_lsAwait {ps0 : List Part} {r0 : State} (i : Fin 5) (k : Fin 2) (s : State) (hg0 : Kept ps0 r0 s) (hk0 : [.cores] ⊆ ps0) : Kept ps0 r0 (lsAwait i k s) := by
  unfold lsAwait
  repeat (any_goals first | with_reducible assumption | with_reducible apply kept_modCore | split | with_reducible intro _ | exact List.Subset.trans (by decide) hk0)

theorem kept_lsBegin {ps0 : List Part} {r0 : State} (i : Fin 5) (k : Fin 2) (h : NetHdr) (e : Nat) (s : State) (hg0 : Kept ps0 r0 s) (hk0 : [.solvers] ⊆ ps0) : Kept ps0 r0 (lsBegin i k h e s) := by
  unfold lsBegin
  repeat (any_goals first | with_reducible assumption | with_reducible apply kept_modQueue | split | with_reducible intro _ | exact List.Subset.trans (by decide) hk0)

theorem kept_lsStartOp {ps0 : List Part} {r0 : State} (i : Fin 5) (k : Fin 2) (e : Nat) (s : State) (hg0 : Kept ps0 r0 s) (hk0 : [.cores, .doms, .pairs, .voter, .solvers, .hsb, .sync, .fg, .mbx, .esc, .ps, .boot, .arb, .log] ⊆ ps0) : Kept ps0 r0 (lsStartOp i k e s) := by
  unfold lsStartOp
  try dsimp only
  repeat (any_goals first | with_reducible assumption | with_reducible apply kept_lsBegin | with_reducible apply kept_lsAwait | with_reducible apply kept_modQueue | with_reducible apply kept_lsFaultHandled | split | with_reducible apply kept_upd_voter_arb | with_reducible apply kept_upd_boot | with_reducible apply kept_upd_voter | with_reducible apply kept_upd_doms | with_reducible apply kept_upd_cores | with_reducible apply kept_upd_mbx | with_reducible apply kept_upd_arb | with_reducible apply kept_upd_fg | with_reducible apply kept_upd_ps | with_reducible apply kept_upd_log | with_reducible apply kept_upd_solvers | with_reducible apply kept_upd_esc | with_reducible apply kept_upd_sync | with_reducible apply kept_upd_hsb | with_reducible apply kept_upd_pairs | with_reducible intro _ | exact List.Subset.trans (by decide) hk0)

theorem kept_lsReadImage {ps0 : List Part} {r0 : State} (i : Fin 5) (a : Nat) (r : Option Areas) (s : State) (hg0 : Kept ps0 r0 s) (hk0 : [.memRegs, .memErrs] ⊆ ps0) : Kept ps0 r0 (lsReadImage i a r s) := by
  unfold lsReadImage
  try dsimp only
  repeat (any_goals first | with_reducible assumption | with_reducible apply kept_checkLine | (with_reducible apply kept_foldl; rotate_left; intro _ _ _) | (with_reducible apply kept_foldl2; rotate_left; intro _ _ _) | split | with_reducible apply kept_upd_memRegs_memErrs | with_reducible apply kept_upd_memRegs | with_reducible apply kept_upd_memErrs | with_reducible intro _ | exact List.Subset.trans (by decide) hk0)

theorem kept_lsLoadOp {ps0 : List Part} {r0 : State} (i : Fin 5) (k : Fin 2) (s : State) (hg0 : Kept ps0 r0 s) (hk0 : [.memRegs, .memErrs, .solvers] ⊆ ps0) : Kept ps0 r0 (lsLoadOp i k s) := by
  unfold lsLoadOp
  try dsimp only
  repeat (any_goals first | with_reducible assumption | with_reducible apply kept_lsReadImage | with_reducible apply kept_modQueue | split | with_reducible apply kept_upd_memRegs_memErrs | with_reducible apply kept_upd_solvers | with_reducible apply kept_upd_memRegs | with_reducible apply kept_upd_memErrs | with_reducible intro _ | exact List.Subset.trans (by decide) hk0)

theorem kept_lsUnloadOp {ps0 : List Part} {r0 : State} (i : Fin 5) (k : Fin 2) (s : State) (hg0 : Kept ps0 r0 s) (hk0 : [.solvers] ⊆ ps0) : Kept ps0 r0 (lsUnloadOp i k s) := by
  unfold lsUnloadOp
  try dsimp only
  repeat (any_goals first | with_reducible assumption | with_reducible apply kept_modQueue | split | with_reducible apply kept_upd_solvers | with_reducible intro _ | exact List.Subset.trans (by decide) hk0)

theorem kept_lsAtK {ps0 : List Part} {r0 : State} (c : CoreId) (i : Fin 5) (k : Fin 2) (f : State → State) (s : State) (hf : ∀ t, Kept ps0 r0 t → Kept ps0 r0 (f t)) (hg0 : Kept ps0 r0 s) (hk0 : [.solvers] ⊆ ps0) : Kept ps0 r0 (lsAtK c i k f s) := by
  unfold lsAtK modQueue modSolver
  repeat (any_goals first | with_reducible assumption | with_reducible apply hf | split | with_reducible apply kept_upd_bus | with_reducible apply kept_upd_memRegs | with_reducible apply kept_upd_solvers | exact List.Subset.trans (by decide) hk0)

theorem kept_lsWords {ps0 : List Part} {r0 : State} (i : Fin 5) (k : Fin 2) (ws : List Nat) (s : State) (hg0 : Kept ps0 r0 s) (hk0 : [.cores, .memRegs, .memErrs] ⊆ ps0) : Kept ps0 r0 (lsWords i k ws s).2 := by
  unfold lsWords
  try dsimp only
  repeat (any_goals first | with_reducible assumption | with_reducible apply kept_raiseCorrected | with_reducible apply kept_checkWord | (with_reducible apply kept_foldl; rotate_left; intro _ _ _) | (with_reducible apply kept_foldl2; rotate_left; intro _ _ _) | split | with_reducible apply kept_upd_memRegs_memErrs | with_reducible apply kept_upd_cores | with_reducible apply kept_upd_memRegs | with_reducible apply kept_upd_memErrs | with_reducible intro _ | exact List.Subset.trans (by decide) hk0)

theorem kept_fetchLine {ps0 : List Part} {r0 : State} (i : Fin 5) (l : Nat) (s : State) (hg0 : Kept ps0 r0 s) (hk0 : [.memRegs, .memErrs] ⊆ ps0) : Kept ps0 r0 (fetchLine i l s).2 := by
  unfold fetchLine
  repeat (any_goals first | with_reducible assumption | with_reducible apply kept_checkLine | split | with_reducible intro _ | exact List.Subset.trans (by decide) hk0)

theorem kept_gatherRun {ps0 : List Part} {r0 : State} (i : Fin 5) (k : Fin 2) (h : NetHdr) (base n t : Nat) (ds : List Desc) (snap : List (Nat × Byte)) (s : State) (hg0 : Kept ps0 r0 s) (hk0 : [.cores, .memRegs, .memErrs, .solvers] ⊆ ps0) : Kept ps0 r0 (gatherRun i k h base n t ds snap s).2 := by
  induction ds generalizing n t snap s with
  | nil => exact hg0
  | cons d ds ih =>
    unfold gatherRun
    extract_lets f z bits
    have hf : Kept ps0 r0 f.2 := kept_fetchLine _ _ _ hg0 (List.Subset.trans (by decide) hk0)
    have hw : Kept ps0 r0 z.2 := kept_lsWords _ _ _ _ hf (List.Subset.trans (by decide) hk0)
    clear_value z f
    repeat (any_goals first | exact hg0 | exact hf | exact hw | split)
    exact ih _ _ _ _ (kept_modSolver _ _ _ hw (List.Subset.trans (by decide) hk0))

theorem kept_bundlesRun {ps0 : List Part} {r0 : State} (i : Fin 5) (h : NetHdr) (base first n m : Nat) (s : State) (hg0 : Kept ps0 r0 s) (hk0 : [.memRegs, .memErrs, .solvers] ⊆ ps0) : Kept ps0 r0 (bundlesRun i h base first n m s).2 := by
  induction m generalizing n s with
  | zero => exact hg0
  | succ m ih =>
    unfold bundlesRun
    extract_lets a f ns
    have hf : Kept ps0 r0 f.2 := by
      dsimp only [f]
      split
      · exact kept_fetchLine _ _ _ hg0 (List.Subset.trans (by decide) hk0)
      · exact hg0
    clear_value ns f
    repeat (any_goals first | exact hf | split)
    exact ih _ _ (kept_modSolver _ _ _ hf (List.Subset.trans (by decide) hk0))

theorem kept_scatterRun {ps0 : List Part} {r0 : State} (i : Fin 5) (k : Fin 2) (h : NetHdr) (base n t : Nat) (ds : List Desc) (s : State) (hg0 : Kept ps0 r0 s) (hk0 : [.cores, .doms, .mem, .memRegs, .memErrs, .voter, .solvers, .freeCtr] ⊆ ps0) : Kept ps0 r0 (scatterRun i k h base n t ds s).2 := by
  induction ds generalizing n t s with
  | nil => exact hg0
  | cons d ds ih =>
    unfold scatterRun
    extract_lets f a bs s2
    have hf : Kept ps0 r0 f.2 := kept_fetchLine _ _ _ hg0 (List.Subset.trans (by decide) hk0)
    have h2 : Kept ps0 r0 s2 := kept_foldl (kept_store _ _ _ _ _ hf (List.Subset.trans (by decide) hk0)) fun a x h => kept_clearWord _ _ _ h (List.Subset.trans (by decide) hk0)
    clear_value s2 bs f
    repeat (any_goals first | exact hg0 | exact hf | split)
    exact ih _ _ _ h2

theorem kept_runBody {ps0 : List Part} {r0 : State} (i : Fin 5) (k : Fin 2) (h : NetHdr) (r : LsRun) (t : Nat) (s : State) (hg0 : Kept ps0 r0 s) (hk0 : [.cores, .doms, .mem, .memRegs, .memErrs, .voter, .solvers, .freeCtr] ⊆ ps0) : Kept ps0 r0 (runBody i k h r t s).2 := by
  unfold runBody
  extract_lets code base f e gs g t1 z
  have hf : Kept ps0 r0 f.2 := kept_fetchLine _ _ _ hg0 (List.Subset.trans (by decide) hk0)
  have hg : Kept ps0 r0 g.2 := kept_gatherRun _ _ _ _ _ _ _ _ _ hf (List.Subset.trans (by decide) hk0)
  have hz : Kept ps0 r0 z.2 := kept_bundlesRun _ _ _ _ _ _ _ hg (List.Subset.trans (by decide) hk0)
  clear_value z g f
  repeat (any_goals first | exact hf | exact hg | exact hz | split)
  exact kept_scatterRun _ _ _ _ _ _ _ _ hz (List.Subset.trans (by decide) hk0)

theorem kept_lsFinishRun {ps0 : List Part} {r0 : State} (i : Fin 5) (s : State) (hg0 : Kept ps0 r0 s) (hk0 : [.cores, .doms, .pairs, .mem, .memRegs, .memErrs, .voter, .solvers, .hsb, .sync, .fg, .mbx, .esc, .ps, .boot, .arb, .log, .freeCtr] ⊆ ps0) : Kept ps0 r0 (lsFinishRun i s) := by
  unfold lsFinishRun
  split
  · exact hg0
  · extract_lets total z s2 s3
    have hz : Kept ps0 r0 z.2 := kept_runBody _ _ _ _ _ _ hg0 (List.Subset.trans (by decide) hk0)
    clear_value z
    have h2 : Kept ps0 r0 s2 := kept_modQueue _ _ _ _ hz (List.Subset.trans (by decide) hk0)
    clear_value s2
    have h3 : Kept ps0 r0 s3 := by
      dsimp only [s3]
      split
      · exact kept_raiseIrq _ _ _ h2 (List.Subset.trans (by decide) hk0)
      · exact h2
    clear_value s3
    split
    · exact kept_lsFault _ _ _ _ hz (List.Subset.trans (by decide) hk0)
    · split
      · exact kept_lsFault _ _ _ _ hz (List.Subset.trans (by decide) hk0)
      · exact kept_lsEnded _ _ _ h3 (List.Subset.trans (by decide) hk0)

theorem kept_windowAccess {ps0 : List Part} {r0 : State} (i : Fin 5) (k : Fin 2) (wr : Bool) (off n v : Nat) (s : State) (hg0 : Kept ps0 r0 s) (hk0 : [.solvers] ⊆ ps0) : Kept ps0 r0 (windowAccess i k wr off n v s).2.2 := by
  unfold windowAccess
  try dsimp only
  repeat (any_goals first | with_reducible assumption | with_reducible apply kept_modSolver | with_reducible apply kept_modQueue | (with_reducible apply kept_foldl; rotate_left; intro _ _ _) | (with_reducible apply kept_foldl2; rotate_left; intro _ _ _) | split | with_reducible apply kept_upd_solvers | with_reducible intro _ | exact List.Subset.trans (by decide) hk0)

theorem kept_solvOn {ps0 : List Part} {r0 : State} (s : State) (hg0 : Kept ps0 r0 s) (hk0 : [.boot] ⊆ ps0) : Kept ps0 r0 (solvOn s) := by
  unfold solvOn
  repeat (any_goals first | with_reducible assumption | split | with_reducible apply kept_upd_boot | with_reducible intro _ | exact List.Subset.trans (by decide) hk0)

theorem kept_solvDown {ps0 : List Part} {r0 : State} (s : State) (hg0 : Kept ps0 r0 s) (hk0 : [.solvers, .boot] ⊆ ps0) : Kept ps0 r0 (solvDown s) := by
  unfold solvDown
  repeat (any_goals first | with_reducible assumption | with_reducible apply kept_setPd | split | with_reducible apply kept_upd_solvers | with_reducible intro _ | exact List.Subset.trans (by decide) hk0)

theorem kept_solvOff {ps0 : List Part} {r0 : State} (s : State) (hg0 : Kept ps0 r0 s) (hk0 : [.solvers, .boot] ⊆ ps0) : Kept ps0 r0 (solvOff s) := by
  unfold solvOff
  repeat (any_goals first | with_reducible assumption | with_reducible apply kept_solvDown | split | with_reducible apply kept_upd_boot | with_reducible intro _ | exact List.Subset.trans (by decide) hk0)

theorem kept_lsDisableEffect {ps0 : List Part} {r0 : State} (i : Fin 5) (r : CmdRef) (s : State) (hg0 : Kept ps0 r0 s) (hk0 : [.cores, .solvers, .sync, .mbx, .boot] ⊆ ps0) : Kept ps0 r0 (lsDisableEffect i r s) := by
  unfold lsDisableEffect
  repeat (any_goals first | with_reducible assumption | with_reducible apply kept_finish | with_reducible apply kept_solvOff | with_reducible apply kept_lsUnloadOp | with_reducible apply kept_modSolver | with_reducible apply kept_lsAbortQueue | split | with_reducible intro _ | exact List.Subset.trans (by decide) hk0)

theorem kept_lsDisableTake {ps0 : List Part} {r0 : State} (i : Fin 5) (s : State) (hg0 : Kept ps0 r0 s) (hk0 : [.cores, .solvers, .sync, .mbx, .boot] ⊆ ps0) : Kept ps0 r0 (lsDisableTake i s) := by
  unfold lsDisableTake
  repeat (any_goals first | with_reducible assumption | with_reducible apply kept_lsDisableEffect | split | with_reducible intro _ | exact List.Subset.trans (by decide) hk0)

theorem kept_eachLane {ps0 : List Part} {r0 : State} (g : Fin 2) (f : Fin 3 → State → State) (s : State) (hf_f : ∀ (y0 : Fin 3) (t : State), Kept ps0 r0 t → Kept ps0 r0 (f y0 t)) (hg0 : Kept ps0 r0 s) (hk0 : [] ⊆ ps0) : Kept ps0 r0 (eachLane g f s) := by
  unfold eachLane
  repeat (any_goals first | with_reducible assumption | with_reducible apply hf_f | (with_reducible apply kept_foldl; rotate_left; intro _ _ _) | (with_reducible apply kept_foldl2; rotate_left; intro _ _ _) | split | with_reducible intro _ | exact List.Subset.trans (by decide) hk0 | dsimp only)

theorem kept_connShow {ps0 : List Part} {r0 : State} (l : Fin 3) (g : Fin 2) (im : Image) (k : Nat) (d : ConnDecl) (s : State) (hg0 : Kept ps0 r0 s) (hk0 : [.cores, .doms, .mem, .voter, .solvers, .freeCtr] ⊆ ps0) : Kept ps0 r0 (connShow l g im k d s) := by
  unfold connShow
  repeat (any_goals first | with_reducible assumption | with_reducible apply kept_store | with_reducible apply kept_writeEntry | split | with_reducible intro _ | exact List.Subset.trans (by decide) hk0)

theorem kept_connExpire {ps0 : List Part} {r0 : State} (l : Fin 3) (g : Fin 2) (im : Image) (k : Nat) (d : ConnDecl) (s : State) (hg0 : Kept ps0 r0 s) (hk0 : [.cores, .doms, .mem, .voter, .solvers, .conns, .log, .freeCtr] ⊆ ps0) : Kept ps0 r0 (connExpire l g im k d s) := by
  unfold connExpire
  try dsimp only
  repeat (any_goals first | with_reducible assumption | with_reducible apply kept_addLog | with_reducible apply kept_modConn | with_reducible apply kept_connShow | split | with_reducible apply kept_upd_voter | with_reducible apply kept_upd_doms | with_reducible apply kept_upd_cores | with_reducible apply kept_upd_conns | with_reducible apply kept_upd_log | with_reducible apply kept_upd_solvers | with_reducible apply kept_upd_freeCtr | with_reducible apply kept_upd_mem | with_reducible intro _ | exact List.Subset.trans (by decide) hk0)

theorem kept_connReceive {ps0 : List Part} {r0 : State} (l : Fin 3) (g : Fin 2) (im : Image) (k : Nat) (d : ConnDecl) (s : State) (hg0 : Kept ps0 r0 s) (hk0 : [.cores, .doms, .mem, .voter, .solvers, .conns, .log, .freeCtr] ⊆ ps0) : Kept ps0 r0 (connReceive l g im k d s) := by
  unfold connReceive
  repeat (any_goals first | with_reducible assumption | with_reducible apply kept_modConn | with_reducible apply kept_connShow | with_reducible apply kept_connExpire | with_reducible apply kept_writeEntry | split | with_reducible intro _ | exact List.Subset.trans (by decide) hk0)

theorem kept_connsReceive {ps0 : List Part} {r0 : State} (g : Fin 2) (im : Image) (l : Fin 3) (s : State) (hg0 : Kept ps0 r0 s) (hk0 : [.cores, .doms, .mem, .voter, .solvers, .conns, .log, .freeCtr] ⊆ ps0) : Kept ps0 r0 (connsReceive g im l s) := by
  unfold connsReceive
  repeat (any_goals first | with_reducible assumption | with_reducible apply kept_connReceive | (with_reducible apply kept_foldl; rotate_left; intro _ _ _) | (with_reducible apply kept_foldl2; rotate_left; intro _ _ _) | split | with_reducible intro _ | exact List.Subset.trans (by decide) hk0)

theorem kept_stepSections {ps0 : List Part} {r0 : State} (g : Fin 2) (x : IxlDecl) (l : Fin 3) (s : State) (hg0 : Kept ps0 r0 s) (hk0 : [.ixl] ⊆ ps0) : Kept ps0 r0 (stepSections g x l s) := by
  unfold stepSections
  repeat (any_goals first | with_reducible assumption | with_reducible apply kept_modIxl | split | with_reducible intro _ | exact List.Subset.trans (by decide) hk0)

theorem kept_stepPoints {ps0 : List Part} {r0 : State} (g : Fin 2) (x : IxlDecl) (l : Fin 3) (s : State) (hg0 : Kept ps0 r0 s) (hk0 : [.ixl] ⊆ ps0) : Kept ps0 r0 (stepPoints g x l s) := by
  unfold stepPoints
  repeat (any_goals first | with_reducible assumption | with_reducible apply kept_modIxl | split | with_reducible intro _ | exact List.Subset.trans (by decide) hk0)

theorem kept_stepTimers {ps0 : List Part} {r0 : State} (x : IxlDecl) (l : Fin 3) (s : State) (hg0 : Kept ps0 r0 s) (hk0 : [.ixl] ⊆ ps0) : Kept ps0 r0 (stepTimers x l s) := by
  unfold stepTimers
  repeat (any_goals first | with_reducible assumption | with_reducible apply kept_modIxl | split | with_reducible intro _ | exact List.Subset.trans (by decide) hk0)

theorem kept_unlockPoints {ps0 : List Part} {r0 : State} (l : Fin 3) (ps : List Nat) (s : State) (hg0 : Kept ps0 r0 s) (hk0 : [.ixl] ⊆ ps0) : Kept ps0 r0 (unlockPoints l ps s) := by
  unfold unlockPoints
  repeat (any_goals first | with_reducible assumption | with_reducible apply kept_modPoint | (with_reducible apply kept_foldl; rotate_left; intro _ _ _) | (with_reducible apply kept_foldl2; rotate_left; intro _ _ _) | split | with_reducible intro _ | exact List.Subset.trans (by decide) hk0)

theorem kept_rmuVote {ps0 : List Part} {r0 : State} (op : Fin 3) (r : Nat) (g : Fin 2) (ls : List (Fin 3)) (s : State) (hg0 : Kept ps0 r0 s) (hk0 : [.cyc, .cores, .doms, .mem, .memRegs, .memErrs, .banks, .voter, .solvers, .rmus, .ixl, .hsb, .sync, .fg, .mbx, .cim, .esc, .ps, .boot, .arb, .log, .freeCtr] ⊆ ps0) : Kept ps0 r0 (rmuVote op r g ls s).2 := by
  unfold rmuVote
  dsimp only
  repeat (any_goals first | with_reducible assumption | with_reducible apply kept_voteResolve | with_reducible apply kept_contribute | with_reducible apply kept_rmuOp | (with_reducible apply kept_foldl; rotate_left; intro _ _ _) | (with_reducible apply kept_foldl2; rotate_left; intro _ _ _) | split | with_reducible intro _ | exact List.Subset.trans (by decide) hk0)

theorem kept_releaseRoute {ps0 : List Part} {r0 : State} (g : Fin 2) (r : Nat) (ls : List (Fin 3)) (s : State) (hg0 : Kept ps0 r0 s) (hk0 : [.cyc, .cores, .doms, .mem, .memRegs, .memErrs, .banks, .voter, .solvers, .rmus, .ixl, .hsb, .sync, .fg, .mbx, .cim, .esc, .ps, .boot, .arb, .log, .freeCtr] ⊆ ps0) : Kept ps0 r0 (releaseRoute g r ls s) := by
  unfold releaseRoute
  dsimp only
  repeat (any_goals first | with_reducible assumption | with_reducible apply kept_rmuVote | with_reducible apply kept_unlockPoints | with_reducible apply kept_modRoute | (with_reducible apply kept_foldl; rotate_left; intro _ _ _) | (with_reducible apply kept_foldl2; rotate_left; intro _ _ _) | split | with_reducible intro _ | exact List.Subset.trans (by decide) hk0)

theorem kept_moveExpire {ps0 : List Part} {r0 : State} (l : Fin 3) (p : Nat) (s : State) (hg0 : Kept ps0 r0 s) (hk0 : [.ixl] ⊆ ps0) : Kept ps0 r0 (moveExpire l p s) := by
  unfold moveExpire
  repeat (any_goals first | with_reducible assumption | with_reducible apply kept_modPoint | split | with_reducible intro _ | exact List.Subset.trans (by decide) hk0)

theorem kept_approachExpire {ps0 : List Part} {r0 : State} (g : Fin 2) (r : Nat) (s : State) (hg0 : Kept ps0 r0 s) (hk0 : [.cyc, .cores, .doms, .mem, .memRegs, .memErrs, .banks, .voter, .solvers, .rmus, .ixl, .hsb, .sync, .fg, .mbx, .cim, .esc, .ps, .boot, .arb, .log, .freeCtr] ⊆ ps0) : Kept ps0 r0 (approachExpire g r s) := by
  unfold approachExpire
  repeat (any_goals first | with_reducible assumption | with_reducible apply kept_releaseRoute | split | with_reducible intro _ | exact List.Subset.trans (by decide) hk0)

theorem kept_emergencyExpire {ps0 : List Part} {r0 : State} (g : Fin 2) (r : Nat) (s : State) (hg0 : Kept ps0 r0 s) (hk0 : [.cyc, .cores, .doms, .mem, .memRegs, .memErrs, .banks, .voter, .solvers, .rmus, .ixl, .hsb, .sync, .fg, .mbx, .cim, .esc, .ps, .boot, .arb, .log, .freeCtr] ⊆ ps0) : Kept ps0 r0 (emergencyExpire g r s) := by
  unfold emergencyExpire
  repeat (any_goals first | with_reducible assumption | with_reducible apply kept_releaseRoute | split | with_reducible intro _ | exact List.Subset.trans (by decide) hk0)

theorem kept_overlapExpire {ps0 : List Part} {r0 : State} (g : Fin 2) (r : Nat) (d : RouteDecl) (s : State) (hg0 : Kept ps0 r0 s) (hk0 : [.cyc, .cores, .doms, .mem, .memRegs, .memErrs, .banks, .voter, .solvers, .rmus, .ixl, .hsb, .sync, .fg, .mbx, .cim, .esc, .ps, .boot, .arb, .log, .freeCtr] ⊆ ps0) : Kept ps0 r0 (overlapExpire g r d s) := by
  unfold overlapExpire
  repeat (any_goals first | with_reducible assumption | with_reducible apply kept_releaseRoute | with_reducible apply kept_modRoute | with_reducible apply kept_eachLane | split | with_reducible intro _ | exact List.Subset.trans (by decide) hk0 | dsimp only)

theorem kept_holdExpire {ps0 : List Part} {r0 : State} (l : Fin 3) (s : State) (hg0 : Kept ps0 r0 s) (hk0 : [.ixl] ⊆ ps0) : Kept ps0 r0 (holdExpire l s) := by
  unfold holdExpire
  repeat (any_goals first | with_reducible assumption | with_reducible apply kept_modIxl | split | with_reducible intro _ | exact List.Subset.trans (by decide) hk0)

theorem kept_stepExpiries {ps0 : List Part} {r0 : State} (g : Fin 2) (x : IxlDecl) (s : State) (hg0 : Kept ps0 r0 s) (hk0 : [.cyc, .cores, .doms, .mem, .memRegs, .memErrs, .banks, .voter, .solvers, .rmus, .ixl, .hsb, .sync, .fg, .mbx, .cim, .esc, .ps, .boot, .arb, .log, .freeCtr] ⊆ ps0) : Kept ps0 r0 (stepExpiries g x s) := by
  unfold stepExpiries
  repeat (any_goals first | with_reducible assumption | with_reducible apply kept_approachExpire | with_reducible apply kept_emergencyExpire | with_reducible apply kept_moveExpire | with_reducible apply kept_holdExpire | with_reducible apply kept_eachLane | (with_reducible apply kept_foldl; rotate_left; intro _ _ _) | (with_reducible apply kept_foldl2; rotate_left; intro _ _ _) | split | with_reducible intro _ | exact List.Subset.trans (by decide) hk0 | dsimp only)

theorem kept_stepPassage {ps0 : List Part} {r0 : State} (x : IxlDecl) (r : Nat) (d : RouteDecl) (l : Fin 3) (s : State) (hg0 : Kept ps0 r0 s) (hk0 : [.ixl] ⊆ ps0) : Kept ps0 r0 (stepPassage x r d l s) := by
  unfold stepPassage
  try dsimp only
  repeat (any_goals first | with_reducible assumption | with_reducible apply kept_modRoute | with_reducible apply kept_unlockPoints | split | with_reducible apply kept_upd_ixl | with_reducible intro _ | exact List.Subset.trans (by decide) hk0)

theorem kept_stepRelease {ps0 : List Part} {r0 : State} (g : Fin 2) (x : IxlDecl) (r : Nat) (d : RouteDecl) (s : State) (hg0 : Kept ps0 r0 s) (hk0 : [.cyc, .cores, .doms, .mem, .memRegs, .memErrs, .banks, .voter, .solvers, .rmus, .ixl, .hsb, .sync, .fg, .mbx, .cim, .esc, .ps, .boot, .arb, .log, .freeCtr] ⊆ ps0) : Kept ps0 r0 (stepRelease g x r d s) := by
  unfold stepRelease
  repeat (any_goals first | with_reducible assumption | with_reducible apply kept_stepPassage | with_reducible apply kept_eachLane | with_reducible apply kept_overlapExpire | split | with_reducible intro _ | exact List.Subset.trans (by decide) hk0 | dsimp only)

theorem kept_lockAvailable {ps0 : List Part} {r0 : State} (l : Fin 3) (ps : List (Nat × Bool)) (held : List Nat) (s : State) (hg0 : Kept ps0 r0 s) (hk0 : [.ixl] ⊆ ps0) : Kept ps0 r0 (lockAvailable l ps held s).2 := by
  unfold lockAvailable
  repeat (any_goals first | with_reducible assumption | with_reducible apply kept_modPoint | (with_reducible apply kept_foldl; rotate_left; intro _ _ _) | (with_reducible apply kept_foldl2; rotate_left; intro _ _ _) | split | with_reducible intro _ | exact List.Subset.trans (by decide) hk0)

theorem kept_stepRoute {ps0 : List Part} {r0 : State} (g : Fin 2) (x : IxlDecl) (r : Nat) (d : RouteDecl) (l : Fin 3) (s : State) (hg0 : Kept ps0 r0 s) (hk0 : [.ixl] ⊆ ps0) : Kept ps0 r0 (stepRoute g x r d l s) := by
  unfold stepRoute
  try dsimp only
  repeat (any_goals first | with_reducible assumption | with_reducible apply kept_lockAvailable | with_reducible apply kept_modRoute | split | with_reducible apply kept_upd_ixl | with_reducible intro _ | exact List.Subset.trans (by decide) hk0)

theorem kept_moveGate {ps0 : List Part} {r0 : State} (x : IxlDecl) (p : Nat) (d : PointDecl) (l : Fin 3) (s : State) (hg0 : Kept ps0 r0 s) (hk0 : [.ixl] ⊆ ps0) : Kept ps0 r0 (moveGate x p d l s) := by
  unfold moveGate
  repeat (any_goals first | with_reducible assumption | with_reducible apply kept_modPoint | split | with_reducible intro _ | exact List.Subset.trans (by decide) hk0)

theorem kept_stepGates {ps0 : List Part} {r0 : State} (g : Fin 2) (x : IxlDecl) (l : Fin 3) (s : State) (hg0 : Kept ps0 r0 s) (hk0 : [.ixl] ⊆ ps0) : Kept ps0 r0 (stepGates g x l s) := by
  unfold stepGates
  repeat (any_goals first | with_reducible assumption | with_reducible apply kept_modIxl | with_reducible apply kept_moveGate | (with_reducible apply kept_foldl; rotate_left; intro _ _ _) | (with_reducible apply kept_foldl2; rotate_left; intro _ _ _) | split | with_reducible intro _ | exact List.Subset.trans (by decide) hk0)

theorem kept_cancelEnd {ps0 : List Part} {r0 : State} (g : Fin 2) (r : Nat) (d : RouteDecl) (s : State) (hg0 : Kept ps0 r0 s) (hk0 : [.cyc, .cores, .doms, .mem, .memRegs, .memErrs, .banks, .voter, .solvers, .rmus, .ixl, .hsb, .sync, .fg, .mbx, .cim, .esc, .ps, .boot, .arb, .log, .freeCtr] ⊆ ps0) : Kept ps0 r0 (cancelEnd g r d s) := by
  unfold cancelEnd
  repeat (any_goals first | with_reducible assumption | with_reducible apply kept_releaseRoute | with_reducible apply kept_modRoute | (with_reducible apply kept_foldl; rotate_left; intro _ _ _) | (with_reducible apply kept_foldl2; rotate_left; intro _ _ _) | split | with_reducible intro _ | exact List.Subset.trans (by decide) hk0)

theorem kept_answerIxl {ps0 : List Part} {r0 : State} (l : Fin 3) (a : IxlAnswer) (s : State) (hg0 : Kept ps0 r0 s) (hk0 : [.ixl, .bus] ⊆ ps0) : Kept ps0 r0 (answerIxl l a s) := by
  unfold answerIxl
  repeat (any_goals first | with_reducible assumption | with_reducible apply kept_answer | with_reducible apply kept_modIxl | split | with_reducible intro _ | exact List.Subset.trans (by decide) hk0)

theorem kept_setRoute {ps0 : List Part} {r0 : State} (g : Fin 2) (r : Nat) (s : State) (hg0 : Kept ps0 r0 s) (hk0 : [.cyc, .cores, .doms, .mem, .memRegs, .memErrs, .banks, .voter, .solvers, .rmus, .ixl, .hsb, .sync, .fg, .mbx, .cim, .esc, .ps, .boot, .arb, .log, .bus, .freeCtr] ⊆ ps0) : Kept ps0 r0 (setRoute g r s) := by
  unfold setRoute
  extract_lets ls s1
  have h1 : Kept ps0 r0 s1 := kept_foldl hg0 fun a l h => by
    split
    · exact h
    · exact kept_answerIxl _ _ _ h (List.Subset.trans (by decide) hk0)
  clear_value s1
  have hv := kept_rmuVote (ps0 := ps0) (r0 := r0) 1 r g ls s1 h1 (List.Subset.trans (by decide) hk0)
  split <;> rename_i e <;> rw [e] at hv
  · exact hv
  · refine kept_foldl hv fun a l h => ?_
    have ha : Kept ps0 r0 (answerIxl l (outcomeAnswer ‹Nat›) a) := kept_answerIxl _ _ _ h (List.Subset.trans (by decide) hk0)
    dsimp only
    split
    · exact kept_modRoute _ _ _ _ ha (List.Subset.trans (by decide) hk0)
    · exact ha

theorem kept_cancelRoute {ps0 : List Part} {r0 : State} (g : Fin 2) (r : Nat) (s : State) (hg0 : Kept ps0 r0 s) (hk0 : [.cyc, .cores, .doms, .mem, .memRegs, .memErrs, .banks, .voter, .solvers, .rmus, .ixl, .hsb, .sync, .fg, .mbx, .cim, .esc, .ps, .boot, .arb, .log, .bus, .freeCtr] ⊆ ps0) : Kept ps0 r0 (cancelRoute g r s) := by
  unfold cancelRoute
  repeat (any_goals first | with_reducible assumption | with_reducible apply kept_releaseRoute | with_reducible apply kept_modRoute | with_reducible apply kept_answerIxl | with_reducible apply kept_eachLane | split | with_reducible intro _ | exact List.Subset.trans (by decide) hk0 | dsimp only)

theorem kept_emergencyRoute {ps0 : List Part} {r0 : State} (g : Fin 2) (x : IxlDecl) (r : Nat) (s : State) (hg0 : Kept ps0 r0 s) (hk0 : [.ixl, .bus] ⊆ ps0) : Kept ps0 r0 (emergencyRoute g x r s) := by
  unfold emergencyRoute
  repeat (any_goals first | with_reducible assumption | with_reducible apply kept_modIxl | with_reducible apply kept_modRoute | with_reducible apply kept_answerIxl | with_reducible apply kept_eachLane | split | with_reducible intro _ | exact List.Subset.trans (by decide) hk0 | dsimp only)

theorem kept_movePoint {ps0 : List Part} {r0 : State} (g : Fin 2) (p : Nat) (rev : Bool) (s : State) (hg0 : Kept ps0 r0 s) (hk0 : [.ixl, .bus] ⊆ ps0) : Kept ps0 r0 (movePoint g p rev s) := by
  unfold movePoint
  repeat (any_goals first | with_reducible assumption | with_reducible apply kept_modPoint | with_reducible apply kept_answerIxl | with_reducible apply kept_eachLane | split | with_reducible intro _ | exact List.Subset.trans (by decide) hk0 | dsimp only)

theorem kept_ixlRequest {ps0 : List Part} {r0 : State} (g : Fin 2) (x : IxlDecl) (q : IxlReq) (s : State) (hg0 : Kept ps0 r0 s) (hk0 : [.cyc, .cores, .doms, .mem, .memRegs, .memErrs, .banks, .voter, .solvers, .rmus, .ixl, .hsb, .sync, .fg, .mbx, .cim, .esc, .ps, .boot, .arb, .log, .bus, .freeCtr] ⊆ ps0) : Kept ps0 r0 (ixlRequest g x q s) := by
  unfold ixlRequest
  repeat (any_goals first | with_reducible assumption | with_reducible apply kept_movePoint | with_reducible apply kept_emergencyRoute | with_reducible apply kept_cancelRoute | with_reducible apply kept_setRoute | split | with_reducible intro _ | exact List.Subset.trans (by decide) hk0)

theorem kept_ixlAsk {ps0 : List Part} {r0 : State} (q : IxlReq) (s : State) (hg0 : Kept ps0 r0 s) (hk0 : [.cyc, .cores, .doms, .mem, .memRegs, .memErrs, .banks, .voter, .solvers, .rmus, .ixl, .hsb, .sync, .fg, .mbx, .cim, .esc, .ps, .boot, .arb, .log, .bus, .freeCtr] ⊆ ps0) : Kept ps0 r0 (ixlAsk q s) := by
  unfold ixlAsk
  repeat (any_goals first | with_reducible assumption | with_reducible apply kept_modGroup | with_reducible apply kept_ixlRequest | split | with_reducible intro _ | exact List.Subset.trans (by decide) hk0)

theorem kept_stepRequests {ps0 : List Part} {r0 : State} (g : Fin 2) (x : IxlDecl) (s : State) (hg0 : Kept ps0 r0 s) (hk0 : [.cyc, .cores, .doms, .mem, .memRegs, .memErrs, .banks, .voter, .solvers, .rmus, .ixl, .hsb, .sync, .fg, .mbx, .cim, .esc, .ps, .boot, .arb, .log, .bus, .freeCtr] ⊆ ps0) : Kept ps0 r0 (stepRequests g x s) := by
  unfold stepRequests
  repeat (any_goals first | with_reducible assumption | with_reducible apply kept_modGroup | with_reducible apply kept_ixlRequest | (with_reducible apply kept_foldl; rotate_left; intro _ _ _) | (with_reducible apply kept_foldl2; rotate_left; intro _ _ _) | split | with_reducible intro _ | exact List.Subset.trans (by decide) hk0)

theorem kept_ixlReceive {ps0 : List Part} {r0 : State} (g : Fin 2) (s : State) (hg0 : Kept ps0 r0 s) (hk0 : [.cyc, .cores, .doms, .mem, .memRegs, .memErrs, .banks, .voter, .solvers, .rmus, .ixl, .conns, .hsb, .sync, .fg, .mbx, .cim, .esc, .ps, .boot, .arb, .log, .freeCtr] ⊆ ps0) : Kept ps0 r0 (ixlReceive g s) := by
  unfold ixlReceive
  try dsimp only
  repeat (any_goals first | with_reducible assumption | with_reducible apply kept_stepExpiries | with_reducible apply kept_stepRelease | with_reducible apply kept_stepSections | with_reducible apply kept_stepPoints | with_reducible apply kept_stepTimers | with_reducible apply kept_connsReceive | with_reducible apply kept_eachLane | (with_reducible apply kept_foldl; rotate_left; intro _ _ _) | (with_reducible apply kept_foldl2; rotate_left; intro _ _ _) | split | with_reducible apply kept_upd_memErrs_solvers_rmus_boot | with_reducible apply kept_upd_rmus_ixl_conns | with_reducible apply kept_upd_memRegs_memErrs | with_reducible apply kept_upd_memRegs_banks | with_reducible apply kept_upd_cores_banks | with_reducible apply kept_upd_voter_arb | with_reducible apply kept_upd_cyc_arb | with_reducible apply kept_upd_boot | with_reducible apply kept_upd_voter | with_reducible apply kept_upd_doms | with_reducible apply kept_upd_cores | with_reducible apply kept_upd_cim | with_reducible apply kept_upd_mbx | with_reducible apply kept_upd_cyc | with_reducible apply kept_upd_arb | with_reducible apply kept_upd_conns | with_reducible apply kept_upd_ixl | with_reducible apply kept_upd_fg | with_reducible apply kept_upd_ps | with_reducible apply kept_upd_log | with_reducible apply kept_upd_solvers | with_reducible apply kept_upd_esc | with_reducible apply kept_upd_memRegs | with_reducible apply kept_upd_memErrs | with_reducible apply kept_upd_sync | with_reducible apply kept_upd_rmus | with_reducible apply kept_upd_banks | with_reducible apply kept_upd_hsb | with_reducible apply kept_upd_freeCtr | with_reducible apply kept_upd_mem | with_reducible intro _ | exact List.Subset.trans (by decide) hk0 | dsimp only)

theorem kept_ixlFinish {ps0 : List Part} {r0 : State} (g : Fin 2) (s : State) (hg0 : Kept ps0 r0 s) (hk0 : [.cyc, .cores, .doms, .mem, .memRegs, .memErrs, .banks, .voter, .solvers, .rmus, .ixl, .conns, .hsb, .sync, .fg, .mbx, .cim, .esc, .ps, .boot, .arb, .log, .bus, .freeCtr] ⊆ ps0) : Kept ps0 r0 (ixlFinish g s) := by
  unfold ixlFinish
  repeat (any_goals first | with_reducible assumption | with_reducible apply kept_telegramNext | with_reducible apply kept_modGroup | with_reducible apply kept_gateWrite | with_reducible apply kept_cancelEnd | with_reducible apply kept_stepGates | with_reducible apply kept_stepRoute | with_reducible apply kept_eachLane | with_reducible apply kept_stepRequests | (with_reducible apply kept_foldl; rotate_left; intro _ _ _) | (with_reducible apply kept_foldl2; rotate_left; intro _ _ _) | split | with_reducible intro _ | exact List.Subset.trans (by decide) hk0 | dsimp only)

theorem kept_rmuBy {ps0 : List Part} {r0 : State} (c : CoreId) (f : Fin 3 → State → State) (s : State) (hf : ∀ k t, Kept ps0 r0 t → Kept ps0 r0 (f k t)) (hg0 : Kept ps0 r0 s) (hk0 : [.memRegs, .bus] ⊆ ps0) : Kept ps0 r0 (rmuBy c f s) := by
  unfold rmuBy answer countAf
  repeat (any_goals first | with_reducible assumption | with_reducible apply hf | split | with_reducible apply kept_upd_bus | with_reducible apply kept_upd_memRegs | with_reducible apply kept_upd_solvers | exact List.Subset.trans (by decide) hk0)

theorem kept_modRmu {ps0 : List Part} {r0 : State} (l : Fin 3) (f : Rmu → Rmu) (s : State) (hg0 : Kept ps0 r0 s) (hk0 : [.rmus] ⊆ ps0) : Kept ps0 r0 (modRmu l f s) := by
  unfold modRmu
  repeat (any_goals first | with_reducible assumption | split | with_reducible apply kept_upd_rmus | with_reducible intro _ | exact List.Subset.trans (by decide) hk0)

theorem kept_rmuArmOp {ps0 : List Part} {r0 : State} (l : Fin 3) (s : State) (hg0 : Kept ps0 r0 s) (hk0 : [.rmus] ⊆ ps0) : Kept ps0 r0 (rmuArmOp l s) := by
  unfold rmuArmOp
  repeat (any_goals first | with_reducible assumption | with_reducible apply kept_modRmu | split | with_reducible intro _ | exact List.Subset.trans (by decide) hk0)

theorem kept_rmuDisarmOp {ps0 : List Part} {r0 : State} (l : Fin 3) (s : State) (hg0 : Kept ps0 r0 s) (hk0 : [.rmus] ⊆ ps0) : Kept ps0 r0 (rmuDisarmOp l s) := by
  unfold rmuDisarmOp
  repeat (any_goals first | with_reducible assumption | with_reducible apply kept_modRmu | split | with_reducible intro _ | exact List.Subset.trans (by decide) hk0)

theorem kept_ixlRestart {ps0 : List Part} {r0 : State} (g : Fin 2) (im : Image) (s : State) (hg0 : Kept ps0 r0 s) (hk0 : [.cores, .doms, .mem, .voter, .solvers, .rmus, .ixl, .conns, .freeCtr] ⊆ ps0) : Kept ps0 r0 (ixlRestart g im s) := by
  unfold ixlRestart
  repeat (any_goals first | with_reducible assumption | with_reducible apply kept_modGroup | with_reducible apply kept_readySafe | with_reducible apply kept_modIxl | with_reducible apply kept_modRmu | with_reducible apply kept_store | with_reducible apply kept_writeEntry | with_reducible apply kept_eachLane | (with_reducible apply kept_foldl; rotate_left; intro _ _ _) | (with_reducible apply kept_foldl2; rotate_left; intro _ _ _) | split | with_reducible apply kept_upd_conns | with_reducible intro _ | exact List.Subset.trans (by decide) hk0 | dsimp only)

end Sys2Proof.Laws
end

