-- ==== Sys2Proof/Laws/KeptRing.lean ====
section
/-! SUPPORT. What each function changes at most: the ring, standby, the field side, supervision, the clock and the modes. -/

namespace Sys2Proof.Laws
open Sys2Proof Sys2Proof.Machine Sys2Proof.Safety

theorem kept_modRing {ps0 : List Part} {r0 : State} (f : Ring → Ring) (s : State) (hg0 : Kept ps0 r0 s) (hk0 : [.ring] ⊆ ps0) : Kept ps0 r0 (modRing f s) := by
  unfold modRing
  repeat (any_goals first | with_reducible assumption | split | with_reducible apply kept_upd_ring | with_reducible intro _ | exact List.Subset.trans (by decide) hk0)

theorem kept_modRtm {ps0 : List Part} {r0 : State} (f : Rtm → Rtm) (s : State) (hg0 : Kept ps0 r0 s) (hk0 : [.rtm] ⊆ ps0) : Kept ps0 r0 (modRtm f s) := by
  unfold modRtm
  repeat (any_goals first | with_reducible assumption | split | with_reducible apply kept_upd_rtm | with_reducible intro _ | exact List.Subset.trans (by decide) hk0)

theorem kept_idleLinks {ps0 : List Part} {r0 : State} (s : State) (hg0 : Kept ps0 r0 s) (hk0 : [.ring] ⊆ ps0) : Kept ps0 r0 (idleLinks s) := by
  unfold idleLinks
  repeat (any_goals first | with_reducible assumption | with_reducible apply kept_modRing | split | with_reducible intro _ | exact List.Subset.trans (by decide) hk0)

theorem kept_moveDim {ps0 : List Part} {r0 : State} (src : Nat) (d : RingDim) (s : State) (hg0 : Kept ps0 r0 s) (hk0 : [.ring, .rtm, .boot, .arb] ⊆ ps0) : Kept ps0 r0 (moveDim src d s) := by
  unfold moveDim
  repeat (any_goals first | with_reducible assumption | with_reducible apply kept_idleLinks | with_reducible apply kept_modRing | with_reducible apply kept_modRtm | with_reducible apply kept_setDim | with_reducible apply kept_setPd | split | with_reducible intro _ | exact List.Subset.trans (by decide) hk0)

theorem kept_engineReads {ps0 : List Part} {r0 : State} (l : Layout) (s : State) (hg0 : Kept ps0 r0 s) (hk0 : [.memRegs, .memErrs] ⊆ ps0) : Kept ps0 r0 (engineReads l s).2 := by
  unfold engineReads
  repeat (any_goals first | with_reducible assumption | with_reducible apply kept_checkWord | (with_reducible apply kept_foldl; rotate_left; intro _ _ _) | (with_reducible apply kept_foldl2; rotate_left; intro _ _ _) | split | with_reducible intro _ | exact List.Subset.trans (by decide) hk0)

theorem kept_frtPlace {ps0 : List Part} {r0 : State} (s : State) (hg0 : Kept ps0 r0 s) (hk0 : [.ring] ⊆ ps0) : Kept ps0 r0 (frtPlace s) := by
  unfold frtPlace
  repeat (any_goals first | with_reducible assumption | with_reducible apply kept_modRing | split | with_reducible intro _ | exact List.Subset.trans (by decide) hk0)

theorem kept_mbxSubmit {ps0 : List Part} {r0 : State} (use : FrtUse) (q : FrtReq) (s : State) (hg0 : Kept ps0 r0 s) (hk0 : [.mem, .ring] ⊆ ps0) : Kept ps0 r0 (mbxSubmit use q s) := by
  unfold mbxSubmit
  repeat (any_goals first | with_reducible assumption | with_reducible apply kept_modRing | with_reducible apply kept_writeBytes | split | with_reducible intro _ | exact List.Subset.trans (by decide) hk0)

theorem kept_mbxReply {ps0 : List Part} {r0 : State} (a : BitVec 12) (s : State) (hg0 : Kept ps0 r0 s) (hk0 : [.mem, .ring, .mbx] ⊆ ps0) : Kept ps0 r0 (mbxReply a s) := by
  unfold mbxReply
  repeat (any_goals first | with_reducible assumption | with_reducible apply kept_mbxSubmit | split | with_reducible apply kept_upd_mbx | with_reducible intro _ | exact List.Subset.trans (by decide) hk0)

theorem kept_mbxFreight {ps0 : List Part} {r0 : State} (l : Layout) (s : State) (hg0 : Kept ps0 r0 s) (hk0 : [.mem, .ring, .mbx] ⊆ ps0) : Kept ps0 r0 (mbxFreight l s) := by
  unfold mbxFreight
  try dsimp only
  repeat (any_goals first | with_reducible assumption | with_reducible apply kept_mbxSubmit | with_reducible apply kept_mbxReply | split | with_reducible apply kept_upd_mem | with_reducible apply kept_upd_ring | with_reducible apply kept_upd_mbx | with_reducible intro _ | exact List.Subset.trans (by decide) hk0)

theorem kept_launchTrain {ps0 : List Part} {r0 : State} (s : State) (hg0 : Kept ps0 r0 s) (hk0 : [.doms, .mem, .memRegs, .memErrs, .ring, .mbx] ⊆ ps0) : Kept ps0 r0 (launchTrain s) := by
  unfold launchTrain
  repeat (any_goals first | with_reducible assumption | with_reducible apply kept_modDom | with_reducible apply kept_mbxFreight | with_reducible apply kept_frtPlace | with_reducible apply kept_engineReads | with_reducible apply kept_modRing | (with_reducible apply kept_foldl; rotate_left; intro _ _ _) | (with_reducible apply kept_foldl2; rotate_left; intro _ _ _) | split | with_reducible intro _ | exact List.Subset.trans (by decide) hk0)

theorem kept_frtDeliver {ps0 : List Part} {r0 : State} (e : FrtEnd) (s : State) (hg0 : Kept ps0 r0 s) (hk0 : [.ring, .sync, .mbx] ⊆ ps0) : Kept ps0 r0 (frtDeliver e s) := by
  unfold frtDeliver
  repeat (any_goals first | with_reducible assumption | with_reducible apply kept_finishRefused | with_reducible apply kept_finish | with_reducible apply kept_modRing | split | with_reducible intro _ | exact List.Subset.trans (by decide) hk0)

theorem kept_frtSubmit {ps0 : List Part} {r0 : State} (use : FrtUse) (q : FrtReq) (s : State) (hg0 : Kept ps0 r0 s) (hk0 : [.mem, .ring, .sync, .mbx] ⊆ ps0) : Kept ps0 r0 (frtSubmit use q s) := by
  unfold frtSubmit
  repeat (any_goals first | with_reducible assumption | with_reducible apply kept_modRing | with_reducible apply kept_writeBytes | with_reducible apply kept_frtDeliver | split | with_reducible intro _ | exact List.Subset.trans (by decide) hk0)

theorem kept_surveyDone {ps0 : List Part} {r0 : State} (s : State) (hg0 : Kept ps0 r0 s) (hk0 : [.rtm, .sync, .mbx] ⊆ ps0) : Kept ps0 r0 (surveyDone s) := by
  unfold surveyDone
  repeat (any_goals first | with_reducible assumption | with_reducible apply kept_finish | with_reducible apply kept_modRtm | (with_reducible apply kept_foldl; rotate_left; intro _ _ _) | (with_reducible apply kept_foldl2; rotate_left; intro _ _ _) | split | with_reducible intro _ | exact List.Subset.trans (by decide) hk0)

theorem kept_surveySubmit {ps0 : List Part} {r0 : State} (use : FrtUse) (q : FrtReq) (s : State) (hg0 : Kept ps0 r0 s) (hk0 : [.mem, .ring, .rtm, .sync, .mbx] ⊆ ps0) : Kept ps0 r0 (surveySubmit use q s) := by
  unfold surveySubmit
  repeat (any_goals first | with_reducible assumption | with_reducible apply kept_modRtm | with_reducible apply kept_surveyDone | with_reducible apply kept_frtSubmit | split | with_reducible intro _ | exact List.Subset.trans (by decide) hk0)

theorem kept_surveyNext {ps0 : List Part} {r0 : State} (s : State) (hg0 : Kept ps0 r0 s) (hk0 : [.mem, .ring, .rtm, .sync, .mbx] ⊆ ps0) : Kept ps0 r0 (surveyNext s) := by
  unfold surveyNext
  dsimp only
  repeat (any_goals first | with_reducible assumption | with_reducible apply kept_surveyDone | with_reducible apply kept_surveySubmit | split | with_reducible intro _ | exact List.Subset.trans (by decide) hk0)

theorem kept_surveyEnd {ps0 : List Part} {r0 : State} (a : BitVec 12) (wr : Bool) (o : FrtOutcome) (s : State) (hg0 : Kept ps0 r0 s) (hk0 : [.mem, .ring, .rtm, .sync, .mbx] ⊆ ps0) : Kept ps0 r0 (surveyEnd a wr o s) := by
  unfold surveyEnd
  repeat (any_goals first | with_reducible assumption | with_reducible apply kept_surveyNext | with_reducible apply kept_modRtm | split | with_reducible intro _ | exact List.Subset.trans (by decide) hk0)

theorem kept_frtFinish {ps0 : List Part} {r0 : State} (i : FrtItem) (o : FrtOutcome) (s : State) (hg0 : Kept ps0 r0 s) (hk0 : [.mem, .ring, .rtm, .sync, .mbx] ⊆ ps0) : Kept ps0 r0 (frtFinish i o s) := by
  unfold frtFinish
  repeat (any_goals first | with_reducible assumption | with_reducible apply kept_surveyEnd | with_reducible apply kept_frtDeliver | with_reducible apply kept_modRing | split | with_reducible intro _ | exact List.Subset.trans (by decide) hk0)

theorem kept_surveyWant {ps0 : List Part} {r0 : State} (as_ : List (BitVec 12)) (s : State) (hg0 : Kept ps0 r0 s) (hk0 : [.rtm] ⊆ ps0) : Kept ps0 r0 (surveyWant as_ s) := by
  unfold surveyWant
  repeat (any_goals first | with_reducible assumption | with_reducible apply kept_modRtm | split | with_reducible intro _ | exact List.Subset.trans (by decide) hk0)

theorem kept_surveyAll {ps0 : List Part} {r0 : State} (s : State) (hg0 : Kept ps0 r0 s) (hk0 : [.rtm] ⊆ ps0) : Kept ps0 r0 (surveyAll s) := by
  unfold surveyAll
  repeat (any_goals first | with_reducible assumption | with_reducible apply kept_modRtm | split | with_reducible intro _ | exact List.Subset.trans (by decide) hk0)

theorem kept_measureSegs {ps0 : List Part} {r0 : State} (s : State) (hg0 : Kept ps0 r0 s) (hk0 : [.rtm, .freeCtr] ⊆ ps0) : Kept ps0 r0 (measureSegs s) := by
  unfold measureSegs
  repeat (any_goals first | with_reducible assumption | with_reducible apply kept_modRtm | with_reducible apply kept_nextFree | split | with_reducible intro _ | exact List.Subset.trans (by decide) hk0)

theorem kept_surveyBegin {ps0 : List Part} {r0 : State} (s : State) (hg0 : Kept ps0 r0 s) (hk0 : [.mem, .ring, .rtm, .sync, .mbx, .freeCtr] ⊆ ps0) : Kept ps0 r0 (surveyBegin s) := by
  unfold surveyBegin
  repeat (any_goals first | with_reducible assumption | with_reducible apply kept_modRtm | with_reducible apply kept_surveyNext | with_reducible apply kept_measureSegs | split | with_reducible intro _ | exact List.Subset.trans (by decide) hk0)

theorem kept_ringCount {ps0 : List Part} {r0 : State} (ring : Fin 2) (k : Fin 5) (s : State) (hg0 : Kept ps0 r0 s) (hk0 : [.ring] ⊆ ps0) : Kept ps0 r0 (ringCount ring k s) := by
  unfold ringCount
  repeat (any_goals first | with_reducible assumption | with_reducible apply kept_modRing | split | with_reducible intro _ | exact List.Subset.trans (by decide) hk0)

theorem kept_recordFrame {ps0 : List Part} {r0 : State} (ring : Fin 2) (f : Frame) (s : State) (hg0 : Kept ps0 r0 s) (hk0 : [.ring, .rtm] ⊆ ps0) : Kept ps0 r0 (recordFrame ring f s) := by
  unfold recordFrame
  dsimp only
  repeat (any_goals first | with_reducible assumption | with_reducible apply kept_modRing | with_reducible apply kept_modRtm | with_reducible apply kept_ringCount | (with_reducible apply kept_foldl; rotate_left; intro _ _ _) | (with_reducible apply kept_foldl2; rotate_left; intro _ _ _) | split | with_reducible intro _ | exact List.Subset.trans (by decide) hk0)

theorem kept_lateFrame {ps0 : List Part} {r0 : State} (f : Frame) (s : State) (hg0 : Kept ps0 r0 s) (hk0 : [.rtm] ⊆ ps0) : Kept ps0 r0 (lateFrame f s) := by
  unfold lateFrame
  repeat (any_goals first | with_reducible assumption | with_reducible apply kept_modRtm | split | with_reducible intro _ | exact List.Subset.trans (by decide) hk0)

theorem kept_evalStations {ps0 : List Part} {r0 : State} (s : State) (hg0 : Kept ps0 r0 s) (hk0 : [.ring, .rtm] ⊆ ps0) : Kept ps0 r0 (evalStations s) := by
  unfold evalStations
  repeat (any_goals first | with_reducible assumption | with_reducible apply kept_modRing | with_reducible apply kept_surveyWant | with_reducible apply kept_modRtm | split | with_reducible intro _ | exact List.Subset.trans (by decide) hk0)

theorem kept_evalRings {ps0 : List Part} {r0 : State} (s : State) (hg0 : Kept ps0 r0 s) (hk0 : [.ring, .rtm] ⊆ ps0) : Kept ps0 r0 (evalRings s) := by
  unfold evalRings
  repeat (any_goals first | with_reducible assumption | with_reducible apply kept_modRing | with_reducible apply kept_modRtm | split | with_reducible intro _ | exact List.Subset.trans (by decide) hk0)

theorem kept_frtAnswer {ps0 : List Part} {r0 : State} (i : FrtItem) (cs : List CoachRet) (s : State) (hg0 : Kept ps0 r0 s) (hk0 : [.mem] ⊆ ps0) : Kept ps0 r0 (frtAnswer i cs s) := by
  unfold frtAnswer
  repeat (any_goals first | with_reducible assumption | with_reducible apply kept_writeBytes | split | with_reducible intro _ | exact List.Subset.trans (by decide) hk0)

theorem kept_evalFreight {ps0 : List Part} {r0 : State} (s : State) (hg0 : Kept ps0 r0 s) (hk0 : [.mem, .ring, .rtm, .sync, .mbx] ⊆ ps0) : Kept ps0 r0 (evalFreight s) := by
  unfold evalFreight
  try dsimp only
  repeat (any_goals first | with_reducible assumption | with_reducible apply kept_modRing | with_reducible apply kept_frtAnswer | with_reducible apply kept_frtFinish | (with_reducible apply kept_foldl; rotate_left; intro _ _ _) | (with_reducible apply kept_foldl2; rotate_left; intro _ _ _) | split | with_reducible apply kept_upd_rtm | with_reducible apply kept_upd_mem | with_reducible apply kept_upd_ring | with_reducible apply kept_upd_sync | with_reducible apply kept_upd_mbx | with_reducible intro _ | exact List.Subset.trans (by decide) hk0)

theorem kept_evalRanks {ps0 : List Part} {r0 : State} (s : State) (hg0 : Kept ps0 r0 s) (hk0 : [.rtm] ⊆ ps0) : Kept ps0 r0 (evalRanks s) := by
  unfold evalRanks
  repeat (any_goals first | with_reducible assumption | with_reducible apply kept_modRtm | split | with_reducible intro _ | exact List.Subset.trans (by decide) hk0)

theorem kept_steer {ps0 : List Part} {r0 : State} (s : State) (hg0 : Kept ps0 r0 s) (hk0 : [.rtm, .freeCtr] ⊆ ps0) : Kept ps0 r0 (steer s) := by
  unfold steer
  dsimp only
  repeat (any_goals first | with_reducible assumption | with_reducible apply kept_modRtm | with_reducible apply kept_nextFree | split | with_reducible intro _ | exact List.Subset.trans (by decide) hk0)

theorem kept_markBroken {ps0 : List Part} {r0 : State} (ring : Fin 2) (s : State) (hg0 : Kept ps0 r0 s) (hk0 : [.rtm] ⊆ ps0) : Kept ps0 r0 (markBroken ring s) := by
  unfold markBroken
  repeat (any_goals first | with_reducible assumption | with_reducible apply kept_modRtm | split | with_reducible intro _ | exact List.Subset.trans (by decide) hk0)

theorem kept_linkDown {ps0 : List Part} {r0 : State} (p : Port) (s : State) (hg0 : Kept ps0 r0 s) (hk0 : [.ring, .rtm] ⊆ ps0) : Kept ps0 r0 (linkDown p s) := by
  unfold linkDown
  try dsimp only
  repeat (any_goals first | with_reducible assumption | with_reducible apply kept_markBroken | with_reducible apply kept_modRing | split | with_reducible apply kept_upd_rtm | with_reducible apply kept_upd_ring | with_reducible intro _ | exact List.Subset.trans (by decide) hk0)

theorem kept_breakPlace {ps0 : List Part} {r0 : State} (s : State) (hg0 : Kept ps0 r0 s) (hk0 : [.freeCtr] ⊆ ps0) : Kept ps0 r0 (breakPlace s).2 := by
  unfold breakPlace
  try dsimp only
  repeat (any_goals first | with_reducible assumption | with_reducible apply kept_nextFree | split | with_reducible apply kept_upd_freeCtr | with_reducible intro _ | exact List.Subset.trans (by decide) hk0)

theorem kept_frtEndAll {ps0 : List Part} {r0 : State} (o : FrtOutcome) (s : State) (hg0 : Kept ps0 r0 s) (hk0 : [.mem, .ring, .rtm, .sync, .mbx] ⊆ ps0) : Kept ps0 r0 (frtEndAll o s) := by
  unfold frtEndAll
  repeat (any_goals first | with_reducible assumption | with_reducible apply kept_frtFinish | (with_reducible apply kept_foldl; rotate_left; intro _ _ _) | (with_reducible apply kept_foldl2; rotate_left; intro _ _ _) | split | with_reducible intro _ | exact List.Subset.trans (by decide) hk0)

theorem kept_frtWithdrawnEnd {ps0 : List Part} {r0 : State} (s : State) (hg0 : Kept ps0 r0 s) (hk0 : [.mem, .ring, .rtm, .sync, .mbx] ⊆ ps0) : Kept ps0 r0 (frtWithdrawnEnd s) := by
  unfold frtWithdrawnEnd
  repeat (any_goals first | with_reducible assumption | with_reducible apply kept_frtFinish | (with_reducible apply kept_foldl; rotate_left; intro _ _ _) | (with_reducible apply kept_foldl2; rotate_left; intro _ _ _) | split | with_reducible intro _ | exact List.Subset.trans (by decide) hk0)

theorem kept_recordEn {ps0 : List Part} {r0 : State} (en : BitVec 3) (s : State) (hg0 : Kept ps0 r0 s) (hk0 : [.ring] ⊆ ps0) : Kept ps0 r0 (recordEn en s) := by
  unfold recordEn
  repeat (any_goals first | with_reducible assumption | with_reducible apply kept_modRing | split | with_reducible intro _ | exact List.Subset.trans (by decide) hk0)

theorem kept_ringEnRings {ps0 : List Part} {r0 : State} (en1 en2 : Bool) (s : State) (hg0 : Kept ps0 r0 s) (hk0 : [.ring, .arb] ⊆ ps0) : Kept ps0 r0 (ringEnRings en1 en2 s).2 := by
  unfold ringEnRings
  dsimp only
  repeat (any_goals first | with_reducible assumption | with_reducible apply kept_recordEn | split | with_reducible apply kept_upd_arb | with_reducible intro _ | exact List.Subset.trans (by decide) hk0)

theorem kept_ringEnEffect {ps0 : List Part} {r0 : State} (s : State) (hg0 : Kept ps0 r0 s) (hk0 : [.mem, .ring, .rtm, .sync, .mbx, .boot, .arb] ⊆ ps0) : Kept ps0 r0 (ringEnEffect s) := by
  unfold ringEnEffect
  dsimp only
  repeat (any_goals first | with_reducible assumption | with_reducible apply kept_surveyAll | with_reducible apply kept_idleLinks | with_reducible apply kept_modRing | with_reducible apply kept_moveDim | with_reducible apply kept_frtEndAll | split | with_reducible apply kept_upd_ring_arb | with_reducible intro _ | exact List.Subset.trans (by decide) hk0)

theorem kept_ringCfgLoad {ps0 : List Part} {r0 : State} (v : Word) (s : State) (hg0 : Kept ps0 r0 s) (hk0 : [.ring, .rtm, .boot, .arb] ⊆ ps0) : Kept ps0 r0 (ringCfgLoad v s) := by
  unfold ringCfgLoad
  dsimp only
  repeat (any_goals first | with_reducible assumption | with_reducible apply kept_surveyAll | with_reducible apply kept_modRing | with_reducible apply kept_moveDim | split | with_reducible intro _ | exact List.Subset.trans (by decide) hk0)

theorem kept_ringCfgWriteOp {ps0 : List Part} {r0 : State} (v : Word) (s : State) (hg0 : Kept ps0 r0 s) (hk0 : [.ring, .rtm, .boot, .arb] ⊆ ps0) : Kept ps0 r0 (ringCfgWriteOp v s) := by
  unfold ringCfgWriteOp
  repeat (any_goals first | with_reducible assumption | with_reducible apply kept_ringCfgLoad | with_reducible apply kept_modRing | split | with_reducible intro _ | exact List.Subset.trans (by decide) hk0)

theorem kept_modHsb {ps0 : List Part} {r0 : State} (f : Hsb → Hsb) (s : State) (hg0 : Kept ps0 r0 s) (hk0 : [.hsb] ⊆ ps0) : Kept ps0 r0 (modHsb f s) := by
  unfold modHsb
  repeat (any_goals first | with_reducible assumption | split | with_reducible apply kept_upd_hsb | with_reducible intro _ | exact List.Subset.trans (by decide) hk0)

theorem kept_modSync {ps0 : List Part} {r0 : State} (f : SyncLink → SyncLink) (s : State) (hg0 : Kept ps0 r0 s) (hk0 : [.sync] ⊆ ps0) : Kept ps0 r0 (modSync f s) := by
  unfold modSync
  repeat (any_goals first | with_reducible assumption | split | with_reducible apply kept_upd_sync | with_reducible intro _ | exact List.Subset.trans (by decide) hk0)

theorem kept_hsbEvt {ps0 : List Part} {r0 : State} (b : Nat) (s : State) (hg0 : Kept ps0 r0 s) (hk0 : [.hsb] ⊆ ps0) : Kept ps0 r0 (hsbEvt b s) := by
  unfold hsbEvt
  repeat (any_goals first | with_reducible assumption | with_reducible apply kept_modHsb | split | with_reducible intro _ | exact List.Subset.trans (by decide) hk0)

theorem kept_epochAdvance {ps0 : List Part} {r0 : State} (s : State) (hg0 : Kept ps0 r0 s) (hk0 : [.hsb, .ps] ⊆ ps0) : Kept ps0 r0 (epochAdvance s) := by
  unfold epochAdvance
  dsimp only
  repeat (any_goals first | with_reducible assumption | with_reducible apply kept_modHsb | with_reducible apply kept_psRecord | split | with_reducible intro _ | exact List.Subset.trans (by decide) hk0)

theorem kept_noteEpoch {ps0 : List Part} {r0 : State} (e : Word) (s : State) (hg0 : Kept ps0 r0 s) (hk0 : [.hsb, .ps] ⊆ ps0) : Kept ps0 r0 (noteEpoch e s) := by
  unfold noteEpoch
  repeat (any_goals first | with_reducible assumption | with_reducible apply kept_modHsb | with_reducible apply kept_epochAdvance | split | with_reducible intro _ | exact List.Subset.trans (by decide) hk0)

theorem kept_originate {ps0 : List Part} {r0 : State} (ev : Option Nat) (s : State) (hg0 : Kept ps0 r0 s) (hk0 : [.hsb, .sync, .ps, .arb, .log] ⊆ ps0) : Kept ps0 r0 (originate ev s) := by
  unfold originate
  dsimp only
  repeat (any_goals first | with_reducible assumption | with_reducible apply kept_modSync | with_reducible apply kept_modHsb | with_reducible apply kept_setRole | with_reducible apply kept_epochAdvance | with_reducible apply kept_hsbEvt | split | with_reducible intro _ | exact List.Subset.trans (by decide) hk0)

theorem kept_reopenConns {ps0 : List Part} {r0 : State} (s : State) (hg0 : Kept ps0 r0 s) (hk0 : [.conns] ⊆ ps0) : Kept ps0 r0 (reopenConns s) := by
  unfold reopenConns
  repeat (any_goals first | with_reducible assumption | (with_reducible apply kept_foldl; rotate_left; intro _ _ _) | (with_reducible apply kept_foldl2; rotate_left; intro _ _ _) | split | with_reducible apply kept_upd_conns | with_reducible intro _ | exact List.Subset.trans (by decide) hk0)

theorem kept_stepDown {ps0 : List Part} {r0 : State} (s : State) (hg0 : Kept ps0 r0 s) (hk0 : [.hsb, .sync, .arb, .log] ⊆ ps0) : Kept ps0 r0 (stepDown s) := by
  unfold stepDown
  repeat (any_goals first | with_reducible assumption | with_reducible apply kept_setRole | with_reducible apply kept_modHsb | with_reducible apply kept_modSync | split | with_reducible intro _ | exact List.Subset.trans (by decide) hk0)

theorem kept_resyncEnd {ps0 : List Part} {r0 : State} (result : Byte) (s : State) (hg0 : Kept ps0 r0 s) (hk0 : [.hsb, .sync] ⊆ ps0) : Kept ps0 r0 (resyncEnd result s) := by
  unfold resyncEnd
  repeat (any_goals first | with_reducible assumption | with_reducible apply kept_modSync | with_reducible apply kept_hsbEvt | split | with_reducible intro _ | exact List.Subset.trans (by decide) hk0)

theorem kept_resyncBegin {ps0 : List Part} {r0 : State} (s : State) (hg0 : Kept ps0 r0 s) (hk0 : [.hsb, .sync, .freeCtr] ⊆ ps0) : Kept ps0 r0 (resyncBegin s) := by
  unfold resyncBegin
  dsimp only
  repeat (any_goals first | with_reducible assumption | with_reducible apply kept_sendSync | with_reducible apply kept_resyncEnd | with_reducible apply kept_modHsb | with_reducible apply kept_modSync | with_reducible apply kept_nextFree | split | with_reducible intro _ | exact List.Subset.trans (by decide) hk0)

theorem kept_partnerState {ps0 : List Part} {r0 : State} (s : State) (hg0 : Kept ps0 r0 s) (hk0 : [.ixl, .conns, .freeCtr] ⊆ ps0) : Kept ps0 r0 (partnerState s) := by
  unfold partnerState
  extract_lets f n s1
  have h1 : Kept ps0 r0 s1 := kept_nextFree _ hg0 (List.Subset.trans (by decide) hk0)
  clear_value s1
  exact ⟨fun p hp => by have h := h1.1 p hp; cases p <;> first | exact h | exact absurd (hk0 (by decide)) hp, h1.2⟩

theorem kept_syncDown {ps0 : List Part} {r0 : State} (s : State) (hg0 : Kept ps0 r0 s) (hk0 : [.hsb, .sync] ⊆ ps0) : Kept ps0 r0 (syncDown s) := by
  unfold syncDown
  repeat (any_goals first | with_reducible assumption | with_reducible apply kept_modSync | with_reducible apply kept_hsbEvt | with_reducible apply kept_resyncEnd | split | with_reducible intro _ | exact List.Subset.trans (by decide) hk0)

theorem kept_linkTurn {ps0 : List Part} {r0 : State} (s : State) (hg0 : Kept ps0 r0 s) (hk0 : [.hsb, .sync] ⊆ ps0) : Kept ps0 r0 (linkTurn s) := by
  unfold linkTurn
  try dsimp only
  repeat (any_goals first | with_reducible assumption | with_reducible apply kept_syncDown | with_reducible apply kept_modSync | split | with_reducible apply kept_upd_hsb | with_reducible apply kept_upd_sync | with_reducible intro _ | exact List.Subset.trans (by decide) hk0)

theorem kept_syncDiscard {ps0 : List Part} {r0 : State} (s : State) (hg0 : Kept ps0 r0 s) (hk0 : [.hsb] ⊆ ps0) : Kept ps0 r0 (syncDiscard s) := by
  unfold syncDiscard
  repeat (any_goals first | with_reducible assumption | with_reducible apply kept_modHsb | split | with_reducible intro _ | exact List.Subset.trans (by decide) hk0)

theorem kept_syncHeard {ps0 : List Part} {r0 : State} (m : SyncHdr) (s : State) (hg0 : Kept ps0 r0 s) (hk0 : [.hsb, .sync, .ps, .freeCtr] ⊆ ps0) : Kept ps0 r0 (syncHeard m s) := by
  unfold syncHeard
  try dsimp only
  repeat (any_goals first | with_reducible assumption | with_reducible apply kept_resyncBegin | with_reducible apply kept_modSync | with_reducible apply kept_noteEpoch | split | with_reducible apply kept_upd_ps | with_reducible apply kept_upd_hsb | with_reducible apply kept_upd_sync | with_reducible apply kept_upd_freeCtr | with_reducible intro _ | exact List.Subset.trans (by decide) hk0)

theorem kept_syncGet {ps0 : List Part} {r0 : State} (m : SyncHdr) (type : Byte) (body : List Byte) (f : State → State) (s : State) (hf_f : ∀  (t : State), Kept ps0 r0 t → Kept ps0 r0 (f  t)) (hg0 : Kept ps0 r0 s) (hk0 : [.hsb, .sync, .ps, .freeCtr] ⊆ ps0) : Kept ps0 r0 (syncGet m type body f s) := by
  unfold syncGet
  try dsimp only
  repeat (any_goals first | with_reducible assumption | with_reducible apply hf_f | with_reducible apply kept_syncHeard | with_reducible apply kept_syncDiscard | split | with_reducible apply kept_upd_ps | with_reducible apply kept_upd_hsb | with_reducible apply kept_upd_sync | with_reducible apply kept_upd_freeCtr | with_reducible intro _ | exact List.Subset.trans (by decide) hk0 | dsimp only)

theorem kept_heard {ps0 : List Part} {r0 : State} (s : State) (hg0 : Kept ps0 r0 s) (hk0 : [.hsb, .sync, .arb, .log, .freeCtr] ⊆ ps0) : Kept ps0 r0 (heard s) := by
  unfold heard
  repeat (any_goals first | with_reducible assumption | with_reducible apply kept_modSync | with_reducible apply kept_setRole | with_reducible apply kept_resyncBegin | split | with_reducible intro _ | exact List.Subset.trans (by decide) hk0)

theorem kept_consensusBegin {ps0 : List Part} {r0 : State} (k : Long) (mask : Byte) (s : State) (hg0 : Kept ps0 r0 s) (hk0 : [.sync] ⊆ ps0) : Kept ps0 r0 (consensusBegin k mask s) := by
  unfold consensusBegin
  repeat (any_goals first | with_reducible assumption | with_reducible apply kept_modSync | split | with_reducible intro _ | exact List.Subset.trans (by decide) hk0)

theorem kept_consensusSend {ps0 : List Part} {r0 : State} (s : State) (hg0 : Kept ps0 r0 s) (hk0 : [.sync] ⊆ ps0) : Kept ps0 r0 (consensusSend s) := by
  unfold consensusSend
  repeat (any_goals first | with_reducible assumption | with_reducible apply kept_modSync | with_reducible apply kept_sendSync | split | with_reducible intro _ | exact List.Subset.trans (by decide) hk0)

theorem kept_sendDelta {ps0 : List Part} {r0 : State} (area : Byte) (offset : Word) (d : List Byte) (s : State) (hg0 : Kept ps0 r0 s) (hk0 : [.sync] ⊆ ps0) : Kept ps0 r0 (sendDelta area offset d s) := by
  unfold sendDelta
  repeat (any_goals first | with_reducible assumption | with_reducible apply kept_sendSync | split | with_reducible intro _ | exact List.Subset.trans (by decide) hk0)

theorem kept_sendPlace {ps0 : List Part} {r0 : State} (code off n : Nat) (s : State) (hg0 : Kept ps0 r0 s) (hk0 : [.sync] ⊆ ps0) : Kept ps0 r0 (sendPlace code off n s) := by
  unfold sendPlace
  repeat (any_goals first | with_reducible assumption | with_reducible apply kept_sendDelta | split | with_reducible intro _ | exact List.Subset.trans (by decide) hk0)

theorem kept_sendState {ps0 : List Part} {r0 : State} (s : State) (hg0 : Kept ps0 r0 s) (hk0 : [.doms, .sync] ⊆ ps0) : Kept ps0 r0 (sendState s) := by
  unfold sendState
  repeat (any_goals first | with_reducible assumption | with_reducible apply kept_sendPlace | with_reducible apply kept_modSync | (with_reducible apply kept_foldl; rotate_left; intro _ _ _) | (with_reducible apply kept_foldl2; rotate_left; intro _ _ _) | split | with_reducible apply kept_upd_doms | with_reducible intro _ | exact List.Subset.trans (by decide) hk0)

theorem kept_takeOverTrain {ps0 : List Part} {r0 : State} (ev : Nat) (reopen : Bool) (s : State) (hg0 : Kept ps0 r0 s) (hk0 : [.doms, .mem, .memRegs, .memErrs, .conns, .ring, .hsb, .sync, .mbx, .ps, .arb, .log] ⊆ ps0) : Kept ps0 r0 (takeOverTrain ev reopen s) := by
  unfold takeOverTrain
  try dsimp only
  repeat (any_goals first | with_reducible assumption | with_reducible apply kept_launchTrain | with_reducible apply kept_reopenConns | with_reducible apply kept_originate | split | with_reducible apply kept_upd_ring_arb | with_reducible apply kept_upd_memRegs_memErrs | with_reducible apply kept_upd_ps | with_reducible apply kept_upd_memErrs | with_reducible apply kept_upd_hsb | with_reducible apply kept_upd_memRegs | with_reducible apply kept_upd_arb | with_reducible apply kept_upd_log | with_reducible apply kept_upd_mem | with_reducible apply kept_upd_ring | with_reducible apply kept_upd_sync | with_reducible apply kept_upd_doms | with_reducible apply kept_upd_mbx | with_reducible apply kept_upd_conns | with_reducible intro _ | exact List.Subset.trans (by decide) hk0)

theorem kept_hsbRequest {ps0 : List Part} {r0 : State} (op : HsbOp) (s : State) (hg0 : Kept ps0 r0 s) (hk0 : [.hsb, .sync, .freeCtr] ⊆ ps0) : Kept ps0 r0 (hsbRequest op s).2 := by
  unfold hsbRequest
  repeat (any_goals first | with_reducible assumption | with_reducible apply kept_resyncEnd | with_reducible apply kept_resyncBegin | with_reducible apply kept_modSync | with_reducible apply kept_modHsb | split | with_reducible intro _ | exact List.Subset.trans (by decide) hk0)

theorem kept_hsbCycle {ps0 : List Part} {r0 : State} (s : State) (hg0 : Kept ps0 r0 s) (hk0 : [.doms, .hsb, .sync, .mbx, .arb, .log, .freeCtr] ⊆ ps0) : Kept ps0 r0 (hsbCycle s).2 := by
  unfold hsbCycle
  split
  · exact hg0
  · extract_lets s0 k s1 s2 s3 s4 w gs s5
    have h0 : Kept ps0 r0 s0 := kept_linkTurn _ hg0 (List.Subset.trans (by decide) hk0)
    clear_value s0
    have h1 : Kept ps0 r0 s1 := kept_modSync _ _ h0 (List.Subset.trans (by decide) hk0)
    clear_value s1
    have h2 : Kept ps0 r0 s2 := by
      dsimp only [s2]
      split
      · exact h1
      · exact kept_modHsb _ _ h1 (List.Subset.trans (by decide) hk0)
    clear_value s2
    have h3 : Kept ps0 r0 s3 := kept_sendState _ (kept_sendSync _ _ _ _ (kept_modSync _ _ h2 (List.Subset.trans (by decide) hk0)) (List.Subset.trans (by decide) hk0)) (List.Subset.trans (by decide) hk0)
    clear_value s3
    have h4 : Kept ps0 r0 s4 := by
      dsimp only [s4]
      repeat (any_goals first | exact h3 | split)
      · exact kept_sendSync _ _ _ _ h3 (List.Subset.trans (by decide) hk0)
      · apply kept_foldl
        · exact kept_modHsb _ _ (kept_modSync _ _ (kept_sendRelinquish _ _ h3 (List.Subset.trans (by decide) hk0)) (List.Subset.trans (by decide) hk0)) (List.Subset.trans (by decide) hk0)
        · intro a x h
          exact kept_finish _ _ _ _ _ h (List.Subset.trans (by decide) hk0)
    clear_value s4
    have h5 : Kept ps0 r0 s5 := by
      dsimp only [s5]
      try dsimp only [w]
      repeat (any_goals first | exact h4 | with_reducible apply kept_setRole | with_reducible apply kept_modHsb | with_reducible apply kept_modSync | with_reducible apply kept_resyncBegin | with_reducible apply kept_stepDown | split | exact List.Subset.trans (by decide) hk0)
    clear_value s5
    repeat (any_goals first | exact h5 | with_reducible apply kept_modHsb | split | exact List.Subset.trans (by decide) hk0)

theorem kept_hsbDeadline {ps0 : List Part} {r0 : State} (s : State) (hg0 : Kept ps0 r0 s) (hk0 : [.hsb, .sync] ⊆ ps0) : Kept ps0 r0 (hsbDeadline s) := by
  unfold hsbDeadline
  dsimp only
  repeat (any_goals first | with_reducible assumption | with_reducible apply kept_modHsb | with_reducible apply kept_sendSync | with_reducible apply kept_consensusSend | split | with_reducible intro _ | exact List.Subset.trans (by decide) hk0)

theorem kept_hsbIntact {ps0 : List Part} {r0 : State} (s : State) (hg0 : Kept ps0 r0 s) (hk0 : [.hsb] ⊆ ps0) : Kept ps0 r0 (hsbIntact s) := by
  unfold hsbIntact
  repeat (any_goals first | with_reducible assumption | with_reducible apply kept_modHsb | split | with_reducible intro _ | exact List.Subset.trans (by decide) hk0)

theorem kept_compareAll {ps0 : List Part} {r0 : State} (t : Train) (s : State) (hg0 : Kept ps0 r0 s) (hk0 : [.ring, .hsb, .sync] ⊆ ps0) : Kept ps0 r0 (compareAll t s) := by
  unfold compareAll
  dsimp only
  repeat (any_goals first | with_reducible assumption | with_reducible apply kept_modSync | with_reducible apply kept_sendSync | with_reducible apply kept_consensusBegin | with_reducible apply kept_resyncEnd | with_reducible apply kept_hsbEvt | with_reducible apply kept_modHsb | with_reducible apply kept_modRing | (with_reducible apply kept_foldl; rotate_left; intro _ _ _) | (with_reducible apply kept_foldl2; rotate_left; intro _ _ _) | split | with_reducible intro _ | exact List.Subset.trans (by decide) hk0)

theorem kept_acceptLead {ps0 : List Part} {r0 : State} (ring : Fin 2) (payload : List Byte) (s : State) (hg0 : Kept ps0 r0 s) (hk0 : [.cyc, .rtm, .hsb, .sync, .ps, .arb, .log, .freeCtr] ⊆ ps0) : Kept ps0 r0 (acceptLead ring payload s) := by
  unfold acceptLead
  repeat (any_goals first | with_reducible assumption | with_reducible apply kept_heard | with_reducible apply kept_modRtm | with_reducible apply kept_modSync | with_reducible apply kept_modHsb | with_reducible apply kept_noteEpoch | with_reducible apply kept_hsbEvt | split | with_reducible apply kept_upd_cyc | with_reducible intro _ | exact List.Subset.trans (by decide) hk0)

theorem kept_relayFrame {ps0 : List Part} {r0 : State} (ring : Fin 2) (f : Frame) (s : State) (hg0 : Kept ps0 r0 s) (hk0 : [.cyc, .ring, .rtm, .hsb, .sync, .ps, .arb, .log, .freeCtr] ⊆ ps0) : Kept ps0 r0 (relayFrame ring f s) := by
  unfold relayFrame
  try dsimp only
  repeat (any_goals first | with_reducible assumption | with_reducible apply kept_compareAll | with_reducible apply kept_recordFrame | with_reducible apply kept_acceptLead | split | with_reducible apply kept_upd_cyc_arb | with_reducible apply kept_upd_ring_arb | with_reducible apply kept_upd_rtm | with_reducible apply kept_upd_ps | with_reducible apply kept_upd_hsb | with_reducible apply kept_upd_arb | with_reducible apply kept_upd_log | with_reducible apply kept_upd_ring | with_reducible apply kept_upd_sync | with_reducible apply kept_upd_cyc | with_reducible apply kept_upd_freeCtr | with_reducible intro _ | exact List.Subset.trans (by decide) hk0)

theorem kept_relayOut {ps0 : List Part} {r0 : State} (p : Port) (f : Frame) (s : State) (hg0 : Kept ps0 r0 s) (hk0 : [.ring] ⊆ ps0) : Kept ps0 r0 (relayOut p f s) := by
  unfold relayOut
  repeat (any_goals first | with_reducible assumption | with_reducible apply kept_modRing | split | with_reducible intro _ | exact List.Subset.trans (by decide) hk0)

theorem kept_reverseFrame {ps0 : List Part} {r0 : State} (f : Frame) (s : State) (hg0 : Kept ps0 r0 s) (hk0 : [.ring, .rtm] ⊆ ps0) : Kept ps0 r0 (reverseFrame f s) := by
  unfold reverseFrame
  try dsimp only
  repeat (any_goals first | with_reducible assumption | with_reducible apply kept_relayOut | with_reducible apply kept_lateFrame | with_reducible apply kept_recordFrame | with_reducible apply kept_modRing | split | with_reducible apply kept_upd_rtm | with_reducible apply kept_upd_ring | with_reducible intro _ | exact List.Subset.trans (by decide) hk0)

theorem kept_drivePins {ps0 : List Part} {r0 : State} (g : GroupId) (s : State) (hg0 : Kept ps0 r0 s) (hk0 : [.fg] ⊆ ps0) : Kept ps0 r0 (drivePins g s) := by
  unfold drivePins
  repeat (any_goals first | with_reducible assumption | with_reducible apply kept_modFg | split | with_reducible intro _ | exact List.Subset.trans (by decide) hk0)

theorem kept_applyOutputs {ps0 : List Part} {r0 : State} (g : GroupId) (tk : Long) (s : State) (hg0 : Kept ps0 r0 s) (hk0 : [.fg] ⊆ ps0) : Kept ps0 r0 (applyOutputs g tk s) := by
  unfold applyOutputs
  repeat (any_goals first | with_reducible assumption | with_reducible apply kept_modFg | (with_reducible apply kept_foldl; rotate_left; intro _ _ _) | (with_reducible apply kept_foldl2; rotate_left; intro _ _ _) | split | with_reducible intro _ | exact List.Subset.trans (by decide) hk0)

theorem kept_fieldAtTk {ps0 : List Part} {r0 : State} (g : GroupId) (tk : Long) (s : State) (hg0 : Kept ps0 r0 s) (hk0 : [.fg] ⊆ ps0) : Kept ps0 r0 (fieldAtTk g tk s) := by
  unfold fieldAtTk
  repeat (any_goals first | with_reducible assumption | with_reducible apply kept_applyOutputs | with_reducible apply kept_modFg | split | with_reducible intro _ | exact List.Subset.trans (by decide) hk0)

theorem kept_fgRestart {ps0 : List Part} {r0 : State} (g : GroupId) (s : State) (hg0 : Kept ps0 r0 s) (hk0 : [.fg] ⊆ ps0) : Kept ps0 r0 (fgRestart g s) := by
  unfold fgRestart
  repeat (any_goals first | with_reducible assumption | with_reducible apply kept_modFg | split | with_reducible intro _ | exact List.Subset.trans (by decide) hk0)

theorem kept_permitLost {ps0 : List Part} {r0 : State} (g : GroupId) (s : State) (hg0 : Kept ps0 r0 s) (hk0 : [.fg] ⊆ ps0) : Kept ps0 r0 (permitLost g s) := by
  unfold permitLost
  repeat (any_goals first | with_reducible assumption | with_reducible apply kept_modFg | with_reducible apply kept_drivePins | split | with_reducible intro _ | exact List.Subset.trans (by decide) hk0)

theorem kept_fgPowerLoss {ps0 : List Part} {r0 : State} (g : GroupId) (s : State) (hg0 : Kept ps0 r0 s) (hk0 : [.fg] ⊆ ps0) : Kept ps0 r0 (fgPowerLoss g s) := by
  unfold fgPowerLoss
  repeat (any_goals first | with_reducible assumption | with_reducible apply kept_modFg | split | with_reducible intro _ | exact List.Subset.trans (by decide) hk0)

theorem kept_fgErrSet {ps0 : List Part} {r0 : State} (b : Nat) (s : State) (hg0 : Kept ps0 r0 s) (hk0 : [.fgErr] ⊆ ps0) : Kept ps0 r0 (fgErrSet b s) := by
  unfold fgErrSet
  repeat (any_goals first | with_reducible assumption | split | with_reducible apply kept_upd_fgErr | with_reducible intro _ | exact List.Subset.trans (by decide) hk0)

theorem kept_fgChWriteOp {ps0 : List Part} {r0 : State} (m : Master) (g : GroupId) (c : Fin 8) (v : Word) (s : State) (hg0 : Kept ps0 r0 s) (hk0 : [.fg, .fgErr] ⊆ ps0) : Kept ps0 r0 (fgChWriteOp m g c v s) := by
  unfold fgChWriteOp
  dsimp only
  repeat (any_goals first | with_reducible assumption | with_reducible apply kept_modCh | with_reducible apply kept_fgErrSet | split | with_reducible intro _ | exact List.Subset.trans (by decide) hk0)

theorem kept_fgPcfgWriteOp {ps0 : List Part} {r0 : State} (m : Master) (g : GroupId) (v : Word) (s : State) (hg0 : Kept ps0 r0 s) (hk0 : [.fg, .fgErr] ⊆ ps0) : Kept ps0 r0 (fgPcfgWriteOp m g v s) := by
  unfold fgPcfgWriteOp
  repeat (any_goals first | with_reducible assumption | with_reducible apply kept_modFg | with_reducible apply kept_fgErrSet | split | with_reducible intro _ | exact List.Subset.trans (by decide) hk0)

theorem kept_wdgWrite {ps0 : List Part} {r0 : State} (a : Access) (u : Fin 8) (f : State → State) (s : State) (hf_f : ∀  (t : State), Kept ps0 r0 t → Kept ps0 r0 (f  t)) (hg0 : Kept ps0 r0 s) (hk0 : [.memRegs, .bus] ⊆ ps0) : Kept ps0 r0 (wdgWrite a u f s) := by
  unfold wdgWrite
  try dsimp only
  repeat (any_goals first | with_reducible assumption | with_reducible apply hf_f | with_reducible apply kept_countAf | with_reducible apply kept_answer | split | with_reducible apply kept_upd_bus | with_reducible apply kept_upd_memRegs | with_reducible intro _ | exact List.Subset.trans (by decide) hk0 | dsimp only)

theorem kept_wdgSvcOp {ps0 : List Part} {r0 : State} (m : Master) (u : Fin 8) (v : BitVec 16) (s : State) (hg0 : Kept ps0 r0 s) (hk0 : [.wdg] ⊆ ps0) : Kept ps0 r0 (wdgSvcOp m u v s) := by
  unfold wdgSvcOp
  repeat (any_goals first | with_reducible assumption | with_reducible apply kept_modWdg | split | with_reducible intro _ | exact List.Subset.trans (by decide) hk0)

theorem kept_wdgPerOp {ps0 : List Part} {r0 : State} (u : Fin 8) (v : Word) (s : State) (hg0 : Kept ps0 r0 s) (hk0 : [.wdg] ⊆ ps0) : Kept ps0 r0 (wdgPerOp u v s) := by
  unfold wdgPerOp
  repeat (any_goals first | with_reducible assumption | with_reducible apply kept_modWdg | split | with_reducible intro _ | exact List.Subset.trans (by decide) hk0)

theorem kept_wdgWinOp {ps0 : List Part} {r0 : State} (u : Fin 8) (v : Word) (s : State) (hg0 : Kept ps0 r0 s) (hk0 : [.wdg] ⊆ ps0) : Kept ps0 r0 (wdgWinOp u v s) := by
  unfold wdgWinOp
  repeat (any_goals first | with_reducible assumption | with_reducible apply kept_modWdg | split | with_reducible intro _ | exact List.Subset.trans (by decide) hk0)

theorem kept_wdgKeyOp {ps0 : List Part} {r0 : State} (m : Master) (u : Fin 8) (v : BitVec 16) (s : State) (hg0 : Kept ps0 r0 s) (hk0 : [.wdg] ⊆ ps0) : Kept ps0 r0 (wdgKeyOp m u v s) := by
  unfold wdgKeyOp
  repeat (any_goals first | with_reducible assumption | with_reducible apply kept_modWdg | split | with_reducible intro _ | exact List.Subset.trans (by decide) hk0)

theorem kept_wdgCtlOp {ps0 : List Part} {r0 : State} (u : Fin 8) (v : Word) (s : State) (hg0 : Kept ps0 r0 s) (hk0 : [.wdg] ⊆ ps0) : Kept ps0 r0 (wdgCtlOp u v s) := by
  unfold wdgCtlOp
  repeat (any_goals first | with_reducible assumption | with_reducible apply kept_modWdg | split | with_reducible intro _ | exact List.Subset.trans (by decide) hk0)

theorem kept_runtimeService {ps0 : List Part} {r0 : State} (d : DomId) (s : State) (hg0 : Kept ps0 r0 s) (hk0 : [.wdg] ⊆ ps0) : Kept ps0 r0 (runtimeService d s) := by
  unfold runtimeService
  repeat (any_goals first | with_reducible assumption | with_reducible apply kept_wdgSvcOp | (with_reducible apply kept_foldl; rotate_left; intro _ _ _) | (with_reducible apply kept_foldl2; rotate_left; intro _ _ _) | split | with_reducible intro _ | exact List.Subset.trans (by decide) hk0)

theorem kept_wdgLoad {ps0 : List Part} {r0 : State} (x : WdgDecl) (s : State) (hg0 : Kept ps0 r0 s) (hk0 : [.wdg] ⊆ ps0) : Kept ps0 r0 (wdgLoad x s) := by
  unfold wdgLoad
  repeat (any_goals first | with_reducible assumption | with_reducible apply kept_modWdg | split | with_reducible intro _ | exact List.Subset.trans (by decide) hk0)

theorem kept_checkinOp {ps0 : List Part} {r0 : State} (c : CoreId) (p : Fin 64) (s : State) (hg0 : Kept ps0 r0 s) (hk0 : [.cim] ⊆ ps0) : Kept ps0 r0 (checkinOp c p s) := by
  unfold checkinOp
  repeat (any_goals first | with_reducible assumption | with_reducible apply kept_modCim | split | with_reducible intro _ | exact List.Subset.trans (by decide) hk0)

theorem kept_supervisionFailure {ps0 : List Part} {r0 : State} (d : DomId) (bad : List (Fin 3)) (s : State) (hg0 : Kept ps0 r0 s) (hk0 : [.cores, .doms, .pairs, .voter, .solvers, .hsb, .sync, .fg, .mbx, .cim, .esc, .ps, .boot, .arb, .log] ⊆ ps0) : Kept ps0 r0 (supervisionFailure d bad s) := by
  unfold supervisionFailure
  repeat (any_goals first | with_reducible assumption | with_reducible apply kept_laneHalt | with_reducible apply kept_pairFault | with_reducible apply kept_modCim | (with_reducible apply kept_foldl; rotate_left; intro _ _ _) | (with_reducible apply kept_foldl2; rotate_left; intro _ _ _) | split | with_reducible intro _ | exact List.Subset.trans (by decide) hk0)

theorem kept_cimRestart {ps0 : List Part} {r0 : State} (d : DomId) (s : State) (hg0 : Kept ps0 r0 s) (hk0 : [.cim] ⊆ ps0) : Kept ps0 r0 (cimRestart d s) := by
  unfold cimRestart
  repeat (any_goals first | with_reducible assumption | with_reducible apply kept_modCim | split | with_reducible intro _ | exact List.Subset.trans (by decide) hk0)

theorem kept_cimLoad {ps0 : List Part} {r0 : State} (d : DomId) (im : Image) (s : State) (hg0 : Kept ps0 r0 s) (hk0 : [.cim] ⊆ ps0) : Kept ps0 r0 (cimLoad d im s) := by
  unfold cimLoad
  repeat (any_goals first | with_reducible assumption | with_reducible apply kept_modCim | (with_reducible apply kept_foldl; rotate_left; intro _ _ _) | (with_reducible apply kept_foldl2; rotate_left; intro _ _ _) | split | with_reducible intro _ | exact List.Subset.trans (by decide) hk0)

theorem kept_cimPtOp {ps0 : List Part} {r0 : State} (d : DomId) (p : Fin 64) (v : Word) (s : State) (hg0 : Kept ps0 r0 s) (hk0 : [.cim] ⊆ ps0) : Kept ps0 r0 (cimPtOp d p v s) := by
  unfold cimPtOp
  repeat (any_goals first | with_reducible assumption | with_reducible apply kept_modCim | split | with_reducible intro _ | exact List.Subset.trans (by decide) hk0)

theorem kept_pairFinish {ps0 : List Part} {r0 : State} (n : Fin 4) (s : State) (hg0 : Kept ps0 r0 s) (hk0 : [.doms] ⊆ ps0) : Kept ps0 r0 (pairFinish n s) := by
  unfold pairFinish
  repeat (any_goals first | with_reducible assumption | with_reducible apply kept_modDom | with_reducible apply kept_sealArea | split | with_reducible intro _ | exact List.Subset.trans (by decide) hk0)

theorem kept_pairAbandon {ps0 : List Part} {r0 : State} (n : Fin 4) (s : State) (hg0 : Kept ps0 r0 s) (hk0 : [.cores, .doms] ⊆ ps0) : Kept ps0 r0 (pairAbandon n s) := by
  unfold pairAbandon
  repeat (any_goals first | with_reducible assumption | with_reducible apply kept_abandonTasks | with_reducible apply kept_stopCore | split | with_reducible intro _ | exact List.Subset.trans (by decide) hk0)

theorem kept_pairsFinish {ps0 : List Part} {r0 : State} (late : Bool) (s : State) (hg0 : Kept ps0 r0 s) (hk0 : [.cores, .doms] ⊆ ps0) : Kept ps0 r0 (pairsFinish late s) := by
  unfold pairsFinish
  repeat (any_goals first | with_reducible assumption | with_reducible apply kept_pairFinish | with_reducible apply kept_pairAbandon | (with_reducible apply kept_foldl; rotate_left; intro _ _ _) | (with_reducible apply kept_foldl2; rotate_left; intro _ _ _) | split | with_reducible intro _ | exact List.Subset.trans (by decide) hk0)

theorem kept_outputsDown {ps0 : List Part} {r0 : State} (s : State) (hg0 : Kept ps0 r0 s) (hk0 : [.doms, .fg] ⊆ ps0) : Kept ps0 r0 (outputsDown s) := by
  unfold outputsDown
  repeat (any_goals first | with_reducible assumption | with_reducible apply kept_safetyOff | with_reducible apply kept_permitsOff | split | with_reducible intro _ | exact List.Subset.trans (by decide) hk0)

theorem kept_orderlyTry {ps0 : List Part} {r0 : State} (s : State) (hg0 : Kept ps0 r0 s) (hk0 : [.cyc, .cores, .doms, .pairs, .mem, .memRegs, .memErrs, .banks, .voter, .solvers, .rmus, .ixl, .conns, .ring, .rtm, .hsb, .sync, .fg, .fgErr, .mbx, .update, .wdg, .cim, .esc, .rtc, .ps, .boot, .power, .arb, .fuses, .dbg] ⊆ ps0) : Kept ps0 r0 (orderlyTry s) := by
  unfold orderlyTry
  dsimp only
  repeat (any_goals first | with_reducible assumption | with_reducible apply kept_moduleReset | with_reducible apply kept_pairsFinish | split | with_reducible intro _ | exact List.Subset.trans (by decide) hk0)

theorem kept_orderlyBegin {ps0 : List Part} {r0 : State} (cause : Nat) (s : State) (hg0 : Kept ps0 r0 s) (hk0 : [.doms, .sync, .fg, .boot] ⊆ ps0) : Kept ps0 r0 (orderlyBegin cause s) := by
  unfold orderlyBegin
  repeat (any_goals first | with_reducible assumption | with_reducible apply kept_outputsDown | with_reducible apply kept_sendRelinquish | split | with_reducible apply kept_upd_boot | with_reducible intro _ | exact List.Subset.trans (by decide) hk0)

theorem kept_rstReqOp {ps0 : List Part} {r0 : State} (v : BitVec 16) (cause : Nat) (s : State) (hg0 : Kept ps0 r0 s) (hk0 : [.doms, .sync, .fg, .boot] ⊆ ps0) : Kept ps0 r0 (rstReqOp v cause s) := by
  unfold rstReqOp
  repeat (any_goals first | with_reducible assumption | with_reducible apply kept_orderlyBegin | split | with_reducible intro _ | exact List.Subset.trans (by decide) hk0)

theorem kept_raiseClock {ps0 : List Part} {r0 : State} (s : State) (hg0 : Kept ps0 r0 s) (hk0 : [.cores] ⊆ ps0) : Kept ps0 r0 (raiseClock s) := by
  unfold raiseClock
  repeat (any_goals first | with_reducible assumption | with_reducible apply kept_raiseIrq | split | with_reducible intro _ | exact List.Subset.trans (by decide) hk0)

theorem kept_almFire {ps0 : List Part} {r0 : State} (n : Fin 2) (skipped : Bool) (s : State) (hg0 : Kept ps0 r0 s) (hk0 : [.cores, .rtc] ⊆ ps0) : Kept ps0 r0 (almFire n skipped s) := by
  unfold almFire
  repeat (any_goals first | with_reducible assumption | with_reducible apply kept_raiseClock | split | with_reducible apply kept_upd_rtc | with_reducible intro _ | exact List.Subset.trans (by decide) hk0)

theorem kept_almCompare {ps0 : List Part} {r0 : State} (old : Option (BitVec 40)) (s : State) (hg0 : Kept ps0 r0 s) (hk0 : [.cores, .rtc] ⊆ ps0) : Kept ps0 r0 (almCompare old s) := by
  unfold almCompare
  dsimp only
  repeat (any_goals first | with_reducible assumption | with_reducible apply kept_almFire | (with_reducible apply kept_foldl; rotate_left; intro _ _ _) | (with_reducible apply kept_foldl2; rotate_left; intro _ _ _) | split | with_reducible intro _ | exact List.Subset.trans (by decide) hk0)

theorem kept_operatingSecond {ps0 : List Part} {r0 : State} (s : State) (hg0 : Kept ps0 r0 s) (hk0 : [.ps, .power] ⊆ ps0) : Kept ps0 r0 (operatingSecond s) := by
  unfold operatingSecond
  repeat (any_goals first | with_reducible assumption | with_reducible apply kept_psRecord | split | with_reducible apply kept_upd_power | with_reducible intro _ | exact List.Subset.trans (by decide) hk0)

theorem kept_rtcWrite {ps0 : List Part} {r0 : State} (m : Master) (f : State → State) (s : State) (hf_f : ∀  (t : State), Kept ps0 r0 t → Kept ps0 r0 (f  t)) (hg0 : Kept ps0 r0 s) (hk0 : [.memRegs, .bus] ⊆ ps0) : Kept ps0 r0 (rtcWrite m f s) := by
  unfold rtcWrite
  try dsimp only
  repeat (any_goals first | with_reducible assumption | with_reducible apply hf_f | with_reducible apply kept_countAf | with_reducible apply kept_answer | with_reducible apply kept_regAt | split | with_reducible apply kept_upd_bus | with_reducible apply kept_upd_memRegs | with_reducible intro _ | exact List.Subset.trans (by decide) hk0 | dsimp only)

theorem kept_rtcErr {ps0 : List Part} {r0 : State} (b : Nat) (s : State) (hg0 : Kept ps0 r0 s) (hk0 : [.rtc] ⊆ ps0) : Kept ps0 r0 (rtcErr b s) := by
  unfold rtcErr
  repeat (any_goals first | with_reducible assumption | split | with_reducible apply kept_upd_rtc | with_reducible intro _ | exact List.Subset.trans (by decide) hk0)

theorem kept_rtcLoadOp {ps0 : List Part} {r0 : State} (s : State) (hg0 : Kept ps0 r0 s) (hk0 : [.cores, .rtc] ⊆ ps0) : Kept ps0 r0 (rtcLoadOp s) := by
  unfold rtcLoadOp
  repeat (any_goals first | with_reducible assumption | with_reducible apply kept_almCompare | with_reducible apply kept_rtcErr | split | with_reducible apply kept_upd_rtc | with_reducible intro _ | exact List.Subset.trans (by decide) hk0)

theorem kept_rtcDstOp {ps0 : List Part} {r0 : State} (v : Nat) (s : State) (hg0 : Kept ps0 r0 s) (hk0 : [.rtc] ⊆ ps0) : Kept ps0 r0 (rtcDstOp v s) := by
  unfold rtcDstOp
  repeat (any_goals first | with_reducible assumption | with_reducible apply kept_rtcErr | split | with_reducible apply kept_upd_rtc | with_reducible intro _ | exact List.Subset.trans (by decide) hk0)

theorem kept_rtcShiftOp {ps0 : List Part} {r0 : State} (v : BitVec 16) (s : State) (hg0 : Kept ps0 r0 s) (hk0 : [.rtc] ⊆ ps0) : Kept ps0 r0 (rtcShiftOp v s) := by
  unfold rtcShiftOp
  repeat (any_goals first | with_reducible assumption | with_reducible apply kept_rtcErr | split | with_reducible apply kept_upd_rtc | with_reducible intro _ | exact List.Subset.trans (by decide) hk0)

theorem kept_rtcAlmHiOp {ps0 : List Part} {r0 : State} (n : Fin 2) (v : Word) (s : State) (hg0 : Kept ps0 r0 s) (hk0 : [.cores, .rtc] ⊆ ps0) : Kept ps0 r0 (rtcAlmHiOp n v s) := by
  unfold rtcAlmHiOp
  repeat (any_goals first | with_reducible assumption | with_reducible apply kept_almCompare | split | with_reducible apply kept_upd_rtc | with_reducible intro _ | exact List.Subset.trans (by decide) hk0)

theorem kept_rtcAlmLoOp {ps0 : List Part} {r0 : State} (n : Fin 2) (v : Word) (s : State) (hg0 : Kept ps0 r0 s) (hk0 : [.rtc] ⊆ ps0) : Kept ps0 r0 (rtcAlmLoOp n v s) := by
  unfold rtcAlmLoOp
  repeat (any_goals first | with_reducible assumption | split | with_reducible apply kept_upd_rtc | with_reducible intro _ | exact List.Subset.trans (by decide) hk0)

theorem kept_rtcWakeOp {ps0 : List Part} {r0 : State} (v : Word) (s : State) (hg0 : Kept ps0 r0 s) (hk0 : [.rtc] ⊆ ps0) : Kept ps0 r0 (rtcWakeOp v s) := by
  unfold rtcWakeOp
  repeat (any_goals first | with_reducible assumption | with_reducible apply kept_rtcErr | split | with_reducible apply kept_upd_rtc | with_reducible intro _ | exact List.Subset.trans (by decide) hk0)

theorem kept_rtcBegin {ps0 : List Part} {r0 : State} (i : Fin 5) (s : State) (hg0 : Kept ps0 r0 s) (hk0 : [.rtc] ⊆ ps0) : Kept ps0 r0 (rtcBegin i s) := by
  unfold rtcBegin
  repeat (any_goals first | with_reducible assumption | split | with_reducible apply kept_upd_rtc | with_reducible intro _ | exact List.Subset.trans (by decide) hk0)

theorem kept_rtcShadowOp {ps0 : List Part} {r0 : State} (m : Master) (r : Fin 6) (s : State) (hg0 : Kept ps0 r0 s) (hk0 : [.memRegs, .rtc, .bus] ⊆ ps0) : Kept ps0 r0 (rtcShadowOp m r s) := by
  unfold rtcShadowOp
  repeat (any_goals first | with_reducible assumption | with_reducible apply kept_rtcBegin | with_reducible apply kept_regAt | with_reducible apply kept_countAf | with_reducible apply kept_answer | split | with_reducible intro _ | exact List.Subset.trans (by decide) hk0 | dsimp only)

theorem kept_rtcSnapOp {ps0 : List Part} {r0 : State} (m : Master) (s : State) (hg0 : Kept ps0 r0 s) (hk0 : [.memRegs, .rtc, .bus] ⊆ ps0) : Kept ps0 r0 (rtcSnapOp m s) := by
  unfold rtcSnapOp
  repeat (any_goals first | with_reducible assumption | with_reducible apply kept_regAt | with_reducible apply kept_countAf | with_reducible apply kept_answer | split | with_reducible apply kept_upd_rtc | with_reducible intro _ | exact List.Subset.trans (by decide) hk0 | dsimp only)

theorem kept_resetInstances {ps0 : List Part} {r0 : State} (d : DomId) (im : Image) (warm : Bool) (s : State) (hg0 : Kept ps0 r0 s) (hk0 : [.cores, .doms, .mem, .voter, .solvers, .freeCtr] ⊆ ps0) : Kept ps0 r0 (resetInstances d im warm s) := by
  unfold resetInstances
  repeat (any_goals first | with_reducible assumption | with_reducible apply kept_domWrite | (with_reducible apply kept_foldl; rotate_left; intro _ _ _) | (with_reducible apply kept_foldl2; rotate_left; intro _ _ _) | split | with_reducible intro _ | exact List.Subset.trans (by decide) hk0)

theorem kept_restoreInstances {ps0 : List Part} {r0 : State} (d : DomId) (im : Image) (s : State) (hg0 : Kept ps0 r0 s) (hk0 : [.cores, .doms, .mem, .voter, .solvers, .freeCtr] ⊆ ps0) : Kept ps0 r0 (restoreInstances d im s) := by
  unfold restoreInstances
  repeat (any_goals first | with_reducible assumption | with_reducible apply kept_domWrite | (with_reducible apply kept_foldl; rotate_left; intro _ _ _) | (with_reducible apply kept_foldl2; rotate_left; intro _ _ _) | split | with_reducible intro _ | exact List.Subset.trans (by decide) hk0)

theorem kept_initKept {ps0 : List Part} {r0 : State} (d : DomId) (im : Image) (warm : Bool) (s : State) (hg0 : Kept ps0 r0 s) (hk0 : [.cores, .doms, .mem, .voter, .solvers, .freeCtr] ⊆ ps0) : Kept ps0 r0 (initKept d im warm s) := by
  unfold initKept
  repeat (any_goals first | with_reducible assumption | with_reducible apply kept_initVars | split | with_reducible intro _ | exact List.Subset.trans (by decide) hk0)

theorem kept_noteRestart {ps0 : List Part} {r0 : State} (n : Fin 4) (s : State) (hg0 : Kept ps0 r0 s) (hk0 : [.esc] ⊆ ps0) : Kept ps0 r0 (noteRestart n s) := by
  unfold noteRestart
  repeat (any_goals first | with_reducible assumption | with_reducible apply kept_ladderRestart | split | with_reducible apply kept_upd_esc | with_reducible intro _ | exact List.Subset.trans (by decide) hk0)

theorem kept_pairRestart {ps0 : List Part} {r0 : State} (n : Fin 4) (host : Bool) (src : Nat) (s : State) (hg0 : Kept ps0 r0 s) (hk0 : [.cores, .doms, .pairs, .mem, .voter, .solvers, .cim, .esc, .power, .arb, .log, .freeCtr] ⊆ ps0) : Kept ps0 r0 (pairRestart n host src s) := by
  unfold pairRestart
  repeat (any_goals first | with_reducible assumption | with_reducible apply kept_cimRestart | with_reducible apply kept_noteRestart | with_reducible apply kept_setRun | with_reducible apply kept_addLog | with_reducible apply kept_modCore | with_reducible apply kept_modPair | with_reducible apply kept_initRetain | with_reducible apply kept_restoreInstances | with_reducible apply kept_resetInstances | with_reducible apply kept_initKept | with_reducible apply kept_abortSolvers | with_reducible apply kept_modDom | split | with_reducible apply kept_upd_log | with_reducible intro _ | exact List.Subset.trans (by decide) hk0)

theorem kept_groupStart {ps0 : List Part} {r0 : State} (g : Fin 2) (src : Nat) (s : State) (hg0 : Kept ps0 r0 s) (hk0 : [.cores, .doms, .mem, .voter, .solvers, .rmus, .ixl, .conns, .cim, .esc, .arb, .log, .freeCtr] ⊆ ps0) : Kept ps0 r0 (groupStart g src s) := by
  unfold groupStart
  repeat (any_goals first | with_reducible assumption | with_reducible apply kept_cimRestart | with_reducible apply kept_setRun | with_reducible apply kept_resetInstances | with_reducible apply kept_initKept | with_reducible apply kept_ixlRestart | with_reducible apply kept_modCore | with_reducible apply kept_modGroup | with_reducible apply kept_abortSolvers | with_reducible apply kept_modDom | with_reducible apply kept_setMembers | with_reducible apply kept_addLog | (with_reducible apply kept_foldl; rotate_left; intro _ _ _) | (with_reducible apply kept_foldl2; rotate_left; intro _ _ _) | split | with_reducible apply kept_upd_esc | with_reducible intro _ | exact List.Subset.trans (by decide) hk0)

theorem kept_domRestart {ps0 : List Part} {r0 : State} (d : DomId) (host : Bool) (src : Nat) (s : State) (hg0 : Kept ps0 r0 s) (hk0 : [.cores, .doms, .pairs, .mem, .voter, .solvers, .rmus, .ixl, .conns, .hsb, .sync, .mbx, .cim, .esc, .power, .arb, .log, .freeCtr] ⊆ ps0) : Kept ps0 r0 (domRestart d host src s) := by
  unfold domRestart
  repeat (any_goals first | with_reducible assumption | with_reducible apply kept_groupStart | with_reducible apply kept_pairRestart | with_reducible apply kept_changeLeave | split | with_reducible intro _ | exact List.Subset.trans (by decide) hk0)

theorem kept_wantLanes {ps0 : List Part} {r0 : State} (s : State) (hg0 : Kept ps0 r0 s) (hk0 : [.voter] ⊆ ps0) : Kept ps0 r0 (wantLanes s) := by
  unfold wantLanes
  dsimp only
  repeat (any_goals first | with_reducible assumption | with_reducible apply kept_modReint | (with_reducible apply kept_foldl; rotate_left; intro _ _ _) | (with_reducible apply kept_foldl2; rotate_left; intro _ _ _) | split | with_reducible intro _ | exact List.Subset.trans (by decide) hk0)

theorem kept_hsbRun {ps0 : List Part} {r0 : State} (s : State) (hg0 : Kept ps0 r0 s) (hk0 : [.hsb, .sync, .ps] ⊆ ps0) : Kept ps0 r0 (hsbRun s) := by
  unfold hsbRun
  repeat (any_goals first | with_reducible assumption | with_reducible apply kept_modHsb | with_reducible apply kept_modSync | with_reducible apply kept_epochAdvance | split | with_reducible intro _ | exact List.Subset.trans (by decide) hk0)

theorem kept_enterRun {ps0 : List Part} {r0 : State} (src : Nat) (s : State) (hg0 : Kept ps0 r0 s) (hk0 : [.cyc, .cores, .doms, .pairs, .mem, .voter, .solvers, .rmus, .ixl, .conns, .ring, .rtm, .hsb, .sync, .mbx, .cim, .esc, .ps, .power, .arb, .log, .freeCtr] ⊆ ps0) : Kept ps0 r0 (enterRun src s) := by
  unfold enterRun
  repeat (any_goals first | with_reducible assumption | with_reducible apply kept_wantLanes | with_reducible apply kept_hsbRun | with_reducible apply kept_domRestart | with_reducible apply kept_setOper | with_reducible apply kept_frtEndAll | (with_reducible apply kept_foldl; rotate_left; intro _ _ _) | (with_reducible apply kept_foldl2; rotate_left; intro _ _ _) | split | with_reducible apply kept_upd_cyc_arb | with_reducible intro _ | exact List.Subset.trans (by decide) hk0)

theorem kept_modeAdmit {ps0 : List Part} {r0 : State} (dim st : Nat) (src : ReqSrc) (s : State) (hg0 : Kept ps0 r0 s) (hk0 : [.cyc, .cores, .doms, .pairs, .mem, .voter, .solvers, .rmus, .ixl, .conns, .ring, .rtm, .hsb, .sync, .mbx, .cim, .esc, .rtc, .ps, .power, .arb, .log, .freeCtr] ⊆ ps0) : Kept ps0 r0 (modeAdmit dim st src s) := by
  unfold modeAdmit
  repeat (any_goals first | with_reducible assumption | with_reducible apply kept_domRestart | with_reducible apply kept_setOper | with_reducible apply kept_showGroups | with_reducible apply kept_enterRun | with_reducible apply kept_tick | split | with_reducible apply kept_upd_arb | with_reducible intro _ | exact List.Subset.trans (by decide) hk0)

theorem kept_modeRequest {ps0 : List Part} {r0 : State} (dim st : Nat) (src : ReqSrc) (s : State) (hg0 : Kept ps0 r0 s) (hk0 : [.cyc, .cores, .doms, .pairs, .mem, .voter, .solvers, .rmus, .ixl, .conns, .ring, .rtm, .hsb, .sync, .mbx, .cim, .esc, .rtc, .ps, .power, .arb, .log, .freeCtr] ⊆ ps0) : Kept ps0 r0 (modeRequest dim st src s).2 := by
  unfold modeRequest
  repeat (any_goals first | with_reducible assumption | with_reducible apply kept_modeAdmit | split | with_reducible apply kept_upd_arb | with_reducible intro _ | exact List.Subset.trans (by decide) hk0)

theorem kept_maRequest {ps0 : List Part} {r0 : State} (src : ReqSrc) (dim st : Nat) (s : State) (hg0 : Kept ps0 r0 s) (hk0 : [.cyc, .cores, .doms, .pairs, .mem, .voter, .solvers, .rmus, .ixl, .conns, .ring, .rtm, .hsb, .sync, .mbx, .cim, .esc, .rtc, .ps, .power, .arb, .log, .freeCtr] ⊆ ps0) : Kept ps0 r0 (maRequest src dim st s) := by
  unfold maRequest
  repeat (any_goals first | with_reducible assumption | with_reducible apply kept_modeRequest | split | with_reducible intro _ | exact List.Subset.trans (by decide) hk0)

theorem kept_modeDone {ps0 : List Part} {r0 : State} (s : State) (hg0 : Kept ps0 r0 s) (hk0 : [.sync, .mbx] ⊆ ps0) : Kept ps0 r0 (modeDone s) := by
  unfold modeDone
  repeat (any_goals first | with_reducible assumption | with_reducible apply kept_finish | (with_reducible apply kept_foldl; rotate_left; intro _ _ _) | (with_reducible apply kept_foldl2; rotate_left; intro _ _ _) | split | with_reducible intro _ | exact List.Subset.trans (by decide) hk0)

theorem kept_pairCommandStop {ps0 : List Part} {r0 : State} (n : Fin 4) (src : Nat) (s : State) (hg0 : Kept ps0 r0 s) (hk0 : [.cores, .doms, .solvers, .hsb, .sync, .mbx, .arb, .log] ⊆ ps0) : Kept ps0 r0 (pairCommandStop n src s) := by
  unfold pairCommandStop
  dsimp only
  repeat (any_goals first | with_reducible assumption | with_reducible apply kept_stopCore | with_reducible apply kept_setRun | with_reducible apply kept_modDom | with_reducible apply kept_abortSolvers | with_reducible apply kept_abandonTasks | with_reducible apply kept_sealArea | with_reducible apply kept_changeLeave | split | with_reducible intro _ | exact List.Subset.trans (by decide) hk0)

theorem kept_groupHalt {ps0 : List Part} {r0 : State} (g : Fin 2) (src : Nat) (s : State) (hg0 : Kept ps0 r0 s) (hk0 : [.cores, .doms, .voter, .solvers, .hsb, .sync, .mbx, .arb, .log] ⊆ ps0) : Kept ps0 r0 (groupHalt g src s) := by
  unfold groupHalt
  try dsimp only
  repeat (any_goals first | with_reducible assumption | with_reducible apply kept_setRun | with_reducible apply kept_modGroup | with_reducible apply kept_stopCore | with_reducible apply kept_abortSolvers | with_reducible apply kept_abandonTasks | with_reducible apply kept_safetyOff | with_reducible apply kept_changeLeave | (with_reducible apply kept_foldl; rotate_left; intro _ _ _) | (with_reducible apply kept_foldl2; rotate_left; intro _ _ _) | split | with_reducible apply kept_upd_voter_arb | with_reducible apply kept_upd_hsb | with_reducible apply kept_upd_cores | with_reducible apply kept_upd_arb | with_reducible apply kept_upd_log | with_reducible apply kept_upd_sync | with_reducible apply kept_upd_voter | with_reducible apply kept_upd_doms | with_reducible apply kept_upd_mbx | with_reducible apply kept_upd_solvers | with_reducible intro _ | exact List.Subset.trans (by decide) hk0)

theorem kept_enterStop {ps0 : List Part} {r0 : State} (src : Nat) (s : State) (hg0 : Kept ps0 r0 s) (hk0 : [.cores, .doms, .voter, .solvers, .hsb, .sync, .fg, .mbx, .boot, .arb, .log] ⊆ ps0) : Kept ps0 r0 (enterStop src s) := by
  unfold enterStop
  repeat (any_goals first | with_reducible assumption | with_reducible apply kept_setOper | with_reducible apply kept_showGroups | with_reducible apply kept_setRole | with_reducible apply kept_modSync | with_reducible apply kept_sendRelinquish | with_reducible apply kept_safetyOff | with_reducible apply kept_permitsOff | with_reducible apply kept_reintEnd | with_reducible apply kept_groupHalt | with_reducible apply kept_pairCommandStop | (with_reducible apply kept_foldl; rotate_left; intro _ _ _) | (with_reducible apply kept_foldl2; rotate_left; intro _ _ _) | split | with_reducible apply kept_upd_arb | with_reducible intro _ | exact List.Subset.trans (by decide) hk0)

theorem kept_pairHold {ps0 : List Part} {r0 : State} (n : Fin 4) (s : State) (hg0 : Kept ps0 r0 s) (hk0 : [.cores, .doms, .solvers] ⊆ ps0) : Kept ps0 r0 (pairHold n s) := by
  unfold pairHold
  dsimp only
  repeat (any_goals first | with_reducible assumption | with_reducible apply kept_sealArea | with_reducible apply kept_modCore | with_reducible apply kept_modArch | with_reducible apply kept_modDom | with_reducible apply kept_abortSolvers | with_reducible apply kept_abandonTasks | split | with_reducible intro _ | exact List.Subset.trans (by decide) hk0)

theorem kept_keyStop {ps0 : List Part} {r0 : State} (s : State) (hg0 : Kept ps0 r0 s) (hk0 : [.cyc, .cores, .doms, .solvers, .hsb, .sync, .mbx, .rtc, .arb, .log] ⊆ ps0) : Kept ps0 r0 (keyStop s) := by
  unfold keyStop
  repeat (any_goals first | with_reducible assumption | with_reducible apply kept_pairCommandStop | with_reducible apply kept_tick | with_reducible apply kept_refusePending | (with_reducible apply kept_foldl; rotate_left; intro _ _ _) | (with_reducible apply kept_foldl2; rotate_left; intro _ _ _) | split | with_reducible apply kept_upd_arb | with_reducible intro _ | exact List.Subset.trans (by decide) hk0)

theorem kept_keySet {ps0 : List Part} {r0 : State} (new : KeyPos) (s : State) (hg0 : Kept ps0 r0 s) (hk0 : [.cyc, .cores, .doms, .voter, .solvers, .hsb, .sync, .mbx, .rtc, .arb, .log] ⊆ ps0) : Kept ps0 r0 (keySet new s) := by
  unfold keySet
  repeat (any_goals first | with_reducible assumption | with_reducible apply kept_keyStop | with_reducible apply kept_setOper | with_reducible apply kept_showGroups | with_reducible apply kept_detachAll | with_reducible apply kept_transition | split | with_reducible apply kept_upd_arb | with_reducible intro _ | exact List.Subset.trans (by decide) hk0)

theorem kept_cycleTurn {ps0 : List Part} {r0 : State} (s : State) (hg0 : Kept ps0 r0 s) (hk0 : [.cyc, .ring, .rtm] ⊆ ps0) : Kept ps0 r0 (cycleTurn s) := by
  unfold cycleTurn
  repeat (any_goals first | with_reducible assumption | with_reducible apply kept_modRtm | with_reducible apply kept_evalRings | with_reducible apply kept_modRing | split | with_reducible apply kept_upd_cyc | with_reducible intro _ | exact List.Subset.trans (by decide) hk0)

theorem kept_ringTimeFix {ps0 : List Part} {r0 : State} (s : State) (hg0 : Kept ps0 r0 s) (hk0 : [.rtm] ⊆ ps0) : Kept ps0 r0 (ringTimeFix s) := by
  unfold ringTimeFix
  repeat (any_goals first | with_reducible assumption | with_reducible apply kept_modRtm | split | with_reducible intro _ | exact List.Subset.trans (by decide) hk0)

theorem kept_trainAt {ps0 : List Part} {r0 : State} (orig : Bool) (s : State) (hg0 : Kept ps0 r0 s) (hk0 : [.doms, .mem, .memRegs, .memErrs, .ring, .rtm, .sync, .mbx] ⊆ ps0) : Kept ps0 r0 (trainAt orig s) := by
  unfold trainAt
  repeat (any_goals first | with_reducible assumption | with_reducible apply kept_modRing | with_reducible apply kept_frtEndAll | with_reducible apply kept_frtWithdrawnEnd | with_reducible apply kept_launchTrain | split | with_reducible intro _ | exact List.Subset.trans (by decide) hk0)

theorem kept_lastTrainLeft {ps0 : List Part} {r0 : State} (s : State) (hg0 : Kept ps0 r0 s) (hk0 : [.cyc, .hsb, .arb] ⊆ ps0) : Kept ps0 r0 (lastTrainLeft s) := by
  unfold lastTrainLeft
  repeat (any_goals first | with_reducible assumption | with_reducible apply kept_modHsb | split | with_reducible apply kept_upd_cyc_arb | with_reducible intro _ | exact List.Subset.trans (by decide) hk0)

theorem kept_reintCount {ps0 : List Part} {r0 : State} (s : State) (hg0 : Kept ps0 r0 s) (hk0 : [.voter] ⊆ ps0) : Kept ps0 r0 (reintCount s) := by
  unfold reintCount
  repeat (any_goals first | with_reducible assumption | with_reducible apply kept_modReint | split | with_reducible intro _ | exact List.Subset.trans (by decide) hk0)

theorem kept_changeCount {ps0 : List Part} {r0 : State} (s : State) (hg0 : Kept ps0 r0 s) (hk0 : [.doms] ⊆ ps0) : Kept ps0 r0 (changeCount s) := by
  unfold changeCount
  repeat (any_goals first | with_reducible assumption | split | with_reducible apply kept_upd_doms | with_reducible intro _ | exact List.Subset.trans (by decide) hk0)

theorem kept_groupAtTk {ps0 : List Part} {r0 : State} (g : Fin 2) (s : State) (hg0 : Kept ps0 r0 s) (hk0 : [.voter] ⊆ ps0) : Kept ps0 r0 (groupAtTk g s) := by
  unfold groupAtTk
  try dsimp only
  repeat (any_goals first | with_reducible assumption | with_reducible apply kept_readySafe | with_reducible apply kept_modGroup | split | with_reducible apply kept_upd_voter | with_reducible intro _ | exact List.Subset.trans (by decide) hk0)

theorem kept_atBoundaryEffects {ps0 : List Part} {r0 : State} (s : State) (hg0 : Kept ps0 r0 s) (hk0 : [.cores, .mem, .solvers, .ring, .rtm, .sync, .mbx, .boot, .arb] ⊆ ps0) : Kept ps0 r0 (atBoundaryEffects s) := by
  unfold atBoundaryEffects
  repeat (any_goals first | with_reducible assumption | with_reducible apply kept_lsDisableTake | with_reducible apply kept_ringEnEffect | (with_reducible apply kept_foldl; rotate_left; intro _ _ _) | (with_reducible apply kept_foldl2; rotate_left; intro _ _ _) | split | with_reducible intro _ | exact List.Subset.trans (by decide) hk0)

theorem kept_inputsReady {ps0 : List Part} {r0 : State} (t : Long) (forced : Bool) (s : State) (hg0 : Kept ps0 r0 s) (hk0 : [.cyc, .cores, .doms, .mem, .voter, .solvers, .ring, .rtm, .hsb, .sync, .mbx, .freeCtr] ⊆ ps0) : Kept ps0 r0 (inputsReady t forced s) := by
  unfold inputsReady
  repeat (any_goals first | with_reducible assumption | with_reducible apply kept_latchLanes | with_reducible apply kept_compareAll | with_reducible apply kept_evalRings | with_reducible apply kept_evalStations | with_reducible apply kept_evalFreight | with_reducible apply kept_evalRanks | with_reducible apply kept_steer | with_reducible apply kept_hsbIntact | (with_reducible apply kept_foldl; rotate_left; intro _ _ _) | (with_reducible apply kept_foldl2; rotate_left; intro _ _ _) | split | with_reducible apply kept_upd_cyc | with_reducible intro _ | exact List.Subset.trans (by decide) hk0)

theorem kept_agree {ps0 : List Part} {r0 : State} (g : Fin 2) (s : State) (hg0 : Kept ps0 r0 s) (hk0 : [.cores, .doms, .mem, .voter, .solvers, .freeCtr] ⊆ ps0) : Kept ps0 r0 (agree g s) := by
  unfold agree
  repeat (any_goals first | with_reducible assumption | with_reducible apply kept_modLane | with_reducible apply kept_modGroup | with_reducible apply kept_domWrite | (with_reducible apply kept_foldl; rotate_left; intro _ _ _) | (with_reducible apply kept_foldl2; rotate_left; intro _ _ _) | split | with_reducible intro _ | exact List.Subset.trans (by decide) hk0)

theorem kept_laneEoc {ps0 : List Part} {r0 : State} (g : Fin 2) (l : Fin 3) (s : State) (hg0 : Kept ps0 r0 s) (hk0 : [.cyc, .cores, .doms, .mem, .memRegs, .memErrs, .banks, .voter, .solvers, .rmus, .ixl, .conns, .hsb, .sync, .fg, .mbx, .cim, .esc, .ps, .boot, .arb, .log, .bus, .freeCtr] ⊆ ps0) : Kept ps0 r0 (laneEoc g l s) := by
  unfold laneEoc
  repeat (any_goals first | with_reducible assumption | with_reducible apply kept_ixlFinish | with_reducible apply kept_eocGive | split | with_reducible intro _ | exact List.Subset.trans (by decide) hk0)

theorem kept_autoCheckins {ps0 : List Part} {r0 : State} (c : CoreId) (t : TaskDecl) (s : State) (hg0 : Kept ps0 r0 s) (hk0 : [.cim] ⊆ ps0) : Kept ps0 r0 (autoCheckins c t s) := by
  unfold autoCheckins
  repeat (any_goals first | with_reducible assumption | with_reducible apply kept_checkinOp | (with_reducible apply kept_foldl; rotate_left; intro _ _ _) | (with_reducible apply kept_foldl2; rotate_left; intro _ _ _) | split | with_reducible intro _ | exact List.Subset.trans (by decide) hk0)

theorem kept_coreComplete {ps0 : List Part} {r0 : State} (c : CoreId) (t : Fin 16) (s : State) (hg0 : Kept ps0 r0 s) (hk0 : [.cores] ⊆ ps0) : Kept ps0 r0 (coreComplete c t s) := by
  unfold coreComplete
  repeat (any_goals first | with_reducible assumption | with_reducible apply kept_modCore | with_reducible apply kept_schedule | split | with_reducible intro _ | exact List.Subset.trans (by decide) hk0)

theorem kept_pairComplete {ps0 : List Part} {r0 : State} (n : Fin 4) (im : Image) (t : Fin 16) (s : State) (hg0 : Kept ps0 r0 s) (hk0 : [.cores, .doms] ⊆ ps0) : Kept ps0 r0 (pairComplete n im t s) := by
  unfold pairComplete
  dsimp only
  repeat (any_goals first | with_reducible assumption | with_reducible apply kept_pairFinish | with_reducible apply kept_coreComplete | with_reducible apply kept_modDom | split | with_reducible intro _ | exact List.Subset.trans (by decide) hk0)

theorem kept_laneComplete {ps0 : List Part} {r0 : State} (l : Fin 3) (g : Fin 2) (im : Image) (t : Fin 16) (s : State) (hg0 : Kept ps0 r0 s) (hk0 : [.cyc, .cores, .doms, .mem, .memRegs, .memErrs, .banks, .voter, .solvers, .rmus, .ixl, .conns, .hsb, .sync, .fg, .mbx, .cim, .esc, .ps, .boot, .arb, .log, .bus, .freeCtr] ⊆ ps0) : Kept ps0 r0 (laneComplete l g im t s) := by
  unfold laneComplete
  dsimp only
  repeat (any_goals first | with_reducible assumption | with_reducible apply kept_laneEoc | with_reducible apply kept_coreComplete | with_reducible apply kept_modDom | with_reducible apply kept_modGroup | split | with_reducible intro _ | exact List.Subset.trans (by decide) hk0)

theorem kept_pairDeadline {ps0 : List Part} {r0 : State} (n : Fin 4) (s : State) (hg0 : Kept ps0 r0 s) (hk0 : [.doms, .sync] ⊆ ps0) : Kept ps0 r0 (pairDeadline n s) := by
  unfold pairDeadline
  dsimp only
  repeat (any_goals first | with_reducible assumption | with_reducible apply kept_sealArea | with_reducible apply kept_hsbFault | with_reducible apply kept_modDom | split | with_reducible intro _ | exact List.Subset.trans (by decide) hk0)

theorem kept_raiseDeadline {ps0 : List Part} {r0 : State} (s : State) (hg0 : Kept ps0 r0 s) (hk0 : [.cores] ⊆ ps0) : Kept ps0 r0 (raiseDeadline s) := by
  unfold raiseDeadline
  repeat (any_goals first | with_reducible assumption | with_reducible apply kept_raiseGroup | with_reducible apply kept_raiseIrq | (with_reducible apply kept_foldl; rotate_left; intro _ _ _) | (with_reducible apply kept_foldl2; rotate_left; intro _ _ _) | split | with_reducible intro _ | exact List.Subset.trans (by decide) hk0)

theorem kept_groupPublish {ps0 : List Part} {r0 : State} (g : Fin 2) (s : State) (hg0 : Kept ps0 r0 s) (hk0 : [.doms] ⊆ ps0) : Kept ps0 r0 (groupPublish g s) := by
  unfold groupPublish
  repeat (any_goals first | with_reducible assumption | with_reducible apply kept_modDom | split | with_reducible intro _ | exact List.Subset.trans (by decide) hk0)

theorem kept_cycCountLo {ps0 : List Part} {r0 : State} (m : Master) (s : State) (hg0 : Kept ps0 r0 s) (hk0 : [.cyc, .memRegs, .bus] ⊆ ps0) : Kept ps0 r0 (cycCountLo m s) := by
  unfold cycCountLo
  repeat (any_goals first | with_reducible assumption | with_reducible apply kept_answer | with_reducible apply kept_regAt | split | with_reducible apply kept_upd_cyc | with_reducible intro _ | exact List.Subset.trans (by decide) hk0 | dsimp only)

theorem kept_cycTbLo {ps0 : List Part} {r0 : State} (m : Master) (s : State) (hg0 : Kept ps0 r0 s) (hk0 : [.cyc, .memRegs, .bus] ⊆ ps0) : Kept ps0 r0 (cycTbLo m s) := by
  unfold cycTbLo
  repeat (any_goals first | with_reducible assumption | with_reducible apply kept_answer | with_reducible apply kept_regAt | split | with_reducible apply kept_upd_cyc | with_reducible intro _ | exact List.Subset.trans (by decide) hk0 | dsimp only)

theorem kept_rtmOfsLo {ps0 : List Part} {r0 : State} (m : Master) (s : State) (hg0 : Kept ps0 r0 s) (hk0 : [.memRegs, .rtm, .bus] ⊆ ps0) : Kept ps0 r0 (rtmOfsLo m s) := by
  unfold rtmOfsLo
  repeat (any_goals first | with_reducible assumption | with_reducible apply kept_answer | with_reducible apply kept_regAt | split | with_reducible apply kept_upd_rtm | with_reducible intro _ | exact List.Subset.trans (by decide) hk0 | dsimp only)

theorem kept_clrovrOp {ps0 : List Part} {r0 : State} (s : State) (hg0 : Kept ps0 r0 s) (hk0 : [.doms] ⊆ ps0) : Kept ps0 r0 (clrovrOp s) := by
  unfold clrovrOp
  repeat (any_goals first | with_reducible assumption | with_reducible apply kept_modDom | (with_reducible apply kept_foldl; rotate_left; intro _ _ _) | (with_reducible apply kept_foldl2; rotate_left; intro _ _ _) | split | with_reducible intro _ | exact List.Subset.trans (by decide) hk0)

end Sys2Proof.Laws
end

