-- ==== Sys2Proof/Laws/KeptStew.lean ====
section
/-! SUPPORT. What each function changes at most: the Steward, online change, the store, debug, update and settings. -/

namespace Sys2Proof.Laws
open Sys2Proof Sys2Proof.Machine Sys2Proof.Safety

theorem kept_answerDg {ps0 : List Part} {r0 : State} (i : Fin 5) (car : Carrier) (d : Dg) (st : Status) (detail : Nat) (s : State) (hg0 : Kept ps0 r0 s) (hk0 : [.sync, .mbx] ⊆ ps0) : Kept ps0 r0 (answerDg i car d st detail s) := by
  unfold answerDg
  repeat (any_goals first | with_reducible assumption | with_reducible apply kept_sendReply | split | with_reducible intro _ | exact List.Subset.trans (by decide) hk0)

theorem kept_answerCounted {ps0 : List Part} {r0 : State} (i : Fin 5) (car : Carrier) (d : Dg) (st : Status) (detail : Nat) (s : State) (hg0 : Kept ps0 r0 s) (hk0 : [.sync, .mbx] ⊆ ps0) : Kept ps0 r0 (answerCounted i car d st detail s) := by
  unfold answerCounted
  repeat (any_goals first | with_reducible assumption | with_reducible apply kept_answerDg | with_reducible apply kept_countMbx | split | with_reducible intro _ | exact List.Subset.trans (by decide) hk0)

theorem kept_sendOpen {ps0 : List Part} {r0 : State} (car : Carrier) (tag : BitVec 16) (st : Status) (detail : Nat) (data : List Byte) (s : State) (hg0 : Kept ps0 r0 s) (hk0 : [.mbx] ⊆ ps0) : Kept ps0 r0 (sendOpen car tag st detail data s) := by
  unfold sendOpen
  repeat (any_goals first | with_reducible assumption | split | with_reducible apply kept_upd_mbx | with_reducible intro _ | exact List.Subset.trans (by decide) hk0)

theorem kept_authFail {ps0 : List Part} {r0 : State} (s : State) (hg0 : Kept ps0 r0 s) (hk0 : [.mbx, .log] ⊆ ps0) : Kept ps0 r0 (authFail s) := by
  unfold authFail
  repeat (any_goals first | with_reducible assumption | with_reducible apply kept_countMbx | with_reducible apply kept_addLog | split | with_reducible intro _ | exact List.Subset.trans (by decide) hk0)

theorem kept_forwardSend {ps0 : List Part} {r0 : State} (r : CmdRef) (s : State) (hg0 : Kept ps0 r0 s) (hk0 : [.sync, .mbx] ⊆ ps0) : Kept ps0 r0 (forwardSend r s) := by
  unfold forwardSend
  repeat (any_goals first | with_reducible assumption | with_reducible apply kept_sendDatagram | (with_reducible apply kept_foldl; rotate_left; intro _ _ _) | (with_reducible apply kept_foldl2; rotate_left; intro _ _ _) | split | with_reducible intro _ | exact List.Subset.trans (by decide) hk0)

theorem kept_slotReceived {ps0 : List Part} {r0 : State} (r : CmdRef) (s : State) (hg0 : Kept ps0 r0 s) (hk0 : [.cores, .sync, .mbx] ⊆ ps0) : Kept ps0 r0 (slotReceived r s) := by
  unfold slotReceived
  dsimp only
  repeat (any_goals first | with_reducible assumption | with_reducible apply kept_forwardSend | with_reducible apply kept_finish | with_reducible apply kept_modSlot | with_reducible apply kept_raiseIrq | split | with_reducible intro _ | exact List.Subset.trans (by decide) hk0)

theorem kept_takeBlock {ps0 : List Part} {r0 : State} (i : Fin 5) (car : Carrier) (d : Dg) (s : State) (hg0 : Kept ps0 r0 s) (hk0 : [.cores, .sync, .mbx] ⊆ ps0) : Kept ps0 r0 (takeBlock i car d s) := by
  unfold takeBlock
  dsimp only
  repeat (any_goals first | with_reducible assumption | with_reducible apply kept_modSess | with_reducible apply kept_answerCounted | with_reducible apply kept_slotReceived | with_reducible apply kept_modSlot | with_reducible apply kept_answerDg | split | with_reducible intro _ | exact List.Subset.trans (by decide) hk0)

theorem kept_takeDg {ps0 : List Part} {r0 : State} (i : Fin 5) (car : Carrier) (b : List Byte) (mac : Nat) (allowed : CodeInfo → Bool) (s : State) (hg0 : Kept ps0 r0 s) (hk0 : [.cores, .sync, .mbx] ⊆ ps0) : Kept ps0 r0 (takeDg i car b mac allowed s) := by
  unfold takeDg
  repeat (any_goals first | with_reducible assumption | with_reducible apply kept_takeBlock | with_reducible apply kept_countMbx | with_reducible apply kept_sendReply | with_reducible apply kept_answerCounted | split | with_reducible apply kept_upd_mbx | with_reducible intro _ | exact List.Subset.trans (by decide) hk0)

theorem kept_hostDatagram {ps0 : List Part} {r0 : State} (car : Carrier) (b : List Byte) (s : State) (hg0 : Kept ps0 r0 s) (hk0 : [.cores, .sync, .mbx, .log] ⊆ ps0) : Kept ps0 r0 (hostDatagram car b s) := by
  unfold hostDatagram
  repeat (any_goals first | with_reducible assumption | with_reducible apply kept_modSess | with_reducible apply kept_takeDg | with_reducible apply kept_countMbx | with_reducible apply kept_sendOpen | with_reducible apply kept_authFail | split | with_reducible apply kept_upd_mbx | with_reducible intro _ | exact List.Subset.trans (by decide) hk0)

theorem kept_takeFragment {ps0 : List Part} {r0 : State} (ip : Word) (port id : BitVec 16) (off : Nat) (more : Bool) (b : List Byte) (s : State) (hg0 : Kept ps0 r0 s) (hk0 : [.cores, .sync, .mbx, .log] ⊆ ps0) : Kept ps0 r0 (takeFragment ip port id off more b s) := by
  unfold takeFragment
  repeat (any_goals first | with_reducible assumption | with_reducible apply kept_hostDatagram | with_reducible apply kept_countMbx | split | with_reducible apply kept_upd_mbx | with_reducible intro _ | exact List.Subset.trans (by decide) hk0)

theorem kept_partnerReply {ps0 : List Part} {r0 : State} (b : List Byte) (s : State) (hg0 : Kept ps0 r0 s) (hk0 : [.sync, .mbx] ⊆ ps0) : Kept ps0 r0 (partnerReply b s) := by
  unfold partnerReply
  dsimp only
  repeat (any_goals first | with_reducible assumption | with_reducible apply kept_finishCode | with_reducible apply kept_modSlot | with_reducible apply kept_countMbx | split | with_reducible intro _ | exact List.Subset.trans (by decide) hk0)

theorem kept_partnerDatagram {ps0 : List Part} {r0 : State} (b : List Byte) (s : State) (hg0 : Kept ps0 r0 s) (hk0 : [.cores, .sync, .mbx] ⊆ ps0) : Kept ps0 r0 (partnerDatagram b s) := by
  unfold partnerDatagram
  repeat (any_goals first | with_reducible assumption | with_reducible apply kept_takeDg | with_reducible apply kept_partnerReply | split | with_reducible intro _ | exact List.Subset.trans (by decide) hk0)

theorem kept_closeSess {ps0 : List Part} {r0 : State} (i : Fin 5) (s : State) (hg0 : Kept ps0 r0 s) (hk0 : [.mbx] ⊆ ps0) : Kept ps0 r0 (closeSess i s) := by
  unfold closeSess
  repeat (any_goals first | with_reducible assumption | with_reducible apply kept_modSess | split | with_reducible apply kept_upd_mbx | with_reducible intro _ | exact List.Subset.trans (by decide) hk0)

theorem kept_dropPartial {ps0 : List Part} {r0 : State} (x : Slot) (s : State) (hg0 : Kept ps0 r0 s) (hk0 : [.arch] ⊆ ps0) : Kept ps0 r0 (dropPartial x s) := by
  unfold dropPartial
  repeat (any_goals first | with_reducible assumption | split | with_reducible apply kept_upd_arch | with_reducible intro _ | exact List.Subset.trans (by decide) hk0)

theorem kept_cancelLower {ps0 : List Part} {r0 : State} (r : CmdRef) (x : Slot) (s : State) (hg0 : Kept ps0 r0 s) (hk0 : [.doms, .solvers, .ring, .update, .ps, .arch, .arb] ⊆ ps0) : Kept ps0 r0 (cancelLower r x s) := by
  unfold cancelLower
  repeat (any_goals first | with_reducible assumption | with_reducible apply kept_modDom | with_reducible apply kept_setChg | with_reducible apply kept_dropPartial | with_reducible apply kept_modRing | (with_reducible apply kept_foldl; rotate_left; intro _ _ _) | (with_reducible apply kept_foldl2; rotate_left; intro _ _ _) | split | with_reducible apply kept_upd_ps | with_reducible apply kept_upd_solvers | with_reducible apply kept_upd_update | with_reducible intro _ | exact List.Subset.trans (by decide) hk0)

theorem kept_runCmd {ps0 : List Part} {r0 : State} (r : CmdRef) (code : Nat) (f : List Byte → State → State) (s : State) (hf_f : ∀ (y0 : List Byte) (t : State), Kept ps0 r0 t → Kept ps0 r0 (f y0 t)) (hg0 : Kept ps0 r0 s) (hk0 : [.sync, .mbx] ⊆ ps0) : Kept ps0 r0 (runCmd r code f s) := by
  unfold runCmd
  try dsimp only
  repeat (any_goals first | with_reducible assumption | with_reducible apply hf_f | with_reducible apply kept_modSlot | with_reducible apply kept_finishRefused | split | with_reducible apply kept_upd_mbx | with_reducible apply kept_upd_sync | with_reducible intro _ | exact List.Subset.trans (by decide) hk0 | dsimp only)

theorem kept_waitFor {ps0 : List Part} {r0 : State} (r : CmdRef) (w : Wait) (s : State) (hg0 : Kept ps0 r0 s) (hk0 : [.mbx] ⊆ ps0) : Kept ps0 r0 (waitFor r w s) := by
  unfold waitFor
  repeat (any_goals first | with_reducible assumption | with_reducible apply kept_modSlot | split | with_reducible intro _ | exact List.Subset.trans (by decide) hk0)

theorem kept_notStarted {ps0 : List Part} {r0 : State} (r : CmdRef) (s : State) (hg0 : Kept ps0 r0 s) (hk0 : [.mbx] ⊆ ps0) : Kept ps0 r0 (notStarted r s) := by
  unfold notStarted
  repeat (any_goals first | with_reducible assumption | with_reducible apply kept_modSlot | split | with_reducible intro _ | exact List.Subset.trans (by decide) hk0)

theorem kept_badParam {ps0 : List Part} {r0 : State} (r : CmdRef) (off : Nat) (s : State) (hg0 : Kept ps0 r0 s) (hk0 : [.sync, .mbx] ⊆ ps0) : Kept ps0 r0 (badParam r off s) := by
  unfold badParam
  repeat (any_goals first | with_reducible assumption | with_reducible apply kept_finish | split | with_reducible intro _ | exact List.Subset.trans (by decide) hk0)

theorem kept_mapRegions {ps0 : List Part} {r0 : State} (d : DomId) (im : Image) (s : State) (hg0 : Kept ps0 r0 s) (hk0 : [.cores] ⊆ ps0) : Kept ps0 r0 (mapRegions d im s) := by
  unfold mapRegions
  repeat (any_goals first | with_reducible assumption | with_reducible apply kept_modCore | (with_reducible apply kept_foldl; rotate_left; intro _ _ _) | (with_reducible apply kept_foldl2; rotate_left; intro _ _ _) | split | with_reducible intro _ | exact List.Subset.trans (by decide) hk0)

theorem kept_stageImage {ps0 : List Part} {r0 : State} (im : Image) (s : State) (hg0 : Kept ps0 r0 s) (hk0 : [.cores, .doms, .mem, .voter, .solvers, .freeCtr] ⊆ ps0) : Kept ps0 r0 (stageImage im s) := by
  unfold stageImage
  repeat (any_goals first | with_reducible assumption | with_reducible apply kept_store | (with_reducible apply kept_foldl; rotate_left; intro _ _ _) | (with_reducible apply kept_foldl2; rotate_left; intro _ _ _) | split | with_reducible intro _ | exact List.Subset.trans (by decide) hk0)

theorem kept_writeCode {ps0 : List Part} {r0 : State} (d : DomId) (im : Image) (s : State) (hg0 : Kept ps0 r0 s) (hk0 : [.cores, .doms, .mem, .voter, .solvers, .freeCtr] ⊆ ps0) : Kept ps0 r0 (writeCode d im s) := by
  unfold writeCode
  repeat (any_goals first | with_reducible assumption | with_reducible apply kept_stageImage | with_reducible apply kept_store | (with_reducible apply kept_foldl; rotate_left; intro _ _ _) | (with_reducible apply kept_foldl2; rotate_left; intro _ _ _) | split | with_reducible intro _ | exact List.Subset.trans (by decide) hk0)

theorem kept_voterLoad {ps0 : List Part} {r0 : State} (d : DomId) (im : Image) (s : State) (hg0 : Kept ps0 r0 s) (hk0 : [.voter] ⊆ ps0) : Kept ps0 r0 (voterLoad d im s) := by
  unfold voterLoad
  repeat (any_goals first | with_reducible assumption | with_reducible apply kept_modGroup | split | with_reducible intro _ | exact List.Subset.trans (by decide) hk0)

theorem kept_writeMatrix {ps0 : List Part} {r0 : State} (d : DomId) (im : Image) (s : State) (hg0 : Kept ps0 r0 s) (hk0 : [.cores, .doms, .mem, .voter, .solvers, .freeCtr] ⊆ ps0) : Kept ps0 r0 (writeMatrix d im s) := by
  unfold writeMatrix
  repeat (any_goals first | with_reducible assumption | with_reducible apply kept_store | (with_reducible apply kept_foldl; rotate_left; intro _ _ _) | (with_reducible apply kept_foldl2; rotate_left; intro _ _ _) | split | with_reducible intro _ | exact List.Subset.trans (by decide) hk0)

theorem kept_unloadQueues {ps0 : List Part} {r0 : State} (d : DomId) (s : State) (hg0 : Kept ps0 r0 s) (hk0 : [.solvers] ⊆ ps0) : Kept ps0 r0 (unloadQueues d s) := by
  unfold unloadQueues
  repeat (any_goals first | with_reducible assumption | with_reducible apply kept_modSolver | (with_reducible apply kept_foldl; rotate_left; intro _ _ _) | (with_reducible apply kept_foldl2; rotate_left; intro _ _ _) | split | with_reducible intro _ | exact List.Subset.trans (by decide) hk0)

theorem kept_loadQueue {ps0 : List Part} {r0 : State} (d : DomId) (x : Fin 5 × Fin 2 × Claim) (s : State) (hg0 : Kept ps0 r0 s) (hk0 : [.memRegs, .memErrs, .solvers] ⊆ ps0) : Kept ps0 r0 (loadQueue d x s).2 := by
  unfold loadQueue
  dsimp only
  repeat (any_goals first | with_reducible assumption | with_reducible apply kept_modQueue | with_reducible apply kept_lsReadImage | with_reducible apply kept_modSolver | split | with_reducible intro _ | exact List.Subset.trans (by decide) hk0)

theorem kept_loadQueues {ps0 : List Part} {r0 : State} (d : DomId) (im : Image) (s : State) (hg0 : Kept ps0 r0 s) (hk0 : [.memRegs, .memErrs, .solvers] ⊆ ps0) : Kept ps0 r0 (loadQueues d im s).2 := by
  unfold loadQueues
  repeat (any_goals first | with_reducible assumption | with_reducible apply kept_loadQueue | (with_reducible apply kept_foldl; rotate_left; intro _ _ _) | (with_reducible apply kept_foldl2; rotate_left; intro _ _ _) | split | with_reducible intro _ | exact List.Subset.trans (by decide) hk0)

theorem kept_loadTrial {ps0 : List Part} {r0 : State} (d : DomId) (raw im : Image) (s : State) (hg0 : Kept ps0 r0 s) (hk0 : [.cores, .doms, .mem, .memRegs, .memErrs, .voter, .solvers, .freeCtr] ⊆ ps0) : Kept ps0 r0 (loadTrial d raw im s).2 := by
  unfold loadTrial
  repeat (any_goals first | with_reducible assumption | with_reducible apply kept_mapRegions | with_reducible apply kept_loadQueues | with_reducible apply kept_unloadQueues | with_reducible apply kept_modDom | with_reducible apply kept_writeCode | split | with_reducible intro _ | exact List.Subset.trans (by decide) hk0)

theorem kept_loadUndone {ps0 : List Part} {r0 : State} (d : DomId) (s t : State) (hg0 : Kept ps0 r0 t) (hk0 : [.cores, .doms, .solvers] ⊆ ps0) : Kept ps0 r0 (loadUndone d s t) := by
  unfold loadUndone
  refine kept_foldl (kept_modDom _ _ _ (kept_upd_solvers hg0 (List.Subset.trans (by decide) hk0)) (List.Subset.trans (by decide) hk0)) fun a x h => kept_modCore _ _ _ h (List.Subset.trans (by decide) hk0)

theorem kept_loadChannels {ps0 : List Part} {r0 : State} (d : DomId) (old : Option Image) (im : Image) (s : State) (hg0 : Kept ps0 r0 s) (hk0 : [.fg, .fgErr] ⊆ ps0) : Kept ps0 r0 (loadChannels d old im s) := by
  unfold loadChannels
  repeat (any_goals first | with_reducible assumption | with_reducible apply kept_fgChWriteOp | with_reducible apply kept_fgPcfgWriteOp | with_reducible apply kept_modCh | (with_reducible apply kept_foldl; rotate_left; intro _ _ _) | (with_reducible apply kept_foldl2; rotate_left; intro _ _ _) | split | with_reducible intro _ | exact List.Subset.trans (by decide) hk0)

theorem kept_solvReady {ps0 : List Part} {r0 : State} (d : DomId) (im : Image) (s : State) (hg0 : Kept ps0 r0 s) (hk0 : [.boot] ⊆ ps0) : Kept ps0 r0 (solvReady d im s) := by
  unfold solvReady
  repeat (any_goals first | with_reducible assumption | with_reducible apply kept_setPd | split | with_reducible intro _ | exact List.Subset.trans (by decide) hk0)

theorem kept_solvPower {ps0 : List Part} {r0 : State} (s : State) (hg0 : Kept ps0 r0 s) (hk0 : [.solvers, .boot] ⊆ ps0) : Kept ps0 r0 (solvPower s) := by
  unfold solvPower
  repeat (any_goals first | with_reducible assumption | with_reducible apply kept_solvDown | split | with_reducible intro _ | exact List.Subset.trans (by decide) hk0)

theorem kept_loadSettings {ps0 : List Part} {r0 : State} (d : DomId) (old : Option Image) (im : Image) (s : State) (hg0 : Kept ps0 r0 s) (hk0 : [.cores, .doms, .mem, .voter, .solvers, .ixl, .fg, .fgErr, .wdg, .cim, .freeCtr] ⊆ ps0) : Kept ps0 r0 (loadSettings d old im s) := by
  unfold loadSettings
  repeat (any_goals first | with_reducible assumption | with_reducible apply kept_writeMatrix | with_reducible apply kept_voterLoad | with_reducible apply kept_loadChannels | with_reducible apply kept_wdgLoad | with_reducible apply kept_cimLoad | (with_reducible apply kept_foldl; rotate_left; intro _ _ _) | (with_reducible apply kept_foldl2; rotate_left; intro _ _ _) | split | with_reducible apply kept_upd_ixl | with_reducible intro _ | exact List.Subset.trans (by decide) hk0)

theorem kept_stopOutputs {ps0 : List Part} {r0 : State} (d : DomId) (im : Image) (s : State) (hg0 : Kept ps0 r0 s) (hk0 : [.doms] ⊆ ps0) : Kept ps0 r0 (stopOutputs d im s) := by
  unfold stopOutputs
  repeat (any_goals first | with_reducible assumption | with_reducible apply kept_modDom | split | with_reducible intro _ | exact List.Subset.trans (by decide) hk0)

theorem kept_plainLoad {ps0 : List Part} {r0 : State} (d : DomId) (raw : Image) (s : State) (hg0 : Kept ps0 r0 s) (hk0 : [.cores, .doms, .mem, .memRegs, .memErrs, .voter, .solvers, .ixl, .fg, .fgErr, .wdg, .cim, .arch, .boot, .log, .freeCtr] ⊆ ps0) : Kept ps0 r0 (plainLoad d raw s).2 := by
  unfold plainLoad
  dsimp only
  repeat (any_goals first | with_reducible assumption | with_reducible apply kept_loadSettings | with_reducible apply kept_stopOutputs | with_reducible apply kept_loadUndone | with_reducible apply kept_solvPower | with_reducible apply kept_addLog | with_reducible apply kept_solvReady | with_reducible apply kept_modDom | with_reducible apply kept_loadTrial | split | with_reducible apply kept_upd_arch | with_reducible intro _ | exact List.Subset.trans (by decide) hk0)

theorem kept_migForward {ps0 : List Part} {r0 : State} (d : DomId) (old new : Image) (code : Nat) (e : MigEntry) (s : State) (hg0 : Kept ps0 r0 s) (hk0 : [.cores, .doms, .mem, .voter, .solvers, .freeCtr] ⊆ ps0) : Kept ps0 r0 (migForward d old new code e s) := by
  unfold migForward
  repeat (any_goals first | with_reducible assumption | with_reducible apply kept_store | (with_reducible apply kept_foldl; rotate_left; intro _ _ _) | (with_reducible apply kept_foldl2; rotate_left; intro _ _ _) | split | with_reducible intro _ | exact List.Subset.trans (by decide) hk0)

theorem kept_migBack {ps0 : List Part} {r0 : State} (d : DomId) (old new : Image) (code : Nat) (e : MigEntry) (s : State) (hg0 : Kept ps0 r0 s) (hk0 : [.cores, .doms, .mem, .voter, .solvers, .freeCtr] ⊆ ps0) : Kept ps0 r0 (migBack d old new code e s) := by
  unfold migBack
  repeat (any_goals first | with_reducible assumption | with_reducible apply kept_store | (with_reducible apply kept_foldl; rotate_left; intro _ _ _) | (with_reducible apply kept_foldl2; rotate_left; intro _ _ _) | split | with_reducible intro _ | exact List.Subset.trans (by decide) hk0)

theorem kept_migRun {ps0 : List Part} {r0 : State} (f : Nat → MigEntry → State → State) (d : DomId) (es : List MigEntry) (s : State) (hf_f : ∀ (y0 : Nat) (y1 : MigEntry) (t : State), Kept ps0 r0 t → Kept ps0 r0 (f y0 y1 t)) (hg0 : Kept ps0 r0 s) (hk0 : [] ⊆ ps0) : Kept ps0 r0 (migRun f d es s) := by
  unfold migRun
  try dsimp only
  repeat (any_goals first | with_reducible assumption | with_reducible apply hf_f | (with_reducible apply kept_foldl; rotate_left; intro _ _ _) | (with_reducible apply kept_foldl2; rotate_left; intro _ _ _) | split | with_reducible intro _ | exact List.Subset.trans (by decide) hk0 | dsimp only)

theorem kept_recipeWrite {ps0 : List Part} {r0 : State} (d : DomId) (im : Image) (p : Recipe) (s : State) (hg0 : Kept ps0 r0 s) (hk0 : [.cores, .doms, .mem, .voter, .solvers, .freeCtr] ⊆ ps0) : Kept ps0 r0 (recipeWrite d im p s) := by
  unfold recipeWrite
  repeat (any_goals first | with_reducible assumption | with_reducible apply kept_domWrite | split | with_reducible intro _ | exact List.Subset.trans (by decide) hk0)

theorem kept_recipeTurn {ps0 : List Part} {r0 : State} (d : DomId) (im : Image) (p : Recipe) (s : State) (hg0 : Kept ps0 r0 s) (hk0 : [.cores, .doms, .mem, .voter, .solvers, .freeCtr] ⊆ ps0) : Kept ps0 r0 (recipeTurn d im p s) := by
  unfold recipeTurn
  repeat (any_goals first | with_reducible assumption | with_reducible apply kept_domWrite | split | with_reducible intro _ | exact List.Subset.trans (by decide) hk0)

theorem kept_loadRefused {ps0 : List Part} {r0 : State} (r : CmdRef) (d : DomId) (e : String) (s : State) (hg0 : Kept ps0 r0 s) (hk0 : [.sync, .mbx, .log] ⊆ ps0) : Kept ps0 r0 (loadRefused r d e s) := by
  unfold loadRefused
  repeat (any_goals first | with_reducible assumption | with_reducible apply kept_addLog | with_reducible apply kept_finishRefused | split | with_reducible intro _ | exact List.Subset.trans (by decide) hk0)

theorem kept_changeBegin {ps0 : List Part} {r0 : State} (r : CmdRef) (d : DomId) (old raw : Image) (recipe : Bool) (window : Nat) (s : State) (hg0 : Kept ps0 r0 s) (hk0 : [.cores, .doms, .mem, .memRegs, .memErrs, .voter, .solvers, .sync, .mbx, .boot, .arb, .log, .freeCtr] ⊆ ps0) : Kept ps0 r0 (changeBegin r d old raw recipe window s) := by
  unfold changeBegin
  dsimp only
  repeat (any_goals first | with_reducible assumption | with_reducible apply kept_setChg | with_reducible apply kept_waitFor | with_reducible apply kept_loadUndone | with_reducible apply kept_solvPower | with_reducible apply kept_solvReady | with_reducible apply kept_modDom | with_reducible apply kept_loadTrial | with_reducible apply kept_loadRefused | split | with_reducible intro _ | exact List.Subset.trans (by decide) hk0)

theorem kept_writeKeys {ps0 : List Part} {r0 : State} (first : Nat) (ks : List (List Byte)) (s : State) (hg0 : Kept ps0 r0 s) (hk0 : [.cores, .doms, .mem, .voter, .solvers, .freeCtr] ⊆ ps0) : Kept ps0 r0 (writeKeys first ks s) := by
  unfold writeKeys
  repeat (any_goals first | with_reducible assumption | with_reducible apply kept_store | (with_reducible apply kept_foldl; rotate_left; intro _ _ _) | (with_reducible apply kept_foldl2; rotate_left; intro _ _ _) | split | with_reducible intro _ | exact List.Subset.trans (by decide) hk0)

theorem kept_keyLoad {ps0 : List Part} {r0 : State} (d : DomId) (b : List Byte) (s : State) (hg0 : Kept ps0 r0 s) (hk0 : [.cores, .doms, .mem, .voter, .solvers, .arch, .freeCtr] ⊆ ps0) : Kept ps0 r0 (keyLoad d b s).2 := by
  unfold keyLoad
  dsimp only
  repeat (any_goals first | with_reducible assumption | with_reducible apply kept_writeKeys | split | with_reducible apply kept_upd_arch | with_reducible intro _ | exact List.Subset.trans (by decide) hk0)

theorem kept_recipeLoad {ps0 : List Part} {r0 : State} (d : DomId) (im raw : Image) (s : State) (hg0 : Kept ps0 r0 s) (hk0 : [.cores, .doms, .mem, .voter, .solvers, .freeCtr] ⊆ ps0) : Kept ps0 r0 (recipeLoad d im raw s) := by
  unfold recipeLoad
  repeat (any_goals first | with_reducible assumption | with_reducible apply kept_recipeWrite | with_reducible apply kept_recipeTurn | split | with_reducible intro _ | exact List.Subset.trans (by decide) hk0)

theorem kept_imageLoadOp {ps0 : List Part} {r0 : State} (r : CmdRef) (id : Long) (d : DomId) (recipe : Bool) (window : Nat) (s : State) (hg0 : Kept ps0 r0 s) (hk0 : [.cores, .doms, .mem, .memRegs, .memErrs, .voter, .solvers, .ixl, .sync, .fg, .fgErr, .mbx, .wdg, .cim, .arch, .boot, .arb, .log, .freeCtr] ⊆ ps0) : Kept ps0 r0 (imageLoadOp r id d recipe window s) := by
  unfold imageLoadOp
  dsimp only
  repeat (any_goals first | with_reducible assumption | with_reducible apply kept_finishRefused | with_reducible apply kept_plainLoad | with_reducible apply kept_recipeLoad | with_reducible apply kept_changeBegin | with_reducible apply kept_finish | with_reducible apply kept_keyLoad | with_reducible apply kept_loadRefused | split | with_reducible intro _ | exact List.Subset.trans (by decide) hk0)

theorem kept_clearMarks {ps0 : List Part} {r0 : State} (d : DomId) (s : State) (hg0 : Kept ps0 r0 s) (hk0 : [.doms] ⊆ ps0) : Kept ps0 r0 (clearMarks d s) := by
  unfold clearMarks
  repeat (any_goals first | with_reducible assumption | with_reducible apply kept_modDom | split | with_reducible intro _ | exact List.Subset.trans (by decide) hk0)

theorem kept_migrateStep {ps0 : List Part} {r0 : State} (d : DomId) (s : State) (hg0 : Kept ps0 r0 s) (hk0 : [.cores, .doms, .mem, .voter, .solvers, .hsb, .sync, .mbx, .arb, .log, .freeCtr] ⊆ ps0) : Kept ps0 r0 (migrateStep d s) := by
  unfold migrateStep
  repeat (any_goals first | with_reducible assumption | with_reducible apply kept_migBack | with_reducible apply kept_swapped | with_reducible apply kept_recipeWrite | with_reducible apply kept_modDom | with_reducible apply kept_migForward | with_reducible apply kept_migRun | with_reducible apply kept_clearMarks | split | with_reducible intro _ | exact List.Subset.trans (by decide) hk0 | dsimp only)

theorem kept_connsCarry {ps0 : List Part} {r0 : State} (g : Fin 2) (old new : Image) (s : State) (hg0 : Kept ps0 r0 s) (hk0 : [.conns] ⊆ ps0) : Kept ps0 r0 (connsCarry g old new s) := by
  unfold connsCarry
  repeat (any_goals first | with_reducible assumption | split | with_reducible apply kept_upd_conns | with_reducible intro _ | exact List.Subset.trans (by decide) hk0)

theorem kept_ixlCarry {ps0 : List Part} {r0 : State} (x : IxlDecl) (s : State) (hg0 : Kept ps0 r0 s) (hk0 : [.ixl] ⊆ ps0) : Kept ps0 r0 (ixlCarry x s) := by
  unfold ixlCarry
  repeat (any_goals first | with_reducible assumption | split | with_reducible apply kept_upd_ixl | with_reducible intro _ | exact List.Subset.trans (by decide) hk0)

theorem kept_turnTo {ps0 : List Part} {r0 : State} (d : DomId) (old new : Image) (s : State) (hg0 : Kept ps0 r0 s) (hk0 : [.cores, .doms, .memRegs, .memErrs, .voter, .solvers, .ixl, .conns, .cim, .boot] ⊆ ps0) : Kept ps0 r0 (turnTo d old new s) := by
  unfold turnTo
  repeat (any_goals first | with_reducible assumption | with_reducible apply kept_cimRestart | with_reducible apply kept_ixlCarry | with_reducible apply kept_connsCarry | with_reducible apply kept_voterLoad | with_reducible apply kept_modCore | with_reducible apply kept_mapRegions | with_reducible apply kept_solvPower | with_reducible apply kept_modDom | with_reducible apply kept_loadQueues | with_reducible apply kept_unloadQueues | with_reducible apply kept_solvReady | (with_reducible apply kept_foldl; rotate_left; intro _ _ _) | (with_reducible apply kept_foldl2; rotate_left; intro _ _ _) | split | with_reducible intro _ | exact List.Subset.trans (by decide) hk0)

theorem kept_suspend {ps0 : List Part} {r0 : State} (d : DomId) (b : Bool) (s : State) (hg0 : Kept ps0 r0 s) (hk0 : [.hsb] ⊆ ps0) : Kept ps0 r0 (suspend d b s) := by
  unfold suspend
  repeat (any_goals first | with_reducible assumption | with_reducible apply kept_modHsb | split | with_reducible intro _ | exact List.Subset.trans (by decide) hk0)

theorem kept_swapped {ps0 : List Part} {r0 : State} (d : DomId) (confirmed : Image) (s : State) (hg0 : Kept ps0 r0 s) (hk0 : [.doms, .hsb, .sync, .mbx, .arb, .log] ⊆ ps0) : Kept ps0 r0 (swapped d confirmed s) := by
  unfold swapped
  dsimp only
  repeat (any_goals first | with_reducible assumption | with_reducible apply kept_finish | with_reducible apply kept_setChg | with_reducible apply kept_suspend | with_reducible apply kept_addLog | with_reducible apply kept_modDom | split | with_reducible intro _ | exact List.Subset.trans (by decide) hk0)

theorem kept_changeCmd {ps0 : List Part} {r0 : State} (r : CmdRef) (w : Wait) (f : Change → Change) (x : List Byte) (s : State) (hg0 : Kept ps0 r0 s) (hk0 : [.doms, .hsb, .sync, .mbx, .arb, .log] ⊆ ps0) : Kept ps0 r0 (changeCmd r w f x s) := by
  unfold changeCmd
  dsimp only
  repeat (any_goals first | with_reducible assumption | with_reducible apply kept_modDom | with_reducible apply kept_waitFor | with_reducible apply kept_finishRefused | with_reducible apply kept_swapped | with_reducible apply kept_badParam | split | with_reducible intro _ | exact List.Subset.trans (by decide) hk0)

theorem kept_retainCopy {ps0 : List Part} {r0 : State} (d : DomId) (old new : Image) (s : State) (hg0 : Kept ps0 r0 s) (hk0 : [.cores, .doms, .mem, .voter, .solvers, .freeCtr] ⊆ ps0) : Kept ps0 r0 (retainCopy d old new s) := by
  unfold retainCopy
  repeat (any_goals first | with_reducible assumption | with_reducible apply kept_store | (with_reducible apply kept_foldl; rotate_left; intro _ _ _) | (with_reducible apply kept_foldl2; rotate_left; intro _ _ _) | split | with_reducible intro _ | exact List.Subset.trans (by decide) hk0)

theorem kept_adoptImage {ps0 : List Part} {r0 : State} (d : DomId) (s : State) (hg0 : Kept ps0 r0 s) (hk0 : [.cores, .doms, .mem, .memRegs, .memErrs, .voter, .solvers, .ixl, .conns, .fg, .fgErr, .wdg, .cim, .arch, .boot, .log, .freeCtr] ⊆ ps0) : Kept ps0 r0 (adoptImage d s) := by
  unfold adoptImage
  dsimp only
  repeat (any_goals first | with_reducible assumption | with_reducible apply kept_plainLoad | with_reducible apply kept_writeCode | with_reducible apply kept_turnTo | split | with_reducible apply kept_upd_arch | with_reducible intro _ | exact List.Subset.trans (by decide) hk0)

theorem kept_modPs {ps0 : List Part} {r0 : State} (f : PStore → PStore) (s : State) (hg0 : Kept ps0 r0 s) (hk0 : [.ps] ⊆ ps0) : Kept ps0 r0 (modPs f s) := by
  unfold modPs
  repeat (any_goals first | with_reducible assumption | split | with_reducible apply kept_upd_ps | with_reducible intro _ | exact List.Subset.trans (by decide) hk0)

theorem kept_psErr {ps0 : List Part} {r0 : State} (b : Nat) (s : State) (hg0 : Kept ps0 r0 s) (hk0 : [.ps] ⊆ ps0) : Kept ps0 r0 (psErr b s) := by
  unfold psErr
  repeat (any_goals first | with_reducible assumption | with_reducible apply kept_modPs | split | with_reducible intro _ | exact List.Subset.trans (by decide) hk0)

theorem kept_psAccept {ps0 : List Part} {r0 : State} (s : State) (hg0 : Kept ps0 r0 s) (hk0 : [.ps] ⊆ ps0) : Kept ps0 r0 (psAccept s) := by
  unfold psAccept
  repeat (any_goals first | with_reducible assumption | with_reducible apply kept_modPs | split | with_reducible intro _ | exact List.Subset.trans (by decide) hk0)

theorem kept_psReadOp {ps0 : List Part} {r0 : State} (pg off len : Nat) (s : State) (hg0 : Kept ps0 r0 s) (hk0 : [.ps] ⊆ ps0) : Kept ps0 r0 (psReadOp pg off len s) := by
  unfold psReadOp
  repeat (any_goals first | with_reducible assumption | with_reducible apply kept_modPs | with_reducible apply kept_psErr | split | with_reducible intro _ | exact List.Subset.trans (by decide) hk0)

theorem kept_psWriteOp {ps0 : List Part} {r0 : State} (pg : BitVec 12) (off len : Nat) (s : State) (hg0 : Kept ps0 r0 s) (hk0 : [.memRegs, .ps, .bus] ⊆ ps0) : Kept ps0 r0 (psWriteOp pg off len s) := by
  unfold psWriteOp
  repeat (any_goals first | with_reducible assumption | with_reducible apply kept_psQueue | with_reducible apply kept_psErr | with_reducible apply kept_modPs | with_reducible apply kept_countAf | with_reducible apply kept_answer | split | with_reducible intro _ | exact List.Subset.trans (by decide) hk0)

theorem kept_psCmdOp {ps0 : List Part} {r0 : State} (op : Nat) (pg : BitVec 12) (off len : Nat) (s : State) (hg0 : Kept ps0 r0 s) (hk0 : [.memRegs, .ps, .bus] ⊆ ps0) : Kept ps0 r0 (psCmdOp op pg off len s) := by
  unfold psCmdOp
  repeat (any_goals first | with_reducible assumption | with_reducible apply kept_psWriteOp | with_reducible apply kept_psAccept | with_reducible apply kept_psReadOp | with_reducible apply kept_psErr | split | with_reducible intro _ | exact List.Subset.trans (by decide) hk0)

theorem kept_psBy {ps0 : List Part} {r0 : State} (f : State → State) (s : State) (hf_f : ∀  (t : State), Kept ps0 r0 t → Kept ps0 r0 (f  t)) (hg0 : Kept ps0 r0 s) (hk0 : [.bus] ⊆ ps0) : Kept ps0 r0 (psBy f s) := by
  unfold psBy
  try dsimp only
  repeat (any_goals first | with_reducible assumption | with_reducible apply hf_f | with_reducible apply kept_answer | split | with_reducible apply kept_upd_bus | with_reducible intro _ | exact List.Subset.trans (by decide) hk0 | dsimp only)

theorem kept_closeSlots {ps0 : List Part} {r0 : State} (slots : List Nat) (s : State) (hg0 : Kept ps0 r0 s) (hk0 : [.mbx] ⊆ ps0) : Kept ps0 r0 (closeSlots slots s) := by
  unfold closeSlots
  dsimp only
  repeat (any_goals first | with_reducible assumption | with_reducible apply kept_closeSess | (with_reducible apply kept_foldl; rotate_left; intro _ _ _) | (with_reducible apply kept_foldl2; rotate_left; intro _ _ _) | split | with_reducible intro _ | exact List.Subset.trans (by decide) hk0)

theorem kept_fkeyRetire {ps0 : List Part} {r0 : State} (s : State) (hg0 : Kept ps0 r0 s) (hk0 : [.fuses] ⊆ ps0) : Kept ps0 r0 (fkeyRetire s) := by
  unfold fkeyRetire
  repeat (any_goals first | with_reducible assumption | split | with_reducible apply kept_upd_fuses | with_reducible intro _ | exact List.Subset.trans (by decide) hk0)

theorem kept_psDrop {ps0 : List Part} {r0 : State} (r : CmdRef) (s : State) (hg0 : Kept ps0 r0 s) (hk0 : [.ps] ⊆ ps0) : Kept ps0 r0 (psDrop r s) := by
  unfold psDrop
  repeat (any_goals first | with_reducible assumption | with_reducible apply kept_modPs | split | with_reducible intro _ | exact List.Subset.trans (by decide) hk0)

theorem kept_clearDone {ps0 : List Part} {r0 : State} (st : Status) (s : State) (hg0 : Kept ps0 r0 s) (hk0 : [.sync, .mbx] ⊆ ps0) : Kept ps0 r0 (clearDone st s) := by
  unfold clearDone
  repeat (any_goals first | with_reducible assumption | with_reducible apply kept_finish | (with_reducible apply kept_foldl; rotate_left; intro _ _ _) | (with_reducible apply kept_foldl2; rotate_left; intro _ _ _) | split | with_reducible intro _ | exact List.Subset.trans (by decide) hk0)

theorem kept_psEnded {ps0 : List Part} {r0 : State} (q : PsReq) (ok : Bool) (old new : List Byte) (s : State) (hg0 : Kept ps0 r0 s) (hk0 : [.sync, .mbx, .esc, .ps, .fuses] ⊆ ps0) : Kept ps0 r0 (psEnded q ok old new s) := by
  unfold psEnded
  repeat (any_goals first | with_reducible assumption | with_reducible apply kept_clearDone | with_reducible apply kept_closeSlots | with_reducible apply kept_fkeyRetire | with_reducible apply kept_modSlot | with_reducible apply kept_psDrop | with_reducible apply kept_finish | with_reducible apply kept_modPs | (with_reducible apply kept_foldl; rotate_left; intro _ _ _) | (with_reducible apply kept_foldl2; rotate_left; intro _ _ _) | split | with_reducible apply kept_upd_esc | with_reducible intro _ | exact List.Subset.trans (by decide) hk0)

theorem kept_dropSecond {ps0 : List Part} {r0 : State} (q : PsReq) (s : State) (hg0 : Kept ps0 r0 s) (hk0 : [.sync, .mbx, .esc, .ps, .fuses] ⊆ ps0) : Kept ps0 r0 (dropSecond q s) := by
  unfold dropSecond
  repeat (any_goals first | with_reducible assumption | with_reducible apply kept_modPs | with_reducible apply kept_psEnded | split | with_reducible intro _ | exact List.Subset.trans (by decide) hk0)

theorem kept_psMedium {ps0 : List Part} {r0 : State} (q : PsReq) (s : State) (hg0 : Kept ps0 r0 s) (hk0 : [.sync, .mbx, .esc, .ps, .fuses] ⊆ ps0) : Kept ps0 r0 (psMedium q s) := by
  unfold psMedium
  repeat (any_goals first | with_reducible assumption | with_reducible apply kept_modPs | with_reducible apply kept_psErr | with_reducible apply kept_dropSecond | with_reducible apply kept_psNext | split | with_reducible intro _ | exact List.Subset.trans (by decide) hk0)

theorem kept_psRetire {ps0 : List Part} {r0 : State} (s : State) (hg0 : Kept ps0 r0 s) (hk0 : [.ps, .log] ⊆ ps0) : Kept ps0 r0 (psRetire s) := by
  unfold psRetire
  dsimp only
  repeat (any_goals first | with_reducible assumption | with_reducible apply kept_addLog | with_reducible apply kept_modPs | split | with_reducible intro _ | exact List.Subset.trans (by decide) hk0)

theorem kept_psCommit {ps0 : List Part} {r0 : State} (q : PsReq) (s : State) (hg0 : Kept ps0 r0 s) (hk0 : [.sync, .mbx, .esc, .ps, .fuses] ⊆ ps0) : Kept ps0 r0 (psCommit q s) := by
  unfold psCommit
  repeat (any_goals first | with_reducible assumption | with_reducible apply kept_psEnded | with_reducible apply kept_setPage | with_reducible apply kept_modPs | split | with_reducible intro _ | exact List.Subset.trans (by decide) hk0)

theorem kept_psScanned {ps0 : List Part} {r0 : State} (s : State) (hg0 : Kept ps0 r0 s) (hk0 : [.ps] ⊆ ps0) : Kept ps0 r0 (psScanned s) := by
  unfold psScanned
  repeat (any_goals first | with_reducible assumption | with_reducible apply kept_psNext | with_reducible apply kept_psErr | with_reducible apply kept_modPs | split | with_reducible intro _ | exact List.Subset.trans (by decide) hk0)

theorem kept_keyWrite {ps0 : List Part} {r0 : State} (r : CmdRef) (first : Nat) (pages : List (List Byte)) (s : State) (hg0 : Kept ps0 r0 s) (hk0 : [.sync, .mbx, .ps] ⊆ ps0) : Kept ps0 r0 (keyWrite r first pages s) := by
  unfold keyWrite
  dsimp only
  repeat (any_goals first | with_reducible assumption | with_reducible apply kept_waitFor | with_reducible apply kept_psQueue | with_reducible apply kept_finishRefused | with_reducible apply kept_finish | with_reducible apply kept_badParam | (with_reducible apply kept_foldl; rotate_left; intro _ _ _) | (with_reducible apply kept_foldl2; rotate_left; intro _ _ _) | split | with_reducible intro _ | exact List.Subset.trans (by decide) hk0)

theorem kept_echoAct {ps0 : List Part} {r0 : State} (n : Fin 4) (kind : Byte) (target : Nat) (v : BitVec 64) (f : State → State) (s : State) (hf_f : ∀  (t : State), Kept ps0 r0 t → Kept ps0 r0 (f  t)) (hg0 : Kept ps0 r0 s) (hk0 : [.pairs] ⊆ ps0) : Kept ps0 r0 (echoAct n kind target v f s) := by
  unfold echoAct
  dsimp only
  repeat (any_goals first | with_reducible assumption | with_reducible apply hf_f | with_reducible apply kept_modPair | split | with_reducible intro _ | exact List.Subset.trans (by decide) hk0 | dsimp only)

theorem kept_echoWrite {ps0 : List Part} {r0 : State} (n : Fin 4) (kind : Byte) (target : Nat) (v : BitVec 64) (s : State) (hg0 : Kept ps0 r0 s) (hk0 : [.cores, .pairs] ⊆ ps0) : Kept ps0 r0 (echoWrite n kind target v s) := by
  unfold echoWrite
  try dsimp only
  repeat (any_goals first | with_reducible assumption | with_reducible apply kept_modCore | with_reducible apply kept_echoAct | split | with_reducible apply kept_upd_cores | with_reducible apply kept_upd_pairs | with_reducible intro _ | exact List.Subset.trans (by decide) hk0 | dsimp only)

theorem kept_debugStore {ps0 : List Part} {r0 : State} (n : Fin 4) (addr : Word) (v : BitVec 64) (s : State) (hg0 : Kept ps0 r0 s) (hk0 : [.cores, .doms, .mem, .memRegs, .memErrs, .banks, .voter, .solvers, .bus, .freeCtr] ⊆ ps0) : Kept ps0 r0 (debugStore n addr v s) := by
  unfold debugStore
  try dsimp only
  repeat (any_goals first | with_reducible assumption | with_reducible apply kept_storeHeld | with_reducible apply kept_store | with_reducible apply kept_clearWord | with_reducible apply kept_answer | split | with_reducible apply kept_upd_memRegs_memErrs | with_reducible apply kept_upd_memRegs_banks | with_reducible apply kept_upd_cores_banks | with_reducible apply kept_upd_banks | with_reducible apply kept_upd_bus | with_reducible apply kept_upd_freeCtr | with_reducible apply kept_upd_cores | with_reducible apply kept_upd_voter | with_reducible apply kept_upd_solvers | with_reducible apply kept_upd_memRegs | with_reducible apply kept_upd_mem | with_reducible apply kept_upd_doms | with_reducible apply kept_upd_memErrs | with_reducible intro _ | exact List.Subset.trans (by decide) hk0)

theorem kept_pairDetach {ps0 : List Part} {r0 : State} (n : Fin 4) (s : State) (hg0 : Kept ps0 r0 s) (hk0 : [.cores, .pairs] ⊆ ps0) : Kept ps0 r0 (pairDetach n s) := by
  unfold pairDetach
  repeat (any_goals first | with_reducible assumption | with_reducible apply kept_modPair | with_reducible apply kept_modCore | (with_reducible apply kept_foldl; rotate_left; intro _ _ _) | (with_reducible apply kept_foldl2; rotate_left; intro _ _ _) | split | with_reducible intro _ | exact List.Subset.trans (by decide) hk0)

theorem kept_x13 {ps0 : List Part} {r0 : State} (code : Byte) (ok : Bool) (f : State → State) (s : State) (hf_f : ∀  (t : State), Kept ps0 r0 t → Kept ps0 r0 (f  t)) (hg0 : Kept ps0 r0 s) (hk0 : [.dbg] ⊆ ps0) : Kept ps0 r0 (x13 code ok f s) := by
  unfold x13
  dsimp only
  repeat (any_goals first | with_reducible assumption | with_reducible apply hf_f | split | with_reducible apply kept_upd_dbg | with_reducible intro _ | exact List.Subset.trans (by decide) hk0 | dsimp only)

theorem kept_modFuses {ps0 : List Part} {r0 : State} (f : Fuses → Fuses) (s : State) (hg0 : Kept ps0 r0 s) (hk0 : [.fuses] ⊆ ps0) : Kept ps0 r0 (modFuses f s) := by
  unfold modFuses
  repeat (any_goals first | with_reducible assumption | split | with_reducible apply kept_upd_fuses | with_reducible intro _ | exact List.Subset.trans (by decide) hk0)

theorem kept_fuseFail {ps0 : List Part} {r0 : State} (s : State) (hg0 : Kept ps0 r0 s) (hk0 : [.fuses] ⊆ ps0) : Kept ps0 r0 (fuseFail s) := by
  unfold fuseFail
  repeat (any_goals first | with_reducible assumption | with_reducible apply kept_modFuses | split | with_reducible intro _ | exact List.Subset.trans (by decide) hk0)

theorem kept_blowBegin {ps0 : List Part} {r0 : State} (blank : Bool) (ws : List FuseWord) (s : State) (hg0 : Kept ps0 r0 s) (hk0 : [.fuses] ⊆ ps0) : Kept ps0 r0 (blowBegin blank ws s) := by
  unfold blowBegin
  repeat (any_goals first | with_reducible assumption | with_reducible apply kept_modFuses | with_reducible apply kept_fuseFail | split | with_reducible intro _ | exact List.Subset.trans (by decide) hk0)

theorem kept_fuseCmd {ps0 : List Part} {r0 : State} (a : Access) (key : BitVec 16) (field : Byte) (s : State) (hg0 : Kept ps0 r0 s) (hk0 : [.memRegs, .fuses, .bus] ⊆ ps0) : Kept ps0 r0 (fuseCmd a key field s) := by
  unfold fuseCmd
  try dsimp only
  repeat (any_goals first | with_reducible assumption | with_reducible apply kept_fuseFail | with_reducible apply kept_countAf | with_reducible apply kept_answer | with_reducible apply kept_modFuses | with_reducible apply kept_blowBegin | split | with_reducible apply kept_upd_bus | with_reducible apply kept_upd_memRegs | with_reducible apply kept_upd_fuses | with_reducible intro _ | exact List.Subset.trans (by decide) hk0)

theorem kept_debugClose {ps0 : List Part} {r0 : State} (s : State) (hg0 : Kept ps0 r0 s) (hk0 : [.cores, .pairs, .voter, .arb, .dbg] ⊆ ps0) : Kept ps0 r0 (debugClose s) := by
  unfold debugClose
  repeat (any_goals first | with_reducible assumption | with_reducible apply kept_detachAll | with_reducible apply kept_pairDetach | with_reducible apply kept_transition | (with_reducible apply kept_foldl; rotate_left; intro _ _ _) | (with_reducible apply kept_foldl2; rotate_left; intro _ _ _) | split | with_reducible apply kept_upd_dbg | with_reducible intro _ | exact List.Subset.trans (by decide) hk0)

theorem kept_blowBits {ps0 : List Part} {r0 : State} (w : FuseWord) (v : Word) (s : State) (hg0 : Kept ps0 r0 s) (hk0 : [.cores, .pairs, .voter, .arb, .fuses, .dbg] ⊆ ps0) : Kept ps0 r0 (blowBits w v s) := by
  unfold blowBits
  dsimp only
  repeat (any_goals first | with_reducible assumption | with_reducible apply kept_debugClose | with_reducible apply kept_modFuses | split | with_reducible intro _ | exact List.Subset.trans (by decide) hk0)

theorem kept_stratumStored {ps0 : List Part} {r0 : State} (r : CmdRef) (x : List Byte) (s : State) (hg0 : Kept ps0 r0 s) (hk0 : [.sync, .mbx, .arch] ⊆ ps0) : Kept ps0 r0 (stratumStored r x s) := by
  unfold stratumStored
  repeat (any_goals first | with_reducible assumption | with_reducible apply kept_finishRefused | with_reducible apply kept_finish | split | with_reducible apply kept_upd_arch | with_reducible intro _ | exact List.Subset.trans (by decide) hk0)

theorem kept_modUpdate {ps0 : List Part} {r0 : State} (f : Update → Update) (s : State) (hg0 : Kept ps0 r0 s) (hk0 : [.update] ⊆ ps0) : Kept ps0 r0 (modUpdate f s) := by
  unfold modUpdate
  repeat (any_goals first | with_reducible assumption | split | with_reducible apply kept_upd_update | with_reducible intro _ | exact List.Subset.trans (by decide) hk0)

theorem kept_writeBoot {ps0 : List Part} {r0 : State} (f : BootRec → BootRec) (s : State) (hg0 : Kept ps0 r0 s) (hk0 : [.ps, .boot] ⊆ ps0) : Kept ps0 r0 (writeBoot f s) := by
  unfold writeBoot
  repeat (any_goals first | with_reducible assumption | with_reducible apply kept_psRecord | split | with_reducible apply kept_upd_boot | with_reducible intro _ | exact List.Subset.trans (by decide) hk0)

theorem kept_dropOldSet {ps0 : List Part} {r0 : State} (id : Long) (s : State) (hg0 : Kept ps0 r0 s) (hk0 : [.arch] ⊆ ps0) : Kept ps0 r0 (dropOldSet id s) := by
  unfold dropOldSet
  repeat (any_goals first | with_reducible assumption | split | with_reducible apply kept_upd_arch | with_reducible intro _ | exact List.Subset.trans (by decide) hk0)

theorem kept_settingsTurn {ps0 : List Part} {r0 : State} (back : Bool) (s : State) (hg0 : Kept ps0 r0 s) (hk0 : [.arch, .log] ⊆ ps0) : Kept ps0 r0 (settingsTurn back s) := by
  unfold settingsTurn
  repeat (any_goals first | with_reducible assumption | with_reducible apply kept_addLog | split | with_reducible apply kept_upd_arch | with_reducible intro _ | exact List.Subset.trans (by decide) hk0)

theorem kept_settingsFreeze {ps0 : List Part} {r0 : State} (s : State) (hg0 : Kept ps0 r0 s) (hk0 : [.arch] ⊆ ps0) : Kept ps0 r0 (settingsFreeze s) := by
  unfold settingsFreeze
  repeat (any_goals first | with_reducible assumption | split | with_reducible apply kept_upd_arch | with_reducible intro _ | exact List.Subset.trans (by decide) hk0)

theorem kept_setRunning {ps0 : List Part} {r0 : State} (id : Long) (s : State) (hg0 : Kept ps0 r0 s) (hk0 : [.doms, .update, .ps, .arch, .boot, .arb, .log] ⊆ ps0) : Kept ps0 r0 (setRunning id s) := by
  unfold setRunning
  repeat (any_goals first | with_reducible assumption | with_reducible apply kept_setRun | with_reducible apply kept_writeBoot | with_reducible apply kept_modUpdate | with_reducible apply kept_dropOldSet | with_reducible apply kept_settingsTurn | split | with_reducible intro _ | exact List.Subset.trans (by decide) hk0)

theorem kept_updateGo {ps0 : List Part} {r0 : State} (id : Long) (_m : List Byte) (c : Nat) (s : State) (hg0 : Kept ps0 r0 s) (hk0 : [.doms, .sync, .mbx, .update, .ps, .arch, .boot, .arb, .log] ⊆ ps0) : Kept ps0 r0 (updateGo id _m c s) := by
  unfold updateGo
  repeat (any_goals first | with_reducible assumption | with_reducible apply kept_setRunning | with_reducible apply kept_finishOpt | with_reducible apply kept_modUpdate | split | with_reducible intro _ | exact List.Subset.trans (by decide) hk0)

theorem kept_updateStop {ps0 : List Part} {r0 : State} (s : State) (hg0 : Kept ps0 r0 s) (hk0 : [.update] ⊆ ps0) : Kept ps0 r0 (updateStop s) := by
  unfold updateStop
  repeat (any_goals first | with_reducible assumption | with_reducible apply kept_modUpdate | split | with_reducible intro _ | exact List.Subset.trans (by decide) hk0)

theorem kept_classSwitch {ps0 : List Part} {r0 : State} (c : Nat) (s : State) (hg0 : Kept ps0 r0 s) (hk0 : [.cores, .fg] ⊆ ps0) : Kept ps0 r0 (classSwitch c s) := by
  unfold classSwitch
  repeat (any_goals first | with_reducible assumption | with_reducible apply kept_modCore | with_reducible apply kept_fgRestart | (with_reducible apply kept_foldl; rotate_left; intro _ _ _) | (with_reducible apply kept_foldl2; rotate_left; intro _ _ _) | split | with_reducible intro _ | exact List.Subset.trans (by decide) hk0)

theorem kept_cycWrite {ps0 : List Part} {r0 : State} (ok : Bool) (f : Cyc → Cyc) (s : State) (hg0 : Kept ps0 r0 s) (hk0 : [.cyc] ⊆ ps0) : Kept ps0 r0 (cycWrite ok f s) := by
  unfold cycWrite
  repeat (any_goals first | with_reducible assumption | split | with_reducible apply kept_upd_cyc | with_reducible intro _ | exact List.Subset.trans (by decide) hk0)

theorem kept_hsbCfgWriteOp {ps0 : List Part} {r0 : State} (v : Word) (s : State) (hg0 : Kept ps0 r0 s) (hk0 : [.hsb] ⊆ ps0) : Kept ps0 r0 (hsbCfgWriteOp v s) := by
  unfold hsbCfgWriteOp
  repeat (any_goals first | with_reducible assumption | with_reducible apply kept_modHsb | split | with_reducible intro _ | exact List.Subset.trans (by decide) hk0)

theorem kept_escCfgWriteOp {ps0 : List Part} {r0 : State} (v : Word) (s : State) (hg0 : Kept ps0 r0 s) (hk0 : [.esc] ⊆ ps0) : Kept ps0 r0 (escCfgWriteOp v s) := by
  unfold escCfgWriteOp
  repeat (any_goals first | with_reducible assumption | split | with_reducible apply kept_upd_esc | with_reducible intro _ | exact List.Subset.trans (by decide) hk0)

theorem kept_layoutLoad {ps0 : List Part} {r0 : State} (l : Layout) (s : State) (hg0 : Kept ps0 r0 s) (hk0 : [.ring, .rtm] ⊆ ps0) : Kept ps0 r0 (layoutLoad l s) := by
  unfold layoutLoad
  repeat (any_goals first | with_reducible assumption | with_reducible apply kept_modRing | with_reducible apply kept_modRtm | split | with_reducible intro _ | exact List.Subset.trans (by decide) hk0)

theorem kept_cfgApply {ps0 : List Part} {r0 : State} (c : CfgSet) (s : State) (hg0 : Kept ps0 r0 s) (hk0 : [.cyc, .doms, .ring, .rtm, .hsb, .fg, .fgErr, .mbx, .wdg, .esc, .ps, .boot, .arb] ⊆ ps0) : Kept ps0 r0 (cfgApply c s) := by
  unfold cfgApply
  repeat (any_goals first | with_reducible assumption | with_reducible apply kept_fgChWriteOp | with_reducible apply kept_modPs | with_reducible apply kept_wdgLoad | with_reducible apply kept_modHsb | with_reducible apply kept_escCfgWriteOp | with_reducible apply kept_layoutLoad | with_reducible apply kept_ringCfgLoad | (with_reducible apply kept_foldl; rotate_left; intro _ _ _) | (with_reducible apply kept_foldl2; rotate_left; intro _ _ _) | split | with_reducible apply kept_upd_cyc | with_reducible apply kept_upd_doms | with_reducible apply kept_upd_mbx | with_reducible intro _ | exact List.Subset.trans (by decide) hk0)

end Sys2Proof.Laws
end

