-- ==== Sys2Proof/Laws/KeptRegs.lean ====
section
/-! SUPPORT. What each function changes at most: start, power, memory codes, registers and the Steward's commands. -/

namespace Sys2Proof.Laws
open Sys2Proof Sys2Proof.Machine Sys2Proof.Safety

theorem kept_modPower {ps0 : List Part} {r0 : State} (f : Power → Power) (s : State) (hg0 : Kept ps0 r0 s) (hk0 : [.power] ⊆ ps0) : Kept ps0 r0 (modPower f s) := by
  unfold modPower
  repeat (any_goals first | with_reducible assumption | split | with_reducible apply kept_upd_power | with_reducible intro _ | exact List.Subset.trans (by decide) hk0)

theorem kept_modBoot {ps0 : List Part} {r0 : State} (f : Boot → Boot) (s : State) (hg0 : Kept ps0 r0 s) (hk0 : [.boot] ⊆ ps0) : Kept ps0 r0 (modBoot f s) := by
  unfold modBoot
  repeat (any_goals first | with_reducible assumption | split | with_reducible apply kept_upd_boot | with_reducible intro _ | exact List.Subset.trans (by decide) hk0)

theorem kept_panelShow {ps0 : List Part} {r0 : State} (ls : List (Nat × Bool)) (s : State) (hg0 : Kept ps0 r0 s) (hk0 : [.power] ⊆ ps0) : Kept ps0 r0 (panelShow ls s) := by
  unfold panelShow
  repeat (any_goals first | with_reducible assumption | with_reducible apply kept_modPower | split | with_reducible intro _ | exact List.Subset.trans (by decide) hk0)

theorem kept_panelDrive {ps0 : List Part} {r0 : State} (s : State) (hg0 : Kept ps0 r0 s) (hk0 : [.power] ⊆ ps0) : Kept ps0 r0 (panelDrive s) := by
  unfold panelDrive
  repeat (any_goals first | with_reducible assumption | with_reducible apply kept_panelShow | split | with_reducible intro _ | exact List.Subset.trans (by decide) hk0)

theorem kept_modRec {ps0 : List Part} {r0 : State} (f : BootRec → BootRec) (s : State) (hg0 : Kept ps0 r0 s) (hk0 : [.boot] ⊆ ps0) : Kept ps0 r0 (modRec f s) := by
  unfold modRec
  repeat (any_goals first | with_reducible assumption | with_reducible apply kept_modBoot | split | with_reducible intro _ | exact List.Subset.trans (by decide) hk0)

theorem kept_setFlag {ps0 : List Part} {r0 : State} (n : Nat) (v : Bool) (s : State) (hg0 : Kept ps0 r0 s) (hk0 : [.boot] ⊆ ps0) : Kept ps0 r0 (setFlag n v s) := by
  unfold setFlag
  repeat (any_goals first | with_reducible assumption | with_reducible apply kept_modRec | split | with_reducible intro _ | exact List.Subset.trans (by decide) hk0)

theorem kept_degrade {ps0 : List Part} {r0 : State} (n : Nat) (s : State) (hg0 : Kept ps0 r0 s) (hk0 : [.boot, .log] ⊆ ps0) : Kept ps0 r0 (degrade n s) := by
  unfold degrade
  repeat (any_goals first | with_reducible assumption | with_reducible apply kept_modRec | with_reducible apply kept_addLog | split | with_reducible intro _ | exact List.Subset.trans (by decide) hk0)

theorem kept_bootStore {ps0 : List Part} {r0 : State} (s : State) (hg0 : Kept ps0 r0 s) (hk0 : [.ps] ⊆ ps0) : Kept ps0 r0 (bootStore s) := by
  unfold bootStore
  dsimp only
  repeat (any_goals first | with_reducible assumption | with_reducible apply kept_setPage | with_reducible apply kept_modPs | with_reducible apply kept_psErr | split | with_reducible intro _ | exact List.Subset.trans (by decide) hk0)

theorem kept_bootCount {ps0 : List Part} {r0 : State} (s : State) (hg0 : Kept ps0 r0 s) (hk0 : [.doms, .boot, .arb] ⊆ ps0) : Kept ps0 r0 (bootCount s) := by
  unfold bootCount
  repeat (any_goals first | with_reducible assumption | with_reducible apply kept_modBoot | with_reducible apply kept_setRun | split | with_reducible intro _ | exact List.Subset.trans (by decide) hk0)

theorem kept_bootFallback {ps0 : List Part} {r0 : State} (s : State) (hg0 : Kept ps0 r0 s) (hk0 : [.doms, .update, .boot, .arb, .log] ⊆ ps0) : Kept ps0 r0 (bootFallback s) := by
  unfold bootFallback
  dsimp only
  repeat (any_goals first | with_reducible assumption | with_reducible apply kept_setRun | with_reducible apply kept_modRec | with_reducible apply kept_setFlag | with_reducible apply kept_modUpdate | with_reducible apply kept_addLog | split | with_reducible intro _ | exact List.Subset.trans (by decide) hk0)

theorem kept_bootProgram {ps0 : List Part} {r0 : State} (s : State) (d : DomId) (hg0 : Kept ps0 r0 s) (hk0 : [.cores, .doms, .mem, .memRegs, .memErrs, .voter, .solvers, .ixl, .fg, .fgErr, .wdg, .cim, .arch, .boot, .log, .freeCtr] ⊆ ps0) : Kept ps0 r0 (bootProgram s d) := by
  unfold bootProgram
  dsimp only
  repeat (any_goals first | with_reducible assumption | with_reducible apply kept_degrade | with_reducible apply kept_modDom | with_reducible apply kept_plainLoad | with_reducible apply kept_addLog | split | with_reducible intro _ | exact List.Subset.trans (by decide) hk0)

theorem kept_bootFails {ps0 : List Part} {r0 : State} (n : Nat) (s : State) (hg0 : Kept ps0 r0 s) (hk0 : [.cyc, .cores, .doms, .pairs, .mem, .memRegs, .memErrs, .banks, .voter, .solvers, .rmus, .ixl, .conns, .ring, .rtm, .hsb, .sync, .fg, .fgErr, .mbx, .update, .wdg, .cim, .esc, .rtc, .ps, .boot, .power, .arb, .fuses, .dbg] ⊆ ps0) : Kept ps0 r0 (bootFails n s) := by
  unfold bootFails
  repeat (any_goals first | with_reducible assumption | with_reducible apply kept_modBoot | with_reducible apply kept_moduleReset | split | with_reducible intro _ | exact List.Subset.trans (by decide) hk0)

theorem kept_countPowerUp {ps0 : List Part} {r0 : State} (s : State) (hg0 : Kept ps0 r0 s) (hk0 : [.ps] ⊆ ps0) : Kept ps0 r0 (countPowerUp s) := by
  unfold countPowerUp
  repeat (any_goals first | with_reducible assumption | with_reducible apply kept_psRecord | split | with_reducible intro _ | exact List.Subset.trans (by decide) hk0)

theorem kept_bootB14 {ps0 : List Part} {r0 : State} (f : BootFindings) (s : State) (hg0 : Kept ps0 r0 s) (hk0 : [.cores, .doms, .pairs, .mem, .voter, .solvers, .rmus, .ixl, .conns, .hsb, .sync, .fg, .mbx, .cim, .esc, .ps, .boot, .power, .arb, .log, .freeCtr] ⊆ ps0) : Kept ps0 r0 (bootB14 f s) := by
  unfold bootB14
  dsimp only
  repeat (any_goals first | with_reducible assumption | with_reducible apply kept_panelDrive | with_reducible apply kept_showGroups | with_reducible apply kept_domRestart | with_reducible apply kept_enterSafe | with_reducible apply kept_modBoot | with_reducible apply kept_bootStore | with_reducible apply kept_countPowerUp | (with_reducible apply kept_foldl; rotate_left; intro _ _ _) | (with_reducible apply kept_foldl2; rotate_left; intro _ _ _) | split | with_reducible intro _ | exact List.Subset.trans (by decide) hk0)

theorem kept_bootB0 {ps0 : List Part} {r0 : State} (f : BootFindings) (s : State) (hg0 : Kept ps0 r0 s) (hk0 : [.boot, .power, .log] ⊆ ps0) : Kept ps0 r0 (bootB0 f s) := by
  unfold bootB0
  repeat (any_goals first | with_reducible assumption | with_reducible apply kept_addLog | with_reducible apply kept_modPower | with_reducible apply kept_setPd | with_reducible apply kept_modBoot | split | with_reducible intro _ | exact List.Subset.trans (by decide) hk0)

theorem kept_bootB1 {ps0 : List Part} {r0 : State} (s : State) (hg0 : Kept ps0 r0 s) (hk0 : [.boot] ⊆ ps0) : Kept ps0 r0 (bootB1 s) := by
  unfold bootB1
  repeat (any_goals first | with_reducible assumption | with_reducible apply kept_modBoot | with_reducible apply kept_setPd | split | with_reducible intro _ | exact List.Subset.trans (by decide) hk0)

theorem kept_bootStepOp {ps0 : List Part} {r0 : State} (v : BitVec 4) (s : State) (hg0 : Kept ps0 r0 s) (hk0 : [.boot] ⊆ ps0) : Kept ps0 r0 (bootStepOp v s) := by
  unfold bootStepOp
  repeat (any_goals first | with_reducible assumption | with_reducible apply kept_modBoot | split | with_reducible intro _ | exact List.Subset.trans (by decide) hk0)

theorem kept_setFeed {ps0 : List Part} {r0 : State} (f : Fin 2) (here : Bool) (v : BitVec 16) (s : State) (hg0 : Kept ps0 r0 s) (hk0 : [.power] ⊆ ps0) : Kept ps0 r0 (setFeed f here v s) := by
  unfold setFeed
  repeat (any_goals first | with_reducible assumption | with_reducible apply kept_modPower | split | with_reducible intro _ | exact List.Subset.trans (by decide) hk0)

theorem kept_feedLost {ps0 : List Part} {r0 : State} (f : Fin 2) (v : BitVec 16) (s : State) (hg0 : Kept ps0 r0 s) (hk0 : [.power, .log] ⊆ ps0) : Kept ps0 r0 (feedLost f v s) := by
  unfold feedLost
  dsimp only
  repeat (any_goals first | with_reducible assumption | with_reducible apply kept_modPower | with_reducible apply kept_addLog | with_reducible apply kept_setFeed | split | with_reducible intro _ | exact List.Subset.trans (by decide) hk0)

theorem kept_feedReset {ps0 : List Part} {r0 : State} (s : State) (hg0 : Kept ps0 r0 s) (hk0 : [.cyc, .cores, .doms, .pairs, .mem, .memRegs, .memErrs, .banks, .voter, .solvers, .rmus, .ixl, .conns, .ring, .rtm, .hsb, .sync, .fg, .fgErr, .mbx, .update, .wdg, .cim, .esc, .rtc, .ps, .boot, .power, .arb, .fuses, .dbg] ⊆ ps0) : Kept ps0 r0 (feedReset s) := by
  unfold feedReset
  repeat (any_goals first | with_reducible assumption | with_reducible apply kept_moduleReset | with_reducible apply kept_modPower | split | with_reducible apply kept_upd_banks | with_reducible intro _ | exact List.Subset.trans (by decide) hk0)

theorem kept_tempEvt {ps0 : List Part} {r0 : State} (b : Nat) (k : LogKind) (t : BitVec 16) (s : State) (hg0 : Kept ps0 r0 s) (hk0 : [.power, .log] ⊆ ps0) : Kept ps0 r0 (tempEvt b k t s) := by
  unfold tempEvt
  repeat (any_goals first | with_reducible assumption | with_reducible apply kept_modPower | with_reducible apply kept_addLog | split | with_reducible intro _ | exact List.Subset.trans (by decide) hk0)

theorem kept_xtalFail {ps0 : List Part} {r0 : State} (s : State) (hg0 : Kept ps0 r0 s) (hk0 : [.boot, .log] ⊆ ps0) : Kept ps0 r0 (xtalFail s) := by
  unfold xtalFail
  dsimp only
  repeat (any_goals first | with_reducible assumption | with_reducible apply kept_addLog | with_reducible apply kept_modBoot | split | with_reducible intro _ | exact List.Subset.trans (by decide) hk0)

theorem kept_scrubRead {ps0 : List Part} {r0 : State} (code line : Nat) (s : State) (hg0 : Kept ps0 r0 s) (hk0 : [.cores, .doms, .memRegs, .memErrs, .voter, .hsb, .sync, .fg, .mbx, .ps, .boot, .arb, .log] ⊆ ps0) : Kept ps0 r0 (scrubRead code line s) := by
  unfold scrubRead
  dsimp only
  repeat (any_goals first | with_reducible assumption | with_reducible apply kept_addLog | with_reducible apply kept_laneMemErr | with_reducible apply kept_checkLine | split | with_reducible intro _ | exact List.Subset.trans (by decide) hk0)

theorem kept_noPathAt {ps0 : List Part} {r0 : State} (m : Master) (s : State) (hg0 : Kept ps0 r0 s) (hk0 : [.memRegs, .bus] ⊆ ps0) : Kept ps0 r0 (noPathAt m s) := by
  unfold noPathAt
  repeat (any_goals first | with_reducible assumption | with_reducible apply kept_countAf | with_reducible apply kept_answer | split | with_reducible intro _ | exact List.Subset.trans (by decide) hk0)

theorem kept_readAt {ps0 : List Part} {r0 : State} (p : Pd) (m : Master) (f : State → Word) (s : State) (hg0 : Kept ps0 r0 s) (hk0 : [.memRegs, .bus] ⊆ ps0) : Kept ps0 r0 (readAt p m f s) := by
  unfold readAt
  repeat (any_goals first | with_reducible assumption | with_reducible apply kept_answer | with_reducible apply kept_regAt | split | with_reducible intro _ | exact List.Subset.trans (by decide) hk0 | dsimp only)

theorem kept_stewAt {ps0 : List Part} {r0 : State} (p : Pd) (m : Master) (f : State → State) (s : State) (hf_f : ∀  (t : State), Kept ps0 r0 t → Kept ps0 r0 (f  t)) (hg0 : Kept ps0 r0 s) (hk0 : [.memRegs, .bus] ⊆ ps0) : Kept ps0 r0 (stewAt p m f s) := by
  unfold stewAt
  try dsimp only
  repeat (any_goals first | with_reducible assumption | with_reducible apply hf_f | with_reducible apply kept_noPathAt | with_reducible apply kept_regAt | split | with_reducible apply kept_upd_memRegs | with_reducible apply kept_upd_bus | with_reducible intro _ | exact List.Subset.trans (by decide) hk0 | dsimp only)

theorem kept_lsQueueAt {ps0 : List Part} {r0 : State} (m : Master) (off : Nat) (f : CoreId → Fin 5 → Fin 2 → State → State) (s : State) (hf_f : ∀ (y0 : CoreId) (y1 : Fin 5) (y2 : Fin 2) (t : State), Kept ps0 r0 t → Kept ps0 r0 (f y0 y1 y2 t)) (hg0 : Kept ps0 r0 s) (hk0 : [.memRegs, .bus] ⊆ ps0) : Kept ps0 r0 (lsQueueAt m off f s) := by
  unfold lsQueueAt
  try dsimp only
  repeat (any_goals first | with_reducible assumption | with_reducible apply hf_f | with_reducible apply kept_noPathAt | with_reducible apply kept_countAf | with_reducible apply kept_answer | split | with_reducible apply kept_upd_memRegs | with_reducible apply kept_upd_bus | with_reducible intro _ | exact List.Subset.trans (by decide) hk0 | dsimp only)

theorem kept_ckekRead {ps0 : List Part} {r0 : State} (m : Master) (atK : Bool) (off : Nat) (s : State) (hg0 : Kept ps0 r0 s) (hk0 : [.memRegs, .bus] ⊆ ps0) : Kept ps0 r0 (ckekRead m atK off s) := by
  unfold ckekRead
  repeat (any_goals first | with_reducible assumption | with_reducible apply kept_noPathAt | with_reducible apply kept_readAt | split | with_reducible intro _ | exact List.Subset.trans (by decide) hk0)

theorem kept_regRead {ps0 : List Part} {r0 : State} (m : Master) (atK : Bool) (blk off : Nat) (s : State) (hg0 : Kept ps0 r0 s) (hk0 : [.cyc, .memRegs, .rtm, .rtc, .dbg, .bus] ⊆ ps0) : Kept ps0 r0 (regRead m atK blk off s) := by
  unfold regRead
  try dsimp only
  repeat (any_goals first | with_reducible assumption | with_reducible apply kept_x13 | with_reducible apply kept_ckekRead | with_reducible apply kept_stewAt | with_reducible apply kept_rtcSnapOp | with_reducible apply kept_rtcShadowOp | with_reducible apply kept_answer | with_reducible apply kept_lsQueueAt | with_reducible apply kept_rtmOfsLo | with_reducible apply kept_readAt | with_reducible apply kept_cycTbLo | with_reducible apply kept_cycCountLo | with_reducible apply kept_noPathAt | split | with_reducible apply kept_upd_cyc_rtc | with_reducible apply kept_upd_memRegs | with_reducible apply kept_upd_rtm | with_reducible apply kept_upd_rtc | with_reducible apply kept_upd_cyc | with_reducible apply kept_upd_bus | with_reducible apply kept_upd_dbg | with_reducible intro _ | exact List.Subset.trans (by decide) hk0 | dsimp only)

theorem kept_cycWr {ps0 : List Part} {r0 : State} (off : Nat) (v : Word) (s : State) (hg0 : Kept ps0 r0 s) (hk0 : [.cyc, .doms] ⊆ ps0) : Kept ps0 r0 (cycWr off v s) := by
  unfold cycWr
  repeat (any_goals first | with_reducible assumption | with_reducible apply kept_cycWrite | with_reducible apply kept_clrovrOp | split | with_reducible apply kept_upd_cyc | with_reducible intro _ | exact List.Subset.trans (by decide) hk0)

theorem kept_votReqOp {ps0 : List Part} {r0 : State} (v : Word) (s : State) (hg0 : Kept ps0 r0 s) (hk0 : [.cores, .doms, .voter, .hsb, .sync, .fg, .mbx, .ps, .boot, .arb, .log] ⊆ ps0) : Kept ps0 r0 (votReqOp v s).2 := by
  unfold votReqOp
  repeat (any_goals first | with_reducible assumption | with_reducible apply kept_voterStat | with_reducible apply kept_voterRequest | split | with_reducible intro _ | exact List.Subset.trans (by decide) hk0)

theorem kept_votReqWr {ps0 : List Part} {r0 : State} (m : Master) (atK : Bool) (v : Word) (s : State) (hg0 : Kept ps0 r0 s) (hk0 : [.cores, .doms, .memRegs, .voter, .hsb, .sync, .fg, .mbx, .ps, .boot, .arb, .log, .bus] ⊆ ps0) : Kept ps0 r0 (votReqWr m atK v s) := by
  unfold votReqWr
  repeat (any_goals first | with_reducible assumption | with_reducible apply kept_noPathAt | with_reducible apply kept_answer | with_reducible apply kept_votReqOp | with_reducible apply kept_regAt | split | with_reducible intro _ | exact List.Subset.trans (by decide) hk0 | dsimp only)

theorem kept_pairWr {ps0 : List Part} {r0 : State} (off : Nat) (v : Word) (s : State) (hg0 : Kept ps0 r0 s) (hk0 : [.pairs] ⊆ ps0) : Kept ps0 r0 (pairWr off v s) := by
  unfold pairWr
  repeat (any_goals first | with_reducible assumption | with_reducible apply kept_modPair | split | with_reducible intro _ | exact List.Subset.trans (by decide) hk0)

theorem kept_ringEnWr {ps0 : List Part} {r0 : State} (v : Word) (s : State) (hg0 : Kept ps0 r0 s) (hk0 : [.ring, .arb] ⊆ ps0) : Kept ps0 r0 (ringEnWr v s) := by
  unfold ringEnWr
  dsimp only
  repeat (any_goals first | with_reducible assumption | with_reducible apply kept_recordEn | with_reducible apply kept_ringEnRings | split | with_reducible intro _ | exact List.Subset.trans (by decide) hk0)

theorem kept_ringWr {ps0 : List Part} {r0 : State} (off : Nat) (v : Word) (s : State) (hg0 : Kept ps0 r0 s) (hk0 : [.ring, .rtm, .boot, .arb] ⊆ ps0) : Kept ps0 r0 (ringWr off v s) := by
  unfold ringWr
  repeat (any_goals first | with_reducible assumption | with_reducible apply kept_modRtm | with_reducible apply kept_modRing | with_reducible apply kept_ringEnWr | with_reducible apply kept_ringCfgWriteOp | split | with_reducible intro _ | exact List.Subset.trans (by decide) hk0)

theorem kept_hsbReqOp {ps0 : List Part} {r0 : State} (v : Word) (s : State) (hg0 : Kept ps0 r0 s) (hk0 : [.hsb, .sync, .freeCtr] ⊆ ps0) : Kept ps0 r0 (hsbReqOp v s).2 := by
  unfold hsbReqOp
  repeat (any_goals first | with_reducible assumption | with_reducible apply kept_modHsb | with_reducible apply kept_hsbRequest | split | with_reducible intro _ | exact List.Subset.trans (by decide) hk0)

theorem kept_hsbWr {ps0 : List Part} {r0 : State} (off : Nat) (v : Word) (s : State) (hg0 : Kept ps0 r0 s) (hk0 : [.hsb, .sync, .freeCtr] ⊆ ps0) : Kept ps0 r0 (hsbWr off v s) := by
  unfold hsbWr
  repeat (any_goals first | with_reducible assumption | with_reducible apply kept_modHsb | with_reducible apply kept_hsbReqOp | with_reducible apply kept_hsbCfgWriteOp | split | with_reducible intro _ | exact List.Subset.trans (by decide) hk0)

theorem kept_memWr {ps0 : List Part} {r0 : State} (off : Nat) (v : Word) (s : State) (hg0 : Kept ps0 r0 s) (hk0 : [.memRegs] ⊆ ps0) : Kept ps0 r0 (memWr off v s) := by
  unfold memWr
  repeat (any_goals first | with_reducible assumption | split | with_reducible apply kept_upd_memRegs | with_reducible intro _ | exact List.Subset.trans (by decide) hk0)

theorem kept_rmuWr {ps0 : List Part} {r0 : State} (l : Fin 3) (off : Nat) (v : Word) (s : State) (hg0 : Kept ps0 r0 s) (hk0 : [.rmus] ⊆ ps0) : Kept ps0 r0 (rmuWr l off v s) := by
  unfold rmuWr
  repeat (any_goals first | with_reducible assumption | with_reducible apply kept_rmuDisarmOp | with_reducible apply kept_rmuArmOp | with_reducible apply kept_modRmu | split | with_reducible intro _ | exact List.Subset.trans (by decide) hk0)

theorem kept_lsCmdWr {ps0 : List Part} {r0 : State} (atK : Bool) (i : Fin 5) (k : Fin 2) (v : Word) (s : State) (hg0 : Kept ps0 r0 s) (hk0 : [.cores, .doms, .pairs, .memRegs, .memErrs, .voter, .solvers, .hsb, .sync, .fg, .mbx, .esc, .ps, .boot, .arb, .log] ⊆ ps0) : Kept ps0 r0 (lsCmdWr atK i k v s) := by
  unfold lsCmdWr
  repeat (any_goals first | with_reducible assumption | with_reducible apply kept_lsUnloadOp | with_reducible apply kept_lsLoadOp | with_reducible apply kept_lsAbortQueue | with_reducible apply kept_lsStartOp | with_reducible apply kept_modQueue | split | with_reducible intro _ | exact List.Subset.trans (by decide) hk0)

theorem kept_lsWr {ps0 : List Part} {r0 : State} (atK : Bool) (i : Fin 5) (k : Fin 2) (off : Nat) (v : Word) (s : State) (hg0 : Kept ps0 r0 s) (hk0 : [.cores, .doms, .pairs, .memRegs, .memErrs, .voter, .solvers, .hsb, .sync, .fg, .mbx, .esc, .ps, .boot, .arb, .log] ⊆ ps0) : Kept ps0 r0 (lsWr atK i k off v s) := by
  unfold lsWr
  repeat (any_goals first | with_reducible assumption | with_reducible apply kept_modQueue | with_reducible apply kept_lsCmdWr | split | with_reducible intro _ | exact List.Subset.trans (by decide) hk0)

theorem kept_wdgUnitWr {ps0 : List Part} {r0 : State} (m : Master) (u : Fin 8) (off : Nat) (v : Word) (s : State) (hg0 : Kept ps0 r0 s) (hk0 : [.wdg] ⊆ ps0) : Kept ps0 r0 (wdgUnitWr m u off v s) := by
  unfold wdgUnitWr
  repeat (any_goals first | with_reducible assumption | with_reducible apply kept_modWdg | with_reducible apply kept_wdgKeyOp | with_reducible apply kept_wdgSvcOp | with_reducible apply kept_wdgWinOp | with_reducible apply kept_wdgPerOp | with_reducible apply kept_wdgCtlOp | split | with_reducible intro _ | exact List.Subset.trans (by decide) hk0)

theorem kept_wdgWr {ps0 : List Part} {r0 : State} (a : Access) (off : Nat) (v : Word) (s : State) (hg0 : Kept ps0 r0 s) (hk0 : [.memRegs, .wdg, .esc, .boot, .bus] ⊆ ps0) : Kept ps0 r0 (wdgWr a off v s) := by
  unfold wdgWr
  dsimp only
  repeat (any_goals first | with_reducible assumption | with_reducible apply kept_escCfgWriteOp | with_reducible apply kept_stewAt | with_reducible apply kept_wdgUnitWr | with_reducible apply kept_wdgWrite | split | with_reducible apply kept_upd_boot | with_reducible intro _ | exact List.Subset.trans (by decide) hk0 | dsimp only)

theorem kept_cimBy {ps0 : List Part} {r0 : State} (m : Master) (atK : Bool) (d : DomId) (f : CoreId → State → State) (s : State) (hf_f : ∀ (y0 : CoreId) (t : State), Kept ps0 r0 t → Kept ps0 r0 (f y0 t)) (hg0 : Kept ps0 r0 s) (hk0 : [.memRegs, .bus] ⊆ ps0) : Kept ps0 r0 (cimBy m atK d f s) := by
  unfold cimBy
  try dsimp only
  repeat (any_goals first | with_reducible assumption | with_reducible apply hf_f | with_reducible apply kept_noPathAt | with_reducible apply kept_regAt | split | with_reducible apply kept_upd_memRegs | with_reducible apply kept_upd_bus | with_reducible intro _ | exact List.Subset.trans (by decide) hk0 | dsimp only)

theorem kept_cimWr {ps0 : List Part} {r0 : State} (m : Master) (atK : Bool) (off : Nat) (v : Word) (s : State) (hg0 : Kept ps0 r0 s) (hk0 : [.memRegs, .cim, .bus] ⊆ ps0) : Kept ps0 r0 (cimWr m atK off v s) := by
  unfold cimWr
  extract_lets clear
  have hc : ∀ d t, Kept ps0 r0 t → Kept ps0 r0 (clear d t) := fun d t h => kept_modCim _ _ _ h (List.Subset.trans (by decide) hk0)
  clear_value clear
  split
  · exact kept_cimBy _ _ _ _ _ (fun _ t h => kept_cimPtOp _ _ _ _ h (List.Subset.trans (by decide) hk0)) hg0 (List.Subset.trans (by decide) hk0)
  · exact kept_cimBy _ _ _ _ _ (fun _ t h => kept_checkinOp _ _ _ h (List.Subset.trans (by decide) hk0)) hg0 (List.Subset.trans (by decide) hk0)
  · split
    · exact kept_regAt _ _ _ _ (fun t h => hc _ _ h) hg0 (List.Subset.trans (by decide) hk0)
    · exact kept_cimBy _ _ _ _ _ (fun _ t h => hc _ _ h) hg0 (List.Subset.trans (by decide) hk0)
  · exact kept_cimBy _ _ _ _ _ (fun _ t h => h) hg0 (List.Subset.trans (by decide) hk0)
  · exact kept_cimBy _ _ _ _ _ (fun _ t h => h) hg0 (List.Subset.trans (by decide) hk0)
  · exact kept_regAt _ _ _ _ (fun t h => h) hg0 (List.Subset.trans (by decide) hk0)

theorem kept_rtcWr {ps0 : List Part} {r0 : State} (off : Nat) (v : Word) (s : State) (hg0 : Kept ps0 r0 s) (hk0 : [.cores, .rtc] ⊆ ps0) : Kept ps0 r0 (rtcWr off v s) := by
  unfold rtcWr
  repeat (any_goals first | with_reducible assumption | with_reducible apply kept_rtcAlmHiOp | with_reducible apply kept_rtcAlmLoOp | with_reducible apply kept_rtcWakeOp | with_reducible apply kept_rtcShiftOp | with_reducible apply kept_rtcDstOp | with_reducible apply kept_rtcLoadOp | split | with_reducible apply kept_upd_rtc | with_reducible intro _ | exact List.Subset.trans (by decide) hk0)

theorem kept_maWr {ps0 : List Part} {r0 : State} (off : Nat) (v : Word) (s : State) (hg0 : Kept ps0 r0 s) (hk0 : [.cyc, .cores, .doms, .pairs, .mem, .voter, .solvers, .rmus, .ixl, .conns, .ring, .rtm, .hsb, .sync, .mbx, .cim, .esc, .rtc, .ps, .power, .arb, .log, .freeCtr] ⊆ ps0) : Kept ps0 r0 (maWr off v s) := by
  unfold maWr
  repeat (any_goals first | with_reducible assumption | with_reducible apply kept_maRequest | split | with_reducible intro _ | exact List.Subset.trans (by decide) hk0)

theorem kept_fgWr {ps0 : List Part} {r0 : State} (m : Master) (off : Nat) (v : Word) (s : State) (hg0 : Kept ps0 r0 s) (hk0 : [.fg, .fgErr] ⊆ ps0) : Kept ps0 r0 (fgWr m off v s) := by
  unfold fgWr
  repeat (any_goals first | with_reducible assumption | with_reducible apply kept_fgPcfgWriteOp | with_reducible apply kept_fgChWriteOp | split | with_reducible apply kept_upd_fgErr | with_reducible intro _ | exact List.Subset.trans (by decide) hk0)

theorem kept_psWr {ps0 : List Part} {r0 : State} (off : Nat) (v : Word) (s : State) (hg0 : Kept ps0 r0 s) (hk0 : [.memRegs, .ps, .bus] ⊆ ps0) : Kept ps0 r0 (psWr off v s) := by
  unfold psWr
  try dsimp only
  repeat (any_goals first | with_reducible assumption | with_reducible apply kept_psCmdOp | with_reducible apply kept_psBy | with_reducible apply kept_modPs | split | with_reducible apply kept_upd_memRegs | with_reducible apply kept_upd_bus | with_reducible apply kept_upd_ps | with_reducible intro _ | exact List.Subset.trans (by decide) hk0 | dsimp only)

theorem kept_pwrWr {ps0 : List Part} {r0 : State} (a : Access) (off : Nat) (v : Word) (s : State) (hg0 : Kept ps0 r0 s) (hk0 : [.doms, .memRegs, .solvers, .sync, .fg, .boot, .power, .fuses, .dbg, .bus] ⊆ ps0) : Kept ps0 r0 (pwrWr a off v s) := by
  unfold pwrWr
  dsimp only
  repeat (any_goals first | with_reducible assumption | with_reducible apply kept_fuseCmd | with_reducible apply kept_bootStepOp | with_reducible apply kept_rstReqOp | with_reducible apply kept_solvOff | with_reducible apply kept_solvOn | with_reducible apply kept_modFuses | split | with_reducible apply kept_upd_boot | with_reducible apply kept_upd_power | with_reducible apply kept_upd_dbg | with_reducible intro _ | exact List.Subset.trans (by decide) hk0)

theorem kept_mbxWr {ps0 : List Part} {r0 : State} (off : Nat) (v : Word) (s : State) (hg0 : Kept ps0 r0 s) (hk0 : [.mbx] ⊆ ps0) : Kept ps0 r0 (mbxWr off v s) := by
  unfold mbxWr
  repeat (any_goals first | with_reducible assumption | split | with_reducible apply kept_upd_mbx | with_reducible intro _ | exact List.Subset.trans (by decide) hk0)

theorem kept_regWrite {ps0 : List Part} {r0 : State} (m : Master) (atK : Bool) (blk off : Nat) (v : Word) (s : State) (hg0 : Kept ps0 r0 s) (hk0 : [.cyc, .cores, .doms, .pairs, .mem, .memRegs, .memErrs, .voter, .solvers, .rmus, .ixl, .conns, .ring, .rtm, .hsb, .sync, .fg, .fgErr, .mbx, .wdg, .cim, .esc, .rtc, .ps, .boot, .power, .arb, .fuses, .dbg, .log, .bus, .freeCtr] ⊆ ps0) : Kept ps0 r0 (regWrite m atK blk off v s) := by
  unfold regWrite
  dsimp only
  repeat (any_goals first | with_reducible assumption | with_reducible apply kept_mbxWr | with_reducible apply kept_pwrWr | with_reducible apply kept_psWr | with_reducible apply kept_fgWr | with_reducible apply kept_maWr | with_reducible apply kept_rtcWr | with_reducible apply kept_rtcWrite | with_reducible apply kept_cimWr | with_reducible apply kept_wdgWr | with_reducible apply kept_modCore | with_reducible apply kept_lsWr | with_reducible apply kept_lsQueueAt | with_reducible apply kept_answer | with_reducible apply kept_rmuWr | with_reducible apply kept_regAt | with_reducible apply kept_noPathAt | with_reducible apply kept_memWr | with_reducible apply kept_hsbWr | with_reducible apply kept_ringWr | with_reducible apply kept_pairWr | with_reducible apply kept_votReqWr | with_reducible apply kept_cycWr | with_reducible apply kept_stewAt | split | with_reducible intro _ | exact List.Subset.trans (by decide) hk0 | assumption | dsimp only)

theorem kept_runSized {ps0 : List Part} {r0 : State} (r : CmdRef) (code n : Nat) (f : List Byte → State → State) (s : State) (hf_f : ∀ (y0 : List Byte) (t : State), Kept ps0 r0 t → Kept ps0 r0 (f y0 t)) (hg0 : Kept ps0 r0 s) (hk0 : [.sync, .mbx] ⊆ ps0) : Kept ps0 r0 (runSized r code n f s) := by
  unfold runSized
  try dsimp only
  repeat (any_goals first | with_reducible assumption | with_reducible apply hf_f | with_reducible apply kept_badParam | with_reducible apply kept_runCmd | split | with_reducible apply kept_upd_sync | with_reducible apply kept_upd_mbx | with_reducible intro _ | exact List.Subset.trans (by decide) hk0 | dsimp only)

theorem kept_stewRead {ps0 : List Part} {r0 : State} (a : Nat) (s : State) (hg0 : Kept ps0 r0 s) (hk0 : [.cyc, .memRegs, .rtm, .rtc, .dbg, .bus] ⊆ ps0) : Kept ps0 r0 (stewRead a s) := by
  unfold stewRead
  try dsimp only
  repeat (any_goals first | with_reducible assumption | with_reducible apply kept_noPathAt | with_reducible apply kept_regRead | split | with_reducible apply kept_upd_cyc_rtc | with_reducible apply kept_upd_memRegs | with_reducible apply kept_upd_rtm | with_reducible apply kept_upd_rtc | with_reducible apply kept_upd_cyc | with_reducible apply kept_upd_bus | with_reducible apply kept_upd_dbg | with_reducible intro _ | exact List.Subset.trans (by decide) hk0)

theorem kept_stewWord {ps0 : List Part} {r0 : State} (code off n : Nat) (s : State) (hg0 : Kept ps0 r0 s) (hk0 : [.cores, .doms, .memRegs, .memErrs, .voter, .hsb, .sync, .fg, .mbx, .ps, .boot, .arb, .log, .freeCtr] ⊆ ps0) : Kept ps0 r0 (stewWord code off n s).2 := by
  unfold stewWord
  dsimp only
  repeat (any_goals first | with_reducible assumption | with_reducible apply kept_nextFree | with_reducible apply kept_raiseCorrected | with_reducible apply kept_laneMemErr | with_reducible apply kept_checkWord | with_reducible apply kept_extDecode | split | with_reducible intro _ | exact List.Subset.trans (by decide) hk0)

theorem kept_stewBytes {ps0 : List Part} {r0 : State} (code fuel off n : Nat) (s : State) (hg0 : Kept ps0 r0 s) (hk0 : [.cores, .doms, .memRegs, .memErrs, .voter, .hsb, .sync, .fg, .mbx, .ps, .boot, .arb, .log, .freeCtr] ⊆ ps0) : Kept ps0 r0 (stewBytes code fuel off n s).2 := by
  induction fuel generalizing off n s with
  | zero => exact hg0
  | succ f ih =>
    unfold stewBytes
    split
    · exact hg0
    · exact ih _ _ _ (kept_stewWord _ _ _ _ hg0 (List.Subset.trans (by decide) hk0))

theorem kept_readMem {ps0 : List Part} {r0 : State} (r : CmdRef) (code off n : Nat) (s : State) (hg0 : Kept ps0 r0 s) (hk0 : [.cores, .doms, .memRegs, .memErrs, .banks, .voter, .hsb, .sync, .fg, .mbx, .ps, .boot, .arb, .log, .freeCtr] ⊆ ps0) : Kept ps0 r0 (readMem r code off n s) := by
  unfold readMem
  dsimp only
  repeat (any_goals first | with_reducible assumption | with_reducible apply kept_stewBytes | with_reducible apply kept_wakeBank | with_reducible apply kept_notStarted | with_reducible apply kept_countAf | with_reducible apply kept_finish | (with_reducible apply kept_foldl; rotate_left; intro _ _ _) | (with_reducible apply kept_foldl2; rotate_left; intro _ _ _) | split | with_reducible intro _ | exact List.Subset.trans (by decide) hk0)

theorem kept_archiveDone {ps0 : List Part} {r0 : State} (r : CmdRef) (x : Slot) (s : State) (hg0 : Kept ps0 r0 s) (hk0 : [.sync, .mbx, .arch] ⊆ ps0) : Kept ps0 r0 (archiveDone r x s) := by
  unfold archiveDone
  repeat (any_goals first | with_reducible assumption | with_reducible apply kept_stratumStored | with_reducible apply kept_finish | split | with_reducible apply kept_upd_arch | with_reducible intro _ | exact List.Subset.trans (by decide) hk0)

theorem kept_holdAccess {ps0 : List Part} {r0 : State} (c : CoreId) (op : MemOp) (addr : Word) (meet : Option Meet) (word : Word) (w : Where) (s : State) (hg0 : Kept ps0 r0 s) (hk0 : [.cores, .memRegs, .banks] ⊆ ps0) : Kept ps0 r0 (holdAccess c op addr meet word w s) := by
  unfold holdAccess
  repeat (any_goals first | with_reducible assumption | with_reducible apply kept_modCore | with_reducible apply kept_wakeBank | split | with_reducible intro _ | exact List.Subset.trans (by decide) hk0)

end Sys2Proof.Laws
end

