-- ==== Sys2Proof/Laws/KeptNerop.lean ====
section
/-! SUPPORT. What a slot of a Nerop core and its access through the fabric change at most. -/

namespace Sys2Proof.Laws
open Sys2Proof Sys2Proof.Machine Sys2Proof.Safety

/-- The parts an access through the fabric may change. -/
abbrev accessParts : List Part :=
  [.cyc, .cores, .doms, .pairs, .mem, .memRegs, .memErrs, .banks, .voter, .solvers, .rmus, .ixl, .conns, .ring, .rtm, .hsb, .sync, .fg, .fgErr, .mbx, .wdg,
    .cim, .esc, .rtc, .ps, .boot, .power, .arb, .fuses, .dbg, .log, .bus, .freeCtr]

/-- The state after an access. -/
def resState : MemRes → State
  | .trap _ s => s
  | .held s => s
  | .ok _ s => s
/-- A choice between two changes. -/
theorem kept_ite {ps : List Part} {r a b : State} {c : Prop} [Decidable c] (ha : Kept ps r a) (hb : Kept ps r b) : Kept ps r (if c then a else b) := by
  split <;> assumption
/-- After a trap. -/
theorem res_trap (t : Trap) (s : State) : resState (.trap t s) = s := rfl
/-- After a hold. -/
theorem res_held (s : State) : resState (.held s) = s := rfl
/-- After an access that is done. -/
theorem res_ok (e : Eff) (s : State) : resState (.ok e s) = s := rfl

theorem kept_ueResponse {ps0 : List Part} {r0 : State} (c : CoreId) (code : Nat) (s : State)
    (hg0 : Kept ps0 r0 s) (hk0 : accessParts ⊆ ps0) : Kept ps0 r0 (resState (ueResponse c code s)) := by
  unfold ueResponse
  repeat (any_goals first | with_reducible assumption | with_reducible apply kept_laneMemErr | with_reducible apply kept_orderlyBegin | split | with_reducible rw [res_trap] | with_reducible rw [res_held] | with_reducible rw [res_ok] | dsimp only | exact List.Subset.trans (by decide) hk0)

theorem kept_readSram {ps0 : List Part} {r0 : State} (c : CoreId) (op : MemOp) (code off : Nat) (s : State)
    (hg0 : Kept ps0 r0 s) (hk0 : accessParts ⊆ ps0) : Kept ps0 r0 (resState (readSram c op code off s)) := by
  unfold readSram
  repeat (any_goals first | with_reducible assumption | with_reducible apply kept_ueResponse | with_reducible apply kept_raiseCorrected | with_reducible apply kept_checkWord | split | with_reducible rw [res_trap] | with_reducible rw [res_held] | with_reducible rw [res_ok] | dsimp only | exact List.Subset.trans (by decide) hk0)

theorem kept_writeSram {ps0 : List Part} {r0 : State} (c : CoreId) (op : MemOp) (code off : Nat) (meet : Option Meet) (s : State)
    (hg0 : Kept ps0 r0 s) (hk0 : accessParts ⊆ ps0) : Kept ps0 r0 (resState (writeSram c op code off meet s)) := by
  unfold writeSram
  repeat (any_goals first | with_reducible assumption | with_reducible apply kept_ueResponse | with_reducible apply kept_recordErr | with_reducible apply kept_storeRot | with_reducible apply kept_collide | split | with_reducible rw [res_trap] | with_reducible rw [res_held] | with_reducible rw [res_ok] | dsimp only | exact List.Subset.trans (by decide) hk0)

theorem kept_accessSram {ps0 : List Part} {r0 : State} (c : CoreId) (op : MemOp) (code off : Nat) (meet : Option Meet) (s : State)
    (hg0 : Kept ps0 r0 s) (hk0 : accessParts ⊆ ps0) : Kept ps0 r0 (resState (accessSram c op code off meet s)) := by
  unfold accessSram
  repeat (any_goals first | with_reducible assumption | with_reducible apply kept_writeSram | with_reducible apply kept_readSram | split | with_reducible rw [res_trap] | with_reducible rw [res_held] | with_reducible rw [res_ok] | dsimp only | exact List.Subset.trans (by decide) hk0)

theorem kept_accessExt {ps0 : List Part} {r0 : State} (c : CoreId) (op : MemOp) (off : Nat) (s : State)
    (hg0 : Kept ps0 r0 s) (hk0 : accessParts ⊆ ps0) : Kept ps0 r0 (resState (accessExt c op off s)) := by
  unfold accessExt
  extract_lets z
  have hz : Kept ps0 r0 z.2 := kept_extDecode _ _ _ hg0 (List.Subset.trans (by decide) hk0)
  clear_value z
  repeat (any_goals first | with_reducible assumption | with_reducible apply kept_ueResponse | with_reducible apply kept_storeRot | with_reducible apply kept_extClear | split | with_reducible rw [res_trap] | with_reducible rw [res_held] | with_reducible rw [res_ok] | dsimp only | exact List.Subset.trans (by decide) hk0)

theorem kept_accessReg {ps0 : List Part} {r0 : State} (c : CoreId) (op : MemOp) (blk off : Nat) (s : State)
    (hg0 : Kept ps0 r0 s) (hk0 : accessParts ⊆ ps0) : Kept ps0 r0 (resState (accessReg c op blk off s)) := by
  unfold accessReg
  extract_lets m k t
  have hm : Kept ps0 r0 t := by
    dsimp only [t]
    exact kept_ite (kept_noPathAt _ _ hg0 (List.Subset.trans (by decide) hk0)) (kept_ite (kept_regWrite _ _ _ _ _ _ hg0 (List.Subset.trans (by decide) hk0)) (kept_regRead _ _ _ _ _ hg0 (List.Subset.trans (by decide) hk0)))
  clear_value t
  repeat (any_goals first | with_reducible assumption | with_reducible apply kept_regWrite | with_reducible apply kept_regRead | with_reducible apply kept_noPathAt | split | with_reducible rw [res_trap] | with_reducible rw [res_held] | with_reducible rw [res_ok] | dsimp only | exact List.Subset.trans (by decide) hk0)

theorem kept_accessWin {ps0 : List Part} {r0 : State} (c : CoreId) (op : MemOp) (i : Fin 5) (off : Nat) (s : State)
    (hg0 : Kept ps0 r0 s) (hk0 : accessParts ⊆ ps0) : Kept ps0 r0 (resState (accessWin c op i off s)) := by
  unfold accessWin
  repeat (any_goals first | with_reducible assumption | with_reducible apply kept_answer | with_reducible apply kept_countAf | with_reducible apply kept_windowAccess | split | with_reducible rw [res_trap] | with_reducible rw [res_held] | with_reducible rw [res_ok] | dsimp only | exact List.Subset.trans (by decide) hk0)

theorem kept_accessMem {ps0 : List Part} {r0 : State} (c : CoreId) (op : MemOp) (addr : Word) (meet : Option Meet) (word : Word) (w : Where) (s : State)
    (hg0 : Kept ps0 r0 s) (hk0 : accessParts ⊆ ps0) : Kept ps0 r0 (resState (accessMem c op addr meet word w s)) := by
  unfold accessMem
  repeat (any_goals first | with_reducible assumption | with_reducible apply kept_accessSram | with_reducible apply kept_accessExt | with_reducible apply kept_noPathAt | with_reducible apply kept_answer | with_reducible apply kept_countAf | with_reducible apply kept_holdAccess | split | with_reducible rw [res_trap] | with_reducible rw [res_held] | with_reducible rw [res_ok] | dsimp only | exact List.Subset.trans (by decide) hk0)

theorem kept_access {ps0 : List Part} {r0 : State} (c : CoreId) (op : MemOp) (addr : Word) (meet : Option Meet) (word : Word) (s : State)
    (hg0 : Kept ps0 r0 s) (hk0 : accessParts ⊆ ps0) : Kept ps0 r0 (resState (access c op addr meet word s)) := by
  unfold access
  repeat (any_goals first | with_reducible assumption | with_reducible apply kept_accessReg | with_reducible apply kept_accessWin | with_reducible apply kept_accessMem | split | with_reducible rw [res_trap] | with_reducible rw [res_held] | with_reducible rw [res_ok] | dsimp only | exact List.Subset.trans (by decide) hk0)

/-- An access function that stays within the listed parts. -/
abbrev AccessKept (ps0 : List Part) (r0 : State) (acc : CoreId → MemOp → Word → Option Meet → Word → State → MemRes) : Prop :=
  ∀ c op a m w t, Kept ps0 r0 t → Kept ps0 r0 (resState (acc c op a m w t))

theorem kept_noAccess {ps0 : List Part} {r0 : State} : AccessKept ps0 r0 noAccess := fun _ _ _ _ _ _ h => h

theorem kept_perform {ps0 : List Part} {r0 : State} (acc : CoreId → MemOp → Word → Option Meet → Word → State → MemRes) (h : Hdr) (word : Word) (x : Act)
    (s : State) (ha : AccessKept ps0 r0 acc) (hg0 : Kept ps0 r0 s) (hk0 : accessParts ⊆ ps0) : Kept ps0 r0 (perform acc h word x s) := by
  have arch : ∀ c f t, Kept ps0 r0 t → Kept ps0 r0 (modArch c f t) := fun c f t ht => kept_modArch _ _ _ ht (List.Subset.trans (by decide) hk0)
  have ret : ∀ c e t, Kept ps0 r0 t → Kept ps0 r0 (retire c e t) := fun c e t ht => kept_retire _ _ _ ht (List.Subset.trans (by decide) hk0)
  have trap : ∀ c t w u, Kept ps0 r0 u → Kept ps0 r0 (takeTrap c t w u) := fun c t w u hu => kept_takeTrap _ _ _ _ hu (List.Subset.trans (by decide) hk0)
  have con : ∀ l g x t, Kept ps0 r0 t → Kept ps0 r0 (contribute l g x t) := fun l g x t ht => kept_contribute _ _ _ _ ht (List.Subset.trans (by decide) hk0)
  have core : ∀ c f t, Kept ps0 r0 t → Kept ps0 r0 (modCore c f t) := fun c f t ht => kept_modCore _ _ _ ht (List.Subset.trans (by decide) hk0)
  have mask : ∀ c k w t, Kept ps0 r0 t → Kept ps0 r0 (maskWrite c k w t) := fun c k w t ht => kept_maskWrite _ _ _ _ ht (List.Subset.trans (by decide) hk0)
  have meet : ∀ c k w m t, Kept ps0 r0 t → Kept ps0 r0 (maskCollide c k w m t).2 := fun c k w m t ht => kept_maskCollide _ _ _ _ _ ht (List.Subset.trans (by decide) hk0)
  cases x with
  | done e => exact ret _ _ _ hg0
  | trap t => exact trap _ _ _ _ hg0
  | jump t l => exact arch _ _ _ hg0
  | rep r => exact arch _ _ _ hg0
  | rte => exact arch _ _ _ hg0
  | wait =>
    unfold perform
    dsimp only
    exact kept_ite (ret _ _ _ hg0) (core _ _ _ hg0)
  | mem op addr =>
    have hm := ha h.core op (addr) h.meet word s hg0
    unfold perform
    dsimp only
    split <;> rename_i e <;> rw [e] at hm
    · exact trap _ _ _ _ hm
    · exact hm
    · exact ret _ _ _ hm
  | bits e code rds ws lost =>
    unfold perform
    dsimp -zeta only
    extract_lets c z s2
    have hz : Kept ps0 r0 z.2 := kept_readWords _ _ _ _ hg0 (List.Subset.trans (by decide) hk0)
    clear_value z
    split
    · exact core _ _ _ (kept_wakeBank _ _ hg0 (List.Subset.trans (by decide) hk0))
    · split
      · split
        · exact kept_laneMemErr _ _ hz (List.Subset.trans (by decide) hk0)
        · exact trap _ _ _ _ hz
      · split
        · exact ret _ _ _ hz
        · refine ret _ _ _ ?_
          split
          · exact meet _ _ _ _ _ hz
          · exact kept_foldl (meet _ _ _ _ _ (meet _ _ _ _ _ hz)) fun a x h => mask _ _ _ _ h
  | vote rd v =>
    unfold perform
    dsimp only
    split
    · exact hg0
    · exact con _ _ _ _ (core _ _ _ hg0)
  | rmu op rd v =>
    unfold perform
    dsimp only
    split
    · exact hg0
    · exact con _ _ _ _ (core _ _ _ (kept_rmuOp _ _ _ _ hg0 (List.Subset.trans (by decide) hk0)))

theorem kept_issueBy {ps0 : List Part} {r0 : State} (acc : CoreId → MemOp → Word → Option Meet → Word → State → MemRes) (i : Instr) (h : Hdr)
    (g : Arch → Bool) (body : Arch → State → Act) (s : State) (ha : AccessKept ps0 r0 acc) (hg0 : Kept ps0 r0 s) (hk0 : accessParts ⊆ ps0) :
    Kept ps0 r0 (issueBy acc i h g body s) := by
  have hl : Kept ps0 r0 (leaveWait h.core s) := kept_leaveWait _ _ hg0 (List.Subset.trans (by decide) hk0)
  have per : ∀ w x t, Kept ps0 r0 t → Kept ps0 r0 (perform acc h w x t) := fun w x t ht => kept_perform acc h w x t ha ht hk0
  unfold issueBy
  extract_lets c t t1 word z t2
  change Kept ps0 r0 t at hl
  have h1 : Kept ps0 r0 t1 := kept_modCore _ _ _ hl (List.Subset.trans (by decide) hk0)
  have hz : Kept ps0 r0 t2 := kept_fetchTrap _ _ h1 (List.Subset.trans (by decide) hk0)
  clear_value t2 z t1 t
  split
  · exact kept_runtimeTurn _ _ hl (List.Subset.trans (by decide) hk0)
  · split
    · exact hl
    · split
      · split
        · exact kept_laneMemErr _ _ hz (List.Subset.trans (by decide) hk0)
        · exact kept_takeTrap _ _ _ _ (kept_firmwareReload _ _ hz (List.Subset.trans (by decide) hk0)) (List.Subset.trans (by decide) hk0)
      · extract_lets pick k
        split
        · extract_lets r t3 x y
          have h3 : Kept ps0 r0 t3 := kept_modPair _ _ _ (kept_modCore _ _ _ hz (List.Subset.trans (by decide) hk0)) (List.Subset.trans (by decide) hk0)
          clear_value t3
          split
          · exact kept_pairFaultKind _ _ _ _ h3 (List.Subset.trans (by decide) hk0)
          · exact kept_ite (kept_brkCheck _ _ (per _ _ _ h3) (List.Subset.trans (by decide) hk0)) (kept_pairFaultKind _ _ _ _ h3 (List.Subset.trans (by decide) hk0))
        · exact kept_ite (per _ _ _ hz) (kept_stopCore _ _ hz (List.Subset.trans (by decide) hk0))
        · exact per _ _ _ hz

theorem kept_resumeAccess {ps0 : List Part} {r0 : State} (c : CoreId) (s : State) (hg0 : Kept ps0 r0 s) (hk0 : accessParts ⊆ ps0) :
    Kept ps0 r0 (resumeAccess c s) := by
  unfold resumeAccess
  split
  · rename_i op addr meet word _ _
    have hm := kept_access c op addr meet word _ (kept_modCore c (fun k => { k with hold := .none }) s hg0 (List.Subset.trans (by decide) hk0)) hk0
    dsimp only
    split <;> rename_i e <;> rw [e] at hm
    · exact kept_takeTrap _ _ _ _ hm (List.Subset.trans (by decide) hk0)
    · exact hm
    · exact kept_retire _ _ _ hm (List.Subset.trans (by decide) hk0)
  · exact hg0

theorem kept_servedNext {ps0 : List Part} {r0 : State} (b : Fin 33) (s : State) (hg0 : Kept ps0 r0 s) (hk0 : accessParts ⊆ ps0) :
    Kept ps0 r0 (servedNext b s) := by
  unfold servedNext
  extract_lets w c mine
  clear_value mine c w
  split
  · split
    · exact kept_resumeAccess _ _ hg0 hk0
    · exact hg0
  · split
    · exact kept_store _ _ _ _ _ (kept_upd_memRegs hg0 (List.Subset.trans (by decide) hk0)) (List.Subset.trans (by decide) hk0)
    · exact hg0

end Sys2Proof.Laws
end

