-- ==== Sys2Proof/Laws/Slot.lean ====
section
/-! SUPPORT. What one slot of a Nerop core does when the core is ready for it. -/

namespace Sys2Proof.Laws
open Sys2Proof.Machine Sys2Proof.Safety

/-- Replacing an entry by itself changes nothing. -/
theorem modCore_self (c : CoreId) (f : Core → Core) (s : State) (h : f s.cores[c] = s.cores[c]) : modCore c f s = s := by
  have : s.cores.set c (f s.cores[c]) = s.cores := by
    rw [h]; exact Vector.set_getElem_self (by exact c.isLt)
  unfold modCore; rw [this]

/-- The same for a pair's registers. -/
theorem modPair_self (n : Fin 4) (f : PairReg → PairReg) (s : State) (h : f s.pairs[n] = s.pairs[n]) : modPair n f s = s := by
  have : s.pairs.set n (f s.pairs[n]) = s.pairs := by
    rw [h]; exact Vector.set_getElem_self (by exact n.isLt)
  unfold modPair; rw [this]

/-- A core that runs does not wait. -/
theorem ready_hold {h : Hdr} {s : State} (r : Issues h s) : s.cores[h.core].hold = .none := by
  have := r.runs
  simp only [coreRuns, Bool.and_eq_true] at this
  exact eq_of_beq this.1.1.2

/-- And the runtime does not take its boundary. -/
theorem ready_switch {h : Hdr} {s : State} (r : Issues h s) : switchDue h.core s = false := by
  have := r.runs
  simp only [coreRuns, Bool.and_eq_true, Bool.not_eq_true'] at this
  exact this.2

/-- So WAIT has nothing to leave. -/
theorem ready_leaveWait {h : Hdr} {s : State} (r : Issues h s) : leaveWait h.core s = s := by
  unfold leaveWait
  have := ready_hold r
  rw [if_neg]
  rw [this]; exact fun h => by simp at h

/-- A well-formed instruction with guard 1 in a slot without delay or repeat asks for its own effect. -/
theorem slotAct_plain {i : Instr} {g : Arch → Bool} {body : Arch → State → Act} {a : Arch} {s : State}
    (h1 : a.rpt = none) (h2 : a.delay = none) (h3 : g a = true) (h4 : isReserved i = false) : slotAct i g body a s = body a s := by
  unfold slotAct seqTrap
  simp [h1, h2, h3, h4]

/-- In a slot where neither a sequence trap nor a reserved encoding stands in the way, an instruction does what it asks for; a pair then looks at its
breakpoints, which cannot hit. -/
theorem issueBy_issues {access i h body s} (r : Issues h s)
    (hp : slotAct i (fun a => guardOn a h) body s.cores[h.core].arch s = body s.cores[h.core].arch s) :
    issueBy access i h (fun a => guardOn a h) body s =
      (match s.cores[h.core].chk, pairOf h.core with
        | some _, some n => brkCheck n
        | _, _ => id) (perform access h (BitVec.ofNat 32 ((encodeNerop i).getD 0)) (body s.cores[h.core].arch s) s) := by
  have hk : modCore h.core (fun k => { k with step := false }) s = s :=
    modCore_self _ _ _ (by have := r.noStep; cases hc : s.cores[h.core]; simp_all)
  unfold issueBy
  simp only [ready_leaveWait r, ready_switch r, r.runs, r.noIrq, hk, r.fetch, Bool.not_true, Option.isSome_none, Bool.or_self, Bool.false_eq_true, if_false,
    Option.map_none, slotPick]
  rcases r.alike with hc | hc
  · simp only [hc, hp, id]
  · simp only [hc]
    cases hn : pairOf h.core with
    | none => simp only [hp, if_true, id]
    | some n =>
      have he := r.noEcho n hn
      have h1 : modCore h.core (fun k => { k with chk := some s.cores[h.core].arch }) s = s :=
        modCore_self _ _ _ (by cases hc' : s.cores[h.core]; simp_all)
      have h2 : modPair n (fun p => { p with log := [] }) s = s :=
        modPair_self _ _ _ (by cases hc' : s.pairs[n]; simp_all)
      simp only [he.1, replay, h1, h2, hp, Bool.not_true, Bool.false_eq_true, if_false, if_true]

/-- In a ready slot a well-formed instruction does what it asks for. -/
theorem issueBy_ready {access i h body s} (r : Ready h s) (hw : isReserved i = false) :
    issueBy access i h (fun a => guardOn a h) body s =
      (match s.cores[h.core].chk, pairOf h.core with
        | some _, some n => brkCheck n
        | _, _ => id) (perform access h (BitVec.ofNat 32 ((encodeNerop i).getD 0)) (body s.cores[h.core].arch s) s) :=
  issueBy_issues r.toIssues (slotAct_plain r.noRpt r.noDelay r.guard hw)

/-- A pair without an Echo debugger passes no breakpoint. -/
theorem brkCheck_off {n : Fin 4} {s : State} (h : s.pairs[n].echo = false) : brkCheck n s = s := by
  unfold brkCheck; rw [h]; simp

/-- A change of a ready core's registers, given for its own registers, is the same in both copies. -/
theorem modArch_ready {h : Hdr} {s : State} {f g : Arch → Arch} (r : Issues h s) (e : f s.cores[h.core].arch = g s.cores[h.core].arch) :
    modArch h.core f s = modArch h.core g s := by
  unfold modArch modCore
  rcases r.alike with hc | hc <;> simp only [hc, Option.map_none, Option.map_some, e]

/-- The look at the breakpoints after a ready slot changes nothing. -/
theorem brk_tail {h : Hdr} {s s' : State} (r : Issues h s) (e : s'.pairs = s.pairs) :
    (match s.cores[h.core].chk, pairOf h.core with
      | some _, some n => brkCheck n
      | _, _ => id) s' = s' := by
  cases s.cores[h.core].chk with
  | none => rfl
  | some b =>
    cases hn : pairOf h.core with
    | none => rfl
    | some n => exact brkCheck_off (by rw [e]; exact (r.noEcho n hn).2)

/-- An instruction that asks for register effects only completes by them. -/
theorem yields_done {i : Instr} {h : Hdr} {body : Arch → State → Act} {f : Arch → Eff} {g : Arch → Arch}
    (he : ∀ s, exec i s = issue i h body s) (hw : isReserved i = false) (hb : ∀ s, Ready h s → body s.cores[h.core].arch s = .done (f s.cores[h.core].arch))
    (hq : ∀ a : Arch, a.opens = [] → a.rpt = none → a.delay = none → advance (slotEnd (f a) a) = ended (g a)) : Yields i h g := by
  intro s r
  rw [he, issue, issueBy_ready r hw, hb s r]
  have e : perform noAccess h (BitVec.ofNat 32 ((encodeNerop i).getD 0)) (.done (f s.cores[h.core].arch)) s
      = modArch h.core (fun a => ended (g a)) s := by
    simp only [perform, retire]
    exact (modArch_ready r.toIssues (g := fun _ => ended (g s.cores[h.core].arch)) (hq _ r.noOpens r.noRpt r.noDelay)).trans
      (modArch_ready r.toIssues rfl)
  rw [e]
  exact congrArg Host.Outcome.next (brk_tail r.toIssues (by rfl))

/-- The slot's end with one result at distance 1 for a g register. -/
theorem slotEnd_outG {a : Arch} {r : Reg} {v : Word} (h : a.opens = []) (h1 : a.rpt = none) (h2 : a.delay = none) :
    advance (slotEnd (outG r v 1) a) = ended (setG r v a) := by
  unfold advance slotEnd outG Arch.settle Arch.flags ended setG
  by_cases hr : r = 0 <;> simp [h, h1, h2, hr, Arch.put]

end Sys2Proof.Laws
end

