-- ==== Sys2Proof/Laws/State.lean ====
section
/-! SUPPORT. What each named update of the state leaves as it was, and what it writes: one rewrite rule per field, so that no proof unfolds a record
update. -/

namespace Sys2Proof.Laws
open Sys2Proof.Machine

/-- What `modCore` leaves as it was. -/
@[simp] theorem modCore_keeps (c : CoreId) (f : Core → Core) (s : State) :
    (modCore c f s).pending = s.pending ∧ (modCore c f s).cyc = s.cyc ∧ (modCore c f s).doms = s.doms ∧ (modCore c f s).pairs = s.pairs ∧
    (modCore c f s).mem = s.mem ∧ (modCore c f s).memRegs = s.memRegs ∧ (modCore c f s).memErrs = s.memErrs ∧ (modCore c f s).banks = s.banks ∧
    (modCore c f s).voter = s.voter ∧ (modCore c f s).solvers = s.solvers ∧ (modCore c f s).rmus = s.rmus ∧ (modCore c f s).ixl = s.ixl ∧
    (modCore c f s).conns = s.conns ∧ (modCore c f s).ring = s.ring ∧ (modCore c f s).rtm = s.rtm ∧ (modCore c f s).hsb = s.hsb ∧
    (modCore c f s).sync = s.sync ∧ (modCore c f s).fg = s.fg ∧ (modCore c f s).fgErr = s.fgErr ∧ (modCore c f s).mbx = s.mbx ∧
    (modCore c f s).update = s.update ∧ (modCore c f s).wdg = s.wdg ∧ (modCore c f s).cim = s.cim ∧ (modCore c f s).esc = s.esc ∧
    (modCore c f s).rtc = s.rtc ∧ (modCore c f s).ps = s.ps ∧ (modCore c f s).arch = s.arch ∧ (modCore c f s).boot = s.boot ∧
    (modCore c f s).power = s.power ∧ (modCore c f s).arb = s.arb ∧ (modCore c f s).fuses = s.fuses ∧ (modCore c f s).dbg = s.dbg ∧
    (modCore c f s).log = s.log ∧ (modCore c f s).bus = s.bus ∧ (modCore c f s).freeCtr = s.freeCtr := by
  refine ⟨rfl, rfl, rfl, rfl, rfl, rfl, rfl, rfl, rfl, rfl, rfl, rfl, rfl, rfl, rfl, rfl, rfl, rfl, rfl, rfl, rfl, rfl, rfl, rfl, rfl, rfl, rfl, rfl, rfl, rfl, rfl, rfl, rfl, rfl, rfl⟩

/-- What `modDom` leaves as it was. -/
@[simp] theorem modDom_keeps (d : DomId) (f : Dom → Dom) (s : State) :
    (modDom d f s).pending = s.pending ∧ (modDom d f s).cyc = s.cyc ∧ (modDom d f s).cores = s.cores ∧ (modDom d f s).pairs = s.pairs ∧
    (modDom d f s).mem = s.mem ∧ (modDom d f s).memRegs = s.memRegs ∧ (modDom d f s).memErrs = s.memErrs ∧ (modDom d f s).banks = s.banks ∧
    (modDom d f s).voter = s.voter ∧ (modDom d f s).solvers = s.solvers ∧ (modDom d f s).rmus = s.rmus ∧ (modDom d f s).ixl = s.ixl ∧
    (modDom d f s).conns = s.conns ∧ (modDom d f s).ring = s.ring ∧ (modDom d f s).rtm = s.rtm ∧ (modDom d f s).hsb = s.hsb ∧
    (modDom d f s).sync = s.sync ∧ (modDom d f s).fg = s.fg ∧ (modDom d f s).fgErr = s.fgErr ∧ (modDom d f s).mbx = s.mbx ∧
    (modDom d f s).update = s.update ∧ (modDom d f s).wdg = s.wdg ∧ (modDom d f s).cim = s.cim ∧ (modDom d f s).esc = s.esc ∧ (modDom d f s).rtc = s.rtc ∧
    (modDom d f s).ps = s.ps ∧ (modDom d f s).arch = s.arch ∧ (modDom d f s).boot = s.boot ∧ (modDom d f s).power = s.power ∧ (modDom d f s).arb = s.arb ∧
    (modDom d f s).fuses = s.fuses ∧ (modDom d f s).dbg = s.dbg ∧ (modDom d f s).log = s.log ∧ (modDom d f s).bus = s.bus ∧
    (modDom d f s).freeCtr = s.freeCtr := by
  refine ⟨rfl, rfl, rfl, rfl, rfl, rfl, rfl, rfl, rfl, rfl, rfl, rfl, rfl, rfl, rfl, rfl, rfl, rfl, rfl, rfl, rfl, rfl, rfl, rfl, rfl, rfl, rfl, rfl, rfl, rfl, rfl, rfl, rfl, rfl, rfl⟩

/-- What `modPair` leaves as it was. -/
@[simp] theorem modPair_keeps (n : Fin 4) (f : PairReg → PairReg) (s : State) :
    (modPair n f s).pending = s.pending ∧ (modPair n f s).cyc = s.cyc ∧ (modPair n f s).cores = s.cores ∧ (modPair n f s).doms = s.doms ∧
    (modPair n f s).mem = s.mem ∧ (modPair n f s).memRegs = s.memRegs ∧ (modPair n f s).memErrs = s.memErrs ∧ (modPair n f s).banks = s.banks ∧
    (modPair n f s).voter = s.voter ∧ (modPair n f s).solvers = s.solvers ∧ (modPair n f s).rmus = s.rmus ∧ (modPair n f s).ixl = s.ixl ∧
    (modPair n f s).conns = s.conns ∧ (modPair n f s).ring = s.ring ∧ (modPair n f s).rtm = s.rtm ∧ (modPair n f s).hsb = s.hsb ∧
    (modPair n f s).sync = s.sync ∧ (modPair n f s).fg = s.fg ∧ (modPair n f s).fgErr = s.fgErr ∧ (modPair n f s).mbx = s.mbx ∧
    (modPair n f s).update = s.update ∧ (modPair n f s).wdg = s.wdg ∧ (modPair n f s).cim = s.cim ∧ (modPair n f s).esc = s.esc ∧
    (modPair n f s).rtc = s.rtc ∧ (modPair n f s).ps = s.ps ∧ (modPair n f s).arch = s.arch ∧ (modPair n f s).boot = s.boot ∧
    (modPair n f s).power = s.power ∧ (modPair n f s).arb = s.arb ∧ (modPair n f s).fuses = s.fuses ∧ (modPair n f s).dbg = s.dbg ∧
    (modPair n f s).log = s.log ∧ (modPair n f s).bus = s.bus ∧ (modPair n f s).freeCtr = s.freeCtr := by
  refine ⟨rfl, rfl, rfl, rfl, rfl, rfl, rfl, rfl, rfl, rfl, rfl, rfl, rfl, rfl, rfl, rfl, rfl, rfl, rfl, rfl, rfl, rfl, rfl, rfl, rfl, rfl, rfl, rfl, rfl, rfl, rfl, rfl, rfl, rfl, rfl⟩

/-- What `modGroup` leaves as it was. -/
@[simp] theorem modGroup_keeps (g : Fin 2) (f : Group → Group) (s : State) :
    (modGroup g f s).pending = s.pending ∧ (modGroup g f s).cyc = s.cyc ∧ (modGroup g f s).cores = s.cores ∧ (modGroup g f s).doms = s.doms ∧
    (modGroup g f s).pairs = s.pairs ∧ (modGroup g f s).mem = s.mem ∧ (modGroup g f s).memRegs = s.memRegs ∧ (modGroup g f s).memErrs = s.memErrs ∧
    (modGroup g f s).banks = s.banks ∧ (modGroup g f s).solvers = s.solvers ∧ (modGroup g f s).rmus = s.rmus ∧ (modGroup g f s).ixl = s.ixl ∧
    (modGroup g f s).conns = s.conns ∧ (modGroup g f s).ring = s.ring ∧ (modGroup g f s).rtm = s.rtm ∧ (modGroup g f s).hsb = s.hsb ∧
    (modGroup g f s).sync = s.sync ∧ (modGroup g f s).fg = s.fg ∧ (modGroup g f s).fgErr = s.fgErr ∧ (modGroup g f s).mbx = s.mbx ∧
    (modGroup g f s).update = s.update ∧ (modGroup g f s).wdg = s.wdg ∧ (modGroup g f s).cim = s.cim ∧ (modGroup g f s).esc = s.esc ∧
    (modGroup g f s).rtc = s.rtc ∧ (modGroup g f s).ps = s.ps ∧ (modGroup g f s).arch = s.arch ∧ (modGroup g f s).boot = s.boot ∧
    (modGroup g f s).power = s.power ∧ (modGroup g f s).arb = s.arb ∧ (modGroup g f s).fuses = s.fuses ∧ (modGroup g f s).dbg = s.dbg ∧
    (modGroup g f s).log = s.log ∧ (modGroup g f s).bus = s.bus ∧ (modGroup g f s).freeCtr = s.freeCtr := by
  refine ⟨rfl, rfl, rfl, rfl, rfl, rfl, rfl, rfl, rfl, rfl, rfl, rfl, rfl, rfl, rfl, rfl, rfl, rfl, rfl, rfl, rfl, rfl, rfl, rfl, rfl, rfl, rfl, rfl, rfl, rfl, rfl, rfl, rfl, rfl, rfl⟩

/-- What `modLane` leaves as it was. -/
@[simp] theorem modLane_keeps (l : Fin 3) (f : Lane → Lane) (s : State) :
    (modLane l f s).pending = s.pending ∧ (modLane l f s).cyc = s.cyc ∧ (modLane l f s).cores = s.cores ∧ (modLane l f s).doms = s.doms ∧
    (modLane l f s).pairs = s.pairs ∧ (modLane l f s).mem = s.mem ∧ (modLane l f s).memRegs = s.memRegs ∧ (modLane l f s).memErrs = s.memErrs ∧
    (modLane l f s).banks = s.banks ∧ (modLane l f s).solvers = s.solvers ∧ (modLane l f s).rmus = s.rmus ∧ (modLane l f s).ixl = s.ixl ∧
    (modLane l f s).conns = s.conns ∧ (modLane l f s).ring = s.ring ∧ (modLane l f s).rtm = s.rtm ∧ (modLane l f s).hsb = s.hsb ∧
    (modLane l f s).sync = s.sync ∧ (modLane l f s).fg = s.fg ∧ (modLane l f s).fgErr = s.fgErr ∧ (modLane l f s).mbx = s.mbx ∧
    (modLane l f s).update = s.update ∧ (modLane l f s).wdg = s.wdg ∧ (modLane l f s).cim = s.cim ∧ (modLane l f s).esc = s.esc ∧
    (modLane l f s).rtc = s.rtc ∧ (modLane l f s).ps = s.ps ∧ (modLane l f s).arch = s.arch ∧ (modLane l f s).boot = s.boot ∧
    (modLane l f s).power = s.power ∧ (modLane l f s).arb = s.arb ∧ (modLane l f s).fuses = s.fuses ∧ (modLane l f s).dbg = s.dbg ∧
    (modLane l f s).log = s.log ∧ (modLane l f s).bus = s.bus ∧ (modLane l f s).freeCtr = s.freeCtr := by
  refine ⟨rfl, rfl, rfl, rfl, rfl, rfl, rfl, rfl, rfl, rfl, rfl, rfl, rfl, rfl, rfl, rfl, rfl, rfl, rfl, rfl, rfl, rfl, rfl, rfl, rfl, rfl, rfl, rfl, rfl, rfl, rfl, rfl, rfl, rfl, rfl⟩

/-- What `modReint` leaves as it was. -/
@[simp] theorem modReint_keeps (f : Reint → Reint) (s : State) :
    (modReint f s).pending = s.pending ∧ (modReint f s).cyc = s.cyc ∧ (modReint f s).cores = s.cores ∧ (modReint f s).doms = s.doms ∧
    (modReint f s).pairs = s.pairs ∧ (modReint f s).mem = s.mem ∧ (modReint f s).memRegs = s.memRegs ∧ (modReint f s).memErrs = s.memErrs ∧
    (modReint f s).banks = s.banks ∧ (modReint f s).solvers = s.solvers ∧ (modReint f s).rmus = s.rmus ∧ (modReint f s).ixl = s.ixl ∧
    (modReint f s).conns = s.conns ∧ (modReint f s).ring = s.ring ∧ (modReint f s).rtm = s.rtm ∧ (modReint f s).hsb = s.hsb ∧
    (modReint f s).sync = s.sync ∧ (modReint f s).fg = s.fg ∧ (modReint f s).fgErr = s.fgErr ∧ (modReint f s).mbx = s.mbx ∧
    (modReint f s).update = s.update ∧ (modReint f s).wdg = s.wdg ∧ (modReint f s).cim = s.cim ∧ (modReint f s).esc = s.esc ∧ (modReint f s).rtc = s.rtc ∧
    (modReint f s).ps = s.ps ∧ (modReint f s).arch = s.arch ∧ (modReint f s).boot = s.boot ∧ (modReint f s).power = s.power ∧ (modReint f s).arb = s.arb ∧
    (modReint f s).fuses = s.fuses ∧ (modReint f s).dbg = s.dbg ∧ (modReint f s).log = s.log ∧ (modReint f s).bus = s.bus ∧
    (modReint f s).freeCtr = s.freeCtr := by
  refine ⟨rfl, rfl, rfl, rfl, rfl, rfl, rfl, rfl, rfl, rfl, rfl, rfl, rfl, rfl, rfl, rfl, rfl, rfl, rfl, rfl, rfl, rfl, rfl, rfl, rfl, rfl, rfl, rfl, rfl, rfl, rfl, rfl, rfl, rfl, rfl⟩

/-- What `modSolver` leaves as it was. -/
@[simp] theorem modSolver_keeps (i : Fin 5) (f : Solver → Solver) (s : State) :
    (modSolver i f s).pending = s.pending ∧ (modSolver i f s).cyc = s.cyc ∧ (modSolver i f s).cores = s.cores ∧ (modSolver i f s).doms = s.doms ∧
    (modSolver i f s).pairs = s.pairs ∧ (modSolver i f s).mem = s.mem ∧ (modSolver i f s).memRegs = s.memRegs ∧ (modSolver i f s).memErrs = s.memErrs ∧
    (modSolver i f s).banks = s.banks ∧ (modSolver i f s).voter = s.voter ∧ (modSolver i f s).rmus = s.rmus ∧ (modSolver i f s).ixl = s.ixl ∧
    (modSolver i f s).conns = s.conns ∧ (modSolver i f s).ring = s.ring ∧ (modSolver i f s).rtm = s.rtm ∧ (modSolver i f s).hsb = s.hsb ∧
    (modSolver i f s).sync = s.sync ∧ (modSolver i f s).fg = s.fg ∧ (modSolver i f s).fgErr = s.fgErr ∧ (modSolver i f s).mbx = s.mbx ∧
    (modSolver i f s).update = s.update ∧ (modSolver i f s).wdg = s.wdg ∧ (modSolver i f s).cim = s.cim ∧ (modSolver i f s).esc = s.esc ∧
    (modSolver i f s).rtc = s.rtc ∧ (modSolver i f s).ps = s.ps ∧ (modSolver i f s).arch = s.arch ∧ (modSolver i f s).boot = s.boot ∧
    (modSolver i f s).power = s.power ∧ (modSolver i f s).arb = s.arb ∧ (modSolver i f s).fuses = s.fuses ∧ (modSolver i f s).dbg = s.dbg ∧
    (modSolver i f s).log = s.log ∧ (modSolver i f s).bus = s.bus ∧ (modSolver i f s).freeCtr = s.freeCtr := by
  refine ⟨rfl, rfl, rfl, rfl, rfl, rfl, rfl, rfl, rfl, rfl, rfl, rfl, rfl, rfl, rfl, rfl, rfl, rfl, rfl, rfl, rfl, rfl, rfl, rfl, rfl, rfl, rfl, rfl, rfl, rfl, rfl, rfl, rfl, rfl, rfl⟩

/-- What `modQueue` leaves as it was. -/
@[simp] theorem modQueue_keeps (i : Fin 5) (k : Fin 2) (f : LsQueue → LsQueue) (s : State) :
    (modQueue i k f s).pending = s.pending ∧ (modQueue i k f s).cyc = s.cyc ∧ (modQueue i k f s).cores = s.cores ∧ (modQueue i k f s).doms = s.doms ∧
    (modQueue i k f s).pairs = s.pairs ∧ (modQueue i k f s).mem = s.mem ∧ (modQueue i k f s).memRegs = s.memRegs ∧ (modQueue i k f s).memErrs = s.memErrs ∧
    (modQueue i k f s).banks = s.banks ∧ (modQueue i k f s).voter = s.voter ∧ (modQueue i k f s).rmus = s.rmus ∧ (modQueue i k f s).ixl = s.ixl ∧
    (modQueue i k f s).conns = s.conns ∧ (modQueue i k f s).ring = s.ring ∧ (modQueue i k f s).rtm = s.rtm ∧ (modQueue i k f s).hsb = s.hsb ∧
    (modQueue i k f s).sync = s.sync ∧ (modQueue i k f s).fg = s.fg ∧ (modQueue i k f s).fgErr = s.fgErr ∧ (modQueue i k f s).mbx = s.mbx ∧
    (modQueue i k f s).update = s.update ∧ (modQueue i k f s).wdg = s.wdg ∧ (modQueue i k f s).cim = s.cim ∧ (modQueue i k f s).esc = s.esc ∧
    (modQueue i k f s).rtc = s.rtc ∧ (modQueue i k f s).ps = s.ps ∧ (modQueue i k f s).arch = s.arch ∧ (modQueue i k f s).boot = s.boot ∧
    (modQueue i k f s).power = s.power ∧ (modQueue i k f s).arb = s.arb ∧ (modQueue i k f s).fuses = s.fuses ∧ (modQueue i k f s).dbg = s.dbg ∧
    (modQueue i k f s).log = s.log ∧ (modQueue i k f s).bus = s.bus ∧ (modQueue i k f s).freeCtr = s.freeCtr := by
  refine ⟨rfl, rfl, rfl, rfl, rfl, rfl, rfl, rfl, rfl, rfl, rfl, rfl, rfl, rfl, rfl, rfl, rfl, rfl, rfl, rfl, rfl, rfl, rfl, rfl, rfl, rfl, rfl, rfl, rfl, rfl, rfl, rfl, rfl, rfl, rfl⟩

/-- What `modFg` leaves as it was. -/
@[simp] theorem modFg_keeps (g : GroupId) (f : Fg → Fg) (s : State) :
    (modFg g f s).pending = s.pending ∧ (modFg g f s).cyc = s.cyc ∧ (modFg g f s).cores = s.cores ∧ (modFg g f s).doms = s.doms ∧
    (modFg g f s).pairs = s.pairs ∧ (modFg g f s).mem = s.mem ∧ (modFg g f s).memRegs = s.memRegs ∧ (modFg g f s).memErrs = s.memErrs ∧
    (modFg g f s).banks = s.banks ∧ (modFg g f s).voter = s.voter ∧ (modFg g f s).solvers = s.solvers ∧ (modFg g f s).rmus = s.rmus ∧
    (modFg g f s).ixl = s.ixl ∧ (modFg g f s).conns = s.conns ∧ (modFg g f s).ring = s.ring ∧ (modFg g f s).rtm = s.rtm ∧ (modFg g f s).hsb = s.hsb ∧
    (modFg g f s).sync = s.sync ∧ (modFg g f s).fgErr = s.fgErr ∧ (modFg g f s).mbx = s.mbx ∧ (modFg g f s).update = s.update ∧ (modFg g f s).wdg = s.wdg ∧
    (modFg g f s).cim = s.cim ∧ (modFg g f s).esc = s.esc ∧ (modFg g f s).rtc = s.rtc ∧ (modFg g f s).ps = s.ps ∧ (modFg g f s).arch = s.arch ∧
    (modFg g f s).boot = s.boot ∧ (modFg g f s).power = s.power ∧ (modFg g f s).arb = s.arb ∧ (modFg g f s).fuses = s.fuses ∧ (modFg g f s).dbg = s.dbg ∧
    (modFg g f s).log = s.log ∧ (modFg g f s).bus = s.bus ∧ (modFg g f s).freeCtr = s.freeCtr := by
  refine ⟨rfl, rfl, rfl, rfl, rfl, rfl, rfl, rfl, rfl, rfl, rfl, rfl, rfl, rfl, rfl, rfl, rfl, rfl, rfl, rfl, rfl, rfl, rfl, rfl, rfl, rfl, rfl, rfl, rfl, rfl, rfl, rfl, rfl, rfl, rfl⟩

/-- What `modCh` leaves as it was. -/
@[simp] theorem modCh_keeps (g : GroupId) (c : Fin 8) (f : FgCh → FgCh) (s : State) :
    (modCh g c f s).pending = s.pending ∧ (modCh g c f s).cyc = s.cyc ∧ (modCh g c f s).cores = s.cores ∧ (modCh g c f s).doms = s.doms ∧
    (modCh g c f s).pairs = s.pairs ∧ (modCh g c f s).mem = s.mem ∧ (modCh g c f s).memRegs = s.memRegs ∧ (modCh g c f s).memErrs = s.memErrs ∧
    (modCh g c f s).banks = s.banks ∧ (modCh g c f s).voter = s.voter ∧ (modCh g c f s).solvers = s.solvers ∧ (modCh g c f s).rmus = s.rmus ∧
    (modCh g c f s).ixl = s.ixl ∧ (modCh g c f s).conns = s.conns ∧ (modCh g c f s).ring = s.ring ∧ (modCh g c f s).rtm = s.rtm ∧
    (modCh g c f s).hsb = s.hsb ∧ (modCh g c f s).sync = s.sync ∧ (modCh g c f s).fgErr = s.fgErr ∧ (modCh g c f s).mbx = s.mbx ∧
    (modCh g c f s).update = s.update ∧ (modCh g c f s).wdg = s.wdg ∧ (modCh g c f s).cim = s.cim ∧ (modCh g c f s).esc = s.esc ∧
    (modCh g c f s).rtc = s.rtc ∧ (modCh g c f s).ps = s.ps ∧ (modCh g c f s).arch = s.arch ∧ (modCh g c f s).boot = s.boot ∧
    (modCh g c f s).power = s.power ∧ (modCh g c f s).arb = s.arb ∧ (modCh g c f s).fuses = s.fuses ∧ (modCh g c f s).dbg = s.dbg ∧
    (modCh g c f s).log = s.log ∧ (modCh g c f s).bus = s.bus ∧ (modCh g c f s).freeCtr = s.freeCtr := by
  refine ⟨rfl, rfl, rfl, rfl, rfl, rfl, rfl, rfl, rfl, rfl, rfl, rfl, rfl, rfl, rfl, rfl, rfl, rfl, rfl, rfl, rfl, rfl, rfl, rfl, rfl, rfl, rfl, rfl, rfl, rfl, rfl, rfl, rfl, rfl, rfl⟩

/-- What `modWdg` leaves as it was. -/
@[simp] theorem modWdg_keeps (u : Fin 8) (f : Wdg → Wdg) (s : State) :
    (modWdg u f s).pending = s.pending ∧ (modWdg u f s).cyc = s.cyc ∧ (modWdg u f s).cores = s.cores ∧ (modWdg u f s).doms = s.doms ∧
    (modWdg u f s).pairs = s.pairs ∧ (modWdg u f s).mem = s.mem ∧ (modWdg u f s).memRegs = s.memRegs ∧ (modWdg u f s).memErrs = s.memErrs ∧
    (modWdg u f s).banks = s.banks ∧ (modWdg u f s).voter = s.voter ∧ (modWdg u f s).solvers = s.solvers ∧ (modWdg u f s).rmus = s.rmus ∧
    (modWdg u f s).ixl = s.ixl ∧ (modWdg u f s).conns = s.conns ∧ (modWdg u f s).ring = s.ring ∧ (modWdg u f s).rtm = s.rtm ∧ (modWdg u f s).hsb = s.hsb ∧
    (modWdg u f s).sync = s.sync ∧ (modWdg u f s).fg = s.fg ∧ (modWdg u f s).fgErr = s.fgErr ∧ (modWdg u f s).mbx = s.mbx ∧
    (modWdg u f s).update = s.update ∧ (modWdg u f s).cim = s.cim ∧ (modWdg u f s).esc = s.esc ∧ (modWdg u f s).rtc = s.rtc ∧ (modWdg u f s).ps = s.ps ∧
    (modWdg u f s).arch = s.arch ∧ (modWdg u f s).boot = s.boot ∧ (modWdg u f s).power = s.power ∧ (modWdg u f s).arb = s.arb ∧
    (modWdg u f s).fuses = s.fuses ∧ (modWdg u f s).dbg = s.dbg ∧ (modWdg u f s).log = s.log ∧ (modWdg u f s).bus = s.bus ∧
    (modWdg u f s).freeCtr = s.freeCtr := by
  refine ⟨rfl, rfl, rfl, rfl, rfl, rfl, rfl, rfl, rfl, rfl, rfl, rfl, rfl, rfl, rfl, rfl, rfl, rfl, rfl, rfl, rfl, rfl, rfl, rfl, rfl, rfl, rfl, rfl, rfl, rfl, rfl, rfl, rfl, rfl, rfl⟩

/-- What `modCim` leaves as it was. -/
@[simp] theorem modCim_keeps (d : DomId) (f : Cim → Cim) (s : State) :
    (modCim d f s).pending = s.pending ∧ (modCim d f s).cyc = s.cyc ∧ (modCim d f s).cores = s.cores ∧ (modCim d f s).doms = s.doms ∧
    (modCim d f s).pairs = s.pairs ∧ (modCim d f s).mem = s.mem ∧ (modCim d f s).memRegs = s.memRegs ∧ (modCim d f s).memErrs = s.memErrs ∧
    (modCim d f s).banks = s.banks ∧ (modCim d f s).voter = s.voter ∧ (modCim d f s).solvers = s.solvers ∧ (modCim d f s).rmus = s.rmus ∧
    (modCim d f s).ixl = s.ixl ∧ (modCim d f s).conns = s.conns ∧ (modCim d f s).ring = s.ring ∧ (modCim d f s).rtm = s.rtm ∧ (modCim d f s).hsb = s.hsb ∧
    (modCim d f s).sync = s.sync ∧ (modCim d f s).fg = s.fg ∧ (modCim d f s).fgErr = s.fgErr ∧ (modCim d f s).mbx = s.mbx ∧
    (modCim d f s).update = s.update ∧ (modCim d f s).wdg = s.wdg ∧ (modCim d f s).esc = s.esc ∧ (modCim d f s).rtc = s.rtc ∧ (modCim d f s).ps = s.ps ∧
    (modCim d f s).arch = s.arch ∧ (modCim d f s).boot = s.boot ∧ (modCim d f s).power = s.power ∧ (modCim d f s).arb = s.arb ∧
    (modCim d f s).fuses = s.fuses ∧ (modCim d f s).dbg = s.dbg ∧ (modCim d f s).log = s.log ∧ (modCim d f s).bus = s.bus ∧
    (modCim d f s).freeCtr = s.freeCtr := by
  refine ⟨rfl, rfl, rfl, rfl, rfl, rfl, rfl, rfl, rfl, rfl, rfl, rfl, rfl, rfl, rfl, rfl, rfl, rfl, rfl, rfl, rfl, rfl, rfl, rfl, rfl, rfl, rfl, rfl, rfl, rfl, rfl, rfl, rfl, rfl, rfl⟩

/-- What `modArch` leaves as it was. -/
@[simp] theorem modArch_keeps (c : CoreId) (f : Arch → Arch) (s : State) :
    (modArch c f s).pending = s.pending ∧ (modArch c f s).cyc = s.cyc ∧ (modArch c f s).doms = s.doms ∧ (modArch c f s).pairs = s.pairs ∧
    (modArch c f s).mem = s.mem ∧ (modArch c f s).memRegs = s.memRegs ∧ (modArch c f s).memErrs = s.memErrs ∧ (modArch c f s).banks = s.banks ∧
    (modArch c f s).voter = s.voter ∧ (modArch c f s).solvers = s.solvers ∧ (modArch c f s).rmus = s.rmus ∧ (modArch c f s).ixl = s.ixl ∧
    (modArch c f s).conns = s.conns ∧ (modArch c f s).ring = s.ring ∧ (modArch c f s).rtm = s.rtm ∧ (modArch c f s).hsb = s.hsb ∧
    (modArch c f s).sync = s.sync ∧ (modArch c f s).fg = s.fg ∧ (modArch c f s).fgErr = s.fgErr ∧ (modArch c f s).mbx = s.mbx ∧
    (modArch c f s).update = s.update ∧ (modArch c f s).wdg = s.wdg ∧ (modArch c f s).cim = s.cim ∧ (modArch c f s).esc = s.esc ∧
    (modArch c f s).rtc = s.rtc ∧ (modArch c f s).ps = s.ps ∧ (modArch c f s).arch = s.arch ∧ (modArch c f s).boot = s.boot ∧
    (modArch c f s).power = s.power ∧ (modArch c f s).arb = s.arb ∧ (modArch c f s).fuses = s.fuses ∧ (modArch c f s).dbg = s.dbg ∧
    (modArch c f s).log = s.log ∧ (modArch c f s).bus = s.bus ∧ (modArch c f s).freeCtr = s.freeCtr := by
  refine ⟨rfl, rfl, rfl, rfl, rfl, rfl, rfl, rfl, rfl, rfl, rfl, rfl, rfl, rfl, rfl, rfl, rfl, rfl, rfl, rfl, rfl, rfl, rfl, rfl, rfl, rfl, rfl, rfl, rfl, rfl, rfl, rfl, rfl, rfl, rfl⟩

/-- What `setPd` leaves as it was. -/
@[simp] theorem setPd_keeps (p : Pd) (b : Bool) (s : State) :
    (setPd p b s).pending = s.pending ∧ (setPd p b s).cyc = s.cyc ∧ (setPd p b s).cores = s.cores ∧ (setPd p b s).doms = s.doms ∧
    (setPd p b s).pairs = s.pairs ∧ (setPd p b s).mem = s.mem ∧ (setPd p b s).memRegs = s.memRegs ∧ (setPd p b s).memErrs = s.memErrs ∧
    (setPd p b s).banks = s.banks ∧ (setPd p b s).voter = s.voter ∧ (setPd p b s).solvers = s.solvers ∧ (setPd p b s).rmus = s.rmus ∧
    (setPd p b s).ixl = s.ixl ∧ (setPd p b s).conns = s.conns ∧ (setPd p b s).ring = s.ring ∧ (setPd p b s).rtm = s.rtm ∧ (setPd p b s).hsb = s.hsb ∧
    (setPd p b s).sync = s.sync ∧ (setPd p b s).fg = s.fg ∧ (setPd p b s).fgErr = s.fgErr ∧ (setPd p b s).mbx = s.mbx ∧ (setPd p b s).update = s.update ∧
    (setPd p b s).wdg = s.wdg ∧ (setPd p b s).cim = s.cim ∧ (setPd p b s).esc = s.esc ∧ (setPd p b s).rtc = s.rtc ∧ (setPd p b s).ps = s.ps ∧
    (setPd p b s).arch = s.arch ∧ (setPd p b s).power = s.power ∧ (setPd p b s).arb = s.arb ∧ (setPd p b s).fuses = s.fuses ∧ (setPd p b s).dbg = s.dbg ∧
    (setPd p b s).log = s.log ∧ (setPd p b s).bus = s.bus ∧ (setPd p b s).freeCtr = s.freeCtr := by
  refine ⟨rfl, rfl, rfl, rfl, rfl, rfl, rfl, rfl, rfl, rfl, rfl, rfl, rfl, rfl, rfl, rfl, rfl, rfl, rfl, rfl, rfl, rfl, rfl, rfl, rfl, rfl, rfl, rfl, rfl, rfl, rfl, rfl, rfl, rfl, rfl⟩

/-- What `addLog` leaves as it was. -/
@[simp] theorem addLog_keeps (k : LogKind) (a b : Nat) (s : State) :
    (addLog k a b s).pending = s.pending ∧ (addLog k a b s).cyc = s.cyc ∧ (addLog k a b s).cores = s.cores ∧ (addLog k a b s).doms = s.doms ∧
    (addLog k a b s).pairs = s.pairs ∧ (addLog k a b s).mem = s.mem ∧ (addLog k a b s).memRegs = s.memRegs ∧ (addLog k a b s).memErrs = s.memErrs ∧
    (addLog k a b s).banks = s.banks ∧ (addLog k a b s).voter = s.voter ∧ (addLog k a b s).solvers = s.solvers ∧ (addLog k a b s).rmus = s.rmus ∧
    (addLog k a b s).ixl = s.ixl ∧ (addLog k a b s).conns = s.conns ∧ (addLog k a b s).ring = s.ring ∧ (addLog k a b s).rtm = s.rtm ∧
    (addLog k a b s).hsb = s.hsb ∧ (addLog k a b s).sync = s.sync ∧ (addLog k a b s).fg = s.fg ∧ (addLog k a b s).fgErr = s.fgErr ∧
    (addLog k a b s).mbx = s.mbx ∧ (addLog k a b s).update = s.update ∧ (addLog k a b s).wdg = s.wdg ∧ (addLog k a b s).cim = s.cim ∧
    (addLog k a b s).esc = s.esc ∧ (addLog k a b s).rtc = s.rtc ∧ (addLog k a b s).ps = s.ps ∧ (addLog k a b s).arch = s.arch ∧
    (addLog k a b s).boot = s.boot ∧ (addLog k a b s).power = s.power ∧ (addLog k a b s).arb = s.arb ∧ (addLog k a b s).fuses = s.fuses ∧
    (addLog k a b s).dbg = s.dbg ∧ (addLog k a b s).bus = s.bus ∧ (addLog k a b s).freeCtr = s.freeCtr := by
  refine ⟨rfl, rfl, rfl, rfl, rfl, rfl, rfl, rfl, rfl, rfl, rfl, rfl, rfl, rfl, rfl, rfl, rfl, rfl, rfl, rfl, rfl, rfl, rfl, rfl, rfl, rfl, rfl, rfl, rfl, rfl, rfl, rfl, rfl, rfl, rfl⟩

/-- What `raiseIrq` leaves as it was. -/
@[simp] theorem raiseIrq_keeps (c : CoreId) (bit : Fin 7) (s : State) :
    (raiseIrq c bit s).pending = s.pending ∧ (raiseIrq c bit s).cyc = s.cyc ∧ (raiseIrq c bit s).doms = s.doms ∧ (raiseIrq c bit s).pairs = s.pairs ∧
    (raiseIrq c bit s).mem = s.mem ∧ (raiseIrq c bit s).memRegs = s.memRegs ∧ (raiseIrq c bit s).memErrs = s.memErrs ∧ (raiseIrq c bit s).banks = s.banks ∧
    (raiseIrq c bit s).voter = s.voter ∧ (raiseIrq c bit s).solvers = s.solvers ∧ (raiseIrq c bit s).rmus = s.rmus ∧ (raiseIrq c bit s).ixl = s.ixl ∧
    (raiseIrq c bit s).conns = s.conns ∧ (raiseIrq c bit s).ring = s.ring ∧ (raiseIrq c bit s).rtm = s.rtm ∧ (raiseIrq c bit s).hsb = s.hsb ∧
    (raiseIrq c bit s).sync = s.sync ∧ (raiseIrq c bit s).fg = s.fg ∧ (raiseIrq c bit s).fgErr = s.fgErr ∧ (raiseIrq c bit s).mbx = s.mbx ∧
    (raiseIrq c bit s).update = s.update ∧ (raiseIrq c bit s).wdg = s.wdg ∧ (raiseIrq c bit s).cim = s.cim ∧ (raiseIrq c bit s).esc = s.esc ∧
    (raiseIrq c bit s).rtc = s.rtc ∧ (raiseIrq c bit s).ps = s.ps ∧ (raiseIrq c bit s).arch = s.arch ∧ (raiseIrq c bit s).boot = s.boot ∧
    (raiseIrq c bit s).power = s.power ∧ (raiseIrq c bit s).arb = s.arb ∧ (raiseIrq c bit s).fuses = s.fuses ∧ (raiseIrq c bit s).dbg = s.dbg ∧
    (raiseIrq c bit s).log = s.log ∧ (raiseIrq c bit s).bus = s.bus ∧ (raiseIrq c bit s).freeCtr = s.freeCtr := by
  refine ⟨rfl, rfl, rfl, rfl, rfl, rfl, rfl, rfl, rfl, rfl, rfl, rfl, rfl, rfl, rfl, rfl, rfl, rfl, rfl, rfl, rfl, rfl, rfl, rfl, rfl, rfl, rfl, rfl, rfl, rfl, rfl, rfl, rfl, rfl, rfl⟩

/-- What `answer` leaves as it was. -/
@[simp] theorem answer_keeps (r : Resp) (v : Word) (s : State) :
    (answer r v s).pending = s.pending ∧ (answer r v s).cyc = s.cyc ∧ (answer r v s).cores = s.cores ∧ (answer r v s).doms = s.doms ∧
    (answer r v s).pairs = s.pairs ∧ (answer r v s).mem = s.mem ∧ (answer r v s).memRegs = s.memRegs ∧ (answer r v s).memErrs = s.memErrs ∧
    (answer r v s).banks = s.banks ∧ (answer r v s).voter = s.voter ∧ (answer r v s).solvers = s.solvers ∧ (answer r v s).rmus = s.rmus ∧
    (answer r v s).ixl = s.ixl ∧ (answer r v s).conns = s.conns ∧ (answer r v s).ring = s.ring ∧ (answer r v s).rtm = s.rtm ∧ (answer r v s).hsb = s.hsb ∧
    (answer r v s).sync = s.sync ∧ (answer r v s).fg = s.fg ∧ (answer r v s).fgErr = s.fgErr ∧ (answer r v s).mbx = s.mbx ∧
    (answer r v s).update = s.update ∧ (answer r v s).wdg = s.wdg ∧ (answer r v s).cim = s.cim ∧ (answer r v s).esc = s.esc ∧ (answer r v s).rtc = s.rtc ∧
    (answer r v s).ps = s.ps ∧ (answer r v s).arch = s.arch ∧ (answer r v s).boot = s.boot ∧ (answer r v s).power = s.power ∧ (answer r v s).arb = s.arb ∧
    (answer r v s).fuses = s.fuses ∧ (answer r v s).dbg = s.dbg ∧ (answer r v s).log = s.log ∧ (answer r v s).freeCtr = s.freeCtr := by
  refine ⟨rfl, rfl, rfl, rfl, rfl, rfl, rfl, rfl, rfl, rfl, rfl, rfl, rfl, rfl, rfl, rfl, rfl, rfl, rfl, rfl, rfl, rfl, rfl, rfl, rfl, rfl, rfl, rfl, rfl, rfl, rfl, rfl, rfl, rfl, rfl⟩

/-- What `tick` leaves as it was. -/
@[simp] theorem tick_keeps (s : State) :
    (tick s).pending = s.pending ∧ (tick s).cores = s.cores ∧ (tick s).doms = s.doms ∧ (tick s).pairs = s.pairs ∧ (tick s).mem = s.mem ∧
    (tick s).memRegs = s.memRegs ∧ (tick s).memErrs = s.memErrs ∧ (tick s).banks = s.banks ∧ (tick s).voter = s.voter ∧ (tick s).solvers = s.solvers ∧
    (tick s).rmus = s.rmus ∧ (tick s).ixl = s.ixl ∧ (tick s).conns = s.conns ∧ (tick s).ring = s.ring ∧ (tick s).rtm = s.rtm ∧ (tick s).hsb = s.hsb ∧
    (tick s).sync = s.sync ∧ (tick s).fg = s.fg ∧ (tick s).fgErr = s.fgErr ∧ (tick s).mbx = s.mbx ∧ (tick s).update = s.update ∧ (tick s).wdg = s.wdg ∧
    (tick s).cim = s.cim ∧ (tick s).esc = s.esc ∧ (tick s).ps = s.ps ∧ (tick s).arch = s.arch ∧ (tick s).boot = s.boot ∧ (tick s).power = s.power ∧
    (tick s).arb = s.arb ∧ (tick s).fuses = s.fuses ∧ (tick s).dbg = s.dbg ∧ (tick s).log = s.log ∧ (tick s).bus = s.bus ∧ (tick s).freeCtr = s.freeCtr := by
  refine ⟨rfl, rfl, rfl, rfl, rfl, rfl, rfl, rfl, rfl, rfl, rfl, rfl, rfl, rfl, rfl, rfl, rfl, rfl, rfl, rfl, rfl, rfl, rfl, rfl, rfl, rfl, rfl, rfl, rfl, rfl, rfl, rfl, rfl, rfl⟩

/-- What `modIxl` leaves as it was. -/
@[simp] theorem modIxl_keeps (l : Fin 3) (f : Ixl → Ixl) (s : State) :
    (modIxl l f s).pending = s.pending ∧ (modIxl l f s).cyc = s.cyc ∧ (modIxl l f s).cores = s.cores ∧ (modIxl l f s).doms = s.doms ∧
    (modIxl l f s).pairs = s.pairs ∧ (modIxl l f s).mem = s.mem ∧ (modIxl l f s).memRegs = s.memRegs ∧ (modIxl l f s).memErrs = s.memErrs ∧
    (modIxl l f s).banks = s.banks ∧ (modIxl l f s).voter = s.voter ∧ (modIxl l f s).solvers = s.solvers ∧ (modIxl l f s).rmus = s.rmus ∧
    (modIxl l f s).conns = s.conns ∧ (modIxl l f s).ring = s.ring ∧ (modIxl l f s).rtm = s.rtm ∧ (modIxl l f s).hsb = s.hsb ∧
    (modIxl l f s).sync = s.sync ∧ (modIxl l f s).fg = s.fg ∧ (modIxl l f s).fgErr = s.fgErr ∧ (modIxl l f s).mbx = s.mbx ∧
    (modIxl l f s).update = s.update ∧ (modIxl l f s).wdg = s.wdg ∧ (modIxl l f s).cim = s.cim ∧ (modIxl l f s).esc = s.esc ∧ (modIxl l f s).rtc = s.rtc ∧
    (modIxl l f s).ps = s.ps ∧ (modIxl l f s).arch = s.arch ∧ (modIxl l f s).boot = s.boot ∧ (modIxl l f s).power = s.power ∧ (modIxl l f s).arb = s.arb ∧
    (modIxl l f s).fuses = s.fuses ∧ (modIxl l f s).dbg = s.dbg ∧ (modIxl l f s).log = s.log ∧ (modIxl l f s).bus = s.bus ∧
    (modIxl l f s).freeCtr = s.freeCtr := by
  refine ⟨rfl, rfl, rfl, rfl, rfl, rfl, rfl, rfl, rfl, rfl, rfl, rfl, rfl, rfl, rfl, rfl, rfl, rfl, rfl, rfl, rfl, rfl, rfl, rfl, rfl, rfl, rfl, rfl, rfl, rfl, rfl, rfl, rfl, rfl, rfl⟩

/-- What `modRoute` leaves as it was. -/
@[simp] theorem modRoute_keeps (l : Fin 3) (r : Nat) (f : RouteSt → RouteSt) (s : State) :
    (modRoute l r f s).pending = s.pending ∧ (modRoute l r f s).cyc = s.cyc ∧ (modRoute l r f s).cores = s.cores ∧ (modRoute l r f s).doms = s.doms ∧
    (modRoute l r f s).pairs = s.pairs ∧ (modRoute l r f s).mem = s.mem ∧ (modRoute l r f s).memRegs = s.memRegs ∧ (modRoute l r f s).memErrs = s.memErrs ∧
    (modRoute l r f s).banks = s.banks ∧ (modRoute l r f s).voter = s.voter ∧ (modRoute l r f s).solvers = s.solvers ∧ (modRoute l r f s).rmus = s.rmus ∧
    (modRoute l r f s).conns = s.conns ∧ (modRoute l r f s).ring = s.ring ∧ (modRoute l r f s).rtm = s.rtm ∧ (modRoute l r f s).hsb = s.hsb ∧
    (modRoute l r f s).sync = s.sync ∧ (modRoute l r f s).fg = s.fg ∧ (modRoute l r f s).fgErr = s.fgErr ∧ (modRoute l r f s).mbx = s.mbx ∧
    (modRoute l r f s).update = s.update ∧ (modRoute l r f s).wdg = s.wdg ∧ (modRoute l r f s).cim = s.cim ∧ (modRoute l r f s).esc = s.esc ∧
    (modRoute l r f s).rtc = s.rtc ∧ (modRoute l r f s).ps = s.ps ∧ (modRoute l r f s).arch = s.arch ∧ (modRoute l r f s).boot = s.boot ∧
    (modRoute l r f s).power = s.power ∧ (modRoute l r f s).arb = s.arb ∧ (modRoute l r f s).fuses = s.fuses ∧ (modRoute l r f s).dbg = s.dbg ∧
    (modRoute l r f s).log = s.log ∧ (modRoute l r f s).bus = s.bus ∧ (modRoute l r f s).freeCtr = s.freeCtr := by
  refine ⟨rfl, rfl, rfl, rfl, rfl, rfl, rfl, rfl, rfl, rfl, rfl, rfl, rfl, rfl, rfl, rfl, rfl, rfl, rfl, rfl, rfl, rfl, rfl, rfl, rfl, rfl, rfl, rfl, rfl, rfl, rfl, rfl, rfl, rfl, rfl⟩

/-- What `modPoint` leaves as it was. -/
@[simp] theorem modPoint_keeps (l : Fin 3) (p : Nat) (f : PointSt → PointSt) (s : State) :
    (modPoint l p f s).pending = s.pending ∧ (modPoint l p f s).cyc = s.cyc ∧ (modPoint l p f s).cores = s.cores ∧ (modPoint l p f s).doms = s.doms ∧
    (modPoint l p f s).pairs = s.pairs ∧ (modPoint l p f s).mem = s.mem ∧ (modPoint l p f s).memRegs = s.memRegs ∧ (modPoint l p f s).memErrs = s.memErrs ∧
    (modPoint l p f s).banks = s.banks ∧ (modPoint l p f s).voter = s.voter ∧ (modPoint l p f s).solvers = s.solvers ∧ (modPoint l p f s).rmus = s.rmus ∧
    (modPoint l p f s).conns = s.conns ∧ (modPoint l p f s).ring = s.ring ∧ (modPoint l p f s).rtm = s.rtm ∧ (modPoint l p f s).hsb = s.hsb ∧
    (modPoint l p f s).sync = s.sync ∧ (modPoint l p f s).fg = s.fg ∧ (modPoint l p f s).fgErr = s.fgErr ∧ (modPoint l p f s).mbx = s.mbx ∧
    (modPoint l p f s).update = s.update ∧ (modPoint l p f s).wdg = s.wdg ∧ (modPoint l p f s).cim = s.cim ∧ (modPoint l p f s).esc = s.esc ∧
    (modPoint l p f s).rtc = s.rtc ∧ (modPoint l p f s).ps = s.ps ∧ (modPoint l p f s).arch = s.arch ∧ (modPoint l p f s).boot = s.boot ∧
    (modPoint l p f s).power = s.power ∧ (modPoint l p f s).arb = s.arb ∧ (modPoint l p f s).fuses = s.fuses ∧ (modPoint l p f s).dbg = s.dbg ∧
    (modPoint l p f s).log = s.log ∧ (modPoint l p f s).bus = s.bus ∧ (modPoint l p f s).freeCtr = s.freeCtr := by
  refine ⟨rfl, rfl, rfl, rfl, rfl, rfl, rfl, rfl, rfl, rfl, rfl, rfl, rfl, rfl, rfl, rfl, rfl, rfl, rfl, rfl, rfl, rfl, rfl, rfl, rfl, rfl, rfl, rfl, rfl, rfl, rfl, rfl, rfl, rfl, rfl⟩

/-- What `modConn` leaves as it was. -/
@[simp] theorem modConn_keeps (l : Fin 3) (g : Fin 2) (k : Nat) (f : ConnSt → ConnSt) (s : State) :
    (modConn l g k f s).pending = s.pending ∧ (modConn l g k f s).cyc = s.cyc ∧ (modConn l g k f s).cores = s.cores ∧ (modConn l g k f s).doms = s.doms ∧
    (modConn l g k f s).pairs = s.pairs ∧ (modConn l g k f s).mem = s.mem ∧ (modConn l g k f s).memRegs = s.memRegs ∧
    (modConn l g k f s).memErrs = s.memErrs ∧ (modConn l g k f s).banks = s.banks ∧ (modConn l g k f s).voter = s.voter ∧
    (modConn l g k f s).solvers = s.solvers ∧ (modConn l g k f s).rmus = s.rmus ∧ (modConn l g k f s).ixl = s.ixl ∧ (modConn l g k f s).ring = s.ring ∧
    (modConn l g k f s).rtm = s.rtm ∧ (modConn l g k f s).hsb = s.hsb ∧ (modConn l g k f s).sync = s.sync ∧ (modConn l g k f s).fg = s.fg ∧
    (modConn l g k f s).fgErr = s.fgErr ∧ (modConn l g k f s).mbx = s.mbx ∧ (modConn l g k f s).update = s.update ∧ (modConn l g k f s).wdg = s.wdg ∧
    (modConn l g k f s).cim = s.cim ∧ (modConn l g k f s).esc = s.esc ∧ (modConn l g k f s).rtc = s.rtc ∧ (modConn l g k f s).ps = s.ps ∧
    (modConn l g k f s).arch = s.arch ∧ (modConn l g k f s).boot = s.boot ∧ (modConn l g k f s).power = s.power ∧ (modConn l g k f s).arb = s.arb ∧
    (modConn l g k f s).fuses = s.fuses ∧ (modConn l g k f s).dbg = s.dbg ∧ (modConn l g k f s).log = s.log ∧ (modConn l g k f s).bus = s.bus ∧
    (modConn l g k f s).freeCtr = s.freeCtr := by
  refine ⟨rfl, rfl, rfl, rfl, rfl, rfl, rfl, rfl, rfl, rfl, rfl, rfl, rfl, rfl, rfl, rfl, rfl, rfl, rfl, rfl, rfl, rfl, rfl, rfl, rfl, rfl, rfl, rfl, rfl, rfl, rfl, rfl, rfl, rfl, rfl⟩

/-- What `modRmu` leaves as it was. -/
@[simp] theorem modRmu_keeps (l : Fin 3) (f : Rmu → Rmu) (s : State) :
    (modRmu l f s).pending = s.pending ∧ (modRmu l f s).cyc = s.cyc ∧ (modRmu l f s).cores = s.cores ∧ (modRmu l f s).doms = s.doms ∧
    (modRmu l f s).pairs = s.pairs ∧ (modRmu l f s).mem = s.mem ∧ (modRmu l f s).memRegs = s.memRegs ∧ (modRmu l f s).memErrs = s.memErrs ∧
    (modRmu l f s).banks = s.banks ∧ (modRmu l f s).voter = s.voter ∧ (modRmu l f s).solvers = s.solvers ∧ (modRmu l f s).ixl = s.ixl ∧
    (modRmu l f s).conns = s.conns ∧ (modRmu l f s).ring = s.ring ∧ (modRmu l f s).rtm = s.rtm ∧ (modRmu l f s).hsb = s.hsb ∧
    (modRmu l f s).sync = s.sync ∧ (modRmu l f s).fg = s.fg ∧ (modRmu l f s).fgErr = s.fgErr ∧ (modRmu l f s).mbx = s.mbx ∧
    (modRmu l f s).update = s.update ∧ (modRmu l f s).wdg = s.wdg ∧ (modRmu l f s).cim = s.cim ∧ (modRmu l f s).esc = s.esc ∧ (modRmu l f s).rtc = s.rtc ∧
    (modRmu l f s).ps = s.ps ∧ (modRmu l f s).arch = s.arch ∧ (modRmu l f s).boot = s.boot ∧ (modRmu l f s).power = s.power ∧ (modRmu l f s).arb = s.arb ∧
    (modRmu l f s).fuses = s.fuses ∧ (modRmu l f s).dbg = s.dbg ∧ (modRmu l f s).log = s.log ∧ (modRmu l f s).bus = s.bus ∧
    (modRmu l f s).freeCtr = s.freeCtr := by
  refine ⟨rfl, rfl, rfl, rfl, rfl, rfl, rfl, rfl, rfl, rfl, rfl, rfl, rfl, rfl, rfl, rfl, rfl, rfl, rfl, rfl, rfl, rfl, rfl, rfl, rfl, rfl, rfl, rfl, rfl, rfl, rfl, rfl, rfl, rfl, rfl⟩

/-- What `modRing` leaves as it was. -/
@[simp] theorem modRing_keeps (f : Ring → Ring) (s : State) :
    (modRing f s).pending = s.pending ∧ (modRing f s).cyc = s.cyc ∧ (modRing f s).cores = s.cores ∧ (modRing f s).doms = s.doms ∧
    (modRing f s).pairs = s.pairs ∧ (modRing f s).mem = s.mem ∧ (modRing f s).memRegs = s.memRegs ∧ (modRing f s).memErrs = s.memErrs ∧
    (modRing f s).banks = s.banks ∧ (modRing f s).voter = s.voter ∧ (modRing f s).solvers = s.solvers ∧ (modRing f s).rmus = s.rmus ∧
    (modRing f s).ixl = s.ixl ∧ (modRing f s).conns = s.conns ∧ (modRing f s).rtm = s.rtm ∧ (modRing f s).hsb = s.hsb ∧ (modRing f s).sync = s.sync ∧
    (modRing f s).fg = s.fg ∧ (modRing f s).fgErr = s.fgErr ∧ (modRing f s).mbx = s.mbx ∧ (modRing f s).update = s.update ∧ (modRing f s).wdg = s.wdg ∧
    (modRing f s).cim = s.cim ∧ (modRing f s).esc = s.esc ∧ (modRing f s).rtc = s.rtc ∧ (modRing f s).ps = s.ps ∧ (modRing f s).arch = s.arch ∧
    (modRing f s).boot = s.boot ∧ (modRing f s).power = s.power ∧ (modRing f s).arb = s.arb ∧ (modRing f s).fuses = s.fuses ∧ (modRing f s).dbg = s.dbg ∧
    (modRing f s).log = s.log ∧ (modRing f s).bus = s.bus ∧ (modRing f s).freeCtr = s.freeCtr := by
  refine ⟨rfl, rfl, rfl, rfl, rfl, rfl, rfl, rfl, rfl, rfl, rfl, rfl, rfl, rfl, rfl, rfl, rfl, rfl, rfl, rfl, rfl, rfl, rfl, rfl, rfl, rfl, rfl, rfl, rfl, rfl, rfl, rfl, rfl, rfl, rfl⟩

/-- What `modRtm` leaves as it was. -/
@[simp] theorem modRtm_keeps (f : Rtm → Rtm) (s : State) :
    (modRtm f s).pending = s.pending ∧ (modRtm f s).cyc = s.cyc ∧ (modRtm f s).cores = s.cores ∧ (modRtm f s).doms = s.doms ∧
    (modRtm f s).pairs = s.pairs ∧ (modRtm f s).mem = s.mem ∧ (modRtm f s).memRegs = s.memRegs ∧ (modRtm f s).memErrs = s.memErrs ∧
    (modRtm f s).banks = s.banks ∧ (modRtm f s).voter = s.voter ∧ (modRtm f s).solvers = s.solvers ∧ (modRtm f s).rmus = s.rmus ∧
    (modRtm f s).ixl = s.ixl ∧ (modRtm f s).conns = s.conns ∧ (modRtm f s).ring = s.ring ∧ (modRtm f s).hsb = s.hsb ∧ (modRtm f s).sync = s.sync ∧
    (modRtm f s).fg = s.fg ∧ (modRtm f s).fgErr = s.fgErr ∧ (modRtm f s).mbx = s.mbx ∧ (modRtm f s).update = s.update ∧ (modRtm f s).wdg = s.wdg ∧
    (modRtm f s).cim = s.cim ∧ (modRtm f s).esc = s.esc ∧ (modRtm f s).rtc = s.rtc ∧ (modRtm f s).ps = s.ps ∧ (modRtm f s).arch = s.arch ∧
    (modRtm f s).boot = s.boot ∧ (modRtm f s).power = s.power ∧ (modRtm f s).arb = s.arb ∧ (modRtm f s).fuses = s.fuses ∧ (modRtm f s).dbg = s.dbg ∧
    (modRtm f s).log = s.log ∧ (modRtm f s).bus = s.bus ∧ (modRtm f s).freeCtr = s.freeCtr := by
  refine ⟨rfl, rfl, rfl, rfl, rfl, rfl, rfl, rfl, rfl, rfl, rfl, rfl, rfl, rfl, rfl, rfl, rfl, rfl, rfl, rfl, rfl, rfl, rfl, rfl, rfl, rfl, rfl, rfl, rfl, rfl, rfl, rfl, rfl, rfl, rfl⟩

/-- What `modHsb` leaves as it was. -/
@[simp] theorem modHsb_keeps (f : Hsb → Hsb) (s : State) :
    (modHsb f s).pending = s.pending ∧ (modHsb f s).cyc = s.cyc ∧ (modHsb f s).cores = s.cores ∧ (modHsb f s).doms = s.doms ∧
    (modHsb f s).pairs = s.pairs ∧ (modHsb f s).mem = s.mem ∧ (modHsb f s).memRegs = s.memRegs ∧ (modHsb f s).memErrs = s.memErrs ∧
    (modHsb f s).banks = s.banks ∧ (modHsb f s).voter = s.voter ∧ (modHsb f s).solvers = s.solvers ∧ (modHsb f s).rmus = s.rmus ∧
    (modHsb f s).ixl = s.ixl ∧ (modHsb f s).conns = s.conns ∧ (modHsb f s).ring = s.ring ∧ (modHsb f s).rtm = s.rtm ∧ (modHsb f s).sync = s.sync ∧
    (modHsb f s).fg = s.fg ∧ (modHsb f s).fgErr = s.fgErr ∧ (modHsb f s).mbx = s.mbx ∧ (modHsb f s).update = s.update ∧ (modHsb f s).wdg = s.wdg ∧
    (modHsb f s).cim = s.cim ∧ (modHsb f s).esc = s.esc ∧ (modHsb f s).rtc = s.rtc ∧ (modHsb f s).ps = s.ps ∧ (modHsb f s).arch = s.arch ∧
    (modHsb f s).boot = s.boot ∧ (modHsb f s).power = s.power ∧ (modHsb f s).arb = s.arb ∧ (modHsb f s).fuses = s.fuses ∧ (modHsb f s).dbg = s.dbg ∧
    (modHsb f s).log = s.log ∧ (modHsb f s).bus = s.bus ∧ (modHsb f s).freeCtr = s.freeCtr := by
  refine ⟨rfl, rfl, rfl, rfl, rfl, rfl, rfl, rfl, rfl, rfl, rfl, rfl, rfl, rfl, rfl, rfl, rfl, rfl, rfl, rfl, rfl, rfl, rfl, rfl, rfl, rfl, rfl, rfl, rfl, rfl, rfl, rfl, rfl, rfl, rfl⟩

/-- What `modSync` leaves as it was. -/
@[simp] theorem modSync_keeps (f : SyncLink → SyncLink) (s : State) :
    (modSync f s).pending = s.pending ∧ (modSync f s).cyc = s.cyc ∧ (modSync f s).cores = s.cores ∧ (modSync f s).doms = s.doms ∧
    (modSync f s).pairs = s.pairs ∧ (modSync f s).mem = s.mem ∧ (modSync f s).memRegs = s.memRegs ∧ (modSync f s).memErrs = s.memErrs ∧
    (modSync f s).banks = s.banks ∧ (modSync f s).voter = s.voter ∧ (modSync f s).solvers = s.solvers ∧ (modSync f s).rmus = s.rmus ∧
    (modSync f s).ixl = s.ixl ∧ (modSync f s).conns = s.conns ∧ (modSync f s).ring = s.ring ∧ (modSync f s).rtm = s.rtm ∧ (modSync f s).hsb = s.hsb ∧
    (modSync f s).fg = s.fg ∧ (modSync f s).fgErr = s.fgErr ∧ (modSync f s).mbx = s.mbx ∧ (modSync f s).update = s.update ∧ (modSync f s).wdg = s.wdg ∧
    (modSync f s).cim = s.cim ∧ (modSync f s).esc = s.esc ∧ (modSync f s).rtc = s.rtc ∧ (modSync f s).ps = s.ps ∧ (modSync f s).arch = s.arch ∧
    (modSync f s).boot = s.boot ∧ (modSync f s).power = s.power ∧ (modSync f s).arb = s.arb ∧ (modSync f s).fuses = s.fuses ∧ (modSync f s).dbg = s.dbg ∧
    (modSync f s).log = s.log ∧ (modSync f s).bus = s.bus ∧ (modSync f s).freeCtr = s.freeCtr := by
  refine ⟨rfl, rfl, rfl, rfl, rfl, rfl, rfl, rfl, rfl, rfl, rfl, rfl, rfl, rfl, rfl, rfl, rfl, rfl, rfl, rfl, rfl, rfl, rfl, rfl, rfl, rfl, rfl, rfl, rfl, rfl, rfl, rfl, rfl, rfl, rfl⟩

/-- What `modPs` leaves as it was. -/
@[simp] theorem modPs_keeps (f : PStore → PStore) (s : State) :
    (modPs f s).pending = s.pending ∧ (modPs f s).cyc = s.cyc ∧ (modPs f s).cores = s.cores ∧ (modPs f s).doms = s.doms ∧ (modPs f s).pairs = s.pairs ∧
    (modPs f s).mem = s.mem ∧ (modPs f s).memRegs = s.memRegs ∧ (modPs f s).memErrs = s.memErrs ∧ (modPs f s).banks = s.banks ∧
    (modPs f s).voter = s.voter ∧ (modPs f s).solvers = s.solvers ∧ (modPs f s).rmus = s.rmus ∧ (modPs f s).ixl = s.ixl ∧ (modPs f s).conns = s.conns ∧
    (modPs f s).ring = s.ring ∧ (modPs f s).rtm = s.rtm ∧ (modPs f s).hsb = s.hsb ∧ (modPs f s).sync = s.sync ∧ (modPs f s).fg = s.fg ∧
    (modPs f s).fgErr = s.fgErr ∧ (modPs f s).mbx = s.mbx ∧ (modPs f s).update = s.update ∧ (modPs f s).wdg = s.wdg ∧ (modPs f s).cim = s.cim ∧
    (modPs f s).esc = s.esc ∧ (modPs f s).rtc = s.rtc ∧ (modPs f s).arch = s.arch ∧ (modPs f s).boot = s.boot ∧ (modPs f s).power = s.power ∧
    (modPs f s).arb = s.arb ∧ (modPs f s).fuses = s.fuses ∧ (modPs f s).dbg = s.dbg ∧ (modPs f s).log = s.log ∧ (modPs f s).bus = s.bus ∧
    (modPs f s).freeCtr = s.freeCtr := by
  refine ⟨rfl, rfl, rfl, rfl, rfl, rfl, rfl, rfl, rfl, rfl, rfl, rfl, rfl, rfl, rfl, rfl, rfl, rfl, rfl, rfl, rfl, rfl, rfl, rfl, rfl, rfl, rfl, rfl, rfl, rfl, rfl, rfl, rfl, rfl, rfl⟩

/-- What `modFuses` leaves as it was. -/
@[simp] theorem modFuses_keeps (f : Fuses → Fuses) (s : State) :
    (modFuses f s).pending = s.pending ∧ (modFuses f s).cyc = s.cyc ∧ (modFuses f s).cores = s.cores ∧ (modFuses f s).doms = s.doms ∧
    (modFuses f s).pairs = s.pairs ∧ (modFuses f s).mem = s.mem ∧ (modFuses f s).memRegs = s.memRegs ∧ (modFuses f s).memErrs = s.memErrs ∧
    (modFuses f s).banks = s.banks ∧ (modFuses f s).voter = s.voter ∧ (modFuses f s).solvers = s.solvers ∧ (modFuses f s).rmus = s.rmus ∧
    (modFuses f s).ixl = s.ixl ∧ (modFuses f s).conns = s.conns ∧ (modFuses f s).ring = s.ring ∧ (modFuses f s).rtm = s.rtm ∧ (modFuses f s).hsb = s.hsb ∧
    (modFuses f s).sync = s.sync ∧ (modFuses f s).fg = s.fg ∧ (modFuses f s).fgErr = s.fgErr ∧ (modFuses f s).mbx = s.mbx ∧
    (modFuses f s).update = s.update ∧ (modFuses f s).wdg = s.wdg ∧ (modFuses f s).cim = s.cim ∧ (modFuses f s).esc = s.esc ∧ (modFuses f s).rtc = s.rtc ∧
    (modFuses f s).ps = s.ps ∧ (modFuses f s).arch = s.arch ∧ (modFuses f s).boot = s.boot ∧ (modFuses f s).power = s.power ∧ (modFuses f s).arb = s.arb ∧
    (modFuses f s).dbg = s.dbg ∧ (modFuses f s).log = s.log ∧ (modFuses f s).bus = s.bus ∧ (modFuses f s).freeCtr = s.freeCtr := by
  refine ⟨rfl, rfl, rfl, rfl, rfl, rfl, rfl, rfl, rfl, rfl, rfl, rfl, rfl, rfl, rfl, rfl, rfl, rfl, rfl, rfl, rfl, rfl, rfl, rfl, rfl, rfl, rfl, rfl, rfl, rfl, rfl, rfl, rfl, rfl, rfl⟩

/-- What `modUpdate` leaves as it was. -/
@[simp] theorem modUpdate_keeps (f : Update → Update) (s : State) :
    (modUpdate f s).pending = s.pending ∧ (modUpdate f s).cyc = s.cyc ∧ (modUpdate f s).cores = s.cores ∧ (modUpdate f s).doms = s.doms ∧
    (modUpdate f s).pairs = s.pairs ∧ (modUpdate f s).mem = s.mem ∧ (modUpdate f s).memRegs = s.memRegs ∧ (modUpdate f s).memErrs = s.memErrs ∧
    (modUpdate f s).banks = s.banks ∧ (modUpdate f s).voter = s.voter ∧ (modUpdate f s).solvers = s.solvers ∧ (modUpdate f s).rmus = s.rmus ∧
    (modUpdate f s).ixl = s.ixl ∧ (modUpdate f s).conns = s.conns ∧ (modUpdate f s).ring = s.ring ∧ (modUpdate f s).rtm = s.rtm ∧
    (modUpdate f s).hsb = s.hsb ∧ (modUpdate f s).sync = s.sync ∧ (modUpdate f s).fg = s.fg ∧ (modUpdate f s).fgErr = s.fgErr ∧
    (modUpdate f s).mbx = s.mbx ∧ (modUpdate f s).wdg = s.wdg ∧ (modUpdate f s).cim = s.cim ∧ (modUpdate f s).esc = s.esc ∧ (modUpdate f s).rtc = s.rtc ∧
    (modUpdate f s).ps = s.ps ∧ (modUpdate f s).arch = s.arch ∧ (modUpdate f s).boot = s.boot ∧ (modUpdate f s).power = s.power ∧
    (modUpdate f s).arb = s.arb ∧ (modUpdate f s).fuses = s.fuses ∧ (modUpdate f s).dbg = s.dbg ∧ (modUpdate f s).log = s.log ∧
    (modUpdate f s).bus = s.bus ∧ (modUpdate f s).freeCtr = s.freeCtr := by
  refine ⟨rfl, rfl, rfl, rfl, rfl, rfl, rfl, rfl, rfl, rfl, rfl, rfl, rfl, rfl, rfl, rfl, rfl, rfl, rfl, rfl, rfl, rfl, rfl, rfl, rfl, rfl, rfl, rfl, rfl, rfl, rfl, rfl, rfl, rfl, rfl⟩

/-- What `modPower` leaves as it was. -/
@[simp] theorem modPower_keeps (f : Power → Power) (s : State) :
    (modPower f s).pending = s.pending ∧ (modPower f s).cyc = s.cyc ∧ (modPower f s).cores = s.cores ∧ (modPower f s).doms = s.doms ∧
    (modPower f s).pairs = s.pairs ∧ (modPower f s).mem = s.mem ∧ (modPower f s).memRegs = s.memRegs ∧ (modPower f s).memErrs = s.memErrs ∧
    (modPower f s).banks = s.banks ∧ (modPower f s).voter = s.voter ∧ (modPower f s).solvers = s.solvers ∧ (modPower f s).rmus = s.rmus ∧
    (modPower f s).ixl = s.ixl ∧ (modPower f s).conns = s.conns ∧ (modPower f s).ring = s.ring ∧ (modPower f s).rtm = s.rtm ∧ (modPower f s).hsb = s.hsb ∧
    (modPower f s).sync = s.sync ∧ (modPower f s).fg = s.fg ∧ (modPower f s).fgErr = s.fgErr ∧ (modPower f s).mbx = s.mbx ∧
    (modPower f s).update = s.update ∧ (modPower f s).wdg = s.wdg ∧ (modPower f s).cim = s.cim ∧ (modPower f s).esc = s.esc ∧ (modPower f s).rtc = s.rtc ∧
    (modPower f s).ps = s.ps ∧ (modPower f s).arch = s.arch ∧ (modPower f s).boot = s.boot ∧ (modPower f s).arb = s.arb ∧ (modPower f s).fuses = s.fuses ∧
    (modPower f s).dbg = s.dbg ∧ (modPower f s).log = s.log ∧ (modPower f s).bus = s.bus ∧ (modPower f s).freeCtr = s.freeCtr := by
  refine ⟨rfl, rfl, rfl, rfl, rfl, rfl, rfl, rfl, rfl, rfl, rfl, rfl, rfl, rfl, rfl, rfl, rfl, rfl, rfl, rfl, rfl, rfl, rfl, rfl, rfl, rfl, rfl, rfl, rfl, rfl, rfl, rfl, rfl, rfl, rfl⟩

/-- What `modBoot` leaves as it was. -/
@[simp] theorem modBoot_keeps (f : Boot → Boot) (s : State) :
    (modBoot f s).pending = s.pending ∧ (modBoot f s).cyc = s.cyc ∧ (modBoot f s).cores = s.cores ∧ (modBoot f s).doms = s.doms ∧
    (modBoot f s).pairs = s.pairs ∧ (modBoot f s).mem = s.mem ∧ (modBoot f s).memRegs = s.memRegs ∧ (modBoot f s).memErrs = s.memErrs ∧
    (modBoot f s).banks = s.banks ∧ (modBoot f s).voter = s.voter ∧ (modBoot f s).solvers = s.solvers ∧ (modBoot f s).rmus = s.rmus ∧
    (modBoot f s).ixl = s.ixl ∧ (modBoot f s).conns = s.conns ∧ (modBoot f s).ring = s.ring ∧ (modBoot f s).rtm = s.rtm ∧ (modBoot f s).hsb = s.hsb ∧
    (modBoot f s).sync = s.sync ∧ (modBoot f s).fg = s.fg ∧ (modBoot f s).fgErr = s.fgErr ∧ (modBoot f s).mbx = s.mbx ∧ (modBoot f s).update = s.update ∧
    (modBoot f s).wdg = s.wdg ∧ (modBoot f s).cim = s.cim ∧ (modBoot f s).esc = s.esc ∧ (modBoot f s).rtc = s.rtc ∧ (modBoot f s).ps = s.ps ∧
    (modBoot f s).arch = s.arch ∧ (modBoot f s).power = s.power ∧ (modBoot f s).arb = s.arb ∧ (modBoot f s).fuses = s.fuses ∧ (modBoot f s).dbg = s.dbg ∧
    (modBoot f s).log = s.log ∧ (modBoot f s).bus = s.bus ∧ (modBoot f s).freeCtr = s.freeCtr := by
  refine ⟨rfl, rfl, rfl, rfl, rfl, rfl, rfl, rfl, rfl, rfl, rfl, rfl, rfl, rfl, rfl, rfl, rfl, rfl, rfl, rfl, rfl, rfl, rfl, rfl, rfl, rfl, rfl, rfl, rfl, rfl, rfl, rfl, rfl, rfl, rfl⟩

/-- What `modRec` leaves as it was. -/
@[simp] theorem modRec_keeps (f : BootRec → BootRec) (s : State) :
    (modRec f s).pending = s.pending ∧ (modRec f s).cyc = s.cyc ∧ (modRec f s).cores = s.cores ∧ (modRec f s).doms = s.doms ∧
    (modRec f s).pairs = s.pairs ∧ (modRec f s).mem = s.mem ∧ (modRec f s).memRegs = s.memRegs ∧ (modRec f s).memErrs = s.memErrs ∧
    (modRec f s).banks = s.banks ∧ (modRec f s).voter = s.voter ∧ (modRec f s).solvers = s.solvers ∧ (modRec f s).rmus = s.rmus ∧
    (modRec f s).ixl = s.ixl ∧ (modRec f s).conns = s.conns ∧ (modRec f s).ring = s.ring ∧ (modRec f s).rtm = s.rtm ∧ (modRec f s).hsb = s.hsb ∧
    (modRec f s).sync = s.sync ∧ (modRec f s).fg = s.fg ∧ (modRec f s).fgErr = s.fgErr ∧ (modRec f s).mbx = s.mbx ∧ (modRec f s).update = s.update ∧
    (modRec f s).wdg = s.wdg ∧ (modRec f s).cim = s.cim ∧ (modRec f s).esc = s.esc ∧ (modRec f s).rtc = s.rtc ∧ (modRec f s).ps = s.ps ∧
    (modRec f s).arch = s.arch ∧ (modRec f s).power = s.power ∧ (modRec f s).arb = s.arb ∧ (modRec f s).fuses = s.fuses ∧ (modRec f s).dbg = s.dbg ∧
    (modRec f s).log = s.log ∧ (modRec f s).bus = s.bus ∧ (modRec f s).freeCtr = s.freeCtr := by
  refine ⟨rfl, rfl, rfl, rfl, rfl, rfl, rfl, rfl, rfl, rfl, rfl, rfl, rfl, rfl, rfl, rfl, rfl, rfl, rfl, rfl, rfl, rfl, rfl, rfl, rfl, rfl, rfl, rfl, rfl, rfl, rfl, rfl, rfl, rfl, rfl⟩

/-- The entry that `modCore` writes. -/
theorem modCore_same (c : CoreId) (f : Core → Core) (s : State) : (modCore c f s).cores[c] = f s.cores[c] := by
  unfold modCore; exact Vector.getElem_set_self _
/-- The other entries. -/
theorem modCore_other (c w : CoreId) (f : Core → Core) (s : State) (h : w ≠ c) : (modCore c f s).cores[w] = s.cores[w] := by
  exact Vector.getElem_set_ne (i := c.val) (j := w.val) c.isLt w.isLt fun e => h (Fin.ext e.symm)

/-- The entry that `modDom` writes. -/
theorem modDom_same (d : DomId) (f : Dom → Dom) (s : State) : (modDom d f s).doms[d] = f s.doms[d] := by
  unfold modDom; exact Vector.getElem_set_self _
/-- The other entries. -/
theorem modDom_other (d w : DomId) (f : Dom → Dom) (s : State) (h : w ≠ d) : (modDom d f s).doms[w] = s.doms[w] := by
  exact Vector.getElem_set_ne (i := d.val) (j := w.val) d.isLt w.isLt fun e => h (Fin.ext e.symm)

/-- The entry that `modPair` writes. -/
theorem modPair_same (n : Fin 4) (f : PairReg → PairReg) (s : State) : (modPair n f s).pairs[n] = f s.pairs[n] := by
  unfold modPair; exact Vector.getElem_set_self _
/-- The other entries. -/
theorem modPair_other (n w : Fin 4) (f : PairReg → PairReg) (s : State) (h : w ≠ n) : (modPair n f s).pairs[w] = s.pairs[w] := by
  exact Vector.getElem_set_ne (i := n.val) (j := w.val) n.isLt w.isLt fun e => h (Fin.ext e.symm)

/-- The entry that `modSolver` writes. -/
theorem modSolver_same (i : Fin 5) (f : Solver → Solver) (s : State) : (modSolver i f s).solvers[i] = f s.solvers[i] := by
  unfold modSolver; exact Vector.getElem_set_self _
/-- The other entries. -/
theorem modSolver_other (i w : Fin 5) (f : Solver → Solver) (s : State) (h : w ≠ i) : (modSolver i f s).solvers[w] = s.solvers[w] := by
  exact Vector.getElem_set_ne (i := i.val) (j := w.val) i.isLt w.isLt fun e => h (Fin.ext e.symm)

/-- The entry that `modFg` writes. -/
theorem modFg_same (g : GroupId) (f : Fg → Fg) (s : State) : (modFg g f s).fg[g] = f s.fg[g] := by
  unfold modFg; exact Vector.getElem_set_self _
/-- The other entries. -/
theorem modFg_other (g w : GroupId) (f : Fg → Fg) (s : State) (h : w ≠ g) : (modFg g f s).fg[w] = s.fg[w] := by
  exact Vector.getElem_set_ne (i := g.val) (j := w.val) g.isLt w.isLt fun e => h (Fin.ext e.symm)

/-- The entry that `modWdg` writes. -/
theorem modWdg_same (u : Fin 8) (f : Wdg → Wdg) (s : State) : (modWdg u f s).wdg[u] = f s.wdg[u] := by
  unfold modWdg; exact Vector.getElem_set_self _
/-- The other entries. -/
theorem modWdg_other (u w : Fin 8) (f : Wdg → Wdg) (s : State) (h : w ≠ u) : (modWdg u f s).wdg[w] = s.wdg[w] := by
  exact Vector.getElem_set_ne (i := u.val) (j := w.val) u.isLt w.isLt fun e => h (Fin.ext e.symm)

/-- The entry that `modCim` writes. -/
theorem modCim_same (d : DomId) (f : Cim → Cim) (s : State) : (modCim d f s).cim[d] = f s.cim[d] := by
  unfold modCim; exact Vector.getElem_set_self _
/-- The other entries. -/
theorem modCim_other (d w : DomId) (f : Cim → Cim) (s : State) (h : w ≠ d) : (modCim d f s).cim[w] = s.cim[w] := by
  exact Vector.getElem_set_ne (i := d.val) (j := w.val) d.isLt w.isLt fun e => h (Fin.ext e.symm)

/-- The entry that `modRmu` writes. -/
theorem modRmu_same (l : Fin 3) (f : Rmu → Rmu) (s : State) : (modRmu l f s).rmus[l] = f s.rmus[l] := by
  unfold modRmu; exact Vector.getElem_set_self _
/-- The other entries. -/
theorem modRmu_other (l w : Fin 3) (f : Rmu → Rmu) (s : State) (h : w ≠ l) : (modRmu l f s).rmus[w] = s.rmus[w] := by
  exact Vector.getElem_set_ne (i := l.val) (j := w.val) l.isLt w.isLt fun e => h (Fin.ext e.symm)

/-- The entry that `modIxl` writes. -/
theorem modIxl_same (l : Fin 3) (f : Ixl → Ixl) (s : State) : (modIxl l f s).ixl[l] = f s.ixl[l] := by
  unfold modIxl; exact Vector.getElem_set_self _
/-- The other entries. -/
theorem modIxl_other (l w : Fin 3) (f : Ixl → Ixl) (s : State) (h : w ≠ l) : (modIxl l f s).ixl[w] = s.ixl[w] := by
  exact Vector.getElem_set_ne (i := l.val) (j := w.val) l.isLt w.isLt fun e => h (Fin.ext e.symm)

/-- What `modReint` writes. -/
@[simp] theorem modReint_out (f : Reint → Reint) (s : State) : (modReint f s).voter.reint = f s.voter.reint := rfl
/-- What `modRing` writes. -/
@[simp] theorem modRing_out (f : Ring → Ring) (s : State) : (modRing f s).ring = f s.ring := rfl
/-- What `modRtm` writes. -/
@[simp] theorem modRtm_out (f : Rtm → Rtm) (s : State) : (modRtm f s).rtm = f s.rtm := rfl
/-- What `modHsb` writes. -/
@[simp] theorem modHsb_out (f : Hsb → Hsb) (s : State) : (modHsb f s).hsb = f s.hsb := rfl
/-- What `modSync` writes. -/
@[simp] theorem modSync_out (f : SyncLink → SyncLink) (s : State) : (modSync f s).sync = f s.sync := rfl
/-- What `modPs` writes. -/
@[simp] theorem modPs_out (f : PStore → PStore) (s : State) : (modPs f s).ps = f s.ps := rfl
/-- What `modFuses` writes. -/
@[simp] theorem modFuses_out (f : Fuses → Fuses) (s : State) : (modFuses f s).fuses = f s.fuses := rfl
/-- What `modUpdate` writes. -/
@[simp] theorem modUpdate_out (f : Update → Update) (s : State) : (modUpdate f s).update = f s.update := rfl
/-- What `modPower` writes. -/
@[simp] theorem modPower_out (f : Power → Power) (s : State) : (modPower f s).power = f s.power := rfl
/-- What `modBoot` writes. -/
@[simp] theorem modBoot_out (f : Boot → Boot) (s : State) : (modBoot f s).boot = f s.boot := rfl
/-- What `answer` writes. -/
@[simp] theorem answer_out (r : Resp) (v : Word) (s : State) : (answer r v s).bus = { resp := r, val := v } := rfl
/-- What `addLog` writes. -/
@[simp] theorem addLog_out (k : LogKind) (a b : Nat) (s : State) : (addLog k a b s).log = s.log ++ [{ kind := k, a := a, b := b, cyc := s.cyc.count }] := rfl

end Sys2Proof.Laws
end

