-- ==== Sys2Proof/Tests/Slice0.lean ====
section
/-! SUPPORT. The model's own tests: ill-formed commands, instruction words written out from the spec, the spec's worked cases, and for every statement with premises a
state and operands that meet them. -/

namespace Sys2Proof.Tests
set_option Elab.async false
open Sys2Proof.Machine Sys2Proof.Safety

/-! ## Ill-formed commands are recognised -/

/-- Core A0, guarded by p0, no colliding write. -/
def h : Hdr := { core := 4, pg := 0, pn := false, meet := none }

theorem test_wf_ext_rm : Instr.wf (.extI h 1 0 0 5 0) = false ∧ Instr.wf (.extI h 1 0 31 4 2) = true := by decide
theorem test_wf_ext_sat : Instr.wf (.extQ31 h 1 0 0 0 3) = false := by decide
theorem test_wf_extQ15_shift : Instr.wf (.extQ15 h 1 0 24 0 0) = false ∧ Instr.wf (.extQ15 h 1 0 23 0 0) = true := by decide
theorem test_wf_bitref : Instr.wf (.bld h 1 ⟨3, 32⟩) = false ∧ Instr.wf (.eupd h 1 ⟨3, 31⟩) = true := by decide
theorem test_wf_sr : Instr.wf (.mfsr h 1 2) = false ∧ Instr.wf (.mtsr h 1 0x16) = false ∧ Instr.wf (.mfsr h 1 0x1F) = true := by decide
theorem test_wf_rpti : Instr.wf (.rpti h 0 1 5) = false ∧ Instr.wf (.rpti h 0 0 5) = true := by decide
theorem test_wf_rptr : Instr.wf (.rptr h 3 0 4) = false ∧ Instr.wf (.rptr h 0 7 4) = false ∧ Instr.wf (.rptr h 6 7 4) = true := by decide
theorem test_wf_frame : Instr.wf (.frameReceive 0 ⟨0, 0, 0x88B5, [], true⟩) = false ∧
    Instr.wf (.frameReceive 0 ⟨0, 0, 0x88B5, List.replicate 46 0, true⟩) = true := by decide
theorem test_wf_freight : Instr.wf (.freightSubmit ⟨1, 3, [1], 0, []⟩) = false ∧ Instr.wf (.freightSubmit ⟨1, 1, [], 0, []⟩) = false ∧
    Instr.wf (.freightSubmit ⟨1, 2, [1], 0, [5]⟩) = true := by decide

/-! ## Words from the spec's encoding tables (R243 to R250, R262 to R273, R279) -/

theorem test_dec_add : decodeNerop 4 none 0x00061100 = some (.add h 3 1 2) := by decide +kernel
theorem test_dec_nop : decodeNerop 4 none 0 = some (.add h 0 0 0) := by decide +kernel
theorem test_dec_eq : decodeNerop 4 none 0x00444280 = some (.cmpEq h 2 4 5) := by decide +kernel
theorem test_dec_pand : decodeNerop 4 none 0x00422190 = some (.pand h 1 2 3) := by decide +kernel
theorem test_dec_mac : decodeNerop 4 none 0x70827409 = some (.macQ31 { h with pg := 3, pn := true } 1 7 8) := by decide +kernel
theorem test_dec_ext : decodeNerop 4 none 0x00D20029 = some (.extQ31 h 9 0 0 1 1) := by decide +kernel
theorem test_dec_addi : decodeNerop 4 none 0x01021FFF = some (.addi h 1 1 (-1)) := by decide +kernel
theorem test_dec_cmpi : decodeNerop 4 none 0x03662005 = some (.cmpi h 3 2 2 5) := by decide +kernel
theorem test_dec_ldw : decodeNerop 4 none 0x050A3000 = some (.ldw h 5 3 0) := by decide +kernel
theorem test_dec_stw : decodeNerop 4 none 0x06006000 = some (.stw h 0 6 0) := by decide +kernel
theorem test_dec_branch : decodeNerop 4 none 0x0C03FFFF = some (.branch h (-1)) ∧ decodeNerop 4 none 0x0C100003 = some (.bl h 3) ∧
    decodeNerop 4 none 0x0C200003 = none := by decide +kernel
theorem test_dec_jlr : decodeNerop 4 none 0x0C41F001 = some (.jlr h 31) := by decide +kernel
theorem test_dec_mtsr : decodeNerop 4 none 0x0E01019D = some (.mtsr h 6 0x1D) := by decide +kernel
theorem test_dec_sys : decodeNerop 4 none 0x0E020005 = some (.trapSw h 5) ∧ decodeNerop 4 none 0x0E030000 = some (.rte h) ∧
    decodeNerop 4 none 0x0E040000 = some (.waitInt h) ∧ decodeNerop 4 none 0x0E050000 = some (.fence h) := by decide +kernel
theorem test_dec_rmu : decodeNerop 4 none 0x0E092900 = some (.rmuLock h 5 4) := by decide +kernel
theorem test_dec_tsb : decodeNerop 4 none 0x083A8105 = some (.tsb h 2 ⟨2, 0x105⟩) := by decide +kernel
theorem test_dec_red : decodeNerop 4 none 0x08410009 = some (.red h 1 ⟨0, 9⟩) := by decide +kernel
theorem test_dec_bfld : decodeNerop 4 none 0x088A102F = some (.bfld h 5 1 15 true) := by decide +kernel
theorem test_dec_ton : decodeNerop 4 none 0x09022180 = some (.ton h 1 2 3) := by decide +kernel
theorem test_dec_ctu : decodeNerop 4 none 0x09422180 = some (.ctu h 1 2 3) := by decide +kernel
theorem test_dec_vote : decodeNerop 4 none 0x09822000 = some (.vote h 1 2) := by decide +kernel
theorem test_dec_atomic : decodeNerop 4 none 0x09C22000 = some (.lrW h 1 2) ∧ decodeNerop 4 none 0x09C22181 = some (.scW h 1 2 3) := by decide +kernel
theorem test_dec_rptr : decodeNerop 4 none 0x0A4C7004 = some (.rptr h 6 7 4) := by decide +kernel
theorem test_dec_rpti : decodeNerop 4 none 0x0A0DC05F = some (.rpti h 6 (-4) 95) := by decide +kernel
theorem test_dec_reserved : decodeNerop 4 none 0x0FFFFFFF = none ∧ decodeNerop 4 none 0x03800000 = none ∧ decodeNerop 4 none 0x0E0A0001 = none := by decide +kernel
/-- No row of the command table gives bits. -/
theorem test_table_word : decodeTableWord 0 0 = none := rfl

/-! ## The spec's worked cases -/

/-- The table of R257: two ties, four modes. -/
theorem test_rounding_table : [1, 2, 3, 4].map (fun rm => (extract 0 rm 1 16 48 0x000123800000000000#72).1) = [0x124, 0x124, 0x123, 0x123] ∧
    [1, 2, 3, 4].map (fun rm => (extract 0 rm 1 16 48 0xFFFEDC800000000000#72).1) = [0xFFFFFEDC, 0xFFFFFEDC, 0xFFFFFEDD, 0xFFFFFEDC] := by decide +kernel
/-- The dancer arm of R257: saturated after rounding, wrapped, truncated. -/
theorem test_dancer_arm : extract 4 1 1 32 32 0x007FFFFFFFC0000000#72 = (0x7FFFFFFF, true) ∧ extract 4 2 2 32 32 0x007FFFFFFFC0000000#72 = (0x80000000, false) ∧
    extract 4 3 1 32 32 0x007FFFFFFFC0000000#72 = (0x7FFFFFFF, false) := by decide +kernel
/-- The film counter of R322. -/
theorem test_film_counter : readRot 1 0x46 4 (writeBytes 1 0x40 [0x10, 0x21, 0x32, 0x43, 0x54, 0x65, 0x76, 0x87] State.reset) = 0x21108776 ∧
    readRot 1 0x47 2 (writeBytes 1 0x40 [0x10, 0x21, 0x32, 0x43, 0x54, 0x65, 0x76, 0x87] State.reset) = 0x1087 := by decide +kernel
/-- Memory keeps one form: a byte written back to what an unlisted byte reads as leaves no entry. -/
theorem test_memory_form : (writeBytes 1 0x40 [0] (writeBytes 1 0x40 [7] State.reset)).mem = [] := by decide +kernel
/-- 28 February of a leap year ends on the 29th. -/
theorem test_clock_step : calNext (calOf 0x00235959 0x20240228) = calOf 0x00000000 0x20240229 := by decide +kernel

/-! ## States for the premises -/

/-- Everything is supplied, TX0 is TRIPLEX, and core A0 runs at K. -/
def live : State :=
  { State.reset with boot := { Boot.reset with on := 0xFFF, up := true }, voter := { Voter.reset with grp := Voter.reset.grp.map fun g => { g with members := 7 } } }
/-- Registers that point at the places below. -/
def regs : Vector Word 32 := #v[0, 0x02000046, 0x80000000, 5, 0xFFFFFFFB, 0x02001200, 0x02000040, 7, 0x02001240, 0x80000000, 0, 0, 0, 0, 0, 0,
  0, 0, 0, 0, 0, 0, 0, 0, 0, 0, 0, 0, 0, 0, 0, 0]
/-- `f` on A0's registers. -/
def laneWith (f : Arch → Arch) : State := modCore 4 (fun k => { k with stopped := false, arch := f { k.arch with g := regs } }) live
/-- A0 in an ordinary slot. -/
def lane : State := laneWith id
/-- A0 serves no pair. -/
theorem noEcho (s : State) : ∀ n, pairOf h.core = some n → s.pairs[n].log = [] ∧ s.pairs[n].echo = false := by
  intro n hn; simp [pairOf, h] at hn

/-- The premises of every statement made with Yields, and the first of every other statement about an instruction. -/
theorem test_meets_ready : Ready h lane :=
  { runs := by decide +kernel, noStep := rfl, noIrq := by decide +kernel, fetch := rfl, alike := .inl rfl, noEcho := noEcho _, guard := by decide +kernel
    noRpt := rfl, noDelay := rfl, noOpens := rfl }

/-! ## Premises about instructions

Each theorem is named after its statement and meets the premises of each of its clauses. -/

theorem test_meets_ExtractionsRoundThenFitTheirRange : (0 : Fin 8).val < 5 ∧ (4 : Fin 8).val < 5 ∧ (2 : Fin 4).val < 3 ∧ (23 : Fin 32).val < 24 := by decide
theorem test_meets_MacInstructionsKeepTheExactResult : (List.replicate 255 (true, (0x80000000 : Word), (0x80000000 : Word))).length ≤ 255 :=
  Nat.le_of_eq List.length_replicate
/-- A tie, and the modes that may meet it. -/
theorem test_meets_RoundingModesGiveTheirQuotient : 2 * (roundTo .rne 3 1 * 2 ^ 1 - 3).natAbs = 2 ^ 1 ∧ 2 * (roundTo .rna (-3) 1 * 2 ^ 1 - (-3)).natAbs = 2 ^ 1 := by decide

/-- Memories without errors. -/
theorem clean_of {code : Nat} {ws : List Nat} {s : State} (p : s.memErrs.poison = []) (f : s.memErrs.flips = []) : Clean code ws s := by
  intro w _; simp [poisoned, wordFlips, p, f]
theorem inv_of {s : State} (e : memWf s.mem) : Inv s := e

theorem test_meets_LoadsGiveTheBytesOfTheirWord :
    OnChip 4 (.load 4 false 9) 0x02000046 1 0x46 lane ∧ OnChip 4 (.load 1 true 9) 0x02FFFFFF 1 0xFFFFFF lane ∧ OnChip 4 (.load 1 false 9) 0x02000000 1 0 lane ∧
    OnChip 4 (.load 2 true 9) 0x02000047 1 0x47 lane ∧ OnChip 4 (.load 2 false 9) 0x02000047 1 0x47 lane ∧ OnChip 4 (.lr 9) 0x02000040 1 0x40 lane := by
  refine ⟨?_, ?_, ?_, ?_, ?_, ?_⟩ <;> exact ⟨by decide +kernel, by decide +kernel, by decide +kernel, by decide +kernel, by decide +kernel, clean_of rfl rfl⟩

/-- A0 with a reservation of the granule that g6 points into. -/
def reserved : State := laneWith fun a => { a with resv := some (memKey 1 1) }
theorem ready_reserved : Ready h reserved :=
  { runs := by decide +kernel, noStep := rfl, noIrq := by decide +kernel, fetch := rfl, alike := .inl rfl, noEcho := noEcho _, guard := by decide +kernel
    noRpt := rfl, noDelay := rfl, noOpens := rfl }
theorem noRuns_of (s : State) (e : ∀ (i : Fin 5) (k : Fin 2), s.solvers[i].q[k].run = none) : NoRuns s := e
theorem test_meets_StoresWriteExactlyTheirBytes :
    Inv lane ∧ NoRuns lane ∧ Inv reserved ∧ NoRuns reserved ∧ OnChip 4 (.store 1 5) 0x02000047 1 0x47 lane ∧ OnChip 4 (.store 2 5) 0x02000047 1 0x47 lane ∧
    OnChip 4 (.store 4 5) 0x02000046 1 0x46 lane ∧ (if (4 : CoreId) = stewCore then 3 else 2) > (⟨3, 1, false⟩ : Meet).cls.val ∧
    OnChip 4 (.sc 9 5) 0x02000040 1 0x40 reserved ∧ reserved.cores[(4 : CoreId)].arch.resv = some (memKey 1 (0x40 / 64)) ∧
    lane.cores[(4 : CoreId)].arch.resv ≠ some (memKey 1 (0x40 / 64)) := by
  refine ⟨inv_of (by decide +kernel), noRuns_of _ (by decide +kernel), inv_of (by decide +kernel), noRuns_of _ (by decide +kernel), ?_, ?_, ?_, by decide, ?_, by decide +kernel,
    by decide +kernel⟩ <;> exact ⟨by decide +kernel, by decide +kernel, by decide +kernel, by decide +kernel, by decide +kernel, clean_of rfl rfl⟩

/-- The premises of Issues, where the decidable ones hold. -/
theorem issues_of (s : State) (a : coreRuns 4 s = true ∧ s.cores[(4 : CoreId)].step = false ∧ irqReady 4 s = none ∧ guardOn s.cores[(4 : CoreId)].arch h = true ∧
    s.cores[(4 : CoreId)].chk = none) (f : fetchTrap 4 s = (none, s)) : Issues h s :=
  { runs := a.1, noStep := a.2.1, noIrq := a.2.2.1, fetch := f, alike := .inl a.2.2.2.2, noEcho := noEcho _, guard := a.2.2.2.1 }
/-- A repetition with `n` iterations to go. -/
def rpt (n : Nat) (z : Bool) : Rpt := { left := n, reg := 6, step := 4, started := false, zero := z }
theorem test_meets_SlotsCarryResultsDelaysAndRepetitions :
    Issues h (laneWith fun a => { a with opens := [⟨.g 3, 9, 2⟩, ⟨.p 1, 1, 3⟩] }) ∧ Issues h (laneWith fun a => { a with opens := [⟨.g 3, 9, 1⟩, ⟨.g 4, 8, 1⟩, ⟨.g 3, 7, 2⟩] }) ∧
    Issues h (laneWith fun a => { a with opens := [⟨.a 1, 5, 1⟩, ⟨.p 0, one true, 1⟩] }) ∧ Issues h (laneWith fun a => { a with delay := some (2, 0x40) }) ∧
    Issues h (laneWith fun a => { a with delay := some (1, 0x40) }) ∧ Issues h (laneWith fun a => { a with rpt := some (rpt 2 false) }) ∧
    Issues h (laneWith fun a => { a with rpt := some (rpt 1 false) }) ∧ Issues h (laneWith fun a => { a with rpt := some (rpt 1 true) }) := by
  refine ⟨?_, ?_, ?_, ?_, ?_, ?_, ?_, ?_⟩ <;> exact issues_of _ (by decide +kernel) rfl

theorem test_meets_SpecialRegistersReadAndWriteTheirFields : lane.cores[(4 : CoreId)].arch.priv = true ∧ (0x1F : Fin 64).val ≠ 0x10 ∧ (0x11 : Fin 64).val ≠ 0x12 := by decide +kernel

/-- A0 with the reservation, interrupt and trap registers that the entries need. -/
def armed : State := laneWith fun a => { a with iena := 0x80000041, ipend := 0x41 }
def returning : State := laneWith fun a => { a with trapsave := 7, trappc := 0x2000 }
def waiting_ : State := laneWith fun a => { a with iena := 1, ipend := 1 }
theorem test_meets_TrapEntryAndReturnSaveAndRestore :
    lane.cores[(4 : CoreId)].arch.trapsave.getLsbD 2 = false ∧ encodeNerop (.trapSw h 63) = some 0x0E02003F ∧ decodeNerop 4 none 0x0FFFFFFF = none ∧
    h = { core := 4, pg := Fin.ofNat 8 (0x0FFFFFFF / 2 ^ 29), pn := (0x0FFFFFFF : Word).getLsbD 28, meet := none } ∧
    coreRuns 4 armed = true ∧ irqReady 4 armed = some 0 ∧ armed.cores[(4 : CoreId)].arch.rpt = none ∧ (∀ n, pairOf 4 = some n → armed.pairs[n].echo = false) ∧
    Ready h returning ∧ returning.cores[(4 : CoreId)].arch.trapsave.getLsbD 4 = false ∧ Ready h waiting_ ∧
    waiting_.cores[(4 : CoreId)].arch.ipend &&& waiting_.cores[(4 : CoreId)].arch.iena &&& 0x7F ≠ 0 ∧
    lane.cores[(4 : CoreId)].arch.ipend &&& lane.cores[(4 : CoreId)].arch.iena &&& 0x7F = 0 := by
  refine ⟨by decide +kernel, by decide +kernel, by decide +kernel, by decide +kernel, by decide +kernel, by decide +kernel, by decide +kernel, by decide +kernel,
    ?_, by decide +kernel, ?_, by decide +kernel, by decide +kernel⟩ <;> exact { issues_of _ (by decide +kernel) rfl with noRpt := rfl, noDelay := rfl, noOpens := rfl }

/-- TX0 runs an image with areas in lane SRAM. -/
def areas : Areas :=
  { pimg := 0, iBase := 0x1000, iLen := 8, qBase := 0x1100, qLen := 8, mBase := 0x1200, mLen := 128, edgeBase := 0x1300, dataBase := 0x1400, dataLen := 64
    retainLen := 0, changeBase := 0x1800, changeLen := 64 }
def img : Image := { (default : Image) with id := 7, areas := areas, safety := true }
/-- `lane`, with that image. -/
def prog : State := { lane with doms := lane.doms.set 4 { lane.doms[(4 : DomId)] with image := some img, run := true } }
theorem ready_prog : Ready h prog := { issues_of _ (by decide +kernel) rfl with noRpt := rfl, noDelay := rfl, noOpens := rfl }
theorem test_meets_BitInstructionsReadAndWriteTheirBit :
    BitAt 4 ⟨2, 1023⟩ 2 1023 1 0x127F prog ∧ BitAt 4 ⟨0, 63⟩ 0 63 1 0x1007 prog ∧ BitAt 4 ⟨3, 9⟩ 2 0 1 0x1200 prog ∧ (⟨2, 1023⟩ : BitRef).wf = true ∧ Inv prog ∧ NoRuns prog ∧
    prog.cores[(4 : CoreId)].arch.priv = true := by
  refine ⟨?_, ?_, ?_, rfl, inv_of (by decide +kernel), noRuns_of _ (by decide +kernel), by decide +kernel⟩ <;>
    exact ⟨by decide +kernel, by decide +kernel, by decide, rfl, clean_of rfl rfl, by decide +kernel⟩
theorem test_meets_EdgeInstructionsCompareAndUpdateTheCompanion :
    BitAt 4 ⟨0, 63⟩ 0 63 1 0x1007 prog ∧ edgeByte 4 0 63 prog = some 0x1307 ∧ Clean 1 [0x1307 / 8] prog ∧ bankReady (.sram 1 (0x1307 / 8 * 8)) prog = true :=
  ⟨⟨by decide +kernel, by decide +kernel, by decide, rfl, clean_of rfl rfl, by decide +kernel⟩, by decide +kernel, clean_of rfl rfl, by decide +kernel⟩
/-- A field that ends at the end of %M. -/
theorem test_meets_BitFieldsMoveBetweenMemoryAndRegister :
    FieldAt 4 2 0 32 1 (fun i => 0x1200 + i / 8) prog ∧ FieldAt 4 2 992 32 1 (fun i => 0x1200 + (992 + i) / 8) prog ∧
    prog.cores[(4 : CoreId)].arch.reg 9 = BitVec.ofNat 32 (2 * 2 ^ 30 + 0) := by
  refine ⟨⟨by decide, by decide +kernel, rfl, fun _ _ => clean_of rfl rfl, by decide +kernel⟩, ⟨by decide, by decide +kernel, rfl, fun _ _ => clean_of rfl rfl, by decide +kernel⟩, by decide +kernel⟩

/-- The timer at g5 with ET = 5, PT = 9, LAST = 0 and flags `f`, p1 the input, cycle 1. -/
def timed (f : Byte) (inp : Bool) : State :=
  let s := writeBytes 1 0x1208 [5, 0, 0, 0, 9, 0, 0, 0, f] prog
  modArch 4 (fun a => { a with p := if inp then 2 else 0 }) { s with cyc := { s.cyc with count := 1 } }
theorem instAt_timed (f : Byte) (inp : Bool) (m : f ∈ [(0 : Byte), 1, 3, 4]) : InstAt 4 0x02001200 32 32 3 1 0x1200 (timed f inp) := by
  simp only [List.mem_cons, List.not_mem_nil, or_false] at m
  rcases m with rfl | rfl | rfl | rfl <;> cases inp <;> exact ⟨by decide +kernel, rfl, fun _ _ => clean_of rfl rfl, by decide +kernel⟩
/-- The states of the flags that the clauses name, with either input. -/
theorem test_meets_TimersFollowTheirRules : ∀ f ∈ [(0 : Byte), 1, 3, 4], ∀ inp : Bool,
    InstAt 4 ((timed f inp).cores[(4 : CoreId)].arch.reg 5) 32 32 3 1 0x1200 (timed f inp) ∧ Ready h (timed f inp) ∧ Inv (timed f inp) ∧ NoRuns (timed f inp) ∧
    (timed f inp).cores[(4 : CoreId)].arch.pred 1 = inp ∧ readByte 1 0x1210 (timed f inp) = f := by
  intro f m inp
  have r : (timed f inp).cores[(4 : CoreId)].arch.reg 5 = 0x02001200 := by cases inp <;> rfl
  rw [r]
  refine ⟨instAt_timed f inp m, ?_⟩
  simp only [List.mem_cons, List.not_mem_nil, or_false] at m
  rcases m with rfl | rfl | rfl | rfl <;> cases inp <;>
    exact ⟨{ issues_of _ (by decide +kernel) rfl with noRpt := rfl, noDelay := rfl, noOpens := rfl }, inv_of (by decide +kernel), noRuns_of _ (by decide +kernel), by decide +kernel,
      by decide +kernel⟩
theorem test_meets_CountersCountRisingInputs : InstAt 4 (prog.cores[(4 : CoreId)].arch.reg 8) 16 8 2 1 0x1240 prog :=
  ⟨by decide +kernel, rfl, fun _ _ => clean_of rfl rfl, by decide +kernel⟩
theorem mayVote {l : Fin 3} {g : Fin 2} {s : State} (m : s.voter.grp[g].members.getLsbD l.val = true) (u : s.voter.grp[g].mute.getLsbD l.val = false)
    (n : s.voter.grp[g].vp = none) : MayVote l g s := ⟨m, u, fun p e => by rw [n] at e; cases e⟩
theorem test_meets_PrefixesStartRepetitionsAndVotesContribute :
    (prog.cores[(4 : CoreId)].arch.reg 3).toNat ≤ 4096 ∧ (prog.cores[(4 : CoreId)].arch.reg 10).toNat = 0 ∧ laneOf 4 = some (0, 0) ∧ MayVote 0 0 prog :=
  ⟨by decide +kernel, by decide +kernel, by decide +kernel, mayVote (by decide +kernel) (by decide +kernel) (by decide +kernel)⟩

/-- An interlocking of one route over one section, with one point. -/
def fref : FieldRef := { conn := 0, bit := 0, width := 1 }
def route0 : RouteDecl :=
  { signal := 0, proceedVal := 1, sections := [0], points := [], overlap := none, flank := none, approach := [0], approachUs := 1000, emergencyUs := 2000 }
def ixl0 : IxlDecl :=
  { routes := [route0], points := [{ sec := 0, det := fref, normVal := 0, revVal := 1, cmd := fref, cmdNorm := 0, cmdRev := 1, cmdNone := 2, moveUs := 100 }]
    signals := [{ cmd := fref, stopVal := 0, lampProceed := fref, lampStop := fref, showsStop := fref }], sections := [{ rep := fref, clearVal := 0, occVal := 1 }]
    overlaps := [], flanks := [], conflicts := [], lvec := 0x600000, holdUs := 0 }
/-- The interlocking is TX0's program, and no unit is armed. -/
def unarmed : State := modDom 4 (fun x => { x with image := some { img with ixl := some ixl0 } }) prog
/-- Lane A's unit has 3 routes: matrix at 0x4000, lock vector at 0x2000, both all 0. -/
def rmu : State := { unarmed with rmus := prog.rmus.set 0 { prog.rmus[(0 : Fin 3)] with armed := true, routes := 3, base := 0x4000, lvec := 0x2000 } }
/-- With route 2 locked, and in conflict with route 1. -/
def rmu2 : State := writeBytes 1 0x4200 [4] (writeBytes 1 0x2000 [4] rmu)
theorem ready_rmu : Ready h rmu ∧ Ready h rmu2 ∧ Ready h unarmed := by
  refine ⟨?_, ?_, ?_⟩ <;> exact { issues_of _ (by decide +kernel) rfl with noRpt := rfl, noDelay := rfl, noOpens := rfl }
theorem test_meets_RmuInstructionsLockAndReleaseRoutes :
    InTable 0 2 rmu ∧ InTable 0 1 rmu2 ∧ InTable 0 2 rmu2 ∧ (laneLockBit 0 2 rmu = false ∧ ∀ i, i < 4096 → i ≠ 2 → rowBit 0 2 i rmu = true → laneLockBit 0 i rmu = false) ∧
    laneLockBit 0 2 rmu2 = true ∧ rowBit 0 1 2 rmu2 = true ∧ laneLockBit 0 1 rmu2 = false ∧ (∀ j, j < 2 → j ≠ 1 → rowBit 0 1 j rmu2 = true → laneLockBit 0 j rmu2 = false) ∧
    rmu.rmus[(0 : Fin 3)].routes.toNat ≤ 3 ∧ unarmed.rmus[(0 : Fin 3)].armed = false ∧ Inv rmu2 ∧ NoRuns rmu2 ∧ laneOf 4 = some (0, 0) ∧
    (∀ s ∈ [rmu, rmu2, unarmed], (ixlOf s).map (·.1) = some 0 ∧ MayVote 0 0 s) := by
  refine ⟨⟨rfl, by decide +kernel, clean_of rfl rfl⟩, ⟨rfl, by decide +kernel, clean_of rfl rfl⟩, ⟨rfl, by decide +kernel, clean_of rfl rfl⟩,
    ⟨by decide +kernel, fun i _ _ e => ?_⟩, by decide +kernel, by decide +kernel, by decide +kernel, by decide +kernel, by decide +kernel, rfl, inv_of (by decide +kernel),
    noRuns_of _ (by decide +kernel), rfl, fun s m => ?_⟩
  case refine_2 =>
    simp only [List.mem_cons, List.not_mem_nil, or_false] at m
    rcases m with rfl | rfl | rfl <;> exact ⟨by decide +kernel, mayVote (by decide +kernel) (by decide +kernel) (by decide +kernel)⟩
  have z : rowBit 0 2 i rmu = false := by
    simp only [rowBit]
    have q : readByte (1 + (0 : Fin 3).val) (rmu.rmus[(0 : Fin 3)].base.toNat % 2 ^ 24 + 512 * 2 + i / 8) rmu = 0 := by
      have q : rmu.mem = [] := by decide +kernel
      have b : rmu.rmus[(0 : Fin 3)].base.toNat = 0x4000 := rfl
      rw [readByte, q, b, memFind, memFill, show memKey (1 + (0 : Fin 3).val) (0x4000 % 2 ^ 24 + 512 * 2 + i / 8) / 2 ^ 36 = 1 by unfold memKey; omega]
      rfl
    rw [q]; simp
  simp [z] at e

/-- CRC-32C with its register evaluated at every byte, as long lists need it. -/
def crcGo : List Byte → Nat → Nat
  | [], c => c
  | b :: bs, c => match (times 8 crc32cBit (BitVec.ofNat 32 c ^^^ b.setWidth 32)).toNat with
    | 0 => crcGo bs 0
    | n + 1 => crcGo bs (n + 1)
theorem crcGo_eq (bs : List Byte) (c : Word) : crcGo bs c.toNat = (bs.foldl (fun c b => times 8 crc32cBit (c ^^^ b.setWidth 32)) c).toNat := by
  induction bs generalizing c with
  | nil => rfl
  | cons b bs ih =>
    rw [List.foldl_cons, ← ih, crcGo, BitVec.ofNat_toNat, BitVec.setWidth_eq]
    split <;> rename_i e <;> rw [e]
theorem crc_eq : crc32c = fun bs => ~~~ BitVec.ofNat 32 (crcGo bs 0xFFFFFFFF) := by
  funext bs
  have e := crcGo_eq bs 0xFFFFFFFF
  rw [show (0xFFFFFFFF : Word).toNat = 0xFFFFFFFF from rfl] at e
  rw [crc32c, e, BitVec.ofNat_toNat, BitVec.setWidth_eq]

/-- The same for the CRC-64. -/
def crc64Go : List Byte → Nat → Nat
  | [], c => c
  | b :: bs, c => match (times 8 crc64Bit (BitVec.ofNat 64 c ^^^ (b.setWidth 64 : Long) <<< (56 : Nat))).toNat with
    | 0 => crc64Go bs 0
    | n + 1 => crc64Go bs (n + 1)
theorem crc64Go_eq (bs : List Byte) (c : Long) : crc64Go bs c.toNat = (bs.foldl (fun c b => times 8 crc64Bit (c ^^^ (b.setWidth 64 : Long) <<< (56 : Nat))) c).toNat := by
  induction bs generalizing c with
  | nil => rfl
  | cons b bs ih =>
    rw [List.foldl_cons, ← ih, crc64Go, BitVec.ofNat_toNat, BitVec.setWidth_eq]
    split <;> rename_i e <;> rw [e]
theorem crc64_eq : crc64 = fun bs => BitVec.ofNat 64 (crc64Go bs 0) := by
  funext bs
  have e := crc64Go_eq bs 0
  rw [show (0 : Long).toNat = 0 from rfl] at e
  rw [crc64, e, BitVec.ofNat_toNat, BitVec.setWidth_eq]

/-! ## Premises about events

Where a clause needs a state that another clause's premises exclude, it gets one of its own. -/

/-- A cycle runs in `prog`, whose pair 0 and lane group TX0 run; input ready has not been set. -/
def task0 : TaskDecl := { prio := 1, kind := .cyclic 1 0, mode := 0, entry := 0, privBase := 0, inputs := [], auto := [] }
/-- An image with one task. -/
def img1 : Image := { img with tasks := [task0] }
/-- Domain `d` runs `img1`. -/
def running (d : DomId) (s : State) : State :=
  modDom d (fun x => { x with image := some img1, run := true, tasks := x.tasks.set 0 { x.tasks[(0 : Fin 16)] with open_ := 0 } }) s
/-- Module in RUN, cycle 5 running, pair 0 and TX0 running. -/
def cycling : State :=
  let s := running 4 (running 0 live)
  { s with cyc := { s.cyc with running := true, count := 5, tk := 1000, tb := 2000 }, arb := { s.arb with oper := .run } }
/-- `s` at tick `n`. -/
def at_ (n : Long) (s : State) : State := { s with cyc := { s.cyc with tb := n } }
/-- Input ready is set. -/
def ready_ : State := { cycling with cyc := { cycling.cyc with ir := some 3500 } }
/-- Pair 0's task `0` is active on its core, due in cycle `d`. -/
def active (d : Nat) : State :=
  modCore (pairCore 0) (fun k => { k with task := some 0, stopped := false }) (modDom (pairDom 0) (fun x => { x with tasks := x.tasks.set 0 { x.tasks[(0 : Fin 16)] with open_ := 1, deadline := d } }) ready_)
/-- TX0 has passed its end-of-cycle vote. -/
def voted : State := { active 5 with voter := { (active 5).voter with grp := (active 5).voter.grp.set 0 { (active 5).voter.grp[(0 : Fin 2)] with eocAt := some 5, lastEoc := true } } }
/-- A ring train is under way, and nothing has come back. -/
def awaiting : State :=
  let l : Layout := { confId := 1, coaches := [{ addr := 1, cls := 0, olen := 1, ilen := 1, subst := none }], slots := 1, fsize := 64, sources := [], revert := 0, roundTripPs := 0, mailbox := none }
  let x : Train := { cyc := 5, frames := [[]], ports := [1, 3], on := #v[true, true], rets := [], got := .replicate 2 [], lead := .replicate 2 false, late := false, looped := false
                     validAt := none, compared := false }
  { cycling with ring := { cycling.ring with cfg := 0x88B50001, dim := .nativeDual, on := .replicate 2 true, layout := some l, train := some x } }
/-- Its train, every coach valid at tick `v`. -/
def returned (v : Option Long) : State := at_ 626000 { awaiting with ring := { awaiting.ring with train := awaiting.ring.train.map fun x => { x with validAt := v } } }
theorem test_meets_CycleEventsAdvanceTheControlCycle :
    (let s := at_ 1251000 { cycling with cyc := { cycling.cyc with dl := true } }
     tkDue s = true ∧ tkDue (at_ 1250999 s) = false ∧ tkDue { cycling with cyc := { cycling.cyc with t0 := some 2000 } } = true) ∧
    (let s := at_ 3500 cycling
     irAwaited s = true ∧ nothingAwaited s = true ∧ (s.cyc.tk + 2500).toNat ≤ s.cyc.tb.toNat) ∧
    (irAwaited (returned (some 3000)) = true ∧ (returned (some 3000)).ring.dim ≠ .off ∧ (returned (some 3000)).ring.train.bind (·.validAt) = some 3000 ∧
      (returned (some 626000)).ring.train.bind (·.validAt) = some 626000 ∧
      (626000 : Long).toNat ≤ ((returned none).cyc.tk + BitVec.ofNat 64 ((returned none).cyc.retlim.toNat * 125)).toNat) ∧
    (readyAt (returned none) = none ∧ readyAt (returned (some 626001)) = none ∧
      ((returned none).cyc.tk + BitVec.ofNat 64 ((returned none).cyc.retlim.toNat * 125)).toNat ≤ (returned none).cyc.tb.toNat) := by
  decide +kernel
theorem test_meets_CycleEventsAdvanceTheControlCycle_tasks :
    (ready_.doms[pairDom 0].image = some img1 ∧ pairReleaseDue 0 (at_ 3625 ready_) = true ∧ pairReleaseDue 0 (at_ 3624 ready_) = false ∧
      img1.tasks[(0 : Fin 16).val]? = some task0 ∧ task0.kind = .cyclic 1 0 ∧ ready_.cyc.count.toNat % 1 = 0 ∧ ready_.doms[pairDom 0].tasks[(0 : Fin 16)].active = false ∧
      ready_.doms[pairDom 0].skipNext = false ∧ (modDom (pairDom 0) (fun x => { x with skipNext := true }) ready_).doms[pairDom 0].skipNext = true) ∧
    (ready_.doms[groupDom 0].image ≠ none ∧ agreementDue 0 (at_ 10000 ready_) = true) ∧
    ((active 5).cores[pairCore 0].task = some 0 ∧ (active 5).cores[pairCore 0].stopped = false ∧ (active 5).doms[pairDom 0].tasks[(0 : Fin 16)].open_.getLsbD 0 = true ∧
      noRelease (active 5) = false) ∧
    (let s := at_ 1244750 voted
     deadlineDue s = true ∧ deadlineDue (at_ 1244749 s) = false ∧ quiet s = false ∧
     (∀ g : Fin 2, s.doms[groupDom g].run = true → s.voter.grp[g].eocAt = some s.cyc.count ∧ s.voter.grp[g].voted = []) ∧
     inSafe s = false ∧ s.doms[pairDom 0].run = true ∧ s.doms[pairDom 0].stopDue = false ∧ s.arb.oper ≠ .hold ∧ overrunning (pairDom 0) s = true ∧ overrunning (pairDom 0) (active 6) = false ∧
     s.doms[groupDom 0].run = true ∧ s.voter.grp[(0 : Fin 2)].lastEoc = true) ∧
    (let s := modDom 0 (fun x => { x with ovrRun := 8 }) { ready_ with cyc := { ready_.cyc with dl := true } }
     s.doms[pairDom 0].run = true ∧ s.cyc.dl = true ∧ ovrLimit 0 s ≤ s.doms[pairDom 0].ovrRun.toNat) := by
  decide +kernel

/-- The Steward's access. -/
def stw : Access := { master := .steward, atK := true }
/-- The Steward's shadow sequence began at tick 750 (1 249 999 ticks ago, or at the limit). -/
def shadowed (t0 : Long) : State :=
  { live with cyc := { live.cyc with tb := 1250749 }, rtc := { live.rtc with shadow := live.rtc.shadow.set 0 { live.rtc.shadow[(0 : Fin 5)] with start := some t0, count := 1 } } }
theorem test_meets_ShadowReadsKeepOneInstant : pdOn .vote live = true ∧ stw.master = .steward ∧ rtcShadowOf stw.master = some 0 ∧ pdOn .aon live = true ∧
    (∃ t0, (shadowed 750).rtc.shadow[(0 : Fin 5)].start = some t0 ∧ ((shadowed 750).cyc.tb - t0).toNat < 1250000) ∧
    (∀ t0, (shadowed 749).rtc.shadow[(0 : Fin 5)].start = some t0 → 1250000 ≤ ((shadowed 749).cyc.tb - t0).toNat) :=
  ⟨by decide +kernel, by decide +kernel, by decide +kernel, by decide +kernel, ⟨750, by decide +kernel, by decide +kernel⟩, fun t0 e => by cases e; decide +kernel⟩

/-- The clock stands at the end of 29 February 2024. -/
def clocked (sh : Option (BitVec 16)) : State := { live with rtc := { live.rtc with time := 0x00235959, date := 0x20240229, nvalid := true, bvalid := true, shift := sh, bin := 100, frac := 0xFFFFFFFF, acc := rtcParts } }
theorem test_meets_ClockCommandsSetAndAdvanceTheTime :
    (secondDue (clocked none) = true ∧ (clocked none).rtc.step = none ∧ calLast (calOf (clocked none).rtc.time (clocked none).rtc.date) = false) ∧
    ((clocked (some 3)).rtc.shift = some 3 ∧ (3 : BitVec 16).msb = false) ∧ ((clocked (some 0x8001)).rtc.shift = some 0x8001 ∧ (0x8001 : BitVec 16).msb = true) ∧
    (stw.master = .steward ∧ pdOn .aon live = true) ∧ calImpossible 0x00240000 0x20240229 = true ∧ calImpossible 0x00235959 0x20240229 = false ∧ calImpossible 0 0x20230229 = true ∧
    (dstRefusal true (clocked none) = none ∧ dstRefusal false (clocked none) ≠ none) ∧
    ((0x7FFF : BitVec 16) ≠ 0 ∧ (0x7FFF : BitVec 16) ≠ 0x8000 ∧ (clocked none).rtc.shift = none) ∧
    (let v : Word := 0x80000000
     v.getLsbD 31 = true ∧ ((v.setWidth 8).append ((0 : BitVec 40).setWidth 32) : BitVec 40).toNat ≤ (clocked none).rtc.bin.toNat) ∧
    ((67107840 : Word).setWidth 26 : BitVec 26).toNat ≤ 67107840 ∧ (let s : State := { live with rtc := { live.rtc with wake := 1, wakeAcc := 1250000000 } }
     s.rtc.wake ≠ 0 ∧ s.rtc.wake.toNat * 1250000000 ≤ s.rtc.wakeAcc) := by decide +kernel

/-- A paired unit, its sync link up. -/
def pairedWith (role : Role) (f : SyncLink → SyncLink) : State :=
  { cycling with hsb := { cycling.hsb with cfg := 0x88B6FC23, role := role, orig := true, epoch := 1, cmpRun := 16 }, sync := f { cycling.sync with up := true, pRole := 2 }
                 power := { cycling.power with sfp := .good } }
/-- A message of the other unit. -/
def msg : SyncHdr := { src := 6, ver := 1, unit := true, role := 2, mseq := 1, cyc := 5, epoch := 1, crc := 0 }
/-- `m` with the CRC of its bytes. -/
def signed (m : SyncHdr) (type : Byte) (body : List Byte) : SyncHdr :=
  { m with crc := crc32c (syncBytes m.ver type (BitVec.ofNat 8 (bitOf m.unit + 2 * m.role.toNat)) m.mseq m.cyc m.epoch body) }
theorem valid_signed (m : SyncHdr) (type : Byte) (body : List Byte) (s : State) (v : m.ver = 1) (u : m.unit ≠ unit s) : syncValid (signed m type body) type body s = true := by
  simp [syncValid, signed, v, u]
theorem test_meets_SyncMessagesHaveTheirEffects_valid (type : Byte) (body : List Byte) :
    syncValid { msg with ver := 2 } type body (pairedWith .primary id) = false ∧ syncValid (signed msg type body) type body (pairedWith .primary id) = true ∧
    syncValid (signed { msg with role := 1 } type body) type body (pairedWith .alone fun k => { k with listening := true }) = true ∧
    syncValid (signed msg type body) type body (pairedWith .standby id) = true ∧
    ∀ n, syncValid (signed msg type body) type body (pairedWith .syncing fun k => { k with resync := { k.resync with state := n } }) = true :=
  ⟨rfl, valid_signed _ _ _ _ rfl (by decide +kernel), valid_signed _ _ _ _ rfl (by decide +kernel), valid_signed _ _ _ _ rfl (by decide +kernel),
    fun n => valid_signed _ _ _ _ rfl (show true ≠ unit (pairedWith .primary id) by decide +kernel)⟩
/-- A HELLO of a partner without images, with versions 1 of both interfaces. -/
def hello : HelloBody := { images := .replicate 6 0, setId := 0, confId := 0, syncVer := 1, mbxVer := 1 }
/-- A DELTA of no bytes. -/
def delta0 : DeltaBody := { area := 0, offset := 0, data := [], crc := crc32c [] }
theorem test_meets_SyncMessagesHaveTheirEffects :
    paired (pairedWith .primary id) = true ∧
    (({ msg with role := 1 } : SyncHdr).role = 1 ∧ (pairedWith .alone fun k => { k with listening := true }).sync.listening = true ∧
      hello.confId = ((pairedWith .alone id).ring.layout.map (·.confId)).getD 0) ∧
    (((0x100000005 : Long) >>> 32).setWidth 32 = (pairedWith .standby id).hsb.epoch) ∧
    (pairedWith .primary id).sync.cons = none ∧ ((pairedWith .primary fun k => { k with cons := some ⟨5, 1, 0, false, none⟩ }).sync.cons ≠ none) ∧
    ((pairedWith .standby id).hsb.role = .standby ∧ (pairedWith .standby id).arb.oper = .run) ∧
    (let s := pairedWith .primary fun k => { k with prepM := some 6 }
     s.sync.prepM = some 6 ∧ s.hsb.role = .primary ∧ s.cyc.count + 1 = 6 ∧ since s.cyc.tk s ≤ deadlineTicks s) ∧
    (let s := pairedWith .standby id
     pairNo s.cyc.count s = 5 ∧ since s.cyc.tk s < deadlineTicks s) ∧ delta0.crc = crc32c delta0.data ∧
    ((pairedWith .syncing fun k => { k with resync := { k.resync with state := 1 } }).sync.resync.state = 1 ∧ (pairedWith .syncing fun k => { k with resync := { k.resync with state := 3 } }).sync.resync.state = 3) ∧
    ([] ≠ groupCrcs (pairedWith .syncing id)) ∧ (let s := pairedWith .alone fun k => { k with up := false, msgRun := 3 }
     s.sync.up = false ∧ s.power.sfp = .good ∧ 3 ≤ s.sync.msgRun) ∧ (pairedWith .primary id).sync.up = true ∧ memWf (pairedWith .syncing id).mem := by decide +kernel

/-- A HELLO of a partner with the same programs and versions is needed for a resynchronisation. -/
def leading (r : Role) (f : SyncLink → SyncLink) : State :=
  let s := pairedWith r f
  { s with hsb := { s.hsb with committed := some 2, seen := 0, silent := 255, left := 0, susp := 16 } }
theorem test_meets_LeaseAndResynchronisationMoveTheRole :
    let n := nextEpoch false 0
    (n = 2 ∧ n < 2 ^ 32 ∧ unit (pairedWith .syncing id) = false ∧ (leading .syncing id).hsb.committed = some (BitVec.ofNat 32 n)) ∧
    (let s := at_ 1255000000 (leading .syncing fun k => { k with listening := true, listenAt := 0 })
     s.sync.listening = true ∧ listenTicks s ≤ since s.sync.listenAt s) ∧ (pairedWith .syncing id).hsb.committed ≠ some (BitVec.ofNat 32 n) ∧
    (let s := at_ 1000 (leading .standby fun k => { k with relqGot := some 4 })
     s.hsb.role = .standby ∧ atTk s = true ∧ leaseLen s + 1 ≤ s.hsb.silent.toNat ∧ s.doms[groupDom 0].image = some img1 ∧
     s.sync.relqGot = some 4 ∧ (4 : Long).toNat < (pairNo s.cyc.count s).toNat) ∧
    ((leading .primary id).hsb.role = .primary ∧ (leading .primary id).hsb.orig = true ∧ (leading .primary id).hsb.left = 0) ∧
    (let s := pairedWith .primary fun k => { k with cons := some ⟨2, 1, 1, true, some 0⟩ }
     s.sync.cons = some ⟨2, 1, 1, true, some 0⟩ ∧ (2 : Long).toNat + 3 ≤ (pairNo s.cyc.count s).toNat) ∧
    (let s := pairedWith .primary id
     s.hsb.reqBusy = false ∧ s.sync.pRole = 2 ∧ s.sync.up = true ∧ 16 ≤ s.hsb.cmpRun.toNat ∧ inSafe s = false ∧ s.sync.prepM = none ∧ s.sync.relqSent = none ∧ paired s = true) ∧
    (let s := at_ 1244750 (pairedWith .primary fun k => { k with prepM := some 6 })
     s.sync.prepared = false ∧ pastDeadline (6 - 1) s = true) ∧
    (let s := at_ 75000000001 (pairedWith .syncing fun k => { k with resync := { k.resync with failedAt := some 1 }, pRole := 1, pHello := some hello })
     s.hsb.role = .syncing ∧ s.sync.up = true ∧ s.sync.pRole = 1 ∧ inSafe s = false ∧ s.sync.resync.state = 0 ∧ s.sync.resync.failedAt = some 1 ∧ 75000000000 ≤ since 1 s ∧
     versionsOk s = true) ∧
    (let s (n : BitVec 2) (p : BitVec 16) := pairedWith .syncing fun k => { k with resync := { k.resync with state := n, progress := p } }
     (s 3 16).sync.resync.state = 3 ∧ 16 ≤ (s 3 16).sync.resync.progress.toNat ∧ (s 2 1024).sync.resync.state = 2 ∧ 1024 ≤ (s 2 1024).sync.resync.progress.toNat ∧
     (s 1 0).sync.resync.state = 1 ∧ (s 1 0).sync.resync.want = [] ∧ (s 1 0).sync.pHello = none) ∧
    (let s := leading .standby id
     s.doms[(4 : DomId)].change.dim = .none ∧ s.hsb.role = .standby ∧ s.hsb.susp.getLsbD (4 : DomId).val = true) := by
  decide +kernel
/-- Both epoch pages hold epoch 2. -/
theorem test_meets_LeaseAndResynchronisationMoveTheRole_commit :
    let c := recordCopy 3 1 (leBytes 4 2)
    let s : State := { live with ps := { live.ps with pages := [(4, c), (5, c)] }, hsb := { live.hsb with wantEpoch := some 2 } }
    s.hsb.wantEpoch = some 2 ∧ ∀ p ∈ [page 4 s, page 5 s], copyValid 3 p = true ∧ sliceNat 0 4 (copyPayload p) = (2 : Word).toNat := by
  simp only [copyValid, recordCopy, crc_eq]
  decide +kernel

/-- A cyclic frame of the originator's train: frame 0 of cycle 5. -/
def trainFrame : Frame := { dst := 0xFFFFFFFFFFFF, src := 1, etype := 0x88B5, payload := [1, 0, 0, 0, 5, 0, 0, 0] ++ List.replicate 60 0, fcsGood := true }
/-- A lead coach of epoch 1 and CONF_ID 1 before its CRC, in a frame. -/
def lead0 : List Byte := leBytes 2 0 ++ [8] ++ List.replicate 19 0 ++ leBytes 4 1 ++ leBytes 4 0 ++ leBytes 4 1 ++ leBytes 4 0
def leadFrame : List Byte := [1, 0, 0, 0, 5, 0, 0, 0] ++ lead0 ++ leBytes 4 (crc32c lead0).toNat
/-- Time sources at ranks 0 and 1 of a layout with one station. -/
def sourced (f : Rtm → Rtm) : State :=
  { awaiting with rtm := f awaiting.rtm, ring := { awaiting.ring with layout := awaiting.ring.layout.map fun l => { l with sources := [1, 1], revert := 2 } }, hsb := { awaiting.hsb with orig := true } }
/-- The compatible ring; `loop`, the station before which it is closed. -/
def loopRing (loop : Option Nat) : State :=
  { sourced id with ring := { (sourced id).ring with cfg := 0x88B50004, dim := .compatLoop, on := #v[true, false] }, rtm := { awaiting.rtm with loop := loop } }
/-- The standby of a pair, with that ring. -/
def relaying : State := { awaiting with hsb := { awaiting.hsb with cfg := 0x88B6FC23, role := .standby, orig := false } }
theorem test_meets_RingFramesLinksAndBreaksAreRecorded :
    (portActive 0 awaiting = true ∧ portReceives 0 awaiting = true ∧ portReceives 3 awaiting = false ∧ awaiting.ring.on[(0 : Fin 2)] = true ∧ awaiting.ring.cfg = 0x88B50001) ∧
    ({ trainFrame with etype := 0x0800 } : Frame).etype.toNat ≠ field awaiting.ring.cfg 16 16 ∧
    trainFrame.etype.toNat = field awaiting.ring.cfg 16 16 ∧ (sourced id).hsb.orig = true ∧ trainFrame.src = (sourced id).fuses.mac + 1 ∧
    (sliceNat 0 1 trainFrame.payload = 1 ∧ (sourced id).ring.train.any (fun x => sliceNat 4 4 trainFrame.payload = x.cyc.toNat % 2 ^ 32 ∧
      x.got[(0 : Fin 2)].contains (sliceNat 1 1 trainFrame.payload) = false) = true ∧
      ((sourced id).ring.layout.bind fun l => (layoutFrames l)[sliceNat 1 1 trainFrame.payload]?).isSome = true) ∧
    (relaying.hsb.orig = false ∧ paired relaying = true ∧ portReceives 2 relaying = true ∧ relaying.ring.on[(1 : Fin 2)] = true) ∧
    (∀ o ∈ ([none, some 0] : List (Option Nat)), portReceives 1 (loopRing o) = true ∧ (loopRing o).hsb.orig = true ∧ (loopRing o).ring.on[(0 : Fin 2)] = true ∧
      (loopRing o).rtm.loop = o ∧ 0 < (coachesOf (loopRing o)).length ∧ (loopRing o).ring.dim = .compatLoop) ∧
    (followsPrimary (sourced id) = false ∧
      sourceChoice (sourced fun m => { m with tsrc := 1, ranks := m.ranks.set 0 { valid := 2, missing := 0, last := none, now := some 3 } }) = some (some 0) ∧
      sourceChoice (sourced fun m => { m with ranks := m.ranks.set 0 { valid := 0, missing := 3, last := none, now := none } }) = some none) ∧
    (awaiting.rtm.brk[(0 : Fin 2)] = false ∧ ringLinked 0 awaiting = false ∧ portMode awaiting = .full2500 ∧ portMode (loopRing none) = .full1000) ∧
    (let s := sourced fun m => { m with brk := m.brk.set 0 true, good := m.good.set 0 3, bad := m.bad.set 1 3 }
     s.rtm.brk[(0 : Fin 2)] = true ∧ 3 ≤ s.rtm.good[(0 : Fin 2)] ∧ 3 ≤ s.rtm.bad[(1 : Fin 2)]) := by decide +kernel
/-- A lead coach that the standby accepts. -/
theorem test_meets_RingFramesLinksAndBreaksAreRecorded_lead : leadAccepted leadFrame relaying = true ∧ sliceNat 1 1 leadFrame = 0 := by
  simp only [leadAccepted, leadGood, leadFrame, crc_eq]
  decide +kernel

/-- Ring freight to station 1. -/
def req1 : FrtReq := { src := 1, op := 1, path := [1], index := 0, data := [0] }
def freighting (f : Ring → Ring) : State := { awaiting with ring := f { awaiting.ring with frtOn := true } }
/-- A request sent first in cycle 1, past its budget in cycle 5. -/
def item1 : FrtItem := { slot := 0, req := req1, use := .program, attempt := 0, poll := false, first := some 1, sentIn := none, pos := 0, withdrawn := false }
theorem test_meets_FreightAndRingSettingsAreKept :
    frtRefusal req1 (freighting id) = none ∧ frtRefusal { req1 with path := [2] } (freighting id) = some .badAddr ∧ frtRefusal req1 awaiting = some .disabled ∧
    (freighting id).ring.items.length < 128 ∧
    (((freighting fun r => { r with items := [item1] }).ring.items.find? fun i => i.slot == 0) = some item1 ∧ item1.first = some 1 ∧
      (1 : Long).toNat + 3 + 2 * (item1.req.path.length - 1) < (freighting id).cyc.count.toNat) ∧
    (let s : State := { freighting id with rtm := { awaiting.rtm with todo := [(1, false)] } }
     s.rtm.todo = [(1, false)] ∧ s.rtm.survState ≠ 1 ∧ s.ring.items = [] ∧
     frtRefusal { src := 0, op := 1, path := [1], index := 0xFFFFFF00, data := List.replicate 12 0 } s = none) ∧
    (awaiting.ring.dim ≠ .off ∧ wantedDim false false awaiting.ring.cfg = .off ∧ ringOffRefusal awaiting = none) ∧
    (let s := pairedWith .primary id
     ringOffRefusal s = some (0x0A, "PAIR_NO_RING")) ∧ ((freighting fun r => { r with enPend := true }).ring.enPend = true) ∧
    cfgLocked awaiting = true ∧ cfgLocked live = false ∧ ringCfgBad 0x88B50001 = false ∧ ringCfgBad 0x88B50007 = true := by decide +kernel

/-- A contribution, and a vote point of TX0 with the given contributions. -/
def con (b : Byte) : Contrib := { kind := .vote, items := [b, 0, 0, 0], crc := 1 }
def voting (got : Vector (Option Contrib) 3) : State := modGroup 0 (fun v => { v with vp := some { kind := .vote, opened := 0, got := got, closed := false } }) ready_
theorem test_meets_VotePointsDecideMembersAndImages :
    (∀ got ∈ [#v[some (con 1), some (con 1), some (con 2)], #v[some (con 1), some (con 1), some (con 1)], #v[some (con 1), some (con 2), some (con 3)]],
      ∃ p, (voting got).voter.grp[(0 : Fin 2)].vp = some p ∧ (∀ l ∈ memberLanes 0 (voting got), p.got[l] ≠ none) ∧ p.kind ≠ .eoc) ∧
    voteEnd [0, 1, 2] { kind := .vote, opened := 0, got := #v[some (con 1), some (con 1), some (con 2)], closed := false } = .pass (con 1) [2] [] ∧
    voteEnd [0, 1, 2] { kind := .vote, opened := 0, got := #v[some (con 1), some (con 1), none], closed := false } = .pass (con 1) [] [2] ∧
    voteEnd [0, 1, 2] { kind := .vote, opened := 0, got := #v[some (con 1), some (con 2), some (con 3)], closed := false } = .safe 1 ∧
    inSafe (voting (.replicate 3 none)) = false ∧ (voting (.replicate 3 none)).voter.grp[(0 : Fin 2)].cand = 0 ∧
    (let s := modReint (fun r => { r with phase := 6 }) (modGroup 0 (fun v => { v with members := 3, cand := 4, voted := [(con 1, 0)], candGot := [con 1] }) ready_)
     s.voter.grp[(0 : Fin 2)].voted = [(con 1, 0)] ∧ s.voter.grp[(0 : Fin 2)].candGot = [con 1] ∧ candLanes 0 s = [2] ∧ s.voter.reint.phase ≠ 0 ∧ s.voter.grp[(0 : Fin 2)].vp = none ∧
     (0 : Long).toNat ≤ s.cyc.tb.toNat ∧ (con 1).kind ≠ .eoc ∧ s.voter.grp[(0 : Fin 2)].cand ≠ 0) ∧
    (let s := at_ 100000 (voting (.replicate 3 none))
     (0 : Long).toNat + field s.voter.grp[(0 : Fin 2)].cfg 8 16 ≤ s.cyc.tb.toNat) ∧
    (let s := modGroup 0 (fun v => { v with agr := #v[0x10, 0, 0] }) ready_
     let v := s.voter.grp[(0 : Fin 2)]
     groupMode v = 2 ∧ v.members.getLsbD 0 = true ∧ field v.cfg 0 8 ≤ v.agr[(0 : Fin 3)] ∧ field v.cfg 0 8 ≠ 0) := by
  refine ⟨fun got m => ⟨{ kind := .vote, opened := 0, got := got, closed := false }, by simp [voting, modGroup], ?_, nofun⟩, by decide +kernel, by decide +kernel, by decide +kernel, by decide +kernel,
    by decide +kernel, by decide +kernel, by decide +kernel, by decide +kernel⟩
  simp only [List.mem_cons, List.not_mem_nil, or_false] at m
  rcases m with rfl | rfl | rfl <;> decide +kernel

/-- A network at 0x100 of lane A's SRAM: 4 nodes of 0, 512 bits, one entry of all nodes, no descriptors, MAX_RUN 9, BLOCK 9. -/
def netBody : List Byte :=
  leBytes 4 0x314E534C ++ leBytes 2 1 ++ leBytes 2 1 ++ leBytes 8 0 ++ leBytes 4 4 ++ leBytes 4 512 ++ leBytes 2 0 ++ [1, 0] ++ leBytes 4 9 ++ leBytes 4 9 ++ leBytes 24 0
def netTail : List Byte := leBytes 4 0 ++ leBytes 4 4 ++ leBytes 56 0 ++ leBytes 32 0
def netImg : List Byte := netBody.take 60 ++ leBytes 4 3078689645 ++ netTail
/-- Its header. -/
def netHdr : NetHdr := { addr := 0x100, nodes := 4, bits := 512, descs := 0, entries := 1, maxRun := 9, block := 9, banks := 0 }
/-- Lane A's instance with `f` on its first queue. -/
def solving (f : LsQueue → LsQueue) : State := modQueue 0 0 (fun q => f { q with imgAddr := 0x02000100 }) (writeBytes 1 0x100 netImg prog)
/-- A run of entry 0. -/
def run0 : LsRun := { entry := 0, start := 5, snap := [] }
theorem test_meets_SolverCommandsRunNetworks :
    (lsReach 4 0 prog).toOption = some 0 ∧ (let s := solving fun q => { q with img := some netHdr }
     s.solvers[(0 : Fin 5)].q[(0 : Fin 2)].img = some netHdr ∧ (0 : BitVec 4).toNat < netHdr.entries ∧ netHdr.entries ≤ (1 : BitVec 4).toNat ∧
     s.solvers[(0 : Fin 5)].q[(0 : Fin 2)].run = none ∧ s.solvers[(0 : Fin 5)].q[(0 : Fin 2)].queued = none ∧ s.cores[(4 : CoreId)].arch.priv = true ∧
     ∀ o ∈ lanesOf (0x3C : BitVec 15).toNat 4, o < netHdr.bits / 8) ∧
    (let s := solving fun q => { q with img := some netHdr, run := some run0 }
     s.solvers[(0 : Fin 5)].q[(0 : Fin 2)].run = some run0 ∧ s.cyc.tb.toNat < run0.start.toNat ∧ lsBusy 0 s = some (0, run0, netHdr) ∧
     runClocks (lsMem 0) netHdr (entryAt (lsMem 0) netHdr 0 s) s ≤ netHdr.maxRun ∧ 0 < runClocks (lsMem 0) netHdr (entryAt (lsMem 0) netHdr 0 s) s) ∧
    readHdr 1 0x100 (solving id) = netHdr ∧ lsOff 0 0x02000100 = 0x100 ∧ (solving id).cores[(4 : CoreId)].arch.priv = true ∧
    (modCore 4 (fun k => { k with arch := { k.arch with priv := false } }) (solving id)).cores[(4 : CoreId)].arch.priv = false ∧
    live.solvers[(3 : Fin 5)].claim = none ∧ live.solvers[(4 : Fin 5)].claim = none ∧ (modSolver 3 (fun v => { v with claim := some 0 }) live).solvers[(3 : Fin 5)].claim ≠ none := by
  decide +kernel
/-- The nodes of that network run without a fault, to the end and with no clocks to run in. -/
theorem test_meets_SolverCommandsRunNetworks_body :
    let s := solving fun q => { q with img := some netHdr, run := some run0 }
    (runBody 0 0 netHdr run0 1 s).1 = none ∧ (runBody 0 0 { netHdr with maxRun := 0 } run0 0 s).1 = none := by decide +kernel
/-- And its image is accepted. -/
theorem test_meets_SolverCommandsRunNetworks_load : lsLoadRefusal 0 0 0x100 0 none (solving id) = none := by
  simp only [lsLoadRefusal, crc_eq]
  decide +kernel

/-- Lane `l` is out of both groups, with the attempt in phase `ph`. -/
def outOf (l : Fin 3) (ph : Fin 8) (f : Reint → Reint) : State :=
  modReint (fun r => f { r with lane := Fin.ofNat 4 (l.val + 1), phase := ph }) (modGroup 0 (fun v => { v with members := Sys2Proof.Machine.setBit 7 l.val false }) ready_)
/-- The key switch at SERVICE. -/
def serviceKey (s : State) : State := { s with arb := { s.arb with key := .service } }
theorem test_meets_VoterRequestsAreRefusedOrTakeEffect :
    ready_.voter.reqBusy = false ∧ reintRefusal 2 (outOf 2 0 id) = none ∧ reintRefusal 2 ready_ = some (0x06, "LANE_NOT_OUT") ∧ maintRefusal 2 ready_ = none ∧
    maintRefusal 1 (outOf 2 0 id) = some (0x07, "WOULD_SAFE") ∧ attachRefusal 2 (serviceKey ready_) = none ∧ attachRefusal 2 ready_ = some (0x08, "DEBUG_KEY") ∧ inSafe ready_ = false ∧
    (modLane 2 (fun x => { x with debug := true }) ready_).voter.lane[(2 : Fin 3)].debug = true ∧ (outOf 2 1 id).voter.reint.phase ≠ 0 := by decide +kernel

theorem test_meets_ReintegrationPassesItsPhases :
    (let s := modGroup 0 (fun v => { v with cfg := 0x8004E210 }) (outOf 2 0 fun r => { r with autoWant := 4 })
     (∀ g ∈ loadedGroups s, s.voter.grp[g].cfg.getLsbD 31 = true) ∧ reintRefusal 2 s = none ∧
     ∀ k : Fin 3, (s.voter.reint.autoWant.getLsbD k.val && s.voter.lane[k].xcause != 8 && s.voter.lane[k].xcause != 9 && s.voter.lane[k].scopeCause != 8 &&
       s.voter.lane[k].scopeCause != 9) = decide (k = 2)) ∧
    (let s := outOf 2 1 id
     s.voter.reint.off = false ∧ s.voter.reint.back = false ∧ wouldStrand 2 s = false ∧ wouldStrand 2 (modGroup 0 (fun v => { v with members := 5 }) s) = true ∧ inSafe s = false) ∧
    ((outOf 2 1 fun r => { r with off := true }).voter.reint.off = true ∧ (outOf 2 1 fun r => { r with back := true }).voter.reint.back = true ∧ (outOf 2 2 id).voter.reint.phase = 2) ∧
    (let s := outOf 2 3 id
     s.voter.reint.phase = 3 ∧ s.voter.reint.copied.getLsbD 2 = false ∧ s.voter.reint.diff = [] ∧ memWf s.mem) ∧
    (let s := outOf 2 4 fun r => { r with since := 64, dirty := [1] }
     s.voter.reint.phase = 4 ∧ s.doms[groupDom 0].image ≠ none ∧ s.voter.reint.clean.getLsbD 0 = false ∧ (∀ n ∈ s.voter.reint.dirty, n < 2 ^ 30) ∧ 64 ≤ s.voter.reint.since) := by
  decide +kernel
/-- The running lanes' memories are alike. -/
theorem test_meets_ReintegrationPassesItsPhases_alike : ∀ j k : Fin 3, j ≠ reintLane (outOf 2 3 id) → k ≠ reintLane (outOf 2 3 id) →
    ∀ o, o < 2 ^ 36 → readByte (laneMem j) o (outOf 2 3 id) = readByte (laneMem k) o (outOf 2 3 id) := by
  have e : (outOf 2 3 id).mem = [] := by decide +kernel
  have z (c o : Nat) (h : o < 2 ^ 36) : readByte c o (outOf 2 3 id) = 0 := by
    rw [readByte, e, memFind, memFill, show memKey c o / 2 ^ 36 = c by unfold memKey; omega]
    unfold polarity
    split <;> rfl
  intro j k _ _ o h
  rw [z _ o h, z _ o h]

/-- A debugger is attached to pair 1, with `n` entries waiting. -/
def echoing (n : Nat) (hl : Bool) : State := modPair 1 (fun p => { p with echo := true, halt := hl, log := List.replicate n { kind := 1, target := 0, count := 0, value := 0 } }) live
theorem echoing_length (n : Nat) (hl : Bool) : (echoing n hl).pairs[(1 : Fin 4)].log.length = n := by simp [echoing, modPair]
theorem test_meets_EchoActionsAreRecordedAndPerformed :
    (∀ (n : Nat) (hl : Bool), (echoing n hl).pairs[(1 : Fin 4)].echo = true ∧ (echoing n hl).pairs[(1 : Fin 4)].halt = hl) ∧
    256 ≤ (echoing 256 true).pairs[(1 : Fin 4)].log.length ∧ (echoing 255 true).pairs[(1 : Fin 4)].log.length < 256 ∧
    locate (.sp 1) ((0x01FFFFFF : Word).toNat / 8 * 8) (echoing 0 true) = .sram 0 0x01FFFFF8 ∧
    locate (.sp 1) 0x01000000 (echoing 0 true) = .sram 0 0x01000000 ∧ pathOk (.sp 1) (.sram 0 0x01000000) true = true ∧ pdOn (wherePd (.sram 0 0x01000000)) (echoing 0 true) = true ∧
    memWf (echoing 0 true).mem :=
  ⟨fun n hl => by simp [echoing, modPair], by rw [echoing_length], by rw [echoing_length]; decide, by decide +kernel, by decide +kernel, by decide +kernel, by decide +kernel,
    by decide +kernel⟩

theorem test_meets_EchoActionsCompleteWithOneEntry (n : Nat) (hl : Bool) (h : n < 256) :
    (echoing n hl).pairs[(1 : Fin 4)].echo = true ∧ (echoing n hl).pairs[(1 : Fin 4)].log.length < 256 ∧ (echoing n hl).pairs[(1 : Fin 4)].halt = hl :=
  ⟨by simp [echoing, modPair], by rw [echoing_length]; exact h, by simp [echoing, modPair]⟩

/-- The module stands in STOP with the key at SERVICE, and word `w` waits to be blown. -/
def blowing (ws : List FuseWord) : State := { serviceKey live with fuses := { live.fuses with blow := ws } }
theorem test_meets_DebugPortAndFusesFollowTheirConditions :
    (let s : State := { live with fuses := { live.fuses with dbgClose := 1 } }
     dbgClosed s = true ∧ serviceOpen s = false ∧ serviceStill s = false) ∧ serviceStill (blowing []) = true ∧ serviceOpen (blowing []) = true ∧ (blowing []).boot.orderly = none ∧
    dbgClosed (blowing []) = false ∧ (∃ l : Fin 3, (3 : Fin 4).val = l.val + 1) ∧ attachRefusal 2 (serviceKey ready_) = none ∧ ready_.voter.reqBusy = false ∧
    (modPair 1 (fun p => { p with echo := true }) live).pairs[(1 : Fin 4)].echo = true ∧ ((blowing []).fuses.blow = [] ∧ (blowing []).ps.cutoff = false) ∧
    (fieldBlank (blowing []).fuses.khash[(7 : Fin 8)] = true ∧ fieldBlank (blowing []).fuses.ckek = true) ∧ (blowing [{ field := 4, index := 8, val := 5 }]).fuses.blow ≠ [] ∧
    stw.master = .steward ∧ (0xF05A : BitVec 16) = 0xF05A := by decide +kernel

theorem test_meets_LaneDebuggerReachesItsLaneOnly : ∃ s : State, s.voter.lane[(2 : Fin 3)].debug = true ∧ pdOn (lanePd 2) s = true ∧ Clean (laneMem 2) [(0xFFFFFF : BitVec 24).toNat / 8] s ∧ Inv s :=
  ⟨modLane 2 (fun x => { x with debug := true }) ready_, by decide +kernel, by decide +kernel, clean_of rfl rfl, inv_of (by decide +kernel)⟩

def img2 : Image := { img1 with ixl := some ixl0 }
/-- TX0 carries it; its route stands as `y`, its point as `q`, its section as `o`. -/
def locking (y : RouteSt) (q : PointSt) (o : Occ) (f : Ixl → Ixl) : State :=
  let s := modGroup 0 (fun v => { v with relAt := some 5 }) (modDom 4 (fun x => { x with image := some img2 }) ready_)
  let x : Ixl := { Ixl.reset with routes := [y], points := [q], signals := [{ aspect := none, proceedGood := false, stopGood := true }], sections := [o], prevSections := [o] }
  { s with ixl := .replicate 3 (f x), rmus := s.rmus.map fun u => { u with armed := true, routes := 1 } }
def point0 : PointSt := { det := .normal, locks := 0, want := none, moving := none, failed := false }
def lockingIn (m : RouteMode) (o : Occ) : State := locking { routeIdle with mode := m } point0 o id
theorem test_meets_InterlockingRequestsAreAnswered :
    (let s := lockingIn .idle .clear
     ixlOf s = some (0, img2, ixl0) ∧ s.doms[groupDom 0].run = true ∧ inStep6 0 s = true ∧ s.voter.grp[(0 : Fin 2)].queue = [] ∧ s.voter.grp[(0 : Fin 2)].vp = none ∧
     runLanes 0 s = [0, 1, 2] ∧ ∀ l ∈ runLanes 0 s, s.ixl[l].holdDone = false) ∧
    inStep6 0 (modGroup 0 (fun v => { v with relAt := none }) (lockingIn .idle .clear)) = false ∧
    (modDom 4 (fun x => { x with run := false }) (lockingIn .idle .clear)).doms[groupDom 0].run = false ∧
    (let s := locking routeIdle point0 .clear fun x => { x with holdDone := true }
     ∀ l ∈ runLanes 0 s, s.ixl[l].holdDone = true) ∧
    (∀ m : RouteMode, m ∈ [.idle, .locked, .set, .cleared, .occupied, .approachLocked, .emergency] →
      (lockingIn m .clear).ixl[(0 : Fin 3)].routes[(0 : Fin 4096).val]? = some { routeIdle with mode := m }) ∧
    ixl0.routes[(0 : Fin 4096).val]? = some route0 ∧
    (locking routeIdle { point0 with locks := 1 } .clear id).ixl[(0 : Fin 3)].points[(0 : Fin 2048).val]? = some { point0 with locks := 1 } := by decide +kernel
/-- A lock of its route gets an answer. -/
theorem test_meets_InterlockingRequestsAreAnswered_vote :
    let s := locking routeIdle point0 .clear fun x => { x with holdDone := true }
    (rmuVote 1 0 0 (runLanes 0 s) s).1.isSome = true := by
  simp only [rmuVote, stateCrc, crc64_eq]
  decide +kernel
theorem test_meets_InterlockingTimersAndArming :
    (let s := locking { routeIdle with mode := .approachLocked, approach := some 0 } point0 .clear id
     ixlOf s = some (0, img2, ixl0) ∧ s.voter.grp[(0 : Fin 2)].vp = none ∧ (0 : Fin 3) ∈ runLanes 0 s ∧
     s.ixl[(0 : Fin 3)].routes[(0 : Fin 4096).val]? = some { routeIdle with mode := .approachLocked, approach := some 0 }) ∧
    (let y : RouteSt := { routeIdle with mode := .occupied, overlap := some 0, wasOcc := [0] }
     passedAll route0 { y with overlap := none, overlapDone := true } = true ∧ passedAll route0 { y with overlap := none, overlapDone := true, wasOcc := [] } = false) ∧
    (locking routeIdle { point0 with moving := some (true, 0) } .clear id).ixl[(0 : Fin 3)].points[(0 : Fin 2048).val]? = some { point0 with moving := some (true, 0) } ∧
    (locking routeIdle point0 .clear fun x => { x with hold := some 0 }).ixl[(0 : Fin 3)].hold = some 0 ∧ pdOn (lanePd 0) lane = true ∧ lane.cores[laneCore 0 0].arch.priv = true ∧
    (modCore 4 (fun k => { k with arch := { k.arch with priv := false } }) lane).cores[laneCore 0 0].arch.priv = false := by decide +kernel

/-! ## Premises about commands of the mailboxes -/

/-- The command under test. -/
def r7 : CmdRef := { sess := 0, tag := 7 }
def slotFor (code : BitVec 16) (d : List Byte) : Slot :=
  { tag := 7, code := code, length := d.length, timeout := 1, partner := false, got := [(0, d)], received := true, recvAt := 0, started := false, wait := .none, tries := 0, donePages := 0,
    car := .freight }
/-- Session 0 is open with every right, and `x` stands in it. -/
def standing (x : Slot) (s : State) : State :=
  { s with mbx := { s.mbx with frt := true, sess := s.mbx.sess.set 0 { s.mbx.sess[(0 : Fin 4)] with st := .opened, rights := 31, slots := [x] } } }
/-- A command with data `d` has been received. -/
def withCmd (code : BitVec 16) (d : List Byte) (s : State) : State := standing (slotFor code d) s
theorem slotOf_standing (x : Slot) (s : State) (t : x.tag = 7) : slotOf r7 (standing x s) = some x := by
  simp [slotOf, sessOf, standing, r7, t]
theorem waits (c : Nat) (code : BitVec 16) (d : List Byte) (s : State) (n : code.toNat = c) (a : serviceOnly s = false) :
    Waits r7 c (slotFor code d) (withCmd code d s) :=
  { slot := slotOf_standing _ s rfl, received := rfl, fresh := ⟨rfl, rfl⟩, codeIs := n, admitted := fun e => absurd (show serviceOnly s = true from e) (by simp [a]) }
/-- Every code's command is found, whatever its data, in a state that is not service-only. -/
theorem waits_ready (code : BitVec 16) (d : List Byte) : Waits r7 code.toNat (slotFor code d) (withCmd code d ready_) ∧ Waits r7 code.toNat (slotFor code d) (withCmd code d live) :=
  ⟨waits _ _ _ _ rfl (by decide +kernel), waits _ _ _ _ rfl (by decide +kernel)⟩

/-- A command that holds no slot. -/
def once (code : BitVec 16) (d : List Byte) (s : State) : State := { s with mbx := { s.mbx with once := [{ ref := r7, code := code, data := d, car := .freight }] } }
/-- `s` long after the start. -/
def late (s : State) : State := at_ 2500000000 s
theorem test_meets_CommandsEndOnce :
    slotOf r7 live = none ∧ (∃ x, slotOf r7 (late (standing { slotFor 0x0101 [] with received := false } live)) = some x ∧ x.received = false ∧ elapsed 2000 x.recvAt (late live) = true) ∧
    (∃ x, slotOf r7 (late (withCmd 0x0101 [] live)) = some x ∧ x.received = true ∧ x.timeout ≠ 0 ∧ Sys2Proof.Machine.passed x = false ∧ elapsed x.timeout x.recvAt (late live) = true) ∧
    (∀ n ∈ [0, 2, 3], ∃ x, slotOf r7 (late (standing { slotFor 0x0101 [] with started := true, wait := .partner, tries := n } live)) = some x ∧ x.started = true ∧ x.wait = .partner ∧ x.tries = n) ∧
    (elapsed 40 0 (late live) = true ∧ elapsed (10 * (2 + 1)) 0 (late live) = true) ∧
    (∃ y u, takeOnce r7 4 (once 4 [7, 0, 0, 0] live) = some (y, u) ∧ y.data.length = 4 ∧ sliceNat 2 2 y.data = 0) ∧
    Sys2Proof.Machine.passed { slotFor 0x0201 [] with started := true, wait := .mode } = true :=
  ⟨by decide +kernel, ⟨_, slotOf_standing _ _ rfl, rfl, by decide +kernel⟩, ⟨_, (waits_ready 0x0101 []).2.slot, rfl, by decide, rfl, by decide +kernel⟩,
    fun n _ => ⟨_, slotOf_standing _ _ rfl, rfl, rfl, rfl⟩, by decide +kernel, ⟨_, _, rfl, rfl, rfl⟩, by decide +kernel⟩

/-- A module with its factory key and no keys in the table. -/
theorem test_meets_SessionsOpenAndClose :
    (∃ y u, takeOnce r7 1 (once 1 ([0, 0, 0, 0] ++ List.replicate 16 9) live) = some (y, u) ∧ (y.data.getD 0 0).toNat < 16 ∧ sliceNat 1 3 y.data = 0) ∧
    (∃ y u, takeOnce r7 1 (once 1 [16] live) = some (y, u) ∧ 16 ≤ (y.data.getD 0 0).toNat) ∧ (openKey 0 live).isSome = true ∧ openKey 15 live = none ∧ freeSess live = some (Fin.ofNat 5 0) ∧
    (∃ y u, takeOnce r7 3 (once 3 [] live) = some (y, u)) ∧ (∃ y u, takeOnce r7 2 (once 2 [] live) = some (y, u) ∧ y.data = []) ∧
    (let s : State := at_ 6250000000 { live with mbx := { live.mbx with sess := live.mbx.sess.set 3 { live.mbx.sess[(3 : Fin 4)] with st := .opening } } }
     s.mbx.sess[(3 : Fin 4)].st = .opening ∧ elapsed 5000 s.mbx.sess[(3 : Fin 4)].openedAt s = true) ∧
    (let s := at_ 75000000000 (withCmd 0x0101 [] live)
     s.mbx.sess[(0 : Fin 4)].st = .opened ∧ elapsed 60000 s.mbx.sess[(0 : Fin 4)].lastAt s = true) :=
  ⟨⟨_, _, rfl, by decide, by decide⟩, ⟨_, _, rfl, by decide⟩, by decide +kernel, by decide +kernel, by decide +kernel, ⟨_, _, rfl⟩, ⟨_, _, rfl, rfl⟩, by decide +kernel, by decide +kernel⟩
/-- The mailbox station has been LOST for 8 s. -/
theorem test_meets_SessionsOpenAndClose_lost :
    mailboxLost (at_ 10000000000 { awaiting with ring := { awaiting.ring with
      layout := awaiting.ring.layout.map fun l => { l with mailbox := some 1 }, stations := [{ status := 0, sstat := 0, input := [], lostAt := some 0 }] } }) = true := by decide +kernel

/-- An IDENT of tag 9 in session 0, TIMEOUT `t`, with the MAC of the empty key. -/
def dgram (code : Nat) (len t : Nat) : List Byte :=
  let b := leBytes 2 0x4D53 ++ [1, 0] ++ leBytes 4 1 ++ leBytes 2 code ++ leBytes 2 9 ++ leBytes 4 len ++ leBytes 4 t ++ leBytes 12 0
  b ++ (hmac [] b).take 16
/-- X6 is up, and session 0 open. -/
def online : State :=
  let s := standing (slotFor 0x0101 []) live
  { s with mbx := { s.mbx with eth := true, ip := 5, frags := [{ ip := 1, port := 1, id := 3, offset := 0, more := true, bytes := [], at_ := 0 }] } }
theorem test_meets_DatagramsAreCheckedAndTaken : x6On online = true ∧ (∃ f ∈ (late online).mbx.frags, f.id = 3 ∧ elapsed 100 f.at_ (late online) = true) ∧ pdOn .stew online = true ∧ online.mbx.frt = true ∧
    (let b := dgram 0x0101 0 0
     let x := online.mbx.sess[(0 : Fin 4)]
     b.length = 48 ∧ sliceNat 3 1 b = (0 : Fin 4).val ∧ x.st ≠ .closed ∧ sseqOk x (sliceNat 4 4 b) = true ∧ check3 b 16 = none ∧
     check4 (parseDg b) (blockSize (.x6 1 1) online) none = none ∧ (codeInfo (parseDg b).code).isSome = true ∧ (parseDg b).code / 256 ≠ 0 ∧
     x.cache.find? (fun y => y.tag == (parseDg b).tag) = none ∧ slotOf { sess := 0, tag := 9 } online = none ∧ x.slots.length < 32 ∧ (parseDg b).flags % 2 = 0 ∧ (parseDg b).timeout = 0) ∧
    live.mbx.sess[(0 : Fin 4)].st = .closed := by decide +kernel
theorem test_meets_DatagramsAreCheckedAndTaken_mac : macOk [] (dgram 0x0101 0 0) = true := by decide +kernel
/-- The partner's reply, and the forwarded command that it answers. -/
def reply (flags : Nat) : List Byte := leBytes 2 0x4D53 ++ [1, 0] ++ leBytes 4 0 ++ leBytes 2 0x8101 ++ leBytes 2 7 ++ leBytes 8 0 ++ leBytes 2 (flags - 1) ++ leBytes 10 0
theorem test_meets_DatagramsAreCheckedAndTaken_partner :
    (let x := { slotFor 0x0101 [] with started := true, wait := .partner }
     let s := standing x (pairedWith .primary id)
     paired s = true ∧ pdOn .stew s = true ∧ slotOf r7 s = some x ∧ x.donePages = 0 ∧
     ∀ f ∈ [1, 2], 32 ≤ (reply f).length ∧ 128 ≤ sliceNat 9 1 (reply f) ∧ ((waiting .partner s).find? fun q => q.tag == (parseDg (reply f)).tag) = some r7 ∧
       sliceNat 20 2 (reply f) % 2 = f - 1 ∧ (parseDg (reply f)).length ≤ (parseDg (reply f)).data.length) := by decide +kernel

theorem test_meets_DatagramsAreCheckedAndTaken_valid (f : Nat) (x : Slot) :
    syncValid (signed msg 0x0B (reply f)) 0x0B (reply f) (standing x (pairedWith .primary id)) = true :=
  valid_signed _ _ _ _ rfl (show true ≠ unit (pairedWith .primary id) by decide +kernel)

/-- The commands' data as each statement's premises read them. -/
theorem test_meets_CommandsReadTheModule :
    slotData (slotFor 0x0101 []) = [] ∧
    (let d := slotData (slotFor 0x0103 [4, 0, 0, 8, 1, 0, 0, 0])
     d.length = 8 ∧ sliceNat 0 4 d % 4 = 0 ∧ sliceNat 4 2 d = 1 ∧ sliceNat 6 2 d = 0 ∧ (stewRead (sliceNat 0 4 d) live).bus.resp ≠ .noPath ∧ (stewRead 0x08014000 live).bus.resp = .noPath) ∧
    (let d (n : Byte) := slotData (slotFor 0x0104 ([1, 0, 0, 0, 0xFF, 0xBF, 0xFF, 0, 0, 0, 0, 0, n, 0, 0, 0]))
     (d 1).length = 16 ∧ sliceNat 0 1 (d 1) ≤ 6 ∧ sliceNat 1 3 (d 1) = 0 ∧ sliceNat 4 8 (d 1) = 0xFFBFFF ∧ sliceNat 4 8 (d 1) + sliceNat 12 4 (d 1) = 0xFFC000 ∧
     0xFFC000 < sliceNat 4 8 (d 2) + sliceNat 12 4 (d 2) ∧ 0xFFC000 ≤ memSize 1 ∧ pdOn (wherePd (memPlace 1 0xFFBFFF)) live = true ∧ live.memErrs = .reset ∧
     pdOn (wherePd (memPlace 1 0xFFBFFF)) State.reset = false ∧ sliceNat 12 4 (d 2) ≤ 65536 ∧ (∀ b ∈ rangeBanks 1 0xFFBFFF 1, live.banks[b] = .active) ∧
     ∃ b ∈ rangeBanks 0 0x200000 1, ({ live with banks := .replicate 33 .retention } : State).banks[b] ≠ .active) ∧ pdOn .aon live = true ∧
    (let d := slotData (slotFor 0x0302 [1, 0, 0, 0])
     d.length = 4 ∧ sliceNat 0 1 d ≤ 1 ∧ sliceNat 1 3 d = 0) ∧ (slotData (slotFor 0x0603 (List.replicate 12 0))).length = 12 ∧ (slotData (slotFor 0x0604 (List.replicate 13 0))).length = 13 ∧
    segBad (List.replicate 12 0 ++ [1, 0, 0, 0] ++ [5]) = none ∧ segBad (List.replicate 17 0) = some 12 := by decide +kernel
theorem test_meets_CommandsReadTheModule_archive : ∀ (code : BitVec 16) (n : Nat),
    slotOf r7 (standing { slotFor code [] with started := true, wait := .archive, tries := n } live) = some { slotFor code [] with started := true, wait := .archive, tries := n } :=
  fun _ _ => slotOf_standing _ _ rfl

theorem test_meets_CommandsOperateTheModule :
    (let d (dim st : Byte) := slotData (slotFor 0x0201 [dim, st, 0, 0])
     (d 0 0).length = 4 ∧ sliceNat 2 2 (d 0 0) = 0 ∧ sliceNat 0 1 (d 0x15 1) = 0x15 ∧ sliceNat 1 1 (d 0x15 1) = 1) ∧
    maBusy ({ ready_ with arb := { ready_.arb with domStop := 1 } } : State) = true ∧ maBusy ready_ = false ∧ modeRefusal 0 3 ready_ = some (0x02, "NOT_REQUESTABLE") ∧
    (modeRefusal 0 1 ready_ = none ∧ sameState 0 1 ready_ = true) ∧ (modeRefusal 0 0 ready_ = none ∧ sameState 0 0 ready_ = false ∧ ready_.arb.oper = .run) ∧
    (let u := withCmd 0x0202 [] live
     u.voter.reqBusy = false ∧ (votReqOp 0x0300 u).1.isSome = true) ∧
    (let s := pairedWith .primary id
     s.hsb.reqBusy = false ∧ ([1, 2, 3, 4].any fun n => (hsbReqOp (BitVec.ofNat 32 n) s).1.isNone && (hsbReqOp (BitVec.ofNat 32 n) s).2.hsb.reqBusy) = true) ∧
    (let d := slotData (slotFor 0x0204 [5, 1, 0, 0])
     d.length = 4 ∧ sliceNat 0 1 d = (5 : DomId).val ∧ sliceNat 1 1 d ≤ 1 ∧ sliceNat 2 2 d = 0) ∧ (rightsOf r7 (withCmd 0x0204 [] live)).getLsbD 4 = true ∧
    (rightsOf r7 live).getLsbD 4 = false ∧ runStateRefusal 0 true ready_ = none ∧ runStateRefusal 1 true ready_ = some (0x0D, "NO_IMAGE") ∧ live.boot.orderly = none := by decide +kernel

/-- A configuration set's values; how a host's bytes spell one is left open (log), so the premises about the set are shown on its value. -/
def cset (lay : Layout) : CfgSet :=
  { period := 0x2710, margin := 0x32, retlim := 0x1388, ovrlim := 0x08080808, ringCfg := 0x88B50001, layout := lay, chans := [], hsbCfg := 0x88B6FC03, escCfg := 0x33, bp := 0, wdg := []
    regions := [], ip := 1, formatVersion := 1 }
def layout0 : Layout := { confId := 1, coaches := [], slots := 0, fsize := 32, sources := [], revert := 3, roundTripPs := 1000000, mailbox := none }
theorem test_meets_CommandsConfigureTheModule :
    cfgLocked ready_ = true ∧ cfgLocked live = false ∧ layoutRefused { layout0 with confId := 0, coaches := [⟨2, 0, 1, 1, none⟩, ⟨1, 0, 1, 1, none⟩] } live = true ∧ layoutRefused layout0 live = false ∧ setBad (cset layout0) live = false ∧
    setBad { cset layout0 with margin := 9 } live = true ∧
    (let d := slotData (slotFor 0x0303 [0, 0, 0, 0])
     d.length = 4 ∧ leNat d % 4 = 0 ∧ live.boot.rec_.flags.getLsbD 2 = false ∧ awaiting.ring.dim ≠ .off ∧ wantedDim false false awaiting.ring.cfg = .off ∧
     ringOffRefusal (pairedWith .primary id) = some (0x0A, "PAIR_NO_RING")) ∧
    (let d := slotData (slotFor 0x0304 [1, 0, 0, 0])
     d.length = 4 ∧ sliceNat 0 1 d = (1 : Fin 2).val ∧ sliceNat 1 3 d = 0) ∧
    (let s := modSolver 4 (fun v => { v with claim := some 0, disablePend := some r7 }) live
     live.solvers[lssOf 1].claim = none ∧ s.solvers[lssOf 1].claim ≠ none ∧ (modSolver 4 (fun v => { v with disablePend := none }) s).solvers[lssOf 1].disablePend = none ∧
     ∀ i : Fin 5, s.solvers[i].disablePend ≠ none → s.solvers[i].claim ≠ none) ∧
    (live.arb.key ≠ .service ∧ (serviceKey live).arb.key = .service ∧ recordSeq 2 2 (serviceKey live) < 2 ^ 32 - 1) ∧
    (live.ring.frtOn = false ∧ (freighting id).ring.frtOn = true ∧ (freighting id).ring.frtDisable = false ∧ (freighting id).rtm.todo = [] ∧ coachesOf (freighting id) ≠ [] ∧
      coachesOf (freighting fun r => { r with layout := some layout0 }) = [] ∧ ({ freighting id with rtm := { live.rtm with survState := 1 } } : State).rtm.survState = 1) ∧
    (let d := slotData (slotFor 0x0701 ([1, 1, 1, 0] ++ List.replicate 16 0))
     d.length = 20 ∧ sliceNat 0 1 d = 1 ∧ sliceNat 1 1 d = 1 ∧ sliceNat 2 12 d < 2 ^ 12 ∧ (rightsOf r7 (withCmd 0x0701 d (freighting id))).getLsbD 0 = true ∧ (rightsOf r7 live).getLsbD 0 = false ∧
     frtRefusal { src := 0, op := 1, path := (List.range 1).map (pathEntry (sliceNat 2 12 d)), index := 0, data := [] } (freighting id) = none) := by decide +kernel

theorem test_meets_ClockCommandsAreCheckedFirst :
    (slotData (slotFor 0x0802 [0x59, 0x59, 0x23, 0, 0x29, 2, 0x24, 0x20])).length = 8 ∧ calImpossible 0x00235959 0x20240229 = false ∧ calImpossible 0x00235959 0x20230229 = true ∧
    (let d := slotData (slotFor 0x0803 [1, 0x80, 0, 0])
     d.length = 4 ∧ BitVec.ofNat 16 (sliceNat 0 2 d) = (0x8001 : BitVec 16) ∧ sliceNat 2 2 d = 0) ∧
    (clocked (some 3)).rtc.shift ≠ none ∧ ((clocked none).rtc.shift = none ∧ (clocked none).rtc.nvalid = true ∧ live.rtc.nvalid = false) ∧
    (let d := slotData (slotFor 0x0804 [2, 0, 0, 0])
     d.length = 4 ∧ sliceNat 0 1 d = 2 ∧ sliceNat 1 3 d = 0) ∧ (clocked none).rtc.step = none ∧ (clocked none).rtc.bvalid = true ∧ (clocked none).rtc.dst = (2 == 1) ∧
    dstRefusal true (clocked none) = none := by decide +kernel

/-- The Archive holds `b` as image 5. What a program's bytes spell is left open (log), so premises about the image are shown on its value. -/
def stored (b : List Byte) (s : State) : State := { s with arch := { s.arch with images := [{ id := 5, total := b.length, segs := [(0, b)] }] } }
def loadData (d : Byte) (win : Nat) : List Byte := leBytes 8 5 ++ [d, 0, 0, 0] ++ leBytes 4 win
theorem test_meets_ImagesLoadOrBeginAChange :
    (let d := slotData (slotFor 0x0402 (loadData 5 86400))
     d.length = 16 ∧ sliceNat 8 1 d = (5 : DomId).val ∧ sliceNat 9 1 d = 0 ∧ sliceNat 10 2 d = 0 ∧ sliceNat 12 4 d ≤ 86400 ∧ BitVec.ofNat 64 (sliceNat 0 8 d) = (5 : Long)) ∧
    fileOf 5 live.arch.images = none ∧ fileOf 5 (stored [1, 2] live).arch.images = some [1, 2] ∧ isKeyImage [1, 2] = false ∧ isKeyImage (leBytes 4 0x5359454B) = true ∧
    (keyLoad 4 (leBytes 4 0x5359454B) live).1 = some "NO_CKEK" ∧ admission 0 live = none ∧ live.doms[(0 : DomId)].run = false ∧
    admission 0 (modDom 0 (fun x => { x with change := { x.change with dim := .swapped } }) live) = some "CHANGE_BUSY" ∧
    plainRefusal 0 img live = none ∧ plainRefusal 0 { img with codeLen := 1 } live = some "REGION_SIZE" ∧ (plainLoad 0 img live).1 = none ∧ (plainLoad 0 { img with bgWritesQ := true } live).1 = some "BG_WRITES_Q" ∧
    (ready_.doms[(0 : DomId)].run = true ∧ ready_.doms[(0 : DomId)].image = some img1 ∧ changeRefusal 0 img1 (placeImage 0 true img1) false ready_ = none ∧
       (loadTrial 0 img1 (placeImage 0 true img1) (modDom 0 (fun y => { y with bankB := !y.bankB }) (solvReady 0 (placeImage 0 true img1) ready_))).1 = none ∧
     changeRefusal 4 img1 img1 false ready_ = some "TRIPLEX_NOT_STANDBY") := by decide +kernel

/-- A change of pair 0 from `img1` to itself, with `f` on its state; the programs' calculation leaves room. -/
def changing (f : Change → Change) : State :=
  modDom 0 (fun x => { x with change := f { x.change with dim := .pending, image := some img1, cmd := some r7 }, retain := some { progId := 7, layoutId := 0, cycle := 1, sealed := true, crc := 0 } }) { ready_ with cyc := { ready_.cyc with dl := true } }
theorem test_meets_OnlineChangesSwapConfirmAndRevert :
    (let s := changing id
     s.doms[(0 : DomId)].image = some img1 ∧ (changeImages 0 s).isSome = true ∧ s.doms[(0 : DomId)].change.dim = .pending ∧ s.doms[(0 : DomId)].change.recipe = false ∧
     s.doms[(0 : DomId)].change.bulkDone = false ∧ migCarried img1 img1 = false ∧ memWf s.mem) ∧
    (let s := changing fun c => { c with bulkDone := true, cycles := 1024 }
     s.doms[(0 : DomId)].change.bulkDone = true ∧ 1024 ≤ s.doms[(0 : DomId)].change.cycles ∧ boundaryFree 0 s = true ∧ (changeImages 0 s).any (fun x => changeFits 0 (swapClocks 0 x.1 x.2 s) s) = true) ∧
    (sliceNat 0 1 (slotData (slotFor 0x0403 [0])) = (0 : DomId).val ∧ (slotData (slotFor 0x0403 [0])).length = 1) ∧
    (let s := changing fun c => { c with dim := .swapped, confirmed := some img1 }
     s.doms[(0 : DomId)].change.dim = .swapped ∧ s.doms[(0 : DomId)].change.confirmed = some img1 ∧ s.doms[(0 : DomId)].change.wantConfirm = false ∧
     s.doms[(0 : DomId)].change.wantRevert = false ∧ s.hsb.role ≠ .primary ∧ elapsed (1000 * s.doms[(0 : DomId)].change.windowS) s.doms[(0 : DomId)].change.swapAt s = true) ∧
    (let s := changing fun c => { c with dim := .swapped, confirmed := some img1, wantConfirm := true }
     s.doms[(0 : DomId)].change.wantConfirm = true ∧ s.doms[(0 : DomId)].change.recipe = false ∧ atBoundary 0 s = true ∧ s.doms[(0 : DomId)].retain ≠ none) ∧
    (let s := changing fun c => { c with dim := .swapped, confirmed := some img1, wantRevert := true, cycles := 1024 }
     s.doms[(0 : DomId)].change.wantRevert = true ∧ boundaryFree 0 s = true ∧ changeFits 0 (migCost (revertEntries 0 img1 img1 s) + loadClocks 0 img1 s) s = true ∧
     1024 ≤ s.doms[(0 : DomId)].change.cycles ∧ s.doms[(0 : DomId)].run = true) := by decide +kernel

/-- Stratum 5: a manifest of 40 bytes that names stratum `b` for class 1 and none for the others; CRC `c`. -/
def manifest (b : Byte) (c : Nat) : List Byte :=
  leBytes 4 0x41545253 ++ [1, 0, 0, 0] ++ leBytes 8 5 ++ leBytes 16 0 ++ leBytes 4 c ++ leBytes 4 40 ++ leBytes 4 56 ++ leBytes 20 0 ++
    ([2, 0, 0, 0] ++ leBytes 4 40 ++ leBytes 8 0 ++ [b] ++ leBytes 31 0) ++ leBytes 8 0 ++ leBytes 64 0
def shelved (b : Byte) (c : Nat) (f : Update → Update) : State :=
  { live with arch := { live.arch with strata := [{ id := 5, total := 184, segs := [(0, manifest b c)] }] }, update := f live.update }
theorem test_meets_UpdatesFollowTheirOrder :
    segBad (List.replicate 12 0 ++ [1, 0, 0, 0] ++ [5]) = none ∧ (slotData (slotFor 0x0502 (leBytes 8 5))).length = 8 ∧ updateRefusal 5 live = some "SET_UNKNOWN" ∧
    (updateRefusal 5 (shelved 0 1499445213 id) = none ∧ ((manifestOf 5 (shelved 0 1499445213 id)).map fun x => nextClass x.2 1) = some 5) ∧
    (let s := shelved 9 2351142847 fun u => { u with target := some 5, step := 1, retried := true }
     s.update.target = some 5 ∧ s.update.step ≠ 0 ∧ s.update.step < 4 ∧ s.update.retried = true ∧ s.update.stopAt = false ∧
     (manifestOf 5 s).map (fun x => (nextClass x.2 1, nextClass x.2 2)) = some (1, 5)) ∧
    (live.boot.rec_.setRun ≠ 5 ∧ live.boot.rec_.setRun = BitVec.ofNat 64 (sliceNat 0 8 (slotData (slotFor 0x0503 (leBytes 8 0)))) ∧ live.update.target = none ∧ manifestOf 0 live = none) := by
  decide +kernel

/-- A page write of PS_CMD is programmed in a store with `n` spare pages. -/
def pwrite : PsReq := { use := .reg, page := 200, off := 255, data := [1, 2], retried := false }
def programming (q : Option PsReq) (n : BitVec 16) : State := { live with ps := { live.ps with scan := false, cur := q, free := n, pages := [(200, List.replicate 256 7)] } }
theorem test_meets_PagesAreReadWrittenAndCommitted :
    (let d := slotData (slotFor 0x0601 [0xFF, 0xF, 1, 0])
     d.length = 4 ∧ sliceNat 0 2 d + sliceNat 2 2 d ≤ 4096 ∧ 1 ≤ sliceNat 2 2 d) ∧ (slotData (slotFor 0x0602 ([132, 0, 1, 0] ++ List.replicate 256 0))).length = 4 + 256 * 1 ∧
    (psProtected 132 live = false ∧ psProtected 4095 { live with ps := { live.ps with bp := 1 } } = true ∧ psProtected 3071 { live with ps := { live.ps with bp := 1 } } = false) ∧
    (pdOn .stew (programming none 1) = true ∧ (programming none 1).ps.scan = false ∧ psBusy (programming none 1) = false ∧ psBusy (programming (some pwrite) 1) = true) ∧
    (psForeign 5 = true ∧ psForeign 127 = true ∧ psForeign 128 = false ∧ psForeign 6 = false) ∧
    ((programming (some pwrite) 2).ps.cur = some pwrite ∧ (programming (some pwrite) 2).ps.free ≠ 0 ∧ pwrite.retried = false ∧ psLate (programming (some pwrite) 2) = false ∧
      (programming (some pwrite) 2).ps.free ≠ 1) ∧
    (let s := programming none 1
     s.ps.cur = none ∧ s.ps.qLease = [] ∧ s.ps.qSup = [] ∧ s.ps.qStew = [] ∧ s.ps.cutoff = false ∧ s.ps.free ≠ 0) ∧ (∃ p ∈ (programming none 1).ps.pages, p.1 = (200 : BitVec 12).toNat) := by
  decide +kernel

/-! ## Premises about modes, supervision, field groups and the supply -/

/-- STOP with the key at RUN, a pair's and a group's image loaded. -/
def stopped (f : Arb → Arb) : State := { modDom 4 (fun x => { x with image := some img1 }) (modDom 0 (fun x => { x with image := some img1 }) live) with arb := f { live.arb with key := .run } }
theorem test_meets_ModeRequestsAreRefusedOrAdmitted :
    maBusy ready_ = false ∧ maBusy ({ ready_ with arb := { ready_.arb with domStop := 1 } } : State) = true ∧ modeRefusal 0 3 ready_ = some (0x02, "NOT_REQUESTABLE") ∧
    (modeRefusal 0 1 ready_ = none ∧ sameState 0 1 ready_ = true) ∧ (modeRefusal 0 0 ready_ = none ∧ sameState 0 0 ready_ = false ∧ ready_.arb.oper = .run) ∧
    (let s := stopped id
     s.arb.oper = .stop ∧ modeRefusal 0 1 s = none ∧ s.doms[pairDom 0].image ≠ none ∧ s.doms[pairDom 0].held = false ∧ paired s = false) ∧
    (modeRefusal 0 4 (serviceKey live) = none ∧ sameState 0 4 (serviceKey live) = false) ∧
    (let s := stopped fun a => { a with oper := .service, key := .service }
     s.arb.oper = .service ∧ modeRefusal 0 0 s = none ∧ sameState 0 0 s = false) ∧
    (modeRefusal (0x10 + (4 : DomId).val) 0 ready_ = none ∧ sameState (0x10 + (4 : DomId).val) 0 ready_ = false) ∧
    (let s := modDom 0 (fun x => { x with run := false }) ready_
     modeRefusal (0x10 + (0 : Fin 4).val) 1 s = none ∧ sameState (0x10 + (0 : Fin 4).val) 1 s = false) := by decide +kernel

/-- A request waits for the end of cycle 5. -/
def pending_ (o : Oper) : State :=
  { ready_ with arb := { ready_.arb with pend := some { target := o, cyc := 5, tick := 2000, src := .steward, fault := false }, domStop := 0x21, domStopCyc := .replicate 6 5, frtLinkDue := some 2000 }
                cyc := { ready_.cyc with tb := 1244750 }
                voter := { ready_.voter with grp := ready_.voter.grp.map fun v => { v with eocAt := some 5 } }
                ring := { ready_.ring with items := [item1] } }
theorem test_meets_ModesTakeEffect :
    (∀ o ∈ [Oper.stop, .hold, .run], (pending_ o).arb.pend = some { target := o, cyc := 5, tick := 2000, src := .steward, fault := false }) ∧
    (pastDeadline 5 (pending_ .stop) = true ∧ (2000 : Long).toNat ≤ (pending_ .run).cyc.tb.toNat) ∧ pairChange (pending_ .hold) = false ∧
    pairChange (modDom 3 (fun x => { x with change := { x.change with dim := .pending } }) (pending_ .hold)) = true ∧
    (∀ d ∈ [(0 : DomId), 5], (pending_ .stop).arb.domStop.getLsbD d.val = true ∧ stopDueNow d (pending_ .stop) = true) ∧ (pending_ .stop).arb.oper = .run ∧
    (pending_ .stop).arb.frtLinkDue = some 2000 ∧ (pending_ .stop).ring.items = [item1] ∧
    (ready_.arb.oper = .run ∧ ready_.arb.pend = none) ∧ (stopped fun a => { a with oper := .service }).arb.oper = .service ∧
    (ready_.doms[pairDom 0].held = false ∧ ready_.doms[pairDom 0].image ≠ none ∧ nextImage (pairDom 0) ready_ = some img1) := by decide +kernel

/-- Unit 1 is enabled with period 4 and window opening at 2, its count at `c`, services `v`. -/
def watched (c : BitVec 22) (v : List Bool) : State :=
  { ready_ with wdg := ready_.wdg.set 1 { ready_.wdg[(1 : Fin 8)] with en := true, wind := true, period := 4, open_ := 2, count := c, svc := v, due := 1 } }
/-- Point 63 of domain 0 with a window of 5 cycles, one check-in of at least `mn`. -/
def checked (mn : Byte) : State :=
  { ready_ with cim := ready_.cim.set 0 { ready_.cim[(0 : DomId)] with pts := ready_.cim[(0 : DomId)].pts.set 63 { CimPt.reset with win := 5, mx := 2, mn := mn, cnt := #v[1, 0, 0], started := 1 } } }
theorem test_meets_WatchdogsAndCheckinsSupervise :
    (wdgFrozenNow 2 (watched 0 []) = true ∧ wdgFrozenNow 1 (watched 0 []) = false ∧ (watched 0 []).wdg[(1 : Fin 8)].en = true ∧ (watched 0 []).wdg[(1 : Fin 8)].frozen = false) ∧ wdgFrozenNow 1 (watched 3 [true]) = false ∧
    (∀ v : List Bool, v ∈ [[], [false], [true]] → (watched 2 v).wdg[(1 : Fin 8)].svc = v) ∧
    (let w (c : BitVec 22) := (watched c []).wdg[(1 : Fin 8)]
     (w 3).period.toNat ≤ ((w 3).count + 1).toNat ∧ ((w 2).count + 1).toNat < (w 2).period.toNat ∧ (w 1).open_.toNat ≤ ((w 1).count + 1).toNat ∧ ((w 0).count + 1).toNat < (w 0).open_.toNat) ∧
    (watched 0 []).wdg[(1 : Fin 8)].due ≠ 0 ∧ (wdgAccess { master := .sp 0, atK := true } 1 live = .ok ∧ wdgAccess { master := .sp 0, atK := false } 1 live = .priv) ∧
    live.wdg[(1 : Fin 8)].lock = false ∧ ({ live with wdg := live.wdg.set 1 { live.wdg[(1 : Fin 8)] with lock := true } } : State).wdg[(1 : Fin 8)].lock = true ∧ live.wdg[(1 : Fin 8)].key = none ∧
    (let s : State := { live with cyc := { live.cyc with tb := 12500 }, wdg := live.wdg.set 1 { live.wdg[(1 : Fin 8)] with key := some (.sp 0, 0) } }
     s.wdg[(1 : Fin 8)].key = some (.sp 0, 0) ∧ since 0 s ≤ 12500) ∧ domOf 0 = some 0 ∧
    (∀ mn ∈ [(1 : Byte), 2], (checked mn).doms[pairDom 0].run = true ∧ (checked mn).arb.oper ≠ .hold ∧ (checked mn).cim[pairDom 0].closedAt ≠ some (checked mn).cyc.count ∧ cimEnds (checked mn).cim[pairDom 0].pts[(63 : Fin 64)] (checked mn) = true ∧
      (((checked mn).cim[pairDom 0].badLanes.getLsbD 0 || (checked mn).cim[pairDom 0].pts.toList.any fun p => cimEnds p (checked mn) && p.started.getLsbD 0 && cimVerdict p 0 ≠ 0) = decide (mn = 2))) := by
  decide +kernel

/-- Group 5 is supplied; channel 7 has the effective configuration `w`. -/
def wired (w : Word) (f : FgCh → FgCh) (g : Fg → Fg) : State :=
  { live with cyc := { live.cyc with tb := 1000000 }
              fg := live.fg.set 5 (g { live.fg[(5 : GroupId)] with fpwr := true, ch := live.fg[(5 : GroupId)].ch.set 7 (f { live.fg[(5 : GroupId)].ch[(7 : Fin 8)] with eff := w }) }) }
/-- TX0 drives group 5's permit: its block enables it, and its last vote passed. -/
def permitting : State :=
  let s := modDom 4 (fun x => { x with image := some { img1 with fgOut := [(5, 0)] }, voted := [0, 0, 1] }) ready_
  { s with fg := s.fg.set 5 { s.fg[(5 : GroupId)] with fpwr := true, pcfg := 1, toggleAt := some 0 }
           voter := { s.voter with grp := s.voter.grp.map fun v => { v with lastEoc := true, eocSince := true } } }
theorem test_meets_FieldGroupsFollowTheirEvents :
    (fgRuns 5 (wired 0 id id) = true ∧ cfgOut (wired 0 id id).fg[(5 : GroupId)].ch[(7 : Fin 8)].eff = false ∧ (wired 0 id id).fg[(5 : GroupId)].ch[(7 : Fin 8)].raw = !true ∧ cfgDeb 0 = 0 ∧ cfgDeb 1 ≠ 0) ∧
    (let s := wired 1 (fun c => { c with run := some (true, 5) }) id
     s.fg[(5 : GroupId)].ch[(7 : Fin 8)].run = some (true, 5) ∧ cfgDeb s.fg[(5 : GroupId)].ch[(7 : Fin 8)].eff * 1250 ≤ (ringTime s - 5).toNat) ∧
    (let s (n : Long) := wired 0x40000000 (fun c => { c with lastChg := some n }) fun g => { g with sched := [{ at_ := 5000, ch := 7, level := true }] }
     (s 1875).fg[(5 : GroupId)].sched = [{ at_ := 5000, ch := 7, level := true }] ∧ cfgOut 0x40000000 = true ∧ (s 1875).fg[(5 : GroupId)].ch[(7 : Fin 8)].cmd = !true ∧ cfgSafety 0x40000000 = false ∧
     (s 1875).fg[(5 : GroupId)].ch[(7 : Fin 8)].lastChg.all (fun t0 => 3125 ≤ ((5000 : Long) - t0).toNat) = true ∧
     (s 1876).fg[(5 : GroupId)].ch[(7 : Fin 8)].lastChg.any (fun t0 => decide (((5000 : Long) - t0).toNat < 3125)) = true) ∧
    (cfgOut 0xC0000000 = true ∧ cfgSafety 0xC0000000 = true ∧ (wired 0xC0000000 id id).fg[(5 : GroupId)].pres = false) ∧
    ((wired 0x40000000 id id).fg[(5 : GroupId)].fpwr = true ∧ (wired 0x40000000 id id).fg[(5 : GroupId)].ch[(7 : Fin 8)].ovl = false) ∧
    (permitWanted 5 (wired 0 id id) = false ∧ permitWanted 5 permitting = true ∧
      625000 ≤ since 0 (wired 0 id id)) ∧
    (let s := at_ 1500000 (wired 0 id fun g => { g with edgeAt := some 0 })
     s.fg[(5 : GroupId)].edgeAt.all (fun t0 => 1500000 ≤ since t0 s) = true) ∧
    (wired 0x40000000 (fun c => { c with pin := true }) id).fg[(5 : GroupId)].ch[(7 : Fin 8)].pin = true ∧
    (let s := wired 0 id fun g => { g with edgeAt := some 437500, edges := 3 }
     (s.fg[(5 : GroupId)].edgeAt.any fun t0 => 562500 ≤ since t0 s && since t0 s ≤ 687500) = true) := by decide +kernel
theorem test_meets_FieldGroupsFollowTheirEvents_cfg : pdOn .iox live = true ∧ live.fg[(5 : GroupId)].fpwr = false ∧ stw.master ≠ .outputGuard ∧ cfgSafety 0x80000000 = true ∧
    (cfgSafety live.fg[(5 : GroupId)].ch[(7 : Fin 8)].cfg = false ∧ cfgSafety 0x40000000 = false) := by decide +kernel

theorem test_meets_MemoriesAreScrubbedAndRegistersWritten :
    (live.memErrs = .reset ∧ pdOn .mem live = true ∧ ∀ b, bankOf (.sram (scrubAt scrubMems live.memRegs.scrub).1 (64 * (scrubAt scrubMems live.memRegs.scrub).2)) = some b → live.banks[b] = .active) ∧
    (let s : State := { live with banks := live.banks.set 0 .retention }
     let line := scrubAt scrubMems s.memRegs.scrub
     bankOf (.sram line.1 (64 * line.2)) = some 0 ∧ scrubSkips line.1 s = false ∧ s.banks[(0 : Fin 33)] ≠ .active) ∧
    (let s : State := { live with memRegs := { live.memRegs with reten := 0x80000000 } }
     pdOn .std s = true ∧ s.memRegs.reten.getLsbD (31 : Fin 32).val = true ∧ s.banks[(31 : Fin 32).val] = .active ∧ bankClaimed 31 s = false ∧ bankInUse 31 s = false ∧
     bankWanted (Fin.ofNat 33 31) s = false) ∧
    (pdOn .grotto live = true ∧ live.banks[32] = .active ∧ bankWanted 32 live = false) ∧
    (let s : State := at_ 50000 { live with banks := live.banks.set 32 .waking }
     s.banks[(32 : Fin 33)] = .waking ∧ wakeTicks 32 ≤ since s.memRegs.wakeAt[(32 : Fin 33)] s ∧ bankWanted 32 s = false) ∧ pdOn .vote live = true ∧
    (0x08014000 ≤ (0x08FFFFFC : Word).toNat ∧ (0x08FFFFFC : Word).toNat < 0x09000000) := by decide +kernel

/-- The supply: which feeds are there, what is on, and when both were lost. -/
def supplied (a b up : Bool) (t : Option Long) : State :=
  { live with power := { live.power with feed := #v[⟨a, 24000⟩, ⟨b, 24000⟩], tpf := t }, boot := if up then live.boot else { Boot.reset with on := 0x803 } }
theorem test_meets_SupplyEventsAreJudged :
    live.power.xtalBad = false ∧ ({ live with power := { live.power with xtalBad := true } } : State).power.xtalBad = true ∧
    ((supplied true true true none).power.feed[(0 : Fin 2)].present = true ∧ (supplied true true true none).power.feed[(1 : Fin 2)].present = true) ∧
    (anyFeed (supplied false false true none) = false ∧ (supplied false false true none).power.tpf = none ∧ (supplied false false true none).boot.up = true) ∧
    (let s := at_ 25000005 (supplied false false true (some 5))
     s.power.tpf ≠ none ∧ pfPast 10 s = true ∧ pfPast 12 s = true ∧ pfPast 20 s = true ∧ pairBusy 0 (active 6) = true ∧ pairBusy 0 ready_ = false ∧
     (active 6).cores[pairCore 0].stopped = false ∧ ready_.doms[pairDom 0].pstop = false) ∧
    (anyFeed (supplied false false false none) = false ∧ (supplied false false false none).boot.up = false ∧ pdOn .aon (supplied false false false none) = true) ∧
    ((951 : BitVec 16).toInt > 950 ∧ (-251 : BitVec 16).toInt < -250 ∧ (-250 : BitVec 16).toInt = -250 ∧ ({ live with power := { live.power with tSeen := true } } : State).power.tSeen = true) ∧
    (Sfp.wrongType ≠ .good) ∧
    (let s (n : Nat) : State := { live with boot := { live.boot with subst := true, xtalGood := n } }
     (s 63).boot.subst = true ∧ (s 63).boot.xtalGood = 63 ∧ (s 62).boot.xtalGood < 63 ∧ (s 62).boot.up = true) ∧
    (pdOn (lanePd 2) ready_ = true ∧ ready_.voter.reint.phase = 0 ∧ inSafe ready_ = false) := by decide +kernel

/-- The ladder's second rung has been reached, with `n` copies written. -/
def climbing (n : Nat) (s : State) : State := { s with esc := { s.esc with rung2 := some { at_ := 0, cause := 1, source := 1, copies := n, sealed := false } } }
/-- Findings of a start at which everything is well. -/
def well : BootFindings :=
  { pllRoot := true, psScan := true, dram := true, archive := true, setVerified := true, firmware := true, phys := true, groups := 63, lanes := 7, lanePll := 7, pairs := 15, cfgSet := true
    capPercent := 100 }
theorem test_meets_ResetsKeepWhatSurvives :
    live.boot.up = true ∧ pdOn .aon State.reset = false ∧ (live.boot.orderly = none ∧ orderlyCause 3 live = true ∧ pairsBusy (active 6) = true ∧ orderlyCause 3 (active 6) = true ∧
      pairsBusy live = false ∧ live.ps.cur = none) ∧ (0x5A3B : BitVec 16) ≠ 0x5A3C ∧
    ((climbing 2 live).esc.rung2.any (fun r => 2 ≤ r.copies) = true ∧ pairsBusy (climbing 2 live) = false) ∧
    (let s : State := climbing 0 { live with cyc := { live.cyc with tb := 50000000 } }
     s.esc.rung2.any (fun r => 50000000 ≤ since r.at_ s) = true) ∧
    ((climbing 0 (active 6)).esc.rung2.any (fun r => since r.at_ (climbing 0 (active 6)) < 12500000) = true ∧ pairsBusy (climbing 0 (active 6)) = true) ∧
    (let s : State := at_ 500000000 { live with boot := { live.boot with tmr := 400 } }
     started s = false ∧ s.boot.tmr ≠ 0 ∧ bootTmr s = 0) ∧ started { live with boot := { live.boot with bootStep := 15 } } = true ∧
    (let s := supplied true false false none
     s.boot.up = false ∧ s.boot.halted = false ∧ anyFeed s = true ∧ s.boot.fc1 ≠ 3 ∧ s.boot.fc2 ≠ 3 ∧ s.arb.oper = .stop) ∧
    (let s : State := { supplied true false false none with boot := { (supplied true false false none).boot with fc1 := 3, fc2 := 3 } }
     s.boot.fc1 = 3 ∧ s.boot.fc2 = 3 ∧ s.boot.up = false) ∧ { well with psScan := false }.psScan = false := by decide +kernel

theorem test_meets_AFirstStartReachesStop :
    let s := { supplied true false false none with voter := .reset }
    (well.pllRoot = true ∧ well.psScan = true ∧ well.dram = true ∧ well.archive = true ∧ well.setVerified = true ∧ well.firmware = true ∧ well.phys = true ∧ well.lanes = 7 ∧ well.lanePll = 7 ∧
      well.groups = 63 ∧ well.pairs = 15 ∧ well.cfgSet = true) ∧ s.arch = State.reset.arch ∧ s.ps = .reset ∧ s.boot = { Boot.reset with on := 0x803, rcOk := s.boot.rcOk } ∧ anyFeed s = true ∧
    s.esc = .reset ∧ s.arb = { Arb.reset with key := s.arb.key } ∧ s.doms = State.reset.doms ∧ s.voter = .reset := by decide +kernel

/-- A word that is an instruction's, and an instruction that has one. -/
theorem test_meets_InstructionsAndTheirWordsCorrespond : Instr.wf (.add h 31 31 31) = true ∧ (∀ c v, Instr.add h 31 31 31 ≠ .reservedEncoding c v) ∧
    (encodeNerop (.add h 31 31 31)).isSome = true ∧ decodeNerop 4 none 0x00061100 = some (.add h 3 1 2) :=
  ⟨by decide, nofun, by decide +kernel, by decide +kernel⟩
/-- A command waits; the block idles; both keep memory's form. -/
theorem test_meets_EveryStepKeepsMemoryCanonical : Inv State.reset ∧ Inv ready_ ∧ (∃ t, step State.reset = .next t) ∧ ∃ t, step { ready_ with pending := [.bypass] } = .next t :=
  ⟨inv_of (by decide +kernel), inv_of (by decide +kernel), ⟨_, rfl⟩, ⟨_, rfl⟩⟩
/-- SAFE with no request under way goes on in SAFE, and a module reset can follow; VOT_SAFE leads there. -/
theorem test_meets_SafeIsLeftOnlyThroughAModuleReset :
    let s : State := { ready_ with arb := { ready_.arb with oper := .safe } }
    inSafe s = true ∧ s.arb.pend = none ∧ inSafe ready_ = false ∧ (∃ t, step { s with pending := [.bypass] } = .next t) ∧ ∃ t, step { s with pending := [.railFault] } = .next t :=
  ⟨by decide +kernel, by decide +kernel, by decide +kernel, ⟨_, rfl⟩, ⟨_, rfl⟩⟩
end Sys2Proof.Tests
end

section
/-! SUPPORT. The end of a slot that computes: results for g registers with SATF, and for accumulators with AOVF. -/

namespace Sys2Proof.Proofs
open Sys2Proof.Machine Sys2Proof.Safety Sys2Proof.Laws

/-- A row that only computes completes by what its effect does to a core without results under way, repetition or delay slot. -/
theorem yields_compute {i : Instr} {h : Hdr} {f : Arch → Eff} {g : Arch → Arch} (he : ∀ s, exec i s = compute i h f s) (hw : isReserved i = false)
    (hq : ∀ a : Arch, a.opens = [] → a.rpt = none → a.delay = none → advance (slotEnd (f a) a) = ended (g a)) : Yields i h g :=
  yields_done he hw (fun _ _ => rfl) hq

/-- `slotEnd_outG` with SATF: setting the flag and writing the register are independent. -/
theorem slotEnd_outG_satf {a : Arch} {r : Reg} {v : Word} {b : Bool} (h : a.opens = []) (h1 : a.rpt = none) (h2 : a.delay = none) :
    advance (slotEnd { outG r v 1 with satf := b } a) = ended (satf b (setG r v a)) := by
  unfold advance slotEnd outG Arch.settle Arch.flags ended satf setG setBit
  by_cases hr : r = 0 <;> cases b <;> simp [h, h1, h2, hr, Arch.put]

/-- An accumulator's result stays under way for one more slot; AOVF is set at once. -/
theorem slotEnd_outA_aovf {a : Arch} {n : Acc} {v : AccWord} {b : Bool} (h : a.opens = []) (h1 : a.rpt = none) (h2 : a.delay = none) :
    advance (slotEnd { outA n v with aovf := b } a) = ended (aovf b (soon (.a n) v a)) := by
  unfold advance slotEnd outA Arch.settle Arch.flags ended aovf soon later setBit
  cases b <;> simp [h, h1, h2]

/-- A row whose only effect is a result for an accumulator. -/
theorem yields_outA {i : Instr} {h : Hdr} {n : Acc} {v : Arch → AccWord} (he : ∀ s, exec i s = compute i h (fun a => outA n (v a)) s)
    (hw : isReserved i = false) : Yields i h fun a => soon (.a n) (v a) a :=
  yields_compute he hw fun _ => slotEnd_outA_aovf (b := false)

end Sys2Proof.Proofs
end

section
/-! SUPPORT. Accumulator results: what fits 72 bits, the products of the MAC group, and sums of them (R248, R253, R254). -/

namespace Sys2Proof.Proofs
open Sys2Proof.Machine Sys2Proof.Safety Sys2Proof.Laws

/-- `accFit` keeps bits [71:0] and flags a value outside 72 signed bits. -/
theorem accFit_eq (x : Int) : accFit x = (BitVec.ofInt 72 x, outside 72 x) := by
  have upper : x > (2 ^ 71 : Int) - 1 ↔ (2 ^ 71 : Int) ≤ x := by omega
  simp only [accFit, outside, upper]

/-- A row of the MAC group, given the exact result `y`: the value `x` that the row computes. -/
theorem yields_accOut {i : Instr} {h : Hdr} {n : Acc} {x y : Arch → Int} (he : ∀ s, exec i s = compute i h (fun a => accOut n (x a)) s)
    (hw : isReserved i = false) (hx : ∀ a, x a = y a) : Yields i h fun a => aovf (outside 72 (y a)) (soon (.a n) (BitVec.ofInt 72 (y a)) a) :=
  yields_compute he hw fun a h0 h1 h2 => by
    rw [accOut, accFit_eq, hx]
    exact slotEnd_outA_aovf h0 h1 h2

theorem prodQ31_eq (x y : Word) : prodQ31 x y = 2 * (x.toInt * y.toInt) := Int.mul_comm _ _

theorem setWidth_toInt_eq_lo16 (x : Word) : (x.setWidth 16).toInt = lo16 x := by
  rw [lo16, BitVec.setWidth_eq_extractLsb' (by decide)]

theorem setWidth_ushiftRight_toInt_eq_hi16 (x : Word) : ((x >>> 16).setWidth 16).toInt = hi16 x := by
  rw [hi16, BitVec.setWidth_eq_extractLsb' (by decide)]
  simp [BitVec.extractLsb']

theorem prodQ15_eq (x y : Word) : prodQ15 x y = lo16 x * lo16 y * 2 ^ 33 := by
  rw [prodQ15, setWidth_toInt_eq_lo16, setWidth_toInt_eq_lo16]

theorem prodQ15hi_eq (x y : Word) : prodQ15hi x y = hi16 x * hi16 y * 2 ^ 33 := by
  rw [prodQ15hi, prodQ15, setWidth_ushiftRight_toInt_eq_hi16, setWidth_ushiftRight_toInt_eq_hi16]

/-- A signed word's size: its lowest value is the largest in size. -/
theorem abs_toInt_le {w : Nat} (x : BitVec w) : |x.toInt| ≤ 2 ^ (w - 1) :=
  abs_le.mpr ⟨BitVec.le_toInt x, (BitVec.toInt_lt (x := x)).le⟩

/-- The size of a signed product. -/
theorem abs_toInt_mul_toInt_le {w : Nat} (x y : BitVec w) : |x.toInt * y.toInt| ≤ 2 ^ (w - 1) * 2 ^ (w - 1) := by
  rw [abs_mul]
  exact mul_le_mul (abs_toInt_le x) (abs_toInt_le y) (abs_nonneg _) (by positivity)

theorem abs_lo16_mul_lo16_le (x y : Word) : |lo16 x * lo16 y| ≤ 2 ^ 30 := abs_toInt_mul_toInt_le _ _

theorem abs_hi16_mul_hi16_le (x y : Word) : |hi16 x * hi16 y| ≤ 2 ^ 30 := abs_toInt_mul_toInt_le _ _

theorem abs_toNat_mul_toNat_le (x y : Word) : |(x.toNat : Int) * y.toNat| ≤ (2 ^ 32 - 1) * (2 ^ 32 - 1) := by
  have hx : (x.toNat : Int) ≤ 2 ^ 32 - 1 := by have := x.isLt; omega
  have hy : (y.toNat : Int) ≤ 2 ^ 32 - 1 := by have := y.isLt; omega
  rw [abs_of_nonneg (by positivity)]
  exact mul_le_mul hx hy (by positivity) (by norm_num)

/-- The shifts of R253 align the two Q formats: their products have the same bound. -/
theorem abs_qProduct_le (q : Bool) (x y : Word) : |if q then 2 * (x.toInt * y.toInt) else lo16 x * lo16 y * 2 ^ 33| ≤ 2 ^ 63 := by
  cases q with
  | true =>
    have := abs_le.mp (abs_toInt_mul_toInt_le x y)
    exact abs_le.mpr ⟨by simp; omega, by simp; omega⟩
  | false =>
    have := abs_le.mp (abs_lo16_mul_lo16_le x y)
    exact abs_le.mpr ⟨by simp; omega, by simp; omega⟩

/-- The two products of MAC2.Q15 together. -/
theorem abs_q15Pair_le (x y : Word) : |(hi16 x * hi16 y + lo16 x * lo16 y) * 2 ^ 33| ≤ 2 ^ 64 := by
  have hh := abs_le.mp (abs_hi16_mul_hi16_le x y)
  have hl := abs_le.mp (abs_lo16_mul_lo16_le x y)
  exact abs_le.mpr ⟨by omega, by omega⟩

/-- A sum of at most `n` terms of size at most `b` fits an accumulator when `n * b` does. -/
theorem outside_sum_eq_false {α : Type} {f : α → Int} {n : Nat} {b : Int} (hf : ∀ p, |f p| ≤ b) (hn : (n : Int) * b < 2 ^ 71) {l : List α}
    (hl : l.length ≤ n) : outside 72 (l.map f).sum = false := by
  have size : |(l.map f).sum| ≤ l.length * b := by
    induction l with
    | nil => simp
    | cons p l ih =>
      have := ih (Nat.le_of_succ_le hl)
      calc |((p :: l).map f).sum| ≤ |f p| + |(l.map f).sum| := by simpa using abs_add_le _ _
        _ ≤ b + l.length * b := add_le_add (hf p) this
        _ = ((p :: l).length : Nat) * b := by push_cast [List.length_cons]; ring
  have bound : (l.length : Int) * b < 2 ^ 71 := by
    cases l with
    | nil => norm_num
    | cons p l => exact (mul_le_mul_of_nonneg_right (Int.ofNat_le.mpr hl) ((abs_nonneg _).trans (hf p))).trans_lt hn
  have fits := abs_lt.mp (size.trans_lt bound)
  simp only [outside, Bool.or_eq_false_iff, decide_eq_false_iff_not]
  exact ⟨by omega, by omega⟩

/-- Settles O3: each row gives `accOut` of its exact result, and the sums of R254 are bounded term by term. -/
theorem macInstructionsKeepTheExactResult : Obligations.MacInstructionsKeepTheExactResult := by
  unfold Obligations.MacInstructionsKeepTheExactResult
  dsimp only
  refine ⟨fun h ad r1 r2 => ?mulI, fun h ad r1 r2 => ?macI, fun h ad r1 r2 => ?msuI, fun h ad r1 r2 => ?mulU, fun h ad r1 r2 => ?macU,
    fun h ad r1 r2 => ?mulQ31, fun h ad r1 r2 => ?macQ31, fun h ad r1 r2 => ?msuQ31, fun h ad r1 r2 => ?mulQ15, fun h ad r1 r2 => ?macQ15,
    fun h ad r1 r2 => ?msuQ15, fun h ad r1 r2 => ?mac2Q15, fun h ad am => ?aadd, fun ps hps => ?qSum,
    fun ps => ⟨fun hps => ⟨?q15PairSum, ?unsignedSum⟩, fun hps => ?signedSum⟩⟩
  case mulI | macI | msuI | mulU | macU | aadd => exact yields_accOut (fun _ => rfl) rfl fun _ => rfl
  case mulQ31 | macQ31 | msuQ31 => exact yields_accOut (fun _ => rfl) rfl fun _ => by rw [prodQ31_eq]
  case mulQ15 | macQ15 | msuQ15 => exact yields_accOut (fun _ => rfl) rfl fun _ => by rw [prodQ15_eq]
  case mac2Q15 => exact yields_accOut (fun _ => rfl) rfl fun _ => by rw [prodQ15_eq, prodQ15hi_eq]
  case qSum => exact outside_sum_eq_false (fun (q, x, y) => abs_qProduct_le q x y) (by norm_num) hps
  case q15PairSum => exact outside_sum_eq_false (fun (x, y) => abs_q15Pair_le x y) (by norm_num) hps
  case unsignedSum => exact outside_sum_eq_false (fun (x, y) => abs_toNat_mul_toNat_le x y) (by norm_num) hps
  case signedSum => exact outside_sum_eq_false (fun (x, y) => abs_toInt_mul_toInt_le x y) (by norm_num) hps

end Sys2Proof.Proofs
end

section
/-! SUPPORT. Extraction: clamping, rounding and the accumulator's housekeeping (R249, R255, R256). -/

namespace Sys2Proof.Proofs
open Sys2Proof.Machine Sys2Proof.Safety Sys2Proof.Laws

/-- `clampS` clamps to `w` signed bits and flags a value outside them. -/
theorem clampS_eq (w : Nat) (x : Int) : clampS w x = (clamped w x, outside w x) := by
  have pos : (0 : Int) < 2 ^ (w - 1) := by positivity
  unfold clampS clamped outside
  generalize (2 ^ (w - 1) : Int) = m at pos
  split_ifs with below above <;> simp <;> omega

/-- SAT 1 saturates, SAT 0 as MODE.SAT says. -/
theorem satOf_eq_true_iff (mode : Word) (sat : Fin 4) : satOf mode sat = true ↔ sat = 1 ∨ sat = 0 ∧ mode.getLsbD 2 = true := by
  unfold satOf
  by_cases h0 : sat.val = 0 <;> simp [h0, Fin.ext_iff]

/-- An extraction row of `w` bits of result with `d` bits discarded. -/
theorem yields_extract {i : Instr} {h : Hdr} {rd : Reg} {n : Acc} {rm : Fin 8} {sat : Fin 4} {w d : Nat}
    (he : ∀ s, exec i s = compute i h (fun a => let r := extract a.mode rm sat w d a.a[n]; { outG rd r.1 1 with satf := r.2 }) s)
    (hw : isReserved i = false) :
    Yields i h fun a =>
      let q := roundTo (roundOf a.mode rm) (a.a[n]).toInt d
      if sat = 1 ∨ sat = 0 ∧ a.mode.getLsbD 2 then satf (outside w q) (setG rd (BitVec.ofInt 32 (clamped w q)) a)
      else setG rd ((BitVec.ofInt w q).signExtend 32) a :=
  yields_compute he hw fun a h0 h1 h2 => by
    dsimp only
    rw [slotEnd_outG_satf h0 h1 h2]
    simp only [extract, clampS_eq, satOf_eq_true_iff]
    split <;> rfl

/-- Shifting a sign-extended register left multiplies its value. -/
theorem signExtend_shiftLeft_eq_ofInt (x : Word) (n : Nat) : x.signExtend 72 <<< n = BitVec.ofInt 72 (x.toInt * 2 ^ n) := by
  have power : BitVec.ofInt 72 (2 ^ n) = BitVec.twoPow 72 n := by
    rw [show (2 : Int) ^ n = (2 ^ n : Nat) by norm_cast, BitVec.ofInt_natCast]
    exact BitVec.eq_of_toNat_eq (by simp)
  rw [BitVec.shiftLeft_eq_mul_twoPow, BitVec.signExtend, BitVec.ofInt_mul, power]

/-- An arithmetic shift right divides, rounding toward −∞. -/
theorem sshiftRight_eq_ofInt (x : AccWord) (n : Nat) : x.sshiftRight n = BitVec.ofInt 72 (x.toInt / 2 ^ n) := by
  rw [BitVec.sshiftRight, Int.shiftRight_eq_div_pow]
  norm_cast

/-- Settles O4: the extraction rows by `extract`, and the others by their shift. -/
theorem extractionsRoundThenFitTheirRange : Obligations.ExtractionsRoundThenFitTheirRange := by
  unfold Obligations.ExtractionsRoundThenFitTheirRange
  have wf {rm : Fin 8} {sat : Fin 4} (hr : rm.val < 5) (hs : sat.val < 3) : extWf rm sat = true := by simp [extWf, hr, hs]
  refine ⟨fun h rd n sh rm sat hr hs => ?_, fun h rd n sh rm sat hr hs => ?_, fun h rd n sh hsh rm sat hr hs => ?_, fun h ad => ?_, fun h ad rs1 sh => ?_,
    fun h ad sh => ?_⟩
  · exact yields_extract (fun _ => rfl) (by simp [isReserved, Instr.wf, wf hr hs])
  · exact yields_extract (fun _ => rfl) (by simp [isReserved, Instr.wf, wf hr hs])
  · exact yields_extract (fun _ => rfl) (by simp [isReserved, Instr.wf, wf hr hs, hsh])
  · exact yields_outA (fun _ => rfl) rfl
  · simp only [← signExtend_shiftLeft_eq_ofInt]
    exact yields_outA (fun _ => rfl) rfl
  · simp only [← sshiftRight_eq_ofInt]
    exact yields_outA (fun _ => rfl) rfl

end Sys2Proof.Proofs
end

section
/-! SUPPORT. The rounding modes (R255). -/

namespace Sys2Proof.Proofs
open Sys2Proof.Machine

/-- MODE.RM as a number. -/
theorem modeRm_eq_iff (mode : Word) (k : BitVec 2) : mode.extractLsb' 0 2 = k ↔ mode.toNat % 4 = k.toNat := by
  simp [BitVec.toNat_eq]

/-- RM 0 takes MODE.RM. -/
theorem roundOf_zero (mode : Word) (m : Round) : roundOf mode 0 = m ↔
    mode.extractLsb' 0 2 = 0 ∧ m = .rne ∨ mode.extractLsb' 0 2 = 1 ∧ m = .rna ∨ mode.extractLsb' 0 2 = 2 ∧ m = .rtz ∨ mode.extractLsb' 0 2 = 3 ∧ m = .rdn := by
  have range : mode.toNat % 4 = 0 ∨ mode.toNat % 4 = 1 ∨ mode.toNat % 4 = 2 ∨ mode.toNat % 4 = 3 := by omega
  rcases range with k | k | k | k <;> simp [modeRm_eq_iff, roundOf, k, @eq_comm _ _ m]

/-- RDN is the quotient rounded toward −∞. -/
theorem roundTo_rdn (x : Int) (d : Nat) : roundTo .rdn x d = Int.fdiv x (2 ^ d) := by
  rw [Int.fdiv_eq_ediv_of_nonneg x (by positivity)]
  by_cases hd : d = 0 <;> simp [roundTo, hd]

/-- RTZ is the quotient rounded toward 0. -/
theorem roundTo_rtz (x : Int) (d : Nat) : roundTo .rtz x d = Int.tdiv x (2 ^ d) := by
  have sign : Int.sign (2 ^ d) = 1 := Int.sign_eq_one_of_pos (by positivity)
  rw [Int.tdiv_eq_ediv, sign]
  by_cases hd : d = 0
  · simp [roundTo, hd]
  · simp only [roundTo, hd, if_false, Int.dvd_iff_emod_eq_zero, Bool.or_eq_true, decide_eq_true_eq, ge_iff_le]
    split <;> simp

/-- Rounding to nearest takes `q` only where at most half is discarded, and `q + 1` only where at least half is. -/
theorem roundTo_nearest {m : Round} (hm : m = .rne ∨ m = .rna) (x : Int) (d : Nat) :
    roundTo m x d = x / 2 ^ d ∧ 2 * (x % 2 ^ d) ≤ 2 ^ d ∨ roundTo m x d = x / 2 ^ d + 1 ∧ 2 ^ d ≤ 2 * (x % 2 ^ d) := by
  by_cases hd : d = 0
  · subst hd; left; simp [roundTo]
  · have half : 2 * (2 : Int) ^ (d - 1) = 2 ^ d := mul_pow_sub_one hd 2
    rcases hm with rfl | rfl <;> simp only [roundTo, hd, if_false] <;> split_ifs <;> omega

/-- So its error is the smaller of the discarded part and what the discarded part lacks of a whole unit. -/
theorem roundTo_nearest_error {m : Round} (hm : m = .rne ∨ m = .rna) (x : Int) (d : Nat) :
    |roundTo m x d * 2 ^ d - x| = min (x % 2 ^ d) (2 ^ d - x % 2 ^ d) := by
  have division := Int.ediv_mul_add_emod x (2 ^ d)
  have lower := Int.emod_nonneg x (show (2 : Int) ^ d ≠ 0 by positivity)
  have upper := Int.emod_lt_of_pos x (show (0 : Int) < 2 ^ d by positivity)
  rcases roundTo_nearest hm x d with ⟨e, h⟩ | ⟨e, h⟩ <;> rw [e, Int.abs_eq_natAbs]
  · omega
  · rw [add_one_mul]; omega

/-- To nearest, the error is at most one half. -/
theorem roundTo_nearest_error_le {m : Round} (hm : m = .rne ∨ m = .rna) (x : Int) (d : Nat) :
    2 * (roundTo m x d * 2 ^ d - x).natAbs ≤ 2 ^ d := by
  have error := roundTo_nearest_error hm x d
  zify
  omega

/-- Where the error is one half, exactly half is discarded. -/
theorem half_discarded_of_error {m : Round} (hm : m = .rne ∨ m = .rna) {x : Int} {d : Nat} (he : 2 * (roundTo m x d * 2 ^ d - x).natAbs = 2 ^ d) :
    2 * (x % 2 ^ d) = 2 ^ d := by
  have error := roundTo_nearest_error hm x d
  zify at he
  omega

/-- At a tie some bit is discarded, and the discarded part is the half that `roundTo` compares with. -/
theorem discarded_eq_half_of_tie {x : Int} {d : Nat} (ht : 2 * (x % 2 ^ d) = 2 ^ d) : d ≠ 0 ∧ x % 2 ^ d = 2 ^ (d - 1) := by
  have hd : d ≠ 0 := by rintro rfl; simp at ht
  have half : 2 * (2 : Int) ^ (d - 1) = 2 ^ d := mul_pow_sub_one hd 2
  exact ⟨hd, by omega⟩

/-- RNE takes the even one of the two neighbours at a tie. -/
theorem roundTo_rne_even_of_tie {x : Int} {d : Nat} (ht : 2 * (x % 2 ^ d) = 2 ^ d) : roundTo .rne x d % 2 = 0 := by
  obtain ⟨hd, hr⟩ := discarded_eq_half_of_tie ht
  simp only [roundTo, hd, hr, if_false, lt_irrefl]
  split <;> omega

/-- RNA takes the neighbour away from 0 at a tie. -/
theorem roundTo_rna_natAbs_ge_of_tie {x : Int} {d : Nat} (ht : 2 * (x % 2 ^ d) = 2 ^ d) : (roundTo .rna x d * 2 ^ d).natAbs ≥ x.natAbs := by
  obtain ⟨hd, hr⟩ := discarded_eq_half_of_tie ht
  have division := Int.ediv_mul_add_emod x (2 ^ d)
  have pos : (0 : Int) < 2 ^ d := by positivity
  simp only [roundTo, hd, hr, if_false, lt_irrefl]
  split
  · rw [add_one_mul]; omega
  · omega

/-- Settles O5: the modes' numbers, and for each mode the value against its two neighbours `q` and `q + 1`. -/
theorem roundingModesGiveTheirQuotient : Obligations.RoundingModesGiveTheirQuotient := by
  unfold Obligations.RoundingModesGiveTheirQuotient
  refine ⟨fun mode => ⟨roundOf_zero mode, rfl, rfl, rfl, rfl⟩, fun x d =>
    ⟨roundTo_rdn x d, roundTo_rtz x d, fun m hm => roundTo_nearest_error_le hm x d, fun m he => ⟨?_, ?_⟩⟩⟩
  · rintro rfl
    exact roundTo_rne_even_of_tie (half_discarded_of_error (.inl rfl) he)
  · rintro rfl
    exact roundTo_rna_natAbs_ge_of_tie (half_discarded_of_error (.inr rfl) he)

end Sys2Proof.Proofs
end

section
/-! SUPPORT. What each command changes at most: its parts of the state, and memory's canonical form. -/

namespace Sys2Proof.Proofs
open Sys2Proof.Machine Sys2Proof.Safety Sys2Proof.Laws
set_option Elab.async false

/-- Every next state of the outcome differs from `s` in the listed parts at most, and its memory is canonical where that of `s` is. -/
def Leaves (ps : List Part) (s : State) (o : Meaning) : Prop := ∀ t, o = .next t → Kept ps s t

theorem leaves_next {ps : List Part} {s t : State} (h : Kept ps s t) : Leaves ps s (.next t) := by
  rintro _ ⟨⟩
  exact h

/-- More parts may be named. -/
theorem Leaves.mono {ps qs : List Part} {s : State} {o : Meaning} (h : Leaves ps s o) (k : ps ⊆ qs) : Leaves qs s o := fun t e => kept_mono (h t e) k

/-- A command whose outcome is known completes with what it leaves. -/
theorem gives_of_leaves {i : Instr} {s t : State} {ps : List Part} {q : State → Prop} (hl : Leaves ps s (exec i s)) (he : exec i s = .next t) (hq : q t) :
    Gives i s ps q := ⟨t, he, (hl t he).only, hq⟩

/-- Every slot of a Nerop core. -/
theorem leaves_issue (i : Instr) (h : Hdr) (body : Arch → State → Act) (s : State) : Leaves accessParts s (issue i h body s) :=
  leaves_next (kept_issueBy _ _ _ _ _ _ kept_noAccess kept_refl (List.Subset.refl _))

/-- Every slot that accesses memory. -/
theorem leaves_memInstr (i : Instr) (h : Hdr) (op : Arch → MemOp) (addr : Arch → Word) (s : State) : Leaves accessParts s (memInstr i h op addr s) :=
  leaves_next (kept_issueBy _ _ _ _ _ _ (fun _ _ _ _ _ _ ht => kept_access _ _ _ _ _ _ ht (List.Subset.refl _)) kept_refl (List.Subset.refl _))

/-- Taking a command that needs no slot changes the mailboxes alone. -/
theorem kept_takeOnce {ps : List Part} {r : CmdRef} {code : Nat} {s t : State} {x : AtOnce} (h : takeOnce r code s = some (x, t)) (hk : [.mbx] ⊆ ps) : Kept ps s t := by
  simp only [takeOnce, Option.map_eq_some_iff, Prod.mk.injEq] at h
  obtain ⟨_, _, _, rfl⟩ := h
  exact kept_upd_mbx kept_refl hk

theorem kept_readRegs {ps : List Part} {r : State} (n a : Nat) (s : State) (h : Kept ps r s) (hk : [.cyc, .memRegs, .rtm, .rtc, .dbg, .bus] ⊆ ps) :
    Kept ps r (readRegs n a s).2 := by
  induction n generalizing a s with
  | zero => exact h
  | succ n ih =>
    unfold readRegs
    have read := kept_stewRead a s h hk
    dsimp only
    split
    · exact read
    · exact ih _ _ read

/-- What every step of a list keeps, their run keeps. -/
theorem bootRun_keeps {P : State → Prop} {f : BootFindings} {l : List (Nat × Step)} (hl : ∀ x ∈ l, ∀ s t, x.2 f s = some t → P s → P t) {s : State} (hs : P s) :
    P (bootRun f l s).1 := by
  induction l generalizing s with
  | nil => exact hs
  | cons x l ih =>
    unfold bootRun
    split
    · exact hs
    · split
      case h_1 t ht => exact ih (fun y hy => hl y (List.mem_cons_of_mem _ hy)) (hl x List.mem_cons_self _ _ ht hs)
      case h_2 => exact hs

theorem leaves_fieldInputChange (g : GroupId) (c : Fin 8) (lvl : Bool) (s : State) : Leaves [.fg] s (execFieldInputChange g c lvl s) := by
  unfold execFieldInputChange
  refine leaves_next ?_
  repeat (any_goals first | with_reducible assumption | with_reducible exact kept_refl | with_reducible apply kept_modCh | split | with_reducible intro _ | exact by decide)

theorem leaves_debounceAccept (g : GroupId) (c : Fin 8) (s : State) : Leaves [.fg] s (execDebounceAccept g c s) := by
  unfold execDebounceAccept
  refine leaves_next ?_
  repeat (any_goals first | with_reducible assumption | with_reducible exact kept_refl | with_reducible apply kept_modCh | split | with_reducible intro _ | exact by decide)

theorem leaves_scheduledEntry (g : GroupId) (s : State) : Leaves [.fg] s (execScheduledEntry g s) := by
  unfold execScheduledEntry
  refine leaves_next ?_
  repeat (any_goals first | with_reducible assumption | with_reducible exact kept_refl | with_reducible apply kept_modFg | split | with_reducible intro _ | exact by decide)

theorem leaves_outputOverload (g : GroupId) (c : Fin 8) (s : State) : Leaves [.fg] s (execOutputOverload g c s) := by
  unfold execOutputOverload
  refine leaves_next ?_
  repeat (any_goals first | with_reducible assumption | with_reducible exact kept_refl | with_reducible apply kept_drivePins | with_reducible apply kept_modCh | with_reducible apply kept_modFg | split | with_reducible intro _ | exact by decide | dsimp only)

theorem leaves_groupOverload (g : GroupId) (s : State) : Leaves [.fg] s (execGroupOverload g s) := by
  unfold execGroupOverload
  refine leaves_next ?_
  repeat (any_goals first | with_reducible assumption | with_reducible exact kept_refl | with_reducible apply kept_drivePins | with_reducible apply kept_modFg | split | with_reducible intro _ | exact by decide | dsimp only)

theorem leaves_lpUndervoltage (g : GroupId) (low : Bool) (v : BitVec 16) (s : State) : Leaves [.fg] s (execLpUndervoltage g low v s) := by
  unfold execLpUndervoltage
  refine leaves_next ?_
  repeat (any_goals first | with_reducible assumption | with_reducible exact kept_refl | with_reducible apply kept_drivePins | with_reducible apply kept_modFg | split | with_reducible intro _ | exact by decide)

theorem leaves_permitToggle (g : GroupId) (s : State) : Leaves [.fg] s (execPermitToggle g s) := by
  unfold execPermitToggle
  refine leaves_next ?_
  repeat (any_goals first | with_reducible assumption | with_reducible exact kept_refl | with_reducible apply kept_modFg | split | with_reducible intro _ | exact by decide)

theorem leaves_permitEdge (g : GroupId) (s : State) : Leaves [.fg] s (execPermitEdge g s) := by
  unfold execPermitEdge
  refine leaves_next ?_
  repeat (any_goals first | with_reducible assumption | with_reducible exact kept_refl | with_reducible apply kept_drivePins | with_reducible apply kept_permitLost | with_reducible apply kept_modFg | split | with_reducible intro _ | exact by decide | dsimp only)

theorem leaves_permitDrop (g : GroupId) (s : State) : Leaves [.fg] s (execPermitDrop g s) := by
  unfold execPermitDrop
  refine leaves_next ?_
  repeat (any_goals first | with_reducible assumption | with_reducible exact kept_refl | with_reducible apply kept_permitLost | with_reducible apply kept_modFg | split | with_reducible intro _ | exact by decide)

theorem leaves_fieldPowerLoss (g : GroupId) (s : State) : Leaves [.fg] s (execFieldPowerLoss g s) := by
  unfold execFieldPowerLoss
  refine leaves_next ?_
  repeat (any_goals first | with_reducible assumption | with_reducible exact kept_refl | with_reducible apply kept_fgPowerLoss | split | with_reducible intro _ | exact by decide)

theorem leaves_fieldPowerReturn (g : GroupId) (s : State) : Leaves [.fg] s (execFieldPowerReturn g s) := by
  unfold execFieldPowerReturn
  refine leaves_next ?_
  repeat (any_goals first | with_reducible assumption | with_reducible exact kept_refl | with_reducible apply kept_modFg | split | with_reducible intro _ | exact by decide)

theorem leaves_fgChWrite (a : Access) (g : GroupId) (c : Fin 8) (v : Word) (s : State) : Leaves [.memRegs, .fg, .fgErr, .bus] s (execFgChWrite a g c v s) := by
  unfold execFgChWrite
  refine leaves_next ?_
  repeat (any_goals first | with_reducible assumption | with_reducible exact kept_refl | with_reducible apply kept_fgChWriteOp | with_reducible apply kept_regAt | split | with_reducible intro _ | exact by decide)

theorem leaves_fgPcfgWrite (a : Access) (g : GroupId) (v : Word) (s : State) : Leaves [.memRegs, .fg, .fgErr, .bus] s (execFgPcfgWrite a g v s) := by
  unfold execFgPcfgWrite
  refine leaves_next ?_
  repeat (any_goals first | with_reducible assumption | with_reducible exact kept_refl | with_reducible apply kept_regAt | with_reducible apply kept_fgPcfgWriteOp | split | with_reducible intro _ | exact by decide)

theorem leaves_votePointComplete (g : Fin 2) (s : State) : Leaves [.cyc, .cores, .doms, .mem, .memRegs, .banks, .voter, .solvers, .ixl, .hsb, .sync, .fg, .mbx, .cim, .esc, .ps, .boot, .arb, .log, .freeCtr] s (execVotePointComplete g s) := by
  unfold execVotePointComplete
  refine leaves_next ?_
  repeat (any_goals first | with_reducible assumption | with_reducible exact kept_refl | with_reducible apply kept_voteResolve | split | with_reducible intro _ | exact by decide)

theorem leaves_voteWindowClose (g : Fin 2) (s : State) : Leaves [.cyc, .cores, .doms, .mem, .memRegs, .banks, .voter, .solvers, .ixl, .hsb, .sync, .fg, .mbx, .cim, .esc, .ps, .boot, .arb, .log, .freeCtr] s (execVoteWindowClose g s) := by
  unfold execVoteWindowClose
  refine leaves_next ?_
  repeat (any_goals first | with_reducible assumption | with_reducible exact kept_refl | with_reducible apply kept_reintEnd | with_reducible apply kept_voteResolve | with_reducible apply kept_modGroup | split | with_reducible intro _ | exact by decide | dsimp only)

theorem leaves_candidateCompare (g : Fin 2) (s : State) : Leaves [.cores, .doms, .voter, .cim, .esc, .boot, .arb, .log] s (execCandidateCompare g s) := by
  unfold execCandidateCompare
  refine leaves_next ?_
  repeat (any_goals first | with_reducible assumption | with_reducible exact kept_refl | with_reducible apply kept_candMeets | split | with_reducible intro _ | exact by decide)

theorem leaves_agreementLimit (g : Fin 2) (l : Fin 3) (s : State) : Leaves [.cores, .doms, .voter, .hsb, .sync, .fg, .mbx, .ps, .boot, .arb, .log] s (execAgreementLimit g l s) := by
  unfold execAgreementLimit
  refine leaves_next ?_
  repeat (any_goals first | with_reducible assumption | with_reducible exact kept_refl | with_reducible apply kept_modGroup | with_reducible apply kept_excludeLane | split | with_reducible intro _ | exact by decide | dsimp only)

theorem leaves_reint (src : ReqSrc) (lane : Fin 4) (s : State) : Leaves [.cores, .doms, .voter, .hsb, .sync, .fg, .mbx, .ps, .boot, .arb, .log] s (execReint src lane s) := by
  unfold execReint
  refine leaves_next ?_
  repeat (any_goals first | with_reducible assumption | with_reducible exact kept_refl | with_reducible apply kept_voterRequest | split | with_reducible intro _ | exact by decide)

theorem leaves_maintOut (src : ReqSrc) (lane : Fin 4) (s : State) : Leaves [.cores, .doms, .voter, .hsb, .sync, .fg, .mbx, .ps, .boot, .arb, .log] s (execMaintOut src lane s) := by
  unfold execMaintOut
  refine leaves_next ?_
  repeat (any_goals first | with_reducible assumption | with_reducible exact kept_refl | with_reducible apply kept_voterRequest | split | with_reducible intro _ | exact by decide)

theorem leaves_abortReint (src : ReqSrc) (lane : Fin 4) (s : State) : Leaves [.cores, .doms, .voter, .hsb, .sync, .fg, .mbx, .ps, .boot, .arb, .log] s (execAbortReint src lane s) := by
  unfold execAbortReint
  refine leaves_next ?_
  repeat (any_goals first | with_reducible assumption | with_reducible exact kept_refl | with_reducible apply kept_voterRequest | split | with_reducible intro _ | exact by decide)

theorem leaves_debugAttach (src : ReqSrc) (lane : Fin 4) (s : State) : Leaves [.cores, .doms, .voter, .hsb, .sync, .fg, .mbx, .ps, .boot, .arb, .log] s (execDebugAttach src lane s) := by
  unfold execDebugAttach
  refine leaves_next ?_
  repeat (any_goals first | with_reducible assumption | with_reducible exact kept_refl | with_reducible apply kept_voterRequest | split | with_reducible intro _ | exact by decide)

theorem leaves_debugDetach (src : ReqSrc) (lane : Fin 4) (s : State) : Leaves [.cores, .doms, .voter, .hsb, .sync, .fg, .mbx, .ps, .boot, .arb, .log] s (execDebugDetach src lane s) := by
  unfold execDebugDetach
  refine leaves_next ?_
  repeat (any_goals first | with_reducible assumption | with_reducible exact kept_refl | with_reducible apply kept_voterRequest | split | with_reducible intro _ | exact by decide)

theorem leaves_reintAutoStart (s : State) : Leaves [.voter] s (execReintAutoStart s) := by
  unfold execReintAutoStart
  refine leaves_next ?_
  repeat (any_goals first | with_reducible assumption | with_reducible exact kept_refl | with_reducible apply kept_reintAdmit | with_reducible apply kept_voterStat | split | with_reducible intro _ | exact by decide | dsimp only)

theorem leaves_reintPowerDown (s : State) : Leaves [.cores, .doms, .mem, .memErrs, .voter, .solvers, .rmus, .boot, .arb, .log] s (execReintPowerDown s) := by
  unfold execReintPowerDown
  refine leaves_next ?_
  repeat (any_goals first | with_reducible assumption | with_reducible exact kept_refl | with_reducible apply kept_modReint | with_reducible apply kept_reintEnd | with_reducible apply kept_setMembers | with_reducible apply kept_laneOff | with_reducible apply kept_dropLane | with_reducible apply kept_modGroup | (with_reducible apply kept_foldl; rotate_left; intro _ _ _) | split | with_reducible intro _ | exact by decide | dsimp only)

theorem leaves_reintPowerOn (s : State) : Leaves [.voter, .boot] s (execReintPowerOn s) := by
  unfold execReintPowerOn
  refine leaves_next ?_
  repeat (any_goals first | with_reducible assumption | with_reducible exact kept_refl | with_reducible apply kept_modReint | with_reducible apply kept_setPd | split | with_reducible intro _ | exact by decide | dsimp only)

theorem leaves_reintPllLock (ok : Bool) (s : State) : Leaves [.cores, .doms, .voter, .boot, .log] s (execReintPllLock ok s) := by
  unfold execReintPllLock
  refine leaves_next ?_
  repeat (any_goals first | with_reducible assumption | with_reducible exact kept_refl | with_reducible apply kept_modReint | with_reducible apply kept_reintEnd | with_reducible apply kept_modLane | split | with_reducible apply kept_upd_boot | with_reducible intro _ | exact by decide)

theorem leaves_reintBistDone (ok : Bool) (s : State) : Leaves [.cores, .doms, .voter, .boot, .log] s (execReintBistDone ok s) := by
  unfold execReintBistDone
  refine leaves_next ?_
  repeat (any_goals first | with_reducible assumption | with_reducible exact kept_refl | with_reducible apply kept_modReint | with_reducible apply kept_reintEnd | with_reducible apply kept_modLane | split | with_reducible intro _ | exact by decide)

theorem leaves_reintCopyDone (region : Fin 3) (s : State) : Leaves [.cores, .doms, .mem, .memErrs, .voter, .boot, .log] s (execReintCopyDone region s) := by
  unfold execReintCopyDone
  refine leaves_next ?_
  repeat (any_goals first | with_reducible assumption | with_reducible exact kept_refl | with_reducible apply kept_modReint | with_reducible apply kept_afterPass | with_reducible apply kept_copyLines | split | with_reducible intro _ | exact by decide | dsimp only)

theorem leaves_reintRegionClean (g : Fin 2) (s : State) : Leaves [.cores, .doms, .mem, .memErrs, .voter, .boot, .log] s (execReintRegionClean g s) := by
  unfold execReintRegionClean
  refine leaves_next ?_
  repeat (any_goals first | with_reducible assumption | with_reducible exact kept_refl | with_reducible apply kept_modReint | with_reducible apply kept_afterPass | with_reducible apply kept_copyLines | split | with_reducible intro _ | exact by decide | dsimp only)

theorem leaves_copyNoconv (g : Fin 2) (s : State) : Leaves [.cores, .doms, .voter, .boot, .log] s (execCopyNoconv g s) := by
  unfold execCopyNoconv
  refine leaves_next ?_
  repeat (any_goals first | with_reducible assumption | with_reducible exact kept_refl | with_reducible apply kept_reintEnd | split | with_reducible intro _ | exact by decide | dsimp only)

theorem leaves_lsStart (c : CoreId) (i : Fin 5) (e : BitVec 4) (s : State) : Leaves [.cores, .doms, .pairs, .memRegs, .voter, .solvers, .hsb, .sync, .fg, .mbx, .esc, .ps, .boot, .arb, .log, .bus] s (execLsStart c i e s) := by
  unfold execLsStart
  refine leaves_next ?_
  repeat (any_goals first | with_reducible assumption | with_reducible exact kept_refl | with_reducible apply kept_lsBy | with_reducible apply kept_lsStartOp | split | with_reducible intro _ | exact by decide)

theorem leaves_lsAbort (c : CoreId) (i : Fin 5) (s : State) : Leaves [.cores, .memRegs, .solvers, .bus] s (execLsAbort c i s) := by
  unfold execLsAbort
  refine leaves_next ?_
  repeat (any_goals first | with_reducible assumption | with_reducible exact kept_refl | with_reducible apply kept_lsBy | with_reducible apply kept_lsAbortQueue | split | with_reducible intro _ | exact by decide)

theorem leaves_lsLoad (c : CoreId) (i : Fin 5) (s : State) : Leaves [.memRegs, .memErrs, .solvers, .bus] s (execLsLoad c i s) := by
  unfold execLsLoad
  refine leaves_next ?_
  repeat (any_goals first | with_reducible assumption | with_reducible exact kept_refl | with_reducible apply kept_lsBy | with_reducible apply kept_lsLoadOp | with_reducible apply kept_lsAtK | split | with_reducible intro _ | exact by decide)

theorem leaves_lsUnload (c : CoreId) (i : Fin 5) (s : State) : Leaves [.memRegs, .solvers, .bus] s (execLsUnload c i s) := by
  unfold execLsUnload
  refine leaves_next ?_
  repeat (any_goals first | with_reducible assumption | with_reducible exact kept_refl | with_reducible apply kept_lsBy | with_reducible apply kept_lsUnloadOp | with_reducible apply kept_lsAtK | split | with_reducible intro _ | exact by decide)

theorem leaves_lsDone (i : Fin 5) (s : State) : Leaves [.cores, .doms, .pairs, .mem, .memRegs, .memErrs, .voter, .solvers, .hsb, .sync, .fg, .mbx, .esc, .ps, .boot, .arb, .log, .freeCtr] s (execLsDone i s) := by
  unfold execLsDone
  refine leaves_next ?_
  repeat (any_goals first | with_reducible assumption | with_reducible exact kept_refl | with_reducible apply kept_lsFinishRun | split | with_reducible intro _ | exact by decide)

theorem leaves_lsOvertime (i : Fin 5) (s : State) : Leaves [.cores, .doms, .pairs, .mem, .memRegs, .memErrs, .voter, .solvers, .hsb, .sync, .fg, .mbx, .esc, .ps, .boot, .arb, .log, .freeCtr] s (execLsOvertime i s) := by
  unfold execLsOvertime
  refine leaves_next ?_
  repeat (any_goals first | with_reducible assumption | with_reducible exact kept_refl | with_reducible apply kept_lsFinishRun | split | with_reducible intro _ | exact by decide)

theorem leaves_lsWindowAccess (c : CoreId) (i : Fin 5) (wr : Bool) (off : BitVec 15) (v : Word) (s : State) : Leaves [.memRegs, .solvers, .bus] s (execLsWindowAccess c i wr off v s) := by
  unfold execLsWindowAccess
  refine leaves_next ?_
  repeat (any_goals first | with_reducible assumption | with_reducible exact kept_refl | with_reducible apply kept_windowAccess | with_reducible apply kept_countAf | with_reducible apply kept_answer | split | with_reducible intro _ | exact by decide)

theorem leaves_pwrReqSolvOn (s : State) : Leaves [.boot] s (execPwrReqSolvOn s) := by
  unfold execPwrReqSolvOn
  refine leaves_next ?_
  repeat (any_goals first | with_reducible assumption | with_reducible exact kept_refl | with_reducible apply kept_solvOn | split | with_reducible intro _ | exact by decide)

theorem leaves_pwrReqSolvOff (s : State) : Leaves [.solvers, .boot] s (execPwrReqSolvOff s) := by
  unfold execPwrReqSolvOff
  refine leaves_next ?_
  repeat (any_goals first | with_reducible assumption | with_reducible exact kept_refl | with_reducible apply kept_solvOff | split | with_reducible intro _ | exact by decide)

theorem leaves_connectionTimeout (k : Fin 1024) (s : State) : Leaves [.cores, .doms, .mem, .voter, .solvers, .conns, .log, .freeCtr] s (execConnectionTimeout k s) := by
  unfold execConnectionTimeout
  refine leaves_next ?_
  repeat (any_goals first | with_reducible assumption | with_reducible exact kept_refl | with_reducible apply kept_eachLane | with_reducible apply kept_connExpire | (with_reducible apply kept_foldl; rotate_left; intro _ _ _) | split | with_reducible intro _ | exact by decide)

theorem leaves_setRoute (r : Fin 4096) (s : State) : Leaves [.cyc, .cores, .doms, .mem, .memRegs, .memErrs, .banks, .voter, .solvers, .rmus, .ixl, .hsb, .sync, .fg, .mbx, .cim, .esc, .ps, .boot, .arb, .log, .bus, .freeCtr] s (execSetRoute r s) := by
  unfold execSetRoute
  refine leaves_next ?_
  repeat (any_goals first | with_reducible assumption | with_reducible exact kept_refl | with_reducible apply kept_ixlAsk | split | with_reducible intro _ | exact by decide)

theorem leaves_cancelRoute (r : Fin 4096) (s : State) : Leaves [.cyc, .cores, .doms, .mem, .memRegs, .memErrs, .banks, .voter, .solvers, .rmus, .ixl, .hsb, .sync, .fg, .mbx, .cim, .esc, .ps, .boot, .arb, .log, .bus, .freeCtr] s (execCancelRoute r s) := by
  unfold execCancelRoute
  refine leaves_next ?_
  repeat (any_goals first | with_reducible assumption | with_reducible exact kept_refl | with_reducible apply kept_ixlAsk | split | with_reducible intro _ | exact by decide)

theorem leaves_emergencyRelease (r : Fin 4096) (s : State) : Leaves [.cyc, .cores, .doms, .mem, .memRegs, .memErrs, .banks, .voter, .solvers, .rmus, .ixl, .hsb, .sync, .fg, .mbx, .cim, .esc, .ps, .boot, .arb, .log, .bus, .freeCtr] s (execEmergencyRelease r s) := by
  unfold execEmergencyRelease
  refine leaves_next ?_
  repeat (any_goals first | with_reducible assumption | with_reducible exact kept_refl | with_reducible apply kept_ixlAsk | split | with_reducible intro _ | exact by decide)

theorem leaves_movePoint (p : Fin 2048) (rev : Bool) (s : State) : Leaves [.cyc, .cores, .doms, .mem, .memRegs, .memErrs, .banks, .voter, .solvers, .rmus, .ixl, .hsb, .sync, .fg, .mbx, .cim, .esc, .ps, .boot, .arb, .log, .bus, .freeCtr] s (execMovePoint p rev s) := by
  unfold execMovePoint
  refine leaves_next ?_
  repeat (any_goals first | with_reducible assumption | with_reducible exact kept_refl | with_reducible apply kept_ixlAsk | split | with_reducible intro _ | exact by decide)

theorem leaves_pointMoveTimeout (p : Fin 2048) (s : State) : Leaves [.ixl] s (execPointMoveTimeout p s) := by
  unfold execPointMoveTimeout
  refine leaves_next ?_
  repeat (any_goals first | with_reducible assumption | with_reducible exact kept_refl | with_reducible apply kept_eachLane | with_reducible apply kept_moveExpire | split | with_reducible intro _ | exact by decide)

theorem leaves_approachReleaseExpiry (r : Fin 4096) (s : State) : Leaves [.cyc, .cores, .doms, .mem, .memRegs, .memErrs, .banks, .voter, .solvers, .rmus, .ixl, .hsb, .sync, .fg, .mbx, .cim, .esc, .ps, .boot, .arb, .log, .freeCtr] s (execApproachReleaseExpiry r s) := by
  unfold execApproachReleaseExpiry
  refine leaves_next ?_
  repeat (any_goals first | with_reducible assumption | with_reducible exact kept_refl | with_reducible apply kept_approachExpire | split | with_reducible intro _ | exact by decide)

theorem leaves_emergencyReleaseExpiry (r : Fin 4096) (s : State) : Leaves [.cyc, .cores, .doms, .mem, .memRegs, .memErrs, .banks, .voter, .solvers, .rmus, .ixl, .hsb, .sync, .fg, .mbx, .cim, .esc, .ps, .boot, .arb, .log, .freeCtr] s (execEmergencyReleaseExpiry r s) := by
  unfold execEmergencyReleaseExpiry
  refine leaves_next ?_
  repeat (any_goals first | with_reducible assumption | with_reducible exact kept_refl | with_reducible apply kept_emergencyExpire | split | with_reducible intro _ | exact by decide)

theorem leaves_overlapReleaseExpiry (r : Fin 4096) (s : State) : Leaves [.cyc, .cores, .doms, .mem, .memRegs, .memErrs, .banks, .voter, .solvers, .rmus, .ixl, .hsb, .sync, .fg, .mbx, .cim, .esc, .ps, .boot, .arb, .log, .freeCtr] s (execOverlapReleaseExpiry r s) := by
  unfold execOverlapReleaseExpiry
  refine leaves_next ?_
  repeat (any_goals first | with_reducible assumption | with_reducible exact kept_refl | with_reducible apply kept_overlapExpire | split | with_reducible intro _ | exact by decide)

theorem leaves_restartHoldExpiry (s : State) : Leaves [.ixl] s (execRestartHoldExpiry s) := by
  unfold execRestartHoldExpiry
  refine leaves_next ?_
  repeat (any_goals first | with_reducible assumption | with_reducible exact kept_refl | with_reducible apply kept_eachLane | with_reducible apply kept_holdExpire | split | with_reducible intro _ | exact by decide)

theorem leaves_matrixSliceCheck (s : State) : Leaves [.cyc, .cores, .doms, .mem, .memRegs, .banks, .voter, .solvers, .ixl, .hsb, .sync, .fg, .mbx, .cim, .esc, .ps, .boot, .arb, .log, .freeCtr] s (execMatrixSliceCheck s) := by
  unfold execMatrixSliceCheck
  refine leaves_next ?_
  repeat (any_goals first | with_reducible assumption | with_reducible exact kept_refl | with_reducible apply kept_modIxl | with_reducible apply kept_eachLane | with_reducible apply kept_contribute | with_reducible apply kept_voteResolve | split | with_reducible intro _ | exact by decide)

theorem leaves_rmuArm (c : CoreId) (s : State) : Leaves [.memRegs, .rmus, .bus] s (execRmuArm c s) := by
  unfold execRmuArm
  refine leaves_next ?_
  repeat (any_goals first | with_reducible assumption | with_reducible exact kept_refl | with_reducible apply kept_rmuArmOp | with_reducible apply kept_rmuBy | split | with_reducible intro _ | exact by decide)

theorem leaves_rmuDisarm (c : CoreId) (s : State) : Leaves [.memRegs, .rmus, .bus] s (execRmuDisarm c s) := by
  unfold execRmuDisarm
  refine leaves_next ?_
  repeat (any_goals first | with_reducible assumption | with_reducible exact kept_refl | with_reducible apply kept_rmuDisarmOp | with_reducible apply kept_rmuBy | split | with_reducible intro _ | exact by decide)

theorem leaves_timeSourceChange (s : State) : Leaves [.rtm] s (execTimeSourceChange s) := by
  unfold execTimeSourceChange
  refine leaves_next ?_
  repeat (any_goals first | with_reducible assumption | with_reducible exact kept_refl | with_reducible apply kept_modRtm | split | with_reducible intro _ | exact by decide)

theorem leaves_ringLinkDown (p : Port) (s : State) : Leaves [.ring, .rtm] s (execRingLinkDown p s) := by
  unfold execRingLinkDown
  refine leaves_next ?_
  repeat (any_goals first | with_reducible assumption | with_reducible exact kept_refl | with_reducible apply kept_linkDown | split | with_reducible intro _ | exact by decide)

theorem leaves_ringLinkUp (p : Port) (mode : LinkMode) (s : State) : Leaves [.ring, .rtm] s (execRingLinkUp p mode s) := by
  unfold execRingLinkUp
  refine leaves_next ?_
  repeat (any_goals first | with_reducible assumption | with_reducible exact kept_refl | with_reducible apply kept_ringCount | with_reducible apply kept_modRing | with_reducible apply kept_linkDown | split | with_reducible intro _ | exact by decide)

theorem leaves_ringBroken (ring : Fin 2) (s : State) : Leaves [.rtm] s (execRingBroken ring s) := by
  unfold execRingBroken
  refine leaves_next ?_
  repeat (any_goals first | with_reducible assumption | with_reducible exact kept_refl | with_reducible apply kept_markBroken | split | with_reducible intro _ | exact by decide)

theorem leaves_ringWhole (ring : Fin 2) (s : State) : Leaves [.rtm] s (execRingWhole ring s) := by
  unfold execRingWhole
  refine leaves_next ?_
  repeat (any_goals first | with_reducible assumption | with_reducible exact kept_refl | with_reducible apply kept_modRtm | split | with_reducible intro _ | exact by decide)

theorem leaves_segmentBreak (s : State) : Leaves [.ring, .rtm, .freeCtr] s (execSegmentBreak s) := by
  unfold execSegmentBreak
  refine leaves_next ?_
  repeat (any_goals first | with_reducible assumption | with_reducible exact kept_refl | with_reducible apply kept_surveyAll | with_reducible apply kept_modRtm | with_reducible apply kept_modRing | with_reducible apply kept_breakPlace | split | with_reducible intro _ | exact by decide)

theorem leaves_loopOpened (s : State) : Leaves [.ring, .rtm] s (execLoopOpened s) := by
  unfold execLoopOpened
  refine leaves_next ?_
  repeat (any_goals first | with_reducible assumption | with_reducible exact kept_refl | with_reducible apply kept_surveyAll | with_reducible apply kept_modRtm | with_reducible apply kept_modRing | split | with_reducible intro _ | exact by decide)

theorem leaves_surveyStart (s : State) : Leaves [.mem, .ring, .rtm, .sync, .mbx, .freeCtr] s (execSurveyStart s) := by
  unfold execSurveyStart
  refine leaves_next ?_
  repeat (any_goals first | with_reducible assumption | with_reducible exact kept_refl | with_reducible apply kept_surveyBegin | split | with_reducible intro _ | exact by decide)

theorem leaves_freightSubmit (r : FrtReq) (s : State) : Leaves [.mem, .ring, .sync, .mbx] s (execFreightSubmit r s) := by
  unfold execFreightSubmit
  refine leaves_next ?_
  repeat (any_goals first | with_reducible assumption | with_reducible exact kept_refl | with_reducible apply kept_frtSubmit | split | with_reducible intro _ | exact by decide)

theorem leaves_freightBudgetExpiry (slot : Fin 128) (s : State) : Leaves [.mem, .ring, .rtm, .sync, .mbx] s (execFreightBudgetExpiry slot s) := by
  unfold execFreightBudgetExpiry
  refine leaves_next ?_
  repeat (any_goals first | with_reducible assumption | with_reducible exact kept_refl | with_reducible apply kept_frtFinish | split | with_reducible intro _ | exact by decide | dsimp only)

theorem leaves_ringEnRing (en1 en2 : Bool) (s : State) : Leaves [.ring, .arb] s (execRingEnRing en1 en2 s) := by
  unfold execRingEnRing
  refine leaves_next ?_
  repeat (any_goals first | with_reducible assumption | with_reducible exact kept_refl | with_reducible apply kept_ringEnRings | split | with_reducible intro _ | exact by decide)

theorem leaves_ringEnFrt (on : Bool) (s : State) : Leaves [.ring] s (execRingEnFrt on s) := by
  unfold execRingEnFrt
  refine leaves_next ?_
  repeat (any_goals first | with_reducible assumption | with_reducible exact kept_refl | with_reducible apply kept_recordEn | split | with_reducible intro _ | exact by decide)

theorem leaves_ringEnTakeEffect (s : State) : Leaves [.mem, .ring, .rtm, .sync, .mbx, .boot, .arb] s (execRingEnTakeEffect s) := by
  unfold execRingEnTakeEffect
  refine leaves_next ?_
  repeat (any_goals first | with_reducible assumption | with_reducible exact kept_refl | with_reducible apply kept_ringEnEffect | split | with_reducible intro _ | exact by decide)

theorem leaves_ringCfgWrite (v : Word) (s : State) : Leaves [.ring, .rtm, .boot, .arb] s (execRingCfgWrite v s) := by
  unfold execRingCfgWrite
  refine leaves_next ?_
  repeat (any_goals first | with_reducible assumption | with_reducible exact kept_refl | with_reducible apply kept_ringCfgWriteOp | split | with_reducible intro _ | exact by decide)

theorem leaves_epochCommit (s : State) : Leaves [.hsb] s (execEpochCommit s) := by
  unfold execEpochCommit
  refine leaves_next ?_
  repeat (any_goals first | with_reducible assumption | with_reducible exact kept_refl | with_reducible apply kept_modHsb | split | with_reducible intro _ | exact by decide | dsimp only)

theorem leaves_resyncRetry (s : State) : Leaves [.hsb, .sync, .freeCtr] s (execResyncRetry s) := by
  unfold execResyncRetry
  refine leaves_next ?_
  repeat (any_goals first | with_reducible assumption | with_reducible exact kept_refl | with_reducible apply kept_resyncBegin | split | with_reducible intro _ | exact by decide)

theorem leaves_resyncStateClean (s : State) : Leaves [.ixl, .conns, .sync, .freeCtr] s (execResyncStateClean s) := by
  unfold execResyncStateClean
  refine leaves_next ?_
  repeat (any_goals first | with_reducible assumption | with_reducible exact kept_refl | with_reducible apply kept_modSync | with_reducible apply kept_partnerState | split | with_reducible intro _ | exact by decide)

theorem leaves_resyncJoined (s : State) : Leaves [.hsb, .sync, .arb, .log] s (execResyncJoined s) := by
  unfold execResyncJoined
  refine leaves_next ?_
  repeat (any_goals first | with_reducible assumption | with_reducible exact kept_refl | with_reducible apply kept_setRole | with_reducible apply kept_modSync | split | with_reducible intro _ | exact by decide)

theorem leaves_resyncNoconv (s : State) : Leaves [.hsb, .sync] s (execResyncNoconv s) := by
  unfold execResyncNoconv
  refine leaves_next ?_
  repeat (any_goals first | with_reducible assumption | with_reducible exact kept_refl | with_reducible apply kept_resyncEnd | split | with_reducible intro _ | exact by decide)

theorem leaves_syncLinkUp (s : State) : Leaves [.hsb, .sync, .freeCtr] s (execSyncLinkUp s) := by
  unfold execSyncLinkUp
  refine leaves_next ?_
  repeat (any_goals first | with_reducible assumption | with_reducible exact kept_refl | with_reducible apply kept_modSync | with_reducible apply kept_resyncBegin | with_reducible apply kept_sendSync | with_reducible apply kept_nextFree | split | with_reducible intro _ | exact by decide | dsimp only)

theorem leaves_syncLinkDown (s : State) : Leaves [.hsb, .sync] s (execSyncLinkDown s) := by
  unfold execSyncLinkDown
  refine leaves_next ?_
  repeat (any_goals first | with_reducible assumption | with_reducible exact kept_refl | with_reducible apply kept_syncDown | with_reducible apply kept_modSync | split | with_reducible intro _ | exact by decide)

theorem leaves_syncMessageDiscard (m : SyncRaw) (s : State) : Leaves [.hsb] s (execSyncMessageDiscard m s) := by
  unfold execSyncMessageDiscard
  refine leaves_next ?_
  repeat (any_goals first | with_reducible assumption | with_reducible exact kept_refl | with_reducible apply kept_syncDiscard | split | with_reducible intro _ | exact by decide)

theorem leaves_hello (m : SyncHdr) (b : HelloBody) (s : State) : Leaves [.hsb, .sync, .ps, .arb, .log, .freeCtr] s (execHello m b s) := by
  unfold execHello
  refine leaves_next ?_
  repeat (any_goals first | with_reducible assumption | with_reducible exact kept_refl | with_reducible apply kept_modSync | with_reducible apply kept_syncGet | with_reducible apply kept_heard | split | with_reducible intro _ | exact by decide | dsimp only)

theorem leaves_renew (m : SyncHdr) (w : BitVec 64) (s : State) : Leaves [.hsb, .sync, .ps, .freeCtr] s (execRenew m w s) := by
  unfold execRenew
  refine leaves_next ?_
  repeat (any_goals first | with_reducible assumption | with_reducible exact kept_refl | with_reducible apply kept_modSync | with_reducible apply kept_syncGet | split | with_reducible intro _ | exact by decide)

theorem leaves_mismatch (m : SyncHdr) (mask : BitVec 8) (s : State) : Leaves [.hsb, .sync, .ps, .freeCtr] s (execMismatch m mask s) := by
  unfold execMismatch
  refine leaves_next ?_
  repeat (any_goals first | with_reducible assumption | with_reducible exact kept_refl | with_reducible apply kept_consensusBegin | with_reducible apply kept_modHsb | with_reducible apply kept_syncGet | split | with_reducible intro _ | exact by decide)

theorem leaves_consensus (m : SyncHdr) (mask : BitVec 8) (res : BitVec 8) (s : State) : Leaves [.hsb, .sync, .ps, .freeCtr] s (execConsensus m mask res s) := by
  unfold execConsensus
  refine leaves_next ?_
  repeat (any_goals first | with_reducible assumption | with_reducible exact kept_refl | with_reducible apply kept_modSync | with_reducible apply kept_syncGet | split | with_reducible intro _ | exact by decide)

theorem leaves_consensusDecision (s : State) : Leaves [.hsb, .sync, .arb, .log, .freeCtr] s (execConsensusDecision s) := by
  unfold execConsensusDecision
  refine leaves_next ?_
  repeat (any_goals first | with_reducible assumption | with_reducible exact kept_refl | with_reducible apply kept_sendRelinquish | with_reducible apply kept_modSync | with_reducible apply kept_resyncBegin | with_reducible apply kept_setRole | with_reducible apply kept_hsbEvt | split | with_reducible intro _ | exact by decide | dsimp only)

theorem leaves_prepare (m : SyncHdr) (tr : BitVec 64) (s : State) : Leaves [.hsb, .sync, .ps, .freeCtr] s (execPrepare m tr s) := by
  unfold execPrepare
  refine leaves_next ?_
  repeat (any_goals first | with_reducible assumption | with_reducible exact kept_refl | with_reducible apply kept_syncGet | with_reducible apply kept_sendSync | split | with_reducible intro _ | exact by decide)

theorem leaves_prepared (m : SyncHdr) (tr : BitVec 64) (s : State) : Leaves [.hsb, .sync, .ps, .freeCtr] s (execPrepared m tr s) := by
  unfold execPrepared
  refine leaves_next ?_
  repeat (any_goals first | with_reducible assumption | with_reducible exact kept_refl | with_reducible apply kept_modSync | with_reducible apply kept_syncGet | split | with_reducible intro _ | exact by decide)

theorem leaves_relinquish (m : SyncHdr) (tr : BitVec 64) (s : State) : Leaves [.hsb, .sync, .ps, .freeCtr] s (execRelinquish m tr s) := by
  unfold execRelinquish
  refine leaves_next ?_
  repeat (any_goals first | with_reducible assumption | with_reducible exact kept_refl | with_reducible apply kept_modSync | with_reducible apply kept_syncGet | split | with_reducible intro _ | exact by decide | dsimp only)

theorem leaves_delta (m : SyncHdr) (b : DeltaBody) (s : State) : Leaves [.cores, .doms, .mem, .voter, .solvers, .hsb, .sync, .ps, .freeCtr] s (execDelta m b s) := by
  unfold execDelta
  refine leaves_next ?_
  repeat (any_goals first | with_reducible assumption | with_reducible exact kept_refl | with_reducible apply kept_store | with_reducible apply kept_modSync | with_reducible apply kept_syncGet | split | with_reducible intro _ | exact by decide | dsimp only)

theorem leaves_deltaReq (m : SyncHdr) (blocks : List DeltaRef) (s : State) : Leaves [.hsb, .sync, .ps, .freeCtr] s (execDeltaReq m blocks s) := by
  unfold execDeltaReq
  refine leaves_next ?_
  repeat (any_goals first | with_reducible assumption | with_reducible exact kept_refl | with_reducible apply kept_syncGet | with_reducible apply kept_sendDelta | (with_reducible apply kept_foldl; rotate_left; intro _ _ _) | split | with_reducible intro _ | exact by decide)

theorem leaves_statecrc (m : SyncHdr) (crcs : List (BitVec 64)) (s : State) : Leaves [.hsb, .sync, .ps, .freeCtr] s (execStatecrc m crcs s) := by
  unfold execStatecrc
  refine leaves_next ?_
  repeat (any_goals first | with_reducible assumption | with_reducible exact kept_refl | with_reducible apply kept_resyncEnd | with_reducible apply kept_syncGet | split | with_reducible intro _ | exact by decide)

theorem leaves_delays (m : SyncHdr) (d : Word) (s : State) : Leaves [.hsb, .sync, .ps, .freeCtr] s (execDelays m d s) := by
  unfold execDelays
  refine leaves_next ?_
  repeat (any_goals first | with_reducible assumption | with_reducible exact kept_refl | with_reducible apply kept_modSync | with_reducible apply kept_syncGet | split | with_reducible intro _ | exact by decide)

theorem leaves_listenTimeout (s : State) : Leaves [.hsb, .sync, .ps, .arb, .log] s (execListenTimeout s) := by
  unfold execListenTimeout
  refine leaves_next ?_
  repeat (any_goals first | with_reducible assumption | with_reducible exact kept_refl | with_reducible apply kept_originate | split | with_reducible intro _ | exact by decide)

theorem leaves_leaseLapse (s : State) : Leaves [.hsb, .sync, .arb, .log] s (execLeaseLapse s) := by
  unfold execLeaseLapse
  refine leaves_next ?_
  repeat (any_goals first | with_reducible assumption | with_reducible exact kept_refl | with_reducible apply kept_hsbEvt | with_reducible apply kept_stepDown | split | with_reducible intro _ | exact by decide)

theorem leaves_takeoverLease (s : State) : Leaves [.doms, .mem, .memRegs, .memErrs, .conns, .ring, .hsb, .sync, .mbx, .ps, .arb, .log] s (execTakeoverLease s) := by
  unfold execTakeoverLease
  refine leaves_next ?_
  repeat (any_goals first | with_reducible assumption | with_reducible exact kept_refl | with_reducible apply kept_takeOverTrain | split | with_reducible intro _ | exact by decide)

theorem leaves_takeoverRelinquish (s : State) : Leaves [.doms, .mem, .memRegs, .memErrs, .conns, .ring, .hsb, .sync, .mbx, .ps, .arb, .log] s (execTakeoverRelinquish s) := by
  unfold execTakeoverRelinquish
  refine leaves_next ?_
  repeat (any_goals first | with_reducible assumption | with_reducible exact kept_refl | with_reducible apply kept_takeOverTrain | split | with_reducible intro _ | exact by decide)

theorem leaves_switchover (s : State) : Leaves [.hsb, .sync, .freeCtr] s (execSwitchover s) := by
  unfold execSwitchover
  refine leaves_next ?_
  repeat (any_goals first | with_reducible assumption | with_reducible exact kept_refl | with_reducible apply kept_hsbRequest | split | with_reducible intro _ | exact by decide)

theorem leaves_resync (s : State) : Leaves [.hsb, .sync, .freeCtr] s (execResync s) := by
  unfold execResync
  refine leaves_next ?_
  repeat (any_goals first | with_reducible assumption | with_reducible exact kept_refl | with_reducible apply kept_hsbRequest | split | with_reducible intro _ | exact by decide)

theorem leaves_abortSync (s : State) : Leaves [.hsb, .sync, .freeCtr] s (execAbortSync s) := by
  unfold execAbortSync
  refine leaves_next ?_
  repeat (any_goals first | with_reducible assumption | with_reducible exact kept_refl | with_reducible apply kept_hsbRequest | split | with_reducible intro _ | exact by decide)

theorem leaves_prepareTimeout (s : State) : Leaves [.hsb, .sync, .mbx] s (execPrepareTimeout s) := by
  unfold execPrepareTimeout
  refine leaves_next ?_
  repeat (any_goals first | with_reducible assumption | with_reducible exact kept_refl | with_reducible apply kept_modSync | with_reducible apply kept_modHsb | with_reducible apply kept_finishRefused | (with_reducible apply kept_foldl; rotate_left; intro _ _ _) | split | with_reducible intro _ | exact by decide)

theorem leaves_frameReceive (p : Port) (f : Frame) (s : State) : Leaves [.cyc, .ring, .rtm, .hsb, .sync, .ps, .arb, .log, .freeCtr] s (execFrameReceive p f s) := by
  unfold execFrameReceive
  refine leaves_next ?_
  repeat (any_goals first | with_reducible assumption | with_reducible exact kept_refl | with_reducible apply kept_relayFrame | with_reducible apply kept_recordFrame | with_reducible apply kept_lateFrame | with_reducible apply kept_ringCount | with_reducible apply kept_reverseFrame | with_reducible apply kept_relayOut | split | with_reducible intro _ | exact by decide | dsimp only)

theorem leaves_watchdogTickEdge (s : State) : Leaves [.wdg] s (execWatchdogTickEdge s) := by
  unfold execWatchdogTickEdge
  refine leaves_next ?_
  repeat (any_goals first | with_reducible assumption | with_reducible exact kept_refl | split | with_reducible apply kept_upd_wdg | with_reducible intro _ | exact by decide)

theorem leaves_watchdogExpiry (u : Fin 8) (s : State) : Leaves [.cores, .doms, .pairs, .voter, .solvers, .ring, .hsb, .sync, .fg, .mbx, .update, .wdg, .esc, .ps, .boot, .arb, .log] s (execWatchdogExpiry u s) := by
  unfold execWatchdogExpiry
  refine leaves_next ?_
  repeat (any_goals first | with_reducible assumption | with_reducible exact kept_refl | with_reducible apply kept_pairFault | with_reducible apply kept_modWdg | with_reducible apply kept_stewardRestart | with_reducible apply kept_ladder | with_reducible apply kept_laneHalt | with_reducible apply kept_addLog | split | with_reducible intro _ | exact by decide)

theorem leaves_wdgSvc (a : Access) (u : Fin 8) (v : BitVec 16) (s : State) : Leaves [.memRegs, .wdg, .bus] s (execWdgSvc a u v s) := by
  unfold execWdgSvc
  refine leaves_next ?_
  repeat (any_goals first | with_reducible assumption | with_reducible exact kept_refl | with_reducible apply kept_wdgSvcOp | with_reducible apply kept_wdgWrite | split | with_reducible intro _ | exact by decide)

theorem leaves_wdgPer (a : Access) (u : Fin 8) (v : Word) (s : State) : Leaves [.memRegs, .wdg, .bus] s (execWdgPer a u v s) := by
  unfold execWdgPer
  refine leaves_next ?_
  repeat (any_goals first | with_reducible assumption | with_reducible exact kept_refl | with_reducible apply kept_wdgWrite | with_reducible apply kept_wdgPerOp | split | with_reducible intro _ | exact by decide)

theorem leaves_wdgKey (a : Access) (u : Fin 8) (v : BitVec 16) (s : State) : Leaves [.memRegs, .wdg, .bus] s (execWdgKey a u v s) := by
  unfold execWdgKey
  refine leaves_next ?_
  repeat (any_goals first | with_reducible assumption | with_reducible exact kept_refl | with_reducible apply kept_wdgWrite | with_reducible apply kept_wdgKeyOp | split | with_reducible intro _ | exact by decide)

theorem leaves_wdgLock (a : Access) (u : Fin 8) (s : State) : Leaves [.memRegs, .wdg, .bus] s (execWdgLock a u s) := by
  unfold execWdgLock
  refine leaves_next ?_
  repeat (any_goals first | with_reducible assumption | with_reducible exact kept_refl | with_reducible apply kept_modWdg | with_reducible apply kept_wdgWrite | split | with_reducible intro _ | exact by decide)

theorem leaves_wdgEnable (a : Access) (u : Fin 8) (s : State) : Leaves [.memRegs, .wdg, .bus] s (execWdgEnable a u s) := by
  unfold execWdgEnable
  refine leaves_next ?_
  repeat (any_goals first | with_reducible assumption | with_reducible exact kept_refl | with_reducible apply kept_modWdg | with_reducible apply kept_wdgWrite | split | with_reducible intro _ | exact by decide)

theorem leaves_checkin (c : CoreId) (p : Fin 64) (s : State) : Leaves [.cim] s (execCheckin c p s) := by
  unfold execCheckin
  refine leaves_next ?_
  repeat (any_goals first | with_reducible assumption | with_reducible exact kept_refl | with_reducible apply kept_checkinOp | split | with_reducible intro _ | exact by decide)

theorem leaves_checkinWindowEnd (d : DomId) (s : State) : Leaves [.cores, .doms, .pairs, .voter, .solvers, .hsb, .sync, .fg, .mbx, .cim, .esc, .ps, .boot, .arb, .log] s (execCheckinWindowEnd d s) := by
  unfold execCheckinWindowEnd
  refine leaves_next ?_
  repeat (any_goals first | with_reducible assumption | with_reducible exact kept_refl | with_reducible apply kept_modCim | with_reducible apply kept_supervisionFailure | split | with_reducible intro _ | exact by decide | dsimp only)

theorem leaves_domainRestart (d : DomId) (hostCold : Bool) (s : State) : Leaves [.cores, .doms, .pairs, .mem, .voter, .solvers, .rmus, .ixl, .conns, .hsb, .sync, .mbx, .cim, .esc, .power, .arb, .log, .freeCtr] s (execDomainRestart d hostCold s) := by
  unfold execDomainRestart
  refine leaves_next ?_
  repeat (any_goals first | with_reducible assumption | with_reducible exact kept_refl | with_reducible apply kept_domRestart | split | with_reducible intro _ | exact by decide)

theorem leaves_reqOperRun (src : ReqSrc) (s : State) : Leaves [.cyc, .cores, .doms, .pairs, .mem, .voter, .solvers, .rmus, .ixl, .conns, .ring, .rtm, .hsb, .sync, .mbx, .cim, .esc, .rtc, .ps, .power, .arb, .log, .freeCtr] s (execReqOperRun src s) := by
  unfold execReqOperRun
  refine leaves_next ?_
  repeat (any_goals first | with_reducible assumption | with_reducible exact kept_refl | with_reducible apply kept_maRequest | split | with_reducible intro _ | exact by decide)

theorem leaves_reqOperStop (src : ReqSrc) (s : State) : Leaves [.cyc, .cores, .doms, .pairs, .mem, .voter, .solvers, .rmus, .ixl, .conns, .ring, .rtm, .hsb, .sync, .mbx, .cim, .esc, .rtc, .ps, .power, .arb, .log, .freeCtr] s (execReqOperStop src s) := by
  unfold execReqOperStop
  refine leaves_next ?_
  repeat (any_goals first | with_reducible assumption | with_reducible exact kept_refl | with_reducible apply kept_maRequest | split | with_reducible intro _ | exact by decide)

theorem leaves_reqOperHold (src : ReqSrc) (s : State) : Leaves [.cyc, .cores, .doms, .pairs, .mem, .voter, .solvers, .rmus, .ixl, .conns, .ring, .rtm, .hsb, .sync, .mbx, .cim, .esc, .rtc, .ps, .power, .arb, .log, .freeCtr] s (execReqOperHold src s) := by
  unfold execReqOperHold
  refine leaves_next ?_
  repeat (any_goals first | with_reducible assumption | with_reducible exact kept_refl | with_reducible apply kept_maRequest | split | with_reducible intro _ | exact by decide)

theorem leaves_reqOperService (src : ReqSrc) (s : State) : Leaves [.cyc, .cores, .doms, .pairs, .mem, .voter, .solvers, .rmus, .ixl, .conns, .ring, .rtm, .hsb, .sync, .mbx, .cim, .esc, .rtc, .ps, .power, .arb, .log, .freeCtr] s (execReqOperService src s) := by
  unfold execReqOperService
  refine leaves_next ?_
  repeat (any_goals first | with_reducible assumption | with_reducible exact kept_refl | with_reducible apply kept_maRequest | split | with_reducible intro _ | exact by decide)

theorem leaves_reqRunState (src : ReqSrc) (d : DomId) (run : Bool) (s : State) : Leaves [.cyc, .cores, .doms, .pairs, .mem, .voter, .solvers, .rmus, .ixl, .conns, .ring, .rtm, .hsb, .sync, .mbx, .cim, .esc, .rtc, .ps, .power, .arb, .log, .freeCtr] s (execReqRunState src d run s) := by
  unfold execReqRunState
  refine leaves_next ?_
  repeat (any_goals first | with_reducible assumption | with_reducible exact kept_refl | with_reducible apply kept_maRequest | split | with_reducible intro _ | exact by decide)

theorem leaves_reqNotRequestable (src : ReqSrc) (dim st : BitVec 8) (s : State) : Leaves [.cyc, .cores, .doms, .pairs, .mem, .voter, .solvers, .rmus, .ixl, .conns, .ring, .rtm, .hsb, .sync, .mbx, .cim, .esc, .rtc, .ps, .power, .arb, .log, .freeCtr] s (execReqNotRequestable src dim st s) := by
  unfold execReqNotRequestable
  refine leaves_next ?_
  repeat (any_goals first | with_reducible assumption | with_reducible exact kept_refl | with_reducible apply kept_maRequest | split | with_reducible intro _ | exact by decide)

theorem leaves_stopEffect (s : State) : Leaves [.cores, .doms, .voter, .solvers, .hsb, .sync, .fg, .mbx, .boot, .arb, .log] s (execStopEffect s) := by
  unfold execStopEffect
  refine leaves_next ?_
  repeat (any_goals first | with_reducible assumption | with_reducible exact kept_refl | with_reducible apply kept_refusePending | with_reducible apply kept_modeDone | with_reducible apply kept_enterStop | split | with_reducible apply kept_upd_arb | with_reducible intro _ | exact by decide)

theorem leaves_holdEffect (s : State) : Leaves [.cores, .doms, .solvers, .sync, .mbx, .arb] s (execHoldEffect s) := by
  unfold execHoldEffect
  refine leaves_next ?_
  repeat (any_goals first | with_reducible assumption | with_reducible exact kept_refl | with_reducible apply kept_refusePending | with_reducible apply kept_pairHold | with_reducible apply kept_setOper | with_reducible apply kept_modeDone | (with_reducible apply kept_foldl; rotate_left; intro _ _ _) | split | with_reducible apply kept_upd_arb | with_reducible intro _ | exact by decide)

theorem leaves_holdReturn (s : State) : Leaves [.cores, .doms, .mem, .voter, .solvers, .sync, .mbx, .cim, .arb, .freeCtr] s (execHoldReturn s) := by
  unfold execHoldReturn
  refine leaves_next ?_
  repeat (any_goals first | with_reducible assumption | with_reducible exact kept_refl | with_reducible apply kept_cimRestart | with_reducible apply kept_setOper | with_reducible apply kept_modeDone | with_reducible apply kept_primeTimers | (with_reducible apply kept_foldl; rotate_left; intro _ _ _) | split | with_reducible apply kept_upd_arb | with_reducible intro _ | exact by decide)

theorem leaves_domainStopEffect (d : DomId) (s : State) : Leaves [.cores, .doms, .voter, .solvers, .hsb, .sync, .mbx, .arb, .log] s (execDomainStopEffect d s) := by
  unfold execDomainStopEffect
  refine leaves_next ?_
  refine kept_ite kept_refl (kept_ite (kept_refusePending _ _ _ kept_refl (by decide)) ?_)
  extract_lets a s1 s2
  have h1 : Kept [.cores, .doms, .voter, .solvers, .hsb, .sync, .mbx, .arb, .log] s s1 := kept_upd_arb kept_refl (by decide)
  have h2 : Kept [.cores, .doms, .voter, .solvers, .hsb, .sync, .mbx, .arb, .log] s s2 := by
    dsimp only [s2]
    split
    · exact kept_pairCommandStop _ _ _ h1 (by decide)
    · exact kept_setMembers _ _ _ _ (kept_groupHalt _ _ _ h1 (by decide)) (by decide)
  exact kept_ite (kept_modeDone _ h2 (by decide)) h2

theorem leaves_freightStopLink (s : State) : Leaves [.mem, .ring, .rtm, .sync, .mbx, .arb] s (execFreightStopLink s) := by
  unfold execFreightStopLink
  refine leaves_next ?_
  repeat (any_goals first | with_reducible assumption | with_reducible exact kept_refl | with_reducible apply kept_frtEndAll | split | with_reducible apply kept_upd_arb | with_reducible intro _ | exact by decide)

theorem leaves_keySwitchChange (s : State) : Leaves [.cyc, .cores, .doms, .voter, .solvers, .hsb, .sync, .mbx, .rtc, .arb, .log] s (execKeySwitchChange s) := by
  unfold execKeySwitchChange
  refine leaves_next ?_
  repeat (any_goals first | with_reducible assumption | with_reducible exact kept_refl | with_reducible apply kept_keySet | split | with_reducible apply kept_upd_arb | with_reducible intro _ | exact by decide)

theorem leaves_keySwitchSettle (pos : KeyPos) (s : State) : Leaves [.cyc, .cores, .doms, .voter, .solvers, .hsb, .sync, .mbx, .rtc, .arb, .log] s (execKeySwitchSettle pos s) := by
  unfold execKeySwitchSettle
  refine leaves_next ?_
  repeat (any_goals first | with_reducible assumption | with_reducible exact kept_refl | with_reducible apply kept_keySet | split | with_reducible apply kept_upd_arb | with_reducible intro _ | exact by decide)

theorem leaves_datagramReceive (car : Carrier) (b : List Byte) (s : State) : Leaves [.cores, .sync, .mbx, .log] s (execDatagramReceive car b s) := by
  unfold execDatagramReceive
  refine leaves_next ?_
  repeat (any_goals first | with_reducible assumption | with_reducible exact kept_refl | with_reducible apply kept_takeFragment | with_reducible apply kept_countMbx | with_reducible apply kept_hostDatagram | split | with_reducible intro _ | exact by decide)

theorem leaves_arpRequest (ip : Word) (s : State) : Leaves [.mbx] s (execArpRequest ip s) := by
  unfold execArpRequest
  refine leaves_next ?_
  repeat (any_goals first | with_reducible assumption | with_reducible exact kept_refl | with_reducible apply kept_countMbx | split | with_reducible apply kept_upd_mbx | with_reducible intro _ | exact by decide)

theorem leaves_icmpEcho (ip : Word) (payload : List Byte) (s : State) : Leaves [.mbx] s (execIcmpEcho ip payload s) := by
  unfold execIcmpEcho
  refine leaves_next ?_
  repeat (any_goals first | with_reducible assumption | with_reducible exact kept_refl | split | with_reducible apply kept_upd_mbx | with_reducible intro _ | exact by decide)

theorem leaves_fragmentTimeout (id : BitVec 16) (s : State) : Leaves [.mbx] s (execFragmentTimeout id s) := by
  unfold execFragmentTimeout
  refine leaves_next ?_
  repeat (any_goals first | with_reducible assumption | with_reducible exact kept_refl | with_reducible apply kept_countMbx | split | with_reducible apply kept_upd_mbx | with_reducible intro _ | exact by decide)

theorem leaves_mailbox (m : SyncHdr) (dg : List Byte) (s : State) : Leaves [.cores, .hsb, .sync, .mbx, .ps, .freeCtr] s (execMailbox m dg s) := by
  unfold execMailbox
  refine leaves_next ?_
  repeat (any_goals first | with_reducible assumption | with_reducible exact kept_refl | with_reducible apply kept_syncGet | with_reducible apply kept_partnerDatagram | split | with_reducible intro _ | exact by decide)

theorem leaves_forwardResend (r : CmdRef) (s : State) : Leaves [.sync, .mbx] s (execForwardResend r s) := by
  unfold execForwardResend
  refine leaves_next ?_
  repeat (any_goals first | with_reducible assumption | with_reducible exact kept_refl | with_reducible apply kept_modSlot | with_reducible apply kept_forwardSend | with_reducible apply kept_finish | split | with_reducible intro _ | exact by decide)

theorem leaves_openSession (r : CmdRef) (s : State) : Leaves [.mbx, .freeCtr] s (execOpenSession r s) := by
  unfold execOpenSession
  refine leaves_next ?_
  split
  · exact kept_refl
  · rename_i x t taken
    have ht : Kept [.mbx, .freeCtr] s t := kept_takeOnce taken (by decide)
    repeat (any_goals first | with_reducible assumption | with_reducible apply kept_sendOpen | with_reducible apply kept_modSess | with_reducible apply kept_countMbx | with_reducible apply kept_nextFree | split | exact by decide | dsimp only)

theorem leaves_closeSession (r : CmdRef) (s : State) : Leaves [.sync, .mbx] s (execCloseSession r s) := by
  unfold execCloseSession
  refine leaves_next ?_
  split
  · exact kept_refl
  · rename_i x t taken
    have ht : Kept [.sync, .mbx] s t := kept_takeOnce taken (by decide)
    repeat (any_goals first | with_reducible assumption | with_reducible apply kept_closeSess | with_reducible apply kept_answerDg | split | exact by decide)

theorem leaves_keepalive (r : CmdRef) (s : State) : Leaves [.sync, .mbx] s (execKeepalive r s) := by
  unfold execKeepalive
  refine leaves_next ?_
  split
  · exact kept_refl
  · rename_i x t taken
    have ht : Kept [.sync, .mbx] s t := kept_takeOnce taken (by decide)
    repeat (any_goals first | with_reducible assumption | with_reducible apply kept_answerDg | split | exact by decide)

theorem leaves_sessionOpenTimeout (n : Fin 4) (s : State) : Leaves [.mbx] s (execSessionOpenTimeout n s) := by
  unfold execSessionOpenTimeout
  refine leaves_next ?_
  repeat (any_goals first | with_reducible assumption | with_reducible exact kept_refl | with_reducible apply kept_closeSess | split | with_reducible intro _ | exact by decide)

theorem leaves_sessionIdleTimeout (n : Fin 4) (s : State) : Leaves [.mbx] s (execSessionIdleTimeout n s) := by
  unfold execSessionIdleTimeout
  refine leaves_next ?_
  repeat (any_goals first | with_reducible assumption | with_reducible exact kept_refl | with_reducible apply kept_closeSess | split | with_reducible intro _ | exact by decide)

theorem leaves_sessionStationLost (s : State) : Leaves [.mbx] s (execSessionStationLost s) := by
  unfold execSessionStationLost
  refine leaves_next ?_
  repeat (any_goals first | with_reducible assumption | with_reducible exact kept_refl | with_reducible apply kept_closeSess | (with_reducible apply kept_foldl; rotate_left; intro _ _ _) | split | with_reducible intro _ | exact by decide | dsimp only)

theorem leaves_commandIncomplete (r : CmdRef) (s : State) : Leaves [.sync, .mbx] s (execCommandIncomplete r s) := by
  unfold execCommandIncomplete
  refine leaves_next ?_
  repeat (any_goals first | with_reducible assumption | with_reducible exact kept_refl | with_reducible apply kept_finish | split | with_reducible intro _ | exact by decide)

theorem leaves_abortCmd (r : CmdRef) (s : State) : Leaves [.doms, .solvers, .ring, .sync, .mbx, .update, .ps, .arch, .arb] s (execAbortCmd r s) := by
  unfold execAbortCmd
  refine leaves_next ?_
  split
  · exact kept_refl
  · rename_i x t taken
    have ht : Kept [.doms, .solvers, .ring, .sync, .mbx, .update, .ps, .arch, .arb] s t := kept_takeOnce taken (by decide)
    repeat (any_goals first | with_reducible assumption | with_reducible apply kept_answerDg | with_reducible apply kept_finish | with_reducible apply kept_cancelLower | split | exact by decide | dsimp only)

theorem leaves_commandTimeout (r : CmdRef) (s : State) : Leaves [.doms, .solvers, .ring, .sync, .mbx, .update, .ps, .arch, .arb] s (execCommandTimeout r s) := by
  unfold execCommandTimeout
  refine leaves_next ?_
  repeat (any_goals first | with_reducible assumption | with_reducible exact kept_refl | with_reducible apply kept_finish | with_reducible apply kept_cancelLower | split | with_reducible intro _ | exact by decide)

theorem leaves_commandComplete (r : CmdRef) (o : LowerOutcome) (s : State) : Leaves [.sync, .mbx] s (execCommandComplete r o s) := by
  unfold execCommandComplete
  refine leaves_next ?_
  repeat (any_goals first | with_reducible assumption | with_reducible exact kept_refl | with_reducible apply kept_finish | with_reducible apply kept_countMbx | split | with_reducible intro _ | exact by decide)

theorem leaves_imageLoad (r : CmdRef) (s : State) : Leaves [.cores, .doms, .mem, .memRegs, .memErrs, .voter, .solvers, .ixl, .sync, .fg, .fgErr, .mbx, .wdg, .cim, .arch, .boot, .arb, .log, .freeCtr] s (execImageLoad r s) := by
  unfold execImageLoad
  refine leaves_next ?_
  repeat (any_goals first | with_reducible assumption | with_reducible exact kept_refl | with_reducible apply kept_badParam | with_reducible apply kept_runCmd | with_reducible apply kept_imageLoadOp | split | with_reducible intro _ | exact by decide)

theorem leaves_migrationBulkPass (d : DomId) (s : State) : Leaves [.cores, .doms, .mem, .voter, .solvers, .hsb, .sync, .mbx, .arb, .log, .freeCtr] s (execMigrationBulkPass d s) := by
  unfold execMigrationBulkPass
  refine leaves_next ?_
  repeat (any_goals first | with_reducible assumption | with_reducible exact kept_refl | with_reducible apply kept_migrateStep | with_reducible apply kept_schedule | split | with_reducible intro _ | exact by decide | dsimp only)

theorem leaves_swap (d : DomId) (s : State) : Leaves [.cores, .doms, .mem, .memRegs, .memErrs, .voter, .solvers, .ixl, .conns, .hsb, .sync, .mbx, .cim, .boot, .arb, .log, .freeCtr] s (execSwap d s) := by
  unfold execSwap
  refine leaves_next ?_
  repeat (any_goals first | with_reducible assumption | with_reducible exact kept_refl | with_reducible apply kept_recipeTurn | with_reducible apply kept_swapped | with_reducible apply kept_migRun | with_reducible apply kept_turnTo | with_reducible apply kept_migForward | split | with_reducible intro _ | exact by decide | dsimp only)

theorem leaves_migNoconv (d : DomId) (s : State) : Leaves [.doms, .sync, .mbx, .arb] s (execMigNoconv d s) := by
  unfold execMigNoconv
  refine leaves_next ?_
  repeat (any_goals first | with_reducible assumption | with_reducible exact kept_refl | with_reducible apply kept_finishRefusedOpt | with_reducible apply kept_setChg | with_reducible apply kept_modDom | split | with_reducible intro _ | exact by decide | dsimp only)

theorem leaves_changeConfirm (r : CmdRef) (s : State) : Leaves [.doms, .hsb, .sync, .mbx, .arb, .log] s (execChangeConfirm r s) := by
  unfold execChangeConfirm
  refine leaves_next ?_
  repeat (any_goals first | with_reducible assumption | with_reducible exact kept_refl | with_reducible apply kept_changeCmd | with_reducible apply kept_runCmd | split | with_reducible intro _ | exact by decide)

theorem leaves_changeRevert (r : CmdRef) (s : State) : Leaves [.doms, .hsb, .sync, .mbx, .arb, .log] s (execChangeRevert r s) := by
  unfold execChangeRevert
  refine leaves_next ?_
  repeat (any_goals first | with_reducible assumption | with_reducible exact kept_refl | with_reducible apply kept_changeCmd | with_reducible apply kept_runCmd | split | with_reducible intro _ | exact by decide)

theorem leaves_changeConfirmEffect (d : DomId) (s : State) : Leaves [.cores, .doms, .mem, .voter, .solvers, .hsb, .sync, .mbx, .arch, .arb, .log, .freeCtr] s (execChangeConfirmEffect d s) := by
  unfold execChangeConfirmEffect
  refine leaves_next ?_
  repeat (any_goals first | with_reducible assumption | with_reducible exact kept_refl | with_reducible apply kept_retainCopy | with_reducible apply kept_finishOpt | with_reducible apply kept_resyncBegin | with_reducible apply kept_addLog | with_reducible apply kept_modDom | with_reducible apply kept_setRole | with_reducible apply kept_suspend | with_reducible apply kept_setChg | split | with_reducible apply kept_upd_arch | with_reducible intro _ | exact by decide)

theorem leaves_confirmWindowExpiry (d : DomId) (s : State) : Leaves [.doms, .sync] s (execConfirmWindowExpiry d s) := by
  unfold execConfirmWindowExpiry
  refine leaves_next ?_
  repeat (any_goals first | with_reducible assumption | with_reducible exact kept_refl | with_reducible apply kept_sendRelinquish | with_reducible apply kept_modDom | split | with_reducible intro _ | exact by decide | dsimp only)

theorem leaves_revert (d : DomId) (s : State) : Leaves [.cores, .doms, .mem, .memRegs, .memErrs, .voter, .solvers, .ixl, .conns, .hsb, .sync, .mbx, .cim, .boot, .arb, .log, .freeCtr] s (execRevert d s) := by
  unfold execRevert
  refine leaves_next ?_
  repeat (any_goals first | with_reducible assumption | with_reducible exact kept_refl | with_reducible apply kept_recipeTurn | with_reducible apply kept_finishOpt | with_reducible apply kept_migRun | with_reducible apply kept_turnTo | with_reducible apply kept_addLog | with_reducible apply kept_modDom | with_reducible apply kept_migBack | with_reducible apply kept_suspend | with_reducible apply kept_setChg | split | with_reducible intro _ | exact by decide | dsimp only)

theorem leaves_revertNoconv (d : DomId) (s : State) : Leaves [.cores, .doms, .voter, .solvers, .hsb, .sync, .mbx, .arb, .log] s (execRevertNoconv d s) := by
  unfold execRevertNoconv
  refine leaves_next ?_
  repeat (any_goals first | with_reducible assumption | with_reducible exact kept_refl | with_reducible apply kept_setMembers | with_reducible apply kept_groupHalt | with_reducible apply kept_pairCommandStop | split | with_reducible intro _ | exact by decide | dsimp only)

theorem leaves_resyncImageDone (s : State) : Leaves [.cores, .doms, .mem, .memRegs, .memErrs, .voter, .solvers, .ixl, .conns, .sync, .fg, .fgErr, .wdg, .cim, .arch, .boot, .log, .freeCtr] s (execResyncImageDone s) := by
  unfold execResyncImageDone
  refine leaves_next ?_
  repeat (any_goals first | with_reducible assumption | with_reducible exact kept_refl | with_reducible apply kept_modSync | with_reducible apply kept_adoptImage | (with_reducible apply kept_foldl; rotate_left; intro _ _ _) | split | with_reducible intro _ | exact by decide)

theorem leaves_psRead (pg : BitVec 12) (off : BitVec 8) (lenm1 : BitVec 8) (s : State) : Leaves [.memRegs, .ps, .bus] s (execPsRead pg off lenm1 s) := by
  unfold execPsRead
  refine leaves_next ?_
  repeat (any_goals first | with_reducible assumption | with_reducible exact kept_refl | with_reducible apply kept_psBy | with_reducible apply kept_psCmdOp | split | with_reducible intro _ | exact by decide)

theorem leaves_psWrite (pg : BitVec 12) (off : BitVec 8) (lenm1 : BitVec 8) (s : State) : Leaves [.memRegs, .ps, .bus] s (execPsWrite pg off lenm1 s) := by
  unfold execPsWrite
  refine leaves_next ?_
  repeat (any_goals first | with_reducible assumption | with_reducible exact kept_refl | with_reducible apply kept_psBy | with_reducible apply kept_psCmdOp | split | with_reducible intro _ | exact by decide)

theorem leaves_psWriteCommit (o : ProgOutcome) (s : State) : Leaves [.sync, .mbx, .esc, .ps, .fuses, .log] s (execPsWriteCommit o s) := by
  unfold execPsWriteCommit
  refine leaves_next ?_
  repeat (any_goals first | with_reducible assumption | with_reducible exact kept_refl | with_reducible apply kept_psMedium | with_reducible apply kept_psCommit | with_reducible apply kept_psRetire | with_reducible apply kept_setPage | with_reducible apply kept_modPs | with_reducible apply kept_psNext | split | with_reducible intro _ | exact by decide | dsimp only)

theorem leaves_psRefresh (pg : BitVec 12) (s : State) : Leaves [.ps] s (execPsRefresh pg s) := by
  unfold execPsRefresh
  refine leaves_next ?_
  repeat (any_goals first | with_reducible assumption | with_reducible exact kept_refl | with_reducible apply kept_modPs | split | with_reducible intro _ | exact by decide | dsimp only)

theorem leaves_pstoreRead (r : CmdRef) (s : State) : Leaves [.sync, .mbx] s (execPstoreRead r s) := by
  unfold execPstoreRead
  refine leaves_next ?_
  repeat (any_goals first | with_reducible assumption | with_reducible exact kept_refl | with_reducible apply kept_badParam | with_reducible apply kept_finish | with_reducible apply kept_runCmd | split | with_reducible intro _ | exact by decide | dsimp only)

theorem leaves_pstoreWrite (r : CmdRef) (s : State) : Leaves [.sync, .mbx, .ps] s (execPstoreWrite r s) := by
  unfold execPstoreWrite
  refine leaves_next ?_
  repeat (any_goals first | with_reducible assumption | with_reducible exact kept_refl | with_reducible apply kept_badParam | with_reducible apply kept_finish | with_reducible apply kept_runCmd | with_reducible apply kept_psQueue | with_reducible apply kept_waitFor | with_reducible apply kept_keyWrite | (with_reducible apply kept_foldl; rotate_left; intro _ _ _) | split | with_reducible intro _ | exact by decide | dsimp only)

theorem leaves_cfgWrite (r : CmdRef) (s : State) : Leaves [.cyc, .doms, .ring, .rtm, .hsb, .sync, .fg, .fgErr, .mbx, .wdg, .esc, .ps, .arch, .boot, .arb] s (execCfgWrite r s) := by
  unfold execCfgWrite
  refine leaves_next ?_
  repeat (any_goals first | with_reducible assumption | with_reducible exact kept_refl | with_reducible apply kept_badParam | with_reducible apply kept_finish | with_reducible apply kept_cfgApply | with_reducible apply kept_runCmd | with_reducible apply kept_finishRefused | split | with_reducible apply kept_upd_arch | with_reducible intro _ | exact by decide)

theorem leaves_cfgRead (r : CmdRef) (s : State) : Leaves [.sync, .mbx] s (execCfgRead r s) := by
  unfold execCfgRead
  refine leaves_next ?_
  repeat (any_goals first | with_reducible assumption | with_reducible exact kept_refl | with_reducible apply kept_badParam | with_reducible apply kept_finish | with_reducible apply kept_runCmd | split | with_reducible intro _ | exact by decide)

theorem leaves_orderlyReset (cause : BitVec 8) (s : State) : Leaves [.cyc, .cores, .doms, .pairs, .mem, .memRegs, .memErrs, .banks, .voter, .solvers, .rmus, .ixl, .conns, .ring, .rtm, .hsb, .sync, .fg, .fgErr, .mbx, .update, .wdg, .cim, .esc, .rtc, .ps, .boot, .power, .arb, .fuses, .dbg] s (execOrderlyReset cause s) := by
  unfold execOrderlyReset
  refine leaves_next ?_
  repeat (any_goals first | with_reducible assumption | with_reducible exact kept_refl | with_reducible apply kept_orderlyTry | with_reducible apply kept_orderlyBegin | split | with_reducible intro _ | exact by decide)

theorem leaves_rstReq (v : BitVec 16) (cause : BitVec 8) (s : State) : Leaves [.doms, .sync, .fg, .boot] s (execRstReq v cause s) := by
  unfold execRstReq
  refine leaves_next ?_
  repeat (any_goals first | with_reducible assumption | with_reducible exact kept_refl | with_reducible apply kept_rstReqOp | split | with_reducible intro _ | exact by decide)

theorem leaves_escalationReset (s : State) : Leaves [.cyc, .cores, .doms, .pairs, .mem, .memRegs, .memErrs, .banks, .voter, .solvers, .rmus, .ixl, .conns, .ring, .rtm, .hsb, .sync, .fg, .fgErr, .mbx, .update, .wdg, .cim, .esc, .rtc, .ps, .boot, .power, .arb, .fuses, .dbg] s (execEscalationReset s) := by
  unfold execEscalationReset
  refine leaves_next ?_
  repeat (any_goals first | with_reducible assumption | with_reducible exact kept_refl | with_reducible apply kept_moduleReset | with_reducible apply kept_pairsFinish | split | with_reducible intro _ | exact by decide | dsimp only)

theorem leaves_echoHalt (n : Fin 4) (s : State) : Leaves [.cores, .pairs] s (execEchoHalt n s) := by
  unfold execEchoHalt
  refine leaves_next ?_
  repeat (any_goals first | with_reducible assumption | with_reducible exact kept_refl | with_reducible apply kept_echoHaltAt | split | with_reducible intro _ | exact by decide)

theorem leaves_echoResume (n : Fin 4) (s : State) : Leaves [.cores, .pairs] s (execEchoResume n s) := by
  unfold execEchoResume
  refine leaves_next ?_
  repeat (any_goals first | with_reducible assumption | with_reducible exact kept_refl | with_reducible apply kept_modPair | with_reducible apply kept_modCore | with_reducible apply kept_echoAct | split | with_reducible intro _ | exact by decide)

theorem leaves_echoStep (n : Fin 4) (s : State) : Leaves [.cores, .pairs] s (execEchoStep n s) := by
  unfold execEchoStep
  refine leaves_next ?_
  repeat (any_goals first | with_reducible assumption | with_reducible exact kept_refl | with_reducible apply kept_modCore | with_reducible apply kept_echoAct | split | with_reducible intro _ | exact by decide)

theorem leaves_echoGreg (n : Fin 4) (r : Reg) (v : Word) (s : State) : Leaves [.cores, .pairs] s (execEchoGreg n r v s) := by
  unfold execEchoGreg
  refine leaves_next ?_
  repeat (any_goals first | with_reducible assumption | with_reducible exact kept_refl | with_reducible apply kept_echoWrite | split | with_reducible intro _ | exact by decide)

theorem leaves_echoPred (n : Fin 4) (p : Pred) (v : Bool) (s : State) : Leaves [.cores, .pairs] s (execEchoPred n p v s) := by
  unfold execEchoPred
  refine leaves_next ?_
  repeat (any_goals first | with_reducible assumption | with_reducible exact kept_refl | with_reducible apply kept_echoWrite | split | with_reducible intro _ | exact by decide)

theorem leaves_echoAcc (n : Fin 4) (a : Acc) (v : BitVec 64) (s : State) : Leaves [.cores, .pairs] s (execEchoAcc n a v s) := by
  unfold execEchoAcc
  refine leaves_next ?_
  repeat (any_goals first | with_reducible assumption | with_reducible exact kept_refl | with_reducible apply kept_echoWrite | split | with_reducible intro _ | exact by decide)

theorem leaves_echoSpecial (n : Fin 4) (sr : Fin 64) (v : Word) (s : State) : Leaves [.cores, .pairs] s (execEchoSpecial n sr v s) := by
  unfold execEchoSpecial
  refine leaves_next ?_
  repeat (any_goals first | with_reducible assumption | with_reducible exact kept_refl | with_reducible apply kept_echoWrite | split | with_reducible intro _ | exact by decide)

theorem leaves_echoMemw (n : Fin 4) (addr : Word) (v : BitVec 64) (s : State) : Leaves [.cores, .doms, .pairs, .mem, .memRegs, .memErrs, .banks, .voter, .solvers, .bus, .freeCtr] s (execEchoMemw n addr v s) := by
  unfold execEchoMemw
  refine leaves_next ?_
  repeat (any_goals first | with_reducible assumption | with_reducible exact kept_refl | with_reducible apply kept_echoAct | with_reducible apply kept_debugStore | split | with_reducible intro _ | exact by decide)

theorem leaves_echoBrkset (n : Fin 4) (addr : Word) (s : State) : Leaves [.pairs] s (execEchoBrkset n addr s) := by
  unfold execEchoBrkset
  refine leaves_next ?_
  repeat (any_goals first | with_reducible assumption | with_reducible exact kept_refl | with_reducible apply kept_modPair | with_reducible apply kept_echoAct | split | with_reducible intro _ | exact by decide)

theorem leaves_echoBrkclr (n : Fin 4) (addr : Word) (s : State) : Leaves [.pairs] s (execEchoBrkclr n addr s) := by
  unfold execEchoBrkclr
  refine leaves_next ?_
  repeat (any_goals first | with_reducible assumption | with_reducible exact kept_refl | with_reducible apply kept_modPair | with_reducible apply kept_echoAct | split | with_reducible intro _ | exact by decide)

theorem leaves_idcode (s : State) : Leaves [.dbg, .bus] s (execIdcode s) := by
  unfold execIdcode
  refine leaves_next ?_
  repeat (any_goals first | with_reducible assumption | with_reducible exact kept_refl | with_reducible apply kept_x13 | with_reducible apply kept_answer | split | with_reducible intro _ | exact by decide)

theorem leaves_bypass (s : State) : Leaves [.dbg] s (execBypass s) := by
  unfold execBypass
  refine leaves_next ?_
  exact kept_x13 _ _ _ _ (fun _ h => h) kept_refl (by decide)

theorem leaves_samplePreload (s : State) : Leaves [.dbg] s (execSamplePreload s) := by
  unfold execSamplePreload
  refine leaves_next ?_
  exact kept_x13 _ _ _ _ (fun _ h => h) kept_refl (by decide)

theorem leaves_extest (s : State) : Leaves [.dbg] s (execExtest s) := by
  unfold execExtest
  refine leaves_next ?_
  exact kept_x13 _ _ _ _ (fun _ h => h) kept_refl (by decide)

theorem leaves_pairDbg (n : Fin 4) (attach : Bool) (s : State) : Leaves [.cores, .pairs, .dbg] s (execPairDbg n attach s) := by
  unfold execPairDbg
  refine leaves_next ?_
  repeat (any_goals first | with_reducible assumption | with_reducible exact kept_refl | with_reducible apply kept_modPair | with_reducible apply kept_pairDetach | with_reducible apply kept_x13 | split | with_reducible intro _ | exact by decide)

theorem leaves_laneDbg (attach : Bool) (lane : Fin 4) (s : State) : Leaves [.cores, .doms, .voter, .hsb, .sync, .fg, .mbx, .ps, .boot, .arb, .dbg, .log] s (execLaneDbg attach lane s) := by
  unfold execLaneDbg
  refine leaves_next ?_
  repeat (any_goals first | with_reducible assumption | with_reducible exact kept_refl | with_reducible apply kept_voterRequest | with_reducible apply kept_x13 | split | with_reducible intro _ | exact by decide)

theorem leaves_resetReq (s : State) : Leaves [.doms, .sync, .fg, .boot, .dbg] s (execResetReq s) := by
  unfold execResetReq
  refine leaves_next ?_
  repeat (any_goals first | with_reducible assumption | with_reducible exact kept_refl | with_reducible apply kept_x13 | with_reducible apply kept_orderlyBegin | split | with_reducible intro _ | exact by decide)

theorem leaves_fusePgm (f : FuseField) (data : List Word) (s : State) : Leaves [.fuses, .dbg] s (execFusePgm f data s) := by
  unfold execFusePgm
  refine leaves_next ?_
  repeat (any_goals first | with_reducible assumption | with_reducible exact kept_refl | with_reducible apply kept_x13 | with_reducible apply kept_blowBegin | split | with_reducible intro _ | exact by decide)

theorem leaves_fuseBlowKrevoke (a : Access) (key : BitVec 16) (s : State) : Leaves [.memRegs, .fuses, .bus] s (execFuseBlowKrevoke a key s) := by
  unfold execFuseBlowKrevoke
  refine leaves_next ?_
  repeat (any_goals first | with_reducible assumption | with_reducible exact kept_refl | with_reducible apply kept_fuseCmd | split | with_reducible intro _ | exact by decide)

theorem leaves_fuseBlowDbgClose (a : Access) (key : BitVec 16) (s : State) : Leaves [.memRegs, .fuses, .bus] s (execFuseBlowDbgClose a key s) := by
  unfold execFuseBlowDbgClose
  refine leaves_next ?_
  repeat (any_goals first | with_reducible assumption | with_reducible exact kept_refl | with_reducible apply kept_fuseCmd | split | with_reducible intro _ | exact by decide)

theorem leaves_fuseWordDone (ok : Bool) (s : State) : Leaves [.cores, .pairs, .voter, .sync, .mbx, .arb, .fuses, .dbg, .freeCtr] s (execFuseWordDone ok s) := by
  unfold execFuseWordDone
  refine leaves_next ?_
  repeat (any_goals first | with_reducible assumption | with_reducible exact kept_refl | with_reducible apply kept_finish | with_reducible apply kept_modFuses | with_reducible apply kept_blowBits | with_reducible apply kept_fuseFail | with_reducible apply kept_nextFree | (with_reducible apply kept_foldl; rotate_left; intro _ _ _) | split | with_reducible intro _ | exact by decide | dsimp only)

theorem leaves_laneDebuggerAccess (l : Fin 3) (x : LaneAct) (s : State) : Leaves [.cores, .doms, .mem, .memRegs, .memErrs, .voter, .solvers, .hsb, .sync, .fg, .mbx, .ps, .boot, .arb, .log, .bus, .freeCtr] s (execLaneDebuggerAccess l x s) := by
  unfold execLaneDebuggerAccess
  refine leaves_next ?_
  repeat (any_goals first | with_reducible assumption | with_reducible exact kept_refl | with_reducible apply kept_store | with_reducible apply kept_checkWord | with_reducible apply kept_laneMemErr | with_reducible apply kept_nextFree | with_reducible apply kept_answer | with_reducible apply kept_clearWord | with_reducible apply kept_modCore | split | with_reducible intro _ | exact by decide | dsimp only)

theorem leaves_stratumPut (r : CmdRef) (s : State) : Leaves [.sync, .mbx] s (execStratumPut r s) := by
  unfold execStratumPut
  refine leaves_next ?_
  repeat (any_goals first | with_reducible assumption | with_reducible exact kept_refl | with_reducible apply kept_waitFor | with_reducible apply kept_badParam | with_reducible apply kept_runCmd | split | with_reducible intro _ | exact by decide)

theorem leaves_updateStart (r : CmdRef) (s : State) : Leaves [.doms, .sync, .mbx, .update, .ps, .arch, .boot, .arb, .log] s (execUpdateStart r s) := by
  unfold execUpdateStart
  refine leaves_next ?_
  repeat (any_goals first | with_reducible assumption | with_reducible exact kept_refl | with_reducible apply kept_updateGo | with_reducible apply kept_badParam | with_reducible apply kept_runCmd | with_reducible apply kept_finishRefused | with_reducible apply kept_modUpdate | split | with_reducible intro _ | exact by decide | dsimp only)

theorem leaves_updateClassStep (ok : Bool) (s : State) : Leaves [.cores, .doms, .sync, .fg, .mbx, .update, .ps, .arch, .boot, .arb, .log] s (execUpdateClassStep ok s) := by
  unfold execUpdateClassStep
  refine leaves_next ?_
  repeat (any_goals first | with_reducible assumption | with_reducible exact kept_refl | with_reducible apply kept_updateGo | with_reducible apply kept_setRunning | with_reducible apply kept_updateStop | with_reducible apply kept_finishOpt | with_reducible apply kept_classSwitch | with_reducible apply kept_orderlyBegin | with_reducible apply kept_modUpdate | split | with_reducible intro _ | exact by decide | dsimp only)

theorem leaves_updateConfirm (r : CmdRef) (s : State) : Leaves [.sync, .mbx, .ps, .arch, .boot, .fuses] s (execUpdateConfirm r s) := by
  unfold execUpdateConfirm
  refine leaves_next ?_
  repeat (any_goals first | with_reducible assumption | with_reducible exact kept_refl | with_reducible apply kept_badParam | with_reducible apply kept_blowBegin | with_reducible apply kept_settingsFreeze | with_reducible apply kept_writeBoot | with_reducible apply kept_runCmd | with_reducible apply kept_finishRefused | with_reducible apply kept_waitFor | with_reducible apply kept_fuseFail | split | with_reducible intro _ | exact by decide | dsimp only)

/-- The parts that a start may change. -/
abbrev startParts : List Part := [.cyc, .cores, .doms, .pairs, .mem, .memRegs, .memErrs, .banks, .voter, .solvers, .rmus, .ixl, .conns, .ring, .rtm, .hsb, .sync, .fg, .fgErr, .mbx, .update, .wdg, .cim,
  .esc, .rtc, .ps, .arch, .boot, .power, .arb, .fuses, .dbg, .log, .freeCtr]

/-- A boot step that stays within the parts of a start. -/
def StepKept (g : Step) : Prop := ∀ f s t, g f s = some t → Kept startParts s t

theorem stepKept_some {g : BootFindings → State → State} (h : ∀ f s, Kept startParts s (g f s)) : StepKept fun f s => some (g f s) := fun f s t e => by
  cases e
  exact h f s

theorem stepKept_bootB2 : StepKept bootB2 := by
  intro f s t e
  unfold bootB2 at e
  split at e
  case isTrue =>
    cases e
    exact kept_bootStore _ (kept_setFlag _ _ _ (kept_bootFallback _ (kept_bootCount _ (kept_psScanned _ kept_refl (by decide)) (by decide)) (by decide)) (by decide)) (by decide)
  case isFalse => cases e

theorem stepKept_bootB3 : StepKept bootB3 := by
  intro f s t e
  unfold bootB3 at e
  split at e
  case isTrue =>
    cases e
    exact kept_ite (kept_setFlag _ _ _ kept_refl (by decide)) kept_refl
  case isFalse => cases e

theorem stepKept_bootB4 : StepKept bootB4 := by
  intro f s t e
  unfold bootB4 at e
  split at e
  case isTrue =>
    cases e
    exact kept_ite (kept_setFlag _ _ _ kept_refl (by decide)) kept_refl
  case isFalse => cases e

theorem stepKept_bootB5 : StepKept bootB5 := by
  intro f s t e
  unfold bootB5 at e
  split at e
  case isTrue =>
    cases e
    exact kept_refl
  case isFalse => cases e

theorem stepKept_bootB6 : StepKept bootB6 := by
  intro f s t e
  unfold bootB6 at e
  split at e
  case isTrue => cases e
  case isFalse =>
    cases e
    exact kept_modCore _ _ _ (kept_ite kept_refl (kept_modRec _ _ (kept_modUpdate _ _ kept_refl (by decide)) (by decide))) (by decide)

theorem stepKept_bootB7 : StepKept bootB7 := by
  intro f s t e
  unfold bootB7 at e
  cases e
  repeat (any_goals first | with_reducible assumption | with_reducible exact kept_refl | with_reducible apply kept_modRec | with_reducible apply kept_addLog | with_reducible apply kept_degrade | split | exact by decide)

theorem stepKept_bootB8 : StepKept bootB8 := by
  intro f s t e
  unfold bootB8 at e
  dsimp only at e
  cases e
  repeat (any_goals first | with_reducible assumption | with_reducible exact kept_refl | with_reducible apply kept_psRecord | with_reducible apply kept_degrade | split | with_reducible apply kept_upd_esc | exact by decide)

theorem stepKept_bootB9 : StepKept bootB9 := by
  intro f s t e
  unfold bootB9 at e
  split at e
  case isTrue =>
    cases e
    exact kept_setFlag _ _ _ kept_refl (by decide)
  case isFalse =>
    split at e
    case isTrue =>
      cases e
      exact kept_setPd _ _ _ kept_refl (by decide)
    case isFalse => cases e

theorem stepKept_bootB10 : StepKept bootB10 := by
  intro f s t e
  unfold bootB10 at e
  dsimp only at e
  cases e
  repeat (any_goals first | with_reducible assumption | with_reducible exact kept_refl | with_reducible apply kept_degrade | split | with_reducible apply kept_upd_fg | exact by decide)

theorem stepKept_bootB11 : StepKept bootB11 := by
  intro f s t e
  unfold bootB11 at e
  dsimp only at e
  cases e
  repeat (any_goals first | with_reducible assumption | with_reducible exact kept_refl | with_reducible apply kept_degrade | with_reducible apply kept_modLane | with_reducible apply kept_setPd | with_reducible apply kept_modBoot | with_reducible apply kept_modReint | with_reducible apply kept_modDom | (with_reducible apply kept_foldl; rotate_left; intro _ _ _) | split | exact by decide)

theorem stepKept_bootB12 : StepKept bootB12 := by
  intro f s t e
  unfold bootB12 at e
  dsimp only at e
  split at e
  case isTrue => cases e
  case isFalse =>
    split at e
    case h_1 =>
      cases e
      exact kept_refl
    case h_2 b _ =>
      split at e
      case isTrue => cases e
      case isFalse =>
        cases e
        have applied := kept_cfgApply (Config.readCfgSet b) s kept_refl (List.Subset.refl _)
        exact kept_ite (kept_setFlag _ _ _ (kept_mono applied (by decide)) (by decide)) (kept_mono applied (by decide))

theorem stepKept_bootB13 : StepKept bootB13 := by
  intro f s t e
  unfold bootB13 at e
  dsimp only at e
  cases e
  repeat (any_goals first | with_reducible assumption | with_reducible exact kept_refl | with_reducible apply kept_degrade | with_reducible apply kept_bootProgram | with_reducible apply kept_keyLoad | with_reducible apply kept_addLog | (with_reducible apply kept_foldl; rotate_left; intro _ _ _) | split | exact by decide)

/-- A run of boot steps that each stay within the parts of a start. -/
theorem kept_bootRun {r : State} {f : BootFindings} {l : List (Nat × Step)} (hl : ∀ x ∈ l, StepKept x.2) {s : State} (h : Kept startParts r s) :
    Kept startParts r (bootRun f l s).1 :=
  bootRun_keeps (fun x hx s t e hs => kept_trans hs (hl x hx f s t e)) h

theorem stepsLow_kept : ∀ x ∈ stepsLow, StepKept x.2 := by
  simp only [stepsLow, List.forall_mem_cons]
  exact ⟨stepKept_bootB3, stepKept_bootB4, stepKept_bootB5, stepKept_bootB6, stepKept_bootB7, stepKept_bootB8, fun _ h => absurd h (by simp)⟩

theorem stepsHigh_kept : ∀ x ∈ stepsHigh, StepKept x.2 := by
  simp only [stepsHigh, List.forall_mem_cons]
  exact ⟨stepKept_bootB9, stepKept_bootB10, stepKept_bootB11, stepKept_bootB12, stepKept_bootB13, fun _ h => absurd h (by simp)⟩

theorem kept_bootOn {r : State} (f : BootFindings) (s : State) (h : Kept startParts r s) : Kept startParts r (bootOn f s) := by
  have low := kept_bootRun (f := f) stepsLow_kept h
  have high := kept_bootRun (f := f) stepsHigh_kept low
  have fails : ∀ n t, Kept startParts r t → Kept startParts r (bootFails n t) := fun n t ht => kept_bootFails n t ht (by decide)
  have done : ∀ t, Kept startParts r t → Kept startParts r (bootB14 f t) := fun t ht => kept_bootB14 f t ht (by decide)
  unfold bootOn
  dsimp only
  split
  · exact kept_ite (done _ low) (fails _ _ low)
  · refine kept_ite (done _ (kept_setFlag _ _ _ low (by decide))) ?_
    split
    · exact fails _ _ high
    · exact done _ high

theorem leaves_moduleStart (f : BootFindings) (s : State) : Leaves startParts s (execModuleStart f s) := by
  unfold execModuleStart
  refine leaves_next (kept_ite kept_refl ?_)
  have first := kept_bootB0 f s (kept_refl (ps := startParts)) (by decide)
  dsimp only
  split
  · exact kept_panelShow _ _ (kept_modBoot _ _ first (by decide)) (by decide)
  · refine kept_ite (kept_bootFails _ _ first (by decide)) ?_
    have second := kept_bootB1 _ first (by decide)
    split
    · exact kept_bootB14 _ _ (kept_modRec _ _ second (by decide)) (by decide)
    · split
      · exact kept_bootFails _ _ second (by decide)
      case h_2 e => exact kept_bootOn _ _ (kept_trans second (stepKept_bootB2 _ _ _ e))

theorem leaves_bootStepWrite (v : BitVec 4) (s : State) : Leaves [.boot] s (execBootStepWrite v s) := by
  unfold execBootStepWrite
  refine leaves_next ?_
  repeat (any_goals first | with_reducible assumption | with_reducible exact kept_refl | with_reducible apply kept_bootStepOp | split | with_reducible intro _ | exact by decide)

theorem leaves_bootTimerExpiry (s : State) : Leaves [.cyc, .cores, .doms, .pairs, .mem, .memRegs, .memErrs, .banks, .voter, .solvers, .rmus, .ixl, .conns, .ring, .rtm, .hsb, .sync, .fg, .fgErr, .mbx, .update, .wdg, .cim, .esc, .rtc, .ps, .boot, .power, .arb, .fuses, .dbg] s (execBootTimerExpiry s) := by
  unfold execBootTimerExpiry
  refine leaves_next ?_
  repeat (any_goals first | with_reducible assumption | with_reducible exact kept_refl | with_reducible apply kept_moduleReset | split | with_reducible intro _ | exact by decide)

theorem leaves_rtcSecondTick (s : State) : Leaves [.cores, .rtc, .ps, .power] s (execRtcSecondTick s) := by
  unfold execRtcSecondTick
  refine leaves_next ?_
  repeat (any_goals first | with_reducible assumption | with_reducible exact kept_refl | with_reducible apply kept_operatingSecond | with_reducible apply kept_almCompare | split | with_reducible apply kept_upd_rtc | with_reducible intro _ | exact by decide)

theorem leaves_rtcLoad (a : Access) (s : State) : Leaves [.cores, .memRegs, .rtc, .bus] s (execRtcLoad a s) := by
  unfold execRtcLoad
  refine leaves_next ?_
  repeat (any_goals first | with_reducible assumption | with_reducible exact kept_refl | with_reducible apply kept_rtcLoadOp | with_reducible apply kept_rtcWrite | split | with_reducible intro _ | exact by decide)

theorem leaves_rtcCtlDst (a : Access) (v : Fin 4) (s : State) : Leaves [.memRegs, .rtc, .bus] s (execRtcCtlDst a v s) := by
  unfold execRtcCtlDst
  refine leaves_next ?_
  repeat (any_goals first | with_reducible assumption | with_reducible exact kept_refl | with_reducible apply kept_rtcDstOp | with_reducible apply kept_rtcWrite | split | with_reducible intro _ | exact by decide)

theorem leaves_rtcShiftWrite (a : Access) (v : BitVec 16) (s : State) : Leaves [.memRegs, .rtc, .bus] s (execRtcShiftWrite a v s) := by
  unfold execRtcShiftWrite
  refine leaves_next ?_
  repeat (any_goals first | with_reducible assumption | with_reducible exact kept_refl | with_reducible apply kept_rtcWrite | with_reducible apply kept_rtcShiftOp | split | with_reducible intro _ | exact by decide)

theorem leaves_rtcAlarmArm (a : Access) (n : Fin 2) (v : Word) (s : State) : Leaves [.cores, .memRegs, .rtc, .bus] s (execRtcAlarmArm a n v s) := by
  unfold execRtcAlarmArm
  refine leaves_next ?_
  repeat (any_goals first | with_reducible assumption | with_reducible exact kept_refl | with_reducible apply kept_rtcAlmHiOp | with_reducible apply kept_rtcWrite | split | with_reducible intro _ | exact by decide)

theorem leaves_rtcWakeWrite (a : Access) (v : Word) (s : State) : Leaves [.memRegs, .rtc, .bus] s (execRtcWakeWrite a v s) := by
  unfold execRtcWakeWrite
  refine leaves_next ?_
  repeat (any_goals first | with_reducible assumption | with_reducible exact kept_refl | with_reducible apply kept_rtcWrite | with_reducible apply kept_rtcWakeOp | split | with_reducible intro _ | exact by decide)

theorem leaves_rtcWakeExpiry (s : State) : Leaves [.cores, .rtc] s (execRtcWakeExpiry s) := by
  unfold execRtcWakeExpiry
  refine leaves_next ?_
  repeat (any_goals first | with_reducible assumption | with_reducible exact kept_refl | with_reducible apply kept_raiseClock | split | with_reducible apply kept_upd_rtc | with_reducible intro _ | exact by decide)

theorem leaves_rtcShadowRead (a : Access) (r : Fin 6) (s : State) : Leaves [.memRegs, .rtc, .bus] s (execRtcShadowRead a r s) := by
  unfold execRtcShadowRead
  refine leaves_next ?_
  repeat (any_goals first | with_reducible assumption | with_reducible exact kept_refl | with_reducible apply kept_rtcShadowOp | split | with_reducible intro _ | exact by decide)

theorem leaves_rtcSnap (a : Access) (s : State) : Leaves [.memRegs, .rtc, .bus] s (execRtcSnap a s) := by
  unfold execRtcSnap
  refine leaves_next ?_
  repeat (any_goals first | with_reducible assumption | with_reducible exact kept_refl | with_reducible apply kept_rtcSnapOp | split | with_reducible intro _ | exact by decide)

theorem leaves_rtcSequenceTimeout (a : Access) (s : State) : Leaves [.rtc] s (execRtcSequenceTimeout a s) := by
  unfold execRtcSequenceTimeout
  refine leaves_next ?_
  repeat (any_goals first | with_reducible assumption | with_reducible exact kept_refl | split | with_reducible apply kept_upd_rtc | with_reducible intro _ | exact by decide)

theorem leaves_cycleStart (s : State) : Leaves [.cyc, .cores, .doms, .mem, .memRegs, .memErrs, .voter, .solvers, .ring, .rtm, .hsb, .sync, .fg, .mbx, .boot, .arb, .log, .freeCtr] s (execCycleStart s) := by
  unfold execCycleStart
  refine leaves_next ?_
  repeat (any_goals first | with_reducible assumption | with_reducible exact kept_refl | with_reducible apply kept_atBoundaryEffects | with_reducible apply kept_changeCount | with_reducible apply kept_groupAtTk | with_reducible apply kept_lastTrainLeft | with_reducible apply kept_fieldAtTk | with_reducible apply kept_trainAt | with_reducible apply kept_cycleTurn | with_reducible apply kept_ringTimeFix | with_reducible apply kept_hsbCycle | with_reducible apply kept_reintCount | (with_reducible apply kept_foldl; rotate_left; intro _ _ _) | split | with_reducible apply kept_upd_arb | with_reducible intro _ | exact by decide)

theorem leaves_inputReady (s : State) : Leaves [.cyc, .cores, .doms, .mem, .voter, .solvers, .ring, .rtm, .hsb, .sync, .mbx, .freeCtr] s (execInputReady s) := by
  unfold execInputReady
  refine leaves_next ?_
  repeat (any_goals first | with_reducible assumption | with_reducible exact kept_refl | with_reducible apply kept_inputsReady | split | with_reducible intro _ | exact by decide)

theorem leaves_returnLimit (s : State) : Leaves [.cyc, .cores, .doms, .mem, .voter, .solvers, .ring, .rtm, .hsb, .sync, .mbx, .freeCtr] s (execReturnLimit s) := by
  unfold execReturnLimit
  refine leaves_next ?_
  repeat (any_goals first | with_reducible assumption | with_reducible exact kept_refl | with_reducible apply kept_inputsReady | split | with_reducible intro _ | exact by decide)

theorem leaves_taskRelease (n : Fin 4) (s : State) : Leaves [.cores, .doms, .mem, .voter, .solvers, .wdg, .freeCtr] s (execTaskRelease n s) := by
  unfold execTaskRelease
  refine leaves_next ?_
  repeat (any_goals first | with_reducible assumption | with_reducible exact kept_refl | with_reducible apply kept_runtimeService | with_reducible apply kept_scheduleSoon | with_reducible apply kept_skipCycle | with_reducible apply kept_latchInputs | with_reducible apply kept_releaseDomain | split | with_reducible intro _ | exact by decide | dsimp only)

theorem leaves_agreementEnd (g : Fin 2) (s : State) : Leaves [.cyc, .cores, .doms, .mem, .memRegs, .memErrs, .banks, .voter, .solvers, .rmus, .ixl, .conns, .hsb, .sync, .fg, .mbx, .wdg, .cim, .esc, .ps, .boot, .arb, .log, .bus, .freeCtr] s (execAgreementEnd g s) := by
  unfold execAgreementEnd
  refine leaves_next ?_
  repeat (any_goals first | with_reducible assumption | with_reducible exact kept_refl | with_reducible apply kept_ixlReceive | with_reducible apply kept_agree | with_reducible apply kept_runtimeService | with_reducible apply kept_releaseDomain | with_reducible apply kept_ixlFinish | with_reducible apply kept_startCandidate | with_reducible apply kept_scheduleSoon | (with_reducible apply kept_foldl; rotate_left; intro _ _ _) | split | with_reducible intro _ | exact by decide)

theorem leaves_taskComplete (c : CoreId) (t : Fin 16) (s : State) : Leaves [.cyc, .cores, .doms, .mem, .memRegs, .memErrs, .banks, .voter, .solvers, .rmus, .ixl, .conns, .hsb, .sync, .fg, .mbx, .cim, .esc, .ps, .boot, .arb, .log, .bus, .freeCtr] s (execTaskComplete c t s) := by
  unfold execTaskComplete
  refine leaves_next ?_
  repeat (any_goals first | with_reducible assumption | with_reducible exact kept_refl | with_reducible apply kept_laneComplete | with_reducible apply kept_pairAbandon | with_reducible apply kept_pairComplete | with_reducible apply kept_autoCheckins | split | with_reducible intro _ | exact by decide | dsimp only)

theorem leaves_outputDeadline (s : State) : Leaves [.cyc, .cores, .doms, .mem, .memRegs, .banks, .voter, .solvers, .ixl, .hsb, .sync, .fg, .mbx, .cim, .esc, .ps, .boot, .arb, .log, .freeCtr] s (execOutputDeadline s) := by
  unfold execOutputDeadline
  refine leaves_next ?_
  repeat (any_goals first | with_reducible assumption | with_reducible exact kept_refl | with_reducible apply kept_eocDeadline | with_reducible apply kept_groupPublish | with_reducible apply kept_raiseDeadline | with_reducible apply kept_pairDeadline | with_reducible apply kept_hsbDeadline | (with_reducible apply kept_foldl; rotate_left; intro _ _ _) | split | with_reducible apply kept_upd_cyc | with_reducible intro _ | exact by decide)

theorem leaves_overrunLimitStop (n : Fin 4) (s : State) : Leaves [.cores, .doms, .pairs, .solvers, .hsb, .sync, .mbx, .arb, .log] s (execOverrunLimitStop n s) := by
  unfold execOverrunLimitStop
  refine leaves_next ?_
  repeat (any_goals first | with_reducible assumption | with_reducible exact kept_refl | with_reducible apply kept_modDom | with_reducible apply kept_pairStop | split | with_reducible intro _ | exact by decide | dsimp only)

theorem leaves_cycCountLoRead (a : Access) (s : State) : Leaves [.cyc, .memRegs, .bus] s (execCycCountLoRead a s) := by
  unfold execCycCountLoRead
  refine leaves_next ?_
  repeat (any_goals first | with_reducible assumption | with_reducible exact kept_refl | with_reducible apply kept_cycCountLo | split | with_reducible intro _ | exact by decide)

theorem leaves_cycTbLoRead (a : Access) (s : State) : Leaves [.cyc, .memRegs, .bus] s (execCycTbLoRead a s) := by
  unfold execCycTbLoRead
  refine leaves_next ?_
  repeat (any_goals first | with_reducible assumption | with_reducible exact kept_refl | with_reducible apply kept_cycTbLo | split | with_reducible intro _ | exact by decide)

theorem leaves_rtmOfsLoRead (a : Access) (s : State) : Leaves [.memRegs, .rtm, .bus] s (execRtmOfsLoRead a s) := by
  unfold execRtmOfsLoRead
  refine leaves_next ?_
  repeat (any_goals first | with_reducible assumption | with_reducible exact kept_refl | with_reducible apply kept_rtmOfsLo | split | with_reducible intro _ | exact by decide)

theorem leaves_clrovr (a : Access) (s : State) : Leaves [.doms, .memRegs, .bus] s (execClrovr a s) := by
  unfold execClrovr
  refine leaves_next ?_
  repeat (any_goals first | with_reducible assumption | with_reducible exact kept_refl | with_reducible apply kept_countAf | with_reducible apply kept_regAt | with_reducible apply kept_answer | with_reducible apply kept_clrovrOp | split | with_reducible intro _ | exact by decide)

theorem leaves_scrubLine (s : State) : Leaves [.cores, .doms, .memRegs, .memErrs, .banks, .voter, .hsb, .sync, .fg, .mbx, .ps, .boot, .arb, .log] s (execScrubLine s) := by
  unfold execScrubLine
  refine leaves_next ?_
  repeat (any_goals first | with_reducible assumption | with_reducible exact kept_refl | with_reducible apply kept_wakeBank | with_reducible apply kept_scrubRead | split | with_reducible apply kept_upd_memRegs | with_reducible intro _ | exact by decide)

theorem leaves_extScrubLine (s : State) : Leaves [.memRegs, .memErrs, .log] s (execExtScrubLine s) := by
  unfold execExtScrubLine
  refine leaves_next ?_
  repeat (any_goals first | with_reducible assumption | with_reducible exact kept_refl | with_reducible apply kept_addLog | with_reducible apply kept_extClear | with_reducible apply kept_extDecode | split | with_reducible apply kept_upd_memRegs | with_reducible intro _ | exact by decide)

theorem leaves_bankRetentionEntry (b : Fin 32) (s : State) : Leaves [.banks] s (execBankRetentionEntry b s) := by
  unfold execBankRetentionEntry
  refine leaves_next ?_
  repeat (any_goals first | with_reducible assumption | with_reducible exact kept_refl | split | with_reducible apply kept_upd_banks | with_reducible intro _ | exact by decide)

theorem leaves_grottoRetentionEntry (s : State) : Leaves [.banks] s (execGrottoRetentionEntry s) := by
  unfold execGrottoRetentionEntry
  refine leaves_next ?_
  repeat (any_goals first | with_reducible assumption | with_reducible exact kept_refl | split | with_reducible apply kept_upd_banks | with_reducible intro _ | exact by decide)

theorem leaves_feedPresent (f : Fin 2) (v : BitVec 16) (s : State) : Leaves [.rtc, .boot, .power] s (execFeedPresent f v s) := by
  unfold execFeedPresent
  refine leaves_next ?_
  repeat (any_goals first | with_reducible assumption | with_reducible exact kept_refl | with_reducible apply kept_setFeed | with_reducible apply kept_modPower | with_reducible apply kept_setPd | split | with_reducible apply kept_upd_rtc | with_reducible intro _ | exact by decide)

theorem leaves_feedLost (f : Fin 2) (v : BitVec 16) (s : State) : Leaves [.power, .log] s (execFeedLost f v s) := by
  unfold execFeedLost
  refine leaves_next ?_
  repeat (any_goals first | with_reducible assumption | with_reducible exact kept_refl | with_reducible apply kept_feedLost | split | with_reducible intro _ | exact by decide)

theorem leaves_feedOvervoltage (f : Fin 2) (v : BitVec 16) (s : State) : Leaves [.power, .log] s (execFeedOvervoltage f v s) := by
  unfold execFeedOvervoltage
  refine leaves_next ?_
  repeat (any_goals first | with_reducible assumption | with_reducible exact kept_refl | with_reducible apply kept_modPower | with_reducible apply kept_addLog | with_reducible apply kept_feedLost | split | with_reducible intro _ | exact by decide)

theorem leaves_bothFeedsLost (s : State) : Leaves [.cores, .doms, .fg, .power] s (execBothFeedsLost s) := by
  unfold execBothFeedsLost
  refine leaves_next ?_
  repeat (any_goals first | with_reducible assumption | with_reducible exact kept_refl | with_reducible apply kept_modPower | with_reducible apply kept_outputsDown | with_reducible apply kept_pairsFinish | split | with_reducible intro _ | exact by decide)

theorem leaves_pfPairAbandon (s : State) : Leaves [.cores, .doms] s (execPfPairAbandon s) := by
  unfold execPfPairAbandon
  refine leaves_next ?_
  repeat (any_goals first | with_reducible assumption | with_reducible exact kept_refl | with_reducible apply kept_pairsFinish | split | with_reducible intro _ | exact by decide)

theorem leaves_pfWriteCutoff (s : State) : Leaves [.ps, .fuses] s (execPfWriteCutoff s) := by
  unfold execPfWriteCutoff
  refine leaves_next ?_
  repeat (any_goals first | with_reducible assumption | with_reducible exact kept_refl | with_reducible apply kept_modPs | with_reducible apply kept_modFuses | split | with_reducible intro _ | exact by decide)

theorem leaves_feedReset (s : State) : Leaves [.cyc, .cores, .doms, .pairs, .mem, .memRegs, .memErrs, .banks, .voter, .solvers, .rmus, .ixl, .conns, .ring, .rtm, .hsb, .sync, .fg, .fgErr, .mbx, .update, .wdg, .cim, .esc, .rtc, .ps, .boot, .power, .arb, .fuses, .dbg] s (execFeedReset s) := by
  unfold execFeedReset
  refine leaves_next ?_
  repeat (any_goals first | with_reducible assumption | with_reducible exact kept_refl | with_reducible apply kept_feedReset | split | with_reducible intro _ | exact by decide)

theorem leaves_holdupShort (s : State) : Leaves [.cyc, .cores, .doms, .pairs, .mem, .memRegs, .memErrs, .banks, .voter, .solvers, .rmus, .ixl, .conns, .ring, .rtm, .hsb, .sync, .fg, .fgErr, .mbx, .update, .wdg, .cim, .esc, .rtc, .ps, .boot, .power, .arb, .fuses, .dbg] s (execHoldupShort s) := by
  unfold execHoldupShort
  refine leaves_next ?_
  repeat (any_goals first | with_reducible assumption | with_reducible exact kept_refl | with_reducible apply kept_feedReset | with_reducible apply kept_modPower | split | with_reducible intro _ | exact by decide)

theorem leaves_backupSwitchover (cell : Bool) (s : State) : Leaves [.mem, .memErrs, .rtc, .boot, .power] s (execBackupSwitchover cell s) := by
  unfold execBackupSwitchover
  refine leaves_next ?_
  repeat (any_goals first | with_reducible assumption | with_reducible exact kept_refl | with_reducible apply kept_modPower | with_reducible apply kept_aonLost | with_reducible apply kept_setPd | split | with_reducible intro _ | exact by decide)

theorem leaves_powerOnReset (s : State) : Leaves [.cyc, .cores, .doms, .pairs, .mem, .memRegs, .memErrs, .banks, .voter, .solvers, .rmus, .ixl, .conns, .ring, .rtm, .hsb, .sync, .fg, .fgErr, .mbx, .update, .wdg, .cim, .esc, .rtc, .ps, .boot, .power, .arb, .fuses, .dbg] s (execPowerOnReset s) := by
  unfold execPowerOnReset
  refine leaves_next ?_
  repeat (any_goals first | with_reducible assumption | with_reducible exact kept_refl | with_reducible apply kept_moduleReset | with_reducible apply kept_aonLost | split | with_reducible apply kept_upd_boot | with_reducible intro _ | exact by decide)

theorem leaves_railFault (s : State) : Leaves [.cyc, .cores, .doms, .pairs, .mem, .memRegs, .memErrs, .banks, .voter, .solvers, .rmus, .ixl, .conns, .ring, .rtm, .hsb, .sync, .fg, .fgErr, .mbx, .update, .wdg, .cim, .esc, .rtc, .ps, .boot, .power, .arb, .fuses, .dbg] s (execRailFault s) := by
  unfold execRailFault
  refine leaves_next ?_
  repeat (any_goals first | with_reducible assumption | with_reducible exact kept_refl | with_reducible apply kept_moduleReset | split | with_reducible intro _ | exact by decide)

theorem leaves_laneSupplyFault (l : Fin 3) (s : State) : Leaves [.cores, .doms, .voter, .hsb, .sync, .fg, .mbx, .ps, .boot, .arb, .log] s (execLaneSupplyFault l s) := by
  unfold execLaneSupplyFault
  refine leaves_next ?_
  repeat (any_goals first | with_reducible assumption | with_reducible exact kept_refl | with_reducible apply kept_laneCause | split | with_reducible intro _ | exact by decide)

theorem leaves_cellMeasure (present : Bool) (mv : BitVec 16) (s : State) : Leaves [.power, .log] s (execCellMeasure present mv s) := by
  unfold execCellMeasure
  refine leaves_next ?_
  repeat (any_goals first | with_reducible assumption | with_reducible exact kept_refl | with_reducible apply kept_modPower | with_reducible apply kept_addLog | split | with_reducible intro _ | exact by decide)

theorem leaves_tempSample (t : BitVec 16) (s : State) : Leaves [.power, .log] s (execTempSample t s) := by
  unfold execTempSample
  refine leaves_next ?_
  repeat (any_goals first | with_reducible assumption | with_reducible exact kept_refl | with_reducible apply kept_modPower | with_reducible apply kept_tempEvt | with_reducible apply kept_panelDrive | split | with_reducible intro _ | exact by decide | dsimp only)

theorem leaves_sfpChange (x : Sfp) (s : State) : Leaves [.hsb, .sync, .power, .log] s (execSfpChange x s) := by
  unfold execSfpChange
  refine leaves_next ?_
  repeat (any_goals first | with_reducible assumption | with_reducible exact kept_refl | with_reducible apply kept_syncDown | with_reducible apply kept_modPower | with_reducible apply kept_addLog | split | with_reducible intro _ | exact by decide)

theorem leaves_rootMonitorWindow (rootXtal rootRc xtalRc : Bool) (s : State) : Leaves [.cyc, .cores, .doms, .pairs, .mem, .memRegs, .memErrs, .banks, .voter, .solvers, .rmus, .ixl, .conns, .ring, .rtm, .hsb, .sync, .fg, .fgErr, .mbx, .update, .wdg, .cim, .esc, .rtc, .ps, .boot, .power, .arb, .fuses, .dbg, .log] s (execRootMonitorWindow rootXtal rootRc xtalRc s) := by
  unfold execRootMonitorWindow
  refine leaves_next ?_
  repeat (any_goals first | with_reducible assumption | with_reducible exact kept_refl | with_reducible apply kept_modBoot | with_reducible apply kept_moduleReset | with_reducible apply kept_addLog | with_reducible apply kept_xtalFail | split | with_reducible intro _ | exact by decide)

theorem leaves_mainPllFail (s : State) : Leaves [.cyc, .cores, .doms, .pairs, .mem, .memRegs, .memErrs, .banks, .voter, .solvers, .rmus, .ixl, .conns, .ring, .rtm, .hsb, .sync, .fg, .fgErr, .mbx, .update, .wdg, .cim, .esc, .rtc, .ps, .boot, .power, .arb, .fuses, .dbg, .log] s (execMainPllFail s) := by
  unfold execMainPllFail
  refine leaves_next ?_
  repeat (any_goals first | with_reducible assumption | with_reducible exact kept_refl | with_reducible apply kept_moduleReset | with_reducible apply kept_addLog | split | with_reducible intro _ | exact by decide)

theorem leaves_lanePllFail (l : Fin 3) (s : State) : Leaves [.cores, .doms, .voter, .hsb, .sync, .fg, .mbx, .ps, .boot, .arb, .log] s (execLanePllFail l s) := by
  unfold execLanePllFail
  refine leaves_next ?_
  repeat (any_goals first | with_reducible assumption | with_reducible exact kept_refl | with_reducible apply kept_modBoot | with_reducible apply kept_laneCause | with_reducible apply kept_modLane | split | with_reducible intro _ | exact by decide)

theorem leaves_registerWrite (a : Access) (addr : Word) (v : Word) (s : State) : Leaves [.cyc, .cores, .doms, .pairs, .mem, .memRegs, .memErrs, .voter, .solvers, .rmus, .ixl, .conns, .ring, .rtm, .hsb, .sync, .fg, .fgErr, .mbx, .wdg, .cim, .esc, .rtc, .ps, .boot, .power, .arb, .fuses, .dbg, .log, .bus, .freeCtr] s (execRegisterWrite a addr v s) := by
  unfold execRegisterWrite
  refine leaves_next ?_
  repeat (any_goals first | with_reducible assumption | with_reducible exact kept_refl | with_reducible apply kept_noPathAt | with_reducible apply kept_regWrite | split | with_reducible intro _ | exact by decide)

theorem leaves_bankWakeDone (b : Fin 33) (s : State) : Leaves [.cyc, .cores, .doms, .pairs, .mem, .memRegs, .memErrs, .banks, .voter, .solvers, .rmus, .ixl, .conns, .ring, .rtm, .hsb, .sync, .fg, .fgErr, .mbx, .wdg, .cim, .esc, .rtc, .ps, .boot, .power, .arb, .fuses, .dbg, .log, .bus, .freeCtr] s (execBankWakeDone b s) := by
  unfold execBankWakeDone
  refine leaves_next ?_
  split
  · refine kept_foldl (kept_upd_cores_banks kept_refl (by decide)) fun _ _ h => kept_servedNext _ _ h (by decide)
  · exact kept_refl

theorem leaves_ident (r : CmdRef) (s : State) : Leaves [.sync, .mbx] s (execIdent r s) := by
  unfold execIdent
  refine leaves_next ?_
  repeat (any_goals first | with_reducible assumption | with_reducible exact kept_refl | with_reducible apply kept_runSized | with_reducible apply kept_finish | split | with_reducible intro _ | exact by decide)

theorem leaves_statusCmd (r : CmdRef) (s : State) : Leaves [.sync, .mbx] s (execStatusCmd r s) := by
  unfold execStatusCmd
  refine leaves_next ?_
  repeat (any_goals first | with_reducible assumption | with_reducible exact kept_refl | with_reducible apply kept_runSized | with_reducible apply kept_finish | split | with_reducible intro _ | exact by decide)

theorem leaves_readReg (r : CmdRef) (s : State) : Leaves [.cyc, .memRegs, .rtm, .sync, .mbx, .rtc, .dbg, .bus] s (execReadReg r s) := by
  unfold execReadReg
  refine leaves_next ?_
  refine kept_runSized _ _ _ _ _ (fun x t ht => ?_) kept_refl (by decide)
  have bad : ∀ n, Kept _ s (badParam r n t) := fun n => kept_badParam _ _ _ ht (by decide)
  refine kept_ite (bad _) (kept_ite (bad _) (kept_ite (bad _) ?_))
  have read := kept_readRegs (sliceNat 4 2 x) (sliceNat 0 4 x) t ht (by decide)
  dsimp only
  split
  · exact kept_finish _ _ _ _ _ read (by decide)
  · exact kept_finish _ _ _ _ _ read (by decide)

theorem leaves_readMem (r : CmdRef) (s : State) : Leaves [.cores, .doms, .memRegs, .memErrs, .banks, .voter, .hsb, .sync, .fg, .mbx, .ps, .boot, .arb, .log, .freeCtr] s (execReadMem r s) := by
  unfold execReadMem
  refine leaves_next ?_
  repeat (any_goals first | with_reducible assumption | with_reducible exact kept_refl | with_reducible apply kept_runSized | with_reducible apply kept_readMem | with_reducible apply kept_badParam | split | with_reducible intro _ | exact by decide)

theorem leaves_supRead (r : CmdRef) (s : State) : Leaves [.sync, .mbx] s (execSupRead r s) := by
  unfold execSupRead
  refine leaves_next ?_
  repeat (any_goals first | with_reducible assumption | with_reducible exact kept_refl | with_reducible apply kept_runSized | with_reducible apply kept_finish | split | with_reducible intro _ | exact by decide)

theorem leaves_modeReq (r : CmdRef) (s : State) : Leaves [.cyc, .cores, .doms, .pairs, .mem, .voter, .solvers, .rmus, .ixl, .conns, .ring, .rtm, .hsb, .sync, .mbx, .cim, .esc, .rtc, .ps, .power, .arb, .log, .freeCtr] s (execModeReq r s) := by
  unfold execModeReq
  refine leaves_next ?_
  repeat (any_goals first | with_reducible assumption | with_reducible exact kept_refl | with_reducible apply kept_badParam | with_reducible apply kept_finish | with_reducible apply kept_modeRequest | with_reducible apply kept_notStarted | with_reducible apply kept_finishRefused | with_reducible apply kept_runSized | with_reducible apply kept_waitFor | split | with_reducible intro _ | exact by decide | dsimp only)

theorem leaves_voterReq (r : CmdRef) (s : State) : Leaves [.cores, .doms, .voter, .hsb, .sync, .fg, .mbx, .ps, .boot, .arb, .log] s (execVoterReq r s) := by
  unfold execVoterReq
  refine leaves_next ?_
  repeat (any_goals first | with_reducible assumption | with_reducible exact kept_refl | with_reducible apply kept_finish | with_reducible apply kept_notStarted | with_reducible apply kept_votReqOp | with_reducible apply kept_finishRefused | with_reducible apply kept_runSized | split | with_reducible intro _ | exact by decide | dsimp only)

theorem leaves_hsbReq (r : CmdRef) (s : State) : Leaves [.hsb, .sync, .mbx, .freeCtr] s (execHsbReq r s) := by
  unfold execHsbReq
  refine leaves_next ?_
  repeat (any_goals first | with_reducible assumption | with_reducible exact kept_refl | with_reducible apply kept_hsbReqOp | with_reducible apply kept_finish | with_reducible apply kept_notStarted | with_reducible apply kept_finishRefused | with_reducible apply kept_runSized | with_reducible apply kept_waitFor | split | with_reducible intro _ | exact by decide | dsimp only)

theorem leaves_restartCmd (r : CmdRef) (s : State) : Leaves [.cores, .doms, .pairs, .mem, .voter, .solvers, .rmus, .ixl, .conns, .hsb, .sync, .mbx, .cim, .esc, .power, .arb, .log, .freeCtr] s (execRestartCmd r s) := by
  unfold execRestartCmd
  refine leaves_next ?_
  repeat (any_goals first | with_reducible assumption | with_reducible exact kept_refl | with_reducible apply kept_badParam | with_reducible apply kept_finish | with_reducible apply kept_notStarted | with_reducible apply kept_domRestart | with_reducible apply kept_finishRefused | with_reducible apply kept_runSized | split | with_reducible intro _ | exact by decide | dsimp only)

theorem leaves_resetCmd (r : CmdRef) (s : State) : Leaves [.doms, .sync, .fg, .mbx, .boot] s (execResetCmd r s) := by
  unfold execResetCmd
  refine leaves_next ?_
  repeat (any_goals first | with_reducible assumption | with_reducible exact kept_refl | with_reducible apply kept_runSized | with_reducible apply kept_finish | with_reducible apply kept_orderlyBegin | split | with_reducible intro _ | exact by decide)

theorem leaves_ringEn (r : CmdRef) (s : State) : Leaves [.ring, .sync, .mbx, .ps, .boot, .arb, .freeCtr] s (execRingEn r s) := by
  unfold execRingEn
  refine leaves_next ?_
  repeat (any_goals first | with_reducible assumption | with_reducible exact kept_refl | with_reducible apply kept_finish | with_reducible apply kept_writeBoot | with_reducible apply kept_recordEn | with_reducible apply kept_finishRefused | with_reducible apply kept_runSized | with_reducible apply kept_ringEnRings | with_reducible apply kept_nextFree | split | with_reducible intro _ | exact by decide | dsimp only)

theorem leaves_lsDisable (r : CmdRef) (s : State) : Leaves [.solvers, .sync, .mbx] s (execLsDisable r s) := by
  unfold execLsDisable
  refine leaves_next ?_
  repeat (any_goals first | with_reducible assumption | with_reducible exact kept_refl | with_reducible apply kept_badParam | with_reducible apply kept_finish | with_reducible apply kept_modSolver | with_reducible apply kept_runSized | split | with_reducible intro _ | exact by decide | dsimp only)

theorem leaves_lsDisableTakeEffect (s : State) : Leaves [.cores, .solvers, .sync, .mbx, .boot] s (execLsDisableTakeEffect s) := by
  unfold execLsDisableTakeEffect
  refine leaves_next ?_
  repeat (any_goals first | with_reducible assumption | with_reducible exact kept_refl | with_reducible apply kept_lsDisableTake | (with_reducible apply kept_foldl; rotate_left; intro _ _ _) | split | with_reducible intro _ | exact by decide)

theorem leaves_imagePut (r : CmdRef) (s : State) : Leaves [.sync, .mbx] s (execImagePut r s) := by
  unfold execImagePut
  refine leaves_next ?_
  repeat (any_goals first | with_reducible assumption | with_reducible exact kept_refl | with_reducible apply kept_waitFor | with_reducible apply kept_badParam | with_reducible apply kept_runCmd | split | with_reducible intro _ | exact by decide)

theorem leaves_logRead (r : CmdRef) (s : State) : Leaves [.sync, .mbx] s (execLogRead r s) := by
  unfold execLogRead
  refine leaves_next ?_
  repeat (any_goals first | with_reducible assumption | with_reducible exact kept_refl | with_reducible apply kept_runSized | with_reducible apply kept_waitFor | split | with_reducible intro _ | exact by decide)

theorem leaves_archiveRead (r : CmdRef) (s : State) : Leaves [.sync, .mbx] s (execArchiveRead r s) := by
  unfold execArchiveRead
  refine leaves_next ?_
  repeat (any_goals first | with_reducible assumption | with_reducible exact kept_refl | with_reducible apply kept_runSized | with_reducible apply kept_waitFor | split | with_reducible intro _ | exact by decide)

theorem leaves_archiveAccessDone (r : CmdRef) (ok : Bool) (s : State) : Leaves [.sync, .mbx, .arch] s (execArchiveAccessDone r ok s) := by
  unfold execArchiveAccessDone
  refine leaves_next ?_
  repeat (any_goals first | with_reducible assumption | with_reducible exact kept_refl | with_reducible apply kept_finish | with_reducible apply kept_archiveDone | with_reducible apply kept_countMbx | with_reducible apply kept_modSlot | split | with_reducible intro _ | exact by decide)

theorem leaves_freight (r : CmdRef) (s : State) : Leaves [.mem, .ring, .sync, .mbx] s (execFreight r s) := by
  unfold execFreight
  refine leaves_next ?_
  repeat (any_goals first | with_reducible assumption | with_reducible exact kept_refl | with_reducible apply kept_badParam | with_reducible apply kept_finish | with_reducible apply kept_frtSubmit | with_reducible apply kept_runCmd | split | with_reducible intro _ | exact by decide | dsimp only)

theorem leaves_survey (r : CmdRef) (s : State) : Leaves [.mem, .ring, .rtm, .sync, .mbx, .freeCtr] s (execSurvey r s) := by
  unfold execSurvey
  refine leaves_next ?_
  repeat (any_goals first | with_reducible assumption | with_reducible exact kept_refl | with_reducible apply kept_runSized | with_reducible apply kept_surveyAll | with_reducible apply kept_waitFor | with_reducible apply kept_surveyBegin | with_reducible apply kept_finish | split | with_reducible intro _ | exact by decide | dsimp only)

theorem leaves_rtcRead (r : CmdRef) (s : State) : Leaves [.memRegs, .sync, .mbx, .rtc, .bus] s (execRtcRead r s) := by
  unfold execRtcRead
  refine leaves_next ?_
  repeat (any_goals first | with_reducible assumption | with_reducible exact kept_refl | with_reducible apply kept_runSized | with_reducible apply kept_finish | with_reducible apply kept_rtcSnapOp | with_reducible apply kept_rtcShadowOp | split | with_reducible intro _ | exact by decide)

theorem leaves_rtcSet (r : CmdRef) (s : State) : Leaves [.cores, .sync, .mbx, .rtc, .log] s (execRtcSet r s) := by
  unfold execRtcSet
  refine leaves_next ?_
  repeat (any_goals first | with_reducible assumption | with_reducible exact kept_refl | with_reducible apply kept_finish | with_reducible apply kept_rtcLoadOp | with_reducible apply kept_addLog | with_reducible apply kept_rtcWr | with_reducible apply kept_finishRefused | with_reducible apply kept_runSized | split | with_reducible intro _ | exact by decide | dsimp only)

theorem leaves_rtcShift (r : CmdRef) (s : State) : Leaves [.sync, .mbx, .rtc] s (execRtcShift r s) := by
  unfold execRtcShift
  refine leaves_next ?_
  repeat (any_goals first | with_reducible assumption | with_reducible exact kept_refl | with_reducible apply kept_runSized | with_reducible apply kept_badParam | with_reducible apply kept_finish | with_reducible apply kept_finishRefused | with_reducible apply kept_rtcShiftOp | split | with_reducible intro _ | exact by decide | dsimp only)

theorem leaves_rtcDst (r : CmdRef) (s : State) : Leaves [.sync, .mbx, .rtc] s (execRtcDst r s) := by
  unfold execRtcDst
  refine leaves_next ?_
  repeat (any_goals first | with_reducible assumption | with_reducible exact kept_refl | with_reducible apply kept_badParam | with_reducible apply kept_finish | with_reducible apply kept_rtcDstOp | with_reducible apply kept_finishRefused | with_reducible apply kept_runSized | split | with_reducible intro _ | exact by decide | dsimp only)

theorem leaves_serviceClear (r : CmdRef) (s : State) : Leaves [.sync, .mbx, .ps, .boot] s (execServiceClear r s) := by
  unfold execServiceClear
  refine leaves_next ?_
  repeat (any_goals first | with_reducible assumption | with_reducible exact kept_refl | with_reducible apply kept_finish | with_reducible apply kept_writeBoot | with_reducible apply kept_psRecord | with_reducible apply kept_finishRefused | with_reducible apply kept_runSized | with_reducible apply kept_waitFor | with_reducible apply kept_psErr | split | with_reducible apply kept_upd_boot | with_reducible intro _ | exact by decide)

end Sys2Proof.Proofs
end

section
/-! SUPPORT. SAFE is held: what each shared operation and each command that reaches the arbiter does to the operating state and to a pending request (R103, R104, R474). -/

namespace Sys2Proof.Proofs
open Sys2Proof.Machine Sys2Proof.Safety Sys2Proof.Laws
set_option Elab.async false

/-- From `r` to `s` SAFE is not left, and in SAFE no mode request is under way. -/
def Held (r s : State) : Prop := (inSafe r = true → r.arb.pend = none) → (inSafe s = true → s.arb.pend = none) ∧ (inSafe r = true → inSafe s = true)

theorem held_refl {r : State} : Held r r := fun h => ⟨h, id⟩

theorem held_trans {r s t : State} (h : Held r s) (k : Held s t) : Held r t := fun hr =>
  ⟨(k (h hr).1).1, fun hs => (k (h hr).1).2 ((h hr).2 hs)⟩

/-- A list of parts names at least itself. -/
theorem same {ps : List Part} : ps ⊆ ps := List.Subset.refl ps

/-- What stands beside the operating state and the pending request is of no concern. -/
theorem held_same {r s t : State} (ho : t.arb.oper = s.arb.oper) (hp : t.arb.pend = s.arb.pend) (h : Held r s) : Held r t :=
  held_trans h (by unfold Held inSafe; rw [ho, hp]; exact fun h => ⟨h, id⟩)

/-- A change outside the arbiter. -/
theorem held_kept {ps : List Part} {r s t : State} (k : Kept ps s t) (ha : Part.arb ∉ ps) (h : Held r s) : Held r t :=
  have e : t.arb = s.arb := k.only .arb ha
  held_same (by rw [e]) (by rw [e]) h

/-- Whatever led to `u`: SAFE without a request holds from there. -/
theorem held_safe {r u t : State} (hu : inSafe u = true) (hp : u.arb.pend = none) (k : Held u t) : Held r t := fun _ =>
  ⟨(k fun _ => hp).1, fun _ => (k fun _ => hp).2 hu⟩

/-- Outside SAFE any other operating state may be taken. -/
theorem held_leave {r s u t : State} (h : Held r s) (hs : inSafe s = false) (hu : inSafe u = false) (k : Held u t) : Held r t := fun hr => by
  have safe : inSafe r ≠ true := fun e => absurd ((h hr).2 e) (by simp [hs])
  exact ⟨(k fun e => absurd e (by simp [hu])).1, fun e => absurd e safe⟩

theorem held_foldl {α : Type} {r t : State} {f : State → α → State} {xs : List α} (g : Held r t) (h : ∀ a x, Held r a → Held r (f a x)) :
    Held r (xs.foldl f t) := by
  induction xs generalizing t with
  | nil => exact g
  | cons x xs ih => exact ih (h t x g)

theorem held_foldl2 {α β : Type} {r : State} {f : β × State → α → β × State} {xs : List α} {t : β × State} (g : Held r t.2)
    (h : ∀ a x, Held r a.2 → Held r (f a x).2) : Held r (xs.foldl f t).2 := by
  induction xs generalizing t with
  | nil => exact g
  | cons x xs ih => exact ih (h t x g)

theorem held_foldl3 {α β γ : Type} {r : State} {f : β × γ × State → α → β × γ × State} {xs : List α} {t : β × γ × State} (g : Held r t.2.2)
    (h : ∀ a x, Held r a.2.2 → Held r (f a x).2.2) : Held r (xs.foldl f t).2.2 := by
  induction xs generalizing t with
  | nil => exact g
  | cons x xs ih => exact ih (h t x g)

theorem held_ite {r a b : State} {c : Prop} [Decidable c] (ha : Held r a) (hb : Held r b) : Held r (if c then a else b) := by
  split <;> assumption

theorem held_upd_arb {r s : State} {v : Arb} (ho : v.oper = s.arb.oper) (hp : v.pend = s.arb.pend) (h : Held r s) :
    Held r { s with arb := v } := held_same ho hp h

theorem held_upd_voter_arb {r s : State} {v0 : Voter} {v : Arb} (ho : v.oper = s.arb.oper) (hp : v.pend = s.arb.pend) (h : Held r s) :
    Held r { s with voter := v0, arb := v } := held_same ho hp h

theorem held_upd_ring_arb {r s : State} {v0 : Ring} {v : Arb} (ho : v.oper = s.arb.oper) (hp : v.pend = s.arb.pend) (h : Held r s) :
    Held r { s with ring := v0, arb := v } := held_same ho hp h

theorem held_upd_cyc_arb {r s : State} {v0 : Cyc} {v : Arb} (ho : v.oper = s.arb.oper) (hp : v.pend = s.arb.pend) (h : Held r s) :
    Held r { s with cyc := v0, arb := v } := held_same ho hp h

/-- With no request left, only the operating state counts. -/
theorem held_cleared {r s : State} {v : Arb} (ho : v.oper = s.arb.oper) (hp : v.pend = none) (h : Held r s) : Held r { s with arb := v } := fun hr =>
  ⟨fun _ => hp, fun e => by
    have safe := (h hr).2 e
    simp only [inSafe, ho] at safe ⊢
    exact safe⟩

/-- A request that is under way shows that the module is not in SAFE. -/
theorem notSafe_of_pend {r s : State} {p : OperPend} (h : Held r s) (hr : inSafe r = true → r.arb.pend = none) (hp : s.arb.pend = some p) : inSafe s = false := by
  by_contra e
  simp [(h hr).1 (by simpa using e)] at hp

/-- Neither at the start nor at the end in SAFE. -/
theorem held_out {r s t : State} (h : Held r s) (hs : inSafe s = false) (ht : inSafe t = false) : Held r t := held_leave h hs ht held_refl

/-- An access function that holds SAFE. -/
abbrev AccessHeld (r0 : State) (acc : CoreId → MemOp → Word → Option Meet → Word → State → MemRes) : Prop :=
  ∀ c op a m w t, Held r0 t → Held r0 (resState (acc c op a m w t))

theorem held_noAccess {r0 : State} : AccessHeld r0 noAccess := fun _ _ _ _ _ _ h => h

theorem kept_waitingRefused (code : Byte) (name : String) (cs : List CmdRef) (s : State) :
    Kept [.sync, .mbx] s (cs.foldl (fun s c => finishRefused c code.toNat name s) s) :=
  kept_foldl kept_refl fun _ _ h => kept_finishRefused _ _ _ _ h same

theorem refusePending_oper (code : Byte) (name : String) (s : State) : (refusePending code name s).arb.oper = s.arb.oper := by
  unfold refusePending
  dsimp only
  split
  · rfl
  · exact (congrArg Arb.oper ((kept_waitingRefused _ _ _ _).only .arb (by decide)) :)

theorem refusePending_pend (code : Byte) (name : String) (s : State) : (refusePending code name s).arb.pend = none := by
  unfold refusePending
  split
  case isTrue h => simp at h; exact h.1
  case isFalse => exact congrArg Arb.pend ((kept_waitingRefused _ _ _ _).only .arb (by decide))

theorem setOper_oper (src : Nat) (o : Oper) (s : State) : (setOper src o s).arb.oper = o := rfl

theorem inSafe_eq_false_iff (s : State) : inSafe s = false ↔ s.arb.oper ≠ .safe := by simp [inSafe]

theorem held_modCore {r0 : State} (c : CoreId) (f : Core → Core) (s : State) (hg0 : Held r0 s) : Held r0 (modCore c f s) :=
  held_kept (kept_modCore _ _ _ kept_refl same) (by decide) hg0

theorem held_modDom {r0 : State} (d : DomId) (f : Dom → Dom) (s : State) (hg0 : Held r0 s) : Held r0 (modDom d f s) :=
  held_kept (kept_modDom _ _ _ kept_refl same) (by decide) hg0

theorem held_modPair {r0 : State} (n : Fin 4) (f : PairReg → PairReg) (s : State) (hg0 : Held r0 s) : Held r0 (modPair n f s) :=
  held_kept (kept_modPair _ _ _ kept_refl same) (by decide) hg0

theorem held_modGroup {r0 : State} (g : Fin 2) (f : Group → Group) (s : State) (hg0 : Held r0 s) : Held r0 (modGroup g f s) :=
  held_kept (kept_modGroup _ _ _ kept_refl same) (by decide) hg0

theorem held_modLane {r0 : State} (l : Fin 3) (f : Lane → Lane) (s : State) (hg0 : Held r0 s) : Held r0 (modLane l f s) :=
  held_kept (kept_modLane _ _ _ kept_refl same) (by decide) hg0

theorem held_modReint {r0 : State} (f : Reint → Reint) (s : State) (hg0 : Held r0 s) : Held r0 (modReint f s) :=
  held_kept (kept_modReint _ _ kept_refl same) (by decide) hg0

theorem held_modQueue {r0 : State} (i : Fin 5) (k : Fin 2) (f : LsQueue → LsQueue) (s : State) (hg0 : Held r0 s) : Held r0 (modQueue i k f s) :=
  held_kept (kept_modQueue _ _ _ _ kept_refl same) (by decide) hg0

theorem held_setPd {r0 : State} (p : Pd) (b : Bool) (s : State) (hg0 : Held r0 s) : Held r0 (setPd p b s) :=
  held_kept (kept_setPd _ _ _ kept_refl same) (by decide) hg0

theorem held_addLog {r0 : State} (k : LogKind) (a b : Nat) (s : State) (hg0 : Held r0 s) : Held r0 (addLog k a b s) :=
  held_kept (kept_addLog _ _ _ _ kept_refl same) (by decide) hg0

theorem held_answer {r0 : State} (r : Resp) (v : Word) (s : State) (hg0 : Held r0 s) : Held r0 (answer r v s) :=
  held_kept (kept_answer _ _ _ kept_refl same) (by decide) hg0

theorem held_sendSync {r0 : State} (type : Byte) (cyc : Long) (body : List Byte) (s : State) (hg0 : Held r0 s) : Held r0 (sendSync type cyc body s) :=
  held_kept (kept_sendSync _ _ _ _ kept_refl same) (by decide) hg0

theorem held_finish {r0 : State} (r : CmdRef) (st : Status) (detail : Nat) (data : List Byte) (s : State) (hg0 : Held r0 s) : Held r0 (finish r st detail data s) :=
  held_kept (kept_finish _ _ _ _ _ kept_refl same) (by decide) hg0

theorem held_finishRefused {r0 : State} (r : CmdRef) (detail : Nat) (name : String) (s : State) (hg0 : Held r0 s) : Held r0 (finishRefused r detail name s) :=
  held_kept (kept_finishRefused _ _ _ _ kept_refl same) (by decide) hg0

theorem held_ringEvent {r0 : State} (kind cause : Nat) (s : State) (hg0 : Held r0 s) : Held r0 (ringEvent kind cause s) :=
  held_kept (kept_ringEvent _ _ _ kept_refl same) (by decide) hg0

theorem held_abandonTasks {r0 : State} (d : DomId) (s : State) (hg0 : Held r0 s) : Held r0 (abandonTasks d s) :=
  held_kept (kept_abandonTasks _ _ kept_refl same) (by decide) hg0

theorem held_abortSolvers {r0 : State} (d : DomId) (s : State) (hg0 : Held r0 s) : Held r0 (abortSolvers d s) :=
  held_kept (kept_abortSolvers _ _ kept_refl same) (by decide) hg0

theorem held_stopCore {r0 : State} (c : CoreId) (s : State) (hg0 : Held r0 s) : Held r0 (stopCore c s) :=
  held_kept (kept_stopCore _ _ kept_refl same) (by decide) hg0

theorem held_hsbFault {r0 : State} (d : DomId) (s : State) (hg0 : Held r0 s) : Held r0 (hsbFault d s) :=
  held_kept (kept_hsbFault _ _ kept_refl same) (by decide) hg0

theorem held_sendRelinquish {r0 : State} (m : Long) (s : State) (hg0 : Held r0 s) : Held r0 (sendRelinquish m s) :=
  held_kept (kept_sendRelinquish _ _ kept_refl same) (by decide) hg0

theorem held_reintEnd {r0 : State} (result : Byte) (s : State) (hg0 : Held r0 s) : Held r0 (reintEnd result s) :=
  held_kept (kept_reintEnd _ _ kept_refl same) (by decide) hg0

theorem held_permitsOff {r0 : State} (s : State) (hg0 : Held r0 s) : Held r0 (permitsOff s) :=
  held_kept (kept_permitsOff _ kept_refl same) (by decide) hg0

theorem held_safetyOff {r0 : State} (g : Fin 2) (s : State) (hg0 : Held r0 s) : Held r0 (safetyOff g s) :=
  held_kept (kept_safetyOff _ _ kept_refl same) (by decide) hg0

theorem held_countAf {r0 : State} (m : Master) (s : State) (hg0 : Held r0 s) : Held r0 (countAf m s) :=
  held_kept (kept_countAf _ _ kept_refl same) (by decide) hg0

theorem held_primeTimers {r0 : State} (d : DomId) (im : Image) (s : State) (hg0 : Held r0 s) : Held r0 (primeTimers d im s) :=
  held_kept (kept_primeTimers _ _ _ kept_refl same) (by decide) hg0

theorem held_modRoute {r0 : State} (l : Fin 3) (r : Nat) (f : RouteSt → RouteSt) (s : State) (hg0 : Held r0 s) : Held r0 (modRoute l r f s) :=
  held_kept (kept_modRoute _ _ _ _ kept_refl same) (by decide) hg0

theorem held_modRing {r0 : State} (f : Ring → Ring) (s : State) (hg0 : Held r0 s) : Held r0 (modRing f s) :=
  held_kept (kept_modRing _ _ kept_refl same) (by decide) hg0

theorem held_modRtm {r0 : State} (f : Rtm → Rtm) (s : State) (hg0 : Held r0 s) : Held r0 (modRtm f s) :=
  held_kept (kept_modRtm _ _ kept_refl same) (by decide) hg0

theorem held_idleLinks {r0 : State} (s : State) (hg0 : Held r0 s) : Held r0 (idleLinks s) :=
  held_kept (kept_idleLinks _ kept_refl same) (by decide) hg0

theorem held_surveyAll {r0 : State} (s : State) (hg0 : Held r0 s) : Held r0 (surveyAll s) :=
  held_kept (kept_surveyAll _ kept_refl same) (by decide) hg0

theorem held_frtEndAll {r0 : State} (o : FrtOutcome) (s : State) (hg0 : Held r0 s) : Held r0 (frtEndAll o s) :=
  held_kept (kept_frtEndAll _ _ kept_refl same) (by decide) hg0

theorem held_recordEn {r0 : State} (en : BitVec 3) (s : State) (hg0 : Held r0 s) : Held r0 (recordEn en s) :=
  held_kept (kept_recordEn _ _ kept_refl same) (by decide) hg0

theorem held_modHsb {r0 : State} (f : Hsb → Hsb) (s : State) (hg0 : Held r0 s) : Held r0 (modHsb f s) :=
  held_kept (kept_modHsb _ _ kept_refl same) (by decide) hg0

theorem held_modSync {r0 : State} (f : SyncLink → SyncLink) (s : State) (hg0 : Held r0 s) : Held r0 (modSync f s) :=
  held_kept (kept_modSync _ _ kept_refl same) (by decide) hg0

theorem held_resyncBegin {r0 : State} (s : State) (hg0 : Held r0 s) : Held r0 (resyncBegin s) :=
  held_kept (kept_resyncBegin _ kept_refl same) (by decide) hg0

theorem held_linkTurn {r0 : State} (s : State) (hg0 : Held r0 s) : Held r0 (linkTurn s) :=
  held_kept (kept_linkTurn _ kept_refl same) (by decide) hg0

theorem held_sendState {r0 : State} (s : State) (hg0 : Held r0 s) : Held r0 (sendState s) :=
  held_kept (kept_sendState _ kept_refl same) (by decide) hg0

theorem held_cimRestart {r0 : State} (d : DomId) (s : State) (hg0 : Held r0 s) : Held r0 (cimRestart d s) :=
  held_kept (kept_cimRestart _ _ kept_refl same) (by decide) hg0

theorem held_pairsFinish {r0 : State} (late : Bool) (s : State) (hg0 : Held r0 s) : Held r0 (pairsFinish late s) :=
  held_kept (kept_pairsFinish _ _ kept_refl same) (by decide) hg0

theorem held_orderlyBegin {r0 : State} (cause : Nat) (s : State) (hg0 : Held r0 s) : Held r0 (orderlyBegin cause s) :=
  held_kept (kept_orderlyBegin _ _ kept_refl same) (by decide) hg0

theorem held_modeDone {r0 : State} (s : State) (hg0 : Held r0 s) : Held r0 (modeDone s) :=
  held_kept (kept_modeDone _ kept_refl same) (by decide) hg0

theorem held_modUpdate {r0 : State} (f : Update → Update) (s : State) (hg0 : Held r0 s) : Held r0 (modUpdate f s) :=
  held_kept (kept_modUpdate _ _ kept_refl same) (by decide) hg0

theorem held_modBoot {r0 : State} (f : Boot → Boot) (s : State) (hg0 : Held r0 s) : Held r0 (modBoot f s) :=
  held_kept (kept_modBoot _ _ kept_refl same) (by decide) hg0

theorem held_modRec {r0 : State} (f : BootRec → BootRec) (s : State) (hg0 : Held r0 s) : Held r0 (modRec f s) :=
  held_kept (kept_modRec _ _ kept_refl same) (by decide) hg0

theorem held_setFlag {r0 : State} (n : Nat) (v : Bool) (s : State) (hg0 : Held r0 s) : Held r0 (setFlag n v s) :=
  held_kept (kept_setFlag _ _ _ kept_refl same) (by decide) hg0

theorem held_degrade {r0 : State} (n : Nat) (s : State) (hg0 : Held r0 s) : Held r0 (degrade n s) :=
  held_kept (kept_degrade _ _ kept_refl same) (by decide) hg0

theorem held_bootStore {r0 : State} (s : State) (hg0 : Held r0 s) : Held r0 (bootStore s) :=
  held_kept (kept_bootStore _ kept_refl same) (by decide) hg0

theorem held_noPathAt {r0 : State} (m : Master) (s : State) (hg0 : Held r0 s) : Held r0 (noPathAt m s) :=
  held_kept (kept_noPathAt _ _ kept_refl same) (by decide) hg0

theorem held_eachLane {r0 : State} (g : Fin 2) (f : Fin 3 → State → State) (s : State) (hf_f : ∀ (y0 : Fin 3) (t : State), Held r0 t → Held r0 (f y0 t)) (hg0 : Held r0 s) : Held r0 (eachLane g f s) := by
  unfold eachLane
  repeat (any_goals first | with_reducible assumption | with_reducible apply hf_f | (with_reducible apply held_foldl; rotate_left; intro _ _ _))

theorem held_regAt {r0 : State} (p : Pd) (m : Master) (f : State → State) (s : State) (hf : ∀ t, Held r0 t → Held r0 (f t)) (hg0 : Held r0 s) :
    Held r0 (regAt p m f s) :=
  held_ite (hf _ (held_answer _ _ _ hg0)) (held_answer _ _ _ (held_countAf _ _ hg0))

theorem held_stewAt {r0 : State} (p : Pd) (m : Master) (f : State → State) (s : State) (hf_f : ∀  (t : State), Held r0 t → Held r0 (f  t)) (hg0 : Held r0 s) : Held r0 (stewAt p m f s) := by
  unfold stewAt
  try dsimp only
  repeat (any_goals first | with_reducible assumption | with_reducible apply hf_f | with_reducible apply held_noPathAt | with_reducible apply held_regAt | split)

theorem held_lsQueueAt {r0 : State} (m : Master) (off : Nat) (f : CoreId → Fin 5 → Fin 2 → State → State) (s : State) (hf_f : ∀ (y0 : CoreId) (y1 : Fin 5) (y2 : Fin 2) (t : State), Held r0 t → Held r0 (f y0 y1 y2 t)) (hg0 : Held r0 s) : Held r0 (lsQueueAt m off f s) := by
  unfold lsQueueAt
  try dsimp only
  repeat (any_goals first | with_reducible assumption | with_reducible apply hf_f | with_reducible apply held_noPathAt | with_reducible apply held_countAf | with_reducible apply held_answer | split)

theorem held_lsBy {r0 : State} (c : CoreId) (i : Fin 5) (f : Fin 2 → State → State) (s : State) (hf : ∀ k t, Held r0 t → Held r0 (f k t)) (hg0 : Held r0 s) :
    Held r0 (lsBy c i f s) := by
  unfold lsBy
  split
  · exact held_answer _ _ _ (hf _ _ hg0)
  · exact held_answer _ _ _ (held_countAf _ _ hg0)

theorem held_rtcWrite {r0 : State} (m : Master) (f : State → State) (s : State) (hf_f : ∀  (t : State), Held r0 t → Held r0 (f  t)) (hg0 : Held r0 s) : Held r0 (rtcWrite m f s) := by
  unfold rtcWrite
  try dsimp only
  repeat (any_goals first | with_reducible assumption | with_reducible apply hf_f | with_reducible apply held_countAf | with_reducible apply held_answer | with_reducible apply held_regAt | split)

theorem held_migRun {r0 : State} (f : Nat → MigEntry → State → State) (d : DomId) (es : List MigEntry) (s : State) (hf_f : ∀ (y0 : Nat) (y1 : MigEntry) (t : State), Held r0 t → Held r0 (f y0 y1 t)) (hg0 : Held r0 s) : Held r0 (migRun f d es s) := by
  unfold migRun
  try dsimp only
  repeat (any_goals first | with_reducible assumption | with_reducible apply hf_f | (with_reducible apply held_foldl; rotate_left; intro _ _ _))

theorem held_runCmd {r0 : State} (r : CmdRef) (code : Nat) (f : List Byte → State → State) (s : State) (hf_f : ∀ (y0 : List Byte) (t : State), Held r0 t → Held r0 (f y0 t)) (hg0 : Held r0 s) : Held r0 (runCmd r code f s) := by
  unfold runCmd
  try dsimp only
  repeat (any_goals first | with_reducible assumption | with_reducible apply hf_f | with_reducible apply held_kept (kept_modSlot _ _ _ kept_refl same) (by decide) | with_reducible apply held_finishRefused | split)

theorem held_runSized {r0 : State} (r : CmdRef) (code n : Nat) (f : List Byte → State → State) (s : State) (hf_f : ∀ (y0 : List Byte) (t : State), Held r0 t → Held r0 (f y0 t)) (hg0 : Held r0 s) : Held r0 (runSized r code n f s) := by
  unfold runSized
  try dsimp only
  repeat (any_goals first | with_reducible assumption | with_reducible apply hf_f | with_reducible apply held_kept (kept_badParam _ _ _ kept_refl same) (by decide) | with_reducible apply held_runCmd | split | with_reducible intro _)

theorem held_syncGet {r0 : State} (m : SyncHdr) (type : Byte) (body : List Byte) (f : State → State) (s : State) (hf_f : ∀  (t : State), Held r0 t → Held r0 (f  t)) (hg0 : Held r0 s) : Held r0 (syncGet m type body f s) := by
  unfold syncGet
  try dsimp only
  repeat (any_goals first | with_reducible assumption | with_reducible apply hf_f | with_reducible apply held_kept (kept_syncHeard _ _ kept_refl same) (by decide) | with_reducible apply held_kept (kept_syncDiscard _ kept_refl same) (by decide) | split)

theorem held_x13 {r0 : State} (code : Byte) (ok : Bool) (f : State → State) (s : State) (hf_f : ∀  (t : State), Held r0 t → Held r0 (f  t)) (hg0 : Held r0 s) : Held r0 (x13 code ok f s) := by
  unfold x13
  dsimp only
  repeat (any_goals first | with_reducible assumption | with_reducible apply hf_f | split | with_reducible apply held_kept (kept_upd_dbg kept_refl same) (by decide))

theorem held_transition {r0 : State} (src inst dim frm to_ : Nat) (s : State) (hg0 : Held r0 s) : Held r0 (transition src inst dim frm to_ s) :=
  held_ite hg0 (held_upd_arb rfl rfl hg0)

theorem held_setRun {r0 : State} (src : Nat) (d : DomId) (r : Bool) (s : State) (hg0 : Held r0 s) : Held r0 (setRun src d r s) := by
  unfold setRun
  repeat (any_goals first | with_reducible assumption | with_reducible apply held_modDom | with_reducible apply held_transition)

theorem held_setRole {r0 : State} (r : Role) (s : State) (hg0 : Held r0 s) : Held r0 (setRole r s) := by
  unfold setRole
  repeat (any_goals first | with_reducible assumption | with_reducible apply held_transition | with_reducible apply held_addLog | split | with_reducible apply held_kept (kept_upd_hsb kept_refl same) (by decide))

theorem held_setDim {r0 : State} (src : Nat) (d : RingDim) (s : State) (hg0 : Held r0 s) : Held r0 (setDim src d s) := by
  unfold setDim
  repeat (any_goals first | with_reducible assumption | with_reducible apply held_transition | split | with_reducible apply held_kept (kept_upd_ring kept_refl same) (by decide))

theorem held_setChg {r0 : State} (d : DomId) (c : ChgDim) (s : State) (hg0 : Held r0 s) : Held r0 (setChg d c s) := by
  unfold setChg
  repeat (any_goals first | with_reducible assumption | with_reducible apply held_modDom | with_reducible apply held_transition)

theorem held_setMembers {r0 : State} (src : Nat) (g : Fin 2) (m : BitVec 3) (s : State) (hg0 : Held r0 s) : Held r0 (setMembers src g m s) := by
  unfold setMembers
  repeat (any_goals first | with_reducible assumption | with_reducible apply held_transition | with_reducible apply held_modGroup)

theorem held_changeStop {r0 : State} (name : String) (d : DomId) (s : State) (hg0 : Held r0 s) : Held r0 (changeStop name d s) := by
  unfold changeStop
  try dsimp only
  repeat (any_goals first | with_reducible assumption | with_reducible apply held_swapped | with_reducible apply held_modDom | with_reducible apply held_kept (kept_finishRefusedOpt _ _ _ kept_refl same) (by decide) | with_reducible apply held_setChg | split)

theorem held_changeLeave {r0 : State} (d : DomId) (s : State) (hg0 : Held r0 s) : Held r0 (changeLeave d s) := by
  unfold changeLeave
  repeat (any_goals first | with_reducible assumption | with_reducible apply held_changeStop)

theorem held_refusePending {r0 : State} (code : Byte) (name : String) (s : State) (hg0 : Held r0 s) : Held r0 (refusePending code name s) := fun hr =>
  ⟨fun _ => refusePending_pend code name s, fun e => by
    have safe := (hg0 hr).2 e
    simpa only [inSafe, refusePending_oper] using safe⟩

theorem held_enterSafe {r0 : State} (cause : Nat) (grp : Option (Fin 2)) (s : State) (hg0 : Held r0 s) : Held r0 (enterSafe cause grp s) := by
  unfold enterSafe
  split
  · exact hg0
  · refine held_safe (u := refusePending 0x05 "IN_SAFE" (setOper 2 .safe s)) (by simp [inSafe, refusePending_oper, setOper_oper]) (refusePending_pend _ _ _) ?_
    generalize refusePending 0x05 "IN_SAFE" (setOper 2 .safe s) = u
    extract_lets s0 s1 s2 s3 a v s4 s5
    have h1 : Held u s1 := by
      refine held_foldl (held_reintEnd _ _ held_refl) fun _ _ h => ?_
      dsimp only
      exact held_changeLeave _ _ (held_abandonTasks _ _ (held_modGroup _ _ _ (held_setMembers _ _ _ _ (held_safetyOff _ _ h))))
    clear_value s1
    have h2 : Held u s2 := held_foldl h1 fun _ _ h => held_stopCore _ _ (held_stopCore _ _ h)
    have h4 : Held u s4 := held_upd_voter_arb rfl rfl (held_permitsOff _ h2)
    have h5 : Held u s5 := by
      dsimp only [s5]
      split
      · exact held_sendRelinquish _ _ h4
      · exact held_setRole _ _ h4
      · exact h4
    exact held_addLog _ _ _ _ (held_ringEvent _ _ _ h5)

theorem held_excludeFrom {r0 : State} (l : Fin 3) (g : Fin 2) (s : State) (hg0 : Held r0 s) : Held r0 (excludeFrom l g s) := by
  unfold excludeFrom
  try dsimp only
  repeat (any_goals first | with_reducible assumption | with_reducible apply held_setMembers | with_reducible apply held_modGroup | with_reducible apply held_enterSafe | with_reducible apply held_hsbFault | with_reducible apply held_changeStop | with_reducible apply held_kept (kept_dropLane _ _ _ kept_refl same) (by decide) | split)

theorem held_excludeLane {r0 : State} (l : Fin 3) (cause : Nat) (g : Option (Fin 2)) (s : State) (hg0 : Held r0 s) : Held r0 (excludeLane l cause g s) := by
  unfold excludeLane
  repeat (any_goals first | with_reducible assumption | with_reducible apply held_excludeFrom | with_reducible apply held_modReint | with_reducible apply held_addLog | with_reducible apply held_modLane | (with_reducible apply held_foldl; rotate_left; intro _ _ _) | split)

theorem held_laneCause {r0 : State} (l : Fin 3) (cause : Nat) (s : State) (hg0 : Held r0 s) : Held r0 (laneCause l cause s) := by
  unfold laneCause
  repeat (any_goals first | with_reducible assumption | with_reducible apply held_excludeLane | split)

theorem held_pairStop {r0 : State} (n : Fin 4) (kind : Option (Fin 8 × Word)) (s : State) (hg0 : Held r0 s) : Held r0 (pairStop n kind s) := by
  unfold pairStop
  repeat (any_goals first | with_reducible assumption | with_reducible apply held_setRun | with_reducible apply held_hsbFault | with_reducible apply held_modDom | with_reducible apply held_abortSolvers | with_reducible apply held_abandonTasks | with_reducible apply held_changeLeave | with_reducible apply held_modPair | with_reducible apply held_stopCore | split)

theorem held_secondRung {r0 : State} (cause src : Nat) (s : State) (hg0 : Held r0 s) : Held r0 (secondRung cause src s) := by
  unfold secondRung
  repeat (any_goals first | with_reducible assumption | with_reducible apply held_enterSafe | with_reducible apply held_kept (kept_psRecord _ _ _ kept_refl same) (by decide) | split | with_reducible apply held_kept (kept_upd_esc kept_refl same) (by decide))

theorem held_ladder {r0 : State} (cause src : Nat) (s : State) (hg0 : Held r0 s) : Held r0 (ladder cause src s) := by
  unfold ladder
  repeat (any_goals first | with_reducible assumption | with_reducible apply held_secondRung | with_reducible apply held_addLog | split | with_reducible apply held_kept (kept_upd_esc kept_refl same) (by decide))

theorem held_pairFault {r0 : State} (n : Fin 4) (kind : Option (Fin 8 × Word)) (cause : Nat) (s : State) (hg0 : Held r0 s) : Held r0 (pairFault n kind cause s) := by
  unfold pairFault
  repeat (any_goals first | with_reducible assumption | with_reducible apply held_pairStop | with_reducible apply held_ladder)

theorem held_pairFaultKind {r0 : State} (n : Fin 4) (kind : Fin 8) (a : Word) (s : State) (hg0 : Held r0 s) : Held r0 (pairFaultKind n kind a s) := by
  unfold pairFaultKind
  repeat (any_goals first | with_reducible assumption | with_reducible apply held_pairFault)

theorem held_laneHalt {r0 : State} (l : Fin 3) (gs : List (Fin 2)) (cause : Nat) (s : State) (hg0 : Held r0 s) : Held r0 (laneHalt l gs cause s) := by
  unfold laneHalt
  try dsimp only
  repeat (any_goals first | with_reducible assumption | with_reducible apply held_enterSafe | with_reducible apply held_secondRung | with_reducible apply held_ladder | with_reducible apply held_stopCore | with_reducible apply held_modGroup | (with_reducible apply held_foldl; rotate_left; intro _ _ _) | split)

theorem held_laneMemErr {r0 : State} (code : Nat) (s : State) (hg0 : Held r0 s) : Held r0 (laneMemErr code s) := by
  unfold laneMemErr
  repeat (any_goals first | with_reducible assumption | with_reducible apply held_laneCause | split)

theorem held_doubleTrap {r0 : State} (c : CoreId) (s : State) (hg0 : Held r0 s) : Held r0 (doubleTrap c s) := by
  unfold doubleTrap
  repeat (any_goals first | with_reducible assumption | with_reducible apply held_stopCore | with_reducible apply held_excludeLane | with_reducible apply held_pairFault | split)

theorem held_trapFault {r0 : State} (c : CoreId) (t : Trap) (before : Arch) (s : State) (hg0 : Held r0 s) : Held r0 (trapFault c t before s) := by
  unfold trapFault
  try dsimp only
  repeat (any_goals first | with_reducible assumption | with_reducible apply held_kept (kept_clearLine _ _ _ kept_refl same) (by decide) | with_reducible apply held_kept (kept_endTask _ _ kept_refl same) (by decide) | with_reducible apply held_modGroup | with_reducible apply held_excludeLane | with_reducible apply held_pairFault | split)

theorem held_trapHandled {r0 : State} (c : CoreId) (t : Trap) (word : Word) (before : Arch) (s : State) (hg0 : Held r0 s) : Held r0 (trapHandled c t word before s) := by
  unfold trapHandled
  try dsimp only
  repeat (any_goals first | with_reducible assumption | with_reducible apply held_trapFault | split)

theorem held_takeTrap {r0 : State} (c : CoreId) (t : Trap) (word : Word) (s : State) (hg0 : Held r0 s) : Held r0 (takeTrap c t word s) := by
  unfold takeTrap
  try dsimp only
  repeat (any_goals first | with_reducible assumption | with_reducible apply held_kept (kept_modArch _ _ _ kept_refl same) (by decide) | with_reducible apply held_trapHandled | with_reducible apply held_doubleTrap | split)

theorem held_rmuOp {r0 : State} (l : Fin 3) (op : Fin 3) (v : Word) (s : State) (hg0 : Held r0 s) : Held r0 (rmuOp l op v s).2 := by
  unfold rmuOp
  extract_lets r code upd s1 res n lv row words z s2 bit locked setLock
  have u : ∀ (f : Rmu → Rmu) (t : State), Held r0 t → Held r0 (upd f t) := fun f t ht => held_kept (kept_upd_rmus kept_refl same) (by decide) ht
  clear_value upd
  have h1 : Held r0 s1 := u _ _ hg0
  clear_value s1
  split
  · exact u _ _ h1
  · split
    · exact h1
    · have hz : Held r0 z.2 := held_kept (kept_readWords _ _ _ _ kept_refl same) (by decide) h1
      clear_value z
      split
      · exact held_laneMemErr _ _ (u _ _ hz)
      · have hs : ∀ b t, Held r0 t → Held r0 (setLock b t) := fun b t ht => held_kept (kept_store _ _ _ _ _ kept_refl same) (by decide) ht
        clear_value setLock locked bit
        generalize List.find? _ _ = o
        repeat (any_goals first | exact hz | exact hs _ _ hz | exact u _ _ hz | split)

theorem held_join {r0 : State} (l : Fin 3) (g : Fin 2) (s : State) (hg0 : Held r0 s) : Held r0 (join l g s) := by
  unfold join
  repeat (any_goals first | with_reducible assumption | with_reducible apply held_reintEnd | with_reducible apply held_modReint | with_reducible apply held_addLog | with_reducible apply held_kept (kept_modCim _ _ _ kept_refl same) (by decide) | with_reducible apply held_modGroup | with_reducible apply held_setMembers | (with_reducible apply held_foldl; rotate_left; intro _ _ _) | split | with_reducible apply held_kept (kept_upd_esc kept_refl same) (by decide))

theorem held_candMeets {r0 : State} (g : Fin 2) (s : State) (hg0 : Held r0 s) : Held r0 (candMeets g s) := by
  unfold candMeets
  try dsimp only
  repeat (any_goals first | with_reducible assumption | with_reducible apply held_modGroup | with_reducible apply held_reintEnd | with_reducible apply held_join | with_reducible apply held_kept (kept_resume _ _ _ kept_refl same) (by decide) | split)

theorem held_voteResolve {r0 : State} (g : Fin 2) (closed : Bool) (s : State) (hg0 : Held r0 s) : Held r0 (voteResolve g closed s) := by
  unfold voteResolve
  repeat (any_goals first | with_reducible assumption | with_reducible apply held_candMeets | with_reducible apply held_reintEnd | with_reducible apply held_kept (kept_resume _ _ _ kept_refl same) (by decide) | with_reducible apply held_kept (kept_eocPassed _ _ _ kept_refl same) (by decide) | with_reducible apply held_modLane | with_reducible apply held_excludeLane | with_reducible apply held_hsbFault | with_reducible apply held_enterSafe | with_reducible apply held_modGroup | (with_reducible apply held_foldl; rotate_left; intro _ _ _) | split | with_reducible apply held_kept (kept_upd_cyc kept_refl same) (by decide))

theorem held_eocDeadline {r0 : State} (g : Fin 2) (s : State) (hg0 : Held r0 s) : Held r0 (eocDeadline g s) := by
  unfold eocDeadline
  try dsimp only
  repeat (any_goals first | with_reducible assumption | with_reducible apply held_kept (kept_emptyEoc _ _ kept_refl same) (by decide) | with_reducible apply held_voteResolve | with_reducible apply held_modGroup | with_reducible apply held_reintEnd | split)

theorem held_showGroups {r0 : State} (s : State) (hg0 : Held r0 s) : Held r0 (showGroups s) := by
  unfold showGroups
  try dsimp only
  repeat (any_goals first | with_reducible assumption | with_reducible apply held_setMembers | (with_reducible apply held_foldl; rotate_left; intro _ _ _) | split)

theorem held_maintEffect {r0 : State} (l : Fin 3) (s : State) (hg0 : Held r0 s) : Held r0 (maintEffect l s) := by
  unfold maintEffect
  repeat (any_goals first | with_reducible assumption | with_reducible apply held_excludeLane | with_reducible apply held_modLane | with_reducible apply held_modReint | with_reducible apply held_addLog | split)

theorem held_attachEffect {r0 : State} (l : Fin 3) (s : State) (hg0 : Held r0 s) : Held r0 (attachEffect l s) := by
  unfold attachEffect
  repeat (any_goals first | with_reducible assumption | with_reducible apply held_ringEvent | with_reducible apply held_addLog | with_reducible apply held_showGroups | with_reducible apply held_modGroup | with_reducible apply held_modLane | with_reducible apply held_excludeLane | (with_reducible apply held_foldl; rotate_left; intro _ _ _))

theorem held_voterEffect {r0 : State} (op : VotOp) (lane : Fin 4) (s : State) (hg0 : Held r0 s) : Held r0 (voterEffect op lane s) := by
  unfold voterEffect
  repeat (any_goals first | with_reducible assumption | with_reducible apply held_kept (kept_detachEffect _ _ kept_refl same) (by decide) | with_reducible apply held_attachEffect | with_reducible apply held_reintEnd | with_reducible apply held_maintEffect | with_reducible apply held_kept (kept_reintAdmit _ _ _ kept_refl same) (by decide) | split)

theorem held_voterRequest {r0 : State} (op : VotOp) (lane : Fin 4) (s : State) (hg0 : Held r0 s) : Held r0 (voterRequest op lane s).2 := by
  unfold voterRequest
  repeat (any_goals first | with_reducible assumption | with_reducible apply held_voterEffect | with_reducible apply held_kept (kept_voterStat _ _ kept_refl same) (by decide) | split)

theorem held_lsFaultHandled {r0 : State} (i : Fin 5) (k : Fin 2) (s : State) (hg0 : Held r0 s) : Held r0 (lsFaultHandled i k s) := by
  unfold lsFaultHandled
  repeat (any_goals first | with_reducible assumption | with_reducible apply held_pairFaultKind | with_reducible apply held_modGroup | split)

theorem held_lsFault {r0 : State} (i : Fin 5) (k : Fin 2) (code : Nat) (s : State) (hg0 : Held r0 s) : Held r0 (lsFault i k code s) := by
  unfold lsFault
  repeat (any_goals first | with_reducible assumption | with_reducible apply held_kept (kept_lsEnded _ _ _ kept_refl same) (by decide) | with_reducible apply held_lsFaultHandled | with_reducible apply held_kept (kept_raiseIrq _ _ _ kept_refl same) (by decide) | with_reducible apply held_modQueue | split)

theorem held_lsStartOp {r0 : State} (i : Fin 5) (k : Fin 2) (e : Nat) (s : State) (hg0 : Held r0 s) : Held r0 (lsStartOp i k e s) := by
  unfold lsStartOp
  try dsimp only
  repeat (any_goals first | with_reducible assumption | with_reducible apply held_kept (kept_lsBegin _ _ _ _ _ kept_refl same) (by decide) | with_reducible apply held_kept (kept_lsAwait _ _ _ kept_refl same) (by decide) | with_reducible apply held_modQueue | with_reducible apply held_lsFaultHandled | split)

theorem held_lsFinishRun {r0 : State} (i : Fin 5) (s : State) (hg0 : Held r0 s) : Held r0 (lsFinishRun i s) := by
  unfold lsFinishRun
  split
  · exact hg0
  · extract_lets total z s2 s3
    have hz : Held r0 z.2 := held_kept (kept_runBody _ _ _ _ _ _ kept_refl same) (by decide) hg0
    clear_value z
    have h2 : Held r0 s2 := held_modQueue _ _ _ _ hz
    clear_value s2
    have h3 : Held r0 s3 := by
      dsimp only [s3]
      split
      · exact held_kept (kept_raiseIrq _ _ _ kept_refl same) (by decide) h2
      · exact h2
    clear_value s3
    split
    · exact held_lsFault _ _ _ _ hz
    · split
      · exact held_lsFault _ _ _ _ hz
      · exact held_kept (kept_lsEnded _ _ _ kept_refl same) (by decide) h3

theorem held_rmuVote {r0 : State} (op : Fin 3) (r : Nat) (g : Fin 2) (ls : List (Fin 3)) (s : State) (hg0 : Held r0 s) : Held r0 (rmuVote op r g ls s).2 := by
  unfold rmuVote
  dsimp only
  repeat (any_goals first | with_reducible assumption | with_reducible apply held_voteResolve | with_reducible apply held_kept (kept_contribute _ _ _ _ kept_refl same) (by decide) | with_reducible apply held_rmuOp | (with_reducible apply held_foldl; rotate_left; intro _ _ _) | split)

theorem held_releaseRoute {r0 : State} (g : Fin 2) (r : Nat) (ls : List (Fin 3)) (s : State) (hg0 : Held r0 s) : Held r0 (releaseRoute g r ls s) := by
  unfold releaseRoute
  dsimp only
  repeat (any_goals first | with_reducible assumption | with_reducible apply held_rmuVote | with_reducible apply held_kept (kept_unlockPoints _ _ _ kept_refl same) (by decide) | with_reducible apply held_modRoute | (with_reducible apply held_foldl; rotate_left; intro _ _ _) | split)

theorem held_approachExpire {r0 : State} (g : Fin 2) (r : Nat) (s : State) (hg0 : Held r0 s) : Held r0 (approachExpire g r s) := by
  unfold approachExpire
  repeat (any_goals first | with_reducible assumption | with_reducible apply held_releaseRoute)

theorem held_emergencyExpire {r0 : State} (g : Fin 2) (r : Nat) (s : State) (hg0 : Held r0 s) : Held r0 (emergencyExpire g r s) := by
  unfold emergencyExpire
  repeat (any_goals first | with_reducible assumption | with_reducible apply held_releaseRoute)

theorem held_overlapExpire {r0 : State} (g : Fin 2) (r : Nat) (d : RouteDecl) (s : State) (hg0 : Held r0 s) : Held r0 (overlapExpire g r d s) := by
  unfold overlapExpire
  repeat (any_goals first | with_reducible assumption | with_reducible apply held_releaseRoute | with_reducible apply held_modRoute | with_reducible apply held_eachLane | split | with_reducible intro _)

theorem held_stepExpiries {r0 : State} (g : Fin 2) (x : IxlDecl) (s : State) (hg0 : Held r0 s) : Held r0 (stepExpiries g x s) := by
  unfold stepExpiries
  repeat (any_goals first | with_reducible assumption | with_reducible apply held_approachExpire | with_reducible apply held_emergencyExpire | with_reducible apply held_kept (kept_moveExpire _ _ _ kept_refl same) (by decide) | with_reducible apply held_kept (kept_holdExpire _ _ kept_refl same) (by decide) | with_reducible apply held_eachLane | (with_reducible apply held_foldl; rotate_left; intro _ _ _) | split | with_reducible intro _)

theorem held_stepRelease {r0 : State} (g : Fin 2) (x : IxlDecl) (r : Nat) (d : RouteDecl) (s : State) (hg0 : Held r0 s) : Held r0 (stepRelease g x r d s) := by
  unfold stepRelease
  repeat (any_goals first | with_reducible assumption | with_reducible apply held_kept (kept_stepPassage _ _ _ _ _ kept_refl same) (by decide) | with_reducible apply held_eachLane | with_reducible apply held_overlapExpire | split | with_reducible intro _)

theorem held_cancelEnd {r0 : State} (g : Fin 2) (r : Nat) (d : RouteDecl) (s : State) (hg0 : Held r0 s) : Held r0 (cancelEnd g r d s) := by
  unfold cancelEnd
  repeat (any_goals first | with_reducible assumption | with_reducible apply held_releaseRoute | with_reducible apply held_modRoute | (with_reducible apply held_foldl; rotate_left; intro _ _ _))

theorem held_setRoute {r0 : State} (g : Fin 2) (r : Nat) (s : State) (hg0 : Held r0 s) : Held r0 (setRoute g r s) := by
  unfold setRoute
  extract_lets ls s1
  have h1 : Held r0 s1 := held_foldl hg0 fun a l h => by
    split
    · exact h
    · exact held_kept (kept_answerIxl _ _ _ kept_refl same) (by decide) h
  clear_value s1
  have hv := held_rmuVote (r0 := r0) 1 r g ls s1 h1
  split <;> rename_i e <;> rw [e] at hv
  · exact hv
  · refine held_foldl hv fun a l h => ?_
    have ha : Held r0 (answerIxl l (outcomeAnswer ‹Nat›) a) := held_kept (kept_answerIxl _ _ _ kept_refl same) (by decide) h
    dsimp only
    split
    · exact held_modRoute _ _ _ _ ha
    · exact ha

theorem held_cancelRoute {r0 : State} (g : Fin 2) (r : Nat) (s : State) (hg0 : Held r0 s) : Held r0 (cancelRoute g r s) := by
  unfold cancelRoute
  repeat (any_goals first | with_reducible assumption | with_reducible apply held_releaseRoute | with_reducible apply held_modRoute | with_reducible apply held_kept (kept_answerIxl _ _ _ kept_refl same) (by decide) | with_reducible apply held_eachLane | split | with_reducible intro _)

theorem held_ixlRequest {r0 : State} (g : Fin 2) (x : IxlDecl) (q : IxlReq) (s : State) (hg0 : Held r0 s) : Held r0 (ixlRequest g x q s) := by
  unfold ixlRequest
  repeat (any_goals first | with_reducible assumption | with_reducible apply held_kept (kept_movePoint _ _ _ _ kept_refl same) (by decide) | with_reducible apply held_kept (kept_emergencyRoute _ _ _ _ kept_refl same) (by decide) | with_reducible apply held_cancelRoute | with_reducible apply held_setRoute | split)

theorem held_ixlAsk {r0 : State} (q : IxlReq) (s : State) (hg0 : Held r0 s) : Held r0 (ixlAsk q s) := by
  unfold ixlAsk
  repeat (any_goals first | with_reducible assumption | with_reducible apply held_modGroup | with_reducible apply held_ixlRequest | split)

theorem held_stepRequests {r0 : State} (g : Fin 2) (x : IxlDecl) (s : State) (hg0 : Held r0 s) : Held r0 (stepRequests g x s) := by
  unfold stepRequests
  repeat (any_goals first | with_reducible assumption | with_reducible apply held_modGroup | with_reducible apply held_ixlRequest | (with_reducible apply held_foldl; rotate_left; intro _ _ _))

theorem held_ixlReceive {r0 : State} (g : Fin 2) (s : State) (hg0 : Held r0 s) : Held r0 (ixlReceive g s) := by
  unfold ixlReceive
  try dsimp only
  repeat (any_goals first | with_reducible assumption | with_reducible apply held_stepExpiries | with_reducible apply held_stepRelease | with_reducible apply held_kept (kept_stepSections _ _ _ _ kept_refl same) (by decide) | with_reducible apply held_kept (kept_stepPoints _ _ _ _ kept_refl same) (by decide) | with_reducible apply held_kept (kept_stepTimers _ _ _ kept_refl same) (by decide) | with_reducible apply held_kept (kept_connsReceive _ _ _ _ kept_refl same) (by decide) | with_reducible apply held_eachLane | (with_reducible apply held_foldl; rotate_left; intro _ _ _) | split | with_reducible intro _)

theorem held_ixlFinish {r0 : State} (g : Fin 2) (s : State) (hg0 : Held r0 s) : Held r0 (ixlFinish g s) := by
  unfold ixlFinish
  repeat (any_goals first | with_reducible assumption | with_reducible apply held_kept (kept_telegramNext _ _ _ _ _ kept_refl same) (by decide) | with_reducible apply held_modGroup | with_reducible apply held_kept (kept_gateWrite _ _ _ _ _ _ _ kept_refl same) (by decide) | with_reducible apply held_cancelEnd | with_reducible apply held_kept (kept_stepGates _ _ _ _ kept_refl same) (by decide) | with_reducible apply held_kept (kept_stepRoute _ _ _ _ _ _ kept_refl same) (by decide) | with_reducible apply held_eachLane | with_reducible apply held_stepRequests | (with_reducible apply held_foldl; rotate_left; intro _ _ _) | split | with_reducible intro _)

theorem held_moveDim {r0 : State} (src : Nat) (d : RingDim) (s : State) (hg0 : Held r0 s) : Held r0 (moveDim src d s) := by
  unfold moveDim
  repeat (any_goals first | with_reducible assumption | with_reducible apply held_idleLinks | with_reducible apply held_modRing | with_reducible apply held_modRtm | with_reducible apply held_setDim | with_reducible apply held_setPd | split)

theorem held_ringEnRings {r0 : State} (en1 en2 : Bool) (s : State) (hg0 : Held r0 s) : Held r0 (ringEnRings en1 en2 s).2 := by
  unfold ringEnRings
  dsimp only
  split
  · exact held_upd_arb rfl rfl hg0
  · exact held_recordEn _ _ hg0

theorem held_ringEnEffect {r0 : State} (s : State) (hg0 : Held r0 s) : Held r0 (ringEnEffect s) := by
  unfold ringEnEffect
  extract_lets r m asked kept a s1 r1 dim leaves s2 s3 s4 s5
  clear_value kept
  have h1 : Held r0 s1 := by
    dsimp only [s1]
    split
    · exact held_upd_ring_arb rfl rfl hg0
    · exact hg0
  clear_value s1
  have h2 : Held r0 s2 := held_ite (held_frtEndAll _ _ h1) h1
  have h5 : Held r0 s5 := held_idleLinks _ (held_modRing _ _ (held_moveDim _ _ _ h2))
  exact held_ite (held_surveyAll _ h5) h5

theorem held_ringCfgLoad {r0 : State} (v : Word) (s : State) (hg0 : Held r0 s) : Held r0 (ringCfgLoad v s) := by
  unfold ringCfgLoad
  dsimp only
  repeat (any_goals first | with_reducible assumption | with_reducible apply held_surveyAll | with_reducible apply held_modRing | with_reducible apply held_moveDim | split)

theorem held_ringCfgWriteOp {r0 : State} (v : Word) (s : State) (hg0 : Held r0 s) : Held r0 (ringCfgWriteOp v s) := by
  unfold ringCfgWriteOp
  repeat (any_goals first | with_reducible assumption | with_reducible apply held_ringCfgLoad | with_reducible apply held_modRing | split)

theorem held_originate {r0 : State} (ev : Option Nat) (s : State) (hg0 : Held r0 s) : Held r0 (originate ev s) := by
  unfold originate
  dsimp only
  repeat (any_goals first | with_reducible assumption | with_reducible apply held_modSync | with_reducible apply held_modHsb | with_reducible apply held_setRole | with_reducible apply held_kept (kept_epochAdvance _ kept_refl same) (by decide) | with_reducible apply held_kept (kept_hsbEvt _ _ kept_refl same) (by decide) | split)

theorem held_stepDown {r0 : State} (s : State) (hg0 : Held r0 s) : Held r0 (stepDown s) := by
  unfold stepDown
  repeat (any_goals first | with_reducible assumption | with_reducible apply held_setRole | with_reducible apply held_modHsb | with_reducible apply held_modSync)

theorem held_heard {r0 : State} (s : State) (hg0 : Held r0 s) : Held r0 (heard s) := by
  unfold heard
  repeat (any_goals first | with_reducible assumption | with_reducible apply held_modSync | with_reducible apply held_setRole | with_reducible apply held_resyncBegin | split)

theorem held_takeOverTrain {r0 : State} (ev : Nat) (reopen : Bool) (s : State) (hg0 : Held r0 s) : Held r0 (takeOverTrain ev reopen s) := by
  unfold takeOverTrain
  try dsimp only
  repeat (any_goals first | with_reducible assumption | with_reducible apply held_kept (kept_launchTrain _ kept_refl same) (by decide) | with_reducible apply held_kept (kept_reopenConns _ kept_refl same) (by decide) | with_reducible apply held_originate | split)

theorem held_hsbCycle {r0 : State} (s : State) (hg0 : Held r0 s) : Held r0 (hsbCycle s).2 := by
  unfold hsbCycle
  split
  · exact hg0
  · extract_lets s0 k s1 s2 s3 s4 w gs s5
    have h1 : Held r0 s1 := held_modSync _ _ (held_linkTurn _ hg0)
    clear_value s1
    have h2 : Held r0 s2 := held_ite h1 (held_modHsb _ _ h1)
    clear_value s2
    have h3 : Held r0 s3 := held_sendState _ (held_sendSync _ _ _ _ (held_modSync _ _ h2))
    clear_value s3
    have h4 : Held r0 s4 := by
      dsimp only [s4]
      split
      · refine held_ite (held_sendSync _ _ _ _ h3) (held_ite ?_ h3)
        exact held_foldl (held_modHsb _ _ (held_modSync _ _ (held_sendRelinquish _ _ h3))) fun _ _ h => held_finish _ _ _ _ _ h
      · exact h3
    clear_value s4
    have h5 : Held r0 s5 := by
      dsimp only [s5]
      split
      · have hw : Held r0 w := held_modSync _ _ h4
        refine held_ite h4 (held_ite ?_ ?_)
        · exact held_setRole _ _ (held_modHsb _ _ hw)
        · exact held_resyncBegin _ (held_stepDown _ (held_modSync _ _ hw))
      · exact h4
    clear_value s5
    repeat (any_goals first | exact h5 | with_reducible apply held_modHsb | split)

theorem held_acceptLead {r0 : State} (ring : Fin 2) (payload : List Byte) (s : State) (hg0 : Held r0 s) : Held r0 (acceptLead ring payload s) := by
  unfold acceptLead
  repeat (any_goals first | with_reducible assumption | with_reducible apply held_heard | with_reducible apply held_modRtm | with_reducible apply held_modSync | with_reducible apply held_modHsb | with_reducible apply held_kept (kept_noteEpoch _ _ kept_refl same) (by decide) | with_reducible apply held_kept (kept_hsbEvt _ _ kept_refl same) (by decide) | split | with_reducible apply held_kept (kept_upd_cyc kept_refl same) (by decide))

theorem held_relayFrame {r0 : State} (ring : Fin 2) (f : Frame) (s : State) (hg0 : Held r0 s) : Held r0 (relayFrame ring f s) := by
  unfold relayFrame
  try dsimp only
  repeat (any_goals first | with_reducible assumption | with_reducible apply held_kept (kept_compareAll _ _ kept_refl same) (by decide) | with_reducible apply held_kept (kept_recordFrame _ _ _ kept_refl same) (by decide) | with_reducible apply held_acceptLead | split)

theorem held_supervisionFailure {r0 : State} (d : DomId) (bad : List (Fin 3)) (s : State) (hg0 : Held r0 s) : Held r0 (supervisionFailure d bad s) := by
  unfold supervisionFailure
  repeat (any_goals first | with_reducible assumption | with_reducible apply held_laneHalt | with_reducible apply held_pairFault | with_reducible apply held_kept (kept_modCim _ _ _ kept_refl same) (by decide) | (with_reducible apply held_foldl; rotate_left; intro _ _ _) | split)

theorem held_pairRestart {r0 : State} (n : Fin 4) (host : Bool) (src : Nat) (s : State) (hg0 : Held r0 s) : Held r0 (pairRestart n host src s) := by
  unfold pairRestart
  repeat (any_goals first | with_reducible assumption | with_reducible apply held_cimRestart | with_reducible apply held_kept (kept_noteRestart _ _ kept_refl same) (by decide) | with_reducible apply held_setRun | with_reducible apply held_addLog | with_reducible apply held_modCore | with_reducible apply held_modPair | with_reducible apply held_kept (kept_initRetain _ _ _ kept_refl same) (by decide) | with_reducible apply held_kept (kept_restoreInstances _ _ _ kept_refl same) (by decide) | with_reducible apply held_kept (kept_resetInstances _ _ _ _ kept_refl same) (by decide) | with_reducible apply held_kept (kept_initKept _ _ _ _ kept_refl same) (by decide) | with_reducible apply held_abortSolvers | with_reducible apply held_modDom | split | with_reducible apply held_kept (kept_upd_log kept_refl same) (by decide))

theorem held_groupStart {r0 : State} (g : Fin 2) (src : Nat) (s : State) (hg0 : Held r0 s) : Held r0 (groupStart g src s) := by
  unfold groupStart
  repeat (any_goals first | with_reducible assumption | with_reducible apply held_cimRestart | with_reducible apply held_setRun | with_reducible apply held_kept (kept_resetInstances _ _ _ _ kept_refl same) (by decide) | with_reducible apply held_kept (kept_initKept _ _ _ _ kept_refl same) (by decide) | with_reducible apply held_kept (kept_ixlRestart _ _ _ kept_refl same) (by decide) | with_reducible apply held_modCore | with_reducible apply held_modGroup | with_reducible apply held_abortSolvers | with_reducible apply held_modDom | with_reducible apply held_setMembers | with_reducible apply held_addLog | (with_reducible apply held_foldl; rotate_left; intro _ _ _) | split | with_reducible apply held_kept (kept_upd_esc kept_refl same) (by decide))

theorem held_domRestart {r0 : State} (d : DomId) (host : Bool) (src : Nat) (s : State) (hg0 : Held r0 s) : Held r0 (domRestart d host src s) := by
  unfold domRestart
  repeat (any_goals first | with_reducible assumption | with_reducible apply held_groupStart | with_reducible apply held_pairRestart | with_reducible apply held_changeLeave | split)

/-- Outside SAFE alone a request leads to RUN. -/
theorem held_enterRun {r0 : State} (src : Nat) (s : State) (hs : inSafe s = false) (hg0 : Held r0 s) : Held r0 (enterRun src s) := by
  unfold enterRun
  extract_lets s1 a c s2 s3
  refine held_leave (u := s2) hg0 hs rfl ?_
  clear_value s2
  dsimp only [s3]
  repeat (any_goals first | with_reducible assumption | with_reducible exact held_refl | with_reducible apply held_kept (kept_hsbRun _ kept_refl same) (by decide) | with_reducible apply held_kept (kept_wantLanes _ kept_refl same) (by decide) | with_reducible apply held_domRestart | (with_reducible apply held_foldl; rotate_left; intro _ _ _))

/-- In SAFE no operating state is admitted. -/
theorem held_modeAdmit {r0 : State} (dim st : Nat) (src : ReqSrc) (s : State) (hd : inSafe s = true → dim ≠ 0) (hg0 : Held r0 s) :
    Held r0 (modeAdmit dim st src s) := by
  unfold modeAdmit
  split
  · exact hg0
  · split
    case isTrue h =>
      have hs : inSafe s = false := by
        by_contra e
        exact hd (by simpa using e) h
      dsimp only
      split
      · exact held_enterRun _ _ hs hg0
      · exact held_leave hg0 hs rfl (held_showGroups _ held_refl)
      · exact held_leave hg0 hs rfl (held_showGroups _ held_refl)
      · exact held_out hg0 hs hs
    case isFalse => exact held_ite (held_domRestart _ _ _ _ hg0) (held_upd_arb rfl rfl hg0)

theorem held_modeRequest {r0 : State} (dim st : Nat) (src : ReqSrc) (s : State) (hg0 : Held r0 s) : Held r0 (modeRequest dim st src s).2 := by
  unfold modeRequest
  split
  · exact hg0
  · split
    · exact held_upd_arb rfl rfl hg0
    case h_2 h =>
      refine held_modeAdmit _ _ _ _ (fun e hd => ?_) (held_upd_arb rfl rfl hg0)
      have safe : inSafe s = true := e
      simp [modeRefusal, hd, safe] at h
      split_ifs at h

theorem held_maRequest {r0 : State} (src : ReqSrc) (dim st : Nat) (s : State) (hg0 : Held r0 s) : Held r0 (maRequest src dim st s) := by
  unfold maRequest
  repeat (any_goals first | with_reducible assumption | with_reducible apply held_modeRequest | split)

theorem held_pairCommandStop {r0 : State} (n : Fin 4) (src : Nat) (s : State) (hg0 : Held r0 s) : Held r0 (pairCommandStop n src s) := by
  unfold pairCommandStop
  dsimp only
  repeat (any_goals first | with_reducible assumption | with_reducible apply held_stopCore | with_reducible apply held_setRun | with_reducible apply held_modDom | with_reducible apply held_abortSolvers | with_reducible apply held_abandonTasks | with_reducible apply held_kept (kept_sealArea _ _ kept_refl same) (by decide) | with_reducible apply held_changeLeave | split)

theorem held_groupHalt {r0 : State} (g : Fin 2) (src : Nat) (s : State) (hg0 : Held r0 s) : Held r0 (groupHalt g src s) := by
  unfold groupHalt
  try dsimp only
  repeat (any_goals first | with_reducible assumption | with_reducible apply held_setRun | with_reducible apply held_modGroup | with_reducible apply held_stopCore | with_reducible apply held_abortSolvers | with_reducible apply held_abandonTasks | with_reducible apply held_safetyOff | with_reducible apply held_changeLeave | (with_reducible apply held_foldl; rotate_left; intro _ _ _) | split)

/-- STOP is entered from outside SAFE alone. -/
theorem held_enterStop {r0 : State} (src : Nat) (s : State) (hs : inSafe s = false) (hg0 : Held r0 s) : Held r0 (enterStop src s) :=
  held_leave hg0 hs rfl (held_showGroups _ held_refl)

theorem held_keyStop {r0 : State} (s : State) (hg0 : Held r0 s) : Held r0 (keyStop s) := by
  unfold keyStop
  split
  case isTrue h =>
    have hs : inSafe s = false := by
      rw [inSafe_eq_false_iff]
      intro e
      simp [e] at h
    split
    · exact hg0
    · refine held_out hg0 hs ?_
      split
      · simpa only [inSafe, refusePending_oper] using hs
      · exact hs
  case isFalse =>
    repeat (any_goals first | with_reducible assumption | with_reducible exact held_refl | with_reducible apply held_pairCommandStop | (with_reducible apply held_foldl; rotate_left; intro _ _ _) | split)

theorem held_keySet {r0 : State} (new : KeyPos) (s : State) (hg0 : Held r0 s) : Held r0 (keySet new s) := by
  unfold keySet
  extract_lets old s1 a s2 s3 s4
  have h2 : Held r0 s2 := held_upd_arb rfl rfl (held_transition _ _ _ _ _ _ hg0)
  have h3 : Held r0 s3 := by
    dsimp only [s3]
    exact held_ite (held_kept (kept_detachAll _ kept_refl same) (by decide) h2) h2
  have h4 : Held r0 s4 := by
    dsimp only [s4]
    split
    case isTrue h =>
      have hs : inSafe s3 = false := by
        rw [inSafe_eq_false_iff]
        intro e
        simp [e] at h
      exact held_leave h3 hs rfl (held_showGroups _ held_refl)
    case isFalse => exact h3
  exact held_ite (held_keyStop _ h4) h4

theorem held_lastTrainLeft {r0 : State} (s : State) (hg0 : Held r0 s) : Held r0 (lastTrainLeft s) :=
  held_ite (held_modHsb _ _ (held_upd_cyc_arb rfl rfl hg0)) hg0

theorem held_atBoundaryEffects {r0 : State} (s : State) (hg0 : Held r0 s) : Held r0 (atBoundaryEffects s) := by
  unfold atBoundaryEffects
  repeat (any_goals first | with_reducible assumption | with_reducible apply held_kept (kept_lsDisableTake _ _ kept_refl same) (by decide) | with_reducible apply held_ringEnEffect | (with_reducible apply held_foldl; rotate_left; intro _ _ _) | split)

theorem held_laneEoc {r0 : State} (g : Fin 2) (l : Fin 3) (s : State) (hg0 : Held r0 s) : Held r0 (laneEoc g l s) := by
  unfold laneEoc
  repeat (any_goals first | with_reducible assumption | with_reducible apply held_ixlFinish | with_reducible apply held_kept (kept_eocGive _ _ _ kept_refl same) (by decide) | split)

theorem held_laneComplete {r0 : State} (l : Fin 3) (g : Fin 2) (im : Image) (t : Fin 16) (s : State) (hg0 : Held r0 s) : Held r0 (laneComplete l g im t s) := by
  unfold laneComplete
  dsimp only
  repeat (any_goals first | with_reducible assumption | with_reducible apply held_laneEoc | with_reducible apply held_kept (kept_coreComplete _ _ _ kept_refl same) (by decide) | with_reducible apply held_modDom | with_reducible apply held_modGroup | split)

theorem held_cancelLower {r0 : State} (r : CmdRef) (x : Slot) (s : State) (hg0 : Held r0 s) : Held r0 (cancelLower r x s) := by
  unfold cancelLower
  repeat (any_goals first | with_reducible assumption | with_reducible apply held_modDom | with_reducible apply held_setChg | with_reducible apply held_kept (kept_dropPartial _ _ kept_refl same) (by decide) | with_reducible apply held_modRing | (with_reducible apply held_foldl; rotate_left; intro _ _ _) | split | with_reducible apply held_kept (kept_upd_ps kept_refl same) (by decide) | with_reducible apply held_kept (kept_upd_solvers kept_refl same) (by decide) | with_reducible apply held_kept (kept_upd_update kept_refl same) (by decide))

theorem held_changeBegin {r0 : State} (r : CmdRef) (d : DomId) (old raw : Image) (recipe : Bool) (window : Nat) (s : State) (hg0 : Held r0 s) : Held r0 (changeBegin r d old raw recipe window s) := by
  unfold changeBegin
  dsimp only
  repeat (any_goals first | with_reducible assumption | with_reducible apply held_setChg | with_reducible apply held_kept (kept_waitFor _ _ _ kept_refl same) (by decide) | with_reducible apply held_kept (kept_loadUndone _ _ _ kept_refl same) (by decide) | with_reducible apply held_kept (kept_solvPower _ kept_refl same) (by decide) | with_reducible apply held_kept (kept_solvReady _ _ _ kept_refl same) (by decide) | with_reducible apply held_modDom | with_reducible apply held_kept (kept_loadTrial _ _ _ _ kept_refl same) (by decide) | with_reducible apply held_kept (kept_loadRefused _ _ _ _ kept_refl same) (by decide) | split)

theorem held_imageLoadOp {r0 : State} (r : CmdRef) (id : Long) (d : DomId) (recipe : Bool) (window : Nat) (s : State) (hg0 : Held r0 s) : Held r0 (imageLoadOp r id d recipe window s) := by
  unfold imageLoadOp
  dsimp only
  repeat (any_goals first | with_reducible assumption | with_reducible apply held_finishRefused | with_reducible apply held_kept (kept_plainLoad _ _ _ kept_refl same) (by decide) | with_reducible apply held_kept (kept_recipeLoad _ _ _ _ kept_refl same) (by decide) | with_reducible apply held_changeBegin | with_reducible apply held_finish | with_reducible apply held_kept (kept_keyLoad _ _ _ kept_refl same) (by decide) | with_reducible apply held_kept (kept_loadRefused _ _ _ _ kept_refl same) (by decide) | split)

theorem held_migrateStep {r0 : State} (d : DomId) (s : State) (hg0 : Held r0 s) : Held r0 (migrateStep d s) := by
  unfold migrateStep
  repeat (any_goals first | with_reducible assumption | with_reducible apply held_kept (kept_migBack _ _ _ _ _ _ kept_refl same) (by decide) | with_reducible apply held_swapped | with_reducible apply held_kept (kept_recipeWrite _ _ _ _ kept_refl same) (by decide) | with_reducible apply held_modDom | with_reducible apply held_kept (kept_migForward _ _ _ _ _ _ kept_refl same) (by decide) | with_reducible apply held_migRun | with_reducible apply held_kept (kept_clearMarks _ _ kept_refl same) (by decide) | split | with_reducible intro _ | dsimp only)

theorem held_swapped {r0 : State} (d : DomId) (confirmed : Image) (s : State) (hg0 : Held r0 s) : Held r0 (swapped d confirmed s) := by
  unfold swapped
  dsimp only
  repeat (any_goals first | with_reducible assumption | with_reducible apply held_finish | with_reducible apply held_setChg | with_reducible apply held_kept (kept_suspend _ _ _ kept_refl same) (by decide) | with_reducible apply held_addLog | with_reducible apply held_modDom | split)

theorem held_changeCmd {r0 : State} (r : CmdRef) (w : Wait) (f : Change → Change) (x : List Byte) (s : State) (hg0 : Held r0 s) : Held r0 (changeCmd r w f x s) := by
  unfold changeCmd
  dsimp only
  repeat (any_goals first | with_reducible assumption | with_reducible apply held_modDom | with_reducible apply held_kept (kept_waitFor _ _ _ kept_refl same) (by decide) | with_reducible apply held_finishRefused | with_reducible apply held_swapped | with_reducible apply held_kept (kept_badParam _ _ _ kept_refl same) (by decide) | split)

theorem held_debugClose {r0 : State} (s : State) (hg0 : Held r0 s) : Held r0 (debugClose s) := by
  unfold debugClose
  repeat (any_goals first | with_reducible assumption | with_reducible apply held_kept (kept_detachAll _ kept_refl same) (by decide) | with_reducible apply held_kept (kept_pairDetach _ _ kept_refl same) (by decide) | with_reducible apply held_transition | (with_reducible apply held_foldl; rotate_left; intro _ _ _) | split | with_reducible apply held_kept (kept_upd_dbg kept_refl same) (by decide))

theorem held_blowBits {r0 : State} (w : FuseWord) (v : Word) (s : State) (hg0 : Held r0 s) : Held r0 (blowBits w v s) := by
  unfold blowBits
  dsimp only
  repeat (any_goals first | with_reducible assumption | with_reducible apply held_debugClose | with_reducible apply held_kept (kept_modFuses _ _ kept_refl same) (by decide) | split)

theorem held_setRunning {r0 : State} (id : Long) (s : State) (hg0 : Held r0 s) : Held r0 (setRunning id s) := by
  unfold setRunning
  repeat (any_goals first | with_reducible assumption | with_reducible apply held_setRun | with_reducible apply held_kept (kept_writeBoot _ _ kept_refl same) (by decide) | with_reducible apply held_modUpdate | with_reducible apply held_kept (kept_dropOldSet _ _ kept_refl same) (by decide) | with_reducible apply held_kept (kept_settingsTurn _ _ kept_refl same) (by decide))

theorem held_updateGo {r0 : State} (id : Long) (_m : List Byte) (c : Nat) (s : State) (hg0 : Held r0 s) : Held r0 (updateGo id _m c s) := by
  unfold updateGo
  repeat (any_goals first | with_reducible assumption | with_reducible apply held_setRunning | with_reducible apply held_kept (kept_finishOpt _ _ _ kept_refl same) (by decide) | with_reducible apply held_modUpdate | split)

theorem held_cfgApply {r0 : State} (c : CfgSet) (s : State) (hg0 : Held r0 s) : Held r0 (cfgApply c s) := by
  unfold cfgApply
  repeat (any_goals first | with_reducible assumption | with_reducible apply held_kept (kept_fgChWriteOp _ _ _ _ _ kept_refl same) (by decide) | with_reducible apply held_kept (kept_modPs _ _ kept_refl same) (by decide) | with_reducible apply held_kept (kept_wdgLoad _ _ kept_refl same) (by decide) | with_reducible apply held_modHsb | with_reducible apply held_kept (kept_escCfgWriteOp _ _ kept_refl same) (by decide) | with_reducible apply held_kept (kept_layoutLoad _ _ kept_refl same) (by decide) | with_reducible apply held_ringCfgLoad | (with_reducible apply held_foldl; rotate_left; intro _ _ _) | split | with_reducible apply held_kept (kept_upd_cyc kept_refl same) (by decide) | with_reducible apply held_kept (kept_upd_doms kept_refl same) (by decide) | with_reducible apply held_kept (kept_upd_mbx kept_refl same) (by decide))

theorem held_bootCount {r0 : State} (s : State) (hg0 : Held r0 s) : Held r0 (bootCount s) := by
  unfold bootCount
  repeat (any_goals first | with_reducible assumption | with_reducible apply held_modBoot)

theorem held_bootFallback {r0 : State} (s : State) (hg0 : Held r0 s) : Held r0 (bootFallback s) := by
  unfold bootFallback
  dsimp only
  repeat (any_goals first | with_reducible assumption | with_reducible apply held_setRun | with_reducible apply held_modRec | with_reducible apply held_setFlag | with_reducible apply held_modUpdate | with_reducible apply held_addLog | split)

theorem held_bootB14 {r0 : State} (f : BootFindings) (s : State) (hg0 : Held r0 s) : Held r0 (bootB14 f s) := by
  unfold bootB14
  dsimp only
  repeat (any_goals first | with_reducible assumption | with_reducible apply held_kept (kept_panelDrive _ kept_refl same) (by decide) | with_reducible apply held_showGroups | with_reducible apply held_domRestart | with_reducible apply held_enterSafe | with_reducible apply held_modBoot | with_reducible apply held_bootStore | with_reducible apply held_kept (kept_countPowerUp _ kept_refl same) (by decide) | (with_reducible apply held_foldl; rotate_left; intro _ _ _) | split)

theorem held_scrubRead {r0 : State} (code line : Nat) (s : State) (hg0 : Held r0 s) : Held r0 (scrubRead code line s) := by
  unfold scrubRead
  dsimp only
  repeat (any_goals first | with_reducible assumption | with_reducible apply held_addLog | with_reducible apply held_laneMemErr | with_reducible apply held_kept (kept_checkLine _ _ _ _ kept_refl same) (by decide) | split)

theorem held_votReqOp {r0 : State} (v : Word) (s : State) (hg0 : Held r0 s) : Held r0 (votReqOp v s).2 := by
  unfold votReqOp
  repeat (any_goals first | with_reducible assumption | with_reducible apply held_kept (kept_voterStat _ _ kept_refl same) (by decide) | with_reducible apply held_voterRequest | split)

theorem held_votReqWr {r0 : State} (m : Master) (atK : Bool) (v : Word) (s : State) (hg0 : Held r0 s) : Held r0 (votReqWr m atK v s) := by
  unfold votReqWr
  repeat (any_goals first | with_reducible assumption | with_reducible apply held_noPathAt | with_reducible apply held_answer | with_reducible apply held_votReqOp | with_reducible apply held_regAt | split)

theorem held_ringEnWr {r0 : State} (v : Word) (s : State) (hg0 : Held r0 s) : Held r0 (ringEnWr v s) := by
  unfold ringEnWr
  dsimp only
  repeat (any_goals first | with_reducible assumption | with_reducible apply held_recordEn | with_reducible apply held_ringEnRings | split)

theorem held_ringWr {r0 : State} (off : Nat) (v : Word) (s : State) (hg0 : Held r0 s) : Held r0 (ringWr off v s) := by
  unfold ringWr
  repeat (any_goals first | with_reducible assumption | with_reducible apply held_modRtm | with_reducible apply held_modRing | with_reducible apply held_ringEnWr | with_reducible apply held_ringCfgWriteOp | split)

theorem held_lsCmdWr {r0 : State} (atK : Bool) (i : Fin 5) (k : Fin 2) (v : Word) (s : State) (hg0 : Held r0 s) : Held r0 (lsCmdWr atK i k v s) := by
  unfold lsCmdWr
  repeat (any_goals first | with_reducible assumption | with_reducible apply held_kept (kept_lsUnloadOp _ _ _ kept_refl same) (by decide) | with_reducible apply held_kept (kept_lsLoadOp _ _ _ kept_refl same) (by decide) | with_reducible apply held_kept (kept_lsAbortQueue _ _ _ kept_refl same) (by decide) | with_reducible apply held_lsStartOp | with_reducible apply held_modQueue | split)

theorem held_lsWr {r0 : State} (atK : Bool) (i : Fin 5) (k : Fin 2) (off : Nat) (v : Word) (s : State) (hg0 : Held r0 s) : Held r0 (lsWr atK i k off v s) := by
  unfold lsWr
  repeat (any_goals first | with_reducible assumption | with_reducible apply held_modQueue | with_reducible apply held_lsCmdWr | split)

theorem held_maWr {r0 : State} (off : Nat) (v : Word) (s : State) (hg0 : Held r0 s) : Held r0 (maWr off v s) := by
  unfold maWr
  repeat (any_goals first | with_reducible assumption | with_reducible apply held_maRequest | split)

theorem held_regWrite {r0 : State} (m : Master) (atK : Bool) (blk off : Nat) (v : Word) (s : State) (hg0 : Held r0 s) : Held r0 (regWrite m atK blk off v s) := by
  unfold regWrite
  dsimp only
  repeat (any_goals first | with_reducible assumption | with_reducible apply held_kept (kept_mbxWr _ _ _ kept_refl same) (by decide) | with_reducible apply held_kept (kept_pwrWr _ _ _ _ kept_refl same) (by decide) | with_reducible apply held_kept (kept_psWr _ _ _ kept_refl same) (by decide) | with_reducible apply held_kept (kept_fgWr _ _ _ _ kept_refl same) (by decide) | with_reducible apply held_maWr | with_reducible apply held_kept (kept_rtcWr _ _ _ kept_refl same) (by decide) | with_reducible apply held_rtcWrite | with_reducible apply held_kept (kept_cimWr _ _ _ _ _ kept_refl same) (by decide) | with_reducible apply held_kept (kept_wdgWr _ _ _ _ kept_refl same) (by decide) | with_reducible apply held_modCore | with_reducible apply held_lsWr | with_reducible apply held_lsQueueAt | with_reducible apply held_answer | with_reducible apply held_kept (kept_rmuWr _ _ _ _ kept_refl same) (by decide) | with_reducible apply held_regAt | with_reducible apply held_noPathAt | with_reducible apply held_kept (kept_memWr _ _ _ kept_refl same) (by decide) | with_reducible apply held_kept (kept_hsbWr _ _ _ kept_refl same) (by decide) | with_reducible apply held_ringWr | with_reducible apply held_kept (kept_pairWr _ _ _ kept_refl same) (by decide) | with_reducible apply held_votReqWr | with_reducible apply held_kept (kept_cycWr _ _ _ kept_refl same) (by decide) | with_reducible apply held_stewAt | split | with_reducible intro _ | assumption)

theorem held_stewWord {r0 : State} (code off n : Nat) (s : State) (hg0 : Held r0 s) : Held r0 (stewWord code off n s).2 := by
  unfold stewWord
  dsimp only
  repeat (any_goals first | with_reducible assumption | with_reducible apply held_kept (kept_nextFree _ kept_refl same) (by decide) | with_reducible apply held_kept (kept_raiseCorrected _ _ kept_refl same) (by decide) | with_reducible apply held_laneMemErr | with_reducible apply held_kept (kept_checkWord _ _ _ _ kept_refl same) (by decide) | with_reducible apply held_kept (kept_extDecode _ _ _ kept_refl same) (by decide) | split)

theorem held_stewBytes {r0 : State} (code fuel off n : Nat) (s : State) (hg0 : Held r0 s) : Held r0 (stewBytes code fuel off n s).2 := by
  induction fuel generalizing off n s with
  | zero => exact hg0
  | succ f ih =>
    unfold stewBytes
    split
    · exact hg0
    · exact ih _ _ _ (held_stewWord _ _ _ _ hg0)

theorem held_readMem {r0 : State} (r : CmdRef) (code off n : Nat) (s : State) (hg0 : Held r0 s) : Held r0 (readMem r code off n s) := by
  unfold readMem
  dsimp only
  repeat (any_goals first | with_reducible assumption | with_reducible apply held_stewBytes | with_reducible apply held_kept (kept_wakeBank _ _ kept_refl same) (by decide) | with_reducible apply held_kept (kept_notStarted _ _ kept_refl same) (by decide) | with_reducible apply held_countAf | with_reducible apply held_finish | (with_reducible apply held_foldl; rotate_left; intro _ _ _) | split)

theorem held_ueResponse {r0 : State} (c : CoreId) (code : Nat) (s : State)
    (hg0 : Held r0 s) : Held r0 (resState (ueResponse c code s)) := by
  unfold ueResponse
  repeat (any_goals first | with_reducible assumption | with_reducible apply held_laneMemErr | with_reducible apply held_orderlyBegin | split | with_reducible rw [res_trap] | with_reducible rw [res_held])

theorem held_readSram {r0 : State} (c : CoreId) (op : MemOp) (code off : Nat) (s : State)
    (hg0 : Held r0 s) : Held r0 (resState (readSram c op code off s)) := by
  unfold readSram
  repeat (any_goals first | with_reducible assumption | with_reducible apply held_ueResponse | with_reducible apply held_kept (kept_raiseCorrected _ _ kept_refl same) (by decide) | with_reducible apply held_kept (kept_checkWord _ _ _ _ kept_refl same) (by decide) | split | with_reducible rw [res_trap] | with_reducible rw [res_held] | with_reducible rw [res_ok] | dsimp only)

theorem held_writeSram {r0 : State} (c : CoreId) (op : MemOp) (code off : Nat) (meet : Option Meet) (s : State)
    (hg0 : Held r0 s) : Held r0 (resState (writeSram c op code off meet s)) := by
  unfold writeSram
  repeat (any_goals first | with_reducible assumption | with_reducible apply held_ueResponse | with_reducible apply held_kept (kept_recordErr _ _ _ _ _ kept_refl same) (by decide) | with_reducible apply held_kept (kept_storeRot _ _ _ _ _ _ kept_refl same) (by decide) | with_reducible apply held_kept (kept_collide _ _ _ _ _ _ kept_refl same) (by decide) | split | with_reducible rw [res_trap] | with_reducible rw [res_held] | with_reducible rw [res_ok])

theorem held_accessSram {r0 : State} (c : CoreId) (op : MemOp) (code off : Nat) (meet : Option Meet) (s : State)
    (hg0 : Held r0 s) : Held r0 (resState (accessSram c op code off meet s)) := by
  unfold accessSram
  repeat (any_goals first | with_reducible assumption | with_reducible apply held_writeSram | with_reducible apply held_readSram | split | with_reducible rw [res_trap] | with_reducible rw [res_held] | with_reducible rw [res_ok])

theorem held_accessExt {r0 : State} (c : CoreId) (op : MemOp) (off : Nat) (s : State)
    (hg0 : Held r0 s) : Held r0 (resState (accessExt c op off s)) := by
  unfold accessExt
  extract_lets z
  have hz : Held r0 z.2 := held_kept (kept_extDecode _ _ _ kept_refl same) (by decide) hg0
  clear_value z
  repeat (any_goals first | with_reducible assumption | with_reducible apply held_ueResponse | with_reducible apply held_kept (kept_storeRot _ _ _ _ _ _ kept_refl same) (by decide) | with_reducible apply held_kept (kept_extClear _ _ kept_refl same) (by decide) | split | with_reducible rw [res_trap] | with_reducible rw [res_held] | with_reducible rw [res_ok])

theorem held_accessReg {r0 : State} (c : CoreId) (op : MemOp) (blk off : Nat) (s : State)
    (hg0 : Held r0 s) : Held r0 (resState (accessReg c op blk off s)) := by
  unfold accessReg
  extract_lets m k t
  have hm : Held r0 t := by
    dsimp only [t]
    exact held_ite (held_noPathAt _ _ hg0) (held_ite (held_regWrite _ _ _ _ _ _ hg0) (held_kept (kept_regRead _ _ _ _ _ kept_refl same) (by decide) hg0))
  clear_value t
  repeat (any_goals first | with_reducible assumption | with_reducible apply held_regWrite | with_reducible apply held_noPathAt | split | with_reducible rw [res_trap] | with_reducible rw [res_held] | with_reducible rw [res_ok])

theorem held_accessWin {r0 : State} (c : CoreId) (op : MemOp) (i : Fin 5) (off : Nat) (s : State)
    (hg0 : Held r0 s) : Held r0 (resState (accessWin c op i off s)) := by
  unfold accessWin
  repeat (any_goals first | with_reducible assumption | with_reducible apply held_answer | with_reducible apply held_countAf | with_reducible apply held_kept (kept_windowAccess _ _ _ _ _ _ _ kept_refl same) (by decide) | split | with_reducible rw [res_trap] | with_reducible rw [res_held] | with_reducible rw [res_ok] | dsimp only)

theorem held_accessMem {r0 : State} (c : CoreId) (op : MemOp) (addr : Word) (meet : Option Meet) (word : Word) (w : Where) (s : State)
    (hg0 : Held r0 s) : Held r0 (resState (accessMem c op addr meet word w s)) := by
  unfold accessMem
  repeat (any_goals first | with_reducible assumption | with_reducible apply held_accessSram | with_reducible apply held_accessExt | with_reducible apply held_noPathAt | with_reducible apply held_answer | with_reducible apply held_countAf | with_reducible apply held_kept (kept_holdAccess _ _ _ _ _ _ _ kept_refl same) (by decide) | split | with_reducible rw [res_trap] | with_reducible rw [res_held] | with_reducible rw [res_ok] | dsimp only)

theorem held_access {r0 : State} (c : CoreId) (op : MemOp) (addr : Word) (meet : Option Meet) (word : Word) (s : State)
    (hg0 : Held r0 s) : Held r0 (resState (access c op addr meet word s)) := by
  unfold access
  repeat (any_goals first | with_reducible assumption | with_reducible apply held_accessReg | with_reducible apply held_accessWin | with_reducible apply held_accessMem | split | with_reducible rw [res_trap])

theorem held_perform {r0 : State} (acc : CoreId → MemOp → Word → Option Meet → Word → State → MemRes) (h : Hdr) (word : Word) (x : Act)
    (s : State) (ha : AccessHeld r0 acc) (hg0 : Held r0 s) : Held r0 (perform acc h word x s) := by
  have arch : ∀ c f t, Held r0 t → Held r0 (modArch c f t) := fun c f t ht => held_kept (kept_modArch _ _ _ kept_refl same) (by decide) ht
  have ret : ∀ c e t, Held r0 t → Held r0 (retire c e t) := fun c e t ht => held_kept (kept_retire _ _ _ kept_refl same) (by decide) ht
  have trap : ∀ c t w u, Held r0 u → Held r0 (takeTrap c t w u) := fun c t w u hu => held_takeTrap _ _ _ _ hu
  have con : ∀ l g x t, Held r0 t → Held r0 (contribute l g x t) := fun l g x t ht => held_kept (kept_contribute _ _ _ _ kept_refl same) (by decide) ht
  have core : ∀ c f t, Held r0 t → Held r0 (modCore c f t) := fun c f t ht => held_modCore _ _ _ ht
  have mask : ∀ c k w t, Held r0 t → Held r0 (maskWrite c k w t) := fun c k w t ht => held_kept (kept_maskWrite _ _ _ _ kept_refl same) (by decide) ht
  have meet : ∀ c k w m t, Held r0 t → Held r0 (maskCollide c k w m t).2 := fun c k w m t ht => held_kept (kept_maskCollide _ _ _ _ _ kept_refl same) (by decide) ht
  cases x with
  | done e => exact ret _ _ _ hg0
  | trap t => exact trap _ _ _ _ hg0
  | jump t l => exact arch _ _ _ hg0
  | rep r => exact arch _ _ _ hg0
  | rte => exact arch _ _ _ hg0
  | wait =>
    unfold perform
    dsimp only
    exact held_ite (ret _ _ _ hg0) (core _ _ _ hg0)
  | mem op addr =>
    have hm := ha h.core op (addr) h.meet word s hg0
    unfold perform
    dsimp only
    split <;> rename_i e <;> rw [e] at hm
    · exact trap _ _ _ _ hm
    · exact hm
    · exact ret _ _ _ hm
  | bits e code rds ws lost =>
    unfold perform
    dsimp -zeta only
    extract_lets c z s2
    have hz : Held r0 z.2 := held_kept (kept_readWords _ _ _ _ kept_refl same) (by decide) hg0
    clear_value z
    split
    · exact core _ _ _ (held_kept (kept_wakeBank _ _ kept_refl same) (by decide) hg0)
    · split
      · split
        · exact held_laneMemErr _ _ hz
        · exact trap _ _ _ _ hz
      · split
        · exact ret _ _ _ hz
        · refine ret _ _ _ ?_
          split
          · exact meet _ _ _ _ _ hz
          · exact held_foldl (meet _ _ _ _ _ (meet _ _ _ _ _ hz)) fun a x h => mask _ _ _ _ h
  | vote rd v =>
    unfold perform
    dsimp only
    split
    · exact hg0
    · exact con _ _ _ _ (core _ _ _ hg0)
  | rmu op rd v =>
    unfold perform
    dsimp only
    split
    · exact hg0
    · exact con _ _ _ _ (core _ _ _ (held_rmuOp _ _ _ _ hg0))

theorem held_issueBy {r0 : State} (acc : CoreId → MemOp → Word → Option Meet → Word → State → MemRes) (i : Instr) (h : Hdr)
    (g : Arch → Bool) (body : Arch → State → Act) (s : State) (ha : AccessHeld r0 acc) (hg0 : Held r0 s) :
    Held r0 (issueBy acc i h g body s) := by
  have hl : Held r0 (leaveWait h.core s) := held_kept (kept_leaveWait _ _ kept_refl same) (by decide) hg0
  have per : ∀ w x t, Held r0 t → Held r0 (perform acc h w x t) := fun w x t ht => held_perform acc h w x t ha ht
  unfold issueBy
  extract_lets c t t1 word z t2
  change Held r0 t at hl
  have h1 : Held r0 t1 := held_modCore _ _ _ hl
  have hz : Held r0 t2 := held_kept (kept_fetchTrap _ _ kept_refl same) (by decide) h1
  clear_value t2 z t1 t
  split
  · exact held_kept (kept_runtimeTurn _ _ kept_refl same) (by decide) hl
  · split
    · exact hl
    · split
      · split
        · exact held_laneMemErr _ _ hz
        · exact held_takeTrap _ _ _ _ (held_kept (kept_firmwareReload _ _ kept_refl same) (by decide) hz)
      · extract_lets pick k
        split
        · extract_lets r t3 x y
          have h3 : Held r0 t3 := held_modPair _ _ _ (held_modCore _ _ _ hz)
          clear_value t3
          split
          · exact held_pairFaultKind _ _ _ _ h3
          · exact held_ite (held_kept (kept_brkCheck _ _ kept_refl same) (by decide) (per _ _ _ h3)) (held_pairFaultKind _ _ _ _ h3)
        · exact held_ite (per _ _ _ hz) (held_stopCore _ _ hz)
        · exact per _ _ _ hz

theorem held_resumeAccess {r0 : State} (c : CoreId) (s : State) (hg0 : Held r0 s) :
    Held r0 (resumeAccess c s) := by
  unfold resumeAccess
  split
  · rename_i op addr meet word _ _
    have hm := held_access c op addr meet word _ (held_modCore c (fun k => { k with hold := .none }) s hg0)
    dsimp only
    split <;> rename_i e <;> rw [e] at hm
    · exact held_takeTrap _ _ _ _ hm
    · exact hm
    · exact held_kept (kept_retire _ _ _ kept_refl same) (by decide) hm
  · exact hg0

theorem held_servedNext {r0 : State} (b : Fin 33) (s : State) (hg0 : Held r0 s) :
    Held r0 (servedNext b s) := by
  unfold servedNext
  extract_lets w c mine
  clear_value mine c w
  split
  · split
    · exact held_resumeAccess _ _ hg0
    · exact hg0
  · split
    · exact held_kept (kept_store _ _ _ _ _ kept_refl same) (by decide) (held_kept (kept_upd_memRegs kept_refl same) (by decide) hg0)
    · exact hg0

/-- SAFE is held from `s` to `t`, or `t` is the state after a module reset. -/
def Guarded (s t : State) : Prop := Held s t ∨ t.cores = State.reset.cores ∧ t.cyc = State.reset.cyc ∧ inSafe t = false

theorem guarded_reset (cause : Nat) {s : State} (t : State) : Guarded s (moduleReset cause t) := .inr ⟨rfl, rfl, rfl⟩

theorem guarded_ite {s a b : State} {c : Prop} [Decidable c] (ha : Guarded s a) (hb : Guarded s b) : Guarded s (if c then a else b) := by
  split <;> assumption

/-- Every next state of the outcome is guarded. -/
def GuardedBy (s : State) (o : Meaning) : Prop := ∀ t, o = .next t → Guarded s t

theorem guardedBy_next {s t : State} (h : Guarded s t) : GuardedBy s (.next t) := by
  rintro _ ⟨⟩
  exact h

theorem guardedBy_held {s t : State} (h : Held s t) : GuardedBy s (.next t) := guardedBy_next (.inl h)

/-- A command that leaves the arbiter alone holds SAFE. -/
theorem Leaves.guarded {ps : List Part} {s : State} {o : Meaning} (h : Leaves ps s o) (ha : Part.arb ∉ ps) : GuardedBy s o := fun t e =>
  .inl (held_kept (h t e) ha held_refl)

theorem guarded_issue (i : Instr) (h : Hdr) (body : Arch → State → Act) (s : State) : GuardedBy s (issue i h body s) :=
  guardedBy_held (held_issueBy _ _ _ _ _ _ held_noAccess held_refl)

theorem guarded_memInstr (i : Instr) (h : Hdr) (op : Arch → MemOp) (addr : Arch → Word) (s : State) : GuardedBy s (memInstr i h op addr s) :=
  guardedBy_held (held_issueBy _ _ _ _ _ _ (fun _ _ _ _ _ _ ht => held_access _ _ _ _ _ _ ht) held_refl)

theorem guarded_votePointComplete (g : Fin 2) (s : State) : GuardedBy s (execVotePointComplete g s) := by
  unfold execVotePointComplete
  refine guardedBy_held ?_
  repeat (any_goals first | with_reducible assumption | with_reducible exact held_refl | with_reducible apply held_voteResolve | split)

theorem guarded_voteWindowClose (g : Fin 2) (s : State) : GuardedBy s (execVoteWindowClose g s) := by
  unfold execVoteWindowClose
  refine guardedBy_held ?_
  repeat (any_goals first | with_reducible assumption | with_reducible exact held_refl | with_reducible apply held_reintEnd | with_reducible apply held_voteResolve | with_reducible apply held_modGroup | split | with_reducible intro _ | dsimp only)

theorem guarded_candidateCompare (g : Fin 2) (s : State) : GuardedBy s (execCandidateCompare g s) := by
  unfold execCandidateCompare
  refine guardedBy_held ?_
  repeat (any_goals first | with_reducible assumption | with_reducible exact held_refl | with_reducible apply held_candMeets)

theorem guarded_agreementLimit (g : Fin 2) (l : Fin 3) (s : State) : GuardedBy s (execAgreementLimit g l s) := by
  unfold execAgreementLimit
  refine guardedBy_held ?_
  repeat (any_goals first | with_reducible assumption | with_reducible exact held_refl | with_reducible apply held_modGroup | with_reducible apply held_excludeLane | split | with_reducible intro _ | dsimp only)

theorem guarded_reint (src : ReqSrc) (lane : Fin 4) (s : State) : GuardedBy s (execReint src lane s) := by
  unfold execReint
  refine guardedBy_held ?_
  repeat (any_goals first | with_reducible assumption | with_reducible exact held_refl | with_reducible apply held_voterRequest)

theorem guarded_maintOut (src : ReqSrc) (lane : Fin 4) (s : State) : GuardedBy s (execMaintOut src lane s) := by
  unfold execMaintOut
  refine guardedBy_held ?_
  repeat (any_goals first | with_reducible assumption | with_reducible exact held_refl | with_reducible apply held_voterRequest)

theorem guarded_abortReint (src : ReqSrc) (lane : Fin 4) (s : State) : GuardedBy s (execAbortReint src lane s) := by
  unfold execAbortReint
  refine guardedBy_held ?_
  repeat (any_goals first | with_reducible assumption | with_reducible exact held_refl | with_reducible apply held_voterRequest)

theorem guarded_debugAttach (src : ReqSrc) (lane : Fin 4) (s : State) : GuardedBy s (execDebugAttach src lane s) := by
  unfold execDebugAttach
  refine guardedBy_held ?_
  repeat (any_goals first | with_reducible assumption | with_reducible exact held_refl | with_reducible apply held_voterRequest)

theorem guarded_debugDetach (src : ReqSrc) (lane : Fin 4) (s : State) : GuardedBy s (execDebugDetach src lane s) := by
  unfold execDebugDetach
  refine guardedBy_held ?_
  repeat (any_goals first | with_reducible assumption | with_reducible exact held_refl | with_reducible apply held_voterRequest)

theorem guarded_reintPowerDown (s : State) : GuardedBy s (execReintPowerDown s) := by
  unfold execReintPowerDown
  refine guardedBy_held ?_
  repeat (any_goals first | with_reducible assumption | with_reducible exact held_refl | with_reducible apply held_modReint | with_reducible apply held_reintEnd | with_reducible apply held_setMembers | with_reducible apply held_kept (kept_laneOff _ _ kept_refl same) (by decide) | with_reducible apply held_kept (kept_dropLane _ _ _ kept_refl same) (by decide) | with_reducible apply held_modGroup | (with_reducible apply held_foldl; rotate_left; intro _ _ _) | split | with_reducible intro _ | dsimp only)

theorem guarded_lsStart (c : CoreId) (i : Fin 5) (e : BitVec 4) (s : State) : GuardedBy s (execLsStart c i e s) := by
  unfold execLsStart
  refine guardedBy_held ?_
  repeat (any_goals first | with_reducible assumption | with_reducible exact held_refl | with_reducible apply held_lsBy | with_reducible apply held_lsStartOp | split | with_reducible intro _)

theorem guarded_lsDone (i : Fin 5) (s : State) : GuardedBy s (execLsDone i s) := by
  unfold execLsDone
  refine guardedBy_held ?_
  repeat (any_goals first | with_reducible assumption | with_reducible exact held_refl | with_reducible apply held_lsFinishRun)

theorem guarded_lsOvertime (i : Fin 5) (s : State) : GuardedBy s (execLsOvertime i s) := by
  unfold execLsOvertime
  refine guardedBy_held ?_
  repeat (any_goals first | with_reducible assumption | with_reducible exact held_refl | with_reducible apply held_lsFinishRun | split)

theorem guarded_setRoute (r : Fin 4096) (s : State) : GuardedBy s (execSetRoute r s) := by
  unfold execSetRoute
  refine guardedBy_held ?_
  repeat (any_goals first | with_reducible assumption | with_reducible exact held_refl | with_reducible apply held_ixlAsk)

theorem guarded_cancelRoute (r : Fin 4096) (s : State) : GuardedBy s (execCancelRoute r s) := by
  unfold execCancelRoute
  refine guardedBy_held ?_
  repeat (any_goals first | with_reducible assumption | with_reducible exact held_refl | with_reducible apply held_ixlAsk)

theorem guarded_emergencyRelease (r : Fin 4096) (s : State) : GuardedBy s (execEmergencyRelease r s) := by
  unfold execEmergencyRelease
  refine guardedBy_held ?_
  repeat (any_goals first | with_reducible assumption | with_reducible exact held_refl | with_reducible apply held_ixlAsk)

theorem guarded_movePoint (p : Fin 2048) (rev : Bool) (s : State) : GuardedBy s (execMovePoint p rev s) := by
  unfold execMovePoint
  refine guardedBy_held ?_
  repeat (any_goals first | with_reducible assumption | with_reducible exact held_refl | with_reducible apply held_ixlAsk)

theorem guarded_approachReleaseExpiry (r : Fin 4096) (s : State) : GuardedBy s (execApproachReleaseExpiry r s) := by
  unfold execApproachReleaseExpiry
  refine guardedBy_held ?_
  repeat (any_goals first | with_reducible assumption | with_reducible exact held_refl | with_reducible apply held_approachExpire | split)

theorem guarded_emergencyReleaseExpiry (r : Fin 4096) (s : State) : GuardedBy s (execEmergencyReleaseExpiry r s) := by
  unfold execEmergencyReleaseExpiry
  refine guardedBy_held ?_
  repeat (any_goals first | with_reducible assumption | with_reducible exact held_refl | with_reducible apply held_emergencyExpire | split)

theorem guarded_overlapReleaseExpiry (r : Fin 4096) (s : State) : GuardedBy s (execOverlapReleaseExpiry r s) := by
  unfold execOverlapReleaseExpiry
  refine guardedBy_held ?_
  repeat (any_goals first | with_reducible assumption | with_reducible exact held_refl | with_reducible apply held_overlapExpire | split)

theorem guarded_matrixSliceCheck (s : State) : GuardedBy s (execMatrixSliceCheck s) := by
  unfold execMatrixSliceCheck
  refine guardedBy_held ?_
  repeat (any_goals first | with_reducible assumption | with_reducible exact held_refl | with_reducible apply held_kept (kept_modIxl _ _ _ kept_refl same) (by decide) | with_reducible apply held_eachLane | with_reducible apply held_kept (kept_contribute _ _ _ _ kept_refl same) (by decide) | with_reducible apply held_voteResolve | split | with_reducible intro _)

theorem guarded_ringEnRing (en1 en2 : Bool) (s : State) : GuardedBy s (execRingEnRing en1 en2 s) := by
  unfold execRingEnRing
  refine guardedBy_held ?_
  repeat (any_goals first | with_reducible assumption | with_reducible exact held_refl | with_reducible apply held_ringEnRings)

theorem guarded_ringEnTakeEffect (s : State) : GuardedBy s (execRingEnTakeEffect s) := by
  unfold execRingEnTakeEffect
  refine guardedBy_held ?_
  repeat (any_goals first | with_reducible assumption | with_reducible exact held_refl | with_reducible apply held_ringEnEffect | split)

theorem guarded_ringCfgWrite (v : Word) (s : State) : GuardedBy s (execRingCfgWrite v s) := by
  unfold execRingCfgWrite
  refine guardedBy_held ?_
  repeat (any_goals first | with_reducible assumption | with_reducible exact held_refl | with_reducible apply held_ringCfgWriteOp)

theorem guarded_resyncJoined (s : State) : GuardedBy s (execResyncJoined s) := by
  unfold execResyncJoined
  refine guardedBy_held ?_
  repeat (any_goals first | with_reducible assumption | with_reducible exact held_refl | with_reducible apply held_setRole | with_reducible apply held_modSync | split)

theorem guarded_hello (m : SyncHdr) (b : HelloBody) (s : State) : GuardedBy s (execHello m b s) := by
  unfold execHello
  refine guardedBy_held ?_
  repeat (any_goals first | with_reducible assumption | with_reducible exact held_refl | with_reducible apply held_modSync | with_reducible apply held_syncGet | with_reducible apply held_heard | split | with_reducible intro _ | dsimp only)

theorem guarded_consensusDecision (s : State) : GuardedBy s (execConsensusDecision s) := by
  unfold execConsensusDecision
  refine guardedBy_held ?_
  repeat (any_goals first | with_reducible assumption | with_reducible exact held_refl | with_reducible apply held_sendRelinquish | with_reducible apply held_modSync | with_reducible apply held_resyncBegin | with_reducible apply held_setRole | with_reducible apply held_kept (kept_hsbEvt _ _ kept_refl same) (by decide) | split | with_reducible intro _ | dsimp only)

theorem guarded_listenTimeout (s : State) : GuardedBy s (execListenTimeout s) := by
  unfold execListenTimeout
  refine guardedBy_held ?_
  repeat (any_goals first | with_reducible assumption | with_reducible exact held_refl | with_reducible apply held_originate | split)

theorem guarded_leaseLapse (s : State) : GuardedBy s (execLeaseLapse s) := by
  unfold execLeaseLapse
  refine guardedBy_held ?_
  repeat (any_goals first | with_reducible assumption | with_reducible exact held_refl | with_reducible apply held_kept (kept_hsbEvt _ _ kept_refl same) (by decide) | with_reducible apply held_stepDown | split)

theorem guarded_takeoverLease (s : State) : GuardedBy s (execTakeoverLease s) := by
  unfold execTakeoverLease
  refine guardedBy_held ?_
  repeat (any_goals first | with_reducible assumption | with_reducible exact held_refl | with_reducible apply held_takeOverTrain | split)

theorem guarded_takeoverRelinquish (s : State) : GuardedBy s (execTakeoverRelinquish s) := by
  unfold execTakeoverRelinquish
  refine guardedBy_held ?_
  repeat (any_goals first | with_reducible assumption | with_reducible exact held_refl | with_reducible apply held_takeOverTrain | split)

theorem guarded_frameReceive (p : Port) (f : Frame) (s : State) : GuardedBy s (execFrameReceive p f s) := by
  unfold execFrameReceive
  refine guardedBy_held ?_
  repeat (any_goals first | with_reducible assumption | with_reducible exact held_refl | with_reducible apply held_relayFrame | with_reducible apply held_kept (kept_recordFrame _ _ _ kept_refl same) (by decide) | with_reducible apply held_kept (kept_lateFrame _ _ kept_refl same) (by decide) | with_reducible apply held_kept (kept_ringCount _ _ _ kept_refl same) (by decide) | with_reducible apply held_kept (kept_reverseFrame _ _ kept_refl same) (by decide) | with_reducible apply held_kept (kept_relayOut _ _ _ kept_refl same) (by decide) | split | with_reducible intro _ | dsimp only)

theorem guarded_watchdogExpiry (u : Fin 8) (s : State) : GuardedBy s (execWatchdogExpiry u s) := by
  unfold execWatchdogExpiry
  refine guardedBy_held ?_
  repeat (any_goals first | with_reducible assumption | with_reducible exact held_refl | with_reducible apply held_pairFault | with_reducible apply held_kept (kept_modWdg _ _ _ kept_refl same) (by decide) | with_reducible apply held_kept (kept_stewardRestart _ kept_refl same) (by decide) | with_reducible apply held_ladder | with_reducible apply held_laneHalt | with_reducible apply held_addLog | split)

theorem guarded_checkinWindowEnd (d : DomId) (s : State) : GuardedBy s (execCheckinWindowEnd d s) := by
  unfold execCheckinWindowEnd
  refine guardedBy_held ?_
  repeat (any_goals first | with_reducible assumption | with_reducible exact held_refl | with_reducible apply held_kept (kept_modCim _ _ _ kept_refl same) (by decide) | with_reducible apply held_supervisionFailure | split | with_reducible intro _ | dsimp only)

theorem guarded_domainRestart (d : DomId) (hostCold : Bool) (s : State) : GuardedBy s (execDomainRestart d hostCold s) := by
  unfold execDomainRestart
  refine guardedBy_held ?_
  repeat (any_goals first | with_reducible assumption | with_reducible exact held_refl | with_reducible apply held_domRestart | split)

theorem guarded_reqOperRun (src : ReqSrc) (s : State) : GuardedBy s (execReqOperRun src s) := by
  unfold execReqOperRun
  refine guardedBy_held ?_
  repeat (any_goals first | with_reducible assumption | with_reducible exact held_refl | with_reducible apply held_maRequest)

theorem guarded_reqOperStop (src : ReqSrc) (s : State) : GuardedBy s (execReqOperStop src s) := by
  unfold execReqOperStop
  refine guardedBy_held ?_
  repeat (any_goals first | with_reducible assumption | with_reducible exact held_refl | with_reducible apply held_maRequest)

theorem guarded_reqOperHold (src : ReqSrc) (s : State) : GuardedBy s (execReqOperHold src s) := by
  unfold execReqOperHold
  refine guardedBy_held ?_
  repeat (any_goals first | with_reducible assumption | with_reducible exact held_refl | with_reducible apply held_maRequest)

theorem guarded_reqOperService (src : ReqSrc) (s : State) : GuardedBy s (execReqOperService src s) := by
  unfold execReqOperService
  refine guardedBy_held ?_
  repeat (any_goals first | with_reducible assumption | with_reducible exact held_refl | with_reducible apply held_maRequest)

theorem guarded_reqRunState (src : ReqSrc) (d : DomId) (run : Bool) (s : State) : GuardedBy s (execReqRunState src d run s) := by
  unfold execReqRunState
  refine guardedBy_held ?_
  repeat (any_goals first | with_reducible assumption | with_reducible exact held_refl | with_reducible apply held_maRequest)

theorem guarded_reqNotRequestable (src : ReqSrc) (dim st : BitVec 8) (s : State) : GuardedBy s (execReqNotRequestable src dim st s) := by
  unfold execReqNotRequestable
  refine guardedBy_held ?_
  repeat (any_goals first | with_reducible assumption | with_reducible exact held_refl | with_reducible apply held_maRequest)

theorem guarded_stopEffect (s : State) : GuardedBy s (execStopEffect s) := by
  unfold execStopEffect
  refine guardedBy_held ?_
  split
  case h_1 p hp =>
    refine held_ite held_refl fun hr => ?_
    have hs : inSafe s = false := notSafe_of_pend held_refl hr hp
    extract_lets a u
    have entered : Held s u := held_enterStop _ _ hs (held_cleared rfl rfl held_refl)
    clear_value u
    exact held_ite (held_modeDone _ entered) (held_refusePending _ _ _ entered) hr
  case h_2 => exact held_refl


theorem guarded_holdEffect (s : State) : GuardedBy s (execHoldEffect s) := by
  unfold execHoldEffect
  refine guardedBy_held ?_
  split
  case h_1 p hp =>
    refine held_ite held_refl (held_ite (held_refusePending _ _ _ held_refl) fun hr => ?_)
    have hs : inSafe s = false := notSafe_of_pend held_refl hr hp
    exact held_leave held_refl hs rfl (held_modeDone _ held_refl) hr
  case h_2 => exact held_refl


theorem guarded_holdReturn (s : State) : GuardedBy s (execHoldReturn s) := by
  unfold execHoldReturn
  refine guardedBy_held ?_
  split
  case h_1 p hp =>
    refine held_ite held_refl fun hr => ?_
    have hs : inSafe s = false := notSafe_of_pend held_refl hr hp
    refine held_leave (u := setOper (srcCode p.src) .run { s with arb := { s.arb with pend := none } }) held_refl hs rfl (held_modeDone _ ?_) hr
    refine held_foldl held_refl fun a n h => ?_
    dsimp only
    split
    · exact held_ite (held_primeTimers _ _ _ (held_cimRestart _ _ h)) h
    · exact h
  case h_2 => exact held_refl


theorem guarded_domainStopEffect (d : DomId) (s : State) : GuardedBy s (execDomainStopEffect d s) := by
  unfold execDomainStopEffect
  refine guardedBy_held ?_
  refine held_ite held_refl (held_ite (held_refusePending _ _ _ held_refl) ?_)
  extract_lets a s1 s2
  have h1 : Held s s1 := held_upd_arb rfl rfl held_refl
  have h2 : Held s s2 := by
    dsimp only [s2]
    split
    · exact held_pairCommandStop _ _ _ h1
    · exact held_setMembers _ _ _ _ (held_groupHalt _ _ _ h1)
  exact held_ite (held_modeDone _ h2) h2


theorem guarded_freightStopLink (s : State) : GuardedBy s (execFreightStopLink s) := by
  unfold execFreightStopLink
  refine guardedBy_held ?_
  repeat (any_goals first | with_reducible assumption | with_reducible exact held_refl | with_reducible apply held_frtEndAll | split | (apply held_upd_arb rfl rfl))

theorem guarded_keySwitchChange (s : State) : GuardedBy s (execKeySwitchChange s) := by
  unfold execKeySwitchChange
  refine guardedBy_held ?_
  repeat (any_goals first | with_reducible assumption | with_reducible exact held_refl | with_reducible apply held_keySet | split | (apply held_upd_arb rfl rfl))

theorem guarded_keySwitchSettle (pos : KeyPos) (s : State) : GuardedBy s (execKeySwitchSettle pos s) := by
  unfold execKeySwitchSettle
  refine guardedBy_held ?_
  repeat (any_goals first | with_reducible assumption | with_reducible exact held_refl | with_reducible apply held_keySet | split | (apply held_upd_arb rfl rfl))

theorem guarded_abortCmd (r : CmdRef) (s : State) : GuardedBy s (execAbortCmd r s) := by
  unfold execAbortCmd
  refine guardedBy_held ?_
  split
  · exact held_refl
  · rename_i x t taken
    have ht : Held s t := held_kept (kept_takeOnce taken same) (by decide) held_refl
    repeat (any_goals first | with_reducible assumption | with_reducible apply held_kept (kept_answerDg _ _ _ _ _ _ kept_refl same) (by decide) | with_reducible apply held_finish | with_reducible apply held_cancelLower | split | dsimp only)


theorem guarded_commandTimeout (r : CmdRef) (s : State) : GuardedBy s (execCommandTimeout r s) := by
  unfold execCommandTimeout
  refine guardedBy_held ?_
  repeat (any_goals first | with_reducible assumption | with_reducible exact held_refl | with_reducible apply held_finish | with_reducible apply held_cancelLower | split)

theorem guarded_imageLoad (r : CmdRef) (s : State) : GuardedBy s (execImageLoad r s) := by
  unfold execImageLoad
  refine guardedBy_held ?_
  repeat (any_goals first | with_reducible assumption | with_reducible exact held_refl | with_reducible apply held_kept (kept_badParam _ _ _ kept_refl same) (by decide) | with_reducible apply held_runCmd | with_reducible apply held_imageLoadOp | split | with_reducible intro _)

theorem guarded_migrationBulkPass (d : DomId) (s : State) : GuardedBy s (execMigrationBulkPass d s) := by
  unfold execMigrationBulkPass
  refine guardedBy_held ?_
  repeat (any_goals first | with_reducible assumption | with_reducible exact held_refl | with_reducible apply held_migrateStep | with_reducible apply held_kept (kept_schedule _ _ kept_refl same) (by decide) | split | with_reducible intro _ | dsimp only)

theorem guarded_swap (d : DomId) (s : State) : GuardedBy s (execSwap d s) := by
  unfold execSwap
  refine guardedBy_held ?_
  repeat (any_goals first | with_reducible assumption | with_reducible exact held_refl | with_reducible apply held_kept (kept_recipeTurn _ _ _ _ kept_refl same) (by decide) | with_reducible apply held_swapped | with_reducible apply held_migRun | with_reducible apply held_kept (kept_turnTo _ _ _ _ kept_refl same) (by decide) | with_reducible apply held_kept (kept_migForward _ _ _ _ _ _ kept_refl same) (by decide) | split | with_reducible intro _ | dsimp only)

theorem guarded_migNoconv (d : DomId) (s : State) : GuardedBy s (execMigNoconv d s) := by
  unfold execMigNoconv
  refine guardedBy_held ?_
  repeat (any_goals first | with_reducible assumption | with_reducible exact held_refl | with_reducible apply held_kept (kept_finishRefusedOpt _ _ _ kept_refl same) (by decide) | with_reducible apply held_setChg | with_reducible apply held_modDom | split | with_reducible intro _ | dsimp only)

theorem guarded_changeConfirm (r : CmdRef) (s : State) : GuardedBy s (execChangeConfirm r s) := by
  unfold execChangeConfirm
  refine guardedBy_held ?_
  repeat (any_goals first | with_reducible assumption | with_reducible exact held_refl | with_reducible apply held_changeCmd | with_reducible apply held_runCmd)

theorem guarded_changeRevert (r : CmdRef) (s : State) : GuardedBy s (execChangeRevert r s) := by
  unfold execChangeRevert
  refine guardedBy_held ?_
  repeat (any_goals first | with_reducible assumption | with_reducible exact held_refl | with_reducible apply held_changeCmd | with_reducible apply held_runCmd)

theorem guarded_changeConfirmEffect (d : DomId) (s : State) : GuardedBy s (execChangeConfirmEffect d s) := by
  unfold execChangeConfirmEffect
  refine guardedBy_held ?_
  repeat (any_goals first | with_reducible assumption | with_reducible exact held_refl | with_reducible apply held_kept (kept_retainCopy _ _ _ _ kept_refl same) (by decide) | with_reducible apply held_kept (kept_finishOpt _ _ _ kept_refl same) (by decide) | with_reducible apply held_resyncBegin | with_reducible apply held_addLog | with_reducible apply held_modDom | with_reducible apply held_setRole | with_reducible apply held_kept (kept_suspend _ _ _ kept_refl same) (by decide) | with_reducible apply held_setChg | split | with_reducible apply held_kept (kept_upd_arch kept_refl same) (by decide))

theorem guarded_revert (d : DomId) (s : State) : GuardedBy s (execRevert d s) := by
  unfold execRevert
  refine guardedBy_held ?_
  repeat (any_goals first | with_reducible assumption | with_reducible exact held_refl | with_reducible apply held_kept (kept_recipeTurn _ _ _ _ kept_refl same) (by decide) | with_reducible apply held_kept (kept_finishOpt _ _ _ kept_refl same) (by decide) | with_reducible apply held_migRun | with_reducible apply held_kept (kept_turnTo _ _ _ _ kept_refl same) (by decide) | with_reducible apply held_addLog | with_reducible apply held_modDom | with_reducible apply held_kept (kept_migBack _ _ _ _ _ _ kept_refl same) (by decide) | with_reducible apply held_kept (kept_suspend _ _ _ kept_refl same) (by decide) | with_reducible apply held_setChg | split | with_reducible intro _ | dsimp only)

theorem guarded_revertNoconv (d : DomId) (s : State) : GuardedBy s (execRevertNoconv d s) := by
  unfold execRevertNoconv
  refine guardedBy_held ?_
  repeat (any_goals first | with_reducible assumption | with_reducible exact held_refl | with_reducible apply held_setMembers | with_reducible apply held_groupHalt | with_reducible apply held_pairCommandStop | split | with_reducible intro _ | dsimp only)

theorem guarded_cfgWrite (r : CmdRef) (s : State) : GuardedBy s (execCfgWrite r s) := by
  unfold execCfgWrite
  refine guardedBy_held ?_
  repeat (any_goals first | with_reducible assumption | with_reducible exact held_refl | with_reducible apply held_kept (kept_badParam _ _ _ kept_refl same) (by decide) | with_reducible apply held_finish | with_reducible apply held_cfgApply | with_reducible apply held_runCmd | with_reducible apply held_finishRefused | split | with_reducible apply held_kept (kept_upd_arch kept_refl same) (by decide) | with_reducible intro _)

theorem guarded_orderlyTry {s : State} (t : State) (h : Held s t) : Guarded s (orderlyTry t) := by
  unfold orderlyTry
  split
  · exact .inl h
  · exact guarded_ite (guarded_reset _ _) (.inl (held_pairsFinish _ _ h))

theorem guarded_orderlyReset (cause : BitVec 8) (s : State) : GuardedBy s (execOrderlyReset cause s) := by
  unfold execOrderlyReset
  refine guardedBy_next (guarded_ite (guarded_orderlyTry _ held_refl) (guarded_ite (guarded_orderlyTry _ ?_) (.inl held_refl)))
  exact held_orderlyBegin _ _ held_refl


theorem guarded_escalationReset (s : State) : GuardedBy s (execEscalationReset s) := by
  unfold execEscalationReset
  refine guardedBy_next ?_
  split
  · exact .inl held_refl
  · exact guarded_ite (guarded_reset _ _) (.inl (held_pairsFinish _ _ held_refl))


theorem guarded_laneDbg (attach : Bool) (lane : Fin 4) (s : State) : GuardedBy s (execLaneDbg attach lane s) := by
  unfold execLaneDbg
  refine guardedBy_held ?_
  repeat (any_goals first | with_reducible assumption | with_reducible exact held_refl | with_reducible apply held_voterRequest | with_reducible apply held_x13)

theorem guarded_fuseWordDone (ok : Bool) (s : State) : GuardedBy s (execFuseWordDone ok s) := by
  unfold execFuseWordDone
  refine guardedBy_held ?_
  repeat (any_goals first | with_reducible assumption | with_reducible exact held_refl | with_reducible apply held_finish | with_reducible apply held_kept (kept_modFuses _ _ kept_refl same) (by decide) | with_reducible apply held_blowBits | with_reducible apply held_kept (kept_fuseFail _ kept_refl same) (by decide) | with_reducible apply held_kept (kept_nextFree _ kept_refl same) (by decide) | (with_reducible apply held_foldl; rotate_left; intro _ _ _) | split | with_reducible intro _ | dsimp only)

theorem guarded_laneDebuggerAccess (l : Fin 3) (x : LaneAct) (s : State) : GuardedBy s (execLaneDebuggerAccess l x s) := by
  unfold execLaneDebuggerAccess
  refine guardedBy_held ?_
  repeat (any_goals first | with_reducible assumption | with_reducible exact held_refl | with_reducible apply held_kept (kept_store _ _ _ _ _ kept_refl same) (by decide) | with_reducible apply held_kept (kept_checkWord _ _ _ _ kept_refl same) (by decide) | with_reducible apply held_laneMemErr | with_reducible apply held_kept (kept_nextFree _ kept_refl same) (by decide) | with_reducible apply held_answer | with_reducible apply held_kept (kept_clearWord _ _ _ kept_refl same) (by decide) | with_reducible apply held_modCore | split | with_reducible intro _ | dsimp only)

theorem guarded_updateStart (r : CmdRef) (s : State) : GuardedBy s (execUpdateStart r s) := by
  unfold execUpdateStart
  refine guardedBy_held ?_
  repeat (any_goals first | with_reducible assumption | with_reducible exact held_refl | with_reducible apply held_updateGo | with_reducible apply held_kept (kept_badParam _ _ _ kept_refl same) (by decide) | with_reducible apply held_runCmd | with_reducible apply held_finishRefused | with_reducible apply held_modUpdate | split | with_reducible intro _ | dsimp only)

theorem guarded_updateClassStep (ok : Bool) (s : State) : GuardedBy s (execUpdateClassStep ok s) := by
  unfold execUpdateClassStep
  refine guardedBy_held ?_
  repeat (any_goals first | with_reducible assumption | with_reducible exact held_refl | with_reducible apply held_updateGo | with_reducible apply held_setRunning | with_reducible apply held_kept (kept_updateStop _ kept_refl same) (by decide) | with_reducible apply held_kept (kept_finishOpt _ _ _ kept_refl same) (by decide) | with_reducible apply held_kept (kept_classSwitch _ _ kept_refl same) (by decide) | with_reducible apply held_orderlyBegin | with_reducible apply held_modUpdate | split | with_reducible intro _ | dsimp only)

/-- A boot step that holds SAFE. -/
def StepHeld (g : Step) : Prop := ∀ f s t, g f s = some t → Held s t

theorem stepHeld_bootB2 : StepHeld bootB2 := by
  intro f s t e
  unfold bootB2 at e
  split at e
  case isTrue =>
    cases e
    exact held_bootStore _ (held_setFlag _ _ _ (held_bootFallback _ (held_bootCount _ (held_kept (kept_psScanned _ kept_refl same) (by decide) held_refl))))
  case isFalse => cases e

theorem stepHeld_bootB3 : StepHeld bootB3 := by
  intro f s t e
  unfold bootB3 at e
  split at e
  case isTrue =>
    cases e
    exact held_ite (held_setFlag _ _ _ held_refl) held_refl
  case isFalse => cases e

theorem stepHeld_bootB4 : StepHeld bootB4 := by
  intro f s t e
  unfold bootB4 at e
  split at e
  case isTrue =>
    cases e
    exact held_ite (held_setFlag _ _ _ held_refl) held_refl
  case isFalse => cases e

theorem stepHeld_bootB5 : StepHeld bootB5 := by
  intro f s t e
  unfold bootB5 at e
  split at e
  case isTrue =>
    cases e
    exact held_refl
  case isFalse => cases e

theorem stepHeld_bootB6 : StepHeld bootB6 := by
  intro f s t e
  unfold bootB6 at e
  split at e
  case isTrue => cases e
  case isFalse =>
    cases e
    exact held_modCore _ _ _ (held_ite held_refl (held_modRec _ _ (held_modUpdate _ _ held_refl)))

theorem stepHeld_bootB7 : StepHeld bootB7 := by
  intro f s t e
  unfold bootB7 at e
  cases e
  repeat (any_goals first | with_reducible assumption | with_reducible exact held_refl | with_reducible apply held_modRec | with_reducible apply held_addLog | with_reducible apply held_degrade | split)

theorem stepHeld_bootB8 : StepHeld bootB8 := by
  intro f s t e
  unfold bootB8 at e
  dsimp only at e
  cases e
  repeat (any_goals first | with_reducible assumption | with_reducible exact held_refl | with_reducible apply held_kept (kept_psRecord _ _ _ kept_refl same) (by decide) | with_reducible apply held_degrade | split | with_reducible apply held_kept (kept_upd_esc kept_refl same) (by decide))

theorem stepHeld_bootB9 : StepHeld bootB9 := by
  intro f s t e
  unfold bootB9 at e
  split at e
  case isTrue =>
    cases e
    exact held_setFlag _ _ _ held_refl
  case isFalse =>
    split at e
    case isTrue =>
      cases e
      exact held_setPd _ _ _ held_refl
    case isFalse => cases e

theorem stepHeld_bootB10 : StepHeld bootB10 := by
  intro f s t e
  unfold bootB10 at e
  dsimp only at e
  cases e
  repeat (any_goals first | with_reducible assumption | with_reducible exact held_refl | with_reducible apply held_degrade | split | with_reducible apply held_kept (kept_upd_fg kept_refl same) (by decide))

theorem stepHeld_bootB11 : StepHeld bootB11 := by
  intro f s t e
  unfold bootB11 at e
  dsimp only at e
  cases e
  repeat (any_goals first | with_reducible assumption | with_reducible exact held_refl | with_reducible apply held_degrade | with_reducible apply held_modLane | with_reducible apply held_setPd | with_reducible apply held_modBoot | with_reducible apply held_modReint | with_reducible apply held_modDom | (with_reducible apply held_foldl; rotate_left; intro _ _ _) | split)

theorem stepHeld_bootB12 : StepHeld bootB12 := by
  intro f s t e
  unfold bootB12 at e
  dsimp only at e
  split at e
  case isTrue => cases e
  case isFalse =>
    split at e
    case h_1 =>
      cases e
      exact held_refl
    case h_2 b _ =>
      split at e
      case isTrue => cases e
      case isFalse =>
        cases e
        have applied := held_cfgApply (Config.readCfgSet b) s held_refl
        exact held_ite (held_setFlag _ _ _ applied) applied

theorem stepHeld_bootB13 : StepHeld bootB13 := by
  intro f s t e
  unfold bootB13 at e
  dsimp only at e
  cases e
  repeat (any_goals first | with_reducible assumption | with_reducible exact held_refl | with_reducible apply held_degrade | with_reducible apply held_kept (kept_bootProgram _ _ kept_refl same) (by decide) | with_reducible apply held_kept (kept_keyLoad _ _ _ kept_refl same) (by decide) | with_reducible apply held_addLog | (with_reducible apply held_foldl; rotate_left; intro _ _ _) | split)

/-- A run of boot steps that each hold SAFE. -/
theorem held_bootRun {r : State} {f : BootFindings} {l : List (Nat × Step)} (hl : ∀ x ∈ l, StepHeld x.2) {s : State} (h : Held r s) :
    Held r (bootRun f l s).1 :=
  bootRun_keeps (fun x hx s t e hs => held_trans hs (hl x hx f s t e)) h

theorem stepsLow_held : ∀ x ∈ stepsLow, StepHeld x.2 := by
  simp only [stepsLow, List.forall_mem_cons]
  exact ⟨stepHeld_bootB3, stepHeld_bootB4, stepHeld_bootB5, stepHeld_bootB6, stepHeld_bootB7, stepHeld_bootB8, fun _ h => absurd h (by simp)⟩

theorem stepsHigh_held : ∀ x ∈ stepsHigh, StepHeld x.2 := by
  simp only [stepsHigh, List.forall_mem_cons]
  exact ⟨stepHeld_bootB9, stepHeld_bootB10, stepHeld_bootB11, stepHeld_bootB12, stepHeld_bootB13, fun _ h => absurd h (by simp)⟩

theorem guarded_bootFails (n : Nat) (s t : State) : Guarded s (bootFails n t) := .inr ⟨rfl, rfl, rfl⟩

theorem guarded_bootOn {r : State} (f : BootFindings) (s : State) (h : Held r s) : Guarded r (bootOn f s) := by
  have low := held_bootRun (f := f) stepsLow_held h
  have high := held_bootRun (f := f) stepsHigh_held low
  unfold bootOn
  dsimp only
  split
  · exact guarded_ite (.inl (held_bootB14 _ _ low)) (guarded_bootFails _ _ _)
  · refine guarded_ite (.inl (held_bootB14 _ _ (held_setFlag _ _ _ low))) ?_
    split
    · exact guarded_bootFails _ _ _
    · exact .inl (held_bootB14 _ _ high)

theorem guarded_moduleStart (f : BootFindings) (s : State) : GuardedBy s (execModuleStart f s) := by
  unfold execModuleStart
  refine guardedBy_next (guarded_ite (.inl held_refl) ?_)
  have first : Held s (bootB0 f s) := held_kept (kept_bootB0 _ _ kept_refl same) (by decide) held_refl
  have second : Held s (bootB1 (bootB0 f s)) := held_kept (kept_bootB1 _ kept_refl same) (by decide) first
  dsimp only
  refine guarded_ite (.inl (held_kept (kept_panelShow _ _ kept_refl same) (by decide) (held_modBoot _ _ first))) (guarded_ite (guarded_bootFails _ _ _)
    (guarded_ite (.inl (held_bootB14 _ _ (held_modRec _ _ second))) ?_))
  split
  · exact guarded_bootFails _ _ _
  case h_2 e => exact guarded_bootOn _ _ (held_trans second (stepHeld_bootB2 _ _ _ e))


theorem guarded_bootTimerExpiry (s : State) : GuardedBy s (execBootTimerExpiry s) := by
  unfold execBootTimerExpiry
  exact guardedBy_next (guarded_ite (.inl held_refl) (guarded_reset _ _))


theorem guarded_cycleStart (s : State) : GuardedBy s (execCycleStart s) := by
  unfold execCycleStart
  refine guardedBy_held ?_
  refine held_ite held_refl ?_
  extract_lets s1 s2 z s3 s4 a s5
  have h2 : Held s s2 := held_kept (kept_changeCount _ kept_refl same) (by decide) (held_kept (kept_reintCount _ kept_refl same) (by decide)
    (held_kept (kept_ringTimeFix _ kept_refl same) (by decide) (held_kept (kept_cycleTurn _ kept_refl same) (by decide) (held_atBoundaryEffects _ held_refl))))
  have h3 : Held s s3 := held_kept (kept_trainAt _ _ kept_refl same) (by decide) (held_hsbCycle _ h2)
  clear_value s3
  have h4 : Held s s4 := held_foldl h3 fun _ _ h => held_kept (kept_groupAtTk _ _ kept_refl same) (by decide) h
  clear_value s4
  have h5 : Held s s5 := held_upd_arb rfl rfl h4
  exact held_lastTrainLeft _ (held_foldl h5 fun _ _ h => held_kept (kept_fieldAtTk _ _ _ kept_refl same) (by decide) h)


theorem guarded_agreementEnd (g : Fin 2) (s : State) : GuardedBy s (execAgreementEnd g s) := by
  unfold execAgreementEnd
  refine guardedBy_held ?_
  repeat (any_goals first | with_reducible assumption | with_reducible exact held_refl | with_reducible apply held_ixlReceive | with_reducible apply held_kept (kept_agree _ _ kept_refl same) (by decide) | with_reducible apply held_kept (kept_runtimeService _ _ kept_refl same) (by decide) | with_reducible apply held_kept (kept_releaseDomain _ _ kept_refl same) (by decide) | with_reducible apply held_ixlFinish | with_reducible apply held_kept (kept_startCandidate _ _ kept_refl same) (by decide) | with_reducible apply held_kept (kept_scheduleSoon _ _ kept_refl same) (by decide) | (with_reducible apply held_foldl; rotate_left; intro _ _ _) | split)

theorem guarded_taskComplete (c : CoreId) (t : Fin 16) (s : State) : GuardedBy s (execTaskComplete c t s) := by
  unfold execTaskComplete
  refine guardedBy_held ?_
  repeat (any_goals first | with_reducible assumption | with_reducible exact held_refl | with_reducible apply held_laneComplete | with_reducible apply held_kept (kept_pairAbandon _ _ kept_refl same) (by decide) | with_reducible apply held_kept (kept_pairComplete _ _ _ _ kept_refl same) (by decide) | with_reducible apply held_kept (kept_autoCheckins _ _ _ kept_refl same) (by decide) | split | with_reducible intro _ | dsimp only)

theorem guarded_outputDeadline (s : State) : GuardedBy s (execOutputDeadline s) := by
  unfold execOutputDeadline
  refine guardedBy_held ?_
  repeat (any_goals first | with_reducible assumption | with_reducible exact held_refl | with_reducible apply held_eocDeadline | with_reducible apply held_kept (kept_groupPublish _ _ kept_refl same) (by decide) | with_reducible apply held_kept (kept_raiseDeadline _ kept_refl same) (by decide) | with_reducible apply held_kept (kept_pairDeadline _ _ kept_refl same) (by decide) | with_reducible apply held_kept (kept_hsbDeadline _ kept_refl same) (by decide) | (with_reducible apply held_foldl; rotate_left; intro _ _ _) | split | with_reducible apply held_kept (kept_upd_cyc kept_refl same) (by decide))

theorem guarded_overrunLimitStop (n : Fin 4) (s : State) : GuardedBy s (execOverrunLimitStop n s) := by
  unfold execOverrunLimitStop
  refine guardedBy_held ?_
  repeat (any_goals first | with_reducible assumption | with_reducible exact held_refl | with_reducible apply held_modDom | with_reducible apply held_pairStop | split | with_reducible intro _ | dsimp only)

theorem guarded_scrubLine (s : State) : GuardedBy s (execScrubLine s) := by
  unfold execScrubLine
  refine guardedBy_held ?_
  repeat (any_goals first | with_reducible assumption | with_reducible exact held_refl | with_reducible apply held_kept (kept_wakeBank _ _ kept_refl same) (by decide) | with_reducible apply held_scrubRead | split | with_reducible apply held_kept (kept_upd_memRegs kept_refl same) (by decide))

theorem guarded_feedResetOp (s t : State) : Guarded s (feedReset t) := .inr ⟨rfl, rfl, rfl⟩

theorem guarded_feedReset (s : State) : GuardedBy s (execFeedReset s) := by
  unfold execFeedReset
  exact guardedBy_next (guarded_ite (guarded_feedResetOp _ _) (.inl held_refl))


theorem guarded_holdupShort (s : State) : GuardedBy s (execHoldupShort s) := by
  unfold execHoldupShort
  exact guardedBy_next (guarded_ite (guarded_feedResetOp _ _) (.inl held_refl))


theorem guarded_powerOnReset (s : State) : GuardedBy s (execPowerOnReset s) := by
  unfold execPowerOnReset
  exact guardedBy_next (guarded_ite (.inl held_refl) (.inr ⟨rfl, rfl, rfl⟩))


theorem guarded_railFault (s : State) : GuardedBy s (execRailFault s) := by
  unfold execRailFault
  exact guardedBy_next (guarded_ite (guarded_reset _ _) (.inl held_refl))


theorem guarded_laneSupplyFault (l : Fin 3) (s : State) : GuardedBy s (execLaneSupplyFault l s) := by
  unfold execLaneSupplyFault
  refine guardedBy_held ?_
  repeat (any_goals first | with_reducible assumption | with_reducible exact held_refl | with_reducible apply held_laneCause)

theorem guarded_rootMonitorWindow (rootXtal rootRc xtalRc : Bool) (s : State) : GuardedBy s (execRootMonitorWindow rootXtal rootRc xtalRc s) := by
  unfold execRootMonitorWindow
  refine guardedBy_next (guarded_ite (.inl held_refl) (guarded_ite (.inl ?_) (guarded_ite (.inl ?_) (guarded_ite (guarded_reset _ _) (.inr ⟨rfl, rfl, rfl⟩)))))
  · exact held_ite (held_ite (held_modBoot _ _ held_refl) (held_modBoot _ _ held_refl)) (held_modBoot _ _ held_refl)
  · exact held_kept (kept_xtalFail _ kept_refl same) (by decide) held_refl


theorem guarded_mainPllFail (s : State) : GuardedBy s (execMainPllFail s) := by
  unfold execMainPllFail
  exact guardedBy_next (guarded_ite (guarded_reset _ _) (.inl held_refl))


theorem guarded_lanePllFail (l : Fin 3) (s : State) : GuardedBy s (execLanePllFail l s) := by
  unfold execLanePllFail
  refine guardedBy_held ?_
  repeat (any_goals first | with_reducible assumption | with_reducible exact held_refl | with_reducible apply held_modBoot | with_reducible apply held_laneCause | with_reducible apply held_modLane | split)

theorem guarded_registerWrite (a : Access) (addr : Word) (v : Word) (s : State) : GuardedBy s (execRegisterWrite a addr v s) := by
  unfold execRegisterWrite
  refine guardedBy_held ?_
  repeat (any_goals first | with_reducible assumption | with_reducible exact held_refl | with_reducible apply held_noPathAt | with_reducible apply held_regWrite | split)

theorem guarded_bankWakeDone (b : Fin 33) (s : State) : GuardedBy s (execBankWakeDone b s) := by
  unfold execBankWakeDone
  refine guardedBy_held ?_
  split
  · exact held_foldl (held_kept (kept_upd_cores_banks kept_refl same) (by decide) held_refl) fun _ _ h => held_servedNext _ _ h
  · exact held_refl


theorem guarded_readMem (r : CmdRef) (s : State) : GuardedBy s (execReadMem r s) := by
  unfold execReadMem
  refine guardedBy_held ?_
  repeat (any_goals first | with_reducible assumption | with_reducible exact held_refl | with_reducible apply held_runSized | with_reducible apply held_readMem | with_reducible apply held_kept (kept_badParam _ _ _ kept_refl same) (by decide) | split | with_reducible intro _)

theorem guarded_modeReq (r : CmdRef) (s : State) : GuardedBy s (execModeReq r s) := by
  unfold execModeReq
  refine guardedBy_held ?_
  repeat (any_goals first | with_reducible assumption | with_reducible exact held_refl | with_reducible apply held_kept (kept_badParam _ _ _ kept_refl same) (by decide) | with_reducible apply held_finish | with_reducible apply held_modeRequest | with_reducible apply held_kept (kept_notStarted _ _ kept_refl same) (by decide) | with_reducible apply held_finishRefused | with_reducible apply held_runSized | with_reducible apply held_kept (kept_waitFor _ _ _ kept_refl same) (by decide) | split | with_reducible intro _ | dsimp only)

theorem guarded_voterReq (r : CmdRef) (s : State) : GuardedBy s (execVoterReq r s) := by
  unfold execVoterReq
  refine guardedBy_held ?_
  repeat (any_goals first | with_reducible assumption | with_reducible exact held_refl | with_reducible apply held_finish | with_reducible apply held_kept (kept_notStarted _ _ kept_refl same) (by decide) | with_reducible apply held_votReqOp | with_reducible apply held_finishRefused | with_reducible apply held_runSized | split | with_reducible intro _ | dsimp only)

theorem guarded_restartCmd (r : CmdRef) (s : State) : GuardedBy s (execRestartCmd r s) := by
  unfold execRestartCmd
  refine guardedBy_held ?_
  repeat (any_goals first | with_reducible assumption | with_reducible exact held_refl | with_reducible apply held_kept (kept_badParam _ _ _ kept_refl same) (by decide) | with_reducible apply held_finish | with_reducible apply held_kept (kept_notStarted _ _ kept_refl same) (by decide) | with_reducible apply held_domRestart | with_reducible apply held_finishRefused | with_reducible apply held_runSized | split | with_reducible intro _ | dsimp only)

theorem guarded_ringEn (r : CmdRef) (s : State) : GuardedBy s (execRingEn r s) := by
  unfold execRingEn
  refine guardedBy_held ?_
  repeat (any_goals first | with_reducible assumption | with_reducible exact held_refl | with_reducible apply held_finish | with_reducible apply held_kept (kept_writeBoot _ _ kept_refl same) (by decide) | with_reducible apply held_recordEn | with_reducible apply held_finishRefused | with_reducible apply held_runSized | with_reducible apply held_ringEnRings | with_reducible apply held_kept (kept_nextFree _ kept_refl same) (by decide) | split | with_reducible intro _ | dsimp only)

end Sys2Proof.Proofs
end

section
/-! SUPPORT. Every command keeps memory canonical and leaves SAFE only through a module reset. -/

namespace Sys2Proof.Proofs
open Sys2Proof.Machine Sys2Proof.Safety Sys2Proof.Laws
set_option Elab.async false

theorem leaves_interruptEntry (c : CoreId) (s : State) : Leaves accessParts s (execInterruptEntry c s) := by
  have left := kept_leaveWait c s (kept_refl (ps := accessParts)) (by decide)
  unfold execInterruptEntry
  dsimp only
  split
  · exact leaves_next left
  · split
    · exact leaves_next left
    · refine leaves_next ?_
      have entered := kept_modArch c (fun a => a.enter (pack [(7, 0), (Fin.val ‹_›, 8), (1, 31)]) 7 0) _ left (by decide)
      split
      · exact kept_brkCheck _ _ entered (by decide)
      · exact entered

theorem guarded_interruptEntry (c : CoreId) (s : State) : GuardedBy s (execInterruptEntry c s) := by
  have left : Held s (leaveWait c s) := held_kept (kept_leaveWait _ _ kept_refl same) (by decide) held_refl
  unfold execInterruptEntry
  dsimp only
  split
  · exact guardedBy_held left
  · split
    · exact guardedBy_held left
    · refine guardedBy_held ?_
      have entered : Held s _ := held_kept (kept_modArch c (fun a => a.enter (pack [(7, 0), (Fin.val ‹_›, 8), (1, 31)]) 7 0) _ kept_refl same) (by decide) left
      split
      · exact held_kept (kept_brkCheck _ _ kept_refl same) (by decide) entered
      · exact entered

theorem leaves_reservedEncoding (c : CoreId) (w : BitVec 32) (s : State) : Leaves accessParts s (execReservedEncoding c w s) := by
  unfold execReservedEncoding
  split
  · exact leaves_next kept_refl
  · exact leaves_issue _ _ _ _

theorem guarded_reservedEncoding (c : CoreId) (w : BitVec 32) (s : State) : GuardedBy s (execReservedEncoding c w s) := by
  unfold execReservedEncoding
  split
  · exact guardedBy_held held_refl
  · exact guarded_issue _ _ _ _

/-- What is proved of every command: memory keeps its canonical form, and SAFE is left only through a module reset. -/
def Sound (s : State) (o : Meaning) : Prop := ∀ t, o = .next t → (memWf s.mem → memWf t.mem) ∧ Guarded s t

theorem sound_of_leaves {ps : List Part} {s : State} {o : Meaning} (h : Leaves ps s o) (g : GuardedBy s o) : Sound s o := fun t e => ⟨(h t e).wf, g t e⟩

/-- A command that leaves the arbiter alone. -/
theorem Leaves.sound {ps : List Part} {s : State} {o : Meaning} (h : Leaves ps s o) (ha : Part.arb ∉ ps) : Sound s o := sound_of_leaves h (h.guarded ha)

theorem sound_issue (i : Instr) (h : Hdr) (body : Arch → State → Act) (s : State) : Sound s (issue i h body s) :=
  sound_of_leaves (leaves_issue i h body s) (guarded_issue i h body s)

theorem sound_memInstr (i : Instr) (h : Hdr) (op : Arch → MemOp) (addr : Arch → Word) (s : State) : Sound s (memInstr i h op addr s) :=
  sound_of_leaves (leaves_memInstr i h op addr s) (guarded_memInstr i h op addr s)

/-- Every command is sound: the slots of the Nerop cores together, the other rows one by one. -/
theorem exec_sound (i : Instr) (s : State) : Sound s (exec i s) := by
  cases i
  case add | sub | addS | subS | and | or | xor | andn | sll | srl | sra | ror | min | max | minu | maxu | absS | negS | add2S | sub2S | clz | popc
      | cmpEq | cmpNe | cmpLt | cmpGe | cmpLtu | cmpGeu | pand | por | pxor | pandn | pnot | mulI | macI | msuI | mulU | macU | mulQ31 | macQ31
      | msuQ31 | mulQ15 | macQ15 | msuQ15 | mac2Q15 | extI | extQ31 | extQ15 | aclr | aset | aadd | ashr | addi | andi | ori | xori | ori12 | ori24
      | slli | srli | srai | cmpi | branch | bl | jr | jlr | mfsr | mtsr | trapSw | rte | waitInt | fence | rmuCheck | rmuLock | rmuRelease | bld
      | bldn | bset | bclr | btgl | bst | bstn | tsb | red | fed | aed | eupd | bfld | bfst | ton | tof | tp | trst | tet | ctu | ctd | crst | cld
      | ctv | vote | rpti | rptr => exact sound_issue _ _ _ _
  case ldb | ldbu | ldh | ldhu | ldw | stb | sth | stw | lrW | scW => exact sound_memInstr _ _ _ _ _
  case inputReady => exact (leaves_inputReady _).sound (by decide)
  case returnLimit => exact (leaves_returnLimit _).sound (by decide)
  case timeSourceChange => exact (leaves_timeSourceChange _).sound (by decide)
  case taskRelease => exact (leaves_taskRelease _ _).sound (by decide)
  case lsAbort => exact (leaves_lsAbort _ _ _).sound (by decide)
  case lsLoad => exact (leaves_lsLoad _ _ _).sound (by decide)
  case lsUnload => exact (leaves_lsUnload _ _ _).sound (by decide)
  case lsWindowAccess => exact (leaves_lsWindowAccess _ _ _ _ _ _).sound (by decide)
  case reintAutoStart => exact (leaves_reintAutoStart _).sound (by decide)
  case reintPowerOn => exact (leaves_reintPowerOn _).sound (by decide)
  case reintPllLock => exact (leaves_reintPllLock _ _).sound (by decide)
  case reintBistDone => exact (leaves_reintBistDone _ _).sound (by decide)
  case reintCopyDone => exact (leaves_reintCopyDone _ _).sound (by decide)
  case reintRegionClean => exact (leaves_reintRegionClean _ _).sound (by decide)
  case copyNoconv => exact (leaves_copyNoconv _ _).sound (by decide)
  case echoHalt => exact (leaves_echoHalt _ _).sound (by decide)
  case echoResume => exact (leaves_echoResume _ _).sound (by decide)
  case echoStep => exact (leaves_echoStep _ _).sound (by decide)
  case echoGreg => exact (leaves_echoGreg _ _ _ _).sound (by decide)
  case echoPred => exact (leaves_echoPred _ _ _ _).sound (by decide)
  case echoAcc => exact (leaves_echoAcc _ _ _ _).sound (by decide)
  case echoSpecial => exact (leaves_echoSpecial _ _ _ _).sound (by decide)
  case echoMemw => exact (leaves_echoMemw _ _ _ _).sound (by decide)
  case echoBrkset => exact (leaves_echoBrkset _ _ _).sound (by decide)
  case echoBrkclr => exact (leaves_echoBrkclr _ _ _).sound (by decide)
  case connectionTimeout => exact (leaves_connectionTimeout _ _).sound (by decide)
  case pointMoveTimeout => exact (leaves_pointMoveTimeout _ _).sound (by decide)
  case restartHoldExpiry => exact (leaves_restartHoldExpiry _).sound (by decide)
  case rmuArm => exact (leaves_rmuArm _ _).sound (by decide)
  case rmuDisarm => exact (leaves_rmuDisarm _ _).sound (by decide)
  case ringLinkDown => exact (leaves_ringLinkDown _ _).sound (by decide)
  case ringLinkUp => exact (leaves_ringLinkUp _ _ _).sound (by decide)
  case ringBroken => exact (leaves_ringBroken _ _).sound (by decide)
  case ringWhole => exact (leaves_ringWhole _ _).sound (by decide)
  case segmentBreak => exact (leaves_segmentBreak _).sound (by decide)
  case loopOpened => exact (leaves_loopOpened _).sound (by decide)
  case surveyStart => exact (leaves_surveyStart _).sound (by decide)
  case freightSubmit => exact (leaves_freightSubmit _ _).sound (by decide)
  case freightBudgetExpiry => exact (leaves_freightBudgetExpiry _ _).sound (by decide)
  case ringEnFrt => exact (leaves_ringEnFrt _ _).sound (by decide)
  case syncLinkUp => exact (leaves_syncLinkUp _).sound (by decide)
  case syncLinkDown => exact (leaves_syncLinkDown _).sound (by decide)
  case syncMessageDiscard => exact (leaves_syncMessageDiscard _ _).sound (by decide)
  case renew => exact (leaves_renew _ _ _).sound (by decide)
  case mismatch => exact (leaves_mismatch _ _ _).sound (by decide)
  case consensus => exact (leaves_consensus _ _ _ _).sound (by decide)
  case prepare => exact (leaves_prepare _ _ _).sound (by decide)
  case prepared => exact (leaves_prepared _ _ _).sound (by decide)
  case relinquish => exact (leaves_relinquish _ _ _).sound (by decide)
  case delta => exact (leaves_delta _ _ _).sound (by decide)
  case deltaReq => exact (leaves_deltaReq _ _ _).sound (by decide)
  case statecrc => exact (leaves_statecrc _ _ _).sound (by decide)
  case mailbox => exact (leaves_mailbox _ _ _).sound (by decide)
  case delays => exact (leaves_delays _ _ _).sound (by decide)
  case epochCommit => exact (leaves_epochCommit _).sound (by decide)
  case switchover => exact (leaves_switchover _).sound (by decide)
  case prepareTimeout => exact (leaves_prepareTimeout _).sound (by decide)
  case resync => exact (leaves_resync _).sound (by decide)
  case abortSync => exact (leaves_abortSync _).sound (by decide)
  case resyncRetry => exact (leaves_resyncRetry _).sound (by decide)
  case resyncImageDone => exact (leaves_resyncImageDone _).sound (by decide)
  case resyncStateClean => exact (leaves_resyncStateClean _).sound (by decide)
  case resyncNoconv => exact (leaves_resyncNoconv _).sound (by decide)
  case datagramReceive => exact (leaves_datagramReceive _ _ _).sound (by decide)
  case arpRequest => exact (leaves_arpRequest _ _).sound (by decide)
  case icmpEcho => exact (leaves_icmpEcho _ _ _).sound (by decide)
  case fragmentTimeout => exact (leaves_fragmentTimeout _ _).sound (by decide)
  case commandIncomplete => exact (leaves_commandIncomplete _ _).sound (by decide)
  case sessionOpenTimeout => exact (leaves_sessionOpenTimeout _ _).sound (by decide)
  case sessionIdleTimeout => exact (leaves_sessionIdleTimeout _ _).sound (by decide)
  case sessionStationLost => exact (leaves_sessionStationLost _).sound (by decide)
  case forwardResend => exact (leaves_forwardResend _ _).sound (by decide)
  case commandComplete => exact (leaves_commandComplete _ _ _).sound (by decide)
  case openSession => exact (leaves_openSession _ _).sound (by decide)
  case closeSession => exact (leaves_closeSession _ _).sound (by decide)
  case keepalive => exact (leaves_keepalive _ _).sound (by decide)
  case ident => exact (leaves_ident _ _).sound (by decide)
  case statusCmd => exact (leaves_statusCmd _ _).sound (by decide)
  case readReg => exact (leaves_readReg _ _).sound (by decide)
  case hsbReq => exact (leaves_hsbReq _ _).sound (by decide)
  case resetCmd => exact (leaves_resetCmd _ _).sound (by decide)
  case cfgRead => exact (leaves_cfgRead _ _).sound (by decide)
  case lsDisable => exact (leaves_lsDisable _ _).sound (by decide)
  case lsDisableTakeEffect => exact (leaves_lsDisableTakeEffect _).sound (by decide)
  case imagePut => exact (leaves_imagePut _ _).sound (by decide)
  case stratumPut => exact (leaves_stratumPut _ _).sound (by decide)
  case updateConfirm => exact (leaves_updateConfirm _ _).sound (by decide)
  case pstoreRead => exact (leaves_pstoreRead _ _).sound (by decide)
  case pstoreWrite => exact (leaves_pstoreWrite _ _).sound (by decide)
  case logRead => exact (leaves_logRead _ _).sound (by decide)
  case archiveRead => exact (leaves_archiveRead _ _).sound (by decide)
  case archiveAccessDone => exact (leaves_archiveAccessDone _ _ _).sound (by decide)
  case freight => exact (leaves_freight _ _).sound (by decide)
  case survey => exact (leaves_survey _ _).sound (by decide)
  case rtcRead => exact (leaves_rtcRead _ _).sound (by decide)
  case rtcSet => exact (leaves_rtcSet _ _).sound (by decide)
  case rtcShift => exact (leaves_rtcShift _ _).sound (by decide)
  case rtcDst => exact (leaves_rtcDst _ _).sound (by decide)
  case supRead => exact (leaves_supRead _ _).sound (by decide)
  case serviceClear => exact (leaves_serviceClear _ _).sound (by decide)
  case confirmWindowExpiry => exact (leaves_confirmWindowExpiry _ _).sound (by decide)
  case wdgSvc => exact (leaves_wdgSvc _ _ _ _).sound (by decide)
  case wdgPer => exact (leaves_wdgPer _ _ _ _).sound (by decide)
  case wdgKey => exact (leaves_wdgKey _ _ _ _).sound (by decide)
  case wdgLock => exact (leaves_wdgLock _ _ _).sound (by decide)
  case wdgEnable => exact (leaves_wdgEnable _ _ _).sound (by decide)
  case checkin => exact (leaves_checkin _ _ _).sound (by decide)
  case rtcSecondTick => exact (leaves_rtcSecondTick _).sound (by decide)
  case rtcLoad => exact (leaves_rtcLoad _ _).sound (by decide)
  case rtcCtlDst => exact (leaves_rtcCtlDst _ _ _).sound (by decide)
  case rtcShiftWrite => exact (leaves_rtcShiftWrite _ _ _).sound (by decide)
  case rtcAlarmArm => exact (leaves_rtcAlarmArm _ _ _ _).sound (by decide)
  case rtcWakeWrite => exact (leaves_rtcWakeWrite _ _ _).sound (by decide)
  case rtcWakeExpiry => exact (leaves_rtcWakeExpiry _).sound (by decide)
  case rtcShadowRead => exact (leaves_rtcShadowRead _ _ _).sound (by decide)
  case rtcSnap => exact (leaves_rtcSnap _ _).sound (by decide)
  case rtcSequenceTimeout => exact (leaves_rtcSequenceTimeout _ _).sound (by decide)
  case cycCountLoRead => exact (leaves_cycCountLoRead _ _).sound (by decide)
  case cycTbLoRead => exact (leaves_cycTbLoRead _ _).sound (by decide)
  case rtmOfsLoRead => exact (leaves_rtmOfsLoRead _ _).sound (by decide)
  case clrovr => exact (leaves_clrovr _ _).sound (by decide)
  case psRead => exact (leaves_psRead _ _ _ _).sound (by decide)
  case psWrite => exact (leaves_psWrite _ _ _ _).sound (by decide)
  case psWriteCommit => exact (leaves_psWriteCommit _ _).sound (by decide)
  case psRefresh => exact (leaves_psRefresh _ _).sound (by decide)
  case bootStepWrite => exact (leaves_bootStepWrite _ _).sound (by decide)
  case rstReq => exact (leaves_rstReq _ _ _).sound (by decide)
  case feedPresent => exact (leaves_feedPresent _ _ _).sound (by decide)
  case feedLost => exact (leaves_feedLost _ _ _).sound (by decide)
  case feedOvervoltage => exact (leaves_feedOvervoltage _ _ _).sound (by decide)
  case bothFeedsLost => exact (leaves_bothFeedsLost _).sound (by decide)
  case pfPairAbandon => exact (leaves_pfPairAbandon _).sound (by decide)
  case pfWriteCutoff => exact (leaves_pfWriteCutoff _).sound (by decide)
  case backupSwitchover => exact (leaves_backupSwitchover _ _).sound (by decide)
  case cellMeasure => exact (leaves_cellMeasure _ _ _).sound (by decide)
  case tempSample => exact (leaves_tempSample _ _).sound (by decide)
  case sfpChange => exact (leaves_sfpChange _ _).sound (by decide)
  case pwrReqSolvOn => exact (leaves_pwrReqSolvOn _).sound (by decide)
  case pwrReqSolvOff => exact (leaves_pwrReqSolvOff _).sound (by decide)
  case fieldInputChange => exact (leaves_fieldInputChange _ _ _ _).sound (by decide)
  case debounceAccept => exact (leaves_debounceAccept _ _ _).sound (by decide)
  case scheduledEntry => exact (leaves_scheduledEntry _ _).sound (by decide)
  case outputOverload => exact (leaves_outputOverload _ _ _).sound (by decide)
  case groupOverload => exact (leaves_groupOverload _ _).sound (by decide)
  case lpUndervoltage => exact (leaves_lpUndervoltage _ _ _ _).sound (by decide)
  case permitToggle => exact (leaves_permitToggle _ _).sound (by decide)
  case permitEdge => exact (leaves_permitEdge _ _).sound (by decide)
  case permitDrop => exact (leaves_permitDrop _ _).sound (by decide)
  case fieldPowerLoss => exact (leaves_fieldPowerLoss _ _).sound (by decide)
  case fieldPowerReturn => exact (leaves_fieldPowerReturn _ _).sound (by decide)
  case fgChWrite => exact (leaves_fgChWrite _ _ _ _ _).sound (by decide)
  case fgPcfgWrite => exact (leaves_fgPcfgWrite _ _ _ _).sound (by decide)
  case extScrubLine => exact (leaves_extScrubLine _).sound (by decide)
  case bankRetentionEntry => exact (leaves_bankRetentionEntry _ _).sound (by decide)
  case grottoRetentionEntry => exact (leaves_grottoRetentionEntry _).sound (by decide)
  case idcode => exact (leaves_idcode _).sound (by decide)
  case bypass => exact (leaves_bypass _).sound (by decide)
  case samplePreload => exact (leaves_samplePreload _).sound (by decide)
  case extest => exact (leaves_extest _).sound (by decide)
  case pairDbg => exact (leaves_pairDbg _ _ _).sound (by decide)
  case resetReq => exact (leaves_resetReq _).sound (by decide)
  case fusePgm => exact (leaves_fusePgm _ _ _).sound (by decide)
  case fuseBlowKrevoke => exact (leaves_fuseBlowKrevoke _ _ _).sound (by decide)
  case fuseBlowDbgClose => exact (leaves_fuseBlowDbgClose _ _ _).sound (by decide)
  case watchdogTickEdge => exact (leaves_watchdogTickEdge _).sound (by decide)
  case reservedEncoding => exact sound_of_leaves (leaves_reservedEncoding _ _ _) (guarded_reservedEncoding _ _ _)
  case interruptEntry => exact sound_of_leaves (leaves_interruptEntry _ _) (guarded_interruptEntry _ _)
  case cycleStart => exact sound_of_leaves (leaves_cycleStart _) (guarded_cycleStart _)
  case frameReceive => exact sound_of_leaves (leaves_frameReceive _ _ _) (guarded_frameReceive _ _ _)
  case agreementEnd => exact sound_of_leaves (leaves_agreementEnd _ _) (guarded_agreementEnd _ _)
  case agreementLimit => exact sound_of_leaves (leaves_agreementLimit _ _ _) (guarded_agreementLimit _ _ _)
  case taskComplete => exact sound_of_leaves (leaves_taskComplete _ _ _) (guarded_taskComplete _ _ _)
  case outputDeadline => exact sound_of_leaves (leaves_outputDeadline _) (guarded_outputDeadline _)
  case overrunLimitStop => exact sound_of_leaves (leaves_overrunLimitStop _ _) (guarded_overrunLimitStop _ _)
  case votePointComplete => exact sound_of_leaves (leaves_votePointComplete _ _) (guarded_votePointComplete _ _)
  case voteWindowClose => exact sound_of_leaves (leaves_voteWindowClose _ _) (guarded_voteWindowClose _ _)
  case candidateCompare => exact sound_of_leaves (leaves_candidateCompare _ _) (guarded_candidateCompare _ _)
  case lsStart => exact sound_of_leaves (leaves_lsStart _ _ _ _) (guarded_lsStart _ _ _ _)
  case lsDone => exact sound_of_leaves (leaves_lsDone _ _) (guarded_lsDone _ _)
  case lsOvertime => exact sound_of_leaves (leaves_lsOvertime _ _) (guarded_lsOvertime _ _)
  case reint src lane => exact sound_of_leaves (leaves_reint src lane s) (guarded_reint src lane s)
  case maintOut src lane => exact sound_of_leaves (leaves_maintOut src lane s) (guarded_maintOut src lane s)
  case abortReint src lane => exact sound_of_leaves (leaves_abortReint src lane s) (guarded_abortReint src lane s)
  case debugAttach src lane => exact sound_of_leaves (leaves_debugAttach src lane s) (guarded_debugAttach src lane s)
  case debugDetach src lane => exact sound_of_leaves (leaves_debugDetach src lane s) (guarded_debugDetach src lane s)
  case reintPowerDown => exact sound_of_leaves (leaves_reintPowerDown _) (guarded_reintPowerDown _)
  case approachReleaseExpiry => exact sound_of_leaves (leaves_approachReleaseExpiry _ _) (guarded_approachReleaseExpiry _ _)
  case emergencyReleaseExpiry => exact sound_of_leaves (leaves_emergencyReleaseExpiry _ _) (guarded_emergencyReleaseExpiry _ _)
  case overlapReleaseExpiry => exact sound_of_leaves (leaves_overlapReleaseExpiry _ _) (guarded_overlapReleaseExpiry _ _)
  case setRoute => exact sound_of_leaves (leaves_setRoute _ _) (guarded_setRoute _ _)
  case cancelRoute => exact sound_of_leaves (leaves_cancelRoute _ _) (guarded_cancelRoute _ _)
  case emergencyRelease => exact sound_of_leaves (leaves_emergencyRelease _ _) (guarded_emergencyRelease _ _)
  case movePoint => exact sound_of_leaves (leaves_movePoint _ _ _) (guarded_movePoint _ _ _)
  case matrixSliceCheck => exact sound_of_leaves (leaves_matrixSliceCheck _) (guarded_matrixSliceCheck _)
  case ringEnRing => exact sound_of_leaves (leaves_ringEnRing _ _ _) (guarded_ringEnRing _ _ _)
  case ringEnTakeEffect => exact sound_of_leaves (leaves_ringEnTakeEffect _) (guarded_ringEnTakeEffect _)
  case ringCfgWrite => exact sound_of_leaves (leaves_ringCfgWrite _ _) (guarded_ringCfgWrite _ _)
  case hello => exact sound_of_leaves (leaves_hello _ _ _) (guarded_hello _ _ _)
  case listenTimeout => exact sound_of_leaves (leaves_listenTimeout _) (guarded_listenTimeout _)
  case consensusDecision => exact sound_of_leaves (leaves_consensusDecision _) (guarded_consensusDecision _)
  case leaseLapse => exact sound_of_leaves (leaves_leaseLapse _) (guarded_leaseLapse _)
  case takeoverLease => exact sound_of_leaves (leaves_takeoverLease _) (guarded_takeoverLease _)
  case takeoverRelinquish => exact sound_of_leaves (leaves_takeoverRelinquish _) (guarded_takeoverRelinquish _)
  case resyncJoined => exact sound_of_leaves (leaves_resyncJoined _) (guarded_resyncJoined _)
  case commandTimeout => exact sound_of_leaves (leaves_commandTimeout _ _) (guarded_commandTimeout _ _)
  case abortCmd => exact sound_of_leaves (leaves_abortCmd _ _) (guarded_abortCmd _ _)
  case readMem => exact sound_of_leaves (leaves_readMem _ _) (guarded_readMem _ _)
  case modeReq => exact sound_of_leaves (leaves_modeReq _ _) (guarded_modeReq _ _)
  case voterReq => exact sound_of_leaves (leaves_voterReq _ _) (guarded_voterReq _ _)
  case restartCmd => exact sound_of_leaves (leaves_restartCmd _ _) (guarded_restartCmd _ _)
  case domainRestart => exact sound_of_leaves (leaves_domainRestart _ _ _) (guarded_domainRestart _ _ _)
  case cfgWrite => exact sound_of_leaves (leaves_cfgWrite _ _) (guarded_cfgWrite _ _)
  case ringEn => exact sound_of_leaves (leaves_ringEn _ _) (guarded_ringEn _ _)
  case imageLoad => exact sound_of_leaves (leaves_imageLoad _ _) (guarded_imageLoad _ _)
  case changeConfirm => exact sound_of_leaves (leaves_changeConfirm _ _) (guarded_changeConfirm _ _)
  case changeRevert => exact sound_of_leaves (leaves_changeRevert _ _) (guarded_changeRevert _ _)
  case updateStart => exact sound_of_leaves (leaves_updateStart _ _) (guarded_updateStart _ _)
  case updateClassStep => exact sound_of_leaves (leaves_updateClassStep _ _) (guarded_updateClassStep _ _)
  case migrationBulkPass => exact sound_of_leaves (leaves_migrationBulkPass _ _) (guarded_migrationBulkPass _ _)
  case swap => exact sound_of_leaves (leaves_swap _ _) (guarded_swap _ _)
  case migNoconv => exact sound_of_leaves (leaves_migNoconv _ _) (guarded_migNoconv _ _)
  case changeConfirmEffect => exact sound_of_leaves (leaves_changeConfirmEffect _ _) (guarded_changeConfirmEffect _ _)
  case revert => exact sound_of_leaves (leaves_revert _ _) (guarded_revert _ _)
  case revertNoconv => exact sound_of_leaves (leaves_revertNoconv _ _) (guarded_revertNoconv _ _)
  case watchdogExpiry => exact sound_of_leaves (leaves_watchdogExpiry _ _) (guarded_watchdogExpiry _ _)
  case checkinWindowEnd => exact sound_of_leaves (leaves_checkinWindowEnd _ _) (guarded_checkinWindowEnd _ _)
  case escalationReset => exact sound_of_leaves (leaves_escalationReset _) (guarded_escalationReset _)
  case moduleStart => exact sound_of_leaves (leaves_moduleStart _ _) (guarded_moduleStart _ _)
  case bootTimerExpiry => exact sound_of_leaves (leaves_bootTimerExpiry _) (guarded_bootTimerExpiry _)
  case rootMonitorWindow => exact sound_of_leaves (leaves_rootMonitorWindow _ _ _ _) (guarded_rootMonitorWindow _ _ _ _)
  case mainPllFail => exact sound_of_leaves (leaves_mainPllFail _) (guarded_mainPllFail _)
  case lanePllFail => exact sound_of_leaves (leaves_lanePllFail _ _) (guarded_lanePllFail _ _)
  case powerOnReset => exact sound_of_leaves (leaves_powerOnReset _) (guarded_powerOnReset _)
  case orderlyReset => exact sound_of_leaves (leaves_orderlyReset _ _) (guarded_orderlyReset _ _)
  case feedReset => exact sound_of_leaves (leaves_feedReset _) (guarded_feedReset _)
  case holdupShort => exact sound_of_leaves (leaves_holdupShort _) (guarded_holdupShort _)
  case railFault => exact sound_of_leaves (leaves_railFault _) (guarded_railFault _)
  case laneSupplyFault => exact sound_of_leaves (leaves_laneSupplyFault _ _) (guarded_laneSupplyFault _ _)
  case scrubLine => exact sound_of_leaves (leaves_scrubLine _) (guarded_scrubLine _)
  case bankWakeDone => exact sound_of_leaves (leaves_bankWakeDone _ _) (guarded_bankWakeDone _ _)
  case keySwitchChange => exact sound_of_leaves (leaves_keySwitchChange _) (guarded_keySwitchChange _)
  case keySwitchSettle => exact sound_of_leaves (leaves_keySwitchSettle _ _) (guarded_keySwitchSettle _ _)
  case reqOperRun => exact sound_of_leaves (leaves_reqOperRun _ _) (guarded_reqOperRun _ _)
  case reqOperStop => exact sound_of_leaves (leaves_reqOperStop _ _) (guarded_reqOperStop _ _)
  case reqOperHold => exact sound_of_leaves (leaves_reqOperHold _ _) (guarded_reqOperHold _ _)
  case reqOperService => exact sound_of_leaves (leaves_reqOperService _ _) (guarded_reqOperService _ _)
  case reqRunState => exact sound_of_leaves (leaves_reqRunState _ _ _ _) (guarded_reqRunState _ _ _ _)
  case reqNotRequestable => exact sound_of_leaves (leaves_reqNotRequestable _ _ _ _) (guarded_reqNotRequestable _ _ _ _)
  case stopEffect => exact sound_of_leaves (leaves_stopEffect _) (guarded_stopEffect _)
  case holdEffect => exact sound_of_leaves (leaves_holdEffect _) (guarded_holdEffect _)
  case holdReturn => exact sound_of_leaves (leaves_holdReturn _) (guarded_holdReturn _)
  case domainStopEffect => exact sound_of_leaves (leaves_domainStopEffect _ _) (guarded_domainStopEffect _ _)
  case freightStopLink => exact sound_of_leaves (leaves_freightStopLink _) (guarded_freightStopLink _)
  case laneDbg => exact sound_of_leaves (leaves_laneDbg _ _ _) (guarded_laneDbg _ _ _)
  case fuseWordDone => exact sound_of_leaves (leaves_fuseWordDone _ _) (guarded_fuseWordDone _ _)
  case registerWrite => exact sound_of_leaves (leaves_registerWrite _ _ _ _) (guarded_registerWrite _ _ _ _)
  case laneDebuggerAccess => exact sound_of_leaves (leaves_laneDebuggerAccess _ _ _) (guarded_laneDebuggerAccess _ _ _)

/-- Settles O59: every command keeps the canonical form, and a tick leaves memory alone. -/
theorem everyStepKeepsMemoryCanonical : Obligations.EveryStepKeepsMemoryCanonical := by
  unfold Obligations.EveryStepKeepsMemoryCanonical
  intro s t hs e
  unfold step at e
  split at e
  · cases e
    exact hs
  · exact (exec_sound _ _ t e).1 hs

/-- What a step may do to SAFE; the queue is no matter. -/
theorem step_guarded {s t : State} (e : step s = .next t) : Guarded s t := by
  unfold step at e
  split at e
  · cases e
    exact .inl (held_same rfl rfl held_refl)
  · exact (exec_sound _ _ t e).2

/-- Settles O60: `Guarded` of the step, read from SAFE and from outside it. -/
theorem safeIsLeftOnlyThroughAModuleReset : Obligations.SafeIsLeftOnlyThroughAModuleReset := by
  unfold Obligations.SafeIsLeftOnlyThroughAModuleReset
  refine ⟨fun s t hs hp e => ?_, fun s t hs e ht => ?_⟩
  · rcases step_guarded e with held | ⟨hcores, hcyc, _⟩
    · obtain ⟨none_pending, still⟩ := held fun _ => hp
      exact .inl ⟨still hs, none_pending (still hs)⟩
    · exact .inr ⟨hcores, hcyc⟩
  · rcases step_guarded e with held | ⟨_, _, out⟩
    · exact (held fun h => by simp [hs] at h).1 ht
    · simp [out] at ht

end Sys2Proof.Proofs
end

section
/-! SUPPORT. Rows that only compute: the ALU group, compares, predicate logic and immediates (R244 to R247). -/

namespace Sys2Proof.Proofs
open Sys2Proof.Machine Sys2Proof.Safety Sys2Proof.Laws
set_option Elab.async false

/-- A row whose only effect is a result at distance 1 for a g register. -/
theorem yields_outG {i : Instr} {h : Hdr} {rd : Reg} {v w : Arch → Word} (he : ∀ s, exec i s = compute i h (fun a => outG rd (v a) 1) s)
    (hw : isReserved i = false) (hv : ∀ a, v a = w a) : Yields i h fun a => setG rd (w a) a :=
  yields_compute he hw fun a h0 h1 h2 => by rw [hv]; exact slotEnd_outG h0 h1 h2

/-- A row with a saturating result `r` for a g register. -/
theorem yields_outG_satf {i : Instr} {h : Hdr} {rd : Reg} {r : Arch → Word × Bool} {w : Arch → Word} {b : Arch → Bool}
    (he : ∀ s, exec i s = compute i h (fun a => { outG rd (r a).1 1 with satf := (r a).2 }) s) (hw : isReserved i = false)
    (hr : ∀ a, r a = (w a, b a)) : Yields i h fun a => satf (b a) (setG rd (w a) a) :=
  yields_compute he hw fun a h0 h1 h2 => by rw [hr]; exact slotEnd_outG_satf h0 h1 h2

/-- A predicate's result stays under way for one more slot. -/
theorem slotEnd_outP {a : Arch} {p : Pred} {b : Bool} (h : a.opens = []) (h1 : a.rpt = none) (h2 : a.delay = none) :
    advance (slotEnd (outP p b 2) a) = ended (soon (.p p) (one b) a) := by
  unfold advance slotEnd outP Arch.settle Arch.flags ended soon later one
  cases b <;> simp [h, h1, h2, bitOf]

/-- A row whose only effect is a result for a predicate. -/
theorem yields_outP {i : Instr} {h : Hdr} {pd : Pred} {b c : Arch → Bool} (he : ∀ s, exec i s = compute i h (fun a => outP pd (b a) 2) s)
    (hw : isReserved i = false) (hb : ∀ a, b a = c a) : Yields i h fun a => soon (.p pd) (one (c a)) a :=
  yields_compute he hw fun a h0 h1 h2 => by rw [hb]; exact slotEnd_outP h0 h1 h2

theorem sat32_eq (x : Int) : sat32 x = (BitVec.ofInt 32 (clamped 32 x), outside 32 x) := by
  rw [sat32, clampS_eq]

theorem lanes16_eq (f : Int → Int → Int) (x y : Word) : lanes16 f x y =
    (BitVec.ofInt 16 (clamped 16 (f (hi16 x) (hi16 y))) ++ BitVec.ofInt 16 (clamped 16 (f (lo16 x) (lo16 y))),
      outside 16 (f (lo16 x) (lo16 y)) || outside 16 (f (hi16 x) (hi16 y))) := by
  simp only [lanes16, clampS_eq, setWidth_ushiftRight_toInt_eq_hi16]
  simp only [setWidth_toInt_eq_lo16]

theorem and_31_toNat (x : Word) : (x &&& 31).toNat = x.toNat % 32 := by
  rw [BitVec.toNat_and]
  exact Nat.and_two_pow_sub_one_eq_mod x.toNat 5

/-- An arithmetic shift right of a register divides, rounding toward −∞. -/
theorem sshiftRight_word_eq_ofInt (x : Word) (n : Nat) : x.sshiftRight n = BitVec.ofInt 32 (x.toInt / 2 ^ n) := by
  rw [BitVec.sshiftRight, Int.shiftRight_eq_div_pow]
  norm_cast

theorem ite_toInt_le_eq_min (x y : Word) : (if x.toInt ≤ y.toInt then x else y) = BitVec.ofInt 32 (min x.toInt y.toInt) := by
  rw [Int.min_def]
  split <;> simp

theorem ite_toInt_le_eq_max (x y : Word) : (if x.toInt ≤ y.toInt then y else x) = BitVec.ofInt 32 (max x.toInt y.toInt) := by
  rw [Int.max_def]
  split <;> simp

theorem ite_toNat_le_eq_min (x y : Word) : (if x.toNat ≤ y.toNat then x else y) = BitVec.ofNat 32 (min x.toNat y.toNat) := by
  rw [Nat.min_def]
  split <;> simp

theorem ite_toNat_le_eq_max (x y : Word) : (if x.toNat ≤ y.toNat then y else x) = BitVec.ofNat 32 (max x.toNat y.toNat) := by
  rw [Nat.max_def]
  split <;> simp

/-- The lowest word is the only one without a positive counterpart. -/
theorem toInt_eq_lowest_iff (x : Word) : x.toInt = -2 ^ 31 ↔ x = 0x80000000 := by
  rw [← BitVec.toInt_inj]; rfl

/-- The size of a word fits 32 bits unless the word is the lowest one. -/
theorem sat32_natAbs (x : Word) : sat32 (x.toInt.natAbs : Int) =
    (if x = 0x80000000 then 0x7FFFFFFF else BitVec.ofNat 32 x.toInt.natAbs, x == 0x80000000) := by
  rw [sat32_eq]
  by_cases lowest : x = 0x80000000
  · subst lowest; decide
  · have above := mt (toInt_eq_lowest_iff x).mp lowest
    have range := abs_le.mp (abs_toInt_le x)
    simp only [lowest, if_false, beq_false_of_ne lowest]
    have size : |x.toInt| ≤ 2 ^ 31 - 1 := abs_le.mpr ⟨by omega, by have := BitVec.toInt_lt (x := x); omega⟩
    have lower := abs_nonneg x.toInt
    rw [← Int.natCast_natAbs] at size lower
    have fits : clamped 32 (x.toInt.natAbs : Int) = (x.toInt.natAbs : Int) := by unfold clamped; omega
    have inside : outside 32 (x.toInt.natAbs : Int) = false := by
      simp only [outside, Bool.or_eq_false_iff, decide_eq_false_iff_not]
      omega
    rw [inside, fits, BitVec.ofInt_natCast]

/-- So does its negation. -/
theorem sat32_neg (x : Word) : sat32 (-x.toInt) = (if x = 0x80000000 then 0x7FFFFFFF else -x, x == 0x80000000) := by
  rw [sat32_eq]
  by_cases lowest : x = 0x80000000
  · subst lowest; decide
  · have above := mt (toInt_eq_lowest_iff x).mp lowest
    have range := abs_le.mp (abs_toInt_le x)
    simp only [lowest, if_false, beq_false_of_ne lowest]
    have fits : clamped 32 (-x.toInt) = -x.toInt := by unfold clamped; omega
    rw [fits, BitVec.ofInt_neg, BitVec.ofInt_toInt]
    simp only [outside, Prod.mk.injEq, Bool.or_eq_false_iff, decide_eq_false_iff_not, true_and]
    omega

/-- Leading zeros reach down to the highest set bit. -/
theorem length_takeWhile_not_getMsbD {x : Word} (hx : x ≠ 0) :
    ((List.range 32).takeWhile fun i => !x.getMsbD i).length = 31 - x.toNat.log2 := by
  have nonzero : x.toNat ≠ 0 := fun h => hx (BitVec.eq_of_toNat_eq h)
  have high : x.toNat.log2 < 32 := (Nat.log2_lt nonzero).mpr x.isLt
  have first : (List.range 32).findIdx (fun i => !!x.getMsbD i) = 31 - x.toNat.log2 := by
    rw [List.findIdx_eq (by simp; omega)]
    refine ⟨?_, fun j hj => ?_⟩
    · have place : 31 - (31 - x.toNat.log2) = x.toNat.log2 := by omega
      simp [BitVec.getMsbD, place, ← BitVec.testBit_toNat, Nat.testBit_log2 nonzero]
      omega
    · have above : x.toNat.testBit (31 - j) = false := Nat.testBit_lt_two_pow ((Nat.log2_lt nonzero).mp (by omega))
      simp [BitVec.getMsbD, ← BitVec.testBit_toNat, above]
  rw [List.takeWhile_eq_take_findIdx_not, first, List.length_take, List.length_range]
  omega

theorem clz_eq (x : Word) : (if x = 0 then 32 else BitVec.ofNat 32 (31 - x.toNat.log2)) =
    BitVec.ofNat 32 ((List.range 32).takeWhile fun i => !x.getMsbD i).length := by
  by_cases hx : x = 0
  · subst hx; decide
  · rw [if_neg hx, length_takeWhile_not_getMsbD hx]

theorem shiftLeft_and_31 (x y : Word) : x <<< (y.toNat % 32) = x <<< (y &&& 31) := by
  rw [BitVec.shiftLeft_eq', and_31_toNat]

theorem ushiftRight_and_31 (x y : Word) : x >>> (y.toNat % 32) = x >>> (y &&& 31) := by
  rw [BitVec.ushiftRight_eq', and_31_toNat]

/-- Settles O1: each row gives one result at distance 1, the saturating ones with their flag. -/
theorem aluInstructionsGiveTheirResults : Obligations.AluInstructionsGiveTheirResults := by
  unfold Obligations.AluInstructionsGiveTheirResults
  refine ⟨fun h rd rs1 rs2 => ?add, fun h rd rs1 rs2 => ?sub, fun h rd rs1 rs2 => ?addS, fun h rd rs1 rs2 => ?subS, fun h rd rs1 rs2 => ?and,
    fun h rd rs1 rs2 => ?or, fun h rd rs1 rs2 => ?xor, fun h rd rs1 rs2 => ?andn, fun h rd rs1 rs2 => ?sll, fun h rd rs1 rs2 => ?srl,
    fun h rd rs1 rs2 => ?sra, fun h rd rs1 rs2 => ?ror, fun h rd rs1 rs2 => ?min, fun h rd rs1 rs2 => ?max, fun h rd rs1 rs2 => ?minu,
    fun h rd rs1 rs2 => ?maxu, fun h rd rs1 => ?absS, fun h rd rs1 => ?negS, fun h rd rs1 rs2 => ?add2S, fun h rd rs1 rs2 => ?sub2S,
    fun h rd rs1 => ?clz, fun h rd rs1 => ?popc⟩
  case add | sub | and | or | xor | andn | ror => exact yields_outG (fun _ => rfl) rfl fun _ => rfl
  case sll => exact yields_outG (fun _ => rfl) rfl fun _ => shiftLeft_and_31 _ _
  case srl => exact yields_outG (fun _ => rfl) rfl fun _ => ushiftRight_and_31 _ _
  case sra => exact yields_outG (fun _ => rfl) rfl fun _ => sshiftRight_word_eq_ofInt _ _
  case min => exact yields_outG (fun _ => rfl) rfl fun _ => ite_toInt_le_eq_min _ _
  case max => exact yields_outG (fun _ => rfl) rfl fun _ => ite_toInt_le_eq_max _ _
  case minu => exact yields_outG (fun _ => rfl) rfl fun _ => ite_toNat_le_eq_min _ _
  case maxu => exact yields_outG (fun _ => rfl) rfl fun _ => ite_toNat_le_eq_max _ _
  case addS | subS => exact yields_outG_satf (fun _ => rfl) rfl fun _ => sat32_eq _
  case absS => exact yields_outG_satf (fun _ => rfl) rfl fun _ => sat32_natAbs _
  case negS => exact yields_outG_satf (fun _ => rfl) rfl fun _ => sat32_neg _
  case add2S | sub2S => exact yields_outG_satf (fun _ => rfl) rfl fun _ => lanes16_eq _ _ _
  case clz => exact yields_outG (fun _ => rfl) rfl fun _ => clz_eq _
  case popc => exact yields_outG (fun _ => rfl) rfl fun _ => rfl

/-- CMPI's conditions by number. -/
theorem cmpiHolds_eq (x : Word) (imm : BitVec 12) :
    cmpiHolds 0 x (simm imm) = decide (x.toInt = imm.toInt) ∧ cmpiHolds 1 x (simm imm) = decide (x.toInt ≠ imm.toInt) ∧
    cmpiHolds 2 x (simm imm) = decide (x.toInt < imm.toInt) ∧ cmpiHolds 3 x (simm imm) = decide (x.toNat < (imm.signExtend 32).toNat) := by
  have value : (simm imm).toInt = imm.toInt := BitVec.toInt_signExtend_of_le (by decide)
  refine ⟨?_, ?_, ?_, rfl⟩
  · rw [← value, Bool.eq_iff_iff]; simp [cmpiHolds, BitVec.toInt_inj]
  · rw [← value, Bool.eq_iff_iff]; simp [cmpiHolds, BitVec.toInt_inj]
  · rw [← value]; rfl

/-- Settles O2: each row gives one predicate at distance 2. -/
theorem comparesAndPredicateLogicWriteTheirPredicate : Obligations.ComparesAndPredicateLogicWriteTheirPredicate := by
  unfold Obligations.ComparesAndPredicateLogicWriteTheirPredicate
  refine ⟨fun h pd rs1 rs2 => ?eq, fun h pd rs1 rs2 => ?ne, fun h pd rs1 rs2 => ?lt, fun h pd rs1 rs2 => ?ge, fun h pd rs1 rs2 => ?ltu,
    fun h pd rs1 rs2 => ?geu, fun h pd pa pb => ?and, fun h pd pa pb => ?or, fun h pd pa pb => ?xor, fun h pd pa pb => ?andn, fun h pd pa => ?not,
    fun h pd rs1 imm => ?cmpi0, fun h pd rs1 imm => ?cmpi1, fun h pd rs1 imm => ?cmpi2, fun h pd rs1 imm => ?cmpi3⟩
  case eq | ne | lt | ge | ltu | geu | and | or | andn | not => exact yields_outP (fun _ => rfl) rfl fun _ => rfl
  case xor => exact yields_outP (fun _ => rfl) rfl fun _ => rfl
  case cmpi0 => exact yields_outP (fun _ => rfl) rfl fun a => (cmpiHolds_eq (a.reg rs1) imm).1
  case cmpi1 => exact yields_outP (fun _ => rfl) rfl fun a => (cmpiHolds_eq (a.reg rs1) imm).2.1
  case cmpi2 => exact yields_outP (fun _ => rfl) rfl fun a => (cmpiHolds_eq (a.reg rs1) imm).2.2.1
  case cmpi3 => exact yields_outP (fun _ => rfl) rfl fun a => (cmpiHolds_eq (a.reg rs1) imm).2.2.2

theorem zimm_eq (imm : BitVec 12) : zimm imm = BitVec.ofNat 32 imm.toNat :=
  BitVec.eq_of_toNat_eq (by simp [zimm])

/-- Shifting a zero-extended value left multiplies it. -/
theorem setWidth_shiftLeft_eq_ofNat {w : Nat} (x : BitVec w) (n : Nat) : (x.setWidth 32 : Word) <<< n = BitVec.ofNat 32 (x.toNat * 2 ^ n) :=
  BitVec.eq_of_toNat_eq (by simp [Nat.shiftLeft_eq])

theorem add_simm_eq (x : Word) (imm : BitVec 12) : x + simm imm = BitVec.ofInt 32 (x.toInt + imm.toInt) := by
  rw [BitVec.ofInt_add, BitVec.ofInt_toInt]; rfl

theorem shiftLeft_eq_ofNat (x : Word) (n : Nat) : x <<< n = BitVec.ofNat 32 (x.toNat * 2 ^ n) :=
  BitVec.eq_of_toNat_eq (by simp [Nat.shiftLeft_eq])

theorem ushiftRight_eq_ofNat (x : Word) (n : Nat) : x >>> n = BitVec.ofNat 32 (x.toNat / 2 ^ n) := by
  rw [← Nat.shiftRight_eq_div_pow]; exact BitVec.eq_of_toNat_eq (by simp [Nat.mod_eq_of_lt (Nat.lt_of_le_of_lt (Nat.shiftRight_le _ _) x.isLt)])

/-- Settles O6: each row gives one result at distance 1, with its immediate extended. -/
theorem immediateInstructionsGiveTheirResults : Obligations.ImmediateInstructionsGiveTheirResults := by
  unfold Obligations.ImmediateInstructionsGiveTheirResults
  refine ⟨fun h rd rs1 imm => ?addi, fun h rd rs1 imm => ?andi, fun h rd rs1 imm => ?ori, fun h rd rs1 imm => ?xori, fun h rd rs1 imm => ?ori12,
    fun h rd rs1 imm => ?ori24, fun h rd rs1 sh => ?slli, fun h rd rs1 sh => ?srli, fun h rd rs1 sh => ?srai⟩
  case addi => exact yields_outG (fun _ => rfl) rfl fun _ => add_simm_eq _ _
  case andi | ori | xori => exact yields_outG (fun _ => rfl) rfl fun _ => by rw [zimm_eq]
  case ori12 => exact yields_outG (fun _ => rfl) rfl fun _ => by rw [zimm, setWidth_shiftLeft_eq_ofNat]
  case ori24 => exact yields_outG (fun _ => rfl) rfl fun _ => by rw [setWidth_shiftLeft_eq_ofNat]
  case slli => exact yields_outG (fun _ => rfl) rfl fun _ => shiftLeft_eq_ofNat _ _
  case srli => exact yields_outG (fun _ => rfl) rfl fun _ => ushiftRight_eq_ofNat _ _
  case srai => exact yields_outG (fun _ => rfl) rfl fun _ => sshiftRight_word_eq_ofInt _ _

end Sys2Proof.Proofs
end

section
/-! SUPPORT. Branches, and what a slot carries forward (R275, R285, R286, R290). -/

namespace Sys2Proof.Proofs
open Sys2Proof.Machine Sys2Proof.Safety Sys2Proof.Laws
set_option Elab.async false

/-- In a ready slot a well-formed instruction without an access does what it asks for, where that leaves the pairs' registers alone. -/
theorem exec_ready {i : Instr} {h : Hdr} {body : Arch → State → Act} {s t : State} (r : Ready h s) (he : exec i s = issue i h body s)
    (hw : isReserved i = false)
    (hp : perform noAccess h (BitVec.ofNat 32 ((encodeNerop i).getD 0)) (body s.cores[h.core].arch s) s = t) (hk : t.pairs = s.pairs) :
    exec i s = .next t := by
  rw [he, issue, issueBy_ready r hw, hp]
  exact congrArg Host.Outcome.next (brk_tail r.toIssues hk)

/-- The same for a change of the core's own registers, given for their present values. -/
theorem exec_ready_modArch {i : Instr} {h : Hdr} {body : Arch → State → Act} {s : State} {f g : Arch → Arch} (r : Ready h s)
    (he : exec i s = issue i h body s) (hw : isReserved i = false)
    (hp : perform noAccess h (BitVec.ofNat 32 ((encodeNerop i).getD 0)) (body s.cores[h.core].arch s) s = modArch h.core f s)
    (hf : f s.cores[h.core].arch = g s.cores[h.core].arch) : exec i s = .next (modArch h.core g s) :=
  exec_ready r he hw (hp.trans (modArch_ready r.toIssues hf)) rfl

/-! ## Branches -/

/-- A jump from an ordinary slot: two delay slots follow, and the link stands in g31. -/
theorem jumpTo_plain {a : Arch} (h : a.opens = []) (t : Word) (link : Bool) :
    jumpTo t link a = ended (if link then setG 31 (a.ia + 12) { a with delay := some (2, t) } else { a with delay := some (2, t) }) := by
  cases link <;> simp [jumpTo, slotEnd, Arch.settle, Arch.flags, outG, Arch.put, ended, setG, h]

theorem yields_jump {i : Instr} {h : Hdr} {x y : Arch → Word} {link : Bool} (he : ∀ s, exec i s = issue i h (fun a _ => .jump (x a) link) s)
    (hw : isReserved i = false) (hx : ∀ a, x a = y a) :
    Yields i h fun a => if link then setG 31 (a.ia + 12) { a with delay := some (2, y a) } else { a with delay := some (2, y a) } := fun s r => by
  rw [← funext hx]
  refine exec_ready_modArch (f := jumpTo (x s.cores[h.core].arch) link) r (he s) hw rfl ?_
  rw [jumpTo_plain r.noOpens]

theorem branchTo_eq (a : Arch) (d : BitVec 18) : branchTo a d = a.ia + BitVec.ofInt 32 (4 * d.toInt) := by
  have four : (d.signExtend 32 <<< 2 : Word) = BitVec.ofInt 32 (4 * d.toInt) := by
    rw [BitVec.shiftLeft_eq_mul_twoPow, BitVec.signExtend, BitVec.ofInt_mul, BitVec.mul_comm]
    rfl
  rw [branchTo, four]

/-- Settles O9: a taken branch leaves two delay slots, and FENCE only retires. -/
theorem branchesTakeTheirTargetAfterTwoDelaySlots : Obligations.BranchesTakeTheirTargetAfterTwoDelaySlots := by
  unfold Obligations.BranchesTakeTheirTargetAfterTwoDelaySlots
  refine ⟨fun h disp => ?b, fun h disp => ?bl, fun h rs1 => ?jr, fun h rs1 => ?jlr, fun h => ?fence⟩
  case b => exact yields_jump (link := false) (fun _ => rfl) rfl fun _ => branchTo_eq _ _
  case bl => exact yields_jump (link := true) (fun _ => rfl) rfl fun _ => branchTo_eq _ _
  case jr => exact yields_jump (link := false) (fun _ => rfl) rfl fun _ => rfl
  case jlr => exact yields_jump (link := true) (fun _ => rfl) rfl fun _ => rfl
  case fence =>
    exact yields_compute (f := fun _ => {}) (fun _ => rfl) rfl fun a h0 h1 h2 => by
      simp [advance, slotEnd, Arch.settle, Arch.flags, ended, h0, h1, h2]

/-! ## What a slot carries forward -/

/-- What a slot asks for already holds its sequence traps and its guard. -/
theorem slotAct_slotAct (i : Instr) (g : Arch → Bool) (body : Arch → State → Act) : slotAct i g (slotAct i g body) = slotAct i g body := by
  funext a s
  unfold slotAct
  cases seqTrap a (g a) i with
  | some t => rfl
  | none => split_ifs <;> rfl

/-- So a slot does what it asks for, whatever stands in the instruction's way. -/
theorem issueBy_slotAct {access i h body s} (r : Issues h s) :
    issueBy access i h (fun a => guardOn a h) body s =
      (match s.cores[h.core].chk, pairOf h.core with
        | some _, some n => brkCheck n
        | _, _ => id) (perform access h (BitVec.ofNat 32 ((encodeNerop i).getD 0)) (slotAct i (fun a => guardOn a h) body s.cores[h.core].arch s) s) := by
  have pick (ft) : slotPick ft i (fun a => guardOn a h) (slotAct i (fun a => guardOn a h) body) = slotPick ft i (fun a => guardOn a h) body := by
    funext a s
    simp only [slotPick, slotAct_slotAct]
  have same : issueBy access i h (fun a => guardOn a h) body s = issueBy access i h (fun a => guardOn a h) (slotAct i (fun a => guardOn a h) body) s := by
    simp only [issueBy, pick]
  exact same.trans (issueBy_issues r (by rw [slotAct_slotAct]))

/-- An issued slot that asks for nothing carries forward what is under way. -/
theorem exec_idle {i : Instr} {h : Hdr} {body : Arch → State → Act} {s : State} {g : Arch → Arch} (r : Issues h s) (he : exec i s = issue i h body s)
    (ha : slotAct i (fun a => guardOn a h) body s.cores[h.core].arch s = .done {})
    (hg : advance (slotEnd {} s.cores[h.core].arch) = g s.cores[h.core].arch) : exec i s = .next (modArch h.core g s) := by
  rw [he, issue, issueBy_slotAct r, ha]
  have e : perform noAccess h (BitVec.ofNat 32 ((encodeNerop i).getD 0)) (.done {}) s = modArch h.core g s :=
    modArch_ready (f := fun a => advance (slotEnd {} a)) r hg
  rw [e]
  exact congrArg Host.Outcome.next (brk_tail r rfl)

/-- FENCE asks for nothing, wherever it stands. -/
theorem slotAct_fence (h : Hdr) (a : Arch) (s : State) : slotAct (.fence h) (fun a => guardOn a h) (fun _ _ => .done {}) a s = .done {} := by
  have free : seqTrap a (guardOn a h) (.fence h) = none := by
    simp [seqTrap, isBranch, isRte, isPrefix, isWaitTrap, isReserved, Instr.wf]
  simp [slotAct, free, isReserved, Instr.wf]

theorem exec_fence {h : Hdr} {s : State} {g : Arch → Arch} (r : Issues h s)
    (hg : advance (slotEnd {} s.cores[h.core].arch) = g s.cores[h.core].arch) : exec (.fence h) s = .next (modArch h.core g s) :=
  exec_idle r rfl (slotAct_fence h _ s) hg

/-- The target of a zero count asks for nothing. -/
theorem slotAct_add_zero {h : Hdr} {rd rs1 rs2 : Reg} {a : Arch} {p : Rpt} (hr : a.rpt = some p) (hz : p.zero = true) (body) (s : State) :
    slotAct (.add h rd rs1 rs2) (fun a => guardOn a h) body a s = .done {} := by
  have free : seqTrap a (guardOn a h) (.add h rd rs1 rs2) = none := by
    simp [seqTrap, isBranch, isRte, isPrefix, isWaitTrap, isReserved, Instr.wf]
  simp [slotAct, free, hr, hz]

/-- Settles O10: FENCE and a target without effect end their slot by `advance` and `slotEnd`. -/
theorem slotsCarryResultsDelaysAndRepetitions : Obligations.SlotsCarryResultsDelaysAndRepetitions := by
  unfold Obligations.SlotsCarryResultsDelaysAndRepetitions
  intro h s r
  refine ⟨fun hr hd d v n d' v' n' ho => ?waits, fun hr hd x v x' v' n ho => ?inOrder, fun hr hd n v p b ho => ?visible, fun hr ho t hd => ?firstDelay,
    fun hr ho t hd => ?lastDelay, fun ho x hr hz hl => ?again, fun ho x hr hz hl => ?last, fun ho x hr hz hl rd rs1 rs2 => ?zero⟩
  case waits | firstDelay | lastDelay =>
    refine exec_fence r ?_
    generalize s.cores[h.core].arch = a at hr hd ho ⊢
    simp [advance, slotEnd, Arch.settle, Arch.flags, hr, hd, ho]
  case inOrder =>
    refine exec_fence r ?_
    generalize s.cores[h.core].arch = a at hr hd ho ⊢
    by_cases hx : x = 0 <;> by_cases hx' : x' = 0 <;> simp [advance, slotEnd, Arch.settle, Arch.flags, Arch.put, setG, hr, hd, ho, hx, hx']
  case visible =>
    refine exec_fence r ?_
    generalize s.cores[h.core].arch = a at hr hd ho ⊢
    by_cases hp : p = 0 <;> cases b <;> simp [advance, slotEnd, Arch.settle, Arch.flags, Arch.put, hr, hd, ho, one, hp]
  case again =>
    refine exec_fence r ?_
    generalize s.cores[h.core].arch = a at hr ho ⊢
    by_cases hx : x.reg = 0 <;> simp [advance, slotEnd, Arch.settle, Arch.flags, setG, Arch.reg, hr, ho, hz, hx, Nat.not_le.mpr hl]
  case last =>
    refine exec_fence r ?_
    generalize s.cores[h.core].arch = a at hr ho ⊢
    by_cases hx : x.reg = 0 <;> simp [advance, slotEnd, Arch.settle, Arch.flags, setG, Arch.reg, hr, ho, hz, hl, hx]
  case zero =>
    refine exec_idle r rfl (slotAct_add_zero hr hz _ s) ?_
    generalize s.cores[h.core].arch = a at hr ho ⊢
    simp [advance, slotEnd, Arch.settle, Arch.flags, hr, ho, hz, hl]

end Sys2Proof.Proofs
end

section
/-! SUPPORT. The special registers (R236 to R239, R304). -/

namespace Sys2Proof.Proofs
open Sys2Proof.Machine Sys2Proof.Safety Sys2Proof.Laws
set_option Elab.async false

/-! ## Special registers -/

/-- A result for a g register and the new values of the two shadows, at the end of an ordinary slot. -/
theorem slotEnd_outG_shadows {a : Arch} {r : Reg} {v : Word} {x y : Option Word} (h : a.opens = []) (h1 : a.rpt = none) (h2 : a.delay = none) :
    advance (slotEnd { outG r v 1 with cycSh := x, tbSh := y } a) = ended { setG r v a with cycSh := x.getD a.cycSh, tbSh := y.getD a.tbSh } := by
  by_cases hr : r = 0 <;> simp [advance, slotEnd, outG, Arch.settle, Arch.flags, Arch.put, ended, setG, h, h1, h2, hr]

/-- MFSR reads a register, at K every one and at U those that are not K's; a read of CYCL or TBL fills its shadow. -/
theorem exec_mfsr {h : Hdr} {r : Reg} {n : Fin 64} {s : State} (hr : Ready h s) (hw : srListed n = true)
    (hp : s.cores[h.core].arch.priv = true ∨ srK n.val = false) :
    exec (.mfsr h r n) s = .next (modArch h.core (fun a => ended { setG r (a.sr h.core n.val s) a with
      cycSh := if n.val = 0x10 then (countSeen h.core s >>> 32).setWidth 32 else a.cycSh
      tbSh := if n.val = 0x12 then (tbSeen h.core s >>> 32).setWidth 32 else a.tbSh }) s) := by
  have free : (!s.cores[h.core].arch.priv && srK n.val) = false := by
    rcases hp with hp | hp <;> rw [hp]
    · rfl
    · exact Bool.and_false _
  refine exec_ready_modArch (f := fun _ => advance (slotEnd { outG r (s.cores[h.core].arch.sr h.core n.val s) 1 with
      cycSh := if n.val = 0x10 then some ((countSeen h.core s >>> 32).setWidth 32) else none
      tbSh := if n.val = 0x12 then some ((tbSeen h.core s >>> 32).setWidth 32) else none } s.cores[h.core].arch)) hr rfl ?_ ?_ ?_
  · simp [isReserved, Instr.wf, hw]
  · simp only [free, Bool.false_eq_true, if_false, perform, retire]
    exact modArch_ready hr.toIssues rfl
  · rw [slotEnd_outG_shadows hr.noOpens hr.noRpt hr.noDelay]
    split_ifs <;> rfl

/-- MFSR of any other register changes the destination alone. -/
theorem exec_mfsr_plain {h : Hdr} {r : Reg} {n : Fin 64} {s : State} (hr : Ready h s) (hw : srListed n = true)
    (hp : s.cores[h.core].arch.priv = true ∨ srK n.val = false) (h1 : n.val ≠ 0x10) (h2 : n.val ≠ 0x12) :
    exec (.mfsr h r n) s = .next (modArch h.core (fun a => ended (setG r (a.sr h.core n.val s) a)) s) := by
  rw [exec_mfsr hr hw hp]
  congr 2
  funext a
  simp only [h1, h2, if_false]
  unfold setG
  split <;> rfl

/-- MTSR of an accumulator's part takes the distance of MUL. -/
theorem exec_mtsr_acc {h : Hdr} {r : Reg} {n : Fin 64} {s : State} {m : Acc} {k : Fin 3} (hr : Ready h s) (hw : srListed n = true)
    (hp : s.cores[h.core].arch.priv = true) (ha : accSr n.val = some (m, k)) :
    exec (.mtsr h r n) s = .next (modArch h.core (fun a => ended (soon (.accPart m k) ((a.reg r).setWidth 72) a)) s) := by
  refine exec_ready_modArch (f := fun a => advance (slotEnd { outs := [(.accPart m k, (s.cores[h.core].arch.reg r).setWidth 72, 2)] } a)) hr rfl ?_ ?_ ?_
  · simp [isReserved, Instr.wf, hw]
  · simp only [hp, ha, Bool.not_true, Bool.false_and, Bool.false_eq_true, if_false, perform, retire]
  · have h0 := hr.noOpens
    have h1 := hr.noRpt
    have h2 := hr.noDelay
    generalize s.cores[h.core].arch = a at h0 h1 h2 ⊢
    simp [advance, slotEnd, Arch.settle, Arch.flags, ended, soon, later, h0, h1, h2]

/-- A write of a special register leaves what is under way alone. -/
theorem setSr_flow (a : Arch) (n : Nat) (v : Word) :
    (a.setSr n v).rpt = a.rpt ∧ (a.setSr n v).delay = a.delay ∧ (a.setSr n v).ia = a.ia ∧ (a.setSr n v).retired = a.retired ∧
    (a.setSr n v).cycSh = a.cycSh ∧ (a.setSr n v).tbSh = a.tbSh ∧ (a.setSr n v).resv = a.resv := by
  unfold Arch.setSr
  split <;> exact ⟨rfl, rfl, rfl, rfl, rfl, rfl, rfl⟩

/-- With nothing under way a slot settles nothing. -/
theorem settle_plain {a : Arch} (h : a.opens = []) : ({ a with opens := a.opens ++ [] } : Arch).settle = a := by
  cases a; subst h; rfl

theorem flags_none (a : Arch) : a.flags false false = a := rfl

/-- A write of a special register at the end of an ordinary slot. -/
theorem slotEnd_sr {a : Arch} (h : a.opens = []) (h1 : a.rpt = none) (h2 : a.delay = none) (n : Nat) (v : Word) :
    advance (slotEnd { sr := [(n, v)] } a) = ended (a.setSr n v) := by
  obtain ⟨e1, e2, e3, e4, e5, e6, e7⟩ := setSr_flow a n v
  unfold slotEnd
  simp only [List.map_nil, settle_plain h, flags_none, List.foldl_cons, List.foldl_nil, Option.getD_none]
  simp only [advance, ended, e1, e2, e5, e6, e7, h1, h2]

/-- MTSR of any other register takes effect in the next slot. -/
theorem exec_mtsr_plain {h : Hdr} {r : Reg} {n : Fin 64} {s : State} (hr : Ready h s) (hw : srListed n = true)
    (hp : s.cores[h.core].arch.priv = true) (ha : accSr n.val = none) :
    exec (.mtsr h r n) s = .next (modArch h.core (fun a => ended (a.setSr n.val (a.reg r))) s) := by
  refine exec_ready_modArch (f := fun a => advance (slotEnd { sr := [(n.val, s.cores[h.core].arch.reg r)] } a)) hr rfl ?_ ?_ ?_
  · simp [isReserved, Instr.wf, hw]
  · simp only [hp, ha, Bool.not_true, Bool.false_and, Bool.false_eq_true, if_false, perform, retire]
  · exact slotEnd_sr hr.noOpens hr.noRpt hr.noDelay _ _

theorem coreWord_eq (c : CoreId) : coreWord c =
    if c.val < 4 then BitVec.ofNat 32 (16 * c.val) else if c.val < 10 then BitVec.ofNat 32 (1 + 16 * ((c.val - 4) % 2)) else 2 := by
  revert c; decide

/-- Accumulator parts by number (R238). -/
theorem accSr_part (n : Fin 4) (k : Fin 3) : accSr (Fin.ofNat 64 (4 + 3 * n.val + k.val)).val = some (n, k) ∧
    srListed (Fin.ofNat 64 (4 + 3 * n.val + k.val)) = true := by
  revert n k; decide
theorem extractLsb'_low (x : Long) : x.extractLsb' 0 32 = (x.setWidth 32 : Word) := (BitVec.setWidth_eq_extractLsb' (by decide)).symm

theorem extractLsb'_high (x : Long) : x.extractLsb' 32 32 = ((x >>> 32).setWidth 32 : Word) := BitVec.eq_of_toNat_eq (by simp)

theorem sr_accPart (n : Fin 4) (c : CoreId) (s : State) (a : Arch) :
    a.sr c (Fin.ofNat 64 (4 + 3 * n.val)).val s = (a.a[n]).extractLsb' 0 32 ∧
    a.sr c (Fin.ofNat 64 (5 + 3 * n.val)).val s = (a.a[n]).extractLsb' 32 32 ∧
    a.sr c (Fin.ofNat 64 (6 + 3 * n.val)).val s = ((a.a[n]).extractLsb' 64 8).signExtend 32 := by
  have low (x : AccWord) : (x.setWidth 32 : Word) = x.extractLsb' 0 32 := BitVec.setWidth_eq_extractLsb' (by decide)
  have shifted (x : AccWord) (k w : Nat) : ((x >>> k).setWidth w : BitVec w) = x.extractLsb' k w := BitVec.eq_of_toNat_eq (by simp)
  match n with
  | 0 | 1 | 2 | 3 => exact ⟨low _, shifted _ _ _, congrArg (BitVec.signExtend 32) (shifted _ _ _)⟩

theorem setBit_zero_true (p : BitVec 8) : setBit p 0 true = p ||| 1 := rfl

theorem setBit_zero_put (b : Bool) (v : BitVec 8) : setBit v 0 b = (v &&& 0xFE) ||| (if b then 1 else 0) := by
  revert b v
  decide +kernel

theorem and_one_eq_bit (p : BitVec 8) : p &&& 1 = if p.getLsbD 0 then 1 else 0 := by
  revert p
  decide +kernel

theorem setBit_zero_keep (v p : BitVec 8) : setBit v 0 (p.getLsbD 0) = (v &&& 0xFE) ||| (p &&& 1) := by
  rw [setBit_zero_put, and_one_eq_bit]

/-- Settles O11: MFSR and MTSR by register. -/
theorem specialRegistersReadAndWriteTheirFields : Obligations.SpecialRegistersReadAndWriteTheirFields := by
  unfold Obligations.SpecialRegistersReadAndWriteTheirFields
  dsimp only
  have read {n : Fin 64} {f : CoreId → State → Arch → Word} (hw : srListed n = true) (hf : ∀ c s a, a.sr c n.val s = f c s a) :
      ∀ h r s, Ready h s → s.cores[h.core].arch.priv = true → n.val ≠ 0x10 → n.val ≠ 0x12 →
        exec (.mfsr h r n) s = .next (modArch h.core (fun a => ended (setG r (f h.core s a) a)) s) := fun h r s hr hp h1 h2 => by
    rw [exec_mfsr_plain hr hw (.inl hp) h1 h2]
    simp only [hf]
  have write {n : Fin 64} {f : Word → Arch → Arch} (hw : srListed n = true) (ha : accSr n.val = none) (hf : ∀ v a, a.setSr n.val v = f v a) :
      ∀ h r s, Ready h s → s.cores[h.core].arch.priv = true →
        exec (.mtsr h r n) s = .next (modArch h.core (fun a => ended (f (a.reg r) a)) s) := fun h r s hr hp => by
    rw [exec_mtsr_plain hr hw hp ha]
    simp only [hf]
  refine ⟨?mode, ?preds, fun n => ⟨?accL, ?accH, ?accG⟩, ?cycSh, ?tbSh, ?priv, ?core, ?trappc, ?trapinst, ?trapcause, ?trapsave, ?tvec, ?iena, ?ipend, ?kscr,
    fun h r s hr => ?cycl, fun h r s hr => ?tbl, ?setMode, ?setP, fun n k h r s hr hp => ?setAcc, ?w10, ?w11, ?w12, ?w13, ?w14, ?w15, ?setTrappc, ?w19, ?w1A,
    ?setTrapsave, ?setTvec, ?setIena, ?setIpend, ?setKscr⟩
  case mode | cycSh | tbSh | priv | trappc | trapinst | trapcause | trapsave | tvec | iena | ipend | kscr =>
    exact read rfl fun _ _ _ => rfl
  case preds => exact read (n := 0x01) (f := fun _ _ a => (a.p ||| 1).setWidth 32) rfl fun _ _ a => congrArg (BitVec.setWidth 32) (setBit_zero_true a.p)
  case core => exact read (n := 0x14) (f := fun c _ _ => if c.val < 4 then _ else _) rfl fun c _ _ => coreWord_eq c
  case setMode | w10 | w11 | w12 | w13 | w14 | w15 | setTrappc | w19 | w1A | setTrapsave | setTvec | setIena | setIpend | setKscr =>
    exact write rfl rfl fun _ _ => rfl
  case setP =>
    refine write (n := 0x01) (f := fun v a => { a with p := (v.setWidth 8 &&& 0xFE) ||| (a.p &&& 1) }) rfl rfl fun v a => ?_
    exact congrArg (fun p => ({ a with p := p } : Arch)) (setBit_zero_keep _ _)
  case setAcc => exact exec_mtsr_acc hr (accSr_part n k).2 hp (accSr_part n k).1
  case accL => exact read (n := Fin.ofNat 64 (4 + 3 * n.val)) (f := fun _ _ a => (a.a[n]).extractLsb' 0 32) (accSr_part n 0).2 fun c s a => (sr_accPart n c s a).1
  case accH =>
    have place : 4 + 3 * n.val + (1 : Fin 3).val = 5 + 3 * n.val := by simp; omega
    exact read (n := Fin.ofNat 64 (5 + 3 * n.val)) (f := fun _ _ a => (a.a[n]).extractLsb' 32 32) (place ▸ (accSr_part n 1).2) fun c s a => (sr_accPart n c s a).2.1
  case accG =>
    have place : 4 + 3 * n.val + (2 : Fin 3).val = 6 + 3 * n.val := by simp; omega
    exact read (n := Fin.ofNat 64 (6 + 3 * n.val)) (f := fun _ _ a => ((a.a[n]).extractLsb' 64 8).signExtend 32) (place ▸ (accSr_part n 2).2) fun c s a => (sr_accPart n c s a).2.2
  case cycl =>
    rw [exec_mfsr hr rfl (.inr rfl)]
    simp only [extractLsb'_low, extractLsb'_high]
    congr 2
    funext a
    simp [Arch.sr, setG]
    split <;> rfl
  case tbl =>
    rw [exec_mfsr hr rfl (.inr rfl)]
    simp only [extractLsb'_low, extractLsb'_high]
    congr 2
    funext a
    simp [Arch.sr, setG]
    split <;> rfl

end Sys2Proof.Proofs
end

section
/-! SUPPORT. Repetitions, vote points and interrupt entry (R96, R272, R273, R297). -/

namespace Sys2Proof.Proofs
open Sys2Proof.Machine Sys2Proof.Safety Sys2Proof.Laws
set_option Elab.async false

/-! ## Repetitions -/

/-- A row that starts a repetition in an ordinary slot leaves its repetition to the next one. -/
theorem exec_rep {i : Instr} {h : Hdr} {body : Arch → State → Act} {s : State} {x y : Rpt} (r : Ready h s) (he : exec i s = issue i h body s)
    (hw : isReserved i = false) (hb : body s.cores[h.core].arch s = .rep x) (hx : x = y) :
    exec i s = .next (modArch h.core (fun a => ended { a with rpt := some y }) s) := by
  subst hx
  refine exec_ready_modArch (f := fun a => { advance (slotEnd {} a) with rpt := some x }) r he hw (by rw [hb]; rfl) ?_
  have h0 := r.noOpens
  have h1 := r.noRpt
  have h2 := r.noDelay
  generalize s.cores[h.core].arch = a at h0 h1 h2 ⊢
  simp [advance, slotEnd, Arch.settle, Arch.flags, ended, h0, h1, h2]

/-! ## Vote points -/

/-- A member's contribution is taken into the current vote point, or opens one. -/
theorem contribute_offers {l : Fin 3} {g : Fin 2} {x : Contrib} {s : State} (hv : MayVote l g s) :
    ∃ p : VotePoint, p.got[l] = some x ∧
      contribute l g x s = { s with voter := { s.voter with grp := s.voter.grp.set g { s.voter.grp[g] with vp := some p } } } := by
  obtain ⟨member, heard, fresh⟩ := hv
  cases hp : s.voter.grp[g].vp with
  | some p =>
    refine ⟨{ p with got := p.got.set l (some x) }, by simp, ?_⟩
    simp only [contribute, modGroup, member, heard, hp, fresh p hp, Option.isSome_none, Bool.false_eq_true, if_false, if_true]
  | none =>
    refine ⟨{ kind := x.kind, opened := s.cyc.tb, got := (Vector.replicate 3 none).set l (some x), closed := false }, by simp, ?_⟩
    simp only [contribute, modGroup, member, heard, hp, Bool.false_eq_true, if_false, if_true]

/-- VOTE holds its core and hands in the lane's contribution. -/
theorem exec_vote {h : Hdr} {rd rs1 : Reg} {s : State} {l : Fin 3} {g : Fin 2} (r : Ready h s) (hl : laneOf h.core = some (l, g)) :
    exec (.vote h rd rs1) s = .next (contribute l g { kind := .vote, items := leBytes 4 (s.cores[h.core].arch.reg rs1).toNat, crc := stateCrc l g s }
      (modCore h.core (fun k => { k with hold := .vote rd }) s)) := by
  refine exec_ready (body := fun a _ => if (laneOf h.core).isSome then .vote rd (a.reg rs1) else .trap .illop) r rfl rfl ?_ rfl
  simp only [hl, Option.isSome_some, if_true, perform]

/-- Settles O18: the two rows that start a repetition by `exec_rep`, VOTE by the contribution of a member. -/
theorem prefixesStartRepetitionsAndVotesContribute : Obligations.PrefixesStartRepetitionsAndVotesContribute := by
  unfold Obligations.PrefixesStartRepetitionsAndVotesContribute
  refine ⟨fun h rd step cnt hs s r => ?rpti, fun h rd rs1 step s h1 hs r hn => ?rptr, fun h rd rs1 s l g r hl hv => ?vote⟩
  case rpti =>
    have wf : isReserved (.rpti h rd step cnt) = false := by rcases hs with hs | hs <;> simp [isReserved, Instr.wf, hs]
    exact exec_rep r rfl wf rfl rfl
  case rptr =>
    have wf : isReserved (.rptr h rd rs1 step) = false := by rcases hs with hs | hs <;> simp [isReserved, Instr.wf, h1, hs]
    refine exec_rep r rfl wf (if_neg (Nat.not_lt.mpr hn)) ?_
    have zero : (s.cores[h.core].arch.reg rs1).toNat = 0 ↔ s.cores[h.core].arch.reg rs1 = 0 :=
      ⟨fun e => BitVec.eq_of_toNat_eq e, fun e => by rw [e]; rfl⟩
    by_cases hz : s.cores[h.core].arch.reg rs1 = 0
    · simp only [hz]; rfl
    · have positive : 1 ≤ (s.cores[h.core].arch.reg rs1).toNat := Nat.one_le_iff_ne_zero.mpr (mt zero.mp hz)
      simp only [zero, hz, if_false, Nat.max_eq_left positive, simm]
  case vote =>
    obtain ⟨p, taken, e⟩ := contribute_offers (x := { kind := .vote, items := leBytes 4 (s.cores[h.core].arch.reg rs1).toNat, crc := stateCrc l g s })
      (s := modCore h.core (fun k => { k with hold := .vote rd }) s) hv
    rw [exec_vote r hl, e]
    exact ⟨_, rfl, ⟨p, by simp, taken, by simp [modCore]⟩, by simp [modCore], by simp [modCore]⟩

/-! ## Interrupt entry -/

/-- A supplied module whose pair 0 has a pending interrupt, while its checker, out of step with the main core, stands in a delay slot. -/
def checkerInDelaySlot : State :=
  modCore 0 (fun k =>
    let a : Arch := { k.arch with iena := 0x80000001, ipend := 1 }
    { k with stopped := false, arch := a, chk := some { a with delay := some (1, 0x40) } })
    { State.reset with boot := { Boot.reset with on := 0xFFF, up := true } }

/-- The delay slot in which the checker of pair 0 stands after a command. -/
def checkerDelay : Host.Outcome State Fault Refusal → Option (Option (Fin 3 × Word))
  | .next t => t.cores[(0 : CoreId)].chk.map Arch.delay
  | _ => none

/-- Refutes O12: interrupt entry ends the delay slot of both cores of a pair (R297), and the statement, which asks only of the main core that no delay slot and
no repetition is under way, leaves the checker in its own. -/
theorem not_trapEntryAndReturnSaveAndRestore : ¬ Obligations.TrapEntryAndReturnSaveAndRestore := by
  unfold Obligations.TrapEntryAndReturnSaveAndRestore
  rintro ⟨-, -, entry, -⟩
  have taken := entry 0 0 checkerInDelaySlot (by decide +kernel) (by decide +kernel) (by decide +kernel) (by decide +kernel)
  exact absurd (congrArg checkerDelay taken) (by decide +kernel)

end Sys2Proof.Proofs
end

section
/-! SUPPORT. One step, and the reset values. -/

namespace Sys2Proof.Proofs
open Sys2Proof.Machine Sys2Proof.Safety Sys2Proof.Laws
set_option Elab.async false

/-- The time base goes on by one, two or no ticks, as the rate has gathered a correction (R30). -/
theorem tbNext_cases (s : State) :
    let a := s.cyc.rateAcc + s.rtm.rate.toInt
    (a.natAbs < 100000000 → tbNext s = (s.cyc.tb + 1, a)) ∧ (100000000 ≤ a → tbNext s = (s.cyc.tb + 2, a - 100000000)) ∧
    (a ≤ -100000000 → tbNext s = (s.cyc.tb, a + 100000000)) := by
  intro a
  have e : tbNext s = if (100000000 : Int) ≤ a then (s.cyc.tb + 2, a - 100000000) else if a ≤ -100000000 then (s.cyc.tb, a + 100000000) else (s.cyc.tb + 1, a) := rfl
  rw [e]
  refine ⟨fun small => ?_, fun fast => if_pos fast, fun slow => ?_⟩
  · rw [if_neg (by omega), if_neg (by omega)]
  · rw [if_neg (by omega), if_pos slow]

/-- Settles O56: `step` by its two cases, and the correction of `tbNext` by its three. -/
theorem stepRunsTheFrontCommand : Obligations.StepRunsTheFrontCommand := by
  unfold Obligations.StepRunsTheFrontCommand
  refine fun s => ⟨fun c rest => rfl, fun idle => ?_⟩
  have ticks : step s = .next (tick s) := by rw [step, idle]
  have frame : Only [.cyc, .rtc] s (tick s) := by
    intro p hp
    cases p <;> first | exact absurd (by decide) hp | rfl
  obtain ⟨small, fast, slow⟩ := tbNext_cases s
  exact ⟨tick s, ticks, frame, rfl, fun h => Prod.ext_iff.mp (small h), fun h => Prod.ext_iff.mp (fast h), fun h => Prod.ext_iff.mp (slow h)⟩

/-! ## Reset values -/

/-- A register block that reads its listed values below 1 KiB and 0 above reads them everywhere. -/
theorem reads_of_low {f : Nat → State → Word} {s : State} {vs : List (Nat × Word)} (hv : ∀ v ∈ vs, v.1 < 0x400)
    (low : ∀ off, off < 0x400 → f off s = (vs.lookup off).getD 0) (high : ∀ off, 0x400 ≤ off → f off s = 0) (off : Nat) :
    f off s = (vs.lookup off).getD 0 := by
  by_cases h : off < 0x400
  · exact low off h
  · have absent : vs.lookup off = none := List.lookup_eq_none_iff.mpr fun v hm => by
      have := hv v hm
      simp; omega
    rw [high off (Nat.not_lt.mp h), absent]; rfl

theorem cycReg_high (s : State) (off : Nat) (h : 0x400 ≤ off) : cycReg off s = 0 := by
  unfold cycReg
  split <;> simp_all

theorem votReg_high (s : State) (off : Nat) (h : 0x400 ≤ off) : votReg off s = 0 := by
  unfold votReg
  split <;> simp_all

theorem pairReg_high (s : State) (off : Nat) (h : 0x400 ≤ off) : pairReg off s = 0 := by
  have row : 3 < off / 16 := by omega
  unfold pairReg
  dsimp only
  split
  · rfl
  · split <;> simp_all

theorem ringReg_high (s : State) (off : Nat) (h : 0x400 ≤ off) : ringReg off s = 0 := by
  have counters : ¬ off ≤ 0x30 ∧ ¬ off ≤ 0x50 := by omega
  unfold ringReg
  simp only [counters, decide_false, Bool.and_false, Bool.false_and, Bool.false_eq_true, if_false]
  split <;> simp_all

theorem hsbReg_high (s : State) (off : Nat) (h : 0x400 ≤ off) : hsbReg off s = 0 := by
  unfold hsbReg
  dsimp only
  split <;> simp_all

theorem mbxReg_high (s : State) (off : Nat) (h : 0x400 ≤ off) : mbxReg off s = 0 := by
  have counters : ¬ off ≤ 0x3C ∧ ¬ off ≤ 0x14 := by omega
  unfold mbxReg
  simp only [counters, decide_false, Bool.and_false, Bool.false_and, Bool.false_eq_true, if_false]
  split <;> simp_all

theorem maReg_high (s : State) (off : Nat) (h : 0x400 ≤ off) : maReg off s = 0 := by
  unfold maReg
  split <;> simp_all

theorem psReg_high (s : State) (off : Nat) (h : 0x400 ≤ off) : psReg off s = 0 := by
  have page : ¬ off < 0x200 := by omega
  unfold psReg
  simp only [page, decide_false, Bool.and_false, Bool.false_eq_true, if_false]
  split <;> simp_all

/-- After reset a watchdog unit has its three values alone. -/
theorem wdgUnitReg_reset (u : Fin 8) (off : Nat) :
    wdgUnitReg off State.reset.wdg[u] = if off = 0 ∧ u = 0 then 1 else if off = 4 then (if u = 0 then 0x10000 else 0x21) else 0 := by
  unfold wdgUnitReg
  split
  case h_1 | h_2 | h_3 | h_4 | h_5 => revert u; decide +kernel
  case h_6 => simp_all

/-- Settles O57: each block below 1 KiB by evaluation, and above by its definition. -/
theorem resetHoldsTheSpecsValues : Obligations.ResetHoldsTheSpecsValues := by
  unfold Obligations.ResetHoldsTheSpecsValues
  dsimp only
  refine ⟨?inv, rfl, rfl, ?cyc, ?vot, ?pair, ?ring, ?hsb, ?mbx, ?ma, ?ps, ?esc, wdgUnitReg_reset, ?cim, ?cores, ?date, ?time, ?lost, ?lock, ?cause, ?port, ?fg⟩
  case inv =>
    have empty : memWf State.reset.mem := by decide +kernel
    exact empty
  case esc | cim | cores | date | time | lost | lock | cause | port | fg => decide +kernel
  case cyc => exact reads_of_low (by decide) (by decide +kernel) (cycReg_high _)
  case vot => exact reads_of_low (by decide) (by decide +kernel) (votReg_high _)
  case pair => exact reads_of_low (by decide) (by decide +kernel) (pairReg_high _)
  case ring => exact reads_of_low (by decide) (by decide +kernel) (ringReg_high _)
  case hsb => exact reads_of_low (by decide) (by decide +kernel) (hsbReg_high _)
  case mbx => exact reads_of_low (by decide) (by decide +kernel) (mbxReg_high _)
  case ma => exact reads_of_low (by decide) (by decide +kernel) (maReg_high _)
  case ps => exact reads_of_low (by decide) (by decide +kernel) (psReg_high _)

end Sys2Proof.Proofs
end

section
/-! SUPPORT. Stores in a domain that is resynchronised: the frame of StoredBy leaves out what is sent again. -/

namespace Sys2Proof.Proofs
open Sys2Proof.Machine Sys2Proof.Safety Sys2Proof.Laws
set_option Elab.async false

/-! ## A store is also noted for the resynchronisation

After a write in a domain's data region `domTouch` lists the granule in `Dom.resend`, so that it is sent again (R226); `StoredBy` lets a store change a domain's marks
and its retain area alone. -/

/-- Core A0 without guard. -/
def hdrA0 : Hdr := { core := 4, pg := 0, pn := false, meet := none }

/-- An image whose data region spans %M and the edge memory. -/
def imageA : Image :=
  { (default : Image) with
    id := 7, safety := true
    areas := { pimg := 0, iBase := 0x1000, iLen := 8, qBase := 0x1100, qLen := 8, mBase := 0x1200, mLen := 128, edgeBase := 0x1300, dataBase := 0x1200, dataLen := 512,
               retainLen := 0, changeBase := 0x1800, changeLen := 64 } }

/-- A supplied module in which A0 runs TX0's image, with g1 at %M, while a resynchronisation of TX0 has begun to list what to send again. -/
def resending : State :=
  let s := { State.reset with boot := { Boot.reset with on := 0xFFF, up := true } }
  let s := modCore 4 (fun k => { k with stopped := false, arch := { k.arch with g := k.arch.g.set 1 0x02001200 } }) s
  { s with doms := s.doms.set 4 { s.doms[(4 : DomId)] with image := some imageA, run := true, resend := some [] } }

/-- What TX0 lists to send again after a command. -/
def resendOf : Host.Outcome State Fault Refusal → Option (List (Nat × Nat))
  | .next t => t.doms[(4 : DomId)].resend
  | _ => none

theorem ready_resending : Ready hdrA0 resending :=
  { runs := by decide +kernel, noStep := rfl, noIrq := by decide +kernel, fetch := rfl, alike := .inl rfl
    noEcho := fun n hn => by simp [pairOf, hdrA0] at hn
    guard := by decide +kernel, noRpt := rfl, noDelay := rfl, noOpens := rfl }

theorem clean_resending (code : Nat) (ws : List Nat) : Clean code ws resending := fun _ _ => ⟨rfl, rfl⟩

/-- A state that `StoredBy` relates to `resending` lists nothing to send again. -/
theorem StoredBy.resend_eq {i : Instr} {c : CoreId} {f : Arch → Arch} {code g : Nat} {t : State} (he : exec i resending = .next t)
    (st : StoredBy c f code g resending t) : resendOf (exec i resending) = some [] := by
  rw [he]
  exact congrArg Dom.resend (st.doms 4)

theorem inv_resending : Safety.Inv resending := by
  have e : memWf resending.mem := by decide +kernel
  exact e

theorem noRuns_resending : NoRuns resending := by
  unfold NoRuns
  decide +kernel

theorem mayWrite_resending {o : Nat} (mask : Byte) (h : rmuByte 4 o resending = false) : MayWrite 4 o mask resending := ⟨h, .inl (by decide +kernel)⟩

/-- Refutes O8: STB into the data region of a domain that is resynchronised lists its granule to be sent again. -/
theorem not_storesWriteExactlyTheirBytes : ¬ Obligations.StoresWriteExactlyTheirBytes := by
  unfold Obligations.StoresWriteExactlyTheirBytes
  intro h
  have onChip : OnChip 4 (.store 1 0) 0x02001200 1 0x1200 resending :=
    ⟨by decide +kernel, by decide +kernel, by decide +kernel, by decide +kernel, by decide +kernel, clean_resending _ _⟩
  obtain ⟨t, he, -, st⟩ := (h hdrA0 0 1 0 0 1 0x1200 resending ready_resending inv_resending noRuns_resending).1 rfl onChip
  exact absurd (StoredBy.resend_eq he st) (by decide +kernel)

/-- Refutes O13: so does BSET of a bit in the data region. -/
theorem not_bitInstructionsReadAndWriteTheirBit : ¬ Obligations.BitInstructionsReadAndWriteTheirBit := by
  unfold Obligations.BitInstructionsReadAndWriteTheirBit
  intro h
  have bit : BitAt 4 ⟨2, 0⟩ 2 0 1 0x1200 resending :=
    ⟨by decide +kernel, by decide +kernel, by decide, rfl, clean_resending _ _, by decide +kernel⟩
  obtain ⟨-, -, bset, -⟩ := h hdrA0 0 ⟨2, 0⟩ 2 0 1 0x1200 resending ready_resending rfl bit
  obtain ⟨t, he, -, st⟩ := bset rfl (by decide) (mayWrite_resending _ (by decide +kernel)) inv_resending noRuns_resending
  exact absurd (StoredBy.resend_eq he st) (by decide +kernel)

/-- Refutes O14: so does RED where the companion lies in the data region. -/
theorem not_edgeInstructionsCompareAndUpdateTheCompanion : ¬ Obligations.EdgeInstructionsCompareAndUpdateTheCompanion := by
  unfold Obligations.EdgeInstructionsCompareAndUpdateTheCompanion
  intro h
  have bit : BitAt 4 ⟨2, 0⟩ 2 0 1 0x1200 resending :=
    ⟨by decide +kernel, by decide +kernel, by decide, rfl, clean_resending _ _, by decide +kernel⟩
  obtain ⟨⟨t, he, -, st⟩, -⟩ := h hdrA0 1 ⟨2, 0⟩ 2 0 1 0x1200 0x1310 resending ready_resending rfl bit (by decide +kernel) (clean_resending _ _) (by decide +kernel)
    (by decide) rfl (mayWrite_resending _ (by decide +kernel)) inv_resending noRuns_resending
  exact absurd (StoredBy.resend_eq he st) (by decide +kernel)

/-- Refutes O16: so does TRST of a timer in the data region. -/
theorem not_timersFollowTheirRules : ¬ Obligations.TimersFollowTheirRules := by
  unfold Obligations.TimersFollowTheirRules
  intro h
  have inst : InstAt 4 (resending.cores[(4 : CoreId)].arch.reg 1) 32 32 3 1 0x1200 resending :=
    ⟨by decide +kernel, rfl, fun _ _ => clean_resending _ _, by decide +kernel⟩
  obtain ⟨-, timers⟩ := h hdrA0 0 0 0 1 1 0x1200 resending ready_resending inst
  obtain ⟨-, -, -, -, -, -, -, -, -, -, -, trst⟩ :=
    timers rfl (fun i hi => mayWrite_resending _ (by revert i; decide +kernel)) inv_resending noRuns_resending
  obtain ⟨t, he, -, -, -, -, st⟩ := trst
  exact absurd (StoredBy.resend_eq he st) (by decide +kernel)

end Sys2Proof.Proofs
end

section
/-! SUPPORT. Loads from on-chip memory (R245, R279, R322). -/

namespace Sys2Proof.Proofs
open Sys2Proof.Machine Sys2Proof.Safety Sys2Proof.Laws
set_option Elab.async false

/-! ## Bytes of a word -/

/-- A number from its two lowest bytes. -/
theorem append_toNat (a b : Byte) : (b ++ a : BitVec 16).toNat = a.toNat + 256 * b.toNat := by
  have low := a.isLt
  rw [BitVec.toNat_append, ← Nat.shiftLeft_add_eq_or_of_lt low, Nat.shiftLeft_eq]
  omega

theorem ofNat_leNat_one (a : Byte) : BitVec.ofNat 8 (leNat [a]) = a := by simp [leNat]

theorem ofNat_leNat_two (a b : Byte) : BitVec.ofNat 16 (leNat [a, b]) = b ++ a :=
  BitVec.eq_of_toNat_eq (by
    have := a.isLt
    have := b.isLt
    rw [append_toNat, BitVec.toNat_ofNat, leNat, leNat, leNat]
    omega)

theorem ofNat_leNat_four (a b c d : Byte) : BitVec.ofNat 32 (leNat [a, b, c, d]) = d ++ c ++ b ++ a :=
  BitVec.eq_of_toNat_eq (by
    have ha := a.isLt
    have hb := b.isLt
    have hc := c.isLt
    have hd := d.isLt
    rw [BitVec.toNat_append, ← Nat.shiftLeft_add_eq_or_of_lt ha, BitVec.toNat_append, ← Nat.shiftLeft_add_eq_or_of_lt hb, append_toNat,
      BitVec.toNat_ofNat, Nat.shiftLeft_eq, Nat.shiftLeft_eq]
    simp only [leNat]
    omega)

/-! ## Accesses to on-chip memory -/

/-- A word without a wrong bit is read as it is. -/
theorem checkWord_clean {code : Nat} {ws : List Nat} {w : Nat} {s : State} (hc : Clean code ws s) (hw : w ∈ ws) (who : Nat) :
    checkWord who code w s = (none, false, s) := by
  obtain ⟨sound, right⟩ := hc w hw
  simp only [checkWord, sound, right, Bool.false_eq_true, if_false]

/-- An access that meets no trap and has a path reaches its memory. -/
theorem access_onChip {c : CoreId} {op : MemOp} {addr : Word} {code off : Nat} {s : State} (o : OnChip c op addr code off s) (meet : Option Meet)
    (word : Word) : access c op addr meet word s = accessSram c op code off meet s := by
  simp only [access, o.noTrap, o.place, accessMem, o.path, o.powered, o.awake, Bool.not_true, Bool.false_eq_true, if_false]

/-- A read of clean words gives their bytes. -/
theorem readSram_clean {c : CoreId} {op : MemOp} {code off : Nat} {s : State} (hc : Clean code [off / 8] s) :
    readSram c op code off s = .ok (readEff op (readRot code off op.size s) (memKey code (off / 64))) s := by
  simp only [readSram, checkWord_clean hc (List.mem_singleton_self _), Bool.false_eq_true, if_false]

/-- In a ready slot a memory instruction performs its access. -/
theorem memInstr_ready {i : Instr} {h : Hdr} {op : Arch → MemOp} {addr : Arch → Word} {s t : State} (r : Ready h s) (hw : isReserved i = false)
    (hp : perform access h (BitVec.ofNat 32 ((encodeNerop i).getD 0)) (.mem (op s.cores[h.core].arch) (addr s.cores[h.core].arch)) s = t)
    (hk : t.pairs = s.pairs) : memInstr i h op addr s = .next t := by
  rw [memInstr, issueBy_ready r hw, hp]
  exact congrArg Host.Outcome.next (brk_tail r.toIssues hk)

/-- A load from clean on-chip memory retires with what it read. -/
theorem memInstr_read {i : Instr} {h : Hdr} {op : Arch → MemOp} {addr : Arch → Word} {code off : Nat} {s : State} {g : Arch → Arch} (r : Ready h s)
    (hw : isReserved i = false) (hr : ∀ a, (op a).writes = false) (o : OnChip h.core (op s.cores[h.core].arch) (addr s.cores[h.core].arch) code off s)
    (hg : advance (slotEnd (readEff (op s.cores[h.core].arch) (readRot code off (op s.cores[h.core].arch).size s) (memKey code (off / 64)))
      s.cores[h.core].arch) = g s.cores[h.core].arch) : memInstr i h op addr s = .next (modArch h.core g s) := by
  have keeps : scFails s.cores[h.core].arch (op s.cores[h.core].arch) (memKey code (off / 64)) = false := by
    have reads := hr s.cores[h.core].arch
    generalize op s.cores[h.core].arch = x at reads
    cases x with
    | load | lr => rfl
    | store | sc => cases reads
  refine memInstr_ready r hw ?_ rfl
  simp only [perform, access_onChip o, accessSram, keeps, hr, readSram_clean o.clean, Bool.false_eq_true, if_false]
  exact modArch_ready r.toIssues hg

/-- A loaded value becomes visible after two more slots. -/
theorem slotEnd_load {a : Arch} (h : a.opens = []) (h1 : a.rpt = none) (h2 : a.delay = none) (rd : Reg) (v : Word) :
    advance (slotEnd (outG rd v 3) a) = ended (later (.g rd) (v.setWidth 72) 2 a) := by
  simp [advance, slotEnd, outG, Arch.settle, Arch.flags, ended, later, h, h1, h2]

/-- LR.W's as well, with its reservation. -/
theorem slotEnd_lr {a : Arch} (h : a.opens = []) (h1 : a.rpt = none) (h2 : a.delay = none) (rd : Reg) (v : Word) (k : Nat) :
    advance (slotEnd { outG rd v 3 with resv := some (some k) } a) = ended { later (.g rd) (v.setWidth 72) 2 a with resv := some k } := by
  simp [advance, slotEnd, outG, Arch.settle, Arch.flags, ended, later, h, h1, h2]

/-- The bytes that an access of `n` bytes reads. -/
theorem readRot_eq (code off n : Nat) (s : State) : readRot code off n s = leNat ((List.range n).map fun i => readByte code (rot off i) s) := by
  simp only [readRot, lanesOf, List.map_map]; rfl

/-- Settles O7: each load by `memInstr_read`, its value by the bytes of its word. -/
theorem loadsGiveTheBytesOfTheirWord : Obligations.LoadsGiveTheBytesOfTheirWord := by
  unfold Obligations.LoadsGiveTheBytesOfTheirWord
  dsimp only
  intro h rd rs1 imm code off s r
  have one : readRot code off 1 s = leNat [readByte code (rot off 0) s] := readRot_eq code off 1 s
  have two : readRot code off 2 s = leNat [readByte code (rot off 0) s, readByte code (rot off 1) s] := readRot_eq code off 2 s
  have four : readRot code off 4 s =
      leNat [readByte code (rot off 0) s, readByte code (rot off 1) s, readByte code (rot off 2) s, readByte code (rot off 3) s] := readRot_eq code off 4 s
  have load {n : Nat} {sg : Bool} {v : Word} (hv : extendLoad n sg (readRot code off n s) = v) :
      advance (slotEnd (readEff (.load n sg rd) (readRot code off n s) (memKey code (off / 64))) s.cores[h.core].arch)
        = ended (later (.g rd) (v.setWidth 72) 2 s.cores[h.core].arch) := by
    rw [readEff, hv, slotEnd_load r.noOpens r.noRpt r.noDelay]
  refine ⟨fun o => ?ldb, fun o => ?ldbu, fun o => ?ldh, fun o => ?ldhu, fun o => ?ldw, fun o => ?lr⟩
  case ldb => exact memInstr_read (op := fun _ => .load 1 true rd) r rfl (fun _ => rfl) o (load (by rw [one, extendLoad, ofNat_leNat_one]; rfl))
  case ldbu => exact memInstr_read (op := fun _ => .load 1 false rd) r rfl (fun _ => rfl) o (load (by rw [one, extendLoad, ofNat_leNat_one]; rfl))
  case ldh => exact memInstr_read (op := fun _ => .load 2 true rd) r rfl (fun _ => rfl) o (load (by rw [two, extendLoad, ofNat_leNat_two]; rfl))
  case ldhu => exact memInstr_read (op := fun _ => .load 2 false rd) r rfl (fun _ => rfl) o (load (by rw [two, extendLoad, ofNat_leNat_two]; rfl))
  case ldw => exact memInstr_read (op := fun _ => .load 4 false rd) r rfl (fun _ => rfl) o (load (by rw [four, extendLoad, ofNat_leNat_four]; rfl))
  case lr =>
    refine memInstr_read (op := fun _ => .lr rd) r rfl (fun _ => rfl) o ?_
    rw [readEff, slotEnd_lr r.noOpens r.noRpt r.noDelay, MemOp.size, four, ofNat_leNat_four]

end Sys2Proof.Proofs
end

section
/-! SUPPORT. A store and what is noted of it; masked writes (R106, R280, R384). -/

namespace Sys2Proof.Proofs
open Sys2Proof.Machine Sys2Proof.Safety Sys2Proof.Laws
set_option Elab.async false

/-! ## A store and what is noted of it -/

/-- What a store of `by_` may change: memory, other cores' reservations, and the lists of written lines and granules. -/
structure Noted (by_ : Option CoreId) (s t : State) : Prop where
  own : ∀ c, by_ = some c → t.cores[c] = s.cores[c]
  cores : ∀ j : CoreId, t.cores[j] = { s.cores[j] with arch := { s.cores[j].arch with resv := t.cores[j].arch.resv }, chk := t.cores[j].chk }
  voter : t.voter = { s.voter with reint := { s.voter.reint with dirty := t.voter.reint.dirty } }
  images : ∀ d : DomId, t.doms[d].image = s.doms[d].image
  wf : memWf s.mem → memWf t.mem
  rest : t = { s with mem := t.mem, cores := t.cores, voter := t.voter, doms := t.doms }

theorem Noted.refl (by_ : Option CoreId) (s : State) : Noted by_ s s := ⟨fun _ _ => rfl, fun _ => rfl, rfl, fun _ => rfl, id, rfl⟩

theorem Noted.trans {by_ : Option CoreId} {s t u : State} (h1 : Noted by_ s t) (h2 : Noted by_ t u) : Noted by_ s u where
  own c hc := (h2.own c hc).trans (h1.own c hc)
  cores j := by rw [h2.cores j, h1.cores j]
  voter := by rw [h2.voter, h1.voter]
  images d := (h2.images d).trans (h1.images d)
  wf := h2.wf ∘ h1.wf
  rest := by rw [h2.rest, h1.rest]

/-- Writing bytes changes memory alone. -/
theorem writeBytes_rest (code off : Nat) (bs : List Byte) (s : State) :
    writeBytes code off bs s = { s with mem := (writeBytes code off bs s).mem } := by
  induction bs generalizing off s with
  | nil => rfl
  | cons b bs ih => exact (ih (off + 1) (writeByte code off b s)).trans rfl

/-- A written domain keeps its image. -/
theorem domTouch_image (by_ : Option CoreId) (code : Nat) (ls : List Nat) (i : Nat) (d : Dom) : (domTouch by_ code ls i d).image = d.image := by
  unfold domTouch
  split
  · rfl
  · simp only [apply_ite Dom.image, ite_self]

/-- The granules of a write that other cores lose their reservations on. -/
def loseResv (code off len : Nat) (a : Arch) : Arch :=
  { a with resv := a.resv.filter fun k => !(memKey code (off / 64) ≤ k && k ≤ memKey code ((off + len - 1) / 64)) }

theorem noteWrite_cores (by_ : Option CoreId) (code off len : Nat) (s : State) (j : CoreId) :
    (noteWrite by_ code off len s).cores[j] = if by_ = some j then s.cores[j]
      else { s.cores[j] with arch := loseResv code off len s.cores[j].arch, chk := s.cores[j].chk.map (loseResv code off len) } := by
  have mine : (by_.any fun c => c.val == j.val) = decide (by_ = some j) := by
    cases by_ with
    | none => rfl
    | some c => rw [Bool.eq_iff_iff]; simp [Fin.ext_iff]
  have e : (noteWrite by_ code off len s).cores = s.cores.mapIdx fun i k =>
      if by_.any (fun c => c.val == i) then k
      else { k with arch := loseResv code off len k.arch, chk := k.chk.map (loseResv code off len) } := by
    unfold noteWrite
    dsimp only
    split <;> rfl
  rw [e]
  simp [Vector.getElem_mapIdx, mine]

/-- What is noted of a write. -/
theorem noted_noteWrite (by_ : Option CoreId) (code off len : Nat) (s : State) : Noted by_ s (noteWrite by_ code off len s) where
  own c hc := by rw [noteWrite_cores, if_pos hc]
  cores j := by
    rw [noteWrite_cores]
    split <;> rfl
  voter := by
    unfold noteWrite modReint
    dsimp only
    split <;> rfl
  images d := by
    have e : (noteWrite by_ code off len s).doms =
        s.doms.mapIdx (domTouch by_ code ((List.range ((off + len - 1) / 64 + 1 - off / 64)).map (off / 64 + ·))) := by
      unfold noteWrite
      dsimp only
      split <;> rfl
    rw [e]
    simp [Vector.getElem_mapIdx, domTouch_image]
  wf h := by
    unfold noteWrite
    dsimp only
    split <;> exact h
  rest := by
    unfold noteWrite modReint
    dsimp only
    split <;> rfl

theorem noteWrite_mem (by_ : Option CoreId) (code off len : Nat) (s : State) : (noteWrite by_ code off len s).mem = s.mem := by
  unfold noteWrite modReint
  dsimp only
  split <;> rfl

theorem noRuns_of_solvers {s t : State} (h : NoRuns s) (e : t.solvers = s.solvers) : NoRuns t := by unfold NoRuns; rw [e]; exact h

theorem Noted.noRuns {by_ : Option CoreId} {s t : State} (n : Noted by_ s t) (h : NoRuns s) : NoRuns t := noRuns_of_solvers h (by rw [n.rest])

/-- While no Logic Solver runs, a write meets no gather. -/
theorem gatherTouch_noRuns {s : State} (h : NoRuns s) (code off : Nat) (bs : List Byte) : gatherTouch code off bs s = s := by
  have queue (i : Fin 5) (k : Fin 2) : s.solvers[i].q[k].run = none := h i k
  unfold gatherTouch
  simp only [List.foldl_cons, List.foldl_nil, queue]

/-- A store while no Logic Solver runs. -/
theorem store_noRuns {s : State} (h : NoRuns s) (by_ : Option CoreId) (code off : Nat) (v : Byte) :
    store by_ code off [v] s = noteWrite by_ code off 1 (writeByte code off v s) := by
  have quiet : NoRuns (noteWrite by_ code off 1 (writeByte code off v s)) := (noted_noteWrite by_ code off 1 _).noRuns (noRuns_of_solvers h rfl)
  exact gatherTouch_noRuns quiet code off [v]

theorem noted_store {s : State} (h : NoRuns s) (by_ : Option CoreId) (code off : Nat) (v : Byte) : Noted by_ s (store by_ code off [v] s) := by
  rw [store_noRuns h]
  have written : Noted by_ s (writeByte code off v s) := ⟨fun _ _ => rfl, fun _ => rfl, rfl, fun _ => rfl, writeByte_wf code off v s, rfl⟩
  exact written.trans (noted_noteWrite by_ code off 1 _)

/-- After a store of one byte. -/
theorem readByte_store {s : State} (h : NoRuns s) (w : memWf s.mem) (by_ : Option CoreId) {code off k o : Nat} (v : Byte) (ho : off < 2 ^ 36) (hk : o < 2 ^ 36) :
    readByte k o (store by_ code off [v] s) = if k = code ∧ o = off then v else readByte k o s := by
  rw [store_noRuns h, readByte_congr (noteWrite_mem by_ code off 1 _)]
  split
  next e => rw [e.1, e.2]; exact readByte_writeByte_same w code off v
  next e => exact readByte_writeByte_other (fun same => e (memKey_inj hk ho same)) v s

/-! ## Masked writes -/

/-- A byte under a masked write. -/
def maskedByte (b mask v : Byte) : Byte := (b &&& ~~~mask) ||| (v &&& mask)

/-- What a list of masked writes to different bytes makes of a byte. -/
def writtenByte (w : WordWrite) (o : Nat) (b : Byte) : Byte := ((w.lookup o).map fun x => maskedByte b x.1 x.2).getD b

theorem maskWrite_nil (c : CoreId) (code : Nat) (s : State) : maskWrite c code [] s = s := rfl

theorem maskWrite_cons (c : CoreId) (code : Nat) (x : Nat × Byte × Byte) (w : WordWrite) (s : State) :
    maskWrite c code (x :: w) s = maskWrite c code w (store (some c) code x.1 [maskedByte (readByte code x.1 s) x.2.1 x.2.2] s) := by
  simp only [maskWrite, List.foldl_cons, maskedByte]

theorem noted_maskWrite {s : State} (h : NoRuns s) (c : CoreId) (code : Nat) (w : WordWrite) : Noted (some c) s (maskWrite c code w s) := by
  induction w generalizing s with
  | nil => exact Noted.refl _ _
  | cons x w ih =>
    rw [maskWrite_cons]
    have first := noted_store h (some c) code x.1 (maskedByte (readByte code x.1 s) x.2.1 x.2.2)
    exact first.trans (ih (first.noRuns h))

/-- The bytes after masked writes to different places. -/
theorem readByte_maskWrite {s : State} (h : NoRuns s) (wf : memWf s.mem) (c : CoreId) {code k o : Nat} {w : WordWrite} (hw : (w.map Prod.fst).Nodup)
    (small : ∀ x ∈ w, x.1 < 2 ^ 36) (ho : o < 2 ^ 36) :
    readByte k o (maskWrite c code w s) = if k = code then writtenByte w o (readByte k o s) else readByte k o s := by
  induction w generalizing s with
  | nil => simp [writtenByte, maskWrite_nil]
  | cons x w ih =>
    rw [maskWrite_cons]
    obtain ⟨fresh, hw⟩ := List.nodup_cons.mp hw
    obtain ⟨xSmall, small⟩ := List.forall_mem_cons.mp small
    have first := noted_store h (some c) code x.1 (maskedByte (readByte code x.1 s) x.2.1 x.2.2)
    refine (ih (first.noRuns h) (first.wf wf) hw small).trans ?_
    rw [readByte_store h wf (some c) _ xSmall ho]
    obtain ⟨a, m, v⟩ := x
    by_cases hk : k = code
    · subst hk
      by_cases e : o = a
      · subst e
        have absent : w.lookup o = none := List.lookup_eq_none_iff.mpr fun y hy => by
          have other : o ≠ y.1 := fun e => fresh (List.mem_map.mpr ⟨y, hy, e.symm⟩)
          simpa using other
        simp [writtenByte, absent]
      · have other : (o == a) = false := by simpa using e
        simp [writtenByte, List.lookup_cons, other, e]
    · simp [hk]

end Sys2Proof.Proofs
end

section
/-! SUPPORT. Instructions on words of memory, and the bytes of a word. -/

namespace Sys2Proof.Proofs
open Sys2Proof.Machine Sys2Proof.Safety Sys2Proof.Laws
set_option Elab.async false

/-! ## Instructions on words of memory -/

theorem Clean_cons {code w : Nat} {ws : List Nat} {s : State} (h : Clean code (w :: ws) s) : Clean code ws s := fun x hx => h x (List.mem_cons_of_mem _ hx)

/-- Clean words are read without an error. -/
theorem readWords_clean {code : Nat} {ws : List Nat} {s : State} (hc : Clean code ws s) (c : CoreId) : readWords c code ws s = (false, s) := by
  induction ws with
  | nil => rfl
  | cons w ws ih =>
    have rest := ih (Clean_cons hc)
    unfold readWords at rest ⊢
    simp only [List.foldl_cons, checkWord_clean hc List.mem_cons_self, Option.isSome_none, Bool.or_false, Bool.false_eq_true, if_false]
    exact rest

/-- No bank of words that are awake holds the access. -/
theorem no_bank_asleep {code : Nat} {ws : List Nat} {s : State} (ha : ∀ w ∈ ws, bankReady (.sram code (8 * w)) s = true) :
    ((ws.filterMap fun w => bankOf (.sram code (8 * w))).find? fun b => s.banks[b] != .active) = none := by
  rw [List.find?_eq_none]
  intro b hb
  obtain ⟨w, hw, bank⟩ := List.mem_filterMap.mp hb
  have awake := ha w hw
  unfold bankReady at awake
  rw [bank] at awake
  simpa using awake

theorem maskWrite_append (c : CoreId) (code : Nat) (u w : WordWrite) (s : State) : maskWrite c code (u ++ w) s = maskWrite c code w (maskWrite c code u s) := by
  simp only [maskWrite, List.foldl_append]

/-- A masked write that meets no other is performed. -/
theorem maskCollide_none (c : CoreId) (code : Nat) (w : WordWrite) (s : State) : maskCollide c code w none s = (true, maskWrite c code w s) := by
  simp only [maskCollide, collide, if_true]

theorem foldl_maskWrite (c : CoreId) (code : Nat) (ws : List WordWrite) (s : State) :
    ws.foldl (fun s w => maskWrite c code w s) s = maskWrite c code ws.flatten s := by
  induction ws generalizing s with
  | nil => rfl
  | cons w ws ih => rw [List.foldl_cons, ih, List.flatten_cons, maskWrite_append]

/-- An instruction on clean words of banks that are awake, whose writes meet no other, makes its writes and retires. -/
theorem perform_bits {h : Hdr} {word : Word} {e lost : Eff} {code : Nat} {rds : List Nat} {ws : List WordWrite} {s : State} (hc : Clean code rds s)
    (ha : ∀ w ∈ rds, bankReady (.sram code (8 * w)) s = true) (m1 : h.meet = none) (m2 : ws.length ≤ 1 ∨ h.meet2 = none) :
    perform noAccess h word (.bits e code rds ws lost) s = retire h.core e (maskWrite h.core code ws.flatten s) := by
  simp only [perform, readWords_clean hc, no_bank_asleep ha, Bool.false_eq_true, if_false, m1, maskCollide_none, if_true]
  match ws with
  | [] => rfl
  | [w] => simp only [List.flatten_cons, List.flatten_nil, List.append_nil]
  | w :: w2 :: rest =>
    have second : h.meet2 = none := m2.resolve_left (by simp)
    simp only [second, maskCollide_none, foldl_maskWrite, ← maskWrite_append, List.flatten_cons, List.append_assoc]

/-- One that only reads, whatever it meets. -/
theorem perform_bits_read {h : Hdr} {word : Word} {e lost : Eff} {code : Nat} {rds : List Nat} {s : State} (hc : Clean code rds s)
    (ha : ∀ w ∈ rds, bankReady (.sram code (8 * w)) s = true) : perform noAccess h word (.bits e code rds [] lost) s = retire h.core e s := by
  simp only [perform, readWords_clean hc, no_bank_asleep ha, Bool.false_eq_true, if_false]

/-- What the core may write raises no trap. -/
theorem bitsAct_mayWrite {c : CoreId} {e lost : Eff} {rds : List Nat} {ws : List WordWrite} {s : State} (hw : ∀ w ∈ ws, ∀ x ∈ w, MayWrite c x.1 x.2.1 s) :
    bitsAct c s.cores[c].arch e rds ws lost s = .bits e ((domMem c).getD 0) rds ws lost := by
  have unlocked : (ws.any fun w => w.any fun x => rmuByte c x.1 s) = false := by
    simp only [List.any_eq_false, Bool.not_eq_true]
    exact fun w hw' x hx => (hw w hw' x hx).1
  have unmarked : (!s.cores[c].arch.priv && ws.any fun w => w.any fun x => markedByte c x.1 x.2.1 s) = false := by
    cases hp : s.cores[c].arch.priv with
    | true => rfl
    | false =>
      simp only [Bool.not_false, Bool.true_and, List.any_eq_false, Bool.not_eq_true]
      exact fun w hw' x hx => (hw w hw' x hx).2.resolve_left (by rw [hp]; exact Bool.false_ne_true)
  simp only [bitsAct, unmarked, unlocked, Bool.false_eq_true, if_false]

/-- A slot that only reads words of memory. -/
theorem exec_bits_read {i : Instr} {h : Hdr} {body : Arch → State → Act} {s : State} {e : Eff} {code : Nat} {rds : List Nat} {g : Arch → Arch} (r : Ready h s)
    (he : exec i s = issue i h body s) (hw : isReserved i = false) (hb : body s.cores[h.core].arch s = bitsAct h.core s.cores[h.core].arch e rds [] {} s)
    (hm : domMem h.core = some code) (hc : Clean code rds s) (ha : ∀ w ∈ rds, bankReady (.sram code (8 * w)) s = true)
    (hg : advance (slotEnd e s.cores[h.core].arch) = g s.cores[h.core].arch) : exec i s = .next (modArch h.core g s) := by
  refine exec_ready_modArch (f := fun a => advance (slotEnd e a)) r he hw ?_ hg
  rw [hb, bitsAct_mayWrite (fun _ h => by simp at h), hm]
  exact perform_bits_read hc ha

/-- A slot that makes masked writes: memory by `writtenByte`, its own core by its effect, and what is noted of a store. -/
theorem exec_bits_write {i : Instr} {h : Hdr} {body : Arch → State → Act} {s : State} {e lost : Eff} {code : Nat} {rds : List Nat} {ws : List WordWrite}
    {g : Arch → Arch} (r : Ready h s) (he : exec i s = issue i h body s) (hw : isReserved i = false)
    (hb : body s.cores[h.core].arch s = bitsAct h.core s.cores[h.core].arch e rds ws lost s) (hm : domMem h.core = some code) (hc : Clean code rds s)
    (ha : ∀ w ∈ rds, bankReady (.sram code (8 * w)) s = true) (m1 : h.meet = none) (m2 : ws.length ≤ 1 ∨ h.meet2 = none)
    (may : ∀ w ∈ ws, ∀ x ∈ w, MayWrite h.core x.1 x.2.1 s) (nodup : (ws.flatten.map Prod.fst).Nodup) (small : ∀ x ∈ ws.flatten, x.1 < 2 ^ 36)
    (inv : Safety.Inv s) (quiet : NoRuns s) (hg : advance (slotEnd e s.cores[h.core].arch) = g s.cores[h.core].arch) :
    ∃ t, exec i s = .next t ∧
      (∀ k o, o < 2 ^ 36 → readByte k o t = if k = code then writtenByte ws.flatten o (readByte k o s) else readByte k o s) ∧
      t.cores[h.core] = (modArch h.core g s).cores[h.core] ∧ t = { s with mem := t.mem, cores := t.cores, voter := t.voter, doms := t.doms } := by
  have noted := noted_maskWrite quiet h.core code ws.flatten
  refine ⟨retire h.core e (maskWrite h.core code ws.flatten s), ?_, fun k o ho => ?_, ?_, ?_⟩
  · refine exec_ready r he hw ?_ ?_
    · rw [hb, bitsAct_mayWrite may, hm]
      exact perform_bits hc ha m1 m2
    · change (maskWrite h.core code ws.flatten s).pairs = s.pairs
      rw [noted.rest]
  · exact readByte_maskWrite quiet inv h.core nodup small ho
  · rw [← modArch_ready (f := fun a => advance (slotEnd e a)) r.toIssues hg]
    unfold retire modArch
    rw [modCore_same, modCore_same, noted.own _ rfl]
  · unfold retire modArch modCore
    rw [noted.rest]

/-- Places in on-chip memory are below 4 GiB. -/
theorem locate_sram_lt {m : Master} {a code off : Nat} {s : State} (ha : a < 2 ^ 32) (h : locate m a s = .sram code off) : off < 2 ^ 32 := by
  unfold locate at h
  (repeat' split at h) <;> cases h <;> omega

theorem instAt_lt {c : CoreId} {x : Word} {n al off : Nat} {s : State} (h : instAt c x n al s = some off) : off < 2 ^ 32 := by
  unfold instAt at h
  split at h
  next hl =>
    dsimp only at h
    split at h
    · cases h
      exact locate_sram_lt x.isLt hl
    · cases h
  next => cases h

/-! ## Counters (R271) -/

/-- The four bytes of a whole write of a word. -/
theorem wholeWrite_four (off v : Nat) : wholeWrite off 4 v =
    [(off, 0xFF, BitVec.ofNat 8 v), (off + 1, 0xFF, BitVec.ofNat 8 (v / 256)), (off + 2, 0xFF, BitVec.ofNat 8 (v / 256 / 256)),
      (off + 3, 0xFF, BitVec.ofNat 8 (v / 256 / 256 / 256))] := rfl

theorem maskedByte_whole (b v : Byte) : maskedByte b 0xFF v = v := by
  show b &&& ~~~BitVec.allOnes 8 ||| v &&& BitVec.allOnes 8 = v
  rw [BitVec.not_allOnes, BitVec.and_zero, BitVec.zero_or, BitVec.and_allOnes]

theorem readNat_four (code off : Nat) (s : State) :
    readNat code off 4 s = leNat [readByte code off s, readByte code (off + 1) s, readByte code (off + 2) s, readByte code (off + 3) s] := rfl

/-- A word is the number of its bytes. -/
theorem leNat_bytes_four {v : Nat} (h : v < 2 ^ 32) :
    leNat [BitVec.ofNat 8 v, BitVec.ofNat 8 (v / 256), BitVec.ofNat 8 (v / 256 / 256), BitVec.ofNat 8 (v / 256 / 256 / 256)] = v := by
  simp only [leNat, BitVec.toNat_ofNat]
  omega

/-- Reading a word that a masked write put whole, with another byte behind it. -/
theorem readNat_wholeWrite {code off v : Nat} {x : WordWrite} {s t : State} (hv : v < 2 ^ 32) (ho : off + 3 < 2 ^ 36)
    (ht : ∀ k o, o < 2 ^ 36 → readByte k o t = if k = code then writtenByte (wholeWrite off 4 v ++ x) o (readByte k o s) else readByte k o s) :
    readNat code off 4 t = v := by
  rw [readNat_four, ht code off (by omega), ht code (off + 1) (by omega), ht code (off + 2) (by omega), ht code (off + 3) ho]
  refine Eq.trans ?_ (leNat_bytes_four hv)
  have apart : (off + 1 == off) = false ∧ (off + 2 == off) = false ∧ (off + 3 == off) = false ∧ (off + 2 == off + 1) = false ∧
      (off + 3 == off + 1) = false ∧ (off + 3 == off + 2) = false := by
    simp only [beq_eq_false_iff_ne]
    omega
  obtain ⟨h1, h2, h3, h4, h5, h6⟩ := apart
  simp only [wholeWrite_four, writtenByte, List.cons_append, List.lookup_cons, h1, h2, h3, h4, h5, h6, beq_self_eq_true, Option.map_some, Option.getD_some,
    maskedByte_whole, if_true]

/-- Every other byte stays. -/
theorem writtenByte_wholeWrite_other {off v o : Nat} (x : WordWrite) (b : Byte) (h : ¬(off ≤ o ∧ o < off + 4)) :
    writtenByte (wholeWrite off 4 v ++ x) o b = writtenByte x o b := by
  have apart : (o == off) = false ∧ (o == off + 1) = false ∧ (o == off + 2) = false ∧ (o == off + 3) = false := by
    simp only [beq_eq_false_iff_ne]
    omega
  obtain ⟨h0, h1, h2, h3⟩ := apart
  simp only [wholeWrite_four, writtenByte, List.cons_append, List.nil_append, List.lookup_cons, h0, h1, h2, h3]

/-- A write of fewer bits may be made wherever one of more may. -/
theorem MayWrite_mono {c : CoreId} {o : Nat} {m n : Byte} {s : State} (h : MayWrite c o n s) (hm : ∀ b, m.getLsbD b = true → n.getLsbD b = true) : MayWrite c o m s := by
  refine ⟨h.1, h.2.imp_right fun un => ?_⟩
  rw [← Bool.not_eq_true] at un ⊢
  refine mt (fun marked => ?_) un
  simp only [markedByte, Option.any_eq_true, Bool.and_eq_true, List.any_eq_true] at marked ⊢
  obtain ⟨im, him, inQ, b, hb, bit, mark⟩ := marked
  exact ⟨im, him, inQ, b, hb, hm b bit, mark⟩

theorem MayWrite_of_whole {c : CoreId} {o : Nat} {s : State} (h : MayWrite c o 0xFF s) (m : Byte) : MayWrite c o m s :=
  MayWrite_mono h fun b hb => by
    have small : b < 8 := BitVec.lt_of_getLsbD hb
    clear hb
    revert b
    decide

end Sys2Proof.Proofs
end

section
/-! SUPPORT. Counters (R271). -/

namespace Sys2Proof.Proofs
open Sys2Proof.Machine Sys2Proof.Safety Sys2Proof.Laws
set_option Elab.async false

/-- A predicate's result of a load becomes visible after two more slots. -/
theorem slotEnd_loadP {a : Arch} (h : a.opens = []) (h1 : a.rpt = none) (h2 : a.delay = none) (p : Pred) (b : Bool) :
    advance (slotEnd (outP p b 3) a) = ended (later (.p p) (one b) 2 a) := by
  cases b <;> simp [advance, slotEnd, outP, bitOf, one, Arch.settle, Arch.flags, ended, later, h, h1, h2]

/-- Nothing but retirement at the end of an ordinary slot. -/
theorem slotEnd_plain {a : Arch} (h : a.opens = []) (h1 : a.rpt = none) (h2 : a.delay = none) : advance (slotEnd {} a) = ended a := by
  simp [advance, slotEnd, Arch.settle, Arch.flags, ended, h, h1, h2]

/-- A write of a counter: CV whole and bits `x` of its flags. -/
theorem exec_counter {i : Instr} {h : Hdr} {rs1 : Reg} {body : Arch → State → Act} {code off v : Nat} {x : WordWrite} {rds : List Nat} {s : State} {e : Eff}
    {g : Arch → Arch} (r : Ready h s) (inst : InstAt h.core (s.cores[h.core].arch.reg rs1) 16 8 2 code off s) (he : exec i s = issue i h body s)
    (hw : isReserved i = false) (hb : body s.cores[h.core].arch s = bitsAct h.core s.cores[h.core].arch e rds [wholeWrite off 4 v ++ x] e s)
    (hr : rds ⊆ [off / 8, off / 8 + 1]) (hx : x = [] ∨ ∃ y, x = [(off + 8, y)]) (hv : v < 2 ^ 32) (m : h.meet = none)
    (may : ∀ i, i < 16 → MayWrite h.core (off + i) 0xFF s) (inv : Safety.Inv s) (quiet : NoRuns s)
    (hg : advance (slotEnd e s.cores[h.core].arch) = ended (g s.cores[h.core].arch)) :
    ∃ t, exec i s = .next t ∧ readNat code off 4 t = v ∧ readByte code (off + 8) t = writtenByte x (off + 8) (readByte code (off + 8) s) ∧
      (∀ k o, o < 2 ^ 36 → ¬(k = code ∧ (off ≤ o ∧ o < off + 4 ∨ o = off + 8)) → readByte k o t = readByte k o s) ∧
      t.cores[h.core] = (modArch h.core (fun a => ended (g a)) s).cores[h.core] ∧
      t = { s with mem := t.mem, cores := t.cores, voter := t.voter, doms := t.doms } := by
  have low := instAt_lt inst.place
  have words : ∀ w ∈ rds, ∃ i, i < 2 ∧ w = off / 8 + i := fun w hw => by
    rcases List.mem_cons.mp (hr hw) with e | e
    · exact ⟨0, by decide, e⟩
    · exact ⟨1, by decide, List.mem_singleton.mp e⟩
  have clean : Clean code rds s := fun w hw => by
    obtain ⟨i, hi, rfl⟩ := words w hw
    exact inst.clean i hi _ (List.mem_singleton_self _)
  have awake : ∀ w ∈ rds, bankReady (.sram code (8 * w)) s = true := fun w hw => by
    obtain ⟨i, hi, rfl⟩ := words w hw
    exact inst.awake i hi
  have places : ∀ y ∈ wholeWrite off 4 v ++ x, ∃ i, i < 16 ∧ y.1 = off + i := fun y hy => by
    rw [wholeWrite_four] at hy
    rcases hx with rfl | ⟨z, rfl⟩ <;> simp only [List.append_nil, List.cons_append, List.nil_append, List.mem_cons, List.not_mem_nil, or_false] at hy
    · rcases hy with rfl | rfl | rfl | rfl
      exacts [⟨0, by decide, rfl⟩, ⟨1, by decide, rfl⟩, ⟨2, by decide, rfl⟩, ⟨3, by decide, rfl⟩]
    · rcases hy with rfl | rfl | rfl | rfl | rfl
      exacts [⟨0, by decide, rfl⟩, ⟨1, by decide, rfl⟩, ⟨2, by decide, rfl⟩, ⟨3, by decide, rfl⟩, ⟨8, by decide, rfl⟩]
  have nodup : ((wholeWrite off 4 v ++ x).map Prod.fst).Nodup := by
    rcases hx with rfl | ⟨z, rfl⟩ <;> simp [wholeWrite_four]
  obtain ⟨t, ht, hmem, own, rest⟩ := exec_bits_write (g := fun a => ended (g a)) r he hw hb inst.memory clean awake m (.inl (Nat.le_refl 1))
    (fun w hw y hy => by
      rw [List.mem_singleton] at hw
      subst hw
      obtain ⟨i, hi, e⟩ := places y hy
      rw [e]
      exact MayWrite_of_whole (may i hi) _)
    (by simpa using nodup) (fun y hy => by
      rw [List.flatten_cons, List.flatten_nil, List.append_nil] at hy
      obtain ⟨i, hi, e⟩ := places y hy
      omega) inv quiet hg
  simp only [List.flatten_cons, List.flatten_nil, List.append_nil] at hmem
  refine ⟨t, ht, readNat_wholeWrite hv (by omega) hmem, ?_, fun k o ho other => ?_, own, rest⟩
  · rw [hmem code (off + 8) (by omega), if_pos rfl, writtenByte_wholeWrite_other x _ (by omega)]
  · rw [hmem k o ho]
    split
    next hk =>
      have outside : ¬(off ≤ o ∧ o < off + 4) ∧ o ≠ off + 8 := by
        refine ⟨fun a => other ⟨hk, .inl a⟩, fun a => other ⟨hk, .inr a⟩⟩
      rw [writtenByte_wholeWrite_other x _ outside.1]
      rcases hx with rfl | ⟨z, rfl⟩
      · rfl
      · have apart : (o == off + 8) = false := by simpa using outside.2
        simp [writtenByte, List.lookup_cons, apart]
    next => rfl

/-- The flag of the last input under a masked write. -/
theorem maskedByte_flag (f : Byte) (b : Bool) :
    maskedByte f 1 (if b then 1 else 0) = Sys2Proof.Machine.setBit f 0 b ∧ maskedByte f 2 (if b then 2 else 0) = Sys2Proof.Machine.setBit f 1 b := by
  revert f b
  decide +kernel

theorem clamped_toInt (x : Word) : clamped 32 x.toInt = x.toInt := by
  have := abs_le.mp (abs_toInt_le x)
  have := BitVec.toInt_lt (x := x)
  unfold clamped
  omega

theorem ofInt_clamped_toInt (x : Int) : (BitVec.ofInt 32 (clamped 32 x) : Word).toInt = clamped 32 x := by
  refine BitVec.toInt_ofInt_eq_self (by decide) ?_ ?_ <;> unfold clamped <;> omega

theorem readNat_four_lt (code off : Nat) (s : State) : readNat code off 4 s < 2 ^ 32 := by
  have h0 := (readByte code off s).isLt
  have h1 := (readByte code (off + 1) s).isLt
  have h2 := (readByte code (off + 2) s).isLt
  have h3 := (readByte code (off + 3) s).isLt
  rw [readNat_four]
  simp only [leNat]
  omega

/-- The next count: held where it does not count, and clamped where it does. -/
theorem counted_eq (go : Bool) (cv : Word) (d : Int) :
    (if go then (sat32 (cv.toInt + d)).1 else cv) = BitVec.ofInt 32 (if go then clamped 32 (cv.toInt + d) else cv.toInt) := by
  cases go
  · simp
  · simp [sat32_eq]

theorem ofInt_counted_toInt (go : Bool) (cv : Word) (d : Int) :
    (BitVec.ofInt 32 (if go then clamped 32 (cv.toInt + d) else cv.toInt) : Word).toInt = if go then clamped 32 (cv.toInt + d) else cv.toInt := by
  cases go
  · simp
  · exact ofInt_clamped_toInt _

/-- Settles O17: each row writes CV and its own flag bit. -/
theorem countersCountRisingInputs : Obligations.CountersCountRisingInputs := by
  unfold Obligations.CountersCountRisingInputs
  intro h pd pin rd rs1 code off s r inst
  dsimp only
  have a0 := r.noOpens
  have a1 := r.noRpt
  have a2 := r.noDelay
  refine ⟨?ctv, fun m may inv quiet => ⟨?ctu, ?ctd, ?crst, ?cld⟩⟩
  case ctv =>
    refine exec_bits_read (i := .ctv h rd rs1) (e := outG rd (BitVec.ofNat 32 (readNat code off 4 s)) 3) (rds := [off / 8]) r rfl rfl ?_ inst.memory (inst.clean 0 (by decide))
      (by simpa using inst.awake 0 (by decide)) (slotEnd_load a0 a1 a2 rd _)
    simp only [inst.place, inst.memory, Option.getD_some]
  case ctu =>
    obtain ⟨t, ht, cv, flag, rest⟩ := exec_counter (i := .ctu h pd rs1 pin) (body := countAct h.core pd rs1 pin true) (rds := [off / 8, off / 8 + 1])
      (g := later (.p pd) _ 2) r inst rfl rfl
      (by simp only [countAct, inst.place, inst.memory, Option.getD_some, if_true, counted_eq]; rfl)
      (List.Subset.refl _) (.inr ⟨_, rfl⟩) (BitVec.isLt _) m may inv quiet (slotEnd_loadP a0 a1 a2 pd _)
    rw [ofInt_counted_toInt] at rest
    exact ⟨t, ht, cv, by rw [flag, ← (maskedByte_flag _ _).1]; simp [writtenByte], rest⟩
  case ctd =>
    obtain ⟨t, ht, cv, flag, rest⟩ := exec_counter (i := .ctd h pd rs1 pin) (body := countAct h.core pd rs1 pin false) (rds := [off / 8, off / 8 + 1])
      (g := later (.p pd) _ 2) r inst rfl rfl
      (by simp only [countAct, inst.place, inst.memory, Option.getD_some, Bool.false_eq_true, if_false, Int.sub_eq_add_neg, counted_eq]; rfl)
      (List.Subset.refl _) (.inr ⟨_, rfl⟩) (BitVec.isLt _) m may inv quiet (slotEnd_loadP a0 a1 a2 pd _)
    rw [ofInt_counted_toInt] at rest
    exact ⟨t, ht, cv, by rw [flag, ← (maskedByte_flag _ _).2]; simp [writtenByte], rest⟩
  case crst =>
    exact exec_counter (i := .crst h rs1) (e := {}) (rds := [off / 8]) (x := []) (v := 0) (g := id) r inst rfl rfl (by simp only [inst.place, List.append_nil])
      (by simp) (.inl rfl) (by decide) m may inv quiet (slotEnd_plain a0 a1 a2)
  case cld =>
    have fits := readNat_four_lt code (off + 4) s
    have kept : (BitVec.ofInt 32 (BitVec.ofNat 32 (readNat code (off + 4) 4 s) : Word).toInt).toNat = readNat code (off + 4) 4 s := by
      rw [BitVec.ofInt_toInt, BitVec.toNat_ofNat, Nat.mod_eq_of_lt fits]
    rw [kept]
    exact exec_counter (i := .cld h rs1) (e := {}) (rds := [off / 8]) (x := []) (g := id) r inst rfl rfl
      (by simp only [inst.place, inst.memory, Option.getD_some, List.append_nil]) (by simp) (.inl rfl) fits m may inv quiet (slotEnd_plain a0 a1 a2)

end Sys2Proof.Proofs
end

section
/-! SUPPORT. Bit fields (R267). -/

namespace Sys2Proof.Proofs
open Sys2Proof.Machine Sys2Proof.Safety Sys2Proof.Laws
set_option Elab.async false

/-! ## Bit fields (R267) -/

/-- A list without repetitions. -/
theorem nodup_eraseDups {α : Type} [BEq α] [LawfulBEq α] (l : List α) : l.eraseDups.Nodup := by
  match l with
  | [] => exact List.nodup_nil
  | a :: l =>
    rw [List.eraseDups_cons]
    refine List.nodup_cons.mpr ⟨fun h => ?_, nodup_eraseDups _⟩
    have := (List.mem_filter.mp (List.mem_eraseDups.mp h)).2
    simp at this
termination_by l.length
decreasing_by simp only [List.length_cons]; exact Nat.lt_succ_of_le (List.length_filter_le _ _)

theorem enum_map_range (f : Nat → Nat) (w : Nat) : enum ((List.range w).map f) = (List.range w).map fun i => (i, f i) := by
  unfold enum
  refine List.ext_getElem (by simp) fun i h1 h2 => ?_
  simp

theorem exists_mem_enum {f : Nat → Nat} {k : Nat} {p : Nat → Nat → Prop} :
    (∃ x ∈ enum ((List.range (k + 1)).map f), p x.2 x.1) ↔ ∃ i, i ≤ k ∧ p (f i) i := by
  simp [enum_map_range, Nat.lt_succ_iff]

/-- The number whose bits below `w` are `f`'s. -/
def bitsNat (f : Nat → Bool) (w : Nat) : Nat := ((List.range w).map fun i => bitOf (f i) * 2 ^ i).sum

theorem bitsNat_succ (f : Nat → Bool) (w : Nat) : bitsNat f (w + 1) = 2 ^ w * bitOf (f w) + bitsNat f w := by
  simp [bitsNat, List.range_succ, Nat.mul_comm, Nat.add_comm]

theorem bitsNat_lt (f : Nat → Bool) (w : Nat) : bitsNat f w < 2 ^ w := by
  induction w with
  | zero => simp [bitsNat]
  | succ w ih =>
    rw [bitsNat_succ, Nat.pow_succ]
    cases f w <;> simp only [bitOf, if_true, Bool.false_eq_true, if_false] <;> omega

theorem testBit_bitsNat (f : Nat → Bool) (w j : Nat) : (bitsNat f w).testBit j = (decide (j < w) && f j) := by
  induction w with
  | zero => simp [bitsNat]
  | succ w ih =>
    rw [bitsNat_succ, Nat.testBit_two_pow_mul_add _ (bitsNat_lt f w), ih]
    by_cases below : j < w
    · simp [below, Nat.lt_succ_of_lt below]
    · by_cases top : j = w
      · subst top
        cases f j <;> simp [bitOf]
      · have above : ¬ j < w + 1 := by omega
        obtain ⟨d, hd⟩ : ∃ d, j - w = d + 1 := ⟨j - w - 1, by omega⟩
        rw [if_neg below, hd]
        cases f w <;> simp [bitOf, above, Nat.testBit_succ]

/-- A field read into a register: its bits, and above them zeros or its sign. -/
theorem getLsbD_field (f : Nat → Bool) {k : Nat} (hk : k < 32) (sgn : Bool) {i : Nat} (hi : i < 32) :
    (BitVec.ofNat 32 (if sgn && (bitsNat f (k + 1)).testBit k then bitsNat f (k + 1) + (2 ^ 32 - 2 ^ (k + 1)) else bitsNat f (k + 1))).getLsbD i =
      if i ≤ k then f i else sgn && f k := by
  have top : (bitsNat f (k + 1)).testBit k = f k := by simp [testBit_bitsNat]
  have fill : bitsNat f (k + 1) + (2 ^ 32 - 2 ^ (k + 1)) = 2 ^ (k + 1) * (2 ^ (32 - (k + 1)) - 1) + bitsNat f (k + 1) := by
    rw [Nat.mul_sub, ← Nat.pow_add, Nat.add_sub_cancel' (by omega : k + 1 ≤ 32), Nat.mul_one, Nat.add_comm]
  rw [top, BitVec.getLsbD_ofNat]
  by_cases negative : (sgn && f k) = true
  · rw [if_pos negative, fill, Nat.testBit_two_pow_mul_add _ (bitsNat_lt f _), testBit_bitsNat, Nat.testBit_two_pow_sub_one, negative]
    by_cases below : i < k + 1
    · simp [below, Nat.le_of_lt_succ below, hi]
    · simp [below, show ¬ i ≤ k by omega, hi]
      omega
  · rw [if_neg negative, testBit_bitsNat, Bool.eq_false_iff.mpr negative]
    by_cases below : i < k + 1
    · simp [below, Nat.le_of_lt_succ below, hi]
    · simp [below, show ¬ i ≤ k by omega]

/-- The bytes of a field in readable memory. -/
theorem bitFieldBytes_eq {c : CoreId} {area o k code : Nat} {at_ : Nat → Nat} {s : State} (h : FieldAt c area o (k + 1) code at_ s) :
    bitFieldBytes c area o (k + 1) s = some ((List.range (k + 1)).map at_) := by
  have last := h.place k (Nat.lt_succ_self k)
  have bytes : ((List.range (k + 1)).map fun i => (bitByte c area (o + i) s).getD 0) = (List.range (k + 1)).map at_ :=
    List.map_congr_left fun i hi => by rw [h.place i (List.mem_range.mp hi)]; rfl
  rw [bitFieldBytes, show o + (k + 1) - 1 = o + k by omega, last, Option.map_some, bytes]

/-- The reference in a register. -/
theorem field_reference {x : Word} {area o : Nat} (h : x = BitVec.ofNat 32 (area * 2 ^ 30 + o)) (small : area < 4 ∧ o < 2 ^ 30) :
    x.toNat / 2 ^ 30 = area ∧ x.toNat % 2 ^ 30 = o := by
  have value : x.toNat = area * 2 ^ 30 + o := by rw [h, BitVec.toNat_ofNat]; omega
  omega

/-- The words of a field. -/
theorem mem_fieldWords {at_ : Nat → Nat} {w x : Nat} (h : x ∈ (((List.range w).map at_).map (· / 8)).eraseDups) : ∃ i, i < w ∧ x = at_ i / 8 := by
  rw [List.mem_eraseDups, List.map_map, List.mem_map] at h
  obtain ⟨i, hi, e⟩ := h
  exact ⟨i, List.mem_range.mp hi, e.symm⟩

/-- They are clean and awake. -/
theorem fieldWords_clean {c : CoreId} {area o w code : Nat} {at_ : Nat → Nat} {s : State} (h : FieldAt c area o w code at_ s) :
    Clean code ((((List.range w).map at_).map (· / 8)).eraseDups) s ∧
    ∀ x ∈ (((List.range w).map at_).map (· / 8)).eraseDups, bankReady (.sram code (8 * x)) s = true := by
  refine ⟨fun x hx => ?_, fun x hx => ?_⟩ <;> obtain ⟨i, hi, rfl⟩ := mem_fieldWords hx
  · exact h.clean i hi _ (List.mem_singleton_self _)
  · rw [Nat.mul_comm]
    exact h.awake i hi

/-- BFLD reads its field. -/
theorem exec_bfld {h : Hdr} {rd rs1 : Reg} {wm1 : Fin 32} {sgn : Bool} {area o code : Nat} {at_ : Nat → Nat} {s : State} (r : Ready h s)
    (ref : s.cores[h.core].arch.reg rs1 = BitVec.ofNat 32 (area * 2 ^ 30 + o)) (f : FieldAt h.core area o (wm1.val + 1) code at_ s) :
    let bit (i : Nat) : Bool := (readByte code (at_ i) s).getLsbD ((o + i) % 8)
    ∃ v : Word, (∀ i, i < 32 → v.getLsbD i = if i ≤ wm1.val then bit i else sgn && bit wm1.val) ∧
      exec (.bfld h rd rs1 wm1 sgn) s = .next (modArch h.core (fun a => ended (later (.g rd) (v.setWidth 72) 2 a)) s) := by
  intro bit
  obtain ⟨hArea, ho⟩ := field_reference ref f.small
  refine ⟨_, fun i hi => getLsbD_field bit wm1.isLt sgn hi, ?_⟩
  refine exec_bits_read (i := .bfld h rd rs1 wm1 sgn) (rds := (((List.range (wm1.val + 1)).map at_).map (· / 8)).eraseDups) r rfl rfl ?_ f.memory (fieldWords_clean f).1 (fieldWords_clean f).2
    (slotEnd_load r.noOpens r.noRpt r.noDelay rd _)
  simp only [hArea, ho, bitFieldBytes_eq f, f.memory, Option.getD_some, enum_map_range, List.map_map]
  rfl

/-- The masked write of byte `b` of a field: the bits of `xs` that lie in it, and their values. -/
def fieldByte (o : Nat) (v : Word) (b : Nat) (xs : List (Nat × Nat)) : Nat × Byte × Byte :=
  xs.foldl (fun (m : Nat × Byte × Byte) x =>
    if x.2 = b then (b, m.2.1 ||| bitMask (o + x.1), if v.getLsbD x.1 then m.2.2 ||| bitMask (o + x.1) else m.2.2) else m) (b, 0, 0)

theorem getLsbD_bitMask (o : Nat) {j : Nat} (hj : j < 8) : (bitMask o).getLsbD j = decide (o % 8 = j) := by
  have small : o % 8 < 8 := Nat.mod_lt _ (by decide)
  unfold bitMask
  generalize o % 8 = k at small
  clear o
  revert j
  revert k
  decide

theorem fieldByte_concat (o : Nat) (v : Word) (b : Nat) (xs : List (Nat × Nat)) (x : Nat × Nat) :
    fieldByte o v b (xs ++ [x]) = if x.2 = b then (b, (fieldByte o v b xs).2.1 ||| bitMask (o + x.1),
      if v.getLsbD x.1 then (fieldByte o v b xs).2.2 ||| bitMask (o + x.1) else (fieldByte o v b xs).2.2) else fieldByte o v b xs := by
  simp only [fieldByte, List.foldl_append, List.foldl_cons, List.foldl_nil]

/-- What a byte's masked write writes. -/
theorem fieldByte_spec (o : Nat) (v : Word) (b : Nat) (xs : List (Nat × Nat)) : (fieldByte o v b xs).1 = b ∧ ∀ j, j < 8 →
    ((fieldByte o v b xs).2.1.getLsbD j = true ↔ ∃ x ∈ xs, x.2 = b ∧ (o + x.1) % 8 = j) ∧
    ((fieldByte o v b xs).2.2.getLsbD j = true ↔ ∃ x ∈ xs, x.2 = b ∧ (o + x.1) % 8 = j ∧ v.getLsbD x.1 = true) := by
  induction xs using List.reverseRecOn with
  | nil => simp [fieldByte]
  | append_singleton xs x ih =>
    obtain ⟨key, bits⟩ := ih
    rw [fieldByte_concat]
    by_cases hb : x.2 = b
    · rw [if_pos hb]
      refine ⟨rfl, fun j hj => ?_⟩
      obtain ⟨mask, value⟩ := bits j hj
      constructor
      · simp only [BitVec.getLsbD_or, getLsbD_bitMask _ hj, Bool.or_eq_true, decide_eq_true_eq, mask, List.mem_append, List.mem_singleton, or_and_right,
          exists_or, exists_eq_left, hb, true_and]
      · by_cases hv : v.getLsbD x.1 = true
        · simp only [hv, if_true, BitVec.getLsbD_or, getLsbD_bitMask _ hj, Bool.or_eq_true, decide_eq_true_eq, value, List.mem_append, List.mem_singleton,
            or_and_right, exists_or, exists_eq_left, hb, true_and, and_true]
        · simp only [hv, if_false, value, List.mem_append, List.mem_singleton, or_and_right, exists_or, exists_eq_left, and_false, or_false, Bool.false_eq_true]
    · rw [if_neg hb]
      refine ⟨key, fun j hj => ?_⟩
      obtain ⟨mask, value⟩ := bits j hj
      simp only [mask, value, List.mem_append, List.mem_singleton, or_and_right, exists_or, exists_eq_left, hb, false_and, or_false, and_self]

/-- The masked writes of BFST, by words. -/
def fieldWrites (o : Nat) (v : Word) (bs : List Nat) : List WordWrite :=
  ((bs.map (· / 8)).eraseDups).map fun k => ((bs.eraseDups).map fun b => fieldByte o v b (enum bs)).filter fun x => x.1 / 8 = k

theorem mem_fieldWrites {o : Nat} {v : Word} {bs : List Nat} {x : Nat × Byte × Byte} :
    x ∈ (fieldWrites o v bs).flatten ↔ ∃ b ∈ bs, x = fieldByte o v b (enum bs) := by
  simp only [fieldWrites, List.mem_flatten, List.mem_map, List.mem_eraseDups]
  constructor
  · rintro ⟨w, ⟨k, hk, rfl⟩, hx⟩
    obtain ⟨b, hb, rfl⟩ := List.mem_map.mp (List.mem_filter.mp hx).1
    exact ⟨b, List.mem_eraseDups.mp hb, rfl⟩
  · rintro ⟨b, hb, rfl⟩
    refine ⟨_, ⟨b / 8, ⟨b, hb, rfl⟩, rfl⟩, List.mem_filter.mpr ⟨List.mem_map.mpr ⟨b, List.mem_eraseDups.mpr hb, rfl⟩, ?_⟩⟩
    simp [(fieldByte_spec o v b (enum bs)).1]

theorem nodup_fieldWrites (o : Nat) (v : Word) (bs : List Nat) : ((fieldWrites o v bs).flatten.map Prod.fst).Nodup := by
  have keys : ((bs.eraseDups.map fun b => fieldByte o v b (enum bs)).map Prod.fst).Nodup := by
    have e : (bs.eraseDups.map fun b => fieldByte o v b (enum bs)).map Prod.fst = bs.eraseDups := by
      rw [List.map_map]
      exact (List.map_congr_left fun b _ => (fieldByte_spec o v b (enum bs)).1).trans (List.map_id _)
    rw [e]
    exact nodup_eraseDups bs
  rw [List.map_flatten, List.nodup_flatten]
  constructor
  · intro l hl
    simp only [fieldWrites, List.map_map, List.mem_map, Function.comp_apply] at hl
    obtain ⟨k, -, rfl⟩ := hl
    exact keys.sublist ((List.filter_sublist).map _)
  · simp only [fieldWrites, List.map_map]
    refine List.Pairwise.map _ (fun k l hkl => ?_) (nodup_eraseDups (bs.map (· / 8)))
    rw [List.disjoint_left]
    intro a ha hb
    simp only [Function.comp_apply, List.mem_map, List.mem_filter, decide_eq_true_eq] at ha hb
    obtain ⟨x, ⟨-, hx⟩, rfl⟩ := ha
    obtain ⟨y, ⟨-, hy⟩, e⟩ := hb
    exact hkl (by rw [← hx, ← hy, e])

/-- With one write for a byte, that write decides it. -/
theorem writtenByte_of_mem {w : WordWrite} (hw : (w.map Prod.fst).Nodup) {x : Nat × Byte × Byte} (hx : x ∈ w) (b : Byte) :
    writtenByte w x.1 b = maskedByte b x.2.1 x.2.2 := by
  have found : w.lookup x.1 = some x.2 := by
    induction w with
    | nil => simp at hx
    | cons y w ih =>
      obtain ⟨k, u⟩ := y
      obtain ⟨fresh, hw⟩ := List.nodup_cons.mp hw
      rcases List.mem_cons.mp hx with rfl | hx
      · exact List.lookup_cons_self
      · have other : (x.1 == k) = false := by
          rw [beq_eq_false_iff_ne]
          intro e
          exact fresh (List.mem_map.mpr ⟨x, hx, e⟩)
        rw [List.lookup_cons, other]
        exact ih hw hx
  rw [writtenByte, found]
  rfl

/-- Without one, nothing does. -/
theorem writtenByte_of_not_mem {w : WordWrite} {o : Nat} (h : ∀ x ∈ w, x.1 ≠ o) (b : Byte) : writtenByte w o b = b := by
  have absent : w.lookup o = none := List.lookup_eq_none_iff.mpr fun x hx => by simpa using (h x hx).symm
  rw [writtenByte, absent]
  rfl

theorem getLsbD_maskedByte (b m v : Byte) {j : Nat} (hj : j < 8) : (maskedByte b m v).getLsbD j = if m.getLsbD j then v.getLsbD j else b.getLsbD j := by
  unfold maskedByte
  simp only [BitVec.getLsbD_or, BitVec.getLsbD_and, BitVec.getLsbD_not, hj, decide_true, Bool.true_and]
  cases m.getLsbD j <;> simp

/-- A byte of %Q under a mask, where the core may write it: none of the mask's bits carries a command. -/
theorem not_marked_of_mayWrite {c : CoreId} {o j : Nat} {m : Byte} {s : State} {im : Image} (h : MayWrite c o m s) (hp : s.cores[c].arch.priv = false)
    (him : coreImage c s = some im) (inQ : im.areas.qBase ≤ o ∧ o < im.areas.qBase + im.areas.qLen) (hj : j < 8) (hm : m.getLsbD j = true) :
    bitMarked c (8 * (o - im.areas.qBase) + j) s = false := by
  have unmarked := h.2.resolve_left (by rw [hp]; exact Bool.false_ne_true)
  rw [← Bool.not_eq_true] at unmarked ⊢
  refine mt (fun marked => ?_) unmarked
  simp only [markedByte, Option.any_eq_true, Bool.and_eq_true, List.any_eq_true, decide_eq_true_eq]
  exact ⟨im, him, inQ, j, List.mem_range.mpr hj, hm, marked⟩

/-- The bits of a field that the core may write carry no command. -/
theorem field_not_marked {c : CoreId} {o w code : Nat} {at_ : Nat → Nat} {s : State} (f : FieldAt c 1 o w code at_ s)
    (may : ∀ i, i < w → MayWrite c (at_ i) (1#8 <<< ((o + i) % 8)) s) (hp : s.cores[c].arch.priv = false) :
    ((List.range w).any fun i => bitMarked c (o + i) s) = false := by
  simp only [List.any_eq_false, Bool.not_eq_true, List.mem_range]
  intro i hi
  have place := f.place i hi
  unfold bitByte at place
  split at place
  · cases place
  next im him =>
    simp only [Nat.one_ne_zero, if_false, if_true] at place
    split at place
    next hq =>
      have e : at_ i = im.areas.qBase + (o + i) / 8 := (Option.some.inj place).symm
      have small : (o + i) % 8 < 8 := Nat.mod_lt _ (by decide)
      have free := not_marked_of_mayWrite (j := (o + i) % 8) (may i hi) hp him (by omega) small
        (by have := getLsbD_bitMask (o + i) small; simpa [bitMask] using this)
      rw [show 8 * (at_ i - im.areas.qBase) + (o + i) % 8 = o + i by omega] at free
      exact free
    · cases place

/-- A byte's write of a field may be made where each of its bits may. -/
theorem mayWrite_fieldByte {c : CoreId} {o w b : Nat} {v : Word} {at_ : Nat → Nat} {s : State} (hb : b ∈ (List.range w).map at_)
    (may : ∀ i, i < w → MayWrite c (at_ i) (1#8 <<< ((o + i) % 8)) s) :
    MayWrite c b (fieldByte o v b (enum ((List.range w).map at_))).2.1 s := by
  obtain ⟨i0, h0, rfl⟩ := List.mem_map.mp hb
  refine ⟨(may i0 (List.mem_range.mp h0)).1, ?_⟩
  by_cases hp : s.cores[c].arch.priv = true
  · exact .inl hp
  · refine .inr ?_
    rw [← Bool.not_eq_true]
    intro marked
    simp only [markedByte, Option.any_eq_true, Bool.and_eq_true, List.any_eq_true, decide_eq_true_eq, List.mem_range] at marked
    obtain ⟨im, him, inQ, j, hj, bit, mark⟩ := marked
    obtain ⟨x, hx, e, place⟩ := ((fieldByte_spec o v (at_ i0) _).2 j hj).1.mp bit
    rw [enum_map_range] at hx
    obtain ⟨i, hi, rfl⟩ := List.mem_map.mp hx
    have free := not_marked_of_mayWrite (j := j) (may i (List.mem_range.mp hi)) (Bool.eq_false_iff.mpr hp) him (by rw [show at_ i = at_ i0 from e]; exact inQ) hj
      (by have := getLsbD_bitMask (o + i) hj; simpa [bitMask, place] using this)
    rw [show at_ i = at_ i0 from e, mark] at free
    cases free

/-- BFST writes its field and nothing outside it. -/
theorem exec_bfst {h : Hdr} {rd rs1 : Reg} {wm1 : Fin 32} {area o code : Nat} {at_ : Nat → Nat} {s : State} (r : Ready h s)
    (ref : s.cores[h.core].arch.reg rs1 = BitVec.ofNat 32 (area * 2 ^ 30 + o)) (f : FieldAt h.core area o (wm1.val + 1) code at_ s) (m1 : h.meet = none)
    (m2 : h.meet2 = none) (output : area ≠ 0) (may : ∀ i, i < wm1.val + 1 → MayWrite h.core (at_ i) (1#8 <<< ((o + i) % 8)) s) (inv : Safety.Inv s)
    (quiet : NoRuns s) (small : ∀ i, at_ i < 2 ^ 36) :
    ∃ t, exec (.bfst h rd rs1 wm1) s = .next t ∧
      (∀ k x, x < 2 ^ 36 → readByte k x t = if k = code
        then writtenByte (fieldWrites o (s.cores[h.core].arch.reg rd) ((List.range (wm1.val + 1)).map at_)).flatten x (readByte k x s) else readByte k x s) ∧
      t.cores[h.core] = (modArch h.core ended s).cores[h.core] ∧ t = { s with mem := t.mem, cores := t.cores, voter := t.voter, doms := t.doms } := by
  obtain ⟨hArea, ho⟩ := field_reference ref f.small
  have unmarked : (decide (area = 1) && !s.cores[h.core].arch.priv && (List.range (wm1.val + 1)).any fun i => bitMarked h.core (o + i) s) = false := by
    by_cases hq : area = 1
    · subst hq
      cases hp : s.cores[h.core].arch.priv with
      | true => simp
      | false => rw [field_not_marked f may hp, Bool.and_false]
    · simp [hq]
  have writes : ∀ x ∈ (fieldWrites o (s.cores[h.core].arch.reg rd) ((List.range (wm1.val + 1)).map at_)).flatten,
      MayWrite h.core x.1 x.2.1 s ∧ x.1 < 2 ^ 36 := fun x hx => by
    obtain ⟨b, hb, rfl⟩ := mem_fieldWrites.mp hx
    rw [(fieldByte_spec o _ b _).1]
    obtain ⟨i, hi, rfl⟩ := List.mem_map.mp hb
    exact ⟨mayWrite_fieldByte hb may, small i⟩
  refine exec_bits_write (i := .bfst h rd rs1 wm1) (e := {}) (lost := {}) (g := ended) (rds := (((List.range (wm1.val + 1)).map at_).map (· / 8)).eraseDups) r rfl rfl ?_ f.memory
    (fieldWords_clean f).1 (fieldWords_clean f).2 m1 (.inr m2) (fun w hw x hx => (writes x (List.mem_flatten.mpr ⟨w, hw, hx⟩)).1)
    (nodup_fieldWrites _ _ _) (fun x hx => (writes x hx).2) inv quiet (slotEnd_plain r.noOpens r.noRpt r.noDelay)
  simp only [hArea, ho, unmarked, bitFieldBytes_eq f, output, Bool.false_eq_true, if_false]
  rfl

/-- Settles O15: BFLD by the bits of its number, BFST by the masks of its bytes. -/
theorem bitFieldsMoveBetweenMemoryAndRegister : Obligations.BitFieldsMoveBetweenMemoryAndRegister := by
  unfold Obligations.BitFieldsMoveBetweenMemoryAndRegister
  intro h rd rs1 wm1 sgn area o code at_ s r ref f
  dsimp only
  refine ⟨?load, fun m1 m2 output may inv quiet small => ?store⟩
  case load =>
    obtain ⟨v, bits, e⟩ := exec_bfld (rd := rd) (sgn := sgn) r ref f
    exact ⟨_, v, e, rfl, bits⟩
  case store =>
    obtain ⟨t, e, hmem, own, rest⟩ := exec_bfst (rd := rd) r ref f m1 m2 output (fun i hi => may i (Nat.le_of_lt_succ hi)) inv quiet small
    refine ⟨t, e, own, fun k off j hoff hj => ?_, rest⟩
    rw [hmem k off hoff]
    by_cases hk : k = code
    · subst hk
      rw [if_pos rfl]
      by_cases hb : off ∈ (List.range (wm1.val + 1)).map at_
      · have written := writtenByte_of_mem (nodup_fieldWrites o (s.cores[h.core].arch.reg rd) _) (mem_fieldWrites.mpr ⟨off, hb, rfl⟩) (readByte k off s)
        obtain ⟨key, bits⟩ := fieldByte_spec o (s.cores[h.core].arch.reg rd) off (enum ((List.range (wm1.val + 1)).map at_))
        obtain ⟨mask, value⟩ := bits j hj
        rw [exists_mem_enum (p := fun b i => b = off ∧ (o + i) % 8 = j)] at mask
        rw [exists_mem_enum (p := fun b i => b = off ∧ (o + i) % 8 = j ∧ (s.cores[h.core].arch.reg rd).getLsbD i = true)] at value
        rw [key] at written
        rw [written, getLsbD_maskedByte _ _ _ hj]
        by_cases inField : ∃ i, i ≤ wm1.val ∧ at_ i = off ∧ (o + i) % 8 = j
        · rw [if_pos (mask.mpr inField), if_pos ⟨rfl, inField⟩, Bool.eq_iff_iff, value, decide_eq_true_eq]
        · rw [if_neg (mt mask.mp inField), if_neg (fun e => inField e.2)]
      · have untouched : ∀ x ∈ (fieldWrites o (s.cores[h.core].arch.reg rd) ((List.range (wm1.val + 1)).map at_)).flatten, x.1 ≠ off := fun x hx e => by
          obtain ⟨b, hb', rfl⟩ := mem_fieldWrites.mp hx
          rw [(fieldByte_spec o _ b _).1] at e
          exact hb (e ▸ hb')
        have outside : ¬∃ i, i ≤ wm1.val ∧ at_ i = off ∧ (o + i) % 8 = j := by
          rintro ⟨i, hi, e, -⟩
          exact hb (List.mem_map.mpr ⟨i, List.mem_range.mpr (Nat.lt_succ_of_le hi), e⟩)
        rw [writtenByte_of_not_mem untouched, if_neg (fun e => outside e.2)]
    · rw [if_neg hk, if_neg (fun e => hk e.1)]

end Sys2Proof.Proofs
end

section
/-! SUPPORT. The route-matrix unit (R123 to R130). -/

namespace Sys2Proof.Proofs
open Sys2Proof.Machine Sys2Proof.Safety Sys2Proof.Laws
set_option Elab.async false

/-! ## The route-matrix unit (R123 to R130) -/

/-- Lane `l`'s unit after `f`. -/
def updRmu (l : Fin 3) (f : Rmu → Rmu) (s : State) : State := { s with rmus := s.rmus.set l (f s.rmus[l]) }

/-- An operation is counted. -/
def countOp (x : Rmu) : Rmu := { x with ops := inc x.ops }

/-- The result word of an operation. -/
def rmuResult (v : Word) (o first : Nat) : Word := pack [(v.toNat % 4096, 0), (first, 16), (o, 28)]

theorem rmuResult_toNat (v : Word) {o first : Nat} (ho : o < 16) (hf : first < 4096) :
    (rmuResult v o first).toNat = v.toNat % 4096 + first * 2 ^ 16 + o * 2 ^ 28 := by
  unfold rmuResult pack
  rw [List.foldl_cons, List.foldl_cons, List.foldl_cons, List.foldl_nil, Nat.zero_add, Nat.pow_zero, Nat.mul_one, BitVec.toNat_ofNat]
  exact Nat.mod_eq_of_lt (by dsimp only; omega)

/-- The words that an operation of unit `r` meets. -/
def rmuWords (r : Rmu) (op : Fin 3) (n : Nat) : List Nat :=
  ((List.range 64).map fun i => r.lvec.toNat % 2 ^ 24 / 8 + i) ++
    if op = 2 then [] else (List.range 64).map fun i => (r.base.toNat % 2 ^ 24 + 512 * n) / 8 + i

/-- Bit `i` of the vector at `base` in lane `l`'s memory. -/
def vecBit (l : Fin 3) (base i : Nat) (s : State) : Bool := (readByte (laneMem l) (base + i / 8) s).getLsbD (i % 8)

/-- The lock bit's write, in the vector at `lv`. -/
def setLock (l : Fin 3) (lv n : Nat) (b : Bool) (s : State) : State :=
  store none (laneMem l) (lv + n / 8) [Sys2Proof.Machine.setBit (readByte (laneMem l) (lv + n / 8) s) (n % 8) b] s

/-- What an operation of unit `r` on readable words comes to (R125, R126). -/
def rmuDecide (l op : Fin 3) (v : Word) (r : Rmu) (s : State) : Word × State :=
  let n := v.toNat
  let lv := r.lvec.toNat % 2 ^ 24
  let row := r.base.toNat % 2 ^ 24 + 512 * n
  let locked := vecBit l lv n s
  if op = 2 then if locked then (rmuResult v 4 0, setLock l lv n false s) else (rmuResult v 5 0, s)
  else if locked then (rmuResult v 3 0, s)
  else match (List.range 4096).find? fun i => i ≠ n && vecBit l row i s && vecBit l lv i s with
    | some f => (rmuResult v 2 f, updRmu l (fun x => { x with conf := inc x.conf }) s)
    | none => if op = 1 then (rmuResult v 1 0, setLock l lv n true s) else (rmuResult v 0 0, s)

theorem rmuOp_unarmed {l : Fin 3} {s : State} (op : Fin 3) (v : Word) (h : s.rmus[l].armed = false) :
    rmuOp l op v s = (rmuResult v 7 0, updRmu l (fun x => { x with err := Sys2Proof.Machine.setBit x.err 2 true }) (updRmu l countOp s)) := by
  unfold rmuOp
  exact if_pos (by rw [h]; rfl)

theorem rmuOp_badRoute {l : Fin 3} {s : State} (op : Fin 3) {v : Word} (h : s.rmus[l].armed = true) (hv : s.rmus[l].routes.toNat ≤ v.toNat) :
    rmuOp l op v s = (rmuResult v 6 0, updRmu l countOp s) := by
  unfold rmuOp
  exact (if_neg (by rw [h]; decide)).trans (if_pos hv)

/-- A route of the table, whose words are clean. -/
theorem rmuOp_inTable {l : Fin 3} {s : State} (op : Fin 3) {v : Word} (h : InTable l v.toNat s) :
    rmuOp l op v s = rmuDecide l op v s.rmus[l] (updRmu l countOp s) := by
  obtain ⟨armed, route, clean⟩ := h
  have sound : Clean (laneMem l) (rmuWords s.rmus[l] op v.toNat) (updRmu l countOp s) := fun w hw => by
    refine clean w ?_
    unfold rmuWords at hw
    split at hw
    · exact List.mem_append_left _ (by simpa using hw)
    · exact hw
  have read := readWords_clean sound (laneCore l 0)
  unfold rmuOp
  refine (if_neg (by rw [armed]; decide)).trans ((if_neg (Nat.not_le.mpr route)).trans ?_)
  dsimp only
  generalize hz : readWords _ _ _ _ = z
  obtain rfl : z = (false, updRmu l countOp s) := hz.symm.trans read
  refine (if_neg Bool.false_ne_true).trans ?_
  unfold rmuDecide vecBit
  dsimp only
  split_ifs
  · rfl
  · rfl
  · rfl
  · generalize List.find? _ _ = x
    cases x <;> rfl
  · generalize List.find? _ _ = x
    cases x <;> rfl

/-- The route's lock bit and its row do not see the count of operations. -/
theorem vecBit_counted (l : Fin 3) (base i : Nat) (f : Rmu → Rmu) (s : State) : vecBit l base i (updRmu l f s) = vecBit l base i s := rfl

/-- Without a conflict. -/
theorem no_conflict {l : Fin 3} {n : Nat} {s : State} (free : ∀ i, i < 4096 → i ≠ n → rowBit l n i s = true → laneLockBit l i s = false) :
    ((List.range 4096).find? fun i => i ≠ n && vecBit l (s.rmus[l].base.toNat % 2 ^ 24 + 512 * n) i s && vecBit l (s.rmus[l].lvec.toNat % 2 ^ 24) i s) = none := by
  rw [List.find?_eq_none]
  intro i hi
  simp only [Bool.and_eq_true, decide_eq_true_eq, not_and, Bool.not_eq_true]
  exact fun other => free i (List.mem_range.mp hi) other.1 other.2

/-- The first conflict. -/
theorem first_conflict {l : Fin 3} {n i : Nat} {s : State} (hi : i < 4096) (other : i ≠ n) (row : rowBit l n i s = true) (locked : laneLockBit l i s = true)
    (first : ∀ j, j < i → j ≠ n → rowBit l n j s = true → laneLockBit l j s = false) :
    ((List.range 4096).find? fun i => i ≠ n && vecBit l (s.rmus[l].base.toNat % 2 ^ 24 + 512 * n) i s && vecBit l (s.rmus[l].lvec.toNat % 2 ^ 24) i s) = some i := by
  rw [List.find?_range_eq_some]
  refine ⟨?_, List.mem_range.mpr hi, fun j hj => ?_⟩
  · simp only [Bool.and_eq_true, decide_eq_true_eq]
    exact ⟨⟨other, row⟩, locked⟩
  · have free := first j hj
    have e : ¬((j ≠ n ∧ rowBit l n j s = true) ∧ laneLockBit l j s = true) := fun ⟨⟨h1, h2⟩, h3⟩ => by rw [free h1 h2] at h3; cases h3
    rw [Bool.not_eq_true', ← Bool.not_eq_true]
    intro he
    simp only [Bool.and_eq_true, decide_eq_true_eq] at he
    exact e he

/-- CHECK and LOCK of a free route without a conflict. -/
theorem rmuDecide_free {l op : Fin 3} {v : Word} {s : State} (h2 : op ≠ 2) (unlocked : laneLockBit l v.toNat s = false)
    (free : ∀ i, i < 4096 → i ≠ v.toNat → rowBit l v.toNat i s = true → laneLockBit l i s = false) :
    rmuDecide l op v s.rmus[l] (updRmu l countOp s) = if op = 1 then (rmuResult v 1 0, setLock l (s.rmus[l].lvec.toNat % 2 ^ 24) v.toNat true (updRmu l countOp s))
      else (rmuResult v 0 0, updRmu l countOp s) := by
  have open_ : vecBit l (s.rmus[l].lvec.toNat % 2 ^ 24) v.toNat (updRmu l countOp s) = false := unlocked
  unfold rmuDecide
  simp only [open_, h2, Bool.false_eq_true, if_false, vecBit_counted, no_conflict free]

/-- CHECK and LOCK of a free route with a conflict. -/
theorem rmuDecide_conflict {l op : Fin 3} {v : Word} {i : Nat} {s : State} (h2 : op ≠ 2) (unlocked : laneLockBit l v.toNat s = false)
    (hi : i < 4096) (other : i ≠ v.toNat) (row : rowBit l v.toNat i s = true) (locked : laneLockBit l i s = true)
    (first : ∀ j, j < i → j ≠ v.toNat → rowBit l v.toNat j s = true → laneLockBit l j s = false) :
    rmuDecide l op v s.rmus[l] (updRmu l countOp s) =
      (rmuResult v 2 i, updRmu l (fun x => { x with conf := inc x.conf }) (updRmu l countOp s)) := by
  have open_ : vecBit l (s.rmus[l].lvec.toNat % 2 ^ 24) v.toNat (updRmu l countOp s) = false := unlocked
  unfold rmuDecide
  simp only [open_, h2, Bool.false_eq_true, if_false, vecBit_counted, first_conflict hi other row locked first]

/-- CHECK and LOCK of a locked route. -/
theorem rmuDecide_locked {l op : Fin 3} {v : Word} {s : State} (h2 : op ≠ 2) (locked : laneLockBit l v.toNat s = true) :
    rmuDecide l op v s.rmus[l] (updRmu l countOp s) = (rmuResult v 3 0, updRmu l countOp s) := by
  have shut : vecBit l (s.rmus[l].lvec.toNat % 2 ^ 24) v.toNat (updRmu l countOp s) = true := locked
  unfold rmuDecide
  simp only [shut, h2, if_true, if_false]

/-- RELEASE. -/
theorem rmuDecide_release (l : Fin 3) (v : Word) (s : State) :
    rmuDecide l 2 v s.rmus[l] (updRmu l countOp s) = if laneLockBit l v.toNat s
      then (rmuResult v 4 0, setLock l (s.rmus[l].lvec.toNat % 2 ^ 24) v.toNat false (updRmu l countOp s)) else (rmuResult v 5 0, updRmu l countOp s) := by
  unfold rmuDecide
  exact if_pos rfl

/-- What an operation leaves, and the contribution it hands in. -/
structure RmuLeaves (l : Fin 3) (w : List (Nat × Byte)) (u : Rmu) (s t : State) : Prop where
  noted : Noted none { s with rmus := s.rmus.set l { u with ops := inc s.rmus[l].ops } } t
  wrote : Wrote (1 + l.val) w s t

/-- An RMU instruction holds its core and hands in its lane's result. -/
theorem exec_rmu {i : Instr} {h : Hdr} {rd rs : Reg} {op : Fin 3} {s t : State} {l : Fin 3} {g : Fin 2} {z : Word} {w : List (Nat × Byte)} {u : Rmu} (r : Ready h s)
    (hl : laneOf h.core = some (l, g)) (hx : (ixlOf s).map (·.1) = some g) (hp : s.cores[h.core].arch.priv = true) (hv : MayVote l g s)
    (he : exec i s = issue i h (rmuAct h.core op rd rs) s) (hw : isReserved i = false) (hz : rmuOp l op (s.cores[h.core].arch.reg rs) s = (z, t))
    (ht : RmuLeaves l w u s t) :
    ∃ t, exec i s = .next t ∧ Offers l g .rmu (leBytes 4 z.toNat) (stateCrc l g t) s t ∧ Wrote (1 + l.val) w s t ∧
      t.rmus = s.rmus.set l { u with ops := inc s.rmus[l].ops } ∧ t.cores[h.core].hold = .rmu rd op (s.cores[h.core].arch.reg rs) ∧
      t.cores[h.core].arch.g = s.cores[h.core].arch.g ∧ t.cores[h.core].arch.ia = s.cores[h.core].arch.ia ∧
      t = { s with mem := t.mem, cores := t.cores, voter := t.voter, doms := t.doms, rmus := t.rmus } := by
  obtain ⟨⟨-, cores, voter, -, -, rest⟩, wrote⟩ := ht
  have works : ((ixlOf s).any fun x => x.1 == g) = true := by
    cases hi : ixlOf s with
    | none => rw [hi] at hx; cases hx
    | some x => rw [hi] at hx; simpa using hx
  have asks : rmuAct h.core op rd rs s.cores[h.core].arch s = .rmu op rd (s.cores[h.core].arch.reg rs) := by
    simp only [rmuAct, hp, hl, works, Bool.not_true, Bool.false_eq_true, if_false, if_true]
  have may : MayVote l g (modCore h.core (fun k => { k with hold := .rmu rd op (s.cores[h.core].arch.reg rs) }) t) := by
    unfold MayVote
    rw [(modCore_keeps _ _ _).2.2.2.2.2.2.2.2.1, voter]
    exact hv
  obtain ⟨p, taken, e⟩ := contribute_offers (x := { kind := .rmu, items := leBytes 4 z.toNat, crc := stateCrc l g t }) may
  have done : exec i s = .next (contribute l g { kind := .rmu, items := leBytes 4 z.toNat, crc := stateCrc l g t }
      (modCore h.core (fun k => { k with hold := .rmu rd op (s.cores[h.core].arch.reg rs) }) t)) := by
    refine exec_ready r he hw ?_ ?_
    · rw [asks]
      simp only [perform, hl, hz]
    · rw [e]
      change t.pairs = s.pairs
      rw [rest]
  rw [e] at done
  have own : (modCore h.core (fun k => { k with hold := .rmu rd op (s.cores[h.core].arch.reg rs) }) t).cores[h.core] =
      { t.cores[h.core] with hold := .rmu rd op (s.cores[h.core].arch.reg rs) } := modCore_same _ _ _
  rw [cores h.core] at own
  refine ⟨_, done, ⟨p, by simp, taken, ?_⟩, wrote, ?_, congrArg Core.hold own, congrArg (fun k => k.arch.g) own, congrArg (fun k => k.arch.ia) own, ?_⟩
  · exact congrArg (fun v : Voter => { v with grp := v.grp.set g { v.grp[g] with vp := some p } }) voter
  · exact congrArg State.rmus rest
  · unfold modCore
    rw [rest]

/-- An operation that writes no lock bit. -/
theorem rmuLeaves_updRmu {l : Fin 3} {u : Rmu} {s t : State} (h : t = { s with rmus := s.rmus.set l { u with ops := inc s.rmus[l].ops } }) :
    RmuLeaves l [] u s t := by
  subst h
  exact ⟨Noted.refl _ _, fun k o _ => by simp; rfl⟩

/-- An operation that writes the route's lock bit. -/
theorem rmuLeaves_setLock {l : Fin 3} {n : Nat} {b : Bool} {s : State} (inv : Safety.Inv s) (quiet : NoRuns s) (hn : n < 2 ^ 32) :
    RmuLeaves l [(s.rmus[l].lvec.toNat % 2 ^ 24 + n / 8, Sys2Proof.Machine.setBit (readByte (laneMem l) (s.rmus[l].lvec.toNat % 2 ^ 24 + n / 8) s) (n % 8) b)]
      s.rmus[l] s (setLock l (s.rmus[l].lvec.toNat % 2 ^ 24) n b (updRmu l countOp s)) := by
  have quiet' : NoRuns (updRmu l countOp s) := noRuns_of_solvers quiet rfl
  refine ⟨noted_store quiet' none _ _ _, fun k o ho => ?_⟩
  have low : s.rmus[l].lvec.toNat % 2 ^ 24 < 2 ^ 24 := Nat.mod_lt _ (by decide)
  unfold setLock
  rw [readByte_store quiet' inv none _ (by omega) ho]
  by_cases hk : k = laneMem l
  · subst hk
    by_cases place : o = s.rmus[l].lvec.toNat % 2 ^ 24 + n / 8
    · have found : (o == s.rmus[l].lvec.toNat % 2 ^ 24 + n / 8) = true := by simpa using place
      rw [if_pos ⟨rfl, place⟩, if_pos (show laneMem l = 1 + l.val from rfl), List.lookup_cons, found]
      rfl
    · have other : (o == s.rmus[l].lvec.toNat % 2 ^ 24 + n / 8) = false := by simpa using place
      simp only [place, and_false, if_false, List.lookup_cons, other, List.lookup_nil, Option.getD_none, ite_self]
      rfl
  · rw [if_neg (fun e => hk e.1), if_neg (show ¬ k = 1 + l.val from hk)]
    rfl

/-- Settles O19: the operations by `rmuOp`'s cases, and the contribution of a member. -/
theorem rmuInstructionsLockAndReleaseRoutes : Obligations.RmuInstructionsLockAndReleaseRoutes := by
  unfold Obligations.RmuInstructionsLockAndReleaseRoutes
  intro h rd rs s l g r hl hx hp hv inv quiet
  dsimp only
  have word (o first : Nat) (ho : o < 16) (hf : first < 4096) := rmuResult_toNat (s.cores[h.core].arch.reg rs) ho hf
  refine ⟨fun hin free => ?check, fun hin free => ?lock, fun hin locked => ?release, fun hin unlocked i hi other row locked first => ⟨?lockConflict, ?checkConflict⟩,
    fun hin locked => ?already, fun hin unlocked => ?notLocked, fun off => ?unarmed, fun on beyond => ?badRoute⟩
  case check =>
    have op := rmuOp_inTable 0 hin
    rw [rmuDecide_free (by decide) free.1 free.2, if_neg (by decide)] at op
    simpa only [word 0 0 (by decide) (by decide)] using
      exec_rmu (i := .rmuCheck h rd rs) (rd := rd) r hl hx hp hv rfl rfl op (rmuLeaves_updRmu rfl)
  case lock =>
    have op := rmuOp_inTable 1 hin
    rw [rmuDecide_free (by decide) free.1 free.2, if_pos rfl] at op
    have e := exec_rmu (i := .rmuLock h rd rs) (rd := rd) r hl hx hp hv rfl rfl op (rmuLeaves_setLock inv quiet (BitVec.isLt _))
    rw [word 1 0 (by decide) (by decide)] at e
    exact e
  case release =>
    have op := rmuOp_inTable 2 hin
    rw [rmuDecide_release, if_pos locked] at op
    have e := exec_rmu (i := .rmuRelease h rd rs) (rd := rd) r hl hx hp hv rfl rfl op (rmuLeaves_setLock inv quiet (BitVec.isLt _))
    rw [word 4 0 (by decide) (by decide)] at e
    exact e
  case lockConflict =>
    have op := rmuOp_inTable 1 hin
    rw [rmuDecide_conflict (by decide) unlocked hi other row locked first] at op
    simpa only [word 2 i (by decide) hi] using
      exec_rmu (i := .rmuLock h rd rs) (rd := rd) (u := { s.rmus[l] with conf := inc s.rmus[l].conf }) r hl hx hp hv rfl rfl op
        (rmuLeaves_updRmu (by simp [updRmu, countOp]))
  case checkConflict =>
    have op := rmuOp_inTable 0 hin
    rw [rmuDecide_conflict (by decide) unlocked hi other row locked first] at op
    simpa only [word 2 i (by decide) hi] using
      exec_rmu (i := .rmuCheck h rd rs) (rd := rd) (u := { s.rmus[l] with conf := inc s.rmus[l].conf }) r hl hx hp hv rfl rfl op
        (rmuLeaves_updRmu (by simp [updRmu, countOp]))
  case already =>
    have op := rmuOp_inTable 1 hin
    rw [rmuDecide_locked (by decide) locked] at op
    simpa only [word 3 0 (by decide) (by decide)] using
      exec_rmu (i := .rmuLock h rd rs) (rd := rd) r hl hx hp hv rfl rfl op (rmuLeaves_updRmu rfl)
  case notLocked =>
    have op := rmuOp_inTable 2 hin
    rw [rmuDecide_release, unlocked, if_neg Bool.false_ne_true] at op
    simpa only [word 5 0 (by decide) (by decide)] using
      exec_rmu (i := .rmuRelease h rd rs) (rd := rd) r hl hx hp hv rfl rfl op (rmuLeaves_updRmu rfl)
  case unarmed =>
    have op := rmuOp_unarmed 1 (s.cores[h.core].arch.reg rs) off
    simpa only [word 7 0 (by decide) (by decide)] using
      exec_rmu (i := .rmuLock h rd rs) (rd := rd) (u := { s.rmus[l] with err := s.rmus[l].err ||| 4 }) r hl hx hp hv rfl rfl op
        (rmuLeaves_updRmu (by simp [updRmu, countOp, Sys2Proof.Machine.setBit]))
  case badRoute =>
    have op := rmuOp_badRoute 1 on beyond
    simpa only [word 6 0 (by decide) (by decide)] using
      exec_rmu (i := .rmuLock h rd rs) (rd := rd) r hl hx hp hv rfl rfl op (rmuLeaves_updRmu rfl)

end Sys2Proof.Proofs
end

section
/-! SUPPORT. Shadow reads and the clock (R36, R206, R426 to R436). -/

namespace Sys2Proof.Proofs
open Sys2Proof.Machine Sys2Proof.Safety Sys2Proof.Laws
set_option Elab.async false

/-! ## A bit after a bit is set -/

theorem setBit_true_getLsbD {n : Nat} (w : BitVec n) {i b : Nat} (h : w.getLsbD b = true) : (Sys2Proof.Machine.setBit w i true).getLsbD b = true := by
  simp [Sys2Proof.Machine.setBit, h]

theorem setBit_true_same {n : Nat} (w : BitVec n) {i : Nat} (h : i < n) : (Sys2Proof.Machine.setBit w i true).getLsbD i = true := by
  simp [Sys2Proof.Machine.setBit, h]

/-- A raised interrupt is pending. -/
theorem raiseIrq_pending (c : CoreId) (bit : Fin 7) (s : State) (h : bit.val < 32) : (raiseIrq c bit s).cores[c].arch.ipend.getLsbD bit.val = true := by
  unfold raiseIrq modArch
  rw [modCore_same]
  exact setBit_true_same _ h

/-! ## Shadow reads (R36, R206, R436) -/

theorem regAt_on {p : Pd} (m : Master) (f : State → State) {s : State} (h : pdOn p s = true) : regAt p m f s = f (answer .ok 0 s) := if_pos h

theorem rtcBegin_open (i : Fin 5) {s : State} (h : ∃ t0, s.rtc.shadow[i].start = some t0 ∧ (s.cyc.tb - t0).toNat < 1250000) : rtcBegin i s = s := by
  obtain ⟨t0, ht, hl⟩ := h
  have hopen : (s.rtc.shadow[i].start.any fun t => since t s < tickMs) = true := by
    rw [ht]
    exact decide_eq_true hl
  exact if_pos hopen

theorem rtcBegin_closed (i : Fin 5) {s : State} (h : ∀ t0, s.rtc.shadow[i].start = some t0 → 1250000 ≤ (s.cyc.tb - t0).toNat) :
    let x : RtcShadow := { time := rtcTimeWord s.rtc, date := s.rtc.date, frac := s.rtc.frac, bin := s.rtc.bin, stat := rtcStat s.rtc, start := some s.cyc.tb, count := s.rtc.shadow[i].count + 1 }
    rtcBegin i s = { s with rtc := { s.rtc with shadow := s.rtc.shadow.set i x } } := by
  have hclosed : ¬(s.rtc.shadow[i].start.any fun t => since t s < tickMs) = true := by
    cases hs : s.rtc.shadow[i].start with
    | none => simp
    | some t0 => exact fun hl => absurd (of_decide_eq_true hl) (Nat.not_lt.2 (h t0 hs))
  exact if_neg hclosed

theorem clrovrOp_doms (s : State) : (∀ n : Fin 4, (clrovrOp s).doms[pairDom n] = { s.doms[pairDom n] with ovrTotal := 0 }) ∧
    ∀ g : Fin 2, (clrovrOp s).doms[groupDom g] = s.doms[groupDom g] := by
  constructor
  · intro n
    fin_cases n <;> simp [clrovrOp, allPairs, modDom, pairDom, Fin.ofNat]
  · intro g
    fin_cases g <;> simp [clrovrOp, allPairs, modDom, pairDom, groupDom, Fin.ofNat]

/-- Settles O21: a shadowed read either finds its sequence open and answers from the shadow, or fills the shadow first. -/
theorem shadowReadsKeepOneInstant : Obligations.ShadowReadsKeepOneInstant := by
  unfold Obligations.ShadowReadsKeepOneInstant
  refine ⟨fun a s hv => ⟨?_, ?_, ?_, fun hm => ?_⟩, fun a i s hi ha => ⟨fun r ho => ?_, fun r hc => ?_, ?_, fun t0 ht hl => ?_⟩⟩
  · exact congrArg Host.Outcome.next (regAt_on a.master _ hv)
  · exact congrArg Host.Outcome.next (regAt_on a.master _ hv)
  · exact congrArg Host.Outcome.next (regAt_on a.master _ hv)
  · refine ⟨clrovrOp (answer .ok 0 s), congrArg Host.Outcome.next ((if_pos hm).trans (regAt_on a.master _ hv)), ?_, ?_⟩
    · exact (kept_clrovrOp _ (kept_upd_bus kept_refl (by decide)) (by decide)).only
    · exact ⟨(kept_clrovrOp (ps0 := [.doms]) (answer .ok 0 s) kept_refl (by decide)).only .bus (by decide), clrovrOp_doms _⟩
  · refine congrArg Host.Outcome.next ?_
    simp only [rtcShadowOp, hi, regAt_on a.master _ ha]
    rw [rtcBegin_open i (s := answer .ok 0 s) ho]
    rfl
  · refine congrArg Host.Outcome.next ?_
    simp only [rtcShadowOp, hi, regAt_on a.master _ ha]
    rw [rtcBegin_closed i (s := answer .ok 0 s) hc]
    simp [answer]
  · refine congrArg Host.Outcome.next ?_
    simp only [rtcSnapOp, hi, regAt_on a.master _ ha]
    by_cases h1 : s.rtc.shadow[i.val].count ≤ 1 <;> simp [answer, bitOf, h1]
  · refine congrArg Host.Outcome.next ?_
    have hover : (s.rtc.shadow[i].start.any fun t => elapsed 1 t s) = true := by
      rw [ht]
      exact decide_eq_true ((Nat.one_mul _).trans_le hl)
    simp only [hi]
    exact if_pos hover

/-! ## Alarms (R433) -/

/-- Alarm `n` of the clock `r` is armed and its target reached. -/
def almReached (n : Fin 2) (r : Rtc) : Bool := r.alm[n].2 && r.alm[n].1.toNat ≤ r.bin.toNat

/-- What the comparison of alarm `n` does to the clock. -/
def almTurn (old : Option (BitVec 40)) (r : Rtc) (n : Fin 2) : Rtc :=
  let e := Sys2Proof.Machine.setBit r.evt (almBit n.val) true
  if almReached n r then
    { r with evt := if old.any fun o => o.toNat < r.alm[n].1.toNat then Sys2Proof.Machine.setBit e (almBit n.val + 1) true else e, alm := r.alm.set n (r.alm[n].1, false) }
  else r

theorem raiseClock_rtc (s : State) : (raiseClock s).rtc = s.rtc := (kept_raiseClock (ps0 := [.cores]) s kept_refl (by decide)).only .rtc (by decide)

theorem raiseClock_pending (s : State) (h : pdOn .stew s = true) : (raiseClock s).cores[stewCore].arch.ipend.getLsbD 6 = true := by
  rw [raiseClock, if_pos h]
  exact raiseIrq_pending _ _ _ (by decide)

theorem almFire_rtc (n : Fin 2) (skipped : Bool) (s : State) :
    let e := Sys2Proof.Machine.setBit s.rtc.evt (almBit n.val) true
    (almFire n skipped s).rtc = { s.rtc with evt := if skipped then Sys2Proof.Machine.setBit e (almBit n.val + 1) true else e, alm := s.rtc.alm.set n (s.rtc.alm[n].1, false) } :=
  raiseClock_rtc _

theorem almCompare_rtc (old : Option (BitVec 40)) (s : State) : (almCompare old s).rtc = ([0, 1] : List (Fin 2)).foldl (almTurn old) s.rtc := by
  refine (List.foldl_hom State.rtc fun t n => ?_).symm
  by_cases h : almReached n t.rtc = true
  · exact (if_pos h).trans ((almFire_rtc n (old.any fun o => o.toNat < t.rtc.alm[n].1.toNat) t).symm.trans (congrArg State.rtc (if_pos (c := almReached n t.rtc = true) h).symm))
  · exact (if_neg h).trans (congrArg State.rtc (if_neg (c := almReached n t.rtc = true) h).symm)

/-- Clock `r'` is `r` but for its alarms and for events that happened. -/
def OnlyAlarms (r r' : Rtc) : Prop := ∃ e a, r' = { r with evt := e, alm := a } ∧ ∀ b, r.evt.getLsbD b = true → e.getLsbD b = true

theorem onlyAlarms_almTurn {old : Option (BitVec 40)} {r r' : Rtc} (n : Fin 2) (h : OnlyAlarms r r') : OnlyAlarms r (almTurn old r' n) := by
  obtain ⟨e, a, rfl, he⟩ := h
  unfold almTurn
  split
  · refine ⟨_, _, rfl, fun b hb => ?_⟩
    split
    · exact setBit_true_getLsbD _ (setBit_true_getLsbD _ (he b hb))
    · exact setBit_true_getLsbD _ (he b hb)
  · exact ⟨e, a, rfl, he⟩

theorem onlyAlarms_almCompare (old : Option (BitVec 40)) (s : State) : OnlyAlarms s.rtc (almCompare old s).rtc := by
  rw [almCompare_rtc]
  exact onlyAlarms_almTurn 1 (onlyAlarms_almTurn 0 ⟨_, _, rfl, fun _ => id⟩)

theorem almTurn_alm (r : Rtc) (n m : Fin 2) : (almTurn none r n).alm[m] = if m = n ∧ almReached n r then (r.alm[n].1, false) else r.alm[m] := by
  unfold almTurn
  by_cases hm : m = n
  · subst hm
    split <;> simp_all
  · have : n.val ≠ m.val := fun e => hm (Fin.ext e.symm)
    split <;> simp_all

theorem almReached_almTurn {r : Rtc} {n m : Fin 2} (h : m ≠ n) : almReached m (almTurn none r n) = almReached m r := by
  have hbin : (almTurn none r n).bin = r.bin := by
    unfold almTurn
    split <;> rfl
  rw [almReached, almTurn_alm, hbin, if_neg fun k => h k.1, almReached]

theorem almTurn_fired {r : Rtc} {n : Fin 2} (h : almReached n r = true) : (almTurn none r n).evt.getLsbD (almBit n.val) = true := by
  unfold almTurn
  rw [if_pos h]
  exact setBit_true_same _ (by unfold almBit; omega)

/-- An armed alarm whose target is reached fires and is disarmed. -/
theorem almCompare_alm (n : Fin 2) (s : State) :
    (almCompare none s).rtc.alm[n] = (s.rtc.alm[n].1, s.rtc.alm[n].2 && !almReached n s.rtc) ∧
      (almReached n s.rtc = true → (almCompare none s).rtc.evt.getLsbD (almBit n.val) = true) := by
  have own : ∀ r : Rtc, (if almReached n r = true then (r.alm[n].1, false) else r.alm[n]) = (r.alm[n].1, r.alm[n].2 && !almReached n r) := fun r => by
    cases h : almReached n r <;> simp
  rw [almCompare_rtc]
  simp only [List.foldl_cons, List.foldl_nil]
  fin_cases n
  · refine ⟨?_, fun h => ?_⟩
    · exact (almTurn_alm _ 1 0).trans ((if_neg (by simp)).trans ((almTurn_alm _ 0 0).trans (by simpa using own s.rtc)))
    · obtain ⟨e, a, he, hk⟩ := onlyAlarms_almTurn (old := none) (r := almTurn none s.rtc 0) 1 ⟨_, _, rfl, fun _ => id⟩
      rw [he]
      exact hk _ (almTurn_fired h)
  · have hother : (almTurn none s.rtc 0).alm[(1 : Fin 2)] = s.rtc.alm[(1 : Fin 2)] := (almTurn_alm _ 0 1).trans (if_neg (by simp))
    refine ⟨?_, fun h => almTurn_fired ((almReached_almTurn (by decide)).trans h)⟩
    refine (almTurn_alm _ 1 1).trans ?_
    simp only [hother, almReached_almTurn (r := s.rtc) (n := 0) (m := 1) (by decide), true_and]
    exact own s.rtc

/-! ## The clock (R426 to R435) -/

theorem operatingSecond_rtc (s : State) : (operatingSecond s).rtc = s.rtc := (kept_operatingSecond (ps0 := [.power, .ps]) s kept_refl (by decide)).only .rtc (by decide)

theorem fracWrap_spec (r : Rtc) : ∃ f a, fracWrap r = { r with frac := f, acc := a } := ⟨_, _, rfl⟩

theorem pathCompare_spec (r : Rtc) : ∃ b e, pathCompare r = { r with bvalid := b, err := e } := by
  unfold pathCompare
  split
  · exact ⟨_, _, rfl⟩
  · exact ⟨_, _, rfl⟩

/-- A second that no negative shift holds. -/
theorem secondsAdvance_spec {r : Rtc} (h : ∀ x, r.shift = some x → x.msb = false) :
    let c := calOf r.time r.date
    let n := if calLast c then c else calNext c
    ∃ b e, secondsAdvance r = { r with time := calTime n, date := calDate n, bin := r.bin + 1, bvalid := b, err := e } := by
  have hn : ¬(r.shift.any fun x => x.msb) = true := by
    cases hs : r.shift with
    | none => simp
    | some x => simp [h x hs]
  intro c n
  have hadv : secondsAdvance r = if calLast n && (r.bvalid || !calLast c) then { r with time := calTime n, date := calDate n, bin := r.bin + 1, bvalid := false, err := Sys2Proof.Machine.setBit r.err 3 true }
      else { r with time := calTime n, date := calDate n, bin := r.bin + 1 } := if_neg hn
  rw [hadv]
  split
  · exact ⟨_, _, rfl⟩
  · exact ⟨_, _, rfl⟩

theorem secondsAdvance_held {r : Rtc} {x : BitVec 16} (h : r.shift = some x) (hx : x.msb = true) : secondsAdvance r = r := by
  unfold secondsAdvance
  rw [h, if_pos (by simp [hx])]

/-- The clock of a second tick without a summer-time step, before the alarms. -/
def secondOf (r : Rtc) : Rtc := pathCompare (shiftApply (secondsAdvance (fracWrap r)))

/-- A second tick completes with its shift applied, the paths compared and the alarms after them. -/
theorem exec_rtcSecondTick {s : State} (h : secondDue s = true) (hs : (shiftApply (secondsAdvance (fracWrap s.rtc))).step = none) :
    ∃ t, exec .rtcSecondTick s = .next t ∧ OnlyAlarms (secondOf s.rtc) t.rtc := by
  have hr : stepApply (shiftApply (secondsAdvance (fracWrap s.rtc))) = shiftApply (secondsAdvance (fracWrap s.rtc)) := by
    unfold stepApply
    rw [hs]
  have hrun : exec .rtcSecondTick s = .next (almCompare none (operatingSecond { s with rtc := secondOf s.rtc })) := by
    show execRtcSecondTick s = _
    unfold execRtcSecondTick
    rw [h, secondOf]
    simp only [hr, hs, Option.isSome_none]
    rfl
  refine ⟨_, hrun, ?_⟩
  have := onlyAlarms_almCompare none (operatingSecond { s with rtc := secondOf s.rtc })
  rwa [operatingSecond_rtc] at this

theorem shiftApply_some {r : Rtc} {x : BitVec 16} (h : r.shift = some x) :
    shiftApply r = { r with shift := none, evt := Sys2Proof.Machine.setBit r.evt 0 true
                            frac := BitVec.ofNat 32 (if x.msb then 2 ^ 32 - (-x).toNat * 2 ^ 17 else x.toNat * 2 ^ 17) } := by
  unfold shiftApply
  rw [h]

theorem shiftApply_none {r : Rtc} (h : r.shift = none) : shiftApply r = r := by
  unfold shiftApply
  rw [h]

/-- The calendar a second on, at most at its end. -/
def secondOn (r : Rtc) : Cal := if calLast (calOf r.time r.date) then calOf r.time r.date else calNext (calOf r.time r.date)

/-- A second that no negative shift holds moves both paths on; a pending shift sets the fraction. -/
theorem exec_rtcSecondTick_on {s : State} (hd : secondDue s = true) (hs : s.rtc.step = none) (hx : ∀ x, s.rtc.shift = some x → x.msb = false) :
    ∃ t, exec .rtcSecondTick s = .next t ∧ t.rtc.bin = s.rtc.bin + 1 ∧ t.rtc.shift = none ∧ t.rtc.time = calTime (secondOn s.rtc) ∧
      t.rtc.date = calDate (secondOn s.rtc) ∧
      ∀ x, s.rtc.shift = some x → t.rtc.frac = BitVec.ofNat 32 (x.toNat * 2 ^ 17) ∧ t.rtc.evt.getLsbD 0 = true := by
  obtain ⟨f, ac, hf⟩ := fracWrap_spec s.rtc
  obtain ⟨b, er, hadv⟩ := secondsAdvance_spec (r := fracWrap s.rtc) (by rw [hf]; exact hx)
  obtain ⟨b', er', hp⟩ := pathCompare_spec (shiftApply (secondsAdvance (fracWrap s.rtc)))
  cases hsh : s.rtc.shift with
  | none =>
    have hap : shiftApply (secondsAdvance (fracWrap s.rtc)) = secondsAdvance (fracWrap s.rtc) := shiftApply_none (by rw [hadv, hf]; exact hsh)
    obtain ⟨t, he, e, al, ht, hk⟩ := exec_rtcSecondTick hd (by rw [hap, hadv, hf]; exact hs)
    rw [secondOf, hp, hap, hadv, hf] at ht
    refine ⟨t, he, ?_⟩
    rw [ht]
    exact ⟨rfl, hsh, rfl, rfl, fun x k => absurd k (by simp)⟩
  | some x =>
    have hap := shiftApply_some (r := secondsAdvance (fracWrap s.rtc)) (x := x) (by rw [hadv, hf]; exact hsh)
    obtain ⟨t, he, e, al, ht, hk⟩ := exec_rtcSecondTick hd (by rw [hap, hadv, hf]; exact hs)
    rw [secondOf, hp, hap, hadv, hf] at ht hk
    refine ⟨t, he, ?_⟩
    rw [ht]
    refine ⟨rfl, rfl, rfl, rfl, fun y hy => ?_⟩
    obtain rfl : x = y := Option.some.inj hy
    exact ⟨by rw [hx x hsh]; rfl, hk 0 (setBit_true_same _ (by decide))⟩

/-- A negative shift holds the second and sets the fraction. -/
theorem exec_rtcSecondTick_held {s : State} {x : BitVec 16} (hd : secondDue s = true) (hs : s.rtc.step = none) (hsh : s.rtc.shift = some x) (hx : x.msb = true) :
    ∃ t, exec .rtcSecondTick s = .next t ∧ t.rtc.bin = s.rtc.bin ∧ t.rtc.shift = none ∧ t.rtc.frac = BitVec.ofNat 32 (2 ^ 32 - (-x).toNat * 2 ^ 17) ∧
      t.rtc.evt.getLsbD 0 = true := by
  obtain ⟨f, ac, hf⟩ := fracWrap_spec s.rtc
  have hadv : secondsAdvance (fracWrap s.rtc) = fracWrap s.rtc := secondsAdvance_held (by rw [hf]; exact hsh) hx
  have hap := shiftApply_some (r := secondsAdvance (fracWrap s.rtc)) (x := x) (by rw [hadv, hf]; exact hsh)
  obtain ⟨b', er', hp⟩ := pathCompare_spec (shiftApply (secondsAdvance (fracWrap s.rtc)))
  obtain ⟨t, he, e, al, ht, hk⟩ := exec_rtcSecondTick hd (by rw [hap, hadv, hf]; exact hs)
  rw [secondOf, hp, hap, hadv, hf] at ht hk
  refine ⟨t, he, ?_⟩
  rw [ht]
  exact ⟨rfl, rfl, by rw [hx]; rfl, hk 0 (setBit_true_same _ (by decide))⟩

theorem rtcWrite_steward {a : Access} (f : State → State) {s : State} (hm : a.master = .steward) (ha : pdOn .aon s = true) :
    rtcWrite a.master f s = f (answer .ok 0 s) := (if_pos hm).trans (regAt_on _ _ ha)

theorem rtcDstOp_val {v : Fin 4} (h : v = 1 ∨ v = 2) (s : State) :
    rtcDstOp v.val s = match dstRefusal (v == 1) s with
      | some b => rtcErr b s
      | none => { s with rtc := { s.rtc with step := some (v == 1) } } := by
  rcases h with rfl | rfl <;> rfl

/-- The alarm's write: what it holds then, and whether it fires at once. -/
theorem rtcAlmHiOp_rtc (n : Fin 2) (v : Word) (s : State) :
    let target : BitVec 40 := (v.setWidth 8).append (s.rtc.alm[n].1.setWidth 32)
    (rtcAlmHiOp n v s).rtc.alm[n] = (target, v.getLsbD 31 && decide (s.rtc.bin.toNat < target.toNat)) ∧ (rtcAlmHiOp n v s).rtc.bin = s.rtc.bin ∧
      (v.getLsbD 31 = true → target.toNat ≤ s.rtc.bin.toNat → (rtcAlmHiOp n v s).rtc.evt.getLsbD (1 + 2 * n.val) = true) := by
  intro target
  let s' : State := { s with rtc := { s.rtc with alm := s.rtc.alm.set n (target, v.getLsbD 31) } }
  have hal : s'.rtc.alm[n] = (target, v.getLsbD 31) := by simp [s']
  have hre : almReached n s'.rtc = (v.getLsbD 31 && decide (target.toNat ≤ s.rtc.bin.toNat)) := by
    unfold almReached
    rw [hal]
  obtain ⟨hown, hfires⟩ := almCompare_alm n s'
  obtain ⟨e, a, ho, _⟩ := onlyAlarms_almCompare none s'
  refine ⟨?_, ?_, fun harm hle => ?_⟩
  · refine hown.trans ?_
    rw [hal, hre]
    have : (!decide (target.toNat ≤ s.rtc.bin.toNat)) = decide (s.rtc.bin.toNat < target.toNat) := by
      rw [← decide_not, decide_eq_decide, Nat.not_le]
    rw [Bool.not_and, this]
    cases v.getLsbD 31 <;> rfl
  · have hbin := congrArg Rtc.bin ho
    exact hbin
  · exact hfires (by rw [hre, harm]; exact decide_eq_true hle)

/-- Settles O22: each write of the clock is its operation on a state that answers OK, and the alarms' comparison moves only events and alarms. -/
theorem clockCommandsSetAndAdvanceTheTime : Obligations.ClockCommandsSetAndAdvanceTheTime := by
  unfold Obligations.ClockCommandsSetAndAdvanceTheTime
  refine ⟨fun s hd hs hx => ?_, fun s x hd hs hsh hx => ?_, fun a s hm ha => ?_, fun s hw hacc => ?_⟩
  · obtain ⟨t, he, hbin, hsh, htime, hdate, hsx⟩ := exec_rtcSecondTick_on hd hs hx
    refine gives_of_leaves (leaves_rtcSecondTick s) he ⟨hbin, hsh, fun hl => ?_, hsx⟩
    have : secondOn s.rtc = calNext (calOf s.rtc.time s.rtc.date) := if_neg (by rw [hl]; decide)
    exact ⟨by rw [htime, this], by rw [hdate, this]⟩
  · obtain ⟨t, he, h⟩ := exec_rtcSecondTick_held hd hs hsh hx
    exact gives_of_leaves (leaves_rtcSecondTick s) he h
  · intro c fails
    have hwrite (f : State → State) : Host.Outcome.next (rtcWrite a.master f s) = (.next (f (answer .ok 0 s)) : Meaning) := congrArg _ (rtcWrite_steward f hm ha)
    refine ⟨fun hi => ?_, fun hi => ?_, fun v hv hr => ?_, fun v b hv hr => ?_, fun v h0 h1 hn => ?_, fun v hv => ?_, fun n v => ?_, fun v hv => ?_⟩
    · exact (hwrite rtcLoadOp).trans (congrArg _ (if_pos hi))
    · refine gives_of_leaves (leaves_rtcLoad a s) (hwrite rtcLoadOp) ?_
      obtain ⟨e, al, ho, _⟩ := onlyAlarms_almCompare (some s.rtc.bin) { answer .ok 0 s with rtc := { s.rtc with
        time := calTime c, date := calDate c, bin := BitVec.ofNat 40 (calSeconds c), frac := 0, acc := 0, bvalid := true, nvalid := true, lost := false
        shift := none, step := none, dst := s.rtc.sdate.getLsbD 13 } }
      have hload : (rtcLoadOp (answer .ok 0 s)).rtc = _ := (congrArg State.rtc (if_neg (by rw [show (answer .ok 0 s).rtc = s.rtc from rfl, hi]; decide))).trans ho
      rw [hload]
      exact ⟨rfl, rfl, rfl, rfl, rfl, rfl, rfl, rfl, rfl, rfl⟩
    · refine (hwrite (rtcDstOp v.val)).trans (congrArg _ ((rtcDstOp_val hv _).trans ?_))
      rw [show dstRefusal (v == 1) (answer .ok 0 s) = none from hr]
      rfl
    · refine (hwrite (rtcDstOp v.val)).trans (congrArg _ ((rtcDstOp_val hv _).trans ?_))
      rw [show dstRefusal (v == 1) (answer .ok 0 s) = some b from hr]
      rfl
    · refine (hwrite (rtcShiftOp v)).trans (congrArg _ ((if_neg ?_).trans (if_neg ?_)))
      · rw [Bool.or_eq_true, not_or]
        exact ⟨fun k => h0 (of_decide_eq_true k), fun k => h1 (of_decide_eq_true k)⟩
      · rw [show (answer .ok 0 s).rtc.shift = none from hn]
        decide
    · refine (hwrite (rtcShiftOp v)).trans (congrArg _ (if_pos ?_))
      rcases hv with rfl | rfl <;> rfl
    · exact gives_of_leaves (leaves_rtcAlarmArm a n v s) (hwrite (rtcAlmHiOp n v)) (rtcAlmHiOp_rtc n v (answer .ok 0 s))
    · refine (hwrite (rtcWakeOp v)).trans (congrArg _ (if_neg ?_))
      have : field v 0 26 = (v.setWidth 26 : BitVec 26).toNat := by simp [field]
      omega
  · refine gives_of_leaves (leaves_rtcWakeExpiry s) (congrArg Host.Outcome.next (if_neg ?_)) ?_
    · rw [Bool.or_eq_true, not_or]
      exact ⟨fun k => hw (of_decide_eq_true k), fun k => Nat.not_lt.2 hacc (of_decide_eq_true k)⟩
    · refine ⟨raiseClock_rtc _, fun hp => ?_, fun c hc => ?_⟩
      · exact raiseClock_pending _ hp
      · unfold raiseClock
        split
        · exact modCore_other _ _ _ _ hc
        · rfl

end Sys2Proof.Proofs
end

section
/-! SUPPORT. Sync messages and the sync link (R207 to R212, R218, R219, R223 to R228). -/

namespace Sys2Proof.Proofs
open Sys2Proof.Machine Sys2Proof.Safety Sys2Proof.Laws
set_option Elab.async false

/-! ## Attempts to resynchronise (R228, R229) -/

/-- The hot-standby block and the link are as before but for what an attempt to resynchronise touches; messages and events are only added. -/
structure Tried (s t : State) : Prop where
  hsb : t.hsb = { s.hsb with susp := t.hsb.susp, evt := t.hsb.evt }
  evt : ∀ b, s.hsb.evt.getLsbD b = true → t.hsb.evt.getLsbD b = true
  sync : t.sync = { s.sync with mseq := t.sync.mseq, out := t.sync.out, resync := t.sync.resync }
  out : ∃ ms, t.sync.out = s.sync.out ++ ms

theorem Tried.refl (s : State) : Tried s s := ⟨rfl, fun _ h => h, rfl, [], (List.append_nil _).symm⟩

theorem Tried.trans {s t u : State} (h1 : Tried s t) (h2 : Tried t u) : Tried s u where
  hsb := by rw [h2.hsb, h1.hsb]
  evt b h := h2.evt b (h1.evt b h)
  sync := by rw [h2.sync, h1.sync]
  out := by
    obtain ⟨ms, e⟩ := h1.out
    obtain ⟨ns, e'⟩ := h2.out
    exact ⟨ms ++ ns, by rw [e', e, List.append_assoc]⟩

theorem tried_sendSync (type : Byte) (cyc : Long) (body : List Byte) (s : State) : Tried s (sendSync type cyc body s) :=
  ⟨rfl, fun _ h => h, rfl, _, rfl⟩

theorem tried_resyncEnd (result : Byte) (s : State) : Tried s (resyncEnd result s) := by
  unfold resyncEnd
  split
  · exact .refl s
  · exact ⟨rfl, fun b h => setBit_true_getLsbD _ h, rfl, [], (List.append_nil _).symm⟩

theorem tried_resyncBegin (s : State) : Tried s (resyncBegin s) := by
  unfold resyncBegin
  split
  · exact .refl s
  · have began (v : Resync) (n : Nat) (u : BitVec 6) :
        Tried s { s with sync := { s.sync with resync := v }, hsb := { s.hsb with susp := u }, freeCtr := n } :=
      ⟨rfl, fun _ h => h, rfl, [], (List.append_nil _).symm⟩
    dsimp only
    split
    · exact (began _ _ _).trans (tried_resyncEnd _ _)
    split
    · exact began _ _ _
    · exact (began _ _ _).trans (tried_sendSync _ _ _ _)

/-- Outside SYNCING, and while an attempt is under way, none begins. -/
theorem resyncBegin_idle {s : State} (h : s.hsb.role ≠ .syncing ∨ s.sync.resync.state ≠ 0) : resyncBegin s = s :=
  if_pos (by
    simp only [Bool.or_eq_true, bne_iff_ne, ne_eq, decide_eq_true_eq]
    rcases h with h | h
    · exact .inl (.inl (.inl (.inl h)))
    · exact .inr h)

theorem resyncEnd_idle {s : State} (result : Byte) (h : s.sync.resync.state = 0) : resyncEnd result s = s := if_pos h

/-- The end of an attempt under way. -/
theorem resyncEnd_running {s : State} (result : Byte) (h : s.sync.resync.state ≠ 0) : (resyncEnd result s).sync.resync.state = 0 ∧
    (resyncEnd result s).sync.resync.result = result ∧ (resyncEnd result s).hsb.evt.getLsbD 6 = true := by
  unfold resyncEnd
  rw [if_neg h]
  exact ⟨rfl, rfl, setBit_true_same _ (by decide)⟩

/-! ## What every valid message tells (R208, R228) -/

/-- The epoch is noted: only the highest seen and the wanted epoch of the block change. -/
theorem epochAdvance_hsb (s : State) : (epochAdvance s).hsb = { s.hsb with wantEpoch := (epochAdvance s).hsb.wantEpoch } := by
  unfold epochAdvance
  dsimp only
  split
  · rfl
  · have kept := (kept_psRecord (ps0 := [.ps]) (fun b => .epoch b (BitVec.ofNat 32 (ownNext s))) (leBytes 4 (ownNext s))
      (modHsb (fun h => { h with wantEpoch := some (BitVec.ofNat 32 (ownNext s)) }) s) kept_refl (by decide)).only .hsb (by decide)
    rw [show (psRecord _ _ _).hsb = _ from kept]
    rfl

theorem noteEpoch_hsb (e : Word) (s : State) : (noteEpoch e s).hsb = { s.hsb with seen := (noteEpoch e s).hsb.seen, wantEpoch := (noteEpoch e s).hsb.wantEpoch } := by
  unfold noteEpoch
  split
  · rfl
  · rw [epochAdvance_hsb]
    rfl

theorem noteEpoch_sync (e : Word) (s : State) : (noteEpoch e s).sync = s.sync := (kept_noteEpoch (ps0 := [.hsb, .ps]) e s kept_refl (by decide)).only .sync (by decide)

/-- The link once a valid message `m` is heard. -/
def heardLink (m : SyncHdr) (l : SyncLink) : SyncLink := { l with pRole := pRoleOf m.role, pMac := some m.src, gotMsg := true }

/-- The state once a valid message is heard, before an attempt that it may begin. -/
def noted (m : SyncHdr) (s : State) : State := noteEpoch m.epoch (modSync (heardLink m) s)

theorem noted_hsb (m : SyncHdr) (s : State) : (noted m s).hsb = { s.hsb with seen := (noted m s).hsb.seen, wantEpoch := (noted m s).hsb.wantEpoch } :=
  noteEpoch_hsb _ _

theorem noted_sync (m : SyncHdr) (s : State) : (noted m s).sync = heardLink m s.sync := noteEpoch_sync _ _

theorem kept_noted (m : SyncHdr) (s : State) : Kept [.hsb, .sync, .ps] s (noted m s) :=
  kept_noteEpoch _ _ (kept_modSync _ _ kept_refl (by decide)) (by decide)

theorem tried_syncHeard (m : SyncHdr) (s : State) : Tried (noted m s) (syncHeard m s) := by
  show Tried _ (if (noted m s).sync.resync.failedAt.isNone then resyncBegin (noted m s) else noted m s)
  split
  · exact tried_resyncBegin _
  · exact .refl _

/-- Where no attempt can begin, a message only tells. -/
theorem syncHeard_quiet {m : SyncHdr} {s : State} (h : s.hsb.role ≠ .syncing ∨ s.sync.resync.state ≠ 0) : syncHeard m s = noted m s := by
  have idle : resyncBegin (noted m s) = noted m s := resyncBegin_idle (by
    rw [noted_hsb, noted_sync]
    exact h)
  show (if (noted m s).sync.resync.failedAt.isNone then resyncBegin (noted m s) else noted m s) = noted m s
  rw [idle, ite_self]

theorem syncGet_valid {m : SyncHdr} {type : Byte} {body : List Byte} (f : State → State) {s : State} (hp : paired s = true) (hv : syncValid m type body s = true) :
    syncGet m type body f s = f (syncHeard m s) := by
  unfold syncGet
  rw [hp, hv]
  rfl

theorem syncGet_invalid {m : SyncHdr} {type : Byte} {body : List Byte} (f : State → State) {s : State} (hp : paired s = true) (hv : syncValid m type body s = false) :
    syncGet m type body f s = syncDiscard s := by
  unfold syncGet
  rw [hp, hv]
  rfl

/-- The bytes of a store are in memory afterwards. -/
theorem readByte_store_all {s : State} (w : memWf s.mem) (by_ : Option CoreId) (code off : Nat) (bs : List Byte) {i : Nat} (h : i < bs.length) :
    readByte code (off + i) (store by_ code off bs s) = bs.getD i 0 := by
  have hne : ¬bs.isEmpty = true := by
    cases bs with
    | nil => simp at h
    | cons b bs => simp
  have hmem : (store by_ code off bs s).mem = (writeBytes code off bs s).mem := by
    unfold store
    rw [if_neg hne]
    have touch := (kept_gatherTouch (ps0 := [.solvers, .freeCtr]) code off bs (noteWrite by_ code off bs.length (writeBytes code off bs s)) kept_refl (by decide)).only
      .mem (by decide)
    exact (show State.mem _ = _ from touch).trans (noteWrite_mem _ _ _ _ _)
  rw [readByte_congr hmem, readByte_writeBytes_same code off bs s w i h, List.getD_eq_getElem _ _ h]

theorem setRole_sync (r : Role) (s : State) : (setRole r s).sync = s.sync := (kept_setRole (ps0 := [.hsb, .arb, .log]) r s kept_refl (by decide)).only .sync (by decide)

theorem setRole_role (r : Role) (s : State) : (setRole r s).hsb.role = r := by
  unfold setRole
  split
  next h => exact h
  next => rfl

/-- A module that listens and hears turns to SYNCING. -/
theorem heard_listening {s : State} (h : s.sync.listening = true) : (heard s).sync.pHello = s.sync.pHello ∧ (heard s).sync.pRole = s.sync.pRole ∧
    (heard s).sync.listening = false ∧ (heard s).hsb.role = .syncing := by
  have began := tried_resyncBegin (setRole .syncing (modSync (fun l => { l with listening := false }) s))
  have hheard : heard s = resyncBegin (setRole .syncing (modSync (fun l => { l with listening := false }) s)) := if_pos h
  rw [hheard, began.sync, began.hsb, setRole_sync, setRole_role]
  exact ⟨rfl, rfl, rfl, rfl⟩

theorem heard_idle {s : State} (h : s.sync.listening = false) : heard s = s := if_neg (by rw [h]; decide)

/-- What a HELLO leaves in a state that has heard it. -/
theorem hello_told (m : SyncHdr) (b : HelloBody) (s : State) :
    let t := modSync (fun l => { l with pHello := some b }) s
    let u := if m.role = 1 && pairFormed t then heard t else t
    u.sync.pHello = some b ∧ u.sync.pRole = s.sync.pRole ∧
      (m.role = 1 → b.confId = (s.ring.layout.map (·.confId)).getD 0 → s.sync.listening = true → u.sync.listening = false ∧ u.hsb.role = .syncing) := by
  intro t u
  have formed : pairFormed t = (b.confId == (s.ring.layout.map (·.confId)).getD 0) := rfl
  by_cases hl : s.sync.listening = true
  · obtain ⟨h1, h2, h3, h4⟩ := heard_listening (s := t) hl
    by_cases hc : (m.role = 1 && pairFormed t) = true
    · have hu : u = heard t := if_pos hc
      rw [hu]
      exact ⟨h1, h2, fun _ _ _ => ⟨h3, h4⟩⟩
    · have hu : u = t := if_neg hc
      rw [hu]
      refine ⟨rfl, rfl, fun hm hb _ => absurd ?_ hc⟩
      rw [formed, hm, hb, beq_self_eq_true]
      rfl
  · have hu : u = t := by
      show (if _ then heard t else t) = t
      rw [heard_idle (s := t) (Bool.eq_false_iff.2 hl), ite_self]
    rw [hu]
    exact ⟨rfl, rfl, fun _ _ k => absurd k hl⟩

/-- Each block asked for is sent. -/
theorem sendDeltas_out (bl : List DeltaRef) (s : State) :
    ∃ ms, (bl.foldl (fun s b => let p := Config.deltaPlace b.area b.offset; sendDelta b.area b.offset (readBytes p.1 p.2 4096 s) s) s).sync.out = s.sync.out ++ ms ∧
      ms.map (·.type) = List.replicate bl.length 0x08 := by
  induction bl generalizing s with
  | nil => exact ⟨[], (List.append_nil _).symm, rfl⟩
  | cons b bl ih =>
    obtain ⟨ms, ho, ht⟩ := ih (sendDelta b.area b.offset (readBytes (Config.deltaPlace b.area b.offset).1 (Config.deltaPlace b.area b.offset).2 4096 s) s)
    have hone : ∃ x : SyncMsg, x.type = 0x08 ∧ (sendDelta b.area b.offset (readBytes (Config.deltaPlace b.area b.offset).1 (Config.deltaPlace b.area b.offset).2 4096 s) s).sync.out =
        s.sync.out ++ [x] := ⟨_, rfl, rfl⟩
    obtain ⟨x, hx, ho'⟩ := hone
    refine ⟨x :: ms, ?_, by rw [List.map_cons, ht, hx]; rfl⟩
    rw [List.foldl_cons, ho, ho', List.append_assoc]
    rfl

/-- The state CRCs read the images, the members, the connections, the interlocking and memory. -/
theorem groupCrcs_congr {s t : State} (hd : t.doms = s.doms) (hv : t.voter = s.voter) (hc : t.conns = s.conns) (hi : t.ixl = s.ixl) (hm : t.mem = s.mem) :
    groupCrcs t = groupCrcs s := by
  simp only [groupCrcs, loadedGroups, stateCrc, vecObjects, memberLanes, readBytes, readByte, hd, hv, hc, hi, hm]

theorem groupCrcs_noted (m : SyncHdr) (s : State) : groupCrcs (noted m s) = groupCrcs s :=
  have kept := (kept_noted m s).only
  groupCrcs_congr (kept .doms (by decide)) (kept .voter (by decide)) (kept .conns (by decide)) (kept .ixl (by decide)) (kept .mem (by decide))

/-- Settles O23: a message that is invalid is counted, one that is valid is noted and then taken. -/
theorem syncMessagesHaveTheirEffects : Obligations.SyncMessagesHaveTheirEffects := by
  unfold Obligations.SyncMessagesHaveTheirEffects
  intro m s hp out ok refs delta
  have valid {type : Byte} {body : List Byte} (f : State → State) (h : ok type body) : Host.Outcome.next (syncGet m type body f s) = (.next (f (syncHeard m s)) : Meaning) :=
    congrArg _ (syncGet_valid f hp h)
  have invalid {type : Byte} {body : List Byte} (f : State → State) (h : syncValid m type body s = false) :
      Host.Outcome.next (syncGet m type body f s) = (.next (syncDiscard s) : Meaning) := congrArg _ (syncGet_invalid f hp h)
  have told {type : Byte} {body : List Byte} (h : ok type body) (q : s.hsb.role ≠ .syncing ∨ s.sync.resync.state ≠ 0) (f : State → State) :
      Host.Outcome.next (syncGet m type body f s) = (.next (f (noted m s)) : Meaning) := (valid f h).trans (congrArg (fun u => Host.Outcome.next (f u)) (syncHeard_quiet q))
  refine ⟨?_, fun b h => ?_, fun w h he => ?_, fun mask h => ?_, fun mask res c h hc => ?_, fun tr h hr ho => ?_, fun tr h hm hr hc ht => ?_, fun tr h hr ht => ?_,
    fun b h hcrc hst hi => ?_, fun bl h hr => ?_, fun cs h hst hne => ?_, fun d h => ?_, fun hup hsfp hrun => ?_, fun hup => ?_⟩
  · intro b w tr mask res type body db bl cs d z hz hv
    simp only [List.mem_cons, List.not_mem_nil, or_false] at hz
    rcases hz with rfl | rfl | rfl | rfl | rfl | rfl | rfl | rfl | rfl | rfl | rfl | rfl
    · refine congrArg Host.Outcome.next (if_pos ?_)
      rw [hp, hv]
      rfl
    all_goals exact invalid _ hv
  · have heardOnly := tried_syncHeard m s
    obtain ⟨h1, h2, h3⟩ := hello_told m b (syncHeard m s)
    have hsync : (syncHeard m s).sync.pRole = pRoleOf m.role ∧ (syncHeard m s).sync.listening = s.sync.listening := by
      rw [heardOnly.sync, noted_sync]
      exact ⟨rfl, rfl⟩
    have hring : (syncHeard m s).ring = s.ring := (kept_syncHeard (ps0 := [.hsb, .sync, .ps, .freeCtr]) m s kept_refl (by decide)).only .ring (by decide)
    rw [hsync.1] at h2
    rw [hring, hsync.2] at h3
    exact gives_of_leaves (leaves_hello m b s) (valid _ h) ⟨h1, h2, h3⟩
  · have heardOnly := tried_syncHeard m s
    have epoch : (syncHeard m s).hsb.epoch = s.hsb.epoch := by rw [heardOnly.hsb, noted_hsb]
    exact gives_of_leaves (leaves_renew m w s) ((valid _ h).trans (congrArg _ (if_pos (by rw [epoch, he]; exact beq_self_eq_true _)))) rfl
  · have cons : (syncHeard m s).sync.cons = s.sync.cons := by
      rw [(tried_syncHeard m s).sync, noted_sync]
      rfl
    refine gives_of_leaves (leaves_mismatch m mask s) (valid _ h) ?_
    have hsb := (kept_consensusBegin (ps0 := [.sync]) m.cyc mask (modHsb (fun h => { h with cmpRun := 0, lastMis := mask.setWidth 6 }) (syncHeard m s)) kept_refl (by decide)).only
      .hsb (by decide)
    refine ⟨congrArg Hsb.cmpRun hsb, congrArg Hsb.lastMis hsb, fun hn => ?_, fun hn => ?_⟩
    · dsimp only [consensusBegin]
      rw [if_neg (by rw [show (modHsb _ (syncHeard m s)).sync.cons = _ from cons, hn]; decide)]
      rfl
    · dsimp only [consensusBegin]
      rw [if_pos (by rw [show (modHsb _ (syncHeard m s)).sync.cons = _ from cons]; exact Option.isSome_iff_ne_none.2 hn)]
      exact cons
  · have cons : (syncHeard m s).sync.cons = some c := by
      rw [(tried_syncHeard m s).sync, noted_sync]
      exact hc
    refine gives_of_leaves (leaves_consensus m mask res s) (valid _ h) ?_
    dsimp only [modSync]
    rw [cons]
    rfl
  · refine ⟨_, (told h (.inl (by rw [hr]; decide)) _).trans (congrArg _ (if_pos ?_)), (kept_sendSync _ _ _ _ (kept_noted m s) (by decide)).only, ?_⟩
    · rw [noted_hsb, hr, show (noted m s).arb = s.arb from (kept_noted m s).only .arb (by decide), ho]
      rfl
    · exact ⟨_, congrArg (fun l => l.out ++ _) (noted_sync m s), rfl, rfl⟩
  · have hcyc : (noted m s).cyc = s.cyc := (kept_noted m s).only .cyc (by decide)
    refine ⟨_, (told h (.inl (by rw [hr]; decide)) _).trans (congrArg _ (if_pos ?_)), (kept_modSync _ _ (kept_noted m s) (by decide)).only, rfl⟩
    have hprep : (noted m s).sync.prepM = some tr := by
      rw [noted_sync]
      exact hm
    have hrole : (noted m s).hsb.role = .primary := by
      rw [noted_hsb]
      exact hr
    have htime : since (noted m s).cyc.tk (noted m s) ≤ deadlineTicks (noted m s) := by
      unfold since deadlineTicks
      rw [hcyc]
      exact ht
    rw [hprep, hrole, hcyc, hc, ← hcyc, decide_eq_true htime, beq_self_eq_true, beq_self_eq_true tr]
    rfl
  · have hcyc : (noted m s).cyc = s.cyc := (kept_noted m s).only .cyc (by decide)
    have hno : pairNo (noted m s).cyc.count (noted m s) = pairNo s.cyc.count s := by
      simp only [pairNo, hcyc, noted_sync, heardLink]
      rw [noted_hsb]
    refine ⟨_, (told h (.inl (by rw [hr]; decide)) _).trans (congrArg _ (if_pos ?_)), (kept_modSync _ _ (kept_noted m s) (by decide)).only, rfl⟩
    rw [hno]
    simp only [since, deadlineTicks] at ht
    rw [show (noted m s).hsb.role = .standby by rw [noted_hsb]; exact hr]
    simpa [since, deadlineTicks, hcyc] using ht
  · have hstate : (noted m s).sync.resync.state = 1 ∨ (noted m s).sync.resync.state = 2 := by
      rw [noted_sync]
      exact hst
    have hgood : ¬(b.crc != crc32c b.data || !((noted m s).sync.resync.state = 1 || (noted m s).sync.resync.state = 2)) = true := by
      rw [hcrc]
      rcases hstate with e | e <;> rw [e] <;> simp
    have hstored := (kept_store (ps0 := [.cores, .doms, .mem, .voter, .solvers, .freeCtr]) none (Config.deltaPlace b.area b.offset).1 (Config.deltaPlace b.area b.offset).2 b.data (noted m s) kept_refl (by decide)).only
      .sync (by decide)
    have hbytes (i : Nat) (hlt : i < b.data.length) := readByte_store_all ((kept_noted m s).wf hi) none (Config.deltaPlace b.area b.offset).1 (Config.deltaPlace b.area b.offset).2 b.data hlt
    have hprogress : (noted m s).sync.resync = s.sync.resync := by
      rw [noted_sync]
      rfl
    refine gives_of_leaves (leaves_delta m b s) ((told h (.inr ?_) _).trans (congrArg _ (if_neg hgood))) ?_
    · rcases hst with e | e <;> rw [e] <;> decide
    · dsimp only
      rw [show (store _ _ _ _ _).sync = _ from hstored, hprogress]
      split
      · exact ⟨hbytes, congrArg (fun r : Resync => inc16 r.progress) ((congrArg SyncLink.resync hstored).trans hprogress)⟩
      · exact ⟨hbytes, by rw [show (store _ _ _ _ _).sync = _ from hstored, hprogress]⟩
  · refine ⟨_, (told h (.inl ?_) _).trans (congrArg _ (if_pos ?_)), ?_, ?_⟩
    · rcases hr with hr | hr <;> rw [hr] <;> decide
    · rw [noted_hsb]
      rcases hr with hr | hr <;> rw [hr] <;> rfl
    · exact (kept_foldl (kept_noted m s) fun _ _ k => kept_sendDelta _ _ _ _ k (by decide)).only
    · obtain ⟨ms, ho, ht⟩ := sendDeltas_out bl (noted m s)
      exact ⟨ms, by rw [ho, noted_sync]; rfl, ht⟩
  · have hres : (noted m s).sync.resync.state = 3 := by
      rw [noted_sync]
      exact hst
    have hne3 : (noted m s).sync.resync.state ≠ 0 := by
      rw [hres]
      decide
    refine ⟨_, (told h (.inr (by rw [hst]; decide)) _).trans (congrArg _ (if_pos ?_)), (kept_resyncEnd _ _ (kept_noted m s) (by decide)).only, resyncEnd_running 0x05 hne3⟩
    rw [hres, groupCrcs_noted]
    simpa using hne
  · exact gives_of_leaves (leaves_delays m d s) (valid _ h) rfl
  · let f := nextFree s
    let d : Word := BitVec.ofNat 32 (Config.freeNat f.1)
    let u := sendSync 0x0C (pairNo s.cyc.count s) (leBytes 4 d.toNat) (modSync (fun l => { l with up := true, dback := d }) f.2)
    have htried : Tried u (if resyncDue u then resyncBegin u else u) := by
      split
      · exact tried_resyncBegin u
      · exact .refl u
    obtain ⟨ms, hms⟩ := htried.out
    refine gives_of_leaves (leaves_syncLinkUp s) (t := if resyncDue u then resyncBegin u else u) (congrArg Host.Outcome.next (if_neg ?_)) ?_
    · rw [hp, hup, hsfp]
      simpa using hrun
    · rw [htried.sync, hms]
      exact ⟨rfl, _, ms, List.append_assoc _ _ _, rfl, rfl⟩
  · have hdown : syncDown s = resyncEnd 0x03 (hsbEvt 0 (modSync (fun l => { l with up := false }) s)) := if_neg (by rw [hup]; decide)
    have htried := tried_resyncEnd 0x03 (hsbEvt 0 (modSync (fun l => { l with up := false }) s))
    refine gives_of_leaves (leaves_syncLinkDown s) rfl ?_
    rw [hdown]
    refine ⟨?_, rfl, htried.evt 0 (setBit_true_same _ (by decide)), fun hst => ?_⟩
    · show (resyncEnd _ _).sync.up = false
      rw [htried.sync]
      rfl
    · obtain ⟨h1, h2, _⟩ := resyncEnd_running (s := hsbEvt 0 (modSync (fun l => { l with up := false }) s)) 0x03 hst
      exact ⟨h1, h2⟩

end Sys2Proof.Proofs
end

section
/-! SUPPORT. Lease, takeover, consensus and resynchronisation (R215, R219 to R229). -/

namespace Sys2Proof.Proofs
open Sys2Proof.Machine Sys2Proof.Safety Sys2Proof.Laws
set_option Elab.async false

/-! ## Beginning to originate (R215, R222 to R225) -/

/-- The next epoch can be used and is committed. -/
structure EpochReady (s : State) : Prop where
  fits : ownNext s < 2 ^ 32
  committed : s.hsb.committed = some (BitVec.ofNat 32 (ownNext s))

/-- The module leads with its next epoch and a whole lease; a takeover is counted, with its event. -/
def Leads (s : State) (ev : Option Nat) (t : State) : Prop :=
  t.hsb.role = .primary ∧ t.hsb.orig = true ∧ t.hsb.epoch.toNat = ownNext s ∧ t.hsb.left = BitVec.ofNat 5 (leaseLen s) ∧ t.hsb.silent = 0 ∧ t.sync.listening = false ∧
    ∀ b, ev = some b → t.hsb.evt.getLsbD b = true ∧ t.hsb.cnt[(3 : Fin 5)] = inc s.hsb.cnt[(3 : Fin 5)]

theorem Leads.congr {s t u : State} {ev : Option Nat} (h : Leads s ev t) (e : u.hsb = { t.hsb with wantEpoch := u.hsb.wantEpoch }) (k : u.sync = t.sync) : Leads s ev u := by
  unfold Leads
  rw [e, k]
  exact h

theorem setRole_hsb (r : Role) (s : State) : (setRole r s).hsb = { s.hsb with role := r } := by
  unfold setRole
  split
  next h => rw [← h]
  next => rfl

/-- The state of a module that has begun to originate, before it commits a further epoch. -/
def crowned (ev : Option Nat) (s : State) : State :=
  let e : Word := BitVec.ofNat 32 (ownNext s)
  let r := setRole .primary s
  let t := modHsb (fun h => { h with orig := true, epoch := e, seen := e, left := BitVec.ofNat 5 (field h.cfg 0 5), silent := 0, susp := ownSusp r
                                     cnt := if ev.isSome then h.cnt.set 3 (inc h.cnt[(3 : Fin 5)]) else h.cnt }) r
  modSync (fun l => { l with listening := false, relqGot := none, relqSent := none, ofs := 0 }) (ev.elim t fun b => hsbEvt b t)

theorem originate_ready (ev : Option Nat) {s : State} (h : EpochReady s) : originate ev s = epochAdvance (crowned ev s) := by
  have hfits : ¬ownNext s ≥ 2 ^ 32 := Nat.not_le.2 h.fits
  have hcommitted : ¬s.hsb.committed ≠ some (BitVec.ofNat 32 (ownNext s)) := not_not.2 h.committed
  cases ev <;> exact (if_neg hfits).trans (if_neg hcommitted)

theorem leads_crowned {ev : Option Nat} {s : State} (h : EpochReady s) (hev : ∀ b, ev = some b → b < 12) : Leads s ev (crowned ev s) := by
  have hepoch : (BitVec.ofNat 32 (ownNext s)).toNat = ownNext s := by rw [BitVec.toNat_ofNat, Nat.mod_eq_of_lt h.fits]
  cases ev with
  | none => exact ⟨setRole_role _ _, rfl, hepoch, by simp only [crowned, modSync, modHsb, Option.elim, setRole_hsb, leaseLen], rfl, rfl, fun _ k => absurd k (by simp)⟩
  | some b =>
    refine ⟨setRole_role _ _, rfl, hepoch, by simp only [crowned, modSync, modHsb, Option.elim, setRole_hsb, leaseLen, hsbEvt], rfl, rfl, fun c k => ?_⟩
    obtain rfl : b = c := Option.some.inj k
    exact ⟨setBit_true_same _ (hev b rfl), by simp [crowned, modSync, modHsb, hsbEvt, setRole_hsb]⟩

theorem leads_originate {ev : Option Nat} {s : State} (h : EpochReady s) (hev : ∀ b, ev = some b → b < 12) : Leads s ev (originate ev s) := by
  rw [originate_ready ev h]
  exact (leads_crowned h hev).congr (epochAdvance_hsb _) ((kept_epochAdvance (ps0 := [.hsb, .ps]) _ kept_refl (by decide)).only .sync (by decide))

/-- A train's departure leaves the standby block and the link as they are. -/
theorem leads_launchTrain {ev : Option Nat} {s t : State} (h : Leads s ev t) : Leads s ev (launchTrain t) := by
  have kept := (kept_launchTrain (ps0 := [.doms, .mem, .memRegs, .memErrs, .ring, .mbx]) t kept_refl (by decide)).only
  have hhsb : (launchTrain t).hsb = t.hsb := kept .hsb (by decide)
  exact h.congr (by rw [hhsb]) (kept .sync (by decide))

theorem leads_reopenConns {ev : Option Nat} {s t : State} (h : Leads s ev t) : Leads s ev (reopenConns t) := by
  have kept := (kept_reopenConns (ps0 := [.conns]) t kept_refl (by decide)).only
  have hhsb : (reopenConns t).hsb = t.hsb := kept .hsb (by decide)
  exact h.congr (by rw [hhsb]) (kept .sync (by decide))

/-- A takeover originates, reopens its connections where it has to and sends its first train. -/
theorem takeOverTrain_ready {ev : Nat} {reopen : Bool} {s : State} (h : EpochReady s) (hev : ev < 12) :
    let u := if reopen then reopenConns (originate (some ev) s) else originate (some ev) s
    takeOverTrain ev reopen s = if u.ring.dim != .off && pdOn .ring u then launchTrain u else u := by
  obtain ⟨-, horig, -⟩ := leads_originate (ev := some ev) h fun b k => (Option.some.inj k) ▸ hev
  exact if_neg (by rw [horig]; decide)

/-- One group's connections reopen. -/
def reopenGroup (s : State) (g : Fin 2) : State := match s.doms[groupDom g].image with
  | some im => { s with conns := s.conns.map fun lane => lane.set g ((im.conns.zip lane[g]).map fun z => { z.2 with startLeft := z.1.timeout + 2 }) }
  | none => s

theorem reopenGroup_doms (s : State) (g : Fin 2) : (reopenGroup s g).doms = s.doms := by
  unfold reopenGroup
  split <;> rfl

theorem reopenGroup_same {s : State} {g : Fin 2} {im : Image} (h : s.doms[groupDom g].image = some im) (l : Fin 3) :
    (reopenGroup s g).conns[l][g] = (im.conns.zip s.conns[l][g]).map fun z => { z.2 with startLeft := z.1.timeout + 2 } := by
  unfold reopenGroup
  rw [h]
  simp

theorem reopenGroup_other (s : State) {g g' : Fin 2} (h : g' ≠ g) (l : Fin 3) : (reopenGroup s g).conns[l][g'] = s.conns[l][g'] := by
  have : g.val ≠ g'.val := fun e => h (Fin.ext e.symm)
  unfold reopenGroup
  split <;> simp [this]

theorem reopenConns_conns {s : State} (l : Fin 3) {g : Fin 2} {im : Image} (h : s.doms[groupDom g].image = some im) :
    (reopenConns s).conns[l][g] = (im.conns.zip s.conns[l][g]).map fun z => { z.2 with startLeft := z.1.timeout + 2 } := by
  show (reopenGroup (reopenGroup s 0) 1).conns[l][g] = _
  rcases (by omega : g = 0 ∨ g = 1) with rfl | rfl
  · rw [reopenGroup_other _ (by decide), reopenGroup_same h]
  · rw [reopenGroup_same (by rw [reopenGroup_doms]; exact h), reopenGroup_other _ (by decide)]

/-! ## Consensus (R219, R220) -/

/-- The decision on a mismatch over cycle `k`, from this module's result and the partner's. -/
def decide3 (k : Long) (mine theirs : Bool) (s : State) : State := match s.hsb.role with
  | .primary => if mine && !theirs then sendRelinquish (k + 3) s else if !mine && !theirs then hsbEvt 7 s else s
  | .standby =>
    if theirs && !mine then s
    else
      let s := setRole .syncing s
      resyncBegin (if !mine && !theirs then hsbEvt 7 s else s)
  | _ => s

theorem decide3_primary {k : Long} {mine theirs : Bool} {s : State} (h : s.hsb.role = .primary) : (decide3 k mine theirs s).sync.cons = s.sync.cons ∧
    (decide3 k mine theirs s).hsb.role = .primary ∧
    (mine = true → theirs = false → (decide3 k mine theirs s).sync.relqSent = match s.sync.relqSent with
      | some n => some (if n.toNat < (k + 3).toNat then n else k + 3)
      | none => some (k + 3)) ∧
    (mine = true ∧ theirs = false ∨ (decide3 k mine theirs s).sync.relqSent = s.sync.relqSent) ∧
    (mine = false → theirs = false → (decide3 k mine theirs s).hsb.evt.getLsbD 7 = true) := by
  unfold decide3
  rw [h]
  cases mine <;> cases theirs
  · exact ⟨rfl, h, by simp, .inr rfl, fun _ _ => setBit_true_same _ (by decide)⟩
  · exact ⟨rfl, h, by simp, .inr rfl, by simp⟩
  · refine ⟨rfl, h, fun _ _ => ?_, .inl ⟨rfl, rfl⟩, by simp⟩
    show some (match s.sync.relqSent with | some n => if n.toNat < (k + 3).toNat then n else k + 3 | none => k + 3) = _
    cases s.sync.relqSent <;> rfl
  · exact ⟨rfl, h, by simp, .inr rfl, by simp⟩

theorem decide3_standby {k : Long} {mine theirs : Bool} {s : State} (h : s.hsb.role = .standby) : (decide3 k mine theirs s).sync.cons = s.sync.cons ∧
    (decide3 k mine theirs s).hsb.role = (if theirs && !mine then .standby else .syncing) ∧
    (mine = false → theirs = false → (decide3 k mine theirs s).hsb.evt.getLsbD 7 = true) := by
  unfold decide3
  rw [h]
  dsimp only
  by_cases hc : (theirs && !mine) = true
  · rw [if_pos hc, if_pos hc]
    refine ⟨rfl, h, fun h1 h2 => ?_⟩
    rw [h1, h2] at hc
    exact absurd hc (by decide)
  · rw [if_neg hc, if_neg hc]
    have began := tried_resyncBegin (if !mine && !theirs then hsbEvt 7 (setRole .syncing s) else setRole .syncing s)
    refine ⟨?_, ?_, fun h1 h2 => began.evt 7 ?_⟩
    · have hcons : (setRole .syncing s).sync.cons = s.sync.cons := congrArg SyncLink.cons (setRole_sync .syncing s)
      rw [began.sync]
      split <;> exact hcons
    · have hrole := setRole_role .syncing s
      rw [began.hsb]
      split <;> exact hrole
    · rw [h1, h2]
      exact setBit_true_same _ (by decide)

theorem decide3_other {k : Long} {mine theirs : Bool} {s : State} (h1 : s.hsb.role ≠ .primary) (h2 : s.hsb.role ≠ .standby) : decide3 k mine theirs s = s := by
  unfold decide3
  cases hr : s.hsb.role with
  | primary => exact absurd hr h1
  | standby => exact absurd hr h2
  | alone => rfl
  | syncing => rfl

/-! ## Attempts and requests (R226, R228, R229) -/

/-- An attempt can begin. -/
structure MayResync (s : State) : Prop where
  syncing : s.hsb.role = .syncing
  up : s.sync.up = true
  partner : s.sync.pRole = 1 ∨ s.sync.pRole = 4
  safe : inSafe s = false
  idle : s.sync.resync.state = 0
  versions : versionsOk s = true

theorem resyncBegin_may {s : State} (h : MayResync s) : (resyncBegin s).sync.resync.state = 1 ∧ (resyncBegin s).sync.resync.progress = 0 := by
  obtain ⟨hr, hu, hp, hs, hi, hv⟩ := h
  unfold resyncBegin
  rw [if_neg (by rw [hr, hu, hs, hi]; rcases hp with e | e <;> rw [e] <;> decide)]
  dsimp only
  split
  next hbad =>
    refine absurd hbad ?_
    show ¬(!versionsOk s) = true
    rw [hv]
    decide
  split
  · exact ⟨rfl, rfl⟩
  · exact ⟨rfl, rfl⟩

theorem tried_of_eq {s t : State} (hh : t.hsb = s.hsb) (hs : t.sync = s.sync) : Tried s t := by
  refine ⟨?_, fun b h => ?_, ?_, [], ?_⟩ <;> simp only [hh, hs, List.append_nil]
  exact h

theorem tried_foldl {α : Type} {f : State → α → State} (h : ∀ s x, Tried s (f s x)) (xs : List α) (s : State) : Tried s (xs.foldl f s) := by
  induction xs generalizing s with
  | nil => exact .refl s
  | cons x xs ih => exact (h s x).trans (ih _)

theorem modSess_keeps (i : Fin 5) (f : Session → Session) (s : State) : (modSess i f s).hsb = s.hsb ∧ (modSess i f s).sync = s.sync := by
  unfold modSess
  split <;> exact ⟨rfl, rfl⟩

theorem tried_modSess (i : Fin 5) (f : Session → Session) (s : State) : Tried s (modSess i f s) := tried_of_eq (modSess_keeps i f s).1 (modSess_keeps i f s).2

theorem tried_sendDatagram (i : Fin 5) (car : Carrier) (header : List Byte) (off : Nat) (blk : List Byte) (s : State) : Tried s (sendDatagram i car header off blk s) := by
  have signed (t : State) (k : t = modSess i (fun y => { y with txSeq := (sessOf { sess := i, tag := 0 } s).txSeq + 1 }) s) (m : List Sent) :
      Tried s { t with mbx := { t.mbx with out := m } } := by
    rw [k]
    exact (tried_modSess i _ s).trans (tried_of_eq rfl rfl)
  unfold sendDatagram
  split
  · exact .refl s
  · exact tried_sendSync _ _ _ _
  · exact signed _ rfl _

/-- An end of a command leaves the standby block, and the link but for the messages sent. -/
theorem tried_finishCode (r : CmdRef) (st : BitVec 16) (detail : Nat) (data : List Byte) (s : State) : Tried s (finishCode r st detail data s) := by
  unfold finishCode
  split
  · exact tried_of_eq rfl rfl
  · dsimp only
    split
    · exact (tried_modSess _ _ _).trans (tried_of_eq rfl rfl)
    · exact (tried_modSess _ _ _).trans (tried_foldl (fun _ _ => tried_sendDatagram _ _ _ _ _ _) _ _)

/-- An image that the partner names is loaded already, or it names none. -/
theorem adoptImage_same {d : DomId} {s : State} (h : ∀ p ∈ s.sync.pHello, ∀ x ∈ p.images[d.val]?, x = 0 ∨ ∃ im ∈ s.doms[d].image, im.id = x) : adoptImage d s = s := by
  unfold adoptImage
  split
  · rfl
  next id hid =>
    obtain ⟨p, hp, rfl⟩ := Option.map_eq_some_iff.1 hid
    refine if_pos ?_
    rcases h p hp p.images[d] (by simp) with h0 | ⟨im, him, hx⟩
    · rw [h0]
      rfl
    · rw [Option.mem_def.1 him, Option.any_some, hx, beq_self_eq_true, Bool.or_true]

/-- The image phase is over. -/
def imaged (s : State) : State := modSync (fun l => { l with resync := { l.resync with state := 2, progress := 0 } }) s

/-- Settles O24: who may originate does, with all that a lease needs, and an attempt or a consensus check touches only what is its own. -/
theorem leaseAndResynchronisationMoveTheRole : Obligations.LeaseAndResynchronisationMoveTheRole := by
  unfold Obligations.LeaseAndResynchronisationMoveTheRole
  intro s n leads begins fails
  refine ⟨fun hn hc => ⟨fun hl ht => ?_, fun hr ha ht => ?_, fun k hk hr ha ht => ?_⟩, fun hn hc hl ht => ?_, fun hr ho hl => ?_, fun c hc ht => ?_, fun v hv hp => ?_,
    fun hb hr hp hu hcmp hs hprep hq hpd => ?_, fun k hk hp hd => ?_, fun hb hp => ?_, fun t0 h0 ht => ?_, fun hb hp hr hst => ?_, fun hst hw => ⟨?_, fun hsame => ?_⟩,
    fun hst => ?_, fun hst hpr => ?_, fun d hd hdim hr hsu => ?_, fun hst hpr => ?_⟩
  · have hrun : exec .listenTimeout s = .next (originate none s) := congrArg Host.Outcome.next (if_pos (by rw [hl, Bool.true_and]; exact decide_eq_true ht))
    exact gives_of_leaves (leaves_listenTimeout s) hrun (leads_originate ⟨hn, hc⟩ (by simp))
  · have hrun : exec .takeoverLease s = .next (takeOverTrain 2 true s) := congrArg Host.Outcome.next (if_pos (by rw [hr, ha]; exact decide_eq_true ht))
    have hready : EpochReady s := ⟨hn, hc⟩
    have hlead := leads_reopenConns (leads_originate (ev := some 2) hready (by simp))
    have hconns (u : State) (hu : u.conns = (reopenConns (originate (some 2) s)).conns) (l : Fin 3) (g : Fin 2) (im : Image) (him : s.doms[groupDom g].image = some im) :
        u.conns[l][g] = (im.conns.zip s.conns[l][g]).map fun z => { z.2 with startLeft := z.1.timeout + 2 } := by
      have kept := (kept_originate (ps0 := [.hsb, .sync, .ps, .arb, .log]) (some 2) s kept_refl (by decide)).only
      have hdoms : (originate (some 2) s).doms = s.doms := kept .doms (by decide)
      have hold : (originate (some 2) s).conns = s.conns := kept .conns (by decide)
      simp only [hu]
      rw [reopenConns_conns l (by rw [hdoms]; exact him), hold]
    refine gives_of_leaves ((leaves_takeoverLease s).mono (by decide)) hrun ?_
    rw [takeOverTrain_ready hready (by decide)]
    dsimp only
    rw [if_pos rfl]
    split
    · have kept := (kept_launchTrain (ps0 := [.doms, .mem, .memRegs, .memErrs, .ring, .mbx]) (reopenConns (originate (some 2) s)) kept_refl (by decide)).only
      exact ⟨leads_launchTrain hlead, hconns _ (kept .conns (by decide))⟩
    · exact ⟨hlead, hconns _ rfl⟩
  · have hrun : exec .takeoverRelinquish s = .next (takeOverTrain 3 false s) := by
      show execTakeoverRelinquish s = _
      unfold execTakeoverRelinquish
      rw [hk]
      exact congrArg Host.Outcome.next (if_pos (by rw [hr, ha]; exact decide_eq_true ht))
    have hready : EpochReady s := ⟨hn, hc⟩
    have hlead := leads_originate (ev := some 3) hready (by simp)
    have horiginate := kept_originate (ps0 := [.doms, .mem, .memRegs, .memErrs, .mbx, .ring, .hsb, .sync, .ps, .arb, .log]) (some 3) s kept_refl (by decide)
    rw [takeOverTrain_ready hready (by decide)] at hrun
    rw [if_neg Bool.false_ne_true] at hrun
    refine ⟨_, hrun, ?_⟩
    split
    · exact ⟨(kept_launchTrain _ horiginate (by decide)).only, leads_launchTrain hlead⟩
    · exact ⟨horiginate.only, hlead⟩
  · have hrun : exec .listenTimeout s = .next (hsbEvt 11 (epochAdvance s)) := congrArg Host.Outcome.next ((if_pos (by rw [hl, Bool.true_and]; exact decide_eq_true ht)).trans
      ((if_neg (Nat.not_le.2 hn)).trans (if_pos hc)))
    refine ⟨_, hrun, (kept_hsbEvt _ _ (kept_epochAdvance _ kept_refl (by decide)) (by decide)).only, ?_, ?_, setBit_true_same _ (by decide)⟩
    · have hrole := congrArg Hsb.role (epochAdvance_hsb s)
      exact hrole
    · have horig := congrArg Hsb.orig (epochAdvance_hsb s)
      exact horig
  · have hrun : exec .leaseLapse s = .next (hsbEvt 4 (stepDown s)) := congrArg Host.Outcome.next (if_pos (by rw [hr, ho, hl]; decide))
    exact gives_of_leaves (leaves_leaseLapse s) hrun ⟨setRole_role .syncing s, rfl, setBit_true_same _ (by decide)⟩
  · intro mine theirs
    have hrun : exec .consensusDecision s = .next (decide3 c.cyc mine theirs (modSync (fun l => { l with cons := none }) s)) := by
      show execConsensusDecision s = _
      unfold execConsensusDecision
      rw [hc, Option.filter_some, if_pos (decide_eq_true ht)]
      rfl
    refine gives_of_leaves (leaves_consensusDecision s) hrun ?_
    by_cases hpr : s.hsb.role = .primary
    · obtain ⟨h1, h2, h3, h4, h5⟩ := decide3_primary (k := c.cyc) (mine := mine) (theirs := theirs) (s := modSync (fun l => { l with cons := none }) s) hpr
      exact ⟨h1, fun _ => ⟨h2, h3, h4⟩, fun k => absurd (hpr.symm.trans k) (by decide), fun a b _ => h5 a b⟩
    · by_cases hst : s.hsb.role = .standby
      · obtain ⟨h1, h2, h3⟩ := decide3_standby (k := c.cyc) (mine := mine) (theirs := theirs) (s := modSync (fun l => { l with cons := none }) s) hst
        exact ⟨h1, fun k => absurd k hpr, fun _ => h2, fun a b _ => h3 a b⟩
      · have hsame : decide3 c.cyc mine theirs (modSync (fun l => { l with cons := none }) s) = modSync (fun l => { l with cons := none }) s := decide3_other hpr hst
        rw [hsame]
        exact ⟨rfl, fun k => absurd k hpr, fun k => absurd k hst, fun _ _ k => k.elim (absurd · hpr) (absurd · hst)⟩
  · show execEpochCommit s = _
    obtain ⟨h4, h5⟩ : (copyValid 3 (page 4 s) = true ∧ sliceNat 0 4 (copyPayload (page 4 s)) = v.toNat) ∧ copyValid 3 (page 5 s) = true ∧ sliceNat 0 4 (copyPayload (page 5 s)) = v.toNat :=
      ⟨hp _ (by simp), hp _ (by simp)⟩
    unfold execEpochCommit
    rw [hv]
    refine congrArg Host.Outcome.next (if_pos ?_)
    dsimp only
    rw [h4.1, h4.2, h5.1, h5.2, beq_self_eq_true]
    rfl
  · have hfree : hsbRefusal .switchover s = none := by
      simp only [hsbRefusal]
      rw [hr, hp, hu, hs, hprep, hq, hpd, if_neg (by decide), if_neg (by decide), if_neg (by decide), if_neg (Nat.not_lt.2 hcmp), if_neg (by decide), if_neg (by decide), if_neg (by decide)]
    show execSwitchover s = _
    unfold execSwitchover hsbRequest
    rw [hb, hfree]
    rfl
  · have hrun : exec .prepareTimeout s = .next ((waiting .hsb (modHsb (fun h => { h with reqBusy := false, reqReason := 0x0A, reqRefused := true }) (modSync (fun l => { l with prepM := none }) s))).foldl
        (fun s c => finishRefused c 0x0A "PREPARE_TIMEOUT" s) (modHsb (fun h => { h with reqBusy := false, reqReason := 0x0A, reqRefused := true }) (modSync (fun l => { l with prepM := none }) s))) := by
      show execPrepareTimeout s = _
      unfold execPrepareTimeout
      rw [hk]
      exact congrArg Host.Outcome.next (if_neg (by rw [hp, hd]; decide))
    refine gives_of_leaves (leaves_prepareTimeout s) hrun ⟨?_, ?_⟩
    · have tried := tried_foldl (f := fun s c => finishRefused c 0x0A "PREPARE_TIMEOUT" s) (fun s c => tried_finishCode c _ _ _ s)
        (waiting .hsb (modHsb (fun h => { h with reqBusy := false, reqReason := 0x0A, reqRefused := true }) (modSync (fun l => { l with prepM := none }) s)))
        (modHsb (fun h => { h with reqBusy := false, reqReason := 0x0A, reqRefused := true }) (modSync (fun l => { l with prepM := none }) s))
      rw [tried.sync]
      rfl
    · exact (kept_foldl (ps := [.sync, .mbx]) kept_refl fun _ _ k => kept_finishRefused _ _ _ _ k (by decide)).only .hsb (by decide)
  · intro hr hu hpr hs hi hv
    have hfree : hsbRefusal .resync s = none := by
      simp only [hsbRefusal]
      rw [hr, hu, hs, hp]
      rfl
    have hrun : exec .resync s = .next (resyncBegin (modHsb (fun h => { h with reqReason := 0, reqRefused := false }) s)) := by
      show execResync s = _
      unfold execResync hsbRequest
      rw [hb, hfree]
      rfl
    exact gives_of_leaves (leaves_resync s) hrun (resyncBegin_may (s := modHsb (fun h => { h with reqReason := 0, reqRefused := false }) s) ⟨hr, hu, hpr, hs, hi, hv⟩)
  · intro hr hu hpr hs hi hv
    refine gives_of_leaves (leaves_resyncRetry s) (congrArg Host.Outcome.next (if_pos ?_)) (resyncBegin_may ⟨hr, hu, hpr, hs, hi, hv⟩)
    rw [resyncDue, h0]
    exact decide_eq_true ht
  · have hrun : exec .abortSync s = .next (resyncEnd 0x04 (modHsb (fun h => { h with reqReason := 0, reqRefused := false }) s)) := by
      show execAbortSync s = _
      unfold execAbortSync hsbRequest
      rw [hb, show hsbRefusal .abortSync s = none by simp only [hsbRefusal]; rw [hp, hr]; rfl]
      rfl
    refine ⟨_, hrun, (kept_resyncEnd _ _ (kept_modHsb _ _ kept_refl (by decide)) (by decide)).only, ?_⟩
    exact resyncEnd_running (s := modHsb (fun h => { h with reqReason := 0, reqRefused := false }) s) 0x04 hst
  · have hrun : exec .resyncImageDone s = .next (allDoms.foldl (fun s d => adoptImage d s) (imaged s)) := congrArg Host.Outcome.next (if_pos (by rw [hst, hw]; rfl))
    refine gives_of_leaves (leaves_resyncImageDone s) hrun ?_
    exact (kept_foldl (ps := [.cores, .doms, .mem, .memRegs, .memErrs, .voter, .solvers, .ixl, .conns, .fg, .fgErr, .wdg, .cim, .arch, .boot, .log, .freeCtr]) kept_refl
      fun _ _ k => kept_adoptImage _ _ k (by decide)).only .sync (by decide)
  · have hadopt (d : DomId) : adoptImage d (imaged s) = imaged s := adoptImage_same (s := imaged s) fun p hp => hsame p hp d
    refine congrArg Host.Outcome.next ((if_pos (by rw [hst, hw]; rfl)).trans ?_)
    show adoptImage 5 (adoptImage 4 (adoptImage 3 (adoptImage 2 (adoptImage 1 (adoptImage 0 (imaged s)))))) = imaged s
    simp only [hadopt]
  · have hrun : exec .resyncStateClean s = .next (partnerState (modSync (fun l => { l with resync := { l.resync with state := 3, progress := 0 } }) s)) :=
      congrArg Host.Outcome.next (if_pos hst)
    refine gives_of_leaves ((leaves_resyncStateClean s).mono (by decide)) hrun ⟨rfl, fun l g => ?_⟩
    simp [partnerState, nextFree, modSync]
  · have hrun : exec .resyncJoined s = .next (setRole .standby (modSync (fun l => { l with resync := { l.resync with state := 0, result := 1 } }) s)) :=
      congrArg Host.Outcome.next (if_pos (by rw [hst]; exact decide_eq_true hpr))
    exact gives_of_leaves (leaves_resyncJoined s) hrun ⟨setRole_role _ _, setRole_sync _ _⟩
  · have hrun : exec (.changeConfirmEffect d) s = .next (resyncBegin (setRole .syncing (suspend d false s))) :=
      congrArg Host.Outcome.next (if_pos (by rw [hdim, hr, hsu, decide_eq_true hd]; rfl))
    have hsuspend : Kept [.hsb, .sync, .arb, .log, .freeCtr] s (suspend d false s) := kept_suspend _ _ _ kept_refl (by decide)
    refine ⟨_, hrun, (kept_resyncBegin _ (kept_setRole _ _ hsuspend (by decide)) (by decide)).only, ?_⟩
    have hrole := setRole_role .syncing (suspend d false s)
    dsimp only
    rw [(tried_resyncBegin _).hsb]
    exact hrole
  · have hrun : exec .resyncNoconv s = .next (resyncEnd 0x02 s) := congrArg Host.Outcome.next (if_pos (by rw [hst]; exact decide_eq_true hpr))
    exact gives_of_leaves (leaves_resyncNoconv s) hrun (resyncEnd_running 0x02 (by rw [hst]; decide))

end Sys2Proof.Proofs
end

section
/-! SUPPORT. Ring frames, time sources, links and breaks (R154, R162, R183, R193, R200 to R204). -/

namespace Sys2Proof.Proofs
open Sys2Proof.Machine Sys2Proof.Safety Sys2Proof.Laws
set_option Elab.async false

/-! ## A frame that passes (R154, R162, R164, R211) -/

/-- What the comparison and the record of a frame leave as it was. -/
structure Passing (s t : State) : Prop where
  relayed : t.ring.relayed = s.ring.relayed
  epoch : t.hsb.epoch = s.hsb.epoch
  silent : t.hsb.silent = s.hsb.silent
  accepted : t.sync.accepted = s.sync.accepted
  cyc : t.cyc = s.cyc

theorem Passing.refl (s : State) : Passing s s := ⟨rfl, rfl, rfl, rfl, rfl⟩

theorem Passing.trans {s t u : State} (h1 : Passing s t) (h2 : Passing t u) : Passing s u :=
  ⟨h2.relayed.trans h1.relayed, h2.epoch.trans h1.epoch, h2.silent.trans h1.silent, h2.accepted.trans h1.accepted, h2.cyc.trans h1.cyc⟩

theorem Tried.passing {s t : State} (h : Tried s t) (k : Kept [.hsb, .sync, .freeCtr] s t) : Passing s t where
  relayed := congrArg Ring.relayed (k.only .ring (by decide))
  epoch := by rw [h.hsb]
  silent := by rw [h.hsb]
  accepted := by rw [h.sync]
  cyc := k.only .cyc (by decide)

theorem passing_foldl {α : Type} {f : State → α → State} (h : ∀ s x, Passing s (f s x)) (xs : List α) (s : State) : Passing s (xs.foldl f s) := by
  induction xs generalizing s with
  | nil => exact .refl s
  | cons x xs ih => exact (h s x).trans (ih _)

theorem passing_modRing {r s : State} {f : Ring → Ring} (h : Passing r s) (hf : ∀ x, (f x).relayed = x.relayed) : Passing r (modRing f s) :=
  h.trans ⟨hf _, rfl, rfl, rfl, rfl⟩

theorem passing_modHsb {r s : State} {f : Hsb → Hsb} (h : Passing r s) (he : ∀ x, (f x).epoch = x.epoch) (hs : ∀ x, (f x).silent = x.silent) : Passing r (modHsb f s) :=
  h.trans ⟨rfl, he _, hs _, rfl, rfl⟩

theorem passing_modSync {r s : State} {f : SyncLink → SyncLink} (h : Passing r s) (hf : ∀ x, (f x).accepted = x.accepted) : Passing r (modSync f s) :=
  h.trans ⟨rfl, rfl, rfl, hf _, rfl⟩

theorem passing_modRtm {r s : State} (f : Rtm → Rtm) (h : Passing r s) : Passing r (modRtm f s) := h.trans ⟨rfl, rfl, rfl, rfl, rfl⟩

theorem passing_sendSync {r s : State} (type : Byte) (k : Long) (body : List Byte) (h : Passing r s) : Passing r (sendSync type k body s) :=
  h.trans ⟨rfl, rfl, rfl, rfl, rfl⟩

theorem passing_consensusBegin {r s : State} (k : Long) (m : Byte) (h : Passing r s) : Passing r (consensusBegin k m s) := by
  unfold consensusBegin
  split
  · exact h
  · exact passing_modSync h fun _ => rfl

theorem passing_resyncEnd {r s : State} (b : Byte) (h : Passing r s) : Passing r (resyncEnd b s) :=
  h.trans ((tried_resyncEnd _ _).passing (kept_resyncEnd _ _ kept_refl (by decide)))

theorem passing_compareAll (t : Train) (s : State) : Passing s (compareAll t s) := by
  unfold compareAll hsbEvt
  dsimp only
  repeat (any_goals first | with_reducible exact Passing.refl s | with_reducible apply passing_resyncEnd | with_reducible apply passing_consensusBegin | with_reducible apply passing_sendSync | with_reducible apply passing_modSync | with_reducible apply passing_modHsb | with_reducible apply passing_modRing | split | with_reducible intro _ | rfl)

theorem passing_recordFrame (ring : Fin 2) (f : Frame) (s : State) : Passing s (recordFrame ring f s) := by
  have bad (n : Nat) (rs : List CoachRet) (u : State) : Passing u (rs.foldl (fun s r => if r.idx < n then ringCount ring 2 s else s) u) := passing_foldl (fun s r => by
    split
    · exact passing_modRing (.refl s) fun _ => rfl
    · exact .refl s) rs u
  have late (b : Prop) [Decidable b] (u : State) : Passing u (if b then modRtm (fun m => { m with evt := Sys2Proof.Machine.setBit m.evt 6 true }) u else u) := by
    split
    · exact passing_modRtm _ (.refl u)
    · exact .refl u
  unfold recordFrame
  split
  · dsimp only
    split
    · exact .refl s
    split
    · exact .refl s
    · exact passing_modRing ((bad _ _ _).trans (late _ _)) fun _ => rfl
  · exact .refl s

theorem heard_epoch (s : State) : (heard s).hsb.epoch = s.hsb.epoch ∧ (heard s).hsb.silent = s.hsb.silent ∧ (heard s).sync.accepted = s.sync.accepted := by
  unfold heard
  split
  · have began := tried_resyncBegin (setRole .syncing (modSync (fun l => { l with listening := false }) s))
    rw [began.hsb, began.sync, setRole_hsb, setRole_sync]
    exact ⟨rfl, rfl, rfl⟩
  · exact ⟨rfl, rfl, rfl⟩

theorem leNat_lt (bs : List Byte) : leNat bs < 2 ^ (8 * bs.length) := by
  induction bs with
  | nil => decide
  | cons b bs ih =>
    have hb := b.isLt
    rw [leNat, List.length_cons, Nat.mul_succ, Nat.pow_add]
    omega

theorem sliceNat_four_lt (o : Nat) (bs : List Byte) : sliceNat o 4 bs < 2 ^ 32 := by
  refine (leNat_lt _).trans_le (Nat.pow_le_pow_right (by decide) ?_)
  have := List.length_take_le 4 (bs.drop o)
  omega

theorem sliceNat_drop (k o n : Nat) (bs : List Byte) : sliceNat o n (bs.drop k) = sliceNat (k + o) n bs := by
  unfold sliceNat
  rw [List.drop_drop]

/-- What an accepted lead coach leaves: its epoch, the silence ended, and T_k before its first bit. -/
theorem acceptLead_spec (ring : Fin 2) (payload : List Byte) (s : State) :
    (acceptLead ring payload s).hsb.epoch.toNat = sliceNat 30 4 payload ∧ (acceptLead ring payload s).hsb.silent = 0 ∧
      (acceptLead ring payload s).sync.accepted = true ∧
      (acceptLead ring payload s).cyc.tk = s.cyc.tb - BitVec.ofNat 64 (frameTicks payload.length s) - BitVec.ofNat 64 (delayTo ring none s / 800) := by
  let u := if (BitVec.ofNat 32 (sliceNat 12 4 (payload.drop 18)) : Word).toNat > s.hsb.epoch.toNat then hsbEvt 5 s else s
  let v := noteEpoch (BitVec.ofNat 32 (sliceNat 12 4 (payload.drop 18))) (modHsb (fun h => { h with epoch := BitVec.ofNat 32 (sliceNat 12 4 (payload.drop 18)), silent := 0 }) u)
  have hcyc : v.cyc = s.cyc := by
    have hu : Kept [.hsb, .ps] s u := by
      show Kept _ s (if _ then _ else _)
      split
      · exact kept_hsbEvt _ _ kept_refl (by decide)
      · exact kept_refl
    exact (kept_noteEpoch _ _ (kept_modHsb _ _ hu (by decide)) (by decide)).only .cyc (by decide)
  have hepoch : v.hsb.epoch = BitVec.ofNat 32 (sliceNat 12 4 (payload.drop 18)) := by
    show (noteEpoch _ _).hsb.epoch = _
    rw [noteEpoch_hsb]
    rfl
  have hsilent : v.hsb.silent = 0 := by
    show (noteEpoch _ _).hsb.silent = _
    rw [noteEpoch_hsb]
    rfl
  obtain ⟨w, hw, h1, h2, h3, h4⟩ : ∃ w, acceptLead ring payload s = heard w ∧ w.hsb = v.hsb ∧ w.sync.accepted = true ∧
      w.cyc.tk = s.cyc.tb - BitVec.ofNat 64 (frameTicks payload.length s) - BitVec.ofNat 64 (delayTo ring none s / 800) ∧ True := ⟨_, rfl, rfl, rfl, rfl, trivial⟩
  obtain ⟨he, hs, ha⟩ := heard_epoch w
  have hkept : (heard w).cyc = w.cyc := (kept_heard (ps0 := [.hsb, .sync, .arb, .log, .freeCtr]) w kept_refl (by decide)).only .cyc (by decide)
  rw [hw, he, hs, ha, hkept, h1, hepoch, hsilent, sliceNat_drop, BitVec.toNat_ofNat, Nat.mod_eq_of_lt (sliceNat_four_lt _ _)]
  exact ⟨rfl, rfl, h2, h3⟩

/-- A frame with an accepted lead coach: the coach is taken before the frame is recorded and compared. -/
theorem passing_relayFrame {ring : Fin 2} {f : Frame} {s : State} (h0 : sliceNat 1 1 f.payload = 0) (hl : leadAccepted f.payload s = true) :
    Passing (acceptLead ring f.payload s) (relayFrame ring f s) := by
  have hlead : (sliceNat 1 1 f.payload = 0 && leadAccepted f.payload s) = true := by rw [h0, hl]; rfl
  unfold relayFrame
  rw [hlead]
  have rec_ := passing_recordFrame ring f (acceptLead ring f.payload s)
  dsimp only
  rw [if_pos rfl, if_neg (by simp)]
  split
  · split
    · exact rec_.trans (passing_compareAll _ _)
    · exact rec_
  · exact rec_

/-- The frame recorded while its train runs: its place, its copies and when all stations were valid. -/
theorem recordFrame_new {ring : Fin 2} {f : Frame} {s : State} {x : Train} {l : Layout} {is : List Nat} (hx : s.ring.train = some x) (hl : s.ring.layout = some l)
    (h1 : sliceNat 0 1 f.payload = 1) (hk : sliceNat 4 4 f.payload = (pairNo x.cyc s).toNat % 2 ^ 32) (hg : x.got[ring].contains (sliceNat 1 1 f.payload) = false)
    (his : (layoutFrames l)[sliceNat 1 1 f.payload]? = some is) :
    ∃ y, (recordFrame ring f s).ring.train = some y ∧ y.got[ring] = sliceNat 1 1 f.payload :: x.got[ring] ∧
      y.rets = (if s.cyc.ir = none then x.rets ++ parseCoaches l ring f.payload 8 is else x.rets) ∧
      y.validAt = x.validAt.or (if coachesValid l y then some s.cyc.tb else none) := by
  have bad (rs : List CoachRet) : (rs.foldl (fun s r => if r.idx < l.coaches.length then ringCount ring 2 s else s) s).cyc = s.cyc := (passing_foldl (fun s r => by
    split
    · exact passing_modRing (.refl s) fun _ => rfl
    · exact .refl s) rs s).cyc
  have late (b : Prop) [Decidable b] (u : State) : (if b then modRtm (fun m => { m with evt := Sys2Proof.Machine.setBit m.evt 6 true }) u else u).cyc = u.cyc := by
    split <;> rfl
  have hnew : ¬(sliceNat 0 1 f.payload ≠ 1 || sliceNat 4 4 f.payload ≠ (pairNo x.cyc s).toNat % 2 ^ 32 || x.got[ring].contains (sliceNat 1 1 f.payload)) = true := by
    rw [h1, hk, hg]
    simp
  unfold recordFrame
  rw [hx, hl]
  dsimp only
  rw [if_neg hnew, his]
  dsimp only
  refine ⟨_, rfl, ?_, ?_, ?_⟩
  · simp
  · dsimp only
    rw [late, bad]
    cases s.cyc.ir <;> rfl
  · dsimp only
    rw [late, bad]
    rfl

theorem portActive_congr {s t : State} (p : Port) (hb : t.boot = s.boot) (hd : t.ring.dim = s.ring.dim) (hc : t.ring.cfg = s.ring.cfg) (he : t.ring.en = s.ring.en) :
    portActive p t = portActive p s := by
  simp only [portActive, pdOn, hb, hd, hc, he]

theorem markBroken_ring (r : Fin 2) (s : State) : (markBroken r s).ring = s.ring := by
  unfold markBroken
  split <;> rfl

theorem linkDown_ring (p : Port) (s : State) : (linkDown p s).ring = { s.ring with linkUp := s.ring.linkUp.set p false } := by
  unfold linkDown
  dsimp only
  split
  · exact markBroken_ring _ _
  · rfl

theorem native_of {s : State} (h : s.ring.dim = .nativeDual ∨ s.ring.dim = .nativeSingle) : native s = true := by
  unfold native
  rcases h with h | h <;> rw [h] <;> rfl

theorem todo_surveyAll {s : State} {c : CoachDecl} (h : c ∈ coachesOf s) : ∃ b, (c.addr, b) ∈ (surveyAll s).rtm.todo :=
  ⟨false, List.mem_map.2 ⟨c, h, rfl⟩⟩

/-- The ring's counters after a frame of the ring's type. -/
def countedOf (r : Fin 2) (good : Bool) (s : State) : State := if good then ringCount r 0 s else ringCount r 1 (ringCount r 0 s)

theorem countedOf_eq (r : Fin 2) (good : Bool) (s : State) : ∃ c, countedOf r good s = { s with ring := { s.ring with cnt := c } } := by
  cases good <;> exact ⟨_, rfl⟩

/-- A frame of the ring's type at an active port: it is counted, and goes on from there. -/
def frameOn (p : Port) (f : Frame) (s : State) : State :=
  if !portReceives p s || !s.ring.on[portRing p] then s
  else if s.hsb.orig then
    (if p = 1 then reverseFrame f s
     else if f.fcsGood && f.src == s.fuses.mac + 1 then recordFrame (portRing p) f (lateFrame f s) else s)
  else if !paired s then s
  else if f.fcsGood then relayFrame (portRing p) f (relayOut (if p = 1 then 0 else p + 1) f s) else relayOut (if p = 1 then 0 else p + 1) f s

theorem exec_frameReceive {p : Port} {f : Frame} {s : State} (ha : portActive p s = true) (hf : f.etype.toNat = field s.ring.cfg 16 16) :
    exec (.frameReceive p f) s = .next (frameOn p f (countedOf (portRing p) f.fcsGood s)) := by
  refine congrArg Host.Outcome.next ((if_neg (by rw [ha]; decide)).trans ((if_neg (not_not.2 hf)).trans ?_))
  unfold frameOn countedOf
  cases f.fcsGood <;> rfl

/-- Settles O25: each row's branch is its clause; what a frame's record and comparison touch besides is only counted and added. -/
theorem ringFramesLinksAndBreaksAreRecorded : Obligations.RingFramesLinksAndBreaksAreRecorded := by
  unfold Obligations.RingFramesLinksAndBreaksAreRecorded
  intro s p ring out count bit
  refine ⟨fun f hact => ⟨fun hf => ?_, fun hf => ?_⟩, fun r hfo hc => ?_, fun hfo hc => ?_, fun mode hact => ⟨fun hm => ?_, fun hm => ?_⟩, ?_, fun hb hg => ?_, fun hd => ?_, fun hd hl => ?_⟩
  · refine congrArg Host.Outcome.next ((if_neg ?_).trans (if_pos hf))
    rw [hact]
    decide
  · intro counted
    have hc : ∃ c, countedOf ring f.fcsGood s = { s with ring := { s.ring with cnt := c } } ∧ counted = { s.ring with cnt := c } := by
      cases hg : f.fcsGood
      · refine ⟨_, rfl, ?_⟩
        simp only [counted, hg]
        rfl
      · refine ⟨_, rfl, ?_⟩
        simp only [counted, hg]
        rfl
    obtain ⟨c, hcs, hcr⟩ := hc
    have hrun := exec_frameReceive hact hf
    rw [show countedOf (portRing p) f.fcsGood s = _ from hcs] at hrun
    rw [hcr]
    have hports : portReceives p { s with ring := { s.ring with cnt := c } } = portReceives p s := rfl
    refine ⟨fun hstop => hrun.trans (congrArg _ ?_), fun hr hon => ⟨fun ho hp hg => ?_, fun ho hp hg h0 hlead => ?_, fun ho hp1 hloop => ?_, fun ho hp1 hg hsrc x l is hx hl hv hk hnew his => ?_⟩⟩
    · unfold frameOn
      rw [hports]
      rcases hstop with h | h | ⟨ho, hp⟩ | ⟨ho, hg, hp⟩
      · exact if_pos (by rw [h]; rfl)
      · exact if_pos (by rw [show (State.ring { s with ring := { s.ring with cnt := c } }).on[portRing p] = false from h, Bool.not_false, Bool.or_true])
      · rw [ite_eq_left_iff]
        exact fun _ => (if_neg (Bool.eq_false_iff.1 ho)).trans (if_pos (by rw [show paired { s with ring := { s.ring with cnt := c } } = false from hp]; rfl))
      · rw [ite_eq_left_iff]
        exact fun _ => (if_pos ho).trans ((if_neg hp).trans (if_neg (by rw [hg, Bool.false_and]; decide)))
    all_goals
      have hpass : frameOn p f { s with ring := { s.ring with cnt := c } } = _ := if_neg (by rw [hports, hr, show (State.ring { s with ring := { s.ring with cnt := c } }).on[portRing p] = true from hon]; decide)
      rw [hpass] at hrun
    · refine hrun.trans (congrArg _ ?_)
      exact (if_neg (Bool.eq_false_iff.1 ho)).trans ((if_neg (by rw [show paired { s with ring := { s.ring with cnt := c } } = true from hp]; decide)).trans (if_neg (Bool.eq_false_iff.1 hg)))
    · let u := relayOut out f { s with ring := { s.ring with cnt := c } }
      have hu : frameOn p f { s with ring := { s.ring with cnt := c } } = relayFrame ring f u :=
        hpass.trans ((if_neg (Bool.eq_false_iff.1 ho)).trans ((if_neg (by rw [show paired { s with ring := { s.ring with cnt := c } } = true from hp]; decide)).trans (if_pos hg)))
      rw [hpass] at hu
      rw [hu] at hrun
      obtain ⟨h1, h2, h3, h4⟩ := acceptLead_spec ring f.payload u
      have pass := passing_relayFrame (ring := ring) (f := f) (s := u) h0 hlead
      refine gives_of_leaves (leaves_frameReceive p f s) hrun ⟨?_, ?_, ?_, ?_, ?_⟩
      · rw [pass.relayed]
        exact congrArg Ring.relayed ((kept_acceptLead (ps0 := [.cyc, .rtm, .hsb, .sync, .ps, .arb, .log, .freeCtr]) ring f.payload u kept_refl (by decide)).only .ring (by decide))
      · rw [pass.epoch, h1]
      · rw [pass.silent, h2]
      · rw [pass.accepted, h3]
      · rw [pass.cyc, h4]
        rfl
    · have hloop' : ¬(s.rtm.loop.any fun m => ((s.ring.layout.map fun l => l.coaches.length).getD 0) ≤ m) = true := by
        have hlen : (s.ring.layout.map fun l => l.coaches.length).getD 0 = (coachesOf s).length := by
          unfold coachesOf
          cases s.ring.layout <;> rfl
        rw [hlen]
        cases hm : s.rtm.loop with
        | none => simp
        | some m => simpa using hloop m hm
      refine hrun.trans (congrArg _ ((if_pos ho).trans ((if_pos hp1).trans ?_)))
      exact if_neg hloop'
    · let u := lateFrame f { s with ring := { s.ring with cnt := c } }
      have hrec : frameOn p f { s with ring := { s.ring with cnt := c } } = recordFrame ring f u :=
        hpass.trans ((if_pos ho).trans ((if_neg hp1).trans (if_pos (by rw [hg, Bool.true_and]; exact beq_iff_eq.2 hsrc))))
      rw [← hpass, hrec] at hrun
      have hlate := (kept_lateFrame (ps0 := [.rtm]) f { s with ring := { s.ring with cnt := c } } kept_refl (by decide)).only
      have hring : u.ring = { s.ring with cnt := c } := hlate .ring (by decide)
      have hcyc : u.cyc = s.cyc := hlate .cyc (by decide)
      have hno : pairNo x.cyc u = x.cyc := if_pos ((congrArg Hsb.orig (hlate .hsb (by decide))).trans ho)
      have hlateKept := kept_lateFrame f { s with ring := { s.ring with cnt := c } } (ps0 := [.ring, .rtm]) (kept_upd_ring kept_refl (by decide)) (by decide)
      obtain ⟨y, h1, h2, h3, h4⟩ := recordFrame_new (ring := ring) (f := f) (s := u) (x := x) (l := l) (by rw [hring]; exact hx) (by rw [hring]; exact hl) hv (by rw [hno]; exact hk) hnew his
      rw [hcyc] at h3 h4
      exact ⟨_, hrun, (kept_recordFrame _ _ _ hlateKept (by decide)).only, y, h1, h2, h3, h4⟩
  · have hrun : ∃ t, exec .timeSourceChange s = .next t ∧ t.rtm.tsrc = r ∧ t.rtm.holdover = false ∧ t.rtm.evt = bit s.rtm.evt 2 (r != s.rtm.tsrc || s.rtm.evt.getLsbD 2) ∧
        t.rtm.srcchg = if r = s.rtm.tsrc then s.rtm.srcchg else inc s.rtm.srcchg := by
      show ∃ t, execTimeSourceChange s = .next t ∧ _
      unfold execTimeSourceChange
      rw [hfo, if_neg Bool.false_ne_true, hc]
      exact ⟨_, rfl, rfl, rfl, rfl, rfl⟩
    obtain ⟨t, he, h1, h2, h3, h4⟩ := hrun
    refine gives_of_leaves (leaves_timeSourceChange s) he ⟨h1, h2, fun hne => ?_⟩
    rw [h3, h4, if_neg hne, bne_iff_ne.2 hne]
    exact ⟨setBit_true_same _ (by decide), rfl⟩
  · show execTimeSourceChange s = _
    unfold execTimeSourceChange
    rw [hfo, if_neg Bool.false_ne_true, hc]
    rfl
  · exact congrArg Host.Outcome.next ((if_neg (by rw [hact]; decide)).trans (if_pos hm))
  · have hrun : exec (.ringLinkUp p mode) s = .next (ringCount (portRing p) 3 (linkDown p s)) := congrArg Host.Outcome.next ((if_neg (by rw [hact]; decide)).trans (if_neg hm))
    refine gives_of_leaves (leaves_ringLinkUp p mode s) hrun ?_
    show count 3 (linkDown p s).ring = _
    rw [linkDown_ring]
  · intro broken hnat hon
    have hn : native s = true := native_of hnat
    refine ⟨fun hbrk => ?_, fun hbrk hbad => ?_, fun hbrk => ⟨?_, ?_⟩⟩
    · refine congrArg Host.Outcome.next ((if_pos ?_).trans (if_neg ?_))
      · show (native s && s.ring.on[portRing p]) = true
        rw [hn]
        exact hon
      · exact Bool.eq_false_iff.1 hbrk
    · refine congrArg Host.Outcome.next ((if_pos ?_).trans (if_neg ?_))
      · rw [hn, hon]
        rcases hbad with h | h
        · rw [h]
          rfl
        · rw [decide_eq_true (show s.rtm.bad[ring] ≥ 3 from h), Bool.or_true]
          rfl
      · rw [hbrk]
        decide
    · refine congrArg Host.Outcome.next ((if_pos ?_).trans (if_pos ?_))
      · show (native s && s.ring.on[portRing p]) = true
        rw [hn]
        exact hon
      · exact hbrk
    · refine congrArg Host.Outcome.next ?_
      split
      · exact if_pos hbrk
      · rfl
  · exact congrArg Host.Outcome.next (if_pos (by rw [hb]; exact decide_eq_true hg))
  · have hrun : exec .segmentBreak s = .next (surveyAll (modRing (fun r => { r with looped := true }) (modRtm (fun x => { x with loop := some (breakPlace s).1, evt := bit x.evt 4 true }) (breakPlace s).2))) :=
      congrArg Host.Outcome.next (if_neg (by rw [hd]; decide))
    have hplace : (breakPlace s).1 ≤ (coachesOf s).length ∧ (s.ring.linkUp[(1 : Fin 4)] = false → (breakPlace s).1 = 0) ∧
        (s.ring.linkUp[(1 : Fin 4)] = true → s.ring.linkUp[(0 : Fin 4)] = false → (breakPlace s).1 = (coachesOf s).length) ∧ (breakPlace s).2.ring = s.ring := by
      unfold breakPlace
      cases h1 : s.ring.linkUp[(1 : Fin 4)] <;> cases h0 : s.ring.linkUp[(0 : Fin 4)]
      · exact ⟨Nat.zero_le _, fun _ => rfl, by simp, rfl⟩
      · exact ⟨Nat.zero_le _, fun _ => rfl, by simp, rfl⟩
      · exact ⟨le_rfl, by simp, fun _ _ => rfl, rfl⟩
      · exact ⟨Nat.le_of_lt_succ (Nat.mod_lt _ (Nat.succ_pos _)), by simp, by simp, rfl⟩
    obtain ⟨h1, h2, h3, h4⟩ := hplace
    refine gives_of_leaves (leaves_segmentBreak s) hrun ⟨⟨_, rfl, h1, h2, h3⟩, rfl, setBit_true_same _ (by decide), fun c hc => todo_surveyAll ?_⟩
    unfold coachesOf at hc ⊢
    rw [← h4] at hc
    exact hc
  · have hrun : exec .loopOpened s = .next (surveyAll (modRing (fun r => { r with looped := false }) (modRtm (fun m => { m with loop := none, evt := bit m.evt 5 true }) s))) := by
      refine congrArg Host.Outcome.next (if_neg ?_)
      rw [hd, Option.isNone_eq_false_iff.2 (Option.isSome_iff_ne_none.2 hl)]
      decide
    exact gives_of_leaves (leaves_loopOpened s) hrun ⟨rfl, rfl, setBit_true_same _ (by decide), fun c hc => todo_surveyAll hc⟩

end Sys2Proof.Proofs
end

section
/-! SUPPORT. What the loss of lanes leaves, and entry to SAFE (R99 to R109). -/

namespace Sys2Proof.Proofs
open Sys2Proof.Machine Sys2Proof.Safety Sys2Proof.Laws
set_option Elab.async false

/-! ## What the loss of lanes leaves (R99 to R109) -/

/-- Lanes are only lost: programs stay, an ended vote point stays ended and judged, no lane becomes a member or a candidate, and SAFE stays. -/
structure Lost (s t : State) : Prop where
  images : ∀ d : DomId, t.doms[d].image = s.doms[d].image
  vp : ∀ g : Fin 2, s.voter.grp[g].vp = none → t.voter.grp[g].vp = none
  judged : ∀ g : Fin 2, t.voter.grp[g].lastEoc = s.voter.grp[g].lastEoc ∧ t.voter.grp[g].eocAt = s.voter.grp[g].eocAt ∧ t.voter.grp[g].cfg = s.voter.grp[g].cfg
  members : ∀ (g : Fin 2) (l : Fin 3), t.voter.grp[g].members.getLsbD l.val = true → s.voter.grp[g].members.getLsbD l.val = true
  cand : ∀ g : Fin 2, s.voter.grp[g].cand = 0 → t.voter.grp[g].cand = 0
  safe : inSafe s = true → inSafe t = true

theorem Lost.refl (s : State) : Lost s s := ⟨fun _ => rfl, fun _ h => h, fun _ => ⟨rfl, rfl, rfl⟩, fun _ _ h => h, fun _ h => h, id⟩

theorem Lost.trans {s t u : State} (h : Lost s t) (k : Lost t u) : Lost s u where
  images d := (k.images d).trans (h.images d)
  vp g e := k.vp g (h.vp g e)
  judged g := ⟨(k.judged g).1.trans (h.judged g).1, (k.judged g).2.1.trans (h.judged g).2.1, (k.judged g).2.2.trans (h.judged g).2.2⟩
  members g l e := h.members g l (k.members g l e)
  cand g e := k.cand g (h.cand g e)
  safe := k.safe ∘ h.safe

theorem lost_foldl {α : Type} {f : State → α → State} (h : ∀ s x, Lost s (f s x)) (xs : List α) (s : State) : Lost s (xs.foldl f s) := by
  induction xs generalizing s with
  | nil => exact .refl s
  | cons x xs ih => exact (h s x).trans (ih _)

/-- What touches no domain, no voter and no operating state. -/
theorem lost_of_eq {s t : State} (hd : t.doms = s.doms) (hv : t.voter = s.voter) (ha : t.arb.oper = s.arb.oper) : Lost s t := by
  have hsafe : inSafe t = inSafe s := by
    unfold inSafe
    rw [ha]
  constructor
  all_goals simp only [hd, hv, hsafe]
  · exact fun _ => trivial
  · exact fun _ h => h
  · exact fun _ => ⟨trivial, trivial, trivial⟩
  · exact fun _ _ h => h
  · exact fun _ h => h
  · exact id

theorem lost_of_kept {ps : List Part} {s t : State} (h : Kept ps s t) (hd : .doms ∉ ps) (hv : .voter ∉ ps) (ha : .arb ∉ ps) : Lost s t :=
  lost_of_eq (h.only .doms hd) (h.only .voter hv) (congrArg Arb.oper (h.only .arb ha))

theorem lost_modDom (d : DomId) (f : Dom → Dom) (s : State) (hf : (f s.doms[d]).image = s.doms[d].image) : Lost s (modDom d f s) := by
  refine ⟨fun w => ?_, fun _ h => h, fun _ => ⟨rfl, rfl, rfl⟩, fun _ _ h => h, fun _ h => h, id⟩
  by_cases hw : w = d
  · rw [hw, modDom_same, hf]
  · rw [modDom_other _ _ _ _ hw]

theorem modGroup_same (g : Fin 2) (f : Group → Group) (s : State) : (modGroup g f s).voter.grp[g] = f s.voter.grp[g] := by simp [modGroup]

theorem modGroup_other (g w : Fin 2) (f : Group → Group) (s : State) (h : w ≠ g) : (modGroup g f s).voter.grp[w] = s.voter.grp[w] := by
  have : g.val ≠ w.val := fun e => h (Fin.ext e.symm)
  simp [modGroup, this]

/-- What `f` may do to a group. -/
structure LostGroup (x y : Group) : Prop where
  vp : x.vp = none → y.vp = none
  judged : y.lastEoc = x.lastEoc ∧ y.eocAt = x.eocAt ∧ y.cfg = x.cfg
  members : ∀ l : Fin 3, y.members.getLsbD l.val = true → x.members.getLsbD l.val = true
  cand : x.cand = 0 → y.cand = 0

theorem lost_modGroup (g : Fin 2) (f : Group → Group) (s : State) (hf : LostGroup s.voter.grp[g] (f s.voter.grp[g])) : Lost s (modGroup g f s) := by
  have at_ (w : Fin 2) : LostGroup s.voter.grp[w] (modGroup g f s).voter.grp[w] := by
    by_cases hw : w = g
    · rw [hw, modGroup_same]
      exact hf
    · rw [modGroup_other _ _ _ _ hw]
      exact ⟨id, ⟨rfl, rfl, rfl⟩, fun _ h => h, id⟩
  exact ⟨fun _ => rfl, fun w => (at_ w).vp, fun w => (at_ w).judged, fun w => (at_ w).members, fun w => (at_ w).cand, id⟩

theorem lost_modLane (l : Fin 3) (f : Lane → Lane) (s : State) : Lost s (modLane l f s) :=
  ⟨fun _ => rfl, fun _ h => h, fun _ => ⟨rfl, rfl, rfl⟩, fun _ _ h => h, fun _ h => h, id⟩

theorem lost_modReint (f : Reint → Reint) (s : State) : Lost s (modReint f s) :=
  ⟨fun _ => rfl, fun _ h => h, fun _ => ⟨rfl, rfl, rfl⟩, fun _ _ h => h, fun _ h => h, id⟩

theorem lost_addLog (k : LogKind) (a b : Nat) (s : State) : Lost s (addLog k a b s) := lost_of_eq rfl rfl rfl

theorem oper_of_last (s : State) (w : Word) (n : Ctr) : ({ s with arb := { s.arb with last := w, trans := n } } : State).arb.oper = s.arb.oper := rfl

theorem transition_oper (src inst dim frm to_ : Nat) (s : State) : (transition src inst dim frm to_ s).arb.oper = s.arb.oper := by
  unfold transition
  split
  · rfl
  · exact oper_of_last s _ _

theorem lost_transition (src inst dim frm to_ : Nat) (s : State) : Lost s (transition src inst dim frm to_ s) := by
  have kept := (kept_transition (ps0 := [.arb]) src inst dim frm to_ s kept_refl (by decide)).only
  exact lost_of_eq (kept .doms (by decide)) (kept .voter (by decide)) (transition_oper _ _ _ _ _ _)

theorem lost_setChg (d : DomId) (c : ChgDim) (s : State) : Lost s (setChg d c s) := by
  unfold setChg
  exact (lost_transition _ _ _ _ _ _).trans (lost_modDom _ _ _ rfl)

theorem lost_stopCore (c : CoreId) (s : State) : Lost s (stopCore c s) := lost_of_eq rfl rfl rfl

theorem lost_dropLane (l : Fin 3) (g : Fin 2) (s : State) : Lost s (dropLane l g s) := (lost_stopCore _ _).trans (lost_modDom _ _ _ rfl)

theorem lost_finishRefusedOpt (r : Option CmdRef) (name : String) (s : State) : Lost s (finishRefusedOpt r name s) :=
  lost_of_kept (kept_finishRefusedOpt (ps0 := [.sync, .mbx]) r name s kept_refl (by decide)) (by decide) (by decide) (by decide)

theorem lost_changeStop (name : String) (d : DomId) (s : State) : Lost s (changeStop name d s) := by
  unfold changeStop
  dsimp only
  split
  · exact .refl s
  · exact (lost_modDom d _ s rfl).trans ((lost_finishRefusedOpt _ _ _).trans (lost_setChg _ _ _))
  · exact (lost_modDom d _ s rfl).trans ((lost_finishRefusedOpt _ _ _).trans (lost_setChg _ _ _))

theorem setBit_false_getLsbD {n : Nat} {w : BitVec n} {i b : Nat} (h : (Sys2Proof.Machine.setBit w i false).getLsbD b = true) : w.getLsbD b = true := by
  simp only [Sys2Proof.Machine.setBit, Bool.false_eq_true, if_false, BitVec.getLsbD_and, Bool.and_eq_true] at h
  exact h.1

theorem setBit_false_same {n : Nat} (w : BitVec n) {i : Nat} (h : i < n) : (Sys2Proof.Machine.setBit w i false).getLsbD i = false := by
  simp [Sys2Proof.Machine.setBit, h]

theorem setBit_false_zero {n : Nat} {w : BitVec n} (i : Nat) (h : w = 0) : Sys2Proof.Machine.setBit w i false = 0 := by
  simp [Sys2Proof.Machine.setBit, h]

/-- Members may only be taken away. -/
theorem lost_setMembers (src : Nat) (g : Fin 2) (m : BitVec 3) (s : State) (hm : ∀ l : Fin 3, m.getLsbD l.val = true → s.voter.grp[g].members.getLsbD l.val = true) :
    Lost s (setMembers src g m s) := by
  unfold setMembers
  dsimp only
  generalize groupMode s.voter.grp[g] = old
  generalize groupMode _ = new
  have hv : (transition src g.val 1 old new s).voter = s.voter := (kept_transition (ps0 := [.arb]) _ _ _ _ _ s kept_refl (by decide)).only .voter (by decide)
  refine (lost_transition src g.val 1 old new s).trans (lost_modGroup g _ _ ⟨fun h => ?_, ?_, fun l h => ?_, fun h => ?_⟩)
  · rw [hv] at h
    exact h
  · rw [hv]
    exact ⟨rfl, rfl, rfl⟩
  · rw [hv]
    exact hm l h
  · rw [hv] at h
    exact h

theorem setMembers_same (src : Nat) (g : Fin 2) (m : BitVec 3) (s : State) : (setMembers src g m s).voter.grp[g].members = m := by
  unfold setMembers
  dsimp only
  rw [modGroup_same]

theorem lost_reintEnd (result : Byte) (s : State) : Lost s (reintEnd result s) := by
  have groups : ∀ (l : Fin 3) (s : State) (g : Fin 2), Lost s (if s.voter.grp[g].members.getLsbD l.val then s
      else dropLane l g (modGroup g (fun x => { x with cand := Sys2Proof.Machine.setBit x.cand l.val false, candGot := [], voted := [] }) s)) := fun l s g => by
    split
    · exact .refl s
    · exact (lost_modGroup g _ s ⟨id, ⟨rfl, rfl, rfl⟩, fun _ h => h, fun h => setBit_false_zero _ h⟩).trans (lost_dropLane _ _ _)
  unfold reintEnd
  dsimp only
  split
  · exact .refl s
  · refine (lost_foldl (groups (Fin.ofNat 3 (s.voter.reint.lane.val - 1))) allGroups s).trans ?_
    refine Lost.trans (Lost.trans ?_ (lost_addLog _ _ _ _)) (lost_modReint _ _)
    split
    · exact lost_of_eq rfl rfl rfl
    · exact .refl _

theorem lost_setRole (r : Role) (s : State) : Lost s (setRole r s) := by
  unfold setRole
  split
  · exact .refl s
  · refine Lost.trans (Lost.trans (lost_transition 2 0 2 s.hsb.role.code r.code s) ?_) (lost_addLog _ _ _ _)
    exact lost_of_eq rfl rfl rfl

theorem lost_refusePending (code : Byte) (name : String) (s : State) : Lost s (refusePending code name s) := by
  unfold refusePending
  split
  · exact .refl s
  · dsimp only
    refine Lost.trans ?_ (lost_foldl (fun s c => lost_of_kept (kept_finishRefused (ps0 := [.sync, .mbx]) c _ _ s kept_refl (by decide)) (by decide) (by decide) (by decide)) _ _)
    exact lost_of_eq rfl rfl rfl

/-! ## Entry to SAFE (R103) -/

/-- A group at the entry to SAFE. -/
def safeGroup (s : State) (g : Fin 2) : State :=
  changeLeave (groupDom g) (abandonTasks (groupDom g)
    (modGroup g (fun x => { x with cand := 0, candGot := [], voted := [], vp := none, withheld := 0, mute := 0, queue := [] }) (setMembers 2 g 0 (safetyOff g s))))

/-- The operating state, a pending request and a reintegration at the entry to SAFE. -/
def safeStart (s : State) : State := reintEnd 0x08 (refusePending 0x05 "IN_SAFE" (setOper 2 .safe s))

/-- The lanes' cores and the permits at the entry to SAFE. -/
def haltLanes (s : State) : State := permitsOff (allLanes.foldl (fun s l => stopCore (laneCore l 0) (stopCore (laneCore l 1) s)) s)

/-- All of these. -/
def safeLanes (s : State) : State := haltLanes (safeGroup (safeGroup (safeStart s) 0) 1)

/-- What the role asks for at the entry to SAFE. -/
def safeRole (s : State) : State := match s.hsb.role with
  | .primary => sendRelinquish (s.cyc.count + 1) s
  | .standby => setRole .syncing s
  | _ => s

/-- SAFE is noted with its cause and group. -/
def safeNoted (cause : Nat) (grp : Option (Fin 2)) (s : State) : State :=
  { s with voter := { s.voter with safeValid := true, safeGroup := grp == some 1, safeCause := BitVec.ofNat 8 cause }, arb := { s.arb with safeTrain := originates s } }

theorem enterSafe_eq (cause : Nat) (grp : Option (Fin 2)) {s : State} (h : inSafe s = false) :
    enterSafe cause grp s = addLog .safe cause ((grp.map fun g => g.val + 1).getD 0) (ringEvent 1 cause (safeRole (safeNoted cause grp (safeLanes s)))) :=
  if_neg (Bool.eq_false_iff.1 h)

theorem enterSafe_idle (cause : Nat) (grp : Option (Fin 2)) {s : State} (h : inSafe s = true) : enterSafe cause grp s = s := if_pos h

theorem lost_safeGroup (s : State) (g : Fin 2) : Lost s (safeGroup s g) := by
  have members := lost_setMembers 2 g 0 (safetyOff g s) fun l h => absurd h (by simp)
  have group : Lost (setMembers 2 g 0 (safetyOff g s)) (modGroup g (fun x => { x with cand := 0, candGot := [], voted := [], vp := none, withheld := 0, mute := 0, queue := [] })
      (setMembers 2 g 0 (safetyOff g s))) := lost_modGroup g _ _ ⟨fun _ => rfl, ⟨rfl, rfl, rfl⟩, fun _ h => h, fun _ => rfl⟩
  exact (((lost_modDom (groupDom g) _ s rfl).trans members).trans group).trans ((lost_modDom (groupDom g) _ _ rfl).trans (lost_changeStop "CHANGE_STOPPED" (groupDom g) _))

theorem safeGroup_members (s : State) (g : Fin 2) (l : Fin 3) : (safeGroup s g).voter.grp[g].members.getLsbD l.val = false := by
  refine Bool.eq_false_iff.2 fun h => ?_
  have h := ((lost_modDom (groupDom g) _ _ rfl).trans (lost_changeStop "CHANGE_STOPPED" (groupDom g) _)).members g l h
  rw [modGroup_same, setMembers_same] at h
  exact absurd h (by simp)

theorem lost_setOper_safe (src : Nat) (s : State) : Lost s (setOper src .safe s) := by
  have h := lost_transition src 0 0 s.arb.oper.code Oper.safe.code s
  exact ⟨h.images, h.vp, h.judged, h.members, h.cand, fun _ => rfl⟩

theorem lost_haltLanes (s : State) : Lost s (haltLanes s) := by
  unfold haltLanes permitsOff
  exact (lost_foldl (fun s l => (lost_stopCore (laneCore l 1) s).trans (lost_stopCore (laneCore l 0) _)) allLanes s).trans (lost_of_eq rfl rfl rfl)

theorem lost_safeStart (s : State) : Lost (setOper 2 .safe s) (safeStart s) := by
  unfold safeStart
  exact (lost_refusePending 0x05 "IN_SAFE" (setOper 2 .safe s)).trans (lost_reintEnd 0x08 _)

theorem lost_safeGroups (s : State) : Lost (safeStart s) (safeLanes s) := by
  unfold safeLanes
  exact ((lost_safeGroup _ 0).trans (lost_safeGroup _ 1)).trans (lost_haltLanes _)

theorem lost_safeLanes (s : State) : Lost s (safeLanes s) := (lost_setOper_safe 2 s).trans ((lost_safeStart s).trans (lost_safeGroups s))

theorem safeLanes_members (s : State) (g : Fin 2) (l : Fin 3) : (safeLanes s).voter.grp[g].members.getLsbD l.val = false := by
  refine Bool.eq_false_iff.2 fun h => ?_
  have h := (lost_haltLanes _).members g l h
  rcases (by omega : g = 0 ∨ g = 1) with rfl | rfl
  · exact absurd (safeGroup_members (safeStart s) 0 l) (by rw [(lost_safeGroup (safeGroup (safeStart s) 0) 1).members 0 l h]; decide)
  · exact absurd (safeGroup_members (safeGroup (safeStart s) 0) 1 l) (by rw [h]; decide)

theorem safeLanes_inSafe (s : State) : inSafe (safeLanes s) = true := ((lost_safeStart s).trans (lost_safeGroups s)).safe rfl

theorem lost_safeRole (s : State) : Lost s (safeRole s) := by
  unfold safeRole
  split
  · exact lost_of_kept (kept_sendRelinquish (ps0 := [.sync]) _ _ kept_refl (by decide)) (by decide) (by decide) (by decide)
  · exact lost_setRole _ _
  · exact .refl s

theorem lost_safeEnd (cause n : Nat) (s : State) : Lost s (addLog .safe cause n (ringEvent 1 cause (safeRole s))) :=
  (lost_safeRole s).trans ((lost_of_kept (kept_ringEvent (ps0 := [.ps]) _ _ _ kept_refl (by decide)) (by decide) (by decide) (by decide)).trans (lost_addLog _ _ _ _))

theorem lost_safeNoted (cause : Nat) (grp : Option (Fin 2)) (s : State) : Lost s (safeNoted cause grp s) :=
  ⟨fun _ => rfl, fun _ h => h, fun _ => ⟨rfl, rfl, rfl⟩, fun _ _ h => h, fun _ h => h, id⟩

theorem lost_enterSafe (cause : Nat) (grp : Option (Fin 2)) (s : State) : Lost s (enterSafe cause grp s) := by
  cases h : inSafe s with
  | true => rw [enterSafe_idle cause grp h]; exact .refl s
  | false =>
    have before : Lost s (safeNoted cause grp (safeLanes s)) := (lost_safeLanes s).trans (lost_safeNoted cause grp (safeLanes s))
    rw [enterSafe_eq cause grp h]
    exact before.trans (lost_safeEnd cause ((grp.map fun g => g.val + 1).getD 0) (safeNoted cause grp (safeLanes s)))

theorem safeRole_voter (s : State) : (safeRole s).voter = s.voter := by
  have hrole : Kept [.hsb, .sync, .arb, .log] s (safeRole s) := by
    unfold safeRole
    split
    · exact kept_sendRelinquish _ _ kept_refl (by decide)
    · exact kept_setRole _ _ kept_refl (by decide)
    · exact kept_refl
  exact hrole.only .voter (by decide)

theorem ringEvent_voter (k v : Nat) (s : State) : (ringEvent k v s).voter = s.voter :=
  (kept_ringEvent (ps0 := [.ps]) k v s kept_refl (by decide)).only .voter (by decide)

/-- What stands in the voter when SAFE has been entered. -/
theorem enterSafe_voter (cause : Nat) (grp : Option (Fin 2)) {s : State} (h : inSafe s = false) :
    (enterSafe cause grp s).voter = { (safeLanes s).voter with safeValid := true, safeGroup := grp == some 1, safeCause := BitVec.ofNat 8 cause } := by
  rw [enterSafe_eq cause grp h]
  generalize safeLanes s = t
  have hlog (n : Nat) (u : State) : (addLog .safe cause n u).voter = u.voter := rfl
  rw [hlog, ringEvent_voter, safeRole_voter]
  rfl

theorem enterSafe_safe (cause : Nat) (grp : Option (Fin 2)) {s : State} (h : inSafe s = false) : inSafe (enterSafe cause grp s) = true := by
  rw [enterSafe_eq cause grp h]
  have hstart : inSafe (safeNoted cause grp (safeLanes s)) = true := (lost_safeNoted cause grp _).safe (safeLanes_inSafe s)
  exact (lost_safeEnd cause ((grp.map fun g => g.val + 1).getD 0) (safeNoted cause grp (safeLanes s))).safe hstart

/-- SAFE with its cause, and without members. -/
structure SafeFor (cause : Nat) (t : State) : Prop where
  oper : t.arb.oper = .safe
  cause : t.voter.safeCause = BitVec.ofNat 8 cause
  valid : t.voter.safeValid = true
  members : ∀ (g : Fin 2) (l : Fin 3), t.voter.grp[g].members.getLsbD l.val = false

theorem safeFor_of_voter {cause : Nat} {t : State} {v w : Voter} (hs : inSafe t = true) (hv : t.voter = w) (hcause : w.safeCause = BitVec.ofNat 8 cause) (hvalid : w.safeValid = true)
    (hgrp : w.grp = v.grp) (hmembers : ∀ (g : Fin 2) (l : Fin 3), v.grp[g].members.getLsbD l.val = false) : SafeFor cause t := by
  refine ⟨beq_iff_eq.1 hs, hv ▸ hcause, hv ▸ hvalid, ?_⟩
  rw [hv, hgrp]
  exact hmembers

/-- Entry to SAFE from another state: its cause stands, and no lane is a member. -/
theorem enterSafe_entered (cause : Nat) (grp : Option (Fin 2)) {s : State} (h : inSafe s = false) : SafeFor cause (enterSafe cause grp s) :=
  safeFor_of_voter (enterSafe_safe cause grp h) (enterSafe_voter cause grp h) rfl rfl rfl (safeLanes_members s)

end Sys2Proof.Proofs
end

section
/-! SUPPORT. The end of a reintegration and a join, as vote points see them (R105 to R108). -/

namespace Sys2Proof.Proofs
open Sys2Proof.Machine Sys2Proof.Safety Sys2Proof.Laws
set_option Elab.async false

/-! ## The end of a reintegration, group by group -/

/-- The reintegrating lane leaves a group that it has not joined. -/
def leaveGroup (l : Fin 3) (s : State) (g : Fin 2) : State :=
  if s.voter.grp[g].members.getLsbD l.val then s
  else dropLane l g (modGroup g (fun x => { x with cand := Sys2Proof.Machine.setBit x.cand l.val false, candGot := [], voted := [] }) s)

/-- The lane leaves both groups. -/
def leaveGroups (s : State) : State := leaveGroup (Fin.ofNat 3 (s.voter.reint.lane.val - 1)) (leaveGroup (Fin.ofNat 3 (s.voter.reint.lane.val - 1)) s 0) 1

theorem reintEnd_idle (result : Byte) {s : State} (h : s.voter.reint.phase = 0) : reintEnd result s = s := if_pos h

/-- The attempt's own registers at its end, and the lane's domain. -/
def reintClose (result : Byte) (l : Fin 3) (off : Bool) (s : State) : State :=
  modReint (fun x => { x with phase := 0, lane := 0, result := result, off := false, back := false, copied := 0, clean := 0, joined := 0, since := 0, dirty := [], diff := [] })
    (addLog .reintEnd l.val result.toNat (if off then setPd (lanePd l) true s else s))

theorem reintEnd_eq (result : Byte) {s : State} (h : s.voter.reint.phase ≠ 0) :
    reintEnd result s = reintClose result (Fin.ofNat 3 (s.voter.reint.lane.val - 1)) s.voter.reint.off (leaveGroups s) := by
  unfold reintEnd
  dsimp only
  rw [if_neg h]
  rfl

theorem reintClose_keeps (result : Byte) (l : Fin 3) (off : Bool) (s : State) : (reintClose result l off s).voter.grp = s.voter.grp ∧ (reintClose result l off s).doms = s.doms := by
  cases off <;> exact ⟨rfl, rfl⟩

theorem dropLane_voter (l : Fin 3) (g : Fin 2) (s : State) : (dropLane l g s).voter = s.voter := rfl

/-- The group that a lane leaves. -/
def leftGroup (l : Fin 3) (x : Group) : Group := { x with cand := Sys2Proof.Machine.setBit x.cand l.val false, candGot := [], voted := [] }

theorem leaveGroup_cases (l : Fin 3) (s : State) (g : Fin 2) : leaveGroup l s g = s ∨ leaveGroup l s g = dropLane l g (modGroup g (leftGroup l) s) := by
  unfold leaveGroup
  split
  · exact .inl rfl
  · exact .inr rfl

theorem leaveGroup_group {α : Type} (f : Group → α) (hf : ∀ x c, f { x with cand := c, candGot := [], voted := [] } = f x) (l : Fin 3) (s : State) (g w : Fin 2) :
    f (leaveGroup l s g).voter.grp[w] = f s.voter.grp[w] := by
  rcases leaveGroup_cases l s g with e | e
  · rw [e]
  · simp only [e, dropLane_voter]
    by_cases hw : w = g
    · subst hw
      rw [modGroup_same]
      exact hf _ _
    · rw [modGroup_other _ _ _ _ hw]

theorem leaveGroup_voted (l : Fin 3) (s : State) (g w : Fin 2) (h : s.voter.grp[w].voted = []) : (leaveGroup l s g).voter.grp[w].voted = [] := by
  rcases leaveGroup_cases l s g with e | e
  · rw [e, h]
  · simp only [e, dropLane_voter]
    by_cases hw : w = g
    · subst hw
      rw [modGroup_same]
      rfl
    · rw [modGroup_other _ _ _ _ hw, h]

theorem leaveGroup_domVoted (l : Fin 3) (s : State) (g : Fin 2) (w : DomId) : (leaveGroup l s g).doms[w].voted = s.doms[w].voted := by
  rcases leaveGroup_cases l s g with e | e
  · rw [e]
  · rw [e]
    unfold dropLane
    by_cases hw : w = groupDom g
    · rw [hw, modDom_same]
      rfl
    · rw [modDom_other _ _ _ _ hw]
      rfl

/-- What the end of a reintegration keeps of a group. -/
theorem reintEnd_group {α : Type} (f : Group → α) (hf : ∀ x c, f { x with cand := c, candGot := [], voted := [] } = f x) (result : Byte) (s : State) (w : Fin 2) :
    f (reintEnd result s).voter.grp[w] = f s.voter.grp[w] := by
  by_cases h : s.voter.reint.phase = 0
  · rw [reintEnd_idle result h]
  · rw [reintEnd_eq result h, (reintClose_keeps _ _ _ _).1]
    exact (leaveGroup_group f hf _ _ 1 w).trans (leaveGroup_group f hf _ s 0 w)

theorem reintEnd_voted (result : Byte) (s : State) (w : Fin 2) (h : s.voter.grp[w].voted = []) : (reintEnd result s).voter.grp[w].voted = [] := by
  by_cases hp : s.voter.reint.phase = 0
  · rw [reintEnd_idle result hp]
    exact h
  · rw [reintEnd_eq result hp, (reintClose_keeps _ _ _ _).1]
    exact leaveGroup_voted _ _ 1 w (leaveGroup_voted _ s 0 w h)

theorem reintEnd_domVoted (result : Byte) (s : State) (w : DomId) : (reintEnd result s).doms[w].voted = s.doms[w].voted := by
  by_cases h : s.voter.reint.phase = 0
  · rw [reintEnd_idle result h]
  · rw [reintEnd_eq result h, (reintClose_keeps _ _ _ _).2]
    exact (leaveGroup_domVoted _ _ 1 w).trans (leaveGroup_domVoted _ s 0 w)

/-- An attempt that is under way ends with its result. -/
theorem reintEnd_ended (result : Byte) {s : State} (h : s.voter.reint.phase ≠ 0) :
    (reintEnd result s).voter.reint.phase = 0 ∧ (reintEnd result s).voter.reint.result = result := by
  rw [reintEnd_eq result h]
  exact ⟨rfl, rfl⟩

theorem reintEnd_inSafe (result : Byte) (s : State) : inSafe (reintEnd result s) = inSafe s := by
  unfold inSafe
  rw [(kept_reintEnd (ps0 := [.cores, .doms, .voter, .boot, .log]) result s kept_refl (by decide)).only .arb (by decide)]

theorem memberLanes_congr {g : Fin 2} {s t : State} (h : t.voter.grp[g].members = s.voter.grp[g].members) : memberLanes g t = memberLanes g s := by
  unfold memberLanes
  rw [h]

theorem memberLanes_reintEnd (result : Byte) (g : Fin 2) (s : State) : memberLanes g (reintEnd result s) = memberLanes g s :=
  memberLanes_congr (reintEnd_group Group.members (fun _ _ => rfl) result s g)

/-! ## What a passed vote point leaves -/

/-- What the later steps of a vote point keep of its outcome. -/
structure Judged (g : Fin 2) (s t : State) : Prop where
  vp : t.voter.grp[g].vp = s.voter.grp[g].vp
  lastEoc : t.voter.grp[g].lastEoc = s.voter.grp[g].lastEoc
  eocAt : t.voter.grp[g].eocAt = s.voter.grp[g].eocAt
  voted : t.doms[groupDom g].voted = s.doms[groupDom g].voted

theorem Judged.refl (g : Fin 2) (s : State) : Judged g s s := ⟨rfl, rfl, rfl, rfl⟩

theorem Judged.trans {g : Fin 2} {s t u : State} (h : Judged g s t) (k : Judged g t u) : Judged g s u :=
  ⟨k.vp.trans h.vp, k.lastEoc.trans h.lastEoc, k.eocAt.trans h.eocAt, k.voted.trans h.voted⟩

theorem judged_of_eq {g : Fin 2} {s t : State} (hv : t.voter.grp = s.voter.grp) (hd : t.doms = s.doms) : Judged g s t := by
  constructor <;> simp only [hv, hd]

theorem judged_modGroup (g w : Fin 2) (f : Group → Group) (s : State) (hf : ∀ x, (f x).vp = x.vp ∧ (f x).lastEoc = x.lastEoc ∧ (f x).eocAt = x.eocAt) : Judged g s (modGroup w f s) := by
  by_cases hw : g = w
  · subst hw
    have h := hf s.voter.grp[g]
    constructor
    · rw [modGroup_same, h.1]
    · rw [modGroup_same, h.2.1]
    · rw [modGroup_same, h.2.2]
    · rfl
  · constructor
    · rw [modGroup_other _ _ _ _ hw]
    · rw [modGroup_other _ _ _ _ hw]
    · rw [modGroup_other _ _ _ _ hw]
    · rfl

theorem judged_foldl {α : Type} {g : Fin 2} {f : State → α → State} (h : ∀ s x, Judged g s (f s x)) (xs : List α) (s : State) : Judged g s (xs.foldl f s) := by
  induction xs generalizing s with
  | nil => exact .refl g s
  | cons x xs ih => exact (h s x).trans (ih _)

theorem judged_reintEnd (g : Fin 2) (result : Byte) (s : State) : Judged g s (reintEnd result s) :=
  ⟨reintEnd_group Group.vp (fun _ _ => rfl) result s g, reintEnd_group Group.lastEoc (fun _ _ => rfl) result s g, reintEnd_group Group.eocAt (fun _ _ => rfl) result s g,
    reintEnd_domVoted result s (groupDom g)⟩

theorem resume_voter (c : CoreId) (x : Contrib) (s : State) : (resume c x s).voter = s.voter := (kept_resume (ps0 := [.cores]) c x s kept_refl (by decide)).only .voter (by decide)

theorem resume_doms (c : CoreId) (x : Contrib) (s : State) : (resume c x s).doms = s.doms := (kept_resume (ps0 := [.cores]) c x s kept_refl (by decide)).only .doms (by decide)

theorem judged_resume (g : Fin 2) (c : CoreId) (x : Contrib) (s : State) : Judged g s (resume c x s) :=
  judged_of_eq (congrArg Voter.grp (resume_voter c x s)) (resume_doms c x s)

/-! ## A join (R108) -/

/-- The marks of a lane that joins. -/
def joinedMarks (l : Fin 3) (v : Group) : Group :=
  { v with cand := Sys2Proof.Machine.setBit v.cand l.val false, withheld := Sys2Proof.Machine.setBit v.withheld l.val false, mute := Sys2Proof.Machine.setBit v.mute l.val false
           candGot := [], voted := [] }

/-- What else a join notes. -/
def joinNoted (l : Fin 3) (g : Fin 2) (s : State) : State :=
  let s := modCim (groupDom g) (fun x => { x with pts := x.pts.map fun p => { p with started := Sys2Proof.Machine.setBit p.started l.val false, cnt := p.cnt.set l 0 } }) s
  let s : State := { s with esc := { s.esc with event := Sys2Proof.Machine.setBit s.esc.event (5 + l.val) false } }
  addLog .joined l.val g.val (modReint (fun r => { r with joined := Sys2Proof.Machine.setBit r.joined g.val true }) s)

theorem joinNoted_keeps (l : Fin 3) (g : Fin 2) (s : State) : (joinNoted l g s).voter.grp = s.voter.grp ∧ (joinNoted l g s).doms = s.doms := ⟨rfl, rfl⟩

/-- A joining lane, before the attempt's own end. -/
def joinGroup (l : Fin 3) (g : Fin 2) (s : State) : State :=
  joinNoted l g (modGroup g (joinedMarks l) (setMembers 2 g (Sys2Proof.Machine.setBit s.voter.grp[g].members l.val true) s))

/-- The end of an attempt whose lane is back everywhere. -/
def joinEnd (s : State) : State := allGroups.foldl (fun s h => modGroup h (fun v => { v with laneDebug := false }) s) (reintEnd 0x01 s)

theorem join_eq (l : Fin 3) (g : Fin 2) (s : State) :
    join l g s = if (loadedGroups (joinGroup l g s)).all fun h => (joinGroup l g s).voter.grp[h].members.getLsbD l.val then joinEnd (joinGroup l g s) else joinGroup l g s := rfl

theorem laneDebug_group {α : Type} (f : Group → α) (hf : ∀ x, f { x with laneDebug := false } = f x) (s : State) (w : Fin 2) :
    f (allGroups.foldl (fun s h => modGroup h (fun v => { v with laneDebug := false }) s) s).voter.grp[w] = f s.voter.grp[w] := by
  have one (s : State) (g : Fin 2) : f (modGroup g (fun v => { v with laneDebug := false }) s).voter.grp[w] = f s.voter.grp[w] := by
    by_cases hw : w = g
    · subst hw
      rw [modGroup_same, hf]
    · rw [modGroup_other _ _ _ _ hw]
  exact (one _ 1).trans (one s 0)

theorem setMembers_group (src : Nat) (g : Fin 2) (m : BitVec 3) (s : State) :
    (setMembers src g m s).voter.grp[g] = { s.voter.grp[g] with members := m, duplex := popc 3 m.toNat == 2 } := by
  unfold setMembers
  dsimp only
  rw [modGroup_same]

theorem judged_setMembers (src : Nat) (g w : Fin 2) (m : BitVec 3) (s : State) : Judged w s (setMembers src g m s) := by
  have kept := (kept_setMembers (ps0 := [.voter, .arb]) src g m s kept_refl (by decide)).only
  have hd : (setMembers src g m s).doms = s.doms := kept .doms (by decide)
  by_cases hw : w = g
  · subst hw
    have h := setMembers_group src w m s
    exact ⟨by rw [h], by rw [h], by rw [h], by rw [hd]⟩
  · have h : (setMembers src g m s).voter.grp[w] = s.voter.grp[w] := by
      unfold setMembers
      dsimp only
      generalize groupMode s.voter.grp[g] = old
      generalize groupMode _ = new
      rw [modGroup_other _ _ _ _ hw]
      exact congrArg (fun v : Voter => v.grp[w]) ((kept_transition (ps0 := [.arb]) src g.val 1 old new s kept_refl (by decide)).only .voter (by decide))
    exact ⟨by rw [h], by rw [h], by rw [h], by rw [hd]⟩

theorem judged_joinGroup (w : Fin 2) (l : Fin 3) (g : Fin 2) (s : State) : Judged w s (joinGroup l g s) :=
  ((judged_setMembers 2 g w _ s).trans (judged_modGroup w g (joinedMarks l) _ fun _ => ⟨rfl, rfl, rfl⟩)).trans
    (judged_of_eq (joinNoted_keeps l g _).1 (joinNoted_keeps l g _).2)

theorem judged_joinEnd (w : Fin 2) (s : State) : Judged w s (joinEnd s) := by
  unfold joinEnd
  refine Judged.trans ?_ (judged_foldl (fun s h => ?_) _ _)
  · exact judged_reintEnd w 0x01 s
  · exact judged_modGroup w h _ s fun _ => ⟨rfl, rfl, rfl⟩

theorem judged_join (w : Fin 2) (l : Fin 3) (g : Fin 2) (s : State) : Judged w s (join l g s) := by
  rw [join_eq]
  split
  · exact (judged_joinGroup w l g s).trans (judged_joinEnd w _)
  · exact judged_joinGroup w l g s

theorem judged_candMeets (w g : Fin 2) (s : State) : Judged w s (candMeets g s) := by
  unfold candMeets
  dsimp only
  split
  · split
    · exact (judged_join w _ g s).trans (judged_resume w _ _ _)
    · refine Judged.trans ?_ (judged_reintEnd w _ _)
      exact judged_modGroup w g _ s fun _ => ⟨rfl, rfl, rfl⟩
  · exact .refl w s

theorem joinGroup_joined (l : Fin 3) (g : Fin 2) (s : State) :
    (joinGroup l g s).voter.grp[g].voted = [] ∧ (joinGroup l g s).voter.grp[g].members.getLsbD l.val = true := by
  unfold joinGroup
  rw [(joinNoted_keeps l g _).1, modGroup_same]
  refine ⟨rfl, ?_⟩
  show (setMembers 2 g _ s).voter.grp[g].members.getLsbD l.val = true
  rw [setMembers_same]
  exact setBit_true_same _ l.isLt

/-- A joined lane is a member, and what was voted is gone. -/
theorem join_joined (l : Fin 3) (g : Fin 2) (s : State) : (join l g s).voter.grp[g].voted = [] ∧ (join l g s).voter.grp[g].members.getLsbD l.val = true := by
  obtain ⟨hvoted, hmember⟩ := joinGroup_joined l g s
  rw [join_eq]
  split
  · unfold joinEnd
    rw [laneDebug_group Group.voted (fun _ => rfl), laneDebug_group Group.members (fun _ => rfl), reintEnd_group Group.members (fun _ _ => rfl)]
    exact ⟨reintEnd_voted _ _ g hvoted, hmember⟩
  · exact ⟨hvoted, hmember⟩

end Sys2Proof.Proofs
end

section
/-! SUPPORT. A passing end of cycle, and exclusions (R57, R99, R106, R109). -/

namespace Sys2Proof.Proofs
open Sys2Proof.Machine Sys2Proof.Safety Sys2Proof.Laws
set_option Elab.async false

/-! ## A store of the voted status -/

/-- What a store keeps of cores, groups and domains. -/
structure Stored (s t : State) : Prop where
  hold : ∀ j : CoreId, t.cores[j].hold = s.cores[j].hold
  groups : t.voter.grp = s.voter.grp
  voted : ∀ d : DomId, t.doms[d].voted = s.doms[d].voted

theorem Stored.trans {s t u : State} (h : Stored s t) (k : Stored t u) : Stored s u :=
  ⟨fun j => (k.hold j).trans (h.hold j), k.groups.trans h.groups, fun d => (k.voted d).trans (h.voted d)⟩

theorem stored_of_kept {ps : List Part} {s t : State} (h : Kept ps s t) (hc : .cores ∉ ps) (hv : .voter ∉ ps) (hd : .doms ∉ ps) : Stored s t := by
  constructor
  · rw [h.only .cores hc]
    exact fun _ => rfl
  · rw [h.only .voter hv]
  · rw [h.only .doms hd]
    exact fun _ => rfl

theorem domTouch_voted (by_ : Option CoreId) (code : Nat) (ls : List Nat) (i : Nat) (d : Dom) : (domTouch by_ code ls i d).voted = d.voted := by
  unfold domTouch
  split
  · rfl
  · simp only [apply_ite Dom.voted, ite_self]

theorem stored_noteWrite (by_ : Option CoreId) (code off len : Nat) (s : State) : Stored s (noteWrite by_ code off len s) where
  hold j := by rw [(noted_noteWrite by_ code off len s).cores j]
  groups := by rw [(noted_noteWrite by_ code off len s).voter]
  voted d := by
    have e : (noteWrite by_ code off len s).doms =
        s.doms.mapIdx (domTouch by_ code ((List.range ((off + len - 1) / 64 + 1 - off / 64)).map (off / 64 + ·))) := by
      unfold noteWrite
      dsimp only
      split <;> rfl
    rw [e]
    simp [Vector.getElem_mapIdx, domTouch_voted]

theorem stored_writeBytes (code off : Nat) (bs : List Byte) (s : State) : Stored s (writeBytes code off bs s) := by
  rw [writeBytes_rest]
  exact ⟨fun _ => rfl, rfl, fun _ => rfl⟩

theorem stored_store (by_ : Option CoreId) (code off : Nat) (bs : List Byte) (s : State) : Stored s (store by_ code off bs s) := by
  unfold store
  split
  · exact ⟨fun _ => rfl, rfl, fun _ => rfl⟩
  · exact ((stored_writeBytes code off bs s).trans (stored_noteWrite by_ code off bs.length _)).trans
      (stored_of_kept (kept_gatherTouch (ps0 := [.solvers, .freeCtr]) code off bs _ kept_refl (by decide)) (by decide) (by decide) (by decide))

theorem stored_storeHeld (by_ : Option CoreId) (code off : Nat) (bs : List Byte) (s : State) : Stored s (storeHeld by_ code off bs s) := by
  unfold storeHeld
  split
  · exact stored_store _ _ _ _ _
  next b _ =>
    split
    · exact stored_store _ _ _ _ _
    · have h : Stored s (wakeBank b s) := stored_of_kept (kept_wakeBank (ps0 := [.memRegs, .banks]) b s kept_refl (by decide)) (by decide) (by decide) (by decide)
      exact h.trans ⟨fun _ => rfl, rfl, fun _ => rfl⟩

/-! ## A passing end-of-cycle vote point (R57, R106) -/

/-- What an end-of-cycle vote point leaves. -/
structure Passed (g : Fin 2) (x : Contrib) (s t : State) : Prop where
  hold : ∀ j : CoreId, t.cores[j].hold = s.cores[j].hold
  members : t.voter.grp[g].members = s.voter.grp[g].members
  vp : t.voter.grp[g].vp = s.voter.grp[g].vp
  cand : t.voter.grp[g].cand = s.voter.grp[g].cand
  lastEoc : t.voter.grp[g].lastEoc = true
  eocAt : t.voter.grp[g].eocAt = some s.cyc.count
  voted : t.doms[groupDom g].voted = votedImage g x s

/-- The restart hold of an interlocking after the first end-of-cycle vote point. -/
def startHolds (g : Fin 2) (s : State) : State := match s.doms[groupDom g].image.bind (·.ixl) with
  | some x => if s.voter.grp[g].eocSince then s
              else (memberLanes g s ++ candLanes g s).foldl (fun s l => modIxl l (fun y => { y with hold := some (timerCycles x.holdUs s) }) s) s
  | none => s

/-- The group's marks after an end-of-cycle vote point. -/
def eocMarks (cyc : Long) (v : Group) : Group := { v with lastEoc := true, eocSince := true, eocAt := some cyc }

/-- An end-of-cycle vote point before its status window. -/
def eocJudged (g : Fin 2) (img : List Byte) (s : State) : State :=
  let s := settleTelegrams g ((memberLanes g s).headD 0) img s
  startHolds g (modDom (groupDom g) (fun d => { d with voted := img }) s)

theorem eocPassed_eq (g : Fin 2) (x : Contrib) (s : State) : ∃ bs, eocPassed g x s =
    storeHeld none 0 (0x1FF0000 + 0x4000 * g.val) bs (modGroup g (eocMarks (eocJudged g (votedImage g x s) s).cyc.count) (eocJudged g (votedImage g x s) s)) := ⟨_, rfl⟩

theorem kept_startHolds (g : Fin 2) (s : State) : Kept [.ixl] s (startHolds g s) := by
  unfold startHolds
  split
  · split
    · exact kept_refl
    · exact kept_foldl kept_refl fun s l h => kept_modIxl _ _ _ h (by decide)
  · exact kept_refl

theorem settleTelegrams_group {α : Type} (f : Group → α) (hf : ∀ x y, f { x with tels := y } = f x) (g : Fin 2) (l : Fin 3) (img : List Byte) (s : State) :
    f (settleTelegrams g l img s).voter.grp[g] = f s.voter.grp[g] := by
  unfold settleTelegrams
  split
  · rfl
  · rw [modGroup_same]
    exact hf _ _

theorem eocJudged_group {α : Type} (f : Group → α) (hf : ∀ x y, f { x with tels := y } = f x) (g : Fin 2) (img : List Byte) (s : State) :
    f (eocJudged g img s).voter.grp[g] = f s.voter.grp[g] := by
  unfold eocJudged
  rw [(kept_startHolds g _).only .voter (by decide)]
  exact settleTelegrams_group f hf _ _ _ _

theorem kept_eocJudged (g : Fin 2) (img : List Byte) (s : State) : Kept [.voter, .doms, .ixl] s (eocJudged g img s) :=
  kept_trans (kept_modDom _ _ _ (kept_settleTelegrams _ _ _ s kept_refl (by decide)) (by decide)) (kept_mono (kept_startHolds g _) (by decide))

theorem eocJudged_voted (g : Fin 2) (img : List Byte) (s : State) : (eocJudged g img s).doms[groupDom g].voted = img := by
  unfold eocJudged
  rw [(kept_startHolds g _).only .doms (by decide), modDom_same]

theorem passed_eocPassed (g : Fin 2) (x : Contrib) (s : State) : Passed g x s (eocPassed g x s) := by
  obtain ⟨bs, e⟩ := eocPassed_eq g x s
  have stored := stored_storeHeld none 0 (0x1FF0000 + 0x4000 * g.val) bs (modGroup g (eocMarks (eocJudged g (votedImage g x s) s).cyc.count) (eocJudged g (votedImage g x s) s))
  rw [← e] at stored
  have kept := (kept_eocJudged g (votedImage g x s) s).only
  have group : (eocPassed g x s).voter.grp[g] = eocMarks s.cyc.count (eocJudged g (votedImage g x s) s).voter.grp[g] := by
    rw [stored.groups, modGroup_same, kept .cyc (by decide)]
  refine ⟨fun j => ?_, ?_, ?_, ?_, ?_, ?_, ?_⟩
  · rw [stored.hold]
    have hcores : (eocJudged g (votedImage g x s) s).cores = s.cores := kept .cores (by decide)
    show (eocJudged g (votedImage g x s) s).cores[j].hold = _
    rw [hcores]
  · rw [group]
    exact eocJudged_group Group.members (fun _ _ => rfl) g _ s
  · rw [group]
    exact eocJudged_group Group.vp (fun _ _ => rfl) g _ s
  · rw [group]
    exact eocJudged_group Group.cand (fun _ _ => rfl) g _ s
  · rw [group]
    rfl
  · rw [group]
    rfl
  · rw [stored.voted]
    exact eocJudged_voted g _ s

/-! ## Exclusion of a lane (R99, R109) -/

/-- An exclusion's marks of the lane, before it leaves its groups. -/
def excludeMarks (l : Fin 3) (cause : Nat) (ins : List (Fin 2)) (s : State) : State :=
  let grpCode : Fin 4 := if ins == [0, 1] then 2 else if ins == [1] then 1 else if ins == [0] then 0 else s.voter.lane[l].xgroup
  let held (c : Byte) : Bool := c == 8 || c == 9
  let s := modLane l (fun x => { x with scopeCause := if laneScope cause && (cause = 8 || cause = 9 || !held x.scopeCause) then BitVec.ofNat 8 cause else x.scopeCause }) s
  let s := if ins.isEmpty && cause ≠ 8 then s
    else addLog .exclusion l.val cause (modLane l (fun x => { x with xcount := if ins.isEmpty then x.xcount else inc16 x.xcount, xgroup := grpCode
                                                                     xcause := BitVec.ofNat 8 cause }) s)
  modReint (fun r => { r with autoWant := Sys2Proof.Machine.setBit r.autoWant l.val (cause ≠ 8 && cause ≠ 9 && (!ins.isEmpty || r.autoWant.getLsbD l.val)) }) s

/-- The groups that an exclusion from `g` takes the lane out of. -/
def leaves (l : Fin 3) (g : Fin 2) (s : State) : List (Fin 2) := allGroups.filter fun h => h == g && s.voter.grp[h].members.getLsbD l.val

theorem excludeLane_eq (l : Fin 3) (cause : Nat) (g : Fin 2) (s : State) :
    excludeLane l cause (some g) s = (leaves l g s).foldl (fun s h => excludeFrom l h s) (excludeMarks l cause (leaves l g s) s) := rfl

theorem leaves_member {l : Fin 3} {g : Fin 2} {s : State} (h : s.voter.grp[g].members.getLsbD l.val = true) : leaves l g s = [g] := by
  unfold leaves allGroups
  rcases (by omega : g = 0 ∨ g = 1) with rfl | rfl
  · rw [List.filter_cons_of_pos (by rw [h]; decide), List.filter_cons_of_neg (by simp)]
    rfl
  · rw [List.filter_cons_of_neg (by simp), List.filter_cons_of_pos (by rw [h]; decide)]
    rfl

theorem leaves_other {l : Fin 3} {g : Fin 2} {s : State} (h : s.voter.grp[g].members.getLsbD l.val = false) : leaves l g s = [] := by
  unfold leaves
  refine List.filter_eq_nil_iff.2 fun w _ k => ?_
  obtain ⟨e, member⟩ := Bool.and_eq_true_iff.1 k
  obtain rfl := beq_iff_eq.1 e
  exact absurd (h.symm.trans member) Bool.false_ne_true

theorem excludeMarks_keeps (l : Fin 3) (cause : Nat) (ins : List (Fin 2)) (s : State) :
    (excludeMarks l cause ins s).voter.grp = s.voter.grp ∧ (excludeMarks l cause ins s).doms = s.doms ∧ (excludeMarks l cause ins s).arb = s.arb ∧ (excludeMarks l cause ins s).cores = s.cores := by
  unfold excludeMarks
  dsimp only
  split <;> exact ⟨rfl, rfl, rfl, rfl⟩

theorem lost_excludeMarks (l : Fin 3) (cause : Nat) (ins : List (Fin 2)) (s : State) : Lost s (excludeMarks l cause ins s) := by
  obtain ⟨hg, hd, ha, -⟩ := excludeMarks_keeps l cause ins s
  have hsafe : inSafe (excludeMarks l cause ins s) = inSafe s := by
    unfold inSafe
    rw [ha]
  constructor
  all_goals simp only [hg, hd, hsafe]
  · exact fun _ => trivial
  · exact fun _ h => h
  · exact fun _ => ⟨trivial, trivial, trivial⟩
  · exact fun _ _ h => h
  · exact fun _ h => h
  · exact id

/-- What a lane's loss stops before the group's membership changes. -/
def stopLane (l : Fin 3) (g : Fin 2) (s : State) : State :=
  let s := dropLane l g s
  hsbFault (groupDom g) (if s.doms[groupDom g].change.dim == .pending then changeStop "GROUP_NOT_TRIPLEX" (groupDom g) s else s)

theorem excludeFrom_other {l : Fin 3} {g : Fin 2} {s : State} (h : s.voter.grp[g].members.getLsbD l.val = false) : excludeFrom l g s = s :=
  if_pos (by rw [h]; rfl)

/-- The group's agreement counts start anew. -/
def agrClear (y : Group) : Group := { y with agr := .replicate 3 0 }

theorem excludeFrom_member {l : Fin 3} {g : Fin 2} {s : State} (h : s.voter.grp[g].members.getLsbD l.val = true) :
    excludeFrom l g s = if popc 3 (Sys2Proof.Machine.setBit s.voter.grp[g].members l.val false).toNat < 2 then enterSafe 0x05 (some g) (stopLane l g s)
      else modGroup g agrClear (setMembers 2 g (Sys2Proof.Machine.setBit s.voter.grp[g].members l.val false) (stopLane l g s)) := by
  refine (if_neg ?_).trans rfl
  rw [h]
  decide

theorem kept_stopLane (l : Fin 3) (g : Fin 2) (s : State) : Kept [.doms, .hsb, .sync, .mbx, .arb, .log] (dropLane l g s) (stopLane l g s) := by
  unfold stopLane
  dsimp only
  refine kept_hsbFault _ _ ?_ (by decide)
  split
  · exact kept_changeStop _ _ _ kept_refl (by decide)
  · exact kept_refl

theorem lost_stopLane (l : Fin 3) (g : Fin 2) (s : State) : Lost s (stopLane l g s) := by
  unfold stopLane
  dsimp only
  refine Lost.trans (lost_dropLane l g s) (Lost.trans ?_ (lost_of_kept (kept_hsbFault (ps0 := [.sync]) _ _ kept_refl (by decide)) (by decide) (by decide) (by decide)))
  split
  · exact lost_changeStop _ _ _
  · exact .refl _

theorem stopLane_voter (l : Fin 3) (g : Fin 2) (s : State) : (stopLane l g s).voter = s.voter := (kept_stopLane l g s).only .voter (by decide)

theorem lost_excludeFrom (l : Fin 3) (g : Fin 2) (s : State) : Lost s (excludeFrom l g s) := by
  cases h : s.voter.grp[g].members.getLsbD l.val with
  | false =>
    rw [excludeFrom_other h]
    exact .refl s
  | true =>
    rw [excludeFrom_member h]
    refine (lost_stopLane l g s).trans ?_
    split
    · exact lost_enterSafe _ _ _
    · refine Lost.trans (lost_setMembers 2 g _ _ fun k hk => ?_) (lost_modGroup g agrClear _ ⟨id, ⟨rfl, rfl, rfl⟩, fun _ h => h, id⟩)
      rw [stopLane_voter]
      exact setBit_false_getLsbD hk

theorem lost_excludeLane (l : Fin 3) (cause : Nat) (g : Fin 2) (s : State) : Lost s (excludeLane l cause (some g) s) := by
  rw [excludeLane_eq]
  exact (lost_excludeMarks l cause _ s).trans (lost_foldl (fun s h => lost_excludeFrom l h s) _ _)

/-- SAFE has no members. -/
def Outside (s : State) : Prop := inSafe s = true → ∀ (g : Fin 2) (l : Fin 3), s.voter.grp[g].members.getLsbD l.val = false

theorem outside_of_not {s : State} (h : inSafe s = false) : Outside s := fun k => absurd k (by rw [h]; decide)

theorem enterSafe_members (cause : Nat) (grp : Option (Fin 2)) {s : State} (h : Outside s) (g : Fin 2) (l : Fin 3) :
    (enterSafe cause grp s).voter.grp[g].members.getLsbD l.val = false := by
  cases hs : inSafe s with
  | true =>
    rw [enterSafe_idle cause grp hs]
    exact h hs g l
  | false => exact (enterSafe_entered cause grp hs).members g l

end Sys2Proof.Proofs
end

section
/-! SUPPORT. What a vote point's outcome does (R99, R272). -/

namespace Sys2Proof.Proofs
open Sys2Proof.Machine Sys2Proof.Safety Sys2Proof.Laws
set_option Elab.async false

/-! ## Lost lanes are no members -/

theorem inSafe_congr {s t : State} (h : t.arb.oper = s.arb.oper) : inSafe t = inSafe s := by
  unfold inSafe
  rw [h]

theorem Outside.lost {s t : State} (h : Outside s) (k : Lost s t) (hs : inSafe t = inSafe s) : Outside t := fun e g l =>
  Bool.eq_false_iff.2 fun m => Bool.false_ne_true ((h (hs.symm.trans e) g l).symm.trans (k.members g l m))

theorem setChg_oper (d : DomId) (c : ChgDim) (s : State) : (setChg d c s).arb.oper = s.arb.oper := transition_oper _ _ _ _ _ _

theorem finishRefusedOpt_arb (r : Option CmdRef) (name : String) (s : State) : (finishRefusedOpt r name s).arb = s.arb :=
  (kept_finishRefusedOpt (ps0 := [.sync, .mbx]) r name s kept_refl (by decide)).only .arb (by decide)

theorem changeStop_oper (name : String) (d : DomId) (s : State) : (changeStop name d s).arb.oper = s.arb.oper := by
  unfold changeStop
  dsimp only
  split
  · rfl
  · rw [setChg_oper, finishRefusedOpt_arb]
    rfl
  · rw [setChg_oper, finishRefusedOpt_arb]
    rfl

theorem stopLane_inSafe (l : Fin 3) (g : Fin 2) (s : State) : inSafe (stopLane l g s) = inSafe s := by
  unfold stopLane
  dsimp only
  refine inSafe_congr ?_
  show (if _ then changeStop _ _ (dropLane l g s) else dropLane l g s).arb.oper = _
  split
  · exact changeStop_oper _ _ _
  · rfl

theorem setMembers_inSafe (src : Nat) (g : Fin 2) (m : BitVec 3) (s : State) : inSafe (setMembers src g m s) = inSafe s := inSafe_congr (transition_oper _ _ _ _ _ _)

/-- A lane that is taken out of a group is no member, and SAFE has none. -/
theorem excludeFrom_gone (l : Fin 3) (g : Fin 2) {s : State} (h : Outside s) :
    Outside (excludeFrom l g s) ∧ (excludeFrom l g s).voter.grp[g].members.getLsbD l.val = false := by
  cases hm : s.voter.grp[g].members.getLsbD l.val with
  | false =>
    rw [excludeFrom_other hm]
    exact ⟨h, hm⟩
  | true =>
    have running : inSafe (stopLane l g s) = false := by
      rw [stopLane_inSafe]
      exact Bool.eq_false_iff.2 fun e => Bool.false_ne_true ((h e g l).symm.trans hm)
    rw [excludeFrom_member hm]
    split
    · have none := enterSafe_members 0x05 (some g) (outside_of_not running)
      exact ⟨fun _ => none, none g l⟩
    · refine ⟨outside_of_not ((setMembers_inSafe 2 g _ _).trans running), ?_⟩
      rw [modGroup_same]
      show (setMembers 2 g _ _).voter.grp[g].members.getLsbD l.val = false
      rw [setMembers_same]
      exact setBit_false_same _ l.isLt

theorem excludeMarks_outside (l : Fin 3) (cause : Nat) (ins : List (Fin 2)) {s : State} (h : Outside s) : Outside (excludeMarks l cause ins s) :=
  h.lost (lost_excludeMarks l cause ins s) (inSafe_congr (congrArg Arb.oper (excludeMarks_keeps l cause ins s).2.2.1))

theorem excludeLane_gone (l : Fin 3) (cause : Nat) (g : Fin 2) {s : State} (h : Outside s) :
    Outside (excludeLane l cause (some g) s) ∧ (excludeLane l cause (some g) s).voter.grp[g].members.getLsbD l.val = false := by
  rw [excludeLane_eq]
  cases hm : s.voter.grp[g].members.getLsbD l.val with
  | false =>
    rw [leaves_other hm]
    refine ⟨excludeMarks_outside l cause [] h, ?_⟩
    show (excludeMarks l cause [] s).voter.grp[g].members.getLsbD l.val = false
    rw [(excludeMarks_keeps l cause [] s).1, hm]
  | true =>
    rw [leaves_member hm]
    exact excludeFrom_gone l g (excludeMarks_outside l cause [g] h)

theorem gone_foldl {g : Fin 2} {f : State → Fin 3 → State} (hl : ∀ s l, Lost s (f s l)) (hf : ∀ s l, Outside s → Outside (f s l) ∧ (f s l).voter.grp[g].members.getLsbD l.val = false)
    (ls : List (Fin 3)) {s : State} (h : Outside s) : Outside (ls.foldl f s) ∧ ∀ l ∈ ls, (ls.foldl f s).voter.grp[g].members.getLsbD l.val = false := by
  induction ls generalizing s with
  | nil => exact ⟨h, fun l hl => absurd hl List.not_mem_nil⟩
  | cons k ls ih =>
    obtain ⟨first, gone⟩ := hf s k h
    obtain ⟨out, rest⟩ := ih first
    refine ⟨out, List.forall_mem_cons.2 ⟨Bool.eq_false_iff.2 fun m => ?_, rest⟩⟩
    exact Bool.false_ne_true (gone.symm.trans ((lost_foldl hl ls (f s k)).members g k m))

/-! ## A core that waits goes on -/

theorem resume_other {c j : CoreId} (x : Contrib) (s : State) (h : j ≠ c) : (resume c x s).cores[j] = s.cores[j] := by
  unfold resume
  split
  · rw [retire, modArch, modCore_other _ _ _ _ h, modCore_other _ _ _ _ h]
  · rw [retire, modArch, modCore_other _ _ _ _ h, modCore_other _ _ _ _ h]
  · rfl

theorem resume_vote {c : CoreId} {x : Contrib} {s : State} {rd : Reg} (h : s.cores[c].hold = .vote rd) (hx : x.kind = .vote) : (resume c x s).cores[c].hold = .none := by
  unfold resume
  rw [h, hx]
  dsimp only
  rw [retire, modArch, modCore_same, modCore_same]

theorem resume_none {c : CoreId} (x : Contrib) {s : State} (h : s.cores[c].hold = .none) : resume c x s = s := by
  unfold resume
  rw [h]

/-- Cores of the lanes of a list that wait at a VOTE go on. -/
theorem resume_foldl {g : Fin 2} {x : Contrib} {l : Fin 3} {rd : Reg} (hx : x.kind = .vote) (ls : List (Fin 3)) {s : State}
    (h : s.cores[laneCore l g].hold = .vote rd ∨ s.cores[laneCore l g].hold = .none) :
    (l ∈ ls ∨ s.cores[laneCore l g].hold = .none) → (ls.foldl (fun s l => resume (laneCore l g) x s) s).cores[laneCore l g].hold = .none := by
  induction ls generalizing s with
  | nil => exact fun k => k.resolve_left List.not_mem_nil
  | cons k ls ih =>
    intro hk
    by_cases e : laneCore l g = laneCore k g
    · have done : (resume (laneCore k g) x s).cores[laneCore l g].hold = .none := by
        rw [← e]
        rcases h with h | h
        · exact resume_vote h hx
        · rw [resume_none x h, h]
      exact ih (.inr done) (.inr done)
    · have same : (resume (laneCore k g) x s).cores[laneCore l g].hold = s.cores[laneCore l g].hold := congrArg Core.hold (resume_other x s e)
      refine ih (same ▸ h) ?_
      rw [same]
      rcases hk with hk | hk
      · exact .inl ((List.mem_cons.1 hk).resolve_left fun w => e (w ▸ rfl))
      · exact .inr hk

/-! ## The outcome of a vote point -/

/-- A vote point that ends: its overdue end of cycle is noted, and it is closed. -/
def voteStart (g : Fin 2) (p : VotePoint) (s : State) : State :=
  let late := p.kind == .eoc && (memberLanes g s).any (fun l => p.got[l].isNone)
  modGroup g (fun v => { v with vp := none }) (if late then { s with cyc := { s.cyc with err := Sys2Proof.Machine.setBit s.cyc.err 3 true } } else s)

/-- A lane of the minority is excluded. -/
def minorityOut (g : Fin 2) (k : VoteKind) (s : State) (l : Fin 3) : State :=
  excludeLane l 0x01 (some g) (modGroup g (fun v => { v with mmkind := k.mm }) (modLane l (fun y => { y with vmin := inc y.vmin }) s))

/-- The lanes that an outcome excludes. -/
def lanesOut (g : Fin 2) (k : VoteKind) (minority late : List (Fin 3)) (s : State) : State :=
  late.foldl (fun s l => excludeLane l 0x02 (some g) s) (minority.foldl (minorityOut g k) s)

/-- The image of a passing end of cycle. -/
def imageOut (g : Fin 2) (k : VoteKind) (x : Contrib) (s : State) : State := if k == .eoc then eocPassed g x s else s

/-- The members go on. -/
def membersOn (g : Fin 2) (x : Contrib) (s : State) : State := (memberLanes g s).foldl (fun s l => resume (laneCore l g) x s) s

/-- A candidate meets the outcome now or later. -/
def candidateOn (g : Fin 2) (closed : Bool) (p : VotePoint) (x : Contrib) (s : State) : State :=
  if (candLanes g s).isEmpty then s
  else
    let s := modGroup g (fun v => { v with voted := v.voted ++ [(x, p.opened + BitVec.ofNat 64 (winTicks g s))] }) s
    if s.voter.grp[g].candGot.isEmpty then (if closed then reintEnd 0x06 s else s) else candMeets g s

theorem voteResolve_pass {g : Fin 2} {s : State} {p : VotePoint} {x : Contrib} {mi la : List (Fin 3)} (closed : Bool) (hp : s.voter.grp[g].vp = some p)
    (he : voteEnd (memberLanes g s) p = .pass x mi la) :
    voteResolve g closed s = candidateOn g closed p x (membersOn g x (imageOut g p.kind x (lanesOut g p.kind mi la (voteStart g p s)))) := by
  unfold voteResolve
  rw [hp]
  dsimp only
  rw [he]
  rfl

/-- A vote point that does not pass. -/
def voteFailed (g : Fin 2) (p : VotePoint) (ms : List (Fin 3)) (s : State) : State :=
  modGroup g (fun v => { v with lastEoc := if p.kind == .eoc then false else v.lastEoc }) ((ms.filter fun l => p.got[l].isNone).foldl (fun s _ => hsbFault (groupDom g) s) s)

theorem voteResolve_safe {g : Fin 2} {s : State} {p : VotePoint} {cause : Nat} (closed : Bool) (hp : s.voter.grp[g].vp = some p) (he : voteEnd (memberLanes g s) p = .safe cause) :
    voteResolve g closed s = enterSafe cause (some g) (voteFailed g p (memberLanes g s) (voteStart g p s)) := by
  unfold voteResolve
  rw [hp]
  dsimp only
  rw [he]
  rfl

theorem voteStart_keeps (g : Fin 2) (p : VotePoint) (s : State) :
    (voteStart g p s).voter.grp[g] = { s.voter.grp[g] with vp := none } ∧ (voteStart g p s).doms = s.doms ∧ (voteStart g p s).arb = s.arb ∧ (voteStart g p s).cores = s.cores ∧
      (voteStart g p s).cyc.count = s.cyc.count := by
  unfold voteStart
  dsimp only
  rw [modGroup_same]
  split <;> exact ⟨rfl, rfl, rfl, rfl, rfl⟩

theorem lost_minorityOut (g : Fin 2) (k : VoteKind) (s : State) (l : Fin 3) : Lost s (minorityOut g k s l) := by
  unfold minorityOut
  refine Lost.trans ?_ (lost_excludeLane l 0x01 g _)
  refine Lost.trans (lost_modLane l (fun y => { y with vmin := inc y.vmin }) s) ?_
  exact lost_modGroup g _ _ ⟨id, ⟨rfl, rfl, rfl⟩, fun _ h => h, id⟩

theorem minorityOut_gone (g : Fin 2) (k : VoteKind) (s : State) (l : Fin 3) (h : Outside s) :
    Outside (minorityOut g k s l) ∧ (minorityOut g k s l).voter.grp[g].members.getLsbD l.val = false := by
  unfold minorityOut
  refine excludeLane_gone l 0x01 g (h.lost ?_ rfl)
  refine Lost.trans (lost_modLane l (fun y => { y with vmin := inc y.vmin }) s) ?_
  exact lost_modGroup g _ _ ⟨id, ⟨rfl, rfl, rfl⟩, fun _ h => h, id⟩

theorem lost_lanesOut (g : Fin 2) (k : VoteKind) (mi la : List (Fin 3)) (s : State) : Lost s (lanesOut g k mi la s) :=
  (lost_foldl (lost_minorityOut g k) mi s).trans (lost_foldl (fun s l => lost_excludeLane l 0x02 g s) la _)

theorem lanesOut_gone (g : Fin 2) (k : VoteKind) (mi la : List (Fin 3)) {s : State} (h : Outside s) : ∀ l, l ∈ mi ∨ l ∈ la → (lanesOut g k mi la s).voter.grp[g].members.getLsbD l.val = false := by
  obtain ⟨out, first⟩ := gone_foldl (g := g) (lost_minorityOut g k) (minorityOut_gone g k) mi h
  obtain ⟨-, second⟩ := gone_foldl (g := g) (fun s l => lost_excludeLane l 0x02 g s) (fun s l k => excludeLane_gone l 0x02 g k) la out
  rintro l (m | m)
  · refine Bool.eq_false_iff.2 fun k => ?_
    exact Bool.false_ne_true ((first l m).symm.trans ((lost_foldl (fun s l => lost_excludeLane l 0x02 g s) la _).members g l k))
  · exact second l m

theorem membersOn_keeps (g : Fin 2) (x : Contrib) (s : State) : (membersOn g x s).voter = s.voter ∧ (membersOn g x s).doms = s.doms := by
  have kept : Kept [.cores] s (membersOn g x s) := kept_foldl kept_refl fun s l h => kept_resume _ _ _ h (by decide)
  exact ⟨kept.only .voter (by decide), kept.only .doms (by decide)⟩

theorem candLanes_nil {g : Fin 2} {s : State} (h : s.voter.grp[g].cand = 0) : candLanes g s = [] :=
  List.filter_eq_nil_iff.2 fun l _ => by rw [h]; simp

theorem candidateOn_none {g : Fin 2} {closed : Bool} {p : VotePoint} {x : Contrib} {s : State} (h : s.voter.grp[g].cand = 0) : candidateOn g closed p x s = s := by
  unfold candidateOn
  rw [candLanes_nil h]
  rfl

theorem judged_candidateOn (g : Fin 2) (closed : Bool) (p : VotePoint) (x : Contrib) (s : State) : Judged g s (candidateOn g closed p x s) := by
  unfold candidateOn
  dsimp only
  split
  · exact .refl g s
  · have noted : Judged g s (modGroup g (fun v => { v with voted := v.voted ++ [(x, p.opened + BitVec.ofNat 64 (winTicks g s))] }) s) := judged_modGroup g g _ s fun _ => ⟨rfl, rfl, rfl⟩
    split
    · split
      · exact noted.trans (judged_reintEnd g _ _)
      · exact noted
    · exact noted.trans (judged_candMeets g g _)

end Sys2Proof.Proofs
end

section
/-! SUPPORT. Vote points as a whole, the candidate's comparison and the limit of agreement (R95, R98, R106, R108). -/

namespace Sys2Proof.Proofs
open Sys2Proof.Machine Sys2Proof.Safety Sys2Proof.Laws
set_option Elab.async false

/-! ## Vote points as a whole (R98, R99, R106, R108) -/

theorem votedImage_congr {g : Fin 2} {s t : State} (x : Contrib) (h : t.doms[groupDom g].image = s.doms[groupDom g].image) : votedImage g x t = votedImage g x s := by
  unfold votedImage
  rw [h]

theorem kept_lanesOut (g : Fin 2) (k : VoteKind) (mi la : List (Fin 3)) (s : State) :
    Kept [.cores, .doms, .voter, .hsb, .sync, .fg, .mbx, .ps, .boot, .arb, .log] s (lanesOut g k mi la s) :=
  kept_foldl (kept_foldl kept_refl fun _ _ h => kept_excludeLane _ _ _ _ (kept_modGroup _ _ _ (kept_modLane _ _ _ h (by decide)) (by decide)) (by decide))
    fun _ _ h => kept_excludeLane _ _ _ _ h (by decide)

/-- What the image of an outcome leaves, at an end of cycle and otherwise. -/
theorem imageOut_keeps (g : Fin 2) (k : VoteKind) (x : Contrib) (s : State) :
    (imageOut g k x s).voter.grp[g].members = s.voter.grp[g].members ∧ (imageOut g k x s).voter.grp[g].vp = s.voter.grp[g].vp ∧
      (imageOut g k x s).voter.grp[g].cand = s.voter.grp[g].cand ∧ ∀ j : CoreId, (imageOut g k x s).cores[j].hold = s.cores[j].hold := by
  have passed := passed_eocPassed g x s
  unfold imageOut
  split
  · exact ⟨passed.members, passed.vp, passed.cand, passed.hold⟩
  · exact ⟨rfl, rfl, rfl, fun _ => rfl⟩

/-- A vote point that passes. -/
structure Outcome (g : Fin 2) (p : VotePoint) (x : Contrib) (mi la : List (Fin 3)) (s t : State) : Prop where
  vp : t.voter.grp[g].vp = none
  eoc : p.kind = .eoc → t.voter.grp[g].lastEoc = true ∧ t.voter.grp[g].eocAt = some s.cyc.count ∧ t.doms[groupDom g].voted = votedImage g x s
  gone : s.voter.grp[g].cand = 0 → inSafe s = false → ∀ l, l ∈ mi ∨ l ∈ la → t.voter.grp[g].members.getLsbD l.val = false
  agreed : s.voter.grp[g].cand = 0 → mi = [] → la = [] → t.voter.grp[g].members = s.voter.grp[g].members ∧
    ∀ l ∈ memberLanes g s, ∀ rd, s.cores[laneCore l g].hold = .vote rd → x.kind = .vote → t.cores[laneCore l g].hold = .none

theorem voteResolve_outcome {g : Fin 2} {s : State} {p : VotePoint} {x : Contrib} {mi la : List (Fin 3)} (closed : Bool) (hp : s.voter.grp[g].vp = some p)
    (he : voteEnd (memberLanes g s) p = .pass x mi la) : Outcome g p x mi la s (voteResolve g closed s) := by
  rw [voteResolve_pass closed hp he]
  obtain ⟨start, doms, arb, cores, count⟩ := voteStart_keeps g p s
  have lost := lost_lanesOut g p.kind mi la (voteStart g p s)
  have kept := (kept_lanesOut g p.kind mi la (voteStart g p s)).only
  let u := lanesOut g p.kind mi la (voteStart g p s)
  have uvp : u.voter.grp[g].vp = none := lost.vp g (by rw [start])
  have ucand (h : s.voter.grp[g].cand = 0) : u.voter.grp[g].cand = 0 := lost.cand g (by rw [start]; exact h)
  have ucount : u.cyc.count = s.cyc.count := (congrArg Cyc.count (kept .cyc (by decide))).trans count
  have uimage : votedImage g x u = votedImage g x s := votedImage_congr x ((lost.images _).trans (congrArg (fun d : Vector Dom 6 => d[groupDom g].image) doms))
  obtain ⟨imembers, ivp, icand, ihold⟩ := imageOut_keeps g p.kind x u
  obtain ⟨onVoter, onDoms⟩ := membersOn_keeps g x (imageOut g p.kind x u)
  have judged := judged_candidateOn g closed p x (membersOn g x (imageOut g p.kind x u))
  have noCand (h : s.voter.grp[g].cand = 0) :
      candidateOn g closed p x (membersOn g x (imageOut g p.kind x u)) = membersOn g x (imageOut g p.kind x u) :=
    candidateOn_none (by rw [onVoter, icand]; exact ucand h)
  refine ⟨?_, fun hk => ?_, fun hc hs l hl => ?_, fun hc hmi hla => ?_⟩
  · rw [judged.vp, onVoter, ivp]
    exact uvp
  · have passed := passed_eocPassed g x u
    have eoc : imageOut g p.kind x u = eocPassed g x u := if_pos (by rw [hk]; rfl)
    rw [judged.lastEoc, judged.eocAt, judged.voted, onVoter, onDoms, eoc, passed.lastEoc, passed.eocAt, passed.voted, ucount, uimage]
    exact ⟨rfl, rfl, rfl⟩
  · have out : Outside (voteStart g p s) := outside_of_not ((inSafe_congr (congrArg Arb.oper arb)).trans hs)
    rw [noCand hc, onVoter, imembers]
    exact lanesOut_gone g p.kind mi la out l hl
  · have same : u = voteStart g p s := by
      subst hmi hla
      rfl
    have members : (imageOut g p.kind x u).voter.grp[g].members = s.voter.grp[g].members := by rw [imembers, same, start]
    rw [noCand hc]
    refine ⟨by rw [onVoter, members], fun l hl rd hold hx => ?_⟩
    have waits : (imageOut g p.kind x u).cores[laneCore l g].hold = .vote rd := by rw [ihold, same, cores, hold]
    unfold membersOn
    rw [memberLanes_congr members]
    exact resume_foldl hx _ (.inl waits) (.inl hl)

/-- A vote point that leads to SAFE. -/
theorem voteResolve_safeFor {g : Fin 2} {s : State} {p : VotePoint} {cause : Nat} (closed : Bool) (hp : s.voter.grp[g].vp = some p)
    (he : voteEnd (memberLanes g s) p = .safe cause) : (voteResolve g closed s).voter.grp[g].vp = none ∧ (inSafe s = false → SafeFor cause (voteResolve g closed s)) := by
  rw [voteResolve_safe closed hp he]
  obtain ⟨start, -, arb, -, -⟩ := voteStart_keeps g p s
  have faults : Kept [.sync] (voteStart g p s) (((memberLanes g s).filter fun l => p.got[l].isNone).foldl (fun s _ => hsbFault (groupDom g) s) (voteStart g p s)) :=
    kept_foldl kept_refl fun _ _ h => kept_hsbFault _ _ h (by decide)
  refine ⟨(lost_enterSafe cause (some g) _).vp g ?_, fun hs => enterSafe_entered cause (some g) ((inSafe_congr ?_).trans hs)⟩
  · unfold voteFailed
    rw [modGroup_same]
    show Group.vp _ = none
    rw [faults.only .voter (by decide), start]
  · have same : (voteFailed g p (memberLanes g s) (voteStart g p s)).arb = (voteStart g p s).arb := faults.only .arb (by decide)
    rw [same, arb]

/-! ## A late candidate, its comparison, and the limit of agreement -/

/-- Nothing of the vote point is changed by a candidate that is too late. -/
structure SamePoint (g : Fin 2) (s t : State) : Prop where
  vp : t.voter.grp[g].vp = s.voter.grp[g].vp
  members : t.voter.grp[g].members = s.voter.grp[g].members
  cfg : t.voter.grp[g].cfg = s.voter.grp[g].cfg
  cyc : t.cyc = s.cyc
  safe : inSafe t = inSafe s

/-- The end of the attempt of a candidate that is too late. -/
def lateCandidate (g : Fin 2) (s : State) : State := reintEnd 0x06 (modGroup g (fun w => { w with voted := [] }) s)

theorem samePoint_lateCandidate (g : Fin 2) (s : State) : SamePoint g s (lateCandidate g s) := by
  unfold lateCandidate
  refine ⟨?_, ?_, ?_, ?_, ?_⟩
  · rw [reintEnd_group Group.vp (fun _ _ => rfl), modGroup_same]
  · rw [reintEnd_group Group.members (fun _ _ => rfl), modGroup_same]
  · rw [reintEnd_group Group.cfg (fun _ _ => rfl), modGroup_same]
  · rw [(kept_reintEnd (ps0 := [.cores, .doms, .voter, .boot, .log]) 0x06 _ kept_refl (by decide)).only .cyc (by decide)]
    rfl
  · exact reintEnd_inSafe _ _

/-- The rest of VOTE_WINDOW_CLOSE. -/
def windowClose (g : Fin 2) (s : State) : State := match s.voter.grp[g].vp with
  | some p => if p.kind == .eoc || s.cyc.tb.toNat < p.opened.toNat + winTicks g s then s else voteResolve g true s
  | none => s

theorem execVoteWindowClose_eq (g : Fin 2) (s : State) : execVoteWindowClose g s = .next (windowClose g (if candLate g s then lateCandidate g s else s)) := rfl

theorem windowClose_due {g : Fin 2} {s : State} {p : VotePoint} (hp : s.voter.grp[g].vp = some p) (hk : p.kind ≠ .eoc) (hw : p.opened.toNat + winTicks g s ≤ s.cyc.tb.toNat) :
    windowClose g s = voteResolve g true s := by
  unfold windowClose
  rw [hp]
  refine if_neg ?_
  rw [Bool.or_eq_true, beq_iff_eq, decide_eq_true_eq]
  exact fun h => h.elim hk fun early => absurd hw (by omega)

theorem candLate_cand {g : Fin 2} {s : State} (h : candLate g s = true) : s.voter.grp[g].cand ≠ 0 := by
  unfold candLate at h
  split at h
  · exact bne_iff_ne.1 (Bool.and_eq_true_iff.1 h).2
  · exact absurd h Bool.false_ne_true

theorem candMeets_cons {g : Fin 2} {s : State} {x y : Contrib} {w : Long} {l : Fin 3} {ls : List (Fin 3)} {vs : List (Contrib × Long)} {cs : List Contrib}
    (hv : s.voter.grp[g].voted = (x, w) :: vs) (hc : s.voter.grp[g].candGot = y :: cs) (hl : candLanes g s = l :: ls) :
    candMeets g s = if x == y then resume (laneCore l g) x (join l g s) else reintEnd 0x06 (modGroup g (fun w => { w with voted := [], candGot := [] }) s) := by
  unfold candMeets
  dsimp only
  rw [hl, hv, hc]

theorem triplex_members {v : Group} (h : groupMode v = 2) : v.members = 7 := by
  unfold groupMode at h
  revert h
  generalize v.members = m
  revert m
  decide

/-- Three lanes with one taken away are two. -/
theorem two_left : ∀ l : Fin 3, popc 3 (Sys2Proof.Machine.setBit (7 : BitVec 3) l.val false).toNat = 2 := by decide

/-- A lane's exclusion from a group of three, with the state that the group's loss of it stops. -/
theorem excludeLane_triplex (l : Fin 3) (cause : Nat) (g : Fin 2) {s : State} (h : s.voter.grp[g].members = 7) :
    excludeLane l cause (some g) s =
      modGroup g agrClear (setMembers 2 g (Sys2Proof.Machine.setBit s.voter.grp[g].members l.val false) (stopLane l g (excludeMarks l cause [g] s))) := by
  have member : s.voter.grp[g].members.getLsbD l.val = true := by
    rw [h]
    exact (by decide : ∀ l : Fin 3, (7 : BitVec 3).getLsbD l.val = true) l
  have marks := (excludeMarks_keeps l cause [g] s).1
  have memberMarks : (excludeMarks l cause [g] s).voter.grp[g].members.getLsbD l.val = true := by rw [marks, member]
  rw [excludeLane_eq, leaves_member member]
  refine (excludeFrom_member memberMarks).trans ?_
  rw [marks]
  exact if_neg (by rw [h, two_left]; decide)

/-- An exclusion's cause and count at the lane. -/
theorem excludeMarks_lane (l : Fin 3) (g : Fin 2) (cause : Nat) (s : State) :
    (excludeMarks l cause [g] s).voter.lane[l].xcause = BitVec.ofNat 8 cause ∧ (excludeMarks l cause [g] s).voter.lane[l].xcount = inc16 s.voter.lane[l].xcount := by
  simp [excludeMarks, modLane, modReint, addLog]

theorem setMembers_lane (src : Nat) (g : Fin 2) (m : BitVec 3) (s : State) : (setMembers src g m s).voter.lane = s.voter.lane := by
  unfold setMembers
  dsimp only
  generalize groupMode s.voter.grp[g] = old
  generalize groupMode _ = new
  have same : (transition src g.val 1 old new s).voter = s.voter := (kept_transition (ps0 := [.arb]) src g.val 1 old new s kept_refl (by decide)).only .voter (by decide)
  exact (congrArg Voter.lane same : (transition src g.val 1 old new s).voter.lane = s.voter.lane)

theorem stopLane_stopped (l : Fin 3) (g : Fin 2) (s : State) : (stopLane l g s).cores[laneCore l g].stopped = true := by
  have h : (stopCore (laneCore l g) s).cores[laneCore l g].stopped = true := by
    unfold stopCore
    rw [modCore_same]
  have h : (dropLane l g s).cores[laneCore l g].stopped = true := h
  rw [(kept_stopLane l g s).only .cores (by decide), h]

theorem agrClear_fields (x : Group) (m : BitVec 3) (b : Bool) :
    (agrClear { x with members := m, duplex := b }).members = m ∧ (agrClear { x with members := m, duplex := b }).duplex = b ∧ (agrClear { x with members := m, duplex := b }).mmkind = x.mmkind :=
  ⟨rfl, rfl, rfl⟩

/-- The agreement limit of a lane (R95). -/
theorem agreementLimit_gives (g : Fin 2) (l : Fin 3) {s : State} (hm : groupMode s.voter.grp[g] = 2) (hl : s.voter.grp[g].members.getLsbD l.val = true)
    (ha : field s.voter.grp[g].cfg 0 8 ≤ s.voter.grp[g].agr[l]) (hc : field s.voter.grp[g].cfg 0 8 ≠ 0) :
    Gives (.agreementLimit g l) s [.cores, .doms, .voter, .hsb, .sync, .fg, .mbx, .ps, .boot, .arb, .log] fun t =>
      t.voter.grp[g].members = Sys2Proof.Machine.setBit s.voter.grp[g].members l.val false ∧ t.voter.grp[g].duplex = true ∧
        t.voter.grp[g].mmkind = 4 ∧ t.voter.lane[l].xcause = 3 ∧ t.voter.lane[l].xcount = inc16 s.voter.lane[l].xcount ∧ t.cores[laneCore l g].stopped = true := by
  have hrun : exec (.agreementLimit g l) s = .next (excludeLane l 0x03 (some g) (modGroup g (fun w => { w with mmkind := 4 }) s)) :=
    congrArg Host.Outcome.next (if_pos (by simp only [hm, hl, ha, decide_true, Bool.and_self, Bool.true_and, ne_eq, hc, not_false_eq_true]))
  refine gives_of_leaves (leaves_agreementLimit g l s) hrun ?_
  have start : (modGroup g (fun w => { w with mmkind := 4 }) s).voter.grp[g] = { s.voter.grp[g] with mmkind := 4 } := modGroup_same g _ s
  have lanes : (modGroup g (fun w => { w with mmkind := 4 }) s).voter.lane = s.voter.lane := rfl
  have all : (modGroup g (fun w => { w with mmkind := 4 }) s).voter.grp[g].members = 7 := by rw [start]; exact triplex_members hm
  generalize modGroup g (fun w => { w with mmkind := 4 }) s = u at start lanes all
  rw [excludeLane_triplex l 3 g all, modGroup_same, setMembers_group]
  have marks := excludeMarks_keeps l 3 [g] u
  have stopVoter := stopLane_voter l g (excludeMarks l 3 [g] u)
  have xlane := excludeMarks_lane l g 3 u
  have lane (m : BitVec 3) : (modGroup g agrClear (setMembers 2 g m (stopLane l g (excludeMarks l 3 [g] u)))).voter.lane = (excludeMarks l 3 [g] u).voter.lane :=
    (setMembers_lane 2 g m _).trans (congrArg Voter.lane stopVoter)
  have cores (m : BitVec 3) : (modGroup g agrClear (setMembers 2 g m (stopLane l g (excludeMarks l 3 [g] u)))).cores = (stopLane l g (excludeMarks l 3 [g] u)).cores :=
    (kept_setMembers (ps0 := [.voter, .arb]) 2 g m _ kept_refl (by decide)).only .cores (by decide)
  rw [lane, cores, xlane.1, xlane.2, lanes, (agrClear_fields _ _ _).1, (agrClear_fields _ _ _).2.1, (agrClear_fields _ _ _).2.2, stopVoter, marks.1, all, two_left, start, triplex_members hm]
  exact ⟨rfl, rfl, rfl, rfl, rfl, stopLane_stopped l g _⟩

/-- A candidate's comparison (R106, R108). -/
theorem candidateCompare_gives (g : Fin 2) {s : State} {x y : Contrib} {w : Long} {l : Fin 3} {ls : List (Fin 3)} {vs : List (Contrib × Long)} {cs : List Contrib}
    (hv : s.voter.grp[g].voted = (x, w) :: vs) (hc : s.voter.grp[g].candGot = y :: cs) (hl : candLanes g s = l :: ls) (hp : s.voter.reint.phase ≠ 0) :
    Gives (.candidateCompare g) s [.cores, .doms, .voter, .cim, .esc, .boot, .arb, .log] fun t => t.voter.grp[g].voted = [] ∧
      (x = y → t.voter.grp[g].members.getLsbD l.val = true) ∧ (x ≠ y → t.voter.reint.phase = 0 ∧ t.voter.reint.result = 0x06) := by
  refine gives_of_leaves (leaves_candidateCompare g s) (rfl : exec (.candidateCompare g) s = .next (candMeets g s)) ?_
  rw [candMeets_cons hv hc hl]
  by_cases e : x = y
  · rw [if_pos (beq_iff_eq.2 e), resume_voter]
    obtain ⟨voted, member⟩ := join_joined l g s
    exact ⟨voted, fun _ => member, fun n => absurd e n⟩
  · rw [if_neg fun h => e (beq_iff_eq.1 h)]
    refine ⟨reintEnd_voted _ _ g ?_, fun h => absurd h e, fun _ => reintEnd_ended 0x06 hp⟩
    rw [modGroup_same]

/-- Settles O27: a vote point's outcome goes on through exclusions that only lose lanes, and what it judged stays. -/
theorem votePointsDecideMembersAndImages : Obligations.VotePointsDecideMembersAndImages := by
  unfold Obligations.VotePointsDecideMembersAndImages
  intro g s v resolved
  have whole (closed late : Bool) {p : VotePoint} (hp : s.voter.grp[g].vp = some p) : resolved p late (voteResolve g closed s) := by
    refine ⟨?_, fun cause he hs => ?_, fun x mi la he => ?_⟩
    · cases he : voteEnd (memberLanes g s) p with
      | safe cause => exact (voteResolve_safeFor closed hp he).1
      | pass x mi la => exact (voteResolve_outcome closed hp he).vp
    · have safe := (voteResolve_safeFor closed hp he).2 hs
      exact ⟨safe.oper, safe.cause, safe.valid⟩
    · have out := voteResolve_outcome closed hp he
      exact ⟨out.eoc, fun hc hs => ⟨fun l hl => out.gone hc hs l (.inl hl), fun _ l hl => out.gone hc hs l (.inr hl)⟩, out.agreed⟩
  refine ⟨fun p hp hall => ?_, fun p hp hk hw => ?_, fun x w rest hv hk hg hc hp hw hph => ?_, fun x y w l ls vs cs hv hc hl hp => candidateCompare_gives g hv hc hl hp,
    fun l hm hl ha hc => agreementLimit_gives g l hm hl ha hc⟩
  · refine gives_of_leaves (leaves_votePointComplete g s) (t := voteResolve g false s) ?_ (whole false false hp)
    refine congrArg Host.Outcome.next ?_
    show (match s.voter.grp[g].vp with | none => s | some p => if (memberLanes g s).all fun l => p.got[l].isSome then voteResolve g false s else s) = _
    rw [hp]
    exact if_pos (List.all_eq_true.2 fun l hl => Option.isSome_iff_ne_none.2 (hall l hl))
  · cases late : candLate g s with
    | false =>
      have hrun : exec (.voteWindowClose g) s = .next (voteResolve g true s) :=
        (execVoteWindowClose_eq g s).trans (congrArg Host.Outcome.next (by rw [late]; exact windowClose_due hp hk hw))
      exact gives_of_leaves (leaves_voteWindowClose g s) hrun (whole true true hp)
    | true =>
      have same := samePoint_lateCandidate g s
      have vp : (lateCandidate g s).voter.grp[g].vp = some p := same.vp.trans hp
      have ms := memberLanes_congr same.members
      have hrun : exec (.voteWindowClose g) s = .next (voteResolve g true (lateCandidate g s)) := by
        refine (execVoteWindowClose_eq g s).trans (congrArg Host.Outcome.next ?_)
        rw [if_pos late]
        refine windowClose_due vp hk ?_
        rw [same.cyc]
        unfold winTicks
        rw [same.cfg]
        exact hw
      refine gives_of_leaves (leaves_voteWindowClose g s) hrun ⟨?_, fun cause he hs => ?_, fun x mi la he => ⟨fun k => absurd k hk, fun hc => absurd hc (candLate_cand late), fun hc => absurd hc (candLate_cand late)⟩⟩
      · cases he : voteEnd (memberLanes g (lateCandidate g s)) p with
        | safe cause => exact (voteResolve_safeFor true vp he).1
        | pass x mi la => exact (voteResolve_outcome true vp he).vp
      · have safe := (voteResolve_safeFor true vp (ms ▸ he)).2 (same.safe.trans hs)
        exact ⟨safe.oper, safe.cause, safe.valid⟩
  · have late : candLate g s = true := by
      unfold candLate
      rw [hv, hg]
      exact Bool.and_eq_true_iff.2 ⟨Bool.and_eq_true_iff.2 ⟨bne_iff_ne.2 hk, decide_eq_true hw⟩, bne_iff_ne.2 hc⟩
    have vp : (lateCandidate g s).voter.grp[g].vp = none := (samePoint_lateCandidate g s).vp.trans hp
    have hrun : exec (.voteWindowClose g) s = .next (lateCandidate g s) := by
      refine (execVoteWindowClose_eq g s).trans (congrArg Host.Outcome.next ?_)
      rw [late]
      unfold windowClose
      show (match (lateCandidate g s).voter.grp[g].vp with | some p => _ | none => lateCandidate g s) = _
      rw [vp]
    refine ⟨_, hrun, ?_, ?_⟩
    · exact (kept_reintEnd (ps0 := [.cores, .doms, .voter, .boot, .log]) 0x06 _ (kept_modGroup _ _ s kept_refl (by decide)) (by decide)).only
    · refine ⟨reintEnd_voted _ _ g ?_, reintEnd_ended 0x06 hph⟩
      rw [modGroup_same]

end Sys2Proof.Proofs
end

section
/-! SUPPORT. Logic Solver queues (R65 to R88). -/

namespace Sys2Proof.Proofs
open Sys2Proof.Machine Sys2Proof.Safety Sys2Proof.Laws
set_option Elab.async false

/-! ## A queue of a Logic Solver (R65 to R88) -/

theorem modQueue_same (i : Fin 5) (k : Fin 2) (f : LsQueue → LsQueue) (s : State) : (modQueue i k f s).solvers[i].q[k] = f s.solvers[i].q[k] := by
  simp [modQueue, modSolver]

theorem modQueue_otherQ (i : Fin 5) (k : Fin 2) (f : LsQueue → LsQueue) (s : State) : (modQueue i (otherQ k) f s).solvers[i].q[k] = s.solvers[i].q[k] := by
  rcases (by omega : k = 0 ∨ k = 1) with rfl | rfl <;> simp [modQueue, modSolver, otherQ]

theorem modQueue_bits (i : Fin 5) (k : Fin 2) (f : LsQueue → LsQueue) (s : State) : (modQueue i k f s).solvers[i].bits = s.solvers[i].bits := by
  simp [modQueue, modSolver]

theorem lsRelease_solvers (i : Fin 5) (k : Fin 2) (s : State) : (lsRelease i k s).solvers = s.solvers :=
  (kept_lsRelease (ps0 := [.cores]) i k s kept_refl (by decide)).only .solvers (by decide)

theorem startQueued_otherQ (i : Fin 5) (k : Fin 2) (s : State) : (startQueued i (otherQ k) s).solvers[i].q[k] = s.solvers[i].q[k] := by
  unfold startQueued
  split
  · exact modQueue_otherQ _ _ _ _
  · exact modQueue_otherQ _ _ _ _
  · rfl

theorem startQueued_bits (i : Fin 5) (k : Fin 2) (s : State) : (startQueued i k s).solvers[i].bits = s.solvers[i].bits := by
  unfold startQueued
  split
  · exact modQueue_bits _ _ _ _
  · exact modQueue_bits _ _ _ _
  · rfl

/-- A queue whose run has ended and that is to be unloaded gives its image up. -/
def unloadIfDue (q : LsQueue) : LsQueue := if q.unloadDue && q.run.isNone && q.queued.isNone then { q with img := none, unloadDue := false } else q

theorem unloadIfDue_run (q : LsQueue) : (unloadIfDue q).run = q.run ∧ (unloadIfDue q).done = q.done ∧ (unloadIfDue q).fault = q.fault ∧ (unloadIfDue q).aborted = q.aborted ∧
    (unloadIfDue q).last = q.last ∧ (unloadIfDue q).fcode = q.fcode := by
  unfold unloadIfDue
  split <;> exact ⟨rfl, rfl, rfl, rfl, rfl, rfl⟩

/-- The end of a run leaves its own queue's findings. -/
theorem lsEnded_queue (i : Fin 5) (k : Fin 2) (s : State) : (lsEnded i k s).solvers[i].q[k] = unloadIfDue s.solvers[i].q[k] := by
  unfold lsEnded
  dsimp only
  rw [startQueued_otherQ, lsRelease_solvers]
  exact modQueue_same i k unloadIfDue s

theorem lsEnded_bits (i : Fin 5) (k : Fin 2) (s : State) : (lsEnded i k s).solvers[i].bits = s.solvers[i].bits := by
  unfold lsEnded
  dsimp only
  rw [startQueued_bits, lsRelease_solvers]
  exact modQueue_bits i k unloadIfDue s

theorem lsBy_ok {c : CoreId} {i : Fin 5} {k : Fin 2} {s : State} (h : lsReach c i s = .ok k) (f : Fin 2 → State → State) : lsBy c i f s = answer .ok 0 (f k s) := by
  unfold lsBy
  rw [h]

theorem lsAtK_priv {c : CoreId} {i : Fin 5} {k : Fin 2} {s : State} (f : State → State) (h : s.cores[c].arch.priv = true) : lsAtK c i k f s = f s := if_pos h

theorem lsAtK_user {c : CoreId} {i : Fin 5} {k : Fin 2} {s : State} (f : State → State) (h : s.cores[c].arch.priv = false) :
    lsAtK c i k f s = modQueue i k (fun q => { q with err := Sys2Proof.Machine.setBit q.err 6 true }) s := if_neg (Bool.eq_false_iff.1 h)

/-! ## START (R79, R84, R87) -/

/-- A refused START. -/
def startRefused (i : Fin 5) (k : Fin 2) (b : Nat) (s : State) : State := lsFaultHandled i k (modQueue i k (fun q => { q with err := Sys2Proof.Machine.setBit q.err b true }) s)

theorem lsStartOp_bare {i : Fin 5} {k : Fin 2} {s : State} (e : Nat) (h : s.solvers[i].q[k].img = none) : lsStartOp i k e s = startRefused i k 5 s := by
  unfold lsStartOp
  dsimp only
  rw [h]
  rfl

theorem lsStartOp_img {i : Fin 5} {k : Fin 2} {s : State} {hd : NetHdr} (e : Nat) (h : s.solvers[i].q[k].img = some hd) :
    lsStartOp i k e s = if e ≥ hd.entries then startRefused i k 4 s
      else if s.solvers[i].q[k].run.isSome || s.solvers[i].q[k].queued.isSome then startRefused i k 2 s else lsAwait i k (lsBegin i k hd e s) := by
  unfold lsStartOp
  dsimp only
  rw [h]
  rfl

theorem lsFaultHandled_solvers {i : Fin 5} (k : Fin 2) (s : State) (h : lsLane i ≠ none) : (lsFaultHandled i k s).solvers = s.solvers := by
  unfold lsFaultHandled
  split
  · rfl
  next e => exact absurd e h

theorem startRefused_solvers {i : Fin 5} (k : Fin 2) (b : Nat) (s : State) (h : lsLane i ≠ none) :
    (startRefused i k b s).solvers = (modQueue i k (fun q => { q with err := Sys2Proof.Machine.setBit q.err b true }) s).solvers := lsFaultHandled_solvers k _ h

/-- Why a START is refused. -/
theorem lsStartOp_refused {i : Fin 5} {k : Fin 2} {s : State} {e b : Nat} (h : b = 5 ∧ s.solvers[i].q[k].img = none ∨ ∃ hd, s.solvers[i].q[k].img = some hd ∧
      (b = 4 ∧ hd.entries ≤ e ∨ b = 2 ∧ e < hd.entries ∧ (s.solvers[i].q[k].run ≠ none ∨ s.solvers[i].q[k].queued ≠ none))) :
    lsStartOp i k e s = startRefused i k b s := by
  rcases h with ⟨rfl, h⟩ | ⟨hd, h, ⟨rfl, he⟩ | ⟨rfl, he, busy⟩⟩
  · exact lsStartOp_bare e h
  · rw [lsStartOp_img e h]
    exact if_pos he
  · rw [lsStartOp_img e h, if_neg (by omega)]
    exact if_pos (by simpa only [Bool.or_eq_true, Option.isSome_iff_ne_none] using busy)

/-- The core of a queue is that of its Solver's lane or claim. -/
theorem lsCore_congr {i : Fin 5} {s t : State} (k : Fin 2) (h : t.solvers[i].claim = s.solvers[i].claim) : lsCore i k t = lsCore i k s := by
  unfold lsCore
  rw [h]

theorem modQueue_claim (i : Fin 5) (k : Fin 2) (f : LsQueue → LsQueue) (s : State) : (modQueue i k f s).solvers[i].claim = s.solvers[i].claim := by
  simp [modQueue, modSolver]

theorem lsAwait_congr {i : Fin 5} {k : Fin 2} {s t : State} (h : t.solvers[i].claim = s.solvers[i].claim) :
    lsAwait i k t = match lsCore i k s with
      | none => t
      | some x => { t with cores := t.cores.set x { t.cores[x] with lsWait := if t.cores[x].task.isSome then some i else t.cores[x].lsWait } } := by
  unfold lsAwait
  rw [lsCore_congr k h]
  rfl

/-- A queue's run begins. -/
def runNow (i : Fin 5) (k : Fin 2) (h : NetHdr) (e : Nat) (t : State) : State :=
  modQueue i k (fun q => { q with run := some (beginRun i k h e t), entry := e, done := false }) t

theorem runNow_claim (i : Fin 5) (k : Fin 2) (h : NetHdr) (e : Nat) (t : State) : (runNow i k h e t).solvers[i].claim = t.solvers[i].claim := modQueue_claim _ _ _ _

theorem lsBegin_free {i : Fin 5} {k : Fin 2} {s : State} (h : NetHdr) (e : Nat) (free : lsLane i = none ∨ s.solvers[i].q[otherQ k].run = none) : lsBegin i k h e s = runNow i k h e s := by
  unfold lsBegin
  have none : (if (lsLane i).isSome then s.solvers[i].q[otherQ k].run else none) = none := by
    rcases free with f | f
    · rw [f]
      rfl
    · rw [f, ite_self]
  rw [none]
  rfl

theorem lsBegin_busy {i : Fin 5} {k : Fin 2} {s : State} {r : LsRun} (h : NetHdr) (e : Nat) (hl : lsLane i ≠ none) (hr : s.solvers[i].q[otherQ k].run = some r) :
    lsBegin i k h e s = if k = 0 && r.start == s.cyc.tb + 1 then runNow i k h e (modQueue i 1 (fun q => { q with run := none, queued := some r.entry }) s)
      else modQueue i k (fun q => { q with queued := some e, done := false }) s := by
  unfold lsBegin
  rw [if_pos (Option.isSome_iff_ne_none.2 hl), hr]
  rfl

/-! ## ABORT, LOAD and the end of a run -/

theorem lsAbortQueue_early {i : Fin 5} {k : Fin 2} {s : State} {r : LsRun} {h : NetHdr} (hr : s.solvers[i].q[k].run = some r) (hi : s.solvers[i].q[k].img = some h)
    (early : s.cyc.tb.toNat < r.start.toNat) :
    lsAbortQueue i k s = lsEnded i k (modQueue i k (fun q => { q with run := none, aborted := true, fault := false, done := false }) (modSolver i (fun v => { v with bits := s.solvers[i].bits }) s)) := by
  unfold lsAbortQueue
  dsimp only
  rw [hr, hi]
  dsimp only
  rw [if_pos (by rw [Bool.or_eq_true]; exact .inr (decide_eq_true early)), if_pos early]

theorem lsAbortQueue_idle {i : Fin 5} {k : Fin 2} {s : State} (hr : s.solvers[i].q[k].run = none) (hq : s.solvers[i].q[k].queued = none) :
    lsAbortQueue i k s = modQueue i k (fun q => { q with err := Sys2Proof.Machine.setBit q.err 3 true }) s := by
  unfold lsAbortQueue
  dsimp only
  rw [hr, hq]

theorem lsReadImage_solvers (i : Fin 5) (a : Nat) (r : Option Areas) (s : State) : (lsReadImage i a r s).solvers = s.solvers :=
  (kept_lsReadImage (ps0 := [.memRegs, .memErrs]) i a r s kept_refl (by decide)).only .solvers (by decide)

theorem modQueue_solvers {s t : State} (i : Fin 5) (k : Fin 2) (f : LsQueue → LsQueue) (h : t.solvers = s.solvers) : (modQueue i k f t).solvers = (modQueue i k f s).solvers := by
  unfold modQueue modSolver
  simp only [h]

/-- A run's clocks (R81). -/
def runTotal (i : Fin 5) (r : LsRun) (h : NetHdr) (s : State) : Nat := runClocks (lsMem i) h (entryAt (lsMem i) h r.entry s) s

/-- A queue whose run has ended without a fault. -/
def ranWell (total : Nat) (q : LsQueue) : LsQueue := { q with run := none, done := true, fault := false, aborted := false, last := BitVec.ofNat 32 total }

/-- A run ends without a fault. -/
def runDone (i : Fin 5) (k : Fin 2) (total : Nat) (s : State) : State :=
  let s := modQueue i k (ranWell total) s
  lsEnded i k (match lsCore i k s with | some c => raiseIrq c 2 s | none => s)

theorem lsFinishRun_well {i : Fin 5} {k : Fin 2} {r : LsRun} {h : NetHdr} {s : State} (busy : lsBusy i s = some (k, r, h))
    (hz : (runBody i k h r (min (runTotal i r h s) h.maxRun) s).1 = none) :
    lsFinishRun i s = if runTotal i r h s > h.maxRun then lsFault i k 5 (runBody i k h r (min (runTotal i r h s) h.maxRun) s).2
      else runDone i k (runTotal i r h s) (runBody i k h r (min (runTotal i r h s) h.maxRun) s).2 := by
  unfold lsFinishRun
  rw [busy]
  dsimp only
  unfold runTotal at hz
  rw [hz]
  rfl

theorem runDone_queue (i : Fin 5) (k : Fin 2) (total : Nat) (s : State) : (runDone i k total s).solvers[i].q[k] = unloadIfDue (ranWell total s.solvers[i].q[k]) := by
  unfold runDone
  dsimp only
  rw [lsEnded_queue]
  split
  · exact congrArg unloadIfDue (modQueue_same i k _ s)
  · exact congrArg unloadIfDue (modQueue_same i k _ s)

/-- A queue whose run has ended with a fault. -/
def ranBadly (code : Nat) (q : LsQueue) : LsQueue := { q with run := none, fault := true, done := false, aborted := false, fcode := BitVec.ofNat 8 code, faults := inc q.faults }

theorem lsFault_queue {i : Fin 5} (k : Fin 2) (code : Nat) (s : State) (h : lsLane i ≠ none) : (lsFault i k code s).solvers[i].q[k] = unloadIfDue (ranBadly code s.solvers[i].q[k]) := by
  unfold lsFault
  dsimp only
  rw [lsFaultHandled_solvers k _ h, lsEnded_queue]
  split
  · exact congrArg unloadIfDue (modQueue_same i k (ranBadly code) s)
  · exact congrArg unloadIfDue (modQueue_same i k (ranBadly code) s)

/-- A window access to an image that covers its bytes. -/
theorem windowAccess_img {i : Fin 5} {k : Fin 2} {s : State} {h : NetHdr} {off n v : Nat} (wr : Bool) (hi : s.solvers[i].q[k].img = some h) (inside : ∀ o ∈ lanesOf off n, o < h.bits / 8) :
    windowAccess i k wr off n v s =
      if s.solvers[i].q[k].run.isSome || s.solvers[i].q[k].queued.isSome then (.lsBusy, 0, modQueue i k (fun q => { q with err := Sys2Proof.Machine.setBit q.err 0 true }) s)
      else if wr then (.ok, 0, modSolver i (fun u => { u with bits := ((lanesOf off n).zip (leBytes n v)).foldl (fun f x => partSetByte (partBase i k h.bits) x.1 x.2 f) s.solvers[i].bits }) s)
      else (.ok, leNat ((lanesOf off n).map fun o => partByte (partBase i k h.bits) s.solvers[i].bits o), s) := by
  have fits : ((lanesOf off n).any fun o => decide (o ≥ h.bits / 8)) = false := List.any_eq_false.2 fun o ho => by simpa using inside o ho
  unfold windowAccess
  dsimp only
  rw [hi]
  dsimp only
  rw [fits]
  rfl

/-- An access of the bit-file window that reaches its queue (R78). -/
theorem execLsWindowAccess_ok {c : CoreId} {i : Fin 5} {k : Fin 2} {s : State} (reach : lsReach c i s = .ok k) (wr : Bool) (off : BitVec 15) (v : Word) :
    execLsWindowAccess c i wr off v s = .next (answer (windowAccess i k wr off.toNat 4 v.toNat s).1 (BitVec.ofNat 32 (windowAccess i k wr off.toNat 4 v.toNat s).2.1)
      (if (windowAccess i k wr off.toNat 4 v.toNat s).1 = .noPath then countAf (coreMaster c) (windowAccess i k wr off.toNat 4 v.toNat s).2.2
        else (windowAccess i k wr off.toNat 4 v.toNat s).2.2)) := by
  unfold execLsWindowAccess
  rw [reach]

theorem isSome_or_isSome {α β : Type} {x : Option α} {y : Option β} (h : x ≠ none ∨ y ≠ none) : (x.isSome || y.isSome) = true := by
  simpa only [Bool.or_eq_true, Option.isSome_iff_ne_none] using h

/-- A busy queue refuses window accesses. -/
theorem lsWindowAccess_busy {c : CoreId} {i : Fin 5} {k : Fin 2} {s : State} (reach : lsReach c i s = .ok k) (wr : Bool) (off : BitVec 15) (v : Word) {h : NetHdr}
    (hi : s.solvers[i].q[k].img = some h) (inside : ∀ o ∈ lanesOf off.toNat 4, o < h.bits / 8) (busy : s.solvers[i].q[k].run ≠ none ∨ s.solvers[i].q[k].queued ≠ none) :
    execLsWindowAccess c i wr off v s = .next (answer .lsBusy 0 (modQueue i k (fun q => { q with err := Sys2Proof.Machine.setBit q.err 0 true }) s)) := by
  rw [execLsWindowAccess_ok reach, windowAccess_img wr hi inside, if_pos (isSome_or_isSome busy)]
  rfl

/-- The bytes that a window write leaves. -/
def windowBits (i : Fin 5) (k : Fin 2) (h : NetHdr) (off v : Nat) (b : List Nat) : List Nat :=
  ((lanesOf off 4).zip (leBytes 4 v)).foldl (fun f x => partSetByte (partBase i k h.bits) x.1 x.2 f) b

/-- An idle queue's window is read and written. -/
theorem lsWindowAccess_idle {c : CoreId} {i : Fin 5} {k : Fin 2} {s : State} (reach : lsReach c i s = .ok k) (off : BitVec 15) (v : Word) {h : NetHdr}
    (hi : s.solvers[i].q[k].img = some h) (inside : ∀ o ∈ lanesOf off.toNat 4, o < h.bits / 8) (hr : s.solvers[i].q[k].run = none) (hq : s.solvers[i].q[k].queued = none) :
    execLsWindowAccess c i false off v s =
        .next (answer .ok (BitVec.ofNat 32 (leNat ((lanesOf off.toNat 4).map fun o => partByte (partBase i k h.bits) s.solvers[i].bits o))) s) ∧
      execLsWindowAccess c i true off v s = .next (answer .ok 0 (modSolver i (fun u => { u with bits := windowBits i k h off.toNat v.toNat u.bits }) s)) := by
  have idle : ¬(s.solvers[i].q[k].run.isSome || s.solvers[i].q[k].queued.isSome) = true := by
    rw [hr, hq]
    decide
  rw [execLsWindowAccess_ok reach, execLsWindowAccess_ok reach, windowAccess_img false hi inside, windowAccess_img true hi inside, if_neg idle, if_neg idle]
  exact ⟨rfl, rfl⟩

/-- The end of a run without a fault of its own (R76, R86). -/
theorem lsRun_ends {i : Fin 5} {k : Fin 2} {r : LsRun} {h : NetHdr} {s : State} (busy : lsBusy i s = some (k, r, h))
    (hz : (runBody i k h r (min (runTotal i r h s) h.maxRun) s).1 = none) :
    (runTotal i r h s ≤ h.maxRun → Gives (.lsDone i) s [.cores, .doms, .pairs, .mem, .memRegs, .memErrs, .voter, .solvers, .hsb, .sync, .fg, .mbx, .esc, .ps, .boot, .arb, .log, .freeCtr]
      fun t => t.solvers[i].q[k].run = none ∧ t.solvers[i].q[k].done = true ∧ t.solvers[i].q[k].fault = false ∧ t.solvers[i].q[k].last = BitVec.ofNat 32 (runTotal i r h s)) ∧
    (h.maxRun < runTotal i r h s → lsLane i ≠ none → Gives (.lsOvertime i) s
      [.cores, .doms, .pairs, .mem, .memRegs, .memErrs, .voter, .solvers, .hsb, .sync, .fg, .mbx, .esc, .ps, .boot, .arb, .log, .freeCtr]
      fun t => t.solvers[i].q[k].run = none ∧ t.solvers[i].q[k].done = false ∧ t.solvers[i].q[k].fault = true ∧ t.solvers[i].q[k].fcode = 5) := by
  have ran := lsFinishRun_well busy hz
  generalize (runBody i k h r (min (runTotal i r h s) h.maxRun) s).2 = z at ran
  refine ⟨fun hm => ?_, fun hm hl => ?_⟩
  · rw [if_neg (by omega)] at ran
    refine gives_of_leaves (leaves_lsDone i s) (congrArg Host.Outcome.next ran) ?_
    rw [runDone_queue]
    obtain ⟨run, done, fault, -, last, -⟩ := unloadIfDue_run (ranWell (runTotal i r h s) z.solvers[i].q[k])
    exact ⟨run, done, fault, last⟩
  · rw [if_pos hm] at ran
    have hrun : exec (.lsOvertime i) s = .next (lsFault i k 5 z) := by
      refine congrArg Host.Outcome.next ?_
      rw [busy]
      exact (if_pos hm).trans ran
    refine gives_of_leaves (leaves_lsOvertime i s) hrun ?_
    rw [lsFault_queue k 5 _ hl]
    obtain ⟨run, done, fault, -, -, fcode⟩ := unloadIfDue_run (ranBadly 5 z.solvers[i].q[k])
    exact ⟨run, done, fault, fcode⟩

/-- Settles O28: a command reaches its queue, and its outcome is that of the queue's operation. -/
theorem solverCommandsRunNetworks : Obligations.SolverCommandsRunNetworks := by
  unfold Obligations.SolverCommandsRunNetworks
  refine ⟨fun c i k s reach => ?_, fun i k r h s busy => ?_, fun s => ?_⟩
  · intro q at_ err
    have start (e : BitVec 4) : exec (.lsStart c i e) s = .next (answer .ok 0 (lsStartOp i k e.toNat s)) := congrArg Host.Outcome.next (lsBy_ok reach _)
    have abort : exec (.lsAbort c i) s = .next (answer .ok 0 (lsAbortQueue i k s)) := congrArg Host.Outcome.next (lsBy_ok reach _)
    have load : exec (.lsLoad c i) s = .next (answer .ok 0 (lsAtK c i k (lsLoadOp i k) s)) := congrArg Host.Outcome.next (lsBy_ok reach _)
    have unload : exec (.lsUnload c i) s = .next (answer .ok 0 (lsAtK c i k (lsUnloadOp i k) s)) := congrArg Host.Outcome.next (lsBy_ok reach _)
    refine ⟨fun e h hi he hr hq => ?_, fun e b why => ?_, fun r h hr hi early => ?_, fun hr hq => ?_, fun user => ?_, fun priv => ?_, fun off v h hi inside => ?_⟩
    · have begins : lsStartOp i k e.toNat s = lsAwait i k (lsBegin i k h e.toNat s) := by
        rw [lsStartOp_img e.toNat hi, if_neg (by omega)]
        refine if_neg ?_
        rw [hr, hq]
        decide
      intro started run
      refine ⟨fun free => ?_, fun r hl hr => ⟨fun hk ht => ?_, fun hk => ?_⟩⟩
      · rw [start, begins, lsBegin_free h e.toNat free, lsAwait_congr (runNow_claim i k h e.toNat s)]
        rfl
      · rw [start, begins, lsBegin_busy h e.toNat hl hr, if_pos (Bool.and_eq_true_iff.2 ⟨decide_eq_true hk, beq_iff_eq.2 ht⟩), lsAwait_congr ((runNow_claim i k h e.toNat _).trans (modQueue_claim i 1 _ s))]
        rfl
      · rw [start, begins, lsBegin_busy h e.toNat hl hr, if_neg (fun b => hk ⟨of_decide_eq_true (Bool.and_eq_true_iff.1 b).1, beq_iff_eq.1 (Bool.and_eq_true_iff.1 b).2⟩), lsAwait_congr (modQueue_claim i k _ s)]
        rfl
    · refine gives_of_leaves (leaves_lsStart c i e s) (start e) ⟨rfl, fun hl => ?_⟩
      show (lsStartOp i k e.toNat s).solvers = _
      rw [lsStartOp_refused why]
      exact startRefused_solvers k b s hl
    · have kept : Kept [.cores, .solvers, .bus] s (answer .ok 0 (lsAbortQueue i k s)) := by
        rw [lsAbortQueue_early hr hi early]
        exact kept_answer _ _ _ (kept_lsEnded _ _ _ (kept_modQueue _ _ _ _ (kept_modSolver _ _ s kept_refl (by decide)) (by decide)) (by decide)) (by decide)
      refine ⟨_, abort, kept.only, ?_⟩
      show (lsAbortQueue i k s).solvers[i].q[k].run = none ∧ (lsAbortQueue i k s).solvers[i].q[k].aborted = true ∧ (lsAbortQueue i k s).solvers[i].bits = s.solvers[i].bits
      rw [lsAbortQueue_early hr hi early, lsEnded_queue, lsEnded_bits, modQueue_same, modQueue_bits]
      obtain ⟨run, -, -, aborted, -, -⟩ := unloadIfDue_run
        { (modSolver i (fun v => { v with bits := s.solvers[i].bits }) s).solvers[i].q[k] with run := none, aborted := true, fault := false, done := false }
      exact ⟨run, aborted, by simp [modSolver]⟩
    · rw [abort, lsAbortQueue_idle hr hq]
      rfl
    · rw [load, unload, lsAtK_user _ user, lsAtK_user _ user]
      exact ⟨rfl, rfl⟩
    · intro a areas
      rw [lsAtK_priv _ priv] at load unload
      refine ⟨fun hi fine => ?_, fun why hi bad => ?_, fun hi => ?_, fun hr hq => ?_, fun busy => ?_⟩
      · have loaded : lsLoadOp i k s = modQueue i k (fun q => { q with img := some (readHdr (lsMem i) a s) }) (lsReadImage i a areas s) := by
          unfold lsLoadOp
          dsimp only
          rw [if_neg (by rw [hi]; decide), fine]
        refine gives_of_leaves (leaves_lsLoad c i s) load ⟨?_, rfl⟩
        show (lsLoadOp i k s).solvers = _
        rw [loaded]
        exact modQueue_solvers i k _ (lsReadImage_solvers i a areas s)
      · have refused : lsLoadOp i k s = lsReadImage i a areas s := by
          unfold lsLoadOp
          dsimp only
          rw [if_neg (by rw [hi]; decide), bad]
        rw [refused] at load
        exact ⟨_, load, (kept_answer _ _ _ (kept_lsReadImage (ps0 := [.memRegs, .memErrs, .bus]) i a areas s kept_refl (by decide)) (by decide)).only, rfl⟩
      · have again : lsLoadOp i k s = modQueue i k (err 7) s := if_pos (Option.isSome_iff_ne_none.2 hi)
        rw [load, again]
        rfl
      · have now : lsUnloadOp i k s = modQueue i k (fun q => { q with img := none }) s := if_neg (by rw [hr, hq]; decide)
        rw [unload, now]
        rfl
      · have later : lsUnloadOp i k s = modQueue i k (fun q => { q with unloadDue := true }) s :=
          if_pos (isSome_or_isSome busy)
        rw [unload, later]
        rfl
    · intro base
      exact ⟨fun busy wr => lsWindowAccess_busy reach wr off v hi inside busy, fun hr hq => lsWindowAccess_idle reach off v hi inside hr hq⟩
  · exact lsRun_ends busy
  · refine ⟨rfl, fun h3 h4 => ?_, fun claimed => ?_⟩
    · refine congrArg Host.Outcome.next ((if_neg ?_).trans rfl)
      show ¬(s.solvers[(3 : Fin 5)].claim.isSome || s.solvers[(4 : Fin 5)].claim.isSome) = true
      rw [h3, h4]
      decide
    · refine congrArg Host.Outcome.next (if_pos (isSome_or_isSome claimed))

end Sys2Proof.Proofs
end

section
/-! SUPPORT. Requests to the voter (R105, R109, R115 to R117, R529). -/

namespace Sys2Proof.Proofs
open Sys2Proof.Machine Sys2Proof.Safety Sys2Proof.Laws
set_option Elab.async false

/-! ## The lanes' own registers stay (R109, R118) -/

theorem reintEnd_lane (result : Byte) (s : State) : (reintEnd result s).voter.lane = s.voter.lane := by
  by_cases h : s.voter.reint.phase = 0
  · rw [reintEnd_idle result h]
  · have close (l : Fin 3) (off : Bool) (s : State) : (reintClose result l off s).voter.lane = s.voter.lane := by cases off <;> rfl
    have leave (l : Fin 3) (s : State) (g : Fin 2) : (leaveGroup l s g).voter.lane = s.voter.lane := by
      rcases leaveGroup_cases l s g with e | e <;> rw [e] <;> rfl
    rw [reintEnd_eq result h, close]
    exact (leave _ _ 1).trans (leave _ s 0)

theorem safeGroup_lane (s : State) (g : Fin 2) : (safeGroup s g).voter.lane = s.voter.lane := by
  have last (t : State) : (changeLeave (groupDom g) (abandonTasks (groupDom g) t)).voter = t.voter :=
    (kept_changeLeave (ps0 := [.doms, .hsb, .sync, .mbx, .arb, .log]) _ _ (kept_abandonTasks _ _ kept_refl (by decide)) (by decide)).only .voter (by decide)
  have first : (setMembers 2 g 0 (safetyOff g s)).voter.lane = s.voter.lane := setMembers_lane 2 g 0 (safetyOff g s)
  unfold safeGroup
  rw [last]
  exact first

theorem safeLanes_lane (s : State) : (safeLanes s).voter.lane = s.voter.lane := by
  have halt (t : State) : (haltLanes t).voter = t.voter :=
    (kept_permitsOff (ps0 := [.fg, .cores]) _ (kept_foldl (kept_refl (ps := [.fg, .cores])) fun _ _ h => kept_stopCore _ _ (kept_stopCore _ _ h (by decide)) (by decide)) (by decide)).only .voter (by decide)
  have oper : (setOper 2 .safe s).voter = s.voter := (kept_setOper (ps0 := [.arb]) 2 .safe s kept_refl (by decide)).only .voter (by decide)
  have start : (safeStart s).voter.lane = s.voter.lane := by
    unfold safeStart
    rw [reintEnd_lane, (kept_refusePending (ps0 := [.sync, .mbx, .arb]) _ _ _ kept_refl (by decide)).only .voter (by decide), oper]
  unfold safeLanes
  rw [halt, safeGroup_lane, safeGroup_lane, start]

theorem enterSafe_lane (cause : Nat) (grp : Option (Fin 2)) (s : State) : (enterSafe cause grp s).voter.lane = s.voter.lane := by
  cases h : inSafe s with
  | true => rw [enterSafe_idle cause grp h]
  | false =>
    rw [enterSafe_voter cause grp h]
    exact safeLanes_lane s

theorem excludeFrom_lane (l : Fin 3) (g : Fin 2) (s : State) : (excludeFrom l g s).voter.lane = s.voter.lane := by
  cases h : s.voter.grp[g].members.getLsbD l.val with
  | false => rw [excludeFrom_other h]
  | true =>
    have stop : (stopLane l g s).voter.lane = s.voter.lane := congrArg Voter.lane (stopLane_voter l g s)
    rw [excludeFrom_member h]
    split
    · rw [enterSafe_lane, stop]
    · exact (setMembers_lane 2 g _ (stopLane l g s)).trans stop

/-! ## An exclusion from every group -/

/-- The groups that a lane is a member of. -/
def memberOf (l : Fin 3) (s : State) : List (Fin 2) := allGroups.filter fun h => s.voter.grp[h].members.getLsbD l.val

theorem excludeLane_all (l : Fin 3) (cause : Nat) (s : State) :
    excludeLane l cause none s = (memberOf l s).foldl (fun s h => excludeFrom l h s) (excludeMarks l cause (memberOf l s) s) := rfl

theorem foldl_lane (l : Fin 3) (gs : List (Fin 2)) (s : State) : (gs.foldl (fun s h => excludeFrom l h s) s).voter.lane = s.voter.lane := by
  induction gs generalizing s with
  | nil => rfl
  | cons g gs ih => exact (ih _).trans (excludeFrom_lane l g s)

theorem lost_excludeAll (l : Fin 3) (cause : Nat) (s : State) : Lost s (excludeLane l cause none s) := by
  rw [excludeLane_all]
  exact (lost_excludeMarks l cause _ s).trans (lost_foldl (fun s h => lost_excludeFrom l h s) _ _)

theorem out_foldl (l : Fin 3) (gs : List (Fin 2)) {s : State} (h : Outside s) : Outside (gs.foldl (fun s h => excludeFrom l h s) s) ∧
    ∀ g ∈ gs, (gs.foldl (fun s h => excludeFrom l h s) s).voter.grp[g].members.getLsbD l.val = false := by
  induction gs generalizing s with
  | nil => exact ⟨h, fun g hg => absurd hg List.not_mem_nil⟩
  | cons k gs ih =>
    obtain ⟨first, gone⟩ := excludeFrom_gone l k h
    obtain ⟨out, rest⟩ := ih first
    refine ⟨out, List.forall_mem_cons.2 ⟨Bool.eq_false_iff.2 fun m => ?_, rest⟩⟩
    exact Bool.false_ne_true (gone.symm.trans ((lost_foldl (fun s h => lost_excludeFrom l h s) gs _).members k l m))

/-- An excluded lane is a member of no group. -/
theorem excludeAll_gone (l : Fin 3) (cause : Nat) {s : State} (h : Outside s) (g : Fin 2) : (excludeLane l cause none s).voter.grp[g].members.getLsbD l.val = false := by
  rw [excludeLane_all]
  have marks := excludeMarks_outside l cause (memberOf l s) h
  refine Bool.eq_false_iff.2 fun m => ?_
  have before := (lost_foldl (fun s h => lost_excludeFrom l h s) (memberOf l s) (excludeMarks l cause (memberOf l s) s)).members g l m
  rw [(excludeMarks_keeps l cause _ s).1] at before
  have listed : g ∈ memberOf l s := List.mem_filter.2 ⟨by unfold allGroups; rcases (by omega : g = 0 ∨ g = 1) with rfl | rfl <;> decide, before⟩
  exact Bool.false_ne_true (((out_foldl l (memberOf l s) marks).2 g listed).symm.trans m)

/-- The lane's registers after an exclusion that is recorded. -/
theorem excludeMarks_recorded (l : Fin 3) (cause : Nat) (ins : List (Fin 2)) (s : State) (h : ins ≠ [] ∨ cause = 8) :
    (excludeMarks l cause ins s).voter.lane[l].xcause = BitVec.ofNat 8 cause ∧ (excludeMarks l cause ins s).voter.lane[l].debug = s.voter.lane[l].debug ∧
      (cause = 8 ∨ cause = 9 → (excludeMarks l cause ins s).voter.lane[l].scopeCause = BitVec.ofNat 8 cause) := by
  unfold excludeMarks
  dsimp only
  split
  next e =>
    obtain ⟨empty, other⟩ := Bool.and_eq_true_iff.1 e
    rw [decide_eq_true_eq] at other
    exact absurd h fun h => h.elim (fun n => n (List.isEmpty_iff.1 empty)) other
  next =>
    refine ⟨by simp [modLane, modReint, addLog], by simp [modLane, modReint, addLog], ?_⟩
    rintro (rfl | rfl) <;> simp [modLane, modReint, addLog, laneScope]

theorem excludeAll_lane (l : Fin 3) (cause : Nat) (s : State) (h : memberOf l s ≠ [] ∨ cause = 8) :
    (excludeLane l cause none s).voter.lane[l].xcause = BitVec.ofNat 8 cause ∧ (excludeLane l cause none s).voter.lane[l].debug = s.voter.lane[l].debug ∧
      (cause = 8 ∨ cause = 9 → (excludeLane l cause none s).voter.lane[l].scopeCause = BitVec.ofNat 8 cause) := by
  rw [excludeLane_all, foldl_lane]
  exact excludeMarks_recorded l cause _ s h

/-! ## Requests (R105, R115 to R117, R529) -/

theorem maintEffect_taken (l : Fin 3) {s : State} (h : inSafe s = false) :
    (maintEffect l s).voter.lane[l].xcause = 9 ∧ (maintEffect l s).voter.lane[l].scopeCause = 9 ∧ ∀ g : Fin 2, (maintEffect l s).voter.grp[g].members.getLsbD l.val = false := by
  unfold maintEffect
  split
  next out =>
    refine ⟨by simp [modLane, modReint, addLog], by simp [modLane, modReint, addLog], fun g => ?_⟩
    have member := List.all_eq_true.1 out g (by unfold allGroups; rcases (by omega : g = 0 ∨ g = 1) with rfl | rfl <;> decide)
    exact Bool.not_eq_true' _ |>.mp member
  next inside =>
    have listed : memberOf l s ≠ [] := fun e => inside <| List.all_eq_true.2 fun g hg => by
      rw [Bool.not_eq_true']
      exact Bool.eq_false_iff.2 (List.filter_eq_nil_iff.1 e g hg)
    obtain ⟨xcause, -, scope⟩ := excludeAll_lane l 9 s (.inl listed)
    exact ⟨xcause, scope (.inr rfl), excludeAll_gone l 9 (outside_of_not h)⟩

theorem showGroups_keeps (s : State) : (showGroups s).voter.lane = s.voter.lane ∧ ∀ g : Fin 2, (showGroups s).voter.grp[g].laneDebug = s.voter.grp[g].laneDebug := by
  have debug (m : BitVec 3) (g w : Fin 2) (s : State) : (setMembers 2 g m s).voter.grp[w].laneDebug = s.voter.grp[w].laneDebug := by
    by_cases hw : w = g
    · subst hw
      rw [setMembers_group]
    · unfold setMembers
      dsimp only
      generalize groupMode s.voter.grp[g] = old
      generalize groupMode _ = new
      have same : (transition 2 g.val 1 old new s).voter = s.voter := (kept_transition (ps0 := [.arb]) 2 g.val 1 old new s kept_refl (by decide)).only .voter (by decide)
      rw [modGroup_other _ _ _ _ hw, same]
  have one (s : State) (g : Fin 2) (m : BitVec 3) : (if s.voter.grp[g].members = m then s else setMembers 2 g m s).voter.lane = s.voter.lane ∧
      ∀ w : Fin 2, (if s.voter.grp[g].members = m then s else setMembers 2 g m s).voter.grp[w].laneDebug = s.voter.grp[w].laneDebug := by
    split
    · exact ⟨rfl, fun _ => rfl⟩
    · exact ⟨setMembers_lane 2 g m s, fun w => debug m g w s⟩
  unfold showGroups allGroups
  split
  · obtain ⟨lane0, debug0⟩ := one s 0 (if s.doms[groupDom 0].image.isSome then startMembers s else 0)
    simp only [List.foldl_cons, List.foldl_nil]
    refine ⟨(one _ 1 _).1.trans lane0, fun g => ((one _ 1 _).2 g).trans (debug0 g)⟩
  · exact ⟨rfl, fun _ => rfl⟩

theorem laneDebug_foldl (gs : List (Fin 2)) (s : State) : (gs.foldl (fun s g => modGroup g (fun v => { v with laneDebug := true }) s) s).voter.lane = s.voter.lane ∧
    (∀ g ∈ gs, (gs.foldl (fun s g => modGroup g (fun v => { v with laneDebug := true }) s) s).voter.grp[g].laneDebug = true) ∧
    ∀ g : Fin 2, s.voter.grp[g].laneDebug = true → (gs.foldl (fun s g => modGroup g (fun v => { v with laneDebug := true }) s) s).voter.grp[g].laneDebug = true := by
  induction gs generalizing s with
  | nil => exact ⟨rfl, fun g hg => absurd hg List.not_mem_nil, fun _ h => h⟩
  | cons k gs ih =>
    obtain ⟨lane, listed, stays⟩ := ih (modGroup k (fun v => { v with laneDebug := true }) s)
    have same : (modGroup k (fun v => { v with laneDebug := true }) s).voter.grp[k].laneDebug = true := by rw [modGroup_same]
    refine ⟨lane, List.forall_mem_cons.2 ⟨stays k same, listed⟩, fun g h => stays g ?_⟩
    by_cases e : g = k
    · exact e ▸ same
    · rw [modGroup_other _ _ _ _ e, h]

theorem loadedGroups_congr {s t : State} (h : ∀ d : DomId, t.doms[d].image = s.doms[d].image) : loadedGroups t = loadedGroups s := by
  unfold loadedGroups
  simp only [h]

theorem attachEffect_attached (l : Fin 3) (s : State) : (attachEffect l s).voter.lane[l].debug = true ∧ (attachEffect l s).voter.lane[l].xcause = 8 ∧
    ∀ g ∈ loadedGroups s, (attachEffect l s).voter.grp[g].laneDebug = true := by
  let u := excludeLane l 0x08 none (modLane l (fun x => { x with debug := true }) s)
  obtain ⟨xcause, attached, -⟩ := excludeAll_lane l 8 (modLane l (fun x => { x with debug := true }) s) (.inr rfl)
  have loaded : loadedGroups u = loadedGroups s := loadedGroups_congr ((lost_modLane l _ s).trans (lost_excludeAll l 8 _)).images
  have marked := laneDebug_foldl (loadedGroups u) u
  let w := (loadedGroups u).foldl (fun s g => modGroup g (fun v => { v with laneDebug := true }) s) u
  have noted : (addLog .laneDebug l.val 0 (ringEvent 2 (l.val + 1) w)).voter = w.voter := ringEvent_voter _ _ w
  have shown := showGroups_keeps (addLog .laneDebug l.val 0 (ringEvent 2 (l.val + 1) w))
  have lane : (attachEffect l s).voter.lane = u.voter.lane := shown.1.trans ((congrArg Voter.lane noted).trans marked.1)
  refine ⟨?_, ?_, fun g hg => (shown.2 g).trans ?_⟩
  · rw [lane]
    exact attached.trans (by simp [modLane])
  · rw [lane]
    exact xcause
  · rw [noted]
    exact marked.2.1 g (loaded ▸ hg)

theorem detachEffect_eq {l : Fin 3} {s : State} (h : s.voter.lane[l].debug = true) : detachEffect l s =
    [0, 1].foldl (fun s (k : Fin 2) => modCore (laneCore l k) (fun c => { c with halted := false, stopped := true }) s) (modLane l (fun x => { x with debug := false }) s) := if_pos h

theorem laneCore_zero_ne_one : ∀ l : Fin 3, laneCore l 0 ≠ laneCore l 1 := by decide

/-- A debugger that leaves a lane. -/
theorem detachEffect_left (l : Fin 3) {s : State} (h : s.voter.lane[l].debug = true) : (detachEffect l s).voter.lane[l].debug = false ∧
    ∀ k : Fin 2, (detachEffect l s).cores[laneCore l k] = { s.cores[laneCore l k] with halted := false, stopped := true } := by
  rw [detachEffect_eq h]
  simp only [List.foldl_cons, List.foldl_nil]
  refine ⟨by simp [modLane, modCore], fun k => ?_⟩
  rcases (by omega : k = 0 ∨ k = 1) with rfl | rfl
  · rw [modCore_other _ _ _ _ (laneCore_zero_ne_one l), modCore_same]
    rfl
  · rw [modCore_same, modCore_other _ _ _ _ (laneCore_zero_ne_one l).symm]
    rfl

theorem voterRequest_refused {op : VotOp} {lane : Fin 4} {s : State} {e : Nat × String} (hb : s.voter.reqBusy = false) (h : voterCheck op lane s = some e) :
    (voterRequest op lane s).2 = voterStat e.1 s := by
  unfold voterRequest
  rw [if_neg (Bool.eq_false_iff.1 hb), h]

theorem voterRequest_admitted {op : VotOp} {lane : Fin 4} {s : State} (hb : s.voter.reqBusy = false) (h : voterCheck op lane s = none) :
    (voterRequest op lane s).2 = voterEffect op lane (voterStat 0 s) := by
  unfold voterRequest
  rw [if_neg (Bool.eq_false_iff.1 hb), h]

theorem voterStat_refusal {code : Nat} (s : State) (h : code ≠ 0) : voterStat code s = { s with voter := { s.voter with reqReason := BitVec.ofNat 8 code, reqRefused := true } } := by
  unfold voterStat
  rw [decide_eq_true h]

theorem kept_voterStat (code : Nat) (s : State) : Kept [.voter] s (voterStat code s) := kept_upd_voter kept_refl (by decide)

theorem refusals_named {l : Fin 3} {s : State} {e : Nat × String} (h : reintRefusal l s = some e ∨ maintRefusal l s = some e ∨ attachRefusal l s = some e) : e.1 ≠ 0 := by
  unfold reintRefusal maintRefusal attachRefusal at h
  rcases h with h | h | h
  all_goals
    repeat' split at h
    all_goals first
      | (obtain rfl := Option.some.inj h; decide)
      | exact absurd h (by simp)

/-- Settles O29: a request is refused with its reason, or its effect follows from an admitted state with the same registers. -/
theorem voterRequestsAreRefusedOrTakeEffect : Obligations.VoterRequestsAreRefusedOrTakeEffect := by
  unfold Obligations.VoterRequestsAreRefusedOrTakeEffect
  intro src lane s hb l refused
  have refuse {op : VotOp} {e : Nat × String} (h : voterCheck op lane s = some e) (he : e.1 ≠ 0) : (voterRequest op lane s).2 = refused e.1 :=
    (voterRequest_refused hb h).trans (voterStat_refusal s he)
  refine ⟨fun hl i hi => ?_, fun hl => ⟨fun e h => ?_, fun e h => ?_, fun e h => ?_, fun h => ?_, fun h => ?_, fun h => ?_, fun h => ?_⟩, fun h => ?_⟩
  · have bad (op : VotOp) (h : op ≠ .abort) : (voterRequest op lane s).2 = refused 1 := by
      refine refuse (e := (1, "BADOP")) ?_ (by decide)
      cases op with
      | abort => exact absurd rfl h
      | reint => exact if_pos hl
      | maintOut => exact if_pos hl
      | attach => exact if_pos hl
      | detach => exact if_pos hl
    simp only [List.mem_cons, List.not_mem_nil, or_false] at hi
    rcases hi with rfl | rfl | rfl | rfl
    · exact congrArg Host.Outcome.next (bad .reint (by decide))
    · exact congrArg Host.Outcome.next (bad .maintOut (by decide))
    · exact congrArg Host.Outcome.next (bad .attach (by decide))
    · exact congrArg Host.Outcome.next (bad .detach (by decide))
  · exact congrArg Host.Outcome.next (refuse (op := .reint) ((if_neg hl).trans h) (refusals_named (.inl h)))
  · exact congrArg Host.Outcome.next (refuse (op := .maintOut) ((if_neg hl).trans h) (refusals_named (.inr (.inl h))))
  · exact congrArg Host.Outcome.next (refuse (op := .attach) ((if_neg hl).trans h) (refusals_named (.inr (.inr h))))
  · have hrun : exec (.reint src lane) s = .next (reintAdmit l false (voterStat 0 s)) :=
      congrArg Host.Outcome.next (voterRequest_admitted (op := .reint) hb ((if_neg hl).trans h))
    refine ⟨_, hrun, (kept_modReint _ _ (kept_voterStat 0 s) (by decide)).only, rfl, ?_, rfl, rfl, rfl, rfl, rfl⟩
    exact (by decide : ∀ lane : Fin 4, lane ≠ 0 → Fin.ofNat 4 ((Fin.ofNat 3 (lane.val - 1) : Fin 3).val + 1) = lane) lane hl
  · have hrun : exec (.maintOut src lane) s = .next (maintEffect l (voterStat 0 s)) :=
      congrArg Host.Outcome.next (voterRequest_admitted (op := .maintOut) hb ((if_neg hl).trans h))
    have running : inSafe s = false := by
      unfold maintRefusal at h
      split at h
      · exact absurd h (by simp)
      next e => exact Bool.eq_false_iff.2 e
    obtain ⟨xcause, scope, out⟩ := maintEffect_taken l (s := voterStat 0 s) running
    exact gives_of_leaves (leaves_maintOut src lane s) hrun ⟨xcause, scope, fun g _ => out g⟩
  · have hrun : exec (.debugAttach src lane) s = .next (attachEffect l (voterStat 0 s)) :=
      congrArg Host.Outcome.next (voterRequest_admitted (op := .attach) hb ((if_neg hl).trans h))
    exact gives_of_leaves (leaves_debugAttach src lane s) hrun (attachEffect_attached l (voterStat 0 s))
  · have hrun : exec (.debugDetach src lane) s = .next (detachEffect l (voterStat 0 s)) :=
      congrArg Host.Outcome.next (voterRequest_admitted (op := .detach) hb (if_neg hl))
    have kept : Kept [.cores, .voter] s (detachEffect l (voterStat 0 s)) := kept_detachEffect l _ (kept_mono (kept_voterStat 0 s) (by decide)) (by decide)
    exact ⟨_, hrun, kept.only, detachEffect_left l (s := voterStat 0 s) h⟩
  · have hrun : exec (.abortReint src lane) s = .next (reintEnd 0x07 (voterStat 0 s)) :=
      congrArg Host.Outcome.next (voterRequest_admitted (op := .abort) hb rfl)
    exact gives_of_leaves (leaves_abortReint src lane s) hrun (reintEnd_ended 0x07 (s := voterStat 0 s) h)

end Sys2Proof.Proofs
end

section
/-! SUPPORT. Pair debug (R113, R114). -/

namespace Sys2Proof.Proofs
open Sys2Proof.Machine Sys2Proof.Safety Sys2Proof.Laws
set_option Elab.async false

/-! ## Pair debug (R113, R114) -/

theorem modPair_same (n : Fin 4) (f : PairReg → PairReg) (s : State) : (modPair n f s).pairs[n] = f s.pairs[n] := by simp [modPair]

theorem modPair_other (n m : Fin 4) (f : PairReg → PairReg) (s : State) (h : m ≠ n) : (modPair n f s).pairs[m] = s.pairs[m] := by
  have : n.val ≠ m.val := fun e => h (Fin.ext e.symm)
  simp [modPair, this]

/-- An action that leaves the Echo log as it finds it. -/
def KeepsLog (n : Fin 4) (f : State → State) : Prop := ∀ u, (f u).pairs[n].log = u.pairs[n].log ∧ ∀ m : Fin 4, m ≠ n → (f u).pairs[m] = u.pairs[m]

theorem keepsLog_of_pairs {n : Fin 4} {f : State → State} (h : ∀ u, (f u).pairs = u.pairs) : KeepsLog n f := fun u => by simp [h u]

theorem keepsLog_modPair {n : Fin 4} {f : PairReg → PairReg} (h : ∀ p, (f p).log = p.log) : KeepsLog n (modPair n f) := fun u =>
  ⟨by rw [modPair_same, h], fun m hm => modPair_other n m f u hm⟩

/-- `t` has one more entry of the Echo log than `s`, of a kind and at the main core's retired count. -/
def Logged (n : Fin 4) (kind : Byte) (s t : State) : Prop := ∃ e : EchoEntry, t.pairs[n].log = s.pairs[n].log ++ [e] ∧ e.kind = kind ∧
  e.count = s.cores[pairCore n].arch.retired.setWidth 32 ∧ ∀ m : Fin 4, m ≠ n → t.pairs[m] = s.pairs[m]

/-- An action with a debugger attached and room in the log. -/
theorem echoAct_room {n : Fin 4} {s : State} (kind : Byte) (target : Nat) (v : BitVec 64) (f : State → State) (echo : s.pairs[n].echo = true) (room : s.pairs[n].log.length < 256) :
    echoAct n kind target v f s = f (modPair n (fun p => { p with log := p.log ++
      [{ kind := kind, target := BitVec.ofNat 8 target, count := s.cores[pairCore n].arch.retired.setWidth 32, value := v }] }) s) := by
  unfold echoAct
  dsimp only
  rw [echo, if_neg (by decide), if_neg (by omega)]

theorem logged_echoAct {n : Fin 4} {s : State} (kind : Byte) (target : Nat) (v : BitVec 64) {f : State → State} (hf : KeepsLog n f)
    (echo : s.pairs[n].echo = true) (room : s.pairs[n].log.length < 256) : Logged n kind s (echoAct n kind target v f s) := by
  rw [echoAct_room kind target v f echo room]
  obtain ⟨log, others⟩ := hf (modPair n (fun p => { p with log := p.log ++
      [{ kind := kind, target := BitVec.ofNat 8 target, count := s.cores[pairCore n].arch.retired.setWidth 32, value := v }] }) s)
  refine ⟨{ kind := kind, target := BitVec.ofNat 8 target, count := s.cores[pairCore n].arch.retired.setWidth 32, value := v }, ?_, rfl, rfl, fun m hm => ?_⟩
  · rw [log, modPair_same]
  · rw [others m hm, modPair_other _ _ _ _ hm]

theorem logged_echoWrite {n : Fin 4} {s : State} (kind : Byte) (target : Nat) (v : BitVec 64) (echo : s.pairs[n].echo = true) (room : s.pairs[n].log.length < 256) :
    Logged n kind s (echoWrite n kind target v s) := logged_echoAct kind target v (keepsLog_of_pairs fun _ => rfl) echo room

theorem logged_echoHaltAt {n : Fin 4} {s : State} (room : s.pairs[n].log.length < 256) : Logged n 1 s (echoHaltAt n s) := by
  unfold echoHaltAt
  dsimp only
  rw [if_neg (by omega)]
  have same (f : Core → Core) (u : State) : (modCore (pairCore n) f u).pairs = u.pairs := rfl
  refine ⟨{ kind := 1, target := 0, count := s.cores[pairCore n].arch.retired.setWidth 32, value := 0 }, ?_, rfl, rfl, fun m hm => ?_⟩
  · rw [same, modPair_same]
  · rw [same, modPair_other _ _ _ _ hm]

theorem debugStore_pairs (n : Fin 4) (addr : Word) (v : BitVec 64) (s : State) : (debugStore n addr v s).pairs = s.pairs :=
  (kept_debugStore (ps0 := [.cores, .doms, .mem, .memRegs, .memErrs, .banks, .voter, .solvers, .bus, .freeCtr]) n addr v s kept_refl (by decide)).only .pairs (by decide)

/-- Settles O32: every action appends its entry and leaves the log otherwise alone. -/
theorem echoActionsCompleteWithOneEntry : Obligations.EchoActionsCompleteWithOneEntry := by
  unfold Obligations.EchoActionsCompleteWithOneEntry
  intro n s echo room logs
  have row {i : Instr} {kind : Byte} {t : State} (he : exec i s = .next t) (h : Logged n kind s t) : logs i kind := by
    obtain ⟨e, log, hk, count, others⟩ := h
    exact ⟨t, e, he, log, hk, count, others⟩
  refine ⟨fun running => ?_, fun halted => ⟨?_, ?_⟩, fun r v => row rfl (logged_echoWrite _ _ _ echo room), fun p b => row rfl (logged_echoWrite _ _ _ echo room),
    fun a w => row rfl (logged_echoWrite _ _ _ echo room), fun sr v => row rfl (logged_echoWrite _ _ _ echo room),
    fun addr w => row rfl (logged_echoAct _ _ _ (keepsLog_of_pairs (debugStore_pairs n addr w)) echo room),
    fun addr => ⟨row rfl (logged_echoAct _ _ _ (keepsLog_modPair fun _ => rfl) echo room), row rfl (logged_echoAct _ _ _ (keepsLog_modPair fun _ => rfl) echo room)⟩⟩
  · have he : exec (.echoHalt n) s = .next (echoHaltAt n s) := congrArg Host.Outcome.next (if_pos (by rw [echo, running]; rfl))
    exact row he (logged_echoHaltAt room)
  · have he : exec (.echoResume n) s = .next (echoAct n 2 0 0 (fun s => modCore (pairCore n) (fun k => { k with halted := false, step := false }) (modPair n (fun p => { p with halt := false }) s)) s) :=
      congrArg Host.Outcome.next (if_neg (by rw [halted]; decide))
    have keeps : KeepsLog n fun s => modCore (pairCore n) (fun k => { k with halted := false, step := false }) (modPair n (fun p => { p with halt := false }) s) :=
      keepsLog_modPair (f := fun p => { p with halt := false }) fun _ => rfl
    exact row he (logged_echoAct 2 0 0 keeps echo room)
  · have he : exec (.echoStep n) s = .next (echoAct n 3 0 0 (modCore (pairCore n) (fun k => { k with step := true })) s) :=
      congrArg Host.Outcome.next (if_neg (by rw [halted]; decide))
    exact row he (logged_echoAct 3 0 0 (keepsLog_of_pairs fun _ => rfl) echo room)

/-- Pair 0 with a debugger attached, every domain on, and the first bank of standard SRAM in retention. -/
def sleeping : State :=
  { State.reset with pairs := State.reset.pairs.set 0 { State.reset.pairs[0] with echo := true }, boot := { State.reset.boot with on := BitVec.allOnes _ }
                     banks := State.reset.banks.set 0 .retention }

/-- The byte at the start of standard SRAM that a command leaves. -/
def firstByteOf (m : Meaning) : Byte := match m with
  | .next t => readByte 0 0 t
  | _ => 0

/-- Refutes O31: a debugger's write to a bank in retention is held until the bank wakes, so that memory does not have its bytes yet. -/
theorem not_echoActionsAreRecordedAndPerformed : ¬ Obligations.EchoActionsAreRecordedAndPerformed := by
  unfold Obligations.EchoActionsAreRecordedAndPerformed
  intro h
  obtain ⟨-, -, room⟩ := h 0 sleeping (by decide +kernel)
  obtain ⟨-, -, -, -, -, -, memw, -⟩ := room (by decide +kernel)
  have canonical : memWf sleeping.mem := by decide +kernel
  obtain ⟨t, he, -, -, bytes⟩ := memw 0 1 0 0 (by decide +kernel) (by decide) (by decide +kernel) (by decide +kernel) canonical
  have written : readByte 0 0 t = 1 := (bytes 0 0 (by decide)).trans (by decide)
  have held : firstByteOf (exec (.echoMemw 0 0 1) sleeping) = 0 := by decide +kernel
  rw [he] at held
  exact absurd (written.symm.trans held) (by decide)

end Sys2Proof.Proofs
end

section
/-! SUPPORT. The test access port and the fuse bank (R487 to R490, R502, R503). -/

namespace Sys2Proof.Proofs
open Sys2Proof.Machine Sys2Proof.Safety Sys2Proof.Laws
set_option Elab.async false

/-! ## The test access port (R502, R503) -/

theorem x13_taken {code : Byte} {ok : Bool} (f : State → State) {s : State} (h : ok = true) : x13 code ok f s = f { s with dbg := { s.dbg with ir := code } } := if_pos h

theorem x13_bypassed {code : Byte} {ok : Bool} (f : State → State) {s : State} (h : ok = false) : x13 code ok f s = { s with dbg := { ir := 0xFF, refused := true } } :=
  if_neg (Bool.eq_false_iff.1 h)

theorem orderlyBegin_begun (cause : Nat) {s : State} (h : s.boot.orderly = none) :
    (orderlyBegin cause s).boot.orderly = some { cause := BitVec.ofNat 8 cause, at_ := s.cyc.tb } ∧ (orderlyBegin cause s).dbg = s.dbg ∧
      ∀ g : GroupId, (orderlyBegin cause s).fg[g].permitOn = false := by
  have hrun : orderlyBegin cause s = outputsDown { (if s.hsb.role == .primary then sendRelinquish (s.cyc.count + 1) s else s) with
      boot := { (if s.hsb.role == .primary then sendRelinquish (s.cyc.count + 1) s else s).boot with orderly := some { cause := BitVec.ofNat 8 cause, at_ := (if s.hsb.role == .primary then sendRelinquish (s.cyc.count + 1) s else s).cyc.tb } } } :=
    if_neg (by rw [h]; decide)
  have told : Kept [.sync] s (if s.hsb.role == .primary then sendRelinquish (s.cyc.count + 1) s else s) := by
    split
    · exact kept_sendRelinquish _ _ kept_refl (by decide)
    · exact kept_refl
  rw [hrun]
  generalize (if s.hsb.role == .primary then sendRelinquish (s.cyc.count + 1) s else s) = u at told
  have cyc : u.cyc = s.cyc := told.only .cyc (by decide)
  refine ⟨?_, told.only .dbg (by decide), fun g => by simp [outputsDown, permitsOff]⟩
  show some _ = some _
  rw [cyc]

/-- A pair debugger that leaves (R503). -/
theorem pairDetach_left (n : Fin 4) {s : State} (h : s.pairs[n].echo = true) :
    (pairDetach n s).pairs[n] = { s.pairs[n] with echo := false, halt := false, log := [], brk := [] } ∧ (pairDetach n s).cores[pairCore n].halted = false := by
  have hrun : pairDetach n s = modPair n (fun p => { p with echo := false, halt := false, log := [], brk := [] })
      (modCore (pairCore n) (fun k => { k with chk := k.chk.map fun b => s.pairs[n].log.foldl (fun b e => echoApply e b) b, halted := false, step := false }) s) :=
    if_neg (by rw [h]; decide)
  have cores (f : PairReg → PairReg) (u : State) : (modPair n f u).cores = u.cores := rfl
  have pairs (f : Core → Core) (u : State) : (modCore (pairCore n) f u).pairs = u.pairs := rfl
  rw [hrun]
  refine ⟨?_, ?_⟩
  · rw [modPair_same, pairs]
  · rw [cores, modCore_same]

/-! ## The fuse bank (R487 to R490) -/

/-- The fuses with the bits of a word blown. -/
def blownFuses (w : FuseWord) (v : Word) (f : Fuses) : Fuses := match w.field.toNat with
  | 1 => { f with revoke := f.revoke ||| v.setWidth 8 }
  | 2 => { f with dbgClose := f.dbgClose ||| v.setWidth 3 }
  | 3 => { f with fkeyDone := f.fkeyDone || v.getLsbD 0 }
  | 4 => { f with ckek := f.ckek.mapIdx fun i x => if i = w.index then x ||| v else x }
  | n => { f with khash := f.khash.mapIdx fun i y => if i + 0x10 = n && i ≠ 0 then y.mapIdx fun j x => if j = w.index then x ||| v else x else y }

theorem blowBits_fuses (w : FuseWord) (v : Word) (s : State) : (blowBits w v s).fuses = blownFuses w v s.fuses := by
  have closed (u : State) : (debugClose u).fuses = u.fuses := (kept_debugClose (ps0 := [.cores, .pairs, .voter, .arb, .dbg]) u kept_refl (by decide)).only .fuses (by decide)
  have hrun : blowBits w v s = if !dbgClosed s && dbgClosed (modFuses (blownFuses w v) s) then debugClose (modFuses (blownFuses w v) s) else modFuses (blownFuses w v) s := rfl
  rw [hrun]
  split
  · rw [closed]
    rfl
  · rfl

/-- Bits are blown in the word's own field. -/
structure Blown (w : FuseWord) (v : Word) (f t : Fuses) : Prop where
  fail : t.fail = f.fail
  blow : t.blow = f.blow
  revoke : t.revoke = if w.field = 1 then f.revoke ||| v.setWidth 8 else f.revoke
  dbgClose : t.dbgClose = if w.field = 2 then f.dbgClose ||| v.setWidth 3 else f.dbgClose
  ckek : ∀ i : Fin 9, t.ckek[i] = if w.field = 4 ∧ i.val = w.index then f.ckek[i] ||| v else f.ckek[i]

theorem field_eq_iff (w : FuseWord) (n : Nat) (hn : n < 256) : w.field = BitVec.ofNat 8 n ↔ w.field.toNat = n := by
  rw [← BitVec.toNat_inj, BitVec.toNat_ofNat, Nat.mod_eq_of_lt (by omega)]

theorem blown_blownFuses (w : FuseWord) (v : Word) (f : Fuses) : Blown w v f (blownFuses w v f) := by
  have h1 : w.field = 1 ↔ w.field.toNat = 1 := field_eq_iff w 1 (by decide)
  have h2 : w.field = 2 ↔ w.field.toNat = 2 := field_eq_iff w 2 (by decide)
  have h4 : w.field = 4 ↔ w.field.toNat = 4 := field_eq_iff w 4 (by decide)
  unfold blownFuses
  constructor
  · split <;> rfl
  · split <;> rfl
  · split <;> simp_all
  · split <;> simp_all
  · intro i
    split <;> simp_all
    exact fun e => absurd e ‹w.field.toNat = 4 → False›

theorem blowBegin_free {blank : Bool} (ws : List FuseWord) {s : State} (hb : s.fuses.blow = []) (hc : s.ps.cutoff = false) (hblank : blank = true) :
    blowBegin blank ws s = modFuses (fun f => { f with blow := ws, fail := false }) s := by
  unfold blowBegin
  rw [hb, hc, hblank]
  rfl

/-- A blow that FUSE_CMD orders stands in the register. -/
theorem blowBegin_ordered (cmd : Word) (ws : List FuseWord) {u : State} (hb : u.fuses.blow = []) (hc : u.ps.cutoff = false) :
    blowBegin true ws (modFuses (fun f => { f with cmd := cmd }) u) = { u with fuses := { u.fuses with cmd := cmd, blow := ws, fail := false } } :=
  blowBegin_free (s := modFuses (fun f => { f with cmd := cmd }) u) ws hb hc rfl

theorem blowBegin_refused {blank : Bool} (ws : List FuseWord) {s : State} (h : s.fuses.blow ≠ [] ∨ blank = false) : blowBegin blank ws s = fuseFail s := by
  refine if_pos ?_
  rw [Bool.or_eq_true, Bool.not_eq_true', Bool.not_eq_true']
  exact h.imp_left fun n => by simpa using n

theorem finish_fuses (rs : List CmdRef) (st : Status) (s : State) : (rs.foldl (fun s r => finish r st 0 [] s) s).fuses = s.fuses :=
  (kept_foldl (ps := [.sync, .mbx]) kept_refl fun _ _ h => kept_finish _ _ _ _ _ h (by decide)).only .fuses (by decide)

theorem and_and_self (w v : Word) : (w &&& v) &&& w = w &&& v := by
  ext i
  simp only [BitVec.getElem_and]
  cases w[i] <;> simp

/-- The words that stand after one that failed verification. -/
theorem sameBlow_eq (w x : FuseWord) : sameBlow w x = (w.field == x.field || (w.field.toNat ≤ 2 && x.field.toNat ≤ 2)) := rfl

/-- A fuse word that is done: its bits, or free ones of them, are blown. -/
theorem fuseWordDone_gives {w : FuseWord} {rest : List FuseWord} (ok : Bool) {s : State} (hw : s.fuses.blow = w :: rest) (hc : s.ps.cutoff = false) :
    Gives (.fuseWordDone ok) s [.cores, .pairs, .voter, .sync, .mbx, .arb, .fuses, .dbg, .freeCtr] fun t =>
      ∃ v : Word, (ok = true → v = w.val) ∧ v &&& w.val = v ∧ (ok = false → t.fuses.fail = true) ∧
        t.fuses.blow = (if ok then rest else rest.filter fun x => !(w.field == x.field || (w.field.toNat ≤ 2 && x.field.toNat ≤ 2))) ∧
        t.fuses.revoke = (if w.field = 1 then s.fuses.revoke ||| v.setWidth 8 else s.fuses.revoke) ∧
        t.fuses.dbgClose = (if w.field = 2 then s.fuses.dbgClose ||| v.setWidth 3 else s.fuses.dbgClose) ∧
        ∀ i : Fin 9, t.fuses.ckek[i] = if w.field = 4 ∧ i.val = w.index then s.fuses.ckek[i] ||| v else s.fuses.ckek[i] := by
  cases ok with
  | true =>
    let u := blowBits w w.val (modFuses (fun f => { f with blow := rest }) s)
    have blown := blown_blownFuses w w.val { s.fuses with blow := rest }
    have hu : u.fuses = blownFuses w w.val { s.fuses with blow := rest } := blowBits_fuses w w.val _
    obtain ⟨t, hrun, ht⟩ : ∃ t, exec (.fuseWordDone true) s = .next t ∧ t.fuses = u.fuses := by
      refine ⟨_, rfl, ?_⟩
      rw [hw]
      dsimp only
      rw [if_pos rfl, hc]
      simp only [Bool.false_eq_true, if_false]
      split
      · exact finish_fuses _ _ _
      · rfl
    refine gives_of_leaves (leaves_fuseWordDone true s) hrun ⟨w.val, fun _ => rfl, BitVec.and_self, fun h => absurd h (by decide), ?_⟩
    rw [ht, hu]
    exact ⟨blown.blow, blown.revoke, blown.dbgClose, blown.ckek⟩
  | false =>
    let v : Word := w.val &&& BitVec.ofNat 32 (Config.freeNat (nextFree s).1)
    let left := rest.filter fun x => !(w.field == x.field || (w.field.toNat ≤ 2 && x.field.toNat ≤ 2))
    let u := blowBits w v (fuseFail (modFuses (fun f => { f with blow := left }) (nextFree s).2))
    have blown := blown_blownFuses w v { s.fuses with blow := left, fail := true }
    have hu : u.fuses = blownFuses w v { s.fuses with blow := left, fail := true } := blowBits_fuses w v _
    obtain ⟨t, hrun, ht⟩ : ∃ t, exec (.fuseWordDone false) s = .next t ∧ t.fuses = u.fuses := by
      refine ⟨_, rfl, ?_⟩
      rw [hw]
      dsimp only
      rw [if_neg (by decide), hc]
      simp only [Bool.false_eq_true, if_false]
      split
      · exact finish_fuses _ _ _
      · rfl
    refine gives_of_leaves (leaves_fuseWordDone false s) hrun ⟨v, fun h => absurd h (by decide), and_and_self _ _, fun _ => ?_, ?_⟩
    · rw [ht, hu]
      exact blown.fail
    · rw [ht, hu]
      exact ⟨blown.blow, blown.revoke, blown.dbgClose, blown.ckek⟩

/-- LANE_DBG asks the voter as DEBUG_ATTACH and DEBUG_DETACH do. -/
theorem laneDbg_gives {l : Fin 3} {lane : Fin 4} {s : State} (hl : lane.val = l.val + 1) (hb : s.voter.reqBusy = false) (hopen : dbgClosed s = false) :
    (attachRefusal l s = none → Gives (.laneDbg true lane) s [.cores, .doms, .voter, .hsb, .sync, .fg, .mbx, .ps, .boot, .arb, .dbg, .log]
      fun t => t.voter.lane[l].debug = true ∧ t.dbg.ir = 0x11) ∧
    (s.voter.lane[l].debug = true → Gives (.laneDbg false lane) s [.cores, .voter, .dbg] fun t => t.voter.lane[l].debug = false ∧ t.dbg.ir = 0x11) := by
  let u : State := { s with dbg := { s.dbg with ir := 0x11 } }
  have ok : (!dbgClosed s) = true := by rw [hopen]; rfl
  have lane0 : lane ≠ 0 := fun e => by rw [e] at hl; exact absurd hl (by simp)
  have same : (Fin.ofNat 3 (lane.val - 1) : Fin 3) = l := by
    rw [hl]
    exact Fin.ext (Nat.mod_eq_of_lt (by omega))
  refine ⟨fun h => ?_, fun h => ?_⟩
  · have check : voterCheck .attach lane u = none := (if_neg lane0).trans (by rw [same]; exact h)
    have hrun : exec (.laneDbg true lane) s = .next (attachEffect l (voterStat 0 u)) := by
      refine congrArg Host.Outcome.next ((x13_taken _ ok).trans ((voterRequest_admitted (s := u) hb check).trans ?_))
      show attachEffect (Fin.ofNat 3 (lane.val - 1)) _ = _
      rw [same]
    refine gives_of_leaves (leaves_laneDbg true lane s) hrun ⟨(attachEffect_attached l _).1, ?_⟩
    rw [(kept_attachEffect (ps0 := [.cores, .doms, .voter, .hsb, .sync, .fg, .mbx, .ps, .boot, .arb, .log]) l (voterStat 0 u) kept_refl (by decide)).only .dbg (by decide)]
    rfl
  · have hrun : exec (.laneDbg false lane) s = .next (detachEffect l (voterStat 0 u)) := by
      refine congrArg Host.Outcome.next ((x13_taken _ ok).trans ((voterRequest_admitted (op := .detach) (s := u) hb (if_neg lane0)).trans ?_))
      show detachEffect (Fin.ofNat 3 (lane.val - 1)) _ = _
      rw [same]
    have start : Kept [.cores, .voter, .dbg] s (voterStat 0 u) := kept_trans (kept_upd_dbg kept_refl (by decide)) (kept_mono (kept_voterStat 0 u) (by decide))
    refine ⟨_, hrun, (kept_detachEffect l _ start (by decide)).only, (detachEffect_left l (s := voterStat 0 u) h).1, ?_⟩
    rw [(kept_detachEffect (ps0 := [.cores, .voter]) l (voterStat 0 u) kept_refl (by decide)).only .dbg (by decide)]
    rfl

theorem pairDbg_gives {n : Fin 4} {s : State} (hopen : dbgClosed s = false) :
    exec (.pairDbg n true) s = .next (modPair n (fun p => { p with echo := true }) { s with dbg := { s.dbg with ir := 0x10 } }) ∧
      Gives (.pairDbg n false) s [.cores, .pairs, .dbg] (fun t => t.dbg = { s.dbg with ir := 0x10 } ∧
        (s.pairs[n].echo = true → t.pairs[n] = { s.pairs[n] with echo := false, halt := false, log := [], brk := [] } ∧ t.cores[pairCore n].halted = false)) := by
  have ok : (!dbgClosed s) = true := by rw [hopen]; rfl
  have hrun (b : Bool) : exec (.pairDbg n b) s = .next (if b then modPair n (fun p => { p with echo := true }) { s with dbg := { s.dbg with ir := 0x10 } }
      else pairDetach n { s with dbg := { s.dbg with ir := 0x10 } }) := congrArg Host.Outcome.next (x13_taken _ ok)
  refine ⟨hrun true, gives_of_leaves (leaves_pairDbg n false s) (hrun false) ⟨?_, fun h => pairDetach_left n (s := { s with dbg := { s.dbg with ir := 0x10 } }) h⟩⟩
  exact (kept_pairDetach (ps0 := [.cores, .pairs]) n { s with dbg := { s.dbg with ir := 0x10 } } kept_refl (by decide)).only .dbg (by decide)

/-- Settles O33: an instruction takes effect where its condition holds, and a fuse word blows bits of its own field. -/
theorem debugPortAndFusesFollowTheirConditions : Obligations.DebugPortAndFusesFollowTheirConditions := by
  unfold Obligations.DebugPortAndFusesFollowTheirConditions
  intro s ir bypassed begun failed
  refine ⟨rfl, rfl, fun n b lane f ws => ⟨fun closed i hi => ?_, fun h => ?_, fun h => ?_, fun h => ?_, fun h ho => ?_, fun hopen => ?_⟩, fun still ws => ⟨?_, fun hb hc => ⟨fun n hn blank => ?_, fun blank => ?_, ?_⟩, fun h => ?_⟩,
    fun a key steward => ⟨fun hk i hi => ?_, fun hk hb hc => ?_⟩, fun w rest ok hw hc => fuseWordDone_gives ok hw hc⟩
  · have shut : (!dbgClosed s) = false := by rw [closed]; rfl
    simp only [List.mem_cons, List.not_mem_nil, or_false] at hi
    rcases hi with rfl | rfl | rfl
    · exact congrArg Host.Outcome.next (x13_bypassed _ shut)
    · exact congrArg Host.Outcome.next (x13_bypassed _ shut)
    · exact congrArg Host.Outcome.next (x13_bypassed _ shut)
  · exact congrArg Host.Outcome.next (x13_bypassed _ h)
  · exact ⟨congrArg Host.Outcome.next (x13_bypassed _ h), congrArg Host.Outcome.next (x13_bypassed _ h)⟩
  · exact congrArg Host.Outcome.next (x13_taken _ h)
  · have hrun : exec .resetReq s = .next (orderlyBegin 0x0A (ir 0x12 s)) := congrArg Host.Outcome.next (x13_taken _ h)
    obtain ⟨order, dbg, permits⟩ := orderlyBegin_begun 0x0A (s := ir 0x12 s) ho
    exact gives_of_leaves (leaves_resetReq s) hrun ⟨order, congrArg Dbg.ir dbg, permits⟩
  · have ok : (!dbgClosed s) = true := by rw [hopen]; rfl
    exact ⟨congrArg Host.Outcome.next (x13_taken _ ok), (pairDbg_gives hopen).1, (pairDbg_gives hopen).2, fun l hl hb => laneDbg_gives hl hb hopen⟩
  · exact congrArg Host.Outcome.next (x13_taken _ still)
  · exact congrArg Host.Outcome.next ((x13_taken _ still).trans ((if_neg hn).trans (blowBegin_free _ hb hc blank)))
  · exact congrArg Host.Outcome.next ((x13_taken _ still).trans (blowBegin_free _ hb hc blank))
  · exact congrArg Host.Outcome.next ((x13_taken _ still).trans (blowBegin_free _ hb hc rfl))
  · exact congrArg Host.Outcome.next ((x13_taken _ still).trans (blowBegin_refused _ h))
  · have wrong (field : Byte) : fuseCmd a key field s = { answer .ok 0 s with fuses := { s.fuses with keyerr := true } } :=
      (if_neg (by rw [steward]; decide)).trans (if_pos (bne_iff_ne.2 hk))
    simp only [List.mem_cons, List.not_mem_nil, or_false] at hi
    rcases hi with rfl | rfl
    · exact congrArg Host.Outcome.next (wrong 1)
    · exact congrArg Host.Outcome.next (wrong 2)
  · subst hk
    have right (field : Byte) (cmd : Word) (ws : List FuseWord) (hcmd : pack [(field.toNat, 8), (0xF05A, 16)] = cmd)
        (hw : fuseCmd a 0xF05A field s = blowBegin true ws (modFuses (fun f => { f with cmd := pack [(field.toNat, 8), (0xF05A, 16)] }) (answer .ok 0 s))) :
        fuseCmd a 0xF05A field s = { answer .ok 0 s with fuses := { s.fuses with cmd := cmd, blow := ws, fail := false } } := by
      rw [hw, hcmd]
      exact blowBegin_ordered cmd ws (u := answer .ok 0 s) hb hc
    have mine : ¬(a.master != .steward) = true := by rw [steward]; decide
    exact ⟨congrArg Host.Outcome.next (right 1 _ _ (by decide) ((if_neg mine).trans rfl)), congrArg Host.Outcome.next (right 2 _ _ (by decide) ((if_neg mine).trans rfl))⟩

end Sys2Proof.Proofs
end

section
/-! SUPPORT. Lane debug (R116). -/

namespace Sys2Proof.Proofs
open Sys2Proof.Machine Sys2Proof.Safety Sys2Proof.Laws
set_option Elab.async false

/-! ## A store of several bytes -/

theorem store_mem (by_ : Option CoreId) (code off : Nat) (bs : List Byte) (s : State) : (store by_ code off bs s).mem = (writeBytes code off bs s).mem := by
  unfold store
  split
  next h => rw [List.isEmpty_iff.1 h]; rfl
  next =>
    have touch := (kept_gatherTouch (ps0 := [.solvers, .freeCtr]) code off bs (noteWrite by_ code off bs.length (writeBytes code off bs s)) kept_refl (by decide)).only .mem (by decide)
    exact (touch : State.mem _ = _).trans (noteWrite_mem _ _ _ _ _)

/-- Memory after a write of several bytes. -/
theorem readByte_writeBytes {s : State} (w : memWf s.mem) (code off : Nat) (bs : List Byte) (h : off + bs.length ≤ 2 ^ 36) {k o : Nat} (ho : o < 2 ^ 36) :
    readByte k o (writeBytes code off bs s) = if k = code ∧ off ≤ o ∧ o < off + bs.length then bs.getD (o - off) 0 else readByte k o s := by
  split
  next inside =>
    obtain ⟨rfl, hlo, hhi⟩ := inside
    have written := readByte_writeBytes_same k off bs s w (o - off) (by omega)
    rw [Nat.add_sub_cancel' hlo] at written
    rw [written, List.getD_eq_getElem _ _ (by omega)]
  next outside =>
    refine readByte_writeBytes_other code k off o bs s fun i hi same => outside ?_
    obtain ⟨rfl, rfl⟩ := memKey_inj ho (by omega) same
    exact ⟨rfl, Nat.le_add_right _ _, by omega⟩

/-- Memory after a store of several bytes. -/
theorem readByte_store_bytes {s : State} (w : memWf s.mem) (by_ : Option CoreId) (code off : Nat) (bs : List Byte) (h : off + bs.length ≤ 2 ^ 36) {k o : Nat} (ho : o < 2 ^ 36) :
    readByte k o (store by_ code off bs s) = if k = code ∧ off ≤ o ∧ o < off + bs.length then bs.getD (o - off) 0 else readByte k o s := by
  rw [readByte_congr (store_mem by_ code off bs s)]
  exact readByte_writeBytes w code off bs h ho

theorem readByte_clearWord (code w k o : Nat) (s : State) : readByte k o (clearWord code w s) = readByte k o s := rfl

theorem leBytes_length (k n : Nat) : (leBytes k n).length = k := by
  induction k generalizing n with
  | zero => rfl
  | succ k ih => simp [leBytes, ih]

/-- The bytes of a number, little end first. -/
theorem leBytes_getD (k n i : Nat) (h : i < k) : (leBytes k n).getD i 0 = BitVec.ofNat 8 (n / 256 ^ i) := by
  induction k generalizing n i with
  | zero => exact absurd h (Nat.not_lt_zero i)
  | succ k ih =>
    cases i with
    | zero => simp [leBytes]
    | succ i =>
      have step := ih (n / 256) i (by omega)
      rw [Nat.div_div_eq_div_mul, ← Nat.pow_succ'] at step
      exact step

/-! ## Lane debug (R116) -/

/-- What an attached debugger asks of a lane that is on. -/
theorem laneAccess_open {l : Fin 3} {s t : State} (x : LaneAct) (hd : s.voter.lane[l].debug = true) (hp : pdOn (lanePd l) s = true)
    (h : execLaneDebuggerAccess l x s = .next (if !s.voter.lane[l].debug || !pdOn (lanePd l) s then s else t)) : exec (.laneDebuggerAccess l x) s = .next t := by
  refine h.trans ?_
  rw [hd, hp]
  rfl

/-- Settles O34: each access is one update of the lane's core, an answer, or a store into the lane's SRAM. -/
theorem laneDebuggerReachesItsLaneOnly : Obligations.LaneDebuggerReachesItsLaneOnly := by
  unfold Obligations.LaneDebuggerReachesItsLaneOnly
  intro l k s hd hp c
  have row {x : LaneAct} {t : State} (h : execLaneDebuggerAccess l x s = .next (if !s.voter.lane[l].debug || !pdOn (lanePd l) s then s else t)) :
      exec (.laneDebuggerAccess l x) s = .next t := laneAccess_open x hd hp h
  refine ⟨row rfl, row rfl, row rfl, fun r v => ⟨row rfl, ?_⟩, row rfl, fun p b => ?_, fun sr v => ⟨row rfl, row rfl⟩, row rfl, fun a => row rfl, fun a => ⟨fun clean => ?_, fun v hi => ?_⟩⟩
  · have put (x : Arch) : x.put (.g r) (v.setWidth 72) = setG r v x := by
      simp [Arch.put, setG]
    refine (row rfl).trans (congrArg (fun f => Host.Outcome.next (modCore c f s)) (funext fun x => ?_))
    rw [put]
  · have put (x : Arch) : x.put (.p p) (BitVec.ofNat 72 (bitOf b)) = if p = 0 then x else { x with p := Sys2Proof.Machine.setBit x.p p.val b } := by
      cases b <;> rfl
    refine (row rfl).trans (congrArg (fun f => Host.Outcome.next (modCore c f s)) (funext fun x => ?_))
    rw [put]
  · have read := checkWord_clean clean (List.mem_singleton.2 rfl) (coreIdx (laneCore l 0))
    refine (row rfl).trans ?_
    dsimp only
    rw [read]
    rfl
  · have hrun : exec (.laneDebuggerAccess l (.writeMem a v)) s =
        .next (clearWord (laneMem l) (a.toNat / 8) (store (some (laneCore l 0)) (laneMem l) (a.toNat / 8 * 8) (leBytes 8 v.toNat) s)) := row rfl
    refine ⟨_, hrun, (kept_clearWord (ps0 := [.cores, .doms, .mem, .memErrs, .voter, .solvers, .freeCtr]) _ _ _ (kept_store _ _ _ _ s kept_refl (by decide)) (by decide)).only, fun j o ho => ?_⟩
    have written := readByte_store_bytes hi (some (laneCore l 0)) (laneMem l) (a.toNat / 8 * 8) (leBytes 8 v.toNat) (by rw [leBytes_length]; omega) (k := j) ho
    rw [leBytes_length] at written
    rw [readByte_clearWord, written]
    split
    next inside =>
      obtain ⟨-, -, high⟩ := inside
      exact leBytes_getD 8 v.toNat _ (by omega)
    next => rfl

end Sys2Proof.Proofs
end

section
/-! SUPPORT. Lines of a lane's memory, and a lane that leaves its groups (R106, R107). -/

namespace Sys2Proof.Proofs
open Sys2Proof.Machine Sys2Proof.Safety Sys2Proof.Laws
set_option Elab.async false

/-! ## Lines of a lane's memory (R107) -/

theorem memFind_filter (q : Nat → Bool) (m : List Host.Cell) (a : Nat) : memFind (m.filter fun c => q c.1) a = if q a then memFind m a else memFill a := by
  induction m with
  | nil => simp [memFind]
  | cons c m ih =>
    obtain ⟨k, b⟩ := c
    by_cases hk : k = a
    · subst hk
      cases hq : q k with
      | true => simp [memFind, hq]
      | false => simpa [memFind, hq] using ih
    · cases hq : q k with
      | true => simpa [memFind, hq, hk] using ih
      | false => simpa [memFind, hq, hk] using ih

theorem polarity_memFill {code o : Nat} (ho : o < 2 ^ 36) : polarity code (memFill (memKey code o)) = 0 := by
  have place : memKey code o / 2 ^ 36 = code := by
    unfold memKey
    omega
  unfold memFill
  rw [place, polarity_polarity]

/-- Clearing a memory leaves it 0 and the others as they are. -/
theorem readByte_clearMem (c : Nat) (s : State) {k o : Nat} (ho : o < 2 ^ 36) : readByte k o (clearMem c s) = if k = c then 0 else readByte k o s := by
  have found := memFind_filter (fun a => decide (a < memKey c 0) || decide (memKey (c + 1) 0 ≤ a)) s.mem (memKey k o)
  have hrun : readByte k o (clearMem c s) = polarity k (memFind (s.mem.filter fun x => decide (x.1 < memKey c 0) || decide (memKey (c + 1) 0 ≤ x.1)) (memKey k o)) := rfl
  rw [hrun, found]
  by_cases hk : k = c
  · subst hk
    have inside : (decide (memKey k o < memKey k 0) || decide (memKey (k + 1) 0 ≤ memKey k o)) = false := by
      unfold memKey
      rw [Bool.or_eq_false_iff, decide_eq_false_iff_not, decide_eq_false_iff_not]
      omega
    rw [inside, if_pos rfl, if_neg Bool.false_ne_true]
    exact polarity_memFill ho
  · have outside : (decide (memKey k o < memKey c 0) || decide (memKey (c + 1) 0 ≤ memKey k o)) = true := by
      unfold memKey
      rw [Bool.or_eq_true, decide_eq_true_eq, decide_eq_true_eq]
      omega
    rw [outside, if_neg hk, if_pos rfl]
    rfl

theorem memFind_listed {m : List Host.Cell} {a : Nat} (h : memFind m a ≠ memFill a) : ∃ c ∈ m, c.1 = a := by
  induction m with
  | nil => exact absurd rfl h
  | cons c m ih =>
    obtain ⟨k, b⟩ := c
    by_cases hk : k = a
    · exact ⟨(k, b), List.mem_cons_self, hk⟩
    · obtain ⟨c, hc, e⟩ := ih (by simpa [memFind, hk] using h)
      exact ⟨c, List.mem_cons_of_mem _ hc, e⟩

/-- A line that a memory does not use reads 0. -/
theorem readByte_unused {code o : Nat} {s : State} (ho : o < 2 ^ 36) (h : o / 64 ∉ usedLines code s) : readByte code o s = 0 := by
  by_cases e : memFind s.mem (memKey code o) = memFill (memKey code o)
  · unfold readByte
    rw [e]
    exact polarity_memFill ho
  · obtain ⟨c, hc, hk⟩ := memFind_listed e
    refine absurd (List.mem_dedup.2 (List.mem_map.2 ⟨c, List.mem_filter.2 ⟨hc, ?_⟩, ?_⟩)) h
    · rw [hk]
      unfold memKey
      rw [Bool.and_eq_true, decide_eq_true_eq, decide_eq_true_eq]
      omega
    · rw [hk]
      unfold memKey
      rw [Nat.add_zero, Nat.add_sub_cancel_left]

theorem usedLines_lt {code n : Nat} {s : State} (h : n ∈ usedLines code s) : n < 2 ^ 30 := by
  obtain ⟨c, hc, rfl⟩ := List.mem_map.1 (List.mem_dedup.1 h)
  have range := (List.mem_filter.1 hc).2
  unfold memKey at range ⊢
  rw [Bool.and_eq_true, decide_eq_true_eq, decide_eq_true_eq] at range
  omega

/-- A line that is copied from lane `a` to lane `l`. -/
def copyLine (l a : Fin 3) (n : Nat) (s : State) : State := clearLine (laneMem l) n (writeBytes (laneMem l) (n * 64) (lineBytes (laneMem a) n s) s)

theorem lineBytes_length (code n : Nat) (s : State) : (lineBytes code n s).length = 64 := by simp [lineBytes, readBytes]

theorem lineBytes_getD {n i : Nat} (code : Nat) (s : State) (h : i < 64) : (lineBytes code n s).getD i 0 = readByte code (n * 64 + i) s := by
  have hlen : i < (lineBytes code n s).length := by rw [lineBytes_length]; exact h
  rw [List.getD_eq_getElem _ _ hlen]
  simp [lineBytes, readBytes]

theorem clearLine_mem (code n : Nat) (s : State) : (clearLine code n s).mem = s.mem :=
  (kept_clearLine (ps0 := [.memErrs]) code n s kept_refl (by decide)).only .mem (by decide)

/-- Other memories keep their bytes. -/
theorem readByte_copyLine_other {l a : Fin 3} {n k o : Nat} (s : State) (hn : n < 2 ^ 30) (ho : o < 2 ^ 36) (hk : k ≠ laneMem l) : readByte k o (copyLine l a n s) = readByte k o s := by
  unfold copyLine
  rw [readByte_congr (clearLine_mem _ _ _)]
  refine readByte_writeBytes_other _ _ _ _ _ _ fun i hi same => hk ?_
  rw [lineBytes_length] at hi
  exact (memKey_inj ho (by omega) same).1

theorem copyLine_wf {l a : Fin 3} {n : Nat} {s : State} (w : memWf s.mem) : memWf (copyLine l a n s).mem := by
  unfold copyLine
  rw [clearLine_mem]
  exact writeBytes_wf _ _ _ _ w

/-- The copied line's bytes. -/
theorem readByte_copyLine_lane {l a : Fin 3} {n o : Nat} {s : State} (w : memWf s.mem) (hn : n < 2 ^ 30) (ho : o < 2 ^ 36) :
    readByte (laneMem l) o (copyLine l a n s) = if o / 64 = n then readByte (laneMem a) o s else readByte (laneMem l) o s := by
  unfold copyLine
  rw [readByte_congr (clearLine_mem _ _ _), readByte_writeBytes w _ _ _ (by rw [lineBytes_length]; omega) ho, lineBytes_length]
  by_cases e : o / 64 = n
  · rw [if_pos ⟨rfl, by omega, by omega⟩, if_pos e, lineBytes_getD _ _ (by omega)]
    congr 1
    omega
  · rw [if_neg (by omega), if_neg e]

/-- The running lane other than `otherLane l`. -/
def thirdLane (l : Fin 3) : Fin 3 := if l = 2 then 1 else 2

theorem running_lanes : ∀ l : Fin 3, (allLanes.filter fun k => decide (k ≠ l)) = [otherLane l, thirdLane l] ∧ otherLane l ≠ l ∧ thirdLane l ≠ l := by decide

theorem laneMem_inj {j l : Fin 3} (h : j ≠ l) : laneMem j ≠ laneMem l := fun e => h (Fin.ext (by unfold laneMem at e; omega))

/-- The two running lanes of `l` agree. -/
def RunningAgree (l : Fin 3) (s : State) : Prop := ∀ o, o < 2 ^ 36 → readByte (laneMem (otherLane l)) o s = readByte (laneMem (thirdLane l)) o s

theorem runningAgree_copyLine {l : Fin 3} {n : Nat} {s : State} (hn : n < 2 ^ 30) (h : RunningAgree l s) : RunningAgree l (copyLine l (otherLane l) n s) := fun o ho => by
  obtain ⟨-, hother, hthird⟩ := running_lanes l
  rw [readByte_copyLine_other s hn ho (laneMem_inj hother), readByte_copyLine_other s hn ho (laneMem_inj hthird)]
  exact h o ho

theorem lineBytes_agree {l : Fin 3} {n : Nat} {s : State} (hn : n < 2 ^ 30) (h : RunningAgree l s) : lineBytes (laneMem (otherLane l)) n s = lineBytes (laneMem (thirdLane l)) n s :=
  List.map_congr_left fun i hi => h _ (by have := List.mem_range.1 hi; omega)

/-- Where the running lanes agree, every line is copied and none differs. -/
theorem copyLines_agree {l : Fin 3} {lines : List Nat} {s : State} (hn : ∀ n ∈ lines, n < 2 ^ 30) (h : RunningAgree l s) :
    copyLines l lines s = (lines.foldl (fun s n => copyLine l (otherLane l) n s) s, []) := by
  unfold copyLines
  rw [(running_lanes l).1]
  dsimp only
  induction lines generalizing s with
  | nil => rfl
  | cons n lines ih =>
    obtain ⟨hn0, hn⟩ := List.forall_mem_cons.1 hn
    rw [List.foldl_cons, List.foldl_cons, if_pos (lineBytes_agree hn0 h)]
    exact ih hn (runningAgree_copyLine hn0 h)

theorem copied_other {l : Fin 3} {lines : List Nat} {k o : Nat} {s : State} (hn : ∀ n ∈ lines, n < 2 ^ 30) (ho : o < 2 ^ 36) (hk : k ≠ laneMem l) :
    readByte k o (lines.foldl (fun s n => copyLine l (otherLane l) n s) s) = readByte k o s := by
  induction lines generalizing s with
  | nil => rfl
  | cons n lines ih =>
    obtain ⟨hn0, hn⟩ := List.forall_mem_cons.1 hn
    rw [List.foldl_cons, ih hn, readByte_copyLine_other s hn0 ho hk]

theorem copied_lane {l : Fin 3} {lines : List Nat} {o : Nat} {s : State} (w : memWf s.mem) (hn : ∀ n ∈ lines, n < 2 ^ 30) (ho : o < 2 ^ 36) :
    readByte (laneMem l) o (lines.foldl (fun s n => copyLine l (otherLane l) n s) s) =
      if o / 64 ∈ lines then readByte (laneMem (otherLane l)) o s else readByte (laneMem l) o s := by
  induction lines generalizing s with
  | nil => simp
  | cons n lines ih =>
    obtain ⟨hn0, hn⟩ := List.forall_mem_cons.1 hn
    rw [List.foldl_cons, ih (copyLine_wf w) hn, readByte_copyLine_other s hn0 ho (laneMem_inj (running_lanes l).2.1), readByte_copyLine_lane w hn0 ho]
    by_cases e : o / 64 = n
    · simp [e]
    · simp [e]

/-! ## A pass that finds no difference -/

/-- The dirty lines that a pass leaves. -/
def leftDirty (done : List Nat) (x : Reint) : Reint := { x with diff := [], dirty := x.dirty.filter fun n => !done.contains n }

theorem afterPass_clean (done : List Nat) {s : State} (h : s.voter.reint.diff = []) : afterPass done [] s = modReint (leftDirty done) s := by
  unfold afterPass
  dsimp only
  rw [h]
  simp only [List.filter_nil, List.map_nil, List.append_nil, List.any_nil, Bool.false_eq_true, if_false]
  rfl

/-! ## The lane's domain goes off (R106) -/

theorem laneOff_off (l : Fin 3) (s : State) : pdOn (lanePd l) (laneOff l s) = false ∧ (laneOff l s).voter.lane[l].pll = false ∧ (laneOff l s).voter.grp = s.voter.grp ∧
    (laneOff l s).mem = (clearMem (laneMem l) s).mem := by
  have off : (laneOff l s).boot.on = Sys2Proof.Machine.setBit s.boot.on (lanePd l).idx false := rfl
  have lane : (laneOff l s).voter = (modLane l (fun x => { x with pll := false, bistOk := false, debug := false }) s).voter := rfl
  refine ⟨?_, ?_, rfl, rfl⟩
  · unfold pdOn
    rw [off]
    exact setBit_false_same _ (by cases lanePd l <;> decide)
  · rw [lane]
    simp [modLane]

/-- The lane leaves a group before its domain goes off. -/
def outOfGroup (l : Fin 3) (s : State) (g : Fin 2) : State :=
  if s.voter.grp[g].members.getLsbD l.val then
    dropLane l g (modGroup g (fun v => { v with agr := .replicate 3 0 }) (setMembers 2 g (Sys2Proof.Machine.setBit s.voter.grp[g].members l.val false) s))
  else s

theorem outOfGroup_cases (l : Fin 3) (s : State) (g : Fin 2) : s.voter.grp[g].members.getLsbD l.val = false ∧ outOfGroup l s g = s ∨
    outOfGroup l s g = dropLane l g (modGroup g agrClear (setMembers 2 g (Sys2Proof.Machine.setBit s.voter.grp[g].members l.val false) s)) := by
  unfold outOfGroup
  split
  · exact .inr rfl
  next h => exact .inl ⟨Bool.eq_false_iff.2 h, rfl⟩

theorem outOfGroup_gone (l : Fin 3) (s : State) (g : Fin 2) : (outOfGroup l s g).voter.grp[g].members.getLsbD l.val = false := by
  rcases outOfGroup_cases l s g with ⟨h, e⟩ | e
  · rw [e, h]
  · simp only [e, dropLane_voter]
    rw [modGroup_same]
    show (setMembers 2 g _ s).voter.grp[g].members.getLsbD l.val = false
    rw [setMembers_same]
    exact setBit_false_same _ l.isLt

theorem lost_outOfGroup (l : Fin 3) (s : State) (g : Fin 2) : Lost s (outOfGroup l s g) := by
  rcases outOfGroup_cases l s g with ⟨-, e⟩ | e
  · rw [e]
    exact .refl s
  · rw [e]
    have members : Lost s (setMembers 2 g (Sys2Proof.Machine.setBit s.voter.grp[g].members l.val false) s) := lost_setMembers 2 g _ s fun k hk => setBit_false_getLsbD hk
    exact (members.trans (lost_modGroup g agrClear _ ⟨id, ⟨rfl, rfl, rfl⟩, fun _ h => h, id⟩)).trans (lost_dropLane l g _)

/-- The lane out of both groups. -/
def outOfGroups (l : Fin 3) (s : State) : State := outOfGroup l (outOfGroup l s 0) 1

theorem outOfGroups_gone (l : Fin 3) (s : State) (g : Fin 2) : (outOfGroups l s).voter.grp[g].members.getLsbD l.val = false := by
  rcases (by omega : g = 0 ∨ g = 1) with rfl | rfl
  · exact Bool.eq_false_iff.2 fun m => Bool.false_ne_true ((outOfGroup_gone l s 0).symm.trans ((lost_outOfGroup l (outOfGroup l s 0) 1).members 0 l m))
  · exact outOfGroup_gone l _ 1

theorem outOfGroups_mem (l : Fin 3) (s : State) : (outOfGroups l s).mem = s.mem := by
  have one (s : State) (g : Fin 2) : (outOfGroup l s g).mem = s.mem := by
    rcases outOfGroup_cases l s g with ⟨-, e⟩ | e
    · rw [e]
    · have kept : Kept [.cores, .doms, .voter, .arb] s (outOfGroup l s g) := by
        rw [e]
        exact kept_dropLane _ _ _ (kept_modGroup _ _ _ (kept_setMembers _ _ _ s kept_refl (by decide)) (by decide)) (by decide)
      exact kept.only .mem (by decide)
  unfold outOfGroups
  rw [one, one]

end Sys2Proof.Proofs
end

section
/-! SUPPORT. The phases of a reintegration (R105 to R107). -/

namespace Sys2Proof.Proofs
open Sys2Proof.Machine Sys2Proof.Safety Sys2Proof.Laws
set_option Elab.async false

/-! ## The phases of a reintegration (R105 to R107) -/

theorem first_ready {f : Fin 3 → Bool} {k : Fin 3} (hk : f k = true) (h : ∀ j, j < k → f j = false) : ∃ rest, allLanes.filter f = k :: rest := by
  unfold allLanes
  rcases (by omega : k = 0 ∨ k = 1 ∨ k = 2) with rfl | rfl | rfl
  · exact ⟨_, List.filter_cons_of_pos hk⟩
  · rw [List.filter_cons_of_neg (by rw [h 0 (by decide)]; decide)]
    exact ⟨_, List.filter_cons_of_pos hk⟩
  · rw [List.filter_cons_of_neg (by rw [h 0 (by decide)]; decide), List.filter_cons_of_neg (by rw [h 1 (by decide)]; decide)]
    exact ⟨_, List.filter_cons_of_pos hk⟩

/-- A lane that may be started by itself. -/
def autoReady (s : State) (k : Fin 3) : Bool :=
  s.voter.reint.autoWant.getLsbD k.val && s.voter.lane[k].xcause != 8 && s.voter.lane[k].xcause != 9 && s.voter.lane[k].scopeCause != 8 && s.voter.lane[k].scopeCause != 9

theorem reintAutoStart_gives {k : Fin 3} {s : State} (hg : ∀ g ∈ loadedGroups s, s.voter.grp[g].cfg.getLsbD 31 = true) (hk : autoReady s k = true)
    (hj : ∀ j, j < k → autoReady s j = false) (hr : reintRefusal k s = none) :
    Gives .reintAutoStart s [.voter] fun t => t.voter.reint.phase = 1 ∧ t.voter.reint.lane.val = k.val + 1 ∧ t.voter.reint.auto = true := by
  obtain ⟨rest, ready⟩ := first_ready hk hj
  have hrun : exec .reintAutoStart s = .next (reintAdmit k true (voterStat 0 s)) := by
    refine congrArg Host.Outcome.next ?_
    show (if !(loadedGroups s).all fun g => s.voter.grp[g].cfg.getLsbD 31 then s else match allLanes.filter (autoReady s) with
      | [] => s
      | l :: _ => match reintRefusal l s with
        | some e => voterStat e.1 s
        | none => reintAdmit l true (voterStat 0 s)) = _
    rw [List.all_eq_true.2 hg, ready]
    dsimp only
    rw [hr]
    rfl
  refine gives_of_leaves (leaves_reintAutoStart s) hrun ⟨rfl, ?_, rfl⟩
  exact (by decide : ∀ k : Fin 3, (Fin.ofNat 4 (k.val + 1)).val = k.val + 1) k

/-- Ends an attempt, before or after another change of its registers. -/
def EndsWith (i : Instr) (res : Byte) (s : State) : Prop := Gives i s [.cores, .doms, .voter, .boot, .log] fun t => t.voter.reint.phase = 0 ∧ t.voter.reint.result = res

theorem endsWith_of_run {i : Instr} {res : Byte} {s : State} (he : exec i s = .next (reintEnd res s)) (h : s.voter.reint.phase ≠ 0) : EndsWith i res s :=
  ⟨_, he, (kept_reintEnd res s kept_refl (by decide)).only, reintEnd_ended res h⟩

theorem reintPowerDown_stranded {s : State} (hp : s.voter.reint.phase = 1) (ho : s.voter.reint.off = false) (hb : s.voter.reint.back = false)
    (hw : wouldStrand (reintLane s) s = true) : EndsWith .reintPowerDown 0x09 s := by
  have hrun : exec .reintPowerDown s = .next (modReint (fun x => { x with autoWant := Sys2Proof.Machine.setBit x.autoWant (reintLane s).val s.voter.reint.auto }) (reintEnd 0x09 s)) :=
    congrArg Host.Outcome.next ((if_neg (by rw [hp, ho, hb]; decide)).trans (if_pos hw))
  refine ⟨_, hrun, (kept_modReint _ _ (kept_reintEnd 0x09 s kept_refl (by decide)) (by decide)).only, ?_⟩
  exact reintEnd_ended 0x09 (by rw [hp]; decide)

/-- The lane's domain is off for its power cycle. -/
theorem reintPowerDown_off {s : State} (hp : s.voter.reint.phase = 1) (ho : s.voter.reint.off = false) (hb : s.voter.reint.back = false)
    (hw : wouldStrand (reintLane s) s = false) :
    Gives .reintPowerDown s [.cores, .doms, .mem, .memErrs, .voter, .solvers, .rmus, .boot, .arb, .log] fun t =>
      t.voter.reint.off = true ∧ pdOn (lanePd (reintLane s)) t = false ∧ t.voter.lane[reintLane s].pll = false ∧
        (∀ g : Fin 2, inSafe s = false ∨ s.voter.grp[g].members = 0 → t.voter.grp[g].members.getLsbD (reintLane s).val = false) ∧
        ∀ k o, o < 2 ^ 36 → readByte k o t = if k = laneMem (reintLane s) then 0 else readByte k o s := by
  let u := outOfGroups (reintLane s) s
  have hrun : exec .reintPowerDown s = .next (modReint (fun x => { x with off := true, starts := reintAttempts u ++ [u.cyc.tb] }) (laneOff (reintLane s) u)) :=
    congrArg Host.Outcome.next ((if_neg (by rw [hp, ho, hb]; decide)).trans (if_neg (by rw [hw]; decide)))
  obtain ⟨pd, pll, grp, mem⟩ := laneOff_off (reintLane s) u
  refine gives_of_leaves (leaves_reintPowerDown s) hrun ⟨rfl, pd, pll, fun g _ => ?_, fun k o hlt => ?_⟩
  · show (laneOff (reintLane s) u).voter.grp[g].members.getLsbD (reintLane s).val = false
    rw [grp]
    exact outOfGroups_gone (reintLane s) s g
  · have same : (modReint (fun x => { x with off := true, starts := reintAttempts u ++ [u.cyc.tb] }) (laneOff (reintLane s) u)).mem = (clearMem (laneMem (reintLane s)) u).mem := mem
    rw [readByte_congr same, readByte_clearMem _ _ hlt, readByte_congr (outOfGroups_mem (reintLane s) s)]

theorem reintPowerOn_gives {s : State} (hp : s.voter.reint.phase = 1) (ho : s.voter.reint.off = true) :
    Gives .reintPowerOn s [.voter, .boot] fun t => t.voter.reint.off = false ∧ t.voter.reint.back = true ∧ pdOn (lanePd (reintLane s)) t = true := by
  have hrun : exec .reintPowerOn s = .next (modReint (fun x => { x with off := false, back := true }) (setPd (lanePd (reintLane s)) true s)) :=
    congrArg Host.Outcome.next (if_neg (by rw [hp, ho]; decide))
  refine gives_of_leaves (leaves_reintPowerOn s) hrun ⟨rfl, rfl, ?_⟩
  exact setBit_true_same _ (by cases lanePd (reintLane s) <;> decide)

theorem reintPllLock_gives {s : State} (hp : s.voter.reint.phase = 1) (hb : s.voter.reint.back = true) :
    Gives (.reintPllLock true) s [.voter, .boot] (fun t => t.voter.reint.phase = 2 ∧ t.voter.lane[reintLane s].pll = true) ∧ EndsWith (.reintPllLock false) 0x03 s := by
  have due : ¬(decide (s.voter.reint.phase ≠ 1) || !s.voter.reint.back) = true := by
    rw [hp, hb]
    decide
  have hrun : exec (.reintPllLock true) s = .next (modReint (fun x => { x with phase := 2 }) (modLane (reintLane s) (fun x => { x with pll := true })
      { s with boot := { s.boot with laneLock := Sys2Proof.Machine.setBit s.boot.laneLock (reintLane s).val true } })) :=
    congrArg Host.Outcome.next ((if_neg due).trans rfl)
  refine ⟨⟨_, hrun, (kept_modReint _ _ (kept_modLane _ _ _ (kept_upd_boot kept_refl (by decide)) (by decide)) (by decide)).only, rfl, ?_⟩, ?_⟩
  · have lane (f : Reint → Reint) (u : State) : (modReint f u).voter.lane = u.voter.lane := rfl
    rw [lane]
    simp [modLane]
  · exact endsWith_of_run (congrArg Host.Outcome.next ((if_neg due).trans rfl)) (by rw [hp]; decide)

theorem reintBistDone_gives {s : State} (hp : s.voter.reint.phase = 2) :
    Gives (.reintBistDone true) s [.voter] (fun t => t.voter.reint.phase = 3 ∧ t.voter.lane[reintLane s].bistOk = true ∧ t.voter.lane[reintLane s].scopeCause = 0) ∧
      EndsWith (.reintBistDone false) 0x02 s := by
  have due : ¬(s.voter.reint.phase ≠ 2) := not_not.2 hp
  have hrun : exec (.reintBistDone true) s = .next (modReint (fun x => { x with phase := 3, copied := 0, dirty := [], diff := [] })
      (modLane (reintLane s) (fun x => { x with bistOk := true, scopeCause := 0 }) s)) := congrArg Host.Outcome.next ((if_neg due).trans rfl)
  refine ⟨⟨_, hrun, (kept_modReint _ _ (kept_modLane _ _ s kept_refl (by decide)) (by decide)).only, rfl, ?_⟩, ?_⟩
  · have lane (f : Reint → Reint) (u : State) : (modReint f u).voter.lane = u.voter.lane := rfl
    rw [lane]
    simp [modLane]
  · exact endsWith_of_run (congrArg Host.Outcome.next ((if_neg due).trans rfl)) (by rw [hp]; decide)

theorem runningAgree_of_all {l : Fin 3} {s : State} (h : ∀ j k : Fin 3, j ≠ l → k ≠ l → ∀ o, o < 2 ^ 36 → readByte (laneMem j) o s = readByte (laneMem k) o s) : RunningAgree l s :=
  h _ _ (running_lanes l).2.1 (running_lanes l).2.2

/-! ## The bulk copy -/

/-- The lines of a region that some lane uses. -/
def regionUsed (region : Fin 3) (s : State) : List Nat := ((allLanes.flatMap fun k => usedLines (laneMem k) s).dedup).filter fun n => regionOf n s == region

theorem regionUsed_lt {region : Fin 3} {s : State} : ∀ n ∈ regionUsed region s, n < 2 ^ 30 := fun n hn => by
  obtain ⟨k, -, used⟩ := List.mem_flatMap.1 (List.mem_dedup.1 (List.mem_of_mem_filter hn))
  exact usedLines_lt used

theorem readByte_not_regionUsed {region : Fin 3} {s : State} {o : Nat} (ho : o < 2 ^ 36) (hr : regionOf (o / 64) s = region) (h : o / 64 ∉ regionUsed region s) (k : Fin 3) :
    readByte (laneMem k) o s = 0 := by
  refine readByte_unused ho fun used => h (List.mem_filter.2 ⟨List.mem_dedup.2 (List.mem_flatMap.2 ⟨k, ?_, used⟩), beq_iff_eq.2 hr⟩)
  exact (by decide : ∀ k : Fin 3, k ∈ allLanes) k

/-- The lane's memory after the bulk copy of a region. -/
def bulkCopied (region : Fin 3) (s : State) : State := (regionUsed region s).foldl (fun s n => copyLine (reintLane s) (otherLane (reintLane s)) n s) s

/-- The registers after the bulk copy of a region. -/
def bulkNoted (region : Fin 3) (s : State) (x : Reint) : Reint :=
  leftDirty (regionUsed region s) { x with copied := Sys2Proof.Machine.setBit x.copied region.val true, dirty := x.dirty.filter fun n => regionOf n s != region }

/-- Once every region is copied the reintegration goes on. -/
def bulkPhase (s : State) : State :=
  let want := (2 : Nat) :: (loadedGroups s).map fun g => g.val
  if s.voter.reint.phase = 3 && want.all fun n => s.voter.reint.copied.getLsbD n then modReint (fun x => { x with phase := 4, since := 0 }) s else s

theorem bulkPhase_keeps (s : State) : (bulkPhase s).mem = s.mem ∧ (bulkPhase s).voter.reint.copied = s.voter.reint.copied := by
  unfold bulkPhase
  dsimp only
  split <;> exact ⟨rfl, rfl⟩

theorem regionCopy_diff (l : Fin 3) (lines : List Nat) (s : State) : (lines.foldl (fun s n => copyLine l (otherLane l) n s) s).voter = s.voter := by
  have kept : Kept [.mem, .memErrs] s (lines.foldl (fun s n => copyLine l (otherLane l) n s) s) :=
    kept_foldl kept_refl fun s n h => kept_clearLine _ _ _ (kept_writeBytes _ _ _ _ h (by decide)) (by decide)
  exact kept.only .voter (by decide)

theorem reintCopyDone_run {region : Fin 3} {s : State} (hp : s.voter.reint.phase = 3) (hc : s.voter.reint.copied.getLsbD region.val = false) (hd : s.voter.reint.diff = [])
    (agree : RunningAgree (reintLane s) s) : exec (.reintCopyDone region) s = .next (bulkPhase (modReint (leftDirty (regionUsed region s))
      (modReint (fun x => { x with copied := Sys2Proof.Machine.setBit x.copied region.val true, dirty := x.dirty.filter fun n => regionOf n s != region })
        ((regionUsed region s).foldl (fun t n => copyLine (reintLane s) (otherLane (reintLane s)) n t) s)))) := by
  have copied := copyLines_agree (l := reintLane s) (lines := regionUsed region s) regionUsed_lt agree
  have pass := afterPass_clean (regionUsed region s)
    (s := modReint (fun x => { x with copied := Sys2Proof.Machine.setBit x.copied region.val true, dirty := x.dirty.filter fun n => regionOf n s != region })
        ((regionUsed region s).foldl (fun t n => copyLine (reintLane s) (otherLane (reintLane s)) n t) s))
    ((congrArg (fun v : Voter => v.reint.diff) (regionCopy_diff (reintLane s) (regionUsed region s) s)).trans hd)
  refine congrArg Host.Outcome.next ((if_neg (by rw [hp, hc]; decide)).trans ?_)
  show bulkPhase (afterPass (regionUsed region s) (copyLines (reintLane s) (regionUsed region s) s).2
    (modReint (fun x => { x with copied := Sys2Proof.Machine.setBit x.copied region.val true, dirty := x.dirty.filter fun n => regionOf n s != region }) (copyLines (reintLane s) (regionUsed region s) s).1)) = _
  rw [copied]
  exact congrArg bulkPhase pass

theorem reintCopyDone_gives (region : Fin 3) {s : State} (hp : s.voter.reint.phase = 3) (hc : s.voter.reint.copied.getLsbD region.val = false) (hd : s.voter.reint.diff = [])
    (hi : Safety.Inv s) (agree : RunningAgree (reintLane s) s) :
    Gives (.reintCopyDone region) s [.cores, .doms, .mem, .memErrs, .voter, .boot, .log] fun t => t.voter.reint.copied.getLsbD region.val = true ∧
      (∀ o, o < 2 ^ 36 → regionOf (o / 64) s = region → ∀ j : Fin 3, readByte (laneMem j) o t = readByte (laneMem (if j = reintLane s then otherLane (reintLane s) else j)) o s) ∧
      ∀ k o, o < 2 ^ 36 → k ≠ laneMem (reintLane s) → readByte k o t = readByte k o s := by
  refine gives_of_leaves (leaves_reintCopyDone region s) (reintCopyDone_run hp hc hd agree) ?_
  let u := (regionUsed region s).foldl (fun t n => copyLine (reintLane s) (otherLane (reintLane s)) n t) s
  let v := modReint (leftDirty (regionUsed region s)) (modReint (fun x => { x with copied := Sys2Proof.Machine.setBit x.copied region.val true, dirty := x.dirty.filter fun n => regionOf n s != region }) u)
  have mem : (bulkPhase v).mem = u.mem := (bulkPhase_keeps v).1
  have others (k o : Nat) (ho : o < 2 ^ 36) (hk : k ≠ laneMem (reintLane s)) : readByte k o (bulkPhase v) = readByte k o s := by
    rw [readByte_congr mem]
    exact copied_other regionUsed_lt ho hk
  refine ⟨?_, fun o ho hr j => ?_, others⟩
  · rw [(bulkPhase_keeps v).2]
    exact setBit_true_same _ region.isLt
  · by_cases e : j = reintLane s
    · rw [if_pos e, e, readByte_congr mem, copied_lane hi regionUsed_lt ho]
      split
      · rfl
      next unused => rw [readByte_not_regionUsed ho hr unused, readByte_not_regionUsed ho hr unused]
    · rw [if_neg e]
      exact others _ o ho (laneMem_inj e)

/-! ## A region that is clean -/

/-- The dirty lines of a group's region and those outside both. -/
def cleanLines (g : Fin 2) (s : State) : List Nat := s.voter.reint.dirty.filter fun n => let k := regionOf n s; k.val == g.val || k == 2

theorem reintRegionClean_gives {g : Fin 2} {s : State} (hp : s.voter.reint.phase = 4 ∨ s.voter.reint.phase = 5) (hi : s.doms[groupDom g].image ≠ none)
    (hc : s.voter.reint.clean.getLsbD g.val = false) (hd : s.voter.reint.diff = []) (hn : ∀ n ∈ s.voter.reint.dirty, n < 2 ^ 30) (agree : RunningAgree (reintLane s) s) :
    Gives (.reintRegionClean g) s [.cores, .doms, .mem, .memErrs, .voter, .boot, .log] fun t => t.voter.reint.clean.getLsbD g.val = true ∧ t.voter.reint.phase = s.voter.reint.phase ∧
      ∀ n ∈ t.voter.reint.dirty, n ∈ s.voter.reint.dirty ∧ regionOf n s ≠ 2 ∧ (regionOf n s).val ≠ g.val := by
  let u := (cleanLines g s).foldl (fun t n => copyLine (reintLane s) (otherLane (reintLane s)) n t) s
  have reint : u.voter.reint = s.voter.reint := congrArg Voter.reint (regionCopy_diff _ _ s)
  have copied := copyLines_agree (l := reintLane s) (lines := cleanLines g s) (fun n h => hn n (List.mem_of_mem_filter h)) agree
  have pass := afterPass_clean (cleanLines g s) (s := u) (by rw [reint, hd])
  have busy : (modReint (leftDirty (cleanLines g s)) u).voter.reint.phase = s.voter.reint.phase :=
    (congrArg Reint.phase reint : u.voter.reint.phase = s.voter.reint.phase)
  have hrun : exec (.reintRegionClean g) s = .next (modReint (fun x => { x with clean := Sys2Proof.Machine.setBit x.clean g.val true }) (modReint (leftDirty (cleanLines g s)) u)) := by
    refine congrArg Host.Outcome.next ((if_neg ?_).trans ?_)
    · rw [hc, Option.isNone_eq_false_iff.2 (Option.isSome_iff_ne_none.2 hi)]
      rcases hp with e | e <;> rw [e] <;> decide
    · show (if (afterPass (cleanLines g s) (copyLines (reintLane s) (cleanLines g s) s).2 (copyLines (reintLane s) (cleanLines g s) s).1).voter.reint.phase ≠ 0 &&
          (copyLines (reintLane s) (cleanLines g s) s).2.isEmpty then
        modReint (fun x => { x with clean := Sys2Proof.Machine.setBit x.clean g.val true }) (afterPass (cleanLines g s) (copyLines (reintLane s) (cleanLines g s) s).2 (copyLines (reintLane s) (cleanLines g s) s).1)
        else afterPass (cleanLines g s) (copyLines (reintLane s) (cleanLines g s) s).2 (copyLines (reintLane s) (cleanLines g s) s).1) = _
      rw [copied]
      dsimp only
      rw [pass]
      refine if_pos ?_
      rw [busy]
      rcases hp with e | e <;> rw [e] <;> decide
  refine gives_of_leaves (leaves_reintRegionClean g s) hrun ⟨setBit_true_same _ g.isLt, busy, fun n hmem => ?_⟩
  have dirty : (leftDirty (cleanLines g s) u.voter.reint).dirty = s.voter.reint.dirty.filter fun n => !(cleanLines g s).contains n := by rw [reint]; rfl
  obtain ⟨was, left⟩ := List.mem_filter.1 (dirty ▸ hmem : n ∈ s.voter.reint.dirty.filter fun n => !(cleanLines g s).contains n)
  have outside : ¬((regionOf n s).val == g.val || regionOf n s == 2) = true := fun inside => by
    have listed : (cleanLines g s).contains n = true := List.contains_iff_mem.2 (List.mem_filter.2 ⟨was, inside⟩)
    rw [listed] at left
    exact absurd left (by decide)
  rw [Bool.or_eq_true, beq_iff_eq, beq_iff_eq, not_or] at outside
  exact ⟨was, outside.2, outside.1⟩

/-- Settles O30: each phase's row acts on the lane under reintegration, and what it copies agrees with the running lanes. -/
theorem reintegrationPassesItsPhases : Obligations.ReintegrationPassesItsPhases := by
  unfold Obligations.ReintegrationPassesItsPhases
  intro s r l ends ready
  refine ⟨fun k hg hk hj hr => reintAutoStart_gives hg hk hj hr, fun hp ho hb => ⟨fun hw => reintPowerDown_stranded hp ho hb hw, fun hw => reintPowerDown_off hp ho hb hw⟩,
    fun hp ho => reintPowerOn_gives hp ho, fun hp hb => reintPllLock_gives hp hb, fun hp => reintBistDone_gives hp,
    fun region hp hc hd hi agree => reintCopyDone_gives region hp hc hd hi (runningAgree_of_all agree),
    fun g hp hi hc => ⟨fun hd hn agree => reintRegionClean_gives hp hi hc hd hn (runningAgree_of_all agree), fun hs => ?_⟩⟩
  refine endsWith_of_run (congrArg Host.Outcome.next (if_pos ?_)) ?_
  · rw [hc, Option.isSome_iff_ne_none.2 hi, decide_eq_true hs]
    rcases hp with e | e <;> rw [e] <;> decide
  · rcases hp with e | e <;> rw [e] <;> decide

end Sys2Proof.Proofs
end

section
/-! SUPPORT. Sessions, slots, replies and ends of the mailboxes (R357 to R364, R374). -/

namespace Sys2Proof.Proofs
open Sys2Proof.Machine Sys2Proof.Safety Sys2Proof.Laws
set_option Elab.async false

/-! ## Sessions and slots (R357, R363) -/

theorem sessOf_congr {s t : State} (h : t.mbx = s.mbx) (r : CmdRef) : sessOf r t = sessOf r s := by
  unfold sessOf
  rw [h]

theorem slotOf_congr {s t : State} (h : t.mbx = s.mbx) (r : CmdRef) : slotOf r t = slotOf r s :=
  congrArg (fun x : Session => List.find? (fun y : Slot => y.tag == r.tag) x.slots) (sessOf_congr h r)

/-- The slot of a command depends on its session's slots alone. -/
theorem slotOf_eq_of_slots {r : CmdRef} {s t : State} (h : (sessOf r t).slots = (sessOf r s).slots) : slotOf r t = slotOf r s :=
  congrArg (List.find? fun y : Slot => y.tag == r.tag) h

theorem sessOf_modSess_same {r : CmdRef} {i : Fin 5} (h : r.sess = i) (f : Session → Session) (s : State) : sessOf r (modSess i f s) = f (sessOf r s) := by
  subst h
  unfold modSess sessOf
  by_cases h : r.sess.val < 4
  · simp only [dif_pos h, Vector.getElem_set_self]
  · simp only [dif_neg h]

theorem sessOf_modSess_other {r : CmdRef} {i : Fin 5} (h : r.sess ≠ i) (f : Session → Session) (s : State) : sessOf r (modSess i f s) = sessOf r s := by
  have hv : i.val ≠ r.sess.val := fun e => h (Fin.ext e.symm)
  unfold modSess sessOf
  by_cases hi : i.val < 4
  · simp only [dif_pos hi]
    split
    · exact Vector.getElem_set_ne hi _ hv
    · rfl
  · have hr : r.sess.val < 4 := by omega
    simp only [dif_neg hi, dif_pos hr]

/-- What else of the mailboxes a session's update leaves. -/
theorem modSess_out (i : Fin 5) (f : Session → Session) (s : State) : (modSess i f s).mbx.out = s.mbx.out := by
  unfold modSess
  split <;> rfl

theorem modSlot_sync (r : CmdRef) (f : Slot → Slot) (s : State) : (modSlot r f s).sync = s.sync := by
  unfold modSlot modSess
  split <;> rfl

theorem modSess_cyc (i : Fin 5) (f : Session → Session) (s : State) : (modSess i f s).cyc = s.cyc := by
  unfold modSess
  split <;> rfl

theorem modSess_ring (i : Fin 5) (f : Session → Session) (s : State) : (modSess i f s).ring = s.ring := by
  unfold modSess
  split <;> rfl

theorem find?_map_tag {l : List Slot} {tag : BitVec 16} {f : Slot → Slot} (hf : ∀ y, (f y).tag = y.tag) :
    (l.map fun y => if y.tag == tag then f y else y).find? (fun y => y.tag == tag) = (l.find? fun y => y.tag == tag).map f := by
  induction l with
  | nil => rfl
  | cons y l ih =>
    rw [List.map_cons]
    by_cases h : (y.tag == tag) = true
    · rw [if_pos h, List.find?_cons_of_pos (by rw [hf]; exact h), List.find?_cons_of_pos (by exact h), Option.map_some]
    · rw [if_neg h, List.find?_cons_of_neg (by exact h), List.find?_cons_of_neg (by exact h), ih]

theorem find?_map_other {l : List Slot} {tag tag' : BitVec 16} {f : Slot → Slot} (hf : ∀ y, (f y).tag = y.tag) (h : tag' ≠ tag) :
    (l.map fun y => if y.tag == tag then f y else y).find? (fun y => y.tag == tag') = l.find? fun y => y.tag == tag' := by
  induction l with
  | nil => rfl
  | cons y l ih =>
    have same : (if y.tag == tag then f y else y).tag = y.tag := by
      split
      · exact hf y
      · rfl
    rw [List.map_cons, List.find?_cons, List.find?_cons, same, ih]
    by_cases hy : y.tag = tag'
    · have hne : ¬(y.tag == tag) = true := fun e => h (hy.symm.trans (beq_iff_eq.1 e))
      rw [if_neg hne]
    · rw [beq_false_of_ne hy]

theorem sessOf_modSlot (r : CmdRef) (f : Slot → Slot) (s : State) :
    sessOf r (modSlot r f s) = { sessOf r s with slots := (sessOf r s).slots.map fun y => if y.tag == r.tag then f y else y } :=
  sessOf_modSess_same rfl _ s

/-- An update of a command's slot. -/
theorem slotOf_modSlot {r : CmdRef} {f : Slot → Slot} (hf : ∀ y, (f y).tag = y.tag) (s : State) : slotOf r (modSlot r f s) = (slotOf r s).map f := by
  unfold slotOf
  rw [sessOf_modSlot]
  exact find?_map_tag hf

theorem slotOf_modSlot_some {r : CmdRef} {f : Slot → Slot} {s : State} {x : Slot} (hf : ∀ y, (f y).tag = y.tag) (h : slotOf r s = some x) :
    slotOf r (modSlot r f s) = some (f x) := by
  rw [slotOf_modSlot hf, h, Option.map_some]

/-- It leaves every other command's slot. -/
theorem slotOf_modSlot_other {r q : CmdRef} {f : Slot → Slot} (hf : ∀ y, (f y).tag = y.tag) (h : q ≠ r) (s : State) : slotOf q (modSlot r f s) = slotOf q s := by
  by_cases hs : q.sess = r.sess
  · have ht : q.tag ≠ r.tag := fun e => h (by cases q; cases r; simp_all)
    unfold slotOf modSlot
    rw [sessOf_modSess_same hs]
    exact find?_map_other hf ht
  · exact slotOf_eq_of_slots (congrArg Session.slots (sessOf_modSess_other hs _ s))

/-! ## What a reply leaves (R359, R362) -/

/-- From `s` to `t` the mailboxes only sent: each session is as before but for the number of its last datagram, and nothing waits or ends. -/
structure Talked (s t : State) : Prop where
  sess : ∀ r, sessOf r t = { sessOf r s with txSeq := (sessOf r t).txSeq }
  rest : t = { s with sync := t.sync, mbx := { s.mbx with sess := t.mbx.sess, partner := t.mbx.partner, out := t.mbx.out } }

theorem Talked.refl (s : State) : Talked s s := ⟨fun _ => rfl, rfl⟩

theorem Talked.trans {s t u : State} (h1 : Talked s t) (h2 : Talked t u) : Talked s u where
  sess r := by rw [h2.sess, h1.sess]
  rest := by rw [h2.rest, h1.rest]

theorem Talked.slots {s t : State} (h : Talked s t) (r : CmdRef) : (sessOf r t).slots = (sessOf r s).slots := by rw [h.sess]
theorem Talked.slot {s t : State} (h : Talked s t) (r : CmdRef) : slotOf r t = slotOf r s := slotOf_eq_of_slots (h.slots r)
theorem Talked.cache {s t : State} (h : Talked s t) (r : CmdRef) : (sessOf r t).cache = (sessOf r s).cache := by rw [h.sess]

theorem talked_sendSync (type : Byte) (cyc : Long) (body : List Byte) (s : State) : Talked s (sendSync type cyc body s) := ⟨fun _ => rfl, rfl⟩

theorem modSess_rest (i : Fin 5) (f : Session → Session) (s : State) :
    modSess i f s = { s with mbx := { s.mbx with sess := (modSess i f s).mbx.sess, partner := (modSess i f s).mbx.partner } } := by
  unfold modSess
  split <;> rfl

/-- What a datagram that a session sends leaves. -/
theorem talked_sent (i : Fin 5) (q : Word) (m : Sent) (s : State) :
    let u := modSess i (fun y => { y with txSeq := q }) s
    Talked s { u with mbx := { u.mbx with out := u.mbx.out ++ [m] } } where
  sess r := by
    show sessOf r (modSess i (fun y => { y with txSeq := q }) s) = { sessOf r s with txSeq := (sessOf r (modSess i (fun y => { y with txSeq := q }) s)).txSeq }
    by_cases h : r.sess = i
    · rw [sessOf_modSess_same h]
    · rw [sessOf_modSess_other h]
  rest := by
    dsimp only
    rw [modSess_rest]

theorem talked_sendDatagram (i : Fin 5) (car : Carrier) (header : List Byte) (off : Nat) (blk : List Byte) (s : State) :
    Talked s (sendDatagram i car header off blk s) := by
  cases car with
  | foreign => exact .refl s
  | sync => exact talked_sendSync _ _ _ s
  | x6 ip port => exact talked_sent i _ _ s
  | x6Fragment ip port id off more => exact talked_sent i _ _ s
  | freight => exact talked_sent i _ _ s

theorem talked_foldl {α : Type} (f : State → α → State) (hf : ∀ s a, Talked s (f s a)) (l : List α) (s : State) : Talked s (l.foldl f s) := by
  induction l generalizing s with
  | nil => exact .refl s
  | cons a l ih => exact (hf s a).trans (ih (f s a))

theorem talked_sendReply (i : Fin 5) (car : Carrier) (r : Reply) (final : Bool) (s : State) : Talked s (sendReply i car r final s) :=
  talked_foldl _ (fun s b => talked_sendDatagram i car _ _ _ s) _ s

theorem talked_answerDg (i : Fin 5) (car : Carrier) (d : Dg) (st : Status) (detail : Nat) (s : State) : Talked s (answerDg i car d st detail s) :=
  talked_sendReply i car _ _ s

/-! ## The commands that hold no slot stand aside (R364) -/

/-- The state with other commands without slots waiting. -/
def withOnce (o : List AtOnce) (s : State) : State := { s with mbx := { s.mbx with once := o } }

theorem modSess_withOnce (i : Fin 5) (f : Session → Session) (o : List AtOnce) (s : State) : modSess i f (withOnce o s) = withOnce o (modSess i f s) := by
  unfold modSess
  split <;> rfl

theorem sendDatagram_withOnce (i : Fin 5) (car : Carrier) (header : List Byte) (off : Nat) (blk : List Byte) (o : List AtOnce) (s : State) :
    sendDatagram i car header off blk (withOnce o s) = withOnce o (sendDatagram i car header off blk s) := by
  cases car with
  | foreign => rfl
  | sync => rfl
  | x6 ip port => simp only [sendDatagram, modSess_withOnce]; rfl
  | x6Fragment ip port id off more => simp only [sendDatagram, modSess_withOnce]; rfl
  | freight => simp only [sendDatagram, modSess_withOnce]; rfl

theorem foldl_withOnce {α : Type} {f : State → α → State} {o : List AtOnce} (hf : ∀ s a, f (withOnce o s) a = withOnce o (f s a)) (l : List α) (s : State) :
    l.foldl f (withOnce o s) = withOnce o (l.foldl f s) := by
  induction l generalizing s with
  | nil => rfl
  | cons a l ih => rw [List.foldl_cons, hf, ih, List.foldl_cons]

theorem sendReply_withOnce (i : Fin 5) (car : Carrier) (r : Reply) (final : Bool) (o : List AtOnce) (s : State) :
    sendReply i car r final (withOnce o s) = withOnce o (sendReply i car r final s) := by
  have bs : blockSize car (withOnce o s) = blockSize car s := by cases car <;> rfl
  unfold sendReply
  have step (u : State) (b : Nat × List Byte) :
      sendDatagram i car (replyHeader r final) b.1 b.2 (withOnce o u) = withOnce o (sendDatagram i car (replyHeader r final) b.1 b.2 u) :=
    sendDatagram_withOnce i car _ _ _ o u
  rw [bs, foldl_withOnce step]

/-- What taking a command's datagram leaves. -/
theorem takeOnce_some {r : CmdRef} {code : Nat} {s u : State} {y : AtOnce} (h : takeOnce r code s = some (y, u)) : ∃ o, u = withOnce o s := by
  obtain ⟨x, -, e⟩ := Option.map_eq_some_iff.1 h
  exact ⟨_, (congrArg Prod.snd e).symm⟩

/-! ## A command's end (R362, R364, R374) -/

theorem find?_filter_tag (l : List Slot) (tag : BitVec 16) : (l.filter fun z => z.tag != tag).find? (fun z => z.tag == tag) = none := by
  rw [List.find?_eq_none]
  intro z hz e
  have := (List.mem_filter.1 hz).2
  simp_all

/-- The reply that ends command `r` of slot `x`. -/
def lastReply (r : CmdRef) (x : Slot) (st : BitVec 16) (detail : Nat) (data : List Byte) : Reply :=
  { tag := r.tag, code := x.code, status := st, detail := BitVec.ofNat 16 detail, data := data }

/-- The session once the command in slot `x` has ended. -/
def endedSess (r : CmdRef) (x : Slot) (rep : Reply) (y : Session) : Session :=
  { y with slots := y.slots.filter fun z => z.tag != r.tag, cache := if x.car == .foreign then y.cache else (rep :: y.cache).take 64 }

theorem finishCode_eq {r : CmdRef} {x : Slot} {s : State} (h : slotOf r s = some x) (st : BitVec 16) (detail : Nat) (data : List Byte) :
    finishCode r st detail data s =
      let u := modSess r.sess (endedSess r x (lastReply r x st detail data)) s
      if x.car == .foreign then countMbx .dropreply u else sendReply r.sess x.car (lastReply r x st detail data) true u := by
  unfold finishCode
  rw [h]
  rfl

theorem finish_none {r : CmdRef} {s : State} (h : slotOf r s = none) (st : Status) (detail : Nat) (data : List Byte) : finish r st detail data s = countMbx .late s := by
  unfold finish finishCode
  rw [h]

/-- What an end leaves of each session: the command's own loses its slot and keeps the reply, and only numbers of datagrams change otherwise. -/
theorem finishCode_sess {r : CmdRef} {x : Slot} {s : State} (h : slotOf r s = some x) (st : BitVec 16) (detail : Nat) (data : List Byte) (q : CmdRef) :
    let u := modSess r.sess (endedSess r x (lastReply r x st detail data)) s
    sessOf q (finishCode r st detail data s) = { sessOf q u with txSeq := (sessOf q (finishCode r st detail data s)).txSeq } := by
  rw [finishCode_eq h]
  dsimp only
  split
  · rfl
  · exact (talked_sendReply _ _ _ _ _).sess q

theorem finishCode_slot_none {r : CmdRef} {x : Slot} {s : State} (h : slotOf r s = some x) (st : BitVec 16) (detail : Nat) (data : List Byte) :
    slotOf r (finishCode r st detail data s) = none := by
  unfold slotOf
  rw [finishCode_sess h, sessOf_modSess_same rfl]
  exact find?_filter_tag _ _

theorem finishCode_cache {r : CmdRef} {x : Slot} {s : State} (h : slotOf r s = some x) (hc : x.car ≠ .foreign) (st : BitVec 16) (detail : Nat) (data : List Byte) :
    (sessOf r (finishCode r st detail data s)).cache.head? = some (lastReply r x st detail data) := by
  rw [finishCode_sess h, sessOf_modSess_same rfl]
  show (if x.car == .foreign then (sessOf r s).cache else (lastReply r x st detail data :: (sessOf r s).cache).take 64).head? = _
  rw [beq_false_of_ne hc]
  rfl

theorem find?_filter_other {tag tag' : BitVec 16} (h : tag' ≠ tag) (l : List Slot) :
    (l.filter fun z => z.tag != tag).find? (fun z => z.tag == tag') = l.find? fun z => z.tag == tag' := by
  rw [List.find?_filter]
  congr 1
  funext z
  by_cases hz : z.tag = tag'
  · simp [hz, h]
  · simp [hz]

/-- An end leaves every other command's slot. -/
theorem finishCode_slot_other {r q : CmdRef} (hq : q ≠ r) (st : BitVec 16) (detail : Nat) (data : List Byte) (s : State) :
    slotOf q (finishCode r st detail data s) = slotOf q s := by
  cases h : slotOf r s with
  | none =>
    unfold finishCode
    rw [h]
    rfl
  | some x =>
    unfold slotOf
    rw [finishCode_sess h]
    by_cases hs : q.sess = r.sess
    · have ht : q.tag ≠ r.tag := fun e => hq (by cases q; cases r; simp_all)
      rw [sessOf_modSess_same hs]
      exact find?_filter_other ht _
    · rw [sessOf_modSess_other hs]

/-- A command that stands in a slot ends by `finish`; its code and carrier decide the reply. -/
theorem finish_ended {r : CmdRef} {x y : Slot} {s : State} (h : slotOf r s = some y) (hc : y.code = x.code) (hr : y.car = x.car) (st : Status) (detail : Nat)
    (data : List Byte) : Ended r x st detail data (finish r st detail data s) := by
  refine ⟨finishCode_slot_none h _ _ _, fun hx => ?_⟩
  have e := finishCode_cache h (hr ▸ hx) st.code detail data
  rw [show lastReply r y st.code detail data = lastReply r x st.code detail data by unfold lastReply; rw [hc]] at e
  exact e

theorem ended_of_talked {r : CmdRef} {x : Slot} {st : Status} {detail : Nat} {data : List Byte} {s t : State} (h : Ended r x st detail data s) (ht : Talked s t) :
    Ended r x st detail data t := by
  refine ⟨(ht.slot r).trans h.1, fun hx => ?_⟩
  rw [ht.cache]
  exact h.2 hx

theorem ended_of_mbx {r : CmdRef} {x : Slot} {st : Status} {detail : Nat} {data : List Byte} {s t : State} (h : Ended r x st detail data s) (e : t.mbx = s.mbx) :
    Ended r x st detail data t := by
  refine ⟨(slotOf_congr e r).trans h.1, fun hx => ?_⟩
  rw [sessOf_congr e]
  exact h.2 hx

theorem cancelLower_mbx (r : CmdRef) (x : Slot) (s : State) : (cancelLower r x s).mbx = s.mbx :=
  (kept_cancelLower (ps0 := [.doms, .solvers, .ring, .update, .ps, .arch, .arb]) r x s kept_refl (List.Subset.refl _)).only .mbx (by decide)

/-! ## A command that starts (R363, R469) -/

/-- The state in which a received command's work begins. -/
def begun (r : CmdRef) (s : State) : State := modSlot r (fun y => { y with started := true }) s

theorem runCmd_waits {r : CmdRef} {code : Nat} {x : Slot} {s : State} (h : Waits r code x s) (f : List Byte → State → State) :
    runCmd r code f s = f (slotData x) (begun r s) := by
  obtain ⟨hs, hr, ⟨hf, -⟩, hc, ha⟩ := h
  unfold runCmd
  rw [hs]
  dsimp only
  rw [if_neg, if_neg]
  · rfl
  · intro h
    rw [Bool.and_eq_true, Bool.not_eq_true'] at h
    exact absurd ((ha h.1).symm.trans h.2) Bool.noConfusion
  · simp [hr, hf, hc]

theorem begun_slot {r : CmdRef} {x : Slot} {s : State} (h : slotOf r s = some x) : slotOf r (begun r s) = some { x with started := true } :=
  slotOf_modSlot_some (fun _ => rfl) h

theorem begun_rest (r : CmdRef) (s : State) :
    begun r s = { s with mbx := { s.mbx with sess := (begun r s).mbx.sess, partner := (begun r s).mbx.partner } } :=
  modSess_rest r.sess (fun x => { x with slots := x.slots.map fun y => if y.tag == r.tag then { y with started := true } else y }) s

theorem kept_begun (r : CmdRef) (s : State) : Kept [.mbx] s (begun r s) := kept_modSlot _ _ _ kept_refl (List.Subset.refl _)

/-- A command that ends right after its start. -/
theorem begun_ended {r : CmdRef} {x : Slot} {s t : State} (h : slotOf r s = some x) (e : t.mbx = (begun r s).mbx) (st : Status) (detail : Nat) (data : List Byte) :
    Ended r x st detail data (finish r st detail data t) :=
  finish_ended (y := { x with started := true }) ((slotOf_congr e r).trans (begun_slot h)) rfl rfl st detail data

/-- A command that waits below after its start. -/
theorem waitFor_goesOn {r : CmdRef} {x : Slot} {w : Wait} {s t : State} (h : slotOf r s = some x) (e : t.mbx = (begun r s).mbx) : GoesOn r x w (waitFor r w t) :=
  slotOf_modSlot_some (f := fun y => { y with wait := w }) (fun _ => rfl) ((slotOf_congr e r).trans (begun_slot h))

end Sys2Proof.Proofs
end

section
/-! SUPPORT. How a command ends (R357, R363, R374 to R376). -/

namespace Sys2Proof.Proofs
open Sys2Proof.Machine Sys2Proof.Safety Sys2Proof.Laws
set_option Elab.async false

/-! ## How a command ends (R357, R363, R374 to R376) -/

theorem commandIncomplete_ends {r : CmdRef} {x : Slot} {s : State} (h : slotOf r s = some x) (hr : x.received = false) (he : elapsed 2000 x.recvAt s = true) :
    Gives (.commandIncomplete r) s [.sync, .mbx] (Ended r x .incomplete 0 []) := by
  refine gives_of_leaves (leaves_commandIncomplete r s) (t := finish r .incomplete 0 [] s) ?_ (finish_ended h rfl rfl _ _ _)
  show execCommandIncomplete r s = _
  unfold execCommandIncomplete
  rw [h]
  exact congrArg Host.Outcome.next (if_neg (by simp [hr, he]))

theorem commandTimeout_ends {r : CmdRef} {x : Slot} {s : State} (h : slotOf r s = some x) (hr : x.received = true) (ht : x.timeout ≠ 0)
    (he : elapsed x.timeout x.recvAt s = true) :
    Gives (.commandTimeout r) s [.doms, .solvers, .ring, .sync, .mbx, .update, .ps, .arch, .arb] (Ended r x .timeout 0 []) := by
  refine gives_of_leaves (leaves_commandTimeout r s) (t := finish r .timeout 0 [] (cancelLower r x s)) ?_
    (finish_ended ((slotOf_congr (cancelLower_mbx r x s) r).trans h) rfl rfl _ _ _)
  show execCommandTimeout r s = _
  unfold execCommandTimeout
  rw [h]
  exact congrArg Host.Outcome.next (if_pos (by simp [hr, he, ht]))

/-- The status and data of an outcome from below. -/
def outcomeEnd : LowerOutcome → Status × Nat × List Byte
  | .success d => (.ok, 0, d)
  | .link => (.link, 0, [])
  | .medium => (.medium, 0, [])
  | .stationErr c => (.stationErr, c.toNat, [])
  | .cancelledDisable => (.cancelledDisable, 0, [])

theorem commandComplete_run {r : CmdRef} {x : Slot} {s : State} (h : slotOf r s = some x) (hs : x.started = true) (o : LowerOutcome) :
    exec (.commandComplete r o) s = .next (finish r (outcomeEnd o).1 (outcomeEnd o).2.1 (outcomeEnd o).2.2 s) := by
  show execCommandComplete r o s = _
  unfold execCommandComplete
  rw [h]
  refine congrArg Host.Outcome.next ((if_neg (by simp [hs])).trans ?_)
  cases o <;> rfl

theorem commandComplete_late {r : CmdRef} {s : State} (h : slotOf r s = none) (o : LowerOutcome) : exec (.commandComplete r o) s = .next (countMbx .late s) := by
  show execCommandComplete r o s = _
  unfold execCommandComplete
  rw [h]

/-! ## Forwarded commands (R357) -/

/-- The sync link's messages after a list of blocks is sent: one MAILBOX each. -/
theorem sent_blocks (hdr : List Byte) (bs : List (Nat × List Byte)) (s : State) :
    ∃ ms, (bs.foldl (fun s b => sendDatagram 4 .sync hdr b.1 b.2 s) s).sync.out = s.sync.out ++ ms ∧ ms.map (·.type) = bs.map fun _ => 0x0B := by
  induction bs generalizing s with
  | nil => exact ⟨[], (List.append_nil _).symm, rfl⟩
  | cons b bs ih =>
    obtain ⟨ms, ho, hm⟩ := ih (sendDatagram 4 .sync hdr b.1 b.2 s)
    obtain ⟨m, hs, ht⟩ : ∃ m, (sendDatagram 4 .sync hdr b.1 b.2 s).sync.out = s.sync.out ++ [m] ∧ m.type = 0x0B := ⟨_, rfl, rfl⟩
    refine ⟨m :: ms, ?_, ?_⟩
    · rw [List.foldl_cons, ho, hs, List.append_assoc]
      rfl
    · rw [List.map_cons, List.map_cons, hm, ht]

theorem sent_blocks_mbx (hdr : List Byte) (bs : List (Nat × List Byte)) (s : State) :
    (bs.foldl (fun s b => sendDatagram 4 .sync hdr b.1 b.2 s) s).mbx = s.mbx := by
  induction bs generalizing s with
  | nil => rfl
  | cons b bs ih => exact (ih _).trans rfl

theorem forwardSend_mbx (r : CmdRef) (s : State) : (forwardSend r s).mbx = s.mbx := by
  unfold forwardSend
  split
  · rfl
  · exact sent_blocks_mbx _ _ _

theorem forwardSend_sent {r : CmdRef} {x : Slot} {s : State} (h : slotOf r s = some x) :
    ∃ ms, (forwardSend r s).sync.out = s.sync.out ++ ms ∧ ms.map (·.type) = (blocksOf 4096 (slotData x)).map fun _ => 0x0B := by
  unfold forwardSend
  rw [h]
  exact sent_blocks _ _ _

/-- What FORWARD_RESEND does with a command that waits for its partner's reply. -/
theorem forwardResend_run {r : CmdRef} {x : Slot} {s : State} (h : slotOf r s = some x) (hw : x.wait = .partner) (ht : x.tries < 4)
    (he : elapsed (10 * (x.tries + 1)) x.recvAt s = true) :
    exec (.forwardResend r) s = .next (if x.tries = 3 then finish r .link 0 [] s else forwardSend r (modSlot r (fun y => { y with tries := y.tries + 1 }) s)) := by
  show execForwardResend r s = _
  unfold execForwardResend
  rw [h]
  exact congrArg Host.Outcome.next (if_neg (by simp [hw, ht, he]))

theorem forwardResend_fails {r : CmdRef} {x : Slot} {s : State} (h : slotOf r s = some x) (hw : x.wait = .partner) (ht : x.tries = 3)
    (he : elapsed 40 x.recvAt s = true) : Gives (.forwardResend r) s [.sync, .mbx] (Ended r x .link 0 []) := by
  have hrun := forwardResend_run h hw (by omega) (by rw [ht]; exact he)
  rw [if_pos ht] at hrun
  exact gives_of_leaves (leaves_forwardResend r s) hrun (finish_ended h rfl rfl _ _ _)

theorem forwardResend_again {r : CmdRef} {x : Slot} {s : State} (h : slotOf r s = some x) (hw : x.wait = .partner) (ht : x.tries < 3)
    (he : elapsed (10 * (x.tries + 1)) x.recvAt s = true) :
    Gives (.forwardResend r) s [.mbx, .sync] fun t => slotOf r t = some { x with tries := x.tries + 1 } ∧ t.mbx.out = s.mbx.out ∧
      ∃ ms, t.sync.out = s.sync.out ++ ms ∧ ms.map (·.type) = (blocksOf 4096 (slotData x)).map fun _ => 0x0B := by
  have hrun := forwardResend_run h hw (by omega) he
  rw [if_neg (by omega)] at hrun
  have slot := slotOf_modSlot_some (f := fun y => { y with tries := y.tries + 1 }) (fun _ => rfl) h
  refine gives_of_leaves ((leaves_forwardResend r s).mono (by decide)) hrun ⟨(slotOf_congr (forwardSend_mbx r _) r).trans slot, ?_, ?_⟩
  · rw [forwardSend_mbx]
    exact modSess_out _ _ _
  · obtain ⟨ms, ho, hm⟩ := forwardSend_sent slot
    refine ⟨ms, ho.trans ?_, hm⟩
    rw [modSlot_sync]

/-! ## ABORT (R376) -/

/-- ABORT of a well-formed request, by the slot that it names. -/
theorem abortCmd_run {r : CmdRef} {y : AtOnce} {s u : State} (ht : takeOnce r 4 s = some (y, u)) (hl : y.data.length = 4) (hz : sliceNat 2 2 y.data = 0) :
    exec (.abortCmd r) s = .next (match slotOf { sess := r.sess, tag := BitVec.ofNat 16 (sliceNat 0 2 y.data) } u with
      | some x => if Sys2Proof.Machine.passed x then sendReply r.sess y.car (bare r.tag 4 .notPending 0) true u
        else sendReply r.sess y.car (bare r.tag 4 .ok 0) true (finish { sess := r.sess, tag := BitVec.ofNat 16 (sliceNat 0 2 y.data) } .aborted 0 []
          (cancelLower { sess := r.sess, tag := BitVec.ofNat 16 (sliceNat 0 2 y.data) } x u))
      | none => sendReply r.sess y.car (bare r.tag 4 .notPending 0) true u) := by
  show execAbortCmd r s = _
  unfold execAbortCmd
  rw [ht]
  exact congrArg Host.Outcome.next ((if_neg (by simp [hl])).trans ((if_neg (by simp [hz])).trans rfl))

theorem slotOf_takeOnce {r q : CmdRef} {code : Nat} {s u : State} {y : AtOnce} (h : takeOnce r code s = some (y, u)) : slotOf q u = slotOf q s := by
  obtain ⟨o, rfl⟩ := takeOnce_some h
  rfl

/-- Settles O37, row by row: each end is `finish` of the command's slot, after what stops its work below. -/
theorem commandsEndOnce : Obligations.CommandsEndOnce := by
  unfold Obligations.CommandsEndOnce
  refine fun r s => ⟨fun h o => commandComplete_late h o, fun x h => ⟨commandIncomplete_ends h, commandTimeout_ends h, fun hs o => ?_, forwardResend_fails h, forwardResend_again h⟩,
    fun y u ht hl hz => ?_⟩
  · refine gives_of_leaves (leaves_commandComplete r o s) (commandComplete_run h hs o) ?_
    have ended := finish_ended h rfl rfl (outcomeEnd o).1 (outcomeEnd o).2.1 (outcomeEnd o).2.2
    cases o <;> exact ended
  · have hrun := abortCmd_run ht hl hz
    refine ⟨fun hn => ?_, fun x hx => ⟨fun hp => ?_, fun hp => ?_⟩⟩
    · rw [slotOf_takeOnce ht, hn] at hrun
      exact hrun
    · rw [slotOf_takeOnce ht, hx] at hrun
      exact hrun.trans (congrArg Host.Outcome.next (if_pos hp))
    · have hu := (slotOf_takeOnce (q := { sess := r.sess, tag := BitVec.ofNat 16 (sliceNat 0 2 y.data) }) ht).trans hx
      rw [hu] at hrun
      dsimp only at hrun
      rw [if_neg (by simp [hp])] at hrun
      exact gives_of_leaves (leaves_abortCmd r s) hrun (ended_of_talked
        (finish_ended ((slotOf_congr (cancelLower_mbx _ _ u) _).trans hu) rfl rfl _ _ _) (talked_sendReply _ _ _ _ _))

end Sys2Proof.Proofs
end

section
/-! SUPPORT. Sessions (R358, R359, R366). -/

namespace Sys2Proof.Proofs
open Sys2Proof.Machine Sys2Proof.Safety Sys2Proof.Laws
set_option Elab.async false

/-! ## Closing a session (R359) -/

/-- A session once it is closed: the commands received run on, unanswered. -/
def shutSess (x : Session) : Session := { Session.reset with slots := x.slots.map fun y => { y with car := .foreign } }

theorem closeSess_eq (i : Fin 5) (s : State) :
    closeSess i s = withOnce ((modSess i shutSess s).mbx.once.filter fun x => x.ref.sess != i || x.code = 1) (modSess i shutSess s) := rfl

theorem sessOf_closeSess_same {r : CmdRef} {i : Fin 5} (h : r.sess = i) (s : State) : sessOf r (closeSess i s) = shutSess (sessOf r s) :=
  sessOf_modSess_same h shutSess s

theorem sessOf_closeSess_other {r : CmdRef} {i : Fin 5} (h : r.sess ≠ i) (s : State) : sessOf r (closeSess i s) = sessOf r s :=
  sessOf_modSess_other h shutSess s

theorem closeSess_out (i : Fin 5) (s : State) : (closeSess i s).mbx.out = s.mbx.out := modSess_out i shutSess s

theorem ofNat5_val (n : Fin 4) : (Fin.ofNat 5 n.val).val = n.val := Nat.mod_eq_of_lt (by omega)

theorem modSess_host (n : Fin 4) (f : Session → Session) (s : State) : (modSess (Fin.ofNat 5 n.val) f s).mbx.sess = s.mbx.sess.set n (f s.mbx.sess[n]) := by
  have hv := ofNat5_val n
  unfold modSess
  rw [dif_pos (by omega)]
  simp only [hv]
  rfl

theorem sessOf_host (n : Fin 4) (tag : BitVec 16) (s : State) : sessOf { sess := Fin.ofNat 5 n.val, tag := tag } s = s.mbx.sess[n] := by
  have hv := ofNat5_val n
  unfold sessOf
  rw [dif_pos (by show (Fin.ofNat 5 n.val).val < 4; omega)]
  simp only [hv]
  rfl

theorem closeSess_host (n : Fin 4) (s : State) : (closeSess (Fin.ofNat 5 n.val) s).mbx.sess = s.mbx.sess.set n (shutSess s.mbx.sess[n]) :=
  modSess_host n shutSess s

theorem sessionOpenTimeout_gives {n : Fin 4} {s : State} (h : s.mbx.sess[n].st = .opening) (he : elapsed 5000 s.mbx.sess[n].openedAt s = true) :
    Gives (.sessionOpenTimeout n) s [.mbx] fun t => t.mbx.sess = s.mbx.sess.set n (shutSess s.mbx.sess[n]) ∧ t.mbx.out = s.mbx.out :=
  gives_of_leaves (leaves_sessionOpenTimeout n s) (congrArg Host.Outcome.next (if_pos (by rw [h, he]; rfl))) ⟨closeSess_host n s, closeSess_out _ s⟩

theorem sessionIdleTimeout_gives {n : Fin 4} {s : State} (h : s.mbx.sess[n].st = .opened) (he : elapsed 60000 s.mbx.sess[n].lastAt s = true) :
    Gives (.sessionIdleTimeout n) s [.mbx] fun t => t.mbx.sess = s.mbx.sess.set n (shutSess s.mbx.sess[n]) ∧ t.mbx.out = s.mbx.out :=
  gives_of_leaves (leaves_sessionIdleTimeout n s) (congrArg Host.Outcome.next (if_pos (by rw [h, he]; rfl))) ⟨closeSess_host n s, closeSess_out _ s⟩

/-! ## The mailbox station is lost (R359) -/

/-- A session of the ring's freight that is not closed closes. -/
def closeFreight (s : State) (i : Fin 5) : State :=
  let x := sessOf { sess := i, tag := 0 } s
  if x.freight && x.st != .closed then closeSess i s else s

/-- A session as a lost mailbox station leaves it. -/
def afterLost (x : Session) : Session := if x.freight = true ∧ x.st ≠ .closed then shutSess x else x

theorem sessOf_closeFreight_same (i : Fin 5) (s : State) : sessOf { sess := i, tag := 0 } (closeFreight s i) = afterLost (sessOf { sess := i, tag := 0 } s) := by
  unfold closeFreight afterLost
  simp only [Bool.and_eq_true, bne_iff_ne]
  split
  · exact sessOf_closeSess_same rfl s
  · rfl

theorem sessOf_closeFreight_other {i j : Fin 5} (h : j ≠ i) (s : State) :
    sessOf { sess := j, tag := 0 } (closeFreight s i) = sessOf { sess := j, tag := 0 } s := by
  unfold closeFreight
  dsimp only
  split
  · exact sessOf_closeSess_other h s
  · rfl

theorem sessOf_foldl_closeFreight {j : Fin 5} (l : List (Fin 5)) (hl : l.Nodup) (s : State) :
    sessOf { sess := j, tag := 0 } (l.foldl closeFreight s) =
      if j ∈ l then afterLost (sessOf { sess := j, tag := 0 } s) else sessOf { sess := j, tag := 0 } s := by
  induction l generalizing s with
  | nil => rfl
  | cons i l ih =>
    obtain ⟨hi, hl⟩ := List.nodup_cons.1 hl
    rw [List.foldl_cons, ih hl]
    by_cases h : j = i
    · subst h
      rw [if_neg hi, if_pos (List.mem_cons_self ..), sessOf_closeFreight_same]
    · rw [sessOf_closeFreight_other h]
      simp only [List.mem_cons, h, false_or]

theorem sessionStationLost_gives {s : State} (h : mailboxLost s = true) : Gives .sessionStationLost s [.mbx] fun t => ∀ n : Fin 4, t.mbx.sess[n] =
    if s.mbx.sess[n].freight = true ∧ s.mbx.sess[n].st ≠ .closed then shutSess s.mbx.sess[n] else s.mbx.sess[n] := by
  refine gives_of_leaves (leaves_sessionStationLost s) (t := ([0, 1, 2, 3] : List (Fin 5)).foldl closeFreight s) (congrArg Host.Outcome.next (if_neg (by simp [h])))
    fun n => ?_
  have mem : ∀ n : Fin 4, Fin.ofNat 5 n.val ∈ ([0, 1, 2, 3] : List (Fin 5)) := by decide
  have closed := sessOf_foldl_closeFreight (j := Fin.ofNat 5 n.val) [0, 1, 2, 3] (by decide) s
  rw [sessOf_host, sessOf_host, if_pos (mem n)] at closed
  exact closed

/-! ## KEEPALIVE and CLOSE -/

theorem keepalive_run {r : CmdRef} {y : AtOnce} {s u : State} (h : takeOnce r 3 s = some (y, u)) :
    exec (.keepalive r) s = .next (sendReply r.sess y.car (bare r.tag 3 (if y.data.isEmpty then .ok else .badParam) 0) true u) := by
  show execKeepalive r s = _
  unfold execKeepalive
  rw [h]
  dsimp only
  split <;> rfl

theorem closeSession_gives {r : CmdRef} {y : AtOnce} {s u : State} (h : takeOnce r 2 s = some (y, u)) (hd : y.data = []) :
    Gives (.closeSession r) s [.sync, .mbx] fun t =>
      sessOf r t = shutSess (sessOf r s) ∧ t.mbx.out = (sendReply r.sess y.car (bare r.tag 2 .ok 0) true s).mbx.out := by
  obtain ⟨o, rfl⟩ := takeOnce_some h
  have hrun : exec (.closeSession r) s = .next (closeSess r.sess (sendReply r.sess y.car (bare r.tag 2 .ok 0) true (withOnce o s))) := by
    show execCloseSession r s = _
    unfold execCloseSession
    rw [h]
    exact congrArg Host.Outcome.next (if_neg (by simp [hd]))
  refine gives_of_leaves (leaves_closeSession r s) hrun ⟨?_, ?_⟩
  · rw [sessOf_closeSess_same rfl, (talked_sendReply _ _ _ _ _).sess]
    rfl
  · rw [closeSess_out, sendReply_withOnce]
    rfl

/-! ## OPEN (R358, R366, R499) -/

theorem freeSess_withOnce (o : List AtOnce) (s : State) : freeSess (withOnce o s) = freeSess s := rfl
theorem openKey_withOnce (i : Nat) (o : List AtOnce) (s : State) : openKey i (withOnce o s) = openKey i s := rfl

/-- The session that OPEN begins, with the key `k` of entry `idx`, the host's nonce `nh` and the module's. -/
def openedAs (y : AtOnce) (idx : Nat) (k : List Byte) (rights : BitVec 5) (i : Fin 5) (s : State) (x : Session) : Session :=
  { Session.reset with
    st := .opening, freight := onFreight y.car, key := Fin.ofNat 16 idx, useFkey := !entryInUse (keyEntry idx s), rights := rights
    ks := hmac k ((y.data.drop 4).take 16 ++ leBytes 16 (Config.nonce s.freeCtr).toNat ++ [BitVec.ofNat 8 i.val]), openedAt := s.cyc.tb, lastAt := s.cyc.tb
    slots := x.slots }

/-- The data of OPEN's reply. -/
def openReply (y : AtOnce) (k : List Byte) (i : Fin 5) (s : State) : List Byte :=
  [BitVec.ofNat 8 i.val, 0, 0, 0] ++ leBytes 16 (Config.nonce s.freeCtr).toNat ++
    (hmac k (leBytes 16 (Config.nonce s.freeCtr).toNat ++ (y.data.drop 4).take 16)).take 16

theorem openSession_badIndex {r : CmdRef} {y : AtOnce} {s u : State} (h : takeOnce r 1 s = some (y, u)) (hi : 16 ≤ (y.data.getD 0 0).toNat) :
    exec (.openSession r) s = .next (sendOpen y.car r.tag .badParam 0 [] u) := by
  show execOpenSession r s = _
  unfold execOpenSession
  rw [h]
  exact congrArg Host.Outcome.next (if_pos hi)

theorem openSession_checked {r : CmdRef} {y : AtOnce} {s u : State} (h : takeOnce r 1 s = some (y, u)) (hi : (y.data.getD 0 0).toNat < 16)
    (hz : sliceNat 1 3 y.data = 0) :
    exec (.openSession r) s = .next (match openKey (y.data.getD 0 0).toNat u, freeSess u with
      | none, _ => sendOpen y.car r.tag .denied 0 [] u
      | some _, none => sendOpen y.car r.tag .busy 0 [] (countMbx .busy u)
      | some (k, rights), some i =>
        sendOpen y.car r.tag .ok 0 (openReply y k i u) (modSess i (openedAs y (y.data.getD 0 0).toNat k rights i u) (nextFree u).2)) := by
  show execOpenSession r s = _
  unfold execOpenSession
  rw [h]
  exact congrArg Host.Outcome.next ((if_neg (by omega)).trans ((if_neg (by simp [hz])).trans rfl))

theorem openSession_opens {r : CmdRef} {y : AtOnce} {s u : State} (h : takeOnce r 1 s = some (y, u)) {k : List Byte} {rights : BitVec 5} {i : Fin 4}
    (hi : (y.data.getD 0 0).toNat < 16) (hz : sliceNat 1 3 y.data = 0) (hk : openKey (y.data.getD 0 0).toNat s = some (k, rights))
    (hf : freeSess s = some (Fin.ofNat 5 i.val)) :
    Gives (.openSession r) s [.sync, .mbx, .freeCtr] fun t =>
      t.mbx.sess = s.mbx.sess.set i (openedAs y (y.data.getD 0 0).toNat k rights (Fin.ofNat 5 i.val) s s.mbx.sess[i]) ∧
        t.mbx.out = (sendOpen y.car r.tag .ok 0 (openReply y k (Fin.ofNat 5 i.val) s) s).mbx.out := by
  obtain ⟨o, rfl⟩ := takeOnce_some h
  have hrun := openSession_checked h hi hz
  rw [openKey_withOnce, freeSess_withOnce, hk, hf] at hrun
  refine gives_of_leaves ((leaves_openSession r s).mono (by decide)) hrun ⟨modSess_host i _ _, ?_⟩
  show (modSess (Fin.ofNat 5 i.val) _ _).mbx.out ++ _ = _
  rw [modSess_out]
  rfl

/-- Settles O38, row by row. -/
theorem sessionsOpenAndClose : Obligations.SessionsOpenAndClose := by
  unfold Obligations.SessionsOpenAndClose
  refine fun r s => ⟨fun y u h => ⟨openSession_badIndex h, fun hi hz hk => ?_, fun k rights i hi hz hk hf => ?_⟩, fun y u h => keepalive_run h,
    fun y u h hd => closeSession_gives h hd, fun n h he => sessionOpenTimeout_gives h he, fun n h he => sessionIdleTimeout_gives h he,
    fun h => sessionStationLost_gives h⟩
  · have hrun := openSession_checked h hi hz
    obtain ⟨o, rfl⟩ := takeOnce_some h
    rw [openKey_withOnce, hk] at hrun
    exact hrun
  · obtain ⟨t, he, only, sess, out⟩ := openSession_opens h hi hz hk hf
    have at_i : t.mbx.sess[i] = openedAs y (y.data.getD 0 0).toNat k rights (Fin.ofNat 5 i.val) s s.mbx.sess[i] := by
      rw [sess]
      exact Vector.getElem_set_self _
    refine ⟨t, he, only, ?_⟩
    dsimp only
    rw [at_i, sess, out]
    have hv := ofNat5_val i
    refine ⟨rfl, rfl, Nat.mod_eq_of_lt hi, ?_, rfl, rfl, rfl, fun j hj => Vector.getElem_set_ne _ _ (fun e => hj (Fin.ext e.symm)), ?_⟩
    · unfold openedAs
      rw [hv, List.append_assoc]
    · unfold openReply
      rw [hv]

end Sys2Proof.Proofs
end

section
/-! SUPPORT. Transports and datagrams (R354 to R365). -/

namespace Sys2Proof.Proofs
open Sys2Proof.Machine Sys2Proof.Safety Sys2Proof.Laws
set_option Elab.async false

/-! ## Answers of the transports (R354, R355) -/

theorem arpRequest_run {s : State} (h : x6On s = true) (ip : Word) :
    exec (.arpRequest ip) s = .next (if ip = s.mbx.ip then { s with mbx := { s.mbx with out := s.mbx.out ++ [.arp ip] } } else countMbx .foreign s) := by
  refine congrArg Host.Outcome.next ((if_neg (by simp [h])).trans ?_)
  by_cases hi : ip = s.mbx.ip
  · rw [if_pos (beq_iff_eq.2 hi), if_pos hi]
  · rw [if_neg (fun e => hi (beq_iff_eq.1 e)), if_neg hi]

theorem icmpEcho_run {s : State} (h : x6On s = true) (ip : Word) (p : List Byte) :
    exec (.icmpEcho ip p) s = .next { s with mbx := { s.mbx with out := s.mbx.out ++ [.echo ip p] } } :=
  congrArg Host.Outcome.next (if_pos h)

theorem fragmentTimeout_run {s : State} {id : BitVec 16} (h : ∃ f ∈ s.mbx.frags, f.id = id ∧ elapsed 100 f.at_ s = true) :
    exec (.fragmentTimeout id) s = .next (countMbx .foreign { s with mbx := { s.mbx with frags := s.mbx.frags.filter fun f => f.id != id } }) := by
  obtain ⟨f, hf, hi, he⟩ := h
  exact congrArg Host.Outcome.next (if_pos (List.any_eq_true.2 ⟨f, hf, by rw [hi, he]; simp⟩))

/-! ## Host datagrams (R360, R361, R365) -/

/-- A transport that takes host datagrams is on, and the datagram fits it. -/
def Reaches (car : Carrier) (b : List Byte) (s : State) : Prop :=
  (∃ ip port, car = .x6 ip port) ∧ x6On s = true ∧ b.length ≤ 4144 ∨ car = .freight ∧ s.mbx.frt = true ∧ pdOn .stew s = true

theorem datagramReceive_host {car : Carrier} {b : List Byte} {s : State} (h : Reaches car b s) :
    exec (.datagramReceive car b) s = .next (hostDatagram car b s) := by
  rcases h with ⟨⟨ip, port, rfl⟩, hx, hl⟩ | ⟨rfl, hf, hp⟩
  · exact congrArg Host.Outcome.next ((if_neg (by simp [hx])).trans (if_neg (by omega)))
  · exact congrArg Host.Outcome.next (if_pos (by rw [hf, hp]; rfl))

/-- A datagram of a host's session that fails its authentication. -/
def unauthentic (x : Session) (b : List Byte) : Bool := x.st == .closed || b.length < 48 || !macOk x.ks b || !sseqOk x (sliceNat 4 4 b)

theorem hostDatagram_session {n : Fin 4} {b : List Byte} (h : sliceNat 3 1 b = n.val) (car : Carrier) (s : State) :
    hostDatagram car b s =
      if unauthentic s.mbx.sess[n] b then authFail s
      else takeDg (Fin.ofNat 5 n.val) car b 16 (fun c => c.rights &&& s.mbx.sess[n].rights == c.rights)
        (modSess (Fin.ofNat 5 n.val) (sessAccept (sliceNat 4 4 b) s.cyc.tb) s) := by
  have hb : n.val < 4 := n.isLt
  unfold hostDatagram
  simp only [h]
  rw [if_neg (by omega), dif_pos hb]
  rfl

theorem unauthentic_true {x : Session} {b : List Byte}
    (h : x.st = .closed ∨ b.length < 48 ∨ macOk x.ks b = false ∨ sseqOk x (sliceNat 4 4 b) = false) : unauthentic x b = true := by
  rcases h with h | h | h | h <;> simp [unauthentic, h]

theorem unauthentic_false {x : Session} {b : List Byte} (h1 : x.st ≠ .closed) (h2 : 48 ≤ b.length) (h3 : macOk x.ks b = true)
    (h4 : sseqOk x (sliceNat 4 4 b) = true) : unauthentic x b = false := by
  simp [unauthentic, h1, h2, h3, h4]

/-- The slot that the first block of a command opens. -/
def openedSlot (car : Carrier) (d : Dg) (s : State) : Slot :=
  { tag := d.tag, code := BitVec.ofNat 16 d.code, length := d.length, timeout := d.timeout, partner := decide (d.flags % 2 = 1), got := [(d.offset, d.data)]
    received := false, recvAt := s.cyc.tb, started := false, wait := .none, tries := 0, donePages := 0, car := car }

/-- The session once that slot stands in it. -/
def withSlot (x : Slot) (y : Session) : Session := { y with slots := y.slots ++ [x] }

theorem takeBlock_opens {i : Fin 5} {car : Carrier} {d : Dg} {s : State} (h : slotOf { sess := i, tag := d.tag } s = none)
    (hl : (sessOf { sess := i, tag := d.tag } s).slots.length < 32) :
    takeBlock i car d s =
      let u := modSess i (withSlot (openedSlot car d s)) s
      if slotWhole (openedSlot car d s) then slotReceived { sess := i, tag := d.tag } u else u := by
  unfold takeBlock
  dsimp only
  rw [h]
  exact if_neg (by omega)

theorem withSlot_slot {r : CmdRef} {x : Slot} {s : State} (h : slotOf r s = none) (hx : x.tag = r.tag) : slotOf r (modSess r.sess (withSlot x) s) = some x := by
  unfold slotOf
  rw [sessOf_modSess_same rfl]
  show ((sessOf r s).slots ++ [x]).find? _ = _
  rw [List.find?_append, show (sessOf r s).slots.find? _ = none from h, Option.none_or, List.find?_cons_of_pos (by simp [hx])]

/-- The Steward's core takes MAILBOX; a command with no TIMEOUT and not for the partner only waits for its start. -/
theorem slotReceived_waits {r : CmdRef} {x : Slot} {s : State} (h : slotOf r s = some x) (ht : x.timeout = 0) (hp : x.partner = false) :
    slotReceived r s = raiseIrq stewCore 4 (modSlot r (fun y => { y with received := true, recvAt := s.cyc.tb }) s) := by
  unfold slotReceived
  rw [h]
  dsimp only
  rw [if_neg (by simp [ht]), if_neg (by simp [hp])]

/-- Checks 3 to 7 passed by a command that opens a slot. -/
theorem takeDg_opens {i : Fin 5} {car : Carrier} {b : List Byte} {mac : Nat} {allowed : CodeInfo → Bool} {c : CodeInfo} {s : State}
    (h3 : check3 b mac = none) (h4 : check4 (parseDg b) (blockSize car s) none = none) (hn : slotOf { sess := i, tag := (parseDg b).tag } s = none)
    (hc : (sessOf { sess := i, tag := (parseDg b).tag } s).cache.find? (fun y => y.tag == (parseDg b).tag) = none) (hk : codeInfo (parseDg b).code = some c)
    (ha : allowed c = true) (hz : (parseDg b).code / 256 ≠ 0) : takeDg i car b mac allowed s = takeBlock i car (parseDg b) s := by
  unfold takeDg
  dsimp only
  rw [h3, hn, h4, hc, hk]
  dsimp only
  have h1 : (parseDg b).code ≠ 1 := fun e => hz (by rw [e])
  rw [if_neg (by simp [ha, h1]), if_neg hz]

theorem parseDg_data_length {b : List Byte} {mac : Nat} (h : check3 b mac = none) : (parseDg b).data.length = (parseDg b).blen := by
  have hb : 32 + sliceNat 28 2 b + mac = b.length := by
    unfold check3 at h
    split at h
    · exact absurd h (by simp)
    split at h
    · exact absurd h (by simp)
    split at h
    · exact absurd h (by simp)
    split at h
    · exact absurd h (by simp)
    split at h
    · exact absurd h (by simp)
    next hn => exact not_ne_iff.1 hn
  show ((b.drop 32).take (sliceNat 28 2 b)).length = sliceNat 28 2 b
  rw [List.length_take, List.length_drop]
  omega

/-- The state with the slot of a command's first block open. -/
def slotOpened (r : CmdRef) (car : Carrier) (d : Dg) (s : State) : State :=
  let u := modSess r.sess (withSlot (openedSlot car d s)) s
  if slotWhole (openedSlot car d s) then slotReceived r u else u

/-- What the first block of a command leaves: a slot, received when the block is the whole of it. -/
theorem slotOpened_slot {r : CmdRef} {car : Carrier} {d : Dg} {s : State} (h : slotOf r s = none) (ht : d.tag = r.tag) (hl : d.data.length = d.blen)
    (hf : d.flags % 2 = 0) (hw : d.blen < d.length ∨ d.timeout = 0) :
    slotOf r (slotOpened r car d s) = some { openedSlot car d s with received := decide (d.length ≤ d.blen) } ∧ (slotOpened r car d s).mbx.out = s.mbx.out ∧
      { sessOf r (slotOpened r car d s) with slots := [] } = { sessOf r s with slots := [] } := by
  have slot := withSlot_slot (x := openedSlot car d s) h ht
  have sess : { sessOf r (modSess r.sess (withSlot (openedSlot car d s)) s) with slots := [] } = { sessOf r s with slots := [] } := by
    rw [sessOf_modSess_same rfl]
    rfl
  have whole : slotWhole (openedSlot car d s) = decide (d.length ≤ d.blen) := by
    unfold slotWhole openedSlot
    rw [← hl]
    simp
  unfold slotOpened
  rw [whole]
  by_cases hd : d.length ≤ d.blen
  · rw [if_pos (decide_eq_true hd), slotReceived_waits slot (by show d.timeout = 0; omega) (by show decide _ = false; simp [hf]), decide_eq_true hd]
    have mbx (u : State) : (raiseIrq stewCore 4 u).mbx = u.mbx := rfl
    refine ⟨?_, ?_, ?_⟩
    · rw [slotOf_congr (mbx _), slotOf_modSlot_some (f := fun y => { y with received := true, recvAt := _ }) (fun _ => rfl) slot, modSess_cyc]
      rfl
    · rw [mbx]
      exact (modSess_out _ _ _).trans (modSess_out _ _ _)
    · rw [sessOf_congr (mbx _), sessOf_modSlot]
      exact sess
  · rw [if_neg (by simp [hd]), decide_eq_false hd]
    exact ⟨slot, modSess_out _ _ _, sess⟩

/-! ## The partner's replies (R357) -/

theorem syncHeard_mbx (m : SyncHdr) (s : State) : (syncHeard m s).mbx = s.mbx :=
  (kept_syncHeard (ps0 := [.hsb, .sync, .ps, .freeCtr]) m s kept_refl (List.Subset.refl _)).only .mbx (by decide)

theorem waiting_congr {s t : State} (h : t.mbx = s.mbx) (w : Wait) : waiting w t = waiting w s := by
  unfold waiting
  simp only [sessOf_congr h]

theorem syncHeard_pdOn (m : SyncHdr) (pd : Pd) (s : State) : pdOn pd (syncHeard m s) = pdOn pd s := by
  have e : (syncHeard m s).boot = s.boot := (kept_syncHeard (ps0 := [.hsb, .sync, .ps, .freeCtr]) m s kept_refl (List.Subset.refl _)).only .boot (by decide)
  unfold pdOn
  rw [e]

/-- The slot of a forwarded command once a block of the final reply has arrived. -/
def finalBlock (d : Dg) (x : Slot) : Slot :=
  let got := if x.donePages = 0 then [] else x.got
  { x with tries := 4, donePages := 1, length := d.length, got := if got.any (fun g => g.1 == d.offset) then got else got ++ [(d.offset, d.data)] }

/-- A reply of the partner, valid and for a command that waits for it. -/
theorem mailbox_run {m : SyncHdr} {b : List Byte} {s : State} (hp : paired s = true) (hv : syncValid m 0x0B b s = true) (hs : pdOn .stew s = true)
    (hl : 32 ≤ b.length) (hr : 128 ≤ sliceNat 9 1 b) : exec (.mailbox m b) s = .next (partnerReply b (syncHeard m s)) := by
  refine congrArg Host.Outcome.next ((syncGet_valid _ hp hv).trans ((if_pos ((syncHeard_pdOn m .stew s).trans hs)).trans ?_))
  exact (if_neg (by omega)).trans (if_pos hr)

theorem kept_mailboxReply (m : SyncHdr) (b : List Byte) (s : State) : Kept [.hsb, .sync, .mbx, .ps, .freeCtr] s (partnerReply b (syncHeard m s)) :=
  kept_partnerReply _ _ (kept_syncHeard _ _ kept_refl (by decide)) (by decide)

theorem partnerReply_pending {b : List Byte} {r : CmdRef} {x : Slot} {s : State} (hw : (waiting .partner s).find? (fun q => q.tag == (parseDg b).tag) = some r)
    (hx : slotOf r s = some x) (hf : sliceNat 20 2 b % 2 = 0) : slotOf r (partnerReply b s) = some { x with tries := 4 } := by
  unfold partnerReply
  dsimp only
  rw [hw]
  dsimp only
  rw [if_pos hf]
  exact slotOf_modSlot_some (fun _ => rfl) hx

theorem partnerReply_whole {b : List Byte} {r : CmdRef} {x : Slot} {s : State} (hw : (waiting .partner s).find? (fun q => q.tag == (parseDg b).tag) = some r)
    (hx : slotOf r s = some x) (hf : sliceNat 20 2 b % 2 = 1) (hd : x.donePages = 0) (hl : (parseDg b).length ≤ (parseDg b).data.length) :
    slotOf r (partnerReply b s) = none := by
  unfold partnerReply
  dsimp only
  rw [hw]
  dsimp only
  have slot := slotOf_modSlot_some (f := finalBlock (parseDg b)) (fun _ => rfl) hx
  have whole : slotWhole (finalBlock (parseDg b) x) = true := by
    unfold finalBlock slotWhole
    rw [hd]
    simpa using hl
  show slotOf r (if sliceNat 20 2 b % 2 = 0 then _ else match slotOf r (modSlot r (finalBlock (parseDg b)) s) with | some x => _ | none => _) = none
  rw [if_neg (by omega), slot]
  dsimp only
  rw [if_pos whole]
  exact finishCode_slot_none slot _ _ _

/-! ## O39 -/

theorem datagramReceive_opens {car : Carrier} {b : List Byte} {n : Fin 4} {c : CodeInfo} {s : State} (hr : Reaches car b s) (hn : sliceNat 3 1 b = n.val)
    (ha : unauthentic s.mbx.sess[n] b = false) (h3 : check3 b 16 = none) (h4 : check4 (parseDg b) (blockSize car s) none = none)
    (hk : codeInfo (parseDg b).code = some c) (hc : c.rights &&& s.mbx.sess[n].rights = c.rights) (hz : (parseDg b).code / 256 ≠ 0)
    (hcache : s.mbx.sess[n].cache.find? (fun y => y.tag == (parseDg b).tag) = none) (hs : slotOf { sess := Fin.ofNat 5 n.val, tag := (parseDg b).tag } s = none)
    (hl : s.mbx.sess[n].slots.length < 32) (hf : (parseDg b).flags % 2 = 0) (hw : (parseDg b).blen < (parseDg b).length ∨ (parseDg b).timeout = 0) :
    Gives (.datagramReceive car b) s [.cores, .sync, .mbx, .log] fun t => t.mbx.sess[n].st = .opened ∧ t.mbx.sess[n].lastAt = s.cyc.tb ∧ t.mbx.out = s.mbx.out ∧
      slotOf { sess := Fin.ofNat 5 n.val, tag := (parseDg b).tag } t =
        some { openedSlot car (parseDg b) s with received := decide ((parseDg b).length ≤ (parseDg b).blen), partner := false } := by
  let r : CmdRef := { sess := Fin.ofNat 5 n.val, tag := (parseDg b).tag }
  let u := modSess r.sess (sessAccept (sliceNat 4 4 b) s.cyc.tb) s
  have su : sessOf r u = sessAccept (sliceNat 4 4 b) s.cyc.tb s.mbx.sess[n] := (sessOf_modSess_same rfl _ s).trans (congrArg _ (sessOf_host n _ s))
  have slotu : slotOf r u = none := (slotOf_eq_of_slots (by rw [su, show sessOf r s = _ from sessOf_host n _ s]; rfl)).trans hs
  have bs : blockSize car u = blockSize car s := by
    have e : u.ring = s.ring := modSess_ring _ _ s
    unfold blockSize fsizeBytes
    rw [e]
  have tbu : u.cyc = s.cyc := modSess_cyc _ _ s
  have hrun : exec (.datagramReceive car b) s = .next (slotOpened r car (parseDg b) u) := by
    have taken : takeDg r.sess car b 16 (fun c => c.rights &&& s.mbx.sess[n].rights == c.rights) u = takeBlock r.sess car (parseDg b) u :=
      takeDg_opens (c := c) h3 (bs ▸ h4) slotu (by rw [show sessOf _ _ = _ from su]; exact hcache) hk (beq_iff_eq.2 hc) hz
    rw [datagramReceive_host hr, hostDatagram_session hn, if_neg (by rw [ha]; exact Bool.false_ne_true)]
    exact congrArg Host.Outcome.next (taken.trans (takeBlock_opens slotu (by rw [show sessOf _ _ = _ from su]; exact hl)))
  obtain ⟨slot, out, rest⟩ := slotOpened_slot (r := r) (car := car) slotu rfl (parseDg_data_length h3) hf hw
  have sess := (sessOf_host n (parseDg b).tag (slotOpened r car (parseDg b) u)).symm
  have st := congrArg Session.st rest
  have last := congrArg Session.lastAt rest
  rw [su] at st last
  refine gives_of_leaves (leaves_datagramReceive car b s) hrun ⟨?_, ?_, out.trans (modSess_out _ _ s), ?_⟩
  · rw [sess]
    exact st
  · rw [sess]
    exact last
  · refine slot.trans ?_
    unfold openedSlot
    rw [tbu, show decide ((parseDg b).flags % 2 = 1) = false by simp [hf]]

/-- Settles O39, row by row. -/
theorem datagramsAreCheckedAndTaken : Obligations.DatagramsAreCheckedAndTaken := by
  unfold Obligations.DatagramsAreCheckedAndTaken
  refine fun s => ⟨fun h ip p => ⟨arpRequest_run h ip, icmpEcho_run h ip p⟩, fun id h => fragmentTimeout_run h,
    fun h ip port b hl => congrArg Host.Outcome.next ((if_neg (by simp [h])).trans (if_pos hl)), fun h b => congrArg Host.Outcome.next (if_pos h),
    fun car b n hr hn => ⟨fun h => ?_, fun h1 h2 h3 h4 c k3 k4 hk hc hz hcache hs hl hf hw => ?_⟩, fun m b r x hp hv hst hl hr hw hx => ⟨fun hf => ?_, fun hf hd hlen => ?_⟩⟩
  · rw [datagramReceive_host hr, hostDatagram_session hn, if_pos (unauthentic_true h)]
    rfl
  · exact datagramReceive_opens hr hn (unauthentic_false h1 h2 h3 h4) k3 k4 hk hc hz hcache hs hl hf hw
  · refine ⟨_, mailbox_run hp hv hst hl hr, (kept_mailboxReply m b s).only, partnerReply_pending ?_ ((slotOf_congr (syncHeard_mbx m s) r).trans hx) hf⟩
    rw [waiting_congr (syncHeard_mbx m s)]
    exact hw
  · refine ⟨_, mailbox_run hp hv hst hl hr, (kept_mailboxReply m b s).only, partnerReply_whole ?_ ((slotOf_congr (syncHeard_mbx m s) r).trans hx) hf hd hlen⟩
    rw [waiting_congr (syncHeard_mbx m s)]
    exact hw

end Sys2Proof.Proofs
end

section
/-! SUPPORT. A command with two parts: a restart that ends its own online change (R60, R392). -/

namespace Sys2Proof.Proofs
open Sys2Proof.Machine Sys2Proof.Safety Sys2Proof.Laws
set_option Elab.async false

/-! ## A command that asks for a restart and for the online change that the restart ends (R60, R392) -/

/-- The command. -/
def twiceRef : CmdRef := { sess := 0, tag := 1 }

/-- Its slot: RESTART of pair 0, received and not started. -/
def restartSlot : Slot where
  tag := 1
  code := 0x0204
  length := 4
  timeout := 0
  partner := false
  got := [(0, [0, 0, 0, 0])]
  received := true
  recvAt := 0
  started := false
  wait := .none
  tries := 0
  donePages := 0
  car := .sync

/-- Pair 0 runs with an online change in PENDING that the command stands for as well. -/
def twiceAsked : State :=
  { State.reset with
    arb := { State.reset.arb with oper := .run }
    doms := State.reset.doms.set 0 { State.reset.doms[0] with image := some default, run := true, change := { Change.reset with dim := .pending, cmd := some twiceRef } }
    mbx := { State.reset.mbx with sess := State.reset.mbx.sess.set 0 { Session.reset with slots := [restartSlot] } } }

/-- The status with which a command has ended. -/
def statusOf (r : CmdRef) (m : Meaning) : Option (BitVec 16) := match m with
  | .next t => (sessOf r t).cache.head?.map (·.status)
  | _ => none

/-- Refutes O41: the restart ends the change first, so that the command that both belong to has ended REFUSED before the restart's own OK. -/
theorem not_commandsOperateTheModule : ¬ Obligations.CommandsOperateTheModule := by
  unfold Obligations.CommandsOperateTheModule
  intro h
  obtain ⟨-, -, -, restart, -⟩ := h twiceRef restartSlot twiceAsked
  have waits : Waits twiceRef 0x0204 restartSlot twiceAsked :=
    ⟨by decide +kernel, rfl, ⟨rfl, rfl⟩, rfl, fun e => absurd e (by decide +kernel)⟩
  obtain ⟨-, may⟩ := restart 0 waits (by decide +kernel) (by decide +kernel) (by decide +kernel) (by decide +kernel)
  obtain ⟨-, -, effect⟩ := may (.inl (by decide))
  obtain ⟨t, he, -, ⟨-, reply⟩, -⟩ := effect (by decide +kernel) (by decide +kernel) (by decide)
  have ok : statusOf twiceRef (exec (.restartCmd twiceRef) twiceAsked) = some Status.ok.code := by
    rw [he]
    exact congrArg (Option.map (·.status)) (reply (by decide))
  have refused : statusOf twiceRef (exec (.restartCmd twiceRef) twiceAsked) = some Status.refused.code := by decide +kernel
  exact absurd (ok.symm.trans refused) (by decide)

end Sys2Proof.Proofs
end

section
/-! SUPPORT. The clock commands of the mailboxes (R437). -/

namespace Sys2Proof.Proofs
open Sys2Proof.Machine Sys2Proof.Safety Sys2Proof.Laws
set_option Elab.async false

/-! ## Commands that run and end at once (R363, R370) -/

theorem begun_mbx (r : CmdRef) (s : State) : ∃ m, begun r s = { s with mbx := m } := ⟨_, begun_rest r s⟩

theorem runSized_waits {r : CmdRef} {code n : Nat} {x : Slot} {s : State} (h : Waits r code x s) (hl : (slotData x).length = n) (f : List Byte → State → State) :
    runSized r code n f s = f (slotData x) (begun r s) := by
  unfold runSized
  rw [runCmd_waits h]
  exact if_neg (not_not.2 hl)

/-- A command whose work leaves the mailboxes alone and then ends it. -/
theorem gives_ended {i : Instr} {ps : List Part} {r : CmdRef} {x : Slot} {s t : State} {st : Status} {detail : Nat} {data : List Byte} (hl : Leaves ps s (exec i s))
    (hx : slotOf r s = some x) (he : exec i s = .next (finish r st detail data t)) (hm : t.mbx = (begun r s).mbx) : Gives i s ps (Ended r x st detail data) :=
  gives_of_leaves hl he (begun_ended hx hm st detail data)

/-- The same, with a fact about what its work leaves. -/
theorem gives_ended_and {i : Instr} {ps : List Part} {r : CmdRef} {x : Slot} {s t : State} {st : Status} {detail : Nat} {data : List Byte} {q : State → Prop}
    (hl : Leaves ps s (exec i s)) (hx : slotOf r s = some x) (he : exec i s = .next (finish r st detail data t)) (hm : t.mbx = (begun r s).mbx)
    (hq : q (finish r st detail data t)) : Gives i s ps fun t => Ended r x st detail data t ∧ q t :=
  gives_of_leaves hl he ⟨begun_ended hx hm st detail data, hq⟩

/-- An end changes the sessions and what was sent, and nothing else of the state. -/
theorem finish_only (r : CmdRef) (st : Status) (detail : Nat) (data : List Byte) (s : State) : Kept [.sync, .mbx] s (finish r st detail data s) :=
  kept_finish r st detail data s kept_refl (List.Subset.refl _)

theorem finish_rtc (r : CmdRef) (st : Status) (detail : Nat) (data : List Byte) (s : State) : (finish r st detail data s).rtc = s.rtc :=
  (finish_only r st detail data s).only .rtc (by decide)

theorem begun_rtc (r : CmdRef) (s : State) : (begun r s).rtc = s.rtc := (kept_begun r s).only .rtc (by decide)

/-! ## RTC_SET (R437) -/

/-- The clock with SET's two registers staged. -/
def staged (time date : Word) (s : State) : State := { s with rtc := { s.rtc with stime := time, sdate := date } }

theorem rtcWr_staged (d : List Byte) (s : State) :
    rtcWr 0x1C (BitVec.ofNat 32 (sliceNat 4 4 d)) (rtcWr 0x18 (BitVec.ofNat 32 (sliceNat 0 4 d)) s) =
      staged (BitVec.ofNat 32 (sliceNat 0 4 d) &&& 0x003F7F7F) (BitVec.ofNat 32 (sliceNat 4 4 d) &&& 0xFFFF3F3F) s := rfl

/-- The log entry of a shift or step that a set cancels. -/
def overridden (s : State) : State :=
  if s.rtc.shift.isSome || s.rtc.step.isSome then addLog .setOverride (bitOf s.rtc.shift.isSome) (bitOf s.rtc.step.isSome) s else s

theorem rtcSet_run {r : CmdRef} {x : Slot} {s : State} (h : Waits r 0x0802 x s) (hl : (slotData x).length = 8) :
    let t := staged (BitVec.ofNat 32 (sliceNat 0 4 (slotData x)) &&& 0x003F7F7F) (BitVec.ofNat 32 (sliceNat 4 4 (slotData x)) &&& 0xFFFF3F3F) (begun r s)
    exec (.rtcSet r) s = .next (if calImpossible t.rtc.stime t.rtc.sdate then finishRefused r 0 "BADDATE" (rtcLoadOp t) else finish r .ok 0 [] (rtcLoadOp (overridden t))) :=
  congrArg Host.Outcome.next (runSized_waits h hl _)

theorem rtcLoadOp_mbx (s : State) : (rtcLoadOp s).mbx = s.mbx :=
  (kept_rtcLoadOp (ps0 := [.cores, .rtc]) s kept_refl (List.Subset.refl _)).only .mbx (by decide)

theorem rtcLoadOp_log (s : State) : (rtcLoadOp s).log = s.log :=
  (kept_rtcLoadOp (ps0 := [.cores, .rtc]) s kept_refl (List.Subset.refl _)).only .log (by decide)

/-- A load of an impossible time only sets the error. -/
theorem rtcLoadOp_impossible {time date : Word} {s : State} (h : calImpossible time date = true) :
    (rtcLoadOp (staged time date s)).rtc = { s.rtc with stime := time, sdate := date, err := Sys2Proof.Machine.setBit s.rtc.err 0 true } :=
  congrArg State.rtc (if_pos (by exact h) : rtcLoadOp (staged time date s) = rtcErr 0 (staged time date s))

/-- What a load of a possible time leaves: the staged time, and neither shift nor step. -/
theorem rtcLoadOp_possible {s : State} (h : calImpossible s.rtc.stime s.rtc.sdate = false) :
    (rtcLoadOp s).rtc.time = calTime (calOf s.rtc.stime s.rtc.sdate) ∧ (rtcLoadOp s).rtc.date = calDate (calOf s.rtc.stime s.rtc.sdate) ∧
      (rtcLoadOp s).rtc.bin = BitVec.ofNat 40 (calSeconds (calOf s.rtc.stime s.rtc.sdate)) ∧ (rtcLoadOp s).rtc.shift = none ∧ (rtcLoadOp s).rtc.step = none := by
  unfold rtcLoadOp
  dsimp only
  rw [if_neg (by rw [h]; exact Bool.false_ne_true)]
  obtain ⟨e, a, hr, -⟩ := onlyAlarms_almCompare (some s.rtc.bin) { s with rtc := { s.rtc with
    time := calTime (calOf s.rtc.stime s.rtc.sdate), date := calDate (calOf s.rtc.stime s.rtc.sdate), bin := BitVec.ofNat 40 (calSeconds (calOf s.rtc.stime s.rtc.sdate))
    frac := 0, acc := 0, bvalid := true, nvalid := true, lost := false, shift := none, step := none, dst := s.rtc.sdate.getLsbD 13 } }
  rw [hr]
  exact ⟨rfl, rfl, rfl, rfl, rfl⟩

/-- The state with another log. -/
def withLog (l : List LogEntry) (s : State) : State := { s with log := l }

/-- The state with another clock. -/
def withRtc (x : Rtc) (s : State) : State := { s with rtc := x }

theorem overridden_only (s : State) : ∃ l, overridden s = withLog l s ∧ ((s.rtc.shift ≠ none ∨ s.rtc.step ≠ none) → ∃ e ∈ l, e.kind = .setOverride) := by
  unfold overridden
  split
  next h => exact ⟨_, rfl, fun _ => ⟨_, List.mem_append_right _ (List.mem_singleton_self _), rfl⟩⟩
  next h =>
    refine ⟨s.log, rfl, fun hs => absurd h (not_not.2 ?_)⟩
    rw [Bool.or_eq_true, Option.isSome_iff_ne_none, Option.isSome_iff_ne_none]
    exact hs

theorem rtcSet_impossible {r : CmdRef} {x : Slot} {s : State} (h : Waits r 0x0802 x s) (hl : (slotData x).length = 8) {time date : Word}
    (ht : BitVec.ofNat 32 (sliceNat 0 4 (slotData x)) &&& 0x003F7F7F = time) (hd : BitVec.ofNat 32 (sliceNat 4 4 (slotData x)) &&& 0xFFFF3F3F = date)
    (hc : calImpossible time date = true) :
    Gives (.rtcSet r) s [.cores, .sync, .mbx, .rtc, .log] fun t => Ended r x .refused 0 (Config.textOf "BADDATE") t ∧
      t.rtc = { s.rtc with stime := time, sdate := date, err := Sys2Proof.Machine.setBit s.rtc.err 0 true } := by
  subst ht hd
  have hrun := rtcSet_run h hl
  dsimp only at hrun
  rw [if_pos (by exact hc)] at hrun
  have mbx : (rtcLoadOp (staged (BitVec.ofNat 32 (sliceNat 0 4 (slotData x)) &&& 0x003F7F7F) (BitVec.ofNat 32 (sliceNat 4 4 (slotData x)) &&& 0xFFFF3F3F)
      (begun r s))).mbx = (begun r s).mbx := rtcLoadOp_mbx _
  refine gives_ended_and (leaves_rtcSet r s) h.slot hrun mbx ((finish_rtc _ _ _ _ _).trans ?_)
  rw [rtcLoadOp_impossible hc, begun_rtc]

theorem rtcSet_possible {r : CmdRef} {x : Slot} {s : State} (h : Waits r 0x0802 x s) (hl : (slotData x).length = 8) {time date : Word}
    (ht : BitVec.ofNat 32 (sliceNat 0 4 (slotData x)) &&& 0x003F7F7F = time) (hd : BitVec.ofNat 32 (sliceNat 4 4 (slotData x)) &&& 0xFFFF3F3F = date)
    (hc : calImpossible time date = false) :
    Gives (.rtcSet r) s [.cores, .sync, .mbx, .rtc, .log] fun t => Ended r x .ok 0 [] t ∧ t.rtc.time = calTime (calOf time date) ∧
      t.rtc.date = calDate (calOf time date) ∧ t.rtc.bin = BitVec.ofNat 40 (calSeconds (calOf time date)) ∧ t.rtc.shift = none ∧ t.rtc.step = none ∧
      ((s.rtc.shift ≠ none ∨ s.rtc.step ≠ none) → ∃ e ∈ t.log, e.kind = .setOverride) := by
  subst ht hd
  have hrun := rtcSet_run h hl
  dsimp only at hrun
  rw [if_neg (by exact fun e => Bool.noConfusion (hc.symm.trans e))] at hrun
  obtain ⟨l, ho, hlog⟩ := overridden_only (staged (BitVec.ofNat 32 (sliceNat 0 4 (slotData x)) &&& 0x003F7F7F) (BitVec.ofNat 32 (sliceNat 4 4 (slotData x)) &&& 0xFFFF3F3F) (begun r s))
  rw [ho] at hrun
  obtain ⟨h1, h2, h3, h4, h5⟩ := rtcLoadOp_possible (s := withLog l (staged _ _ (begun r s))) hc
  have mbx : (rtcLoadOp (withLog l (staged (BitVec.ofNat 32 (sliceNat 0 4 (slotData x)) &&& 0x003F7F7F) (BitVec.ofNat 32 (sliceNat 4 4 (slotData x)) &&& 0xFFFF3F3F)
      (begun r s)))).mbx = (begun r s).mbx := rtcLoadOp_mbx _
  refine gives_ended_and (leaves_rtcSet r s) h.slot hrun mbx ?_
  have log (u : State) : (finish r .ok 0 [] (rtcLoadOp (withLog l u))).log = l := ((finish_only _ _ _ _ _).only .log (by decide)).trans (rtcLoadOp_log _)
  rw [finish_rtc, log]
  refine ⟨h1, h2, h3, h4, h5, fun hs => hlog ?_⟩
  show (begun r s).rtc.shift ≠ none ∨ (begun r s).rtc.step ≠ none
  rw [begun_rtc]
  exact hs

/-! ## RTC_SHIFT and RTC_DST (R437) -/

/-- A clock command refused by name leaves the clock. -/
theorem gives_refused {i : Instr} {ps : List Part} {r : CmdRef} {x : Slot} {s : State} (name : String) (hl : Leaves ps s (exec i s)) (hx : slotOf r s = some x)
    (he : exec i s = .next (finishRefused r 0 name (begun r s))) : Gives i s ps fun t => Ended r x .refused 0 (Config.textOf name) t ∧ t.rtc = s.rtc :=
  gives_ended_and hl hx he rfl ((finish_rtc _ _ _ _ _).trans (begun_rtc r s))

theorem rtcShift_run {r : CmdRef} {x : Slot} {s : State} (h : Waits r 0x0803 x s) (hl : (slotData x).length = 4) (h0 : BitVec.ofNat 16 (sliceNat 0 2 (slotData x)) ≠ 0)
    (h8 : BitVec.ofNat 16 (sliceNat 0 2 (slotData x)) ≠ 0x8000) (hz : sliceNat 2 2 (slotData x) = 0) :
    exec (.rtcShift r) s = .next (if s.rtc.shift.isSome then finishRefused r 0 "SHIFT_PENDING" (begun r s)
      else if !s.rtc.nvalid then finishRefused r 0 "CLOCK_INVALID" (begun r s)
      else finish r .ok 0 [] (rtcShiftOp (BitVec.ofNat 16 (sliceNat 0 2 (slotData x))) (begun r s))) := by
  refine congrArg Host.Outcome.next ((runSized_waits h hl _).trans ?_)
  dsimp only
  rw [if_neg (by simpa using ⟨h0, h8⟩), if_neg (not_not.2 hz), begun_rtc]

theorem rtcDst_run {r : CmdRef} {x : Slot} {s : State} (h : Waits r 0x0804 x s) (hl : (slotData x).length = 4)
    (hw : sliceNat 0 1 (slotData x) = 1 ∨ sliceNat 0 1 (slotData x) = 2) (hz : sliceNat 1 3 (slotData x) = 0) :
    exec (.rtcDst r) s = .next (if s.rtc.step.isSome then finishRefused r 0 "DST_PENDING" (begun r s)
      else if !s.rtc.bvalid then finishRefused r 0 (if s.rtc.dst == (sliceNat 0 1 (slotData x) == 1) then "DST_STATE" else "CLOCK_INVALID") (begun r s)
      else match dstRefusal (sliceNat 0 1 (slotData x) == 1) s with
        | some 5 => finishRefused r 0 "DST_STATE" (begun r s)
        | some 3 => finishRefused r 0 "RANGE" (begun r s)
        | _ => finish r .ok 0 [] (rtcDstOp (sliceNat 0 1 (slotData x)) (begun r s))) := by
  refine congrArg Host.Outcome.next ((runSized_waits h hl _).trans ?_)
  dsimp only
  have same : dstRefusal (sliceNat 0 1 (slotData x) == 1) (begun r s) = dstRefusal (sliceNat 0 1 (slotData x) == 1) s := by
    unfold dstRefusal
    rw [begun_rtc]
  (rw [if_neg (by rcases hw with hw | hw <;> simp [hw]), if_neg (not_not.2 hz), begun_rtc, same]) <;> rfl

theorem rtcDst_steps {r : CmdRef} {x : Slot} {s : State} (h : Waits r 0x0804 x s) (hl : (slotData x).length = 4)
    (hw : sliceNat 0 1 (slotData x) = 1 ∨ sliceNat 0 1 (slotData x) = 2) (hz : sliceNat 1 3 (slotData x) = 0) (hb : s.rtc.bvalid = true)
    (hr : dstRefusal (sliceNat 0 1 (slotData x) == 1) s = none) :
    Gives (.rtcDst r) s [.sync, .mbx, .rtc] fun t => Ended r x .ok 0 [] t ∧ t.rtc = { s.rtc with step := some (sliceNat 0 1 (slotData x) == 1) } := by
  have hs : s.rtc.step.isSome = false := by
    unfold dstRefusal at hr
    by_contra hs
    simp [Bool.eq_true_of_not_eq_false hs] at hr
  have same : dstRefusal (sliceNat 0 1 (slotData x) == 1) (begun r s) = none := by
    unfold dstRefusal at hr ⊢
    rw [begun_rtc]
    exact hr
  have op : rtcDstOp (sliceNat 0 1 (slotData x)) (begun r s) = withRtc { (begun r s).rtc with step := some (sliceNat 0 1 (slotData x) == 1) } (begun r s) := by
    unfold rtcDstOp
    rw [if_neg (by rcases hw with hw | hw <;> simp [hw]), if_neg (by rcases hw with hw | hw <;> simp [hw]), same]
    rfl
  have hrun := rtcDst_run h hl hw hz
  rw [if_neg (by rw [hs]; exact Bool.false_ne_true), if_neg (by simp [hb]), hr] at hrun
  dsimp only at hrun
  rw [op] at hrun
  refine gives_ended_and (leaves_rtcDst r s) h.slot hrun rfl ((finish_rtc _ _ _ _ _).trans ?_)
  rw [← begun_rtc r s]
  rfl

/-- Settles O43, row by row. -/
theorem clockCommandsAreCheckedFirst : Obligations.ClockCommandsAreCheckedFirst := by
  unfold Obligations.ClockCommandsAreCheckedFirst
  refine fun r x s => ⟨fun h hl => ⟨rtcSet_impossible h hl rfl rfl, rtcSet_possible h hl rfl rfl⟩, fun h hl h0 h8 hz => ?_, fun h hl hw hz => ⟨fun hs => ?_, fun hs hb hd => ?_,
    rtcDst_steps h hl hw hz⟩⟩
  · have hrun := rtcShift_run h hl h0 h8 hz
    refine ⟨fun hs => ?_, fun hs hn => ?_, fun hs hn => ?_⟩
    · rw [if_pos (Option.isSome_iff_ne_none.2 hs)] at hrun
      exact gives_refused _ (leaves_rtcShift r s) h.slot hrun
    · rw [if_neg (by simp [hs]), if_pos (by simp [hn])] at hrun
      exact gives_refused _ (leaves_rtcShift r s) h.slot hrun
    · have op : rtcShiftOp (BitVec.ofNat 16 (sliceNat 0 2 (slotData x))) (begun r s) =
          withRtc { (begun r s).rtc with shift := some (BitVec.ofNat 16 (sliceNat 0 2 (slotData x))) } (begun r s) := by
        unfold rtcShiftOp
        rw [if_neg (by simpa using ⟨h0, h8⟩), if_neg (by simp [begun_rtc, hs])]
        rfl
      rw [if_neg (by simp [hs]), if_neg (by simp [hn]), op] at hrun
      refine gives_ended_and (leaves_rtcShift r s) h.slot hrun rfl ((finish_rtc _ _ _ _ _).trans ?_)
      rw [← begun_rtc r s]
      rfl
  · have hrun := rtcDst_run h hl hw hz
    rw [if_pos (Option.isSome_iff_ne_none.2 hs)] at hrun
    exact gives_refused _ (leaves_rtcDst r s) h.slot hrun
  · have hrun := rtcDst_run h hl hw hz
    have refusal : dstRefusal (sliceNat 0 1 (slotData x) == 1) s = some 5 := by
      unfold dstRefusal
      dsimp only
      rw [if_neg (by simp [hs, hb]), if_pos (beq_iff_eq.2 hd)]
    rw [if_neg (by simp [hs]), if_neg (by simp [hb]), refusal] at hrun
    exact gives_refused _ (leaves_rtcDst r s) h.slot hrun

end Sys2Proof.Proofs
end

section
/-! SUPPORT. Reading registers and memory for a command (R22, R28, R312, R368). -/

namespace Sys2Proof.Proofs
open Sys2Proof.Machine Sys2Proof.Safety Sys2Proof.Laws
set_option Elab.async false

/-! ## Replies from the registers (R368) -/

theorem ident_ends {r : CmdRef} {x : Slot} {s : State} (h : Waits r 0x0101 x s) (hd : slotData x = []) :
    Gives (.ident r) s [.sync, .mbx] (Ended r x .ok 0 (identData s)) := by
  have same : identData (begun r s) = identData s := by
    obtain ⟨m, hm⟩ := begun_mbx r s
    rw [hm]
    rfl
  rw [← same]
  exact gives_ended (leaves_ident r s) h.slot (congrArg Host.Outcome.next (runSized_waits h (congrArg List.length hd) _)) rfl

theorem statusCmd_ends {r : CmdRef} {x : Slot} {s : State} (h : Waits r 0x0102 x s) (hd : slotData x = []) :
    Gives (.statusCmd r) s [.sync, .mbx] (Ended r x .ok 0 (statusData s)) := by
  have same : statusData (begun r s) = statusData s := by
    obtain ⟨m, hm⟩ := begun_mbx r s
    rw [hm]
    rfl
  rw [← same]
  exact gives_ended (leaves_statusCmd r s) h.slot (congrArg Host.Outcome.next (runSized_waits h (congrArg List.length hd) _)) rfl

theorem supRead_ends {r : CmdRef} {x : Slot} {s : State} (h : Waits r 0x0901 x s) (hd : slotData x = []) :
    Gives (.supRead r) s [.sync, .mbx] (Ended r x .ok 0 (supData s)) := by
  have same : supData (begun r s) = supData s := by
    obtain ⟨m, hm⟩ := begun_mbx r s
    rw [hm]
    rfl
  rw [← same]
  exact gives_ended (leaves_supRead r s) h.slot (congrArg Host.Outcome.next (runSized_waits h (congrArg List.length hd) _)) rfl

theorem stewRead_mbx (a : Nat) (s : State) : (stewRead a s).mbx = s.mbx :=
  (kept_stewRead (ps0 := [.cyc, .memRegs, .rtm, .rtc, .dbg, .bus]) a s kept_refl (List.Subset.refl _)).only .mbx (by decide)

theorem readRegs_one (a : Nat) (s : State) :
    readRegs 1 a s = if (stewRead a s).bus.resp = .noPath then (none, stewRead a s) else (some (leBytes 4 (stewRead a s).bus.val.toNat), stewRead a s) := by
  have one (u : State) : (if u.bus.resp = .noPath then (none, u) else ((readRegs 0 (a + 4) u).1.map fun bs => wordBytes u.bus.val ++ bs, (readRegs 0 (a + 4) u).2)) =
      if u.bus.resp = .noPath then (none, u) else (some (leBytes 4 u.bus.val.toNat), u) := by
    split
    · rfl
    · exact congrArg (fun bs => (some bs, u)) (List.append_nil _)
  exact one (stewRead a s)

/-- READ_REG of one register. -/
theorem readReg_run {r : CmdRef} {x : Slot} {s : State} (h : Waits r 0x0103 x s) (hl : (slotData x).length = 8) (ha : sliceNat 0 4 (slotData x) % 4 = 0)
    (hn : sliceNat 4 2 (slotData x) = 1) (hz : sliceNat 6 2 (slotData x) = 0) :
    let v := stewRead (sliceNat 0 4 (slotData x)) (begun r s)
    exec (.readReg r) s = .next (if v.bus.resp = .noPath then finish r .noPath 0 [] v else finish r .ok 0 (leBytes 4 v.bus.val.toNat) v) := by
  refine congrArg Host.Outcome.next ((runSized_waits h hl _).trans ?_)
  dsimp only
  rw [if_neg (not_not.2 ha), hn, if_neg (by decide), if_neg (not_not.2 hz), readRegs_one]
  by_cases hp : (stewRead (sliceNat 0 4 (slotData x)) (begun r s)).bus.resp = .noPath
  · simp only [if_pos hp]
  · simp only [if_neg hp]

theorem readReg_noPath {r : CmdRef} {x : Slot} {s : State} (h : Waits r 0x0103 x s) (hl : (slotData x).length = 8) (ha : sliceNat 0 4 (slotData x) % 4 = 0)
    (hn : sliceNat 4 2 (slotData x) = 1) (hz : sliceNat 6 2 (slotData x) = 0) (hv : (stewRead (sliceNat 0 4 (slotData x)) (begun r s)).bus.resp = .noPath) :
    Gives (.readReg r) s [.cyc, .memRegs, .rtm, .sync, .mbx, .rtc, .dbg, .bus] (Ended r x .noPath 0 []) := by
  have hrun := readReg_run h hl ha hn hz
  dsimp only at hrun
  rw [if_pos hv] at hrun
  exact gives_ended (leaves_readReg r s) h.slot hrun (stewRead_mbx _ _)

theorem readReg_value {r : CmdRef} {x : Slot} {s : State} (h : Waits r 0x0103 x s) (hl : (slotData x).length = 8) (ha : sliceNat 0 4 (slotData x) % 4 = 0)
    (hn : sliceNat 4 2 (slotData x) = 1) (hz : sliceNat 6 2 (slotData x) = 0) (hv : (stewRead (sliceNat 0 4 (slotData x)) (begun r s)).bus.resp ≠ .noPath) :
    Gives (.readReg r) s [.cyc, .memRegs, .rtm, .sync, .mbx, .rtc, .dbg, .bus]
      (Ended r x .ok 0 (leBytes 4 (stewRead (sliceNat 0 4 (slotData x)) (begun r s)).bus.val.toNat)) := by
  have hrun := readReg_run h hl ha hn hz
  dsimp only at hrun
  rw [if_neg hv] at hrun
  exact gives_ended (leaves_readReg r s) h.slot hrun (stewRead_mbx _ _)

/-! ## Memory without errors, as the Steward reads it (R22, R317) -/

/-- The state with other registers of the memory block. -/
def withMemRegs (m : MemRegs) (s : State) : State := { s with memRegs := m }

theorem extErased_reset {s : State} (h : s.memErrs = .reset) (line : Nat) : (extErased line s).length ≤ 1 := by
  have one : ∀ v : BitVec 3, (([1, 2, 3, 4, 5] : List Nat).filter fun d => v.toNat == d || ([] : List (Nat × Nat)).contains (line, d)).length ≤ 1 := by
    simp only [List.contains_nil, Bool.or_false]
    decide
  unfold extErased
  rw [h]
  exact one s.memRegs.faildev

theorem extDecode_reset {s : State} (h : s.memErrs = .reset) (who line : Nat) : ∃ m, extDecode who line s = (true, withMemRegs m s) := by
  have err : extErr line s = (0, 0) := by
    unfold extErr
    rw [h]
    rfl
  unfold extDecode
  dsimp only
  rw [err]
  have few := extErased_reset h line
  rw [if_neg (by simp only [ite_self]; omega), if_pos rfl]
  exact ⟨_, rfl⟩

theorem checkWord_reset {s : State} (h : s.memErrs = .reset) (who code w : Nat) : checkWord who code w s = (none, false, s) := by
  have clean : poisoned code w s = false ∧ wordFlips code w s = 0 := by
    unfold poisoned wordFlips
    rw [h]
    exact ⟨rfl, rfl⟩
  obtain ⟨hp, hf⟩ := clean
  unfold checkWord
  rw [if_neg (by rw [hp]; exact Bool.false_ne_true), hf]
  rfl

theorem stewWord_reset {s : State} (h : s.memErrs = .reset) (code off n : Nat) : ∃ m, stewWord code off n s = (readBytes code off n s, withMemRegs m s) := by
  unfold stewWord
  by_cases hc : code = 6
  · obtain ⟨m, hm⟩ := extDecode_reset h 10 (off / 128)
    simp only [if_pos hc, hm]
    exact ⟨m, rfl⟩
  · simp only [if_neg hc, checkWord_reset h]
    exact ⟨s.memRegs, rfl⟩

theorem readBytes_zero (code off : Nat) (s : State) : readBytes code off 0 s = [] := rfl

theorem readBytes_add (code off a b : Nat) (s : State) : readBytes code off (a + b) s = readBytes code off a s ++ readBytes code (off + a) b s := by
  unfold readBytes
  rw [List.range_add, List.map_append, List.map_map]
  congr 1
  refine List.map_congr_left fun i _ => ?_
  show readByte code (off + (a + i)) s = readByte code (off + a + i) s
  rw [Nat.add_assoc]

/-- The bytes that the Steward takes with one access of a memory. -/
def stewStep (code : Nat) : Nat := if code = 6 then 128 else 8

theorem stewBytes_nothing (code fuel off : Nat) (s : State) : stewBytes code fuel off 0 s = ([], s) := by
  cases fuel <;> rfl

/-- One access, then the rest of the range. -/
theorem stewBytes_step (code fuel off : Nat) {n : Nat} (hn : n ≠ 0) (s : State) :
    stewBytes code (fuel + 1) off n s =
      let k := min n (stewStep code - off % stewStep code)
      ((stewWord code off k s).1 ++ (stewBytes code fuel (off + k) (n - k) (stewWord code off k s).2).1,
        (stewBytes code fuel (off + k) (n - k) (stewWord code off k s).2).2) :=
  if_neg hn

/-- Word by word, or line by line, the Steward reads the bytes of the range. -/
theorem stewBytes_reset (code fuel off n : Nat) {s : State} (h : s.memErrs = .reset) (hf : off % stewStep code + n ≤ stewStep code * fuel) :
    ∃ m, stewBytes code fuel off n s = (readBytes code off n s, withMemRegs m s) := by
  have pos : 0 < stewStep code := by
    unfold stewStep
    split <;> decide
  induction fuel generalizing off n s with
  | zero =>
    obtain rfl : n = 0 := by omega
    exact ⟨s.memRegs, rfl⟩
  | succ fuel ih =>
    by_cases hn : n = 0
    · subst hn
      exact ⟨s.memRegs, rfl⟩
    · rw [stewBytes_step code fuel off hn]
      rcases Nat.le_total n (stewStep code - off % stewStep code) with hle | hle
      · obtain ⟨m, hm⟩ := stewWord_reset h code off n
        simp only [Nat.min_eq_left hle, hm, Nat.sub_self, stewBytes_nothing, List.append_nil]
        exact ⟨m, rfl⟩
      · obtain ⟨m, hm⟩ := stewWord_reset h code off (stewStep code - off % stewStep code)
        have lt := Nat.mod_lt off pos
        have aligned : (off + (stewStep code - off % stewStep code)) % stewStep code = 0 := by
          have whole := Nat.div_add_mod off (stewStep code)
          rw [show off + (stewStep code - off % stewStep code) = stewStep code * (off / stewStep code + 1) by rw [Nat.mul_add]; omega]
          exact Nat.mul_mod_right _ _
        rw [Nat.mul_succ] at hf
        obtain ⟨m', hm'⟩ := ih (off + (stewStep code - off % stewStep code)) (n - (stewStep code - off % stewStep code)) (s := withMemRegs m s) h (by omega)
        simp only [Nat.min_eq_right hle, hm, hm']
        refine ⟨m', Prod.ext ?_ rfl⟩
        obtain ⟨b, rfl⟩ := Nat.exists_eq_add_of_le hle
        rw [readBytes_add, Nat.add_sub_cancel_left]
        rfl

/-! ## READ_MEM (R22, R28, R312) -/

/-- The bytes reach into the key area. -/
def keyRange (code off n : Nat) : Prop := (1 ≤ code ∧ code ≤ 3) ∧ ((off < 0x1000000 ∧ 0xFFC000 < off + n) ∨ (off < 0xF74000 ∧ 0xF70000 < off + n))

theorem readMem_noPath {code off n : Nat} (h : keyRange code off n ∨ memSize code < off + n) (r : CmdRef) (s : State) :
    readMem r code off n s = finish r .noPath 0 [] (countAf .steward s) := by
  refine if_pos ?_
  unfold keyRange at h
  simpa [and_assoc] using h

/-- Past those refusals the memory decides. -/
theorem readMem_some {code off n : Nat} (hk : ¬keyRange code off n) (hs : off + n ≤ memSize code) (hn : 0 < n) (r : CmdRef) (s : State) :
    readMem r code off n s =
      if !pdOn (wherePd (memPlace code off)) s then finish r .ok 0 (List.replicate n 0) (countAf .steward s)
      else if (rangeBanks code off n).any fun b => s.banks[b] != .active then notStarted r ((rangeBanks code off n).foldl (fun s b => wakeBank b s) s)
      else finish r .ok 0 (stewBytes code (n / 8 + 2) off n s).1 (stewBytes code (n / 8 + 2) off n s).2 := by
  unfold readMem
  dsimp only
  rw [if_neg, if_neg (by omega)]
  unfold keyRange at hk
  simp only [Bool.or_eq_true, decide_eq_true_eq, Bool.and_eq_true]
  rintro (⟨hc, ho⟩ | hl)
  · exact hk ⟨hc, ho⟩
  · omega

theorem readMem_run {r : CmdRef} {x : Slot} {s : State} (h : Waits r 0x0104 x s) (hl : (slotData x).length = 16) (hc : sliceNat 0 1 (slotData x) ≤ 6)
    (hz : sliceNat 1 3 (slotData x) = 0) (hn : sliceNat 12 4 (slotData x) ≤ 65536) :
    exec (.readMem r) s = .next (readMem r (sliceNat 0 1 (slotData x)) (sliceNat 4 8 (slotData x)) (sliceNat 12 4 (slotData x)) (begun r s)) := by
  refine congrArg Host.Outcome.next ((runSized_waits h hl _).trans ?_)
  rw [if_neg (by omega), if_neg (not_not.2 hz), if_neg (by omega)]

theorem foldl_wakeBank_mbx (bs : List (Fin 33)) (s : State) : (bs.foldl (fun s b => wakeBank b s) s).mbx = s.mbx := by
  induction bs generalizing s with
  | nil => rfl
  | cons b bs ih => exact (ih _).trans ((kept_wakeBank (ps0 := [.memRegs, .banks]) b s kept_refl (List.Subset.refl _)).only .mbx (by decide))

theorem kept_foldl_wakeBank (bs : List (Fin 33)) {ps : List Part} {r0 s : State} (h : Kept ps r0 s) (hk : [.memRegs, .banks] ⊆ ps) :
    Kept ps r0 (bs.foldl (fun s b => wakeBank b s) s) := by
  induction bs generalizing s with
  | nil => exact h
  | cons b bs ih => exact ih (kept_wakeBank b s h hk)

/-- A command that has to start again stands as it stood. -/
theorem notStarted_slot {r : CmdRef} {code : Nat} {x : Slot} {s t : State} (h : Waits r code x s) (e : t.mbx = (begun r s).mbx) :
    slotOf r (notStarted r t) = some x := by
  refine (slotOf_modSlot_some (f := fun y => { y with started := false, wait := .none }) (fun _ => rfl) ((slotOf_congr e r).trans (begun_slot h.slot))).trans ?_
  obtain ⟨hf, hw⟩ := h.fresh
  cases x
  subst hf hw
  rfl

theorem begun_pdOn (r : CmdRef) (p : Pd) (s : State) : pdOn p (begun r s) = pdOn p s := by
  obtain ⟨m, hm⟩ := begun_mbx r s
  rw [hm]
  rfl

theorem begun_banks (r : CmdRef) (s : State) : (begun r s).banks = s.banks := (kept_begun r s).only .banks (by decide)

/-- The parts that READ_MEM may touch. -/
def readMemParts : List Part := [.cores, .doms, .memRegs, .memErrs, .banks, .voter, .hsb, .sync, .fg, .mbx, .ps, .boot, .arb, .log, .freeCtr]

section
variable {r : CmdRef} {x : Slot} {s : State} (h : Waits r 0x0104 x s) (hl : (slotData x).length = 16) (hc : sliceNat 0 1 (slotData x) ≤ 6)
  (hz : sliceNat 1 3 (slotData x) = 0) (hm : sliceNat 12 4 (slotData x) ≤ 65536)
include h hl hc hz hm

theorem readMem_refused (hk : keyRange (sliceNat 0 1 (slotData x)) (sliceNat 4 8 (slotData x)) (sliceNat 12 4 (slotData x)) ∨
      memSize (sliceNat 0 1 (slotData x)) < sliceNat 4 8 (slotData x) + sliceNat 12 4 (slotData x)) :
    Gives (.readMem r) s readMemParts (Ended r x .noPath 0 []) := by
  have hrun := readMem_run h hl hc hz hm
  rw [readMem_noPath hk] at hrun
  exact gives_ended (leaves_readMem r s) h.slot hrun rfl

variable (hk : ¬keyRange (sliceNat 0 1 (slotData x)) (sliceNat 4 8 (slotData x)) (sliceNat 12 4 (slotData x)))
  (hs : sliceNat 4 8 (slotData x) + sliceNat 12 4 (slotData x) ≤ memSize (sliceNat 0 1 (slotData x))) (hn : 0 < sliceNat 12 4 (slotData x))
include hk hs hn

theorem readMem_off (hp : pdOn (wherePd (memPlace (sliceNat 0 1 (slotData x)) (sliceNat 4 8 (slotData x)))) s = false) :
    Gives (.readMem r) s readMemParts (Ended r x .ok 0 (List.replicate (sliceNat 12 4 (slotData x)) 0)) := by
  have hrun := readMem_run h hl hc hz hm
  rw [readMem_some hk hs hn, begun_pdOn, if_pos (by rw [hp]; rfl)] at hrun
  exact gives_ended (leaves_readMem r s) h.slot hrun rfl

theorem readMem_asleep (hp : pdOn (wherePd (memPlace (sliceNat 0 1 (slotData x)) (sliceNat 4 8 (slotData x)))) s = true)
    (hb : ∃ b ∈ rangeBanks (sliceNat 0 1 (slotData x)) (sliceNat 4 8 (slotData x)) (sliceNat 12 4 (slotData x)), s.banks[b] ≠ .active) :
    Gives (.readMem r) s [.mbx, .memRegs, .banks] fun t => slotOf r t = some x := by
  have hrun := readMem_run h hl hc hz hm
  obtain ⟨b, hb, ha⟩ := hb
  rw [readMem_some hk hs hn, begun_pdOn, if_neg (by simp [hp]), if_pos (by rw [begun_banks]; exact List.any_eq_true.2 ⟨b, hb, bne_iff_ne.2 ha⟩)] at hrun
  exact ⟨_, hrun, (kept_notStarted r _ (kept_foldl_wakeBank _ (kept_mono (kept_begun r s) (by decide)) (by decide)) (by decide)).only,
    notStarted_slot h (foldl_wakeBank_mbx _ _)⟩

theorem readMem_bytes (hp : pdOn (wherePd (memPlace (sliceNat 0 1 (slotData x)) (sliceNat 4 8 (slotData x)))) s = true)
    (hb : ∀ b ∈ rangeBanks (sliceNat 0 1 (slotData x)) (sliceNat 4 8 (slotData x)) (sliceNat 12 4 (slotData x)), s.banks[b] = .active) (he : s.memErrs = .reset) :
    Gives (.readMem r) s readMemParts (Ended r x .ok 0 (readBytes (sliceNat 0 1 (slotData x)) (sliceNat 4 8 (slotData x)) (sliceNat 12 4 (slotData x)) s)) := by
  have hrun := readMem_run h hl hc hz hm
  have awake : ¬((rangeBanks (sliceNat 0 1 (slotData x)) (sliceNat 4 8 (slotData x)) (sliceNat 12 4 (slotData x))).any fun b => s.banks[b] != .active) = true := by
    intro hany
    obtain ⟨b, hmem, hne⟩ := List.any_eq_true.1 hany
    exact bne_iff_ne.1 hne (hb b hmem)
  have errs : (begun r s).memErrs = .reset := ((kept_begun r s).only .memErrs (by decide)).trans he
  obtain ⟨m, hbytes⟩ := stewBytes_reset (sliceNat 0 1 (slotData x)) (sliceNat 12 4 (slotData x) / 8 + 2) (sliceNat 4 8 (slotData x)) (sliceNat 12 4 (slotData x)) errs (by
    unfold stewStep
    split <;> omega)
  rw [readMem_some hk hs hn, begun_pdOn, if_neg (by simp [hp]), begun_banks, if_neg awake, hbytes] at hrun
  have same : readBytes (sliceNat 0 1 (slotData x)) (sliceNat 4 8 (slotData x)) (sliceNat 12 4 (slotData x)) (begun r s) =
      readBytes (sliceNat 0 1 (slotData x)) (sliceNat 4 8 (slotData x)) (sliceNat 12 4 (slotData x)) s := by
    obtain ⟨b, hb⟩ := begun_mbx r s
    rw [hb]
    rfl
  rw [← same]
  exact gives_ended (leaves_readMem r s) h.slot hrun rfl

end

end Sys2Proof.Proofs
end

section
/-! SUPPORT. Commands that read the clock, the configuration and the Archive (R332, R368, R437). -/

namespace Sys2Proof.Proofs
open Sys2Proof.Machine Sys2Proof.Safety Sys2Proof.Laws
set_option Elab.async false

/-! ## RTC_READ (R436, R437) -/

/-- From `s` to `t` the clock's shadows changed, its domain stays on, and no mailbox changed. -/
structure ShadowsOnly (s t : State) : Prop where
  rtc : t.rtc = { s.rtc with shadow := t.rtc.shadow }
  boot : t.boot = s.boot
  mbx : t.mbx = s.mbx

theorem ShadowsOnly.trans {s t u : State} (h1 : ShadowsOnly s t) (h2 : ShadowsOnly t u) : ShadowsOnly s u :=
  ⟨by rw [h2.rtc, h1.rtc], h2.boot.trans h1.boot, h2.mbx.trans h1.mbx⟩

theorem ShadowsOnly.pdOn {s t : State} (h : ShadowsOnly s t) (p : Pd) : Sys2Proof.Machine.pdOn p t = Sys2Proof.Machine.pdOn p s := by
  unfold Sys2Proof.Machine.pdOn
  rw [h.boot]

theorem rtcSnapOp_rtc {s : State} (h : pdOn .aon s = true) :
    (rtcSnapOp .steward s).rtc = { s.rtc with shadow := s.rtc.shadow.set 0 { s.rtc.shadow[(0 : Fin 5)] with start := none, count := 0 } } := by
  show (regAt .aon .steward _ s).rtc = _
  rw [regAt_on _ _ h]
  rfl

theorem rtcSnapOp_only {s : State} (h : pdOn .aon s = true) : ShadowsOnly s (rtcSnapOp .steward s) := by
  have kept := kept_rtcSnapOp (ps0 := [.memRegs, .rtc, .bus]) .steward s kept_refl (List.Subset.refl _)
  exact ⟨by rw [rtcSnapOp_rtc h], kept.only .boot (by decide), kept.only .mbx (by decide)⟩

/-- What the Steward's shadow holds once a sequence begins. -/
def shadowNow (n : Nat) (s : State) : RtcShadow :=
  { time := rtcTimeWord s.rtc, date := s.rtc.date, frac := s.rtc.frac, bin := s.rtc.bin, stat := rtcStat s.rtc, start := some s.cyc.tb, count := n }

theorem rtcShadowOp_rtc {s : State} (h : pdOn .aon s = true) (hs : s.rtc.shadow[(0 : Fin 5)].start = none) :
    (rtcShadowOp .steward 0 s).rtc = { s.rtc with shadow := s.rtc.shadow.set 0 (shadowNow (s.rtc.shadow[(0 : Fin 5)].count + 1) s) } := by
  have closed := rtcBegin_closed 0 (s := answer .ok 0 s) (fun t0 e => absurd (hs.symm.trans e) (by simp))
  show (regAt .aon .steward _ s).rtc = _
  rw [regAt_on _ _ h]
  exact congrArg State.rtc closed

theorem rtcShadowOp_only {s : State} (h : pdOn .aon s = true) (hs : s.rtc.shadow[(0 : Fin 5)].start = none) : ShadowsOnly s (rtcShadowOp .steward 0 s) := by
  have kept := kept_rtcShadowOp (ps0 := [.memRegs, .rtc, .bus]) .steward 0 s kept_refl (List.Subset.refl _)
  exact ⟨by rw [rtcShadowOp_rtc h hs], kept.only .boot (by decide), kept.only .mbx (by decide)⟩

/-- The state in which RTC_READ has read the clock. -/
def clockRead (s : State) : State := rtcSnapOp .steward (rtcShadowOp .steward 0 (rtcSnapOp .steward s))

/-- The whole of it reads the running clock into the Steward's shadow and changes nothing else of the clock. -/
theorem clockRead_only {s : State} (h : pdOn .aon s = true) : ShadowsOnly s (clockRead s) ∧
    (clockRead s).rtc.shadow[(0 : Fin 5)].time = rtcTimeWord s.rtc ∧ (clockRead s).rtc.shadow[(0 : Fin 5)].date = s.rtc.date := by
  have one := rtcSnapOp_only h
  have on1 := (one.pdOn .aon).trans h
  have begin : (rtcSnapOp .steward s).rtc.shadow[(0 : Fin 5)].start = none := by
    rw [rtcSnapOp_rtc h]
    exact congrArg RtcShadow.start (Vector.getElem_set_self _)
  have two := rtcShadowOp_only on1 begin
  have on2 := (two.pdOn .aon).trans on1
  refine ⟨(one.trans two).trans (rtcSnapOp_only on2), ?_⟩
  unfold clockRead
  rw [rtcSnapOp_rtc on2, rtcShadowOp_rtc on1 begin]
  simp only [Fin.getElem_fin, Fin.val_zero, Vector.getElem_set_self, shadowNow]
  rw [rtcSnapOp_rtc h]
  exact ⟨rfl, rfl⟩

/-- The data of RTC_READ's reply. -/
def clockBytes (x : RtcShadow) : List Byte := wordBytes x.time ++ wordBytes x.date ++ wordBytes x.frac ++ leBytes 8 x.bin.toNat ++ wordBytes x.stat

theorem clockBytes_take (x : RtcShadow) : (clockBytes x).take 8 = leBytes 4 x.time.toNat ++ leBytes 4 x.date.toNat := by
  have len (w : Word) : (wordBytes w).length = 4 := leBytes_length 4 _
  unfold clockBytes
  rw [List.append_assoc, List.append_assoc, List.take_left' (by rw [List.length_append, len, len])]
  rfl

theorem rtcRead_run {r : CmdRef} {x : Slot} {s : State} (h : Waits r 0x0801 x s) (hd : slotData x = []) :
    exec (.rtcRead r) s = .next (finish r .ok 0 (clockBytes (clockRead (begun r s)).rtc.shadow[(0 : Fin 5)]) (clockRead (begun r s))) :=
  congrArg Host.Outcome.next (runSized_waits h (congrArg List.length hd) _)

theorem rtcRead_ends {r : CmdRef} {x : Slot} {s : State} (h : Waits r 0x0801 x s) (hd : slotData x = []) (hp : pdOn .aon s = true) :
    Gives (.rtcRead r) s [.memRegs, .sync, .mbx, .rtc, .bus] fun t => ∃ v, Ended r x .ok 0 v t ∧
      v.take 8 = leBytes 4 (rtcTimeWord s.rtc).toNat ++ leBytes 4 s.rtc.date.toNat ∧ t.rtc.time = s.rtc.time ∧ t.rtc.date = s.rtc.date ∧ t.rtc.bin = s.rtc.bin := by
  obtain ⟨only, htime, hdate⟩ := clockRead_only ((begun_pdOn r .aon s).trans hp)
  rw [begun_rtc] at htime hdate
  refine gives_of_leaves (leaves_rtcRead r s) (rtcRead_run h hd) ⟨_, begun_ended h.slot only.mbx _ _ _, ?_, ?_⟩
  · rw [clockBytes_take, htime, hdate]
  · rw [finish_rtc, only.rtc, begun_rtc]
    exact ⟨rfl, rfl, rfl⟩

/-! ## Configuration sets and the Archive (R332, R368, R369) -/

theorem cfgRead_ends {r : CmdRef} {x : Slot} {s : State} (h : Waits r 0x0302 x s) (hl : (slotData x).length = 4) (h1 : sliceNat 0 1 (slotData x) ≤ 1)
    (hz : sliceNat 1 3 (slotData x) = 0) : Gives (.cfgRead r) s [.sync, .mbx] (Ended r x .ok 0 (s.arch.sets.getD (sliceNat 0 1 (slotData x)) [])) := by
  have arch : (begun r s).arch = s.arch := (kept_begun r s).only .arch (by decide)
  have hrun : exec (.cfgRead r) s = .next (finish r .ok 0 (s.arch.sets.getD (sliceNat 0 1 (slotData x)) []) (begun r s)) := by
    refine congrArg Host.Outcome.next ((runCmd_waits h _).trans ?_)
    rw [if_neg (not_not.2 hl), if_neg (by omega), if_neg (not_not.2 hz), arch, List.getD_eq_getElem?_getD]
    cases s.arch.sets[sliceNat 0 1 (slotData x)]? <;> rfl
  exact gives_ended (leaves_cfgRead r s) h.slot hrun rfl

/-- A command that only waits below. -/
theorem gives_goesOn {i : Instr} {ps : List Part} {r : CmdRef} {x : Slot} {w : Wait} {s t : State} (hl : Leaves ps s (exec i s)) (hx : slotOf r s = some x)
    (he : exec i s = .next (waitFor r w t)) (hm : t.mbx = (begun r s).mbx) : Gives i s ps (GoesOn r x w) :=
  gives_of_leaves hl he (waitFor_goesOn hx hm)

/-- The same for one whose work touched nothing else at all. -/
theorem goesOn_alone {i : Instr} {r : CmdRef} {x : Slot} {w : Wait} {s : State} (hx : slotOf r s = some x) (he : exec i s = .next (waitFor r w (begun r s))) :
    Gives i s [.mbx] (GoesOn r x w) :=
  ⟨_, he, (kept_waitFor r w _ (kept_begun r s) (List.Subset.refl _)).only, waitFor_goesOn hx rfl⟩

theorem imagePut_run {r : CmdRef} {x : Slot} {s : State} (h : Waits r 0x0401 x s) :
    exec (.imagePut r) s = .next (match segBad (slotData x) with | some o => badParam r o (begun r s) | none => waitFor r .archive (begun r s)) :=
  congrArg Host.Outcome.next (runCmd_waits h _)

/-! ## Ends of the Archive's accesses (R332) -/

theorem archiveAccessDone_failed {r : CmdRef} {x : Slot} {s : State} (h : slotOf r s = some x) (hw : x.wait = .archive) :
    exec (.archiveAccessDone r false) s =
      .next (if x.tries < 2 then modSlot r (fun y => { y with tries := y.tries + 1 }) s else finish r .medium 0 [] s) := by
  show execArchiveAccessDone r false s = _
  unfold execArchiveAccessDone
  rw [h]
  exact congrArg Host.Outcome.next ((if_neg (by simp [hw])).trans (if_neg Bool.false_ne_true))

theorem archiveAccessDone_done {r : CmdRef} {x : Slot} {s : State} (h : slotOf r s = some x) (hw : x.wait = .archive) :
    exec (.archiveAccessDone r true) s = .next (archiveDone r x s) := by
  show execArchiveAccessDone r true s = _
  unfold execArchiveAccessDone
  rw [h]
  exact congrArg Host.Outcome.next ((if_neg (by simp [hw])).trans (if_pos rfl))

theorem archiveDone_log {x : Slot} (hc : x.code.toNat = 0x0603) (r : CmdRef) (s : State) :
    archiveDone r x s = finish r .ok 0 (eventsFrom ((enum s.log).filter fun e => sliceNat 0 8 (slotData x) ≤ e.1) (sliceNat 8 4 (slotData x))) s := by
  unfold archiveDone
  dsimp only
  rw [hc]
  rfl

theorem archiveDone_image {x : Slot} (hc : x.code.toNat = 0x0401) (r : CmdRef) (s : State) :
    archiveDone r x s = finish r .ok 0 [] { s with arch := { s.arch with images := putSegment (slotData x) s.arch.images } } := by
  unfold archiveDone
  dsimp only
  rw [hc]
  rfl

theorem archive_rows {r : CmdRef} {x : Slot} {s : State} (h : slotOf r s = some x) (hw : x.wait = .archive) :
    (x.tries < 2 → Gives (.archiveAccessDone r false) s [.mbx] fun t => slotOf r t = some { x with tries := x.tries + 1 }) ∧
    (2 ≤ x.tries → Gives (.archiveAccessDone r false) s [.sync, .mbx, .arch] (Ended r x .medium 0 [])) ∧
    (x.code.toNat = 0x0603 → Gives (.archiveAccessDone r true) s [.sync, .mbx, .arch]
      (Ended r x .ok 0 (eventsFrom ((enum s.log).filter fun e => sliceNat 0 8 (slotData x) ≤ e.1) (sliceNat 8 4 (slotData x))))) ∧
    (x.code.toNat = 0x0401 → Gives (.archiveAccessDone r true) s [.sync, .mbx, .arch] fun t => Ended r x .ok 0 [] t ∧
      t.arch = { s.arch with images := putSegment (slotData x) s.arch.images }) := by
  have failed := archiveAccessDone_failed h hw
  have done := archiveAccessDone_done h hw
  refine ⟨fun ht => ?_, fun ht => ?_, fun hc => ?_, fun hc => ?_⟩
  · rw [if_pos ht] at failed
    exact ⟨_, failed, (kept_modSlot r _ s kept_refl (List.Subset.refl _)).only, slotOf_modSlot_some (f := fun y => { y with tries := y.tries + 1 }) (fun _ => rfl) h⟩
  · rw [if_neg (by omega)] at failed
    exact gives_of_leaves (leaves_archiveAccessDone r false s) failed (finish_ended h rfl rfl _ _ _)
  · rw [archiveDone_log hc] at done
    exact gives_of_leaves (leaves_archiveAccessDone r true s) done (finish_ended h rfl rfl _ _ _)
  · rw [archiveDone_image hc] at done
    refine gives_of_leaves (leaves_archiveAccessDone r true s) done ⟨finish_ended (by exact h) rfl rfl _ _ _, ?_⟩
    exact (finish_only _ _ _ _ _).only .arch (by decide)

/-- Settles O40, row by row. -/
theorem commandsReadTheModule : Obligations.CommandsReadTheModule := by
  unfold Obligations.CommandsReadTheModule
  refine fun r x s => ⟨ident_ends, statusCmd_ends, supRead_ends, fun h hl ha hn hz => ⟨readReg_noPath h hl ha hn hz, readReg_value h hl ha hn hz⟩,
    fun h hl hc hz hm => ⟨readMem_refused h hl hc hz hm, readMem_off h hl hc hz hm, readMem_asleep h hl hc hz hm, readMem_bytes h hl hc hz hm⟩,
    rtcRead_ends, cfgRead_ends, fun h hl => ?_, fun h hl => ?_, fun h hb => ?_, fun o h hb => ?_, archive_rows⟩
  · exact goesOn_alone h.slot (congrArg Host.Outcome.next (runSized_waits h hl _))
  · exact goesOn_alone h.slot (congrArg Host.Outcome.next (runSized_waits h hl _))
  · have hrun := imagePut_run h
    rw [hb] at hrun
    exact goesOn_alone h.slot hrun
  · have hrun := imagePut_run h
    rw [hb] at hrun
    exact gives_ended (leaves_imagePut r s) h.slot hrun rfl

end Sys2Proof.Proofs
end

section
/-! SUPPORT. Configuration sets and RING_EN (R34, R178 to R180, R368). -/

namespace Sys2Proof.Proofs
open Sys2Proof.Machine Sys2Proof.Safety Sys2Proof.Laws
set_option Elab.async false

/-! ## A configuration set is applied (R34, R368) -/

/-- The steps of `cfgApply`: cycle, ring with its layout, hot standby and ladder, watchdogs and the store's protection, channels. -/
def cfgCycle (c : CfgSet) (s : State) : State :=
  { s with cyc := { s.cyc with period := c.period, margin := c.margin, retlim := c.retlim, ovrlim := c.ovrlim } }
def cfgRings (c : CfgSet) (s : State) : State := ringCfgLoad c.ringCfg (layoutLoad c.layout (cfgCycle c s))
def cfgStandby (c : CfgSet) (s : State) : State := modHsb (fun h => { h with cfg := c.hsbCfg &&& 0xFFFFFCFF }) (cfgRings c s)
def cfgStore (c : CfgSet) (s : State) : State := modPs (fun p => { p with bp := c.bp }) (escCfgWriteOp c.escCfg (cfgStandby c s))
def cfgUnits (c : CfgSet) (s : State) : State := c.wdg.foldl (fun s w => wdgLoad w s) (cfgStore c s)
def cfgChannels (c : CfgSet) (s : State) : State :=
  c.chans.foldl (fun s x => if s.fg[x.1].ch[x.2.1].cfg == x.2.2 then s else fgChWriteOp .steward x.1 x.2.1 x.2.2 s) (cfgUnits c s)

theorem cfgApply_eq (c : CfgSet) (s : State) : cfgApply c s =
    { cfgChannels c s with
      doms := (cfgChannels c s).doms.mapIdx fun i d => { d with region := c.regions.getD i d.region }
      mbx := { (cfgChannels c s).mbx with ip := c.ip } } := rfl

theorem kept_cfgUnits (c : CfgSet) (s : State) : Kept [.wdg] (cfgStore c s) (cfgUnits c s) :=
  kept_foldl kept_refl fun _ w h => kept_wdgLoad w _ h (List.Subset.refl _)

theorem kept_cfgChannels (c : CfgSet) (s : State) : Kept [.fg, .fgErr] (cfgUnits c s) (cfgChannels c s) :=
  kept_foldl kept_refl fun u x h => by
    split
    · exact h
    · exact kept_fgChWriteOp _ _ _ _ _ h (List.Subset.refl _)

/-- Watchdogs and channels keep what the steps before have set. -/
theorem kept_cfgTail (c : CfgSet) (s : State) : Kept [.wdg, .fg, .fgErr] (cfgStore c s) (cfgChannels c s) :=
  kept_trans (kept_mono (kept_cfgUnits c s) (by decide)) (kept_mono (kept_cfgChannels c s) (by decide))

theorem kept_escCfg (c : CfgSet) (s : State) : Kept [.esc] (cfgStandby c s) (escCfgWriteOp c.escCfg (cfgStandby c s)) :=
  kept_escCfgWriteOp _ _ kept_refl (List.Subset.refl _)

/-- The loaded layout and RING_CFG are as before. -/
def SameRingSet (s t : State) : Prop := t.ring.layout = s.ring.layout ∧ t.ring.cfg = s.ring.cfg

theorem SameRingSet.trans {s t u : State} (h1 : SameRingSet s t) (h2 : SameRingSet t u) : SameRingSet s u := ⟨h2.1.trans h1.1, h2.2.trans h1.2⟩

theorem sameRingSet_of_ring {s t : State} (h : t.ring = s.ring) : SameRingSet s t := ⟨congrArg Ring.layout h, congrArg Ring.cfg h⟩

theorem sameRingSet_setDim (src : Nat) (d : RingDim) (s : State) : SameRingSet s (setDim src d s) := by
  have same := (kept_transition (ps0 := [.arb]) src 0 3 s.ring.dim.code d.code s kept_refl (List.Subset.refl _)).only .ring (by decide)
  exact sameRingSet_of_ring (t := transition src 0 3 s.ring.dim.code d.code s) same

theorem sameRingSet_unlooped (b : Bool) (s : State) :
    SameRingSet s (if b then s else modRtm (fun m => { m with loop := none }) (modRing (fun r => { r with looped := false }) s)) := by
  cases b <;> exact ⟨rfl, rfl⟩

theorem sameRingSet_moveDim (src : Nat) (d : RingDim) (s : State) : SameRingSet s (moveDim src d s) := by
  have pd : SameRingSet (setDim src d s) (setPd .ring (d != .off && !s.boot.rec_.flags.getLsbD 2) (setDim src d s)) := ⟨rfl, rfl⟩
  have idle (u : State) : SameRingSet u (idleLinks u) := ⟨rfl, rfl⟩
  exact (((sameRingSet_setDim src d s).trans pd).trans (sameRingSet_unlooped (d == .compatLoop) _)).trans (idle _)

theorem ringCfgLoad_ring (v : Word) (s : State) : (ringCfgLoad v s).ring.layout = s.ring.layout ∧ (ringCfgLoad v s).ring.cfg = v &&& 0xFFFF0007 := by
  have survey (b : Bool) (u : State) : SameRingSet u (if b then surveyAll u else u) := by
    cases b <;> exact ⟨rfl, rfl⟩
  have put (en : BitVec 3) : (modRing (fun r => { r with cfg := v &&& 0xFFFF0007, en := en, enPend := r.enPend || en != r.en || ringsOn s != en }) s).ring.layout = s.ring.layout ∧
      (modRing (fun r => { r with cfg := v &&& 0xFFFF0007, en := en, enPend := r.enPend || en != r.en || ringsOn s != en }) s).ring.cfg = v &&& 0xFFFF0007 := ⟨rfl, rfl⟩
  obtain ⟨hl, hc⟩ := put (BitVec.ofNat 3 (bitOf (modeRings v).1 + 2 * bitOf (modeRings v).2 + 4 * bitOf ((s.ring.layout.map (·.slots)).getD 0 > 0)))
  have moved := (sameRingSet_moveDim 0 (wantedDim (modeRings v).1 (modeRings v).2 v) (modRing (fun r => { r with
    cfg := v &&& 0xFFFF0007, en := BitVec.ofNat 3 (bitOf (modeRings v).1 + 2 * bitOf (modeRings v).2 + 4 * bitOf ((s.ring.layout.map (·.slots)).getD 0 > 0))
    enPend := r.enPend || BitVec.ofNat 3 (bitOf (modeRings v).1 + 2 * bitOf (modeRings v).2 + 4 * bitOf ((s.ring.layout.map (·.slots)).getD 0 > 0)) != r.en ||
      ringsOn s != BitVec.ofNat 3 (bitOf (modeRings v).1 + 2 * bitOf (modeRings v).2 + 4 * bitOf ((s.ring.layout.map (·.slots)).getD 0 > 0)) }) s)).trans
    (survey (s.ring.dim == .off && wantedDim (modeRings v).1 (modeRings v).2 v != .off) _)
  exact ⟨moved.1.trans hl, moved.2.trans hc⟩

theorem kept_cfgRings (c : CfgSet) (s : State) : Kept [.ring, .rtm, .boot, .arb] (cfgCycle c s) (cfgRings c s) :=
  kept_ringCfgLoad _ _ (kept_layoutLoad _ _ kept_refl (by decide)) (List.Subset.refl _)

/-- What a set applied whole leaves in the registers that it names. -/
theorem cfgApply_spec (c : CfgSet) (s : State) :
    (cfgApply c s).cyc = { s.cyc with period := c.period, margin := c.margin, retlim := c.retlim, ovrlim := c.ovrlim } ∧ (cfgApply c s).arch = s.arch ∧
      (cfgApply c s).hsb.cfg = c.hsbCfg &&& 0xFFFFFCFF ∧ (cfgApply c s).ring.layout = some c.layout ∧ (cfgApply c s).ring.cfg = c.ringCfg &&& 0xFFFF0007 ∧
      (cfgApply c s).mbx = { s.mbx with ip := c.ip } ∧ (cfgApply c s).ps.bp = c.bp := by
  have tail := kept_cfgTail c s
  have esc := kept_escCfg c s
  have rings := kept_cfgRings c s
  rw [cfgApply_eq]
  dsimp only
  refine ⟨?_, ?_, ?_, ?_, ?_, ?_, ?_⟩
  · exact (tail.only .cyc (by decide)).trans ((esc.only .cyc (by decide)).trans (rings.only .cyc (by decide)))
  · exact (tail.only .arch (by decide)).trans ((esc.only .arch (by decide)).trans (rings.only .arch (by decide)))
  · exact (congrArg Hsb.cfg (tail.only .hsb (by decide))).trans (congrArg Hsb.cfg (esc.only .hsb (by decide)))
  · rw [(tail.only .ring (by decide) : (cfgChannels c s).ring = _)]
    exact (congrArg Ring.layout (esc.only .ring (by decide))).trans (ringCfgLoad_ring _ _).1
  · rw [(tail.only .ring (by decide) : (cfgChannels c s).ring = _)]
    exact (congrArg Ring.cfg (esc.only .ring (by decide))).trans (ringCfgLoad_ring _ _).2
  · have mbx : (cfgChannels c s).mbx = s.mbx := (tail.only .mbx (by decide)).trans ((esc.only .mbx (by decide)).trans (rings.only .mbx (by decide)))
    rw [mbx]
  · rw [(tail.only .ps (by decide) : (cfgChannels c s).ps = _)]
    rfl

/-! ## CFG_WRITE (R34, R368) -/

/-- The state with another list of configuration sets kept. -/
def withSets (sets : List (List Byte)) (s : State) : State := { s with arch := { s.arch with sets := sets } }

theorem cfgWrite_run {r : CmdRef} {x : Slot} {s : State} (h : Waits r 0x0301 x s) (hd : slotData x ≠ []) :
    exec (.cfgWrite r) s = .next (if cfgLocked s then finish r .cfgLocked 0 [] (begun r s)
      else if layoutRefused (Config.readCfgSet (slotData x)).layout s then finishRefused r 0 "RING_LAYOUT_BAD" (begun r s)
      else if setBad (Config.readCfgSet (slotData x)) s then badParam r 0 (begun r s)
      else finish r .ok 0 [] (cfgApply (Config.readCfgSet (slotData x)) (withSets (slotData x :: s.arch.sets.take 1) (begun r s)))) := by
  have empty : (slotData x).isEmpty = false := by
    cases hx : slotData x with
    | nil => exact absurd hx hd
    | cons b bs => rfl
  refine congrArg Host.Outcome.next ((runCmd_waits h _).trans ?_)
  rw [if_neg (by rw [empty]; exact Bool.false_ne_true)]
  obtain ⟨m, hm⟩ := begun_mbx r s
  rw [hm]
  rfl

theorem sendReply_ip (i : Fin 5) (car : Carrier) (rep : Reply) (final : Bool) (s : State) : (sendReply i car rep final s).mbx.ip = s.mbx.ip := by
  rw [(talked_sendReply i car rep final s).rest]

theorem finish_ip (r : CmdRef) (st : Status) (detail : Nat) (data : List Byte) (s : State) : (finish r st detail data s).mbx.ip = s.mbx.ip := by
  have sess (f : Session → Session) (u : State) : (modSess r.sess f u).mbx.ip = u.mbx.ip := by
    rw [modSess_rest]
  cases h : slotOf r s with
  | none =>
    rw [finish_none h]
    rfl
  | some x =>
    rw [show finish r st detail data s = _ from finishCode_eq h st.code detail data]
    dsimp only
    split
    · exact sess _ s
    · exact (sendReply_ip _ _ _ _ _).trans (sess _ s)

/-- What CFG_WRITE may touch. -/
def cfgParts : List Part := [.cyc, .doms, .ring, .rtm, .hsb, .sync, .fg, .fgErr, .mbx, .wdg, .esc, .ps, .arch, .boot, .arb]

theorem cfgWrite_applied {r : CmdRef} {x : Slot} {s : State} (h : Waits r 0x0301 x s) (hd : slotData x ≠ []) (hl : cfgLocked s = false)
    (hb : setBad (Config.readCfgSet (slotData x)) s = false) :
    let c := Config.readCfgSet (slotData x)
    Gives (.cfgWrite r) s cfgParts fun t => Ended r x .ok 0 [] t ∧ t.cyc = { s.cyc with period := c.period, margin := c.margin, retlim := c.retlim, ovrlim := c.ovrlim } ∧
      t.arch = { s.arch with sets := slotData x :: s.arch.sets.take 1 } ∧ t.hsb.cfg = c.hsbCfg &&& 0xFFFFFCFF ∧ t.ring.layout = some c.layout ∧
      t.ring.cfg = c.ringCfg &&& 0xFFFF0007 ∧ t.mbx.ip = c.ip ∧ t.ps.bp = c.bp := by
  have hrun := cfgWrite_run h hd
  have layout : layoutRefused (Config.readCfgSet (slotData x)).layout s = false := by
    unfold setBad at hb
    simp only [Bool.or_eq_false_iff] at hb
    exact hb.1.1.2
  rw [if_neg (by rw [hl]; exact Bool.false_ne_true), if_neg (by rw [layout]; exact Bool.false_ne_true), if_neg (by rw [hb]; exact Bool.false_ne_true)] at hrun
  obtain ⟨cyc, arch, hsb, lay, cfg, mbx, bp⟩ := cfgApply_spec (Config.readCfgSet (slotData x)) (withSets (slotData x :: s.arch.sets.take 1) (begun r s))
  have sess : sessOf r (cfgApply (Config.readCfgSet (slotData x)) (withSets (slotData x :: s.arch.sets.take 1) (begun r s))) = sessOf r (begun r s) := by
    unfold sessOf
    rw [mbx]
    rfl
  have slot := (slotOf_eq_of_slots (congrArg Session.slots sess)).trans (begun_slot h.slot)
  have done := finish_only r .ok 0 [] (cfgApply (Config.readCfgSet (slotData x)) (withSets (slotData x :: s.arch.sets.take 1) (begun r s)))
  have ip : (finish r .ok 0 [] (cfgApply (Config.readCfgSet (slotData x)) (withSets (slotData x :: s.arch.sets.take 1) (begun r s)))).mbx.ip =
      (Config.readCfgSet (slotData x)).ip := (finish_ip _ _ _ _ _).trans (congrArg Mbx.ip mbx)
  refine gives_of_leaves (leaves_cfgWrite r s) hrun ⟨finish_ended (x := x) slot rfl rfl _ _ _, ?_, ?_, ?_, ?_, ?_, ip, ?_⟩
  · rw [(done.only .cyc (by decide) : (finish _ _ _ _ _).cyc = _), cyc]
    exact congrArg (fun y : Cyc => { y with period := (Config.readCfgSet (slotData x)).period, margin := (Config.readCfgSet (slotData x)).margin
                                            retlim := (Config.readCfgSet (slotData x)).retlim, ovrlim := (Config.readCfgSet (slotData x)).ovrlim })
      ((kept_begun r s).only .cyc (by decide))
  · rw [(done.only .arch (by decide) : (finish _ _ _ _ _).arch = _), arch]
    exact congrArg (fun y : Archive => { y with sets := slotData x :: s.arch.sets.take 1 }) ((kept_begun r s).only .arch (by decide))
  · rw [(done.only .hsb (by decide) : (finish _ _ _ _ _).hsb = _), hsb]
  · rw [(done.only .ring (by decide) : (finish _ _ _ _ _).ring = _), lay]
  · rw [(done.only .ring (by decide) : (finish _ _ _ _ _).ring = _), cfg]
  · rw [(done.only .ps (by decide) : (finish _ _ _ _ _).ps = _), bp]

theorem cfgWrite_turned {r : CmdRef} {x : Slot} {s : State} (h : Waits r 0x0301 x s) (hd : slotData x ≠ []) :
    (cfgLocked s = true → Gives (.cfgWrite r) s cfgParts (Ended r x .cfgLocked 0 [])) ∧
    (cfgLocked s = false → layoutRefused (Config.readCfgSet (slotData x)).layout s = true →
      Gives (.cfgWrite r) s cfgParts (Ended r x .refused 0 (Config.textOf "RING_LAYOUT_BAD"))) ∧
    (cfgLocked s = false → layoutRefused (Config.readCfgSet (slotData x)).layout s = false → setBad (Config.readCfgSet (slotData x)) s = true →
      Gives (.cfgWrite r) s cfgParts (Ended r x .badParam 0 [])) := by
  have hrun := cfgWrite_run h hd
  refine ⟨fun hl => ?_, fun hl hb => ?_, fun hl hb hc => ?_⟩
  · rw [if_pos hl] at hrun
    exact gives_ended (leaves_cfgWrite r s) h.slot hrun rfl
  · rw [if_neg (by rw [hl]; exact Bool.false_ne_true), if_pos hb] at hrun
    exact gives_ended (leaves_cfgWrite r s) h.slot hrun rfl
  · rw [if_neg (by rw [hl]; exact Bool.false_ne_true), if_neg (by rw [hb]; exact Bool.false_ne_true), if_pos hc] at hrun
    exact gives_ended (leaves_cfgWrite r s) h.slot hrun rfl

/-! ## RING_EN (R178 to R180) -/

theorem recordEn_recordEn (a b : BitVec 3) (s : State) : recordEn b (recordEn a s) =
    modRing (fun g => { g with en := b, enPend := (g.enPend || a != g.en) || b != a, frtDisable := g.frtOn && !b.getLsbD 2 }) s := rfl

/-- Recording the rings' bits first and the whole register then notes a change if, and only if, the register changes. -/
theorem enPend_twice (old new : BitVec 3) :
    (Sys2Proof.Machine.setBit (Sys2Proof.Machine.setBit old 0 (new.getLsbD 0)) 1 (new.getLsbD 1) != old ||
      new != Sys2Proof.Machine.setBit (Sys2Proof.Machine.setBit old 0 (new.getLsbD 0)) 1 (new.getLsbD 1)) = (new != old) := by
  revert old new
  decide

/-- The ring as RING_EN's word leaves it. -/
def ringAsked (w : Word) (g : Ring) : Ring := { g with en := w.setWidth 3, enPend := g.enPend || w.setWidth 3 != g.en, frtDisable := g.frtOn && !w.getLsbD 2 }

theorem recordEn_asked (w : Word) (s : State) :
    recordEn (w.setWidth 3) (recordEn (Sys2Proof.Machine.setBit (Sys2Proof.Machine.setBit s.ring.en 0 (w.getLsbD 0)) 1 (w.getLsbD 1)) s) = modRing (ringAsked w) s := by
  have bit (i : Nat) (hi : i < 3) : w.getLsbD i = (w.setWidth 3).getLsbD i := by
    rw [BitVec.getLsbD_setWidth, decide_eq_true hi, Bool.true_and]
  have ring : { s.ring with
      en := w.setWidth 3
      enPend := (s.ring.enPend || Sys2Proof.Machine.setBit (Sys2Proof.Machine.setBit s.ring.en 0 (w.getLsbD 0)) 1 (w.getLsbD 1) != s.ring.en) ||
        w.setWidth 3 != Sys2Proof.Machine.setBit (Sys2Proof.Machine.setBit s.ring.en 0 (w.getLsbD 0)) 1 (w.getLsbD 1)
      frtDisable := s.ring.frtOn && !(w.setWidth 3).getLsbD 2 } = ringAsked w s.ring := by
    unfold ringAsked
    rw [bit 0 (by decide), bit 1 (by decide), bit 2 (by decide), Bool.or_assoc, enPend_twice]
  rw [recordEn_recordEn]
  exact congrArg (fun g => { s with ring := g }) ring

/-- RING_EN outside a start with RING_SKIP, or with both rings off. -/
theorem ringEn_run {r : CmdRef} {x : Slot} {s : State} (h : Waits r 0x0303 x s) (hl : (slotData x).length = 4)
    (hs : s.boot.rec_.flags.getLsbD 2 = false ∨ leNat (slotData x) % 4 = 0) :
    let w : Word := BitVec.ofNat 32 (leNat (slotData x))
    exec (.ringEn r) s = .next (match (ringEnRings (w.getLsbD 0) (w.getLsbD 1) (begun r s)).1 with
      | some e => finishRefused r e.1 e.2 (ringEnRings (w.getLsbD 0) (w.getLsbD 1) (begun r s)).2
      | none =>
        finish r .ok 0 (wordBytes (ringStat (recordEn (w.setWidth 3) (ringEnRings (w.getLsbD 0) (w.getLsbD 1) (begun r s)).2)))
          (recordEn (w.setWidth 3) (ringEnRings (w.getLsbD 0) (w.getLsbD 1) (begun r s)).2)) := by
  refine congrArg Host.Outcome.next ((runSized_waits h hl _).trans ?_)
  have boot : (begun r s).boot = s.boot := (kept_begun r s).only .boot (by decide)
  have skip : ((begun r s).boot.rec_.flags.getLsbD 2 && decide ((BitVec.ofNat 32 (leNat (slotData x))).toNat % 4 ≠ 0)) = false := by
    rw [boot]
    rcases hs with hs | hs
    · rw [hs]
      rfl
    · rw [BitVec.toNat_ofNat, Nat.mod_mod_of_dvd _ (by decide), hs]
      simp
  dsimp only
  rw [skip]
  rfl

theorem ringEnRings_run (w : Word) (s : State) :
    ringEnRings (w.getLsbD 0) (w.getLsbD 1) s =
      match (if decide (s.ring.dim ≠ .off) && wantedDim (w.getLsbD 0) (w.getLsbD 1) s.ring.cfg == .off then ringOffRefusal s else none) with
      | some e => (some e, { s with arb := { s.arb with reason := BitVec.ofNat 8 e.1, refused := true } })
      | none => (none, recordEn (Sys2Proof.Machine.setBit (Sys2Proof.Machine.setBit s.ring.en 0 (w.getLsbD 0)) 1 (w.getLsbD 1)) s) := by
  have same : (s.ring.dim != .off) = decide (s.ring.dim ≠ .off) := by cases s.ring.dim <;> rfl
  unfold ringEnRings
  (rw [same]) <;> rfl

end Sys2Proof.Proofs
end

section
/-! SUPPORT. RING_EN and LS_DISABLE end, and what a Logic Solver's queue keeps (R369). -/

namespace Sys2Proof.Proofs
open Sys2Proof.Machine Sys2Proof.Safety Sys2Proof.Laws
set_option Elab.async false

/-! ## RING_EN ends (R178 to R180, R369) -/

/-- The rings' word would turn a ring that runs off. -/
def turnsOff (w : Word) (s : State) : Bool := decide (s.ring.dim ≠ .off) && wantedDim (w.getLsbD 0) (w.getLsbD 1) s.ring.cfg == .off

/-- The state with a refusal noted by the Mode Arbiter. -/
def refusedBy (e : Nat × String) (s : State) : State := { s with arb := { s.arb with reason := BitVec.ofNat 8 e.1, refused := true } }

theorem ringEnRings_refused {w : Word} {s : State} {e : Nat × String} (ho : turnsOff w s = true) (he : ringOffRefusal s = some e) :
    ringEnRings (w.getLsbD 0) (w.getLsbD 1) s = (some e, refusedBy e s) := by
  (rw [ringEnRings_run, if_pos (by exact ho), he]) <;> rfl

theorem ringEnRings_recorded {w : Word} {s : State} (h : turnsOff w s = false ∨ ringOffRefusal s = none) :
    ringEnRings (w.getLsbD 0) (w.getLsbD 1) s =
      (none, recordEn (Sys2Proof.Machine.setBit (Sys2Proof.Machine.setBit s.ring.en 0 (w.getLsbD 0)) 1 (w.getLsbD 1)) s) := by
  have none_ : (if turnsOff w s then ringOffRefusal s else none) = none := by
    rcases h with h | h
    · rw [h]
      rfl
    · rw [h, ite_self]
  unfold turnsOff at none_
  (rw [ringEnRings_run, none_]) <;> rfl

theorem ringStat_congr {s t : State} (h : t.ring = s.ring) : ringStat t = ringStat s := by
  unfold ringStat
  rw [h]

theorem ringEn_rows {r : CmdRef} {x : Slot} {s : State} (h : Waits r 0x0303 x s) (hl : (slotData x).length = 4)
    (hs : s.boot.rec_.flags.getLsbD 2 = false ∨ leNat (slotData x) % 4 = 0) :
    let w : Word := BitVec.ofNat 32 (leNat (slotData x))
    (∀ e, turnsOff w s = true → ringOffRefusal s = some e → Gives (.ringEn r) s [.ring, .sync, .mbx, .ps, .boot, .arb, .freeCtr] fun t =>
      Ended r x .refused e.1 (Config.textOf e.2) t ∧ t.arb.reason = BitVec.ofNat 8 e.1 ∧ t.ring = s.ring) ∧
    (turnsOff w s = false ∨ ringOffRefusal s = none → Gives (.ringEn r) s [.ring, .sync, .mbx, .ps, .boot, .arb, .freeCtr] fun t =>
      t.ring = ringAsked w s.ring ∧ Ended r x .ok 0 (leBytes 4 (ringStat t).toNat) t) := by
  intro w
  have hrun := ringEn_run h hl hs
  dsimp only at hrun
  have ring : (begun r s).ring = s.ring := (kept_begun r s).only .ring (by decide)
  have off : turnsOff w (begun r s) = turnsOff w s := by
    unfold turnsOff
    rw [ring]
  have refusal : ringOffRefusal (begun r s) = ringOffRefusal s := by
    obtain ⟨m, hm⟩ := begun_mbx r s
    rw [hm]
    rfl
  refine ⟨fun e ho he => ?_, fun ho => ?_⟩
  · rw [ringEnRings_refused (off.trans ho) (refusal.trans he)] at hrun
    have done := finish_only r .refused e.1 (Config.textOf e.2) (refusedBy e (begun r s))
    refine gives_ended_and (leaves_ringEn r s) h.slot hrun rfl ⟨?_, ?_⟩
    · exact congrArg Arb.reason (done.only .arb (by decide))
    · exact (done.only .ring (by decide)).trans ring
  · rw [ringEnRings_recorded (by rw [off, refusal]; exact ho)] at hrun
    dsimp only at hrun
    rw [recordEn_asked] at hrun
    have done := (finish_only r .ok 0 (wordBytes (ringStat (modRing (ringAsked w) (begun r s)))) (modRing (ringAsked w) (begun r s))).only .ring (by decide)
    have same : (finish r .ok 0 (wordBytes (ringStat (modRing (ringAsked w) (begun r s)))) (modRing (ringAsked w) (begun r s))).ring = ringAsked w (begun r s).ring := done
    refine gives_of_leaves (leaves_ringEn r s) hrun ⟨same.trans (congrArg _ ring), ?_⟩
    rw [ringStat_congr (s := modRing (ringAsked w) (begun r s)) same]
    exact begun_ended (t := modRing (ringAsked w) (begun r s)) h.slot rfl _ _ _

/-! ## LS_DISABLE (R369) -/

theorem lsDisable_rows {r : CmdRef} {x : Slot} {s : State} {i : Fin 2} (h : Waits r 0x0304 x s) (hl : (slotData x).length = 4) (hi : sliceNat 0 1 (slotData x) = i.val)
    (hz : sliceNat 1 3 (slotData x) = 0) :
    let v := s.solvers[lssOf i.val]
    (v.claim = none ∨ v.disablePend ≠ none → Gives (.lsDisable r) s [.solvers, .sync, .mbx] (Ended r x .disabled 0 [])) ∧
    (v.claim ≠ none → v.disablePend = none → Gives (.lsDisable r) s [.solvers, .mbx] fun t => slotOf r t = some { x with started := true } ∧
      t.solvers = s.solvers.set (lssOf i.val) { v with disablePend := some r }) := by
  intro v
  have solvers : (begun r s).solvers = s.solvers := (kept_begun r s).only .solvers (by decide)
  have hrun : exec (.lsDisable r) s = .next (if v.claim.isNone || v.disablePend.isSome then finish r .disabled 0 [] (begun r s)
      else modSolver (lssOf i.val) (fun v => { v with disablePend := some r }) (begun r s)) := by
    refine congrArg Host.Outcome.next ((runSized_waits h hl _).trans ?_)
    dsimp only
    rw [if_neg (by omega), if_neg (not_not.2 hz)]
    simp only [hi, solvers]
    rfl
  refine ⟨fun hv => ?_, fun hc hp => ?_⟩
  · rw [if_pos (by
      rcases hv with hv | hv
      · rw [hv]
        rfl
      · rw [Option.isSome_iff_ne_none.2 hv, Bool.or_true])] at hrun
    exact gives_ended (leaves_lsDisable r s) h.slot hrun rfl
  · have claimed : v.claim.isNone = false := Option.isNone_eq_false_iff.2 (Option.isSome_iff_ne_none.2 hc)
    rw [if_neg (by rw [claimed, hp]; exact Bool.false_ne_true)] at hrun
    refine ⟨_, hrun, (kept_modSolver _ _ _ (kept_mono (kept_begun r s) (by decide)) (by decide)).only, begun_slot h.slot, ?_⟩
    show (begun r s).solvers.set _ _ = _
    rw [solvers]

/-! ## Disables take effect (R369) -/

/-- Each solver's claim and the disable that waits for it. -/
def claims (s : State) : Vector (Option (Fin 4) × Option CmdRef) 5 := s.solvers.map fun v => (v.claim, v.disablePend)

theorem claims_getElem (i : Fin 5) (s : State) : (claims s)[i] = (s.solvers[i].claim, s.solvers[i].disablePend) := Vector.getElem_map ..

theorem claims_modSolver (i : Fin 5) (f : Solver → Solver) (s : State) (hf : ∀ v, (f v).claim = v.claim ∧ (f v).disablePend = v.disablePend) :
    claims (modSolver i f s) = claims s := by
  refine Vector.ext fun j hj => ?_
  show ((s.solvers.set i (f s.solvers[i])).map fun v => (v.claim, v.disablePend))[j] = (s.solvers.map fun v => (v.claim, v.disablePend))[j]
  rw [Vector.getElem_map, Vector.getElem_map, Vector.getElem_set]
  split
  next h =>
    subst h
    exact Prod.ext (hf _).1 (hf _).2
  next => rfl

theorem claims_modQueue (i : Fin 5) (k : Fin 2) (f : LsQueue → LsQueue) (s : State) : claims (modQueue i k f s) = claims s := by
  refine claims_modSolver _ _ s ?_
  exact fun _ => ⟨rfl, rfl⟩

theorem claims_congr {s t : State} (h : t.solvers = s.solvers) : claims t = claims s := congrArg (Vector.map _) h

theorem claims_startQueued (i : Fin 5) (k : Fin 2) (s : State) : claims (startQueued i k s) = claims s := by
  unfold startQueued
  split
  · exact claims_modQueue _ _ _ _
  · exact claims_modQueue _ _ _ _
  · rfl

theorem claims_lsEnded (i : Fin 5) (k : Fin 2) (s : State) : claims (lsEnded i k s) = claims s := by
  unfold lsEnded
  dsimp only
  rw [claims_startQueued, claims_congr (lsRelease_solvers i k _), claims_modQueue]

theorem claims_lsAbortQueue (i : Fin 5) (k : Fin 2) (s : State) : claims (lsAbortQueue i k s) = claims s := by
  unfold lsAbortQueue
  dsimp only
  split
  · split
    · rw [claims_lsEnded, claims_modQueue]
      refine claims_modSolver _ _ s ?_
      exact fun _ => ⟨rfl, rfl⟩
    · exact claims_modQueue _ _ _ _
  · exact claims_modQueue _ _ _ _
  · rw [claims_congr (lsRelease_solvers i k _), claims_modQueue]
  · exact claims_modQueue _ _ _ _

theorem claims_lsUnloadOp (i : Fin 5) (k : Fin 2) (s : State) : claims (lsUnloadOp i k s) = claims s := by
  unfold lsUnloadOp
  dsimp only
  split <;> exact claims_modQueue _ _ _ _

end Sys2Proof.Proofs
end

section
/-! SUPPORT. Disables take effect, and SERVICE_CLEAR (R369, R421, R469). -/

namespace Sys2Proof.Proofs
open Sys2Proof.Machine Sys2Proof.Safety Sys2Proof.Laws
set_option Elab.async false

/-! ## Disables take effect (R369) -/

/-- An end leaves no slot of its command, whether or not one stood. -/
theorem finish_slot_gone (r : CmdRef) (st : Status) (detail : Nat) (data : List Byte) (s : State) : slotOf r (finish r st detail data s) = none := by
  cases h : slotOf r s with
  | none =>
    rw [finish_none h]
    exact h
  | some x => exact finishCode_slot_none h _ _ _

theorem finish_slot_stays_gone {r q : CmdRef} {s : State} (h : slotOf q s = none) (st : Status) (detail : Nat) (data : List Byte) :
    slotOf q (finish r st detail data s) = none := by
  by_cases hq : q = r
  · subst hq
    exact finish_slot_gone _ _ _ _ _
  · exact (finishCode_slot_other hq _ _ _ _).trans h

/-- The solver that a disable ends, its queue given up and its claim cleared. -/
def unclaimed (i : Fin 5) (s : State) : State :=
  let was := s.solvers[i].q[(0 : Fin 2)].run.isSome || s.solvers[i].q[(0 : Fin 2)].queued.isSome
  modSolver i (fun v => { v with claim := none, disablePend := none }) (lsUnloadOp i 0 (if was then lsAbortQueue i 0 s else s))

/-- With both solvers free their supply is requested off. -/
def supplied (s : State) : State := if s.solvers[(3 : Fin 5)].claim.isNone && s.solvers[(4 : Fin 5)].claim.isNone then solvOff s else s

theorem lsDisableEffect_eq (i : Fin 5) (r : CmdRef) (s : State) : ∃ n, lsDisableEffect i r s = finish r .ok 0 (leBytes 1 n) (supplied (unclaimed i s)) := ⟨_, rfl⟩

theorem claims_unclaimed (i : Fin 5) (s : State) : claims (unclaimed i s) = (claims s).set i (none, none) := by
  have before : claims (lsUnloadOp i 0 (if s.solvers[i].q[(0 : Fin 2)].run.isSome || s.solvers[i].q[(0 : Fin 2)].queued.isSome then lsAbortQueue i 0 s else s)) = claims s := by
    rw [claims_lsUnloadOp]
    split
    · exact claims_lsAbortQueue _ _ _
    · rfl
  rw [← before]
  exact Vector.map_set ..

theorem claims_supplied_claimed {j : Fin 5} {s : State} (hj : j = 3 ∨ j = 4) (h : s.solvers[j].claim ≠ none) : supplied s = s := by
  refine if_neg fun hb => ?_
  obtain ⟨h3, h4⟩ := Bool.and_eq_true_iff.1 hb
  rcases hj with rfl | rfl
  · exact h (Option.isNone_iff_eq_none.1 h3)
  · exact h (Option.isNone_iff_eq_none.1 h4)

theorem claims_supplied_free {j : Fin 5} {s : State} (hj : j = 3 ∨ j = 4) (h : (claims s)[j] = (none, none)) : (claims (supplied s))[j] = (none, none) := by
  unfold supplied
  split
  next hb =>
    obtain ⟨h3, h4⟩ := Bool.and_eq_true_iff.1 hb
    have down : solvOff s = solvDown { s with boot := { s.boot with refused := false } } := by
      refine if_neg ?_
      show ¬(s.solvers[(3 : Fin 5)].claim.isSome || s.solvers[(4 : Fin 5)].claim.isSome) = true
      rw [Option.isSome_eq_false_iff.2 h3, Option.isSome_eq_false_iff.2 h4]
      exact Bool.false_ne_true
    rw [down, claims_getElem]
    rcases hj with rfl | rfl <;> simp [solvDown, Solver.reset]
  next => exact h

theorem claims_finish (r : CmdRef) (st : Status) (detail : Nat) (data : List Byte) (s : State) : claims (finish r st detail data s) = claims s :=
  claims_congr ((finish_only r st detail data s).only .solvers (by decide))

theorem claims_effect_own {i : Fin 5} (hi : i = 3 ∨ i = 4) (r : CmdRef) (s : State) : (claims (lsDisableEffect i r s))[i] = (none, none) := by
  obtain ⟨n, he⟩ := lsDisableEffect_eq i r s
  rw [he, claims_finish]
  refine claims_supplied_free hi ?_
  rw [claims_unclaimed]
  exact Vector.getElem_set_self _

theorem claims_effect_free {i j : Fin 5} (hj : j = 3 ∨ j = 4) (r : CmdRef) {s : State} (h : (claims s)[j] = (none, none)) :
    (claims (lsDisableEffect i r s))[j] = (none, none) := by
  obtain ⟨n, he⟩ := lsDisableEffect_eq i r s
  rw [he, claims_finish]
  refine claims_supplied_free hj ?_
  rw [claims_unclaimed, Fin.getElem_fin, Vector.getElem_set]
  split
  · rfl
  · exact h

theorem claims_effect_claimed {i j : Fin 5} (hj : j = 3 ∨ j = 4) (hne : i ≠ j) (r : CmdRef) {s : State} (h : s.solvers[j].claim ≠ none) :
    (claims (lsDisableEffect i r s))[j] = (claims s)[j] := by
  obtain ⟨n, he⟩ := lsDisableEffect_eq i r s
  have stays : (claims (unclaimed i s))[j] = (claims s)[j] := by
    rw [claims_unclaimed]
    exact Vector.getElem_set_ne _ _ fun e => hne (Fin.ext e)
  have claimed : (unclaimed i s).solvers[j].claim ≠ none := by
    rw [claims_getElem, claims_getElem] at stays
    have same : (unclaimed i s).solvers[j].claim = s.solvers[j].claim := congrArg Prod.fst stays
    rw [same]
    exact h
  rw [he, claims_finish, claims_supplied_claimed hj claimed, stays]

theorem unclaimed_mbx (i : Fin 5) (s : State) : (unclaimed i s).mbx = s.mbx := by
  have abort : (if s.solvers[i].q[(0 : Fin 2)].run.isSome || s.solvers[i].q[(0 : Fin 2)].queued.isSome then lsAbortQueue i 0 s else s).mbx = s.mbx := by
    split
    · exact (kept_lsAbortQueue (ps0 := [.cores, .solvers]) i 0 s kept_refl (List.Subset.refl _)).only .mbx (by decide)
    · rfl
  exact ((kept_lsUnloadOp (ps0 := [.solvers]) i 0 _ kept_refl (List.Subset.refl _)).only .mbx (by decide)).trans abort

theorem supplied_mbx (s : State) : (supplied s).mbx = s.mbx := by
  unfold supplied
  split
  · exact (kept_solvOff (ps0 := [.solvers, .boot]) s kept_refl (List.Subset.refl _)).only .mbx (by decide)
  · rfl

theorem slotOf_effect (i : Fin 5) (r : CmdRef) (s : State) : slotOf r (lsDisableEffect i r s) = none := by
  obtain ⟨n, he⟩ := lsDisableEffect_eq i r s
  rw [he]
  exact finish_slot_gone _ _ _ _ _

theorem slotOf_effect_gone (i : Fin 5) (r : CmdRef) {q : CmdRef} {s : State} (h : slotOf q s = none) : slotOf q (lsDisableEffect i r s) = none := by
  obtain ⟨n, he⟩ := lsDisableEffect_eq i r s
  rw [he]
  exact finish_slot_stays_gone ((slotOf_congr ((supplied_mbx _).trans (unclaimed_mbx i s)) q).trans h) _ _ _

theorem lsDisableTake_pending {i : Fin 5} {r : CmdRef} {s : State} (h : s.solvers[i].disablePend = some r) : lsDisableTake i s = lsDisableEffect i r s := by
  unfold lsDisableTake
  rw [h]

/-- The solver is free and no slot of the command stands. -/
def Disabled (i : Fin 5) (r : CmdRef) (t : State) : Prop := t.solvers[i].claim = none ∧ t.solvers[i].disablePend = none ∧ slotOf r t = none

theorem disabled_of_claims {i : Fin 5} {r : CmdRef} {t : State} (h : (claims t)[i] = (none, none)) (hs : slotOf r t = none) : Disabled i r t := by
  rw [claims_getElem] at h
  exact ⟨congrArg Prod.fst h, congrArg Prod.snd h, hs⟩

theorem disabled_take_later {i j : Fin 5} {r : CmdRef} {s : State} (hj : j = 3 ∨ j = 4) (h : Disabled j r s) : Disabled j r (lsDisableTake i s) := by
  obtain ⟨hc, hp, hs⟩ := h
  cases hq : s.solvers[i].disablePend with
  | none =>
    unfold lsDisableTake
    rw [hq]
    exact ⟨hc, hp, hs⟩
  | some q =>
    rw [lsDisableTake_pending hq]
    exact disabled_of_claims (claims_effect_free hj q (by rw [claims_getElem, hc, hp])) (slotOf_effect_gone i q hs)

theorem disabled_take {i : Fin 5} {r : CmdRef} {s : State} (hi : i = 3 ∨ i = 4) (h : s.solvers[i].disablePend = some r) : Disabled i r (lsDisableTake i s) := by
  rw [lsDisableTake_pending h]
  exact disabled_of_claims (claims_effect_own hi r s) (slotOf_effect i r s)

/-- The other solver's disable still waits. -/
theorem pending_take_other {i j : Fin 5} {r : CmdRef} {s : State} (hj : j = 3 ∨ j = 4) (hne : i ≠ j) (hc : s.solvers[j].claim ≠ none)
    (h : s.solvers[j].disablePend = some r) : (lsDisableTake i s).solvers[j].disablePend = some r := by
  cases hq : s.solvers[i].disablePend with
  | none =>
    unfold lsDisableTake
    rw [hq]
    exact h
  | some q =>
    have stays := claims_effect_claimed hj hne q hc
    rw [claims_getElem, claims_getElem] at stays
    rw [lsDisableTake_pending hq]
    exact (congrArg Prod.snd stays).trans h

theorem lsDisableTakeEffect_gives {s : State} (hr : s.cyc.running = false ∨ tkDue s = true) (hc : ∀ i : Fin 5, s.solvers[i].disablePend ≠ none → s.solvers[i].claim ≠ none) :
    Gives .lsDisableTakeEffect s [.cores, .solvers, .sync, .mbx, .boot] fun t => ∀ i : Fin 5, 3 ≤ i.val → ∀ r, s.solvers[i].disablePend = some r →
      t.solvers[i].claim = none ∧ t.solvers[i].disablePend = none ∧ slotOf r t = none := by
  refine gives_of_leaves (leaves_lsDisableTakeEffect s) (t := lsDisableTake 4 (lsDisableTake 3 s)) (congrArg Host.Outcome.next (if_neg ?_)) fun i hi r hp => ?_
  · rcases hr with hr | hr <;> simp [hr]
  · have two : ∀ i : Fin 5, 3 ≤ i.val → i = 3 ∨ i = 4 := by decide
    rcases two i hi with rfl | rfl
    · exact disabled_take_later (.inl rfl) (disabled_take (.inl rfl) hp)
    · exact disabled_take (.inr rfl) (pending_take_other (.inr rfl) (by decide) (hc 4 (by rw [hp]; exact Option.some_ne_none r)) hp)

/-! ## SERVICE_CLEAR (R421, R469) -/

theorem serviceClear_rows {r : CmdRef} {x : Slot} {s : State} (h : Waits r 0x0902 x s) (hd : slotData x = []) :
    (s.arb.key ≠ .service → Gives (.serviceClear r) s [.sync, .mbx, .ps, .boot] (Ended r x .refused 0 (Config.textOf "NOT_SERVICE"))) ∧
    (s.arb.key = .service → recordSeq 2 2 s < 2 ^ 32 - 1 → Gives (.serviceClear r) s [.sync, .mbx, .ps, .boot] fun t => GoesOn r x .pstore t ∧ t.boot.fc1 = 0 ∧
      t.boot.fc2 = 0 ∧ t.boot.rec_ = { s.boot.rec_ with fc := .replicate 15 0, flags := s.boot.rec_.flags &&& 0xD0 }) := by
  have key : ((begun r s).arb.key != .service) = (s.arb.key != .service) := congrArg (fun a : Arb => a.key != .service) ((kept_begun r s).only .arb (by decide))
  have boot : (begun r s).boot = s.boot := (kept_begun r s).only .boot (by decide)
  have seq : recordSeq 2 2 (begun r s) = recordSeq 2 2 s := by
    obtain ⟨m, hm⟩ := begun_mbx r s
    rw [hm]
    rfl
  let cleared : State := { begun r s with boot := { (begun r s).boot with fc1 := 0, fc2 := 0 } }
  let written : State := writeBoot (fun b => { b with fc := .replicate 15 0, flags := b.flags &&& 0xD0 }) cleared
  have hrun : exec (.serviceClear r) s = .next (if s.arb.key != .service then finishRefused r 0 "NOT_SERVICE" (begun r s)
      else if recordSeq 2 2 s ≥ 2 ^ 32 - 1 then finish r .medium 0 [] (psErr 5 (begun r s))
      else psRecord .esc (escPayload 0 []) (waitFor r .pstore written)) := by
    refine congrArg Host.Outcome.next ((runSized_waits h (congrArg List.length hd) _).trans ?_)
    dsimp only
    (rw [key, seq]) <;> rfl
  refine ⟨fun hk => ?_, fun hk hs => ?_⟩
  · rw [if_pos (bne_iff_ne.2 hk)] at hrun
    exact gives_ended (leaves_serviceClear r s) h.slot hrun rfl
  · have inService : ¬(s.arb.key != .service) = true := fun e => bne_iff_ne.1 e hk
    have room : ¬recordSeq 2 2 s ≥ 2 ^ 32 - 1 := Nat.not_le.2 hs
    rw [if_neg inService, if_neg room] at hrun
    have recorded := kept_psRecord (ps0 := [.ps]) .esc (escPayload 0 []) (waitFor r .pstore written) kept_refl (List.Subset.refl _)
    have mbx : written.mbx = (begun r s).mbx := (kept_writeBoot (ps0 := [.ps, .boot]) _ cleared kept_refl (List.Subset.refl _)).only .mbx (by decide)
    have bootw : (waitFor r .pstore written).boot = written.boot := (kept_waitFor (ps0 := [.mbx]) r .pstore written kept_refl (List.Subset.refl _)).only .boot (by decide)
    have done : (psRecord .esc (escPayload 0 []) (waitFor r .pstore written)).boot = written.boot := (recorded.only .boot (by decide)).trans bootw
    have record : written.boot = { s.boot with fc1 := 0, fc2 := 0, rec_ := { s.boot.rec_ with fc := .replicate 15 0, flags := s.boot.rec_.flags &&& 0xD0 } } := by
      rw [← boot]
      exact (kept_psRecord (ps0 := [.ps]) .boot _ _ kept_refl (List.Subset.refl _)).only .boot (by decide)
    refine gives_of_leaves (leaves_serviceClear r s) hrun ⟨?_, ?_⟩
    · exact (slotOf_congr (recorded.only .mbx (by decide)) r).trans (waitFor_goesOn h.slot mbx)
    · rw [done, record]
      exact ⟨rfl, rfl, rfl⟩

end Sys2Proof.Proofs
end

section
/-! SUPPORT. SURVEY and FREIGHT (R172, R188, R369). -/

namespace Sys2Proof.Proofs
open Sys2Proof.Machine Sys2Proof.Safety Sys2Proof.Laws
set_option Elab.async false

/-! ## SURVEY (R188, R369) -/

theorem survey_run {r : CmdRef} {x : Slot} {s : State} (h : Waits r 0x0702 x s) (hd : slotData x = []) :
    exec (.survey r) s = .next (if !s.ring.frtOn || s.ring.frtDisable then finish r .disabled 0 [] (begun r s)
      else if (coachesOf s).isEmpty then finish r .ok 0 (wordBytes (rtmSurv s)) (surveyAll (begun r s))
      else surveyBegin (waitFor r .freight (surveyAll (begun r s)))) := by
  refine congrArg Host.Outcome.next ((runSized_waits h (congrArg List.length hd) _).trans ?_)
  have ring : (begun r s).ring = s.ring := (kept_begun r s).only .ring (by decide)
  have todo : (surveyAll (begun r s)).rtm.todo.isEmpty = (coachesOf s).isEmpty := by
    show ((coachesOf (begun r s)).map _).isEmpty = _
    rw [List.isEmpty_map]
    unfold coachesOf
    rw [ring]
  have surv : rtmSurv (surveyAll (begun r s)) = rtmSurv s := by
    have rtm : (begun r s).rtm = s.rtm := (kept_begun r s).only .rtm (by decide)
    show pack [((begun r s).rtm.survCount.toNat, 0), ((begun r s).rtm.survState.toNat, 30)] = _
    rw [rtm]
    rfl
  dsimp only
  (rw [ring, todo, surv]) <;> rfl

theorem survey_disabled {r : CmdRef} {x : Slot} {s : State} (h : Waits r 0x0702 x s) (hd : slotData x = []) (hf : s.ring.frtOn = false ∨ s.ring.frtDisable = true) :
    Gives (.survey r) s [.mem, .ring, .rtm, .sync, .mbx, .freeCtr] (Ended r x .disabled 0 []) := by
  have hrun := survey_run h hd
  rw [if_pos (by rcases hf with hf | hf <;> simp [hf])] at hrun
  exact gives_ended (leaves_survey r s) h.slot hrun rfl

theorem survey_nothing {r : CmdRef} {x : Slot} {s : State} (h : Waits r 0x0702 x s) (hd : slotData x = []) (hf : s.ring.frtOn = true) (he : s.ring.frtDisable = false)
    (hc : coachesOf s = []) : Gives (.survey r) s [.mem, .ring, .rtm, .sync, .mbx, .freeCtr] (Ended r x .ok 0 (leBytes 4 (rtmSurv s).toNat)) := by
  have hrun := survey_run h hd
  rw [if_neg (by simp [hf, he]), if_pos (by rw [hc]; rfl)] at hrun
  exact gives_ended (leaves_survey r s) h.slot hrun rfl

theorem survey_joins {r : CmdRef} {x : Slot} {s : State} (h : Waits r 0x0702 x s) (hd : slotData x = []) (hf : s.ring.frtOn = true) (he : s.ring.frtDisable = false)
    (hc : coachesOf s ≠ []) (hs : s.rtm.survState = 1) : Gives (.survey r) s [.mem, .ring, .rtm, .sync, .mbx, .freeCtr] fun t =>
      GoesOn r x .freight t ∧ ∀ c ∈ coachesOf s, ∃ f, (c.addr, f) ∈ t.rtm.todo := by
  have hrun := survey_run h hd
  have some_ : (coachesOf s).isEmpty = false := by
    cases hx : coachesOf s with
    | nil => exact absurd hx hc
    | cons c cs => rfl
  rw [if_neg (by simp [hf, he]), if_neg (by rw [some_]; exact Bool.false_ne_true)] at hrun
  have rtm : (waitFor r .freight (surveyAll (begun r s))).rtm = (surveyAll (begun r s)).rtm :=
    (kept_waitFor (ps0 := [.mbx]) r .freight (surveyAll (begun r s)) kept_refl (List.Subset.refl _)).only .rtm (by decide)
  have state : (surveyAll (begun r s)).rtm.survState = 1 := (congrArg Rtm.survState ((kept_begun r s).only .rtm (by decide))).trans hs
  have runs : surveyBegin (waitFor r .freight (surveyAll (begun r s))) = waitFor r .freight (surveyAll (begun r s)) := by
    refine if_pos ?_
    rw [rtm, state]
    simp
  rw [runs] at hrun
  refine gives_of_leaves (leaves_survey r s) hrun ⟨waitFor_goesOn (t := surveyAll (begun r s)) h.slot rfl, fun c hm => ⟨false, ?_⟩⟩
  rw [rtm]
  have coaches : coachesOf (begun r s) = coachesOf s := by
    unfold coachesOf
    rw [((kept_begun r s).only .ring (by decide) : (begun r s).ring = _)]
  refine List.mem_map.2 ⟨c, ?_, rfl⟩
  rw [coaches]
  exact hm

/-! ## FREIGHT (R172, R188, R369) -/

/-- A well-formed FREIGHT command's request. -/
def freightReq (d : List Byte) : FrtReq :=
  { src := 0, op := BitVec.ofNat 8 (sliceNat 0 1 d), path := (List.range (sliceNat 1 1 d)).map (pathEntry (sliceNat 2 12 d)), index := BitVec.ofNat 32 (sliceNat 14 4 d)
    data := if sliceNat 0 1 d = 2 then d.drop 20 else List.replicate (sliceNat 18 2 d) 0 }

theorem freight_run {r : CmdRef} {x : Slot} {s : State} (h : Waits r 0x0701 x s)
    (ho : sliceNat 0 1 (slotData x) = 1 ∧ (slotData x).length = 20 ∨ sliceNat 0 1 (slotData x) = 2 ∧ (slotData x).length = 20 + sliceNat 18 2 (slotData x))
    (h1 : 1 ≤ sliceNat 1 1 (slotData x)) (h8 : sliceNat 1 1 (slotData x) ≤ 8) (hp : sliceNat 2 12 (slotData x) < 2 ^ (12 * sliceNat 1 1 (slotData x))) :
    exec (.freight r) s = .next (if !(rightsOf r s).getLsbD (if sliceNat 0 1 (slotData x) = 1 then 0 else 2) then finish r .denied 0 [] (begun r s)
      else frtSubmit (.host r) (freightReq (slotData x)) (begun r s)) := by
  refine congrArg Host.Outcome.next ((runCmd_waits h _).trans ?_)
  have rights : rightsOf r (begun r s) = rightsOf r s := by
    unfold rightsOf
    have same : (sessOf r (begun r s)).rights = (sessOf r s).rights := by
      unfold begun
      rw [sessOf_modSlot]
    rw [same]
  dsimp only
  have op : ¬(decide (sliceNat 0 1 (slotData x) ≠ 1) && decide (sliceNat 0 1 (slotData x) ≠ 2)) = true := by
    rcases ho with ⟨ho, -⟩ | ⟨ho, -⟩ <;> simp [ho]
  have depth : ¬(decide (sliceNat 1 1 (slotData x) = 0) || decide (8 < sliceNat 1 1 (slotData x))) = true := by
    simp only [Bool.or_eq_true, decide_eq_true_eq]
    omega
  have len : ¬(slotData x).length ≠ 20 + (if sliceNat 0 1 (slotData x) = 2 then sliceNat 18 2 (slotData x) else 0) := by
    rcases ho with ⟨ho, hl⟩ | ⟨ho, hl⟩
    · rw [hl, ho]
      exact not_not.2 rfl
    · rw [hl, ho]
      exact not_not.2 rfl
  rw [if_neg (by rcases ho with ⟨-, hl⟩ | ⟨-, hl⟩ <;> omega), if_neg op, if_neg depth, if_neg (Nat.not_le.2 hp), if_neg len, rights]
  rfl

theorem frtSubmit_kept {use : FrtUse} {q : FrtReq} {s : State} (h : frtRefusal q s = none) :
    frtSubmit use q s = writeBytes 4 (frtBuf false (freeSlot s)) q.data (modRing (fun g => { g with items := g.items ++ [frtNew use q s] }) s) := by
  unfold frtSubmit
  rw [h]

theorem frtBuf_small (n : Fin 128) : frtBuf false n ≤ 2 ^ 21 := by
  have := n.isLt
  show 0x1C0000 + 0x400 * n.val + 0 ≤ 2 ^ 21
  omega

theorem freight_kept {r : CmdRef} {x : Slot} {s : State} {q : FrtReq} (hx : slotOf r s = some x) (h : frtRefusal q s = none)
    (he : exec (.freight r) s = .next (frtSubmit (.host r) q (begun r s))) :
    Gives (.freight r) s [.mem, .ring, .sync, .mbx] fun t => slotOf r t = some { x with started := true } ∧
      ∃ i : FrtItem, t.ring = { s.ring with items := s.ring.items ++ [i] } ∧ i.req = q ∧ i.use = .host r ∧ i.attempt = 0 ∧
        (Safety.Inv s → ∀ k, k < q.data.length → readByte 4 (frtBuf false i.slot + k) t = q.data.getD k 0) := by
  have refusal : frtRefusal q (begun r s) = none := by
    obtain ⟨m, hm⟩ := begun_mbx r s
    rw [hm]
    exact h
  rw [frtSubmit_kept refusal] at he
  have ring : (begun r s).ring = s.ring := (kept_begun r s).only .ring (by decide)
  have mem : (begun r s).mem = s.mem := (kept_begun r s).only .mem (by decide)
  have wrote := kept_writeBytes (ps0 := [.mem]) 4 (frtBuf false (freeSlot (begun r s))) q.data
    (modRing (fun g => { g with items := g.items ++ [frtNew (.host r) q (begun r s)] }) (begun r s)) kept_refl (List.Subset.refl _)
  refine gives_of_leaves (leaves_freight r s) he ⟨(slotOf_congr (wrote.only .mbx (by decide)) r).trans (begun_slot hx), frtNew (.host r) q (begun r s), ?_, rfl, rfl, rfl,
    fun hi k hk => ?_⟩
  · refine (wrote.only .ring (by decide)).trans ?_
    exact congrArg (fun g : Ring => { g with items := g.items ++ [frtNew (.host r) q (begun r s)] }) ring
  · exact (readByte_writeBytes_same 4 (frtBuf false (freeSlot (begun r s))) q.data _ (by show memWf (begun r s).mem; rw [mem]; exact hi) k hk).trans
      (List.getD_eq_getElem _ _ hk).symm

/-- Settles O42, row by row. -/
theorem commandsConfigureTheModule : Obligations.CommandsConfigureTheModule := by
  unfold Obligations.CommandsConfigureTheModule
  refine ⟨fun r x s => ⟨fun h hd => ?_, fun h hl hs => ringEn_rows h hl hs, fun i h hl hi hz => lsDisable_rows h hl hi hz, fun h hd => serviceClear_rows h hd,
    survey_disabled, survey_nothing, survey_joins⟩, fun s hr hc => lsDisableTakeEffect_gives hr hc, fun r x s h ho h1 h8 hp => ?_⟩
  · obtain ⟨locked, layout, bad⟩ := cfgWrite_turned h hd
    exact ⟨locked, layout, bad, fun hl hb => cfgWrite_applied h hd hl hb⟩
  · have hrun := freight_run h ho h1 h8 hp
    refine ⟨fun hr => ?_, fun hr hn => ?_⟩
    · rw [if_pos (by rw [hr]; rfl)] at hrun
      exact gives_ended (leaves_freight r s) h.slot hrun rfl
    · rw [if_neg (by rw [hr]; exact Bool.false_ne_true)] at hrun
      exact freight_kept h.slot hn hrun

end Sys2Proof.Proofs
end

section
/-! SUPPORT. Parameter store pages (R439 to R449, R498). -/

namespace Sys2Proof.Proofs
open Sys2Proof.Machine Sys2Proof.Safety Sys2Proof.Laws
set_option Elab.async false

/-! ## Queued writes (R445, R446) -/

/-- A write of PS_CMD or of a command, which is programmed as it stands. -/
def plainUse (u : PsFor) : Bool := match u with | .reg => true | .cmd _ => true | _ => false

/-- A write that stands in the Steward's queue or is under way. -/
def Stands (q : PsReq) (s : State) : Prop := q ∈ s.ps.qStew ∨ s.ps.cur = some q

theorem prepareWrite_plain {q : PsReq} (h : plainUse q.use = true) (s : State) : prepareWrite q s = q := by
  obtain ⟨use, page, off, data, retried⟩ := q
  cases use with
  | reg => rfl
  | cmd r => rfl
  | boot b => exact absurd h Bool.false_ne_true
  | esc b => exact absurd h Bool.false_ne_true
  | epoch b v => exact absurd h Bool.false_ne_true
  | hours b => exact absurd h Bool.false_ne_true
  | event => exact absurd h Bool.false_ne_true

/-- The parameter store but for its queues and the write under way. -/
def psRest (p : PStore) : PStore := { p with cur := none, qLease := [], qSup := [], qStew := [] }

/-- Beginning the next write moves queues and nothing else. -/
theorem psNext_rest (s : State) : psRest (psNext s).ps = psRest s.ps := by
  unfold psNext
  split
  · rfl
  · split <;> rfl

theorem psQueue_rest (q : PsReq) (s : State) : psRest (psQueue q s).ps = psRest s.ps := by
  unfold psQueue
  rw [psNext_rest]
  split <;> rfl

/-- A plain write goes on standing when the next write begins. -/
theorem psNext_stands {q : PsReq} (hq : plainUse q.use = true) {s : State} (h : Stands q s) : Stands q (psNext s) := by
  unfold psNext
  split
  · exact h
  next hn =>
    have idle : s.ps.cur = none := by
      cases hc : s.ps.cur with
      | none => rfl
      | some r => exact absurd (by rw [hc]; rfl) hn
    have queued : q ∈ s.ps.qStew := h.resolve_right (by rw [idle]; nofun)
    split
    · exact .inl queued
    · exact .inl queued
    next r l _ _ hl =>
      rw [hl] at queued
      rcases List.mem_cons.1 queued with rfl | hm
      · exact .inr (congrArg some (prepareWrite_plain hq s))
      · exact .inl hm
    · exact .inl queued

/-- A queue is only lengthened by a new write, and the write under way stays. -/
theorem psQueue_stands {q : PsReq} (hq : plainUse q.use = true) (r : PsReq) {s : State} (h : Stands q s) : Stands q (psQueue r s) := by
  unfold psQueue
  refine psNext_stands hq ?_
  split
  · exact h
  · exact h
  · exact h
  · exact h.imp_left (List.mem_append_left _)
  · exact h.imp_left (List.mem_append_left _)
  · exact h.imp_left (List.mem_append_left _)
  · exact h.imp_left (List.mem_append_left _)

theorem psQueue_stands_new {q : PsReq} (hq : plainUse q.use = true) (s : State) : Stands q (psQueue q s) := by
  unfold psQueue
  refine psNext_stands hq ?_
  have last (l : List PsReq) : q ∈ l ++ [q] := List.mem_append_right _ (List.mem_singleton_self q)
  obtain ⟨use, page, off, data, retried⟩ := q
  cases use with
  | reg => exact .inl (last _)
  | cmd r => exact .inl (last _)
  | boot b => exact absurd hq Bool.false_ne_true
  | esc b => exact absurd hq Bool.false_ne_true
  | epoch b v => exact absurd hq Bool.false_ne_true
  | hours b => exact absurd hq Bool.false_ne_true
  | event => exact absurd hq Bool.false_ne_true

/-- Every write of a list that is queued stands. -/
theorem psQueue_all_stand {α : Type} {g : α → PsReq} (hg : ∀ a, plainUse (g a).use = true) (l : List α) (s : State) :
    (∀ q, plainUse q.use = true → Stands q s → Stands q (l.foldl (fun s a => psQueue (g a) s) s)) ∧ ∀ a ∈ l, Stands (g a) (l.foldl (fun s a => psQueue (g a) s) s) := by
  induction l generalizing s with
  | nil => exact ⟨fun _ _ h => h, fun a ha => absurd ha List.not_mem_nil⟩
  | cons a l ih =>
    obtain ⟨old, new⟩ := ih (psQueue (g a) s)
    refine ⟨fun q hq h => old q hq (psQueue_stands hq _ h), fun b hb => ?_⟩
    rcases List.mem_cons.1 hb with rfl | hb
    · exact old _ (hg b) (psQueue_stands_new (hg b) s)
    · exact new b hb

/-! ## Pages of a host (R368, R442) -/

theorem page_congr {s t : State} (h : t.ps = s.ps) (n : Nat) : page n t = page n s := by
  unfold page
  rw [h]

theorem pageShown_congr {s t : State} (h : t.ps = s.ps) (n : Nat) : pageShown n t = pageShown n s := by
  unfold pageShown
  rw [page_congr h]

theorem begun_ps (r : CmdRef) (s : State) : (begun r s).ps = s.ps := (kept_begun r s).only .ps (by decide)

theorem psProtected_begun (r : CmdRef) (n : Nat) (s : State) : psProtected n (begun r s) = psProtected n s := by
  unfold psProtected
  rw [begun_ps]

theorem pstoreRead_row {r : CmdRef} {x : Slot} {s : State} (h : Waits r 0x0601 x s) (hl : (slotData x).length = 4) (h1 : 1 ≤ sliceNat 2 2 (slotData x))
    (h256 : sliceNat 2 2 (slotData x) ≤ 256) (hend : sliceNat 0 2 (slotData x) + sliceNat 2 2 (slotData x) ≤ 4096) :
    Gives (.pstoreRead r) s [.sync, .mbx] (Ended r x .ok 0 ((List.range (sliceNat 2 2 (slotData x))).flatMap fun i => pageShown (sliceNat 0 2 (slotData x) + i) s)) := by
  refine gives_ended (leaves_pstoreRead r s) h.slot (congrArg Host.Outcome.next ((runCmd_waits h _).trans ?_)) rfl
  dsimp only
  rw [if_neg (by simp only [hl, decide_not]; simp; omega), if_neg (by simp; omega)]
  simp only [pageShown_congr (begun_ps r s)]

/-- A host's write of pages outside the key pages. -/
theorem pstoreWrite_run {r : CmdRef} {x : Slot} {s : State} (h : Waits r 0x0602 x s) (h1 : 1 ≤ sliceNat 2 2 (slotData x)) (h256 : sliceNat 2 2 (slotData x) ≤ 256)
    (hend : sliceNat 0 2 (slotData x) + sliceNat 2 2 (slotData x) ≤ 4096) (hl : (slotData x).length = 4 + 256 * sliceNat 2 2 (slotData x))
    (hk : 132 ≤ sliceNat 0 2 (slotData x) ∨ sliceNat 0 2 (slotData x) + sliceNat 2 2 (slotData x) ≤ 128) :
    let first := sliceNat 0 2 (slotData x)
    let n := sliceNat 2 2 (slotData x)
    exec (.pstoreWrite r) s = .next (match (List.range n).find? fun i => first + i < 128 || psProtected (first + i) s with
      | some i => if first + i < 128 then finish r .noPath 0 (leBytes 2 0) (begun r s) else finish r .protected_ (first + i) (leBytes 2 0) (begun r s)
      | none => (enum ((List.range n).map fun i => ((slotData x).drop (4 + 256 * i)).take 256)).foldl (fun s p =>
          psQueue { use := .cmd r, page := BitVec.ofNat 12 (first + p.1), off := 0, data := p.2, retried := false } s) (waitFor r .pstore (begun r s))) := by
  refine congrArg Host.Outcome.next ((runCmd_waits h _).trans ?_)
  dsimp only
  (rw [if_neg (by omega), if_neg (by simp [hl]; omega), if_neg (by simp; omega)]
   simp only [psProtected_begun]) <;> rfl

theorem mem_enum_map {α : Type} (f : Nat → α) {n i : Nat} (h : i < n) : (i, f i) ∈ enum ((List.range n).map f) := by
  unfold enum
  rw [List.mem_iff_getElem]
  refine ⟨i, by simpa using h, by simp⟩

theorem pstoreWrite_taken {r : CmdRef} {x : Slot} {s : State} (h : Waits r 0x0602 x s) (h1 : 1 ≤ sliceNat 2 2 (slotData x)) (h256 : sliceNat 2 2 (slotData x) ≤ 256)
    (hend : sliceNat 0 2 (slotData x) + sliceNat 2 2 (slotData x) ≤ 4096) (hl : (slotData x).length = 4 + 256 * sliceNat 2 2 (slotData x))
    (hk : 132 ≤ sliceNat 0 2 (slotData x)) (hp : ∀ i, i < sliceNat 2 2 (slotData x) → psProtected (sliceNat 0 2 (slotData x) + i) s = false) :
    Gives (.pstoreWrite r) s [.sync, .mbx, .ps] fun t => GoesOn r x .pstore t ∧ ∀ i, i < sliceNat 2 2 (slotData x) →
      ∃ q, (q ∈ t.ps.qStew ∨ t.ps.cur = some q) ∧ q.use = .cmd r ∧ q.page.toNat = sliceNat 0 2 (slotData x) + i ∧ q.off = 0 ∧
        q.data = ((slotData x).drop (4 + 256 * i)).take 256 := by
  have hrun := pstoreWrite_run h h1 h256 hend hl (.inl hk)
  dsimp only at hrun
  have allowed : ((List.range (sliceNat 2 2 (slotData x))).find? fun i => sliceNat 0 2 (slotData x) + i < 128 || psProtected (sliceNat 0 2 (slotData x) + i) s) = none := by
    refine List.find?_eq_none.2 fun i hi => ?_
    rw [hp i (List.mem_range.1 hi), Bool.or_false, decide_eq_true_iff]
    omega
  rw [allowed] at hrun
  refine gives_of_leaves (leaves_pstoreWrite r s) hrun ⟨?_, fun i hi => ?_⟩
  · have queued : Kept [.ps] (waitFor r .pstore (begun r s)) ((enum ((List.range (sliceNat 2 2 (slotData x))).map fun i =>
        ((slotData x).drop (4 + 256 * i)).take 256)).foldl (fun s p =>
          psQueue { use := .cmd r, page := BitVec.ofNat 12 (sliceNat 0 2 (slotData x) + p.1), off := 0, data := p.2, retried := false } s) (waitFor r .pstore (begun r s))) :=
      kept_foldl kept_refl fun a p ha => kept_psQueue _ _ ha (List.Subset.refl _)
    exact (slotOf_congr (queued.only .mbx (by decide)) r).trans (waitFor_goesOn h.slot rfl)
  · have stands := (psQueue_all_stand (g := fun p : Nat × List Byte => { use := .cmd r, page := BitVec.ofNat 12 (sliceNat 0 2 (slotData x) + p.1), off := 0, data := p.2, retried := false })
      (fun _ => rfl) _ (waitFor r .pstore (begun r s))).2 _ (mem_enum_map (fun i => ((slotData x).drop (4 + 256 * i)).take 256) hi)
    refine ⟨_, stands, rfl, ?_, rfl, rfl⟩
    rw [BitVec.toNat_ofNat]
    omega

theorem pstoreWrite_system {r : CmdRef} {x : Slot} {s : State} (h : Waits r 0x0602 x s) (h1 : 1 ≤ sliceNat 2 2 (slotData x)) (h256 : sliceNat 2 2 (slotData x) ≤ 256)
    (hl : (slotData x).length = 4 + 256 * sliceNat 2 2 (slotData x)) (hk : sliceNat 0 2 (slotData x) + sliceNat 2 2 (slotData x) ≤ 128) :
    Gives (.pstoreWrite r) s [.sync, .mbx, .ps] (Ended r x .noPath 0 [0, 0]) := by
  have hrun := pstoreWrite_run h h1 h256 (by omega) hl (.inr hk)
  dsimp only at hrun
  have found : ((List.range (sliceNat 2 2 (slotData x))).find? fun i => sliceNat 0 2 (slotData x) + i < 128 || psProtected (sliceNat 0 2 (slotData x) + i) s) = some 0 := by
    obtain ⟨m, hm⟩ := Nat.exists_eq_add_of_le' h1
    rw [hm, List.range_succ_eq_map, List.find?_cons_of_pos (by simp; left; omega)]
  rw [found] at hrun
  dsimp only at hrun
  rw [if_pos (by omega)] at hrun
  exact gives_ended (leaves_pstoreWrite r s) h.slot hrun rfl

theorem pstoreWrite_protected {r : CmdRef} {x : Slot} {s : State} (h : Waits r 0x0602 x s) (h1 : 1 ≤ sliceNat 2 2 (slotData x)) (h256 : sliceNat 2 2 (slotData x) ≤ 256)
    (hend : sliceNat 0 2 (slotData x) + sliceNat 2 2 (slotData x) ≤ 4096) (hl : (slotData x).length = 4 + 256 * sliceNat 2 2 (slotData x))
    (hk : 132 ≤ sliceNat 0 2 (slotData x)) {i : Nat} (hi : i < sliceNat 2 2 (slotData x)) (hp : psProtected (sliceNat 0 2 (slotData x) + i) s = true)
    (hb : ∀ j, j < i → psProtected (sliceNat 0 2 (slotData x) + j) s = false) :
    Gives (.pstoreWrite r) s [.sync, .mbx, .ps] (Ended r x .protected_ (sliceNat 0 2 (slotData x) + i) [0, 0]) := by
  have hrun := pstoreWrite_run h h1 h256 hend hl (.inl hk)
  dsimp only at hrun
  have found : ((List.range (sliceNat 2 2 (slotData x))).find? fun i => sliceNat 0 2 (slotData x) + i < 128 || psProtected (sliceNat 0 2 (slotData x) + i) s) = some i := by
    rw [List.find?_range_eq_some]
    refine ⟨by rw [hp, Bool.or_true], List.mem_range.2 hi, fun j hj => ?_⟩
    rw [hb j hj, Bool.or_false, Bool.not_eq_true', decide_eq_false_iff_not]
    omega
  rw [found] at hrun
  dsimp only at hrun
  rw [if_neg (by omega)] at hrun
  exact gives_ended (leaves_pstoreWrite r s) h.slot hrun rfl

/-! ## PS_CMD (R441, R442, R451) -/

theorem psBy_eq {s : State} (hp : pdOn .stew s = true) (hs : s.ps.scan = false) (f : State → State) : psBy f s = f (answer .ok 0 s) :=
  if_pos (by rw [hp, hs]; rfl)

/-- The state with another parameter store, its access answered. -/
def psAnswered (p : PStore) (s : State) : State := { s with ps := p, bus := { resp := .ok, val := 0 } }

/-- PS_ERR with TRUNC where a range ends beyond its page. -/
def truncErr (off len : Nat) (e : BitVec 7) : BitVec 7 := if 256 < off + len then Sys2Proof.Machine.setBit e 0 true else e

/-- The store after a READ of PS_CMD that found the given bytes. -/
def readInto (bs : List Byte) (p : PStore) : PStore := { p with done := true, fail := false, buf := mergePage p.buf 0 bs }

theorem psCmd_busy {pg : BitVec 12} {off lenm1 : BitVec 8} {s : State} (hp : pdOn .stew s = true) (hs : s.ps.scan = false) (hb : psBusy s = true) :
    ∀ i ∈ [Instr.psRead pg off lenm1, .psWrite pg off lenm1], exec i s = .next (psAnswered { s.ps with err := Sys2Proof.Machine.setBit s.ps.err 3 true } s) := by
  have busy (op : Nat) : psBy (psCmdOp op pg off.toNat (lenm1.toNat + 1)) s = psAnswered { s.ps with err := Sys2Proof.Machine.setBit s.ps.err 3 true } s :=
    (psBy_eq hp hs _).trans (if_pos hb)
  intro i hi
  rcases List.mem_cons.1 hi with rfl | hi
  · exact congrArg Host.Outcome.next (busy 1)
  · obtain rfl := List.mem_singleton.1 hi
    exact congrArg Host.Outcome.next (busy 2)

theorem psTrunc_eq (off len : Nat) (s : State) : (if 256 < off + len then psErr 0 s else s) = modPs (fun p => { p with err := truncErr off len p.err }) s := by
  unfold truncErr
  split <;> rfl

theorem psRead_idle {pg : BitVec 12} {off lenm1 : BitVec 8} {s : State} (hp : pdOn .stew s = true) (hs : s.ps.scan = false) (hb : psBusy s = false) :
    exec (.psRead pg off lenm1) s = .next (psAnswered (readInto (((page pg.toNat s).drop off.toNat).take (lenm1.toNat + 1))
      { s.ps with err := truncErr off.toNat (lenm1.toNat + 1) s.ps.err }) s) := by
  refine congrArg Host.Outcome.next ((psBy_eq hp hs _).trans ?_)
  unfold psCmdOp
  rw [if_neg (by rw [show psBusy (answer .ok 0 s) = psBusy s from rfl, hb]; exact Bool.false_ne_true), if_pos rfl]
  unfold psReadOp
  rw [psTrunc_eq]
  rfl

theorem psWrite_run {pg : BitVec 12} {off lenm1 : BitVec 8} {s : State} (hp : pdOn .stew s = true) (hs : s.ps.scan = false) (hb : psBusy s = false) :
    exec (.psWrite pg off lenm1) s = .next (psWriteOp pg off.toNat (lenm1.toNat + 1) (psAccept (answer .ok 0 s))) := by
  refine congrArg Host.Outcome.next ((psBy_eq hp hs _).trans ?_)
  unfold psCmdOp
  rw [if_neg (by rw [show psBusy (answer .ok 0 s) = psBusy s from rfl, hb]; exact Bool.false_ne_true), if_neg (by decide), if_pos rfl]

theorem psWrite_protected {pg : BitVec 12} {off lenm1 : BitVec 8} {s : State} (hp : pdOn .stew s = true) (hs : s.ps.scan = false) (hb : psBusy s = false)
    (hf : psForeign pg.toNat = false) (hq : psProtected pg.toNat s = true) :
    exec (.psWrite pg off lenm1) s = .next (psAnswered { s.ps with done := true, err := Sys2Proof.Machine.setBit s.ps.err 1 true } s) := by
  rw [psWrite_run hp hs hb]
  unfold psWriteOp
  rw [if_neg (by rw [hf]; exact Bool.false_ne_true), if_pos (by exact hq)]
  rfl

theorem psWrite_foreign {pg : BitVec 12} {off lenm1 : BitVec 8} {s : State} (hp : pdOn .stew s = true) (hs : s.ps.scan = false) (hb : psBusy s = false)
    (hf : psForeign pg.toNat = true) : Gives (.psWrite pg off lenm1) s [.memRegs, .ps, .bus] fun t =>
      t.ps = { s.ps with done := true, err := Sys2Proof.Machine.setBit s.ps.err 2 true } ∧ t.bus = { resp := .noPath, val := 0 } := by
  have hrun := psWrite_run (pg := pg) (off := off) (lenm1 := lenm1) hp hs hb
  unfold psWriteOp at hrun
  rw [if_pos hf] at hrun
  refine gives_of_leaves (leaves_psWrite pg off lenm1 s) hrun ⟨?_, rfl⟩
  have counted (t : State) : (countAf .steward t).ps = t.ps := (kept_countAf (ps0 := [.memRegs]) .steward t kept_refl (List.Subset.refl _)).only .ps (by decide)
  exact counted _

/-- The request that a WRITE of PS_CMD queues. -/
def regWrite (pg : BitVec 12) (off lenm1 : BitVec 8) (s : State) : PsReq :=
  { use := .reg, page := pg, off := off.toNat, data := s.ps.buf.take (lenm1.toNat + 1), retried := false }

theorem psWrite_taken {pg : BitVec 12} {off lenm1 : BitVec 8} {s : State} (hp : pdOn .stew s = true) (hs : s.ps.scan = false) (hb : psBusy s = false)
    (hf : psForeign pg.toNat = false) (hq : psProtected pg.toNat s = false) : Gives (.psWrite pg off lenm1) s [.ps, .bus] fun t => t.ps.done = false ∧
      t.ps.err = truncErr off.toNat (lenm1.toNat + 1) s.ps.err ∧ (t.ps.cur = some (regWrite pg off lenm1 s) ∨ regWrite pg off lenm1 s ∈ t.ps.qStew) := by
  have hrun := psWrite_run (pg := pg) (off := off) (lenm1 := lenm1) hp hs hb
  unfold psWriteOp at hrun
  rw [if_neg (by rw [hf]; exact Bool.false_ne_true), if_neg (by rw [show psProtected pg.toNat (psAccept (answer .ok 0 s)) = psProtected pg.toNat s from rfl, hq]; exact Bool.false_ne_true),
    psTrunc_eq] at hrun
  have rest := psQueue_rest (regWrite pg off lenm1 s) (modPs (fun p => { p with err := truncErr off.toNat (lenm1.toNat + 1) p.err }) (psAccept (answer .ok 0 s)))
  refine ⟨_, hrun, ?_, congrArg PStore.done rest, congrArg PStore.err rest, ?_⟩
  · have accepted : Kept [.ps, .bus] s (psAccept (answer .ok 0 s)) :=
      kept_modPs _ _ (kept_mono (kept_answer (ps0 := [.bus]) .ok 0 s kept_refl (List.Subset.refl _)) (by decide)) (by decide)
    exact (kept_psQueue _ _ (kept_modPs _ _ accepted (by decide)) (by decide)).only
  · exact (psQueue_stands_new rfl _).symm

/-! ## The end of a page write (R443 to R446) -/

/-- A commit's end leaves the store but for DONE and FAIL of PS_CMD. -/
theorem psEnded_ps (q : PsReq) (old new : List Byte) (s : State) :
    (psEnded q true old new s).ps = if q.use = .reg then { s.ps with done := true, fail := false } else s.ps := by
  obtain ⟨use, page, off, data, retried⟩ := q
  have others (t : State) (h : Kept [.sync, .mbx, .esc, .fuses] s t) : t.ps = s.ps := h.only .ps (by decide)
  cases use with
  | reg => rfl
  | cmd r =>
    refine others _ ?_
    unfold psEnded
    dsimp only
    split
    · exact kept_refl
    next x _ =>
      rw [if_neg (by decide)]
      refine kept_closeSlots _ _ ?_ (by decide)
      have counted : Kept [.sync, .mbx, .esc, .fuses] s (modSlot r (fun y => { y with donePages := x.donePages + 1 }) s) := kept_modSlot _ _ _ kept_refl (by decide)
      have keyed : Kept [.sync, .mbx, .esc, .fuses] s (if (128 ≤ page.toNat && page.toNat ≤ 131) = true then
          fkeyRetire (modSlot r (fun y => { y with donePages := x.donePages + 1 }) s) else modSlot r (fun y => { y with donePages := x.donePages + 1 }) s) := by
        split
        · exact kept_fkeyRetire _ counted (by decide)
        · exact counted
      split
      · exact kept_finish _ _ _ _ _ keyed (by decide)
      · exact keyed
  | boot second =>
    refine others _ ?_
    unfold psEnded
    dsimp only
    split
    · exact kept_foldl kept_refl fun a r ha => kept_finish _ _ _ _ _ ha (by decide)
    · exact kept_refl
  | esc second =>
    refine others _ ?_
    unfold psEnded
    dsimp only
    split
    · exact kept_clearDone _ _ (kept_upd_esc kept_refl (by decide)) (by decide)
    · exact kept_upd_esc kept_refl (by decide)
  | epoch b v => rfl
  | hours b => rfl
  | event => rfl

theorem page_setPage (n m : Nat) (d : List Byte) (s : State) : page n (setPage m d s) = if n = m then d else page n s := by
  unfold page setPage
  dsimp only
  by_cases h : n = m
  · subst h
    rw [if_pos rfl, List.find?_cons_of_pos (by simp)]
    rfl
  · rw [if_neg h, List.find?_cons_of_neg (by simpa using fun e => h e.symm), List.find?_filter]
    congr 3
    funext p
    by_cases hp : p.1 = n <;> simp [hp, h]

/-- The pages are those of the store. -/
theorem page_of_pages {s t : State} (h : t.ps.pages = s.ps.pages) (n : Nat) : page n t = page n s := by
  unfold page
  rw [h]

theorem psNext_pages (s : State) : (psNext s).ps.pages = s.ps.pages :=
  (congrArg PStore.pages (psNext_rest s) :)

/-- The state in which a commit's meaning to its requester begins. -/
def mapped (q : PsReq) (s : State) : State :=
  modPs (fun p => { p with cur := none, seq := p.seq + 1, writes := inc p.writes }) (setPage q.page.toNat (mergePage (page q.page.toNat s) q.off q.data) s)

theorem psCommit_pages (q : PsReq) (s : State) : (psCommit q s).ps.pages = (mapped q s).ps.pages ∧ (psCommit q s).ps.writes = inc s.ps.writes ∧
    (psCommit q s).ps.seq = s.ps.seq + 1 ∧ (q.use = .reg → (psCommit q s).ps.done = true ∧ (psCommit q s).ps.fail = false) := by
  have e : (psCommit q s).ps = if q.use = .reg then { (mapped q s).ps with done := true, fail := false } else (mapped q s).ps := psEnded_ps q _ _ (mapped q s)
  rw [e]
  split
  next h => exact ⟨rfl, rfl, rfl, fun _ => ⟨rfl, rfl⟩⟩
  next h => exact ⟨rfl, rfl, rfl, fun hq => absurd hq h⟩

theorem psWriteCommit_committed {q : PsReq} {s : State} (hc : s.ps.cur = some q) (hf : s.ps.free ≠ 0) :
    Gives (.psWriteCommit .committed) s [.sync, .mbx, .esc, .ps, .fuses, .log] fun t =>
      (∀ n, page n t = if n = q.page.toNat then mergePage (page n s) q.off q.data else page n s) ∧
      t.ps.writes = inc s.ps.writes ∧ t.ps.seq = s.ps.seq + 1 ∧ (q.use = .reg → t.ps.done = true ∧ t.ps.fail = false) := by
  have hrun : exec (.psWriteCommit .committed) s = .next (psNext (psCommit q s)) := by
    refine congrArg Host.Outcome.next ?_
    (rw [hc]; exact if_neg hf)
  have rest := psNext_rest (psCommit q s)
  obtain ⟨pages, writes, seq, reg⟩ := psCommit_pages q s
  refine gives_of_leaves (leaves_psWriteCommit .committed s) hrun ⟨fun n => ?_, (congrArg PStore.writes rest :).trans writes,
    (congrArg PStore.seq rest :).trans seq, fun h => ⟨(congrArg PStore.done rest :).trans (reg h).1, (congrArg PStore.fail rest :).trans (reg h).2⟩⟩
  rw [page_of_pages ((psNext_pages _).trans pages), mapped, show page n (modPs _ (setPage q.page.toNat (mergePage (page q.page.toNat s) q.off q.data) s)) = page n (setPage q.page.toNat (mergePage (page q.page.toNat s) q.off q.data) s) from rfl, page_setPage]
  split
  next h => rw [h]
  next h => rfl

/-- A page that is retired: its counts, and nothing else of the store. -/
theorem psRetire_ps (s : State) : (psRetire s).ps = { s.ps with retired := inc16 s.ps.retired, free := s.ps.free - 1 } := by
  unfold psRetire
  dsimp only
  split <;> rfl

theorem psRetire_late (s : State) : psLate (psRetire s) = psLate s := by
  have k : Kept [.ps, .log] s (psRetire s) := kept_psRetire s kept_refl (List.Subset.refl _)
  unfold psLate
  rw [psRetire_ps, k.only .boot (by decide)]
  unfold since
  rw [k.only .cyc (by decide)]

theorem psWriteCommit_failed_run {q : PsReq} {s : State} (hc : s.ps.cur = some q) (hf : s.ps.free ≠ 0) :
    exec (.psWriteCommit .verifyFailed) s = .next (if q.retried || psLate (psRetire s) || (psRetire s).ps.free = 0 then psMedium q (psRetire s)
      else modPs (fun p => { p with cur := some { q with retried := true }, retry := inc p.retry }) (psRetire s)) := by
  refine congrArg Host.Outcome.next ?_
  (rw [hc]; exact if_neg hf)

theorem psWriteCommit_retried {q : PsReq} {s : State} (hc : s.ps.cur = some q) (hf : s.ps.free ≠ 0) (hr : q.retried = false) (hl : psLate s = false) (h1 : s.ps.free ≠ 1) :
    Gives (.psWriteCommit .verifyFailed) s [.ps, .log] fun t => t.ps = { s.ps with
      cur := some { q with retried := true }, retry := inc s.ps.retry, retired := inc16 s.ps.retired, free := s.ps.free - 1 } := by
  have hrun := psWriteCommit_failed_run hc hf
  rw [if_neg (by
    rw [hr, psRetire_late, hl, psRetire_ps]
    simp only [Bool.or_self, Bool.false_or, decide_eq_true_eq]
    exact fun e => h1 (sub_eq_zero.1 e))] at hrun
  refine ⟨_, hrun, (kept_modPs _ _ (kept_psRetire s kept_refl (List.Subset.refl _)) (by decide)).only, ?_⟩
  show { (psRetire s).ps with cur := some { q with retried := true }, retry := inc (psRetire s).ps.retry } = _
  rw [psRetire_ps]

theorem psWriteCommit_medium {q : PsReq} {s : State} (hc : s.ps.cur = some q) (hf : s.ps.free ≠ 0) (hr : q.retried = true) (hu : q.use = .reg) :
    Gives (.psWriteCommit .verifyFailed) s [.sync, .mbx, .esc, .ps, .fuses, .log] fun t => t.ps.err.getLsbD 5 = true ∧ t.ps.done = true ∧ t.ps.fail = true ∧
      t.ps.retired = inc16 s.ps.retired ∧ ∀ n, page n t = page n s := by
  have hrun := psWriteCommit_failed_run hc hf
  rw [if_pos (by rw [hr, Bool.true_or, Bool.true_or])] at hrun
  have ended : dropSecond q (psErr 5 (modPs (fun p => { p with cur := none }) (psRetire s))) =
      modPs (fun p => { p with done := true, fail := true }) (psErr 5 (modPs (fun p => { p with cur := none }) (psRetire s))) := by
    unfold dropSecond psEnded
    rw [hu]
    rfl
  have rest : psRest (psMedium q (psRetire s)).ps = psRest { (psRetire s).ps with err := Sys2Proof.Machine.setBit (psRetire s).ps.err 5 true, done := true, fail := true } := by
    unfold psMedium
    rw [psNext_rest, ended]
    rfl
  rw [psRetire_ps] at rest
  refine gives_of_leaves (leaves_psWriteCommit .verifyFailed s) hrun ⟨?_, (congrArg PStore.done rest :), (congrArg PStore.fail rest :),
    (congrArg PStore.retired rest :), fun n => page_of_pages (congrArg PStore.pages rest :) n⟩
  rw [show (psMedium q (psRetire s)).ps.err = _ from (congrArg PStore.err rest :)]
  exact setBit_true_same _ (by decide)

theorem psWriteCommit_cut {q : PsReq} {s : State} (hc : s.ps.cur = some q) (hf : s.ps.free ≠ 0) :
    exec (.psWriteCommit .cutBefore) s = .next { s with ps := { s.ps with cur := none, torn := true } } := by
  refine congrArg Host.Outcome.next ?_
  (rw [hc]; exact if_neg hf)

theorem psRefresh_row {pg : BitVec 12} {s : State} (hc : s.ps.cur = none) (hl : s.ps.qLease = []) (hu : s.ps.qSup = []) (ht : s.ps.qStew = []) (hs : s.ps.scan = false)
    (ho : s.ps.cutoff = false) (hf : s.ps.free ≠ 0) (hp : ∃ p ∈ s.ps.pages, p.1 = pg.toNat) :
    exec (.psRefresh pg) s = .next { s with ps := { s.ps with seq := s.ps.seq + 1, writes := inc s.ps.writes, refresh := inc s.ps.refresh } } := by
  have mapped : (s.ps.pages.any fun p => p.1 == pg.toNat) = true := by
    obtain ⟨p, hm, e⟩ := hp
    exact List.any_eq_true.2 ⟨p, hm, beq_iff_eq.2 e⟩
  refine congrArg Host.Outcome.next (if_neg ?_)
  simp [hc, hl, hu, ht, hs, ho, mapped]
  exact hf

/-- Settles O47, row by row. -/
theorem pagesAreReadWrittenAndCommitted : Obligations.PagesAreReadWrittenAndCommitted := by
  unfold Obligations.PagesAreReadWrittenAndCommitted
  refine ⟨fun r x s h1 h256 hend => ⟨fun h hl => pstoreRead_row h hl h1 h256 hend, fun h hl => ⟨fun _ hk => pstoreWrite_system h h1 h256 hl hk,
    pstoreWrite_taken h h1 h256 hend hl, fun i hk hi hp hb => pstoreWrite_protected h h1 h256 hend hl hk hi hp hb⟩⟩,
    fun pg off lenm1 s hp hs => ⟨psCmd_busy hp hs, fun hb => ⟨psRead_idle hp hs hb, psWrite_protected hp hs hb, psWrite_foreign hp hs hb, psWrite_taken hp hs hb⟩⟩,
    fun q s hc hf => ⟨psWriteCommit_committed hc hf, psWriteCommit_retried hc hf, psWriteCommit_medium hc hf, psWriteCommit_cut hc hf⟩,
    fun pg s hc hl hu ht hs ho hf hp => psRefresh_row hc hl hu ht hs ho hf hp⟩

end Sys2Proof.Proofs
end

section
/-! SUPPORT. Feeds, hold-up and the pairs' last cycle (R59, R510 to R514). -/

namespace Sys2Proof.Proofs
open Sys2Proof.Machine Sys2Proof.Safety Sys2Proof.Laws
set_option Elab.async false

/-! ## Feeds (R510, R511) -/

theorem otherFeed_eq (f : Fin 2) : otherFeed f = if f = 0 then (1 : Fin 2) else 0 := rfl

theorem otherFeed_ne : ∀ f : Fin 2, (otherFeed f).val ≠ f.val := by decide

theorem setFeed_other (f : Fin 2) (b : Bool) (v : BitVec 16) (s : State) : (setFeed f b v s).power.feed[otherFeed f] = s.power.feed[otherFeed f] :=
  Vector.getElem_set_ne f.isLt _ (otherFeed_ne f).symm

/-- A lost feed: latched and logged while the other one is present. -/
theorem feedLost_both {f : Fin 2} {s : State} (v : BitVec 16) (h : s.power.feed[f].present = true) (ho : s.power.feed[otherFeed f].present = true) :
    feedLost f v s = addLog .feedLost f.val 0 (modPower (fun p => { p with evt := Sys2Proof.Machine.setBit p.evt f.val true }) (setFeed f false v s)) := by
  unfold feedLost
  dsimp only
  rw [setFeed_other, h, ho]
  exact if_pos rfl

theorem feedLost_quiet {f : Fin 2} {s : State} (v : BitVec 16) (h : s.power.feed[f].present = false) : feedLost f v s = setFeed f false v s := by
  unfold feedLost
  dsimp only
  rw [h]
  exact if_neg Bool.false_ne_true

theorem feedLost_feed (f : Fin 2) (v : BitVec 16) (s : State) : (feedLost f v s).power.feed = s.power.feed.set f { present := false, volt := v } := by
  unfold feedLost
  dsimp only
  split <;> rfl

theorem feedLost_row (f : Fin 2) (v : BitVec 16) (s : State) : Gives (.feedLost f v) s [.power, .log] fun t =>
    t.power.feed = s.power.feed.set f { present := false, volt := v } ∧
      (s.power.feed[f].present = true → s.power.feed[if f = 0 then (1 : Fin 2) else 0].present = true → t.power.evt = Sys2Proof.Machine.setBit s.power.evt f.val true ∧
        t.log = s.log ++ [{ kind := .feedLost, a := f.val, b := 0, cyc := s.cyc.count }]) ∧
      (s.power.feed[f].present = false → t.power.evt = s.power.evt ∧ t.log = s.log) := by
  refine gives_of_leaves (leaves_feedLost f v s) rfl ⟨feedLost_feed f v s, fun h ho => ?_, fun h => ?_⟩
  · rw [feedLost_both v h ho]
    exact ⟨rfl, rfl⟩
  · rw [feedLost_quiet v h]
    exact ⟨rfl, rfl⟩

theorem feedOvervoltage_row (f : Fin 2) (v : BitVec 16) (s : State) : Gives (.feedOvervoltage f v) s [.power, .log] fun t =>
    t.power.feed = s.power.feed.set f { present := false, volt := v } ∧ t.power.evt.getLsbD (2 + f.val) = true ∧ ∃ e ∈ t.log, e.kind = .feedOv ∧ e.a = f.val :=
  gives_of_leaves (leaves_feedOvervoltage f v s) rfl ⟨feedLost_feed f v s, setBit_true_same _ (by omega), _, List.mem_append_right _ (List.mem_singleton_self _), rfl, rfl⟩

/-- The state with a feed present. -/
def feedOn (f : Fin 2) (v : BitVec 16) (s : State) : State :=
  { s with power := { s.power with feed := s.power.feed.set f { present := true, volt := v }, backup := false }, boot := (setPd .vote true s).boot }

/-- The clock becomes invalid, for a crystal that had failed when the feeds were lost. -/
def clockLost (s : State) : State := modPower (fun p => { p with xtalBad := false }) { s with rtc := { s.rtc with nvalid := false, bvalid := false } }

theorem feedPresent_run (f : Fin 2) (v : BitVec 16) (s : State) :
    exec (.feedPresent f v) s = .next (if s.power.xtalBad then clockLost (feedOn f v s) else feedOn f v s) := by
  have on : setPd .vote true (modPower (fun p => { p with backup := false }) (setFeed f true v s)) = feedOn f v s := rfl
  show execFeedPresent f v s = _
  unfold execFeedPresent
  rw [on]
  rfl

theorem feedPresent_good {f : Fin 2} {v : BitVec 16} {s : State} (h : s.power.xtalBad = false) : exec (.feedPresent f v) s =
    .next { s with power := { s.power with feed := s.power.feed.set f { present := true, volt := v }, backup := false }, boot := (setPd .vote true s).boot } :=
  (feedPresent_run f v s).trans (congrArg Host.Outcome.next (if_neg fun e => Bool.false_ne_true (h.symm.trans e)))

theorem feedPresent_bad {f : Fin 2} {v : BitVec 16} {s : State} (h : s.power.xtalBad = true) : exec (.feedPresent f v) s =
    .next { s with power := { s.power with feed := s.power.feed.set f { present := true, volt := v }, backup := false, xtalBad := false }, boot := (setPd .vote true s).boot,
                   rtc := { s.rtc with nvalid := false, bvalid := false } } :=
  (feedPresent_run f v s).trans (congrArg Host.Outcome.next (if_pos h))

/-! ## Loss of both feeds (R59, R513, R514) -/

/-- One turn of a fold in which every element works on its own view of the state. -/
theorem foldl_turn {ι α : Type} {f : State → ι → State} {view : ι → State → α} {I : State → Prop} (hI : ∀ s m, I s → I (f s m))
    (h : ∀ s m n, n ≠ m → view n (f s m) = view n s) {n : ι} (l : List ι) (hl : l.Nodup) (hn : n ∈ l) (s : State) (hs : I s) :
    ∃ s', I s' ∧ view n s' = view n s ∧ view n (l.foldl f s) = view n (f s' n) := by
  have rest (l : List ι) (s : State) (hn : n ∉ l) : view n (l.foldl f s) = view n s := by
    induction l generalizing s with
    | nil => rfl
    | cons m l ih =>
      rw [List.foldl_cons, ih _ (fun e => hn (List.mem_cons_of_mem _ e)), h s m n (fun e => hn (e ▸ List.mem_cons_self))]
  induction l generalizing s with
  | nil => exact absurd hn List.not_mem_nil
  | cons m l ih =>
    obtain ⟨hm, hl⟩ := List.nodup_cons.1 hl
    rcases List.mem_cons.1 hn with rfl | hn
    · exact ⟨s, hs, rfl, rest l _ hm⟩
    · obtain ⟨s', i, before, after⟩ := ih hl hn (f s m) (hI s m hs)
      exact ⟨s', i, before.trans (h s m n fun e => hm (e ▸ hn)), after⟩

theorem mem_allPairs : ∀ n : Fin 4, n ∈ allPairs := by decide
theorem nodup_allPairs : allPairs.Nodup := by decide
theorem pairDom_injective : ∀ m n : Fin 4, pairDom m = pairDom n → m = n := by decide
theorem pairCore_injective : ∀ m n : Fin 4, pairCore m = pairCore n → m = n := by decide
theorem pairDom_ne_groupDom : ∀ (n : Fin 4) (g : Fin 2), groupDom g ≠ pairDom n := by decide

/-- What a domain shows of its executions: its run state and its tasks. -/
def busyOf (d : DomId) (s : State) : Bool × Vector TaskSt 16 := (s.doms[d].run, s.doms[d].tasks)

theorem pairBusy_of {n : Fin 4} {s t : State} (h : busyOf (pairDom n) t = busyOf (pairDom n) s) : pairBusy n t = pairBusy n s := by
  obtain ⟨run, tasks⟩ := Prod.mk.inj h
  unfold pairBusy
  rw [run, tasks]

/-- A seal concerns the domain's record and the values that it keeps. -/
theorem sealArea_dom (n : Fin 4) (s : State) : (sealArea n s).doms[pairDom n] =
    { s.doms[pairDom n] with retain := (sealArea n s).doms[pairDom n].retain, instKept := (sealArea n s).doms[pairDom n].instKept } := by
  unfold sealArea
  dsimp only
  split
  · rfl
  · split
    · rfl
    · rw [modDom_same]

theorem sealArea_other {n : Fin 4} {d : DomId} (h : d ≠ pairDom n) (s : State) : (sealArea n s).doms[d] = s.doms[d] := by
  unfold sealArea
  dsimp only
  split
  · rfl
  · split
    · rfl
    · exact modDom_other _ _ _ _ h

/-- The pair publishes what it has completed. -/
def pairPublish (n : Fin 4) (s : State) : State :=
  sealArea n (modDom (pairDom n) (fun d => { d with published := if d.pstop then d.published else d.commit, commits := [], rptSent := false }) s)

theorem pairFinish_eq (n : Fin 4) (s : State) :
    pairFinish n s = if s.doms[pairDom n].run && !pairBusy n s && !s.cores[pairCore n].stopped then pairPublish n s else s := rfl

theorem pairFinish_other {n : Fin 4} {d : DomId} (h : d ≠ pairDom n) (s : State) : (pairFinish n s).doms[d] = s.doms[d] := by
  rw [pairFinish_eq]
  split
  · exact (sealArea_other h _).trans (modDom_other _ _ _ _ h)
  · rfl

theorem pairPublish_dom (n : Fin 4) (s : State) : busyOf (pairDom n) (pairPublish n s) = busyOf (pairDom n) s ∧
    (pairPublish n s).doms[pairDom n].published = if s.doms[pairDom n].pstop then s.doms[pairDom n].published else s.doms[pairDom n].commit := by
  unfold busyOf pairPublish
  rw [sealArea_dom, modDom_same]
  exact ⟨rfl, rfl⟩

theorem pairFinish_busyOf (n : Fin 4) (d : DomId) (s : State) : busyOf d (pairFinish n s) = busyOf d s := by
  by_cases h : d = pairDom n
  · rw [h, pairFinish_eq]
    split
    · exact (pairPublish_dom n s).1
    · rfl
  · unfold busyOf
    rw [pairFinish_other h]

theorem pairFinish_cores (n : Fin 4) (s : State) : (pairFinish n s).cores = s.cores := (kept_pairFinish (ps0 := [.doms]) n s kept_refl (by decide)).only .cores (by decide)

theorem pairAbandon_idle {n : Fin 4} {s : State} (h : pairBusy n s = false) : pairAbandon n s = s := if_neg (by rw [h]; exact Bool.false_ne_true)

theorem pairAbandon_busy {n : Fin 4} {s : State} (h : pairBusy n s = true) : pairAbandon n s = stopCore (pairCore n) (abandonTasks (pairDom n) s) := if_pos h

/-- What a shutdown shows of a pair. -/
def pairView (n : Fin 4) (s : State) : Dom × Core := (s.doms[pairDom n], s.cores[pairCore n])

theorem modCore_same (c : CoreId) (f : Core → Core) (s : State) : (modCore c f s).cores[c] = f s.cores[c] := Vector.getElem_set_self _

theorem modCore_other {c k : CoreId} (h : k ≠ c) (f : Core → Core) (s : State) : (modCore c f s).cores[k] = s.cores[k] :=
  Vector.getElem_set_ne c.isLt _ fun e => h (Fin.ext e.symm)

theorem abandoned_dom {n : Fin 4} {d : DomId} (h : d ≠ pairDom n) (s : State) : (stopCore (pairCore n) (abandonTasks (pairDom n) s)).doms[d] = s.doms[d] := by
  show (abandonTasks (pairDom n) s).doms[d] = _
  exact modDom_other _ _ _ _ h

theorem pairView_other {m n : Fin 4} (h : n ≠ m) (s : State) : pairView n (pairAbandon m (pairFinish m s)) = pairView n s := by
  have hd : pairDom n ≠ pairDom m := fun e => h (pairDom_injective _ _ e)
  have hc : pairCore n ≠ pairCore m := fun e => h (pairCore_injective _ _ e)
  have first : pairView n (pairFinish m s) = pairView n s := by
    unfold pairView
    rw [pairFinish_other hd, pairFinish_cores]
  rw [← first]
  unfold pairAbandon
  split
  · exact Prod.ext (abandoned_dom hd _) (modCore_other hc _ _)
  · rfl

/-- A late end of cycle: a pair that still executes is abandoned, and one that has completed has published. -/
theorem pairsFinish_late (n : Fin 4) (s : State) (hr : s.doms[pairDom n].run = true) :
    (pairBusy n s = true → (pairsFinish true s).cores[pairCore n].stopped = true) ∧
    (pairBusy n s = false → s.cores[pairCore n].stopped = false → s.doms[pairDom n].pstop = false →
      (pairsFinish true s).doms[pairDom n].published = s.doms[pairDom n].commit) := by
  obtain ⟨u, -, before, after⟩ := foldl_turn (f := fun s n => pairAbandon n (pairFinish n s)) (view := pairView) (I := fun _ => True) (fun _ _ _ => trivial)
    (fun s m n h => pairView_other h s) allPairs nodup_allPairs (mem_allPairs n) s trivial
  obtain ⟨hdom, hcore⟩ := Prod.mk.inj before
  obtain ⟨rdom, rcore⟩ := Prod.mk.inj after
  have same : pairBusy n (pairFinish n u) = pairBusy n s := by
    refine (pairBusy_of (pairFinish_busyOf n _ u)).trans (pairBusy_of ?_)
    unfold busyOf
    rw [hdom]
  refine ⟨fun hb => ?_, fun hb hs hp => ?_⟩
  · rw [show (pairsFinish true s).cores[pairCore n] = _ from rcore, pairAbandon_busy (same.trans hb)]
    unfold stopCore
    rw [modCore_same]
  · rw [show (pairsFinish true s).doms[pairDom n] = _ from rdom, pairAbandon_idle (same.trans hb), pairFinish_eq,
      if_pos (by rw [← pairBusy_of (pairFinish_busyOf n _ u), same, hb, hdom, hr, hcore, hs]; rfl), (pairPublish_dom n u).2, hdom, hp]
    rfl

/-- An early one only publishes: who executes stays the same, and nothing but domains changes. -/
theorem pairsFinish_early (d : DomId) (s : State) : busyOf d (pairsFinish false s) = busyOf d s := by
  unfold pairsFinish
  generalize allPairs = ns
  induction ns generalizing s with
  | nil => rfl
  | cons n ns ih => exact (ih _).trans (pairFinish_busyOf n d s)

theorem pairsFinish_group (late : Bool) (g : Fin 2) (s : State) : (pairsFinish late s).doms[groupDom g] = s.doms[groupDom g] := by
  unfold pairsFinish
  generalize allPairs = ns
  induction ns generalizing s with
  | nil => rfl
  | cons n ns ih =>
    refine (ih _).trans ?_
    dsimp only
    have hd : groupDom g ≠ pairDom n := pairDom_ne_groupDom n g
    split
    · unfold pairAbandon
      split
      · exact (abandoned_dom hd _).trans (pairFinish_other hd s)
      · exact pairFinish_other hd s
    · exact pairFinish_other hd s

theorem permitsOff_fg (s : State) (g : GroupId) : (permitsOff s).fg[g].permitOn = false := by simp [permitsOff]

/-- Safety outputs off: what every group publishes is 0. -/
theorem outputsDown_published (g : Fin 2) (s : State) : ∀ b ∈ (outputsDown s).doms[groupDom g].published, b = 0 := by
  have zero (d : Dom) : ∀ b ∈ d.published.map (fun _ => (0 : Byte)), b = 0 := fun b hb => by
    obtain ⟨_, _, e⟩ := List.mem_map.1 hb
    exact e.symm
  unfold outputsDown
  show ∀ b ∈ (safetyOff 0 (safetyOff 1 s)).doms[groupDom g].published, b = 0
  unfold safetyOff
  rcases (by omega : g = 0 ∨ g = 1) with rfl | rfl
  · rw [modDom_same]
    exact zero _
  · rw [modDom_other _ _ _ _ (by decide), modDom_same]
    exact zero _

theorem bothFeedsLost_row {s : State} (hf : anyFeed s = false) (ht : s.power.tpf = none) (hu : s.boot.up = true) : Gives .bothFeedsLost s [.cores, .doms, .fg, .power] fun t =>
    t.power.tpf = some s.cyc.tb ∧ t.power.hourSec = 0 ∧ (∀ g : GroupId, t.fg[g].permitOn = false) ∧ ∀ g : Fin 2, ∀ b ∈ t.doms[groupDom g].published, b = 0 := by
  have hrun : exec .bothFeedsLost s = .next (pairsFinish false (outputsDown (modPower (fun p => { p with tpf := some s.cyc.tb, hourSec := 0 }) s))) := by
    refine congrArg Host.Outcome.next (if_neg ?_)
    rw [hf, ht, hu]
    decide
  have k (t : State) : Kept [.cores, .doms] t (pairsFinish false t) := kept_pairsFinish false t kept_refl (by decide)
  refine gives_of_leaves (leaves_bothFeedsLost s) hrun ⟨?_, ?_, fun g => ?_, fun g => ?_⟩
  · rw [(k _).only .power (by decide)]
    rfl
  · rw [(k _).only .power (by decide)]
    rfl
  · rw [(k _).only .fg (by decide)]
    exact permitsOff_fg _ g
  · rw [pairsFinish_group]
    exact outputsDown_published g _

theorem pfPairAbandon_row {s : State} (h : pfPast 10 s = true) : Gives .pfPairAbandon s [.cores, .doms] fun t => ∀ n : Fin 4, s.doms[pairDom n].run = true →
    (pairBusy n s = true → t.cores[pairCore n].stopped = true) ∧
    (pairBusy n s = false → s.cores[pairCore n].stopped = false → s.doms[pairDom n].pstop = false → t.doms[pairDom n].published = s.doms[pairDom n].commit) :=
  gives_of_leaves (leaves_pfPairAbandon s) (congrArg Host.Outcome.next (if_pos h)) fun n => pairsFinish_late n s

theorem pfWriteCutoff_row {s : State} (h : pfPast 12 s = true) :
    exec .pfWriteCutoff s = .next { s with ps := { s.ps with cutoff := true }, fuses := { s.fuses with blow := s.fuses.blow.take 1 } } :=
  congrArg Host.Outcome.next (if_pos h)

theorem feedReset_row {s : State} (h : pfPast 20 s = true) : exec .feedReset s = .next (feedReset s) := congrArg Host.Outcome.next (if_pos h)

theorem feedReset_leaves (s : State) : (feedReset s).boot.cause = 2 ∧ (feedReset s).banks[32] = .retention ∧ (feedReset s).boot.on = resetOn s ∧
    (feedReset s).power.tpf = none ∧ (feedReset s).power.xtalBad = s.boot.subst ∧ (feedReset s).power.evt = s.power.evt :=
  ⟨rfl, rfl, rfl, rfl, rfl, rfl⟩

end Sys2Proof.Proofs
end

section
/-! SUPPORT. What SAFE and exclusions leave of the start's registers (R101, R103, R109). -/

namespace Sys2Proof.Proofs
open Sys2Proof.Machine Sys2Proof.Safety Sys2Proof.Laws
set_option Elab.async false

/-! ## What exclusions and SAFE leave of the start's registers (R101, R103, R109) -/

/-- From `s` to `t` power domains were only switched on, and nothing else of the start's registers changed. -/
structure OnlyOn (s t : State) : Prop where
  rest : t.boot = { s.boot with on := t.boot.on }
  on : ∀ p, pdOn p s = true → pdOn p t = true

theorem OnlyOn.refl (s : State) : OnlyOn s s := ⟨rfl, fun _ h => h⟩

theorem onlyOn_of_boot {s t : State} (h : t.boot = s.boot) : OnlyOn s t where
  rest := by rw [h]
  on p hp := by
    unfold pdOn at hp ⊢
    rw [h]
    exact hp

theorem OnlyOn.trans {s t u : State} (h : OnlyOn s t) (k : OnlyOn t u) : OnlyOn s u where
  rest := by
    rw [k.rest]
    exact congrArg (fun b : Boot => { b with on := u.boot.on }) h.rest
  on p hp := k.on p (h.on p hp)

theorem onlyOn_foldl {α : Type} {f : State → α → State} (h : ∀ s a, OnlyOn s (f s a)) (l : List α) (s : State) : OnlyOn s (l.foldl f s) := by
  induction l generalizing s with
  | nil => exact .refl s
  | cons a l ih => exact (h s a).trans (ih (f s a))

theorem onlyOn_setPd (p : Pd) (s : State) : OnlyOn s (setPd p true s) := ⟨rfl, fun _ h => setBit_true_getLsbD _ h⟩

theorem onlyOn_reintEnd (result : Byte) (s : State) : OnlyOn s (reintEnd result s) := by
  by_cases h : s.voter.reint.phase = 0
  · rw [reintEnd_idle result h]
    exact .refl s
  · have leave (l : Fin 3) (s : State) (g : Fin 2) : OnlyOn s (leaveGroup l s g) := by
      rcases leaveGroup_cases l s g with e | e <;> rw [e] <;> exact onlyOn_of_boot rfl
    have close (l : Fin 3) (off : Bool) (s : State) : OnlyOn s (reintClose result l off s) := by
      cases off
      · exact onlyOn_of_boot rfl
      · exact (onlyOn_setPd (lanePd l) s).trans (onlyOn_of_boot rfl)
    rw [reintEnd_eq result h]
    exact ((leave _ s 0).trans (leave _ _ 1)).trans (close _ _ _)

theorem onlyOn_kept {ps : List Part} {s t : State} (h : Kept ps s t) (hb : .boot ∉ ps) : OnlyOn s t := onlyOn_of_boot (h.only .boot hb)

theorem onlyOn_safeLanes (s : State) : OnlyOn s (safeLanes s) := by
  have start : OnlyOn s (safeStart s) := by
    unfold safeStart
    exact (onlyOn_kept (kept_refusePending (ps0 := [.sync, .mbx, .arb]) _ _ _ (kept_setOper 2 .safe s kept_refl (by decide)) (by decide)) (by decide)).trans (onlyOn_reintEnd _ _)
  have group (s : State) (g : Fin 2) : OnlyOn s (safeGroup s g) := by
    unfold safeGroup
    have k : Kept [.doms, .voter, .hsb, .sync, .mbx, .arb, .log] s (setMembers 2 g 0 (safetyOff g s)) := kept_setMembers _ _ _ _ (kept_safetyOff _ _ kept_refl (by decide)) (by decide)
    exact onlyOn_kept (kept_changeLeave _ _ (kept_abandonTasks _ _ (kept_modGroup _ _ _ k (by decide)) (by decide)) (by decide)) (by decide)
  have halt (s : State) : OnlyOn s (haltLanes s) :=
    onlyOn_kept (kept_permitsOff (ps0 := [.fg, .cores]) _ (kept_foldl (kept_refl (ps := [.fg, .cores])) fun _ _ h => kept_stopCore _ _ (kept_stopCore _ _ h (by decide)) (by decide)) (by decide)) (by decide)
  unfold safeLanes
  exact ((start.trans (group _ 0)).trans (group _ 1)).trans (halt _)

theorem onlyOn_enterSafe (cause : Nat) (grp : Option (Fin 2)) (s : State) : OnlyOn s (enterSafe cause grp s) := by
  cases h : inSafe s with
  | true =>
    rw [enterSafe_idle cause grp h]
    exact .refl s
  | false =>
    have role (s : State) : OnlyOn s (safeRole s) := by
      unfold safeRole
      split
      · exact onlyOn_kept (kept_sendRelinquish (ps0 := [.sync]) _ _ kept_refl (by decide)) (by decide)
      · exact onlyOn_kept (kept_setRole (ps0 := [.hsb, .arb, .log]) _ _ kept_refl (by decide)) (by decide)
      · exact .refl s
    have ring (k v : Nat) (s : State) : OnlyOn s (ringEvent k v s) := onlyOn_kept (kept_ringEvent (ps0 := [.ps]) k v s kept_refl (by decide)) (by decide)
    have noted (t : State) : OnlyOn t (safeNoted cause grp t) := onlyOn_of_boot rfl
    have logged (k : LogKind) (a b : Nat) (t : State) : OnlyOn t (addLog k a b t) := onlyOn_of_boot rfl
    rw [enterSafe_eq cause grp h]
    exact ((((onlyOn_safeLanes s).trans (noted _)).trans (role _)).trans (ring 1 cause _)).trans (logged _ _ _ _)

theorem onlyOn_excludeFrom (l : Fin 3) (g : Fin 2) (s : State) : OnlyOn s (excludeFrom l g s) := by
  cases h : s.voter.grp[g].members.getLsbD l.val with
  | false =>
    rw [excludeFrom_other h]
    exact .refl s
  | true =>
    have stop : OnlyOn s (stopLane l g s) := by
      have drop : OnlyOn s (dropLane l g s) := onlyOn_of_boot rfl
      exact drop.trans (onlyOn_kept (kept_stopLane l g s) (by decide))
    rw [excludeFrom_member h]
    split
    · exact stop.trans (onlyOn_enterSafe _ _ _)
    · exact stop.trans (onlyOn_kept (kept_modGroup (ps0 := [.voter, .arb]) _ _ _ (kept_setMembers _ _ _ _ kept_refl (by decide)) (by decide)) (by decide))

theorem onlyOn_excludeAll (l : Fin 3) (cause : Nat) (s : State) : OnlyOn s (excludeLane l cause none s) := by
  have marks : (excludeMarks l cause (memberOf l s) s).boot = s.boot := by
    unfold excludeMarks
    dsimp only
    split <;> rfl
  rw [excludeLane_all]
  exact (onlyOn_of_boot marks).trans (onlyOn_foldl (fun s g => onlyOn_excludeFrom l g s) _ _)

end Sys2Proof.Proofs
end

section
/-! SUPPORT. Cell, temperature, transceiver and clock monitors (R454, R455, R507, R517, R521). -/

namespace Sys2Proof.Proofs
open Sys2Proof.Machine Sys2Proof.Safety Sys2Proof.Laws
set_option Elab.async false

/-! ## The backup cell (R327, R517) -/

/-- With neither feed nor cell nothing of the Grotto remains. -/
theorem aonLost_grotto {o : Nat} (h : o < 2 ^ 36) (s : State) : readByte 5 o (aonLost s) = 0 :=
  (readByte_clearMem 5 s h).trans (if_pos rfl)

theorem backupSwitchover_off {s : State} (cell : Bool) (hf : anyFeed s = false) (hu : s.boot.up = false) (hp : pdOn .aon s = true) :
    exec (.backupSwitchover cell) s = .next (if cell then modPower (fun p => { p with backup := true }) (setPd .vote false s) else aonLost s) := by
  refine congrArg Host.Outcome.next (if_neg ?_)
  rw [hf, hu, hp]
  decide

theorem backupSwitchover_lost {s : State} (hf : anyFeed s = false) (hu : s.boot.up = false) (hp : pdOn .aon s = true) :
    Gives (.backupSwitchover false) s [.mem, .memErrs, .rtc, .boot, .power] fun t => t.power.grLost = true ∧ t.rtc = .reset ∧ t.boot.on = 0 ∧ ∀ o, o < 2 ^ 36 → readByte 5 o t = 0 :=
  gives_of_leaves (leaves_backupSwitchover false s) ((backupSwitchover_off false hf hu hp).trans rfl) ⟨rfl, rfl, rfl, fun _ h => aonLost_grotto h s⟩

/-! ## Cell, temperature, transceiver (R507, R517, R521) -/

theorem cellMeasure_row (here : Bool) (mv : BitVec 16) (s : State) : Gives (.cellMeasure here mv) s [.power, .log] fun t => t.power.cellPresent = here ∧ t.power.cellMv = mv ∧
    (here = false ∨ mv.toNat < 2700 → t.power.evt = Sys2Proof.Machine.setBit s.power.evt 6 true) ∧ (here = true → 2700 ≤ mv.toNat → t.power.evt = s.power.evt ∧ t.log = s.log) := by
  cases hl : (!here || decide (mv.toNat < 2700)) with
  | true =>
    have low : here = false ∨ mv.toNat < 2700 := by simpa using hl
    refine gives_of_leaves (leaves_cellMeasure here mv s) (congrArg Host.Outcome.next (if_pos hl)) ⟨rfl, rfl, fun _ => rfl, fun hh hm => ?_⟩
    exact absurd low (by rw [hh]; simp; omega)
  | false =>
    have good : ¬(here = false ∨ mv.toNat < 2700) := fun k => by simp_all; omega
    exact gives_of_leaves (leaves_cellMeasure here mv s) (congrArg Host.Outcome.next (if_neg (by rw [hl]; exact Bool.false_ne_true)))
      ⟨rfl, rfl, fun k => absurd k good, fun _ _ => ⟨rfl, rfl⟩⟩

/-- The state with a temperature sampled. -/
def sampled (v : BitVec 16) (s : State) : State :=
  modPower (fun p => { p with tNow := v, tMax := if !p.tSeen || p.tMax.toInt < v.toInt then v else p.tMax, tSeen := true }) s

/-- The limits as they stand for a sample. -/
def tempJudged (v : BitVec 16) (s : State) : State :=
  let s := if 950 < v.toInt then tempEvt 7 .tempHi v s else s
  if v.toInt < (if s.fuses.order = 1 then -400 else -250) then tempEvt 8 .tempLo v s else s

/-- The state with other latched supply events and another log. -/
def withEvents (e : BitVec 9) (l : List LogEntry) (s : State) : State := { s with power := { s.power with evt := e }, log := l }

/-- An event is latched, and only the event register and the log change. -/
theorem tempEvt_power (b : Nat) (k : LogKind) (v : BitVec 16) (s : State) : ∃ e l, tempEvt b k v s = withEvents e l s ∧
    (b < 9 → e.getLsbD b = true) ∧ ∀ i, s.power.evt.getLsbD i = true → e.getLsbD i = true := by
  unfold tempEvt
  split
  next h => exact ⟨s.power.evt, s.log, rfl, fun _ => h, fun _ h => h⟩
  next h => exact ⟨_, _, rfl, fun hb => setBit_true_same _ hb, fun _ h => setBit_true_getLsbD _ h⟩

theorem tempJudged_power (v : BitVec 16) (s : State) : ∃ e l, tempJudged v s = withEvents e l s ∧ (950 < v.toInt → e.getLsbD 7 = true) ∧
    (v.toInt < (if s.fuses.order = 1 then -400 else -250) → e.getLsbD 8 = true) ∧ (-250 ≤ v.toInt → v.toInt ≤ 950 → e = s.power.evt ∧ l = s.log) := by
  have high : ∃ e l, (if 950 < v.toInt then tempEvt 7 .tempHi v s else s) = withEvents e l s ∧ (950 < v.toInt → e.getLsbD 7 = true) ∧ (v.toInt ≤ 950 → e = s.power.evt ∧ l = s.log) := by
    by_cases h : 950 < v.toInt
    · obtain ⟨e, l, he, hb, -⟩ := tempEvt_power 7 .tempHi v s
      exact ⟨e, l, (if_pos h).trans he, fun _ => hb (by decide), fun k => absurd h (not_lt.2 k)⟩
    · exact ⟨s.power.evt, s.log, if_neg h, fun k => absurd k h, fun _ => ⟨rfl, rfl⟩⟩
  obtain ⟨e, l, he, hb, hq⟩ := high
  unfold tempJudged
  dsimp only
  rw [he]
  by_cases h : v.toInt < (if s.fuses.order = 1 then -400 else -250)
  · obtain ⟨e', l', he', hb', keep⟩ := tempEvt_power 8 .tempLo v (withEvents e l s)
    refine ⟨e', l', (if_pos h).trans he', fun k => keep 7 (hb k), fun _ => hb' (by decide), fun k _ => absurd h ?_⟩
    split <;> omega
  · exact ⟨e, l, if_neg h, hb, fun k => absurd k h, fun _ k => hq k⟩

theorem tempLimits_eq (s : State) : tempLimits s = (if s.fuses.order = 1 then -400 else -250, 950) := by
  unfold tempLimits
  split <;> rfl

/-- The panel's driver shows its lamps and leaves the rest of the supply. -/
theorem panelDrive_show (s : State) : ∃ ls, panelDrive s = panelShow ls s := by
  unfold panelDrive
  split <;> exact ⟨_, rfl⟩

/-- The supply's registers but for the panel. -/
def panelless (p : Power) : Power := { p with panel := 0, panelFl := 0 }

theorem panelShow_power (ls : List (Nat × Bool)) (s : State) : panelless (panelShow ls s).power = panelless s.power ∧ (panelShow ls s).log = s.log := ⟨rfl, rfl⟩

theorem panelDrive_power (s : State) : panelless (panelDrive s).power = panelless s.power ∧ (panelDrive s).log = s.log := by
  obtain ⟨ls, e⟩ := panelDrive_show s
  rw [e]
  exact panelShow_power ls s

theorem tempSample_run (v : BitVec 16) (s : State) :
    exec (.tempSample v) s = .next (if (tempJudged v (sampled v s)).boot.up then panelDrive (tempJudged v (sampled v s)) else tempJudged v (sampled v s)) := by
  show execTempSample v s = _
  unfold execTempSample
  simp only [tempLimits_eq]
  rfl

theorem tempSample_leaves (v : BitVec 16) (s : State) : ∃ t, exec (.tempSample v) s = .next t ∧ panelless t.power = panelless (tempJudged v (sampled v s)).power ∧
    t.log = (tempJudged v (sampled v s)).log := by
  rw [tempSample_run]
  split
  · exact ⟨_, rfl, panelDrive_power _⟩
  · exact ⟨_, rfl, rfl, rfl⟩

theorem tempSample_row (v : BitVec 16) (s : State) : Gives (.tempSample v) s [.power, .log] fun t => t.power.tNow = v ∧
    (s.power.tSeen = true → t.power.tMax.toInt = max s.power.tMax.toInt v.toInt) ∧ (950 < v.toInt → t.power.evt.getLsbD 7 = true) ∧
    (v.toInt < (if s.fuses.order = 1 then -400 else -250) → t.power.evt.getLsbD 8 = true) ∧ (-250 ≤ v.toInt → v.toInt ≤ 950 → t.power.evt = s.power.evt ∧ t.log = s.log) := by
  obtain ⟨t, hrun, power, log⟩ := tempSample_leaves v s
  obtain ⟨e, l, judged, high, low, quiet⟩ := tempJudged_power v (sampled v s)
  rw [judged] at power log
  have evt : t.power.evt = e := (congrArg Power.evt power :)
  refine gives_of_leaves (leaves_tempSample v s) hrun ⟨(congrArg Power.tNow power :), fun seen => ?_, fun h => ?_, fun h => ?_, fun h k => ?_⟩
  · have hottest : t.power.tMax = if !s.power.tSeen || s.power.tMax.toInt < v.toInt then v else s.power.tMax := (congrArg Power.tMax power :)
    rw [hottest, seen]
    by_cases h : s.power.tMax.toInt < v.toInt
    · simp [h, max_eq_right h.le]
    · simp [h, max_eq_left (not_lt.1 h)]
  · rw [evt]
    exact high h
  · rw [evt]
    exact low h
  · rw [evt, log]
    exact quiet h k

theorem syncDown_up (s : State) : (syncDown s).sync.up = false := by
  unfold syncDown
  split
  next h => simpa using h
  next h =>
    unfold resyncEnd
    split <;> rfl

theorem sfpChange_bad {x : Sfp} (h : x ≠ .good) (s : State) : Gives (.sfpChange x) s [.hsb, .sync, .power, .log] fun t => t.power.sfp = x ∧ t.sync.up = false := by
  have power (t : State) : (syncDown t).power = t.power := (kept_syncDown (ps0 := [.hsb, .sync, .log]) t kept_refl (by decide)).only .power (by decide)
  cases x with
  | good => exact absurd rfl h
  | none => exact gives_of_leaves (leaves_sfpChange .none s) rfl ⟨congrArg Power.sfp (power (modPower (fun p => { p with sfp := .none }) s)), syncDown_up _⟩
  | wrongType => exact gives_of_leaves (leaves_sfpChange .wrongType s) rfl ⟨congrArg Power.sfp (power (modPower (fun p => { p with sfp := .wrongType }) s)), syncDown_up _⟩
  | overPower => exact gives_of_leaves (leaves_sfpChange .overPower s) rfl ⟨congrArg Power.sfp (power (modPower (fun p => { p with sfp := .overPower }) s)), syncDown_up _⟩

/-! ## Clock monitors (R454, R455) -/

theorem rootMonitorWindow_up {a b c : Bool} {s : State} (hu : s.boot.up = true) : exec (.rootMonitorWindow a b c) s = .next (
    if a then
      if s.boot.subst then
        if 64 ≤ s.boot.xtalGood + 1 then modBoot (fun b => { b with subst := false, xtalOk := true, xtalGood := 0, rootOk := true }) s
        else modBoot (fun b => { b with xtalGood := b.xtalGood + 1, rootOk := true }) s
      else modBoot (fun b => { b with xtalOk := true, rootOk := true }) s
    else if b && !c then xtalFail s
    else if !b && c then moduleReset 7 (addLog .clockMonitor 1 0 s)
    else modBoot (fun b => { b with clkEvt := Sys2Proof.Machine.setBit b.clkEvt 1 true }) (moduleReset 7 (addLog .clockMonitor 2 0 s))) := by
  refine congrArg Host.Outcome.next (if_neg ?_)
  rw [hu]
  decide

theorem xtalFail_row {s : State} (hu : s.boot.up = true) : Gives (.rootMonitorWindow false true false) s [.boot, .log] fun t =>
    t.boot.subst = true ∧ t.boot.xtalOk = false ∧ t.boot.clkEvt.getLsbD 0 = true := by
  have failed : ∃ l, xtalFail s = { modBoot (fun b => { b with subst := true, substSeen := true, xtalOk := false, xtalGood := 0, clkEvt := Sys2Proof.Machine.setBit b.clkEvt 0 true }) s with log := l } := by
    unfold xtalFail
    dsimp only
    split
    · exact ⟨_, rfl⟩
    · exact ⟨s.log, rfl⟩
  obtain ⟨l, hl⟩ := failed
  refine ⟨_, (rootMonitorWindow_up hu).trans (congrArg Host.Outcome.next hl), ?_, rfl, rfl, setBit_true_same _ (by decide)⟩
  exact (kept_upd_log (kept_upd_boot kept_refl (by decide)) (by decide)).only

/-! ## Lanes that hardware takes out (R100, R101) -/

theorem modLane_same (l : Fin 3) (f : Lane → Lane) (s : State) : (modLane l f s).voter.lane[l] = f s.voter.lane[l] := Vector.getElem_set_self _

/-- The lane's registers after a cause of its hardware. -/
theorem excludeAll_caused (l : Fin 3) {cause : Nat} (hc : cause = 5 ∨ cause = 6) (s : State) :
    (excludeLane l cause none s).voter.lane[l].xcause = (if laneOut l s then s.voter.lane[l].xcause else BitVec.ofNat 8 cause) ∧
      (excludeLane l cause none s).voter.lane[l].pll = s.voter.lane[l].pll ∧ (excludeLane l cause none s).voter.lane[l].scopeCause ≠ 0 := by
  have out : laneOut l s = true ↔ memberOf l s = [] := by
    unfold laneOut memberOf
    rw [List.all_eq_true, List.filter_eq_nil_iff]
    exact forall₂_congr fun g _ => by simp
  rw [excludeLane_all, foldl_lane]
  have other : (decide (cause ≠ 8)) = true := by rcases hc with rfl | rfl <;> rfl
  have small : BitVec.ofNat 8 cause ≠ 0 := by rcases hc with rfl | rfl <;> decide
  have scope (c : Byte) : (if laneScope cause && (cause = 8 || cause = 9 || !(c == 8 || c == 9)) then BitVec.ofNat 8 cause else c) ≠ 0 := by
    split
    · exact small
    next h =>
      intro e
      subst e
      exact h (by rcases hc with rfl | rfl <;> rfl)
  unfold excludeMarks
  dsimp only
  rw [other, Bool.and_true]
  by_cases hm : memberOf l s = []
  · rw [if_pos (List.isEmpty_iff.2 hm), if_pos (out.2 hm)]
    have lane (f : Reint → Reint) (t : State) : (modReint f t).voter.lane[l] = t.voter.lane[l] := rfl
    rw [lane, modLane_same]
    exact ⟨rfl, rfl, scope _⟩
  · rw [if_neg (fun e => hm (List.isEmpty_iff.1 e)), if_neg (fun e => hm (out.1 e))]
    have lane (f : Reint → Reint) (k : LogKind) (a b : Nat) (t : State) : (modReint f (addLog k a b t)).voter.lane[l] = t.voter.lane[l] := rfl
    rw [lane, modLane_same, modLane_same]
    exact ⟨rfl, rfl, scope _⟩

/-- An excluded lane of hardware is out of every group that SAFE has not emptied before. -/
theorem excludeAll_out (l : Fin 3) (cause : Nat) {s : State} {g : Fin 2} (h : inSafe s = false ∨ s.voter.grp[g].members = 0) :
    (excludeLane l cause none s).voter.grp[g].members.getLsbD l.val = false := by
  rcases h with h | h
  · exact excludeAll_gone l cause (outside_of_not h) g
  · refine Bool.eq_false_iff.2 fun m => ?_
    have before := (lost_excludeAll l cause s).members g l m
    rw [h] at before
    simp at before

theorem laneCause_on {l : Fin 3} {s : State} (cause : Nat) (hp : pdOn (lanePd l) s = true) : laneCause l cause s = excludeLane l cause none s :=
  if_neg (by rw [hp]; decide)

theorem laneSupplyFault_row {l : Fin 3} {s : State} (hp : pdOn (lanePd l) s = true) :
    Gives (.laneSupplyFault l) s [.cores, .doms, .voter, .hsb, .sync, .fg, .mbx, .ps, .boot, .arb, .log] fun t =>
      (qualifies l t = false ∧ t.voter.lane[l].xcause = if laneOut l s then s.voter.lane[l].xcause else 6) ∧
      ∀ g : Fin 2, inSafe s = false ∨ s.voter.grp[g].members = 0 → t.voter.grp[g].members.getLsbD l.val = false := by
  obtain ⟨xcause, -, scope⟩ := excludeAll_caused l (.inr rfl) s
  refine gives_of_leaves (leaves_laneSupplyFault l s) (congrArg Host.Outcome.next (laneCause_on 6 hp)) ⟨⟨?_, xcause⟩, fun g => excludeAll_out l 6⟩
  unfold qualifies
  dsimp only
  rw [beq_false_of_ne scope, Bool.and_false]

/-- The lane's clock is noted as lost. -/
def laneUnlocked (l : Fin 3) (s : State) : State :=
  modLane l (fun x => { x with pll := false })
    (modBoot (fun b => { b with laneLock := Sys2Proof.Machine.setBit b.laneLock l.val false, clkEvt := Sys2Proof.Machine.setBit b.clkEvt 2 true }) s)

theorem laneUnlocked_lane (l : Fin 3) (s : State) : (laneUnlocked l s).voter.lane[l] = { s.voter.lane[l] with pll := false } := by
  simp [laneUnlocked, modLane, modBoot]

theorem lanePllFail_row {l : Fin 3} {s : State} (hp : pdOn (lanePd l) s = true) :
    Gives (.lanePllFail l) s [.cores, .doms, .voter, .hsb, .sync, .fg, .mbx, .ps, .boot, .arb, .log] fun t =>
      (qualifies l t = false ∧ t.voter.lane[l].xcause = if laneOut l s then s.voter.lane[l].xcause else 5) ∧ t.voter.lane[l].pll = false ∧ t.boot.clkEvt.getLsbD 2 = true ∧
      ∀ g : Fin 2, inSafe s = false ∨ s.voter.grp[g].members = 0 → t.voter.grp[g].members.getLsbD l.val = false := by
  have hrun : exec (.lanePllFail l) s = .next (excludeLane l 5 none (laneUnlocked l s)) := by
    refine congrArg Host.Outcome.next ((if_neg (by rw [hp]; decide)).trans ?_)
    exact laneCause_on (s := laneUnlocked l s) 5 hp
  obtain ⟨xcause, pll, -⟩ := excludeAll_caused l (.inl rfl) (laneUnlocked l s)
  rw [laneUnlocked_lane] at xcause pll
  have boot := (onlyOn_excludeAll l 5 (laneUnlocked l s)).rest
  refine gives_of_leaves (leaves_lanePllFail l s) hrun ⟨⟨?_, xcause⟩, pll, ?_, fun g h => excludeAll_out (s := laneUnlocked l s) l 5 h⟩
  · unfold qualifies
    dsimp only
    rw [pll]
    simp
  · rw [boot]
    exact setBit_true_same _ (by decide)

/-- Settles O53, row by row. -/
theorem supplyEventsAreJudged : Obligations.SupplyEventsAreJudged := by
  unfold Obligations.SupplyEventsAreJudged
  refine fun s => ⟨fun f v => ⟨feedPresent_good, feedPresent_bad, feedLost_row f v s, feedOvervoltage_row f v s⟩, bothFeedsLost_row, fun ht => ⟨pfPairAbandon_row, pfWriteCutoff_row,
    fun h => ?_, ?_⟩, fun hf hu hp => ⟨backupSwitchover_off true hf hu hp, backupSwitchover_lost hf hu hp⟩, fun here mv => cellMeasure_row here mv s, fun v => tempSample_row v s,
    ⟨rfl, fun x hx => sfpChange_bad hx s⟩, fun hu => ⟨fun hs hg b c => ?_, fun hs hg b c => ?_, xtalFail_row hu, ?_, ?_, ?_⟩, fun l hp _ => ⟨lanePllFail_row hp, laneSupplyFault_row hp⟩⟩
  · obtain ⟨cause, bank, on, tpf, bad, -⟩ := feedReset_leaves s
    exact gives_of_leaves (leaves_feedReset s) (feedReset_row h) ⟨cause, bank, on, tpf, bad⟩
  · obtain ⟨cause, bank, -, -, -, evt⟩ := feedReset_leaves (modPower (fun p => { p with evt := Sys2Proof.Machine.setBit p.evt 5 true }) s)
    refine gives_of_leaves (leaves_holdupShort s) (congrArg Host.Outcome.next (if_pos (Option.isSome_iff_ne_none.2 ht))) ⟨cause, ?_, bank⟩
    rw [evt]
    exact setBit_true_same _ (by decide)
  · refine (rootMonitorWindow_up hu).trans (congrArg Host.Outcome.next ?_)
    rw [if_pos rfl, if_pos hs, if_pos (by omega)]
    rfl
  · refine (rootMonitorWindow_up hu).trans (congrArg Host.Outcome.next ?_)
    rw [if_pos rfl, if_pos hs, if_neg (by omega)]
    rfl
  · exact gives_of_leaves (leaves_rootMonitorWindow false false true s) (rootMonitorWindow_up hu) rfl
  · exact gives_of_leaves (leaves_rootMonitorWindow false false false s) (rootMonitorWindow_up hu) ⟨rfl, setBit_true_same _ (by decide)⟩
  · exact gives_of_leaves (leaves_mainPllFail s) (congrArg Host.Outcome.next (if_pos hu)) rfl

end Sys2Proof.Proofs
end

section
/-! SUPPORT. What a module reset leaves (R327, R456 to R458). -/

namespace Sys2Proof.Proofs
open Sys2Proof.Machine Sys2Proof.Safety Sys2Proof.Laws
set_option Elab.async false

/-! ## What a module reset leaves (R456 to R458) -/

/-- What every module reset with a cause leaves of a state. -/
def ResetBy (cause : Byte) (s t : State) : Prop :=
  t.boot.cause = cause ∧ t.boot.on = resetOn s ∧ t.boot.step = s.boot.bootStep ∧ t.boot.rstCount = inc s.boot.rstCount ∧
    t.pending = s.pending ∧ t.cores = State.reset.cores ∧ t.voter = .reset ∧ t.ring = .reset ∧ t.hsb = .reset ∧ t.fg = State.reset.fg ∧ t.wdg = State.reset.wdg ∧ t.cyc = .reset ∧
    t.arb.oper = .stop ∧ t.arb.key = s.arb.key ∧ t.ps.pages = s.ps.pages ∧ t.arch = s.arch ∧ t.update.running = s.update.running ∧
    (∀ d : DomId, t.doms[d].run = false ∧ t.doms[d].image = none)

theorem moduleReset_dom (cause : Nat) (d : DomId) (s : State) : (moduleReset cause s).doms[d] = domSurvives s.doms[d] := Vector.getElem_map ..

theorem moduleReset_resets (cause : Nat) (s : State) : ResetBy (BitVec.ofNat 8 cause) s (moduleReset cause s) :=
  ⟨rfl, rfl, rfl, rfl, rfl, rfl, rfl, rfl, rfl, rfl, rfl, rfl, rfl, rfl, rfl, rfl, rfl, fun d => by rw [moduleReset_dom]; exact ⟨rfl, rfl⟩⟩

/-- What a reset looks at of the state before it: steps that end a cycle leave it. -/
structure SameForReset (s t : State) : Prop where
  power : t.power.feed = s.power.feed
  step : t.boot.bootStep = s.boot.bootStep
  count : t.boot.rstCount = s.boot.rstCount
  pending : t.pending = s.pending
  key : t.arb.key = s.arb.key
  pages : t.ps.pages = s.ps.pages
  arch : t.arch = s.arch
  running : t.update.running = s.update.running

theorem resetOn_congr {s t : State} (h : t.power.feed = s.power.feed) : resetOn t = resetOn s := by
  unfold resetOn
  rw [h]

theorem ResetBy.before {cause : Byte} {s t u : State} (h : ResetBy cause t u) (k : SameForReset s t) : ResetBy cause s u := by
  obtain ⟨hc, on, step, count, pending, cores, voter, ring, hsb, fg, wdg, cyc, oper, key, pages, arch, running, doms⟩ := h
  exact ⟨hc, on.trans (resetOn_congr k.power), step.trans k.step, count.trans (congrArg inc k.count), pending.trans k.pending, cores, voter, ring, hsb, fg, wdg, cyc, oper,
    key.trans k.key, pages.trans k.pages, arch.trans k.arch, running.trans k.running, doms⟩

theorem sameForReset_of_kept {s t : State} {ps : List Part} (h : Kept ps s t) (hp : ∀ p ∈ [Part.power, .boot, .pending, .arb, .ps, .arch, .update], p ∉ ps) : SameForReset s t where
  power := congrArg Power.feed (h.only .power (hp _ (by decide)))
  step := congrArg Boot.bootStep (h.only .boot (hp _ (by decide)))
  count := congrArg Boot.rstCount (h.only .boot (hp _ (by decide)))
  pending := h.only .pending (hp _ (by decide))
  key := congrArg Arb.key (h.only .arb (hp _ (by decide)))
  pages := congrArg PStore.pages (h.only .ps (hp _ (by decide)))
  arch := h.only .arch (hp _ (by decide))
  running := congrArg Update.running (h.only .update (hp _ (by decide)))

theorem SameForReset.trans {s t u : State} (h : SameForReset s t) (k : SameForReset t u) : SameForReset s u :=
  ⟨k.power.trans h.power, k.step.trans h.step, k.count.trans h.count, k.pending.trans h.pending, k.key.trans h.key, k.pages.trans h.pages, k.arch.trans h.arch,
    k.running.trans h.running⟩

/-! ## Memory through a reset (R327) -/

/-- Of the memories only the Grotto survives. -/
theorem readByte_grottoCells {k o : Nat} (hk : k ≤ 7) (ho : o < 2 ^ 36) {s t : State} (h : t.mem = grottoCells s.mem) :
    readByte k o t = if k = 5 then readByte k o s else 0 := by
  have found := memFind_filter (fun a => decide (memKey 5 0 ≤ a) && decide (a < memKey 6 0)) s.mem (memKey k o)
  unfold readByte
  rw [h]
  show polarity k (memFind (s.mem.filter fun c => decide (memKey 5 0 ≤ c.1) && decide (c.1 < memKey 6 0)) (memKey k o)) = _
  rw [found]
  by_cases h5 : k = 5
  · subst h5
    rw [if_pos (by unfold memKey; simp; omega), if_pos rfl]
  · rw [if_neg (by unfold memKey; simp; omega), if_neg h5]
    exact polarity_memFill ho

theorem railFault_row {s : State} (hu : s.boot.up = true) : exec .railFault s = .next (moduleReset 8 s) := congrArg Host.Outcome.next (if_pos hu)

theorem moduleReset_grotto (cause : Nat) (s : State) : (moduleReset cause s).rtc = { s.rtc with err := 0, evt := 0 } ∧
    (∀ d : DomId, (moduleReset cause s).doms[d].retain = s.doms[d].retain) ∧
    ∀ k o, k ≤ 7 → o < 2 ^ 36 → readByte k o (moduleReset cause s) = if k = 5 then readByte k o s else 0 :=
  ⟨rfl, fun d => by rw [moduleReset_dom]; rfl, fun _ _ hk ho => readByte_grottoCells hk ho rfl⟩

/-- The state that a first supply leaves. -/
def poweredOn (s : State) : State :=
  let t := aonLost (moduleReset 1 s)
  { t with boot := { t.boot with on := resetOn t, cause := 1 } }

theorem powerOnReset_run {s : State} (h : pdOn .aon s = false) : exec .powerOnReset s = .next (poweredOn s) :=
  congrArg Host.Outcome.next (if_neg (by rw [h]; exact Bool.false_ne_true))

theorem poweredOn_mem {k o : Nat} (hk : k ≤ 7) (ho : o < 2 ^ 36) (s : State) : readByte k o (poweredOn s) = 0 := by
  by_cases h5 : k = 5
  · subst h5
    exact aonLost_grotto ho (moduleReset 1 s)
  · have kept : readByte k o (poweredOn s) = readByte k o (moduleReset 1 s) := (readByte_clearMem 5 (moduleReset 1 s) ho).trans (if_neg h5)
    rw [kept, (moduleReset_grotto 1 s).2.2 k o hk ho, if_neg h5]

/-! ## Orderly resets (R457) -/

theorem pairsBusy_of {s t : State} (h : ∀ d, busyOf d t = busyOf d s) : pairsBusy t = pairsBusy s := by
  unfold pairsBusy
  exact congrArg (fun f => allPairs.any f) (funext fun n => pairBusy_of (h _))

theorem busyOf_congr {s t : State} (h : t.doms = s.doms) (d : DomId) : busyOf d t = busyOf d s := by
  unfold busyOf
  rw [h]

theorem safetyOff_busyOf (g : Fin 2) (d : DomId) (s : State) : busyOf d (safetyOff g s) = busyOf d s := by
  unfold busyOf safetyOff
  by_cases h : d = groupDom g
  · rw [h, modDom_same]
  · rw [modDom_other _ _ _ _ h]

theorem outputsDown_busyOf (d : DomId) (s : State) : busyOf d (outputsDown s) = busyOf d s :=
  (busyOf_congr (s := safetyOff 0 (safetyOff 1 s)) rfl d).trans ((safetyOff_busyOf 0 d _).trans (safetyOff_busyOf 1 d s))

/-- A PRIMARY names its last train before an orderly reset. -/
def lastNamed (s : State) : State := if s.hsb.role == .primary then sendRelinquish (s.cyc.count + 1) s else s

theorem kept_lastNamed (s : State) : Kept [.sync] s (lastNamed s) := by
  unfold lastNamed
  split
  · exact kept_sendRelinquish _ _ kept_refl (by decide)
  · exact kept_refl

/-- The reset is decided. -/
def orderlySet (cause : Nat) (s : State) : State := { s with boot := { s.boot with orderly := some { cause := BitVec.ofNat 8 cause, at_ := s.cyc.tb } } }

theorem orderlyBegin_run {cause : Nat} {s : State} (h : s.boot.orderly = none) : orderlyBegin cause s = outputsDown (orderlySet cause (lastNamed s)) :=
  if_neg (by rw [h]; exact Bool.false_ne_true)

theorem orderlyBegin_leaves {cause : Nat} {s : State} (h : s.boot.orderly = none) :
    (orderlyBegin cause s).boot = { s.boot with orderly := some { cause := BitVec.ofNat 8 cause, at_ := s.cyc.tb } } ∧ (∀ g : GroupId, (orderlyBegin cause s).fg[g].permitOn = false) ∧
      (∀ d, busyOf d (orderlyBegin cause s) = busyOf d s) ∧ Kept [.doms, .sync, .fg, .boot] s (orderlyBegin cause s) := by
  rw [orderlyBegin_run h]
  have named := kept_lastNamed s
  have boot : (lastNamed s).boot = s.boot := named.only .boot (by decide)
  have cyc : (lastNamed s).cyc = s.cyc := named.only .cyc (by decide)
  have busy (d : DomId) : busyOf d (lastNamed s) = busyOf d s := busyOf_congr (named.only .doms (by decide)) d
  refine ⟨?_, fun g => permitsOff_fg _ g, fun d => (outputsDown_busyOf d _).trans (busy d), ?_⟩
  · show { (lastNamed s).boot with orderly := some { cause := BitVec.ofNat 8 cause, at_ := (lastNamed s).cyc.tb } } = _
    rw [boot, cyc]
  · exact kept_outputsDown _ (kept_upd_boot (kept_mono named (by decide)) (by decide)) (by decide)

theorem orderlyTry_now {s : State} {o : Orderly} (h : s.boot.orderly = some o) (ht : o.at_ = s.cyc.tb) :
    orderlyTry s = if !pairsBusy (pairsFinish false s) && (pairsFinish false s).ps.cur.isNone then moduleReset o.cause.toNat (pairsFinish false s) else pairsFinish false s := by
  have now : since o.at_ s = 0 := by
    unfold since
    rw [ht, sub_self]
    rfl
  unfold orderlyTry
  rw [h]
  dsimp only
  rw [now]
  rfl

theorem kept_early (s : State) : Kept [.cores, .doms] s (pairsFinish false s) := kept_pairsFinish false s kept_refl (by decide)

theorem pairsBusy_early (s : State) : pairsBusy (pairsFinish false s) = pairsBusy s := pairsBusy_of fun d => pairsFinish_early d s

theorem orderlyReset_run {cause : Byte} {s : State} (h : s.boot.orderly = none) (hc : orderlyCause cause.toNat s = true) :
    exec (.orderlyReset cause) s = .next (orderlyTry (orderlyBegin cause.toNat s)) :=
  congrArg Host.Outcome.next ((if_neg (by rw [h]; exact Bool.false_ne_true)).trans (if_pos hc))

theorem ofNat_toNat_byte (c : Byte) : BitVec.ofNat 8 c.toNat = c := BitVec.ofNat_toNat ..

end Sys2Proof.Proofs
end

section
/-! SUPPORT. Orderly and escalation resets, and the first steps of a start (R418, R457 to R471). -/

namespace Sys2Proof.Proofs
open Sys2Proof.Machine Sys2Proof.Safety Sys2Proof.Laws
set_option Elab.async false

/-! ## The rows of resets (R418, R456 to R458, R461, R471) -/

theorem sameForReset_begin {cause : Nat} {s : State} (h : s.boot.orderly = none) : SameForReset s (orderlyBegin cause s) := by
  obtain ⟨boot, -, -, k⟩ := orderlyBegin_leaves (cause := cause) h
  exact ⟨congrArg Power.feed (k.only .power (by decide)), (congrArg Boot.bootStep boot :), (congrArg Boot.rstCount boot :), k.only .pending (by decide),
    congrArg Arb.key (k.only .arb (by decide)), congrArg PStore.pages (k.only .ps (by decide)), k.only .arch (by decide), congrArg Update.running (k.only .update (by decide))⟩

theorem sameForReset_early (s : State) : SameForReset s (pairsFinish false s) := sameForReset_of_kept (kept_early s) (by decide)

theorem orderlyTry_begun {cause : Byte} {s : State} (h : s.boot.orderly = none) :
    let u := pairsFinish false (orderlyBegin cause.toNat s)
    orderlyTry (orderlyBegin cause.toNat s) = if !pairsBusy s && s.ps.cur.isNone then moduleReset cause.toNat u else u := by
  obtain ⟨boot, -, busy, k⟩ := orderlyBegin_leaves (cause := cause.toNat) h
  have decided : (orderlyBegin cause.toNat s).boot.orderly = some { cause := BitVec.ofNat 8 cause.toNat, at_ := s.cyc.tb } := congrArg Boot.orderly boot
  have now : s.cyc.tb = (orderlyBegin cause.toNat s).cyc.tb := (congrArg Cyc.tb (k.only .cyc (by decide))).symm
  have cur : (pairsFinish false (orderlyBegin cause.toNat s)).ps.cur = s.ps.cur :=
    congrArg PStore.cur (((kept_early _).only .ps (by decide)).trans (k.only .ps (by decide)))
  rw [orderlyTry_now decided now, pairsBusy_early, pairsBusy_of busy, cur]
  show (if _ then moduleReset (BitVec.ofNat 8 cause.toNat).toNat _ else _) = _
  rw [ofNat_toNat_byte]

theorem orderlyReset_waits {cause : Byte} {s : State} (h : s.boot.orderly = none) (hc : orderlyCause cause.toNat s = true) (hb : pairsBusy s = true) :
    ∃ t, exec (.orderlyReset cause) s = .next t ∧ t.boot.orderly = some { cause := cause, at_ := s.cyc.tb } ∧ (∀ g : GroupId, t.fg[g].permitOn = false) ∧ t.power = s.power := by
  obtain ⟨boot, permits, -, k⟩ := orderlyBegin_leaves (cause := cause.toNat) h
  have early := kept_early (orderlyBegin cause.toNat s)
  refine ⟨_, (orderlyReset_run h hc).trans (congrArg Host.Outcome.next ((orderlyTry_begun h).trans (if_neg (by rw [hb]; exact Bool.false_ne_true)))), ?_, fun g => ?_, ?_⟩
  · rw [early.only .boot (by decide), boot, ofNat_toNat_byte]
  · rw [early.only .fg (by decide)]
    exact permits g
  · exact (early.only .power (by decide)).trans (k.only .power (by decide))

theorem orderlyReset_done {cause : Byte} {s : State} (h : s.boot.orderly = none) (hc : orderlyCause cause.toNat s = true) (hb : pairsBusy s = false) (hp : s.ps.cur = none) :
    ∃ t, exec (.orderlyReset cause) s = .next t ∧ ResetBy cause s t := by
  refine ⟨_, (orderlyReset_run h hc).trans (congrArg Host.Outcome.next ((orderlyTry_begun h).trans (if_pos (by rw [hb, hp]; rfl)))), ?_⟩
  have reset := moduleReset_resets cause.toNat (pairsFinish false (orderlyBegin cause.toNat s))
  rw [ofNat_toNat_byte] at reset
  exact reset.before ((sameForReset_begin h).trans (sameForReset_early _))

theorem rstReq_row {cause : Byte} {s : State} (h : s.boot.orderly = none) (hc : cause = 3 ∨ cause = 5 ∨ cause = 9) : ∃ t, exec (.rstReq 0x5A3C cause) s = .next t ∧
    t.boot.orderly = some { cause := cause, at_ := s.cyc.tb } ∧ ∀ g : GroupId, t.fg[g].permitOn = false := by
  obtain ⟨boot, permits, -, -⟩ := orderlyBegin_leaves (cause := cause.toNat) h
  refine ⟨_, congrArg Host.Outcome.next (if_pos ?_), ?_, permits⟩
  · rcases hc with rfl | rfl | rfl <;> decide
  · rw [boot, ofNat_toNat_byte]

theorem rstReq_other {v : BitVec 16} (h : v ≠ 0x5A3C) (cause : Byte) (s : State) : exec (.rstReq v cause) s = .next s :=
  congrArg Host.Outcome.next (if_neg fun k => h (of_decide_eq_true (Bool.and_eq_true_iff.1 k).1))

/-- While no pair executes, the end of a cycle abandons none. -/
theorem pairsFinish_idle {s : State} (h : pairsBusy s = false) (late : Bool) : pairsBusy (pairsFinish late s) = false := by
  refine (pairsBusy_of fun d => ?_).trans h
  have idle (n : Fin 4) : pairBusy n s = false := Bool.eq_false_iff.2 (List.any_eq_false.1 h n (mem_allPairs n))
  clear h
  unfold pairsFinish
  generalize allPairs = ns
  induction ns generalizing s with
  | nil => rfl
  | cons n ns ih =>
    have step : ∀ d, busyOf d (if late then pairAbandon n (pairFinish n s) else pairFinish n s) = busyOf d s := fun d => by
      split
      · rw [pairAbandon_idle ((pairBusy_of (pairFinish_busyOf n _ s)).trans (idle n))]
        exact pairFinish_busyOf n d s
      · exact pairFinish_busyOf n d s
    exact (ih fun m => (pairBusy_of (step _)).trans (idle m)).trans (step d)

theorem escalationReset_run {r : Rung2} {s : State} (hr : s.esc.rung2 = some r) : exec .escalationReset s = .next (
    let u := pairsFinish (10 * tickMs ≤ since r.at_ s) s
    if !pairsBusy u && (r.copies ≥ 2 || 40 * tickMs ≤ since r.at_ s) then moduleReset 4 u else u) := by
  refine congrArg Host.Outcome.next ?_
  (rw [hr]) <;> rfl

theorem escalationReset_done {r : Rung2} {s : State} (hr : s.esc.rung2 = some r) (hb : pairsBusy s = false) (hd : 2 ≤ r.copies ∨ 50000000 ≤ since r.at_ s) :
    ∃ t, exec .escalationReset s = .next t ∧ ResetBy 4 s t := by
  refine ⟨_, (escalationReset_run hr).trans (congrArg Host.Outcome.next (if_pos ?_)), ?_⟩
  · rw [pairsFinish_idle hb]
    rcases hd with h | h
    · rw [decide_eq_true h]
      rfl
    · rw [decide_eq_true (show 40 * tickMs ≤ since r.at_ s by unfold tickMs; omega), Bool.or_true]
      rfl
  · exact (moduleReset_resets 4 _).before (sameForReset_of_kept (kept_pairsFinish (ps0 := [.cores, .doms]) _ s kept_refl (by decide)) (by decide))

theorem escalationReset_waits {r : Rung2} {s : State} (hr : s.esc.rung2 = some r) (ht : since r.at_ s < 12500000) (hb : pairsBusy s = true) :
    ∃ t, exec .escalationReset s = .next t ∧ t.boot = s.boot ∧ t.esc = s.esc := by
  have early : (decide (10 * tickMs ≤ since r.at_ s)) = false := by
    rw [decide_eq_false_iff_not]
    unfold tickMs
    omega
  have hrun := escalationReset_run hr
  dsimp only at hrun
  rw [early, if_neg (by rw [pairsBusy_early, hb]; exact Bool.false_ne_true)] at hrun
  exact ⟨_, hrun, (kept_early s).only .boot (by decide), (kept_early s).only .esc (by decide)⟩

theorem bootStepWrite_row {s : State} (h : started s = false) (v : BitVec 4) : Gives (.bootStepWrite v) s [.boot] fun t =>
    t.boot.bootStep = v ∧ t.boot.tmrAt = s.cyc.tb ∧ (v = 6 → t.boot.tmr = 400) ∧ (v = 13 → t.boot.tmr = 5000) := by
  refine gives_of_leaves (leaves_bootStepWrite v s) (congrArg Host.Outcome.next (if_neg (by rw [h]; exact Bool.false_ne_true))) ⟨rfl, rfl, ?_, ?_⟩
  · rintro rfl
    rfl
  · rintro rfl
    rfl

theorem bootTimerExpiry_row {s : State} (h : started s = false) (ht : s.boot.tmr ≠ 0) (hz : bootTmr s = 0) : exec .bootTimerExpiry s = .next (moduleReset 6 s) :=
  congrArg Host.Outcome.next (if_neg (by rw [h, hz, decide_eq_false ht]; decide))

theorem started_ignores {s : State} (h : started s = true) : exec .bootTimerExpiry s = .next s ∧ ∀ v, exec (.bootStepWrite v) s = .next s :=
  ⟨congrArg Host.Outcome.next (if_pos (by rw [h]; rfl)), fun _ => congrArg Host.Outcome.next (if_pos h)⟩

/-! ## The first steps of a start (R460 to R470) -/

/-- The power domains and registers that B0 brings up. -/
def bootUp (b : Boot) : Boot :=
  { b with up := true, on := Sys2Proof.Machine.setBit (Sys2Proof.Machine.setBit (Sys2Proof.Machine.setBit b.on Pd.aon.idx true) Pd.grotto.idx true) Pd.vote.idx true }

theorem bootB0_leaves (f : BootFindings) (s : State) : (bootB0 f s).boot = bootUp s.boot ∧ (bootB0 f s).power.cap = f.capPercent ∧ (bootB0 f s).power.feed = s.power.feed ∧
    Kept [.boot, .power, .log] s (bootB0 f s) := by
  have k : Kept [.boot, .power, .log] s (bootB0 f s) := kept_bootB0 f s kept_refl (by decide)
  refine ⟨?_, ?_, ?_, k⟩ <;> (unfold bootB0; dsimp only; split <;> rfl)

/-- The record of a start whose parameter store has failed too often (R467). -/
def scanFailing (s : State) : State :=
  modRec (fun b => setFc 2 3 (setFc 1 (s.boot.fc1.setWidth 8) { b with flags := Sys2Proof.Machine.setBit b.flags 5 true })) s

/-- What a start may change. -/
abbrev startLeaves : List Part := [.cyc, .cores, .doms, .pairs, .mem, .memRegs, .memErrs, .banks, .voter, .solvers, .rmus, .ixl, .conns, .ring, .rtm, .hsb, .sync, .fg, .fgErr,
  .mbx, .update, .wdg, .cim, .esc, .rtc, .ps, .boot, .power, .arb, .fuses, .dbg, .log, .freeCtr]

/-- A start from B0 on. -/
def startedUp (f : BootFindings) (s : State) : State :=
  if s.boot.fc1 = 3 then panelShow ((2, false) :: List.replicate 11 (2, true)) (modBoot (fun b => { b with halted := true, up := false, on := resetOn s }) s)
  else if !f.pllRoot then bootFails 1 s
  else if (bootB1 s).boot.fc2 = 3 then bootB14 f (scanFailing (bootB1 s))
  else match bootB2 f (bootB1 s) with
    | none => bootFails 2 (bootB1 s)
    | some t => bootOn f t

theorem execModuleStart_eq (f : BootFindings) (s : State) :
    execModuleStart f s = .next (if s.boot.up || s.boot.halted || !s.power.feed.toList.any (·.present) then s else startedUp f (bootB0 f s)) := by
  unfold execModuleStart startedUp
  rfl

theorem moduleStart_run {f : BootFindings} {s : State} (hu : s.boot.up = false) (hh : s.boot.halted = false) (hf : anyFeed s = true) :
    exec (.moduleStart f) s = .next (startedUp f (bootB0 f s)) := by
  have fed : (s.power.feed.toList.any (·.present)) = true := by
    unfold anyFeed at hf
    rw [List.any_eq_true]
    rcases Bool.or_eq_true_iff.1 hf with h | h
    · exact ⟨_, Vector.mem_toList_iff.2 (Vector.getElem_mem (i := 0) (by decide)), h⟩
    · exact ⟨_, Vector.mem_toList_iff.2 (Vector.getElem_mem (i := 1) (by decide)), h⟩
  refine (execModuleStart_eq f s).trans (congrArg Host.Outcome.next (if_neg ?_))
  rw [hu, hh, fed]
  decide

theorem bootB0_fc1 (f : BootFindings) (s : State) : (bootB0 f s).boot.fc1 = s.boot.fc1 := by rw [(bootB0_leaves f s).1]; rfl
theorem bootB1_fc2 (f : BootFindings) (s : State) : (bootB1 (bootB0 f s)).boot.fc2 = s.boot.fc2 := by
  show (bootB0 f s).boot.fc2 = _
  rw [(bootB0_leaves f s).1]
  rfl

theorem bootB0_arch (f : BootFindings) (s : State) : (bootB0 f s).arch = s.arch := (bootB0_leaves f s).2.2.2.only .arch (by decide)

theorem start_held {f : BootFindings} {s : State} (hf : anyFeed s = true) (h1 : s.boot.fc1 = 3) :
    let t := startedUp f (bootB0 f s)
    (t.boot.halted = true ∧ t.boot.on = 0x803 ∧ t.power.cap = f.capPercent) ∧ t.arch = s.arch := by
  obtain ⟨-, cap, feed, -⟩ := bootB0_leaves f s
  have run : startedUp f (bootB0 f s) = panelShow ((2, false) :: List.replicate 11 (2, true)) (modBoot (fun b => { b with halted := true, up := false, on := resetOn (bootB0 f s) }) (bootB0 f s)) :=
    if_pos (by rw [bootB0_fc1, h1])
  dsimp only
  rw [run]
  exact ⟨⟨rfl, (resetOn_congr feed).trans (if_pos hf), cap⟩, bootB0_arch f s⟩

theorem bootFails_leaves (n : Nat) (s : State) : ((bootFails n s).boot.cause = 6 ∧ (bootFails n s).boot.step = BitVec.ofNat 4 n) ∧ (bootFails n s).arch = s.arch :=
  ⟨⟨rfl, rfl⟩, rfl⟩

theorem start_noRoot {f : BootFindings} {s : State} (h1 : s.boot.fc1 ≠ 3) (hp : f.pllRoot = false) :
    let t := startedUp f (bootB0 f s)
    (t.boot.cause = 6 ∧ t.boot.step = 1) ∧ t.arch = s.arch := by
  have run : startedUp f (bootB0 f s) = bootFails 1 (bootB0 f s) := (if_neg (by rw [bootB0_fc1]; exact h1)).trans (if_pos (by rw [hp]; rfl))
  obtain ⟨boot, arch⟩ := bootFails_leaves 1 (bootB0 f s)
  dsimp only
  rw [run]
  exact ⟨boot, arch.trans (bootB0_arch f s)⟩

/-- A start with the main PLL locked. -/
theorem startedUp_locked {f : BootFindings} {s : State} (h1 : s.boot.fc1 ≠ 3) (hp : f.pllRoot = true) : startedUp f (bootB0 f s) =
    if (bootB1 (bootB0 f s)).boot.fc2 = 3 then bootB14 f (scanFailing (bootB1 (bootB0 f s)))
    else match bootB2 f (bootB1 (bootB0 f s)) with
      | none => bootFails 2 (bootB1 (bootB0 f s))
      | some t => bootOn f t :=
  (if_neg (by rw [bootB0_fc1]; exact h1)).trans (if_neg (by rw [hp]; decide))

theorem start_noScan {f : BootFindings} {s : State} (h1 : s.boot.fc1 ≠ 3) (hp : f.pllRoot = true) (h2 : s.boot.fc2 ≠ 3) (hs : f.psScan = false) :
    let t := startedUp f (bootB0 f s)
    (t.boot.cause = 6 ∧ t.boot.step = 2) ∧ t.arch = s.arch := by
  have fails (u : State) : bootB2 f u = none := if_neg (by rw [hs]; exact Bool.false_ne_true)
  have second (u : State) : (bootB1 u).arch = u.arch := (kept_bootB1 (ps0 := [.boot]) u kept_refl (by decide)).only .arch (by decide)
  obtain ⟨boot, arch⟩ := bootFails_leaves 2 (bootB1 (bootB0 f s))
  have run : startedUp f (bootB0 f s) = bootFails 2 (bootB1 (bootB0 f s)) := by
    rw [startedUp_locked h1 hp, if_neg (by rw [bootB1_fc2]; exact h2), fails]
  dsimp only
  rw [run]
  exact ⟨boot, arch.trans ((second _).trans (bootB0_arch f s))⟩

/-- B14 up to the entry mode: the step is 15, the record stored, the power-up counted. -/
def stepsOver (s : State) : State := countPowerUp (bootStore (modBoot (fun b => { b with bootStep := 15, tmr := 0, svcOnly := serviceOnly s }) s))

theorem stepsOver_leaves (s : State) : (stepsOver s).boot = { s.boot with bootStep := 15, tmr := 0, svcOnly := serviceOnly s } ∧ Kept [.boot, .ps] s (stepsOver s) := by
  have stored (t : State) : Kept [.ps] t (countPowerUp (bootStore t)) := kept_countPowerUp _ (kept_bootStore t kept_refl (by decide)) (by decide)
  refine ⟨?_, kept_trans (kept_upd_boot kept_refl (by decide)) (kept_mono (stored _) (by decide))⟩
  unfold stepsOver
  rw [(stored _).only .boot (by decide)]
  rfl

theorem bootB14_serviceOnly {f : BootFindings} {s : State} (h : serviceOnly s = true) :
    bootB14 f s = panelDrive (enterSafe (if s.esc.hold then 6 else 7) none (stepsOver s)) := by
  obtain ⟨boot, k⟩ := stepsOver_leaves s
  have still : serviceOnly (stepsOver s) = true := by
    unfold serviceOnly
    rw [boot]
    show (serviceOnly s || _) = true
    rw [h, Bool.true_or]
  have hold : (stepsOver s).esc = s.esc := k.only .esc (by decide)
  show panelDrive (if (stepsOver s).esc.hold then enterSafe 0x06 none (stepsOver s) else if serviceOnly (stepsOver s) then enterSafe 0x07 none (stepsOver s) else _) = _
  rw [hold, if_pos still]
  split <;> rfl

theorem panelDrive_keeps (s : State) : Kept [.power] s (panelDrive s) := kept_panelDrive s kept_refl (by decide)

/-- What B14 of a service-only start leaves: SAFE. -/
theorem bootB14_safe {f : BootFindings} {s : State} (h : serviceOnly s = true) (ho : s.arb.oper = .stop) :
    (bootB14 f s).arb.oper = .safe ∧ (bootB14 f s).voter.safeCause = (if s.esc.hold then 6 else 7) ∧ OnlyOn (stepsOver s) (bootB14 f s) := by
  rw [bootB14_serviceOnly h]
  have k := (stepsOver_leaves s).2
  have outside : inSafe (stepsOver s) = false := by
    unfold inSafe
    rw [k.only .arb (by decide), ho]
    rfl
  have entered := enterSafe_entered (if s.esc.hold then 6 else 7) none outside
  have shown (t : State) := panelDrive_keeps t
  refine ⟨?_, ?_, (onlyOn_enterSafe _ none (stepsOver s)).trans (onlyOn_kept (shown _) (by decide))⟩
  · rw [(shown _).only .arb (by decide)]
    exact entered.oper
  · rw [(shown _).only .voter (by decide), entered.cause]
    split <;> rfl

theorem scanFailing_leaves (u : State) : serviceOnly (scanFailing u) = true ∧ (scanFailing u).boot.on = u.boot.on ∧ Kept [.boot] u (scanFailing u) :=
  ⟨by
    unfold serviceOnly
    exact Bool.or_eq_true_iff.2 (.inr (setBit_true_same _ (by decide))), rfl, kept_modRec _ u kept_refl (by decide)⟩

theorem bootB1_on {u : State} (h : pdOn .vote u = true) : pdOn .stew (bootB1 u) = true ∧ pdOn .vote (bootB1 u) = true :=
  ⟨setBit_true_same _ (by decide), setBit_true_getLsbD _ (setBit_true_getLsbD _ (setBit_true_getLsbD _ (setBit_true_getLsbD _ h)))⟩

/-- A service-only start after B1. -/
theorem scanFailing_start {f : BootFindings} {u : State} (ho : u.arb.oper = .stop) (hv : pdOn .vote u = true) :
    let t := bootB14 f (scanFailing (bootB1 u))
    (t.boot.bootStep = 15 ∧ t.boot.svcOnly = true ∧ t.arb.oper = .safe ∧ t.voter.safeCause = (if u.esc.hold then 6 else 7) ∧ pdOn .stew t = true ∧ pdOn .vote t = true) ∧
      t.arch = u.arch := by
  obtain ⟨only, on, k⟩ := scanFailing_leaves (bootB1 u)
  have from_ : Kept [.boot] u (scanFailing (bootB1 u)) := kept_trans (kept_bootB1 u kept_refl (by decide)) k
  obtain ⟨stew, vote⟩ := bootB1_on hv
  generalize scanFailing (bootB1 u) = w at *
  obtain ⟨safe, cause, kept⟩ := bootB14_safe (f := f) only ((congrArg Arb.oper (from_.only .arb (by decide))).trans ho)
  obtain ⟨stepped, -⟩ := stepsOver_leaves w
  have up (p : Pd) (h : pdOn p (bootB1 u) = true) : pdOn p (stepsOver w) = true := by
    unfold pdOn at h ⊢
    rw [stepped]
    rw [← on] at h
    exact h
  rw [show w.esc = u.esc from from_.only .esc (by decide)] at cause
  refine ⟨⟨?_, ?_, safe, cause, kept.on _ (up _ stew), kept.on _ (up _ vote)⟩, ((kept_bootB14 (ps0 := startLeaves) f w kept_refl (by decide)).only .arch (by decide)).trans (from_.only .arch (by decide))⟩
  · rw [kept.rest, stepped]
  · rw [kept.rest, stepped]
    exact only

theorem bootB0_vote (f : BootFindings) (s : State) : pdOn .vote (bootB0 f s) = true := by
  unfold pdOn
  rw [(bootB0_leaves f s).1]
  exact setBit_true_same _ (by decide)

theorem start_serviceOnly {f : BootFindings} {s : State} (h1 : s.boot.fc1 ≠ 3) (hp : f.pllRoot = true) (h2 : s.boot.fc2 = 3) (ho : s.arb.oper = .stop) :
    let t := startedUp f (bootB0 f s)
    (t.boot.bootStep = 15 ∧ t.boot.svcOnly = true ∧ t.arb.oper = .safe ∧ t.voter.safeCause = (if s.esc.hold then 6 else 7) ∧ pdOn .stew t = true ∧ pdOn .vote t = true) ∧
      t.arch = s.arch := by
  obtain ⟨-, -, -, k⟩ := bootB0_leaves f s
  have run : startedUp f (bootB0 f s) = bootB14 f (scanFailing (bootB1 (bootB0 f s))) := by
    rw [startedUp_locked h1 hp, if_pos (by rw [bootB1_fc2]; exact h2)]
  obtain ⟨rows, arch⟩ := scanFailing_start (f := f) (u := bootB0 f s) ((congrArg Arb.oper (k.only .arb (by decide))).trans ho) (bootB0_vote f s)
  rw [show (bootB0 f s).esc = s.esc from k.only .esc (by decide)] at rows
  dsimp only
  rw [run]
  exact ⟨rows, arch.trans (bootB0_arch f s)⟩

theorem gives_leaves {i : Instr} {s : State} {ps : List Part} {q : State → Prop} (hl : Leaves ps s (exec i s)) (h : ∃ t, exec i s = .next t ∧ q t) : Gives i s ps q :=
  h.elim fun _ h => gives_of_leaves hl h.1 h.2

/-- A start that leaves the Archive. -/
theorem gives_start {f : BootFindings} {s t : State} {q : State → Prop} (he : exec (.moduleStart f) s = .next t) (ha : t.arch = s.arch) (hq : q t) :
    Gives (.moduleStart f) s startLeaves q := by
  refine ⟨t, he, fun p hp => ?_, hq⟩
  by_cases h : p = .arch
  · rw [h]
    exact ha
  · refine (leaves_moduleStart f s t he).only p fun m => hp ?_
    revert m h
    cases p <;> decide

/-- Settles O54, row by row. -/
theorem resetsKeepWhatSurvives : Obligations.ResetsKeepWhatSurvives := by
  unfold Obligations.ResetsKeepWhatSurvives
  refine fun s => ⟨fun hu => gives_of_leaves (leaves_railFault s) (railFault_row hu) ⟨moduleReset_resets 8 s, moduleReset_grotto 8 s⟩,
    fun ha => gives_of_leaves (leaves_powerOnReset s) (powerOnReset_run ha) ⟨rfl, rfl, rfl, rfl, rfl, rfl, rfl, rfl, fun k o hk ho => poweredOn_mem hk ho s⟩,
    fun cause ho => ⟨fun hc hb => gives_leaves (leaves_orderlyReset cause s) (orderlyReset_waits ho hc hb),
      fun hc hb hp => gives_leaves (leaves_orderlyReset cause s) (orderlyReset_done ho hc hb hp), fun hc => gives_leaves (leaves_rstReq _ cause s) (rstReq_row ho hc),
      fun v hv => rstReq_other hv cause s⟩,
    fun r hr hb hd => gives_leaves (leaves_escalationReset s) (escalationReset_done hr hb hd),
    fun r hr ht hb => gives_leaves (leaves_escalationReset s) (escalationReset_waits hr ht hb),
    fun hs => ⟨bootStepWrite_row hs, fun ht hz => gives_of_leaves (leaves_bootTimerExpiry s) (bootTimerExpiry_row hs ht hz) (moduleReset_resets 6 s)⟩, started_ignores,
    fun f hu hh hf => ⟨fun h1 => ?_, fun h1 hp => ?_, fun h1 hp h2 hs => ?_, fun h1 hp h2 ho => ?_⟩⟩
  · obtain ⟨h, arch⟩ := start_held hf h1
    exact gives_start (moduleStart_run hu hh hf) arch h
  · obtain ⟨h, arch⟩ := start_noRoot h1 hp
    exact gives_start (moduleStart_run hu hh hf) arch h
  · obtain ⟨h, arch⟩ := start_noScan h1 hp h2 hs
    exact gives_start (moduleStart_run hu hh hf) arch h
  · obtain ⟨h, arch⟩ := start_serviceOnly h1 hp h2 ho
    exact gives_start (moduleStart_run hu hh hf) arch h

end Sys2Proof.Proofs
end

section
/-! SUPPORT. Two-copy records (R447). -/

namespace Sys2Proof.Proofs
open Sys2Proof.Machine Sys2Proof.Safety Sys2Proof.Laws
set_option Elab.async false

/-! ## Records of two copies (R447) -/

theorem leNat_leBytes (k : Nat) {n : Nat} (h : n < 256 ^ k) : leNat (leBytes k n) = n := by
  induction k generalizing n with
  | zero =>
    rw [pow_zero] at h
    exact (Nat.lt_one_iff.1 h).symm
  | succ k ih =>
    have hi : n / 256 < 256 ^ k := Nat.div_lt_of_lt_mul (by rwa [pow_succ'] at h)
    show (BitVec.ofNat 8 n).toNat + 256 * leNat (leBytes k (n / 256)) = n
    rw [ih hi, BitVec.toNat_ofNat]
    omega

/-- A number of `k` bytes that stands between two lists. -/
theorem sliceNat_middle {a c : List Byte} {i k n : Nat} (hi : a.length = i) (hn : n < 256 ^ k) : sliceNat i k (a ++ leBytes k n ++ c) = n := by
  unfold sliceNat
  rw [List.append_assoc, List.drop_left' hi, List.take_left' (leBytes_length k n), leNat_leBytes k hn]

/-- The first 252 bytes of a copy. -/
def copyBody (rec_ seq : Nat) (payload : List Byte) : List Byte :=
  leBytes 2 rec_ ++ leBytes 2 payload.length ++ leBytes 4 seq ++ payload ++ List.replicate (244 - payload.length) 0

theorem recordCopy_eq (rec_ seq : Nat) (payload : List Byte) : recordCopy rec_ seq payload = copyBody rec_ seq payload ++ leBytes 4 (crc32c (copyBody rec_ seq payload)).toNat := rfl

theorem copyBody_length {rec_ seq : Nat} {payload : List Byte} (h : payload.length ≤ 244) : (copyBody rec_ seq payload).length = 252 := by
  simp only [copyBody, List.length_append, leBytes_length, List.length_replicate]
  omega

/-- What stands in a copy. -/
theorem recordCopy_fields {rec_ seq : Nat} {payload : List Byte} (hr : rec_ < 256 ^ 2) (hs : seq < 256 ^ 4) (h : payload.length ≤ 244) :
    copyValid rec_ (recordCopy rec_ seq payload) = true ∧ sliceNat 4 4 (recordCopy rec_ seq payload) = seq ∧ copyPayload (recordCopy rec_ seq payload) = payload := by
  have body := copyBody_length (rec_ := rec_) (seq := seq) h
  have number : sliceNat 0 2 (recordCopy rec_ seq payload) = rec_ := by
    rw [recordCopy_eq, copyBody, List.append_assoc, List.append_assoc, List.append_assoc, List.append_assoc]
    exact sliceNat_middle (a := []) rfl hr
  have len : sliceNat 2 2 (recordCopy rec_ seq payload) = payload.length := by
    rw [recordCopy_eq, copyBody, List.append_assoc, List.append_assoc, List.append_assoc]
    exact sliceNat_middle (leBytes_length 2 _) (by omega)
  have order : sliceNat 4 4 (recordCopy rec_ seq payload) = seq := by
    rw [recordCopy_eq, copyBody, List.append_assoc, List.append_assoc]
    exact sliceNat_middle (by simp [leBytes_length]) hs
  have sum : sliceNat 252 4 (recordCopy rec_ seq payload) = (crc32c (copyBody rec_ seq payload)).toNat := by
    rw [recordCopy_eq, ← List.append_nil (leBytes 4 _), ← List.append_assoc]
    exact sliceNat_middle body (crc32c (copyBody rec_ seq payload)).isLt
  refine ⟨?_, order, ?_⟩
  · unfold copyValid
    rw [number, len, sum, recordCopy_eq, List.take_left' body]
    simp [h]
  · unfold copyPayload
    rw [len, recordCopy_eq, copyBody, List.append_assoc, List.append_assoc, List.drop_left' (by simp [leBytes_length]), List.take_left' rfl]

/-- Two equal copies are read as they were written. -/
theorem readRecord_copies {rec_ pg seq : Nat} {payload : List Byte} (hr : rec_ < 256 ^ 2) (hs : seq < 256 ^ 4) (h : payload.length ≤ 244) {s : State}
    (ha : page pg s = recordCopy rec_ seq payload) (hb : page (pg + 1) s = recordCopy rec_ seq payload) : readRecord rec_ pg s = .valid seq payload := by
  obtain ⟨valid, order, bytes⟩ := recordCopy_fields hr hs h
  unfold readRecord
  rw [ha, hb]
  dsimp only
  rw [valid, order, bytes]
  simp

/-- A record whose pages were never written is blank. -/
theorem readRecord_unwritten {rec_ pg : Nat} (hr : rec_ ≠ 0) {s : State} (ha : page pg s = List.replicate 256 0) (hb : page (pg + 1) s = List.replicate 256 0) :
    readRecord rec_ pg s = .blank := by
  have zero : sliceNat 0 2 (List.replicate 256 (0 : Byte)) = 0 := by decide
  have blank : copyBlank (List.replicate 256 (0 : Byte)) = true :=
    List.all_eq_true.2 fun b hb => beq_iff_eq.2 (List.eq_of_mem_replicate hb)
  have bad : copyValid rec_ (List.replicate 256 (0 : Byte)) = false := by
    unfold copyValid
    rw [zero, beq_false_of_ne hr.symm, Bool.false_and, Bool.false_and]
  unfold readRecord
  rw [ha, hb]
  dsimp only
  rw [bad, blank]
  rfl

theorem bootPayload_length (b : BootRec) : (bootPayload b).length = 64 := by
  simp [bootPayload, leBytes_length]

/-! ## The boot record as a start stores it (R462, R470) -/

theorem bootStore_run {s : State} (h : recordSeq 1 0 s < 2 ^ 32 - 1) : bootStore s =
    modPs (fun p => { p with seq := p.seq + 2, writes := incBy p.writes 2 })
      (setPage 1 (recordCopy 1 (recordSeq 1 0 s + 1) (bootPayload s.boot.rec_)) (setPage 0 (recordCopy 1 (recordSeq 1 0 s + 1) (bootPayload s.boot.rec_)) s)) :=
  if_neg (by omega)

theorem page_bootStore {s : State} (h : recordSeq 1 0 s < 2 ^ 32 - 1) (n : Nat) :
    page n (bootStore s) = if n < 2 then recordCopy 1 (recordSeq 1 0 s + 1) (bootPayload s.boot.rec_) else page n s := by
  have same (t : State) (f : PStore → PStore) (hf : (f t.ps).pages = t.ps.pages) : page n (modPs f t) = page n t := page_of_pages hf n
  rw [bootStore_run h, same _ _ rfl, page_setPage, page_setPage]
  by_cases h1 : n = 1
  · rw [if_pos h1, if_pos (by omega)]
  · by_cases h0 : n = 0
    · rw [if_neg h1, if_pos h0, if_pos (by omega)]
    · rw [if_neg h1, if_neg h0, if_neg (by omega)]

/-- The stored record is read with its contents and the next number. -/
theorem readRecord_bootStore {s : State} (h : recordSeq 1 0 s < 2 ^ 32 - 1) : readRecord 1 0 (bootStore s) = .valid (recordSeq 1 0 s + 1) (bootPayload s.boot.rec_) :=
  readRecord_copies (by decide) (by omega) (by rw [bootPayload_length]; decide) (page_bootStore h 0) (page_bootStore h 1)

theorem readRecord_of_pages {s t : State} (h : ∀ n, page n t = page n s) (rec_ pg : Nat) : readRecord rec_ pg t = readRecord rec_ pg s := by
  unfold readRecord
  rw [h, h]

end Sys2Proof.Proofs
end

section
/-! SUPPORT. The first start of a new module: what it keeps, and B2 (R462). -/

namespace Sys2Proof.Proofs
open Sys2Proof.Machine Sys2Proof.Safety Sys2Proof.Laws
set_option Elab.async false

/-! ## The first start of a new module (R460 to R470) -/

/-- Every step's finding is good. -/
structure Good (f : BootFindings) : Prop where
  pllRoot : f.pllRoot = true
  psScan : f.psScan = true
  dram : f.dram = true
  archive : f.archive = true
  setVerified : f.setVerified = true
  firmware : f.firmware = true
  phys : f.phys = true
  lanes : f.lanes = 7
  lanePll : f.lanePll = 7
  groups : f.groups = 63
  pairs : f.pairs = 15
  cfgSet : f.cfgSet = true

/-- What the steps of a first start find and keep: nothing is stored but the boot record, nothing runs, and no step has failed. -/
structure Clean (on : BitVec 12) (copy : List Byte) (s : State) : Prop where
  arch : s.arch = State.reset.arch
  doms : s.doms = State.reset.doms
  oper : s.arb.oper = .stop
  members : ∀ g : Fin 2, s.voter.grp[g].members = 0
  entries : s.esc.n = 3
  hold : s.esc.hold = false
  svcOnly : s.boot.svcOnly = false
  flags : s.boot.rec_.flags = 0
  fc : s.boot.rec_.fc = .replicate 15 0
  setPrev : s.boot.rec_.setPrev = 0
  starts : s.boot.rec_.starts = 1
  failed : s.boot.rec_.failed = 0xFF
  on : s.boot.on = on
  pages : s.ps.pages = [(1, copy), (0, copy)]

theorem Clean.serviceOnly {w : BitVec 12} {c : List Byte} {s : State} (h : Clean w c s) : serviceOnly s = false := by
  unfold Machine.serviceOnly
  rw [h.svcOnly, h.flags]
  rfl

theorem Clean.fcOf {w : BitVec 12} {c : List Byte} {s : State} (h : Clean w c s) (n : Nat) : fcOf n s = 0 := by
  unfold Machine.fcOf
  rw [h.fc]
  show ((List.replicate 15 (0 : Byte)).getD n 0).toNat = 0
  by_cases hn : n < 15
  · rw [List.getD_eq_getElem _ _ (by simpa using hn), List.getElem_replicate]
    rfl
  · rw [List.getD_eq_default _ _ (by simpa using hn)]
    rfl

theorem Clean.image {w : BitVec 12} {c : List Byte} {s : State} (h : Clean w c s) (d : DomId) : s.doms[d].image = none ∧ s.doms[d].run = false := by
  rw [h.doms]
  revert d
  decide

/-- Pages beyond the boot record's were never written. -/
theorem Clean.page {w : BitVec 12} {c : List Byte} {s : State} (h : Clean w c s) {n : Nat} (hn : 2 ≤ n) : page n s = List.replicate 256 0 := by
  unfold Machine.page
  rw [h.pages, List.find?_cons_of_neg (by simp; omega), List.find?_cons_of_neg (by simp; omega)]
  rfl

/-- A step that passes goes on to the next. -/
theorem bootRun_passes {f : BootFindings} {n : Nat} {g : Step} {rest : List (Nat × Step)} {w : BitVec 12} {c : List Byte} {s t : State} (h : Clean w c s)
    (ht : g f s = some t) : bootRun f ((n, g) :: rest) s = bootRun f rest t := by
  refine (if_neg (by rw [h.serviceOnly]; exact Bool.false_ne_true)).trans ?_
  rw [ht]

/-- The record of a first start after a power-up. -/
def firstRecord : BootRec := { BootRec.reset with starts := 1, lastCause := 1 }

/-- The state with another boot record. -/
def withRecord (r : BootRec) (s : State) : State := modBoot (fun b => { b with rec_ := r }) s

theorem bootCount_first {s : State} (ha : s.arch = State.reset.arch) (hr : readRecord 1 0 s = .blank) (hs : s.boot.step = 0) (h1 : s.boot.fc1 = 0) (h2 : s.boot.fc2 = 0)
    (hc : s.boot.cause = 1) : bootCount s = withRecord firstRecord s := by
  have newest : newestSet s = 0 := by
    unfold newestSet
    rw [ha]
    rfl
  have same {r : BootRec} (h : r = firstRecord) : modBoot (fun b => { b with rec_ := r }) s = withRecord firstRecord s := by rw [h]; rfl
  unfold bootCount
  dsimp only
  rw [hr, hs, h1, h2, newest, hc]
  exact same (by decide +kernel)

/-! ## B2 (R462) -/

theorem psScanned_leaves (s : State) : Kept [.ps] s (psScanned s) ∧ (psScanned s).ps.pages = s.ps.pages := by
  refine ⟨kept_psScanned s kept_refl (by decide), ?_⟩
  unfold psScanned
  refine (psNext_pages _).trans ?_
  split <;> rfl

theorem withRecord_self (s : State) : withRecord s.boot.rec_ s = s := rfl

/-- The flag that a step has failed too often stays clear. -/
theorem setFlag_clear {s : State} (h : s.boot.rec_ = firstRecord) : setFlag 5 (s.boot.rec_.fc.toList.any fun x => 3 ≤ x.toNat) s = s := by
  have any : ((firstRecord.fc.toList.any fun x => 3 ≤ x.toNat)) = false := by decide
  have clear : ({ firstRecord with flags := Sys2Proof.Machine.setBit firstRecord.flags 5 false } : BootRec) = firstRecord := by decide
  rw [h, any]
  show withRecord { s.boot.rec_ with flags := Sys2Proof.Machine.setBit s.boot.rec_.flags 5 false } s = s
  rw [h, clear, ← h]
  exact withRecord_self s

theorem bootFallback_first {s : State} (h : s.boot.rec_ = firstRecord) : bootFallback s = s := by
  unfold bootFallback
  rw [h]
  exact if_neg (by decide)

/-- A state before B2 of a first start. -/
structure Unstarted (s : State) : Prop where
  arch : s.arch = State.reset.arch
  doms : s.doms = State.reset.doms
  arb : s.arb.oper = .stop
  voter : s.voter = .reset
  esc : s.esc = .reset
  pages : s.ps.pages = []
  cause : s.boot.cause = 1
  step : s.boot.step = 0
  fc : s.boot.fc1 = 0 ∧ s.boot.fc2 = 0
  svcOnly : s.boot.svcOnly = false

theorem page_unwritten {s : State} (h : s.ps.pages = []) (n : Nat) : page n s = List.replicate 256 0 := by
  unfold page
  rw [h]
  rfl

/-- The boot record's copies after B2. -/
def firstCopy : List Byte := recordCopy 1 1 (bootPayload firstRecord)

theorem bootB2_first {f : BootFindings} {s : State} (hf : Good f) (h : Unstarted s) :
    ∃ t, bootB2 f s = some t ∧ Clean s.boot.on firstCopy t ∧ Kept [.ps, .boot] s t := by
  obtain ⟨scanned, pages⟩ := psScanned_leaves s
  have blank : readRecord 1 0 (psScanned s) = .blank :=
    readRecord_unwritten (by decide) (page_unwritten (pages.trans h.pages) 0) (page_unwritten (pages.trans h.pages) 1)
  have boot : (psScanned s).boot = s.boot := scanned.only .boot (by decide)
  have counted : bootCount (psScanned s) = withRecord firstRecord (psScanned s) :=
    bootCount_first ((scanned.only .arch (by decide)).trans h.arch) blank (by rw [boot, h.step]) (by rw [boot, h.fc.1]) (by rw [boot, h.fc.2]) (by rw [boot, h.cause])
  have first : (withRecord firstRecord (psScanned s)).boot.rec_ = firstRecord := rfl
  have number : recordSeq 1 0 (withRecord firstRecord (psScanned s)) = 0 := by
    unfold recordSeq
    rw [readRecord_of_pages (s := psScanned s) (t := withRecord firstRecord (psScanned s)) (fun n => page_congr rfl n), blank]
  have hrun : bootB2 f s = some (bootStore (withRecord firstRecord (psScanned s))) := by
    refine (if_pos hf.psScan).trans (congrArg some ?_)
    rw [counted, bootFallback_first first, setFlag_clear first]
  have noted : Kept [.ps, .boot] s (withRecord firstRecord (psScanned s)) := kept_modBoot _ _ (kept_mono scanned (by decide)) (by decide)
  have stored : Kept [.ps] (withRecord firstRecord (psScanned s)) (bootStore (withRecord firstRecord (psScanned s))) := kept_bootStore _ kept_refl (by decide)
  have kept : Kept [.ps, .boot] s (bootStore (withRecord firstRecord (psScanned s))) := kept_trans noted (kept_mono stored (by decide))
  have same : (bootStore (withRecord firstRecord (psScanned s))).boot = { s.boot with rec_ := firstRecord } := by
    rw [stored.only .boot (by decide)]
    show { (psScanned s).boot with rec_ := firstRecord } = _
    rw [boot]
  refine ⟨_, hrun, ?_, kept⟩
  constructor
  · exact (kept.only .arch (by decide)).trans h.arch
  · exact (kept.only .doms (by decide)).trans h.doms
  · exact (congrArg Arb.oper (kept.only .arb (by decide))).trans h.arb
  · intro g
    rw [kept.only .voter (by decide), h.voter]
    revert g
    decide
  · rw [kept.only .esc (by decide), h.esc]
    rfl
  · rw [kept.only .esc (by decide), h.esc]
    rfl
  · rw [same]
    exact h.svcOnly
  · rw [same]
    rfl
  · rw [same]
    rfl
  · rw [same]
    rfl
  · rw [same]
    rfl
  · rw [same]
    rfl
  · rw [same]
  · have empty : (withRecord firstRecord (psScanned s)).ps.pages = [] := pages.trans h.pages
    rw [bootStore_run (by rw [number]; decide), number, first]
    show (1, _) :: List.filter (fun p => p.1 != 1) ((0, _) :: List.filter (fun p => p.1 != 0) (withRecord firstRecord (psScanned s)).ps.pages) = _
    rw [empty]
    rfl

end Sys2Proof.Proofs
end

section
/-! SUPPORT. The first start of a new module: B3 to B13 (R460). -/

namespace Sys2Proof.Proofs
open Sys2Proof.Machine Sys2Proof.Safety Sys2Proof.Laws
set_option Elab.async false

/-! ## The steps from B3 to B13 -/

/-- A step that leaves what a first start keeps. -/
theorem Clean.of_kept {w : BitVec 12} {c : List Byte} {s t : State} {ps : List Part} (h : Clean w c s) (k : Kept ps s t)
    (hp : ∀ p ∈ [Part.arch, .doms, .arb, .voter, .esc, .ps, .boot], p ∉ ps) : Clean w c t := by
  have same (p : Part) (hm : p ∈ [Part.arch, .doms, .arb, .voter, .esc, .ps, .boot]) : p ∉ ps := hp p hm
  have boot : t.boot = s.boot := k.only .boot (same _ (by decide))
  have esc : t.esc = s.esc := k.only .esc (same _ (by decide))
  constructor
  · exact (k.only .arch (same _ (by decide))).trans h.arch
  · exact (k.only .doms (same _ (by decide))).trans h.doms
  · exact (congrArg Arb.oper (k.only .arb (same _ (by decide)))).trans h.oper
  · intro g
    rw [k.only .voter (same _ (by decide))]
    exact h.members g
  · rw [esc]
    exact h.entries
  · rw [esc]
    exact h.hold
  · rw [boot]
    exact h.svcOnly
  · rw [boot]
    exact h.flags
  · rw [boot]
    exact h.fc
  · rw [boot]
    exact h.setPrev
  · rw [boot]
    exact h.starts
  · rw [boot]
    exact h.failed
  · rw [boot]
    exact h.on
  · rw [k.only .ps (same _ (by decide))]
    exact h.pages

/-- A step that moves the boot record's time or degradations. -/
theorem Clean.dated {w : BitVec 12} {c : List Byte} {s : State} (h : Clean w c s) (d : BitVec 32) (t : Long) :
    Clean w c (modRec (fun b => { b with degraded := d, tStart := t }) s) := { h with }

theorem Clean.powered {w : BitVec 12} {c : List Byte} {s : State} (h : Clean w c s) (p : Pd) : Clean (Sys2Proof.Machine.setBit w p.idx true) c (setPd p true s) := by
  have on : (setPd p true s).boot.on = Sys2Proof.Machine.setBit w p.idx true := congrArg (Sys2Proof.Machine.setBit · p.idx true) h.on
  exact { h with on := on }

variable {f : BootFindings} {w : BitVec 12} {c : List Byte} {s : State}

theorem bootB3_first (hf : Good f) (h : Clean w c s) : bootB3 f s = some s := by
  unfold bootB3
  rw [if_pos hf.dram, h.fcOf]
  rfl

theorem bootB4_first (hf : Good f) (h : Clean w c s) : bootB4 f s = some s := by
  unfold bootB4
  rw [if_pos hf.archive, h.fcOf]
  rfl

theorem bootSet_first (h : Clean w c s) : bootSet s = s.boot.rec_.setRun := by
  unfold bootSet
  rw [h.fcOf, h.fcOf]
  rfl

/-- With no stratum stored there is none to verify. -/
theorem setVerified_empty (h : s.arch = State.reset.arch) (id : Long) : setVerified id s = true := by
  unfold setVerified fileOf
  rw [h]
  rfl

theorem bootB5_first (hf : Good f) (h : Clean w c s) : bootB5 f s = some s :=
  if_pos (by rw [hf.setVerified, setVerified_empty h.arch, Bool.true_and])

/-- B6 of a first start: the Steward runs. -/
def stewardUp (s : State) : State := modCore stewCore (fun _ => Core.reset true false) s

theorem bootB6_first (hf : Good f) (h : Clean w c s) : bootB6 f s = some (stewardUp s) := by
  unfold bootB6
  rw [hf.firmware, if_pos (bootSet_first h)]
  rfl

theorem clean_stewardUp (h : Clean w c s) : Clean w c (stewardUp s) := h.of_kept (kept_modCore stewCore _ s kept_refl (by decide) : Kept [.cores] s _) (by decide)

/-- B7 of a first start: the record takes the time, and a degradation of the clock. -/
theorem clean_logged (h : Clean w c s) (k : LogKind) (n p : Nat) : Clean w c (addLog k n p s) := h.of_kept (kept_addLog k n p s kept_refl (by decide) : Kept [.log] s _) (by decide)

theorem clean_degrade (h : Clean w c s) (n : Nat) : Clean w c (degrade n s) :=
  clean_logged (h.dated (Sys2Proof.Machine.setBit s.boot.rec_.degraded n true) s.boot.rec_.tStart) ..

/-- What B7 finds of the clock. -/
def clockFound (s : State) : State := if s.rtc.bvalid then s else if s.rtc.nvalid then addLog .clkFallback 0 0 (degrade 7 s) else degrade 7 s

theorem clean_clockFound (h : Clean w c s) : Clean w c (clockFound s) ∧ Kept [.boot, .log] s (clockFound s) := by
  have degraded : Kept [.boot, .log] s (degrade 7 s) := kept_degrade 7 s kept_refl (by decide)
  unfold clockFound
  split
  · exact ⟨h, kept_refl⟩
  · split
    · exact ⟨clean_logged (clean_degrade h 7) .., kept_addLog _ 0 0 _ degraded (by decide)⟩
    · exact ⟨clean_degrade h 7, degraded⟩

theorem bootB7_first (h : Clean w c s) : ∃ t, bootB7 f s = some t ∧ Clean w c t ∧ Kept [.boot, .log] s t := by
  obtain ⟨clean, k⟩ := clean_clockFound (h.dated s.boot.rec_.degraded (if s.rtc.nvalid then s.rtc.bin.setWidth 64 else 0))
  exact ⟨_, rfl, clean, kept_trans (kept_modRec _ s kept_refl (by decide)) k⟩

/-- B8 of a first start: an escalation record that was never written does not hold. -/
theorem bootB8_first (h : Clean w c s) : ∃ t, bootB8 f s = some t ∧ Clean w c t ∧ Kept [.esc] s t := by
  have none_ : escEntries s = some (0, 0, []) := by
    unfold escEntries
    rw [readRecord_unwritten (by decide) (h.page (by decide)) (h.page (by decide))]
  have zero : counting [] s = 0 := by
    unfold counting
    split <;> rfl
  refine ⟨{ s with esc := { s.esc with count24 := 0, hold := false } }, ?_, { h with hold := rfl }, kept_upd_esc kept_refl (by decide)⟩
  simp [bootB8, none_, zero, h.entries]

/-- B9 of a first start. -/
theorem bootB9_first (hf : Good f) (h : Clean w c s) : bootB9 f s = some (setPd .ring true s) := by
  unfold bootB9
  rw [h.fcOf, hf.phys]
  rfl

/-- B10 of a first start: every group has its field-side power. -/
theorem bootB10_first (hf : Good f) (h : Clean w c s) : ∃ t, bootB10 f s = some t ∧ Clean w c t ∧ Kept [.fg] s t ∧ ∀ g : GroupId, t.fg[g].fpwr = true := by
  have on : ∀ i, i < 6 → f.groups.getLsbD i = true := by
    rw [hf.groups]
    decide
  refine ⟨{ s with fg := s.fg.mapIdx fun i g => { g with fpwr := f.groups.getLsbD i } }, ?_, { h with }, kept_upd_fg kept_refl (by decide), fun g => ?_⟩
  · unfold bootB10
    dsimp only
    rw [if_pos (List.all_eq_true.2 fun g _ => on g.val g.isLt)]
  · exact (congrArg Fg.fpwr (Vector.getElem_mapIdx ..)).trans (on g.val g.isLt)

/-! ## B11 to B13 -/

/-- A lane comes up: its domain on, its PLL locked, its self-test passed. -/
def laneUp (l : Fin 3) (s : State) : State :=
  modBoot (fun b => { b with laneLock := Sys2Proof.Machine.setBit b.laneLock l.val true }) (modLane l (fun x => { x with pll := true, bistOk := true }) (setPd (lanePd l) true s))

theorem clean_laneUp (h : Clean w c s) (l : Fin 3) : Clean (Sys2Proof.Machine.setBit w (lanePd l).idx true) c (laneUp l s) := { h.powered (lanePd l) with }

theorem laneUp_lane (l k : Fin 3) (s : State) : (laneUp l s).voter.lane[k] = if l = k then { s.voter.lane[k] with pll := true, bistOk := true } else s.voter.lane[k] := by
  show (s.voter.lane.set l _)[k] = _
  by_cases hk : l = k
  · subst hk
    rw [if_pos rfl]
    exact Vector.getElem_set_self ..
  · rw [if_neg hk]
    exact Vector.getElem_set_ne _ _ (fun e => hk (Fin.ext e))

/-- The lanes come up. -/
def lanesUp (s : State) : State := laneUp 2 (laneUp 1 (laneUp 0 s))

theorem lanesUp_lane (l : Fin 3) (s : State) : (lanesUp s).voter.lane[l] = { s.voter.lane[l] with pll := true, bistOk := true } := by
  unfold lanesUp
  rw [laneUp_lane, laneUp_lane, laneUp_lane]
  match l with
  | 0 => rfl
  | 1 => rfl
  | 2 => rfl

theorem clean_lanesUp (h : Clean w c s) : Clean (Sys2Proof.Machine.setBit (Sys2Proof.Machine.setBit (Sys2Proof.Machine.setBit w 3 true) 4 true) 5 true) c (lanesUp s) :=
  clean_laneUp (clean_laneUp (clean_laneUp h 0) 1) 2

theorem kept_lanesUp (s : State) : Kept [.boot, .voter] s (lanesUp s) := by
  have up (l : Fin 3) (t : State) : Kept [.boot, .voter] t (laneUp l t) :=
    kept_modBoot _ _ (kept_modLane l _ _ (kept_setPd (lanePd l) true t kept_refl (by decide)) (by decide)) (by decide)
  exact kept_trans (kept_trans (up 0 s) (up 1 _)) (up 2 _)

theorem laneGood_first (hf : Good f) (l : Fin 3) : f.lanes.getLsbD l.val = true ∧ f.lanePll.getLsbD l.val = true ∧ laneGood f l = true := by
  unfold laneGood
  rw [hf.lanes, hf.lanePll]
  revert l
  decide

theorem foldl_unchanged {α β : Type} {g : β → α → β} (hg : ∀ b a, g b a = b) (l : List α) (b : β) : l.foldl g b = b := by
  induction l with
  | nil => rfl
  | cons a l ih => rw [List.foldl_cons, hg, ih]

theorem bootB11_first (hf : Good f) : bootB11 f s = some (lanesUp s) := by
  have pair (n : Fin 4) : f.pairs.getLsbD n.val = true := by
    rw [hf.pairs]
    revert n
    decide
  have lanes : (allLanes.all (laneGood f) && allPairs.all fun n => f.pairs.getLsbD n.val) = true :=
    Bool.and_eq_true_iff.2 ⟨List.all_eq_true.2 fun l _ => (laneGood_first hf l).2.2, List.all_eq_true.2 fun n _ => pair n⟩
  unfold bootB11
  dsimp only
  rw [if_pos lanes, foldl_unchanged fun s n => if_pos (pair n)]
  simp only [(laneGood_first hf _).1, (laneGood_first hf _).2.1, (laneGood_first hf _).2.2, if_true]
  rfl

theorem bootB12_first (hf : Good f) (h : Clean w c s) : bootB12 f s = some s := by
  have none_ (i : Nat) : State.reset.arch.sets[i]?.or State.reset.arch.sets.head? = none := rfl
  unfold bootB12
  rw [hf.cfgSet, h.arch]
  dsimp only
  rw [none_]
  rfl

theorem bootProgram_none {d : DomId} {s : State} (h : s.arch.progs[d] = none) : bootProgram s d = s := by
  unfold bootProgram
  rw [h]

theorem reset_progs (d : DomId) : State.reset.arch.progs[d] = none := by
  revert d
  decide

theorem bootB13_first (h : Clean w c s) : bootB13 f s = some s := by
  have programs : allDoms.foldl bootProgram s = s := by
    have none_ (d : DomId) : s.arch.progs[d] = none := by
      rw [h.arch]
      exact reset_progs d
    have all (l : List DomId) : l.foldl bootProgram s = s := by
      induction l with
      | nil => rfl
      | cons d l ih => rw [List.foldl_cons, bootProgram_none (none_ d), ih]
    exact all _
  have keys : s.arch.keyImages = [] := by
    rw [h.arch]
    rfl
  unfold bootB13
  rw [keys]
  exact congrArg some programs

/-! ## B3 to B13 together -/

theorem stepsLow_first (hf : Good f) (h : Clean w c s) : ∃ t, bootRun f stepsLow s = (t, none) ∧ Clean w c t ∧ Kept [.cores, .boot, .log, .esc] s t ∧ t.cores[stewCore] = .reset true false := by
  have steward := clean_stewardUp h
  obtain ⟨t7, run7, clean7, kept7⟩ := bootB7_first (f := f) steward
  obtain ⟨t8, run8, clean8, kept8⟩ := bootB8_first (f := f) clean7
  refine ⟨t8, ?_, clean8, kept_trans (kept_trans (kept_modCore stewCore _ s kept_refl (by decide)) (kept_mono kept7 (by decide))) (kept_mono kept8 (by decide)), ?_⟩
  · unfold stepsLow
    rw [bootRun_passes h (bootB3_first hf h), bootRun_passes h (bootB4_first hf h), bootRun_passes h (bootB5_first hf h), bootRun_passes h (bootB6_first hf h),
      bootRun_passes steward run7, bootRun_passes clean7 run8]
    rfl
  · rw [kept8.only .cores (by decide), kept7.only .cores (by decide)]
    exact modCore_same ..

/-- The power domains on after B11. -/
def allOn (w : BitVec 12) : BitVec 12 :=
  Sys2Proof.Machine.setBit (Sys2Proof.Machine.setBit (Sys2Proof.Machine.setBit (Sys2Proof.Machine.setBit w Pd.ring.idx true) 3 true) 4 true) 5 true

theorem stepsHigh_first (hf : Good f) (h : Clean w c s) : ∃ t, bootRun f stepsHigh s = (t, none) ∧ Clean (allOn w) c t ∧ Kept [.boot, .fg, .voter] s t ∧
    (∀ g : GroupId, t.fg[g].fpwr = true) ∧ ∀ l : Fin 3, t.voter.lane[l].pll = true ∧ t.voter.lane[l].bistOk = true := by
  have ring := h.powered .ring
  obtain ⟨t10, run10, clean10, kept10, powered⟩ := bootB10_first hf ring
  have lanes := clean_lanesUp clean10
  refine ⟨lanesUp t10, ?_, lanes, kept_trans (kept_trans (kept_setPd .ring true s kept_refl (by decide)) (kept_mono kept10 (by decide))) (kept_mono (kept_lanesUp t10) (by decide)), ?_, ?_⟩
  · unfold stepsHigh
    rw [bootRun_passes h (bootB9_first hf h), bootRun_passes ring run10, bootRun_passes clean10 (bootB11_first hf), bootRun_passes lanes (bootB12_first hf lanes),
      bootRun_passes lanes (bootB13_first lanes)]
    rfl
  · rw [(kept_lanesUp t10).only .fg (by decide)]
    exact powered
  · intro l
    rw [lanesUp_lane]
    exact ⟨rfl, rfl⟩

end Sys2Proof.Proofs
end

section
/-! SUPPORT. The first start of a new module, whole (R460 to R470). -/

namespace Sys2Proof.Proofs
open Sys2Proof.Machine Sys2Proof.Safety Sys2Proof.Laws
set_option Elab.async false

/-! ## B14 of a first start (R470) -/

theorem psRest_pages {p q : PStore} (h : psRest p = psRest q) : p.pages = q.pages := (congrArg PStore.pages h :)

theorem psRecord_pages (use : Bool → PsFor) (p : List Byte) (s : State) : (psRecord use p s).ps.pages = s.ps.pages := by
  unfold psRecord
  dsimp only
  refine (apply_ite (fun t : State => t.ps.pages) _ _ _).trans ?_
  rw [psRest_pages ((psQueue_rest _ _).trans (psQueue_rest _ _)), ite_self]

theorem countPowerUp_pages (s : State) : (countPowerUp s).ps.pages = s.ps.pages := by
  unfold countPowerUp
  split
  · exact psRecord_pages ..
  · rfl

variable {f : BootFindings} {w : BitVec 12} {s : State}

/-- The stored record is the second one. -/
theorem clean_recordSeq (h : Clean w firstCopy s) : recordSeq 1 0 s = 1 := by
  have p0 : page 0 s = firstCopy := by
    unfold page
    rw [h.pages]
    rfl
  have p1 : page 1 s = firstCopy := by
    unfold page
    rw [h.pages]
    rfl
  unfold recordSeq
  rw [readRecord_copies (by decide) (by decide) (by rw [bootPayload_length]; decide) p0 p1]

theorem stepsOver_first (h : Clean w firstCopy s) : (stepsOver s).boot = { s.boot with bootStep := 15, tmr := 0, svcOnly := false } ∧ Kept [.boot, .ps] s (stepsOver s) ∧
    readRecord 1 0 (stepsOver s) = .valid 2 (bootPayload s.boot.rec_) := by
  obtain ⟨boot, k⟩ := stepsOver_leaves s
  rw [h.serviceOnly] at boot
  have seq : recordSeq 1 0 (modBoot (fun b => { b with bootStep := 15, tmr := 0, svcOnly := serviceOnly s }) s) = 1 := by
    have same : recordSeq 1 0 (modBoot (fun b => { b with bootStep := 15, tmr := 0, svcOnly := serviceOnly s }) s) = recordSeq 1 0 s := rfl
    rw [same, clean_recordSeq h]
  refine ⟨boot, k, ?_⟩
  unfold stepsOver
  rw [readRecord_of_pages fun n => page_of_pages (countPowerUp_pages _) n, readRecord_bootStore (by rw [seq]; decide), seq]
  rfl

/-- With no image loaded a group has no members to show. -/
theorem showGroups_first (hd : s.doms = State.reset.doms) (hm : ∀ g : Fin 2, s.voter.grp[g].members = 0) : showGroups s = s := by
  have none_ (g : Fin 2) : s.doms[groupDom g].image.isSome = false := by
    rw [hd]
    revert g
    decide
  have all (l : List (Fin 2)) : l.foldl (fun s g => let m := if s.doms[groupDom g].image.isSome then startMembers s else 0
      if s.voter.grp[g].members = m then s else setMembers 2 g m s) s = s := by
    induction l with
    | nil => rfl
    | cons g l ih =>
      rw [List.foldl_cons]
      dsimp only at ih ⊢
      rw [none_, if_neg Bool.false_ne_true, if_pos (hm g), ih]
  unfold showGroups
  split
  · exact all _
  · rfl

theorem few_first (hf : Good f) : ¬(allLanes.filter fun l => !laneGood f l).length ≥ 2 := by
  have none_ : (allLanes.filter fun l => !laneGood f l) = [] := List.filter_eq_nil_iff.2 fun l _ => by
    rw [(laneGood_first hf l).2.2]
    decide
  rw [none_]
  decide

theorem bootB14_first (hf : Good f) (h : Clean w firstCopy s) : bootB14 f s = panelDrive (stepsOver s) := by
  obtain ⟨boot, k, -⟩ := stepsOver_first h
  have hold : (stepsOver s).esc.hold = false := by
    rw [k.only .esc (by decide)]
    exact h.hold
  have only : serviceOnly (stepsOver s) = false := by
    unfold serviceOnly
    rw [boot]
    show (false || s.boot.rec_.flags.getLsbD 5) = false
    rw [h.flags]
    rfl
  have shown : showGroups (stepsOver s) = stepsOver s := showGroups_first ((k.only .doms (by decide)).trans h.doms) fun g => by
    rw [k.only .voter (by decide)]
    exact h.members g
  show panelDrive (if (stepsOver s).esc.hold then enterSafe 0x06 none (stepsOver s) else if serviceOnly (stepsOver s) then enterSafe 0x07 none (stepsOver s)
    else if (allLanes.filter fun l => !laneGood f l).length ≥ 2 then _ else showGroups (stepsOver s)) = _
  rw [hold, only, if_neg Bool.false_ne_true, if_neg Bool.false_ne_true, if_neg (few_first hf), shown]

/-! ## The whole first start -/

theorem bootOn_first (hf : Good f) (h : Clean w firstCopy s) : ∃ t, bootOn f s = panelDrive (stepsOver t) ∧ Clean (allOn w) firstCopy t ∧
    t.cores[stewCore] = .reset true false ∧ (∀ g : GroupId, t.fg[g].fpwr = true) ∧ (∀ l : Fin 3, t.voter.lane[l].pll = true ∧ t.voter.lane[l].bistOk = true) := by
  obtain ⟨u, runLow, cleanLow, -, steward⟩ := stepsLow_first hf h
  obtain ⟨t, runHigh, cleanHigh, kept, powered, lanes⟩ := stepsHigh_first hf cleanLow
  refine ⟨t, ?_, cleanHigh, by rw [kept.only .cores (by decide)]; exact steward, powered, lanes⟩
  unfold bootOn
  rw [runLow]
  dsimp only
  rw [cleanLow.serviceOnly, cleanLow.hold, if_neg (by decide), runHigh]
  exact bootB14_first hf cleanHigh

/-- The power domains that B1 switches on. -/
def rootOn (w : BitVec 12) : BitVec 12 :=
  Sys2Proof.Machine.setBit (Sys2Proof.Machine.setBit (Sys2Proof.Machine.setBit (Sys2Proof.Machine.setBit w Pd.iox.idx true) Pd.mem.idx true) Pd.std.idx true) Pd.stew.idx true

/-- The boot block after B1. -/
def rootUp (b : Boot) : Boot :=
  { b with on := rootOn b.on, rootOk := true, mainLock := true, xtalOk := !b.subst }

/-- The state before B2 of a first start. -/
theorem unstarted_of_new {f : BootFindings} {rc : Bool} {key : KeyPos} {s : State} (ha : s.arch = State.reset.arch) (hp : s.ps = .reset)
    (hb : s.boot = { Boot.reset with on := 0x803, rcOk := rc }) (he : s.esc = .reset) (harb : s.arb = { Arb.reset with key := key }) (hd : s.doms = State.reset.doms)
    (hv : s.voter = .reset) : Unstarted (bootB1 (bootB0 f s)) ∧ (bootB1 (bootB0 f s)).boot.on = 0xE47 := by
  obtain ⟨up, -, -, k0⟩ := bootB0_leaves f s
  have k : Kept [.boot, .power, .log] s (bootB1 (bootB0 f s)) := kept_bootB1 _ k0 (by decide)
  have boot : ∃ b, (bootB1 (bootB0 f s)).boot = b ∧ b.cause = 1 ∧ b.step = 0 ∧ (b.fc1 = 0 ∧ b.fc2 = 0) ∧ b.svcOnly = false ∧ b.on = 0xE47 := by
    refine ⟨rootUp (bootB0 f s).boot, rfl, ?_⟩
    rw [up, hb]
    have on : rootOn (bootUp { Boot.reset with on := 0x803 }).on = 0xE47 := by decide
    exact ⟨rfl, rfl, ⟨rfl, rfl⟩, rfl, on⟩
  obtain ⟨b, hb1, cause, step, fc, only, on⟩ := boot
  refine ⟨?_, by rw [hb1]; exact on⟩
  constructor
  · exact (k.only .arch (by decide)).trans ha
  · exact (k.only .doms (by decide)).trans hd
  · exact (congrArg Arb.oper ((k.only .arb (by decide)).trans harb) :)
  · exact (k.only .voter (by decide)).trans hv
  · exact (k.only .esc (by decide)).trans he
  · exact (congrArg PStore.pages ((k.only .ps (by decide)).trans hp) :)
  · rw [hb1]
    exact cause
  · rw [hb1]
    exact step
  · rw [hb1]
    exact fc
  · rw [hb1]
    exact only

/-- Settles O55: each step finds nothing stored and passes, so the start runs through to B14. -/
theorem aFirstStartReachesStop : Obligations.AFirstStartReachesStop := by
  intro f s h1 h2 h3 h4 h5 h6 h7 h8 h9 h10 h11 h12 arch ps boot fed esc arb doms voter
  have hf : Good f := ⟨h1, h2, h3, h4, h5, h6, h7, h8, h9, h10, h11, h12⟩
  obtain ⟨before, on⟩ := unstarted_of_new (f := f) arch ps boot esc arb doms voter
  obtain ⟨u, run2, clean, -⟩ := bootB2_first hf before
  obtain ⟨t, run, last, steward, powered, lanes⟩ := bootOn_first hf clean
  obtain ⟨ended, k, stored⟩ := stepsOver_first last
  have shown := panelDrive_keeps (stepsOver t)
  have all : Kept [.boot, .ps, .power] t (panelDrive (stepsOver t)) := kept_trans (kept_mono k (by decide)) (kept_mono shown (by decide))
  have ended' : (panelDrive (stepsOver t)).boot = { t.boot with bootStep := 15, tmr := 0, svcOnly := false } := (shown.only .boot (by decide)).trans ended
  have domains : t.boot.on = 0xF7F := by
    rw [last.on, on]
    decide
  have hrun : exec (.moduleStart f) s = .next (panelDrive (stepsOver t)) := by
    have b : s.boot.up = false ∧ s.boot.halted = false ∧ s.boot.fc1 ≠ 3 ∧ s.boot.fc2 ≠ 3 := by
      rw [boot]
      have zero : (0 : BitVec 2) ≠ 3 := by decide
      exact ⟨rfl, rfl, zero, zero⟩
    obtain ⟨up, halted, fc1, fc2⟩ := b
    refine (moduleStart_run up halted fed).trans (congrArg Host.Outcome.next ?_)
    rw [startedUp_locked fc1 h1, if_neg (by rw [bootB1_fc2]; exact fc2), run2]
    exact run
  refine gives_start hrun ((all.only .arch (by decide)).trans (last.arch.trans arch.symm)) ⟨?_, ?_, ?_, ?_, ?_, ?_, ?_, ?_, ?_, ?_, ?_⟩
  · rw [ended']
  · rw [ended']
    exact domains
  · rw [all.only .arb (by decide)]
    exact last.oper
  · rw [ended']
  · rw [ended']
    exact last.starts
  · rw [ended']
    exact last.failed
  · rw [all.only .cores (by decide)]
    exact steward
  · rw [all.only .fg (by decide)]
    exact powered
  · intro l
    refine ⟨?_, ?_⟩
    · unfold pdOn
      rw [ended']
      show t.boot.on.getLsbD _ = true
      rw [domains]
      revert l
      decide
    · rw [all.only .voter (by decide)]
      exact lanes l
  · intro d
    rw [all.only .doms (by decide)]
    exact last.image d
  · rw [readRecord_of_pages fun n => page_congr (shown.only .ps (by decide)) n, stored, ended']

end Sys2Proof.Proofs
end

section
/-! SUPPORT. A device number beyond the store's five (R328, R330). -/

namespace Sys2Proof.Proofs
open Sys2Proof.Machine Sys2Proof.Safety Sys2Proof.Laws
set_option Elab.async false

/-! ## A device number beyond the store's five (R330) -/

/-- The memory domain on, and a number in FAILDEV that names no device. -/
def unknownDevice : State :=
  { State.reset with memRegs := { State.reset.memRegs with faildev := 6 }, boot := { State.reset.boot with on := 0xFFF } }

/-- No code word holds an erased symbol then, so none is counted. -/
theorem extScrubLine_unknownDevice : exec .extScrubLine unknownDevice = .next { unknownDevice with memRegs := { unknownDevice.memRegs with xscrub := 1 } } := rfl

/-- Refutes O52: FAILDEV has three bits and the store five devices (R328); at 6 the scrub of a line erases nothing and leaves ERAS at 0, where the clause counts one. -/
theorem not_memoriesAreScrubbedAndRegistersWritten : ¬ Obligations.MemoriesAreScrubbedAndRegistersWritten := by
  intro h
  obtain ⟨-, -, ext, -⟩ := h unknownDevice
  have row := ext rfl (by decide)
  rw [extScrubLine_unknownDevice] at row
  have eras := congrArg (fun s : State => s.memRegs.eras) (Host.Outcome.next.inj row)
  exact absurd eras (by decide)

end Sys2Proof.Proofs
end

section
/-! SUPPORT. Field groups (R334 to R351). -/

namespace Sys2Proof.Proofs
open Sys2Proof.Machine Sys2Proof.Safety Sys2Proof.Laws
set_option Elab.async false

/-! ## A field group's state -/

@[simp] theorem modFg_same (g : GroupId) (f : Fg → Fg) (s : State) : (modFg g f s).fg[g] = f s.fg[g] := Vector.getElem_set_self ..

theorem modFg_other {g h : GroupId} (hg : h ≠ g) (f : Fg → Fg) (s : State) : (modFg g f s).fg[h] = s.fg[h] :=
  Vector.getElem_set_ne g.isLt h.isLt (fun e => hg (Fin.ext e.symm))

/-- Two updates of one group are one. -/
theorem modFg_twice (g : GroupId) (f h : Fg → Fg) (s : State) : modFg g f (modFg g h s) = modFg g (fun x => f (h x)) s := by
  show ({ s with fg := (s.fg.set g (h s.fg[g])).set g (f (s.fg.set g (h s.fg[g]))[g]) } : State) = _
  rw [Vector.set_set, show (s.fg.set g (h s.fg[g]))[g] = h s.fg[g] from Vector.getElem_set_self ..]
  rfl

/-- Driving the pins after an update of the group is one update. -/
theorem drivePins_modFg (g : GroupId) (f : Fg → Fg) (s : State) : drivePins g (modFg g f s) = modFg g (fun x => setPins (ringTime s) (f x)) s := modFg_twice ..

/-! ## Edges and pins -/

theorem rawChange_keeps (lvl : Bool) (ts : Long) (c : FgCh) : rawChange lvl ts c =
    { c with raw := (rawChange lvl ts c).raw, deb := (rawChange lvl ts c).deb, run := (rawChange lvl ts c).run, ecnt := (rawChange lvl ts c).ecnt
             tsR := (rawChange lvl ts c).tsR, tsF := (rawChange lvl ts c).tsF } := by
  unfold rawChange acceptEdge
  dsimp only
  split
  · rfl
  · split <;> rfl

/-- What driving the pins leaves of a channel. -/
theorem setPins_ch (ts : Long) (x : Fg) (c : Fin 8) :
    (setPins ts x).ch[c].pin = (cfgOut x.ch[c].eff && drives x x.ch[c]) ∧ (setPins ts x).ch[c].ovl = x.ch[c].ovl ∧ (setPins ts x).ch[c].cmd = x.ch[c].cmd ∧
      (setPins ts x).ch[c].lastChg = x.ch[c].lastChg := by
  have e : (setPins ts x).ch[c] = if cfgOut x.ch[c].eff then rawChange (drives x x.ch[c]) ts { x.ch[c] with pin := drives x x.ch[c] } else { x.ch[c] with pin := false } :=
    Vector.getElem_map ..
  rw [e]
  split
  · next out =>
    rw [out, Bool.true_and, rawChange_keeps]
    exact ⟨rfl, rfl, rfl, rfl⟩
  · next inp =>
    rw [Bool.eq_false_iff.2 inp, Bool.false_and]
    exact ⟨rfl, rfl, rfl, rfl⟩

theorem setPins_pin_low {ts : Long} {x : Fg} {c : Fin 8} (h : cfgOut x.ch[c].eff = true → drives x x.ch[c] = false) : (setPins ts x).ch[c].pin = false := by
  rw [(setPins_ch ts x c).1]
  cases out : cfgOut x.ch[c].eff with
  | false => rfl
  | true => rw [h out, Bool.true_and]

theorem drives_ovl {x : Fg} {c : FgCh} (h : c.ovl = true) : drives x c = false := by
  unfold drives
  rw [h]
  simp

theorem drives_noPermit {x : Fg} {c : FgCh} (hs : cfgSafety c.eff = true) (h : x.pres = false) : drives x c = false := by
  unfold drives
  rw [hs, h]
  simp

/-! ## Inputs (R342, R343) -/

theorem fieldInputChange_row {g : GroupId} {c : Fin 8} {lvl : Bool} {s : State} (hr : fgRuns g s = true) (ho : cfgOut s.fg[g].ch[c].eff = false) (hw : s.fg[g].ch[c].raw = !lvl) :
    exec (.fieldInputChange g c lvl) s = .next (modCh g c (fun y => if cfgDeb y.eff = 0 then acceptEdge lvl (ringTime s) { y with raw := lvl }
      else { y with raw := lvl, run := if lvl = y.deb then none else some (lvl, ringTime s) }) s) := by
  have new : ¬s.fg[g].ch[c].raw = lvl := by
    rw [hw]
    cases lvl <;> decide
  have run : (fgRuns g s && !cfgOut s.fg[g].ch[c].eff) = true := by rw [hr, ho]; rfl
  refine congrArg Host.Outcome.next ((if_pos run).trans ?_)
  show modCh g c (rawChange lvl (ringTime s)) s = _
  unfold modCh rawChange
  show ({ s with fg := s.fg.set g { s.fg[g] with ch := s.fg[g].ch.set c (if s.fg[g].ch[c].raw = lvl then s.fg[g].ch[c] else _) } } : State) = _
  rw [if_neg new]
  rfl

theorem debounceAccept_row {g : GroupId} {c : Fin 8} {lvl : Bool} {ts : Long} {s : State} (hr : fgRuns g s = true) (hc : s.fg[g].ch[c].run = some (lvl, ts))
    (ht : cfgDeb s.fg[g].ch[c].eff * 1250 ≤ (ringTime s - ts).toNat) :
    exec (.debounceAccept g c) s = .next (modCh g c (acceptEdge lvl ts) s) := by
  refine congrArg Host.Outcome.next ((if_neg (by rw [hr]; decide)).trans ?_)
  unfold modCh
  show ({ s with fg := s.fg.set g { s.fg[g] with ch := s.fg[g].ch.set c (match s.fg[g].ch[c].run with | some (lvl, ts) => _ | none => _) } } : State) = _
  rw [hc]
  dsimp only
  rw [if_pos (show cfgDeb s.fg[g].ch[c].eff * tickUs ≤ (ringTime s - ts).toNat from ht)]
  rfl

/-! ## Scheduled entries (R347) -/

theorem scheduledEntry_run {g : GroupId} {e : Sched} {es : List Sched} {s : State} (h : s.fg[g].sched = e :: es) (ht : e.at_.toNat ≤ s.cyc.tb.toNat) :
    exec (.scheduledEntry g) s = .next (modFg g (fun x => schedExec e (ringOfs s) { x with sched := es }) s) := by
  show execScheduledEntry g s = _
  unfold execScheduledEntry
  rw [h]
  dsimp only
  rw [if_neg (by omega)]

/-- The entry is executed, is dropped as too close, or does not change the level. -/
theorem schedExec_ignored {e : Sched} {o : Long} {x : Fg} (h : (!cfgOut x.ch[e.ch].eff || x.ch[e.ch].cmd = e.level || (e.level && cfgSafety x.ch[e.ch].eff && !x.pres)) = true) :
    schedExec e o x = x := if_pos h

theorem schedExec_close {e : Sched} {o : Long} {x : Fg} (h : ¬(!cfgOut x.ch[e.ch].eff || x.ch[e.ch].cmd = e.level || (e.level && cfgSafety x.ch[e.ch].eff && !x.pres)) = true)
    (hc : (x.ch[e.ch].lastChg.any fun t => (e.at_ - t).toNat < schGap) = true) : schedExec e o x = { x with schClose := inc x.schClose } := (if_neg h).trans (if_pos hc)

theorem schedExec_done {e : Sched} {o : Long} {x : Fg} (h : ¬(!cfgOut x.ch[e.ch].eff || x.ch[e.ch].cmd = e.level || (e.level && cfgSafety x.ch[e.ch].eff && !x.pres)) = true)
    (hc : ¬(x.ch[e.ch].lastChg.any fun t => (e.at_ - t).toNat < schGap) = true) :
    schedExec e o x = setPins (e.at_ + o) { x with ch := x.ch.set e.ch { x.ch[e.ch] with cmd := e.level, lastChg := some e.at_ } } := (if_neg h).trans (if_neg hc)

theorem schedExec_sched (e : Sched) (o : Long) (x : Fg) : (schedExec e o x).sched = x.sched := by
  unfold schedExec
  dsimp only
  split
  · rfl
  · split <;> rfl

theorem scheduledEntry_row {g : GroupId} {e : Sched} {es : List Sched} {s : State} (h : s.fg[g].sched = e :: es) (ht : e.at_.toNat ≤ s.cyc.tb.toNat) :
    Gives (.scheduledEntry g) s [.fg] fun t => (∀ h : GroupId, h ≠ g → t.fg[h] = s.fg[h]) ∧ t.fg[g].sched = es ∧
      let x := s.fg[g]
      let y := x.ch[e.ch]
      (cfgOut y.eff = true → y.cmd = !e.level → (e.level = false ∨ cfgSafety y.eff = false ∨ x.pres = true) →
        (y.lastChg.all (fun t0 => 3125 ≤ (e.at_ - t0).toNat) = true → t.fg[g].ch[e.ch].cmd = e.level ∧ t.fg[g].ch[e.ch].lastChg = some e.at_ ∧ t.fg[g].schClose = x.schClose) ∧
        (y.lastChg.any (fun t0 => decide ((e.at_ - t0).toNat < 3125)) = true → t.fg[g].ch = x.ch ∧ t.fg[g].schClose = inc x.schClose)) ∧
      (cfgOut y.eff = true → y.cmd = false → e.level = true → cfgSafety y.eff = true → x.pres = false → t.fg[g].ch = x.ch) := by
  refine gives_of_leaves (leaves_scheduledEntry g s) (scheduledEntry_run h ht) ⟨fun k hk => modFg_other hk _ s, ?_, ?_, ?_⟩
  · rw [modFg_same]
    exact schedExec_sched ..
  · intro out differs may
    have acts : ¬(!cfgOut s.fg[g].ch[e.ch].eff || decide (s.fg[g].ch[e.ch].cmd = e.level) || (e.level && cfgSafety s.fg[g].ch[e.ch].eff && !s.fg[g].pres)) = true := by
      rw [out, differs]
      rcases may with h | h | h <;> rw [h] <;> cases e.level <;> simp
    refine ⟨fun apart => ?_, fun close => ?_⟩
    · have far : ¬(s.fg[g].ch[e.ch].lastChg.any fun t => decide ((e.at_ - t).toNat < schGap)) = true := by
        generalize s.fg[g].ch[e.ch].lastChg = last at apart
        cases last with
        | none => exact Bool.false_ne_true
        | some t0 =>
          have apart : 3125 ≤ (e.at_ - t0).toNat := of_decide_eq_true apart
          exact fun close => absurd (of_decide_eq_true close : (e.at_ - t0).toNat < 3125) (by omega)
      rw [modFg_same, schedExec_done (x := { s.fg[g] with sched := es }) acts far]
      obtain ⟨-, -, cmd, last⟩ := setPins_ch (e.at_ + ringOfs s) { s.fg[g] with sched := es, ch := s.fg[g].ch.set e.ch { s.fg[g].ch[e.ch] with cmd := e.level, lastChg := some e.at_ } } e.ch
      have ch : (s.fg[g].ch.set e.ch { s.fg[g].ch[e.ch] with cmd := e.level, lastChg := some e.at_ })[e.ch] = { s.fg[g].ch[e.ch] with cmd := e.level, lastChg := some e.at_ } :=
        Vector.getElem_set_self ..
      exact ⟨cmd.trans (congrArg FgCh.cmd ch), last.trans (congrArg FgCh.lastChg ch), rfl⟩
    · rw [modFg_same, schedExec_close (x := { s.fg[g] with sched := es }) acts close]
      exact ⟨rfl, rfl⟩
  · intro out low level safety absent
    rw [modFg_same, schedExec_ignored (x := { s.fg[g] with sched := es }) (by
      show (_ || _ || (e.level && cfgSafety s.fg[g].ch[e.ch].eff && !s.fg[g].pres)) = true
      rw [level, safety, absent]
      simp)]

/-! ## Overload and undervoltage (R349, R350) -/

theorem outputOverload_row {g : GroupId} {c : Fin 8} {s : State} (hp : s.fg[g].fpwr = true) (ho : cfgOut s.fg[g].ch[c].eff = true) (hv : s.fg[g].ch[c].ovl = false) :
    exec (.outputOverload g c) s = .next (modFg g (fun x => setPins (ringTime s) { x with ovlCnt := inc x.ovlCnt, ch := x.ch.set c { x.ch[c] with ovl := true } }) s) ∧
    (setPins (ringTime s) { s.fg[g] with ovlCnt := inc s.fg[g].ovlCnt, ch := s.fg[g].ch.set c { s.fg[g].ch[c] with ovl := true } }).ch[c].pin = false := by
  have acts : (s.fg[g].fpwr && cfgOut s.fg[g].ch[c].eff && !s.fg[g].ch[c].ovl) = true := by
    rw [hp, ho, hv]
    rfl
  refine ⟨congrArg Host.Outcome.next ((if_pos acts).trans ?_), setPins_pin_low fun _ => drives_ovl ?_⟩
  · unfold modCh
    rw [modFg_twice, drivePins_modFg]
  · exact congrArg FgCh.ovl (Vector.getElem_set_self ..)

/-- The channel as an overload of its group leaves it. -/
def overloaded (y : FgCh) : FgCh := if cfgOut y.eff && y.pin then { y with ovl := true } else y

/-- The outputs that drive high. -/
def driving (x : Fg) : List (Fin 8) := allCh.filter fun c => cfgOut x.ch[c].eff && x.ch[c].pin

theorem mem_allCh : ∀ c : Fin 8, c ∈ allCh := by decide

theorem groupOverload_row {g : GroupId} {s : State} (h : ∃ c : Fin 8, cfgOut s.fg[g].ch[c].eff = true ∧ s.fg[g].ch[c].pin = true) :
    Gives (.groupOverload g) s [.fg] fun t => t.fg[g].govl = true ∧ (∀ h : GroupId, h ≠ g → t.fg[h] = s.fg[h]) ∧
      ∀ c : Fin 8, cfgOut s.fg[g].ch[c].eff = true → s.fg[g].ch[c].pin = true → t.fg[g].ch[c].ovl = true ∧ t.fg[g].ch[c].pin = false := by
  obtain ⟨c0, out0, pin0⟩ := h
  have some_ : ¬(driving s.fg[g]).isEmpty = true := fun none_ => by
    have mem : c0 ∈ driving s.fg[g] := List.mem_filter.2 ⟨mem_allCh c0, Bool.and_eq_true_iff.2 ⟨out0, pin0⟩⟩
    rw [List.isEmpty_iff.1 none_] at mem
    exact absurd mem List.not_mem_nil
  have hrun : exec (.groupOverload g) s = .next (modFg g (fun x => setPins (ringTime s)
      { x with govl := true, ovlCnt := incBy x.ovlCnt (driving s.fg[g]).length, ch := x.ch.map overloaded }) s) :=
    congrArg Host.Outcome.next ((if_neg some_).trans (drivePins_modFg ..))
  refine gives_of_leaves (leaves_groupOverload g s) hrun ⟨?_, fun k hk => modFg_other hk _ s, fun c out pin => ?_⟩
  · rw [modFg_same]
    rfl
  · have ch : (s.fg[g].ch.map overloaded)[c] = { s.fg[g].ch[c] with ovl := true } :=
      (Vector.getElem_map ..).trans (if_pos (Bool.and_eq_true_iff.2 ⟨out, pin⟩))
    rw [modFg_same]
    exact ⟨(setPins_ch _ _ c).2.1.trans (congrArg FgCh.ovl ch), setPins_pin_low fun _ => drives_ovl (congrArg FgCh.ovl ch)⟩

theorem lpUndervoltage_row {g : GroupId} {s : State} (hp : s.fg[g].fpwr = true) (low : Bool) (v : BitVec 16) :
    exec (.lpUndervoltage g low v) s = .next (modFg g (fun x => setPins (ringTime s) { x with lpuv := low, lpv := v }) s) :=
  congrArg Host.Outcome.next ((if_pos hp).trans (drivePins_modFg ..))

/-! ## The permit (R351) -/

theorem permitToggle_unwanted {g : GroupId} {s : State} (h : permitWanted g s = false) :
    exec (.permitToggle g) s = .next (modFg g (fun x => { x with permitOn := false }) s) :=
  congrArg Host.Outcome.next (if_pos (by rw [h]; rfl))

theorem permitToggle_wanted {g : GroupId} {s : State} (h : permitWanted g s = true) (ht : (s.fg[g].toggleAt.all fun t0 => 625000 ≤ since t0 s) = true) :
    exec (.permitToggle g) s = .next (modFg g (fun x => { x with permitOn := true, permitLevel := !x.permitLevel, toggleAt := some s.cyc.tb }) s) :=
  congrArg Host.Outcome.next ((if_neg (by rw [h]; decide)).trans (if_pos ht))

/-- The group after an edge of its permit. -/
def permitEdged (s : State) (x : Fg) : Fg :=
  if x.edgeAt.any fun t0 => 562500 ≤ since t0 s && since t0 s ≤ 687500 then { x with edgeAt := some s.cyc.tb, edges := min 4 (x.edges + 1), pres := x.pres || decide (3 ≤ x.edges) }
  else { x with edgeAt := some s.cyc.tb, pres := false, edges := 0 }

theorem permitEdge_row {g : GroupId} {s : State} (h : fgRuns g s = true) : exec (.permitEdge g) s = .next (modFg g (fun x => setPins (ringTime s) (permitEdged s x)) s) := by
  refine congrArg Host.Outcome.next ((if_neg (by rw [h]; decide)).trans ?_)
  dsimp only
  cases ok : (s.fg[g].edgeAt.any fun t0 => decide (562500 ≤ since t0 s) && decide (since t0 s ≤ 687500)) with
  | true =>
    rw [if_pos rfl, drivePins_modFg, modFg_twice]
    show ({ s with fg := s.fg.set g (setPins (ringTime s) _) } : State) = { s with fg := s.fg.set g (setPins (ringTime s) (permitEdged s s.fg[g])) }
    rw [permitEdged, if_pos ok]
  | false =>
    rw [if_neg Bool.false_ne_true]
    unfold permitLost
    rw [drivePins_modFg, modFg_twice]
    show ({ s with fg := s.fg.set g (setPins (ringTime s) _) } : State) = { s with fg := s.fg.set g (setPins (ringTime s) (permitEdged s s.fg[g])) }
    rw [permitEdged, if_neg (by rw [ok]; exact Bool.false_ne_true)]

theorem permitDrop_row {g : GroupId} {s : State} (h : (s.fg[g].edgeAt.all fun t0 => 1500000 ≤ since t0 s) = true) :
    Gives (.permitDrop g) s [.fg] fun t => t.fg[g].pres = false ∧ t.fg[g].edges = 0 ∧ t.fg[g].edgeAt = none ∧ (∀ h : GroupId, h ≠ g → t.fg[h] = s.fg[h]) ∧
      ∀ c : Fin 8, cfgSafety s.fg[g].ch[c].eff = true → t.fg[g].ch[c].pin = false := by
  have hrun : exec (.permitDrop g) s = .next (modFg g (fun x => { setPins (ringTime s) { x with pres := false, edges := 0 } with edgeAt := none }) s) := by
    refine congrArg Host.Outcome.next ((if_pos h).trans ?_)
    unfold permitLost
    rw [drivePins_modFg, modFg_twice]
  refine gives_of_leaves (leaves_permitDrop g s) hrun ⟨?_, ?_, ?_, fun k hk => modFg_other hk _ s, fun c safety => ?_⟩
  · rw [modFg_same]
    rfl
  · rw [modFg_same]
    rfl
  · rw [modFg_same]
  · rw [modFg_same]
    exact setPins_pin_low (x := { s.fg[g] with pres := false, edges := 0 }) fun _ => drives_noPermit safety rfl

/-! ## Field-side power (R335) -/

theorem fieldPowerLoss_row (g : GroupId) (s : State) : Gives (.fieldPowerLoss g) s [.fg] fun t => t.fg[g].fpwr = false ∧ t.fg[g].pres = false ∧ t.fg[g].sched = [] ∧
    t.fg[g].pcfg = s.fg[g].pcfg ∧ (∀ h : GroupId, h ≠ g → t.fg[h] = s.fg[h]) ∧
      ∀ c : Fin 8, t.fg[g].ch[c].pin = false ∧ t.fg[g].ch[c].eff = 0 ∧ t.fg[g].ch[c].cfg = s.fg[g].ch[c].cfg ∧ t.fg[g].ch[c].ecnt = s.fg[g].ch[c].ecnt := by
  refine gives_of_leaves (leaves_fieldPowerLoss g s) rfl ⟨?_, ?_, ?_, ?_, fun k hk => modFg_other hk _ s, fun c => ?_⟩
  all_goals (unfold fgPowerLoss; rw [modFg_same])
  rw [show (s.fg[g].ch.map _)[c] = _ from Vector.getElem_map ..]
  exact ⟨rfl, rfl, rfl, rfl⟩

theorem fieldPowerReturn_row {g : GroupId} {s : State} (hi : pdOn .iox s = true) (hp : s.fg[g].fpwr = false) :
    exec (.fieldPowerReturn g) s = .next (modFg g (fun x => { x with fpwr := true }) s) :=
  congrArg Host.Outcome.next (if_pos (by rw [hi, hp]; rfl))

/-! ## Configuration writes (R338, R339) -/

theorem guarded {m : Master} (h : m ≠ .outputGuard) (b : Bool) : (m != .outputGuard && b) = b := by
  rw [bne_iff_ne.2 h, Bool.true_and]

theorem fgChWrite_guarded {a : Access} {g : GroupId} {c : Fin 8} {v : Word} {s : State} (hi : pdOn .iox s = true) (hm : a.master ≠ .outputGuard)
    (hs : cfgSafety s.fg[g].ch[c].cfg = true ∨ cfgSafety v = true) : exec (.fgChWrite a g c v) s = .next (fgErrSet 2 (answer .ok 0 s)) := by
  refine congrArg Host.Outcome.next ((regAt_on a.master _ hi).trans (if_pos ?_))
  rw [guarded hm]
  exact Bool.or_eq_true_iff.2 hs

theorem fgChWrite_checked {a : Access} {g : GroupId} {c : Fin 8} {v : Word} {s : State} (hi : pdOn .iox s = true)
    (hm : a.master = .outputGuard ∨ (cfgSafety s.fg[g].ch[c].cfg = false ∧ cfgSafety v = false)) :
    exec (.fgChWrite a g c v) s = .next (if cfgLocked s then fgErrSet 1 (answer .ok 0 s) else if chCfgBad s.fg[g].pcfg v then fgErrSet 0 (answer .ok 0 s)
      else modCh g c (fun y => { y with cfg := v &&& 0xFC00FFFF }) (answer .ok 0 s)) := by
  refine congrArg Host.Outcome.next ((regAt_on a.master _ hi).trans (if_neg ?_))
  rcases hm with hm | ⟨old, new⟩
  · show ¬(a.master != .outputGuard && _) = true
    rw [hm]
    exact Bool.false_ne_true
  · show ¬(_ && (cfgSafety s.fg[g].ch[c].cfg || cfgSafety v)) = true
    rw [old, new, Bool.or_false, Bool.and_false]
    exact Bool.false_ne_true

theorem fgPcfgWrite_guarded {a : Access} {g : GroupId} {v : Word} {s : State} (hi : pdOn .iox s = true) (hm : a.master ≠ .outputGuard) :
    exec (.fgPcfgWrite a g v) s = .next (fgErrSet 2 (answer .ok 0 s)) :=
  congrArg Host.Outcome.next ((regAt_on a.master _ hi).trans (if_pos (bne_iff_ne.2 hm)))

theorem fgPcfgWrite_checked {a : Access} {g : GroupId} {v : Word} {s : State} (hi : pdOn .iox s = true) (hm : a.master = .outputGuard) :
    exec (.fgPcfgWrite a g v) s = .next (if cfgLocked s then fgErrSet 1 (answer .ok 0 s) else modFg g (fun x => { x with pcfg := v &&& 3 }) (answer .ok 0 s)) :=
  congrArg Host.Outcome.next ((regAt_on a.master _ hi).trans (if_neg (by rw [hm]; decide)))

/-- Settles O51: each event updates its own group alone, and driving the pins comes after that update. -/
theorem fieldGroupsFollowTheirEvents : Obligations.FieldGroupsFollowTheirEvents := by
  intro g s
  refine ⟨fun c lvl hr ho hw => fieldInputChange_row hr ho hw, fun c lvl ts hr hc ht => debounceAccept_row hr hc ht, fun e es h ht => scheduledEntry_row h ht,
    fun c hp ho hv => outputOverload_row hp ho hv, fun h => groupOverload_row h, fun low v hp => lpUndervoltage_row hp low v, fun h => permitToggle_unwanted h,
    fun h ht => permitToggle_wanted h ht, fun h => permitEdge_row h, fun h => permitDrop_row h, fieldPowerLoss_row g s, fun hi hp => fieldPowerReturn_row hi hp,
    fun a c v hi => ⟨fun hm hs => fgChWrite_guarded hi hm hs, fun hm => fgChWrite_checked hi hm, fun hm => fgPcfgWrite_guarded hi hm, fun hm => fgPcfgWrite_checked hi hm⟩⟩

end Sys2Proof.Proofs
end

section
/-! SUPPORT. What the ladder, SAFE, a stopped pair and a halted lane leave of cores, runs and sessions (R103, R411, R416). -/

namespace Sys2Proof.Proofs
open Sys2Proof.Machine Sys2Proof.Safety Sys2Proof.Laws
set_option Elab.async false

/-! ## What the ladder and SAFE leave of cores, runs and sessions (R103, R416) -/

/-- Stopped cores stay stopped; which domains run and how far sessions are stays as it was. -/
structure Halted (s t : State) : Prop where
  stopped : ∀ c : CoreId, s.cores[c].stopped = true → t.cores[c].stopped = true
  run : ∀ d : DomId, t.doms[d].run = s.doms[d].run
  sess : ∀ r : CmdRef, (sessOf r t).st = (sessOf r s).st

theorem Halted.refl (s : State) : Halted s s := ⟨fun _ => id, fun _ => rfl, fun _ => rfl⟩

theorem Halted.trans {s t u : State} (h : Halted s t) (k : Halted t u) : Halted s u where
  stopped c := k.stopped c ∘ h.stopped c
  run d := (k.run d).trans (h.run d)
  sess r := (k.sess r).trans (h.sess r)

theorem halted_foldl {α : Type} {f : State → α → State} (h : ∀ s x, Halted s (f s x)) (xs : List α) (s : State) : Halted s (xs.foldl f s) := by
  induction xs generalizing s with
  | nil => exact .refl s
  | cons x xs ih => exact (h s x).trans (ih _)

theorem halted_of_eq {s t : State} (hc : t.cores = s.cores) (hd : t.doms = s.doms) (hm : t.mbx = s.mbx) : Halted s t where
  stopped c h := by rw [hc]; exact h
  run d := by rw [hd]
  sess r := by rw [sessOf_congr hm]

theorem halted_of_kept {ps : List Part} {s t : State} (h : Kept ps s t) (hc : .cores ∉ ps) (hd : .doms ∉ ps) (hm : .mbx ∉ ps) : Halted s t :=
  halted_of_eq (h.only .cores hc) (h.only .doms hd) (h.only .mbx hm)

theorem halted_modDom (d : DomId) (f : Dom → Dom) (s : State) (hf : (f s.doms[d]).run = s.doms[d].run) : Halted s (modDom d f s) := by
  refine ⟨fun _ => id, fun w => ?_, fun _ => rfl⟩
  by_cases hw : w = d
  · rw [hw, modDom_same, hf]
  · rw [modDom_other _ _ _ _ hw]

theorem halted_modCore (c : CoreId) (f : Core → Core) (s : State) (hf : s.cores[c].stopped = true → (f s.cores[c]).stopped = true) : Halted s (modCore c f s) := by
  refine ⟨fun k h => ?_, fun _ => rfl, fun _ => rfl⟩
  by_cases hk : k = c
  · subst hk
    rw [modCore_same]
    exact hf h
  · rw [modCore_other hk]
    exact h

theorem halted_stopCore (c : CoreId) (s : State) : Halted s (stopCore c s) := halted_modCore c _ s fun _ => rfl

theorem stopCore_stopped (c : CoreId) (s : State) : (stopCore c s).cores[c].stopped = true := by
  unfold stopCore
  rw [modCore_same]

theorem halted_transition (src inst dim frm to_ : Nat) (s : State) : Halted s (transition src inst dim frm to_ s) :=
  halted_of_kept (kept_transition (ps0 := [.arb]) _ _ _ _ _ s kept_refl (by decide)) (by decide) (by decide) (by decide)

theorem halted_setChg (d : DomId) (c : ChgDim) (s : State) : Halted s (setChg d c s) := by
  unfold setChg
  exact (halted_transition _ _ _ _ _ _).trans (halted_modDom _ _ _ rfl)

theorem halted_dropLane (l : Fin 3) (g : Fin 2) (s : State) : Halted s (dropLane l g s) := (halted_stopCore _ _).trans (halted_modDom _ _ _ rfl)

theorem finishCode_st (r q : CmdRef) (st : BitVec 16) (detail : Nat) (data : List Byte) (s : State) : (sessOf q (finishCode r st detail data s)).st = (sessOf q s).st := by
  cases h : slotOf r s with
  | none =>
    unfold finishCode
    rw [h]
    rfl
  | some x =>
    rw [finishCode_sess h]
    dsimp only
    by_cases hq : q.sess = r.sess
    · rw [sessOf_modSess_same hq]
      rfl
    · rw [sessOf_modSess_other hq]

theorem halted_finishRefused (r : CmdRef) (detail : Nat) (name : String) (s : State) : Halted s (finishRefused r detail name s) := by
  have kept := (kept_finishRefused (ps0 := [.sync, .mbx]) r detail name s kept_refl (by decide)).only
  refine ⟨fun c h => ?_, fun d => ?_, fun q => finishCode_st r q _ _ _ s⟩
  · rw [kept .cores (by decide)]
    exact h
  · rw [kept .doms (by decide)]

theorem halted_finishRefusedOpt (r : Option CmdRef) (name : String) (s : State) : Halted s (finishRefusedOpt r name s) := by
  cases r with
  | none => exact .refl s
  | some c => exact halted_finishRefused c 0 name s

theorem halted_changeStop (name : String) (d : DomId) (s : State) : Halted s (changeStop name d s) := by
  unfold changeStop
  dsimp only
  split
  · exact .refl s
  · exact (halted_modDom d _ s rfl).trans ((halted_finishRefusedOpt _ _ _).trans (halted_setChg _ _ _))
  · exact (halted_modDom d _ s rfl).trans ((halted_finishRefusedOpt _ _ _).trans (halted_setChg _ _ _))

theorem halted_changeLeave (d : DomId) (s : State) : Halted s (changeLeave d s) := halted_changeStop _ d s

theorem halted_setMembers (src : Nat) (g : Fin 2) (m : BitVec 3) (s : State) : Halted s (setMembers src g m s) :=
  halted_of_kept (kept_setMembers (ps0 := [.voter, .arb]) src g m s kept_refl (by decide)) (by decide) (by decide) (by decide)

theorem halted_modGroup (g : Fin 2) (f : Group → Group) (s : State) : Halted s (modGroup g f s) := halted_of_eq rfl rfl rfl

theorem halted_leaveGroup (l : Fin 3) (s : State) (g : Fin 2) : Halted s (leaveGroup l s g) := by
  rcases leaveGroup_cases l s g with h | h <;> rw [h]
  · exact .refl s
  · exact (halted_modGroup g _ s).trans (halted_dropLane l g _)

theorem halted_reintEnd (result : Byte) (s : State) : Halted s (reintEnd result s) := by
  by_cases h : s.voter.reint.phase = 0
  · rw [reintEnd_idle result h]
    exact .refl s
  · rw [reintEnd_eq result h]
    have close (l : Fin 3) (off : Bool) (s : State) : Halted s (reintClose result l off s) := by
      cases off <;> exact halted_of_eq rfl rfl rfl
    exact ((halted_leaveGroup _ s 0).trans (halted_leaveGroup _ _ 1)).trans (close _ _ _)

theorem halted_setRole (r : Role) (s : State) : Halted s (setRole r s) :=
  halted_of_kept (kept_setRole (ps0 := [.hsb, .arb, .log]) r s kept_refl (by decide)) (by decide) (by decide) (by decide)

theorem halted_refusePending (code : Byte) (name : String) (s : State) : Halted s (refusePending code name s) := by
  unfold refusePending
  split
  · exact .refl s
  · dsimp only
    refine Halted.trans ?_ (halted_foldl (fun s c => halted_finishRefused c _ _ s) _ _)
    exact halted_of_eq rfl rfl rfl

/-! ## SAFE (R103) -/

theorem halted_safeStart (s : State) : Halted s (safeStart s) := by
  have oper : Halted s (setOper 2 .safe s) := halted_of_kept (kept_setOper (ps0 := [.arb]) 2 .safe s kept_refl (by decide)) (by decide) (by decide) (by decide)
  exact oper.trans ((halted_refusePending 0x05 "IN_SAFE" _).trans (halted_reintEnd 0x08 _))

theorem halted_safeGroup (s : State) (g : Fin 2) : Halted s (safeGroup s g) :=
  ((halted_modDom (groupDom g) _ s rfl).trans (halted_setMembers 2 g 0 _)).trans
    ((halted_modGroup g _ _).trans ((halted_modDom (groupDom g) _ _ rfl).trans (halted_changeLeave (groupDom g) _)))

theorem halted_haltLanes (s : State) : Halted s (haltLanes s) := by
  unfold haltLanes permitsOff
  exact (halted_foldl (fun s l => (halted_stopCore (laneCore l 1) s).trans (halted_stopCore (laneCore l 0) _)) allLanes s).trans (halted_of_eq rfl rfl rfl)

theorem halted_safeLanes (s : State) : Halted s (safeLanes s) :=
  (halted_safeStart s).trans (((halted_safeGroup _ 0).trans (halted_safeGroup _ 1)).trans (halted_haltLanes _))

theorem halted_safeRole (s : State) : Halted s (safeRole s) := by
  unfold safeRole
  split
  · exact halted_of_kept (kept_sendRelinquish (ps0 := [.sync]) _ _ kept_refl (by decide)) (by decide) (by decide) (by decide)
  · exact halted_setRole _ _
  · exact .refl s

theorem halted_enterSafe (cause : Nat) (grp : Option (Fin 2)) (s : State) : Halted s (enterSafe cause grp s) := by
  cases h : inSafe s with
  | true => rw [enterSafe_idle cause grp h]; exact .refl s
  | false =>
    rw [enterSafe_eq cause grp h]
    have noted : Halted (safeLanes s) (safeNoted cause grp (safeLanes s)) := halted_of_eq rfl rfl rfl
    refine ((halted_safeLanes s).trans noted).trans ((halted_safeRole _).trans ?_)
    exact halted_of_kept (kept_addLog (ps0 := [.ps, .log]) _ _ _ _ (kept_ringEvent 1 cause _ kept_refl (by decide)) (by decide)) (by decide) (by decide) (by decide)

/-! ## The ladder (R416 to R418) -/

theorem halted_psRecord (use : Bool → PsFor) (payload : List Byte) (s : State) : Halted s (psRecord use payload s) :=
  halted_of_kept (kept_psRecord (ps0 := [.ps]) use payload s kept_refl (by decide)) (by decide) (by decide) (by decide)

theorem halted_secondRung (cause src : Nat) (s : State) : Halted s (secondRung cause src s) := by
  unfold secondRung
  split
  · exact .refl s
  · refine Halted.trans ?_ (halted_psRecord _ _ _)
    refine Halted.trans ?_ (halted_enterSafe _ _ _)
    exact halted_of_eq rfl rfl rfl

theorem halted_ladder (cause src : Nat) (s : State) : Halted s (ladder cause src s) := by
  have event (t : State) (h : Halted s t) : Halted s (secondRung cause src t) := h.trans (halted_secondRung _ _ _)
  unfold ladder
  dsimp only
  split
  · exact halted_of_eq rfl rfl rfl
  · split
    · exact halted_of_eq rfl rfl rfl
    · split
      · split
        · exact event _ (halted_of_eq rfl rfl rfl)
        · exact halted_of_eq rfl rfl rfl
      · exact halted_of_eq rfl rfl rfl

/-! ## A stopped pair, halted lanes, a restarted Steward (R411, R416) -/

theorem halted_lsRelease (i : Fin 5) (k : Fin 2) (s : State) : Halted s (lsRelease i k s) := by
  unfold lsRelease
  split
  · exact .refl s
  · exact halted_modCore _ _ s id

theorem halted_modQueue (i : Fin 5) (k : Fin 2) (f : LsQueue → LsQueue) (s : State) : Halted s (modQueue i k f s) := halted_of_eq rfl rfl rfl

theorem halted_lsEnded (i : Fin 5) (k : Fin 2) (s : State) : Halted s (lsEnded i k s) := by
  have start (t : State) : Halted t (startQueued i (otherQ k) t) :=
    halted_of_kept (kept_startQueued (ps0 := [.solvers]) _ _ t kept_refl (by decide)) (by decide) (by decide) (by decide)
  exact (halted_modQueue i k _ s).trans ((halted_lsRelease i k _).trans (start _))

theorem halted_lsAbortQueue (s : State) (x : Fin 5 × Fin 2) : Halted s (lsAbortQueue x.1 x.2 s) := by
  unfold lsAbortQueue
  dsimp only
  split
  · split
    · refine Halted.trans ?_ (halted_lsEnded _ _ _)
      exact halted_of_kept (kept_modQueue (ps0 := [.solvers]) _ _ _ _ (kept_modSolver _ _ _ kept_refl (by decide)) (by decide)) (by decide) (by decide) (by decide)
    · exact halted_modQueue _ _ _ s
  · exact halted_modQueue _ _ _ s
  · exact (halted_modQueue _ _ _ s).trans (halted_lsRelease _ _ _)
  · exact halted_modQueue _ _ _ s

theorem halted_abortSolvers (d : DomId) (s : State) : Halted s (abortSolvers d s) := halted_foldl halted_lsAbortQueue _ s

theorem halted_abandonTasks (d : DomId) (s : State) : Halted s (abandonTasks d s) := halted_modDom d _ s rfl

/-- What the stop of a pair does before its domain's fault is noted. -/
def pairStopping (n : Fin 4) (s : State) : State := changeLeave (pairDom n) (abandonTasks (pairDom n) (abortSolvers (pairDom n) (stopCore (pairCore n) s)))

theorem pairStop_eq (n : Fin 4) (s : State) : pairStop n none s = hsbFault (pairDom n) (setRun 2 (pairDom n) false
    (modDom (pairDom n) (fun x => { x with commit := failImage (pairDom n) (pairStopping n s), commits := [], stopDue := true }) (pairStopping n s))) := rfl

theorem kept_pairStopping (n : Fin 4) (s : State) : Kept [.cores, .doms, .solvers, .hsb, .sync, .mbx, .arb, .log] s (pairStopping n s) :=
  kept_changeLeave _ _ (kept_abandonTasks _ _ (kept_abortSolvers _ _ (kept_stopCore _ s kept_refl (by decide)) (by decide)) (by decide)) (by decide)

theorem pairStopping_stopped (n : Fin 4) (s : State) : (pairStopping n s).cores[pairCore n].stopped = true :=
  ((halted_abortSolvers _ _).trans ((halted_abandonTasks _ _).trans (halted_changeLeave _ _))).stopped _ (stopCore_stopped (pairCore n) s)

theorem setRun_run (src : Nat) (d : DomId) (b : Bool) (s : State) : (setRun src d b s).doms[d].run = b := by
  unfold setRun
  dsimp only
  rw [modDom_same]

/-- A pair that has stopped: its domain does not run, its core is stopped, and its pair registers are as they were. -/
theorem pairStop_stopped (n : Fin 4) (s : State) : (pairStop n none s).doms[pairDom n].run = false ∧ (pairStop n none s).cores[pairCore n].stopped = true ∧
    (pairStop n none s).pairs = s.pairs := by
  rw [pairStop_eq]
  have stopped := pairStopping_stopped n s
  have pairs := (kept_pairStopping n s).only .pairs (by decide)
  generalize pairStopping n s = t at stopped pairs
  have kept : Kept [.doms, .sync, .arb] t (hsbFault (pairDom n) (setRun 2 (pairDom n) false
      (modDom (pairDom n) (fun x => { x with commit := failImage (pairDom n) t, commits := [], stopDue := true }) t))) :=
    kept_hsbFault _ _ (kept_setRun _ _ _ _ (kept_modDom _ _ _ kept_refl (by decide)) (by decide)) (by decide)
  refine ⟨setRun_run 2 (pairDom n) false _, ?_, (kept.only .pairs (by decide)).trans pairs⟩
  rw [kept.only .cores (by decide)]
  exact stopped

theorem pairFault_stopped (n : Fin 4) (cause : Nat) (s : State) : (pairFault n none cause s).doms[pairDom n].run = false ∧
    (pairFault n none cause s).cores[pairCore n].stopped = true ∧ (pairFault n none cause s).pairs = s.pairs := by
  obtain ⟨run, stopped, pairs⟩ := pairStop_stopped n s
  have halted := halted_ladder cause (n.val + 1) (pairStop n none s)
  exact ⟨(halted.run _).trans run, halted.stopped _ stopped, ((kept_ladder (ps0 := [.cores, .doms, .voter, .hsb, .sync, .fg, .mbx, .esc, .ps, .boot, .arb, .log])
    cause (n.val + 1) _ kept_refl (by decide)).only .pairs (by decide)).trans pairs⟩

/-- A lane's core is stopped and its group leaves it out. -/
def haltLane (l : Fin 3) (s : State) (g : Fin 2) : State := modGroup g (fun x => { x with withheld := Sys2Proof.Machine.setBit x.withheld l.val true }) (stopCore (laneCore l g) s)

theorem halted_haltLane (l : Fin 3) (s : State) (g : Fin 2) : Halted s (haltLane l s g) := (halted_stopCore _ s).trans (halted_modGroup _ _ _)

theorem haltLane_stopped (l : Fin 3) (g : Fin 2) (s : State) : (haltLane l s g).cores[laneCore l g].stopped = true := stopCore_stopped _ s

/-- What follows from lanes that a group has lost (R416). -/
theorem laneHalt_cases (l : Fin 3) (gs : List (Fin 2)) (cause : Nat) (s : State) :
    laneHalt l gs cause s = ladder cause (5 + l.val) (gs.foldl (haltLane l) s) ∨
      ∃ g, laneHalt l gs cause s = secondRung cause (5 + l.val) (enterSafe 0x05 (some g) (ladder cause (5 + l.val) (gs.foldl (haltLane l) s))) := by
  unfold laneHalt
  dsimp only
  split
  · exact .inl rfl
  · exact .inr ⟨_, rfl⟩

theorem halted_laneHalt (l : Fin 3) (gs : List (Fin 2)) (cause : Nat) (s : State) : Halted (gs.foldl (haltLane l) s) (laneHalt l gs cause s) := by
  rcases laneHalt_cases l gs cause s with h | ⟨g, h⟩ <;> rw [h]
  · exact halted_ladder _ _ _
  · exact (halted_ladder _ _ _).trans ((halted_enterSafe _ _ _).trans (halted_secondRung _ _ _))

/-- A lane that is halted in both groups: its cores are stopped. -/
theorem laneHalt_stopped (l : Fin 3) (cause : Nat) (s : State) (k : Fin 2) : (laneHalt l [0, 1] cause s).cores[laneCore l k].stopped = true := by
  refine (halted_laneHalt l [0, 1] cause s).stopped _ ?_
  show (haltLane l (haltLane l s 0) 1).cores[laneCore l k].stopped = true
  rcases (by omega : k = 0 ∨ k = 1) with rfl | rfl
  · exact (halted_haltLane l _ 1).stopped _ (haltLane_stopped l 0 s)
  · exact haltLane_stopped l 1 _

/-- A Steward that has restarted has closed every session. -/
theorem stewardRestart_closed (n : Fin 4) (s : State) : (stewardRestart s).mbx.sess[n].st = .closed := by
  simp [stewardRestart, modCore, Session.reset]

end Sys2Proof.Proofs
end

section
/-! SUPPORT. Watchdog units and the Check-in Monitor (R403 to R415). -/

namespace Sys2Proof.Proofs
open Sys2Proof.Machine Sys2Proof.Safety Sys2Proof.Laws
set_option Elab.async false

/-! ## Tick edges of the watchdog units (R403, R404, R410) -/

theorem wdgTick_frozen (w : Wdg) : wdgTick true w = { w with frozen := true, svc := if w.en then [] else w.svc } := by
  cases w with
  | mk _ _ _ _ en _ _ _ _ _ _ _ _ _ _ _ _ frozen => cases en <;> cases frozen <;> rfl

/-- What a counting unit's tick edge leaves. -/
theorem wdgTick_counts {w : Wdg} (he : w.en = true) (hf : w.frozen = false) : wdgTick false w =
    if w.period.toNat ≤ (w.count + 1).toNat then { w with count := 0, due := w.due + 1, svc := [] }
    else w.svc.foldl wdgService { w with count := w.count + 1, svc := [] } := by
  obtain ⟨_, _, _, _, en, _, _, _, _, _, _, _, _, _, _, _, _, frozen, _, _⟩ := w
  cases he
  cases hf
  rfl

theorem wdgService_wrong (w : Wdg) : wdgService w false = { w with count := 0, due := w.due + 1 } := rfl

theorem wdgService_open {w : Wdg} (h : w.wind = false ∨ w.open_.toNat ≤ w.count.toNat) : wdgService w true = { w with count := 0 } := by
  unfold wdgService
  rcases h with h | h <;> simp [h]

theorem wdgService_early {w : Wdg} (hw : w.wind = true) (h : w.count.toNat < w.open_.toNat) : wdgService w true = { w with count := 0, due := w.due + 1 } := by
  unfold wdgService
  simp [hw, h]

theorem ofNat_val8 (u : Fin 8) : Fin.ofNat 8 u.val = u := Fin.ext (Nat.mod_eq_of_lt u.isLt)

theorem watchdogTickEdge_row (s : State) : Gives .watchdogTickEdge s [.wdg] fun t => ∀ u : Fin 8,
    let w := s.wdg[u]
    let c := w.count + 1
    (wdgFrozenNow u s = true → t.wdg[u] = { w with frozen := true, svc := if w.en then [] else w.svc }) ∧
    (wdgFrozenNow u s = false → w.en = true → w.frozen = false →
      (w.period.toNat ≤ c.toNat → t.wdg[u] = { w with count := 0, due := w.due + 1, svc := [] }) ∧
      (c.toNat < w.period.toNat →
        (w.svc = [] → t.wdg[u] = { w with count := c }) ∧
        (w.svc = [false] → t.wdg[u] = { w with count := 0, due := w.due + 1, svc := [] }) ∧
        (w.svc = [true] → w.wind = false ∨ w.open_.toNat ≤ c.toNat → t.wdg[u] = { w with count := 0, svc := [] }) ∧
        (w.svc = [true] → w.wind = true → c.toNat < w.open_.toNat → t.wdg[u] = { w with count := 0, due := w.due + 1, svc := [] }))) := by
  refine gives_leaves (leaves_watchdogTickEdge s) ⟨_, rfl, fun u => ?_⟩
  have unit : (s.wdg.mapIdx fun i w => wdgTick (wdgFrozenNow (Fin.ofNat 8 i) s) w)[u] = wdgTick (wdgFrozenNow u s) s.wdg[u] := by
    simp only [Fin.getElem_fin, Vector.getElem_mapIdx, ofNat_val8]
  dsimp only
  rw [unit]
  refine ⟨fun h => h ▸ wdgTick_frozen _, fun h he hf => ?_⟩
  rw [h, wdgTick_counts he hf]
  refine ⟨fun hp => if_pos hp, fun hp => ?_⟩
  rw [if_neg (Nat.not_le.2 hp)]
  generalize s.wdg[u] = w
  refine ⟨fun hs => ?_, fun hs => ?_, fun hs ho => ?_, fun hs hw ho => ?_⟩
  · rw [hs]
    show ({ w with count := w.count + 1, svc := [] } : Wdg) = _
    rw [← hs]
  · rw [hs]
    rfl
  · rw [hs]
    exact wdgService_open (w := { w with count := w.count + 1, svc := [] }) ho
  · rw [hs]
    exact wdgService_early (w := { w with count := w.count + 1, svc := [] }) hw ho

/-! ## Expiries (R411) -/

/-- An expiry is noted in its unit and in the log. -/
def expiryNoted (u : Fin 8) (s : State) : State := addLog .watchdog u.val 0 (modWdg u (fun w => { w with due := w.due - 1, expired := true, exp := inc w.exp }) s)

theorem expiryNoted_wdg (u : Fin 8) (s : State) : (expiryNoted u s).wdg[u] = { s.wdg[u] with due := s.wdg[u].due - 1, expired := true, exp := inc s.wdg[u].exp } := by
  simp [expiryNoted, addLog, modWdg]

/-- What the expiry of a unit stops. -/
def expiryStops (u : Fin 8) (s : State) : State :=
  if u.val = 0 then ladder 1 0 (stewardRestart s)
  else if u.val ≤ 4 then pairFault (Fin.ofNat 4 (u.val - 1)) none 1 s
  else laneHalt (Fin.ofNat 3 (u.val - 5)) [0, 1] 1 s

theorem watchdogExpiry_run {u : Fin 8} {s : State} (h : s.wdg[u].due ≠ 0) : exec (.watchdogExpiry u) s = .next (expiryStops u (expiryNoted u s)) :=
  congrArg Host.Outcome.next (if_neg h)

theorem kept_expiryStops (u : Fin 8) (s : State) : Kept [.cores, .doms, .pairs, .voter, .solvers, .ring, .hsb, .sync, .fg, .mbx, .update, .esc, .ps, .boot, .arb, .log] s (expiryStops u s) := by
  unfold expiryStops
  split
  · exact kept_ladder _ _ _ (kept_stewardRestart s kept_refl (by decide)) (by decide)
  · split
    · exact kept_pairFault _ _ _ _ kept_refl (by decide)
    · exact kept_laneHalt _ _ _ _ kept_refl (by decide)

theorem expiryStops_steward {u : Fin 8} (h : u = 0) (n : Fin 4) (s : State) : (expiryStops u s).mbx.sess[n].st = .closed := by
  subst h
  have closed := (halted_ladder 1 0 (stewardRestart s)).sess { sess := Fin.ofNat 5 n.val, tag := 0 }
  rw [sessOf_host, sessOf_host] at closed
  exact closed.trans (stewardRestart_closed n s)

theorem expiryStops_pair {u : Fin 8} {n : Fin 4} (h : u.val = n.val + 1) (s : State) : (expiryStops u s).doms[pairDom n].run = false ∧
    (expiryStops u s).cores[pairCore n].stopped = true ∧ (expiryStops u s).pairs = s.pairs := by
  have hn : Fin.ofNat 4 (u.val - 1) = n := Fin.ext (by rw [h]; exact Nat.mod_eq_of_lt n.isLt)
  unfold expiryStops
  rw [if_neg (by omega), if_pos (by omega), hn]
  exact pairFault_stopped n 1 s

theorem expiryStops_lane {u : Fin 8} {l : Fin 3} (h : u.val = l.val + 5) (k : Fin 2) (s : State) : (expiryStops u s).cores[laneCore l k].stopped = true := by
  have hl : Fin.ofNat 3 (u.val - 5) = l := Fin.ext (by rw [h]; exact Nat.mod_eq_of_lt l.isLt)
  unfold expiryStops
  rw [if_neg (by omega), if_neg (by omega), hl]
  exact laneHalt_stopped l 1 s k

theorem watchdogExpiry_row (u : Fin 8) (s : State) (h : s.wdg[u].due ≠ 0) :
    Gives (.watchdogExpiry u) s [.cores, .doms, .pairs, .voter, .solvers, .ring, .hsb, .sync, .fg, .mbx, .update, .wdg, .esc, .ps, .boot, .arb, .log] fun t =>
      t.wdg[u] = { s.wdg[u] with due := s.wdg[u].due - 1, expired := true, exp := inc s.wdg[u].exp } ∧
      (u = 0 → ∀ n : Fin 4, t.mbx.sess[n].st = .closed) ∧
      (∀ n : Fin 4, u.val = n.val + 1 → t.doms[pairDom n].run = false ∧ t.cores[pairCore n].stopped = true ∧ t.pairs[n].fault = s.pairs[n].fault) ∧
      ∀ (l : Fin 3) (k : Fin 2), u.val = l.val + 5 → t.cores[laneCore l k].stopped = true := by
  refine gives_of_leaves (leaves_watchdogExpiry u s) (watchdogExpiry_run h) ⟨?_, fun hu n => expiryStops_steward hu n _, fun n hn => ?_, fun l k hl => expiryStops_lane hl k _⟩
  · rw [(kept_expiryStops u (expiryNoted u s)).only .wdg (by decide)]
    exact expiryNoted_wdg u s
  · obtain ⟨run, stopped, pairs⟩ := expiryStops_pair hn (expiryNoted u s)
    exact ⟨run, stopped, by rw [pairs]; rfl⟩

/-! ## Writes of a unit's registers (R405 to R409) -/

theorem wdgWrite_priv {a : Access} {u : Fin 8} {s : State} (h : wdgAccess a u s = .priv) (f : State → State) : wdgWrite a u f s = { s with bus := { resp := .priv, val := 0 } } := by
  unfold wdgWrite
  rw [h]
  rfl

theorem wdgWrite_ok {a : Access} {u : Fin 8} {s : State} (h : wdgAccess a u s = .ok) (f : State → State) : wdgWrite a u f s = f { s with bus := { resp := .ok, val := 0 } } := by
  unfold wdgWrite
  rw [h]
  rfl

theorem wdg_refused {a : Access} {u : Fin 8} {s : State} (h : wdgAccess a u s = .priv) (v : BitVec 16) (p : Word) :
    ∀ i ∈ [Instr.wdgSvc a u v, .wdgPer a u p, .wdgKey a u v, .wdgLock a u, .wdgEnable a u], exec i s = .next { s with bus := { resp := .priv, val := 0 } } := by
  intro i hi
  simp only [List.mem_cons, List.not_mem_nil, or_false] at hi
  rcases hi with rfl | rfl | rfl | rfl | rfl <;> exact congrArg Host.Outcome.next (wdgWrite_priv h _)

/-- The state after a write that sets a unit to `x`. -/
def wdgSet (u : Fin 8) (s : State) (x : Wdg) : State := { s with wdg := s.wdg.set u x, bus := { resp := .ok, val := 0 } }

theorem modWdg_answered (u : Fin 8) (f : Wdg → Wdg) (s : State) : modWdg u f { s with bus := { resp := .ok, val := 0 } } = wdgSet u s (f s.wdg[u]) := rfl

section
variable {a : Access} {u : Fin 8} {s : State} (ha : wdgAccess a u s = .ok)
include ha

theorem wdgSvc_run (v : BitVec 16) : exec (.wdgSvc a u v) s = .next (wdgSet u s
    (let ok := v == 0xC3A5 && (!s.wdg[u].priv || masterCore a.master == some (wdgDesignated u s.wdg[u]))
     { s.wdg[u] with svc := s.wdg[u].svc ++ [ok], badsvc := s.wdg[u].badsvc || !ok })) :=
  congrArg Host.Outcome.next (wdgWrite_ok ha _)

theorem wdgPer_unlocked {v : Word} (hl : s.wdg[u].lock = false) : exec (.wdgPer a u v) s = .next (wdgSet u s
    (if wdgOpen s.wdg[u] = false then { s.wdg[u] with perlate := true }
     else if wdgValid s.wdg[u].wind (field v 0 22) s.wdg[u].staged.toNat then { s.wdg[u] with period := v.setWidth 22, open_ := s.wdg[u].staged, count := 0 }
     else { s.wdg[u] with badval := true })) := by
  refine congrArg Host.Outcome.next ((wdgWrite_ok ha _).trans (congrArg (wdgSet u s) ?_))
  dsimp only
  rw [if_neg (fun h => Bool.false_ne_true (hl.symm.trans h))]
  cases wdgOpen s.wdg[u] <;> cases wdgValid s.wdg[u].wind (field v 0 22) s.wdg[u].staged.toNat <;> rfl

theorem wdgPer_locked (v : Word) (hl : s.wdg[u].lock = true) : exec (.wdgPer a u v) s = .next (wdgSet u s s.wdg[u]) :=
  congrArg Host.Outcome.next ((wdgWrite_ok ha _).trans (congrArg (wdgSet u s) (if_pos hl)))

theorem wdgEnable_run : exec (.wdgEnable a u) s = .next (wdgSet u s { s.wdg[u] with en := s.wdg[u].en || !s.wdg[u].lock }) :=
  congrArg Host.Outcome.next (wdgWrite_ok ha _)

theorem wdgKey_locked (v : BitVec 16) (hl : s.wdg[u].lock = true) : exec (.wdgKey a u v) s = .next (wdgSet u s { s.wdg[u] with keyerr := true }) :=
  congrArg Host.Outcome.next ((wdgWrite_ok ha _).trans (congrArg (wdgSet u s) (if_pos hl)))

theorem wdgKey_first (v : BitVec 16) (hl : s.wdg[u].lock = false) (hk : s.wdg[u].key = none) : exec (.wdgKey a u v) s = .next (wdgSet u s
    (if v == 0x6D2B then { s.wdg[u] with key := some (a.master, s.cyc.tb) } else { s.wdg[u] with keyerr := true })) := by
  refine congrArg Host.Outcome.next ((wdgWrite_ok ha _).trans (congrArg (wdgSet u s) ?_))
  dsimp only
  rw [if_neg (fun h => Bool.false_ne_true (hl.symm.trans h))]
  simp only [hk]

theorem wdgKey_second {m : Master} {t0 : Long} (hl : s.wdg[u].lock = false) (hk : s.wdg[u].key = some (m, t0)) (hm : a.master = m) (ht : since t0 s ≤ 12500) :
    exec (.wdgKey a u 0x92D4) s = .next (wdgSet u s { s.wdg[u] with key := none, en := false }) := by
  refine congrArg Host.Outcome.next ((wdgWrite_ok ha _).trans (congrArg (wdgSet u s) ?_))
  dsimp only
  rw [if_neg (fun h => Bool.false_ne_true (hl.symm.trans h))]
  have hs : since t0 { s with bus := { resp := .ok, val := 0 } } ≤ 10 * tickUs := ht
  simp only [hk, hm, beq_self_eq_true, Bool.true_and, decide_eq_true hs, if_true]

theorem wdgLock_run : exec (.wdgLock a u) s = .next (wdgSet u s { s.wdg[u] with lock := true }) :=
  congrArg Host.Outcome.next (wdgWrite_ok ha _)

end

theorem wdg_enabled {w : Wdg} (hl : w.lock = true) : ({ w with en := w.en || !w.lock } : Wdg) = w := by
  cases w
  simp_all

theorem wdg_enables {w : Wdg} (hl : w.lock = false) : ({ w with en := w.en || !w.lock } : Wdg) = { w with en := true } := by
  cases w
  simp_all

/-! ## Check-ins (R413 to R415) -/

theorem checkin_row (c : CoreId) (d : DomId) (p : Fin 64) (s : State) (hd : domOf c = some d) :
    let x := s.cim[d]
    let y := x.pts[p]
    let l := cimLane c
    exec (.checkin c p) s = .next { s with cim := s.cim.set d (
      if y.win = 0 then { x with badpt := true, badLanes := Sys2Proof.Machine.setBit x.badLanes l.val true }
      else if y.started.getLsbD l.val then { x with pts := x.pts.set p { y with cnt := y.cnt.set l (inc8 y.cnt[l]) } } else x) } := by
  refine congrArg Host.Outcome.next ?_
  unfold checkinOp
  rw [hd]
  rfl

theorem modCim_same (d : DomId) (f : Cim → Cim) (s : State) : (modCim d f s).cim[d] = f s.cim[d] := Vector.getElem_set_self _

/-- A set once its windows that end in the running cycle are closed. -/
def cimClosed (s : State) (x : Cim) : Cim := { x with badLanes := 0, closedAt := some s.cyc.count, pts := x.pts.map fun p => if cimEnds p s then cimClose [0] p else p }

/-- What makes a pair's windows end badly. -/
def cimBad (n : Fin 4) (s : State) : Bool :=
  s.cim[pairDom n].badLanes.getLsbD 0 || s.cim[pairDom n].pts.toList.any fun p => cimEnds p s && p.started.getLsbD 0 && cimVerdict p 0 ≠ 0

theorem domPair_pairDom : ∀ n : Fin 4, domPair (pairDom n) = some n := by decide
theorem domGroup_pairDom : ∀ n : Fin 4, domGroup (pairDom n) = none := by decide

theorem cimActive_pair {n : Fin 4} {s : State} (hr : s.doms[pairDom n].run = true) (ha : s.arb.oper ≠ .hold) : cimActive (pairDom n) s = [0] := by
  unfold cimActive
  rw [if_neg (by rw [hr]; exact Bool.false_ne_true), domGroup_pairDom]
  exact if_neg (by rw [beq_false_of_ne ha]; exact Bool.false_ne_true)

/-- A failure of supervision is noted in its set. -/
def failNoted (x : Cim) : Cim := { x with fails := inc x.fails, fail := true }

theorem supervisionFailure_pair (n : Fin 4) (bad : List (Fin 3)) (s : State) : supervisionFailure (pairDom n) bad s = pairFault n none 2 (modCim (pairDom n) failNoted s) := by
  unfold supervisionFailure
  rw [domPair_pairDom]
  rfl

theorem checkinWindowEnd_run {n : Fin 4} {s : State} (hr : s.doms[pairDom n].run = true) (ha : s.arb.oper ≠ .hold) (hc : s.cim[pairDom n].closedAt ≠ some s.cyc.count)
    (he : ∃ p : Fin 64, cimEnds s.cim[pairDom n].pts[p] s = true) : exec (.checkinWindowEnd (pairDom n)) s = .next
      (if cimBad n s then supervisionFailure (pairDom n) [0] (modCim (pairDom n) (cimClosed s) s) else modCim (pairDom n) (cimClosed s) s) := by
  obtain ⟨p, hp⟩ := he
  have ends : (s.cim[pairDom n].pts.toList.any fun p => cimEnds p s) = true :=
    List.any_eq_true.2 ⟨_, Vector.mem_toList_iff.2 (Vector.getElem_mem p.isLt), hp⟩
  refine congrArg Host.Outcome.next ?_
  rw [cimActive_pair hr ha, ends, if_neg (by rw [beq_false_of_ne hc]; exact Bool.false_ne_true)]
  have bad : ([0] : List (Fin 3)).filter (fun l => s.cim[pairDom n].badLanes.getLsbD l.val ||
      s.cim[pairDom n].pts.toList.any fun p => cimEnds p s && p.started.getLsbD l.val && cimVerdict p l ≠ 0) = bif cimBad n s then [0] else [] := List.filter_singleton
  dsimp only
  rw [bad]
  cases cimBad n s <;> rfl

theorem checkinWindowEnd_row {n : Fin 4} {s : State} (hr : s.doms[pairDom n].run = true) (ha : s.arb.oper ≠ .hold) (hc : s.cim[pairDom n].closedAt ≠ some s.cyc.count)
    (he : ∃ p : Fin 64, cimEnds s.cim[pairDom n].pts[p] s = true) :
    Gives (.checkinWindowEnd (pairDom n)) s [.cores, .doms, .pairs, .voter, .solvers, .hsb, .sync, .fg, .mbx, .cim, .esc, .ps, .boot, .arb, .log] fun t => t.cim[pairDom n].badLanes = 0 ∧
      (cimBad n s = true → t.cim[pairDom n].fails = inc s.cim[pairDom n].fails ∧ t.cim[pairDom n].fail = true ∧ t.doms[pairDom n].run = false ∧ t.cores[pairCore n].stopped = true) ∧
      (cimBad n s = false → t.doms = s.doms ∧ t.cores = s.cores ∧ t.cim[pairDom n].fails = s.cim[pairDom n].fails) ∧
      ∀ p : Fin 64, t.cim[pairDom n].pts[p] = if cimEnds s.cim[pairDom n].pts[p] s then cimClose [0] s.cim[pairDom n].pts[p] else s.cim[pairDom n].pts[p] := by
  have points (p : Fin 64) : (cimClosed s s.cim[pairDom n]).pts[p] = if cimEnds s.cim[pairDom n].pts[p] s then cimClose [0] s.cim[pairDom n].pts[p] else s.cim[pairDom n].pts[p] :=
    Vector.getElem_map _ p.isLt
  refine gives_of_leaves (leaves_checkinWindowEnd (pairDom n) s) (checkinWindowEnd_run hr ha hc he) ?_
  cases hb : cimBad n s with
  | false =>
    rw [if_neg Bool.false_ne_true, modCim_same]
    exact ⟨rfl, fun h => absurd h Bool.false_ne_true, fun _ => ⟨rfl, rfl, rfl⟩, points⟩
  | true =>
    rw [if_pos rfl, supervisionFailure_pair]
    generalize hnoted : modCim (pairDom n) failNoted _ = t
    have noted : t.cim[pairDom n] = failNoted (cimClosed s s.cim[pairDom n]) := by rw [← hnoted, modCim_same, modCim_same]
    obtain ⟨run, stopped, -⟩ := pairFault_stopped n 2 t
    have cim := (kept_pairFault (ps0 := [.cores, .doms, .pairs, .voter, .solvers, .hsb, .sync, .fg, .mbx, .esc, .ps, .boot, .arb, .log]) n none 2 t kept_refl (by decide)).only .cim (by decide)
    rw [cim, noted]
    exact ⟨rfl, fun _ => ⟨rfl, rfl, run, stopped⟩, fun h => absurd h Bool.noConfusion, points⟩

/-- Settles O50: a tick edge counts, freezes or judges a unit's latched service, an expiry stops what the unit supervises, writes obey lock and key, and a window's end
closes a pair's points and stops the pair when one of them failed. -/
theorem watchdogsAndCheckinsSupervise : Obligations.WatchdogsAndCheckinsSupervise := by
  refine fun s => ⟨watchdogTickEdge_row s, fun u hu => watchdogExpiry_row u s hu, fun a u => ⟨fun hp v p => wdg_refused hp v p, fun ha => ?_⟩, fun c d p hd => checkin_row c d p s hd, fun n hr ho hc he =>
    checkinWindowEnd_row hr ho hc he⟩
  refine ⟨wdgSvc_run ha, fun v hl => wdgPer_unlocked ha hl, fun v hl => ⟨wdgPer_locked ha v hl, ?_⟩, fun hl => ⟨fun m t0 hk hm ht => wdgKey_second ha hl hk hm ht,
    fun hk => ⟨wdgKey_first ha 0x6D2B hl hk, fun v hv => ?_⟩, ?_⟩, fun hl v => wdgKey_locked ha v hl, wdgLock_run ha⟩
  · refine (wdgEnable_run ha).trans ?_
    rw [wdg_enabled hl]
    rfl
  · refine (wdgKey_first ha v hl hk).trans ?_
    rw [if_neg (by rw [beq_false_of_ne hv]; exact Bool.false_ne_true)]
    rfl
  · refine (wdgEnable_run ha).trans ?_
    rw [wdg_enables hl]
    rfl

end Sys2Proof.Proofs
end

section
/-! SUPPORT. Firmware updates (R395 to R400). -/

namespace Sys2Proof.Proofs
open Sys2Proof.Machine Sys2Proof.Safety Sys2Proof.Laws
set_option Elab.async false

/-! ## STRATUM_PUT (R396) -/

theorem stratumPut_run {r : CmdRef} {x : Slot} {s : State} (h : Waits r 0x0501 x s) : exec (.stratumPut r) s = .next (match segBad (slotData x) with
    | some o => badParam r o (begun r s)
    | none => waitFor r .archive (begun r s)) :=
  congrArg Host.Outcome.next (runCmd_waits h _)

theorem stratumPut_row {r : CmdRef} {x : Slot} {s : State} (h : Waits r 0x0501 x s) :
    (segBad (slotData x) = none → Gives (.stratumPut r) s [.mbx] (GoesOn r x .archive)) ∧
      ∀ o, segBad (slotData x) = some o → Gives (.stratumPut r) s [.sync, .mbx] (Ended r x .badParam o []) := by
  refine ⟨fun hb => ?_, fun o hb => gives_ended (t := begun r s) (leaves_stratumPut r s) h.slot ?_ rfl⟩
  · refine ⟨waitFor r .archive (begun r s), ?_, ?_, waitFor_goesOn h.slot rfl⟩
    · rw [stratumPut_run h, hb]
    · exact (kept_modSlot _ _ _ (kept_begun r s) (by decide)).only
  · rw [stratumPut_run h, hb]
    rfl

/-! ## A set becomes the running one (R396, R397, R400) -/

theorem kept_writeBoot' (f : BootRec → BootRec) (s : State) : Kept [.ps, .boot] s (writeBoot f s) := kept_writeBoot f s kept_refl (List.Subset.refl _)

theorem writeBoot_rec (f : BootRec → BootRec) (s : State) : (writeBoot f s).boot.rec_ = f s.boot.rec_ := by
  unfold writeBoot
  dsimp only
  rw [(kept_psRecord (ps0 := [.ps]) _ _ _ kept_refl (by decide)).only .boot (by decide)]

/-- The update's registers when a set has become the running one. -/
def updateOver (u : Update) : Update := { u with previous := u.before, target := none, step := 0, retried := false, stopAt := false, cmd := none }

theorem kept_settled (id : Long) (s : State) : Kept [.doms, .arch, .arb, .log] s (settingsTurn (id == s.boot.rec_.setPrev) (dropOldSet id s)) := by
  unfold settingsTurn dropOldSet
  split
  · exact kept_addLog _ _ _ _ (kept_upd_arch (kept_upd_arch kept_refl (by decide)) (by decide)) (by decide)
  · exact kept_upd_arch (kept_upd_arch kept_refl (by decide)) (by decide)

theorem setRunning_update (id : Long) (s : State) : (setRunning id s).update = updateOver s.update := by
  have settled := (kept_settled id s).only .update (by decide)
  unfold setRunning
  dsimp only
  rw [(kept_writeBoot' _ _).only .update (by decide)]
  show updateOver (settingsTurn (id == s.boot.rec_.setPrev) (dropOldSet id s)).update = _
  rw [settled]

theorem setRunning_rec (id : Long) (s : State) : (setRunning id s).boot.rec_ =
    { s.boot.rec_ with setPrev := s.boot.rec_.setRun, setRun := id, flags := Sys2Proof.Machine.setBit s.boot.rec_.flags 4 (!(id == s.boot.rec_.setPrev)) } := by
  have settled := (kept_settled id s).only .boot (by decide)
  unfold setRunning
  dsimp only
  rw [writeBoot_rec]
  show (fun b : BootRec => { b with setPrev := b.setRun, setRun := id, flags := Sys2Proof.Machine.setBit b.flags 4 (!(id == s.boot.rec_.setPrev)) })
    (settingsTurn (id == s.boot.rec_.setPrev) (dropOldSet id s)).boot.rec_ = _
  rw [settled]

/-! ## The order goes on (R398) -/

theorem finishOpt_update (q : Option CmdRef) (st : Status) (s : State) : (finishOpt q st s).update = s.update := by
  cases q with
  | none => rfl
  | some c => exact (finish_only c st 0 [] s).only .update (by decide)

theorem updateGo_step {c : Nat} (h : c < 4) (id : Long) (m : List Byte) (s : State) : updateGo id m c s = modUpdate (fun u => { u with step := c, retried := false }) s := if_pos h

theorem updateGo_last (id : Long) (m : List Byte) (s : State) :
    updateGo id m 4 s = modUpdate (fun u => { u with step := 4, retried := false, cmd := none }) (finishOpt s.update.cmd .ok s) := rfl

theorem updateGo_end {c : Nat} (h : 4 < c) (id : Long) (m : List Byte) (s : State) : updateGo id m c s = setRunning id (finishOpt s.update.cmd .ok s) := by
  unfold updateGo
  rw [if_neg (by omega)]
  exact if_neg (by omega)

/-- The order's course changes no firmware. -/
theorem updateGo_keeps (id : Long) (m : List Byte) (c : Nat) (s : State) :
    (updateGo id m c s).update.running = s.update.running ∧ (updateGo id m c s).update.before = s.update.before := by
  rcases Nat.lt_trichotomy c 4 with h | rfl | h
  · rw [updateGo_step h]
    exact ⟨rfl, rfl⟩
  · rw [updateGo_last]
    refine ⟨?_, ?_⟩
    · show (finishOpt _ _ s).update.running = _
      rw [finishOpt_update]
    · show (finishOpt _ _ s).update.before = _
      rw [finishOpt_update]
  · rw [updateGo_end h, setRunning_update, finishOpt_update]
    exact ⟨rfl, rfl⟩

/-! ## UPDATE_START (R397, R494) -/

/-- The refusal looks at no mailbox. -/
theorem updateRefusal_mbx (id : Long) (b : Mbx) (s : State) : updateRefusal id { s with mbx := b } = updateRefusal id s := rfl

theorem manifestOf_mbx (id : Long) (b : Mbx) (s : State) : manifestOf id { s with mbx := b } = manifestOf id s := rfl

/-- The set that a command names. -/
def setNamed (x : Slot) : Long := BitVec.ofNat 64 (sliceNat 0 8 (slotData x))

/-- The update when a set's order begins. -/
def updateBegun (id : Long) (r : CmdRef) (u : Update) : Update := { u with target := some id, cmd := some r, before := u.running, stopAt := false }

section
variable {r : CmdRef} {x : Slot} {s : State} (h : Waits r 0x0502 x s) (hl : (slotData x).length = 8)
include h hl

theorem updateStart_run : exec (.updateStart r) s = .next (match updateRefusal (setNamed x) s, manifestOf (setNamed x) s with
    | some e, _ => finishRefused r 0 e (begun r s)
    | none, none => finishRefused r 0 "SET_UNKNOWN" (begun r s)
    | none, some (_, m) => updateGo (setNamed x) m (nextClass m 1) (modUpdate (updateBegun (setNamed x) r) (begun r s))) := by
  refine congrArg Host.Outcome.next ((runCmd_waits h _).trans ?_)
  rw [if_neg (not_not.2 hl)]
  obtain ⟨b, hb⟩ := begun_mbx r s
  dsimp only
  rw [hb, updateRefusal_mbx, manifestOf_mbx]
  rfl

theorem updateStart_refused {e : String} (he : updateRefusal (setNamed x) s = some e) : Gives (.updateStart r) s [.doms, .sync, .mbx, .update, .ps, .arch, .boot, .arb, .log] fun t =>
    Ended r x .refused 0 (Config.textOf e) t ∧ t.update = s.update := by
  refine gives_ended_and (t := begun r s) (leaves_updateStart r s) h.slot ?_ rfl ?_
  · rw [updateStart_run h hl, he]
    rfl
  · exact ((finish_only _ _ _ _ _).only .update (by decide)).trans ((kept_begun r s).only .update (by decide))

theorem updateStart_goes {b m : List Byte} (he : updateRefusal (setNamed x) s = none) (hm : manifestOf (setNamed x) s = some (b, m)) :
    Gives (.updateStart r) s [.doms, .sync, .mbx, .update, .ps, .arch, .boot, .arb, .log] fun t => t.update.before = s.update.running ∧ t.update.running = s.update.running ∧
      (nextClass m 1 < 4 → t.update.step = nextClass m 1 ∧ t.update.target = some (setNamed x) ∧ t.update.cmd = some r ∧ slotOf r t = some { x with started := true }) ∧
      (nextClass m 1 = 4 → t.update.step = 4 ∧ t.update.target = some (setNamed x) ∧ Ended r x .ok 0 [] t) ∧
      (nextClass m 1 = 5 → t.update.target = none ∧ t.boot.rec_.setRun = setNamed x ∧ t.boot.rec_.setPrev = s.boot.rec_.setRun) := by
  have run : exec (.updateStart r) s = .next (updateGo (setNamed x) m (nextClass m 1) (modUpdate (updateBegun (setNamed x) r) (begun r s))) := by
    rw [updateStart_run h hl, he, hm]
  have slot : slotOf r (begun r s) = some { x with started := true } := begun_slot h.slot
  have update : (begun r s).update = s.update := (kept_begun r s).only .update (by decide)
  have boot : (begun r s).boot = s.boot := (kept_begun r s).only .boot (by decide)
  obtain ⟨running, before⟩ := updateGo_keeps (setNamed x) m (nextClass m 1) (modUpdate (updateBegun (setNamed x) r) (begun r s))
  refine gives_of_leaves (leaves_updateStart r s) run ⟨before.trans ?_, running.trans ?_, fun hc => ?_, fun hc => ?_, fun hc => ?_⟩
  · exact (congrArg Update.running update :)
  · exact (congrArg Update.running update :)
  · rw [updateGo_step hc]
    exact ⟨rfl, rfl, rfl, slot⟩
  · rw [hc, updateGo_last]
    refine ⟨rfl, ?_, ?_⟩
    · exact congrArg Update.target (finishOpt_update _ _ _)
    · exact ended_of_mbx (begun_ended (t := modUpdate (updateBegun (setNamed x) r) (begun r s)) h.slot rfl .ok 0 []) rfl
  · rw [hc, updateGo_end (by decide), setRunning_update, setRunning_rec]
    have kept : (finishOpt (some r) .ok (modUpdate (updateBegun (setNamed x) r) (begun r s))).boot = s.boot := ((finish_only _ _ _ _ _).only .boot (by decide)).trans boot
    exact ⟨rfl, rfl, congrArg (fun b : Boot => b.rec_.setRun) kept⟩

end

/-! ## UPDATE_CLASS_STEP (R398) -/

/-- A class's step has succeeded: its new firmware runs. -/
def classStepped (c : Nat) (m : List Byte) (s : State) : State :=
  classSwitch c (modUpdate (fun v => { v with
    running := v.running.set (Fin.ofNat 4 (c - 1)) ((classFw m (Fin.ofNat 4 (c - 1)) s.update.running[(Fin.ofNat 4 (c - 1) : Fin 4)] s).getD s.update.running[(Fin.ofNat 4 (c - 1) : Fin 4)]) }) s)

theorem classStepped_update (c : Nat) (m : List Byte) (s : State) : (classStepped c m s).update = { s.update with
    running := s.update.running.set (Fin.ofNat 4 (c - 1)) ((classFw m (Fin.ofNat 4 (c - 1)) s.update.running[(Fin.ofNat 4 (c - 1) : Fin 4)] s).getD s.update.running[(Fin.ofNat 4 (c - 1) : Fin 4)]) } :=
  (kept_classSwitch (ps0 := [.cores, .fg]) c _ kept_refl (by decide)).only .update (by decide)

section
variable {i : Long} {b m : List Byte} {s : State} (ht : s.update.target = some i) (hm : manifestOf i s = some (b, m)) (h0 : s.update.step ≠ 0)
include ht hm h0

theorem updateClassStep_run (ok : Bool) : exec (.updateClassStep ok) s = .next (
    if !ok then if !s.update.retried then modUpdate (fun v => { v with retried := true }) s else updateStop (finishOpt s.update.cmd .medium s)
    else if s.update.step = 4 then orderlyBegin 5 (setRunning i (classStepped s.update.step m s))
    else if s.update.stopAt then updateStop (classStepped s.update.step m s)
    else updateGo i m (nextClass m (s.update.step + 1)) (classStepped s.update.step m s)) := by
  refine congrArg Host.Outcome.next ?_
  dsimp only
  rw [ht]
  dsimp only
  rw [hm]
  dsimp only
  rw [if_neg h0]
  rfl

theorem updateClassStep_retries (hr : s.update.retried = false) : exec (.updateClassStep false) s = .next { s with update := { s.update with retried := true } } := by
  rw [updateClassStep_run ht hm h0, hr]
  rfl

theorem updateClassStep_fails (hr : s.update.retried = true) :
    Gives (.updateClassStep false) s [.cores, .doms, .sync, .fg, .mbx, .update, .ps, .arch, .boot, .arb, .log] fun t => t.update.target = none ∧ t.update.step = 0 ∧
      t.update.running = s.update.running ∧ ∀ q y, s.update.cmd = some q → slotOf q s = some y → Ended q y .medium 0 [] t := by
  have run : exec (.updateClassStep false) s = .next (updateStop (finishOpt s.update.cmd .medium s)) := by
    rw [updateClassStep_run ht hm h0, hr]
    rfl
  refine gives_of_leaves (leaves_updateClassStep false s) run ⟨rfl, rfl, (congrArg Update.running (finishOpt_update s.update.cmd .medium s) :), fun q y hq hy => ?_⟩
  rw [hq]
  exact ended_of_mbx (finish_ended hy rfl rfl .medium 0 []) rfl

theorem updateClassStep_steps (h4 : s.update.step < 4) :
    Gives (.updateClassStep true) s [.cores, .doms, .sync, .fg, .mbx, .update, .ps, .arch, .boot, .arb, .log] fun t =>
      t.update.running = s.update.running.set (Fin.ofNat 4 (s.update.step - 1)) ((classFw m (Fin.ofNat 4 (s.update.step - 1)) s.update.running[(Fin.ofNat 4 (s.update.step - 1) : Fin 4)] s).getD
        s.update.running[(Fin.ofNat 4 (s.update.step - 1) : Fin 4)]) ∧
      (s.update.stopAt = true → t.update.target = none) ∧
      (s.update.stopAt = false → nextClass m (s.update.step + 1) < 4 → t.update.step = nextClass m (s.update.step + 1) ∧ t.update.target = some i) := by
  have running := congrArg Update.running (classStepped_update s.update.step m s)
  have target := congrArg Update.target (classStepped_update s.update.step m s)
  have run := updateClassStep_run ht hm h0 true
  rw [if_neg (by decide), if_neg (by omega)] at run
  cases hs : s.update.stopAt with
  | true =>
    rw [hs, if_pos rfl] at run
    exact gives_of_leaves (leaves_updateClassStep true s) run ⟨running, fun _ => rfl, fun h => absurd h Bool.noConfusion⟩
  | false =>
    rw [hs, if_neg Bool.false_ne_true] at run
    refine gives_of_leaves (leaves_updateClassStep true s) run ⟨(updateGo_keeps _ _ _ _).1.trans running, fun h => absurd h Bool.noConfusion, fun _ hc => ?_⟩
    rw [updateGo_step hc]
    exact ⟨rfl, target.trans ht⟩

end

/-! ## UPDATE_CONFIRM (R400, R495) -/

theorem setUnconf_mbx (b : Mbx) (s : State) : setUnconf { s with mbx := b } = setUnconf s := rfl

/-- The settings of a set that was not confirmed are frozen. -/
def frozen (s : State) : State := if setUnconf s then settingsFreeze s else s

theorem kept_frozen (s : State) : Kept [.arch] s (frozen s) := by
  unfold frozen
  split
  · exact kept_settingsFreeze s kept_refl (by decide)
  · exact kept_refl

theorem frozen_mbx (b : Mbx) (s : State) : (frozen { s with mbx := b }).arch = (frozen s).arch := by
  unfold frozen settingsFreeze
  rw [setUnconf_mbx]
  split
  · split <;> rfl
  · rfl

theorem updateConfirm_refused {r : CmdRef} {x : Slot} {s : State} (h : Waits r 0x0503 x s) (hl : (slotData x).length = 8) (hr : setNamed x ≠ s.boot.rec_.setRun ∨ s.update.target ≠ none) :
    Gives (.updateConfirm r) s [.sync, .mbx, .ps, .arch, .boot, .fuses] (Ended r x .refused 0 (Config.textOf "SET_UNKNOWN")) := by
  refine gives_ended (t := begun r s) (leaves_updateConfirm r s) h.slot (congrArg Host.Outcome.next ((runCmd_waits h _).trans ?_)) rfl
  dsimp only
  rw [if_neg (not_not.2 hl), (kept_begun r s).only .boot (by decide), (kept_begun r s).only .update (by decide)]
  refine if_pos ?_
  rcases hr with hr | hr
  · exact Bool.or_eq_true_iff.2 (.inl (bne_iff_ne.2 hr))
  · exact Bool.or_eq_true_iff.2 (.inr (Option.isSome_iff_ne_none.2 hr))

theorem updateConfirm_confirms {r : CmdRef} {x : Slot} {s : State} (h : Waits r 0x0503 x s) (hl : (slotData x).length = 8) (hr : setNamed x = s.boot.rec_.setRun)
    (ht : s.update.target = none) (hm : manifestOf (setNamed x) s = none) :
    Gives (.updateConfirm r) s [.sync, .mbx, .ps, .arch, .boot, .fuses] fun t => GoesOn r x .update t ∧
      t.boot.rec_ = { s.boot.rec_ with flags := Sys2Proof.Machine.setBit s.boot.rec_.flags 4 false } ∧ t.arch = (frozen s).arch := by
  have run : exec (.updateConfirm r) s = .next (waitFor r .update (writeBoot (fun b => { b with flags := Sys2Proof.Machine.setBit b.flags 4 false }) (frozen (begun r s)))) := by
    refine congrArg Host.Outcome.next ((runCmd_waits h _).trans ?_)
    obtain ⟨b, hb⟩ := begun_mbx r s
    dsimp only
    rw [if_neg (not_not.2 hl), hb, manifestOf_mbx, if_neg (by rw [ht]; simpa [setNamed] using hr)]
    change manifestOf (BitVec.ofNat 64 (sliceNat 0 8 (slotData x))) s = none at hm
    rw [hm]
    rfl
  have kept : Kept [.arch, .ps, .boot] (begun r s) (writeBoot (fun b => { b with flags := Sys2Proof.Machine.setBit b.flags 4 false }) (frozen (begun r s))) :=
    kept_writeBoot _ _ (kept_mono (kept_frozen _) (by decide)) (by decide)
  refine gives_of_leaves (leaves_updateConfirm r s) run ⟨waitFor_goesOn h.slot (kept.only .mbx (by decide)), ?_, ?_⟩
  · rw [(kept_waitFor (ps0 := [.mbx]) _ _ _ kept_refl (by decide)).only .boot (by decide), writeBoot_rec,
      (kept_frozen _).only .boot (by decide), (kept_begun r s).only .boot (by decide)]
  · rw [(kept_waitFor (ps0 := [.mbx]) _ _ _ kept_refl (by decide)).only .arch (by decide), (kept_writeBoot' _ _).only .arch (by decide)]
    obtain ⟨b, hb⟩ := begun_mbx r s
    rw [hb, frozen_mbx]

/-- Settles O46: a segment goes to the Archive, a set's order is refused by its first reason or begins with its first class, each step switches its class, is retried once or
stops the order, and the running set is confirmed. -/
theorem updatesFollowTheirOrder : Obligations.UpdatesFollowTheirOrder := by
  refine fun r x s => ⟨fun h => stratumPut_row h, fun h hl => ⟨fun e he => updateStart_refused h hl he, fun b m he hm => updateStart_goes h hl he hm⟩,
    fun i b m ht hm h0 => ⟨fun hr => updateClassStep_retries ht hm h0 hr, fun hr => updateClassStep_fails ht hm h0 hr, fun h4 => updateClassStep_steps ht hm h0 h4⟩,
    fun h hl => ⟨fun hr => updateConfirm_refused h hl hr, fun hr ht hm => updateConfirm_confirms h hl hr ht hm⟩⟩

end Sys2Proof.Proofs
end

section
/-! SUPPORT. What stores mark in domains, and what changes in one domain alone. -/

namespace Sys2Proof.Proofs
open Sys2Proof.Machine Sys2Proof.Safety Sys2Proof.Laws
set_option Elab.async false

/-! ## What a store shows of a domain (R61, R228, R383) -/

/-- A domain but for what stores mark in it: lines to send or copy again, and the seal of its retained data. -/
def shown (x : Dom) : Dom := { x with resend := none, retain := none, change := { x.change with marks := [] } }

/-- The Mode Arbiter but for its record of transitions. -/
def still (a : Arb) : Arb := { a with last := 0, trans := 0 }

/-- No domain has changed but for marks, and the arbiter has only recorded transitions. -/
structure Seen (s t : State) : Prop where
  doms : ∀ d : DomId, shown t.doms[d] = shown s.doms[d]
  arb : still t.arb = still s.arb

theorem Seen.refl (s : State) : Seen s s := ⟨fun _ => rfl, rfl⟩
theorem Seen.trans {s t u : State} (h : Seen s t) (k : Seen t u) : Seen s u := ⟨fun d => (k.doms d).trans (h.doms d), k.arb.trans h.arb⟩

theorem seen_of_kept {ps : List Part} {s t : State} (h : Kept ps s t) (hd : .doms ∉ ps) (ha : .arb ∉ ps) : Seen s t where
  doms d := by rw [h.only .doms hd]
  arb := by rw [h.only .arb ha]

theorem seen_foldl {α : Type} {f : State → α → State} (h : ∀ s x, Seen s (f s x)) (xs : List α) (s : State) : Seen s (xs.foldl f s) := by
  induction xs generalizing s with
  | nil => exact .refl s
  | cons x xs ih => exact (h s x).trans (ih _)

theorem domTouch_shown (by_ : Option CoreId) (code : Nat) (ls : List Nat) (i : Nat) (d : Dom) : shown (domTouch by_ code ls i d) = shown d := by
  unfold domTouch
  split
  · rfl
  · have branch (p : Prop) [Decidable p] (y z : Dom) (hy : shown y = shown d) (hz : shown z = shown d) : shown (if p then y else z) = shown d := by
      split
      · exact hy
      · exact hz
    have marked (y : Dom) (r : Option Seal) : shown { y with retain := r } = shown y := rfl
    exact branch _ _ _ ((marked _ _).trans (branch _ _ _ rfl rfl)) (branch _ _ _ rfl rfl)

theorem seen_noteWrite (by_ : Option CoreId) (code off len : Nat) (s : State) : Seen s (noteWrite by_ code off len s) where
  doms d := by
    have e : (noteWrite by_ code off len s).doms =
        s.doms.mapIdx (domTouch by_ code ((List.range ((off + len - 1) / 64 + 1 - off / 64)).map (off / 64 + ·))) := by
      unfold noteWrite
      dsimp only
      split <;> rfl
    rw [e]
    simp only [Fin.getElem_fin, Vector.getElem_mapIdx, domTouch_shown]
  arb := by rw [(kept_noteWrite (ps0 := [.cores, .doms, .voter]) by_ code off len s kept_refl (by decide)).only .arb (by decide)]

theorem seen_store (by_ : Option CoreId) (code off : Nat) (bs : List Byte) (s : State) : Seen s (store by_ code off bs s) := by
  unfold store
  split
  · exact .refl s
  · refine Seen.trans ?_ (seen_of_kept (kept_gatherTouch (ps0 := [.solvers, .freeCtr]) code off bs _ kept_refl (by decide)) (by decide) (by decide))
    refine Seen.trans ?_ (seen_noteWrite by_ code off bs.length _)
    rw [writeBytes_rest]
    exact ⟨fun _ => rfl, rfl⟩

theorem seen_domWrite (d : DomId) (off : Nat) (bs : List Byte) (s : State) : Seen s (domWrite d off bs s) := seen_foldl (fun s c => seen_store none c off bs s) _ s

theorem seen_resetInstances (d : DomId) (im : Image) (warm : Bool) (s : State) : Seen s (resetInstances d im warm s) := by
  unfold resetInstances
  dsimp only
  refine Seen.trans (seen_foldl (fun s o => ?_) _ s) (seen_foldl (fun s o => ?_) _ _)
  · exact (seen_domWrite d (o + 8) _ s).trans (seen_domWrite d (o + 16) _ _)
  · exact (seen_domWrite d o _ s).trans (seen_domWrite d (o + 8) _ _)

theorem seen_initVars (d : DomId) (im : Image) (s : State) : Seen s (initVars d im s) :=
  seen_foldl (f := fun s (x : Nat × Byte) => domWrite d x.1 [x.2] s) (fun s x => seen_domWrite d x.1 [x.2] s) im.init s

theorem seen_initKept (d : DomId) (im : Image) (warm : Bool) (s : State) : Seen s (initKept d im warm s) := by
  unfold initKept
  split
  · exact seen_initVars d im s
  · exact seen_initVars d _ s

theorem seen_restoreInstances (d : DomId) (im : Image) (s : State) : Seen s (restoreInstances d im s) :=
  seen_foldl (f := fun s (x : Nat × List Byte) => domWrite d x.1 x.2 s) (fun s x => seen_domWrite d x.1 x.2 s) _ s

theorem seen_modDom (d : DomId) (f : Dom → Dom) (s : State) (h : shown (f s.doms[d]) = shown s.doms[d]) : Seen s (modDom d f s) where
  doms e := by
    by_cases he : e = d
    · subst he
      rw [modDom_same, h]
    · rw [modDom_other _ _ _ _ he]
  arb := rfl

theorem seen_grottoSettle (n : Fin 4) (s : State) : Seen s (grottoSettle n s) := by
  unfold grottoSettle
  dsimp only
  split
  · refine Seen.trans ?_ (seen_foldl (fun s m => seen_modDom (pairDom m) (fun d => { d with retain := none }) s rfl) _ _)
    exact ⟨fun _ => rfl, rfl⟩
  · exact ⟨fun _ => rfl, rfl⟩

theorem seen_initRetain (n : Fin 4) (im : Image) (s : State) : Seen s (initRetain n im s) := by
  unfold initRetain
  dsimp only
  refine Seen.trans ?_ (seen_modDom _ _ _ rfl)
  exact (seen_grottoSettle n s).trans (seen_foldl (f := fun s (x : Nat × Byte) => store none 5 (retainAt n + x.1) [x.2] s)
    (fun s x => seen_store none 5 (retainAt n + x.1) [x.2] s) im.retainInit _)

theorem seen_writeEntry (l : Fin 3) (g : Fin 2) (k : Nat) (d : ConnDecl) (s : State) : Seen s (writeEntry l g k d s) := by
  unfold writeEntry
  split
  · exact seen_store _ _ _ _ _
  · exact .refl s

/-- What a lane's interlocking is when its group starts. -/
def ixlLane (g : Fin 2) (im : Image) (l : Fin 3) (s : State) : State :=
  let s : State := { s with conns := s.conns.set l (s.conns[l].set g (im.conns.map (connReset s.boot.rec_.starts.toNat))) }
  let s := (enum im.conns).foldl (fun s k => writeEntry l g k.1 k.2 s) s
  match im.ixl with
  | none => s
  | some x =>
    let s := store none (laneMem l) (x.lvec % 2 ^ 24) (List.replicate 512 0) s
    let s := modRmu l (fun r => { r with armed := true, routes := BitVec.ofNat 13 x.routes.length, base := 0x600000, lvec := BitVec.ofNat 32 x.lvec }) s
    modIxl l (fun _ => ixlFresh x) s

theorem seen_ixlLane (g : Fin 2) (im : Image) (l : Fin 3) (s : State) : Seen s (ixlLane g im l s) := by
  have entries (t : State) : Seen t ((enum im.conns).foldl (fun s k => writeEntry l g k.1 k.2 s) t) := 
    seen_foldl (f := fun s (k : Nat × ConnDecl) => writeEntry l g k.1 k.2 s) (fun s k => seen_writeEntry l g k.1 k.2 s) _ t
  have start : Seen s { s with conns := s.conns.set l (s.conns[l].set g (im.conns.map (connReset s.boot.rec_.starts.toNat))) } := ⟨fun _ => rfl, rfl⟩
  have armed (f : Rmu → Rmu) (h : Ixl → Ixl) (t : State) : Seen t (modIxl l h (modRmu l f t)) := ⟨fun _ => rfl, rfl⟩
  unfold ixlLane
  dsimp only
  split
  · exact start.trans (entries _)
  next x _ =>
    refine (start.trans (entries _)).trans ((seen_store none (laneMem l) (x.lvec % 2 ^ 24) (List.replicate 512 0) _).trans (armed _ _ _))

theorem seen_ixlRestart (g : Fin 2) (im : Image) (s : State) : Seen s (ixlRestart g im s) := by
  have queue (t : State) : Seen t (modGroup g (fun v => { v with queue := [], tels := [] }) t) := ⟨fun _ => rfl, rfl⟩
  have ready (l : Fin 3) (f : Nat → Word) (t : State) : Seen t (readySafe g l f t) := seen_of_kept (kept_readySafe (ps0 := [.voter]) g l f t kept_refl (by decide)) (by decide) (by decide)
  unfold ixlRestart
  dsimp only
  refine Seen.trans (Seen.trans ?_ (queue _)) (ready _ _ _)
  unfold eachLane
  refine seen_foldl (fun s l => ?_) _ s
  exact seen_ixlLane g im l s

theorem still_of_last (s : State) (w : Word) (n : Ctr) : still ({ s with arb := { s.arb with last := w, trans := n } } : State).arb = still s.arb := rfl

theorem transition_still (src inst dim frm to_ : Nat) (s : State) : still (transition src inst dim frm to_ s).arb = still s.arb := by
  unfold transition
  split
  · rfl
  · exact still_of_last s _ _

theorem seen_transition (src inst dim frm to_ : Nat) (s : State) : Seen s (transition src inst dim frm to_ s) where
  doms d := by rw [(kept_transition (ps0 := [.arb]) src inst dim frm to_ s kept_refl (by decide)).only .doms (by decide)]
  arb := transition_still ..

theorem seen_setMembers (src : Nat) (g : Fin 2) (m : BitVec 3) (s : State) : Seen s (setMembers src g m s) := (seen_transition ..).trans ⟨fun _ => rfl, rfl⟩

theorem seen_finishRefusedOpt (r : Option CmdRef) (name : String) (s : State) : Seen s (finishRefusedOpt r name s) :=
  seen_of_kept (kept_finishRefusedOpt (ps0 := [.sync, .mbx]) r name s kept_refl (by decide)) (by decide) (by decide)

theorem seen_finish (r : CmdRef) (st : Status) (detail : Nat) (data : List Byte) (s : State) : Seen s (finish r st detail data s) :=
  seen_of_kept (finish_only r st detail data s) (by decide) (by decide)

theorem seen_modeDone (s : State) : Seen s (modeDone s) := seen_foldl (fun s c => seen_finish c .ok 0 [] s) _ s

theorem seen_abortSolvers (d : DomId) (s : State) : Seen s (abortSolvers d s) := seen_of_kept (kept_abortSolvers (ps0 := [.cores, .solvers]) d s kept_refl (by decide)) (by decide) (by decide)

theorem abortSolvers_doms (d : DomId) (s : State) : (abortSolvers d s).doms = s.doms := (kept_abortSolvers (ps0 := [.cores, .solvers]) d s kept_refl (by decide)).only .doms (by decide)

/-! ## What changes in one domain -/

/-- Only domain `d` has changed but for marks, and the arbiter has only recorded transitions. -/
structure Turned (d : DomId) (s t : State) : Prop where
  others : ∀ e : DomId, e ≠ d → shown t.doms[e] = shown s.doms[e]
  arb : still t.arb = still s.arb

theorem Seen.turned {s t : State} (h : Seen s t) (d : DomId) : Turned d s t := ⟨fun e _ => h.doms e, h.arb⟩
theorem Turned.refl (d : DomId) (s : State) : Turned d s s := (Seen.refl s).turned d
theorem Turned.trans {d : DomId} {s t u : State} (h : Turned d s t) (k : Turned d t u) : Turned d s u := ⟨fun e he => (k.others e he).trans (h.others e he), k.arb.trans h.arb⟩

theorem turned_modDom (d : DomId) (f : Dom → Dom) (s : State) : Turned d s (modDom d f s) := ⟨fun e he => by rw [modDom_other _ _ _ _ he], rfl⟩

theorem turned_setChg (d : DomId) (c : ChgDim) (s : State) : Turned d s (setChg d c s) := by
  unfold setChg
  exact ((seen_transition ..).turned d).trans (turned_modDom d _ _)

theorem turned_setRun (src : Nat) (d : DomId) (b : Bool) (s : State) : Turned d s (setRun src d b s) := by
  unfold setRun
  exact ((seen_transition ..).turned d).trans (turned_modDom d _ _)

theorem turned_changeStop (name : String) (d : DomId) (s : State) : Turned d s (changeStop name d s) := by
  unfold changeStop
  dsimp only
  split
  · exact .refl d s
  · exact (turned_modDom d _ s).trans (((seen_finishRefusedOpt _ _ _).turned d).trans (turned_setChg _ _ _))
  · exact (turned_modDom d _ s).trans (((seen_finishRefusedOpt _ _ _).turned d).trans (turned_setChg _ _ _))

theorem transition_doms (src inst dim frm to_ : Nat) (s : State) : (transition src inst dim frm to_ s).doms = s.doms :=
  (kept_transition (ps0 := [.arb]) src inst dim frm to_ s kept_refl (by decide)).only .doms (by decide)

theorem setChg_dom (d : DomId) (c : ChgDim) (s : State) : (setChg d c s).doms[d] = { s.doms[d] with change := { s.doms[d].change with dim := c } } := by
  unfold setChg
  dsimp only
  rw [modDom_same, transition_doms]

theorem setRun_dom (src : Nat) (d : DomId) (b : Bool) (s : State) : (setRun src d b s).doms[d] = { s.doms[d] with run := b } := by
  unfold setRun
  dsimp only
  rw [modDom_same, transition_doms]

theorem finishRefusedOpt_doms (r : Option CmdRef) (name : String) (s : State) : (finishRefusedOpt r name s).doms = s.doms :=
  (kept_finishRefusedOpt (ps0 := [.sync, .mbx]) r name s kept_refl (by decide)).only .doms (by decide)

/-- The end of a domain's change touches the change only, and keeps the confirmed program. -/
theorem changeStop_dom (name : String) (d : DomId) (s : State) : ∃ c, (changeStop name d s).doms[d] = { s.doms[d] with change := c } ∧ c.confirmed = s.doms[d].change.confirmed := by
  unfold changeStop
  dsimp only
  split
  · exact ⟨s.doms[d].change, rfl, rfl⟩
  · rw [setChg_dom, finishRefusedOpt_doms, modDom_same]
    exact ⟨_, rfl, rfl⟩
  · rw [setChg_dom, finishRefusedOpt_doms, modDom_same]
    exact ⟨_, rfl, rfl⟩

theorem kept_changeStop' (name : String) (d : DomId) (s : State) : Kept [.doms, .sync, .mbx, .arb] s (changeStop name d s) := by
  unfold changeStop
  dsimp only
  split
  · exact kept_refl
  · exact kept_setChg _ _ _ (kept_finishRefusedOpt _ _ _ (kept_modDom _ _ _ kept_refl (by decide)) (by decide)) (by decide)
  · exact kept_setChg _ _ _ (kept_finishRefusedOpt _ _ _ (kept_modDom _ _ _ kept_refl (by decide)) (by decide)) (by decide)

end Sys2Proof.Proofs
end

section
/-! SUPPORT. The restart of a pair and the start of a group (R60 to R64). -/

namespace Sys2Proof.Proofs
open Sys2Proof.Machine Sys2Proof.Safety Sys2Proof.Laws
set_option Elab.async false

/-! ## The restart of a pair (R60 to R63) -/

/-- A pair's domain as its restart leaves it, before its variables are set. -/
def pairFresh (n : Fin 4) (im : Image) (warm : Bool) (reason : Nat) (s : State) : State :=
  let t := modDom (pairDom n) (domFresh im (failImage (pairDom n) s) warm reason) (abortSolvers (pairDom n) s)
  modDom (pairDom n) (fun x => { x with commit := failImage (pairDom n) t, published := failImage (pairDom n) t }) t

/-- A restarted pair's variables, core, registers and supervision. -/
def pairWork (n : Fin 4) (im : Image) (warm : Bool) (s : State) : State :=
  let t := initKept (pairDom n) im warm (resetInstances (pairDom n) im warm s)
  let t := if warm then restoreInstances (pairDom n) im t else initRetain n im t
  noteRestart n (cimRestart (pairDom n) (modPair n (fun p => { p with fault := false, halt := false, log := [] }) (modCore (pairCore n) coreFresh t)))

theorem pairRestart_eq {n : Fin 4} {im : Image} {s : State} (h : nextImage (pairDom n) s = some im) (host : Bool) (src : Nat) :
    pairRestart n host src s = addLog .restart (pairDom n).val (restartReason n host s) (setRun src (pairDom n) true
      (pairWork n im (restartReason n host s == 0) (pairFresh n im (restartReason n host s == 0) (restartReason n host s) s))) := by
  unfold pairRestart
  dsimp only
  rw [h]
  rfl

theorem pairRestart_none {n : Fin 4} {s : State} (h : nextImage (pairDom n) s = none) (host : Bool) (src : Nat) : pairRestart n host src s = s := by
  unfold pairRestart
  dsimp only
  rw [h]

theorem seen_pairWork (n : Fin 4) (im : Image) (warm : Bool) (s : State) : Seen s (pairWork n im warm s) := by
  have vars : Seen s (initKept (pairDom n) im warm (resetInstances (pairDom n) im warm s)) := (seen_resetInstances _ _ _ s).trans (seen_initKept _ _ _ _)
  have rest (t : State) : Seen t (noteRestart n (cimRestart (pairDom n) (modPair n (fun p => { p with fault := false, halt := false, log := [] }) (modCore (pairCore n) coreFresh t)))) :=
    seen_of_kept (kept_noteRestart (ps0 := [.cores, .pairs, .cim, .esc]) n _ (kept_cimRestart _ _ (kept_modPair _ _ _ (kept_modCore _ _ t kept_refl (by decide)) (by decide)) (by decide)) (by decide))
      (by decide) (by decide)
  unfold pairWork
  dsimp only
  cases warm with
  | true => exact (vars.trans (seen_restoreInstances _ _ _)).trans (rest _)
  | false => exact (vars.trans (seen_initRetain _ _ _)).trans (rest _)

theorem pairFresh_dom (n : Fin 4) (im : Image) (warm : Bool) (reason : Nat) (s : State) : ∃ p, (pairFresh n im warm reason s).doms[pairDom n] =
    { domFresh im p warm reason s.doms[pairDom n] with commit := p, published := p } := by
  refine ⟨failImage (pairDom n) (modDom (pairDom n) (domFresh im (failImage (pairDom n) s) warm reason) (abortSolvers (pairDom n) s)), ?_⟩
  unfold pairFresh
  dsimp only
  rw [modDom_same]
  generalize failImage (pairDom n) (modDom _ _ _) = p
  rw [modDom_same, abortSolvers_doms]
  rfl

theorem turned_pairFresh (n : Fin 4) (im : Image) (warm : Bool) (reason : Nat) (s : State) : Turned (pairDom n) s (pairFresh n im warm reason s) := by
  unfold pairFresh
  exact ((seen_abortSolvers (pairDom n) s).turned _).trans ((turned_modDom _ _ _).trans (turned_modDom _ _ _))

theorem addLog_seen (k : LogKind) (a b : Nat) (s : State) : Seen s (addLog k a b s) := ⟨fun _ => rfl, rfl⟩

theorem turned_pairRestart (n : Fin 4) (host : Bool) (src : Nat) (s : State) : Turned (pairDom n) s (pairRestart n host src s) := by
  cases h : nextImage (pairDom n) s with
  | none =>
    rw [pairRestart_none h]
    exact .refl _ s
  | some im =>
    rw [pairRestart_eq h]
    exact (turned_pairFresh n im _ _ s).trans (((seen_pairWork n im _ _).turned _).trans ((turned_setRun src _ true _).trans ((addLog_seen _ _ _ _).turned _)))

/-- A pair that has restarted. -/
theorem pairRestart_dom {n : Fin 4} {im : Image} {s : State} (h : nextImage (pairDom n) s = some im) (host : Bool) (src : Nat) :
    ∃ p, shown (pairRestart n host src s).doms[pairDom n] =
      shown { domFresh im p (restartReason n host s == 0) (restartReason n host s) s.doms[pairDom n] with commit := p, published := p, run := true } := by
  obtain ⟨p, fresh⟩ := pairFresh_dom n im (restartReason n host s == 0) (restartReason n host s) s
  have work := (seen_pairWork n im (restartReason n host s == 0) (pairFresh n im (restartReason n host s == 0) (restartReason n host s) s)).doms (pairDom n)
  refine ⟨p, ?_⟩
  rw [pairRestart_eq h]
  show shown (setRun src (pairDom n) true _).doms[pairDom n] = _
  rw [setRun_dom]
  have run (x : Dom) : shown { x with run := true } = { shown x with run := true } := rfl
  rw [run, work, fresh]
  rfl

/-! ## The start of a group (R64, R482) -/

theorem groupStart_none {g : Fin 2} {s : State} (h : nextImage (groupDom g) s = none) (src : Nat) : groupStart g src s = s := by
  unfold groupStart
  dsimp only
  rw [h]

/-- A group's domain, members and voter when it starts. -/
def groupFresh (g : Fin 2) (im : Image) (s : State) : State :=
  let low := List.replicate im.areas.qLen (0 : Byte)
  let s := setMembers 2 g (startMembers s) (modDom (groupDom g) (domFresh im low false 3) (abortSolvers (groupDom g) s))
  modGroup g (fun v => { v with agr := .replicate 3 0, vp := none, voted := [], candGot := [], lastEoc := false, eocSince := false, eocAt := none
                                relAt := none, builtAt := none, commit := .replicate 3 low, cand := 0, withheld := 0, mute := 0 }) s

/-- A starting group's cores, variables and interlocking. -/
def groupWork (g : Fin 2) (im : Image) (s : State) : State :=
  let s := (memberLanes g s).foldl (fun s l => modCore (laneCore l g) coreFresh
    { s with esc := { s.esc with event := Sys2Proof.Machine.setBit s.esc.event (5 + l.val) false } }) s
  cimRestart (groupDom g) (ixlRestart g im (initKept (groupDom g) im false (resetInstances (groupDom g) im false s)))

theorem groupStart_eq {g : Fin 2} {im : Image} {s : State} (h : nextImage (groupDom g) s = some im) (src : Nat) : groupStart g src s =
    if startMembers s = 0 then addLog .lanesShort g.val 0 (setMembers 2 g 0 s)
    else addLog .restart (groupDom g).val 3 (setRun src (groupDom g) true (groupWork g im (groupFresh g im s))) := by
  unfold groupStart
  dsimp only
  rw [h]
  rfl

theorem seen_groupWork (g : Fin 2) (im : Image) (s : State) : Seen s (groupWork g im s) := by
  have cores (l : List (Fin 3)) (s : State) : Seen s (l.foldl (fun s l => modCore (laneCore l g) coreFresh
      { s with esc := { s.esc with event := Sys2Proof.Machine.setBit s.esc.event (5 + l.val) false } }) s) := by
    refine seen_foldl (fun s l => ?_) l s
    exact ⟨fun _ => rfl, rfl⟩
  have cim (s : State) : Seen s (cimRestart (groupDom g) s) := ⟨fun _ => rfl, rfl⟩
  unfold groupWork
  exact (cores _ s).trans ((seen_resetInstances _ _ _ _).trans ((seen_initKept _ _ _ _).trans ((seen_ixlRestart g im _).trans (cim _))))

theorem turned_groupFresh (g : Fin 2) (im : Image) (s : State) : Turned (groupDom g) s (groupFresh g im s) := by
  have group (f : Group → Group) (t : State) : Seen t (modGroup g f t) := ⟨fun _ => rfl, rfl⟩
  unfold groupFresh
  exact ((seen_abortSolvers (groupDom g) s).turned _).trans ((turned_modDom _ _ _).trans (((seen_setMembers _ _ _ _).turned _).trans ((group _ _).turned _)))

theorem turned_groupStart (g : Fin 2) (src : Nat) (s : State) : Turned (groupDom g) s (groupStart g src s) := by
  cases h : nextImage (groupDom g) s with
  | none =>
    rw [groupStart_none h]
    exact .refl _ s
  | some im =>
    rw [groupStart_eq h]
    split
    · exact ((seen_setMembers 2 g 0 s).turned _).trans ((addLog_seen _ _ _ _).turned _)
    · exact (turned_groupFresh g im s).trans (((seen_groupWork g im _).turned _).trans ((turned_setRun src _ true _).trans ((addLog_seen _ _ _ _).turned _)))

/-! ## The restart of a domain (R60, R392, R466) -/

theorem turned_changeLeave (d : DomId) (s : State) : Turned d s (changeLeave d s) := turned_changeStop _ d s

/-- A domain that runs leaves its change first. -/
def changeLeft (d : DomId) (s : State) : State := if s.doms[d].run then changeLeave d s else s

theorem turned_changeLeft (d : DomId) (s : State) : Turned d s (changeLeft d s) := by
  unfold changeLeft
  split
  · exact turned_changeLeave d s
  · exact .refl d s

theorem changeLeft_dom (d : DomId) (s : State) : ∃ c, (changeLeft d s).doms[d] = { s.doms[d] with change := c } ∧ c.confirmed = s.doms[d].change.confirmed := by
  unfold changeLeft
  split
  · exact changeStop_dom _ d s
  · exact ⟨s.doms[d].change, rfl, rfl⟩

theorem kept_changeLeft (d : DomId) (s : State) : Kept [.doms, .sync, .mbx, .arb] s (changeLeft d s) := by
  unfold changeLeft
  split
  · exact kept_changeStop' _ d s
  · exact kept_refl

theorem nextImage_changeLeft (d : DomId) (s : State) : nextImage d (changeLeft d s) = nextImage d s := by
  obtain ⟨c, dom, confirmed⟩ := changeLeft_dom d s
  unfold nextImage
  rw [dom]
  dsimp only
  rw [confirmed]

theorem groupDom_pairs : ∀ d : DomId, domPair d = none → d = groupDom (Fin.ofNat 2 (d.val - 4)) := by decide
theorem pairDom_of_domPair : ∀ (d : DomId) (n : Fin 4), domPair d = some n → d = pairDom n := by decide

theorem domRestart_held {d : DomId} {s : State} (h : s.doms[d].held = true) (host : Bool) (src : Nat) : domRestart d host src s = s := if_pos h

theorem domRestart_pair {n : Fin 4} {s : State} (h : s.doms[pairDom n].held = false) (host : Bool) (src : Nat) :
    domRestart (pairDom n) host src s = pairRestart n host src (changeLeft (pairDom n) s) := by
  unfold domRestart
  rw [if_neg (by rw [h]; exact Bool.false_ne_true), domPair_pairDom]
  rfl

theorem domRestart_group {d : DomId} {s : State} (hd : domPair d = none) (h : s.doms[d].held = false) (host : Bool) (src : Nat) :
    domRestart d host src s = groupStart (Fin.ofNat 2 (d.val - 4)) src (changeLeft d s) := by
  unfold domRestart
  rw [if_neg (by rw [h]; exact Bool.false_ne_true), hd]
  rfl

theorem turned_domRestart (d : DomId) (host : Bool) (src : Nat) (s : State) : Turned d s (domRestart d host src s) := by
  cases held : s.doms[d].held with
  | true =>
    rw [domRestart_held held]
    exact .refl d s
  | false =>
    cases hd : domPair d with
    | none =>
      have start := turned_groupStart (Fin.ofNat 2 (d.val - 4)) src (changeLeft d s)
      rw [← groupDom_pairs d hd] at start
      rw [domRestart_group hd held]
      exact (turned_changeLeft d s).trans start
    | some n =>
      obtain rfl := pairDom_of_domPair d n hd
      rw [domRestart_pair held]
      exact (turned_changeLeft _ s).trans (turned_pairRestart n host src _)

theorem kept_domRestart' (d : DomId) (host : Bool) (src : Nat) (s : State) :
    Kept [.cores, .doms, .pairs, .mem, .voter, .solvers, .rmus, .ixl, .conns, .sync, .mbx, .cim, .esc, .power, .arb, .log, .freeCtr] s (domRestart d host src s) := by
  cases held : s.doms[d].held with
  | true =>
    rw [domRestart_held held]
    exact kept_refl
  | false =>
    have left : Kept [.cores, .doms, .pairs, .mem, .voter, .solvers, .rmus, .ixl, .conns, .sync, .mbx, .cim, .esc, .power, .arb, .log, .freeCtr] s (changeLeft d s) :=
      kept_mono (kept_changeLeft d s) (by decide)
    cases hd : domPair d with
    | none =>
      rw [domRestart_group hd held]
      exact kept_groupStart _ _ _ left (by decide)
    | some n =>
      obtain rfl := pairDom_of_domPair d n hd
      rw [domRestart_pair held]
      exact kept_pairRestart _ _ _ _ left (by decide)

/-! ## The reason of a restart (R62) -/

/-- What a word's check finds and leaves of the errors depends on the errors alone. -/
theorem checkWord_congr {s t : State} (h : t.memErrs = s.memErrs) (who code w : Nat) :
    (checkWord who code w t).1 = (checkWord who code w s).1 ∧ (checkWord who code w t).2.2.memErrs = (checkWord who code w s).2.2.memErrs := by
  have poison : poisoned code w t = poisoned code w s := by
    unfold poisoned
    rw [h]
  have flips : wordFlips code w t = wordFlips code w s := by
    unfold wordFlips
    rw [h]
  unfold checkWord
  rw [poison, flips]
  split
  · exact ⟨rfl, h⟩
  · split
    · exact ⟨rfl, h⟩
    · refine ⟨rfl, ?_⟩
      show (correctWord code w t).memErrs = (correctWord code w s).memErrs
      unfold correctWord
      rw [h]
    · refine ⟨rfl, ?_⟩
      show (poisonWords code [w] (recordErr code (w / 8) who .ue t)).memErrs = (poisonWords code [w] (recordErr code (w / 8) who .ue s)).memErrs
      unfold poisonWords recordErr
      rw [h]

/-- One word of a line's check. -/
def lineStep (who code : Nat) (acc : Option ErrKind × Bool × State) (w : Nat) : Option ErrKind × Bool × State := match acc.1 with
  | some _ => acc
  | none => let r := checkWord who code w acc.2.2; (r.1, acc.2.1 || r.2.1, r.2.2)

theorem lineStep_congr (who code : Nat) (ws : List Nat) (a b : Option ErrKind × Bool × State) (h1 : a.1 = b.1) (h2 : a.2.2.memErrs = b.2.2.memErrs) :
    (ws.foldl (lineStep who code) a).1 = (ws.foldl (lineStep who code) b).1 ∧ (ws.foldl (lineStep who code) a).2.2.memErrs = (ws.foldl (lineStep who code) b).2.2.memErrs := by
  induction ws generalizing a b with
  | nil => exact ⟨h1, h2⟩
  | cons w ws ih =>
    rw [List.foldl_cons, List.foldl_cons]
    obtain ⟨found, errs⟩ := checkWord_congr h2 who code w
    cases hb : b.1 with
    | some e =>
      have ha : a.1 = some e := h1.trans hb
      have la : lineStep who code a w = a := by unfold lineStep; rw [ha]
      have lb : lineStep who code b w = b := by unfold lineStep; rw [hb]
      rw [la, lb]
      exact ih a b h1 h2
    | none =>
      have ha : a.1 = none := h1.trans hb
      refine ih _ _ ?_ ?_
      · unfold lineStep
        rw [ha, hb]
        exact found
      · unfold lineStep
        rw [ha, hb]
        exact errs

theorem checkLine_eq (who code l : Nat) (s : State) : (checkLine who code l s).1 = match ((lineWords l).foldl (lineStep who code) (none, false, s)).1 with
    | some e => some e
    | none => if sideFlips code l s ≥ 2 then some .side else if s.memErrs.outer.contains (code, l) then some .crc else none := by
  unfold checkLine
  show (match ((lineWords l).foldl (lineStep who code) (none, false, s)).1 with | some _ => _ | none => _ : Option ErrKind × Bool × State).1 = _
  cases h : ((lineWords l).foldl (lineStep who code) (none, false, s)).1 with
  | some e => exact h
  | none =>
    dsimp only
    split
    · rfl
    · split <;> rfl

theorem checkLine_congr {s t : State} (h : t.memErrs = s.memErrs) (who code l : Nat) : (checkLine who code l t).1 = (checkLine who code l s).1 := by
  have side : sideFlips code l t = sideFlips code l s := by
    unfold sideFlips
    rw [h]
  rw [checkLine_eq, checkLine_eq, (lineStep_congr who code (lineWords l) (none, false, t) (none, false, s) rfl h).1, side, h]

theorem readBytes_congr {s t : State} (h : t.mem = s.mem) (code off n : Nat) : readBytes code off n t = readBytes code off n s := by
  unfold readBytes readByte
  rw [h]

/-- The reason of a pair's restart does not look at its change but for the confirmed program. -/
theorem restartReason_congr {n : Fin 4} {s t : State} (host : Bool) (hi : t.doms[pairDom n].image = s.doms[pairDom n].image) (hr : t.doms[pairDom n].retain = s.doms[pairDom n].retain)
    (hc : t.doms[pairDom n].change.confirmed = s.doms[pairDom n].change.confirmed) (hp : t.power = s.power) (hm : t.mem = s.mem) (he : t.memErrs = s.memErrs) :
    restartReason n host t = restartReason n host s := by
  have bytes : retainBytes n t = retainBytes n s := by
    unfold retainBytes
    rw [hi]
    cases s.doms[pairDom n].image with
    | none => rfl
    | some im => exact readBytes_congr hm _ _ _
  unfold restartReason
  simp only [hi, hr, hc, hp, bytes, checkLine_congr he]

theorem restartReason_changeLeft (n : Fin 4) (host : Bool) (s : State) : restartReason n host (changeLeft (pairDom n) s) = restartReason n host s := by
  obtain ⟨c, dom, confirmed⟩ := changeLeft_dom (pairDom n) s
  have kept := kept_changeLeft (pairDom n) s
  refine restartReason_congr host ?_ ?_ ?_ (kept.only .power (by decide)) (kept.only .mem (by decide)) (kept.only .memErrs (by decide))
  · rw [dom]
  · rw [dom]
  · rw [dom]
    exact confirmed

/-- A pair's domain after its restart. -/
structure Restarted (n : Fin 4) (host : Bool) (s t : State) : Prop where
  run : t.doms[pairDom n].run = true
  first : t.doms[pairDom n].first = true
  held : t.doms[pairDom n].held = s.doms[pairDom n].held
  kind : t.doms[pairDom n].rstKind = if restartReason n host s = 0 then 1 else 2
  reason : t.doms[pairDom n].rstReason = BitVec.ofNat 8 (restartReason n host s)
  image : t.doms[pairDom n].image = nextImage (pairDom n) s

theorem domRestart_restarted {n : Fin 4} {s : State} (hh : s.doms[pairDom n].held = false) (hi : nextImage (pairDom n) s ≠ none) (host : Bool) (src : Nat) :
    Restarted n host s (domRestart (pairDom n) host src s) := by
  obtain ⟨im, him⟩ := Option.ne_none_iff_exists'.1 hi
  obtain ⟨p, dom⟩ := pairRestart_dom ((nextImage_changeLeft (pairDom n) s).trans him) host src
  obtain ⟨c, left, -⟩ := changeLeft_dom (pairDom n) s
  rw [left, restartReason_changeLeft] at dom
  rw [domRestart_pair hh]
  refine ⟨(congrArg Dom.run dom :), (congrArg Dom.first dom :), (congrArg Dom.held dom :), (congrArg Dom.rstKind dom :).trans ?_, (congrArg Dom.rstReason dom :),
    (congrArg Dom.image dom :).trans him.symm⟩
  show (if (restartReason n host s == 0) = true then (1 : Byte) else 2) = _
  simp only [beq_iff_eq]

end Sys2Proof.Proofs
end

section
/-! SUPPORT. Requests to the Mode Arbiter and entry to RUN (R472 to R484). -/

namespace Sys2Proof.Proofs
open Sys2Proof.Machine Sys2Proof.Safety Sys2Proof.Laws
set_option Elab.async false

/-! ## Entry to RUN (R478) -/

/-- A fold reaches `Q` through the element that establishes it, when every step keeps `P` and then `Q`. -/
theorem foldl_reaches {α β : Type} {f : α → β → α} {P Q : α → Prop} {x : β} (hP : ∀ a y, P a → P (f a y)) (hQ : ∀ a y, P a → Q a → Q (f a y)) (hx : ∀ a, P a → Q (f a x))
    (l : List β) (a : α) (ha : P a) (h : x ∈ l ∨ Q a) : Q (l.foldl f a) := by
  induction l generalizing a with
  | nil => exact h.resolve_left List.not_mem_nil
  | cons y l ih =>
    refine ih (f a y) (hP a y ha) ?_
    rcases h with h | h
    · rcases List.mem_cons.1 h with rfl | h
      · exact .inr (hx a ha)
      · exact .inl h
    · exact .inr (hQ a y ha h)

/-- Freight that still waits for its LINK ends at entry to RUN. -/
def freightEnded (s : State) : State := if s.arb.frtLinkDue.isSome then frtEndAll .link s else s

theorem kept_freightEnded (s : State) : Kept [.mem, .ring, .rtm, .sync, .mbx] s (freightEnded s) := by
  unfold freightEnded
  split
  · exact kept_frtEndAll _ _ kept_refl (by decide)
  · exact kept_refl

/-- RUN is entered, and the cycle starts. -/
def runEntered (src : Nat) (s : State) : State := setOper src .run { s with
  arb := { s.arb with frtLinkDue := none, lastTrain := false }
  cyc := { s.cyc with running := true, t0 := some (firstDeparture s), ir := none, irForced := false } }

/-- The domains that are loaded and not held. -/
def startable (s : State) : List DomId := allDoms.filter fun d => s.doms[d].image.isSome && !s.doms[d].held

theorem enterRun_eq (src : Nat) (s : State) : enterRun src s =
    hsbRun (wantLanes ((startable (runEntered src (freightEnded s))).foldl (fun s d => domRestart d false src s) (runEntered src (freightEnded s)))) := rfl

theorem runEntered_doms (src : Nat) (s : State) : (runEntered src s).doms = s.doms :=
  (kept_setOper (ps0 := [.arb]) src .run _ kept_refl (by decide)).only .doms (by decide)

theorem runEntered_cyc (src : Nat) (s : State) : (runEntered src s).cyc = { s.cyc with running := true, t0 := some (firstDeparture s), ir := none, irForced := false } :=
  (kept_setOper (ps0 := [.arb]) src .run _ kept_refl (by decide)).only .cyc (by decide)

theorem runEntered_hsb (src : Nat) (s : State) : (runEntered src s).hsb = s.hsb :=
  (kept_setOper (ps0 := [.arb]) src .run _ kept_refl (by decide)).only .hsb (by decide)

/-- What the starts leave. -/
structure Started (s t : State) : Prop where
  cyc : t.cyc = s.cyc
  hsb : t.hsb = s.hsb
  arb : still t.arb = still s.arb

theorem started_domRestart (d : DomId) (src : Nat) (s : State) : Started s (domRestart d false src s) where
  cyc := (kept_domRestart' d false src s).only .cyc (by decide)
  hsb := (kept_domRestart' d false src s).only .hsb (by decide)
  arb := (turned_domRestart d false src s).arb

theorem started_foldl (src : Nat) (l : List DomId) (s : State) : Started s (l.foldl (fun s d => domRestart d false src s) s) := by
  induction l generalizing s with
  | nil => exact ⟨rfl, rfl, rfl⟩
  | cons d l ih =>
    have one := started_domRestart d src s
    have rest := ih (domRestart d false src s)
    exact ⟨rest.cyc.trans one.cyc, rest.hsb.trans one.hsb, rest.arb.trans one.arb⟩

/-- A pair that may start. -/
def MayStart (n : Fin 4) (s : State) : Prop := s.doms[pairDom n].held = false ∧ nextImage (pairDom n) s ≠ none

/-- What decides a domain's next program. -/
theorem nextImage_of_shown {d : DomId} {s t : State} (h : shown t.doms[d] = shown s.doms[d]) : nextImage d t = nextImage d s := by
  have confirmed : t.doms[d].change.confirmed = s.doms[d].change.confirmed := (congrArg (fun x : Dom => x.change.confirmed) h :)
  have image : t.doms[d].image = s.doms[d].image := (congrArg Dom.image h :)
  unfold nextImage
  rw [confirmed, image]

theorem nextImage_restarted {n : Fin 4} {host : Bool} {s t : State} (h : Restarted n host s t) (hn : nextImage (pairDom n) s ≠ none) : nextImage (pairDom n) t ≠ none := by
  unfold nextImage
  split
  · exact Option.some_ne_none _
  · rw [h.image]
    exact hn

theorem mayStart_domRestart (n : Fin 4) (src : Nat) (s : State) (d : DomId) (h : MayStart n s) : MayStart n (domRestart d false src s) := by
  by_cases hd : pairDom n = d
  · subst hd
    have done := domRestart_restarted h.1 h.2 false src
    exact ⟨done.held.trans h.1, nextImage_restarted done h.2⟩
  · have other := (turned_domRestart d false src s).others (pairDom n) hd
    exact ⟨(congrArg Dom.held other :).trans h.1, nextImage_of_shown other ▸ h.2⟩

/-- Every pair that may start runs after the starts. -/
theorem starts_run {n : Fin 4} (src : Nat) (l : List DomId) (hl : pairDom n ∈ l) (s : State) (h : MayStart n s) :
    (l.foldl (fun s d => domRestart d false src s) s).doms[pairDom n].run = true := by
  refine foldl_reaches (P := MayStart n) (Q := fun s => s.doms[pairDom n].run = true) (x := pairDom n) (fun s d hs => mayStart_domRestart n src s d hs) (fun s d hs hr => ?_)
    (fun s hs => (domRestart_restarted hs.1 hs.2 false src).run) l s h (.inl hl)
  by_cases hd : pairDom n = d
  · subst hd
    exact (domRestart_restarted hs.1 hs.2 false src).run
  · exact (congrArg Dom.run ((turned_domRestart d false src s).others (pairDom n) hd) :).trans hr

theorem hsbRun_paired {s : State} (h : paired s = true) : (hsbRun s).hsb.orig = false ∧ (hsbRun s).sync.listening = true := by
  have epoch (t : State) : (epochAdvance t).hsb.orig = t.hsb.orig ∧ (epochAdvance t).sync = t.sync := by
    refine ⟨?_, (kept_epochAdvance (ps0 := [.hsb, .ps]) t kept_refl (by decide)).only .sync (by decide)⟩
    unfold epochAdvance
    dsimp only
    split
    · rfl
    · rw [(kept_psRecord (ps0 := [.ps]) _ _ _ kept_refl (by decide)).only .hsb (by decide)]
      rfl
  unfold hsbRun
  rw [if_pos h]
  dsimp only
  rw [(epoch _).1, (epoch _).2]
  exact ⟨rfl, rfl⟩

theorem hsbRun_alone {s : State} (h : paired s = false) : (hsbRun s).hsb.orig = true := by
  unfold hsbRun
  rw [if_neg (by rw [h]; exact Bool.false_ne_true)]
  rfl

/-- The state in which RUN has been entered. -/
structure InRun (s t : State) : Prop where
  oper : t.arb.oper = .run
  running : t.cyc.running = true
  t0 : t.cyc.t0 = some (firstDeparture s)
  pairs : ∀ n : Fin 4, s.doms[pairDom n].image ≠ none → s.doms[pairDom n].held = false → t.doms[pairDom n].run = true
  paired : paired s = true → t.hsb.orig = false ∧ t.sync.listening = true
  alone : Machine.paired s = false → t.hsb.orig = true

theorem kept_runEnd (s : State) : Kept [.voter, .hsb, .sync, .ps] s (hsbRun (wantLanes s)) := kept_hsbRun _ (kept_wantLanes s kept_refl (by decide)) (by decide)

theorem runEntered_still (src : Nat) (s : State) : (runEntered src s).arb.oper = .run := rfl

theorem mem_allDoms : ∀ d : DomId, d ∈ allDoms := by decide

theorem enterRun_inRun (src : Nat) (s : State) : InRun s (enterRun src s) := by
  have ended := kept_freightEnded s
  have tb : firstDeparture (freightEnded s) = firstDeparture s := by
    unfold firstDeparture
    rw [ended.only .cyc (by decide)]
  have doms : (runEntered src (freightEnded s)).doms = s.doms := (runEntered_doms src _).trans (ended.only .doms (by decide))
  have hsb : (runEntered src (freightEnded s)).hsb = s.hsb := (runEntered_hsb src _).trans (ended.only .hsb (by decide))
  have cyc := runEntered_cyc src (freightEnded s)
  have oper := runEntered_still src (freightEnded s)
  rw [enterRun_eq]
  generalize runEntered src (freightEnded s) = u at doms hsb cyc oper
  have started := started_foldl src (startable u) u
  have runs (n : Fin 4) (hi : s.doms[pairDom n].image ≠ none) (hh : s.doms[pairDom n].held = false) :
      ((startable u).foldl (fun s d => domRestart d false src s) u).doms[pairDom n].run = true := by
    refine starts_run src (startable u) ?_ u ⟨by rw [doms]; exact hh, ?_⟩
    · refine List.mem_filter.2 ⟨mem_allDoms _, ?_⟩
      rw [doms, hh, Option.isSome_iff_ne_none.2 hi]
      rfl
    · unfold nextImage
      rw [doms]
      split
      · exact Option.some_ne_none _
      · exact hi
  generalize (startable u).foldl (fun s d => domRestart d false src s) u = v at started runs
  have kept := kept_runEnd v
  have hsbSame : (wantLanes v).hsb = s.hsb := ((kept_wantLanes (ps0 := [.voter]) v kept_refl (by decide)).only .hsb (by decide)).trans (started.hsb.trans hsb)
  have same : Machine.paired (wantLanes v) = Machine.paired s := by
    unfold Machine.paired
    rw [hsbSame]
  refine ⟨?_, ?_, ?_, fun n hi hh => ?_, fun hp => hsbRun_paired (same.trans hp), fun hp => hsbRun_alone (same.trans hp)⟩
  · rw [kept.only .arb (by decide)]
    exact (congrArg Arb.oper started.arb :).trans oper
  · rw [kept.only .cyc (by decide), started.cyc, cyc]
  · rw [kept.only .cyc (by decide), started.cyc, cyc]
    exact congrArg some tb
  · rw [kept.only .doms (by decide)]
    exact runs n hi hh

/-! ## Requests (R472 to R484) -/

/-- The parts of the state that a request may change. -/
def modeParts : List Part := [.cyc, .cores, .doms, .pairs, .mem, .voter, .solvers, .rmus, .ixl, .conns, .ring, .rtm, .hsb, .sync, .mbx, .cim, .esc, .rtc, .ps, .power, .arb, .log, .freeCtr]

/-- A command that asks the Mode Arbiter for state `st` of dimension `dim`. -/
structure Asks (i : Instr) (src : ReqSrc) (dim st : Nat) : Prop where
  runs : ∀ s, exec i s = .next (maRequest src dim st s)
  leaves : ∀ s, Leaves modeParts s (exec i s)

theorem asks_of {i : Instr} {src : ReqSrc} {dim st : Nat} (h : (i = .reqOperRun src ∧ dim = 0 ∧ st = 1) ∨ (i = .reqOperStop src ∧ dim = 0 ∧ st = 0) ∨
    (i = .reqOperHold src ∧ dim = 0 ∧ st = 2) ∨ (i = .reqOperService src ∧ dim = 0 ∧ st = 4) ∨ (∃ d run, i = .reqRunState src d run ∧ dim = 0x10 + d.val ∧ st = bitOf run) ∨
    (∃ d v : BitVec 8, i = .reqNotRequestable src d v ∧ dim = d.toNat ∧ st = v.toNat)) : Asks i src dim st := by
  rcases h with ⟨rfl, rfl, rfl⟩ | ⟨rfl, rfl, rfl⟩ | ⟨rfl, rfl, rfl⟩ | ⟨rfl, rfl, rfl⟩ | ⟨d, run, rfl, rfl, rfl⟩ | ⟨d, v, rfl, rfl, rfl⟩
  · exact ⟨fun _ => rfl, leaves_reqOperRun src⟩
  · exact ⟨fun _ => rfl, leaves_reqOperStop src⟩
  · exact ⟨fun _ => rfl, leaves_reqOperHold src⟩
  · exact ⟨fun _ => rfl, leaves_reqOperService src⟩
  · exact ⟨fun _ => rfl, leaves_reqRunState src d run⟩
  · exact ⟨fun _ => rfl, leaves_reqNotRequestable src d v⟩

theorem maRequest_ignored {src : ReqSrc} {dim st : Nat} {s : State} (h : src ≠ .steward ∨ maBusy s = true) : maRequest src dim st s = s := by
  unfold maRequest modeRequest
  rcases h with h | h
  · exact if_neg h
  · rw [if_pos h]
    split <;> rfl

theorem maRequest_refused {dim st : Nat} {s : State} {e : Nat × String} (hb : maBusy s = false) (he : modeRefusal dim st s = some e) :
    maRequest .steward dim st s = { s with arb := { s.arb with reason := BitVec.ofNat 8 e.1, refused := true } } := by
  unfold maRequest modeRequest
  rw [if_pos rfl, if_neg (by rw [hb]; exact Bool.false_ne_true), he]

/-- The state in which a request has been admitted. -/
def admitted (s : State) : State := { s with arb := { s.arb with reason := 0, refused := false } }

theorem maRequest_admitted {dim st : Nat} {s : State} (hb : maBusy s = false) (he : modeRefusal dim st s = none) :
    maRequest .steward dim st s = modeAdmit dim st .steward (admitted s) := by
  unfold maRequest modeRequest
  rw [if_pos rfl, if_neg (by rw [hb]; exact Bool.false_ne_true), he]
  rfl

theorem sameState_admitted (dim st : Nat) (s : State) : sameState dim st (admitted s) = sameState dim st s := rfl

theorem modeAdmit_same {dim st : Nat} {s : State} (h : sameState dim st s = true) : modeAdmit dim st .steward s = s := if_pos h

/-- An operating request that waits. -/
def waitsFor (st : Nat) (s : State) : State :=
  { s with arb := { s.arb with pend := some { target := operOf st, cyc := deadlineCycle s, tick := s.cyc.tb + 1250, src := .steward, fault := false } } }

theorem modeAdmit_waits {st : Nat} {s : State} (h : sameState 0 st s = false) (ho : s.arb.oper = .run ∨ s.arb.oper = .hold) : modeAdmit 0 st .steward s = waitsFor st s := by
  unfold modeAdmit
  rw [if_neg (by rw [h]; exact Bool.false_ne_true), if_pos rfl]
  rcases ho with ho | ho <;> rw [ho] <;> rfl

theorem modeAdmit_run {s : State} (ho : s.arb.oper = .stop) : modeAdmit 0 1 .steward s = enterRun (srcCode .steward) s := by
  have h : sameState 0 1 s = false := by
    unfold sameState
    rw [ho]
    rfl
  unfold modeAdmit
  rw [if_neg (by rw [h]; exact Bool.false_ne_true), if_pos rfl, ho]
  rfl

theorem modeAdmit_service {s : State} (ho : s.arb.oper = .stop) : modeAdmit 0 4 .steward s = showGroups (setOper (srcCode .steward) .service s) := by
  have h : sameState 0 4 s = false := by
    unfold sameState
    rw [ho]
    rfl
  unfold modeAdmit
  rw [if_neg (by rw [h]; exact Bool.false_ne_true), if_pos rfl, ho]
  rfl

theorem modeAdmit_stop {s : State} (ho : s.arb.oper = .service) : modeAdmit 0 0 .steward s = showGroups (setOper (srcCode .steward) .stop s) := by
  have h : sameState 0 0 s = false := by
    unfold sameState
    rw [ho]
    rfl
  unfold modeAdmit
  rw [if_neg (by rw [h]; exact Bool.false_ne_true), if_pos rfl, ho]
  rfl

theorem runDim (d : DomId) : (Fin.ofNat 6 (0x10 + d.val - 0x10) : DomId) = d := Fin.ext (by show (16 + d.val - 16) % 6 = d.val; omega)

/-- A run state's STOP that waits. -/
def stopAsked (d : DomId) (s : State) : State :=
  { s with arb := { s.arb with domStop := Sys2Proof.Machine.setBit s.arb.domStop d.val true, domStopCyc := s.arb.domStopCyc.set d (stopCycle d s) } }

theorem modeAdmit_domain {d : DomId} {st : Nat} {s : State} (h : sameState (0x10 + d.val) st s = false) : modeAdmit (0x10 + d.val) st .steward s =
    if st = 1 then domRestart d false (srcCode .steward) s else stopAsked d s := by
  unfold modeAdmit
  rw [if_neg (by rw [h]; exact Bool.false_ne_true), if_neg (by omega)]
  show (if st = 1 then domRestart (Fin.ofNat 6 (0x10 + d.val - 0x10)) false (srcCode .steward) s else stopAsked (Fin.ofNat 6 (0x10 + d.val - 0x10)) s) = _
  rw [runDim]

theorem seen_showGroups_arb (s : State) : still (showGroups s).arb = still s.arb := by
  have groups (l : List (Fin 2)) (s : State) : Seen s (l.foldl (fun s g =>
      let m := if s.doms[groupDom g].image.isSome then startMembers s else 0
      if s.voter.grp[g].members = m then s else setMembers 2 g m s) s) := by
    refine seen_foldl (fun s g => ?_) l s
    dsimp only
    split
    · split
      · exact .refl s
      · exact seen_setMembers _ _ _ s
    · split
      · exact .refl s
      · exact seen_setMembers _ _ _ s
  unfold showGroups
  split
  · exact (groups allGroups s).arb
  · rfl

/-- A request that is granted at once leaves its state, and no refusal. -/
theorem showGroups_oper (src : Nat) (o : Oper) (s : State) : (showGroups (setOper src o (admitted s))).arb.oper = o ∧ (showGroups (setOper src o (admitted s))).arb.refused = false := by
  have h := seen_showGroups_arb (setOper src o (admitted s))
  refine ⟨(congrArg Arb.oper h :), (congrArg Arb.refused h :).trans ?_⟩
  have trans := transition_still src 0 0 (admitted s).arb.oper.code o.code (admitted s)
  exact (congrArg Arb.refused trans :)

/-- A pair's start by request is admitted only when it is loaded and not held. -/
theorem modeRefusal_start {n : Fin 4} {s : State} (hs : sameState (0x10 + (pairDom n).val) 1 s = false) (h : modeRefusal (0x10 + (pairDom n).val) 1 s = none) :
    s.doms[pairDom n].held = false ∧ s.doms[pairDom n].image ≠ none := by
  have hn := (pairDom n).isLt
  have dims : ¬dimStates (0x10 + (pairDom n).val) ≤ 1 := by
    have : ∀ d : DomId, ¬dimStates (0x10 + d.val) ≤ 1 := by decide
    exact this _
  unfold modeRefusal at h
  rw [if_neg dims, if_neg (by simp; omega), if_neg (by simp), if_neg (by rw [hs]; exact Bool.false_ne_true), if_neg (by omega), runDim] at h
  unfold runStateRefusal at h
  dsimp only at h
  split at h
  · exact absurd h (Option.some_ne_none _)
  split at h
  · exact absurd h (Option.some_ne_none _)
  split at h
  · exact absurd h (Option.some_ne_none _)
  split at h
  · exact absurd h (Option.some_ne_none _)
  split at h
  · exact absurd h (Option.some_ne_none _)
  next loaded =>
    split at h
    · exact absurd h (Option.some_ne_none _)
    next free =>
      refine ⟨?_, fun e => loaded (by rw [e]; rfl)⟩
      cases held : s.doms[pairDom n].held with
      | false => rfl
      | true => exact absurd (by rw [held]; rfl) free

/-- Settles O48: other senders and a busy arbiter are ignored, the first reason refuses, and what is admitted enters RUN, SERVICE or STOP, starts a pair, or waits. -/
theorem modeRequestsAreRefusedOrAdmitted : Obligations.ModeRequestsAreRefusedOrAdmitted := by
  intro s i src dim st h
  obtain ⟨runs, leaves⟩ := asks_of h
  clear h
  refine ⟨fun h => (runs s).trans (congrArg Host.Outcome.next (maRequest_ignored h)), ?_⟩
  rintro rfl hb
  refine ⟨fun e he => (runs s).trans (congrArg Host.Outcome.next (maRequest_refused hb he)), fun he => ?_⟩
  have run : exec i s = .next (modeAdmit dim st .steward (admitted s)) := (runs s).trans (congrArg Host.Outcome.next (maRequest_admitted hb he))
  refine ⟨fun hs => ?_, fun hs hd ho => ?_, fun ho hd hst => ?_, fun ho hd hst => ?_, fun ho hd hst => ?_, fun d hd hs hst => ?_, fun n hd hs hst => ?_⟩
  · rw [run, modeAdmit_same (s := admitted s) hs]
    rfl
  · subst hd
    rw [run, modeAdmit_waits (s := admitted s) hs ho]
    rfl
  · subst hd hst
    rw [modeAdmit_service (s := admitted s) ho] at run
    exact gives_of_leaves (leaves s) run (showGroups_oper _ _ s)
  · subst hd hst
    rw [modeAdmit_stop (s := admitted s) ho] at run
    exact gives_of_leaves (leaves s) run (showGroups_oper _ _ s)
  · subst hd hst
    rw [modeAdmit_run (s := admitted s) ho] at run
    obtain ⟨oper, running, t0, pairs, two, one⟩ := enterRun_inRun (srcCode .steward) (admitted s)
    exact gives_of_leaves (leaves s) run ⟨oper, running, t0, pairs, two, one⟩
  · subst hd hst
    rw [run, modeAdmit_domain (s := admitted s) hs]
    rfl
  · subst hst
    have hn : 0x10 + n.val = 0x10 + (pairDom n).val := by
      have : ∀ n : Fin 4, n.val = (pairDom n).val := by decide
      rw [this n]
    rw [hn] at hd
    subst hd
    obtain ⟨held, image⟩ := modeRefusal_start hs he
    rw [modeAdmit_domain (s := admitted s) hs, if_pos rfl] at run
    have next : nextImage (pairDom n) (admitted s) ≠ none := by
      unfold nextImage
      split
      · exact Option.some_ne_none _
      · exact image
    have done := domRestart_restarted (s := admitted s) held next false (srcCode .steward)
    have same : restartReason n false (admitted s) = restartReason n false s := restartReason_congr false rfl rfl rfl rfl rfl rfl
    exact gives_of_leaves (leaves s) run ⟨done.run, done.reason.trans (by rw [same])⟩

end Sys2Proof.Proofs
end

section
/-! SUPPORT. Entry to STOP (R477). -/

namespace Sys2Proof.Proofs
open Sys2Proof.Machine Sys2Proof.Safety Sys2Proof.Laws
set_option Elab.async false

/-! ## What leaves domains at rest -/

/-- Which domains run and which pairs have stopped stays; the arbiter has only recorded transitions. -/
structure Rested (s t : State) : Prop where
  run : ∀ d : DomId, t.doms[d].run = s.doms[d].run
  pstop : ∀ d : DomId, t.doms[d].pstop = s.doms[d].pstop
  arb : still t.arb = still s.arb

theorem Rested.refl (s : State) : Rested s s := ⟨fun _ => rfl, fun _ => rfl, rfl⟩
theorem Rested.trans {s t u : State} (h : Rested s t) (k : Rested t u) : Rested s u :=
  ⟨fun d => (k.run d).trans (h.run d), fun d => (k.pstop d).trans (h.pstop d), k.arb.trans h.arb⟩

theorem Seen.rested {s t : State} (h : Seen s t) : Rested s t :=
  ⟨fun d => (congrArg Dom.run (h.doms d) :), fun d => (congrArg Dom.pstop (h.doms d) :), h.arb⟩

theorem rested_modDom (d : DomId) (f : Dom → Dom) (s : State) (h : (f s.doms[d]).run = s.doms[d].run ∧ (f s.doms[d]).pstop = s.doms[d].pstop) : Rested s (modDom d f s) := by
  refine ⟨fun e => ?_, fun e => ?_, rfl⟩ <;> by_cases he : e = d
  · subst he
    rw [modDom_same, h.1]
  · rw [modDom_other _ _ _ _ he]
  · subst he
    rw [modDom_same, h.2]
  · rw [modDom_other _ _ _ _ he]

theorem rested_reintEnd (result : Byte) (s : State) : Rested s (reintEnd result s) := by
  have leave (l : Fin 3) (s : State) (g : Fin 2) : Rested s (leaveGroup l s g) := by
    rcases leaveGroup_cases l s g with e | e <;> rw [e]
    · exact .refl s
    · have stop (t : State) : Rested t (stopCore (laneCore l g) t) := ⟨fun _ => rfl, fun _ => rfl, rfl⟩
      have group : Rested s (modGroup g (leftGroup l) s) := ⟨fun _ => rfl, fun _ => rfl, rfl⟩
      exact group.trans ((stop _).trans (rested_modDom _ _ _ ⟨rfl, rfl⟩))
  have close (l : Fin 3) (off : Bool) (s : State) : Rested s (reintClose result l off s) := by
    cases off <;> exact ⟨fun _ => rfl, fun _ => rfl, rfl⟩
  by_cases h : s.voter.reint.phase = 0
  · rw [reintEnd_idle result h]
    exact .refl s
  · rw [reintEnd_eq result h]
    exact ((leave _ s 0).trans (leave _ _ 1)).trans (close _ _ _)

theorem still_of_hsb (s : State) (h : Hsb) : still ({ s with hsb := h } : State).arb = still s.arb := rfl

theorem rested_setRole (r : Role) (s : State) : Rested s (setRole r s) := by
  have doms := (kept_setRole (ps0 := [.hsb, .arb, .log]) r s kept_refl (by decide)).only .doms (by decide)
  refine ⟨fun d => by rw [doms], fun d => by rw [doms], ?_⟩
  unfold setRole
  split
  · rfl
  · exact transition_still 2 0 2 s.hsb.role.code r.code s

theorem seen_showGroups (s : State) : Seen s (showGroups s) where
  doms d := by rw [(kept_showGroups (ps0 := [.voter, .arb]) s kept_refl (by decide)).only .doms (by decide)]
  arb := seen_showGroups_arb s

theorem setOper_still (src : Nat) (o : Oper) (s : State) : still (setOper src o s).arb = { still s.arb with oper := o } := by
  have h := transition_still src 0 0 s.arb.oper.code o.code s
  show { still (transition src 0 0 s.arb.oper.code o.code s).arb with oper := o } = _
  rw [h]

/-- A STOP that has been answered: the waiting commands end, and the arbiter stands still. -/
theorem refusePending_still (code : Byte) (name : String) {s : State} (h : s.arb.domStop ≠ 0) :
    still (refusePending code name s).arb = { still s.arb with pend := none, domStop := 0, reason := code, refused := true } := by
  have fin (l : List CmdRef) (t : State) : Seen t (l.foldl (fun s c => finishRefused c code.toNat name s) t) := seen_foldl (fun s c => seen_finish c _ _ _ s) l t
  unfold refusePending
  rw [if_neg (by rw [beq_false_of_ne h, Bool.and_false]; exact Bool.false_ne_true)]
  exact (fin _ _).arb

theorem refusePending_doms (code : Byte) (name : String) (s : State) : (refusePending code name s).doms = s.doms :=
  (kept_refusePending (ps0 := [.sync, .mbx, .arb]) code name s kept_refl (by decide)).only .doms (by decide)

/-! ## A pair and a group leave RUN (R477) -/

/-- A pair that stops by command, before its run state changes. -/
def commandStopped (n : Fin 4) (s : State) : State :=
  let t := changeLeave (pairDom n) (sealArea n (abandonTasks (pairDom n) (abortSolvers (pairDom n) s)))
  stopCore (pairCore n) (modDom (pairDom n) (fun x => { x with
    commit := failImage (pairDom n) t, published := failImage (pairDom n) t, pstop := true, rptSent := false, ovrRun := 0, stopDue := false }) t)

theorem pairCommandStop_idle {n : Fin 4} {s : State} (h : s.doms[pairDom n].run = false) (src : Nat) : pairCommandStop n src s = s := if_pos (by rw [h]; rfl)

theorem pairCommandStop_eq {n : Fin 4} {s : State} (h : s.doms[pairDom n].run = true) (src : Nat) : pairCommandStop n src s = setRun src (pairDom n) false (commandStopped n s) :=
  if_neg (by rw [h]; exact Bool.false_ne_true)

theorem turned_sealArea (n : Fin 4) (s : State) : Turned (pairDom n) s (sealArea n s) where
  others e he := by rw [sealArea_other he]
  arb := by rw [(kept_sealArea (ps0 := [.doms]) n s kept_refl (by decide)).only .arb (by decide)]

theorem turned_stopCore (d : DomId) (c : CoreId) (s : State) : Turned d s (stopCore c s) := ⟨fun _ _ => rfl, rfl⟩

theorem turned_commandStopped (n : Fin 4) (s : State) : Turned (pairDom n) s (commandStopped n s) := by
  unfold commandStopped
  dsimp only
  refine Turned.trans ?_ (turned_stopCore _ _ _)
  refine Turned.trans ?_ (turned_modDom _ _ _)
  exact (((seen_abortSolvers _ s).turned _).trans (turned_modDom (pairDom n) _ _)).trans ((turned_sealArea n _).trans (turned_changeLeave _ _))

theorem stopCore_doms (c : CoreId) (s : State) : (stopCore c s).doms = s.doms := rfl

theorem commandStopped_pstop (n : Fin 4) (s : State) : (commandStopped n s).doms[pairDom n].pstop = true := by
  unfold commandStopped
  dsimp only
  rw [stopCore_doms, modDom_same]

theorem turned_pairCommandStop (n : Fin 4) (src : Nat) (s : State) : Turned (pairDom n) s (pairCommandStop n src s) := by
  cases h : s.doms[pairDom n].run with
  | false =>
    rw [pairCommandStop_idle h]
    exact .refl _ s
  | true =>
    rw [pairCommandStop_eq h]
    exact (turned_commandStopped n s).trans (turned_setRun _ _ _ _)

theorem pairCommandStop_run (n : Fin 4) (src : Nat) (s : State) : (pairCommandStop n src s).doms[pairDom n].run = false := by
  cases h : s.doms[pairDom n].run with
  | false => rw [pairCommandStop_idle h, h]
  | true => rw [pairCommandStop_eq h, setRun_dom]

theorem pairCommandStop_pstop (n : Fin 4) (src : Nat) {s : State} (h : s.doms[pairDom n].run = true ∨ s.doms[pairDom n].pstop = true) :
    (pairCommandStop n src s).doms[pairDom n].pstop = true := by
  cases hr : s.doms[pairDom n].run with
  | false =>
    rw [pairCommandStop_idle hr]
    exact h.resolve_left (by rw [hr]; exact Bool.false_ne_true)
  | true =>
    rw [pairCommandStop_eq hr, setRun_dom]
    exact commandStopped_pstop n s

/-- A group that halts, before its run state changes. -/
def groupHalted (g : Fin 2) (s : State) : State :=
  modGroup g (fun v => { v with
      vp := none, voted := [], candGot := [], cand := 0, withheld := 0, mute := 0, lastEoc := false, queue := []
      tels := v.tels.map fun t => { t with telegram := [] } })
    (allLanes.foldl (fun s l => stopCore (laneCore l g) s) (changeLeave (groupDom g) (safetyOff g (abandonTasks (groupDom g) (abortSolvers (groupDom g) s)))))

theorem groupHalt_idle {g : Fin 2} {s : State} (h : s.doms[groupDom g].run = false) (src : Nat) : groupHalt g src s = s := if_pos (by rw [h]; rfl)

theorem groupHalt_eq {g : Fin 2} {s : State} (h : s.doms[groupDom g].run = true) (src : Nat) : groupHalt g src s = setRun src (groupDom g) false (groupHalted g s) :=
  if_neg (by rw [h]; exact Bool.false_ne_true)

theorem turned_groupHalted (g : Fin 2) (s : State) : Turned (groupDom g) s (groupHalted g s) := by
  have lanes (l : List (Fin 3)) (t : State) : Seen t (l.foldl (fun s l => stopCore (laneCore l g) s) t) := by
    refine seen_foldl (fun s l => ?_) l t
    exact ⟨fun _ => rfl, rfl⟩
  have group (f : Group → Group) (t : State) : Seen t (modGroup g f t) := ⟨fun _ => rfl, rfl⟩
  unfold groupHalted
  refine Turned.trans ?_ (((lanes _ _).trans (group _ _)).turned _)
  exact (((seen_abortSolvers _ s).turned _).trans (turned_modDom (groupDom g) _ _)).trans ((turned_modDom (groupDom g) _ _).trans (turned_changeLeave _ _))

theorem turned_groupHalt (g : Fin 2) (src : Nat) (s : State) : Turned (groupDom g) s (groupHalt g src s) := by
  cases h : s.doms[groupDom g].run with
  | false =>
    rw [groupHalt_idle h]
    exact .refl _ s
  | true =>
    rw [groupHalt_eq h]
    exact (turned_groupHalted g s).trans (turned_setRun _ _ _ _)

theorem groupHalt_run (g : Fin 2) (src : Nat) (s : State) : (groupHalt g src s).doms[groupDom g].run = false := by
  cases h : s.doms[groupDom g].run with
  | false => rw [groupHalt_idle h, h]
  | true => rw [groupHalt_eq h, setRun_dom]

/-! ## STOP (R477) -/

/-- Every pair leaves RUN. -/
def pairsStopped (src : Nat) (s : State) : State := allPairs.foldl (fun s n => pairCommandStop n src s) s

/-- Both groups leave RUN. -/
def groupsHalted (src : Nat) (s : State) : State := allGroups.foldl (fun s g => groupHalt g src s) s

theorem run_of_shown {x y : Dom} (h : shown x = shown y) : x.run = y.run := (congrArg Dom.run h :)
theorem pstop_of_shown {x y : Dom} (h : shown x = shown y) : x.pstop = y.pstop := (congrArg Dom.pstop h :)

theorem Turned.run {d : DomId} {s t : State} (h : Turned d s t) {e : DomId} (he : e ≠ d) : t.doms[e].run = s.doms[e].run := (congrArg Dom.run (h.others e he) :)
theorem Turned.pstop {d : DomId} {s t : State} (h : Turned d s t) {e : DomId} (he : e ≠ d) : t.doms[e].pstop = s.doms[e].pstop := (congrArg Dom.pstop (h.others e he) :)

theorem pairsStopped_run (src : Nat) (n : Fin 4) (s : State) : (pairsStopped src s).doms[pairDom n].run = false := by
  refine foldl_reaches (f := fun s n => pairCommandStop n src s) (P := fun _ => True) (Q := fun s => s.doms[pairDom n].run = false) (x := n) (fun _ _ _ => trivial) (fun s m _ hr => ?_)
    (fun s _ => pairCommandStop_run n src s) allPairs s trivial (.inl (mem_allPairs n))
  by_cases h : pairDom n = pairDom m
  · obtain rfl := pairDom_injective n m h
    exact pairCommandStop_run n src s
  · exact ((turned_pairCommandStop m src s).run h).trans hr

theorem pairsStopped_pstop (src : Nat) (n : Fin 4) {s : State} (h : s.doms[pairDom n].run = true) : (pairsStopped src s).doms[pairDom n].pstop = true := by
  have step (s : State) (m : Fin 4) (h : s.doms[pairDom n].run = true ∨ s.doms[pairDom n].pstop = true) :
      (pairCommandStop m src s).doms[pairDom n].run = true ∨ (pairCommandStop m src s).doms[pairDom n].pstop = true := by
    by_cases hm : pairDom n = pairDom m
    · obtain rfl := pairDom_injective n m hm
      exact .inr (pairCommandStop_pstop n src h)
    · rw [(turned_pairCommandStop m src s).run hm, (turned_pairCommandStop m src s).pstop hm]
      exact h
  have all : ∀ (l : List (Fin 4)) (s : State), s.doms[pairDom n].run = true ∨ s.doms[pairDom n].pstop = true →
      (l.foldl (fun s n => pairCommandStop n src s) s).doms[pairDom n].run = true ∨ (l.foldl (fun s n => pairCommandStop n src s) s).doms[pairDom n].pstop = true := by
    intro l
    induction l with
    | nil => exact fun s h => h
    | cons m l ih => exact fun s h => ih _ (step s m h)
  refine (all allPairs s (.inl h)).resolve_left fun hr => ?_
  exact absurd ((pairsStopped_run src n s).symm.trans hr) Bool.false_ne_true

theorem pairsStopped_arb (src : Nat) (s : State) : still (pairsStopped src s).arb = still s.arb := by
  have all : ∀ (l : List (Fin 4)) (s : State), still (l.foldl (fun s n => pairCommandStop n src s) s).arb = still s.arb := by
    intro l
    induction l with
    | nil => exact fun _ => rfl
    | cons m l ih => exact fun s => (ih _).trans (turned_pairCommandStop m src s).arb
  exact all allPairs s

/-- The groups' halt leaves the pairs. -/
theorem groupsHalted_pair (src : Nat) (n : Fin 4) (s : State) : shown (groupsHalted src s).doms[pairDom n] = shown s.doms[pairDom n] :=
  ((turned_groupHalt 1 src _).others _ (pairDom_ne_groupDom n 1).symm).trans ((turned_groupHalt 0 src s).others _ (pairDom_ne_groupDom n 0).symm)

theorem groupsHalted_run (src : Nat) (g : Fin 2) (s : State) : (groupsHalted src s).doms[groupDom g].run = false := by
  show (groupHalt 1 src (groupHalt 0 src s)).doms[groupDom g].run = false
  rcases (by omega : g = 0 ∨ g = 1) with rfl | rfl
  · exact ((turned_groupHalt 1 src _).run (by decide)).trans (groupHalt_run 0 src s)
  · exact groupHalt_run 1 src _

theorem groupsHalted_arb (src : Nat) (s : State) : still (groupsHalted src s).arb = still s.arb := (turned_groupHalt 1 src _).arb.trans (turned_groupHalt 0 src s).arb

/-- Outputs and permits are off, and a reintegration has ended. -/
def stopQuiet (s : State) : State := reintEnd 0x07 (permitsOff (safetyOff 0 (safetyOff 1 s)))

theorem rested_stopQuiet (s : State) : Rested s (stopQuiet s) := by
  have permits (t : State) : Rested t (permitsOff t) := ⟨fun _ => rfl, fun _ => rfl, rfl⟩
  exact ((rested_modDom (groupDom 1) _ s ⟨rfl, rfl⟩).trans (rested_modDom (groupDom 0) _ _ ⟨rfl, rfl⟩)).trans ((permits _).trans (rested_reintEnd 0x07 _))

theorem stopQuiet_permit (s : State) (g : GroupId) : (stopQuiet s).fg[g].permitOn = false := by
  unfold stopQuiet
  rw [(kept_reintEnd (ps0 := [.cores, .doms, .voter, .boot, .log]) 0x07 _ kept_refl (by decide)).only .fg (by decide)]
  exact permitsOff_fg _ g

/-- A primary announces that it stops. -/
def stopTold (s : State) : State := if s.hsb.role == .primary then sendRelinquish (s.cyc.count + 1) s else s

theorem kept_stopTold (s : State) : Kept [.sync] s (stopTold s) := by
  unfold stopTold
  split
  · exact kept_sendRelinquish _ _ kept_refl (by decide)
  · exact kept_refl

/-- The pair's link rests. -/
def linkRests (s : State) : State := modSync (fun l => { l with listening := false, resync := { l.resync with state := 0, failedAt := none } }) (setRole .alone s)

theorem kept_linkRests (s : State) : Kept [.hsb, .sync, .arb, .log] s (linkRests s) := kept_modSync _ _ (kept_setRole .alone s kept_refl (by decide)) (by decide)

theorem rested_linkRests (s : State) : Rested s (linkRests s) := (rested_setRole .alone s).trans ⟨fun _ => rfl, fun _ => rfl, rfl⟩

/-- The operating state STOP, with its last train noted. -/
def stopNoted (src : Nat) (s : State) : State := { setOper src .stop s with arb := { (setOper src .stop s).arb with lastTrain := true } }

/-- What entry to STOP does once no domain runs. -/
def stopRest (src : Nat) (s : State) : State := showGroups (stopNoted src (linkRests (stopTold (stopQuiet s))))

theorem enterStop_eq (src : Nat) (s : State) : enterStop src s = stopRest src (groupsHalted src (pairsStopped src s)) := by
  unfold enterStop groupsHalted pairsStopped
  generalize allPairs.foldl (fun s n => pairCommandStop n src s) s = t
  dsimp only
  generalize allGroups.foldl (fun s g => groupHalt g src s) t = u
  rfl

/-- What entry to STOP leaves. -/
structure InStop (s t : State) : Prop where
  arb : still t.arb = { still s.arb with oper := .stop, lastTrain := true }
  run : ∀ d : DomId, t.doms[d].run = false
  role : t.hsb.role = .alone
  listening : t.sync.listening = false
  permit : ∀ g : GroupId, t.fg[g].permitOn = false
  pstop : ∀ n : Fin 4, s.doms[pairDom n].run = true → t.doms[pairDom n].pstop = true

theorem pair_or_group : ∀ d : DomId, (∃ n : Fin 4, d = pairDom n) ∨ ∃ g : Fin 2, d = groupDom g := by decide

theorem enterStop_inStop (src : Nat) (s : State) : InStop s (enterStop src s) := by
  have runs (d : DomId) : (groupsHalted src (pairsStopped src s)).doms[d].run = false := by
    rcases pair_or_group d with ⟨n, rfl⟩ | ⟨g, rfl⟩
    · exact (run_of_shown (groupsHalted_pair src n (pairsStopped src s))).trans (pairsStopped_run src n s)
    · exact groupsHalted_run src g (pairsStopped src s)
  have stops (n : Fin 4) (h : s.doms[pairDom n].run = true) : (groupsHalted src (pairsStopped src s)).doms[pairDom n].pstop = true :=
    (pstop_of_shown (groupsHalted_pair src n (pairsStopped src s))).trans (pairsStopped_pstop src n h)
  have arb : still (groupsHalted src (pairsStopped src s)).arb = still s.arb := (groupsHalted_arb src (pairsStopped src s)).trans (pairsStopped_arb src s)
  rw [enterStop_eq]
  unfold stopRest
  generalize groupsHalted src (pairsStopped src s) = t at runs stops arb
  have permit := stopQuiet_permit t
  have told : Rested (stopQuiet t) (stopTold (stopQuiet t)) := (seen_of_kept (kept_stopTold (stopQuiet t)) (by decide) (by decide)).rested
  have rested := ((rested_stopQuiet t).trans told).trans (rested_linkRests _)
  have fg : (linkRests (stopTold (stopQuiet t))).fg = (stopQuiet t).fg := ((kept_linkRests _).only .fg (by decide)).trans ((kept_stopTold _).only .fg (by decide))
  have role : (linkRests (stopTold (stopQuiet t))).hsb.role = .alone := setRole_role .alone _
  have listening : (linkRests (stopTold (stopQuiet t))).sync.listening = false := rfl
  generalize linkRests (stopTold (stopQuiet t)) = u at rested fg role listening
  have noted : Kept [.arb] u (stopNoted src u) := kept_upd_arb (kept_setOper _ _ u kept_refl (by decide)) (by decide)
  have kept : Kept [.voter, .arb] u (showGroups (stopNoted src u)) := kept_showGroups _ (kept_mono noted (by decide)) (by decide)
  refine ⟨?_, fun d => ?_, ?_, ?_, fun g => ?_, fun n h => ?_⟩
  · rw [seen_showGroups_arb]
    have oper := setOper_still src .stop u
    show { still (setOper src .stop u).arb with lastTrain := true } = _
    rw [oper, rested.arb, arb]
  · rw [kept.only .doms (by decide), rested.run d, runs d]
  · rw [kept.only .hsb (by decide)]
    exact role
  · rw [kept.only .sync (by decide)]
    exact listening
  · rw [kept.only .fg (by decide), fg]
    exact permit g
  · rw [kept.only .doms (by decide), rested.pstop (pairDom n), stops n h]

end Sys2Proof.Proofs
end

section
/-! SUPPORT. STOP, HOLD, the return from HOLD, a domain's STOP and a pair's restart (R60, R474 to R480). -/

namespace Sys2Proof.Proofs
open Sys2Proof.Machine Sys2Proof.Safety Sys2Proof.Laws
set_option Elab.async false

/-! ## Answers leave the pair's link listening as it was -/

theorem sendDatagram_listening (i : Fin 5) (car : Carrier) (header : List Byte) (off : Nat) (blk : List Byte) (s : State) :
    (sendDatagram i car header off blk s).sync.listening = s.sync.listening := by
  have sess (j : Fin 5) (f : Session → Session) (t : State) : (modSess j f t).sync = t.sync := by
    rw [modSess_rest]
  cases car with
  | foreign => rfl
  | sync => rfl
  | x6 ip port => exact congrArg SyncLink.listening (sess i _ s)
  | x6Fragment ip port id off more => exact congrArg SyncLink.listening (sess i _ s)
  | freight => exact congrArg SyncLink.listening (sess i _ s)

theorem foldl_listening {α : Type} {f : State → α → State} (h : ∀ s a, (f s a).sync.listening = s.sync.listening) (l : List α) (s : State) :
    (l.foldl f s).sync.listening = s.sync.listening := by
  induction l generalizing s with
  | nil => rfl
  | cons a l ih => exact (ih (f s a)).trans (h s a)

theorem finishCode_listening (r : CmdRef) (st : BitVec 16) (detail : Nat) (data : List Byte) (s : State) : (finishCode r st detail data s).sync.listening = s.sync.listening := by
  cases h : slotOf r s with
  | none =>
    unfold finishCode
    rw [h]
    rfl
  | some x =>
    have sess (f : Session → Session) : (modSess r.sess f s).sync.listening = s.sync.listening := by rw [modSess_rest]
    rw [finishCode_eq h]
    dsimp only
    split
    · exact sess _
    · exact (foldl_listening (fun s b => sendDatagram_listening _ _ _ _ _ s) _ _).trans (sess _)

theorem modeDone_listening (s : State) : (modeDone s).sync.listening = s.sync.listening := foldl_listening (fun s c => finishCode_listening c _ _ _ s) _ s

theorem refusePending_listening (code : Byte) (name : String) (s : State) : (refusePending code name s).sync.listening = s.sync.listening := by
  unfold refusePending
  split
  · rfl
  · exact foldl_listening (fun s c => finishCode_listening c _ _ _ s) _ _

/-! ## STOP takes effect (R477) -/

/-- No request stands in the arbiter's register. -/
def unpended (s : State) : State := { s with arb := { s.arb with pend := none } }

/-- Who a pending request came from. -/
def pendSrc (p : OperPend) : Nat := if p.fault then 1 else srcCode p.src

/-- After entry to STOP the waiting commands end; a run state's STOP that still waits is refused. -/
def stopAnswered (s : State) : State := if s.arb.domStop = 0 then modeDone s else refusePending 0x0E "FROM_STATE" s

theorem stopEffect_run {p : OperPend} {s : State} (hp : s.arb.pend = some p) (ht : p.target = .stop) (hd : pastDeadline p.cyc s = true) :
    exec .stopEffect s = .next (stopAnswered (enterStop (pendSrc p) (unpended s))) := by
  refine congrArg Host.Outcome.next ?_
  dsimp only
  rw [hp]
  dsimp only
  refine (if_neg (by rw [ht, hd]; exact Bool.false_ne_true)).trans ?_
  unfold pendSrc unpended
  dsimp only
  generalize enterStop _ _ = u
  rfl

theorem kept_modeDone' (s : State) : Kept [.sync, .mbx] s (modeDone s) := kept_modeDone s kept_refl (List.Subset.refl _)
theorem kept_refusePending' (code : Byte) (name : String) (s : State) : Kept [.sync, .mbx, .arb] s (refusePending code name s) := kept_refusePending code name s kept_refl (List.Subset.refl _)

theorem modeDone_still (s : State) : still (modeDone s).arb = still s.arb := by rw [(kept_modeDone' s).only .arb (by decide)]

/-- The arbiter when the answers have gone out: no run state's STOP waits. -/
theorem stopAnswered_arb {s : State} (h : s.arb.pend = none) : (stopAnswered s).arb.oper = s.arb.oper ∧ (stopAnswered s).arb.pend = none ∧ (stopAnswered s).arb.domStop = 0 ∧
    (stopAnswered s).arb.lastTrain = s.arb.lastTrain := by
  unfold stopAnswered
  split
  next h0 =>
    have arb := modeDone_still s
    generalize (modeDone s).arb = a at arb
    exact ⟨(congrArg Arb.oper arb :), (congrArg Arb.pend arb :).trans h, (congrArg Arb.domStop arb :).trans h0, (congrArg Arb.lastTrain arb :)⟩
  next h0 =>
    have arb := refusePending_still 0x0E "FROM_STATE" h0
    generalize (refusePending 0x0E "FROM_STATE" s).arb = a at arb
    exact ⟨(congrArg Arb.oper arb :), (congrArg Arb.pend arb :), (congrArg Arb.domStop arb :), (congrArg Arb.lastTrain arb :)⟩

theorem stopAnswered_rest (s : State) : Kept [.sync, .mbx, .arb] s (stopAnswered s) := by
  unfold stopAnswered
  split
  · exact kept_mono (kept_modeDone' s) (by decide)
  · exact kept_refusePending' _ _ s

theorem stopAnswered_listening (s : State) : (stopAnswered s).sync.listening = s.sync.listening := by
  unfold stopAnswered
  split
  · exact modeDone_listening s
  · exact refusePending_listening _ _ s

theorem stopEffect_row {p : OperPend} {s : State} (hp : s.arb.pend = some p) (ht : p.target = .stop) (hd : pastDeadline p.cyc s = true) :
    Gives .stopEffect s [.cores, .doms, .voter, .solvers, .hsb, .sync, .fg, .mbx, .boot, .arb, .log] fun t => t.arb.oper = .stop ∧ t.arb.pend = none ∧ t.arb.domStop = 0 ∧
      (∀ d : DomId, t.doms[d].run = false) ∧ t.hsb.role = .alone ∧ t.sync.listening = false ∧ t.arb.lastTrain = true ∧ (∀ g : GroupId, t.fg[g].permitOn = false) ∧
      ∀ n : Fin 4, s.doms[pairDom n].run = true → t.doms[pairDom n].pstop = true := by
  refine gives_of_leaves (leaves_stopEffect s) (stopEffect_run hp ht hd) ?_
  have inStop := enterStop_inStop (pendSrc p) (unpended s)
  generalize enterStop (pendSrc p) (unpended s) = u at inStop
  obtain ⟨arb, run, role, listening, permit, pstop⟩ := inStop
  obtain ⟨oper, pend, domStop, lastTrain⟩ := stopAnswered_arb (s := u) (congrArg Arb.pend arb :)
  have kept := stopAnswered_rest u
  refine ⟨oper.trans (congrArg Arb.oper arb :), pend, domStop, fun d => ?_, ?_, (stopAnswered_listening u).trans listening, lastTrain.trans (congrArg Arb.lastTrain arb :),
    fun g => ?_, fun n hn => ?_⟩
  · rw [kept.only .doms (by decide)]
    exact run d
  · rw [kept.only .hsb (by decide)]
    exact role
  · rw [kept.only .fg (by decide)]
    exact permit g
  · rw [kept.only .doms (by decide)]
    exact pstop n hn

/-! ## HOLD takes effect (R479) -/

/-- Neither the task of a core nor what it waits for has changed. -/
def TasksKept (s t : State) : Prop := ∀ c : CoreId, t.cores[c].task = s.cores[c].task ∧ t.cores[c].hold = s.cores[c].hold

theorem tasksKept_of_eq {s t : State} (h : t.cores = s.cores) : TasksKept s t := fun c => by rw [h]; exact ⟨rfl, rfl⟩

theorem TasksKept.trans {s t u : State} (h : TasksKept s t) (k : TasksKept t u) : TasksKept s u := fun c => ⟨(k c).1.trans (h c).1, (k c).2.trans (h c).2⟩

theorem tasksKept_modCore (c : CoreId) (f : Core → Core) (s : State) (hf : ∀ k, (f k).task = k.task ∧ (f k).hold = k.hold) : TasksKept s (modCore c f s) := by
  intro k
  by_cases hk : k = c
  · subst hk
    rw [modCore_same]
    exact hf _
  · rw [modCore_other hk]
    exact ⟨rfl, rfl⟩

theorem tasksKept_lsRelease (i : Fin 5) (k : Fin 2) (s : State) : TasksKept s (lsRelease i k s) := by
  unfold lsRelease
  split
  · exact tasksKept_of_eq rfl
  · exact tasksKept_modCore _ _ s fun _ => ⟨rfl, rfl⟩

theorem tasksKept_lsEnded (i : Fin 5) (k : Fin 2) (s : State) : TasksKept s (lsEnded i k s) := by
  have start (t : State) : TasksKept t (startQueued i (otherQ k) t) := tasksKept_of_eq ((kept_startQueued (ps0 := [.solvers]) _ _ t kept_refl (by decide)).only .cores (by decide))
  have queue (f : LsQueue → LsQueue) (t : State) : TasksKept t (modQueue i k f t) := tasksKept_of_eq rfl
  exact (queue _ s).trans ((tasksKept_lsRelease i k _).trans (start _))

theorem tasksKept_abortSolvers (d : DomId) (s : State) : TasksKept s (abortSolvers d s) := by
  have abort (s : State) (x : Fin 5 × Fin 2) : TasksKept s (lsAbortQueue x.1 x.2 s) := by
    unfold lsAbortQueue
    dsimp only
    split
    · split
      · refine TasksKept.trans ?_ (tasksKept_lsEnded _ _ _)
        exact tasksKept_of_eq ((kept_modQueue (ps0 := [.solvers]) _ _ _ _ (kept_modSolver _ _ _ kept_refl (by decide)) (by decide)).only .cores (by decide))
      · exact tasksKept_of_eq rfl
    · exact tasksKept_of_eq rfl
    · refine TasksKept.trans ?_ (tasksKept_lsRelease _ _ _)
      exact tasksKept_of_eq rfl
    · exact tasksKept_of_eq rfl
  have all : ∀ (l : List (Fin 5 × Fin 2)) (s : State), TasksKept s (l.foldl (fun s x => lsAbortQueue x.1 x.2 s) s) := by
    intro l
    induction l with
    | nil => exact fun _ => tasksKept_of_eq rfl
    | cons x l ih => exact fun s => (abort s x).trans (ih _)
  exact all _ s

/-- A pair that comes to rest publishes its fail values and drops what is under way. -/
def pairResting (n : Fin 4) (s : State) : State :=
  abandonTasks (pairDom n) (abortSolvers (pairDom n) (modDom (pairDom n) (fun x => { x with published := failImage (pairDom n) s, pstop := true, rptSent := false }) s))

/-- Its core has nothing in flight. -/
def coreRests (n : Fin 4) (s : State) : State := modArch (pairCore n) pipeClear (modCore (pairCore n) (fun k => { k with task := none, saved := [], hold := .none }) s)

theorem pairHold_idle {n : Fin 4} {s : State} (h : s.doms[pairDom n].run = false) : pairHold n s = s := if_pos (by rw [h]; rfl)

theorem pairHold_eq {n : Fin 4} {s : State} (h : s.doms[pairDom n].run = true) : pairHold n s = coreRests n (pairResting n s) ∨ pairHold n s = sealArea n (coreRests n (pairResting n s)) := by
  unfold pairHold
  dsimp only
  rw [if_neg (by rw [h]; exact Bool.false_ne_true)]
  split
  · exact .inl rfl
  · exact .inr rfl

/-- A running pair at rest. -/
structure AtRest (n : Fin 4) (t : State) : Prop where
  run : t.doms[pairDom n].run = true
  pstop : t.doms[pairDom n].pstop = true
  task : t.cores[pairCore n].task = none
  hold : t.cores[pairCore n].hold = .none

theorem coreRests_core (n : Fin 4) (s : State) : (coreRests n s).cores[pairCore n].task = none ∧ (coreRests n s).cores[pairCore n].hold = .none := by
  unfold coreRests modArch
  rw [modCore_same, modCore_same]
  exact ⟨rfl, rfl⟩

theorem pairResting_dom (n : Fin 4) (s : State) : (pairResting n s).doms[pairDom n].run = s.doms[pairDom n].run ∧ (pairResting n s).doms[pairDom n].pstop = true := by
  unfold pairResting abandonTasks
  rw [modDom_same, abortSolvers_doms, modDom_same]
  exact ⟨rfl, rfl⟩

theorem coreRests_doms (n : Fin 4) (s : State) : (coreRests n s).doms = s.doms := rfl

theorem pairHold_rests {n : Fin 4} {s : State} (h : s.doms[pairDom n].run = true) : AtRest n (pairHold n s) := by
  have rests : AtRest n (coreRests n (pairResting n s)) := by
    obtain ⟨task, hold⟩ := coreRests_core n (pairResting n s)
    obtain ⟨run, pstop⟩ := pairResting_dom n s
    exact ⟨by rw [coreRests_doms]; exact run.trans h, by rw [coreRests_doms]; exact pstop, task, hold⟩
  rcases pairHold_eq h with e | e <;> rw [e]
  · exact rests
  · generalize coreRests n (pairResting n s) = u at rests
    have dom := sealArea_dom n u
    have cores := (kept_sealArea (ps0 := [.doms]) n u kept_refl (by decide)).only .cores (by decide)
    exact ⟨by rw [dom]; exact rests.run, by rw [dom]; exact rests.pstop, by rw [cores]; exact rests.task, by rw [cores]; exact rests.hold⟩

theorem turned_pairHold (n : Fin 4) (s : State) : Turned (pairDom n) s (pairHold n s) := by
  have resting : Turned (pairDom n) s (coreRests n (pairResting n s)) := by
    have core (t : State) : Turned (pairDom n) t (coreRests n t) := ⟨fun _ _ => rfl, rfl⟩
    unfold pairResting
    exact ((turned_modDom (pairDom n) _ s).trans (((seen_abortSolvers _ _).turned _).trans (turned_modDom (pairDom n) _ _))).trans (core _)
  cases h : s.doms[pairDom n].run with
  | false =>
    rw [pairHold_idle h]
    exact .refl _ s
  | true =>
    rcases pairHold_eq h with e | e <;> rw [e]
    · exact resting
    · exact resting.trans (turned_sealArea n _)

/-- Another pair's HOLD leaves a pair's core its task. -/
theorem pairHold_otherCore {m n : Fin 4} (h : pairCore n ≠ pairCore m) (s : State) : (pairHold m s).cores[pairCore n].task = s.cores[pairCore n].task ∧
    (pairHold m s).cores[pairCore n].hold = s.cores[pairCore n].hold := by
  have resting : TasksKept s (pairResting m s) := by
    have dom (f : Dom → Dom) (t : State) : TasksKept t (modDom (pairDom m) f t) := tasksKept_of_eq rfl
    unfold pairResting
    exact (dom _ s).trans ((tasksKept_abortSolvers _ _).trans (dom _ _))
  have core (t : State) : (coreRests m t).cores[pairCore n] = t.cores[pairCore n] := by
    unfold coreRests modArch
    rw [modCore_other h, modCore_other h]
  cases hr : s.doms[pairDom m].run with
  | false =>
    rw [pairHold_idle hr]
    exact ⟨rfl, rfl⟩
  | true =>
    rcases pairHold_eq hr with e | e <;> rw [e]
    · rw [core]
      exact resting _
    · rw [(kept_sealArea (ps0 := [.doms]) m _ kept_refl (by decide)).only .cores (by decide), core]
      exact resting _

/-- Every pair comes to rest. -/
def pairsHeld (s : State) : State := allPairs.foldl (fun s n => pairHold n s) s

theorem pairsHeld_rest (n : Fin 4) {s : State} (h : s.doms[pairDom n].run = true) : AtRest n (pairsHeld s) := by
  have keeps (s : State) (m : Fin 4) (hr : s.doms[pairDom n].run = true) : (pairHold m s).doms[pairDom n].run = true := by
    by_cases hm : pairDom n = pairDom m
    · obtain rfl := pairDom_injective n m hm
      exact (pairHold_rests hr).run
    · exact ((turned_pairHold m s).run hm).trans hr
  refine foldl_reaches (f := fun s n => pairHold n s) (P := fun s => s.doms[pairDom n].run = true) (Q := AtRest n) (x := n) keeps (fun s m hr rest => ?_) (fun s hr => pairHold_rests hr)
    allPairs s h (.inl (mem_allPairs n))
  by_cases hm : pairDom n = pairDom m
  · obtain rfl := pairDom_injective n m hm
    exact pairHold_rests hr
  · have hc : pairCore n ≠ pairCore m := fun e => hm (congrArg pairDom (pairCore_injective n m e))
    obtain ⟨task, hold⟩ := pairHold_otherCore hc s
    exact ⟨keeps s m hr, ((turned_pairHold m s).pstop hm).trans rest.pstop, task.trans rest.task, hold.trans rest.hold⟩

theorem pairsHeld_arb (s : State) : still (pairsHeld s).arb = still s.arb := by
  have all : ∀ (l : List (Fin 4)) (s : State), still (l.foldl (fun s n => pairHold n s) s).arb = still s.arb := by
    intro l
    induction l with
    | nil => exact fun _ => rfl
    | cons m l ih => exact fun s => (ih _).trans (turned_pairHold m s).arb
  exact all allPairs s

theorem holdEffect_run {p : OperPend} {s : State} (hp : s.arb.pend = some p) (ht : p.target = .hold) (hd : pastDeadline p.cyc s = true) : exec .holdEffect s =
    .next (if pairChange s then refusePending 0x0B "CHANGE_ACTIVE" s else modeDone (setOper (srcCode p.src) .hold (pairsHeld (unpended s)))) := by
  refine congrArg Host.Outcome.next ?_
  dsimp only
  rw [hp]
  dsimp only
  rw [ht, hd]
  rfl

/-- A refusal of a pending request. -/
theorem refusePending_stood (code : Byte) (name : String) {p : OperPend} {s : State} (h : s.arb.pend = some p) :
    still (refusePending code name s).arb = { still s.arb with pend := none, domStop := 0, reason := code, refused := true } := by
  have fin (l : List CmdRef) (t : State) : Seen t (l.foldl (fun s c => finishRefused c code.toNat name s) t) := seen_foldl (fun s c => seen_finish c _ _ _ s) l t
  unfold refusePending
  rw [if_neg (by rw [h]; exact Bool.false_ne_true)]
  exact (fin _ _).arb

theorem holdEffect_refused {p : OperPend} {s : State} (hp : s.arb.pend = some p) (ht : p.target = .hold) (hd : pastDeadline p.cyc s = true) (hc : pairChange s = true) :
    Gives .holdEffect s [.cores, .doms, .solvers, .sync, .mbx, .arb] fun t => t.arb.oper = s.arb.oper ∧ t.arb.pend = none ∧ t.arb.reason = 0x0B ∧ t.arb.refused = true ∧ t.doms = s.doms := by
  have run := holdEffect_run hp ht hd
  rw [hc, if_pos rfl] at run
  refine gives_of_leaves (leaves_holdEffect s) run ?_
  have arb := refusePending_stood 0x0B "CHANGE_ACTIVE" hp
  have doms := refusePending_doms 0x0B "CHANGE_ACTIVE" s
  generalize refusePending 0x0B "CHANGE_ACTIVE" s = t at arb doms
  exact ⟨(congrArg Arb.oper arb :), (congrArg Arb.pend arb :), (congrArg Arb.reason arb :), (congrArg Arb.refused arb :), doms⟩

theorem holdEffect_holds {p : OperPend} {s : State} (hp : s.arb.pend = some p) (ht : p.target = .hold) (hd : pastDeadline p.cyc s = true) (hc : pairChange s = false) :
    Gives .holdEffect s [.cores, .doms, .solvers, .sync, .mbx, .arb] fun t => t.arb.oper = .hold ∧ t.arb.pend = none ∧
      ∀ n : Fin 4, s.doms[pairDom n].run = true → t.doms[pairDom n].run = true ∧ t.doms[pairDom n].pstop = true ∧ t.cores[pairCore n].task = none ∧ t.cores[pairCore n].hold = .none := by
  have run := holdEffect_run hp ht hd
  rw [hc, if_neg Bool.false_ne_true] at run
  refine gives_of_leaves (leaves_holdEffect s) run ?_
  have rest (n : Fin 4) (h : s.doms[pairDom n].run = true) : AtRest n (pairsHeld (unpended s)) := pairsHeld_rest n (s := unpended s) h
  have held := pairsHeld_arb (unpended s)
  generalize pairsHeld (unpended s) = u at rest held
  have kept : Kept [.sync, .mbx, .arb] u (modeDone (setOper (srcCode p.src) .hold u)) := kept_modeDone _ (kept_setOper _ _ u kept_refl (by decide)) (by decide)
  have arb : still (modeDone (setOper (srcCode p.src) .hold u)).arb = { still (unpended s).arb with oper := .hold } := by rw [modeDone_still, setOper_still, held]
  generalize modeDone (setOper (srcCode p.src) .hold u) = t at kept arb
  refine ⟨(congrArg Arb.oper arb :), (congrArg Arb.pend arb :), fun n h => ?_⟩
  obtain ⟨run, pstop, task, hold⟩ := rest n h
  rw [kept.only .doms (by decide), kept.only .cores (by decide)]
  exact ⟨run, pstop, task, hold⟩

/-! ## The return from HOLD (R479) -/

/-- A pair that runs goes on after HOLD. -/
def pairGoesOn (n : Fin 4) (s : State) : State := match s.doms[pairDom n].image with
  | some im => if s.doms[pairDom n].run then primeTimers (pairDom n) im (cimRestart (pairDom n) s) else s
  | none => s

theorem seen_pairGoesOn (n : Fin 4) (s : State) : Seen s (pairGoesOn n s) := by
  have cim : Seen s (cimRestart (pairDom n) s) := ⟨fun _ => rfl, rfl⟩
  unfold pairGoesOn
  split
  · split
    · exact cim.trans (seen_foldl (fun s o => seen_domWrite _ o _ s) _ _)
    · exact .refl s
  · exact .refl s

theorem holdReturn_run {p : OperPend} {s : State} (hp : s.arb.pend = some p) (ht : p.target = .run) (hd : p.tick.toNat ≤ s.cyc.tb.toNat) : exec .holdReturn s =
    .next (modeDone (allPairs.foldl (fun s n => pairGoesOn n s) (setOper (srcCode p.src) .run (unpended s)))) := by
  refine congrArg Host.Outcome.next ?_
  dsimp only
  rw [hp]
  dsimp only
  rw [ht, if_neg (by simpa using hd)]
  rfl

theorem holdReturn_row {p : OperPend} {s : State} (hp : s.arb.pend = some p) (ht : p.target = .run) (hd : p.tick.toNat ≤ s.cyc.tb.toNat) :
    Gives .holdReturn s [.cores, .doms, .mem, .voter, .solvers, .sync, .mbx, .cim, .arb, .freeCtr] fun t => t.arb.oper = .run ∧ t.arb.pend = none ∧
      t.doms.map (·.run) = s.doms.map (·.run) := by
  refine gives_of_leaves (leaves_holdReturn s) (holdReturn_run hp ht hd) ?_
  have oper := setOper_still (srcCode p.src) .run (unpended s)
  have doms : (setOper (srcCode p.src) .run (unpended s)).doms = s.doms := (kept_setOper (ps0 := [.arb]) _ _ (unpended s) kept_refl (by decide)).only .doms (by decide)
  generalize setOper (srcCode p.src) .run (unpended s) = u at oper doms
  have seen : Seen u (modeDone (allPairs.foldl (fun s n => pairGoesOn n s) u)) := (seen_foldl (f := fun s n => pairGoesOn n s) (fun s n => seen_pairGoesOn n s) allPairs u).trans (seen_modeDone _)
  generalize modeDone (allPairs.foldl (fun s n => pairGoesOn n s) u) = t at seen
  have arb := seen.arb.trans oper
  refine ⟨(congrArg Arb.oper arb :), (congrArg Arb.pend arb :), Vector.ext fun d hd => ?_⟩
  rw [Vector.getElem_map, Vector.getElem_map, ← doms]
  exact run_of_shown (seen.doms ⟨d, hd⟩)

/-! ## A domain's STOP takes effect (R480) -/

/-- A run state's STOP no longer waits. -/
def stopTaken (d : DomId) (s : State) : State := { s with arb := { s.arb with domStop := Sys2Proof.Machine.setBit s.arb.domStop d.val false } }

/-- The domain leaves RUN. -/
def domainStops (d : DomId) (s : State) : State := match domPair d with
  | some n => pairCommandStop n 0 s
  | none => setMembers 0 (Fin.ofNat 2 (d.val - 4)) 0 (groupHalt (Fin.ofNat 2 (d.val - 4)) 0 s)

/-- The waiting commands end when no STOP waits. -/
def stopsDone (s : State) : State := if s.arb.domStop = 0 then modeDone s else s

theorem seen_stopsDone (s : State) : Seen s (stopsDone s) := by
  unfold stopsDone
  split
  · exact seen_modeDone s
  · exact .refl s

theorem domainStopEffect_run {d : DomId} {s : State} (hd : s.arb.domStop.getLsbD d.val = true) (hn : stopDueNow d s = true) (ho : s.arb.oper = .run) :
    exec (.domainStopEffect d) s = .next (stopsDone (domainStops d (stopTaken d s))) := by
  refine congrArg Host.Outcome.next ?_
  refine (if_neg (by rw [hd, hn]; exact Bool.false_ne_true)).trans ((if_neg (by rw [ho]; exact Bool.false_ne_true)).trans ?_)
  unfold stopsDone domainStops stopTaken
  rfl

theorem domainStops_turned (d : DomId) (s : State) : Turned d s (domainStops d s) ∧ (domainStops d s).doms[d].run = false := by
  unfold domainStops
  split
  next n hd =>
    obtain rfl := pairDom_of_domPair d n hd
    exact ⟨turned_pairCommandStop n 0 s, pairCommandStop_run n 0 s⟩
  next hd =>
    have e := groupDom_pairs d hd
    generalize (Fin.ofNat 2 (d.val - 4) : Fin 2) = g at e
    subst e
    have members := seen_setMembers 0 g 0 (groupHalt g 0 s)
    exact ⟨(turned_groupHalt g 0 s).trans (members.turned _), (run_of_shown (members.doms _)).trans (groupHalt_run g 0 s)⟩

theorem domainStopEffect_row {d : DomId} {s : State} (hd : s.arb.domStop.getLsbD d.val = true) (hn : stopDueNow d s = true) (ho : s.arb.oper = .run) :
    Gives (.domainStopEffect d) s [.cores, .doms, .voter, .solvers, .hsb, .sync, .mbx, .arb, .log] fun t => t.doms[d].run = false ∧
      t.arb.domStop = Sys2Proof.Machine.setBit s.arb.domStop d.val false ∧ t.arb.oper = .run ∧ ∀ e : DomId, e ≠ d → t.doms[e].run = s.doms[e].run := by
  refine gives_of_leaves (leaves_domainStopEffect d s) (domainStopEffect_run hd hn ho) ?_
  obtain ⟨turned, run⟩ := domainStops_turned d (stopTaken d s)
  generalize domainStops d (stopTaken d s) = u at turned run
  have seen := seen_stopsDone u
  generalize stopsDone u = t at seen
  have arb := seen.arb.trans turned.arb
  exact ⟨(run_of_shown (seen.doms d)).trans run, (congrArg Arb.domStop arb :), (congrArg Arb.oper arb :).trans ho, fun e he => (run_of_shown (seen.doms e)).trans (turned.run he)⟩

/-! ## The restart of a pair (R60 to R63) -/

theorem domainRestart_row {n : Fin 4} {host : Bool} {s : State} (ho : s.arb.oper = .run ∨ s.arb.oper = .hold ∨ s.arb.oper = .safe) (hh : s.doms[pairDom n].held = false)
    (hi : s.doms[pairDom n].image ≠ none) :
    Gives (.domainRestart (pairDom n) host) s [.cores, .doms, .pairs, .mem, .voter, .solvers, .rmus, .ixl, .conns, .hsb, .sync, .mbx, .cim, .esc, .power, .arb, .log, .freeCtr] fun t =>
      t.doms[pairDom n].run = true ∧ t.doms[pairDom n].first = true ∧ t.doms[pairDom n].rstKind = (if restartReason n host s = 0 then 1 else 2) ∧
      t.doms[pairDom n].rstReason = BitVec.ofNat 8 (restartReason n host s) ∧ (∀ im, nextImage (pairDom n) s = some im → t.doms[pairDom n].image = some im) := by
  have next : nextImage (pairDom n) s ≠ none := by
    unfold nextImage
    split
    · exact Option.some_ne_none _
    · exact hi
  obtain ⟨run, first, -, kind, reason, image⟩ := domRestart_restarted hh next host 2
  have goes : (s.arb.oper == .run || ((s.arb.oper == .hold || inSafe s) && (domPair (pairDom n)).isSome)) = true := by
    rw [domPair_pairDom]
    unfold inSafe
    rcases ho with ho | ho | ho <;> rw [ho] <;> rfl
  refine gives_of_leaves (leaves_domainRestart (pairDom n) host s) (congrArg Host.Outcome.next (if_pos goes)) ⟨run, first, kind, reason, fun im him => image.trans him⟩

end Sys2Proof.Proofs
end

section
/-! SUPPORT. Freight after STOP, and S1 (R475, R477). -/

namespace Sys2Proof.Proofs
open Sys2Proof.Machine Sys2Proof.Safety Sys2Proof.Laws
set_option Elab.async false

/-! ## Freight ends LINK after STOP (R477) -/

/-- Ends that stand are kept. -/
def EndsKept (s t : State) : Prop := ∀ e ∈ s.ring.ends, e ∈ t.ring.ends

theorem endsKept_of_eq {s t : State} (h : t.ring = s.ring) : EndsKept s t := fun e he => by rw [h]; exact he
theorem EndsKept.trans {s t u : State} (h : EndsKept s t) (k : EndsKept t u) : EndsKept s u := fun e he => k e (h e he)

theorem frtDeliver_ring (e : FrtEnd) (s : State) : (frtDeliver e s).ring = { s.ring with ends := s.ring.ends ++ [e] } := by
  have fin (c : CmdRef) (st : Status) (n : Nat) (d : List Byte) (t : State) : (finish c st n d t).ring = t.ring := (finish_only c st n d t).only .ring (by decide)
  unfold frtDeliver
  dsimp only
  split
  · split
    · exact fin _ _ _ _ _
    · exact fin _ _ _ _ _
    · exact fin _ _ _ _ _
    · exact fin _ _ _ _ _
    · exact fin _ _ _ _ _
    · exact fin _ _ _ _ _
    · exact fin _ _ _ _ _
    · exact fin _ _ _ _ _
  · rfl

theorem surveyDone_ring (s : State) : (surveyDone s).ring = s.ring := by
  have each (l : List CmdRef) (t : State) : (l.foldl (fun s c => finish c .ok 0 (leBytes 4 (rtmSurv s).toNat) s) t).ring = t.ring := by
    induction l generalizing t with
    | nil => rfl
    | cons c l ih => exact (ih _).trans ((finish_only c .ok 0 _ t).only .ring (by decide))
  exact each _ _

theorem endsKept_surveySubmit (use : FrtUse) (q : FrtReq) (s : State) : EndsKept s (surveySubmit use q s) := by
  unfold surveySubmit
  split
  · unfold frtSubmit
    split
    next o _ =>
      intro e he
      rw [frtDeliver_ring]
      exact List.mem_append_left _ he
    · intro e he
      rw [writeBytes_rest]
      exact he
  · refine endsKept_of_eq ?_
    rw [surveyDone_ring]
    rfl

theorem endsKept_surveyNext (s : State) : EndsKept s (surveyNext s) := by
  unfold surveyNext
  dsimp only
  split
  · exact endsKept_of_eq rfl
  · split
    · exact endsKept_surveySubmit _ _ s
    · split
      · exact endsKept_surveySubmit _ _ s
      · exact endsKept_of_eq (surveyDone_ring s)

theorem endsKept_surveyEnd (a : BitVec 12) (wr : Bool) (o : FrtOutcome) (s : State) : EndsKept s (surveyEnd a wr o s) := by
  unfold surveyEnd
  refine EndsKept.trans ?_ (endsKept_surveyNext _)
  exact endsKept_of_eq rfl

theorem frtCount_ends (o : FrtOutcome) (r : Ring) : (frtCount o r).ends = r.ends := by cases o <;> rfl

/-- An end of freight adds its own end and keeps the others. -/
theorem frtFinish_ends (i : FrtItem) (o : FrtOutcome) (s : State) :
    EndsKept s (frtFinish i o s) ∧ ({ slot := some i.slot, req := i.req, use := i.use, out := o } : FrtEnd) ∈ (frtFinish i o s).ring.ends := by
  have delivered : (frtDeliver { slot := some i.slot, req := i.req, use := i.use, out := o } (modRing (fun r => frtCount o { r with items := r.items.filter fun j => j.slot != i.slot }) s)).ring.ends =
      s.ring.ends ++ [{ slot := some i.slot, req := i.req, use := i.use, out := o }] := by
    rw [frtDeliver_ring]
    show (frtCount o { s.ring with items := s.ring.items.filter fun j => j.slot != i.slot }).ends ++ _ = _
    rw [frtCount_ends]
  unfold frtFinish
  dsimp only
  split
  · generalize frtDeliver _ _ = t at delivered
    refine ⟨fun e he => endsKept_surveyEnd _ _ _ t e ?_, endsKept_surveyEnd _ _ _ t _ ?_⟩
    · rw [delivered]
      exact List.mem_append_left _ he
    · rw [delivered]
      exact List.mem_append_right _ (List.mem_singleton_self _)
  · refine ⟨fun e he => ?_, ?_⟩
    · rw [delivered]
      exact List.mem_append_left _ he
    · rw [delivered]
      exact List.mem_append_right _ (List.mem_singleton_self _)

theorem frtEnds_link (l : List FrtItem) (s : State) : EndsKept s (l.foldl (fun s i => frtFinish i (if i.withdrawn then .link else .link) s) s) ∧
    ∀ i ∈ l, ∃ e ∈ (l.foldl (fun s i => frtFinish i (if i.withdrawn then .link else .link) s) s).ring.ends, e.slot = some i.slot ∧ e.req = i.req ∧ e.out = .link := by
  induction l generalizing s with
  | nil => exact ⟨fun _ h => h, fun i hi => absurd hi List.not_mem_nil⟩
  | cons i l ih =>
    obtain ⟨kept, own⟩ := frtFinish_ends i (if i.withdrawn then .link else .link) s
    obtain ⟨later, rest⟩ := ih (frtFinish i (if i.withdrawn then .link else .link) s)
    refine ⟨kept.trans later, fun j hj => ?_⟩
    rcases List.mem_cons.1 hj with rfl | hj
    · exact ⟨_, later _ own, rfl, rfl, ite_self _⟩
    · exact rest j hj

theorem freightStopLink_row {t0 : Long} {s : State} (h : s.arb.frtLinkDue = some t0) (ht : t0.toNat ≤ s.cyc.tb.toNat) :
    Gives .freightStopLink s [.mem, .ring, .rtm, .sync, .mbx, .arb] fun t => t.arb.frtLinkDue = none ∧
      ∀ i ∈ s.ring.items, ∃ e ∈ t.ring.ends, e.slot = some i.slot ∧ e.req = i.req ∧ e.out = .link := by
  have due : (s.arb.frtLinkDue.any fun t => decide (t.toNat ≤ s.cyc.tb.toNat)) = true := by
    rw [h]
    exact decide_eq_true ht
  have arb (u : State) : (frtEndAll .link u).arb = u.arb := (kept_frtEndAll (ps0 := [.mem, .ring, .rtm, .sync, .mbx]) .link u kept_refl (by decide)).only .arb (by decide)
  refine gives_of_leaves (leaves_freightStopLink s) (congrArg Host.Outcome.next (if_pos due)) ⟨?_, ?_⟩
  · rw [arb]
  · exact (frtEnds_link s.ring.items _).2

/-! ## S1 (R475) -/

/-- S1's position is taken. -/
def keyTaken (new : KeyPos) (s : State) : State :=
  let t := transition 1 0 4 (keyCode s.arb.key) (keyCode new) s
  { t with arb := { t.arb with key := new } }

/-- A debugger loses the lanes when S1 leaves SERVICE. -/
def keyDetached (old new : KeyPos) (s : State) : State := if old == .service && new != .service then detachAll s else s

/-- The operating state SERVICE ends with S1's position. -/
def serviceLeft (new : KeyPos) (s : State) : State := if s.arb.oper == .service && new != .service then showGroups (setOper 1 .stop s) else s

/-- All of these. -/
def keyMoved (new : KeyPos) (s : State) : State := serviceLeft new (keyDetached s.arb.key new (keyTaken new s))

theorem keySet_eq (new : KeyPos) (s : State) : keySet new s = if new == .stop then keyStop (keyMoved new s) else keyMoved new s := rfl

theorem keyTaken_still (new : KeyPos) (s : State) : still (keyTaken new s).arb = { still s.arb with key := new } := by
  have h := transition_still 1 0 4 (keyCode s.arb.key) (keyCode new) s
  show { still (transition 1 0 4 (keyCode s.arb.key) (keyCode new) s).arb with key := new } = _
  rw [h]

theorem keyDetached_arb (old new : KeyPos) (s : State) : (keyDetached old new s).arb = s.arb := by
  unfold keyDetached
  split
  · exact (kept_detachAll (ps0 := [.cores, .voter]) s kept_refl (by decide)).only .arb (by decide)
  · rfl

/-- The operating state once S1's position is taken. -/
def operAfter (new : KeyPos) (o : Oper) : Oper := if o == .service && new != .service then .stop else o

theorem serviceLeft_still (new : KeyPos) (s : State) : still (serviceLeft new s).arb = { still s.arb with oper := operAfter new s.arb.oper } := by
  unfold serviceLeft operAfter
  split
  · rw [seen_showGroups_arb, setOper_still]
  · rfl

theorem keyMoved_still (new : KeyPos) (s : State) : still (keyMoved new s).arb = { still s.arb with key := new, oper := operAfter new s.arb.oper } := by
  have taken := keyTaken_still new s
  have oper : (keyTaken new s).arb.oper = s.arb.oper := (congrArg Arb.oper taken :)
  unfold keyMoved
  rw [serviceLeft_still, keyDetached_arb, taken, oper]

theorem keyMoved_cyc (new : KeyPos) (s : State) : (keyMoved new s).cyc = s.cyc := by
  have taken : Kept [.arb] s (keyTaken new s) := kept_upd_arb (kept_transition _ _ _ _ _ s kept_refl (by decide)) (by decide)
  have detached (old : KeyPos) (u : State) : (keyDetached old new u).cyc = u.cyc := by
    unfold keyDetached
    split
    · exact (kept_detachAll (ps0 := [.cores, .voter]) u kept_refl (by decide)).only .cyc (by decide)
    · rfl
  have left (u : State) : (serviceLeft new u).cyc = u.cyc := by
    unfold serviceLeft
    split
    · exact (kept_showGroups (ps0 := [.voter, .arb]) _ (kept_setOper _ _ u kept_refl (by decide)) (by decide)).only .cyc (by decide)
    · rfl
  exact (left _).trans ((detached _ _).trans (taken.only .cyc (by decide)))

theorem deadlineCycle_congr {s t : State} (h : t.cyc = s.cyc) : deadlineCycle t = deadlineCycle s := by
  unfold deadlineCycle since deadlineTicks
  rw [h]

theorem operStop_idle {s : State} (h : s.arb.oper = .stop ∨ s.arb.oper = .service) : keyStop s = s := by
  unfold keyStop inSafe
  rcases h with h | h <;> rw [h] <;> rfl

/-- STOP is requested by S1. -/
def keyPend (s : State) : OperPend := { target := .stop, cyc := deadlineCycle s, tick := s.cyc.tb, src := .steward, fault := true }

theorem keyStop_run {s : State} (h : s.arb.oper = .run) (hp : s.arb.pend = none) : keyStop s = { s with arb := { s.arb with pend := some (keyPend s) } } := by
  unfold keyStop
  rw [h, hp]
  rfl

theorem pairsStopped_key (src : Nat) (s : State) : (pairsStopped src s).arb.key = s.arb.key ∧ (pairsStopped src s).arb.transit = s.arb.transit := by
  have h := pairsStopped_arb src s
  generalize (pairsStopped src s).arb = a at h
  exact ⟨(congrArg Arb.key h :), (congrArg Arb.transit h :)⟩

theorem refusePending_key (code : Byte) (name : String) (s : State) : (refusePending code name s).arb.key = s.arb.key ∧ (refusePending code name s).arb.transit = s.arb.transit := by
  have fin (l : List CmdRef) (t : State) : (l.foldl (fun s c => finishRefused c code.toNat name s) t).arb = t.arb :=
    (kept_foldl (ps := [.sync, .mbx]) kept_refl fun a c h => kept_finishRefused c _ _ a h (by decide)).only .arb (by decide)
  unfold refusePending
  split
  · exact ⟨rfl, rfl⟩
  · dsimp only
    rw [fin]
    exact ⟨rfl, rfl⟩

theorem keyStop_key (s : State) : (keyStop s).arb.key = s.arb.key ∧ (keyStop s).arb.transit = s.arb.transit := by
  unfold keyStop
  split
  · split
    · exact ⟨rfl, rfl⟩
    · dsimp only
      split
      · exact refusePending_key _ _ s
      · exact ⟨rfl, rfl⟩
  · split
    · exact pairsStopped_key 1 s
    · exact ⟨rfl, rfl⟩

/-- S1 is between its contacts, or holds one. -/
def inTransit (b : Bool) (s : State) : State := { s with arb := { s.arb with transit := b } }

theorem keySwitchChange_row (s : State) : Gives .keySwitchChange s [.cyc, .cores, .doms, .voter, .solvers, .hsb, .sync, .mbx, .rtc, .arb, .log] fun t =>
    t.arb.key = .stop ∧ t.arb.transit = true ∧ (s.arb.oper = .run → s.arb.pend = none → t.arb.oper = .run ∧
      t.arb.pend = some { target := .stop, cyc := deadlineCycle s, tick := s.cyc.tb, src := .steward, fault := true }) ∧ (s.arb.oper = .service → t.arb.oper = .stop) := by
  refine gives_leaves (leaves_keySwitchChange s) ⟨keyStop (keyMoved .stop (inTransit true s)), rfl, ?_⟩
  have arb := keyMoved_still .stop (inTransit true s)
  have cyc : (keyMoved .stop (inTransit true s)).cyc = s.cyc := keyMoved_cyc .stop (inTransit true s)
  generalize keyMoved .stop (inTransit true s) = u at arb cyc
  have oper : u.arb.oper = operAfter .stop s.arb.oper := (congrArg Arb.oper arb :)
  obtain ⟨key, transit⟩ := keyStop_key u
  refine ⟨key.trans (congrArg Arb.key arb :), transit.trans (congrArg Arb.transit arb :), fun ho hp => ?_, fun ho => ?_⟩
  · have run : u.arb.oper = .run := by
      rw [oper, ho]
      rfl
    rw [keyStop_run run ((congrArg Arb.pend arb :).trans hp)]
    refine ⟨run, ?_⟩
    show some (keyPend u) = _
    unfold keyPend
    rw [deadlineCycle_congr cyc, cyc]
  · have stop : u.arb.oper = .stop := by
      rw [oper, ho]
      rfl
    rw [operStop_idle (.inl stop)]
    exact stop

theorem keySwitchSettle_row (pos : KeyPos) (s : State) : Gives (.keySwitchSettle pos) s [.cyc, .cores, .doms, .voter, .solvers, .hsb, .sync, .mbx, .rtc, .arb, .log] fun t =>
    t.arb.key = pos ∧ t.arb.transit = false ∧ (s.arb.oper = .run → pos ≠ .stop → t.arb.oper = .run ∧ t.arb.pend = s.arb.pend) ∧
      (s.arb.oper = .service → pos ≠ .service → t.arb.oper = .stop) := by
  refine gives_leaves (leaves_keySwitchSettle pos s) ⟨_, congrArg Host.Outcome.next (keySet_eq pos (inTransit false s)), ?_⟩
  have arb := keyMoved_still pos (inTransit false s)
  generalize keyMoved pos (inTransit false s) = u at arb
  have oper : u.arb.oper = operAfter pos s.arb.oper := (congrArg Arb.oper arb :)
  have key : u.arb.key = pos := (congrArg Arb.key arb :)
  have transit : u.arb.transit = false := (congrArg Arb.transit arb :)
  have pend : u.arb.pend = s.arb.pend := (congrArg Arb.pend arb :)
  obtain ⟨stopKey, stopTransit⟩ := keyStop_key u
  refine ⟨?_, ?_, fun ho hn => ?_, fun ho hn => ?_⟩
  · split
    · exact stopKey.trans key
    · exact key
  · split
    · exact stopTransit.trans transit
    · exact transit
  · rw [if_neg (by rw [beq_false_of_ne hn]; exact Bool.false_ne_true)]
    refine ⟨?_, pend⟩
    rw [oper, ho]
    rfl
  · have stop : u.arb.oper = .stop := by
      rw [oper, ho]
      exact if_pos (by rw [bne_iff_ne.2 hn]; rfl)
    split
    · rw [operStop_idle (.inl stop)]
      exact stop
    · exact stop

/-- Settles O49: STOP and HOLD take effect at their deadline, HOLD ends, a domain's STOP and a restart touch their own domain's run state, freight ends LINK, and S1 asks for STOP. -/
theorem modesTakeEffect : Obligations.ModesTakeEffect := by
  refine fun s => ⟨fun p hp => ⟨fun ht hd => stopEffect_row hp ht hd, fun ht hd => ⟨fun hc => holdEffect_refused hp ht hd hc, fun hc => holdEffect_holds hp ht hd hc⟩,
    fun ht hd => holdReturn_row hp ht hd⟩, fun d hd hn ho => domainStopEffect_row hd hn ho, fun t0 h ht => freightStopLink_row h ht, keySwitchChange_row s,
    fun pos => keySwitchSettle_row pos s, fun n host ho hh hi => domainRestart_row ho hh hi⟩

end Sys2Proof.Proofs
end

section
/-! SUPPORT. An RMU vote point leaves the interlocking's tables as they are (R96, R128). -/

namespace Sys2Proof.Proofs
open Sys2Proof.Machine Sys2Proof.Safety Sys2Proof.Laws
set_option Elab.async false

/-! ## An RMU vote point does not become an end of cycle -/

/-- A group's vote point has ended, or stands as it was. -/
def PointStays (g : Fin 2) (s t : State) : Prop := t.voter.grp[g].vp = none ∨ t.voter.grp[g].vp = s.voter.grp[g].vp

theorem PointStays.refl (g : Fin 2) (s : State) : PointStays g s s := .inr rfl

theorem PointStays.trans {g : Fin 2} {s t u : State} (h : PointStays g s t) (k : PointStays g t u) : PointStays g s u := by
  rcases k with k | k
  · exact .inl k
  · exact h.imp k.trans k.trans

theorem pointStays_of_groups {g : Fin 2} {s t : State} (h : t.voter.grp = s.voter.grp) : PointStays g s t := .inr (by rw [h])

theorem Judged.pointStays {g : Fin 2} {s t : State} (h : Judged g s t) : PointStays g s t := .inr h.vp

theorem pointStays_foldl {α : Type} {g : Fin 2} {f : State → α → State} (h : ∀ s x, PointStays g s (f s x)) (xs : List α) (s : State) : PointStays g s (xs.foldl f s) := by
  induction xs generalizing s with
  | nil => exact .refl g s
  | cons x xs ih => exact (h s x).trans (ih _)

theorem safeGroup_vp (s : State) (g : Fin 2) : (safeGroup s g).voter.grp[g].vp = none :=
  ((lost_modDom (groupDom g) _ _ rfl).trans (lost_changeStop "CHANGE_STOPPED" (groupDom g) _)).vp g (by rw [modGroup_same])

theorem safeLanes_vp (s : State) (g : Fin 2) : (safeLanes s).voter.grp[g].vp = none := by
  refine (lost_haltLanes _).vp g ?_
  rcases (by omega : g = 0 ∨ g = 1) with rfl | rfl
  · exact (lost_safeGroup _ 1).vp 0 (safeGroup_vp _ 0)
  · exact safeGroup_vp _ 1

theorem pointStays_enterSafe (cause : Nat) (grp : Option (Fin 2)) (g : Fin 2) (s : State) : PointStays g s (enterSafe cause grp s) := by
  cases h : inSafe s with
  | true =>
    rw [enterSafe_idle cause grp h]
    exact .refl g s
  | false =>
    refine .inl ?_
    rw [enterSafe_voter cause grp h]
    exact safeLanes_vp s g

theorem pointStays_excludeFrom (l : Fin 3) (w g : Fin 2) (s : State) : PointStays g s (excludeFrom l w s) := by
  cases h : s.voter.grp[w].members.getLsbD l.val with
  | false =>
    rw [excludeFrom_other h]
    exact .refl g s
  | true =>
    have stopped : PointStays g s (stopLane l w s) := pointStays_of_groups (by rw [stopLane_voter])
    rw [excludeFrom_member h]
    split
    · exact stopped.trans (pointStays_enterSafe _ _ _ _)
    · exact stopped.trans ((judged_setMembers 2 w g _ _).trans (judged_modGroup g w agrClear _ fun _ => ⟨rfl, rfl, rfl⟩)).pointStays

theorem pointStays_laneCause (l : Fin 3) (cause : Nat) (g : Fin 2) (s : State) : PointStays g s (laneCause l cause s) := by
  unfold laneCause
  split
  · exact .refl g s
  · let ins := allGroups.filter fun h => s.voter.grp[h].members.getLsbD l.val
    have marks : PointStays g s (excludeMarks l cause ins s) := pointStays_of_groups (excludeMarks_keeps l cause ins s).1
    exact marks.trans (pointStays_foldl (fun s h => pointStays_excludeFrom l h g s) ins _)

theorem pointStays_laneMemErr (code : Nat) (g : Fin 2) (s : State) : PointStays g s (laneMemErr code s) := by
  unfold laneMemErr
  split
  · exact pointStays_laneCause _ _ g s
  · exact .refl g s

/-- What an RMU operation does when its words can be read. -/
theorem pointStays_rmuDecide (l op : Fin 3) (v : Word) (r : Rmu) (g : Fin 2) (s : State) : PointStays g s (rmuDecide l op v r s).2 := by
  have locks (lv n : Nat) (b : Bool) : PointStays g s (setLock l lv n b s) := by
    unfold setLock
    exact pointStays_of_groups (stored_store none _ _ _ s).groups
  have counted (f : Rmu → Rmu) : PointStays g s (updRmu l f s) := .inr rfl
  unfold rmuDecide
  generalize setLock l = lock at locks ⊢
  generalize updRmu l = upd at counted ⊢
  dsimp only
  split
  · split
    · exact locks _ _ _
    · exact .refl g s
  · split
    · exact .refl g s
    · split
      · exact counted _
      · split
        · exact locks _ _ _
        · exact .refl g s

/-- An RMU operation that reads the matrix, by what the read finds. -/
theorem rmuOp_read {l : Fin 3} {s : State} (op : Fin 3) {v : Word} (h : s.rmus[l].armed = true) (hv : v.toNat < s.rmus[l].routes.toNat) :
    let z := readWords (laneCore l 0) (laneMem l) (rmuWords s.rmus[l] op v.toNat) (updRmu l countOp s)
    rmuOp l op v s = if z.1 then (rmuResult v 15 0, laneMemErr (laneMem l) (updRmu l (fun x => { x with err := Sys2Proof.Machine.setBit x.err 0 true }) z.2))
      else rmuDecide l op v s.rmus[l] z.2 := by
  unfold rmuOp
  refine (if_neg (by rw [h]; decide)).trans ((if_neg (Nat.not_le.mpr hv)).trans ?_)
  unfold rmuDecide vecBit
  dsimp only
  generalize hz : readWords _ _ _ _ = z
  generalize hz' : readWords _ _ _ _ = z'
  obtain rfl : z = z' := hz.symm.trans hz'
  split_ifs
  · rfl
  · rfl
  · rfl
  · rfl
  · generalize List.find? _ _ = x
    cases x <;> rfl
  · generalize List.find? _ _ = x
    cases x <;> rfl

theorem pointStays_rmuOp (l op : Fin 3) (v : Word) (g : Fin 2) (s : State) : PointStays g s (rmuOp l op v s).2 := by
  cases armed : s.rmus[l].armed with
  | false =>
    rw [rmuOp_unarmed op v armed]
    exact pointStays_of_groups rfl
  | true =>
    by_cases hv : s.rmus[l].routes.toNat ≤ v.toNat
    · rw [rmuOp_badRoute op armed hv]
      exact pointStays_of_groups rfl
    · rw [rmuOp_read op armed (Nat.not_le.mp hv)]
      have read : PointStays g s (readWords (laneCore l 0) (laneMem l) (rmuWords s.rmus[l] op v.toNat) (updRmu l countOp s)).2 :=
        pointStays_of_groups (congrArg Voter.grp ((kept_readWords (ps0 := [.cores, .memRegs, .memErrs]) _ _ _ _ kept_refl (by decide)).only .voter (by decide)))
      generalize readWords _ _ _ _ = z at read ⊢
      split
      · exact read.trans (pointStays_laneMemErr _ g _)
      · exact read.trans (pointStays_rmuDecide l op v _ g _)

/-- No end-of-cycle vote point of a group is open. -/
def NoEoc (g : Fin 2) (s : State) : Prop := ∀ p, s.voter.grp[g].vp = some p → p.kind ≠ .eoc

theorem noEoc_of_none {g : Fin 2} {s : State} (h : s.voter.grp[g].vp = none) : NoEoc g s := fun _ hp => nomatch h.symm.trans hp

theorem NoEoc.stays {g : Fin 2} {s t : State} (h : NoEoc g s) (k : PointStays g s t) : NoEoc g t := by
  rcases k with k | k
  · exact noEoc_of_none k
  · exact fun p hp => h p (k.symm.trans hp)

theorem noEoc_contribute {l : Fin 3} {g : Fin 2} {x : Contrib} {s : State} (h : NoEoc g s) (hx : x.kind ≠ .eoc) : NoEoc g (contribute l g x s) := by
  intro p hp
  unfold contribute at hp
  rw [modGroup_same] at hp
  split_ifs at hp
  · exact h p hp
  · cases hv : s.voter.grp[g].vp with
    | none =>
      simp only [hv, Option.some.injEq] at hp
      exact hp ▸ hx
    | some q =>
      simp only [hv] at hp
      split_ifs at hp
      · exact h p (hv.trans (hv.symm.trans hp))
      · cases hp
        exact h q hv
  · exact h p hp
  · exact h p hp

theorem kept_candidateOn (g : Fin 2) (closed : Bool) (p : VotePoint) (x : Contrib) (s : State) :
    Kept [.cores, .doms, .voter, .cim, .esc, .boot, .arb, .log] s (candidateOn g closed p x s) := by
  unfold candidateOn
  dsimp only
  split
  · exact kept_refl
  · have noted : Kept [.cores, .doms, .voter, .cim, .esc, .boot, .arb, .log] s (modGroup g (fun v => { v with voted := v.voted ++ [(x, p.opened + BitVec.ofNat 64 (winTicks g s))] }) s) :=
      kept_modGroup _ _ _ kept_refl (by decide)
    split
    · split
      · exact kept_reintEnd _ _ noted (by decide)
      · exact noted
    · exact kept_candMeets _ _ noted (by decide)

/-- A vote point that is no end of cycle leaves the interlocking as it is. -/
theorem voteResolve_ixl {g : Fin 2} {s : State} (closed : Bool) (h : NoEoc g s) : (voteResolve g closed s).ixl = s.ixl := by
  cases hp : s.voter.grp[g].vp with
  | none =>
    unfold voteResolve
    rw [hp]
  | some p =>
    have start : (voteStart g p s).ixl = s.ixl := by
      unfold voteStart
      dsimp only
      split <;> rfl
    cases he : voteEnd (memberLanes g s) p with
    | safe cause =>
      have failed : Kept [.sync, .voter] (voteStart g p s) (voteFailed g p (memberLanes g s) (voteStart g p s)) :=
        kept_modGroup _ _ _ (kept_foldl kept_refl fun _ _ k => kept_hsbFault _ _ k (by decide)) (by decide)
      have safe (u : State) : (enterSafe cause (some g) u).ixl = u.ixl :=
        (kept_enterSafe (ps0 := [.cores, .doms, .voter, .hsb, .sync, .fg, .mbx, .ps, .boot, .arb, .log]) cause (some g) u kept_refl (by decide)).only .ixl (by decide)
      rw [voteResolve_safe closed hp he, safe, failed.only .ixl (by decide), start]
    | pass x mi la =>
      have image (u : State) : imageOut g p.kind x u = u := if_neg (by simpa using h p hp)
      have members (u : State) : (membersOn g x u).ixl = u.ixl :=
        (kept_foldl (ps := [.cores]) kept_refl fun _ _ k => kept_resume _ _ _ k (by decide)).only .ixl (by decide)
      rw [voteResolve_pass closed hp he, image, (kept_candidateOn g closed p x _).only .ixl (by decide), members, (kept_lanesOut g p.kind mi la _).only .ixl (by decide), start]

theorem voteResolve_vp (g : Fin 2) (closed : Bool) (s : State) : (voteResolve g closed s).voter.grp[g].vp = none := by
  cases hp : s.voter.grp[g].vp with
  | none =>
    unfold voteResolve
    rw [hp]
    exact hp
  | some p =>
    cases he : voteEnd (memberLanes g s) p with
    | safe cause => exact (voteResolve_safeFor closed hp he).1
    | pass x mi la => exact (voteResolve_outcome closed hp he).vp

/-- One lane's operation of an RMU vote point. -/
def rmuVoteStep (op : Fin 3) (r : Nat) (g : Fin 2) (s : State) (l : Fin 3) : State :=
  let z := rmuOp l op (BitVec.ofNat 32 r) s
  contribute l g { kind := .rmu, items := leBytes 4 z.1.toNat, crc := stateCrc l g z.2 } z.2

theorem rmuVoteStep_noEoc {op : Fin 3} {r : Nat} {g : Fin 2} {s : State} (l : Fin 3) (h : NoEoc g s) : NoEoc g (rmuVoteStep op r g s l) :=
  noEoc_contribute (h.stays (pointStays_rmuOp l op _ g s)) fun h => nomatch h

theorem rmuVoteStep_ixl (op : Fin 3) (r : Nat) (g : Fin 2) (s : State) (l : Fin 3) : (rmuVoteStep op r g s l).ixl = s.ixl :=
  (kept_contribute _ _ _ _ (kept_rmuOp (ps0 := [.cores, .doms, .mem, .memRegs, .memErrs, .voter, .solvers, .rmus, .hsb, .sync, .fg, .mbx, .ps, .boot, .arb, .log, .freeCtr]) l op _ s
    kept_refl (by decide)) (by decide)).only .ixl (by decide)

theorem rmuVoteSteps_keep {op : Fin 3} {r : Nat} {g : Fin 2} (ls : List (Fin 3)) {s : State} (h : NoEoc g s) :
    NoEoc g (ls.foldl (rmuVoteStep op r g) s) ∧ (ls.foldl (rmuVoteStep op r g) s).ixl = s.ixl := by
  induction ls generalizing s with
  | nil => exact ⟨h, rfl⟩
  | cons l ls ih =>
    obtain ⟨k, e⟩ := ih (rmuVoteStep_noEoc (op := op) (r := r) l h)
    exact ⟨k, e.trans (rmuVoteStep_ixl op r g s l)⟩

/-- An RMU operation under vote leaves the interlocking's tables as they are (R128). -/
theorem rmuVote_ixl (op : Fin 3) (r : Nat) (g : Fin 2) (ls : List (Fin 3)) {s : State} (h : s.voter.grp[g].vp = none) : (rmuVote op r g ls s).2.ixl = s.ixl := by
  obtain ⟨k, e⟩ := rmuVoteSteps_keep (op := op) (r := r) ls (noEoc_of_none h)
  unfold rmuVote
  split
  · rfl
  · show (match (ls.foldl (rmuVoteStep op r g) s).voter.grp[g].vp with
      | none => (none, ls.foldl (rmuVoteStep op r g) s)
      | some p => match voteEnd (memberLanes g (ls.foldl (rmuVoteStep op r g) s)) p with
        | .pass y _ _ => (some (leNat y.items), voteResolve g ((memberLanes g (ls.foldl (rmuVoteStep op r g) s)).any fun l => p.got[l].isNone) (ls.foldl (rmuVoteStep op r g) s))
        | .safe _ => (none, voteResolve g ((memberLanes g (ls.foldl (rmuVoteStep op r g) s)).any fun l => p.got[l].isNone) (ls.foldl (rmuVoteStep op r g) s)) : Option Nat × State).2.ixl = s.ixl
    generalize ls.foldl (rmuVoteStep op r g) s = u at k e ⊢
    cases u.voter.grp[g].vp with
    | none => exact e
    | some p =>
      dsimp only
      cases voteEnd (memberLanes g u) p with
      | pass y mi la => exact (voteResolve_ixl _ k).trans e
      | safe c => exact (voteResolve_ixl _ k).trans e

end Sys2Proof.Proofs
end

section
/-! SUPPORT. Work on the interlocking's tables, lane by lane (R119, R131). -/

namespace Sys2Proof.Proofs
open Sys2Proof.Machine Sys2Proof.Safety Sys2Proof.Laws
set_option Elab.async false

/-! ## Work on the interlocking's tables, lane by lane (R119, R131) -/

theorem modIxl_same (l : Fin 3) (f : Ixl → Ixl) (s : State) : (modIxl l f s).ixl[l] = f s.ixl[l] := by simp [modIxl]

theorem modIxl_other {l m : Fin 3} (f : Ixl → Ixl) (s : State) (h : m ≠ l) : (modIxl l f s).ixl[m] = s.ixl[m] :=
  Vector.getElem_set_ne l.isLt m.isLt fun e => h (Fin.ext e.symm)

/-- `f` does `h` to the tables of the lane that it works in, from every state with time `c`, which it keeps. -/
def LaneWork (c : Cyc) (f : Fin 3 → State → State) (h : Ixl → Ixl) : Prop := ∀ l s, s.cyc = c → f l s = modIxl l h s

/-- Each lane's tables after the work: it was done as often as the lane is listed. -/
theorem LaneWork.foldl {c : Cyc} {f : Fin 3 → State → State} {h : Ixl → Ixl} (w : LaneWork c f h) (ls : List (Fin 3)) {s : State} (hc : s.cyc = c) (l : Fin 3) :
    (ls.foldl (fun s l => f l s) s).ixl[l] = h^[ls.count l] s.ixl[l] := by
  induction ls generalizing s with
  | nil => rfl
  | cons m ls ih =>
    rw [List.foldl_cons, w m s hc, ih (s := modIxl m h s) hc]
    by_cases hm : m = l
    · rw [hm, modIxl_same, List.count_cons_self, Function.iterate_succ_apply]
    · rw [modIxl_other _ _ fun e => hm e.symm, List.count_cons_of_ne hm]

theorem LaneWork.kept {c : Cyc} {f : Fin 3 → State → State} {h : Ixl → Ixl} (w : LaneWork c f h) (ls : List (Fin 3)) {s : State} (hc : s.cyc = c) :
    Kept [.ixl] s (ls.foldl (fun s l => f l s) s) := by
  have both : Kept [.ixl] s (ls.foldl (fun s l => f l s) s) ∧ (ls.foldl (fun s l => f l s) s).cyc = c := by
    induction ls using List.reverseRecOn with
    | nil => exact ⟨kept_refl, hc⟩
    | append_singleton ls m ih =>
      obtain ⟨k, e⟩ := ih
      rw [List.foldl_append, List.foldl_cons, List.foldl_nil, w m _ e]
      exact ⟨kept_modIxl m h _ k (by decide), e⟩
  exact both.1

theorem LaneWork.once {c : Cyc} {f : Fin 3 → State → State} {h : Ixl → Ixl} (w : LaneWork c f h) {ls : List (Fin 3)} {s : State} (hc : s.cyc = c) {l : Fin 3} (hl : ls.count l = 1) :
    (ls.foldl (fun s l => f l s) s).ixl[l] = h s.ixl[l] := by rw [w.foldl ls hc, hl]; rfl

theorem LaneWork.unlisted {c : Cyc} {f : Fin 3 → State → State} {h : Ixl → Ixl} (w : LaneWork c f h) {ls : List (Fin 3)} {s : State} (hc : s.cyc = c) {l : Fin 3} (hl : l ∉ ls) :
    (ls.foldl (fun s l => f l s) s).ixl[l] = s.ixl[l] := by rw [w.foldl ls hc, List.count_eq_zero.2 hl]; rfl

/-- Work that does nothing the second time is done once in a listed lane. -/
theorem LaneWork.listed {c : Cyc} {f : Fin 3 → State → State} {h : Ixl → Ixl} (w : LaneWork c f h) {ls : List (Fin 3)} {s : State} (hc : s.cyc = c) {l : Fin 3} (hl : l ∈ ls)
    (again : h (h s.ixl[l]) = h s.ixl[l]) : (ls.foldl (fun s l => f l s) s).ixl[l] = h s.ixl[l] := by
  obtain ⟨n, hn⟩ : ∃ n, ls.count l = n + 1 := ⟨ls.count l - 1, (Nat.succ_pred_eq_of_pos (List.count_pos_iff.2 hl)).symm⟩
  rw [w.foldl ls hc, hn, Function.iterate_succ_apply]
  exact Function.iterate_fixed again n

theorem modIxl_fixed {l : Fin 3} {f : Ixl → Ixl} {s : State} (h : f s.ixl[l] = s.ixl[l]) : modIxl l f s = s := by
  unfold modIxl
  rw [h]
  have e : s.ixl.set l s.ixl[l] = s.ixl := Vector.set_getElem_self l.isLt
  rw [e]

theorem modIxl_modIxl (l : Fin 3) (f h : Ixl → Ixl) (s : State) : modIxl l f (modIxl l h s) = modIxl l (fun z => f (h z)) s := by
  simp [modIxl]

/-! ## Entries of a table -/

theorem setAt_same {α : Type} (xs : List α) (i : Nat) (f : α → α) : (setAt xs i f)[i]? = xs[i]?.map f := by simp [setAt, List.getElem?_modify]

theorem setAt_other {α : Type} (xs : List α) {i j : Nat} (f : α → α) (h : j ≠ i) : (setAt xs i f)[j]? = xs[j]? := by
  simp [setAt, List.getElem?_modify, Ne.symm h]

theorem setAt_setAt {α : Type} (xs : List α) (i : Nat) (f h : α → α) : setAt (setAt xs i f) i h = setAt xs i fun x => h (f x) :=
  List.modify_modify_eq f h i xs

theorem setAt_absent {α : Type} {xs : List α} {i : Nat} (f : α → α) (h : xs[i]? = none) : setAt xs i f = xs :=
  List.modify_eq_self (List.getElem?_eq_none_iff.1 h)

/-- Two updates that agree on the entry. -/
theorem setAt_congr {α : Type} {xs : List α} {i : Nat} {f h : α → α} (e : ∀ x, xs[i]? = some x → f x = h x) : setAt xs i f = setAt xs i h := by
  refine List.ext_getElem? fun j => ?_
  by_cases hj : j = i
  · subst hj
    rw [setAt_same, setAt_same]
    cases hx : xs[j]? with
    | none => rfl
    | some x => exact congrArg some (e x hx)
  · rw [setAt_other _ _ hj, setAt_other _ _ hj]

end Sys2Proof.Proofs
end

section
/-! SUPPORT. The release of a route, and what its timers do (R134, R137, R139 to R142, R151). -/

namespace Sys2Proof.Proofs
open Sys2Proof.Machine Sys2Proof.Safety Sys2Proof.Laws
set_option Elab.async false

/-! ## The release of a route (R139 to R142) -/

/-- Points after an unlock for each entry of a list. -/
def unlocked (ps : List Nat) (xs : List PointSt) : List PointSt := ps.foldl (fun xs p => setAt xs p fun q => { q with locks := q.locks - 1 }) xs

theorem unlocked_getElem? (ps : List Nat) (xs : List PointSt) (p : Nat) : (unlocked ps xs)[p]? = xs[p]?.map fun q => { q with locks := q.locks - ps.count p } := by
  induction ps generalizing xs with
  | nil => exact Option.map_id'.symm
  | cons q ps ih =>
    refine (ih _).trans ?_
    by_cases h : p = q
    · subst h
      rw [setAt_same, Option.map_map, List.count_cons_self]
      congr 1
      funext x
      simp only [Function.comp_apply, Nat.sub_sub, Nat.add_comm]
    · rw [setAt_other _ _ h, List.count_cons_of_ne (Ne.symm h)]

theorem unlockPoints_eq (l : Fin 3) (ps : List Nat) (s : State) : unlockPoints l ps s = modIxl l (fun z => { z with points := unlocked ps z.points }) s := by
  induction ps generalizing s with
  | nil => exact (modIxl_fixed rfl).symm
  | cons p ps ih => exact (ih _).trans (modIxl_modIxl l _ _ s)

/-- A route without its locks and timers. -/
def clearLocks (y : RouteSt) : RouteSt :=
  { y with body := [], ovl := [], flk := [], flankOk := false, approach := none, emergency := none, overlap := none, overlapDone := false }

/-- The tables when the points and timers of a route are given up. -/
def clearRoute (r : Nat) (z : Ixl) : Ixl := match z.routes[r]? with
  | none => z
  | some x => { z with points := unlocked (x.body ++ x.ovl ++ x.flk) z.points, routes := setAt z.routes r clearLocks }

/-- The tables when a route goes to IDLE. -/
def idleRoute (r : Nat) (z : Ixl) : Ixl :=
  { z with routes := setAt z.routes r fun y => { y with mode := .idle, disturbed := false, passed := [], wasOcc := [], cancel := false } }

theorem clearRoute_some {r : Nat} {z : Ixl} {y : RouteSt} (h : z.routes[r]? = some y) :
    clearRoute r z = { z with points := unlocked (y.body ++ y.ovl ++ y.flk) z.points, routes := setAt z.routes r clearLocks } := by
  unfold clearRoute
  rw [h]

theorem clearRoute_again (r : Nat) (z : Ixl) : clearRoute r (clearRoute r z) = clearRoute r z := by
  cases h : z.routes[r]? with
  | none =>
    have e : clearRoute r z = z := by
      unfold clearRoute
      rw [h]
    rw [e, e]
  | some y =>
    rw [clearRoute_some h, clearRoute_some ((setAt_same _ _ _).trans (congrArg (Option.map clearLocks) h)), setAt_setAt]
    rfl

theorem idleRoute_again (r : Nat) (z : Ixl) : idleRoute r (idleRoute r z) = idleRoute r z := by
  unfold idleRoute
  rw [setAt_setAt]

/-- The lane's first step of a release. -/
def clearStep (r : Nat) (l : Fin 3) (s : State) : State := match s.ixl[l].routes[r]? with
  | none => s
  | some x => modRoute l r clearLocks (unlockPoints l (x.body ++ x.ovl ++ x.flk) s)

theorem clearWork (c : Cyc) (r : Nat) : LaneWork c (clearStep r) (clearRoute r) := fun l s _ => by
  unfold clearStep
  cases h : s.ixl[l].routes[r]? with
  | none =>
    refine (modIxl_fixed ?_).symm
    unfold clearRoute
    rw [h]
  | some x =>
    dsimp only
    unfold modRoute
    rw [unlockPoints_eq, modIxl_modIxl]
    unfold modIxl
    rw [clearRoute_some h]

/-- The lane's last step of a release. -/
def idleStep (r : Nat) (l : Fin 3) (s : State) : State :=
  modRoute l r (fun y => { y with mode := .idle, disturbed := false, passed := [], wasOcc := [], cancel := false }) s

theorem idleWork (c : Cyc) (r : Nat) : LaneWork c (idleStep r) (idleRoute r) := fun _ _ _ => rfl

theorem releaseRoute_nil (g : Fin 2) (r : Nat) (s : State) : releaseRoute g r [] s = s := if_pos (by simp)

theorem releaseRoute_eq {g : Fin 2} {r : Nat} {ls : List (Fin 3)} {s : State} (hv : s.voter.grp[g].vp = none) (hl : ls ≠ []) :
    releaseRoute g r ls s = ls.foldl (fun s l => idleStep r l s) (rmuVote 2 r g ls (ls.foldl (fun s l => clearStep r l s) s)).2 :=
  if_neg (by rw [hv]; simp [hl])

theorem clearSteps_keep (r : Nat) (ls : List (Fin 3)) (s : State) : Kept [.ixl] s (ls.foldl (fun s l => clearStep r l s) s) := (clearWork s.cyc r).kept ls rfl

/-- The tables of a lane in which a route is released. -/
theorem releaseRoute_listed {g : Fin 2} {r : Nat} {ls : List (Fin 3)} {s : State} {l : Fin 3} (hv : s.voter.grp[g].vp = none) (hl : l ∈ ls) :
    (releaseRoute g r ls s).ixl[l] = idleRoute r (clearRoute r s.ixl[l]) := by
  have cleared := (clearWork s.cyc r).listed (ls := ls) rfl hl (clearRoute_again r _)
  have point : (ls.foldl (fun s l => clearStep r l s) s).voter.grp[g].vp = none := by rw [(clearSteps_keep r ls s).only .voter (by decide), hv]
  rw [releaseRoute_eq hv (List.ne_nil_of_mem hl), (idleWork _ r).listed rfl hl (idleRoute_again r _), rmuVote_ixl 2 r g ls point, cleared]

/-- The tables of a lane in which it is not. -/
theorem releaseRoute_unlisted {g : Fin 2} {r : Nat} {ls : List (Fin 3)} {s : State} {l : Fin 3} (hv : s.voter.grp[g].vp = none) (hl : l ∉ ls) :
    (releaseRoute g r ls s).ixl[l] = s.ixl[l] := by
  by_cases none : ls = []
  · rw [none, releaseRoute_nil]
  · have point : (ls.foldl (fun s l => clearStep r l s) s).voter.grp[g].vp = Option.none := by rw [(clearSteps_keep r ls s).only .voter (by decide), hv]
    rw [releaseRoute_eq hv none, (idleWork _ r).unlisted rfl hl, rmuVote_ixl 2 r g ls point, (clearWork s.cyc r).unlisted rfl hl]

theorem idle_clearLocks (y : RouteSt) : { clearLocks y with mode := .idle, disturbed := false, passed := [], wasOcc := [], cancel := false } = routeIdle := rfl

theorem idleRoute_routes {r : Nat} {z : Ixl} {y : RouteSt} (h : z.routes[r]? = some y) : (idleRoute r (clearRoute r z)).routes = setAt z.routes r fun _ => routeIdle := by
  rw [clearRoute_some h]
  exact setAt_setAt _ _ _ _

/-- A released route, where nothing but the route's timers and marks has moved before. -/
theorem releaseRoute_frees {g : Fin 2} {r : Nat} {ls : List (Fin 3)} {s u : State} {l : Fin 3} {y z : RouteSt} (hv : u.voter.grp[g].vp = none) (hl : l ∈ ls)
    (hz : u.ixl[l].routes[r]? = some z) (locks : z.body ++ z.ovl ++ z.flk = y.body ++ y.ovl ++ y.flk) (points : u.ixl[l].points = s.ixl[l].points)
    (routes : setAt u.ixl[l].routes r (fun _ => routeIdle) = setAt s.ixl[l].routes r fun _ => routeIdle) : RouteFreed l r y s (releaseRoute g r ls u) := by
  have tables := releaseRoute_listed (r := r) hv hl
  constructor
  · rw [tables, idleRoute_routes hz, routes]
  · intro p
    rw [tables, clearRoute_some hz]
    refine (unlocked_getElem? _ _ p).trans ?_
    rw [points, locks]

theorem mem_lanesWhere {g : Fin 2} {r : Nat} {p : Fin 3 → RouteSt → Bool} {s : State} {l : Fin 3} {y : RouteSt} (hl : l ∈ runLanes g s) (hy : s.ixl[l].routes[r]? = some y)
    (h : p l y = true) : l ∈ lanesWhere g r p s := List.mem_filter.2 ⟨hl, by rw [hy]; exact h⟩

theorem not_mem_lanesWhere {g : Fin 2} {r : Nat} {p : Fin 3 → RouteSt → Bool} {s : State} {l : Fin 3} {y : RouteSt} (hy : s.ixl[l].routes[r]? = some y)
    (h : p l y = false) : l ∉ lanesWhere g r p s := fun m => by
  have k := (List.mem_filter.1 m).2
  rw [hy] at k
  exact absurd (h.symm.trans k) Bool.false_ne_true

/-! ## Expiries (R134, R137, R140 to R142, R151) -/

theorem approachExpire_frees {g : Fin 2} {r : Nat} {s : State} {l : Fin 3} {y : RouteSt} (hv : s.voter.grp[g].vp = none) (hl : l ∈ runLanes g s)
    (hy : s.ixl[l].routes[r]? = some y) (hm : y.mode = .approachLocked) (ht : y.approach = some 0) : RouteFreed l r y s (approachExpire g r s) :=
  releaseRoute_frees hv (mem_lanesWhere hl hy (by rw [hm, ht]; rfl)) hy rfl rfl rfl

theorem emergencyExpire_frees {g : Fin 2} {r : Nat} {s : State} {l : Fin 3} {y : RouteSt} (hv : s.voter.grp[g].vp = none) (hl : l ∈ runLanes g s)
    (hy : s.ixl[l].routes[r]? = some y) (hm : y.mode = .emergency) (ht : y.emergency = some 0) : RouteFreed l r y s (emergencyExpire g r s) :=
  releaseRoute_frees hv (mem_lanesWhere hl hy (by rw [hm, ht]; rfl)) hy rfl rfl rfl

/-- A route whose overlap timer may have expired. -/
def overlapOut (y : RouteSt) : RouteSt := if y.mode == .occupied && y.overlap == some 0 then { y with overlap := none, overlapDone := true } else y

theorem overlapOut_due {y : RouteSt} (hm : y.mode = .occupied) (ht : y.overlap = some 0) : overlapOut y = { y with overlap := none, overlapDone := true } :=
  if_pos (by rw [hm, ht]; rfl)

theorem overlapOut_again (y : RouteSt) : overlapOut (overlapOut y) = overlapOut y := by
  unfold overlapOut
  split_ifs <;> simp_all

/-- The tables when the overlap timer of a route may have expired. -/
def overlapTables (r : Nat) (z : Ixl) : Ixl := { z with routes := setAt z.routes r overlapOut }

theorem overlapWork (c : Cyc) (r : Nat) : LaneWork c (fun l s => modRoute l r overlapOut s) (overlapTables r) := fun _ _ _ => rfl

theorem overlapTables_again (r : Nat) (z : Ixl) : overlapTables r (overlapTables r z) = overlapTables r z := by
  unfold overlapTables
  rw [setAt_setAt]
  simp only [overlapOut_again]

/-- The state when every lane has looked at the timer. -/
def overlapNoted (g : Fin 2) (r : Nat) (s : State) : State := (runLanes g s).foldl (fun s l => modRoute l r overlapOut s) s

theorem overlapExpire_eq (g : Fin 2) (r : Nat) (d : RouteDecl) (s : State) :
    overlapExpire g r d s = releaseRoute g r (lanesWhere g r (fun _ y => y.mode == .occupied && passedAll d y) (overlapNoted g r s)) (overlapNoted g r s) := rfl

theorem runLanes_congr {g : Fin 2} {s t : State} (h : t.voter = s.voter) : runLanes g t = runLanes g s := by
  unfold runLanes memberLanes candLanes
  rw [h]

theorem overlapExpire_due {g : Fin 2} {r : Nat} (d : RouteDecl) {s : State} {l : Fin 3} {y : RouteSt} (hv : s.voter.grp[g].vp = none) (hl : l ∈ runLanes g s)
    (hy : s.ixl[l].routes[r]? = some y) (hm : y.mode = .occupied) (ht : y.overlap = some 0) :
    let u : RouteSt := { y with overlap := none, overlapDone := true }
    (passedAll d u = true → RouteFreed l r y s (overlapExpire g r d s)) ∧
      (passedAll d u = false → (overlapExpire g r d s).ixl[l] = { s.ixl[l] with routes := setAt s.ixl[l].routes r fun _ => u }) := by
  intro u
  have same := ((overlapWork s.cyc r).kept (runLanes g s) rfl).only .voter (by decide)
  have noted : (overlapNoted g r s).ixl[l] = overlapTables r s.ixl[l] := (overlapWork s.cyc r).listed rfl hl (overlapTables_again r _)
  have point : (overlapNoted g r s).voter.grp[g].vp = none := (congrArg (fun v : Voter => v.grp[g].vp) same).trans hv
  have lanes : runLanes g (overlapNoted g r s) = runLanes g s := runLanes_congr same
  have entry : (overlapNoted g r s).ixl[l].routes[r]? = some u := by
    rw [noted]
    refine (setAt_same _ _ _).trans ?_
    rw [hy, Option.map_some, overlapOut_due hm ht]
  have occupied : (u.mode == .occupied) = true := beq_iff_eq.2 hm
  rw [overlapExpire_eq]
  refine ⟨fun passed => ?_, fun stays => ?_⟩
  · refine releaseRoute_frees point (mem_lanesWhere (by rw [lanes]; exact hl) entry (by rw [occupied, passed]; rfl)) entry rfl ?_ ?_
    · rw [noted]
      rfl
    · rw [noted]
      exact setAt_setAt _ _ _ _
  · rw [releaseRoute_unlisted point (not_mem_lanesWhere entry (by rw [occupied, stays]; rfl)), noted]
    unfold overlapTables
    have due : setAt s.ixl[l].routes r overlapOut = setAt s.ixl[l].routes r fun _ => u := setAt_congr fun x hx => by
      rw [← Option.some.inj (hy.symm.trans hx)]
      exact overlapOut_due hm ht
    rw [due]

/-- The tables when the move of a point may have run out. -/
def moveTables (p : Nat) (z : Ixl) : Ixl := match (z.points[p]?).bind (·.moving) with
  | some (_, 0) => { z with points := setAt z.points p fun q => { q with moving := none, failed := true } }
  | _ => z

theorem moveWork (c : Cyc) (p : Nat) : LaneWork c (fun l s => moveExpire l p s) (moveTables p) := fun l s _ => by
  show moveExpire l p s = modIxl l (moveTables p) s
  unfold moveExpire
  split
  next rev h =>
    unfold modPoint modIxl moveTables
    rw [h]
    rfl
  next h =>
    refine (modIxl_fixed ?_).symm
    unfold moveTables
    split
    next rev k => exact absurd k (h rev)
    · rfl

theorem moveTables_due {p : Nat} {z : Ixl} {q : PointSt} {rev : Bool} (hq : z.points[p]? = some q) (hm : q.moving = some (rev, 0)) :
    moveTables p z = { z with points := setAt z.points p fun q => { q with moving := none, failed := true } } := by
  unfold moveTables
  rw [hq, Option.bind_some, hm]
  rfl

theorem moveTables_again {p : Nat} {z : Ixl} {q : PointSt} {rev : Bool} (hq : z.points[p]? = some q) (hm : q.moving = some (rev, 0)) :
    moveTables p (moveTables p z) = moveTables p z := by
  rw [moveTables_due hq hm]
  unfold moveTables
  rw [setAt_same, hq]
  rfl

/-- The tables when the restart hold may have run out. -/
def holdTables (z : Ixl) : Ixl := if z.hold == some 0 then { z with hold := none, holdDone := true } else z

theorem holdWork (c : Cyc) : LaneWork c holdExpire holdTables := fun l s _ => by
  unfold holdExpire
  split
  next h =>
    unfold modIxl holdTables
    rw [if_pos h]
  next h => exact (modIxl_fixed (if_neg h)).symm

theorem holdTables_due {z : Ixl} (h : z.hold = some 0) : holdTables z = { z with hold := none, holdDone := true } := if_pos (by rw [h]; rfl)

theorem holdTables_again {z : Ixl} (h : z.hold = some 0) : holdTables (holdTables z) = holdTables z := by
  rw [holdTables_due h]
  rfl

end Sys2Proof.Proofs
end

section
/-! SUPPORT. Connection timeouts, and arming the RMU (R130, R148). -/

namespace Sys2Proof.Proofs
open Sys2Proof.Machine Sys2Proof.Safety Sys2Proof.Laws
set_option Elab.async false

/-! ## A connection's timeout (R148) -/

/-- A connection after its timeout. -/
def connFailed (c : ConnSt) : ConnSt := { c with mode := .failed, fresh := false, payload := none }

/-- An OPEN connection whose count is above TIMEOUT. -/
def connDue (d : ConnDecl) (c : ConnSt) : Bool := d.receives && c.mode == .opened && decide (d.timeout < c.since)

/-- Lane `l`'s connection `k` of group `g` is due. -/
def laneDue (l : Fin 3) (g : Fin 2) (k : Nat) (d : ConnDecl) (s : State) : Bool := s.conns[l][g][k]?.any (connDue d)

/-- What showing a connection keeps. -/
structure Showing (s t : State) : Prop where
  images : ∀ d : DomId, t.doms[d].image = s.doms[d].image
  groups : t.voter.grp = s.voter.grp
  count : t.cyc.count = s.cyc.count

theorem Showing.refl (s : State) : Showing s s := ⟨fun _ => rfl, rfl, rfl⟩
theorem Showing.trans {s t u : State} (h : Showing s t) (k : Showing t u) : Showing s u :=
  ⟨fun d => (k.images d).trans (h.images d), k.groups.trans h.groups, k.count.trans h.count⟩

theorem Showing.lanes {s t : State} (h : Showing s t) (g : Fin 2) : runLanes g t = runLanes g s := by
  unfold runLanes memberLanes candLanes
  rw [h.groups]

theorem image_of_shown {x y : Dom} (h : shown x = shown y) : x.image = y.image := (congrArg Dom.image h :)

theorem stored_writeEntry (l : Fin 3) (g : Fin 2) (k : Nat) (d : ConnDecl) (s : State) : Stored s (writeEntry l g k d s) := by
  unfold writeEntry
  split
  · exact stored_store _ _ _ _ _
  · exact ⟨fun _ => rfl, rfl, fun _ => rfl⟩

theorem connShow_groups (l : Fin 3) (g : Fin 2) (im : Image) (k : Nat) (d : ConnDecl) (s : State) : (connShow l g im k d s).voter.grp = s.voter.grp := by
  unfold connShow
  split
  · rfl
  · refine (stored_writeEntry _ _ _ _ _).groups.trans ?_
    split
    · exact (stored_store _ _ _ _ _).groups
    · rfl

theorem seen_connShow (l : Fin 3) (g : Fin 2) (im : Image) (k : Nat) (d : ConnDecl) (s : State) : Seen s (connShow l g im k d s) := by
  unfold connShow
  split
  · exact .refl s
  · refine Seen.trans ?_ (seen_writeEntry _ _ _ _ _)
    split
    · exact seen_store _ _ _ _ _
    · exact .refl s

theorem kept_connShow' (l : Fin 3) (g : Fin 2) (im : Image) (k : Nat) (d : ConnDecl) (s : State) :
    Kept [.cores, .doms, .mem, .voter, .solvers, .freeCtr] s (connShow l g im k d s) := kept_connShow l g im k d s kept_refl (by decide)

theorem showing_connShow (l : Fin 3) (g : Fin 2) (im : Image) (k : Nat) (d : ConnDecl) (s : State) : Showing s (connShow l g im k d s) where
  images e := image_of_shown ((seen_connShow l g im k d s).doms e)
  groups := connShow_groups l g im k d s
  count := congrArg Cyc.count ((kept_connShow' l g im k d s).only .cyc (by decide))

/-- The record of a timeout. -/
def timeoutEntry (g : Fin 2) (k : Nat) (s : State) : LogEntry := { kind := .connTimeout, a := g.val, b := k, cyc := s.cyc.count }

theorem connExpire_due {l : Fin 3} {g : Fin 2} {k : Nat} {d : ConnDecl} {s : State} (im : Image) (h : laneDue l g k d s = true) :
    let u := connShow l g im k d (modConn l g k connFailed s)
    connExpire l g im k d s = if (runLanes g u).head? = some l then addLog .connTimeout g.val k u else u := by
  unfold laneDue at h
  unfold connExpire
  cases hc : s.conns[l][g][k]? with
  | none =>
    rw [hc] at h
    exact absurd h Bool.false_ne_true
  | some c =>
    rw [hc] at h
    exact if_pos h

theorem connExpire_idle {l : Fin 3} {g : Fin 2} {k : Nat} {d : ConnDecl} {s : State} (im : Image) (h : laneDue l g k d s = false) : connExpire l g im k d s = s := by
  unfold laneDue at h
  unfold connExpire
  cases hc : s.conns[l][g][k]? with
  | none => rfl
  | some c =>
    rw [hc] at h
    exact if_neg fun e => Bool.false_ne_true (h.symm.trans e)

theorem modConn_same (l : Fin 3) (g : Fin 2) (k : Nat) (f : ConnSt → ConnSt) (s : State) : (modConn l g k f s).conns[l][g] = setAt s.conns[l][g] k f := by simp [modConn]

theorem modConn_other {l m : Fin 3} {g h : Fin 2} (k : Nat) (f : ConnSt → ConnSt) (s : State) (e : ¬ (m = l ∧ h = g)) : (modConn l g k f s).conns[m][h] = s.conns[m][h] := by
  unfold modConn
  by_cases hm : m = l
  · subst hm
    have hh : h ≠ g := fun hh => e ⟨rfl, hh⟩
    simp only [Fin.getElem_fin, Vector.getElem_set_self]
    exact Vector.getElem_set_ne g.isLt h.isLt fun i => hh (Fin.ext i.symm)
  · exact congrArg (fun v : Vector (List ConnSt) 2 => v[h]) (Vector.getElem_set_ne l.isLt m.isLt fun i => hm (Fin.ext i.symm))

/-- What the timeout of a connection in one lane leaves. -/
structure Expired (l : Fin 3) (g : Fin 2) (k : Nat) (d : ConnDecl) (s t : State) : Prop where
  showing : Showing s t
  conns : ∀ (m : Fin 3) (h : Fin 2), t.conns[m][h] = if m = l ∧ h = g ∧ laneDue l g k d s = true then setAt s.conns[m][h] k connFailed else s.conns[m][h]
  log : t.log = s.log ++ if (runLanes g s).head? = some l ∧ laneDue l g k d s = true then [timeoutEntry g k s] else []

theorem connExpire_expired (l : Fin 3) (g : Fin 2) (im : Image) (k : Nat) (d : ConnDecl) (s : State) : Expired l g k d s (connExpire l g im k d s) := by
  cases due : laneDue l g k d s with
  | false =>
    rw [connExpire_idle im due]
    exact ⟨.refl s, fun m h => (if_neg (by rw [due]; simp)).symm, by rw [due]; simp⟩
  | true =>
    rw [connExpire_due im due]
    have showing : Showing s (connShow l g im k d (modConn l g k connFailed s)) :=
      Showing.trans (t := modConn l g k connFailed s) ⟨fun _ => rfl, rfl, rfl⟩ (showing_connShow l g im k d _)
    have conns : (connShow l g im k d (modConn l g k connFailed s)).conns = (modConn l g k connFailed s).conns := (kept_connShow' l g im k d _).only .conns (by decide)
    have log : (connShow l g im k d (modConn l g k connFailed s)).log = s.log := (kept_connShow' l g im k d _).only .log (by decide)
    generalize connShow l g im k d (modConn l g k connFailed s) = u at showing conns log
    rw [showing.lanes g]
    have table (m : Fin 3) (h : Fin 2) : u.conns[m][h] = if m = l ∧ h = g ∧ laneDue l g k d s = true then setAt s.conns[m][h] k connFailed else s.conns[m][h] := by
      rw [conns, due]
      split_ifs with e
      · obtain ⟨rfl, rfl, -⟩ := e
        exact modConn_same _ _ _ _ _
      · exact modConn_other k connFailed s fun hh => e ⟨hh.1, hh.2, rfl⟩
    split_ifs with head
    · refine ⟨⟨showing.images, showing.groups, showing.count⟩, table, ?_⟩
      rw [if_pos ⟨head, due⟩, ← log]
      show u.log ++ [_] = _
      unfold timeoutEntry
      rw [showing.count]
    · refine ⟨showing, table, ?_⟩
      rw [if_neg fun e => head e.1, log, List.append_nil]

theorem Expired.due_after {l : Fin 3} {g : Fin 2} {k : Nat} {d : ConnDecl} {s t : State} (h : Expired l g k d s t) (m : Fin 3) :
    laneDue m g k d t = (laneDue m g k d s && decide (m ≠ l)) := by
  have table := h.conns m g
  unfold laneDue at table ⊢
  rw [table]
  split_ifs with e
  · obtain ⟨rfl, -, -⟩ := e
    rw [setAt_same]
    cases s.conns[m][g][k]? <;> simp [connDue, connFailed]
  · by_cases hm : m = l
    · subst hm
      cases due : s.conns[m][g][k]?.any (connDue d) with
      | false => rfl
      | true => exact absurd ⟨rfl, rfl, due⟩ e
    · simp [hm]

/-- What the timeout of a connection leaves in the lanes of a list. -/
structure ExpiredIn (ls : List (Fin 3)) (g : Fin 2) (k : Nat) (d : ConnDecl) (s t : State) : Prop where
  showing : Showing s t
  conns : ∀ (m : Fin 3) (h : Fin 2), t.conns[m][h] = if m ∈ ls ∧ h = g ∧ laneDue m g k d s = true then setAt s.conns[m][h] k connFailed else s.conns[m][h]
  log : t.log = s.log ++ if ∃ m ∈ ls, (runLanes g s).head? = some m ∧ laneDue m g k d s = true then [timeoutEntry g k s] else []

theorem expiredIn_foldl (ls : List (Fin 3)) (g : Fin 2) (im : Image) (k : Nat) (d : ConnDecl) (s : State) :
    ExpiredIn ls g k d s (ls.foldl (fun s l => connExpire l g im k d s) s) := by
  induction ls generalizing s with
  | nil => exact ⟨.refl s, fun m h => by simp, by simp⟩
  | cons l ls ih =>
    have first := connExpire_expired l g im k d s
    have rest := ih (connExpire l g im k d s)
    rw [List.foldl_cons]
    generalize connExpire l g im k d s = u at first rest ⊢
    generalize List.foldl _ u ls = t at rest ⊢
    refine ⟨first.showing.trans rest.showing, fun m h => ?_, ?_⟩
    · rw [rest.conns, first.conns, first.due_after]
      by_cases hm : m = l
      · subst hm
        simp
      · simp [hm]
    · rw [rest.log, first.log, List.append_assoc, first.showing.lanes]
      have entry : timeoutEntry g k u = timeoutEntry g k s := by
        unfold timeoutEntry
        rw [first.showing.count]
      rw [entry]
      congr 1
      simp only [first.due_after]
      by_cases hl : (runLanes g s).head? = some l ∧ laneDue l g k d s = true
      · rw [if_pos hl, if_neg, if_pos ⟨l, List.mem_cons_self, hl⟩]
        · rfl
        · rintro ⟨m, -, hm, e⟩
          obtain rfl := Option.some.inj (hl.1.symm.trans hm)
          simp at e
      · rw [if_neg hl, List.nil_append]
        refine if_congr ⟨?_, ?_⟩ rfl rfl
        · rintro ⟨m, hm, head, e⟩
          exact ⟨m, List.mem_cons_of_mem _ hm, head, (Bool.and_eq_true_iff.1 e).1⟩
        · rintro ⟨m, hm, head, e⟩
          rcases List.mem_cons.1 hm with rfl | hm
          · exact absurd ⟨head, e⟩ hl
          · refine ⟨m, hm, head, Bool.and_eq_true_iff.2 ⟨e, decide_eq_true fun k => hl (by subst k; exact ⟨head, e⟩)⟩⟩

/-- A group's declaration of a connection. -/
def connOf (g : Fin 2) (k : Nat) (s : State) : Option ConnDecl := s.doms[groupDom g].image.bind fun im => im.conns[k]?

/-- A declared connection of a group that is due in lane `l`. -/
def groupDue (g : Fin 2) (k : Nat) (s : State) (l : Fin 3) : Bool := (connOf g k s).any fun d => laneDue l g k d s

/-- The timeout of a connection in the lanes of a group. -/
def groupExpire (k : Nat) (s : State) (g : Fin 2) : State := match (s.doms[groupDom g].image) with
  | some im => match im.conns[k]? with
    | some d => eachLane g (fun l s => connExpire l g im k d s) s
    | none => s
  | none => s

/-- What the timeout of a connection leaves of a group. -/
structure GroupExpired (g : Fin 2) (k : Nat) (s t : State) : Prop where
  showing : Showing s t
  conns : ∀ (m : Fin 3) (h : Fin 2), t.conns[m][h] = if h = g ∧ m ∈ runLanes g s ∧ groupDue g k s m = true then setAt s.conns[m][h] k connFailed else s.conns[m][h]
  log : t.log = s.log ++ if (runLanes g s).head?.any (groupDue g k s) then [timeoutEntry g k s] else []

theorem groupExpired_none {g : Fin 2} {k : Nat} {s : State} (h : connOf g k s = none) : GroupExpired g k s s := by
  have never (m : Fin 3) : groupDue g k s m = false := by
    unfold groupDue
    rw [h]
    rfl
  refine ⟨.refl s, fun m w => by rw [never]; simp, ?_⟩
  rw [if_neg, List.append_nil]
  cases (runLanes g s).head? <;> simp [never]

theorem groupExpire_expired (g : Fin 2) (k : Nat) (s : State) : GroupExpired g k s (groupExpire k s g) := by
  unfold groupExpire
  cases him : s.doms[groupDom g].image with
  | none => exact groupExpired_none (by unfold connOf; rw [him]; rfl)
  | some im =>
    dsimp only
    cases hd : im.conns[k]? with
    | none => exact groupExpired_none (by unfold connOf; rw [him]; exact hd)
    | some d =>
      have decl : connOf g k s = some d := by
        unfold connOf
        rw [him]
        exact hd
      have due (m : Fin 3) : groupDue g k s m = laneDue m g k d s := by
        unfold groupDue
        rw [decl]
        rfl
      obtain ⟨showing, conns, log⟩ := expiredIn_foldl (runLanes g s) g im k d s
      refine ⟨showing, fun m h => (conns m h).trans (if_congr ?_ rfl rfl), log.trans (congrArg (s.log ++ ·) (if_congr ?_ rfl rfl))⟩
      · rw [due]
        exact ⟨fun ⟨a, b, c⟩ => ⟨b, a, c⟩, fun ⟨b, a, c⟩ => ⟨a, b, c⟩⟩
      · cases hh : (runLanes g s).head? with
        | none => simp
        | some l =>
          have listed : l ∈ runLanes g s := List.mem_of_mem_head? hh
          simp [due, listed]

theorem GroupExpired.other {g h : Fin 2} {k : Nat} {s t : State} (e : GroupExpired g k s t) (hg : h ≠ g) (m : Fin 3) : groupDue h k t m = groupDue h k s m := by
  have decl : connOf h k t = connOf h k s := by
    unfold connOf
    rw [e.showing.images]
  have table : t.conns[m][h] = s.conns[m][h] := (e.conns m h).trans (if_neg fun c => hg c.1)
  unfold groupDue laneDue
  rw [decl, table]

/-- CONNECTION_TIMEOUT as a whole. -/
theorem connectionTimeout_leaves (k : Fin 1024) (s : State) : ∃ t, execConnectionTimeout k s = .next t ∧
    t.log = s.log ++ (allGroups.filter fun h => (runLanes h s).head?.any (groupDue h k.val s)).map (fun h => timeoutEntry h k.val s) ∧
      ∀ (l : Fin 3) (h : Fin 2), t.conns[l][h] = if l ∈ runLanes h s ∧ groupDue h k.val s l = true then setAt s.conns[l][h] k.val connFailed else s.conns[l][h] := by
  have first := groupExpire_expired 0 k.val s
  have second := groupExpire_expired 1 k.val (groupExpire k.val s 0)
  refine ⟨groupExpire k.val (groupExpire k.val s 0) 1, rfl, ?_, fun l h => ?_⟩
  all_goals generalize groupExpire k.val s 0 = u at first second ⊢
  all_goals generalize groupExpire k.val u 1 = t at second ⊢
  all_goals
    have lanes := first.showing.lanes 1
    have due : groupDue 1 k.val u = groupDue 1 k.val s := funext (first.other (h := 1) (by decide))
  · have entry : timeoutEntry 1 k.val u = timeoutEntry 1 k.val s := by
      unfold timeoutEntry
      rw [first.showing.count]
    rw [second.log, first.log, lanes, due, entry, List.append_assoc]
    congr 1
    show _ = ([0, 1].filter _).map _
    rw [List.filter_cons, List.filter_cons, List.filter_nil]
    split_ifs <;> rfl
  · rw [second.conns, first.conns, lanes, due]
    rcases (by omega : h = 0 ∨ h = 1) with rfl | rfl
    · simp
    · simp

/-! ## Arming the RMU (R130) -/

theorem laneOf_laneCore (l : Fin 3) (k : Fin 2) : laneOf (laneCore l k) = some (l, k) := by
  revert l k
  decide

theorem rmuBy_priv {l : Fin 3} {k : Fin 2} (f : Fin 3 → State → State) {s : State} (pd : pdOn (lanePd l) s = true) (priv : s.cores[laneCore l k].arch.priv = false) :
    rmuBy (laneCore l k) f s = { s with bus := { resp := .priv, val := 0 } } := by
  unfold rmuBy
  rw [laneOf_laneCore]
  exact (if_neg (by rw [pd]; decide)).trans (if_pos (by rw [priv]; rfl))

theorem rmuBy_done {l : Fin 3} {k : Fin 2} (f : Fin 3 → State → State) {s : State} (pd : pdOn (lanePd l) s = true) (priv : s.cores[laneCore l k].arch.priv = true) :
    rmuBy (laneCore l k) f s = answer .ok 0 (f l s) := by
  unfold rmuBy
  rw [laneOf_laneCore]
  exact (if_neg (by rw [pd]; decide)).trans (if_neg (by rw [priv]; decide))

/-! ## The interlocking's timers and arming -/

/-- Settles O36: each expiry is work on the tables of every lane that runs the group, a release goes through the RMU's vote without touching them, and a
connection that is due fails once. -/
theorem interlockingTimersAndArming : Obligations.InterlockingTimersAndArming := by
  refine ⟨fun g im x s hx => ⟨fun r d hd hv => ⟨?_, ?_, ?_⟩, fun p => ?_, ?_⟩, fun k s => ?_, fun l k s pd => ⟨fun priv => ⟨?_, ?_⟩, fun priv => ⟨?_, ?_⟩⟩⟩
  · refine gives_of_leaves (leaves_approachReleaseExpiry r s) (t := approachExpire g r.val s) ?_ fun l hl y hy hm ht => approachExpire_frees hv hl hy hm ht
    show execApproachReleaseExpiry r s = _
    unfold execApproachReleaseExpiry
    rw [hx]
  · refine gives_of_leaves (leaves_emergencyReleaseExpiry r s) (t := emergencyExpire g r.val s) ?_ fun l hl y hy hm ht => emergencyExpire_frees hv hl hy hm ht
    show execEmergencyReleaseExpiry r s = _
    unfold execEmergencyReleaseExpiry
    rw [hx]
  · refine gives_of_leaves (leaves_overlapReleaseExpiry r s) (t := overlapExpire g r.val d s) ?_ fun l hl y hy hm ht => overlapExpire_due d hv hl hy hm ht
    show execOverlapReleaseExpiry r s = _
    unfold execOverlapReleaseExpiry
    rw [hx]
    dsimp only
    rw [hd]
  · refine gives_of_leaves (leaves_pointMoveTimeout p s) (t := eachLane g (fun l s => moveExpire l p.val s) s) ?_ fun l hl q rev hq hm => ?_
    · show execPointMoveTimeout p s = _
      unfold execPointMoveTimeout
      rw [hx]
    · exact ((moveWork s.cyc p.val).listed rfl hl (moveTables_again hq hm)).trans (moveTables_due hq hm)
  · refine gives_of_leaves (leaves_restartHoldExpiry s) (t := eachLane g holdExpire s) ?_ fun l hl h => ?_
    · show execRestartHoldExpiry s = _
      unfold execRestartHoldExpiry
      rw [hx]
    · exact ((holdWork s.cyc).listed rfl hl (holdTables_again h)).trans (holdTables_due h)
  · obtain ⟨t, run, log, conns⟩ := connectionTimeout_leaves k s
    have same (l : Fin 3) (h : Fin 2) : ((s.doms[groupDom h].image.bind fun im => im.conns[k.val]?).any fun d =>
        d.receives && s.conns[l][h][k.val]?.any fun c => c.mode == .opened && decide (d.timeout < c.since)) = groupDue h k.val s l := by
      unfold groupDue connOf
      refine congrArg (Option.any · _) (funext fun d => ?_)
      unfold laneDue connDue
      cases s.conns[l][h][k.val]? with
      | none => exact Bool.and_false _
      | some c => exact (Bool.and_assoc _ _ _).symm
    refine gives_of_leaves (leaves_connectionTimeout k s) run ?_
    simp only [same]
    exact ⟨log, conns⟩
  · exact congrArg Host.Outcome.next (rmuBy_priv rmuArmOp pd priv)
  · exact congrArg Host.Outcome.next (rmuBy_priv rmuDisarmOp pd priv)
  · refine congrArg Host.Outcome.next ((rmuBy_done rmuArmOp pd priv).trans ?_)
    rfl
  · refine congrArg Host.Outcome.next ((rmuBy_done rmuDisarmOp pd priv).trans ?_)
    rfl

end Sys2Proof.Proofs
end

section
/-! SUPPORT. Requests to the interlocking (R131, R134, R137, R139, R142, R151). -/

namespace Sys2Proof.Proofs
open Sys2Proof.Machine Sys2Proof.Safety Sys2Proof.Laws
set_option Elab.async false

/-! ## A request waits or is served (R131) -/

theorem ixlAsk_stopped {g : Fin 2} {im : Image} {x : IxlDecl} {s : State} (q : IxlReq) (hx : ixlOf s = some (g, im, x)) (run : s.doms[groupDom g].run = false) : ixlAsk q s = s := by
  unfold ixlAsk
  rw [hx]
  exact if_pos (by rw [run]; rfl)

theorem ixlAsk_waits {g : Fin 2} {im : Image} {x : IxlDecl} {s : State} (q : IxlReq) (hx : ixlOf s = some (g, im, x)) (run : s.doms[groupDom g].run = true)
    (h : inStep6 g s = false ∨ s.voter.grp[g].queue ≠ []) : ixlAsk q s = modGroup g (fun v => { v with queue := v.queue ++ [q] }) s := by
  unfold ixlAsk
  rw [hx]
  refine (if_neg (by rw [run]; decide)).trans (if_neg fun e => ?_)
  obtain ⟨at6, empty⟩ := Bool.and_eq_true_iff.1 e
  rcases h with h | h
  · exact Bool.false_ne_true (h.symm.trans at6)
  · exact h (List.isEmpty_iff.1 empty)

theorem ixlAsk_served {g : Fin 2} {im : Image} {x : IxlDecl} {s : State} (q : IxlReq) (hx : ixlOf s = some (g, im, x)) (run : s.doms[groupDom g].run = true)
    (at6 : inStep6 g s = true) (empty : s.voter.grp[g].queue = []) : ixlAsk q s = ixlRequest g x q s := by
  unfold ixlAsk
  rw [hx]
  exact (if_neg (by rw [run]; decide)).trans (if_pos (by rw [at6, empty]; rfl))

theorem inStep6_vp {g : Fin 2} {s : State} (h : inStep6 g s = true) : s.voter.grp[g].vp = none := Option.isNone_iff_eq_none.1 (Bool.and_eq_true_iff.1 h).2

theorem LaneWork.kept_step {ps : List Part} {r s : State} {f : Fin 3 → State → State} {h : Ixl → Ixl} (w : LaneWork s.cyc f h) (l : Fin 3) (k : Kept ps r s) (hk : [.ixl] ⊆ ps) :
    Kept ps r (f l s) := by
  rw [w l s rfl]
  exact kept_modIxl l h s k hk

/-- A fold whose every step does nothing. -/
theorem foldl_fixed {α : Type} {f : State → α → State} {ls : List α} {s : State} (h : ∀ l ∈ ls, f s l = s) : ls.foldl f s = s := by
  induction ls with
  | nil => rfl
  | cons l ls ih =>
    rw [List.foldl_cons, h l List.mem_cons_self]
    exact ih fun m hm => h m (List.mem_cons_of_mem _ hm)

theorem modIxl_congr {l : Fin 3} {f h : Ixl → Ixl} {s : State} (e : f s.ixl[l] = h s.ixl[l]) : modIxl l f s = modIxl l h s := by
  unfold modIxl
  rw [e]

/-- The tables with an answer. -/
def told (a : IxlAnswer) (z : Ixl) : Ixl := { z with answer := a }

/-! ## SET_ROUTE (R137, R151) -/

/-- The tables with a refusal during the restart hold. -/
def holdTold (z : Ixl) : Ixl := if z.holdDone then z else told .restartHold z

/-- A lane refuses during its restart hold. -/
def holdStep (l : Fin 3) (s : State) : State := if s.ixl[l].holdDone then s else answerIxl l .restartHold s

theorem holdRefusal (c : Cyc) : LaneWork c holdStep holdTold := fun l s _ => by
  unfold holdStep
  split
  next h => exact (modIxl_fixed (f := holdTold) (if_pos h)).symm
  next h => exact modIxl_congr (h := holdTold) (if_neg h).symm

/-- A lane takes the RMU's outcome for a route. -/
def setStep (r w : Nat) (l : Fin 3) (s : State) : State :=
  let s := answerIxl l (outcomeAnswer w) s
  if w / 2 ^ 28 = 1 then modRoute l r (fun y => { y with mode := .locked, disturbed := false, passed := [], wasOcc := [], cancel := false }) s else s

/-- The tables with that outcome. -/
def setTables (r w : Nat) (z : Ixl) : Ixl :=
  { z with
    answer := outcomeAnswer w
    routes := if w / 2 ^ 28 = 1 then setAt z.routes r (fun y => { y with mode := .locked, disturbed := false, passed := [], wasOcc := [], cancel := false }) else z.routes }

theorem setWork (c : Cyc) (r w : Nat) : LaneWork c (setStep r w) (setTables r w) := fun l s _ => by
  unfold setStep setTables
  dsimp only
  split_ifs with granted
  · exact modIxl_modIxl l _ _ s
  · rfl

theorem setTables_again (r w : Nat) (z : Ixl) : setTables r w (setTables r w z) = setTables r w z := by
  unfold setTables
  split_ifs
  · rw [setAt_setAt]
  · rfl

/-- SET_ROUTE, by what the RMU's vote gives. -/
theorem setRoute_eq (g : Fin 2) (r : Nat) (s : State) : setRoute g r s =
    let z := rmuVote 1 r g ((runLanes g s).filter fun l => s.ixl[l].holdDone) ((runLanes g s).foldl (fun s l => holdStep l s) s)
    match z.1 with
    | none => z.2
    | some w => ((runLanes g s).filter fun l => s.ixl[l].holdDone).foldl (fun s l => setStep r w l s) z.2 := by
  have steps : setRoute g r s = match rmuVote 1 r g ((runLanes g s).filter fun l => s.ixl[l].holdDone) ((runLanes g s).foldl (fun s l => holdStep l s) s) with
    | (none, u) => u
    | (some w, u) => ((runLanes g s).filter fun l => s.ixl[l].holdDone).foldl (fun s l => setStep r w l s) u := rfl
  rw [steps]
  generalize rmuVote 1 r g _ _ = z
  obtain ⟨o, u⟩ := z
  cases o <;> rfl

theorem setRoute_held {g : Fin 2} (r : Nat) {s : State} (h : ∀ l ∈ runLanes g s, s.ixl[l].holdDone = false) :
    setRoute g r s = (runLanes g s).foldl (fun s l => holdStep l s) s := by
  have none : ((runLanes g s).filter fun l => s.ixl[l].holdDone) = [] := List.filter_eq_nil_iff.2 fun l hl e => Bool.false_ne_true ((h l hl).symm.trans e)
  have vote (u : State) : rmuVote 1 r g [] u = (Option.none, u) := if_pos (by simp)
  rw [setRoute_eq, none, vote]

theorem setRoute_voted {g : Fin 2} {r w : Nat} {s : State} (h : ∀ l ∈ runLanes g s, s.ixl[l].holdDone = true) (hw : (rmuVote 1 r g (runLanes g s) s).1 = some w) :
    setRoute g r s = (runLanes g s).foldl (fun s l => setStep r w l s) (rmuVote 1 r g (runLanes g s) s).2 := by
  have all : ((runLanes g s).filter fun l => s.ixl[l].holdDone) = runLanes g s := List.filter_eq_self.2 h
  have idle : (runLanes g s).foldl (fun s l => holdStep l s) s = s := foldl_fixed fun l hl => if_pos (h l hl)
  rw [setRoute_eq, all, idle]
  dsimp only
  rw [hw]

/-! ## CANCEL_ROUTE (R139) -/

/-- A lane's answer to the cancel of a route. -/
def cancelStep (r : Nat) (l : Fin 3) (s : State) : State := match s.ixl[l].routes[r]? with
  | none => answerIxl l .badRoute s
  | some y => match y.mode with
    | .idle => answerIxl l .notLocked s
    | .locked => answerIxl l .granted s
    | .set => answerIxl l .granted (modRoute l r (fun z => { z with cancel := true }) s)
    | .cleared => answerIxl l .granted (modRoute l r (fun z => { z with cancel := true }) s)
    | .occupied => answerIxl l .routeBusy s
    | .approachLocked => answerIxl l .routeBusy s
    | .emergency => answerIxl l .routeBusy s

/-- The tables with a cancel that waits. -/
def cancelling (r : Nat) (z : Ixl) : Ixl := told .granted { z with routes := setAt z.routes r fun y => { y with cancel := true } }

/-- The tables after the cancel of a route. -/
def cancelTables (r : Nat) (z : Ixl) : Ixl := match z.routes[r]? with
  | none => told .badRoute z
  | some y => match y.mode with
    | .idle => told .notLocked z
    | .locked => told .granted z
    | .set => cancelling r z
    | .cleared => cancelling r z
    | .occupied => told .routeBusy z
    | .approachLocked => told .routeBusy z
    | .emergency => told .routeBusy z

theorem answer_modRoute (l : Fin 3) (r : Nat) (a : IxlAnswer) (f : RouteSt → RouteSt) (s : State) :
    answerIxl l a (modRoute l r f s) = modIxl l (fun z => told a { z with routes := setAt z.routes r f }) s := modIxl_modIxl l _ _ s

theorem cancelWork (c : Cyc) (r : Nat) : LaneWork c (cancelStep r) (cancelTables r) := fun l s _ => by
  unfold cancelStep
  cases hy : s.ixl[l].routes[r]? with
  | none => exact modIxl_congr (by unfold cancelTables; rw [hy]; rfl)
  | some y =>
    dsimp only
    cases hm : y.mode with
    | set =>
      refine (answer_modRoute l r _ _ s).trans (modIxl_congr ?_)
      unfold cancelTables
      rw [hy]
      dsimp only
      rw [hm]
      rfl
    | cleared =>
      refine (answer_modRoute l r _ _ s).trans (modIxl_congr ?_)
      unfold cancelTables
      rw [hy]
      dsimp only
      rw [hm]
      rfl
    | idle | locked | occupied | approachLocked | emergency =>
      refine modIxl_congr ?_
      unfold cancelTables
      rw [hy]
      dsimp only
      rw [hm]
      rfl

theorem cancelTables_locked {r : Nat} {z : Ixl} {y : RouteSt} (hy : z.routes[r]? = some y) (hm : y.mode = .locked) : cancelTables r z = told .granted z := by
  unfold cancelTables
  rw [hy]
  dsimp only
  rw [hm]

theorem cancelRoute_eq (g : Fin 2) (r : Nat) (s : State) :
    cancelRoute g r s = releaseRoute g r (lanesWhere g r (fun _ y => y.mode == .locked) s) ((runLanes g s).foldl (fun s l => cancelStep r l s) s) := rfl

theorem cancelRoute_none {g : Fin 2} {r : Nat} {s : State} (h : ∀ l ∈ runLanes g s, ∀ y, s.ixl[l].routes[r]? = some y → y.mode ≠ .locked) :
    cancelRoute g r s = (runLanes g s).foldl (fun s l => cancelStep r l s) s := by
  have none : lanesWhere g r (fun _ y => y.mode == .locked) s = [] := by
    refine List.filter_eq_nil_iff.2 fun l hl e => ?_
    obtain ⟨y, hy, hm⟩ := (Option.any_eq_true _ _).1 e
    exact h l hl y hy (beq_iff_eq.1 hm)
  rw [cancelRoute_eq, none, releaseRoute_nil]

/-! ## EMERGENCY_RELEASE and MOVE_POINT (R134, R142) -/

/-- A lane's answer to an emergency release. -/
def emergencyStep (x : IxlDecl) (r : Nat) (l : Fin 3) (s : State) : State := match s.ixl[l].routes[r]?, x.routes[r]? with
  | some y, some d =>
    if y.mode == .idle then answerIxl l .notLocked s
    else if y.mode == .emergency then answerIxl l .routeBusy s
    else
      let s := modRoute l r (fun z => { z with mode := .emergency, cancel := false, approach := none, overlap := none, emergency := some (timerCycles d.emergencyUs s) }) s
      answerIxl l .granted (modIxl l (fun z => { z with signals := setAt z.signals d.signal fun y => { y with aspect := none } }) s)
  | _, _ => answerIxl l .badRoute s

/-- The tables after an emergency release, with the timer's cycles at state `s`. -/
def emergencyTables (x : IxlDecl) (r : Nat) (s : State) (z : Ixl) : Ixl := match z.routes[r]?, x.routes[r]? with
  | some y, some d =>
    if y.mode = .idle then told .notLocked z
    else if y.mode = .emergency then told .routeBusy z
    else told .granted { z with
      signals := setAt z.signals d.signal fun u => { u with aspect := none }
      routes := setAt z.routes r fun u => { u with mode := .emergency, cancel := false, approach := none, overlap := none, emergency := some (timerCycles d.emergencyUs s) } }
  | _, _ => told .badRoute z

theorem timerCycles_congr {s t : State} (us : Nat) (h : t.cyc = s.cyc) : timerCycles us t = timerCycles us s := by
  unfold timerCycles
  rw [h]

theorem emergencyWork (x : IxlDecl) (r : Nat) (s : State) : LaneWork s.cyc (emergencyStep x r) (emergencyTables x r s) := fun l u hu => by
  unfold emergencyStep
  cases hy : u.ixl[l].routes[r]? with
  | none => exact modIxl_congr (by unfold emergencyTables; rw [hy]; rfl)
  | some y =>
    cases hd : x.routes[r]? with
    | none => exact modIxl_congr (by unfold emergencyTables; rw [hy, hd]; rfl)
    | some d =>
      dsimp only
      split_ifs with idle busy
      · refine modIxl_congr ?_
        unfold emergencyTables
        rw [hy, hd]
        exact (if_pos (beq_iff_eq.1 idle)).symm
      · refine modIxl_congr ?_
        unfold emergencyTables
        rw [hy, hd]
        exact ((if_neg fun e => idle (beq_iff_eq.2 e)).trans (if_pos (beq_iff_eq.1 busy))).symm
      · unfold answerIxl modRoute
        rw [modIxl_modIxl, modIxl_modIxl, timerCycles_congr _ hu]
        refine modIxl_congr ?_
        unfold emergencyTables
        rw [hy, hd]
        exact ((if_neg fun e => idle (beq_iff_eq.2 e)).trans (if_neg fun e => busy (beq_iff_eq.2 e))).symm

/-- A lane's answer to a request to move a point. -/
def moveStep (p : Nat) (rev : Bool) (l : Fin 3) (s : State) : State := match s.ixl[l].points[p]? with
  | some q => if q.locks > 0 then answerIxl l .pointLocked s else answerIxl l .granted (modPoint l p (fun q => { q with want := some rev }) s)
  | none => answerIxl l .badRoute s

/-- The tables after it. -/
def movingTables (p : Nat) (rev : Bool) (z : Ixl) : Ixl := match z.points[p]? with
  | none => told .badRoute z
  | some q => if 0 < q.locks then told .pointLocked z else told .granted { z with points := setAt z.points p fun q => { q with want := some rev } }

theorem movingWork (c : Cyc) (p : Nat) (rev : Bool) : LaneWork c (moveStep p rev) (movingTables p rev) := fun l s _ => by
  unfold moveStep
  cases hq : s.ixl[l].points[p]? with
  | none => exact modIxl_congr (by unfold movingTables; rw [hq]; rfl)
  | some q =>
    dsimp only
    split_ifs with locked
    · refine modIxl_congr ?_
      unfold movingTables
      rw [hq]
      exact (if_pos locked).symm
    · unfold answerIxl modPoint
      rw [modIxl_modIxl]
      refine modIxl_congr ?_
      unfold movingTables
      rw [hq]
      exact (if_neg locked).symm

/-! ## MATRIX_SLICE_CHECK (R129) -/

/-- A lane hands in its CRC of the slice. -/
def sliceGiven (g : Fin 2) (l : Fin 3) (s : State) : State :=
  let crc := crc32c (readBytes (laneMem l) (s.rmus[l].base.toNat % 2 ^ 24 + 65536 * s.ixl[l].slice.val) 65536 s)
  contribute l g { kind := .vote, items := leBytes 4 crc.toNat, crc := stateCrc l g s } s

/-- The tables with the next slice. -/
def nextSlice (z : Ixl) : Ixl := { z with slice := z.slice + 1 }

/-- A lane's part of the check. -/
def sliceStep (g : Fin 2) (s : State) (l : Fin 3) : State := modIxl l nextSlice (sliceGiven g l s)

theorem kept_sliceGiven (g : Fin 2) (l : Fin 3) (s : State) : Kept [.voter] s (sliceGiven g l s) := kept_contribute _ _ _ _ kept_refl (by decide)

theorem sliceStep_ixl (g : Fin 2) (s : State) (l : Fin 3) : (sliceStep g s l).ixl = (modIxl l nextSlice s).ixl := by
  have same : (sliceGiven g l s).ixl = s.ixl := (kept_sliceGiven g l s).only .ixl (by decide)
  unfold sliceStep modIxl
  dsimp only
  rw [same]

theorem sliceSteps (g : Fin 2) (ls : List (Fin 3)) {s t : State} (h : NoEoc g s) (e : s.ixl = t.ixl) :
    NoEoc g (ls.foldl (sliceStep g) s) ∧ (ls.foldl (sliceStep g) s).ixl = (ls.foldl (fun s l => modIxl l nextSlice s) t).ixl := by
  induction ls generalizing s t with
  | nil => exact ⟨h, e⟩
  | cons l ls ih =>
    have next : NoEoc g (sliceStep g s l) := noEoc_contribute (l := l) h fun e => nomatch e
    refine ih next ((sliceStep_ixl g s l).trans ?_)
    unfold modIxl
    dsimp only
    rw [e]

theorem nextSliceWork (c : Cyc) : LaneWork c (fun l s => modIxl l nextSlice s) nextSlice := fun _ _ _ => rfl

theorem matrixSliceCheck_run {g : Fin 2} {im : Image} {x : IxlDecl} {s : State} (hx : ixlOf s = some (g, im, x)) (run : s.doms[groupDom g].run = true) (hv : s.voter.grp[g].vp = none) :
    exec .matrixSliceCheck s = .next (voteResolve g false ((runLanes g s).foldl (sliceStep g) s)) := by
  show execMatrixSliceCheck s = _
  unfold execMatrixSliceCheck
  rw [hx]
  refine congrArg Host.Outcome.next ((if_neg ?_).trans rfl)
  rw [run, hv]
  decide

/-! ## Requests to the interlocking -/

/-- A request that is work in every lane. -/
theorem served_lanes {g : Fin 2} {i : Instr} {s : State} {f : Fin 3 → State → State} {h : Ixl → Ixl} {e : Fin 3 → Ixl → Ixl} (w : LaneWork s.cyc f h)
    (he : exec i s = .next ((runLanes g s).foldl (fun s l => f l s) s)) (same : ∀ l ∈ runLanes g s, h s.ixl[l] = e l s.ixl[l]) :
    Gives i s [.ixl] fun t => ∀ l : Fin 3, ((runLanes g s).count l = 1 → t.ixl[l] = e l s.ixl[l]) ∧ (l ∉ runLanes g s → t.ixl[l] = s.ixl[l]) := by
  refine ⟨_, he, (w.kept (runLanes g s) rfl).only, fun l => ⟨fun once => ?_, w.unlisted rfl⟩⟩
  exact (w.once rfl once).trans (same l (List.count_pos_iff.1 (by omega)))

/-- Settles O35: a request waits or is served; a served one is work on the tables of each lane, and the RMU's vote leaves these as they are. -/
theorem interlockingRequestsAreAnswered : Obligations.InterlockingRequestsAreAnswered := by
  intro g im x s hx asks lanes tells
  have asked (i : Instr) (q : IxlReq) (hi : ∀ u, exec i u = .next (ixlAsk q u)) : asks i q :=
    ⟨fun run => (hi s).trans (congrArg _ (ixlAsk_stopped q hx run)), fun run h => (hi s).trans (congrArg _ (ixlAsk_waits q hx run h))⟩
  refine ⟨fun r p rev => ⟨asked _ _ fun _ => rfl, asked _ _ fun _ => rfl, asked _ _ fun _ => rfl, asked _ _ fun _ => rfl⟩, fun run at6 empty => ⟨fun r => ⟨fun held => ?_, fun w free hw => ?_,
    fun other => ?_, fun locked => ?_, ?_⟩, fun p rev => ?_⟩, fun run hv => ?_⟩
  · refine served_lanes (i := .setRoute r) (holdRefusal s.cyc) (congrArg Host.Outcome.next ((ixlAsk_served (.set r.val) hx run at6 empty).trans (setRoute_held r.val held))) fun l hl => ?_
    exact if_neg (by rw [held l hl]; decide)
  · have same := rmuVote_ixl 1 r.val g (runLanes g s) (inStep6_vp at6)
    have voted := setRoute_voted free hw
    refine ⟨_, congrArg Host.Outcome.next ((ixlAsk_served (.set r.val) hx run at6 empty).trans voted), (kept_foldl (kept_rmuVote 1 r.val g _ s kept_refl (by decide)) fun u m k => (setWork u.cyc r.val w).kept_step m k (by decide)).only, fun l hl => ?_⟩
    rw [(setWork _ r.val w).listed rfl hl (setTables_again r.val w _), same]
    exact ⟨rfl, rfl⟩
  · obtain ⟨t, row, only, done⟩ := served_lanes (i := .cancelRoute r) (e := fun _ => cancelTables r.val) (cancelWork s.cyc r.val)
      (congrArg Host.Outcome.next ((ixlAsk_served (.cancel r.val) hx run at6 empty).trans (cancelRoute_none other))) fun _ _ => rfl
    refine ⟨t, row, only, fun l => ⟨fun once => ((done l).1 once).trans ?_, (done l).2⟩⟩
    have hl : l ∈ runLanes g s := List.count_pos_iff.1 (by omega)
    unfold cancelTables
    dsimp only
    cases hy : s.ixl[l].routes[r.val]? with
    | none => rfl
    | some y =>
      have unlocked := other l hl y hy
      dsimp only
      cases hm : y.mode with
      | locked => exact absurd hm unlocked
      | idle | set | cleared | occupied | approachLocked | emergency => rfl
  · refine ⟨_, congrArg Host.Outcome.next (ixlAsk_served (.cancel r.val) hx run at6 empty), (kept_releaseRoute g r.val _ _ (kept_foldl kept_refl fun u m k => (cancelWork u.cyc r.val).kept_step m k (by decide)) (by decide)).only, fun l hl y hy => ?_⟩
    obtain ⟨z, hz, hm⟩ := locked l hl
    obtain rfl := Option.some.inj (hy.symm.trans hz)
    have answered : ((runLanes g s).foldl (fun s l => cancelStep r.val l s) s).ixl[l] = told .granted s.ixl[l] := by
      have once := cancelTables_locked hy hm
      refine ((cancelWork s.cyc r.val).listed rfl hl ?_).trans once
      rw [once]
      exact (cancelTables_locked (z := told .granted s.ixl[l]) hy hm).trans rfl
    have point : ((runLanes g s).foldl (fun s l => cancelStep r.val l s) s).voter.grp[g].vp = none := by
      rw [((cancelWork s.cyc r.val).kept (runLanes g s) rfl).only .voter (by decide)]
      exact inStep6_vp at6
    have mine : l ∈ lanesWhere g r.val (fun _ y => y.mode == .locked) s := mem_lanesWhere hl hy (beq_iff_eq.2 hm)
    rw [show ixlRequest g x (.cancel r.val) s = _ from cancelRoute_eq g r.val s]
    refine ⟨?_, releaseRoute_frees point mine (by rw [answered]; exact hy) rfl (by rw [answered]; rfl) (by rw [answered]; rfl)⟩
    rw [releaseRoute_listed point mine, answered, clearRoute_some (z := told .granted s.ixl[l]) hy]
    rfl
  · exact served_lanes (g := g) (i := .emergencyRelease r) (emergencyWork x r.val s) (congrArg Host.Outcome.next (ixlAsk_served (.emergency r.val) hx run at6 empty)) fun l _ => rfl
  · exact served_lanes (g := g) (i := .movePoint p rev) (movingWork s.cyc p.val rev) (congrArg Host.Outcome.next (ixlAsk_served (.move p.val rev) hx run at6 empty)) fun l _ => rfl
  · obtain ⟨quiet, tables⟩ := sliceSteps g (runLanes g s) (noEoc_of_none hv) rfl
    refine gives_of_leaves (leaves_matrixSliceCheck s) (matrixSliceCheck_run hx run hv) ⟨voteResolve_vp g false _, fun l => ?_⟩
    rw [voteResolve_ixl false quiet, tables]
    exact ⟨(nextSliceWork s.cyc).once rfl, (nextSliceWork s.cyc).unlisted rfl⟩

end Sys2Proof.Proofs
end

section
/-! SUPPORT. Migrations and the bulk pass (R383, R384). -/

namespace Sys2Proof.Proofs
open Sys2Proof.Machine Sys2Proof.Safety Sys2Proof.Laws
set_option Elab.async false

/-! ## Migrations see only memory and marks (R383, R384, R389, R390) -/

theorem seen_migForward (d : DomId) (old new : Image) (code : Nat) (e : MigEntry) (s : State) : Seen s (migForward d old new code e s) := by
  unfold migForward
  split
  · exact seen_foldl (fun s i => seen_store _ _ _ _ s) _ s
  · refine seen_foldl (fun s i => ?_) _ s
    split
    · exact seen_store _ _ _ _ s
    · exact .refl s
  · exact seen_foldl (fun s i => seen_store _ _ _ _ s) _ s

theorem seen_migBack (d : DomId) (old new : Image) (code : Nat) (e : MigEntry) (s : State) : Seen s (migBack d old new code e s) := by
  unfold migBack
  split
  · exact .refl s
  · exact seen_foldl (fun s i => seen_foldl (fun s b => seen_store _ _ _ _ s) _ s) _ s

theorem seen_migRun {f : Nat → MigEntry → State → State} (h : ∀ c e s, Seen s (f c e s)) (d : DomId) (es : List MigEntry) (s : State) : Seen s (migRun f d es s) :=
  seen_foldl (fun s c => seen_foldl (fun s e => h c e s) es s) _ s

/-- The stores of a list of moves. -/
theorem seen_foldl_pair {α β : Type} {f : β × State → α → β × State} (h : ∀ y x, Seen y.2 (f y x).2) (xs : List α) (y : β × State) : Seen y.2 (xs.foldl f y).2 := by
  induction xs generalizing y with
  | nil => exact .refl _
  | cons x xs ih => exact (h y x).trans (ih _)

theorem seen_retainCopy (d : DomId) (old new : Image) (s : State) : Seen s (retainCopy d old new s) := by
  unfold retainCopy
  split
  · exact .refl s
  · exact seen_foldl_pair (fun y x => seen_store _ _ _ _ y.2) _ (0, s)

/-- The runtime's own stores keep the record of a pair's retain area. -/
theorem store_retain (code off : Nat) (bs : List Byte) (s : State) (d : DomId) : (store none code off bs s).doms[d].retain = s.doms[d].retain := by
  have touch (ls : List Nat) (i : Nat) (x : Dom) : (domTouch none code ls i x).retain = x.retain := by
    unfold domTouch
    split
    · rfl
    · simp only [Option.any_none, Bool.and_false, Bool.false_eq_true, if_false]
      split <;> rfl
  have noted (u : State) : (noteWrite none code off bs.length u).doms[d].retain = u.doms[d].retain := by
    have e : (noteWrite none code off bs.length u).doms =
        u.doms.mapIdx (domTouch none code ((List.range ((off + bs.length - 1) / 64 + 1 - off / 64)).map (off / 64 + ·))) := by
      unfold noteWrite
      dsimp only
      split <;> rfl
    rw [e]
    simp only [Fin.getElem_fin, Vector.getElem_mapIdx, touch]
  unfold store
  split
  · rfl
  · have gather (u : State) : (gatherTouch code off bs u).doms = u.doms := (kept_gatherTouch (ps0 := [.solvers, .freeCtr]) code off bs u kept_refl (by decide)).only .doms (by decide)
    have written (u : State) : (writeBytes code off bs u).doms = u.doms := by rw [writeBytes_rest]
    exact (congrArg (fun v : Vector Dom 6 => v[d].retain) (gather _)).trans ((noted _).trans (congrArg (fun v : Vector Dom 6 => v[d].retain) (written s)))

theorem retainCopy_retain (d e : DomId) (old new : Image) (s : State) : (retainCopy d old new s).doms[e].retain = s.doms[e].retain := by
  have steps {β : Type} {f : β × State → MigEntry → β × State} (h : ∀ y x, (f y x).2.doms[e].retain = y.2.doms[e].retain) (xs : List MigEntry) (y : β × State) :
      (xs.foldl f y).2.doms[e].retain = y.2.doms[e].retain := by
    induction xs generalizing y with
    | nil => rfl
    | cons x xs ih => exact (ih _).trans (h y x)
  unfold retainCopy
  split
  · rfl
  · exact steps (fun y x => store_retain _ _ _ y.2 e) _ (0, s)

/-! ## The bulk pass copies a data region of the same layout (R384; log entry 43) -/

/-- One byte of a copy. -/
def copyByte (src dst : Nat) (s : State) (i : Nat) : State := store none 0 (dst + i) [readByte 0 (src + i) s] s

theorem copyByte_mem (src dst : Nat) (s : State) (i : Nat) : (copyByte src dst s i).mem = (writeByte 0 (dst + i) (readByte 0 (src + i) s) s).mem := store_mem _ _ _ _ _

/-- The bytes that are copied so far, and the source, which stands. -/
theorem copied {src dst n : Nat} {s : State} (wf : memWf s.mem) (apart : src + n ≤ dst ∨ dst + n ≤ src) (m : Nat) (hm : m ≤ n) :
    memWf ((List.range m).foldl (copyByte src dst) s).mem ∧ (∀ i, i < n → readByte 0 (src + i) ((List.range m).foldl (copyByte src dst) s) = readByte 0 (src + i) s) ∧
      ∀ i, i < m → readByte 0 (dst + i) ((List.range m).foldl (copyByte src dst) s) = readByte 0 (src + i) s := by
  induction m with
  | zero => exact ⟨wf, fun _ _ => rfl, fun i hi => absurd hi (Nat.not_lt_zero i)⟩
  | succ m ih =>
    obtain ⟨w, source, done⟩ := ih (by omega)
    rw [List.range_succ, List.foldl_append, List.foldl_cons, List.foldl_nil]
    generalize (List.range m).foldl (copyByte src dst) s = t at w source done ⊢
    refine ⟨?_, fun i hi => ?_, fun i hi => ?_⟩
    · rw [copyByte_mem]
      exact writeByte_wf _ _ _ _ w
    · rw [readByte_congr (copyByte_mem src dst t m), readByte_writeByte_other (by unfold memKey; omega)]
      exact source i hi
    · rw [readByte_congr (copyByte_mem src dst t m)]
      by_cases e : i = m
      · subst e
        rw [readByte_writeByte_same w]
        exact source i (by omega)
      · rw [readByte_writeByte_other (by unfold memKey; omega)]
        exact done i (by omega)

theorem oneByte (v : Byte) : leBytes 1 (migConv 0 1 1 (leNat [v])) = [v] := by
  show [BitVec.ofNat 8 (v.toNat + 256 * 0)] = [v]
  rw [Nat.mul_zero, Nat.add_zero, BitVec.ofNat_toNat, BitVec.setWidth_eq]

/-- The table of equal layouts copies the region byte by byte. -/
theorem migForward_copy {d : DomId} {old new : Image} (hd : d.val < 4) (fits : new.areas.dataLen ≤ old.areas.dataLen) (s : State) :
    migForward d old new 0 { src := 0, dst := 0, count := new.areas.dataLen, kind := 0, sw := 1, dw := 1, flags := 0 } s =
      (List.range new.areas.dataLen).foldl (copyByte old.areas.dataBase new.areas.dataBase) s := by
  refine List.foldl_ext _ _ _ fun t i hi => ?_
  have inside : i < old.areas.dataLen := by
    have : i < new.areas.dataLen := List.mem_range.1 hi
    omega
  have place : oldPlace d 0 old (0 + i * 1 + 0) = (0, old.areas.dataBase + i) := by
    unfold oldPlace
    simp [inside]
  show store none 0 (new.areas.dataBase + 0 + i * 1) (leBytes 1 (migConv 0 1 1 (leNat [readByte (oldPlace d 0 old (0 + i * 1 + 0)).1 (oldPlace d 0 old (0 + i * 1 + 0)).2 t]))) t = _
  rw [place, oneByte, Nat.mul_one, Nat.add_zero]
  rfl

theorem migRun_copy {d : DomId} {old new : Image} (hd : d.val < 4) (same : migCarried old new = false) (fits : new.areas.dataLen ≤ old.areas.dataLen) (s : State) :
    migRun (migForward d old new) d (migTable old new) s = (List.range new.areas.dataLen).foldl (copyByte old.areas.dataBase new.areas.dataBase) s := by
  have codes : domCodes d s = [0] := by
    unfold domCodes domGroup
    rw [if_pos hd]
  have table : migTable old new = [{ src := 0, dst := 0, count := new.areas.dataLen, kind := 0, sw := 1, dw := 1, flags := 0 }] := if_neg (by rw [same]; decide)
  unfold migRun
  rw [codes, table, List.foldl_cons, List.foldl_nil, List.foldl_cons, List.foldl_nil, migForward_copy hd fits]

/-! ## MIGRATION_BULK_PASS (R384) -/

/-- The change when its bulk pass begins. -/
def bulkBegun (d : DomId) (s : State) : State := modDom d (fun x => { x with change := { x.change with bulkDone := true, cycles := 0, marks := [] } }) s

/-- The state after the bulk pass. -/
def bulkPassed (d : DomId) (old new : Image) (s : State) : State := migRun (migForward d old new) d (migTable old new) (bulkBegun d s)

/-- An idle pair goes on with its background tasks. -/
def goOn (d : DomId) (s : State) : State := match domPair d with
  | some n => if s.cores[pairCore n].task.isNone then schedule (pairCore n) s else s
  | none => s

theorem kept_goOn (d : DomId) (s : State) : Kept [.cores] s (goOn d s) := by
  unfold goOn
  split
  · split
    · exact kept_schedule _ _ kept_refl (by decide)
    · exact kept_refl
  · exact kept_refl

theorem migrationBulkPass_run {d : DomId} {old new : Image} {s : State} (images : changeImages d s = some (old, new)) (dim : s.doms[d].change.dim = .pending)
    (recipe : s.doms[d].change.recipe = false) (bulk : s.doms[d].change.bulkDone = false) :
    exec (.migrationBulkPass d) s = .next (goOn d (bulkPassed d old new s)) := by
  have step : migrateStep d s = bulkPassed d old new s := by
    unfold migrateStep
    dsimp only
    rw [dim, images, bulk, recipe]
    rfl
  show Host.Outcome.next (goOn d (migrateStep d s)) = _
  rw [step]

theorem bulkPassed_change (d : DomId) (old new : Image) (s : State) :
    (bulkPassed d old new s).doms[d].change.bulkDone = true ∧ (bulkPassed d old new s).doms[d].change.cycles = 0 ∧ (bulkPassed d old new s).doms[d].change.dim = s.doms[d].change.dim := by
  have seen := (seen_migRun (seen_migForward d old new) d (migTable old new) (bulkBegun d s)).doms d
  have begun : (bulkBegun d s).doms[d] = { s.doms[d] with change := { s.doms[d].change with bulkDone := true, cycles := 0, marks := [] } } := modDom_same _ _ _
  rw [begun] at seen
  exact ⟨(congrArg (fun x : Dom => x.change.bulkDone) seen :), (congrArg (fun x : Dom => x.change.cycles) seen :), (congrArg (fun x : Dom => x.change.dim) seen :)⟩

theorem migrationBulkPass_row {d : DomId} {old new : Image} {s : State} (images : changeImages d s = some (old, new)) (dim : s.doms[d].change.dim = .pending)
    (recipe : s.doms[d].change.recipe = false) (bulk : s.doms[d].change.bulkDone = false) :
    Gives (.migrationBulkPass d) s [.cores, .doms, .mem, .voter, .solvers, .hsb, .sync, .mbx, .arb, .log, .freeCtr] fun t =>
      t.doms[d].change.bulkDone = true ∧ t.doms[d].change.cycles = 0 ∧ t.doms[d].change.dim = .pending ∧
      (d.val < 4 → migCarried old new = false → new.areas.dataLen ≤ old.areas.dataLen → old.areas.dataBase + old.areas.dataLen ≤ 2 ^ 25 →
        new.areas.dataBase + new.areas.dataLen ≤ 2 ^ 25 →
        (old.areas.dataBase + old.areas.dataLen ≤ new.areas.dataBase ∨ new.areas.dataBase + new.areas.dataLen ≤ old.areas.dataBase) → Safety.Inv s →
        ∀ i, i < new.areas.dataLen → readByte 0 (new.areas.dataBase + i) t = readByte 0 (old.areas.dataBase + i) s) := by
  have on := (kept_goOn d (bulkPassed d old new s)).only
  have doms : (goOn d (bulkPassed d old new s)).doms = (bulkPassed d old new s).doms := on .doms (by decide)
  have mem : (goOn d (bulkPassed d old new s)).mem = (bulkPassed d old new s).mem := on .mem (by decide)
  obtain ⟨done, cycles, still⟩ := bulkPassed_change d old new s
  refine gives_of_leaves (leaves_migrationBulkPass d s) (migrationBulkPass_run images dim recipe bulk) ⟨?_, ?_, ?_, fun hd same fits _ _ apart wf i hi => ?_⟩
  · rw [doms, done]
  · rw [doms, cycles]
  · rw [doms, still, dim]
  · rw [readByte_congr mem]
    unfold bulkPassed
    rw [migRun_copy hd same fits]
    exact (copied (s := bulkBegun d s) wf (by omega) new.areas.dataLen (Nat.le_refl _)).2.2 i hi

end Sys2Proof.Proofs
end

section
/-! SUPPORT. Swap, confirm, revert and their ends (R385 to R392). -/

namespace Sys2Proof.Proofs
open Sys2Proof.Machine Sys2Proof.Safety Sys2Proof.Laws
set_option Elab.async false

/-! ## A domain turns to another program (R386, R387) -/

/-- A domain with the other program in its other bank. -/
def turnedTo (new : Image) (x : Dom) : Dom := { x with image := some new, bankB := !x.bankB, tasks := x.tasks.map fun t => { t with open_ := 0, primed := true } }

/-- What a turn does after the domain has changed. -/
def turnEnd (d : DomId) (old new : Image) (s : State) : State :=
  let s := solvPower (loadQueues d new (mapRegions d new s)).2
  let s := (domCores d).foldl (fun s c => modCore c (fun k => { k with task := none, saved := [], lsWait := none }) s) s
  let s := match domGroup d with
    | none => s
    | some g =>
      let s := voterLoad d new (connsCarry g old new s)
      match new.ixl with | some x => ixlCarry x s | none => s
  cimRestart d s

theorem turnTo_eq (d : DomId) (old new : Image) (s : State) : turnTo d old new s = turnEnd d old new (modDom d (turnedTo new) (solvReady d new (unloadQueues d s))) := rfl

theorem kept_turnEnd (d : DomId) (old new : Image) (s : State) :
    Kept [.cores, .memRegs, .memErrs, .voter, .solvers, .ixl, .conns, .cim, .boot] s (turnEnd d old new s) := by
  unfold turnEnd
  dsimp only
  refine kept_cimRestart _ _ ?_ (by decide)
  have cores : Kept [.cores, .memRegs, .memErrs, .voter, .solvers, .ixl, .conns, .cim, .boot] s
      ((domCores d).foldl (fun s c => modCore c (fun k => { k with task := none, saved := [], lsWait := none }) s) (solvPower (loadQueues d new (mapRegions d new s)).2)) :=
    kept_foldl (kept_solvPower _ (kept_loadQueues _ _ _ (kept_mapRegions _ _ _ kept_refl (by decide)) (by decide)) (by decide)) fun _ _ k => kept_modCore _ _ _ k (by decide)
  split
  · exact cores
  next g _ =>
    have voter := kept_voterLoad d new _ (kept_connsCarry g old new _ cores (by decide)) (by decide)
    split
    · exact kept_ixlCarry _ _ voter (by decide)
    · exact voter

theorem turnTo_dom (d : DomId) (old new : Image) (s : State) : (turnTo d old new s).doms[d] = turnedTo new s.doms[d] := by
  have before : Kept [.solvers, .boot] s (solvReady d new (unloadQueues d s)) := kept_solvReady _ _ _ (kept_unloadQueues _ _ kept_refl (by decide)) (by decide)
  rw [turnTo_eq, (kept_turnEnd d old new _).only .doms (by decide), modDom_same, before.only .doms (by decide)]

/-! ## The ends of an online change -/

/-- A command's end leaves no slot of it. -/
theorem finishOpt_gone {q : Option CmdRef} {r : CmdRef} (h : q = some r) (st : Status) (s : State) : slotOf r (finishOpt q st s) = none := by
  rw [h]
  exact finish_slot_gone r st 0 [] s

theorem finishRefusedOpt_gone {q : Option CmdRef} {r : CmdRef} (h : q = some r) (name : String) (s : State) : slotOf r (finishRefusedOpt q name s) = none := by
  rw [h]
  exact finish_slot_gone r _ _ _ s

theorem finishOpt_doms (q : Option CmdRef) (st : Status) (s : State) : (finishOpt q st s).doms = s.doms :=
  (kept_finishOpt (ps0 := [.sync, .mbx]) q st s kept_refl (by decide)).only .doms (by decide)

theorem finishOpt_arch (q : Option CmdRef) (st : Status) (s : State) : (finishOpt q st s).arch = s.arch :=
  (kept_finishOpt (ps0 := [.sync, .mbx]) q st s kept_refl (by decide)).only .arch (by decide)

theorem suspend_doms (d : DomId) (b : Bool) (s : State) : (suspend d b s).doms = s.doms := (kept_suspend (ps0 := [.hsb]) d b s kept_refl (by decide)).only .doms (by decide)
theorem suspend_arch (d : DomId) (b : Bool) (s : State) : (suspend d b s).arch = s.arch := (kept_suspend (ps0 := [.hsb]) d b s kept_refl (by decide)).only .arch (by decide)
theorem setChg_arch (d : DomId) (c : ChgDim) (s : State) : (setChg d c s).arch = s.arch := (kept_setChg (ps0 := [.doms, .arb]) d c s kept_refl (by decide)).only .arch (by decide)
theorem addLog_doms (k : LogKind) (a b : Nat) (s : State) : (addLog k a b s).doms = s.doms := rfl
theorem addLog_arch (k : LogKind) (a b : Nat) (s : State) : (addLog k a b s).arch = s.arch := rfl

/-- A change that has been logged as ended, with the dimension back at NONE and the command's end. -/
def changeOver (d : DomId) (b : Nat) (q : Option CmdRef) (s : State) : State := finishOpt q .ok (addLog .changeEnd d.val b (suspend d false (setChg d .none s)))

theorem changeOver_dom (d : DomId) (b : Nat) (q : Option CmdRef) (s : State) : (changeOver d b q s).doms[d] = { s.doms[d] with change := { s.doms[d].change with dim := .none } } := by
  unfold changeOver
  rw [finishOpt_doms, addLog_doms, suspend_doms, setChg_dom]

theorem changeOver_arch (d : DomId) (b : Nat) (q : Option CmdRef) (s : State) : (changeOver d b q s).arch = s.arch := by
  unfold changeOver
  rw [finishOpt_arch, addLog_arch, suspend_arch, setChg_arch]

/-! ## SWAP (R385, R386) -/

/-- The domain's record of the swap. -/
def swapMarks (confirmed : Image) (tb : Long) (x : Dom) : Dom :=
  { x with retain := x.retain.map fun r => { r with sealed := false }
           change := { x.change with confirmed := some confirmed, marks := [], cycles := 0, swapAt := tb, cmd := none, wantConfirm := false, wantRevert := false } }

/-- The swap is recorded. -/
def swapNoted (d : DomId) (confirmed : Image) (s : State) : State := addLog .swapped d.val 0 (suspend d true (setChg d .swapped (modDom d (swapMarks confirmed s.cyc.tb) s)))

theorem swapped_eq (d : DomId) (confirmed : Image) (s : State) : swapped d confirmed s = finishOpt s.doms[d].change.cmd .ok (swapNoted d confirmed s) := by
  unfold swapped finishOpt
  dsimp only
  cases s.doms[d].change.cmd <;> rfl

theorem swapped_dom (d : DomId) (confirmed : Image) (s : State) :
    (swapped d confirmed s).doms[d] = { swapMarks confirmed s.cyc.tb s.doms[d] with change := { (swapMarks confirmed s.cyc.tb s.doms[d]).change with dim := .swapped } } := by
  rw [swapped_eq, finishOpt_doms]
  unfold swapNoted
  rw [addLog_doms, suspend_doms, setChg_dom, modDom_same]

theorem swap_run {d : DomId} {old new : Image} {s : State} (images : changeImages d s = some (old, new)) (dim : s.doms[d].change.dim = .pending) (recipe : s.doms[d].change.recipe = false)
    (bulk : s.doms[d].change.bulkDone = true) (free : boundaryFree d s = true) (fits : changeFits d (swapClocks d old new s) s = true) :
    exec (.swap d) s = .next (swapped d old (turnTo d old new (migRun (migForward d old new) d (swapEntries d old new s) s))) := by
  show execSwap d s = _
  unfold execSwap
  dsimp only
  rw [images]
  refine congrArg Host.Outcome.next ((if_neg ?_).trans (if_neg (by rw [recipe]; decide)))
  rw [dim, bulk, free, fits]
  decide

theorem swap_row {d : DomId} {old new : Image} {s : State} (images : changeImages d s = some (old, new)) (dim : s.doms[d].change.dim = .pending) (recipe : s.doms[d].change.recipe = false)
    (bulk : s.doms[d].change.bulkDone = true) (free : boundaryFree d s = true) (fits : changeFits d (swapClocks d old new s) s = true) :
    Gives (.swap d) s [.cores, .doms, .mem, .memRegs, .memErrs, .voter, .solvers, .ixl, .conns, .hsb, .sync, .mbx, .cim, .boot, .arb, .log, .freeCtr] fun t =>
      t.doms[d].image = some new ∧ t.doms[d].bankB = !s.doms[d].bankB ∧ t.doms[d].change.dim = .swapped ∧ t.doms[d].change.confirmed = some old ∧ t.doms[d].run = true ∧
        ∀ r, s.doms[d].change.cmd = some r → slotOf r t = none := by
  have seen := (seen_migRun (seen_migForward d old new) d (swapEntries d old new s) s).doms d
  have run : s.doms[d].run = true := by
    unfold boundaryFree at free
    simp only [Bool.and_eq_true] at free
    exact free.1.1.1.1
  refine gives_of_leaves (leaves_swap d s) (swap_run images dim recipe bulk free fits) ?_
  generalize migRun (migForward d old new) d (swapEntries d old new s) s = u at seen ⊢
  have turn := turnTo_dom d old new u
  have bank : u.doms[d].bankB = s.doms[d].bankB := (congrArg Dom.bankB seen :)
  have cmd : u.doms[d].change.cmd = s.doms[d].change.cmd := (congrArg (fun x : Dom => x.change.cmd) seen :)
  generalize turnTo d old new u = v at turn ⊢
  refine ⟨?_, ?_, ?_, ?_, ?_, fun r hr => ?_⟩
  · rw [swapped_dom, turn]
    rfl
  · rw [swapped_dom, turn, ← bank]
    rfl
  · rw [swapped_dom]
  · rw [swapped_dom]
    rfl
  · rw [swapped_dom, turn]
    exact (run_of_shown seen).trans run
  · rw [swapped_eq, turn]
    exact finishOpt_gone (cmd.trans hr) _ _

/-! ## MIG_NOCONV (R385) -/

theorem migNoconv_row {d : DomId} {s : State} (dim : s.doms[d].change.dim = .pending) (bulk : s.doms[d].change.bulkDone = true) (late : 1024 ≤ s.doms[d].change.cycles) :
    Gives (.migNoconv d) s [.doms, .sync, .mbx, .arb] fun t => t.doms[d].change = .reset ∧ t.doms[d].image = s.doms[d].image ∧ ∀ r, s.doms[d].change.cmd = some r → slotOf r t = none := by
  have hrun : exec (.migNoconv d) s = .next (setChg d .none (finishRefusedOpt s.doms[d].change.cmd "MIG_NOCONV" (modDom d (fun x => { x with change := .reset }) s))) := by
    refine congrArg Host.Outcome.next (if_neg ?_)
    rw [dim, bulk, decide_eq_false (Nat.not_lt.2 late)]
    decide
  refine gives_of_leaves (leaves_migNoconv d s) hrun ⟨?_, ?_, fun r hr => ?_⟩
  · rw [setChg_dom, finishRefusedOpt_doms, modDom_same]
    rfl
  · rw [setChg_dom, finishRefusedOpt_doms, modDom_same]
  · have mbx (u : State) : (setChg d .none u).mbx = u.mbx := (kept_setChg (ps0 := [.doms, .arb]) d .none u kept_refl (by decide)).only .mbx (by decide)
    rw [slotOf_congr (mbx _)]
    exact finishRefusedOpt_gone hr _ _

/-! ## CHANGE_CONFIRM and CHANGE_REVERT (R392) -/

/-- A command on the change of a domain. -/
def commandOn (r : CmdRef) (w : Wait) (f : Change → Change) (d : DomId) (s : State) : State :=
  if s.doms[d].change.dim != .swapped || s.doms[d].change.wantConfirm || s.doms[d].change.wantRevert then finishRefused r 0 "NOT_UNCONFIRMED" s
  else waitFor r w (modDom d (fun y => { y with change := { f y.change with cmd := some r } }) s)

/-- A command whose data name the domain. -/
theorem changeCmd_named {r : CmdRef} {w : Wait} {f : Change → Change} {x : List Byte} {d : DomId} (hl : x.length = 1) (hd : sliceNat 0 1 x = d.val) (s : State) :
    changeCmd r w f x s = commandOn r w f d s := by
  have same : Fin.ofNat 6 (sliceNat 0 1 x) = d := Fin.ext (by rw [hd]; exact Nat.mod_eq_of_lt d.isLt)
  unfold changeCmd
  refine (if_neg (not_not.2 hl)).trans ((if_neg (by rw [hd]; exact Nat.not_lt.2 (Nat.le_of_lt_succ d.isLt))).trans ?_)
  exact congrArg (fun e => commandOn r w f e s) same

theorem begun_doms (r : CmdRef) (s : State) : (begun r s).doms = s.doms := (kept_begun r s).only .doms (by decide)

/-- A recorded command refuses, and so does a change that is not unconfirmed. -/
theorem changeCmd_refused {i : Instr} {r : CmdRef} {code : Nat} {w : Wait} {f : Change → Change} {x : Slot} {d : DomId} {s : State} (hi : exec i s = .next (runCmd r code (changeCmd r w f) s))
    (hl : Leaves [.doms, .hsb, .sync, .mbx, .arb, .log] s (exec i s)) (h : Waits r code x s) (len : (slotData x).length = 1) (hd : sliceNat 0 1 (slotData x) = d.val)
    (no : s.doms[d].change.dim ≠ .swapped ∨ s.doms[d].change.wantConfirm = true ∨ s.doms[d].change.wantRevert = true) :
    Gives i s [.doms, .hsb, .sync, .mbx, .arb, .log] (Ended r x .refused 0 (Config.textOf "NOT_UNCONFIRMED")) := by
  refine gives_ended hl h.slot (hi.trans (congrArg Host.Outcome.next ((runCmd_waits h _).trans ((changeCmd_named len hd _).trans (if_pos ?_))))) rfl
  rw [begun_doms]
  rcases no with no | no | no
  · rw [bne_iff_ne.2 no]
    rfl
  · rw [no]
    simp
  · rw [no]
    simp

/-- The first command on an unconfirmed change is recorded. -/
theorem changeCmd_recorded {i : Instr} {r : CmdRef} {code : Nat} {w : Wait} {f : Change → Change} {x : Slot} {d : DomId} {s : State} (hi : exec i s = .next (runCmd r code (changeCmd r w f) s))
    (h : Waits r code x s) (len : (slotData x).length = 1) (hd : sliceNat 0 1 (slotData x) = d.val) (dim : s.doms[d].change.dim = .swapped)
    (first : s.doms[d].change.wantConfirm = false ∧ s.doms[d].change.wantRevert = false) :
    Gives i s [.doms, .mbx] fun t => GoesOn r x w t ∧ t.doms = s.doms.set d { s.doms[d] with change := { f s.doms[d].change with cmd := some r } } := by
  have start : Kept [.doms, .mbx] s (begun r s) := kept_modSlot _ _ _ kept_refl (by decide)
  have work : Kept [.doms, .mbx] s (waitFor r w (modDom d (fun y => { y with change := { f y.change with cmd := some r } }) (begun r s))) :=
    kept_waitFor _ _ _ (kept_modDom _ _ _ start (by decide)) (by decide)
  refine ⟨_, hi.trans (congrArg Host.Outcome.next ((runCmd_waits h _).trans ((changeCmd_named len hd _).trans (if_neg ?_)))), work.only, waitFor_goesOn h.slot rfl, ?_⟩
  · rw [begun_doms, dim, first.1, first.2]
    decide
  · have wait (u : State) : (waitFor r w u).doms = u.doms := (kept_waitFor (ps0 := [.mbx]) r w u kept_refl (by decide)).only .doms (by decide)
    rw [wait]
    unfold modDom
    dsimp only
    rw [begun_doms]

/-! ## CHANGE_CONFIRM_EFFECT (R390) -/

/-- What a confirmation leaves of a domain. -/
def confirmedDom (new : Image) (x : Dom) : Dom :=
  { x with retain := x.retain.map fun r => { r with progId := new.id, layoutId := new.layoutId, sealed := false }, change := .reset }

/-- The state in which a confirmed change is recorded. -/
def confirmNoted (d : DomId) (old new : Image) (s : State) : State :=
  let u := retainCopy d old new s
  modDom d (confirmedDom new) { u with arch := { u.arch with progs := u.arch.progs.set d s.doms[d].change.image } }

theorem confirmEffect_run {d : DomId} {old new : Image} {s : State} (hc : s.doms[d].change.confirmed = some old) (hi : s.doms[d].image = some new) (dim : s.doms[d].change.dim = .swapped)
    (want : s.doms[d].change.wantConfirm = true) (recipe : s.doms[d].change.recipe = false) (at_ : atBoundary d s = true) :
    exec (.changeConfirmEffect d) s = .next (changeOver d 0 s.doms[d].change.cmd (confirmNoted d old new s)) := by
  show execChangeConfirmEffect d s = _
  unfold execChangeConfirmEffect
  dsimp only
  refine congrArg Host.Outcome.next ((if_neg (by rw [dim]; simp)).trans ?_)
  rw [hc, hi]
  refine (if_neg (by rw [dim, want, at_]; decide)).trans ?_
  rw [recipe]
  rfl

theorem confirmEffect_row {d : DomId} {old new : Image} {s : State} (hc : s.doms[d].change.confirmed = some old) (hi : s.doms[d].image = some new) (dim : s.doms[d].change.dim = .swapped)
    (want : s.doms[d].change.wantConfirm = true) (recipe : s.doms[d].change.recipe = false) (at_ : atBoundary d s = true) :
    Gives (.changeConfirmEffect d) s [.cores, .doms, .mem, .voter, .solvers, .hsb, .sync, .mbx, .arch, .arb, .log, .freeCtr] fun t => t.doms[d].change = .reset ∧ t.doms[d].image = some new ∧
      t.arch = { s.arch with progs := s.arch.progs.set d s.doms[d].change.image } ∧ (∀ r, s.doms[d].change.cmd = some r → slotOf r t = none) ∧
      ∀ m, s.doms[d].retain = some m → t.doms[d].retain = some { m with progId := new.id, layoutId := new.layoutId, sealed := false } := by
  have seen := (seen_retainCopy d old new s).doms d
  have image : (retainCopy d old new s).doms[d].image = s.doms[d].image := image_of_shown seen
  have kept : (retainCopy d old new s).doms[d].retain = s.doms[d].retain := retainCopy_retain d d old new s
  have arch : (retainCopy d old new s).arch = s.arch :=
    (kept_retainCopy (ps0 := [.cores, .doms, .mem, .voter, .solvers, .freeCtr]) d old new s kept_refl (by decide)).only .arch (by decide)
  have noted : (confirmNoted d old new s).doms[d] = confirmedDom new (retainCopy d old new s).doms[d] := modDom_same _ _ _
  refine gives_of_leaves (leaves_changeConfirmEffect d s) (confirmEffect_run hc hi dim want recipe at_) ⟨?_, ?_, ?_, fun r hr => finishOpt_gone hr _ _, fun m hm => ?_⟩
  · rw [changeOver_dom, noted]
    rfl
  · rw [changeOver_dom, noted]
    exact image.trans hi
  · rw [changeOver_arch, ← arch]
    rfl
  · rw [changeOver_dom, noted]
    show (retainCopy d old new s).doms[d].retain.map _ = _
    rw [kept, hm]
    rfl

/-! ## REVERT and its ends (R391) -/

theorem revert_run {d : DomId} {old new : Image} {s : State} (hc : s.doms[d].change.confirmed = some old) (hi : s.doms[d].image = some new) (dim : s.doms[d].change.dim = .swapped)
    (want : s.doms[d].change.wantRevert = true) (recipe : s.doms[d].change.recipe = false) (free : boundaryFree d s = true)
    (fits : changeFits d (migCost (revertEntries d old new s) + loadClocks d old s) s = true) :
    exec (.revert d) s = .next (changeOver d 1 s.doms[d].change.cmd
      (modDom d (fun x => { x with change := .reset }) (turnTo d new old (migRun (migBack d old new) d (revertEntries d old new s) s)))) := by
  show execRevert d s = _
  unfold execRevert
  dsimp only
  rw [hc, hi, recipe]
  refine congrArg Host.Outcome.next ((if_neg ?_).trans rfl)
  rw [dim, want, free]
  simp only [Bool.false_eq_true, if_false, fits]
  decide

theorem revert_row {d : DomId} {old new : Image} {s : State} (hc : s.doms[d].change.confirmed = some old) (hi : s.doms[d].image = some new) (dim : s.doms[d].change.dim = .swapped)
    (want : s.doms[d].change.wantRevert = true) (recipe : s.doms[d].change.recipe = false) (free : boundaryFree d s = true)
    (fits : changeFits d (migCost (revertEntries d old new s) + loadClocks d old s) s = true) :
    Gives (.revert d) s [.cores, .doms, .mem, .memRegs, .memErrs, .voter, .solvers, .ixl, .conns, .hsb, .sync, .mbx, .cim, .boot, .arb, .log, .freeCtr] fun t =>
      t.doms[d].change = .reset ∧ t.doms[d].image = some old ∧ t.doms[d].bankB = !s.doms[d].bankB ∧ ∀ r, s.doms[d].change.cmd = some r → slotOf r t = none := by
  have seen := (seen_migRun (seen_migBack d old new) d (revertEntries d old new s) s).doms d
  refine gives_of_leaves (leaves_revert d s) (revert_run hc hi dim want recipe free fits) ?_
  generalize migRun (migBack d old new) d (revertEntries d old new s) s = u at seen ⊢
  have turn := turnTo_dom d new old u
  have bank : u.doms[d].bankB = s.doms[d].bankB := (congrArg Dom.bankB seen :)
  generalize turnTo d new old u = v at turn ⊢
  refine ⟨?_, ?_, ?_, fun r hr => finishOpt_gone hr _ _⟩
  · rw [changeOver_dom, modDom_same]
    rfl
  · rw [changeOver_dom, modDom_same, turn]
    rfl
  · rw [changeOver_dom, modDom_same, turn, ← bank]
    rfl

theorem confirmWindowExpiry_row {d : DomId} {s : State} (dim : s.doms[d].change.dim = .swapped) (first : s.doms[d].change.wantConfirm = false ∧ s.doms[d].change.wantRevert = false)
    (ended : elapsed (1000 * s.doms[d].change.windowS) s.doms[d].change.swapAt s = true) :
    Gives (.confirmWindowExpiry d) s [.doms, .sync] fun t =>
      t.doms = s.doms.set d { s.doms[d] with change := { s.doms[d].change with wantRevert := true, cycles := 0 } } ∧ (d.val < 4 ∨ s.hsb.role ≠ .primary → t.sync = s.sync) := by
  let u := modDom d (fun x => { x with change := { x.change with wantRevert := true, cycles := 0 } }) s
  have hrun : exec (.confirmWindowExpiry d) s = .next (if 4 ≤ d.val && s.hsb.role == .primary then sendRelinquish (s.cyc.count + 1) u else u) := by
    refine congrArg Host.Outcome.next ((if_neg ?_).trans rfl)
    rw [dim, first.1, first.2, ended]
    decide
  refine gives_of_leaves (leaves_confirmWindowExpiry d s) hrun ⟨?_, fun h => ?_⟩
  · split
    · exact (kept_sendRelinquish (ps0 := [.sync]) _ u kept_refl (by decide)).only .doms (by decide)
    · rfl
  · have quiet : ¬ (decide (4 ≤ d.val) && s.hsb.role == .primary) = true := fun k => by
      obtain ⟨group, primary⟩ := Bool.and_eq_true_iff.1 k
      exact h.elim (fun pair => absurd (of_decide_eq_true group) (by omega)) fun role => role (beq_iff_eq.1 primary)
    rw [if_neg quiet]
    rfl

theorem changeStop_none (name : String) (d : DomId) (s : State) : (changeStop name d s).doms[d].change.dim = .none := by
  unfold changeStop
  dsimp only
  split
  next h => exact h
  · rw [setChg_dom]
  · rw [setChg_dom]

/-- A stopped domain's change has ended; the program to which it reverts stays known. -/
def ChangeStopped (d : DomId) (s t : State) : Prop :=
  t.doms[d].run = false ∧ t.doms[d].change.dim = .none ∧ t.doms[d].change.confirmed = s.doms[d].change.confirmed

theorem changeLeave_confirmed (d : DomId) (s : State) : (changeLeave d s).doms[d].change.confirmed = s.doms[d].change.confirmed := by
  obtain ⟨c, e, h⟩ := changeStop_dom "CHANGE_STOPPED" d s
  exact (congrArg (fun x : Dom => x.change.confirmed) e).trans h

theorem changeLeave_none (d : DomId) (s : State) : (changeLeave d s).doms[d].change.dim = .none := changeStop_none _ d s

theorem abandonTasks_change (d : DomId) (s : State) : (abandonTasks d s).doms[d].change = s.doms[d].change := by
  unfold abandonTasks
  rw [modDom_same]

theorem pairCommandStop_changeStopped (n : Fin 4) (src : Nat) {s : State} (run : s.doms[pairDom n].run = true) : ChangeStopped (pairDom n) s (pairCommandStop n src s) := by
  let before := sealArea n (abandonTasks (pairDom n) (abortSolvers (pairDom n) s))
  have change : before.doms[pairDom n].change = s.doms[pairDom n].change := by
    refine (congrArg Dom.change (sealArea_dom n _)).trans ((abandonTasks_change _ _).trans ?_)
    rw [abortSolvers_doms]
  have stopped : (commandStopped n s).doms[pairDom n].change = (changeLeave (pairDom n) before).doms[pairDom n].change := by
    unfold commandStopped
    dsimp only
    rw [stopCore_doms, modDom_same]
  have final : (pairCommandStop n src s).doms[pairDom n].change = (changeLeave (pairDom n) before).doms[pairDom n].change := by
    rw [pairCommandStop_eq run, setRun_dom]
    exact stopped
  refine ⟨pairCommandStop_run n src s, ?_, ?_⟩
  · rw [final]
    exact changeLeave_none _ _
  · rw [final, changeLeave_confirmed, change]

theorem groupHalt_changeStopped (g : Fin 2) (src : Nat) {s : State} (run : s.doms[groupDom g].run = true) : ChangeStopped (groupDom g) s (groupHalt g src s) := by
  let before := safetyOff g (abandonTasks (groupDom g) (abortSolvers (groupDom g) s))
  have change : before.doms[groupDom g].change = s.doms[groupDom g].change := by
    refine (congrArg Dom.change (modDom_same (groupDom g) _ _)).trans ((abandonTasks_change _ _).trans ?_)
    rw [abortSolvers_doms]
  have lanes (ls : List (Fin 3)) (u : State) : (ls.foldl (fun s l => stopCore (laneCore l g) s) u).doms = u.doms := by
    induction ls generalizing u with
    | nil => rfl
    | cons l ls ih => exact ih _
  have halted : (groupHalted g s).doms = (changeLeave (groupDom g) before).doms := lanes allLanes _
  have final : (groupHalt g src s).doms[groupDom g].change = (changeLeave (groupDom g) before).doms[groupDom g].change := by
    rw [groupHalt_eq run, setRun_dom, halted]
  refine ⟨groupHalt_run g src s, ?_, ?_⟩
  · rw [final]
    exact changeLeave_none _ _
  · rw [final, changeLeave_confirmed, change]

theorem groupOf_groupDom : ∀ g : Fin 2, Fin.ofNat 2 ((groupDom g).val - 4) = g := by decide
theorem domPair_groupDom : ∀ g : Fin 2, domPair (groupDom g) = none := by decide

theorem revertNoconv_row {d : DomId} {s : State} (dim : s.doms[d].change.dim = .swapped) (want : s.doms[d].change.wantRevert = true) (late : 1024 ≤ s.doms[d].change.cycles)
    (run : s.doms[d].run = true) : Gives (.revertNoconv d) s [.cores, .doms, .voter, .solvers, .hsb, .sync, .mbx, .arb, .log] (ChangeStopped d s) := by
  have due : ¬ (s.doms[d].change.dim != .swapped || !s.doms[d].change.wantRevert || decide (s.doms[d].change.cycles < 1024)) = true := by
    rw [dim, want, decide_eq_false (Nat.not_lt.2 late)]
    decide
  have hrun : exec (.revertNoconv d) s = .next (match domPair d with
    | some n => pairCommandStop n 2 s
    | none => setMembers 2 (Fin.ofNat 2 (d.val - 4)) 0 (groupHalt (Fin.ofNat 2 (d.val - 4)) 2 s)) := congrArg Host.Outcome.next (if_neg due)
  refine gives_of_leaves (leaves_revertNoconv d s) hrun ?_
  rcases pair_or_group d with ⟨n, rfl⟩ | ⟨g, rfl⟩
  · rw [domPair_pairDom]
    exact pairCommandStop_changeStopped n 2 run
  · rw [domPair_groupDom, groupOf_groupDom]
    have members (u : State) : (setMembers 2 g 0 u).doms = u.doms := (kept_setMembers (ps0 := [.voter, .arb]) 2 g 0 u kept_refl (by decide)).only .doms (by decide)
    unfold ChangeStopped
    dsimp only
    rw [members]
    exact groupHalt_changeStopped g 2 run

/-- Settles O45, row by row: migrations touch memory and marks only, a turn changes one domain's program and bank, and every end closes the command. -/
theorem onlineChangesSwapConfirmAndRevert : Obligations.OnlineChangesSwapConfirmAndRevert := by
  intro d s c ends
  refine ⟨fun old new images dim recipe bulk => migrationBulkPass_row images dim recipe bulk, fun old new images dim recipe bulk free fits => swap_row images dim recipe bulk free fits,
    fun dim bulk late => migNoconv_row dim bulk late, fun r x hd len => ?_, fun old new hc hi dim => ⟨fun want recipe at_ => confirmEffect_row hc hi dim want recipe at_,
      fun want recipe free fits => revert_row hc hi dim want recipe free fits, fun confirm revert ended => confirmWindowExpiry_row dim ⟨confirm, revert⟩ ended, fun want late run => ?_⟩⟩
  · exact ⟨fun h => ⟨fun no => changeCmd_refused (hi := rfl) (leaves_changeConfirm r s) h len hd no, fun dim confirm revert =>
        changeCmd_recorded (w := .confirm) (f := fun y => { y with wantConfirm := true }) rfl h len hd dim ⟨confirm, revert⟩⟩,
      fun h => ⟨fun no => changeCmd_refused (hi := rfl) (leaves_changeRevert r s) h len hd no, fun dim confirm revert =>
        changeCmd_recorded (w := .revert) (f := fun y => { y with wantRevert := true, cycles := 0 }) rfl h len hd dim ⟨confirm, revert⟩⟩⟩
  · obtain ⟨t, hrun, only, stop, none, kept⟩ := revertNoconv_row dim want late run
    exact ⟨t, hrun, only, stop, none, kept.trans hc⟩

end Sys2Proof.Proofs
end

section
/-! SUPPORT. What a load of an image checks and leaves (R380, R381, R528). -/

namespace Sys2Proof.Proofs
open Sys2Proof.Machine Sys2Proof.Safety Sys2Proof.Laws
set_option Elab.async false

/-! ## IMAGE_LOAD up to its checks (R368) -/

theorem imageLoad_run {r : CmdRef} {x : Slot} {w : DomId} {s : State} (h : Waits r 0x0402 x s) (len : (slotData x).length = 16) (hd : sliceNat 8 1 (slotData x) = w.val)
    (program : sliceNat 9 1 (slotData x) = 0) (zero : sliceNat 10 2 (slotData x) = 0) (window : sliceNat 12 4 (slotData x) ≤ 86400) :
    exec (.imageLoad r) s = .next (imageLoadOp r (BitVec.ofNat 64 (sliceNat 0 8 (slotData x))) w false (sliceNat 12 4 (slotData x)) (begun r s)) := by
  have same : Fin.ofNat 6 (sliceNat 8 1 (slotData x)) = w := Fin.ext (by rw [hd]; exact Nat.mod_eq_of_lt w.isLt)
  refine congrArg Host.Outcome.next ((runCmd_waits h _).trans ?_)
  rw [if_neg (not_not.2 len), if_neg (by rw [hd]; exact Nat.not_lt.2 (Nat.le_of_lt_succ w.isLt)), if_neg (by rw [program]; decide), if_neg (not_not.2 zero), if_neg (Nat.not_lt.2 window), same,
    program]
  rfl

/-- A refusal of the load that leaves the mailboxes alone before. -/
theorem imageLoad_refused {r : CmdRef} {x : Slot} {w : DomId} {s t : State} {e : String} (hx : slotOf r s = some x) (he : exec (.imageLoad r) s = .next (loadRefused r w e t))
    (hm : t.mbx = (begun r s).mbx) :
    Gives (.imageLoad r) s [.cores, .doms, .mem, .memRegs, .memErrs, .voter, .solvers, .ixl, .sync, .fg, .fgErr, .mbx, .wdg, .cim, .arch, .boot, .arb, .log, .freeCtr]
      (Ended r x .refused 0 (Config.textOf e)) :=
  gives_ended (t := addLog .refusedLoad w.val (nameCode e) t) (leaves_imageLoad r s) hx he hm

/-! ## What the rows of R381 look at -/

/-- A command's start changes only the mailboxes. -/
theorem begun_keeps (r : CmdRef) (s : State) :
    (begun r s).doms = s.doms ∧ (begun r s).arb = s.arb ∧ (begun r s).update = s.update ∧ (begun r s).voter = s.voter ∧ (begun r s).hsb = s.hsb ∧ (begun r s).ring = s.ring ∧
      (begun r s).arch = s.arch ∧ (begun r s).cyc = s.cyc := by
  obtain ⟨m, e⟩ := begun_mbx r s
  rw [e]
  exact ⟨rfl, rfl, rfl, rfl, rfl, rfl, rfl, rfl⟩

theorem admission_begun (w : DomId) (r : CmdRef) (s : State) : admission w (begun r s) = admission w s := by
  obtain ⟨doms, arb, update, -⟩ := begun_keeps r s
  unfold admission inSafe
  rw [doms, arb, update]

theorem proofStale_begun (new : Image) (r : CmdRef) (s : State) : proofStale new (begun r s) = proofStale new s := by
  obtain ⟨m, e⟩ := begun_mbx r s
  rw [e]
  rfl

theorem plainRefusal_begun (w : DomId) (new : Image) (r : CmdRef) (s : State) : plainRefusal w new (begun r s) = plainRefusal w new s := by
  obtain ⟨doms, -, -, -, -, ring, -⟩ := begun_keeps r s
  unfold plainRefusal
  rw [proofStale_begun, doms, ring]

theorem changeRefusal_begun (w : DomId) (old new : Image) (recipe : Bool) (r : CmdRef) (s : State) : changeRefusal w old new recipe (begun r s) = changeRefusal w old new recipe s := by
  obtain ⟨doms, -, -, voter, hsb, ring, -⟩ := begun_keeps r s
  unfold changeRefusal
  rw [proofStale_begun, doms, voter, hsb, ring]

/-! ## A load of the tables (R528) -/

theorem seen_stageImage (im : Image) (s : State) : Seen s (stageImage im s) := seen_foldl (fun s g => seen_store _ _ _ _ s) _ s

theorem seen_writeCode (d : DomId) (im : Image) (s : State) : Seen s (writeCode d im s) := by
  unfold writeCode
  split
  · exact seen_foldl (fun s g => seen_store _ _ _ _ s) _ s
  · exact (seen_stageImage im s).trans (seen_foldl (fun s c => seen_foldl (fun s g => seen_store _ _ _ _ s) _ s) _ _)

/-- A load whose tables pass has put the image in place. -/
theorem loadTrial_dom {d : DomId} {raw im : Image} {s : State} (h : (loadTrial d raw im s).1 = none) :
    shown (loadTrial d raw im s).2.doms[d] = shown { s.doms[d] with image := some im } := by
  unfold loadTrial at h ⊢
  cases hr : loadRefusal d raw s with
  | some e =>
    rw [hr] at h
    exact absurd h (by simp)
  | none =>
    let u := modDom d (fun x => { x with image := some im }) (unloadQueues d s)
    have before : (unloadQueues d s).doms = s.doms := (kept_unloadQueues (ps0 := [.solvers]) d s kept_refl (by decide)).only .doms (by decide)
    have placed : u.doms[d] = { s.doms[d] with image := some im } := (modDom_same _ _ _).trans (by rw [before])
    have after : Kept [.cores, .memRegs, .memErrs, .solvers] (writeCode d im u) (loadQueues d im (mapRegions d im (writeCode d im u))).2 :=
      kept_loadQueues _ _ _ (kept_mapRegions _ _ _ kept_refl (by decide)) (by decide)
    rw [← placed]
    refine Eq.trans ?_ ((seen_writeCode d im u).doms d)
    exact congrArg (fun v : Vector Dom 6 => shown v[d]) (after.only .doms (by decide))

theorem loadTrial_mbx (d : DomId) (raw im : Image) (s : State) : (loadTrial d raw im s).2.mbx = s.mbx :=
  (kept_loadTrial (ps0 := [.cores, .doms, .mem, .memRegs, .memErrs, .voter, .solvers, .freeCtr]) d raw im s kept_refl (by decide)).only .mbx (by decide)

/-! ## Marks are set only after a bulk pass (R384) -/

/-- A domain's change stands, where its bulk pass has not been. -/
def Unmarked (d : DomId) (s t : State) : Prop := s.doms[d].change.bulkDone = false → t.doms[d].change = s.doms[d].change

theorem Unmarked.refl (d : DomId) (s : State) : Unmarked d s s := fun _ => rfl
theorem Unmarked.trans {d : DomId} {s t u : State} (h : Unmarked d s t) (k : Unmarked d t u) : Unmarked d s u := fun e => (k (by rw [h e, e])).trans (h e)

theorem unmarked_of_doms {d : DomId} {s t : State} (h : t.doms = s.doms) : Unmarked d s t := fun _ => by rw [h]

theorem unmarked_foldl {α : Type} {d : DomId} {f : State → α → State} (h : ∀ s x, Unmarked d s (f s x)) (xs : List α) (s : State) : Unmarked d s (xs.foldl f s) := by
  induction xs generalizing s with
  | nil => exact .refl d s
  | cons x xs ih => exact (h s x).trans (ih _)

theorem domTouch_change {by_ : Option CoreId} {code : Nat} {ls : List Nat} {i : Nat} {x : Dom} (h : x.change.bulkDone = false) : (domTouch by_ code ls i x).change = x.change := by
  unfold domTouch
  split
  · rfl
  · simp only [h, Bool.false_eq_true, if_false, apply_ite Dom.change, ite_self]

theorem unmarked_store (by_ : Option CoreId) (code off : Nat) (bs : List Byte) (d : DomId) (s : State) : Unmarked d s (store by_ code off bs s) := by
  unfold store
  split
  · exact .refl d s
  · have written : Unmarked d s (writeBytes code off bs s) := unmarked_of_doms (by rw [writeBytes_rest])
    have gather (u : State) : Unmarked d u (gatherTouch code off bs u) :=
      unmarked_of_doms ((kept_gatherTouch (ps0 := [.solvers, .freeCtr]) code off bs u kept_refl (by decide)).only .doms (by decide))
    have noted (u : State) : Unmarked d u (noteWrite by_ code off bs.length u) := fun h => by
      have e : (noteWrite by_ code off bs.length u).doms =
          u.doms.mapIdx (domTouch by_ code ((List.range ((off + bs.length - 1) / 64 + 1 - off / 64)).map (off / 64 + ·))) := by
        unfold noteWrite
        dsimp only
        split <;> rfl
      rw [e]
      simp only [Fin.getElem_fin, Vector.getElem_mapIdx]
      exact domTouch_change h
    exact (written.trans (noted _)).trans (gather _)

/-! ## What a plain load leaves (R380) -/

theorem seen_writeMatrix (d : DomId) (im : Image) (s : State) : Seen s (writeMatrix d im s) := by
  unfold writeMatrix
  split
  · exact .refl s
  · exact seen_foldl (fun s c => seen_foldl (fun s g => seen_store _ _ _ _ s) _ s) _ s

theorem unmarked_writeMatrix (d e : DomId) (im : Image) (s : State) : Unmarked e s (writeMatrix d im s) := by
  unfold writeMatrix
  split
  · exact .refl e s
  · exact unmarked_foldl (fun s c => unmarked_foldl (fun s g => unmarked_store _ _ _ _ e s) _ s) _ s

/-- Channels, watchdogs and check-ins of a load. -/
def loadDevices (d : DomId) (old : Option Image) (im : Image) (s : State) : State := cimLoad d im (im.wdg.foldl (fun s w => wdgLoad w s) (loadChannels d old im s))

/-- The voter and the interlocking of a load. -/
def loadGroup (d : DomId) (old : Option Image) (im : Image) (s : State) : State :=
  let s := voterLoad d im s
  if im.interlocking || old.any (·.interlocking) then { s with ixl := .replicate 3 .reset } else s

theorem loadSettings_pair {d : DomId} (h : d.val < 4) (old : Option Image) (im : Image) (s : State) : loadSettings d old im s = loadDevices d old im s := if_pos h

theorem loadSettings_group {d : DomId} (h : ¬ d.val < 4) (old : Option Image) (im : Image) (s : State) :
    loadSettings d old im s = loadGroup d old im (writeMatrix d im (loadDevices d old im s)) := if_neg h

theorem loadDevices_doms (d : DomId) (old : Option Image) (im : Image) (s : State) : (loadDevices d old im s).doms = s.doms := by
  have kept : Kept [.fg, .fgErr, .wdg, .cim] s (loadDevices d old im s) :=
    kept_cimLoad _ _ _ (kept_foldl (kept_loadChannels _ _ _ _ kept_refl (by decide)) fun _ _ k => kept_wdgLoad _ _ k (by decide)) (by decide)
  exact kept.only .doms (by decide)

theorem loadGroup_doms (d : DomId) (old : Option Image) (im : Image) (s : State) : (loadGroup d old im s).doms = s.doms := by
  have voter : (voterLoad d im s).doms = s.doms := (kept_voterLoad (ps0 := [.voter]) d im s kept_refl (by decide)).only .doms (by decide)
  unfold loadGroup
  dsimp only
  split <;> exact voter

/-- The settings of a load leave image, bank and a change that has just been reset. -/
theorem loadSettings_dom {d : DomId} {old : Option Image} {im : Image} {s : State} (h : s.doms[d].change.bulkDone = false) :
    (loadSettings d old im s).doms[d].image = s.doms[d].image ∧ (loadSettings d old im s).doms[d].bankB = s.doms[d].bankB ∧
      (loadSettings d old im s).doms[d].change = s.doms[d].change := by
  by_cases hd : d.val < 4
  · rw [loadSettings_pair hd, loadDevices_doms]
    exact ⟨rfl, rfl, rfl⟩
  · rw [loadSettings_group hd, loadGroup_doms]
    have seen := (seen_writeMatrix d im (loadDevices d old im s)).doms d
    have same := unmarked_writeMatrix d d im (loadDevices d old im s)
    unfold Unmarked at same
    rw [loadDevices_doms] at seen same
    exact ⟨image_of_shown seen, (congrArg Dom.bankB seen :), same h⟩

/-- A plain load's trial. -/
def plainTrial (d : DomId) (raw : Image) (s : State) : Option String × State :=
  loadTrial d raw (placeImage d (!s.doms[d].bankB) raw) (modDom d (fun x => { x with bankB := !s.doms[d].bankB }) (solvReady d (placeImage d (!s.doms[d].bankB) raw) s))

/-- The image takes effect. -/
def plainPlaced (d : DomId) (raw : Image) (s : State) : State :=
  let im := placeImage d (!s.doms[d].bankB) raw
  let u := modDom d (fun x => { x with image := some im, change := .reset }) (plainTrial d raw s).2
  if u.arb.oper == .run || inSafe u then stopOutputs d im u else u

/-- Its settings. -/
def plainSettled (d : DomId) (raw : Image) (s : State) : State := solvPower (loadSettings d s.doms[d].image (placeImage d (!s.doms[d].bankB) raw) (plainPlaced d raw s))

theorem plainLoad_refused {d : DomId} {raw : Image} {s : State} {e : String} (h : (plainTrial d raw s).1 = some e) :
    plainLoad d raw s = (some e, addLog .refusedLoad d.val (nameCode e) (solvPower (loadUndone d s (plainTrial d raw s).2))) := by
  unfold plainTrial at h ⊢
  unfold plainLoad
  dsimp only
  rw [h]

theorem plainLoad_done {d : DomId} {raw : Image} {s : State} (h : (plainTrial d raw s).1 = none) :
    plainLoad d raw s = (none, { plainSettled d raw s with arch := { (plainSettled d raw s).arch with progs := (plainSettled d raw s).arch.progs.set d (some raw) } }) := by
  unfold plainSettled plainPlaced
  unfold plainTrial at h ⊢
  unfold plainLoad
  dsimp only
  rw [h]

theorem stopOutputs_dom (d : DomId) (im : Image) (s : State) :
    (stopOutputs d im s).doms[d].image = s.doms[d].image ∧ (stopOutputs d im s).doms[d].bankB = s.doms[d].bankB ∧ (stopOutputs d im s).doms[d].change = s.doms[d].change := by
  unfold stopOutputs
  split
  · rw [modDom_same]
    exact ⟨rfl, rfl, rfl⟩
  · exact ⟨rfl, rfl, rfl⟩

theorem plainPlaced_dom {d : DomId} {raw : Image} {s : State} (h : (plainTrial d raw s).1 = none) :
    (plainPlaced d raw s).doms[d].image = some (placeImage d (!s.doms[d].bankB) raw) ∧ (plainPlaced d raw s).doms[d].bankB = (!s.doms[d].bankB) ∧
      (plainPlaced d raw s).doms[d].change = .reset := by
  have bank : (plainTrial d raw s).2.doms[d].bankB = !s.doms[d].bankB := by
    refine (congrArg Dom.bankB (loadTrial_dom h) :).trans ?_
    rw [modDom_same]
    rfl
  let u := modDom d (fun x => { x with image := some (placeImage d (!s.doms[d].bankB) raw), change := .reset }) (plainTrial d raw s).2
  have placed : u.doms[d] = { (plainTrial d raw s).2.doms[d] with image := some (placeImage d (!s.doms[d].bankB) raw), change := .reset } := modDom_same _ _ _
  have both : u.doms[d].image = some (placeImage d (!s.doms[d].bankB) raw) ∧ u.doms[d].bankB = (!s.doms[d].bankB) ∧ u.doms[d].change = .reset := by
    rw [placed]
    exact ⟨rfl, bank, rfl⟩
  show (if u.arb.oper == .run || inSafe u then stopOutputs d (placeImage d (!s.doms[d].bankB) raw) u else u).doms[d].image = _ ∧ _
  unfold plainPlaced
  dsimp only
  split
  · obtain ⟨i, b, c⟩ := stopOutputs_dom d (placeImage d (!s.doms[d].bankB) raw) u
    exact ⟨i.trans both.1, b.trans both.2.1, c.trans both.2.2⟩
  · exact both

theorem plainLoad_dom {d : DomId} {raw : Image} {s : State} (h : (plainLoad d raw s).1 = none) :
    (plainLoad d raw s).2.doms[d].image = some (placeImage d (!s.doms[d].bankB) raw) ∧ (plainLoad d raw s).2.doms[d].bankB = (!s.doms[d].bankB) ∧
      (plainLoad d raw s).2.doms[d].change = .reset ∧ (plainLoad d raw s).2.arch.progs[d] = some raw := by
  cases trial : (plainTrial d raw s).1 with
  | some e =>
    rw [plainLoad_refused trial] at h
    exact absurd h (by simp)
  | none =>
    obtain ⟨image, bank, change⟩ := plainPlaced_dom trial
    obtain ⟨i, b, c⟩ := loadSettings_dom (d := d) (old := s.doms[d].image) (im := placeImage d (!s.doms[d].bankB) raw) (s := plainPlaced d raw s) (by rw [change]; rfl)
    have power (u : State) : (solvPower u).doms = u.doms := (kept_solvPower (ps0 := [.solvers, .boot]) u kept_refl (by decide)).only .doms (by decide)
    rw [plainLoad_done trial]
    refine ⟨?_, ?_, ?_, Vector.getElem_set_self d.isLt⟩
    · exact (congrArg (fun v : Vector Dom 6 => v[d].image) (power _)).trans (i.trans image)
    · exact (congrArg (fun v : Vector Dom 6 => v[d].bankB) (power _)).trans (b.trans bank)
    · exact (congrArg (fun v : Vector Dom 6 => v[d].change) (power _)).trans (c.trans change)

theorem plainLoad_mbx (d : DomId) (raw : Image) (s : State) : (plainLoad d raw s).2.mbx = s.mbx :=
  (kept_plainLoad (ps0 := [.cores, .doms, .mem, .memRegs, .memErrs, .voter, .solvers, .ixl, .fg, .fgErr, .wdg, .cim, .arch, .boot, .log, .freeCtr]) d raw s kept_refl (by decide)).only
    .mbx (by decide)

end Sys2Proof.Proofs
end

section
/-! SUPPORT. IMAGE_LOAD (R368, R380, R500, R501). -/

namespace Sys2Proof.Proofs
open Sys2Proof.Machine Sys2Proof.Safety Sys2Proof.Laws
set_option Elab.async false

/-! ## A load undone, and a change that begins (R380, R384, R528) -/

theorem foldl_modCore_doms (f : CoreId → Core → Core) (cs : List CoreId) (s : State) : (cs.foldl (fun t c => modCore c (f c) t) s).doms = s.doms := by
  induction cs generalizing s with
  | nil => rfl
  | cons c cs ih => exact ih _

/-- An undone load has given image and bank back. -/
theorem loadUndone_dom (d : DomId) (s t : State) : (loadUndone d s t).doms[d] = { t.doms[d] with image := s.doms[d].image, bankB := s.doms[d].bankB } := by
  have cores := foldl_modCore_doms (fun c k => { k with prot := s.cores[c].prot }) (domCores d)
    (modDom d (fun x => { x with image := s.doms[d].image, bankB := s.doms[d].bankB }) { t with solvers := s.solvers })
  refine (congrArg (fun v : Vector Dom 6 => v[d]) cores).trans ?_
  exact modDom_same d _ { t with solvers := s.solvers }

theorem loadUndone_mbx (d : DomId) (s t : State) : (loadUndone d s t).mbx = t.mbx :=
  (kept_loadUndone (ps0 := [.cores, .doms, .solvers]) d s t kept_refl (by decide)).only .mbx (by decide)

theorem solvPower_mbx (s : State) : (solvPower s).mbx = s.mbx := (kept_solvPower (ps0 := [.solvers, .boot]) s kept_refl (by decide)).only .mbx (by decide)

/-- The trial of a change. -/
def changeTrial (d : DomId) (raw new : Image) (s : State) : Option String × State := loadTrial d raw new (modDom d (fun y => { y with bankB := !y.bankB }) (solvReady d new s))

theorem changeTrial_before (d : DomId) (new : Image) (s : State) :
    Kept [.doms, .boot] s (modDom d (fun y => { y with bankB := !y.bankB }) (solvReady d new s)) := kept_modDom _ _ _ (kept_solvReady _ _ _ kept_refl (by decide)) (by decide)

theorem changeTrial_mbx (d : DomId) (raw new : Image) (s : State) : (changeTrial d raw new s).2.mbx = s.mbx :=
  (loadTrial_mbx d raw new _).trans ((changeTrial_before d new s).only .mbx (by decide))

theorem changeTrial_run {d : DomId} {raw new : Image} {s : State} (h : (changeTrial d raw new s).1 = none) : (changeTrial d raw new s).2.doms[d].run = s.doms[d].run := by
  have ready : (solvReady d new s).doms = s.doms := (kept_solvReady (ps0 := [.boot]) d new s kept_refl (by decide)).only .doms (by decide)
  refine (run_of_shown (loadTrial_dom h)).trans ?_
  rw [modDom_same, ready]

/-- The change of a domain that has just been admitted. -/
def changeStarted (r : CmdRef) (raw : Image) (window : Nat) : Change :=
  { Change.reset with image := some raw, windowS := if window = 0 then 600 else window, cmd := some r }

theorem changeBegin_refused {r : CmdRef} {d : DomId} {old raw : Image} {window : Nat} {s : State} {e : String}
    (h : changeRefusal d old (placeImage d (!s.doms[d].bankB) raw) false s = some e) : changeBegin r d old raw false window s = loadRefused r d e s := by
  unfold changeBegin
  dsimp only
  rw [h]

theorem changeBegin_untried {r : CmdRef} {d : DomId} {old raw : Image} {window : Nat} {s : State} {e : String}
    (h : changeRefusal d old (placeImage d (!s.doms[d].bankB) raw) false s = none) (trial : (changeTrial d raw (placeImage d (!s.doms[d].bankB) raw) s).1 = some e) :
    changeBegin r d old raw false window s = loadRefused r d e (solvPower (loadUndone d s (changeTrial d raw (placeImage d (!s.doms[d].bankB) raw) s).2)) := by
  unfold changeTrial at trial ⊢
  unfold changeBegin
  dsimp only
  rw [h]
  simp only [Bool.false_eq_true, if_false, trial]

theorem changeBegin_begun {r : CmdRef} {d : DomId} {old raw : Image} {window : Nat} {s : State}
    (h : changeRefusal d old (placeImage d (!s.doms[d].bankB) raw) false s = none) (trial : (changeTrial d raw (placeImage d (!s.doms[d].bankB) raw) s).1 = none) :
    changeBegin r d old raw false window s = waitFor r .load (setChg d .pending (modDom d (fun x => { x with change := changeStarted r raw window })
      (loadUndone d s (changeTrial d raw (placeImage d (!s.doms[d].bankB) raw) s).2))) := by
  unfold changeTrial at trial ⊢
  unfold changeBegin
  dsimp only
  rw [h]
  simp only [Bool.false_eq_true, if_false, trial]
  rfl

/-! ## Which way IMAGE_LOAD goes -/

theorem imageLoadOp_unknown {r : CmdRef} {id : Long} {d : DomId} {window : Nat} {s : State} (h : fileOf id s.arch.images = none) :
    imageLoadOp r id d false window s = loadRefused r d "IMAGE_UNKNOWN" s := by
  unfold imageLoadOp
  rw [h]

theorem imageLoadOp_keys {r : CmdRef} {id : Long} {d : DomId} {window : Nat} {s : State} {b : List Byte} (h : fileOf id s.arch.images = some b) (key : isKeyImage b = true) :
    imageLoadOp r id d false window s =
      let z := if d.val < 4 then (some "KEY_IMAGE_BAD", s) else keyLoad d b s
      match z.1 with | some e => loadRefused r d e z.2 | none => finish r .ok 0 [] z.2 := by
  unfold imageLoadOp
  rw [h]
  exact if_pos key

theorem imageLoadOp_admission {r : CmdRef} {id : Long} {d : DomId} {window : Nat} {s : State} {b : List Byte} {e : String} (h : fileOf id s.arch.images = some b) (key : isKeyImage b = false)
    (no : admission d s = some e) : imageLoadOp r id d false window s = loadRefused r d e s := by
  unfold imageLoadOp
  rw [h]
  refine (if_neg (by rw [key]; decide)).trans ?_
  rw [no]

theorem imageLoadOp_stopped {r : CmdRef} {id : Long} {d : DomId} {window : Nat} {s : State} {b : List Byte} (h : fileOf id s.arch.images = some b) (key : isKeyImage b = false)
    (yes : admission d s = none) (run : s.doms[d].run = false) : imageLoadOp r id d false window s = match plainRefusal d (Config.readImage b) s with
      | some e => loadRefused r d e s
      | none => match (plainLoad d (Config.readImage b) s).1 with
        | some e => finishRefused r 0 e (plainLoad d (Config.readImage b) s).2
        | none => finish r .ok 0 [] (plainLoad d (Config.readImage b) s).2 := by
  unfold imageLoadOp
  rw [h]
  refine (if_neg (by rw [key]; decide)).trans ?_
  rw [yes, run] <;> rfl

theorem imageLoadOp_running {r : CmdRef} {id : Long} {d : DomId} {window : Nat} {s : State} {b : List Byte} {old : Image} (h : fileOf id s.arch.images = some b) (key : isKeyImage b = false)
    (yes : admission d s = none) (run : s.doms[d].run = true) (image : s.doms[d].image = some old) :
    imageLoadOp r id d false window s = changeBegin r d old (Config.readImage b) false window s := by
  unfold imageLoadOp
  rw [h]
  refine (if_neg (by rw [key]; decide)).trans ?_
  rw [yes, run, image]

/-! ## Key images (R500, R501) -/

theorem keyLoad_mbx (d : DomId) (b : List Byte) (s : State) : (keyLoad d b s).2.mbx = s.mbx :=
  (kept_keyLoad (ps0 := [.cores, .doms, .mem, .voter, .solvers, .arch, .freeCtr]) d b s kept_refl (by decide)).only .mbx (by decide)

/-- A key image that is loaded stands in the Archive for its group. -/
theorem keyLoad_kept {d : DomId} {b : List Byte} {s : State} (h : (keyLoad d b s).1 = none) (group : 4 ≤ d.val) :
    ∃ k ∈ (keyLoad d b s).2.arch.keyImages, k.2 = b ∧ k.1.val + 4 = d.val := by
  have mine : ((Fin.ofNat 2 (d.val - 4), b) : Fin 2 × List Byte).1.val + 4 = d.val := by
    show (d.val - 4) % 2 + 4 = d.val
    have := d.isLt
    omega
  unfold keyLoad at h ⊢
  cases hk : ckekKey s with
  | none => simp [hk] at h
  | some ck =>
    rw [hk] at h
    dsimp only at h ⊢
    by_cases run : s.doms[d].run = true
    · rw [if_pos run] at h
      exact absurd h (by simp)
    · rw [if_neg run] at h ⊢
      cases hx : keysOf ck b with
      | none =>
        rw [hx] at h
        exact absurd h (by simp)
      | some x =>
        rw [hx] at h
        dsimp only at h ⊢
        by_cases vote : keyVote (writeKeys x.1 x.2 s) = true
        · rw [if_pos vote]
          exact ⟨(Fin.ofNat 2 (d.val - 4), b), List.mem_append_right _ (List.mem_singleton.2 rfl), rfl, mine⟩
        · rw [if_neg vote] at h
          exact absurd h (by simp)

/-! ## The rows of IMAGE_LOAD -/

/-- The parts of a load. -/
def loadParts : List Part :=
  [.cores, .doms, .mem, .memRegs, .memErrs, .voter, .solvers, .ixl, .sync, .fg, .fgErr, .mbx, .wdg, .cim, .arch, .boot, .arb, .log, .freeCtr]

/-- A load that ends refused. -/
def LoadRefused (r : CmdRef) (x : Slot) (s : State) (e : String) : Prop := Gives (.imageLoad r) s loadParts (Ended r x .refused 0 (Config.textOf e))

/-- A load has started: it runs on the state in which its slot has begun. -/
structure Loading (r : CmdRef) (x : Slot) (id : Long) (w : DomId) (window : Nat) (s : State) : Prop where
  slot : slotOf r s = some x
  run : exec (.imageLoad r) s = .next (imageLoadOp r id w false window (begun r s))

theorem Loading.refused {r : CmdRef} {x : Slot} {id : Long} {w : DomId} {window : Nat} {s t : State} {e : String} (l : Loading r x id w window s)
    (h : imageLoadOp r id w false window (begun r s) = loadRefused r w e t) (hm : t.mbx = (begun r s).mbx) : LoadRefused r x s e :=
  imageLoad_refused l.slot (l.run.trans (congrArg Host.Outcome.next h)) hm

/-- The image of the command is known. -/
structure Known (id : Long) (b : List Byte) (s : State) : Prop where
  file : fileOf id s.arch.images = some b

theorem Known.begun {id : Long} {b : List Byte} {s : State} (h : Known id b s) (r : CmdRef) : fileOf id (begun r s).arch.images = some b := by
  obtain ⟨-, -, -, -, -, -, arch, -⟩ := begun_keeps r s
  rw [arch]
  exact h.file

theorem keyImage_rows {r : CmdRef} {x : Slot} {id : Long} {w : DomId} {window : Nat} {b : List Byte} {s : State} (l : Loading r x id w window s) (known : Known id b s) (key : isKeyImage b = true) :
    (w.val < 4 → LoadRefused r x s "KEY_IMAGE_BAD") ∧ (∀ e, 4 ≤ w.val → (keyLoad w b (begun r s)).1 = some e → LoadRefused r x s e) ∧
      (4 ≤ w.val → (keyLoad w b (begun r s)).1 = none → Gives (.imageLoad r) s loadParts fun t => Ended r x .ok 0 [] t ∧ ∃ k ∈ t.arch.keyImages, k.2 = b ∧ k.1.val + 4 = w.val) := by
  have op := imageLoadOp_keys (r := r) (d := w) (window := window) (known.begun r) key
  have group (h : 4 ≤ w.val) : imageLoadOp r id w false window (begun r s) = match (keyLoad w b (begun r s)).1 with
      | some e => loadRefused r w e (keyLoad w b (begun r s)).2
      | none => finish r .ok 0 [] (keyLoad w b (begun r s)).2 := by
    rw [op]
    dsimp only
    rw [if_neg (Nat.not_lt.2 h)]
  refine ⟨fun pair => l.refused (t := begun r s) ?_ rfl, fun e h refuses => l.refused (t := (keyLoad w b (begun r s)).2) ?_ (keyLoad_mbx w b _), fun h loads => ?_⟩
  · rw [op]
    dsimp only
    rw [if_pos pair]
  · rw [group h, refuses]
  · have done := group h
    rw [loads] at done
    refine gives_ended_and (leaves_imageLoad r s) l.slot (l.run.trans (congrArg Host.Outcome.next done)) (keyLoad_mbx w b _) ?_
    rw [(finish_only r .ok 0 [] _).only .arch (by decide)]
    exact keyLoad_kept loads h

theorem plainLoad_rows {r : CmdRef} {x : Slot} {id : Long} {w : DomId} {window : Nat} {b : List Byte} {s : State} (l : Loading r x id w window s) (known : Known id b s)
    (key : isKeyImage b = false) (yes : admission w s = none) (stopped : s.doms[w].run = false) :
    (∀ e, plainRefusal w (Config.readImage b) s = some e → LoadRefused r x s e) ∧
      (∀ e, plainRefusal w (Config.readImage b) s = none → (plainLoad w (Config.readImage b) (begun r s)).1 = some e → LoadRefused r x s e) ∧
      (plainRefusal w (Config.readImage b) s = none → (plainLoad w (Config.readImage b) (begun r s)).1 = none → Gives (.imageLoad r) s loadParts fun t => Ended r x .ok 0 [] t ∧
        t.doms[w].image = some (placeImage w (!s.doms[w].bankB) (Config.readImage b)) ∧ t.doms[w].bankB = (!s.doms[w].bankB) ∧ t.doms[w].change = .reset ∧
        t.arch.progs[w] = some (Config.readImage b)) := by
  obtain ⟨doms, -⟩ := begun_keeps r s
  have op := imageLoadOp_stopped (r := r) (window := window) (known.begun r) key ((admission_begun w r s).trans yes) (by rw [doms, stopped])
  rw [plainRefusal_begun] at op
  refine ⟨fun e no => l.refused (t := begun r s) ?_ rfl, fun e plain no => ?_, fun plain loads => ?_⟩
  · rw [op, no]
  · rw [plain] at op
    dsimp only at op
    rw [no] at op
    exact gives_ended (leaves_imageLoad r s) l.slot (l.run.trans (congrArg Host.Outcome.next op)) (plainLoad_mbx w _ _)
  · rw [plain] at op
    dsimp only at op
    rw [loads] at op
    have placed := plainLoad_dom loads
    have ended := (finish_only r .ok 0 [] (plainLoad w (Config.readImage b) (begun r s)).2).only
    refine gives_ended_and (leaves_imageLoad r s) l.slot (l.run.trans (congrArg Host.Outcome.next op)) (plainLoad_mbx w _ _) ?_
    rw [ended .doms (by decide), ended .arch (by decide)]
    rw [doms] at placed
    exact placed

theorem onlineLoad_rows {r : CmdRef} {x : Slot} {id : Long} {w : DomId} {window : Nat} {b : List Byte} {s : State} {old : Image} (l : Loading r x id w window s) (known : Known id b s)
    (key : isKeyImage b = false) (yes : admission w s = none) (run : s.doms[w].run = true) (image : s.doms[w].image = some old) :
    let raw := Config.readImage b
    let new := placeImage w (!s.doms[w].bankB) raw
    (∀ e, changeRefusal w old new false s = some e → LoadRefused r x s e) ∧
      (∀ e, changeRefusal w old new false s = none → (changeTrial w raw new (begun r s)).1 = some e → LoadRefused r x s e) ∧
      (changeRefusal w old new false s = none → (changeTrial w raw new (begun r s)).1 = none → Gives (.imageLoad r) s loadParts fun t => GoesOn r x .load t ∧
        t.doms[w].change = { Change.reset with dim := .pending, image := some raw, windowS := if window = 0 then 600 else window, cmd := some r } ∧
        t.doms[w].image = some old ∧ t.doms[w].run = true) := by
  intro raw new
  obtain ⟨doms, -⟩ := begun_keeps r s
  have bank : placeImage w (!(begun r s).doms[w].bankB) raw = new := by rw [doms]
  have op := imageLoadOp_running (r := r) (window := window) (known.begun r) key ((admission_begun w r s).trans yes) (by rw [doms, run]) (old := old) (by rw [doms, image])
  have row (o : Option String) (h : changeRefusal w old new false s = o) : changeRefusal w old (placeImage w (!(begun r s).doms[w].bankB) raw) false (begun r s) = o := by
    rw [bank, changeRefusal_begun]
    exact h
  refine ⟨fun e no => l.refused (t := begun r s) (op.trans (changeBegin_refused (row _ no))) rfl, fun e passes no => ?_, fun passes tried => ?_⟩
  · have untried := changeBegin_untried (r := r) (window := window) (row _ passes) (by rw [bank]; exact no)
    rw [bank] at untried
    refine l.refused (op.trans untried) ?_
    rw [solvPower_mbx, loadUndone_mbx, changeTrial_mbx]
  · have begins := changeBegin_begun (r := r) (window := window) (row _ passes) (by rw [bank]; exact tried)
    rw [bank] at begins
    have runs := changeTrial_run tried
    have mbx := changeTrial_mbx w raw new (begun r s)
    generalize (changeTrial w raw new (begun r s)).2 = z at begins runs mbx
    have setChg_mbx (u : State) : (setChg w .pending u).mbx = u.mbx := (kept_setChg (ps0 := [.doms, .arb]) w .pending u kept_refl (by decide)).only .mbx (by decide)
    have wait (u : State) : (waitFor r .load u).doms = u.doms := (kept_waitFor (ps0 := [.mbx]) r .load u kept_refl (by decide)).only .doms (by decide)
    refine gives_of_leaves (leaves_imageLoad r s) (l.run.trans (congrArg Host.Outcome.next (op.trans begins))) ⟨waitFor_goesOn l.slot ?_, ?_⟩
    · exact (setChg_mbx _).trans ((loadUndone_mbx w (begun r s) z).trans mbx)
    · rw [wait, setChg_dom, modDom_same, loadUndone_dom]
      refine ⟨rfl, ?_, ?_⟩
      · show (begun r s).doms[w].image = some old
        rw [doms, image]
      · show z.doms[w].run = true
        rw [runs, doms, run]

/-- Settles O44: the checks come first, a refused load gives everything back, a plain load of a stopped domain takes effect, and a running domain begins a
change. -/
theorem imagesLoadOrBeginAChange : Obligations.ImagesLoadOrBeginAChange := by
  intro r x w s d u id window refused h len hd program zero hw
  have l : Loading r x id w window s := ⟨h.slot, imageLoad_run h len hd program zero hw⟩
  refine ⟨fun unknown => ?_, fun b file => ?_⟩
  · obtain ⟨-, -, -, -, -, -, arch, -⟩ := begun_keeps r s
    exact l.refused (imageLoadOp_unknown (by rw [arch]; exact unknown)) rfl
  · intro raw new
    have known : Known id b s := ⟨file⟩
    refine ⟨fun key => ?_, fun key group loads => (keyImage_rows l known key).2.2 group loads, fun key => ⟨fun e no => ?_, fun yes stopped => plainLoad_rows l known key yes stopped,
      fun old yes run image => onlineLoad_rows l known key yes run image⟩⟩
    · obtain ⟨pair, group, -⟩ := keyImage_rows l known key
      exact ⟨pair, group⟩
    · exact l.refused (imageLoadOp_admission (known.begun r) key ((admission_begun w r s).trans no)) rfl

end Sys2Proof.Proofs
end

section
/-! SUPPORT. T_k and input ready (R31, R37, R39). -/

namespace Sys2Proof.Proofs
open Sys2Proof.Machine Sys2Proof.Safety Sys2Proof.Laws
set_option Elab.async false

/-! ## The last train's mark through a cycle's start (R477) -/

/-- Whether the next train is the last one stays. -/
def LastStays (s t : State) : Prop := t.arb.lastTrain = s.arb.lastTrain

theorem LastStays.refl (s : State) : LastStays s s := Eq.refl s.arb.lastTrain
theorem LastStays.trans {s t u : State} (h : LastStays s t) (k : LastStays t u) : LastStays s u := Eq.trans k h

theorem lastStays_of_arb {s t : State} (h : t.arb = s.arb) : LastStays s t := congrArg Arb.lastTrain h

theorem lastStays_of_kept {ps : List Part} {s t : State} (h : Kept ps s t) (ha : .arb ∉ ps) : LastStays s t := lastStays_of_arb (h.only .arb ha)

theorem lastStays_transition (src inst dim frm to_ : Nat) (s : State) : LastStays s (transition src inst dim frm to_ s) := (congrArg Arb.lastTrain (transition_still src inst dim frm to_ s) :)

theorem lastStays_modSync (f : SyncLink → SyncLink) (s : State) : LastStays s (modSync f s) := Eq.refl s.arb.lastTrain

theorem lastStays_modHsb (f : Hsb → Hsb) (s : State) : LastStays s (modHsb f s) := Eq.refl s.arb.lastTrain

theorem lastStays_modRing (f : Ring → Ring) (s : State) : LastStays s (modRing f s) := Eq.refl s.arb.lastTrain

theorem lastStays_modRtm (f : Rtm → Rtm) (s : State) : LastStays s (modRtm f s) := Eq.refl s.arb.lastTrain

theorem lastStays_idleLinks (s : State) : LastStays s (idleLinks s) :=
  lastStays_of_kept (kept_idleLinks (ps0 := [.ring]) s kept_refl (by decide)) (by decide)

/-- The ring's supply, loop and links at a change of its dimension. -/
def dimMoved (supplied looped : Bool) (s : State) : State :=
  idleLinks (if looped then setPd .ring supplied s
    else modRtm (fun m => { m with loop := none }) (modRing (fun r => { r with looped := false }) (setPd .ring supplied s)))

theorem lastStays_dimMoved (supplied looped : Bool) (s : State) : LastStays s (dimMoved supplied looped s) := by
  have supply : LastStays s (setPd .ring supplied s) := Eq.refl s.arb.lastTrain
  unfold dimMoved
  generalize setPd .ring supplied s = u at supply ⊢
  refine LastStays.trans ?_ (lastStays_idleLinks _)
  split
  · exact supply
  · exact supply.trans ((lastStays_modRing _ u).trans (lastStays_modRtm _ _))

theorem lastStays_moveDim (src : Nat) (d : RingDim) (s : State) : LastStays s (moveDim src d s) := by
  have dim : LastStays s (setDim src d s) := lastStays_transition src 0 3 s.ring.dim.code d.code s
  show LastStays s (dimMoved _ _ (setDim src d s))
  exact dim.trans (lastStays_dimMoved _ _ _)

theorem lastStays_ringEnEffect (s : State) : LastStays s (ringEnEffect s) := by
  have survey (b : Bool) (u : State) : LastStays u (if b then surveyAll u else u) := by
    split
    · exact lastStays_of_kept (kept_surveyAll (ps0 := [.rtm]) u kept_refl (by decide)) (by decide)
    · exact .refl u
  have idle (u : State) : LastStays u (idleLinks u) := lastStays_of_kept (kept_idleLinks (ps0 := [.ring]) u kept_refl (by decide)) (by decide)
  have rings (f : Ring → Ring) (u : State) : LastStays u (modRing f u) := .refl u
  have freight (b : Bool) (u : State) : LastStays u (if b then frtEndAll .cancelled u else u) := by
    split
    · exact lastStays_of_kept (kept_frtEndAll (ps0 := [.mem, .ring, .rtm, .sync, .mbx]) .cancelled u kept_refl (by decide)) (by decide)
    · exact .refl u
  have refused (o : Option (Nat × String)) : LastStays s (match o with
      | some e => { s with arb := { s.arb with reason := BitVec.ofNat 8 e.1, refused := true }, ring := { s.ring with en := ringsOn s } }
      | none => s) := by
    cases o <;> exact rfl
  unfold ringEnEffect
  dsimp only
  exact LastStays.trans (LastStays.trans (LastStays.trans (LastStays.trans (LastStays.trans (refused _) (freight _ _)) (lastStays_moveDim _ _ _)) (rings _ _)) (idle _)) (survey _ _)

theorem lastStays_atBoundaryEffects (s : State) : LastStays s (atBoundaryEffects s) := by
  have disable (u : State) (i : Fin 5) : LastStays u (lsDisableTake i u) :=
    lastStays_of_kept (kept_lsDisableTake (ps0 := [.cores, .solvers, .sync, .mbx, .boot]) i u kept_refl (by decide)) (by decide)
  have ring (b : Bool) : LastStays s (if b then ringEnEffect s else s) := by
    split
    · exact lastStays_ringEnEffect s
    · exact .refl s
  unfold atBoundaryEffects
  dsimp only
  exact (ring _).trans ((disable _ 3).trans (disable _ 4))

theorem lastStays_setRole (r : Role) (s : State) : LastStays s (setRole r s) := (congrArg Arb.lastTrain (rested_setRole r s).arb :)

/-! ## The partner's part of a cycle's start (R211 to R228) -/

/-- The messages of the cycle. -/
def hsbTold (k : Long) (s : State) : State :=
  let s := modSync (fun l => { l with faults := l.faults.filter fun f => 2 * k.toNat ≤ f.1.toNat + 16
                                      resync := if l.resync.state = 2 then { l.resync with progress := inc16 l.resync.progress } else l.resync }) s
  let s := if s.hsb.orig then s else modHsb (fun h => { h with silent := if s.sync.accepted then 0 else inc8 h.silent }) s
  sendState (sendSync 0x01 k (helloBytes (helloBody s)) (modSync (fun l => { l with accepted := false }) s))

/-- A switchover that has been prepared. -/
def hsbPrepared (k : Long) (s : State) : State := match s.sync.prepM with
  | some m =>
    if k + 1 == m then sendSync 0x05 k (leBytes 8 m.toNat) s
    else if k == m && s.sync.prepared then
      let s := modHsb (fun h => { h with reqBusy := false }) (modSync (fun l => { l with prepM := none, prepared := true }) (sendRelinquish m s))
      (waiting .hsb s).foldl (fun s c => finish c .ok 0 (leBytes 4 (hsbReqstat s).toNat) s) s
    else s
  | none => s

/-- A role that has been relinquished. -/
def hsbRelinquished (k : Long) (s : State) : State := match s.sync.relqSent with
  | some m =>
    if !(m.toNat < k.toNat) then s
    else
      let s' := modSync (fun l => { l with relqSent := none, prepared := false }) s
      let gs := partnerChanged s
      if s.sync.prepared && gs ≠ 0 && !inSafe s then
        setRole .standby (modHsb (fun h => { h with orig := false, left := 0, susp := h.susp ||| gs }) s')
      else resyncBegin (stepDown (modSync (fun l => { l with resync := { l.resync with failedAt := none } }) s'))
  | none => s

/-- The lease's count. -/
def hsbCounted (s : State) : Bool × State :=
  if s.hsb.orig then
    if s.hsb.role == .alone then (true, s)
    else if s.hsb.left = 0 then (false, s) else (true, modHsb (fun h => { h with left := h.left - 1 }) s)
  else (false, s)

theorem hsbCycle_alone {s : State} (h : paired s = false) : hsbCycle s = (s.hsb.orig, s) := if_pos (by rw [h]; rfl)

theorem hsbCycle_paired {s : State} (h : paired s = true) :
    hsbCycle s = hsbCounted (hsbRelinquished (pairNo (linkTurn s).cyc.count (linkTurn s)) (hsbPrepared (pairNo (linkTurn s).cyc.count (linkTurn s))
      (hsbTold (pairNo (linkTurn s).cyc.count (linkTurn s)) (linkTurn s)))) := if_neg (by rw [h]; decide)

theorem lastStays_hsbTold (k : Long) (s : State) : LastStays s (hsbTold k s) := by
  have send (u : State) : LastStays u (sendState u) := lastStays_of_kept (kept_sendState (ps0 := [.doms, .sync]) u kept_refl (by decide)) (by decide)
  have hello (n : Long) (bs : List Byte) (u : State) : LastStays u (sendSync 0x01 n bs u) := lastStays_of_kept (kept_sendSync (ps0 := [.sync]) _ n bs u kept_refl (by decide)) (by decide)
  unfold hsbTold
  dsimp only
  refine LastStays.trans ?_ (send _)
  refine LastStays.trans ?_ (hello _ _ _)
  split <;> exact rfl

theorem lastStays_hsbPrepared (k : Long) (s : State) : LastStays s (hsbPrepared k s) := by
  have fin : ∀ (cs : List CmdRef) (u : State), LastStays u (cs.foldl (fun s c => finish c .ok 0 (leBytes 4 (hsbReqstat s).toNat) s) u) := fun cs => by
    induction cs with
    | nil => exact fun u => .refl u
    | cons c cs ih => exact fun u => (lastStays_of_kept (finish_only c .ok 0 _ u) (by decide)).trans (ih _)
  unfold hsbPrepared
  split
  · next m _ =>
    have sent : LastStays s (sendRelinquish m s) := lastStays_of_kept (kept_sendRelinquish (ps0 := [.sync]) m s kept_refl (by decide)) (by decide)
    generalize sendRelinquish m s = u at sent ⊢
    split
    · exact lastStays_of_kept (kept_sendSync (ps0 := [.sync]) _ _ _ s kept_refl (by decide)) (by decide)
    · split
      · exact ((sent.trans (lastStays_modSync _ u)).trans (lastStays_modHsb _ _)).trans (fin _ _)
      · exact .refl s
  · exact .refl s

theorem lastStays_hsbRelinquished (k : Long) (s : State) : LastStays s (hsbRelinquished k s) := by
  have begin_ (u : State) : LastStays u (resyncBegin u) := lastStays_of_kept (kept_resyncBegin (ps0 := [.hsb, .sync, .freeCtr]) u kept_refl (by decide)) (by decide)
  have down (u : State) : LastStays u (stepDown u) :=
    ((lastStays_setRole .syncing u).trans (lastStays_modHsb _ _)).trans (lastStays_modSync _ _)
  unfold hsbRelinquished
  split
  · split
    · exact .refl s
    · dsimp only
      split
      · exact ((lastStays_modSync _ s).trans (lastStays_modHsb _ _)).trans (lastStays_setRole _ _)
      · exact (((lastStays_modSync _ s).trans (lastStays_modSync _ _)).trans (down _)).trans (begin_ _)
  · exact .refl s

theorem lastStays_hsbCycle (s : State) : LastStays s (hsbCycle s).2 := by
  cases h : paired s with
  | false =>
    rw [hsbCycle_alone h]
    exact .refl s
  | true =>
    have link : LastStays s (linkTurn s) := lastStays_of_kept (kept_linkTurn (ps0 := [.hsb, .sync]) s kept_refl (by decide)) (by decide)
    have counted (u : State) : LastStays u (hsbCounted u).2 := by
      unfold hsbCounted
      split_ifs <;> exact rfl
    rw [hsbCycle_paired h]
    exact ((link.trans (lastStays_hsbTold _ _)).trans (lastStays_hsbPrepared _ _)).trans ((lastStays_hsbRelinquished _ _).trans (counted _))

/-! ## CYCLE_START (R31, R39) -/

/-- The cycle has been counted, and what is counted with it. -/
def cycleCounted (s : State) : State := changeCount (reintCount (ringTimeFix (cycleTurn (atBoundaryEffects s))))

/-- The cycle's start, before a last train is left behind. -/
def cycleBegun (s : State) : State :=
  let z := hsbCycle (cycleCounted s)
  let s := allGroups.foldl (fun s g => groupAtTk g s) (trainAt z.1 z.2)
  let s : State := { s with arb := { s.arb with safeTrain := false } }
  allFg.foldl (fun s g => fieldAtTk g s.cyc.tk s) s

theorem cycleStart_run {s : State} (h : tkDue s = true) : exec .cycleStart s = .next (lastTrainLeft (cycleBegun s)) :=
  congrArg Host.Outcome.next (if_neg (by rw [h]; decide))

theorem kept_cycleCounted (s : State) : Kept [.voter, .doms, .rtm] (cycleTurn (atBoundaryEffects s)) (cycleCounted s) :=
  kept_changeCount _ (kept_reintCount _ (kept_ringTimeFix _ kept_refl (by decide)) (by decide)) (by decide)

theorem kept_cycleBegun (s : State) :
    Kept [.doms, .mem, .memRegs, .memErrs, .voter, .ring, .rtm, .hsb, .sync, .fg, .mbx, .arb, .log, .freeCtr] (cycleCounted s) (cycleBegun s) := by
  have train : Kept [.doms, .mem, .memRegs, .memErrs, .voter, .ring, .rtm, .hsb, .sync, .fg, .mbx, .arb, .log, .freeCtr] (cycleCounted s)
      (trainAt (hsbCycle (cycleCounted s)).1 (hsbCycle (cycleCounted s)).2) := kept_trainAt _ _ (kept_hsbCycle _ kept_refl (by decide)) (by decide)
  exact kept_foldl (kept_upd_arb (kept_foldl train fun _ _ k => kept_groupAtTk _ _ k (by decide)) (by decide)) fun _ _ k => kept_fieldAtTk _ _ _ k (by decide)

theorem nextTk_congr {s t : State} (h : t.cyc = s.cyc) : nextTk t = nextTk s := by
  unfold nextTk periodTicks
  rw [h]

/-- The counts and instants of the cycle that has begun. -/
theorem cycleBegun_cyc (s : State) : ∃ lastRt, (cycleBegun s).cyc =
    { s.cyc with lastRt := lastRt, count := s.cyc.count + 1, tk := nextTk s, ir := none, irForced := false, dl := false, t0 := none } := by
  have effects : (atBoundaryEffects s).cyc = s.cyc :=
    (kept_atBoundaryEffects (ps0 := [.cores, .mem, .solvers, .ring, .rtm, .sync, .mbx, .boot, .arb]) s kept_refl (by decide)).only .cyc (by decide)
  have rings : (evalRings (atBoundaryEffects s)).cyc = s.cyc := ((kept_evalRings (ps0 := [.ring, .rtm]) _ kept_refl (by decide)).only .cyc (by decide)).trans effects
  rw [(kept_cycleBegun s).only .cyc (by decide), (kept_cycleCounted s).only .cyc (by decide)]
  let u := modRing (fun r => { r with lastTrain := r.train.map (·.cyc), relayed := [] }) (evalRings (atBoundaryEffects s))
  have hu : u.cyc = s.cyc := rings
  refine ⟨returnTime u, ?_⟩
  show { u.cyc with lastRt := returnTime u, count := u.cyc.count + 1, tk := nextTk u, ir := none, irForced := false, dl := false, t0 := none } = _
  rw [nextTk_congr hu, hu]

theorem lastStays_cycleBegun (s : State) : LastStays s (cycleBegun s) := by
  have turn : LastStays (atBoundaryEffects s) (cycleTurn (atBoundaryEffects s)) := lastStays_of_kept (kept_cycleTurn (ps0 := [.cyc, .ring, .rtm]) _ kept_refl (by decide)) (by decide)
  have counted : LastStays s (cycleCounted s) := ((lastStays_atBoundaryEffects s).trans turn).trans (lastStays_of_kept (kept_cycleCounted s) (by decide))
  have train (b : Bool) (u : State) : LastStays u (trainAt b u) :=
    lastStays_of_kept (kept_trainAt (ps0 := [.doms, .mem, .memRegs, .memErrs, .ring, .rtm, .sync, .mbx]) b u kept_refl (by decide)) (by decide)
  have groups (u : State) : LastStays u (allGroups.foldl (fun s g => groupAtTk g s) u) :=
    lastStays_of_kept (kept_foldl (ps := [.voter]) kept_refl fun _ _ k => kept_groupAtTk _ _ k (by decide)) (by decide)
  have field (u : State) : LastStays u (allFg.foldl (fun s g => fieldAtTk g s.cyc.tk s) u) :=
    lastStays_of_kept (kept_foldl (ps := [.fg]) kept_refl fun _ _ k => kept_fieldAtTk _ _ _ k (by decide)) (by decide)
  have safe (u : State) : LastStays u { u with arb := { u.arb with safeTrain := false } } := .refl u
  unfold cycleBegun
  generalize cycleCounted s = u at counted ⊢
  have begun : LastStays s (hsbCycle u).2 := counted.trans (lastStays_hsbCycle u)
  generalize hsbCycle u = z at begun ⊢
  dsimp only
  exact ((begun.trans (train z.1 z.2)).trans (groups _)).trans ((safe _).trans (field _))

theorem cycleStart_row {s : State} (h : tkDue s = true) :
    Gives .cycleStart s [.cyc, .cores, .doms, .mem, .memRegs, .memErrs, .voter, .solvers, .ring, .rtm, .hsb, .sync, .fg, .mbx, .boot, .arb, .log, .freeCtr] fun t =>
      t.cyc.count = s.cyc.count + 1 ∧ t.cyc.tk = nextTk s ∧ t.cyc.ir = none ∧ t.cyc.irForced = false ∧ t.cyc.dl = false ∧ t.cyc.running = !s.arb.lastTrain := by
  have running : s.cyc.running = true := (Bool.and_eq_true_iff.1 (Bool.and_eq_true_iff.1 h).1).1
  obtain ⟨lastRt, cyc⟩ := cycleBegun_cyc s
  have last : (cycleBegun s).arb.lastTrain = s.arb.lastTrain := lastStays_cycleBegun s
  refine gives_of_leaves (leaves_cycleStart s) (cycleStart_run h) ?_
  generalize cycleBegun s = t at cyc last ⊢
  unfold lastTrainLeft
  cases hl : s.arb.lastTrain with
  | true =>
    rw [if_pos (last.trans hl)]
    show ({ t.cyc with running := false } : Cyc).count = _ ∧ _
    dsimp only
    rw [cyc]
    exact ⟨rfl, rfl, rfl, rfl, rfl, rfl⟩
  | false =>
    rw [if_neg (by rw [last, hl]; decide), cyc]
    exact ⟨rfl, rfl, rfl, rfl, rfl, running⟩

/-! ## INPUT_READY and RETURN_LIMIT (R37) -/

/-- What input ready judges. -/
def inputsJudged (s : State) : State :=
  let s := hsbIntact (steer (evalRanks (evalFreight (evalStations s))))
  let s := if s.cyc.running then s else evalRings s
  let s := match s.ring.train with | some t => compareAll t s | none => s
  allGroups.foldl (fun s g => if s.doms[groupDom g].run then latchLanes g s else s) s

theorem inputsReady_eq (t : Long) (forced : Bool) (s : State) : inputsReady t forced s =
    inputsJudged { s with cyc := { s.cyc with ir := some t, irForced := forced, err := if forced then Sys2Proof.Machine.setBit s.cyc.err 2 true else s.cyc.err } } := rfl

theorem inputsJudged_cyc (s : State) : (inputsJudged s).cyc = s.cyc := by
  have kept : Kept [.cores, .doms, .mem, .voter, .solvers, .ring, .rtm, .hsb, .sync, .mbx, .freeCtr] s (inputsJudged s) := by
    have judged : Kept [.cores, .doms, .mem, .voter, .solvers, .ring, .rtm, .hsb, .sync, .mbx, .freeCtr] s (hsbIntact (steer (evalRanks (evalFreight (evalStations s))))) :=
      kept_hsbIntact _ (kept_steer _ (kept_evalRanks _ (kept_evalFreight _ (kept_evalStations _ kept_refl (by decide)) (by decide)) (by decide)) (by decide)) (by decide)
    unfold inputsJudged
    dsimp only
    generalize hsbIntact (steer (evalRanks (evalFreight (evalStations s)))) = u at judged ⊢
    have rings (b : Bool) : Kept [.cores, .doms, .mem, .voter, .solvers, .ring, .rtm, .hsb, .sync, .mbx, .freeCtr] s (if b then u else evalRings u) := by
      split
      · exact judged
      · exact kept_evalRings _ judged (by decide)
    refine kept_foldl ?_ fun v g k => ?_
    · split
      · exact kept_compareAll _ _ (rings _) (by decide)
      · exact rings _
    · split
      · exact kept_latchLanes _ _ k (by decide)
      · exact k
  exact kept.only .cyc (by decide)

theorem inputReady_run {s : State} {t : Long} (ready : readyAt s = some t) (awaited : irAwaited s = true) (come : t.toNat ≤ s.cyc.tb.toNat) :
    exec .inputReady s = .next (inputsReady t false s) := by
  show execInputReady s = _
  unfold execInputReady
  rw [ready]
  exact congrArg Host.Outcome.next (if_pos (by rw [awaited, decide_eq_true come]; rfl))

theorem inputReady_row {s : State} {t : Long} (ready : readyAt s = some t) (awaited : irAwaited s = true) (come : t.toNat ≤ s.cyc.tb.toNat) :
    Gives .inputReady s [.cyc, .cores, .doms, .mem, .voter, .solvers, .ring, .rtm, .hsb, .sync, .mbx, .freeCtr] fun u => u.cyc = { s.cyc with ir := some t, irForced := false } :=
  gives_of_leaves (leaves_inputReady s) (inputReady_run ready awaited come) (by rw [inputsReady_eq, inputsJudged_cyc]; rfl)

theorem readyAt_floor {s : State} (h : nothingAwaited s = true) : readyAt s = some (s.cyc.tk + 2500) := if_pos h

/-- With a train in flight the last coach decides, within the return limit. -/
theorem readyAt_train {s : State} {x : Train} {v : Long} (on : s.ring.dim ≠ .off) (hx : s.ring.train = some x) (hv : x.validAt = some v)
    (limit : (if v.toNat < (s.cyc.tk + 2500).toNat then s.cyc.tk + 2500 else v).toNat ≤ (returnLimit s).toNat) :
    readyAt s = some (if v.toNat < (s.cyc.tk + 2500).toNat then s.cyc.tk + 2500 else v) := by
  have awaited : ¬ nothingAwaited s = true := by
    unfold nothingAwaited
    rw [beq_false_of_ne on, hx]
    simp
  unfold readyAt
  dsimp only
  rw [if_neg awaited, hx, Option.bind_some, hv, Option.map_some]
  exact Option.filter_some_pos (decide_eq_true limit)

theorem returnLimit_row {s : State} (awaited : irAwaited s = true) (late : readyAt s = none) (come : (returnLimit s).toNat ≤ s.cyc.tb.toNat) :
    Gives .returnLimit s [.cyc, .cores, .doms, .mem, .voter, .solvers, .ring, .rtm, .hsb, .sync, .mbx, .freeCtr] fun t =>
      t.cyc = { s.cyc with ir := some (returnLimit s), irForced := true, err := Sys2Proof.Machine.setBit s.cyc.err 2 true } := by
  have hrun : exec .returnLimit s = .next (inputsReady (returnLimit s) true s) :=
    congrArg Host.Outcome.next (if_pos (by rw [awaited, late, decide_eq_true come]; rfl))
  exact gives_of_leaves (leaves_returnLimit s) hrun (by rw [inputsReady_eq, inputsJudged_cyc]; rfl)

end Sys2Proof.Proofs
end

section
/-! SUPPORT. The release of a pair, and pending sources across a switch (R39, R44 to R51). -/

namespace Sys2Proof.Proofs
open Sys2Proof.Machine Sys2Proof.Safety Sys2Proof.Laws
set_option Elab.async false

/-! ## Pending interrupts across a switch of tasks (R295, R296) -/

/-- No core's pending sources have changed. -/
def PendStays (s t : State) : Prop := ∀ c : CoreId, t.cores[c].arch.ipend = s.cores[c].arch.ipend

theorem PendStays.refl (s : State) : PendStays s s := fun _ => rfl
theorem PendStays.trans {s t u : State} (h : PendStays s t) (k : PendStays t u) : PendStays s u := fun c => (k c).trans (h c)

theorem pendStays_of_cores {s t : State} (h : t.cores = s.cores) : PendStays s t := fun c => by rw [h]

theorem pendStays_modCore (c : CoreId) {f : Core → Core} (h : ∀ k, (f k).arch.ipend = k.arch.ipend) (s : State) : PendStays s (modCore c f s) := fun e => by
  by_cases hc : e = c
  · subst hc
    rw [modCore_same]
    exact h _
  · rw [modCore_other hc]

theorem pendStays_modArch (c : CoreId) {f : Arch → Arch} (h : ∀ a, (f a).ipend = a.ipend) (s : State) : PendStays s (modArch c f s) :=
  pendStays_modCore c (fun k => h k.arch) s

theorem enterTask_ipend (ctx : Option TaskCtx) (t : TaskDecl) (a : Arch) : (enterTask ctx t a).ipend = a.ipend := by
  unfold enterTask
  cases ctx <;> rfl

theorem pendStays_schedule (c : CoreId) (s : State) : PendStays s (schedule c s) := by
  unfold schedule
  dsimp only
  split
  · exact .refl s
  · split
    · refine PendStays.trans (pendStays_modCore c ?_ s) (pendStays_modArch c ?_ _)
      · exact fun _ => rfl
      · exact fun _ => rfl
    · split
      · exact .refl s
      · refine PendStays.trans (pendStays_modCore c ?_ s) (pendStays_modArch c ?_ _)
        · exact fun _ => rfl
        · exact enterTask_ipend _ _

theorem laneOf_pairCore (n : Fin 4) : laneOf (pairCore n) = none := by
  revert n
  decide

theorem runtimeTurn_pair (n : Fin 4) (s : State) : runtimeTurn (pairCore n) s = schedule (pairCore n) (modCore (pairCore n) (fun k => { k with resched := false }) s) := by
  unfold runtimeTurn
  dsimp only
  rw [laneOf_pairCore]

theorem pendStays_scheduleSoon (n : Fin 4) (s : State) : PendStays s (scheduleSoon (pairCore n) s) := by
  have marked : PendStays s (modCore (pairCore n) (fun k => { k with resched := true }) s) := by
    refine pendStays_modCore _ ?_ s
    exact fun _ => rfl
  unfold scheduleSoon
  dsimp only
  split
  · rw [runtimeTurn_pair]
    refine (marked.trans (pendStays_modCore _ ?_ _)).trans (pendStays_schedule _ _)
    exact fun _ => rfl
  · exact marked

/-! ## The release of one task (R45, R46) -/

/-- A domain but for its tasks and marks. -/
def apart (x : Dom) : Dom := { shown x with tasks := .replicate 16 { open_ := 0, primed := false, relCycle := 0, deadline := 0, merged := 0, skipped := 0 } }

/-- What releasing one task of a domain does, from the state that the releases of the tasks before it left. -/
def releaseStep (d : DomId) (im : Image) (count : Nat) (s : State) (x : Nat × TaskDecl × BitVec 3) : State :=
  let old := ((s.doms[d].tasks.toList[x.1]?).map (·.open_)).getD 0
  let fresh := x.2.2 &&& ~~~old
  modDom d (fun y => { y with tasks := y.tasks.mapIdx fun i t => if i = x.1 then releaseTask x.2.1 count x.2.2 t else t })
    (primeTask d im x.1 x.2.1 fresh (privateCopy d im x.2.1 fresh (clearPartition d im x.1 fresh s)))

theorem seen_privateCopy (d : DomId) (im : Image) (t : TaskDecl) (ls : BitVec 3) (s : State) : Seen s (privateCopy d im t ls s) := by
  unfold privateCopy
  split
  · split
    · exact seen_foldl (fun s c => seen_foldl (fun s r => seen_store none c _ _ s) _ s) _ s
    · exact .refl s
  · exact .refl s

theorem seen_primeTask (d : DomId) (im : Image) (i : Nat) (t : TaskDecl) (ls : BitVec 3) (s : State) : Seen s (primeTask d im i t ls s) := by
  unfold primeTask
  split
  · split
    · exact .refl s
    · exact seen_foldl (fun s c => seen_foldl (fun s e => seen_store none c _ _ s) _ s) _ s
  · exact .refl s

theorem seen_clearPartition (d : DomId) (im : Image) (i : Nat) (ls : BitVec 3) (s : State) : Seen s (clearPartition d im i ls s) :=
  seen_of_kept (kept_clearPartition (ps0 := [.solvers]) d im i ls s kept_refl (by decide)) (by decide) (by decide)

theorem seen_primeTimers (d : DomId) (im : Image) (s : State) : Seen s (primeTimers d im s) := seen_foldl (fun s _ => seen_domWrite d _ _ s) _ s

theorem seen_primeEdges (d : DomId) (im : Image) (s : State) : Seen s (primeEdges d im s) := seen_foldl (fun s c => seen_store none c _ _ s) _ s

theorem seen_latchInputs (d : DomId) (s : State) : Seen s (latchInputs d s) := by
  unfold latchInputs
  split
  · exact .refl s
  · exact seen_foldl (fun s _ => seen_domWrite d _ _ s) _ s

theorem tasks_of_shown {x y : Dom} (h : shown x = shown y) : x.tasks = y.tasks := (congrArg Dom.tasks h :)

theorem releaseStep_dom (d : DomId) (im : Image) (count : Nat) (s : State) (x : Nat × TaskDecl × BitVec 3) :
    apart (releaseStep d im count s x).doms[d] = apart s.doms[d] ∧
      (releaseStep d im count s x).doms[d].tasks = s.doms[d].tasks.mapIdx fun i t => if i = x.1 then releaseTask x.2.1 count x.2.2 t else t := by
  unfold releaseStep
  dsimp only
  generalize x.2.2 &&& ~~~((s.doms[d].tasks.toList[x.1]?).map (·.open_)).getD 0 = fresh
  have seen : Seen s (primeTask d im x.1 x.2.1 fresh (privateCopy d im x.2.1 fresh (clearPartition d im x.1 fresh s))) :=
    ((seen_clearPartition d im x.1 fresh s).trans (seen_privateCopy d im x.2.1 fresh _)).trans (seen_primeTask d im x.1 x.2.1 fresh _)
  generalize primeTask d im x.1 x.2.1 fresh (privateCopy d im x.2.1 fresh (clearPartition d im x.1 fresh s)) = u at seen ⊢
  have same : shown u.doms[d] = shown s.doms[d] := seen.doms d
  rw [modDom_same]
  refine ⟨?_, ?_⟩
  · exact (congrArg (fun y : Dom => apart y) same :)
  · dsimp only
    rw [tasks_of_shown same]

/-- Another task's release leaves a task. -/
theorem releaseStep_other {d : DomId} {im : Image} {count : Nat} {s : State} {x : Nat × TaskDecl × BitVec 3} {i : Fin 16} (h : x.1 ≠ i.val) :
    (releaseStep d im count s x).doms[d].tasks[i] = s.doms[d].tasks[i] := by
  rw [(releaseStep_dom d im count s x).2]
  simp [Ne.symm h]

/-- A task's own release. -/
theorem releaseStep_same {d : DomId} {im : Image} {count : Nat} {s : State} {x : Nat × TaskDecl × BitVec 3} {i : Fin 16} (h : x.1 = i.val) :
    (releaseStep d im count s x).doms[d].tasks[i] = releaseTask x.2.1 count x.2.2 s.doms[d].tasks[i] := by
  rw [(releaseStep_dom d im count s x).2]
  simp [h]

theorem releaseSteps_apart (d : DomId) (im : Image) (count : Nat) (xs : List (Nat × TaskDecl × BitVec 3)) (s : State) :
    apart (xs.foldl (releaseStep d im count) s).doms[d] = apart s.doms[d] := by
  induction xs generalizing s with
  | nil => rfl
  | cons x xs ih => exact (ih _).trans (releaseStep_dom d im count s x).1

theorem releaseTask_plain {t : TaskDecl} (h : t.isEvent = false) (count : Nat) (due : BitVec 3) (x : TaskSt) : releaseTask t count due x =
    if due &&& ~~~x.open_ = 0 then x else { x with open_ := x.open_ ||| due, primed := true, relCycle := count, deadline := taskDeadline t count } := by
  unfold releaseTask
  dsimp only
  rw [h]
  rfl

/-- A released task is not released again in the same cycle. -/
theorem releaseTask_again {t : TaskDecl} (h : t.isEvent = false) (count : Nat) (due : BitVec 3) (x : TaskSt) :
    releaseTask t count due (releaseTask t count due x) = releaseTask t count due x := by
  by_cases open_ : due &&& ~~~x.open_ = 0
  · rw [releaseTask_plain h count due x, if_pos open_, releaseTask_plain h, if_pos open_]
  · have all : due &&& ~~~(x.open_ ||| due) = 0 := by
      ext j hj
      simp
      tauto
    rw [releaseTask_plain h count due x, if_neg open_, releaseTask_plain h]
    exact if_pos all

/-- Among the releases of a domain's tasks, a task that is no event is released once. -/
theorem releaseSteps_task {d : DomId} {im : Image} {count : Nat} {i : Fin 16} {t : TaskDecl} {due : BitVec 3} (ht : t.isEvent = false) :
    ∀ {xs : List (Nat × TaskDecl × BitVec 3)} (s : State), (∀ x ∈ xs, x.1 = i.val → x = (i.val, t, due)) →
      (xs.foldl (releaseStep d im count) s).doms[d].tasks[i] =
        if (i.val, t, due) ∈ xs then releaseTask t count due s.doms[d].tasks[i] else s.doms[d].tasks[i]
  | [], _, _ => rfl
  | x :: xs, s, h => by
    have rest := releaseSteps_task (d := d) (im := im) (count := count) ht (xs := xs) (releaseStep d im count s x) fun y hy => h y (List.mem_cons_of_mem _ hy)
    rw [List.foldl_cons, rest]
    by_cases hx : x.1 = i.val
    · have own := h x List.mem_cons_self hx
      subst own
      rw [releaseStep_same rfl, releaseTask_again ht, ite_self, if_pos List.mem_cons_self]
    · have apart : (i.val, t, due) ≠ x := fun e => hx (by rw [← e])
      rw [releaseStep_other hx]
      simp [apart]

theorem cyclic_released {t : TaskDecl} {m off count : Nat} {x : TaskSt} (kind : t.kind = .cyclic m off) (idle : x.active = false) :
    (releaseTask t count 1 x).active = true ∧ (releaseTask t count 1 x).deadline = count + m - 1 := by
  have none_open : x.open_ = 0 := by simpa [TaskSt.active] using idle
  have noEvent : t.isEvent = false := by rw [TaskDecl.isEvent, kind]
  simp [releaseTask, TaskSt.active, noEvent, none_open, taskDeadline, kind]

/-! ## The release of a pair (R39, R44 to R51) -/

theorem mem_enum {α : Type} {xs : List α} {i : Nat} {x : α} : (i, x) ∈ enum xs ↔ xs[i]? = some x := by
  unfold enum
  constructor
  · intro h
    obtain ⟨k, hk, e⟩ := List.mem_iff_getElem.1 h
    rw [List.getElem_zip, List.getElem_range] at e
    obtain ⟨rfl, rfl⟩ := Prod.mk.inj e
    exact List.getElem?_eq_getElem _
  · intro h
    obtain ⟨hi, rfl⟩ := List.getElem?_eq_some_iff.1 h
    refine List.mem_iff_getElem.2 ⟨i, by simpa using hi, ?_⟩
    rw [List.getElem_zip, List.getElem_range]

/-- A domain's tasks of an image with the lanes in which each is due. -/
def duesOf (d : DomId) (im : Image) (count : Nat) (s : State) : List (Nat × TaskDecl × BitVec 3) :=
  (enum im.tasks).map fun x => (x.1, x.2, taskDue s.doms[d] x.2 (domLanes d s) (fun l => readBytes (domLaneMem d l) im.areas.iBase im.areas.iLen s) count)

/-- The input images that a release keeps for the edges of the next one. -/
def prevOf (d : DomId) (im : Image) (s : State) : Vector (List Byte) 3 :=
  let cur (l : Fin 3) : List Byte := readBytes (domLaneMem d l) im.areas.iBase im.areas.iLen s
  if d.val < 4 then #v[cur 0, [], []] else #v[cur 0, cur 1, cur 2]

/-- The status block as a release writes it. -/
def blockWritten (d : DomId) (im : Image) (s : State) : State := domWrite d im.areas.iBase (statusBlock d s) s

/-- At a domain's first release its timers and edges are primed. -/
def firstPrimed (d : DomId) (im : Image) (s : State) : State := if s.doms[d].first then primeTimers d im (primeEdges d im s) else s

/-- A released domain's marks beside its tasks. -/
def releaseMark (prev : Vector (List Byte) 3) (count : Long) (y : Dom) : Dom :=
  { y with first := false, prevIn := prev, skippedRun := 0, repeated := false, relAt := some count }

/-- What a release leaves in its domain beside the tasks. -/
def releaseNoted (d : DomId) (prev : Vector (List Byte) 3) (s : State) : State := modDom d (releaseMark prev s.cyc.count) s

/-- The RELEASE source, and a group's own note of the release. -/
def releaseRaised (d : DomId) (s : State) : State := match domGroup d with
  | some g => raiseGroup g 0 (modGroup g (fun v => { v with relAt := some s.cyc.count }) s)
  | none => (domCores d).foldl (fun s c => raiseIrq c 0 s) s

/-- The releases of all tasks of a domain. -/
def tasksReleased (d : DomId) (im : Image) (s : State) : State :=
  (duesOf d im s.cyc.count.toNat (blockWritten d im s)).foldl (releaseStep d im s.cyc.count.toNat) (firstPrimed d im (blockWritten d im s))

theorem releaseDomain_eq {d : DomId} {im : Image} {s : State} (him : s.doms[d].image = some im) :
    releaseDomain d s = releaseRaised d (releaseNoted d (prevOf d im (blockWritten d im s)) (tasksReleased d im s)) := by
  unfold releaseDomain
  rw [him]
  rfl

theorem seen_blockWritten (d : DomId) (im : Image) (s : State) : Seen s (blockWritten d im s) := seen_domWrite d _ _ s

theorem seen_firstPrimed (d : DomId) (im : Image) (s : State) : Seen s (firstPrimed d im s) := by
  unfold firstPrimed
  split
  · exact (seen_primeEdges d im s).trans (seen_primeTimers d im _)
  · exact .refl s

theorem seen_releaseBegun (d : DomId) (im : Image) (s : State) : Seen s (firstPrimed d im (blockWritten d im s)) :=
  (seen_blockWritten d im s).trans (seen_firstPrimed d im _)

theorem apart_of_shown {x y : Dom} (h : shown x = shown y) : apart x = apart y := (congrArg (fun z : Dom => apart z) h :)

theorem tasksReleased_apart (d : DomId) (im : Image) (s : State) : apart (tasksReleased d im s).doms[d] = apart s.doms[d] :=
  (releaseSteps_apart d im _ _ _).trans (apart_of_shown ((seen_releaseBegun d im s).doms d))

theorem releaseRaised_pair (n : Fin 4) (s : State) : releaseRaised (pairDom n) s = raiseIrq (pairCore n) 0 s := by
  unfold releaseRaised domCores
  rw [domGroup_pairDom, domPair_pairDom]
  rfl

theorem releaseDomain_pair {n : Fin 4} {im : Image} {s : State} (him : s.doms[pairDom n].image = some im) :
    releaseDomain (pairDom n) s = raiseIrq (pairCore n) 0 (releaseNoted (pairDom n) (prevOf (pairDom n) im (blockWritten (pairDom n) im s)) (tasksReleased (pairDom n) im s)) := by
  rw [releaseDomain_eq him, releaseRaised_pair]

/-- A cyclic task that is due and not active is released with its deadline. -/
theorem tasksReleased_cyclic {n : Fin 4} {im : Image} {s : State} {i : Fin 16} {x : TaskDecl} {m off : Nat} (hx : im.tasks[i.val]? = some x) (kind : x.kind = .cyclic m off)
    (due : s.cyc.count.toNat % m = off) (idle : s.doms[pairDom n].tasks[i].active = false) :
    (tasksReleased (pairDom n) im s).doms[pairDom n].tasks[i].active = true ∧
      (tasksReleased (pairDom n) im s).doms[pairDom n].tasks[i].deadline = s.cyc.count.toNat + m - 1 := by
  have noEvent : x.isEvent = false := by rw [TaskDecl.isEvent, kind]
  have entry (y : Dom) (cur : Fin 3 → List Byte) : taskDue y x 1 cur s.cyc.count.toNat = 1 := by
    unfold taskDue
    rw [kind]
    exact if_pos (beq_iff_eq.2 due)
  have lanes (u : State) : domLanes (pairDom n) u = 1 := by
    unfold domLanes
    rw [domGroup_pairDom]
  have listed : (i.val, x, (1 : BitVec 3)) ∈ duesOf (pairDom n) im s.cyc.count.toNat (blockWritten (pairDom n) im s) :=
    List.mem_map.2 ⟨(i.val, x), mem_enum.2 hx, by rw [lanes, entry]⟩
  have only : ∀ y ∈ duesOf (pairDom n) im s.cyc.count.toNat (blockWritten (pairDom n) im s), y.1 = i.val → y = (i.val, x, 1) := fun y hy hi => by
    obtain ⟨⟨k, z⟩, hz, rfl⟩ := List.mem_map.1 hy
    obtain rfl : k = i.val := hi
    obtain rfl : z = x := Option.some.inj ((mem_enum.1 hz).symm.trans hx)
    rw [lanes, entry]
  have begun : (firstPrimed (pairDom n) im (blockWritten (pairDom n) im s)).doms[pairDom n].tasks = s.doms[pairDom n].tasks :=
    tasks_of_shown ((seen_releaseBegun (pairDom n) im s).doms _)
  have done : (tasksReleased (pairDom n) im s).doms[pairDom n].tasks[i] = releaseTask x s.cyc.count.toNat 1 s.doms[pairDom n].tasks[i] := by
    unfold tasksReleased
    rw [releaseSteps_task noEvent _ only, if_pos listed, begun]
  rw [done]
  exact cyclic_released kind idle

/-- What a pair's release leaves in its domain. -/
theorem releaseDomain_dom {n : Fin 4} {im : Image} {s : State} (him : s.doms[pairDom n].image = some im) :
    (releaseDomain (pairDom n) s).doms[pairDom n] =
      releaseMark (prevOf (pairDom n) im (blockWritten (pairDom n) im s)) (tasksReleased (pairDom n) im s).cyc.count (tasksReleased (pairDom n) im s).doms[pairDom n] := by
  rw [releaseDomain_pair him]
  exact modDom_same (pairDom n) _ (tasksReleased (pairDom n) im s)

theorem releaseDomain_raised {n : Fin 4} {im : Image} {s : State} (him : s.doms[pairDom n].image = some im) :
    (releaseDomain (pairDom n) s).cores[pairCore n].arch.ipend.getLsbD 0 = true := by
  rw [releaseDomain_pair him]
  exact raiseIrq_pending _ 0 _ (by decide)

/-- What a skipped cycle notes in a domain. -/
def skipNoted (d : DomId) (im : Image) (s : State) : State :=
  modDom d (fun y => { y with skipNext := false, skippedRun := y.skippedRun + 1, relAt := some s.cyc.count, tasks := y.tasks.mapIdx fun i t =>
    match im.tasks[i]? with
    | some decl => if !decl.isBg && !decl.isEvent && taskDue y decl 1 (fun _ => []) s.cyc.count.toNat != 0 then { t with skipped := inc t.skipped } else t
    | none => t }) s

theorem skipCycle_pair {n : Fin 4} {im : Image} {s : State} (him : s.doms[pairDom n].image = some im) :
    skipCycle (pairDom n) s = raiseIrq (pairCore n) 0 (skipNoted (pairDom n) im s) := by
  unfold skipCycle domCores
  rw [him, domPair_pairDom]
  rfl

theorem skipCycle_dom {n : Fin 4} {im : Image} {s : State} (him : s.doms[pairDom n].image = some im) :
    (skipCycle (pairDom n) s).doms[pairDom n].skipNext = false ∧ (skipCycle (pairDom n) s).doms[pairDom n].skippedRun = s.doms[pairDom n].skippedRun + 1 := by
  have same : (skipCycle (pairDom n) s).doms[pairDom n] = (skipNoted (pairDom n) im s).doms[pairDom n] := by
    rw [skipCycle_pair him]
    rfl
  rw [same, skipNoted, modDom_same]
  exact ⟨rfl, rfl⟩

theorem skipCycle_raised {n : Fin 4} {im : Image} {s : State} (him : s.doms[pairDom n].image = some im) : (skipCycle (pairDom n) s).cores[pairCore n].arch.ipend.getLsbD 0 = true := by
  rw [skipCycle_pair him]
  exact raiseIrq_pending _ 0 _ (by decide)

/-- The release or the skip of a pair, before its core switches. -/
def pairReleased (n : Fin 4) (s : State) : State := if s.doms[pairDom n].skipNext then skipCycle (pairDom n) s else releaseDomain (pairDom n) (latchInputs (pairDom n) s)

theorem taskRelease_run {n : Fin 4} {s : State} (h : pairReleaseDue n s = true) :
    exec (.taskRelease n) s = .next (scheduleSoon (pairCore n) (runtimeService (pairDom n) (pairReleased n s))) :=
  congrArg Host.Outcome.next (if_neg (by rw [h]; decide))

/-- The watchdog's service and the switch leave the domains, and what is pending stays so. -/
theorem released_switched (n : Fin 4) (u : State) : (scheduleSoon (pairCore n) (runtimeService (pairDom n) u)).doms = u.doms ∧
    PendStays u (scheduleSoon (pairCore n) (runtimeService (pairDom n) u)) := by
  have served : Kept [.wdg] u (runtimeService (pairDom n) u) := kept_runtimeService (ps0 := [.wdg]) _ u kept_refl (by decide)
  have switched : Kept [.cores, .voter] (runtimeService (pairDom n) u) (scheduleSoon (pairCore n) (runtimeService (pairDom n) u)) :=
    kept_scheduleSoon (ps0 := [.cores, .voter]) _ _ kept_refl (by decide)
  exact ⟨(switched.only .doms (by decide)).trans (served.only .doms (by decide)),
    (pendStays_of_cores (served.only .cores (by decide))).trans (pendStays_scheduleSoon n _)⟩

theorem taskRelease_row {n : Fin 4} {s : State} {im : Image} (him : s.doms[pairDom n].image = some im) (due : pairReleaseDue n s = true) :
    Gives (.taskRelease n) s [.cores, .doms, .mem, .voter, .solvers, .wdg, .freeCtr] fun t =>
      t.cores[pairCore n].arch.ipend.getLsbD 0 = true ∧ t.doms[pairDom n].skipNext = false ∧
      (s.doms[pairDom n].skipNext = true → t.doms[pairDom n].skippedRun = s.doms[pairDom n].skippedRun + 1) ∧
      (s.doms[pairDom n].skipNext = false → t.doms[pairDom n].skippedRun = 0 ∧ t.doms[pairDom n].first = false ∧
        ∀ (i : Fin 16) (x : TaskDecl) (m off : Nat), im.tasks[i.val]? = some x → x.kind = .cyclic m off → s.cyc.count.toNat % m = off →
          s.doms[pairDom n].tasks[i].active = false →
          t.doms[pairDom n].tasks[i].active = true ∧ t.doms[pairDom n].tasks[i].deadline = s.cyc.count.toNat + m - 1) := by
  obtain ⟨doms, pend⟩ := released_switched n (pairReleased n s)
  refine gives_of_leaves (leaves_taskRelease n s) (taskRelease_run due) ?_
  generalize scheduleSoon (pairCore n) (runtimeService (pairDom n) (pairReleased n s)) = t at doms pend
  rw [doms, pend]
  cases skip : s.doms[pairDom n].skipNext with
  | true =>
    have path : pairReleased n s = skipCycle (pairDom n) s := if_pos skip
    rw [path]
    obtain ⟨cleared, counted⟩ := skipCycle_dom him
    exact ⟨skipCycle_raised him, cleared, fun _ => counted, fun e => nomatch e⟩
  | false =>
    have path : pairReleased n s = releaseDomain (pairDom n) (latchInputs (pairDom n) s) := if_neg (by rw [skip]; decide)
    have latched : shown (latchInputs (pairDom n) s).doms[pairDom n] = shown s.doms[pairDom n] := (seen_latchInputs (pairDom n) s).doms _
    have cyc : (latchInputs (pairDom n) s).cyc = s.cyc :=
      (kept_latchInputs (ps0 := [.cores, .doms, .mem, .voter, .solvers, .freeCtr]) _ s kept_refl (by decide)).only .cyc (by decide)
    rw [path]
    generalize latchInputs (pairDom n) s = u at latched cyc
    have image : u.doms[pairDom n].image = some im := (image_of_shown latched).trans him
    have skipped : (tasksReleased (pairDom n) im u).doms[pairDom n].skipNext = false := by
      have same : (tasksReleased (pairDom n) im u).doms[pairDom n].skipNext = u.doms[pairDom n].skipNext := (congrArg Dom.skipNext (tasksReleased_apart (pairDom n) im u) :)
      exact same.trans ((congrArg Dom.skipNext latched :) |>.trans skip)
    refine ⟨releaseDomain_raised image, ?_⟩
    rw [releaseDomain_dom image]
    refine ⟨skipped, fun e => absurd e (by decide), fun _ => ⟨rfl, rfl, fun i x m off hx kind at_ idle => ?_⟩⟩
    rw [← cyc] at at_ ⊢
    exact tasksReleased_cyclic hx kind at_ (by rw [tasks_of_shown latched]; exact idle)

end Sys2Proof.Proofs
end

section
/-! SUPPORT. Votes leave the cycle's count, the groups' release and the images (R57, R99, R125 to R128). -/

namespace Sys2Proof.Proofs
open Sys2Proof.Machine Sys2Proof.Safety Sys2Proof.Laws
set_option Elab.async false

/-! ## Votes leave the cycle's count, the groups' release and the images -/

/-- The cycle's count, the cycle of each group's release and the loaded images stay. -/
structure Timed (s t : State) : Prop where
  count : t.cyc.count = s.cyc.count
  rel : ∀ g : Fin 2, t.voter.grp[g].relAt = s.voter.grp[g].relAt
  images : ∀ d : DomId, t.doms[d].image = s.doms[d].image

theorem Timed.refl (s : State) : Timed s s := ⟨rfl, fun _ => rfl, fun _ => rfl⟩

theorem Timed.trans {s t u : State} (h : Timed s t) (k : Timed t u) : Timed s u :=
  ⟨k.count.trans h.count, fun g => (k.rel g).trans (h.rel g), fun d => (k.images d).trans (h.images d)⟩

theorem timed_foldl {α : Type} {f : State → α → State} (h : ∀ s x, Timed s (f s x)) (xs : List α) (s : State) : Timed s (xs.foldl f s) := by
  induction xs generalizing s with
  | nil => exact .refl s
  | cons x xs ih => exact (h s x).trans (ih _)

theorem timed_of_eq {s t : State} (hc : t.cyc.count = s.cyc.count) (hg : t.voter.grp = s.voter.grp) (hd : t.doms = s.doms) : Timed s t :=
  ⟨hc, fun _ => by rw [hg], fun _ => by rw [hd]⟩

theorem timed_of_kept {ps : List Part} {s t : State} (h : Kept ps s t) (hc : .cyc ∉ ps) (hv : .voter ∉ ps) (hd : .doms ∉ ps) : Timed s t :=
  timed_of_eq (congrArg Cyc.count (h.only .cyc hc)) (congrArg Voter.grp (h.only .voter hv)) (h.only .doms hd)

/-- What leaves the voter and the cycle, and what is known of its domains. -/
theorem timed_of_images {ps : List Part} {s t : State} (h : Kept ps s t) (hc : .cyc ∉ ps) (hv : .voter ∉ ps) (images : ∀ d : DomId, t.doms[d].image = s.doms[d].image) : Timed s t :=
  ⟨congrArg Cyc.count (h.only .cyc hc), fun _ => by rw [h.only .voter hv], images⟩

theorem timed_modGroup (g : Fin 2) {f : Group → Group} {s : State} (hf : (f s.voter.grp[g]).relAt = s.voter.grp[g].relAt) : Timed s (modGroup g f s) :=
  ⟨rfl, fun w => by
    by_cases hw : w = g
    · subst hw
      rw [modGroup_same]
      exact hf
    · rw [modGroup_other _ _ _ _ hw], fun _ => rfl⟩

theorem timed_modDom (d : DomId) {f : Dom → Dom} {s : State} (hf : (f s.doms[d]).image = s.doms[d].image) : Timed s (modDom d f s) :=
  ⟨rfl, fun _ => rfl, (lost_modDom d f s hf).images⟩

theorem timed_store (by_ : Option CoreId) (code off : Nat) (bs : List Byte) (s : State) : Timed s (store by_ code off bs s) where
  count := congrArg Cyc.count ((kept_store (ps0 := [.cores, .doms, .mem, .voter, .solvers, .freeCtr]) by_ code off bs s kept_refl (by decide)).only .cyc (by decide))
  rel _ := by rw [(stored_store by_ code off bs s).groups]
  images d := image_of_shown ((seen_store by_ code off bs s).doms d)

theorem timed_domWrite (d : DomId) (off : Nat) (bs : List Byte) (s : State) : Timed s (domWrite d off bs s) := timed_foldl (fun s c => timed_store none c off bs s) _ s

theorem timed_storeHeld (by_ : Option CoreId) (code off : Nat) (bs : List Byte) (s : State) : Timed s (storeHeld by_ code off bs s) := by
  unfold storeHeld
  split
  · exact timed_store _ _ _ _ s
  · split
    · exact timed_store _ _ _ _ s
    · next b _ _ =>
      have woken : Timed s (wakeBank b s) := timed_of_kept (kept_wakeBank (ps0 := [.memRegs, .banks]) b s kept_refl (by decide)) (by decide) (by decide) (by decide)
      exact woken.trans (timed_of_eq rfl rfl rfl)

theorem timed_transition (src inst dim frm to_ : Nat) (s : State) : Timed s (transition src inst dim frm to_ s) :=
  timed_of_kept (kept_transition (ps0 := [.arb]) src inst dim frm to_ s kept_refl (by decide)) (by decide) (by decide) (by decide)

theorem timed_setMembers (src : Nat) (g : Fin 2) (m : BitVec 3) (s : State) : Timed s (setMembers src g m s) := by
  have moved (frm to_ : Nat) : Timed s (transition src g.val 1 frm to_ s) := timed_transition src g.val 1 frm to_ s
  unfold setMembers
  dsimp only
  refine Timed.trans (moved _ _) (timed_modGroup g ?_)
  exact ((moved _ _).rel g).symm

theorem timed_reintEnd (result : Byte) (s : State) : Timed s (reintEnd result s) where
  count := congrArg Cyc.count ((kept_reintEnd (ps0 := [.cores, .doms, .voter, .boot, .log]) result s kept_refl (by decide)).only .cyc (by decide))
  rel := reintEnd_group Group.relAt (fun _ _ => rfl) result s
  images := (lost_reintEnd result s).images

theorem timed_resume (c : CoreId) (x : Contrib) (s : State) : Timed s (resume c x s) :=
  timed_of_kept (kept_resume (ps0 := [.cores]) c x s kept_refl (by decide)) (by decide) (by decide) (by decide)

theorem timed_joinGroup (l : Fin 3) (g : Fin 2) (s : State) : Timed s (joinGroup l g s) := by
  have members := timed_setMembers 2 g (Sys2Proof.Machine.setBit s.voter.grp[g].members l.val true) s
  have marks (u : State) : Timed u (modGroup g (joinedMarks l) u) := timed_modGroup g rfl
  have noted (u : State) : Timed u (joinNoted l g u) := timed_of_eq rfl rfl rfl
  exact (members.trans (marks _)).trans (noted _)

theorem timed_joinEnd (s : State) : Timed s (joinEnd s) := by
  unfold joinEnd
  refine (timed_reintEnd 0x01 s).trans (timed_foldl (fun s h => ?_) _ _)
  exact timed_modGroup h rfl

theorem timed_join (l : Fin 3) (g : Fin 2) (s : State) : Timed s (join l g s) := by
  rw [join_eq]
  split
  · exact (timed_joinGroup l g s).trans (timed_joinEnd _)
  · exact timed_joinGroup l g s

theorem timed_candMeets (g : Fin 2) (s : State) : Timed s (candMeets g s) := by
  unfold candMeets
  dsimp only
  split
  · split
    · exact (timed_join _ g s).trans (timed_resume _ _ _)
    · refine Timed.trans ?_ (timed_reintEnd _ _)
      exact timed_modGroup g rfl
  · exact .refl s

/-! ## Entry to SAFE and exclusions -/

theorem timed_safeGroup (s : State) (g : Fin 2) : Timed s (safeGroup s g) := by
  have off : Timed s (safetyOff g s) := timed_modDom _ rfl
  have members (u : State) : Timed u (setMembers 2 g 0 u) := timed_setMembers 2 g 0 u
  have cleared (u : State) : Timed u (modGroup g (fun x => { x with cand := 0, candGot := [], voted := [], vp := none, withheld := 0, mute := 0, queue := [] }) u) := timed_modGroup g rfl
  have abandoned (u : State) : Timed u (abandonTasks (groupDom g) u) := timed_modDom _ rfl
  have left (u : State) : Timed u (changeLeave (groupDom g) u) :=
    timed_of_images (kept_changeLeave (ps0 := [.doms, .hsb, .sync, .mbx, .arb, .log]) _ u kept_refl (by decide)) (by decide) (by decide) (lost_changeStop "CHANGE_STOPPED" (groupDom g) u).images
  exact (((off.trans (members _)).trans (cleared _)).trans (abandoned _)).trans (left _)

theorem timed_safeLanes (s : State) : Timed s (safeLanes s) := by
  have start : Timed s (safeStart s) := by
    have refused : Kept [.arb, .sync, .mbx] s (refusePending 0x05 "IN_SAFE" (setOper 2 .safe s)) := kept_refusePending _ _ _ (kept_setOper _ _ _ kept_refl (by decide)) (by decide)
    exact (timed_of_kept refused (by decide) (by decide) (by decide)).trans (timed_reintEnd 0x08 _)
  have halted (u : State) : Timed u (haltLanes u) := by
    have kept : Kept [.cores, .fg] u (haltLanes u) :=
      kept_permitsOff _ (kept_foldl kept_refl fun _ _ k => kept_stopCore _ _ (kept_stopCore _ _ k (by decide)) (by decide)) (by decide)
    exact timed_of_kept kept (by decide) (by decide) (by decide)
  exact ((start.trans (timed_safeGroup _ 0)).trans (timed_safeGroup _ 1)).trans (halted _)

theorem timed_enterSafe (cause : Nat) (grp : Option (Fin 2)) (s : State) : Timed s (enterSafe cause grp s) := by
  cases h : inSafe s with
  | true =>
    rw [enterSafe_idle cause grp h]
    exact .refl s
  | false =>
    refine ⟨congrArg Cyc.count ((kept_enterSafe (ps0 := [.cores, .doms, .voter, .hsb, .sync, .fg, .mbx, .ps, .boot, .arb, .log]) cause grp s kept_refl (by decide)).only .cyc (by decide)),
      fun g => ?_, (lost_enterSafe cause grp s).images⟩
    rw [enterSafe_voter cause grp h]
    exact (timed_safeLanes s).rel g

theorem timed_excludeFrom (l : Fin 3) (w : Fin 2) (s : State) : Timed s (excludeFrom l w s) := by
  cases h : s.voter.grp[w].members.getLsbD l.val with
  | false =>
    rw [excludeFrom_other h]
    exact .refl s
  | true =>
    have stopped : Timed s (stopLane l w s) :=
      timed_of_images (kept_trans (kept_dropLane (ps0 := [.cores, .doms, .hsb, .sync, .mbx, .arb, .log]) l w s kept_refl (by decide)) (kept_mono (kept_stopLane l w s) (by decide)))
        (by decide) (by decide) (lost_stopLane l w s).images
    rw [excludeFrom_member h]
    split
    · exact stopped.trans (timed_enterSafe _ _ _)
    · exact (stopped.trans (timed_setMembers 2 w _ _)).trans (timed_modGroup w rfl)

theorem timed_excludeMarks (l : Fin 3) (cause : Nat) (ins : List (Fin 2)) (s : State) : Timed s (excludeMarks l cause ins s) := by
  obtain ⟨groups, doms, -, -⟩ := excludeMarks_keeps l cause ins s
  refine timed_of_eq ?_ groups doms
  unfold excludeMarks
  dsimp only
  split <;> rfl

theorem timed_excludeLane (l : Fin 3) (cause : Nat) (g : Fin 2) (s : State) : Timed s (excludeLane l cause (some g) s) := by
  rw [excludeLane_eq]
  exact (timed_excludeMarks l cause _ s).trans (timed_foldl (fun s h => timed_excludeFrom l h s) _ _)

theorem timed_laneMemErr (code : Nat) (s : State) : Timed s (laneMemErr code s) := by
  unfold laneMemErr laneCause
  split
  · split
    · exact .refl s
    · exact (timed_excludeMarks _ 0x07 (allGroups.filter fun h => s.voter.grp[h].members.getLsbD _) s).trans (timed_foldl (fun s h => timed_excludeFrom _ h s) _ _)
  · exact .refl s

/-! ## A vote point that ends (R57, R99) -/

theorem timed_eocPassed (g : Fin 2) (x : Contrib) (s : State) : Timed s (eocPassed g x s) := by
  obtain ⟨bs, e⟩ := eocPassed_eq g x s
  have judged : Timed s (eocJudged g (votedImage g x s) s) := by
    have settled : Kept [.voter] s (settleTelegrams g ((memberLanes g s).headD 0) (votedImage g x s) s) := kept_settleTelegrams _ _ _ s kept_refl (by decide)
    have telegrams : Timed s (settleTelegrams g ((memberLanes g s).headD 0) (votedImage g x s) s) := by
      refine ⟨congrArg Cyc.count (settled.only .cyc (by decide)), fun w => ?_, fun d => by rw [settled.only .doms (by decide)]⟩
      unfold settleTelegrams
      split
      · rfl
      · exact (timed_modGroup g rfl).rel w
    exact (telegrams.trans (timed_modDom _ rfl)).trans (timed_of_kept (kept_startHolds g _) (by decide) (by decide) (by decide))
  have marked (u : State) : Timed u (modGroup g (eocMarks u.cyc.count) u) := timed_modGroup g rfl
  rw [e]
  exact (judged.trans (marked _)).trans (timed_storeHeld none 0 _ bs _)

theorem timed_voteStart (g : Fin 2) (p : VotePoint) (s : State) : Timed s (voteStart g p s) := by
  unfold voteStart
  dsimp only
  refine Timed.trans ?_ (timed_modGroup g rfl)
  split
  · exact timed_of_eq rfl rfl rfl
  · exact .refl s

theorem timed_lanesOut (g : Fin 2) (k : VoteKind) (mi la : List (Fin 3)) (s : State) : Timed s (lanesOut g k mi la s) := by
  have noted (u : State) (l : Fin 3) : Timed u (modGroup g (fun v => { v with mmkind := k.mm }) (modLane l (fun y => { y with vmin := inc y.vmin }) u)) := by
    have counted : Timed u (modLane l (fun y => { y with vmin := inc y.vmin }) u) := timed_of_eq rfl rfl rfl
    generalize modLane l (fun y => { y with vmin := inc y.vmin }) u = w at counted ⊢
    refine counted.trans (timed_modGroup g ?_)
    rfl
  exact (timed_foldl (fun u l => (noted u l).trans (timed_excludeLane l 0x01 g _)) mi s).trans (timed_foldl (fun u l => timed_excludeLane l 0x02 g u) la _)

theorem timed_voteResolve (g : Fin 2) (closed : Bool) (s : State) : Timed s (voteResolve g closed s) := by
  cases hp : s.voter.grp[g].vp with
  | none =>
    unfold voteResolve
    rw [hp]
    exact .refl s
  | some p =>
    cases he : voteEnd (memberLanes g s) p with
    | safe cause =>
      have failed : Timed (voteStart g p s) (voteFailed g p (memberLanes g s) (voteStart g p s)) := by
        refine Timed.trans (timed_foldl (fun u _ => ?_) _ _) (timed_modGroup g rfl)
        exact timed_of_eq rfl rfl rfl
      rw [voteResolve_safe closed hp he]
      exact ((timed_voteStart g p s).trans failed).trans (timed_enterSafe _ _ _)
    | pass x mi la =>
      have image (u : State) : Timed u (imageOut g p.kind x u) := by
        unfold imageOut
        split
        · exact timed_eocPassed g x u
        · exact .refl u
      have members (u : State) : Timed u (membersOn g x u) := timed_foldl (fun u l => timed_resume _ x u) _ u
      have candidate (u : State) : Timed u (candidateOn g closed p x u) := by
        unfold candidateOn
        dsimp only
        split
        · exact .refl u
        · have noted : Timed u (modGroup g (fun v => { v with voted := v.voted ++ [(x, p.opened + BitVec.ofNat 64 (winTicks g u))] }) u) := by
            refine timed_modGroup g ?_
            rfl
          refine noted.trans ?_
          generalize modGroup g _ u = w
          split
          · split
            · exact timed_reintEnd 0x06 w
            · exact .refl w
          · exact timed_candMeets g w
      rw [voteResolve_pass closed hp he]
      exact ((((timed_voteStart g p s).trans (timed_lanesOut g p.kind mi la _)).trans (image _)).trans (members _)).trans (candidate _)

theorem timed_contribute (l : Fin 3) (g : Fin 2) (x : Contrib) (s : State) : Timed s (contribute l g x s) := by
  unfold contribute
  refine timed_modGroup g ?_
  split_ifs
  · rfl
  · split
    · split_ifs <;> rfl
    · rfl
  · rfl
  · rfl

/-! ## The route-matrix unit's operations (R125 to R128) -/

theorem timed_rmuDecide (l op : Fin 3) (v : Word) (r : Rmu) (s : State) : Timed s (rmuDecide l op v r s).2 := by
  have locks (lv n : Nat) (b : Bool) : Timed s (setLock l lv n b s) := timed_store none _ _ _ s
  have counted (f : Rmu → Rmu) : Timed s (updRmu l f s) := timed_of_eq rfl rfl rfl
  unfold rmuDecide
  generalize setLock l = lock at locks ⊢
  generalize updRmu l = upd at counted ⊢
  dsimp only
  split
  · split
    · exact locks _ _ _
    · exact .refl s
  · split
    · exact .refl s
    · split
      · exact counted _
      · split
        · exact locks _ _ _
        · exact .refl s

theorem timed_rmuOp (l op : Fin 3) (v : Word) (s : State) : Timed s (rmuOp l op v s).2 := by
  have upd (f : Rmu → Rmu) (u : State) : Timed u (updRmu l f u) := timed_of_eq rfl rfl rfl
  cases armed : s.rmus[l].armed with
  | false =>
    rw [rmuOp_unarmed op v armed]
    exact timed_of_eq rfl rfl rfl
  | true =>
    by_cases hv : s.rmus[l].routes.toNat ≤ v.toNat
    · rw [rmuOp_badRoute op armed hv]
      exact timed_of_eq rfl rfl rfl
    · rw [rmuOp_read op armed (Nat.not_le.mp hv)]
      have read : Timed s (readWords (laneCore l 0) (laneMem l) (rmuWords s.rmus[l] op v.toNat) (updRmu l countOp s)).2 :=
        (upd countOp s).trans
          (timed_of_kept (kept_readWords (ps0 := [.cores, .memRegs, .memErrs]) _ _ _ _ kept_refl (by decide)) (by decide) (by decide) (by decide))
      generalize readWords _ _ _ _ = z at read ⊢
      split
      · exact (read.trans (upd _ z.2)).trans (timed_laneMemErr _ _)
      · exact read.trans (timed_rmuDecide l op v _ _)

end Sys2Proof.Proofs
end

section
/-! SUPPORT. The end of an agreement (R39, R94). -/

namespace Sys2Proof.Proofs
open Sys2Proof.Machine Sys2Proof.Safety Sys2Proof.Laws
set_option Elab.async false

/-! ## The interlocking's steps (R131 to R152) -/

theorem timed_rmuVoteStep (op : Fin 3) (r : Nat) (g : Fin 2) (s : State) (l : Fin 3) : Timed s (rmuVoteStep op r g s l) :=
  (timed_rmuOp l op (BitVec.ofNat 32 r) s).trans (timed_contribute l g _ _)

theorem timed_rmuVote (op : Fin 3) (r : Nat) (g : Fin 2) (ls : List (Fin 3)) (s : State) : Timed s (rmuVote op r g ls s).2 := by
  have given : Timed s (ls.foldl (rmuVoteStep op r g) s) := timed_foldl (timed_rmuVoteStep op r g) ls s
  unfold rmuVote
  split
  · exact .refl s
  · show Timed s (match (ls.foldl (rmuVoteStep op r g) s).voter.grp[g].vp with
      | none => (none, ls.foldl (rmuVoteStep op r g) s)
      | some p => match voteEnd (memberLanes g (ls.foldl (rmuVoteStep op r g) s)) p with
        | .pass y _ _ => (some (leNat y.items), voteResolve g ((memberLanes g (ls.foldl (rmuVoteStep op r g) s)).any fun l => p.got[l].isNone) (ls.foldl (rmuVoteStep op r g) s))
        | .safe _ => (none, voteResolve g ((memberLanes g (ls.foldl (rmuVoteStep op r g) s)).any fun l => p.got[l].isNone) (ls.foldl (rmuVoteStep op r g) s)) : Option Nat × State).2
    generalize ls.foldl (rmuVoteStep op r g) s = u at given ⊢
    cases u.voter.grp[g].vp with
    | none => exact given
    | some p =>
      dsimp only
      cases voteEnd (memberLanes g u) p with
      | pass y mi la => exact given.trans (timed_voteResolve g _ u)
      | safe c => exact given.trans (timed_voteResolve g _ u)

theorem timed_of_ixl {s t : State} (h : Kept [.ixl, .bus] s t) : Timed s t := timed_of_kept h (by decide) (by decide) (by decide)

theorem timed_modIxl (l : Fin 3) (f : Ixl → Ixl) (s : State) : Timed s (modIxl l f s) := timed_of_eq rfl rfl rfl

theorem timed_modRoute (l : Fin 3) (r : Nat) (f : RouteSt → RouteSt) (s : State) : Timed s (modRoute l r f s) := timed_of_eq rfl rfl rfl

theorem timed_releaseRoute (g : Fin 2) (r : Nat) (ls : List (Fin 3)) (s : State) : Timed s (releaseRoute g r ls s) := by
  have cleared (u : State) : Timed u (ls.foldl (fun s l => clearStep r l s) u) := timed_of_ixl (kept_mono (clearSteps_keep r ls u) (by decide))
  have idle (u : State) : Timed u (ls.foldl (fun s l => idleStep r l s) u) := timed_of_ixl (kept_mono ((idleWork u.cyc r).kept ls rfl) (by decide))
  unfold releaseRoute
  split
  · exact .refl s
  · exact ((cleared s).trans (timed_rmuVote 2 r g ls _)).trans (idle _)

theorem timed_eachLane (g : Fin 2) {f : Fin 3 → State → State} (h : ∀ l s, Timed s (f l s)) (s : State) : Timed s (eachLane g f s) := timed_foldl (fun s l => h l s) _ s

theorem timed_approachExpire (g : Fin 2) (r : Nat) (s : State) : Timed s (approachExpire g r s) := timed_releaseRoute g r _ s

theorem timed_emergencyExpire (g : Fin 2) (r : Nat) (s : State) : Timed s (emergencyExpire g r s) := timed_releaseRoute g r _ s

theorem timed_stepExpiries (g : Fin 2) (x : IxlDecl) (s : State) : Timed s (stepExpiries g x s) := by
  have lane (l : Fin 3) (u : State) : Timed u (holdExpire l ((List.range x.points.length).foldl (fun s p => moveExpire l p s) u)) :=
    timed_of_ixl (kept_holdExpire _ _ (kept_foldl kept_refl fun _ _ k => kept_moveExpire _ _ _ k (by decide)) (by decide))
  exact (timed_eachLane g lane s).trans (timed_foldl (fun u r => (timed_approachExpire g r u).trans (timed_emergencyExpire g r _)) _ _)

theorem timed_stepRelease (g : Fin 2) (x : IxlDecl) (r : Nat) (d : RouteDecl) (s : State) : Timed s (stepRelease g x r d s) := by
  have passage (l : Fin 3) (u : State) : Timed u (stepPassage x r d l u) := timed_of_ixl (kept_stepPassage _ _ _ _ _ kept_refl (by decide))
  have overlap (u : State) : Timed u (overlapExpire g r d u) := by
    rw [overlapExpire_eq]
    exact (timed_of_ixl (kept_mono ((overlapWork u.cyc r).kept _ rfl) (by decide))).trans (timed_releaseRoute g r _ _)
  exact (timed_eachLane g passage s).trans (overlap _)

theorem timed_answerIxl (l : Fin 3) (a : IxlAnswer) (s : State) : Timed s (answerIxl l a s) := timed_of_ixl (kept_answerIxl _ _ _ kept_refl (by decide))

theorem timed_setRoute (g : Fin 2) (r : Nat) (s : State) : Timed s (setRoute g r s) := by
  have held (ls : List (Fin 3)) (u : State) : Timed u (ls.foldl (fun s l => holdStep l s) u) := timed_foldl (fun u l => by
    unfold holdStep
    split
    · exact .refl u
    · exact timed_answerIxl l _ u) ls u
  have set_ (w : Nat) (ls : List (Fin 3)) (u : State) : Timed u (ls.foldl (fun s l => setStep r w l s) u) := timed_foldl (fun u l => by
    unfold setStep
    dsimp only
    split
    · exact (timed_answerIxl l (outcomeAnswer w) u).trans (timed_modRoute l r _ _)
    · exact timed_answerIxl l _ u) ls u
  have voted := (held (runLanes g s) s).trans (timed_rmuVote 1 r g ((runLanes g s).filter fun l => s.ixl[l].holdDone) _)
  rw [setRoute_eq]
  dsimp only
  split
  · exact voted
  · exact voted.trans (set_ _ _ _)

theorem timed_cancelRoute (g : Fin 2) (r : Nat) (s : State) : Timed s (cancelRoute g r s) := by
  have told_ (u : State) : Timed u ((runLanes g s).foldl (fun s l => cancelStep r l s) u) := timed_foldl (fun u l => by
    have asked : Timed u (modRoute l r (fun z => { z with cancel := true }) u) := timed_of_eq rfl rfl rfl
    unfold cancelStep
    split
    · exact timed_answerIxl l _ u
    · split
      · exact timed_answerIxl l _ u
      · exact timed_answerIxl l _ u
      · exact asked.trans (timed_answerIxl l _ _)
      · exact asked.trans (timed_answerIxl l _ _)
      · exact timed_answerIxl l _ u
      · exact timed_answerIxl l _ u
      · exact timed_answerIxl l _ u) _ u
  rw [cancelRoute_eq]
  exact (told_ s).trans (timed_releaseRoute g r _ _)

theorem timed_ixlRequest (g : Fin 2) (x : IxlDecl) (q : IxlReq) (s : State) : Timed s (ixlRequest g x q s) := by
  cases q with
  | set r => exact timed_setRoute g r s
  | cancel r => exact timed_cancelRoute g r s
  | emergency r => exact timed_of_ixl (kept_emergencyRoute _ _ _ _ kept_refl (by decide))
  | move p rev => exact timed_of_ixl (kept_movePoint _ _ _ _ kept_refl (by decide))

theorem timed_stepRequests (g : Fin 2) (x : IxlDecl) (s : State) : Timed s (stepRequests g x s) :=
  Timed.trans (timed_modGroup g rfl) (timed_foldl (fun u q => timed_ixlRequest g x q u) _ _)

theorem timed_cancelEnd (g : Fin 2) (r : Nat) (d : RouteDecl) (s : State) : Timed s (cancelEnd g r d s) :=
  (timed_foldl (fun u l => timed_modRoute l r (fun z => { z with mode := .approachLocked, cancel := false, approach := some (timerCycles d.approachUs u) }) u)
    (lanesWhere g r (fun l y => (y.cancel && (y.mode == .set || y.mode == .cleared)) && !d.approach.all fun i => provenClear l i s) s) s).trans (timed_releaseRoute g r _ _)

/-! ## The connections' steps (R143 to R149) -/

theorem timed_modConn (l : Fin 3) (g : Fin 2) (k : Nat) (f : ConnSt → ConnSt) (s : State) : Timed s (modConn l g k f s) := timed_of_eq rfl rfl rfl

theorem timed_writeEntry (l : Fin 3) (g : Fin 2) (k : Nat) (d : ConnDecl) (s : State) : Timed s (writeEntry l g k d s) := by
  unfold writeEntry
  split
  · exact timed_store _ _ _ _ s
  · exact .refl s

theorem timed_connShow (l : Fin 3) (g : Fin 2) (im : Image) (k : Nat) (d : ConnDecl) (s : State) : Timed s (connShow l g im k d s) := by
  unfold connShow
  split
  · exact .refl s
  · refine Timed.trans ?_ (timed_writeEntry l g k d _)
    split
    · exact timed_store _ _ _ _ s
    · exact .refl s

theorem timed_connExpire (l : Fin 3) (g : Fin 2) (im : Image) (k : Nat) (d : ConnDecl) (s : State) : Timed s (connExpire l g im k d s) := by
  have shown_ (f : ConnSt → ConnSt) : Timed s (connShow l g im k d (modConn l g k f s)) := (timed_modConn l g k f s).trans (timed_connShow l g im k d _)
  unfold connExpire
  split
  · exact .refl s
  · split
    · dsimp only
      split
      · exact (shown_ _).trans (timed_of_eq rfl rfl rfl)
      · exact shown_ _
    · exact .refl s

theorem timed_connReceive (l : Fin 3) (g : Fin 2) (im : Image) (k : Nat) (d : ConnDecl) (s : State) : Timed s (connReceive l g im k d s) := by
  unfold connReceive
  split
  · exact .refl s
  · split
    · exact timed_writeEntry l g k d s
    · exact ((timed_modConn l g k _ s).trans (timed_connShow l g im k d _)).trans (timed_connExpire l g im k d _)

theorem timed_connsReceive (g : Fin 2) (im : Image) (l : Fin 3) (s : State) : Timed s (connsReceive g im l s) :=
  timed_foldl (fun u (x : Nat × ConnDecl) => timed_connReceive l g im x.1 x.2 u) _ s

theorem timed_gateWrite (l : Fin 3) (g : Fin 2) (im : Image) (x : IxlDecl) (k : Nat) (d : ConnDecl) (s : State) : Timed s (gateWrite l g im x k d s) := by
  unfold gateWrite
  split
  · exact .refl s
  · split
    · exact .refl s
    · exact (timed_store _ _ _ _ s).trans (timed_modGroup g rfl)

theorem timed_telegramNext (l : Fin 3) (g : Fin 2) (k : Nat) (d : ConnDecl) (s : State) : Timed s (telegramNext l g k d s) := by
  unfold telegramNext
  split
  · exact .refl s
  · exact (timed_modConn l g k _ s).trans (timed_writeEntry l g k d _)

/-! ## The runtime's two parts of a group's cycle (R57, R131) -/

/-- The sections, points, timers and releases of a cycle (steps 2 to 5 of R131). -/
def ixlSeen (g : Fin 2) (x : IxlDecl) (s : State) : State :=
  (enum x.routes).foldl (fun s r => stepRelease g x r.1 r.2 s) (stepExpiries g x (eachLane g (fun l s => stepTimers x l (stepPoints g x l (stepSections g x l s))) s))

theorem timed_ixlSeen (g : Fin 2) (x : IxlDecl) (s : State) : Timed s (ixlSeen g x s) := by
  have lane (l : Fin 3) (v : State) : Timed v (stepTimers x l (stepPoints g x l (stepSections g x l v))) := by
    have sections : Timed v (stepSections g x l v) := timed_of_ixl (kept_stepSections _ _ _ _ kept_refl (by decide))
    have points (w : State) : Timed w (stepPoints g x l w) := timed_of_ixl (kept_stepPoints _ _ _ _ kept_refl (by decide))
    have timers (w : State) : Timed w (stepTimers x l w) := timed_of_ixl (kept_stepTimers _ _ _ kept_refl (by decide))
    exact (sections.trans (points _)).trans (timers _)
  exact ((timed_eachLane g lane s).trans (timed_stepExpiries g x _)).trans (timed_foldl (fun v (r : Nat × RouteDecl) => timed_stepRelease g x r.1 r.2 v) _ _)

theorem timed_ixlReceive (g : Fin 2) (s : State) : Timed s (ixlReceive g s) := by
  unfold ixlReceive
  split
  · exact .refl s
  · next im _ =>
    have received : Timed s (eachLane g (connsReceive g im) s) := timed_eachLane g (timed_connsReceive g im) s
    dsimp only
    generalize eachLane g (connsReceive g im) s = u at received ⊢
    split
    · next x _ => exact received.trans (timed_ixlSeen g x u)
    · exact received

theorem timed_ixlFinish (g : Fin 2) (s : State) : Timed s (ixlFinish g s) := by
  unfold ixlFinish
  split
  · exact .refl s
  · next im _ =>
    split
    · exact .refl s
    · have built (u : State) : Timed u (eachLane g (fun l s => (enum im.conns).foldl (fun s k => telegramNext l g k.1 k.2 s) s) (modGroup g (fun v => { v with builtAt := some u.cyc.count }) u)) :=
        Timed.trans (timed_modGroup g rfl) (timed_eachLane g (fun l v => timed_foldl (fun v (k : Nat × ConnDecl) => timed_telegramNext l g k.1 k.2 v) _ v) _)
      refine Timed.trans ?_ (built _)
      split
      · next x _ =>
        have routes (v : State) : Timed v ((enum x.routes).foldl (fun s r => eachLane g (stepRoute g x r.1 r.2) s) v) :=
          timed_foldl (fun v (r : Nat × RouteDecl) => timed_eachLane g (fun l w => timed_of_ixl (kept_stepRoute g x r.1 r.2 l w kept_refl (by decide))) v) _ v
        have gates (v : State) : Timed v (eachLane g (stepGates g x) v) := timed_eachLane g (fun l w => timed_of_ixl (kept_stepGates _ _ _ _ kept_refl (by decide))) v
        have cancels (v : State) : Timed v ((enum x.routes).foldl (fun s r => cancelEnd g r.1 r.2 s) v) := timed_foldl (fun v (r : Nat × RouteDecl) => timed_cancelEnd g r.1 r.2 v) _ v
        have written (v : State) : Timed v (eachLane g (fun l s => (enum im.conns).foldl (fun s k => gateWrite l g im x k.1 k.2 s) s) v) :=
          timed_eachLane g (fun l w => timed_foldl (fun w (k : Nat × ConnDecl) => timed_gateWrite l g im x k.1 k.2 w) _ w) v
        exact ((((timed_stepRequests g x s).trans (routes _)).trans (gates _)).trans (cancels _)).trans (written _)
      · exact .refl s

theorem timed_eocGive (l : Fin 3) (g : Fin 2) (s : State) : Timed s (eocGive l g s) := by
  unfold eocGive
  dsimp only
  split
  · exact .refl s
  · exact timed_contribute l g _ s

theorem timed_runtimeTurn (c : CoreId) (s : State) : Timed s (runtimeTurn c s) := by
  have switched (u : State) : Timed s (schedule c (modCore c (fun k => { k with resched := false }) s)) :=
    timed_of_kept (kept_schedule (ps0 := [.cores]) c _ (kept_modCore _ _ _ kept_refl (by decide)) (by decide)) (by decide) (by decide) (by decide)
  unfold runtimeTurn
  dsimp only
  generalize schedule c (modCore c (fun k => { k with resched := false }) s) = u at switched ⊢
  split
  · split
    · exact switched s
    · exact (switched s).trans (timed_eocGive _ _ u)
  · exact switched s

theorem timed_scheduleSoon (c : CoreId) (s : State) : Timed s (scheduleSoon c s) := by
  have marked : Timed s (modCore c (fun k => { k with resched := true }) s) := timed_of_eq rfl rfl rfl
  unfold scheduleSoon
  dsimp only
  split
  · exact marked.trans (timed_runtimeTurn c _)
  · exact marked

/-! ## AGREEMENT_END (R39, R94) -/

theorem timed_takeOver (g : Fin 2) (m l : Fin 3) (s : State) : Timed s (takeOver g m l s) := by
  have cores (f : Core → Core) (u : State) : Timed u (modCore (laneCore l g) f u) := timed_of_eq rfl rfl rfl
  have queue (i : Fin 5) (f : LsQueue → LsQueue) (u : State) : Timed u (modQueue i g f u) := timed_of_kept (kept_modQueue (ps0 := [.solvers]) _ _ _ u kept_refl (by decide)) (by decide) (by decide) (by decide)
  unfold takeOver
  dsimp only
  have tables (a : Vector Rmu 3) (b : Vector Ixl 3) (c : Vector (Vector (List ConnSt) 2) 3) (u : State) : Timed u { u with rmus := a, ixl := b, conns := c } := timed_of_eq rfl rfl rfl
  refine Timed.trans ?_ (tables _ _ _ _)
  split
  · exact ((cores _ s).trans (queue _ _ _)).trans (timed_store _ _ _ _ _)
  · exact (cores _ s).trans (queue _ _ _)

theorem timed_startCandidate (g : Fin 2) (s : State) : Timed s (startCandidate g s) := by
  unfold startCandidate
  dsimp only
  split
  · exact .refl s
  · split
    · exact .refl s
    · split
      · exact timed_of_eq rfl rfl rfl
      · next m _ _ _ =>
        have taken := timed_takeOver g m (reintLane s) s
        generalize takeOver g m (reintLane s) s = u at taken ⊢
        have opened (f : Dom → Dom) (hf : ∀ x, (f x).image = x.image) : Timed u (modDom (groupDom g) f u) := timed_modDom _ (hf _)
        have taken_ (f : Group → Group) (hf : ∀ x, (f x).relAt = x.relAt) (v : State) : Timed v (modGroup g f v) := timed_modGroup g (hf _)
        have phase (f : Reint → Reint) (v : State) : Timed v (modReint f v) := timed_of_eq rfl rfl rfl
        refine taken.trans (((opened _ ?_).trans (taken_ _ ?_ _)).trans (phase _ _))
        · exact fun _ => rfl
        · exact fun _ => rfl

theorem timed_agree (g : Fin 2) (s : State) : Timed s (agree g s) := by
  unfold agree
  split
  · exact .refl s
  · dsimp only
    refine Timed.trans (Timed.trans (timed_foldl (fun u r => timed_domWrite _ _ _ u) _ s) (timed_modGroup g rfl)) (timed_foldl (fun _ _ => ?_) _ _)
    exact timed_of_eq rfl rfl rfl

theorem domGroup_groupDom : ∀ g : Fin 2, domGroup (groupDom g) = some g := by decide

theorem kept_tasksReleased (d : DomId) (im : Image) (s : State) : Kept [.cores, .doms, .mem, .voter, .solvers, .freeCtr] s (tasksReleased d im s) := by
  have written : Kept [.cores, .doms, .mem, .voter, .solvers, .freeCtr] s (blockWritten d im s) := kept_domWrite _ _ _ _ kept_refl (by decide)
  have primed : Kept [.cores, .doms, .mem, .voter, .solvers, .freeCtr] s (firstPrimed d im (blockWritten d im s)) := by
    unfold firstPrimed
    split
    · exact kept_primeTimers _ _ _ (kept_primeEdges _ _ _ written (by decide)) (by decide)
    · exact written
  refine kept_foldl primed fun v x k => ?_
  exact kept_modDom _ _ _ (kept_primeTask _ _ _ _ _ _ (kept_privateCopy _ _ _ _ _ (kept_clearPartition _ _ _ _ _ k (by decide)) (by decide)) (by decide)) (by decide)

/-- A group's release notes its cycle. -/
theorem releaseDomain_rel {g : Fin 2} {s : State} (h : s.doms[groupDom g].image ≠ none) : (releaseDomain (groupDom g) s).voter.grp[g].relAt = some s.cyc.count := by
  obtain ⟨im, him⟩ := Option.ne_none_iff_exists'.1 h
  have count (u : State) : (raiseGroup g 0 u).voter = u.voter := (kept_raiseGroup (ps0 := [.cores]) g 0 u kept_refl (by decide)).only .voter (by decide)
  have cyc : (tasksReleased (groupDom g) im s).cyc = s.cyc := by
    have begun : Kept [.cores, .doms, .mem, .voter, .solvers, .freeCtr] s (tasksReleased (groupDom g) im s) := kept_tasksReleased _ im s
    exact begun.only .cyc (by decide)
  rw [releaseDomain_eq him]
  unfold releaseRaised
  rw [domGroup_groupDom]
  dsimp only
  rw [count, modGroup_same]
  exact congrArg (fun c : Cyc => some c.count) cyc

/-- The runtime's part of an agreement's end. -/
def agreedReleased (g : Fin 2) (s : State) : State :=
  let s := runtimeService (groupDom g) (releaseDomain (groupDom g) (ixlReceive g (agree g (startCandidate g s))))
  let s := if (runLanes g s).any fun l => !Sys2Proof.Machine.laneDue (groupDom g) l s then ixlFinish g s else s
  (runLanes g s).foldl (fun s l => scheduleSoon (laneCore l g) s) s

theorem agreementEnd_run {g : Fin 2} {s : State} (h : agreementDue g s = true) : exec (.agreementEnd g) s = .next (agreedReleased g s) :=
  congrArg Host.Outcome.next (if_neg (by rw [h]; decide))

theorem agreedReleased_rel {g : Fin 2} {s : State} (h : s.doms[groupDom g].image ≠ none) : (agreedReleased g s).voter.grp[g].relAt = some s.cyc.count := by
  have received : Timed s (ixlReceive g (agree g (startCandidate g s))) := ((timed_startCandidate g s).trans (timed_agree g _)).trans (timed_ixlReceive g _)
  unfold agreedReleased
  generalize ixlReceive g (agree g (startCandidate g s)) = u at received ⊢
  have released : (releaseDomain (groupDom g) u).voter.grp[g].relAt = some s.cyc.count := by
    rw [releaseDomain_rel (by rw [received.images]; exact h), received.count]
  generalize releaseDomain (groupDom g) u = v at released ⊢
  have served : Timed v (runtimeService (groupDom g) v) := timed_of_kept (kept_runtimeService (ps0 := [.wdg]) _ v kept_refl (by decide)) (by decide) (by decide) (by decide)
  generalize runtimeService (groupDom g) v = w at served ⊢
  dsimp only
  have finished : Timed w (if (runLanes g w).any fun l => !Sys2Proof.Machine.laneDue (groupDom g) l w then ixlFinish g w else w) := by
    split
    · exact timed_ixlFinish g w
    · exact .refl w
  have switched := (served.trans finished).trans (timed_foldl (fun x l => timed_scheduleSoon (laneCore l g) x)
    (runLanes g (if (runLanes g w).any fun l => !Sys2Proof.Machine.laneDue (groupDom g) l w then ixlFinish g w else w)) _)
  exact (switched.rel g).trans released

end Sys2Proof.Proofs
end

section
/-! SUPPORT. A pair's completion (R39, R40). -/

namespace Sys2Proof.Proofs
open Sys2Proof.Machine Sys2Proof.Safety Sys2Proof.Laws
set_option Elab.async false

theorem agreementEnd_row {g : Fin 2} {s : State} (image : s.doms[groupDom g].image ≠ none) (due : agreementDue g s = true) :
    Gives (.agreementEnd g) s [.cyc, .cores, .doms, .mem, .memRegs, .memErrs, .banks, .bus, .voter, .solvers, .rmus, .ixl, .conns, .hsb, .sync, .fg, .mbx, .wdg, .cim, .esc, .ps, .boot, .arb, .log, .freeCtr] fun t =>
      t.voter.grp[g].relAt = some s.cyc.count :=
  gives_of_leaves ((leaves_agreementEnd g s).mono (by decide)) (agreementEnd_run due) (agreedReleased_rel image)

/-! ## TASK_COMPLETE of a pair (R39, R40) -/

theorem domOf_pairCore : ∀ n : Fin 4, domOf (pairCore n) = some (pairDom n) := by decide

theorem pairOf_pairCore : ∀ n : Fin 4, pairOf (pairCore n) = some n := by decide

theorem laneBit_pairCore : ∀ n : Fin 4, laneBit (pairCore n) = 0 := by decide

/-- With no shutdown under way no completion is late. -/
theorem shutdownLate_false {s : State} (h : noRelease s = false) : shutdownLate s = false := by
  obtain ⟨quiet_, rung⟩ := Bool.or_eq_false_iff.1 h
  obtain ⟨tpf, orderly⟩ := Bool.or_eq_false_iff.1 quiet_
  have no_tpf : s.power.tpf = none := Option.isSome_eq_false_iff.1 tpf |> Option.isNone_iff_eq_none.1
  have no_orderly : s.boot.orderly = none := Option.isSome_eq_false_iff.1 orderly |> Option.isNone_iff_eq_none.1
  have no_rung : s.esc.rung2 = none := Option.isSome_eq_false_iff.1 rung |> Option.isNone_iff_eq_none.1
  unfold shutdownLate shutdownAt
  rw [no_tpf, no_orderly, no_rung]
  rfl

/-- A completed task's check-ins. -/
def checkinsDone (c : CoreId) (im : Image) (i : Fin 16) (s : State) : State := match im.tasks[i.val]? with
  | some x => autoCheckins c x s
  | none => s

theorem kept_checkinsDone (c : CoreId) (im : Image) (i : Fin 16) (s : State) : Kept [.cim] s (checkinsDone c im i s) := by
  unfold checkinsDone
  split
  · exact kept_autoCheckins _ _ _ kept_refl (by decide)
  · exact kept_refl

theorem taskComplete_run {n : Fin 4} {i : Fin 16} {s : State} {im : Image} (him : s.doms[pairDom n].image = some im) (task : s.cores[pairCore n].task = some i)
    (runs : s.cores[pairCore n].stopped = false) (opened : s.doms[pairDom n].tasks[i].open_.getLsbD 0 = true) (free : noRelease s = false) :
    exec (.taskComplete (pairCore n) i) s = .next (pairComplete n im i (checkinsDone (pairCore n) im i s)) := by
  have open_ : execOpen (pairCore n) i.val s = true := by
    unfold execOpen
    rw [domOf_pairCore, laneBit_pairCore]
    simpa using opened
  have late : shutdownLate (checkinsDone (pairCore n) im i s) = false := by
    have kept := kept_checkinsDone (pairCore n) im i s
    refine shutdownLate_false ?_
    unfold noRelease quiet
    rw [kept.only .power (by decide), kept.only .boot (by decide), kept.only .esc (by decide)]
    exact free
  show execTaskComplete (pairCore n) i s = _
  unfold execTaskComplete
  rw [domOf_pairCore]
  dsimp only
  rw [him]
  dsimp only
  rw [if_neg (by rw [task, runs, open_]; simp), pairOf_pairCore]
  refine congrArg Host.Outcome.next ?_
  show (if shutdownLate (checkinsDone (pairCore n) im i s) then _ else pairComplete n im i (checkinsDone (pairCore n) im i s)) = _
  exact if_neg (by rw [late]; decide)

/-- What a pair's completion leaves in its domain. -/
def completed (i : Fin 16) (img : List Byte) (x : Dom) : Dom :=
  { x with commit := img, commits := x.commits ++ [(x.tasks[i].deadline, img)], tasks := x.tasks.set i { x.tasks[i] with open_ := 0 } }

theorem pairComplete_eq {n : Fin 4} {im : Image} {i : Fin 16} {s : State} (free : noRelease s = false) : pairComplete n im i s =
    coreComplete (pairCore n) i (modDom (pairDom n) (completed i (commitBytes im 0 i.val s.doms[pairDom n].commit s)) s) := by
  have core : Kept [.cores, .doms] s (coreComplete (pairCore n) i (modDom (pairDom n) (completed i (commitBytes im 0 i.val s.doms[pairDom n].commit s)) s)) :=
    kept_coreComplete _ _ _ (kept_modDom _ _ _ kept_refl (by decide)) (by decide)
  refine if_neg (Bool.eq_false_iff.1 ?_)
  show noRelease (coreComplete (pairCore n) i (modDom (pairDom n) (completed i (commitBytes im 0 i.val s.doms[pairDom n].commit s)) s)) = false
  unfold noRelease quiet
  rw [core.only .power (by decide), core.only .boot (by decide), core.only .esc (by decide)]
  exact free

theorem pairComplete_dom {n : Fin 4} {im : Image} {i : Fin 16} {s : State} (free : noRelease s = false) :
    (pairComplete n im i s).doms[pairDom n] = completed i (commitBytes im 0 i.val s.doms[pairDom n].commit s) s.doms[pairDom n] := by
  have core (u : State) : Kept [.cores] u (coreComplete (pairCore n) i u) := kept_coreComplete _ _ _ kept_refl (by decide)
  rw [pairComplete_eq free, (core _).only .doms (by decide), modDom_same]

theorem commitBytes_get {im : Image} {code t b : Nat} {old : List Byte} {s : State} (hb : b < im.areas.qLen) :
    (commitBytes im code t old s)[b]? = some (if im.qOwner.any fun o => o.1 == t && o.2.1 ≤ b && b < o.2.1 + o.2.2 then readByte code (im.areas.qBase + b) s else old.getD b 0) := by
  unfold commitBytes
  rw [List.getElem?_map, List.getElem?_range hb]
  rfl

theorem taskComplete_row {n : Fin 4} {i : Fin 16} {s : State} {im : Image} (him : s.doms[pairDom n].image = some im) (task : s.cores[pairCore n].task = some i)
    (runs : s.cores[pairCore n].stopped = false) (opened : s.doms[pairDom n].tasks[i].open_.getLsbD 0 = true) (free : noRelease s = false) :
    Gives (.taskComplete (pairCore n) i) s [.cores, .doms, .cim] fun t =>
      t.doms[pairDom n].tasks[i].open_ = 0 ∧ t.doms[pairDom n].tasks[i].active = false ∧ t.doms[pairDom n].published = s.doms[pairDom n].published ∧
      ∀ b, b < im.areas.qLen → t.doms[pairDom n].commit[b]? =
        some (if im.qOwner.any fun o => o.1 == i.val && o.2.1 ≤ b && b < o.2.1 + o.2.2 then readByte 0 (im.areas.qBase + b) s else s.doms[pairDom n].commit.getD b 0) := by
  have checked := kept_checkinsDone (pairCore n) im i s
  have run := taskComplete_run him task runs opened free
  generalize checkinsDone (pairCore n) im i s = u at checked run
  have doms : u.doms = s.doms := checked.only .doms (by decide)
  have mem : u.mem = s.mem := checked.only .mem (by decide)
  have unreleased : noRelease u = false := by
    unfold noRelease quiet
    rw [checked.only .power (by decide), checked.only .boot (by decide), checked.only .esc (by decide)]
    exact free
  have kept : Kept [.cores, .doms, .cim] s (pairComplete n im i u) := kept_pairComplete _ _ _ _ (kept_mono checked (by decide)) (by decide)
  refine ⟨_, run, kept.1, ?_⟩
  beta_reduce
  rw [pairComplete_dom unreleased, doms]
  have closed : (completed i (commitBytes im 0 i.val s.doms[pairDom n].commit u) s.doms[pairDom n]).tasks[i].open_ = 0 := by
    unfold completed
    simp
  refine ⟨closed, ?_, rfl, fun b hb => ?_⟩
  · unfold TaskSt.active
    rw [closed]
    rfl
  · have read : readByte 0 (im.areas.qBase + b) u = readByte 0 (im.areas.qBase + b) s := by
      unfold readByte
      rw [mem]
    exact (commitBytes_get hb).trans (by rw [read])

end Sys2Proof.Proofs
end

section
/-! SUPPORT. The output deadline and the overrun limit (R39, R40, R52 to R54). -/

namespace Sys2Proof.Proofs
open Sys2Proof.Machine Sys2Proof.Safety Sys2Proof.Laws
set_option Elab.async false

/-! ## OVERRUN_LIMIT_STOP (R54) -/

/-- What stopping a pair leaves of its image and of what it publishes. -/
theorem pairStopping_output (n : Fin 4) (s : State) : (pairStopping n s).doms[pairDom n].image = s.doms[pairDom n].image ∧
    (pairStopping n s).doms[pairDom n].published = s.doms[pairDom n].published := by
  have aborted : shown (abortSolvers (pairDom n) (stopCore (pairCore n) s)).doms[pairDom n] = shown s.doms[pairDom n] := (seen_abortSolvers (pairDom n) _).doms _
  unfold pairStopping
  generalize abortSolvers (pairDom n) (stopCore (pairCore n) s) = u at aborted ⊢
  have abandoned : (abandonTasks (pairDom n) u).doms[pairDom n] = { u.doms[pairDom n] with tasks := u.doms[pairDom n].tasks.map fun t => { t with open_ := 0 } } := modDom_same _ _ u
  obtain ⟨c, left, -⟩ := changeStop_dom "CHANGE_STOPPED" (pairDom n) (abandonTasks (pairDom n) u)
  have final : (changeLeave (pairDom n) (abandonTasks (pairDom n) u)).doms[pairDom n] = _ := left
  rw [final, abandoned]
  exact ⟨(congrArg Dom.image aborted :), (congrArg Dom.published aborted :)⟩

theorem failImage_congr {d : DomId} {s t : State} (image : t.doms[d].image = s.doms[d].image) (published : t.doms[d].published = s.doms[d].published) : failImage d t = failImage d s := by
  unfold failImage
  rw [image, published]

/-- A stopped pair's next output is its fail image. -/
theorem pairStop_commit (n : Fin 4) (s : State) : (pairStop n none s).doms[pairDom n].commit = failImage (pairDom n) s := by
  obtain ⟨image, published⟩ := pairStopping_output n s
  have fault (u : State) : (hsbFault (pairDom n) u).doms = u.doms := rfl
  rw [pairStop_eq, fault, setRun_dom, modDom_same]
  exact failImage_congr image published

/-- The pair's fail values are published at once. -/
def stopPublished (x : Dom) : Dom := { x with published := x.commit, stopDue := false, pstop := true, rptSent := false }

theorem overrunLimitStop_run {n : Fin 4} {s : State} (run : s.doms[pairDom n].run = true) (dl : s.cyc.dl = true) (limit : ovrLimit n s ≤ s.doms[pairDom n].ovrRun.toNat) :
    exec (.overrunLimitStop n) s = .next (modDom (pairDom n) stopPublished (pairStop n none s)) :=
  congrArg Host.Outcome.next (if_neg (by rw [run, dl, decide_eq_false (Nat.not_lt.2 limit)]; decide))

theorem overrunLimitStop_row {n : Fin 4} {s : State} (run : s.doms[pairDom n].run = true) (dl : s.cyc.dl = true) (limit : ovrLimit n s ≤ s.doms[pairDom n].ovrRun.toNat) :
    Gives (.overrunLimitStop n) s [.cores, .doms, .pairs, .solvers, .hsb, .sync, .mbx, .arb, .log] fun t =>
      t.doms[pairDom n].run = false ∧ t.doms[pairDom n].published = failImage (pairDom n) s ∧ t.doms[pairDom n].pstop = true ∧ t.doms[pairDom n].rptSent = false ∧
        t.cores[pairCore n].stopped = true := by
  obtain ⟨halts, stopped, -⟩ := pairStop_stopped n s
  have commit := pairStop_commit n s
  refine gives_of_leaves ((leaves_overrunLimitStop n s).mono (by decide)) (overrunLimitStop_run run dl limit) ?_
  generalize pairStop n none s = u at halts stopped commit
  rw [modDom_same]
  exact ⟨halts, commit, rfl, rfl, stopped⟩

/-! ## OUTPUT_DEADLINE (R39, R40, R52, R53) -/

theorem kept_pairDeadline' (n : Fin 4) (s : State) : Kept [.doms, .sync] s (pairDeadline n s) := kept_pairDeadline _ s kept_refl (by decide)

theorem hsbFault_doms (d : DomId) (s : State) : (hsbFault d s).doms = s.doms := rfl

/-- A pair's deadline leaves the other domains. -/
theorem pairDeadline_other {n : Fin 4} {d : DomId} (h : d ≠ pairDom n) (s : State) : (pairDeadline n s).doms[d] = s.doms[d] := by
  unfold pairDeadline
  dsimp only
  split_ifs
  · exact modDom_other _ _ _ _ h
  · rfl
  · exact modDom_other _ _ _ _ h
  · exact (congrArg (fun ds : Vector Dom 6 => ds[d]) (hsbFault_doms (pairDom n) _)).trans (modDom_other _ _ _ _ h)
  · rw [sealArea_other h]
    exact modDom_other _ _ _ _ h

/-- What a running pair publishes and counts at its output deadline. -/
structure DeadlineTaken (count : Nat) (late : Bool) (x y : Dom) : Prop where
  run : y.run = true
  met : late = false → y.published = (((x.commits.filter fun c => c.1 ≤ count).getLast?.map Prod.snd).getD x.published) ∧ y.ovrRun = 0 ∧ y.rptSent = false
  overran : late = true → y.published = x.published ∧ y.ovrRun = inc8 x.ovrRun ∧ y.ovrTotal = inc x.ovrTotal ∧ y.ovrSince = inc x.ovrSince ∧ y.rptSent = true ∧ y.skipNext = true

theorem pairDeadline_taken {n : Fin 4} {s : State} (run : s.doms[pairDom n].run = true) (goes : s.doms[pairDom n].stopDue = false) (oper : s.arb.oper ≠ .hold) :
    DeadlineTaken s.cyc.count.toNat (overrunning (pairDom n) s) s.doms[pairDom n] (pairDeadline n s).doms[pairDom n] := by
  unfold pairDeadline
  dsimp only
  rw [if_neg (by rw [goes]; decide), if_neg (by rw [run]; decide), if_neg (by simpa using oper)]
  cases late : overrunning (pairDom n) s with
  | true =>
    rw [if_pos rfl, hsbFault_doms, modDom_same]
    exact ⟨run, fun h => absurd h (by decide), fun _ => ⟨rfl, rfl, rfl, rfl, rfl, rfl⟩⟩
  | false =>
    rw [if_neg (by decide), sealArea_dom, modDom_same]
    exact ⟨run, fun _ => ⟨rfl, rfl, rfl⟩, fun h => absurd h (by decide)⟩

theorem kept_pairDeadlines (ns : List (Fin 4)) (s : State) : Kept [.doms, .sync] s (ns.foldl (fun s n => pairDeadline n s) s) :=
  kept_foldl kept_refl fun _ _ k => kept_pairDeadline _ _ k (by decide)

theorem overrunning_congr {d : DomId} {s t : State} (hd : t.doms[d] = s.doms[d]) (hc : t.cyc = s.cyc) : overrunning d t = overrunning d s := by
  unfold overrunning
  rw [hd, hc]

/-- All pairs' deadlines, as one pair sees them. -/
theorem pairDeadlines_taken {n : Fin 4} {s : State} (run : s.doms[pairDom n].run = true) (goes : s.doms[pairDom n].stopDue = false) (oper : s.arb.oper ≠ .hold) :
    DeadlineTaken s.cyc.count.toNat (overrunning (pairDom n) s) s.doms[pairDom n] (allPairs.foldl (fun s n => pairDeadline n s) s).doms[pairDom n] := by
  obtain ⟨u, ⟨cyc, arb⟩, before, after⟩ := foldl_turn (f := fun s n => pairDeadline n s) (view := fun n s => s.doms[pairDom n]) (I := fun u => u.cyc = s.cyc ∧ u.arb = s.arb)
    (fun u m h => ⟨((kept_pairDeadline' m u).only .cyc (by decide)).trans h.1, ((kept_pairDeadline' m u).only .arb (by decide)).trans h.2⟩)
    (fun u m n h => pairDeadline_other (fun e => h (pairDom_injective n m e)) u) allPairs nodup_allPairs (mem_allPairs n) s ⟨rfl, rfl⟩
  rw [after, ← before, ← cyc, ← overrunning_congr before cyc]
  exact pairDeadline_taken (by rw [before]; exact run) (by rw [before]; exact goes) (by rw [arb]; exact oper)

/-- Pairs' deadlines leave a group's domain. -/
theorem pairDeadlines_group (g : Fin 2) (s : State) : (allPairs.foldl (fun s n => pairDeadline n s) s).doms[groupDom g] = s.doms[groupDom g] := by
  generalize allPairs = ns
  induction ns generalizing s with
  | nil => rfl
  | cons n ns ih => exact (ih _).trans (pairDeadline_other (pairDom_ne_groupDom n g) s)

/-! ## Groups at the output deadline -/

/-- A group's end of cycle has been voted, and no candidate waits. -/
def EocVoted (g : Fin 2) (s : State) : Prop := s.doms[groupDom g].run = true → s.voter.grp[g].eocAt = some s.cyc.count ∧ s.voter.grp[g].voted = []

theorem eocDeadline_voted {g : Fin 2} {s : State} (h : EocVoted g s) : eocDeadline g s = s := by
  unfold eocDeadline
  dsimp only
  split
  · rfl
  · next runs =>
    obtain ⟨at_, voted⟩ := h (by
      cases hr : s.doms[groupDom g].run with
      | true => rfl
      | false => exact absurd (by rw [hr]; rfl) runs)
    rw [if_pos at_, voted]
    exact if_neg (by simp)

theorem groupPublish_other {g : Fin 2} {d : DomId} (h : d ≠ groupDom g) (s : State) : (groupPublish g s).doms[d] = s.doms[d] := by
  unfold groupPublish
  split
  · exact modDom_other _ _ _ _ h
  · rfl

theorem groupPublish_same (g : Fin 2) (s : State) : ∃ img, (groupPublish g s).doms[groupDom g] = { s.doms[groupDom g] with published := img } ∧
    (s.doms[groupDom g].run = true → s.voter.grp[g].lastEoc = true → inSafe s = false → img = s.doms[groupDom g].voted) := by
  unfold groupPublish
  split
  · rw [modDom_same]
    exact ⟨_, rfl, fun _ _ _ => rfl⟩
  · next held => exact ⟨s.doms[groupDom g].published, rfl, fun run eoc safe => absurd (by rw [run, eoc, safe]; rfl) held⟩

theorem kept_groupPublish' (g : Fin 2) (s : State) : Kept [.doms] s (groupPublish g s) := kept_groupPublish _ _ kept_refl (by decide)

theorem groupDom_injective : ∀ g h : Fin 2, groupDom g = groupDom h → g = h := by decide

/-- A group's part of the output deadline. -/
def groupDeadline (s : State) (g : Fin 2) : State := groupPublish g (eocDeadline g s)

/-- What the groups' parts leave, when every running group's end of cycle has been voted. -/
theorem groupDeadlines_voted {s : State} (voted : ∀ g : Fin 2, EocVoted g s) : Kept [.doms] s (allGroups.foldl groupDeadline s) ∧
    (∀ n : Fin 4, (allGroups.foldl groupDeadline s).doms[pairDom n] = s.doms[pairDom n]) ∧
    ∀ g : Fin 2, s.doms[groupDom g].run = true → s.voter.grp[g].lastEoc = true → inSafe s = false → (allGroups.foldl groupDeadline s).doms[groupDom g].published = s.doms[groupDom g].voted := by
  have first : groupDeadline s 0 = groupPublish 0 s := congrArg (groupPublish 0) (eocDeadline_voted (voted 0))
  have keeps := kept_groupPublish' 0 s
  have other : (groupPublish 0 s).doms[groupDom 1] = s.doms[groupDom 1] := groupPublish_other (by decide) s
  have second : groupDeadline (groupPublish 0 s) 1 = groupPublish 1 (groupPublish 0 s) := by
    refine congrArg (groupPublish 1) (eocDeadline_voted ?_)
    unfold EocVoted
    rw [other, keeps.only .voter (by decide), keeps.only .cyc (by decide)]
    exact voted 1
  have all : allGroups.foldl groupDeadline s = groupPublish 1 (groupPublish 0 s) := by
    show groupDeadline (groupDeadline s 0) 1 = _
    rw [first, second]
  have safe : inSafe (groupPublish 0 s) = inSafe s := inSafe_congr (by rw [keeps.only .arb (by decide)])
  rw [all]
  refine ⟨kept_groupPublish _ _ keeps (by decide), fun n => ?_, fun g run eoc outside => ?_⟩
  · rw [groupPublish_other (pairDom_ne_groupDom n 1).symm, groupPublish_other (pairDom_ne_groupDom n 0).symm]
  · rcases (by omega : g = 0 ∨ g = 1) with rfl | rfl
    · obtain ⟨img, same, value⟩ := groupPublish_same 0 s
      rw [groupPublish_other (by decide), same]
      exact value run eoc outside
    · obtain ⟨img, same, value⟩ := groupPublish_same 1 (groupPublish 0 s)
      rw [same]
      refine (value ?_ ?_ (safe.trans outside)).trans (by rw [other])
      · rw [other]
        exact run
      · rw [keeps.only .voter (by decide)]
        exact eoc

/-! ## The DEADLINE source (R296) -/

theorem pairCore_ne_laneCore : ∀ (n : Fin 4) (l : Fin 3) (g : Fin 2), pairCore n ≠ laneCore l g := by decide

theorem raiseIrq_other {c d : CoreId} (h : d ≠ c) (bit : Fin 7) (s : State) : (raiseIrq c bit s).cores[d] = s.cores[d] := modCore_other h _ s

theorem raiseGroup_pair (g : Fin 2) (bit : Fin 7) (n : Fin 4) (s : State) : (raiseGroup g bit s).cores[pairCore n] = s.cores[pairCore n] := by
  unfold raiseGroup
  dsimp only
  generalize (allLanes.filter fun l => s.voter.grp[g].members.getLsbD l.val || s.voter.grp[g].cand.getLsbD l.val) = ls
  generalize ((memberLanes g s).map fun l => s.cores[laneCore l g].arch.retired.toNat).foldl max 0 = top
  induction ls generalizing s with
  | nil => rfl
  | cons l ls ih =>
    refine (ih _).trans ?_
    rw [modCore_other (pairCore_ne_laneCore n l g), raiseIrq_other (pairCore_ne_laneCore n l g)]

/-- The pairs' part of the DEADLINE source. -/
def pairRaised (s : State) (n : Fin 4) : State := if s.doms[pairDom n].run then raiseIrq (pairCore n) 1 s else s

theorem pairRaised_other {m n : Fin 4} (h : n ≠ m) (s : State) : (pairRaised s m).cores[pairCore n] = s.cores[pairCore n] := by
  unfold pairRaised
  split
  · exact raiseIrq_other (fun e => h (pairCore_injective n m e)) 1 s
  · rfl

theorem pairRaised_doms (s : State) (n : Fin 4) : (pairRaised s n).doms = s.doms := by
  unfold pairRaised
  split <;> rfl

theorem pairsRaised_pending {n : Fin 4} {s : State} (run : s.doms[pairDom n].run = true) : (allPairs.foldl pairRaised s).cores[pairCore n].arch.ipend.getLsbD 1 = true := by
  obtain ⟨u, doms, -, after⟩ := foldl_turn (f := pairRaised) (view := fun n s => s.cores[pairCore n]) (I := fun u => u.doms = s.doms)
    (fun u m h => (pairRaised_doms u m).trans h) (fun u m n h => pairRaised_other h u) allPairs nodup_allPairs (mem_allPairs n) s rfl
  rw [after, pairRaised, if_pos (by rw [doms]; exact run)]
  exact raiseIrq_pending _ 1 u (by decide)

/-- A group's part of the DEADLINE source. -/
def groupRaised (s : State) (g : Fin 2) : State := if s.doms[groupDom g].run then raiseGroup g 1 s else s

theorem groupRaised_pair (n : Fin 4) (s : State) (g : Fin 2) : (groupRaised s g).cores[pairCore n] = s.cores[pairCore n] := by
  unfold groupRaised
  split
  · exact raiseGroup_pair g 1 n s
  · rfl

theorem raiseDeadline_eq (s : State) : raiseDeadline s = groupRaised (groupRaised (allPairs.foldl pairRaised s) 0) 1 := rfl

theorem raiseDeadline_pending {n : Fin 4} {s : State} (run : s.doms[pairDom n].run = true) : (raiseDeadline s).cores[pairCore n].arch.ipend.getLsbD 1 = true := by
  rw [raiseDeadline_eq, groupRaised_pair, groupRaised_pair]
  exact pairsRaised_pending run

/-! ## The output deadline as a whole -/

/-- The deadline has been taken. -/
def deadlineNoted (s : State) : State := { s with cyc := { s.cyc with dl := true } }

theorem outputDeadline_run {s : State} (due : deadlineDue s = true) (goes : quiet s = false) :
    exec .outputDeadline s = .next (hsbDeadline (raiseDeadline (allGroups.foldl groupDeadline (allPairs.foldl (fun s n => pairDeadline n s) (deadlineNoted s))))) := by
  refine congrArg Host.Outcome.next ((if_neg (by rw [due]; decide)).trans ?_)
  exact if_neg (Bool.eq_false_iff.1 goes)

theorem outputDeadline_row {s : State} (due : deadlineDue s = true) (goes : quiet s = false) (voted : ∀ g : Fin 2, EocVoted g s) :
    Gives .outputDeadline s [.cyc, .cores, .doms, .mem, .memRegs, .banks, .voter, .solvers, .ixl, .hsb, .sync, .fg, .mbx, .cim, .esc, .ps, .boot, .arb, .log, .freeCtr] fun t => t.cyc.dl = true ∧
      (∀ g : Fin 2, s.doms[groupDom g].run = true → s.voter.grp[g].lastEoc = true → inSafe s = false → t.doms[groupDom g].published = s.doms[groupDom g].voted) ∧
      ∀ n : Fin 4, s.doms[pairDom n].run = true → s.doms[pairDom n].stopDue = false → s.arb.oper ≠ .hold →
        t.cores[pairCore n].arch.ipend.getLsbD 1 = true ∧ DeadlineTaken s.cyc.count.toNat (overrunning (pairDom n) s) s.doms[pairDom n] t.doms[pairDom n] := by
  have taken (n : Fin 4) := pairDeadlines_taken (n := n) (s := deadlineNoted s)
  have apart (g : Fin 2) := pairDeadlines_group g (deadlineNoted s)
  have pairs := kept_pairDeadlines allPairs (deadlineNoted s)
  refine gives_of_leaves ((leaves_outputDeadline s).mono (by decide)) (outputDeadline_run due goes) ?_
  generalize allPairs.foldl (fun s n => pairDeadline n s) (deadlineNoted s) = u at taken apart pairs ⊢
  have voter : u.voter = s.voter := pairs.only .voter (by decide)
  have arb : u.arb = s.arb := pairs.only .arb (by decide)
  have cyc : u.cyc = { s.cyc with dl := true } := pairs.only .cyc (by decide)
  obtain ⟨keeps, same, published⟩ := groupDeadlines_voted (s := u) fun g => by
    unfold EocVoted
    rw [apart, voter, cyc]
    exact voted g
  have raised : Kept [.cores] (allGroups.foldl groupDeadline u) (raiseDeadline (allGroups.foldl groupDeadline u)) := kept_raiseDeadline _ kept_refl (by decide)
  have pending (n : Fin 4) := raiseDeadline_pending (n := n) (s := allGroups.foldl groupDeadline u)
  have told_ : Kept [.hsb, .sync] (raiseDeadline (allGroups.foldl groupDeadline u)) (hsbDeadline (raiseDeadline (allGroups.foldl groupDeadline u))) :=
    kept_hsbDeadline _ kept_refl (by decide)
  generalize hsbDeadline (raiseDeadline (allGroups.foldl groupDeadline u)) = t at told_ ⊢
  have doms : t.doms = (allGroups.foldl groupDeadline u).doms := (told_.only .doms (by decide)).trans (raised.only .doms (by decide))
  have safe : inSafe u = inSafe s := inSafe_congr (by rw [arb])
  refine ⟨?_, fun g run eoc outside => ?_, fun n run goes_ oper => ?_⟩
  · rw [told_.only .cyc (by decide), raised.only .cyc (by decide), keeps.only .cyc (by decide), cyc]
  · rw [doms]
    refine (published g ?_ ?_ (safe.trans outside)).trans (by rw [apart]; rfl)
    · rw [apart]
      exact run
    · rw [voter]
      exact eoc
  · have pair := taken n run goes_ oper
    rw [told_.only .cores (by decide), doms, same]
    exact ⟨pending n (by rw [same]; exact pair.run), pair⟩

end Sys2Proof.Proofs
end

section
/-! SUPPORT. The events of the control cycle (R31 to R57). -/

namespace Sys2Proof.Proofs
open Sys2Proof.Machine Sys2Proof.Safety Sys2Proof.Laws
set_option Elab.async false

/-! ## The events of the control cycle, together -/

theorem outputDeadline_gives {s : State} (due : deadlineDue s = true) (goes : quiet s = false)
    (voted : ∀ g : Fin 2, s.doms[groupDom g].run = true → s.voter.grp[g].eocAt = some s.cyc.count ∧ s.voter.grp[g].voted = []) :
    Gives .outputDeadline s [.cyc, .cores, .doms, .mem, .memRegs, .banks, .voter, .solvers, .ixl, .hsb, .sync, .fg, .mbx, .cim, .esc, .ps, .boot, .arb, .log, .freeCtr] fun t => t.cyc.dl = true ∧
      (∀ g : Fin 2, s.doms[groupDom g].run = true → s.voter.grp[g].lastEoc = true → inSafe s = false → t.doms[groupDom g].published = s.doms[groupDom g].voted) ∧
      ∀ n : Fin 4, s.doms[pairDom n].run = true → s.doms[pairDom n].stopDue = false → s.arb.oper ≠ .hold →
        t.cores[pairCore n].arch.ipend.getLsbD 1 = true ∧
        (overrunning (pairDom n) s = false → t.doms[pairDom n].published =
            (((s.doms[pairDom n].commits.filter fun c => c.1 ≤ s.cyc.count.toNat).getLast?.map Prod.snd).getD s.doms[pairDom n].published) ∧ t.doms[pairDom n].ovrRun = 0 ∧ t.doms[pairDom n].rptSent = false) ∧
        (overrunning (pairDom n) s = true → t.doms[pairDom n].published = s.doms[pairDom n].published ∧ t.doms[pairDom n].ovrRun = inc8 s.doms[pairDom n].ovrRun ∧
          t.doms[pairDom n].ovrTotal = inc s.doms[pairDom n].ovrTotal ∧ t.doms[pairDom n].ovrSince = inc s.doms[pairDom n].ovrSince ∧ t.doms[pairDom n].rptSent = true ∧ t.doms[pairDom n].skipNext = true) := by
  obtain ⟨t, run, only, dl, groups, pairs⟩ := outputDeadline_row due goes voted
  refine ⟨t, run, only, dl, groups, fun n runs goes_ oper => ?_⟩
  obtain ⟨pending, taken⟩ := pairs n runs goes_ oper
  exact ⟨pending, taken.met, taken.overran⟩

/-- Settles O20: each event of the control cycle is followed through the steps of its row. At T_k nothing touches the cycle's counts but `cycleTurn`; input ready is judged from
`readyAt`; a pair's cyclic task is released once among its domain's tasks; votes leave the cycle's count and the groups' release (`Timed`), so A_k's note stands; a completion is
followed through its commit; D_k is seen pair by pair; and a pair at its limit publishes the fail image of its stop. -/
theorem cycleEventsAdvanceTheControlCycle : Obligations.CycleEventsAdvanceTheControlCycle := by
  unfold Obligations.CycleEventsAdvanceTheControlCycle
  refine ⟨fun s due => cycleStart_row due, fun s awaited nothing come => inputReady_row (readyAt_floor nothing) awaited come,
    fun s x v awaited on train valid limit come => inputReady_row (readyAt_train on train valid limit) awaited come,
    fun s awaited late come => returnLimit_row awaited late come, fun n s im image due => taskRelease_row image due, fun g s image due => agreementEnd_row image due,
    fun n i s im image task runs opened free => taskComplete_row image task runs opened free, fun s due goes voted => outputDeadline_gives due goes voted,
    fun n s run dl limit => overrunLimitStop_row run dl limit⟩

end Sys2Proof.Proofs
end
